-- ==== Sys2Proof/Word.lean ====
section
/-!
DEFINITION. Word.lean: the plain word types and the fixed sets of names that operands, registers and state share.
-/
namespace Sys2Proof

/-- One byte of a frame, an image or a record. -/
abbrev Byte := BitVec 8

/-- The masters of the object dictionary (R591) and the sequencers' internal writer Q (R595). -/
inductive Master where
  | H | S | T | F | Q
  deriving DecidableEq, Repr

/-- The variants of R1. -/
inductive Variant where
  | A | B | C
  deriving DecidableEq, Repr

/-- The four phase groups of R22, in the order of the group sub-indices of R135. -/
inductive Group where
  | input | pack | east | west
  deriving DecidableEq, Repr

/-- The two energy-share ports, which are also the two fabric ports. -/
inductive Port where
  | east | west
  deriving DecidableEq, Repr

/-- The two CAN controllers. -/
inductive CanBus where
  | a | b
  deriving DecidableEq, Repr

/-- The three levels of a PWM output (R88). -/
inductive Level where
  | H | L | Z
  deriving DecidableEq, Repr

/-- What the core samples at a boundary of a group: VRAIL_S and the group's low-side voltage in mV; the power command of the
rail voltage loop in mW; the current that a Provider group's own loop asks for in mA; whether every active phase has stayed
within ±1.0 A for one cycle; the frequency of the reference (0.1 kHz; 0 = none) and the time since its last edge or marker in
steps of 60 ps. -/
structure Sample where
  vrail : Nat
  vlow : Nat
  pv : Int
  iexp : Nat
  nearZero : Bool
  fsync : Nat
  edge : Nat
  deriving DecidableEq, Repr

namespace Group
/-- Group number: 0 input, 1 pack, 2 East, 3 West (instance codes of the core fault kinds). -/
def num : Group → Nat
  | input => 0
  | pack => 1
  | east => 2
  | west => 3

/-- The group of a number, where there is one. -/
def ofNum? : Nat → Option Group
  | 0 => some input
  | 1 => some pack
  | 2 => some east
  | 3 => some west
  | _ => none

/-- Every group, in sub-index order. -/
def all : List Group := [input, pack, east, west]

/-- The port of a link group. -/
def port? : Group → Option Port
  | east => some .east
  | west => some .west
  | _ => none
end Group

namespace Port
/-- Port number: 0 East, 1 West. -/
def num : Port → Nat
  | east => 0
  | west => 1

/-- The phase group of a link port. -/
def group : Port → Group
  | east => .east
  | west => .west

/-- The other port of the node. -/
def other : Port → Port
  | east => west
  | west => east
end Port

namespace CanBus
/-- Controller number: 0 CANA, 1 CANB. -/
def num : CanBus → Nat
  | a => 0
  | b => 1
end CanBus

namespace Master
/-- The master codes of OD_LAST_ERROR (R616): 0 device, 1 H, 2 S, 3 T, 4 F, 5 Q. -/
def code : Master → Nat
  | H => 1
  | S => 2
  | T => 3
  | F => 4
  | Q => 5
end Master

end Sys2Proof
end

