-- ==== Sys2Proof/Syntax.lean ====
section
/-!
DEFINITION. Syntax.lean: the commands the block takes, one constructor per row of spec/opcode_table.json, with the operands
each row's rule names (sensed quantities, masters, ports, frame bodies). Sensed voltages are in mV and currents in mA unless said.
-/
namespace Sys2Proof

/-- What a common scan observes beside its result words: a phase's mean H fraction in ppm (R472), a pack current step in mA and mV
(R474), a self-heating step of an SNTC input in 0.1 °C and W (R475), a refresh calibration of a converter's next channel (R421). -/
inductive Obs where
  | path (p : Fin 16) (dH : Nat)
  | packStep (i0 i1 v0 v1 : Int)
  | heat (k : Fin 4) (before after dP : Int)
  | refresh (mc : Fin 4) (ofs : Int) (gain : Nat)
  deriving DecidableEq, Repr

/-- A word or page that a scrub finds uncorrectable, with what stands in it (R708, R722): an image of a bank, a record of the
recorder ring, objects, a frame of an interface buffer, the retained area. `a`: the word's address. -/
inductive SramWord where
  | image (a : Nat) (n : Fin 2) (kind : Fin 10)
  | scan (a i : Nat)
  | event (a i : Nat)
  | object (a : Nat) (keys : List Nat)
  | canFrame (a : Nat) (cb : CanBus)
  | fabFrame (a : Nat) (p : Port)
  | retained (a : Nat)
  deriving DecidableEq, Repr

/-- What a flash scrub finds (R722): a page corrected with two or more bit errors in a region 1-5, or an uncorrectable page. -/
inductive FlashPage where
  | corrected (region : Fin 6) (sector : Nat)
  | journal (sector : Nat)
  | bank (n : Fin 2)
  | log (i : Nat)
  | capture (i : Nat)
  deriving DecidableEq, Repr

/-- What the core and the front end give of one transition of the rail probe (R480): the rail-side charge of the delivering phases from
ISNSn during H, nC; the mean IRAIL of the preceding hold, mA; the transition's length, µs; VRAIL_S at the ends of the holds before and
after it, µV. -/
structure ProbeStep where
  charge : Int
  irail : Int
  dt : Nat
  v0 : Int
  v1 : Int
  deriving DecidableEq, Repr

/-- The commands and events of the part. -/
inductive Instr where
  /-- POWER_ON_RESET (R556). VAUX below 4.2 V for 5 µs, or VCORE or VDD33 below its POR level, asserts power-on reset and clears every domain. -/
  | powerOnReset
  /-- RAIL_POR (R557). VCORE or VDD33 falling below its own POR level asserts a power-on reset and sets RAIL_POR in RESET_CAUSE. -/
  | railPor
  /-- POWER_ON_RESET_RELEASE (R65). VAUX has stayed at or above 4.2 V for the 1.0 ms of step 1, so power-on reset releases and bring-up continues. -/
  | powerOnResetRelease (dipMs : Nat)
  /-- VAUX_WARNING (R556). VAUX below 5.5 V for 10 µs raises VAUX_WARNING, sets VAUX_STATE and commits the journal, with no reset. -/
  | vauxWarning (vaux : Nat)
  /-- VAUX_WARNING_CLEAR (R556). VAUX above 5.8 V for 10 ms after a warning clears the warning and sets VAUX_STATE to 0. -/
  | vauxWarningClear
  /-- NRST_CORE_RESET (R542). nRST low for 2.0 µs asserts a core reset. -/
  | nrstCoreReset (external : Bool)
  /-- NRST_ESCALATION (R542). nRST still low at 5.0 ms escalates the core reset to a system reset. -/
  | nrstEscalation
  /-- RESET_RELEASE (R543). nRST high for 2.0 µs releases a pin reset, writes RESET_CAUSE and starts the release sequence at step 1. -/
  | resetRelease (lowUs : Nat)
  /-- NRST_DRIVE_END (R544). The device's own drive of nRST, for a chip reset or an ECUReset, ends after its set width. -/
  | nrstDriveEnd
  /-- BRINGUP_STEP_COMPLETE (R65). A bring-up step completes and the next step starts, with BRINGUP_STEP reporting the step in progress.
  `pins`: three samples of the strap pins, four bits each; `tight`: OTP areas whose tight read fails; `flash`: the size found, MB; `ecc`:
  blocks of the retained area with an uncorrectable word. -/
  | bringupStepComplete (pins tight flash : Nat) (ecc : List Nat)
  /-- CORE_HANDOVER (R130). The shell writes held latches and timing words, then HANDOVER, the Stratus limits are lifted, and the device enters its mode. -/
  | coreHandover (vbus : Nat)
  /-- WAKE_PIN (R50). A WAKE pin high level lasting 50 µs is a wake event that starts bring-up from Park or Storage when enabled. -/
  | wakePin
  /-- VBUS_ATTACH (R50). VBUS_S rising through 6.0 V after 100 ms below 3.0 V is an attach, which wakes the device or starts a classification. -/
  | vbusAttach
  /-- PARK_CHECK (R73). Every PARK_CHECK seconds in Park, the always-on domain wakes the scheduler for the Park scans, and the charger evaluates the results. -/
  | parkCheck (done : Bool)
  /-- MODE_REQ_WRITE (R56). A master writes its MODE_REQ slot, the write is checked against the requestable modes, and SQ0 resolves the target. -/
  | modeReqWrite (m : Master) (v : Nat) (others : List (Master × Nat))
  /-- MODE_LEASE_EXPIRY (R58). A MODE_REQ.H or MODE_REQ.F slot not rewritten within its lease reverts to none. -/
  | modeLeaseExpiry (m : Master)
  /-- MODE_TARGET_REEVALUATION (R57). SQ0 re-evaluates MODE_TARGET once per millisecond, and acts only on a changed value. -/
  | modeTargetReevaluation
  /-- IDLE_PARK_DELAY_EXPIRY (R53). Idle with a target of none for IDLE_PARK_DELAY starts the Park entry sequence. -/
  | idleParkDelayExpiry
  /-- WAKE_HOLD_EXPIRY (R64). WAKE_HOLD ends after bring-up, and a Park, Storage or none target is then acted on. -/
  | wakeHoldExpiry
  /-- PARK_ENTRY_ADVANCE (R71). A stage of the Park entry sequence completes and the next starts, ending with the groups at Z, the shell off and MODE_STATE 1. -/
  | parkEntryAdvance
  /-- HEARTBEAT_LOSS (R79). No shell heartbeat for 1.0 ms makes the core treat the shell as absent and the always-on domain set MODE_STATE 6. -/
  | heartbeatLoss
  /-- STRATUS_LINK_HOLD_EXPIRY (R126). 500 ms after Stratus entry the link contracts begin their 20 ms ramp to zero current. -/
  | stratusLinkHoldExpiry
  /-- STRATUS_LINK_RAMP_END (R126). The 20 ms Stratus link ramp completes, the link group goes to Z and the contract is taken as Neutral. -/
  | stratusLinkRampEnd
  /-- NFAILOVER_PULSE_END (R533). The nFAILOVER pulse ends after its configured width, or after the later of two overlapping ends. -/
  | nfailoverPulseEnd
  /-- PORT_LATCH_WRITE (R110). The shell writes a latch or timing word through the handshake port, and the core acknowledges it as pending or refuses it. -/
  | portLatchWrite (w again : Nat) (src : Option (Master × Nat))
  /-- COMMIT (R113). A COMMIT port write releases every held word to apply at each group's next boundary. -/
  | commit
  /-- HEARTBEAT (R116). The shell's hardware writes HEARTBEAT every 100 µs, which changes no latch. -/
  | heartbeat
  /-- SWITCHING_CYCLE_BOUNDARY (R164). At a group's switching-cycle boundary the core applies pending words and then evaluates fold-back, direction, load step, shedding, adding, balancing and commands. -/
  | switchingCycleBoundary (g : Group) (x : Sample)
  /-- SHED_DECISION (R152). After 128 consecutive qualifying boundaries, the phase of highest position at weight 1 enters SHEDDING. -/
  | shedDecision (g : Group)
  /-- SHED_BLOCK_END (R153). Shedding becomes allowed again 128 boundaries after a load step. -/
  | shedBlockEnd (g : Group)
  /-- BALANCING_UPDATE (R159). Every 16 boundaries the core updates the trims of the ACTIVE phases of each group that is not frozen. -/
  | balancingUpdate (g : Group) (avg : List Int)
  /-- FOLDBACK (R171). A fold-back factor below 1 for 10 ms raises FOLDBACK. -/
  | foldback (g : Group)
  /-- FOLD_STOP (R171). 50 ms at q below 0.50 stops the group with every phase at Z and raises FOLD_STOP, or FOLD_LOCKOUT on a third stop within 10 s. -/
  | foldStop (g : Group)
  /-- FOLD_RESTART (R171). 500 ms after a fold-back stop the group restarts by soft-start. -/
  | foldRestart (g : Group)
  /-- SOFT_START_END (R167). Soft-start ends at the boundary where 256 cycles have passed and the reference equals RAIL_V. -/
  | softStartEnd (g : Group)
  /-- PASS_THROUGH_ENTRY (R94). The required boost on-time below the minimum for three consecutive cycles holds every active input phase at H. -/
  | passThroughEntry
  /-- PHASE_CYCLE_START (R91). At a phase's start instant the controlled switch turns on and blanking begins. -/
  | phaseCycleStart (p : Fin 16)
  /-- CURRENT_TERMINATION (R91). ISNSn crossing the peak command less the ramp terminates the controlled switch, and the complementary switch turns on after the dead time. -/
  | currentTermination (p : Fin 16) (isns : Int) (t : Nat)
  /-- MAX_ON_TIME_END (R151). The controlled switch is ended at the duty limit even though the comparator has not tripped. -/
  | maxOnTimeEnd (p : Fin 16)
  /-- FEEDFORWARD_UPDATE (R95). An envelope decode adds a new I_ff to the peak command within 250 ns, without waiting for a boundary. -/
  | feedforwardUpdate (g : Group) (iff : Int)
  /-- PHASE_PEAK (R122). |ISNSn| reaching 60 A sets the phase to Z for the rest of the cycle, and three consecutive cycles latch it. -/
  | phasePeak (p : Fin 16)
  /-- STAGE_FAULT (R122). ISNSn at the stage-fault level for 1 µs latches the phase at Z. -/
  | stageFault (p : Fin 16)
  /-- RAIL_OV (R122). VRAIL_S above 108 % of RAIL_V for 200 ns stops every group delivering into the rail. -/
  | railOv
  /-- RAIL_OV_PERSIST (R122). A rail over-voltage persisting for 10 ms also turns DISC_GATE off. -/
  | railOvPersist
  /-- RAIL_OV_RELEASE (R122). VRAIL_S falling below 104 % of RAIL_V releases the rail over-voltage action. -/
  | railOvRelease (held : Bool) (vbus vrail : Nat)
  /-- SERVO_UNLOCK (R122). A delay-line servo out of lock for 10 µs makes all groups use the longest dead time with the trims at 0. -/
  | servoUnlock (g : Group)
  /-- SERVO_RELOCK (R122). A servo back in lock for 1 ms releases the servo-unlock action. -/
  | servoRelock (g : Group)
  /-- CORE_STALL (R120). No handshake activity for 500 ns forces the PWM outputs to Z and sets the Overcast latch. -/
  | coreStall
  /-- CORE_SPEED_UPDATE (R106). Once per millisecond the shell computes the speed index from the ring count and updates CORE_SPEED. -/
  | coreSpeedUpdate (count : Nat)
  /-- ISNS_ZERO_MEASUREMENT (R141). After a phase has been at Z for 1 ms its zero level is measured, and an out-of-range level excludes the phase. -/
  | isnsZeroMeasurement (p : Fin 16) (mv : Nat)
  /-- BAL_AT_CLAMP (R161). A trim standing at its clamp for 1 s raises BAL_AT_CLAMP. -/
  | balAtClamp (p : Fin 16)
  /-- HEADROOM (R31). VRAIL_S less a low-side voltage below 2.0 V for 10 µs sets that group to Z and raises a headroom fault. -/
  | headroom (g : Group)
  /-- GROUP_APPLY (R136). A write of a group number checks the stored values and writes that group's ORDER, FREQ, SLOPE and TRIM words with HOLD, then COMMIT. -/
  | groupApply (m : Master) (v : Nat)
  /-- SYNC_LOCKED (R176). A group reports locked after 64 cycles within ±1 % of the SYNC target instants. -/
  | syncLocked (g : Group)
  /-- SYNC_RANGE (R176). A group not locked after 10 ms raises SYNC_RANGE and keeps to its own oscillator. -/
  | syncRange (g : Group)
  /-- SYNC_LOST (R179). Lock loss makes the group slew back to f_set and raise SYNC_LOST. -/
  | syncLost (g : Group)
  /-- FREQ_PLAN_CHECK (R178). Every millisecond the shell compares FREQ_NOW with the plan and unlocks a group found in an excluded band. -/
  | freqPlanCheck
  /-- VBUS_DROP (R209). VBUS_S below the drop latch for 500 ns pauses the input group, turns DISC_GATE off and hands the rail to the pack. -/
  | vbusDrop (vbus : Nat)
  /-- LOAD_DUMP (R209). VBUS_S above a non-zero dump latch for 200 ns turns DISC_GATE off within 1 µs. -/
  | loadDump (vbus : Nat)
  /-- SOURCE_RECONNECT (R211). A completed qualification reconnects the source, turns DISC_GATE on and starts the input group. -/
  | sourceReconnect (held vbus vrail : Nat)
  /-- OVER_RAIL (R25). VBUS_S above the rail setpoint by 1.00 V for 10 µs opens the disconnect FET and raises OVER_RAIL. -/
  | overRail (vbus : Nat)
  /-- OVER_RAIL_RECONNECT (R25). VBUS_S below the rail setpoint for 10 ms reconnects an OVER_RAIL source. -/
  | overRailReconnect (vbus vrail : Nat)
  /-- REVERSE_CURRENT (R206). An input phase current below −2.0 A sets the input group to Z and turns DISC_GATE off as a drop. -/
  | reverseCurrent (p : Fin 16) (dropFirst : Bool) (vbus : Nat)
  /-- VBUS_DETACH (R185). VBUS_S below 3.0 V for 100 ms sets SRC_STATE to ABSENT. -/
  | vbusDetach
  /-- PRECHARGE_COMPLETE (R204). VRAIL_S within 2.0 V of VBUS_S completes the DISC_GATE turn-on. -/
  | prechargeComplete
  /-- DISC_OPEN (R207). A precharge that does not raise VRAIL_S by 1.0 V in 10 ms raises DISC_OPEN and blocks the source. -/
  | discOpen
  /-- DISC_SHORT (R207). An input phase above +2.0 A for 100 µs with DISC_GATE off raises DISC_SHORT and blocks the source. -/
  | discShort (p : Fin 16)
  /-- SRC_CLASSIFY (R186). A write of 1 requests a classification, which waits while the source is disconnected. -/
  | srcClassify (m : Master) (v : Nat)
  /-- CLASSIFICATION_WINDOW_TEST (R188). At 20 ms the window test latches the provisional row and turns DISC_GATE on with precharge, or ends at over 60 V. -/
  | classificationWindowTest (voc vrail : Nat)
  /-- CLASSIFICATION_STEP_START (R187). At 40 ms the input group adds STEP_I to its command. -/
  | classificationStepStart (v1 : Nat) (i1 : Int)
  /-- CLASSIFICATION_STEP_END (R187). At 45 ms the step current is removed. -/
  | classificationStepEnd (cut : Bool)
  /-- CLASSIFICATION_RESULT (R191). At 100 ms the row is chosen, the latches are written with COMMIT, and SRC_TYPE and SRC_STATE are set. -/
  | classificationResult (i2 : Int) (v2f v2s ripplePp : Nat) (periods : List Nat) (vbus : Nat) (ibus : Int) (vrail : Nat)
  /-- RECLASSIFICATION (R194). An UNKNOWN source inside an enabled window for 100 ms is classified afresh. -/
  | reclassification
  /-- IIN_LIMIT_UPDATE (R201). Every millisecond IIN_LIMIT is recomputed and written to ILIM_IN when it has moved by 0.5 A. -/
  | iinLimitUpdate (vbus : Nat) (ibus : Int) (ripplePp : Nat) (periods : List Nat)
  /-- HARNESS_HIGH (R203). I_HARN below half the row's ILIM for 10 s raises HARNESS_HIGH. -/
  | harnessHigh
  /-- FRAME_START (R253). An active FS edge starts a frame, judges the last frame, transmits the grant and releases the feedforward power. -/
  | frameStart (edges period : Nat)
  /-- FRAME_TIMER (R229). In ACTIVE, the frame timer stands in for a missing FS edge and counts a bad frame. -/
  | frameTimer (edges : Nat)
  /-- FEED_LOST (R230). No active FS edge for 4 frame periods discards the demand queue, zeroes feedforward and caps the grant. -/
  | feedLost
  /-- ENV_DOUT_RELEASE (R231). No ENV_BCLK edge for 1 µs puts ENV_DOUT at high impedance. -/
  | envDoutRelease
  /-- DEMAND_HEADER (R232). Slot 0 of ENV_DIN gives SEQ, look-ahead and flags, and counts any sequence gap. -/
  | demandHeader (w : BitVec 32)
  /-- DEMAND_SLOT (R236). A pair's demand slot raises the queue entries for its due frames, or MUTE clears them. -/
  | demandSlot (p : Fin 16) (w : BitVec 32)
  /-- GRANT_COMPUTATION (R246). At the last on-time slot the grant engine computes the terms, G and DUR for the frame. -/
  | grantComputation
  /-- GRANT_LATE (R260). A grant not computed by the next frame start is sent as 0 and raises GRANT_LATE. -/
  | grantLate
  /-- ENV_CFG_WRITE (R226). A write of ENV_CFG takes effect at the next active FS edge and returns an ACTIVE port to SEARCHING. -/
  | envCfgWrite (m : Master) (v : Nat)
  /-- COMMON_TRIGGER (R404). When the last converter finishes, the common scan ends, its consumers evaluate, and every converter starts its next scan. -/
  | commonTrigger (period : Nat) (obs : List Obs)
  /-- SLOT_COMPLETE (R398). A converter's slot ends and its result word is written into RESULTS. -/
  | slotComplete (ch : Fin 64) (raw : Int) (isns : List Int) (ovr unr : Bool) (dt : Nat)
  /-- SCAN_COMPLETE (R404). A converter finishes its scan and waits for the common trigger. -/
  | scanComplete (mc : Fin 4) (time : Nat)
  /-- SCAN_STALL (R439). A converter that has not finished within twice its expected time plus 1 ms raises SCAN_STALL and is restarted. -/
  | scanStall (mc : Fin 4) (elapsed : Nat)
  /-- PACK_PRESENT (R265). The presence conditions held for 100 ms declare the pack present, or attach a new pack. -/
  | packPresent (vpack absentMs : Nat)
  /-- PACK_ABSENT (R265). VPACK_S below n × 0.500 V for 1 ms declares the pack absent and raises PACK_REMOVED. -/
  | packAbsent (vpack : Nat)
  /-- PACK_LOST (R292). The removal detector trips while charging, sets the pack group to Z and raises PACK_LOST. -/
  | packLost (vpack : Nat)
  /-- OPEN_TAP_TEST (R267). Every 10 s an open-tap test loads each tap in turn and raises OPEN_TAP on failure. -/
  | openTapTest (taps : List (Nat × Int))
  /-- CV_TERMINATION (R278). A charge current at or below I_TERM for 60 s under the CV loop moves the charger to TOPOFF. -/
  | cvTermination
  /-- TOPOFF_END (R275). TOPOFF_T elapsed moves the charger to DONE. -/
  | topoffEnd
  /-- SAFETY_TIMER_TICK (R289). Once per second the safety timer advances PROGRESS and WALL. -/
  | safetyTimerTick (iavg : Nat)
  /-- TIMER_EXPIRED (R290). The safety timer's count reaching its limit stops charging and enters FAULT. -/
  | timerExpired
  /-- PRECOND_TIMEOUT (R280). PRECOND lasting PRECHG_T raises PRECOND_TIMEOUT. -/
  | precondTimeout
  /-- CELL_IMBALANCE (R300). A rested spread above IMB_LIMIT for 60 s raises CELL_IMBALANCE. -/
  | cellImbalance
  /-- OCV_CORRECTION (R295). After REST_T at low current, PACK_SOC is corrected to the OCV curve. -/
  | ocvCorrection
  /-- PACK_CELLS_WRITE (R263). A write of PACK_CELLS is checked against range, charger state and R29, and 0 turns the charger off. -/
  | packCellsWrite (m : Master) (v : Nat)
  /-- CHG_ENABLE_WRITE (R291). A write of CHG_ENABLE stops charging, or with 1 after the blocking bits are read leaves FAULT. -/
  | chgEnableWrite (m : Master) (v : Nat)
  /-- CHG_SERVICE_WRITE (R286). A tester write of CHG_SERVICE starts or ends a service charge. -/
  | chgServiceWrite (m : Master) (v : Nat)
  /-- CHG_FAULTS_READ (R301). A clearing read of CHG_FAULTS returns and clears the latched bits. -/
  | chgFaultsRead (m : Master)
  /-- PORT_MATED (R308). |Z_p| at or below 65 Ω for 10 ms marks the port mated. -/
  | portMated (p : Port)
  /-- PORT_OPEN (R309). |Z_p| above 75 Ω marks the port open, sets the link group to Z and voids the contract. -/
  | portOpen (p : Port)
  /-- LINK_SIDE_DISCHARGE (R312). 1 ms after an open with zero link current, the port discharges its LINK+ side into its rail. -/
  | linkSideDischarge (p : Port)
  /-- PEER_SILENT (R311). A mated port with no far pilot for 1 s raises PEER_SILENT. -/
  | peerSilent (p : Port)
  /-- CONNECTOR_BURST (R313). Every 100 ms a port listens and starts a connector-health burst, or defers it. -/
  | connectorBurst (p : Port) (defer : Bool)
  /-- CONNECTOR_BURST_DONE (R314). A completed burst yields B and G_LEAK and updates the moisture state and SENSE_NET. -/
  | connectorBurstDone (p : Port) (b : Nat) (g : Int)
  /-- OFFER (R344). A received OFFER is answered with REQUEST or REJECT under the policy. -/
  | offer (p : Port) (src : Nat) (pay : List Byte)
  /-- REQUEST (R333). A received REQUEST, or a retarget, is answered with ACCEPT and starts the slew, or with REJECT. -/
  | request (p : Port) (src : Nat) (pay : List Byte) (vlink : Nat)
  /-- ACCEPT (R333). A received ACCEPT arms the Consumer's transition timer, or completes a DETACH. -/
  | accept (p : Port) (src : Nat) (pay : List Byte)
  /-- REJECT (R330). A received REJECT returns a negotiating port to NEUTRAL. -/
  | reject (p : Port) (src : Nat) (pay : List Byte)
  /-- READY (R335). A received READY moves the port to CONTRACT. -/
  | ready (p : Port) (src : Nat) (pay : List Byte)
  /-- SWAP_REQ (R340). A received SWAP_REQ is answered with SWAP_ACK, with a non-zero CURR when the swap is allowed. -/
  | swapReq (p : Port) (src : Nat) (pay : List Byte)
  /-- SWAP_ACK (R341). A non-zero SWAP_ACK ramps both ends to 0 and starts the swap dwell. -/
  | swapAck (p : Port) (src : Nat) (pay : List Byte)
  /-- HARD_RESET (R338). A received HARD_RESET voids the contract and discharges the link into the rail. -/
  | hardReset (p : Port) (src : Nat) (pay : List Byte)
  /-- DETACH (R339). A received DETACH is answered with ACCEPT and both ends enter RAMP_DOWN. -/
  | detach (p : Port) (src : Nat) (pay : List Byte)
  /-- SEND_READY (R335). The Provider sends READY once VLINK has stayed within band of VOLT for 1.0 ms. -/
  | sendReady (p : Port) (vlink : Nat)
  /-- NO_RESPONSE (R326). No answer within 2.5 ms repeats the message once, and a second silence raises NO_RESPONSE. -/
  | noResponse (p : Port)
  /-- TRANSITION_TIMEOUT (R335). The Consumer's timer expiring before READY raises TRANSITION_TIMEOUT and sends HARD_RESET. -/
  | transitionTimeout (p : Port)
  /-- CONTRACT_VOLTAGE (R323). VLINK outside 0.90–1.10 × VOLT for 10 ms raises CONTRACT_VOLTAGE and sends HARD_RESET. -/
  | contractVoltage (p : Port) (vlink : Nat)
  /-- DATA_LOST (R332). No good frame for 600 ms in a contract state raises DATA_LOST and enters RAMP_DOWN. -/
  | dataLost (p : Port)
  /-- SWAP_DWELL_END (R341). After the 10 ms dwell the former Consumer starts as Provider, and the new Consumer arms its timer. -/
  | swapDwellEnd (p : Port)
  /-- LINK_DISCHARGE_DONE (R338). VLINK below 5.0 V ends a HARD_RESET discharge and returns the port to NEUTRAL. -/
  | linkDischargeDone (p : Port)
  /-- DISCHARGE_FAIL (R338). VLINK not below 5.0 V within 40 ms raises DISCHARGE_FAIL. -/
  | dischargeFail (p : Port) (vlink : Nat)
  /-- RAMP_DOWN_COMPLETE (R330). The 20 ms RAMP_DOWN completes and the port returns to NEUTRAL. -/
  | rampDownComplete (p : Port)
  /-- REOFFER (R344). Every REOFFER in NEUTRAL the port sends OFFER when its policy allows. -/
  | reoffer (p : Port)
  /-- LINK_CTRL_DETACH (R345). A LINK_CTRL write of 1 sends DETACH with reason HOST. -/
  | linkCtrlDetach (m : Master) (p : Port)
  /-- LINK_CTRL_SWAP_REQ (R345). A LINK_CTRL write of 2 sends SWAP_REQ. -/
  | linkCtrlSwapReq (m : Master) (p : Port)
  /-- LINK_CTRL_HARD_RESET (R345). A LINK_CTRL write of 3 sends HARD_RESET with reason HOST. -/
  | linkCtrlHardReset (m : Master) (p : Port)
  /-- LINK_CTRL_APPLY_POLICY (R345). A LINK_CTRL write of 4 applies the policy now. -/
  | linkCtrlApplyPolicy (m : Master) (p : Port)
  /-- RECEIVER_LOCK (R356). Three consistent commas lock a fabric receiver, and the port enters LOCKED. -/
  | receiverLock (p : Port)
  /-- RECEIVER_LOCK_LOST (R356). Code errors or 30 µs without a comma lose lock, and the port goes DOWN. -/
  | receiverLockLost (p : Port)
  /-- HELLO_SEND (R363). Every 1.000 ms a LOCKED, UP or MISWIRED port sends a HELLO. -/
  | helloSend (p : Port) (t : Nat)
  /-- HELLO (R364). A good HELLO measures the hop delay and moves the port to UP or MISWIRED. -/
  | hello (p : Port) (b : List Byte) (t : Nat)
  /-- HELLO_TIMEOUT (R362). No good hello for 2.15 ms moves an UP port to DOWN and floods a TOPO record. -/
  | helloTimeout (p : Port)
  /-- TOPO (R366). A newer TOPO record is delivered, forwarded and held, and routes are recomputed. -/
  | topo (p : Port) (src seq hops : Nat) (b : List Byte)
  /-- TOPO_SEND (R366). A node floods its TOPO record every 100 ms and on port or ID changes. -/
  | topoSend
  /-- TOPO_RECORD_EXPIRY (R366). A TOPO record not refreshed for 350 ms is dropped. -/
  | topoRecordExpiry (uid : Nat)
  /-- FABRIC_SETTLED (R367). Records unchanged for 20 ms settle the fabric, a zenith is elected, and the zenith may run an assignment. -/
  | fabricSettled
  /-- ASSIGN (R371). An ASSIGN frame is adopted by highest GEN, and NODE_ID is written, committed and flooded. -/
  | assign (p : Port) (src seq hops : Nat) (b : List Byte)
  /-- ASSIGN_REPEAT (R370). The zenith repeats its ASSIGN frames every 1 s. -/
  | assignRepeat
  /-- FRAME_FORWARD (R361). A whole, checked frame not for this node is routed or broadcast out the proper port, or discarded. -/
  | frameForward (p : Port) (b : List Byte) (code : Bool)
  /-- READ_REQ (R377). A fabric READ_REQ is served under F access and answered with READ_RSP. -/
  | readReq (p : Port) (src obj : Nat) (b : List Byte)
  /-- WRITE_REQ (R378). A fabric WRITE_REQ is carried out under F access and answered unless broadcast. -/
  | writeReq (p : Port) (src seq hops obj : Nat) (bcast : Bool) (b : List Byte)
  /-- FABRIC_RESPONSE (R380). A READ_RSP or WRITE_RSP to a request the device originated completes that request. -/
  | fabricResponse (p : Port) (src type : Nat) (b : List Byte)
  /-- FABRIC_REQUEST_TIMEOUT (R380). No response within 10 ms resends the request with the same TXN, up to twice. -/
  | fabricRequestTimeout (txn : Nat)
  /-- NOTIFY_SEND (R381). A node sends NOTIFY on a mode or fault-class change and every NOTIFY_PERIOD. -/
  | notifySend
  /-- BOOT_REQ (R388). A boot server answers a BOOT_REQ from its active bank with BOOT_DATA. -/
  | bootReq (p : Port) (src : Nat) (b : List Byte)
  /-- BOOT_DATA (R388). A booting node takes BOOT_DATA, and checks and commits each completed image. -/
  | bootData (p : Port) (src : Nat) (b : List Byte)
  /-- FABRIC_BOOT_FAIL (R389). Step 6 reaching 2,000 ms without a complete set raises FABRIC_BOOT_FAIL. -/
  | fabricBootFail
  /-- MARKER_EMIT (R382). The zenith emits a timebase marker every 100.000 µs on both UP ports. -/
  | markerEmit (ofsE ofsW : Nat)
  /-- MARKER (R383). A marker on the root port sets T_local and is forwarded, and locked groups align to it. -/
  | marker (p : Port) (count ofs t out : Nat)
  /-- TIMEBASE_LOST (R385). Two consecutive missing markers declare the timebase lost. -/
  | timebaseLost
  /-- NODE_ID_SET_WRITE (R372). A tester write of NODE_ID_SET replaces STORED_ID for the next assignment. -/
  | nodeIdSetWrite (m : Master) (v : Nat)
  /-- SELFCAL_CMD (R416). A write of 1 starts a self-calibration at the next common trigger. -/
  | selfcalCmd (m : Master) (v : Nat)
  /-- SELFCAL_COMPLETE (R420). The calibration completes, its factors are checked and committed, and CAL_STATE is set. -/
  | selfcalComplete (factors : List (Int × Nat))
  /-- CAL_REFRESH_ROUND (R421). At the band's interval a refresh round appends one calibration slot per converter over 16 scans. -/
  | calRefreshRound
  /-- CAL_STALE (R422). CAL_STATE not valid 60 s after bring-up raises CAL_STALE. -/
  | calStale
  /-- REC_TRIGGER (R428). A write of 1 to REC_TRIGGER starts a capture with REQUEST as trigger. -/
  | recTrigger (m : Master) (v : Nat)
  /-- CAPTURE_WINDOW_END (R432). T0 + 1.5 s ends the capture window and the recorder closes the capture. -/
  | captureWindowEnd
  /-- CAPTURE_CLOSED (R432). The capture's archive write completes, or fails and raises REC_ARCHIVE_FAIL. -/
  | captureClosed (ok : Bool)
  /-- REC_KEEP_WRITE (R433). A write of REC_KEEP marks or unmarks the selected capture. -/
  | recKeepWrite (m : Master) (v : Nat)
  /-- THERMAL_SHUTDOWN (R459). A die site at 170 °C for 10 µs sets the groups to Z in order and raises THERMAL_SHUTDOWN. -/
  | thermalShutdown (site : Fin 8)
  /-- THERMAL_SHUTDOWN_RELEASE (R461). Every site below 145 °C for 10 ms releases the shutdown and restarts the groups. -/
  | thermalShutdownRelease
  /-- HZ_ROUND_CLOSE (R470). At the band's interval the planner closes a measurement round and takes each valid item value. -/
  | hzRoundClose
  /-- HZ_PROBE_START (R479). The rail probe starts when its conditions hold in Idle. -/
  | hzProbeStart
  /-- HZ_PROBE_COMPLETE (R480). The probe completes, and the rail capacitance and ESR are computed. -/
  | hzProbeComplete (steps : List ProbeStep) (ripple : List (Int × Int))
  /-- HZ_EPOCH_TIMER (R486). HZ_OP_TIME reaching 64 h after the last epoch starts an epoch. -/
  | hzEpochTimer
  /-- HZ_EPOCH_CMD (R486). A write of 1 to HZ_EPOCH_CMD starts an epoch in Idle or Service. -/
  | hzEpochCmd (m : Master) (v : Nat)
  /-- EPOCH_COMPLETE (R487). The epoch computes projections, margins and factors, and writes DER_NOW and FREQ_CEIL as one set. -/
  | epochComplete
  /-- HZ_TERM_RAMP (R491). Every 100 ms each applied Horizon term moves by at most 1 % toward its new value. -/
  | hzTermRamp
  /-- FREQ_CEILING_STEP (R493). Every millisecond a group above FREQ_CEIL lowers its applied frequency by at most 1 %. -/
  | freqCeilingStep
  /-- HZ_REBASE (R482). A write of HZ_REBASE clears the baselines of the named group of items. -/
  | hzRebase (m : Master) (v : Nat)
  /-- HOUR_RECORD (R497). Each full operating hour the planner writes a HOUR record and the hourly leakage means. -/
  | hourRecord
  /-- FAULT_RAISE (R509). An accepted RAISE creates, repeats or merges a record and passes to trouble-code memory and the recorder. -/
  | faultRaise
  /-- FAULT_CLEAR (R511). An accepted CLEAR ends a condition and may make its record inactive. -/
  | faultClear
  /-- FAULT_LOST (R503). A message finding its source's queue full is lost and counted. -/
  | faultLost (src : Nat)
  /-- RECORD_HANDLING (R514). The collector starts handling the next pending record and carries out its reactions in order. -/
  | recordHandling
  /-- BLOCK_RESET_COMPLETE (R514). The block reports reset completion, or 10 ms pass, and the handling window closes. -/
  | blockResetComplete
  /-- FAULT_ACK (R515). A write of 1 to FAULT_ACK releases nIRQ. -/
  | faultAck (m : Master) (v : Nat)
  /-- FAULT_RECORD_READ (R511). A clearing read of a FAULT_RECORD sets READ and frees an inactive slot. -/
  | faultRecordRead (m : Master) (slot : Nat)
  /-- FAULT_INJECT (R535). A tester write in Service is accepted as an injected RAISE. -/
  | faultInject (m : Master) (v : Nat)
  /-- COLLECTOR_SELF_LOOP (R528). Every 1 ms the collector sends itself a message, and two failures set direct mode. -/
  | collectorSelfLoop (ok : Bool)
  /-- HALO_TOGGLE (R526). While running, HALO toggles every 500 µs. -/
  | haloToggle
  /-- WD_PERIOD_START (R566). At tick 0 of a watchdog period a new token is loaded. -/
  | wdPeriodStart
  /-- WD_HARDWARE_CHECKIN (R568). A hardware owner checks in at its window midpoint if its liveness condition has held. -/
  | wdHardwareCheckin (k : Fin 8)
  /-- WD_CHECKIN (R569). A master's WD_CHECKIN write is classified as a good check-in or a violation. -/
  | wdCheckin (m : Master) (w t : Nat)
  /-- WD_WINDOW_CLOSE (R570). An identity's window closing without a good check-in is a WD_MISSING violation. -/
  | wdWindowClose (k : Fin 16)
  /-- WD_CONFIG_WRITE (R574). A write of a watchdog configuration object is checked and takes effect at the next period. -/
  | wdConfigWrite (m : Master) (k v : Nat)
  /-- OBJECT_WRITE (R592). A write to an object with no row of its own is checked in order and carried out. -/
  | objectWrite (m : Master) (k : Nat) (d : List Byte)
  /-- DOMAIN_WRITE_SEGMENT (R589). A STR or DOMAIN write segment is accepted, and the object changes whole at the last segment. -/
  | domainWriteSegment (m : Master) (k ofs : Nat) (last : Bool) (d : List Byte)
  /-- DOMAIN_READ_SEGMENT (R590). A DOMAIN read segment is served from the master's snapshot, taken at offset 0. -/
  | domainReadSegment (m : Master) (k ofs len : Nat)
  /-- DOMAIN_SNAPSHOT_EXPIRY (R590). A snapshot expires 100 ms after its last segment. -/
  | domainSnapshotExpiry (m : Master) (k : Nat)
  /-- WHOLE_OBJECT_READ (R582). A read of sub-index 0xFF returns every present sub-index as one DOMAIN taken in one cycle. -/
  | wholeObjectRead (m : Master) (index : Nat)
  /-- OD_LOCK_WRITE (R603). A write of OD_LOCK takes, renews or releases an area lock. -/
  | odLockWrite (m : Master) (sub v : Nat)
  /-- OD_LOCK_LEASE_EXPIRY (R604). An H lock not renewed within OD_LOCK_LEASE is released. -/
  | odLockLeaseExpiry (sub : Nat)
  /-- OD_COMMIT (R606). A write of 1 to OD_COMMIT commits the journal now. -/
  | odCommit (m : Master) (v : Nat)
  /-- JOURNAL_COMMIT (R606). The flash manager commits the pending journal entries as one record, with a checkpoint when the ring runs low. -/
  | journalCommit
  /-- JOURNAL_COMMIT_DONE (R607). The commit record is written to flash and the journal returns to idle. -/
  | journalCommitDone (ok : Bool) (sector : Nat)
  /-- OD_RESTORE (R612). A tester write in Service places default entries for writable P objects and commits them. -/
  | odRestore (m : Master) (v : Nat)
  /-- CAN_READ (R626). A READ request returns up to 48 bytes of the object at OFFSET. -/
  | canRead (tester fd : Bool) (b : List Byte)
  /-- CAN_WRITE (R627). A WRITE request writes a whole value or one segment. -/
  | canWrite (tester fd : Bool) (b : List Byte)
  /-- READ_BLOCK (R626). A READ_BLOCK request returns up to COUNT segments at consecutive offsets. -/
  | readBlock (tester fd : Bool) (b : List Byte)
  /-- WRITE_BLOCK (R626). A WRITE_BLOCK request accepts COUNT frames and answers once. -/
  | writeBlock (tester fd : Bool) (b : List Byte)
  /-- SEED (R633). A SEED request on the tester identifiers returns a seed for the level. -/
  | seed (tester fd : Bool) (b : List Byte)
  /-- KEY (R633). A KEY request checks the key and grants the security level. -/
  | key (tester fd : Bool) (b : List Byte)
  /-- SEGMENT_GAP_TIMEOUT (R627). A gap of more than 100 ms between segments abandons the transfer. -/
  | segmentGapTimeout (m : Master) (k : Nat)
  /-- CAN_NOTIFY (R632). A NOTIFY frame is queued on IRQ, mode change, handover or period, at most once per millisecond. -/
  | canNotify (period : Bool)
  /-- TX_TIMEOUT (R631). A frame queued for 100 ms is discarded and raises TX_TIMEOUT. -/
  | txTimeout (cb : CanBus)
  /-- CAN_APPLY (R623). A write of 1 or 2 reinitialises CANA or CANB with its stored configuration. -/
  | canApply (m : Master) (v : Nat)
  /-- BUS_OFF (R634). TEC above 255 takes the controller bus-off, and it then recovers automatically. -/
  | busOff (cb : CanBus)
  /-- ERROR_PASSIVE (R634). TEC or REC above 127 raises ERROR_PASSIVE. -/
  | errorPassive (cb : CanBus) (tec rec : Nat)
  /-- RX_OVERRUN (R634). A frame arriving at a full receive FIFO is lost and RX_OVERRUN is raised. -/
  | rxOverrun (cb : CanBus) (lost : Nat)
  /-- TESTER_SESSION_TIMEOUT (R633). In the ML4860-C, 5,000 ms without a TEST_REQ request returns the tester to the default session. -/
  | testerSessionTimeout
  /-- LIN_COMMAND (R637). A COMMAND frame writes each changed byte as an S write. -/
  | linCommand (b : List Byte) (good sync : Bool)
  /-- LIN_STATUS (R636). A STATUS header is answered with the device's STATUS frame. -/
  | linStatus (sync err : Bool)
  /-- OBJ_REQ (R638). An OBJ_REQ frame carries one object access by S. -/
  | objReq (b : List Byte) (good sync : Bool)
  /-- OBJ_RSP (R638). An OBJ_RSP header is answered with the result of the latest completed access. -/
  | objRsp (sync err : Bool)
  /-- ASSIGN_NAD (R640). AssignNAD writes LIN_NAD. -/
  | assignNad (b : List Byte) (good sync : Bool)
  /-- READ_BY_IDENTIFIER (R640). ReadByIdentifier returns the supplier, function, variant or unique ID bytes. -/
  | readByIdentifier (b : List Byte) (good sync : Bool)
  /-- SAVE_CONFIGURATION (R640). SaveConfiguration commits the journal. -/
  | saveConfiguration (b : List Byte) (good sync : Bool)
  /-- ASSIGN_FRAME_IDENTIFIER_RANGE (R640). AssignFrameIdentifierRange maps new PIDs onto LIN_PID. -/
  | assignFrameIdentifierRange (b : List Byte) (good sync : Bool)
  /-- GO_TO_SLEEP (R641). A go-to-sleep command puts the LIN node into bus sleep. -/
  | goToSleep (good sync : Bool)
  /-- LIN_BUS_INACTIVITY (R641). 4 s without bus activity puts the node into bus sleep. -/
  | linBusInactivity
  /-- LIN_WAKE (R642). A dominant 150 µs–5 ms wake-up signal leaves bus sleep and, in Park, starts bring-up. -/
  | linWake (width : Nat)
  /-- LIN_WAKE_TX (R643). The node sends a wake-up signal, and repeats it after 200 ms without a break. -/
  | linWakeTx
  /-- LIN_BUS_SHORT (R644). The bus dominant for 100 ms raises LIN_BUS_SHORT. -/
  | linBusShort
  /-- FIRST_FRAME (R649). An ISO-TP first frame is answered with flow control, or OVFLW. -/
  | firstFrame (func fd : Bool) (len : Nat) (esc : Bool) (d : List Byte)
  /-- CONSECUTIVE_FRAME (R650). A consecutive frame adds to the message being received. -/
  | consecutiveFrame (sn : Nat) (d : List Byte)
  /-- FLOW_CONTROL (R649). The tester's flow control releases the device's consecutive frames. -/
  | flowControl (fs bs st : Nat)
  /-- N_BS_TIMEOUT (R650). No flow control for 1,000 ms abandons the message. -/
  | nBsTimeout
  /-- N_CR_TIMEOUT (R650). No consecutive frame for 1,000 ms abandons the message. -/
  | nCrTimeout
  /-- DIAGNOSTIC_SESSION_CONTROL (R652). DiagnosticSessionControl changes the session, which locks security and ends downloads. -/
  | diagnosticSessionControl (func fd : Bool) (m : List Byte)
  /-- ECU_RESET_HARD (R666). ECUReset hardReset responds and then drives nRST for a system reset. -/
  | ecuResetHard (func fd : Bool) (m : List Byte)
  /-- ECU_RESET_SOFT (R666). ECUReset softReset responds and then drives nRST for a core reset. -/
  | ecuResetSoft (func fd : Bool) (m : List Byte)
  /-- CLEAR_DIAGNOSTIC_INFORMATION (R672). ClearDiagnosticInformation removes all or one DTC entry and commits. -/
  | clearDiagnosticInformation (func fd : Bool) (m : List Byte)
  /-- REPORT_NUMBER_OF_DTC (R671). ReadDTCInformation 0x01 returns the count of DTCs matching the mask. -/
  | reportNumberOfDtc (func fd : Bool) (m : List Byte)
  /-- REPORT_DTC_BY_STATUS (R671). ReadDTCInformation 0x02 returns each DTC matching the mask with its status. -/
  | reportDtcByStatus (func fd : Bool) (m : List Byte)
  /-- REPORT_DTC_SNAPSHOT (R671). ReadDTCInformation 0x04 returns snapshot records of one DTC. -/
  | reportDtcSnapshot (func fd : Bool) (m : List Byte)
  /-- REPORT_DTC_EXTENDED_DATA (R671). ReadDTCInformation 0x06 returns extended data records of one DTC. -/
  | reportDtcExtendedData (func fd : Bool) (m : List Byte)
  /-- REPORT_SUPPORTED_DTC (R671). ReadDTCInformation 0x0A returns every catalogue DTC with its status. -/
  | reportSupportedDtc (func fd : Bool) (m : List Byte)
  /-- READ_DATA_BY_IDENTIFIER (R660). ReadDataByIdentifier reads up to 8 DIDs as object reads by T. -/
  | readDataByIdentifier (func fd : Bool) (m : List Byte)
  /-- WRITE_DATA_BY_IDENTIFIER (R660). WriteDataByIdentifier writes one DID as an object write by T. -/
  | writeDataByIdentifier (func fd : Bool) (m : List Byte)
  /-- SECURITY_ACCESS_SEED (R662). SecurityAccess requestSeed returns a 16-byte seed. -/
  | securityAccessSeed (func fd : Bool) (m : List Byte)
  /-- SECURITY_ACCESS_KEY (R662). SecurityAccess sendKey checks the CMAC key, unlocks the level or counts a failure. -/
  | securityAccessKey (func fd : Bool) (m : List Byte)
  /-- SECURITY_DELAY_END (R662). The 10 s security delay ends and seeds are served again. -/
  | securityDelayEnd
  /-- ROUTINE_SELF_CALIBRATION (R667). Routine 0x0201 writes SELFCAL_CMD. -/
  | routineSelfCalibration (func fd : Bool) (m : List Byte)
  /-- ROUTINE_HORIZON_EPOCH (R667). Routine 0x0202 writes HZ_EPOCH_CMD. -/
  | routineHorizonEpoch (func fd : Bool) (m : List Byte)
  /-- ROUTINE_MOISTURE_TEST (R667). Routine 0x0203 runs one connector-health burst at once. -/
  | routineMoistureTest (func fd : Bool) (m : List Byte)
  /-- ROUTINE_TABLE_SWITCH (R667). Routine 0x0204 writes TABLE_SWITCH. -/
  | routineTableSwitch (func fd : Bool) (m : List Byte)
  /-- REQUEST_ROUTINE_RESULTS (R667). requestRoutineResults returns the routine's results record. -/
  | requestRoutineResults (func fd : Bool) (m : List Byte)
  /-- REQUEST_DOWNLOAD (R663). RequestDownload opens a transfer into the inactive bank. -/
  | requestDownload (func fd : Bool) (m : List Byte)
  /-- TRANSFER_DATA (R664). TransferData stores one block, checking the sequence counter and the size. -/
  | transferData (func fd : Bool) (m : List Byte)
  /-- REQUEST_TRANSFER_EXIT (R664). RequestTransferExit validates the image and commits it to the inactive bank. -/
  | requestTransferExit (func fd : Bool) (m : List Byte)
  /-- TESTER_PRESENT (R656). TesterPresent keeps the session alive. -/
  | testerPresent (func fd : Bool) (m : List Byte)
  /-- CONTROL_DTC_SETTING_ON (R673). ControlDTCSetting on resumes DTC updates. -/
  | controlDtcSettingOn (func fd : Bool) (m : List Byte)
  /-- CONTROL_DTC_SETTING_OFF (R673). ControlDTCSetting off makes trouble-code memory ignore RAISE and CLEAR. -/
  | controlDtcSettingOff (func fd : Bool) (m : List Byte)
  /-- RESPONSE_PENDING (R653). A response not ready at 45 ms sends NRC 0x78, repeated every 4,000 ms. -/
  | responsePending
  /-- S3_SERVER_TIMEOUT (R654). 5,000 ms without a request returns the session to default and raises SESSION_TIMEOUT. -/
  | s3ServerTimeout
  /-- DTC_CLEAR (R672). A tester write of DTC_CLEAR clears DTCs as ClearDiagnosticInformation does. -/
  | dtcClear (m : Master) (v : Nat)
  /-- TABLE_SWITCH (R687). A write of TABLE_SWITCH checks the mask and starts a switch of the banks. -/
  | tableSwitch (m : Master) (v : Nat)
  /-- SAFE_POINT (R691). A kind reaches its safe point and changes to the inactive bank's image, and the banks swap when the last kind has changed. -/
  | safePoint (k : Fin 10)
  /-- SWITCH_DEFERRED (R692). A kind not at its safe point 10 s after acceptance raises SWITCH_DEFERRED. -/
  | switchDeferred (k : Fin 10)
  /-- TABLE_LOAD (R686). A completed TABLE_LOAD transfer is checked and committed to the inactive bank. -/
  | tableLoad (m : Master) (d : List Byte)
  /-- SEQUENCER_EVALUATION (R698). Once per PERIOD a sequencer tests its state's transitions and carries out entry actions, up to eight transitions. -/
  | sequencerEvaluation (n : Fin 5) (bad : Bool)
  /-- TRAP_RELEASE (R701). A write of 1 by H or T releases all sequencers from trap. -/
  | trapRelease (m : Master) (v : Nat)
  /-- SRAM_SCRUB (R707). Every 10 s the scrubber reads every SRAM word and corrects single-bit errors. -/
  | sramScrub (corrected : List Nat) (bad : List SramWord)
  /-- FLASH_SCRUB (R722). At the band's scrub interval the manager reads every programmed flash page and handles corrected or bad pages. -/
  | flashScrub (pages : List FlashPage)
  /-- OTP_REVERIFY (R726). At the band's interval every OTP area is sensed again and compared with the shadows. -/
  | otpReverify (diff : Nat)
  /-- OTP_PROG (R728). An OTP_PROG write programs bits into an area and verifies them at tight margin. -/
  | otpProg (m : Master) (d : List Byte)
  /-- OTP_LOCK (R729). An OTP_LOCK write blows an area's lock, with or without FORCE. -/
  | otpLock (m : Master) (v : Nat)
  /-- CLOCK_REFERENCE_LOST (R550). A lost reference makes the PLL hold, move to the next reference and relock. -/
  | clockReferenceLost (held : Bool)
  /-- RECOVERED_CLK_LOST (R549). No port locking within 20.0 ms under fabric-recovered clock locks the PLL to the RC. -/
  | recoveredClkLost
  /-- PLL_UNLOCK (R561). No PLL lock for 10 µs after step 4 raises PLL_UNLOCK. -/
  | pllUnlock
  /-- CORE_BUCK_FAULT (R561). The core buck at its limit for 64 cycles or not toggling for 10 µs raises CORE_BUCK_FAULT and restarts after 1 ms. -/
  | coreBuckFault
  /-- VCORE_RANGE (R561). VCORE outside its operating range for 10 µs raises VCORE_RANGE. -/
  | vcoreRange (mv : Nat)
  /-- VDD33_RANGE (R561). VDD33 outside its operating range for 10 µs raises VDD33_RANGE. -/
  | vdd33Range (mv : Nat)
  /-- OVERCAST_SHUTDOWN_ADVANCE (R532). A timed stage of the Overcast shutdown completes, ending at +1 ms with MODE_STATE 7, MODE_CAUSE 0x0C and the link HARD_RESETs. -/
  | overcastShutdownAdvance
  /-- FAR_PILOT_PRESENT (R311). The far end's pilot is detected at 2 mV or more, which can complete the SENSED to NEUTRAL conditions of R330. -/
  | farPilotPresent (p : Port)
  /-- LIN_BREAK (R641). A LIN break and header with an identifier the node does not use is seen, leaving bus sleep, restarting the inactivity count and counting the header. -/
  | linBreak (sync : Bool)
  /-- SLAVE_RESPONSE (R640). A slave response header (0x3D) is answered with the pending node-configuration response. -/
  | slaveResponse (sync err : Bool)
  /-- LIN_BUS_RECESSIVE (R644). The bus recessive for 10 ms after a short clears LIN_BUS_SHORT and gives the transmitter back. -/
  | linBusRecessive
  /-- BUS_OFF_RECOVERY (R634). After 128 occurrences of 11 recessive bits a bus-off controller recovers and BUS_OFF clears. -/
  | busOffRecovery (cb : CanBus)
  /-- PLL_LOCK_HELD (R561). PLL lock held for 1 ms clears PLL_UNLOCK. -/
  | pllLockHeld
  /-- REFERENCE_GOOD (R561). A crystal or external reference good again for 100 ms clears XTAL_FAIL, though it stays unused. -/
  | referenceGood
  /-- VCORE_WITHIN_RANGE (R561). VCORE within its operating range for 1 ms clears VCORE_RANGE. -/
  | vcoreWithinRange
  /-- VDD33_WITHIN_RANGE (R561). VDD33 within its operating range for 1 ms clears VDD33_RANGE. -/
  | vdd33WithinRange
  /-- CORE_BUCK_RESTART (R561). 1 ms after a core buck fault the buck restarts. -/
  | coreBuckRestart
  /-- CORE_BUCK_NORMAL (R561). 100 ms of normal core buck switching clears CORE_BUCK_FAULT. -/
  | coreBuckNormal
  /-- TAP_RESET (R547). nTRST low resets the IEEE 1149.1 TAP with no other effect. -/
  | tapReset
  /-- BOUNDARY_SCAN_INSTRUCTION (R121). An IEEE 1149.1 instruction such as EXTEST is loaded and run, leaving PWM0–PWM15 and DISC_GATE under R119. -/
  | boundaryScanInstruction
  /-- FLASH_WRITE_COMPLETE (R718). A bank-copy or life-log write in flash completes, releasing the waiting response or the next queued operation. -/
  | flashWriteComplete (ok : Bool) (region : Fin 6) (sector : Nat)
  /-- OTP_PROGRAMMING_COMPLETE (R728). OTP programming of a write finishes its tight-margin verify, sets OTP_PROG_STATE and releases the response or OTP_PROGRAM_FAIL. -/
  | otpProgrammingComplete (ok : Bool)
  deriving DecidableEq, Repr

end Sys2Proof
end

