-- ==== Sys2Proof/Config.lean ====
section
/-!
DEFINITION. Config.lean: the values the spec leaves open, as constants without a body: nothing can evaluate them.
-/
namespace Sys2Proof.Config

/-- The value that the spec leaves open at the `n`-th open choice of a run (watchdog tokens, seeds, undefined outcomes). -/
opaque freeValue : Nat → BitVec 128

/-- The AES-128-CMAC of R662 over a message under a key: the algorithm is that of NIST SP 800-38B, outside the spec's text. -/
opaque cmac : List Byte → List Byte → List Byte

/-- The SHA-256 digest of a byte string: the algorithm is that of FIPS 180-4, outside the spec's text. -/
opaque sha256 : List Byte → List Byte

/-- Whether a signature over a digest verifies under an ECDSA P-256 public key (FIPS 186, outside the spec's text). -/
opaque ecdsaValid : List Byte → List Byte → List Byte → Bool

end Sys2Proof.Config
end

