-- ==== Sys2Proof/Machine/Bits.lean ====
section
/-!
DEFINITION. Bits.lean: bit fields, two's complement, byte order and the two CRCs, each said once.
-/
namespace Sys2Proof.Machine

/-- The field `v[hi:lo]` of a word. -/
def field (v hi lo : Nat) : Nat := (v >>> lo) % 2 ^ (hi + 1 - lo)

/-- Bit `n` of a word. -/
def bit (v n : Nat) : Bool := v.testBit n

/-- `v` with bit `n` made `b`. -/
def setBit (v n : Nat) (b : Bool) : Nat :=
  if v.testBit n = b then v else if b then v + 2 ^ n else v - 2 ^ n

/-- 1 for true, 0 for false. -/
def b2n (b : Bool) : Nat := if b then 1 else 0

/-- The two's-complement code of an integer in `w` bits. -/
def toCode (w : Nat) (i : Int) : Nat := (i % (2 ^ w : Int)).toNat

/-- The integer that a `w`-bit two's-complement code stands for. -/
def ofCode (w v : Nat) : Int :=
  if v < 2 ^ (w - 1) then (v : Int) else (v : Int) - (2 ^ w : Int)

/-- An integer held within `lo` and `hi`. -/
def clampI (lo hi i : Int) : Int := if i < lo then lo else if hi < i then hi else i

/-- A natural number held within `lo` and `hi`. -/
def clampN (lo hi n : Nat) : Nat := if n < lo then lo else if hi < n then hi else n

/-- The `n` little-endian bytes of a value (R587). -/
def leBytes : Nat → Nat → List Byte
  | 0, _ => []
  | n + 1, v => BitVec.ofNat 8 v :: leBytes n (v / 256)

/-- The value of little-endian bytes. -/
def leNat : List Byte → Nat
  | [] => 0
  | b :: bs => b.toNat + 256 * leNat bs

/-- The `n` big-endian bytes of a value. -/
def beBytes (n v : Nat) : List Byte := (leBytes n v).reverse

/-- The value of big-endian bytes. -/
def beNat (bs : List Byte) : Nat := leNat bs.reverse

/-- `n` bytes of a list from `off`. -/
def slice (bs : List Byte) (off n : Nat) : List Byte := (bs.drop off).take n

/-- The little-endian value of `n` bytes at `off`. -/
def leAt (bs : List Byte) (off n : Nat) : Nat := leNat (slice bs off n)

/-- The byte at `off`, 0 beyond the end. -/
def byteAt (bs : List Byte) (off : Nat) : Nat := (bs.getD off 0#8).toNat

/-- A list cut or zero-filled to `n` bytes. -/
def fitBytes (n : Nat) (bs : List Byte) : List Byte := bs.take n ++ List.replicate (n - bs.length) 0#8

/-- `bs` with `new` written over the bytes from `off`. -/
def overlay (bs : List Byte) (off : Nat) (new : List Byte) : List Byte :=
  bs.take off ++ new ++ bs.drop (off + new.length)

/-- One bit step of the CRC-16 of the grant frame, polynomial 0x1021, most significant bit first. -/
def crc16Bit (crc : Nat) : Nat :=
  if crc.testBit 15 then (crc * 2 % 65536) ^^^ 0x1021 else crc * 2 % 65536

/-- One byte into the CRC-16. -/
def crc16Byte (crc : Nat) (b : Byte) : Nat :=
  let c := crc ^^^ (b.toNat * 256)
  crc16Bit (crc16Bit (crc16Bit (crc16Bit (crc16Bit (crc16Bit (crc16Bit (crc16Bit c)))))))

/-- CRC-16, polynomial 0x1021, start 0xFFFF. -/
def crc16 (bs : List Byte) : Nat := bs.foldl crc16Byte 0xFFFF

/-- One bit step of the reflected CRC-32 of R358 (ISO-HDLC, 0x04C11DB7 reflected). -/
def crc32Bit (crc : Nat) : Nat :=
  if crc.testBit 0 then (crc / 2) ^^^ 0xEDB88320 else crc / 2

/-- One byte into the CRC-32. -/
def crc32Byte (crc : Nat) (b : Byte) : Nat :=
  let c := crc ^^^ b.toNat
  crc32Bit (crc32Bit (crc32Bit (crc32Bit (crc32Bit (crc32Bit (crc32Bit (crc32Bit c)))))))

/-- CRC-32 of R358: start all ones, result inverted. -/
def crc32 (bs : List Byte) : Nat := (bs.foldl crc32Byte 0xFFFFFFFF) ^^^ 0xFFFFFFFF

/-- Saturating increment at `top`. -/
def satInc (top n : Nat) : Nat := if n < top then n + 1 else top

/-- Largest of a list of naturals, `d` for the empty list. -/
def maxOr (d : Nat) (l : List Nat) : Nat := l.foldl max d

/-- Ceiling division. -/
def ceilDiv (a b : Nat) : Nat := (a + b - 1) / b

end Sys2Proof.Machine
end

