-- ==== Sys2Proof/Machine/Store.lean ====
section
/-!
DEFINITION. Store.lean: the sparse register file. A store lists, by rising key, the registers whose content differs
from the default; `d` gives the default of every key. Object values, latches and journal entries all stand in such a list.
-/
namespace Sys2Proof.Machine

/-- Key and value pairs, keys rising, no value equal to its key's default. -/
abbrev Store := List (Nat × Nat)

namespace Store

/-- The content of key `k`. -/
def read (d : Nat → Nat) : Store → Nat → Nat
  | [], k => d k
  | (a, v) :: r, k => if a = k then v else read d r k

/-- Take every entry of key `k` out. -/
def erase (r : Store) (k : Nat) : Store := r.filter fun e => !(e.1 == k)

/-- Put an entry in front of the first larger key. -/
def insert : Store → Nat → Nat → Store
  | [], k, v => [(k, v)]
  | (a, w) :: r, k, v => if k < a then (k, v) :: (a, w) :: r else (a, w) :: insert r k v

/-- The store after writing `v` to key `k`. Writing the default takes the entry out. -/
def write (d : Nat → Nat) (r : Store) (k v : Nat) : Store :=
  if v = d k then r.erase k else (r.erase k).insert k v

/-- Keys strictly rising. -/
def sorted : Store → Bool
  | [] => true
  | [_] => true
  | (a, _) :: (b, w) :: r => decide (a < b) && sorted ((b, w) :: r)

/-- No entry equals the default of its key. -/
def noDefault (d : Nat → Nat) (r : Store) : Bool := r.all fun e => !(e.2 == d e.1)

/-- The canonical form: equal contents are equal lists. -/
def wf (d : Nat → Nat) (r : Store) : Bool := r.sorted && r.noDefault d

/-- The entry of key `k`, where there is one. -/
def find? (r : Store) (k : Nat) : Option Nat := (List.find? (fun e => e.1 == k) r).map (·.2)

/-- The keys that satisfy `p` go back to their defaults. -/
def clearWhere (p : Nat → Bool) (r : Store) : Store := r.filter fun e => !p e.1

end Store
end Sys2Proof.Machine
end

