-- ==== Sys2Proof/Machine/Types.lean ====
section
/-!
DEFINITION. Types.lean: the plain-data records of the core domain, the groups, the power path and the reset and mode logic.
Voltages are in mV, currents in mA, times in 5 ns ticks of the 200 MHz grid, unless a field says otherwise.
-/
namespace Sys2Proof.Machine

/-- One value per phase group, in sub-index order. -/
structure Four (α : Type) where
  input : α
  pack : α
  east : α
  west : α
  deriving DecidableEq, Repr

/-- One value per link port. -/
structure Two (α : Type) where
  east : α
  west : α
  deriving DecidableEq, Repr

/-- One value per CAN controller. -/
structure Pair (α : Type) where
  a : α
  b : α
  deriving DecidableEq, Repr

def Four.get {α : Type} (f : Four α) : Group → α
  | .input => f.input
  | .pack => f.pack
  | .east => f.east
  | .west => f.west

def Four.put {α : Type} (f : Four α) (g : Group) (x : α) : Four α :=
  match g with
  | .input => { f with input := x }
  | .pack => { f with pack := x }
  | .east => { f with east := x }
  | .west => { f with west := x }

def Two.get {α : Type} (f : Two α) : Port → α
  | .east => f.east
  | .west => f.west

def Two.put {α : Type} (f : Two α) (p : Port) (x : α) : Two α :=
  match p with
  | .east => { f with east := x }
  | .west => { f with west := x }

def Pair.get {α : Type} (f : Pair α) : CanBus → α
  | .a => f.a
  | .b => f.b

def Pair.put {α : Type} (f : Pair α) (p : CanBus) (x : α) : Pair α :=
  match p with
  | .a => { f with a := x }
  | .b => { f with b := x }

/-- An instant as a capture's header holds it (R434): REC_TIME, MODE_STATE, SRC_TYPE, PACK_ZONE and the die band. -/
structure Stamp where
  time : Nat
  mode : Nat
  src : Nat
  zone : Nat
  band : Nat
  deriving DecidableEq, Repr

/-- A fault-bus message (R501-R503): source, kind, 16-bit instance, RAISE or CLEAR, and the injected mark of R535. -/
structure Msg where
  src : Nat
  kind : Nat
  inst : Nat
  clear : Bool := false
  injected : Bool := false
  /-- Further occurrences that this message stands for while it waits (R124, R259). -/
  more : Nat := 0
  /-- The instant of a message that waits for the collector through a Stratus (R436). -/
  stamp : Option Stamp := none
  deriving DecidableEq, Repr

/-- A port word acknowledged as pending (R110, R113): `wait` lists the groups whose boundary has still to apply it. -/
structure PendWord where
  id : Nat
  value : Nat
  held : Bool
  wait : List Group
  deriving DecidableEq, Repr

/-- One phase as the core keeps it (R145, R158-R161, R91). -/
structure Phase where
  /-- PHASE_STATE code: 0 OFF, 1 SHED, 2 ADDING, 3 ACTIVE, 4 SHEDDING, 5 LATCHED. -/
  code : Nat := 0
  /-- Weight in quarters. -/
  weight : Nat := 0
  /-- Position under the applied ORDER word, 0 = disabled. -/
  pos : Nat := 0
  /-- The level at PWMn inside the present cycle. -/
  level : Level := .Z
  /-- The dead time still to run, in 0.25 ns, and the level that follows it (R89). -/
  dead : Nat := 0
  due : Level := .Z
  /-- When the output last went to Z. -/
  offAt : Option Nat := none
  /-- Time to the next start instant, 0.25 ns (R91). -/
  left : Nat := 0
  /-- The controlled switch is conducting. -/
  on : Bool := false
  /-- The 60 A condition was met in this cycle: the phase stands at Z for the rest of it. -/
  cut : Bool := false
  /-- Latched by R122, until its group's ORDER word is rewritten. -/
  latched : Bool := false
  /-- Consecutive cycles with the 60 A condition. -/
  peakRun : Nat := 0
  /-- Time of the last PHASE_PEAK report, and the occurrences since. -/
  peakAt : Option Nat := none
  peaks : Nat := 0
  /-- Consecutive cycles with a comparator condition at the end of blanking. -/
  blankHits : Nat := 0
  /-- The next start is skipped (R454). -/
  skip : Bool := false
  /-- Trim in effect, 60 ps steps. -/
  trim : Int := 0
  /-- Average current of the last balancing interval, 10 mA, positive toward the rail. -/
  avg : Int := 0
  /-- Zero level as last measured, mV (ISNS_ZERO). -/
  zero : Nat := 0
  /-- Excluded by an out-of-range zero level. -/
  zeroBad : Bool := false
  deriving DecidableEq, Repr

/-- One phase group as the core keeps it. -/
structure GroupSt where
  /-- RAIL_V in force in this group, 50 mV. -/
  railV : Nat := 0
  /-- Voltage reference, µV. -/
  vref : Nat := 0
  /-- VRAIL_S at the last boundary. -/
  vrail : Nat := 0
  /-- The low-side voltage at the last boundary, mV. -/
  vlow : Nat := 0
  /-- Share of the voltage loop, mA. -/
  iv : Int := 0
  /-- Envelope feedforward current, mA. -/
  iff : Int := 0
  /-- Group command at the last boundary, mA. -/
  icmd : Int := 0
  /-- The step of a classification, mA, which the input group adds to its command (R187). -/
  step : Nat := 0
  /-- Highest |I_ff| rise by feedforward since the last boundary, mA. -/
  ffRise : Nat := 0
  /-- The group delivers into VRAIL. -/
  deliver : Bool := false
  /-- Neutral dwell of a direction change. -/
  dwell : Bool := false
  /-- A group start is due at the next boundary (R166). -/
  start : Bool := false
  soft : Bool := false
  softCycles : Nat := 0
  /-- The complementary switch turns off at the current's zero crossing (R167, R168). -/
  diode : Bool := false
  /-- Fold-back factor, ppm. -/
  fold : Nat := 1000000
  /-- VRAIL_S / V_ref at the last boundary, ppm. -/
  q : Nat := 1000000
  foldStopped : Bool := false
  /-- Times of the fold-back stops of the last 10 s. -/
  foldStops : List Nat := []
  foldLocked : Bool := false
  /-- An ORDER word was applied at this boundary, and phases beyond N_req have still to enter SHEDDING (R155). -/
  reorder : Bool := false
  shedCount : Nat := 0
  blockLeft : Nat := 0
  frozenLeft : Nat := 0
  cycles16 : Nat := 0
  /-- The group's stop reasons, each a bit: 0 drop or dump, 1 headroom, 2 fold-back, 3 thermal, 4 Overcast or Storage
  or Park, 5 rail over-voltage, 6 link neutral or port, 7 pack lost, 8 precharge or classification. -/
  stops : Nat := 0
  /-- SYNC_STATE: 0 own, 1 acquiring, 2 locked, 3 slewing back. -/
  sync : Nat := 0
  /-- The present period in steps of 60 ps (R175); 0 = no running oscillator (R36). -/
  period : Nat := 0
  /-- FREQ_NOW, 0.1 kHz. -/
  freq : Nat := 0
  /-- Frequency at the loss of lock, 0.1 kHz, and the cycles of the slew back so far (R179). -/
  freqLoss : Nat := 0
  slewed : Nat := 0
  /-- Consecutive boundaries within 1 % of a period of the target instants (R176). -/
  lockRun : Nat := 0
  /-- Consecutive boundaries with t_L below the minimum on-time (input group, R94). -/
  passRun : Nat := 0
  pass : Bool := false
  /-- N_av when a shortfall was last judged. -/
  navSeen : Nat := 99
  /-- Place in the spreading triangle, from its centre (R175). -/
  spread : Nat := 0
  /-- Locking waits for the next GROUP_APPLY (R178). -/
  syncBarred : Bool := false
  /-- Stratus limits in force in this group. -/
  stratus : Bool := false
  /-- HANDOVER acknowledged and not yet seen by this group's boundary. -/
  lift : Bool := false
  /-- The servo of this group's delay lines is in lock. -/
  servo : Bool := true
  deriving DecidableEq, Repr

/-- The core domain apart from groups and phases (R32, R117, R125, R126). -/
structure Core where
  /-- Applied content of every latch and timing word, by port ID. -/
  words : Store := []
  /-- Words acknowledged and not yet applied, oldest first. -/
  pend : List PendWord := []
  /-- Core fault queue, 16 messages, oldest first. -/
  queue : List Msg := []
  queueOvf : Bool := false
  /-- Conditions of the core raised while the shell was absent, and all its conditions that hold. -/
  stratusRaised : List Msg := []
  conds : List Msg := []
  stall : Bool := false
  /-- 0 no rail over-voltage, 1 RAIL_OV, 2 RAIL_OV_PERSIST, 3 the rail is below 104 % but not yet for 10 ms after it. -/
  railOv : Nat := 0
  /-- DISC_GATE drive. -/
  disc : Bool := false
  /-- Gate ramping under closed-loop precharge (R204). -/
  precharge : Bool := false
  /-- Core ride-through: the input group is paused by a drop. -/
  dropped : Bool := false
  /-- The input group is paused by a load dump. -/
  dumped : Bool := false
  /-- DISC_GATE was on when the pause was detected. -/
  rideFromOn : Bool := false
  /-- R25 holds. -/
  overRail : Bool := false
  /-- VBUS was last known below the drop threshold (R209). -/
  busLow : Bool := false
  /-- DISC_GATE is off for a headroom stop or a persisting rail over-voltage, and comes back with its release (R31, R122). -/
  gateOff : Bool := false
  /-- The slow part of the voltage loop's power command, µW, and when it was last moved (R214). -/
  ps : Int := 0
  psAt : Option Nat := none
  /-- Refusal signal of the port: the last refused ID. -/
  refused : Option Nat := none
  /-- A handover has started the ORDER words since power-on. -/
  handedOver : Bool := false
  deriving DecidableEq, Repr

/-- Shell absence and Stratus as the core and the always-on domain see them (R79, R126, R130). -/
structure Stratus where
  /-- The core treats the shell as absent. -/
  absent : Bool := false
  /-- Stratus limits in force (CORE_STATUS[0]). -/
  active : Bool := false
  /-- Entered by heartbeat loss. -/
  heartbeat : Bool := false
  /-- 0 contracts held, 1 ramping since `rampAt`, 2 neutral. -/
  link : Nat := 0
  rampAt : Nat := 0
  linkNeutralised : Bool := false
  /-- Highest reset level asserted since entry. -/
  level : Nat := 0
  since : Nat := 0
  deriving DecidableEq, Repr

/-- The always-on domain: reset sequencer, supplies and latches (R542-R559, R84, R529). -/
structure AlwaysOn where
  /-- Power-on reset asserted. -/
  por : Bool := true
  /-- The shell is released and clocked. -/
  shell : Bool := false
  /-- nRST as the pin stands low from outside, and the device's own drive. -/
  nrstLow : Bool := false
  nrstDrive : Bool := false
  /-- The level of the pin reset in force: 0 none, 1 core, 2 system. -/
  resetLevel : Nat := 0
  /-- Bits of RESET_CAUSE collected since the assertion. -/
  cause : Nat := 0
  /-- The rail was regulated when the reset came. -/
  railUp : Bool := false
  /-- What started the bring-up in progress: a MODE_CAUSE code. -/
  bringCause : Nat := 0
  /-- 0 power-on, 1 wake, 2 reset with the rail up, 3 reset with the rail down, 4 Service exit (R68). -/
  bringKind : Nat := 0
  overcast : Bool := false
  /-- 0 none, 1-3 timed steps of the shutdown, 4 outputs off, 5 complete. -/
  overcastStage : Nat := 0
  /-- The device is in direct mode, and what set its latch: 0 nothing, 1 self-loop, 2 WD5 (R528). -/
  direct : Bool := false
  directWhy : Nat := 0
  /-- A wake event arrived during Park entry or a Park check: its MODE_CAUSE code. -/
  wake : Option Nat := none
  /-- A VAUX warning not yet carried out by the shell (R768), and whether it has cleared since. -/
  vauxDeferred : Bool := false
  /-- The mirror of PACK_SOC, and when it was last updated (R613). -/
  soc : Nat := 0
  socAt : Nat := 0
  /-- The VAUX of that warning in 0.1 V. -/
  vauxAt : Nat := 0
  /-- The crystal or the external clock has been lost: unused until the next system reset or power-on (R550). -/
  refLost : Bool := false
  /-- Chip-reset holdoff: time of the last chip reset (R517). -/
  chipResetAt : Option Nat := none
  /-- What called for the chip reset not yet reported: SOURCE * 256 + KIND (R517). -/
  chipWhy : Option Nat := none
  /-- Sub-indices of RESET_COUNT still to be counted. -/
  dueCounts : List Nat := []
  /-- Thermal shutdowns that TSD_COUNT has still to count. -/
  tsdDue : Nat := 0
  /-- Main clock stopped (R551). -/
  clockStopped : Bool := false
  /-- The rail that asserted power-on reset: RESET_CAUSE bits 9 and 10. -/
  porCause : Nat := 512
  /-- When the delay of security access ends, in ticks (R662). -/
  secEnd : Nat := 2000000000
  buckOff : Bool := false
  /-- A boundary-scan instruction is loaded in the IEEE 1149.1 TAP (R121, R547). -/
  tap : Bool := false
  deriving DecidableEq, Repr

/-- Retention cell (R558): the thermal-trip times of R462. -/
structure Retention where
  trips : List Nat := []
  deriving DecidableEq, Repr

/-- The mode logic of SQ0 (R57, R63, R64, R71). -/
structure ModeSt where
  /-- WAKE_HOLD running. -/
  wakeHold : Bool := false
  /-- The lease of MODE_REQ.H and of MODE_REQ.F is running. -/
  leaseH : Bool := false
  leaseF : Bool := false
  /-- A target change not yet acted on (R63). -/
  stored : Bool := false
  /-- Park entry: 0 none, 1 link ending, 2 epoch, 3 journal commit, 4 groups stopping, 5 shell stopping. -/
  park : Nat := 0
  /-- MODE_CAUSE that the end of the Park entry records. -/
  parkCause : Nat := 1
  /-- An epoch completed in this Park entry. -/
  parkEpochDone : Bool := false
  /-- Park entry interrupted by Ride-through restarts on return (R78). -/
  parkRestart : Bool := false
  /-- The rail is left unregulated in Service (R67, R68). -/
  railOff : Bool := false
  /-- A Park maintenance run is charging (R73). -/
  maint : Bool := false
  /-- A Park check is running. -/
  parkCheck : Bool := false
  /-- No write of a limit exceeds its Stratus value until a valid image is switched in (R67). -/
  capped : Bool := false
  /-- A Service under R67 stands until the resolved target changes (R767). -/
  serviceStay : Bool := false
  /-- ORDER_IN is held with no phase while the pack ramps the rail (R66). -/
  orderHeld : Bool := false
  deriving DecidableEq, Repr

/-- The power path of the shell (R184-R213). SRC_* objects stand in the retained area. -/
structure SourceSt where
  /-- Classification: 0 none, 1 V_OC average, 2 connected and waiting for the step, 3 step running, 4 ripple completing. -/
  cls : Nat := 0
  /-- The source was CONNECTED when the classification started. -/
  fromConnected : Bool := false
  /-- Provisional row, 1-5; 0 none. -/
  prov : Nat := 0
  /-- Step 2 found a window. -/
  window : Bool := false
  /-- The step was applied, or was cut short under R195. -/
  stepOn : Bool := false
  stepCut : Bool := false
  /-- A requested classification waits for the reconnection. -/
  waiting : Bool := false
  voc : Nat := 0
  v1 : Nat := 0
  i1 : Int := 0
  /-- The last classification found V_OC inside a window, and when it began. -/
  lastWindow : Bool := false
  lastAt : Nat := 0
  /-- The refined R_H, µΩ (R202). -/
  rh : Nat := 0
  /-- Last MC2 pair used by the refinement: VBUS mV and IBUS mA. -/
  lastV : Nat := 0
  lastI : Int := 0
  lastOk : Bool := false
  /-- A classification replaces the next reconnection (R70, R196). -/
  reclass : Bool := false
  /-- When the source was last disconnected by a drop or dump, and the longest such time since the last record, 1 ms. -/
  discAt : Option Nat := none
  discMax : Nat := 0
  /-- The row in force, 1-5; 0 none. -/
  row : Nat := 0
  /-- IIN_LIMIT at the last ILIM_IN write, 0.1 A. -/
  iinWritten : Nat := 0
  harnessLow : Bool := false
  /-- Events of the core not yet seen by the shell: drops, dumps, over-rail trips with the last one's VBUS in 0.1 V (R221); a
  source that was blocked, and one that was taken off. -/
  missedDrops : Nat := 0
  missedDumps : Nat := 0
  missedOver : Nat := 0
  missedOverV : Nat := 0
  missedBlock : Bool := false
  missedDetach : Bool := false
  deriving DecidableEq, Repr

/-- A fault record (R510). `conds` lists the condition messages recorded in it and not yet cleared (R511). -/
structure FaultRec where
  first : Nat
  last : Nat
  cls : Nat
  active : Bool := true
  merged : Bool := false
  waiting : Bool := true
  queued : Bool := false
  injected : Bool := false
  read : Bool := false
  skipped : Bool := false
  react : Nat := 0
  kinds : Nat := 0
  srcs : Nat := 0
  tFirst : Nat := 0
  count : Nat := 1
  opFirst : Nat := 0
  conds : List Msg := []
  /-- Order of acceptance. -/
  seq : Nat := 0
  deriving DecidableEq, Repr

/-- The collector's logic apart from its records (R503, R514, R526, R528). -/
structure Collector where
  /-- The fault bus: messages waiting, oldest first; at most four per source. -/
  bus : List Msg := []
  /-- The core's queued messages delivered at a handover, accepted ahead of the bus (R125). -/
  deliver : List Msg := []
  served : Nat := 0
  /-- The slot whose handling window is open. -/
  handling : Option Nat := none
  /-- The block reset of the open window has not completed. -/
  blockReset : Option Nat := none
  /-- The FAULT body in force when the open window began, none for the ROM defaults (R525). -/
  table : Option (List Byte) := none
  irq : Bool := false
  haloRun : Bool := false
  haloLevel : Bool := false
  selfFails : Nat := 0
  /-- When ECC_CORRECTED was last raised (R732). -/
  eccAt : Option Nat := none
  selfInst : Nat := 0
  recOvf : Bool := false
  lost : Bool := false
  /-- Conditions raised by the blocks and not cleared by them. -/
  conds : List Msg := []
  deriving DecidableEq, Repr

/-- Consecutive updates below a threshold, and at or above it (R108). -/
structure Run where
  low : Nat := 0
  ok : Nat := 0
  deriving DecidableEq, Repr

/-- The speed monitor's runs for CORE_SLOW and CORE_VERY_SLOW. -/
structure SpeedSt where
  slow : Run := {}
  very : Run := {}
  deriving DecidableEq, Repr

/-- The journal buffer of the retained area (R605) and a commit in progress (R606). An entry's value is held one up,
so that an entry equal to a default is an entry. -/
structure Journal where
  buf : Store := []
  inFlight : Option Store := none
  /-- A commit was asked for while one was running. -/
  again : Bool := false
  deriving DecidableEq, Repr

/-- One OTP area: programmed bytes by offset (unprogrammed bytes are 0), and its lock fuse (R723). -/
structure OtpArea where
  fuses : Store := []
  locked : Bool := false
  deriving DecidableEq, Repr

/-- The OTP as shipped (R723): ID, TRIM and FEAT programmed and locked, SEC and CUST blank. The bytes stand for an ML4860-A
with every ceiling at the top of its range; the last two bytes of each area are its CRC-16, low byte first. -/
def shippedOtp : List OtpArea := [
  { fuses := [(0, 1), (8, 1), (30, 130), (31, 78)], locked := true },
  { fuses := [(510, 183), (511, 68)], locked := true },
  { fuses := [(0, 1), (2, 96), (3, 9), (4, 96), (5, 9), (6, 88), (7, 2), (8, 32), (9, 3), (10, 32), (11, 3), (12, 238), (13, 2),
      (14, 208), (15, 7), (62, 8), (63, 251)], locked := true },
  {}, {}]

/-- The OTP: the areas ID, TRIM, FEAT, SEC, CUST, their shadows (R724), and a programming in progress (R728, R729). -/
structure Otp where
  areas : List OtpArea := shippedOtp
  shadows : List Store := []
  /-- C_typ of the TRIM area (R106); the spec gives it no offset. -/
  cTyp : Nat := 4096
  /-- Area, offset and bytes of an OTP_PROG write in progress; no bytes: a lock being blown. -/
  prog : Option (Nat × Nat × List Byte) := none
  /-- A re-verify that waits for the end of programming (R733). -/
  due : Option Nat := none
  deriving DecidableEq, Repr

/-- A bank (R683): its generation and its images, whole, by kind. -/
structure Bank where
  gen : Nat := 0
  images : List (Nat × List Byte) := []
  deriving DecidableEq, Repr

/-- The table store (R677-R692): SRAM banks, their flash copies, the bodies that the blocks have applied by kind (a kind not
listed runs on its ROM defaults), and a pending switch. -/
structure Tables where
  a : Bank := {}
  b : Bank := {}
  fa : Bank := {}
  fb : Bank := {}
  active : List (Nat × List Byte) := []
  /-- Sequencer sections in use, by kind. -/
  sections : List (Nat × List Byte) := []
  /-- The CHG body that a pending switch brings (R688). -/
  newChg : Option (List Byte) := none
  /-- The FREQ body that a pending switch brings. -/
  newFreq : Option (List Byte) := none
  /-- A switch waits for safe points; SWITCH_DEFERRED was raised. -/
  switching : Bool := false
  deferred : Bool := false
  /-- Images that reached flash since the last FLASH_WRITE_COMPLETE: the bank copy being written. -/
  writing : Option Nat := none
  /-- Kinds, bit k - 1, that go to their ROM defaults at their safe points (R708). -/
  romDue : Nat := 0
  deriving DecidableEq, Repr

/-- A sequencer's table part (R693-R702): its block, empty without one; its state; the trap. -/
structure Seq where
  block : List Byte := []
  state : Nat := 0
  trap : Bool := false
  stopped : Bool := true
  /-- A full evaluation since the last watchdog check-in (R568). -/
  ran : Bool := false
  loopAt : Option Nat := none
  refAt : Option Nat := none
  /-- Refusals not yet reported (R704). -/
  refused : Nat := 0
  deriving DecidableEq, Repr

/-- A scan record of the recorder (R427): start time, scan count, result words in rising channel order. -/
structure ScanRec where
  time : Nat
  count : Nat
  words : List Nat
  deriving DecidableEq, Repr

/-- A capture (R429, R434). `flags`: bit 0 TRUNC, 1 LATE, 2 EVT_FULL, 3 KEEP, 4 SHORT_PRE. -/
structure Capture where
  no : Nat
  t0 : Nat
  flags : Nat := 0
  trigs : List Nat := []
  ntrig : Nat := 0
  mode : Nat := 0
  src : Nat := 0
  zone : Nat := 0
  band : Nat := 0
  pre : Nat := 0
  post : Nat := 0
  scans : List ScanRec := []
  /-- Event words with their full times, oldest first. -/
  events : List (Nat × Nat) := []
  deriving DecidableEq, Repr

/-- The squall recorder (R425-R436): both parts of the ring, newest first, the open and the closing capture. -/
structure Recorder where
  scans : List ScanRec := []
  events : List (Nat × Nat) := []
  /-- Events lost since the last gap record. -/
  lost : Nat := 0
  /-- The instant recording started or resumed. -/
  since : Nat := 0
  open_ : Option Capture := none
  closing : Option Capture := none
  /-- Start times of the captures of the last hour, the time of the last REC_SUPPRESSED, and the triggers suppressed in the last hour. -/
  starts : List Nat := []
  supAt : Option Nat := none
  sup : List Nat := []
  /-- The last comparator events that are a trigger's T0, by source, latest first (R428). -/
  marks : List (Nat × Stamp) := []
  /-- The capture that the present handover's backlog started (R436). -/
  late : Option Nat := none
  deriving DecidableEq, Repr

/-- The measurement scheduler (R403-R424). -/
structure Meas where
  /-- Bit m: converter m has finished its scan. -/
  done : Nat := 0
  /-- The first common scan after a start runs at a fixed 1.0 ms. -/
  first : Bool := true
  /-- Each converter's next channel, and the instant at which its slot integrates (R403). -/
  next : List Nat := [0, 0, 0, 0]
  from_ : List Nat := [0, 0, 0, 0]
  /-- Ticks of the present slot in which a phase was not at Z (R397). -/
  live : List Nat := List.replicate 16 0
  /-- PARK_SCAN as a Park check has taken it, the scans that the check has left, and the end of the gap before the next (R406, R413). -/
  park : Nat := 0
  left : Nat := 0
  gapEnd : Nat := 0
  /-- SCAN_INT of each converter as taken at the last common trigger. -/
  ints : List Nat := []
  start : Nat := 0
  /-- Consecutive flagged scans, by channel. -/
  flagged : Store := []
  refRun : Run := {}
  dcE : Run := {}
  dcW : Run := {}
  /-- Self-calibration: 0 none, 1 at the next common trigger, 2 running. -/
  cal : Nat := 0
  /-- CAL_STATE before the calibration in progress. -/
  calWas : Nat := 0
  /-- Next channel of a refresh round. -/
  refresh : Option Nat := none
  /-- CAL_STALE was raised since power-on. -/
  staleSaid : Bool := false
  /-- The charger restores its command at the next common scan (R418); the factors are to be committed after handover (R440). -/
  restore : Bool := false
  owed : Bool := false
  deriving DecidableEq, Repr

/-- One die sensor's runs (R443). -/
structure TdRun where
  out : Nat := 0
  bad : Nat := 0
  ok : Nat := 0
  qualified : Bool := true
  deriving DecidableEq, Repr

/-- An interval that the die band selects, in s: in force, selected for after the next run, and the last run's instant (R448). -/
structure Interval where
  iv : Nat
  next : Nat
  last : Nat := 0
  deriving DecidableEq, Repr

/-- The thermal manager (R441-R462). -/
structure Thermal where
  td : Vector TdRun 8 := Vector.replicate 8 {}
  /-- Consecutive invalid scans of SNTC1-SNTC4. -/
  ntcBad : List Nat := [0, 0, 0, 0]
  /-- f_T per group and the charge factor, ppm. -/
  f : Four Nat := ⟨1000000, 1000000, 1000000, 1000000⟩
  fChg : Nat := 1000000
  /-- Intervals selected by the die band: calibration refresh, flash scrub, OTP re-verify, ageing measurement (R448). -/
  cal : Interval := { iv := 600, next := 600 }
  scrub : Interval := { iv := 86400, next := 86400 }
  otp : Interval := { iv := 86400, next := 86400 }
  age : Interval := { iv := 3600, next := 3600 }
  /-- Ticks with the shell running, which the flash scrub counts in (R722). -/
  up : Nat := 0
  /-- A common scan has given an MC3 result since power-on, and fewer than four sensors were qualified in the last. -/
  seen : Bool := false
  few : Bool := false
  deriving DecidableEq, Repr

/-- Least-squares sums over sample pairs. -/
structure Sums where
  n : Nat := 0
  sx : Int := 0
  sy : Int := 0
  sxx : Int := 0
  sxy : Int := 0
  lo : Int := 0
  hi : Int := 0
  deriving DecidableEq, Repr

/-- A mean being formed. -/
structure Mean where
  n : Nat := 0
  sum : Int := 0
  deriving DecidableEq, Repr

/-- The Horizon planner (R466-R500). Item instances are numbered as HZ_BASE lists them, 0-43. -/
structure Horizon where
  /-- Round accumulators (retained area). -/
  trim : Vector Mean 16 := Vector.replicate 16 {}
  path : Vector Sums 16 := Vector.replicate 16 {}
  rdc : Mean := {}
  zth : List (Nat × Nat) := []
  ref : Mean := {}
  spd : Mean := {}
  /-- Last pack capacity between two anchors, 0.1 Ah; the last anchor's SOC and the charge moved since, 0.1 mA·s. -/
  q : Option Nat := none
  anchor : Option Nat := none
  anchorQ : Int := 0
  /-- Latest value of each instance (one up; 0 none), and whether it is new since the last epoch. -/
  latest : Store := []
  fresh : List Nat := []
  base : Store := []
  /-- History per instance, newest first: HZ_OP_TIME and value. -/
  hist : List (Nat × List (Nat × Nat)) := []
  /-- Instances whose margin has been reported low, and exhausted. -/
  low : List Nat := []
  gone : List Nat := []
  /-- The epoch running: trigger 1 Park, 2 timer, 3 command; and the DER section read at its start. -/
  epoch : Option Nat := none
  der : List Byte := []
  /-- The probe: 0 none, 1 waiting for its conditions, 2 running. -/
  probe : Nat := 0
  /-- When the probe began. -/
  probeAt : Nat := 0
  /-- S_0 of R477. -/
  s0 : Option Nat := none
  /-- Factors as the step rule keeps them, ppm (R490). -/
  ppm : List Nat := [1000000, 1000000, 1000000, 1000000, 1000000, 1000000, 1000000, 1000000, 1000000]
  /-- The end of the ten minutes in which a waiting probe may start (R479). -/
  probeBy : Nat := 0
  /-- The last disturbance of the rail, and POWER_FLOW.RAIL, W, at the start of the undisturbed time (R479). -/
  calm : Nat := 0
  flow : Int := 0
  /-- A reset fell between the last epoch and the next (R496). -/
  reset : Bool := false
  /-- Ticks of the present second of operating time. -/
  ticks : Nat := 0
  /-- Applied Horizon factors, 0.1 %. -/
  applied : List Nat := [1000, 1000, 1000, 1000, 1000, 1000, 1000, 1000, 1000]
  /-- Groups being moved under a lowered ceiling: target kHz. -/
  ceiling : List (Group × Nat) := []
  /-- Hourly bursts of each port, and hourly means of the last 720 hours that hold any, newest first. -/
  leak : Two Mean := ⟨{}, {}⟩
  hours : Two (List (Nat × Nat)) := ⟨[], []⟩
  deriving DecidableEq, Repr

/-- Accumulators of the HOUR record in progress (R496, retained area). -/
structure HourAcc where
  /-- Full hour of HZ_OP_TIME of the last HOUR record. -/
  mark : Nat := 0
  /-- Energies in mW·s and charges in mA·ms; minutes counted in ms. -/
  rail : Nat := 0
  bus : Nat := 0
  dis : Nat := 0
  chg : Nat := 0
  tMax : Int := -1000
  sMax : Int := -1000
  pMax : Int := -1000
  pMin : Int := 10000
  socMin : Nat := 1000
  socMax : Nat := 0
  spd : Nat := 65535
  drops : Nat := 0
  dumps : Nat := 0
  faults : Nat := 0
  derated : Nat := 0
  reset : Bool := false
  overcast : Bool := false
  deriving DecidableEq, Repr

/-- What the always-on domain keeps of a Park (R497). -/
structure ParkAcc where
  /-- The PARK record has still to be written, and a reset fell into its bring-up. -/
  due : Bool := false
  reset : Bool := false
  since : Nat := 0
  socIn : Nat := 0
  runs : Nat := 0
  pMin : Int := 10000
  pMax : Int := -1000
  deriving DecidableEq, Repr

end Sys2Proof.Machine
end

