-- ==== Sys2Proof/Machine/Blocks.lean ====
section
/-!
DEFINITION. Blocks.lean: the plain-data records of the envelope port, the charger and cell monitor, the energy-share link and the fabric.
-/
namespace Sys2Proof.Machine

/-- The envelope port and the grant engine (R222-R261). Frames are numbered from the enable of the port. -/
structure Env where
  /-- ENV_CFG as in force, and a write that waits for the next active FS edge (R226). -/
  cfg : Nat := 0x0081
  cfgPend : Bool := false
  /-- Rate in force: 0 none, 1-3 as in ENV_CFG[11:10]. -/
  rate : Nat := 0
  /-- An active FS edge has been seen in this state of the port. -/
  seen : Bool := false
  /-- Consecutive good frames, and the detection periods in ns, oldest first (R227). -/
  good : Nat := 0
  periods : List Nat := []
  /-- The last measured period, ns; consecutive missing edges. -/
  period : Nat := 20833
  missing : Nat := 0
  /-- Number of the present frame. -/
  frame : Nat := 0
  /-- Queue entries, 2 W, by 16 * frame + pair (R236), and as they stood when the present frame began. -/
  queue : Store := []
  back : Store := []
  /-- Late slots (R239) and CLIP marks (R233), each as counted, and as it stood when the present frame began. -/
  late : Nat := 0
  lateBack : Nat := 0
  clips : Nat := 0
  clipsBack : Nat := 0
  /-- The last slot of the present frame that has passed. -/
  slot : Option Nat := none
  /-- SEQ of the last frame used, the present frame's header, and the last header's limiter bit. -/
  seq : Option Nat := none
  hdr : Option Nat := none
  limiter : Bool := false
  limiterBack : Bool := false
  /-- The present frame's computation has been made. -/
  done : Bool := false
  /-- Slots 0-14 computed for the present frame; empty where none. -/
  next : List Nat := []
  /-- The slots on ENV_DOUT in the present frame, and the pin at high impedance (R231). -/
  dout : List Nat := []
  hiZ : Bool := true
  /-- No ENV_BCLK edge has been seen for 1 µs. -/
  silent : Bool := false
  /-- The last grant sent, 2 W. -/
  sent : Option Nat := none
  /-- A source-loss event has come since the last computation (R249). -/
  broken : Bool := false
  /-- The last frame was over demand. -/
  tooMuch : Bool := false
  /-- Frames present in a row, up to 4, for PLAY_AUTO (R53). -/
  present : Nat := 0
  /-- LOOK of the last header of a frame found good. -/
  look : Nat := 0
  badAt : Option Nat := none
  gapAt : Option Nat := none
  /-- Feedforward power last released, 2 W. -/
  pff : Nat := 0
  /-- A grant has been computed since the charger's last evaluation (R282). -/
  computed : Bool := false
  /-- The mode at the present frame's start released feedforward (R261). -/
  ffOn : Bool := false
  deriving DecidableEq, Repr

/-- The charger and the cell monitor (R262-R303). -/
structure Charger where
  /-- Current of the CV loop, mA, and the scheduling term as it stands, mA. -/
  cv : Nat := 0
  sched : Nat := 0
  /-- Consecutive MC0 results with the highest cell at V_END (R275). -/
  endRun : Nat := 0
  /-- An MC0 result has come since the last evaluation. -/
  fresh : Bool := false
  /-- A presence declaration has been made since power-on (R265). -/
  known : Bool := false
  /-- NO_PACK until a new pack (R301). -/
  lost : Bool := false
  sumRun : Run := {}
  sum : Bool := false
  /-- Consecutive invalid scans of each enabled NTC (R268). -/
  ntcBad : List Nat := [0, 0, 0, 0]
  openTap : Bool := false
  /-- Balancing: selected cells, scan of the frame (3: its last, or none runs), parity of the frame (R298, R299). -/
  sel : Nat := 0
  scan : Nat := 3
  odd : Bool := false
  /-- A reset has cleared PACK_STATE of a pack that was not known to be gone, and its presence has still to be evaluated again
  (R288). -/
  unseen : Bool := false
  /-- State of charge in 10⁻⁹ of 0.1 % (R294). -/
  soc : Nat := 0
  /-- Time without a count over a system reset, µs, to be charged at the first IPACK after the handover (R294). -/
  gap : Nat := 0
  /-- Seconds spent in PRECOND, and CHG_STATE at the last tick (R280, R289). -/
  precond : Nat := 0
  before : Nat := 0
  /-- PROGRESS in ms. -/
  progress : Nat := 0
  /-- Rail power of the last second: time and W, falling. -/
  rail : List (Nat × Int) := []
  /-- Blocking bits that a new pack has passed over (R291, R303). -/
  waived : Nat := 0
  /-- No enabled NTC was valid at the last evaluation (R270). -/
  noNtc : Bool := false
  deriving DecidableEq, Repr

/-- A contract's four values (R319). `prov`: this end is the Provider. Units 0.5 V, 0.5 A, 0.1 V/ms. -/
structure Terms where
  volt : Nat := 0
  curr : Nat := 0
  slew : Nat := 0
  prov : Bool := false
  deriving DecidableEq, Repr

/-- A link port (R304-R351). -/
structure LinkPort where
  mated : Bool := false
  far : Bool := false
  /-- The port has been open while the shell was absent (R331). -/
  opened : Bool := false
  /-- A good frame has been received since the port became mated (R330). -/
  heard : Bool := false
  /-- Bursts: 0 none, 1 running from before the mating, 2 running from after it; and a complete one since the mating. -/
  burst : Nat := 0
  burstOk : Bool := false
  /-- The port's own moisture state: 0 DRY, 1 WET, 2 BLOCKED, 3 not measured (R316). -/
  moist : Nat := 3
  wetRun : Nat := 0
  blockRun : Nat := 0
  dryRun : Nat := 0
  dampRun : Nat := 0
  /-- Consecutive bursts with B out of range; the port is held out by SENSE_NET (R315). -/
  netRun : Nat := 0
  net : Bool := false
  peerMoist : Nat := 3
  /-- Last MSG_ID sent; the message that awaits an answer, and whether it has been repeated (R326). -/
  msgId : Nat := 0
  await_ : Option (List Byte) := none
  again : Bool := false
  /-- MSG_ID of the last message answered, and the answer (R327). -/
  rxId : Option Nat := none
  answer : List Byte := []
  /-- The last payload sent. -/
  out : List Byte := []
  /-- The contract in force or being formed, and the target of a transition under way. -/
  now : Terms := {}
  next : Option Terms := none
  /-- The offer that stands, as sent or received: payload bytes 4-10. -/
  offer : Option (List Byte) := none
  /-- The Consumer's transition timer is armed (R333). -/
  timer : Bool := false
  /-- The answer to an own DETACH is awaited. -/
  leaving : Bool := false
  /-- Discharging into the own rail: 0 no, 1 under R312 at 2.0 A, 2 under R338 at 5.0 A. -/
  discharge : Nat := 0
  /-- The dwell of a role swap has ended. -/
  dwellDone : Bool := false
  /-- A ramp-down for the Park entry or for Service. -/
  forMode : Bool := false
  /-- The link current's limit ramps to 0: the tick at which it began, and how many ticks it takes (R330, R341). -/
  ramp : Option (Nat × Nat) := none
  /-- The HARD_RESET in progress is the port's own: a message that arrives has crossed it (R351). -/
  hardSent : Bool := false
  /-- The reason of a HARD_RESET that came while the shell was absent (R351). -/
  hardHeld : Option Nat := none
  deriving DecidableEq, Repr

/-- A fabric frame (R357). -/
structure Frame where
  node : Nat
  obj : Nat := 0
  src : Nat
  type : Nat
  seq : Nat := 0
  hops : Nat := 0
  data : List Byte := []
  deriving DecidableEq, Repr

/-- A TOPO record (R366). -/
structure TopoRec where
  uid : Nat
  east : Nat := 0
  west : Nat := 0
  node : Nat := 0
  stored : Nat := 0
  flags : Nat := 0
  seq : Nat := 0
  gen : Nat := 0
  deriving DecidableEq, Repr

/-- A fabric port (R352-R365). -/
structure FabPort where
  /-- Consecutive good hellos since the lock. -/
  hellos : Nat := 0
  /-- TX_TIME of the last good hello and the port's time at its SOF, 0.5 ns. -/
  txTime : Nat := 0
  rxTime : Nat := 0
  nbrNode : Nat := 0
  nbrFlags : Nat := 0
  /-- The last 16 hop delays, newest first. -/
  delays : List Int := []
  /-- Frames queued with their priorities, oldest first; ticks that the frame on the line still takes; the last frame sent. -/
  queue : List (Nat × Frame) := []
  busy : Nat := 0
  sent : Option Frame := none
  /-- The last marker sent: COUNT and OFS. -/
  marker : Option (Nat × Nat) := none
  /-- Times of the frames discarded in the last second; the last CRC_ERRORS. -/
  bad : List Nat := []
  badAt : Option Nat := none
  deriving DecidableEq, Repr

/-- A request that the device originated (R380). `who`: none for the fabric boot, else the sequencer. BOOT_REQ has no TXN;
256 stands for it. -/
structure FabReq where
  txn : Nat
  frame : Frame
  tries : Nat := 1
  who : Option Nat := none
  deriving DecidableEq, Repr

/-- The fabric node (R366-R389). -/
structure Fabric where
  ports : Two FabPort := ⟨{}, {}⟩
  recs : List TopoRec := []
  topoSeq : Nat := 0
  /-- STORED_ID (R366, R372). -/
  stored : Nat := 0
  /-- An ID has been adopted since power-on, and which. -/
  adopted : Bool := false
  used : Nat := 0
  settled : Bool := false
  zenith : Option Nat := none
  /-- UIDs of the last assignment and its frames, while this node is the zenith. -/
  listed : List Nat := []
  assign : List (List Byte) := []
  lastZenith : Option Nat := none
  /-- A port left UP while this node's assignment was on its way: another one follows (R394). -/
  cut : Bool := false
  /-- UID of the sender of the adopted assignment. -/
  from_ : Nat := 0
  /-- Frames sent per destination (SEQ). -/
  seqs : Store := []
  /-- Requests answered in the last 100 ms: source, TXN, time, response. -/
  answered : List (Nat × Nat × Nat × Frame) := []
  reqs : List FabReq := []
  txn : Nat := 0
  /-- Fabric boot: none, 0 waiting for an ID and a server, 1-10 the kind being fetched, 11 complete; and its bytes so far. -/
  boot : Option Nat := none
  bootData : List Byte := []
  /-- The timebase: last instant and period, 0.5 ns; COUNT of the next marker of the zenith. -/
  tLast : Option Int := none
  tPeriod : Int := 200000
  /-- When the PLL took the clock of the port that it follows (R386). -/
  clkAt : Option Nat := none
  count : Nat := 0
  deriving DecidableEq, Repr

end Sys2Proof.Machine
end

