-- ==== Sys2Proof/Machine/Objects.lean ====
section
/-!
DEFINITION. Objects.lean: the keys of the object dictionary, index * 256 + sub-index (R580), under the spec's names.
-/
namespace Sys2Proof.Obj

/-- POWER_FLOW.BUS, 0x0302.01 (R21). -/
abbrev POWER_FLOW_BUS : Nat := 197121
/-- POWER_FLOW.PACK, 0x0302.02 (R21). -/
abbrev POWER_FLOW_PACK : Nat := 197122
/-- POWER_FLOW.LINK_E, 0x0302.03 (R21). -/
abbrev POWER_FLOW_LINK_E : Nat := 197123
/-- POWER_FLOW.LINK_W, 0x0302.04 (R21). -/
abbrev POWER_FLOW_LINK_W : Nat := 197124
/-- POWER_FLOW.RAIL, 0x0302.05 (R21). -/
abbrev POWER_FLOW_RAIL : Nat := 197125
/-- POWER_FLOW.LOSS, 0x0302.06 (R21). -/
abbrev POWER_FLOW_LOSS : Nat := 197126
/-- RAIL_SETPOINT, 0x0210 (R764). -/
abbrev RAIL_SETPOINT : Nat := 135168
/-- RAIL_FLOOR, 0x0211 (R764). -/
abbrev RAIL_FLOOR : Nat := 135424
/-- LINK_CEILING, 0x0212 (R764). -/
abbrev LINK_CEILING : Nat := 135680
/-- MODE_STATE, 0x0100 (R48). -/
abbrev MODE_STATE : Nat := 65536
/-- MODE_REQ.H, 0x0101.01 (R48). -/
abbrev MODE_REQ_H : Nat := 65793
/-- MODE_REQ.S, 0x0101.02 (R48). -/
abbrev MODE_REQ_S : Nat := 65794
/-- MODE_REQ.T, 0x0101.03 (R48). -/
abbrev MODE_REQ_T : Nat := 65795
/-- MODE_REQ.F, 0x0101.04 (R48). -/
abbrev MODE_REQ_F : Nat := 65796
/-- MODE_TARGET, 0x0102 (R48). -/
abbrev MODE_TARGET : Nat := 66048
/-- MODE_CAUSE, 0x0103 (R48). -/
abbrev MODE_CAUSE : Nat := 66304
/-- MODE_PREV, 0x0104 (R48). -/
abbrev MODE_PREV : Nat := 66560
/-- BRINGUP_STEP, 0x0105 (R48). -/
abbrev BRINGUP_STEP : Nat := 66816
/-- MODE_LEASE.H, 0x0106.01 (R48). -/
abbrev MODE_LEASE_H : Nat := 67073
/-- MODE_LEASE.F, 0x0106.02 (R48). -/
abbrev MODE_LEASE_F : Nat := 67074
/-- IDLE_PARK_DELAY, 0x0107 (R48). -/
abbrev IDLE_PARK_DELAY : Nat := 67328
/-- WAKE_HOLD, 0x0108 (R48). -/
abbrev WAKE_HOLD : Nat := 67584
/-- PARK_CHECK, 0x0109 (R48). -/
abbrev PARK_CHECK : Nat := 67840
/-- PLAY_AUTO, 0x010A (R48). -/
abbrev PLAY_AUTO : Nat := 68096
/-- RAIL_RAMP, 0x010B (R48). -/
abbrev RAIL_RAMP : Nat := 68352
/-- WAKE_CFG, 0x010C (R48). -/
abbrev WAKE_CFG : Nat := 68608
/-- CORE_SPEED.INDEX, 0x0281.01 (R109). -/
abbrev CORE_SPEED_INDEX : Nat := 164097
/-- CORE_SPEED.MIN, 0x0281.02 (R109). -/
abbrev CORE_SPEED_MIN : Nat := 164098
/-- CORE_SPEED.LATENCY, 0x0281.03 (R109). -/
abbrev CORE_SPEED_LATENCY : Nat := 164099
/-- CORE_SPEED.LIFE_MIN, 0x0281.04 (R109). -/
abbrev CORE_SPEED_LIFE_MIN : Nat := 164100
/-- CORE_SLOW_LIMIT, 0x0286 (R109). -/
abbrev CORE_SLOW_LIMIT : Nat := 165376
/-- CORE_STATUS, 0x0280 (R118). -/
abbrev CORE_STATUS : Nat := 163840
/-- LATCH_HELD, 0x0282.01 to .0D (R118). -/
abbrev LATCH_HELD (sub : Nat) : Nat := 164352 + sub
/-- LATCH_PENDING, 0x0283 (R118). -/
abbrev LATCH_PENDING : Nat := 164608
/-- STRATUS_COUNT, 0x0284 (R118). -/
abbrev STRATUS_COUNT : Nat := 164864
/-- STRATUS_LAST, 0x0285 (R118). -/
abbrev STRATUS_LAST : Nat := 165120
/-- STRATUS_LIM.IN, 0x0D40.01 (R128). -/
abbrev STRATUS_LIM_IN : Nat := 868353
/-- STRATUS_LIM.PACKGRP, 0x0D40.02 (R128). -/
abbrev STRATUS_LIM_PACKGRP : Nat := 868354
/-- STRATUS_LIM.PACK_DIS, 0x0D40.03 (R128). -/
abbrev STRATUS_LIM_PACK_DIS : Nat := 868355
/-- STRATUS_LIM.LINK, 0x0D40.04 (R128). -/
abbrev STRATUS_LIM_LINK : Nat := 868356
/-- GROUP_STATE, 0x0200.01 to .04 (R138). -/
abbrev GROUP_STATE (sub : Nat) : Nat := 131072 + sub
/-- GROUP_NACT, 0x0201.01 to .04 (R138). -/
abbrev GROUP_NACT (sub : Nat) : Nat := 131328 + sub
/-- GROUP_ADD_I, 0x0202.01 to .04 (R138). -/
abbrev GROUP_ADD_I (sub : Nat) : Nat := 131584 + sub
/-- GROUP_HYST, 0x0203.01 to .04 (R138). -/
abbrev GROUP_HYST (sub : Nat) : Nat := 131840 + sub
/-- GROUP_NMIN, 0x0204.01 to .04 (R138). -/
abbrev GROUP_NMIN (sub : Nat) : Nat := 132096 + sub
/-- GROUP_APPLY, 0x0205 (R138). -/
abbrev GROUP_APPLY : Nat := 132352
/-- GROUP_FREQ, 0x0206.01 to .04 (R138). -/
abbrev GROUP_FREQ (sub : Nat) : Nat := 132608 + sub
/-- GROUP_SPREAD, 0x0207.01 to .04 (R138). -/
abbrev GROUP_SPREAD (sub : Nat) : Nat := 132864 + sub
/-- GROUP_SPREAD_RATE, 0x0208.01 to .04 (R138). -/
abbrev GROUP_SPREAD_RATE (sub : Nat) : Nat := 133120 + sub
/-- GROUP_SYNC, 0x0209.01 to .04 (R138). -/
abbrev GROUP_SYNC (sub : Nat) : Nat := 133376 + sub
/-- GROUP_PHASE_OFS, 0x020A.01 to .04 (R138). -/
abbrev GROUP_PHASE_OFS (sub : Nat) : Nat := 133632 + sub
/-- GROUP_SLOPE, 0x020B.01 to .04 (R138). -/
abbrev GROUP_SLOPE (sub : Nat) : Nat := 133888 + sub
/-- GROUP_FB_FLOOR, 0x020C.01 to .04 (R138). -/
abbrev GROUP_FB_FLOOR (sub : Nat) : Nat := 134144 + sub
/-- GROUP_ISNS_GAIN, 0x020D.01 to .04 (R138). -/
abbrev GROUP_ISNS_GAIN (sub : Nat) : Nat := 134400 + sub
/-- GROUP_BAL_GAIN, 0x020E.01 to .04 (R138). -/
abbrev GROUP_BAL_GAIN (sub : Nat) : Nat := 134656 + sub
/-- GROUP_BAL_CLAMP, 0x020F.01 to .04 (R138). -/
abbrev GROUP_BAL_CLAMP (sub : Nat) : Nat := 134912 + sub
/-- FREQ_NOW, 0x0213.01 to .04 (R138). -/
abbrev FREQ_NOW (sub : Nat) : Nat := 135936 + sub
/-- SYNC_STATE, 0x0214.01 to .04 (R138). -/
abbrev SYNC_STATE (sub : Nat) : Nat := 136192 + sub
/-- FOLD_NOW, 0x0215.01 to .04 (R138). -/
abbrev FOLD_NOW (sub : Nat) : Nat := 136448 + sub
/-- PHASE_POS, 0x0220.00 to .0F (R138). -/
abbrev PHASE_POS (sub : Nat) : Nat := 139264 + sub
/-- PHASE_STATE, 0x0221.00 to .0F (R138). -/
abbrev PHASE_STATE (sub : Nat) : Nat := 139520 + sub
/-- PHASE_I, 0x0222.00 to .0F (R138). -/
abbrev PHASE_I (sub : Nat) : Nat := 139776 + sub
/-- ISNS_ZERO, 0x0223.00 to .0F (R138). -/
abbrev ISNS_ZERO (sub : Nat) : Nat := 140032 + sub
/-- PHASE_TRIM, 0x0240.00 to .0F (R138). -/
abbrev PHASE_TRIM (sub : Nat) : Nat := 147456 + sub
/-- PHASE_TRIM_SEED, 0x0241.00 to .0F (R138). -/
abbrev PHASE_TRIM_SEED (sub : Nat) : Nat := 147712 + sub
/-- SRC_TYPE, 0x0300 (R219). -/
abbrev SRC_TYPE : Nat := 196608
/-- IIN_LIMIT, 0x0301 (R219). -/
abbrev IIN_LIMIT : Nat := 196864
/-- SRC_STATE, 0x0303 (R219). -/
abbrev SRC_STATE : Nat := 197376
/-- SRC_MEAS.V_OC, 0x0304.01 (R219). -/
abbrev SRC_MEAS_V_OC : Nat := 197633
/-- SRC_MEAS.R_HARN, 0x0304.02 (R219). -/
abbrev SRC_MEAS_R_HARN : Nat := 197634
/-- SRC_MEAS.SLOW, 0x0304.03 (R219). -/
abbrev SRC_MEAS_SLOW : Nat := 197635
/-- SRC_MEAS.RIPPLE_PP, 0x0304.04 (R219). -/
abbrev SRC_MEAS_RIPPLE_PP : Nat := 197636
/-- SRC_MEAS.RIPPLE_PER, 0x0304.05 (R219). -/
abbrev SRC_MEAS_RIPPLE_PER : Nat := 197637
/-- SRC_MEAS.I_HARN, 0x0304.06 (R219). -/
abbrev SRC_MEAS_I_HARN : Nat := 197638
/-- SRC_MEAS.REASON, 0x0304.07 (R219). -/
abbrev SRC_MEAS_REASON : Nat := 197639
/-- SRC_CLASSIFY, 0x0305 (R219). -/
abbrev SRC_CLASSIFY : Nat := 197888
/-- DISC_PRECHARGE, 0x0306 (R219). -/
abbrev DISC_PRECHARGE : Nat := 198144
/-- SRC_COUNT.DROPS, 0x0307.01 (R219). -/
abbrev SRC_COUNT_DROPS : Nat := 198401
/-- SRC_COUNT.DUMPS, 0x0307.02 (R219). -/
abbrev SRC_COUNT_DUMPS : Nat := 198402
/-- SRC_COUNT.OVER_RAIL, 0x0307.03 (R219). -/
abbrev SRC_COUNT_OVER_RAIL : Nat := 198403
/-- SRC_COUNT.RT_LONGEST, 0x0307.04 (R219). -/
abbrev SRC_COUNT_RT_LONGEST : Nat := 198404
/-- RAIL_ALLOC_TAU, 0x0308 (R219). -/
abbrev RAIL_ALLOC_TAU : Nat := 198656
/-- ENV_CFG, 0x0380 (R257). -/
abbrev ENV_CFG : Nat := 229376
/-- GRANT_NOW.TOTAL, 0x0381.01 (R257). -/
abbrev GRANT_NOW_TOTAL : Nat := 229633
/-- GRANT_NOW.DUR, 0x0381.02 (R257). -/
abbrev GRANT_NOW_DUR : Nat := 229634
/-- GRANT_NOW.STATUS, 0x0381.03 (R257). -/
abbrev GRANT_NOW_STATUS : Nat := 229635
/-- GRANT_TERMS, 0x0382.01 to .06 (R257). -/
abbrev GRANT_TERMS (sub : Nat) : Nat := 229888 + sub
/-- GRANT_CONT, 0x0383 (R257). -/
abbrev GRANT_CONT : Nat := 230144
/-- GRANT_PEAK, 0x0384 (R257). -/
abbrev GRANT_PEAK : Nat := 230400
/-- FF_GAIN, 0x0385 (R257). -/
abbrev FF_GAIN : Nat := 230656
/-- FF_LEAD, 0x0386 (R257). -/
abbrev FF_LEAD : Nat := 230912
/-- ENV_STATE, 0x0387 (R257). -/
abbrev ENV_STATE : Nat := 231168
/-- DEMAND_NOW.DUE, 0x0388.01 (R257). -/
abbrev DEMAND_NOW_DUE : Nat := 231425
/-- DEMAND_NOW.PEAK, 0x0388.02 (R257). -/
abbrev DEMAND_NOW_PEAK : Nat := 231426
/-- DEMAND_NOW.LOOK, 0x0388.03 (R257). -/
abbrev DEMAND_NOW_LOOK : Nat := 231427
/-- ENV_STATS.GOOD, 0x0389.01 (R257). -/
abbrev ENV_STATS_GOOD : Nat := 231681
/-- ENV_STATS.BAD, 0x0389.02 (R257). -/
abbrev ENV_STATS_BAD : Nat := 231682
/-- ENV_STATS.GAPS, 0x0389.03 (R257). -/
abbrev ENV_STATS_GAPS : Nat := 231683
/-- ENV_STATS.LOSSES, 0x0389.04 (R257). -/
abbrev ENV_STATS_LOSSES : Nat := 231684
/-- ENV_STATS.OVER, 0x0389.05 (R257). -/
abbrev ENV_STATS_OVER : Nat := 231685
/-- ENV_STATS.BROKEN, 0x0389.06 (R257). -/
abbrev ENV_STATS_BROKEN : Nat := 231686
/-- ENV_STATS.LATE, 0x0389.07 (R257). -/
abbrev ENV_STATS_LATE : Nat := 231687
/-- ENV_STATS.MAX_DEM, 0x0389.08 (R257). -/
abbrev ENV_STATS_MAX_DEM : Nat := 231688
/-- ENV_EFF, 0x038A.01 to .03 (R257). -/
abbrev ENV_EFF (sub : Nat) : Nat := 231936 + sub
/-- RT_RESERVE, 0x038B (R257). -/
abbrev RT_RESERVE : Nat := 232192
/-- CHG_STATE, 0x0400 (R302). -/
abbrev CHG_STATE : Nat := 262144
/-- CHG_STEP, 0x0401 (R302). -/
abbrev CHG_STEP : Nat := 262400
/-- CHG_ENABLE, 0x0402 (R302). -/
abbrev CHG_ENABLE : Nat := 262656
/-- CHG_TARGET, 0x0403 (R302). -/
abbrev CHG_TARGET : Nat := 262912
/-- CHG_CAUSE, 0x0404 (R302). -/
abbrev CHG_CAUSE : Nat := 263168
/-- CHG_I_CMD, 0x0405 (R302). -/
abbrev CHG_I_CMD : Nat := 263424
/-- SAFETY.PROGRESS, 0x0406.01 (R302). -/
abbrev SAFETY_PROGRESS : Nat := 263681
/-- SAFETY.WALL, 0x0406.02 (R302). -/
abbrev SAFETY_WALL : Nat := 263682
/-- SAFETY.NOMINAL, 0x0406.03 (R302). -/
abbrev SAFETY_NOMINAL : Nat := 263683
/-- CHG_QUIET, 0x0407 (R302). -/
abbrev CHG_QUIET : Nat := 263936
/-- CHG_SERVICE, 0x0408 (R302). -/
abbrev CHG_SERVICE : Nat := 264192
/-- PACK_CELLS, 0x0410 (R302). -/
abbrev PACK_CELLS : Nat := 266240
/-- PACK_STATE, 0x0411 (R302). -/
abbrev PACK_STATE : Nat := 266496
/-- PACK_ZONE, 0x0412 (R302). -/
abbrev PACK_ZONE : Nat := 266752
/-- PACK_TEMP, 0x0413 (R302). -/
abbrev PACK_TEMP : Nat := 267008
/-- PNTC_T, 0x0414.01 to .04 (R302). -/
abbrev PNTC_T (sub : Nat) : Nat := 267264 + sub
/-- PACK_SOC, 0x0415 (R302). -/
abbrev PACK_SOC : Nat := 267520
/-- PACK_ENERGY, 0x0416 (R302). -/
abbrev PACK_ENERGY : Nat := 267776
/-- PACK_RDC, 0x0417 (R302). -/
abbrev PACK_RDC : Nat := 268032
/-- PACK_Q, 0x0418 (R302). -/
abbrev PACK_Q : Nat := 268288
/-- PACK_VSUM, 0x0419 (R302). -/
abbrev PACK_VSUM : Nat := 268544
/-- SOC_CONF, 0x041A (R302). -/
abbrev SOC_CONF : Nat := 268800
/-- CHG_FAULTS, 0x0440 (R302). -/
abbrev CHG_FAULTS : Nat := 278528
/-- CELL_V, 0x0450.01 to .10 (R302). -/
abbrev CELL_V (sub : Nat) : Nat := 282624 + sub
/-- CELL_STATS.V_MAX, 0x0451.01 (R302). -/
abbrev CELL_STATS_V_MAX : Nat := 282881
/-- CELL_STATS.V_MIN, 0x0451.02 (R302). -/
abbrev CELL_STATS_V_MIN : Nat := 282882
/-- CELL_STATS.K_MAX, 0x0451.03 (R302). -/
abbrev CELL_STATS_K_MAX : Nat := 282883
/-- CELL_STATS.K_MIN, 0x0451.04 (R302). -/
abbrev CELL_STATS_K_MIN : Nat := 282884
/-- BAL_STATE, 0x0460 (R302). -/
abbrev BAL_STATE : Nat := 286720
/-- BAL_ENABLE, 0x0461 (R302). -/
abbrev BAL_ENABLE : Nat := 286976
/-- BAL_MAX, 0x0462 (R302). -/
abbrev BAL_MAX : Nat := 287232
/-- LINK_STATE, 0x0500.01 to .02 (R349). -/
abbrev LINK_STATE (sub : Nat) : Nat := 327680 + sub
/-- LINK_ROLE, 0x0501.01 to .02 (R349). -/
abbrev LINK_ROLE (sub : Nat) : Nat := 327936 + sub
/-- LINK_EN, 0x0502.01 to .02 (R349). -/
abbrev LINK_EN (sub : Nat) : Nat := 328192 + sub
/-- LINK_CTRL, 0x0503.01 to .02 (R349). -/
abbrev LINK_CTRL (sub : Nat) : Nat := 328448 + sub
/-- LINK_SLEW, 0x0504 (R349). -/
abbrev LINK_SLEW : Nat := 328704
/-- LINK_TARGET, 0x0506.01 to .02 (R349). -/
abbrev LINK_TARGET (sub : Nat) : Nat := 329216 + sub
/-- LINK_PEER, 0x0507.01 to .02 (R349). -/
abbrev LINK_PEER (sub : Nat) : Nat := 329472 + sub
/-- CONTRACT_E, 0x0510 (R349). -/
abbrev CONTRACT_E : Nat := 331776
/-- CONTRACT_W, 0x0511 (R349). -/
abbrev CONTRACT_W : Nat := 332032
/-- LINK_LEAK, 0x0520.01 to .02 (R349). -/
abbrev LINK_LEAK (sub : Nat) : Nat := 335872 + sub
/-- LINK_MOIST, 0x0521.01 to .02 (R349). -/
abbrev LINK_MOIST (sub : Nat) : Nat := 336128 + sub
/-- LINK_SUSC, 0x0522.01 to .02 (R349). -/
abbrev LINK_SUSC (sub : Nat) : Nat := 336384 + sub
/-- LINK_LEAK_MAX, 0x0523.01 to .02 (R349). -/
abbrev LINK_LEAK_MAX (sub : Nat) : Nat := 336640 + sub
/-- LINK_STATS_E, 0x0530.01 to .06 (R349). -/
abbrev LINK_STATS_E (sub : Nat) : Nat := 339968 + sub
/-- LINK_STATS_W, 0x0531.01 to .06 (R349). -/
abbrev LINK_STATS_W (sub : Nat) : Nat := 340224 + sub
/-- NODE_ID, 0x0A00 (R392). -/
abbrev NODE_ID : Nat := 655360
/-- NODE_ID_SET, 0x0A01 (R392). -/
abbrev NODE_ID_SET : Nat := 655616
/-- FAB_STATE, 0x0A02 (R392). -/
abbrev FAB_STATE : Nat := 655872
/-- ZENITH.ID, 0x0A03.01 (R392). -/
abbrev ZENITH_ID : Nat := 656129
/-- ZENITH.UID, 0x0A03.02 (R392). -/
abbrev ZENITH_UID : Nat := 656130
/-- ZENITH.HOPS, 0x0A03.03 (R392). -/
abbrev ZENITH_HOPS : Nat := 656131
/-- ZENITH.ROOT, 0x0A03.04 (R392). -/
abbrev ZENITH_ROOT : Nat := 656132
/-- NODE_COUNT, 0x0A04 (R392). -/
abbrev NODE_COUNT : Nat := 656384
/-- TOPOLOGY, 0x0A05 (R392). -/
abbrev TOPOLOGY : Nat := 656640
/-- ASSIGN_GEN, 0x0A06 (R392). -/
abbrev ASSIGN_GEN : Nat := 656896
/-- FAB_BOOT_SRV, 0x0A07 (R392). -/
abbrev FAB_BOOT_SRV : Nat := 657152
/-- ZENITH_EN, 0x0A08 (R392). -/
abbrev ZENITH_EN : Nat := 657408
/-- NOTIFY_PERIOD, 0x0A09 (R392). -/
abbrev NOTIFY_PERIOD : Nat := 657664
/-- PORT_STATE, 0x0A10.01 to .02 (R392). -/
abbrev PORT_STATE (sub : Nat) : Nat := 659456 + sub
/-- PORT_DELAY, 0x0A11.01 to .02 (R392). -/
abbrev PORT_DELAY (sub : Nat) : Nat := 659712 + sub
/-- PORT_NBR, 0x0A12.01 to .02 (R392). -/
abbrev PORT_NBR (sub : Nat) : Nat := 659968 + sub
/-- ROUTE, 0x0A20.01 to .FE (R392). -/
abbrev ROUTE (sub : Nat) : Nat := 663552 + sub
/-- TIMEBASE.STATE, 0x0A30.01 (R392). -/
abbrev TIMEBASE_STATE : Nat := 667649
/-- TIMEBASE.COUNT, 0x0A30.02 (R392). -/
abbrev TIMEBASE_COUNT : Nat := 667650
/-- TIMEBASE.OFS, 0x0A30.03 (R392). -/
abbrev TIMEBASE_OFS : Nat := 667651
/-- TIMEBASE.ERR, 0x0A30.04 (R392). -/
abbrev TIMEBASE_ERR : Nat := 667652
/-- FAB_STATS, 0x0A40.01 to .08 (R392). -/
abbrev FAB_STATS (sub : Nat) : Nat := 671744 + sub
/-- SCAN_MASK, 0x0600.00 to .03 (R437). -/
abbrev SCAN_MASK (sub : Nat) : Nat := 393216 + sub
/-- SCAN_EFFECTIVE, 0x0601.00 to .03 (R437). -/
abbrev SCAN_EFFECTIVE (sub : Nat) : Nat := 393472 + sub
/-- SCAN_INT, 0x0602.00 to .03 (R437). -/
abbrev SCAN_INT (sub : Nat) : Nat := 393728 + sub
/-- PARK_SCAN, 0x0603 (R437). -/
abbrev PARK_SCAN : Nat := 393984
/-- SCAN_TIME, 0x0604.00 to .03 (R437). -/
abbrev SCAN_TIME (sub : Nat) : Nat := 394240 + sub
/-- SCAN_PERIOD, 0x0605 (R437). -/
abbrev SCAN_PERIOD : Nat := 394496
/-- SCAN_COUNT, 0x0606 (R437). -/
abbrev SCAN_COUNT : Nat := 394752
/-- SCAN_STATE, 0x0607 (R437). -/
abbrev SCAN_STATE : Nat := 395008
/-- RESULTS, 0x0620.00 to .3F (R437). -/
abbrev RESULTS (sub : Nat) : Nat := 401408 + sub
/-- SELFCAL_CMD, 0x0650 (R437). -/
abbrev SELFCAL_CMD : Nat := 413696
/-- CAL_STATE, 0x0651 (R437). -/
abbrev CAL_STATE : Nat := 413952
/-- CAL_OFS, 0x0652.00 to .3F (R437). -/
abbrev CAL_OFS (sub : Nat) : Nat := 414208 + sub
/-- CAL_GAIN, 0x0653.00 to .3F (R437). -/
abbrev CAL_GAIN (sub : Nat) : Nat := 414464 + sub
/-- CAL_TEMP, 0x0654 (R437). -/
abbrev CAL_TEMP : Nat := 414720
/-- RAIL_SHUNT, 0x0655 (R437). -/
abbrev RAIL_SHUNT : Nat := 414976
/-- REC_CFG, 0x0E00 (R438). -/
abbrev REC_CFG : Nat := 917504
/-- REC_STATE, 0x0E01 (R438). -/
abbrev REC_STATE : Nat := 917760
/-- REC_TRIGGER, 0x0E02 (R438). -/
abbrev REC_TRIGGER : Nat := 918016
/-- REC_COUNT, 0x0E03 (R438). -/
abbrev REC_COUNT : Nat := 918272
/-- REC_TOTAL, 0x0E04 (R438). -/
abbrev REC_TOTAL : Nat := 918528
/-- REC_SUPPRESSED_CNT, 0x0E05 (R438). -/
abbrev REC_SUPPRESSED_CNT : Nat := 918784
/-- REC_MAX_HOUR, 0x0E06 (R438). -/
abbrev REC_MAX_HOUR : Nat := 919040
/-- REC_SELECT, 0x0E08 (R438). -/
abbrev REC_SELECT : Nat := 919552
/-- REC_DATA, 0x0E09 (R438). -/
abbrev REC_DATA : Nat := 919808
/-- REC_KEEP, 0x0E0A (R438). -/
abbrev REC_KEEP : Nat := 920064
/-- TEMP_MAX, 0x0700 (R463). -/
abbrev TEMP_MAX : Nat := 458752
/-- TD_T, 0x0701.01 to .08 (R463). -/
abbrev TD_T (sub : Nat) : Nat := 459008 + sub
/-- TD_VALID, 0x0702 (R463). -/
abbrev TD_VALID : Nat := 459264
/-- DIE_BAND, 0x0703 (R463). -/
abbrev DIE_BAND : Nat := 459520
/-- STAGE_T, 0x0704.01 to .04 (R463). -/
abbrev STAGE_T (sub : Nat) : Nat := 459776 + sub
/-- THROTTLE, 0x0705.01 to .04 (R463). -/
abbrev THROTTLE (sub : Nat) : Nat := 460032 + sub
/-- SHELL_CLK, 0x0706 (R463). -/
abbrev SHELL_CLK : Nat := 460288
/-- D_THERM, 0x0707.01 to .04 (R463). -/
abbrev D_THERM (sub : Nat) : Nat := 460544 + sub
/-- STAGE_NTC.R25, 0x0708.01 (R463). -/
abbrev STAGE_NTC_R25 : Nat := 460801
/-- STAGE_NTC.BETA, 0x0708.02 (R463). -/
abbrev STAGE_NTC_BETA : Nat := 460802
/-- TSD_STATE, 0x0709 (R463). -/
abbrev TSD_STATE : Nat := 461056
/-- TSD_COUNT, 0x070A (R463). -/
abbrev TSD_COUNT : Nat := 461312
/-- HZ_STATE, 0x0900 (R498). -/
abbrev HZ_STATE : Nat := 589824
/-- HZ_OP_TIME, 0x0901 (R498). -/
abbrev HZ_OP_TIME : Nat := 590080
/-- HZ_EPOCH.COUNT, 0x0902.01 (R498). -/
abbrev HZ_EPOCH_COUNT : Nat := 590337
/-- HZ_EPOCH.LAST, 0x0902.02 (R498). -/
abbrev HZ_EPOCH_LAST : Nat := 590338
/-- HZ_EPOCH.RESULT, 0x0902.03 (R498). -/
abbrev HZ_EPOCH_RESULT : Nat := 590339
/-- HZ_EPOCH_CMD, 0x0903 (R498). -/
abbrev HZ_EPOCH_CMD : Nat := 590592
/-- HZ_REBASE, 0x0904 (R498). -/
abbrev HZ_REBASE : Nat := 590848
/-- HZ_BASE, 0x0905 (R498). -/
abbrev HZ_BASE : Nat := 591104
/-- HZ_MARGIN, 0x0910.01 to .0A (R498). -/
abbrev HZ_MARGIN (sub : Nat) : Nat := 593920 + sub
/-- HZ_WORST, 0x0911.01 to .0A (R498). -/
abbrev HZ_WORST (sub : Nat) : Nat := 594176 + sub
/-- HZ_PHASE_DRIFT, 0x0920.00 to .0F (R498). -/
abbrev HZ_PHASE_DRIFT (sub : Nat) : Nat := 598016 + sub
/-- HZ_PATH_R, 0x0921.00 to .0F (R498). -/
abbrev HZ_PATH_R (sub : Nat) : Nat := 598272 + sub
/-- HZ_RAIL_C, 0x0922 (R498). -/
abbrev HZ_RAIL_C : Nat := 598528
/-- HZ_RAIL_ESR, 0x0923 (R498). -/
abbrev HZ_RAIL_ESR : Nat := 598784
/-- HZ_ZTH, 0x0924.01 to .04 (R498). -/
abbrev HZ_ZTH (sub : Nat) : Nat := 599040 + sub
/-- HZ_REF_DRIFT, 0x0925 (R498). -/
abbrev HZ_REF_DRIFT : Nat := 599296
/-- HZ_SPEED_RATIO, 0x0926 (R498). -/
abbrev HZ_SPEED_RATIO : Nat := 599552
/-- HZ_LEAK_MEAN, 0x0927.01 to .02 (R498). -/
abbrev HZ_LEAK_MEAN (sub : Nat) : Nat := 599808 + sub
/-- HZ_LEAK_ETA, 0x0928.01 to .02 (R498). -/
abbrev HZ_LEAK_ETA (sub : Nat) : Nat := 600064 + sub
/-- DER_NOW, 0x0930.01 to .09 (R498). -/
abbrev DER_NOW (sub : Nat) : Nat := 602112 + sub
/-- FREQ_CEIL, 0x0931 (R498). -/
abbrev FREQ_CEIL : Nat := 602368
/-- HZ_LOG_SEL, 0x0940 (R498). -/
abbrev HZ_LOG_SEL : Nat := 606208
/-- HZ_LOG, 0x0941 (R498). -/
abbrev HZ_LOG : Nat := 606464
/-- HZ_LOG_COUNT, 0x0942 (R498). -/
abbrev HZ_LOG_COUNT : Nat := 606720
/-- FAULT_SUMMARY, 0x0800 (R535). -/
abbrev FAULT_SUMMARY : Nat := 524288
/-- FAULT_RECORD, 0x0801.01 to .40 (R535). -/
abbrev FAULT_RECORD (sub : Nat) : Nat := 524544 + sub
/-- FAULT_ACK, 0x0802 (R535). -/
abbrev FAULT_ACK : Nat := 524800
/-- FAULT_COUNT, 0x0803 (R535). -/
abbrev FAULT_COUNT : Nat := 525056
/-- FAULT_CLASS_COUNT, 0x0804.01 to .05 (R535). -/
abbrev FAULT_CLASS_COUNT (sub : Nat) : Nat := 525312 + sub
/-- FAULT_LAST, 0x0805 (R535). -/
abbrev FAULT_LAST : Nat := 525568
/-- FAULT_INJECT, 0x0806 (R535). -/
abbrev FAULT_INJECT : Nat := 525824
/-- CHIPRST_HOLDOFF, 0x0807 (R535). -/
abbrev CHIPRST_HOLDOFF : Nat := 526080
/-- FAULT_LOST, 0x0808 (R535). -/
abbrev FAULT_LOST : Nat := 526336
/-- HALO_CFG, 0x0810 (R535). -/
abbrev HALO_CFG : Nat := 528384
/-- HALO_STATE, 0x0811 (R535). -/
abbrev HALO_STATE : Nat := 528640
/-- RESET_CAUSE, 0x0010 (R560). -/
abbrev RESET_CAUSE : Nat := 4096
/-- STRAPS, 0x0011 (R560). -/
abbrev STRAPS : Nat := 4352
/-- RESET_COUNT, 0x0012.01 to .04 (R560). -/
abbrev RESET_COUNT (sub : Nat) : Nat := 4608 + sub
/-- RESET_LOW_TIME, 0x0013 (R560). -/
abbrev RESET_LOW_TIME : Nat := 4864
/-- CLK_STATE, 0x0014 (R560). -/
abbrev CLK_STATE : Nat := 5120
/-- VAUX_STATE, 0x0015 (R560). -/
abbrev VAUX_STATE : Nat := 5376
/-- VAUX_MIN, 0x0016 (R560). -/
abbrev VAUX_MIN : Nat := 5632
/-- VAUX_WARN_COUNT, 0x0017 (R560). -/
abbrev VAUX_WARN_COUNT : Nat := 5888
/-- WD_STATE, 0x0840 (R578). -/
abbrev WD_STATE : Nat := 540672
/-- WD_CHECKIN, 0x0841 (R578). -/
abbrev WD_CHECKIN : Nat := 540928
/-- WD_TOKEN, 0x0842 (R578). -/
abbrev WD_TOKEN : Nat := 541184
/-- WD_PERIOD, 0x0843 (R578). -/
abbrev WD_PERIOD : Nat := 541440
/-- WD_OPEN, 0x0844.01 to .10 (R578). -/
abbrev WD_OPEN (sub : Nat) : Nat := 541696 + sub
/-- WD_CLOSE, 0x0845.01 to .10 (R578). -/
abbrev WD_CLOSE (sub : Nat) : Nat := 541952 + sub
/-- WD_ENABLE, 0x0846 (R578). -/
abbrev WD_ENABLE : Nat := 542208
/-- WD_OWNER, 0x0847.01 to .07 (R578). -/
abbrev WD_OWNER (sub : Nat) : Nat := 542464 + sub
/-- WD_FAILOVER_W, 0x0848 (R578). -/
abbrev WD_FAILOVER_W : Nat := 542720
/-- WD_LAST.KIND, 0x0849.01 (R578). -/
abbrev WD_LAST_KIND : Nat := 542977
/-- WD_LAST.ID, 0x0849.02 (R578). -/
abbrev WD_LAST_ID : Nat := 542978
/-- WD_LAST.TICK, 0x0849.03 (R578). -/
abbrev WD_LAST_TICK : Nat := 542979
/-- WD_LAST.TOKEN, 0x0849.04 (R578). -/
abbrev WD_LAST_TOKEN : Nat := 542980
/-- WD_EXPIRY_COUNT, 0x084A (R578). -/
abbrev WD_EXPIRY_COUNT : Nat := 543232
/-- WD_SEEN, 0x084B (R578). -/
abbrev WD_SEEN : Nat := 543488
/-- DEVICE_ID, 0x0000 (R586). -/
abbrev DEVICE_ID : Nat := 0
/-- VARIANT, 0x0001 (R586). -/
abbrev VARIANT : Nat := 256
/-- UNIQUE_ID, 0x0002 (R586). -/
abbrev UNIQUE_ID : Nat := 512
/-- SILICON_STEP, 0x0003 (R586). -/
abbrev SILICON_STEP : Nat := 768
/-- ROM_VERSION, 0x0004 (R586). -/
abbrev ROM_VERSION : Nat := 1024
/-- OD_LOCK, 0x0020.01 to .10 (R616). -/
abbrev OD_LOCK (sub : Nat) : Nat := 8192 + sub
/-- OD_LOCK_LEASE, 0x0021 (R616). -/
abbrev OD_LOCK_LEASE : Nat := 8448
/-- OD_JOURNAL, 0x0022 (R616). -/
abbrev OD_JOURNAL : Nat := 8704
/-- OD_COMMIT, 0x0023 (R616). -/
abbrev OD_COMMIT : Nat := 8960
/-- OD_COMMIT_DELAY, 0x0024 (R616). -/
abbrev OD_COMMIT_DELAY : Nat := 9216
/-- OD_RESTORE, 0x0025 (R616). -/
abbrev OD_RESTORE : Nat := 9472
/-- OD_STATS.REQUESTS, 0x0026.01 (R616). -/
abbrev OD_STATS_REQUESTS : Nat := 9729
/-- OD_STATS.ERRORS, 0x0026.02 (R616). -/
abbrev OD_STATS_ERRORS : Nat := 9730
/-- OD_STATS.LOCKED, 0x0026.03 (R616). -/
abbrev OD_STATS_LOCKED : Nat := 9731
/-- OD_STATS.RESTORE_REFUSED, 0x0026.04 (R616). -/
abbrev OD_STATS_RESTORE_REFUSED : Nat := 9732
/-- OD_STATS.COMMITS, 0x0026.05 (R616). -/
abbrev OD_STATS_COMMITS : Nat := 9733
/-- OD_LAST_ERROR, 0x0027 (R616). -/
abbrev OD_LAST_ERROR : Nat := 9984
/-- CAN_NOM_RATE, 0x0B40.01 to .02 (R624). -/
abbrev CAN_NOM_RATE (sub : Nat) : Nat := 737280 + sub
/-- CAN_DATA_RATE, 0x0B41.01 to .02 (R624). -/
abbrev CAN_DATA_RATE (sub : Nat) : Nat := 737536 + sub
/-- CAN_SP_NOM, 0x0B42.01 to .02 (R624). -/
abbrev CAN_SP_NOM (sub : Nat) : Nat := 737792 + sub
/-- CAN_SP_DATA, 0x0B43.01 to .02 (R624). -/
abbrev CAN_SP_DATA (sub : Nat) : Nat := 738048 + sub
/-- CAN_ID.HOST_REQ, 0x0B44.01 (R624). -/
abbrev CAN_ID_HOST_REQ : Nat := 738305
/-- CAN_ID.HOST_RSP, 0x0B44.02 (R624). -/
abbrev CAN_ID_HOST_RSP : Nat := 738306
/-- CAN_ID.NOTIFY, 0x0B44.03 (R624). -/
abbrev CAN_ID_NOTIFY : Nat := 738307
/-- CAN_ID.TEST_REQ, 0x0B44.04 (R624). -/
abbrev CAN_ID_TEST_REQ : Nat := 738308
/-- CAN_ID.TEST_RSP, 0x0B44.05 (R624). -/
abbrev CAN_ID_TEST_RSP : Nat := 738309
/-- CAN_NOTIFY_PERIOD, 0x0B45 (R624). -/
abbrev CAN_NOTIFY_PERIOD : Nat := 738560
/-- CAN_APPLY, 0x0B46 (R624). -/
abbrev CAN_APPLY : Nat := 738816
/-- CAN_STATE, 0x0B47.01 to .02 (R624). -/
abbrev CAN_STATE (sub : Nat) : Nat := 739072 + sub
/-- CAN_ERR, 0x0B48.01 to .02 (R624). -/
abbrev CAN_ERR (sub : Nat) : Nat := 739328 + sub
/-- CAN_STATS, 0x0B49.01 to .06 (R624). -/
abbrev CAN_STATS (sub : Nat) : Nat := 739584 + sub
/-- LIN_CFG, 0x0B60 (R644). -/
abbrev LIN_CFG : Nat := 745472
/-- LIN_NAD, 0x0B61 (R644). -/
abbrev LIN_NAD : Nat := 745728
/-- LIN_PID, 0x0B62.01 to .04 (R644). -/
abbrev LIN_PID (sub : Nat) : Nat := 745984 + sub
/-- LIN_STATE, 0x0B63 (R644). -/
abbrev LIN_STATE : Nat := 746240
/-- LIN_STATS, 0x0B64.01 to .05 (R644). -/
abbrev LIN_STATS (sub : Nat) : Nat := 746496 + sub
/-- DIAG_SESSION, 0x0B00 (R674). -/
abbrev DIAG_SESSION : Nat := 720896
/-- DIAG_SECURITY, 0x0B01 (R674). -/
abbrev DIAG_SECURITY : Nat := 721152
/-- DIAG_ID.PHYS_REQ, 0x0B02.01 (R674). -/
abbrev DIAG_ID_PHYS_REQ : Nat := 721409
/-- DIAG_ID.FUNC_REQ, 0x0B02.02 (R674). -/
abbrev DIAG_ID_FUNC_REQ : Nat := 721410
/-- DIAG_ID.RSP, 0x0B02.03 (R674). -/
abbrev DIAG_ID_RSP : Nat := 721411
/-- DIAG_TP, 0x0B03 (R674). -/
abbrev DIAG_TP : Nat := 721664
/-- SEC_ATTEMPTS, 0x0B04 (R674). -/
abbrev SEC_ATTEMPTS : Nat := 721920
/-- SEC_DELAY, 0x0B05 (R674). -/
abbrev SEC_DELAY : Nat := 722176
/-- DIAG_DOMAIN_OFS, 0x0B06 (R674). -/
abbrev DIAG_DOMAIN_OFS : Nat := 722432
/-- DTC_STATE, 0x0B07 (R674). -/
abbrev DTC_STATE : Nat := 722688
/-- DTC_COUNT, 0x0B08 (R674). -/
abbrev DTC_COUNT : Nat := 722944
/-- DTC_SETTING, 0x0B09 (R674). -/
abbrev DTC_SETTING : Nat := 723200
/-- DTC_LAPSE, 0x0B0A (R674). -/
abbrev DTC_LAPSE : Nat := 723456
/-- DTC_TABLE, 0x0B0B (R674). -/
abbrev DTC_TABLE : Nat := 723712
/-- DTC_CLEAR, 0x0B0C (R674). -/
abbrev DTC_CLEAR : Nat := 723968
/-- DOWNLOAD_STATE, 0x0B0D (R674). -/
abbrev DOWNLOAD_STATE : Nat := 724224
/-- TABLE_ACTIVE, 0x0C00 (R703). -/
abbrev TABLE_ACTIVE : Nat := 786432
/-- TABLE_SWITCH, 0x0C01 (R703). -/
abbrev TABLE_SWITCH : Nat := 786688
/-- TABLE_LOAD, 0x0C02 (R703). -/
abbrev TABLE_LOAD : Nat := 786944
/-- TABLE_AUTH, 0x0C03 (R703). -/
abbrev TABLE_AUTH : Nat := 787200
/-- BANK_GEN, 0x0C04.01 to .02 (R703). -/
abbrev BANK_GEN (sub : Nat) : Nat := 787456 + sub
/-- TABLE_LAST_REFUSAL, 0x0C05 (R703). -/
abbrev TABLE_LAST_REFUSAL : Nat := 787712
/-- TABLE_ID_ACTIVE, 0x0C10.01 to .0A (R703). -/
abbrev TABLE_ID_ACTIVE (sub : Nat) : Nat := 790528 + sub
/-- TABLE_ID_INACTIVE, 0x0C11.01 to .0A (R703). -/
abbrev TABLE_ID_INACTIVE (sub : Nat) : Nat := 790784 + sub
/-- SEQ_STATE, 0x0C20.00 to .04 (R703). -/
abbrev SEQ_STATE (sub : Nat) : Nat := 794624 + sub
/-- SEQ_MODE, 0x0C21.00 to .04 (R703). -/
abbrev SEQ_MODE (sub : Nat) : Nat := 794880 + sub
/-- TRAP_RELEASE, 0x0C22 (R703). -/
abbrev TRAP_RELEASE : Nat := 795136
/-- SEQ_STATE_TIME, 0x0C23.00 to .04 (R703). -/
abbrev SEQ_STATE_TIME (sub : Nat) : Nat := 795392 + sub
/-- OTP_STATE, 0x0D00.01 to .05 (R731). -/
abbrev OTP_STATE (sub : Nat) : Nat := 851968 + sub
/-- OTP_ORDERED, 0x0D01 (R731). -/
abbrev OTP_ORDERED : Nat := 852224
/-- OTP_TRACE, 0x0D02 (R731). -/
abbrev OTP_TRACE : Nat := 852480
/-- OTP_CEIL, 0x0D10.01 to .07 (R731). -/
abbrev OTP_CEIL (sub : Nat) : Nat := 856064 + sub
/-- SEC_POLICY, 0x0D20 (R731). -/
abbrev SEC_POLICY : Nat := 860160
/-- SEC_KEY_HASH, 0x0D21 (R731). -/
abbrev SEC_KEY_HASH : Nat := 860416
/-- TRIM_DATA, 0x0D30 (R731). -/
abbrev TRIM_DATA : Nat := 864256
/-- CUST_DATA, 0x0D41 (R731). -/
abbrev CUST_DATA : Nat := 868608
/-- OTP_PROG, 0x0D50 (R731). -/
abbrev OTP_PROG : Nat := 872448
/-- OTP_LOCK, 0x0D51 (R731). -/
abbrev OTP_LOCK : Nat := 872704
/-- OTP_PROG_STATE, 0x0D52 (R731). -/
abbrev OTP_PROG_STATE : Nat := 872960
/-- FLASH_STATE, 0x0E80 (R731). -/
abbrev FLASH_STATE : Nat := 950272
/-- FLASH_SIZE, 0x0E81 (R731). -/
abbrev FLASH_SIZE : Nat := 950528
/-- FLASH_ENDURANCE, 0x0E82 (R731). -/
abbrev FLASH_ENDURANCE : Nat := 950784
/-- FLASH_WEAR, 0x0E83.01 to .05 (R731). -/
abbrev FLASH_WEAR (sub : Nat) : Nat := 951040 + sub
/-- FLASH_RETIRED, 0x0E84 (R731). -/
abbrev FLASH_RETIRED : Nat := 951296
/-- SCRUB_LAST, 0x0E85 (R731). -/
abbrev SCRUB_LAST : Nat := 951552
/-- ECC_COUNT, 0x0E90.01 to .02 (R731). -/
abbrev ECC_COUNT (sub : Nat) : Nat := 954368 + sub
/-- FREQ_BAND, 0x0230.01 to .10 (R173). -/
abbrev FREQ_BAND (sub : Nat) : Nat := 143360 + sub
/-- EDGE_NOW, 0x0250.01 to .04 (R183). -/
abbrev EDGE_NOW (sub : Nat) : Nat := 151552 + sub

end Sys2Proof.Obj
end

