-- ==== Sys2Proof/Machine/Dictionary.lean ====
section
/-!
DEFINITION. Dictionary.lean: the object tables of every chapter as rows (index, sub-indices, type, access, default,
persistence, static range, variants), and the questions asked of them: is a key present, what may a master do, what is its default.
-/
namespace Sys2Proof.Machine

/-- The object types of R587. -/
inductive ObjType where
  | bool | u8 | u16 | u32 | u64 | i16 | i32 | enum8 | bits16 | bits32 | str | domain
  deriving DecidableEq, Repr

/-- The access codes of R14. -/
inductive Access where
  | no | r | w | rw | rc
  deriving DecidableEq, Repr

/-- The Persist codes of R15: volatile, persisted, OTP shadow. -/
inductive Persist where
  | V | P | O
  deriving DecidableEq, Repr

/-- The variants that have an object. -/
inductive Presence where
  | abc | ab | a | c
  deriving DecidableEq, Repr

/-- One row of an object table: the sub-indices `first` to `last` of `index`. The default of sub-index `s` is
`dflt + step * (s - first)`. `lo` and `hi` are the static range of a write (R587, R763). -/
structure ObjRow where
  index : Nat
  first : Nat
  last : Nat
  scalar : Bool
  type : ObjType
  accH : Access
  accS : Access
  accT : Access
  accF : Access
  dflt : Nat
  step : Nat
  persist : Persist
  lo : Nat
  hi : Nat
  on : Presence
  deriving DecidableEq, Repr

/-- Objects of area 0x0000 (R584). -/
def Dict.rows0_0 : List ObjRow := [
  -- DEVICE_ID
  ⟨0x0000, 0, 0, true, .u32, .r, .r, .r, .r, 1347176544, 0, .V, 0, 4294967295, .abc⟩,
  -- VARIANT
  ⟨0x0001, 0, 0, true, .enum8, .r, .r, .r, .r, 3, 0, .O, 0, 255, .abc⟩,
  -- UNIQUE_ID
  ⟨0x0002, 0, 0, true, .u64, .r, .r, .r, .r, 0, 0, .O, 0, 18446744073709551615, .abc⟩,
  -- SILICON_STEP
  ⟨0x0003, 0, 0, true, .u8, .r, .r, .r, .r, 17, 0, .V, 0, 255, .abc⟩,
  -- ROM_VERSION
  ⟨0x0004, 0, 0, true, .u16, .r, .no, .r, .r, 258, 0, .V, 0, 65535, .abc⟩,
  -- RESET_CAUSE
  ⟨0x0010, 0, 0, true, .bits32, .r, .r, .r, .r, 515, 0, .V, 0, 4294967295, .abc⟩,
  -- STRAPS
  ⟨0x0011, 0, 0, true, .bits16, .r, .r, .r, .r, 0, 0, .V, 0, 65535, .abc⟩,
  -- RESET_COUNT
  ⟨0x0012, 1, 4, false, .u32, .r, .no, .r, .r, 0, 0, .P, 0, 4294967295, .abc⟩,
  -- RESET_LOW_TIME
  ⟨0x0013, 0, 0, true, .u32, .r, .no, .r, .r, 0, 0, .V, 0, 4294967295, .abc⟩,
  -- CLK_STATE
  ⟨0x0014, 0, 0, true, .enum8, .r, .r, .r, .r, 6, 0, .V, 0, 255, .abc⟩,
  -- VAUX_STATE
  ⟨0x0015, 0, 0, true, .enum8, .r, .r, .r, .r, 0, 0, .V, 0, 255, .abc⟩,
  -- VAUX_MIN
  ⟨0x0016, 0, 0, true, .u16, .r, .no, .r, .r, 65535, 0, .V, 0, 65535, .abc⟩,
  -- VAUX_WARN_COUNT
  ⟨0x0017, 0, 0, true, .u32, .r, .no, .r, .r, 0, 0, .P, 0, 4294967295, .abc⟩,
  -- OD_LOCK
  ⟨0x0020, 1, 16, false, .enum8, .rw, .r, .rw, .r, 0, 0, .V, 0, 255, .abc⟩,
  -- OD_LOCK_LEASE
  ⟨0x0021, 0, 0, true, .u16, .rw, .no, .rw, .no, 5000, 0, .P, 100, 60000, .abc⟩,
  -- OD_JOURNAL
  ⟨0x0022, 0, 0, true, .enum8, .r, .no, .r, .r, 0, 0, .V, 0, 255, .abc⟩,
  -- OD_COMMIT
  ⟨0x0023, 0, 0, true, .u8, .w, .no, .w, .no, 0, 0, .V, 1, 1, .abc⟩,
  -- OD_COMMIT_DELAY
  ⟨0x0024, 0, 0, true, .u16, .rw, .no, .rw, .no, 1000, 0, .P, 100, 60000, .abc⟩,
  -- OD_RESTORE
  ⟨0x0025, 0, 0, true, .u8, .no, .no, .w, .no, 0, 0, .V, 1, 1, .abc⟩,
  -- OD_STATS.REQUESTS
  ⟨0x0026, 1, 1, false, .u32, .r, .no, .r, .r, 0, 0, .V, 0, 4294967295, .abc⟩]

/-- Objects of area 0x0000 (R584). -/
def Dict.rows0_1 : List ObjRow := [
  -- OD_STATS.ERRORS
  ⟨0x0026, 2, 2, false, .u32, .r, .no, .r, .r, 0, 0, .V, 0, 4294967295, .abc⟩,
  -- OD_STATS.LOCKED
  ⟨0x0026, 3, 3, false, .u32, .r, .no, .r, .r, 0, 0, .V, 0, 4294967295, .abc⟩,
  -- OD_STATS.RESTORE_REFUSED
  ⟨0x0026, 4, 4, false, .u32, .r, .no, .r, .r, 0, 0, .V, 0, 4294967295, .abc⟩,
  -- OD_STATS.COMMITS
  ⟨0x0026, 5, 5, false, .u32, .r, .no, .r, .r, 0, 0, .P, 0, 4294967295, .abc⟩,
  -- OD_LAST_ERROR
  ⟨0x0027, 0, 0, true, .u32, .r, .no, .r, .r, 0, 0, .V, 0, 4294967295, .abc⟩]

/-- Objects of area 0x0100 (R584). -/
def Dict.rows1_0 : List ObjRow := [
  -- MODE_STATE
  ⟨0x0100, 0, 0, true, .enum8, .r, .r, .r, .r, 0, 0, .V, 0, 255, .abc⟩,
  -- MODE_REQ.H
  ⟨0x0101, 1, 1, false, .enum8, .rw, .r, .r, .r, 255, 0, .V, 0, 255, .abc⟩,
  -- MODE_REQ.S
  ⟨0x0101, 2, 2, false, .enum8, .r, .rw, .r, .r, 255, 0, .V, 0, 255, .abc⟩,
  -- MODE_REQ.T
  ⟨0x0101, 3, 3, false, .enum8, .r, .r, .rw, .r, 255, 0, .V, 0, 255, .abc⟩,
  -- MODE_REQ.F
  ⟨0x0101, 4, 4, false, .enum8, .r, .r, .r, .rw, 255, 0, .V, 0, 255, .abc⟩,
  -- MODE_TARGET
  ⟨0x0102, 0, 0, true, .enum8, .r, .r, .r, .r, 255, 0, .V, 0, 255, .abc⟩,
  -- MODE_CAUSE
  ⟨0x0103, 0, 0, true, .u8, .r, .r, .r, .r, 0, 0, .V, 0, 255, .abc⟩,
  -- MODE_PREV
  ⟨0x0104, 0, 0, true, .enum8, .r, .r, .r, .r, 0, 0, .V, 0, 255, .abc⟩,
  -- BRINGUP_STEP
  ⟨0x0105, 0, 0, true, .u8, .r, .r, .r, .r, 0, 0, .V, 0, 255, .abc⟩,
  -- MODE_LEASE.H
  ⟨0x0106, 1, 1, false, .u16, .rw, .no, .rw, .no, 5000, 0, .P, 0, 65535, .abc⟩,
  -- MODE_LEASE.F
  ⟨0x0106, 2, 2, false, .u16, .rw, .no, .rw, .r, 5000, 0, .P, 0, 65535, .abc⟩,
  -- IDLE_PARK_DELAY
  ⟨0x0107, 0, 0, true, .u16, .rw, .no, .rw, .r, 300, 0, .P, 0, 65535, .abc⟩,
  -- WAKE_HOLD
  ⟨0x0108, 0, 0, true, .u16, .rw, .no, .rw, .r, 5000, 0, .P, 0, 65535, .abc⟩,
  -- PARK_CHECK
  ⟨0x0109, 0, 0, true, .u16, .rw, .no, .rw, .r, 600, 0, .P, 60, 3600, .abc⟩,
  -- PLAY_AUTO
  ⟨0x010a, 0, 0, true, .bool, .rw, .no, .rw, .r, 0, 0, .P, 0, 1, .abc⟩,
  -- RAIL_RAMP
  ⟨0x010b, 0, 0, true, .u8, .rw, .no, .rw, .r, 10, 0, .P, 1, 50, .abc⟩,
  -- WAKE_CFG
  ⟨0x010c, 0, 0, true, .bits16, .rw, .r, .rw, .r, 15, 0, .P, 0, 65535, .abc⟩]

/-- Objects of area 0x0200 (R584). -/
def Dict.rows2_0 : List ObjRow := [
  -- GROUP_STATE
  ⟨0x0200, 1, 2, false, .bits16, .r, .r, .r, .r, 0, 0, .V, 0, 65535, .abc⟩,
  -- GROUP_STATE
  ⟨0x0200, 3, 4, false, .bits16, .r, .r, .r, .r, 0, 0, .V, 0, 65535, .a⟩,
  -- GROUP_NACT
  ⟨0x0201, 1, 2, false, .u8, .r, .no, .r, .r, 0, 0, .V, 0, 255, .abc⟩,
  -- GROUP_NACT
  ⟨0x0201, 3, 4, false, .u8, .r, .no, .r, .r, 0, 0, .V, 0, 255, .a⟩,
  -- GROUP_ADD_I
  ⟨0x0202, 1, 2, false, .u8, .rw, .no, .rw, .r, 10, 0, .P, 1, 30, .abc⟩,
  -- GROUP_ADD_I
  ⟨0x0202, 3, 4, false, .u8, .rw, .no, .rw, .r, 10, 0, .P, 1, 30, .a⟩,
  -- GROUP_HYST
  ⟨0x0203, 1, 2, false, .u8, .rw, .no, .rw, .r, 3, 0, .P, 0, 7, .abc⟩,
  -- GROUP_HYST
  ⟨0x0203, 3, 4, false, .u8, .rw, .no, .rw, .r, 3, 0, .P, 0, 7, .a⟩,
  -- GROUP_NMIN
  ⟨0x0204, 1, 2, false, .u8, .rw, .no, .rw, .r, 1, 0, .P, 0, 255, .abc⟩,
  -- GROUP_NMIN
  ⟨0x0204, 3, 4, false, .u8, .rw, .no, .rw, .r, 1, 0, .P, 0, 255, .a⟩,
  -- GROUP_APPLY
  ⟨0x0205, 0, 0, true, .u8, .w, .no, .w, .no, 0, 0, .V, 1, 4, .abc⟩,
  -- GROUP_FREQ
  ⟨0x0206, 1, 2, false, .u16, .rw, .no, .rw, .r, 400, 0, .P, 200, 2200, .abc⟩,
  -- GROUP_FREQ
  ⟨0x0206, 3, 4, false, .u16, .rw, .no, .rw, .r, 400, 0, .P, 200, 2200, .a⟩,
  -- GROUP_SPREAD
  ⟨0x0207, 1, 2, false, .u8, .rw, .no, .rw, .r, 8, 0, .P, 0, 15, .abc⟩,
  -- GROUP_SPREAD
  ⟨0x0207, 3, 4, false, .u8, .rw, .no, .rw, .r, 8, 0, .P, 0, 15, .a⟩,
  -- GROUP_SPREAD_RATE
  ⟨0x0208, 1, 2, false, .enum8, .rw, .no, .rw, .r, 0, 0, .P, 0, 3, .abc⟩,
  -- GROUP_SPREAD_RATE
  ⟨0x0208, 3, 4, false, .enum8, .rw, .no, .rw, .r, 0, 0, .P, 0, 3, .a⟩,
  -- GROUP_SYNC
  ⟨0x0209, 1, 2, false, .enum8, .rw, .no, .rw, .r, 0, 0, .P, 0, 2, .abc⟩,
  -- GROUP_SYNC
  ⟨0x0209, 3, 4, false, .enum8, .rw, .no, .rw, .r, 0, 0, .P, 0, 2, .a⟩,
  -- GROUP_PHASE_OFS
  ⟨0x020a, 1, 2, false, .u8, .rw, .no, .rw, .r, 0, 0, .P, 0, 15, .abc⟩]

/-- Objects of area 0x0200 (R584). -/
def Dict.rows2_1 : List ObjRow := [
  -- GROUP_PHASE_OFS
  ⟨0x020a, 3, 4, false, .u8, .rw, .no, .rw, .r, 0, 0, .P, 0, 15, .a⟩,
  -- GROUP_SLOPE
  ⟨0x020b, 1, 2, false, .u16, .rw, .no, .rw, .r, 500, 0, .P, 0, 4095, .abc⟩,
  -- GROUP_SLOPE
  ⟨0x020b, 3, 4, false, .u16, .rw, .no, .rw, .r, 500, 0, .P, 0, 4095, .a⟩,
  -- GROUP_FB_FLOOR
  ⟨0x020c, 1, 2, false, .enum8, .rw, .no, .rw, .r, 0, 0, .P, 0, 3, .abc⟩,
  -- GROUP_FB_FLOOR
  ⟨0x020c, 3, 4, false, .enum8, .rw, .no, .rw, .r, 0, 0, .P, 0, 3, .a⟩,
  -- GROUP_ISNS_GAIN
  ⟨0x020d, 1, 2, false, .enum8, .rw, .no, .rw, .r, 1, 0, .P, 0, 2, .abc⟩,
  -- GROUP_ISNS_GAIN
  ⟨0x020d, 3, 4, false, .enum8, .rw, .no, .rw, .r, 1, 0, .P, 0, 2, .a⟩,
  -- GROUP_BAL_GAIN
  ⟨0x020e, 1, 2, false, .u8, .rw, .no, .rw, .r, 5, 0, .P, 0, 7, .abc⟩,
  -- GROUP_BAL_GAIN
  ⟨0x020e, 3, 4, false, .u8, .rw, .no, .rw, .r, 5, 0, .P, 0, 7, .a⟩,
  -- GROUP_BAL_CLAMP
  ⟨0x020f, 1, 2, false, .u8, .rw, .no, .rw, .r, 25, 0, .P, 0, 63, .abc⟩,
  -- GROUP_BAL_CLAMP
  ⟨0x020f, 3, 4, false, .u8, .rw, .no, .rw, .r, 25, 0, .P, 0, 63, .a⟩,
  -- RAIL_SETPOINT
  ⟨0x0210, 0, 0, true, .u16, .rw, .r, .rw, .r, 960, 0, .P, 480, 1600, .abc⟩,
  -- RAIL_FLOOR
  ⟨0x0211, 0, 0, true, .u16, .r, .r, .r, .r, 480, 0, .V, 0, 65535, .abc⟩,
  -- LINK_CEILING
  ⟨0x0212, 0, 0, true, .u16, .r, .no, .r, .r, 88, 0, .V, 0, 65535, .abc⟩,
  -- FREQ_NOW
  ⟨0x0213, 1, 2, false, .u16, .r, .no, .r, .r, 0, 0, .V, 0, 65535, .abc⟩,
  -- FREQ_NOW
  ⟨0x0213, 3, 4, false, .u16, .r, .no, .r, .r, 0, 0, .V, 0, 65535, .a⟩,
  -- SYNC_STATE
  ⟨0x0214, 1, 2, false, .enum8, .r, .no, .r, .r, 0, 0, .V, 0, 255, .abc⟩,
  -- SYNC_STATE
  ⟨0x0214, 3, 4, false, .enum8, .r, .no, .r, .r, 0, 0, .V, 0, 255, .a⟩,
  -- FOLD_NOW
  ⟨0x0215, 1, 2, false, .u16, .r, .no, .r, .r, 1000, 0, .V, 0, 65535, .abc⟩,
  -- FOLD_NOW
  ⟨0x0215, 3, 4, false, .u16, .r, .no, .r, .r, 1000, 0, .V, 0, 65535, .a⟩]

/-- Objects of area 0x0200 (R584). -/
def Dict.rows2_2 : List ObjRow := [
  -- PHASE_POS
  ⟨0x0220, 0, 3, false, .u8, .rw, .no, .rw, .r, 1, 1, .P, 0, 255, .abc⟩,
  -- PHASE_POS
  ⟨0x0220, 4, 5, false, .u8, .rw, .no, .rw, .r, 5, 1, .P, 0, 255, .ab⟩,
  -- PHASE_POS
  ⟨0x0220, 6, 9, false, .u8, .rw, .no, .rw, .r, 1, 1, .P, 0, 255, .abc⟩,
  -- PHASE_POS
  ⟨0x0220, 10, 11, false, .u8, .rw, .no, .rw, .r, 5, 1, .P, 0, 255, .ab⟩,
  -- PHASE_POS
  ⟨0x0220, 12, 13, false, .u8, .rw, .no, .rw, .r, 1, 1, .P, 0, 255, .a⟩,
  -- PHASE_POS
  ⟨0x0220, 14, 15, false, .u8, .rw, .no, .rw, .r, 1, 1, .P, 0, 255, .a⟩,
  -- PHASE_STATE
  ⟨0x0221, 0, 3, false, .enum8, .r, .r, .r, .r, 0, 0, .V, 0, 255, .abc⟩,
  -- PHASE_STATE
  ⟨0x0221, 4, 5, false, .enum8, .r, .r, .r, .r, 0, 0, .V, 0, 255, .ab⟩,
  -- PHASE_STATE
  ⟨0x0221, 6, 9, false, .enum8, .r, .r, .r, .r, 0, 0, .V, 0, 255, .abc⟩,
  -- PHASE_STATE
  ⟨0x0221, 10, 11, false, .enum8, .r, .r, .r, .r, 0, 0, .V, 0, 255, .ab⟩,
  -- PHASE_STATE
  ⟨0x0221, 12, 15, false, .enum8, .r, .r, .r, .r, 0, 0, .V, 0, 255, .a⟩,
  -- PHASE_I
  ⟨0x0222, 0, 3, false, .i16, .r, .no, .r, .r, 0, 0, .V, 0, 65535, .abc⟩,
  -- PHASE_I
  ⟨0x0222, 4, 5, false, .i16, .r, .no, .r, .r, 0, 0, .V, 0, 65535, .ab⟩,
  -- PHASE_I
  ⟨0x0222, 6, 9, false, .i16, .r, .no, .r, .r, 0, 0, .V, 0, 65535, .abc⟩,
  -- PHASE_I
  ⟨0x0222, 10, 11, false, .i16, .r, .no, .r, .r, 0, 0, .V, 0, 65535, .ab⟩,
  -- PHASE_I
  ⟨0x0222, 12, 15, false, .i16, .r, .no, .r, .r, 0, 0, .V, 0, 65535, .a⟩,
  -- ISNS_ZERO
  ⟨0x0223, 0, 3, false, .u16, .r, .no, .r, .r, 0, 0, .V, 0, 65535, .abc⟩,
  -- ISNS_ZERO
  ⟨0x0223, 4, 5, false, .u16, .r, .no, .r, .r, 0, 0, .V, 0, 65535, .ab⟩,
  -- ISNS_ZERO
  ⟨0x0223, 6, 9, false, .u16, .r, .no, .r, .r, 0, 0, .V, 0, 65535, .abc⟩,
  -- ISNS_ZERO
  ⟨0x0223, 10, 11, false, .u16, .r, .no, .r, .r, 0, 0, .V, 0, 65535, .ab⟩]

/-- Objects of area 0x0200 (R584). -/
def Dict.rows2_3 : List ObjRow := [
  -- ISNS_ZERO
  ⟨0x0223, 12, 15, false, .u16, .r, .no, .r, .r, 0, 0, .V, 0, 65535, .a⟩,
  -- FREQ_BAND
  ⟨0x0230, 1, 16, false, .u32, .r, .no, .r, .r, 0, 0, .V, 0, 4294967295, .abc⟩,
  -- PHASE_TRIM
  ⟨0x0240, 0, 3, false, .i16, .r, .no, .r, .r, 0, 0, .V, 0, 65535, .abc⟩,
  -- PHASE_TRIM
  ⟨0x0240, 4, 5, false, .i16, .r, .no, .r, .r, 0, 0, .V, 0, 65535, .ab⟩,
  -- PHASE_TRIM
  ⟨0x0240, 6, 9, false, .i16, .r, .no, .r, .r, 0, 0, .V, 0, 65535, .abc⟩,
  -- PHASE_TRIM
  ⟨0x0240, 10, 11, false, .i16, .r, .no, .r, .r, 0, 0, .V, 0, 65535, .ab⟩,
  -- PHASE_TRIM
  ⟨0x0240, 12, 15, false, .i16, .r, .no, .r, .r, 0, 0, .V, 0, 65535, .a⟩,
  -- PHASE_TRIM_SEED
  ⟨0x0241, 0, 3, false, .i16, .rw, .no, .rw, .no, 0, 0, .P, 0, 65535, .abc⟩,
  -- PHASE_TRIM_SEED
  ⟨0x0241, 4, 5, false, .i16, .rw, .no, .rw, .no, 0, 0, .P, 0, 65535, .ab⟩,
  -- PHASE_TRIM_SEED
  ⟨0x0241, 6, 9, false, .i16, .rw, .no, .rw, .no, 0, 0, .P, 0, 65535, .abc⟩,
  -- PHASE_TRIM_SEED
  ⟨0x0241, 10, 11, false, .i16, .rw, .no, .rw, .no, 0, 0, .P, 0, 65535, .ab⟩,
  -- PHASE_TRIM_SEED
  ⟨0x0241, 12, 15, false, .i16, .rw, .no, .rw, .no, 0, 0, .P, 0, 65535, .a⟩,
  -- EDGE_NOW
  ⟨0x0250, 1, 2, false, .u32, .r, .no, .r, .r, 0, 0, .V, 0, 4294967295, .abc⟩,
  -- EDGE_NOW
  ⟨0x0250, 3, 4, false, .u32, .r, .no, .r, .r, 0, 0, .V, 0, 4294967295, .a⟩,
  -- CORE_STATUS
  ⟨0x0280, 0, 0, true, .bits16, .r, .r, .r, .r, 0, 0, .V, 0, 65535, .abc⟩,
  -- CORE_SPEED.INDEX
  ⟨0x0281, 1, 1, false, .u16, .r, .r, .r, .r, 0, 0, .V, 0, 65535, .abc⟩,
  -- CORE_SPEED.MIN
  ⟨0x0281, 2, 2, false, .u16, .r, .no, .r, .r, 65535, 0, .V, 0, 65535, .abc⟩,
  -- CORE_SPEED.LATENCY
  ⟨0x0281, 3, 3, false, .u16, .r, .no, .r, .r, 0, 0, .V, 0, 65535, .abc⟩,
  -- CORE_SPEED.LIFE_MIN
  ⟨0x0281, 4, 4, false, .u16, .r, .no, .r, .r, 65535, 0, .P, 0, 65535, .abc⟩,
  -- LATCH_HELD
  ⟨0x0282, 1, 13, false, .u32, .r, .no, .r, .r, 0, 0, .V, 0, 4294967295, .abc⟩]

/-- Objects of area 0x0200 (R584). -/
def Dict.rows2_4 : List ObjRow := [
  -- LATCH_PENDING
  ⟨0x0283, 0, 0, true, .bits16, .r, .no, .r, .no, 0, 0, .V, 0, 65535, .abc⟩,
  -- STRATUS_COUNT
  ⟨0x0284, 0, 0, true, .u16, .r, .r, .r, .r, 0, 0, .P, 0, 65535, .abc⟩,
  -- STRATUS_LAST
  ⟨0x0285, 0, 0, true, .u32, .r, .r, .r, .r, 0, 0, .P, 0, 4294967295, .abc⟩,
  -- CORE_SLOW_LIMIT
  ⟨0x0286, 0, 0, true, .u16, .rw, .no, .rw, .no, 560, 0, .P, 500, 700, .abc⟩]

/-- Objects of area 0x0300 (R584). -/
def Dict.rows3_0 : List ObjRow := [
  -- SRC_TYPE
  ⟨0x0300, 0, 0, true, .enum8, .r, .r, .r, .r, 0, 0, .V, 0, 255, .abc⟩,
  -- IIN_LIMIT
  ⟨0x0301, 0, 0, true, .u16, .r, .r, .r, .r, 0, 0, .V, 0, 65535, .abc⟩,
  -- POWER_FLOW.BUS
  ⟨0x0302, 1, 1, false, .i32, .r, .r, .r, .r, 0, 0, .V, 0, 4294967295, .abc⟩,
  -- POWER_FLOW.PACK
  ⟨0x0302, 2, 2, false, .i32, .r, .r, .r, .r, 0, 0, .V, 0, 4294967295, .abc⟩,
  -- POWER_FLOW.LINK_E
  ⟨0x0302, 3, 3, false, .i32, .r, .r, .r, .r, 0, 0, .V, 0, 4294967295, .abc⟩,
  -- POWER_FLOW.LINK_W
  ⟨0x0302, 4, 4, false, .i32, .r, .r, .r, .r, 0, 0, .V, 0, 4294967295, .abc⟩,
  -- POWER_FLOW.RAIL
  ⟨0x0302, 5, 5, false, .i32, .r, .r, .r, .r, 0, 0, .V, 0, 4294967295, .abc⟩,
  -- POWER_FLOW.LOSS
  ⟨0x0302, 6, 6, false, .i32, .r, .r, .r, .r, 0, 0, .V, 0, 4294967295, .abc⟩,
  -- SRC_STATE
  ⟨0x0303, 0, 0, true, .enum8, .r, .r, .r, .r, 0, 0, .V, 0, 255, .abc⟩,
  -- SRC_MEAS.V_OC
  ⟨0x0304, 1, 1, false, .u16, .r, .no, .r, .r, 0, 0, .V, 0, 65535, .abc⟩,
  -- SRC_MEAS.R_HARN
  ⟨0x0304, 2, 2, false, .u16, .r, .no, .r, .r, 0, 0, .V, 0, 65535, .abc⟩,
  -- SRC_MEAS.SLOW
  ⟨0x0304, 3, 3, false, .u8, .r, .no, .r, .r, 255, 0, .V, 0, 255, .abc⟩,
  -- SRC_MEAS.RIPPLE_PP
  ⟨0x0304, 4, 4, false, .u16, .r, .no, .r, .r, 0, 0, .V, 0, 65535, .abc⟩,
  -- SRC_MEAS.RIPPLE_PER
  ⟨0x0304, 5, 5, false, .u16, .r, .no, .r, .r, 0, 0, .V, 0, 65535, .abc⟩,
  -- SRC_MEAS.I_HARN
  ⟨0x0304, 6, 6, false, .u16, .r, .no, .r, .r, 0, 0, .V, 0, 65535, .abc⟩,
  -- SRC_MEAS.REASON
  ⟨0x0304, 7, 7, false, .u8, .r, .no, .r, .r, 0, 0, .V, 0, 255, .abc⟩,
  -- SRC_CLASSIFY
  ⟨0x0305, 0, 0, true, .u8, .w, .no, .w, .no, 0, 0, .V, 1, 1, .abc⟩,
  -- DISC_PRECHARGE
  ⟨0x0306, 0, 0, true, .u8, .rw, .no, .rw, .r, 5, 0, .P, 5, 20, .abc⟩,
  -- SRC_COUNT.DROPS
  ⟨0x0307, 1, 1, false, .u32, .r, .r, .r, .r, 0, 0, .P, 0, 4294967295, .abc⟩,
  -- SRC_COUNT.DUMPS
  ⟨0x0307, 2, 2, false, .u32, .r, .r, .r, .r, 0, 0, .P, 0, 4294967295, .abc⟩]

/-- Objects of area 0x0300 (R584). -/
def Dict.rows3_1 : List ObjRow := [
  -- SRC_COUNT.OVER_RAIL
  ⟨0x0307, 3, 3, false, .u32, .r, .r, .r, .r, 0, 0, .P, 0, 4294967295, .abc⟩,
  -- SRC_COUNT.RT_LONGEST
  ⟨0x0307, 4, 4, false, .u32, .r, .r, .r, .r, 0, 0, .P, 0, 4294967295, .abc⟩,
  -- RAIL_ALLOC_TAU
  ⟨0x0308, 0, 0, true, .u16, .rw, .no, .rw, .r, 200, 0, .P, 50, 2000, .abc⟩,
  -- ENV_CFG
  ⟨0x0380, 0, 0, true, .bits16, .rw, .no, .rw, .r, 129, 0, .P, 0, 65535, .abc⟩,
  -- GRANT_NOW.TOTAL
  ⟨0x0381, 1, 1, false, .u16, .r, .r, .r, .r, 0, 0, .V, 0, 65535, .abc⟩,
  -- GRANT_NOW.DUR
  ⟨0x0381, 2, 2, false, .u8, .r, .r, .r, .r, 0, 0, .V, 0, 255, .abc⟩,
  -- GRANT_NOW.STATUS
  ⟨0x0381, 3, 3, false, .bits16, .r, .r, .r, .r, 0, 0, .V, 0, 65535, .abc⟩,
  -- GRANT_TERMS
  ⟨0x0382, 1, 6, false, .i32, .r, .no, .r, .r, 0, 0, .V, 0, 4294967295, .abc⟩,
  -- GRANT_CONT
  ⟨0x0383, 0, 0, true, .u16, .rw, .no, .rw, .r, 750, 0, .P, 0, 750, .abc⟩,
  -- GRANT_PEAK
  ⟨0x0384, 0, 0, true, .u16, .rw, .no, .rw, .r, 3000, 0, .P, 0, 3000, .abc⟩,
  -- FF_GAIN
  ⟨0x0385, 0, 0, true, .u8, .rw, .no, .rw, .r, 100, 0, .P, 0, 125, .abc⟩,
  -- FF_LEAD
  ⟨0x0386, 0, 0, true, .u8, .rw, .no, .rw, .r, 1, 0, .P, 0, 15, .abc⟩,
  -- ENV_STATE
  ⟨0x0387, 0, 0, true, .enum8, .r, .r, .r, .r, 0, 0, .V, 0, 255, .abc⟩,
  -- DEMAND_NOW.DUE
  ⟨0x0388, 1, 1, false, .u16, .r, .no, .r, .r, 0, 0, .V, 0, 65535, .abc⟩,
  -- DEMAND_NOW.PEAK
  ⟨0x0388, 2, 2, false, .u16, .r, .no, .r, .r, 0, 0, .V, 0, 65535, .abc⟩,
  -- DEMAND_NOW.LOOK
  ⟨0x0388, 3, 3, false, .u8, .r, .no, .r, .r, 0, 0, .V, 0, 255, .abc⟩,
  -- ENV_STATS.GOOD
  ⟨0x0389, 1, 1, false, .u32, .r, .no, .r, .r, 0, 0, .V, 0, 4294967295, .abc⟩,
  -- ENV_STATS.BAD
  ⟨0x0389, 2, 2, false, .u32, .r, .no, .r, .r, 0, 0, .V, 0, 4294967295, .abc⟩,
  -- ENV_STATS.GAPS
  ⟨0x0389, 3, 3, false, .u32, .r, .no, .r, .r, 0, 0, .V, 0, 4294967295, .abc⟩,
  -- ENV_STATS.LOSSES
  ⟨0x0389, 4, 4, false, .u32, .r, .no, .r, .r, 0, 0, .P, 0, 4294967295, .abc⟩]

/-- Objects of area 0x0300 (R584). -/
def Dict.rows3_2 : List ObjRow := [
  -- ENV_STATS.OVER
  ⟨0x0389, 5, 5, false, .u32, .r, .no, .r, .r, 0, 0, .P, 0, 4294967295, .abc⟩,
  -- ENV_STATS.BROKEN
  ⟨0x0389, 6, 6, false, .u32, .r, .no, .r, .r, 0, 0, .P, 0, 4294967295, .abc⟩,
  -- ENV_STATS.LATE
  ⟨0x0389, 7, 7, false, .u32, .r, .no, .r, .r, 0, 0, .V, 0, 4294967295, .abc⟩,
  -- ENV_STATS.MAX_DEM
  ⟨0x0389, 8, 8, false, .u16, .r, .no, .r, .r, 0, 0, .P, 0, 65535, .abc⟩,
  -- ENV_EFF
  ⟨0x038a, 1, 3, false, .u16, .rw, .no, .rw, .r, 950, 0, .P, 500, 1000, .abc⟩,
  -- RT_RESERVE
  ⟨0x038b, 0, 0, true, .u16, .rw, .no, .rw, .r, 200, 0, .P, 0, 65535, .abc⟩]

/-- Objects of area 0x0400 (R584). -/
def Dict.rows4_0 : List ObjRow := [
  -- CHG_STATE
  ⟨0x0400, 0, 0, true, .enum8, .r, .r, .r, .r, 0, 0, .V, 0, 255, .abc⟩,
  -- CHG_STEP
  ⟨0x0401, 0, 0, true, .u8, .r, .no, .r, .r, 0, 0, .V, 0, 255, .abc⟩,
  -- CHG_ENABLE
  ⟨0x0402, 0, 0, true, .bool, .rw, .no, .rw, .r, 1, 0, .P, 0, 1, .abc⟩,
  -- CHG_TARGET
  ⟨0x0403, 0, 0, true, .enum8, .rw, .rw, .rw, .no, 0, 0, .P, 0, 1, .abc⟩,
  -- CHG_CAUSE
  ⟨0x0404, 0, 0, true, .bits16, .r, .no, .r, .r, 0, 0, .V, 0, 65535, .abc⟩,
  -- CHG_I_CMD
  ⟨0x0405, 0, 0, true, .u16, .r, .no, .r, .r, 0, 0, .V, 0, 65535, .abc⟩,
  -- SAFETY.PROGRESS
  ⟨0x0406, 1, 1, false, .u32, .r, .no, .r, .r, 0, 0, .V, 0, 4294967295, .abc⟩,
  -- SAFETY.WALL
  ⟨0x0406, 2, 2, false, .u32, .r, .no, .r, .r, 0, 0, .V, 0, 4294967295, .abc⟩,
  -- SAFETY.NOMINAL
  ⟨0x0406, 3, 3, false, .u32, .r, .no, .r, .r, 0, 0, .V, 0, 4294967295, .abc⟩,
  -- CHG_QUIET
  ⟨0x0407, 0, 0, true, .u8, .rw, .no, .rw, .r, 80, 0, .P, 0, 100, .abc⟩,
  -- CHG_SERVICE, whose range R302 does not state: DESIGN CHOICE, entry 194
  ⟨0x0408, 0, 0, true, .u8, .r, .no, .rw, .no, 0, 0, .V, 0, 200, .abc⟩,
  -- PACK_CELLS
  ⟨0x0410, 0, 0, true, .u8, .rw, .no, .rw, .r, 0, 0, .P, 0, 16, .abc⟩,
  -- PACK_STATE
  ⟨0x0411, 0, 0, true, .enum8, .r, .r, .r, .r, 0, 0, .V, 0, 255, .abc⟩,
  -- PACK_ZONE
  ⟨0x0412, 0, 0, true, .enum8, .r, .r, .r, .r, 6, 0, .V, 0, 255, .abc⟩,
  -- PACK_TEMP
  ⟨0x0413, 0, 0, true, .i16, .r, .r, .r, .r, 32767, 0, .V, 0, 65535, .abc⟩,
  -- PNTC_T
  ⟨0x0414, 1, 4, false, .i16, .r, .no, .r, .r, 32767, 0, .V, 0, 65535, .abc⟩,
  -- PACK_SOC
  ⟨0x0415, 0, 0, true, .u16, .r, .r, .r, .r, 0, 0, .P, 0, 65535, .abc⟩,
  -- PACK_ENERGY
  ⟨0x0416, 0, 0, true, .u16, .r, .no, .r, .r, 0, 0, .V, 0, 65535, .abc⟩,
  -- PACK_RDC
  ⟨0x0417, 0, 0, true, .u16, .r, .no, .r, .r, 0, 0, .P, 0, 65535, .abc⟩,
  -- PACK_Q
  ⟨0x0418, 0, 0, true, .u16, .r, .no, .r, .r, 0, 0, .P, 0, 65535, .abc⟩]

/-- Objects of area 0x0400 (R584). -/
def Dict.rows4_1 : List ObjRow := [
  -- PACK_VSUM
  ⟨0x0419, 0, 0, true, .u32, .r, .no, .r, .r, 0, 0, .V, 0, 4294967295, .abc⟩,
  -- SOC_CONF
  ⟨0x041a, 0, 0, true, .enum8, .r, .no, .r, .r, 2, 0, .V, 0, 255, .abc⟩,
  -- CHG_FAULTS
  ⟨0x0440, 0, 0, true, .bits32, .rc, .r, .rc, .r, 0, 0, .P, 0, 4294967295, .abc⟩,
  -- CELL_V
  ⟨0x0450, 1, 8, false, .i16, .r, .r, .r, .r, 0, 0, .V, 0, 65535, .abc⟩,
  -- CELL_V
  ⟨0x0450, 9, 16, false, .i16, .r, .r, .r, .r, 0, 0, .V, 0, 65535, .ab⟩,
  -- CELL_STATS.V_MAX
  ⟨0x0451, 1, 1, false, .i16, .r, .r, .r, .r, 0, 0, .V, 0, 65535, .abc⟩,
  -- CELL_STATS.V_MIN
  ⟨0x0451, 2, 2, false, .i16, .r, .r, .r, .r, 0, 0, .V, 0, 65535, .abc⟩,
  -- CELL_STATS.K_MAX
  ⟨0x0451, 3, 3, false, .u8, .r, .no, .r, .r, 0, 0, .V, 0, 255, .abc⟩,
  -- CELL_STATS.K_MIN
  ⟨0x0451, 4, 4, false, .u8, .r, .no, .r, .r, 0, 0, .V, 0, 255, .abc⟩,
  -- BAL_STATE
  ⟨0x0460, 0, 0, true, .bits16, .r, .no, .r, .r, 0, 0, .V, 0, 65535, .abc⟩,
  -- BAL_ENABLE
  ⟨0x0461, 0, 0, true, .bool, .rw, .no, .rw, .r, 1, 0, .P, 0, 1, .abc⟩,
  -- BAL_MAX
  ⟨0x0462, 0, 0, true, .u8, .rw, .no, .rw, .r, 4, 0, .P, 1, 8, .abc⟩]

/-- Objects of area 0x0500 (R584). -/
def Dict.rows5_0 : List ObjRow := [
  -- LINK_STATE
  ⟨0x0500, 1, 2, false, .enum8, .r, .r, .r, .r, 0, 0, .V, 0, 255, .abc⟩,
  -- LINK_ROLE
  ⟨0x0501, 1, 2, false, .enum8, .r, .r, .r, .r, 0, 0, .V, 0, 255, .a⟩,
  -- LINK_EN
  ⟨0x0502, 1, 2, false, .bool, .rw, .no, .rw, .r, 1, 0, .P, 0, 1, .a⟩,
  -- LINK_CTRL
  ⟨0x0503, 1, 2, false, .u8, .w, .no, .w, .no, 0, 0, .V, 1, 4, .a⟩,
  -- LINK_SLEW
  ⟨0x0504, 0, 0, true, .u8, .rw, .no, .rw, .r, 20, 0, .P, 5, 50, .a⟩,
  -- LINK_TARGET
  ⟨0x0506, 1, 2, false, .u8, .r, .no, .r, .r, 0, 0, .V, 0, 255, .a⟩,
  -- LINK_PEER
  ⟨0x0507, 1, 2, false, .bits16, .r, .no, .r, .r, 0, 0, .V, 0, 65535, .a⟩,
  -- CONTRACT_E
  ⟨0x0510, 0, 0, true, .u32, .r, .r, .r, .r, 0, 0, .V, 0, 4294967295, .abc⟩,
  -- CONTRACT_W
  ⟨0x0511, 0, 0, true, .u32, .r, .r, .r, .r, 0, 0, .V, 0, 4294967295, .abc⟩,
  -- LINK_LEAK
  ⟨0x0520, 1, 2, false, .u16, .r, .r, .r, .r, 0, 0, .V, 0, 65535, .a⟩,
  -- LINK_MOIST
  ⟨0x0521, 1, 2, false, .enum8, .r, .r, .r, .r, 3, 0, .V, 0, 255, .a⟩,
  -- LINK_SUSC
  ⟨0x0522, 1, 2, false, .u16, .r, .no, .r, .r, 0, 0, .V, 0, 65535, .a⟩,
  -- LINK_LEAK_MAX
  ⟨0x0523, 1, 2, false, .u16, .r, .no, .r, .r, 0, 0, .P, 0, 65535, .a⟩,
  -- LINK_STATS_E
  ⟨0x0530, 1, 6, false, .u32, .r, .no, .r, .r, 0, 0, .P, 0, 4294967295, .a⟩,
  -- LINK_STATS_W
  ⟨0x0531, 1, 6, false, .u32, .r, .no, .r, .r, 0, 0, .P, 0, 4294967295, .a⟩]

/-- Objects of area 0x0600 (R584). -/
def Dict.rows6_0 : List ObjRow := [
  -- SCAN_MASK
  ⟨0x0600, 0, 0, false, .bits16, .rw, .no, .rw, .r, 65535, 0, .P, 0, 65535, .abc⟩,
  -- SCAN_MASK
  ⟨0x0600, 1, 1, false, .bits16, .rw, .no, .rw, .r, 63, 0, .P, 0, 65535, .abc⟩,
  -- SCAN_MASK
  ⟨0x0600, 2, 2, false, .bits16, .rw, .no, .rw, .r, 1023, 0, .P, 0, 65535, .abc⟩,
  -- SCAN_MASK
  ⟨0x0600, 3, 3, false, .bits16, .rw, .no, .rw, .r, 65535, 0, .P, 0, 65535, .abc⟩,
  -- SCAN_EFFECTIVE
  ⟨0x0601, 0, 3, false, .bits16, .r, .no, .r, .r, 0, 0, .V, 0, 65535, .abc⟩,
  -- SCAN_INT
  ⟨0x0602, 0, 3, false, .bits32, .rw, .no, .rw, .r, 16, 0, .P, 0, 4294967295, .abc⟩,
  -- PARK_SCAN
  ⟨0x0603, 0, 0, true, .bits32, .rw, .no, .rw, .r, 34865168, 0, .P, 0, 4294967295, .abc⟩,
  -- SCAN_TIME
  ⟨0x0604, 0, 3, false, .u32, .r, .no, .r, .r, 0, 0, .V, 0, 4294967295, .abc⟩,
  -- SCAN_PERIOD
  ⟨0x0605, 0, 0, true, .u32, .r, .r, .r, .r, 0, 0, .V, 0, 4294967295, .abc⟩,
  -- SCAN_COUNT
  ⟨0x0606, 0, 0, true, .u32, .r, .no, .r, .r, 0, 0, .V, 0, 4294967295, .abc⟩,
  -- SCAN_STATE
  ⟨0x0607, 0, 0, true, .enum8, .r, .r, .r, .r, 0, 0, .V, 0, 255, .abc⟩,
  -- RESULTS
  ⟨0x0620, 0, 7, false, .u32, .r, .r, .r, .r, 3221225472, 16777216, .V, 0, 4294967295, .abc⟩,
  -- RESULTS
  ⟨0x0620, 8, 15, false, .u32, .r, .r, .r, .r, 3355443200, 16777216, .V, 0, 4294967295, .ab⟩,
  -- RESULTS
  ⟨0x0620, 16, 63, false, .u32, .r, .r, .r, .r, 3489660928, 16777216, .V, 0, 4294967295, .abc⟩,
  -- SELFCAL_CMD
  ⟨0x0650, 0, 0, true, .u8, .w, .no, .w, .no, 0, 0, .V, 1, 1, .abc⟩,
  -- CAL_STATE
  ⟨0x0651, 0, 0, true, .enum8, .r, .r, .r, .r, 0, 0, .V, 0, 255, .abc⟩,
  -- CAL_OFS
  ⟨0x0652, 0, 7, false, .i32, .r, .no, .r, .r, 0, 0, .P, 0, 4294967295, .abc⟩,
  -- CAL_OFS
  ⟨0x0652, 8, 15, false, .i32, .r, .no, .r, .r, 0, 0, .P, 0, 4294967295, .ab⟩,
  -- CAL_OFS
  ⟨0x0652, 16, 63, false, .i32, .r, .no, .r, .r, 0, 0, .P, 0, 4294967295, .abc⟩,
  -- CAL_GAIN
  ⟨0x0653, 0, 7, false, .u32, .r, .no, .r, .r, 16777216, 0, .P, 0, 4294967295, .abc⟩]

/-- Objects of area 0x0600 (R584). -/
def Dict.rows6_1 : List ObjRow := [
  -- CAL_GAIN
  ⟨0x0653, 8, 15, false, .u32, .r, .no, .r, .r, 16777216, 0, .P, 0, 4294967295, .ab⟩,
  -- CAL_GAIN
  ⟨0x0653, 16, 63, false, .u32, .r, .no, .r, .r, 16777216, 0, .P, 0, 4294967295, .abc⟩,
  -- CAL_TEMP
  ⟨0x0654, 0, 0, true, .i16, .r, .no, .r, .r, 32767, 0, .P, 0, 65535, .abc⟩,
  -- RAIL_SHUNT
  ⟨0x0655, 0, 0, true, .u16, .rw, .no, .rw, .r, 50, 0, .P, 1, 10000, .abc⟩]

/-- Objects of area 0x0700 (R584). -/
def Dict.rows7_0 : List ObjRow := [
  -- TEMP_MAX
  ⟨0x0700, 0, 0, true, .i16, .r, .r, .r, .r, 32767, 0, .V, 0, 65535, .abc⟩,
  -- TD_T
  ⟨0x0701, 1, 8, false, .i16, .r, .no, .r, .r, 32767, 0, .V, 0, 65535, .abc⟩,
  -- TD_VALID
  ⟨0x0702, 0, 0, true, .bits16, .r, .no, .r, .r, 0, 0, .V, 0, 65535, .abc⟩,
  -- DIE_BAND
  ⟨0x0703, 0, 0, true, .enum8, .r, .r, .r, .r, 1, 0, .V, 0, 255, .abc⟩,
  -- STAGE_T
  ⟨0x0704, 1, 4, false, .i16, .r, .r, .r, .r, 32767, 0, .V, 0, 65535, .abc⟩,
  -- THROTTLE
  ⟨0x0705, 1, 2, false, .bits16, .r, .r, .r, .r, 51200, 0, .V, 0, 65535, .abc⟩,
  -- THROTTLE
  ⟨0x0705, 3, 4, false, .bits16, .r, .r, .r, .r, 51200, 0, .V, 0, 65535, .a⟩,
  -- SHELL_CLK
  ⟨0x0706, 0, 0, true, .enum8, .r, .no, .r, .r, 0, 0, .V, 0, 255, .abc⟩,
  -- D_THERM
  ⟨0x0707, 1, 2, false, .u8, .r, .no, .r, .r, 255, 0, .V, 0, 255, .abc⟩,
  -- D_THERM
  ⟨0x0707, 3, 4, false, .u8, .r, .no, .r, .r, 255, 0, .V, 0, 255, .a⟩,
  -- STAGE_NTC.R25
  ⟨0x0708, 1, 1, false, .u16, .rw, .no, .rw, .r, 1000, 0, .P, 10, 65535, .abc⟩,
  -- STAGE_NTC.BETA
  ⟨0x0708, 2, 2, false, .u16, .rw, .no, .rw, .r, 3435, 0, .P, 2000, 6000, .abc⟩,
  -- TSD_STATE
  ⟨0x0709, 0, 0, true, .enum8, .r, .r, .r, .r, 0, 0, .V, 0, 255, .abc⟩,
  -- TSD_COUNT
  ⟨0x070a, 0, 0, true, .u32, .r, .r, .r, .r, 0, 0, .P, 0, 4294967295, .abc⟩]

/-- Objects of area 0x0800 (R584). -/
def Dict.rows8_0 : List ObjRow := [
  -- FAULT_SUMMARY
  ⟨0x0800, 0, 0, true, .bits32, .r, .r, .r, .r, 15, 0, .V, 0, 4294967295, .abc⟩,
  -- FAULT_RECORD
  ⟨0x0801, 1, 64, false, .domain, .rc, .no, .rc, .r, 0, 0, .V, 0, 0, .abc⟩,
  -- FAULT_ACK
  ⟨0x0802, 0, 0, true, .u8, .w, .no, .w, .no, 0, 0, .V, 1, 1, .abc⟩,
  -- FAULT_COUNT
  ⟨0x0803, 0, 0, true, .u32, .r, .no, .r, .r, 0, 0, .P, 0, 4294967295, .abc⟩,
  -- FAULT_CLASS_COUNT
  ⟨0x0804, 1, 5, false, .u32, .r, .no, .r, .r, 0, 0, .P, 0, 4294967295, .abc⟩,
  -- FAULT_LAST
  ⟨0x0805, 0, 0, true, .u32, .r, .r, .r, .r, 0, 0, .V, 0, 4294967295, .abc⟩,
  -- FAULT_INJECT
  ⟨0x0806, 0, 0, true, .u32, .no, .no, .w, .no, 0, 0, .V, 0, 4294967295, .abc⟩,
  -- CHIPRST_HOLDOFF
  ⟨0x0807, 0, 0, true, .u16, .rw, .no, .rw, .no, 60, 0, .P, 10, 3600, .abc⟩,
  -- FAULT_LOST
  ⟨0x0808, 0, 0, true, .u32, .r, .no, .r, .r, 0, 0, .V, 0, 4294967295, .abc⟩,
  -- HALO_CFG
  ⟨0x0810, 0, 0, true, .bits16, .rw, .no, .rw, .r, 3, 0, .P, 0, 65535, .abc⟩,
  -- HALO_STATE
  ⟨0x0811, 0, 0, true, .enum8, .r, .r, .r, .r, 0, 0, .V, 0, 255, .abc⟩,
  -- WD_STATE
  ⟨0x0840, 0, 0, true, .enum8, .r, .r, .r, .r, 0, 0, .V, 0, 255, .abc⟩,
  -- WD_CHECKIN
  ⟨0x0841, 0, 0, true, .u16, .w, .w, .w, .w, 0, 0, .V, 0, 65535, .abc⟩,
  -- WD_TOKEN
  ⟨0x0842, 0, 0, true, .u8, .r, .r, .r, .r, 0, 0, .V, 0, 255, .abc⟩,
  -- WD_PERIOD
  ⟨0x0843, 0, 0, true, .u32, .rw, .no, .rw, .r, 100000, 0, .P, 1000, 10000000, .abc⟩,
  -- WD_OPEN
  ⟨0x0844, 1, 16, false, .u32, .rw, .no, .rw, .r, 0, 0, .P, 0, 4294967295, .abc⟩,
  -- WD_CLOSE
  ⟨0x0845, 1, 16, false, .u32, .rw, .no, .rw, .r, 100000, 0, .P, 0, 4294967295, .abc⟩,
  -- WD_ENABLE
  ⟨0x0846, 0, 0, true, .bits16, .rw, .no, .rw, .r, 255, 0, .P, 0, 65535, .abc⟩,
  -- WD_OWNER
  ⟨0x0847, 1, 7, false, .enum8, .rw, .no, .rw, .r, 0, 0, .P, 0, 4, .abc⟩,
  -- WD_FAILOVER_W
  ⟨0x0848, 0, 0, true, .u16, .rw, .no, .rw, .r, 1000, 0, .P, 10, 10000, .abc⟩]

/-- Objects of area 0x0800 (R584). -/
def Dict.rows8_1 : List ObjRow := [
  -- WD_LAST.KIND
  ⟨0x0849, 1, 1, false, .u8, .r, .r, .r, .r, 0, 0, .V, 0, 255, .abc⟩,
  -- WD_LAST.ID
  ⟨0x0849, 2, 2, false, .u8, .r, .r, .r, .r, 0, 0, .V, 0, 255, .abc⟩,
  -- WD_LAST.TICK
  ⟨0x0849, 3, 3, false, .u32, .r, .no, .r, .r, 0, 0, .V, 0, 4294967295, .abc⟩,
  -- WD_LAST.TOKEN
  ⟨0x0849, 4, 4, false, .u8, .r, .no, .r, .r, 0, 0, .V, 0, 255, .abc⟩,
  -- WD_EXPIRY_COUNT
  ⟨0x084a, 0, 0, true, .u32, .r, .no, .r, .r, 0, 0, .P, 0, 4294967295, .abc⟩,
  -- WD_SEEN
  ⟨0x084b, 0, 0, true, .bits16, .r, .no, .r, .r, 0, 0, .V, 0, 65535, .abc⟩]

/-- Objects of area 0x0900 (R584). -/
def Dict.rows9_0 : List ObjRow := [
  -- HZ_STATE
  ⟨0x0900, 0, 0, true, .enum8, .r, .r, .r, .r, 0, 0, .V, 0, 255, .abc⟩,
  -- HZ_OP_TIME
  ⟨0x0901, 0, 0, true, .u32, .r, .r, .r, .r, 0, 0, .P, 0, 4294967295, .abc⟩,
  -- HZ_EPOCH.COUNT
  ⟨0x0902, 1, 1, false, .u32, .r, .no, .r, .r, 0, 0, .P, 0, 4294967295, .abc⟩,
  -- HZ_EPOCH.LAST
  ⟨0x0902, 2, 2, false, .u32, .r, .no, .r, .r, 0, 0, .P, 0, 4294967295, .abc⟩,
  -- HZ_EPOCH.RESULT
  ⟨0x0902, 3, 3, false, .enum8, .r, .no, .r, .r, 0, 0, .V, 0, 255, .abc⟩,
  -- HZ_EPOCH_CMD
  ⟨0x0903, 0, 0, true, .u8, .w, .no, .w, .no, 0, 0, .V, 1, 1, .abc⟩,
  -- HZ_REBASE
  ⟨0x0904, 0, 0, true, .u8, .w, .no, .w, .no, 0, 0, .V, 0, 255, .abc⟩,
  -- HZ_BASE
  ⟨0x0905, 0, 0, true, .domain, .r, .no, .r, .no, 0, 0, .P, 0, 0, .abc⟩,
  -- HZ_MARGIN
  ⟨0x0910, 1, 10, false, .i16, .r, .r, .r, .r, 1000, 0, .P, 0, 65535, .abc⟩,
  -- HZ_WORST
  ⟨0x0911, 1, 10, false, .u8, .r, .no, .r, .r, 0, 0, .P, 0, 255, .abc⟩,
  -- HZ_PHASE_DRIFT
  ⟨0x0920, 0, 3, false, .i16, .r, .no, .r, .r, 0, 0, .P, 0, 65535, .abc⟩,
  -- HZ_PHASE_DRIFT
  ⟨0x0920, 4, 5, false, .i16, .r, .no, .r, .r, 0, 0, .P, 0, 65535, .ab⟩,
  -- HZ_PHASE_DRIFT
  ⟨0x0920, 6, 9, false, .i16, .r, .no, .r, .r, 0, 0, .P, 0, 65535, .abc⟩,
  -- HZ_PHASE_DRIFT
  ⟨0x0920, 10, 11, false, .i16, .r, .no, .r, .r, 0, 0, .P, 0, 65535, .ab⟩,
  -- HZ_PHASE_DRIFT
  ⟨0x0920, 12, 15, false, .i16, .r, .no, .r, .r, 0, 0, .P, 0, 65535, .a⟩,
  -- HZ_PATH_R
  ⟨0x0921, 0, 3, false, .u16, .r, .no, .r, .r, 0, 0, .P, 0, 65535, .abc⟩,
  -- HZ_PATH_R
  ⟨0x0921, 4, 5, false, .u16, .r, .no, .r, .r, 0, 0, .P, 0, 65535, .ab⟩,
  -- HZ_PATH_R
  ⟨0x0921, 6, 9, false, .u16, .r, .no, .r, .r, 0, 0, .P, 0, 65535, .abc⟩,
  -- HZ_PATH_R
  ⟨0x0921, 10, 11, false, .u16, .r, .no, .r, .r, 0, 0, .P, 0, 65535, .ab⟩,
  -- HZ_PATH_R
  ⟨0x0921, 12, 15, false, .u16, .r, .no, .r, .r, 0, 0, .P, 0, 65535, .a⟩]

/-- Objects of area 0x0900 (R584). -/
def Dict.rows9_1 : List ObjRow := [
  -- HZ_RAIL_C
  ⟨0x0922, 0, 0, true, .u16, .r, .no, .r, .r, 0, 0, .P, 0, 65535, .abc⟩,
  -- HZ_RAIL_ESR
  ⟨0x0923, 0, 0, true, .u16, .r, .no, .r, .r, 0, 0, .P, 0, 65535, .abc⟩,
  -- HZ_ZTH
  ⟨0x0924, 1, 4, false, .u16, .r, .no, .r, .r, 0, 0, .P, 0, 65535, .abc⟩,
  -- HZ_REF_DRIFT
  ⟨0x0925, 0, 0, true, .u16, .r, .no, .r, .r, 0, 0, .P, 0, 65535, .abc⟩,
  -- HZ_SPEED_RATIO
  ⟨0x0926, 0, 0, true, .u16, .r, .no, .r, .r, 1000, 0, .P, 0, 65535, .abc⟩,
  -- HZ_LEAK_MEAN
  ⟨0x0927, 1, 2, false, .u16, .r, .no, .r, .r, 0, 0, .P, 0, 65535, .a⟩,
  -- HZ_LEAK_ETA
  ⟨0x0928, 1, 2, false, .u32, .r, .no, .r, .r, 4294967295, 0, .P, 0, 4294967295, .a⟩,
  -- DER_NOW
  ⟨0x0930, 1, 9, false, .u16, .r, .r, .r, .r, 1000, 0, .P, 0, 65535, .abc⟩,
  -- FREQ_CEIL
  ⟨0x0931, 0, 0, true, .u16, .r, .r, .r, .r, 2200, 0, .P, 0, 65535, .abc⟩,
  -- HZ_LOG_SEL
  ⟨0x0940, 0, 0, true, .u32, .rw, .no, .rw, .r, 0, 0, .V, 0, 4294967295, .abc⟩,
  -- HZ_LOG
  ⟨0x0941, 0, 0, true, .domain, .r, .no, .r, .r, 0, 0, .P, 0, 0, .abc⟩,
  -- HZ_LOG_COUNT
  ⟨0x0942, 0, 0, true, .u32, .r, .r, .r, .r, 0, 0, .P, 0, 4294967295, .abc⟩]

/-- Objects of area 0x0A00 (R584). -/
def Dict.rowsA_0 : List ObjRow := [
  -- NODE_ID
  ⟨0x0a00, 0, 0, true, .u8, .r, .r, .r, .r, 0, 0, .P, 0, 255, .abc⟩,
  -- NODE_ID_SET
  ⟨0x0a01, 0, 0, true, .u8, .no, .no, .w, .no, 0, 0, .V, 0, 255, .a⟩,
  -- FAB_STATE
  ⟨0x0a02, 0, 0, true, .enum8, .r, .r, .r, .r, 0, 0, .V, 0, 255, .a⟩,
  -- ZENITH.ID
  ⟨0x0a03, 1, 1, false, .u8, .r, .no, .r, .r, 0, 0, .V, 0, 255, .a⟩,
  -- ZENITH.UID
  ⟨0x0a03, 2, 2, false, .u64, .r, .no, .r, .r, 0, 0, .V, 0, 18446744073709551615, .a⟩,
  -- ZENITH.HOPS
  ⟨0x0a03, 3, 3, false, .u8, .r, .no, .r, .r, 0, 0, .V, 0, 255, .a⟩,
  -- ZENITH.ROOT
  ⟨0x0a03, 4, 4, false, .enum8, .r, .no, .r, .r, 0, 0, .V, 0, 255, .a⟩,
  -- NODE_COUNT
  ⟨0x0a04, 0, 0, true, .u8, .r, .r, .r, .r, 0, 0, .V, 0, 255, .a⟩,
  -- TOPOLOGY
  ⟨0x0a05, 0, 0, true, .enum8, .r, .r, .r, .r, 0, 0, .V, 0, 255, .a⟩,
  -- ASSIGN_GEN
  ⟨0x0a06, 0, 0, true, .u16, .r, .no, .r, .r, 0, 0, .P, 0, 65535, .a⟩,
  -- FAB_BOOT_SRV
  ⟨0x0a07, 0, 0, true, .bool, .rw, .no, .rw, .no, 0, 0, .P, 0, 1, .a⟩,
  -- ZENITH_EN
  ⟨0x0a08, 0, 0, true, .bool, .rw, .no, .rw, .no, 1, 0, .P, 0, 1, .a⟩,
  -- NOTIFY_PERIOD
  ⟨0x0a09, 0, 0, true, .u16, .rw, .no, .rw, .r, 1000, 0, .P, 100, 60000, .a⟩,
  -- PORT_STATE
  ⟨0x0a10, 1, 2, false, .enum8, .r, .r, .r, .r, 0, 0, .V, 0, 255, .a⟩,
  -- PORT_DELAY
  ⟨0x0a11, 1, 2, false, .u16, .r, .no, .r, .r, 0, 0, .V, 0, 65535, .a⟩,
  -- PORT_NBR
  ⟨0x0a12, 1, 2, false, .u64, .r, .no, .r, .r, 0, 0, .V, 0, 18446744073709551615, .a⟩,
  -- ROUTE
  ⟨0x0a20, 1, 254, false, .u8, .r, .no, .r, .r, 255, 0, .V, 0, 255, .a⟩,
  -- TIMEBASE.STATE
  ⟨0x0a30, 1, 1, false, .enum8, .r, .no, .r, .r, 0, 0, .V, 0, 255, .a⟩,
  -- TIMEBASE.COUNT
  ⟨0x0a30, 2, 2, false, .u8, .r, .no, .r, .r, 0, 0, .V, 0, 255, .a⟩,
  -- TIMEBASE.OFS
  ⟨0x0a30, 3, 3, false, .u16, .r, .no, .r, .r, 0, 0, .V, 0, 65535, .a⟩]

/-- Objects of area 0x0A00 (R584). -/
def Dict.rowsA_1 : List ObjRow := [
  -- TIMEBASE.ERR
  ⟨0x0a30, 4, 4, false, .i16, .r, .no, .r, .r, 0, 0, .V, 0, 65535, .a⟩,
  -- FAB_STATS
  ⟨0x0a40, 1, 8, false, .u32, .r, .no, .r, .r, 0, 0, .V, 0, 4294967295, .a⟩]

/-- Objects of area 0x0B00 (R584). -/
def Dict.rowsB_0 : List ObjRow := [
  -- DIAG_SESSION
  ⟨0x0b00, 0, 0, true, .enum8, .r, .r, .r, .r, 1, 0, .V, 0, 255, .ab⟩,
  -- DIAG_SECURITY
  ⟨0x0b01, 0, 0, true, .enum8, .r, .no, .r, .r, 0, 0, .V, 0, 255, .ab⟩,
  -- DIAG_ID.PHYS_REQ
  ⟨0x0b02, 1, 1, false, .u32, .rw, .no, .rw, .no, 1856, 0, .P, 0, 4294967295, .ab⟩,
  -- DIAG_ID.FUNC_REQ
  ⟨0x0b02, 2, 2, false, .u32, .rw, .no, .rw, .no, 1984, 0, .P, 0, 4294967295, .ab⟩,
  -- DIAG_ID.RSP
  ⟨0x0b02, 3, 3, false, .u32, .rw, .no, .rw, .no, 1864, 0, .P, 0, 4294967295, .ab⟩,
  -- DIAG_TP
  ⟨0x0b03, 0, 0, true, .bits16, .rw, .no, .rw, .no, 0, 0, .P, 0, 65535, .ab⟩,
  -- SEC_ATTEMPTS
  ⟨0x0b04, 0, 0, true, .u8, .r, .no, .r, .no, 0, 0, .V, 0, 255, .ab⟩,
  -- SEC_DELAY
  ⟨0x0b05, 0, 0, true, .u16, .r, .no, .r, .no, 10, 0, .V, 0, 65535, .ab⟩,
  -- DIAG_DOMAIN_OFS
  ⟨0x0b06, 0, 0, true, .u32, .no, .no, .rw, .no, 0, 0, .V, 0, 4294967295, .abc⟩,
  -- DTC_STATE
  ⟨0x0b07, 0, 0, true, .bits16, .r, .r, .r, .r, 0, 0, .V, 0, 65535, .abc⟩,
  -- DTC_COUNT
  ⟨0x0b08, 0, 0, true, .u16, .r, .r, .r, .r, 0, 0, .P, 0, 65535, .abc⟩,
  -- DTC_SETTING
  ⟨0x0b09, 0, 0, true, .bool, .r, .no, .r, .r, 1, 0, .V, 0, 1, .ab⟩,
  -- DTC_LAPSE
  ⟨0x0b0a, 0, 0, true, .u8, .rw, .no, .rw, .no, 40, 0, .P, 1, 255, .abc⟩,
  -- DTC_TABLE
  ⟨0x0b0b, 0, 0, true, .domain, .r, .no, .r, .r, 0, 0, .P, 0, 0, .abc⟩,
  -- DTC_CLEAR
  ⟨0x0b0c, 0, 0, true, .u32, .no, .no, .w, .no, 0, 0, .V, 0, 4294967295, .abc⟩,
  -- DOWNLOAD_STATE
  ⟨0x0b0d, 0, 0, true, .enum8, .r, .no, .r, .r, 0, 0, .V, 0, 255, .abc⟩,
  -- CAN_NOM_RATE
  ⟨0x0b40, 1, 1, false, .enum8, .rw, .no, .rw, .no, 2, 0, .P, 0, 3, .abc⟩,
  -- CAN_NOM_RATE
  ⟨0x0b40, 2, 2, false, .enum8, .rw, .no, .rw, .no, 2, 0, .P, 0, 3, .ab⟩,
  -- CAN_DATA_RATE
  ⟨0x0b41, 1, 1, false, .enum8, .rw, .no, .rw, .no, 2, 0, .P, 0, 4, .abc⟩,
  -- CAN_DATA_RATE
  ⟨0x0b41, 2, 2, false, .enum8, .rw, .no, .rw, .no, 2, 0, .P, 0, 4, .ab⟩]

/-- Objects of area 0x0B00 (R584). -/
def Dict.rowsB_1 : List ObjRow := [
  -- CAN_SP_NOM
  ⟨0x0b42, 1, 1, false, .u8, .rw, .no, .rw, .no, 80, 0, .P, 60, 90, .abc⟩,
  -- CAN_SP_NOM
  ⟨0x0b42, 2, 2, false, .u8, .rw, .no, .rw, .no, 80, 0, .P, 60, 90, .ab⟩,
  -- CAN_SP_DATA
  ⟨0x0b43, 1, 1, false, .u8, .rw, .no, .rw, .no, 75, 0, .P, 60, 90, .abc⟩,
  -- CAN_SP_DATA
  ⟨0x0b43, 2, 2, false, .u8, .rw, .no, .rw, .no, 75, 0, .P, 60, 90, .ab⟩,
  -- CAN_ID.HOST_REQ
  ⟨0x0b44, 1, 1, false, .u32, .rw, .no, .rw, .no, 1696, 0, .P, 0, 4294967295, .abc⟩,
  -- CAN_ID.HOST_RSP
  ⟨0x0b44, 2, 2, false, .u32, .rw, .no, .rw, .no, 1704, 0, .P, 0, 4294967295, .abc⟩,
  -- CAN_ID.NOTIFY
  ⟨0x0b44, 3, 3, false, .u32, .rw, .no, .rw, .no, 1712, 0, .P, 0, 4294967295, .abc⟩,
  -- CAN_ID.TEST_REQ
  ⟨0x0b44, 4, 4, false, .u32, .rw, .no, .rw, .no, 1720, 0, .P, 0, 4294967295, .c⟩,
  -- CAN_ID.TEST_RSP
  ⟨0x0b44, 5, 5, false, .u32, .rw, .no, .rw, .no, 1724, 0, .P, 0, 4294967295, .c⟩,
  -- CAN_NOTIFY_PERIOD
  ⟨0x0b45, 0, 0, true, .u16, .rw, .no, .rw, .no, 1000, 0, .P, 0, 65535, .abc⟩,
  -- CAN_APPLY
  ⟨0x0b46, 0, 0, true, .u8, .w, .no, .w, .no, 0, 0, .V, 1, 2, .abc⟩,
  -- CAN_STATE
  ⟨0x0b47, 1, 1, false, .enum8, .r, .r, .r, .r, 0, 0, .V, 0, 255, .abc⟩,
  -- CAN_STATE
  ⟨0x0b47, 2, 2, false, .enum8, .r, .r, .r, .r, 0, 0, .V, 0, 255, .ab⟩,
  -- CAN_ERR
  ⟨0x0b48, 1, 1, false, .u16, .r, .no, .r, .r, 0, 0, .V, 0, 65535, .abc⟩,
  -- CAN_ERR
  ⟨0x0b48, 2, 2, false, .u16, .r, .no, .r, .r, 0, 0, .V, 0, 65535, .ab⟩,
  -- CAN_STATS
  ⟨0x0b49, 1, 3, false, .u32, .r, .no, .r, .r, 0, 0, .V, 0, 4294967295, .abc⟩,
  -- CAN_STATS
  ⟨0x0b49, 4, 6, false, .u32, .r, .no, .r, .r, 0, 0, .V, 0, 4294967295, .abc⟩,
  -- LIN_CFG
  ⟨0x0b60, 0, 0, true, .bits16, .rw, .r, .rw, .r, 3, 0, .P, 0, 65535, .abc⟩,
  -- LIN_NAD
  ⟨0x0b61, 0, 0, true, .u8, .rw, .rw, .rw, .r, 76, 0, .P, 1, 125, .abc⟩,
  -- LIN_PID
  ⟨0x0b62, 1, 1, false, .u8, .rw, .rw, .rw, .r, 32, 0, .P, 0, 59, .abc⟩]

/-- Objects of area 0x0B00 (R584). -/
def Dict.rowsB_2 : List ObjRow := [
  -- LIN_PID
  ⟨0x0b62, 2, 2, false, .u8, .rw, .rw, .rw, .r, 33, 0, .P, 0, 59, .abc⟩,
  -- LIN_PID
  ⟨0x0b62, 3, 3, false, .u8, .rw, .rw, .rw, .r, 34, 0, .P, 0, 59, .abc⟩,
  -- LIN_PID
  ⟨0x0b62, 4, 4, false, .u8, .rw, .rw, .rw, .r, 35, 0, .P, 0, 59, .abc⟩,
  -- LIN_STATE
  ⟨0x0b63, 0, 0, true, .enum8, .r, .r, .r, .r, 0, 0, .V, 0, 255, .abc⟩,
  -- LIN_STATS
  ⟨0x0b64, 1, 5, false, .u32, .r, .r, .r, .r, 0, 0, .V, 0, 4294967295, .abc⟩]

/-- Objects of area 0x0C00 (R584). -/
def Dict.rowsC_0 : List ObjRow := [
  -- TABLE_ACTIVE
  ⟨0x0c00, 0, 0, true, .enum8, .r, .r, .r, .r, 0, 0, .V, 0, 255, .abc⟩,
  -- TABLE_SWITCH
  ⟨0x0c01, 0, 0, true, .u32, .r, .r, .rw, .r, 0, 0, .V, 0, 4294967295, .abc⟩,
  -- TABLE_LOAD
  ⟨0x0c02, 0, 0, true, .domain, .no, .no, .w, .no, 0, 0, .V, 0, 0, .abc⟩,
  -- TABLE_AUTH
  ⟨0x0c03, 0, 0, true, .enum8, .r, .no, .r, .r, 0, 0, .V, 0, 255, .abc⟩,
  -- BANK_GEN
  ⟨0x0c04, 1, 2, false, .u32, .r, .no, .r, .r, 0, 0, .V, 0, 4294967295, .abc⟩,
  -- TABLE_LAST_REFUSAL
  ⟨0x0c05, 0, 0, true, .u16, .r, .no, .r, .r, 0, 0, .V, 0, 65535, .abc⟩,
  -- TABLE_ID_ACTIVE
  ⟨0x0c10, 1, 6, false, .u32, .r, .r, .r, .r, 0, 0, .V, 0, 4294967295, .abc⟩,
  -- TABLE_ID_ACTIVE
  ⟨0x0c10, 7, 7, false, .u32, .r, .r, .r, .r, 0, 0, .V, 0, 4294967295, .a⟩,
  -- TABLE_ID_ACTIVE
  ⟨0x0c10, 8, 8, false, .u32, .r, .r, .r, .r, 0, 0, .V, 0, 4294967295, .ab⟩,
  -- TABLE_ID_ACTIVE
  ⟨0x0c10, 9, 10, false, .u32, .r, .r, .r, .r, 0, 0, .V, 0, 4294967295, .abc⟩,
  -- TABLE_ID_INACTIVE
  ⟨0x0c11, 1, 6, false, .u32, .r, .no, .r, .r, 0, 0, .V, 0, 4294967295, .abc⟩,
  -- TABLE_ID_INACTIVE
  ⟨0x0c11, 7, 7, false, .u32, .r, .no, .r, .r, 0, 0, .V, 0, 4294967295, .a⟩,
  -- TABLE_ID_INACTIVE
  ⟨0x0c11, 8, 8, false, .u32, .r, .no, .r, .r, 0, 0, .V, 0, 4294967295, .ab⟩,
  -- TABLE_ID_INACTIVE
  ⟨0x0c11, 9, 10, false, .u32, .r, .no, .r, .r, 0, 0, .V, 0, 4294967295, .abc⟩,
  -- SEQ_STATE
  ⟨0x0c20, 0, 4, false, .u8, .r, .no, .r, .r, 0, 0, .V, 0, 255, .abc⟩,
  -- SEQ_MODE
  ⟨0x0c21, 0, 4, false, .enum8, .r, .r, .r, .r, 0, 0, .V, 0, 255, .abc⟩,
  -- TRAP_RELEASE
  ⟨0x0c22, 0, 0, true, .u8, .w, .no, .w, .no, 0, 0, .V, 1, 1, .abc⟩,
  -- SEQ_STATE_TIME
  ⟨0x0c23, 0, 4, false, .u32, .r, .no, .r, .r, 0, 0, .V, 0, 4294967295, .abc⟩]

/-- Objects of area 0x0D00 (R584). -/
def Dict.rowsD_0 : List ObjRow := [
  -- OTP_STATE
  ⟨0x0d00, 1, 5, false, .enum8, .r, .r, .r, .r, 0, 0, .V, 0, 255, .abc⟩,
  -- OTP_ORDERED
  ⟨0x0d01, 0, 0, true, .u8, .r, .no, .r, .r, 0, 0, .O, 0, 255, .abc⟩,
  -- OTP_TRACE
  ⟨0x0d02, 0, 0, true, .u64, .r, .no, .r, .no, 0, 0, .O, 0, 18446744073709551615, .abc⟩,
  -- OTP_CEIL
  ⟨0x0d10, 1, 1, false, .u16, .r, .no, .r, .r, 2400, 0, .O, 0, 65535, .abc⟩,
  -- OTP_CEIL
  ⟨0x0d10, 2, 2, false, .u16, .r, .no, .r, .r, 2400, 0, .O, 0, 65535, .abc⟩,
  -- OTP_CEIL
  ⟨0x0d10, 3, 3, false, .u16, .r, .no, .r, .r, 600, 0, .O, 0, 65535, .abc⟩,
  -- OTP_CEIL
  ⟨0x0d10, 4, 4, false, .u16, .r, .no, .r, .r, 800, 0, .O, 0, 65535, .abc⟩,
  -- OTP_CEIL
  ⟨0x0d10, 5, 5, false, .u16, .r, .no, .r, .r, 800, 0, .O, 0, 65535, .abc⟩,
  -- OTP_CEIL
  ⟨0x0d10, 6, 6, false, .u16, .r, .no, .r, .r, 750, 0, .O, 0, 65535, .abc⟩,
  -- OTP_CEIL
  ⟨0x0d10, 7, 7, false, .u16, .r, .no, .r, .r, 2000, 0, .O, 0, 65535, .abc⟩,
  -- SEC_POLICY
  ⟨0x0d20, 0, 0, true, .enum8, .r, .no, .r, .r, 0, 0, .O, 0, 255, .abc⟩,
  -- SEC_KEY_HASH
  ⟨0x0d21, 0, 0, true, .domain, .r, .no, .r, .no, 0, 0, .O, 0, 0, .abc⟩,
  -- TRIM_DATA
  ⟨0x0d30, 0, 0, true, .domain, .r, .no, .r, .no, 0, 0, .O, 0, 0, .abc⟩,
  -- STRATUS_LIM.IN
  ⟨0x0d40, 1, 1, false, .u16, .r, .no, .r, .no, 600, 0, .O, 0, 65535, .abc⟩,
  -- STRATUS_LIM.PACKGRP
  ⟨0x0d40, 2, 2, false, .u16, .r, .no, .r, .no, 600, 0, .O, 0, 65535, .abc⟩,
  -- STRATUS_LIM.PACK_DIS
  ⟨0x0d40, 3, 3, false, .u16, .r, .no, .r, .no, 400, 0, .O, 0, 65535, .abc⟩,
  -- STRATUS_LIM.LINK
  ⟨0x0d40, 4, 4, false, .u16, .r, .no, .r, .no, 10, 0, .O, 0, 65535, .abc⟩,
  -- CUST_DATA
  ⟨0x0d41, 0, 0, true, .domain, .r, .no, .r, .r, 0, 0, .O, 0, 0, .abc⟩,
  -- OTP_PROG
  ⟨0x0d50, 0, 0, true, .domain, .no, .no, .w, .no, 0, 0, .V, 0, 0, .abc⟩,
  -- OTP_LOCK
  ⟨0x0d51, 0, 0, true, .u8, .no, .no, .w, .no, 0, 0, .V, 0, 255, .abc⟩]

/-- Objects of area 0x0D00 (R584). -/
def Dict.rowsD_1 : List ObjRow := [
  -- OTP_PROG_STATE
  ⟨0x0d52, 0, 0, true, .enum8, .r, .no, .r, .no, 0, 0, .V, 0, 255, .abc⟩]

/-- Objects of area 0x0E00 (R584). -/
def Dict.rowsE_0 : List ObjRow := [
  -- REC_CFG
  ⟨0x0e00, 0, 0, true, .bits16, .rw, .no, .rw, .r, 31, 0, .P, 0, 65535, .abc⟩,
  -- REC_STATE
  ⟨0x0e01, 0, 0, true, .enum8, .r, .r, .r, .r, 0, 0, .V, 0, 255, .abc⟩,
  -- REC_TRIGGER
  ⟨0x0e02, 0, 0, true, .u8, .w, .no, .w, .no, 0, 0, .V, 1, 1, .abc⟩,
  -- REC_COUNT
  ⟨0x0e03, 0, 0, true, .u16, .r, .r, .r, .r, 0, 0, .P, 0, 65535, .abc⟩,
  -- REC_TOTAL
  ⟨0x0e04, 0, 0, true, .u32, .r, .no, .r, .r, 0, 0, .P, 0, 4294967295, .abc⟩,
  -- REC_SUPPRESSED_CNT
  ⟨0x0e05, 0, 0, true, .u32, .r, .no, .r, .r, 0, 0, .P, 0, 4294967295, .abc⟩,
  -- REC_MAX_HOUR
  ⟨0x0e06, 0, 0, true, .u8, .rw, .no, .rw, .r, 16, 0, .P, 1, 64, .abc⟩,
  -- REC_SELECT
  ⟨0x0e08, 0, 0, true, .u16, .rw, .no, .rw, .r, 0, 0, .V, 0, 65535, .abc⟩,
  -- REC_DATA
  ⟨0x0e09, 0, 0, true, .domain, .r, .no, .r, .r, 0, 0, .P, 0, 0, .abc⟩,
  -- REC_KEEP
  ⟨0x0e0a, 0, 0, true, .bool, .w, .no, .w, .no, 0, 0, .V, 0, 1, .abc⟩,
  -- FLASH_STATE
  ⟨0x0e80, 0, 0, true, .enum8, .r, .r, .r, .r, 0, 0, .V, 0, 255, .abc⟩,
  -- FLASH_SIZE
  ⟨0x0e81, 0, 0, true, .u16, .r, .no, .r, .r, 0, 0, .V, 0, 65535, .abc⟩,
  -- FLASH_ENDURANCE
  ⟨0x0e82, 0, 0, true, .u32, .rw, .no, .rw, .no, 100000, 0, .P, 10000, 1000000, .abc⟩,
  -- FLASH_WEAR
  ⟨0x0e83, 1, 5, false, .u32, .r, .no, .r, .r, 0, 0, .V, 0, 4294967295, .abc⟩,
  -- FLASH_RETIRED
  ⟨0x0e84, 0, 0, true, .u16, .r, .no, .r, .r, 0, 0, .V, 0, 65535, .abc⟩,
  -- SCRUB_LAST
  ⟨0x0e85, 0, 0, true, .u32, .r, .no, .r, .r, 0, 0, .V, 0, 4294967295, .abc⟩,
  -- ECC_COUNT
  ⟨0x0e90, 1, 2, false, .u32, .r, .no, .r, .r, 0, 0, .V, 0, 4294967295, .abc⟩]

/-- Every row, area by area. -/
def Dict.area : Nat → List ObjRow
  | 0 => Dict.rows0_0 ++ Dict.rows0_1
  | 1 => Dict.rows1_0
  | 2 => Dict.rows2_0 ++ Dict.rows2_1 ++ Dict.rows2_2 ++ Dict.rows2_3 ++ Dict.rows2_4
  | 3 => Dict.rows3_0 ++ Dict.rows3_1 ++ Dict.rows3_2
  | 4 => Dict.rows4_0 ++ Dict.rows4_1
  | 5 => Dict.rows5_0
  | 6 => Dict.rows6_0 ++ Dict.rows6_1
  | 7 => Dict.rows7_0
  | 8 => Dict.rows8_0 ++ Dict.rows8_1
  | 9 => Dict.rows9_0 ++ Dict.rows9_1
  | 10 => Dict.rowsA_0 ++ Dict.rowsA_1
  | 11 => Dict.rowsB_0 ++ Dict.rowsB_1 ++ Dict.rowsB_2
  | 12 => Dict.rowsC_0
  | 13 => Dict.rowsD_0 ++ Dict.rowsD_1
  | 14 => Dict.rowsE_0
  | _ => []

/-- All rows of the dictionary. -/
def Dict.all : List ObjRow := (List.range 16).flatMap Dict.area

/-- The row of a key, in any variant. -/
def Dict.row? (k : Nat) : Option ObjRow :=
  (Dict.area (k / 65536)).find? fun r => r.index == k / 256 && decide (r.first ≤ k % 256) && decide (k % 256 ≤ r.last)

/-- The default content of a key (R611): what a V object holds after a reset that clears it, and a P object without a
journal entry. 0 for a key that is no object. -/
def Dict.default (k : Nat) : Nat :=
  match Dict.row? k with
  | some r => r.dflt + r.step * (k % 256 - r.first)
  | none => 0

/-- Does a variant have the objects of a row? (R2, R5 to R8, R135) -/
def Presence.has (p : Presence) (v : Variant) : Bool :=
  match p, v with
  | .abc, _ => true
  | .ab, .A => true
  | .ab, .B => true
  | .ab, .C => false
  | .a, .A => true
  | .a, _ => false
  | .c, .C => true
  | .c, _ => false

/-- The access code of a master for a row. Q writes whatever H or T may write (R595). -/
def ObjRow.access (r : ObjRow) (m : Master) : Access :=
  match m with
  | .H => r.accH
  | .S => r.accS
  | .T => r.accT
  | .F => r.accF
  | .Q => .no

/-- May the code read? (R14) -/
def Access.reads : Access → Bool
  | .r => true
  | .rw => true
  | .rc => true
  | .w => false
  | .no => false

/-- May the code write? (R14) -/
def Access.writes : Access → Bool
  | .w => true
  | .rw => true
  | .r => false
  | .rc => false
  | .no => false

/-- Bytes of a fixed-size type (R587). STR and DOMAIN have none. -/
def ObjType.size : ObjType → Option Nat
  | .bool => some 1
  | .u8 => some 1
  | .u16 => some 2
  | .u32 => some 4
  | .u64 => some 8
  | .i16 => some 2
  | .i32 => some 4
  | .enum8 => some 1
  | .bits16 => some 2
  | .bits32 => some 4
  | .str => none
  | .domain => none

/-- Is the object of a key persisted (Persist code P, R15)? -/
def Dict.persisted (k : Nat) : Bool :=
  match Dict.row? k with
  | some r => r.persist == .P
  | none => false

/-- Is the object of a key volatile (Persist code V, R15)? -/
def Dict.volatile (k : Nat) : Bool :=
  match Dict.row? k with
  | some r => r.persist == .V
  | none => true

end Sys2Proof.Machine
end

