-- ==== Sys2Proof/Machine/Service.lean ====
section
/-!
DEFINITION. Service.lean: the plain-data records of the flash manager, the watchdog, the object server's transfers, the CAN controllers,
the LIN node and the diagnostic server.
-/
namespace Sys2Proof.Machine

/-- A trouble code (R670). `snap1` and `snap2` are the 14 bytes of the first and the latest snapshot. -/
structure Dtc where
  /-- SOURCE * 256 + KIND. -/
  code : Nat
  status : Nat := 0
  count : Nat := 0
  cls : Nat := 0
  /-- Operation cycles since the last RAISE. -/
  cycles : Nat := 0
  first : Nat := 0
  last : Nat := 0
  snap1 : List Byte := []
  snap2 : List Byte := []
  /-- Raised in this operation cycle, and in the one before (R669). -/
  now : Bool := false
  prev : Bool := false
  /-- Operation cycles without a RAISE in which testFailed was 0, and testFailed at the start of the present one (R670). -/
  quiet : Nat := 0
  failed : Bool := false
  deriving DecidableEq, Repr

/-- The external flash and its manager (R711-R722). Sizes are data bytes. -/
structure Flash where
  formatted : Bool := false
  formatNo : Nat := 0
  /-- The size in MB that the header states (R715). -/
  size : Nat := 16
  /-- Journal entries as committed (values one up), with the trouble codes. -/
  entries : Store := []
  dtcs : List Dtc := []
  /-- DOMAIN P objects as committed: HZ_BASE. -/
  hzBase : Store := []
  recSeq : Nat := 0
  /-- Data bytes written to the journal ring since the format, and the starts of the last two complete checkpoints. -/
  head : Nat := 0
  ckpt : Nat := 0
  ckptPrev : Nat := 0
  /-- A checkpoint follows the next commit (R722). -/
  ckptDue : Bool := false
  /-- Entries in the records since the latest checkpoint, its own included; and a record without a valid CRC stands at the end, left by
  a reset that struck a commit (R717, R733). -/
  live : Nat := 0
  torn : Bool := false
  /-- The last journal record written, as R716 lays it out. -/
  record : List Byte := []
  /-- Highest ERASE_COUNT of regions 1-5, and data bytes written to the archive. -/
  wear : List Nat := [0, 0, 0, 0, 0]
  archived : Nat := 0
  /-- Sectors retired for failures by region, sectors that have failed once, and thresholds already reported (80, 90, 100). -/
  retired : List (Nat × Nat) := []
  failed : List Nat := []
  limit : Nat := 0
  /-- Bank copies to be rewritten at the next Park entry (R722). -/
  rewrite : List Nat := []
  deriving DecidableEq, Repr

/-- The watchdog (R563-R577): the configuration of the present period and the nFAILOVER pulse. -/
structure Watchdog where
  period : Nat := 100000
  open_ : List Nat := []
  close : List Nat := []
  enable : Nat := 0xFF
  owner : List Nat := []
  /-- Ticks of the present period already seen. -/
  tick : Nat := 0
  /-- The instant at which a period begun by a violation has its tick 0: what else falls into the violating tick is discarded (R571). -/
  quiet : Nat := 0
  /-- WD_FAILOVER_W in force. -/
  failW : Nat := 1000
  /-- nFAILOVER is low, and the instant at which the later of the watchdog's and the Overcast pulse ends (R533, R573). -/
  pulse : Nat := 0
  pulseEnd : Nat := 0
  /-- The always-on copy of WD_FAILOVER_W (R577). -/
  width : Option Nat := none
  /-- Since their last check-ins: the planner has completed a pass, the collector has passed its self-loop, and the fabric ports (bit 0
  East, bit 1 West) that have still to serve the queue found then (R568). -/
  planner : Bool := true
  collector : Bool := true
  unserved : Nat := 0
  deriving DecidableEq, Repr

/-- A write transfer of a STR or DOMAIN object in progress (R589). `who`: 1 H, 2 S, 3 T, 4 F. -/
structure Transfer where
  who : Nat
  key : Nat
  data : List Byte := []
  deriving DecidableEq, Repr

/-- A read snapshot (R590). -/
structure Snapshot where
  who : Nat
  key : Nat
  data : List Byte
  deriving DecidableEq, Repr

/-- The object server apart from its objects: transfers, snapshots, and the answer to the last direct access. -/
structure Server where
  transfers : List Transfer := []
  snaps : List Snapshot := []
  code : Nat := 0
  data : List Byte := []
  deriving DecidableEq, Repr

/-- A CAN frame in a transmit queue. -/
structure CanFrame where
  id : Nat
  notify : Bool := false
  /-- An FD frame, and one sent with bit-rate switching (R625, R648). -/
  fd : Bool := true
  brs : Bool := false
  data : List Byte
  deriving DecidableEq, Repr

/-- The bit timing of one phase, in time quanta of the 40 MHz kernel clock over the prescaler (R622): the sample point counts from the
start of the bit, and phase segment 2 is the rest. -/
structure BitTiming where
  presc : Nat := 2
  quanta : Nat := 40
  sample : Nat := 32
  sjw : Nat := 8
  deriving DecidableEq, Repr

/-- A CAN controller (R618-R634): the configuration in force, the queue, the answers of the last 100 ms. -/
structure Can where
  nom : Nat := 2
  data : Nat := 2
  spNom : Nat := 80
  spData : Nat := 75
  nomBit : BitTiming := {}
  dataBit : BitTiming := { presc := 1, quanta := 20, sample := 15, sjw := 5 }
  /-- Transmitter delay compensation runs (R622). -/
  tdc : Bool := true
  queue : List CanFrame := []
  sent : Option CanFrame := none
  /-- The identifiers in force: CAN_ID (R623). -/
  ids : List Nat := [0x6A0, 0x6A8, 0x6B0, 0x6B8, 0x6BC]
  /-- Answers kept for a repetition: request identifier (0 host, 1 tester), TXN, time, frames (R628). -/
  answered : List (Nat × Nat × Nat × List CanFrame) := []
  /-- Frames of a READ_BLOCK that the queue has no room for yet. -/
  later : List CanFrame := []
  /-- Blocks of a WRITE_BLOCK still to come: request identifier, TXN, frames left. -/
  block : Option (Nat × Nat × Nat) := none
  /-- Responses that wait, with what for, as in the diagnostic server. -/
  held : List (Nat × CanFrame) := []
  overAt : Option Nat := none
  lost : Nat := 0
  offs : Nat := 0
  deriving DecidableEq, Repr

/-- Notifications (R632). -/
structure Notify where
  count : Nat := 0
  reason : Nat := 0
  lastAt : Option Nat := none
  deriving DecidableEq, Repr

/-- The LIN node in the always-on domain (R635-R645), on its working copies. -/
structure Lin where
  cfg : Nat := 3
  nad : Nat := 0x4C
  pid : List Nat := [0x20, 0x21, 0x22, 0x23]
  /-- A copy differs from its object since a configuration service was carried out without the shell. -/
  changed : Bool := false
  /-- The response for the next slave response header, and OBJ_RSP as it stands. -/
  slave : Option (List Byte) := none
  rsp : Option (List Byte) := none
  /-- The OBJ_REQ that the shell has carried out and whose OBJ_RSP has not gone out (R646). -/
  req : Option (List Byte) := none
  /-- The last frame published. -/
  out : List Byte := []
  respErr : Bool := false
  sleep : Bool := false
  /-- Wake-up signals sent in this block, and blocks sent; the node still has signals to send. -/
  wakes : Nat := 0
  blocks : Nat := 0
  wakeDue : Bool := false
  /-- An access whose answer waits (R638): what for, as in the diagnostic server, and the answer. -/
  held : Option (Nat × List Byte) := none
  short : Bool := false
  sumAt : Option Nat := none
  deriving DecidableEq, Repr

/-- A download (R663, R664). -/
structure Download where
  size : Nat
  data : List Byte := []
  next : Nat := 1
  deriving DecidableEq, Repr

/-- The diagnostic server (R647-R675). -/
structure Uds where
  /-- Level and bytes of the seed that awaits its key. -/
  seed : Option (Nat × List Byte) := none
  /-- The exchange in progress runs in FD frames: the format of its first frame. -/
  fd : Bool := false
  /-- A message being received: length, bytes so far, consecutive frames so far. -/
  rx : Option (Nat × List Byte × Nat) := none
  /-- A message being sent: bytes left, consecutive frames sent, WAIT frames taken; and the frames that may go (0: the device
  waits for flow control). -/
  tx : Option (List Byte × Nat × Nat) := none
  allow : Nat := 0
  /-- The tester's STmin in ticks, and the time before which the next consecutive frame does not go (R649). -/
  st : Nat := 0
  nextAt : Nat := 0
  /-- The last response, whole. -/
  resp : List Byte := []
  /-- A positive response that waits: 1 for the journal commit, 2 for a table image in flash, 3 for the OTP. -/
  waiting : Option (Nat × List Byte) := none
  download : Option Download := none
  /-- Routines started: bit 0 calibration, 1 epoch, 2 moisture, 3 switch; the port under test and whether its burst is done. -/
  routines : Nat := 0
  testPort : Nat := 0
  testDone : Bool := false
  /-- The reset to drive after the response: 1 soft, 2 hard. -/
  reset : Nat := 0
  /-- DTCs by code. -/
  dtcs : List Dtc := []
  /-- The identifiers in force (R647): DIAG_ID. -/
  ids : List Nat := [0x740, 0x7C0, 0x748]
  deriving DecidableEq, Repr

end Sys2Proof.Machine
end

