-- ==== Sys2Proof/Machine/State.lean ====
section
/-!
DEFINITION. State.lean: the whole state of the block as plain data, the outcomes of a stop, and the state at power-on.
-/
namespace Sys2Proof.Machine

/-- Reasons to fault: the spec gives every command of the table an effect, so there is none. -/
inductive Fault where
  deriving DecidableEq, Repr

/-- Reasons to refuse a command. -/
inductive Refusal where
  /-- Raised by an arm of `exec` whose command has no meaning in this model. Safe: the block stops. -/
  | notModelled (mnemonic : String)
  deriving DecidableEq, Repr

/-- The machine. -/
structure State where
  /-- Commands waiting, first in, first out. -/
  pending : List Instr := []
  /-- Time in 5 ns ticks. The model's own clock: it advances when the block idles. -/
  now : Nat := 0
  /-- REC_TIME (R427), which a power-on reset clears. -/
  recTime : Nat := 0
  /-- The model's own counter of open values already drawn. -/
  free : Nat := 0
  /-- Object values that differ from their defaults, by key index * 256 + sub-index. -/
  objs : Store := []
  core : Core := {}
  grp : Four GroupSt := ⟨{}, {}, {}, {}⟩
  ph : Vector Phase 16 := Vector.replicate 16 {}
  aon : AlwaysOn := {}
  cell : Retention := {}
  strat : Stratus := {}
  mode : ModeSt := {}
  src : SourceSt := {}
  col : Collector := {}
  /-- Fault records by slot (R509), in the retained area. -/
  recs : List (Nat × FaultRec) := []
  spd : SpeedSt := {}
  jrnl : Journal := {}
  otp : Otp := {}
  meas : Meas := {}
  ring : Recorder := {}
  /-- Captures in the flash archive, newest first (R433). -/
  archive : List Capture := []
  thm : Thermal := {}
  hz : Horizon := {}
  hour : HourAcc := {}
  parkAcc : ParkAcc := {}
  /-- The life log in flash, newest first: 32-byte records (R496). -/
  log : List (List Byte) := []
  /-- A log record whose write failed, to be retried (R497). -/
  logRetry : List (List Byte) := []
  tabs : Tables := {}
  env : Env := {}
  chg : Charger := {}
  link : Two LinkPort := ⟨{}, {}⟩
  fab : Fabric := {}
  /-- Sequencers SQ0-SQ4. -/
  seqs : Vector Seq 5 := Vector.replicate 5 {}
  flash : Flash := {}
  wd : Watchdog := {}
  srv : Server := {}
  can : Pair Can := ⟨{}, {}⟩
  note : Notify := {}
  lin : Lin := {}
  uds : Uds := {}
  deriving DecidableEq, Repr

/-- The machine with power-on reset asserted: nothing placed, every register at its default, BRINGUP_STEP at 1 (R65). -/
def State.reset : State := { objs := [(Obj.BRINGUP_STEP, 1)] }

end Sys2Proof.Machine
end

