-- ==== Sys2Proof/Machine/Ops.lean ====
section
/-!
DEFINITION. Ops.lean: the named operations that every meaning shares: object values, journal entries, fault messages,
open values, variants, times, groups and phases.
-/
namespace Sys2Proof.Machine

/-! ### Time -/

def us (n : Nat) : Nat := 200 * n
def ms (n : Nat) : Nat := 200000 * n
def sec (n : Nat) : Nat := 200000000 * n

/-! ### Objects -/

/-- The value in force of an object held as data. -/
def State.obj (s : State) (k : Nat) : Nat := s.objs.read Dict.default k

/-- Put a value into an object. -/
def State.set (s : State) (k v : Nat) : State := { s with objs := s.objs.write Dict.default k v }

/-- Place a journal entry for a key (R605). Entries are held one up, so 0 means no entry. Without a flash it is not persisted (R609). -/
def State.journal (s : State) (k v : Nat) : State :=
  let s := { s with jrnl := { s.jrnl with buf := s.jrnl.buf.write (fun _ => 0) k (v + 1) } }
  if s.obj Obj.OD_JOURNAL = 0 then s.set Obj.OD_JOURNAL (if s.obj Obj.FLASH_STATE = 0 then 3 else 1) else s

/-- A P object takes a new value and its journal entry. -/
def State.put (s : State) (k v : Nat) : State := (s.set k v).journal k v

/-- A P counter advances by one, held at its type's top. -/
def State.count (s : State) (k top : Nat) : State := s.put k (satInc top (s.obj k))

/-- A V counter advances by one, held at its type's top. -/
def State.tally (s : State) (k top : Nat) : State := s.set k (satInc top (s.obj k))

/-- A signed object's value in `w` bits. -/
def State.setI (s : State) (k w : Nat) (i : Int) : State := s.set k (toCode w i)

/-- Objects from `k` at their defaults again, for every key that satisfies `p`. -/
def State.resetObjs (s : State) (p : Nat → Bool) : State := { s with objs := s.objs.clearWhere p }

/-! ### Open values -/

/-- The next open value, below `2 ^ w`. -/
def State.draw (s : State) (w : Nat) : Nat × State :=
  ((Config.freeValue s.free).toNat % 2 ^ w, { s with free := s.free + 1 })

/-! ### Variants (R1, R2, R11) -/

def State.variant (s : State) : Variant :=
  match s.obj Obj.VARIANT with
  | 1 => .A
  | 2 => .B
  | _ => .C

def State.hasGroup (s : State) : Group → Bool
  | .input => true
  | .pack => true
  | _ => s.variant == .A

/-- The groups of the variant, in sub-index order. -/
def State.groups (s : State) : List Group := Group.all.filter s.hasGroup

/-- The phases of a group in phase-number order (R2, R22). -/
def State.phasesOf (s : State) : Group → List Nat
  | .input => if s.variant == .C then [0, 1, 2, 3] else [0, 1, 2, 3, 4, 5]
  | .pack => if s.variant == .C then [6, 7, 8, 9] else [6, 7, 8, 9, 10, 11]
  | .east => if s.variant == .A then [12, 13] else []
  | .west => if s.variant == .A then [14, 15] else []

/-- The number of a group's first phase. -/
def baseOf : Group → Nat
  | .input => 0
  | .pack => 6
  | .east => 12
  | .west => 14

/-- The group that owns a phase. -/
def groupOf (p : Nat) : Group :=
  if p < 6 then .input else if p < 12 then .pack else if p < 14 then .east else .west

/-- The trimmed typical ring count (R106, R725). -/
def State.otpTypCount (s : State) : Nat := if s.obj (Obj.OTP_STATE 2) = 2 then s.otp.cTyp else 4096

/-! ### Groups and phases -/

def State.g (s : State) (x : Group) : GroupSt := s.grp.get x

def State.modG (s : State) (x : Group) (f : GroupSt → GroupSt) : State :=
  { s with grp := s.grp.put x (f (s.grp.get x)) }

def State.allG (s : State) (f : GroupSt → GroupSt) : State :=
  { s with grp := ⟨f s.grp.input, f s.grp.pack, f s.grp.east, f s.grp.west⟩ }

def State.phase (s : State) (p : Nat) : Phase := s.ph.getD p {}

def State.modP (s : State) (p : Nat) (f : Phase → Phase) : State :=
  { s with ph := s.ph.setIfInBounds p (f (s.phase p)) }

def State.modPs (s : State) (ps : List Nat) (f : Phase → Phase) : State :=
  ps.foldl (fun s p => s.modP p f) s

/-- The applied content of a port word. -/
def State.word (s : State) (id : Nat) : Nat := s.core.words.read (fun _ => 0) id

/-- A phase at Z from the time `now` on. -/
def Phase.toZ (x : Phase) (now : Nat) : Phase :=
  { x with level := .Z, on := false, dead := 0, offAt := if x.level = .Z then x.offAt else some now }

/-- Make a stop reason of a group hold: with any reason every phase stands at Z. -/
def State.stopG (s : State) (x : Group) (bitN : Nat) : State :=
  (s.modG x fun g => { g with stops := setBit g.stops bitN true }).modPs (s.phasesOf x) fun p => p.toZ s.now

/-- End a stop reason of a group; the last one to end makes a group start due (R166). -/
def State.freeG (s : State) (x : Group) (bitN : Nat) : State :=
  s.modG x fun g =>
    let n := setBit g.stops bitN false
    { g with stops := n, start := g.start || (n == 0 && g.stops != 0) }

/-! ### Modes -/

def State.modeNow (s : State) : Nat := s.obj Obj.MODE_STATE
def State.bringing (s : State) : Bool := s.obj Obj.BRINGUP_STEP != 0
/-- The shell runs and is served: released, past step 7 or done, and not treated as absent. -/
def State.shellUp (s : State) : Bool := s.aon.shell && !s.strat.absent
def State.inMode (s : State) (l : List Nat) : Bool := l.contains s.modeNow

/-- The modes in which feedforward is released (R52, R251). -/
def State.ffMode (s : State) : Bool := s.shellUp && !s.bringing && s.inMode [3, 4] && s.obj Obj.TSD_STATE == 0

/-! ### Fault messages (R501-R503, R125) -/

/-- The present instant (R434). -/
def State.stamp (s : State) : Stamp :=
  { time := s.recTime, mode := s.modeNow, src := s.obj Obj.SRC_TYPE, zone := s.obj Obj.PACK_ZONE, band := s.obj Obj.DIE_BAND }

/-- A block offers a message to its queue of the fault bus: four per source, and one more is lost and counted. -/
def State.send (s : State) (m : Msg) : State :=
  if (s.col.bus.filter fun x => x.src == m.src).length < 4 then
    { s with col := { s.col with bus := s.col.bus ++ [m] } }
  else
    { (s.tally Obj.FAULT_LOST 0xFFFFFFFF) with col := { s.col with lost := true } }

/-- The core queues a message in its 16-entry queue; a full queue drops it and sets QUEUE_OVF. -/
def State.enqueue (s : State) (m : Msg) : State :=
  if s.core.queue.length < 16 then { s with core := { s.core with queue := s.core.queue ++ [{ m with stamp := some s.stamp }] } }
  else { s with core := { s.core with queueOvf := true } }

/-- A shell block raises an event. -/
def State.raise (s : State) (src kind inst : Nat) : State := s.send { src, kind, inst := inst % 65536 }

/-- A shell block raises a condition; one that it has raised and not cleared is not raised again. -/
def State.raiseC (s : State) (src kind inst : Nat) : State :=
  let m : Msg := { src, kind, inst := inst % 65536 }
  if s.col.conds.contains m then s
  else { s with col := { s.col with conds := s.col.conds ++ [m] } }.send m

/-- As `raiseC`, with at most one instance of the kind standing. -/
def State.raise1 (s : State) (src kind inst : Nat) : State :=
  if s.col.conds.any fun m => m.src == src && m.kind == kind then s else s.raiseC src kind inst

/-- A shell block's conditions that satisfy `p` end, each with its CLEAR. -/
def State.clearBy (s : State) (p : Msg → Bool) : State :=
  let gone := s.col.conds.filter p
  gone.foldl (fun s m => s.send { m with clear := true })
    { s with col := { s.col with conds := s.col.conds.filter fun m => !p m } }

/-- Every standing instance of a kind ends. -/
def State.clearK (s : State) (src kind : Nat) : State := s.clearBy fun m => m.src == src && m.kind == kind

/-- One instance of a kind ends. -/
def State.clearI (s : State) (src kind inst : Nat) : State :=
  s.clearBy fun m => m.src == src && m.kind == kind && m.inst == inst % 65536

/-- A condition holds or not. -/
def State.condition (s : State) (src kind inst : Nat) (holds : Bool) : State :=
  if holds then s.raise1 src kind inst else s.clearK src kind

/-- The core sends a message: to its queue while the shell is absent, to the bus otherwise. -/
def State.coreSend (s : State) (m : Msg) : State := if s.strat.absent then s.enqueue m else s.send m

/-- The core, or a hardwired action, raises an event. -/
def State.coreRaise (s : State) (src kind inst : Nat) : State := s.coreSend { src, kind, inst := inst % 65536 }

/-- The core raises a condition. -/
def State.coreRaiseC (s : State) (src kind inst : Nat) : State :=
  let m : Msg := { src, kind, inst := inst % 65536 }
  if s.core.conds.contains m then s
  else { s with core := { s.core with
    conds := s.core.conds ++ [m]
    stratusRaised := if s.strat.absent then s.core.stratusRaised ++ [m] else s.core.stratusRaised } }.coreSend m

/-- The core's conditions that satisfy `p` end. -/
def State.coreClearBy (s : State) (p : Msg → Bool) : State :=
  let gone := s.core.conds.filter p
  gone.foldl (fun s m => s.coreSend { m with clear := true })
    { s with core := { s.core with conds := s.core.conds.filter fun m => !p m } }

def State.coreClearK (s : State) (src kind : Nat) : State :=
  s.coreClearBy fun m => m.src == src && m.kind == kind

def State.coreClearI (s : State) (src kind inst : Nat) : State :=
  s.coreClearBy fun m => m.src == src && m.kind == kind && m.inst == inst % 65536

/-- One more occurrence on the first message of a list that satisfies `p`. -/
def moreOn (p : Msg → Bool) (l : List Msg) : List Msg :=
  match l.findIdx? p with
  | some i => l.modify i fun m => { m with more := m.more + 1 }
  | none => l

/-- An occurrence of a kind that sends no message of its own is counted (R124, R259): on the message that still waits, else in
the record that the kind has, else in the record that it was merged into (R520). -/
def State.again (s : State) (src kind : Nat) : State :=
  let p := fun (m : Msg) => m.src == src && m.kind == kind && !m.clear
  if s.col.bus.any p then { s with col := { s.col with bus := moreOn p s.col.bus } }
  else if s.core.queue.any p then { s with core := { s.core with queue := moreOn p s.core.queue } }
  else if s.col.deliver.any p then { s with col := { s.col with deliver := moreOn p s.col.deliver } }
  else
    let own := fun (e : Nat × FaultRec) => field e.2.first 31 24 == src && field e.2.first 23 16 == kind
    let merged := fun (e : Nat × FaultRec) => e.2.merged && bit e.2.srcs src && e.2.kinds &&& kind == kind
    match s.recs.findIdx? (if s.recs.any own then own else merged) with
    | some i => { s with recs := s.recs.modify i fun (e : Nat × FaultRec) => (e.1, { e.2 with count := satInc 65535 e.2.count }) }
    | none => s

/-- The fault source of a group (R22). -/
def sourceOf (g : Group) : Nat := g.num + 2

/-! ### Tables -/

/-- The applied body of a table kind, where an image is in use. -/
def State.body (s : State) (kind : Nat) : Option (List Byte) :=
  (s.tabs.active.find? fun e => e.1 == kind).map (·.2)

end Sys2Proof.Machine
end

