-- ==== Sys2Proof/Machine/Words.lean ====
section
/-!
DEFINITION. Words.lean: the handshake port (R110-R116): identifiers and ranges, pending and held words, and what applying
a word does to a group (R34, R155). Shared by the core, the groups, the handovers and the power path.
-/
namespace Sys2Proof.Machine

/-! ### Identifiers and ranges (R111) -/

/-- The groups that use a port word (R110). -/
def State.wordGroups (s : State) (id : Nat) : List Group :=
  if id = 0 then s.groups
  else if id = 1 then [.input]
  else if id = 2 ∨ id = 5 ∨ id = 6 then [.pack]
  else if id = 3 ∨ id = 7 then [.east]
  else if id = 4 ∨ id = 8 then [.west]
  else if 9 ≤ id ∧ id ≤ 12 then [.input]
  else if 16 ≤ id ∧ id ≤ 31 then [groupOf (id - 16)]
  else if 32 ≤ id ∧ id ≤ 47 then (Group.ofNum? (id % 4)).toList
  else []

/-- An ID of a latch or timing word that the variant has (R111). -/
def State.wordDefined (s : State) (id : Nat) : Bool :=
  if 16 ≤ id ∧ id ≤ 31 then (s.phasesOf (groupOf (id - 16))).contains (id - 16)
  else (s.wordGroups id).any s.hasGroup

/-- Phases counted in the order code of a group (R148). -/
def spanOf : Group → Nat
  | .input => 6
  | .pack => 6
  | _ => 2

/-- The number of ordered choices of `n` from `k`. -/
def choices : Nat → Nat → Nat
  | _, 0 => 1
  | k, n + 1 => k * choices (k - 1) n

/-- The VALUE of a word is inside its identifier's range (R111). -/
def wordInRange (id v : Nat) : Bool :=
  if id = 0 then 480 ≤ v ∧ v ≤ 1600
  else if id = 1 ∨ id = 2 then v ≤ 3600
  else if 3 ≤ id ∧ id ≤ 6 then v ≤ 1200
  else if id = 7 ∨ id = 8 then
    field v 21 16 == 0 &&
      (match field v 23 22 with
       | 0 => field v 15 0 == 0 || (40 ≤ field v 15 8 && field v 15 8 ≤ 108 && 1 ≤ field v 7 0 && field v 7 0 ≤ 80)
       | 3 => false
       | _ => 40 ≤ field v 15 8 && field v 15 8 ≤ 108 && 1 ≤ field v 7 0 && field v 7 0 ≤ 80)
  else if id = 9 ∨ id = 12 then v ≤ 1600
  else if id = 10 ∨ id = 11 then field v 15 0 ≤ 1600 && 1 ≤ field v 23 16
  else if 16 ≤ id ∧ id ≤ 31 then true
  else if 32 ≤ id ∧ id ≤ 35 then 200 ≤ field v 11 0 && field v 11 0 ≤ 2200 && field v 17 16 != 3
  else if 36 ≤ id ∧ id ≤ 39 then 4 ≤ field v 21 16 && field v 23 22 == 0
  else if 40 ≤ id ∧ id ≤ 43 then
    1 ≤ field v 23 18 && field v 23 18 ≤ 50 && field v 15 14 != 3 && field v 13 12 == 0
  else if 44 ≤ id ∧ id ≤ 47 then
    let g := (Group.ofNum? (id % 4)).getD .input
    let n := field v 15 13
    (1 ≤ field v 23 19 || n == 0) && n ≤ (spanOf g) &&
      (if n == 0 then field v 12 10 == 0 else 1 ≤ field v 12 10 && field v 12 10 ≤ n) &&
      field v 9 0 < choices (spanOf g) n
  else false

/-! ### The ORDER word -/

/-- The member of rank `c` of a rising list, and the list without it. -/
def pick (l : List Nat) (c : Nat) : Nat × List Nat := (l.getD c 0, l.eraseIdx c)

/-- The digits of an order code, first choice first (R148). -/
def orderDigits (g : Nat) : Nat → Nat → List Nat
  | 0, _ => []
  | n + 1, code => orderDigits g n (code / (g - n)) ++ [code % (g - n)]

/-- The indices that an order code names, in position order (R148). -/
def decodeOrder (g n code : Nat) : List Nat :=
  ((orderDigits g n code).foldl
    (fun acc c => let (x, rest) := pick acc.2 c; (acc.1 ++ [x], rest)) (([] : List Nat), List.range g)).1

/-- The order code of the indices `l` (R148). -/
def encodeOrder (g : Nat) (l : List Nat) : Nat :=
  (l.foldl (fun (acc : Nat × Nat × List Nat) x =>
    let (code, i, unused) := acc
    (code * (g - i) + (unused.filter (· < x)).length, i + 1, unused.filter (· != x)))
    (0, 0, List.range g)).1

def orderWord (s : State) (g : Group) : Nat := s.word (44 + g.num)
def State.addI (s : State) (g : Group) : Nat := 2000 * field (orderWord s g) 23 19
def State.nMin (s : State) (g : Group) : Nat := field (orderWord s g) 12 10
def State.nEn (s : State) (g : Group) : Nat := field (orderWord s g) 15 13

/-- Phases at non-zero weight. -/
def State.running (s : State) (g : Group) : List Nat := (s.phasesOf g).filter fun p => (s.phase p).weight != 0

/-- Phases at weight 1. -/
def State.nAct (s : State) (g : Group) : Nat := ((s.phasesOf g).filter fun p => (s.phase p).weight == 4).length

/-- Enabled phases that are not LATCHED (R149). -/
def State.nAv (s : State) (g : Group) : Nat :=
  ((s.phasesOf g).filter fun p => (s.phase p).pos != 0 && (s.phase p).code != 5).length

/-- Phases of a group in position order. -/
def State.byPos (s : State) (g : Group) : List Nat :=
  ((List.range 7).drop 1).flatMap fun n => (s.phasesOf g).filter fun p => (s.phase p).pos == n

/-- N_req of R149 for a command of magnitude `i` mA. -/
def State.nReq (s : State) (g : Group) (i : Nat) : Nat :=
  if field (orderWord s g) 23 19 = 31 then min (s.nAv g) (s.nMin g)
  else min (s.nAv g) (max (s.nMin g) (if s.addI g = 0 then 0 else ceilDiv i (s.addI g)))

/-- The set of phases at non-zero weight has changed: balancing stands still for 16 boundaries (R160). -/
def State.setChanged (s : State) (g : Group) : State := s.modG g fun x => { x with frozenLeft := 16 }

/-- An ORDER word is applied: positions, phases enabled and disabled, the release of latched phases (R155, R122). Phases beyond
N_req follow at the same boundary. -/
def State.applyOrder (s : State) (g : Group) (v : Nat) : State :=
  let order := decodeOrder (spanOf g) (field v 15 13) (field v 9 0)
  let posOf := fun p => (order.findIdx? (· == p - baseOf g)).elim 0 (· + 1)
  let s1 := { s with core := { s.core with words := s.core.words.write (fun _ => 0) (44 + g.num) v } }
  let s2 := (s.phasesOf g).foldl (fun s p => s.modP p fun x =>
    let n := posOf p
    if n = 0 then
      if x.weight != 0 then { x with pos := 0, code := 4, weight := min x.weight 3 }
      else { x with pos := 0, code := 0, zeroBad := false, latched := false }
    else if x.code = 0 then { x with pos := n, code := 1 }
    else if x.code = 5 then { x with pos := n, code := 1, zeroBad := false, latched := false, peakRun := 0 }
    else { x with pos := n }) s1
  let s3 := s2.modG g fun x => { x with reorder := true }
  (s3.coreClearBy fun m => m.src == 1 && (m.kind == 2 || m.kind == 3) &&
      (s.phasesOf g).contains m.inst).coreClearBy fun m => m.src == sourceOf g && m.kind == 3

/-- The period of a frequency in 0.1 kHz, and of the quotient `a / b`, in steps of 60 ps. -/
def periodOfQ (a b : Nat) : Nat := if a = 0 then 0 else (2 * 10000000000 * b + 60 * a) / (120 * a)
def periodOf (f : Nat) : Nat := periodOfQ f 1

/-- The frequency of a period, 0.1 kHz. -/
def freqOf (p : Nat) : Nat := if p = 0 then 0 else (2 * 10000000000 + 60 * p) / (120 * p)

/-- A group's period, with the frequency that it makes. -/
def GroupSt.atPeriod (x : GroupSt) (p : Nat) : GroupSt := { x with period := p, freq := freqOf p }

/-- A FREQ word is applied (R36, R172, R176, R177). A group without an oscillator starts at f_set; on its own oscillator it
takes f_set at once; a reference is acquired from the present period; a group that leaves its reference slews to f_set. -/
def State.applyFreq (s : State) (g : Group) (v : Nat) : State :=
  let own := field v 17 16 == 0
  let same := field (s.word (32 + g.num)) 23 20 == field v 23 20 && field (s.word (32 + g.num)) 17 16 == field v 17 16 &&
    field (s.word (32 + g.num)) 11 0 == field v 11 0
  let f := 10 * field v 11 0
  s.modG g fun x =>
    if x.period = 0 then { x.atPeriod (periodOf f) with sync := if own then 0 else 1, spread := 0, lockRun := 0 }
    else if own then
      if x.sync = 0 then (if same then x else { x.atPeriod (periodOf f) with spread := 0 })
      else { x with sync := 3, freqLoss := x.freq, slewed := 0 }
    else if x.sync = 2 && same then x
    else { x with sync := 1, lockRun := 0 }

/-- A TRIM word is applied (R158): with BAL_EN = 0 the trim is held at 0 (R159). -/
def State.applyTrim (s : State) (p v : Nat) : State :=
  s.modP p fun x => { x with trim := if !bit v 22 then 0 else if bit v 23 then ofCode 13 (field v 12 0) else x.trim }

/-- What one group does with a word at its boundary (R34, R112). -/
def State.applyWord (s : State) (g : Group) (id v : Nat) : State :=
  if id = 0 then s.modG g fun x => { x with railV := v }
  else if 16 ≤ id ∧ id ≤ 31 then s.applyTrim (id - 16) v
  else if 32 ≤ id ∧ id ≤ 35 then s.applyFreq g v
  else if 44 ≤ id then s.applyOrder g v
  else s

/-- The word's content is in force in every group that uses it. -/
def State.keepWord (s : State) (id v : Nat) : State :=
  { s with core := { s.core with words := s.core.words.write (fun _ => 0) id v } }

/-- A group applies every pending, unheld word that waits for it (R34, R113). -/
def State.applyAll (s : State) (g : Group) : State :=
  s.core.pend.foldl (fun s w =>
    if !w.held && w.wait.contains g then
      let s := s.applyWord g w.id w.value
      let wait := w.wait.filter (· != g)
      let s := if wait.isEmpty then s.keepWord w.id w.value else s
      { s with core := { s.core with pend := s.core.pend.flatMap fun x =>
          if x.id = w.id then (if wait.isEmpty then [] else [{ x with wait := wait }]) else [x] } }
    else s) s

/-- Groups without a running oscillator apply what is pending for them at once (R36). -/
def State.applyIdle (s : State) (idle : List Group) : State := idle.foldl (fun s g => s.applyAll g) s

/-- The groups without a running oscillator. -/
def State.idleGroups (s : State) : List Group := s.groups.filter fun g => (s.g g).freq == 0

/-- The core accepts a word as pending (R35, R113). -/
def State.accept (s : State) (id v : Nat) (hold : Bool) : State :=
  let was := (s.core.pend.find? fun w => w.id == id).elim false (·.held)
  let w : PendWord := { id := id, value := v, held := hold || was, wait := (s.wordGroups id).filter s.hasGroup }
  let idle := s.idleGroups
  let s := { s with core := { s.core with
    pend := (s.core.pend.filter fun x => x.id != id) ++ [w], refused := none } }
  -- a write of IPACK_CHG or IPACK_DIS ends the stop of a pack removal (R292)
  let s := if id = 5 ∨ id = 6 then s.freeG .pack 7 else s
  if w.held then s else s.applyIdle idle

/-- The core refuses a word: signal, fault 0x0A, previous content kept (R111). -/
def State.refuse (s : State) (id : Nat) : State :=
  { s with core := { s.core with refused := some id } }.coreRaise 1 0x0A id

/-- COMMIT releases every held word (R113, R36). -/
def State.commitWords (s : State) : State :=
  let idle := s.idleGroups
  { s with core := { s.core with pend := s.core.pend.map fun (w : PendWord) => { w with held := false } } }.applyIdle idle

/-- The shell writes a word. -/
def State.portWord (s : State) (id v : Nat) (hold : Bool) : State :=
  if s.wordDefined id && wordInRange id v && v < 2 ^ 24 then s.accept id v hold else s.refuse id

/-- The shell writes a word that differs from the applied content, at no more than its range. -/
def State.portWrite (s : State) (id v : Nat) : State := s.portWord id v false

/-- A group has left Stratus; the last one clears STRATUS (R130). -/
def State.liftGroup (s : State) (g : Group) : State :=
  let s := s.modG g fun x => { x with stratus := false, lift := false }
  if s.groups.any fun x => (s.g x).stratus || (s.g x).lift then s
  else { s with strat := { s.strat with active := false, link := 0 } }

/-- HANDOVER: held words apply and the Stratus limits are lifted at each group's next boundary (R130). -/
def State.handoverWord (s : State) : State :=
  let idle := s.idleGroups
  let s := s.commitWords
  let s := s.allG fun x => { x with lift := true }
  idle.foldl (fun s g => s.liftGroup g) s

/-! ### Limits in force -/

/-- STRATUS_LIM applies in a group (R126). -/
def State.limited (s : State) (g : Group) (v lim : Nat) : Nat := if (s.g g).stratus then min v lim else v

/-- What a Stratus link limit leaves: all of it for 500 ms, a linear ramp to 0 over 20 ms, nothing after (R126). -/
def State.linkShare (s : State) (g : Group) (v : Nat) : Nat :=
  if !(s.g g).stratus then v
  else if s.strat.link = 2 then 0
  else if s.strat.link = 1 then v * (ms 20 - min (ms 20) (s.now - s.strat.rampAt)) / ms 20
  else v

/-- The current limit in force in a group, 0.1 A, before fold-back. -/
def State.groupLimit (s : State) (g : Group) : Nat :=
  match g with
  | .input => s.limited .input (s.word 1) (s.obj Obj.STRATUS_LIM_IN)
  | .pack => s.limited .pack (s.word 2) (s.obj Obj.STRATUS_LIM_PACKGRP)
  | .east => s.linkShare .east (s.limited .east (s.word 3) (5 * s.obj Obj.STRATUS_LIM_LINK))
  | .west => s.linkShare .west (s.limited .west (s.word 4) (5 * s.obj Obj.STRATUS_LIM_LINK))

def State.chargeLimit (s : State) : Nat := if (s.g .pack).stratus then 0 else s.word 5
def State.dischargeLimit (s : State) : Nat := s.limited .pack (s.word 6) (s.obj Obj.STRATUS_LIM_PACK_DIS)

/-- The contract in force in the core on a port, with the Stratus values while they apply (R126). -/
def State.contract (s : State) (p : Port) : Nat :=
  let w := s.word (7 + p.num)
  if (s.g p.group).stratus then
    if s.strat.link == 2 then 0
    else w - field w 7 0 + min (field w 7 0) (s.obj Obj.STRATUS_LIM_LINK)
  else w

/-- A contract's voltage in mV, and its direction. -/
def State.contractV (s : State) (p : Port) : Nat := 500 * field (s.contract p) 15 8
def State.consumer (s : State) (p : Port) : Bool := field (s.contract p) 23 22 == 2
def State.provider (s : State) (p : Port) : Bool := field (s.contract p) 23 22 == 1

/-! ### DISC_GATE (R204, R205) -/

/-- DISC_GATE goes off: the input group pauses and holds Z. -/
def State.discOff (s : State) : State :=
  { (s.stopG .input 0) with core := { s.core with disc := false, precharge := false, gateOff := false } }

/-- DISC_GATE on under R204, with a closed-loop precharge while VRAIL_S is more than 2.0 V below VBUS_S. The input group holds Z. -/
def State.discOn (s : State) (vbus vrail : Nat) : State :=
  if vbus < 6000 ∨ 60000 < vbus then s
  else
    let s : State := { s.stopG .input 8 with core := { s.core with
      disc := true, precharge := decide (vrail + 2000 < vbus), dropped := false, dumped := false, gateOff := false } }
    s.freeG .input 0

/-- The turn-on is complete: the input group starts under R166. -/
def State.discDone (s : State) : State := if s.core.disc && !s.core.precharge then s.freeG .input 8 else s

/-- DISC_GATE goes off for R31 or for a persisting rail over-voltage; the source stays connected. -/
def State.gateOpen (s : State) : State :=
  if s.core.disc then { s.discOff with core := { s.core with disc := false, precharge := false, gateOff := true } } else s

/-- The cause of `gateOpen` has ended. -/
def State.gateBack (s : State) (vbus vrail : Nat) : State :=
  if s.core.gateOff && s.core.railOv == 0 && !(s.groups.any fun g => bit (s.g g).stops 1) then (s.discOn vbus vrail).discDone else s

end Sys2Proof.Machine
end

