-- ==== Sys2Proof/Machine/Recorder.lean ====
section
/-!
DEFINITION. Recorder.lean: the squall recorder's streams, its event records, and the core's changes of state as events (R425-R427).
-/
namespace Sys2Proof.Machine


/-- The recorder takes records. -/
def State.recording (s : State) : Bool := s.obj Obj.REC_STATE != 0

/-- The event part holds 196,608 records (R425, R426). -/
def evCap : Nat := 196608

/-- A gap record. -/
def gapWord (t n : Nat) : Nat := (t % 2 ^ 32) * 2 ^ 32 + 0x0C * 2 ^ 24 + n

/-- One more event lost: the gap record that stands last counts it. -/
def State.evLost (s : State) : State :=
  let n := satInc 65535 s.ring.lost
  { s with ring := { s.ring with
    lost := n
    events := match s.ring.events with
      | [] => []
      | e :: r => (e.1, gapWord e.1 n) :: r } }

/-- An event record (R426). While a capture's events fill the part, no more are taken for it (R429). -/
def State.ev (s : State) (type src data : Nat) : State :=
  if !s.recording then s
  else
    let w := (s.recTime % 2 ^ 32) * 2 ^ 32 + type * 2 ^ 24 + (src % 256) * 2 ^ 16 + data % 65536
    match s.ring.open_ with
    | none => { s with ring := { s.ring with events := ((s.recTime, w) :: s.ring.events).take evCap } }
    | some c =>
      if bit c.flags 2 then s.evLost
      else if (s.ring.events.filter fun e => c.t0 ≤ e.1 + ms 500).length + 1 < evCap then
        { s with ring := { s.ring with events := ((s.recTime, w) :: s.ring.events).take evCap } }
      else
        { s with ring := { s.ring with
          events := ((s.recTime, gapWord s.recTime 1) :: s.ring.events).take evCap
          lost := 1, open_ := some { c with flags := setBit c.flags 2 true } } }

/-- Scan records within 524,288 bytes, newest first. -/
def trimScans : Nat → List ScanRec → List ScanRec
  | _, [] => []
  | room, r :: rs => if 8 + 4 * r.words.length ≤ room then r :: trimScans (room - (8 + 4 * r.words.length)) rs else []

/-- The comparator levels that the event type 0x06 reports from the core's state: source and asserted (R426). -/
def State.levels (s : State) : List (Nat × Bool) := [
  (1, s.core.dropped), (2, s.core.dumped), (4, s.core.overRail), (5, s.core.railOv == 1 || s.core.railOv == 2),
  (6, bit (s.g .pack).stops 1), (7, bit (s.g .east).stops 1), (8, bit (s.g .west).stops 1), (9, bit (s.g .pack).stops 7)]

/-- A latch word was applied between two states: its content changed, or it waits no more. -/
def State.took (a b : State) (id : Nat) : Bool :=
  a.word id != b.word id || (a.core.pend.any (·.id == id) && !b.core.pend.any (·.id == id))

/-- A comparator event that is a trigger's T0, with the instant before its action (R428, R434). -/
def State.mark (s : State) (src : Nat) (t : Stamp) : State :=
  { s with ring := { s.ring with marks := ((src, t) :: s.ring.marks).take 64 } }

/-- The changes of core state between two states, as events (R426). -/
def State.logDiff (a b : State) : State :=
  if !b.recording then b
  else
    let s := (List.range 16).foldl (fun s p =>
      if (a.phase p).code = (b.phase p).code then s else s.ev 1 p (b.phase p).code) b
    let s := Group.all.foldl (fun s g =>
      let x := a.g g
      let y := b.g g
      let s := if x.deliver = y.deliver then s else s.ev 2 g.num (b2n y.deliver)
      let s := if x.fold = y.fold then s else s.ev 8 g.num (y.fold / 1000)
      if x.sync = y.sync then s else s.ev 0x0A g.num y.sync) s
    let s := if (a.g .input).pass = (b.g .input).pass then s else s.ev 3 0 (b2n (b.g .input).pass)
    let s := (List.range 48).foldl (fun s i => if a.took b i then s.ev 5 i (b.word i % 65536) else s) s
    let s := b.levels.foldl (fun s x =>
      if a.levels.contains x then s
      else
        let s := s.ev 6 x.1 (b2n x.2)
        if x.2 && x.1 ≤ 2 then s.mark x.1 a.stamp else s) s
    let s := if a.core.disc = b.core.disc then s else s.ev 7 0 (b2n b.core.disc)
    if a.strat.active = b.strat.active then s else s.ev 0x0B 0 (b2n b.strat.active)

/-- A core action with its events. -/
def State.logged (s : State) (f : State → State) : State := s.logDiff (f s)

end Sys2Proof.Machine
end

