-- ==== Sys2Proof/Machine/Groups.lean ====
section
/-!
DEFINITION. Groups.lean: the phase groups: one boundary in order (R164), shedding and adding, fold-back, soft-start, balancing,
synchronisation (R135-R183).
-/
namespace Sys2Proof.Machine

/-! ### Parts of a boundary -/

/-- Discard held words at Stratus entry (R127). -/
def State.dropHeld (s : State) : State :=
  { s with core := { s.core with pend := s.core.pend.filter fun w => !w.held } }

/-- At the first boundary after the shell became absent the group takes the Stratus values (R126). -/
def State.stratusEntry (s : State) (g : Group) : State :=
  if s.strat.absent && !(s.g g).stratus then
    let s := s.dropHeld.modG g fun x => { x with stratus := true, iff := 0 }
    if s.strat.active then s
    else { s with strat := { s.strat with active := true, since := s.now, link := 0 } }
  else s

/-- HANDOVER acknowledged: the group leaves Stratus at this boundary (R130). -/
def State.liftAt (s : State) (g : Group) : State := if (s.g g).lift then s.liftGroup g else s

/-- The fold-back floor, ppm (R143). -/
def State.foldFloor (s : State) (g : Group) : Nat :=
  match field (s.word (40 + g.num)) 17 16 with
  | 0 => 250000
  | 1 => 125000
  | 2 => 375000
  | _ => 500000

/-- The fold-back factor that `q` asks for, ppm (R169). -/
def foldTarget (floor q : Nat) : Nat :=
  if 900000 ≤ q then 1000000
  else if 500000 ≤ q then floor + (1000000 - floor) * (q - 500000) / 400000
  else floor

/-- VRAIL_S is sampled and the factor updated: it falls at once and rises by at most 1/16 (R169, R170). -/
def State.foldUpdate (s : State) (g : Group) (vrail : Nat) : State :=
  let x := s.g g
  let q := if x.vref = 0 then 1000000 else vrail * 1000000000 / x.vref
  let t := if x.deliver && x.stops == 0 then foldTarget (s.foldFloor g) q else 1000000
  s.modG g fun x => { x with vrail := vrail, q := q, fold := if t < x.fold then t else min t (x.fold + 62500) }

/-- What a group's reference slews to, µV: RAIL_V, or the contract's VOLT in a Provider group (R167, R320). -/
def State.vTarget (s : State) (g : Group) : Nat :=
  match g.port? with
  | some p => if s.provider p then 1000 * s.contractV p else (s.g g).railV * 50000
  | none => (s.g g).railV * 50000

/-- How fast a group's reference slews, 0.1 V/ms: SS_RATE, or the contract's SLEW in a Provider group (R167, R335). -/
def State.slewRate (s : State) (g : Group) : Nat :=
  let rate := field (s.word (40 + g.num)) 23 18
  match g.port? with
  | some p =>
    let l := s.link.get p
    let t := l.next.getD l.now
    if s.provider p && t.slew != 0 then t.slew else rate
  | none => rate

/-- The probe ends without a result (R481). -/
def State.probeAbandon (s : State) : State :=
  if s.hz.probe = 2 then
    { s with hz := { s.hz with probe := 0 } }.set Obj.HZ_STATE 1
  else s

/-- The rail was disturbed: a second has to pass before a probe starts (R479), and one that runs is abandoned (R481). -/
def State.railDisturbed (s : State) : State := ({ s with hz := { s.hz with calm := s.now } } : State).probeAbandon

/-- What a running probe adds to a setpoint, µV (R480): 0.25 % above it, then four times below and above it, 20 ms at each level; then the
setpoint again. -/
def State.probeMove (s : State) (g : Group) : Int :=
  let k := (s.now - s.hz.probeAt) / ms 20
  if s.hz.probe = 2 && g.port?.isNone && k < 9 then
    let d : Int := ((s.g g).railV * 125 : Nat)
    if k % 2 = 0 then d else -d
  else 0

/-- The rail has left the setpoint by more than 0.5 %. -/
def State.railOff (s : State) (g : Group) (vrail : Nat) : Bool :=
  let v := (s.g g).railV * 50
  decide (vrail * 1000 < v * 995) || decide (v * 1005 < vrail * 1000)

/-- The reference slews (R167, R168, R335). -/
def State.slewRef (s : State) (g : Group) : State :=
  let target := ((s.vTarget g : Int) + s.probeMove g).toNat
  let step := if (s.g g).freq = 0 then 0 else s.slewRate g * 1000000 / (s.g g).freq
  s.modG g fun x => { x with
    vref := if x.vref < target then min target (x.vref + step) else max target (x.vref - step)
    softCycles := if x.soft then x.softCycles + 1 else x.softCycles
    diode := x.diode && x.soft }

/-! ### The rail's power, allocated (R41, R42, R214, R215) -/

/-- A current in mA at a voltage in mV, as µW. -/
def powerAt (i v : Nat) : Nat := i * v

/-- The limit of a group after fold-back, mA. -/
def State.foldedLimit (s : State) (g : Group) : Nat := s.groupLimit g * 100 * (s.g g).fold / 1000000

/-- What a ramp leaves of a link current's limit: linearly down to 0 (R330, R341). -/
def State.linkFall (s : State) (p : Port) (v : Nat) : Nat :=
  match (s.link.get p).ramp with
  | none => v
  | some (at_, span) => v * (span - min span (s.now - at_)) / span

/-- The current that a group may take from VRAIL to its low side, mA: none for the input group (R24); the pack's charge limit
(R126); a Provider's contract and 10 % (R320). -/
def State.sinkLimit (s : State) (g : Group) : Nat :=
  match g.port? with
  | some p => if s.provider p then s.linkFall p (min (s.foldedLimit g) (550 * field (s.contract p) 7 0)) else 0
  | none => if g = .pack then min (s.foldedLimit .pack) (100 * s.chargeLimit) else 0

/-- A Consumer's import limit, mA: CURR, scaled down linearly between 0.95 and 0.90 of VOLT (R321). -/
def State.importLimit (s : State) (p : Port) (vlink : Nat) : Nat :=
  let i := 500 * field (s.contract p) 7 0
  let v := s.contractV p
  if 95 * v ≤ 100 * vlink then i
  else if 100 * vlink ≤ 90 * v then 0
  else i * (100 * vlink - 90 * v) / (5 * v)

/-- The current that a group may bring from its low side into VRAIL, mA: the pack's discharge limit (R126); a Consumer's import
limit; the discharge of a link without a contract (R312, R338). -/
def State.sourceLimit (s : State) (g : Group) : Nat :=
  match g.port? with
  | some p =>
    if s.consumer p then s.linkFall p (min (s.foldedLimit g) (s.importLimit p (s.g g).vlow))
    else match (s.link.get p).discharge with
      | 1 => min 2000 (s.foldedLimit g)
      | 2 => min 5000 (s.foldedLimit g)
      | _ => 0
  | none => if g = .pack then min (s.foldedLimit .pack) (100 * s.dischargeLimit) else s.foldedLimit .input

/-- A source of the rail: a group that switches, the input group with DISC_GATE on, a link group under a Consumer contract. -/
def State.sourcing (s : State) (g : Group) : Bool :=
  s.hasGroup g && (s.g g).stops == 0 &&
    (g != .input || (s.core.disc && !s.core.precharge && (s.src.cls == 0 || s.src.fromConnected))) &&
    (match g.port? with
     | some p => s.consumer p
     | none => true)

/-- The current that feedforward already brings into VRAIL through a group, mA (R92). -/
def GroupSt.brought (x : GroupSt) : Nat := (-x.iff).toNat

/-- A group's available power: its folded-back current limit, less what feedforward takes of it, times its low-side voltage
(R41, R214). -/
def State.available (s : State) (g : Group) : Nat :=
  if s.sourcing g then powerAt (s.sourceLimit g - (s.g g).brought) (s.g g).vlow else 0

/-- The power that the Provider groups deliver now, at their link terminals, each up to its contract's current (R42). -/
def State.exported (s : State) : Nat :=
  [Port.east, Port.west].foldl (fun n p =>
    if s.provider p && (s.g p.group).stops == 0 then n + powerAt (min (s.g p.group).iv.toNat (500 * field (s.contract p) 7 0)) (s.g p.group).vlow
    else n) 0

/-- The charger's own command as power, from IPACK_CHG (R276). -/
def State.chargePower (s : State) : Nat :=
  if s.hasGroup .pack && (s.g .pack).stops == 0 then powerAt (s.sinkLimit .pack) (s.g .pack).vlow else 0

/-- The power that charges the pack now. -/
def State.packTakes (s : State) : Nat := if (s.g .pack).stops == 0 then powerAt (s.g .pack).iv.toNat (s.g .pack).vlow else 0

/-- The rail's own load: what the voltage loop asks for, less what exports and charging take from the rail. -/
def State.railLoad (s : State) (pv : Int) : Nat := pv.toNat - s.exported - s.packTakes

/-- The charge that the input group leaves room for at this boundary: what it can supply beside its feedforward, less the rail's
own load, then less the exports (R42, R215). -/
def State.chargeRoom (s : State) (pv : Int) : Nat := min s.chargePower (s.available .input - s.railLoad pv - s.exported)

/-- The order of R41: VBUS, link import, the pack. -/
def sourceOrder : List Group := [.input, .east, .west, .pack]

/-- The slow part in the order of R41, each group up to its available power. -/
def shareSlow (avail : Group → Nat) : List Group → Nat → List (Group × Int × Int)
  | [], _ => []
  | g :: l, ps => let n := min ps (avail g); (g, (n : Int), (avail g : Int)) :: shareSlow avail l (ps - n)

/-- The entry with the most headroom: its room is its top less its share. -/
def widest (l : List (Group × Int × Int)) : Option (Group × Int × Int) :=
  l.foldl (fun b e => match b with
    | none => some e
    | some x => if x.2.2 - x.2.1 < e.2.2 - e.2.1 then some e else b) none

/-- The fast part: to the group with the most remaining headroom, and any excess to the next. A negative one takes from their
shares in the same order, down to none. -/
def shareFast : Nat → Int → List (Group × Int × Int) → List (Group × Int)
  | 0, _, l => l.map fun e => (e.1, e.2.1)
  | n + 1, pf, l => match widest l with
    | none => []
    | some e =>
      let d := clampI (-e.2.1) (e.2.2 - e.2.1) pf
      (e.1, e.2.1 + d) :: shareFast n (pf - d) (l.filter fun x => x.1 != e.1)

/-- One step of the allocation filter of R214, over `dt` ticks. -/
def filterStep (ps pv : Int) (dt tau : Nat) : Int := if us tau ≤ dt then pv else ps + (pv - ps) * dt / (us tau : Nat)

/-- P_v, µW, is divided at a boundary: the slow part moves with time constant RAIL_ALLOC_TAU. -/
def State.slowPower (s : State) (pv : Int) : State :=
  let ps := match s.core.psAt with
    | none => pv
    | some t => filterStep s.core.ps pv (s.now - t) (s.obj Obj.RAIL_ALLOC_TAU)
  { s with core := { s.core with ps := ps, psAt := some s.now } }

/-- The power that each group is given, µW, of a command `pv`: its slow part with the charge that there is room for in place of the
charge that the pack takes, and its fast part. -/
def State.shares (s : State) (pv : Int) : List (Group × Int) :=
  shareFast 4 (pv - s.core.ps)
    (shareSlow s.available (sourceOrder.filter s.hasGroup) (s.core.ps.toNat - s.packTakes + s.chargeRoom pv))

/-- A group's share of the voltage loop, mA, positive from VRAIL toward the low side (R142): a charge that yields, an export that
its own loop asks for, a discharge of the link side, or its part of P_v. -/
def State.shareOf (s : State) (g : Group) (pv : Int) (iexp : Nat) : Int :=
  let v := (s.g g).vlow
  let part := (((s.shares pv).find? fun e => e.1 == g).map (·.2)).getD 0
  let bring : Int := if v = 0 then 0 else -(part / (v : Int))
  match g.port? with
  | some p =>
    if s.provider p then (min iexp (s.sinkLimit g) : Nat)
    else if s.consumer p then bring
    else -(s.sourceLimit g : Int)
  | none => if g = .pack then bring + (if v = 0 then 0 else ((s.chargeRoom pv / v : Nat) : Int)) else bring

/-- The direction that a group is to take: the input group always delivers (R24), and the pack group in Stratus (R126); a link
group by its contract; else by the sign of the command (R142). -/
def State.wantDeliver (s : State) (g : Group) : Bool :=
  let x := s.g g
  match g.port? with
  | some p => if s.provider p then false else true
  | none => g == .input || x.stratus || (if x.icmd = 0 then x.deliver else x.icmd < 0)

/-- The direction-change test of R93. In a dwell every phase stands at Z (R119). -/
def State.direction (s : State) (g : Group) (nearZero : Bool) : State :=
  let want := s.wantDeliver g
  if (s.g g).soft || want == (s.g g).deliver then s.modG g fun x => { x with dwell := false }
  else if nearZero then s.modG g fun x => { x with dwell := false, deliver := want }
  else (s.modG g fun x => { x with dwell := true, shedCount := if x.dwell then x.shedCount else 0 }).modPs (s.phasesOf g) fun x => x.toZ s.now

/-- A phase added at the last boundary has completed its first cycle (R150). -/
def State.addedComplete (s : State) (g : Group) : State :=
  s.modPs ((s.phasesOf g).filter fun p => (s.phase p).code == 2) fun x => { x with code := 3 }

/-- The action of a load step (R153). -/
def State.loadStep (s : State) (g : Group) : State :=
  let s := s.ev 9 g.num ((s.g g).icmd.natAbs / 1000)
  (s.modPs ((s.phasesOf g).filter fun p => (s.phase p).code == 4 && (s.phase p).pos != 0)
    fun x => { x with code := 3, weight := 4 }).modG g fun x => { x with shedCount := 0, blockLeft := 129 }

/-- The shed ramps of the phases `ramping` advance by one weight step (R152). -/
def State.rampStep (s : State) (ramping : List Nat) : State :=
  s.modPs (ramping.filter fun p => (s.phase p).code == 4) fun x =>
    if x.weight ≤ 1 then { x with weight := 0, code := if x.pos = 0 then 0 else 1 }.toZ s.now
    else { x with weight := x.weight - 1 }

/-- ACTIVE phases that an ORDER word applied at this boundary puts beyond N_req enter SHEDDING (R155). -/
def State.orderDemote (s : State) (g : Group) : State :=
  if (s.g g).reorder then
    let req := s.nReq g (s.g g).icmd.natAbs
    (s.modPs ((s.phasesOf g).filter fun p => (s.phase p).code == 3 && req < (s.phase p).pos)
      fun x => { x with code := 4, weight := 3 }).modG g fun x => { x with reorder := false }
  else s

/-- The add decision of R149. -/
def State.addDecision (s : State) (g : Group) : State :=
  let req := s.nReq g (s.g g).icmd.natAbs
  let nz := (s.running g).length
  let add := ((s.byPos g).filter fun p => (s.phase p).code == 1).take (req - nz)
  s.modPs add fun x => { x with code := 2, weight := 4 }

/-- PHASE_SHORTFALL and GROUP_NO_PHASE (R154). -/
def State.shortfall (s : State) (g : Group) : State :=
  let nav := s.nAv g
  let s := if nav < s.nMin g && (s.g g).navSeen != nav then s.coreRaise (sourceOf g) 1 nav else s
  let s := if nav == 0 && s.nEn g != 0 then s.coreRaiseC (sourceOf g) 2 0 else s
  s.modG g fun x => { x with navSeen := nav }

/-- The group's ratio qualifies for shedding: |I_cmd| / (N_nz - 1) < ADD_I (1 - h) (R152). -/
def State.shedRatio (s : State) (g : Group) : Bool :=
  let nz := (s.running g).length
  let h := field (orderWord s g) 18 16 + 1
  1 < nz && (s.g g).icmd.natAbs * 10 < s.addI g * (10 - h) * (nz - 1)

/-- Shed qualification is counted. -/
def State.shedCountStep (s : State) (g : Group) : State :=
  let ok := s.shedRatio g
  s.modG g fun x => { x with shedCount := if ok then x.shedCount + 1 else 0 }

/-! ### The oscillator (R175-R180) -/

/-- The spreading triangle's length and its step per cycle: the modulation rate is the lower of RATE and f_set / (2 * SPREAD)
(R175). -/
def spreadModulus (f sp rate : Nat) : Nat × Nat :=
  let r := match rate with | 0 => 2500 | 1 => 3125 | 2 => 4000 | _ => 5000
  if r * 2 * sp ≤ f * 100 then (f * 100, r) else (2 * sp, 1)

/-- The period at place `k` of a triangle of length `n`, which starts at its centre: it runs between the periods of
f_set * (1 + s) and f_set * (1 - s). The first half is the faster one. -/
def spreadPeriod (f sp k n : Nat) : Nat :=
  let lo := periodOfQ (f * 10 * (1000 + 5 * sp)) 1000
  let hi := periodOfQ (f * 10 * (1000 - 5 * sp)) 1000
  let x := 4 * (k % n)
  let d := hi - lo
  if x ≤ n then ((lo + hi) * n - d * x) / (2 * n)
  else if x ≤ 3 * n then ((lo + hi) * n + d * x - d * (2 * n)) / (2 * n)
  else ((lo + hi) * n + d * (4 * n) - d * x) / (2 * n)

/-- A period moved toward a target by at most 1 % of itself. -/
def slewPeriod (p target : Nat) : Nat := if target < p then max target (p - p / 100) else min target (p + p / 100)

/-- The word's frequency, 0.1 kHz, and its source. -/
def State.fSet (s : State) (g : Group) : Nat := 10 * field (s.word (32 + g.num)) 11 0
def State.syncSource (s : State) (g : Group) : Nat := field (s.word (32 + g.num)) 17 16

/-- The frequency that a reference of `fsync` asks of a group, 0.1 kHz; 0 where the reference is out of range: m * f_SYNC within
10 % of f_set (R176), or exactly f_set on the fabric timebase (R177). A ratio above 8 counts as 8: DESIGN CHOICE, entry 185. -/
def State.refFreq (s : State) (g : Group) (fsync : Nat) : Nat :=
  let f := s.fSet g
  if fsync = 0 then 0
  else if s.syncSource g = 2 then f
  else
    let m := clampN 1 8 ((2 * f + fsync) / (2 * fsync))
    if 250 ≤ fsync ∧ fsync ≤ 22000 ∧ ((m * fsync : Int) - f).natAbs * 10 ≤ f then m * fsync else 0

/-- How late a boundary is against its target instants, the reference's edges plus OFS / 16 of a period: within half a period
either way. -/
def syncError (edge ofs period : Nat) : Int :=
  if period = 0 then 0
  else
    let e := (edge + period - ofs * period / 16) % period
    if 2 * e ≤ period then e else (e : Int) - period

/-- One cycle on a reference: toward its period, and toward its target instants, by at most 1 % (R176, R177). -/
def State.trackStep (s : State) (g : Group) (fr edge : Nat) : State :=
  let target := periodOf fr
  let ofs := field (s.word (32 + g.num)) 23 20
  s.modG g fun x =>
    let e := syncError edge ofs x.period
    let aim : Int := (target : Int) - clampI (-(target / 100 : Nat)) (target / 100 : Nat) e
    { x.atPeriod (slewPeriod x.period aim.toNat) with
      lockRun := if 100 * e.natAbs ≤ x.period then x.lockRun + 1 else 0 }

/-- One cycle of the slew back to f_set: a 64th of the difference, at most 1 % (R179). -/
def State.backStep (s : State) (g : Group) : State :=
  let f := s.fSet g
  s.modG g fun x =>
    let n := min 64 (x.slewed + 1)
    let p := slewPeriod x.period (periodOfQ (x.freqLoss * (64 - n) + f * n) 64)
    { x.atPeriod p with slewed := n, sync := if n = 64 ∧ p = periodOf f then 0 else 3, spread := 0 }

/-- One cycle of the own oscillator: the triangle, changing by at most 1 % per cycle, or f_set. -/
def State.spreadStep (s : State) (g : Group) : State :=
  let w := s.word (32 + g.num)
  let f := field w 11 0
  let m := spreadModulus f (field w 15 12) (field w 19 18)
  s.modG g fun x =>
    if field w 15 12 = 0 then { x.atPeriod (periodOf (10 * f)) with spread := 0 }
    else
      let k := (x.spread + m.2) % m.1
      { x.atPeriod (slewPeriod x.period (spreadPeriod f (field w 15 12) k m.1)) with spread := k }

/-- The period moves at a boundary. A group that is to follow a reference acquires it from its present period once it is there
(R180), keeps to its own oscillator without spreading while the reference is out of range (R176), and keeps its last locked
period until the loss is declared (R179). -/
def State.freqStep (s : State) (g : Group) (fsync edge : Nat) : State :=
  let fr := if s.syncSource g = 0 || (s.g g).syncBarred then 0 else s.refFreq g fsync
  match (s.g g).sync with
  | 0 => if fr != 0 then s.modG g fun x => { x with sync := 1, lockRun := 0 } else s.spreadStep g
  | 1 => if fr != 0 then s.trackStep g fr edge
    else s.modG g fun x => { x.atPeriod (slewPeriod x.period (periodOf (s.fSet g))) with lockRun := 0 }
  | 2 => if fr != 0 then s.trackStep g fr edge else s
  | _ => if fr != 0 then s.modG g fun x => { x with sync := 1, lockRun := 0 } else s.backStep g

/-- The dead time of a group's edge word after a level, in 0.25 ns, never below 10 ns (R90, R181). -/
def State.edgeDead (s : State) (g : Group) (was : Level) : Nat :=
  let w := s.word (36 + g.num)
  max 40 (if was = .H then field w 7 0 else field w 15 8)

/-- Pass-through holds every active input phase at H (R94). A phase at another level goes there through Z (R89). -/
def State.passHold (s : State) : State :=
  if (s.g .input).pass then
    s.modPs ((s.phasesOf .input).filter fun p =>
        (s.phase p).weight != 0 && (s.phase p).level != .H && !((s.phase p).dead != 0 && (s.phase p).due == .H))
      fun x => { x.toZ s.now with dead := s.edgeDead .input .L, due := .H, left := 0 }
  else s

/-- The minimum on-time of a group, 0.1 ns: blanking plus the present latency (R104). -/
def State.minOn (s : State) (g : Group) : Nat :=
  50 * field (s.word (36 + g.num)) 21 16 + s.obj Obj.CORE_SPEED_LATENCY

/-- The ideal boost on-time of L, 0.1 ns (R94). -/
def idealOn (freq vbus vref : Nat) : Nat :=
  if freq = 0 ∨ vref ≤ vbus * 1000 then 0 else (100000000 / freq) * (vref - vbus * 1000) / vref

/-- The pass-through test and exit of the input group (R94). -/
def State.passStep (s : State) (vbus vrail : Nat) : State :=
  let x := s.g .input
  let low := s.core.disc && idealOn x.freq vbus x.vref < s.minOn .input
  let out := x.pass && vrail * 1000 < x.railV * 50 * 995
  s.modG .input fun x => { x with passRun := if low then x.passRun + 1 else 0, pass := x.pass && !out }

/-- A start event takes the group into soft-start, in the direction of its command, and into the rail without one (R131, R166, R167):
the reference starts at VRAIL_S, or at VLINK where a Provider starts into its link (R341). -/
def State.startStep (s : State) (g : Group) (vrail vlow : Nat) : State :=
  if (s.g g).start && (s.g g).stops == 0 then
    let v := match g.port? with
      | some p => if s.provider p then vlow else vrail
      | none => vrail
    let want := s.wantDeliver g || (g == .pack && (s.g g).icmd == 0)
    s.modG g fun x => { x with
      start := false, soft := true, diode := true, softCycles := 0, pass := false, passRun := 0, vref := v * 1000, deliver := want, dwell := false }
  else s

/-- What an ORDER word applied in step 1 of R164 leaves to do, and steps 4 to 7, which a dwell skips: `ramping` were SHEDDING before
this boundary. -/
def State.decisions (s : State) (g : Group) (before : Int) (ramping : List Nat) : State :=
  let s := s.orderDemote g
  let x := s.g g
  let a := s.addI g
  let step := 0 < a && (before.natAbs + a ≤ x.icmd.natAbs || a ≤ x.ffRise)
  let s := if step then (s.loadStep g).railDisturbed else s.rampStep ramping
  ((s.addDecision g).shortfall g).shedCountStep g

/-- A headroom of 2.0 V at a boundary releases the group from R31, and DISC_GATE with the last one. -/
def State.headroomStep (s : State) (g : Group) (vrail vlow : Nat) : State :=
  if bit (s.g g).stops 1 && vlow + 2000 ≤ vrail then (s.freeG g 1).gateBack (s.g .input).vlow vrail else s

/-- The command of a group at its boundary: its share of the voltage loop, feedforward, a classification's step. -/
def State.command (s : State) (g : Group) (pv : Int) (iexp : Nat) : State :=
  let s := s.slowPower pv
  let iv := s.shareOf g pv iexp
  s.modG g fun x => { x with iv := iv, icmd := iv + x.iff - x.step }

/-- The cycle in which a phase was latched is over: PHASE_PEAK ends with it (R122). -/
def State.peakEnd (s : State) (g : Group) : State :=
  let ps := (s.phasesOf g).filter fun p => (s.phase p).latched && (s.phase p).cut
  ps.foldl (fun s p => s.coreClearI 1 1 p) (s.modPs ps fun x => { x with cut := false, peakRun := 0 })

/-- A link group whose current has ramped to 0 for a role swap stands at Z for the dwell (R341). -/
def State.swapZ (s : State) (g : Group) : State :=
  match g.port? with
  | some p =>
    match (s.link.get p).ramp with
    | some (at_, span) => if s.obj (Obj.LINK_STATE (p.num + 1)) == 7 && at_ + span ≤ s.now then s.stopG g 6 else s
    | none => s
  | none => s

/-- One switching-cycle boundary of a group (R164). A group without an oscillator has none (R36). -/
def State.boundary (s : State) (g : Group) (x : Sample) : State :=
  if !s.hasGroup g || (s.g g).freq == 0 then s
  else
    let before := (s.g g).icmd
    let ramping := (s.phasesOf g).filter fun p => (s.phase p).code == 4
    let nz := s.running g
    let s := s.modG g fun y => { y with
      vlow := x.vlow, frozenLeft := y.frozenLeft - 1, cycles16 := min 16 (y.cycles16 + 1)
      blockLeft := if 1 < y.blockLeft then y.blockLeft - 1 else y.blockLeft }
    let s := ((s.stratusEntry g).liftAt g).applyAll g
    let s := (s.addedComplete g).foldUpdate g x.vrail
    let s := if s.railOff g x.vrail then s.railDisturbed else if (s.g g).fold != 1000000 then s.probeAbandon else s
    let s := (s.command g (1000 * x.pv) x.iexp).direction g x.nearZero
    let s := if (s.g g).dwell then (s.rampStep ramping).orderDemote g else s.decisions g before ramping
    let s := s.modG g fun y => { y with ffRise := 0 }
    let s := if g = .input then s.passStep x.vlow x.vrail else s
    let s := (((s.slewRef g).freqStep g x.fsync x.edge).headroomStep g x.vrail x.vlow).startStep g x.vrail x.vlow
    let s := ((if g = .input then s.passHold else s).peakEnd g).swapZ g
    if s.running g = nz then s else s.setChanged g

/-! ### Peak command (R92, R146) -/

/-- The sum of the weights of a group, in quarters. -/
def State.weights (s : State) (g : Group) : Nat := (s.phasesOf g).foldl (fun n p => n + (s.phase p).weight) 0

/-- The command of a group within its limits: in soft-start its sign is held to the start direction (R167), and a group that
must not take the other direction does not (R24, R126). -/
def State.heldCmd (s : State) (g : Group) : Int :=
  let x := s.g g
  let sink : Int := if x.soft && x.deliver then 0 else s.sinkLimit g
  let source : Int := if x.soft && !x.deliver then 0 else s.sourceLimit g
  clampI (-source) sink (x.iv + x.iff - x.step)

/-- The peak command of a phase, mA. -/
def State.peakCmd (s : State) (p : Nat) : Int :=
  let g := groupOf p
  let w := s.weights g
  if w = 0 then 0 else s.heldCmd g * ((s.phase p).weight : Int) / (w : Int)

/-- What the comparator compares with, mA: the peak command less the ramp of SLOPE from the turn-on, `t` in ns (R91, R144). -/
def State.threshold (s : State) (p t : Nat) : Int :=
  ((s.peakCmd p).natAbs : Int) - ((field (s.word (40 + (groupOf p).num)) 11 0 * t / 100 : Nat) : Int)

/-! ### Commands of the groups -/

def execSwitchingCycleBoundary (g : Group) (x : Sample) (s : State) : Host.Outcome State Fault Refusal :=
  .next (s.logged fun s => s.boundary g x)

/-- The shed decision may be made: 128 qualifying boundaries, no ramp in progress, a phase to spare, no block (R152). -/
def State.mayShed (s : State) (g : Group) : Bool :=
  let nz := (s.running g).length
  s.hasGroup g && !(s.g g).dwell && 128 ≤ (s.g g).shedCount && (s.g g).blockLeft == 0 &&
    !((s.phasesOf g).any fun p => (s.phase p).code == 4) && s.nReq g (s.g g).icmd.natAbs < nz

/-- The phase at weight 1 of highest position enters SHEDDING at 3/4. -/
def State.shed (s : State) (g : Group) : State :=
  match ((s.byPos g).filter fun p => (s.phase p).weight == 4).getLast? with
  | none => s
  | some p => (s.modP p fun x => { x with code := 4, weight := 3 }).modG g fun x => { x with shedCount := 0 }

def execShedDecision (g : Group) (s : State) : Host.Outcome State Fault Refusal :=
  .next (s.logged fun s => if s.mayShed g then s.shed g else s)

def execShedBlockEnd (g : Group) (s : State) : Host.Outcome State Fault Refusal :=
  .next (if (s.g g).blockLeft = 1 then s.modG g fun x => { x with blockLeft := 0 } else s)

/-- Rounding to the nearest integer, halves away from zero. -/
def roundDiv (a : Int) (b : Nat) : Int :=
  if b = 0 then 0 else if a < 0 then -(((2 * a.natAbs + b) / (2 * b) : Nat) : Int) else (((2 * a.natAbs + b) / (2 * b) : Nat) : Int)

/-- Balancing stands still (R160). -/
def State.balFrozen (s : State) (g : Group) : Bool :=
  let x := s.g g
  x.frozenLeft != 0 || x.soft || x.dwell || x.pass || x.icmd.natAbs < 2000 * s.nAct g

/-- The update of R159 over the ACTIVE phases, with their averages in 10 mA. -/
def State.balance (s : State) (g : Group) (avg : List Int) : State :=
  let iOf := fun p => avg.getD (p - baseOf g) 0
  let act := (s.phasesOf g).filter fun p => (s.phase p).code == 3
  let s := s.modG g fun x => { x with cycles16 := 0 }
  let s := act.foldl (fun s p => s.modP p fun x => { x with avg := if (s.g g).deliver then iOf p else - iOf p }) s
  if s.balFrozen g || act.isEmpty then s
  else
    let n := act.length
    let sum := act.foldl (fun (a : Int) p => a + iOf p) 0
    let s := act.foldl (fun s p =>
      let w := s.word (16 + p)
      let e := iOf p * n - sum
      let d := if e.natAbs ≤ 25 * n then 0 else - roundDiv ((2 ^ field w 21 19 : Nat) * e) (100 * n)
      s.modP p fun x => { x with trim := if bit w 22 then x.trim + clampI (-64) 64 d else 0 }) s
    let tm := roundDiv (act.foldl (fun (a : Int) p => a + (s.phase p).trim) 0) n
    act.foldl (fun s p =>
      let w := s.word (16 + p)
      let c : Int := ((64 * field w 18 13 : Nat) : Int)
      s.modP p fun x => { x with trim := if bit w 22 then clampI (-c) c (x.trim - tm) else 0 }) s

/-- FOLD_NOW, 0.1 %. -/
def State.foldNow (s : State) (g : Group) : Nat := (s.g g).fold / 1000

def execFoldback (g : Group) (s : State) : Host.Outcome State Fault Refusal :=
  .next (if (s.g g).fold < 1000000 then s.coreRaise (sourceOf g) 5 (s.foldNow g) else s)

/-- A fold-back stop: the third within 10 s locks the group out (R171). -/
def State.foldStop (s : State) (g : Group) : State :=
  let recent := (s.g g).foldStops.filter fun t => s.now < t + sec 10
  let n := recent.length + 1
  let s := (s.stopG g 2).modG g fun x => { x with
    foldStops := s.now :: recent, foldStopped := true, foldLocked := x.foldLocked || decide (3 ≤ n) }
  let s := s.coreRaise (sourceOf g) 6 n
  if 3 ≤ n then s.coreRaiseC (sourceOf g) 7 0 else s

def execFoldStop (g : Group) (s : State) : Host.Outcome State Fault Refusal :=
  .next (s.logged fun s => if (s.g g).fold < 1000000 && (s.g g).q < 500000 && !(s.g g).foldStopped then s.foldStop g else s)

/-- The group restarts by soft-start. -/
def State.foldRestart (s : State) (g : Group) : State :=
  (s.freeG g 2).modG g fun x => { x with foldStopped := false, foldLocked := false, fold := 1000000 }

def execFoldRestart (g : Group) (s : State) : Host.Outcome State Fault Refusal :=
  .next (s.logged fun s => if (s.g g).foldStopped && !(s.g g).foldLocked then s.foldRestart g else s)

/-- Soft-start ends where 256 cycles have passed and the reference equals RAIL_V (R167). -/
def execSoftStartEnd (g : Group) (s : State) : Host.Outcome State Fault Refusal :=
  .next (if (s.g g).soft && 256 ≤ (s.g g).softCycles && (s.g g).vref == s.vTarget g
    then s.modG g fun x => { x with soft := false } else s)

/-- A trim that has stood at its clamp for 1 s (R161). -/
def execBalAtClamp (p : Fin 16) (s : State) : Host.Outcome State Fault Refusal :=
  let c := 64 * field (s.word (16 + p.val)) 18 13
  .next (if bit (s.word (16 + p.val)) 22 && (s.phase p).trim.natAbs == c && c != 0
    then s.coreRaise (sourceOf (groupOf p)) 4 p else s)

/-- The trim in effect: 0 while a servo is out of lock (R122). -/
def State.servoLock (s : State) : Bool := s.groups.all fun g => (s.g g).servo
def State.trimNow (s : State) (p : Nat) : Int := if s.servoLock then (s.phase p).trim else 0

/-- The zero level of a phase is measured (R141): an out-of-range level excludes the phase, and a good one ends that exclusion
but no latch of R122. -/
def State.zeroMeasured (s : State) (p mv : Nat) : State :=
  let g := groupOf p
  if 800 ≤ mv ∧ mv ≤ 1700 then
    (s.modP p fun x =>
      if x.zeroBad && !x.latched then { x with zero := mv, zeroBad := false, code := if x.pos = 0 then 0 else 1 }
      else { x with zero := mv, zeroBad := false }).coreClearI (sourceOf g) 3 p
  else
    let s := if (s.phase p).weight = 0 then s else s.setChanged g
    (s.modP p fun x => { x with zero := mv, zeroBad := true, code := 5, weight := 0 }.toZ s.now).coreRaiseC (sourceOf g) 3 p

/-! ### Group words from the stored values (R136-R138, R147, R156, R158) -/

/-- The bands of a FREQ body, their reserved bits ignored (R12), or the ROM default (R173, R682). -/
def bandsOf : Option (List Byte) → List Nat
  | some b => (List.range (min 16 (byteAt b 0))).map fun i => let w := leAt b (4 + 4 * i) 4; w - 4 * field w 7 2
  | none => [0x2086B801]

/-- The excluded bands of the frequency plan. -/
def State.freqBands (s : State) : List Nat := bandsOf (s.body 6)

/-- A band overlaps the closed range of `n * f` with a spread of `sp` half percents (R174). -/
def bandHits (band n f sp : Nat) : Bool :=
  field band 31 20 * 1000 ≤ n * f * (1000 + 5 * sp) && n * f * (1000 - 5 * sp) ≤ field band 19 8 * 1000

/-- The frequency-plan check of R174. -/
def planOk (bands : List Nat) (f sp nEn : Nat) : Bool :=
  bands.all fun b =>
    !(bit b 0 && bandHits b 1 f sp) && !(bit b 1 && (List.range nEn).any fun k => bandHits b (k + 1) f sp)

/-- The indices of a group's enabled phases in position order, from PHASE_POS. -/
def State.storedOrder (s : State) (g : Group) : List Nat :=
  ((List.range 7).drop 1).flatMap fun n =>
    ((s.phasesOf g).filter fun p => s.obj (Obj.PHASE_POS p) == n).map (· - baseOf g)

/-- The enabled phases of a group by its stored positions. -/
def State.storedEn (s : State) (g : Group) : Nat :=
  ((s.phasesOf g).filter fun p => s.obj (Obj.PHASE_POS p) != 0).length

/-- The checks of R137 on a group's stored values, at a frequency. -/
def State.groupOkAt (s : State) (g : Group) (f : Nat) : Bool :=
  let i := g.num + 1
  let n := s.storedEn g
  let sp := s.obj (Obj.GROUP_SPREAD i)
  ((List.range n).all fun k =>
      ((s.phasesOf g).filter fun p => s.obj (Obj.PHASE_POS p) == k + 1).length == 1) &&
    (n == 0 || (1 ≤ s.obj (Obj.GROUP_NMIN i) && s.obj (Obj.GROUP_NMIN i) ≤ n)) &&
    200000 ≤ f * (1000 - 5 * sp) && f * (1000 + 5 * sp) ≤ 2200000 &&
    f ≤ s.obj Obj.FREQ_CEIL && planOk s.freqBands f sp n && (s.tabs.newFreq.isNone || planOk (bandsOf s.tabs.newFreq) f sp n) &&
    (s.obj (Obj.GROUP_SYNC i) != 2 || (s.variant == .A && f % 10 == 0))

/-- ADD_I of a group's ORDER word: in Idle and Service the input group adds no phase (R156). -/
def State.orderAdd (s : State) (g : Group) : Nat :=
  if g = .input ∧ (s.modeNow = 2 ∨ s.modeNow = 5) then 31 else s.obj (Obj.GROUP_ADD_I (g.num + 1))

/-- The ORDER word of a group (R147, R156). -/
def State.orderVal (s : State) (g : Group) : Nat :=
  let i := g.num + 1
  let n := s.storedEn g
  s.orderAdd g * 2 ^ 19 + s.obj (Obj.GROUP_HYST i) * 2 ^ 16 + n * 2 ^ 13 +
    (if n = 0 then 0 else s.obj (Obj.GROUP_NMIN i)) * 2 ^ 10 + encodeOrder (spanOf g) (s.storedOrder g)

/-- The checks of R137 for GROUP_APPLY. -/
def State.groupOk (s : State) (g : Group) : Bool := s.groupOkAt g (s.obj (Obj.GROUP_FREQ (g.num + 1)))

/-- The stored frequency, or the lower one that a ceiling has set (R493). -/
def State.freqSet (s : State) (g : Group) : Nat :=
  min (s.obj (Obj.GROUP_FREQ (g.num + 1))) (((s.hz.ceiling.find? fun e => e.1 == g).map (·.2)).getD 9999)

def State.freqVal (s : State) (g : Group) : Nat :=
  let i := g.num + 1
  s.obj (Obj.GROUP_PHASE_OFS i) * 2 ^ 20 + s.obj (Obj.GROUP_SPREAD_RATE i) * 2 ^ 18 +
    (if (s.g g).syncBarred then 0 else s.obj (Obj.GROUP_SYNC i)) * 2 ^ 16 +
    s.obj (Obj.GROUP_SPREAD i) * 2 ^ 12 + s.freqSet g

def State.slopeVal (s : State) (g : Group) : Nat :=
  let i := g.num + 1
  s.obj Obj.RAIL_RAMP * 2 ^ 18 + s.obj (Obj.GROUP_FB_FLOOR i) * 2 ^ 16 + s.obj (Obj.GROUP_ISNS_GAIN i) * 2 ^ 14 +
    s.obj (Obj.GROUP_SLOPE i)

def State.trimVal (s : State) (p : Nat) (load : Bool) : Nat :=
  let i := (groupOf p).num + 1
  b2n load * 2 ^ 23 + b2n (s.obj (Obj.GROUP_BAL_CLAMP i) != 0) * 2 ^ 22 + s.obj (Obj.GROUP_BAL_GAIN i) * 2 ^ 19 +
    s.obj (Obj.GROUP_BAL_CLAMP i) * 2 ^ 13 + (if load then s.obj (Obj.PHASE_TRIM_SEED p) % 2 ^ 13 else 0)

/-- The group's four kinds of words with HOLD = 1. -/
def State.writeGroup (s : State) (g : Group) (load : Bool) : State :=
  let s := s.portWord (44 + g.num) (s.orderVal g) true
  let s := s.portWord (32 + g.num) (s.freqVal g) true
  let s := s.portWord (40 + g.num) (s.slopeVal g) true
  (s.phasesOf g).foldl (fun s p => s.portWord (16 + p) (s.trimVal p load) true) s

/-- A successful apply: the words, COMMIT, and the ends of lockout and of GROUP_NO_PHASE (R136, R138, R171, R178). -/
def State.applyGroup (s : State) (g : Group) : State :=
  let s := { s with hz := { s.hz with ceiling := s.hz.ceiling.filter fun (e : Group × Nat) => e.1 != g } }
  let s := s.modG g fun x => { x with syncBarred := false }
  let s := (s.writeGroup g false).commitWords
  let s := (s.coreClearK (sourceOf g) 2).coreClearK (sourceOf g) 7
  if (s.g g).foldLocked then
    (s.foldRestart g).modG g fun x => { x with foldStops := [] } else s

/-- GROUP_APPLY by group number: true where the write is accepted (R136, R137), a group that the variant lacks judged alike. DESIGN
CHOICE, entry 184. -/
def State.groupApply (s : State) (v : Nat) : Bool × State :=
  match Group.ofNum? (v - 1) with
  | some g => if v != 0 && s.groupOk g then (true, s.applyGroup g) else (false, s)
  | none => (false, s)

/-! ### Synchronisation (R176-R180) -/

/-- The group reports locked: 64 cycles within 1 % of the target instants (R176, R177). -/
def execSyncLocked (g : Group) (s : State) : Host.Outcome State Fault Refusal :=
  .next (s.logged fun s => if (s.g g).sync = 1 && 64 ≤ (s.g g).lockRun then s.modG g fun x => { x with sync := 2 } else s)

def execSyncRange (g : Group) (s : State) : Host.Outcome State Fault Refusal :=
  .next (if (s.g g).sync = 1 then s.coreRaise (sourceOf g) 9 ((s.g g).freq / 10) else s)

/-- Loss of lock: SYNC_LOST once, and the slew back (R179). -/
def State.syncLose (s : State) (g : Group) : State :=
  if (s.g g).sync = 2 then
    (s.modG g fun x => { x with sync := 3, freqLoss := x.freq, slewed := 0 }).coreRaise (sourceOf g) 8 (s.syncSource g)
  else s

def execSyncLost (g : Group) (s : State) : Host.Outcome State Fault Refusal := .next (s.logged fun s => s.syncLose g)

/-- A locked frequency inside an excluded band: the shell unlocks the group (R178). -/
def State.planCheck (s : State) (g : Group) : State :=
  let f := (s.g g).freq
  let hit := s.freqBands.any fun b =>
    (bit b 0 && field b 31 20 * 10 ≤ f && f ≤ field b 19 8 * 10) ||
    (bit b 1 && (List.range (s.nEn g)).any fun k => field b 31 20 * 10 ≤ (k + 1) * f && (k + 1) * f ≤ field b 19 8 * 10)
  if (s.g g).sync = 2 && hit then
    let w := s.word (32 + g.num)
    ((s.portWrite (32 + g.num) (w - field w 17 16 * 2 ^ 16)).modG g fun x => { x with syncBarred := true }).raise
      (sourceOf g) 9 (f / 10)
  else s

def execFreqPlanCheck (s : State) : Host.Outcome State Fault Refusal :=
  .next (s.logged fun s => if s.shellUp then s.groups.foldl (fun s g => s.planCheck g) s else s)

/-! ### Edge words (R181, R182) -/

/-- The default edge words of R182 by band. -/
def edgeDefault (band : Nat) : Nat :=
  match band with
  | 0 => 12 * 2 ^ 16 + 48 * 2 ^ 8 + 56
  | 1 => 12 * 2 ^ 16 + 40 * 2 ^ 8 + 48
  | 2 => 12 * 2 ^ 16 + 40 * 2 ^ 8 + 48
  | 3 => 14 * 2 ^ 16 + 48 * 2 ^ 8 + 56
  | _ => 16 * 2 ^ 16 + 56 * 2 ^ 8 + 64

end Sys2Proof.Machine
end

