-- ==== Sys2Proof/Machine/Rom.lean ====
section
/-!
DEFINITION. Rom.lean: the ROM default bodies of the table kinds, byte by byte as the body tables of the spec lay them out.
-/
namespace Sys2Proof.Machine

/-- SRC ROM default rows (R197, R198, R200). The dashes of the UNKNOWN row: window 0, R_MAX the top of its range. -/
def Rom.src : List Byte := [
  5, 16, 30, 0, 60, 0, 0, 0, 1, 7, 210, 0, 74, 1, 255, 0, 44, 1, 144, 1, 220, 0, 180, 0,
  210, 0, 20, 10, 208, 2, 128, 2, 2, 7, 144, 1, 128, 2, 255, 0, 244, 1, 44, 1, 164, 1, 64, 1,
  144, 1, 20, 10, 136, 4, 168, 2, 3, 7, 208, 2, 136, 4, 255, 0, 32, 3, 250, 0, 248, 2, 88, 2,
  208, 2, 20, 10, 176, 4, 146, 4, 4, 38, 130, 0, 126, 4, 5, 0, 232, 3, 200, 0, 130, 0, 120, 0,
  130, 0, 10, 10, 176, 4, 136, 4, 5, 2, 0, 0, 0, 0, 255, 0, 136, 19, 50, 0, 140, 0, 120, 0,
  140, 0, 100, 10, 176, 4, 136, 4]

/-- BAND ROM defaults (R449): no row gives EDGE words or intervals. -/
def Rom.band : List Byte := [
  0, 0, 88, 2, 232, 3, 20, 5, 50, 15, 0, 0, 0, 0, 0, 0, 0, 0, 0, 0, 0, 0, 0, 0,
  0, 0, 0, 0, 0, 0, 0, 0, 0, 0, 0, 0, 0, 0, 0, 0, 0, 0, 0, 0, 0, 0, 0, 0,
  0, 0, 0, 0, 0, 0, 0, 0, 0, 0, 0, 0, 0, 0, 0, 0, 0, 0, 0, 0, 0, 0, 0, 0,
  0, 0, 0, 0, 0, 0, 0, 0, 0, 0, 0, 0, 0, 0, 0, 0, 0, 0, 0, 0, 0, 0, 0, 0,
  0, 0, 0, 0, 0, 0, 0, 0, 0, 0, 0, 0, 0, 0, 0, 0, 0, 0, 0, 0, 0, 0, 0, 0,
  0, 0, 0, 0, 0, 0, 0, 0, 0, 0, 0, 0, 0, 0, 0, 0, 0, 0, 0, 0, 0, 0, 0, 0,
  0, 0, 0, 0, 0, 0, 0, 0, 0, 0, 0, 0, 0, 0, 0, 0, 0, 0, 0, 0, 0, 0, 0, 0,
  0, 0, 0, 0, 0, 0, 0, 0]

/-- DER ROM defaults (R494). -/
def Rom.der : List Byte := [
  132, 3, 26, 4, 126, 4, 226, 4, 200, 150, 100, 50, 76, 4, 176, 4, 132, 3, 26, 4, 126, 4, 226, 4,
  200, 150, 100, 50, 76, 4, 176, 4, 132, 3, 26, 4, 126, 4, 226, 4, 200, 150, 100, 50, 76, 4, 176, 4,
  132, 3, 26, 4, 126, 4, 226, 4, 200, 150, 100, 50, 76, 4, 176, 4, 188, 2, 82, 3, 182, 3, 26, 4,
  200, 100, 50, 0, 40, 50, 226, 4, 70, 5, 50, 0, 0, 0, 0, 0, 0, 0, 0, 0, 0, 0, 0, 0,
  3, 16, 208, 7, 150, 70, 200, 70, 200, 150, 80, 50, 70, 70, 70, 70, 70, 70, 70, 70, 70, 0, 0, 0,
  0, 0, 0, 0, 0, 0, 0, 0]

end Sys2Proof.Machine
end

