-- ==== Sys2Proof/Machine/SourceOps.lean ====
section
/-!
DEFINITION. SourceOps.lean: operations of the power path that several families share: table rows, limits, DISC_GATE, the input
group's pauses (R184-R213).
-/
namespace Sys2Proof.Machine

/-- The SRC body in force (R200). -/
def State.srcBody (s : State) : List Byte := (s.body 3).getD Rom.src

/-- A field of SRC row `r` (1-5) at `off` in the row (R198). -/
def State.srcRow (s : State) (r off n : Nat) : Nat := leAt s.srcBody (8 + 24 * (r - 1) + off) n

def State.rowMatchEn (s : State) (r : Nat) : Bool := bit (s.srcRow r 1 1) 0
def State.rowInputEn (s : State) (r : Nat) : Bool := bit (s.srcRow r 1 1) 1
def State.rowRampEn (s : State) (r : Nat) : Bool := bit (s.srcRow r 1 1) 2
def State.rowRipple (s : State) (r : Nat) : Nat := field (s.srcRow r 1 1) 5 4

/-- A voltage in mV against a 50 mV field. -/
def v50 (n : Nat) : Nat := 50 * n

/-- V_OC lies in a row's window (mV). -/
def State.inWindow (s : State) (r voc : Nat) : Bool := v50 (s.srcRow r 2 2) ≤ voc && voc ≤ v50 (s.srcRow r 4 2)

/-- The rows in the test order of R191: BENCH, T12, T24, T48. -/
def srcOrder : List Nat := [4, 1, 2, 3]

/-- The match rows enabled and holding V_OC, in test order. -/
def State.windowRows (s : State) (voc : Nat) : List Nat := srcOrder.filter fun r => s.rowMatchEn r && s.inWindow r voc

/-- The row of the source type in force; UNKNOWN's before any. -/
def State.curRow (s : State) : Nat := if s.obj Obj.SRC_TYPE = 0 then 5 else s.obj Obj.SRC_TYPE

/-- SRC_STATE; a change of it ends a rail probe (R481). -/
def State.srcState (s : State) (v : Nat) : State := (if s.obj Obj.SRC_STATE = v then s else s.probeAbandon).set Obj.SRC_STATE v

/-- The Stratus value of a limit's latch, 0.1 A (R126, R128). -/
def State.stratusCap (s : State) (id : Nat) : Nat :=
  match id with
  | 1 => s.obj Obj.STRATUS_LIM_IN
  | 2 => s.obj Obj.STRATUS_LIM_PACKGRP
  | 3 => 5 * s.obj Obj.STRATUS_LIM_LINK
  | 4 => 5 * s.obj Obj.STRATUS_LIM_LINK
  | 5 => 0
  | 6 => s.obj Obj.STRATUS_LIM_PACK_DIS
  | _ => 0xFFFFFF

/-- What the shell writes of a value: a limit stays within its Stratus value while no valid image has been switched in (R67). -/
def State.held (s : State) (id v : Nat) : Nat := if s.mode.capped then min v (s.stratusCap id) else v

/-- The five latches of a row with HOLD = 1 (R193); the caller commits. -/
def State.rowLatches (s : State) (r ilim : Nat) : State :=
  let s := s.portWord 1 (s.held 1 ilim) true
  let s := s.portWord 9 (s.srcRow r 14 2) true
  let s := s.portWord 10 (s.srcRow r 18 1 * 65536 + s.srcRow r 16 2) true
  let s := s.portWord 11 (s.srcRow r 19 1 * 65536 + s.srcRow r 20 2) true
  s.portWord 12 (s.srcRow r 22 2) true

/-- A factory ceiling or, before sensing, the conservative one (R725). -/
def State.ceil (s : State) (n : Nat) : Nat := s.obj (Obj.OTP_CEIL n)

/-- Scale by a factor in 0.1 %. -/
def permille (v f : Nat) : Nat := v * f / 1000

/-- The thermal term of R43 for a group's limit (R452). -/
def State.thermTerm (s : State) (g : Group) (v : Nat) : Nat := v * s.thm.f.get g / 1000000

/-- The applied Horizon term of R43 for DER_NOW sub-index `n` (R491). -/
def State.hzTerm (s : State) (n v : Nat) : Nat := permille v (s.hz.applied.getD (n - 1) 1000)

/-- I_HARN in 0.1 A, from mV, mA and R_H in µΩ (R201). -/
def State.iHarn (s : State) (vbus : Nat) (ibus : Int) : Nat :=
  let r := s.curRow
  if s.src.rh = 0 then s.srcRow r 10 2
  else
    let voc : Int := (vbus : Int) + ibus * s.src.rh / 1000000
    let d := voc - (v50 (s.srcRow r 12 2) : Int)
    if d ≤ 0 then 0 else min 65535 (d.toNat * 10000 / s.src.rh)

/-- IIN_LIMIT, 0.1 A: a row's ILIM, I_HARN, and the thermal, Horizon and OTP terms of R43 (R201). -/
def State.iinFor (s : State) (r harn : Nat) : Nat :=
  let t := s.srcRow r 10 2
  min (min (s.thermTerm .input t) (s.hzTerm 1 t)) (min (min t harn) (s.ceil 1))

/-- IIN_LIMIT on the row in force. -/
def State.iinLimit (s : State) (harn : Nat) : Nat := s.iinFor s.curRow harn

/-- The limit of the pack or a link group, 0.1 A. No table gives these; the factory ceiling stands in its place. -/
def State.limitVal (s : State) (g : Group) : Nat :=
  match g with
  | .input => s.obj Obj.IIN_LIMIT
  | .pack => min (s.thermTerm .pack (s.ceil 2)) (s.hzTerm 2 (s.ceil 2))
  | .east => min (s.thermTerm .east (s.ceil 3)) (s.hzTerm 3 (s.ceil 3))
  | .west => min (s.thermTerm .west (s.ceil 3)) (s.hzTerm 4 (s.ceil 3))

/-- The value that stands for a word: pending where one is, else applied. -/
def State.wordStanding (s : State) (id : Nat) : Nat :=
  ((s.core.pend.find? fun w => w.id == id).map (·.value)).getD (s.word id)

/-- The shell writes a word whose standing value differs, once it holds the core. -/
def State.portIfNew (s : State) (id v : Nat) : State :=
  let v := s.held id v
  if s.shellUp && s.core.handedOver && s.wordDefined id && s.wordStanding id != v then s.portWrite id v else s

/-- The changed group limits of the pack and link groups are written (R452, R491). -/
def State.writeLimits (s : State) : State :=
  ((s.portIfNew 2 (s.limitVal .pack)).portIfNew 3 (s.limitVal .east)).portIfNew 4 (s.limitVal .west)

end Sys2Proof.Machine
end

