-- ==== Sys2Proof/Machine/MeasureOps.lean ====
section
/-!
DEFINITION. MeasureOps.lean: reading results (R398-R402) and thermistor temperatures (R268, R445).
-/
namespace Sys2Proof.Machine

/-! ### Result words -/

/-- The word of a channel. -/
def State.result (s : State) (ch : Nat) : Nat := s.obj (Obj.RESULTS ch)

/-- The word that no conversion has produced (R401). -/
def noResult (ch : Nat) : Nat := 0xC0000000 + ch * 2 ^ 24

/-- No converter has a result (R401). -/
def State.noResults (s : State) : State := (List.range 64).foldl (fun s ch => s.set (Obj.RESULTS ch) (noResult ch)) s

/-- Scanning stops: Storage, Park, a system reset. -/
def State.measStop (s : State) : State :=
  { (s.noResults.set Obj.SCAN_STATE 0) with meas := { s.meas with done := 0, first := true, cal := 0, refresh := none } }

def isFlagged (w : Nat) : Bool := bit w 31 || bit w 30
def isAbsent (w : Nat) : Bool := bit w 31 && bit w 30
def codeOf (w : Nat) : Int := ofCode 24 (field w 23 0)

/-- `x` of a code at a full scale of `fs` (R399), rounded to the nearest. -/
def scaled (code : Int) (fs : Nat) : Int := roundDiv (code * fs) 7340032

/-- A channel with a bipolar range (R395). -/
def bipolar (ch : Nat) : Bool := [16, 33, 35, 37, 39, 40, 41].contains ch || (52 ≤ ch && ch ≤ 60)

/-- What a word stands for at a full scale: a flagged result lies beyond the channel's linear limit (R395, R402). -/
def beyond (ch w fs : Nat) : Int :=
  let v := scaled (codeOf w) fs
  if bit w 31 then max v (fs * 105 / 100 + 1 : Nat)
  else if bit w 30 then min v (-((fs * (if bipolar ch then 105 else 5) / 100 + 1 : Nat) : Int))
  else v

/-- The reading of a channel at a full scale, none while the word holds no result. -/
def State.reading (s : State) (ch fs : Nat) : Option Int :=
  if isAbsent (s.result ch) then none else some (beyond ch (s.result ch) fs)

/-- The reading of a channel, 0 while absent. -/
def State.read0 (s : State) (ch fs : Nat) : Int := (s.reading ch fs).getD 0

/-- Neither channel's word is absent (R402). -/
def State.haveBoth (s : State) (a b : Nat) : Bool := !isAbsent (s.result a) && !isAbsent (s.result b)

/-- A reading that is neither flagged nor absent. -/
def State.good (s : State) (ch fs : Nat) : Option Int :=
  if isFlagged (s.result ch) then none else some (scaled (codeOf (s.result ch)) fs)

/-- VBUS, VRAIL, VPACK and a link voltage in mV; IBUS, IPACK and a link current in mA; IRAIL in mA (R395, R396). -/
def State.vbus (s : State) : Int := s.read0 32 80000
def State.ibus (s : State) : Int := s.read0 33 400000
def State.vrail (s : State) : Int := s.read0 34 100000
def State.vpack (s : State) : Int := s.read0 17 80000
def State.ipack (s : State) : Int := s.read0 16 400000
def State.vlink (s : State) (p : Port) : Int := s.read0 (36 + 2 * p.num) 80000
def State.ilink (s : State) (p : Port) : Int := s.read0 (37 + 2 * p.num) 150000
/-- 100.0 mV full scale over a shunt in 0.01 mΩ: µV * 1000 / (10 µΩ) in mA. -/
def State.irail (s : State) : Int :=
  let uv := s.read0 35 100000
  if s.obj Obj.RAIL_SHUNT = 0 then 0 else roundDiv (uv * 100) (s.obj Obj.RAIL_SHUNT)

/-! ### Thermistors -/

/-- 2 ^ 40 times the natural logarithm of `num / den`, from the atanh series. -/
def lnScaled (num den : Nat) : Int :=
  let k : Int := (Nat.log2 num : Int) - (Nat.log2 den : Int)
  let (a, b) := if 0 ≤ k then (num, den * 2 ^ k.toNat) else (num * 2 ^ (-k).toNat, den)
  let z : Int := ((a : Int) - b) * (2 ^ 40 : Int) / ((a : Int) + b)
  let z2 : Int := z * z / (2 ^ 40 : Int)
  let rec terms : Nat → Nat → Int → Int
    | 0, _, _ => 0
    | n + 1, i, t => t / ((2 * i + 1 : Nat) : Int) + terms n (i + 1) (t * z2 / (2 ^ 40 : Int))
  2 * terms 20 0 z + k * 762123384786

/-- The temperature in 0.1 °C of a ratio code, with R25 in Ω and the B value in K (R268); none outside -50.0 to +150.0. -/
def ntcTemp (code : Int) (r25 beta : Nat) : Option Int :=
  if code ≤ 0 ∨ 7340032 ≤ code ∨ r25 = 0 ∨ beta = 0 then none
  else
    let ln := lnScaled (10000 * code.toNat) ((7340032 - code).toNat * r25)
    let den : Int := 100 * (beta : Int) * (2 ^ 40 : Int) + 29815 * ln
    if den ≤ 0 then none
    else
      let t100 : Int := 100 * (29815 * (beta : Int) * (2 ^ 40 : Int)) / den
      let t := roundDiv (t100 - 27315) 10
      if t < -500 ∨ 1500 < t then none else some t

/-- A temperature as its object holds it: 0x7FFF when invalid. -/
def tempCode : Option Int → Nat
  | none => 0x7FFF
  | some t => toCode 16 t

/-- The temperature that an object holds. -/
def tempOf (v : Nat) : Option Int := if v = 0x7FFF then none else some (ofCode 16 v)

end Sys2Proof.Machine
end

