-- ==== Sys2Proof/Machine/ThermalOps.lean ====
section
/-!
DEFINITION. ThermalOps.lean: the thermal manager's evaluation after a common scan (R441-R457).
-/
namespace Sys2Proof.Machine

def State.bandBody (s : State) : List Byte := (s.body 4).getD Rom.band
def State.derBody (s : State) : List Byte := (s.body 5).getD Rom.der

/-- A signed 16-bit field. -/
def sAt (b : List Byte) (off : Nat) : Int := ofCode 16 (leAt b off 2)

/-- The neighbours of each die sensor (R441). -/
def tdNeighbours : Nat → List Nat
  | 0 => [2, 5, 7]
  | 1 => [3, 5, 6]
  | 2 => [0, 3, 7]
  | 3 => [1, 2, 4]
  | 4 => [3, 5, 6]
  | 5 => [0, 1, 4]
  | 6 => [1, 4, 7]
  | _ => [0, 2, 6]

/-- The reading of a die sensor, 0.1 °C, none when flagged or absent (R442). -/
def State.tdRead (s : State) (k : Nat) : Option Int := s.good (52 + k) 2000

/-- The median of two or three readings. -/
def median3 (l : List Int) : Option Int :=
  match l with
  | [a, b] => some ((a + b) / 2)
  | [a, b, c] => some (max (min a b) (min (max a b) c))
  | _ => none

/-- Two of the readings agree within `g`. -/
def agree (l : List Int) (g : Int) : Bool :=
  match l with
  | [a, b] => (a - b).natAbs ≤ g.natAbs
  | [a, b, c] => (a - b).natAbs ≤ g.natAbs || (a - c).natAbs ≤ g.natAbs || (b - c).natAbs ≤ g.natAbs
  | _ => false

/-- One sensor's check in a scan (R442, R443). -/
def State.tdStep (s : State) (k : Nat) : State :=
  let grad : Int := 10 * (byteAt s.bandBody 9 : Nat)
  let nb := (tdNeighbours k).filterMap s.tdRead
  let r := s.thm.td.getD k {}
  let (r1, out) := match s.tdRead k, median3 nb with
    | none, _ => ({ r with out := 0, bad := r.bad + 1, ok := 0 }, false)
    | some t, some m =>
      let d : Int := ((t - m).natAbs : Nat)
      if grad < d && agree nb grad then ({ r with out := r.out + 1, bad := 0, ok := 0 }, true)
      else ({ r with out := 0, bad := 0, ok := if 2 * d ≤ grad then r.ok + 1 else 0 }, false)
    | some _, none => ({ r with out := 0, bad := 0, ok := 0 }, false)
  let drop := r.qualified && (3 ≤ r1.out || 3 ≤ r1.bad)
  let back := !r.qualified && !out && 10 ≤ r1.ok
  let r2 : TdRun := { r1 with qualified := (r.qualified && !drop) || back }
  let s := { s with thm := { s.thm with td := s.thm.td.setIfInBounds k r2 } }
  let s := s.set (Obj.TD_T (k + 1)) (tempCode (s.tdRead k))
  if drop then s.raiseC 0x0A 1 k else if back then s.clearI 0x0A 1 k else s

/-- TD_VALID and TEMP_MAX (R443, R444). -/
def State.tempMax (s : State) : State :=
  let q := (List.range 8).filter fun k => (s.thm.td.getD k {}).qualified
  let mask := q.foldl (fun n k => n + 2 ^ k) 0
  let vals := q.filterMap s.tdRead
  let few := q.length < 4
  let s1 := ({ s with thm := { s.thm with few := few } }.set Obj.TD_VALID mask).set Obj.TEMP_MAX
    (if few then 0x7FFF else match vals with | [] => s.obj Obj.TEMP_MAX | v :: r => toCode 16 (r.foldl max v))
  if few && !s.thm.few then s1.raise 0x0A 2 q.length else s1

/-- The band that a temperature leads to from a band (R447). -/
def bandStep (bounds : List Int) (hyst t : Int) (b : Nat) : Nat :=
  let up := (List.range 4).foldl (fun b k => if b = k ∧ bounds.getD k 0 ≤ t then b + 1 else b) b
  [3, 2, 1, 0].foldl (fun b k => if b = k + 1 ∧ t < bounds.getD k 0 - hyst then k else b) up

/-- An interval of a band row, its default when the row gives none. -/
def rowOr (v scale d : Nat) : Nat := if v = 0 then d else v * scale

/-- A band selects an interval: a shorter one at once, a longer one after the next run (R448). -/
def Interval.select (x : Interval) (n : Nat) : Interval := if n ≤ x.iv then { x with iv := n, next := n } else { x with next := n }

/-- The interval has passed since the last run. -/
def Interval.due (x : Interval) (now : Nat) : Bool := x.last + sec x.iv ≤ now

/-- A run at `now`: the interval selected last takes effect. -/
def Interval.ran (x : Interval) (now : Nat) : Interval := { x with iv := x.next, last := now }

/-- The intervals that a band selects (R448, R421). -/
def State.bandIntervals (s : State) (b : Nat) : State :=
  let o := 16 + 32 * b
  let body := s.bandBody
  let d := fun (l : List Nat) => l.getD b 0
  { s with thm := { s.thm with
    cal := s.thm.cal.select (rowOr (leAt body (o + 20) 2) 1 (d [120, 600, 300, 120, 60]))
    scrub := s.thm.scrub.select (rowOr (leAt body (o + 22) 2) 60 (d [86400, 86400, 43200, 14400, 3600]))
    otp := s.thm.otp.select (rowOr (leAt body (o + 24) 2) 60 (d [86400, 86400, 43200, 7200, 1800]))
    age := s.thm.age.select (rowOr (leAt body (o + 26) 2) 60 (d [3600, 3600, 1800, 900, 900])) } }

/-- The EDGE word of a group in the present band, with BLANK at least SKIP_BLANK while SKIP applies (R182, R454). -/
def State.edgeVal (s : State) (g : Group) : Nat :=
  let b := s.obj Obj.DIE_BAND
  let o := 16 + 32 * b
  let w := if bit (byteAt s.bandBody o) 0 then leAt s.bandBody (o + 4 + 4 * g.num) 4 else edgeDefault b
  let sb := byteAt s.derBody 76
  if bit (s.obj (Obj.THROTTLE (g.num + 1))) 2 && field w 21 16 < sb
  then w - field w 21 16 * 2 ^ 16 + sb * 2 ^ 16 else w

def State.writeEdges (s : State) : State :=
  s.groups.foldl (fun s g => s.portIfNew (36 + g.num) (s.edgeVal g)) s

/-- Linear interpolation of a curve of four knots, ppm (R452). `t` and `k` in 0.1 °C, `f` in 0.5 %. -/
def curve (k : List Int) (f : List Nat) (t : Int) : Nat :=
  let K := fun i => k.getD i 0
  let F := fun i => f.getD i 0 * 5000
  let seg := fun i => if K (i + 1) ≤ K i then F (i + 1)
    else (((F i : Nat) : Int) - ((F i : Int) - (F (i + 1) : Int)) * (t - K i) / (K (i + 1) - K i)).toNat
  if t < K 0 then 1000000 else if t < K 1 then seg 0 else if t < K 2 then seg 1 else if t < K 3 then seg 2 else F 3

/-- The knots of a group's curve. -/
def State.knots (s : State) (g : Group) : List Int := (List.range 4).map fun i => sAt s.derBody (16 * g.num + 2 * i)
def State.factors (s : State) (g : Group) : List Nat := (List.range 4).map fun i => byteAt s.derBody (16 * g.num + 8 + i)

/-- The stage temperature inputs of a group (R446). -/
def stageInputs : Group → List Nat
  | .input => [0, 1]
  | .pack => [1, 2]
  | _ => [3]

/-- An SNTC input's temperature (R445). -/
def State.sntc (s : State) (k : Nat) : Option Int :=
  let w := s.result (48 + k)
  if isFlagged w then none
  else ntcTemp (codeOf w) (10 * s.obj (Obj.STAGE_NTC_R25)) (s.obj (Obj.STAGE_NTC_BETA))

/-- T_g: an input invalid in three scans reads as the T[3] knot; one invalid for less is left out (R445, R446). -/
def State.stageT (s : State) (g : Group) : Option Int :=
  let l := (stageInputs g).filterMap fun k =>
    match s.sntc k with
    | some t => some t
    | none => if 3 ≤ s.thm.ntcBad.getD k 0 then some ((s.knots g).getD 3 0) else none
  match l with
  | [] => none
  | t :: r => some (r.foldl max t)

/-- SNTC inputs: STAGE_T, and STAGE_NTC_INVALID at the third invalid scan (R445). -/
def State.sntcStep (s : State) (k : Nat) : State :=
  let t := s.sntc k
  let n := if t.isSome then 0 else min 4 (s.thm.ntcBad.getD k 0 + 1)
  let s := (s.set (Obj.STAGE_T (k + 1)) (tempCode t))
  let s := { s with thm := { s.thm with ntcBad := s.thm.ntcBad.set k n } }
  if n = 3 then s.raise 0x0A 3 (k + 1) else s

/-- A factor falls at once and rises by at most 1 % per scan. -/
def factorStep (now target : Nat) : Nat := if target ≤ now then target else min target (now + 10000)

/-- Hysteresis: on at or above `th`, off below `th - hyst`. -/
def latchAt (on : Bool) (t th hyst : Int) : Bool := if th ≤ t then true else if t < th - hyst then false else on

/-- The divided FREQ word of a group, where it may be divided (R453). -/
def State.dividedFreq (s : State) (g : Group) : Option Nat :=
  let w := s.freqVal g
  let f := field w 11 0
  let h := max (f / 2) 200
  let d := if field w 17 16 = 2 then h / 10 * 10 else h
  let sp := ((List.range (field w 15 12 + 1)).filter fun c => 200000 ≤ d * (1000 - 5 * c)).getLast?.getD 0
  if d = f ∨ d < 200 ∨ !planOk s.freqBands d sp (s.storedEn g) then none
  else some (w - field w 11 0 - field w 15 12 * 2 ^ 12 + d + sp * 2 ^ 12)

/-- D_therm of a group, frames (R455). -/
def holdTime (k : List Int) (t : Int) : Nat :=
  let a := k.getD 0 0
  let b := k.getD 3 0
  if t < a then 255 else if b < t then 0 else if b ≤ a then 0 else max 1 ((255 * (b - t) / (b - a)).toNat)

/-- One group's thermal factor, DIV, SKIP and hold time (R452-R455). -/
def State.groupThermal (s : State) (g : Group) : State :=
  match s.stageT g with
  | none => s
  | some t =>
    let key := Obj.THROTTLE (g.num + 1)
    let old := s.obj key
    let f0 := s.thm.f.get g
    let f := factorStep f0 (curve (s.knots g) (s.factors g) t)
    let hyst : Int := (byteAt s.derBody 77 : Nat)
    let div := latchAt (bit old 1) t (sAt s.derBody (16 * g.num + 12)) hyst
    let skip := latchAt (bit old 2) t (sAt s.derBody (16 * g.num + 14)) hyst
    let dw := if div then s.dividedFreq g else none
    let s := { s with thm := { s.thm with f := s.thm.f.put g f } }
    let s := s.set key (f / 5000 * 256 + 4 * b2n skip + 2 * b2n div + b2n (f < 1000000))
    let s := s.set (Obj.D_THERM (g.num + 1)) (holdTime (s.knots g) t)
    let s := if f < 1000000 && f0 = 1000000 then s.raise 0x0A 4 g.num else s
    let s := match dw with
      | some w => s.portIfNew (32 + g.num) w
      | none => if bit old 1 && !div then s.portIfNew (32 + g.num) (s.freqVal g) else s
    if skip != bit old 2 then s.portIfNew (36 + g.num) (s.edgeVal g) else s

/-- The charge curve's factor over the pack group's T_g (R452). -/
def State.chargeThermal (s : State) : State :=
  match s.stageT .pack with
  | none => s
  | some t =>
    let k := (List.range 4).map fun i => sAt s.derBody (64 + 2 * i)
    let f := (List.range 4).map fun i => byteAt s.derBody (72 + i)
    { s with thm := { s.thm with fChg := factorStep s.thm.fChg (curve k f t) } }

/-- The shell clock (R456). -/
def State.shellClock (s : State) : State :=
  if s.obj Obj.TEMP_MAX = 0x7FFF ∧ !s.thm.few then s else
  let t : Int := (tempOf (s.obj Obj.TEMP_MAX)).getD 100000
  let t1 := sAt s.derBody 78
  let t2 := sAt s.derBody 80
  let h : Int := (byteAt s.derBody 82 : Nat)
  let old := s.obj Obj.SHELL_CLK
  let new := if latchAt (old == 2) t t2 h then 2 else if latchAt (old != 0) t t1 h then 1 else 0
  let s := s.set Obj.SHELL_CLK new
  if old < new then s.raise 0x0A 5 new else s

/-- The die band follows TEMP_MAX; a change selects the band's items (R447, R448). True where it changed. -/
def State.bandUpdate (s : State) : Bool × State :=
  let old := s.obj Obj.DIE_BAND
  let b := s.bandBody
  let new := match tempOf (s.obj Obj.TEMP_MAX) with
    | none => if s.thm.few then 4 else old
    | some t => bandStep ((List.range 4).map fun i => sAt b (2 * i)) (byteAt b 8 : Nat) t old
  if new = old then (false, s) else (true, (((s.set Obj.DIE_BAND new).bandIntervals new).writeEdges).probeAbandon)

/-- The evaluation after a common scan that gave MC3 results (R442-R456). True where the band changed. -/
def State.thermalEval (s : State) : Bool × State :=
  if (List.range 8).all fun k => isAbsent (s.result (52 + k)) then (false, s)
  else
    let s := (List.range 8).foldl (fun s k => s.tdStep k) s
    let s := s.tempMax
    let s := { s with thm := { s.thm with seen := true } }
    let s := (List.range 4).foldl (fun s k => s.sntcStep k) s
    let (c, s) := s.bandUpdate
    let s := s.groups.foldl (fun s g => s.groupThermal g) s
    (c, s.chargeThermal.shellClock.writeLimits)

end Sys2Proof.Machine
end

