-- ==== Sys2Proof/Machine/HorizonOps.lean ====
section
/-!
DEFINITION. HorizonOps.lean: the Horizon planner: rounds, baselines, projections, margins, epochs, the derating table and the life log
(R466-R500).
-/
namespace Sys2Proof.Machine

/-! ### Items and instances, numbered as HZ_BASE lists them (R498) -/

/-- The instances of an item (R468). -/
def hzInst : Nat → List Nat
  | 1 => List.range 16
  | 2 => (List.range 16).map (· + 16)
  | 3 => [32]
  | 4 => [33]
  | 5 => [34]
  | 6 => [35]
  | 7 => [36, 37, 38, 39]
  | 8 => [40]
  | 9 => [41]
  | 10 => [42, 43]
  | _ => []

/-- The item of an instance, and its number within the item: the phase, the SNTC input or the port. -/
def hzItem (i : Nat) : Nat × Nat :=
  if i < 16 then (1, i) else if i < 32 then (2, i - 16) else if i < 36 then (i - 29, 0)
  else if i < 40 then (7, i - 35) else if i < 42 then (i - 32, 0) else (10, i - 42)

/-- The instance code of R485. -/
def hzCode (i : Nat) : Nat := (hzItem i).1 * 256 + (hzItem i).2

/-- The instance exists and is measured (R468). -/
def State.hzPresent (s : State) (i : Nat) : Bool :=
  if i < 32 then (s.phasesOf (groupOf (i % 16))).contains (i % 16) && s.obj (Obj.PHASE_POS (i % 16)) != 0
  else if 42 ≤ i then s.variant == .A else true

/-- A Horizon field of the DER body (R494). -/
def State.derAt (s : State) (off n : Nat) : Nat := leAt s.derBody off n

/-- CAPACITY of the CHG image in use, 0.1 Ah. -/
def State.capacity (s : State) : Nat := leAt ((s.body 2).getD []) 30 2

/-- The latest value of an instance as held, and its baseline. -/
def State.hzLatest (s : State) (i : Nat) : Option Nat :=
  match s.hz.latest.read (fun _ => 0) i with | 0 => none | n + 1 => some n
def State.hzBase (s : State) (i : Nat) : Option Nat :=
  match s.hz.base.read (fun _ => 0) i with | 0 => none | n + 1 => some n

/-- The value x of an instance: for item 1 the distance of the mean trim from its baseline (R471). -/
def State.hzX (s : State) (i v : Nat) : Nat :=
  if i < 16 then (ofCode 16 v - ofCode 16 ((s.hzBase i).getD v)).natAbs else v

/-- A new valid value. The first one is the baseline (R470, R482). -/
def State.hzTake (s : State) (i v : Nat) : State :=
  let h := s.hz
  let h := { h with latest := h.latest.write (fun _ => 0) i (v + 1), fresh := i :: h.fresh.filter (· != i) }
  let h := if h.base.read (fun _ => 0) i = 0 then { h with base := h.base.write (fun _ => 0) i (v + 1) } else h
  { s with hz := h }

/-- Baselines go, with their values' standing in the margins (R482). -/
def State.hzClear (s : State) (l : List Nat) : State :=
  { s with hz := { s.hz with
    base := s.hz.base.clearWhere fun k => l.contains k
    low := s.hz.low.filter fun k => !l.contains k
    gone := s.hz.gone.filter fun k => !l.contains k } }

/-- The instances a HZ_REBASE code clears (R482). -/
def rebaseOf : Nat → Option (List Nat)
  | 1 => some [34, 35]
  | 2 => some (hzInst 1 ++ hzInst 2 ++ hzInst 7)
  | 3 => some [32, 33]
  | 4 => some [42, 43]
  | 255 => some ((List.range 44).filter (· != 41))
  | _ => none

/-! ### Sampling (R469-R478) -/

/-- Passive items are sampled (R469). -/
def State.hzSampling (s : State) : Bool := s.shellUp && !s.bringing && s.inMode [2, 3, 5]

def Mean.add (m : Mean) (x : Int) : Mean := { n := m.n + 1, sum := m.sum + x }
def Mean.value (m : Mean) : Int := roundDiv m.sum m.n

/-- A sample pair. -/
def Sums.add (a : Sums) (x y : Int) : Sums :=
  { n := a.n + 1, sx := a.sx + x, sy := a.sy + y, sxx := a.sxx + x * x, sxy := a.sxy + x * y,
    lo := if a.n = 0 then x else min a.lo x, hi := if a.n = 0 then x else max a.hi x }

/-- PHASE_TRIM of the ACTIVE phases after an update that was not frozen (R471). -/
def State.hzTrim (s : State) (g : Group) : State :=
  if s.hzSampling then
    ((s.phasesOf g).filter fun p => (s.phase p).code == 3 && s.hzPresent p).foldl (fun s p =>
      { s with hz := { s.hz with
        trim := s.hz.trim.setIfInBounds p ((s.hz.trim.getD p {}).add (s.phase p).trim) } }) s
  else s

/-- The channel of a group's low side (R395). -/
def lowCh : Group → Nat
  | .input => 32
  | .pack => 17
  | .east => 36
  | .west => 38

/-- The low-side voltage of a group, mV (R142). -/
def State.vlow (s : State) (g : Group) : Int :=
  match g with
  | .input => s.vbus
  | .pack => s.vpack
  | .east => s.vlink .east
  | .west => s.vlink .west

/-- A pair of R472 for a phase: I in mA, Y in mV, from the mean H fraction `dH` in ppm. -/
def State.hzPath (s : State) (p dH : Nat) : State :=
  let i := 10 * (s.phase p).avg
  if s.hzSampling && (s.phase p).code == 3 && 2000 ≤ i.natAbs && s.hzPresent p && s.haveBoth 34 (lowCh (groupOf p)) then
    let y := (dH : Int) * s.vrail / 1000000 - s.vlow (groupOf p)
    { s with hz := { s.hz with path := s.hz.path.setIfInBounds p ((s.hz.path.getD p {}).add i y) } }
  else s

/-- A pack current step (R474): r is kept within 0.25 to 4 times PACK_RDC and moves it by an eighth. -/
def State.hzPackStep (s : State) (i0 i1 v0 v1 : Int) : State :=
  let di := i1 - i0
  if s.hzSampling && 10000 ≤ di.natAbs && ((0 < di) != (0 < v1 - v0)) then
    let r := ((v0 - v1).natAbs * 10000 + di.natAbs / 2) / di.natAbs
    let old := s.obj Obj.PACK_RDC
    if old ≤ 4 * r && r ≤ 4 * old then
      let s := s.put Obj.PACK_RDC (((old : Int) + roundDiv ((r : Int) - old) 8).toNat)
      match tempOf (s.obj Obj.PACK_TEMP) with
      | some t => if 150 ≤ t ∧ t ≤ 350 then { s with hz := { s.hz with rdc := s.hz.rdc.add r } } else s
      | none => s
    else s
  else s

/-- A self-heating step of an SNTC input (R475): temperatures in 0.1 °C, the change of loss in W. -/
def State.hzHeat (s : State) (k : Nat) (before after dP : Int) : State :=
  if s.hzSampling && 10 ≤ dP.natAbs then
    let z := roundDiv ((after - before) * 10 * (if dP < 0 then -1 else 1)) dP.natAbs
    if z < 0 then s else { s with hz := { s.hz with zth := s.hz.zth ++ [(k, z.toNat)] } }
  else s

/-- |CH60| of a common scan (R476). -/
def State.hzRef (s : State) : State :=
  match s.good 60 50000 with
  | some v => if s.hzSampling then { s with hz := { s.hz with ref := s.hz.ref.add v.natAbs } } else s
  | none => s

/-- A speed index taken with TEMP_MAX at 20.0 to 40.0 °C (R477). -/
def State.hzSpeed (s : State) (index : Nat) : State :=
  match tempOf (s.obj Obj.TEMP_MAX) with
  | some t => if s.hzSampling ∧ 200 ≤ t ∧ t ≤ 400 then { s with hz := { s.hz with spd := s.hz.spd.add index } } else s
  | none => s

/-- A burst on a mated port (R478). -/
def State.hzLeak (s : State) (p : Port) (leak : Nat) : State :=
  if !s.hzSampling then s
  else { s with hz := { s.hz with leak := s.hz.leak.put p ((s.hz.leak.get p).add leak) } }

/-! ### Closing a round (R470) -/

def State.closeTrim (s : State) (p : Nat) : State :=
  let m := s.hz.trim.getD p {}
  if 1000 ≤ m.n && s.hzPresent p then s.hzTake p (toCode 16 m.value) else s

/-- R_PATH in 0.01 mΩ from the fit of mV over mA, corrected to 25 °C (R472). -/
def State.closePath (s : State) (p : Nat) : State :=
  let a := s.hz.path.getD p {}
  let d : Int := a.n * a.sxx - a.sx * a.sx
  match s.stageT (groupOf p) with
  | none => s
  | some t =>
    let num := a.n * a.sxy - a.sx * a.sy
    let den := d * (100000 + 393 * (t - 250) / 10)
    if 64 ≤ a.n && 4000 ≤ a.hi - a.lo && 0 < d && 0 < den && 0 ≤ num then
      s.hzTake (16 + p) (min 65535 ((num * 100000 * 100000 / den).toNat))
    else s

/-- The mean of the steps of an SNTC input. -/
def State.closeHeat (s : State) (k : Nat) : State :=
  let l := (s.hz.zth.filter fun e => e.1 == k).map (·.2)
  if l.isEmpty then s else s.hzTake (36 + k) (min 65535 (l.foldl (· + ·) 0 / l.length))

/-- The speed ratio a, 0.1 % (R477). -/
def State.closeSpeed (s : State) : State :=
  let m := s.hz.spd
  if 1000 ≤ m.n then
    let se := m.value.toNat
    let s0 := s.hz.s0.getD se
    let a := min 1000 (min (if s0 = 0 then 1000 else se * 1000 / s0) (s.obj Obj.CORE_SPEED_LIFE_MIN * 1000 / 583))
    { s with hz := { s.hz with s0 := some s0 } }.hzTake 41 a
  else s

/-- The accumulators of a round start afresh. -/
def Horizon.emptied (h : Horizon) : Horizon :=
  { h with trim := Vector.replicate 16 {}, path := Vector.replicate 16 {}, rdc := {}, zth := [], ref := {}, spd := {}, q := none }

/-- Items 5, 6 and 8 at a round. -/
def State.closePack (s : State) : State :=
  match s.hz.q with
  | some q => s.hzTake 34 q
  | none => s
def State.closeRdc (s : State) : State :=
  if s.hz.rdc.n < 8 then s else s.hzTake 35 s.hz.rdc.value.toNat
def State.closeRef (s : State) : State :=
  if s.hz.ref.n == 0 then s else s.hzTake 40 s.hz.ref.value.toNat

/-- The last hourly mean of a port. -/
def State.closeLeak (s : State) (p : Port) : State :=
  match s.hz.hours.get p with
  | h :: _ => if s.variant == .A then s.hzTake (42 + p.num) h.2 else s
  | [] => s

/-- The round closes: every valid item gives its latest value, the accumulators start afresh, and a probe may start in the next ten
minutes (R479). -/
def State.closeRound (s : State) : State :=
  let a := (List.range 16).foldl (fun s p => (s.closeTrim p).closePath p) s
  let b := (List.range 4).foldl (fun s k => s.closeHeat k) a.closePack.closeRdc
  let c := ((b.closeRef.closeSpeed).closeLeak .east).closeLeak .west
  { c with
    hz := { c.hz.emptied with probe := max 1 c.hz.probe, probeBy := c.now + sec 600 }
    thm := { c.thm with age := c.thm.age.ran c.now } }

/-! ### The rail probe (R479-R481) -/

/-- PROBE_EN and HZ_EN of the DER image. -/
def State.hzFlags (s : State) : Nat := s.derAt 96 1

/-- POWER_FLOW.RAIL has left a band of ±5 W about its value at the start of the second (R479). -/
def State.flowWatch (s : State) : State :=
  let r := ofCode 32 (s.obj Obj.POWER_FLOW_RAIL)
  if 5 < (r - s.hz.flow).natAbs then ({ s with hz := { s.hz with flow := r, calm := s.now } } : State) else s

/-- The conditions of R479: the last second undisturbed, in VRAIL_S, in the rail's power flow, by a load step and by feedforward. -/
def State.probeOk (s : State) : Bool :=
  s.shellUp && !s.bringing && s.inMode [2] && bit s.hzFlags 1 && s.obj Obj.TSD_STATE == 0 &&
    (s.obj Obj.SRC_STATE == 2 || s.obj Obj.SRC_STATE == 0) && s.hz.epoch.isNone && s.hz.calm + sec 1 ≤ s.now &&
    s.groups.all fun g => !(s.g g).soft && (s.g g).fold == 1000000 && !(s.g g).dwell

/-! ### Projections and margins (R483-R485) -/

/-- Limit and baseline of an instance, each times 100 (R468, R482). -/
def State.hzLimit (s : State) (i : Nat) : Option (Int × Int) :=
  match s.hzBase i with
  | none => none
  | some b =>
    let x0 : Int := 100 * (b : Int)
    let grow := fun (off : Nat) => some ((((s.derAt off 1) * b : Nat) : Int), x0)
    match hzItem i with
    | (1, p) => some (((6400 * s.obj (Obj.GROUP_BAL_CLAMP ((groupOf p).num + 1)) : Nat) : Int), 0)
    | (2, _) => grow 100
    | (3, _) => grow 101
    | (4, _) => grow 102
    | (5, _) => some (((s.derAt 103 1 * s.capacity : Nat) : Int), x0)
    | (6, _) => grow 104
    | (7, _) => grow 105
    | (8, _) => some (300000, x0)
    | (9, _) => some (((1000 * s.derAt 106 1 : Nat) : Int), x0)
    | _ => some (20000, x0)

/-- The fit over a history at time `t`, times 100; none under four points or 128 h (R483). -/
def fitAt (h : List (Nat × Nat)) (t : Int) : Option Int :=
  let n : Int := h.length
  let ts := h.map (·.1)
  let span := (maxOr 0 ts) - ts.foldl min (maxOr 0 ts)
  if h.length < 4 ∨ span < 460800 then none
  else
    let sx := h.foldl (fun a e => a + (e.1 : Int)) 0
    let sy := h.foldl (fun a e => a + (e.2 : Int)) 0
    let sxx := h.foldl (fun a e => a + (e.1 : Int) * e.1) 0
    let sxy := h.foldl (fun a e => a + (e.1 : Int) * e.2) 0
    let d := n * sxx - sx * sx
    if d ≤ 0 then none else some (roundDiv (100 * (sy * d + (n * sxy - sx * sy) * (n * t - sx))) (n * d).toNat)

/-- x_p of an instance, times 100 (R483). A projection never shows an item better than it is. -/
def State.hzProject (s : State) (i : Nat) (lim x0 : Int) : Int :=
  let x : Int := 100 * ((s.hzX i ((s.hzLatest i).getD ((s.hzBase i).getD 0)) : Nat) : Int)
  let h := (((s.hz.hist.find? fun e => e.1 == i).map (·.2)).getD []).take (s.derAt 97 1)
  match fitAt h ((s.obj Obj.HZ_OP_TIME + 3600 * s.derAt 98 2 : Nat) : Int) with
  | none => x
  | some f => if (if x0 ≤ lim then lim - f ≤ lim - x else x - lim ≥ f - lim) then f else x

/-- The margin of an instance, 0.1 % (R484). -/
def State.hzMargin (s : State) (i : Nat) : Int :=
  match s.hzLimit i with
  | none => 1000
  | some (lim, x0) =>
    if (lim - x0).natAbs * 100 < lim.natAbs then 0
    else clampI (-1000) 1000 ((lim - s.hzProject i lim x0) * (if x0 ≤ lim then 1 else -1) * 1000 / ((lim - x0).natAbs : Int))

/-- The latest value has reached or passed L (R485). -/
def State.hzReached (s : State) (i : Nat) : Bool :=
  match s.hzLimit i, s.hzLatest i with
  | some (lim, x0), some v =>
    let x : Int := 100 * ((s.hzX i v : Nat) : Int)
    if x0 ≤ lim then lim ≤ x else x ≤ lim
  | _, _ => false

/-- Lowest margin over a list of instances. -/
def State.hzLowest (s : State) (l : List Nat) : Int :=
  (l.filter s.hzPresent).foldl (fun m i => min m (s.hzMargin i)) 1000

/-- The member that has it, by its number in the item. -/
def State.hzWorst (s : State) (l : List Nat) : Nat :=
  let m := s.hzLowest l
  if m = 1000 then 0 else (((l.filter s.hzPresent).find? fun i => s.hzMargin i == m).map fun i => (hzItem i).2).getD 0

/-- The reports of R485 for one instance. -/
def State.hzReport (s : State) (i : Nat) : State :=
  let m := s.hzMargin i
  let s :=
    if m < 200 then
      if s.hz.low.contains i then s else { s with hz := { s.hz with low := i :: s.hz.low } }.raise 0x0B 1 (hzCode i)
    else if 250 ≤ m then { s with hz := { s.hz with low := s.hz.low.filter (· != i) } } else s
  if s.hzReached i then
    if s.hz.gone.contains i then s else { s with hz := { s.hz with gone := i :: s.hz.gone } }.raise 0x0B 2 (hzCode i)
  else if 250 ≤ m then { s with hz := { s.hz with gone := s.hz.gone.filter (· != i) } } else s

/-! ### The derating table (R489-R493) -/

/-- The instances counted for DER_NOW sub-index `n`. -/
def derInst : Nat → List Nat
  | 1 => [0, 1, 2, 3, 4, 5, 16, 17, 18, 19, 20, 21, 36, 37]
  | 2 => [6, 7, 8, 9, 10, 11, 22, 23, 24, 25, 26, 27, 37, 38]
  | 3 => [12, 13, 28, 29, 39]
  | 4 => [14, 15, 30, 31, 39]
  | 5 => [34, 35]
  | 6 => [34, 35]
  | 7 => [32, 33]
  | 8 => [42]
  | _ => [43]

/-- The target factor of an entry, ppm (R489). -/
def State.derTarget (s : State) (n : Nat) : Nat :=
  if !bit s.hzFlags 0 then 1000000
  else
    let full := 10 * s.derAt 107 1
    let fmin := 10000 * s.derAt (107 + n) 1
    let m := min full (s.hzLowest (derInst n)).toNat
    if full = 0 then 1000000 else fmin + (1000000 - fmin) * m / full

/-- The step rule of R490. -/
def stepRule (old target : Nat) : Nat := min (clampN (old - old * 5 / 100) (old + old * 5 / 100) target) 1000000

/-- Nearest 0.1 % of a factor in ppm. -/
def toPermille (f : Nat) : Nat := (f + 500) / 1000

/-- The largest BLANK of the BAND image in use, ns (R492). -/
def State.bigBlank (s : State) : Nat :=
  match s.body 4 with
  | none => 80
  | some b =>
    let l := (List.range 5).flatMap fun r =>
      if bit (byteAt b (16 + 32 * r)) 0 then (List.range 4).map fun g => 5 * field (leAt b (20 + 32 * r + 4 * g) 4) 21 16 else []
    if l.isEmpty then 80 else maxOr 0 l

/-- f_c of R492 from the projected speed ratio, and its step rule. -/
def State.freqCeil (s : State) : Nat :=
  let b := s.bigBlank
  let a := match s.hzLimit 41 with
    | none => 1000
    | some (lim, x0) => max 1 ((s.hzProject 41 lim x0 / 100).toNat)
  let f := 2200 * (b + 120) * a / (b * a + 120000)
  let f := clampN 200 2200 (f / 10 * 10)
  let old := s.obj Obj.FREQ_CEIL
  clampN (old - old * 5 / 100) (old + old * 5 / 100) f

/-! ### The life log (R496, R497) -/

/-- A temperature as the log stores it: degrees plus 50. -/
def logTemp (t : Int) : Nat := clampN 0 255 ((t / 10 + 50).toNat)

/-- A whole record: TYPE, FLAGS, OP_TIME in minutes, 24 bytes of body, CHECK. -/
def State.logRecord (s : State) (type flags : Nat) (body : List Byte) : List Byte :=
  let b := leBytes 1 type ++ leBytes 1 flags ++ leBytes 4 (s.obj Obj.HZ_OP_TIME / 60) ++ fitBytes 24 body
  b ++ leBytes 2 (crc16 b)

/-- The flash can be written. -/
def State.flashOk (s : State) : Bool := s.obj Obj.FLASH_STATE == 1 || s.obj Obj.FLASH_STATE == 2

/-- Records are written, those held for a retry first; a write that fails is held (R497). -/
def State.logWrite (s : State) (type flags : Nat) (body : List Byte) : State :=
  let r := s.logRecord type flags body
  if s.flashOk then
    let s := { s with log := (r :: (s.logRetry.reverse ++ s.log)).take 131400, logRetry := [] }
    s.put Obj.HZ_LOG_COUNT s.log.length
  else { s with logRetry := s.logRetry ++ [r] }.raise 0x0B 5 type

/-- Saturating to a number of bytes. -/
def satBytes (n v : Nat) : List Byte := leBytes n (min (256 ^ n - 1) v)

/-- The HOUR record of the accumulators (R496). -/
def State.hourRecord (s : State) (partialHour : Bool) : State :=
  let h := s.hour
  let body := satBytes 2 (h.rail / 3600000) ++ satBytes 2 (h.bus / 3600000) ++ satBytes 2 (h.dis / 36000000) ++
    satBytes 2 (h.chg / 36000000) ++
    satBytes 1 (logTemp h.tMax) ++ satBytes 1 (logTemp h.sMax) ++ satBytes 1 (logTemp h.pMax) ++ satBytes 1 (logTemp h.pMin) ++
    satBytes 1 (h.socMin / 5) ++ satBytes 1 (h.socMax / 5) ++ satBytes 2 h.spd ++ satBytes 1 h.drops ++ satBytes 1 h.dumps ++
    leBytes 2 (s.obj (Obj.HZ_LEAK_MEAN 1)) ++ leBytes 2 (s.obj (Obj.HZ_LEAK_MEAN 2)) ++ satBytes 1 h.faults ++
    satBytes 1 (h.derated / 60000)
  let s := s.logWrite 1 (b2n partialHour + 2 * b2n h.reset + 4 * b2n h.overcast) body
  { s with hour := { mark := h.mark } }

/-- The EPOCH record. -/
def State.epochRecord (s : State) (trig : Nat) : State :=
  State.logWrite { s with hz := { s.hz with reset := false } } 2 (2 * b2n s.hz.reset) (leBytes 2 (s.obj Obj.HZ_EPOCH_COUNT) ++ leBytes 1 trig ++ leBytes 2 (s.obj Obj.FREQ_CEIL) ++
    (List.range 9).flatMap (fun n => leBytes 1 (s.obj (Obj.DER_NOW (n + 1)) / 5)) ++
    (List.range 10).flatMap fun n => leBytes 1 (toCode 8 (ofCode 16 (s.obj (Obj.HZ_MARGIN (n + 1))) / 10)))

/-- The PARK record at the end of a bring-up from Park. -/
def State.parkRecord (s : State) : State :=
  let p := s.parkAcc
  (State.logWrite { s with parkAcc := { p with due := false } } 3 (2 * b2n p.reset) (leBytes 4 ((s.now - p.since) / sec 1) ++ leBytes 4 0 ++ satBytes 1 (p.socIn / 5) ++
    satBytes 1 (s.obj Obj.PACK_SOC / 5) ++ satBytes 1 p.runs ++ satBytes 1 (logTemp p.pMin) ++ satBytes 1 (logTemp p.pMax) ++
    leBytes 1 (s.obj Obj.MODE_CAUSE)))

/-! ### Epochs (R486-R488) -/

/-- An epoch starts; one that runs is not disturbed (R486). -/
def State.epochStart (s : State) (trig : Nat) : State :=
  if s.hz.epoch.isSome then s
  else
    let s := s.probeAbandon
    { s with hz := { s.hz with epoch := some trig, der := s.derBody } }.set Obj.HZ_STATE 3

/-- An epoch that has not reached step 6 is discarded (R488). -/
def State.epochDiscard (s : State) : State :=
  match s.hz.epoch with
  | none => s
  | some t =>
    (({ s with hz := { s.hz with epoch := none, der := [] } }.set Obj.HZ_EPOCH_RESULT 2).set Obj.HZ_STATE 1).raise 0x0B 6 t

/-- Step 2: new values join their histories. -/
def State.hzHistory (s : State) : State :=
  let t := s.obj Obj.HZ_OP_TIME
  let s := s.hz.fresh.foldl (fun s i =>
    match s.hzLatest i with
    | none => s
    | some v =>
      let old := ((s.hz.hist.find? fun e => e.1 == i).map (·.2)).getD []
      { s with hz := { s.hz with
        hist := (s.hz.hist.filter fun e => !(e.1 == i)) ++ [(i, ((t, s.hzX i v) :: old).take 16)] } }) s
  { s with hz := { s.hz with fresh := [] } }

/-- The measurement objects of step 6. -/
def State.hzReportValues (s : State) : State :=
  let putAt := fun (s : State) (k i : Nat) => match s.hzLatest i with | some v => s.put k v | none => s
  let s := (List.range 16).foldl (fun s p =>
    let s := match s.hzLatest p with
      | some v => s.put (Obj.HZ_PHASE_DRIFT p) (toCode 16 (ofCode 16 v - ofCode 16 ((s.hzBase p).getD v)))
      | none => s
    putAt s (Obj.HZ_PATH_R p) (16 + p)) s
  let s := putAt (putAt s Obj.HZ_RAIL_C 32) Obj.HZ_RAIL_ESR 33
  let s := (List.range 4).foldl (fun s k => putAt s (Obj.HZ_ZTH (k + 1)) (36 + k)) s
  putAt (putAt s Obj.HZ_REF_DRIFT 40) Obj.HZ_SPEED_RATIO 41

/-- Margins as objects, with the reports of R485. -/
def State.hzReportMargins (s : State) : State :=
  let s := (List.range 10).foldl (fun s n =>
    (s.put (Obj.HZ_MARGIN (n + 1)) (toCode 16 (s.hzLowest (hzInst (n + 1))))).put
      (Obj.HZ_WORST (n + 1)) (s.hzWorst (hzInst (n + 1)))) s
  ((List.range 44).filter s.hzPresent).foldl (fun s i => s.hzReport i) s

/-- Factors and the ceiling under the step rule, and their objects. -/
def State.hzFactors (s : State) : State :=
  let ppm := (List.range 9).map fun n =>
    if 7 ≤ n && s.variant != .A then 1000000 else stepRule (s.hz.ppm.getD n 1000000) (s.derTarget (n + 1))
  let fc := s.freqCeil
  let s := { s with hz := { s.hz with ppm := ppm } }
  let s := (List.range 9).foldl (fun s n => s.put (Obj.DER_NOW (n + 1)) (toPermille (ppm.getD n 1000000))) s
  s.put Obj.FREQ_CEIL fc

/-- The highest multiple of 10 kHz at or below the ceiling that passes R174 with a spread code and a number of phases. -/
def State.underCeiling (s : State) (spread n : Nat) : Option Nat :=
  let l : List Nat := (List.range 221).map (· * 10)
  (l.filter fun t => decide (t ≤ s.obj Obj.FREQ_CEIL) && decide (200 ≤ t) && planOk s.freqBands t spread n).getLast?

/-- The frequency a group is lowered to. -/
def State.ceilingTarget (s : State) (g : Group) : Option Nat := s.underCeiling (field (s.word (32 + g.num)) 15 12) (s.nEn g)

/-- After a power-on the groups whose stored frequency lies above the restored ceiling start under it (R493). -/
def State.ceilingBoot (s : State) : State :=
  { s with hz := { s.hz with ceiling := (s.groups.filter fun g =>
      decide (s.obj Obj.FREQ_CEIL < s.obj (Obj.GROUP_FREQ (g.num + 1)))).filterMap fun g =>
        (s.underCeiling (s.obj (Obj.GROUP_SPREAD (g.num + 1))) (s.storedEn g)).map fun t => (g, t) } }

/-- A group locked to a reference leaves it under a lowered ceiling, until the next GROUP_APPLY (R178, R500). -/
def State.syncBar (s : State) (g : Group) : State :=
  if (s.g g).sync = 2 then
    (s.modG g fun x => { x with syncBarred := true }).raise (sourceOf g) 9 ((s.g g).freq / 10)
  else s

/-- A lowered ceiling starts the stepping of the groups above it (R493). -/
def State.ceilingStart (s : State) : State :=
  let c := s.obj Obj.FREQ_CEIL
  s.groups.foldl (fun s g =>
    match s.ceilingTarget g with
    | some t =>
      if c < field (s.word (32 + g.num)) 11 0 && (s.g g).freq != 0 && !(s.hz.ceiling.contains (g, t)) then
        ({ s with hz := { s.hz with ceiling := (s.hz.ceiling.filter fun (e : Group × Nat) => e.1 != g) ++ [(g, t)] } }.raise
          0x0B 3 g.num).syncBar g
      else s
    | none => s) s

/-- Steps 1 to 6 of R487 with the DER section read at the start; the journal commit is the caller's. -/
def State.epochFinish (s : State) (trig : Nat) : State :=
  let t := s.obj Obj.HZ_OP_TIME
  let s := s.closeRound
  let q := if s.hz.fresh.contains 34 then s.hzLatest 34 else none
  let s := s.hzHistory
  let s := match q with
    | some q =>
      let old := s.obj Obj.PACK_Q
      s.put Obj.PACK_Q (((old : Int) + roundDiv ((q : Int) - old) 4).toNat)
    | none => s
  let s := (s.put Obj.PACK_RDC (s.obj Obj.PACK_RDC)).hzReportValues.hzReportMargins.hzFactors
  let s := ((s.count Obj.HZ_EPOCH_COUNT 0xFFFFFFFF).put Obj.HZ_EPOCH_LAST t).set Obj.HZ_EPOCH_RESULT 1
  let s := s.epochRecord trig
  ({ s with hz := { s.hz with epoch := none, der := [] } }.set Obj.HZ_STATE 1).ceilingStart

end Sys2Proof.Machine
end

