-- ==== Sys2Proof/Machine/ControlCore.lean ====
section
/-!
DEFINITION. ControlCore.lean: the clockless control core: port writes, phase cycles, feedforward, speed monitor, hardwired
protections (R88-R134).
-/
namespace Sys2Proof.Machine

/-! ### The handshake port (R110-R116) -/

/-- Even parity of a port word (R110). -/
def evenParity (w : Nat) : Bool := ((List.range 32).filter fun i => w.testBit i).length % 2 == 0

/-- What a write of one 32-bit word of even parity does (R110, R111, R113, R116, R130). -/
def State.portRaw (s : State) (w : Nat) : State :=
  let id := field w 31 26
  if id = 0x3D then s.commitWords
  else if id = 0x3E then s.handoverWord
  else if id = 0x3F then s
  else s.portWord id (field w 23 0) (bit w 25)

/-- The core refuses a word for another cause than its parity (R111). -/
def State.wordBad (s : State) (w : Nat) : Bool :=
  let id := field w 31 26
  decide (id < 0x3D) && !(s.wordDefined id && wordInRange id (field w 23 0))

/-- The port works while the core domain is powered and its writer, the shell, is not absent (R33, R38). -/
def State.portOpen (s : State) : Bool := !s.aon.por && s.aon.shell

def execCommit (s : State) : Host.Outcome State Fault Refusal :=
  .next (s.logged fun s => if s.portOpen then s.commitWords else s)

/-- A HEARTBEAT changes no latch and is never held (R116). -/
def execHeartbeat (s : State) : Host.Outcome State Fault Refusal := .next s

/-! ### PWM outputs (R119) -/

/-- Power conversion is off: power-on reset, Storage, Park or Overcast. -/
def State.convOff (s : State) : Bool :=
  s.aon.por || s.aon.overcast || (!s.bringing && (s.modeNow == 0 || s.modeNow == 1))

/-- The level at PWMn under R119, the first applicable row deciding. In pass-through the level itself is H, once a phase has come to it
through Z (R89). -/
def State.pwm (s : State) (p : Nat) : Level :=
  let g := groupOf p
  let x := s.phase p
  if !(s.phasesOf g).contains p || s.aon.por || s.core.stall || s.convOff then .Z
  else if x.code = 5 || (s.g g).stops != 0 then .Z
  else if g = .input && !s.core.disc then .Z
  else if x.weight = 0 then .Z
  else if (s.g g).dwell then .Z
  else x.level

/-- The phase switches under R91. -/
def State.switching (s : State) (p : Nat) : Bool :=
  let g := groupOf p
  let x := s.phase p
  (s.phasesOf g).contains p && !s.aon.por && !s.core.stall && !s.convOff && x.code != 5 && (s.g g).stops == 0 &&
    (g != .input || s.core.disc) && x.weight != 0 && !(s.g g).dwell && !(g == .input && (s.g g).pass) && (s.g g).freq != 0

/-- The phase is not at Z: it switches, or its output stands at a level. -/
def State.conducts (s : State) (p : Nat) : Bool := s.switching p || s.pwm p != .Z

/-- The controlled switch by group and direction (R88). -/
def State.ctrl (s : State) (g : Group) : Level :=
  if g = .input then .L else if (s.g g).deliver then .L else .H

def State.compl (s : State) (g : Group) : Level :=
  if g = .input then .H else if (s.g g).deliver then .H else .L

/-- Boost directions are held off by RAIL_OV (R122). -/
def State.heldOff (s : State) (g : Group) : Bool := (s.core.railOv == 1 || s.core.railOv == 2) && s.ctrl g == .L

/-- The dead time that follows a level, in 0.25 ns, never below 10 ns (R90, R181). While a servo is out of lock it is the longest
that the band's edge table gives, as the EDGE words hold it (R122). -/
def State.deadTime (s : State) (g : Group) (was : Level) : Nat :=
  if s.servoLock then s.edgeDead g was
  else s.groups.foldl (fun n x =>
    let w := s.word (36 + x.num)
    max n (max (field w 7 0) (field w 15 8))) 40

/-- Both dead times of a cycle. -/
def State.deadTimes (s : State) (g : Group) : Nat := s.deadTime g .H + s.deadTime g .L

/-- The present period of a group, 0.25 ns. -/
def State.cycleTime (s : State) (g : Group) : Nat := (s.g g).period * 24 / 100

/-- The dead time that a phase at Z has still to stand before its controlled switch may turn on. -/
def State.deadLeft (s : State) (p : Nat) : Nat :=
  match (s.phase p).offAt with
  | none => 0
  | some t => s.deadTime (groupOf p) (s.compl (groupOf p)) - 20 * (s.now - t)

/-- The controlled switch turns on, through Z where the complementary switch still conducts or has only just ended (R89). -/
def State.turnOn (s : State) (p : Nat) : State :=
  let g := groupOf p
  let s := if (s.phase p).level = s.compl g then s.modP p fun x => x.toZ s.now else s
  let n := s.deadLeft p
  s.modP p fun x => { x with
    on := true, dead := n, due := if n = 0 then .Z else s.ctrl g, level := if n = 0 then s.ctrl g else .Z }

/-- A start instant. The cycle before had no 60 A condition: its run ends, and PHASE_PEAK with it (R122). A skipped start leaves
the phase at Z for the cycle (R454). -/
def execPhaseCycleStart (p : Fin 16) (s : State) : Host.Outcome State Fault Refusal :=
  .next (
    let g := groupOf p
    if s.switching p then
      let calm := !(s.phase p).cut
      let s := s.modP p fun x => { x with
        cut := false, peakRun := if calm then 0 else x.peakRun, left := s.cycleTime g }
      let s := if calm then s.coreClearI 1 1 p else s
      if (s.phase p).skip then s.modP p fun x => { x with skip := false, blankHits := 0 }.toZ s.now
      else if s.heldOff g then s.modP p fun x => x.toZ s.now
      else s.turnOn p
    else s)

/-- The controlled switch ends: Z for the dead time, then the complementary switch (R89, R91). -/
def State.terminate (s : State) (p : Nat) : State :=
  let g := groupOf p
  (s.modP p fun x => x.toZ s.now).modP p fun x =>
    if x.cut then x else { x with dead := s.deadTime g (s.ctrl g), due := s.compl g }

/-- ISNSn in the direction of the command, mA. -/
def State.sensed (s : State) (p : Nat) (isns : Int) : Int := if (s.g (groupOf p)).deliver then -isns else isns

/-- A comparator event, `t` ns after the turn-on with ISNSn at `isns` mA. The controlled switch ends where the current is at the
peak command less the ramp; inside the blanking time nothing is acted on, and at its end what still holds is (R91, R103, R144).
Two such ends in a row skip the next start (R454). In soft-start a zero crossing ends the complementary switch (R167). -/
def execCurrentTermination (p : Fin 16) (isns : Int) (t : Nat) (s : State) : Host.Outcome State Fault Refusal :=
  .next (
    let g := groupOf p
    let blank := 5 * field (s.word (36 + g.num)) 21 16
    if !s.switching p then s
    else if (s.phase p).on then
      if t < blank || s.sensed p isns < s.threshold p t then s
      else
        let s := s.terminate p
        if t = blank then s.modP p fun x =>
          { x with blankHits := if x.blankHits = 0 then 1 else 0, skip := x.skip || x.blankHits != 0 }
        else s.modP p fun x => { x with blankHits := 0 }
    else if (s.g g).diode && s.sensed p isns ≤ 0 then s.modP p fun x => x.toZ s.now
    else s)

def execMaxOnTimeEnd (p : Fin 16) (s : State) : Host.Outcome State Fault Refusal :=
  .next (if s.switching p && (s.phase p).on then (s.terminate p).modP p fun x => { x with blankHits := 0 } else s)

/-- The phase is held at H in pass-through. -/
def State.passing (s : State) (p : Nat) : Bool := groupOf p == .input && (s.g .input).pass && (s.phase p).weight != 0

/-- One 5 ns tick of a phase: the dead time runs, and the complementary switch ends one dead time before the next start
(R89, R91). Where less than 10 ns would be left to it, the cycle ends in Z (R90). -/
def State.phaseTick (s : State) (p : Nat) : State :=
  let x := s.phase p
  let g := groupOf p
  let left := x.left - 20
  if x.dead != 0 then
    if x.dead ≤ 20 then
      let short := !x.on && x.left != 0 && left < s.deadTime g x.due + 40
      s.modP p fun x => { x with
        left := left, dead := 0, due := .Z, level := if (s.switching p || s.passing p) && !short then x.due else .Z }
    else s.modP p fun x => { x with left := left, dead := x.dead - 20 }
  else if x.left = 0 || s.passing p then s
  else if !x.on && x.level != .Z && left ≤ s.deadTime g x.level then s.modP p fun x => { x with left := left }.toZ s.now
  else s.modP p fun x => { x with left := left }

/-- A phase at Z for 1 ms is measured (R141). -/
def execIsnsZeroMeasurement (p : Fin 16) (mv : Nat) (s : State) : Host.Outcome State Fault Refusal :=
  .next (s.logged fun s => if (s.phasesOf (groupOf p)).contains p.val && s.pwm p == .Z then s.zeroMeasured p mv else s)

/-- An envelope decode sets a group's I_ff; it is 0 while the shell is absent, and the input group takes none while
paused (R95, R221). -/
def State.feedforward (s : State) (g : Group) (iff : Int) : State :=
  let v := if s.strat.absent || !s.hasGroup g || (g == .input && !s.core.disc) then 0 else iff
  s.modG g fun x => { x with iff := v, ffRise := max x.ffRise (v.natAbs - x.iff.natAbs) }

/-- Only in the modes with feedforward does an update add a current (R52). -/
def execFeedforwardUpdate (g : Group) (iff : Int) (s : State) : Host.Outcome State Fault Refusal :=
  .next (s.feedforward g (if s.ffMode then iff else 0))

/-! ### Hardwired protections (R122-R124) -/

/-- A phase is latched at Z and leaves N_act (R122, R123). -/
def State.latchPhase (s : State) (p : Nat) : State :=
  let s := if (s.phase p).weight = 0 then s else s.setChanged (groupOf p)
  s.modP p fun x => { x with code := 5, weight := 0, latched := true }.toZ s.now

/-- PHASE_PEAK at most once per millisecond per phase, with its event; the occurrences in between are counted (R124, R426). -/
def State.reportPeak (s : State) (p : Nat) : State :=
  if (s.phase p).peakAt.elim true fun t => t + ms 1 ≤ s.now then
    let s := (s.ev 4 p ((s.phase p).peaks + 1)).modP p fun x => { x with peakAt := some s.now, peaks := 0 }
    let m : Msg := { src := 1, kind := 1, inst := p }
    if s.core.conds.contains m then s.coreSend m else s.coreRaiseC 1 1 p
  else (s.modP p fun x => { x with peaks := satInc 65535 x.peaks }).again 1 1

/-- |ISNSn| at 60 A: Z for the rest of the cycle, latched at the third consecutive cycle (R122). -/
def State.phasePeak (s : State) (p : Nat) : State :=
  let n := (s.phase p).peakRun + 1
  let s := s.modP p fun x => { x with peakRun := n, cut := true }.toZ s.now
  let s := s.reportPeak p
  if 3 ≤ n then (s.latchPhase p).coreRaiseC 1 2 p else s

def execPhasePeak (p : Fin 16) (s : State) : Host.Outcome State Fault Refusal :=
  .next (s.logged fun s => if s.switching p && !(s.phase p).cut then s.phasePeak p else s)

def execStageFault (p : Fin 16) (s : State) : Host.Outcome State Fault Refusal :=
  .next (s.logged fun s => if (s.phasesOf (groupOf p)).contains p.val && !s.aon.por && (s.phase p).code != 5
    then (s.latchPhase p).coreRaiseC 1 3 p else s)

/-- RAIL_OV: the controlled switches of boost directions are held off, the input group to Z with DISC_GATE kept on (R122); a rail that
rises again before it has stood below 104 % for 10 ms has persisted already. -/
def execRailOv (s : State) : Host.Outcome State Fault Refusal :=
  .next (s.logged fun s => if (s.core.railOv = 0 ∨ s.core.railOv = 3) ∧ !s.convOff then
      let n := if s.core.railOv = 3 then 2 else 1
      let s := ({ (s.stopG .input 5) with core := { s.core with railOv := n } } : State)
      let s := s.groups.foldl (fun s g =>
        if s.heldOff g then s.modPs ((s.phasesOf g).filter fun p => (s.phase p).on) fun x => x.toZ s.now else s) s
      s.coreRaiseC 1 4 0
    else s)

/-- RAIL_OV persisting for 10 ms also turns DISC_GATE off. -/
def execRailOvPersist (s : State) : Host.Outcome State Fault Refusal :=
  .next (s.logged fun s => if s.core.railOv = 1 then
      let s := s.gateOpen
      ({ s with core := { s.core with railOv := 2 } } : State).coreRaiseC 1 5 0
    else s)

/-- The boost directions are free again: a group start each (R166). -/
def State.railFree (s : State) : State :=
  s.groups.foldl (fun s g => if s.ctrl g == .L then s.modG g fun x => { x with start := true } else s) s

/-- VRAIL_S below 104 % of RAIL_V releases the action; a persisting one only once it has stood below for 10 ms, `held`
(R122). DISC_GATE then returns under R204. -/
def execRailOvRelease (held : Bool) (vbus vrail : Nat) (s : State) : Host.Outcome State Fault Refusal :=
  .next (s.logged fun s => match s.core.railOv with
    | 0 => s
    | 1 => (({ (s.freeG .input 5) with core := { s.core with railOv := 0 } } : State).railFree).coreClearK 1 4
    | n =>
      let s := if n = 2 then s.railFree.coreClearK 1 4 else s
      if held then
        (({ (s.freeG .input 5) with core := { s.core with railOv := 0 } } : State).gateBack vbus vrail).coreClearK 1 5
      else { s with core := { s.core with railOv := 3 } })

def execServoUnlock (g : Group) (s : State) : Host.Outcome State Fault Refusal :=
  .next (if s.hasGroup g && (s.g g).servo && !s.aon.por then
      (s.modG g fun x => { x with servo := false }).coreRaiseC 1 9 g.num
    else s)

def execServoRelock (g : Group) (s : State) : Host.Outcome State Fault Refusal :=
  .next (if !(s.g g).servo then (s.modG g fun x => { x with servo := true }).coreClearI 1 9 g.num else s)

/-! ### Speed monitor (R106-R109) -/

/-- One more update of a run. -/
def runStep (r : Run) (low : Bool) : Run :=
  if low then { low := r.low + 1, ok := 0 } else { low := 0, ok := r.ok + 1 }

/-- A threshold of R108: three updates below raise the kind, 100 at or above clear it. -/
def State.speedKind (s : State) (kind index : Nat) (r : Run) : State :=
  if r.low = 3 then s.raise1 1 kind index else if r.ok = 100 then s.clearK 1 kind else s

/-- The speed index from the ring count (R106), its latency estimate (R107) and its minima (R109). -/
def State.speedUpdate (s : State) (count : Nat) : State :=
  let typ := s.otpTypCount
  let index := min 65535 (if typ = 0 then 0 else count * 1000 / typ)
  let s := s.set Obj.CORE_SPEED_INDEX index
  let s := s.set Obj.CORE_SPEED_LATENCY (if index = 0 then 65535 else min 65535 (700 * 1000 / index))
  let s := if index < s.obj Obj.CORE_SPEED_MIN then s.set Obj.CORE_SPEED_MIN index else s
  let s := if index < s.obj Obj.CORE_SPEED_LIFE_MIN then s.put Obj.CORE_SPEED_LIFE_MIN index else s
  let a := runStep s.spd.slow (index < s.obj Obj.CORE_SLOW_LIMIT)
  let b := runStep s.spd.very (index < 450)
  (({ s with spd := ⟨a, b⟩ } : State).speedKind 6 index a).speedKind 7 index b

/-- The index is a sample of Horizon's item 9 (R477). -/
def execCoreSpeedUpdate (count : Nat) (s : State) : Host.Outcome State Fault Refusal :=
  .next (if s.shellUp then (s.speedUpdate count).hzSpeed ((s.speedUpdate count).obj Obj.CORE_SPEED_INDEX) else s)

/-! ### Balancing (R159-R161) -/

/-- An update every 16 cycles. One that is not frozen is a sample of Horizon's item 1 (R471). -/
def execBalancingUpdate (g : Group) (avg : List Int) (s : State) : Host.Outcome State Fault Refusal :=
  .next (if s.hasGroup g && (s.g g).cycles16 == 16 then
    (if s.balFrozen g then s.balance g avg else (s.balance g avg).hzTrim g)
  else s)

end Sys2Proof.Machine
end

