-- ==== Sys2Proof/Machine/GrantOps.lean ====
section
/-!
DEFINITION. GrantOps.lean: the grant terms and the grant (R245-R252), the demand queue (R236, R237), feedforward (R253, R254) and
the grant frame (R243, R244). Powers are in µW.
-/
namespace Sys2Proof.Machine

def State.eff (s : State) (n : Nat) : Nat := s.obj (Obj.ENV_EFF n)

/-! ### Terms (R245) -/

def State.termBus (s : State) : Nat :=
  if s.obj Obj.SRC_STATE = 2 then s.obj Obj.IIN_LIMIT * s.vbus.toNat * s.eff 1 / 10 else 0

/-- E_AVAIL, 0.1 Wh (R296). -/
def State.eAvail (s : State) : Nat := s.obj Obj.PACK_ENERGY - s.obj Obj.RT_RESERVE

/-- The zone in every respect: an unknown zone counts as Z5 (R270). -/
def State.zone (s : State) : Nat := min 5 (s.obj Obj.PACK_ZONE)

/-- A field of the present zone's record of the CHG image (R271). -/
def State.zoneAt (s : State) (off n : Nat) : Nat := leAt ((s.body 2).getD []) (64 + 48 * s.zone + off) n
def State.zoneChg (s : State) : Bool := bit (s.zoneAt 0 1) 0
def State.zoneDis (s : State) : Bool := bit (s.zoneAt 0 1) 1

/-- The pack can supply (R217). One that the handover has still to see counts as it stood (R288). -/
def State.packAlive (s : State) : Bool := s.obj Obj.PACK_STATE == 1 || s.chg.unseen

/-- I_dis, 0.1 A. -/
def State.iDis (s : State) : Nat := min s.dischargeLimit (s.groupLimit .pack)

def State.termPack (s : State) : Nat :=
  if s.packAlive && s.zoneDis && s.eAvail != 0 then
    let v : Int := s.vpack + (s.ipack - 100 * s.iDis) * s.obj Obj.PACK_RDC / 10000
    s.iDis * v.toNat * s.eff 2 / 10
  else 0

/-- Contract current after the group limit and the moisture cap, 0.1 A. -/
def State.contractI (s : State) (p : Port) : Nat :=
  let i := min (5 * field (s.contract p) 7 0) (s.groupLimit p.group)
  if s.obj (Obj.LINK_MOIST (p.num + 1)) = 1 then min i 50 else i

def State.termLink (s : State) (p : Port) : Nat :=
  if s.consumer p then s.contractV p * s.contractI p * s.eff 3 / 10 else 0

def State.termExp (s : State) : Nat :=
  [Port.east, Port.west].foldl (fun n p =>
    if s.provider p && s.eff 3 != 0 then n + s.contractV p * s.contractI p * 100000 / s.eff 3 else n) 0

/-- P_cap, 2 W: GRANT_PEAK under its Horizon term and its ceiling (R43). -/
def State.capUnits (s : State) : Nat :=
  let t := s.obj Obj.GRANT_PEAK
  min (s.hzTerm 7 t) (min t (s.ceil 7))

def State.contUnits (s : State) : Nat := min (s.obj Obj.GRANT_CONT) (s.ceil 6)

/-! ### Derating flags of a term -/

/-- The thermal term is below the table value and the smallest of R43 (R455). -/
def State.thermFlag (s : State) (g : Group) (n : Nat) : Bool :=
  s.thm.f.get g < 1000000 && s.thm.f.get g ≤ 1000 * s.hz.applied.getD (n - 1) 1000 &&
    (g != .input || s.thermTerm .input (s.srcRow s.curRow 10 2) ≤ s.ceil 1)

/-- The Horizon term is below the table value and below the other terms. -/
def State.hzFlag (s : State) (g : Group) (n : Nat) : Bool :=
  s.hz.applied.getD (n - 1) 1000 < 1000 && 1000 * s.hz.applied.getD (n - 1) 1000 < s.thm.f.get g &&
    (g != .input || s.hzTerm 1 (s.srcRow s.curRow 10 2) ≤ s.ceil 1)

/-- The bus term stands at its table limit, or at the harness estimate (R201). -/
def State.busCapped (s : State) : Bool :=
  s.srcRow s.curRow 10 2 ≤ s.obj Obj.IIN_LIMIT || s.obj Obj.SRC_MEAS_I_HARN ≤ s.obj Obj.IIN_LIMIT

/-- Bits [3:0] of a term slot: CAPPED, HORIZON, THERM, COUNTED (R243). -/
def termBits (counted therm hz capped : Bool) : Nat := 8 * b2n capped + 4 * b2n hz + 2 * b2n therm + b2n counted

/-- A term slot: power in 2 W, duration, flags. -/
def termSlot (uw dur bits : Nat) : Nat := min 4095 (uw / 2000000) * 2 ^ 20 + min 255 dur * 2 ^ 12 + bits

/-! ### The demand queue -/

/-- Pair `p`'s entry for frame `f`. -/
def State.entry (s : State) (p f : Nat) : Nat := s.env.queue.read (fun _ => 0) (16 * f + p)

/-- D(f), 2 W (R237). -/
def State.demandAt (s : State) (f : Nat) : Nat := ((List.range 16).drop 1).foldl (fun n p => n + s.entry p f) 0

/-- The largest D over frames `f` to `f + n`. -/
def State.demandMax (s : State) (f n : Nat) : Nat := (List.range (n + 1)).foldl (fun m k => max m (s.demandAt (f + k))) 0

/-- DEMAND_NOW.DUE and DEMAND_NOW.PEAK (R256). -/
def State.demandNow (s : State) : State :=
  let frames := (s.env.queue.map fun e => e.1 / 16).eraseDups.filter (s.env.frame ≤ ·)
  let peak := frames.foldl (fun m f => max m (s.demandAt f)) 0
  let due := s.demandAt s.env.frame
  let s := (s.set Obj.DEMAND_NOW_DUE (min 65535 due)).set Obj.DEMAND_NOW_PEAK (min 65535 peak)
  if s.obj Obj.ENV_STATS_MAX_DEM < min 65535 due then s.put Obj.ENV_STATS_MAX_DEM (min 65535 due) else s

/-- Raise `n` entries of a pair from frame `f` to at least `d` (R236). -/
def State.raiseEntries (s : State) (p f d : Nat) : Nat → State
  | 0 => s
  | n + 1 =>
    let q := s.env.queue
    let k := 16 * (f + n) + p
    ({ s with env := { s.env with queue := if q.read (fun _ => 0) k < d then q.write (fun _ => 0) k d else q } }).raiseEntries p f d n

/-- A pair's queued entries are cleared. -/
def State.clearPair (s : State) (p : Nat) : State :=
  { s with env := { s.env with queue := s.env.queue.clearWhere fun k => k % 16 == p } }

/-! ### Feedforward (R253, R254) -/

/-- A share in µW as a current of the delivering direction, mA. -/
def shareI (uw eff : Nat) (v : Int) : Int :=
  if eff = 0 ∨ v ≤ 0 then 0 else -((uw * 1000 / eff / v.toNat : Nat) : Int)

/-- P_ff is allocated to the groups in the order of R41. In Ride-through the input group takes none (R251). -/
def State.allocate (s : State) (pff : Nat) : State :=
  let uw := pff * 2000000
  let inp := if s.modeNow = 4 then 0 else min uw (s.termBus - s.termExp)
  let r1 := uw - inp
  let e := min r1 (s.termLink .east)
  let w := min (r1 - e) (s.termLink .west)
  let pk := min (r1 - e - w) s.termPack
  let s1 := s.feedforward .input (shareI inp (s.eff 1) s.vbus)
  let s2 := s1.feedforward .pack (shareI pk (s.eff 2) s.vpack)
  let s3 := s2.feedforward .east (shareI e (s.eff 3) (s.vlink .east))
  let s4 := s3.feedforward .west (shareI w (s.eff 3) (s.vlink .west))
  -- an increase is a feedforward release, which disturbs the rail (R479, R481)
  if s.env.pff < pff then { s4 with env := { s4.env with pff := pff } }.railDisturbed
  else { s4 with env := { s4.env with pff := pff } }

/-- P_ff(f) of the present frame, 2 W. -/
def State.pffNow (s : State) : Nat := s.demandMax s.env.frame (s.obj Obj.FF_LEAD) * s.obj Obj.FF_GAIN / 100

/-- The release at a frame start. -/
def State.release (s : State) : State :=
  let on := s.ffMode
  { s with env := { s.env with ffOn := on } }.allocate (if on then s.pffNow else 0)

/-- Feedforward is released within the frame: from a frame start in Play or Ride-through on, Idle's beginning included (R261). -/
def State.ffFrame (s : State) : Bool :=
  s.env.ffOn && s.shellUp && !s.bringing && s.inMode [2, 3, 4] && s.obj Obj.TSD_STATE == 0

/-- A new release where the power changed within the frame. -/
def State.releaseIfNew (s : State) : State :=
  let p := if s.ffFrame then s.pffNow else 0
  if p = s.env.pff then s else s.allocate p

/-! ### The grant (R246-R252) -/

/-- The modes whose grant follows R246. In a thermal shutdown it is 0 (R460), and in bring-up from step 7 on as well (DESIGN CHOICE, entry
188). -/
def State.grantMode (s : State) : Bool := !s.bringing && s.inMode [2, 3, 4] && s.obj Obj.TSD_STATE == 0

def State.contOnly (s : State) : Bool :=
  s.modeNow == 2 || (s.modeNow == 3 && s.obj Obj.ENV_STATE != 2) || s.obj Obj.ENV_STATE == 3

/-- G in 2 W units. -/
def State.grantUnits (s : State) : Nat :=
  if !s.grantMode then 0
  else
    let sum : Int := ((s.termBus + s.termPack + s.termLink .east + s.termLink .west : Nat) : Int) - s.termExp
    let g := min 4095 (min s.capUnits (sum.toNat / 2000000))
    if s.contOnly then min g s.contUnits else g

/-- P_share in µW. -/
def State.packShare (s : State) : Int :=
  ((s.grantUnits * 2000000 : Nat) : Int) - s.termBus - s.termLink .east - s.termLink .west + s.termExp

/-- D_pack (R247). -/
def State.durPack (s : State) : Nat :=
  let p := s.packShare
  if p ≤ 0 then 255
  else if s.env.period = 0 then 0
  else min 255 (s.eAvail * 360000000 * s.eff 2 * 1000000 / (p.toNat * s.env.period))

/-- D_therm: the smallest over the groups whose term is not 0 (R455). -/
def State.durTherm (s : State) : Nat :=
  let l := (if s.termBus != 0 then [1] else []) ++ (if s.termPack != 0 then [2] else []) ++
    (if s.termLink .east != 0 then [3] else []) ++ (if s.termLink .west != 0 then [4] else [])
  l.foldl (fun m n => min m (s.obj (Obj.D_THERM n))) 255

def State.grantDur (s : State) : Nat := if s.grantMode then min s.durPack s.durTherm else 0

def State.capHz (s : State) : Bool := s.hz.applied.getD 6 1000 < 1000

/-- IPACK_DIS, and not ILIM_PACKGRP, gives I_dis (R245). -/
def State.disBinds (s : State) : Bool := decide (s.dischargeLimit ≤ s.groupLimit .pack)

/-- The latch that gives I_dis stands at its thermal term (R455). -/
def State.packTherm (s : State) : Bool :=
  if s.disBinds then
    s.thm.f.get .pack < 1000000 && s.thm.f.get .pack ≤ 1000 * s.hz.applied.getD 5 1000 &&
      s.thermTerm .pack (s.zoneAt 2 2) ≤ s.ceil 5
  else s.thermFlag .pack 2

/-- The latch that gives I_dis stands at its Horizon term. -/
def State.packHz (s : State) : Bool :=
  if s.disBinds then
    s.hz.applied.getD 5 1000 < 1000 && 1000 * s.hz.applied.getD 5 1000 < s.thm.f.get .pack &&
      s.hzTerm 6 (s.zoneAt 2 2) ≤ s.ceil 5
  else s.hzFlag .pack 2

/-- Any term or the cap limited by a thermal, or by a Horizon, derating. -/
def State.anyTherm (s : State) : Bool :=
  s.obj Obj.TSD_STATE != 0 || (s.termBus != 0 && s.thermFlag .input 1) || (s.termPack != 0 && s.packTherm) ||
    (s.termLink .east != 0 && s.thermFlag .east 3) || (s.termLink .west != 0 && s.thermFlag .west 4)

def State.anyHz (s : State) : Bool :=
  (s.termBus != 0 && s.hzFlag .input 1) || (s.termPack != 0 && s.packHz) ||
    (s.termLink .east != 0 && s.hzFlag .east 3) || (s.termLink .west != 0 && s.hzFlag .west 4) || s.capHz

/-- STATUS (R243). -/
def State.grantStatus (s : State) : Nat :=
  2048 * b2n (s.obj Obj.ENV_STATE == 2) + 1024 * b2n s.contOnly + 512 * b2n s.env.broken + 256 * b2n (s.modeNow == 4) +
    128 * b2n s.anyTherm + 64 * b2n s.anyHz + 32 * b2n (s.grantMode && (s.termLink .east != 0 || s.termLink .west != 0)) +
    16 * b2n (s.eAvail == 0) + 8 * b2n (bit (s.obj Obj.CHG_CAUSE) 4 || bit (s.obj Obj.CHG_CAUSE) 5) + 4 * b2n (s.env.late != 0) +
    2 * b2n s.env.tooMuch + b2n (s.modeNow == 3)

/-- The import slot of a port. -/
def State.linkSlot (s : State) (p : Port) : Nat :=
  let u := s.termLink p
  let th := s.thermFlag p.group (3 + p.num)
  let hz := s.hzFlag p.group (3 + p.num)
  termSlot u (s.obj (Obj.D_THERM (3 + p.num)))
    (if u = 0 then 0 else termBits s.grantMode th hz
      ((s.obj (Obj.LINK_MOIST (p.num + 1)) == 1 && s.contractI p == 50) ||
        (!th && !hz && s.groupLimit p.group < 5 * field (s.contract p) 7 0)))

/-- Slots 0-14 of the grant frame (R243). -/
def State.grantSlots (s : State) : List Nat :=
  let b := s.termBus
  let p := s.termPack
  let tb := s.thermFlag .input 1
  let hb := s.hzFlag .input 1
  let tp := s.packTherm
  let h := s.env.hdr.getD (s.env.seq.getD 0 * 65536)
  [s.grantUnits * 2 ^ 20 + s.grantDur * 2 ^ 12 + s.grantStatus,
   field h 31 16 * 65536 + field h 15 8 * 256 + s.modeNow,
   termSlot b (s.obj (Obj.D_THERM 1)) (if b = 0 then 0 else termBits s.grantMode tb hb s.busCapped),
   termSlot p (if p = 0 then 255 else min s.durPack (s.obj (Obj.D_THERM 2)))
     (if p = 0 then 0 else termBits s.grantMode tp s.packHz (!tp && !s.packHz)),
   s.linkSlot .east,
   s.linkSlot .west,
   termSlot s.termExp 255 (b2n (s.termExp != 0 && s.grantMode)),
   termSlot (s.capUnits * 2000000) 255 (termBits s.grantMode false s.capHz (!s.capHz)),
   min 255 (s.obj Obj.PACK_SOC / 5) * 2 ^ 24 + s.zone * 2 ^ 21 + s.eAvail,
   min 65535 (s.vrail.toNat / 10) * 65536 + min 65535 (ofCode 32 (s.obj Obj.POWER_FLOW_RAIL)).toNat,
   0, 0, 0, 0, 0]

/-- The 64 bytes of sixteen slots in transmission order. -/
def slotBytes (l : List Nat) : List Byte := l.flatMap fun w => beBytes 4 w

/-- Slot 15 over slots 0-14: OVER_CNT and CHECK (R243, R244). -/
def withCheck (l : List Nat) (slots : Nat) : List Nat :=
  let o := slots % 65536
  l ++ [o * 65536 + crc16 (slotBytes l ++ beBytes 2 o)]

/-- GRANT_TERMS in 1 W. -/
def State.grantTerms (s : State) : State :=
  let s1 := (((s.set (Obj.GRANT_TERMS 1) (s.termBus / 1000000)).set (Obj.GRANT_TERMS 2) (s.termPack / 1000000)).set
    (Obj.GRANT_TERMS 3) (s.termLink .east / 1000000)).set (Obj.GRANT_TERMS 4) (s.termLink .west / 1000000)
  (s1.set (Obj.GRANT_TERMS 5) (s.termExp / 1000000)).set (Obj.GRANT_TERMS 6) (s.capUnits * 2)

/-- A V counter advances by `n`. -/
def State.tallyN (s : State) (k n : Nat) : State := s.set k (min 0xFFFFFFFF (s.obj k + n))

/-- The computation of the present frame, on every input as it stands (R241). -/
def State.grantCompute (s : State) : State :=
  let slots := s.grantSlots
  let t := s.grantTerms
  let t := ((t.set Obj.GRANT_NOW_TOTAL s.grantUnits).set Obj.GRANT_NOW_DUR s.grantDur).set Obj.GRANT_NOW_STATUS s.grantStatus
  { t with env := { t.env with next := slots, done := true, computed := true, broken := false, late := 0, lateBack := 0 } }.tallyN Obj.ENV_STATS_LATE s.env.late

/-- A source-loss event: the promise given is void (R248, R249). -/
def State.sourceLoss (s : State) (cause : Nat) : State :=
  if s.shellUp then
    ({ s with env := { s.env with broken := true } }.count Obj.ENV_STATS_BROKEN 0xFFFFFFFF).raise 0x19 6 cause
  else { s with env := { s.env with broken := true } }

end Sys2Proof.Machine
end

