-- ==== Sys2Proof/Machine/ChargeOps.lean ====
section
/-!
DEFINITION. ChargeOps.lean: the charger and the cell monitor (R262-R303): zones, stages, the command and its terms, the state machine,
state of charge, balancing.
-/
namespace Sys2Proof.Machine

/-! ### The charge table (R271, R273) -/

def State.chgValid (s : State) : Bool := (s.body 2).isSome
def State.chgAt (s : State) (off n : Nat) : Nat := leAt ((s.body 2).getD []) off n
def State.cells (s : State) : Nat := s.obj Obj.PACK_CELLS
def State.cellUv (s : State) : Nat := s.chgAt 18 2
def State.ocv (s : State) (k : Nat) : Nat := s.chgAt (42 + 2 * k) 2

/-- Step `k` (1-8) of the present zone: I in 0.1 A and V_END in mV. -/
def State.stepI (s : State) (k : Nat) : Nat := s.zoneAt (4 + 4 * (k - 1)) 2
def State.stepEnd (s : State) (k : Nat) : Nat := s.zoneAt (6 + 4 * (k - 1)) 2
def State.steps (s : State) : Nat := s.zoneAt 1 1
def State.vCv (s : State) : Nat := s.zoneAt 36 2

/-- I_last of R278, 0.1 A. -/
def State.iLast (s : State) : Nat := s.stepI s.steps

def State.vMax (s : State) : Int := ofCode 16 (s.obj Obj.CELL_STATS_V_MAX)
def State.vMin (s : State) : Int := ofCode 16 (s.obj Obj.CELL_STATS_V_MIN)

/-! ### Faults (R301) -/

/-- A fault sets its bit. -/
def State.chgBit (s : State) (n : Nat) : State :=
  let v := setBit (s.obj Obj.CHG_FAULTS) n true
  let s := { s with chg := { s.chg with waived := setBit s.chg.waived n false } }
  if s.obj Obj.CHG_FAULTS = v then s else s.put Obj.CHG_FAULTS v

/-- An event of the charger or the cell monitor. -/
def State.chgEvent (s : State) (src kind inst n : Nat) : State := (s.chgBit n).raise src kind inst

/-- A condition of the charger or the cell monitor. -/
def State.chgCond (s : State) (src kind inst n : Nat) (holds : Bool) : State :=
  if holds then (s.chgBit n).raise1 src kind inst else s.clearK src kind

/-- The blocking bits that stand. -/
def State.blocking (s : State) : Bool :=
  [0, 2, 4, 8].any fun n => bit (s.obj Obj.CHG_FAULTS) n && !bit s.chg.waived n

/-! ### Latches -/

/-- The charger writes IPACK_CHG, 0.1 A. -/
def State.writeChg (s : State) (v : Nat) : State := (s.set Obj.CHG_I_CMD v).portIfNew 5 v

/-- 0 to both latches, as writes of their own. -/
def State.zeroBoth (s : State) : State :=
  let s := s.set Obj.CHG_I_CMD 0
  if s.shellUp && s.core.handedOver then (s.portWrite 5 0).portWrite 6 0 else s

/-- IPACK_DIS, 0.1 A (R284). -/
def State.disLimit (s : State) : Nat :=
  if s.zoneDis && s.packAlive && s.cells != 0 then
    let t := s.zoneAt 2 2
    min (min (s.thermTerm .pack t) (s.hzTerm 6 t)) (min t (s.ceil 5))
  else 0

/-! ### Temperatures and zones (R268-R270) -/

def State.ntcOn (s : State) (k : Nat) : Bool := bit (s.chgAt 3 1) k

/-- PNTC(k+1). -/
def State.pntc (s : State) (k : Nat) : Option Int :=
  let w := s.result (18 + k)
  if isFlagged w || !s.ntcOn k then none else ntcTemp (codeOf w) (10 * s.chgAt 34 2) (s.chgAt 36 2)

/-- One NTC in a scan: its object, and NTC_INVALID at the third invalid scan; its bit from then on (R301). -/
def State.ntcStep (s : State) (k : Nat) : State :=
  let t := s.pntc k
  let n := if t.isSome || !s.ntcOn k || s.cells == 0 then 0 else min 4 (s.chg.ntcBad.getD k 0 + 1)
  let s := s.set (Obj.PNTC_T (k + 1)) (tempCode t)
  let s := { s with chg := { s.chg with ntcBad := s.chg.ntcBad.set k n } }
  if n == 3 && s.cells != 0 then s.chgEvent 8 6 (k + 1) 13 else if 3 ≤ n && s.cells != 0 then s.chgBit 13 else s

/-- The zone that a temperature leads to (R269). -/
def zoneStep (b : List Int) (hyst t : Int) (z : Nat) : Nat :=
  let up := (List.range 5).foldl (fun z k => if z = k ∧ b.getD k 0 ≤ t then z + 1 else z) z
  [4, 3, 2, 1, 0].foldl (fun z k => if z = k + 1 ∧ t < b.getD k 0 - hyst then k else z) up

/-- PACK_TEMP and PACK_ZONE after a scan, from Z0 where the zone was unknown (DESIGN CHOICE, entry 192); NO_VALID_NTC at its beginning, its
bit while it holds (R269, R270, R301). -/
def State.zoneUpdate (s : State) : State :=
  let s := (List.range 4).foldl (fun s k => s.ntcStep k) s
  match (List.range 4).filterMap s.pntc with
  | [] =>
    let new := !s.chg.noNtc && s.chgValid && s.cells != 0
    let s := { s with chg := { s.chg with noNtc := s.chgValid && s.cells != 0 } }
    let s := (s.set Obj.PACK_TEMP 0x7FFF).set Obj.PACK_ZONE 6
    if new then s.chgEvent 8 7 0 14 else if s.chg.noNtc then s.chgBit 14 else s
  | t :: r =>
    let m := r.foldl max t
    let old := s.obj Obj.PACK_ZONE
    let b := (List.range 5).map fun k => ofCode 16 (s.chgAt (4 + 2 * k) 2)
    let z := zoneStep b ((s.chgAt 14 1 : Nat) : Int) m (if old = 6 then 0 else old)
    { ((s.set Obj.PACK_TEMP (toCode 16 m)).set Obj.PACK_ZONE z) with chg := { s.chg with noNtc := false } }

/-! ### State of charge (R294-R296) -/

/-- The state of charge, 0.1 %, with its confidence. -/
def State.setSoc (s : State) (v conf : Nat) : State :=
  { ((s.put Obj.PACK_SOC v).set Obj.SOC_CONF conf) with chg := { s.chg with soc := v * 1000000000 } }

/-- Coulomb counting over `dt` µs at the present IPACK (R294). -/
def State.coulomb (s : State) (dt : Nat) : State :=
  let q := s.obj Obj.PACK_Q
  if q = 0 then s
  else
    let s := if s.chg.gap = 0 then s else s.set Obj.SOC_CONF 1
    let d : Int := s.ipack * (dt + s.chg.gap : Nat) * 1000 / (q * 360 : Nat)
    let n := clampN 0 1000000000000 (((s.chg.soc : Int) - d).toNat)
    let s := { s with chg := { s.chg with soc := n, gap := 0 }, hz := { s.hz with anchorQ := s.hz.anchorQ + s.ipack * dt } }
    if s.obj Obj.PACK_SOC = n / 1000000000 then s else s.put Obj.PACK_SOC (n / 1000000000)

/-- The pack rests: |IPACK| below 0.02 × PACK_Q per hour (R295). -/
def State.resting (s : State) : Bool := (s.reading 16 400000).elim false fun i => i.natAbs < 2 * s.obj Obj.PACK_Q

/-- The segment of the OCV curve that holds a cell voltage, where the curve rises enough (R295); SOC in 0.1 %. -/
def State.ocvSoc (s : State) (mv : Nat) : Option Nat :=
  let k := ((List.range 10).filter fun k => s.ocv k ≤ mv).getLast?.getD 0
  let a := s.ocv k
  let d := s.ocv (k + 1) - a
  if d < 5 then none else some (min 1000 (100 * k + 100 * (mv - a) / d))

/-- PACK_ENERGY, 0.1 Wh: n × PACK_Q × the integral of the OCV curve (R296). -/
def State.packEnergy (s : State) : Nat :=
  let soc := s.obj Obj.PACK_SOC
  let k := min 9 (soc / 100)
  let x := soc - 100 * k
  let full := (List.range k).foldl (fun a i => a + 10000 * (s.ocv i + s.ocv (i + 1))) 0
  let part := (200 * s.ocv k + (s.ocv (k + 1) - s.ocv k) * x) * x
  min 65535 (s.cells * s.obj Obj.PACK_Q * (full + part) / 200000000)

/-- A rested anchor of item 5 (R473): two of them in Z1-Z4 with at least 40 % between give a capacity. -/
def State.anchor (s : State) (soc : Nat) : State :=
  let inZone := 1 ≤ s.obj Obj.PACK_ZONE && s.obj Obj.PACK_ZONE ≤ 4
  if !inZone then { s with hz := { s.hz with anchor := none, anchorQ := 0 } }
  else
    let q := match s.hz.anchor with
      | some a =>
        let d := max a soc - min a soc
        -- anchorQ is in mA·µs; 0.1 Ah is 3.6e11 mA·µs, and a fraction is d / 1000
        if 400 ≤ d then some (s.hz.anchorQ.natAbs * 1000 / (360000000000 * d)) else s.hz.q
      | none => s.hz.q
    { s with hz := { s.hz with q := q, anchor := some soc, anchorQ := 0 } }

/-! ### Cells (R264, R284) -/

/-- A cell's voltage as the monitor takes it: a flagged result lies beyond its limit (R402). -/
def State.cellMv (s : State) (k : Nat) : Int :=
  let w := s.result (k - 1)
  let v := scaled (codeOf w) 5000
  if isAbsent w then 0 else if bit w 31 then max v 5251 else if bit w 30 then min v (-251) else v

/-- CELL_V, its statistics and PACK_VSUM. -/
def State.cellReport (s : State) : State :=
  let n := s.cells
  let s := (List.range 16).foldl (fun s i => s.set (Obj.CELL_V (i + 1)) (if i < n then toCode 16 (s.cellMv (i + 1)) else 0)) s
  let v := fun k => ofCode 16 (s.obj (Obj.CELL_V k))
  let l := (List.range n).map (· + 1)
  let kMax := l.foldl (fun m k => if v m < v k then k else m) 1
  let kMin := l.foldl (fun m k => if v k < v m then k else m) 1
  let s := (s.set Obj.CELL_STATS_K_MAX (if n = 0 then 0 else kMax)).set Obj.CELL_STATS_K_MIN (if n = 0 then 0 else kMin)
  let s := (s.setI Obj.CELL_STATS_V_MAX 16 (v kMax)).setI Obj.CELL_STATS_V_MIN 16 (v kMin)
  s.set Obj.PACK_VSUM ((l.foldl (fun (a : Int) k => a + v k) 0).toNat)

/-- The cutoff of R284; its bit while it holds (R301). -/
def State.cutoff (s : State) : State :=
  if !s.chgValid then s
  else if s.obj Obj.PACK_STATE = 1 && s.vMin ≤ (s.cellUv : Int) then
    (((s.set Obj.PACK_STATE 2).chgCond 8 2 (s.obj Obj.CELL_STATS_K_MIN) 9 true).setSoc 0 0).portIfNew 6 0
  else if s.obj Obj.PACK_STATE = 2 && (s.cellUv : Int) + 100 ≤ s.vMin then
    (s.set Obj.PACK_STATE 1).chgCond 8 2 0 9 false
  else if s.obj Obj.PACK_STATE = 2 then s.chgBit 9
  else s

/-- The CV loop on a new MC0 result, mA (R278). -/
def State.cvLoop (s : State) : Nat :=
  let e : Int := (s.vCv : Int) - s.vMax
  if e < -5 then s.chg.cv * 9 / 10
  else clampN 0 (100 * s.iLast) (((s.chg.cv : Int) + clampI (-1000) 1000 (50 * e)).toNat)

/-- What a completed MC0 scan of the cells does. -/
def State.cellScan (s : State) : State :=
  if s.cells = 0 then s
  else
    let s := if s.chg.sel = 0 ∨ s.chg.scan = 3 then s.cellReport else s
    let s := s.cutoff
    let st := s.obj Obj.CHG_STATE
    let atEnd := st == 4 && decide ((s.stepEnd (s.obj Obj.CHG_STEP) : Int) ≤ s.vMax)
    { s with chg := { s.chg with
      fresh := true
      endRun := if atEnd then s.chg.endRun + 1 else 0
      cv := if st = 5 ∨ st = 6 then s.cvLoop else s.chg.cv } }

/-- The rest correction may be made (R295). -/
def State.ocvOk (s : State) : Bool := s.cells != 0 && s.chgValid && s.obj Obj.PACK_STATE != 0 && s.resting

/-- The rest correction on the mean cell voltage (R295); an anchor of item 5 in the modes that sample, and in a Park check
(R469, R473). -/
def State.ocvCorrect (s : State) : State :=
  match s.ocvSoc (s.obj Obj.PACK_VSUM / s.cells) with
  | some v => if s.hzSampling || s.modeNow == 1 then (s.setSoc v 0).anchor v else s.setSoc v 0
  | none => s

/-! ### The state machine (R275-R285) -/

/-- PARK_SOC, 0.1 %. -/
def State.parkSoc (s : State) : Nat := 5 * s.chgAt 26 1

/-- The target is the Park storage level. -/
def State.parkTarget (s : State) : Bool := s.modeNow != 5 && (s.mode.maint || s.obj Obj.CHG_TARGET == 1)

/-- The target SOC, 0.1 %. -/
def State.targetSoc (s : State) : Nat :=
  if s.modeNow = 5 then 5 * s.obj Obj.CHG_SERVICE else if s.parkTarget then s.parkSoc else 1000

/-- The charger must be OFF (R275). -/
def State.chgOff (s : State) : Bool :=
  !s.chgValid || s.cells == 0 || s.obj Obj.CHG_ENABLE == 0 || s.cells < s.chgAt 0 1 || s.chgAt 1 1 < s.cells

/-- A mode in which charging may be allowed (R285). -/
def State.chgMode (s : State) : Bool :=
  !s.bringing && s.mode.park == 0 && (s.inMode [2, 3] || (s.modeNow == 5 && s.obj Obj.CHG_SERVICE != 0))

/-- Charging is allowed apart from the mode and the target (R285). -/
def State.chgFree (s : State) : Bool :=
  s.obj Obj.CHG_ENABLE == 1 && s.zoneChg && !s.chg.openTap && !s.chg.sum && !s.blocking

/-- Charging is allowed apart from the target (R285). In a thermal shutdown no stage is entered (R460). -/
def State.chgAllowed (s : State) : Bool := s.chgFree && s.chgMode && s.obj Obj.TSD_STATE == 0

/-- A stage is kept with IPACK_CHG at 0: Ride-through, Stratus, a thermal shutdown, the time from a handover to the first evaluation
(R285, R288, R460). -/
def State.chgHeld (s : State) : Bool := s.inMode [4, 6] || s.obj Obj.TSD_STATE != 0 || s.chg.unseen

/-- A state is entered. -/
def State.chgEnter (s : State) (st step : Nat) : State :=
  let s := { s with chg := { s.chg with endRun := 0, precond := if s.obj Obj.CHG_STATE = st then s.chg.precond else 0 } }
  (s.set Obj.CHG_STATE st).set Obj.CHG_STEP step

/-- A new charge cycle (R289). -/
def State.newCycle (s : State) : State :=
  { ((s.set Obj.SAFETY_PROGRESS 0).set Obj.SAFETY_WALL 0) with chg := { s.chg with progress := 0 } }

/-- The stage that stage selection gives: state and step (R277). -/
def State.stage (s : State) : Nat × Nat :=
  if s.vMin < (s.chgAt 20 2 : Int) then (3, 0)
  else match ((List.range s.steps).map (· + 1)).find? fun k => decide (s.vMax < (s.stepEnd k : Int)) with
    | some k => (4, k)
    | none => (5, 0)

/-- Stage selection. The CV loop starts from the last commanded current. -/
def State.select (s : State) : State :=
  let st := s.obj Obj.CHG_STATE
  let s := if [0, 1, 7, 8].contains st then s.newCycle else s
  let (a, k) := s.stage
  let s := if a = 5 ∧ st != 5 then { s with chg := { s.chg with cv := min (100 * s.obj Obj.CHG_I_CMD) (100 * s.iLast) } } else s
  s.chgEnter a k

/-- Stage selection where charging is allowed, HOLD otherwise. -/
def State.selectOrHold (s : State) : State :=
  if s.chgAllowed && s.obj Obj.PACK_SOC < s.targetSoc then s.select else s.chgEnter 2 0

/-- One evaluation of the state in force (R275, R278, R279, R285); from OFF to a stage or HOLD at once (DESIGN CHOICE, entry 193). -/
def State.chgStep (s : State) : State :=
  let st := s.obj Obj.CHG_STATE
  let held := s.chgHeld
  let ok := s.chgAllowed
  let below := s.obj Obj.PACK_SOC < s.targetSoc
  let toDone := s.parkTarget && s.parkSoc ≤ s.obj Obj.PACK_SOC
  if st = 8 then s
  else if (s.obj Obj.PACK_STATE = 0 && !s.chg.unseen) || s.chg.lost then s.chgEnter 1 0
  else if s.obj Obj.TSD_STATE ≠ 0 then s
  else if st = 0 || st = 1 then s.selectOrHold
  else if st = 2 then if ok && below then s.select else s
  else if st = 7 then
    if ok && s.obj Obj.PACK_SOC + 5 * s.chgAt 28 1 < s.targetSoc then s.select else s
  else if held then s
  else if !ok then s.chgEnter 2 0
  else if toDone && st != 6 then s.chgEnter 7 0
  else if st = 3 then
    if !below then s.chgEnter 2 0 else if (s.chgAt 20 2 : Int) + 50 ≤ s.vMin then s.select else s
  else if st = 4 then
    if !below then s.chgEnter 2 0
    else if 2 ≤ s.chg.endRun then
      if s.obj Obj.CHG_STEP < s.steps then s.chgEnter 4 (s.obj Obj.CHG_STEP + 1)
      else ({ s with chg := { s.chg with cv := min (100 * s.obj Obj.CHG_I_CMD) (100 * s.iLast) } }).chgEnter 5 0
    else s
  else if st = 5 && !below then s.chgEnter 6 0
  else s

/-! ### The command (R281-R283) -/

/-- The table current of the stage, 0.1 A. -/
def State.iProg (s : State) : Nat :=
  match s.obj Obj.CHG_STATE with
  | 3 => s.chgAt 22 2
  | 4 => s.stepI (s.obj Obj.CHG_STEP)
  | 5 => s.iLast
  | 6 => s.iLast
  | _ => 0

/-- The headroom H of R282, W: the terms of the latest computation; before the first one, the terms as they stand. -/
def State.headroomW (s : State) : Int :=
  let s := if s.env.computed then s else s.grantTerms
  let t := fun n => ((s.obj (Obj.GRANT_TERMS n) : Nat) : Int)
  let d : Int := if s.obj Obj.ENV_STATE = 2 then ((2 * s.obj Obj.DEMAND_NOW_PEAK : Nat) : Int)
    else s.chg.rail.foldl (fun m e => max m e.2) 0
  t 1 + t 3 + t 4 - t 5 - d

/-- I_sched falls at once and rises by at most 1.0 A per evaluation (R282). -/
def State.schedStep (s : State) : State :=
  let h := s.headroomW.toNat * s.obj Obj.CHG_QUIET
  let v := s.vpack.toNat
  let t := if v = 0 then 0 else h * s.eff 2 * 10 / v
  { s with chg := { s.chg with sched := if t ≤ s.chg.sched then t else min t (s.chg.sched + 1000) } }

/-- The five terms of R281 in mA: stage, scheduling, thermal, Horizon, OTP. -/
def State.chgTerms (s : State) : List Nat :=
  let t := 100 * s.iProg
  let st := s.obj Obj.CHG_STATE
  [if st = 5 ∨ st = 6 then s.chg.cv else t,
   if s.modeNow = 5 then t else s.chg.sched,
   t * s.thm.fChg / 1000000,
   s.hzTerm 5 t,
   100 * s.ceil 4]

/-- CHG_CAUSE (R283). On a tie with the stage term the stage term stands alone. -/
def State.chgCause (s : State) : Nat :=
  let st := s.obj Obj.CHG_STATE
  if !(3 ≤ st ∧ st ≤ 6) then 0
  else
    let l := s.chgTerms
    let m := l.foldl min (l.getD 0 0)
    let stage := l.getD 0 0 == m
    let other := fun i => !stage && l.getD i 0 == m
    let yield := (s.reading 16 400000).elim false fun i => decide (-i < (s.obj Obj.CHG_I_CMD * 100 : Nat) - 1000)
    64 * b2n (stage && (st == 5 || st == 6)) + 32 * b2n (yield && s.obj Obj.CHG_I_CMD != 0) + 16 * b2n (other 1) + 8 * b2n (other 4) +
      4 * b2n (other 3) + 2 * b2n (other 2) + b2n stage

/-- I_chg, 0.1 A. It stays 0 through a self-calibration (R418). -/
def State.chgCommand (s : State) : Nat :=
  let st := s.obj Obj.CHG_STATE
  if (3 ≤ st ∧ st ≤ 6) ∧ !s.chgHeld ∧ s.meas.cal ≠ 2 then s.chgTerms.foldl min (s.chgTerms.getD 0 0) / 100 else 0

/-- The command is written where it differs by 0.5 A, or at once where state or step changed (R276). -/
def State.chgWrite (s : State) (changed : Bool) : State :=
  let i := s.chgCommand
  let o := s.obj Obj.CHG_I_CMD
  let s := if changed || o + 5 ≤ i || i + 5 ≤ o then s.writeChg i else s
  (s.set Obj.CHG_CAUSE s.chgCause).portIfNew 6 s.disLimit

/-- FAULT with IPACK_CHG at 0. -/
def State.chgFault (s : State) : State := (s.chgEnter 8 0).writeChg 0

/-- The zone bars charging in a state that would charge (R301). -/
def State.zoneHold (s : State) : State :=
  let bar := s.obj Obj.CHG_STATE == 2 && !s.zoneChg && s.chgMode && s.obj Obj.PACK_STATE != 0
  if bar then
    if s.col.conds.any fun m => m.src == 7 && m.kind == 6 then s.chgBit 5 else s.chgCond 7 6 (s.obj Obj.PACK_ZONE) 5 true
  else s.clearK 7 6

/-- CHG_OVERVOLT (R301). -/
def State.overvolt (s : State) : State :=
  let st := s.obj Obj.CHG_STATE
  if 3 ≤ st && st ≤ 6 && (s.cells * (s.vCv + 25) : Nat) < s.vpack then (s.chgEvent 7 5 (s.vpack.toNat / 100) 4).chgFault else s

/-- The evaluation of R276 after a common scan. -/
def State.chgEvaluate (s : State) : State :=
  let st := s.obj Obj.CHG_STATE
  let step := s.obj Obj.CHG_STEP
  let s := s.chgCond 7 4 s.cells 3 (s.chgValid && s.cells != 0 && (s.cells < s.chgAt 0 1 || s.chgAt 1 1 < s.cells))
  let s := if s.chgOff && st != 8 then s.chgEnter 0 0 else s.chgStep
  let s := s.overvolt.zoneHold.schedStep
  let s := s.set Obj.SAFETY_NOMINAL (60 * s.zoneAt 42 2)
  let s := s.chgWrite (s.obj Obj.CHG_STATE != st || s.obj Obj.CHG_STEP != step)
  s.set Obj.PACK_ENERGY s.packEnergy

/-- The charger as a mode change finds it: what is no longer allowed stops at once (R285). -/
def State.chgModeChange (s : State) : State :=
  let st := s.obj Obj.CHG_STATE
  if 3 ≤ st && st ≤ 6 then
    if s.chgHeld then s.writeChg 0
    else if s.chgAllowed then s else (s.chgEnter 2 0).writeChg 0
  else s

/-! ### Balancing (R298, R299) -/

def State.balOk (s : State) : Bool :=
  s.obj Obj.BAL_ENABLE == 1 && s.cells != 0 && s.inMode [2, 3, 5] && !s.bringing && 1 ≤ s.obj Obj.PACK_ZONE &&
    s.obj Obj.PACK_ZONE ≤ 4 && !s.chg.openTap && [2, 5, 6, 7].contains (s.obj Obj.CHG_STATE)

/-- Selection with its hysteresis. -/
def State.balSelect (s : State) : Nat :=
  (List.range s.cells).foldl (fun m i =>
    let v := ofCode 16 (s.obj (Obj.CELL_V (i + 1)))
    let d := v - s.vMin
    let delta : Int := (s.chgAt 40 1 : Nat)
    let was := bit s.chg.sel i
    let on := if (s.chgAt 38 2 : Int) ≤ v ∧ delta ≤ d then true else if 2 * d < delta then false else was
    m + b2n on * 2 ^ i) 0

/-- The switches of a parity, at most BAL_MAX, highest voltage first; the lower cell first among equals. -/
def State.balSwitches (s : State) (odd : Bool) : Nat :=
  let cand := (List.range s.cells).filter fun i => bit s.chg.sel i && (i % 2 == 0) == odd
  let v := fun i => ofCode 16 (s.obj (Obj.CELL_V (i + 1)))
  let pick := cand.filter fun i => (cand.filter fun j => v i < v j || (v j == v i && j < i)).length < s.obj Obj.BAL_MAX
  pick.foldl (fun m i => m + 2 ^ i) 0

/-- Every switch off; the next frame is a whole one. -/
def State.balOff (s : State) : State := { (s.set Obj.BAL_STATE 0) with chg := { s.chg with sel := 0, scan := 3 } }

/-- A scan of a balancing frame begins. -/
def State.balFrame (s : State) : State :=
  if !s.balOk then s.balOff
  else
    let sel := s.balSelect
    let scan := (s.chg.scan + 1) % 4
    let odd := if scan = 0 then !s.chg.odd else s.chg.odd
    let s := { s with chg := { s.chg with sel := sel, scan := scan, odd := odd } }
    s.set Obj.BAL_STATE (if scan = 3 then 0 else s.balSwitches odd)

/-! ### Presence (R265, R292, R293) -/

/-- The conditions of R265 on VPACK_S in mV. -/
def State.packThere (s : State) (vpack : Nat) : Bool :=
  s.cells != 0 && 1000 * s.cells ≤ vpack &&
    100 * ((s.obj Obj.PACK_VSUM : Int) - vpack).natAbs ≤ 3 * vpack + 20000

/-- The pack is absent: both latches to 0 and NO_PACK. FAULT is left by nothing but R291. -/
def State.packGone (s : State) : State :=
  let s := (s.set Obj.PACK_STATE 0).zeroBoth
  let s := if s.obj Obj.CHG_STATE = 8 then s else if s.chgOff then s.chgEnter 0 0 else s.chgEnter 1 0
  ({ s with
    chg := { s.chg with sumRun := {}, sum := false, unseen := false }
    hz := { s.hz with anchor := none, anchorQ := 0 } }.clearK 8 2).clearK 8 5

/-- PACK_Q and PACK_RDC from the CHG image (R297). -/
def State.packInit (s : State) : State :=
  if s.chgValid then (s.put Obj.PACK_Q (s.chgAt 30 2)).put Obj.PACK_RDC (s.chgAt 32 2) else s

/-- The first CHG image ever applied gives both (R297). -/
def State.packFirst (s : State) : State := if s.obj Obj.PACK_Q = 0 then s.packInit else s

/-- A new pack attaches, and with it a new charge cycle (R265, R291, R482). -/
def State.newPack (s : State) : State :=
  let s := (s.packInit.hzClear [34, 35]).newCycle
  let s := { s with chg := { s.chg with lost := false, waived := s.obj Obj.CHG_FAULTS } }
  if s.obj Obj.CHG_STATE = 8 then s.chgEnter 1 0 else s

end Sys2Proof.Machine
end

