-- ==== Sys2Proof/Machine/LinkOps.lean ====
section
/-!
DEFINITION. LinkOps.lean: the rail ordering constraint (R26, R27), the fabric's output queues (R357, R360), and the energy-share link's
messages, contracts and port states (R304-R351).
-/
namespace Sys2Proof.Machine

/-! ### The ordering constraint -/

/-- The highest per-cell charge voltage of a CHG body, mV (R26). -/
def chgVmax (b : List Byte) : Nat :=
  (List.range 6).foldl (fun m z =>
    let o := 64 + 48 * z
    if bit (byteAt b o) 0 then
      (List.range (byteAt b (o + 1))).foldl (fun m k => max m (leAt b (o + 6 + 4 * k) 2)) (max m (leAt b (o + 36) 2))
    else m) 0

/-- The pack term for `n` cells, 50 mV. -/
def packFloor (n : Nat) (b : Option (List Byte)) : Nat :=
  match b with
  | none => 0
  | some b => if n = 0 ∨ chgVmax b = 0 then 0 else ceilDiv (n * chgVmax b + 4000) 50

/-- The contract term of a port, 50 mV: from the ACCEPT until the contract has ended. -/
def State.linkFloor (s : State) (p : Port) : Nat :=
  let l := s.link.get p
  if [5, 6, 7, 9].contains (s.obj (Obj.LINK_STATE (p.num + 1))) then
    10 * max l.now.volt ((l.next.map (·.volt)).getD 0) + (if l.now.volt = 0 ∧ l.next.isNone then 0 else 80)
  else 0

/-- RAIL_FLOOR as it computes with `n` cells and a CHG body (R26). -/
def State.floorWith (s : State) (n : Nat) (b : Option (List Byte)) : Nat :=
  max (max 480 (packFloor n b)) (max (s.linkFloor .east) (s.linkFloor .west))

/-- RAIL_FLOOR and LINK_CEILING (R26, R27). -/
def State.ordering (s : State) : State :=
  let f := max (s.floorWith s.cells (s.body 2)) (packFloor s.cells s.tabs.newChg)
  let c := (s.obj Obj.RAIL_SETPOINT - 80) / 10
  (s.set Obj.RAIL_FLOOR f).set Obj.LINK_CEILING (if c < 40 then 0 else min 108 c)

/-! ### Fabric frames leaving a port -/

def State.modFab (s : State) (p : Port) (f : FabPort → FabPort) : State :=
  { s with fab := { s.fab with ports := s.fab.ports.put p (f (s.fab.ports.get p)) } }

/-- Room in a port's queue for a priority (R360). -/
def queueRoom : Nat → Nat
  | 1 => 8
  | 2 => 4
  | _ => 32

def State.portUp (s : State) (p : Port) : Bool := s.obj (Obj.PORT_STATE (p.num + 1)) == 3

/-- The port carries frames: lock, and no miswiring (R362, R365). -/
def State.lineOk (s : State) (p : Port) : Bool :=
  let n := s.obj (Obj.PORT_STATE (p.num + 1))
  n == 2 || n == 3

/-- A frame joins a port's output queue, or is dropped and reported (R360). -/
def State.fabQueue (s : State) (p : Port) (prio : Nat) (f : Frame) : State :=
  let q := (s.fab.ports.get p).queue
  if (q.filter fun e => e.1 == prio).length < queueRoom prio then s.modFab p fun x => { x with queue := x.queue ++ [(prio, f)] }
  else (s.tally (Obj.FAB_STATS 6) 0xFFFFFFFF).raise 0x0E 0x0B p.num

/-- A frame of the node's own takes the next SEQ of its destination (R357). -/
def State.fabSeq (s : State) (f : Frame) : Frame × State :=
  let n := s.fab.seqs.read (fun _ => 0) f.node
  ({ f with seq := n }, { s with fab := { s.fab with seqs := s.fab.seqs.write (fun _ => 0) f.node ((n + 1) % 256) } })

/-- A link-local frame of the node's own leaves a port. -/
def State.fabLocal (s : State) (p : Port) (prio : Nat) (f : Frame) : State :=
  let (f, s) := s.fabSeq f
  s.fabQueue p prio f

/-! ### Link records -/

def State.lp (s : State) (p : Port) : LinkPort := s.link.get p
def State.modL (s : State) (p : Port) (f : LinkPort → LinkPort) : State := { s with link := s.link.put p (f (s.link.get p)) }
def linkSrc (p : Port) : Nat := 0x0F + p.num
def State.lState (s : State) (p : Port) : Nat := s.obj (Obj.LINK_STATE (p.num + 1))

/-- The link-group words of a port. -/
def contractId (p : Port) : Nat := 7 + p.num

/-- A byte of the port's LINK record; 0 without a LINK image (R343, R344). -/
def State.linkAt (s : State) (p : Port) (off : Nat) : Nat := byteAt ((s.body 7).getD []) (16 * p.num + off)
def State.provEn (s : State) (p : Port) : Bool := bit (s.linkAt p 0) 0
def State.consEn (s : State) (p : Port) : Bool := bit (s.linkAt p 0) 1
def State.swapEn (s : State) (p : Port) : Bool := bit (s.linkAt p 0) 2

def State.linkStat (s : State) (p : Port) (n : Nat) : State :=
  match p with
  | .east => s.count (Obj.LINK_STATS_E n) 0xFFFFFFFF
  | .west => s.count (Obj.LINK_STATS_W n) 0xFFFFFFFF

/-- The port's pilot on SENSE, kHz: while the port is not OFF (R307, R330). -/
def State.pilot (s : State) (p : Port) : Option Nat :=
  if s.variant == .A && s.lState p != 0 then some (match p with | .east => 500 | .west => 250) else none

/-- The effective moisture state of the cable (R317). -/
def State.moist (s : State) (p : Port) : Nat :=
  let l := s.lp p
  if l.moist = 3 then 3 else if l.peerMoist = 3 then l.moist else max l.moist l.peerMoist

/-- LINK_MOIST follows. -/
def State.moistObj (s : State) (p : Port) : State := s.set (Obj.LINK_MOIST (p.num + 1)) (s.moist p)

/-! ### Limits on a contract (R317, R322, R30) -/

/-- The port's present limit on CURR, 0.5 A: at most 40.0 A (R319), the group limit under R43, the Horizon term, the moisture cap. -/
def State.currLimit (s : State) (p : Port) (want : Nat) : Nat :=
  let i := min (min want 80) (min (s.limitVal p.group / 5) (s.hzTerm (8 + p.num) want))
  if s.moist p = 1 then min i 10 else i

/-- The moisture state of the cable allows a contract at this voltage (R317). -/
def State.moistOk (s : State) (p : Port) (volt : Nat) : Bool := s.moist p < 2 && (s.moist p == 0 || volt == 40)

def State.ceiling (s : State) : Nat := s.obj Obj.LINK_CEILING
def State.slewLimit (s : State) (p : Port) : Nat := min (s.linkAt p 1) (s.obj Obj.LINK_SLEW)

/-! ### Messages (R324-R329) -/

/-- A payload: the common four bytes and a body of eight (R325). -/
def State.payload (s : State) (p : Port) (msg id ref : Nat) (body : List Byte) : List Byte :=
  leBytes 1 msg ++ leBytes 1 id ++ leBytes 1 ref ++ leBytes 1 (128 * p.num + 32 * (s.lp p).moist + 1) ++ fitBytes 8 body

/-- A payload goes out on the pair as a link-local frame of type 0x4C (R324). -/
def State.sendPay (s : State) (p : Port) (pay : List Byte) : State :=
  let s := s.modL p fun l => { l with out := pay }
  if s.lineOk p then s.fabLocal p 2 { node := 0xFF, src := s.obj Obj.NODE_ID, type := 0x4C, data := pay } else s

/-- The next MSG_ID, 1-255. -/
def nextId (n : Nat) : Nat := if n < 255 then n + 1 else 1

/-- A new message. One that expects an answer is awaited. -/
def State.sendMsg (s : State) (p : Port) (msg : Nat) (body : List Byte) (expects : Bool) : State :=
  let id := nextId (s.lp p).msgId
  let pay := s.payload p msg id 0 body
  (s.modL p fun l => { l with
    msgId := id, await_ := if expects then some pay else l.await_, again := if expects then false else l.again }).sendPay p pay

/-- An answer to the received message `ref`, kept for a repetition (R327). -/
def State.answer (s : State) (p : Port) (msg ref : Nat) (body : List Byte) (expects : Bool) : State :=
  let id := nextId (s.lp p).msgId
  let pay := s.payload p msg id ref body
  (s.modL p fun l => { l with
    msgId := id, rxId := some ref, answer := pay
    await_ := if expects then some pay else l.await_, again := if expects then false else l.again }).sendPay p pay

def State.reject (s : State) (p : Port) (ref reason : Nat) : State := s.answer p 4 ref (leBytes 1 reason) false

/-- The code of the message that awaits its answer; 0 for none. -/
def State.awaiting (s : State) (p : Port) : Nat := match (s.lp p).await_ with | some m => byteAt m 0 | none => 0

def State.answered (s : State) (p : Port) : State := s.modL p fun l => { l with await_ := none, again := false }

/-! ### Port states (R330) -/

/-- The contract latch takes a contract; a neutral one is 0. -/
def State.writeContract (s : State) (p : Port) (t : Terms) (curr : Nat) : State :=
  s.portIfNew (contractId p) (if t.volt = 0 ∨ curr = 0 then 0 else (if t.prov then 1 else 2) * 2 ^ 22 + t.volt * 256 + curr)

def State.setLink (s : State) (p : Port) (st : Nat) : State := s.set (Obj.LINK_STATE (p.num + 1)) st
def State.setRole (s : State) (p : Port) (t : Terms) : State :=
  s.set (Obj.LINK_ROLE (p.num + 1)) (if t.volt = 0 then 0 else if t.prov then 1 else 2)

/-- The group of a port holds Z. -/
def State.linkZ (s : State) (p : Port) : State := s.stopG p.group 6
def State.linkRun (s : State) (p : Port) : State := s.freeG p.group 6

/-- A contract is held or being formed. -/
def State.inContract (s : State) (p : Port) : Bool := [5, 6, 7].contains (s.lState p)

/-- A contract is in force: in CONTRACT, in a retarget's TRANSITION, in SWAP. -/
def State.contractHeld (s : State) (p : Port) : Bool := s.inContract p && (s.lp p).now.volt != 0

/-- The CURR in force in the port's latch, 0.5 A; 0 while it is Neutral. -/
def State.currNow (s : State) (p : Port) : Nat := field (s.wordStanding (contractId p)) 7 0

/-- A contract that the link ends is a source loss (R248). -/
def State.endLoss (s : State) (held : Bool) : State := if held then s.sourceLoss 4 else s

/-- The contract is void: Neutral in the latch, no role, no target (R331, R338). -/
def State.voidContract (s : State) (p : Port) : State :=
  let s := (s.modL p fun l => { l with
    now := {}, next := none, offer := none, timer := false, leaving := false, dwellDone := false, ramp := none, hardSent := false
    await_ := none, again := false, forMode := false }).writeContract p {} 0
  ((s.setRole p {}).set (Obj.LINK_TARGET (p.num + 1)) 0)

/-- NEUTRAL, or BLOCKED while the moisture state forbids a contract. -/
def State.toNeutral (s : State) (p : Port) : State :=
  let held := s.contractHeld p
  let s := (s.voidContract p).modL p fun l => { l with discharge := 0 }
  (((s.linkZ p).setLink p (if s.moist p = 2 then 10 else 3)).ordering).endLoss held

/-- A HARD_RESET as sent or received: contract void, link discharged into the rail (R338). -/
def State.toHardReset (s : State) (p : Port) : State :=
  let held := s.contractHeld p
  let s := (s.voidContract p).modL p fun l => { l with discharge := 2 }
  (((s.linkRun p).setLink p 8).ordering).endLoss held

/-- The port sends HARD_RESET (R338). -/
def State.sendHard (s : State) (p : Port) (reason : Nat) : State :=
  let s := ((s.sendMsg p 8 (leBytes 1 reason) false).linkStat p 2).raise (linkSrc p) 5 reason
  (s.toHardReset p).modL p fun l => { l with hardSent := true }

/-- A HARD_RESET received with a reason; one more in HARD_RESET changes nothing (R338). -/
def State.onHardReset (s : State) (p : Port) (reason : Nat) : State :=
  let st := s.lState p
  if st < 3 ∨ st = 8 then s else ((s.linkStat p 3).raise (linkSrc p) 6 reason).toHardReset p

/-- RAMP_DOWN: the current limit ramps to 0 over 20 ms (R330). -/
def State.toRamp (s : State) (p : Port) : State :=
  let held := s.contractHeld p
  let s := s.modL p fun l => { l with next := none, timer := false, ramp := some (s.now, ms 20) }
  ((s.setLink p 9).set (Obj.LINK_TARGET (p.num + 1)) 0).endLoss held

/-- DETACHED: open, nothing held (R331). -/
def State.toDetached (s : State) (p : Port) : State :=
  let s := s.modL p fun l => { l with
    mated := false, far := false, heard := false, burstOk := false, peerMoist := 3, burst := if l.burst = 0 then 0 else 1 }
  let s := (((s.voidContract p).linkZ p).setLink p 1).ordering
  (s.moistObj p).set (Obj.LINK_PEER (p.num + 1)) 0

/-- OFF: no pilot, no bursts (R330). -/
def State.toOff (s : State) (p : Port) : State :=
  let held := s.contractHeld p
  let s := s.modL p fun l => { l with
    mated := false, far := false, heard := false, burst := 0, burstOk := false, peerMoist := 3, discharge := 0 }
  ((((s.voidContract p).linkZ p).setLink p 0).ordering).endLoss held

/-- SENSED turns into NEUTRAL once everything it waits for is there (R330). -/
def State.sensedStep (s : State) (p : Port) : State :=
  let l := s.lp p
  if s.lState p = 2 && l.far && !l.net && l.burstOk && l.heard && s.moist p != 2 then s.toNeutral p else s

/-- The moisture state has changed (R317, R330, R351). The detecting end ends a contract that exceeds the cap. -/
def State.moistChange (s : State) (p : Port) (detected : Bool) : State :=
  let s := s.moistObj p
  let m := s.moist p
  let st := s.lState p
  let t := (s.lp p).next.getD (s.lp p).now
  if detected && s.inContract p && (m == 2 || (m == 1 && (t.volt != 40 || 10 < t.curr))) then s.sendHard p 4
  else if st = 3 && m == 2 then s.setLink p 10
  else if st = 4 && m == 2 then s.toNeutral p
  else if st = 10 && m != 2 then s.setLink p 3
  else s.sensedStep p

/-! ### Policy (R343, R344) -/

/-- Modes in which the port negotiates (R346). -/
def State.linkFree (s : State) : Bool := !s.bringing && s.mode.park == 0 && s.inMode [2, 3, 4]

/-- The offer of the built-in policy: V_MIN, V_MAX, I_MAX, SLEW_MAX. None where the caps leave no room. -/
def State.offerOf (s : State) (p : Port) : Option (Nat × Nat × Nat × Nat) :=
  let vmax := min (s.linkAt p 3) s.ceiling
  let (lo, hi) := if s.moist p = 1 then (40, 40) else (s.linkAt p 2, vmax)
  let i := s.currLimit p (s.linkAt p 5)
  if lo ≤ hi && hi ≤ s.ceiling && 40 ≤ lo && 1 ≤ i && 5 ≤ s.slewLimit p && s.moist p < 2 then some (lo, hi, i, s.slewLimit p) else none

/-- The port's sequencer has no table of its own, and carries out the built-in policy (R343). -/
def State.builtIn (s : State) (p : Port) : Bool := (s.seqs.getD (2 + p.num) {}).block.isEmpty

/-- The policy sends an OFFER (R344). -/
def State.sendOffer (s : State) (p : Port) : State :=
  if s.lState p = 3 && s.linkFree && !(s.lp p).net && bit (s.linkAt p 0) 3 && s.provEn p && 5 * s.linkAt p 7 ≤ s.obj Obj.PACK_SOC then
    match s.offerOf p with
    | some (lo, hi, i, sl) =>
      let body := leBytes 1 lo ++ leBytes 1 hi ++ leBytes 1 i ++ leBytes 1 sl ++ leBytes 2 (hi * i / 8) ++ leBytes 1 (b2n (s.swapEn p))
      ((s.sendMsg p 1 body true).modL p fun l => { l with offer := some body }).setLink p 4
    | none => s
  else s

/-- The port sends DETACH and awaits its ACCEPT. -/
def State.sendDetach (s : State) (p : Port) (reason : Nat) : State :=
  (s.sendMsg p 9 (leBytes 1 reason) true).modL p fun l => { l with leaving := true }

/-- The same, unless a REQUEST, SWAP_REQ or DETACH of its own still awaits an answer (R329). -/
def State.detachFree (s : State) (p : Port) (reason : Nat) : State :=
  if [2, 6, 9].contains (s.awaiting p) then s else s.sendDetach p reason

/-- What the policy does in CONTRACT (R344). -/
def State.policyContract (s : State) (p : Port) : State :=
  if s.lState p = 6 && s.linkFree && s.awaiting p == 0 then
    let soc := s.obj Obj.PACK_SOC
    if (s.lp p).now.prov then (if soc + 50 < 5 * s.linkAt p 7 then s.sendDetach p 0x0C else s)
    else if 5 * s.linkAt p 8 ≤ soc then s.sendDetach p 1
    else s
  else s

/-- The built-in policy of both ports at a common trigger, as the state of charge stands. -/
def State.linkPolicy (s : State) : State :=
  [Port.east, Port.west].foldl (fun s p => if s.variant == .A && s.builtIn p then s.policyContract p else s) s

/-! ### The link by mode (R346) -/

/-- Park entry or Service: contracts end with DETACH, reason MODE. -/
def State.linkLeave (s : State) (p : Port) : State :=
  let st := s.lState p
  if s.inContract p then ((s.detachFree p 0x0A).toRamp p).modL p fun l => { l with forMode := true }
  else if st = 4 then s.toNeutral p
  else s

/-- Overcast: group at Z, one HARD_RESET with reason MODE, no discharge; no bursts run (R318). -/
def State.linkOvercast (s : State) (p : Port) : State :=
  let st := s.lState p
  let s := s.modL p fun l => { l with burst := 0 }
  if 2 ≤ st then
    let s := ((s.sendMsg p 8 (leBytes 1 0x0A) false).linkStat p 2).raise (linkSrc p) 5 0x0A
    if st = 2 then s.linkZ p else s.toNeutral p
  else s.linkZ p

/-- The ports are neutral, as Park entry waits for. -/
def State.linkQuiet (s : State) : Bool := [Port.east, Port.west].all fun p => !([5, 6, 7, 8, 9].contains (s.lState p))

end Sys2Proof.Machine
end

