-- ==== Sys2Proof/Machine/FlashOps.lean ====
section
/-!
DEFINITION. FlashOps.lean: the flash manager's journal, banks and wear (R605-R609, R711-R722) and the OTP (R723-R730).
-/
namespace Sys2Proof.Machine

/-! ### Wear (R720) -/

/-- Data bytes of a 4 KB sector after its 8-byte header (R713). -/
def sectorData : Nat := 3960

/-- Sectors of a region: banks A and B, journal, life log, and the archive, which takes the rest of the flash (R714). -/
def ringSectors (mb : Nat) : Nat → Nat
  | 1 => 144
  | 2 => 144
  | 3 => 256
  | 4 => 1088
  | _ => 256 * mb - 1648

/-- Sectors of a region that have not failed twice. -/
def State.soundSectors (s : State) (r : Nat) : Nat :=
  ringSectors s.flash.size r - (s.flash.retired.filter fun e => e.1 == r).length

/-- Data bytes written to a ring since it was empty. -/
def State.ringBytes (s : State) (r : Nat) : Nat :=
  if r = 3 then s.flash.head else if r = 4 then 32 * s.obj Obj.HZ_LOG_COUNT else if r = 5 then s.flash.archived else 0

/-- Sectors of a ring whose ERASE_COUNT has reached FLASH_ENDURANCE: the ring erases its sectors in turn (R720). -/
def State.wornSectors (s : State) (r : Nat) : Nat :=
  let n := s.soundSectors r
  min n (ceilDiv (s.ringBytes r) sectorData - (s.obj Obj.FLASH_ENDURANCE - 1) * n)

/-- Sectors of a region in service. -/
def State.inService (s : State) (r : Nat) : Nat := s.soundSectors r - s.wornSectors r

/-- The highest ERASE_COUNT of a ring. -/
def State.ringWear (s : State) (r : Nat) : Nat :=
  let n := s.soundSectors r
  if n = 0 then 0 else ceilDiv (ceilDiv (s.ringBytes r) sectorData) n

/-- WEAR_LIMIT once at each of 80, 90 and 100 %. -/
def State.wearReport (s : State) : State :=
  let top := maxOr 0 s.flash.wear
  let e := s.obj Obj.FLASH_ENDURANCE
  let at_ := fun n => decide (n * e ≤ 100 * top) && e != 0
  let n := if at_ 100 then 3 else if at_ 90 then 2 else if at_ 80 then 1 else 0
  if s.flash.limit < n then { s with flash := { s.flash with limit := n } }.raise 0x17 5 (top / 100) else s

/-- FLASH_WEAR and FLASH_RETIRED follow; a journal of under 128 sectors makes the flash read-only. -/
def State.wearObjs (s : State) : State :=
  let w := [s.flash.wear.getD 0 0, s.flash.wear.getD 1 0, s.ringWear 3, s.ringWear 4,
    s.ringWear 5]
  let s := { s with flash := { s.flash with wear := w } }
  let s := (List.range 5).foldl (fun s i => s.set (Obj.FLASH_WEAR (i + 1)) (w.getD i 0)) s
  let s := s.set Obj.FLASH_RETIRED
    (min 65535 (s.flash.retired.length + s.wornSectors 3 + s.wornSectors 4 + s.wornSectors 5))
  let s := if s.inService 3 < 128 && s.obj Obj.FLASH_STATE != 0 then s.set Obj.FLASH_STATE 3 else s
  s.wearReport

/-- A program or an erase of a sector has failed; a sector that fails twice is retired. -/
def State.sectorFail (s : State) (region sector kind : Nat) : State :=
  let s := s.raise 0x17 kind sector
  if s.flash.failed.contains sector then
    { s with flash := { s.flash with
      failed := s.flash.failed.filter (· != sector), retired := s.flash.retired ++ [(region, sector)] } }.wearObjs
  else { s with flash := { s.flash with failed := sector :: s.flash.failed } }

def State.flashBusy (s : State) (b : Bool) : State :=
  if s.flashOk then s.set Obj.FLASH_STATE (if b then 2 else 1) else s

/-- A VAUX warning suspends every operation but the journal commit (R718). -/
def State.flashHeld (s : State) : Bool := s.obj Obj.VAUX_STATE == 1

/-! ### The journal (R606, R607, R716, R717) -/

/-- Entries `new` over entries `old`. -/
def mergeStore (old new : Store) : Store := new.foldl (fun r e => r.write (fun _ => 0) e.1 e.2) old

/-- A commit starts where anything is pending; one that runs is followed by another (R606). -/
def State.commitStart (s : State) : State :=
  if !s.flashOk then (if s.jrnl.buf.isEmpty then s else s.set Obj.OD_JOURNAL 3)
  else if s.jrnl.inFlight.isSome then { s with jrnl := { s.jrnl with again := true } }
  else if s.jrnl.buf.isEmpty && s.uds.dtcs == s.flash.dtcs && s.hz.base == s.flash.hzBase then s
  else ({ s with jrnl := { s.jrnl with buf := [], inFlight := some s.jrnl.buf } }.set Obj.OD_JOURNAL 2).flashBusy true

/-- Bytes of a record of `n` entries (R716). -/
def recordBytes (n : Nat) : Nat := 16 * (n + 1)

/-- Bytes of a blob record of a DOMAIN of `n` bytes (R716). -/
def blobBytes (n : Nat) : Nat := 16 * ceilDiv (32 + n) 16

/-- An entry of a record: INDEX, SUB, SIZE, VALUE and 4 reserved bytes. -/
def entryBytes (e : Nat × Nat) : List Byte :=
  leBytes 2 (e.1 / 256) ++ leBytes 1 (e.1 % 256) ++
    leBytes 1 (((Dict.row? e.1).bind fun r => r.type.size).getD 8) ++ leBytes 8 (e.2 - 1) ++ leBytes 4 0

/-- A record of the journal (R716): header, entries, and the CRC-32 over what comes before it. -/
def journalRecord (seq kind : Nat) (e : Store) : List Byte :=
  let b := leBytes 4 seq ++ leBytes 2 e.length ++ leBytes 1 kind ++ leBytes 1 0 ++ leBytes 4 (recordBytes e.length) ++ e.flatMap entryBytes
  b ++ leBytes 4 (crc32 b)

/-- A checkpoint of every P object and the trouble codes (R717). -/
def State.checkpoint (s : State) : State :=
  let n := ((Dict.all.filter fun r => r.persist == .P && r.type != .domain && r.on.has s.variant).map fun r => r.last + 1 - r.first).foldl (· + ·) 0
  let f := s.flash
  { s with flash := { f with
    ckpt := f.head, ckptPrev := f.ckpt, ckptDue := false, live := n + 2
    head := f.head + recordBytes n + blobBytes (16 * s.uds.dtcs.length) + blobBytes 176 + recordBytes 0, recSeq := f.recSeq + 4 } }

/-- Free sectors of the journal ring. -/
def State.freeSectors (s : State) : Nat := s.inService 3 - (ceilDiv s.flash.head sectorData - s.flash.ckpt / sectorData)

/-- The record is in flash: its entries are committed (R607). COMMITS counts itself in the same record. -/
def State.commitDone (s : State) (ok : Bool) (sector : Nat) : State :=
  match s.jrnl.inFlight with
  | none => s
  | some e =>
    let s := s.flashBusy false
    if ok then
      let n := satInc 0xFFFFFFFF (s.obj Obj.OD_STATS_COMMITS)
      let f := s.flash
      let all := e.write (fun _ => 0) Obj.OD_STATS_COMMITS (n + 1)
      let blobs := (if s.uds.dtcs == f.dtcs then [] else [blobBytes (16 * s.uds.dtcs.length)]) ++
        if s.hz.base == f.hzBase then [] else [blobBytes 176]
      let s := { s with
        jrnl := { s.jrnl with inFlight := none, again := false }
        flash := { f with
          entries := mergeStore f.entries all
          dtcs := s.uds.dtcs, hzBase := s.hz.base, recSeq := f.recSeq + 1 + blobs.length, torn := false
          live := f.live + all.length + blobs.length
          record := journalRecord f.recSeq 0 all
          head := blobs.foldl (· + ·) (f.head + recordBytes all.length) } }
      let s := (s.set Obj.OD_STATS_COMMITS n).set Obj.OD_JOURNAL (if s.jrnl.buf.isEmpty then 0 else 1)
      let s := if s.freeSectors < 64 || s.flash.ckptDue then s.checkpoint else s
      s.wearObjs
    else
      ({ s with jrnl := { s.jrnl with inFlight := none, again := false, buf := mergeStore e s.jrnl.buf } }.set Obj.OD_JOURNAL 3).sectorFail 3 sector 1

/-- A reset strikes a commit: its record lacks a valid CRC (R733). -/
def State.commitTorn (s : State) : State :=
  if s.jrnl.inFlight.isSome then { s with flash := { s.flash with torn := true } } else s

/-- The replay discards such a record: JOURNAL_REPLAY with the entries replayed (R717). -/
def State.replayReport (s : State) : State :=
  if s.flash.torn && s.obj Obj.FLASH_STATE != 0 then
    ({ s with flash := { s.flash with torn := false } } : State).raise 0x17 3 (min 65535 s.flash.live)
  else s

/-- The commit that was asked for while another ran. -/
def State.commitAgain (s : State) (again : Bool) : State := if again then s.commitStart else s

/-- A commit begun and completed within one step (bring-up, Park entry). -/
def State.commitNow (s : State) : State := (s.commitStart).commitDone true 0

/-! ### Banks in flash (R683, R719) -/

/-- Bank `n` (1 A, 2 B) in SRAM and in flash. -/
def State.bank (s : State) (n : Nat) : Bank := if n = 2 then s.tabs.b else s.tabs.a
def State.bankF (s : State) (n : Nat) : Bank := if n = 2 then s.tabs.fb else s.tabs.fa
def State.setBank (s : State) (n : Nat) (x : Bank) : State :=
  if n = 2 then { s with tabs := { s.tabs with b := x } } else { s with tabs := { s.tabs with a := x } }

/-- BANK_GEN.01 and .02 report the generations held in flash. -/
def State.bankGens (s : State) : State :=
  (s.set (Obj.BANK_GEN 1) s.tabs.fa.gen).set (Obj.BANK_GEN 2) s.tabs.fb.gen

/-- A bank's copy in flash is rewritten from SRAM, with a generation. -/
def State.writeBankF (s : State) (n gen : Nat) : State :=
  if s.flashOk then
    let x : Bank := { s.bank n with gen := gen }
    let s := if n = 2 then { s with tabs := { s.tabs with fb := x } } else { s with tabs := { s.tabs with fa := x } }
    { s with flash := { s.flash with wear := s.flash.wear.set (n - 1) (s.flash.wear.getD (n - 1) 0 + 1) } }.wearObjs.bankGens
  else s

/-- A kind is empty in a bank and in its flash copy (R664). -/
def State.emptyKind (s : State) (n k : Nat) : State :=
  let out := fun (x : Bank) => { x with images := x.images.filter fun (e : Nat × List Byte) => e.1 != k }
  let s := s.setBank n (out (s.bank n))
  let s := if !s.flashOk then s else if n = 2 then { s with tabs := { s.tabs with fb := out s.tabs.fb } }
    else { s with tabs := { s.tabs with fa := out s.tabs.fa } }
  if 1 ≤ k && k ≤ 10 && s.obj (Obj.TABLE_ID_INACTIVE k) != 0 then s.set (Obj.TABLE_ID_INACTIVE k) 0 else s

/-- The bank copy being written is in flash (R718, R719). -/
def State.bankWritten (s : State) : State :=
  match s.tabs.writing with
  | none => s
  | some n =>
    let l := (s.bank n).images
    let t := if n = 2 then { s.tabs with fb := { s.tabs.fb with images := l }, writing := none }
      else { s.tabs with fa := { s.tabs.fa with images := l }, writing := none }
    let f := { s.flash with wear := s.flash.wear.set (n - 1) (s.flash.wear.getD (n - 1) 0 + 1) }
    ({ s with tabs := t, flash := f }.flashBusy false).wearObjs

/-! ### OTP (R723-R729) -/

/-- Bytes of an area. -/
def otpSize : Nat → Nat
  | 0 => 32
  | 1 => 512
  | 2 => 64
  | 3 => 96
  | 4 => 512
  | _ => 0

def State.otpArea (s : State) (a : Nat) : OtpArea := s.otp.areas.getD a {}

/-- `n` bytes of a store from `off`. -/
def storeBytes (r : Store) (off n : Nat) : List Byte := (List.range n).map fun i => BitVec.ofNat 8 (r.read (fun _ => 0) (off + i))

/-- The area's CRC-16 over its other bytes passes. -/
def areaCrc (a : Nat) (r : Store) : Bool :=
  crc16 (storeBytes r 0 (otpSize a - 2)) == leNat (storeBytes r (otpSize a - 2) 2)

/-- OTP_STATE of an area at sensing (R724). -/
def State.otpSensed (s : State) (a : Nat) : Nat :=
  let x := s.otpArea a
  if !x.locked then (if x.fuses.isEmpty then 0 else 1) else if areaCrc a x.fuses then 2 else 3

/-- Bytes of an area's shadow. -/
def State.shadow (s : State) (a off n : Nat) : List Byte := storeBytes (s.otp.shadows.getD a []) off n

/-- Is the area VALID (R725)? -/
def State.otpValid (s : State) (a : Nat) : Bool := s.obj (Obj.OTP_STATE (a + 1)) == 2

/-- Default ceilings of R725. -/
def ceilDefault : List Nat := [2400, 2400, 600, 800, 800, 750, 2000]
def stratusDefault : List Nat := [600, 600, 400, 10]

/-- The O objects follow the shadows (R725, R731). -/
def State.otpObjects (s : State) : State :=
  let v := s.otpValid
  let feat := byteAt (s.shadow 2 0 1) 0
  let s := s.set Obj.VARIANT (if v 2 && 1 ≤ feat && feat ≤ 3 then feat else 3)
  let s := s.set Obj.UNIQUE_ID (if v 0 then leNat (s.shadow 0 0 8) else 0)
  let s := s.set Obj.OTP_ORDERED (if v 0 then byteAt (s.shadow 0 8 1) 0 else 0)
  let s := s.set Obj.OTP_TRACE (if v 0 then leNat (s.shadow 0 9 7) else 0)
  let s := (List.range 7).foldl (fun s i =>
    s.set (Obj.OTP_CEIL (i + 1)) (if v 2 then leNat (s.shadow 2 (2 + 2 * i) 2) else ceilDefault.getD i 0)) s
  let lims := (List.range 4).map fun i => if v 4 then leNat (s.shadow 4 (2 * i) 2) else stratusDefault.getD i 0
  let s := (((s.set Obj.STRATUS_LIM_IN (lims.getD 0 0)).set Obj.STRATUS_LIM_PACKGRP (lims.getD 1 0)).set
    Obj.STRATUS_LIM_PACK_DIS (lims.getD 2 0)).set Obj.STRATUS_LIM_LINK (lims.getD 3 0)
  let pol := if v 3 then b2n (bit (byteAt (s.shadow 3 0 1) 0) 0) else if s.obj (Obj.OTP_STATE 4) = 3 then 1 else 0
  (s.set Obj.SEC_POLICY pol).set Obj.TABLE_AUTH pol

/-- Sensing of bring-up step 2: `tight` names the areas whose tight read fails the CRC (R724). The shadows agree with the fuses
again: OTP_REVERIFY ends (R726). -/
def State.otpSense (s : State) (tight : Nat) : State :=
  let s := { s with otp := { s.otp with shadows := s.otp.areas.map fun (a : OtpArea) => a.fuses } }
  let s := (List.range 5).foldl (fun s a =>
    let st := s.otpSensed a
    let s := s.set (Obj.OTP_STATE (a + 1)) st
    if st = 3 then s.raise 0x18 2 a else if st == 2 && bit tight a then s.raise 0x18 1 a else s) s
  (s.clearK 0x18 3).otpObjects

/-- The SHA-256 hash of the signing key, where the SEC area is VALID. -/
def State.keyHash (s : State) : Option (List Byte) :=
  if s.otpValid 3 then
    let h := s.shadow 3 32 32
    if h.all (· == 0#8) then none else some h
  else none

/-- The CMAC key of R662: the SEC area's, or the FEAT transport key while SEC is blank or open. A FEAT area that is not VALID gives
none (R725). -/
def State.cmacKey (s : State) : Option (List Byte) :=
  let st := s.obj (Obj.OTP_STATE 4)
  if st = 2 then some (s.shadow 3 16 16) else if st = 3 || !s.otpValid 2 then none else some (s.shadow 2 16 16)

/-- Programming ORs bits in and never clears one (R728). -/
def programBits (r : Store) (off : Nat) (data : List Byte) : Store :=
  (List.range data.length).foldl (fun r i =>
    r.write (fun _ => 0) (off + i) (r.read (fun _ => 0) (off + i) ||| byteAt data i)) r

def State.modArea (s : State) (a : Nat) (f : OtpArea → OtpArea) : State :=
  { s with otp := { s.otp with areas := s.otp.areas.set a (f (s.otpArea a)) } }

/-- The bits of a programming that took, where it failed or was broken off, are open. -/
def State.someBits (s : State) : List Byte → List Byte × State
  | [] => ([], s)
  | b :: r =>
    let (v, s) := s.draw 8
    let (l, s) := s.someBits r
    ((b &&& BitVec.ofNat 8 v) :: l, s)

/-- A reset or a loss of power during programming (R730): the bits already programmed stay, and a lock reads either way. -/
def State.otpBreak (s : State) : State :=
  match s.otp.prog with
  | none => s
  | some (a, off, d) =>
    let s := { s with otp := { s.otp with prog := none, due := none } }
    if d.isEmpty then
      let (v, s) := s.draw 1
      s.modArea a fun x => { x with locked := x.locked || v == 1 }
    else
      let (l, s) := s.someBits d
      s.modArea a fun x => { x with fuses := programBits x.fuses off l }

end Sys2Proof.Machine
end

