-- ==== Sys2Proof/Machine/ModeOps.lean ====
section
/-!
DEFINITION. ModeOps.lean: mode changes, the target and acting on it, Park entry, Storage, Stratus, Overcast, and the return of a
diagnostic session to default (R46-R87, R126-R134, R532, R654).
-/
namespace Sys2Proof.Machine

/-! ### A mode change -/

/-- The row of R52 gives HALO low (R526), apart from the collector's own causes. -/
def State.haloMode (s : State) : Bool := s.bringing || !s.shellUp || s.inMode [0, 1, 6]

/-- The input group's ORDER word follows the mode: only its ADD_I, and only where it enables a phase (R136, R156). -/
def State.orderMode (s : State) : State :=
  let w := s.wordStanding 44
  if s.bringing || field w 15 13 = 0 then s
  else s.portIfNew 44 (w - field w 23 19 * 2 ^ 19 + s.orderAdd .input * 2 ^ 19)

/-- HZ_STATE of the mode (R469, R488, R498). -/
def State.hzMode (s : State) : State :=
  s.set Obj.HZ_STATE (if s.inMode [0, 1, 6] then 0 else if s.inMode [4, 7] then 4 else if s.hz.epoch.isSome then 3 else 1)

/-- MODE_STATE, MODE_PREV and MODE_CAUSE (R46, R51), and what the blocks do at the change. -/
def State.setMode (s : State) (next cause : Nat) : State :=
  let was := s.modeNow
  let s := ((s.set Obj.MODE_PREV was).set Obj.MODE_STATE next).set Obj.MODE_CAUSE cause
  let s := { s with note := { s.note with reason := setBit s.note.reason 1 true } }
  -- a service charge outlives Ride-through only (R286, R303)
  let s := if next = 4 ∨ next = 5 then s else s.set Obj.CHG_SERVICE 0
  if s.shellUp then
    let s := s.chgModeChange.orderMode
    let s := if [2, 3, 5].contains next then s else s.balOff
    (if next = 2 then s else s.probeAbandon).hzMode
  else s.balOff.hzMode

/-! ### Sources exhausted (R55, R83) -/

/-- The pack can supply nothing. -/
def State.packDead (s : State) : Bool := !s.packAlive || s.cells == 0 || !s.chgValid

/-- VBUS, mV, is below the applied drop threshold, or below 6.0 V before any row is applied. -/
def State.busLow (s : State) (vbus : Int) : Bool :=
  if s.word 9 = 0 then vbus < 6000 else vbus < 50 * (s.word 9 : Nat)

/-- A Consumer contract carries current. -/
def State.importing (s : State) : Bool :=
  [Port.east, Port.west].any fun p => s.consumer p && s.contractI p != 0

/-- Every group at Z for the mode, DISC_GATE off, the source ABSENT (R184). -/
def State.groupsOff (s : State) : State :=
  let s := s.groups.foldl (fun s g => s.stopG g 4) s
  { (s.srcState 0) with
    core := { s.core with
      disc := false, precharge := false, dropped := false, dumped := false, rideFromOn := false, overRail := false, gateOff := false }
    src := { s.src with cls := 0, waiting := false, reclass := false, discAt := none } }

/-- The core buck goes off: the words stand on their retention supply, the oscillators stop, the rest of the core is unpowered
(R742). -/
def State.coreOff (s : State) : State :=
  let s := s.allG fun g => { stops := g.stops }
  let s := { s with ph := s.ph.map fun (p : Phase) => { trim := p.trim, zero := p.zero } }
  { s with
    core := { words := s.core.words, stall := s.core.stall }, strat := {}, spd := {} }

/-- MODE_REQ.H, .T and .F revert to none (R61). -/
def State.dropRequests (s : State) : State :=
  { ((s.set Obj.MODE_REQ_H 0xFF).set Obj.MODE_REQ_T 0xFF).set Obj.MODE_REQ_F 0xFF with
    mode := { s.mode with leaseH := false, leaseF := false } }

/-- The slot of highest precedence: Service, Play, Idle, Storage, Park, none (R57). -/
def State.resolved (s : State) : Nat :=
  let l := [s.obj Obj.MODE_REQ_H, s.obj Obj.MODE_REQ_S, s.obj Obj.MODE_REQ_T, s.obj Obj.MODE_REQ_F]
  ([5, 3, 2, 0, 1].find? fun m => l.contains m).getD 0xFF

/-- Every lock is released (R604). -/
def State.freeLocks (s : State) : State := (List.range 16).foldl (fun s i => s.set (Obj.OD_LOCK (i + 1)) 0) s

/-! ### The mirror (R535, R536) -/

/-- FAULT_SUMMARY (R535). -/
def State.faultSummary (s : State) : Nat :=
  let act := s.recs.filter fun (e : Nat × FaultRec) => e.2.active
  let high := act.foldl (fun c (e : Nat × FaultRec) => if c = 15 then e.2.cls else max c e.2.cls) 15
  b2n s.aon.direct * 2 ^ 31 + b2n s.aon.overcast * 2 ^ 30 + b2n s.col.recOvf * 2 ^ 29 + b2n (s.obj Obj.HALO_STATE != 0) * 2 ^ 28 +
    b2n s.col.irq * 2 ^ 27 + b2n (s.seqs.toList.any fun (q : Seq) => q.trap) * 2 ^ 26 + b2n s.col.lost * 2 ^ 25 +
    (act.length % 256) * 2 ^ 16 + ((s.recs.filter fun (e : Nat × FaultRec) => !e.2.read).length % 256) * 2 ^ 8 + high

/-- The always-on copy of PACK_SOC (R613). -/
def State.socMirror (s : State) : State := { s with aon := { s.aon with soc := s.obj Obj.PACK_SOC, socAt := s.now } }

/-- The always-on copy of FAULT_SUMMARY, as the shell leaves it. -/
def State.mirror (s : State) : State := s.set Obj.FAULT_SUMMARY s.faultSummary

/-! ### CAN, fabric and link off -/

def State.modCan (s : State) (cb : CanBus) (f : Can → Can) : State := { s with can := s.can.put cb (f (s.can.get cb)) }

def canSrc (cb : CanBus) : Nat := 0x11 + cb.num
def State.canState (s : State) (cb : CanBus) : Nat := s.obj (Obj.CAN_STATE (cb.num + 1))
def State.setCanState (s : State) (cb : CanBus) (n : Nat) : State := s.set (Obj.CAN_STATE (cb.num + 1)) n

/-- Off: recessive in Storage and Park and during a system reset (R621). -/
def State.canOff (s : State) (cb : CanBus) : State :=
  let s := s.modCan cb fun c => { c with queue := [], later := [], answered := [], held := [], block := none }
  let s := s.clearBy fun m => m.src == canSrc cb && (m.kind == 1 || m.kind == 2)
  (s.setCanState cb 0).set (Obj.CAN_ERR (cb.num + 1)) 0

/-- Both ports DISABLED: Storage, Park, a system reset (R362, R390). -/
def State.fabOff (s : State) : State :=
  let s := [Port.east, Port.west].foldl (fun s p =>
    ((s.set (Obj.PORT_STATE (p.num + 1)) 0).set (Obj.PORT_NBR (p.num + 1)) 0).set (Obj.PORT_DELAY (p.num + 1)) 0) s
  let s := s.clearK 0x0E 2
  let f := s.fab
  ({ s with fab := { f with
    ports := ⟨{}, {}⟩, recs := [], settled := false, zenith := none, lastZenith := none, tLast := none, reqs := []
    boot := none, bootData := [] } }.set Obj.FAB_STATE 0).set (Obj.TIMEBASE_STATE) 0

/-- Storage, Park: the link ports are OFF (R330). -/
def State.linksOff (s : State) : State := if s.variant == .A then (s.toOff .east).toOff .west else s

/-- The shell is off: nothing of it runs. -/
def State.shellOff (s : State) : State :=
  let s := { (s.mirror.coreOff) with
    aon := { s.aon with shell := false, resetLevel := 0, cause := 0, nrstLow := false, nrstDrive := false, wake := none }
    mode := { s.mode with park := 0, parkCheck := false, wakeHold := false, stored := false, maint := false, railOff := false }
    seqs := Vector.replicate 5 {}
    env := { s.env with dout := [], hiZ := true }
    srv := {}
    hz := { s.hz with probe := 0 } }
  let s := ((((s.linksOff).canOff .a).canOff .b).fabOff).measStop
  let s := { s with ring := { s.ring with open_ := none, closing := none } }
  let s := ((s.set Obj.ENV_STATE 0).set Obj.REC_STATE 0).set Obj.BAL_STATE 0
  (((s.set Obj.WD_STATE 0).set Obj.WD_TOKEN 0).set Obj.WD_SEEN 0).set Obj.BRINGUP_STEP 0

/-- Storage is entered with every group at Z. -/
def State.enterStorage (s : State) (cause : Nat) : State :=
  let s := (s.groupsOff.setMode 0 cause).dropRequests
  s.shellOff.set Obj.MODE_TARGET s.resolved

/-- A mode in which R55 applies (R53). -/
def State.railMode (s : State) : Bool := s.inMode [2, 3, 4, 5] && !s.bringing && !s.aon.overcast

/-- Sources exhausted at a bus voltage (R55): the fault, the commit, Storage. -/
def State.exhausted (s : State) (vbus : Int) : State :=
  if s.railMode && s.shellUp && s.busLow vbus && s.packDead && !s.importing && s.obj Obj.TSD_STATE == 0 then
    ((s.raise 6 3 0).commitNow).enterStorage 9
  else s

/-- VBUS where the event that leaves no source gives none: CH32's result, or, without one, what the drop comparator and the source's
state tell. -/
def State.busNow (s : State) : Option Int :=
  match s.reading 32 80000 with
  | some v => some v
  | none => if s.core.busLow || s.obj Obj.SRC_STATE == 0 then some 0 else none

/-- Sources exhausted at VBUS as it stands. -/
def State.exhaustedNow (s : State) : State :=
  match s.busNow with
  | some v => s.exhausted v
  | none => s

/-- Units of 0.1 V from mV, within an instance. -/
def decivolts (mv : Nat) : Nat := min 65535 (mv / 100)

/-- The pack supplies or takes a charge current under the charger's command. -/
def State.charging (s : State) : Bool := 3 ≤ s.obj Obj.CHG_STATE && s.obj Obj.CHG_STATE ≤ 6 && s.obj Obj.CHG_I_CMD != 0

/-- VPACK_S below n × 0.500 V for 1 ms. PACK_REMOVED belongs to a pack that is not being charged. -/
def State.packRemoved (s : State) (vpack : Nat) : State :=
  let t := s.packGone
  let t := if s.charging then t else t.chgEvent 8 8 (decivolts vpack) 15
  (t.sourceLoss 5).exhaustedNow

/-- Presence on VPACK as it stands, for a handover and for the first scans after it: gone, there, or not yet to be told (R265, R288). -/
def State.packSeen (s : State) : State :=
  match s.reading 17 80000 with
  | none => s
  | some v =>
    if s.cells = 0 || (s.obj Obj.PACK_STATE = 0 && !s.chg.unseen) then s
    else if v < ((500 * s.cells : Nat) : Int) then s.packRemoved v.toNat
    else if s.chg.unseen && s.packThere v.toNat then
      ({ s.set Obj.PACK_STATE 1 with chg := { s.chg with unseen := false } } : State).cutoff
    else s

/-- The same while the shell is absent (R83): no commit, no shell. -/
def State.exhaustedStratus (s : State) (vbus : Int) : State :=
  if s.strat.absent && s.modeNow = 6 && s.busLow vbus && s.packDead && !s.importing && s.obj Obj.TSD_STATE == 0 then s.enterStorage 9 else s

/-- The same at VBUS as it stands. -/
def State.exhaustedStratusNow (s : State) : State :=
  match s.busNow with
  | some v => s.exhaustedStratus v
  | none => s

/-! ### Bring-up starts -/

/-- Bring-up starts at a step, for a cause (R65). Kinds: 0 power-on, 1 wake, 2 reset with the rail up, 3 with the rail down,
4 Service exit. -/
def State.bringUp (s : State) (kind cause step : Nat) : State :=
  { s with aon := { s.aon with bringCause := cause, bringKind := kind, wake := none } }.set Obj.BRINGUP_STEP step

/-- A wake from Park or Storage starts bring-up at step 2. The device's own wake-up signal follows R643. -/
def State.wakeUp (s : State) (cause : Nat) : State :=
  let s := { s with mode := { s.mode with parkCheck := false }
                    lin := { s.lin with
                      wakeDue := s.lin.wakeDue || (cause != 4 && bit s.lin.cfg 1 && s.lin.sleep)
                      wakes := 0, blocks := 0 } }
  s.bringUp 1 cause 2

/-- A wake event (R50, R72, R87). During a Park check, and once a Park entry has stopped the groups, it waits. -/
def State.wakeEvent (s : State) (cause : Nat) : State :=
  let wait := fun (s : State) => { s with aon := { s.aon with wake := some (s.aon.wake.getD cause) } }
  if s.bringing || s.aon.por then s
  else if s.inMode [0, 1] then (if s.mode.parkCheck then wait s else s.wakeUp cause)
  else if s.mode.park = 5 then wait s
  else s

/-! ### Classification starts -/

/-- A classification starts at step 1 (R187, R188). A source that was not CONNECTED carries no rail load in it. -/
def State.classStart (s : State) : State :=
  let on := s.obj Obj.SRC_STATE == 2
  let s := s.srcState 1
  let s := { s with src := { s.src with
    cls := 1, fromConnected := on, prov := 0, window := false, stepOn := false, stepCut := false, waiting := false, reclass := false
    lastWindow := false, lastAt := s.now } }
  if on then s else s.stopG .input 8

/-- Bring-up step 9 starts: a classification where the bus stands at 6.0 V or more, for which the input group is let go. -/
def State.stepNine (s : State) (vbus : Nat) : State :=
  let s := s.set Obj.BRINGUP_STEP 9
  if 6000 ≤ vbus then (s.freeG .input 4).classStart else s

/-! ### Sessions (R654) -/

/-- An image whose header's kind has arrived and that is abandoned leaves its kind empty in the inactive bank (R664). -/
def State.abandonImage (s : State) (d : List Byte) : State :=
  if d.length < 6 then s else s.emptyKind (if s.obj Obj.TABLE_ACTIVE = 1 then 2 else 1) (byteAt d 5)

/-- A download ends without success. -/
def State.downloadFail (s : State) (report : Bool) : State :=
  match s.uds.download with
  | none => s
  | some d =>
    let s := { s with uds := { s.uds with download := none } }.set Obj.DOWNLOAD_STATE 4
    let s := s.abandonImage d.data
    if report then s.raise 0x14 3 (if 64 ≤ d.data.length then byteAt d.data 5 else 0) else s

/-- A TABLE_LOAD transfer abandoned under R589 raises DOWNLOAD_FAIL (R686). -/
def State.dropTransfer (s : State) (t : Transfer) : State :=
  let s := { s with srv := { s.srv with transfers := s.srv.transfers.filter (· != t) } }
  if t.key = Obj.TABLE_LOAD then
    ((s.set Obj.DOWNLOAD_STATE 4).abandonImage t.data).raise 0x14 3 (if 64 ≤ t.data.length then byteAt t.data 5 else 0)
  else s

/-- What every change of session does: levels locked, DTC setting on, downloads abandoned. -/
def State.sessionChange (s : State) (next : Nat) : State :=
  let s := ((s.set Obj.DIAG_SESSION next).set Obj.DIAG_SECURITY 0).set Obj.DTC_SETTING 1
  let s := { s with uds := { s.uds with seed := none } }.downloadFail true
  (s.srv.transfers.filter fun t => t.who == 3 && t.key == Obj.TABLE_LOAD).foldl (fun s t => s.dropTransfer t) s

/-- T's locks are released. -/
def State.freeLocksT (s : State) : State :=
  (List.range 16).foldl (fun s i => if s.obj (Obj.OD_LOCK (i + 1)) = 3 then s.set (Obj.OD_LOCK (i + 1)) 0 else s) s

/-- The return to the default session, with MODE_REQ.T none (R59, R604). The caller resolves the target. A session that is the
default one already keeps its request (R61). -/
def State.sessionDefault (s : State) : State :=
  if s.obj Obj.DIAG_SESSION = 1 && s.obj Obj.DIAG_SECURITY = 0 then s.freeLocksT
  else ((s.sessionChange 1).freeLocksT).set Obj.MODE_REQ_T 0xFF

/-! ### Acting on the target (R62, R63, R64, R767) -/

/-- Park entry starts at its first step (R71). -/
def State.parkStart (s : State) (cause : Nat) : State :=
  let s := { s with mode := { s.mode with park := 1, parkCause := cause } }
  let s := if 3 ≤ s.obj Obj.CHG_STATE && s.obj Obj.CHG_STATE ≤ 6 then (s.chgEnter 2 0).writeChg 0 else s
  ((s.linkLeave .east).linkLeave .west).probeAbandon

/-- Park entry is aborted before the groups stop, and not after (R72). -/
def State.parkAbort (s : State) : State :=
  if s.mode.park = 0 ∨ s.mode.park = 5 then s
  else { s with mode := { s.mode with park := 0, parkEpochDone := false, parkRestart := false } }.epochDiscard

/-- Service is entered: the ports' contracts end (R346). -/
def State.toService (s : State) (cause : Nat) : State := ((s.setMode 5 cause).linkLeave .east).linkLeave .west

/-- Leaving a Service with the rail unregulated: steps 9 to 11 (R68). Step 9 is passed at once where it has nothing to do. -/
def State.serviceExit (s : State) : State :=
  let s := s.bringUp 4 1 9
  if s.obj Obj.SRC_TYPE = 0 then s.stepNine s.vbus.toNat else s

/-- Acting in Idle. -/
def State.actIdle (s : State) (t cause : Nat) : State :=
  if t = 0 ∨ t = 1 then (if s.mode.park = 0 then s.parkStart cause else s)
  else
    let s := s.parkAbort
    if t = 3 then s.setMode 3 cause
    else if t = 5 then s.toService cause
    else s

/-- Acting on a target in the present mode. A maintenance run goes on under a target of Park or none (R73). -/
def State.act (s : State) : State :=
  let t := s.obj Obj.MODE_TARGET
  let m := s.modeNow
  if s.bringing || m = 4 || m = 6 || m = 7 || s.aon.overcast || s.obj Obj.TSD_STATE == 1 then { s with mode := { s.mode with stored := true } }
  else if s.mode.park = 5 then s
  else if s.mode.wakeHold && (t = 0 || t = 1 || t = 0xFF) then s
  else if s.mode.maint && m = 2 && (t = 1 || t = 0xFF) then s
  else if m = 1 then
    if t = 0 then s.enterStorage 1 else s
  else if m = 2 then s.actIdle t 1
  else if m = 3 then
    if t = 3 then s else if t = 5 then s.toService 1
    else if t = 0 ∨ t = 1 then (s.setMode 2 1).parkStart 1
    else s.setMode 2 1
  else if m = 5 then
    if t = 5 then s
    else if s.mode.railOff then s.serviceExit
    else (s.setMode 2 1).actIdle t 1
  else s

/-- SQ0 resolves, and acts on a changed value (R57, R767). -/
def State.resolve (s : State) : State :=
  let t := s.resolved
  if t = s.obj Obj.MODE_TARGET then s
  else ({ s with mode := { s.mode with serviceStay := false } }.set Obj.MODE_TARGET t).act

/-- A target that R63 held off falls to be acted on. -/
def State.actStored (s : State) : State :=
  { s with mode := { s.mode with stored := false } }.set Obj.MODE_TARGET s.resolved |>.act

/-! ### The shell becomes absent (R79, R126) -/

/-- A record whose window was open is skipped (R537), after a chip reset also one that was PENDING (R518); without one it goes on waiting
(R513). -/
def State.skipRecords (s : State) : State :=
  let chip := s.aon.chipWhy.isSome
  { s with
    recs := s.recs.map fun (e : Nat × FaultRec) => (e.1, { e.2 with
      skipped := e.2.skipped || (chip && e.2.waiting) || s.col.handling == some e.1, waiting := e.2.waiting && !chip })
    col := { s.col with handling := none, blockReset := none } }

/-- A classification ends without a result; the next reconnection is a new one (R196). -/
def State.classAbandon (s : State) : State :=
  if s.src.cls = 0 then s
  else { (s.modG .input fun x => { x with step := 0 }) with src := { s.src with cls := 0, reclass := true, waiting := false } }

/-- The first `n` slots of a grant frame, and 0 in the others. -/
def zeroFrom (l : List Nat) (n : Nat) : List Nat := l.take n ++ List.replicate (l.length - n) 0

/-- A commit in progress breaks off: its entries wait again. -/
def State.commitBack (s : State) : State :=
  if s.jrnl.inFlight.isSome then
    { s with jrnl := { s.jrnl with inFlight := none, buf := mergeStore (s.jrnl.inFlight.getD []) s.jrnl.buf } }
  else s

/-- The shell's engines stop with it: feedforward, the slots of this frame still to be sent, which are driven 0 (R261), the sequencers
and a table switch. -/
def State.enginesDrop (s : State) : State :=
  let s := s.allG fun g => { g with iff := 0 }
  { s with
    env := { s.env with pff := 0, ffOn := false, dout := zeroFrom s.env.dout (s.env.slot.elim 0 (· + 1)) }
    seqs := Vector.replicate 5 {}, tabs := { s.tabs with switching := false, newChg := none, newFreq := none } }

/-- MODE_STATE 6 from a mode with the rail on. The steps of R68 end here: from step 10 on the core regulates the rail. -/
def State.absentMode (s : State) : State :=
  if s.inMode [2, 3, 4, 5] && !s.aon.overcast then
    let s := (s.setMode 6 0x0A).count Obj.STRATUS_COUNT 0xFFFF
    if s.bringing && s.aon.bringKind = 4 then
      { s with mode := { s.mode with railOff := s.obj Obj.BRINGUP_STEP == 9 } }.set Obj.BRINGUP_STEP 0
    else s
  else s

/-- The core and the always-on domain treat the shell as absent: MODE_STATE 6 from a mode with the rail on. -/
def State.shellAbsent (s : State) (heartbeat : Bool) : State :=
  if s.strat.absent then s
  else
    let s := s.mirror.epochDiscard.classAbandon.commitBack.sessionDefault
    let s := if heartbeat then s else s.freeLocks
    let s := { s with
      strat := { s.strat with absent := true, heartbeat := heartbeat, since := s.now, level := 0, link := 0, linkNeutralised := false }
      core := { s.core with stratusRaised := [], queueOvf := false }
      mode := { s.mode with park := 0, parkEpochDone := false, parkRestart := false }
      hz := { s.hz with probe := 0 }
      ring := { s.ring with marks := s.ring.marks.filter fun e => e.2.mode != 6 }
      link := ⟨{ s.link.east with burst := 0, hardHeld := none }, { s.link.west with burst := 0, hardHeld := none }⟩ }
    let s := s.skipRecords.enginesDrop
    let s := ((s.set Obj.WD_STATE 0).set Obj.WD_TOKEN 0).set Obj.WD_SEEN 0
    let s := s.absentMode
    -- groups without a running oscillator have no boundary to wait for (R36)
    { s with strat := { s.strat with active := s.strat.active || s.modeNow == 6 } }

/-! ### Overcast (R84, R531, R532) -/

/-- The latch is set: the link groups go to Z at once, the timed steps follow (R532). -/
def State.setOvercast (s : State) : State :=
  if s.aon.overcast || s.aon.por then s
  else
    let s := { s with aon := { s.aon with overcast := true, overcastStage := 1 }, hour := { s.hour with overcast := true } }
    let s := if s.hasGroup .east then (s.stopG .east 4).stopG .west 4 else s
    let s := (s.keepWord 7 0).keepWord 8 0
    { s with lin := { s.lin with
        wakeDue := s.lin.wakeDue || (bit s.lin.cfg 1 && s.lin.sleep), wakes := 0, blocks := 0 } }

/-- The last step: MODE_STATE 7, and what the shell does at entry (R346, R488, R604, R606, R654, R689, R700). -/
def State.overcastShell (s : State) : State :=
  let s := if s.variant == .A then (s.linkOvercast .east).linkOvercast .west else s
  let s := s.epochDiscard.sessionDefault.freeLocks
  let s := if s.tabs.switching then
    { s with tabs := { s.tabs with switching := false, newChg := none, newFreq := none } }.set Obj.TABLE_SWITCH
      (4 * 2 ^ 24 + s.obj Obj.TABLE_SWITCH % 1024) else s
  let s := { s with seqs := s.seqs.map fun (q : Seq) => { q with stopped := true } }
  let s := (List.range 5).foldl (fun s i => s.set (Obj.SEQ_MODE i) 3) s
  let s := { s with mode := { s.mode with park := 0 } }
  (s.set Obj.MODE_TARGET s.resolved).commitStart

/-- nFAILOVER goes low for a width in µs; a pulse that runs already stays low to the later end (R533, R573). -/
def State.failover (s : State) (w : Nat) : State :=
  { s with wd := { s.wd with pulse := 1, pulseEnd := max s.wd.pulseEnd (s.now + us w) } }

/-- One step of the shutdown (R532). -/
def State.overcastStep (s : State) : State :=
  match s.aon.overcastStage with
  | 1 => { ((s.stopG .input 4) : State) with
      core := { s.core with disc := false, precharge := false }, aon := { s.aon with overcastStage := 2 } }
  | 2 => { (s.stopG .pack 4) with aon := { s.aon with overcastStage := 3 } }
  | 3 =>
    let s := { s.failover (s.wd.width.getD 1000) with
      aon := { s.aon with overcastStage := 4 }
      chg := { s.chg with sel := 0, scan := 0 }
      col := { s.col with haloRun := false, haloLevel := false } }
    (s.set Obj.HALO_STATE 4).set Obj.BAL_STATE 0
  | 4 =>
    let s := { s with aon := { s.aon with overcastStage := 5 } }
    let s := s.setMode 7 0x0C
    let s := if 8 ≤ s.obj Obj.BRINGUP_STEP then s.set Obj.BRINGUP_STEP 0 else s
    if s.shellUp then s.overcastShell else s
  | _ => s

end Sys2Proof.Machine
end

