-- ==== Sys2Proof/Machine/FaultOps.lean ====
section
/-!
DEFINITION. FaultOps.lean: the catalogue and the reaction table (R506-R508, R522-R525), the squall recorder's captures (R428-R436),
trouble-code memory (R668-R673), and the records (R509-R512, R520, R526).
-/
namespace Sys2Proof.Machine

/-! ### The catalogue -/

/-- The class of kinds 1, 2, … of a source; 9 where the catalogue defines none. -/
def catalogue : Nat → List Nat
  | 1 => [1, 2, 2, 2, 3, 2, 3, 4, 2, 1, 0, 2]
  | 2 => [2, 3, 2, 1, 1, 2, 3, 1, 1]
  | 3 => [2, 3, 2, 1, 1, 2, 3, 1, 1]
  | 4 => [2, 3, 2, 1, 1, 2, 3, 1, 1]
  | 5 => [2, 3, 2, 1, 1, 2, 3, 1, 1]
  | 6 => [1, 2, 2, 0, 1, 1, 2, 1, 2, 2, 3]
  | 7 => [2, 2, 2, 2, 3, 0]
  | 8 => [3, 2, 1, 2, 2, 1, 2, 1]
  | 9 => [2, 3, 3, 1, 1, 2, 9, 2, 0, 1, 0]
  | 10 => [1, 3, 2, 1, 1, 3, 4]
  | 11 => [1, 2, 1, 1, 2, 0]
  | 12 => [3, 3, 3, 3, 3, 3]
  | 13 => [2, 2, 1, 0, 2]
  | 14 => [1, 2, 0, 1, 2, 2, 1, 1, 1, 0, 1, 2]
  | 15 => [1, 1, 2, 2, 1, 1, 2, 1, 2, 2, 1, 2, 0]
  | 16 => [1, 1, 2, 2, 1, 1, 2, 1, 2, 2, 1, 2, 0]
  | 17 => [1, 2, 1, 1]
  | 18 => [1, 2, 1, 1]
  | 19 => [1, 1, 2]
  | 20 => [1, 1, 2, 0]
  | 21 => [2, 2, 1, 3]
  | 22 => [0, 3, 3]
  | 23 => [2, 2, 1, 0, 2, 3]
  | 24 => [2, 2, 3, 2]
  | 25 => [1, 0, 1, 2, 1, 1, 3, 0]
  | 26 => [1, 3, 2, 3]
  | 27 => [3, 1, 2, 1]
  | _ => []

/-- The catalogue class of a kind, where the catalogue defines it. -/
def classOf (src kind : Nat) : Option Nat :=
  if kind = 0 then none
  else match (catalogue src)[kind - 1]? with
    | some c => if c = 9 then none else some c
    | none => none

/-- The condition kinds: their rules state when they clear, release, requalify or end (R502). -/
def conditionKinds : Nat → List Nat
  | 1 => [1, 2, 3, 4, 5, 6, 7, 9]
  | 2 => [2, 3, 7]
  | 3 => [2, 3, 7]
  | 4 => [2, 3, 7]
  | 5 => [2, 3, 7]
  | 7 => [4, 6]
  | 8 => [2, 4, 5]
  | 9 => [2, 6]
  | 10 => [1, 6]
  | 13 => [1, 2]
  | 14 => [2]
  | 15 => [8, 9, 10]
  | 16 => [8, 9, 10]
  | 17 => [1, 2]
  | 18 => [1, 2]
  | 19 => [3]
  | 21 => [4]
  | 23 => [6]
  | 24 => [3]
  | 26 => [1, 2, 3, 4]
  | _ => []

def isCondition (src kind : Nat) : Bool := (conditionKinds src).contains kind

/-- Sources with a block reset (R507). -/
def hasBlockReset (src : Nat) : Bool := [2, 3, 4, 5, 9, 11, 14, 15, 16, 17, 18, 19, 20, 23, 25, 27].contains src

/-! ### The reaction table (R522, R524) -/

/-- Entry `i` of a FAULT body: SOURCE, KIND, CLASS, REACT. -/
def faultEntry (b : List Byte) (i : Nat) : Nat × Nat × Nat × Nat :=
  (byteAt b (8 + 4 * i), byteAt b (9 + 4 * i), byteAt b (10 + 4 * i), byteAt b (11 + 4 * i))

/-- Default reactions of a class under a FAULT body (R506, R522). -/
def defaultReact (body : Option (List Byte)) (c : Nat) : Nat :=
  match body with
  | some b => byteAt b (2 + c)
  | none => [0, 1, 1, 3, 1].getD c 0

/-- Class and reactions of a kind under a FAULT body. One that the catalogue does not define is C2 with IRQ only (R504). -/
def reactionBy (body : Option (List Byte)) (src kind : Nat) : Nat × Nat :=
  match classOf src kind with
  | none => (2, 1)
  | some c =>
    match body with
    | none => (c, defaultReact none c)
    | some b =>
      match ((List.range (leAt b 0 2)).map (faultEntry b)).find? fun e => e.1 == src && e.2.1 == kind with
      | some (_, _, cl, r) => (cl, r)
      | none => (c, defaultReact body c)

/-- The same under the active bank. -/
def State.reactionOf (s : State) (src kind : Nat) : Nat × Nat := reactionBy (s.body 9) src kind

def msgWord (m : Msg) : Nat := m.src * 2 ^ 24 + m.kind * 2 ^ 16 + m.inst % 65536

/-! ### Captures (R428-R434) -/

/-- The trigger enables of REC_CFG that a message answers to. REQUEST triggers at its write. -/
def recTrigger (cfg : Nat) (m : Msg) (cls : Nat) : Bool :=
  (bit cfg 0 && m.src == 6 && m.kind == 4) || (bit cfg 1 && m.src == 6 && m.kind == 5) ||
    (bit cfg 2 && 2 ≤ cls && !(m.src == 9 && 8 ≤ m.kind && m.kind ≤ 10)) ||
    (bit cfg 3 && 1 ≤ cls && (m.src == 15 || m.src == 16))

/-- µs between two REC_TIMEs. -/
def usBetween (a b : Nat) : Nat := (b - a) / 200

/-- Bytes of a capture. -/
def Capture.size (c : Capture) : Nat := 64 + (c.scans.map fun r => 8 + 4 * r.words.length).foldl (· + ·) 0 + 8 * c.events.length

/-- The header of R434 without its CRC. -/
def Capture.header (c : Capture) : List Byte :=
  [0x4D#8, 0x4C#8, 0x53#8, 0x51#8] ++ leBytes 1 1 ++ leBytes 1 c.flags ++ leBytes 2 64 ++ leBytes 4 c.no ++ leBytes 8 c.t0 ++
    leBytes 4 c.pre ++ leBytes 4 c.post ++ leBytes 4 ((c.scans.map fun r => 8 + 4 * r.words.length).foldl (· + ·) 0) ++
    leBytes 4 c.events.length ++ leBytes 2 c.ntrig ++ leBytes 2 0 ++
    (List.range 4).flatMap (fun i => leBytes 4 (c.trigs.getD i 0)) ++ leBytes 1 c.mode ++ leBytes 1 c.src ++ leBytes 1 c.zone ++
    leBytes 1 c.band

/-- A capture as REC_DATA gives it (R433). -/
def Capture.bytes (c : Capture) : List Byte :=
  let recs := c.scans.flatMap (fun r => leBytes 4 (r.words.length * 2 ^ 24 + r.count % 2 ^ 24) ++ leBytes 4 (r.time % 2 ^ 32) ++
    r.words.flatMap fun w => leBytes 4 w) ++ c.events.flatMap fun e => leBytes 8 e.2
  c.header ++ leBytes 4 (crc32 (c.header ++ recs)) ++ recs

/-- The archive takes a capture: the oldest without KEEP make room (R433). -/
def makeRoom (room : Nat) : Nat → List Capture → Nat → List Capture
  | 0, l, _ => l
  | fuel + 1, l, size =>
    let used := (l.map Capture.size).foldl (· + ·) 0
    if l.length < 256 && used + size ≤ room then l
    else match (l.reverse.findIdx? fun c => !bit c.flags 3) with
      | some i => makeRoom room fuel (l.reverse.eraseIdx i).reverse size
      | none => l

/-- Data bytes of the archive region; at least one sector. -/
def State.archiveBytes (s : State) : Nat := max 1 (s.inService 5) * sectorData

/-- R721's limit on archive wear, with the mean ERASE_COUNT as the bytes written over the region. -/
def State.archiveBudget (s : State) (size : Nat) : Bool :=
  (s.flash.archived + size) / s.archiveBytes * 131490 * 3600 * 10 ≤
    8 * s.obj Obj.FLASH_ENDURANCE * s.obj Obj.HZ_OP_TIME + 1000 * 131490 * 3600 * 10

/-- The closing capture goes to the archive, or is discarded on a write failure (R432, R721). -/
def State.closeCapture (s : State) (ok : Bool) : State :=
  match s.ring.closing with
  | none => s
  | some c =>
    let s := { s with ring := { s.ring with closing := none } }.set Obj.REC_STATE (if s.ring.open_.isSome then 2 else 1)
    if !s.flashOk || !ok then s.raise 9 8 c.no
    else if !s.archiveBudget c.size then s.count Obj.REC_SUPPRESSED_CNT 0xFFFFFFFF
    else
      let l := c :: makeRoom s.archiveBytes 257 s.archive c.size
      ({ s with archive := l.take 256, flash := { s.flash with archived := s.flash.archived + c.size } }.put Obj.REC_COUNT
        (min 256 l.length)).wearObjs

/-- The record of a window that ends: scans and events from T0 - 500 ms on (R429). -/
def State.closeWindow (s : State) (trunc : Bool) : State :=
  match s.ring.open_ with
  | none => s
  | some c =>
    let s := if s.ring.closing.isSome then s.closeCapture true else s
    let from_ := c.t0 - ms 500
    let c := { c with
      flags := setBit c.flags 0 (bit c.flags 0 || trunc)
      post := usBetween c.t0 (min s.recTime (c.t0 + ms 1500))
      scans := (s.ring.scans.filter fun r => from_ ≤ r.time && r.time < c.t0 + ms 1500).reverse
      events := (s.ring.events.filter fun e => from_ ≤ e.1 && e.1 < c.t0 + ms 1500).reverse }
    let n := s.ring.lost
    let s := { s with ring := { s.ring with open_ := none, closing := some c, lost := 0 } }.set Obj.REC_STATE 3
    if n = 0 then s else s.raise 9 0x0A n

/-- A capture starts with T0 at `t` (R429). -/
def State.captureStart (s : State) (t : Stamp) (word : Nat) (late : Bool) : State :=
  let from_ := t.time - ms 500
  let short := from_ < s.ring.since
  let n := (s.obj Obj.REC_TOTAL + 1) % 2 ^ 32
  let c : Capture := {
    no := n, t0 := t.time, flags := 2 * b2n late + 16 * b2n short, trigs := [word], ntrig := 1, mode := t.mode,
    src := t.src, zone := t.zone, band := t.band
    pre := usBetween (max from_ s.ring.since) t.time }
  let s := { s with ring := { s.ring with
    open_ := some c, late := if late then some n else s.ring.late
    starts := s.recTime :: (s.ring.starts.filter fun t => s.recTime < t + sec 3600) } }
  ((s.set Obj.REC_STATE 2).put Obj.REC_TOTAL n).set Obj.REC_STATE 2

/-- The comparator whose event is the T0 of a message's trigger, 0 where none is (R428). -/
def Msg.comparator (m : Msg) : Nat :=
  if m.src = 6 ∧ m.kind = 4 then 1 else if m.src = 6 ∧ m.kind = 5 then 2
  else if (m.src = 15 ∨ m.src = 16) ∧ m.kind = 1 then m.src - 5 else 0

/-- T0 of a message's trigger: its own instant where it waited through a Stratus, the comparator's event for a drop, a load dump and a
pulled cable, else the arrival (R428, R436). -/
def State.instantOf (s : State) (m : Msg) : Stamp :=
  match m.stamp with
  | some t => t
  | none => ((s.ring.marks.find? fun e => e.1 == m.comparator).map (·.2)).getD s.stamp

/-- A trigger joins a capture's list (R430). -/
def Capture.join (c : Capture) (word : Nat) : Capture :=
  { c with ntrig := satInc 65535 c.ntrig, trigs := if c.trigs.length < 4 then c.trigs ++ [word] else c.trigs }

/-- A later message of a handover's backlog joins the capture that the first one started, closed or not (R436). -/
def State.joinLate (s : State) (n word : Nat) : State :=
  let f := fun (c : Capture) => if c.no = n then c.join word else c
  { s with ring := { s.ring with closing := s.ring.closing.map f }, archive := s.archive.map f }

/-- A trigger: joins the open window's list, or starts a capture, or is suppressed (R430, R431). In Overcast nothing starts but the capture of
the C4 fault that set the latch (R435). -/
def State.capture (s : State) (m : Msg) (cls : Nat) : State :=
  let word := msgWord m
  let late := m.stamp.isSome
  match s.ring.open_, if late then s.ring.late else none with
  | some c, _ => { s with ring := { s.ring with open_ := some (c.join word) } }
  | none, some n => s.joinLate n word
  | none, none =>
    let hour := s.ring.starts.filter fun t => s.recTime < t + sec 3600
    if !s.recording || (s.aon.overcast && (cls != 4 || s.aon.overcastStage == 5)) then s
    else if s.obj Obj.REC_MAX_HOUR ≤ hour.length then
      let s := s.count Obj.REC_SUPPRESSED_CNT 0xFFFFFFFF
      let s := { s with ring := { s.ring with sup := s.recTime :: (s.ring.sup.filter fun t => s.recTime < t + sec 3600) } }
      if s.ring.supAt.elim true fun t => t + sec 3600 ≤ s.recTime then
        { s with ring := { s.ring with supAt := some s.recTime } }.raise 9 9 (min 65535 s.ring.sup.length)
      else s
    else
      let t := s.instantOf m
      let s := s.captureStart t word late
      if late && t.time + ms 1500 ≤ s.recTime then s.closeWindow false else s

/-! ### Trouble-code memory (R668-R673) -/

/-- A snapshot (R670). -/
def State.snapshot (s : State) : List Byte :=
  leBytes 1 s.modeNow ++ leBytes 1 (s.obj Obj.SRC_TYPE) ++ leBytes 2 (s.obj Obj.PACK_SOC) ++ leBytes 2 (s.obj Obj.TEMP_MAX) ++
    leBytes 4 (s.obj Obj.HZ_OP_TIME) ++ leBytes 4 (s.obj Obj.FAULT_LAST)

/-- DTC_COUNT follows. -/
def State.setDtcs (s : State) (l : List Dtc) : State :=
  let s := { s with uds := { s.uds with dtcs := l } }
  if s.obj Obj.DTC_COUNT = l.length then s else s.put Obj.DTC_COUNT l.length

/-- The slot a new DTC may take in a full memory: testFailed 0, lowest class, raised longest ago; else a lower class (R670). -/
def dtcVictim (l : List Dtc) (cls : Nat) : Option Dtc :=
  let free := l.filter fun d => !bit d.status 0
  let cand := if free.isEmpty then l.filter fun d => decide (d.cls < cls) else free
  cand.foldl (fun v d => match v with
    | none => some d
    | some x => if d.cls < x.cls || (d.cls == x.cls && d.last < x.last) then some d else some x) none

/-- A RAISE in trouble-code memory. -/
def State.dtcRaise (s : State) (m : Msg) (cls : Nat) : State :=
  if s.obj Obj.DTC_SETTING = 0 then s
  else
    let code := m.src * 256 + m.kind
    let t := s.obj Obj.HZ_OP_TIME
    let mk := fun (d : Dtc) =>
      let conf := 2 ≤ cls || d.prev || bit d.status 3
      { d with
        status := setBit (setBit (setBit (setBit (setBit d.status 0 true) 1 true) 2 true) 5 true) 3 conf
        count := satInc 255 d.count, cls := cls, cycles := 0, quiet := 0, last := t, snap2 := s.snapshot, now := true }
    let fresh : Dtc := mk { code := code, first := t, snap1 := s.snapshot }
    if s.uds.dtcs.any fun d => d.code == code then
      s.setDtcs (s.uds.dtcs.map fun (d : Dtc) => if d.code = code then mk d else d)
    else if s.uds.dtcs.length < 256 then s.setDtcs (s.uds.dtcs ++ [fresh])
    else match dtcVictim s.uds.dtcs cls with
      | some v => s.setDtcs ((s.uds.dtcs.filter fun d => d.code != v.code) ++ [fresh])
      | none => s.set Obj.DTC_STATE 256

/-- A CLEAR in trouble-code memory. -/
def State.dtcClear (s : State) (m : Msg) : State :=
  if s.obj Obj.DTC_SETTING = 0 then s
  else s.setDtcs (s.uds.dtcs.map fun (d : Dtc) =>
    if d.code = m.src * 256 + m.kind then { d with status := setBit d.status 0 false } else d)

/-- A new operation cycle (R669, R670). -/
def State.dtcCycle (s : State) : State :=
  let next := fun (d : Dtc) =>
    let st := setBit d.status 1 false
    let st := if isCondition (d.code / 256) (d.code % 256) then st else setBit st 0 false
    { d with
      status := if d.now then st else setBit st 2 false, prev := d.now, now := false
      cycles := if d.now then d.cycles else satInc 255 d.cycles
      quiet := if d.now || d.failed then d.quiet else satInc 255 d.quiet, failed := bit st 0 }
  let l := s.uds.dtcs.map next
  s.setDtcs (l.filter fun d => bit d.status 0 || d.quiet < s.obj Obj.DTC_LAPSE)

/-! ### Records (R509-R512, R520) -/

def State.rec? (s : State) (slot : Nat) : Option FaultRec := (s.recs.find? fun e => e.1 == slot).map (·.2)
def State.putRec (s : State) (slot : Nat) (r : FaultRec) : State :=
  { s with recs := (s.recs.filter fun e => e.1 != slot) ++ [(slot, r)] }
def State.dropRec (s : State) (slot : Nat) : State := { s with recs := s.recs.filter fun e => e.1 != slot }

def FaultRec.src (r : FaultRec) : Nat := field r.first 31 24
def FaultRec.kind (r : FaultRec) : Nat := field r.first 23 16

/-- Condition messages recorded: an instance stands until its CLEAR. -/
def FaultRec.note (r : FaultRec) (m : Msg) : FaultRec :=
  let k : Msg := { src := m.src, kind := m.kind, inst := m.inst }
  if isCondition m.src m.kind && !r.conds.contains k then { r with conds := r.conds ++ [k] } else r

/-- The slot a new record takes: the lowest free, else by R512. -/
def State.slotFor (s : State) (cls : Nat) : Option Nat :=
  match ((List.range 64).map (· + 1)).find? fun n => (s.rec? n).isNone with
  | some n => some n
  | none =>
    let open_ := s.recs.filter fun (e : Nat × FaultRec) => !e.2.waiting && s.col.handling != some e.1
    let dead := open_.filter fun (e : Nat × FaultRec) => !e.2.active
    let low := dead.foldl (fun c (e : Nat × FaultRec) => min c e.2.cls) 9
    let cand := if dead.isEmpty then open_.filter fun (e : Nat × FaultRec) => decide (e.2.cls < cls)
      else dead.filter fun (e : Nat × FaultRec) => e.2.cls == low
    (cand.foldl (fun (v : Option (Nat × FaultRec)) e => match v with
      | none => some e
      | some x => if e.2.seq < x.2.seq then some e else some x) none).map (·.1)

/-- The next order of acceptance. -/
def State.recSeq (s : State) : Nat := s.recs.foldl (fun n (e : Nat × FaultRec) => max n (e.2.seq + 1)) 1

/-- HALO is to stand: a record's class or reaction, LATCH with an unread one, the mode, direct mode, Overcast (R526). The
value is HALO_STATE. -/
def State.haloState (s : State) : Nat :=
  let c := s.obj Obj.HALO_CFG
  let hit := fun (r : FaultRec) => (field c 2 0 != 5 && field c 2 0 ≤ r.cls) || bit r.react 4
  let stop := s.recs.any fun (e : Nat × FaultRec) => hit e.2 && (e.2.active || (bit c 3 && !e.2.read))
  if s.aon.overcast && 4 ≤ s.aon.overcastStage then 4
  else if s.aon.direct then 3
  else if stop then 1
  else if s.haloMode then 2
  else 0

/-- HALO_STATE follows; a stop drives the output low. -/
def State.haloUpdate (s : State) : State :=
  let n := s.haloState
  let s := if s.obj Obj.HALO_STATE = n then s else s.set Obj.HALO_STATE n
  { s with col := { s.col with haloRun := n == 0, haloLevel := s.col.haloLevel && n == 0 } }

/-- A record as its 32 bytes (R510). -/
def FaultRec.bytes (r : FaultRec) : List Byte :=
  leBytes 4 r.first ++ leBytes 4 r.last ++ leBytes 1 r.cls ++
    leBytes 1 (b2n r.active + 2 * b2n r.merged + 4 * b2n r.waiting + 8 * b2n r.queued + 16 * b2n r.injected + 32 * b2n r.read +
      64 * b2n r.skipped) ++
    leBytes 1 r.react ++ leBytes 1 r.kinds ++ leBytes 4 r.srcs ++ leBytes 8 r.tFirst ++ leBytes 2 r.count ++ leBytes 2 0 ++
    leBytes 4 r.opFirst

/-- Counters of an accepted message (R505). -/
def State.faultCounts (s : State) (m : Msg) (cls : Nat) : State :=
  ((s.count Obj.FAULT_COUNT 0xFFFFFFFF).count (Obj.FAULT_CLASS_COUNT (cls + 1)) 0xFFFFFFFF).set Obj.FAULT_LAST (msgWord m)

/-- The HOUR record's count of faults of class C2 or above (R496). -/
def State.hourFault (s : State) : State := { s with hour := { s.hour with faults := s.hour.faults + 1 } }

/-- A new record or a repeat (R509). The answer is the slot to handle, where there is one; `none` in the slot with
`true` asks for the reactions without a record (R512). -/
def State.makeRecord (s : State) (m : Msg) (cls : Nat) (queued : Bool) : State × Bool :=
  let w := msgWord m
  match s.recs.find? fun (e : Nat × FaultRec) => e.2.src == m.src && e.2.kind == m.kind with
  | some (n, r) =>
    let again := !r.active
    let r := ({ r with count := min 65535 (r.count + 1 + m.more), last := w }).note m
    let r := if again then { r with active := true, waiting := true, seq := s.recSeq, injected := r.injected || m.injected } else r
    (s.putRec n r, false)
  | none =>
    match s.slotFor cls with
    | some n =>
      let r : FaultRec := {
        first := w, last := w, cls := cls, queued := queued, injected := m.injected, kinds := m.kind, srcs := 2 ^ (m.src % 32)
        tFirst := s.recTime, count := min 65535 (1 + m.more), opFirst := s.obj Obj.HZ_OP_TIME, seq := s.recSeq }
      (s.putRec n (r.note m), false)
    | none => ({ s with col := { s.col with recOvf := true } }, true)

/-- A merge into the record whose window is open (R520, R521): the new class, and the reactions still to carry out. -/
def State.mergeRecord (s : State) (n : Nat) (r : FaultRec) (m : Msg) (cls react : Nat) : State × Nat :=
  let r1 := ({ r with
    count := min 65535 (r.count + 1 + m.more), last := msgWord m, kinds := r.kinds ||| m.kind, srcs := r.srcs ||| 2 ^ (m.src % 32), merged := true,
    cls := max r.cls cls }).note m
  (s.putRec n r1, if r.cls < cls then react - (react &&& r.react) else 0)

/-- A CLEAR (R511). -/
def State.clearRecord (s : State) (m : Msg) : State :=
  let k : Msg := { src := m.src, kind := m.kind, inst := m.inst }
  { s with recs := s.recs.map fun (e : Nat × FaultRec) =>
    if e.2.conds.contains k then
      let l := e.2.conds.filter (· != k)
      (e.1, { e.2 with conds := l, active := e.2.active && (!l.isEmpty || e.2.waiting || s.col.handling == some e.1) })
    else e }

/-- A handling window closes: a record of events only becomes inactive (R511). -/
def State.closeHandling (s : State) (n : Nat) : State :=
  match s.rec? n with
  | none => { s with col := { s.col with handling := none, blockReset := none } }
  | some r => { s.putRec n { r with active := !r.conds.isEmpty } with
      col := { s.col with handling := none, blockReset := none } }.haloUpdate

/-! ### Direct mode (R528, R529) -/

/-- The direct-mode latch is set: the open window is abandoned, its record SKIPPED. nIRQ then follows the blocks' own lines,
whose levels the spec leaves open. -/
def State.directEnter (s : State) (why : Nat) : State :=
  if s.aon.direct then s
  else
    let (v, s) := s.draw 1
    { s with
      aon := { s.aon with direct := true, directWhy := why }
      recs := s.recs.map fun (e : Nat × FaultRec) => (e.1, { e.2 with skipped := e.2.skipped || s.col.handling == some e.1 })
      col := { s.col with handling := none, blockReset := none, irq := v == 1 } }.haloUpdate

end Sys2Proof.Machine
end

