-- ==== Sys2Proof/Machine/TableOps.lean ====
section
/-!
DEFINITION. TableOps.lean: table images, their checks and bodies (R677-R682, R199, R272, R413, R414, R450, R495, R523, R661, R696),
the banks and their loading (R683-R686).
-/
namespace Sys2Proof.Machine

/-! ### What Q may write (R595) -/

/-- Keys that need a security level of T (R593): TABLE_SWITCH, TABLE_LOAD, OTP_PROG, OTP_LOCK. -/
def needsLevel (k : Nat) : Bool := [Obj.TABLE_SWITCH, Obj.TABLE_LOAD, Obj.OTP_PROG, Obj.OTP_LOCK].contains k

/-- The sequencers' internal writer may write the object. -/
def qWrites (r : ObjRow) (k : Nat) : Bool :=
  (r.accH.writes || r.accT.writes) && !(0x20 ≤ r.index && r.index ≤ 0x27) && r.index / 256 != 0x0D && !needsLevel k &&
    k != Obj.TRAP_RELEASE

/-- The row of a key that the variant has. -/
def State.row? (s : State) (k : Nat) : Option ObjRow := (Dict.row? k).filter fun r => r.on.has s.variant

/-- Sub-indices of an object, in the variant, from the lowest upward. -/
def State.subs (s : State) (index : Nat) : List Nat :=
  ((Dict.area (index / 256)).filter fun r => r.index == index && r.on.has s.variant).flatMap fun r =>
    (List.range (r.last + 1 - r.first)).map (· + r.first)

/-- The key is the count element of an object whose sub-indices begin at 1 (R581). -/
def State.isCount (s : State) (k : Nat) : Bool := k % 256 == 0 && (s.row? k).isNone && !(s.subs (k / 256)).isEmpty

/-- The type of what a key reads as; none where it is not present. -/
def State.keyType (s : State) (k : Nat) : Option ObjType :=
  match s.row? k with
  | some r => some r.type
  | none => if s.isCount k then some .u8 else none

/-! ### The image (R677, R678) -/

def imgKind (b : List Byte) : Nat := byteAt b 5
def imgFlags (b : List Byte) : Nat := byteAt b 6
def imgId (b : List Byte) : Nat := leAt b 8 4
def imgBodyLen (b : List Byte) : Nat := leAt b 16 4
def imgSeqLen (b : List Byte) : Nat := leAt b 20 4
def imgBody (b : List Byte) : List Byte := slice b 64 (imgBodyLen b)
def imgSection (b : List Byte) : List Byte := slice b (64 + imgBodyLen b) (imgSeqLen b)

/-- The body length of a kind, given the body. -/
def bodyLen (kind : Nat) (body : List Byte) : Nat :=
  match kind with
  | 1 => 8
  | 2 => 352
  | 3 => 128
  | 4 => 176
  | 5 => 128
  | 6 => 68
  | 7 => 32
  | 8 => 8 + 8 * leAt body 0 2
  | 9 => 8 + 4 * leAt body 0 2
  | 10 => 40
  | _ => 0

/-- Sequencers that a kind's section may hold. -/
def kindSeqs : Nat → List Nat
  | 1 => [0, 4]
  | 2 => [1]
  | 7 => [2, 3]
  | _ => []

/-- A kind exists in the variant. -/
def State.kindHere (s : State) (k : Nat) : Bool :=
  1 ≤ k && k ≤ 10 && (k != 7 || s.variant == .A) && (k != 8 || s.variant != .C)

/-- Check 1: magic, version, reserved bits, TABLE_ID, KIND. -/
def headerOk (b : List Byte) : Bool :=
  slice b 0 4 == [0x4D#8, 0x4C#8, 0x54#8, 0x42#8] && byteAt b 4 == 1 && imgFlags b < 4 && byteAt b 7 < 8 && imgId b != 0 &&
    1 ≤ imgKind b && imgKind b ≤ 10 && (slice b 24 36).all (· == 0#8)

/-- Check 2: lengths. -/
def lengthsOk (b : List Byte) : Bool :=
  leAt b 12 4 == b.length && b.length == 64 + imgBodyLen b + imgSeqLen b + (if bit (imgFlags b) 0 then 128 else 0) &&
    imgBodyLen b == bodyLen (imgKind b) (imgBody b) && (bit (imgFlags b) 1 || imgSeqLen b == 0)

/-- Check 3: the CRC. -/
def crcOk (b : List Byte) : Bool := crc32 (slice b 0 60 ++ imgBody b ++ imgSection b) == leAt b 60 4

/-- Check 5: the signature policy (R680). -/
def State.signatureOk (s : State) (b : List Byte) : Bool :=
  if bit (imgFlags b) 0 then
    let blk := b.drop (64 + imgBodyLen b + imgSeqLen b)
    match s.keyHash with
    | none => false
    | some h => Config.sha256 (slice blk 0 64) == h &&
        Config.ecdsaValid (slice blk 0 64) (Config.sha256 (slice b 0 64 ++ imgBody b ++ imgSection b)) (slice blk 64 64)
  else s.obj Obj.TABLE_AUTH == 0

/-! ### Body checks -/

def within (lo hi n : Nat) : Bool := decide (lo ≤ n) && decide (n ≤ hi)
def zeros (b : List Byte) (off n : Nat) : Bool := (slice b off n).all (· == 0#8)

/-- Strictly rising. -/
def rising : List Int → Bool
  | a :: b :: r => decide (a < b) && rising (b :: r)
  | _ => true

/-- Not rising. -/
def falling : List Nat → Bool
  | a :: b :: r => decide (b ≤ a) && falling (b :: r)
  | _ => true

/-- R681. Reserved bytes and bits are ignored (R12), here and in each body whose rule does not name them among its refusals. -/
def State.modeBodyOk (s : State) (b : List Byte) : Bool :=
  (List.range 16).all fun k => !bit (leAt b 0 2) k || s.kindHere (k + 1)

/-- One SRC row (R198, R199). -/
def srcRowOk (b : List Byte) (i : Nat) : Bool :=
  let o := 8 + 24 * i
  let w := fun (k : Nat) => leAt b (o + k) 2
  let fl := byteAt b (o + 1)
  byteAt b o == i + 1 && field fl 5 4 != 3 &&
    (i != 4 || !bit fl 0) && (byteAt b (o + 6) ≤ 100 || byteAt b (o + 6) == 255) && within 1 5000 (w 8) && w 10 ≤ 3600 &&
    1 ≤ byteAt b (o + 18) && 1 ≤ byteAt b (o + 19) &&
    120 ≤ w 14 && w 14 < w 16 && w 16 ≤ w 12 && (w 20 == 0 || (w 16 < w 22 && w 22 < w 20 && w 20 ≤ 1200)) &&
    (!bit fl 0 || (w 16 ≤ w 2 && w 2 < w 4 && (w 20 == 0 || w 4 < w 22)))

def srcBodyOk (b : List Byte) : Bool :=
  byteAt b 0 == 5 && within 2 32 (byteAt b 1) && within 5 500 (leAt b 2 2) && within 10 3600 (leAt b 4 2) &&
    (List.range 5).all fun i => srcRowOk b i

def cellV (v : Nat) : Bool := within 2000 4200 v

/-- One zone record of a CHG body (R271, R272). -/
def chgZoneOk (b : List Byte) (z : Nat) : Bool :=
  let o := 64 + 48 * z
  let w := fun (k : Nat) => leAt b (o + k) 2
  let n := byteAt b (o + 1)
  let i := fun (k : Nat) => w (4 + 4 * k)
  let e := fun (k : Nat) => w (6 + 4 * k)
  n ≤ 8 && w 2 ≤ 1200 && cellV (w 36) && (List.range n).all (fun k => cellV (e k)) &&
    w 40 ≤ 600 && within 10 1440 (w 42) &&
    (!bit (byteAt b o) 0 ||
      (z != 0 && z != 5 && 1 ≤ n && (List.range n).all (fun k => within 1 1200 (i k)) &&
        (List.range 8).all (fun k => k < n || (i k == 0 && e k == 0)) &&
        (List.range (n - 1)).all (fun k => e k ≤ e (k + 1)) && e (n - 1) ≤ w 36 &&
        leAt b 18 2 < leAt b 20 2 && leAt b 20 2 < w 36 && w 36 + 20 ≤ leAt b 16 2 && w 38 < i (n - 1)))

def State.chgBodyOk (s : State) (b : List Byte) : Bool :=
  let taps := if s.variant == .C then 8 else 16
  let w := fun (k : Nat) => leAt b k 2
  let ocv := (List.range 11).map fun k => w (42 + 2 * k)
  let bounds := (List.range 5).map fun k => sAt b (4 + 2 * k)
  4 ≤ byteAt b 0 && byteAt b 0 ≤ byteAt b 1 && byteAt b 1 ≤ taps && field (byteAt b 3) 3 0 != 0 &&
    [1, 2, 255].contains (byteAt b 2) && rising bounds && bounds.all (fun t => decide (-400 ≤ t) && decide (t ≤ 1250)) &&
    within 5 50 (byteAt b 14) &&
    [16, 18, 20, 38].all (fun k => cellV (w k)) && ocv.all cellV &&
    rising (ocv.map Int.ofNat) && w 18 ≤ w 42 && w 62 < w 16 &&
    within 1 1200 (w 22) && within 1 600 (w 24) && byteAt b 26 ≤ 200 && byteAt b 27 < byteAt b 26 && within 2 100 (byteAt b 28) &&
    5 ≤ byteAt b 29 && 1 ≤ w 30 && 10 ≤ w 34 && within 2000 6000 (w 36) && 2 ≤ byteAt b 40 && 1 ≤ byteAt b 41 &&
    (List.range 6).all fun z => chgZoneOk b z

/-- An EDGE word: no reserved bit, BLANK accepted (R181). -/
def edgeOk (w : Nat) : Bool := field w 31 22 == 0 && 4 ≤ field w 21 16

/-- R450. -/
def bandBodyOk (b : List Byte) : Bool :=
  let l := (List.range 4).map fun k => sAt b (2 * k)
  rising l && l.all (fun t => decide (-400 ≤ t) && decide (t ≤ 1500)) && within 10 100 (byteAt b 8) && within 5 50 (byteAt b 9) &&
    (List.range 5).all fun r =>
      let o := 16 + 32 * r
      !bit (byteAt b o) 0 || (List.range 4).all fun g => edgeOk (leAt b (o + 4 + 4 * g) 4)

/-- Four knots and four factors of a derating curve. -/
def curveOk (b : List Byte) (t f : Nat) : Bool :=
  let fs := (List.range 4).map fun k => byteAt b (f + k)
  rising ((List.range 4).map fun k => sAt b (t + 2 * k)) && falling fs && fs.all (· ≤ 200)

/-- R495. -/
def derBodyOk (b : List Byte) : Bool :=
  (List.range 4).all (fun g => curveOk b (16 * g) (16 * g + 8)) && curveOk b 64 72 && within 4 63 (byteAt b 76) &&
    within 10 100 (byteAt b 77) && sAt b 78 < sAt b 80 && within 10 100 (byteAt b 82) && zeros b 83 13 && byteAt b 96 < 4 &&
    within 4 16 (byteAt b 97) && within 100 20000 (leAt b 98 2) && 110 ≤ byteAt b 100 && within 50 95 (byteAt b 101) &&
    110 ≤ byteAt b 102 && within 50 95 (byteAt b 103) && 110 ≤ byteAt b 104 && 110 ≤ byteAt b 105 && within 60 95 (byteAt b 106) &&
    within 20 100 (byteAt b 107) && (List.range 9).all (fun k => within 50 100 (byteAt b (108 + k))) && zeros b 117 11

/-- R682. -/
def freqBodyOk (b : List Byte) : Bool :=
  byteAt b 0 ≤ 16 && (List.range 16).all fun k =>
    let w := leAt b (4 + 4 * k) 4
    if k < byteAt b 0 then
      field w 1 0 != 0 && 1 ≤ field w 31 20 && field w 31 20 ≤ field w 19 8
    else w == 0

/-- R661. -/
def State.udsBodyOk (s : State) (b : List Byte) : Bool :=
  let n := leAt b 0 2
  let did := fun (k : Nat) => leAt b (8 + 8 * k) 2
  n ≤ 256 && zeros b 2 6 && rising ((List.range n).map fun k => (did k : Int)) && (List.range n).all fun k =>
    let o := 8 + 8 * k
    let key := (leAt b (o + 2) 2 % 4096) * 256 + byteAt b (o + 4)
    let fl := byteAt b (o + 5)
    !(within 0x4000 0x4FFF (did k)) && did k < 0xF000 && leAt b (o + 2) 2 < 4096 && field fl 7 4 == 0 && field fl 3 2 != 3 &&
      zeros b (o + 6) 2 && (s.keyType key).isSome && (!bit fl 1 || (s.row? key).elim false (·.accT.writes))

/-- R523. -/
def faultBodyOk (b : List Byte) : Bool :=
  let n := leAt b 0 2
  n ≤ 512 && byteAt b 7 == 0 && (List.range 5).all (fun c => field (byteAt b (2 + c)) 7 5 == 0 && !bit (byteAt b (2 + c)) 2) &&
    rising ((List.range n).map fun i => ((faultEntry b i).1 * 256 + (faultEntry b i).2.1 : Int)) &&
    (List.range n).all fun i =>
      let (src, kind, cls, react) := faultEntry b i
      (classOf src kind).elim false (fun c => c ≤ cls && cls ≤ 4) && field react 7 5 == 0 && (!bit react 2 || hasBlockReset src) &&
        (2 ≤ cls || !bit react 3)

/-- A SCAN_INT value (R409, R414). -/
def State.scanIntOk (s : State) (v : Nat) : Bool :=
  field v 31 30 != 3 && within 1 1600 (field v 15 0) && (field v 31 30 == 0 || field v 27 16 != 0) &&
    ((Group.ofNum? (field v 29 28)).elim false s.hasGroup)

/-- A PARK_SCAN value (R413): times in 2.5 µs units would do; here in µs times 2. -/
def parkScanOk (v : Nat) : Bool :=
  let n := field v 27 24
  within 1 4 n && within 1 100 (field v 23 16) && within 1 160 (field v 15 0) &&
    n * (700 + 16 * (40 + 125 * field v 15 0)) + (n - 1) * 2000 * field v 23 16 ≤ 400000

/-- R414. -/
def State.scanBodyOk (s : State) (b : List Byte) : Bool :=
  (List.range 4).all (fun m => s.scanIntOk (leAt b (8 * m + 4) 4)) && parkScanOk (leAt b 32 4)

/-- Check 6: R679 names no body check for LINK. -/
def State.bodyOk (s : State) (kind : Nat) (b : List Byte) : Bool :=
  match kind with
  | 1 => s.modeBodyOk b
  | 2 => s.chgBodyOk b
  | 3 => srcBodyOk b
  | 4 => bandBodyOk b
  | 5 => derBodyOk b
  | 6 => freqBodyOk b
  | 7 => true
  | 8 => s.udsBodyOk b
  | 9 => faultBodyOk b
  | 10 => s.scanBodyOk b
  | _ => false

/-! ### The sequencer section (R695, R696) -/

def blkStates (b : List Byte) : Nat := byteAt b 1
def blkTrans (b : List Byte) : Nat := leAt b 4 2
def blkActs (b : List Byte) : Nat := leAt b 6 2
def blkPreds (b : List Byte) : Nat := leAt b 8 2
def blkLen (b : List Byte) : Nat := 12 + 8 * (blkStates b + blkTrans b + blkActs b + blkPreds b)
def blkState (b : List Byte) (i : Nat) : List Byte := slice b (12 + 8 * i) 8
def blkTran (b : List Byte) (i : Nat) : List Byte := slice b (12 + 8 * (blkStates b + i)) 8
def blkAct (b : List Byte) (i : Nat) : List Byte := slice b (12 + 8 * (blkStates b + blkTrans b + i)) 8
def blkPred (b : List Byte) (i : Nat) : List Byte := slice b (12 + 8 * (blkStates b + blkTrans b + blkActs b + i)) 8

/-- The object key that an action or a predicate names. -/
def recKey (r : List Byte) : Nat := (leAt r 0 2 % 4096) * 256 + byteAt r 2

/-- The blocks of a section, in order. -/
def sectionBlocks (sec : List Byte) : List (List Byte) :=
  if sec.isEmpty then []
  else
    let a := slice sec 4 (blkLen (sec.drop 4))
    if byteAt sec 0 = 2 then [a, sec.drop (4 + a.length)] else [a]

/-- The objects that a block names: predicates that read one, and actions. -/
def blkKeys (b : List Byte) : List Nat :=
  (((List.range (blkPreds b)).map (blkPred b)).filter fun r => byteAt r 3 != 9).map recKey ++
    ((List.range (blkActs b)).map (blkAct b)).map recKey

/-- Types that a sequencer can handle. -/
def seqType (t : ObjType) : Bool := t != .u64 && t != .str && t != .domain

/-- R696 for one block. -/
def State.blockOk (s : State) (kind : Nat) (b : List Byte) : Bool :=
  let ns := blkStates b
  b.length == blkLen b && (kindSeqs kind).contains (byteAt b 0) && within 1 64 ns && byteAt b 2 < ns && byteAt b 3 < ns &&
    blkTrans b ≤ 512 && blkActs b ≤ 512 && blkPreds b ≤ 256 && within 1 100 (byteAt b 10) && byteAt b 11 == 0 &&
    (List.range ns).all (fun i =>
      let r := blkState b i
      byteAt r 2 ≤ 16 && byteAt r 5 ≤ 16 && byteAt r 6 < 2 && byteAt r 7 == 0 && leAt r 0 2 + byteAt r 2 ≤ blkTrans b &&
        leAt r 3 2 + byteAt r 5 ≤ blkActs b) &&
    (List.range (blkTrans b)).all (fun i =>
      let r := blkTran b i
      let p := fun (v : Nat) => v == 0xFFFF || v < blkPreds b
      p (leAt r 0 2) && p (leAt r 2 2) && byteAt r 4 < ns && byteAt r 5 < 4 && zeros r 6 2) &&
    (List.range (blkActs b)).all (fun i =>
      let r := blkAct b i
      leAt r 0 2 < 4096 && (byteAt r 3 == 0 || s.variant == .A) &&
        (s.row? (recKey r)).elim false fun o => seqType o.type && qWrites o (recKey r)) &&
    (List.range (blkPreds b)).all (fun i =>
      let r := blkPred b i
      leAt r 0 2 < 4096 && byteAt r 3 ≤ 9 && (byteAt r 3 == 9 || (s.keyType (recKey r)).elim false seqType))

/-- Check 8. -/
def State.sectionOk (s : State) (kind : Nat) (sec : List Byte) : Bool :=
  let l := sectionBlocks sec
  within 1 2 (byteAt sec 0) && zeros sec 1 3 && l.all (fun b => s.blockOk kind b) &&
    4 + (l.map List.length).foldl (· + ·) 0 == sec.length &&
    (l.length != 2 || byteAt (l.getD 0 []) 0 != byteAt (l.getD 1 []) 0)

/-! ### The checks in order (R679) -/

/-- The room an image has in a bank beside the images of other kinds. -/
def bankRoom (x : Bank) (kind : Nat) : Nat :=
  524032 - ((x.images.filter fun e => e.1 != kind).map fun (e : Nat × List Byte) => e.2.length).foldl (· + ·) 0

/-- The reason of the first check that fails; 0xFF for the signature check, none where all pass. `into` is the bank of a download. -/
def State.imageFails (s : State) (b : List Byte) (into : Option Bank) : Option Nat :=
  let k := imgKind b
  let body := imgBody b
  let sec := imgSection b
  if b.length < 64 || !headerOk b then some 1
  else if !lengthsOk b then some 2
  else if !crcOk b then some 3
  else if !(bit (byteAt b 7) (match s.variant with | .A => 0 | .B => 1 | .C => 2)) || !s.kindHere k then some 4
  else if !s.signatureOk b then some 0xFF
  else if !s.bodyOk k body then some 5
  else if !sec.isEmpty && !((sectionBlocks sec).all fun x => (blkKeys x).all fun key => (s.keyType key).isSome) then some 6
  else if bit (imgFlags b) 1 && !s.sectionOk k sec then some 7
  else if into.elim false fun x => bankRoom x k < b.length then some 8
  else if k == 2 && s.obj Obj.RAIL_SETPOINT < s.floorWith s.cells (some body) then some 9
  else none

/-- The store refuses an image: the fault and TABLE_LAST_REFUSAL. -/
def State.refuseImage (s : State) (kind reason : Nat) : State :=
  let s := s.set Obj.TABLE_LAST_REFUSAL (kind * 256 + reason)
  if reason = 0xFF then s.raise 0x15 2 kind else s.raise 0x15 1 (kind * 256 + reason)

/-! ### Banks (R683-R686, R690) -/

/-- The image of a kind in a bank. -/
def Bank.image? (x : Bank) (k : Nat) : Option (List Byte) := (x.images.find? fun e => e.1 == k).map (·.2)

def Bank.without (x : Bank) (k : Nat) : Bank := { x with images := x.images.filter fun e => e.1 != k }

/-- Images stand by rising kind. -/
def Bank.with (x : Bank) (k : Nat) (b : List Byte) : Bank :=
  { x with images := (x.images.filter fun e => e.1 < k) ++ [(k, b)] ++ x.images.filter fun e => k < e.1 }

/-- A kind named in the MODE image's REQUIRED mask is held (R684). -/
def Bank.usable (x : Bank) : Bool :=
  !x.images.isEmpty &&
    match x.image? 1 with
    | none => true
    | some m => (List.range 10).all fun k => !bit (leAt (imgBody m) 0 2) k || (x.image? (k + 1)).isSome

/-- The active bank's number, 0 for none; the inactive one (R690). -/
def State.activeBank (s : State) : Nat := s.obj Obj.TABLE_ACTIVE
def State.idleBank (s : State) : Nat := if s.activeBank = 1 then 2 else 1

/-- TABLE_ID_INACTIVE follows. -/
def State.idleIds (s : State) : State :=
  (List.range 10).foldl (fun s k =>
    if s.kindHere (k + 1) then
      s.set (Obj.TABLE_ID_INACTIVE (k + 1)) ((((s.bank s.idleBank).image? (k + 1)).map imgId).getD 0)
    else s) s

/-- A kind runs on an image, or on its ROM defaults: body, section and TABLE_ID_ACTIVE. -/
def State.useImage (s : State) (k : Nat) (img : Option (List Byte)) : State :=
  let out := fun (l : List (Nat × List Byte)) => l.filter fun e => e.1 != k
  match img with
  | none =>
    ({ s with tabs := { s.tabs with active := out s.tabs.active, sections := out s.tabs.sections } }).set
      (Obj.TABLE_ID_ACTIVE k) 0
  | some b =>
    let sec := if bit (imgFlags b) 1 then [(k, imgSection b)] else []
    ({ s with tabs := { s.tabs with
        active := out s.tabs.active ++ [(k, imgBody b)], sections := out s.tabs.sections ++ sec } }).set
      (Obj.TABLE_ID_ACTIVE k) (imgId b)

/-- Every kind of the variant runs on a bank's images; bank 0 is none. -/
def State.activate (s : State) (n : Nat) : State :=
  let s := s.set Obj.TABLE_ACTIVE n
  let s := (List.range 10).foldl (fun s k =>
    if s.kindHere (k + 1) then s.useImage (k + 1) (if n = 0 then none else (s.bank n).image? (k + 1)) else s) s
  s.idleIds

/-- A bank is read from flash and checked, image by image. -/
def State.readBank (s : State) (n : Nat) : State :=
  let f := s.bankF n
  f.images.foldl (fun s (e : Nat × List Byte) =>
    match s.imageFails e.2 none with
    | none => s.setBank n ((s.bank n).with e.1 e.2)
    | some r => s.refuseImage e.1 r) (s.setBank n { gen := f.gen })

/-- The bank that becomes active under BOOT1:0 (R685). -/
def State.chooseBank (s : State) (boot : Nat) : Nat :=
  let a := s.tabs.a.usable
  let b := s.tabs.b.usable
  if boot = 0 then 0
  else if boot = 1 then (if a then 1 else if b then 2 else 0)
  else if a && b then (if s.tabs.a.gen < s.tabs.b.gen then 2 else 1)
  else if a then 1 else if b then 2 else 0

/-- The scheduler's settings of the active SCAN image, or without one those of R415. -/
def State.scanSettings (s : State) : List (Nat × Nat) :=
  let b := s.body 10
  let of := fun (k off n : Nat) => (k, b.elim (Dict.default k) fun d => leAt d off n)
  (List.range 4).map (fun m => of (Obj.SCAN_MASK m) (8 * m) 2) ++ (List.range 4).map (fun m => of (Obj.SCAN_INT m) (8 * m + 4) 4) ++
    [(Obj.PARK_SCAN, b.elim (Dict.default Obj.PARK_SCAN) fun d => leAt d 32 4 % 2 ^ 28)]

/-- Both banks are loaded and one made active (R685). With the flash absent no bank loads. -/
def State.loadBanks (s : State) (boot : Nat) : State :=
  let s := if s.flashOk || s.obj Obj.FLASH_STATE == 3 then (s.readBank 1).readBank 2
    else (s.setBank 1 {}).setBank 2 {}
  let n := s.chooseBank boot
  let s := (s.activate n).bankGens
  if n = 0 && boot != 0 then s.raiseC 0x15 4 0 else s

/-- A received image goes into a bank, or is refused, which leaves its kind empty there (R664, R686). The answer is true where
it was accepted; a flash write follows. -/
def State.storeImage (s : State) (n : Nat) (b : List Byte) : Bool × State :=
  let k := imgKind b
  match s.imageFails b (some (s.bank n)) with
  | some r =>
    let s := s.refuseImage (if b.length < 6 then 0 else k) r
    (false, (s.emptyKind n k).idleIds)
  | none =>
    let s := (s.setBank n ((s.bank n).with k b)).idleIds
    (true, if s.flashOk then { s with tabs := { s.tabs with writing := some n } }.flashBusy true else s)

/-- No download, TABLE_LOAD transfer or switch runs. -/
def State.tablesQuiet (s : State) : Bool :=
  s.uds.download.isNone && !s.tabs.switching && s.tabs.writing.isNone && !s.srv.transfers.any fun t => t.key == Obj.TABLE_LOAD

end Sys2Proof.Machine
end

