-- ==== Sys2Proof/Machine/FabricOps.lean ====
section
/-!
DEFINITION. FabricOps.lean: the Hexast fabric's frames, topology, routes, election, assignment and boot (R352-R390).
-/
namespace Sys2Proof.Machine

/-! ### The node itself -/

/-- The CLKM1:0 and BOOT1:0 straps in effect (R553). -/
def State.clkm (s : State) : Nat := field (s.obj Obj.STRAPS) 7 6
def State.boot (s : State) : Nat := field (s.obj Obj.STRAPS) 5 4

/-- The fabric runs: its ports are out of DISABLED (R362, R390). -/
def State.fabOn (s : State) : Bool := s.variant == .A && (s.obj (Obj.PORT_STATE 1) != 0 || s.obj (Obj.PORT_STATE 2) != 0)

def State.nodeId (s : State) : Nat := s.obj Obj.NODE_ID
def State.uid (s : State) : Nat := s.obj Obj.UNIQUE_ID

/-- R368. -/
def State.eligible (s : State) : Bool := s.obj Obj.ZENITH_EN == 1 && s.clkm != 2

def State.fabFlags (s : State) : Nat := b2n s.eligible + 2 * s.obj Obj.FAB_BOOT_SRV

def fabStat (n : Nat) : Nat := Obj.FAB_STATS n
def State.fabTally (s : State) (n : Nat) : State := s.tally (fabStat n) 0xFFFFFFFF

/-- The node's own TOPO record (R366). -/
def State.ownRec (s : State) : TopoRec := {
  uid := s.uid, east := s.obj (Obj.PORT_NBR 1), west := s.obj (Obj.PORT_NBR 2), node := s.nodeId, stored := s.fab.stored
  flags := s.fabFlags, seq := s.fab.topoSeq, gen := s.obj Obj.ASSIGN_GEN }

/-- The record of a UID, the node's own included. -/
def State.topoRec (s : State) (u : Nat) : Option TopoRec := if u = s.uid then some s.ownRec else s.fab.recs.find? fun r => r.uid == u

/-! ### Shape and routes (R367, R373) -/

/-- The node joined to `r` on a side: both ends' records agree on the hop. -/
def State.beside (s : State) (east : Bool) (r : TopoRec) : Option TopoRec :=
  let u := if east then r.east else r.west
  if u = 0 then none else (s.topoRec u).filter fun x => (if east then x.west else x.east) == r.uid

/-- The nodes on one side of this node, by rising distance; the walk ends at this node itself. -/
def State.walk (s : State) (east : Bool) : Nat → TopoRec → List TopoRec
  | 0, _ => []
  | fuel + 1, r =>
    match s.beside east r with
    | none => []
    | some x => if x.uid = s.uid then [] else x :: s.walk east fuel x

def State.side (s : State) (east : Bool) : List TopoRec := s.walk east (s.fab.recs.length + 1) s.ownRec

/-- The fabric is a ring. -/
def State.isRing (s : State) : Bool :=
  let l := s.side true
  match l.getLast? with
  | none => false
  | some x => (s.beside true x).elim false fun y => y.uid == s.uid

/-- The other nodes of the fabric, nearest first, East before West (R369). -/
def State.others (s : State) : List TopoRec :=
  let e := s.side true
  let w := s.side false
  ((List.range (max e.length w.length)).flatMap fun i => (e[i]?).toList ++ (w[i]?).toList).foldl
    (fun l x => if l.any fun y => y.uid == x.uid then l else l ++ [x]) []

def State.nodeCount (s : State) : Nat := s.others.length + 1

/-- 0 single node, 1 chain, 2 ring. -/
def State.topology (s : State) : Nat := if s.others.isEmpty then 0 else if s.isRing then 2 else 1

/-- The port and hops to the first node that satisfies `p`: the nearer side of a ring, East when equal. -/
def State.pathTo (s : State) (p : TopoRec → Bool) : Option (Port × Nat) :=
  match (s.side true).findIdx? p, (s.side false).findIdx? p with
  | some e, some w => if e ≤ w then some (.east, e + 1) else some (.west, w + 1)
  | some e, none => some (.east, e + 1)
  | none, some w => some (.west, w + 1)
  | none, none => none

def State.routeTo (s : State) (node : Nat) : Option (Port × Nat) := if node = 0 then none else s.pathTo fun r => r.node == node

/-- A ROUTE value. -/
def State.routeVal (s : State) (node : Nat) : Nat :=
  if !s.fabOn then 0xFF
  else if node = s.nodeId then 0
  else match s.routeTo node with
    | some (p, h) => 128 * p.num + h % 128
    | none => 0xFF

/-! ### Frames (R357-R361, R373, R374) -/

/-- Priority of a type (R359). -/
def framePrio (type : Nat) : Nat := if type ≤ 3 then 1 else if type = 0x4C then 2 else 3

/-- The header as it stands on the line (R357). -/
def Frame.head (f : Frame) : List Byte :=
  let d := f.node * 4096 + f.obj % 4096
  leBytes 1 (d / 4096) ++ leBytes 1 (d / 16) ++ leBytes 1 (d % 16 * 16) ++ leBytes 1 f.src ++ leBytes 1 f.type ++ leBytes 1 f.seq ++
    leBytes 1 f.hops ++ leBytes 2 f.data.length

/-- The characters of a frame between SOF and EOF: header, payload and CRC-32 (R357, R358). -/
def Frame.line (f : Frame) : List Byte := let b := f.head ++ f.data; b ++ leBytes 4 (crc32 b)

/-- A received frame that passes the checks of R358: LEN, reserved header bits, CRC. -/
def frameOf (b : List Byte) : Option Frame :=
  let n := leAt b 7 2
  if b.length < 13 || 256 < n || b.length != n + 13 || byteAt b 2 % 16 != 0 || crc32 (slice b 0 (n + 9)) != leAt b (n + 9) 4 then none
  else some {
    node := byteAt b 0, obj := byteAt b 1 * 16 + byteAt b 2 / 16, src := byteAt b 3, type := byteAt b 4, seq := byteAt b 5
    hops := byteAt b 6, data := slice b 9 n }

/-- A frame type of R359. -/
def frameType (t : Nat) : Bool := [1, 2, 3, 0x10, 0x11, 0x12, 0x13, 0x18, 0x20, 0x21, 0x4C].contains t

/-- Out of a port that is UP. -/
def State.fabOut (s : State) (p : Port) (f : Frame) : State := if s.portUp p then s.fabQueue p (framePrio f.type) f else s

/-- The node's own broadcast: both UP ports of a chain, East alone in a ring. -/
def State.fabBroadcast (s : State) (f : Frame) : State :=
  if !s.fabOn then s
  else
    let (f, s) := s.fabSeq f
    if s.isRing then s.fabOut .east f else (s.fabOut .east f).fabOut .west f

/-- A TOPO record is flooded: out of both ports (R366). -/
def State.fabFlood (s : State) (f : Frame) : State :=
  let (f, s) := s.fabSeq f
  (s.fabOut .east f).fabOut .west f

/-- A routed frame goes toward its node, or is dropped (R373). -/
def State.fabRoute (s : State) (f : Frame) : State :=
  match s.routeTo f.node with
  | some (p, _) =>
    if s.portUp p then s.fabOut p f else (s.fabTally 5).raise 0x0E 0x0A f.node
  | none => (s.fabTally 5).raise 0x0E 0x0A f.node

/-- A routed frame of the node's own. -/
def State.fabSend (s : State) (f : Frame) : State :=
  let (f, s) := s.fabSeq f
  s.fabRoute f

/-- A received frame that passed its checks (R358, R365): counted; a MISWIRED port takes only HELLO. It may be what the port waits for
in SENSED (R330). -/
def State.fabTake (s : State) (p : Port) (type : Nat) : Bool × State :=
  let st := s.obj (Obj.PORT_STATE (p.num + 1))
  if st = 4 && type != 1 then (false, s)
  else if st = 2 || st = 3 || st = 4 then
    let s := (s.fabTally 1).modL p fun l => { l with heard := l.heard || l.mated }
    (true, if s.shellUp then s.sensedStep p else s)
  else (false, s)

/-- A frame discarded by its checks: CRC_ERRORS at 10 within 1 s, then at most once per second (R358, R393). -/
def State.fabBad (s : State) (p : Port) : State :=
  let s := s.fabTally (3 + p.num)
  let f := s.fab.ports.get p
  let l := s.now :: (f.bad.filter fun t => s.now < t + sec 1)
  let due := 10 ≤ l.length && f.badAt.elim true fun t => t + sec 1 ≤ s.now
  let s := s.modFab p fun x => { x with bad := l.take 10, badAt := if due then some s.now else x.badAt }
  if due then s.raise 0x0E 8 p.num else s

/-- The hop count allows another hop; else HOP_LIMIT (R361). -/
def State.hopsOk (s : State) (f : Frame) (k : Frame → State → State) : State :=
  if 64 ≤ f.hops then (s.fabTally 7).raise 0x0E 9 f.src else k { f with hops := f.hops + 1 } s

/-- UID of an ASSIGN's sender: the first entry of part 0, else the node that SRC names. -/
def State.assignFrom (s : State) (src : Nat) (b : List Byte) : Nat :=
  if byteAt b 2 = 0 then leAt b 8 8
  else ((s.fab.recs.find? fun r => r.node == src && src != 0).map (·.uid)).getD (s.fab.zenith.getD 0)

/-- The node is the sender of a broadcast. An unassigned sender is known by its UID, which only an ASSIGN gives. -/
def State.sentBy (s : State) (f : Frame) (r : TopoRec) : Bool :=
  if f.src = 0 then f.type == 3 && r.uid == s.assignFrom 0 f.data else r.node == f.src

/-- Forwarding of a broadcast that arrived on a port (R374). -/
def State.fabOnward (s : State) (p : Port) (f : Frame) : State :=
  let q := p.other
  let next := s.beside (q == .east) s.ownRec
  if s.sentBy f s.ownRec then s
  else if !s.portUp q then s
  else if s.isRing && next.elim false (s.sentBy f) then s
  else s.hopsOk f fun f s => s.fabOut q f

/-! ### TOPO, the zenith and assignment (R366-R371) -/

def TopoRec.bytes (r : TopoRec) : List Byte :=
  leBytes 8 r.uid ++ leBytes 8 r.east ++ leBytes 8 r.west ++ leBytes 1 r.node ++ leBytes 1 r.stored ++ leBytes 1 r.flags ++
    leBytes 1 0 ++ leBytes 2 r.seq ++ leBytes 2 r.gen

def topoOf (b : List Byte) : TopoRec := {
  uid := leAt b 0 8, east := leAt b 8 8, west := leAt b 16 8, node := byteAt b 24, stored := byteAt b 25, flags := byteAt b 26
  seq := leAt b 28 2, gen := leAt b 30 2 }

/-- TOPO_SEQ `a` is higher than `b`, modulo 65,536 with a window of 32,768. -/
def seqNewer (a b : Nat) : Bool := let d := (a + 65536 - b) % 65536; d != 0 && d < 32768

/-- The records changed: the fabric is no longer settled. -/
def State.unsettle (s : State) : State :=
  { s with fab := { s.fab with settled := false } }.set Obj.FAB_STATE (if s.fabOn then 1 else 0)

/-- A new TOPO record of the node's own is flooded. -/
def State.topoSend (s : State) : State :=
  if !s.fabOn then s
  else
    let s := { s with fab := { s.fab with topoSeq := (s.fab.topoSeq + 1) % 65536 } }
    s.fabFlood { node := 0xFF, src := s.nodeId, type := 2, data := s.ownRec.bytes }

/-- ZENITH's objects and the root port (R383). -/
def State.zenithObjs (s : State) : State :=
  match s.fab.zenith with
  | none => (((s.set Obj.ZENITH_ID 0).set Obj.ZENITH_UID 0).set Obj.ZENITH_HOPS 0).set Obj.ZENITH_ROOT 2
  | some u =>
    let path := s.pathTo fun r => r.uid == u
    (((s.set Obj.ZENITH_ID (((s.topoRec u).map (·.node)).getD 0)).set Obj.ZENITH_UID u).set Obj.ZENITH_HOPS
      ((path.elim 0 fun (x : Port × Nat) => x.2))).set Obj.ZENITH_ROOT (path.elim 2 fun (x : Port × Nat) => x.1.num)

/-- A port whose receiver is LOCKED. -/
def State.portLocked (s : State) (p : Port) : Bool := 2 ≤ s.obj (Obj.PORT_STATE (p.num + 1))

/-- A node on a recovered clock takes the root port's (R386). -/
def State.clkFollow (s : State) : State :=
  let root := s.obj Obj.ZENITH_ROOT
  let c := s.obj Obj.CLK_STATE
  if s.clkm = 2 && (c = 2 || c = 3) && s.fab.zenith.isSome &&
      ((root = 0 && s.portLocked .east) || (root = 1 && s.portLocked .west)) then s.set Obj.CLK_STATE (2 + root)
  else s

/-- The root port and the objects about the zenith follow the records. -/
def State.routesMove (s : State) : State := if s.fab.zenith.isSome then s.zenithObjs.clkFollow else s

/-- This node's assignment is on its way: a node of the fabric does not show its generation yet (R394). -/
def State.assigning (s : State) : Bool :=
  s.fab.zenith == some s.uid && s.others.any fun r => r.gen != s.obj Obj.ASSIGN_GEN

/-- A port leaves UP: an assignment on its way is cut. -/
def State.assignCut (s : State) : State := { s with fab := { s.fab with cut := s.fab.cut || s.assigning } }

/-- A port's state changes in or out of UP: neighbour, routes, TOPO record, settling (R366, R375). -/
def State.portChange (s : State) (p : Port) (st nbr : Nat) : State :=
  (((s.set (Obj.PORT_STATE (p.num + 1)) st).set (Obj.PORT_NBR (p.num + 1)) nbr).unsettle.routesMove).topoSend

/-- A port goes DOWN (R362). -/
def State.portDown (s : State) (p : Port) : State :=
  let st := s.obj (Obj.PORT_STATE (p.num + 1))
  let s := (s.modFab p fun x => { x with hellos := 0, delays := [], queue := [], busy := 0, txTime := 0, rxTime := 0 }).set
    (Obj.PORT_DELAY (p.num + 1)) 0
  let s := s.clearI 0x0E 2 p.num
  if st = 3 then ((((s.assignCut).portChange p 1 0).fabTally 8).raise 0x0E 1 p.num) else s.set (Obj.PORT_STATE (p.num + 1)) 1

/-- Both ports start: DISABLED to DOWN. -/
def State.fabStart (s : State) : State :=
  if s.variant == .A then
    let s := [Port.east, Port.west].foldl (fun s p =>
      if s.obj (Obj.PORT_STATE (p.num + 1)) = 0 then s.set (Obj.PORT_STATE (p.num + 1)) 1 else s) s
    if s.obj Obj.FAB_STATE = 0 then s.set Obj.FAB_STATE 1 else s
  else s

/-- The UID of the zenith that the records give (R368). -/
def State.elect (s : State) : Option Nat :=
  ((s.ownRec :: s.others).filter fun r => bit r.flags 0).foldl (fun m r => match m with
    | none => some r.uid
    | some u => some (min u r.uid)) none

/-- The first pass: each node keeps its STORED_ID unless an earlier node has kept it. -/
def keepIds (walk : List TopoRec) : List Nat :=
  (walk.foldl (fun (acc : List Nat) (r : TopoRec) => acc ++ [if r.stored != 0 && !acc.contains r.stored then r.stored else 0]) [])

/-- The second pass: the lowest free ID for each node still without one. -/
def giveIds (kept : List Nat) : List Nat :=
  (kept.foldl (fun (acc : List Nat × List Nat) k =>
    if k != 0 then (acc.1 ++ [k], acc.2)
    else
      let n := (((List.range 0xFE).map (· + 1)).find? fun n => !acc.2.contains n).getD 0
      (acc.1 ++ [n], n :: acc.2)) ([], kept)).1

/-- Entries of an assignment in walk order: IDs for the first 64 nodes, 0x00 beyond. -/
def State.assignment (s : State) : List (Nat × Nat) :=
  let w := (s.ownRec :: s.others).take 75
  let ids := giveIds (keepIds (w.take 64))
  (List.range w.length).map fun i => (((w[i]?).map (·.uid)).getD 0, ids.getD i 0)

/-- The ASSIGN payloads of a generation (R370). -/
def assignFrames (gen : Nat) (l : List (Nat × Nat)) : List (List Byte) :=
  let parts := ceilDiv l.length 25
  (List.range parts).map fun k =>
    let e := (l.drop (25 * k)).take 25
    leBytes 2 gen ++ leBytes 1 k ++ leBytes 1 parts ++ leBytes 1 e.length ++ leBytes 3 0 ++
      e.flatMap fun (x : Nat × Nat) => leBytes 8 x.1 ++ leBytes 1 x.2

def State.assignSend (s : State) : State :=
  s.fab.assign.foldl (fun s b => s.fabBroadcast { node := 0xFF, src := s.nodeId, type := 3, data := b }) s

/-- The node adopts an ID (R371). -/
def State.adopt (s : State) (id gen from_ : Nat) : State :=
  let old := s.fab.stored
  let s := { s with fab := { s.fab with stored := id, adopted := true, used := id, from_ := from_ } }
  let s := ((((s.put Obj.NODE_ID id).put Obj.ASSIGN_GEN gen).set Obj.FAB_STATE 3).topoSend).commitStart
  let s := if old != id && old != 0 then s.raise 0x0E 4 old else s
  if id = 0 then s.raise 0x0E 5 s.nodeCount else s

/-- The zenith runs an assignment (R369). -/
def State.assign (s : State) : State :=
  let gen := (maxOr (s.obj Obj.ASSIGN_GEN) (s.fab.recs.map (·.gen)) + 1) % 65536
  let l := s.assignment
  let s := { s with fab := { s.fab with listed := l.map fun (x : Nat × Nat) => x.1, assign := assignFrames gen l } }
  (s.assignSend).adopt ((l.map fun (x : Nat × Nat) => x.2).getD 0 0) gen s.uid

/-- The fabric has settled: election, and the zenith's assignment (R367-R369). -/
def State.settle (s : State) : State :=
  let z := s.elect
  let last := s.fab.lastZenith
  let s := { s with fab := { s.fab with settled := true, zenith := z, lastZenith := if z.isSome then z else last } }
  let s := (s.set Obj.FAB_STATE (if s.fab.adopted then 3 else 2)).zenithObjs
  match z with
  | none => (s.set Obj.TIMEBASE_STATE 0).raise 0x0E 6 s.nodeCount
  | some u =>
    let s := if z != last then s.raise 0x0E 3 (((s.topoRec u).map (·.node)).getD 0) else s
    let s := if u = s.uid then s.set Obj.TIMEBASE_STATE 4
      else if z != last || s.obj Obj.TIMEBASE_STATE = 4 then
        { s with fab := { s.fab with tLast := none } }.set Obj.TIMEBASE_STATE 1 else s
    let new := (s.ownRec :: s.others).any fun r => !s.fab.listed.contains r.uid
    let again := new || s.fab.cut
    let s := if u = s.uid then s else { s with fab := { s.fab with assign := [] } }
    let s : State := { s with fab := { s.fab with cut := false } }
    if u = s.uid && (z != last || again) then s.assign.zenithObjs else s

/-! ### Fabric boot (R387, R388) -/

/-- The boot server: the lowest-ID node whose FLAGS show BOOT_SRV. -/
def State.bootServer (s : State) : Option Nat :=
  ((s.others.filter fun r => bit r.flags 1 && r.node != 0).map (·.node)).foldl (fun m n => match m with
    | none => some n
    | some x => some (min x n)) none

/-- The bank that a fabric boot replaces: the one of lower generation, B when equal. -/
def State.olderBank (s : State) : Nat := if s.tabs.fa.gen < s.tabs.fb.gen then 1 else 2

/-- BOOT_REQ for the kind and offset that come next. -/
def State.bootAsk (s : State) : State :=
  match s.fab.boot, s.bootServer with
  | some k, some n =>
    let f : Frame := { node := n, src := s.nodeId, type := 0x20
                       data := leBytes 1 k ++ leBytes 1 0 ++ leBytes 4 s.fab.bootData.length ++ leBytes 2 240 }
    ({ s with fab := { s.fab with reqs := (s.fab.reqs.filter fun (r : FabReq) => r.who.isSome) ++ [({ txn := 256, frame := f } : FabReq)] } } : State).fabSend f
  | _, _ => s

/-- The fetch of the next kind of the variant, or the end. -/
def State.bootNext (s : State) (k : Nat) : State :=
  let s := { s with fab := { s.fab with boot := some (k + 1), bootData := [], reqs := s.fab.reqs.filter fun (r : FabReq) => r.who.isSome } }
  if k + 1 ≤ 10 then s.bootAsk else s

/-- A waiting boot starts its fetch once an ID is adopted and a server is known; one whose request has gone unanswered asks again once
the fabric has settled anew (R394). -/
def State.bootKick (s : State) : State :=
  if s.fab.boot = some 0 && s.fab.adopted && s.nodeId != 0 && s.bootServer.isSome then
    (s.setBank s.olderBank { gen := (s.bankF s.olderBank).gen }).bootNext 0
  else if s.fab.boot.any (fun k => 1 ≤ k && k ≤ 10) && !(s.fab.reqs.any fun (r : FabReq) => r.who.isNone) then s.bootAsk
  else s

end Sys2Proof.Machine
end

