-- ==== Sys2Proof/Machine/WatchdogOps.lean ====
section
/-!
DEFINITION. WatchdogOps.lean: the window watchdog (R563-R577).
-/
namespace Sys2Proof.Machine

def State.wdRunning (s : State) : Bool := s.obj Obj.WD_STATE == 1

/-- WD_ENABLE as it reads: bits 0-7 fixed, bit 7 only with the fabric (R576). -/
def State.wdEnable (s : State) (v : Nat) : Nat := v / 256 % 256 * 256 + (if s.variant == .A then 0xFF else 0x7F)

/-- The configuration stored for the next period. -/
def State.wdStored (s : State) : Watchdog :=
  { s.wd with
    period := s.obj Obj.WD_PERIOD
    open_ := (List.range 16).map fun k => s.obj (Obj.WD_OPEN (k + 1))
    close := (List.range 16).map fun k => s.obj (Obj.WD_CLOSE (k + 1))
    enable := s.wdEnable (s.obj Obj.WD_ENABLE)
    owner := (List.range 7).map fun k => s.obj (Obj.WD_OWNER (k + 1))
    failW := s.obj Obj.WD_FAILOVER_W }

/-- The checks of R574 and R576 on a configuration. -/
def Watchdog.ok (w : Watchdog) : Bool :=
  (List.range 16).all fun k =>
    !bit w.enable k ||
      (w.open_.getD k 0 + 10 ≤ w.close.getD k 0 && w.close.getD k 0 ≤ w.period && (k < 9 || w.owner.getD (k - 9) 0 != 0))

/-- The configuration that an identity's check-in is judged by (R569). -/
def State.wdCfg (s : State) : Watchdog := if s.wdRunning then s.wd else s.wdStored

/-- A master owns an identity (R567). -/
def State.wdOwns (s : State) (m : Master) (k : Nat) : Bool :=
  if k = 8 then m == .H else if 9 ≤ k then s.wdCfg.owner.getD (k - 9) 0 == m.code && m != .Q else false

/-- The next token: never 0, never the previous one; which one is open (R566). -/
def nextToken (prev d : Nat) : Nat :=
  if prev = 0 then d % 255 + 1 else let t := d % 254 + 1; if prev ≤ t then t + 1 else t

/-- A period starts: stored values taken, a new token, nothing seen (R564, R566, R575). -/
def State.wdPeriod (s : State) : State :=
  let (d, s) := s.draw 16
  let s := { s with wd := { s.wdStored with tick := 0 } }
  (s.set Obj.WD_TOKEN (nextToken (s.obj Obj.WD_TOKEN) d)).set Obj.WD_SEEN 0

/-- The watchdog starts (R564). -/
def State.wdStart (s : State) : State := (s.set Obj.WD_STATE 1).wdPeriod

/-- The watchdog stops: no state carries over (R565). -/
def State.wdStop (s : State) : State :=
  { (((s.set Obj.WD_STATE 0).set Obj.WD_TOKEN 0).set Obj.WD_SEEN 0) with wd := { s.wd with tick := 0 } }

/-- An event falls into the tick in which a violation has ended a period: it is discarded (R571). -/
def State.wdQuiet (s : State) : Bool := s.now < s.wd.quiet

/-- A violation (R572). nFAILOVER stays low until its pulse ends. -/
def State.wdViolation (s : State) (kind k t : Nat) : State :=
  let s := (((s.set Obj.WD_LAST_KIND kind).set Obj.WD_LAST_ID k).set Obj.WD_LAST_TICK t).set Obj.WD_LAST_TOKEN (s.obj Obj.WD_TOKEN)
  let s := s.count Obj.WD_EXPIRY_COUNT 0xFFFFFFFF
  let s := s.failover s.wd.failW
  let s := if k = 5 then s.directEnter 2 else s.raise 0x0C kind k
  let s := s.wdPeriod
  { s with wd := { s.wd with quiet := s.now + us 1 } }

/-- A check-in of identity `k` at a tick (R570). -/
def State.wdCheckin (s : State) (k token t : Nat) : State :=
  if token != s.obj Obj.WD_TOKEN then s.wdViolation 5 k t
  else if bit (s.obj Obj.WD_SEEN) k then s.wdViolation 3 k t
  else if t < s.wd.open_.getD k 0 then s.wdViolation 1 k t
  else if t < s.wd.close.getD k 0 then s.set Obj.WD_SEEN (setBit (s.obj Obj.WD_SEEN) k true)
  else s.wdViolation 2 k t

/-- The code that a write of WD_CHECKIN returns before it is carried out (R569). -/
def State.wdCode (s : State) (m : Master) (v : Nat) : Nat :=
  let k := field v 3 0
  if !s.wdOwns m k then 2 else if !s.wdRunning || !bit s.wdCfg.enable k then 6 else 0

/-- The liveness condition of a hardware owner (R568). A sequencer without a table, or with its table stopped (R700), has none to
evaluate. -/
def State.wdLive (s : State) (k : Nat) : Bool :=
  if k < 5 then (s.seqs.getD k {}).ran || (s.seqs.getD k {}).block.isEmpty || (s.seqs.getD k {}).stopped
  else if k = 5 then s.wd.collector && s.col.selfFails == 0
  else if k = 6 then s.wd.planner
  else [Port.east, Port.west].all fun p => !bit s.wd.unserved p.num || (s.fab.ports.get p).queue.isEmpty

/-- From a check-in on the condition of its hardware owner is judged afresh (R568). -/
def State.wdAfresh (s : State) (k : Nat) : State :=
  if k < 5 then { s with seqs := s.seqs.setIfInBounds k { (s.seqs.getD k {}) with ran := false } }
  else if k = 5 then { s with wd := { s.wd with collector := false } }
  else if k = 6 then { s with wd := { s.wd with planner := false } }
  else { s with wd := { s.wd with
    unserved := b2n (!s.fab.ports.east.queue.isEmpty) + 2 * b2n (!s.fab.ports.west.queue.isEmpty) } }

/-- Identity 5 is not counted in direct mode (R567). -/
def State.wdCounted (s : State) (k : Nat) : Bool := bit s.wd.enable k && !(k == 5 && s.aon.direct)

end Sys2Proof.Machine
end

