-- ==== Sys2Proof/Machine/CanOps.lean ====
section
/-!
DEFINITION. CanOps.lean: the CAN controllers' configuration, queues and state (R618-R634).
-/
namespace Sys2Proof.Machine

/-- The controller exists in the variant (R10). -/
def State.hasCan (s : State) (cb : CanBus) : Bool := cb == .a || s.variant != .C

/-- The transmit pin may be dominant: the controller is past step 7, the main clock runs, the part is out of Storage and Park
(R621). -/
def State.canOn (s : State) (cb : CanBus) : Bool := s.hasCan cb && s.canState cb != 0 && !s.aon.clockStopped

/-- A frame joins the transmit queue of 16; in a full queue it replaces the oldest NOTIFY, or is discarded (R631). -/
def State.canQueue (s : State) (cb : CanBus) (f : CanFrame) : State :=
  if !s.canOn cb then s
  else s.modCan cb fun c =>
    let f := { f with brs := f.fd && c.data != 0 }
    if c.queue.length < 16 then { c with queue := c.queue ++ [f] }
    else match c.queue.findIdx? fun x => x.notify with
      | some i => { c with queue := c.queue.eraseIdx i ++ [f] }
      | none => c

/-- Answers to a TXN are kept for 100 ms (R628). -/
def State.canKeep (s : State) (who txn : Nat) (l : List CanFrame) : State :=
  s.modCan .a fun c => { c with
    answered := (who, txn, s.now, l) :: c.answered.filter fun (x : Nat × Nat × Nat × List CanFrame) => decide (s.now < x.2.2.1 + ms 100) }

/-- The segmented transfers that a controller carries are abandoned (R589, R623). -/
def State.canAbandon (s : State) (cb : CanBus) : State :=
  let who := match cb with
    | .a => if s.variant == Variant.C then [1, 3] else [1]
    | .b => [3]
  let s := (s.srv.transfers.filter fun t => who.contains t.who).foldl (fun s t => s.dropTransfer t) s
  match cb with
  | .a => s.modCan .a fun c => { c with block := none }
  | .b => { s with uds := { s.uds with rx := none, tx := none, allow := 0 } }

/-- The timing of a bit with a sample point in percent, rounded down to a whole quantum; SJW equals phase segment 2 (R622). -/
def bitTiming (presc quanta pct : Nat) : BitTiming :=
  let sp := quanta * pct / 100
  { presc := presc, quanta := quanta, sample := sp, sjw := quanta - sp }

/-- The nominal bit: 40 quanta, the prescaler by CAN_NOM_RATE. -/
def nomTiming (rate pct : Nat) : BitTiming := bitTiming ([8, 4, 2].getD rate 1) 40 pct

/-- The data bit: prescaler 1, the quanta by CAN_DATA_RATE. With no BRS the frame stays in the nominal phase. -/
def dataTiming (nom : BitTiming) (rate pct : Nat) : BitTiming :=
  if rate = 0 then nom else bitTiming 1 ([40, 40, 20, 10].getD rate 8) pct

/-- A controller is initialised with its stored configuration, and repeats bus integration (R623). -/
def State.canInit (s : State) (cb : CanBus) : State :=
  if !s.hasCan cb then s
  else
    let n := cb.num + 1
    let s := s.canAbandon cb
    let s := s.modCan cb fun c => { c with
      nom := s.obj (Obj.CAN_NOM_RATE n), data := s.obj (Obj.CAN_DATA_RATE n), spNom := s.obj (Obj.CAN_SP_NOM n)
      spData := s.obj (Obj.CAN_SP_DATA n), nomBit := nomTiming (s.obj (Obj.CAN_NOM_RATE n)) (s.obj (Obj.CAN_SP_NOM n))
      dataBit := dataTiming (nomTiming (s.obj (Obj.CAN_NOM_RATE n)) (s.obj (Obj.CAN_SP_NOM n))) (s.obj (Obj.CAN_DATA_RATE n))
        (s.obj (Obj.CAN_SP_DATA n))
      tdc := 2 ≤ s.obj (Obj.CAN_DATA_RATE n), ids := (List.range 5).map fun i => s.obj (Obj.CAN_ID_HOST_REQ + i), queue := [], later := [], answered := [], held := [] }
    let s := ((s.setCanState cb 1).set (Obj.CAN_ERR n) 0).clearBy fun m => m.src == canSrc cb && (m.kind == 1 || m.kind == 2)
    match cb with
    | .a => s
    | .b => { s with uds := { s.uds with ids := [s.obj Obj.DIAG_ID_PHYS_REQ, s.obj Obj.DIAG_ID_FUNC_REQ, s.obj Obj.DIAG_ID_RSP] } }

def State.canStat (s : State) (cb : CanBus) (n : Nat) : State := s.tally (Obj.CAN_STATS (3 * cb.num + n)) 0xFFFFFFFF

/-- One frame of the queue has gone out. A controller that is off, bus-off or still integrating sends nothing. -/
def State.canDrain (s : State) (cb : CanBus) : State :=
  if s.canOn cb && (s.canState cb == 2 || s.canState cb == 3) then
    match (s.can.get cb).queue with
    | [] => s
    | f :: r => (s.modCan cb fun c => { c with queue := r, sent := some f }).canStat cb 2
  else s

/-- LIN_BUS_SHORT while the bus is dominant: the shell raises it as soon as it runs (R644). -/
def State.linShorted (s : State) : State := if s.lin.short && s.shellUp then s.raise1 0x13 3 0 else s

/-- Bus integration has ended. -/
def State.canIntegrated (s : State) (cb : CanBus) : State := if s.canState cb = 1 && s.canOn cb then s.setCanState cb 2 else s

end Sys2Proof.Machine
end

