-- ==== Sys2Proof/Machine/WriteOps.lean ====
section
/-!
DEFINITION. WriteOps.lean: what writing each object needs and does: its range (R587, R763), the states that refuse it (R592), and
its effect.
-/
namespace Sys2Proof.Machine

/-! ### Effects shared by several writes -/

/-- A requested classification: it waits while the source is disconnected (R186). A source that is ABSENT has none to classify. -/
def State.classRequest (s : State) : State :=
  let st := s.obj Obj.SRC_STATE
  if s.modeNow = 6 then s
  else if st = 2 ∨ st = 6 then s.classStart
  else if 3 ≤ st ∧ st ≤ 5 then { s with src := { s.src with waiting := true } }
  else s

/-- LINK_CTRL is allowed in the port's state (R329, R345). -/
def State.linkCtrlOk (s : State) (p : Port) (n : Nat) : Bool :=
  let st := s.lState p
  match n with
  | 1 => st == 6 && s.awaiting p == 0
  | 2 => st == 6 && s.awaiting p == 0
  | 3 => 3 ≤ st && st ≤ 9 && st != 8
  | _ => (st == 3 || st == 6) && s.awaiting p == 0

/-- LINK_CTRL (R345). -/
def State.linkCtrl (s : State) (p : Port) (n : Nat) : State :=
  match n with
  | 1 => s.sendDetach p 0x0B
  | 2 => s.sendMsg p 6 [] true
  | 3 => s.sendHard p 0x0B
  | _ => (s.sendOffer p).policyContract p

/-- LINK_EN (R330). -/
def State.linkEnable (s : State) (p : Port) (on : Bool) : State :=
  if !on then s.toOff p
  else if s.lState p = 0 && (if s.bringing then 7 ≤ s.obj Obj.BRINGUP_STEP && !s.aon.overcast else s.inMode [2, 3, 4, 5]) then s.toDetached p
  else s

/-- Trouble codes are removed, all or one; a kind whose condition the collector holds ACTIVE is created again (R672). -/
def State.dtcErase (s : State) (code : Option Nat) : State :=
  let hit := fun (c : Nat) => code.elim true (· == c)
  let held := ((s.recs.filter fun (e : Nat × FaultRec) => e.2.active).flatMap fun (e : Nat × FaultRec) =>
    e.2.conds.map fun m => (m.src * 256 + m.kind, e.2.cls)).filter fun x => hit x.1 && s.uds.dtcs.any fun d => d.code == x.1
  let t := s.obj Obj.HZ_OP_TIME
  let back := held.foldl (fun (l : List Dtc) (x : Nat × Nat) =>
    if l.any fun d => d.code == x.1 then l
    else l ++ [{ code := x.1, status := 0x23, count := 1, cls := x.2, first := t, last := t, snap1 := s.snapshot, snap2 := s.snapshot
                 now := true }]) []
  ((s.setDtcs ((s.uds.dtcs.filter fun d => !hit d.code) ++ back)).set Obj.DTC_STATE 0).commitStart

/-- The group of DTC_CLEAR and of service 0x14: all, or one DTC of the catalogue or of the memory. -/
def State.dtcGroup (s : State) (v : Nat) : Bool :=
  v == 0xFFFFFF ||
    (v < 0x1000000 && v % 256 == 0 && ((classOf (v / 65536) (v / 256 % 256)).isSome || s.uds.dtcs.any fun d => d.code == v / 256))

def State.dtcClearBy (s : State) (v : Nat) : State := s.dtcErase (if v = 0xFFFFFF then none else some (v / 256))

/-- OD_RESTORE places the defaults of every P object that some master may write (R612). -/
def State.restoreDefaults (s : State) : State :=
  let rows := Dict.all.filter fun r => r.persist == .P && r.on.has s.variant &&
    (r.accH.writes || r.accS.writes || r.accT.writes || r.accF.writes)
  (rows.foldl (fun s r => (List.range (r.last + 1 - r.first)).foldl (fun s i =>
    let k := r.index * 256 + r.first + i
    s.journal k (Dict.default k)) s) s).commitStart

/-- The LIN node's working copies (R645). -/
def State.linCopies (s : State) : State :=
  { s with lin := { s.lin with
    cfg := s.obj Obj.LIN_CFG, nad := s.obj Obj.LIN_NAD, pid := (List.range 4).map fun i => s.obj (Obj.LIN_PID (i + 1)), changed := false } }

/-- The working copy of one object, at its write (R645). -/
def State.linCopy (s : State) (k v : Nat) : State :=
  { s with lin := { s.lin with
    cfg := if k = Obj.LIN_CFG then v else s.lin.cfg
    nad := if k = Obj.LIN_NAD then v else s.lin.nad
    pid := if k / 256 = 0x0B62 then s.lin.pid.set (k % 256 - 1) v else s.lin.pid } }

/-- RAIL_RAMP goes into the SLOPE words at once. -/
def State.rampWords (s : State) : State :=
  s.groups.foldl (fun s g =>
    let w := s.wordStanding (40 + g.num)
    if w = 0 then s else s.portIfNew (40 + g.num) (w - field w 23 18 * 2 ^ 18 + s.obj Obj.RAIL_RAMP * 2 ^ 18)) s

/-- The cells above the last one read 0; with no cell nothing of the pack stands (R263-R265). -/
def State.cellsClear (s : State) (n : Nat) : State :=
  let s := (List.range 16).foldl (fun s i => if i < n then s else s.set (Obj.CELL_V (i + 1)) 0) s
  if n = 0 then
    let s := ((s.balOff.set Obj.PACK_STATE 0).cellReport.chgEnter 0 0).zeroBoth
    let s := { s with chg := { s.chg with openTap := false, sum := false, sumRun := {}, noNtc := false, unseen := false } }
    (s.clearK 7 4).clearBy fun m => m.src == 8
  else s

/-- PACK_CELLS (R263). -/
def State.cellsWrite (s : State) (n : Nat) : State := ((s.put Obj.PACK_CELLS n).cellsClear n).ordering

/-- CHG_ENABLE (R291): 0 stops charging; 1 leaves FAULT once no blocking bit is unread. -/
def State.chgEnableWrite (s : State) (v : Nat) : State :=
  let s := s.put Obj.CHG_ENABLE v
  let st := s.obj Obj.CHG_STATE
  if v = 0 then (if st = 8 then s else (s.chgEnter 0 0).writeChg 0)
  else if st = 8 && !s.blocking then s.newCycle.selectOrHold.chgWrite true
  else s

/-- CHG_SERVICE (R286). -/
def State.chgServiceWrite (s : State) (v : Nat) : State := (s.set Obj.CHG_SERVICE v).chgModeChange

/-- A MODE_REQ slot (R56-R58): H's and F's leases start again. -/
def State.modeReqSlot (s : State) (slot v : Nat) : State :=
  let s := s.set (0x0101 * 256 + slot) v
  { s with mode := { s.mode with
    leaseH := if slot = 1 then v != 0xFF else s.mode.leaseH, leaseF := if slot = 4 then v != 0xFF else s.mode.leaseF } }

/-- Target Storage from the side-band in Park: entered directly. A wake of the pin or of VBUS that waited for a check starts bring-up
from there (R53, R87). -/
def State.storageDirect (s : State) : State :=
  let t := s.enterStorage 1
  match s.aon.wake with
  | some c => if c = 2 ∨ c = 3 then t.wakeUp c else t
  | none => t

/-- The resolution that follows writes of slots; `side`: what the side-band wrote. In Park the side-band's Idle or Play wakes the
device, once the entry is complete or the check that runs has ended, and its Storage is entered directly (R53, R72, R80, R87). -/
def State.modeReqAct (s : State) (side : Option Nat) : State :=
  if s.shellUp then
    let s := if s.mode.park = 5 && (side = some 2 || side = some 3) then s.wakeEvent 1 else s
    s.resolve
  else if s.modeNow = 1 && !s.bringing then
    let s := s.set Obj.MODE_TARGET s.resolved
    if side = some 0 then s.storageDirect else if side = some 2 || side = some 3 then s.wakeEvent 1 else s
  else s

def State.modeReqWrite (s : State) (slot v : Nat) : State :=
  (s.modeReqSlot slot v).modeReqAct (if slot = 2 then some v else none)

/-- The modes that a master may request (R56). -/
def State.modeAllowed (s : State) (m : Master) (v : Nat) : Bool :=
  v == 0xFF || v == 1 || v == 2 || v == 3 ||
    (v == 0 && m != .F) || (v == 5 && (m == .T || (m == .H && s.variant == .C)))

/-- TRAP_RELEASE (R701). -/
def State.trapRelease (s : State) : State :=
  let s := { s with seqs := s.seqs.map fun (q : Seq) => { q with trap := false } }
  (List.range 5).foldl (fun s i =>
    let q := s.seqs.getD i {}
    s.set (Obj.SEQ_MODE i) (if q.stopped && s.modeNow == 7 then 3 else if q.block.isEmpty then 0 else 1)) s

/-- A capture of the requester's (R428). -/
def State.recRequest (s : State) (m : Master) : State :=
  let s := if bit (s.obj Obj.REC_CFG) 4 then s.capture { src := 9, kind := 11, inst := m.code } 0 else s
  s.raise 9 11 m.code

/-- REC_KEEP marks or unmarks the selected capture (R433). -/
def State.recKeep (s : State) (v : Nat) : State :=
  { s with archive := s.archive.modify (s.obj Obj.REC_SELECT) fun (c : Capture) => { c with flags := setBit c.flags 3 (v == 1) } }

def State.recKeepOk (s : State) (v : Nat) : Bool :=
  match s.archive[s.obj Obj.REC_SELECT]? with
  | none => false
  | some c => v == 0 || bit c.flags 3 || (s.archive.filter fun (x : Capture) => bit x.flags 3).length < 32

/-! ### Table switch (R687-R690) -/

/-- The inactive bank as a switch with this mask would use it. -/
def State.switchBank (s : State) (mask : Nat) : Bank :=
  let idle := s.bank s.idleBank
  if s.activeBank = 0 then { idle with images := idle.images.filter fun e => bit mask (e.1 - 1) }
  else
    let act := s.bank s.activeBank
    { idle with images := (List.range 10).flatMap fun k =>
        match (if bit mask k then idle else act).image? (k + 1) with
        | some b => [(k + 1, b)]
        | none => [] }

/-- R688 on the frequency plan: every group's applied FREQ word. -/
def State.planFits (s : State) (b : List Byte) : Bool :=
  s.groups.all fun g =>
    let w := s.word (32 + g.num)
    w == 0 || planOk (bandsOf (some b)) (field w 11 0) (field w 15 12) (s.nEn g)

/-- The checks of a TABLE_SWITCH write that return OUT_OF_RANGE. -/
def State.switchOk (s : State) (mask : Nat) : Bool :=
  let idle := s.bank s.idleBank
  mask != 0 && (List.range 10).all (fun k => !bit mask k || (s.kindHere (k + 1) && (idle.image? (k + 1)).isSome)) &&
    (!bit mask 1 || (idle.image? 2).elim true fun b => s.floorWith s.cells (some (imgBody b)) ≤ s.obj Obj.RAIL_SETPOINT) &&
    (!bit mask 5 || (idle.image? 6).elim true fun b => s.planFits (imgBody b)) &&
    (s.activeBank != 0 || (s.switchBank mask).usable)

/-- An accepted switch: step 1 of R689, and what stands while it is pending (R688). -/
def State.switchStart (s : State) (mask : Nat) : State :=
  let b := s.switchBank mask
  let s := s.setBank s.idleBank b
  let body := fun (k : Nat) => if bit mask (k - 1) then (b.image? k).map imgBody else none
  let s := { s with tabs := { s.tabs with switching := true, deferred := false, newChg := body 2, newFreq := body 6 } }
  ((s.set Obj.TABLE_SWITCH (2 ^ 24 + mask)).ordering).idleIds

/-- Modes in which a switch may be requested. -/
def State.switchMode (s : State) : Bool := s.modeNow == 5 || (s.modeNow == 4 && s.obj Obj.MODE_PREV == 5)

/-! ### OTP programming (R727-R729) -/

/-- R727 apart from the security level. -/
def State.otpReady (s : State) : Bool :=
  let vaux := s.read0 61 80000
  s.modeNow == 5 && s.tablesQuiet && s.otp.prog.isNone && 9000 ≤ vaux && vaux ≤ 36000 &&
    (tempOf (s.obj Obj.TEMP_MAX)).elim false fun t => decide (0 ≤ t) && decide (t ≤ 850)

/-- Only SEC and CUST, their locks unblown. -/
def State.otpArea? (s : State) (a : Nat) : Bool := (a == 3 || a == 4) && !(s.otpArea a).locked

/-- OTP_PROG starts (R728). -/
def State.otpProgram (s : State) (b : List Byte) : State :=
  { s with otp := { s.otp with prog := some (byteAt b 0, leAt b 2 2, b.drop 4) } }.set Obj.OTP_PROG_STATE 1

/-- The data of an OTP_PROG write lie within the area. -/
def otpDataOk (b : List Byte) : Bool :=
  5 ≤ b.length && b.length ≤ 68 && byteAt b 0 ≤ 4 && leAt b 2 2 + (b.length - 4) ≤ otpSize (byteAt b 0)

/-- OTP_LOCK starts (R729). The content at tight margin is the fuses'. -/
def State.otpLock (s : State) (v : Nat) : State :=
  { s with otp := { s.otp with prog := some (field v 2 0, 0, []) } }.set Obj.OTP_PROG_STATE 1

def State.otpLockOk (s : State) (v : Nat) : Bool := bit v 7 || areaCrc (field v 2 0) (s.otpArea (field v 2 0)).fuses

/-! ### Ranges -/

/-- Bits that a BITS object or a word keeps; its reserved bits are ignored (R12). -/
def keptBits (k v : Nat) : Nat :=
  if k = Obj.ENV_CFG then field v 11 7 * 128 + v % 2
  else if k = Obj.WAKE_CFG ∨ k = Obj.HALO_CFG then v % 16
  else if k = Obj.REC_CFG then v % 32
  else if k = Obj.LIN_CFG then v % 4
  else if k = Obj.PARK_SCAN then v % 2 ^ 28
  else if (k / 256 = 0x0B44) ∨ (k / 256 = 0x0B02) then field v 31 31 * 2 ^ 31 + field v 28 0
  else if k = Obj.TABLE_SWITCH then v % 1024
  else v

/-- A CAN identifier: 11 bits unless IDE. -/
def canIdOk (v : Nat) : Bool := bit v 31 || v ≤ 0x7FF

/-- CANA's identifiers with a candidate: all different (R624). -/
def State.canIdsOk (s : State) (k v : Nat) : Bool :=
  let s := s.set k v
  let l := (s.subs 0x0B44).map fun n => s.obj (0x0B44 * 256 + n)
  canIdOk v && (List.range l.length).all fun i => (List.range i).all fun j => l.getD i 0 != l.getD j 0

/-- The value is in the object's range, checks against other objects included (OUT_OF_RANGE). `v` is without reserved bits. -/
def State.valueOk (s : State) (m : Master) (k v : Nat) : Bool :=
  let i := k / 256
  let n := k % 256
  if i = 0x0101 then s.modeAllowed m v
  else if i = 0x0204 then within 1 (if n ≤ 2 then 6 else 2) v
  else if i = 0x0220 then v ≤ spanOf (groupOf n)
  else if i = 0x0241 then decide (-4096 ≤ ofCode 16 v) && decide (ofCode 16 v ≤ 4095)
  else if k = Obj.GROUP_APPLY then (s.groupApply v).1
  else if k = Obj.RAIL_SETPOINT then s.obj Obj.RAIL_FLOOR ≤ v
  else if k = Obj.GRANT_CONT then v ≤ s.ceil 6
  else if k = Obj.GRANT_PEAK then v ≤ s.ceil 7
  else if k = Obj.PACK_CELLS then
    v == 0 || (4 ≤ v && v ≤ (if s.variant == .C then 8 else 16) && s.floorWith v (s.body 2) ≤ s.obj Obj.RAIL_SETPOINT)
  else if i = 0x0602 then s.scanIntOk v
  else if k = Obj.PARK_SCAN then parkScanOk v
  else if k = Obj.WAKE_CFG then v % 4 != 0
  else if k = Obj.HALO_CFG then within 1 5 (v % 8)
  else if 0x0843 ≤ i ∧ i ≤ 0x0847 then (s.set k v).wdStored.ok
  else if k = Obj.HZ_REBASE then (rebaseOf v).isSome
  else if k = Obj.NODE_ID_SET then within 1 0xFE v
  else if i = 0x0B44 then s.canIdsOk k v
  else if i = 0x0B02 then canIdOk v
  else if k = Obj.CAN_NOTIFY_PERIOD then v == 0 || within 100 60000 v
  else if k = Obj.CAN_APPLY then v == 1 || s.variant != .C
  else if k = Obj.DTC_CLEAR then s.dtcGroup v
  else if k = Obj.TABLE_SWITCH then s.switchOk v
  else if k = Obj.OTP_LOCK then s.otpLockOk v
  else if k = Obj.REC_SELECT then v < s.archive.length
  else if k = Obj.REC_KEEP then s.recKeepOk v
  else true

/-! ### States that refuse a write -/

/-- The writes that Overcast carries out (R765). -/
def overcastWrite (k : Nat) : Bool :=
  k == Obj.FAULT_ACK || k / 256 == 0x0101 || k == Obj.WD_CHECKIN || k == Obj.DTC_CLEAR || k == Obj.DIAG_DOMAIN_OFS ||
    k == Obj.REC_SELECT || k == Obj.HZ_LOG_SEL

/-- WRONG_STATE (R592). -/
def State.wrongState (s : State) (k v : Nat) : Bool :=
  let i := k / 256
  (s.modeNow == 7 && !overcastWrite k) ||
    (if k = Obj.CHG_SERVICE ∨ k = Obj.FAULT_INJECT ∨ k = Obj.OD_RESTORE then s.modeNow != 5
     else if k = Obj.PACK_CELLS then (3 ≤ s.obj Obj.CHG_STATE && s.obj Obj.CHG_STATE ≤ 6) || s.tabs.switching
     else if k = Obj.SELFCAL_CMD then !s.inMode [2, 5] || s.meas.cal != 0
     else if k = Obj.HZ_EPOCH_CMD ∨ k = Obj.CAN_APPLY then !s.inMode [2, 5]
     else if 0x0843 ≤ i ∧ i ≤ 0x0848 then !s.inMode [2, 5]
     else if i = 0x0503 then !s.linkCtrlOk (if k % 256 = 1 then .east else .west) v
     else if k = Obj.TABLE_SWITCH then !s.switchMode || !s.tablesQuiet
     else if k = Obj.TABLE_LOAD then s.modeNow != 5 || s.tabs.switching || s.uds.download.isSome || s.tabs.writing.isSome
     else if k = Obj.OTP_LOCK then !s.otpReady || !s.otpArea? (field v 2 0)
     else if k = Obj.OTP_PROG then !s.otpReady
     else if k = Obj.WD_CHECKIN then s.wdCode .Q v == 6
     else false)

/-! ### Effects -/

/-- What an accepted write does (R598, R605). -/
def State.applyWrite (s : State) (m : Master) (k v : Nat) : State :=
  let i := k / 256
  let n := k % 256
  if i = 0x0101 then s.modeReqWrite n v
  else if k = Obj.RAIL_SETPOINT then ((s.put k v).portIfNew 0 v).ordering
  else if k = Obj.RAIL_RAMP then (s.put k v).rampWords
  else if k = Obj.GROUP_APPLY then (s.groupApply v).2
  else if k = Obj.SRC_CLASSIFY then s.classRequest
  else if k = Obj.ENV_CFG then { (s.put k v) with env := { s.env with cfgPend := true } }
  else if k = Obj.CHG_ENABLE then s.chgEnableWrite v
  else if k = Obj.CHG_SERVICE then s.chgServiceWrite v
  else if k = Obj.PACK_CELLS then s.cellsWrite v
  else if i = 0x0502 then (s.put k v).linkEnable (if n = 1 then .east else .west) (v == 1)
  else if i = 0x0503 then s.linkCtrl (if n = 1 then .east else .west) v
  else if k = Obj.SELFCAL_CMD then { s with meas := { s.meas with cal := 1, calWas := s.obj Obj.CAL_STATE } }
  else if k = Obj.REC_TRIGGER then s.recRequest m
  else if k = Obj.REC_KEEP then s.recKeep v
  else if k = Obj.HZ_EPOCH_CMD then (if s.hz.epoch.isSome then s else s.epochStart 3)
  else if k = Obj.HZ_REBASE then s.hzClear ((rebaseOf v).getD [])
  else if k = Obj.FAULT_ACK then (if s.aon.direct then s else { s with col := { s.col with irq := false } })
  else if k = Obj.FAULT_INJECT then
    s.send { src := field v 31 24, kind := field v 23 16, inst := v % 65536, injected := true }
  else if k = Obj.HALO_CFG then (s.put k v).haloUpdate
  else if k = Obj.WD_CHECKIN then (if s.wdQuiet then s else s.wdCheckin (field v 3 0) (field v 15 8) s.wd.tick)
  else if k = Obj.WD_ENABLE then s.put k (s.wdEnable v)
  else if k = Obj.WD_FAILOVER_W then { (s.put k v) with wd := { s.wd with width := some v } }
  else if i = 0x0020 then s.set k v
  else if k = Obj.OD_COMMIT then s.commitStart
  else if k = Obj.OD_RESTORE then s.restoreDefaults
  else if k = Obj.NODE_ID_SET then { s with fab := { s.fab with stored := v } }.journal Obj.NODE_ID v
  else if k = Obj.CAN_APPLY then s.canInit (if v = 1 then .a else .b)
  else if i = 0x0B60 ∨ i = 0x0B61 ∨ i = 0x0B62 then (s.put k v).linCopy k v
  else if k = Obj.DTC_CLEAR then s.dtcClearBy v
  else if k = Obj.TABLE_SWITCH then s.switchStart v
  else if k = Obj.TRAP_RELEASE then s.trapRelease
  else if k = Obj.OTP_LOCK then s.otpLock v
  else if k = Obj.FLASH_ENDURANCE then (s.put k v).wearReport
  else if Dict.persisted k then s.put k v
  else s.set k v

end Sys2Proof.Machine
end

