-- ==== Sys2Proof/Machine/ObjectServer.lean ====
section
/-!
DEFINITION. ObjectServer.lean: the object server (R580-R615): what an object reads as, the checks in their order, reads, writes, segmented
transfers and snapshots.
-/
namespace Sys2Proof.Machine

/-! ### Values that are computed at a read -/

/-- CORE_STATUS (R118). -/
def State.coreStatus (s : State) : Nat :=
  b2n s.strat.active + 2 * b2n s.servoLock + 4 * b2n (s.groups.any fun g => (s.g g).iff != 0) + 8 * b2n (s.g .input).pass +
    16 * b2n (s.core.pend.any fun w => w.held) + 32 * b2n s.strat.linkNeutralised + 64 * b2n s.core.queueOvf + 128 * b2n s.core.stall

/-- GROUP_STATE (R138). -/
def State.groupState (s : State) (g : Group) : Nat :=
  let x := s.g g
  let shed := x.shedCount != 0 || (s.phasesOf g).any fun p => (s.phase p).code == 4
  b2n (s.balFrozen g) * 16 + b2n ((s.phasesOf g).any fun p => (s.phase p).code == 5) * 32 + b2n (x.blockLeft != 0) * 64 +
    b2n shed * 128 + b2n x.deliver * 256 + b2n x.dwell * 512 + b2n (x.fold < 1000000) * 1024 + b2n x.soft * 2048

/-- A group object. -/
def State.groupView (s : State) (i : Nat) (g : Group) : Option Nat :=
  match i with
  | 0x0200 => some (s.groupState g)
  | 0x0201 => some (s.nAct g)
  | 0x0213 => some (s.g g).freq
  | 0x0214 => some (s.g g).sync
  | 0x0215 => some (s.foldNow g)
  | 0x0250 => some (s.word (36 + g.num))
  | _ => none

/-- A phase object. Trims read 0 while a delay-line servo is unlocked (R162). -/
def State.phaseView (s : State) (i p : Nat) : Option Nat :=
  match i with
  | 0x0221 => some (s.phase p).code
  | 0x0222 => some (toCode 16 (s.phase p).avg)
  | 0x0223 => some (s.phase p).zero
  | 0x0240 => some (toCode 16 (s.trimNow p))
  | _ => none

/-- The LIN node hears its bus: EN, and any mode but Storage (R74, R635). -/
def State.linOn (s : State) : Bool := bit s.lin.cfg 0 && !s.aon.por && (s.bringing || s.modeNow != 0)

/-- LIN_STATE (R643). -/
def State.linState (s : State) : Nat :=
  if !s.linOn then 0 else if !s.lin.sleep then 1 else if s.lin.wakeDue && s.lin.wakes != 0 then 3 else 2

/-- The object server answers: the shell runs, and bring-up has reached step 7 (R555, R591). Before the handover that follows a
reset the core still treats the shell as absent. -/
def State.serving (s : State) : Bool :=
  s.aon.shell && !s.aon.clockStopped && if s.bringing then decide (7 ≤ s.obj Obj.BRINGUP_STEP) else !s.strat.absent

/-- A core, fabric or fault object. -/
def State.blockView (s : State) (k : Nat) : Option Nat :=
  if k = Obj.CORE_STATUS then some s.coreStatus
  else if k = Obj.LATCH_PENDING then some ((List.range 13).foldl (fun n i => n + b2n (s.core.pend.any fun w => w.id == i) * 2 ^ i) 0)
  else if k = Obj.CONTRACT_E then some (if s.hasGroup .east then s.contract .east else 0)
  else if k = Obj.CONTRACT_W then some (if s.hasGroup .west then s.contract .west else 0)
  else if k = Obj.FAULT_SUMMARY then
    some (if s.shellUp then s.faultSummary else setBit (s.obj Obj.FAULT_SUMMARY) 30 s.aon.overcast)
  else if k = Obj.PACK_SOC then (if s.serving then none else some s.aon.soc)
  else if k = Obj.WD_ENABLE then some (s.wdEnable (s.obj k))
  else if k = Obj.LIN_STATE then some s.linState
  -- the seconds that are left (R674)
  else if k = Obj.SEC_DELAY then some (if s.obj k = 0 then 0 else max 1 (min 10 ((s.aon.secEnd - s.now + sec 1 - 1) / sec 1)))
  else if k = Obj.NODE_COUNT then some (if s.fabOn then s.nodeCount % 256 else 0)
  else if k = Obj.TOPOLOGY then some (if s.fabOn then s.topology else 0)
  -- the bits of CH8-CH15 in the ML4860-C (R7)
  else if k = Obj.SCAN_MASK 0 ∧ s.variant = .C then some (s.obj k % 256)
  else none

/-- The value that a key of fixed size reads as. -/
def State.view (s : State) (k : Nat) : Nat :=
  let i := k / 256
  let n := k % 256
  if s.isCount k then (s.subs i).getLastD 0
  else if i = 0x0282 then s.word (n - 1)
  else if i = 0x0230 then s.freqBands.getD (n - 1) 0
  else if i = 0x0A20 then s.routeVal n
  else
    let v := match Group.ofNum? (n - 1) with
      | some g => s.groupView i g
      | none => none
    match v, s.phaseView i n, s.blockView k with
    | some x, _, _ => x
    | none, some x, _ => x
    | none, none, some x => x
    | none, none, none => s.obj k

/-! ### DOMAIN contents -/

def dtcBytes (d : Dtc) : List Byte :=
  leBytes 3 (d.code * 256) ++ leBytes 1 d.status ++ leBytes 1 d.count ++ leBytes 1 d.cls ++ leBytes 1 d.cycles ++ leBytes 1 0 ++
    leBytes 4 d.first ++ leBytes 4 d.last

/-- A DOMAIN's content (R433, R498, R510, R674, R731). An empty record slot reads as zeros. -/
def State.domain (s : State) (k : Nat) : List Byte :=
  if k / 256 = 0x0801 then ((s.rec? (k % 256)).map FaultRec.bytes).getD (List.replicate 32 0#8)
  else if k = Obj.HZ_BASE then (List.range 44).flatMap fun i => leBytes 4 ((s.hzBase i).getD 0xFFFFFFFF)
  else if k = Obj.HZ_LOG then ((s.log.drop (s.obj Obj.HZ_LOG_SEL)).take 64).flatten
  else if k = Obj.DTC_TABLE then s.uds.dtcs.flatMap dtcBytes
  else if k = Obj.SEC_KEY_HASH then (if s.otpValid 3 then s.shadow 3 32 32 else List.replicate 32 0#8)
  else if k = Obj.TRIM_DATA then s.shadow 1 0 510
  else if k = Obj.CUST_DATA then s.shadow 4 8 502
  else if k = Obj.REC_DATA then ((s.archive[s.obj Obj.REC_SELECT]?).map Capture.bytes).getD []
  else []

/-! ### Who is served -/

/-- The master reaches the dictionary, or the always-on subset (R591, R613, R74). -/
def State.served (s : State) (m : Master) : Bool :=
  match m with
  | .S => !s.aon.por && (s.bringing || s.modeNow != 0)
  | .F => s.serving && s.variant == .A
  | _ => s.serving

/-- The always-on objects (R613). -/
def alwaysOn (k : Nat) : Bool :=
  [Obj.DEVICE_ID, Obj.VARIANT, Obj.UNIQUE_ID, Obj.MODE_STATE, Obj.MODE_TARGET, Obj.MODE_CAUSE, Obj.MODE_REQ_S, Obj.WAKE_CFG,
    Obj.RESET_CAUSE, Obj.VAUX_STATE, Obj.FAULT_SUMMARY, Obj.PACK_SOC].contains k

/-! ### Recording (R597, R616) -/

/-- The answer of an access. A non-zero code is recorded and counted. -/
def State.answerWith (s : State) (m : Master) (k code : Nat) (data : List Byte) : State :=
  let s := { s with srv := { s.srv with code := code, data := data } }
  if !s.serving then s
  else
    let s := s.tally Obj.OD_STATS_REQUESTS 0xFFFFFFFF
    if code = 0 then s
    else
      let s := s.tally Obj.OD_STATS_ERRORS 0xFFFFFFFF
      let s := if code = 7 then s.tally Obj.OD_STATS_LOCKED 0xFFFFFFFF else s
      s.set Obj.OD_LAST_ERROR (code * 2 ^ 24 + m.code * 2 ^ 20 + k)

/-! ### Reads -/

/-- The sub-indices of a whole-object read, where the object has one (R582). -/
def State.wholeSubs (s : State) (index : Nat) : Option (List Nat) :=
  let all := (Dict.area (index / 256)).filter fun r => r.index == index
  let listed := all.foldl (fun n r => n + (r.last + 1 - r.first)) 0
  let plain := all.all fun r => r.type != .domain && r.accH != .rc && r.accT != .rc
  let l := s.subs index
  if 2 ≤ listed && plain && !l.isEmpty then some l else none

/-- The master's access code lets it read a present key. A sequencer reads what some master reads. -/
def State.mayRead (s : State) (m : Master) (k : Nat) : Bool :=
  match s.row? k with
  | some r => if m == .Q then r.accH.reads || r.accS.reads || r.accT.reads || r.accF.reads else (r.access m).reads
  | none => s.isCount k

/-- The code of a read by the checks of R596. -/
def State.readCode (s : State) (m : Master) (k : Nat) : Nat :=
  if k % 256 = 0xFF then
    match s.wholeSubs (k / 256) with
    | none => 1
    | some l => if !l.all (fun n => s.mayRead m (k / 256 * 256 + n)) then 2 else if m == .S && !s.serving then 3 else 0
  else if (s.keyType k).isNone then 1
  else if !s.mayRead m k then 2
  else if m == .S && !s.serving && !alwaysOn k then 3
  else if k = Obj.CUST_DATA && !s.otpValid 4 then 6
  else 0

/-- The bytes of a present key. -/
def State.keyBytes (s : State) (k : Nat) : List Byte :=
  match (s.keyType k).bind ObjType.size with
  | some n => leBytes n (s.view k)
  | none => s.domain k

/-- The bytes of a read that succeeds. -/
def State.readBytes (s : State) (k : Nat) : List Byte :=
  if k % 256 = 0xFF then ((s.wholeSubs (k / 256)).getD []).flatMap fun n => s.keyBytes (k / 256 * 256 + n) else s.keyBytes k

/-- A clearing read of a record: READ, and the slot of an inactive record is freed (R511, R512). -/
def State.recRead (s : State) (n : Nat) : State :=
  match s.rec? n with
  | none => s
  | some r => (if r.active then s.putRec n { r with read := true } else s.dropRec n).haloUpdate

/-- What a clearing read does (R594). -/
def State.clearing (s : State) (m : Master) (k : Nat) : State :=
  if (s.row? k).elim true fun r => r.access m != .rc then s
  else if k = Obj.CHG_FAULTS then (if s.obj k = 0 then s else s.put k 0)
  else s.recRead (k % 256)

/-- A read of one key, whole: code, data, state. -/
def State.readKey (s : State) (m : Master) (k : Nat) : Nat × List Byte × State :=
  let c := s.readCode m k
  if c = 0 then
    let d := s.readBytes k
    (0, d, (s.clearing m k).answerWith m k 0 d)
  else (c, [], s.answerWith m k c [])

/-- Only a DOMAIN, or a whole object, is read by segments from a snapshot (R582, R590). -/
def State.segmented (s : State) (k : Nat) : Bool := k % 256 == 0xFF || s.keyType k == some .domain

/-- A master's snapshot of a key. -/
def State.snap? (s : State) (m : Master) (k : Nat) : Option (List Byte) :=
  (s.srv.snaps.find? fun x => x.who == m.code && x.key == k).map (·.data)

def State.dropSnap (s : State) (m : Master) (k : Nat) : State :=
  { s with srv := { s.srv with snaps := s.srv.snaps.filter fun x => !(x.who == m.code && x.key == k) } }

/-- A segment of at most `len` bytes from `ofs`: code, the object's length, data, state (R590). -/
def State.readSegment (s : State) (m : Master) (k ofs len : Nat) : Nat × Nat × List Byte × State :=
  let c := s.readCode m k
  if c != 0 then (c, 0, [], s.answerWith m k c [])
  else if ofs = 0 then
    let d := s.readBytes k
    let s := (s.dropSnap m k).clearing m k
    let s := if s.segmented k then { s with srv := { s.srv with snaps := s.srv.snaps ++ [{ who := m.code, key := k, data := d }] } } else s
    (0, d.length, d.take len, s.answerWith m k 0 (d.take len))
  else
    match s.snap? m k with
    | none => (6, 0, [], s.answerWith m k 6 [])
    | some d => (0, d.length, slice d ofs len, s.answerWith m k 0 (slice d ofs len))

/-! ### Writes -/

/-- The area's lock keeps the writer out (R602). -/
def State.lockedOut (s : State) (m : Master) (k v : Nat) : Bool :=
  let i := k / 256
  let h := s.obj (Obj.OD_LOCK (k / 65536 + 1))
  if m == .Q || i = 0x0101 || k = Obj.WD_CHECKIN || k = Obj.FAULT_ACK then false
  else if i = 0x0020 then
    let held := s.obj k
    if v = 0 then held != 0 && held != m.code else v == 1 && held == 3
  else h != 0 && h != m.code

/-- The master may write the key at all (ACCESS_DENIED). -/
def State.mayWrite (s : State) (m : Master) (k v : Nat) : Bool :=
  match s.row? k with
  | none => false
  | some r => (if m == .Q then qWrites r k else (r.access m).writes) && !(k / 256 == 0x0020 && v != 0 && v != m.code) &&
      !(k == Obj.WD_CHECKIN && s.wdCode m v == 2)

/-- The static range of a type and a row. -/
def rowHolds (r : ObjRow) (v : Nat) : Bool :=
  match r.type with
  | .i16 => true
  | .i32 => true
  | _ => decide (r.lo ≤ v) && decide (v ≤ r.hi)

/-- The checks that a DOMAIN's first segment and every other write share, to LOCKED. -/
def State.writeCodeA (s : State) (m : Master) (k v : Nat) (fits : Bool) : Nat :=
  if k % 256 = 0xFF || (s.keyType k).isNone then 1
  else if !s.mayWrite m k v then 2
  else if m == .S && !s.serving && !alwaysOn k then 3
  else if needsLevel k && s.obj Obj.DIAG_SECURITY != 0x11 then 4
  else if !fits then 5
  else if s.wrongState k v || (k == Obj.WD_CHECKIN && s.wdCode m v == 6) then 6
  else if s.lockedOut m k v then 7
  else 0

/-- The code of a write by the checks of R596. -/
def State.writeCode (s : State) (m : Master) (k : Nat) (d : List Byte) : Nat :=
  let v := leNat d
  let size := (s.keyType k).bind ObjType.size
  let c := s.writeCodeA m k v (size.elim true fun n => n == d.length)
  if c != 0 then c
  else if (s.row? k).elim false (fun r => rowHolds r (keptBits k v)) && s.valueOk m k (keptBits k v) then 0
  else 9

/-- What a refused write leaves: a refused TABLE_SWITCH reports result 3 (R688). -/
def State.refusedWrite (s : State) (k v code : Nat) : State :=
  if k = Obj.TABLE_SWITCH && code = 9 then s.set k (3 * 2 ^ 24 + v % 1024) else s

/-- A write of a key of fixed size: code and state. -/
def State.writeKey (s : State) (m : Master) (k : Nat) (d : List Byte) : Nat × State :=
  let c := s.writeCode m k d
  let v := leNat d
  (c, (if c = 0 then s.applyWrite m k (keptBits k v) else s.refusedWrite k v c).answerWith m k c [])

/-! ### DOMAIN writes (R589) -/

/-- A TABLE_LOAD transfer is complete (R686): its image is checked and stored. -/
def State.tableLoad (s : State) (d : List Byte) : Nat × State :=
  let (ok, s) := (s.set Obj.DOWNLOAD_STATE 2).storeImage s.idleBank d
  if ok then (0, if s.tabs.writing.isSome then s else s.set Obj.DOWNLOAD_STATE 3)
  else (9, (s.set Obj.DOWNLOAD_STATE 4).raise 0x14 3 (if 64 ≤ d.length then byteAt d 5 else 0))

/-- The code of an OTP_PROG write (R727, R728). -/
def State.otpProgCode (s : State) (d : List Byte) : Nat :=
  if d.length < 5 || 68 < d.length then 5
  else if byteAt d 0 ≤ 4 && !s.otpArea? (byteAt d 0) then 6
  else if !otpDataOk d then 9
  else 0

/-- A completed DOMAIN transfer takes effect whole. -/
def State.domainDone (s : State) (k : Nat) (d : List Byte) : Nat × State :=
  if k = Obj.TABLE_LOAD then s.tableLoad d
  else
    let c := s.otpProgCode d
    (c, if c = 0 then s.otpProgram d else s)

def State.transfer? (s : State) (k : Nat) : Option Transfer := s.srv.transfers.find? fun t => t.key == k

def State.putTransfer (s : State) (t : Transfer) : State :=
  { s with srv := { s.srv with transfers := (s.srv.transfers.filter fun x => x.key != t.key) ++ [t] } }

/-- The last segment is there: the checks again, then the object changes whole. -/
def State.transferEnd (s : State) (m : Master) (k : Nat) (d : List Byte) : Nat × State :=
  let s := { s with srv := { s.srv with transfers := s.srv.transfers.filter fun x => x.key != k } }
  let c := s.writeCodeA m k 0 true
  if c != 0 then
    (c, (if k = Obj.TABLE_LOAD then s.dropTransfer { who := m.code, key := k, data := d } else s).answerWith m k c [])
  else
    let (c, s) := s.domainDone k d
    (c, s.answerWith m k c [])

/-- A DOMAIN write segment: code and state. One out of sequence abandons the transfer. -/
def State.writeSegment (s : State) (m : Master) (k ofs : Nat) (last : Bool) (d : List Byte) : Nat × State :=
  if ofs = 0 then
    let c := s.writeCodeA m k 0 (s.keyType k == some .domain && d.length ≤ 4194304)
    let c := if c = 0 && (s.transfer? k).isSome then 8 else c
    if c != 0 then (c, s.answerWith m k c [])
    else
      let s := if k = Obj.TABLE_LOAD then s.set Obj.DOWNLOAD_STATE 1 else s
      if last then s.transferEnd m k d else (0, (s.putTransfer { who := m.code, key := k, data := d }).answerWith m k 0 [])
  else
    match s.transfer? k with
    | none => (6, s.answerWith m k 6 [])
    | some t =>
      if t.who != m.code || t.data.length != ofs || 4194304 < ofs + d.length then
        (6, (if t.who = m.code then s.dropTransfer t else s).answerWith m k 6 [])
      else if last then s.transferEnd m k (t.data ++ d)
      else (0, (s.putTransfer { t with data := t.data ++ d }).answerWith m k 0 [])

/-! ### The sequencers' writer (R595) -/

/-- A write by Q of a value in the object's own type. -/
def State.writeQ (s : State) (k v : Nat) : Nat × State :=
  let n := ((s.keyType k).bind ObjType.size).getD 4
  s.writeKey .Q k (leBytes n v)

end Sys2Proof.Machine
end

