-- ==== Sys2Proof/Machine/SeqOps.lean ====
section
/-!
DEFINITION. SeqOps.lean: the sequencers' tables (R693-R702): predicates, transitions, actions, the trap, starts and safe points.
-/
namespace Sys2Proof.Machine

def State.sq (s : State) (i : Nat) : Seq := s.seqs.getD i {}
def State.modSq (s : State) (i : Nat) (f : Seq → Seq) : State := { s with seqs := s.seqs.setIfInBounds i (f (s.sq i)) }

/-- The table kind whose section holds a sequencer (R678). -/
def seqKind (i : Nat) : Nat := if i = 1 then 2 else if i = 2 ∨ i = 3 then 7 else 1

/-- The block of a sequencer in the sections in use; empty without one. -/
def State.seqBlock (s : State) (i : Nat) : List Byte :=
  match s.tabs.sections.find? fun e => e.1 == seqKind i with
  | none => []
  | some e => ((sectionBlocks e.2).find? fun b => byteAt b 0 == i).getD []

/-! ### Predicates (R697) -/

/-- The object's value, extended to 32 bits, as an integer of its type; none on an access error. -/
def State.seqValue (s : State) (k : Nat) : Option Int :=
  if s.readCode .Q k != 0 then none
  else match s.keyType k with
    | some .i16 => some (ofCode 16 (s.view k))
    | some .i32 => some (ofCode 32 (s.view k))
    | some t => if seqType t then some (s.view k : Int) else none
    | none => none

/-- The objects compared as signed. -/
def State.seqSigned (s : State) (k : Nat) : Bool := s.keyType k == some .i16 || s.keyType k == some .i32

/-- A comparison of the table of R695. -/
def compareBy (cmp : Nat) (x v : Int) : Bool :=
  let a := toCode 32 x
  let m := toCode 32 v
  match cmp with
  | 0 => x == v
  | 1 => x != v
  | 2 => decide (x < v)
  | 3 => decide (x ≤ v)
  | 4 => decide (v < x)
  | 5 => decide (v ≤ x)
  | 6 => a &&& m == m
  | 7 => a &&& m != 0
  | 8 => a &&& m == 0
  | _ => false

/-- A predicate record of sequencer `i`. -/
def State.predHolds (s : State) (i : Nat) (r : List Byte) : Bool :=
  let v := leAt r 4 4
  if byteAt r 3 = 9 then decide (v ≤ s.obj (Obj.SEQ_STATE_TIME i))
  else match s.seqValue (recKey r) with
    | none => false
    | some x => compareBy (byteAt r 3) x (if s.seqSigned (recKey r) then ofCode 32 v else v)

/-- A predicate index; 0xFFFF is true. -/
def State.predAt (s : State) (i n : Nat) : Bool := n == 0xFFFF || s.predHolds i (blkPred (s.sq i).block n)

/-- A transition record is true. -/
def State.tranHolds (s : State) (i : Nat) (r : List Byte) : Bool :=
  (s.predAt i (leAt r 0 2) != bit (byteAt r 5) 0) && (s.predAt i (leAt r 2 2) != bit (byteAt r 5) 1)

/-- NEXT of the present state's first true transition. -/
def State.seqNext (s : State) (i : Nat) : Option Nat :=
  let b := (s.sq i).block
  let st := blkState b (s.sq i).state
  (((List.range (byteAt st 2)).map fun n => blkTran b (leAt st 0 2 + n)).find? (s.tranHolds i)).map fun r => byteAt r 4

/-! ### Actions (R699) -/

/-- A further refusal within the second counts in the record of the kind, once it exists. -/
def State.countRefusal (s : State) (i : Nat) : State :=
  if s.recs.any fun (e : Nat × FaultRec) => e.2.src == 0x1B && e.2.kind == 2 then
    { s with recs := s.recs.map fun (e : Nat × FaultRec) =>
        if e.2.src = 0x1B ∧ e.2.kind = 2 then (e.1, { e.2 with count := satInc 65535 e.2.count }) else e }
  else s.modSq i fun q => { q with refused := q.refused + 1 }

/-- SEQ_ACTION_REFUSED, at most once per second per sequencer (R704). -/
def State.seqRefused (s : State) (i : Nat) : State :=
  let q := s.sq i
  if q.refAt.elim true fun t => t + sec 1 ≤ s.now then
    (s.modSq i fun q => { q with refAt := some s.now }).raise 0x1B 2 (i * 256 + q.state)
  else s.countRefusal i

/-- A WRITE_REQ of a value to a remote node, or to every node (R376, R380). -/
def State.seqRemote (s : State) (i node k : Nat) (d : List Byte) : State :=
  let t := (s.fab.txn + 1) % 256
  let f : Frame := {
    node := node, obj := k / 256, src := s.nodeId, type := 0x12
    data := leBytes 1 t ++ leBytes 1 (k % 256) ++ leBytes 1 1 ++ leBytes 1 0 ++ leBytes 4 0 ++ d }
  let s := { s with fab := { s.fab with txn := t } }
  if node = 0xFF then s.fabBroadcast f
  else ({ s with fab := { s.fab with reqs := s.fab.reqs ++ [{ txn := t, frame := f, who := some i }] } } : State).fabSend f

/-- One action record. A NODE that is the node's own ID is a write by a fabric peer to itself. -/
def State.seqAct (s : State) (i : Nat) (r : List Byte) : State :=
  let k := recKey r
  let n := ((s.keyType k).bind ObjType.size).getD 4
  let d := leBytes n (leAt r 4 4)
  let node := byteAt r 3
  if node = 0 then
    let (c, s) := s.writeKey .Q k d
    if c = 0 then s else s.seqRefused i
  else if node = s.nodeId then
    let (c, s) := s.writeKey .F k d
    if c = 0 then s else s.seqRefused i
  else s.seqRemote i node k d

/-- A state is entered: timer at 0, its actions in record order (R698). -/
def State.seqEnter (s : State) (i st : Nat) : State :=
  let b := (s.sq i).block
  let r := blkState b st
  let s := ((s.modSq i fun q => { q with state := st }).set (Obj.SEQ_STATE i) st).set (Obj.SEQ_STATE_TIME i) 0
  ((List.range (byteAt r 5)).map fun n => blkAct b (leAt r 3 2 + n)).foldl (fun s a => s.seqAct i a) s

/-- SEQ_LOOP, at most once per second per sequencer. -/
def State.seqLoop (s : State) (i : Nat) : State :=
  let q := s.sq i
  if q.loopAt.elim true fun t => t + sec 1 ≤ s.now then
    (s.modSq i fun q => { q with loopAt := some s.now }).raise 0x1B 3 (i * 256 + q.state)
  else s

/-- Up to `fuel` transitions; then SEQ_LOOP where another is true. -/
def State.seqRun (s : State) (i : Nat) : Nat → State
  | 0 => if (s.seqNext i).isSome then s.seqLoop i else s
  | fuel + 1 =>
    match s.seqNext i with
    | none => s
    | some st => (s.seqEnter i st).seqRun i fuel

/-! ### Trap (R701, R702) -/

/-- One sequencer in its trap state. -/
def State.seqTrap1 (s : State) (i : Nat) : State :=
  let q := s.sq i
  let s := s.modSq i fun q => { q with trap := true }
  if q.stopped then s
  else
    let s := s.set (Obj.SEQ_MODE i) 2
    if q.block.isEmpty then s else s.seqEnter i (byteAt q.block 3)

/-- The TRAP reaction. -/
def State.seqTrap (s : State) : State := (List.range 5).foldl (fun s i => s.seqTrap1 i) s

/-! ### Starts -/

/-- A sequencer starts at INIT with its actions; with `stopped` its table stands (R694, R766). -/
def State.seqStart1 (s : State) (stopped : Bool) (i : Nat) : State :=
  let b := s.seqBlock i
  let s := s.modSq i fun q => { q with block := b, stopped := stopped, state := byteAt b 2, ran := false }
  let s := ((s.set (Obj.SEQ_STATE i) (byteAt b 2)).set (Obj.SEQ_STATE_TIME i) 0).set (Obj.SEQ_MODE i)
    (if stopped then 3 else if (s.sq i).trap then 2 else if b.isEmpty then 0 else 1)
  if stopped || b.isEmpty then s else s.seqEnter i (byteAt b 2)

/-- All sequencers start, SQ0 first. -/
def State.seqStart (s : State) (stopped : Bool) : State := (List.range 5).foldl (fun s i => s.seqStart1 stopped i) s

/-- A switch has changed the kind: its sequencers restart at the new INIT. -/
def State.seqRestart (s : State) (kind : Nat) : State :=
  (kindSeqs kind).foldl (fun s i => if (s.sq i).stopped then s else s.seqStart1 false i) s

/-- The sequencer stands in a state with SWITCH_OK, or has no table (R693). -/
def State.seqSwitchOk (s : State) (i : Nat) : Bool :=
  let q := s.sq i
  q.block.isEmpty || bit (byteAt (blkState q.block q.state) 6) 0

/-! ### Evaluation (R694, R698, R700-R702) -/

/-- One evaluation. `bad`: the state register fails its parity check. -/
def State.seqEvaluate (s : State) (i : Nat) (bad : Bool) : State :=
  if !s.serving then s
  else
    let q := s.sq i
    let s := s.modSq i fun q => { q with ran := true }
    if q.block.isEmpty || q.stopped then s
    else if bad || blkStates q.block ≤ q.state then (s.raise 0x1B 1 (i * 256 + q.state)).seqTrap1 i
    else
      let t := Obj.SEQ_STATE_TIME i
      let s := s.set t (min 0xFFFFFFFF (s.obj t + byteAt q.block 10))
      if q.trap then s else s.seqRun i 8

end Sys2Proof.Machine
end

