-- ==== Sys2Proof/Machine/UdsOps.lean ====
section
/-!
DEFINITION. UdsOps.lean: the diagnostic server's transport (R647-R651), its responses (R651, R653, R660), and answers that wait for a
commit, a flash write or the OTP.
-/
namespace Sys2Proof.Machine

/-- The server answers (R655, R10). -/
def State.udsUp (s : State) : Bool := s.serving && s.variant != .C && s.inMode [2, 3, 4, 5, 7]

def State.modU (s : State) (f : Uds → Uds) : State := { s with uds := f s.uds }

/-! ### Frames -/

/-- Frame lengths of a padded frame. -/
def padTo (n : Nat) : Nat := ([8, 12, 16, 20, 24, 32, 48, 64].find? fun x => n ≤ x).getD 64

/-- A frame on the response identifier, in the format of the request, padded with 0xCC (R648). -/
def State.udsEmit (s : State) (b : List Byte) : State :=
  s.canQueue .b { id := s.uds.ids.getD 2 0, fd := s.uds.fd, data := b ++ List.replicate (padTo b.length - b.length) 0xCC#8 }

/-- Data bytes of a single frame, of a first frame and of a consecutive frame. -/
def sfMax (fd : Bool) : Nat := if fd then 62 else 7
def ffData (fd : Bool) : Nat := if fd then 62 else 6
def cfData (fd : Bool) : Nat := if fd then 63 else 7

/-- A message goes out: a single frame, or a first frame whose rest waits for flow control. -/
def State.udsOut (s : State) (m : List Byte) : State :=
  let n := m.length
  let fd := s.uds.fd
  if n ≤ 7 then s.udsEmit (leBytes 1 n ++ m)
  else if n ≤ sfMax fd then s.udsEmit (leBytes 1 0 ++ leBytes 1 n ++ m)
  else
    (s.modU fun u => { u with tx := some (m.drop (ffData fd), 0, 0), allow := 0 }).udsEmit
      (beBytes 2 (0x1000 + n) ++ m.take (ffData fd))

/-- The next consecutive frame, while flow control allows one and the queue has room. -/
def State.udsPump (s : State) : State :=
  match s.uds.tx with
  | none => s
  | some (left, n, w) =>
    if s.uds.allow = 0 || 16 ≤ s.can.b.queue.length || s.now < s.uds.nextAt then s
    else
      let k := cfData s.uds.fd
      let s := s.udsEmit (leBytes 1 (0x20 + (n + 1) % 16) ++ left.take k)
      let rest := left.drop k
      s.modU fun u => { u with
        tx := if rest.isEmpty then none else some (rest, n + 1, w), allow := if rest.isEmpty then 0 else u.allow - 1
        nextAt := s.now + u.st }

/-- A response: kept whole and sent. -/
def State.udsSend (s : State) (m : List Byte) : State := (s.modU fun u => { u with resp := m }).udsOut m

/-- Negative responses that a functional request suppresses (R651). -/
def suppressed (nrc : Nat) : Bool := [0x11, 0x12, 0x31, 0x7E, 0x7F].contains nrc

def State.udsNegative (s : State) (func : Bool) (sid nrc : Nat) : State :=
  if func && suppressed nrc then s else s.udsSend (leBytes 1 0x7F ++ leBytes 1 sid ++ leBytes 1 nrc)

/-- NRC of an access code (R660). -/
def nrcOf : Nat → Nat
  | 0 => 0
  | 4 => 0x33
  | 5 => 0x13
  | 8 => 0x21
  | 3 => 0x22
  | 6 => 0x22
  | 7 => 0x22
  | _ => 0x31

/-! ### Answers that wait -/

/-- What the answer to a write of an object waits for: 1 the commit, 2 the image in flash, 3 the OTP; 0 nothing. -/
def slowKey (k : Nat) : Nat :=
  if k = Obj.OD_COMMIT ∨ k = Obj.OD_RESTORE ∨ k = Obj.DTC_CLEAR then 1
  else if k = Obj.TABLE_LOAD then 2
  else if k = Obj.OTP_PROG ∨ k = Obj.OTP_LOCK then 3
  else 0

/-- The thing waited for has not come yet. -/
def State.slow (s : State) (n : Nat) : Bool :=
  match n with
  | 1 => s.jrnl.inFlight.isSome
  | 2 => s.tabs.writing.isSome
  | 3 => s.otp.prog.isSome
  | _ => false

/-- A positive response, now or when what it waits for has come. `sup`: the suppress bit. -/
def State.udsPositive (s : State) (sup : Bool) (n : Nat) (m : List Byte) : State :=
  if s.slow n then s.modU fun u => { u with waiting := some (n, if sup then [] else m) }
  else if sup then s else s.udsSend m

/-- A held frame with the status that came out. -/
def withStatus (f : CanFrame) (code : Nat) : CanFrame :=
  if code = 0 then f else { f with data := overlay f.data 7 (leBytes 1 code) }

/-- The LIN access that waits for sort `n` has its answer. -/
def State.linRelease (s : State) (n code : Nat) : State :=
  match s.lin.held with
  | none => s
  | some (k, m) => if k = n then { s with lin := { s.lin with held := none, rsp := some (overlay m 1 (leBytes 1 code)) } } else s

/-- What answers of sort `n` wait for has come, with an access code: they go out (R612, R672, R686, R728). -/
def State.releaseHeld (s : State) (n code : Nat) : State :=
  if s.slow n then s
  else
    let l := (s.can.a.held.filter fun h => h.1 == n)
    let s := s.modCan .a fun c => { c with held := c.held.filter fun h => h.1 != n }
    let s := l.foldl (fun s h =>
      let f := withStatus h.2 code
      (s.canKeep (b2n (f.id == s.can.a.ids.getD 4 0)) (byteAt f.data 1) [f]).canQueue .a f) s
    let s := s.linRelease n code
    match s.uds.waiting with
    | none => s
    | some (k, m) =>
      if k != n then s
      else
        let s := s.modU fun u => { u with waiting := none }
        if m.isEmpty && code = 0 then s
        else if code = 0 then s.udsSend m
        else s.udsNegative false ((byteAt m 0 + 192) % 256) (nrcOf code)

/-! ### Security access (R633, R662) -/

/-- Level `n` is unlocked. -/
def State.unlocked (s : State) (n : Nat) : Bool := s.obj Obj.DIAG_SECURITY == 0x11 || s.obj Obj.DIAG_SECURITY == n

/-- A seed for a level: the NRC, the seed, the state. -/
def State.secSeed (s : State) (level : Nat) : Nat × List Byte × State :=
  if s.obj (Obj.OTP_STATE 4) = 3 then (0x22, [], s)
  else if s.obj Obj.SEC_DELAY != 0 then (0x37, [], s)
  else if s.unlocked level then (0, List.replicate 16 0#8, s.modU fun u => { u with seed := none })
  else
    let (v, s) := s.draw 120
    let seed := leBytes 15 v ++ leBytes 1 level
    (0, seed, s.modU fun u => { u with seed := some (level, seed) })

/-- A wrong key: the third in a row and every one after it start the delay. -/
def State.secWrong (s : State) : Nat × State :=
  let s := s.tally Obj.SEC_ATTEMPTS 255
  let n := s.obj Obj.SEC_ATTEMPTS
  if 3 ≤ n then
    (0x36, (({ s with aon := { s.aon with secEnd := s.now + sec 10 } } : State).set Obj.SEC_DELAY 10).raise 0x14 1 n) else (0x35, s)

/-- A key for a level: the NRC and the state. A seed serves one key. -/
def State.secKey (s : State) (level : Nat) (key : List Byte) : Nat × State :=
  match s.uds.seed with
  | none => (0x24, s)
  | some (n, seed) =>
    if n != level then (0x24, s)
    else
      let s := s.modU fun u => { u with seed := none }
      match s.cmacKey with
      | none => s.secWrong
      | some k =>
        if key == (Config.cmac k seed).take 8 then
          (0, (s.set Obj.SEC_ATTEMPTS 0).set Obj.DIAG_SECURITY (if s.obj Obj.DIAG_SECURITY = 0x11 then 0x11 else level))
        else s.secWrong

end Sys2Proof.Machine
end

