-- ==== Sys2Proof/Machine/DictCmds.lean ====
section
/-!
DEFINITION. DictCmds.lean: the commands of the object dictionary and the journal (R580-R612), and the port write, whose refusal
a master hears of (R111).
-/
namespace Sys2Proof.Machine

/-- A write of a key, whole: a DOMAIN in one segment. -/
def State.writeWhole (s : State) (m : Master) (k : Nat) (d : List Byte) : Nat × State :=
  if s.keyType k = some .domain then s.writeSegment m k 0 true d else s.writeKey m k d

/-- A master that does not reach the dictionary gets no answer (R591). -/
def State.asked (s : State) (m : Master) (f : State → State) : State := if s.served m then f s else s

def execObjectWrite (m : Master) (k : Nat) (d : List Byte) (s : State) : Host.Outcome State Fault Refusal :=
  .next (s.logged fun s => s.asked m fun s => (s.writeWhole m k d).2)

def execDomainWriteSegment (m : Master) (k ofs : Nat) (last : Bool) (d : List Byte) (s : State) : Host.Outcome State Fault Refusal :=
  .next (s.asked m fun s => (s.writeSegment m k ofs last d).2)

def execDomainReadSegment (m : Master) (k ofs len : Nat) (s : State) : Host.Outcome State Fault Refusal :=
  .next (s.asked m fun s => (s.readSegment m k ofs len).2.2.2)

def execDomainSnapshotExpiry (m : Master) (k : Nat) (s : State) : Host.Outcome State Fault Refusal := .next (s.dropSnap m k)

def execWholeObjectRead (m : Master) (index : Nat) (s : State) : Host.Outcome State Fault Refusal :=
  .next (s.asked m fun s => (s.readKey m (index * 256 + 0xFF)).2.2)

/-- OD_LOCK.sub, written by a master (R603). -/
def execOdLockWrite (m : Master) (sub v : Nat) (s : State) : Host.Outcome State Fault Refusal :=
  .next (s.logged fun s => s.asked m fun s => (s.writeKey m (0x0020 * 256 + sub) (leBytes 1 v)).2)

/-- A lock of H that was not renewed (R604). -/
def execOdLockLeaseExpiry (sub : Nat) (s : State) : Host.Outcome State Fault Refusal :=
  .next (if s.serving && 1 ≤ sub && sub ≤ 16 && s.obj (Obj.OD_LOCK sub) = 1 then s.set (Obj.OD_LOCK sub) 0 else s)

def execOdCommit (m : Master) (v : Nat) (s : State) : Host.Outcome State Fault Refusal :=
  .next (s.logged fun s => s.asked m fun s => (s.writeKey m Obj.OD_COMMIT (leBytes 1 v)).2)

/-- OD_COMMIT_DELAY, 1,536 entries or 600 s: the flash manager commits of its own (R606). -/
def execJournalCommit (s : State) : Host.Outcome State Fault Refusal := .next (if s.shellUp then s.commitStart else s)

/-- The record is in flash, or its program failed at a sector (R607, R609). -/
def execJournalCommitDone (ok : Bool) (sector : Nat) (s : State) : Host.Outcome State Fault Refusal :=
  .next (if s.shellUp then
    let again := s.jrnl.again
    ((s.commitDone ok sector).commitAgain (again && ok)).releaseHeld 1 0
  else s)

def execOdRestore (m : Master) (v : Nat) (s : State) : Host.Outcome State Fault Refusal :=
  .next (s.logged fun s => s.asked m fun s => (s.writeKey m Obj.OD_RESTORE (leBytes 1 v)).2)

/-! ### The handshake port (R110, R111) -/

/-- One transfer of a word. The master whose write of key `k` it carries out gets a refusal as the out-of-range error. -/
def State.portSend (s : State) (w : Nat) (src : Option (Master × Nat)) : State :=
  if !evenParity w then s.refuse (field w 31 26)
  else
    let t := s.portRaw w
    match src with
    | some (m, k) => if s.wordBad w then t.answerWith m k 9 [] else t
    | none => t

/-- `again`: the word as it arrives when the shell retries a parity refusal, which it does once. `src`: the master and the key of
the write that the word carries out. -/
def execPortLatchWrite (w again : Nat) (src : Option (Master × Nat)) (s : State) : Host.Outcome State Fault Refusal :=
  .next (s.logged fun s => if !s.portOpen then s
    else if evenParity w then s.portSend w src
    else (s.refuse (field w 31 26)).portSend again src)

end Sys2Proof.Machine
end

