-- ==== Sys2Proof/Machine/PowerPath.lean ====
section
/-!
DEFINITION. PowerPath.lean: the source, its disconnections and its classification (R25, R31, R76-R78, R184-R221), and GROUP_APPLY.
-/
namespace Sys2Proof.Machine

/-! ### Ride-through (R76-R78) -/

/-- SQ0 enters Ride-through. A Park entry stands until the return; an epoch pauses (R488). -/
def State.rideEnter (s : State) (cause : Nat) : State :=
  if !s.shellUp || s.bringing || s.obj Obj.TSD_STATE == 1 || s.mode.railOff || s.mode.park = 5 || s.aon.overcast || !s.inMode [2, 3, 5] then s
  else
    let s := if s.mode.park = 0 then s else { s with mode := { s.mode with park := 0, parkRestart := true } }
    s.setMode 4 cause

/-- The return to MODE_PREV; a Park entry starts again, a stored target is acted on (R77, R78, R63). -/
def State.rideReturn (s : State) : State :=
  if s.modeNow != 4 || !s.shellUp || s.obj Obj.TSD_STATE == 1 then s
  else
    let s := if s.obj Obj.MODE_PREV = 5 then s.toService 8 else s.setMode (s.obj Obj.MODE_PREV) 8
    let s := if s.mode.parkRestart then { s with mode := { s.mode with parkRestart := false } }.parkStart s.mode.parkCause else s
    if s.mode.stored then s.actStored else s

/-! ### Disconnections -/

/-- Objects in units of 0.1 V, from mV. -/
def dV (mv : Nat) : Nat := mv / 100

/-- The source is connected, DISC_GATE on or off for R31 or R122. -/
def State.connected (s : State) : Bool := s.core.disc || s.core.gateOff

/-- The source is disconnected by a drop or a dump from now on (R219). -/
def State.discFrom (s : State) : State := { s with src := { s.src with discAt := some (s.src.discAt.getD s.now) } }

/-- Sources exhausted at a bus voltage, with the shell or without it (R55, R83). -/
def State.exhaustedAny (s : State) (vbus : Int) : State := if s.shellUp then s.exhausted vbus else s.exhaustedStratus vbus

/-- The shell's part of a drop (3) or a load dump (4): state, counter, fault, Ride-through, and R55. `on`: DISC_GATE was on. -/
def State.lossShell (s : State) (st : Nat) (on : Bool) (vbus : Int) : State :=
  let s := s.classAbandon.srcState st
  let s := if st = 3 then s.count Obj.SRC_COUNT_DROPS 0xFFFFFFFF else s.count Obj.SRC_COUNT_DUMPS 0xFFFFFFFF
  let s := if st = 3 then { s with hour := { s.hour with drops := s.hour.drops + 1 } }
    else { s with hour := { s.hour with dumps := s.hour.dumps + 1 } }
  let s := (s.raise 6 (st + 1) (s.obj Obj.SRC_TYPE)).sourceLoss (st - 2)
  let s := if on then s.rideEnter (st + 3) else s
  s.probeAbandon.exhausted vbus

/-- A classification that carried no load is abandoned for a drop (3) or a dump (4) (R70, R196). Before step 2 the latches are
those of the UNKNOWN row. -/
def State.classCut (s : State) (st : Nat) : State :=
  let t := if s.src.cls = 1 then (s.rowLatches 5 (s.iinFor 5 (s.srcRow 5 10 2))).commitWords else s
  let t := t.classAbandon.discOff.srcState st
  { t with core := { t.core with dropped := t.core.dropped || st == 3, dumped := t.core.dumped || st == 4 } }

/-- The core's drop action: the input group pauses, DISC_GATE goes off (R38, R209). An over-rail source then waits for the drop's
qualification (R211). With DISC_GATE off, a fall of VBUS abandons a classification, one before step 2 below 6.0 V in bring-up
(R70, R196), or can leave no source (R55, R83). -/
def State.drop (s : State) (vbus : Nat) : State :=
  let s : State := { s with core := { s.core with busLow := true } }
  if s.connected || (s.core.overRail && !s.core.dropped && !s.core.dumped) then
    let on := s.core.disc
    let t := s.discOff.discFrom
    let t : State := { t with core := { t.core with dropped := true, rideFromOn := on } }
    if t.shellUp then t.lossShell 3 on vbus
    else ({ t with src := { t.src with missedDrops := t.src.missedDrops + 1 } } : State).exhaustedStratus vbus
  else if s.shellUp && (2 ≤ s.src.cls || (s.src.cls == 1 && s.bringing && vbus < 6000)) then s.classCut 3
  else s.exhaustedAny vbus

/-- The dump threshold in force, mV; 0 disables the trip. -/
def State.dumpAt (s : State) : Nat := 50 * field (s.word 11) 15 0

/-- The core's load-dump action. -/
def State.dump (s : State) (vbus : Nat) : State :=
  if s.dumpAt = 0 || s.core.dumped then s
  else if s.connected || s.core.dropped || s.core.overRail then
    let on := s.core.disc
    let t := s.discOff.discFrom
    let t : State := { t with core := { t.core with dumped := true, rideFromOn := t.core.rideFromOn || on } }
    if t.shellUp then t.lossShell 4 on vbus else { t with src := { t.src with missedDumps := t.src.missedDumps + 1 } }
  else if s.shellUp && 2 ≤ s.src.cls then s.classCut 4
  else s

def execVbusDrop (vbus : Nat) (s : State) : Host.Outcome State Fault Refusal := .next (s.logged fun s => s.drop vbus)

def execLoadDump (vbus : Nat) (s : State) : Host.Outcome State Fault Refusal := .next (s.logged fun s => s.dump vbus)

/-- An input phase below -2.0 A; `dropFirst`: the drop comparator tripped before (R206). -/
def execReverseCurrent (p : Fin 16) (dropFirst : Bool) (vbus : Nat) (s : State) : Host.Outcome State Fault Refusal :=
  .next (if s.core.disc && groupOf p == .input && (s.phasesOf .input).contains p.val then
    s.logged fun s => ((if dropFirst then s.ev 6 3 1 else (s.ev 6 3 1).coreRaise 6 9 p).drop vbus).ev 6 3 0
  else s)

/-- RT_LONGEST takes the longest disconnection (R219). -/
def State.longestNow (s : State) : State :=
  let n := s.src.discMax
  let s := { s with src := { s.src with discMax := 0 } }
  if s.obj Obj.SRC_COUNT_RT_LONGEST < n then s.put Obj.SRC_COUNT_RT_LONGEST n else s

/-- A disconnection ends. -/
def State.discTo (s : State) : State :=
  match s.src.discAt with
  | none => s
  | some t => { s with src := { s.src with discAt := none, discMax := max s.src.discMax (min 0xFFFFFFFF ((s.now - t) / 200000)) } }

/-- The source is CONNECTED: DISC_GATE on, the input group to start, Ride-through at its end (R211). -/
def State.srcConnect (s : State) (vbus vrail : Nat) : State :=
  let s := if s.core.disc then s.freeG .input 0 else s.discOn vbus vrail
  let s := s.discDone.discTo
  let s := { s with
    core := { s.core with dropped := false, dumped := false, rideFromOn := false, overRail := false, busLow := false }
    src := { s.src with missedDetach := false } }
  if s.shellUp then (s.srcState 2).longestNow.rideReturn else s

/-- The reconnect window: at or above RESUME and, with a DUMP, at or below DUMP_REC (R210). -/
def State.resumes (s : State) (vbus : Nat) : Bool :=
  50 * field (s.word 10) 15 0 ≤ vbus && (s.dumpAt == 0 || vbus ≤ 50 * s.word 12)

/-- The qualification, ms: DUMP_Q after a load dump, a dump during a drop included, else RESUME_Q (R210). -/
def State.qualify (s : State) : Nat := if s.core.dumped then field (s.word 11) 23 16 else field (s.word 10) 23 16

/-- A qualification has completed (R210, R211). A requested or due classification takes the reconnection's place. -/
def State.reconnect (s : State) (vbus vrail : Nat) : State :=
  if !(s.core.dropped || s.core.dumped) || s.src.cls != 0 || s.aon.por || s.obj Obj.TSD_STATE != 0 || s.convOff then s
  else if s.core.overRail then
    let t : State := { s with core := { s.core with dropped := false, dumped := false } }
    if t.shellUp then t.srcState 5 else t
  else if s.shellUp && (s.src.waiting || s.src.reclass) then
    ({ s with core := { s.core with dropped := false, dumped := false } } : State).classStart
  else s.srcConnect vbus vrail

/-- `held`: how long, in µs, VBUS has stayed in the window without a break since it was last outside, or since the last trip. -/
def execSourceReconnect (held vbus vrail : Nat) (s : State) : Host.Outcome State Fault Refusal :=
  .next (if s.resumes vbus && 1000 * s.qualify ≤ held then s.logged fun s => s.reconnect vbus vrail else s)

/-- VBUS above the setpoint by 1.00 V for 10 µs opens the FET (R25). After a drop or dump it is a second cause, which the source
state does not show (R221). -/
def State.overRailTrip (s : State) (vbus : Nat) : State :=
  if 50 * s.word 0 + 1000 < vbus && (s.connected || ((s.core.dropped || s.core.dumped) && !s.core.overRail)) then
    let only := s.connected
    let t := if only then s.discOff else s
    let t : State := { t with core := { t.core with overRail := true } }
    if t.shellUp then
      let t := if only then t.classAbandon.srcState 5 else t
      (t.count Obj.SRC_COUNT_OVER_RAIL 0xFFFFFFFF).raise 6 1 (dV vbus)
    else { t with src := { t.src with missedOver := t.src.missedOver + 1, missedOverV := dV vbus } }
  else s

def execOverRail (vbus : Nat) (s : State) : Host.Outcome State Fault Refusal := .next (s.logged fun s => s.overRailTrip vbus)

/-- VBUS below the setpoint for 10 ms ends R25; a pending drop or dump, or a classification, keeps the source as it is (R211). -/
def State.overRailEnd (s : State) (vbus vrail : Nat) : State :=
  let s := if s.core.overRail && s.busLow vbus && !s.core.dropped && !s.core.dumped then s.drop vbus else s
  if s.core.overRail && vbus < 50 * s.word 0 then
    let t : State := { s with core := { s.core with overRail := false } }
    if t.core.dropped || t.core.dumped || t.src.cls != 0 then t
    else if t.shellUp && (t.src.waiting || t.src.reclass) then t.classStart
    else t.srcConnect vbus vrail
  else s

def execOverRailReconnect (vbus vrail : Nat) (s : State) : Host.Outcome State Fault Refusal :=
  .next (s.logged fun s => s.overRailEnd vbus vrail)

/-- VBUS below 3.0 V for 100 ms: ABSENT, SRC_TYPE kept (R185, R212). A disconnection by a drop goes on (R219). -/
def State.detach (s : State) : State :=
  let s : State := { s with core := { s.core with busLow := true } }
  if s.shellUp then
    if s.obj Obj.SRC_STATE = 0 then s
    else
      let t := s.classAbandon.discOff
      let t : State := { t with
        core := { t.core with dropped := false, dumped := false, overRail := false }
        src := { t.src with waiting := false, reclass := t.src.reclass && t.bringing } }
      (t.srcState 0).exhausted 0
  else if s.strat.absent then ({ s with src := { s.src with missedDetach := true } } : State).exhaustedStratus 0
  else s

def execVbusDetach (s : State) : Host.Outcome State Fault Refusal := .next (s.logged State.detach)

/-- VRAIL within 2.0 V of VBUS: the turn-on is complete (R204). In a classification the group stays at Z for its step. -/
def execPrechargeComplete (s : State) : Host.Outcome State Fault Refusal :=
  .next (s.logged fun s => if s.core.precharge then
    let t : State := { s with core := { s.core with precharge := false } }
    if t.src.cls = 0 then t.discDone else t
  else s)

/-- The source is BLOCKED with DISC_GATE off; the shell's part waits for it. -/
def State.block (s : State) : State :=
  let t := s.classAbandon.discOff
  let t : State := { t with
    core := { t.core with dropped := false, dumped := false, overRail := false }
    src := { t.src with reclass := false, waiting := false, discAt := none } }
  if t.shellUp then t.srcState 6 else { t with src := { t.src with missedBlock := true } }

/-- A precharge that does not raise the rail by 1.0 V in 10 ms (R207). -/
def execDiscOpen (s : State) : Host.Outcome State Fault Refusal :=
  .next (if s.core.precharge then s.logged fun s => s.block.coreRaise 6 0x0A 0 else s)

/-- An input phase above +2.0 A for 100 µs with DISC_GATE off and the group at Z (R207). -/
def execDiscShort (p : Fin 16) (s : State) : Host.Outcome State Fault Refusal :=
  .next (if !s.aon.por && !s.core.disc && groupOf p == .input && (s.phasesOf .input).contains p.val then
    s.logged fun s => s.block.coreRaise 6 0x0B p
  else s)

/-! ### Classification (R186-R196) -/

def execSrcClassify (m : Master) (v : Nat) (s : State) : Host.Outcome State Fault Refusal :=
  .next (s.logged fun s => s.asked m fun s => (s.writeKey m Obj.SRC_CLASSIFY (leBytes 1 v)).2)

/-- An UNKNOWN result's report. -/
def State.srcUnknown (s : State) (reason : Nat) : State := (s.set Obj.SRC_MEAS_REASON reason).raise 6 6 reason

/-- V_OC above 60.0 V (R192). -/
def State.srcOver (s : State) (voc : Nat) : State :=
  let t := { s with src := { s.src with cls := 0 } }.set Obj.SRC_MEAS_SLOW 255
  (((t.set Obj.SRC_TYPE 5).srcUnknown 5).block).raise 6 7 (dV voc)

/-- Steps 2 and 3: the window test, the provisional row, DISC_GATE on (R188, R190). Skipped by a source that was CONNECTED. -/
def State.classWindow (s : State) (voc vrail : Nat) : State :=
  if s.src.cls != 1 || !s.shellUp then s
  else
    let rows := s.windowRows voc
    let t := ({ s with
      core := { s.core with busLow := s.busLow voc }
      src := { s.src with voc := voc, lastWindow := !rows.isEmpty, cls := 2 } } : State).set
      Obj.SRC_MEAS_V_OC (min 65535 (voc / 10))
    if t.src.fromConnected then { t with src := { t.src with window := true } }
    else if 60000 < voc then t.srcOver voc
    else
      let r := rows.headD 5
      let t := ({ t with src := { t.src with prov := r, window := !rows.isEmpty } } : State).rowLatches r (t.iinFor r (t.srcRow r 10 2))
      let t := t.commitWords
      if rows.isEmpty then t else t.discOn voc vrail

def execClassificationWindowTest (voc vrail : Nat) (s : State) : Host.Outcome State Fault Refusal :=
  .next (s.logged fun s => s.classWindow voc vrail)

/-- STEP_I in mA. -/
def State.stepMa (s : State) : Nat := 500 * byteAt s.srcBody 1

/-- Steps 4 and 5: V1, I1, and the step on the input group. It follows a precharge. -/
def execClassificationStepStart (v1 : Nat) (i1 : Int) (s : State) : Host.Outcome State Fault Refusal :=
  .next (if s.src.cls = 2 && s.shellUp && s.core.disc && !s.core.precharge && s.src.window then
    let t : State := { s with src := { s.src with cls := 3, v1 := v1, i1 := i1, stepOn := true } }
    let t := t.modG .input fun x => { x with step := t.stepMa }
    if t.src.fromConnected then t else t.freeG .input 8
  else s)

/-- Step 8; `cut`: the rail reached the setpoint during step 5 (R195). -/
def execClassificationStepEnd (cut : Bool) (s : State) : Host.Outcome State Fault Refusal :=
  .next (s.logged fun s => if s.src.cls = 3 then
    let t : State := { s with src := { s.src with cls := 4, stepCut := cut } }
    let t := t.modG .input fun x => { x with step := 0 }
    if t.src.fromConnected then t else t.stopG .input 8
  else s)

/-- S in 0.01, of V1, V2f and V2s, within 0 to 254 (DESIGN CHOICE, entry 186); the quotient by zero is open. -/
def State.slowIndex (s : State) (v1 v2f v2s : Nat) : Nat × State :=
  let d : Int := (v1 : Int) - v2f
  if d = 0 then s.draw 8
  else
    let q := roundDiv (((v2f : Int) - v2s) * 100 * (if d < 0 then -1 else 1)) d.natAbs
    ((clampI 0 254 q).toNat, s)

/-- The mean of the last eight periods, µs, newest first, where all lie within 10 % of it; 0 otherwise (R189). -/
def agreed (periods : List Nat) : Nat :=
  let l := periods.take 8
  let sum := l.foldl (· + ·) 0
  if l.length = 8 && l.all (fun p => decide (72 * sum ≤ 640 * p ∧ 640 * p ≤ 88 * sum)) then sum / 8 else 0

/-- Ripple is present: the amplitude, and eight periods that agree (R189). -/
def State.ripple (s : State) (pp : Nat) (periods : List Nat) : Bool := leAt s.srcBody 2 2 ≤ pp && agreed periods != 0

/-- The tracker's report, while the source is not ABSENT (R189). -/
def State.rippleReport (s : State) (pp : Nat) (periods : List Nat) : State :=
  if s.obj Obj.SRC_STATE = 0 then s
  else (s.set Obj.SRC_MEAS_RIPPLE_PP (min 65535 pp)).set Obj.SRC_MEAS_RIPPLE_PER
    (if s.ripple pp periods then min 65535 (agreed periods) else 0)

/-- A row qualifies (R191, item 5). `slow` is 255 and `rh` 0 where not measured. -/
def State.rowFits (s : State) (voc slow rh : Nat) (rip : Bool) (r : Nat) : Bool :=
  s.inWindow r voc && (s.rowRipple r == 0 || (s.rowRipple r == 1) == rip) && (s.srcRow r 6 1 == 255 || slow ≤ s.srcRow r 6 1) &&
    rh ≤ 1000 * s.srcRow r 8 2

/-- The row and the reason of R191, for V_OC in mV, a measured R_H in µΩ and S. -/
def State.classRow (s : State) (voc : Nat) (achieved rip : Bool) (slow rh : Nat) : Nat × Nat :=
  let err : Int := (s.src.v1 : Int) + s.src.i1 * rh / 1000000 - voc
  if (s.windowRows voc).isEmpty then (5, 1)
  else if !achieved then (5, 3)
  else if 1000 < err.natAbs then (5, 4)
  else match (s.windowRows voc).find? (s.rowFits voc slow rh rip) with
    | some r => (r, 0)
    | none => (5, 2)

/-- SRC_STATE after a result (R193). -/
def State.classEnd (s : State) (r vbus vrail : Nat) : State :=
  let dump := v50 (s.srcRow r 20 2)
  let on := s.src.fromConnected
  let off := fun (t : State) (st : Nat) (drop dump : Bool) =>
    let t := t.discOff
    ({ t with core := { t.core with dropped := drop, dumped := dump } } : State).srcState st
  if !s.rowInputEn r then s.block
  else if dump != 0 && dump < vbus then off s 4 false true
  else if s.core.overRail then off s 5 false false
  else if vbus < v50 (s.srcRow r 14 2) || (!on && vbus < v50 (s.srcRow r 16 2)) then off s 3 true false
  else s.srcConnect vbus vrail

/-- Step 10 on the means of steps 4, 6 and 7, the tracker's results and VBUS and IBUS as they stand (R190, R191, R193, R201). A negative
R_H is stored as 0: DESIGN CHOICE, entry 186. -/
def State.classResult (s : State) (i2 : Int) (v2f v2s pp : Nat) (periods : List Nat) (vbus : Nat) (ibus : Int) (vrail : Nat) : State :=
  if s.src.cls < 2 || s.src.cls == 3 || !s.shellUp then s
  else
    let di := i2 - s.src.i1
    let achieved := s.src.stepOn && !s.src.stepCut && 0 < di && decide (8 * (s.stepMa : Int) ≤ 10 * di)
    let rip := s.ripple pp periods
    let rh := if achieved then (s.src.v1 - v2f) * 1000000 / di.toNat else 0
    let (slow, s) := if achieved then s.slowIndex s.src.v1 v2f v2s else (255, s)
    let (r, why) := s.classRow s.src.voc achieved rip slow rh
    let s := (s.set Obj.SRC_MEAS_SLOW slow).rippleReport pp periods
    let s := if achieved then { s with src := { s.src with rh := rh } }.set Obj.SRC_MEAS_R_HARN (min 65535 (rh / 100)) else s
    let s := { s with src := { s.src with cls := 0, row := r, waiting := false, reclass := false, lastOk := false } }
    let s := (s.set Obj.SRC_TYPE r).set Obj.SRC_MEAS_REASON why
    let s := if r = 5 then s.raise 6 6 why else s
    let harn := s.iHarn vbus ibus
    let lim := s.iinLimit harn
    let s := (s.set Obj.SRC_MEAS_I_HARN harn).set Obj.IIN_LIMIT lim
    let s := ({ s with src := { s.src with iinWritten := lim } } : State).rowLatches r lim
    s.commitWords.classEnd r vbus vrail

def execClassificationResult (i2 : Int) (v2f v2s ripplePp : Nat) (periods : List Nat) (vbus : Nat) (ibus : Int) (vrail : Nat)
    (s : State) : Host.Outcome State Fault Refusal :=
  .next (s.logged fun s => s.classResult i2 v2f v2s ripplePp periods vbus ibus vrail)

/-- VBUS has lain inside an enabled window for 100 ms: an UNKNOWN source is classified afresh (R194). -/
def execReclassification (s : State) : Host.Outcome State Fault Refusal :=
  .next (if s.serving && s.modeNow != 6 && s.obj Obj.SRC_TYPE = 5 && s.src.cls == 0 && !([0, 1, 6].contains (s.obj Obj.SRC_STATE)) &&
      (!s.src.lastWindow || s.src.lastAt + sec (leAt s.srcBody 4 2) ≤ s.now) then
    s.logged fun s => ({ s with core := { s.core with dropped := false, dumped := false } } : State).classStart
  else s)

/-! ### The input limit (R201-R203) -/

/-- I_HARN and IIN_LIMIT from the present VBUS and IBUS; ILIM_IN follows a move of 0.5 A. -/
def State.iinUpdate (s : State) (vbus : Nat) (ibus : Int) : State :=
  if !s.serving || s.obj Obj.SRC_TYPE = 0 then s
  else
    let harn := s.iHarn vbus ibus
    let lim := s.iinLimit harn
    let s := (s.set Obj.SRC_MEAS_I_HARN harn).set Obj.IIN_LIMIT lim
    let s := if s.srcRow s.curRow 10 2 ≤ 2 * harn then { s with src := { s.src with harnessLow := false } } else s
    let moved := s.src.iinWritten + 5 ≤ lim || lim + 5 ≤ s.src.iinWritten
    if moved && s.src.cls = 0 then ({ s with src := { s.src with iinWritten := lim } } : State).portIfNew 1 lim else s

/-- The ripple tracker's report comes with it (R189). -/
def execIinLimitUpdate (vbus : Nat) (ibus : Int) (ripplePp : Nat) (periods : List Nat) (s : State) : Host.Outcome State Fault Refusal :=
  .next (s.logged fun s => (if s.serving then s.rippleReport ripplePp periods else s).iinUpdate vbus ibus)

/-- I_HARN below half the row's ILIM for 10 s (R203), once until it has recovered. -/
def execHarnessHigh (s : State) : Host.Outcome State Fault Refusal :=
  .next (if s.serving && s.obj Obj.SRC_TYPE != 0 && 2 * s.obj Obj.SRC_MEAS_I_HARN < s.srcRow s.curRow 10 2 && !s.src.harnessLow then
    ({ s with src := { s.src with harnessLow := true } } : State).raise 6 8 (s.obj Obj.SRC_MEAS_I_HARN)
  else s)

/-! ### Headroom, pass-through, stall, GROUP_APPLY -/

/-- Less than 2.0 V between the rail and a group's low side for 10 µs while it switches: the group to Z, DISC_GATE off (R31,
R205). -/
def execHeadroom (g : Group) (s : State) : Host.Outcome State Fault Refusal :=
  .next (if g != .input && s.hasGroup g && (s.phasesOf g).any s.switching && !bit (s.g g).stops 1 then
    let t := s.logged fun s => ((s.stopG g 1).gateOpen).coreRaise 6 2 g.num
    if t.shellUp then (match g with
      | .east => t.sendHard .east 9
      | .west => t.sendHard .west 9
      | _ => t)
    else t
  else s)

/-- Three boundaries below the minimum on-time: every active input phase is held at H (R94). -/
def execPassThroughEntry (s : State) : Host.Outcome State Fault Refusal :=
  .next (if s.core.disc && 3 ≤ (s.g .input).passRun && !(s.g .input).pass then
    s.logged fun s => (s.modG .input fun x => { x with pass := true }).passHold
  else s)

/-- No handshake activity for 500 ns: every driver at Z, the Overcast latch (R120). Not in Storage, Park or power-on reset. -/
def execCoreStall (s : State) : Host.Outcome State Fault Refusal :=
  .next (if s.aon.por || s.aon.buckOff || (s.inMode [0, 1] && !s.bringing) then s
  else s.logged fun s =>
    let t := s.groups.foldl (fun s g => s.stopG g 4) s
    (({ t with core := { t.core with stall := true } } : State).coreRaise 1 8 0).setOvercast)

def execGroupApply (m : Master) (v : Nat) (s : State) : Host.Outcome State Fault Refusal :=
  .next (s.logged fun s => s.asked m fun s => (s.writeKey m Obj.GROUP_APPLY (leBytes 1 v)).2)

end Sys2Proof.Machine
end

