-- ==== Sys2Proof/Machine/Envelope.lean ====
section
/-!
DEFINITION. Envelope.lean: the envelope port, the demand it queues and the grant frames (R222-R261).
-/
namespace Sys2Proof.Machine

def State.modE (s : State) (f : Env → Env) : State := { s with env := f s.env }

/-! ### Frames and rates (R223, R225, R227) -/

/-- Frame period of a rate code, ns. -/
def ratePeriod : Nat → Nat
  | 1 => 20833
  | 2 => 10417
  | 3 => 5208
  | _ => 0

/-- A measured period lies within 2 % of a rate's. -/
def nearRate (r period : Nat) : Bool := r != 0 && 98 * ratePeriod r ≤ 100 * period && 100 * period ≤ 102 * ratePeriod r

/-- The rate of the table that a period matches. -/
def rateOf (period : Nat) : Option Nat := [1, 2, 3].find? fun r => nearRate r period

/-- A frame is good. -/
def goodFrame (r edges period : Nat) : Bool := edges == 512 && nearRate r period

/-- The last on-time slot of a rate (R238). -/
def lastOnTime : Nat → Nat
  | 1 => 13
  | 2 => 11
  | 3 => 7
  | _ => 0

def State.envState (s : State) : Nat := s.obj Obj.ENV_STATE
def State.envRun (s : State) : Bool := s.shellUp && (s.envState == 1 || s.envState == 2)

/-- Entry to SEARCHING: the rate is fixed by ENV_CFG or to be detected. -/
def State.envSearch (s : State) : State :=
  (s.modE fun e => { e with rate := field e.cfg 11 10, seen := false, good := 0, periods := [], missing := 0 }).set Obj.ENV_STATE 1

/-- OFF: ENV_DOUT at high impedance (R228, R231). No frame start comes that would release feedforward, so it goes to 0; the queue
stands. DESIGN CHOICE, entry 183. -/
def State.envOff (s : State) : State :=
  ((s.modE fun e => { e with hiZ := true, dout := [], seen := false }).set Obj.ENV_STATE 0).allocate 0

/-- SEARCHING where the port is enabled, else OFF. -/
def State.envEnable (s : State) : State := if bit s.env.cfg 0 then s.envSearch else s.envOff

def State.envTally (s : State) (n : Nat) : State := s.tally (Obj.ENV_STATS_GOOD + n) 0xFFFFFFFF

/-- FRAME_BAD and SEQ_GAP, each at most once per second (R259). -/
def State.frameBad (s : State) (edges : Nat) : State :=
  if s.env.badAt.elim true fun t => t + sec 1 ≤ s.now then (s.modE fun e => { e with badAt := some s.now }).raise 0x19 1 (min 0xFFFF edges)
  else s.again 0x19 1

def State.seqGap (s : State) (seq : Nat) : State :=
  if s.env.gapAt.elim true fun t => t + sec 1 ≤ s.now then (s.modE fun e => { e with gapAt := some s.now }).raise 0x19 2 seq
  else s.again 0x19 2

/-- RATE_ERROR: the period in 10 ns. -/
def State.rateError (s : State) (period : Nat) : State := s.raise 0x19 4 (min 0xFFFF (period / 10))

/-- The content of the frame just ended is discarded (R225): the queue as it stood before it; its header is not used. -/
def State.dropContent (s : State) : State :=
  (s.modE fun e => { e with queue := e.back, hdr := none, late := e.lateBack, clips := e.clipsBack, limiter := e.limiterBack }).set Obj.DEMAND_NOW_LOOK s.env.look

/-- A bad frame is counted and reported. -/
def State.badCount (s : State) (edges : Nat) : State := ((s.modE fun e => { e with good := 0 }).envTally 1).frameBad edges

/-- The frame just ended is bad. -/
def State.badFrame (s : State) (edges : Nat) : State := s.dropContent.badCount edges

/-- The frame just ended is used: its SEQ is the last one, and its LOOK. -/
def State.useHeader (s : State) : State := s.modE fun e => { e with
  seq := match e.hdr with | some h => some (field h 31 16) | none => e.seq
  look := match e.hdr with | some h => field h 15 8 | none => e.look }

/-- The frame just ended is good; the fourth in a row makes the feed ACTIVE. -/
def State.goodOne (s : State) : State :=
  let s := (s.useHeader.modE fun e => { e with good := min 4 (e.good + 1) }).envTally 0
  if s.envState = 1 ∧ 4 ≤ s.env.good then s.set Obj.ENV_STATE 2 else s

/-- Rate detection over eight equal matches (R227). The detection periods are measured only. -/
def State.detect (s : State) (period : Nat) : State :=
  match rateOf period with
  | none => (s.modE fun e => { e with periods := [] }).rateError period
  | some r =>
    let l := (s.env.periods.filter fun p => nearRate r p) ++ [period]
    if 8 ≤ l.length then s.modE fun e => { e with rate := r, periods := [] } else s.modE fun e => { e with periods := l }

/-- A period in SEARCHING under the rate in force is an error: against a fixed RATE, or, with a detected one, where it matches no
rate of the table (R227). -/
def State.wrongPeriod (s : State) (period : Nat) : Bool :=
  if field s.env.cfg 11 10 = 0 then (rateOf period).isNone else !nearRate s.env.rate period

/-- The frame between two active FS edges is judged. Without a rate in force no frame is good (R225). -/
def State.judge (s : State) (edges period : Nat) : State :=
  let s := s.modE fun e => { e with period := period }
  if s.env.rate = 0 then (s.badFrame edges).detect period
  else
    let s := if s.envState = 1 ∧ s.wrongPeriod period then s.rateError period else s
    if goodFrame s.env.rate edges period then s.goodOne else s.badFrame edges

/-! ### A frame starts (R253, R238, R243, R260) -/

/-- Slots without a computation: GRANT 0 and DUR 0 under a valid check (R260). -/
def noGrant (l : List Nat) : List Nat := (l.headD 0 % 4096) :: ((l.drop 1) ++ List.replicate (15 - l.length) 0).take 14

/-- The grant frame goes out. -/
def State.transmit (s : State) : State :=
  let l := if s.env.done then s.env.next else noGrant s.env.next
  s.modE fun e => { e with
    dout := withCheck l (s.obj Obj.ENV_STATS_OVER), hiZ := e.silent, sent := some (field (l.headD 0) 31 20), done := false }

/-- The queue moves on by one frame; an entry leaves once its frame has passed. -/
def State.shiftFrame (s : State) : State :=
  let f := s.env.frame + 1
  let q := s.env.queue.clearWhere fun k => k / 16 < f
  (s.modE fun e => { e with frame := f, queue := q, back := q, hdr := none, lateBack := e.late, clipsBack := e.clips, limiterBack := e.limiter, slot := none }).demandNow

/-- A frame starts at the active FS edge, or at the timer's. -/
def State.newFrame (s : State) : State := s.shiftFrame.transmit.release

/-- PLAY_AUTO (R53). -/
def State.playAuto (s : State) : State :=
  if 4 ≤ s.env.present && s.obj Obj.PLAY_AUTO == 1 && s.modeNow == 2 && !s.bringing && s.shellUp && s.mode.park != 5 && s.obj Obj.TSD_STATE == 0 &&
      !([0, 1, 2].contains (s.obj Obj.MODE_TARGET)) then s.parkAbort.setMode 3 0x0F
  else s

/-- The edge's part that follows the state of the port: a pending ENV_CFG (R226), LOST to SEARCHING (R228). -/
def State.edgeState (s : State) : State :=
  if s.env.cfgPend then (s.modE fun e => { e with cfg := s.obj Obj.ENV_CFG, cfgPend := false }).envEnable
  else if s.envState = 3 then s.envSearch
  else s

/-- An ENV_BCLK edge is seen: an enabled port drives ENV_DOUT (R231). -/
def State.bclkSeen (s : State) : State :=
  s.modE fun e => { e with silent := false, hiZ := if e.silent && s.envState != 0 then false else e.hiZ }

/-- The frame that the edge ends is judged under the configuration that it ran with. -/
def State.frameEnd (s : State) (edges period : Nat) : State :=
  if s.envState = 0 then s
  else if s.env.seen && s.envState != 3 then s.judge edges period
  else s.dropContent

/-- An active FS edge with the shell running. -/
def State.fsEdge (s : State) (edges period : Nat) : State :=
  let s := if edges = 0 then s else s.bclkSeen
  let s := (s.frameEnd edges period).edgeState
  if s.envState = 0 then s
  else
    let near := s.env.present != 0 && 2 * period < 3 * max s.env.period 1
    (s.modE fun e => { e with seen := true, missing := 0, present := if near then min 4 (e.present + 1) else 1 }).newFrame.playAuto

/-- In Stratus every bit of ENV_DOUT is 0 from the first frame start (R251), in a bring-up that follows it too (DESIGN CHOICE, entry
187), while ENV_BCLK has edges (R231). The demand queue stands (DESIGN CHOICE, entry 190). -/
def State.fsEdgeAbsent (s : State) (edges : Nat) : State :=
  let s := if edges = 0 then s else s.bclkSeen
  if s.modeNow = 6 ∧ bit s.env.cfg 0 then s.modE fun e => { e with dout := List.replicate 16 0, hiZ := e.silent } else s

/-- `edges` and `period` (ns) were counted since the last active FS edge, or since the timer that stood in for one. -/
def execFrameStart (edges period : Nat) (s : State) : Host.Outcome State Fault Refusal :=
  .next (s.logged fun s => if s.shellUp then s.fsEdge edges period else s.fsEdgeAbsent edges)

/-- The timer stands in for a missing FS edge (R229), which counts as a bad frame. The frame that an FS edge began keeps its content,
late slots included (R261); one that the timer began has none. -/
def execFrameTimer (edges : Nat) (s : State) : Host.Outcome State Fault Refusal :=
  .next (s.logged fun s =>
    if s.shellUp && s.envState == 2 && s.env.missing < 4 then
      let t := if s.env.missing = 0 then s.useHeader else s.dropContent
      ((t.badCount edges).modE fun e => { e with missing := e.missing + 1, present := 0 }).newFrame
    else s)

/-- The grant last computed is capped at GRANT_CONT, and with it the frame that would carry it (R230). -/
def State.capGrant (s : State) : State :=
  let h := s.env.next.headD 0
  let g := min (field h 31 20) s.contUnits
  let next := if s.env.next.isEmpty then [] else (g * 2 ^ 20 + setBit (h % 2 ^ 20) 10 true) :: s.env.next.drop 1
  ((s.modE fun e => { e with next := next }).set Obj.GRANT_NOW_TOTAL (min (s.obj Obj.GRANT_NOW_TOTAL) s.contUnits)).set
    Obj.GRANT_NOW_STATUS (setBit (s.obj Obj.GRANT_NOW_STATUS) 10 true)

/-- No active FS edge for four frame periods: LOST (R228, R230). -/
def State.feedLost (s : State) : State :=
  let s := (s.modE fun e => { e with queue := [], back := [], hdr := none, present := 0 }).set Obj.ENV_STATE 3
  (((s.allocate 0).demandNow.capGrant).count Obj.ENV_STATS_LOSSES 0xFFFFFFFF).raise 0x19 3 0

def execFeedLost (s : State) : Host.Outcome State Fault Refusal :=
  .next (s.logged fun s => if s.shellUp && s.envState == 2 then s.feedLost else s)

/-- No ENV_BCLK edge for 1 µs: ENV_DOUT at high impedance (R231). -/
def execEnvDoutRelease (s : State) : Host.Outcome State Fault Refusal :=
  .next (s.modE fun e => { e with hiZ := true, silent := true, present := 0 })

/-! ### Demand (R232-R239) -/

/-- SEQ follows the last one used, or the sequence restarts. -/
def State.seqFollows (s : State) (h : Nat) : Bool :=
  bit h 1 || (match s.env.seq with | some n => field h 31 16 == (n + 1) % 65536 | none => true)

/-- The header of the present frame. -/
def State.header (s : State) (h : Nat) : State :=
  let s := if s.seqFollows h then s else (s.envTally 2).seqGap (field h 31 16)
  let s := if bit h 3 && !s.env.limiter then s.raise 0x19 8 (field h 31 16) else s
  (s.modE fun e => { e with hdr := some h, limiter := bit h 3 }).set Obj.DEMAND_NOW_LOOK (field h 15 8)

def execDemandHeader (w : BitVec 32) (s : State) : Host.Outcome State Fault Refusal :=
  let s := s.bclkSeen
  .next (if s.envRun && s.env.rate != 0 && s.env.seen then
    (s.modE fun e => { e with slot := some 0 }).header w.toNat
  else s)

/-- A demand slot of pair `p` under header `h`: MUTE clears the pair; a valid demand raises its entries (R236). A slot that carries a
demand, muted or not, is late after the last on-time slot (R239). -/
def State.slotDemand (s : State) (p h w : Nat) : State :=
  let valid := bit h 0 && bit w 0
  let s := if valid && lastOnTime s.env.rate < p then s.modE fun e => { e with late := e.late + 1 } else s
  if bit w 1 || bit h 2 then s.clearPair p
  else if valid then s.raiseEntries p (s.env.frame + field h 15 8) (field w 31 20) (max 1 (field w 19 12))
  else s

def execDemandSlot (p : Fin 16) (w : BitVec 32) (s : State) : Host.Outcome State Fault Refusal :=
  .next (s.logged fun s =>
    let s := s.bclkSeen
    let s := if p.val != 0 && s.envRun && s.env.seen then s.modE fun e => { e with
      slot := some (max p.val (e.slot.getD 0)), clips := if bit w.toNat 2 then e.clips + 1 else e.clips } else s
    match s.env.hdr with
    | some h => if s.envRun && s.env.rate != 0 && p.val != 0 then ((s.slotDemand p.val h w.toNat).demandNow).releaseIfNew else s
    | none => s)

/-! ### The grant (R238-R241, R250, R260) -/

/-- D(n) against the last grant sent, once, at the frame's computation (DESIGN CHOICE, entry 189): every frame above it is counted;
DEMAND_OVER opens a run of them. -/
def State.overDemand (s : State) : State :=
  let d := s.demandAt s.env.frame
  let big := match s.env.sent with | some g => decide (g < d) | none => false
  let t := s.modE fun e => { e with tooMuch := big }
  if big then
    let t := t.count Obj.ENV_STATS_OVER 0xFFFFFFFF
    if s.env.tooMuch then t else t.raise 0x19 5 (min 0xFFFF d)
  else t

def execGrantComputation (s : State) : Host.Outcome State Fault Refusal :=
  .next (if s.envRun && s.env.rate != 0 then s.overDemand.grantCompute else s)

/-- A computation that has not completed by the start of the next frame (R260): that frame carries no grant. -/
def State.grantLate (s : State) : State :=
  let l := noGrant s.env.next
  let seq := match s.env.hdr with | some h => field h 31 16 | none => s.env.seq.getD 0
  (s.modE fun e => { e with
    dout := withCheck l (s.obj Obj.ENV_STATS_OVER), sent := some 0, done := false }).raise 0x19 7 seq

def execGrantLate (s : State) : Host.Outcome State Fault Refusal := .next (if s.envRun then s.grantLate else s)

/-- ENV_CFG takes effect at the next active FS edge (R226). -/
def execEnvCfgWrite (m : Master) (v : Nat) (s : State) : Host.Outcome State Fault Refusal :=
  .next (s.logged fun s => s.asked m fun s => (s.writeKey m Obj.ENV_CFG (leBytes 2 v)).2)

end Sys2Proof.Machine
end

