-- ==== Sys2Proof/Machine/Measurement.lean ====
section
/-!
DEFINITION. Measurement.lean: the measurement scheduler, its consumers at a common trigger, self-calibration, and the squall recorder's
commands (R395-R440).
-/
namespace Sys2Proof.Machine

/-! ### Masks and periods (R404-R412) -/

/-- Channels of a converter that the variant has (R7). -/
def State.presentMask (s : State) (m : Nat) : Nat := if m = 0 ∧ s.variant = .C then 0x00FF else 0xFFFF

/-- The mandatory channels of a converter (R405). -/
def State.mandatory (s : State) (m : Nat) : Nat :=
  match m with
  | 0 => 2 ^ s.cells - 1
  | 1 => 3 + 4 * (if s.chgValid then s.chgAt 3 1 % 16 else 0)
  | 2 => if s.variant == .A then 0x03FF else 0x000F
  | _ => 0xFFFF

/-- The effective mask. -/
def State.effective (s : State) (m : Nat) : Nat := (s.obj (Obj.SCAN_MASK m) ||| s.mandatory m) &&& s.presentMask m

def State.inScan (s : State) (ch : Nat) : Bool := bit (s.obj (Obj.SCAN_EFFECTIVE (ch / 16))) (ch % 16)

/-- `n` periods of `p / q` ns under R412; none where one period exceeds 100 ms. -/
def lockedInt (n p q : Nat) : Option Nat :=
  if p = 0 ∨ 100000000 * q < p then none
  else
    let n := if n * p < 62500 * q then ceilDiv (62500 * q) p else if 100000000 * q < n * p then 100000000 * q / p else n
    some (n * p / q)

/-- T_int of a converter, ns (R408-R412). -/
def State.tInt (s : State) (m : Nat) : Nat :=
  let w := s.meas.ints.getD m 0x10
  let time := if field w 31 30 = 2 ∧ s.obj Obj.SRC_TYPE = 4 then 20000000 else 62500 * field w 15 0
  let n := field w 27 16
  if s.obj Obj.SCAN_STATE = 3 then 62500 * field s.meas.park 15 0
  else if s.meas.first then 1000000
  else match field w 31 30 with
    | 1 =>
      let g := (Group.ofNum? (field w 29 28)).getD .input
      if s.hasGroup g && (s.g g).freq != 0 && s.nEn g != 0 then (lockedInt n 10000000 (s.g g).freq).getD time else time
    | 2 =>
      let per := s.obj Obj.SRC_MEAS_RIPPLE_PER
      if per = 0 then time else (lockedInt n (1000 * per) 1).getD time
    | _ => time

/-- Channels in a mask. -/
def popCount (v : Nat) : Nat := ((List.range 16).filter (bit v)).length

/-- Expected duration of a converter's scan, µs; a refresh round appends a slot of 3.0 ms (R403, R421). -/
def State.scanTime (s : State) (m : Nat) : Nat :=
  popCount (s.obj (Obj.SCAN_EFFECTIVE m)) * (20000 + s.tInt m) / 1000 + (if s.meas.refresh.isSome then 3000 else 0)

/-- Converters with no channels count as finished (R404). -/
def State.emptyMasks (s : State) : Nat := (List.range 4).foldl (fun d m => d + b2n (s.obj (Obj.SCAN_EFFECTIVE m) == 0) * 2 ^ m) 0

/-- The converter that measures the terminal current of a phase's group (R395). -/
def convOf (p : Nat) : Nat := if groupOf p = .pack then 1 else 2

/-- A converter's slots start afresh, its first one `delay` ticks from now. -/
def Meas.restart (x : Meas) (m now delay : Nat) : Meas :=
  { x with
    next := x.next.set m 0, from_ := x.from_.set m (now + delay)
    live := (List.range 16).map fun p => if convOf p = m then 0 else x.live.getD p 0 }

/-- All four converters start a scan. -/
def State.slotsStart (s : State) (delay : Nat) : State :=
  { s with meas := (List.range 4).foldl (fun x m => x.restart m s.now delay) s.meas }

/-- The channel that a converter converts next: in ascending order, each once (R403). -/
def State.nextCh (s : State) (m : Nat) : Option Nat :=
  (List.range 16).find? fun i => s.meas.next.getD m 0 ≤ i && bit (s.obj (Obj.SCAN_EFFECTIVE m)) i

/-- The settings of the next common scan are taken (R406); a channel that leaves the mask has no result (R401). -/
def State.takeMasks (s : State) : State :=
  let s := (List.range 4).foldl (fun s m => s.set (Obj.SCAN_EFFECTIVE m) (s.effective m)) s
  let s := (List.range 64).foldl (fun s ch => if s.inScan ch then s else s.set (Obj.RESULTS ch) (noResult ch)) s
  { s.slotsStart (us 20) with meas := { (s.slotsStart (us 20)).meas with
    ints := (List.range 4).map fun m => s.obj (Obj.SCAN_INT m), start := s.recTime, done := s.emptyMasks } }

/-- Scanning starts (R408), in scan state 1, or 4 with no channels. -/
def State.measStart (s : State) : State :=
  let s := s.noResults.takeMasks
  ({ s with meas := { s.meas with first := true } }).set Obj.SCAN_STATE (if s.meas.done = 15 then 4 else 1)

/-! ### Slots (R398-R402, R420) -/

/-- A raw code with the channel's factors. -/
def State.corrected (s : State) (ch : Nat) (raw : Int) : Int :=
  clampI (-8388608) 8388607
    (roundDiv ((raw - ofCode 32 (s.obj (Obj.CAL_OFS ch))) * (s.obj (Obj.CAL_GAIN ch) : Nat)) 16777216)

/-- A result word. A saturated code always carries a flag; both flags never stand together. -/
def resultWord (ch : Nat) (code : Int) (ovr unr : Bool) : Nat :=
  let o := ovr || code == 8388607
  let u := (unr || code == -8388608) && !o
  2147483648 * b2n o + 1073741824 * b2n u + ch % 64 * 16777216 + toCode 24 code

/-- CELL_OV (R276, R301, R303): in NO_PACK and OFF only the bit is latched. -/
def State.cellOv (s : State) (k : Nat) : State :=
  if s.chgValid && s.cells != 0 && decide ((s.chgAt 16 2 : Int) ≤ s.cellMv k) then
    let again := bit (s.obj Obj.CHG_FAULTS) 8 && !bit s.chg.waived 8
    let t := if again then s else { (s.chgEvent 8 1 k 8) with chg := { s.chg with waived := setBit s.chg.waived 8 false } }
    if [0, 1, 8].contains (t.obj Obj.CHG_STATE) then t else t.chgFault
  else s

/-- What a block does at once with a new result: CELL_OV, the cells after the last one, the coulomb count. -/
def State.onResult (s : State) (ch dt : Nat) : State :=
  let n := s.cells
  if s.shellUp && ch < n then
    let t := s.cellOv (ch + 1)
    if ch + 1 = n then t.cellScan else t
  else if ch = 16 then s.coulomb dt
  else s

/-- The group and the full scale, mA, of a channel that measures a phase sum (R395). -/
def sumChannel : Nat → Option (Group × Nat)
  | 16 => some (.pack, 400000)
  | 33 => some (.input, 400000)
  | 37 => some (.east, 150000)
  | 39 => some (.west, 150000)
  | _ => none

/-- mV per A of GROUP_ISNS_GAIN. -/
def isnsGain (code : Nat) : Nat := if code = 0 then 5 else if code = 1 then 10 else 20

/-- The ticks for which the phase's converter has integrated; one, at the phase as it stands, for a slot of no duration. -/
def State.slotTicks (s : State) (p : Nat) : Nat := max 1 (s.now - s.meas.from_.getD (convOf p) 0)

/-- The ticks of the slot in which a phase counts: those in which it was not at Z (R397). -/
def State.liveTicks (s : State) (p : Nat) : Nat :=
  if s.now ≤ s.meas.from_.getD (convOf p) 0 then b2n (s.conducts p) else s.meas.live.getD p 0

/-- The code of a group's terminal current: the negated sum of its phases' ISNSn, µV, each less its ISNS_ZERO and scaled; a phase at Z
counts 0 while it is there (R397). A monitor that gives no level gives 0. -/
def State.phaseSum (s : State) (g : Group) (fs : Nat) (isns : List Int) : Int :=
  let sum := (s.phasesOf g).foldl (fun (a : Int) p =>
    a + (isns[p - baseOf g]?).elim 0 fun v => (s.liveTicks p : Int) * (v - ((1000 * (s.phase p).zero : Nat) : Int))) 0
  roundDiv (-sum * 7340032) (isnsGain (s.obj (Obj.GROUP_ISNS_GAIN (g.num + 1))) * fs * s.slotTicks (baseOf g))

/-- The converter's code before correction: `raw`, on top of the phase sum where the channel measures one. -/
def State.rawCode (s : State) (ch : Nat) (raw : Int) (isns : List Int) : Int :=
  match sumChannel ch with
  | some (g, fs) => s.phaseSum g fs isns + raw
  | none => raw

/-- A slot has ended: the converter's next channel settles. -/
def State.slotNext (s : State) (ch : Nat) : State :=
  { s with meas := { s.meas.restart (ch / 16) s.now (us 20) with next := s.meas.next.set (ch / 16) (ch % 16 + 1) } }

/-- The scheduler converts: it scans, or a Park check does between its gaps. -/
def State.scanningNow (s : State) : Bool :=
  s.obj Obj.SCAN_STATE == 1 || (s.obj Obj.SCAN_STATE == 3 && s.meas.left != 0 && decide (s.meas.gapEnd ≤ s.now))

/-- `isns`: the levels at ISNSn of the group's phases, µV, each averaged over the part of the integration in which its phase is not at Z;
`dt`: µs since the channel's last result. -/
def execSlotComplete (ch : Fin 64) (raw : Int) (isns : List Int) (ovr unr : Bool) (dt : Nat) (s : State) :
    Host.Outcome State Fault Refusal :=
  .next (s.logged fun s => if s.scanningNow && s.nextCh (ch.val / 16) == some (ch.val % 16) then
    ((s.set (Obj.RESULTS ch.val) (resultWord ch.val (s.corrected ch.val (s.rawCode ch.val raw isns)) ovr unr)).slotNext ch.val).onResult
      ch.val dt
  else s)

/-! ### The end of a converter's scan (R21, R202) -/

/-- Power in W of mV and mA. -/
def watts (v i : Int) : Int := roundDiv (v * i) 1000000

/-- POWER_FLOW (R21; a flow with an absent channel keeps its value), and the highest rail power of the last second (R282). -/
def State.powerFlow (s : State) : State :=
  let of := fun (k a b : Nat) (v i : Int) => if s.haveBoth a b then watts v i else ofCode 32 (s.obj k)
  let b := of Obj.POWER_FLOW_BUS 32 33 s.vbus s.ibus
  let p := of Obj.POWER_FLOW_PACK 17 16 s.vpack s.ipack
  let e := if s.variant == .A then of Obj.POWER_FLOW_LINK_E 36 37 (s.vlink .east) (s.ilink .east) else 0
  let w := if s.variant == .A then of Obj.POWER_FLOW_LINK_W 38 39 (s.vlink .west) (s.ilink .west) else 0
  let r := of Obj.POWER_FLOW_RAIL 34 35 s.vrail s.irail
  let s := ((s.setI Obj.POWER_FLOW_BUS 32 b).setI Obj.POWER_FLOW_PACK 32 p).setI Obj.POWER_FLOW_LINK_E 32 e
  let s := ((s.setI Obj.POWER_FLOW_LINK_W 32 w).setI Obj.POWER_FLOW_RAIL 32 r).setI Obj.POWER_FLOW_LOSS 32 (b + p + e + w - r)
  { s with chg := { s.chg with
    rail := (s.now, r) :: (s.chg.rail.filter fun (x : Nat × Int) => decide (s.now < x.1 + sec 1) && decide (r < x.2)) } }

/-- A kept estimate of R_H, µΩ. -/
def State.rhSet (s : State) (r : Nat) : State :=
  { s with src := { s.src with rh := r } }.set Obj.SRC_MEAS_R_HARN (min 65535 (r / 100))

/-- The refinement of R_H (R202). -/
def State.refine (s : State) : State :=
  let ok := s.shellUp && s.obj Obj.SRC_STATE == 2 && s.src.cls == 0 && !s.core.precharge &&
    !isFlagged (s.result 32) && !isFlagged (s.result 33)
  let di := s.ibus - s.src.lastI
  let dv := s.vbus - s.src.lastV
  let t : State := { s with src := { s.src with lastV := s.vbus.toNat, lastI := s.ibus, lastOk := ok } }
  if ok && s.src.lastOk && 5000 ≤ di.natAbs && ((0 < di) != (0 < dv)) then
    let r := dv.natAbs * 1000000 / di.natAbs
    let h := s.src.rh
    if h = 0 then (if 1000 ≤ r ∧ r ≤ 1000 * s.srcRow s.curRow 8 2 then t.rhSet r else t)
    else if h ≤ 2 * r ∧ r ≤ 2 * h then t.rhSet (((h : Int) + roundDiv ((r : Int) - h) 16).toNat)
    else t
  else t

/-- The last converter of a Park scan has finished: GAP with the converters off, then the next scan, until the check has no more
(R413). -/
def State.parkScanEnd (s : State) : State :=
  if s.obj Obj.SCAN_STATE = 3 ∧ s.meas.done = 15 then
    let gap := ms (field s.meas.park 23 16)
    let s := s.slotsStart (gap + us 370)
    { s with meas := { s.meas with left := s.meas.left - 1, gapEnd := s.now + gap, done := s.emptyMasks } }
  else s

/-- A converter has finished its scan in `time` µs: every slot of it is complete. -/
def execScanComplete (mc : Fin 4) (time : Nat) (s : State) : Host.Outcome State Fault Refusal :=
  .next (if s.scanningNow && !bit s.meas.done mc.val && (s.nextCh mc.val).isNone then
    let t : State := { s with meas := { s.meas with done := setBit s.meas.done mc.val true } }.set (Obj.SCAN_TIME mc.val) time
    if mc.val = 2 ∧ t.shellUp then t.powerFlow.flowWatch.refine else t.parkScanEnd
  else s)

/-- A converter that takes `elapsed` µs, more than twice its expected time plus 1 ms, is restarted (R439). -/
def execScanStall (mc : Fin 4) (elapsed : Nat) (s : State) : Host.Outcome State Fault Refusal :=
  .next (if s.scanningNow && !bit s.meas.done mc.val && 2 * s.scanTime mc.val + 1000 < elapsed then
    let s := (List.range 16).foldl (fun s i => s.set (Obj.RESULTS (16 * mc.val + i)) (noResult (16 * mc.val + i))) s
    let s := { s with meas := s.meas.restart mc.val s.now (us 370) }
    if s.aon.shell then s.raise 9 3 mc.val else s
  else s)

/-! ### Checks after every scan (R424, R439) -/

/-- A condition after three consecutive hits, cleared after ten without. -/
def Run.next (r : Run) (hit : Bool) : Run := { low := if hit then min 4 (r.low + 1) else 0, ok := if hit then 0 else min 11 (r.ok + 1) }

def State.refCheck (s : State) : State :=
  if isAbsent (s.result 60) then s else
  let v := s.read0 60 50000
  let r := s.meas.refRun.next (3000 < v.natAbs)
  let s := { s with meas := { s.meas with refRun := r } }
  if r.low = 3 then s.raise1 9 2 (toCode 16 (v / 10)) else if r.ok = 10 then s.clearK 9 2 else s

def State.senseCheck (s : State) (p : Port) : State :=
  if isAbsent (s.result (40 + p.num)) then s else
  let v := s.read0 (40 + p.num) 2500000
  let hit := 20000 < v.natAbs && s.lState p != 0
  let r := (match p with | .east => s.meas.dcE | .west => s.meas.dcW).next hit
  let s := { s with meas := match p with | .east => { s.meas with dcE := r } | .west => { s.meas with dcW := r } }
  if r.low = 3 then s.raiseC 9 6 p.num else if r.ok = 10 then s.clearI 9 6 p.num else s

/-- OVER_RANGE: a mandatory channel flagged in three consecutive scans. -/
def State.rangeCheck (s : State) : State :=
  (List.range 64).foldl (fun s ch =>
    let w := s.result ch
    if bit (s.mandatory (ch / 16)) (ch % 16) && s.inScan ch && isFlagged w && !isAbsent w then
      let n := min 4 (s.meas.flagged.read (fun _ => 0) ch + 1)
      let t : State := { s with meas := { s.meas with flagged := s.meas.flagged.write (fun _ => 0) ch n } }
      if n = 3 then t.raise 9 4 ch else t
    else { s with meas := { s.meas with flagged := s.meas.flagged.write (fun _ => 0) ch 0 } }) s

/-! ### Calibration (R416-R422) -/

/-- A factor outside R419's limits. -/
def factorBad (ofs : Int) (gain : Nat) : Bool := 36700 < ofs.natAbs || gain < 16441672 || 17112760 < gain

/-- The channel exists in the variant. -/
def State.hasChannel (s : State) (ch : Nat) : Bool := bit (s.presentMask (ch / 16)) (ch % 16)

/-- A channel's factors are taken, or rejected with CAL_FAIL. -/
def State.calFactor (s : State) (ch : Nat) (ofs : Int) (gain : Nat) : State :=
  if !s.hasChannel ch then s
  else if factorBad ofs gain then s.raise 9 1 ch
  else (s.put (Obj.CAL_OFS ch) (toCode 32 ofs)).put (Obj.CAL_GAIN ch) gain

/-- A pending calibration starts at the common trigger (R417, R418). -/
def State.calStart (s : State) : State :=
  let s := { s with meas := { s.meas with cal := 2, refresh := none } }
  let s := (s.set Obj.SCAN_STATE 2).set Obj.CAL_STATE 2
  let s := s.balOff
  if s.obj Obj.CHG_I_CMD = 0 then s else s.writeChg 0

/-- The measured factors of every channel, in channel order. -/
def State.calFactors (s : State) (l : List (Int × Nat)) : State :=
  (List.range 64).foldl (fun s ch => let f := l.getD ch (0, 16777216); s.calFactor ch f.1 f.2) s

/-- The factors are applied and committed; scanning resumes (R420). -/
def State.calEnd (s : State) (l : List (Int × Nat)) : State :=
  let bad := (List.range 64).any fun ch =>
    let f := l.getD ch (0, 16777216)
    s.hasChannel ch && factorBad f.1 f.2
  let s := ((s.calFactors l).put Obj.CAL_TEMP (s.obj Obj.TEMP_MAX)).set Obj.CAL_STATE (if bad then 4 else 3)
  let s := { s with thm := { s.thm with cal := s.thm.cal.ran s.now } }
  let s := { s with meas := { s.meas with cal := 0, restore := true, owed := !s.shellUp } }.takeMasks.set Obj.SCAN_STATE 1
  if s.shellUp then s.commitStart else s

def execSelfcalComplete (factors : List (Int × Nat)) (s : State) : Host.Outcome State Fault Refusal :=
  .next (if s.meas.cal = 2 then s.calEnd factors else s)

def execSelfcalCmd (m : Master) (v : Nat) (s : State) : Host.Outcome State Fault Refusal :=
  .next (s.logged fun s => s.asked m fun s => (s.writeKey m Obj.SELFCAL_CMD (leBytes 1 v)).2)

/-- The interval of the die band has passed (R421). -/
def execCalRefreshRound (s : State) : Host.Outcome State Fault Refusal :=
  .next (if 3 ≤ s.obj Obj.CAL_STATE && s.thm.cal.due s.now && s.meas.cal == 0 && s.meas.refresh.isNone && s.obj Obj.SCAN_STATE == 1 then
    { s with meas := { s.meas with refresh := some 0 } }
  else s)

/-- CAL_STATE, or, while a calibration runs, what it was before. -/
def State.calReached (s : State) : Nat := if s.obj Obj.CAL_STATE = 2 then s.meas.calWas else s.obj Obj.CAL_STATE

/-- 60 s after bring-up without a valid calibration, once per power-on (R422). -/
def execCalStale (s : State) : Host.Outcome State Fault Refusal :=
  .next (if s.shellUp && !s.bringing && s.calReached < 3 && !s.meas.staleSaid then
    { s with meas := { s.meas with staleSaid := true } }.raise 9 5 (s.obj Obj.CAL_STATE)
  else s)

/-! ### The common trigger (R404) -/

/-- What the scan observed beside its words. -/
def State.observe (s : State) (o : Obs) : State :=
  match o with
  | .path p dH => s.hzPath p.val dH
  | .packStep i0 i1 v0 v1 => s.hzPackStep i0 i1 v0 v1
  | .heat k before after dP => s.hzHeat k.val before after dP
  | .refresh .. => s

/-- The factor of a refresh round's slot, which the scheduler takes whether the shell runs or not (R421). -/
def State.refreshed (s : State) (o : Obs) : State :=
  match o, s.meas.refresh with
  | .refresh mc ofs gain, some i => s.calFactor (16 * mc.val + i) ofs gain
  | _, _ => s

/-- One scan of a refresh round is over; the next interval counts from the round's end (R440). -/
def State.refreshNext (s : State) : State :=
  match s.meas.refresh with
  | some i =>
    if i < 15 then { s with meas := { s.meas with refresh := some (i + 1) } }
    else { s with meas := { s.meas with refresh := none }, thm := { s.thm with cal := s.thm.cal.ran s.now } }
  | none => s

/-- A scan record in the ring (R427). -/
def State.scanRecord (s : State) : State :=
  if !s.recording then s
  else
    let r : ScanRec := {
      time := s.meas.start, count := s.obj Obj.SCAN_COUNT
      words := ((List.range 64).filter s.inScan).map s.result }
    { s with ring := { s.ring with scans := trimScans 524288 (r :: s.ring.scans) } }

/-- The present second's powers and charges over the period, µs, into the HOUR record (R496). -/
def State.hourScan (s : State) (period : Nat) : State :=
  let h := s.hour
  let rail := (ofCode 32 (s.obj Obj.POWER_FLOW_RAIL)).toNat
  let bus := (ofCode 32 (s.obj Obj.POWER_FLOW_BUS)).toNat
  let t := tempOf (s.obj Obj.TEMP_MAX)
  let g := (s.groups.filterMap s.stageT).foldl max h.sMax
  let p := tempOf (s.obj Obj.PACK_TEMP)
  { s with hour := { h with
    rail := h.rail + rail * period / 1000, bus := h.bus + bus * period / 1000
    dis := h.dis + s.ipack.toNat * period / 1000, chg := h.chg + (-s.ipack).toNat * period / 1000
    tMax := max h.tMax (t.getD h.tMax), sMax := g, pMax := max h.pMax (p.getD h.pMax), pMin := min h.pMin (p.getD h.pMin)
    socMin := min h.socMin (s.obj Obj.PACK_SOC), socMax := max h.socMax (s.obj Obj.PACK_SOC)
    spd := min h.spd (s.obj Obj.CORE_SPEED_INDEX)
    derated := h.derated + (if s.groups.any fun g => s.thm.f.get g < 1000000 then period / 1000 else 0) } }

/-- SUM_MISMATCH (R266). -/
def State.sumCheck (s : State) : State :=
  if s.obj Obj.PACK_STATE = 0 || s.cells == 0 || isAbsent (s.result 17) then s
  else
    let d : Int := (s.obj Obj.PACK_VSUM : Int) - s.vpack
    let r := s.chg.sumRun.next (decide (3 * s.vpack + 20000 < 100 * (d.natAbs : Int)))
    let s := { s with chg := { s.chg with sumRun := r } }
    if 3 ≤ r.low then { (s.chgCond 8 5 (min 65535 (d.natAbs / 10)) 12 true) with chg := { s.chg with sum := true } }
    else if r.ok = 10 then { (s.chgCond 8 5 0 12 false) with chg := { s.chg with sum := false } }
    else s

/-- The scans after a handover: presence first, then the stage goes on in the zone as it is now (R288). -/
def State.chgResume (s : State) : State := if s.chg.unseen then s.packSeen else s

/-- The charger's evaluation; after a calibration its command is restored. -/
def State.chargeScan (s : State) : State :=
  let r := s.meas.restore
  let s := { s.chgEvaluate with meas := { s.meas with restore := false } }
  if r && s.chgCommand != s.obj Obj.CHG_I_CMD then s.writeChg s.chgCommand else s

/-- A maintenance run ends where the charger has nothing left to do, and Park is entered again (R73); a target of its own ends it
too. -/
def State.maintEnd (s : State) : State :=
  if !s.mode.maint || s.bringing || s.modeNow = 4 || s.obj Obj.TSD_STATE == 1 then s
  else if s.modeNow != 2 || !([0, 1, 0xFF].contains (s.obj Obj.MODE_TARGET)) then { s with mode := { s.mode with maint := false } }
  else if s.mode.park = 0 && [0, 1, 7, 8].contains (s.obj Obj.CHG_STATE) then s.parkStart 5
  else s

/-- R55 on the scan's VBUS, once the pack's presence is known. -/
def State.scanExhausted (s : State) : State :=
  if (s.chg.known || s.cells == 0 || !s.chgValid) && !isAbsent (s.result 32) then s.exhausted s.vbus else s

/-- Every consumer of a common scan, with the shell running. -/
def State.consumers (s : State) (obs : List Obs) (period : Nat) : State :=
  let s := s.refCheck
  let s := if s.variant == .A then (s.senseCheck .east).senseCheck .west else s
  let s := s.rangeCheck.hzRef
  let s := (s.thermalEval).2
  let s := obs.foldl (fun s o => s.observe o) s
  let s := s.zoneUpdate.sumCheck.chgResume.chargeScan.maintEnd.scanExhausted
  if s.inMode [2, 3, 4, 5] && !s.bringing then s.hourScan period else s

/-- The common trigger: the scan that ended, then the one that starts. -/
def State.commonTrigger (s : State) (period : Nat) (obs : List Obs) : State :=
  let s := (s.set Obj.SCAN_PERIOD period).set Obj.SCAN_COUNT ((s.obj Obj.SCAN_COUNT + 1) % 2 ^ 32)
  let s := s.scanRecord
  let s := if s.shellUp then s.consumers obs period else s
  let s := State.refreshNext (obs.foldl (fun (t : State) o => t.refreshed o) s)
  let s := { s with meas := { s.meas with first := false } }
  if s.obj Obj.SCAN_STATE = 0 then s else if s.meas.cal = 1 then s.calStart else
    let s := s.takeMasks
    let s := s.set Obj.SCAN_STATE (if s.meas.done = 15 then 4 else 1)
    if s.shellUp then s.balFrame.linkPolicy else s

/-- `period`: µs since the last common trigger. -/
def execCommonTrigger (period : Nat) (obs : List Obs) (s : State) : Host.Outcome State Fault Refusal :=
  .next (s.logged fun s => if s.obj Obj.SCAN_STATE = 1 ∧ s.meas.done = 15 then s.commonTrigger period obs else s)

/-! ### The squall recorder (R428-R436) -/

def execRecTrigger (m : Master) (v : Nat) (s : State) : Host.Outcome State Fault Refusal :=
  .next (s.logged fun s => s.asked m fun s => (s.writeKey m Obj.REC_TRIGGER (leBytes 1 v)).2)

/-- T0 + 1.5 s. -/
def execCaptureWindowEnd (s : State) : Host.Outcome State Fault Refusal := .next (s.closeWindow false)

def execCaptureClosed (ok : Bool) (s : State) : Host.Outcome State Fault Refusal := .next (if s.shellUp && !s.flashHeld then s.closeCapture ok else s)

def execRecKeepWrite (m : Master) (v : Nat) (s : State) : Host.Outcome State Fault Refusal :=
  .next (s.logged fun s => s.asked m fun s => (s.writeKey m Obj.REC_KEEP (leBytes 1 v)).2)

end Sys2Proof.Machine
end

