-- ==== Sys2Proof/Machine/Charging.lean ====
section
/-!
DEFINITION. Charging.lean: the commands of the charger and the cell monitor (R262-R303).
-/
namespace Sys2Proof.Machine

/-! ### Presence (R265, R292, R293) -/

/-- The pack is declared present. The first declaration after power-on attaches no new pack. -/
def State.packFound (s : State) (absentMs : Nat) : State :=
  let t := s.set Obj.PACK_STATE 1
  let t := if s.chg.known && 1000 ≤ absentMs then t.newPack else t
  let t := ({ t with chg := { t.chg with known := true, unseen := false } }).cutoff
  if t.obj Obj.CHG_STATE = 1 ∧ !t.chg.lost then t.selectOrHold.chgWrite true else t

def execPackPresent (vpack absentMs : Nat) (s : State) : Host.Outcome State Fault Refusal :=
  .next (s.logged fun s => if s.shellUp && s.obj Obj.PACK_STATE == 0 && s.packThere vpack then s.packFound absentMs else s)

def execPackAbsent (vpack : Nat) (s : State) : Host.Outcome State Fault Refusal :=
  .next (s.logged fun s => if s.shellUp && s.cells != 0 && (s.obj Obj.PACK_STATE != 0 || s.chg.unseen) && vpack < 500 * s.cells then s.packRemoved vpack else s)

/-- What the shell does at a trip of the removal detector: both latches to 0, NO_PACK until a new pack. -/
def State.packLostShell (s : State) : State :=
  let t := ((s.chgBit 1).packGone.chgEnter 1 0).newCycle
  let t : State := { t with chg := { t.chg with lost := true } }
  (t.sourceLoss 5).exhaustedNow

/-- The removal detector trips while the pack group runs in the charge direction: the group to Z at once (R292). -/
def execPackLost (vpack : Nat) (s : State) : Host.Outcome State Fault Refusal :=
  .next (s.logged fun s =>
    if !(s.g .pack).deliver && s.chargeLimit != 0 && (s.g .pack).stops == 0 then
      let t := (s.stopG .pack 7).coreRaise 7 2 (decivolts vpack)
      if t.shellUp then t.packLostShell else t
    else s)

/-! ### Tests and timers -/

/-- The tap that fails the test (R267), 0 for none. Each entry, from CELL1 on: the largest movement of a cell next to the loaded tap and
the lowest cell, mV. -/
def badTap (taps : List (Nat × Int)) : Nat :=
  (taps.findIdx? fun x => 100 < x.1 || decide (x.2 < 500)).elim 0 (· + 1)

/-- The open-tap test ends: `tap` 0 for a pass, else the tap that failed. Balancing stands still for it. -/
def State.openTapEnd (s : State) (tap : Nat) : State :=
  let t := s.balOff
  if tap = 0 then
    { (t.chgCond 8 4 0 11 false) with chg := { t.chg with openTap := false } }
  else
    let t := t.chgCond 8 4 tap 11 true
    let t : State := { t with chg := { t.chg with openTap := true } }
    if 3 ≤ t.obj Obj.CHG_STATE ∧ t.obj Obj.CHG_STATE ≤ 6 then (t.chgEnter 2 0).writeChg 0 else t

/-- The test has visited every tap; without a pack it is skipped (R303). -/
def execOpenTapTest (taps : List (Nat × Int)) (s : State) : Host.Outcome State Fault Refusal :=
  .next (s.logged fun s => if s.shellUp && !s.bringing && s.inMode [2, 3, 5] && s.obj Obj.PACK_STATE != 0 && s.meas.cal != 2 && taps.length == s.cells then
    s.openTapEnd (badTap taps)
  else s)

/-- 60 s at or below I_TERM with the CV loop the only limiting term (R278). -/
def execCvTermination (s : State) : Host.Outcome State Fault Refusal :=
  .next (if s.shellUp && s.obj Obj.CHG_STATE == 5 && !s.chgHeld && bit (s.obj Obj.CHG_CAUSE) 6 && field (s.obj Obj.CHG_CAUSE) 5 1 == 0 &&
      (s.reading 16 400000).elim false (fun i => decide (-i ≤ ((100 * s.zoneAt 38 2 : Nat) : Int))) then
    (s.chgEnter 6 0).chgWrite true
  else s)

/-- The safety timer has reached a limit (R289). -/
def State.timerOut (s : State) : Bool :=
  let n := 60 * s.zoneAt 42 2
  n ≤ s.obj Obj.SAFETY_PROGRESS || 3 * n ≤ s.obj Obj.SAFETY_WALL

/-- TOPOFF_T has elapsed (R275): DONE; towards the full target the state of charge is 100 % (R295). -/
def execTopoffEnd (s : State) : Host.Outcome State Fault Refusal :=
  .next (s.logged fun s => if s.shellUp && s.obj Obj.CHG_STATE == 6 && !s.chgHeld && !s.timerOut then
    let t := if s.targetSoc = 1000 then s.setSoc 1000 0 else s
    (t.chgEnter 7 0).writeChg 0
  else s)

/-- One second of the safety timer; `iavg` is the charge current averaged over it, mA (R289). -/
def State.safetyTick (s : State) (iavg : Nat) : State :=
  let st := s.obj Obj.CHG_STATE
  let stopped := s.chgHeld
  let prog := 100 * s.iProg
  let r := if stopped then 0
    else if st = s.chg.before ∧ (st = 3 ∨ st = 4) then (if prog = 0 then 1000 else min 1000 (iavg * 1000 / prog)) else 1000
  let n := s.chg.progress + r
  let t : State := { s with chg := { s.chg with
    progress := n, before := st, precond := if st = 3 ∧ !stopped then s.chg.precond + 1 else s.chg.precond } }
  let t := t.set Obj.SAFETY_PROGRESS (min 0xFFFFFFFF (n / 1000))
  if stopped then t else t.tally Obj.SAFETY_WALL 0xFFFFFFFF

def execSafetyTimerTick (iavg : Nat) (s : State) : Host.Outcome State Fault Refusal :=
  .next (if s.shellUp && 3 ≤ s.obj Obj.CHG_STATE && s.obj Obj.CHG_STATE ≤ 6 then s.safetyTick iavg
    else { s with chg := { s.chg with before := s.obj Obj.CHG_STATE } })

/-- The instance of TIMER_EXPIRED: the term that limited the current (R290), the first of this order where several did (DESIGN CHOICE,
entry 191). -/
def limitingTerm (cause : Nat) : Nat :=
  if bit cause 1 then 1 else if bit cause 5 then 2 else if bit cause 4 then 3 else if bit cause 2 then 4 else 0

def execTimerExpired (s : State) : Host.Outcome State Fault Refusal :=
  .next (s.logged fun s => if s.shellUp && 3 ≤ s.obj Obj.CHG_STATE && s.obj Obj.CHG_STATE ≤ 6 && s.timerOut then
    (s.chgEvent 7 1 (limitingTerm (s.obj Obj.CHG_CAUSE)) 0).chgFault
  else s)

def execPrecondTimeout (s : State) : Host.Outcome State Fault Refusal :=
  .next (s.logged fun s => if s.shellUp && s.obj Obj.CHG_STATE == 3 && 60 * s.chgAt 24 2 ≤ s.chg.precond then
    (s.chgEvent 7 3 (toCode 16 s.vMin) 2).chgFault
  else s)

/-- A spread above IMB_LIMIT for 60 s in a resting pack (R300). -/
def execCellImbalance (s : State) : Host.Outcome State Fault Refusal :=
  .next (if s.shellUp && s.cells != 0 && s.chgValid && s.resting && decide ((s.chgAt 29 1 : Int) < s.vMax - s.vMin) then
    s.chgEvent 8 3 (s.vMax - s.vMin).toNat 10
  else s)

/-- The pack has rested for REST_T with the shell running. -/
def execOcvCorrection (s : State) : Host.Outcome State Fault Refusal :=
  .next (if s.shellUp && s.ocvOk then s.ocvCorrect else s)

/-! ### Objects -/

def execPackCellsWrite (m : Master) (v : Nat) (s : State) : Host.Outcome State Fault Refusal :=
  .next (s.logged fun s => s.asked m fun s => (s.writeKey m Obj.PACK_CELLS (leBytes 1 v)).2)

def execChgEnableWrite (m : Master) (v : Nat) (s : State) : Host.Outcome State Fault Refusal :=
  .next (s.logged fun s => s.asked m fun s => (s.writeKey m Obj.CHG_ENABLE (leBytes 1 v)).2)

def execChgServiceWrite (m : Master) (v : Nat) (s : State) : Host.Outcome State Fault Refusal :=
  .next (s.logged fun s => s.asked m fun s => (s.writeKey m Obj.CHG_SERVICE (leBytes 1 v)).2)

/-- A read of CHG_FAULTS; a master with rc access clears the bits it has read (R301). -/
def execChgFaultsRead (m : Master) (s : State) : Host.Outcome State Fault Refusal :=
  .next (s.asked m fun s => (s.readKey m Obj.CHG_FAULTS).2.2)

end Sys2Proof.Machine
end

