-- ==== Sys2Proof/Machine/Link.lean ====
section
/-!
DEFINITION. Link.lean: the energy-share ports: mating, connector health, the link messages and their timers (R304-R351).
-/
namespace Sys2Proof.Machine

/-- The port exists and the shell serves it. -/
def State.linkHere (s : State) : Bool := s.shellUp && s.variant == .A

/-- The shell answers OFFER and REQUEST from step 7 on, before the handover that follows a reset (R346). -/
def State.linkEarly (s : State) : Bool := s.variant == .A && !s.shellUp && s.bringing && s.serving

/-- The core holds a link in Stratus (R346). -/
def State.linkAlone (s : State) : Bool := s.variant == .A && s.strat.absent

/-! ### Mating (R308-R312) -/

def State.peerBit (s : State) (p : Port) (on : Bool) : State :=
  s.set (Obj.LINK_PEER (p.num + 1)) (setBit (s.obj (Obj.LINK_PEER (p.num + 1))) 7 on)

/-- The core measures on its own pilot (R307, R308). -/
def execPortMated (p : Port) (s : State) : Host.Outcome State Fault Refusal :=
  .next (s.logged fun s => if (s.pilot p).isSome && !(s.lp p).mated then
    let t := (s.modL p fun l => { l with mated := true, heard := false, burstOk := false }).ev 6 (10 + p.num) 0
    if t.shellUp && t.lState p == 1 then (t.linkZ p).setLink p 2 else t
  else s)

/-- The shell's part of an open port (R331, R350). -/
def State.pulled (s : State) (p : Port) : State :=
  let st := s.lState p
  if st < 2 then s
  else
    let t := s.linkStat p 4
    let t := if 5 ≤ st && st ≤ 8 then t.raise (linkSrc p) 1 st else t
    if 5 ≤ st && st ≤ 9 then ((t.toDetached p).sourceLoss 3).exhaustedNow else t.toDetached p

/-- The core sets the group to Z at once; it needs no shell (R309). -/
def execPortOpen (p : Port) (s : State) : Host.Outcome State Fault Refusal :=
  .next (s.logged fun s =>
    if s.variant == .A && (s.lp p).mated then
      let t := ((s.modL p fun l => { l with mated := false, far := false, discharge := 0 }).linkZ p).ev 6 (10 + p.num) 1
      let t := if s.recording then t.mark (10 + p.num) s.stamp else t
      if t.shellUp then t.pulled p else t.modL p fun l => { l with opened := true }
    else s)

/-- The own LINK+ side is discharged into the rail at no more than 2.0 A (R312). -/
def execLinkSideDischarge (p : Port) (s : State) : Host.Outcome State Fault Refusal :=
  .next (s.logged fun s =>
    if s.linkHere && s.lState p == 1 && !(s.lp p).mated then (s.modL p fun l => { l with discharge := 1 }).linkRun p else s)

/-- The core detects the far pilot (R311). -/
def execFarPilotPresent (p : Port) (s : State) : Host.Outcome State Fault Refusal :=
  .next (s.logged fun s => if (s.pilot p).isSome && (s.lp p).mated then
    let t := (s.modL p fun l => { l with far := true }).peerBit p true
    if t.shellUp then t.sensedStep p else t
  else s)

def execPeerSilent (p : Port) (s : State) : Host.Outcome State Fault Refusal :=
  .next (if (s.pilot p).isSome && (s.lp p).mated then
    ((s.modL p fun l => { l with far := false }).peerBit p false).coreRaise (linkSrc p) 0x0B 0
  else s)

/-! ### Connector health (R313-R318) -/

/-- A burst starts; a deferred one does not (R313). -/
def execConnectorBurst (p : Port) (defer : Bool) (s : State) : Host.Outcome State Fault Refusal :=
  .next (if s.linkHere && s.lState p != 0 && !s.bringing && s.inMode [2, 3, 4, 5] && !defer then
    s.modL p fun l => { l with burst := if l.mated then 2 else 1 }
  else s)

/-- The class of a leakage in 0.01 µS (R316). -/
def moistClass (g : Nat) : Nat := if g < 200 then 0 else if g ≤ 2000 then 1 else 2

/-- The port's own moisture state after a burst: the first one sets it, two make it worse, ten make it better. -/
def LinkPort.moisten (l : LinkPort) (g : Nat) : LinkPort :=
  let c := moistClass g
  let l := { l with
    wetRun := if 1 ≤ c then min 2 (l.wetRun + 1) else 0, blockRun := if 2 ≤ c then min 2 (l.blockRun + 1) else 0
    dryRun := if g < 160 then min 10 (l.dryRun + 1) else 0, dampRun := if g < 1600 then min 10 (l.dampRun + 1) else 0 }
  let worse := if l.blockRun = 2 then 2 else if l.wetRun = 2 then 1 else 0
  let better := if l.dryRun = 10 then 0 else if l.dampRun = 10 then 1 else 2
  { l with moist := if l.moist = 3 then c else if l.moist < worse then worse else min l.moist better }

/-- SENSE_NET at the third burst out of range; a port held out ends its contract (R315). -/
def State.senseNet (s : State) (p : Port) (b : Nat) : State :=
  let l := s.lp p
  let ok := if l.mated then 1100 ≤ b && b ≤ 1420 else 550 ≤ b && b ≤ 710
  if ok then (s.modL p fun l => { l with netRun := 0, net := false }).clearK (linkSrc p) 0x0A
  else
    let s := s.modL p fun l => { l with netRun := min 3 (l.netRun + 1), net := l.net || 2 ≤ l.netRun }
    if l.netRun = 2 ∧ !l.net then
      let s := s.raise1 (linkSrc p) 0x0A (min 65535 b)
      if s.inContract p then (s.detachFree p 1).toRamp p else if s.lState p = 4 then s.toNeutral p else s
    else s

/-- CONNECTOR_WET and CONNECTOR_BLOCKED as the state moves. `g` in 0.01 µS. -/
def State.moistReport (s : State) (p : Port) (was g : Nat) : State :=
  let m := (s.lp p).moist
  if m = was then s
  else
    let s := if m = 1 then (s.raise1 (linkSrc p) 8 (g / 10)).linkStat p 6 else s.clearK (linkSrc p) 8
    if m = 2 then s.raise1 (linkSrc p) 9 (min 65535 (g / 10)) else s.clearK (linkSrc p) 9

/-- A complete burst: B in 0.1 µS, G in 0.01 µS (R314). -/
def State.burstDone (s : State) (p : Port) (b : Nat) (g : Int) : State :=
  let l := s.lp p
  let leak := (g - 40 * (if l.mated then 2 else 1)).toNat
  let s := (s.set (Obj.LINK_LEAK (p.num + 1)) (min 65535 leak)).set (Obj.LINK_SUSC (p.num + 1)) (min 65535 b)
  let k := Obj.LINK_LEAK_MAX (p.num + 1)
  let s := if s.obj k < min 65535 leak then s.put k (min 65535 leak) else s
  let s := if l.burst = 2 && l.mated then s.hzLeak p leak else s
  let s := s.modL p fun l => { (l.moisten leak) with burstOk := l.burstOk || (l.burst == 2 && l.mated), burst := 0 }
  ((s.moistReport p l.moist leak).senseNet p b).moistChange p true

def execConnectorBurstDone (p : Port) (b : Nat) (g : Int) (s : State) : Host.Outcome State Fault Refusal :=
  .next (s.logged fun s => if s.linkHere && (s.lp p).burst != 0 then
    let t := s.burstDone p b g
    { t with uds := { t.uds with testDone := t.uds.testDone || t.uds.testPort == p.num + 1 } }
  else s)

/-! ### Receiving (R324-R328) -/

/-- Messages that expect an answer (R325). -/
def expectsAnswer (m : Nat) : Bool := m == 1 || m == 2 || m == 6 || m == 9

/-- What every good message tells: the peer's node, its moisture state. -/
def State.peerSeen (s : State) (p : Port) (src : Nat) (pay : List Byte) : State :=
  let m := field (byteAt pay 3) 6 5
  let s := s.modL p fun l => { l with peerMoist := m }
  (s.set (Obj.LINK_PEER (p.num + 1)) (src % 256 * 256 + 128 * b2n (s.lp p).far + 32 * m)).moistChange p false

/-- REJECT with a reason, for a message that expects an answer. -/
def State.turnDown (s : State) (p : Port) (pay : List Byte) (reason : Nat) : State :=
  if expectsAnswer (byteAt pay 0) then s.reject p (byteAt pay 1) reason else s

/-- A message that the port handles. A repeated one gets the previous answer again, whatever its VER (R327, R328); one that crosses
the port's own HARD_RESET is ignored (R351). -/
def State.linkTake (s : State) (p : Port) (src : Nat) (pay : List Byte) (k : State → State) : State :=
  let good := byteAt pay 3 % 16 == 1
  let s := if good then s.peerSeen p src pay else s
  if (s.lp p).rxId = some (byteAt pay 1) then s.sendPay p (s.lp p).answer
  else if !good then s.reject p (byteAt pay 1) 5
  else if s.modeNow = 7 then s.turnDown p pay 0x0A
  else if (s.lp p).hardSent then s
  else k s

/-- A message on the port's pair, then what the message itself does. In bring-up before the handover OFFER and REQUEST are turned
down, and in Stratus a HARD_RESET is kept for the handover (R346, R351). -/
def State.linkRx (s : State) (p : Port) (src : Nat) (pay : List Byte) (k : State → State) : State :=
  if !s.linkHere && !s.linkEarly && !s.linkAlone then s
  else
    let (ok, s) := s.fabTake p 0x4C
    if !ok then s
    else if s.linkHere then s.linkTake p src pay k
    else
      let s := if byteAt pay 0 = 8 then s.modL p fun l => { l with hardHeld := some (byteAt pay 4) } else s
      if s.linkEarly && (byteAt pay 0 == 1 || byteAt pay 0 == 2) then s.turnDown p pay 0x0A else s

/-- The message answers the one that is awaited. -/
def State.answers (s : State) (p : Port) (pay : List Byte) : Bool :=
  match (s.lp p).await_ with
  | some m => byteAt m 1 == byteAt pay 2
  | none => false

/-! ### OFFER and REQUEST (R333, R344) -/

/-- The REQUEST that the policy makes of an offer's body: VOLT, CURR, SLEW. None where nothing fits the limits. -/
def State.requestOf (s : State) (p : Port) (o : List Byte) : Option (Nat × Nat × Nat) :=
  let hi := min (byteAt o 1) s.ceiling
  let lo := max 40 (byteAt o 0)
  let hi := if s.moist p = 1 then min hi 40 else hi
  let v := clampN lo hi (s.linkAt p 4)
  let i := s.currLimit p (min (s.linkAt p 6) (byteAt o 2))
  let sl := min (byteAt o 3) (s.slewLimit p)
  if lo ≤ hi && 1 ≤ i && 5 ≤ sl && s.moist p < 2 then some (v, i, sl) else none

/-- An OFFER in NEUTRAL. -/
def State.onOfferFree (s : State) (p : Port) (pay : List Byte) : State :=
  let id := byteAt pay 1
  let o := slice pay 4 7
  if s.obj Obj.TSD_STATE != 0 then s.reject p id 1
  else if !s.linkFree then s.reject p id 0x0A
  else if (s.lp p).net || !s.consEn p || 5 * s.linkAt p 8 ≤ s.obj Obj.PACK_SOC then s.reject p id 1
  else match s.requestOf p o with
    | none => s.reject p id 2
    | some (v, i, sl) =>
      ((s.answer p 2 id (leBytes 1 v ++ leBytes 1 i ++ leBytes 1 sl) true).modL p fun l => { l with offer := some o }).setLink p 4

/-- An OFFER: a thermal shutdown and the mode turn it down in every state (R346, R459); a contract under way is void first (R348). -/
def State.onOffer (s : State) (p : Port) (pay : List Byte) : State :=
  let st := s.lState p
  if st = 3 then s.onOfferFree p pay
  else if s.inContract p then (s.toNeutral p).onOfferFree p pay
  else if st = 4 && s.awaiting p == 1 then (if p = .east then s else (s.toNeutral p).onOfferFree p pay)
  else s.reject p (byteAt pay 1) (if s.obj Obj.TSD_STATE != 0 then 1 else if !s.linkFree then 0x0A else 5)

def execOffer (p : Port) (src : Nat) (pay : List Byte) (s : State) : Host.Outcome State Fault Refusal :=
  .next (s.logged fun s => s.linkRx p src pay fun s => s.onOffer p pay)

/-- T_TR in ms from VLINK in mV (R334). -/
def transitionTime (volt slew vlink : Nat) : Nat :=
  let d := ((500 * volt : Nat) : Int) - vlink
  ceilDiv (d.natAbs + 100 * slew) (100 * slew)

/-- The terms that answer a REQUEST, and T_TR; else the reason of the REJECT (R322, R333, R334). -/
def State.grantTermsOf (s : State) (p : Port) (volt curr slew vlink : Nat) : Terms × Nat × Nat :=
  let o := (s.lp p).offer.getD (leBytes 1 (s.linkAt p 2) ++ leBytes 1 (s.linkAt p 3) ++ leBytes 1 (s.linkAt p 5) ++ leBytes 1 (s.slewLimit p))
  let i := s.currLimit p curr
  let sl := min slew (s.slewLimit p)
  let t : Terms := { volt := volt, curr := i, slew := sl, prov := true }
  if volt < max 40 (byteAt o 0) || min (byteAt o 1) s.ceiling < volt || byteAt o 2 < curr || byteAt o 3 < slew || i = 0 || sl < 5 then (t, 0, 2)
  else if s.moist p = 2 || (s.moist p = 1 && volt != 40) then (t, 0, 4)
  else if 25 < transitionTime volt sl vlink then (t, 0, 3)
  else (t, transitionTime volt sl vlink, 0)

/-- The CURR that an ACCEPT leaves in force: a lower one holds at once, a higher one waits for READY (R337). -/
def State.currAccepted (s : State) (p : Port) (curr : Nat) : Nat := if s.currNow p = 0 then curr else min (s.currNow p) curr

/-- The Provider accepts: TRANSITION, its slew starts with the ACCEPT, from the present VLINK (R333, R335-R337). Its latch holds the
contract from then on, since a Provider's word has no CURR of 0 (R110). -/
def State.acceptRequest (s : State) (p : Port) (id : Nat) (t : Terms) (ttr vlink : Nat) : State :=
  let curr := s.currAccepted p t.curr
  let s := if s.awaiting p = 1 then s.answered p else s
  let s := s.answer p 3 id (leBytes 1 t.volt ++ leBytes 1 t.curr ++ leBytes 1 t.slew ++ leBytes 1 ttr) false
  let s := s.modL p fun l => { l with next := some t }
  let s := (s.setLink p 5).set (Obj.LINK_TARGET (p.num + 1)) t.volt
  let s := s.ordering.modG p.group fun x => { x with vref := 1000 * vlink }
  ((s.writeContract p t curr).setRole p t).linkRun p

/-- A REQUEST: the answer to an own OFFER, or a retarget (R336), which an own SWAP_REQ under way does not keep from its answer; an own
DETACH does (R351). A thermal shutdown and the mode turn it down in every state (R346, R459). -/
def State.onRequest (s : State) (p : Port) (pay : List Byte) (vlink : Nat) : State :=
  let id := byteAt pay 1
  let st := s.lState p
  let first := st == 4 && s.awaiting p == 1 && s.answers p pay
  let re := (st == 5 || st == 6) && (((s.lp p).next.getD (s.lp p).now).prov) && s.awaiting p != 9
  let (t, ttr, bad) := s.grantTermsOf p (byteAt pay 4) (byteAt pay 5) (byteAt pay 6) vlink
  let why :=
    if s.obj Obj.TSD_STATE != 0 then 1
    else if !s.linkFree then 0x0A
    else if !first && !re then 5
    else if (s.lp p).net then 1
    else bad
  if why = 0 then s.acceptRequest p id t ttr vlink
  else if first then (s.reject p id why).toNeutral p
  else s.reject p id why

/-- `vlink`: VLINK in mV as the port answers. -/
def execRequest (p : Port) (src : Nat) (pay : List Byte) (vlink : Nat) (s : State) : Host.Outcome State Fault Refusal :=
  .next (s.logged fun s => s.linkRx p src pay fun s => s.onRequest p pay vlink)

/-! ### ACCEPT, REJECT, READY -/

/-- The values of an ACCEPT stay within the REQUEST it answers and this end's own limits (R30, R317, R322, R333); none does in a thermal
shutdown (R459). -/
def State.acceptFits (s : State) (p : Port) (pay : List Byte) : Bool :=
  let v := byteAt pay 4
  let c := byteAt pay 5
  let sl := byteAt pay 6
  let o := ((s.lp p).await_).getD []
  40 ≤ v && v ≤ byteAt o 4 && v ≤ s.ceiling && 1 ≤ c && c ≤ byteAt o 5 && c ≤ s.currLimit p c && 5 ≤ sl && sl ≤ byteAt o 6 &&
    sl ≤ s.obj Obj.LINK_SLEW && s.moistOk p v && !(s.lp p).net && s.obj Obj.TSD_STATE == 0

/-- The ACCEPT of a REQUEST: the Consumer's timer is armed; a lower CURR holds at once (R333, R337). -/
def State.requestAccepted (s : State) (p : Port) (pay : List Byte) : State :=
  let was := (s.lp p).now
  let curr := min (s.currNow p) (byteAt pay 5)
  let t : Terms := { volt := byteAt pay 4, curr := byteAt pay 5, slew := byteAt pay 6, prov := false }
  let s := (s.answered p).modL p fun l => { l with next := some t, timer := true }
  let s := ((s.setLink p 5).set (Obj.LINK_TARGET (p.num + 1)) t.volt).ordering
  let s := s.setRole p t
  if was.volt = 0 then s else s.writeContract p was curr

def State.onAccept (s : State) (p : Port) (pay : List Byte) : State :=
  if !s.answers p pay then s
  else if s.awaiting p = 2 then
    if !([4, 5, 6].contains (s.lState p)) then s.answered p
    -- a port never accepts a value that breaks a limit (R322): such an ACCEPT is no answer
    else if s.acceptFits p pay then s.requestAccepted p pay else s
  else if s.awaiting p = 9 then
    let t := (s.answered p).modL p fun l => { l with leaving := false }
    if t.lState p = 6 then t.toRamp p else t
  else s

def execAccept (p : Port) (src : Nat) (pay : List Byte) (s : State) : Host.Outcome State Fault Refusal :=
  .next (s.logged fun s => s.linkRx p src pay fun s => s.onAccept p pay)

def execReject (p : Port) (src : Nat) (pay : List Byte) (s : State) : Host.Outcome State Fault Refusal :=
  .next (s.logged fun s => s.linkRx p src pay fun s =>
    if s.answers p pay then
      let t := ((s.answered p).modL p fun l => { l with leaving := false }).linkStat p 5
      if t.lState p = 4 then t.toNeutral p else t
    else s)

/-- CONTRACT is entered with the target in force (R330, R337). -/
def State.contractIn (s : State) (p : Port) : State :=
  match (s.lp p).next with
  | none => s
  | some t =>
    let fresh := (s.lp p).now.volt == 0
    let s := s.modL p fun l => { l with now := t, next := none, timer := false, dwellDone := false }
    let s := ((s.setLink p 6).set (Obj.LINK_TARGET (p.num + 1)) 0).setRole p t
    let s := ((s.writeContract p t t.curr).linkRun p).ordering
    if fresh then s.linkStat p 1 else s

/-- READY at the Consumer, in TRANSITION or after a swap's dwell. -/
def State.onReady (s : State) (p : Port) (pay : List Byte) : State :=
  let l := s.lp p
  let st := s.lState p
  match l.next with
  | none => s
  | some t => if !t.prov && byteAt pay 6 == t.volt && (st == 5 || (st == 7 && l.dwellDone)) then s.contractIn p else s

def execReady (p : Port) (src : Nat) (pay : List Byte) (s : State) : Host.Outcome State Fault Refusal :=
  .next (s.logged fun s => s.linkRx p src pay fun s => s.onReady p pay)

/-- VLINK, mV, lies within 2 % or 0.5 V of VOLT (R335). -/
def inBand (volt vlink : Nat) : Bool := (((500 * volt : Nat) : Int) - vlink).natAbs ≤ max 500 (10 * volt)

/-- The Provider's READY. -/
def State.sendReady (s : State) (p : Port) (vlink : Nat) : State :=
  let l := s.lp p
  let st := s.lState p
  match l.next with
  | none => s
  | some t =>
    if t.prov && inBand t.volt vlink && (st == 5 || (st == 7 && l.dwellDone)) then
      (s.sendMsg p 5 (leBytes 2 (vlink / 10) ++ leBytes 1 t.volt) false).contractIn p
    else s

def execSendReady (p : Port) (vlink : Nat) (s : State) : Host.Outcome State Fault Refusal :=
  .next (s.logged fun s => if s.linkHere then s.sendReady p vlink else s)

/-! ### Swap (R340-R342) -/

/-- CURR of a SWAP_ACK: the policy, the ceiling and the limits of the other role, the cable's moisture among them; 0 refuses
(R317, R340). -/
def State.swapCurr (s : State) (p : Port) : Nat :=
  let t := (s.lp p).now
  let soc := s.obj Obj.PACK_SOC
  let role := if t.prov then s.consEn p && decide (soc < 5 * s.linkAt p 8) else s.provEn p && decide (5 * s.linkAt p 7 ≤ soc)
  if s.swapEn p && role && s.linkFree && t.volt ≤ s.ceiling && s.moistOk p t.volt then s.currLimit p t.curr else 0

/-- Both groups ramp to 0 within 1 ms, and stand at Z for the dwell from then on (R341). -/
def State.swapStart (s : State) (p : Port) (curr : Nat) : State :=
  let t := (s.lp p).now
  let s := s.modL p fun l => { l with
    next := some { t with curr := min t.curr curr, prov := !t.prov }, dwellDone := false, timer := false
    ramp := some (s.now, ms 1) }
  (s.setLink p 7).set (Obj.LINK_TARGET (p.num + 1)) t.volt

def State.onSwapReq (s : State) (p : Port) (pay : List Byte) : State :=
  let id := byteAt pay 1
  let st := s.lState p
  let no := fun (s : State) => s.answer p 7 id (leBytes 1 0) false
  if st = 6 then
    if s.awaiting p = 6 && p == .east then s
    else if s.awaiting p != 0 && s.awaiting p != 6 then no s
    else
      let s := s.answered p
      let c := s.swapCurr p
      if c = 0 then no s else (s.answer p 7 id (leBytes 1 c) false).swapStart p c
  else if st = 5 ∨ st = 7 ∨ st = 9 then no s
  else s.reject p id 5

def execSwapReq (p : Port) (src : Nat) (pay : List Byte) (s : State) : Host.Outcome State Fault Refusal :=
  .next (s.logged fun s => s.linkRx p src pay fun s => s.onSwapReq p pay)

/-- The answer to an own SWAP_REQ. A CURR is taken down to this end's own limit, and one that no limit leaves room for is no answer
(R317, R322). -/
def State.onSwapAck (s : State) (p : Port) (pay : List Byte) : State :=
  let c := min (byteAt pay 4) (s.currLimit p (s.lp p).now.curr)
  if !(s.answers p pay && s.awaiting p == 6) then s
  else if byteAt pay 4 = 0 ∨ s.lState p ≠ 6 then s.answered p
  else if c = 0 ∨ !s.moistOk p (s.lp p).now.volt then s
  else (s.answered p).swapStart p c

def execSwapAck (p : Port) (src : Nat) (pay : List Byte) (s : State) : Host.Outcome State Fault Refusal :=
  .next (s.logged fun s => s.linkRx p src pay fun s => s.onSwapAck p pay)

/-- The dwell ends: the former Consumer starts as Provider, the new Consumer arms its timer (R341). -/
def execSwapDwellEnd (p : Port) (s : State) : Host.Outcome State Fault Refusal :=
  .next (s.logged fun s =>
    if s.linkHere && s.lState p == 7 && !(s.lp p).dwellDone then
      match (s.lp p).next with
      | none => s
      | some t =>
        let s := (s.linkZ p).modL p fun l => { l with dwellDone := true, timer := !t.prov, ramp := none }
        if t.prov then ((s.writeContract p t t.curr).setRole p t).linkRun p else (s.writeContract p {} 0).setRole p t
    else s)

/-! ### HARD_RESET, DETACH and the ends of states (R338, R339) -/

def execHardReset (p : Port) (src : Nat) (pay : List Byte) (s : State) : Host.Outcome State Fault Refusal :=
  .next (s.logged fun s => s.linkRx p src pay fun s => s.onHardReset p (byteAt pay 4))

/-- A DETACH is answered with ACCEPT; it decides over a crossing message of this end. -/
def State.onDetach (s : State) (p : Port) (pay : List Byte) : State :=
  let id := byteAt pay 1
  let t := (s.lp p).now
  if s.lState p = 6 then
    ((s.answer p 3 id (leBytes 1 t.volt ++ leBytes 1 t.curr ++ leBytes 1 t.slew ++ leBytes 1 0) false).answered p).toRamp p
  else s.reject p id 5

def execDetach (p : Port) (src : Nat) (pay : List Byte) (s : State) : Host.Outcome State Fault Refusal :=
  .next (s.logged fun s => s.linkRx p src pay fun s => s.onDetach p pay)

/-- 2.5 ms without an answer (R326). -/
def State.noResponse (s : State) (p : Port) : State :=
  let l := s.lp p
  match l.await_ with
  | none => s
  | some m =>
    if !l.again then (s.modL p fun l => { l with again := true }).sendPay p m
    else
      let s := (s.answered p).raise (linkSrc p) 2 (byteAt m 0)
      let s := s.modL p fun l => { l with leaving := false }
      if s.inContract p then s.sendHard p 6 else if s.lState p = 4 ∨ s.lState p = 9 then s.toNeutral p else s

def execNoResponse (p : Port) (s : State) : Host.Outcome State Fault Refusal :=
  .next (s.logged fun s => if s.linkHere then s.noResponse p else s)

def execTransitionTimeout (p : Port) (s : State) : Host.Outcome State Fault Refusal :=
  .next (s.logged fun s => if s.linkHere && (s.lp p).timer && (s.lState p == 5 || s.lState p == 7) then
    (s.raise (linkSrc p) 3 (s.obj (Obj.LINK_TARGET (p.num + 1)))).sendHard p 7
  else s)

/-- VLINK, mV, outside 0.90 to 1.10 × VOLT for 10 ms (R323). -/
def execContractVoltage (p : Port) (vlink : Nat) (s : State) : Host.Outcome State Fault Refusal :=
  .next (s.logged fun s => if s.linkHere && s.lState p == 6 &&
      (vlink < 450 * (s.lp p).now.volt || 550 * (s.lp p).now.volt < vlink) then
    (s.raise (linkSrc p) 4 (decivolts vlink)).sendHard p 8
  else s)

def execDataLost (p : Port) (s : State) : Host.Outcome State Fault Refusal :=
  .next (if s.linkHere && s.inContract p then (s.raise (linkSrc p) 0x0C (s.lState p)).toRamp p else s)

/-- VLINK below 5.0 V ends a discharge (R312, R338). -/
def execLinkDischargeDone (p : Port) (s : State) : Host.Outcome State Fault Refusal :=
  .next (s.logged fun s =>
    if s.linkHere && s.lState p == 8 then s.toNeutral p
    else if s.variant == .A && (s.lp p).discharge != 0 then (s.modL p fun l => { l with discharge := 0 }).linkZ p
    else s)

def execDischargeFail (p : Port) (vlink : Nat) (s : State) : Host.Outcome State Fault Refusal :=
  .next (if s.linkHere && s.lState p == 8 && 5000 ≤ vlink then s.raise (linkSrc p) 7 (decivolts vlink) else s)

def execRampDownComplete (p : Port) (s : State) : Host.Outcome State Fault Refusal :=
  .next (s.logged fun s => if s.linkHere && s.lState p == 9 then s.toNeutral p else s)

/-! ### The policy and LINK_CTRL (R344, R345) -/

/-- REOFFER in NEUTRAL; in CONTRACT the policy looks at the state of charge. -/
def execReoffer (p : Port) (s : State) : Host.Outcome State Fault Refusal :=
  .next (if s.linkHere && s.builtIn p then (s.sendOffer p).policyContract p else s)

/-- A write of LINK_CTRL. -/
def State.linkCtrlWrite (s : State) (m : Master) (p : Port) (v : Nat) : State :=
  s.asked m fun s => (s.writeKey m (Obj.LINK_CTRL (p.num + 1)) (leBytes 1 v)).2

def execLinkCtrlDetach (m : Master) (p : Port) (s : State) : Host.Outcome State Fault Refusal := .next (s.logged fun s => s.linkCtrlWrite m p 1)

def execLinkCtrlSwapReq (m : Master) (p : Port) (s : State) : Host.Outcome State Fault Refusal := .next (s.logged fun s => s.linkCtrlWrite m p 2)

def execLinkCtrlHardReset (m : Master) (p : Port) (s : State) : Host.Outcome State Fault Refusal := .next (s.logged fun s => s.linkCtrlWrite m p 3)

def execLinkCtrlApplyPolicy (m : Master) (p : Port) (s : State) : Host.Outcome State Fault Refusal := .next (s.logged fun s => s.linkCtrlWrite m p 4)

end Sys2Proof.Machine
end

