-- ==== Sys2Proof/Machine/Thermal.lean ====
section
/-!
DEFINITION. Thermal.lean: the thermal shutdown and its release (R458-R462). The thermal manager's evaluation stands in ThermalOps.lean.
-/
namespace Sys2Proof.Machine

/-- The comparators are powered (R458). -/
def State.tsdPowered (s : State) : Bool := !s.aon.por && (s.bringing || !s.inMode [0, 1])

/-- The shell's part of a trip: no feedforward, no charging, contracts end with DETACH (R459, R460). -/
def State.tripShell (s : State) (discWas : Bool) : State :=
  let s := s.allocate 0
  let s := if s.obj Obj.CHG_I_CMD = 0 then s else s.writeChg 0
  let s := if discWas then s.classAbandon.srcState 3 else s
  if s.variant == .A then
    [Port.east, Port.west].foldl (fun s p => if s.inContract p then (s.detachFree p 1).toRamp p else s) s
  else s

/-- THERMAL_REPEAT: two earlier trips within 600 s (R462). -/
def State.tripTimes (s : State) : State :=
  let near := s.cell.trips.filter fun t => s.now ≤ t + sec 600
  let t : State := { s with cell := { s.cell with trips := (s.now :: s.cell.trips).take 2 } }
  if 2 ≤ near.length then (t.coreRaise 0x0A 7 (near.length + 1)).setOvercast else t

/-- Every group at Z in the order of R459: the links, the input with DISC_GATE off, the pack. A source that was on is dropped. -/
def State.tsdStop (s : State) : State :=
  let t := if s.hasGroup .east then (s.stopG .east 3).stopG .west 3 else s
  let t := ((t.stopG .input 3).discOff).stopG .pack 3
  { t with core := { t.core with dropped := t.core.dropped || s.connected } }

/-- A qualified trip: link groups, input group with DISC_GATE, pack group (R459). In Stratus the link groups stay at Z after the
release, until the shell makes their ports Neutral (R461). -/
def State.tsdTrip (s : State) (site : Nat) : State :=
  let t := (((s.tsdStop.set Obj.TSD_STATE 1).ev 6 12 1).coreRaiseC 0x0A 6 site)
  let t := if t.shellUp then (t.count Obj.TSD_COUNT 0xFFFFFFFF).tripShell s.connected
    else { t with aon := { t.aon with tsdDue := t.aon.tsdDue + 1 } }
  let t := if t.shellUp then t else if t.variant == .A then (t.linkZ .east).linkZ .west else t
  t.tripTimes

def execThermalShutdown (site : Fin 8) (s : State) : Host.Outcome State Fault Refusal :=
  .next (s.logged fun s => if s.tsdPowered && s.obj Obj.TSD_STATE == 0 then s.tsdTrip site.val else s)

/-- Every site below 145 °C for 10 ms (R461): the link ports return to NEUTRAL, the input group waits for its reconnection, and a target
that came meanwhile is acted on, the mode having stood (R460). -/
def State.tsdRelease (s : State) : State :=
  let t := ((s.set Obj.TSD_STATE 0).ev 6 12 0).coreClearK 0x0A 6
  let t := t.groups.foldl (fun s g => s.freeG g 3) t
  let t := if t.shellUp && t.variant == .A then
      [Port.east, Port.west].foldl (fun s p => if s.inContract p || s.lState p == 9 then s.toNeutral p else s) t
    else t
  if t.mode.stored && t.shellUp && !t.bringing then t.actStored else t

def execThermalShutdownRelease (s : State) : Host.Outcome State Fault Refusal :=
  .next (s.logged fun s => if s.obj Obj.TSD_STATE = 1 ∧ !s.aon.overcast then s.tsdRelease else s)

end Sys2Proof.Machine
end

