-- ==== Sys2Proof/Machine/Horizon.lean ====
section
/-!
DEFINITION. Horizon.lean: the commands of the Horizon planner (R466-R500).
-/
namespace Sys2Proof.Machine

/-! ### Rounds and the probe (R470, R479-R481) -/

def execHzRoundClose (s : State) : Host.Outcome State Fault Refusal :=
  .next (if s.hzSampling && s.thm.age.due s.now then s.closeRound else s)

/-- The conditions of R479 hold. -/
def execHzProbeStart (s : State) : Host.Outcome State Fault Refusal :=
  .next (if s.hz.probe = 1 && decide (s.now ≤ s.hz.probeBy) && s.probeOk then
    { s with hz := { s.hz with probe := 2, probeAt := s.now } }.set Obj.HZ_STATE 2
  else s)

/-- A value outside 0.25 to 4 times its baseline (R481). -/
def State.probeBad (s : State) (i v : Nat) : Bool := (s.hzBase i).elim false fun b => decide (4 * v < b) || decide (4 * b < v)

/-- A rejected result and its report. -/
def State.measInvalid (s : State) (i : Nat) : State := s.raise 0x0B 4 (hzCode i)

/-- The probe's C in 10 µF and ESR in 0.01 mΩ. -/
def State.probeResult (s : State) (c esr : Nat) : State :=
  let s := { s with hz := { s.hz with probe := 0 } }.set Obj.HZ_STATE 1
  if s.probeBad 32 c || s.probeBad 33 esr then
    let s := if s.probeBad 32 c then s.measInvalid 32 else s
    if s.probeBad 33 esr then s.measInvalid 33 else s
  else (s.hzTake 32 c).hzTake 33 esr

/-- The net charge of a transition, nC: what the delivering phases brought, less the rail's load before it. -/
def probeCharge (x : ProbeStep) : Int := x.charge - x.irail * x.dt

/-- C of a transition, 1 µF: its net charge over its change of VRAIL_S. -/
def probeQuotient (x : ProbeStep) : Int :=
  let dv := x.v1 - x.v0
  roundDiv ((if dv < 0 then -probeCharge x else probeCharge x) * 1000) dv.natAbs

/-- RAIL_C, 10 µF, over the transitions; a transition without a change of VRAIL_S states none, and the value is free (entry 195). -/
def State.probeCap (s : State) (l : List ProbeStep) : Nat × State :=
  if l.any fun x => x.v1 == x.v0 then s.draw 16
  else (min 65535 (roundDiv ((l.map probeQuotient).foldl (· + ·) 0) (10 * l.length)).toNat, s)

/-- RAIL_ESR, 0.01 mΩ: VRAIL_S's part in phase with the summed ripple current; without a ripple current the value is free. -/
def State.probeEsr (s : State) (ripple : List (Int × Int)) : Nat × State :=
  let ii := ripple.foldl (fun a e => a + e.2.natAbs * e.2.natAbs) 0
  let vi := ripple.foldl (fun (a : Int) e => a + e.1 * e.2) 0
  if ii = 0 then s.draw 16 else (min 65535 (roundDiv (100 * vi) ii).toNat, s)

/-- `steps`: the eight transitions; `ripple`: pairs of VRAIL_S, µV, and the ripple current of the group carrying the rail, mA, at its
switching frequency over the holds. -/
def execHzProbeComplete (steps : List ProbeStep) (ripple : List (Int × Int)) (s : State) : Host.Outcome State Fault Refusal :=
  .next (if s.hz.probe = 2 && s.hz.probeAt + ms 180 ≤ s.now then
    let c := s.probeCap steps
    let e := c.2.probeEsr ripple
    e.2.probeResult c.1 e.1
  else s)

/-! ### Epochs (R486-R488) -/

/-- HZ_OP_TIME has reached 64 h after the last completed epoch. -/
def State.epochTimer (s : State) : State :=
  (s.put Obj.HZ_OP_TIME (max (s.obj Obj.HZ_OP_TIME) (s.obj Obj.HZ_EPOCH_LAST + 230400))).epochStart 2

def execHzEpochTimer (s : State) : Host.Outcome State Fault Refusal :=
  .next (if s.shellUp && !s.bringing && s.inMode [2, 3] && s.hz.epoch.isNone then s.epochTimer else s)

def execHzEpochCmd (m : Master) (v : Nat) (s : State) : Host.Outcome State Fault Refusal :=
  .next (s.logged fun s => s.asked m fun s => (s.writeKey m Obj.HZ_EPOCH_CMD (leBytes 1 v)).2)

/-- Steps 1 to 6 on the DER section read when the epoch began, then the commit. -/
def State.epochEnd (s : State) (trig : Nat) : State :=
  let act := s.tabs.active
  let s := { s with tabs := { s.tabs with active := (5, s.hz.der) :: act.filter fun (e : Nat × List Byte) => e.1 != 5 } }
  let s := s.epochFinish trig
  let s := { s with tabs := { s.tabs with active := act }, mode := { s.mode with parkEpochDone := s.mode.parkEpochDone || s.mode.park != 0 } }
  s.commitStart.hzMode

def execEpochComplete (s : State) : Host.Outcome State Fault Refusal :=
  .next (match s.hz.epoch with
    | some t => if s.shellUp && s.modeNow != 4 then s.epochEnd t else s
    | none => s)

/-! ### Applied terms and the ceiling (R491, R493) -/

/-- A value moved toward a target by at most `d`. -/
def toward (now target d : Nat) : Nat := if now ≤ target then min target (now + d) else max target (now - d)

/-- The contract in force on a port under its moved terms. -/
def State.trimContract (s : State) (p : Port) : State :=
  let t := (s.lp p).now
  if s.lState p = 6 then s.writeContract p t (min t.curr (s.currLimit p t.curr)) else s

/-- The input limit under its moved terms; ILIM_IN follows a move of 0.5 A (R201). -/
def State.iinRetake (s : State) : State :=
  if s.obj Obj.SRC_TYPE = 0 then s
  else
    let lim := s.iinLimit (s.obj Obj.SRC_MEAS_I_HARN)
    let s := s.set Obj.IIN_LIMIT lim
    let moved := s.src.iinWritten + 5 ≤ lim || lim + 5 ≤ s.src.iinWritten
    if moved && s.src.cls = 0 then ({ s with src := { s.src with iinWritten := lim } } : State).portIfNew 1 lim else s

/-- 100 ms have passed: each applied term moves by at most 1 % of its present value. -/
def State.termRamp (s : State) : State :=
  let l := (List.range 9).map fun n =>
    let a := s.hz.applied.getD n 1000
    toward a (s.obj (Obj.DER_NOW (n + 1))) (a / 100)
  if l = s.hz.applied then s
  else
    let s := { s with hz := { s.hz with applied := l } }
    let s := s.writeLimits.iinRetake
    if s.variant == .A then (s.trimContract .east).trimContract .west else s

def execHzTermRamp (s : State) : Host.Outcome State Fault Refusal := .next (s.logged fun s => if s.serving then s.termRamp else s)

/-- One step of a group toward its lowered frequency, on its own oscillator until it is there. -/
def State.ceilingStep (s : State) (g : Group) (t : Nat) : State :=
  let w := s.wordStanding (32 + g.num)
  let f := field w 11 0
  if t < f then
    let n := max t (f - f / 100)
    let src := if n = t && !(s.g g).syncBarred then s.obj (Obj.GROUP_SYNC (g.num + 1)) else 0
    s.portIfNew (32 + g.num) (w - field w 17 16 * 2 ^ 16 - f + src * 2 ^ 16 + n)
  else s

def execFreqCeilingStep (s : State) : Host.Outcome State Fault Refusal :=
  .next (s.logged fun s => if s.serving then s.hz.ceiling.foldl (fun s (e : Group × Nat) => s.ceilingStep e.1 e.2) s else s)

def execHzRebase (m : Master) (v : Nat) (s : State) : Host.Outcome State Fault Refusal :=
  .next (s.logged fun s => s.asked m fun s => (s.writeKey m Obj.HZ_REBASE (leBytes 1 v)).2)

/-! ### The hour (R478, R496, R497) -/

/-- Hours from `t` until the line through the hourly means reaches 2.00 µS. -/
def leakEta (h : List (Nat × Nat)) (t : Nat) : Nat :=
  let n : Int := h.length
  let sx := h.foldl (fun a e => a + (e.1 : Int)) 0
  let sy := h.foldl (fun a e => a + (e.2 : Int)) 0
  let sxx := h.foldl (fun a e => a + (e.1 : Int) * e.1) 0
  let sxy := h.foldl (fun a e => a + (e.1 : Int) * e.2) 0
  let d := n * sxx - sx * sx
  let k := n * sxy - sx * sy
  if d ≤ 0 ∨ k ≤ 0 then 0xFFFFFFFF
  else
    -- the line is (sy * d + k * (n * x - sx)) / (n * d)
    let x := (200 * n * d - sy * d + k * sx) / (k * n)
    min 0xFFFFFFFE ((x - t).toNat)

/-- The hour's mean of a port's bursts; an hour without one leaves the fit as it is, one hour on. -/
def State.leakHour (s : State) (p : Port) (hour : Nat) : State :=
  let m := s.hz.leak.get p
  if m.n = 0 then
    if s.obj (Obj.HZ_LEAK_ETA (p.num + 1)) = leakEta (s.hz.hours.get p) hour then s
    else s.put (Obj.HZ_LEAK_ETA (p.num + 1)) (leakEta (s.hz.hours.get p) hour)
  else
    let v := min 65535 m.value.toNat
    let l := ((hour, v) :: s.hz.hours.get p).take 720
    let s := { s with hz := { s.hz with leak := s.hz.leak.put p {}, hours := s.hz.hours.put p l } }
    (s.put (Obj.HZ_LEAK_MEAN (p.num + 1)) v).put (Obj.HZ_LEAK_ETA (p.num + 1)) (leakEta l hour)

/-- A full operating hour: leakage means, then the HOUR record. -/
def State.fullHour (s : State) : State :=
  let h := s.hour.mark + 1
  let s := s.put Obj.HZ_OP_TIME (max (s.obj Obj.HZ_OP_TIME) (3600 * h))
  let s := if s.variant == .A then (s.leakHour .east h).leakHour .west h else s
  { s with hour := { s.hour with mark := h } }.hourRecord false

def execHourRecord (s : State) : Host.Outcome State Fault Refusal :=
  .next (if s.shellUp && !s.bringing && s.inMode [2, 3, 4, 5] then s.fullHour else s)

end Sys2Proof.Machine
end

