-- ==== Sys2Proof/Machine/Memory.lean ====
section
/-!
DEFINITION. Memory.lean: the commands of the SRAM and flash scrubs, of flash writes and of the OTP (R707-R733).
-/
namespace Sys2Proof.Machine

/-! ### SRAM (R707-R710) -/

/-- The last committed value of a P object (R607), its default before any. -/
def State.committed (s : State) (k : Nat) : Nat :=
  match s.flash.entries.read (fun _ => 0) k with
  | 0 => Dict.default k
  | n + 1 => n

/-- Instance of an SRAM address: bits 21 to 6. -/
def addrInst (a : Nat) : Nat := field a 21 6

/-- An image's flash copy is read again and checked; a refused one leaves the kind to its ROM defaults at its safe point. -/
def State.imageReload (s : State) (n k : Nat) : State :=
  let gone := fun (s : State) =>
    let s := (s.setBank n ((s.bank n).without k)).idleIds
    if s.activeBank = n then { s with tabs := { s.tabs with romDue := setBit s.tabs.romDue (k - 1) true } } else s
  match (s.bankF n).image? k with
  | some b =>
    match (if s.flashOk || s.obj Obj.FLASH_STATE == 3 then s.imageFails b none else some 2) with
    | none => (s.setBank n ((s.bank n).with k b)).idleIds
    | some r => gone (s.refuseImage k r)
  | none => gone (s.refuseImage k 2)

/-- A gap record in the ring's event part, and REC_GAP. -/
def State.gapRecord (s : State) : State :=
  { s with ring := { s.ring with events := ((s.recTime, gapWord s.recTime 1) :: s.ring.events).take evCap } }.raise 9 0x0A 1

/-- A block of the retained area as at power-on (R709, R710). -/
def State.retainedInit (s : State) (block : Nat) : State :=
  match block with
  | 0 => { s with jrnl := {} }.set Obj.OD_JOURNAL 0 |>.flashBusy false
  | 1 => { s with recs := [], col := { s.col with handling := none, blockReset := none } }
  | 2 =>
    let s := s.dropRequests.resetObjs fun k =>
      [Obj.SRC_TYPE, Obj.SRC_STATE, Obj.CHG_STATE, Obj.CHG_STEP, Obj.SAFETY_PROGRESS, Obj.SAFETY_WALL, Obj.SOC_CONF].contains k ||
        k / 256 == Obj.SRC_MEAS_V_OC / 256
    let s := s.set Obj.PACK_SOC (s.committed Obj.PACK_SOC)
    { s with src := { s.src with rh := 0, row := 0, cls := 0 }
             chg := { s.chg with soc := s.obj Obj.PACK_SOC * 1000000000, progress := 0, precond := 0 } }
  | 3 => { s.set Obj.HZ_OP_TIME (s.committed Obj.HZ_OP_TIME) with hz := s.hz.emptied, hour := { mark := s.hour.mark }, parkAcc := {} }
  | _ => { s with ring := { s.ring with closing := none } }.set Obj.REC_STATE (min 2 (s.obj Obj.REC_STATE))

/-- The block of an offset in the retained area; 5 beyond the blocks. -/
def retainedBlock (ofs : Nat) : Nat :=
  if ofs < 0x6000 then 0 else if ofs < 0x6800 then 1 else if ofs < 0x7000 then 2 else if ofs < 0x9000 then 3 else if ofs < 0xA000 then 4 else 5

/-- The address of a word. -/
def wordAddr : SramWord → Nat
  | .image a _ _ => a
  | .scan a _ => a
  | .event a _ => a
  | .object a _ => a
  | .canFrame a _ => a
  | .fabFrame a _ => a
  | .retained a => a

/-- An uncorrectable word by its region. -/
def State.wordLost (s : State) (w : SramWord) : State :=
  match w with
  | .image _ n k => s.imageReload (n.val + 1) (k.val + 1)
  | .scan _ i => { s with ring := { s.ring with scans := s.ring.scans.eraseIdx i } }.gapRecord
  | .event _ i => { s with ring := { s.ring with events := s.ring.events.eraseIdx i } }.gapRecord
  | .object _ keys => keys.foldl (fun s k => s.set k (if Dict.persisted k then s.committed k else Dict.default k)) s
  | .canFrame _ cb => s.modCan cb fun c => { c with queue := c.queue.drop 1 }
  | .fabFrame _ p => s.modFab p fun f => { f with queue := f.queue.drop 1 }
  | .retained a => s.retainedInit (retainedBlock (a - 0x3C0000))

/-- The report of an uncorrectable word. -/
def State.wordReport (s : State) (w : SramWord) : State :=
  let s := s.tally (Obj.ECC_COUNT 2) 0xFFFFFFFF
  match w with
  | .retained a => s.raise 0x16 3 (addrInst a)
  | w => s.raise 0x16 2 (addrInst (wordAddr w))

/-- `corrected`: the addresses of the words corrected; ECC_CORRECTED at most once per second (R732). -/
def execSramScrub (corrected : List Nat) (bad : List SramWord) (s : State) : Host.Outcome State Fault Refusal :=
  .next (if s.shellUp then
    let s := corrected.foldl (fun s _ => s.tally (Obj.ECC_COUNT 1) 0xFFFFFFFF) s
    let s := match corrected with
      | a :: _ =>
        if s.col.eccAt.elim false fun t => decide (s.now < t + sec 1) then s
        else ({ s with col := { s.col with eccAt := some s.now } } : State).raise 0x16 1 (addrInst a)
      | [] => s
    bad.foldl (fun s w => (s.wordReport w).wordLost w) s
  else s)

/-! ### Flash (R718, R722) -/

/-- SCRUB_CORRECTED at most once per region. -/
def State.scrubCorrected (s : State) (seen : List Nat) (region sector : Nat) : State :=
  if seen.contains region then s else s.raise 0x17 4 sector

/-- A bank copy is rewritten from its SRAM bank, whose images are checked first. -/
def State.bankRewrite (s : State) (n : Nat) : State :=
  let s := (s.bank n).images.foldl (fun s (e : Nat × List Byte) =>
    match s.imageFails e.2 none with
    | none => s
    | some r => (s.refuseImage e.1 r).setBank n ((s.bank n).without e.1)) s
  s.writeBankF n (s.bankF n).gen

/-- A log record whose page is lost: its content is open, and its CHECK fails. -/
def State.logLost (s : State) (i : Nat) : State :=
  if i < s.log.length then
    let (a, s) := s.draw 128
    let (b, s) := s.draw 112
    let (c, s) := s.draw 16
    let body := leBytes 16 a ++ leBytes 14 b
    let check := (crc16 body + 1 + c % 65535) % 65536
    { s with log := s.log.set i (body ++ leBytes 2 check) }
  else s

/-- What a page leads to; `seen`: the regions whose correction has been reported. -/
def State.pageFound (s : State) (seen : List Nat) (p : FlashPage) : State :=
  match p with
  | .corrected r sector =>
    let s := s.scrubCorrected seen r.val sector
    if r.val = 3 then { s with flash := { s.flash with ckptDue := true } }
    else if r.val = 1 ∨ r.val = 2 then
      { s with flash := { s.flash with rewrite := r.val :: s.flash.rewrite.filter (· != r.val) } }
    else s
  | .journal sector => (s.raise 0x17 1 sector).checkpoint
  | .bank n => s.bankRewrite (n.val + 1)
  | .log i => s.logLost i
  | .capture i =>
    if i < s.archive.length then { s with archive := s.archive.eraseIdx i }.put Obj.REC_COUNT (s.archive.length - 1) else s

/-- The regions of the corrected pages so far. -/
def pageRegion : FlashPage → List Nat
  | .corrected r _ => [r.val]
  | _ => []

/-- One scrub is complete. -/
def execFlashScrub (pages : List FlashPage) (s : State) : Host.Outcome State Fault Refusal :=
  .next (if s.shellUp && s.flashOk && !s.flashHeld && s.thm.scrub.due s.thm.up then
    let s := { s with thm := { s.thm with scrub := s.thm.scrub.ran s.thm.up } }
    let r := pages.foldl (fun (x : List Nat × State) p => (pageRegion p ++ x.1, x.2.pageFound x.1 p)) ([], s)
    r.2.set Obj.SCRUB_LAST (r.2.obj Obj.HZ_OP_TIME)
  else s)

/-- The newest log record did not reach flash: it is held for the next write (R497). -/
def State.logFailed (s : State) (sector : Nat) : State :=
  match s.log with
  | [] => s
  | r :: l =>
    let s := { s with log := l, logRetry := s.logRetry ++ [r] }
    ((s.put Obj.HZ_LOG_COUNT l.length).raise 0x0B 5 (byteAt r 0)).sectorFail 4 sector 1

/-- A bank copy (regions 1 and 2) or a life-log record (region 4) is in flash, or its program failed; the manager repeats a bank write. -/
def execFlashWriteComplete (ok : Bool) (region : Fin 6) (sector : Nat) (s : State) : Host.Outcome State Fault Refusal :=
  .next (if !s.shellUp || !s.flashOk then s
  else if s.flashHeld then s
  else if region.val = 4 then (if ok then s else s.logFailed sector)
  else if s.tabs.writing = some region.val then
    if ok then (if s.obj Obj.DOWNLOAD_STATE = 2 then s.bankWritten.set Obj.DOWNLOAD_STATE 3 else s.bankWritten).releaseHeld 2 0 else s.sectorFail region.val sector 1
  else s)

/-! ### OTP (R726-R730) -/

/-- Every area is sensed again; `diff` names the areas whose fuses read differently from their content. -/
def State.reverify (s : State) (diff : Nat) : State :=
  (List.range 5).foldl (fun s a =>
    if bit diff a || (s.otpArea a).fuses != s.otp.shadows.getD a [] then s.raiseC 0x18 3 a else s.clearI 0x18 3 a) s

/-- One that is due during programming waits for its end (R733). -/
def execOtpReverify (diff : Nat) (s : State) : Host.Outcome State Fault Refusal :=
  .next (if !s.serving || !s.thm.otp.due s.now then s
    else
      let s := { s with thm := { s.thm with otp := s.thm.otp.ran s.now } }
      if s.otp.prog.isNone then s.reverify diff else { s with otp := { s.otp with due := some diff } })

/-- The re-verify that has waited. -/
def State.reverifyDue (s : State) : State :=
  match s.otp.due with
  | none => s
  | some d => ({ s with otp := { s.otp with due := none } } : State).reverify d

def execOtpProg (m : Master) (d : List Byte) (s : State) : Host.Outcome State Fault Refusal :=
  .next (s.asked m fun s => (s.writeSegment m Obj.OTP_PROG 0 true d).2)

def execOtpLock (m : Master) (v : Nat) (s : State) : Host.Outcome State Fault Refusal :=
  .next (s.logged fun s => s.asked m fun s => (s.writeKey m Obj.OTP_LOCK (leBytes 1 v)).2)

/-- Programming or blowing a lock ends; `ok`: the tight-margin verify passed. -/
def State.otpDone (s : State) (a off : Nat) (d : List Byte) (ok : Bool) : State :=
  let s := { s with otp := { s.otp with prog := none } }
  if d.isEmpty then ((s.modArea a fun x => { x with locked := true }).set Obj.OTP_PROG_STATE 2).releaseHeld 3 0
  else if ok then
    ((s.modArea a fun x => { x with fuses := programBits x.fuses off d }).set Obj.OTP_PROG_STATE 2).releaseHeld 3 0
  else
    let (l, s) := s.someBits d
    (((s.modArea a fun x => { x with fuses := programBits x.fuses off l }).set Obj.OTP_PROG_STATE 3).raise 0x18 4 a).releaseHeld 3 9

def execOtpProgrammingComplete (ok : Bool) (s : State) : Host.Outcome State Fault Refusal :=
  .next (match s.otp.prog with
    | some (a, off, d) => if s.shellUp then (s.otpDone a off d ok).reverifyDue else s
    | none => s)

end Sys2Proof.Machine
end

