-- ==== Sys2Proof/Machine/Supply.lean ====
section
/-!
DEFINITION. Supply.lean: the clock generator, the supplies and the debug port (R121, R547-R561).
-/
namespace Sys2Proof.Machine

/-! ### The main clock (R548-R551) -/

/-- The crystal or the external clock gives way to the RC. -/
def State.referenceLost (s : State) : State :=
  (({ s with aon := { s.aon with refLost := true } } : State).set Obj.CLK_STATE 4).raise1 0x0D 2 0

/-- The PLL takes its next reference. -/
def State.nextReference (s : State) : State :=
  let c := s.obj Obj.CLK_STATE
  if c = 0 ∨ c = 1 then s.referenceLost
  else if c = 2 then (s.set Obj.CLK_STATE (if s.portLocked .west then 3 else 4)).raise 0x0D 3 0
  else if c = 3 then (s.set Obj.CLK_STATE (if s.portLocked .east then 2 else 4)).raise 0x0D 3 1
  else s

/-- The main clock stops, and the shell with it: Stratus by heartbeat loss (R551). -/
def State.clockStop (s : State) : State :=
  let s := { s with aon := { s.aon with clockStopped := true } }.set Obj.CLK_STATE 5
  if s.shellUp then s.shellAbsent true else s

/-- In step 4 the crystal or the external clock is still being acquired (R549, R562). -/
def State.acquiring (s : State) : Bool := s.obj Obj.BRINGUP_STEP == 4 && s.obj Obj.CLK_STATE == 6 && decide (s.clkm ≤ 1)

/-- `held`: the PLL keeps the main clock within ±5 % while it moves. -/
def execClockReferenceLost (held : Bool) (s : State) : Host.Outcome State Fault Refusal :=
  .next (s.logged fun s => if s.aon.por || s.aon.clockStopped then s
  else if s.acquiring then s.referenceLost
  else if 4 ≤ s.obj Obj.CLK_STATE then s
  else if held then s.nextReference else s.clockStop)

/-- No port has locked in the 20.0 ms of step 4 (R549). -/
def execRecoveredClkLost (s : State) : Host.Outcome State Fault Refusal :=
  .next (if s.obj Obj.BRINGUP_STEP = 4 ∧ s.clkm = 2 ∧ s.obj Obj.CLK_STATE = 6 then
    (s.set Obj.CLK_STATE 4).raise 0x0D 3 0xFF
  else s)

/-- No lock for 10 µs after step 4. -/
def execPllUnlock (s : State) : Host.Outcome State Fault Refusal :=
  .next (if s.aon.shell && s.obj Obj.CLK_STATE != 6 then s.raise1 0x0D 1 0 else s)

def execPllLockHeld (s : State) : Host.Outcome State Fault Refusal := .next (s.clearK 0x0D 1)

/-- A crystal or external reference is good again: the fault clears, and the reference stays unused. -/
def execReferenceGood (s : State) : Host.Outcome State Fault Refusal := .next (s.clearK 0x0D 2)

/-! ### Supplies (R561) -/

/-- The core buck is off for 1 ms. -/
def execCoreBuckFault (s : State) : Host.Outcome State Fault Refusal :=
  .next (if s.aon.por || s.aon.buckOff then s else { s with aon := { s.aon with buckOff := true } }.raise1 0x1A 4 0)

def execCoreBuckRestart (s : State) : Host.Outcome State Fault Refusal :=
  .next { s with aon := { s.aon with buckOff := false } }

def execCoreBuckNormal (s : State) : Host.Outcome State Fault Refusal :=
  .next (if s.aon.buckOff then s else s.clearK 0x1A 4)

def execVcoreRange (mv : Nat) (s : State) : Host.Outcome State Fault Refusal :=
  .next (if s.aon.por then s else s.raise1 0x1A 2 (min 65535 mv))

def execVcoreWithinRange (s : State) : Host.Outcome State Fault Refusal := .next (s.clearK 0x1A 2)

/-- The instance is VDD33 in 10 mV. -/
def execVdd33Range (mv : Nat) (s : State) : Host.Outcome State Fault Refusal :=
  .next (if s.aon.por then s else s.raise1 0x1A 3 (min 65535 (mv / 10)))

def execVdd33WithinRange (s : State) : Host.Outcome State Fault Refusal := .next (s.clearK 0x1A 3)

/-! ### The debug port (R121, R547) -/

/-- nTRST low resets the TAP and nothing else. -/
def execTapReset (s : State) : Host.Outcome State Fault Refusal := .next { s with aon := { s.aon with tap := false } }

/-- A boundary-scan instruction: the cells observe, and PWM and DISC_GATE stay under R119. -/
def execBoundaryScanInstruction (s : State) : Host.Outcome State Fault Refusal := .next { s with aon := { s.aon with tap := true } }

end Sys2Proof.Machine
end

