-- ==== Sys2Proof/Machine/Guard.lean ====
section
/-!
DEFINITION. Guard.lean: the commands of the window watchdog (R563-R577).
-/
namespace Sys2Proof.Machine

/-- An identity that is counted has no good check-in. -/
def State.wdMissing (s : State) (k : Nat) : Bool := s.wdCounted k && !bit (s.obj Obj.WD_SEEN) k

/-- Ticks of the period have passed. -/
def State.wdAt (s : State) (t : Nat) : State := { s with wd := { s.wd with tick := max s.wd.tick t } }

/-- Tick 0 of the next period. A window that closes in it is judged first (R570). -/
def State.wdNext (s : State) : State :=
  match (List.range 16).find? s.wdMissing with
  | some k => s.wdViolation 4 k (s.wd.close.getD k 0)
  | none => s.wdPeriod

def execWdPeriodStart (s : State) : Host.Outcome State Fault Refusal :=
  .next (if s.shellUp && s.wdRunning && !s.wdQuiet then s.wdNext else s)

/-- An owner in hardware checks in at its window's midpoint, or withholds it (R568). -/
def State.wdHardware (s : State) (k : Nat) : State :=
  let o := s.wd.open_.getD k 0
  let t := o + (s.wd.close.getD k 0 - o) / 2
  let ok := s.wdLive k
  let s := s.wdAt t
  if ok then (s.wdAfresh k).wdCheckin k (s.obj Obj.WD_TOKEN) t else s

def execWdHardwareCheckin (k : Fin 8) (s : State) : Host.Outcome State Fault Refusal :=
  .next (if s.shellUp && s.wdRunning && !s.wdQuiet && s.wdMissing k.val then s.wdHardware k.val else s)

/-- A master's WD_CHECKIN, received in tick `t` of the period. -/
def execWdCheckin (m : Master) (w t : Nat) (s : State) : Host.Outcome State Fault Refusal :=
  .next (s.logged fun s => s.asked m fun s => ((s.wdAt t).writeKey m Obj.WD_CHECKIN (leBytes 2 w)).2)

/-- The window of an identity closes at its tick C. -/
def execWdWindowClose (k : Fin 16) (s : State) : Host.Outcome State Fault Refusal :=
  .next (if s.shellUp && s.wdRunning && !s.wdQuiet then
    let c := s.wd.close.getD k.val 0
    let s := s.wdAt c
    if s.wdMissing k.val then s.wdViolation 4 k.val c else s
  else s)

/-- A configuration object of the watchdog: WD_PERIOD to WD_FAILOVER_W. -/
def wdKey (k : Nat) : Bool := decide (0x0843 ≤ k / 256) && decide (k / 256 ≤ 0x0848)

def execWdConfigWrite (m : Master) (k v : Nat) (s : State) : Host.Outcome State Fault Refusal :=
  .next (s.logged fun s => if wdKey k then s.asked m fun s => (s.writeKey m k (leBytes (((s.keyType k).bind ObjType.size).getD 4) v)).2 else s)

end Sys2Proof.Machine
end

