-- ==== Sys2Proof/Machine/CanBus.lean ====
section
/-!
DEFINITION. CanBus.lean: the commands of the CAN controllers, of the object protocol and of notifications (R618-R634).
-/
namespace Sys2Proof.Machine

/-! ### Frames of the object protocol (R625, R626) -/

/-- The request identifier: 0 host, 1 tester; its master. -/
def reqWho (tester : Bool) : Nat := b2n tester
def reqMaster (tester : Bool) : Master := if tester then .T else .H

/-- The key of INDEX and SUB. -/
def hdrKey (b : List Byte) : Nat := (leAt b 2 2 % 4096) * 256 + byteAt b 4
def hdrTxn (b : List Byte) : Nat := byteAt b 1
def hdrOfs (b : List Byte) : Nat := leAt b 8 4
def hdrLast (b : List Byte) : Bool := bit (byteAt b 5) 0
def hdrSeg (b : List Byte) : Bool := bit (byteAt b 5) 1
def hdrData (b : List Byte) : List Byte := slice b 16 (byteAt b 6)

/-- A SEED or KEY frame. -/
def hdrSec (b : List Byte) : Bool := byteAt b 0 == 0x0A || byteAt b 0 == 0x0B

/-- The header's reserved bits are 0 and LEN fits the frame. SEED and KEY have a level in place of FLAGS, and 0 in the bytes that name
an object (R626). -/
def hdrOk (b : List Byte) : Bool :=
  16 ≤ b.length && byteAt b 6 ≤ 48 && 16 + byteAt b 6 ≤ b.length &&
    (if hdrSec b then leAt b 2 2 == 0 && byteAt b 4 == 0 && leAt b 8 4 == 0 && leAt b 12 4 == 0
     else field (leAt b 2 2) 15 12 == 0 && field (byteAt b 5) 7 2 == 0)

/-- A response to a request, padded to an FD length with zeros. -/
def State.canRsp (s : State) (tester : Bool) (req : List Byte) (op b5 status ofs total : Nat) (d : List Byte) : CanFrame :=
  let b := leBytes 1 op ++ leBytes 1 (hdrTxn req) ++ leBytes 2 (leAt req 2 2) ++ leBytes 1 (byteAt req 4) ++ leBytes 1 b5 ++
    leBytes 1 d.length ++ leBytes 1 status ++ leBytes 4 ofs ++ leBytes 4 total ++ d
  { id := s.can.a.ids.getD (if tester then 4 else 1) 0, data := fitBytes (padTo b.length) b }

/-- Frames go to the queue as it has room. -/
def State.canLater (s : State) : State :=
  match s.can.a.later with
  | [] => s
  | f :: r => if s.can.a.queue.length < 16 then (s.modCan .a fun c => { c with later := r }).canQueue .a f else s

/-- An answer: kept for 100 ms, and queued. -/
def State.canAnswer (s : State) (tester : Bool) (txn : Nat) (l : List CanFrame) : State :=
  let s := s.canKeep (reqWho tester) txn l
  match l with
  | [f] => s.canQueue .a f
  | l => State.canLater <| s.modCan .a fun c => { c with later := c.later ++ l }

/-- An answer that waits for a commit, the flash or the OTP (R612, R615). -/
def State.canAnswerSlow (s : State) (tester : Bool) (txn n : Nat) (f : CanFrame) : State :=
  if s.slow n then s.modCan .a fun c => { c with held := c.held ++ [(n, f)] } else s.canAnswer tester txn [f]

/-- The answer kept for a TXN. -/
def State.canKept (s : State) (tester : Bool) (txn : Nat) : Option (List CanFrame) :=
  (s.can.a.answered.find? fun (x : Nat × Nat × Nat × List CanFrame) =>
    x.1 == reqWho tester && x.2.1 == txn && decide (s.now < x.2.2.1 + ms 100)).map (·.2.2.2)

/-- The transactions of an identifier that are served still: an answer waits, or frames of a block are to come (R628). -/
def State.canServed (s : State) (tester : Bool) : List Nat :=
  (((s.can.a.held.map (·.2)) ++ s.can.a.later).filter fun f => f.id == s.can.a.ids.getD (if tester then 4 else 1) 0).map
    (fun f => hdrTxn f.data) |>.eraseDups
def State.canWaits (s : State) (tester : Bool) (txn : Nat) : Bool := (s.canServed tester).contains txn

/-! ### The requests (R626, R627) -/

/-- One READ answer from an offset: whether it ends the read, the frame, the state. A read that one frame holds whole is not segmented. -/
def State.canRead1 (s : State) (tester : Bool) (req : List Byte) (op ofs : Nat) : Bool × CanFrame × State :=
  let k := hdrKey req
  let (c, total, d, s) := s.readSegment (reqMaster tester) k ofs 48
  let last := c != 0 || total ≤ ofs + d.length
  let flags := if c != 0 then 0 else b2n last + 2 * b2n (!(last && ofs == 0))
  (last, s.canRsp tester req op flags c ofs (if c = 0 then total else 0) d, s)

/-- READ_BLOCK frames at consecutive offsets, ending at LAST. -/
def State.canReadN (s : State) (tester : Bool) (req : List Byte) (ofs : Nat) : Nat → List CanFrame × State
  | 0 => ([], s)
  | n + 1 =>
    let (last, f, s) := s.canRead1 tester req 0x83 ofs
    if last then ([f], s)
    else
      let (l, s) := s.canReadN tester req (ofs + 48) n
      (f :: l, s)

/-- A segment that does not continue its transfer (R627). -/
def State.outOfOrder (s : State) (m : Master) (k ofs : Nat) : Bool :=
  ofs != 0 && (s.transfer? k).elim true fun t => t.who != m.code || t.data.length != ofs

/-- A transfer of the master's own is abandoned. -/
def State.abandonOwn (s : State) (m : Master) (k : Nat) : State :=
  match s.transfer? k with
  | some t => if t.who = m.code then s.dropTransfer t else s
  | none => s

/-- A write of a frame's data: the status and the state. -/
def State.canWrite1 (s : State) (tester seg : Bool) (req : List Byte) : Nat × State :=
  let m := reqMaster tester
  let k := hdrKey req
  if !seg then s.writeWhole m k (hdrData req)
  else if s.outOfOrder m k (hdrOfs req) then (0xF1, s.abandonOwn m k)
  else s.writeSegment m k (hdrOfs req) (hdrLast req) (hdrData req)

/-- The sort of wait of a write that has completed. -/
def writeWait (code k : Nat) (done : Bool) : Nat := if code = 0 && done then slowKey k else 0

def State.canBad (s : State) (tester : Bool) (req : List Byte) : State :=
  let r := fitBytes 16 req
  s.canAnswer tester (hdrTxn r) [s.canRsp tester r (byteAt r 0 + 0x80) 0 0xF1 0 0 []]

def State.canReadOp (s : State) (tester : Bool) (req : List Byte) : State :=
  let r := s.canRead1 tester req 0x81 (hdrOfs req)
  r.2.2.canAnswer tester (hdrTxn req) [r.2.1]

def State.canReadBlockOp (s : State) (tester : Bool) (req : List Byte) : State :=
  let n := byteAt req 7
  if 1 ≤ n && n ≤ 64 then
    let r := s.canReadN tester req (hdrOfs req) n
    r.2.canAnswer tester (hdrTxn req) r.1
  else s.canBad tester req

def State.canWriteOp (s : State) (tester : Bool) (req : List Byte) : State :=
  let r := s.canWrite1 tester (hdrSeg req) req
  let f := s.canRsp tester req 0x82 0 r.1 (hdrOfs req) 0 []
  r.2.canAnswerSlow tester (hdrTxn req) (writeWait r.1 (hdrKey req) (!hdrSeg req || hdrLast req)) f

/-- Frames of the block still to come, this one included; 0 where no block of this requester runs under the TXN. -/
def State.blockLeft (s : State) (tester : Bool) (txn : Nat) : Nat :=
  match s.can.a.block with
  | some (w, t, n) => if w = reqWho tester && t = txn then n else 0
  | none => 0

/-- One frame of a WRITE_BLOCK; the last one, LAST or a refusal is answered. -/
def State.canWriteBlockOp (s : State) (tester : Bool) (req : List Byte) : State :=
  let left := s.blockLeft tester (hdrTxn req)
  let n := if left = 0 then byteAt req 7 else left
  if !(1 ≤ n && n ≤ 16) then s.canBad tester req
  else
    let r := s.canWrite1 tester true req
    let fin := n == 1 || hdrLast req || r.1 != 0
    let t := r.2.modCan .a fun c => { c with block := if fin then none else some (reqWho tester, hdrTxn req, n - 1) }
    if fin then
      let next := if r.1 = 0 then hdrOfs req + byteAt req 6 else hdrOfs req
      t.canAnswerSlow tester (hdrTxn req) (writeWait r.1 (hdrKey req) (hdrLast req)) (s.canRsp tester req 0x84 0 r.1 next 0 [])
    else t

/-- The access code that stands for a negative answer of the security service. -/
def secCode : Nat → Nat
  | 0 => 0
  | 0x35 => 4
  | 0x36 => 4
  | _ => 6

/-- The code of a SEED or KEY frame before the service, by identifier and level. -/
def secFrame (tester : Bool) (req : List Byte) : Nat :=
  if !tester then 2 else if byteAt req 5 = 1 ∨ byteAt req 5 = 0x11 then 0 else 9

def State.canSeedOp (s : State) (tester : Bool) (req : List Byte) : State :=
  let c := secFrame tester req
  let r := if c = 0 then s.secSeed (byteAt req 5) else (0, [], s)
  let code := if c = 0 then secCode r.1 else c
  r.2.2.canAnswer tester (hdrTxn req) [s.canRsp tester req 0x8A (byteAt req 5) code 0 0 r.2.1]

def State.canKeyOp (s : State) (tester : Bool) (req : List Byte) : State :=
  let c := secFrame tester req
  let c := if c = 0 && byteAt req 6 != 8 then 5 else c
  let r := if c = 0 then s.secKey (byteAt req 5) (hdrData req) else (0, s)
  let code := if c = 0 then secCode r.1 else c
  r.2.canAnswer tester (hdrTxn req) [s.canRsp tester req 0x8B (byteAt req 5) code 0 0 []]

/-- The tester session of the ML4860-C opens at the first request on TEST_REQ (R633). -/
def State.testerSeen (s : State) (tester : Bool) : State :=
  if tester && s.obj Obj.DIAG_SESSION = 1 then s.sessionChange 3 else s

/-- A frame on a request identifier, whose opcode names the request: `f` carries it out. -/
def State.canRequest (s : State) (tester fd : Bool) (op : Nat) (b : List Byte) (f : State → State) : State :=
  if !s.canOn .a || !(s.canState .a == 2 || s.canState .a == 3) || (tester && s.variant != Variant.C) then s
  else
    let s := s.canStat .a 1
    if !fd || !s.serving then s
    else
      let s := s.testerSeen tester
      if s.canWaits tester (byteAt b 1) then s
      else match s.canKept tester (byteAt b 1) with
      | some [x] => s.canQueue .a x
      | some l => State.canLater <| s.modCan .a fun c => { c with later := c.later ++ l }
      | none =>
        if 4 ≤ (s.canServed tester).length then
          let r := fitBytes 16 b
          s.canQueue .a (s.canRsp tester r (byteAt r 0 + 0x80) 0 0xF0 0 0 [])
        else if hdrOk b && byteAt b 0 = op then f s
        else s.canBad tester b

def execCanRead (tester fd : Bool) (b : List Byte) (s : State) : Host.Outcome State Fault Refusal :=
  .next (s.canRequest tester fd 1 b fun s => s.canReadOp tester b)

def execCanWrite (tester fd : Bool) (b : List Byte) (s : State) : Host.Outcome State Fault Refusal :=
  .next (s.logged fun s => s.canRequest tester fd 2 b fun s => s.canWriteOp tester b)

def execReadBlock (tester fd : Bool) (b : List Byte) (s : State) : Host.Outcome State Fault Refusal :=
  .next (s.canRequest tester fd 3 b fun s => s.canReadBlockOp tester b)

def execWriteBlock (tester fd : Bool) (b : List Byte) (s : State) : Host.Outcome State Fault Refusal :=
  .next (s.logged fun s => s.canRequest tester fd 4 b fun s => s.canWriteBlockOp tester b)

def execSeed (tester fd : Bool) (b : List Byte) (s : State) : Host.Outcome State Fault Refusal :=
  .next (s.canRequest tester fd 0x0A b fun s => s.canSeedOp tester b)

def execKey (tester fd : Bool) (b : List Byte) (s : State) : Host.Outcome State Fault Refusal :=
  .next (s.canRequest tester fd 0x0B b fun s => s.canKeyOp tester b)

/-- More than 100 ms between the segments of a master's transfer of an object. -/
def execSegmentGapTimeout (m : Master) (k : Nat) (s : State) : Host.Outcome State Fault Refusal :=
  .next (if s.serving then
    let s := s.abandonOwn m k
    if m == .H || (m == .T && s.variant == Variant.C) then s.modCan .a fun c => { c with block := none } else s
  else s)

/-! ### Notifications (R632) -/

/-- The NOTIFY frame. -/
def State.notifyFrame (s : State) (reason : Nat) : CanFrame :=
  { id := s.can.a.ids.getD 2 0, notify := true
    data := leBytes 1 8 ++ leBytes 1 s.note.count ++ leBytes 1 reason ++ leBytes 1 s.modeNow ++ leBytes 4 (s.view Obj.FAULT_SUMMARY) ++
      leBytes 4 (s.obj Obj.FAULT_LAST) ++ leBytes 2 (s.obj Obj.GRANT_NOW_TOTAL) ++ leBytes 2 (s.obj Obj.PACK_SOC) ++
      leBytes 1 (s.obj Obj.MODE_CAUSE) ++ leBytes 1 (s.obj Obj.SRC_STATE) ++ leBytes 1 (s.obj Obj.CHG_STATE) ++ leBytes 1 0 ++
      leBytes 4 (s.obj Obj.RESET_CAUSE) }

/-- The causes that wait go out, unless a NOTIFY went within the last millisecond. -/
def State.notify (s : State) : State :=
  if s.note.reason = 0 || s.note.lastAt.elim false (fun t => decide (s.now < t + ms 1)) then s
  else
    let f := s.notifyFrame s.note.reason
    ({ s with note := { count := (s.note.count + 1) % 256, reason := 0, lastAt := some s.now } } : State).canQueue .a f

/-- A NOTIFY is due: by a cause that waits, or (`period`) by CAN_NOTIFY_PERIOD. -/
def execCanNotify (period : Bool) (s : State) : Host.Outcome State Fault Refusal :=
  .next (if s.serving && s.canOn .a then
    let due := period && s.obj Obj.CAN_NOTIFY_PERIOD != 0
    ({ s with note := { s.note with reason := setBit s.note.reason 2 (bit s.note.reason 2 || due) } } : State).notify
  else s)

/-! ### Controllers (R623, R631, R634) -/

def execCanApply (m : Master) (v : Nat) (s : State) : Host.Outcome State Fault Refusal :=
  .next (s.logged fun s => s.asked m fun s => (s.writeKey m Obj.CAN_APPLY (leBytes 1 v)).2)

/-- The oldest frame of the queue has stood for 100 ms. -/
def execTxTimeout (cb : CanBus) (s : State) : Host.Outcome State Fault Refusal :=
  .next (match (s.can.get cb).queue with
    | f :: r => if s.canOn cb then (s.modCan cb fun c => { c with queue := r }).raise (canSrc cb) 4 (field f.id 10 0) else s
    | [] => s)

/-- TEC exceeds 255. -/
def State.busOff (s : State) (cb : CanBus) : State :=
  if s.canOn cb && s.canState cb != 4 then
    let n := min 65535 ((s.can.get cb).offs + 1)
    let s := ((s.setCanState cb 4).canStat cb 3).modCan cb fun c => { c with offs := n }
    (s.set (Obj.CAN_ERR (cb.num + 1)) (field (s.obj (Obj.CAN_ERR (cb.num + 1))) 15 8 * 256 + 255)).raiseC (canSrc cb) 2 n
  else s

def execBusOff (cb : CanBus) (s : State) : Host.Outcome State Fault Refusal := .next (s.busOff cb)

/-- 128 occurrences of 11 recessive bits. -/
def execBusOffRecovery (cb : CanBus) (s : State) : Host.Outcome State Fault Refusal :=
  .next (if s.canState cb = 4 then
    (((s.setCanState cb 2).set (Obj.CAN_ERR (cb.num + 1)) 0).clearK (canSrc cb) 2).clearK (canSrc cb) 1
  else s)

/-- The error counters stand at new values. -/
def execErrorPassive (cb : CanBus) (tec rec : Nat) (s : State) : Host.Outcome State Fault Refusal :=
  .next (if 255 < tec then s.busOff cb else if s.canOn cb && s.canState cb != 4 then
    let s := s.set (Obj.CAN_ERR (cb.num + 1)) (min 255 rec * 256 + min 255 tec)
    if 127 < tec || 127 < rec then
      (if s.canState cb = 2 then s.setCanState cb 3 else s).raise1 (canSrc cb) 1 (min 255 tec)
    else (if s.canState cb = 3 then s.setCanState cb 2 else s).clearK (canSrc cb) 1
  else s)

/-- `lost` frames met a full receive FIFO. -/
def execRxOverrun (cb : CanBus) (lost : Nat) (s : State) : Host.Outcome State Fault Refusal :=
  .next (if s.canOn cb then
    let n := min 65535 ((s.can.get cb).lost + lost)
    if (s.can.get cb).overAt.elim false fun t => decide (s.now < t + sec 1) then s.modCan cb fun c => { c with lost := n }
    else (s.modCan cb fun c => { c with lost := 0, overAt := some s.now }).raise (canSrc cb) 3 n
  else s)

/-- 5,000 ms without a request on TEST_REQ in the ML4860-C. -/
def execTesterSessionTimeout (s : State) : Host.Outcome State Fault Refusal :=
  .next (s.logged fun s => if s.serving && s.variant == Variant.C && s.obj Obj.DIAG_SESSION != 1 then s.sessionDefault.resolve else s)

end Sys2Proof.Machine
end

