-- ==== Sys2Proof/Machine/LinBus.lean ====
section
/-!
DEFINITION. LinBus.lean: the commands of the LIN side-band node (R635-R645).
-/
namespace Sys2Proof.Machine

/-- One of the LIN_STATS counters: 1 headers, 2 frames received, 3 checksum errors, 4 sync errors, 5 command bytes refused. -/
def State.linStat (s : State) (n : Nat) : State := s.tally (Obj.LIN_STATS n) 0xFFFFFFFF

/-- The bus is active: the node leaves bus sleep and sends no wake-up signal (R641, R643). -/
def State.linActive (s : State) : State :=
  { s with lin := { s.lin with sleep := false, wakeDue := false, wakes := 0, blocks := 0 } }

/-- A report of the node's: the shell's collector takes it. -/
def State.linRaise (s : State) (kind inst : Nat) : State := if s.shellUp then s.raise 0x13 kind inst else s

/-- A break and a sync field; a sync field outside ±15 % discards the frame (R644). `f` takes the frame. -/
def State.linHeader (s : State) (sync : Bool) (f : State → State) : State :=
  if !s.linOn then s
  else
    let s := s.linActive
    if sync then f (s.linStat 1) else (s.linStat 4).linRaise 2 0

/-- The header of the frame in a role (0-3); an identifier 0 leaves the frame unused (R640). -/
def State.linRole (s : State) (sync : Bool) (role : Nat) (f : Nat → State → State) : State :=
  s.linHeader sync fun s => let id := s.lin.pid.getD role 0; if id = 0 then s else f id s

/-- LIN_CHECKSUM, at most once per second. -/
def State.linSum (s : State) (id : Nat) : State :=
  if !s.shellUp || s.lin.sumAt.elim false fun t => decide (s.now < t + sec 1) then s
  else ({ s with lin := { s.lin with sumAt := some s.now } } : State).raise 0x13 1 id

/-- A frame that the node subscribes to arrives, its checksum right or wrong (R639, R644). -/
def State.linFrame (s : State) (id : Nat) (good : Bool) (f : State → State) : State :=
  if good then f (s.linStat 2)
  else ({ (s.linStat 3) with lin := { s.lin with respErr := true } } : State).linSum id

/-- The node publishes a frame; nothing goes out of a transmitter that a bus short holds released. `err`: a bit error in it. -/
def State.linPublish (s : State) (b : List Byte) (err : Bool) : State :=
  if s.lin.short then s else { s with lin := { s.lin with out := b, respErr := s.lin.respErr || err } }

/-! ### COMMAND and STATUS (R636, R637) -/

/-- An S write of one byte of COMMAND; a refusal is counted. -/
def State.linByte (s : State) (k v : Nat) : State :=
  let r := s.writeKey .S k (leBytes 1 v)
  if r.1 = 0 then r.2 else r.2.linStat 5

def State.linCommand (s : State) (b : List Byte) : State :=
  let s := if byteAt b 0 = 0xFE then s else s.linByte Obj.MODE_REQ_S (byteAt b 0)
  if byteAt b 1 = 0xFF then s else s.linByte Obj.CHG_TARGET (byteAt b 1)

/-- A COMMAND frame: its 8 bytes, its checksum and its sync field as they came. -/
def execLinCommand (b : List Byte) (good sync : Bool) (s : State) : Host.Outcome State Fault Refusal :=
  .next (s.logged fun s => s.linRole sync 0 fun id s => s.linFrame id good fun s => s.linCommand b)

/-- The STATUS frame. -/
def State.statusFrame (s : State) : List Byte :=
  let f := s.view Obj.FAULT_SUMMARY
  leBytes 1 s.modeNow ++ leBytes 1 (s.obj Obj.MODE_CAUSE) ++
    leBytes 1 (f % 16 + 16 * b2n (bit f 30) + 32 * b2n (bit f 28) + 64 * b2n (!s.shellUp) + 128 * b2n s.lin.respErr) ++
    leBytes 1 (s.obj Obj.MODE_TARGET) ++ leBytes 2 s.aon.soc ++ leBytes 1 (s.obj Obj.VAUX_STATE % 2) ++
    leBytes 1 (s.obj Obj.MODE_REQ_S)

/-- A STATUS frame that went out with RESP_ERR set clears it. -/
def execLinStatus (sync err : Bool) (s : State) : Host.Outcome State Fault Refusal :=
  .next (s.linRole sync 1 fun _ s =>
    if s.lin.short then s else ({ s with lin := { s.lin with respErr := false } } : State).linPublish s.statusFrame err)

/-! ### Object access (R638) -/

def linRsp (req : List Byte) (status : Nat) (d : List Byte) : List Byte :=
  leBytes 1 ((byteAt req 0 + 0x80) % 256) ++ leBytes 1 status ++ [0xFF#8, 0xFF#8] ++ (d ++ List.replicate 4 0xFF#8).take 4

def linKey (req : List Byte) : Nat := (leAt req 1 2 % 4096) * 256 + byteAt req 3

/-- Bytes of an object that the side-band can carry: 1 to 4. -/
def State.linSize (s : State) (k : Nat) : Option Nat :=
  match (s.keyType k).bind ObjType.size with
  | some n => if n ≤ 4 then some n else none
  | none => none

/-- A key that is there and is too long for the frame returns LENGTH, after the checks that come before it. -/
def State.linLong (s : State) (k : Nat) : Bool :=
  (s.linSize k).isNone && (k % 256 == 0xFF || (s.keyType k).isSome)

def State.linRead (s : State) (req : List Byte) : State :=
  let k := linKey req
  let c := s.readCode .S k
  if c = 0 && s.linLong k then
    { (s.answerWith .S k 5 []) with lin := { s.lin with rsp := some (linRsp req 5 []) } }
  else
    let r := s.readKey .S k
    { r.2.2 with lin := { r.2.2.lin with rsp := some (linRsp req r.1 r.2.1) } }

/-- A write: its answer may wait for a commit, the flash or the OTP (R612). -/
def State.linWrite (s : State) (req : List Byte) : State :=
  let k := linKey req
  let long := s.writeCodeA .S k (leAt req 4 4) false
  let r := if s.linLong k then (long, s.answerWith .S k long []) else s.writeKey .S k (slice req 4 ((s.linSize k).getD 4))
  let n := if r.1 = 0 then slowKey k else 0
  if r.2.slow n then
    { r.2 with lin := { r.2.lin with held := some (n, linRsp req 0 []), rsp := some (linRsp req 0xF0 []) } }
  else { r.2 with lin := { r.2.lin with rsp := some (linRsp req r.1 []) } }

def State.linAccess (s : State) (req : List Byte) : State :=
  let op := field (byteAt req 0) 7 4
  let s : State := if s.lin.held.isSome then s else { s with lin := { s.lin with req := if s.serving then some req else none } }
  if s.lin.held.isSome then s
  else if op = 1 then s.linRead req
  else if op = 2 then s.linWrite req
  else { s with lin := { s.lin with rsp := some (linRsp req 0xF1 []) } }

def execObjReq (b : List Byte) (good sync : Bool) (s : State) : Host.Outcome State Fault Refusal :=
  .next (s.logged fun s => s.linRole sync 2 fun id s => s.linFrame id good fun s => s.linAccess b)

/-- The shell is absent before the OBJ_RSP of an access that it took: the always-on domain answers it if the object is in its subset;
otherwise the answer is UNAVAILABLE (R646). -/
def State.linOrphan (s : State) (req : List Byte) : State :=
  if !alwaysOn (linKey req) then
    { s with lin := { s.lin with held := none, rsp := some (linRsp req 3 []) } }
  else if field (byteAt req 0) 7 4 = 1 then s.linRead req
  else s

/-- The answer as the next OBJ_RSP header finds it, which takes it. -/
def State.linUnheld (s : State) : State :=
  let t := match s.lin.req with
    | some req => if s.serving then s else s.linOrphan req
    | none => s
  if t.lin.held.isSome then t else { t with lin := { t.lin with req := none } }

def execObjRsp (sync err : Bool) (s : State) : Host.Outcome State Fault Refusal :=
  .next (s.linRole sync 3 fun _ s =>
    let s := s.linUnheld
    match s.lin.rsp with
    | none => s
    | some b => s.linPublish b err)

/-! ### Configuration services (R640) -/

/-- A write of a configuration object: to the object while the shell serves, otherwise to the working copy (R645);
Overcast takes neither (R765). -/
def State.linSet (s : State) (k v : Nat) (copy : Lin → Lin) : Nat × State :=
  if s.serving then s.writeKey .S k (leBytes 1 v)
  else if s.modeNow == 7 then (6, s)
  else if (s.row? k).elim true fun r => !rowHolds r v then (9, s)
  else (0, { s with lin := { copy s.lin with changed := true } })

/-- Supplier and function name this product. -/
def productOk (sup fn : Nat) : Bool := (sup == 0x504C || sup == 0x7FFF) && (fn == 0x4860 || fn == 0x3FFF)

/-- The response that the next slave response header fetches. -/
def State.linReply (s : State) (nad : Nat) (b : List Byte) : State :=
  { s with lin := { s.lin with slave := some ((leBytes 1 nad ++ b ++ List.replicate 8 0xFF#8).take 8) } }

/-- AssignNAD; the response carries the address that was in force. -/
def State.assignNad (s : State) (b : List Byte) : State :=
  let nad := s.lin.nad
  if !productOk (leAt b 3 2) (leAt b 5 2) then s
  else
    let r := s.linSet Obj.LIN_NAD (byteAt b 7) fun l => { l with nad := byteAt b 7 }
    if r.1 = 0 then r.2.linReply nad [0x01#8, 0xF0#8] else r.2

/-- The bytes of an identifier of ReadByIdentifier. -/
def State.linIdent (s : State) (id : Nat) : Option (List Byte) :=
  let u := leBytes 8 (s.obj Obj.UNIQUE_ID)
  match id with
  | 0 => some ([0x06#8, 0xF2#8] ++ leBytes 2 0x504C ++ leBytes 2 0x4860 ++ leBytes 1 (s.obj Obj.VARIANT))
  | 1 => some ([0x05#8, 0xF2#8] ++ u.take 4)
  | 32 => some ([0x05#8, 0xF2#8] ++ u.drop 4)
  | _ => none

/-- The negative response 0x7F, error code 0x12. -/
def State.linNegative (s : State) (b : List Byte) : State :=
  s.linReply s.lin.nad ([0x03#8, 0x7F#8] ++ leBytes 1 (byteAt b 2) ++ [0x12#8])

def State.linReadId (s : State) (b : List Byte) : State :=
  if !productOk (leAt b 4 2) (leAt b 6 2) then s
  else match s.linIdent (byteAt b 3) with
    | some r => s.linReply s.lin.nad r
    | none => s.linNegative b

/-- SaveConfiguration commits the journal as a write of OD_COMMIT does; the object's own access code, which lets no side-band write in,
does not apply to the service. While the shell is absent nothing can be committed. -/
def State.linSave (s : State) : State :=
  if s.serving && !s.wrongState Obj.OD_COMMIT 1 && !s.lockedOut .S Obj.OD_COMMIT 1 then
    s.commitStart.linReply s.lin.nad [0x01#8, 0xF6#8]
  else s

/-- The roles that a request changes, and their frame identifiers: 0x00 leaves a frame unused, 0xFF leaves it unchanged. -/
def pidChanges (b : List Byte) : List (Nat × Nat) :=
  ((List.range 4).map fun i => (byteAt b 3 + i, byteAt b (4 + i))).filter fun x => x.2 != 0xFF

/-- Every identifier falls on a role and is one a frame may have. -/
def pidsOk (b : List Byte) : Bool := (pidChanges b).all fun x => x.1 ≤ 3 && x.2 % 64 ≤ 0x3B

def State.assignPids (s : State) (b : List Byte) : State :=
  if !pidsOk b then s
  else
    let r := (pidChanges b).foldl (fun (a : Nat × State) x =>
      let w := a.2.linSet (Obj.LIN_PID (x.1 + 1)) (x.2 % 64) fun l => { l with pid := l.pid.set x.1 (x.2 % 64) }
      (max a.1 w.1, w.2)) (0, s)
    if r.1 = 0 then r.2.linReply s.lin.nad [0x01#8, 0xF7#8] else r.2

/-- The services of R640. -/
def linSids : List Nat := [0xB0, 0xB2, 0xB6, 0xB7]

/-- A master request frame (0x3C) for the service `sid`: `b` is the frame, its first byte the address, its third the service. One that
names another service of the list is another command's; any other service gets the negative response. -/
def State.linConfig (s : State) (sid : Nat) (b : List Byte) (good sync : Bool) (f : State → State) : State :=
  s.linHeader sync fun s => s.linFrame 0x3C good fun s =>
    if byteAt b 0 != s.lin.nad && byteAt b 0 != 0x7F then s
    else if byteAt b 2 = sid then f s
    else if linSids.contains (byteAt b 2) then s
    else s.linNegative b

def execAssignNad (b : List Byte) (good sync : Bool) (s : State) : Host.Outcome State Fault Refusal :=
  .next (s.logged fun s => s.linConfig 0xB0 b good sync fun s => s.assignNad b)

def execReadByIdentifier (b : List Byte) (good sync : Bool) (s : State) : Host.Outcome State Fault Refusal :=
  .next (s.linConfig 0xB2 b good sync fun s => s.linReadId b)

def execSaveConfiguration (b : List Byte) (good sync : Bool) (s : State) : Host.Outcome State Fault Refusal :=
  .next (s.linConfig 0xB6 b good sync fun s => s.linSave)

def execAssignFrameIdentifierRange (b : List Byte) (good sync : Bool) (s : State) : Host.Outcome State Fault Refusal :=
  .next (s.logged fun s => s.linConfig 0xB7 b good sync fun s => s.assignPids b)

/-- A slave response header (0x3D) fetches the response once. -/
def execSlaveResponse (sync err : Bool) (s : State) : Host.Outcome State Fault Refusal :=
  .next (s.linHeader sync fun s =>
    match s.lin.slave with
    | none => s
    | some b => if s.lin.short then s else ({ s with lin := { s.lin with slave := none } } : State).linPublish b err)

/-! ### Sleep and wake-up (R641-R643) -/

def State.linSleep (s : State) : State := { s with lin := { s.lin with sleep := true, wakeDue := false, wakes := 0, blocks := 0 } }

/-- A go-to-sleep command: a master request frame of its own kind. -/
def execGoToSleep (good sync : Bool) (s : State) : Host.Outcome State Fault Refusal :=
  .next (s.linHeader sync fun s => s.linFrame 0x3C good State.linSleep)

def execLinBusInactivity (s : State) : Host.Outcome State Fault Refusal := .next (if s.linOn then s.linSleep else s)

/-- A wake-up signal of 150 µs to 5 ms: its length in µs. -/
def execLinWake (width : Nat) (s : State) : Host.Outcome State Fault Refusal :=
  .next (if s.linOn && 150 ≤ width && width ≤ 5000 then
    let s := s.linActive
    if (s.modeNow = 1 || s.mode.park = 5) && bit (s.obj Obj.WAKE_CFG) 2 then s.wakeEvent 4 else s
  else s)

/-- The node's next wake-up signal: up to three in a block, two blocks. -/
def execLinWakeTx (s : State) : Host.Outcome State Fault Refusal :=
  .next (if s.linOn && s.lin.sleep && s.lin.wakeDue && !s.lin.short then
    let n := s.lin.wakes + 1
    if n < 3 then { s with lin := { s.lin with wakes := n } }
    else if s.lin.blocks = 0 then { s with lin := { s.lin with wakes := 0, blocks := 1 } }
    else { s with lin := { s.lin with wakes := 0, blocks := 2, wakeDue := false } }
  else s)

/-! ### The bus -/

/-- A header whose identifier the node does not use. -/
def execLinBreak (sync : Bool) (s : State) : Host.Outcome State Fault Refusal := .next (s.linHeader sync fun s => s)

def execLinBusShort (s : State) : Host.Outcome State Fault Refusal :=
  .next (if s.linOn then
    let s := { s with lin := { s.lin with short := true } }
    s.linShorted
  else s)

def execLinBusRecessive (s : State) : Host.Outcome State Fault Refusal :=
  .next ({ s with lin := { s.lin with short := false } }.clearK 0x13 3)

end Sys2Proof.Machine
end

