-- ==== Sys2Proof/Machine/Uds.lean ====
section
/-!
DEFINITION. Uds.lean: the commands of the diagnostic server: its transport, its services and its routines (R647-R673).
-/
namespace Sys2Proof.Machine

/-! ### The order of the checks -/

/-- The first condition that holds names the negative response; 0 where none does. -/
def firstNrc : List (Bool × Nat) → Nat
  | [] => 0
  | (b, n) :: r => if b then n else firstNrc r

/-- A service: its checks in order, then what it does. -/
def State.udsDo (s : State) (func : Bool) (m : List Byte) (checks : List (Bool × Nat)) (f : State → State) : State :=
  let n := firstNrc checks
  if n = 0 then f s else s.udsNegative func (byteAt m 0) n

/-- Sub-function and suppressPosRspMsgIndicationBit. -/
def subFn (m : List Byte) : Nat := byteAt m 1 % 128
def supBit (m : List Byte) : Bool := bit (byteAt m 1) 7

def State.session (s : State) : Nat := s.obj Obj.DIAG_SESSION
def State.inOvercast (s : State) : Bool := s.modeNow == 7

/-- The first bytes of a positive response. -/
def posHead (m : List Byte) : List Byte := leBytes 1 (byteAt m 0 + 0x40) ++ leBytes 1 (subFn m)

/-! ### 0x10, 0x11, 0x3E, 0x85 (R652, R666, R673) -/

/-- The programming session: from the extended one, in Service, not in Overcast; the session in force may be asked for again. -/
def State.progOk (s : State) : Bool := (s.session == 3 || s.session == 2) && s.modeNow == 5

def State.goSession (s : State) (n : Nat) : State :=
  if n = s.session then s else if n = 1 then s.sessionDefault.resolve else s.sessionChange n

def State.udsSession (s : State) (func : Bool) (m : List Byte) : State :=
  let n := subFn m
  s.udsDo func m [(m.length < 2, 0x13), (n != 1 && n != 2 && n != 3, 0x12), (m.length != 2, 0x13),
      (n == 2 && !s.progOk, 0x22), (s.uds.download.isSome && n != 2, 0x22)] fun s =>
    (s.goSession n).udsPositive (supBit m) 0 (posHead m ++ beBytes 2 0x0032 ++ beBytes 2 0x01F4)

/-- nRST is driven once the response has gone out (R666). -/
def State.udsReset (s : State) (func : Bool) (m : List Byte) : State :=
  let n := subFn m
  s.udsDo func m [(m.length < 2, 0x13), (n != 1 && n != 3, 0x12), (m.length != 2, 0x13), (s.uds.download.isSome, 0x22)] fun s =>
    (s.udsPositive (supBit m) 0 (posHead m)).modU fun u => { u with reset := if n = 1 then 2 else 1 }

def State.udsTester (s : State) (func : Bool) (m : List Byte) : State :=
  s.udsDo func m [(m.length < 2, 0x13), (subFn m != 0, 0x12), (m.length != 2, 0x13)] fun s =>
    s.udsPositive (supBit m) 0 (posHead m)

def State.udsSetting (s : State) (func : Bool) (m : List Byte) : State :=
  let n := subFn m
  s.udsDo func m [(s.session == 1, 0x7F), (m.length < 2, 0x13), (n != 1 && n != 2, 0x12), (m.length != 2, 0x13)] fun s =>
    (s.set Obj.DTC_SETTING (b2n (n == 1))).udsPositive (supBit m) 0 (posHead m)

/-! ### 0x14, 0x19 (R671, R672) -/

def State.udsClear (s : State) (func : Bool) (m : List Byte) : State :=
  let v := beNat (slice m 1 3)
  s.udsDo func m [(s.session == 2, 0x7F), (m.length != 4, 0x13), (!s.dtcGroup v, 0x31)] fun s =>
    (s.dtcClearBy v).udsPositive false 1 [0x54#8]

/-- A DTC as its three bytes, with its status. -/
def dtcWithStatus (code status : Nat) : List Byte := beBytes 3 (code * 256) ++ leBytes 1 status

def State.dtcMatching (s : State) (mask : Nat) : List Dtc := s.uds.dtcs.filter fun d => (d.status &&& mask &&& 0x2F) != 0

def State.dtc? (s : State) (v : Nat) : Option Dtc := s.uds.dtcs.find? fun d => d.code * 256 == v

/-- A snapshot record: its number, six identifiers, each with its value (R670). -/
def snapRecord (n : Nat) (b : List Byte) : List Byte :=
  leBytes 1 n ++ [6#8] ++ ([(0x4100, 0, 1), (0x4300, 1, 1), (0x4415, 2, 2), (0x4700, 4, 2), (0x4901, 6, 4), (0x4805, 10, 4)].flatMap
    fun (x : Nat × Nat × Nat) => beBytes 2 x.1 ++ slice b x.2.1 x.2.2)

/-- Extended data records of a DTC: 1 occurrences, 2 cycles since, 3 class. -/
def extRecords (d : Dtc) (n : Nat) : List Byte :=
  ([(1, d.count), (2, d.cycles), (3, d.cls)].filter fun (x : Nat × Nat) => n = 0xFF || x.1 = n).flatMap
    fun (x : Nat × Nat) => leBytes 1 x.1 ++ leBytes 1 x.2

/-- Sources of the variant (R6). -/
def State.sourceHere (s : State) (src : Nat) : Bool :=
  match s.variant with
  | .A => true
  | .B => !([4, 5, 0x0E, 0x0F, 0x10].contains src)
  | .C => !([4, 5, 0x0E, 0x0F, 0x10, 0x12, 0x14].contains src)

/-- Every DTC of the catalogue for the variant, with its status. -/
def State.dtcCatalogue (s : State) : List Byte :=
  (List.range 28).flatMap fun src => if !s.sourceHere src then [] else
    (List.range (catalogue src).length).flatMap fun i =>
      if (classOf src (i + 1)).isNone then [] else
        let c := src * 256 + i + 1
        dtcWithStatus c ((s.uds.dtcs.find? fun d => d.code == c).elim 0 Dtc.status)

def dtcSubs : List Nat := [1, 2, 4, 6, 0x0A]
/-- Length of a request by its sub-function. -/
def dtcLen : Nat → Nat
  | 1 => 3
  | 2 => 3
  | 0x0A => 2
  | _ => 6

/-- The record number of sub-functions 0x04 and 0x06 exists. -/
def recordOk (sub n : Nat) : Bool :=
  if sub = 4 then n == 1 || n == 2 || n == 0xFF else if sub = 6 then n == 1 || n == 2 || n == 3 || n == 0xFF else true

/-- The report of a sub-function. -/
def State.dtcReport (s : State) (sub : Nat) (m : List Byte) : List Byte :=
  let mask := byteAt m 2
  let n := byteAt m 5
  match sub with
  | 1 => [0x2F#8, 0x01#8] ++ beBytes 2 (s.dtcMatching mask).length
  | 2 => 0x2F#8 :: (s.dtcMatching mask).flatMap fun d => dtcWithStatus d.code d.status
  | 0x0A => 0x2F#8 :: s.dtcCatalogue
  | _ =>
    match s.dtc? (beNat (slice m 2 3)) with
    | none => []
    | some d => dtcWithStatus d.code d.status ++
        (if sub = 4 then (if n = 2 then [] else snapRecord 1 d.snap1) ++ (if n = 1 then [] else snapRecord 2 d.snap2) else extRecords d n)

def State.udsDtc (s : State) (func : Bool) (m : List Byte) : State :=
  let n := subFn m
  let one := n == 4 || n == 6
  s.udsDo func m [(m.length < 2, 0x13), (!dtcSubs.contains n, 0x12), (m.length != dtcLen n, 0x13),
      (one && (s.dtc? (beNat (slice m 2 3))).isNone, 0x31), (!recordOk n (byteAt m 5), 0x31)] fun s =>
    s.udsPositive (supBit m) 0 (posHead m ++ s.dtcReport n m)

/-! ### Data identifiers (R658-R661) -/

/-- The entry of the UDS image that maps a DID: key and flags. -/
def State.didEntry (s : State) (did : Nat) : Option (Nat × Nat) :=
  match s.body 8 with
  | none => none
  | some b => ((List.range (leAt b 0 2)).map fun i => slice b (8 + 8 * i) 8).find? (fun e => leAt e 0 2 == did) |>.map
      fun e => ((leAt e 2 2 % 4096) * 256 + byteAt e 4, byteAt e 5)

/-- The level that an entry asks for: unlocked. -/
def State.levelOk (s : State) (flags : Nat) : Bool :=
  match field flags 3 2 with
  | 0 => true
  | 1 => s.unlocked 1
  | _ => s.unlocked 0x11

/-- DIDs that the server answers itself. -/
def State.didOwn (s : State) (did : Nat) : Option (List Byte) :=
  if did = 0xF186 then some (leBytes 1 s.session)
  else if did = 0xF18C then some (leBytes 8 (s.obj Obj.UNIQUE_ID))
  else if did = 0xF195 then some (leBytes 2 (s.obj Obj.ROM_VERSION) ++ leBytes 1 (s.obj Obj.SILICON_STEP))
  else none

/-- The key of a read of an object DID: the whole object where it has one, otherwise sub-index 0. -/
def State.didKey (s : State) (did : Nat) : Nat :=
  let i := did % 4096
  i * 256 + (if (s.wholeSubs i).isSome then 0xFF else 0)

/-- What a read of a DID reads: a key, and its code; or 0x31 where nothing is mapped, 0x33 below the entry's level. -/
def State.didRead (s : State) (did : Nat) : Nat × Nat :=
  if did / 4096 = 4 then (0, s.didKey did)
  else match s.didEntry did with
    | none => (0x31, 0)
    | some (k, f) => if !bit f 0 then (0x31, 0) else if !s.levelOk f then (0x33, 0) else (0, k)

/-- The NRC of a read of a DID. -/
def State.didNrc (s : State) (did : Nat) : Nat :=
  if (s.didOwn did).isSome then 0
  else
    let r := s.didRead did
    if r.1 != 0 then r.1
    else
      let c := s.readCode .T r.2
      let lost := s.keyType r.2 = some .domain && s.obj Obj.DIAG_DOMAIN_OFS != 0 && (s.snap? .T r.2).isNone
      nrcOf (if c = 0 && lost then 6 else c)

/-- A segment of a DOMAIN from DIAG_DOMAIN_OFS, which then moves (R659). -/
def State.didDomain (s : State) (k : Nat) : List Byte × State :=
  let ofs := s.obj Obj.DIAG_DOMAIN_OFS
  let (_, total, d, s) := s.readSegment .T k ofs 4000
  let next := ofs + d.length
  (leBytes 4 total ++ d, s.set Obj.DIAG_DOMAIN_OFS (if total ≤ next then 0 else next))

/-- One DID read: its record. -/
def State.didData (s : State) (did : Nat) : List Byte × State :=
  match s.didOwn did with
  | some b => (b, s)
  | none =>
    let k := (s.didRead did).2
    if s.keyType k = some .domain then s.didDomain k
    else
      let r := s.readKey .T k
      (r.2.1, r.2.2)

def State.didAll (s : State) : List Nat → List Byte × State
  | [] => ([], s)
  | did :: l =>
    let r := s.didData did
    let q := r.2.didAll l
    (beBytes 2 did ++ r.1 ++ q.1, q.2)

/-- The access that fails is recorded in the object server (R616). -/
def State.didRefuse (s : State) (did : Nat) : State :=
  if (s.didOwn did).isSome then s
  else
    let r := s.didRead did
    let c := s.readCode .T r.2
    if r.1 = 0 && c != 0 then s.answerWith .T r.2 c [] else s

def State.udsRead (s : State) (func : Bool) (m : List Byte) : State :=
  let l := (List.range ((m.length - 1) / 2)).map fun i => beNat (slice m (1 + 2 * i) 2)
  if m.length % 2 = 0 || l.isEmpty || 8 < l.length then s.udsNegative func 0x22 0x13
  else match l.find? fun d => s.didNrc d != 0 with
    | some d => (s.didRefuse d).udsNegative func 0x22 (s.didNrc d)
    | none =>
      let r := s.didAll l
      if 4095 < 1 + r.1.length then s.udsNegative func 0x22 0x14 else r.2.udsSend (0x62#8 :: r.1)

/-- What a write of a DID writes: NRC, key, data. -/
def State.didWrite (s : State) (did : Nat) (m : List Byte) : Nat × Nat × List Byte :=
  if did / 4096 = 4 then (0, (did % 4096) * 256 + byteAt m 3, m.drop 4)
  else match s.didEntry did with
    | none => (0x31, 0, [])
    | some (k, f) => if !bit f 1 then (0x31, 0, []) else if !s.levelOk f then (0x33, 0, []) else (0, k, m.drop 3)

/-- Writes that need no level of their own. -/
def freeWrite (k : Nat) : Bool := k == Obj.FAULT_ACK || k == Obj.DIAG_DOMAIN_OFS

def State.udsWrite (s : State) (func : Bool) (m : List Byte) : State :=
  let did := beNat (slice m 1 2)
  let w := s.didWrite did m
  let k := w.2.1
  s.udsDo func m [(s.inOvercast && (m.length < 4 || w.1 == 0x31 || !overcastWrite k), 0x22), (s.session == 1, 0x7F),
      (m.length < 4, 0x13), (w.1 != 0, w.1), (!freeWrite k && !s.unlocked 1, 0x33)] fun s =>
    let r := s.writeWhole .T k w.2.2
    if r.1 = 0 then r.2.udsPositive false (slowKey k) (0x6E#8 :: slice m 1 2) else r.2.udsNegative func 0x2E (nrcOf r.1)

/-! ### Security access (R662) -/

def State.udsSecurity (s : State) (func : Bool) (m : List Byte) : State :=
  let n := subFn m
  let seed := n == 1 || n == 0x11
  let key := n == 2 || n == 0x12
  s.udsDo func m [(s.session == 1, 0x7F), (m.length < 2, 0x13), (!seed && !key, 0x12), (0x11 ≤ n && s.session != 2, 0x7E),
      (m.length != (if seed then 2 else 10), 0x13)] fun s =>
    if seed then
      let r := s.secSeed n
      if r.1 = 0 then r.2.2.udsPositive (supBit m) 0 (posHead m ++ r.2.1) else r.2.2.udsNegative func 0x27 r.1
    else
      let r := s.secKey (n - 1) (m.drop 2)
      if r.1 = 0 then r.2.udsPositive (supBit m) 0 (posHead m) else r.2.udsNegative func 0x27 r.1

/-! ### Routines (R667) -/

/-- The object that a routine's start writes, its value's bytes, and its option record's length. -/
def routineKey (rid : Nat) : Nat := if rid = 0x0201 then Obj.SELFCAL_CMD else if rid = 0x0202 then Obj.HZ_EPOCH_CMD else Obj.TABLE_SWITCH
def optLen (rid : Nat) : Nat := if rid = 0x0203 then 1 else if rid = 0x0204 then 4 else 0

def State.routineHere (s : State) (rid : Nat) : Bool :=
  rid == 0x0201 || rid == 0x0202 || rid == 0x0204 || (rid == 0x0203 && s.variant == .A)

def State.routineLevel (s : State) (rid : Nat) : Bool := s.unlocked (if rid = 0x0204 then 0x11 else 1)

def State.routineMark (s : State) (rid : Nat) : State := s.modU fun u => { u with routines := setBit u.routines (rid - 0x0201) true }

/-- The bursts of a port run (R318). -/
def State.burstsRun (s : State) (p : Port) : Bool :=
  s.linkHere && s.lState p != 0 && !s.bringing && s.inMode [2, 3, 4, 5]

/-- A moisture test: the burst starts at once. -/
def State.moistureStart (s : State) (func : Bool) (m : List Byte) : State :=
  let n := byteAt m 4
  let p := if n = 0 then Port.east else Port.west
  s.udsDo func m [(1 < n, 0x31), (!s.burstsRun p, 0x22)] fun s =>
    let s := (s.modL p fun l => { l with burst := if l.mated then 2 else 1 }).modU fun u => { u with testPort := n + 1, testDone := false }
    (s.routineMark 0x0203).udsPositive (supBit m) 0 (posHead m ++ slice m 2 2)

def State.routineStart (s : State) (func : Bool) (rid : Nat) (m : List Byte) : State :=
  if rid = 0x0203 then s.moistureStart func m
  else
    let r := s.writeKey .T (routineKey rid) (if rid = 0x0204 then slice m 4 4 else [1#8])
    if r.1 = 0 then (r.2.routineMark rid).udsPositive (supBit m) 0 (posHead m ++ slice m 2 2) else r.2.udsNegative func 0x31 (nrcOf r.1)

/-- The results record. -/
def State.routineResults (s : State) (rid : Nat) : List Byte :=
  if rid = 0x0201 then leBytes 1 (s.obj Obj.CAL_STATE)
  else if rid = 0x0202 then leBytes 1 (s.obj Obj.HZ_EPOCH_RESULT) ++ leBytes 4 (s.obj Obj.HZ_EPOCH_COUNT)
  else if rid = 0x0203 then
    let n := s.uds.testPort
    leBytes 1 (b2n s.uds.testDone) ++ leBytes 2 (s.obj (Obj.LINK_LEAK n)) ++ leBytes 2 (s.obj (Obj.LINK_SUSC n)) ++
      leBytes 1 (s.obj (Obj.LINK_MOIST n))
  else leBytes 4 (s.obj Obj.TABLE_SWITCH)

def State.udsRoutine (s : State) (func : Bool) (m : List Byte) : State :=
  let n := subFn m
  let rid := beNat (slice m 2 2)
  s.udsDo func m [(s.inOvercast, 0x22), (s.session == 1, 0x7F), (m.length < 2, 0x13), (n != 1 && n != 3, 0x12), (m.length < 4, 0x13),
      (!s.routineHere rid, 0x31), (m.length != (if n = 1 then 4 + optLen rid else 4), 0x13), (!s.routineLevel rid, 0x33),
      (n == 3 && !bit s.uds.routines (rid - 0x0201), 0x24)] fun s =>
    if n = 1 then s.routineStart func rid m else s.udsPositive (supBit m) 0 (posHead m ++ slice m 2 2 ++ s.routineResults rid)

/-! ### Download (R663, R664) -/

def State.udsRequestDownload (s : State) (func : Bool) (m : List Byte) : State :=
  let size := beNat (slice m 4 4)
  let format := byteAt m 1 != 0 || byteAt m 2 != 0x41
  s.udsDo func m [(s.inOvercast, 0x22), (s.session != 2, 0x7F), (m.length < 3, 0x13), (!s.unlocked 0x11, 0x33), (format, 0x31),
      (m.length != 8, 0x13), (byteAt m 3 != 0 || size < 64 || 524288 < size, 0x31), (s.modeNow != 5 || !s.tablesQuiet, 0x22)] fun s =>
    ((s.modU fun u => { u with download := some { size := size } }).set Obj.DOWNLOAD_STATE 1).udsPositive false 0
      ([0x74#8, 0x20#8] ++ beBytes 2 0x0FFF)

/-- One block against the download's counter and size: the NRC, and whether it repeats the last one. -/
def Download.check (d : Download) (m : List Byte) : Nat × Bool :=
  let c := byteAt m 1
  if !d.data.isEmpty && (c + 1) % 256 = d.next then (0, true)
  else if c != d.next then (0x73, false)
  else if d.size < d.data.length + (m.length - 2) then (0x71, false)
  else (0, false)

def State.udsTransfer (s : State) (func : Bool) (m : List Byte) : State :=
  let d := s.uds.download.getD { size := 0 }
  let r := d.check m
  s.udsDo func m [(s.session != 2, 0x7F), (m.length < 3, 0x13), (!s.unlocked 0x11, 0x33), (s.uds.download.isNone, 0x24), (r.1 != 0, r.1)]
    fun s =>
      let s := if r.2 then s else s.modU fun u => { u with download := some { d with data := d.data ++ m.drop 2, next := (d.next + 1) % 256 } }
      s.udsPositive false 0 (0x76#8 :: slice m 1 1)

/-- The image is checked and stored; the positive answer follows the flash commit. -/
def State.udsStore (s : State) (func : Bool) (data : List Byte) : State :=
  let s := (s.modU fun u => { u with download := none }).set Obj.DOWNLOAD_STATE 2
  let r := s.storeImage s.idleBank data
  if r.1 then (if r.2.tabs.writing.isSome then r.2 else r.2.set Obj.DOWNLOAD_STATE 3).udsPositive false 2 [0x77#8]
  else ((r.2.set Obj.DOWNLOAD_STATE 4).raise 0x14 3 (byteAt data 5)).udsNegative func 0x37 0x72

def State.udsExit (s : State) (func : Bool) (m : List Byte) : State :=
  let d := s.uds.download.getD { size := 0 }
  s.udsDo func m [(s.session != 2, 0x7F), (m.length != 1, 0x13), (!s.unlocked 0x11, 0x33),
      (s.uds.download.isNone || d.data.length < d.size, 0x24)] fun s => s.udsStore func d.data

/-! ### A request (R651, R656) -/

/-- A whole request, to its service. -/
def State.udsServe (s : State) (func : Bool) (m : List Byte) : State :=
  match byteAt m 0 with
  | 0x10 => s.udsSession func m
  | 0x11 => s.udsReset func m
  | 0x14 => s.udsClear func m
  | 0x19 => s.udsDtc func m
  | 0x22 => s.udsRead func m
  | 0x27 => s.udsSecurity func m
  | 0x2E => s.udsWrite func m
  | 0x31 => s.udsRoutine func m
  | 0x34 => s.udsRequestDownload func m
  | 0x36 => s.udsTransfer func m
  | 0x37 => s.udsExit func m
  | 0x3E => s.udsTester func m
  | 0x85 => s.udsSetting func m
  | _ => s.udsNegative func (byteAt m 0) 0x11

/-- A request is being received, processed or answered. -/
def State.udsBusy (s : State) : Bool := s.uds.rx.isSome || s.uds.tx.isSome || s.uds.waiting.isSome

/-- A frame on a request identifier, where CANB receives and the server runs. -/
def State.udsRx (s : State) (f : State → State) : State :=
  if s.canOn .b && (s.canState .b == 2 || s.canState .b == 3) then
    let s := s.canStat .b 1
    if s.udsUp then f s else s
  else s

/-- A request in a single frame. -/
def State.udsSingle (s : State) (func fd : Bool) (m : List Byte) : State :=
  s.udsRx fun s =>
    if m.isEmpty || sfMax fd < m.length || s.udsBusy then s else (s.modU fun u => { u with fd := fd }).udsServe func m

/-! ### Transport (R649, R650) -/

/-- Flow control of the device's own: clear to send, with BS and STmin of DIAG_TP. -/
def State.flowControl (s : State) : State :=
  let t := s.obj Obj.DIAG_TP
  s.udsEmit ([0x30#8] ++ leBytes 1 (t % 256) ++ leBytes 1 (t / 256))

/-- A first frame: its length, whether it uses the escape sequence, its data. -/
def execFirstFrame (func fd : Bool) (len : Nat) (esc : Bool) (d : List Byte) (s : State) : Host.Outcome State Fault Refusal :=
  .next (s.udsRx fun s =>
    if func || s.udsBusy || (!esc && len ≤ sfMax fd) then s
    else
      let s := s.modU fun u => { u with fd := fd }
      if esc || 4095 < len then s.udsEmit [0x32#8, 0#8, 0#8]
      else (s.modU fun u => { u with rx := some (len, d.take (ffData fd), 0) }).flowControl)

/-- The next consecutive frame of the message being received. -/
def State.consecutive (s : State) (sn : Nat) (d : List Byte) : State :=
  match s.uds.rx with
  | none => s
  | some (len, got, n) =>
    let all := (got ++ d.take (cfData s.uds.fd)).take len
    if sn != (n + 1) % 16 then s.modU fun u => { u with rx := none }
    else if all.length = len then (s.modU fun u => { u with rx := none }).udsServe false all
    else
      let s := s.modU fun u => { u with rx := some (len, all, n + 1) }
      let bs := s.obj Obj.DIAG_TP % 256
      if bs != 0 && (n + 1) % bs = 0 then s.flowControl else s

def execConsecutiveFrame (sn : Nat) (d : List Byte) (s : State) : Host.Outcome State Fault Refusal :=
  .next (s.logged fun s => s.udsRx fun s => s.consecutive sn d)

/-- STmin in ticks: 0-127 ms, or 0xF1-0xF9 for 100-900 µs; any other code is the longest (ISO 15765-2). -/
def stMin (st : Nat) : Nat := if st ≤ 0x7F then ms st else if 0xF1 ≤ st ∧ st ≤ 0xF9 then us (100 * (st - 0xF0)) else ms 0x7F

/-- The tester's flow control: status, BS, STmin (R649). -/
def State.flowIn (s : State) (fs bs st : Nat) : State :=
  match s.uds.tx with
  | none => s
  | some (left, n, w) =>
    if s.uds.allow != 0 then s
    else if fs = 0 then s.modU fun u => { u with tx := some (left, n, 0), allow := if bs = 0 then 4096 else bs, st := stMin st, nextAt := s.now }
    else if fs = 1 && w < 8 then s.modU fun u => { u with tx := some (left, n, w + 1) }
    else s.modU fun u => { u with tx := none }

def execFlowControl (fs bs st : Nat) (s : State) : Host.Outcome State Fault Refusal :=
  .next (s.udsRx fun s => s.flowIn fs bs st)

def execNBsTimeout (s : State) : Host.Outcome State Fault Refusal :=
  .next (if s.udsUp && s.uds.tx.isSome && s.uds.allow = 0 then (s.modU fun u => { u with tx := none }).raise 0x14 2 1 else s)

def execNCrTimeout (s : State) : Host.Outcome State Fault Refusal :=
  .next (if s.udsUp && s.uds.rx.isSome then (s.modU fun u => { u with rx := none }).raise 0x14 2 2 else s)

/-! ### The services as commands: `m` is the request as it came -/

/-- The row of the command table that a request belongs to: its service, and its sub-function or routine where rows differ by it. -/
def udsRow (m : List Byte) : Option Nat :=
  let n := subFn m
  match byteAt m 0 with
  | 0x11 => if n = 1 ∨ n = 3 then some (0x1100 + n) else none
  | 0x19 => if dtcSubs.contains n then some (0x1900 + n) else none
  | 0x27 => if n = 1 ∨ n = 0x11 then some 0x2701 else if n = 2 ∨ n = 0x12 then some 0x2702 else none
  | 0x31 =>
    let rid := beNat (slice m 2 2)
    if n = 3 then some 0x3103 else if n = 1 ∧ 0x0201 ≤ rid ∧ rid ≤ 0x0204 then some (0x310000 + rid) else none
  | 0x85 => if n = 1 ∨ n = 2 then some (0x8500 + n) else none
  | 0x10 => some 0x1000
  | 0x14 => some 0x1400
  | 0x22 => some 0x2200
  | 0x2E => some 0x2E00
  | 0x34 => some 0x3400
  | 0x36 => some 0x3600
  | 0x37 => some 0x3700
  | 0x3E => some 0x3E00
  | _ => none

/-- A request of a row. One that belongs to no row (R656: service or sub-function not supported) may come under any of them. -/
def State.udsCommand (s : State) (row : Nat) (func fd : Bool) (m : List Byte) : State :=
  if (udsRow m).elim true (· == row) then s.udsSingle func fd m else s

def execDiagnosticSessionControl (func fd : Bool) (m : List Byte) (s : State) : Host.Outcome State Fault Refusal :=
  .next (s.logged fun s => s.udsCommand 0x1000 func fd m)
def execEcuResetHard (func fd : Bool) (m : List Byte) (s : State) : Host.Outcome State Fault Refusal :=
  .next (s.logged fun s => s.udsCommand 0x1101 func fd m)
def execEcuResetSoft (func fd : Bool) (m : List Byte) (s : State) : Host.Outcome State Fault Refusal :=
  .next (s.logged fun s => s.udsCommand 0x1103 func fd m)
def execClearDiagnosticInformation (func fd : Bool) (m : List Byte) (s : State) : Host.Outcome State Fault Refusal :=
  .next (s.logged fun s => s.udsCommand 0x1400 func fd m)
def execReportNumberOfDtc (func fd : Bool) (m : List Byte) (s : State) : Host.Outcome State Fault Refusal :=
  .next (s.logged fun s => s.udsCommand 0x1901 func fd m)
def execReportDtcByStatus (func fd : Bool) (m : List Byte) (s : State) : Host.Outcome State Fault Refusal :=
  .next (s.logged fun s => s.udsCommand 0x1902 func fd m)
def execReportDtcSnapshot (func fd : Bool) (m : List Byte) (s : State) : Host.Outcome State Fault Refusal :=
  .next (s.logged fun s => s.udsCommand 0x1904 func fd m)
def execReportDtcExtendedData (func fd : Bool) (m : List Byte) (s : State) : Host.Outcome State Fault Refusal :=
  .next (s.logged fun s => s.udsCommand 0x1906 func fd m)
def execReportSupportedDtc (func fd : Bool) (m : List Byte) (s : State) : Host.Outcome State Fault Refusal :=
  .next (s.logged fun s => s.udsCommand 0x190A func fd m)
def execReadDataByIdentifier (func fd : Bool) (m : List Byte) (s : State) : Host.Outcome State Fault Refusal :=
  .next (s.logged fun s => s.udsCommand 0x2200 func fd m)
def execWriteDataByIdentifier (func fd : Bool) (m : List Byte) (s : State) : Host.Outcome State Fault Refusal :=
  .next (s.logged fun s => s.udsCommand 0x2E00 func fd m)
def execSecurityAccessSeed (func fd : Bool) (m : List Byte) (s : State) : Host.Outcome State Fault Refusal :=
  .next (s.logged fun s => s.udsCommand 0x2701 func fd m)
def execSecurityAccessKey (func fd : Bool) (m : List Byte) (s : State) : Host.Outcome State Fault Refusal :=
  .next (s.logged fun s => s.udsCommand 0x2702 func fd m)
def execRoutineSelfCalibration (func fd : Bool) (m : List Byte) (s : State) : Host.Outcome State Fault Refusal :=
  .next (s.logged fun s => s.udsCommand 0x310201 func fd m)
def execRoutineHorizonEpoch (func fd : Bool) (m : List Byte) (s : State) : Host.Outcome State Fault Refusal :=
  .next (s.logged fun s => s.udsCommand 0x310202 func fd m)
def execRoutineMoistureTest (func fd : Bool) (m : List Byte) (s : State) : Host.Outcome State Fault Refusal :=
  .next (s.logged fun s => s.udsCommand 0x310203 func fd m)
def execRoutineTableSwitch (func fd : Bool) (m : List Byte) (s : State) : Host.Outcome State Fault Refusal :=
  .next (s.logged fun s => s.udsCommand 0x310204 func fd m)
def execRequestRoutineResults (func fd : Bool) (m : List Byte) (s : State) : Host.Outcome State Fault Refusal :=
  .next (s.logged fun s => s.udsCommand 0x3103 func fd m)
def execRequestDownload (func fd : Bool) (m : List Byte) (s : State) : Host.Outcome State Fault Refusal :=
  .next (s.logged fun s => s.udsCommand 0x3400 func fd m)
def execTransferData (func fd : Bool) (m : List Byte) (s : State) : Host.Outcome State Fault Refusal :=
  .next (s.logged fun s => s.udsCommand 0x3600 func fd m)
def execRequestTransferExit (func fd : Bool) (m : List Byte) (s : State) : Host.Outcome State Fault Refusal :=
  .next (s.logged fun s => s.udsCommand 0x3700 func fd m)
def execTesterPresent (func fd : Bool) (m : List Byte) (s : State) : Host.Outcome State Fault Refusal :=
  .next (s.logged fun s => s.udsCommand 0x3E00 func fd m)
def execControlDtcSettingOn (func fd : Bool) (m : List Byte) (s : State) : Host.Outcome State Fault Refusal :=
  .next (s.logged fun s => s.udsCommand 0x8501 func fd m)
def execControlDtcSettingOff (func fd : Bool) (m : List Byte) (s : State) : Host.Outcome State Fault Refusal :=
  .next (s.logged fun s => s.udsCommand 0x8502 func fd m)

/-! ### Time (R653, R654, R662) -/

/-- The 10 s of SEC_DELAY are over. -/
def execSecurityDelayEnd (s : State) : Host.Outcome State Fault Refusal :=
  .next (if s.aon.por then s else s.set Obj.SEC_DELAY 0)

/-- NRC 0x78 while a response is not ready. -/
def execResponsePending (s : State) : Host.Outcome State Fault Refusal :=
  .next (match s.uds.waiting with
    | some (_, m) => if s.udsUp then s.udsEmit [0x03#8, 0x7F#8, BitVec.ofNat 8 (byteAt m 0 + 192), 0x78#8] else s
    | none => s)

def execS3ServerTimeout (s : State) : Host.Outcome State Fault Refusal :=
  .next (s.logged fun s => if s.udsUp && s.session != 1 && !s.udsBusy then ((s.raise 0x14 4 s.session).sessionDefault).resolve else s)

end Sys2Proof.Machine
end

