-- ==== Sys2Proof/Machine/Fabric.lean ====
section
/-!
DEFINITION. Fabric.lean: the commands of the Hexast fabric (R352-R389). Times are in units of 0.5 ns.
-/
namespace Sys2Proof.Machine

/-! ### Receivers and the recovered clock (R356, R362, R386, R549) -/

/-- A PLL without a recovered clock locks to the port that becomes LOCKED; to East where both lock at one instant (R386). -/
def State.clkLock (s : State) (p : Port) : State :=
  let c := s.obj Obj.CLK_STATE
  let step := s.obj Obj.BRINGUP_STEP
  if s.clkm = 2 && !s.aon.clockStopped && (c = 4 || (c = 6 && step = 4)) && (step = 0 || 4 ≤ step) then
    { s with fab := { s.fab with clkAt := some s.now } }.set Obj.CLK_STATE (2 + p.num)
  else if p == .east && c == 3 && s.fab.clkAt == some s.now && s.fab.zenith.isNone then s.set Obj.CLK_STATE 2
  else s

def execReceiverLock (p : Port) (s : State) : Host.Outcome State Fault Refusal :=
  .next (if s.variant != Variant.A || s.aon.por then s
  else
    let s := s.clkLock p
    if s.obj (Obj.PORT_STATE (p.num + 1)) = 1 then
      (s.modFab p fun x => { x with hellos := 0, delays := [], txTime := 0, rxTime := 0 }).set (Obj.PORT_STATE (p.num + 1)) 2
    else s)

def execReceiverLockLost (p : Port) (s : State) : Host.Outcome State Fault Refusal :=
  .next (if 2 ≤ s.obj (Obj.PORT_STATE (p.num + 1)) then s.portDown p else s)

/-! ### Hellos (R363-R365) -/

/-- The HELLO payload with the time of its SOF. -/
def State.helloBytes (s : State) (p : Port) (t : Nat) : List Byte :=
  let f := s.fab.ports.get p
  leBytes 8 s.uid ++ leBytes 1 s.nodeId ++ leBytes 1 p.num ++ leBytes 1 s.fabFlags ++ leBytes 1 1 ++ leBytes 4 t ++
    leBytes 4 f.txTime ++ leBytes 4 (if f.txTime = 0 && f.rxTime = 0 then 0 else t + 2 ^ 32 - f.rxTime % 2 ^ 32) ++
    leBytes 2 (s.obj Obj.ASSIGN_GEN)

/-- The 1.000 ms of a port that is LOCKED, UP or MISWIRED; `t` is its time counter at the SOF. -/
def execHelloSend (p : Port) (t : Nat) (s : State) : Host.Outcome State Fault Refusal :=
  .next (if 2 ≤ s.obj (Obj.PORT_STATE (p.num + 1)) then
    s.fabLocal p 1 { node := 0xFF, src := s.nodeId, type := 1, data := s.helloBytes p t }
  else s)

/-- The mean of delays, rounded. -/
def meanDelay (l : List Int) : Nat :=
  let n : Int := l.length
  if l.isEmpty then 0 else min 65535 ((2 * l.foldl (· + ·) 0 + n) / (2 * n)).toNat

/-- One value of the hop delay (R364). A hello that echoes none of this port's gives none. -/
def State.hopDelay (s : State) (p : Port) (b : List Byte) (t : Nat) : State :=
  let echo := leAt b 16 4
  let turn := leAt b 20 4
  if echo = 0 && turn = 0 then s
  else
    let d := ofCode 32 (((t : Int) - echo - turn) % (2 ^ 32 : Int)).toNat / 2
    let s := s.modFab p fun x => { x with delays := (d :: x.delays).take 16 }
    s.set (Obj.PORT_DELAY (p.num + 1)) (meanDelay (s.fab.ports.get p).delays)

/-- MISWIRED, with its condition; of what is queued only HELLO still leaves (R363, R365). -/
def State.miswire (s : State) (p : Port) : State :=
  let s := s.modFab p fun x => { x with queue := x.queue.filter fun e => e.2.type == 1 }
  (if s.portUp p then s.assignCut.portChange p 4 0 else s.set (Obj.PORT_STATE (p.num + 1)) 4).raiseC 0x0E 2 p.num

/-- The port's state after a good hello. -/
def State.helloState (s : State) (p : Port) (b : List Byte) : State :=
  let st := s.obj (Obj.PORT_STATE (p.num + 1))
  let same := byteAt b 9 % 2 == p.num
  let uid := leAt b 0 8
  if st = 2 then
    if (s.fab.ports.get p).hellos < 2 then s else if same then s.miswire p else s.portChange p 3 uid
  else if st = 3 then
    if same then s.miswire p else if s.obj (Obj.PORT_NBR (p.num + 1)) = uid then s else s.portChange p 3 uid
  else s

/-- A HELLO whose SOF came at `t`. -/
def State.hello (s : State) (p : Port) (b : List Byte) (t : Nat) : State :=
  let r := s.fabTake p 1
  if !r.1 then r.2
  else if b.length != 26 || byteAt b 11 != 1 then (s.modFab p fun x => { x with hellos := 0 }).fabBad p
  else
    let s := r.2.hopDelay p b t
    let s := s.modFab p fun x => { x with
      hellos := x.hellos + 1, txTime := leAt b 12 4, rxTime := t, nbrNode := byteAt b 8, nbrFlags := byteAt b 10 }
    s.helloState p b

def execHello (p : Port) (b : List Byte) (t : Nat) (s : State) : Host.Outcome State Fault Refusal := .next (s.hello p b t)

/-- 2.15 ms without a good hello. -/
def execHelloTimeout (p : Port) (s : State) : Host.Outcome State Fault Refusal :=
  .next (if 3 ≤ s.obj (Obj.PORT_STATE (p.num + 1)) then s.portDown p else s)

/-! ### Topology and election (R366-R372) -/

/-- A record is held; any change but TOPO_SEQ unsettles the fabric. -/
def State.topoHold (s : State) (r : TopoRec) : State :=
  let was := s.fab.recs.find? fun x => x.uid == r.uid
  let left := was.elim false fun x => (x.east != 0 && r.east == 0) || (x.west != 0 && r.west == 0)
  let s := if left then s.assignCut else s
  let s := { s with fab := { s.fab with recs := (s.fab.recs.filter fun x => x.uid != r.uid) ++ [r] } }
  if was = some { r with seq := (was.map (·.seq)).getD 0 } then s else s.unsettle.routesMove

/-- A TOPO frame: delivered, and forwarded out of the other port, where it is newer. -/
def State.topo (s : State) (p : Port) (f : Frame) : State :=
  let k := s.fabTake p 2
  let r := topoOf f.data
  if !k.1 then k.2
  else if f.data.length != 32 then s.fabBad p
  else if r.uid = s.uid || (s.fab.recs.find? fun x => x.uid == r.uid).elim false fun x => !seqNewer r.seq x.seq then k.2
  else
    let s := k.2.topoHold r
    if s.portUp p.other then s.hopsOk f fun f s => s.fabOut p.other f else s

def execTopo (p : Port) (src seq hops : Nat) (b : List Byte) (s : State) : Host.Outcome State Fault Refusal :=
  .next (s.topo p { node := 0xFF, src := src, type := 2, seq := seq, hops := hops, data := b })

def execTopoSend (s : State) : Host.Outcome State Fault Refusal := .next s.topoSend

/-- 350 ms without a refresh of a node's record. -/
def execTopoRecordExpiry (uid : Nat) (s : State) : Host.Outcome State Fault Refusal :=
  .next (if s.fab.recs.any fun r => r.uid == uid then
    ({ s with fab := { s.fab with recs := s.fab.recs.filter fun r => r.uid != uid } } : State).unsettle.routesMove
  else s)

/-- The records have stood for 20 ms. -/
def execFabricSettled (s : State) : Host.Outcome State Fault Refusal :=
  .next (if s.fabOn && !s.fab.settled then s.settle.clkFollow.bootKick else s)

/-- The entries of an ASSIGN payload. -/
def assignEntries (b : List Byte) : List (Nat × Nat) :=
  (List.range (byteAt b 4)).map fun i => (leAt b (8 + 9 * i) 8, byteAt b (16 + 9 * i))

/-- An assignment is taken when none has been since power-on, or its generation is higher, or its sender's UID lower. -/
def State.assignBetter (s : State) (gen from_ : Nat) : Bool :=
  !s.fab.adopted || s.obj Obj.ASSIGN_GEN < gen || (gen == s.obj Obj.ASSIGN_GEN && from_ < s.fab.from_)

/-- The UIDs that the last assignment lists, over its parts. -/
def State.assignList (s : State) (b : List Byte) : State :=
  let l := (assignEntries b).map (·.1)
  { s with fab := { s.fab with listed := if byteAt b 2 = 0 then l else s.fab.listed ++ l.filter fun u => !s.fab.listed.contains u } }

/-- Local delivery of an ASSIGN frame. -/
def State.assignTake (s : State) (src : Nat) (b : List Byte) : State :=
  let gen := leAt b 0 2
  let from_ := s.assignFrom src b
  let s := if s.obj Obj.ASSIGN_GEN ≤ gen || !s.fab.adopted then s.assignList b else s
  match (assignEntries b).find? fun e => e.1 == s.uid with
  | some (_, id) => if s.assignBetter gen from_ then (s.adopt id gen from_).zenithObjs.bootKick else s
  | none => s

def State.assignRx (s : State) (p : Port) (f : Frame) : State :=
  let k := s.fabTake p 3
  let n := byteAt f.data 4
  if !k.1 then k.2
  else if n = 0 || 25 < n || f.data.length != 8 + 9 * n then s.fabBad p
  else if s.sentBy f s.ownRec then k.2
  else (k.2.fabOnward p f).assignTake f.src f.data

def execAssign (p : Port) (src seq hops : Nat) (b : List Byte) (s : State) : Host.Outcome State Fault Refusal :=
  .next (s.assignRx p { node := 0xFF, src := src, type := 3, seq := seq, hops := hops, data := b })

def execAssignRepeat (s : State) : Host.Outcome State Fault Refusal :=
  .next (if s.fabOn && s.fab.zenith = some s.uid then s.assignSend else s)

/-- NODE_ID_SET, written by a master (R372). -/
def execNodeIdSetWrite (m : Master) (v : Nat) (s : State) : Host.Outcome State Fault Refusal :=
  .next (s.logged fun s => s.asked m fun s => (s.writeKey m Obj.NODE_ID_SET (leBytes 1 v)).2)

/-! ### Forwarding (R361, R373, R374) -/

/-- A checked frame of a port: a broadcast goes on, a routed frame for another node is routed, link-local frames stay. -/
def State.forward (s : State) (p : Port) (f : Frame) : State :=
  let k := s.fabTake p f.type
  if !k.1 then k.2
  else if !frameType f.type then s.fabBad p
  else if f.type = 1 || f.type = 0x4C then k.2
  else if f.node = 0xFF then (if f.type = 0x12 || f.type = 0x18 then k.2.fabOnward p f else k.2)
  else if f.node = s.nodeId && f.node != 0 then k.2
  else k.2.hopsOk f fun f s => s.fabRoute f

/-- A frame of a locked port, whole, from its header to its CRC; `code`: the frame contains a code error (R358). -/
def State.frameIn (s : State) (p : Port) (b : List Byte) (code : Bool) : State :=
  if s.obj (Obj.PORT_STATE (p.num + 1)) < 2 then s
  else match frameOf b with
    | some f => if code then s.fabBad p else s.forward p f
    | none => s.fabBad p

def execFrameForward (p : Port) (b : List Byte) (code : Bool) (s : State) : Host.Outcome State Fault Refusal :=
  .next (s.frameIn p b code)

/-! ### Object requests (R376-R380) -/

/-- A response: kept for 100 ms for a repetition, and sent. -/
def State.fabAnswer (s : State) (src txn : Nat) (f : Frame) : State :=
  let r := s.fabSeq f
  let s := { r.2 with fab := { r.2.fab with
    answered := (src, txn, s.now, r.1) :: r.2.fab.answered.filter fun (x : Nat × Nat × Nat × Frame) => decide (s.now < x.2.2.1 + ms 100) } }
  s.fabRoute r.1

/-- The response kept for a source and TXN. -/
def State.fabKept (s : State) (src txn : Nat) : Option Frame :=
  (s.fab.answered.find? fun (x : Nat × Nat × Nat × Frame) =>
    x.1 == src && x.2.1 == txn && decide (s.now < x.2.2.1 + ms 100)).map (·.2.2.2)

/-- The requests of a source that are served still: their responses wait to leave (R378). -/
def State.fabServed (s : State) (src : Nat) : Nat :=
  ([Port.east, Port.west].flatMap fun p => (s.fab.ports.get p).queue.filter fun e =>
    e.2.node == src && e.2.src == s.nodeId && (e.2.type == 0x11 || e.2.type == 0x13) && byteAt e.2.data 2 != 0xF0).length

/-- BUSY to a fifth request; nothing of it is kept, and the same request may come again (R377, R378). -/
def State.fabBusy (s : State) (src obj type : Nat) (b : List Byte) : State :=
  s.fabSend {
    node := src, obj := obj, src := s.nodeId, type := type + 1
    data := leBytes 1 (byteAt b 0) ++ leBytes 1 (byteAt b 1) ++ leBytes 1 0xF0 ++ leBytes 1 0 ++
      (if type = 0x10 then leBytes 4 (leAt b 2 4) ++ leBytes 4 0 else []) }

/-- A request that is served: a repeated one receives its response again. -/
def State.fabRequest (s : State) (p : Port) (src obj type : Nat) (b : List Byte) (f : State → State) : State :=
  let k := s.fabTake p type
  if !k.1 then k.2
  else if src = 0 || !s.served .F then k.2
  else match k.2.fabKept src (byteAt b 0) with
    | some r => k.2.fabRoute r
    | none => if 4 ≤ k.2.fabServed src then k.2.fabBusy src obj type b else f k.2

def State.readRsp (s : State) (src obj : Nat) (b : List Byte) (status ofs total : Nat) (d : List Byte) : State :=
  s.fabAnswer src (byteAt b 0) {
    node := src, obj := obj, src := s.nodeId, type := 0x11
    data := leBytes 1 (byteAt b 0) ++ leBytes 1 (byteAt b 1) ++ leBytes 1 status ++ leBytes 1 0 ++ leBytes 4 ofs ++ leBytes 4 total ++ d }

/-- A read: an offset belongs to a DOMAIN or a whole object. -/
def State.fabRead (s : State) (src obj : Nat) (b : List Byte) : State :=
  let k := obj * 256 + byteAt b 1
  let ofs := leAt b 2 4
  if b.length != 6 || (ofs != 0 && !s.segmented k) then s.readRsp src obj b 0xF1 ofs 0 []
  else
    let r := s.readSegment .F k ofs 244
    r.2.2.2.readRsp src obj b r.1 ofs r.2.1 r.2.2.1

def execReadReq (p : Port) (src obj : Nat) (b : List Byte) (s : State) : Host.Outcome State Fault Refusal :=
  .next (s.fabRequest p src (obj % 4096) 0x10 b fun s => s.fabRead src (obj % 4096) b)

/-- A write: STATUS. An offset continues no transfer, since no DOMAIN takes a write from F. -/
def State.fabWrite (s : State) (obj : Nat) (b : List Byte) : Nat × State :=
  if b.length < 8 || leAt b 4 4 != 0 then (0xF1, s)
  else s.writeWhole .F (obj * 256 + byteAt b 1) (b.drop 8)

def State.writeRsp (s : State) (src obj : Nat) (b : List Byte) (status : Nat) : State :=
  s.fabAnswer src (byteAt b 0) {
    node := src, obj := obj, src := s.nodeId, type := 0x13
    data := leBytes 1 (byteAt b 0) ++ leBytes 1 (byteAt b 1) ++ leBytes 1 status ++ leBytes 1 0 }

/-- A broadcast is forwarded, carried out, and not answered. -/
def State.writeAll (s : State) (p : Port) (f : Frame) : State :=
  let k := s.fabTake p 0x12
  if !k.1 then k.2
  else
    let s := k.2.fabOnward p f
    if f.src = 0 || f.src = s.nodeId || !s.served .F then s else (s.fabWrite f.obj f.data).2

def execWriteReq (p : Port) (src seq hops obj : Nat) (bcast : Bool) (b : List Byte) (s : State) : Host.Outcome State Fault Refusal :=
  .next (s.logged fun s => if bcast then s.writeAll p { node := 0xFF, obj := obj % 4096, src := src, type := 0x12, seq := seq, hops := hops, data := b }
  else s.fabRequest p src (obj % 4096) 0x12 b fun s =>
    let r := s.fabWrite (obj % 4096) b
    r.2.writeRsp src (obj % 4096) b r.1)

/-- The request of the device's own with a TXN. -/
def State.fabReq? (s : State) (txn : Nat) : Option FabReq := s.fab.reqs.find? fun (r : FabReq) => r.txn == txn

def State.fabReqDrop (s : State) (txn : Nat) : State :=
  { s with fab := { s.fab with reqs := s.fab.reqs.filter fun (r : FabReq) => r.txn != txn } }

/-- A request is over: a refusal counts against its sequencer. -/
def State.fabReqEnd (s : State) (r : FabReq) (good : Bool) : State :=
  let s := s.fabReqDrop r.txn
  match r.who with
  | some i => if good then s else s.seqRefused i
  | none => s

def execFabricResponse (p : Port) (src type : Nat) (b : List Byte) (s : State) : Host.Outcome State Fault Refusal :=
  .next (
    let k := s.fabTake p type
    if !k.1 || !s.serving then k.2
    else match k.2.fabReq? (byteAt b 0) with
      | some r => if r.frame.node = src && type = r.frame.type + 1 then k.2.fabReqEnd r (byteAt b 2 = 0) else k.2
      | none => k.2)

/-- 10 ms without a response: sent again, twice at most (R380). -/
def execFabricRequestTimeout (txn : Nat) (s : State) : Host.Outcome State Fault Refusal :=
  .next (match s.fabReq? txn with
    | none => s
    | some r =>
      if r.tries < 3 then
        ({ s with fab := { s.fab with reqs := s.fab.reqs.map fun (x : FabReq) => if x.txn = txn then { x with tries := x.tries + 1 } else x } } : State).fabSend r.frame
      else s.fabReqEnd r false)

/-- NOTIFY (R381). -/
def execNotifySend (s : State) : Host.Outcome State Fault Refusal :=
  .next (if s.served .F && s.fabOn then
    let c := s.faultSummary % 16
    s.fabBroadcast {
      node := 0xFF, src := s.nodeId, type := 0x18
      data := leBytes 1 s.modeNow ++ leBytes 1 (if c = 15 then 0xFF else c) ++ leBytes 2 (s.obj Obj.GRANT_NOW_TOTAL) ++
        leBytes 2 (s.obj Obj.PACK_SOC) ++ leBytes 1 (s.lState .east) ++ leBytes 1 (s.lState .west) }
  else s)

/-! ### Fabric boot (R387-R389) -/

/-- The answer to a BOOT_REQ: from the images in the active bank. -/
def State.bootAnswer (s : State) (src : Nat) (b : List Byte) : State :=
  let kind := byteAt b 0
  let ofs := leAt b 2 4
  let img := if s.activeBank = 0 then none else (s.bank s.activeBank).image? kind
  let d := img.elim [] fun i => slice i ofs (min 240 (leAt b 6 2))
  s.fabSend {
    node := src, src := s.nodeId, type := 0x21
    data := leBytes 1 kind ++ leBytes 1 (b2n img.isNone) ++ leBytes 4 ofs ++ leBytes 4 (img.elim 0 List.length) ++ d }

def execBootReq (p : Port) (src : Nat) (b : List Byte) (s : State) : Host.Outcome State Fault Refusal :=
  .next (
    let k := s.fabTake p 0x20
    if k.1 && s.served .F && src != 0 && s.obj Obj.FAB_BOOT_SRV = 1 && b.length = 8 then k.2.bootAnswer src b else k.2)

/-- The image of a kind has arrived whole: accepted or refused as a download is. -/
def State.bootImage (s : State) (kind : Nat) : State := (s.storeImage s.olderBank s.fab.bootData).2.bootNext kind

/-- One BOOT_DATA for the kind and offset awaited. -/
def State.bootTake (s : State) (kind : Nat) (b : List Byte) : State :=
  match byteAt b 1 with
  | 0 =>
    let s := { s with fab := { s.fab with bootData := s.fab.bootData ++ b.drop 10 } }
    if leAt b 6 4 ≤ s.fab.bootData.length then s.bootImage kind else s.bootAsk
  | 1 => s.bootNext kind
  | _ => s.bootAsk

def execBootData (p : Port) (src : Nat) (b : List Byte) (s : State) : Host.Outcome State Fault Refusal :=
  .next (
    let k := s.fabTake p 0x21
    if !k.1 then k.2
    else match s.fab.boot, k.2.fabReq? 256 with
      | some n, some r =>
        if r.frame.node = src && byteAt b 0 = n && leAt b 2 4 = s.fab.bootData.length then k.2.bootTake n b else k.2
      | _, _ => k.2)

/-- Step 6 reaches 2,000 ms: the banks in flash take over. -/
def execFabricBootFail (s : State) : Host.Outcome State Fault Refusal :=
  .next (match s.fab.boot with
    | some n =>
      if s.obj Obj.BRINGUP_STEP = 6 ∧ n ≤ 10 then
        let s := { s with fab := { s.fab with boot := none, bootData := [], reqs := s.fab.reqs.filter fun (r : FabReq) => r.who.isSome } }
        (s.raise 0x0E 0x0C (if n = 0 then 0xFF else n)).loadBanks 2
      else s
    | none => s)

/-! ### Timebase (R382-R386) -/

/-- The zenith's instant: the waits to the boundaries at which the marker leaves each port. -/
def execMarkerEmit (ofsE ofsW : Nat) (s : State) : Host.Outcome State Fault Refusal :=
  .next (if s.fabOn && s.fab.zenith = some s.uid && s.obj Obj.TIMEBASE_STATE = 4 then
    let n := s.fab.count
    let out := fun (s : State) (p : Port) (ofs : Nat) =>
      if s.portUp p then s.modFab p fun x => { x with marker := some (n, ofs % 65536) } else s
    let s := out (out s .east ofsE) .west ofsW
    { s with fab := { s.fab with count := (n + 1) % 256 } }
  else s)

/-- How many periods have passed, at least one: the instants go on at the last period while markers are missing (R385). -/
def periodsIn (d period : Int) : Int := if period ≤ 0 then 1 else max 1 ((2 * d + period) / (2 * period))

/-- A marker of the root port at `t`: the local instant, and the timebase's objects. -/
def State.markerTake (s : State) (p : Port) (count ofs t : Nat) : State :=
  let inst : Int := (t : Int) - ofs - s.obj (Obj.PORT_DELAY (p.num + 1))
  let s := (s.set Obj.TIMEBASE_COUNT count).set Obj.TIMEBASE_OFS ofs
  match s.fab.tLast with
  | none => { s with fab := { s.fab with tLast := some inst } }.set Obj.TIMEBASE_STATE 1
  | some last =>
    let n := periodsIn (inst - last) s.fab.tPeriod
    let err := clampI (-32768) 32767 (inst - (last + n * s.fab.tPeriod))
    (({ s with fab := { s.fab with tLast := some inst, tPeriod := (inst - last) / n } } : State).setI Obj.TIMEBASE_ERR 16 err).set
      Obj.TIMEBASE_STATE (if s.obj Obj.TIMEBASE_STATE = 3 then 1 else 2)

/-- A marker whose K28.7 came at `t`; `out` is the first boundary of the other port 200 ns or more after it. -/
def State.marker (s : State) (p : Port) (count ofs t out : Nat) : State :=
  if s.fabOn && s.portUp p && s.fab.zenith.isSome && s.obj Obj.ZENITH_ROOT = p.num && s.obj Obj.TIMEBASE_STATE != 4 then
    let inst : Int := (t : Int) - ofs - s.obj (Obj.PORT_DELAY (p.num + 1))
    let s := s.markerTake p count ofs t
    if s.portUp p.other then s.modFab p.other fun x => { x with marker := some (count, ((out : Int) - inst).toNat % 65536) } else s
  else s

def execMarker (p : Port) (count ofs t out : Nat) (s : State) : Host.Outcome State Fault Refusal := .next (s.marker p count ofs t out)

/-- Two consecutive markers are missing: the instants go on at the last period, and groups locked to them lose their lock. -/
def execTimebaseLost (s : State) : Host.Outcome State Fault Refusal :=
  .next (s.logged fun s => if s.fabOn && (s.obj Obj.TIMEBASE_STATE = 1 || s.obj Obj.TIMEBASE_STATE = 2) && s.fab.tLast.isSome then
    let s := s.set Obj.TIMEBASE_STATE 3
    s.groups.foldl (fun s g => if s.syncSource g = 2 then s.syncLose g else s) (s.raise 0x0E 7 (s.obj Obj.TIMEBASE_COUNT))
  else s)

end Sys2Proof.Machine
end

