-- ==== Sys2Proof/Machine/TableCmds.lean ====
section
/-!
DEFINITION. TableCmds.lean: the commands of the table store and of the sequencers (R672, R686-R702).
-/
namespace Sys2Proof.Machine

/-! ### Writes by a master -/

def execDtcClear (m : Master) (v : Nat) (s : State) : Host.Outcome State Fault Refusal :=
  .next (s.logged fun s => s.asked m fun s => (s.writeKey m Obj.DTC_CLEAR (leBytes 4 v)).2)

def execTableSwitch (m : Master) (v : Nat) (s : State) : Host.Outcome State Fault Refusal :=
  .next (s.logged fun s => s.asked m fun s => (s.writeKey m Obj.TABLE_SWITCH (leBytes 4 v)).2)

/-- A whole image in one transfer. -/
def execTableLoad (m : Master) (d : List Byte) (s : State) : Host.Outcome State Fault Refusal :=
  .next (s.asked m fun s => (s.writeSegment m Obj.TABLE_LOAD 0 true d).2)

def execTrapRelease (m : Master) (v : Nat) (s : State) : Host.Outcome State Fault Refusal :=
  .next (s.logged fun s => s.asked m fun s => (s.writeKey m Obj.TRAP_RELEASE (leBytes 1 v)).2)

/-! ### Safe points (R689-R692) -/

/-- A kind's safe point (R691), apart from the instant of the scan, the evaluation or the shell cycle at which it falls. -/
def State.safeHere (s : State) (k : Nat) : Bool :=
  match k with
  | 1 => s.seqSwitchOk 0 && s.seqSwitchOk 4
  | 2 => s.meas.cal != 2 && s.seqSwitchOk 1
  | 3 => [0, 2, 6].contains (s.obj Obj.SRC_STATE) && s.src.cls == 0
  | 7 => [Port.east, Port.west].all (fun p => !([4, 5, 7, 8, 9].contains (s.lState p))) && s.seqSwitchOk 2 && s.seqSwitchOk 3
  | 8 => s.uds.tx.isNone && s.uds.waiting.isNone
  | _ => true

/-- The row of the present source type goes into its latches, with IIN_LIMIT on it (R193, R201). -/
def State.rowAgain (s : State) : State :=
  if s.src.row = 0 then s
  else
    let lim := s.iinFor s.src.row (s.obj Obj.SRC_MEAS_I_HARN)
    ((({ s with src := { s.src with iinWritten := lim } } : State).set Obj.IIN_LIMIT lim).rowLatches s.src.row lim).commitWords

/-- Stage selection is repeated on a new table (R274), also where the stage is held with IPACK_CHG at 0 (R285, R705). -/
def State.selectAgain (s : State) : State :=
  if (s.chgAllowed || (s.chgHeld && s.chgFree)) && s.obj Obj.PACK_SOC < s.targetSoc then s.select else s.chgEnter 2 0

/-- Charging starts afresh on the new table (R274); the pack's parameters come from the first image ever applied (R297). -/
def State.chgAgain (s : State) : State :=
  let s := ({ s with tabs := { s.tabs with newChg := none } }.writeChg 0).packFirst.ordering
  if s.chgOff then s.chgEnter 0 0
  else if 3 ≤ s.obj Obj.CHG_STATE && s.obj Obj.CHG_STATE ≤ 6 then s.selectAgain.chgWrite true
  else s

/-- A SCAN switch sets the scheduler's objects. -/
def State.scanAgain (s : State) : State := s.scanSettings.foldl (fun s e => s.put e.1 e.2) s

/-- What the blocks do when a kind has changed (R691). -/
def State.kindChanged (s : State) (k : Nat) : State :=
  match k with
  | 1 => s.seqRestart 1
  | 2 => s.chgAgain.seqRestart 2
  | 3 => s.rowAgain
  | 4 => (s.bandUpdate.2.bandIntervals (s.bandUpdate.2.obj Obj.DIE_BAND)).writeEdges
  | 5 => s.writeEdges
  | 6 => { s with tabs := { s.tabs with newFreq := none } }
  | 7 => s.ordering.seqRestart 7
  | 10 => s.scanAgain
  | _ => s

/-- The last kind has changed: the roles swap (R689, R690). -/
def State.switchDone (s : State) : State :=
  let n := s.idleBank
  let gen := if s.activeBank = 0 then 1 + max s.tabs.fa.gen s.tabs.fb.gen else 1 + (s.bankF s.activeBank).gen
  let s := (s.setBank n { s.bank n with gen := gen }).set Obj.TABLE_ACTIVE n
  let s := { s with tabs := { s.tabs with switching := false, deferred := false, newChg := none, newFreq := none } }
  -- the Stratus limits of R67 end
  let s := if s.mode.capped then ({ s with mode := { s.mode with capped := false } } : State).writeLimits.rowAgain else s
  ((((s.writeBankF n gen).set Obj.TABLE_SWITCH (2 * 2 ^ 24)).clearK 0x15 4).idleIds).ordering

/-- A kind of the switch changes to the inactive bank's image. -/
def State.switchKind (s : State) (k : Nat) : State :=
  let s := (s.useImage k ((s.bank s.idleBank).image? k)).kindChanged k
  let left := setBit (s.obj Obj.TABLE_SWITCH % 1024) (k - 1) false
  if left = 0 then s.switchDone else s.set Obj.TABLE_SWITCH (2 ^ 24 + left)

/-- A kind whose image was lost goes to its ROM defaults (R708). -/
def State.romKind (s : State) (k : Nat) : State :=
  ({ (s.useImage k none) with tabs := { (s.useImage k none).tabs with romDue := setBit s.tabs.romDue (k - 1) false } } : State).kindChanged k

/-- The instant of kind `k + 1`'s safe point. -/
def execSafePoint (k : Fin 10) (s : State) : Host.Outcome State Fault Refusal :=
  .next (s.logged fun s => if !s.serving || !s.safeHere (k.val + 1) then s
  else if s.tabs.switching && bit (s.obj Obj.TABLE_SWITCH) k.val then s.switchKind (k.val + 1)
  else if bit s.tabs.romDue k.val then s.romKind (k.val + 1)
  else s)

/-- 10 s after the switch was accepted. -/
def execSwitchDeferred (k : Fin 10) (s : State) : Host.Outcome State Fault Refusal :=
  .next (if s.serving && s.tabs.switching && !s.tabs.deferred && bit (s.obj Obj.TABLE_SWITCH) k.val then
    ({ s with tabs := { s.tabs with deferred := true } } : State).raise 0x15 3 (k.val + 1)
  else s)

/-! ### Sequencers (R694-R702) -/

/-- `bad`: the state register fails its parity check. -/
def execSequencerEvaluation (i : Fin 5) (bad : Bool) (s : State) : Host.Outcome State Fault Refusal :=
  .next (s.logged fun s => s.seqEvaluate i.val bad)

end Sys2Proof.Machine
end

