-- ==== Sys2Proof/Machine/ResetOps.lean ====
section
/-!
DEFINITION. ResetOps.lean: what each reset level clears and keeps, the restart of the shell at bring-up step 5, and the restore of
the object store at step 6 (R129, R538-R562, R606-R611, R685, R707-R712).
-/
namespace Sys2Proof.Machine

/-! ### Objects that a reset keeps (R545) -/

/-- Volatile objects of the always-on domain, the retained area, the OTP shadows and the core, by key. -/
def keptKeys : List Nat := [
  Obj.MODE_STATE, Obj.MODE_REQ_H, Obj.MODE_REQ_S, Obj.MODE_REQ_T, Obj.MODE_REQ_F, Obj.MODE_TARGET, Obj.MODE_CAUSE, Obj.MODE_PREV,
  Obj.BRINGUP_STEP, Obj.FAULT_SUMMARY, Obj.RESET_CAUSE, Obj.RESET_LOW_TIME, Obj.STRAPS, Obj.CLK_STATE, Obj.VAUX_STATE, Obj.VAUX_MIN,
  Obj.SEC_ATTEMPTS, Obj.SEC_DELAY, Obj.SRC_TYPE, Obj.SRC_STATE, Obj.CHG_STATE, Obj.CHG_STEP, Obj.SAFETY_PROGRESS, Obj.SAFETY_WALL,
  Obj.DIE_BAND, Obj.TSD_STATE, Obj.TABLE_AUTH, Obj.HZ_OP_TIME, Obj.PACK_SOC, Obj.OD_JOURNAL,
  Obj.WAKE_CFG]

/-- The same by index: SRC_MEAS, CORE_SPEED, OTP_STATE, LINK_STATE, LINK_ROLE, LINK_TARGET, LINK_PEER, LINK_LEAK, LINK_MOIST,
LINK_SUSC, LIN_STATS. -/
def keptIndices : List Nat := [
  Obj.SRC_MEAS_V_OC / 256, Obj.CORE_SPEED_INDEX / 256, Obj.OTP_STATE 0 / 256, Obj.LINK_STATE 0 / 256, Obj.LINK_ROLE 0 / 256,
  Obj.LINK_TARGET 0 / 256, Obj.LINK_PEER 0 / 256, Obj.LINK_LEAK 0 / 256, Obj.LINK_MOIST 0 / 256, Obj.LINK_SUSC 0 / 256,
  Obj.LIN_STATS 0 / 256]

/-- Objects of the blocks that a core reset keeps running: scheduler, recorder, CAN and fabric controllers. -/
def runningIndices : List Nat := [
  Obj.RESULTS 0 / 256, Obj.SCAN_EFFECTIVE 0 / 256, Obj.SCAN_TIME 0 / 256, Obj.SCAN_PERIOD / 256, Obj.SCAN_COUNT / 256,
  Obj.SCAN_STATE / 256, Obj.CAL_STATE / 256, Obj.REC_STATE / 256, Obj.CAN_STATE 0 / 256, Obj.CAN_ERR 0 / 256, Obj.CAN_STATS 0 / 256]

/-- Fabric objects: area 0x0A. -/
def fabricKey (k : Nat) : Bool := k / 65536 == 10

/-- The object takes its default, or its journaled value, at step 5. O objects stand in the shadows. -/
def clearedKey (core : Bool) (k : Nat) : Bool :=
  !keptKeys.contains k && !keptIndices.contains (k / 256) && !(core && (runningIndices.contains (k / 256) || fabricKey k)) &&
    (Dict.row? k).elim true fun r => r.persist != .O

/-! ### The shell's logic and memory (R545) -/

/-- The recorder keeps its ring over a core reset only. -/
def Recorder.after (r : Recorder) (core : Bool) : Recorder := if core then r else {}

/-- A CAN controller's buffers are SRAM; its configuration stands over a core reset. -/
def Can.after (c : Can) (core : Bool) : Can :=
  if core then { c with queue := [], later := [], answered := [], held := [], block := none } else {}

/-- The charger keeps what the retained area holds. -/
def Charger.after (c : Charger) : Charger :=
  { soc := c.soc, progress := c.progress, precond := c.precond, before := c.before, known := c.known, lost := c.lost, waived := c.waived }

/-- The thermal manager keeps its factors until the shell evaluates again. -/
def Thermal.after (t : Thermal) : Thermal :=
  { f := t.f, fChg := t.fChg, cal := t.cal, scrub := t.scrub, otp := t.otp, age := t.age, up := t.up, seen := t.seen }

/-- The collector's logic; conditions that the blocks have raised still stand, and what FAULT_SUMMARY keeps since power-on. -/
def Collector.after (c : Collector) : Collector := { bus := c.bus, conds := c.conds, recOvf := c.recOvf, lost := c.lost }

/-- The fabric forgets its requests; over any level but a core reset it has been off. -/
def Fabric.after (f : Fabric) (core : Bool) : Fabric :=
  if core then { f with reqs := [], boot := none, bootData := [] } else { stored := f.stored, adopted := f.adopted }

/-- The table store's SRAM; the flash copies stand. -/
def Tables.after (t : Tables) : Tables := { fa := t.fa, fb := t.fb }

/-- The watchdog's logic; the always-on domain keeps the pulse and its width. -/
def Watchdog.after (w : Watchdog) : Watchdog := { pulse := w.pulse, pulseEnd := w.pulseEnd, width := w.width }

/-- The blocks of the shell at step 5. -/
def State.clearBlocks (s : State) (core : Bool) : State :=
  { s with
    srv := {}, seqs := Vector.replicate 5 {}, env := {}, note := {}
    tabs := s.tabs.after, wd := s.wd.after, col := s.col.after, thm := s.thm.after, chg := s.chg.after
    ring := s.ring.after core, fab := s.fab.after core, can := ⟨s.can.a.after core, s.can.b.after core⟩
    meas := if core then s.meas else { staleSaid := s.meas.staleSaid, calWas := s.meas.calWas, owed := s.meas.owed }
    uds := { dtcs := s.uds.dtcs, ids := s.uds.ids }
    hz := { s.hz with probe := 0, epoch := none, der := [] }
    src := { s.src with cls := 0, waiting := false }
    mode := { leaseH := s.mode.leaseH, leaseF := s.mode.leaseF, railOff := s.mode.railOff } }

/-- The flash manager reads SFDP and the flash header, and formats a flash without a valid one, or with one that states another size
(R712, R715); FLASH_ABSENT of the time before the reset ends with a flash that is found (R732). `mb`: the size that SFDP declares; a flash outside 16-128 MB is none that R711 supports. -/
def State.flashFind (s : State) (mb : Nat) : State :=
  if mb < 16 || 128 < mb then (s.set Obj.FLASH_STATE 0).raise1 0x17 6 0
  else
    let s := ((s.clearK 0x17 6).set Obj.FLASH_STATE 1).set Obj.FLASH_SIZE mb
    if s.flash.formatted && s.flash.size == mb then s.wearObjs
    else
      let s := { s with
        flash := { formatted := true, formatNo := s.flash.formatNo + 1, size := mb }
        tabs := { s.tabs with fa := {}, fb := {} }, archive := [], log := [] }
      s.wearObjs.raise 0x17 3 0

/-- Step 5: the shell is released, SRAM outside the retained area initialised, the object store at its defaults. -/
def State.shellStart (s : State) (core : Bool) (found : Nat) : State :=
  let s := (s.clearBlocks core).resetObjs (clearedKey core)
  let s := { s with aon := { s.aon with shell := true } }
  s.flashFind found

/-- The blocks of the retained area that hold an uncorrectable word are initialised (R710). -/
def State.retainedCheck (s : State) (ecc : List Nat) : State :=
  (ecc.filter (· < 5)).foldl (fun s b =>
    ((s.retainedInit b).tally (Obj.ECC_COUNT 2) 0xFFFFFFFF).raise 0x16 3 (addrInst (0x3C0000 + [0, 0x6000, 0x6800, 0x7000, 0x9000].getD b 0))) s

/-! ### The restore of the object store (R606-R608, R645) -/

/-- The journal's entries as the restore sees them: what is committed, under what the retained buffer still holds (R609). -/
def State.restoreEntries (s : State) : Store :=
  mergeStore (if s.obj Obj.FLASH_STATE = 0 then [] else s.flash.entries) s.jrnl.buf

/-- Every P object that the journal holds takes its value; of those that a reset keeps, WAKE_CFG is one that masters write (R612). -/
def State.restoreValues (s : State) (fresh : Bool) : State :=
  s.restoreEntries.foldl (fun s (e : Nat × Nat) =>
    if Dict.persisted e.1 && (s.row? e.1).isSome && (fresh || e.1 == Obj.WAKE_CFG || !keptKeys.contains e.1) then s.set e.1 (e.2 - 1) else s) s

/-- A restored value that fails its range or a cross-object check goes to its default (R608). -/
def State.restoreCheck (s : State) : State :=
  s.restoreEntries.foldl (fun s (e : Nat × Nat) =>
    let v := s.obj e.1
    let ok := (s.row? e.1).elim true (fun r => !(r.accH.writes || r.accT.writes || r.accS.writes || r.accF.writes) || rowHolds r v)
    if !Dict.persisted e.1 || (ok && s.valueOk .H e.1 v) then s
    else ((s.set e.1 (Dict.default e.1)).tally Obj.OD_STATS_RESTORE_REFUSED 0xFFFFFFFF).set Obj.OD_LAST_ERROR (9 * 2 ^ 24 + e.1)) s

/-- Resets not yet counted. -/
def State.countResets (s : State) : State :=
  { (s.aon.dueCounts.foldl (fun s n => s.count (Obj.RESET_COUNT n) 0xFFFFFFFF) s) with aon := { s.aon with dueCounts := [] } }

/-- After a reset a committed PACK_SOC is an estimate (R295). -/
def State.socRestored (s : State) : State :=
  if s.restoreEntries.any fun e => e.1 == Obj.PACK_SOC then s.set Obj.SOC_CONF 1 else s

/-- STORED_ID takes the journal's NODE_ID; the node uses 0x00 until its first adoption after power-on, and from then on the ID that it
adopted last (R371, R372). -/
def State.nodeRestore (s : State) : State :=
  ({ s with fab := { s.fab with stored := s.nodeId } } : State).set Obj.NODE_ID (if s.fab.adopted then s.fab.used else 0)

/-- What a fabric boot needs of the journal before its ports start: STORED_ID and ASSIGN_GEN (R366, R371). -/
def State.nodeEarly (s : State) : State :=
  let e := s.restoreEntries
  let s : State := { s with fab := { s.fab with stored := e.read (fun _ => 0) Obj.NODE_ID - 1 } }
  (s.set Obj.NODE_ID (if s.fab.adopted then s.fab.used else 0)).set Obj.ASSIGN_GEN (e.read (fun _ => 0) Obj.ASSIGN_GEN - 1)

/-- Committed calibration factors count as STALE (R420). -/
def State.calRestore (s : State) : State :=
  if s.obj Obj.CAL_STATE = 0 && s.restoreEntries.any fun e => e.1 == Obj.CAL_TEMP then s.set Obj.CAL_STATE 1 else s

/-- What blocks take from the restored store. -/
def State.restoreBlocks (s : State) (fresh : Bool) : State :=
  let s := if fresh then
    { s with
      uds := { s.uds with dtcs := if s.obj Obj.FLASH_STATE = 0 then [] else s.flash.dtcs }
      hz := { s.hz with
        base := if s.obj Obj.FLASH_STATE = 0 then [] else s.flash.hzBase
        applied := (List.range 9).map fun n => s.obj (Obj.DER_NOW (n + 1))
        ppm := (List.range 9).map fun n => 1000 * s.obj (Obj.DER_NOW (n + 1)) }
      hour := { s.hour with mark := s.obj Obj.HZ_OP_TIME / 3600 }
      chg := { s.chg with soc := s.obj Obj.PACK_SOC * 1000000000 } }.ceilingBoot
    else s
  let s := s.socRestored
  let s := if s.lin.changed then s else s.linCopies
  { s with
    env := { s.env with cfg := s.obj Obj.ENV_CFG }
    wd := { s.wd with width := some (s.obj Obj.WD_FAILOVER_W) } }

/-- At bring-up R415's settings stand where no SCAN image is active; an image's stand where the journal holds none. -/
def State.scanBoot (s : State) : State :=
  let e := s.restoreEntries
  s.scanSettings.foldl (fun s x =>
    if (s.body 10).isSome && e.read (fun _ => 0) x.1 != 0 then s else s.set x.1 x.2) s

/-- The P objects at step 6; the journal's buffer is committed first (R546, R768). -/
def State.restore (s : State) (fresh : Bool) : State :=
  let s := (s.replayReport.commitNow.restoreValues fresh).scanBoot.ordering
  ((s.restoreCheck.ordering.restoreBlocks fresh).packFirst.calRestore.nodeRestore).countResets

/-! ### Power-on reset (R545, R556-R558) -/

/-- Power-on reset is asserted: every domain clears; the OTP, the flash and the retention cell stand. A second rail that falls adds
its bit. -/
def State.powerOnReset (s : State) (bitN : Nat) : State :=
  let s := s.commitTorn.otpBreak
  { State.reset with
    pending := s.pending, now := s.now, free := s.free
    otp := { areas := s.otp.areas, cTyp := s.otp.cTyp }
    flash := s.flash, tabs := s.tabs.after, archive := s.archive, log := s.log
    hz := { hist := s.hz.hist, latest := s.hz.latest, low := s.hz.low, gone := s.hz.gone, s0 := s.hz.s0, hours := s.hz.hours }
    cell := s.cell
    thm := {
      cal := { iv := 600, next := 600, last := s.now }, otp := { iv := 86400, next := 86400, last := s.now }
      age := { iv := 3600, next := 3600, last := s.now } }
    aon := { overcast := s.aon.overcast
             porCause := setBit (if s.aon.por then s.aon.porCause else 0) bitN true } }

/-- Power-on reset is released. The retention cell holds for 100 ms, has lost its content after 150 ms, and may do either between. -/
def State.powerOnRelease (s : State) (dipMs : Nat) : State :=
  let (d, s) := if 100 ≤ dipMs && dipMs < 150 then s.draw 1 else (b2n (decide (dipMs < 100)), s)
  let keep := d == 1
  let ovc := s.aon.overcast && keep
  let s := { s with
    cell := if keep then s.cell else {}
    aon := { s.aon with
      por := false, secEnd := s.now + sec 10, overcast := ovc, overcastStage := if ovc then 5 else 0, dueCounts := [3], bringKind := 0, bringCause := 0 } }
  -- Overcast that the retention cell has kept reads throughout (R86, R766)
  let s := if ovc then (s.set Obj.MODE_STATE 7).set Obj.MODE_CAUSE 0x0C else s
  (s.set Obj.RESET_CAUSE (3 + s.aon.porCause + 2048 * b2n ovc)).set Obj.BRINGUP_STEP 2

/-! ### Pin resets (R542-R545, R79, R129) -/

/-- nRST is watched: not in Storage, Park or power-on reset. -/
def State.nrstSeen (s : State) : Bool := !s.aon.por && (s.bringing || !s.inMode [0, 1])

/-- A core reset is asserted: the shell stops, the core enters Stratus. -/
def State.coreReset (s : State) (external : Bool) : State :=
  let again := s.bringing && s.aon.bringKind != 2 && s.aon.bringKind != 4
  let s := (s.commitTorn.otpBreak).shellAbsent false
  let rail := s.modeNow == 6 && !s.mode.railOff
  let s := { s with
    hour := { s.hour with reset := true }, hz := { s.hz with reset := true }, parkAcc := { s.parkAcc with reset := true } }
  let s := { s with
    strat := { s.strat with level := max 1 s.strat.level }
    col := { s.col with bus := [], deliver := [] }
    env := if s.modeNow = 6 then s.env else { s.env with dout := [], hiZ := true }
    aon := { s.aon with
      shell := false, resetLevel := 1, nrstLow := external, cause := setBit s.aon.cause 4 (bit s.aon.cause 4 || external), railUp := rail
      bringKind := if rail then 2 else 3, bringCause := if again then s.aon.bringCause else 0x0B } }
  ((s.set Obj.ENV_STATE 0).set Obj.BRINGUP_STEP 1).haloUpdate

/-- Fabric-synchronised groups lose their lock. -/
def State.fabricSyncLost (s : State) : State :=
  s.groups.foldl (fun s g => if s.syncSource g = 2 then s.syncLose g else s) s

/-- At 5.0 ms the level becomes system: interfaces, converters, recorder and clock stop; no pair of capacity anchors spans it (R473). -/
def State.escalate (s : State) : State :=
  let s := { s with
    strat := { s.strat with level := 2 }
    aon := { s.aon with resetLevel := 2, cause := setBit s.aon.cause 2 true, clockStopped := false, refLost := false }
    otp := { s.otp with prog := none }, ring := {}, hz := { s.hz with anchor := none, anchorQ := 0 } }
  let s := (((s.canOff .a).canOff .b).fabOff).fabricSyncLost.measStop.balOff
  (s.set Obj.CLK_STATE 6).set Obj.REC_STATE 0

/-- nRST has been high for 2.0 µs: RESET_LOW_TIME, RESET_CAUSE, and the release sequence from step 1 (R543, R559). A period longer than
the device's own drive was held by outside equipment as well (R544, R562). -/
def State.resetRelease (s : State) (lowUs : Nat) : State :=
  let n := s.aon.resetLevel
  let own := if bit s.aon.cause 6 || bit s.aon.cause 7 then 8400 else 1050
  let cause := n + setBit s.aon.cause 4 (bit s.aon.cause 4 || decide (own < lowUs)) + 8 * b2n s.aon.railUp
  let s := { s with aon := { s.aon with resetLevel := 0, cause := 0, nrstLow := false, dueCounts := s.aon.dueCounts ++ [n] } }
  ((s.set Obj.RESET_LOW_TIME (min 0xFFFFFFFF lowUs)).set Obj.RESET_CAUSE cause).set Obj.BRINGUP_STEP 1

end Sys2Proof.Machine
end

