-- ==== Sys2Proof/Machine/Bringup.lean ====
section
/-!
DEFINITION. Bringup.lean: the steps of bring-up and the core handover (R65-R70, R81, R129-R132, R136, R549-R554, R766).
-/
namespace Sys2Proof.Machine

/-! ### Steps 1 to 7 -/

/-- A core reset's release keeps straps and clock (R554). -/
def State.coreLevel (s : State) : Bool := 2 ≤ s.aon.bringKind && s.aon.bringKind ≤ 3 && s.obj Obj.RESET_CAUSE % 4 == 1

/-- Each strap is the majority of its three samples: four bits of `pins` a sample (R552). -/
def strapMajority (pins : Nat) : Nat :=
  let a := pins % 16
  let b := pins / 16 % 16
  let c := pins / 256 % 16
  a &&& b ||| a &&& c ||| b &&& c

/-- Step 3: BOOT in bits 1:0 and CLKM in bits 3:2 of each sample, with the substitutions of a variant without the fabric (R9, R552,
R553). -/
def State.sampleStraps (s : State) (samples : Nat) : State :=
  let pins := strapMajority samples
  let boot := pins % 4
  let clkm := pins / 4 % 4
  let noFab := s.variant != .A
  let b := if noFab && boot == 3 then 2 else boot
  let c := if noFab && clkm == 2 then 3 else clkm
  (s.set Obj.STRAPS (b2n (b != boot || c != clkm) * 256 + c * 64 + b * 16 + clkm * 4 + boot)).set Obj.CLK_STATE 6

/-- Step 4 ends on a lock: the reference of CLKM1:0, or one that was fallen back to. A core reset that finds no locked clock locks
one. -/
def State.clockLocked (s : State) : Option State :=
  let c := s.obj Obj.CLK_STATE
  if s.coreLevel && c != 6 then (if s.aon.clockStopped then none else some s)
  else
    let r := match s.clkm with
      | 0 => some (if s.aon.refLost then 4 else 0)
      | 1 => some (if s.aon.refLost then 4 else 1)
      | 2 => if c = 6 then none else some c
      | _ => some 4
    r.map fun n => { s with aon := { s.aon with clockStopped := false } }.set Obj.CLK_STATE n

/-- Step 5 ends: the shell runs on initialised memory; a fabric boot starts its ports (R387). -/
def State.stepFive (s : State) (flash : Nat) (ecc : List Nat) : State :=
  let s := s.shellStart s.coreLevel flash
  let s := if 2 ≤ s.aon.bringKind then s.retainedCheck ecc else s
  let s := if s.boot = 3 then
      let s := s.nodeEarly.fabStart
      ({ s with fab := { s.fab with boot := some 0 } } : State).bootKick
    else s
  s.set Obj.BRINGUP_STEP 6

/-- The fabric boot has a complete set: the fetched bank runs where it is usable (R388, R685). -/
def State.bootBanks (s : State) : State :=
  let n := s.olderBank
  let s := if n = 1 then s.readBank 2 else s.readBank 1
  let m := if (s.bank n).usable then n else if (s.bank (3 - n)).usable then 3 - n else 0
  let s := { ((s.activate m).bankGens) with fab := { s.fab with boot := none, bootData := [] } }
  if m = 0 then s.raiseC 0x15 4 0 else s

/-- Step 6 ends once the tables are in place; FABRIC_BOOT_FAIL has loaded them already. -/
def State.stepSix (s : State) : State :=
  match s.fab.boot with
  | some n => if n ≤ 10 then s else (s.bootBanks.restore (s.aon.bringKind == 0)).set Obj.BRINGUP_STEP 7
  | none =>
    let s := if s.boot = 3 then s else s.loadBanks s.boot
    (s.restore (s.aon.bringKind == 0)).set Obj.BRINGUP_STEP 7

/-- The warning that the shell could not carry out (R768): raised, and cleared at once where it has gone. -/
def State.vauxCatchUp (s : State) : State :=
  if s.aon.vauxDeferred then
    let s := ({ s with aon := { s.aon with vauxDeferred := false } }.raise1 0x1A 1 s.aon.vauxAt).count
      Obj.VAUX_WARN_COUNT 0xFFFFFFFF
    if s.obj Obj.VAUX_STATE = 0 then s.clearK 0x1A 1 else s
  else s

/-- CHIP_RESET (R517). -/
def State.chipResetMsg (s : State) : List Msg :=
  match s.aon.chipWhy with
  | some w => [{ src := 0x0D, kind := 4, inst := w }]
  | none => []

/-- The latch of direct mode clears with the collector's logic, which reports what set it (R528-R530). -/
def State.directEnd (s : State) : State :=
  if s.aon.direct then
    { s with aon := { s.aon with direct := false, directWhy := 0 } }.raise 0x0C 6 s.aon.directWhy
  else s

/-- Repeat a count. -/
def State.countN (s : State) (n k : Nat) : State := (List.range n).foldl (fun s _ => s.count k 0xFFFFFFFF) s

/-- Thermal shutdowns that the shell did not see (R463). -/
def State.countTrips (s : State) : State :=
  { (s.countN s.aon.tsdDue Obj.TSD_COUNT) with aon := { s.aon with tsdDue := 0 } }

/-- A LIN node's copies that changed without the shell go to their objects (R645). -/
def State.linObjects (s : State) : State :=
  if s.lin.changed then
    let s := (s.put Obj.LIN_CFG s.lin.cfg).put Obj.LIN_NAD s.lin.nad
    let s := (List.range 4).foldl (fun s i => s.put (Obj.LIN_PID (i + 1)) (s.lin.pid.getD i 0)) s
    { s with lin := { s.lin with changed := false } }
  else s

/-- Bring-up stops after step 7 with the Overcast latch set (R86, R766). -/
def State.overcastStop (s : State) : State :=
  let s := { s with
    strat := { s.strat with absent := false, heartbeat := false }
    col := { s.col with deliver := s.chipResetMsg }
    aon := { s.aon with chipWhy := none } }
  let s := s.directEnd.countTrips.linObjects
  let s := if s.obj Obj.SCAN_STATE = 0 then s.measStart else s
  let s := s.wdStart.seqStart true
  let s := if s.modeNow = 7 then s else s.setMode 7 0x0C
  ((s.set Obj.BRINGUP_STEP 0).hzMode).haloUpdate

/-- The enabled ports come out of OFF (R330, R346). -/
def State.linkPorts (s : State) : State :=
  [Port.east, Port.west].foldl (fun s p =>
    if s.variant == .A && s.obj (Obj.LINK_EN (p.num + 1)) = 1 then s.linkEnable p true else s) s

/-- Step 7 ends: the interfaces are up; those that a core reset finds running go on. -/
def State.stepSeven (s : State) : State :=
  let s := if s.recording then s else { s with ring := { s.ring with since := s.recTime } }.set Obj.REC_STATE 1
  let s := [CanBus.a, CanBus.b].foldl (fun s cb => if s.canState cb = 0 then s.canInit cb else s) s
  let s := s.fabStart
  let s := s.linkPorts
  let s := s.envEnable.vauxCatchUp
  if s.aon.overcast then s.overcastStop else s.set Obj.BRINGUP_STEP 8

/-! ### The handover's words (R81, R130, R131, R136) -/

/-- No bank is active (R67). -/
def State.noBank (s : State) : Bool := s.activeBank == 0

/-- A limit without a valid table: the held latch at no more than its Stratus value. -/
def State.stratusMin (s : State) (id : Nat) : Nat :=
  min (if id = 6 then min (s.word 6) s.disLimit else s.word id) (s.stratusCap id)

/-- The pack is there, or has still to be seen. -/
def State.packThereNow (s : State) : Bool := s.obj Obj.PACK_STATE != 0 || s.chg.unseen

/-- The content that a latch is to have. -/
def State.latchGoal (s : State) (fresh : Bool) (id : Nat) : Nat :=
  let row := s.obj Obj.SRC_TYPE
  if id = 0 then s.obj Obj.RAIL_SETPOINT
  else if s.noBank && !fresh && (id = 1 || id = 2 || id = 3 || id = 4 || id = 6) then s.stratusMin id
  else if id = 1 then s.obj Obj.IIN_LIMIT
  else if id = 2 then s.limitVal .pack
  else if id = 3 then s.limitVal .east
  else if id = 4 then s.limitVal .west
  else if id = 5 then (if fresh || s.noBank || !s.packThereNow then 0 else s.word 5)
  else if id = 6 then (if !fresh && s.meas.first && s.obj Obj.PACK_ZONE = 6 then s.word 6 else s.disLimit)
  else if id = 7 || id = 8 then (if fresh || 1 ≤ s.strat.link then 0 else s.word id)
  else if row = 0 then s.word id
  else if id = 9 then s.srcRow row 14 2
  else if id = 10 then s.srcRow row 18 1 * 65536 + s.srcRow row 16 2
  else if id = 11 then s.srcRow row 19 1 * 65536 + s.srcRow row 20 2
  else s.srcRow row 22 2

/-- A held write of a word the core does not hold already. -/
def State.holdIfNew (s : State) (id v : Nat) : State :=
  if s.wordDefined id && s.word id != v then s.portWord id v true else s

/-- The latches with HOLD = 1. A fresh handover has no row for the VBUS latches until a classification has latched one. -/
def State.handoverLatches (s : State) (fresh : Bool) : State :=
  (List.range 13).foldl (fun s id =>
    if fresh && !(10 ≤ id && s.obj Obj.SRC_TYPE == 0) then (if s.wordDefined id then s.portWord id (s.latchGoal fresh id) true else s)
    else s.holdIfNew id (s.latchGoal fresh id)) s

/-- One group's words: all four kinds when fresh, else those that differ, trims carried over. -/
def State.handoverGroup (s : State) (fresh : Bool) (g : Group) : State :=
  let s :=
    if fresh then (if s.groupOkAt g (s.freqSet g) then s.writeGroup g true else s.coreRaiseC (sourceOf g) 2 0)
    else if s.groupOkAt g (s.freqSet g) then
      let s := ((s.holdIfNew (44 + g.num) (s.orderVal g)).holdIfNew (32 + g.num) (s.freqVal g)).holdIfNew (40 + g.num) (s.slopeVal g)
      (s.phasesOf g).foldl (fun s p =>
        if field (s.trimVal p false) 22 13 = field (s.word (16 + p)) 22 13 then s else s.portWord (16 + p) (s.trimVal p false) true) s
    else s
  s.holdIfNew (36 + g.num) (s.edgeVal g)

/-- The port's part of a handover: held words, then HANDOVER. -/
def State.handoverWords (s : State) (fresh : Bool) : State :=
  let s := s.handoverLatches fresh
  let s := s.groups.foldl (fun s g => s.handoverGroup fresh g) s
  { s.handoverWord with core := { s.handoverWord.core with handedOver := true } }

/-! ### What the shell missed (R81, R125, R130, R132, R219, R294, R348) -/

/-- The core's queue for the collector, with what an overflow lost (R125). -/
def State.coreBacklog (s : State) : List Msg :=
  let c := s.core
  c.queue ++ (if c.queueOvf then
    (c.conds ++ ((c.stratusRaised.filter fun m => !c.conds.contains m).map fun (m : Msg) => { m with clear := true })).map
      fun (m : Msg) => { m with stamp := some s.stamp } else [])

/-- The collector takes the core's backlog, CHIP_RESET first. -/
def State.takeBacklog (s : State) : State :=
  { s with
    col := { s.col with deliver := s.chipResetMsg ++ s.coreBacklog }
    core := { s.core with queue := [], stratusRaised := [] }
    ring := { s.ring with late := none }
    aon := { s.aon with chipWhy := none } }

/-- The Stratus ends: its kind, its duration, and a heartbeat loss without a reset in RESET_CAUSE; every heartbeat Stratus counts (R559, R560). -/
def State.stratusEnd (s : State) : State :=
  let n := s.strat.level
  let s := if n = 0 then s.raise 1 0x0C 0 else s.raise 1 0x0B n
  let s := s.put Obj.STRATUS_LAST (min 0xFFFFFFFF ((s.now - s.strat.since) / 200000))
  let s := if n = 0 then s.set Obj.RESET_CAUSE 256 else s
  if n = 0 || s.strat.heartbeat then s.count (Obj.RESET_COUNT 4) 0xFFFFFFFF else s

/-- The first comparator event of a source in the present Stratus (R436). -/
def State.firstMark (s : State) (src : Nat) : Stamp :=
  (((s.ring.marks.filter fun e => e.1 == src && e.2.mode == 6).getLast?).map (·.2)).getD s.stamp

/-- As `raiseN`, for an event of the Stratus that a comparator reported. -/
def State.raiseMissed (s : State) (n src kind inst mark : Nat) : State :=
  if n = 0 then s
  else (List.range (n - 1)).foldl (fun s _ => s.again src kind)
    (s.send { src, kind, inst := inst % 65536, stamp := some (s.firstMark mark) })

/-- An event that came `n` times: one message, and the rest of them counted on it. -/
def State.raiseN (s : State) (n src kind inst : Nat) : State :=
  if n = 0 then s else (List.range (n - 1)).foldl (fun s _ => s.again src kind) (s.raise src kind inst)

/-- A promise broken `n` times for one cause (R249). -/
def State.lossN (s : State) (n cause : Nat) : State := (List.range n).foldl (fun s _ => s.sourceLoss cause) s

/-- Drops, dumps and over-rail events of the absence (R221, R249). -/
def State.missedSource (s : State) : State :=
  let d := s.src.missedDrops
  let u := s.src.missedDumps
  let o := s.src.missedOver
  let s := ((s.countN d Obj.SRC_COUNT_DROPS).countN u Obj.SRC_COUNT_DUMPS).countN o Obj.SRC_COUNT_OVER_RAIL
  let s := ((s.raiseMissed d 6 4 (s.obj Obj.SRC_TYPE) 1).raiseMissed u 6 5 (s.obj Obj.SRC_TYPE) 2).raiseN o 6 1 s.src.missedOverV
  let s := ((s.lossN d 1).lossN u 2).longestNow
  { s with
    src := { s.src with missedDrops := 0, missedDumps := 0, missedOver := 0 }
    hour := { s.hour with drops := s.hour.drops + d, dumps := s.hour.dumps + u } }

/-- SRC_STATE as the core has left it: taken off, blocked, connected or paused. A classification that the reset cut off starts
again. -/
def State.sourceNow (s : State) : State :=
  let st := s.obj Obj.SRC_STATE
  let gone := s.src.missedDetach
  let block := s.src.missedBlock
  let s := { s with src := { s.src with missedDetach := false, missedBlock := false } }
  if gone then s.detach
  else if block then s.srcState 6
  else if st = 1 then (if s.core.dumped then s.srcState 4 else if s.core.dropped then s.srcState 3 else s.classStart)
  else if st = 2 ∨ (3 ≤ st ∧ st ≤ 5) then
    let n := if s.connected then 2 else if s.core.dumped then 4 else if s.core.dropped then 3 else if s.core.overRail then 5 else st
    if n = st then s else s.srcState n
  else s

/-- Messages that the core queued of a kind. -/
def backlogHas (l : List Msg) (src kind : Nat) : Nat := (l.filter fun m => m.src == src && m.kind == kind && !m.clear).length

/-- A thermal shutdown of the Stratus at the handover: a contract ends with DETACH while it lasts, and is Neutral once it is released
(R459, R461). -/
def State.linkTripped (s : State) (p : Port) : State :=
  if s.obj Obj.TSD_STATE = 1 then (if s.inContract p then (s.detachFree p 1).toRamp p else s)
  else if s.inContract p || s.lState p == 9 then s.toNeutral p
  else s

/-- A HARD_RESET of the Stratus at the handover: acted on while the peer still discharges the link, which stands at 5.0 V or above
(R338, R351). -/
def State.linkReset (s : State) (p : Port) (held : Option Nat) : State :=
  match held with
  | some r => if 5000 ≤ (s.g p.group).vlow then s.onHardReset p r else s
  | none => s

/-- A link port at the handover: pulled or mated meanwhile, or ramped to neutral (R311, R331, R348). -/
def State.linkMoved (s : State) (p : Port) : State :=
  let st := s.lState p
  let l := s.lp p
  let s := s.modL p fun l => { l with opened := false }
  if st = 0 then s
  else if 2 ≤ st && (l.opened || !l.mated) then
    let t := s.pulled p
    if l.mated then (((t.modL p fun x => { x with mated := true, far := l.far }).peerBit p l.far).linkZ p).setLink p 2 else t
  else if l.mated && st = 1 then (s.linkZ p).setLink p 2
  else if s.strat.linkNeutralised && (s.inContract p || st = 9) then (s.raise (linkSrc p) 0x0D 0).toNeutral p
  else s.sensedStep p

/-- A link port at the handover, then what came meanwhile.
`tripped`: a thermal shutdown did. -/
def State.linkNow (s : State) (p : Port) (tripped : Bool) : State :=
  let held := (s.lp p).hardHeld
  let s := s.modL p fun l => { l with hardHeld := none }
  let s := s.linkMoved p
  (if tripped then s.linkTripped p else s).linkReset p held

/-- A VAUX warning of a Stratus without a reset (R768). -/
def State.vauxHandover (s : State) : State :=
  if s.aon.vauxDeferred then s.vauxCatchUp.commitStart.hourRecord true else s

/-- Presence and zone are re-evaluated before the charger goes on (R288): at once where the scans have gone on, else with the first
common scan. -/
def State.packAgain (s : State) : State :=
  let s := { s with chg := { s.chg with
    unseen := s.cells != 0 && s.obj Obj.PACK_STATE == 0 && s.obj Obj.CHG_STATE != 1 && !s.chg.lost } }
  let s := if s.chgValid && (List.range 4).any (fun k => s.ntcOn k && !isAbsent (s.result (18 + k))) then s.zoneUpdate else s
  (if isAbsent (s.result 0) then s else s.cellReport).packSeen

/-- A skipped record stays ACTIVE for the conditions that the blocks still report (R518). -/
def State.recordsAgain (s : State) : State :=
  let stands := fun (m : Msg) => s.col.conds.contains m || s.core.conds.contains m
  { s with recs := s.recs.map fun (e : Nat × FaultRec) =>
    if e.2.skipped && !e.2.waiting then (e.1, { e.2 with conds := e.2.conds.filter stands, active := e.2.active && e.2.conds.any stands })
    else e }

/-- Everything that catches up at a handover from Stratus. -/
def State.catchUp (s : State) : State :=
  let log := s.core.queue
  let s := s.takeBacklog.recordsAgain.stratusEnd
  let s := s.missedSource.sourceNow
  let s := s.countTrips
  let s := if backlogHas log 7 2 = 0 then s else s.packLostShell
  let tripped := backlogHas log 0x0A 6 != 0 || s.obj Obj.TSD_STATE == 1
  let s := if s.variant == .A then (s.linkNow .east tripped).linkNow .west tripped else s
  let s := if s.meas.owed then { s with meas := { s.meas with owed := false } }.commitStart else s
  let s := if s.strat.level = 2 && !s.strat.heartbeat then { s with chg := { s.chg with gap := 1000 * s.obj Obj.STRATUS_LAST } } else s
  let s := s.packAgain
  s.linObjects.linShorted.vauxHandover

/-! ### The end of step 8 -/

/-- Scheduler, recorder, watchdog and sequencers run from here (R408, R564, R694). -/
def State.blocksStart (s : State) : State :=
  let s := if s.obj Obj.SCAN_STATE = 0 then s.measStart else s
  let s := if s.wdRunning then s else s.wdStart
  s.seqStart false

/-- Both leases start again (R61). -/
def State.leasesStart (s : State) : State :=
  { s with mode := { s.mode with leaseH := s.obj Obj.MODE_REQ_H != 0xFF, leaseF := s.obj Obj.MODE_REQ_F != 0xFF } }

/-- Service under R67, until the resolved target changes (R767). -/
def State.serviceHold (s : State) : State :=
  let s := s.toService 0x0B
  { s with mode := { s.mode with serviceStay := true } }

/-- The groups hold Z until the rail is ramped. -/
def State.groupsHold (s : State) : State := s.groups.foldl (fun s g => s.stopG g 4) s

/-- WAKE_HOLD starts at the end of a bring-up (R64). -/
def State.holdStart (s : State) : State := { s with mode := { s.mode with wakeHold := s.obj Obj.WAKE_HOLD != 0 } }

/-- The stored ORDER_IN, where the pack has ramped the rail (R66). -/
def State.orderBack (s : State) : State :=
  if s.mode.orderHeld then
    let s : State := { s with mode := { s.mode with orderHeld := false } }
    if s.groupOkAt .input (s.freqSet .input) then s.portIfNew 44 (s.orderVal .input) else s
  else s

/-- Every group is let go. -/
def State.groupsGo (s : State) : State := s.groups.foldl (fun s g => s.freeG g 4) s

/-- The rail was up: Ride-through while the core rides through, Service without a valid image, else the target's mode (R67, R81). A
rail that was left unregulated is ramped before the device leaves Service (R68); with the rail on every group is let go (R52). -/
def State.handoverMode (s : State) : State :=
  let s := { s.set Obj.BRINGUP_STEP 0 with mode := { s.mode with stored := false, parkRestart := false } }
  let t := s.resolved
  let s := s.set Obj.MODE_TARGET t
  let s := if s.mode.railOff then s else s.orderBack.groupsGo
  if s.core.rideFromOn && (s.core.dropped || s.core.dumped) then
    { (s.setMode 4 0x0B).set Obj.MODE_PREV 2 with mode := { s.mode with stored := true } }
  else if s.noBank then s.serviceHold
  else if s.mode.railOff then (s.setMode 5 0x0B).act
  else if t = 5 then s.toService 0x0B
  else if t = 3 then s.setMode 3 0x0B
  else
    let s := s.setMode 2 0x0B
    if t = 0 ∨ t = 1 then s.act else s

/-- What every bring-up that reaches Idle or Service does at its end (R64, R69, R497, R645, R669). -/
def State.bringEnd (s : State) (mode cause : Nat) : State :=
  let k := s.aon.bringKind
  let park := s.parkAcc.due && s.modeNow == 1
  let s := (s.set Obj.BRINGUP_STEP 0).setMode mode cause
  let s := if k = 4 then s else s.holdStart
  let s := { s with mode := { s.mode with
    railOff := mode == 5, stored := false, maint := mode == 2 && cause == 5, serviceStay := mode == 5 } }
  let s := if mode = 5 then s else s.orderBack.groupsGo
  let s := if park then s.parkRecord else s
  let s := if k ≤ 1 then s.dtcCycle else s
  let s := s.linObjects.linShorted.linkPorts
  let s := (s.set Obj.MODE_TARGET s.resolved).haloUpdate
  if mode = 5 then s else s.act

/-- After a handover: the bring-up goes on where it was, or the mode, or step 9 where the rail is still to be ramped. -/
def State.handoverEnd (s : State) (vbus : Nat) (rail : Bool) : State :=
  let s := s.blocksStart.leasesStart
  if 9 ≤ s.obj Obj.BRINGUP_STEP then s.haloUpdate
  else if rail then (if s.bringing then s.holdStart else s).handoverMode.haloUpdate
  else if s.noBank then s.groupsHold.bringEnd 5 0x0D
  else s.groupsHold.stepNine vbus

/-- The shell takes the source's limit, what a Stratus left it, and a direct phase's words (R201, R130). -/
def State.handoverTake (s : State) (vbus : Nat) (stratus : Bool) : State :=
  let s := { s with strat := { s.strat with absent := false } }
  let s := if s.obj Obj.SRC_TYPE = 0 then s else s.set Obj.IIN_LIMIT (s.iinLimit (s.iHarn vbus s.ibus))
  let s := if stratus then s.catchUp else s
  if s.strat.level = 0 then s else s.directEnd

/-- The latches and timing words at the values the shell holds; what stands is what the shell knows (R130, R131). -/
def State.handoverHeld (s : State) (fresh : Bool) : State :=
  let s := s.handoverWords fresh
  let s := if fresh then s else s.set Obj.CHG_I_CMD (s.wordStanding 5)
  { s with
    src := { s.src with iinWritten := s.wordStanding 1 }
    strat := { s.strat with heartbeat := false, level := 0 }
    mode := { s.mode with capped := !fresh && s.noBank } }

/-- The core handover (R130, R131). `vbus` in mV. -/
def State.handover (s : State) (vbus : Nat) : State :=
  let hb := !s.bringing || 9 ≤ s.obj Obj.BRINGUP_STEP
  let kind := s.aon.bringKind
  let fresh := !hb && (kind ≤ 1 || !s.core.handedOver)
  ((s.handoverTake vbus s.strat.absent).handoverHeld fresh).handoverEnd vbus (hb || kind == 2)

/-! ### Steps 9 to 11 (R66) -/

/-- The input group can ramp the rail. -/
def State.inputRamps (s : State) : Bool :=
  s.obj Obj.SRC_STATE == 2 && s.rowInputEn s.curRow && s.rowRampEn s.curRow

/-- The pack group can. -/
def State.packRamps (s : State) : Bool := s.packAlive && s.cells != 0 && s.chgValid && s.zoneDis && s.disLimit != 0

/-- Step 10 starts, with a usable source: the input group ramps where it can, else the pack group; without one the device enters
Storage (R55, R66, R67). -/
def State.stepTen (s : State) : State :=
  if s.inputRamps then (s.freeG .input 4).set Obj.BRINGUP_STEP 10
  else if s.packRamps then
    let s := (s.freeG .pack 4).set Obj.BRINGUP_STEP 10
    if s.obj Obj.SRC_STATE = 2 && s.rowInputEn s.curRow then
      { (s.portIfNew 44 0) with mode := { s.mode with orderHeld := true } }
    else s
  else ((s.raise 6 3 0).commitNow).enterStorage 9

/-- The step in progress completes. Inputs: three samples of the strap pins, OTP areas whose tight read fails (a mask), the size in MB of the flash found (0 for
none), and the blocks of
the retained area with an uncorrectable word. -/
def State.bringStep (s : State) (pins tight flash : Nat) (ecc : List Nat) : State :=
  match s.obj Obj.BRINGUP_STEP with
  | 1 => s.set Obj.BRINGUP_STEP (if s.aon.bringKind = 2 then 3 else 2)
  | 2 => (s.otpSense tight).set Obj.BRINGUP_STEP 3
  | 3 => (if s.coreLevel then s else s.sampleStraps pins).set Obj.BRINGUP_STEP 4
  | 4 => match s.clockLocked with
    | some t => t.set Obj.BRINGUP_STEP 5
    | none => s
  | 5 => s.stepFive flash ecc
  | 6 => s.stepSix
  | 7 => s.stepSeven
  | 9 => if s.src.cls = 0 && !s.aon.overcast then s.stepTen else s
  | 10 => if s.aon.overcast then s else s.set Obj.BRINGUP_STEP 11
  | 11 => if s.aon.overcast then s else s.bringEnd 2 s.aon.bringCause
  | _ => s

end Sys2Proof.Machine
end

