-- ==== Sys2Proof/Machine/Reset.lean ====
section
/-!
DEFINITION. Reset.lean: the commands of the resets, the VAUX supervisor and bring-up (R65, R130, R542-R562, R768).
-/
namespace Sys2Proof.Machine

/-- VAUX below 4.2 V for 5 µs. -/
def execPowerOnReset (s : State) : Host.Outcome State Fault Refusal := .next (s.powerOnReset 9)

/-- VCORE or VDD33 below its own level (R557). -/
def execRailPor (s : State) : Host.Outcome State Fault Refusal := .next (s.powerOnReset 10)

/-- `dipMs`: how long VAUX stood below 4.2 V. -/
def execPowerOnResetRelease (dipMs : Nat) (s : State) : Host.Outcome State Fault Refusal :=
  .next (if s.aon.por then s.powerOnRelease dipMs else s)

/-- The shell's part of a VAUX warning: fault, count, the partial HOUR record, and a commit unless one is still running. -/
def State.vauxShell (s : State) (vaux : Nat) : State :=
  let s := (s.raise1 0x1A 1 (min 65535 (vaux / 100))).count Obj.VAUX_WARN_COUNT 0xFFFFFFFF
  (if s.jrnl.inFlight.isSome then s else s.commitStart).hourRecord true

/-- The supervisor's part, and the shell's now or later (R556, R768). `vaux` in mV. -/
def State.vauxWarn (s : State) (vaux : Nat) : State :=
  let s := s.set Obj.VAUX_STATE 1
  let s := s.set Obj.VAUX_MIN (min (s.obj Obj.VAUX_MIN) (vaux / 10))
  if s.serving && (s.bringing || !s.inMode [0, 1]) then s.vauxShell vaux
  else { s with aon := { s.aon with vauxDeferred := true, vauxAt := min 65535 (vaux / 100) } }

def execVauxWarning (vaux : Nat) (s : State) : Host.Outcome State Fault Refusal :=
  .next (if s.aon.por || s.obj Obj.VAUX_STATE == 1 then s else s.vauxWarn vaux)

def execVauxWarningClear (s : State) : Host.Outcome State Fault Refusal :=
  .next (if s.obj Obj.VAUX_STATE = 1 then (s.set Obj.VAUX_STATE 0).clearK 0x1A 1 else s)

/-- `external`: nRST is low while the device is not driving it. -/
def execNrstCoreReset (external : Bool) (s : State) : Host.Outcome State Fault Refusal :=
  .next (if s.nrstSeen && s.aon.resetLevel == 0 && (external || s.aon.nrstDrive) then s.logged fun s => s.coreReset external else s)

def execNrstEscalation (s : State) : Host.Outcome State Fault Refusal :=
  .next (if s.aon.resetLevel = 1 then s.logged State.escalate else s)

/-- `lowUs`: the length of the low period. The device's own drive keeps the pin low. -/
def execResetRelease (lowUs : Nat) (s : State) : Host.Outcome State Fault Refusal :=
  .next (if s.aon.resetLevel != 0 && !s.aon.nrstDrive then s.resetRelease lowUs else s)

def execNrstDriveEnd (s : State) : Host.Outcome State Fault Refusal := .next { s with aon := { s.aon with nrstDrive := false } }

/-- A step goes on while no reset is asserted; from step 5 on it needs the main clock (R551). -/
def State.stepping (s : State) : Bool :=
  s.bringing && !s.aon.por && s.aon.resetLevel == 0 && (s.obj Obj.BRINGUP_STEP ≤ 4 || !s.aon.clockStopped)

def execBringupStepComplete (pins tight flash : Nat) (ecc : List Nat) (s : State) : Host.Outcome State Fault Refusal :=
  .next (if s.stepping && (s.obj Obj.BRINGUP_STEP ≤ 8 || !s.strat.absent) then s.logged fun s => s.bringStep pins tight flash ecc else s)

/-- The shell is there for a handover: at step 8, or with its heartbeat back after a loss (R132). -/
def State.handoverDue (s : State) : Bool :=
  !s.aon.overcast && s.aon.shell && s.aon.resetLevel == 0 && !s.aon.clockStopped &&
    (s.obj Obj.BRINGUP_STEP == 8 || ((!s.bringing || 9 ≤ s.obj Obj.BRINGUP_STEP) && s.strat.absent))

/-- The heartbeat is back in Overcast: the shell serves again, without a handover (R85, R766). -/
def State.overcastReturn (s : State) : State :=
  let s := { s with strat := { s.strat with absent := false, heartbeat := false } }.takeBacklog.vauxHandover
  (s.overcastShell.hzMode).haloUpdate

def execCoreHandover (vbus : Nat) (s : State) : Host.Outcome State Fault Refusal :=
  .next (if s.handoverDue then s.logged fun s => s.handover vbus
    else if s.aon.overcast && s.aon.shell && s.aon.resetLevel == 0 && s.strat.absent && s.modeNow == 7 && !s.bringing then
      s.logged State.overcastReturn
    else s)

end Sys2Proof.Machine
end

