-- ==== Sys2Proof/Machine/Modes.lean ====
section
/-!
DEFINITION. Modes.lean: the commands of the mode logic: wake events, Park checks, requests, Park entry, Stratus and Overcast
(R46-R87, R126, R532, R533).
-/
namespace Sys2Proof.Machine

/-! ### Wake events (R50, R53, R70) -/

def execWakePin (s : State) : Host.Outcome State Fault Refusal :=
  .next (if bit (s.obj Obj.WAKE_CFG) 0 then s.wakeEvent 2 else s)

/-- An attach with the shell running starts a classification (R186). Steps 1 to 8 of bring-up start none of their own. -/
def State.attach (s : State) : State :=
  let s := { s with src := { s.src with missedDetach := false } }
  if s.shellUp && (!s.bringing || 9 ≤ s.obj Obj.BRINGUP_STEP) && !s.aon.overcast then
    if s.src.cls = 0 then ({ s with core := { s.core with dropped := false, dumped := false } } : State).classStart else s
  else if bit (s.obj Obj.WAKE_CFG) 1 then s.wakeEvent 3
  else s

def execVbusAttach (s : State) : Host.Outcome State Fault Refusal :=
  .next (s.logged fun s => if s.mode.park = 5 && bit (s.obj Obj.WAKE_CFG) 1 then s.wakeEvent 3 else s.attach)

/-! ### Park checks (R73, R287, R413) -/

/-- The channels of a Park check: the cells, CH16, CH17, the fitted PNTC channels, and VBUS. -/
def State.parkMask (s : State) (m : Nat) : Nat :=
  match m with
  | 0 => 2 ^ s.cells - 1
  | 1 => 3 + 4 * (s.chgAt 3 1 % 16)
  | 2 => 1
  | _ => 0

/-- The check falls due: the scheduler wakes. -/
def State.parkScan (s : State) : State :=
  let s := ((List.range 4).foldl (fun s m => s.set (Obj.SCAN_EFFECTIVE m) (s.parkMask m)) s.noResults).slotsStart (us 370)
  { s.set Obj.SCAN_STATE 3 with
    mode := { s.mode with parkCheck := true }
    meas := { s.meas with
      park := s.obj Obj.PARK_SCAN, left := field (s.obj Obj.PARK_SCAN) 27 24, gapEnd := s.now, done := s.emptyMasks } }

/-- What the charger makes of the results, with the rest correction once Park has lasted REST_T (R287). Shell off, no fault is
collected. -/
def State.parkEvaluate (s : State) : State :=
  if s.cells = 0 then s
  else
    let t := s.cellReport.zoneUpdate.cutoff
    let t := if s.parkAcc.since + sec (60 * s.chgAt 41 1) ≤ s.now && t.ocvOk then t.ocvCorrect else t
    { t with col := s.col }

/-- The pack calls for a maintenance run. -/
def State.maintDue (s : State) : Bool :=
  bit (s.obj Obj.WAKE_CFG) 3 && s.chgValid && s.cells != 0 && s.obj Obj.PACK_SOC + 5 * s.chgAt 27 1 < s.parkSoc &&
    decide ((v50 (s.srcRow s.curRow 12 2) : Int) < s.vbus) && s.obj Obj.SRC_TYPE != 0 && s.zoneChg && !s.blocking

/-- VBUS below 6.0 V and the pack at its cutoff (R53, R284). -/
def State.parkDead (s : State) : Bool := (s.reading 32 80000).elim false (fun v => decide (v < 6000)) && s.obj Obj.PACK_STATE == 2

/-- What the Park record keeps of a check (R497). -/
def State.parkNote (s : State) : State :=
  match tempOf (s.obj Obj.PACK_TEMP) with
  | none => s
  | some t => { s with parkAcc := { s.parkAcc with pMin := min s.parkAcc.pMin t, pMax := max s.parkAcc.pMax t } }

/-- The scans are complete: a waiting wake, a maintenance run, Storage, or Park again. -/
def State.parkDecide (s : State) : State :=
  let s := s.parkEvaluate.parkNote.socMirror
  let s := { s.set Obj.SCAN_STATE 0 with mode := { s.mode with parkCheck := false } }
  match s.aon.wake with
  | some c => s.wakeUp c
  | none =>
    if s.parkDead then s.enterStorage 9
    else if s.maintDue then ({ s with parkAcc := { s.parkAcc with runs := s.parkAcc.runs + 1 } } : State).wakeUp 5
    else s

/-- `done`: the scans of the check have completed; else it falls due. -/
def execParkCheck (done : Bool) (s : State) : Host.Outcome State Fault Refusal :=
  .next (s.logged fun s => if s.modeNow = 1 && !s.bringing && !s.aon.por then
    if done then (if s.mode.parkCheck && s.meas.left == 0 then s.parkDecide else s) else if s.mode.parkCheck then s else s.parkScan
  else s)

/-! ### Requests and timers (R53-R64) -/

/-- One master's write of its slot, without the resolution: whether it was accepted, and the state. -/
def State.slotWrite (s : State) (m : Master) (v : Nat) : Bool × State :=
  if !s.served m then (false, s)
  else
    let k := 0x0101 * 256 + m.code
    let c := s.writeCode m k (leBytes 1 v)
    (c == 0, (if c = 0 then s.modeReqSlot m.code v else s).answerWith m k c [])

/-- Several masters' writes of their slots: the value of an accepted write of the S slot, and the state. -/
def State.slotWrites (s : State) (l : List (Master × Nat)) : Option Nat × State :=
  l.foldl (fun (a : Option Nat × State) x =>
    let w := a.2.slotWrite x.1 x.2
    (if w.1 && x.1 == .S then some x.2 else a.1, w.2)) (none, s)

/-- `others`: writes of other masters in the same shell cycle. Every slot is written, and one resolution follows (R87). -/
def execModeReqWrite (m : Master) (v : Nat) (others : List (Master × Nat)) (s : State) : Host.Outcome State Fault Refusal :=
  .next (s.logged fun s =>
    let r := s.slotWrites (others ++ [(m, v)])
    r.2.modeReqAct r.1)

/-- The slot reverts to none (R58). -/
def State.leaseEnd (s : State) (m : Master) : State :=
  match m with
  | .H => if s.mode.leaseH && s.obj Obj.MODE_LEASE_H != 0 then
      ({ (s.set Obj.MODE_REQ_H 0xFF) with mode := { s.mode with leaseH := false } } : State).resolve else s
  | .F => if s.mode.leaseF && s.obj Obj.MODE_LEASE_F != 0 then
      ({ (s.set Obj.MODE_REQ_F 0xFF) with mode := { s.mode with leaseF := false } } : State).resolve else s
  | _ => s

def execModeLeaseExpiry (m : Master) (s : State) : Host.Outcome State Fault Refusal :=
  .next (if s.shellUp then s.logged fun s => s.leaseEnd m else s)

def execModeTargetReevaluation (s : State) : Host.Outcome State Fault Refusal :=
  .next (if s.shellUp then s.logged State.resolve else s)

/-- Idle with a target of none for IDLE_PARK_DELAY. -/
def execIdleParkDelayExpiry (s : State) : Host.Outcome State Fault Refusal :=
  .next (if s.shellUp && !s.bringing && s.modeNow = 2 && s.mode.park = 0 && s.obj Obj.MODE_TARGET = 0xFF &&
      s.obj Obj.IDLE_PARK_DELAY != 0 && !s.mode.wakeHold && !s.mode.maint && s.obj Obj.TSD_STATE == 0 then s.logged fun s => s.parkStart 0x0E else s)

/-- A Park, Storage or none target is acted on (R64), except one that a Service under R67 has outlasted (R767). -/
def execWakeHoldExpiry (s : State) : Host.Outcome State Fault Refusal :=
  .next (if s.mode.wakeHold then
    s.logged fun s =>
      let t : State := { s with mode := { s.mode with wakeHold := false } }
      if t.shellUp && !t.mode.serviceStay && [0, 1, 0xFF].contains (t.obj Obj.MODE_TARGET) then t.act else t
  else s)

/-! ### Park entry (R71, R72, R604, R606, R722) -/

/-- Bank copies due for a rewrite are rewritten from SRAM. -/
def State.rewriteBanks (s : State) : State :=
  let s := s.flash.rewrite.foldl (fun s n => s.writeBankF n (s.bankF n).gen) s
  { s with flash := { s.flash with rewrite := [] } }

/-- PHASE_TRIM goes into PHASE_TRIM_SEED (R162). -/
def State.seedTrims (s : State) : State :=
  (s.groups.flatMap s.phasesOf).foldl (fun s p =>
    let v := toCode 16 (s.trimNow p)
    if s.obj (Obj.PHASE_TRIM_SEED p) = v then s else s.put (Obj.PHASE_TRIM_SEED p) v) s

/-- The commit step: the trims' seeds, the open capture closes, the partial HOUR record, the journal. -/
def State.parkCommit (s : State) : State :=
  let s := s.seedTrims
  let s := ((s.closeWindow true).closeCapture true).hourRecord true |>.rewriteBanks
  s.commitNow

/-- Park is reached: the shell goes off, and the account of the Park begins. -/
def State.parkOff (s : State) : State :=
  let s := { s with
    parkAcc := { due := true, since := s.now, socIn := s.obj Obj.PACK_SOC }, mode := { s.mode with parkEpochDone := false } }
  (s.freeLocks.setMode 1 s.mode.parkCause).dropRequests.shellOff

/-- Park is reached: a wake event that waited starts bring-up from it (R72); else Storage where the target is Storage. -/
def State.parkReach (s : State) : State :=
  let t := s.parkOff
  match s.aon.wake with
  | some k => (t.set Obj.MODE_TARGET t.resolved).wakeUp k
  | none => if s.obj Obj.MODE_TARGET = 0 then t.enterStorage s.mode.parkCause else t.set Obj.MODE_TARGET t.resolved

/-- The stage in progress completes: 1 the links are neutral, 2 the epoch, 3 the commit, 4 the groups' boundaries, 5 the shell. -/
def State.parkAdvance (s : State) : State :=
  let stage := fun (s : State) (n : Nat) => { s with mode := { s.mode with park := n } }
  match s.mode.park with
  | 1 => if s.linkQuiet then (if s.mode.parkEpochDone then stage s 3 else stage (s.epochStart 1) 2) else s
  | 2 => if s.hz.epoch.isSome then s else stage s 3
  | 3 => if s.otp.prog.isSome || s.meas.cal = 2 then s else stage s.parkCommit 4
  | 4 => stage s.groupsOff 5
  | 5 => s.parkReach
  | _ => s

def execParkEntryAdvance (s : State) : Host.Outcome State Fault Refusal :=
  .next (if s.shellUp && s.modeNow = 2 && s.obj Obj.TSD_STATE == 0 then s.logged State.parkAdvance else s)

/-! ### Stratus (R79, R126) -/

/-- No heartbeat for 1.0 ms. Up to the handover of a bring-up the core has no heartbeat to lose. -/
def execHeartbeatLoss (s : State) : Host.Outcome State Fault Refusal :=
  .next (if s.shellUp && (!s.bringing || 9 ≤ s.obj Obj.BRINGUP_STEP) && (s.bringing || !s.inMode [0, 1])
    then s.logged fun s => s.shellAbsent true else s)

/-- 500 ms from Stratus entry: the contracts' limits begin to ramp. -/
def execStratusLinkHoldExpiry (s : State) : Host.Outcome State Fault Refusal :=
  .next (if s.strat.active && s.variant == .A && s.strat.link = 0 then { s with strat := { s.strat with link := 1, rampAt := s.now } } else s)

/-- The 20 ms ramp ends: the link groups at Z, the contracts Neutral. -/
def State.stratusLinkEnd (s : State) : State :=
  let any := [Port.east, Port.west].any fun p => s.word (contractId p) != 0
  let t := (s.linkZ .east).linkZ .west
  let t := { t with strat := { t.strat with link := 2, linkNeutralised := any } }
  if s.strat.absent then t.exhaustedStratusNow else t

def execStratusLinkRampEnd (s : State) : Host.Outcome State Fault Refusal :=
  .next (if s.strat.active && s.variant == .A && s.strat.link = 1 then s.logged State.stratusLinkEnd else s)

/-! ### nFAILOVER and Overcast (R532, R533) -/

/-- The pulse, or the later of two overlapping ones, ends. -/
def execNfailoverPulseEnd (s : State) : Host.Outcome State Fault Refusal :=
  .next (if s.wd.pulseEnd ≤ s.now then { s with wd := { s.wd with pulse := 0 } } else s)

/-- A timed stage of the shutdown completes. At step 8 the shell goes on without a handover (R86, R766). -/
def State.overcastAdvance (s : State) : State :=
  if s.aon.overcastStage = 4 && s.obj Obj.BRINGUP_STEP = 8 then
    ({ s with aon := { s.aon with overcastStage := 5 } } : State).overcastStop
  else s.overcastStep

def execOvercastShutdownAdvance (s : State) : Host.Outcome State Fault Refusal :=
  .next (if s.aon.overcast then s.logged State.overcastAdvance else s)

end Sys2Proof.Machine
end

