-- ==== Sys2Proof/Machine/Faults.lean ====
section
/-!
DEFINITION. Faults.lean: the commands of the fault collector: acceptance, handling, reactions, direct mode, HALO (R501-R537).
-/
namespace Sys2Proof.Machine

/-! ### Acceptance (R503-R505, R509) -/

/-- The source served next: ascending, after the one served last. -/
def nextSource (bus : List Msg) (served : Nat) : Option Nat :=
  let l := bus.map (·.src)
  let up := l.filter fun n => decide (served < n)
  let low := fun (l : List Nat) => l.foldl (fun (m : Option Nat) n => some (m.elim n fun x => min x n)) none
  if up.isEmpty then low l else low up

/-- The message that the collector takes next, and the state without it. `true`: from the core's queue. -/
def State.nextMsg (s : State) : Option (Msg × Bool × State) :=
  match s.col.deliver with
  | m :: r => some (m, true, { s with col := { s.col with deliver := r } })
  | [] =>
    match nextSource s.col.bus s.col.served with
    | none => none
    | some n => (s.col.bus.find? fun m => m.src == n).map fun m =>
        (m, false, { s with col := { s.col with bus := s.col.bus.eraseP fun x => x.src == n, served := n } })

/-! ### Block resets (R507) -/

/-- The converters start again; a calibration in progress is given up with the scan. -/
def State.scanReset (s : State) : State :=
  if s.obj Obj.SCAN_STATE = 0 then s
  else
    let s := if s.meas.cal = 2 then { s.set Obj.CAL_STATE s.meas.calWas with meas := { s.meas with cal := 0, restore := true } } else s
    s.measStart

/-- The flash controller starts again: the commit that it carried out is torn, and its entries go with the next one. -/
def State.flashReset (s : State) : State :=
  match s.jrnl.inFlight with
  | some e =>
    let t := s.commitTorn
    let t := { t with jrnl := { t.jrnl with inFlight := none, buf := mergeStore e t.jrnl.buf } }
    (t.flashBusy false).replayReport.commitStart
  | none => s

/-- The Horizon block starts again: its probe, its epoch and the round's sums are gone. -/
def State.hzReset (s : State) : State :=
  let s := s.epochDiscard.probeAbandon
  { s with hz := s.hz.emptied }

/-- The LIN slave starts again with its stored configuration. -/
def State.linReset (s : State) : State :=
  let s := s.linCopies
  { s with lin := { s.lin with slave := none, rsp := none, sleep := false, respErr := false } }

/-- What the reset of a source's block does. -/
def State.blockStart (s : State) (src inst : Nat) : State :=
  match src with
  | 2 => (s.groupApply 1).2
  | 3 => (s.groupApply 2).2
  | 4 => (s.groupApply 3).2
  | 5 => (s.groupApply 4).2
  | 9 => s.scanReset
  | 11 => s.hzReset
  | 14 => if s.fabOn then (s.portDown .east).portDown .west else s
  | 15 => if 3 ≤ s.lState .east then s.sendHard .east 0x0B else s
  | 16 => if 3 ≤ s.lState .west then s.sendHard .west 0x0B else s
  | 17 => s.canInit .a
  | 18 => s.canInit .b
  | 19 => s.linReset
  | 20 => s.sessionDefault.resolve
  | 23 => s.flashReset
  | 25 => s.envEnable
  | 27 => if inst / 256 < 5 then s.seqStart1 (s.sq (inst / 256)).stopped (inst / 256) else s
  | _ => s

/-! ### Reactions (R514-R521) -/

/-- A record's source and kind as instances name them. -/
def causeOf (m : Msg) : Nat := m.src * 256 + m.kind

/-- IRQ: nIRQ low, and a NOTIFY. -/
def State.reactIrq (s : State) : State :=
  ({ s with col := { s.col with irq := true }, note := { s.note with reason := setBit s.note.reason 0 true } } : State).notify

/-- TRAP: every sequencer in its trap state, and TRAP_ENTERED. -/
def State.reactTrap (s : State) (m : Msg) : State := s.seqTrap.raise 0x1B 4 (causeOf m)

/-- A chip reset within the holdoff of the last one (R517). -/
def State.holdoff (s : State) : Bool :=
  s.aon.chipResetAt.elim false fun t => decide (s.now < t + sec (s.obj Obj.CHIPRST_HOLDOFF))

/-- BLOCK_RESET: the source's block starts its reset, which keeps the window of a record open. -/
def State.reactBlock (s : State) (slot : Option Nat) (m : Msg) : State :=
  let t := s.blockStart m.src m.inst
  if slot.isSome then { t with col := { t.col with blockReset := some m.src } } else t

/-- CHIP_RESET: nRST is driven. -/
def State.reactChip (s : State) (m : Msg) : State :=
  { s with aon := { s.aon with
    nrstDrive := true, chipResetAt := some s.now, chipWhy := some (causeOf m), cause := setBit s.aon.cause 7 true } }

/-- The reactions as they are carried out: CHIP_RESET within the holdoff turns into TRAP; a queued record has IRQ and HALO only. -/
def State.reactBits (s : State) (react : Nat) (queued : Bool) : Nat :=
  let r := if queued then react &&& 17 else react % 32
  if bit r 3 && s.holdoff then setBit (setBit r 3 false) 1 true else r

/-- The open record notes the reactions carried out. -/
def State.noteReact (s : State) (slot : Option Nat) (bits : Nat) : State :=
  match slot with
  | none => s
  | some n => match s.rec? n with
    | some r => s.putRec n { r with react := r.react ||| bits }
    | none => s

/-- A class of 4 sets the Overcast latch; then the reactions in their order. -/
def State.carryOut (s : State) (slot : Option Nat) (m : Msg) (cls react : Nat) (queued : Bool) : State :=
  let bits := s.reactBits react queued
  let off := bit react 3 && !queued && !bit bits 3
  let s := if cls = 4 && !queued then s.setOvercast else s
  let s := s.noteReact slot bits
  let s := if bit bits 0 then s.reactIrq else s
  let s := s.haloUpdate
  let s := if bit bits 1 then s.reactTrap m else s
  let s := if off then s.raise 0x0D 5 (causeOf m) else s
  let s := if bit bits 2 && hasBlockReset m.src then s.reactBlock slot m else s
  if bit bits 3 then s.reactChip m else s

/-- A window with no block reset under way closes. -/
def State.windowEnd (s : State) : State :=
  match s.col.handling with
  | some n => if s.col.blockReset.isNone then s.closeHandling n else s
  | none => s

/-! ### FAULT_RAISE and FAULT_CLEAR -/

/-- Refusals of sequencer actions that came before their record join its count. -/
def State.takeRefused (s : State) (m : Msg) : State :=
  if m.src = 0x1B ∧ m.kind = 2 then
    let n := s.seqs.toList.foldl (fun n (q : Seq) => n + q.refused) 0
    { s with
      seqs := s.seqs.map fun (q : Seq) => { q with refused := 0 }
      recs := s.recs.map fun (e : Nat × FaultRec) =>
        if e.2.src = 0x1B ∧ e.2.kind = 2 then (e.1, { e.2 with count := min 65535 (e.2.count + n) }) else e }
  else s

/-- The record that merges: the one whose window is open, of class C2 or above (R520). -/
def State.merging (s : State) : Option (Nat × FaultRec) :=
  match s.col.handling with
  | some n => match s.rec? n with
    | some r => if 2 ≤ r.cls then some (n, r) else none
    | none => none
  | none => none

/-- A record is made, repeated, or merged into, under the table of the window that is open (R525); with no slot to be had, the reactions
follow at once. -/
def State.record (s : State) (m : Msg) (cls react : Nat) (queued : Bool) : State :=
  match s.merging with
  | some (n, r) =>
    let y := reactionBy s.col.table m.src m.kind
    let cls := y.1
    let react := y.2
    let x := s.mergeRecord n r m cls react
    if x.2 = 0 && !(cls == 4 && r.cls != 4) then x.1.haloUpdate
    else (x.1.carryOut (some n) m (if r.cls < cls then cls else 0) x.2 r.queued).windowEnd
  | none =>
    let x := s.makeRecord m cls queued
    if x.2 then x.1.carryOut none m cls react queued else (x.1.takeRefused m).haloUpdate

/-- A RAISE is accepted. The counters, trouble-code memory and the recorder see every one; in direct mode nothing else does. SOURCE 0x00
is the self-loop's, which is never recorded (R504). -/
def State.acceptRaise (s : State) (m : Msg) (core : Bool) : State :=
  if m.src = 0 then s else
  let x := s.reactionOf m.src m.kind
  let s := (if 2 ≤ x.1 then (s.faultCounts m x.1).hourFault else s.faultCounts m x.1).dtcRaise m x.1
  let s := if recTrigger (s.obj Obj.REC_CFG) m x.1 then s.capture m x.1 else s
  if s.aon.direct then s else s.record m x.1 x.2 (core && !(m.src == 0x0D && m.kind == 4))

/-- A CLEAR is accepted. -/
def State.acceptClear (s : State) (m : Msg) : State := ((s.dtcClear m).clearRecord m).haloUpdate

/-- The message to be taken next is a RAISE. -/
def execFaultRaise (s : State) : Host.Outcome State Fault Refusal :=
  .next (if s.shellUp then
    s.logged fun s => match s.nextMsg with
    | some (m, core, t) => if m.clear then s else t.acceptRaise m core
    | none => s
  else s)

/-- The message to be taken next is a CLEAR. -/
def execFaultClear (s : State) : Host.Outcome State Fault Refusal :=
  .next (if s.shellUp then
    s.logged fun s => match s.nextMsg with
    | some (m, _, t) => if m.clear then t.acceptClear m else s
    | none => s
  else s)

/-- A message of a source whose queue holds four. -/
def execFaultLost (src : Nat) (s : State) : Host.Outcome State Fault Refusal :=
  .next (if (s.col.bus.filter fun x => x.src == src).length < 4 then s
  else { (s.tally Obj.FAULT_LOST 0xFFFFFFFF) with col := { s.col with lost := true } })

/-! ### Handling (R514, R518, R519) -/

/-- The oldest waiting record. -/
def State.nextRecord (s : State) : Option (Nat × FaultRec) :=
  (s.recs.filter fun (e : Nat × FaultRec) => e.2.waiting).foldl (fun (v : Option (Nat × FaultRec)) e => match v with
    | none => some e
    | some x => if e.2.seq < x.2.seq then some e else some x) none

/-- A window opens: class and reactions by the table in force now (R525). -/
def State.handle (s : State) (n : Nat) (r : FaultRec) : State :=
  let x := s.reactionOf r.src r.kind
  let r' := { r with waiting := false, skipped := false, cls := x.1 }
  let s := { s.putRec n r' with col := { s.col with handling := some n, blockReset := none, table := s.body 9 } }
  (s.carryOut (some n) { src := r.src, kind := r.kind, inst := r.last % 65536 } x.1 x.2 r.queued).windowEnd

def execRecordHandling (s : State) : Host.Outcome State Fault Refusal :=
  .next (if s.shellUp && !s.aon.direct && s.col.handling.isNone then
    s.logged fun s => match s.nextRecord with
    | some (n, r) => s.handle n r
    | none => s
  else s)

/-- The block reports completion, or 10 ms have passed. -/
def execBlockResetComplete (s : State) : Host.Outcome State Fault Refusal :=
  .next (match s.col.handling, s.col.blockReset with
    | some n, some _ => s.closeHandling n
    | _, _ => s)

/-! ### Objects (R511, R515, R535) -/

def execFaultAck (m : Master) (v : Nat) (s : State) : Host.Outcome State Fault Refusal :=
  .next (s.logged fun s => s.asked m fun s => (s.writeKey m Obj.FAULT_ACK (leBytes 1 v)).2)

def execFaultRecordRead (m : Master) (slot : Nat) (s : State) : Host.Outcome State Fault Refusal :=
  .next (s.asked m fun s => (s.readKey m (Obj.FAULT_RECORD (slot % 256))).2.2)

def execFaultInject (m : Master) (v : Nat) (s : State) : Host.Outcome State Fault Refusal :=
  .next (s.logged fun s => s.asked m fun s => (s.writeKey m Obj.FAULT_INJECT (leBytes 4 v)).2)

/-! ### Direct mode and HALO (R526-R529) -/

/-- `ok`: the message came back within 10 µs with its instance. -/
def State.selfLoop (s : State) (ok : Bool) : State :=
  let s := { s with col := { s.col with
    selfInst := (s.col.selfInst + 1) % 65536, selfFails := if ok then 0 else s.col.selfFails + 1 } }
  let s := if ok then { s with wd := { s.wd with collector := true } } else s
  if 2 ≤ s.col.selfFails then s.directEnter 1 else s

def execCollectorSelfLoop (ok : Bool) (s : State) : Host.Outcome State Fault Refusal :=
  .next (if s.shellUp then s.selfLoop ok else s)

/-- 500 µs on the main clock. -/
def execHaloToggle (s : State) : Host.Outcome State Fault Refusal :=
  .next (if s.shellUp && s.col.haloRun && !s.aon.clockStopped then { s with col := { s.col with haloLevel := !s.col.haloLevel } } else s)

end Sys2Proof.Machine
end

