-- ==== Sys2Proof/Machine/Dispatch.lean ====
section
/-!
DEFINITION. Dispatch.lean: one arm per command, each one direct call of its meaning.
-/
namespace Sys2Proof.Machine

def exec (i : Instr) (s : State) : Host.Outcome State Fault Refusal :=
  match i with
  | .powerOnReset => Sys2Proof.Machine.execPowerOnReset s
  | .railPor => Sys2Proof.Machine.execRailPor s
  | .powerOnResetRelease dipMs => Sys2Proof.Machine.execPowerOnResetRelease dipMs s
  | .vauxWarning vaux => Sys2Proof.Machine.execVauxWarning vaux s
  | .vauxWarningClear => Sys2Proof.Machine.execVauxWarningClear s
  | .nrstCoreReset external => Sys2Proof.Machine.execNrstCoreReset external s
  | .nrstEscalation => Sys2Proof.Machine.execNrstEscalation s
  | .resetRelease lowUs => Sys2Proof.Machine.execResetRelease lowUs s
  | .nrstDriveEnd => Sys2Proof.Machine.execNrstDriveEnd s
  | .bringupStepComplete pins tight flash ecc => Sys2Proof.Machine.execBringupStepComplete pins tight flash ecc s
  | .coreHandover vbus => Sys2Proof.Machine.execCoreHandover vbus s
  | .wakePin => Sys2Proof.Machine.execWakePin s
  | .vbusAttach => Sys2Proof.Machine.execVbusAttach s
  | .parkCheck done => Sys2Proof.Machine.execParkCheck done s
  | .modeReqWrite m v others => Sys2Proof.Machine.execModeReqWrite m v others s
  | .modeLeaseExpiry m => Sys2Proof.Machine.execModeLeaseExpiry m s
  | .modeTargetReevaluation => Sys2Proof.Machine.execModeTargetReevaluation s
  | .idleParkDelayExpiry => Sys2Proof.Machine.execIdleParkDelayExpiry s
  | .wakeHoldExpiry => Sys2Proof.Machine.execWakeHoldExpiry s
  | .parkEntryAdvance => Sys2Proof.Machine.execParkEntryAdvance s
  | .heartbeatLoss => Sys2Proof.Machine.execHeartbeatLoss s
  | .stratusLinkHoldExpiry => Sys2Proof.Machine.execStratusLinkHoldExpiry s
  | .stratusLinkRampEnd => Sys2Proof.Machine.execStratusLinkRampEnd s
  | .nfailoverPulseEnd => Sys2Proof.Machine.execNfailoverPulseEnd s
  | .portLatchWrite w again src => Sys2Proof.Machine.execPortLatchWrite w again src s
  | .commit => Sys2Proof.Machine.execCommit s
  | .heartbeat => Sys2Proof.Machine.execHeartbeat s
  | .switchingCycleBoundary g x => Sys2Proof.Machine.execSwitchingCycleBoundary g x s
  | .shedDecision g => Sys2Proof.Machine.execShedDecision g s
  | .shedBlockEnd g => Sys2Proof.Machine.execShedBlockEnd g s
  | .balancingUpdate g avg => Sys2Proof.Machine.execBalancingUpdate g avg s
  | .foldback g => Sys2Proof.Machine.execFoldback g s
  | .foldStop g => Sys2Proof.Machine.execFoldStop g s
  | .foldRestart g => Sys2Proof.Machine.execFoldRestart g s
  | .softStartEnd g => Sys2Proof.Machine.execSoftStartEnd g s
  | .passThroughEntry => Sys2Proof.Machine.execPassThroughEntry s
  | .phaseCycleStart p => Sys2Proof.Machine.execPhaseCycleStart p s
  | .currentTermination p isns t => Sys2Proof.Machine.execCurrentTermination p isns t s
  | .maxOnTimeEnd p => Sys2Proof.Machine.execMaxOnTimeEnd p s
  | .feedforwardUpdate g iff => Sys2Proof.Machine.execFeedforwardUpdate g iff s
  | .phasePeak p => Sys2Proof.Machine.execPhasePeak p s
  | .stageFault p => Sys2Proof.Machine.execStageFault p s
  | .railOv => Sys2Proof.Machine.execRailOv s
  | .railOvPersist => Sys2Proof.Machine.execRailOvPersist s
  | .railOvRelease held vbus vrail => Sys2Proof.Machine.execRailOvRelease held vbus vrail s
  | .servoUnlock g => Sys2Proof.Machine.execServoUnlock g s
  | .servoRelock g => Sys2Proof.Machine.execServoRelock g s
  | .coreStall => Sys2Proof.Machine.execCoreStall s
  | .coreSpeedUpdate count => Sys2Proof.Machine.execCoreSpeedUpdate count s
  | .isnsZeroMeasurement p mv => Sys2Proof.Machine.execIsnsZeroMeasurement p mv s
  | .balAtClamp p => Sys2Proof.Machine.execBalAtClamp p s
  | .headroom g => Sys2Proof.Machine.execHeadroom g s
  | .groupApply m v => Sys2Proof.Machine.execGroupApply m v s
  | .syncLocked g => Sys2Proof.Machine.execSyncLocked g s
  | .syncRange g => Sys2Proof.Machine.execSyncRange g s
  | .syncLost g => Sys2Proof.Machine.execSyncLost g s
  | .freqPlanCheck => Sys2Proof.Machine.execFreqPlanCheck s
  | .vbusDrop vbus => Sys2Proof.Machine.execVbusDrop vbus s
  | .loadDump vbus => Sys2Proof.Machine.execLoadDump vbus s
  | .sourceReconnect held vbus vrail => Sys2Proof.Machine.execSourceReconnect held vbus vrail s
  | .overRail vbus => Sys2Proof.Machine.execOverRail vbus s
  | .overRailReconnect vbus vrail => Sys2Proof.Machine.execOverRailReconnect vbus vrail s
  | .reverseCurrent p dropFirst vbus => Sys2Proof.Machine.execReverseCurrent p dropFirst vbus s
  | .vbusDetach => Sys2Proof.Machine.execVbusDetach s
  | .prechargeComplete => Sys2Proof.Machine.execPrechargeComplete s
  | .discOpen => Sys2Proof.Machine.execDiscOpen s
  | .discShort p => Sys2Proof.Machine.execDiscShort p s
  | .srcClassify m v => Sys2Proof.Machine.execSrcClassify m v s
  | .classificationWindowTest voc vrail => Sys2Proof.Machine.execClassificationWindowTest voc vrail s
  | .classificationStepStart v1 i1 => Sys2Proof.Machine.execClassificationStepStart v1 i1 s
  | .classificationStepEnd cut => Sys2Proof.Machine.execClassificationStepEnd cut s
  | .classificationResult i2 v2f v2s ripplePp periods vbus ibus vrail => Sys2Proof.Machine.execClassificationResult i2 v2f v2s ripplePp periods vbus ibus vrail s
  | .reclassification => Sys2Proof.Machine.execReclassification s
  | .iinLimitUpdate vbus ibus ripplePp periods => Sys2Proof.Machine.execIinLimitUpdate vbus ibus ripplePp periods s
  | .harnessHigh => Sys2Proof.Machine.execHarnessHigh s
  | .frameStart edges period => Sys2Proof.Machine.execFrameStart edges period s
  | .frameTimer edges => Sys2Proof.Machine.execFrameTimer edges s
  | .feedLost => Sys2Proof.Machine.execFeedLost s
  | .envDoutRelease => Sys2Proof.Machine.execEnvDoutRelease s
  | .demandHeader w => Sys2Proof.Machine.execDemandHeader w s
  | .demandSlot p w => Sys2Proof.Machine.execDemandSlot p w s
  | .grantComputation => Sys2Proof.Machine.execGrantComputation s
  | .grantLate => Sys2Proof.Machine.execGrantLate s
  | .envCfgWrite m v => Sys2Proof.Machine.execEnvCfgWrite m v s
  | .commonTrigger period obs => Sys2Proof.Machine.execCommonTrigger period obs s
  | .slotComplete ch raw isns ovr unr dt => Sys2Proof.Machine.execSlotComplete ch raw isns ovr unr dt s
  | .scanComplete mc time => Sys2Proof.Machine.execScanComplete mc time s
  | .scanStall mc elapsed => Sys2Proof.Machine.execScanStall mc elapsed s
  | .packPresent vpack absentMs => Sys2Proof.Machine.execPackPresent vpack absentMs s
  | .packAbsent vpack => Sys2Proof.Machine.execPackAbsent vpack s
  | .packLost vpack => Sys2Proof.Machine.execPackLost vpack s
  | .openTapTest taps => Sys2Proof.Machine.execOpenTapTest taps s
  | .cvTermination => Sys2Proof.Machine.execCvTermination s
  | .topoffEnd => Sys2Proof.Machine.execTopoffEnd s
  | .safetyTimerTick iavg => Sys2Proof.Machine.execSafetyTimerTick iavg s
  | .timerExpired => Sys2Proof.Machine.execTimerExpired s
  | .precondTimeout => Sys2Proof.Machine.execPrecondTimeout s
  | .cellImbalance => Sys2Proof.Machine.execCellImbalance s
  | .ocvCorrection => Sys2Proof.Machine.execOcvCorrection s
  | .packCellsWrite m v => Sys2Proof.Machine.execPackCellsWrite m v s
  | .chgEnableWrite m v => Sys2Proof.Machine.execChgEnableWrite m v s
  | .chgServiceWrite m v => Sys2Proof.Machine.execChgServiceWrite m v s
  | .chgFaultsRead m => Sys2Proof.Machine.execChgFaultsRead m s
  | .portMated p => Sys2Proof.Machine.execPortMated p s
  | .portOpen p => Sys2Proof.Machine.execPortOpen p s
  | .linkSideDischarge p => Sys2Proof.Machine.execLinkSideDischarge p s
  | .peerSilent p => Sys2Proof.Machine.execPeerSilent p s
  | .connectorBurst p defer => Sys2Proof.Machine.execConnectorBurst p defer s
  | .connectorBurstDone p b g => Sys2Proof.Machine.execConnectorBurstDone p b g s
  | .offer p src pay => Sys2Proof.Machine.execOffer p src pay s
  | .request p src pay vlink => Sys2Proof.Machine.execRequest p src pay vlink s
  | .accept p src pay => Sys2Proof.Machine.execAccept p src pay s
  | .reject p src pay => Sys2Proof.Machine.execReject p src pay s
  | .ready p src pay => Sys2Proof.Machine.execReady p src pay s
  | .swapReq p src pay => Sys2Proof.Machine.execSwapReq p src pay s
  | .swapAck p src pay => Sys2Proof.Machine.execSwapAck p src pay s
  | .hardReset p src pay => Sys2Proof.Machine.execHardReset p src pay s
  | .detach p src pay => Sys2Proof.Machine.execDetach p src pay s
  | .sendReady p vlink => Sys2Proof.Machine.execSendReady p vlink s
  | .noResponse p => Sys2Proof.Machine.execNoResponse p s
  | .transitionTimeout p => Sys2Proof.Machine.execTransitionTimeout p s
  | .contractVoltage p vlink => Sys2Proof.Machine.execContractVoltage p vlink s
  | .dataLost p => Sys2Proof.Machine.execDataLost p s
  | .swapDwellEnd p => Sys2Proof.Machine.execSwapDwellEnd p s
  | .linkDischargeDone p => Sys2Proof.Machine.execLinkDischargeDone p s
  | .dischargeFail p vlink => Sys2Proof.Machine.execDischargeFail p vlink s
  | .rampDownComplete p => Sys2Proof.Machine.execRampDownComplete p s
  | .reoffer p => Sys2Proof.Machine.execReoffer p s
  | .linkCtrlDetach m p => Sys2Proof.Machine.execLinkCtrlDetach m p s
  | .linkCtrlSwapReq m p => Sys2Proof.Machine.execLinkCtrlSwapReq m p s
  | .linkCtrlHardReset m p => Sys2Proof.Machine.execLinkCtrlHardReset m p s
  | .linkCtrlApplyPolicy m p => Sys2Proof.Machine.execLinkCtrlApplyPolicy m p s
  | .receiverLock p => Sys2Proof.Machine.execReceiverLock p s
  | .receiverLockLost p => Sys2Proof.Machine.execReceiverLockLost p s
  | .helloSend p t => Sys2Proof.Machine.execHelloSend p t s
  | .hello p b t => Sys2Proof.Machine.execHello p b t s
  | .helloTimeout p => Sys2Proof.Machine.execHelloTimeout p s
  | .topo p src seq hops b => Sys2Proof.Machine.execTopo p src seq hops b s
  | .topoSend => Sys2Proof.Machine.execTopoSend s
  | .topoRecordExpiry uid => Sys2Proof.Machine.execTopoRecordExpiry uid s
  | .fabricSettled => Sys2Proof.Machine.execFabricSettled s
  | .assign p src seq hops b => Sys2Proof.Machine.execAssign p src seq hops b s
  | .assignRepeat => Sys2Proof.Machine.execAssignRepeat s
  | .frameForward p b code => Sys2Proof.Machine.execFrameForward p b code s
  | .readReq p src obj b => Sys2Proof.Machine.execReadReq p src obj b s
  | .writeReq p src seq hops obj bcast b => Sys2Proof.Machine.execWriteReq p src seq hops obj bcast b s
  | .fabricResponse p src type b => Sys2Proof.Machine.execFabricResponse p src type b s
  | .fabricRequestTimeout txn => Sys2Proof.Machine.execFabricRequestTimeout txn s
  | .notifySend => Sys2Proof.Machine.execNotifySend s
  | .bootReq p src b => Sys2Proof.Machine.execBootReq p src b s
  | .bootData p src b => Sys2Proof.Machine.execBootData p src b s
  | .fabricBootFail => Sys2Proof.Machine.execFabricBootFail s
  | .markerEmit ofsE ofsW => Sys2Proof.Machine.execMarkerEmit ofsE ofsW s
  | .marker p count ofs t out => Sys2Proof.Machine.execMarker p count ofs t out s
  | .timebaseLost => Sys2Proof.Machine.execTimebaseLost s
  | .nodeIdSetWrite m v => Sys2Proof.Machine.execNodeIdSetWrite m v s
  | .selfcalCmd m v => Sys2Proof.Machine.execSelfcalCmd m v s
  | .selfcalComplete factors => Sys2Proof.Machine.execSelfcalComplete factors s
  | .calRefreshRound => Sys2Proof.Machine.execCalRefreshRound s
  | .calStale => Sys2Proof.Machine.execCalStale s
  | .recTrigger m v => Sys2Proof.Machine.execRecTrigger m v s
  | .captureWindowEnd => Sys2Proof.Machine.execCaptureWindowEnd s
  | .captureClosed ok => Sys2Proof.Machine.execCaptureClosed ok s
  | .recKeepWrite m v => Sys2Proof.Machine.execRecKeepWrite m v s
  | .thermalShutdown site => Sys2Proof.Machine.execThermalShutdown site s
  | .thermalShutdownRelease => Sys2Proof.Machine.execThermalShutdownRelease s
  | .hzRoundClose => Sys2Proof.Machine.execHzRoundClose s
  | .hzProbeStart => Sys2Proof.Machine.execHzProbeStart s
  | .hzProbeComplete steps ripple => Sys2Proof.Machine.execHzProbeComplete steps ripple s
  | .hzEpochTimer => Sys2Proof.Machine.execHzEpochTimer s
  | .hzEpochCmd m v => Sys2Proof.Machine.execHzEpochCmd m v s
  | .epochComplete => Sys2Proof.Machine.execEpochComplete s
  | .hzTermRamp => Sys2Proof.Machine.execHzTermRamp s
  | .freqCeilingStep => Sys2Proof.Machine.execFreqCeilingStep s
  | .hzRebase m v => Sys2Proof.Machine.execHzRebase m v s
  | .hourRecord => Sys2Proof.Machine.execHourRecord s
  | .faultRaise => Sys2Proof.Machine.execFaultRaise s
  | .faultClear => Sys2Proof.Machine.execFaultClear s
  | .faultLost src => Sys2Proof.Machine.execFaultLost src s
  | .recordHandling => Sys2Proof.Machine.execRecordHandling s
  | .blockResetComplete => Sys2Proof.Machine.execBlockResetComplete s
  | .faultAck m v => Sys2Proof.Machine.execFaultAck m v s
  | .faultRecordRead m slot => Sys2Proof.Machine.execFaultRecordRead m slot s
  | .faultInject m v => Sys2Proof.Machine.execFaultInject m v s
  | .collectorSelfLoop ok => Sys2Proof.Machine.execCollectorSelfLoop ok s
  | .haloToggle => Sys2Proof.Machine.execHaloToggle s
  | .wdPeriodStart => Sys2Proof.Machine.execWdPeriodStart s
  | .wdHardwareCheckin k => Sys2Proof.Machine.execWdHardwareCheckin k s
  | .wdCheckin m w t => Sys2Proof.Machine.execWdCheckin m w t s
  | .wdWindowClose k => Sys2Proof.Machine.execWdWindowClose k s
  | .wdConfigWrite m k v => Sys2Proof.Machine.execWdConfigWrite m k v s
  | .objectWrite m k d => Sys2Proof.Machine.execObjectWrite m k d s
  | .domainWriteSegment m k ofs last d => Sys2Proof.Machine.execDomainWriteSegment m k ofs last d s
  | .domainReadSegment m k ofs len => Sys2Proof.Machine.execDomainReadSegment m k ofs len s
  | .domainSnapshotExpiry m k => Sys2Proof.Machine.execDomainSnapshotExpiry m k s
  | .wholeObjectRead m index => Sys2Proof.Machine.execWholeObjectRead m index s
  | .odLockWrite m sub v => Sys2Proof.Machine.execOdLockWrite m sub v s
  | .odLockLeaseExpiry sub => Sys2Proof.Machine.execOdLockLeaseExpiry sub s
  | .odCommit m v => Sys2Proof.Machine.execOdCommit m v s
  | .journalCommit => Sys2Proof.Machine.execJournalCommit s
  | .journalCommitDone ok sector => Sys2Proof.Machine.execJournalCommitDone ok sector s
  | .odRestore m v => Sys2Proof.Machine.execOdRestore m v s
  | .canRead tester fd b => Sys2Proof.Machine.execCanRead tester fd b s
  | .canWrite tester fd b => Sys2Proof.Machine.execCanWrite tester fd b s
  | .readBlock tester fd b => Sys2Proof.Machine.execReadBlock tester fd b s
  | .writeBlock tester fd b => Sys2Proof.Machine.execWriteBlock tester fd b s
  | .seed tester fd b => Sys2Proof.Machine.execSeed tester fd b s
  | .key tester fd b => Sys2Proof.Machine.execKey tester fd b s
  | .segmentGapTimeout m k => Sys2Proof.Machine.execSegmentGapTimeout m k s
  | .canNotify period => Sys2Proof.Machine.execCanNotify period s
  | .txTimeout cb => Sys2Proof.Machine.execTxTimeout cb s
  | .canApply m v => Sys2Proof.Machine.execCanApply m v s
  | .busOff cb => Sys2Proof.Machine.execBusOff cb s
  | .errorPassive cb tec rec => Sys2Proof.Machine.execErrorPassive cb tec rec s
  | .rxOverrun cb lost => Sys2Proof.Machine.execRxOverrun cb lost s
  | .testerSessionTimeout => Sys2Proof.Machine.execTesterSessionTimeout s
  | .linCommand b good sync => Sys2Proof.Machine.execLinCommand b good sync s
  | .linStatus sync err => Sys2Proof.Machine.execLinStatus sync err s
  | .objReq b good sync => Sys2Proof.Machine.execObjReq b good sync s
  | .objRsp sync err => Sys2Proof.Machine.execObjRsp sync err s
  | .assignNad b good sync => Sys2Proof.Machine.execAssignNad b good sync s
  | .readByIdentifier b good sync => Sys2Proof.Machine.execReadByIdentifier b good sync s
  | .saveConfiguration b good sync => Sys2Proof.Machine.execSaveConfiguration b good sync s
  | .assignFrameIdentifierRange b good sync => Sys2Proof.Machine.execAssignFrameIdentifierRange b good sync s
  | .goToSleep good sync => Sys2Proof.Machine.execGoToSleep good sync s
  | .linBusInactivity => Sys2Proof.Machine.execLinBusInactivity s
  | .linWake width => Sys2Proof.Machine.execLinWake width s
  | .linWakeTx => Sys2Proof.Machine.execLinWakeTx s
  | .linBusShort => Sys2Proof.Machine.execLinBusShort s
  | .firstFrame func fd len esc d => Sys2Proof.Machine.execFirstFrame func fd len esc d s
  | .consecutiveFrame sn d => Sys2Proof.Machine.execConsecutiveFrame sn d s
  | .flowControl fs bs st => Sys2Proof.Machine.execFlowControl fs bs st s
  | .nBsTimeout => Sys2Proof.Machine.execNBsTimeout s
  | .nCrTimeout => Sys2Proof.Machine.execNCrTimeout s
  | .diagnosticSessionControl func fd m => Sys2Proof.Machine.execDiagnosticSessionControl func fd m s
  | .ecuResetHard func fd m => Sys2Proof.Machine.execEcuResetHard func fd m s
  | .ecuResetSoft func fd m => Sys2Proof.Machine.execEcuResetSoft func fd m s
  | .clearDiagnosticInformation func fd m => Sys2Proof.Machine.execClearDiagnosticInformation func fd m s
  | .reportNumberOfDtc func fd m => Sys2Proof.Machine.execReportNumberOfDtc func fd m s
  | .reportDtcByStatus func fd m => Sys2Proof.Machine.execReportDtcByStatus func fd m s
  | .reportDtcSnapshot func fd m => Sys2Proof.Machine.execReportDtcSnapshot func fd m s
  | .reportDtcExtendedData func fd m => Sys2Proof.Machine.execReportDtcExtendedData func fd m s
  | .reportSupportedDtc func fd m => Sys2Proof.Machine.execReportSupportedDtc func fd m s
  | .readDataByIdentifier func fd m => Sys2Proof.Machine.execReadDataByIdentifier func fd m s
  | .writeDataByIdentifier func fd m => Sys2Proof.Machine.execWriteDataByIdentifier func fd m s
  | .securityAccessSeed func fd m => Sys2Proof.Machine.execSecurityAccessSeed func fd m s
  | .securityAccessKey func fd m => Sys2Proof.Machine.execSecurityAccessKey func fd m s
  | .securityDelayEnd => Sys2Proof.Machine.execSecurityDelayEnd s
  | .routineSelfCalibration func fd m => Sys2Proof.Machine.execRoutineSelfCalibration func fd m s
  | .routineHorizonEpoch func fd m => Sys2Proof.Machine.execRoutineHorizonEpoch func fd m s
  | .routineMoistureTest func fd m => Sys2Proof.Machine.execRoutineMoistureTest func fd m s
  | .routineTableSwitch func fd m => Sys2Proof.Machine.execRoutineTableSwitch func fd m s
  | .requestRoutineResults func fd m => Sys2Proof.Machine.execRequestRoutineResults func fd m s
  | .requestDownload func fd m => Sys2Proof.Machine.execRequestDownload func fd m s
  | .transferData func fd m => Sys2Proof.Machine.execTransferData func fd m s
  | .requestTransferExit func fd m => Sys2Proof.Machine.execRequestTransferExit func fd m s
  | .testerPresent func fd m => Sys2Proof.Machine.execTesterPresent func fd m s
  | .controlDtcSettingOn func fd m => Sys2Proof.Machine.execControlDtcSettingOn func fd m s
  | .controlDtcSettingOff func fd m => Sys2Proof.Machine.execControlDtcSettingOff func fd m s
  | .responsePending => Sys2Proof.Machine.execResponsePending s
  | .s3ServerTimeout => Sys2Proof.Machine.execS3ServerTimeout s
  | .dtcClear m v => Sys2Proof.Machine.execDtcClear m v s
  | .tableSwitch m v => Sys2Proof.Machine.execTableSwitch m v s
  | .safePoint k => Sys2Proof.Machine.execSafePoint k s
  | .switchDeferred k => Sys2Proof.Machine.execSwitchDeferred k s
  | .tableLoad m d => Sys2Proof.Machine.execTableLoad m d s
  | .sequencerEvaluation n bad => Sys2Proof.Machine.execSequencerEvaluation n bad s
  | .trapRelease m v => Sys2Proof.Machine.execTrapRelease m v s
  | .sramScrub corrected bad => Sys2Proof.Machine.execSramScrub corrected bad s
  | .flashScrub pages => Sys2Proof.Machine.execFlashScrub pages s
  | .otpReverify diff => Sys2Proof.Machine.execOtpReverify diff s
  | .otpProg m d => Sys2Proof.Machine.execOtpProg m d s
  | .otpLock m v => Sys2Proof.Machine.execOtpLock m v s
  | .clockReferenceLost held => Sys2Proof.Machine.execClockReferenceLost held s
  | .recoveredClkLost => Sys2Proof.Machine.execRecoveredClkLost s
  | .pllUnlock => Sys2Proof.Machine.execPllUnlock s
  | .coreBuckFault => Sys2Proof.Machine.execCoreBuckFault s
  | .vcoreRange mv => Sys2Proof.Machine.execVcoreRange mv s
  | .vdd33Range mv => Sys2Proof.Machine.execVdd33Range mv s
  | .overcastShutdownAdvance => Sys2Proof.Machine.execOvercastShutdownAdvance s
  | .farPilotPresent p => Sys2Proof.Machine.execFarPilotPresent p s
  | .linBreak sync => Sys2Proof.Machine.execLinBreak sync s
  | .slaveResponse sync err => Sys2Proof.Machine.execSlaveResponse sync err s
  | .linBusRecessive => Sys2Proof.Machine.execLinBusRecessive s
  | .busOffRecovery cb => Sys2Proof.Machine.execBusOffRecovery cb s
  | .pllLockHeld => Sys2Proof.Machine.execPllLockHeld s
  | .referenceGood => Sys2Proof.Machine.execReferenceGood s
  | .vcoreWithinRange => Sys2Proof.Machine.execVcoreWithinRange s
  | .vdd33WithinRange => Sys2Proof.Machine.execVdd33WithinRange s
  | .coreBuckRestart => Sys2Proof.Machine.execCoreBuckRestart s
  | .coreBuckNormal => Sys2Proof.Machine.execCoreBuckNormal s
  | .tapReset => Sys2Proof.Machine.execTapReset s
  | .boundaryScanInstruction => Sys2Proof.Machine.execBoundaryScanInstruction s
  | .flashWriteComplete ok region sector => Sys2Proof.Machine.execFlashWriteComplete ok region sector s
  | .otpProgrammingComplete ok => Sys2Proof.Machine.execOtpProgrammingComplete ok s

end Sys2Proof.Machine
end

