-- ==== Sys2Proof/Machine/Idle.lean ====
section
/-!
DEFINITION. Idle.lean: what one 5 ns tick of an idle block does: clocks, operating time, frames that leave, an ECUReset's drive.
-/
namespace Sys2Proof.Machine

/-- The block's time, and REC_TIME while the main clock runs (R427). -/
def State.clockTick (s : State) : State :=
  { s with now := s.now + 1, recTime := if s.aon.por || s.aon.clockStopped then s.recTime else s.recTime + 1 }

/-- The ticks of a slot in which a phase is not at Z, the time with the shell running, and a pass of the planner (R397, R568, R722).
DESIGN CHOICE, entry 6: a pass takes one tick with the shell present. -/
def State.countTick (s : State) : State :=
  { s with
    meas := { s.meas with live := (List.range 16).map (fun p =>
      s.meas.live.getD p 0 + b2n (decide (s.meas.from_.getD (convOf p) 0 < s.now) && s.conducts p)) }
    thm := { s.thm with up := s.thm.up + b2n s.shellUp }
    wd := { s.wd with planner := s.wd.planner || s.shellUp } }

/-- The mirror of PACK_SOC follows each change while the shell runs, at most once per second (R613). -/
def State.socTick (s : State) : State :=
  if s.shellUp && s.obj Obj.PACK_SOC != s.aon.soc && s.aon.socAt + sec 1 ≤ s.now then s.socMirror else s

/-- HZ_OP_TIME counts the seconds spent in Idle, Play, Ride-through and Service (R469). -/
def State.opTick (s : State) : State :=
  if s.inMode [2, 3, 4, 5] then
    if s.hz.ticks + 1 < sec 1 then { s with hz := { s.hz with ticks := s.hz.ticks + 1 } }
    else
      let n := satInc 0xFFFFFFFF (s.obj Obj.HZ_OP_TIME)
      { (s.put Obj.HZ_OP_TIME n) with hz := { s.hz with ticks := 0 } }
  else s

/-- The PWM outputs run on through their dead times (R89, R91). -/
def State.pwmTick (s : State) : State := (List.range 16).foldl (fun s p => s.phaseTick p) s

/-- Ticks of a frame on the line: SOF, header, payload, CRC and EOF in 8b/10b symbols (R352, R357). -/
def Frame.ticks (f : Frame) : Nat := (15 + f.data.length) * 16

/-- The frame that leaves next: the highest priority, the oldest of it (R360). -/
def FabPort.next (x : FabPort) : Option (Nat × Frame) :=
  match x.queue.find? fun e => e.1 == 1 with
  | some e => some e
  | none => match x.queue.find? fun e => e.1 == 2 with
    | some e => some e
    | none => x.queue.head?

/-- A frame has left a port's queue (R568). -/
def State.queueServed (s : State) (p : Port) : State :=
  ({ s with wd := { s.wd with unserved := setBit s.wd.unserved p.num false } } : State).fabTally 2

/-- A port's line runs on; a frame starts once the line is free. -/
def State.portTick (s : State) (p : Port) : State :=
  let x := s.fab.ports.get p
  if x.busy != 0 then s.modFab p fun x => { x with busy := x.busy - 1 }
  else if !s.portLocked p then s
  else match x.next with
    | none => s
    | some e =>
      (s.modFab p fun x => { x with queue := x.queue.erase e, busy := e.2.ticks, sent := some e.2 }).queueServed p

/-- ECUReset drives nRST once its response has left (R544). -/
def State.ecuReset (s : State) : State :=
  if s.uds.reset != 0 && s.can.b.queue.isEmpty && s.uds.tx.isNone then
    { s with
      uds := { s.uds with reset := 0 }
      aon := { s.aon with nrstDrive := true, cause := setBit s.aon.cause (if s.uds.reset = 1 then 5 else 6) true } }
  else s

/-- The CAN controllers: integration ends, a frame leaves each queue, waiting frames move up. -/
def State.canTick (s : State) : State :=
  let s := (s.canIntegrated .a).canIntegrated .b
  let s := ((s.canDrain .a).canDrain .b).canLater
  s.udsPump

/-- One tick with no command waiting. -/
def State.idle (s : State) : State :=
  (((s.clockTick.countTick.opTick.socTick.pwmTick).portTick .east).portTick .west).canTick.ecuReset

end Sys2Proof.Machine
end

