-- ==== Sys2Proof/Machine/Pins.lean ====
section
/-!
DEFINITION. Pins.lean: what the device's pins show of the state (R738, R739, R621, R313).
-/
namespace Sys2Proof.Machine

/-- What a SENSE pin carries: nothing, with the internal 10.0 kΩ to AGND; or the pilot at a frequency in kHz, with the 1 kHz
excitation of a burst beside it while one runs. -/
inductive SensePin where
  | off
  | pilot (khz : Nat) (burst : Bool)
  deriving DecidableEq, Repr

/-- The output pins of R738. -/
structure Pins where
  pwm : List Level
  /-- DISC_GATE on, and the switches BAL1 to BAL16 on, bit 0 first. -/
  disc : Bool
  bal : Nat
  /-- ENV_DOUT: the 16 slots driven; none while high-impedance. -/
  dout : Option (List Nat)
  /-- CANA_TX and CANB_TX may be dominant; LIN listens. -/
  canA : Bool
  canB : Bool
  lin : Bool
  halo : Bool
  nirqLow : Bool
  nfailoverLow : Bool
  nrstLow : Bool
  /-- The flash interface is driven; otherwise CS high, CLK low, data high-impedance. -/
  xspi : Bool
  hxE : Bool
  hxW : Bool
  senseE : SensePin
  senseW : SensePin
  deriving DecidableEq, Repr

/-- The flash interface is driven: it runs on at a core reset, and at every other level from step 5 of bring-up (R738). -/
def State.xspiOn (s : State) : Bool :=
  !s.aon.por && if s.bringing then s.aon.resetLevel == 1 || s.coreLevel || decide (6 ≤ s.obj Obj.BRINGUP_STEP) else !s.inMode [0, 1]

/-- nIRQ is low: released until the handover; in Overcast as the object server leaves it (R515, R738). -/
def State.nirq (s : State) : Bool := s.col.irq && s.serving && (s.modeNow == 7 || !s.strat.absent)

/-- The SENSE pin of a port: the pilot in every state but OFF (R307), and a burst beside it while one runs (R313). -/
def State.sensePin (s : State) (p : Port) : SensePin :=
  match s.pilot p with
  | none => .off
  | some khz => if s.aon.por then .off else .pilot khz ((s.lp p).burst != 0 && s.shellUp)

/-- The pins as the state stands. The device holds nRST low from the assertion of power-on reset to the end of step 1, and for its own
resets (R544, R739). -/
def State.pins (s : State) : Pins :=
  { pwm := (List.range 16).map s.pwm, disc := s.core.disc, bal := s.obj Obj.BAL_STATE
    dout := if s.env.hiZ then none else some s.env.dout
    canA := s.canOn .a, canB := s.canOn .b, lin := s.linOn, halo := s.col.haloLevel && (s.shellUp || (s.aon.clockStopped && s.aon.resetLevel == 0)),
    nirqLow := s.nirq
    nfailoverLow := s.wd.pulse != 0, nrstLow := s.aon.por || s.aon.nrstDrive, xspi := s.xspiOn
    hxE := s.obj (Obj.PORT_STATE 1) != 0, hxW := s.obj (Obj.PORT_STATE 2) != 0
    senseE := s.sensePin .east, senseW := s.sensePin .west }

end Sys2Proof.Machine
end

