-- ==== Sys2Proof/WellFormed.lean ====
section
/-!
DEFINITION. WellFormed.lean: what a command's operands may be: a master that accesses objects, a value of at most 32 bits, a key, a frame
whose length and service are those of its row. Operands of a bounded type need no check.
-/
namespace Sys2Proof

namespace WellFormed

/-- A master that sends accesses from outside (R591). The sequencers' internal writer Q acts within SEQUENCER_EVALUATION. -/
def client (m : Master) : Bool := m != .Q

/-- A value of at most 32 bits. -/
def word (v : Nat) : Bool := v < 2 ^ 32

/-- An INDEX of 12 bits with its SUB (R578). -/
def objKey (k : Nat) : Bool := k < 4096 * 256

/-- The byte of a frame at a place, 0 beyond its end. -/
def octet (b : List Byte) (n : Nat) : Nat := (b.getD n 0#8).toNat

/-- The header fields of a fabric frame and its payload of at most 256 bytes (R357). -/
def frameOk (src seq hops : Nat) (b : List Byte) : Bool := src < 256 && seq < 256 && hops < 256 && b.length ≤ 256

/-- The payload of a link message of one code (R325). -/
def linkMessage (code src : Nat) (pay : List Byte) : Bool := src < 256 && pay.length == 12 && octet pay 0 == code

/-- A frame of a length that CAN, or CAN FD, can carry, whose opcode is the row's, or is none of R626. -/
def canFrame (fd : Bool) (op : Nat) (b : List Byte) : Bool :=
  (1 ≤ b.length && b.length ≤ 8 || fd && [12, 16, 20, 24, 32, 48, 64].contains b.length) &&
    (octet b 0 == op || !([1, 2, 3, 4, 0x0A, 0x0B].contains (octet b 0)))

/-- A node-configuration frame of one service (R640). -/
def linService (sid : Nat) (b : List Byte) : Bool := b.length == 8 && octet b 2 == sid

/-- A request in a single frame of one service, with one of the sub-functions where the service has them (R656). -/
def udsRequest (fd : Bool) (sid : Nat) (subs : List Nat) (m : List Byte) : Bool :=
  1 ≤ m.length && m.length ≤ (if fd then 62 else 7) && octet m 0 == sid && (subs.isEmpty || subs.contains (octet m 1 % 128))

end WellFormed

open WellFormed

/-- What the operands of a command may be. -/
def Instr.wellFormed : Instr → Bool
  | .powerOnReset => true
  | .railPor => true
  | .powerOnResetRelease .. => true
  | .vauxWarning .. => true
  | .vauxWarningClear => true
  | .nrstCoreReset .. => true
  | .nrstEscalation => true
  | .resetRelease .. => true
  | .nrstDriveEnd => true
  | .bringupStepComplete pins _ _ _ => pins < 4096
  | .coreHandover .. => true
  | .wakePin => true
  | .vbusAttach => true
  | .parkCheck .. => true
  | .modeReqWrite m v others => client m && word v && others.all fun x => client x.1 && word x.2
  | .modeLeaseExpiry m => m == .H || m == .F
  | .modeTargetReevaluation => true
  | .idleParkDelayExpiry => true
  | .wakeHoldExpiry => true
  | .parkEntryAdvance => true
  | .heartbeatLoss => true
  | .stratusLinkHoldExpiry => true
  | .stratusLinkRampEnd => true
  | .nfailoverPulseEnd => true
  | .portLatchWrite w again src => word w && word again && src.elim true fun x => client x.1 && objKey x.2
  | .commit => true
  | .heartbeat => true
  | .switchingCycleBoundary .. => true
  | .shedDecision .. => true
  | .shedBlockEnd .. => true
  | .balancingUpdate .. => true
  | .foldback .. => true
  | .foldStop .. => true
  | .foldRestart .. => true
  | .softStartEnd .. => true
  | .passThroughEntry => true
  | .phaseCycleStart .. => true
  | .currentTermination .. => true
  | .maxOnTimeEnd .. => true
  | .feedforwardUpdate .. => true
  | .phasePeak .. => true
  | .stageFault .. => true
  | .railOv => true
  | .railOvPersist => true
  | .railOvRelease .. => true
  | .servoUnlock .. => true
  | .servoRelock .. => true
  | .coreStall => true
  | .coreSpeedUpdate .. => true
  | .isnsZeroMeasurement .. => true
  | .balAtClamp .. => true
  | .headroom .. => true
  | .groupApply m v => client m && word v
  | .syncLocked .. => true
  | .syncRange .. => true
  | .syncLost .. => true
  | .freqPlanCheck => true
  | .vbusDrop .. => true
  | .loadDump .. => true
  | .sourceReconnect .. => true
  | .overRail .. => true
  | .overRailReconnect .. => true
  | .reverseCurrent .. => true
  | .vbusDetach => true
  | .prechargeComplete => true
  | .discOpen => true
  | .discShort .. => true
  | .srcClassify m v => client m && word v
  | .classificationWindowTest .. => true
  | .classificationStepStart .. => true
  | .classificationStepEnd .. => true
  | .classificationResult .. => true
  | .reclassification => true
  | .iinLimitUpdate .. => true
  | .harnessHigh => true
  | .frameStart .. => true
  | .frameTimer .. => true
  | .feedLost => true
  | .envDoutRelease => true
  | .demandHeader .. => true
  | .demandSlot .. => true
  | .grantComputation => true
  | .grantLate => true
  | .envCfgWrite m v => client m && word v
  | .commonTrigger .. => true
  | .slotComplete ch _ isns _ _ _ => isns.length ≤ 6 && (!([16, 33].contains ch.val) || 4 ≤ isns.length) && (!([37, 39].contains ch.val) || 2 ≤ isns.length)
  | .scanComplete .. => true
  | .scanStall .. => true
  | .packPresent .. => true
  | .packAbsent .. => true
  | .packLost .. => true
  | .openTapTest taps => taps.length ≤ 16
  | .cvTermination => true
  | .topoffEnd => true
  | .safetyTimerTick .. => true
  | .timerExpired => true
  | .precondTimeout => true
  | .cellImbalance => true
  | .ocvCorrection => true
  | .packCellsWrite m v => client m && word v
  | .chgEnableWrite m v => client m && word v
  | .chgServiceWrite m v => client m && word v
  | .chgFaultsRead m => client m
  | .portMated .. => true
  | .portOpen .. => true
  | .linkSideDischarge .. => true
  | .peerSilent .. => true
  | .connectorBurst .. => true
  | .connectorBurstDone .. => true
  | .offer _ src pay => linkMessage 1 src pay
  | .request _ src pay _ => linkMessage 2 src pay
  | .accept _ src pay => linkMessage 3 src pay
  | .reject _ src pay => linkMessage 4 src pay
  | .ready _ src pay => linkMessage 5 src pay
  | .swapReq _ src pay => linkMessage 6 src pay
  | .swapAck _ src pay => linkMessage 7 src pay
  | .hardReset _ src pay => linkMessage 8 src pay
  | .detach _ src pay => linkMessage 9 src pay
  | .sendReady .. => true
  | .noResponse .. => true
  | .transitionTimeout .. => true
  | .contractVoltage .. => true
  | .dataLost .. => true
  | .swapDwellEnd .. => true
  | .linkDischargeDone .. => true
  | .dischargeFail .. => true
  | .rampDownComplete .. => true
  | .reoffer .. => true
  | .linkCtrlDetach m _ => client m
  | .linkCtrlSwapReq m _ => client m
  | .linkCtrlHardReset m _ => client m
  | .linkCtrlApplyPolicy m _ => client m
  | .receiverLock .. => true
  | .receiverLockLost .. => true
  | .helloSend .. => true
  | .hello _ b _ => b.length ≤ 256
  | .helloTimeout .. => true
  | .topo _ src seq hops b => frameOk src seq hops b
  | .topoSend => true
  | .topoRecordExpiry uid => uid < 2 ^ 64
  | .fabricSettled => true
  | .assign _ src seq hops b => frameOk src seq hops b
  | .assignRepeat => true
  | .frameForward _ b _ => b.length ≤ 300
  | .readReq _ src obj b => obj < 4096 && frameOk src 0 0 b
  | .writeReq _ src seq hops obj _ b => obj < 4096 && frameOk src seq hops b
  | .fabricResponse _ src type b => (type == 0x11 || type == 0x13) && frameOk src 0 0 b
  | .fabricRequestTimeout txn => txn < 256
  | .notifySend => true
  | .bootReq _ src b => frameOk src 0 0 b
  | .bootData _ src b => frameOk src 0 0 b
  | .fabricBootFail => true
  | .markerEmit .. => true
  | .marker .. => true
  | .timebaseLost => true
  | .nodeIdSetWrite m v => client m && word v
  | .selfcalCmd m v => client m && word v
  | .selfcalComplete .. => true
  | .calRefreshRound => true
  | .calStale => true
  | .recTrigger m v => client m && word v
  | .captureWindowEnd => true
  | .captureClosed .. => true
  | .recKeepWrite m v => client m && word v
  | .thermalShutdown .. => true
  | .thermalShutdownRelease => true
  | .hzRoundClose => true
  | .hzProbeStart => true
  | .hzProbeComplete steps _ => steps.length = 8
  | .hzEpochTimer => true
  | .hzEpochCmd m v => client m && word v
  | .epochComplete => true
  | .hzTermRamp => true
  | .freqCeilingStep => true
  | .hzRebase m v => client m && word v
  | .hourRecord => true
  | .faultRaise => true
  | .faultClear => true
  | .faultLost src => src < 32
  | .recordHandling => true
  | .blockResetComplete => true
  | .faultAck m v => client m && word v
  | .faultRecordRead m slot => client m && 1 ≤ slot && slot ≤ 64
  | .faultInject m v => client m && word v
  | .collectorSelfLoop .. => true
  | .haloToggle => true
  | .wdPeriodStart => true
  | .wdHardwareCheckin .. => true
  | .wdCheckin m w _ => client m && w < 2 ^ 16
  | .wdWindowClose .. => true
  | .wdConfigWrite m k v => client m && objKey k && word v
  | .objectWrite m k d => client m && objKey k && d.length ≤ 4
  | .domainWriteSegment m k ofs _ d => client m && objKey k && word ofs && d.length ≤ 4095
  | .domainReadSegment m k ofs _ => client m && objKey k && word ofs
  | .domainSnapshotExpiry m k => client m && objKey k
  | .wholeObjectRead m index => client m && index < 4096
  | .odLockWrite m sub v => client m && sub < 256 && word v
  | .odLockLeaseExpiry sub => sub < 256
  | .odCommit m v => client m && word v
  | .journalCommit => true
  | .journalCommitDone .. => true
  | .odRestore m v => client m && word v
  | .canRead _ fd b => canFrame fd 1 b
  | .canWrite _ fd b => canFrame fd 2 b
  | .readBlock _ fd b => canFrame fd 3 b
  | .writeBlock _ fd b => canFrame fd 4 b
  | .seed _ fd b => canFrame fd 0x0A b
  | .key _ fd b => canFrame fd 0x0B b
  | .segmentGapTimeout m k => client m && objKey k
  | .canNotify .. => true
  | .txTimeout .. => true
  | .canApply m v => client m && word v
  | .busOff .. => true
  | .errorPassive .. => true
  | .rxOverrun .. => true
  | .testerSessionTimeout => true
  | .linCommand b _ _ => b.length == 8
  | .linStatus .. => true
  | .objReq b _ _ => b.length == 8
  | .objRsp .. => true
  | .assignNad b _ _ => linService 0xB0 b
  | .readByIdentifier b _ _ => linService 0xB2 b
  | .saveConfiguration b _ _ => linService 0xB6 b
  | .assignFrameIdentifierRange b _ _ => linService 0xB7 b
  | .goToSleep .. => true
  | .linBusInactivity => true
  | .linWake .. => true
  | .linWakeTx => true
  | .linBusShort => true
  | .firstFrame _ fd len esc d => (if esc then word len else decide (len ≤ 4095)) && d.length ≤ (if fd then 62 else 6)
  | .consecutiveFrame sn d => sn < 16 && 1 ≤ d.length && d.length ≤ 63
  | .flowControl fs bs st => fs < 16 && bs < 256 && st < 256
  | .nBsTimeout => true
  | .nCrTimeout => true
  | .diagnosticSessionControl _ fd m => udsRequest fd 0x10 [] m
  | .ecuResetHard _ fd m => udsRequest fd 0x11 [0x01] m
  | .ecuResetSoft _ fd m => udsRequest fd 0x11 [0x03] m
  | .clearDiagnosticInformation _ fd m => udsRequest fd 0x14 [] m
  | .reportNumberOfDtc _ fd m => udsRequest fd 0x19 [0x01] m
  | .reportDtcByStatus _ fd m => udsRequest fd 0x19 [0x02] m
  | .reportDtcSnapshot _ fd m => udsRequest fd 0x19 [0x04] m
  | .reportDtcExtendedData _ fd m => udsRequest fd 0x19 [0x06] m
  | .reportSupportedDtc _ fd m => udsRequest fd 0x19 [0x0A] m
  | .readDataByIdentifier _ fd m => udsRequest fd 0x22 [] m
  | .writeDataByIdentifier _ fd m => udsRequest fd 0x2E [] m
  | .securityAccessSeed _ fd m => udsRequest fd 0x27 [0x01, 0x11] m
  | .securityAccessKey _ fd m => udsRequest fd 0x27 [0x02, 0x12] m
  | .securityDelayEnd => true
  | .routineSelfCalibration _ fd m => udsRequest fd 0x31 [0x01] m && octet m 2 == 0x02 && octet m 3 == 0x01
  | .routineHorizonEpoch _ fd m => udsRequest fd 0x31 [0x01] m && octet m 2 == 0x02 && octet m 3 == 0x02
  | .routineMoistureTest _ fd m => udsRequest fd 0x31 [0x01] m && octet m 2 == 0x02 && octet m 3 == 0x03
  | .routineTableSwitch _ fd m => udsRequest fd 0x31 [0x01] m && octet m 2 == 0x02 && octet m 3 == 0x04
  | .requestRoutineResults _ fd m => udsRequest fd 0x31 [0x03] m
  | .requestDownload _ fd m => udsRequest fd 0x34 [] m
  | .transferData _ fd m => udsRequest fd 0x36 [] m
  | .requestTransferExit _ fd m => udsRequest fd 0x37 [] m
  | .testerPresent _ fd m => udsRequest fd 0x3E [] m
  | .controlDtcSettingOn _ fd m => udsRequest fd 0x85 [0x01] m
  | .controlDtcSettingOff _ fd m => udsRequest fd 0x85 [0x02] m
  | .responsePending => true
  | .s3ServerTimeout => true
  | .dtcClear m v => client m && word v
  | .tableSwitch m v => client m && word v
  | .safePoint .. => true
  | .switchDeferred .. => true
  | .tableLoad m d => client m && d.length ≤ 524288
  | .sequencerEvaluation .. => true
  | .trapRelease m v => client m && word v
  | .sramScrub .. => true
  | .flashScrub .. => true
  | .otpReverify .. => true
  | .otpProg m d => client m && d.length ≤ 4095
  | .otpLock m v => client m && word v
  | .clockReferenceLost .. => true
  | .recoveredClkLost => true
  | .pllUnlock => true
  | .coreBuckFault => true
  | .vcoreRange .. => true
  | .vdd33Range .. => true
  | .overcastShutdownAdvance => true
  | .farPilotPresent .. => true
  | .linBreak .. => true
  | .slaveResponse .. => true
  | .linBusRecessive => true
  | .busOffRecovery .. => true
  | .pllLockHeld => true
  | .referenceGood => true
  | .vcoreWithinRange => true
  | .vdd33WithinRange => true
  | .coreBuckRestart => true
  | .coreBuckNormal => true
  | .tapReset => true
  | .boundaryScanInstruction => true
  | .flashWriteComplete .. => true
  | .otpProgrammingComplete .. => true

end Sys2Proof
end

