-- ==== Sys2Proof/Safety.lean ====
section
/-!
DEFINITION. Safety.lean: the canonical form of a state, what counts as a safe run, and the words that statements share for what a
command leaves as it was.
-/
namespace Sys2Proof.Machine

/-- The sparse register files stand in their canonical form: object values, applied core words, the journal's buffer, the
commit in progress and the entries committed to flash. -/
def State.canonical (s : State) : Prop :=
  s.objs.wf Dict.default = true ∧ s.core.words.wf (fun _ => 0) = true ∧ s.jrnl.buf.wf (fun _ => 0) = true ∧
    (∀ e, s.jrnl.inFlight = some e → e.wf (fun _ => 0) = true) ∧ s.flash.entries.wf (fun _ => 0) = true

/-- A fuse of the OTP: the lock of an area, or one bit of a byte of it. -/
inductive Fuse where
  | lock (area : Nat)
  | bit (area offset n : Nat)
  deriving DecidableEq, Repr

/-- The fuse is blown. -/
def Fuse.blownIn (l : List OtpArea) : Fuse → Prop
  | .lock a => (l.getD a {}).locked = true
  | .bit a o n => ((l.getD a {}).fuses.read (fun _ => 0) o).testBit n = true

def State.blown (s : State) (f : Fuse) : Prop := f.blownIn s.otp.areas

/-- Every command that waits is one that its row admits. -/
def State.queueWellFormed (s : State) : Prop := ∀ c ∈ s.pending, c.wellFormed = true

/-- `n` steps from a state all answer a next state: the block neither faults nor refuses on the way. -/
def SafeFor : Nat → State → Prop
  | 0, _ => True
  | n + 1, s => ∃ t, step s = .next t ∧ SafeFor n t

/-- A safe run: every number of steps is safe. -/
def Safe (s : State) : Prop := ∀ n, SafeFor n s

/-- The components of a state. -/
inductive Part where
  | pending | now | recTime | free | objs | core | grp | ph | aon | cell | strat | mode | src | col | recs | spd | jrnl
  | otp | meas | ring | archive | thm | hz | hour | parkAcc | log | logRetry | tabs | env | chg | link | fab | seqs
  | flash | wd | srv | can | note | lin | uds
  deriving DecidableEq, Repr

/-- The component is the same in both states. -/
def Part.same (s t : State) : Part → Prop
  | .pending => t.pending = s.pending
  | .now => t.now = s.now
  | .recTime => t.recTime = s.recTime
  | .free => t.free = s.free
  | .objs => t.objs = s.objs
  | .core => t.core = s.core
  | .grp => t.grp = s.grp
  | .ph => t.ph = s.ph
  | .aon => t.aon = s.aon
  | .cell => t.cell = s.cell
  | .strat => t.strat = s.strat
  | .mode => t.mode = s.mode
  | .src => t.src = s.src
  | .col => t.col = s.col
  | .recs => t.recs = s.recs
  | .spd => t.spd = s.spd
  | .jrnl => t.jrnl = s.jrnl
  | .otp => t.otp = s.otp
  | .meas => t.meas = s.meas
  | .ring => t.ring = s.ring
  | .archive => t.archive = s.archive
  | .thm => t.thm = s.thm
  | .hz => t.hz = s.hz
  | .hour => t.hour = s.hour
  | .parkAcc => t.parkAcc = s.parkAcc
  | .log => t.log = s.log
  | .logRetry => t.logRetry = s.logRetry
  | .tabs => t.tabs = s.tabs
  | .env => t.env = s.env
  | .chg => t.chg = s.chg
  | .link => t.link = s.link
  | .fab => t.fab = s.fab
  | .seqs => t.seqs = s.seqs
  | .flash => t.flash = s.flash
  | .wd => t.wd = s.wd
  | .srv => t.srv = s.srv
  | .can => t.can = s.can
  | .note => t.note = s.note
  | .lin => t.lin = s.lin
  | .uds => t.uds = s.uds

/-- Every component is the same, but the listed ones. -/
def State.OnlyParts (l : List Part) (s t : State) : Prop := ∀ p, p ∉ l → p.same s t

/-- A shell block holds a condition of a source and kind. -/
def State.stands (s : State) (src kind : Nat) : Bool := s.col.conds.any fun m => m.src == src && m.kind == kind

/-- The present frequency of a group, or one of its first N_en multiples, lies in an excluded band of the plan (R178). -/
def State.bandHit (s : State) (g : Group) : Bool :=
  s.freqBands.any fun b =>
    (bit b 0 && field b 31 20 * 10 ≤ (s.g g).freq && (s.g g).freq ≤ field b 19 8 * 10) ||
    (bit b 1 && (List.range (s.nEn g)).any fun k =>
      field b 31 20 * 10 ≤ (k + 1) * (s.g g).freq && (k + 1) * (s.g g).freq ≤ field b 19 8 * 10)

/-- A link message reaches its meaning: the port is served, its pair carries frames, the message's revision is this one's, and the
message repeats none and crosses no HARD_RESET of this end (R324-R327, R351). -/
def State.linkTakes (s : State) (p : Port) (pay : List Byte) : Bool :=
  s.linkHere && (s.obj (Obj.PORT_STATE (p.num + 1)) == 2 || s.obj (Obj.PORT_STATE (p.num + 1)) == 3) && byteAt pay 3 % 16 == 1 &&
    (s.lp p).rxId != some (byteAt pay 1) && s.modeNow != 7 && !(s.lp p).hardSent

/-- The state in which a link message is judged: it has told its sender's node and moisture state (R317, R358). -/
def State.linkHeard (s : State) (p : Port) (src : Nat) (pay : List Byte) : State := (s.fabTake p 0x4C).2.peerSeen p src pay

/-- The controller serves an object-protocol frame now: no answer to its TXN is kept or on its way, fewer than four requests of its
identifier wait, and the transmit queue has room (R621, R625, R628-R630). -/
def State.canTakes (s : State) (tester : Bool) (b : List Byte) : Bool :=
  s.canOn .a && (s.canState .a == 2 || s.canState .a == 3) && (!tester || s.variant == Variant.C) && s.serving &&
    (s.canKept tester (byteAt b 1)).isNone && !s.canWaits tester (byteAt b 1) && decide ((s.canServed tester).length < 4) &&
    decide (s.can.a.queue.length < 16)

/-- The state in which it is served: it is counted, and a tester's first request has opened the session (R633). -/
def State.canHeard (s : State) (tester : Bool) : State := (s.canStat .a 1).testerSeen tester

/-- The diagnostic server takes a frame on CANB: it runs, and no request is being received, processed or answered (R649, R651, R655). -/
def State.udsFree (s : State) : Bool :=
  s.canOn .b && (s.canState .b == 2 || s.canState .b == 3) && s.udsUp && !s.udsBusy

/-- It takes a request that comes in a single frame (R648, R649). -/
def State.udsTakes (s : State) (fd : Bool) (m : List Byte) : Bool :=
  s.udsFree && !m.isEmpty && decide (m.length ≤ sfMax fd)

/-- The state in which a request is carried out: its frame is counted, and its format is kept for the answer (R648). -/
def State.udsHeard (s : State) (fd : Bool) : State := (s.canStat .b 1).modU fun u => { u with fd := fd }

/-- Every object reads as before, but the listed ones. -/
def State.SameObjs (ks : List Nat) (s t : State) : Prop := ∀ k, k ∉ ks → t.obj k = s.obj k

/-- `t` is `s` but for fault messages offered to the collector (with FAULT_LOST where one was lost) and event records taken. -/
def State.Reports (s t : State) : Prop :=
  t = { s with objs := t.objs, col := t.col, ring := t.ring } ∧ s.SameObjs [Obj.FAULT_LOST] t

/-- `t` is `s` but for objects, of which only the listed ones may differ, fault messages and event records. -/
def State.Writes (ks : List Nat) (s t : State) : Prop :=
  t = { s with objs := t.objs, col := t.col, ring := t.ring } ∧ s.SameObjs (Obj.FAULT_LOST :: ks) t

/-- As `Writes`, with journal entries for objects written. -/
def State.Stores (ks : List Nat) (s t : State) : Prop :=
  t = { s with objs := t.objs, col := t.col, ring := t.ring, jrnl := t.jrnl } ∧
    s.SameObjs (Obj.FAULT_LOST :: Obj.OD_JOURNAL :: ks) t

end Sys2Proof.Machine
end

