-- ==== Sys2Proof/Certificates/Slice0/Obligations.lean ====
section
/-!
DEFINITION. Obligations.lean: the statements for the provers. Each is about every state: hypotheses name the condition under which a
command acts, and each clause says what the next state holds and which components it leaves as they were.
-/
open Sys2Proof Sys2Proof.Machine

/-- The state after reset: its sparse registers stand in their canonical form, no command waits, power-on reset stands in bring-up step 1
and every other object reads its default (R65, R545; values without a rule: log entries 5 to 9). -/
def Obligations.ResetState : Prop :=
  State.reset.canonical ∧ State.reset.pending = [] ∧ State.reset.queueWellFormed ∧ State.reset.now = 0 ∧ State.reset.aon.por = true ∧
    State.reset.obj Obj.BRINGUP_STEP = 1 ∧ (∀ k, k ≠ Obj.BRINGUP_STEP → State.reset.obj k = Dict.default k) ∧
    (∀ k m d, exec (.objectWrite m k d) State.reset = .next State.reset)

/-- Every step keeps the canonical form of objects, core words, journal and flash entries. -/
def Obligations.StepKeepsCanonicalForm : Prop :=
  ∀ s t : State, s.canonical → step s = .next t → t.canonical

/-- A step takes the command at the front of the queue and runs it with the rest; on an empty queue it is one tick of the idle block (the
model's choice, log entry 3). No word spells a command. -/
def Obligations.StepTakesTheFrontCommand : Prop :=
  (∀ (c : Instr) (l : List Instr) (s : State), step { s with pending := c :: l } = exec c { s with pending := l }) ∧
    (∀ s : State, s.pending = [] → ∃ t, step s = .next t ∧ t = s.idle ∧ t.now = s.now + 1 ∧ t.pending = []) ∧
    (∀ nbits w : Nat, decodeTableWord nbits w = none) ∧ (∀ (s : State) (nbits w : Nat), s.withFetchWord nbits w = s)

/-- No step clears a fuse of the OTP, takes back an open value already drawn, or lets an ill-formed command into the queue; a step with a
command leaves the clock, and an idle one adds a tick (R728-R730). -/
def Obligations.StepKeepsFusesAndQueue : Prop :=
  ∀ s t : State, step s = .next t →
    (∀ f, s.blown f → t.blown f) ∧ s.free ≤ t.free ∧ (s.queueWellFormed → t.queueWellFormed) ∧
      t.now = s.now + (if s.pending.isEmpty then 1 else 0) ∧ t.pending = s.pending.tail

/-- Every command completes in every state: the block neither faults nor refuses, and no command touches the queue or the clock. -/
def Obligations.EveryCommandCompletes : Prop :=
  (∀ (c : Instr) (s : State), ∃ t, exec c s = .next t ∧ t.pending = s.pending ∧ t.now = s.now ∧ s.free ≤ t.free) ∧ ∀ s : State, Safe s

/-- What few commands reach: only a thermal shutdown and the release of power-on reset change the retention cell, only power-on reset the
time of the records, and only those named here Park's charge account, the thermal chain with its intervals, the hour's account and the
operating log. -/
def Obligations.WhatFewCommandsChange : Prop :=
  ∀ (c : Instr) (s t : State), exec c s = .next t →
    ((∀ d, c ≠ .powerOnResetRelease d) → (∀ site, c ≠ .thermalShutdown site) → t.cell = s.cell) ∧
    (c ≠ .powerOnReset → c ≠ .railPor →
      t.recTime = s.recTime ∧
      ((∀ done, c ≠ .parkCheck done) → c ≠ .parkEntryAdvance → (∀ b, c ≠ .nrstCoreReset b) → (∀ v, c ≠ .coreHandover v) →
        (∀ a b d e, c ≠ .bringupStepComplete a b d e) → (∀ a b, c ≠ .sramScrub a b) → t.parkAcc = s.parkAcc) ∧
      ((∀ p o, c ≠ .commonTrigger p o) → (∀ k, c ≠ .safePoint k) → (∀ a b d e, c ≠ .bringupStepComplete a b d e) →
        (∀ l, c ≠ .selfcalComplete l) → c ≠ .hzRoundClose → c ≠ .epochComplete → (∀ l, c ≠ .flashScrub l) → (∀ n, c ≠ .otpReverify n) →
        t.thm = s.thm) ∧
      ((∀ p o, c ≠ .commonTrigger p o) → (∀ a b d e, c ≠ .bringupStepComplete a b d e) → c ≠ .hourRecord → c ≠ .parkEntryAdvance →
        c ≠ .faultRaise → c ≠ .recordHandling → c ≠ .coreStall → (∀ site, c ≠ .thermalShutdown site) → (∀ a b, c ≠ .sramScrub a b) →
        (∀ b, c ≠ .nrstCoreReset b) → (∀ v, c ≠ .vbusDrop v) → (∀ v, c ≠ .loadDump v) → (∀ v w, c ≠ .overRailReconnect v w) →
        (∀ v, c ≠ .vauxWarning v) → (∀ v, c ≠ .coreHandover v) → (∀ p b v, c ≠ .reverseCurrent p b v) → t.hour = s.hour)) ∧
    (c ≠ .hourRecord → c ≠ .parkEntryAdvance → c ≠ .epochComplete → (∀ a b d e, c ≠ .bringupStepComplete a b d e) →
      (∀ v, c ≠ .vauxWarning v) → (∀ v, c ≠ .coreHandover v) → (∀ l, c ≠ .flashScrub l) → (∀ a b d, c ≠ .flashWriteComplete a b d) →
      t.log = s.log)

/-- A write of RAIL_SETPOINT below RAIL_FLOOR, and a write of WAKE_CFG that clears both wakes, are refused: the object keeps its value, and
the code is the out-of-range error where no earlier check of R596 stops the write (R28, R49). -/
def Obligations.SetpointAndWakeWritesRefused : Prop :=
  ∀ (m : Master) (k : Nat) (d : List Byte) (s : State),
    (k = Obj.RAIL_SETPOINT ∧ leNat d < s.obj Obj.RAIL_FLOOR) ∨ (k = Obj.WAKE_CFG ∧ leNat d % 4 = 0) →
    ∃ t, exec (.objectWrite m k d) s = .next t ∧ t.obj k = s.obj k ∧ s.OnlyParts [.objs, .col, .srv] t ∧
      s.SameObjs [Obj.OD_STATS_REQUESTS, Obj.OD_STATS_ERRORS, Obj.OD_STATS_LOCKED, Obj.OD_LAST_ERROR, Obj.FAULT_LOST] t ∧
      (s.served m = true → t.srv.code ≠ 0 ∧ (s.writeCodeA m k (leNat d) (d.length == 2) = 0 → t.srv.code = 9))

/-- A period of the watchdog, whatever starts it, begins at tick 0 with a token of 8 bits that is neither 0 nor the previous period's: the
end of the period before, a violation, the handover (R566). -/
def Obligations.TokenOfEachPeriod : Prop :=
  (∀ s : State, s.wdPeriod.wd.tick = 0 ∧ 1 ≤ s.wdPeriod.obj Obj.WD_TOKEN ∧ s.wdPeriod.obj Obj.WD_TOKEN ≤ 255 ∧
    s.wdPeriod.obj Obj.WD_TOKEN ≠ s.obj Obj.WD_TOKEN) ∧
  (∀ s : State, s.shellUp = true → s.obj Obj.WD_STATE = 1 → s.wdQuiet = false →
    ∃ t, exec .wdPeriodStart s = .next t ∧ s.OnlyParts [.free, .objs, .aon, .col, .recs, .jrnl, .wd] t ∧ t.wd.tick = 0 ∧
      1 ≤ t.obj Obj.WD_TOKEN ∧ t.obj Obj.WD_TOKEN ≤ 255 ∧
      t.obj Obj.WD_TOKEN ≠ s.obj Obj.WD_TOKEN) ∧
  (∀ (k : Fin 16) (s : State), s.shellUp = true → s.obj Obj.WD_STATE = 1 → s.wdQuiet = false → s.wdMissing k.val = true →
    ∃ t, exec (.wdWindowClose k) s = .next t ∧ s.OnlyParts [.free, .objs, .aon, .col, .recs, .jrnl, .wd] t ∧ t.wd.tick = 0 ∧
      1 ≤ t.obj Obj.WD_TOKEN ∧ t.obj Obj.WD_TOKEN ≤ 255 ∧
      t.obj Obj.WD_TOKEN ≠ s.obj Obj.WD_TOKEN) ∧
  (∀ s : State, s.wdStart = (s.set Obj.WD_STATE 1).wdPeriod)

/-- Power-on reset of either kind clears every object, the core, the journal's buffer and the records, and keeps what the OTP, the flash and
the retention cell hold; a commit cut short leaves its mark, and an OTP programming cut short blows no fuse of another area (R545, R556,
R557, R730). The VAUX supervisor (R556, R768): a warning sets VAUX_STATE and keeps the lowest VAUX; a shell that serves outside Storage and
Park counts it and raises VAUX_WARNING, and where no shell runs the always-on domain keeps that, with the VAUX measured, for later; above
5.8 V the warning clears. -/
def Obligations.PowerOnResetAndVaux : Prop :=
  (∀ (s : State) (c : Instr) (n : Nat), (c = .powerOnReset ∧ n = 9) ∨ (c = .railPor ∧ n = 10) →
    ∃ t, exec c s = .next t ∧ t.aon.por = true ∧ t.aon.porCause = setBit (if s.aon.por then s.aon.porCause else 0) n true ∧
      t.obj Obj.BRINGUP_STEP = 1 ∧ (∀ k, k ≠ Obj.BRINGUP_STEP → t.obj k = Dict.default k) ∧
      t.core = {} ∧ t.jrnl = {} ∧ t.recs = [] ∧ t.lin = {} ∧ t.uds = {} ∧ t.srv = {} ∧ t.recTime = 0 ∧
      (s.otp.prog = none → t.otp.areas = s.otp.areas) ∧ (∀ f, s.blown f → t.blown f) ∧
      (∀ a off d, s.otp.prog = some (a, off, d) → ∀ i, i ≠ a → t.otpArea i = s.otpArea i) ∧
      t.flash = { s.flash with torn := s.flash.torn || s.jrnl.inFlight.isSome } ∧ t.log = s.log ∧ t.archive = s.archive ∧
      t.cell = s.cell ∧ t.aon.overcast = s.aon.overcast) ∧
  (∀ (v : Nat) (s : State), s.aon.por = false → s.obj Obj.VAUX_STATE ≠ 1 →
    ∃ t, exec (.vauxWarning v) s = .next t ∧ t.obj Obj.VAUX_STATE = 1 ∧ t.obj Obj.VAUX_MIN = min (s.obj Obj.VAUX_MIN) (v / 10) ∧
      (s.aon.shell = false → t.aon = { s.aon with vauxDeferred := true, vauxAt := min 65535 (v / 100) } ∧ s.OnlyParts [.objs, .aon] t ∧
        s.SameObjs [Obj.VAUX_STATE, Obj.VAUX_MIN] t) ∧
      (s.serving = true → s.bringing = false → s.inMode [0, 1] = false → t.stands 0x1A 1 = true ∧
        t.obj Obj.VAUX_WARN_COUNT = satInc 0xFFFFFFFF (s.obj Obj.VAUX_WARN_COUNT) ∧ t.aon = s.aon) ∧
      s.OnlyParts [.objs, .aon, .col, .jrnl, .hour, .log, .logRetry] t) ∧
  (∀ s : State, s.obj Obj.VAUX_STATE = 1 →
    ∃ t, exec .vauxWarningClear s = .next t ∧ t.obj Obj.VAUX_STATE = 0 ∧ t.stands 0x1A 1 = false ∧ s.OnlyParts [.objs, .col] t ∧
      s.SameObjs [Obj.VAUX_STATE, Obj.FAULT_LOST] t)

/-- The release of power-on reset: the retention cell by the length of the dip, RESET_CAUSE, bring-up at step 2 (R558, R559, R65). The
release of a pin reset: RESET_LOW_TIME, RESET_CAUSE and bring-up at step 1 (R543, R559); a low period that the longest own drive, its
tolerance included, does not explain was external too (the model's reading of R544 and R562, DEDUCED, log entry 217). The end of the
device's own drive of nRST. Where the retention cell kept Overcast, MODE_STATE is 7 from the release on (R86, R766). -/
def Obligations.ResetReleaseStartsBringUp : Prop :=
  (∀ (d : Nat) (s : State), s.aon.por = true →
    ∃ t, exec (.powerOnResetRelease d) s = .next t ∧ t.aon.por = false ∧ t.obj Obj.BRINGUP_STEP = 2 ∧
      t.obj Obj.RESET_CAUSE = 3 + s.aon.porCause + 2048 * b2n t.aon.overcast ∧
      (d < 100 → t.cell = s.cell ∧ t.aon.overcast = s.aon.overcast) ∧ (150 ≤ d → t.cell = {} ∧ t.aon.overcast = false) ∧
      (t.aon.overcast = true → s.aon.overcast = true) ∧
      (t.aon.overcast = true → t.obj Obj.MODE_STATE = 7 ∧ t.obj Obj.MODE_CAUSE = 0x0C) ∧
      (t.aon.overcast = false → s.SameObjs [Obj.BRINGUP_STEP, Obj.RESET_CAUSE] t) ∧
      s.OnlyParts [.objs, .aon, .cell, .free] t ∧
      s.SameObjs [Obj.BRINGUP_STEP, Obj.RESET_CAUSE, Obj.MODE_STATE, Obj.MODE_CAUSE] t) ∧
  (∀ (low : Nat) (s : State), s.aon.resetLevel ≠ 0 → s.aon.nrstDrive = false →
    ∃ t, exec (.resetRelease low) s = .next t ∧ t.aon.resetLevel = 0 ∧ t.obj Obj.BRINGUP_STEP = 1 ∧
      t.obj Obj.RESET_LOW_TIME = min 0xFFFFFFFF low ∧
      t.obj Obj.RESET_CAUSE = s.aon.resetLevel + 8 * b2n s.aon.railUp + setBit s.aon.cause 4 (bit s.aon.cause 4 ||
        decide ((if bit s.aon.cause 6 || bit s.aon.cause 7 then 8400 else 1050) < low)) ∧
      s.OnlyParts [.objs, .aon] t ∧ s.SameObjs [Obj.BRINGUP_STEP, Obj.RESET_CAUSE, Obj.RESET_LOW_TIME] t) ∧
  (∀ s : State, exec .nrstDriveEnd s = .next { s with aon := { s.aon with nrstDrive := false } })

/-- nRST low: a core reset stops the shell and restarts bring-up; at 5.0 ms it is escalated to a system reset; each keeps what the table of
R545 keeps. A step of bring-up leads to the next one (R542, R544, R545, R65). -/
def Obligations.PinResetsAndBringUpSteps : Prop :=
  (∀ s : State, s.aon.por = false → s.inMode [0, 1] = false → s.aon.resetLevel = 0 →
    ∃ t, exec (.nrstCoreReset true) s = .next t ∧ t.aon.shell = false ∧ t.aon.resetLevel = 1 ∧ bit t.aon.cause 4 = true ∧
      t.obj Obj.BRINGUP_STEP = 1 ∧ (t.modeNow ≠ 6 → t.env.hiZ = true) ∧ t.strat.absent = true ∧ t.otp.prog = none ∧
      (s.inMode [2, 3, 4, 5] = true → s.aon.overcast = false → s.strat.absent = false → t.modeNow = 6) ∧
      s.OnlyParts [.free, .objs, .core, .grp, .ph, .aon, .strat, .mode, .src, .col, .recs, .jrnl, .otp, .ring, .hz, .hour, .parkAcc,
        .tabs, .env,
        .chg, .link, .seqs, .flash, .srv, .note, .uds] t) ∧
  (∀ s : State, s.aon.resetLevel = 1 →
    ∃ t, exec .nrstEscalation s = .next t ∧ t.aon.resetLevel = 2 ∧ t.strat.level = 2 ∧ bit t.aon.cause 2 = true ∧
      t.otp.prog = none ∧ t.obj Obj.CLK_STATE = 6 ∧
      s.OnlyParts [.objs, .core, .grp, .aon, .strat, .col, .otp, .meas, .ring, .hz, .chg, .fab, .can] t) ∧
  (∀ (pins tight flash : Nat) (ecc : List Nat) (s : State), s.aon.por = false → s.aon.resetLevel = 0 →
    ((s.obj Obj.BRINGUP_STEP = 1 → ∃ t, exec (.bringupStepComplete pins tight flash ecc) s = .next t ∧
        t.obj Obj.BRINGUP_STEP = (if s.aon.bringKind = 2 then 3 else 2) ∧ s.OnlyParts [.objs, .col, .ring] t ∧
        s.SameObjs [Obj.BRINGUP_STEP, Obj.FAULT_LOST] t) ∧
      (s.obj Obj.BRINGUP_STEP = 2 → ∃ t, exec (.bringupStepComplete pins tight flash ecc) s = .next t ∧
        t.obj Obj.BRINGUP_STEP = 3 ∧ t.otp.shadows = s.otp.areas.map (·.fuses) ∧ s.OnlyParts [.objs, .col, .ring, .otp] t) ∧
      (s.obj Obj.BRINGUP_STEP = 3 → ∃ t, exec (.bringupStepComplete pins tight flash ecc) s = .next t ∧
        t.obj Obj.BRINGUP_STEP = 4 ∧ s.OnlyParts [.objs, .col, .ring] t ∧ (s.coreLevel = true → t.obj Obj.STRAPS = s.obj Obj.STRAPS) ∧
        (s.coreLevel = false → t.obj Obj.CLK_STATE = 6 ∧
          (s.variant = .A → t.obj Obj.STRAPS % 16 = strapMajority pins % 16 ∧ t.obj Obj.STRAPS / 16 = strapMajority pins % 16))) ∧
      (s.obj Obj.BRINGUP_STEP = 4 → s.clkm = 3 → s.coreLevel = false → ∃ t, exec (.bringupStepComplete pins tight flash ecc) s = .next t ∧
        t.obj Obj.BRINGUP_STEP = 5 ∧ t.obj Obj.CLK_STATE = 4 ∧ t.aon = { s.aon with clockStopped := false } ∧
        s.OnlyParts [.objs, .aon, .col, .ring] t ∧ s.SameObjs [Obj.BRINGUP_STEP, Obj.CLK_STATE, Obj.FAULT_LOST] t) ∧
      (s.obj Obj.BRINGUP_STEP = 5 → s.aon.clockStopped = false → ∃ t, exec (.bringupStepComplete pins tight flash ecc) s = .next t ∧
        t.obj Obj.BRINGUP_STEP = 6 ∧ s.OnlyParts [.objs, .aon, .mode, .src, .col, .recs, .jrnl, .meas, .ring, .archive, .thm, .hz,
          .hour, .parkAcc, .log, .tabs, .env, .chg, .fab, .seqs, .flash, .wd, .srv, .can, .note, .uds] t) ∧
      (s.obj Obj.BRINGUP_STEP = 6 → s.aon.clockStopped = false → s.fab.boot = none → ∃ t, exec (.bringupStepComplete pins tight flash ecc) s = .next t ∧
        t.obj Obj.BRINGUP_STEP = 7 ∧ s.OnlyParts [.objs, .core, .grp, .ph, .aon, .col, .jrnl, .ring, .hz, .hour, .tabs, .env, .chg,
          .fab, .flash, .wd, .lin, .uds] t) ∧
      (s.obj Obj.BRINGUP_STEP = 10 → s.aon.clockStopped = false → s.aon.overcast = false → s.strat.absent = false →
        ∃ t, exec (.bringupStepComplete pins tight flash ecc) s = .next t ∧ t.obj Obj.BRINGUP_STEP = 11 ∧ s.OnlyParts [.objs, .col,
          .ring] t ∧ s.SameObjs [Obj.BRINGUP_STEP, Obj.FAULT_LOST] t)))

/-- Wake events (R50, R53, R65, R70, R73): in Storage and Park with the shell off each starts bring-up at step 2 and its cause is kept, or
waits for the end of a Park check; an attach with the shell running starts a classification; a Park check falls due, with as many scans as
PARK_SCAN asks for, and ends in a bring-up where a wake waited. -/
def Obligations.WakeEventsStartBringUp : Prop :=
  (∀ s : State, s.modeNow = 0 ∨ s.modeNow = 1 → s.bringing = false → s.aon.por = false → s.mode.parkCheck = false →
    (bit (s.obj Obj.WAKE_CFG) 0 = true → ∃ t, exec .wakePin s = .next t ∧ t.obj Obj.BRINGUP_STEP = 2 ∧ t.aon.bringCause = 2 ∧
      t.aon.bringKind = 1 ∧ s.OnlyParts [.objs, .aon, .mode, .lin] t ∧ s.SameObjs [Obj.BRINGUP_STEP] t) ∧
    (bit (s.obj Obj.WAKE_CFG) 1 = true → s.aon.shell = false → ∃ t, exec .vbusAttach s = .next t ∧ t.obj Obj.BRINGUP_STEP = 2 ∧
      t.aon.bringCause = 3 ∧ t.aon.bringKind = 1 ∧ s.OnlyParts [.objs, .aon, .mode, .src, .lin, .col, .ring] t ∧
      s.SameObjs [Obj.BRINGUP_STEP, Obj.FAULT_LOST] t)) ∧
  (∀ s : State, s.modeNow = 1 → s.bringing = false → s.aon.por = false → s.mode.parkCheck = true → bit (s.obj Obj.WAKE_CFG) 0 = true →
    exec .wakePin s = .next { s with aon := { s.aon with wake := some (s.aon.wake.getD 2) } }) ∧
  (∀ s : State, s.shellUp = true → s.bringing = false → s.aon.overcast = false → s.mode.park ≠ 5 → s.src.cls = 0 →
    ∃ t, exec .vbusAttach s = .next t ∧ t.src.cls = 1 ∧ t.src.lastAt = s.now ∧
      s.OnlyParts [.objs, .core, .grp, .ph, .src, .col, .ring, .hz] t) ∧
  (∀ s : State, s.modeNow = 1 → s.bringing = false → s.aon.por = false → s.mode.parkCheck = false →
    ∃ t, exec (.parkCheck false) s = .next t ∧ t.mode = { s.mode with parkCheck := true } ∧ t.obj Obj.SCAN_STATE = 3 ∧
      t.meas.left = field (s.obj Obj.PARK_SCAN) 27 24 ∧ s.OnlyParts [.objs, .mode, .meas, .ring] t) ∧
  (∀ (s : State) (c : Nat), s.modeNow = 1 → s.bringing = false → s.aon.por = false → s.mode.parkCheck = true → s.meas.left = 0 →
    s.aon.wake = some c →
    ∃ t, exec (.parkCheck true) s = .next t ∧ s.OnlyParts [.objs, .core, .grp, .ph, .aon, .strat, .mode, .src, .col, .spd, .jrnl, .meas,
      .ring, .hz, .parkAcc, .env, .chg, .link, .fab, .seqs, .srv, .can, .note, .lin] t ∧ t.obj Obj.BRINGUP_STEP = 2 ∧
        t.aon.bringCause = c ∧ t.mode.parkCheck = false)

/-- The requests (R56-R59, R62, R87, R767): an accepted write of a slot holds the value and MODE_TARGET is the slot of highest precedence,
also where masters write in one cycle; an expired lease leaves its slot at none; a re-evaluation sets MODE_TARGET. Play out of Idle is
reached at once, with its cause. -/
def Obligations.ModeRequestsResolve : Prop :=
  (∀ (m : Master) (v : Nat) (s : State), v < 256 → s.served m = true → s.shellUp = true → s.bringing = false → s.aon.overcast = false →
    s.inMode [2, 3] = true → s.writeCode m (0x0101 * 256 + m.code) (leBytes 1 v) = 0 →
    ∃ t, exec (.modeReqWrite m v []) s = .next t ∧ s.OnlyParts [.objs, .core, .grp, .ph, .aon, .strat, .mode, .src, .col, .spd, .jrnl,
      .meas, .ring, .hz, .env, .chg, .link, .fab, .seqs, .srv, .can, .note, .lin] t ∧ t.obj (0x0101 * 256 + m.code) = v ∧
        t.obj Obj.MODE_TARGET = t.resolved ∧ t.srv.code = 0) ∧
  (∀ (m n : Master) (v w : Nat) (s : State), v < 256 → w < 256 → m ≠ n → m ≠ .Q → n ≠ .Q → s.served m = true → s.served n = true → s.shellUp = true →
    s.bringing = false → s.aon.overcast = false → s.inMode [2, 3] = true → s.writeCode m (0x0101 * 256 + m.code) (leBytes 1 v) = 0 →
    s.writeCode n (0x0101 * 256 + n.code) (leBytes 1 w) = 0 →
    ∃ t, exec (.modeReqWrite m v [(n, w)]) s = .next t ∧ s.OnlyParts [.objs, .core, .grp, .ph, .aon, .strat, .mode, .src, .col, .spd,
      .jrnl, .meas, .ring, .hz, .env, .chg, .link, .fab, .seqs, .srv, .can, .note, .lin] t ∧ t.obj (0x0101 * 256 + m.code) = v ∧
        t.obj (0x0101 * 256 + n.code) = w ∧
      t.obj Obj.MODE_TARGET = t.resolved ∧ (t.modeNow = s.modeNow ∨ t.obj Obj.MODE_PREV = s.modeNow ∨ t.modeNow = 2)) ∧
  (∀ (m : Master) (s : State), s.served m = true → s.shellUp = true → s.bringing = false → s.aon.overcast = false → s.modeNow = 2 →
    s.mode.park ≠ 5 → s.obj Obj.TSD_STATE = 0 → s.obj Obj.MODE_TARGET ≠ 3 → (s.set (0x0101 * 256 + m.code) 3).resolved = 3 →
    s.writeCode m (0x0101 * 256 + m.code) (leBytes 1 3) = 0 →
    ∃ t, exec (.modeReqWrite m 3 []) s = .next t ∧ s.OnlyParts [.objs, .core, .grp, .ph, .aon, .strat, .mode, .src, .col, .spd, .jrnl,
      .meas, .ring, .hz, .env, .chg, .link, .fab, .seqs, .srv, .can, .note, .lin] t ∧ t.obj Obj.MODE_STATE = 3 ∧ t.obj Obj.MODE_PREV = 2 ∧
        t.obj Obj.MODE_CAUSE = 1) ∧
  (∀ s : State, s.shellUp = true → s.bringing = false → s.aon.overcast = false → s.inMode [2, 3] = true →
    (s.mode.leaseH = true → s.obj Obj.MODE_LEASE_H ≠ 0 → ∃ t, exec (.modeLeaseExpiry .H) s = .next t ∧ s.OnlyParts [.objs, .core, .grp,
      .ph, .aon, .strat, .mode, .src, .col, .spd, .jrnl, .meas, .ring, .hz, .env, .chg, .link, .fab, .seqs, .srv, .can, .note] t ∧
        t.obj Obj.MODE_REQ_H = 0xFF ∧
      t.obj Obj.MODE_TARGET = t.resolved ∧ t.mode.leaseH = false) ∧
    (s.mode.leaseF = true → s.obj Obj.MODE_LEASE_F ≠ 0 → ∃ t, exec (.modeLeaseExpiry .F) s = .next t ∧ s.OnlyParts [.objs, .core, .grp,
      .ph, .aon, .strat, .mode, .src, .col, .spd, .jrnl, .meas, .ring, .hz, .env, .chg, .link, .fab, .seqs, .srv, .can, .note] t ∧
        t.obj Obj.MODE_REQ_F = 0xFF ∧
      t.obj Obj.MODE_TARGET = t.resolved ∧ t.mode.leaseF = false) ∧
    (∃ t, exec .modeTargetReevaluation s = .next t ∧ s.OnlyParts [.objs, .core, .grp, .ph, .aon, .strat, .mode, .src, .col, .spd, .jrnl,
      .meas, .ring, .hz, .env, .chg, .link, .fab, .seqs, .srv, .can, .note] t ∧ t.obj Obj.MODE_TARGET = s.resolved))

/-- Park entry (R53, R64, R71): the delay with no target starts it; each completed stage leads to the next; the last one reaches Park with
the shell off, from which a wake that waited starts bring-up. The end of WAKE_HOLD acts on a target of none in Play. -/
def Obligations.ParkEntryStages : Prop :=
  (∀ s : State, s.shellUp = true → s.bringing = false → s.modeNow = 2 → s.mode.park = 0 → s.obj Obj.MODE_TARGET = 0xFF →
    s.obj Obj.IDLE_PARK_DELAY ≠ 0 → s.mode.wakeHold = false → s.mode.maint = false → s.obj Obj.TSD_STATE = 0 →
    ∃ t, exec .idleParkDelayExpiry s = .next t ∧ s.OnlyParts [.objs, .core, .grp, .ph, .mode, .col, .jrnl, .ring, .hz, .env, .chg, .link,
      .fab] t ∧ t.mode = { s.mode with park := 1, parkCause := 0x0E } ∧ t.obj Obj.MODE_STATE = 2) ∧
  (∀ s : State, s.shellUp = true → s.modeNow = 2 → s.obj Obj.TSD_STATE = 0 →
    (s.mode.park = 2 → s.hz.epoch = none → ∃ t, exec .parkEntryAdvance s = .next t ∧ t.mode = { s.mode with park := 3 } ∧
      s.OnlyParts [.mode, .objs, .col, .ring] t ∧ s.SameObjs [Obj.FAULT_LOST] t) ∧
    (s.mode.park = 4 → ∃ t, exec .parkEntryAdvance s = .next t ∧ t.mode = { s.mode with park := 5 } ∧ t.core.disc = false ∧
      t.obj Obj.SRC_STATE = 0 ∧ bit (t.g .input).stops 4 = true ∧ bit (t.g .pack).stops 4 = true ∧
      s.OnlyParts [.mode, .objs, .col, .ring, .core, .grp, .ph, .src] t) ∧
    (s.mode.park = 5 → s.obj Obj.MODE_TARGET ≠ 0 → s.aon.wake = none → ∃ t, exec .parkEntryAdvance s = .next t ∧ s.OnlyParts [.objs,
      .core, .grp, .ph, .aon, .strat, .mode, .src, .col, .spd, .jrnl, .meas, .ring, .archive, .hz, .hour, .parkAcc, .log, .logRetry,
        .tabs, .env, .chg, .link, .fab, .seqs, .flash, .srv, .can, .note, .lin] t ∧
      t.obj Obj.MODE_STATE = 1 ∧ t.obj Obj.MODE_CAUSE = s.mode.parkCause ∧ t.obj Obj.MODE_PREV = 2 ∧ t.aon.shell = false ∧
      t.mode.park = 0) ∧
    (∀ k, s.mode.park = 5 → s.aon.wake = some k → ∃ t, exec .parkEntryAdvance s = .next t ∧ s.OnlyParts [.objs, .core, .grp, .ph, .aon,
      .strat, .mode, .src, .col, .spd, .jrnl, .meas, .ring, .archive, .hz, .hour, .parkAcc, .log, .logRetry, .tabs, .env, .chg, .link,
        .fab, .seqs, .flash, .srv, .can, .note, .lin] t ∧
      t.obj Obj.MODE_STATE = 1 ∧ t.obj Obj.BRINGUP_STEP = 2 ∧ t.aon.bringCause = k)) ∧
  (∀ s : State, s.mode.wakeHold = true → s.shellUp = true → s.bringing = false → s.aon.overcast = false → s.modeNow = 3 →
    s.obj Obj.MODE_TARGET = 0xFF → s.mode.serviceStay = false → s.obj Obj.TSD_STATE = 0 →
    ∃ t, exec .wakeHoldExpiry s = .next t ∧ s.OnlyParts [.objs, .core, .grp, .ph, .aon, .strat, .mode, .src, .col, .spd, .jrnl, .meas,
      .ring, .hz, .env, .chg, .link, .fab, .seqs, .srv, .can, .note] t ∧ t.mode.wakeHold = false ∧ t.obj Obj.MODE_STATE = 2 ∧
        t.obj Obj.MODE_PREV = 3 ∧
      t.obj Obj.MODE_CAUSE = 1)

/-- Stratus (R79, R80, R83, R126, R130, R131): a lost heartbeat enters Stratus; 500 ms from its entry the contracts' limits begin to ramp,
and at the end of the ramp the link groups are at Z for the contracts to become Neutral; the core handover ends the absence of the shell, in
bring-up by step 9, by a mode with the rail on where it stayed up, or by Service without a valid image. Overcast (R84, R85, R532, R533): the
stages of the shutdown follow one another and end in mode 7, where a heartbeat that is back lets the shell serve again; a pulse of nFAILOVER
stays low to its end. -/
def Obligations.StratusAndOvercast : Prop :=
  (∀ s : State, s.shellUp = true → s.bringing = false → s.inMode [2, 3, 4, 5] = true → s.aon.overcast = false →
    ∃ t, exec .heartbeatLoss s = .next t ∧ t.strat.absent = true ∧ t.strat.heartbeat = true ∧ t.strat.active = true ∧
      t.strat.since = s.now ∧ t.obj Obj.MODE_STATE = 6 ∧ t.obj Obj.MODE_CAUSE = 0x0A ∧ t.obj Obj.MODE_PREV = s.modeNow ∧
      t.obj Obj.WD_STATE = 0 ∧ (∀ g, (t.g g).iff = 0) ∧ t.mode.park = 0 ∧
      s.OnlyParts [.objs, .core, .grp, .ph, .strat, .mode, .src, .col, .recs, .jrnl, .ring, .hz, .tabs, .env, .chg, .link, .seqs, .srv,
        .note, .uds] t) ∧
  (∀ s : State, s.shellUp = true → 9 ≤ s.obj Obj.BRINGUP_STEP →
    ∃ t, exec .heartbeatLoss s = .next t ∧ s.OnlyParts [.objs, .core, .grp, .ph, .strat, .mode, .src, .col, .recs, .jrnl, .ring, .hz,
      .tabs, .env, .chg, .link, .seqs, .srv, .note, .uds] t ∧ t.strat.absent = true ∧ t.strat.heartbeat = true ∧ t.strat.since = s.now) ∧
  (∀ s : State, s.strat.active = true → s.variant = .A → s.strat.link = 0 →
    exec .stratusLinkHoldExpiry s = .next { s with strat := { s.strat with link := 1, rampAt := s.now } }) ∧
  (∀ s : State, s.strat.active = true → s.variant = .A → s.strat.link = 1 →
    (s.strat.absent = false ∨ s.modeNow ≠ 6 ∨ s.packDead = false ∨ s.obj Obj.TSD_STATE ≠ 0 →
      ∃ t, exec .stratusLinkRampEnd s = .next t ∧
        t.strat = { s.strat with link := 2, linkNeutralised := decide (s.word 7 ≠ 0 ∨ s.word 8 ≠ 0) } ∧
        bit (t.g .east).stops 6 = true ∧ bit (t.g .west).stops 6 = true ∧ s.OnlyParts [.core, .grp, .ph, .strat, .ring] t) ∧
    (s.strat.absent = true → s.modeNow = 6 → s.packDead = true → s.obj Obj.TSD_STATE = 0 → s.busNow = some 0 →
      (s.linkZ .east).importing = false → ∃ t, exec .stratusLinkRampEnd s = .next t ∧ s.OnlyParts [.objs, .core, .grp, .ph, .aon, .strat,
        .mode, .src, .col, .spd, .jrnl, .meas, .ring, .hz, .env, .chg, .link, .fab, .seqs, .srv, .can, .note] t ∧ t.obj Obj.MODE_STATE = 0 ∧
        t.obj Obj.MODE_CAUSE = 9 ∧ t.aon.shell = false)) ∧
  (∀ (vbus : Nat) (s : State), s.aon.overcast = false → s.aon.shell = true → s.aon.resetLevel = 0 → s.aon.clockStopped = false →
    s.obj Obj.BRINGUP_STEP = 8 → s.strat.absent = false → s.aon.bringKind ≠ 2 →
    (s.noBank = false → ∃ t, exec (.coreHandover vbus) s = .next t ∧ t.obj Obj.BRINGUP_STEP = 9 ∧ t.core.handedOver = true ∧
      t.strat.absent = false ∧ t.obj Obj.WD_STATE = 1 ∧ (6000 ≤ vbus → t.src.cls = 1) ∧
      (∀ g, s.hasGroup g = true → g ≠ .input → bit (t.g g).stops 4 = true)) ∧
    (s.noBank = true → ∃ t, exec (.coreHandover vbus) s = .next t ∧ t.obj Obj.BRINGUP_STEP = 0 ∧ t.obj Obj.MODE_STATE = 5 ∧
      t.obj Obj.MODE_CAUSE = 0x0D ∧ t.core.handedOver = true ∧ t.mode.railOff = true)) ∧
  (∀ (vbus : Nat) (s : State), s.aon.overcast = false → s.aon.shell = true → s.aon.resetLevel = 0 → s.aon.clockStopped = false →
    s.obj Obj.BRINGUP_STEP = 8 → s.strat.absent = false → s.aon.bringKind = 2 → s.noBank = true → s.core.rideFromOn = false →
    ∃ t, exec (.coreHandover vbus) s = .next t ∧ t.obj Obj.BRINGUP_STEP = 0 ∧ t.obj Obj.MODE_STATE = 5 ∧ t.obj Obj.MODE_CAUSE = 0x0B ∧
      t.mode.serviceStay = true ∧ t.core.handedOver = true) ∧
  (∀ (vbus : Nat) (s : State), s.aon.overcast = false → s.aon.shell = true → s.aon.resetLevel = 0 → s.aon.clockStopped = false →
    s.strat.absent = true → s.bringing = false ∨ 9 ≤ s.obj Obj.BRINGUP_STEP →
    ∃ t, exec (.coreHandover vbus) s = .next t ∧ t.strat.absent = false ∧ t.core.handedOver = true) ∧
  (∀ (vbus : Nat) (s : State), s.aon.overcast = true → s.aon.shell = true → s.aon.resetLevel = 0 → s.strat.absent = true →
    s.modeNow = 7 → s.bringing = false →
    ∃ t, exec (.coreHandover vbus) s = .next t ∧ t.strat.absent = false ∧ t.strat.heartbeat = false ∧ t.obj Obj.MODE_STATE = 7) ∧
  (∀ s : State, s.aon.overcast = true →
    (s.aon.overcastStage = 1 → ∃ t, exec .overcastShutdownAdvance s = .next t ∧ t.aon = { s.aon with overcastStage := 2 } ∧
      t.core.disc = false ∧ bit (t.g .input).stops 4 = true ∧ s.OnlyParts [.core, .grp, .ph, .aon, .ring] t) ∧
    (s.aon.overcastStage = 2 → ∃ t, exec .overcastShutdownAdvance s = .next t ∧ t.aon = { s.aon with overcastStage := 3 } ∧
      bit (t.g .pack).stops 4 = true ∧ s.OnlyParts [.core, .grp, .ph, .aon, .ring] t) ∧
    (s.aon.overcastStage = 3 → ∃ t, exec .overcastShutdownAdvance s = .next t ∧ t.aon = { s.aon with overcastStage := 4 } ∧
      t.wd.pulse = 1 ∧ t.chg.sel = 0 ∧ t.obj Obj.BAL_STATE = 0 ∧ t.obj Obj.HALO_STATE = 4 ∧
      s.OnlyParts [.objs, .aon, .wd, .chg, .col, .ring] t) ∧
    (s.aon.overcastStage = 4 → ∃ t, exec .overcastShutdownAdvance s = .next t ∧ s.OnlyParts [.free, .objs, .core, .grp, .ph, .aon, .strat,
      .mode, .src, .col, .recs, .spd, .jrnl, .otp, .meas, .ring, .archive, .hz, .tabs, .env, .chg, .link, .fab, .seqs, .flash, .wd, .srv,
        .can, .note, .lin, .uds] t ∧ t.aon.overcastStage = 5 ∧
      t.obj Obj.MODE_STATE = 7 ∧ t.obj Obj.MODE_CAUSE = 0x0C)) ∧
  (∀ s : State, (s.wd.pulseEnd ≤ s.now → exec .nfailoverPulseEnd s = .next { s with wd := { s.wd with pulse := 0 } }) ∧
    (s.now < s.wd.pulseEnd → exec .nfailoverPulseEnd s = .next s))

/-- The main clock (R548-R551, R561): a lost reference moves the PLL to the next one, or stops the clock and with it the shell. The
conditions of the supplies and of the clock (R561, R501): each stands from its detection, is offered once, and ends with its release;
nothing else changes but the fault bus. The core buck goes off at its fault and is on again after the restart (R561); the debug port's two
commands touch the TAP alone (R121, R547). -/
def Obligations.ClocksSuppliesAndDebugPort : Prop :=
  (∀ s : State, s.aon.por = false → s.aon.clockStopped = false → s.acquiring = false → s.obj Obj.CLK_STATE < 4 →
    (∃ t, exec (.clockReferenceLost true) s = .next t ∧
      t.obj Obj.CLK_STATE = (if s.obj Obj.CLK_STATE = 2 ∧ s.portLocked .west then 3
        else if s.obj Obj.CLK_STATE = 3 ∧ s.portLocked .east then 2 else 4) ∧
      (t.aon = if s.obj Obj.CLK_STATE ≤ 1 then { s.aon with refLost := true } else s.aon) ∧
      s.OnlyParts [.objs, .col, .aon] t ∧ s.SameObjs [Obj.CLK_STATE, Obj.FAULT_LOST] t) ∧
    (∃ t, exec (.clockReferenceLost false) s = .next t ∧ s.OnlyParts [.objs, .core, .grp, .ph, .aon, .strat, .mode, .src, .col, .recs,
      .jrnl, .ring, .hz, .tabs, .env, .chg, .link, .seqs, .srv, .note, .uds] t ∧ t.aon = { s.aon with clockStopped := true } ∧
      (s.shellUp = true → t.strat.absent = true))) ∧
  (∀ s : State, s.obj Obj.BRINGUP_STEP = 4 → s.clkm = 2 → s.obj Obj.CLK_STATE = 6 →
    ∃ t, exec .recoveredClkLost s = .next t ∧ t.obj Obj.CLK_STATE = 4 ∧ s.OnlyParts [.objs, .col] t ∧
      s.SameObjs [Obj.CLK_STATE, Obj.FAULT_LOST] t) ∧
  (∀ (s : State) (c : Instr) (src kind inst : Nat), s.aon.por = false →
    (c = .pllUnlock ∧ src = 0x0D ∧ kind = 1 ∧ inst = 0 ∧ s.aon.shell = true ∧ s.obj Obj.CLK_STATE ≠ 6) ∨
    (∃ mv, c = .vcoreRange mv ∧ src = 0x1A ∧ kind = 2 ∧ inst = min 65535 mv) ∨
    (∃ mv, c = .vdd33Range mv ∧ src = 0x1A ∧ kind = 3 ∧ inst = min 65535 (mv / 10)) →
    ∃ t, exec c s = .next t ∧ t.stands src kind = true ∧
      (s.stands src kind = false → (s.col.bus.filter fun m => m.src == src).length < 4 →
        t.col.bus = s.col.bus ++ [{ src := src, kind := kind, inst := inst }]) ∧
      (s.stands src kind = true → t = s) ∧ s.OnlyParts [.objs, .col] t ∧ s.SameObjs [Obj.FAULT_LOST] t) ∧
  (∀ (s : State) (c : Instr) (src kind : Nat),
    (c = .pllLockHeld ∧ src = 0x0D ∧ kind = 1) ∨ (c = .referenceGood ∧ src = 0x0D ∧ kind = 2) ∨
    (c = .vcoreWithinRange ∧ src = 0x1A ∧ kind = 2) ∨ (c = .vdd33WithinRange ∧ src = 0x1A ∧ kind = 3) ∨
    (c = .coreBuckNormal ∧ src = 0x1A ∧ kind = 4 ∧ s.aon.buckOff = false) →
    ∃ t, exec c s = .next t ∧ t.stands src kind = false ∧ s.OnlyParts [.objs, .col] t ∧ s.SameObjs [Obj.FAULT_LOST] t) ∧
  (∀ s : State, s.aon.por = false → s.aon.buckOff = false →
    ∃ t, exec .coreBuckFault s = .next t ∧ t.aon = { s.aon with buckOff := true } ∧ t.stands 0x1A 4 = true ∧
      s.OnlyParts [.aon, .objs, .col] t ∧ s.SameObjs [Obj.FAULT_LOST] t) ∧
  (∀ s : State, exec .coreBuckRestart s = .next { s with aon := { s.aon with buckOff := false } }) ∧
  (∀ s : State, exec .tapReset s = .next { s with aon := { s.aon with tap := false } }) ∧
  (∀ s : State, exec .boundaryScanInstruction s = .next { s with aon := { s.aon with tap := true } })

/-- The window watchdog (R564-R573): a period starts with a token that is never 0 and never the previous one; a check-in inside its window
marks the identity; a window that closes without one is a violation, with its pulse of nFAILOVER and a new period. -/
def Obligations.WatchdogPeriodsAndCheckins : Prop :=
  (∀ s : State, s.shellUp = true → s.obj Obj.WD_STATE = 1 → s.wdQuiet = false → (∀ k, k < 16 → s.wdMissing k = false) →
    ∃ t, exec .wdPeriodStart s = .next t ∧ 1 ≤ t.obj Obj.WD_TOKEN ∧ t.obj Obj.WD_TOKEN ≤ 255 ∧
      t.obj Obj.WD_TOKEN ≠ s.obj Obj.WD_TOKEN ∧ t.obj Obj.WD_SEEN = 0 ∧ t.wd = { s.wdStored with tick := 0 } ∧
      s.OnlyParts [.objs, .wd, .free] t ∧ s.SameObjs [Obj.WD_TOKEN, Obj.WD_SEEN] t) ∧
  (∀ (k : Fin 8) (s : State), s.shellUp = true → s.obj Obj.WD_STATE = 1 → s.wdQuiet = false → s.wdMissing k.val = true → s.wdLive k.val = true →
    s.wd.open_.getD k.val 0 < s.wd.close.getD k.val 0 →
    ∃ t, exec (.wdHardwareCheckin k) s = .next t ∧ t.obj Obj.WD_SEEN = setBit (s.obj Obj.WD_SEEN) k.val true ∧
      s.OnlyParts [.objs, .wd, .seqs] t ∧ s.SameObjs [Obj.WD_SEEN] t) ∧
  (∀ (m : Master) (w n : Nat) (s : State), w < 65536 → s.served m = true → s.wdQuiet = false → (s.wdAt n).writeCode m Obj.WD_CHECKIN (leBytes 2 w) = 0 →
    field w 15 8 = s.obj Obj.WD_TOKEN → bit (s.obj Obj.WD_SEEN) (field w 3 0) = false →
    s.wd.open_.getD (field w 3 0) 0 ≤ max s.wd.tick n → max s.wd.tick n < s.wd.close.getD (field w 3 0) 0 →
    ∃ t, exec (.wdCheckin m w n) s = .next t ∧ t.obj Obj.WD_SEEN = setBit (s.obj Obj.WD_SEEN) (field w 3 0) true ∧ t.srv.code = 0 ∧
      s.OnlyParts [.objs, .wd, .srv] t ∧ s.SameObjs [Obj.WD_SEEN, Obj.OD_STATS_REQUESTS] t) ∧
  (∀ (k : Fin 16) (s : State), s.shellUp = true → s.obj Obj.WD_STATE = 1 → s.wdQuiet = false →
    (s.wdMissing k.val = false → exec (.wdWindowClose k) s = .next { s with wd := { s.wd with
      tick := max s.wd.tick (s.wd.close.getD k.val 0) } }) ∧
    (s.wdMissing k.val = true → k.val ≠ 5 → ∃ t, exec (.wdWindowClose k) s = .next t ∧ s.OnlyParts [.free, .objs, .aon, .col, .recs,
      .jrnl, .wd] t ∧ t.wd.pulse = 1 ∧
      t.obj Obj.WD_LAST_KIND = 4 ∧ t.obj Obj.WD_LAST_ID = k.val ∧ t.obj Obj.WD_LAST_TICK = s.wd.close.getD k.val 0 ∧
      t.obj Obj.WD_LAST_TOKEN = s.obj Obj.WD_TOKEN ∧ t.obj Obj.WD_SEEN = 0 ∧
      t.wd.pulseEnd = max s.wd.pulseEnd (s.now + us s.wd.failW) ∧ t.wd.quiet = s.now + us 1)) ∧
  (∀ (m : Master) (k v : Nat) (s : State), wdKey k = true → k ≠ Obj.WD_ENABLE → s.served m = true →
    v < 256 ^ (((s.keyType k).bind ObjType.size).getD 4) →
    s.writeCode m k (leBytes (((s.keyType k).bind ObjType.size).getD 4) v) = 0 →
    ∃ t, exec (.wdConfigWrite m k v) s = .next t ∧ s.OnlyParts [.objs, .jrnl, .srv, .wd] t ∧ t.obj k = v ∧
      t.jrnl.buf.read (fun _ => 0) k = v + 1 ∧ t.srv.code = 0)

/-- Thermal shutdown (R458-R462): a qualified trip stops every group, opens DISC_GATE and keeps its time; the release lets the groups go. -/
def Obligations.ThermalShutdownAndRelease : Prop :=
  (∀ (site : Fin 8) (s : State), s.tsdPowered = true → s.obj Obj.TSD_STATE = 0 →
    ∃ t, exec (.thermalShutdown site) s = .next t ∧ t.cell.trips = (s.now :: s.cell.trips).take 2 ∧
      (s.shellUp = false → t.obj Obj.TSD_STATE = 1 ∧ t.core.disc = false ∧ bit (t.g .input).stops 3 = true ∧
        bit (t.g .pack).stops 3 = true) ∧
      (s.shellUp = true → t.obj Obj.TSD_COUNT = satInc 0xFFFFFFFF (s.obj Obj.TSD_COUNT)) ∧
      s.OnlyParts [.objs, .core, .grp, .ph, .aon, .cell, .src, .col, .jrnl, .ring, .hz, .hour, .env, .link, .fab, .lin] t) ∧
  (∀ s : State, s.obj Obj.TSD_STATE = 1 → s.aon.overcast = false →
    ∃ t, exec .thermalShutdownRelease s = .next t ∧ t.obj Obj.TSD_STATE = 0 ∧
      (s.mode.stored = false ∨ s.shellUp = false ∨ s.bringing = true → (∀ g, s.hasGroup g = true → bit (t.g g).stops 3 = false)) ∧
      (s.shellUp = false → s.OnlyParts [.objs, .core, .grp, .col, .ring] t ∧ s.SameObjs [Obj.TSD_STATE, Obj.FAULT_LOST] t))

/-- The handshake port (R110, R111, R113, R116, R130): a word in its range stands pending with its HOLD bit, also as the one retry of a
parity refusal; one that fails parity or range is refused and changes no latch, and a range refusal goes back to the master whose write the
word carries; COMMIT releases what is held, HANDOVER lifts the Stratus limits, HEARTBEAT changes nothing. -/
def Obligations.PortWordsAndCommit : Prop :=
  (∀ (u v w : Nat) (src : Option (Master × Nat)) (s : State), (evenParity u = true ∧ w = u) ∨ (evenParity u = false ∧ w = v) →
    s.portOpen = true → evenParity w = true → s.wordDefined (field w 31 26) = true →
    wordInRange (field w 31 26) (field w 23 0) = true →
    ∃ t, exec (.portLatchWrite u v src) s = .next t ∧
      (bit w 25 = true ∨ s.idleGroups = [] → s.core.pend.all (fun x => x.id != field w 31 26) = true →
        t.core.pend = s.core.pend ++
          [{ id := field w 31 26, value := field w 23 0, held := bit w 25, wait := (s.wordGroups (field w 31 26)).filter s.hasGroup }] ∧
        t.core.refused = none ∧ t.core.words = s.core.words ∧
        t.ph = s.ph ∧ (field w 31 26 ≠ 5 → field w 31 26 ≠ 6 → t.grp = s.grp)) ∧
      s.OnlyParts [.objs, .core, .grp, .ph, .col, .ring] t) ∧
  (∀ (u v w : Nat) (src : Option (Master × Nat)) (s : State), (evenParity u = true ∧ w = u) ∨ (evenParity u = false ∧ w = v) →
    s.portOpen = true → evenParity w = false ∨ s.wordBad w = true →
    ∃ t, exec (.portLatchWrite u v src) s = .next t ∧ t.core.refused = some (field w 31 26) ∧ t.core.words = s.core.words ∧
      t.core.pend = s.core.pend ∧ (evenParity w = true → src ≠ none → t.srv.code = 9) ∧
      s.OnlyParts [.objs, .core, .grp, .ph, .col, .srv, .ring] t) ∧
  (∀ (w v : Nat) (src : Option (Master × Nat)) (s : State), s.portOpen = true → evenParity w = true → field w 31 26 = 0x3E →
    s.idleGroups = [] → ∃ t, exec (.portLatchWrite w v src) s = .next t ∧ (∀ g, (t.g g).lift = true) ∧ (∀ x ∈ t.core.pend, x.held = false) ∧
      s.OnlyParts [.objs, .core, .grp, .ph, .strat, .col, .ring] t) ∧
  (∀ s : State, s.portOpen = true →
    ∃ t, exec .commit s = .next t ∧ (∀ x ∈ t.core.pend, x.held = false) ∧
      (s.idleGroups = [] →
        t = { s with core := { s.core with pend := s.core.pend.map fun (x : PendWord) => { x with held := false } } }) ∧
      s.OnlyParts [.objs, .core, .grp, .ph, .col, .ring] t) ∧
  (∀ s : State, exec .heartbeat s = .next s)

/-- A phase's cycle (R88-R91, R103, R122, R144, R167, R454): the controlled switch turns on at the start instant, at once or after the rest
of the dead time; it ends where ISNSn has reached the peak command less the ramp, not inside the blanking time, and at the end of the
maximum on-time; the phase then stands at Z for the dead time with the complementary switch due. In soft-start the complementary switch ends
at a zero crossing. And the envelope feedforward (R52, R95). -/
def Obligations.PhaseCycleAndFeedforward : Prop :=
  (∀ (p : Fin 16) (s : State), s.switching p.val = true →
    ∃ t, exec (.phaseCycleStart p) s = .next t ∧ (t.phase p.val).cut = false ∧ (t.phase p.val).left = s.cycleTime (groupOf p.val) ∧
      ((s.phase p.val).skip = true ∨ s.heldOff (groupOf p.val) = true → (t.phase p.val).on = false ∧ (t.phase p.val).level = .Z ∧
        (t.phase p.val).skip = false) ∧
      ((s.phase p.val).skip = false → s.heldOff (groupOf p.val) = false → (t.phase p.val).on = true ∧
        (((t.phase p.val).level = s.ctrl (groupOf p.val) ∧ (t.phase p.val).dead = 0) ∨
          ((t.phase p.val).level = .Z ∧ 0 < (t.phase p.val).dead ∧ (t.phase p.val).due = s.ctrl (groupOf p.val))) ∧
        ((s.phase p.val).level = s.compl (groupOf p.val) → (t.phase p.val).level = .Z ∧
          (t.phase p.val).dead = s.deadTime (groupOf p.val) (s.compl (groupOf p.val)))) ∧
      ((s.phase p.val).cut = false → (t.phase p.val).peakRun = 0 ∧ ∀ m ∈ t.core.conds, ¬(m.src = 1 ∧ m.kind = 1 ∧ m.inst = p.val)) ∧
      ((s.phase p.val).cut = true → (t.phase p.val).peakRun = (s.phase p.val).peakRun ∧ t.core = s.core) ∧
      (∀ q, q ≠ p.val → t.phase q = s.phase q) ∧ s.OnlyParts [.objs, .core, .ph, .col] t) ∧
  (∀ (p : Fin 16) (isns : Int) (ns : Nat) (s : State), s.switching p.val = true →
    ((s.phase p.val).on = true → 5 * field (s.word (36 + (groupOf p.val).num)) 21 16 ≤ ns → s.threshold p.val ns ≤ s.sensed p.val isns →
      ∃ t, exec (.currentTermination p isns ns) s = .next t ∧ (t.phase p.val).on = false ∧ (t.phase p.val).level = .Z ∧
        ((s.phase p.val).cut = false → (t.phase p.val).due = s.compl (groupOf p.val) ∧
          (t.phase p.val).dead = s.deadTime (groupOf p.val) (s.ctrl (groupOf p.val))) ∧
        (t.phase p.val).blankHits =
          (if ns = 5 * field (s.word (36 + (groupOf p.val).num)) 21 16 ∧ (s.phase p.val).blankHits = 0 then 1 else 0) ∧
        (t.phase p.val).skip = ((s.phase p.val).skip ||
          (ns == 5 * field (s.word (36 + (groupOf p.val).num)) 21 16 && (s.phase p.val).blankHits != 0)) ∧
        (∀ q, q ≠ p.val → t.phase q = s.phase q) ∧ s.OnlyParts [.ph] t) ∧
    ((s.phase p.val).on = true → ns < 5 * field (s.word (36 + (groupOf p.val).num)) 21 16 ∨ s.sensed p.val isns < s.threshold p.val ns →
      exec (.currentTermination p isns ns) s = .next s) ∧
    ((s.phase p.val).on = false → (s.g (groupOf p.val)).diode = true → s.sensed p.val isns ≤ 0 →
      ∃ t, exec (.currentTermination p isns ns) s = .next t ∧ (t.phase p.val).level = .Z ∧ (t.phase p.val).on = false ∧
        (∀ q, q ≠ p.val → t.phase q = s.phase q) ∧ s.OnlyParts [.ph] t)) ∧
  (∀ (p : Fin 16) (s : State), s.switching p.val = true → (s.phase p.val).on = true →
    ∃ t, exec (.maxOnTimeEnd p) s = .next t ∧ (t.phase p.val).on = false ∧ (t.phase p.val).blankHits = 0 ∧
      (t.phase p.val).level = .Z ∧ ((s.phase p.val).cut = false → (t.phase p.val).due = s.compl (groupOf p.val) ∧
        (t.phase p.val).dead = s.deadTime (groupOf p.val) (s.ctrl (groupOf p.val))) ∧
      (∀ q, q ≠ p.val → t.phase q = s.phase q) ∧ s.OnlyParts [.ph] t) ∧
  (∀ (g : Group) (iff : Int) (s : State),
    ∃ t, exec (.feedforwardUpdate g iff) s = .next t ∧
      (t.g g).iff = (if !s.ffMode || s.strat.absent || !s.hasGroup g || (g == .input && !s.core.disc) then 0 else iff) ∧
      (t.g g).ffRise = max (s.g g).ffRise ((t.g g).iff.natAbs - (s.g g).iff.natAbs) ∧ (∀ h, h ≠ g → t.g h = s.g h) ∧
      s.OnlyParts [.grp] t)

/-- The hardwired protections (R119, R122-R124): after a current peak the phase stands at Z for the cycle, and latched after the third; a
stage fault latches it; the rail over-voltage stops the input group and turns off the controlled switches of every boost direction, then
opens DISC_GATE; below 104 % it is released, a persisting one only after 10 ms below. The delay-line servos (R105) and the speed monitor
(R106-R109): the index, its latency estimate, its minima, its two runs. -/
def Obligations.ProtectionsAndServos : Prop :=
  (∀ (p : Fin 16) (s : State), s.switching p.val = true → (s.phase p.val).cut = false →
    ∃ t, exec (.phasePeak p) s = .next t ∧ (t.phase p.val).on = false ∧ (t.phase p.val).level = .Z ∧ (t.phase p.val).cut = true ∧
      (t.phase p.val).peakRun = (s.phase p.val).peakRun + 1 ∧ t.pwm p.val = .Z ∧
      (2 ≤ (s.phase p.val).peakRun → (t.phase p.val).code = 5 ∧ (t.phase p.val).weight = 0) ∧
      ((s.phase p.val).peakRun < 2 → (t.phase p.val).code = (s.phase p.val).code ∧ t.grp = s.grp) ∧
      (∀ q, q ≠ p.val → t.phase q = s.phase q) ∧ s.OnlyParts [.objs, .core, .grp, .ph, .col, .recs, .ring] t) ∧
  (∀ (p : Fin 16) (s : State), (s.phasesOf (groupOf p.val)).contains p.val = true → s.aon.por = false → (s.phase p.val).code ≠ 5 →
    ∃ t, exec (.stageFault p) s = .next t ∧ (t.phase p.val).code = 5 ∧ (t.phase p.val).weight = 0 ∧ (t.phase p.val).on = false ∧
      t.pwm p.val = .Z ∧ t.core.conds.contains { src := 1, kind := 3, inst := p.val } = true ∧
      ((s.phase p.val).weight ≠ 0 → (t.g (groupOf p.val)).frozenLeft = 16) ∧
      (∀ q, q ≠ p.val → t.phase q = s.phase q) ∧ s.OnlyParts [.objs, .core, .grp, .ph, .col, .ring] t) ∧
  (∀ s : State, s.core.railOv = 0 ∨ s.core.railOv = 3 → s.convOff = false →
    ∃ t, exec .railOv s = .next t ∧ t.core.railOv = (if s.core.railOv = 3 then 2 else 1) ∧ t.core.disc = s.core.disc ∧
      bit (t.g .input).stops 5 = true ∧
      (∀ p ∈ s.phasesOf .input, t.pwm p = .Z) ∧ t.core.conds.contains { src := 1, kind := 4, inst := 0 } = true ∧
      (∀ g ∈ s.groups, s.ctrl g = .L → ∀ p ∈ s.phasesOf g, (t.phase p).on = false) ∧
      s.OnlyParts [.objs, .core, .grp, .ph, .col, .ring] t) ∧
  (∀ s : State, s.core.railOv = 1 →
    ∃ t, exec .railOvPersist s = .next t ∧ t.core.railOv = 2 ∧ t.core.disc = false ∧ (∀ p, p < 6 → t.pwm p = .Z) ∧
      s.OnlyParts [.objs, .core, .grp, .ph, .col, .ring] t ∧ s.SameObjs [Obj.FAULT_LOST] t) ∧
  (∀ (held : Bool) (vbus vrail : Nat) (s : State), s.core.railOv = 1 ∨ (s.core.railOv ≠ 0 ∧ held = true) →
    ∃ t, exec (.railOvRelease held vbus vrail) s = .next t ∧ t.core.railOv = 0 ∧ bit (t.g .input).stops 5 = false ∧
      (∀ m ∈ t.core.conds, ¬(m.src = 1 ∧ m.kind = (if s.core.railOv = 1 then 4 else 5))) ∧
      s.OnlyParts [.objs, .core, .grp, .ph, .src, .col, .ring] t) ∧
  (∀ (vbus vrail : Nat) (s : State), s.core.railOv = 2 →
    ∃ t, exec (.railOvRelease false vbus vrail) s = .next t ∧ t.core.railOv = 3 ∧ t.core.disc = s.core.disc ∧
      (∀ g, (t.g g).stops = (s.g g).stops) ∧ (∀ m ∈ t.core.conds, ¬(m.src = 1 ∧ m.kind = 4)) ∧
      s.OnlyParts [.objs, .core, .grp, .col, .ring] t ∧ s.SameObjs [Obj.FAULT_LOST] t) ∧
  (∀ (g : Group) (s : State), s.hasGroup g = true → (s.g g).servo = true → s.aon.por = false →
    ∃ t, exec (.servoUnlock g) s = .next t ∧ t.g g = { s.g g with servo := false } ∧ (∀ h, h ≠ g → t.g h = s.g h) ∧
      t.core.conds.contains { src := 1, kind := 9, inst := g.num } = true ∧ s.OnlyParts [.objs, .core, .grp, .col] t ∧
      s.SameObjs [Obj.FAULT_LOST] t) ∧
  (∀ (g : Group) (s : State), (s.g g).servo = false →
    ∃ t, exec (.servoRelock g) s = .next t ∧ t.g g = { s.g g with servo := true } ∧ (∀ h, h ≠ g → t.g h = s.g h) ∧
      (∀ m ∈ t.core.conds, ¬(m.src = 1 ∧ m.kind = 9 ∧ m.inst = g.num)) ∧ s.OnlyParts [.objs, .core, .grp, .col] t ∧
      s.SameObjs [Obj.FAULT_LOST] t) ∧
  (∀ (count : Nat) (s : State), s.shellUp = true →
    ∃ t, exec (.coreSpeedUpdate count) s = .next t ∧
      t.obj Obj.CORE_SPEED_INDEX = min 65535 (if s.otpTypCount = 0 then 0 else count * 1000 / s.otpTypCount) ∧
      t.obj Obj.CORE_SPEED_LATENCY = (if t.obj Obj.CORE_SPEED_INDEX = 0 then 65535 else
        min 65535 (700 * 1000 / t.obj Obj.CORE_SPEED_INDEX)) ∧
      t.obj Obj.CORE_SPEED_MIN = min (s.obj Obj.CORE_SPEED_MIN) (t.obj Obj.CORE_SPEED_INDEX) ∧
      t.obj Obj.CORE_SPEED_LIFE_MIN = min (s.obj Obj.CORE_SPEED_LIFE_MIN) (t.obj Obj.CORE_SPEED_INDEX) ∧
      t.spd = ⟨runStep s.spd.slow (t.obj Obj.CORE_SPEED_INDEX < s.obj Obj.CORE_SLOW_LIMIT),
        runStep s.spd.very (t.obj Obj.CORE_SPEED_INDEX < 450)⟩ ∧
      s.OnlyParts [.objs, .col, .spd, .jrnl, .hz] t ∧ s.SameObjs [Obj.CORE_SPEED_INDEX, Obj.CORE_SPEED_LATENCY, Obj.CORE_SPEED_MIN,
        Obj.CORE_SPEED_LIFE_MIN, Obj.OD_JOURNAL, Obj.FAULT_LOST] t)

/-- One switching-cycle boundary (R24, R92, R95, R126, R142, R164, R169, R214): the sample is taken, the command is the group's share, its
feedforward and a classification's step, the input group only ever delivers into the rail, and a Provider's share is what its own loop asks
for. And the shedding a boundary may lead to (R152). Balancing (R158-R160): sixteen boundaries make an interval; while it stands still no
trim moves, and otherwise the trim of every ACTIVE phase that balances itself stays within its clamp. The zero level of a phase is measured
(R141). -/
def Obligations.GroupBoundaryAndBalancing : Prop :=
  (∀ (g : Group) (x : Sample) (s : State), s.hasGroup g = true → (s.g g).freq ≠ 0 →
    ∃ t, exec (.switchingCycleBoundary g x) s = .next t ∧ (t.g g).vrail = x.vrail ∧ (t.g g).vlow = x.vlow ∧
      (t.g g).ffRise = 0 ∧
      (t.g g).icmd = (t.g g).iv + (if s.strat.absent = true ∧ (s.g g).stratus = false then 0 else (s.g g).iff) - (s.g g).step ∧
      (g = .input → (t.g g).iv ≤ 0 ∧ ((t.g g).soft = false → (t.g g).dwell = false → (t.g g).deliver = true)) ∧
      (∀ p, g.port? = some p → t.provider p = true → 0 ≤ (t.g g).iv ∧ (t.g g).iv ≤ x.iexp) ∧
      (t.g g).fold ≤ (s.g g).fold + 62500 ∧
      (s.strat.absent = true → (s.g g).stratus = false → (s.g g).lift = false →
        t.strat.active = true ∧ (t.g g).stratus = true ∧ (t.g g).iff = 0) ∧
      (∀ p, p ∉ s.phasesOf g → (t.phase p).weight = (s.phase p).weight ∧ (t.phase p).code = (s.phase p).code) ∧
      (bit (s.g g).stops 1 = false → ∀ h, h ≠ g → t.g h = s.g h) ∧
      s.OnlyParts [.objs, .core, .grp, .ph, .strat, .col, .ring, .hz] t ∧ s.SameObjs [Obj.FAULT_LOST, Obj.HZ_STATE] t) ∧
  (∀ (g : Group) (p : Nat) (s : State), s.mayShed g = true →
    ((s.byPos g).filter fun q => (s.phase q).weight == 4).getLast? = some p →
    ∃ t, exec (.shedDecision g) s = .next t ∧ t.phase p = { s.phase p with code := 4, weight := 3 } ∧
      (∀ q, q ≠ p → t.phase q = s.phase q) ∧ t.g g = { s.g g with shedCount := 0 } ∧
      (∀ h, h ≠ g → t.g h = s.g h) ∧ s.OnlyParts [.objs, .grp, .ph, .col, .ring] t ∧ s.SameObjs [Obj.FAULT_LOST] t) ∧
  (∀ (g : Group) (s : State), (s.g g).blockLeft = 1 →
    exec (.shedBlockEnd g) s = .next (s.modG g fun x => { x with blockLeft := 0 })) ∧
  (∀ (g : Group) (avg : List Int) (s : State), s.hasGroup g = true → (s.g g).cycles16 = 16 →
    ∃ t, exec (.balancingUpdate g avg) s = .next t ∧ t.g g = { s.g g with cycles16 := 0 } ∧ (∀ h, h ≠ g → t.g h = s.g h) ∧
      (s.balFrozen g = true → ∀ p, (t.phase p).trim = (s.phase p).trim) ∧
      (s.balFrozen g = false → ∀ p ∈ s.phasesOf g, (s.phase p).code = 3 →
        (bit (s.word (16 + p)) 22 = true → (t.phase p).trim.natAbs ≤ 64 * field (s.word (16 + p)) 18 13) ∧
        (bit (s.word (16 + p)) 22 = false → (t.phase p).trim = 0)) ∧
      (∀ p, p ∉ s.phasesOf g ∨ (s.phase p).code ≠ 3 → t.phase p = s.phase p) ∧
      (∀ p ∈ s.phasesOf g, (s.phase p).code = 3 → (t.phase p).avg =
        (if (s.g g).deliver then avg.getD (p - baseOf g) 0 else - avg.getD (p - baseOf g) 0)) ∧
      (s.balFrozen g = true → t.hz = s.hz) ∧ s.OnlyParts [.grp, .ph, .hz] t) ∧
  (∀ (p : Fin 16) (mv : Nat) (s : State), (s.phasesOf (groupOf p.val)).contains p.val = true → s.pwm p.val = .Z →
    ∃ t, exec (.isnsZeroMeasurement p mv) s = .next t ∧ (t.phase p.val).zero = mv ∧
      (800 ≤ mv ∧ mv ≤ 1700 → (t.phase p.val).zeroBad = false ∧
        ∀ m ∈ t.core.conds, ¬(m.src = sourceOf (groupOf p.val) ∧ m.kind = 3 ∧ m.inst = p.val)) ∧
      (mv < 800 ∨ 1700 < mv → (t.phase p.val).code = 5 ∧ (t.phase p.val).weight = 0 ∧ (t.phase p.val).zeroBad = true ∧
        t.pwm p.val = .Z ∧ t.core.conds.contains { src := sourceOf (groupOf p.val), kind := 3, inst := p.val } = true) ∧
      ((s.phase p.val).latched = true → (t.phase p.val).code = (s.phase p.val).code ∨ (t.phase p.val).code = 5) ∧
      (∀ q, q ≠ p.val → t.phase q = s.phase q) ∧ s.OnlyParts [.objs, .core, .grp, .ph, .col, .ring] t ∧ s.SameObjs [Obj.FAULT_LOST] t)

/-- Fold-back (R169-R171) and soft-start (R167): a stop holds the whole group at Z and the third within 10 s locks it out; a restart frees
it; soft-start ends after 256 cycles at the reference. Events of the groups (R161, R171, R177, R501): each offers one message, to the fault
bus or, while the shell is absent, to the core's queue, and changes nothing else. -/
def Obligations.GroupStopsAndEvents : Prop :=
  (∀ (g : Group) (s : State), (s.g g).fold < 1000000 → (s.g g).q < 500000 → (s.g g).foldStopped = false →
    ∃ t, exec (.foldStop g) s = .next t ∧ bit (t.g g).stops 2 = true ∧ (t.g g).foldStopped = true ∧
      (t.g g).foldStops = s.now :: ((s.g g).foldStops.filter fun x => s.now < x + sec 10) ∧
      (t.g g).foldLocked = ((s.g g).foldLocked || decide (3 ≤ (t.g g).foldStops.length)) ∧
      (∀ p ∈ s.phasesOf g, t.pwm p = .Z) ∧ (∀ h, h ≠ g → t.g h = s.g h) ∧
      s.OnlyParts [.objs, .core, .grp, .ph, .col, .ring] t ∧ s.SameObjs [Obj.FAULT_LOST] t) ∧
  (∀ (g : Group) (s : State), (s.g g).foldStopped = true → (s.g g).foldLocked = false →
    ∃ t, exec (.foldRestart g) s = .next t ∧ bit (t.g g).stops 2 = false ∧ (t.g g).foldStopped = false ∧
      (t.g g).fold = 1000000 ∧ (∀ h, h ≠ g → t.g h = s.g h) ∧ s.OnlyParts [.objs, .grp, .col, .ring] t ∧
      s.SameObjs [Obj.FAULT_LOST] t) ∧
  (∀ (g : Group) (s : State), (s.g g).soft = true → 256 ≤ (s.g g).softCycles → (s.g g).vref = s.vTarget g →
    exec (.softStartEnd g) s = .next (s.modG g fun x => { x with soft := false })) ∧
  (∀ (s : State) (c : Instr) (src kind inst : Nat),
    (∃ g, c = .foldback g ∧ (s.g g).fold < 1000000 ∧ src = sourceOf g ∧ kind = 5 ∧ inst = (s.g g).fold / 1000) ∨
    (∃ g, c = .syncRange g ∧ (s.g g).sync = 1 ∧ src = sourceOf g ∧ kind = 9 ∧ inst = (s.g g).freq / 10 % 65536) ∨
    (∃ p : Fin 16, c = .balAtClamp p ∧ bit (s.word (16 + p.val)) 22 = true ∧ field (s.word (16 + p.val)) 18 13 ≠ 0 ∧
      (s.phase p.val).trim.natAbs = 64 * field (s.word (16 + p.val)) 18 13 ∧ src = sourceOf (groupOf p.val) ∧ kind = 4 ∧
      inst = p.val) →
    (s.strat.absent = false → (s.col.bus.filter fun m => m.src == src).length < 4 →
      exec c s = .next { s with col := { s.col with bus := s.col.bus ++ [{ src := src, kind := kind, inst := inst }] } }) ∧
    (s.strat.absent = true → s.core.queue.length < 16 →
      exec c s = .next { s with
        core := { s.core with queue := s.core.queue ++ [{ src := src, kind := kind, inst := inst, stamp := some s.stamp }] } }) ∧
    ∃ t, exec c s = .next t ∧ s.OnlyParts [.objs, .core, .col] t ∧ s.SameObjs [Obj.FAULT_LOST] t)

/-- Synchronisation (R176-R180): a boundary with the reference there starts the acquisition, from the present period, and moves the period
by at most 1 % while it tracks; 64 cycles at the target instants make a lock; its loss; the check of locked frequencies against the
frequency plan. -/
def Obligations.Synchronisation : Prop :=
  (∀ (g : Group) (x : Sample) (s : State), s.hasGroup g = true → (s.g g).freq ≠ 0 → s.core.pend = [] → s.syncSource g ≠ 0 →
    (s.g g).syncBarred = false → s.refFreq g x.fsync ≠ 0 →
    ∃ t, exec (.switchingCycleBoundary g x) s = .next t ∧ s.OnlyParts [.objs, .core, .grp, .ph, .strat, .col, .ring, .hz] t ∧
      ((s.g g).sync = 0 ∨ 3 ≤ (s.g g).sync → (t.g g).sync = 1 ∧ (t.g g).lockRun = 0 ∧ (t.g g).period = (s.g g).period) ∧
      ((s.g g).sync = 1 ∨ (s.g g).sync = 2 → (t.g g).sync = (s.g g).sync ∧
        (t.g g).period ≤ (s.g g).period + (s.g g).period / 100 ∧ (s.g g).period ≤ (t.g g).period + (s.g g).period / 100 ∧
        ((t.g g).lockRun = 0 ∨ (t.g g).lockRun = (s.g g).lockRun + 1))) ∧
  (∀ (g : Group) (s : State), (s.g g).sync = 1 →
    (64 ≤ (s.g g).lockRun → ∃ t, exec (.syncLocked g) s = .next t ∧ t.g g = { s.g g with sync := 2 } ∧
      (∀ h, h ≠ g → t.g h = s.g h) ∧ s.OnlyParts [.objs, .grp, .col, .ring] t ∧ s.SameObjs [Obj.FAULT_LOST] t) ∧
    ((s.g g).lockRun < 64 → exec (.syncLocked g) s = .next s)) ∧
  (∀ (g : Group) (s : State), (s.g g).sync = 2 →
    ∃ t, exec (.syncLost g) s = .next t ∧ t.g g = { s.g g with sync := 3, freqLoss := (s.g g).freq, slewed := 0 } ∧
      (∀ h, h ≠ g → t.g h = s.g h) ∧ s.OnlyParts [.objs, .core, .grp, .col, .ring] t ∧ s.SameObjs [Obj.FAULT_LOST] t) ∧
  (∀ s : State, s.shellUp = true → s.idleGroups = [] →
    ∃ t, exec .freqPlanCheck s = .next t ∧
      (∀ g, t.g g = { s.g g with syncBarred := (s.g g).syncBarred ||
        (s.hasGroup g && (s.g g).sync == 2 && s.bandHit g) }) ∧
      ((∀ g, s.hasGroup g = true → (s.g g).sync = 2 → s.bandHit g = false) → t = s) ∧
      s.OnlyParts [.objs, .core, .grp, .ph, .col, .ring] t)

/-- A drop, a reverse current and a load dump (R38, R76, R78, R205, R206, R209, R218, R219): DISC_GATE goes off, the hour counts it, the
shell enters Ride-through (or Storage where every source is exhausted; in a thermal shutdown the mode stands); with the shell away the core
acts alone and the event is kept for it. A threshold of 0 disables the load-dump trip. -/
def Obligations.DropsAndDumps : Prop :=
  (∀ (vbus : Nat) (s : State), s.connected = true → s.shellUp = true →
    ∃ t, exec (.vbusDrop vbus) s = .next t ∧ t.core.disc = false ∧ t.core.precharge = false ∧
      t.hour = { s.hour with drops := s.hour.drops + 1 } ∧
      (t.modeNow ≠ 0 → t.src.discAt = some (s.src.discAt.getD s.now)) ∧
      (s.core.disc = true → s.inMode [2, 3, 5] = true → s.bringing = false → s.mode.railOff = false → s.aon.overcast = false →
        s.mode.park ≠ 5 → s.obj Obj.TSD_STATE = 0 → (s.packDead = false → t.modeNow = 4) ∧
          ((t.modeNow = 4 ∧ t.obj Obj.MODE_PREV = s.modeNow ∧ t.obj Obj.MODE_CAUSE = 6) ∨
            (t.modeNow = 0 ∧ t.obj Obj.MODE_CAUSE = 9))) ∧
      (s.obj Obj.TSD_STATE = 1 → t.modeNow = s.modeNow) ∧
      s.OnlyParts [.objs, .core, .grp, .ph, .aon, .strat, .mode, .src, .col, .spd, .jrnl, .meas, .ring, .hz, .hour, .env, .chg,
        .link, .fab, .seqs, .flash, .srv, .can, .note] t) ∧
  (∀ (vbus : Nat) (s : State), s.connected = true → s.shellUp = false → s.strat.absent = false →
    ∃ t, exec (.vbusDrop vbus) s = .next t ∧ t.core.disc = false ∧ t.core.precharge = false ∧ t.core.dropped = true ∧
      t.core.rideFromOn = s.core.disc ∧ (∀ p, p < 6 → t.pwm p = .Z) ∧
      t.src = { s.src with missedDrops := s.src.missedDrops + 1, discAt := some (s.src.discAt.getD s.now) } ∧
      s.OnlyParts [.objs, .core, .grp, .ph, .src, .col, .ring] t ∧ s.SameObjs [Obj.FAULT_LOST] t) ∧
  (∀ (p : Fin 16) (first : Bool) (vbus : Nat) (s : State), (s.phasesOf .input).contains p.val = true → groupOf p.val = .input → s.core.disc = true → s.shellUp = true →
    ∃ t, exec (.reverseCurrent p first vbus) s = .next t ∧ t.core.disc = false ∧ t.core.precharge = false ∧
      t.hour = { s.hour with drops := s.hour.drops + 1 } ∧
      (t.modeNow ≠ 0 → t.src.discAt = some (s.src.discAt.getD s.now)) ∧
      (s.core.disc = true → s.inMode [2, 3, 5] = true → s.bringing = false → s.mode.railOff = false → s.aon.overcast = false →
        s.mode.park ≠ 5 → s.obj Obj.TSD_STATE = 0 → (s.packDead = false → t.modeNow = 4) ∧
          ((t.modeNow = 4 ∧ t.obj Obj.MODE_PREV = s.modeNow ∧ t.obj Obj.MODE_CAUSE = 6) ∨
            (t.modeNow = 0 ∧ t.obj Obj.MODE_CAUSE = 9))) ∧
      (s.obj Obj.TSD_STATE = 1 → t.modeNow = s.modeNow) ∧
      s.OnlyParts [.objs, .core, .grp, .ph, .aon, .strat, .mode, .src, .col, .spd, .jrnl, .meas, .ring, .hz, .hour, .env, .chg,
        .link, .fab, .seqs, .flash, .srv, .can, .note] t) ∧
  (∀ (p : Fin 16) (first : Bool) (vbus : Nat) (s : State), (s.phasesOf .input).contains p.val = true → groupOf p.val = .input → s.core.disc = true → s.shellUp = false → s.strat.absent = false →
    ∃ t, exec (.reverseCurrent p first vbus) s = .next t ∧ t.core.disc = false ∧ t.core.precharge = false ∧ t.core.dropped = true ∧
      t.core.rideFromOn = s.core.disc ∧ (∀ p, p < 6 → t.pwm p = .Z) ∧
      t.src = { s.src with missedDrops := s.src.missedDrops + 1, discAt := some (s.src.discAt.getD s.now) } ∧
      s.OnlyParts [.objs, .core, .grp, .ph, .src, .col, .ring] t ∧ s.SameObjs [Obj.FAULT_LOST] t) ∧
  (∀ (vbus : Nat) (s : State), s.connected = true → s.dumpAt ≠ 0 → s.core.dumped = false → s.shellUp = true →
    ∃ t, exec (.loadDump vbus) s = .next t ∧ t.core.disc = false ∧ t.core.precharge = false ∧
      t.hour = { s.hour with dumps := s.hour.dumps + 1 } ∧
      (t.modeNow ≠ 0 → t.src.discAt = some (s.src.discAt.getD s.now)) ∧
      (s.core.disc = true → s.inMode [2, 3, 5] = true → s.bringing = false → s.mode.railOff = false → s.aon.overcast = false →
        s.mode.park ≠ 5 → s.obj Obj.TSD_STATE = 0 → (s.packDead = false → t.modeNow = 4) ∧
          ((t.modeNow = 4 ∧ t.obj Obj.MODE_PREV = s.modeNow ∧ t.obj Obj.MODE_CAUSE = 7) ∨
            (t.modeNow = 0 ∧ t.obj Obj.MODE_CAUSE = 9))) ∧
      (s.obj Obj.TSD_STATE = 1 → t.modeNow = s.modeNow) ∧
      s.OnlyParts [.objs, .core, .grp, .ph, .aon, .strat, .mode, .src, .col, .spd, .jrnl, .meas, .ring, .hz, .hour, .env, .chg,
        .link, .fab, .seqs, .flash, .srv, .can, .note] t) ∧
  (∀ (vbus : Nat) (s : State), s.connected = true → s.dumpAt ≠ 0 → s.core.dumped = false → s.shellUp = false →
    ∃ t, exec (.loadDump vbus) s = .next t ∧ t.core.disc = false ∧ t.core.precharge = false ∧ t.core.dumped = true ∧
      t.core.rideFromOn = (s.core.rideFromOn || s.core.disc) ∧ (∀ p, p < 6 → t.pwm p = .Z) ∧
      t.src = { s.src with missedDumps := s.src.missedDumps + 1, discAt := some (s.src.discAt.getD s.now) } ∧
      s.OnlyParts [.objs, .core, .grp, .ph, .src, .col, .ring] t ∧ s.SameObjs [Obj.FAULT_LOST] t) ∧
  (∀ (vbus : Nat) (s : State), s.dumpAt = 0 → exec (.loadDump vbus) s = .next s)

/-- The source is connected again (R25, R204, R211), opened over the rail, or gone (R185, R212). -/
def Obligations.ReconnectionAndDetach : Prop :=
  (∀ (s : State) (c : Instr) (vbus vrail : Nat), 6000 ≤ vbus → vbus ≤ 60000 → s.core.disc = false →
    ((∃ held, c = .sourceReconnect held vbus vrail ∧ 1000 * s.qualify ≤ held) ∧ s.resumes vbus = true ∧
      (s.core.dropped || s.core.dumped) = true ∧ s.src.cls = 0 ∧ s.aon.por = false ∧
      s.obj Obj.TSD_STATE = 0 ∧ s.core.overRail = false ∧ s.convOff = false) ∨
    (c = .overRailReconnect vbus vrail ∧ s.core.overRail = true ∧ vbus < 50 * s.word 0 ∧ s.core.dropped = false ∧
      s.core.dumped = false ∧ s.src.cls = 0) →
    s.shellUp = false ∨ (s.src.waiting = false ∧ s.src.reclass = false ∧
      (s.modeNow ≠ 4 ∨ (s.mode.parkRestart = false ∧ s.mode.stored = false))) →
    ∃ t, exec c s = .next t ∧
      (s.shellUp = false ∨ s.modeNow ≠ 4 → t.core = { s.core with
          disc := true, precharge := decide (vrail + 2000 < vbus), dropped := false, dumped := false, rideFromOn := false
          overRail := false, gateOff := false } ∧ bit (t.g .input).stops 0 = false) ∧
      (s.shellUp = true → s.modeNow ≠ 4 → t.obj Obj.SRC_STATE = 2 ∧ t.src.discAt = none) ∧
      (s.shellUp = true → s.modeNow = 4 → t.modeNow = s.obj Obj.MODE_PREV ∧ t.obj Obj.MODE_PREV = 4 ∧ t.obj Obj.MODE_CAUSE = 8) ∧
      s.OnlyParts [.objs, .core, .grp, .ph, .aon, .strat, .mode, .src, .col, .spd, .jrnl, .meas, .ring, .hz, .hour, .env, .chg, .link, .fab,
        .seqs, .flash, .srv, .can, .note] t) ∧
  (∀ (held vbus vrail : Nat) (s : State), s.resumes vbus = false ∨ held < 1000 * s.qualify →
    exec (.sourceReconnect held vbus vrail) s = .next s) ∧
  (∀ (vbus : Nat) (s : State), s.connected = true → 50 * s.word 0 + 1000 < vbus →
    ∃ t, exec (.overRail vbus) s = .next t ∧
      t.core = { s.core with disc := false, precharge := false, gateOff := false, overRail := true } ∧
      bit (t.g .input).stops 0 = true ∧ (∀ p, p < 6 → t.pwm p = .Z) ∧ (s.shellUp = true → t.obj Obj.SRC_STATE = 5) ∧
      (s.shellUp = false → t.src = { s.src with missedOver := s.src.missedOver + 1, missedOverV := vbus / 100 }) ∧
      s.OnlyParts [.objs, .core, .grp, .ph, .src, .col, .jrnl, .ring, .hz] t) ∧
  (∀ s : State, s.shellUp = true → s.obj Obj.SRC_STATE ≠ 0 →
    ∃ t, exec .vbusDetach s = .next t ∧ s.OnlyParts [.objs, .core, .grp, .ph, .aon, .strat, .mode, .src, .col, .spd, .jrnl, .meas, .ring,
      .hz, .env, .chg, .link, .fab, .seqs, .flash, .srv, .can, .note] t ∧ t.src.waiting = false ∧ t.src.discAt = s.src.discAt ∧
        t.src.cls = 0 ∧
      (s.railMode = false → t.obj Obj.SRC_STATE = 0 ∧ t.core = { s.core with
        disc := false, precharge := false, gateOff := false, dropped := false, dumped := false, overRail := false, busLow := true } ∧
        t.obj Obj.SRC_TYPE = s.obj Obj.SRC_TYPE))

/-- The turn-on of DISC_GATE ends (R204); an open or a shorted path blocks the source (R207); too little headroom stops a group (R31); pass-
through holds the input phases at H, those at another level after the dead time at Z (R89, R94); a stalled core puts every driver at Z and
sets the Overcast latch (R120). -/
def Obligations.DisconnectPathAndCoreStops : Prop :=
  (∀ s : State, s.core.precharge = true →
    ∃ t, exec .prechargeComplete s = .next t ∧ t.core = { s.core with precharge := false } ∧
      (s.src.cls = 0 → s.core.disc = true → bit (t.g .input).stops 8 = false) ∧
      (s.src.cls ≠ 0 ∨ s.core.disc = false → t.grp = s.grp) ∧ s.OnlyParts [.objs, .core, .grp, .col, .ring] t ∧
        s.SameObjs [Obj.FAULT_LOST] t) ∧
  (∀ (s : State) (c : Instr), (c = .discOpen ∧ s.core.precharge = true) ∨
    (∃ p : Fin 16, c = .discShort p ∧ s.aon.por = false ∧ s.core.disc = false ∧ groupOf p.val = .input ∧
      (s.phasesOf .input).contains p.val = true) →
    ∃ t, exec c s = .next t ∧ (s.shellUp = true → t.obj Obj.SRC_STATE = 6) ∧ (s.shellUp = false → t.src.missedBlock = true) ∧
      t.core.overRail = false ∧ t.core.disc = false ∧ t.core.precharge = false ∧ t.src.cls = 0 ∧
      t.src.reclass = false ∧ t.src.waiting = false ∧ (∀ p, p < 6 → t.pwm p = .Z) ∧
      s.OnlyParts [.objs, .core, .grp, .ph, .src, .col, .ring, .hz] t ∧ s.SameObjs [Obj.SRC_STATE, Obj.FAULT_LOST, Obj.HZ_STATE] t) ∧
  (∀ (g : Group) (s : State), g ≠ .input → s.hasGroup g = true → (s.phasesOf g).any s.switching = true →
    bit (s.g g).stops 1 = false →
    ∃ t, exec (.headroom g) s = .next t ∧
      (g = .pack ∨ s.shellUp = false → bit (t.g g).stops 1 = true ∧ (∀ p ∈ s.phasesOf g, t.pwm p = .Z) ∧
        t.core.disc = false ∧ (t.core.gateOff = (s.core.disc || s.core.gateOff)) ∧ (∀ h, h ≠ g → h ≠ .input → t.g h = s.g h)) ∧
      s.OnlyParts [.objs, .core, .grp, .ph, .col, .jrnl, .ring, .env, .link, .fab] t) ∧
  (∀ s : State, s.core.disc = true → 3 ≤ (s.g .input).passRun → (s.g .input).pass = false →
    ∃ t, exec .passThroughEntry s = .next t ∧ t.g .input = { s.g .input with pass := true } ∧
      (∀ p ∈ s.phasesOf .input, s.aon.por = false → s.core.stall = false → s.convOff = false → (s.g .input).stops = 0 →
        (s.phase p).code ≠ 5 → (s.phase p).weight ≠ 0 →
          ((s.phase p).level = .H → t.pwm p = .H) ∧ ((s.phase p).level ≠ .H → (t.phase p).level = .Z ∧ (t.phase p).due = .H)) ∧
      (∀ h, h ≠ Group.input → t.g h = s.g h) ∧ s.OnlyParts [.grp, .ph, .ring] t) ∧
  (∀ s : State, s.aon.por = false → s.aon.buckOff = false → s.inMode [0, 1] = false ∨ s.bringing = true →
    ∃ t, exec .coreStall s = .next t ∧ t.core.stall = true ∧ t.aon.overcast = true ∧ (∀ p, t.pwm p = .Z) ∧
      (s.aon.overcast = false → t.hour = { s.hour with overcast := true }) ∧
      s.OnlyParts [.objs, .core, .grp, .ph, .aon, .col, .ring, .hour, .lin] t ∧ s.SameObjs [Obj.FAULT_LOST] t)

/-- Classification (R186-R196): a request starts it or waits; the window test, the step and its end; the result. -/
def Obligations.Classification : Prop :=
  (∀ (m : Master) (v : Nat) (s : State), s.served m = true → s.writeCode m Obj.SRC_CLASSIFY (leBytes 1 v) = 0 →
    ∃ t, exec (.srcClassify m v) s = .next t ∧ t.srv.code = 0 ∧
      (s.obj Obj.SRC_STATE = 2 ∨ s.obj Obj.SRC_STATE = 6 → t.src.cls = 1 ∧ t.obj Obj.SRC_STATE = 1 ∧
        t.src.fromConnected = (s.obj Obj.SRC_STATE == 2)) ∧
      (3 ≤ s.obj Obj.SRC_STATE → s.obj Obj.SRC_STATE ≤ 5 → t.src = { s.src with waiting := true }) ∧
      s.OnlyParts [.objs, .grp, .ph, .src, .col, .ring, .hz, .srv] t) ∧
  (∀ (voc vrail : Nat) (s : State), s.src.cls = 1 → s.shellUp = true →
    ∃ t, exec (.classificationWindowTest voc vrail) s = .next t ∧ t.obj Obj.SRC_MEAS_V_OC = min 65535 (voc / 10) ∧
      t.src.voc = voc ∧ t.src.lastWindow = !(s.windowRows voc).isEmpty ∧
      (s.src.fromConnected = true → t.src.cls = 2 ∧ t.src.window = true ∧ t.core = { s.core with busLow := s.busLow voc }) ∧
      (s.src.fromConnected = false → 60000 < voc → t.obj Obj.SRC_MEAS_SLOW = 255 ∧ t.obj Obj.SRC_TYPE = 5 ∧ t.obj Obj.SRC_STATE = 6 ∧
        t.src.cls = 0 ∧
        t.obj Obj.SRC_MEAS_REASON = 5 ∧ t.core.disc = false) ∧
      (s.src.fromConnected = false → voc ≤ 60000 → t.src.cls = 2 ∧ t.src.prov = (s.windowRows voc).headD 5 ∧
        t.src.window = !(s.windowRows voc).isEmpty) ∧
      s.OnlyParts [.objs, .core, .grp, .ph, .src, .col, .ring, .hz] t) ∧
  (∀ (v1 : Nat) (i1 : Int) (s : State), s.src.cls = 2 → s.shellUp = true → s.core.disc = true → s.core.precharge = false →
    s.src.window = true →
    ∃ t, exec (.classificationStepStart v1 i1) s = .next t ∧ t.src = { s.src with cls := 3, v1 := v1, i1 := i1, stepOn := true } ∧
      (t.g .input).step = s.stepMa ∧ (s.src.fromConnected = false → bit (t.g .input).stops 8 = false) ∧
      (∀ h, h ≠ Group.input → t.g h = s.g h) ∧ s.OnlyParts [.grp, .src] t) ∧
  (∀ (cut : Bool) (s : State), s.src.cls = 3 →
    ∃ t, exec (.classificationStepEnd cut) s = .next t ∧ t.src = { s.src with cls := 4, stepCut := cut } ∧ (t.g .input).step = 0 ∧
      (s.src.fromConnected = false → bit (t.g .input).stops 8 = true) ∧ (∀ h, h ≠ Group.input → t.g h = s.g h) ∧
      s.OnlyParts [.objs, .grp, .ph, .src, .col, .ring] t ∧ s.SameObjs [Obj.FAULT_LOST] t) ∧
  (∀ (i2 : Int) (v2f v2s pp : Nat) (per : List Nat) (vbus : Nat) (ibus : Int) (vrail : Nat) (s : State), 2 ≤ s.src.cls → s.src.cls ≠ 3 → s.shellUp = true → s.modeNow ≠ 4 →
    ∃ t, exec (.classificationResult i2 v2f v2s pp per vbus ibus vrail) s = .next t ∧ s.OnlyParts [.free, .objs, .core, .grp, .ph, .aon,
      .strat, .mode, .src, .col, .spd, .jrnl, .meas, .ring, .hz, .env, .chg, .link, .fab, .seqs, .srv, .can, .note] t ∧ t.src.cls = 0 ∧
        t.src.reclass = false ∧
      t.src.waiting = false ∧ t.obj Obj.SRC_TYPE = t.src.row ∧ (s.obj Obj.SRC_STATE ≠ 0 → t.obj Obj.SRC_MEAS_RIPPLE_PP = min 65535 pp) ∧
      (s.src.stepOn = false → t.src.row = (s.classRow s.src.voc false (s.ripple pp per) 255 0).1 ∧
        t.obj Obj.SRC_MEAS_SLOW = 255 ∧ t.free = s.free)) ∧
  (∀ s : State, s.serving = true → s.obj Obj.SRC_TYPE = 5 → s.src.cls = 0 → [0, 1, 6].contains (s.obj Obj.SRC_STATE) = false →
    s.src.lastWindow = false ∨ s.src.lastAt + sec (leAt s.srcBody 4 2) ≤ s.now →
    ∃ t, exec .reclassification s = .next t ∧ t.src.cls = 1 ∧ t.obj Obj.SRC_STATE = 1 ∧ t.src.lastAt = s.now ∧
      t.core = { s.core with dropped := false, dumped := false } ∧ s.OnlyParts [.objs, .core, .grp, .ph, .src, .col, .ring, .hz] t)

/-- The input limit (R201-R203) and GROUP_APPLY (R136-R138). -/
def Obligations.InputLimitAndGroupApply : Prop :=
  (∀ (vbus : Nat) (ibus : Int) (pp : Nat) (per : List Nat) (s : State), s.serving = true → s.obj Obj.SRC_TYPE ≠ 0 →
    ∃ t, exec (.iinLimitUpdate vbus ibus pp per) s = .next t ∧ t.obj Obj.SRC_MEAS_I_HARN = s.iHarn vbus ibus ∧
      (s.obj Obj.SRC_STATE ≠ 0 → t.obj Obj.SRC_MEAS_RIPPLE_PP = min 65535 pp ∧
        t.obj Obj.SRC_MEAS_RIPPLE_PER = (if s.ripple pp per then min 65535 (agreed per) else 0)) ∧
      t.obj Obj.IIN_LIMIT = s.iinLimit (s.iHarn vbus ibus) ∧
      (s.src.iinWritten < t.obj Obj.IIN_LIMIT + 5 → t.obj Obj.IIN_LIMIT < s.src.iinWritten + 5 → t.core = s.core) ∧
      s.OnlyParts [.objs, .core, .grp, .ph, .src, .col, .ring] t ∧
      s.SameObjs [Obj.SRC_MEAS_I_HARN, Obj.SRC_MEAS_RIPPLE_PP, Obj.SRC_MEAS_RIPPLE_PER, Obj.IIN_LIMIT, Obj.FAULT_LOST] t) ∧
  (∀ s : State, s.serving = true → s.obj Obj.SRC_TYPE ≠ 0 → 2 * s.obj Obj.SRC_MEAS_I_HARN < s.srcRow s.curRow 10 2 →
    s.src.harnessLow = false →
    ∃ t, exec .harnessHigh s = .next t ∧ t.src = { s.src with harnessLow := true } ∧
      ((s.col.bus.filter fun m => m.src == 6).length < 4 → t.col.bus = s.col.bus ++
        [{ src := 6, kind := 8, inst := s.obj Obj.SRC_MEAS_I_HARN % 65536 }]) ∧
      s.OnlyParts [.objs, .src, .col] t ∧ s.SameObjs [Obj.FAULT_LOST] t) ∧
  (∀ (m : Master) (g : Group) (s : State), s.served m = true → s.writeCode m Obj.GROUP_APPLY (leBytes 1 (g.num + 1)) = 0 →
    ∃ t, exec (.groupApply m (g.num + 1)) s = .next t ∧ t.core = (s.applyGroup g).core ∧ t.grp = (s.applyGroup g).grp ∧
      t.ph = (s.applyGroup g).ph ∧ t.srv.code = 0 ∧
      (t.g g).syncBarred = false ∧ (t.g g).foldLocked = false ∧
      s.OnlyParts [.objs, .core, .grp, .ph, .col, .hz, .ring, .srv] t)

/-- A frame starts (R225, R226, R228, R229, R251, R53): the grant frame goes out under its check word, a good frame is counted and the
fourth makes the feed ACTIVE, a bad one gives its content up; in Stratus ENV_DOUT is all zeros. A missing edge is stood in for by the timer
and counts as a bad frame (R229); four make the feed LOST, with every feedforward current at 0 (R228, R230); no bit clock releases ENV_DOUT
(R231). -/
def Obligations.EnvelopeFramesAndTimer : Prop :=
  (∀ (edges period : Nat) (s : State), s.shellUp = true → s.env.cfgPend = false → s.envState ≠ 0 →
    (s.obj Obj.PLAY_AUTO ≠ 1 ∨ s.modeNow ≠ 2 →
      ∃ t, exec (.frameStart edges period) s = .next t ∧ t.env.frame = s.env.frame + 1 ∧ t.env.hiZ = (s.env.silent && edges == 0) ∧
        t.env.seen = true ∧
        t.env.missing = 0 ∧ t.env.done = false ∧
        t.env.dout = withCheck (if s.env.done then s.env.next else noGrant s.env.next) (s.obj Obj.ENV_STATS_OVER) ∧
        (s.envState = 3 → t.obj Obj.ENV_STATE = 1) ∧
        (s.envState = 1 ∨ s.envState = 2 → s.env.seen = true →
          (goodFrame s.env.rate edges period = true → t.obj Obj.ENV_STATS_GOOD = satInc 0xFFFFFFFF (s.obj Obj.ENV_STATS_GOOD) ∧
            t.obj Obj.ENV_STATE = (if 3 ≤ s.env.good then 2 else s.envState) ∧ t.env.good = min 4 (s.env.good + 1)) ∧
          (goodFrame s.env.rate edges period = false → t.obj Obj.ENV_STATS_BAD = satInc 0xFFFFFFFF (s.obj Obj.ENV_STATS_BAD) ∧
            t.env.good = 0 ∧ t.env.queue = s.env.back.clearWhere fun k => k / 16 < s.env.frame + 1)) ∧
        s.OnlyParts [.objs, .grp, .col, .recs, .jrnl, .ring, .hz, .env] t) ∧
    (s.obj Obj.PLAY_AUTO = 1 → s.modeNow = 2 → s.bringing = false → s.mode.park ≠ 5 → s.env.seen = true → 1 ≤ period → 3 ≤ s.env.present →
      [0, 1, 2].contains (s.obj Obj.MODE_TARGET) = false →
      ∃ t, exec (.frameStart edges period) s = .next t ∧ s.OnlyParts [.objs, .core, .grp, .ph, .mode, .col, .recs, .jrnl, .ring, .hz,
        .env, .chg, .note] t ∧ t.modeNow = 3 ∧ t.obj Obj.MODE_PREV = 2 ∧ t.obj Obj.MODE_CAUSE = 15 ∧
        t.env.frame = s.env.frame + 1)) ∧
  (∀ (edges period : Nat) (s : State), s.shellUp = true → s.env.cfgPend = true → bit (s.obj Obj.ENV_CFG) 0 = false →
    ∃ t, exec (.frameStart edges period) s = .next t ∧ s.OnlyParts [.objs, .core, .grp, .ph, .mode, .col, .recs, .jrnl, .ring, .hz, .env,
      .chg, .note] t ∧ t.env = { s.env with
      cfg := s.obj Obj.ENV_CFG, cfgPend := false, hiZ := true, dout := [], seen := false,
      silent := s.env.silent && edges == 0 } ∧ t.obj Obj.ENV_STATE = 0) ∧
  (∀ (edges period : Nat) (s : State), s.shellUp = false → s.modeNow = 6 → bit s.env.cfg 0 = true →
    ∃ t, exec (.frameStart edges period) s = .next t ∧ t.env.dout = List.replicate 16 0 ∧ t.env.hiZ = (s.env.silent && edges == 0) ∧
      s.OnlyParts [.objs, .col, .ring, .env] t ∧ s.SameObjs [Obj.FAULT_LOST] t) ∧
  (∀ (edges : Nat) (s : State), s.shellUp = true → s.envState = 2 → s.env.missing < 4 →
    ∃ t, exec (.frameTimer edges) s = .next t ∧ t.env.missing = s.env.missing + 1 ∧ t.env.present = 0 ∧ t.env.good = 0 ∧
      t.env.frame = s.env.frame + 1 ∧ t.env.hiZ = s.env.silent ∧ t.obj Obj.ENV_STATE = 2 ∧
      t.obj Obj.ENV_STATS_BAD = satInc 0xFFFFFFFF (s.obj Obj.ENV_STATS_BAD) ∧
      s.OnlyParts [.objs, .grp, .col, .recs, .jrnl, .ring, .hz, .env] t) ∧
  (∀ s : State, s.shellUp = true → s.envState = 2 →
    ∃ t, exec .feedLost s = .next t ∧ t.obj Obj.ENV_STATE = 3 ∧ (∀ g, (t.g g).iff = 0) ∧ t.env.queue = [] ∧ t.env.hdr = none ∧
      t.env.pff = 0 ∧ t.obj Obj.GRANT_NOW_TOTAL = min (s.obj Obj.GRANT_NOW_TOTAL) s.contUnits ∧
      bit (t.obj Obj.GRANT_NOW_STATUS) 10 = true ∧ t.obj Obj.ENV_STATS_LOSSES = satInc 0xFFFFFFFF (s.obj Obj.ENV_STATS_LOSSES) ∧
      s.OnlyParts [.objs, .grp, .col, .jrnl, .ring, .hz, .env] t) ∧
  (∀ s : State, exec .envDoutRelease s = .next { s with env := { s.env with hiZ := true, silent := true, present := 0 } })

/-- Demand and grant (R232-R241, R250, R260, R226): the header, the entries that a demand slot raises or a MUTE clears, the clips counted,
the computation of the present frame, a late one, and the write of ENV_CFG. -/
def Obligations.DemandAndGrant : Prop :=
  (∀ (w : BitVec 32) (s : State), s.envRun = true → s.env.rate ≠ 0 → s.env.seen = true →
    ∃ t, exec (.demandHeader w) s = .next t ∧ t.env.hdr = some w.toNat ∧ t.env.limiter = bit w.toNat 3 ∧
      t.obj Obj.DEMAND_NOW_LOOK = field w.toNat 15 8 ∧
      (s.seqFollows w.toNat = false → t.obj Obj.ENV_STATS_GAPS = satInc 0xFFFFFFFF (s.obj Obj.ENV_STATS_GAPS)) ∧
      s.OnlyParts [.objs, .col, .recs, .env] t ∧ s.SameObjs [Obj.DEMAND_NOW_LOOK, Obj.ENV_STATS_GAPS, Obj.FAULT_LOST] t) ∧
  (∀ (p : Fin 16) (w : BitVec 32) (h : Nat) (s : State), s.env.hdr = some h → s.envRun = true → s.env.rate ≠ 0 → p.val ≠ 0 →
    ∃ t, exec (.demandSlot p w) s = .next t ∧
      (s.env.seen = true → t.env.clips = s.env.clips + b2n (bit w.toNat 2)) ∧
      (bit w.toNat 1 = true ∨ bit h 2 = true → ∀ f, t.entry p.val f = 0) ∧
      (bit w.toNat 1 = false → bit h 2 = false → bit h 0 = true → bit w.toNat 0 = true → ∀ f, t.entry p.val f =
        (if s.env.frame + field h 15 8 ≤ f ∧ f < s.env.frame + field h 15 8 + max 1 (field w.toNat 19 12)
          then max (s.entry p.val f) (field w.toNat 31 20) else s.entry p.val f)) ∧
      (∀ q f, q < 16 → q ≠ p.val → t.entry q f = s.entry q f) ∧ t.obj Obj.DEMAND_NOW_DUE = min 65535 (t.demandAt s.env.frame) ∧
      s.OnlyParts [.objs, .grp, .col, .jrnl, .ring, .hz, .env] t) ∧
  (∀ s : State, s.envRun = true → s.env.rate ≠ 0 →
    ∃ t, exec .grantComputation s = .next t ∧ t.env.done = true ∧ t.env.broken = false ∧ t.env.late = 0 ∧
      t.obj Obj.ENV_STATS_LATE = min 0xFFFFFFFF (s.obj Obj.ENV_STATS_LATE + s.env.late) ∧
      t.env.next.length = 15 ∧ t.obj Obj.GRANT_NOW_TOTAL = s.grantUnits ∧ t.obj Obj.GRANT_NOW_DUR = s.grantDur ∧
      (∀ g, s.env.sent = some g → t.env.tooMuch = decide (g < s.demandAt s.env.frame)) ∧ t.env.dout = s.env.dout ∧
      s.OnlyParts [.objs, .col, .jrnl, .env] t) ∧
  (∀ s : State, s.envRun = true →
    ∃ t, exec .grantLate s = .next t ∧ t.env.sent = some 0 ∧ t.env.done = false ∧
      t.env.dout = withCheck (noGrant s.env.next) (s.obj Obj.ENV_STATS_OVER) ∧ s.OnlyParts [.objs, .col, .env] t ∧
      s.SameObjs [Obj.FAULT_LOST] t) ∧
  (∀ (m : Master) (v : Nat) (s : State), s.served m = true → s.writeCode m Obj.ENV_CFG (leBytes 2 v) = 0 →
    ∃ t, exec (.envCfgWrite m v) s = .next t ∧ t.srv.code = 0 ∧ t.obj Obj.ENV_CFG = keptBits Obj.ENV_CFG (v % 65536) ∧
      t.env = { s.env with cfgPend := true } ∧ s.OnlyParts [.objs, .jrnl, .env, .srv] t ∧
      s.SameObjs [Obj.ENV_CFG, Obj.OD_JOURNAL, Obj.OD_STATS_REQUESTS] t)

/-- Conversions and scans (R397-R404, R413, R21, R439): a slot's word, where it measures a group's current from the negated sum of its
phases, a converter's end with the power flow, a stalled converter. -/
def Obligations.SlotsAndScans : Prop :=
  (∀ (ch : Fin 64) (raw : Int) (isns : List Int) (o u : Bool) (dt : Nat) (s : State), s.scanningNow = true →
    s.nextCh (ch.val / 16) = some (ch.val % 16) →
    ∃ t, exec (.slotComplete ch raw isns o u dt) s = .next t ∧
      (ch.val ≠ 16 → s.cells ≤ ch.val ∨ s.shellUp = false →
        t = (s.set (Obj.RESULTS ch.val) (resultWord ch.val (s.corrected ch.val (s.rawCode ch.val raw isns)) o u)).slotNext ch.val) ∧
      (ch.val = 16 → s.shellUp = false ∨ s.cells ≤ 16 → t.obj (Obj.RESULTS 16) = resultWord 16 (s.corrected 16 (s.rawCode 16 raw isns)) o u ∧
        (s.obj Obj.PACK_Q ≠ 0 → t.chg.gap = 0 ∧ t.obj Obj.PACK_SOC = t.chg.soc / 1000000000)) ∧
      (t.meas.next.getD (ch.val / 16) 0 = if s.meas.next.length ≤ ch.val / 16 then 0 else ch.val % 16 + 1) ∧
      s.OnlyParts [.objs, .core, .grp, .ph, .col, .jrnl, .meas, .ring, .hz, .chg] t) ∧
  (∀ (mc : Fin 4) (time : Nat) (s : State), s.scanningNow = true → bit s.meas.done mc.val = false → s.nextCh mc.val = none →
    ∃ t, exec (.scanComplete mc time) s = .next t ∧ t.obj (Obj.SCAN_TIME mc.val) = time ∧
      (s.obj Obj.SCAN_STATE = 1 → t.meas = { s.meas with done := setBit s.meas.done mc.val true } ∧
        (mc.val ≠ 2 ∨ s.shellUp = false → s.OnlyParts [.objs, .meas] t ∧ s.SameObjs [Obj.SCAN_TIME mc.val] t)) ∧
      (s.obj Obj.SCAN_STATE = 3 → s.shellUp = false → setBit s.meas.done mc.val true = 15 →
        t.meas.left = s.meas.left - 1 ∧ t.meas.gapEnd = s.now + ms (field s.meas.park 23 16)) ∧
      (mc.val = 2 → s.shellUp = true →
        (s.haveBoth 32 33 = true → t.obj Obj.POWER_FLOW_BUS = toCode 32 (watts s.vbus s.ibus)) ∧
        (s.haveBoth 34 35 = true → t.obj Obj.POWER_FLOW_RAIL = toCode 32 (watts s.vrail s.irail))) ∧
      s.OnlyParts [.objs, .src, .meas, .hz, .chg] t) ∧
  (∀ (mc : Fin 4) (elapsed : Nat) (s : State), s.scanningNow = true → bit s.meas.done mc.val = false →
    2 * s.scanTime mc.val + 1000 < elapsed →
    ∃ t, exec (.scanStall mc elapsed) s = .next t ∧
      (∀ i, i < 16 → t.obj (Obj.RESULTS (16 * mc.val + i)) = noResult (16 * mc.val + i)) ∧
      t.meas = s.meas.restart mc.val s.now (us 370) ∧
      (s.aon.shell = true → (s.col.bus.filter fun m => m.src == 9).length < 4 →
        t.col.bus = s.col.bus ++ [{ src := 9, kind := 3, inst := mc.val }]) ∧
      (s.aon.shell = false → t.col = s.col) ∧ s.OnlyParts [.objs, .col, .meas] t)

/-- Self-calibration and its refresh (R417-R422): the command leaves a calibration pending, its end takes the factors within the limits and
rejects the others, the refresh starts where none runs, and a missing calibration is reported once. The common trigger (R404, R406, R418,
R427): the scan that ended is counted and timed, the next one takes its masks, and a pending calibration starts in its place; without a
running shell nothing else is touched, and with one the scheduler may have stopped with it. -/
def Obligations.CalibrationAndCommonTrigger : Prop :=
  (∀ (l : List (Int × Nat)) (s : State), s.meas.cal = 2 →
    ∃ t, exec (.selfcalComplete l) s = .next t ∧ t.meas.cal = 0 ∧ t.meas.restore = true ∧ t.obj Obj.SCAN_STATE = 1 ∧
      t.obj Obj.CAL_STATE = (if ((List.range 64).any fun ch =>
        s.hasChannel ch && factorBad (l.getD ch (0, 16777216)).1 (l.getD ch (0, 16777216)).2) = true then 4 else 3) ∧
      (∀ ch, ch < 64 → s.hasChannel ch = true → factorBad (l.getD ch (0, 16777216)).1 (l.getD ch (0, 16777216)).2 = false →
        t.obj (Obj.CAL_OFS ch) = toCode 32 (l.getD ch (0, 16777216)).1 ∧ t.obj (Obj.CAL_GAIN ch) = (l.getD ch (0, 16777216)).2) ∧
      (∀ ch, ch < 64 → factorBad (l.getD ch (0, 16777216)).1 (l.getD ch (0, 16777216)).2 = true →
        t.obj (Obj.CAL_OFS ch) = s.obj (Obj.CAL_OFS ch) ∧ t.obj (Obj.CAL_GAIN ch) = s.obj (Obj.CAL_GAIN ch)) ∧
      s.OnlyParts [.objs, .col, .jrnl, .meas, .thm] t) ∧
  (∀ (m : Master) (v : Nat) (s : State), s.served m = true → s.writeCode m Obj.SELFCAL_CMD (leBytes 1 v) = 0 →
    ∃ t, exec (.selfcalCmd m v) s = .next t ∧ t.srv.code = 0 ∧
      t.meas = { s.meas with cal := 1, calWas := s.obj Obj.CAL_STATE } ∧ s.OnlyParts [.objs, .meas, .srv] t ∧
      s.SameObjs [Obj.OD_STATS_REQUESTS] t) ∧
  (∀ s : State, 3 ≤ s.obj Obj.CAL_STATE → s.thm.cal.due s.now = true → s.meas.cal = 0 → s.meas.refresh = none → s.obj Obj.SCAN_STATE = 1 →
    exec .calRefreshRound s = .next { s with meas := { s.meas with refresh := some 0 } }) ∧
  (∀ s : State, s.shellUp = true → s.bringing = false → s.calReached < 3 → s.meas.staleSaid = false →
    ∃ t, exec .calStale s = .next t ∧ t.meas = { s.meas with staleSaid := true } ∧
      ((s.col.bus.filter fun m => m.src == 9).length < 4 → t.col.bus = s.col.bus ++
        [{ src := 9, kind := 5, inst := s.obj Obj.CAL_STATE }]) ∧
      s.OnlyParts [.objs, .col, .meas] t ∧ s.SameObjs [Obj.FAULT_LOST] t) ∧
  (∀ (period : Nat) (obs : List Obs) (s : State), s.obj Obj.SCAN_STATE = 1 → s.meas.done = 15 → s.shellUp = false →
    ∃ t, exec (.commonTrigger period obs) s = .next t ∧ t.meas.first = false ∧ t.obj Obj.SCAN_PERIOD = period ∧
      t.obj Obj.SCAN_COUNT = (s.obj Obj.SCAN_COUNT + 1) % 2 ^ 32 ∧
      (s.meas.cal = 1 → t.meas.cal = 2 ∧ t.obj Obj.SCAN_STATE = 2 ∧ t.obj Obj.CAL_STATE = 2) ∧
      (s.meas.cal ≠ 1 → t.meas.start = s.recTime ∧ t.meas.ints = (List.range 4).map (fun m => s.obj (Obj.SCAN_INT m)) ∧
        (∀ m, m < 4 → t.obj (Obj.SCAN_EFFECTIVE m) = s.effective m) ∧
        t.obj Obj.SCAN_STATE = (if t.meas.done = 15 then 4 else 1)) ∧
      s.OnlyParts [.objs, .core, .grp, .ph, .col, .meas, .ring, .chg] t) ∧
  (∀ (period : Nat) (obs : List Obs) (s : State), s.obj Obj.SCAN_STATE = 1 → s.meas.done = 15 → s.shellUp = true →
    ∃ t, exec (.commonTrigger period obs) s = .next t ∧ t.meas.first = false ∧
      (t.obj Obj.SCAN_STATE ≠ 0 → t.obj Obj.SCAN_PERIOD = period ∧ t.obj Obj.SCAN_COUNT = (s.obj Obj.SCAN_COUNT + 1) % 2 ^ 32 ∧
        (s.meas.cal = 1 → t.meas.cal = 2 ∧ t.obj Obj.SCAN_STATE = 2 ∧ t.obj Obj.CAL_STATE = 2 ∧ t.obj Obj.BAL_STATE = 0) ∧
        (s.meas.cal ≠ 1 → t.meas.start = s.recTime ∧ t.meas.ints = (List.range 4).map (fun m => s.obj (Obj.SCAN_INT m)) ∧
          (∀ m, m < 4 → t.obj (Obj.SCAN_EFFECTIVE m) = t.effective m) ∧
          t.obj Obj.SCAN_STATE = (if t.meas.done = 15 then 4 else 1))) ∧
      s.OnlyParts [.objs, .core, .grp, .ph, .aon, .strat, .mode, .src, .col, .spd, .jrnl, .meas, .ring, .thm, .hz, .hour, .env, .chg,
        .link, .fab, .seqs, .flash, .srv, .can, .note] t)

/-- The squall recorder (R428-R433): a requested trigger, the end of a window, the capture that goes to the archive, and REC_KEEP. -/
def Obligations.SquallRecorder : Prop :=
  (∀ (m : Master) (v : Nat) (s : State), s.served m = true → s.writeCode m Obj.REC_TRIGGER (leBytes 1 v) = 0 →
    ∃ t, exec (.recTrigger m v) s = .next t ∧ t.srv.code = 0 ∧
      (∀ c, s.ring.open_ = some c → bit (s.obj Obj.REC_CFG) 4 = true →
        t.ring = { s.ring with open_ := some { c with ntrig := satInc 65535 c.ntrig
                                                      trigs := if c.trigs.length < 4 then
                                                        c.trigs ++ [msgWord { src := 9, kind := 11, inst := m.code }] else c.trigs } }) ∧
      (bit (s.obj Obj.REC_CFG) 4 = false → t.ring = s.ring ∧ ((s.col.bus.filter fun x => x.src == 9).length < 4 →
        t.col.bus = s.col.bus ++ [{ src := 9, kind := 11, inst := m.code }])) ∧
      s.OnlyParts [.objs, .col, .jrnl, .ring, .srv] t) ∧
  (∀ (c : Capture) (s : State), s.ring.open_ = some c →
    ∃ t, exec .captureWindowEnd s = .next t ∧ t.ring.open_ = none ∧ t.obj Obj.REC_STATE = 3 ∧ t.ring.lost = 0 ∧
      (∃ d, t.ring.closing = some d ∧ d.no = c.no ∧ d.t0 = c.t0 ∧ d.trigs = c.trigs ∧
        (∀ r ∈ d.scans, r ∈ s.ring.scans ∧ c.t0 - ms 500 ≤ r.time ∧ r.time < c.t0 + ms 1500)) ∧
      (s.ring.closing = none → s.ring.lost = 0 → s.OnlyParts [.objs, .ring] t ∧ s.SameObjs [Obj.REC_STATE] t) ∧
      (s.ring.closing = none → s.ring.lost ≠ 0 → (s.col.bus.filter fun m => m.src == 9).length < 4 →
        t.col.bus = s.col.bus ++ [{ src := 9, kind := 0x0A, inst := s.ring.lost % 65536 }]) ∧
      s.OnlyParts [.objs, .col, .jrnl, .ring, .archive, .flash] t) ∧
  (∀ (ok : Bool) (s : State), s.flashHeld = true → exec (.captureClosed ok) s = .next s) ∧
  (∀ (ok : Bool) (c : Capture) (s : State), s.shellUp = true → s.flashHeld = false → s.ring.closing = some c →
    ∃ t, exec (.captureClosed ok) s = .next t ∧ t.ring = { s.ring with closing := none } ∧
      t.obj Obj.REC_STATE = (if s.ring.open_.isSome then 2 else 1) ∧
      (ok = false ∨ s.flashOk = false → t.archive = s.archive) ∧
      (ok = true → s.flashOk = true → s.archiveBudget c.size = true → t.archive.head? = some c ∧ t.archive.length ≤ 256 ∧
        t.flash.archived = s.flash.archived + c.size) ∧
      s.OnlyParts [.objs, .col, .jrnl, .ring, .archive, .flash] t) ∧
  (∀ (m : Master) (v : Nat) (s : State), s.served m = true → s.writeCode m Obj.REC_KEEP (leBytes 1 v) = 0 →
    ∃ t, exec (.recKeepWrite m v) s = .next t ∧ t.srv.code = 0 ∧
      t.archive = s.archive.modify (s.obj Obj.REC_SELECT) (fun (c : Capture) => { c with flags := setBit c.flags 3 (v % 256 == 1) }) ∧
      s.OnlyParts [.objs, .archive, .srv] t ∧ s.SameObjs [Obj.OD_STATS_REQUESTS] t)

/-- The pack is found, gone, or lost under charge (R265, R292, R293, R249); the open-tap test ends (R267). The objects of the charger (R263,
R286, R291, R301): PACK_CELLS, CHG_ENABLE, CHG_SERVICE, and the read of CHG_FAULTS, which clears the bits for H and T. -/
def Obligations.PackAndChargerObjects : Prop :=
  (∀ (vpack ms : Nat) (s : State), s.shellUp = true → s.obj Obj.PACK_STATE = 0 → s.packThere vpack = true →
    ∃ t, exec (.packPresent vpack ms) s = .next t ∧ t.chg.known = true ∧ 1 ≤ t.obj Obj.PACK_STATE ∧ t.obj Obj.PACK_STATE ≤ 2 ∧
      (s.chg.known = true → 1000 ≤ ms → t.chg.lost = false) ∧
      s.OnlyParts [.objs, .core, .grp, .ph, .col, .jrnl, .ring, .hz, .chg] t) ∧
  (∀ (vpack : Nat) (s : State), s.shellUp = true → s.cells ≠ 0 → s.obj Obj.PACK_STATE ≠ 0 → vpack < 500 * s.cells →
    ∃ t, exec (.packAbsent vpack) s = .next t ∧ s.OnlyParts [.objs, .core, .grp, .ph, .aon, .strat, .mode, .src, .col, .spd, .jrnl, .meas,
      .ring, .hz, .env, .chg, .link, .fab, .seqs, .flash, .srv, .can, .note] t ∧ t.env.broken = true ∧
      (s.railMode = false → t.obj Obj.PACK_STATE = 0 ∧ t.obj Obj.CHG_I_CMD = 0 ∧
        t.obj Obj.CHG_STATE = (if s.obj Obj.CHG_STATE = 8 then 8 else if s.chgOff then 0 else 1) ∧
        (s.charging = false → bit (t.obj Obj.CHG_FAULTS) 15 = true) ∧
        t.obj Obj.ENV_STATS_BROKEN = satInc 0xFFFFFFFF (s.obj Obj.ENV_STATS_BROKEN))) ∧
  (∀ (vpack : Nat) (s : State), (s.g .pack).deliver = false → s.chargeLimit ≠ 0 → (s.g .pack).stops = 0 →
    ∃ t, exec (.packLost vpack) s = .next t ∧ s.OnlyParts [.objs, .core, .grp, .ph, .aon, .strat, .mode, .src, .col, .spd, .jrnl, .meas,
      .ring, .hz, .env, .chg, .link, .fab, .seqs, .flash, .srv, .can, .note] t ∧
      (s.shellUp = false → bit (t.g .pack).stops 7 = true ∧ (∀ p ∈ s.phasesOf .pack, t.pwm p = .Z) ∧
        (∀ h, h ≠ Group.pack → t.g h = s.g h)) ∧
      (s.shellUp = true → t.chg.lost = true ∧ t.env.broken = true ∧
        (s.railMode = false → t.obj Obj.PACK_STATE = 0 ∧ t.obj Obj.CHG_STATE = 1 ∧ bit (t.obj Obj.CHG_FAULTS) 1 = true))) ∧
  (∀ (taps : List (Nat × Int)) (s : State), s.shellUp = true → s.bringing = false → s.inMode [2, 3, 5] = true → s.obj Obj.PACK_STATE ≠ 0 →
    s.meas.cal ≠ 2 → taps.length = s.cells →
    ∃ t, exec (.openTapTest taps) s = .next t ∧ t.obj Obj.BAL_STATE = 0 ∧
      ((∀ x ∈ taps, x.1 ≤ 100 ∧ 500 ≤ x.2) → t.chg.openTap = false ∧ t.stands 8 4 = false) ∧
      ((∃ x ∈ taps, 100 < x.1 ∨ x.2 < 500) → t.chg.openTap = true ∧ t.chg.sel = 0 ∧ t.chg.scan = 3 ∧ bit (t.obj Obj.CHG_FAULTS) 11 = true ∧
        t.stands 8 4 = true ∧
        (3 ≤ s.obj Obj.CHG_STATE → s.obj Obj.CHG_STATE ≤ 6 → t.obj Obj.CHG_STATE = 2 ∧ t.obj Obj.CHG_I_CMD = 0)) ∧
      s.OnlyParts [.objs, .core, .grp, .ph, .col, .jrnl, .ring, .chg] t) ∧
  (∀ (m : Master) (v : Nat) (s : State), s.served m = true → s.writeCode m Obj.PACK_CELLS (leBytes 1 v) = 0 →
    ∃ t, exec (.packCellsWrite m v) s = .next t ∧ t.srv.code = 0 ∧ t.obj Obj.PACK_CELLS = v % 256 ∧
      (v % 256 = 0 → t.obj Obj.CHG_STATE = 0 ∧ t.obj Obj.CHG_I_CMD = 0 ∧ t.obj Obj.PACK_STATE = 0) ∧
      s.OnlyParts [.objs, .core, .grp, .ph, .col, .jrnl, .ring, .chg, .srv] t) ∧
  (∀ (m : Master) (v : Nat) (s : State), s.served m = true → s.writeCode m Obj.CHG_ENABLE (leBytes 1 v) = 0 →
    ∃ t, exec (.chgEnableWrite m v) s = .next t ∧ t.srv.code = 0 ∧ t.obj Obj.CHG_ENABLE = v % 256 ∧
      (v % 256 = 0 → s.obj Obj.CHG_STATE ≠ 8 → t.obj Obj.CHG_STATE = 0 ∧ t.obj Obj.CHG_I_CMD = 0) ∧
      (v % 256 = 0 → s.obj Obj.CHG_STATE = 8 → t.obj Obj.CHG_STATE = 8) ∧
      s.OnlyParts [.objs, .core, .grp, .ph, .col, .jrnl, .ring, .chg, .srv] t) ∧
  (∀ (m : Master) (v : Nat) (s : State), s.served m = true → s.writeCode m Obj.CHG_SERVICE (leBytes 1 v) = 0 →
    ∃ t, exec (.chgServiceWrite m v) s = .next t ∧ t.srv.code = 0 ∧ t.obj Obj.CHG_SERVICE = v % 256 ∧
      (3 ≤ s.obj Obj.CHG_STATE → s.obj Obj.CHG_STATE ≤ 6 → v % 256 = 0 → t.obj Obj.CHG_I_CMD = 0) ∧
      s.OnlyParts [.objs, .core, .grp, .ph, .col, .ring, .chg, .srv] t) ∧
  (∀ (m : Master) (s : State), s.served m = true → s.readCode m Obj.CHG_FAULTS = 0 →
    ∃ t, exec (.chgFaultsRead m) s = .next t ∧ t.srv.code = 0 ∧ t.srv.data = leBytes 4 (s.obj Obj.CHG_FAULTS) ∧
      (m = .H ∨ m = .T → t.obj Obj.CHG_FAULTS = 0) ∧ (m = .S ∨ m = .F → t.obj Obj.CHG_FAULTS = s.obj Obj.CHG_FAULTS) ∧
      s.OnlyParts [.objs, .jrnl, .srv] t ∧ s.SameObjs [Obj.CHG_FAULTS, Obj.OD_JOURNAL, Obj.OD_STATS_REQUESTS] t)

/-- The charger's stages and timers (R275, R278, R289, R290, R295, R300, R301): the ends of the stages, a second of the safety timer, the
faults that stop charging, the report of an imbalance, the correction at rest. -/
def Obligations.ChargeStagesAndTimers : Prop :=
  (∀ (i : Int) (s : State), s.shellUp = true → s.obj Obj.CHG_STATE = 5 → s.chgHeld = false →
    bit (s.obj Obj.CHG_CAUSE) 6 = true → field (s.obj Obj.CHG_CAUSE) 5 1 = 0 → s.reading 16 400000 = some i →
    -i ≤ ((100 * s.zoneAt 38 2 : Nat) : Int) →
    ∃ t, exec .cvTermination s = .next t ∧ t.obj Obj.CHG_STATE = 6 ∧ t.obj Obj.CHG_STEP = 0 ∧ t.obj Obj.CHG_I_CMD = t.chgCommand ∧
      s.OnlyParts [.objs, .core, .grp, .ph, .col, .chg] t) ∧
  (∀ s : State, s.shellUp = true → s.obj Obj.CHG_STATE = 6 → s.chgHeld = false → s.timerOut = false →
    ∃ t, exec .topoffEnd s = .next t ∧ t.obj Obj.CHG_STATE = 7 ∧ t.obj Obj.CHG_I_CMD = 0 ∧
      (s.targetSoc = 1000 → t.obj Obj.PACK_SOC = 1000 ∧ t.obj Obj.SOC_CONF = 0) ∧
      (s.targetSoc ≠ 1000 → t.obj Obj.PACK_SOC = s.obj Obj.PACK_SOC) ∧
      s.OnlyParts [.objs, .core, .grp, .ph, .col, .jrnl, .ring, .chg] t) ∧
  (∀ (iavg : Nat) (s : State),
    (s.shellUp = true → 3 ≤ s.obj Obj.CHG_STATE → s.obj Obj.CHG_STATE ≤ 6 →
      ∃ t, exec (.safetyTimerTick iavg) s = .next t ∧ t.obj Obj.SAFETY_PROGRESS = min 0xFFFFFFFF (t.chg.progress / 1000) ∧
        (s.chgHeld = true → t.chg.progress = s.chg.progress ∧ t.obj Obj.SAFETY_WALL = s.obj Obj.SAFETY_WALL) ∧
        (s.chgHeld = false → t.chg.progress ≤ s.chg.progress + 1000 ∧
          t.obj Obj.SAFETY_WALL = satInc 0xFFFFFFFF (s.obj Obj.SAFETY_WALL)) ∧
        s.OnlyParts [.objs, .chg] t ∧ s.SameObjs [Obj.SAFETY_PROGRESS, Obj.SAFETY_WALL] t) ∧
    (s.shellUp = false → exec (.safetyTimerTick iavg) s = .next { s with chg := { s.chg with before := s.obj Obj.CHG_STATE } })) ∧
  (∀ (s : State) (c : Instr) (n : Nat), s.shellUp = true →
    (c = .timerExpired ∧ n = 0 ∧ 3 ≤ s.obj Obj.CHG_STATE ∧ s.obj Obj.CHG_STATE ≤ 6 ∧ s.timerOut = true) ∨
    (c = .precondTimeout ∧ n = 2 ∧ s.obj Obj.CHG_STATE = 3 ∧ 60 * s.chgAt 24 2 ≤ s.chg.precond) →
    ∃ t, exec c s = .next t ∧ t.obj Obj.CHG_STATE = 8 ∧ t.obj Obj.CHG_I_CMD = 0 ∧
      t.obj Obj.CHG_FAULTS = setBit (s.obj Obj.CHG_FAULTS) n true ∧
      s.OnlyParts [.objs, .core, .grp, .ph, .col, .jrnl, .ring, .chg] t ∧
      s.SameObjs [Obj.CHG_STATE, Obj.CHG_STEP, Obj.CHG_I_CMD, Obj.CHG_FAULTS, Obj.OD_JOURNAL, Obj.FAULT_LOST] t) ∧
  (∀ s : State, s.shellUp = true → s.cells ≠ 0 → s.chgValid = true → s.resting = true →
    (s.chgAt 29 1 : Int) < s.vMax - s.vMin →
    ∃ t, exec .cellImbalance s = .next t ∧ t.obj Obj.CHG_FAULTS = setBit (s.obj Obj.CHG_FAULTS) 10 true ∧
      s.OnlyParts [.objs, .col, .jrnl, .chg] t ∧ s.SameObjs [Obj.CHG_FAULTS, Obj.OD_JOURNAL, Obj.FAULT_LOST] t) ∧
  (∀ (v : Nat) (s : State), s.shellUp = true ∨ s.mode.parkCheck = true → s.cells ≠ 0 → s.chgValid = true →
    s.obj Obj.PACK_STATE ≠ 0 → s.resting = true → s.ocvSoc (s.obj Obj.PACK_VSUM / s.cells) = some v →
    ∃ t, exec .ocvCorrection s = .next t ∧ t.obj Obj.PACK_SOC = v ∧ t.obj Obj.SOC_CONF = 0 ∧ t.chg.soc = v * 1000000000 ∧
      s.OnlyParts [.objs, .jrnl, .hz, .chg] t ∧ s.SameObjs [Obj.PACK_SOC, Obj.SOC_CONF, Obj.OD_JOURNAL] t)

/-- Mating and connector health (R308-R316, R330, R331): a mated port is sensed at Z, an open one is given up at once, the own side is
discharged, the far pilot is seen and lost, a burst starts and ends with its leakage and susceptance. -/
def Obligations.LinkMating : Prop :=
  (∀ (p : Port) (s : State), s.variant = .A → s.lState p ≠ 0 → (s.lp p).mated = false →
    ∃ t, exec (.portMated p) s = .next t ∧ (t.lp p).mated = true ∧ (t.lp p).heard = false ∧ (t.lp p).burstOk = false ∧
      (s.shellUp = true → s.lState p = 1 → t.lState p = 2 ∧ bit (t.g p.group).stops 6 = true) ∧
      (s.shellUp = false ∨ s.lState p ≠ 1 → s.OnlyParts [.ring, .link] t) ∧ s.OnlyParts [.objs, .grp, .ph, .col, .ring, .link] t) ∧
  (∀ (p : Port) (s : State), s.variant = .A → (s.lp p).mated = true →
    ∃ t, exec (.portOpen p) s = .next t ∧ s.OnlyParts [.objs, .core, .grp, .ph, .aon, .strat, .mode, .src, .col, .spd, .jrnl, .meas,
      .ring, .hz, .env, .chg, .link, .fab, .seqs, .flash, .srv, .can, .note] t ∧ (t.lp p).mated = false ∧ (t.lp p).far = false ∧
      (s.shellUp = false → (t.lp p).opened = true ∧ bit (t.g p.group).stops 6 = true ∧ (∀ n ∈ s.phasesOf p.group, t.pwm n = .Z)) ∧
      (s.shellUp = true → 2 ≤ s.lState p → s.railMode = false → t.lState p = 1 ∧
        (5 ≤ s.lState p → s.lState p ≤ 9 → t.env.broken = true))) ∧
  (∀ (p : Port) (s : State), s.linkHere = true → s.lState p = 1 → (s.lp p).mated = false →
    ∃ t, exec (.linkSideDischarge p) s = .next t ∧ t.lp p = { s.lp p with discharge := 1 } ∧ bit (t.g p.group).stops 6 = false ∧
      s.OnlyParts [.objs, .grp, .col, .ring, .link] t ∧ s.SameObjs [Obj.FAULT_LOST] t) ∧
  (∀ (p : Port) (s : State), s.variant = .A → s.lState p ≠ 0 → (s.lp p).mated = true →
    ∃ t, exec (.farPilotPresent p) s = .next t ∧ (t.lp p).far = true ∧ bit (t.obj (Obj.LINK_PEER (p.num + 1))) 7 = true ∧
      (s.shellUp = true → s.lState p = 2 → (s.lp p).net = false → (s.lp p).burstOk = true → (s.lp p).heard = true → s.moist p ≠ 2 → t.lState p = 3) ∧
      s.OnlyParts [.objs, .core, .grp, .ph, .col, .jrnl, .ring, .env, .link] t) ∧
  (∀ (p : Port) (s : State), s.variant = .A → s.lState p ≠ 0 → (s.lp p).mated = true →
    ∃ t, exec (.peerSilent p) s = .next t ∧ t.lp p = { s.lp p with far := false } ∧ t.lState p = s.lState p ∧
      t.obj (Obj.LINK_PEER (p.num + 1)) = setBit (s.obj (Obj.LINK_PEER (p.num + 1))) 7 false ∧ s.OnlyParts [.objs, .core, .col, .link] t ∧
      s.SameObjs [Obj.LINK_PEER (p.num + 1), Obj.FAULT_LOST] t) ∧
  (∀ (p : Port) (s : State), s.linkHere = true → s.lState p ≠ 0 → s.bringing = false → s.inMode [2, 3, 4, 5] = true →
    exec (.connectorBurst p false) s = .next (s.modL p fun l => { l with burst := if l.mated then 2 else 1 })) ∧
  (∀ (p : Port) (b : Nat) (g : Int) (s : State), s.linkHere = true → (s.lp p).burst ≠ 0 →
    ∃ t, exec (.connectorBurstDone p b g) s = .next t ∧ (t.lp p).burst = 0 ∧
      t.obj (Obj.LINK_SUSC (p.num + 1)) = min 65535 b ∧
      t.obj (Obj.LINK_LEAK (p.num + 1)) = min 65535 (g - 40 * (if (s.lp p).mated then 2 else 1)).toNat ∧
      t.uds = { s.uds with testDone := s.uds.testDone || s.uds.testPort == p.num + 1 } ∧
      s.OnlyParts [.objs, .core, .grp, .ph, .col, .jrnl, .ring, .hz, .env, .link, .fab, .uds] t)

/-- The link messages that form a contract (R325-R327, R333-R337): OFFER, REQUEST, ACCEPT, REJECT, READY, judged in the state after the
message was heard. Swap, HARD_RESET and DETACH as received (R338-R342). -/
def Obligations.LinkMessages : Prop :=
  (∀ (p : Port) (src : Nat) (pay : List Byte) (v i sl : Nat) (s x : State), s.linkTakes p pay = true → x = s.linkHeard p src pay →
    x.lState p = 3 → x.linkFree = true → (x.lp p).net = false → x.obj Obj.TSD_STATE = 0 → x.consEn p = true →
    x.obj Obj.PACK_SOC < 5 * x.linkAt p 8 → x.requestOf p (slice pay 4 7) = some (v, i, sl) →
    ∃ t, exec (.offer p src pay) s = .next t ∧ t.lState p = 4 ∧ t.awaiting p = 2 ∧ (t.lp p).offer = some (slice pay 4 7) ∧
      (t.lp p).rxId = some (byteAt pay 1) ∧ s.OnlyParts [.objs, .core, .grp, .ph, .col, .jrnl, .ring, .env, .link, .fab] t) ∧
  (∀ (p : Port) (src : Nat) (pay : List Byte) (vlink : Nat) (tm : Terms) (ttr : Nat) (s x : State), s.linkTakes p pay = true →
    x = s.linkHeard p src pay → x.lState p = 4 → x.awaiting p = 1 → x.answers p pay = true → x.linkFree = true →
    (x.lp p).net = false → x.obj Obj.TSD_STATE = 0 → x.grantTermsOf p (byteAt pay 4) (byteAt pay 5) (byteAt pay 6) vlink = (tm, ttr, 0) →
    ∃ t, exec (.request p src pay vlink) s = .next t ∧ t.lState p = 5 ∧ (t.lp p).next = some tm ∧ (t.lp p).await_ = none ∧
      t.obj (Obj.LINK_TARGET (p.num + 1)) = tm.volt ∧ (t.lp p).rxId = some (byteAt pay 1) ∧ bit (t.g p.group).stops 6 = false ∧
      s.OnlyParts [.objs, .core, .grp, .ph, .col, .jrnl, .ring, .env, .link, .fab] t) ∧
  (∀ (p : Port) (src : Nat) (pay : List Byte) (s x : State), s.linkTakes p pay = true → x = s.linkHeard p src pay →
    x.answers p pay = true →
    (x.awaiting p = 2 → x.acceptFits p pay = false → [4, 5, 6].contains (x.lState p) = true →
      ∃ t, exec (.accept p src pay) s = .next t ∧ s.OnlyParts [.objs, .core, .grp, .ph, .col, .jrnl, .ring, .env, .link, .fab] t ∧
        t.link = x.link ∧ t.lState p = x.lState p) ∧
    (x.awaiting p = 2 → x.acceptFits p pay = true → [4, 5, 6].contains (x.lState p) = true →
      ∃ t, exec (.accept p src pay) s = .next t ∧ t.lState p = 5 ∧ (t.lp p).timer = true ∧ (t.lp p).await_ = none ∧
        (t.lp p).next = some { volt := byteAt pay 4, curr := byteAt pay 5, slew := byteAt pay 6, prov := false } ∧
        t.obj (Obj.LINK_TARGET (p.num + 1)) = byteAt pay 4 ∧
        s.OnlyParts [.objs, .core, .grp, .ph, .col, .jrnl, .ring, .env, .link, .fab] t) ∧
    (x.awaiting p = 9 → ∃ t, exec (.accept p src pay) s = .next t ∧ s.OnlyParts [.objs, .core, .grp, .ph, .col, .jrnl, .ring, .env, .link,
      .fab] t ∧ (t.lp p).await_ = none ∧ (t.lp p).leaving = false ∧
      t.lState p = (if x.lState p = 6 then 9 else x.lState p)) ∧
    (∃ t, exec (.reject p src pay) s = .next t ∧ (t.lp p).await_ = none ∧ (t.lp p).leaving = false ∧
      t.lState p = (if x.lState p = 4 then (if x.moist p = 2 then 10 else 3) else x.lState p) ∧
      s.OnlyParts [.objs, .core, .grp, .ph, .col, .jrnl, .ring, .env, .link, .fab] t)) ∧
  (∀ (p : Port) (src : Nat) (pay : List Byte) (tm : Terms) (s x : State), s.linkTakes p pay = true → x = s.linkHeard p src pay →
    (x.lp p).next = some tm → tm.prov = false → byteAt pay 6 = tm.volt → x.lState p = 5 →
    ∃ t, exec (.ready p src pay) s = .next t ∧ t.lState p = 6 ∧ (t.lp p).now = tm ∧ (t.lp p).next = none ∧ (t.lp p).timer = false ∧
      t.obj (Obj.LINK_TARGET (p.num + 1)) = 0 ∧ bit (t.g p.group).stops 6 = false ∧
      s.OnlyParts [.objs, .core, .grp, .ph, .col, .jrnl, .ring, .env, .link, .fab] t) ∧
  (∀ (p : Port) (src : Nat) (pay : List Byte) (s x : State), s.linkTakes p pay = true → x = s.linkHeard p src pay →
    (x.lState p = 6 → x.awaiting p = 0 → x.swapCurr p ≠ 0 →
      ∃ t, exec (.swapReq p src pay) s = .next t ∧ t.lState p = 7 ∧ (t.lp p).dwellDone = false ∧
        (t.lp p).next = some { (x.lp p).now with curr := min (x.lp p).now.curr (x.swapCurr p), prov := !(x.lp p).now.prov } ∧
        (t.lp p).ramp = some (s.now, ms 1) ∧ (t.lp p).rxId = some (byteAt pay 1) ∧
        s.OnlyParts [.objs, .core, .grp, .ph, .col, .jrnl, .ring, .env, .link, .fab] t) ∧
    (x.answers p pay = true → x.awaiting p = 6 → x.lState p = 6 → byteAt pay 4 ≠ 0 → x.currLimit p (x.lp p).now.curr ≠ 0 →
      x.moistOk p (x.lp p).now.volt = true →
      ∃ t, exec (.swapAck p src pay) s = .next t ∧ t.lState p = 7 ∧ (t.lp p).await_ = none ∧
        (t.lp p).next = some { (x.lp p).now with
          curr := min (x.lp p).now.curr (min (byteAt pay 4) (x.currLimit p (x.lp p).now.curr)), prov := !(x.lp p).now.prov } ∧
        (t.lp p).ramp = some (s.now, ms 1) ∧ s.OnlyParts [.objs, .core, .grp, .ph, .col, .jrnl, .ring, .env, .link, .fab] t) ∧
    (x.answers p pay = true → x.awaiting p = 6 → byteAt pay 4 = 0 →
      ∃ t, exec (.swapAck p src pay) s = .next t ∧ s.OnlyParts [.objs, .core, .grp, .ph, .col, .jrnl, .ring, .env, .link, .fab] t ∧
        t.lState p = x.lState p ∧ (t.lp p).await_ = none ∧ (t.lp p).now = (x.lp p).now) ∧
    (3 ≤ x.lState p → x.lState p ≠ 8 →
      ∃ t, exec (.hardReset p src pay) s = .next t ∧ t.lState p = 8 ∧ (t.lp p).now = {} ∧ (t.lp p).next = none ∧
        (t.lp p).discharge = 2 ∧ t.obj (Obj.LINK_ROLE (p.num + 1)) = 0 ∧ (x.contractHeld p = true → t.env.broken = true) ∧
        s.OnlyParts [.objs, .core, .grp, .ph, .col, .jrnl, .ring, .env, .link, .fab] t) ∧
    (x.lState p = 6 → ∃ t, exec (.detach p src pay) s = .next t ∧ t.lState p = 9 ∧ (t.lp p).await_ = none ∧
      (t.lp p).rxId = some (byteAt pay 1) ∧ (t.lp p).ramp = some (s.now, ms 20) ∧ (x.contractHeld p = true → t.env.broken = true) ∧
      s.OnlyParts [.objs, .core, .grp, .ph, .col, .jrnl, .ring, .env, .link, .fab] t))

/-- The link's own timers and ends (R312, R323, R326, R330, R335, R338, R341). -/
def Obligations.LinkTimersAndEnds : Prop :=
  (∀ (p : Port) (vlink : Nat) (tm : Terms) (s : State), s.linkHere = true → (s.lp p).next = some tm → tm.prov = true →
    inBand tm.volt vlink = true → s.lState p = 5 →
    ∃ t, exec (.sendReady p vlink) s = .next t ∧ t.lState p = 6 ∧ (t.lp p).now = tm ∧ (t.lp p).next = none ∧
      bit (t.g p.group).stops 6 = false ∧ s.OnlyParts [.objs, .core, .grp, .ph, .col, .jrnl, .ring, .link, .fab] t) ∧
  (∀ (p : Port) (tm : Terms) (s : State), s.linkHere = true → s.lState p = 7 → (s.lp p).dwellDone = false → (s.lp p).next = some tm →
    ∃ t, exec (.swapDwellEnd p) s = .next t ∧ (t.lp p).dwellDone = true ∧ (t.lp p).timer = !tm.prov ∧ t.lState p = 7 ∧
      (tm.prov = true → bit (t.g p.group).stops 6 = false) ∧ s.OnlyParts [.objs, .core, .grp, .ph, .col, .ring, .link] t) ∧
  (∀ (p : Port) (m : List Byte) (s : State), s.linkHere = true → (s.lp p).await_ = some m →
    ((s.lp p).again = false → ∃ t, exec (.noResponse p) s = .next t ∧ s.OnlyParts [.objs, .core, .grp, .ph, .col, .jrnl, .ring, .env,
      .link, .fab] t ∧ t.lp p = { s.lp p with again := true, out := m }) ∧
    ((s.lp p).again = true → ∃ t, exec (.noResponse p) s = .next t ∧ s.OnlyParts [.objs, .core, .grp, .ph, .col, .jrnl, .ring, .env,
      .link, .fab] t ∧ (t.lp p).await_ = none ∧ (t.lp p).leaving = false ∧
      (s.inContract p = true → t.lState p = 8) ∧ (s.lState p = 4 ∨ s.lState p = 9 → t.lState p = (if s.moist p = 2 then 10 else 3)))) ∧
  (∀ (p : Port) (s : State) (c : Instr), s.linkHere = true →
    (c = .transitionTimeout p ∧ (s.lp p).timer = true ∧ (s.lState p = 5 ∨ s.lState p = 7)) ∨
    (∃ v, c = .contractVoltage p v ∧ s.lState p = 6 ∧ (v < 450 * (s.lp p).now.volt ∨ 550 * (s.lp p).now.volt < v)) →
    ∃ t, exec c s = .next t ∧ t.lState p = 8 ∧ (t.lp p).now = {} ∧ (t.lp p).next = none ∧ (t.lp p).timer = false ∧
      (t.lp p).discharge = 2 ∧ s.OnlyParts [.objs, .core, .grp, .ph, .col, .jrnl, .ring, .env, .link, .fab] t) ∧
  (∀ (p : Port) (s : State), s.linkHere = true → s.inContract p = true →
    ∃ t, exec (.dataLost p) s = .next t ∧ t.lState p = 9 ∧
      t.lp p = { s.lp p with next := none, timer := false, ramp := some (s.now, ms 20) } ∧
        (s.contractHeld p = true → t.env.broken = true) ∧ s.OnlyParts [.objs, .col, .jrnl, .env, .link] t) ∧
  (∀ (p : Port) (s : State) (c : Instr), s.linkHere = true → (c = .linkDischargeDone p ∧ s.lState p = 8) ∨
    (c = .rampDownComplete p ∧ s.lState p = 9) →
    ∃ t, exec c s = .next t ∧ t.lState p = (if s.moist p = 2 then 10 else 3) ∧ (t.lp p).discharge = 0 ∧ (t.lp p).now = {} ∧
      bit (t.g p.group).stops 6 = true ∧ s.OnlyParts [.objs, .core, .grp, .ph, .col, .jrnl, .ring, .env, .link] t) ∧
  (∀ (p : Port) (v : Nat) (s : State), s.linkHere = true → s.lState p = 8 → 5000 ≤ v →
    ∃ t, exec (.dischargeFail p v) s = .next t ∧ ((s.col.bus.filter fun m => m.src == linkSrc p).length < 4 →
      t.col.bus = s.col.bus ++ [{ src := linkSrc p, kind := 7, inst := decivolts v }]) ∧ s.OnlyParts [.objs, .col] t ∧
      s.SameObjs [Obj.FAULT_LOST] t)

/-- The built-in policy and LINK_CTRL (R343-R345): an OFFER from NEUTRAL with room for one; a DETACH of the Provider whose pack runs low and
of the Consumer whose pack is full, each with its reason; none where the port's sequencer has a table; a DETACH, a SWAP_REQ and a HARD_RESET
of the host. -/
def Obligations.LinkPolicyAndControl : Prop :=
  (∀ (p : Port) (o : Nat × Nat × Nat × Nat) (s : State), s.linkHere = true → s.builtIn p = true → s.lState p = 3 → s.linkFree = true →
    (s.lp p).net = false → bit (s.linkAt p 0) 3 = true → s.provEn p = true → 5 * s.linkAt p 7 ≤ s.obj Obj.PACK_SOC →
    s.offerOf p = some o →
    (∃ t, exec (.reoffer p) s = .next t ∧ t.lState p = 4 ∧ t.awaiting p = 1 ∧ (t.lp p).offer.isSome = true ∧
      s.OnlyParts [.objs, .col, .link, .fab] t) ∧
    (∀ m, s.served m = true → s.writeCode m (Obj.LINK_CTRL (p.num + 1)) (leBytes 1 4) = 0 →
      ∃ t, exec (.linkCtrlApplyPolicy m p) s = .next t ∧ t.srv.code = 0 ∧ t.lState p = 4 ∧ t.awaiting p = 1 ∧
        s.OnlyParts [.objs, .col, .link, .fab, .srv] t)) ∧
  (∀ (p : Port) (s : State), s.linkHere = true → s.builtIn p = true → s.lState p = 6 → s.linkFree = true → s.awaiting p = 0 →
    (s.lp p).now.prov = true → s.obj Obj.PACK_SOC + 50 < 5 * s.linkAt p 7 →
    ∃ t, exec (.reoffer p) s = .next t ∧ t.awaiting p = 9 ∧ (t.lp p).leaving = true ∧ byteAt ((t.lp p).await_.getD []) 4 = 0x0C ∧
      s.OnlyParts [.objs, .col, .link, .fab] t) ∧
  (∀ (p : Port) (s : State), s.linkHere = true → s.builtIn p = true → s.lState p = 6 → s.linkFree = true → s.awaiting p = 0 →
    (s.lp p).now.prov = false → 5 * s.linkAt p 8 ≤ s.obj Obj.PACK_SOC →
    ∃ t, exec (.reoffer p) s = .next t ∧ t.awaiting p = 9 ∧ (t.lp p).leaving = true ∧ byteAt ((t.lp p).await_.getD []) 4 = 1 ∧
      s.OnlyParts [.objs, .col, .link, .fab] t) ∧
  (∀ (p : Port) (s : State), s.builtIn p = false → exec (.reoffer p) s = .next s) ∧
  (∀ (m : Master) (p : Port) (s : State), s.served m = true →
    (s.writeCode m (Obj.LINK_CTRL (p.num + 1)) (leBytes 1 1) = 0 →
      ∃ t, exec (.linkCtrlDetach m p) s = .next t ∧ t.srv.code = 0 ∧ t.awaiting p = 9 ∧ (t.lp p).leaving = true ∧
        byteAt ((t.lp p).await_.getD []) 4 = 0x0B ∧ t.lState p = s.lState p ∧ s.OnlyParts [.objs, .col, .link, .fab, .srv] t) ∧
    (s.writeCode m (Obj.LINK_CTRL (p.num + 1)) (leBytes 1 2) = 0 →
      ∃ t, exec (.linkCtrlSwapReq m p) s = .next t ∧ t.srv.code = 0 ∧ t.awaiting p = 6 ∧ t.lState p = s.lState p ∧
        s.OnlyParts [.objs, .col, .link, .fab, .srv] t) ∧
    (s.writeCode m (Obj.LINK_CTRL (p.num + 1)) (leBytes 1 3) = 0 →
      ∃ t, exec (.linkCtrlHardReset m p) s = .next t ∧ s.OnlyParts [.objs, .core, .grp, .ph, .col, .jrnl, .ring, .env, .link, .fab,
        .srv] t ∧ t.srv.code = 0 ∧ t.lState p = 8 ∧ (t.lp p).now = {} ∧ (t.lp p).discharge = 2))

/-- The fabric ports (R362-R365): lock and its loss, a HELLO sent and one received, the hello that does not come. -/
def Obligations.FabricPorts : Prop :=
  (∀ (p : Port) (s : State), s.variant = .A → s.aon.por = false → s.obj (Obj.PORT_STATE (p.num + 1)) = 1 →
    ∃ t, exec (.receiverLock p) s = .next t ∧ t.obj (Obj.PORT_STATE (p.num + 1)) = 2 ∧
      t.fab.ports.get p = { s.fab.ports.get p with hellos := 0, delays := [], txTime := 0, rxTime := 0 } ∧
      t.fab.ports.get p.other = s.fab.ports.get p.other ∧ s.OnlyParts [.objs, .fab] t ∧
      s.SameObjs [Obj.PORT_STATE (p.num + 1), Obj.CLK_STATE] t) ∧
  (∀ (p : Port) (s : State) (c : Instr), (c = .receiverLockLost p ∧ 2 ≤ s.obj (Obj.PORT_STATE (p.num + 1))) ∨
    (c = .helloTimeout p ∧ 3 ≤ s.obj (Obj.PORT_STATE (p.num + 1))) →
    ∃ t, exec c s = .next t ∧ t.obj (Obj.PORT_STATE (p.num + 1)) = 1 ∧ t.obj (Obj.PORT_DELAY (p.num + 1)) = 0 ∧
      (t.fab.ports.get p).queue = [] ∧ (t.fab.ports.get p).hellos = 0 ∧
      (s.obj (Obj.PORT_STATE (p.num + 1)) = 3 → t.obj (Obj.PORT_NBR (p.num + 1)) = 0 ∧ t.fab.settled = false) ∧
      s.OnlyParts [.objs, .col, .fab] t) ∧
  (∀ (p : Port) (n : Nat) (s : State), 2 ≤ s.obj (Obj.PORT_STATE (p.num + 1)) →
    ∃ t, exec (.helloSend p n) s = .next t ∧
      t.fab.seqs.read (fun _ => 0) 0xFF = (s.fab.seqs.read (fun _ => 0) 0xFF + 1) % 256 ∧
      (((s.fab.ports.get p).queue.filter fun e => e.1 == 1).length < 8 →
        (t.fab.ports.get p).queue = (s.fab.ports.get p).queue ++ [(1, {
          node := 0xFF, src := s.nodeId, type := 1, seq := s.fab.seqs.read (fun _ => 0) 0xFF, data := s.helloBytes p n })]) ∧
      s.OnlyParts [.objs, .col, .fab] t ∧ s.SameObjs [Obj.FAB_STATS 6, Obj.FAULT_LOST] t) ∧
  (∀ (p : Port) (b : List Byte) (n : Nat) (s : State),
    [2, 3, 4].contains (s.obj (Obj.PORT_STATE (p.num + 1))) = true → b.length = 26 → byteAt b 11 = 1 →
    ∃ t, exec (.hello p b n) s = .next t ∧ (t.fab.ports.get p).hellos = (s.fab.ports.get p).hellos + 1 ∧
      (t.fab.ports.get p).txTime = leAt b 12 4 ∧ (t.fab.ports.get p).rxTime = n ∧ (t.fab.ports.get p).nbrNode = byteAt b 8 ∧
      (s.obj (Obj.PORT_STATE (p.num + 1)) = 2 → (s.fab.ports.get p).hellos = 0 → t.obj (Obj.PORT_STATE (p.num + 1)) = 2) ∧
      (s.obj (Obj.PORT_STATE (p.num + 1)) = 2 → (s.fab.ports.get p).hellos ≠ 0 → byteAt b 9 % 2 ≠ p.num →
        t.obj (Obj.PORT_STATE (p.num + 1)) = 3 ∧ t.obj (Obj.PORT_NBR (p.num + 1)) = leAt b 0 8 ∧ t.fab.settled = false) ∧
      (s.obj (Obj.PORT_STATE (p.num + 1)) = 2 → (s.fab.ports.get p).hellos ≠ 0 → byteAt b 9 % 2 = p.num →
        t.obj (Obj.PORT_STATE (p.num + 1)) = 4) ∧
      (s.lState p ≠ 2 → s.OnlyParts [.objs, .col, .link, .fab] t) ∧ s.OnlyParts [.objs, .core, .grp, .ph, .col, .jrnl, .env, .link, .fab] t) ∧
  (∀ (p : Port) (b : List Byte) (n : Nat) (s : State),
    [2, 3, 4].contains (s.obj (Obj.PORT_STATE (p.num + 1))) = true → b.length ≠ 26 ∨ byteAt b 11 ≠ 1 →
    ∃ t, exec (.hello p b n) s = .next t ∧ s.OnlyParts [.objs, .core, .grp, .ph, .col, .jrnl, .env, .link, .fab] t ∧
      (t.fab.ports.get p).hellos = 0 ∧
      t.obj (Obj.FAB_STATS (3 + p.num)) = satInc 0xFFFFFFFF (s.obj (Obj.FAB_STATS (3 + p.num))))

/-- Topology, election and assignment (R366-R372): a record held or expired, the node's own record, the settled fabric's zenith, an
assignment adopted or repeated, NODE_ID_SET. -/
def Obligations.FabricTopologyAndAssignment : Prop :=
  (∀ (p : Port) (src seq hops : Nat) (b : List Byte) (s : State),
    [2, 3].contains (s.obj (Obj.PORT_STATE (p.num + 1))) = true → b.length = 32 → (topoOf b).uid ≠ s.uid →
    (∀ x ∈ s.fab.recs, x.uid = (topoOf b).uid → seqNewer (topoOf b).seq x.seq = true) →
    ∃ t, exec (.topo p src seq hops b) s = .next t ∧
      t.fab.recs = (s.fab.recs.filter fun x => x.uid != (topoOf b).uid) ++ [topoOf b] ∧
      (s.lState p ≠ 2 → s.OnlyParts [.objs, .col, .link, .fab] t) ∧ s.OnlyParts [.objs, .core, .grp, .ph, .col, .jrnl, .env, .link, .fab] t) ∧
  (∀ s : State, s.fabOn = true →
    ∃ t, exec .topoSend s = .next t ∧ t.fab.topoSeq = (s.fab.topoSeq + 1) % 65536 ∧
      t.fab.seqs.read (fun _ => 0) 0xFF = (s.fab.seqs.read (fun _ => 0) 0xFF + 1) % 256 ∧ s.OnlyParts [.objs, .col, .fab] t ∧
      s.SameObjs [Obj.FAB_STATS 6, Obj.FAULT_LOST] t) ∧
  (∀ (uid : Nat) (s : State), (s.fab.recs.any fun r => r.uid == uid) = true →
    ∃ t, exec (.topoRecordExpiry uid) s = .next t ∧ t.fab.recs = (s.fab.recs.filter fun r => r.uid != uid) ∧
      t.fab.settled = false ∧ t.obj Obj.FAB_STATE = (if s.fabOn then 1 else 0) ∧ s.OnlyParts [.objs, .fab] t) ∧
  (∀ s : State, s.fabOn = true → s.fab.settled = false →
    ∃ t, exec .fabricSettled s = .next t ∧ t.fab.settled = true ∧ t.fab.zenith = s.elect ∧
      t.obj Obj.ZENITH_UID = s.elect.getD 0 ∧ (s.elect = none → t.obj Obj.TIMEBASE_STATE = 0) ∧
      (s.elect = some s.uid → t.obj Obj.TIMEBASE_STATE = 4) ∧ s.OnlyParts [.objs, .col, .jrnl, .tabs, .fab] t) ∧
  (∀ (p : Port) (src seq hops id : Nat) (b : List Byte) (s : State),
    [2, 3].contains (s.obj (Obj.PORT_STATE (p.num + 1))) = true → 1 ≤ byteAt b 4 → byteAt b 4 ≤ 25 →
    b.length = 8 + 9 * byteAt b 4 → s.sentBy { node := 0xFF, src := src, type := 3, seq := seq, hops := hops, data := b } s.ownRec = false →
    (assignEntries b).find? (fun e => e.1 == s.uid) = some (s.uid, id) →
    s.assignBetter (leAt b 0 2) (s.assignFrom src b) = true →
    ∃ t, exec (.assign p src seq hops b) s = .next t ∧ t.obj Obj.NODE_ID = id ∧ t.obj Obj.ASSIGN_GEN = leAt b 0 2 ∧
      t.fab.stored = id ∧ t.fab.adopted = true ∧ t.fab.from_ = s.assignFrom src b ∧ t.obj Obj.FAB_STATE = 3 ∧
      (s.lState p ≠ 2 → s.OnlyParts [.objs, .col, .jrnl, .tabs, .link, .fab] t) ∧
      s.OnlyParts [.objs, .core, .grp, .ph, .col, .jrnl, .tabs, .env, .link, .fab] t) ∧
  (∀ s : State, s.fabOn = true → s.fab.zenith = some s.uid → s.fab.assign ≠ [] →
    ∃ t, exec .assignRepeat s = .next t ∧ t.fab.assign = s.fab.assign ∧
      t.fab.seqs.read (fun _ => 0) 0xFF = (s.fab.seqs.read (fun _ => 0) 0xFF + s.fab.assign.length) % 256 ∧
      s.OnlyParts [.objs, .col, .fab] t ∧ s.SameObjs [Obj.FAB_STATS 6, Obj.FAULT_LOST] t) ∧
  (∀ (m : Master) (v : Nat) (s : State), s.served m = true → s.writeCode m Obj.NODE_ID_SET (leBytes 1 v) = 0 →
    ∃ t, exec (.nodeIdSetWrite m v) s = .next t ∧ t.srv.code = 0 ∧ t.fab = { s.fab with stored := v % 256 } ∧
      t.jrnl.buf.read (fun _ => 0) Obj.NODE_ID = v % 256 + 1 ∧ s.OnlyParts [.objs, .jrnl, .fab, .srv] t ∧
      s.SameObjs [Obj.OD_JOURNAL, Obj.OD_STATS_REQUESTS] t)

/-- Frames and object requests over the fabric (R361, R373, R376-R381): a routed frame goes on with one hop more, one that fails its checks
is counted, a read and a write are answered, a response ends its request, one that does not come is asked for again, NOTIFY. -/
def Obligations.FabricFramesAndRequests : Prop :=
  (∀ (p q : Port) (b : List Byte) (f : Frame) (n : Nat) (s : State),
    [2, 3].contains (s.obj (Obj.PORT_STATE (p.num + 1))) = true → frameOf b = some f → frameType f.type = true → f.type ≠ 1 →
    f.type ≠ 0x4C → f.node ≠ 0xFF → f.node ≠ s.nodeId →
    (64 ≤ f.hops → ∃ t, exec (.frameForward p b false) s = .next t ∧ s.OnlyParts [.objs, .core, .grp, .ph, .col, .jrnl, .env, .link, .fab] t ∧
      t.obj (Obj.FAB_STATS 7) = satInc 0xFFFFFFFF (s.obj (Obj.FAB_STATS 7)) ∧ t.fab = s.fab) ∧
    (f.hops < 64 → s.routeTo f.node = some (q, n) → s.portUp q = true →
      ((s.fab.ports.get q).queue.filter fun e => e.1 == framePrio f.type).length < queueRoom (framePrio f.type) →
      ∃ t, exec (.frameForward p b false) s = .next t ∧
        (t.fab.ports.get q).queue = (s.fab.ports.get q).queue ++ [(framePrio f.type, { f with hops := f.hops + 1 })] ∧
        (s.lState p ≠ 2 → s.OnlyParts [.objs, .link, .fab] t ∧ s.SameObjs [Obj.FAB_STATS 1] t) ∧
        s.OnlyParts [.objs, .core, .grp, .ph, .col, .jrnl, .env, .link, .fab] t)) ∧
  (∀ (p : Port) (b : List Byte) (code : Bool) (s : State), 2 ≤ s.obj (Obj.PORT_STATE (p.num + 1)) → frameOf b = none ∨ code = true →
    ∃ t, exec (.frameForward p b code) s = .next t ∧
      t.obj (Obj.FAB_STATS (3 + p.num)) = satInc 0xFFFFFFFF (s.obj (Obj.FAB_STATS (3 + p.num))) ∧
      (∀ q, (t.fab.ports.get q).queue = (s.fab.ports.get q).queue) ∧ s.OnlyParts [.objs, .col, .fab] t ∧
      s.SameObjs [Obj.FAB_STATS (3 + p.num), Obj.FAULT_LOST] t) ∧
  (∀ (p : Port) (src obj : Nat) (b : List Byte) (s x : State), [2, 3].contains (s.obj (Obj.PORT_STATE (p.num + 1))) = true →
    src ≠ 0 → s.served .F = true → x = (s.fabTake p 0x10).2 → x.fabKept src (byteAt b 0) = none →
    (4 ≤ x.fabServed src → ∃ t, exec (.readReq p src obj b) s = .next t ∧ s.OnlyParts [.objs, .core, .grp, .ph, .col, .recs, .jrnl, .env,
      .link, .fab, .srv] t ∧ t = x.fabSend {
        node := src, obj := obj % 4096, src := x.nodeId, type := 0x11
        data := leBytes 1 (byteAt b 0) ++ leBytes 1 (byteAt b 1) ++ leBytes 1 0xF0 ++ leBytes 1 0 ++ leBytes 4 (leAt b 2 4) ++ leBytes 4 0 }) ∧
    (x.fabServed src < 4 → b.length = 6 → leAt b 2 4 = 0 → ∃ t f, exec (.readReq p src obj b) s = .next t ∧
      t.fab.answered.head? = some (src, byteAt b 0, s.now, f) ∧ f.node = src ∧
      f.type = 0x11 ∧ f.data = leBytes 1 (byteAt b 0) ++ leBytes 1 (byteAt b 1) ++
        leBytes 1 (x.readSegment .F (obj % 4096 * 256 + byteAt b 1) 0 244).1 ++ leBytes 1 0 ++ leBytes 4 0 ++
        leBytes 4 (x.readSegment .F (obj % 4096 * 256 + byteAt b 1) 0 244).2.1 ++
        (x.readSegment .F (obj % 4096 * 256 + byteAt b 1) 0 244).2.2.1 ∧
      (s.lState p ≠ 2 → s.OnlyParts [.objs, .col, .recs, .jrnl, .link, .fab, .srv] t) ∧
      s.OnlyParts [.objs, .core, .grp, .ph, .col, .recs, .jrnl, .env, .link, .fab, .srv] t)) ∧
  (∀ (p : Port) (src seq hops obj : Nat) (b : List Byte) (s x : State), [2, 3].contains (s.obj (Obj.PORT_STATE (p.num + 1))) = true →
    src ≠ 0 → s.served .F = true → x = (s.fabTake p 0x12).2 →
    (x.fabKept src (byteAt b 0) = none → x.fabServed src < 4 → ∃ t f, exec (.writeReq p src seq hops obj false b) s = .next t ∧
      s.OnlyParts [.free, .objs, .core, .grp, .ph, .aon, .strat, .mode, .src, .col, .recs, .spd, .jrnl, .otp, .meas, .ring, .archive, .hz,
        .tabs, .env, .chg, .link, .fab, .seqs, .flash, .wd, .srv, .can, .note, .lin, .uds] t ∧
      t.fab.answered.head? = some (src, byteAt b 0, s.now, f) ∧ f.node = src ∧ f.type = 0x13 ∧
      f.data = leBytes 1 (byteAt b 0) ++ leBytes 1 (byteAt b 1) ++ leBytes 1 (x.fabWrite (obj % 4096) b).1 ++ leBytes 1 0) ∧
    (src ≠ s.nodeId → ∀ u, u = ((x.fabOnward p {
        node := 0xFF, obj := obj % 4096, src := src, type := 0x12, seq := seq, hops := hops, data := b }).fabWrite (obj % 4096) b).2 →
      ∃ t, exec (.writeReq p src seq hops obj true b) s = .next t ∧ u.OnlyParts [.objs, .col, .ring] t ∧
        u.SameObjs [Obj.FAULT_LOST] t)) ∧
  (∀ (p : Port) (src type : Nat) (b : List Byte) (r : FabReq) (s : State),
    [2, 3].contains (s.obj (Obj.PORT_STATE (p.num + 1))) = true → s.serving = true → s.fabReq? (byteAt b 0) = some r →
    r.frame.node = src → type = r.frame.type + 1 →
    ∃ t, exec (.fabricResponse p src type b) s = .next t ∧ (t.fab.reqs.any fun x => x.txn == r.txn) = false ∧
      (r.who = none ∨ byteAt b 2 = 0 → t.seqs = s.seqs ∧
        (s.lState p ≠ 2 → s.OnlyParts [.objs, .link, .fab] t ∧ s.SameObjs [Obj.FAB_STATS 1] t)) ∧
      s.OnlyParts [.objs, .core, .grp, .ph, .col, .recs, .jrnl, .env, .link, .fab, .seqs] t) ∧
  (∀ (txn : Nat) (r : FabReq) (s : State), s.fabReq? txn = some r →
    (r.tries < 3 → ∃ t, exec (.fabricRequestTimeout txn) s = .next t ∧ t.fab.reqs = (s.fab.reqs.map fun (x : FabReq) =>
      if x.txn = txn then { x with tries := x.tries + 1 } else x) ∧ s.OnlyParts [.objs, .col, .fab] t) ∧
    (3 ≤ r.tries → ∃ t, exec (.fabricRequestTimeout txn) s = .next t ∧
      (t.fab.reqs.any fun x => x.txn == txn) = false ∧ s.OnlyParts [.objs, .col, .recs, .fab, .seqs] t)) ∧
  (∀ s : State, s.served .F = true → s.fabOn = true →
    ∃ t, exec .notifySend s = .next t ∧
      t.fab.seqs.read (fun _ => 0) 0xFF = (s.fab.seqs.read (fun _ => 0) 0xFF + 1) % 256 ∧ s.OnlyParts [.objs, .col, .fab] t ∧
      s.SameObjs [Obj.FAB_STATS 6, Obj.FAULT_LOST] t)

/-- Fabric boot (R387-R389) and the timebase (R382-R386). -/
def Obligations.FabricBootAndTimebase : Prop :=
  (∀ (p q : Port) (src n : Nat) (b : List Byte) (s : State), [2, 3].contains (s.obj (Obj.PORT_STATE (p.num + 1))) = true →
    s.served .F = true → src ≠ 0 → s.obj Obj.FAB_BOOT_SRV = 1 → b.length = 8 → s.routeTo src = some (q, n) → s.portUp q = true →
    ((s.fab.ports.get q).queue.filter fun e => e.1 == 3).length < 32 →
    ∃ t f, exec (.bootReq p src b) s = .next t ∧ (t.fab.ports.get q).queue = (s.fab.ports.get q).queue ++ [(3, f)] ∧
      f.type = 0x21 ∧ f.node = src ∧ f.data.take 2 = leBytes 1 (byteAt b 0) ++ leBytes 1 (b2n
        (if s.activeBank = 0 then none else (s.bank s.activeBank).image? (byteAt b 0)).isNone) ∧
      (s.lState p ≠ 2 → s.OnlyParts [.objs, .link, .fab] t ∧ s.SameObjs [Obj.FAB_STATS 1] t) ∧ s.OnlyParts [.objs, .core, .grp, .ph, .col,
        .jrnl, .env, .link, .fab] t) ∧
  (∀ (p : Port) (src n : Nat) (b : List Byte) (r : FabReq) (s : State), [2, 3].contains (s.obj (Obj.PORT_STATE (p.num + 1))) = true →
    s.fab.boot = some n → s.fabReq? 256 = some r → r.frame.node = src → byteAt b 0 = n → leAt b 2 4 = s.fab.bootData.length →
    ∃ t, exec (.bootData p src b) s = .next t ∧
      (byteAt b 1 = 0 → (s.fab.bootData ++ b.drop 10).length < leAt b 6 4 →
        t.fab.bootData = s.fab.bootData ++ b.drop 10 ∧ t.fab.boot = some n) ∧
      (byteAt b 1 = 0 → leAt b 6 4 ≤ (s.fab.bootData ++ b.drop 10).length → t.fab.bootData = [] ∧ t.fab.boot = some (n + 1)) ∧
      (byteAt b 1 = 1 → t.fab.bootData = [] ∧ t.fab.boot = some (n + 1) ∧ t.tabs = s.tabs) ∧
      (s.lState p ≠ 2 → s.OnlyParts [.objs, .col, .tabs, .link, .fab] t) ∧
      s.OnlyParts [.objs, .core, .grp, .ph, .col, .jrnl, .tabs, .env, .link, .fab] t) ∧
  (∀ (n : Nat) (s : State), s.fab.boot = some n → s.obj Obj.BRINGUP_STEP = 6 → n ≤ 10 →
    ∃ t, exec .fabricBootFail s = .next t ∧ t.fab.boot = none ∧ t.fab.bootData = [] ∧ s.OnlyParts [.objs, .col, .tabs, .fab] t) ∧
  (∀ (e w : Nat) (s : State), s.fabOn = true → s.fab.zenith = some s.uid → s.obj Obj.TIMEBASE_STATE = 4 →
    ∃ t, exec (.markerEmit e w) s = .next t ∧ t.fab.count = (s.fab.count + 1) % 256 ∧
      (s.portUp .east = true → (t.fab.ports.get .east).marker = some (s.fab.count, e % 65536)) ∧
      (s.portUp .west = true → (t.fab.ports.get .west).marker = some (s.fab.count, w % 65536)) ∧ s.OnlyParts [.fab] t) ∧
  (∀ (p : Port) (count ofs n out : Nat) (s : State), s.fabOn = true → s.portUp p = true → s.fab.zenith.isSome = true →
    s.obj Obj.ZENITH_ROOT = p.num → s.obj Obj.TIMEBASE_STATE ≠ 4 →
    ∃ t, exec (.marker p count ofs n out) s = .next t ∧ t.obj Obj.TIMEBASE_COUNT = count ∧ t.obj Obj.TIMEBASE_OFS = ofs ∧
      t.fab.tLast = some ((n : Int) - ofs - s.obj (Obj.PORT_DELAY (p.num + 1))) ∧
      t.obj Obj.TIMEBASE_STATE = (if s.fab.tLast = none ∨ s.obj Obj.TIMEBASE_STATE = 3 then 1 else 2) ∧
      (∀ (l d k : Int), s.fab.tLast = some l → d = (n : Int) - ofs - s.obj (Obj.PORT_DELAY (p.num + 1)) - l →
        k = periodsIn d s.fab.tPeriod → t.fab.tPeriod = d / k ∧
        t.obj Obj.TIMEBASE_ERR = toCode 16 (clampI (-32768) 32767 (d - k * s.fab.tPeriod))) ∧
      s.OnlyParts [.objs, .fab] t ∧
      s.SameObjs [Obj.TIMEBASE_COUNT, Obj.TIMEBASE_OFS, Obj.TIMEBASE_ERR, Obj.TIMEBASE_STATE] t) ∧
  (∀ s : State, s.fabOn = true → s.obj Obj.TIMEBASE_STATE = 1 ∨ s.obj Obj.TIMEBASE_STATE = 2 → s.fab.tLast.isSome = true →
    ∃ t, exec .timebaseLost s = .next t ∧ t.obj Obj.TIMEBASE_STATE = 3 ∧
      (∀ g, s.hasGroup g = true → s.syncSource g = 2 → (s.g g).sync = 2 → (t.g g).sync = 3) ∧
      s.OnlyParts [.objs, .core, .grp, .col, .ring] t ∧ s.SameObjs [Obj.TIMEBASE_STATE, Obj.FAULT_LOST] t)

/-- The Horizon planner's rounds, its rail probe and what it applies (R470, R479-R481, R491, R493). Epochs, rebasing and the hour (R482,
R486-R493, R496, R497). -/
def Obligations.HorizonPlanner : Prop :=
  (∀ s : State, s.hzSampling = true → s.thm.age.due s.now = true →
    ∃ t, exec .hzRoundClose s = .next t ∧ t.hz.trim = Vector.replicate 16 {} ∧ t.hz.path = Vector.replicate 16 {} ∧ t.hz.zth = [] ∧
      t.hz.q = none ∧ (∀ q, s.hz.q = some q → t.hzLatest 34 = some q ∧ 34 ∈ t.hz.fresh) ∧
      (s.modeNow = 2 → bit s.hzFlags 1 = true → s.hz.probe = 0 → s.hz.epoch = none →
        t.hz.probe = 1 ∧ t.hz.probeBy = s.now + sec 600) ∧
      t.thm = { s.thm with age := s.thm.age.ran s.now } ∧ s.OnlyParts [.hz, .thm] t) ∧
  (∀ s : State, s.hz.probe = 1 → s.now ≤ s.hz.probeBy → s.probeOk = true →
    ∃ t, exec .hzProbeStart s = .next t ∧ t.hz = { s.hz with probe := 2, probeAt := s.now } ∧ t.obj Obj.HZ_STATE = 2 ∧ s.OnlyParts [.objs,
      .hz] t ∧
      s.SameObjs [Obj.HZ_STATE] t) ∧
  (∀ (steps : List ProbeStep) (ripple : List (Int × Int)) (c esr : Nat) (s : State), s.hz.probe = 2 → s.hz.probeAt + ms 180 ≤ s.now →
    c = (s.probeCap steps).1 → esr = ((s.probeCap steps).2.probeEsr ripple).1 →
    ∃ t, exec (.hzProbeComplete steps ripple) s = .next t ∧ t.hz.probe = 0 ∧ t.obj Obj.HZ_STATE = 1 ∧
      (s.probeBad 32 c = true ∨ s.probeBad 33 esr = true → t.hz = { s.hz with probe := 0 }) ∧
      (s.probeBad 32 c = false → s.probeBad 33 esr = false → t.hzLatest 32 = some c ∧ t.hzLatest 33 = some esr ∧
        t.hzBase 32 = some ((s.hzBase 32).getD c) ∧ t.hzBase 33 = some ((s.hzBase 33).getD esr)) ∧
      s.OnlyParts [.free, .objs, .col, .hz] t ∧ s.SameObjs [Obj.HZ_STATE, Obj.FAULT_LOST] t) ∧
  (∀ s : State, s.serving = true →
    ∃ t, exec .hzTermRamp s = .next t ∧ t.hz.applied = ((List.range 9).map fun n =>
      toward (s.hz.applied.getD n 1000) (s.obj (Obj.DER_NOW (n + 1))) (s.hz.applied.getD n 1000 / 100)) ∧
      s.OnlyParts [.objs, .core, .grp, .ph, .src, .col, .ring, .hz] t ∧ s.SameObjs [Obj.IIN_LIMIT, Obj.FAULT_LOST] t) ∧
  (∀ (g : Group) (n w f : Nat) (s : State), s.serving = true → s.shellUp = true → s.core.handedOver = true → s.idleGroups = [] →
    s.hasGroup g = true → s.hz.ceiling = [(g, n)] → 200 ≤ n → w = s.wordStanding (32 + g.num) → w < 2 ^ 24 →
    wordInRange (32 + g.num) w = true → f = field w 11 0 → n < f - f / 100 →
    ∃ t, exec .freqCeilingStep s = .next t ∧ field (t.wordStanding (32 + g.num)) 11 0 = f - f / 100 ∧
      field (t.wordStanding (32 + g.num)) 17 16 = 0 ∧ s.OnlyParts [.core] t) ∧
  (∀ s : State, s.shellUp = true → s.bringing = false → s.inMode [2, 3] = true → s.hz.epoch = none →
    ∃ t, exec .hzEpochTimer s = .next t ∧ t.hz.epoch = some 2 ∧ t.hz.der = s.derBody ∧ t.obj Obj.HZ_STATE = 3 ∧
      t.obj Obj.HZ_OP_TIME = max (s.obj Obj.HZ_OP_TIME) (s.obj Obj.HZ_EPOCH_LAST + 230400) ∧ s.OnlyParts [.objs, .jrnl, .hz] t ∧
      s.SameObjs [Obj.HZ_STATE, Obj.HZ_OP_TIME, Obj.OD_JOURNAL] t) ∧
  (∀ (m : Master) (v : Nat) (s : State), s.served m = true → s.writeCode m Obj.HZ_EPOCH_CMD (leBytes 1 v) = 0 →
    ∃ t, exec (.hzEpochCmd m v) s = .next t ∧ t.srv.code = 0 ∧ (s.hz.epoch = none → t.hz.epoch = some 3 ∧ t.obj Obj.HZ_STATE = 3) ∧
      (s.hz.epoch ≠ none → t.hz = s.hz) ∧ s.OnlyParts [.objs, .hz, .srv] t) ∧
  (∀ (k : Nat) (s : State), s.hz.epoch = some k → s.shellUp = true → s.modeNow ≠ 4 →
    ∃ t, exec .epochComplete s = .next t ∧ t.hz.epoch = none ∧ t.hz.fresh = [] ∧ t.tabs = s.tabs ∧
      t.obj Obj.HZ_EPOCH_COUNT = satInc 0xFFFFFFFF (s.obj Obj.HZ_EPOCH_COUNT) ∧
      t.obj Obj.HZ_EPOCH_LAST = s.obj Obj.HZ_OP_TIME ∧ t.obj Obj.HZ_EPOCH_RESULT = 1 ∧
      s.obj Obj.FREQ_CEIL - s.obj Obj.FREQ_CEIL * 5 / 100 ≤ t.obj Obj.FREQ_CEIL ∧
      t.obj Obj.FREQ_CEIL ≤ s.obj Obj.FREQ_CEIL + s.obj Obj.FREQ_CEIL * 5 / 100 ∧
      s.OnlyParts [.objs, .grp, .mode, .col, .jrnl, .thm, .hz, .log, .logRetry] t ∧
      (∀ g, t.g g = { s.g g with syncBarred := (t.g g).syncBarred })) ∧
  (∀ (m : Master) (v : Nat) (l : List Nat) (s : State), s.served m = true → s.writeCode m Obj.HZ_REBASE (leBytes 1 v) = 0 →
    rebaseOf (v % 256) = some l →
    ∃ t, exec (.hzRebase m v) s = .next t ∧ t.srv.code = 0 ∧ (∀ i, t.hzBase i = if l.contains i then none else s.hzBase i) ∧
      (∀ i, t.hzLatest i = s.hzLatest i) ∧ s.OnlyParts [.objs, .hz, .srv] t ∧ s.SameObjs [Obj.OD_STATS_REQUESTS] t) ∧
  (∀ s : State, s.shellUp = true → s.bringing = false → s.inMode [2, 3, 4, 5] = true →
    ∃ t, exec .hourRecord s = .next t ∧ t.hour = { mark := s.hour.mark + 1 } ∧
      t.obj Obj.HZ_OP_TIME = max (s.obj Obj.HZ_OP_TIME) (3600 * (s.hour.mark + 1)) ∧
      (s.flashOk = true → t.logRetry = [] ∧ t.log.length = min 131400 (1 + s.logRetry.length + s.log.length) ∧
        t.obj Obj.HZ_LOG_COUNT = t.log.length) ∧
      (s.flashOk = false → t.log = s.log ∧ t.logRetry.length = s.logRetry.length + 1) ∧
      s.OnlyParts [.objs, .col, .jrnl, .hz, .hour, .log, .logRetry] t)

/-- Acceptance (R503-R505, R509, R511, R520): a RAISE counts and is recorded, repeated, or merged into the open window's record; a CLEAR
ends its instance; a message to a full queue is lost. -/
def Obligations.MessageAcceptance : Prop :=
  (∀ (m : Msg) (core : Bool) (x s : State), s.shellUp = true → s.nextMsg = some (m, core, x) → m.clear = false →
    m.src ≠ 0 →
    ∃ t, exec .faultRaise s = .next t ∧ t.obj Obj.FAULT_COUNT = satInc 0xFFFFFFFF (s.obj Obj.FAULT_COUNT) ∧
      t.obj Obj.FAULT_LAST = msgWord m ∧
        t.hour = (if 2 ≤ (s.reactionOf m.src m.kind).1 then { s.hour with faults := s.hour.faults + 1 } else s.hour) ∧
      (s.aon.direct = true → s.OnlyParts [.objs, .col, .jrnl, .ring, .archive, .hour, .flash, .uds] t)) ∧
  (∀ (m : Msg) (core : Bool) (n : Nat) (x s : State), s.shellUp = true → s.nextMsg = some (m, core, x) → m.clear = false →
    m.src ≠ 0 → s.aon.direct = false → s.col.handling = none → (s.recs.any fun e => e.2.src == m.src && e.2.kind == m.kind) = false →
    s.slotFor (s.reactionOf m.src m.kind).1 = some n →
    ∃ t r, exec .faultRaise s = .next t ∧ t.rec? n = some r ∧ r.first = msgWord m ∧ r.last = msgWord m ∧ r.active = true ∧
      r.waiting = true ∧ r.cls = (s.reactionOf m.src m.kind).1 ∧ r.tFirst = s.recTime ∧
      s.OnlyParts [.objs, .col, .recs, .jrnl, .ring, .archive, .hour, .seqs, .flash, .uds] t) ∧
  (∀ (m : Msg) (core : Bool) (n : Nat) (r : FaultRec) (x s : State), s.shellUp = true → s.nextMsg = some (m, core, x) →
    m.clear = false → s.aon.direct = false → s.col.handling = none → m.src ≠ 0 → m.src ≠ 0x1B →
    (s.recs.find? fun e => e.2.src == m.src && e.2.kind == m.kind) = some (n, r) →
    ∃ t q, exec .faultRaise s = .next t ∧ t.rec? n = some q ∧ q.count = satInc 65535 r.count ∧ q.last = msgWord m ∧
      q.first = r.first ∧ q.active = true ∧ q.waiting = (r.waiting || !r.active) ∧
      s.OnlyParts [.objs, .col, .recs, .jrnl, .ring, .archive, .hour, .flash, .uds] t) ∧
  (∀ (m : Msg) (core : Bool) (n : Nat) (r : FaultRec) (x s : State), s.shellUp = true → s.nextMsg = some (m, core, x) →
    m.clear = false → m.src ≠ 0 → s.aon.direct = false → s.col.handling = some n → s.rec? n = some r → 2 ≤ r.cls → r.cls ≤ 4 →
    (s.reactionOf m.src m.kind).1 ≤ r.cls →
    ∃ t q, exec .faultRaise s = .next t ∧ t.rec? n = some q ∧ q.count = satInc 65535 r.count ∧ q.last = msgWord m ∧ q.merged = true ∧
      q.kinds = r.kinds ||| m.kind ∧ q.cls = r.cls ∧ q.react = r.react ∧ t.col.handling = some n ∧
      (∀ k, k ≠ n → t.rec? k = s.rec? k) ∧ s.OnlyParts [.objs, .col, .recs, .jrnl, .ring, .archive, .hour, .flash, .uds] t) ∧
  (∀ (m : Msg) (core : Bool) (x s : State), s.shellUp = true → s.nextMsg = some (m, core, x) → m.clear = true →
    ∃ t, exec .faultClear s = .next t ∧ (∀ e ∈ t.recs, { src := m.src, kind := m.kind, inst := m.inst } ∉ e.2.conds) ∧
      t.recs.length = s.recs.length ∧ s.OnlyParts [.objs, .col, .recs, .jrnl, .ring, .uds] t) ∧
  (∀ (src : Nat) (s : State), 4 ≤ (s.col.bus.filter fun x => x.src == src).length →
    ∃ t, exec (.faultLost src) s = .next t ∧ t.obj Obj.FAULT_LOST = satInc 0xFFFFFFFF (s.obj Obj.FAULT_LOST) ∧
      t.col = { s.col with lost := true } ∧ s.OnlyParts [.objs, .col] t ∧ s.SameObjs [Obj.FAULT_LOST] t)

/-- Handling (R511, R514-R517): a window whose reactions are IRQ and TRAP at most closes at once; CHIP_RESET drives nRST; a class of 4 sets
the Overcast latch; a block reset that completes closes its window. -/
def Obligations.RecordHandling : Prop :=
  (∀ (n : Nat) (r : FaultRec) (s : State), s.shellUp = true → s.aon.direct = false → s.col.handling = none →
    s.nextRecord = some (n, r) → r.queued = false → (s.reactionOf r.src r.kind).1 ≠ 4 →
    (s.reactionOf r.src r.kind).2 % 32 < 4 → (∀ i, i < 5 → (s.sq i).block = []) →
    ∃ t q, exec .recordHandling s = .next t ∧ t.col.handling = none ∧ t.rec? n = some q ∧ q.waiting = false ∧
      q.active = !r.conds.isEmpty ∧ q.cls = (s.reactionOf r.src r.kind).1 ∧
      q.react = r.react ||| (s.reactionOf r.src r.kind).2 % 32 ∧
      t.col.irq = (s.col.irq || bit (s.reactionOf r.src r.kind).2 0) ∧
      (bit (s.reactionOf r.src r.kind).2 1 = true → ∀ i, i < 5 → (t.sq i).trap = true) ∧
      s.OnlyParts [.objs, .col, .recs, .ring, .seqs, .can, .note] t) ∧
  (∀ (n : Nat) (r : FaultRec) (s : State), s.shellUp = true → s.aon.direct = false → s.col.handling = none →
    s.nextRecord = some (n, r) → r.queued = false → (s.reactionOf r.src r.kind).1 ≠ 4 →
    (s.reactionOf r.src r.kind).2 % 32 = 8 ∨ (s.reactionOf r.src r.kind).2 % 32 = 9 → s.holdoff = false →
    ∃ t, exec .recordHandling s = .next t ∧ t.aon = { s.aon with
        nrstDrive := true, chipResetAt := some s.now, chipWhy := some (r.src * 256 + r.kind), cause := setBit s.aon.cause 7 true } ∧
      s.OnlyParts [.objs, .aon, .col, .recs, .ring, .can, .note] t) ∧
  (∀ (n : Nat) (r : FaultRec) (s : State), s.shellUp = true → s.aon.direct = false → s.col.handling = none →
    s.nextRecord = some (n, r) → r.queued = false → (s.reactionOf r.src r.kind).1 = 4 →
    (s.reactionOf r.src r.kind).2 % 32 < 2 → s.aon.por = false →
    ∃ t, exec .recordHandling s = .next t ∧ t.aon.overcast = true) ∧
  (∀ (n src : Nat) (s : State), s.col.handling = some n → s.col.blockReset = some src →
    ∃ t, exec .blockResetComplete s = .next t ∧ t.col.handling = none ∧ t.col.blockReset = none ∧
      (∀ r, s.rec? n = some r → t.rec? n = some { r with active := !r.conds.isEmpty }) ∧
      (∀ k, k ≠ n → t.rec? k = s.rec? k) ∧ s.OnlyParts [.objs, .col, .recs] t ∧ s.SameObjs [Obj.HALO_STATE] t)

/-- The collector's objects, its self-loop and HALO (R511, R515, R526, R528, R529, R535). -/
def Obligations.CollectorObjectsAndDirectMode : Prop :=
  (∀ (m : Master) (v : Nat) (s : State), s.served m = true → s.writeCode m Obj.FAULT_ACK (leBytes 1 v) = 0 →
    ∃ t, exec (.faultAck m v) s = .next t ∧ t.srv.code = 0 ∧
      t.col = { s.col with irq := s.col.irq && s.aon.direct } ∧ s.OnlyParts [.objs, .col, .srv] t ∧
      s.SameObjs [Obj.OD_STATS_REQUESTS] t) ∧
  (∀ (m : Master) (n : Nat) (s : State), s.served m = true → m = .H ∨ m = .T → 1 ≤ n → n ≤ 64 →
    s.readCode m (Obj.FAULT_RECORD n) = 0 →
    ∃ t, exec (.faultRecordRead m n) s = .next t ∧ t.srv.code = 0 ∧
      t.srv.data = ((s.rec? n).map FaultRec.bytes).getD (List.replicate 32 0#8) ∧
      (∀ r, s.rec? n = some r → t.rec? n = if r.active then some { r with read := true } else none) ∧
      (∀ k, k ≠ n → t.rec? k = s.rec? k) ∧ s.OnlyParts [.objs, .col, .recs, .srv] t ∧
      s.SameObjs [Obj.HALO_STATE, Obj.OD_STATS_REQUESTS] t) ∧
  (∀ (m : Master) (v : Nat) (s : State), s.served m = true → s.writeCode m Obj.FAULT_INJECT (leBytes 4 v) = 0 →
    (s.col.bus.filter fun x => x.src == v % 2 ^ 32 / 2 ^ 24).length < 4 →
    ∃ t, exec (.faultInject m v) s = .next t ∧ t.srv.code = 0 ∧
      t.col = { s.col with bus := s.col.bus ++
        [{ src := v % 2 ^ 32 / 2 ^ 24, kind := v / 2 ^ 16 % 256, inst := v % 65536, injected := true }] } ∧
      s.OnlyParts [.objs, .col, .srv] t ∧ s.SameObjs [Obj.OD_STATS_REQUESTS] t) ∧
  (∀ s : State, s.shellUp = true →
    ∃ t, exec (.collectorSelfLoop true) s = .next t ∧
      t.col = { s.col with selfInst := (s.col.selfInst + 1) % 65536, selfFails := 0 } ∧
      t.wd = { s.wd with collector := true } ∧ s.OnlyParts [.col, .wd] t) ∧
  (∀ s : State, s.shellUp = true → s.col.selfFails = 0 →
    ∃ t, exec (.collectorSelfLoop false) s = .next t ∧
      t.col = { s.col with selfInst := (s.col.selfInst + 1) % 65536, selfFails := 1 } ∧ s.OnlyParts [.col] t) ∧
  (∀ s : State, s.shellUp = true → s.col.selfFails = 1 → s.aon.direct = false →
    ∃ t, exec (.collectorSelfLoop false) s = .next t ∧ t.aon = { s.aon with direct := true, directWhy := 1 } ∧
      t.col.handling = none ∧ t.col.blockReset = none ∧ t.col.haloRun = false ∧ t.col.haloLevel = false ∧
      (∀ n r, s.col.handling = some n → s.rec? n = some r → t.rec? n = some { r with skipped := true }) ∧
      s.OnlyParts [.free, .objs, .aon, .col, .recs] t ∧ s.SameObjs [Obj.HALO_STATE] t) ∧
  (∀ s : State, s.shellUp = true → s.col.haloRun = true → s.aon.clockStopped = false →
    ∃ t, exec .haloToggle s = .next t ∧ t.col = { s.col with haloLevel := !s.col.haloLevel } ∧ s.OnlyParts [.col] t)

/-- Writes and reads through the dictionary (R582, R589, R590, R596-R598, R602): the code of a whole write, what a refused one leaves, a
plain persisted object, an area's lock, segments of a DOMAIN, a snapshot and its expiry, a whole object. -/
def Obligations.ObjectAccesses : Prop :=
  (∀ (m : Master) (k : Nat) (d : List Byte) (s : State), s.served m = true → s.keyType k ≠ some .domain →
    ∃ t, exec (.objectWrite m k d) s = .next t ∧ t.srv.code = s.writeCode m k d ∧ t.srv.data = [] ∧
      (s.writeCode m k d ≠ 0 → k ≠ Obj.TABLE_SWITCH → s.OnlyParts [.objs, .srv] t ∧
        s.SameObjs [Obj.OD_STATS_REQUESTS, Obj.OD_STATS_ERRORS, Obj.OD_STATS_LOCKED, Obj.OD_LAST_ERROR] t ∧
        (s.serving = true → t.obj Obj.OD_STATS_ERRORS = satInc 0xFFFFFFFF (s.obj Obj.OD_STATS_ERRORS) ∧
          t.obj Obj.OD_LAST_ERROR = s.writeCode m k d * 2 ^ 24 + m.code * 2 ^ 20 + k)) ∧
      (s.writeCode m k d = 0 → k ∈ [Obj.CHIPRST_HOLDOFF, Obj.OD_COMMIT_DELAY, Obj.REC_MAX_HOUR, Obj.CAN_NOTIFY_PERIOD] →
        t.obj k = leNat d ∧ t.jrnl.buf.read (fun _ => 0) k = leNat d + 1 ∧ s.OnlyParts [.objs, .jrnl, .srv] t ∧
        s.SameObjs [k, Obj.OD_JOURNAL, Obj.OD_STATS_REQUESTS] t) ∧
      (s.obj (Obj.OD_LOCK (k / 65536 + 1)) ≠ 0 → s.obj (Obj.OD_LOCK (k / 65536 + 1)) ≠ m.code → m ≠ .Q → k / 256 ≠ 0x0101 →
        k / 256 ≠ 0x0020 → k ≠ Obj.WD_CHECKIN → k ≠ Obj.FAULT_ACK → t.srv.code ≠ 0)) ∧
  (∀ (m : Master) (k : Nat) (d : List Byte) (s : State), s.served m = true →
    s.writeCodeA m k 0 (s.keyType k == some .domain && d.length ≤ 4194304) = 0 → s.transfer? k = none →
    ∃ t, exec (.domainWriteSegment m k 0 false d) s = .next t ∧ t.srv.code = 0 ∧
      t.transfer? k = some { who := m.code, key := k, data := d } ∧ (k = Obj.TABLE_LOAD → t.obj Obj.DOWNLOAD_STATE = 1) ∧
      s.OnlyParts [.objs, .srv] t ∧ s.SameObjs [Obj.DOWNLOAD_STATE, Obj.OD_STATS_REQUESTS] t) ∧
  (∀ (m : Master) (k ofs : Nat) (last : Bool) (d : List Byte) (x : Transfer) (s : State), s.served m = true → ofs ≠ 0 →
    s.transfer? k = some x → x.who = m.code →
    ∃ t, exec (.domainWriteSegment m k ofs last d) s = .next t ∧
      (x.data.length = ofs → ofs + d.length ≤ 4194304 → last = false →
        t.srv.code = 0 ∧ t.transfer? k = some { x with data := x.data ++ d } ∧ s.OnlyParts [.objs, .srv] t) ∧
      (x.data.length ≠ ofs ∨ 4194304 < ofs + d.length → t.srv.code = 6 ∧ x ∉ t.srv.transfers ∧
        (k = Obj.TABLE_LOAD → t.obj Obj.DOWNLOAD_STATE = 4) ∧ (k ≠ Obj.TABLE_LOAD → s.OnlyParts [.objs, .srv] t))) ∧
  (∀ (m : Master) (k ofs len : Nat) (s : State), s.served m = true → s.readCode m k = 0 → (ofs = 0 → s.segmented k = true) →
    ∃ t, exec (.domainReadSegment m k ofs len) s = .next t ∧
      (ofs = 0 → t.srv.code = 0 ∧ t.srv.data = (s.readBytes k).take len ∧ t.snap? m k = some (s.readBytes k)) ∧
      (∀ d, ofs ≠ 0 → s.snap? m k = some d → t.srv.code = 0 ∧ t.srv.data = slice d ofs len ∧ s.OnlyParts [.objs, .srv] t) ∧
      (ofs ≠ 0 → s.snap? m k = none → t.srv.code = 6 ∧ t.srv.data = [] ∧ s.OnlyParts [.objs, .srv] t) ∧
      s.OnlyParts [.objs, .col, .recs, .jrnl, .srv] t) ∧
  (∀ (m : Master) (k : Nat) (s : State),
    ∃ t, exec (.domainSnapshotExpiry m k) s = .next t ∧ t.snap? m k = none ∧
      (∀ n j, n.code ≠ m.code ∨ j ≠ k → t.snap? n j = s.snap? n j) ∧ s.OnlyParts [.srv] t) ∧
  (∀ (m : Master) (index : Nat) (l : List Nat) (s : State), s.served m = true → s.wholeSubs index = some l →
    s.readCode m (index * 256 + 0xFF) = 0 →
    ∃ t, exec (.wholeObjectRead m index) s = .next t ∧ t.srv.code = 0 ∧
      t.srv.data = l.flatMap (fun n => s.keyBytes (index * 256 + n)) ∧ s.OnlyParts [.objs, .col, .recs, .jrnl, .srv] t)

/-- Locks (R602-R604) and the journal (R606, R607, R609, R612). -/
def Obligations.LocksAndJournal : Prop :=
  (∀ (m : Master) (n v : Nat) (s : State), s.served m = true → s.writeCode m (Obj.OD_LOCK n) (leBytes 1 v) = 0 → 1 ≤ n → n ≤ 16 →
    ∃ t, exec (.odLockWrite m n v) s = .next t ∧ t.srv.code = 0 ∧ t.obj (Obj.OD_LOCK n) = v % 256 ∧
      (v % 256 = 0 ∨ v % 256 = m.code) ∧ (v % 256 = 1 → s.obj (Obj.OD_LOCK n) ≠ 3) ∧ s.OnlyParts [.objs, .srv] t ∧
      s.SameObjs [Obj.OD_LOCK n, Obj.OD_STATS_REQUESTS] t) ∧
  (∀ (n : Nat) (s : State), s.serving = true → 1 ≤ n → n ≤ 16 → s.obj (Obj.OD_LOCK n) = 1 →
    ∃ t, exec (.odLockLeaseExpiry n) s = .next t ∧ t.obj (Obj.OD_LOCK n) = 0 ∧ s.OnlyParts [.objs] t ∧ s.SameObjs [Obj.OD_LOCK n] t) ∧
  (∀ (c : Instr) (s : State), (∃ m v, c = .odCommit m v ∧ s.served m = true ∧ s.writeCode m Obj.OD_COMMIT (leBytes 1 v) = 0) ∨
      (c = .journalCommit ∧ s.shellUp = true) →
    ∃ t, exec c s = .next t ∧
      (s.flashOk = true → s.jrnl.inFlight = none → s.jrnl.buf ≠ [] → t.jrnl.inFlight = some s.jrnl.buf ∧ t.jrnl.buf = [] ∧
        t.obj Obj.OD_JOURNAL = 2 ∧ t.obj Obj.FLASH_STATE = 2) ∧
      (∀ e, s.flashOk = true → s.jrnl.inFlight = some e → t.jrnl = { s.jrnl with again := true }) ∧
      (s.flashOk = false → t.jrnl = s.jrnl ∧ (s.jrnl.buf ≠ [] → t.obj Obj.OD_JOURNAL = 3)) ∧
      s.OnlyParts [.objs, .jrnl, .srv] t ∧ s.SameObjs [Obj.OD_JOURNAL, Obj.FLASH_STATE, Obj.OD_STATS_REQUESTS] t) ∧
  (∀ (e : Store) (n : Nat) (s : State), s.shellUp = true → s.jrnl.inFlight = some e →
    (s.jrnl.again = false → ∃ t, exec (.journalCommitDone true n) s = .next t ∧ t.jrnl.inFlight = none ∧ t.jrnl.buf = s.jrnl.buf ∧
      t.obj Obj.OD_STATS_COMMITS = satInc 0xFFFFFFFF (s.obj Obj.OD_STATS_COMMITS) ∧
      t.flash.entries = (mergeStore s.flash.entries e).write (fun _ => 0) Obj.OD_STATS_COMMITS (t.obj Obj.OD_STATS_COMMITS + 1) ∧
      t.flash.dtcs = s.uds.dtcs ∧ t.obj Obj.OD_JOURNAL = (if s.jrnl.buf.isEmpty then 0 else 1) ∧
      s.OnlyParts [.objs, .col, .jrnl, .flash, .can, .lin, .uds] t) ∧
    (∃ t, exec (.journalCommitDone false n) s = .next t ∧ t.jrnl.inFlight = none ∧ t.jrnl.buf = mergeStore e s.jrnl.buf ∧
      t.flash.entries = s.flash.entries ∧ t.obj Obj.OD_JOURNAL = 3 ∧ s.OnlyParts [.objs, .col, .jrnl, .flash, .can, .lin, .uds] t)) ∧
  (∀ (m : Master) (v : Nat) (s : State), s.served m = true → s.writeCode m Obj.OD_RESTORE (leBytes 1 v) = 0 → s.flashOk = true →
    s.jrnl.inFlight = none →
    ∃ t e, exec (.odRestore m v) s = .next t ∧ t.srv.code = 0 ∧ t.jrnl.inFlight = some e ∧
      (∀ r ∈ Dict.all, r.persist = .P → r.on.has s.variant = true →
        (r.accH.writes || r.accS.writes || r.accT.writes || r.accF.writes) = true →
        ∀ i, i < r.last + 1 - r.first → e.read (fun _ => 0) (r.index * 256 + r.first + i) = Dict.default (r.index * 256 + r.first + i) + 1) ∧
      s.OnlyParts [.objs, .jrnl, .srv] t ∧ s.SameObjs [Obj.OD_JOURNAL, Obj.FLASH_STATE, Obj.OD_STATS_REQUESTS] t)

/-- Table images and switches (R664, R672, R679, R686-R692, R701): DTC_CLEAR, a load stored or refused, a switch accepted, its kinds at
their safe points, its deferral, a kind sent to its ROM defaults, TRAP_RELEASE. -/
def Obligations.TableStore : Prop :=
  (∀ (m : Master) (v : Nat) (s : State), s.served m = true → s.writeCode m Obj.DTC_CLEAR (leBytes 4 v) = 0 →
    ∃ t, exec (.dtcClear m v) s = .next t ∧ t.srv.code = 0 ∧
      ((∀ e ∈ s.recs, e.2.active = false) →
        t.uds.dtcs = (s.uds.dtcs.filter fun d => !(v % 2 ^ 32 == 0xFFFFFF || d.code == v % 2 ^ 32 / 256))) ∧
      (∀ d ∈ s.uds.dtcs, v % 2 ^ 32 ≠ 0xFFFFFF → d.code ≠ v % 2 ^ 32 / 256 → d ∈ t.uds.dtcs) ∧
      (∀ e ∈ s.recs, e.2.active = true → ∀ c ∈ e.2.conds, v % 2 ^ 32 = 0xFFFFFF ∨ c.src * 256 + c.kind = v % 2 ^ 32 / 256 →
        (∃ d ∈ s.uds.dtcs, d.code = c.src * 256 + c.kind) →
        ∃ d ∈ t.uds.dtcs, d.code = c.src * 256 + c.kind ∧ d.status = 0x23) ∧
      t.obj Obj.DTC_COUNT = t.uds.dtcs.length ∧ t.obj Obj.DTC_STATE = 0 ∧ s.OnlyParts [.objs, .jrnl, .srv, .uds] t) ∧
  (∀ (m : Master) (d : List Byte) (s : State), s.served m = true → s.writeCodeA m Obj.TABLE_LOAD 0 (decide (d.length ≤ 4194304)) = 0 →
    s.transfer? Obj.TABLE_LOAD = none →
    ∃ t, exec (.tableLoad m d) s = .next t ∧
      (s.imageFails d (some (s.bank s.idleBank)) = none → s.flashOk = true → t.srv.code = 0 ∧
        t.bank s.idleBank = (s.bank s.idleBank).with (imgKind d) d ∧ t.bank (3 - s.idleBank) = s.bank (3 - s.idleBank) ∧
        t.tabs.writing = some s.idleBank ∧ t.obj Obj.DOWNLOAD_STATE = 2 ∧ t.obj Obj.FLASH_STATE = 2) ∧
      (∀ r, s.imageFails d (some (s.bank s.idleBank)) = some r → t.srv.code = 9 ∧
        (t.bank s.idleBank).image? (imgKind d) = none ∧ t.obj Obj.TABLE_LAST_REFUSAL = imgKind d * 256 + r ∧ t.obj Obj.DOWNLOAD_STATE = 4) ∧
      t.tabs.active = s.tabs.active ∧ t.tabs.sections = s.tabs.sections ∧ s.OnlyParts [.objs, .col, .tabs, .srv] t) ∧
  (∀ (m : Master) (v : Nat) (s : State), s.served m = true →
    (s.writeCode m Obj.TABLE_SWITCH (leBytes 4 v) = 0 →
      ∃ t, exec (.tableSwitch m v) s = .next t ∧ t.srv.code = 0 ∧ t.obj Obj.TABLE_SWITCH = 2 ^ 24 + v % 1024 ∧
        t.tabs.switching = true ∧ t.tabs.deferred = false ∧ t.tabs.active = s.tabs.active ∧ s.OnlyParts [.objs, .tabs, .srv] t) ∧
    (s.writeCode m Obj.TABLE_SWITCH (leBytes 4 v) = 9 →
      ∃ t, exec (.tableSwitch m v) s = .next t ∧ t.srv.code = 9 ∧ t.obj Obj.TABLE_SWITCH = 3 * 2 ^ 24 + v % 1024 ∧
        s.OnlyParts [.objs, .srv] t)) ∧
  (∀ (k : Fin 10) (b : List Byte) (s : State), s.serving = true → s.safeHere (k.val + 1) = true → s.tabs.switching = true →
    bit (s.obj Obj.TABLE_SWITCH) k.val = true → (s.bank s.idleBank).image? (k.val + 1) = some b →
    (bit (imgFlags b) 1 = true → ∀ x ∈ sectionBlocks (imgSection b), byteAt (blkState x (byteAt x 2)) 5 = 0) →
    ∃ t, exec (.safePoint k) s = .next t ∧ t.body (k.val + 1) = some (imgBody b) ∧ t.obj (Obj.TABLE_ID_ACTIVE (k.val + 1)) = imgId b ∧
      (setBit (s.obj Obj.TABLE_SWITCH % 1024) k.val false ≠ 0 → t.tabs.switching = true ∧
        t.obj Obj.TABLE_SWITCH = 2 ^ 24 + setBit (s.obj Obj.TABLE_SWITCH % 1024) k.val false) ∧
      (setBit (s.obj Obj.TABLE_SWITCH % 1024) k.val false = 0 → t.tabs.switching = false ∧ t.obj Obj.TABLE_SWITCH = 2 * 2 ^ 24 ∧
        t.obj Obj.TABLE_ACTIVE = s.idleBank)) ∧
  (∀ (k : Fin 10) (s : State), s.serving = true → s.safeHere (k.val + 1) = true → s.tabs.switching = false →
    bit s.tabs.romDue k.val = true →
    ∃ t, exec (.safePoint k) s = .next t ∧ t.body (k.val + 1) = none ∧ t.obj (Obj.TABLE_ID_ACTIVE (k.val + 1)) = 0 ∧
      t.tabs.romDue = setBit s.tabs.romDue k.val false) ∧
  (∀ (k : Fin 10) (s : State), s.serving = true → s.tabs.switching = true → s.tabs.deferred = false →
    bit (s.obj Obj.TABLE_SWITCH) k.val = true → (s.col.bus.filter fun x => x.src == 0x15).length < 4 →
    ∃ t, exec (.switchDeferred k) s = .next t ∧ t.tabs = { s.tabs with deferred := true } ∧
      t.col.bus = s.col.bus ++ [{ src := 0x15, kind := 3, inst := k.val + 1 }] ∧ s.OnlyParts [.col, .tabs] t) ∧
  (∀ (m : Master) (v : Nat) (s : State), s.served m = true → s.writeCode m Obj.TRAP_RELEASE (leBytes 1 v) = 0 →
    ∃ t, exec (.trapRelease m v) s = .next t ∧ t.srv.code = 0 ∧ (∀ i, (t.sq i) = { s.sq i with trap := (t.sq i).trap }) ∧
      (∀ i, i < 5 → (t.sq i).trap = false) ∧ s.OnlyParts [.objs, .seqs, .srv] t)

/-- One evaluation of a sequencer (R694, R698, R700-R702): none true, one transition into a state without actions, a state register that
fails its check. -/
def Obligations.SequencerEvaluation : Prop :=
  (∀ (i : Fin 5) (bad : Bool) (s : State), s.serving = true → (s.sq i.val).block = [] ∨ (s.sq i.val).stopped = true →
    ∃ t, exec (.sequencerEvaluation i bad) s = .next t ∧ t.sq i.val = { s.sq i.val with ran := true } ∧ s.OnlyParts [.seqs] t) ∧
  (∀ (i : Fin 5) (s u : State), s.serving = true → (s.sq i.val).block ≠ [] → (s.sq i.val).stopped = false →
    (s.sq i.val).state < blkStates (s.sq i.val).block →
    u = (s.modSq i.val fun q => { q with ran := true }).set (Obj.SEQ_STATE_TIME i.val)
      (min 0xFFFFFFFF (s.obj (Obj.SEQ_STATE_TIME i.val) + byteAt (s.sq i.val).block 10)) →
    ((s.sq i.val).trap = true ∨ u.seqNext i.val = none → exec (.sequencerEvaluation i false) s = .next u) ∧
    (∀ st, (s.sq i.val).trap = false → u.seqNext i.val = some st → byteAt (blkState (s.sq i.val).block st) 5 = 0 →
      (u.seqEnter i.val st).seqNext i.val = none →
      ∃ t, exec (.sequencerEvaluation i false) s = .next t ∧ t.obj (Obj.SEQ_STATE i.val) = st ∧ t.obj (Obj.SEQ_STATE_TIME i.val) = 0 ∧
        t.sq i.val = { s.sq i.val with ran := true, state := st } ∧ s.OnlyParts [.objs, .seqs] t ∧
        s.SameObjs [Obj.SEQ_STATE i.val, Obj.SEQ_STATE_TIME i.val] t)) ∧
  (∀ (i : Fin 5) (bad : Bool) (s : State), s.serving = true → (s.sq i.val).block ≠ [] → (s.sq i.val).stopped = false →
    bad = true ∨ blkStates (s.sq i.val).block ≤ (s.sq i.val).state →
    byteAt (blkState (s.sq i.val).block (byteAt (s.sq i.val).block 3)) 5 = 0 →
    ∃ t, exec (.sequencerEvaluation i bad) s = .next t ∧
      t.sq i.val = { s.sq i.val with ran := true, trap := true, state := byteAt (s.sq i.val).block 3 } ∧
      t.obj (Obj.SEQ_MODE i.val) = 2 ∧ t.obj (Obj.SEQ_STATE i.val) = byteAt (s.sq i.val).block 3 ∧
      s.OnlyParts [.objs, .col, .seqs] t)

/-- SRAM and flash scrubs and flash writes (R497, R707-R710, R718, R722). The OTP (R726-R730, R733): the reverification, which waits for a
programming to end, a programming accepted or refused, a lock, and their ends. -/
def Obligations.MemoryAndOtp : Prop :=
  (∀ (l : List Nat) (s : State), s.shellUp = true → s.obj (Obj.ECC_COUNT 1) ≤ 0xFFFFFFFF →
    ∃ t, exec (.sramScrub l []) s = .next t ∧ t.obj (Obj.ECC_COUNT 1) = min 0xFFFFFFFF (s.obj (Obj.ECC_COUNT 1) + l.length) ∧
      (∀ a r, l = a :: r → (∀ e, s.col.eccAt = some e → e + sec 1 ≤ s.now) → t.col.eccAt = some s.now ∧
        ((s.col.bus.filter fun x => x.src == 0x16).length < 4 →
          t.col.bus = s.col.bus ++ [{ src := 0x16, kind := 1, inst := a / 64 % 65536 }])) ∧
      (∀ e, s.col.eccAt = some e → s.now < e + sec 1 → t.col = s.col) ∧
      s.OnlyParts [.objs, .col] t ∧ s.SameObjs [Obj.ECC_COUNT 1, Obj.FAULT_LOST] t) ∧
  (∀ (a : Nat) (ks : List Nat) (s : State), s.shellUp = true →
    ∃ t, exec (.sramScrub [] [.object a ks]) s = .next t ∧
      (∀ k ∈ ks, t.obj k = if Dict.persisted k then s.committed k else Dict.default k) ∧
      (Obj.ECC_COUNT 2 ∉ ks → t.obj (Obj.ECC_COUNT 2) = satInc 0xFFFFFFFF (s.obj (Obj.ECC_COUNT 2))) ∧
      s.OnlyParts [.objs, .col] t ∧ s.SameObjs (ks ++ [Obj.ECC_COUNT 2, Obj.FAULT_LOST]) t) ∧
  (∀ (a : Nat) (cb : CanBus) (p : Port) (s : State), s.shellUp = true →
    (∃ t, exec (.sramScrub [] [.canFrame a cb]) s = .next t ∧ (t.can.get cb).queue = (s.can.get cb).queue.drop 1 ∧
      s.OnlyParts [.objs, .col, .can] t) ∧
    (∃ t, exec (.sramScrub [] [.fabFrame a p]) s = .next t ∧ (t.fab.ports.get p).queue = (s.fab.ports.get p).queue.drop 1 ∧
      s.OnlyParts [.objs, .col, .fab] t) ∧
    (0x3C6000 ≤ a → a < 0x3C6800 → ∃ t, exec (.sramScrub [] [.retained a]) s = .next t ∧ t.recs = [] ∧ t.col.handling = none ∧
      s.OnlyParts [.objs, .col, .recs] t)) ∧
  (∀ (l : List FlashPage) (s : State), s.flashHeld = true ∨ s.thm.scrub.due s.thm.up = false → exec (.flashScrub l) s = .next s) ∧
  (∀ s : State, s.shellUp = true → s.flashOk = true → s.flashHeld = false → s.thm.scrub.due s.thm.up = true →
    (∃ t, exec (.flashScrub []) s = .next t ∧ t.obj Obj.SCRUB_LAST = s.obj Obj.HZ_OP_TIME ∧
      t.thm = { s.thm with scrub := { s.thm.scrub with iv := s.thm.scrub.next, last := s.thm.up } } ∧ s.OnlyParts [.objs, .thm] t ∧
      s.SameObjs [Obj.SCRUB_LAST] t) ∧
    (∀ (r : Fin 6) (n : Nat), ∃ t, exec (.flashScrub [.corrected r n]) s = .next t ∧ t.obj Obj.SCRUB_LAST = s.obj Obj.HZ_OP_TIME ∧
      (r.val = 3 → t.flash = { s.flash with ckptDue := true }) ∧ (r.val = 1 ∨ r.val = 2 → r.val ∈ t.flash.rewrite) ∧
      s.OnlyParts [.objs, .col, .thm, .flash] t ∧ s.SameObjs [Obj.SCRUB_LAST, Obj.FAULT_LOST] t) ∧
    (∀ i, i < s.archive.length → ∃ t, exec (.flashScrub [.capture i]) s = .next t ∧ t.archive = s.archive.eraseIdx i ∧
      t.obj Obj.REC_COUNT = s.archive.length - 1 ∧ s.OnlyParts [.objs, .jrnl, .archive, .thm] t ∧
      s.SameObjs [Obj.REC_COUNT, Obj.OD_JOURNAL, Obj.SCRUB_LAST] t) ∧
    (∀ i, i < s.log.length → ∃ t, exec (.flashScrub [.log i]) s = .next t ∧ t.log.length = s.log.length ∧ t.free = s.free + 3 ∧
      (∀ j, j ≠ i → t.log[j]? = s.log[j]?) ∧ s.OnlyParts [.free, .objs, .thm, .log] t)) ∧
  (∀ (region : Fin 6) (n : Nat) (s : State), s.shellUp = true → s.flashOk = true →
    (∀ ok, s.flashHeld = true → exec (.flashWriteComplete ok region n) s = .next s) ∧
    (∀ r l, region.val = 4 → s.flashHeld = false → s.log = r :: l →
      ∃ t, exec (.flashWriteComplete false region n) s = .next t ∧ s.OnlyParts [.objs, .col, .jrnl, .log, .logRetry, .tabs, .flash, .can,
        .lin, .uds] t ∧ t.log = l ∧ t.logRetry = s.logRetry ++ [r] ∧
        t.obj Obj.HZ_LOG_COUNT = l.length) ∧
    (region.val ≠ 4 → s.flashHeld = false → s.tabs.writing = some region.val →
      ∃ t, exec (.flashWriteComplete true region n) s = .next t ∧ t.tabs.writing = none ∧
        (t.bankF region.val).images = (s.bank region.val).images ∧ (s.obj Obj.DOWNLOAD_STATE = 2 → t.obj Obj.DOWNLOAD_STATE = 3) ∧
        s.OnlyParts [.objs, .col, .tabs, .flash, .can, .lin, .uds] t)) ∧
  (∀ (diff : Nat) (s : State), s.serving = true → s.thm.otp.due s.now = true → s.otp.prog = none →
    ∃ t, exec (.otpReverify diff) s = .next t ∧ t.thm = { s.thm with otp := { s.thm.otp with iv := s.thm.otp.next, last := s.now } } ∧
      (∀ a, a < 5 → (t.col.conds.any fun m => m.src == 0x18 && m.kind == 3 && m.inst == a) =
      (bit diff a || (s.otpArea a).fuses != s.otp.shadows.getD a [])) ∧ s.OnlyParts [.objs, .col, .thm] t ∧ s.SameObjs [Obj.FAULT_LOST] t) ∧
  (∀ (diff : Nat) (s : State), s.serving = true → s.thm.otp.due s.now = true → s.otp.prog ≠ none →
    exec (.otpReverify diff) s = .next { s with
      otp := { s.otp with due := some diff }, thm := { s.thm with otp := { s.thm.otp with iv := s.thm.otp.next, last := s.now } } }) ∧
  (∀ (diff : Nat) (s : State), s.thm.otp.due s.now = false → exec (.otpReverify diff) s = .next s) ∧
  (∀ (m : Master) (d : List Byte) (s : State), s.served m = true → s.writeCodeA m Obj.OTP_PROG 0 (decide (d.length ≤ 4194304)) = 0 →
    s.transfer? Obj.OTP_PROG = none →
    ∃ t, exec (.otpProg m d) s = .next t ∧ t.srv.code = s.otpProgCode d ∧
      (s.otpProgCode d = 0 → t.otp = { s.otp with prog := some (byteAt d 0, leAt d 2 2, d.drop 4) } ∧ t.obj Obj.OTP_PROG_STATE = 1) ∧
      (s.otpProgCode d ≠ 0 → t.otp = s.otp) ∧ s.OnlyParts [.objs, .otp, .srv] t) ∧
  (∀ (m : Master) (v : Nat) (s : State), s.served m = true → s.writeCode m Obj.OTP_LOCK (leBytes 1 v) = 0 →
    ∃ t, exec (.otpLock m v) s = .next t ∧ t.srv.code = 0 ∧ t.otp = { s.otp with prog := some (v % 8, 0, []) } ∧
      t.obj Obj.OTP_PROG_STATE = 1 ∧ (v % 8 = 3 ∨ v % 8 = 4) ∧ s.OnlyParts [.objs, .otp, .srv] t ∧
      s.SameObjs [Obj.OTP_PROG_STATE, Obj.OD_STATS_REQUESTS] t) ∧
  (∀ (a off : Nat) (d : List Byte) (ok : Bool) (s : State), s.shellUp = true → s.otp.prog = some (a, off, d) →
    a < s.otp.areas.length →
    ∃ t, exec (.otpProgrammingComplete ok) s = .next t ∧ t.otp.prog = none ∧ (∀ i, i ≠ a → t.otpArea i = s.otpArea i) ∧
      (d = [] → t.otpArea a = { s.otpArea a with locked := true } ∧ t.obj Obj.OTP_PROG_STATE = 2) ∧
      (d ≠ [] → ok = true → t.otpArea a = { s.otpArea a with fuses := programBits (s.otpArea a).fuses off d } ∧
        t.obj Obj.OTP_PROG_STATE = 2) ∧
      (d ≠ [] → ok = false → (t.otpArea a).locked = (s.otpArea a).locked ∧ t.obj Obj.OTP_PROG_STATE = 3 ∧
        t.free = s.free + d.length ∧ ((s.col.bus.filter fun x => x.src == 0x18).length < 4 →
          { src := 0x18, kind := 4, inst := a % 65536 } ∈ t.col.bus)) ∧
      s.OnlyParts [.free, .objs, .col, .otp, .can, .lin, .uds] t)

/-- The object protocol on CANA (R625-R629, R633): READ, WRITE, READ_BLOCK, WRITE_BLOCK, SEED and KEY. -/
def Obligations.CanRequests : Prop :=
  (∀ (tester : Bool) (b : List Byte) (s : State), s.canTakes tester b = true → hdrOk b = true → byteAt b 0 = 1 → hdrOfs b = 0 →
    ∃ t f, exec (.canRead tester true b) s = .next t ∧ t.can.a.queue = s.can.a.queue ++ [{ f with brs := s.can.a.data != 0 }] ∧
      byteAt f.data 0 = 0x81 ∧
      byteAt f.data 1 = byteAt b 1 ∧ byteAt f.data 7 = (s.canHeard tester).readCode (reqMaster tester) (hdrKey b) ∧
      (byteAt f.data 7 = 0 → slice f.data 16 (min 48 ((s.canHeard tester).readBytes (hdrKey b)).length) =
        ((s.canHeard tester).readBytes (hdrKey b)).take 48) ∧
      t.canKept tester (byteAt b 1) = some [f] ∧ s.OnlyParts [.objs, .col, .recs, .jrnl, .tabs, .srv, .can, .uds] t) ∧
  (∀ (tester : Bool) (b : List Byte) (s : State), s.canTakes tester b = true → hdrOk b = true → byteAt b 0 = 2 →
    (hdrSeg b = false → s.keyType (hdrKey b) ≠ some .domain →
      (s.canHeard tester).writeCode (reqMaster tester) (hdrKey b) (hdrData b) ≠ 0 ∨
        hdrKey b ∈ [Obj.CHIPRST_HOLDOFF, Obj.OD_COMMIT_DELAY, Obj.REC_MAX_HOUR, Obj.CAN_NOTIFY_PERIOD] →
      ∃ t f, exec (.canWrite tester true b) s = .next t ∧ t.can.a.queue = s.can.a.queue ++ [f] ∧ byteAt f.data 0 = 0x82 ∧
        byteAt f.data 1 = byteAt b 1 ∧ byteAt f.data 7 = (s.canHeard tester).writeCode (reqMaster tester) (hdrKey b) (hdrData b) ∧
        (byteAt f.data 7 = 0 → t.obj (hdrKey b) = leNat (hdrData b)) ∧
        s.OnlyParts [.objs, .col, .jrnl, .tabs, .srv, .can, .uds] t) ∧
    (hdrSeg b = true → (s.canHeard tester).outOfOrder (reqMaster tester) (hdrKey b) (hdrOfs b) = true →
      ∃ t f, exec (.canWrite tester true b) s = .next t ∧ s.OnlyParts [.objs, .col, .srv, .can, .jrnl] t ∧
        t.can.a.queue = s.can.a.queue ++ [f] ∧ byteAt f.data 0 = 0x82 ∧
        byteAt f.data 7 = 0xF1 ∧ (∀ x, (s.canHeard tester).transfer? (hdrKey b) = some x → x.who = (reqMaster tester).code →
          x ∉ t.srv.transfers))) ∧
  (∀ (tester : Bool) (b : List Byte) (s : State), s.canTakes tester b = true → hdrOk b = true → byteAt b 0 = 3 →
    (byteAt b 7 = 0 ∨ 64 < byteAt b 7 → ∃ t f, exec (.readBlock tester true b) s = .next t ∧ t.can.a.queue = s.can.a.queue ++ [f] ∧
      byteAt f.data 0 = 0x83 ∧ byteAt f.data 7 = 0xF1 ∧ s.OnlyParts [.objs, .col, .tabs, .srv, .can, .uds] t) ∧
    (2 ≤ byteAt b 7 → byteAt b 7 ≤ 64 → hdrOfs b = 0 → (s.canHeard tester).readCode (reqMaster tester) (hdrKey b) = 0 →
      s.segmented (hdrKey b) = true → 48 < ((s.canHeard tester).readBytes (hdrKey b)).length →
      ∃ t l, exec (.readBlock tester true b) s = .next t ∧ t.can.a.later = s.can.a.later ++ l ∧ 2 ≤ l.length ∧ l.length ≤ byteAt b 7 ∧
        (∀ f ∈ l, byteAt f.data 0 = 0x83 ∧ byteAt f.data 1 = byteAt b 1 ∧ byteAt f.data 7 = 0) ∧
        s.OnlyParts [.objs, .col, .recs, .jrnl, .tabs, .srv, .can, .uds] t)) ∧
  (∀ (tester : Bool) (b : List Byte) (s : State), s.canTakes tester b = true → hdrOk b = true → byteAt b 0 = 4 →
    s.blockLeft tester (byteAt b 1) = 0 → 2 ≤ byteAt b 7 → byteAt b 7 ≤ 16 → hdrOfs b = 0 → hdrLast b = false →
    s.keyType (hdrKey b) = some .domain → (s.canHeard tester).writeCodeA (reqMaster tester) (hdrKey b) 0 true = 0 →
    (s.canHeard tester).transfer? (hdrKey b) = none →
    ∃ t, exec (.writeBlock tester true b) s = .next t ∧ t.can.a.queue = s.can.a.queue ∧
      t.can.a.block = some (reqWho tester, byteAt b 1, byteAt b 7 - 1) ∧
      t.transfer? (hdrKey b) = some { who := (reqMaster tester).code, key := hdrKey b, data := hdrData b } ∧
      s.OnlyParts [.objs, .col, .tabs, .srv, .can, .uds] t) ∧
  (∀ (tester : Bool) (b : List Byte) (s : State), s.canTakes tester b = true → hdrOk b = true → byteAt b 0 = 0x0A →
    ∃ t f, exec (.seed tester true b) s = .next t ∧ t.can.a.queue = s.can.a.queue ++ [f] ∧ byteAt f.data 0 = 0x8A ∧
      (tester = false → byteAt f.data 7 = 2) ∧ (tester = true → byteAt b 5 ≠ 1 → byteAt b 5 ≠ 0x11 → byteAt f.data 7 = 9) ∧
      (tester = true → byteAt b 5 = 1 ∨ byteAt b 5 = 0x11 → s.obj (Obj.OTP_STATE 4) ≠ 3 → s.obj Obj.SEC_DELAY = 0 →
        byteAt f.data 7 = 0 ∧
        ((s.canHeard tester).unlocked (byteAt b 5) = true → slice f.data 16 16 = List.replicate 16 0#8 ∧ t.uds.seed = none) ∧
        ((s.canHeard tester).unlocked (byteAt b 5) = false → t.uds.seed = some (byteAt b 5, slice f.data 16 16) ∧
          t.free = s.free + 1)) ∧
      s.OnlyParts [.free, .objs, .col, .tabs, .srv, .can, .uds] t) ∧
  (∀ (tester : Bool) (b : List Byte) (s : State), s.canTakes tester b = true → hdrOk b = true → byteAt b 0 = 0x0B →
    ∃ t f, exec (.key tester true b) s = .next t ∧ t.can.a.queue = s.can.a.queue ++ [f] ∧ byteAt f.data 0 = 0x8B ∧
      (tester = false → byteAt f.data 7 = 2 ∧ t.uds = s.uds) ∧
      (∀ seed k, tester = true → byteAt b 5 = 1 ∨ byteAt b 5 = 0x11 → byteAt b 6 = 8 → (s.canHeard tester).uds.seed = some (byteAt b 5, seed) →
        s.cmacKey = some k →
        (hdrData b = (Config.cmac k seed).take 8 → byteAt f.data 7 = 0 ∧ t.obj Obj.SEC_ATTEMPTS = 0 ∧ t.unlocked (byteAt b 5) = true) ∧
        (hdrData b ≠ (Config.cmac k seed).take 8 → byteAt f.data 7 = 4 ∧ t.uds.seed = none ∧
          t.obj Obj.SEC_ATTEMPTS = satInc 255 (s.obj Obj.SEC_ATTEMPTS))) ∧
      s.OnlyParts [.objs, .col, .aon, .tabs, .srv, .can, .uds] t)

/-- What every frame on a request identifier meets (R625, R626, R628), transfers' gaps (R627), NOTIFY (R632) and the sessions of the
ML4860-C (R633). The controllers (R622, R623, R631, R634): CAN_APPLY, a frame that stood for 100 ms, bus-off and its end, error-passive, an
overrun. -/
def Obligations.CanRulesAndControllers : Prop :=
  (∀ (tester fd : Bool) (b : List Byte) (c : Instr) (op : Nat) (s : State),
    (c, op) ∈ [(.canRead tester fd b, 1), (.canWrite tester fd b, 2), (.readBlock tester fd b, 3), (.writeBlock tester fd b, 4),
      (.seed tester fd b, 0x0A), (.key tester fd b, 0x0B)] →
    s.canOn .a = true → s.canState .a = 2 ∨ s.canState .a = 3 → (tester = true → s.variant = .C ∧ s.obj Obj.DIAG_SESSION ≠ 1) →
    (fd = false → exec c s = .next (s.canStat .a 1)) ∧
    (fd = true → s.serving = true → s.canWaits tester (byteAt b 1) = true → exec c s = .next (s.canStat .a 1)) ∧
    (∀ l, fd = true → s.serving = true → s.canWaits tester (byteAt b 1) = false → s.canKept tester (byteAt b 1) = some l →
      s.can.a.queue.length < 16 →
      ∃ t, exec c s = .next t ∧ (t.can.a.queue ++ t.can.a.later).map (·.data) =
          (if l.length = 1 then s.can.a.queue ++ l ++ s.can.a.later else s.can.a.queue ++ s.can.a.later ++ l).map (·.data) ∧
        s.OnlyParts [.objs, .can] t ∧ s.SameObjs [Obj.CAN_STATS 1] t) ∧
    (fd = true → s.serving = true → s.canWaits tester (byteAt b 1) = false → s.canKept tester (byteAt b 1) = none →
      4 ≤ (s.canServed tester).length → s.can.a.queue.length < 16 →
      ∃ t f, exec c s = .next t ∧ t.can.a.queue = s.can.a.queue ++ [f] ∧ byteAt f.data 0 = (byteAt b 0 + 0x80) % 256 ∧
        byteAt f.data 1 = byteAt b 1 ∧ byteAt f.data 7 = 0xF0 ∧ s.OnlyParts [.objs, .can] t ∧ s.SameObjs [Obj.CAN_STATS 1] t) ∧
    (fd = true → s.canTakes tester b = true → hdrOk b = false ∨ byteAt b 0 ≠ op →
      ∃ t f, exec c s = .next t ∧ t.can.a.queue = s.can.a.queue ++ [f] ∧ byteAt f.data 0 = (byteAt b 0 + 0x80) % 256 ∧
        byteAt f.data 1 = byteAt b 1 ∧ byteAt f.data 7 = 0xF1 ∧ s.OnlyParts [.objs, .can] t ∧ s.SameObjs [Obj.CAN_STATS 1] t)) ∧
  (∀ (m : Master) (k : Nat) (x : Transfer) (s : State), s.serving = true → s.transfer? k = some x → x.who = m.code →
    ∃ t, exec (.segmentGapTimeout m k) s = .next t ∧ x ∉ t.srv.transfers ∧ (m = .H → t.can.a.block = none) ∧
      (k ≠ Obj.TABLE_LOAD → s.OnlyParts [.srv, .can] t) ∧ (k = Obj.TABLE_LOAD → t.obj Obj.DOWNLOAD_STATE = 4)) ∧
  (∀ (period : Bool) (s : State), s.serving = true → s.canOn .a = true → s.can.a.queue.length < 16 →
    s.note.reason ≠ 0 ∨ (period = true ∧ s.obj Obj.CAN_NOTIFY_PERIOD ≠ 0) →
    (∀ n, s.note.lastAt = some n → n + ms 1 ≤ s.now) →
    ∃ t f, exec (.canNotify period) s = .next t ∧ t.can.a.queue = s.can.a.queue ++ [f] ∧ byteAt f.data 0 = 8 ∧ f.notify = true ∧
      byteAt f.data 1 = s.note.count % 256 ∧ byteAt f.data 3 = s.modeNow % 256 ∧ leAt f.data 8 4 = s.obj Obj.FAULT_LAST % 2 ^ 32 ∧
      t.note = { count := (s.note.count + 1) % 256, reason := 0, lastAt := some s.now } ∧ s.OnlyParts [.can, .note] t) ∧
  (∀ s : State, s.serving = true → s.variant = .C → s.obj Obj.DIAG_SESSION ≠ 1 → s.sessionDefault.resolved = s.obj Obj.MODE_TARGET →
    ∃ t, exec .testerSessionTimeout s = .next t ∧ t.obj Obj.DIAG_SESSION = 1 ∧ t.obj Obj.DIAG_SECURITY = 0 ∧
      t.obj Obj.MODE_REQ_T = 0xFF ∧ (∀ n, 1 ≤ n → n ≤ 16 → t.obj (Obj.OD_LOCK n) ≠ 3) ∧
      s.OnlyParts [.objs, .col, .tabs, .srv, .uds] t) ∧
  (∀ (m : Master) (v : Nat) (cb : CanBus) (s : State), s.served m = true → s.writeCode m Obj.CAN_APPLY (leBytes 1 v) = 0 →
    cb = (if v % 256 = 1 then .a else .b) →
    ∃ t, exec (.canApply m v) s = .next t ∧ t.srv.code = 0 ∧ t.canState cb = 1 ∧ t.obj (Obj.CAN_ERR (cb.num + 1)) = 0 ∧
      (t.can.get cb).queue = [] ∧ (t.can.get cb).nom = s.obj (Obj.CAN_NOM_RATE (cb.num + 1)) ∧
      (t.can.get cb).data = s.obj (Obj.CAN_DATA_RATE (cb.num + 1)) ∧
      (t.can.get cb).nomBit = nomTiming (s.obj (Obj.CAN_NOM_RATE (cb.num + 1))) (s.obj (Obj.CAN_SP_NOM (cb.num + 1))) ∧
      (s.obj (Obj.CAN_DATA_RATE (cb.num + 1)) ≠ 0 → (t.can.get cb).dataBit =
        bitTiming 1 ([40, 40, 20, 10].getD (s.obj (Obj.CAN_DATA_RATE (cb.num + 1))) 8) (s.obj (Obj.CAN_SP_DATA (cb.num + 1)))) ∧
      (t.can.get cb).tdc = decide (2 ≤ s.obj (Obj.CAN_DATA_RATE (cb.num + 1))) ∧ (t.can.get cb).spNom = s.obj (Obj.CAN_SP_NOM (cb.num + 1)) ∧
      (t.can.get cb).spData = s.obj (Obj.CAN_SP_DATA (cb.num + 1)) ∧ s.OnlyParts [.objs, .col, .tabs, .srv, .can, .note, .uds] t) ∧
  (∀ (cb : CanBus) (f : CanFrame) (r : List CanFrame) (s : State), s.serving = true → (s.can.get cb).queue = f :: r →
    ∃ t, exec (.txTimeout cb) s = .next t ∧ (t.can.get cb).queue = r ∧
      ((s.col.bus.filter fun x => x.src == canSrc cb).length < 4 →
        t.col.bus = s.col.bus ++ [{ src := canSrc cb, kind := 4, inst := f.id % 2048 }]) ∧
      s.OnlyParts [.objs, .col, .can] t ∧ s.SameObjs [Obj.FAULT_LOST] t) ∧
  (∀ (cb : CanBus) (s : State), s.canOn cb = true → s.canState cb ≠ 4 →
    ∃ t, exec (.busOff cb) s = .next t ∧ t.canState cb = 4 ∧ t.obj (Obj.CAN_ERR (cb.num + 1)) % 256 = 255 ∧
      t.obj (Obj.CAN_STATS (3 * cb.num + 3)) = satInc 0xFFFFFFFF (s.obj (Obj.CAN_STATS (3 * cb.num + 3))) ∧
      (t.can.get cb).offs = min 65535 ((s.can.get cb).offs + 1) ∧
      { src := canSrc cb, kind := 2, inst := (t.can.get cb).offs } ∈ t.col.conds ∧ s.OnlyParts [.objs, .col, .can] t) ∧
  (∀ (cb : CanBus) (s : State), s.canState cb = 4 →
    ∃ t, exec (.busOffRecovery cb) s = .next t ∧ t.canState cb = 2 ∧ t.obj (Obj.CAN_ERR (cb.num + 1)) = 0 ∧
      t.stands (canSrc cb) 2 = false ∧ t.stands (canSrc cb) 1 = false ∧ s.OnlyParts [.objs, .col] t ∧
      s.SameObjs [Obj.CAN_STATE (cb.num + 1), Obj.CAN_ERR (cb.num + 1), Obj.FAULT_LOST] t) ∧
  (∀ (cb : CanBus) (tec rec : Nat) (s : State), 255 < tec → exec (.errorPassive cb tec rec) s = exec (.busOff cb) s) ∧
  (∀ (cb : CanBus) (tec rec : Nat) (s : State), tec ≤ 255 → s.canOn cb = true → s.canState cb ≠ 4 →
    ∃ t, exec (.errorPassive cb tec rec) s = .next t ∧ t.obj (Obj.CAN_ERR (cb.num + 1)) = min 255 rec * 256 + min 255 tec ∧
      t.stands (canSrc cb) 1 = (decide (127 < tec) || decide (127 < rec)) ∧
      (127 < tec ∨ 127 < rec → t.canState cb = if s.canState cb = 2 then 3 else s.canState cb) ∧
      (tec ≤ 127 → rec ≤ 127 → t.canState cb = if s.canState cb = 3 then 2 else s.canState cb) ∧ s.OnlyParts [.objs, .col] t ∧
      s.SameObjs [Obj.CAN_STATE (cb.num + 1), Obj.CAN_ERR (cb.num + 1), Obj.FAULT_LOST] t) ∧
  (∀ (cb : CanBus) (n : Nat) (s : State), s.canOn cb = true →
    ∃ t, exec (.rxOverrun cb n) s = .next t ∧
      (∀ k, (s.can.get cb).overAt = some k → s.now < k + sec 1 →
        t.can.get cb = { s.can.get cb with lost := min 65535 ((s.can.get cb).lost + n) } ∧ s.OnlyParts [.can] t) ∧
      ((∀ k, (s.can.get cb).overAt = some k → k + sec 1 ≤ s.now) →
        t.can.get cb = { s.can.get cb with lost := 0, overAt := some s.now } ∧
        ((s.col.bus.filter fun x => x.src == canSrc cb).length < 4 → t.col.bus = s.col.bus ++
          [{ src := canSrc cb, kind := 3, inst := min 65535 ((s.can.get cb).lost + n) }])) ∧
      s.OnlyParts [.objs, .col, .can] t ∧ s.SameObjs [Obj.FAULT_LOST] t)

/-- The LIN node's four frames (R636-R639, R644): headers, checksums, COMMAND, STATUS, OBJ_REQ and OBJ_RSP. -/
def Obligations.LinFrames : Prop :=
  (∀ (b : List Byte) (good err : Bool) (c : Instr) (s : State), s.linOn = true →
    c ∈ [.linCommand b good false, .linStatus false err, .objReq b good false, .objRsp false err, .assignNad b good false,
      .readByIdentifier b good false, .saveConfiguration b good false, .assignFrameIdentifierRange b good false,
      .slaveResponse false err, .goToSleep good false, .linBreak false] →
    ∃ t, exec c s = .next t ∧ t.lin = s.linActive.lin ∧ t.obj (Obj.LIN_STATS 4) = satInc 0xFFFFFFFF (s.obj (Obj.LIN_STATS 4)) ∧
      s.OnlyParts [.objs, .col, .lin] t ∧ s.SameObjs [Obj.LIN_STATS 4, Obj.FAULT_LOST] t) ∧
  (∀ (b : List Byte) (c : Instr) (s : State), s.linOn = true →
    (c = .linCommand b false true ∧ s.lin.pid.getD 0 0 ≠ 0) ∨ (c = .objReq b false true ∧ s.lin.pid.getD 2 0 ≠ 0) ∨
      c ∈ [.assignNad b false true, .readByIdentifier b false true, .saveConfiguration b false true,
        .assignFrameIdentifierRange b false true, .goToSleep false true] →
    ∃ t, exec c s = .next t ∧ t.lin.respErr = true ∧ t.lin.sleep = false ∧ t.lin.rsp = s.lin.rsp ∧ t.lin.slave = s.lin.slave ∧
      t.obj (Obj.LIN_STATS 3) = satInc 0xFFFFFFFF (s.obj (Obj.LIN_STATS 3)) ∧ s.OnlyParts [.objs, .col, .lin] t ∧
      s.SameObjs [Obj.LIN_STATS 1, Obj.LIN_STATS 3, Obj.FAULT_LOST] t) ∧
  (∀ (b : List Byte) (s u : State), s.linOn = true → s.lin.pid.getD 0 0 ≠ 0 → u = (s.linActive.linStat 1).linStat 2 →
    (byteAt b 0 = 0xFE → byteAt b 1 = 0xFF → exec (.linCommand b true true) s = .next u) ∧
    (byteAt b 0 = 0xFE → byteAt b 1 ≠ 0xFF →
      ∃ t, exec (.linCommand b true true) s = .next t ∧
        (u.writeCode .S Obj.CHG_TARGET (leBytes 1 (byteAt b 1)) ≠ 0 → t.obj Obj.CHG_TARGET = s.obj Obj.CHG_TARGET ∧
          t.obj (Obj.LIN_STATS 5) = satInc 0xFFFFFFFF (s.obj (Obj.LIN_STATS 5))) ∧
        (u.writeCode .S Obj.CHG_TARGET (leBytes 1 (byteAt b 1)) = 0 → t.obj Obj.CHG_TARGET = byteAt b 1) ∧
        s.OnlyParts [.objs, .jrnl, .srv, .lin] t) ∧
    (byteAt b 0 ≠ 0xFE → byteAt b 1 = 0xFF →
      (u.writeCode .S Obj.MODE_REQ_S (leBytes 1 (byteAt b 0)) ≠ 0 → ∃ t, exec (.linCommand b true true) s = .next t ∧
        t.obj Obj.MODE_REQ_S = s.obj Obj.MODE_REQ_S ∧ t.obj (Obj.LIN_STATS 5) = satInc 0xFFFFFFFF (s.obj (Obj.LIN_STATS 5)) ∧
        s.OnlyParts [.objs, .srv, .lin] t) ∧
      (u.writeCode .S Obj.MODE_REQ_S (leBytes 1 (byteAt b 0)) = 0 →
        (s.shellUp = true ∧ (u.set Obj.MODE_REQ_S (byteAt b 0)).resolved = s.obj Obj.MODE_TARGET) ∨ (s.shellUp = false ∧ s.modeNow ≠ 1) →
        ∃ t, exec (.linCommand b true true) s = .next t ∧ t.obj Obj.MODE_REQ_S = byteAt b 0 ∧ s.OnlyParts [.objs, .srv, .lin] t ∧
          s.SameObjs [Obj.LIN_STATS 1, Obj.LIN_STATS 2, Obj.MODE_REQ_S, Obj.OD_STATS_REQUESTS] t))) ∧
  (∀ (err : Bool) (s : State), s.linOn = true → s.lin.pid.getD 1 0 ≠ 0 → s.lin.short = false →
    ∃ t, exec (.linStatus true err) s = .next t ∧ t.lin.out.length = 8 ∧ byteAt t.lin.out 0 = s.modeNow % 256 ∧
      byteAt t.lin.out 1 = s.obj Obj.MODE_CAUSE % 256 ∧ byteAt t.lin.out 2 % 16 = s.view Obj.FAULT_SUMMARY % 16 ∧
      bit (byteAt t.lin.out 2) 4 = bit (s.view Obj.FAULT_SUMMARY) 30 ∧ bit (byteAt t.lin.out 2) 5 = bit (s.view Obj.FAULT_SUMMARY) 28 ∧
      bit (byteAt t.lin.out 2) 6 = !s.shellUp ∧ byteAt t.lin.out 6 = s.obj Obj.VAUX_STATE % 2 ∧
      bit (byteAt t.lin.out 2) 7 = s.lin.respErr ∧ byteAt t.lin.out 3 = s.obj Obj.MODE_TARGET % 256 ∧
      leAt t.lin.out 4 2 = s.aon.soc % 65536 ∧ byteAt t.lin.out 7 = s.obj Obj.MODE_REQ_S % 256 ∧ t.lin.respErr = err ∧
      s.OnlyParts [.objs, .lin] t ∧ s.SameObjs [Obj.LIN_STATS 1] t) ∧
  (∀ (b : List Byte) (k : Nat) (s u : State), s.linOn = true → s.lin.pid.getD 2 0 ≠ 0 → u = (s.linActive.linStat 1).linStat 2 →
    k = linKey b →
    (s.lin.held ≠ none → exec (.objReq b true true) s = .next u) ∧
    (s.lin.held = none → byteAt b 0 / 16 = 1 →
      ∃ t r, exec (.objReq b true true) s = .next t ∧ t.lin.rsp = some r ∧ byteAt r 0 = 0x80 + byteAt b 0 ∧
        byteAt r 1 = (if u.readCode .S k = 0 ∧ u.linLong k = true then 5 else u.readCode .S k) ∧
        (∀ n, byteAt r 1 = 0 → s.linSize k = some n → slice r 4 n = u.keyBytes k) ∧ s.OnlyParts [.objs, .srv, .lin] t) ∧
    (s.lin.held = none → byteAt b 0 / 16 = 2 → u.linLong k = false →
      u.writeCode .S k (slice b 4 ((s.linSize k).getD 4)) ≠ 0 →
      ∃ t r, exec (.objReq b true true) s = .next t ∧ t.lin.rsp = some r ∧ byteAt r 0 = 0x80 + byteAt b 0 ∧
        byteAt r 1 = u.writeCode .S k (slice b 4 ((s.linSize k).getD 4)) ∧ s.OnlyParts [.objs, .srv, .lin] t) ∧
    (s.lin.held = none → byteAt b 0 / 16 ≠ 1 → byteAt b 0 / 16 ≠ 2 →
      ∃ t r, exec (.objReq b true true) s = .next t ∧ t.lin.rsp = some r ∧ byteAt r 1 = 0xF1 ∧
        t.lin.req = (if s.serving then some b else none) ∧ s.OnlyParts [.objs, .lin] t)) ∧
  (∀ (err : Bool) (s : State), s.linOn = true → s.lin.pid.getD 3 0 ≠ 0 → s.lin.short = false → s.lin.held = none →
    (s.lin.req = none ∨ s.serving = true → ∃ t, exec (.objRsp true err) s = .next t ∧ t.lin.out = s.lin.rsp.getD s.lin.out ∧
      (s.lin.rsp ≠ none → t.lin.respErr = (s.lin.respErr || err)) ∧ t.lin.req = none ∧ s.OnlyParts [.objs, .lin] t ∧
      s.SameObjs [Obj.LIN_STATS 1] t) ∧
    (∀ b, s.lin.req = some b → s.serving = false → alwaysOn (linKey b) = false →
      ∃ t, exec (.objRsp true err) s = .next t ∧ t.lin.out = linRsp b 3 [] ∧ t.lin.req = none ∧ t.lin.respErr = (s.lin.respErr || err) ∧
        s.OnlyParts [.objs, .lin] t ∧ s.SameObjs [Obj.LIN_STATS 1] t))

/-- The node-configuration services (R640, R645): AssignNAD, ReadByIdentifier, SaveConfiguration, AssignFrameIdentifierRange and the slave
response that carries their answers. Sleep, wake-up and the bus's faults (R641-R644). -/
def Obligations.LinServicesAndSleep : Prop :=
  (∀ (b : List Byte) (s u : State), s.linOn = true → byteAt b 0 = s.lin.nad ∨ byteAt b 0 = 0x7F →
    u = (s.linActive.linStat 1).linStat 2 →
    (byteAt b 2 = 0xB0 → productOk (leAt b 3 2) (leAt b 5 2) = false → exec (.assignNad b true true) s = .next u) ∧
    (byteAt b 2 = 0xB0 → productOk (leAt b 3 2) (leAt b 5 2) = true →
      (s.serving = true → u.writeCode .S Obj.LIN_NAD (leBytes 1 (byteAt b 7)) = 0 →
        ∃ t, exec (.assignNad b true true) s = .next t ∧ t.obj Obj.LIN_NAD = byteAt b 7 ∧ t.lin.nad = byteAt b 7 ∧
          t.lin.slave = some (leBytes 1 s.lin.nad ++ [0x01#8, 0xF0#8] ++ List.replicate 5 0xFF#8) ∧
          s.OnlyParts [.objs, .jrnl, .srv, .lin] t) ∧
      (s.serving = false → s.modeNow ≠ 7 → 1 ≤ byteAt b 7 → byteAt b 7 ≤ 0x7D →
        ∃ t, exec (.assignNad b true true) s = .next t ∧ t.lin.nad = byteAt b 7 ∧ t.lin.changed = true ∧
          t.lin.slave = some (leBytes 1 s.lin.nad ++ [0x01#8, 0xF0#8] ++ List.replicate 5 0xFF#8) ∧ s.OnlyParts [.objs, .lin] t) ∧
      (s.serving = false → s.modeNow = 7 → ∃ t, exec (.assignNad b true true) s = .next t ∧ s.OnlyParts [.objs, .col, .lin] t ∧
        t.lin.nad = s.lin.nad)) ∧
    (byteAt b 2 = 0xB2 → productOk (leAt b 4 2) (leAt b 6 2) = true →
      ∃ t r, exec (.readByIdentifier b true true) s = .next t ∧ t.lin.slave = some (leBytes 1 s.lin.nad ++ r) ∧ r.length = 7 ∧
        (byteAt b 3 = 0 → leAt r 2 2 = 0x504C ∧ leAt r 4 2 = 0x4860 ∧ byteAt r 6 = s.obj Obj.VARIANT % 256) ∧
        (byteAt b 3 = 1 → leAt r 2 4 = s.obj Obj.UNIQUE_ID % 2 ^ 32) ∧
        (byteAt b 3 = 32 → leAt r 2 4 = s.obj Obj.UNIQUE_ID / 2 ^ 32 % 2 ^ 32) ∧
        (byteAt b 3 ∉ [0, 1, 32] → byteAt r 1 = 0x7F ∧ byteAt r 2 = 0xB2 ∧ byteAt r 3 = 0x12) ∧
        s.OnlyParts [.objs, .lin] t ∧ s.SameObjs [Obj.LIN_STATS 1, Obj.LIN_STATS 2] t) ∧
    (byteAt b 2 = 0xB6 → s.serving = true → s.modeNow ≠ 7 → s.lockedOut .S Obj.OD_COMMIT 1 = false →
      ∃ t, exec (.saveConfiguration b true true) s = .next t ∧
        t.lin.slave = some (leBytes 1 s.lin.nad ++ [0x01#8, 0xF6#8] ++ List.replicate 5 0xFF#8) ∧
        (s.flashOk = true → s.jrnl.inFlight = none → s.jrnl.buf ≠ [] → t.jrnl.inFlight = some s.jrnl.buf ∧ t.jrnl.buf = []) ∧
        s.OnlyParts [.objs, .jrnl, .lin] t) ∧
    (byteAt b 2 = 0xB7 → pidsOk b = false → exec (.assignFrameIdentifierRange b true true) s = .next u) ∧
    (byteAt b 2 = 0xB7 → pidsOk b = true → s.serving = false → s.modeNow ≠ 7 → s.lin.pid.length = 4 →
      ∃ t, exec (.assignFrameIdentifierRange b true true) s = .next t ∧
        (∀ x ∈ pidChanges b, t.lin.pid[x.1]? = some (x.2 % 64)) ∧
        (∀ i, (pidChanges b).all (fun x => x.1 != i) = true → t.lin.pid[i]? = s.lin.pid[i]?) ∧
        t.lin.slave = some (leBytes 1 s.lin.nad ++ [0x01#8, 0xF7#8] ++ List.replicate 5 0xFF#8) ∧ s.OnlyParts [.objs, .lin] t) ∧
    (byteAt b 2 = 0xB7 → pidsOk b = true → s.serving = true →
      (∀ n v, n < 4 → v ≤ 0x3B → u.writeCode .S (Obj.LIN_PID (n + 1)) (leBytes 1 v) = 0) →
      ∃ t, exec (.assignFrameIdentifierRange b true true) s = .next t ∧
        (∀ x ∈ pidChanges b, t.obj (Obj.LIN_PID (x.1 + 1)) = x.2 % 64) ∧
        t.lin.slave = some (leBytes 1 s.lin.nad ++ [0x01#8, 0xF7#8] ++ List.replicate 5 0xFF#8) ∧
        s.OnlyParts [.objs, .jrnl, .srv, .lin] t)) ∧
  (∀ (err : Bool) (m : List Byte) (s : State), s.linOn = true → s.lin.short = false → s.lin.slave = some m →
    ∃ t, exec (.slaveResponse true err) s = .next t ∧ t.lin.out = m ∧ t.lin.slave = none ∧ t.lin.respErr = (s.lin.respErr || err) ∧
      s.OnlyParts [.objs, .lin] t ∧ s.SameObjs [Obj.LIN_STATS 1] t) ∧
  (∀ s : State, s.linOn = true →
    (∃ t, exec (.goToSleep true true) s = .next t ∧ t.lin = { s.lin with sleep := true, wakeDue := false, wakes := 0, blocks := 0 } ∧
      s.OnlyParts [.objs, .lin] t ∧ s.SameObjs [Obj.LIN_STATS 1, Obj.LIN_STATS 2] t) ∧
    (∃ t, exec .linBusInactivity s = .next t ∧ t.lin = { s.lin with sleep := true, wakeDue := false, wakes := 0, blocks := 0 } ∧
      s.OnlyParts [.lin] t) ∧
    (exec (.linBreak true) s = .next (s.linActive.linStat 1))) ∧
  (∀ (n : Nat) (s : State), s.linOn = true → 150 ≤ n → n ≤ 5000 →
    (s.modeNow ≠ 1 → s.mode.park ≠ 5 → exec (.linWake n) s = .next s.linActive) ∧
    (s.modeNow = 1 → bit (s.obj Obj.WAKE_CFG) 2 = true → s.bringing = false → s.aon.por = false → s.mode.parkCheck = false →
      exec (.linWake n) s = .next (s.linActive.wakeUp 4)) ∧
    (s.modeNow = 1 → bit (s.obj Obj.WAKE_CFG) 2 = false → exec (.linWake n) s = .next s.linActive)) ∧
  (∀ s : State, s.linOn = true → s.lin.sleep = true → s.lin.wakeDue = true → s.lin.short = false →
    ∃ t, exec .linWakeTx s = .next t ∧ (s.lin.wakes < 2 → t.lin = { s.lin with wakes := s.lin.wakes + 1 }) ∧
      (2 ≤ s.lin.wakes → t.lin.wakes = 0 ∧ t.lin.blocks = (if s.lin.blocks = 0 then 1 else 2) ∧ t.lin.wakeDue = (s.lin.blocks == 0)) ∧
      s.OnlyParts [.lin] t) ∧
  (∀ s : State, s.linOn = true → s.shellUp = true →
    ∃ t, exec .linBusShort s = .next t ∧ t.lin = { s.lin with short := true } ∧ t.stands 0x13 3 = true ∧ s.OnlyParts [.objs, .col, .lin] t ∧
      s.SameObjs [Obj.FAULT_LOST] t) ∧
  (∀ s : State, ∃ t, exec .linBusRecessive s = .next t ∧ t.lin = { s.lin with short := false } ∧ t.stands 0x13 3 = false ∧
      s.OnlyParts [.objs, .col, .lin] t ∧ s.SameObjs [Obj.FAULT_LOST] t)

/-- The transport and the timers of the diagnostic server (R649-R654, R662): a busy server, first and consecutive frames, flow control, N_Bs
and N_Cr, response pending, S3server, the end of the security delay. -/
def Obligations.UdsTransport : Prop :=
  (∀ (func fd : Bool) (m : List Byte) (c : Instr) (s : State), s.udsBusy = true →
    c ∈ [.diagnosticSessionControl func fd m, .ecuResetHard func fd m, .ecuResetSoft func fd m, .clearDiagnosticInformation func fd m,
      .reportNumberOfDtc func fd m, .readDataByIdentifier func fd m, .writeDataByIdentifier func fd m, .securityAccessSeed func fd m,
      .securityAccessKey func fd m, .routineTableSwitch func fd m, .requestDownload func fd m, .transferData func fd m,
      .requestTransferExit func fd m, .testerPresent func fd m, .controlDtcSettingOff func fd m, .firstFrame func fd m.length false m] →
    ∃ t, exec c s = .next t ∧ s.OnlyParts [.objs] t ∧ s.SameObjs [Obj.CAN_STATS 4] t) ∧
  (∀ (fd esc : Bool) (n : Nat) (d : List Byte) (s : State), s.udsFree = true → s.can.b.queue.length < 16 → esc = true ∨ sfMax fd < n →
    ∃ t f, exec (.firstFrame false fd n esc d) s = .next t ∧ t.can.b.queue = s.can.b.queue ++ [f] ∧
      (esc = true ∨ 4095 < n → f.data = [0x32#8, 0#8, 0#8] ++ List.replicate 5 0xCC#8 ∧ t.uds.rx = none) ∧
      (esc = false → n ≤ 4095 → byteAt f.data 0 = 0x30 ∧ byteAt f.data 1 = s.obj Obj.DIAG_TP % 256 ∧
        byteAt f.data 2 = s.obj Obj.DIAG_TP / 256 % 256 ∧ t.uds.rx = some (n, d.take (ffData fd), 0) ∧ t.uds.fd = fd) ∧
      s.OnlyParts [.objs, .can, .uds] t ∧ s.SameObjs [Obj.CAN_STATS 4] t) ∧
  (∀ (n len k : Nat) (d got : List Byte) (s : State), s.canOn .b = true → s.canState .b = 2 ∨ s.canState .b = 3 → s.udsUp = true →
    s.uds.rx = some (len, got, k) →
    (n ≠ (k + 1) % 16 → ∃ t, exec (.consecutiveFrame n d) s = .next t ∧ t.uds = { s.uds with rx := none } ∧ s.OnlyParts [.objs, .uds] t) ∧
    (n = (k + 1) % 16 → ((got ++ d.take (cfData s.uds.fd)).take len).length < len →
      ∃ t, exec (.consecutiveFrame n d) s = .next t ∧
        t.uds = { s.uds with rx := some (len, (got ++ d.take (cfData s.uds.fd)).take len, k + 1) } ∧ s.OnlyParts [.objs, .can, .uds] t) ∧
    (n = (k + 1) % 16 → ((got ++ d.take (cfData s.uds.fd)).take len).length = len →
      exec (.consecutiveFrame n d) s = .next (s.logDiff
        (((s.canStat .b 1).modU fun u => { u with rx := none }).udsServe false ((got ++ d.take (cfData s.uds.fd)).take len))))) ∧
  (∀ (fs bs st n w : Nat) (l : List Byte) (s : State), s.canOn .b = true → s.canState .b = 2 ∨ s.canState .b = 3 → s.udsUp = true →
    s.uds.tx = some (l, n, w) → s.uds.allow = 0 →
    ∃ t, exec (.flowControl fs bs st) s = .next t ∧
      (fs = 0 → t.uds = { s.uds with tx := some (l, n, 0), allow := if bs = 0 then 4096 else bs, st := stMin st, nextAt := s.now }) ∧
      (fs = 0 → st ≤ 127 → t.uds.st = ms st) ∧ (fs = 0 → 0xF1 ≤ st → st ≤ 0xF9 → t.uds.st = us (100 * (st - 0xF0))) ∧
      (fs = 1 → w < 8 → t.uds = { s.uds with tx := some (l, n, w + 1) }) ∧
      (2 ≤ fs ∨ (fs = 1 ∧ 8 ≤ w) → t.uds = { s.uds with tx := none }) ∧ s.OnlyParts [.objs, .uds] t ∧ s.SameObjs [Obj.CAN_STATS 4] t) ∧
  (∀ s : State, s.udsUp = true → (s.col.bus.filter fun x => x.src == 0x14).length < 4 →
    (s.uds.tx ≠ none → s.uds.allow = 0 → ∃ t, exec .nBsTimeout s = .next t ∧ t.uds = { s.uds with tx := none } ∧
      t.col.bus = s.col.bus ++ [{ src := 0x14, kind := 2, inst := 1 }] ∧ s.OnlyParts [.col, .uds] t) ∧
    (s.uds.rx ≠ none → ∃ t, exec .nCrTimeout s = .next t ∧ t.uds = { s.uds with rx := none } ∧
      t.col.bus = s.col.bus ++ [{ src := 0x14, kind := 2, inst := 2 }] ∧ s.OnlyParts [.col, .uds] t) ∧
    (s.session ≠ 1 → s.udsBusy = false → s.sessionDefault.resolved = s.obj Obj.MODE_TARGET →
      ∃ t, exec .s3ServerTimeout s = .next t ∧ t.obj Obj.DIAG_SESSION = 1 ∧ t.obj Obj.DIAG_SECURITY = 0 ∧ t.obj Obj.MODE_REQ_T = 0xFF ∧
        { src := 0x14, kind := 4, inst := s.session % 65536 } ∈ t.col.bus ∧ s.OnlyParts [.objs, .col, .tabs, .srv, .uds] t)) ∧
  (∀ (k : Nat) (m : List Byte) (s : State), s.udsUp = true → s.canOn .b = true → s.can.b.queue.length < 16 → s.uds.waiting = some (k, m) →
    ∃ t f, exec .responsePending s = .next t ∧ t.can.b.queue = s.can.b.queue ++ [f] ∧ byteAt f.data 0 = 3 ∧ byteAt f.data 1 = 0x7F ∧
      byteAt f.data 2 = (byteAt m 0 + 192) % 256 ∧ byteAt f.data 3 = 0x78 ∧ s.OnlyParts [.can] t) ∧
  (∀ s : State, s.aon.por = false →
    ∃ t, exec .securityDelayEnd s = .next t ∧ t.obj Obj.SEC_DELAY = 0 ∧ s.OnlyParts [.objs] t ∧ s.SameObjs [Obj.SEC_DELAY] t)

/-- The services of the diagnostic server (R651, R652, R656-R662, R665, R666, R671-R673). -/
def Obligations.UdsServices : Prop :=
  (∀ (func fd : Bool) (m : List Byte) (s : State), s.udsTakes fd m = true → byteAt m 0 = 0x10 → m.length = 2 →
    s.uds.download = none →
    (subFn m = 3 → ∃ t, exec (.diagnosticSessionControl func fd m) s = .next t ∧ t.obj Obj.DIAG_SESSION = 3 ∧
      (s.session ≠ 3 → t.obj Obj.DIAG_SECURITY = 0 ∧ t.obj Obj.DTC_SETTING = 1 ∧ t.uds.seed = none) ∧
      (supBit m = false → t.uds.resp = [0x50#8, 0x03#8, 0#8, 0x32#8, 1#8, 0xF4#8]) ∧
      s.OnlyParts [.objs, .col, .tabs, .srv, .can, .uds] t) ∧
    (subFn m = 2 → ∃ t, exec (.diagnosticSessionControl func fd m) s = .next t ∧
      (s.progOk = true → t.obj Obj.DIAG_SESSION = 2) ∧
      (s.progOk = false → t.obj Obj.DIAG_SESSION = s.session ∧ t.uds.resp = [0x7F#8, 0x10#8, 0x22#8])) ∧
    (subFn m = 1 → s.session = 1 ∨ s.sessionDefault.resolved = s.obj Obj.MODE_TARGET →
      ∃ t, exec (.diagnosticSessionControl func fd m) s = .next t ∧ t.obj Obj.DIAG_SESSION = 1 ∧
        (supBit m = false → t.uds.resp = [0x50#8, 0x01#8, 0#8, 0x32#8, 1#8, 0xF4#8]) ∧
        s.OnlyParts [.objs, .col, .tabs, .srv, .can, .uds] t) ∧
    (subFn m ∉ [1, 2, 3] → ∃ t, exec (.diagnosticSessionControl func fd m) s = .next t ∧
      t.uds.resp = (if func then s.uds.resp else [0x7F#8, 0x10#8, 0x12#8]) ∧ s.OnlyParts [.objs, .can, .uds] t)) ∧
  (∀ (func fd : Bool) (m : List Byte) (n : Nat) (c : Instr) (s : State), s.udsTakes fd m = true → m.length = 2 → n = subFn m →
    (byteAt m 0 = 0x11 ∧ s.uds.download = none ∧ ((n = 1 ∧ c = .ecuResetHard func fd m) ∨ (n = 3 ∧ c = .ecuResetSoft func fd m))) ∨
      (byteAt m 0 = 0x3E ∧ n = 0 ∧ c = .testerPresent func fd m) ∨
      (byteAt m 0 = 0x85 ∧ s.session ≠ 1 ∧ ((n = 1 ∧ c = .controlDtcSettingOn func fd m) ∨ (n = 2 ∧ c = .controlDtcSettingOff func fd m))) →
    ∃ t, exec c s = .next t ∧ (supBit m = false → t.uds.resp = leBytes 1 (byteAt m 0 + 0x40) ++ leBytes 1 n) ∧
      (supBit m = true → t.uds.resp = s.uds.resp ∧ t.can = s.can) ∧
      (byteAt m 0 = 0x11 → t.uds.reset = if n = 1 then 2 else 1) ∧ (byteAt m 0 ≠ 0x11 → t.uds.reset = s.uds.reset) ∧
      (byteAt m 0 = 0x85 → t.obj Obj.DTC_SETTING = b2n (n == 1)) ∧ s.OnlyParts [.objs, .can, .uds] t ∧
      s.SameObjs (if byteAt m 0 = 0x85 then [Obj.CAN_STATS 4, Obj.DTC_SETTING] else [Obj.CAN_STATS 4]) t) ∧
  (∀ (func fd : Bool) (m : List Byte) (n : Nat) (s : State), s.udsTakes fd m = true → byteAt m 0 = 0x27 → n = subFn m → supBit m = false →
    s.session ≠ 1 → (0x11 ≤ n → s.session = 2) →
    (n = 1 ∨ n = 0x11 → m.length = 2 → ∃ t, exec (.securityAccessSeed func fd m) s = .next t ∧
      (s.obj (Obj.OTP_STATE 4) = 3 → t.uds.resp = [0x7F#8, 0x27#8, 0x22#8]) ∧
      (s.obj (Obj.OTP_STATE 4) ≠ 3 → s.obj Obj.SEC_DELAY ≠ 0 → t.uds.resp = [0x7F#8, 0x27#8, 0x37#8]) ∧
      (s.obj (Obj.OTP_STATE 4) ≠ 3 → s.obj Obj.SEC_DELAY = 0 → s.unlocked n = true →
        t.uds.resp = [0x67#8] ++ leBytes 1 n ++ List.replicate 16 0#8) ∧
      (s.obj (Obj.OTP_STATE 4) ≠ 3 → s.obj Obj.SEC_DELAY = 0 → s.unlocked n = false →
        ∃ seed, seed.length = 16 ∧ byteAt seed 15 = n ∧ t.uds.resp = [0x67#8] ++ leBytes 1 n ++ seed ∧ t.uds.seed = some (n, seed)) ∧
      s.OnlyParts [.free, .objs, .can, .uds] t ∧ s.SameObjs [Obj.CAN_STATS 4] t) ∧
    (n = 2 ∨ n = 0x12 → m.length = 10 → ∃ t, exec (.securityAccessKey func fd m) s = .next t ∧
      (s.uds.seed = none → t.uds.resp = [0x7F#8, 0x27#8, 0x24#8]) ∧
      (∀ seed k, s.uds.seed = some (n - 1, seed) → s.cmacKey = some k → t.uds.seed = none ∧
        (m.drop 2 = (Config.cmac k seed).take 8 → t.obj Obj.SEC_ATTEMPTS = 0 ∧ t.unlocked (n - 1) = true ∧
          t.uds.resp = [0x67#8] ++ leBytes 1 n) ∧
        (m.drop 2 ≠ (Config.cmac k seed).take 8 → t.obj Obj.DIAG_SECURITY = s.obj Obj.DIAG_SECURITY ∧
          t.obj Obj.SEC_ATTEMPTS = satInc 255 (s.obj Obj.SEC_ATTEMPTS) ∧
          (3 ≤ t.obj Obj.SEC_ATTEMPTS → t.obj Obj.SEC_DELAY = 10 ∧ t.aon.secEnd = s.now + sec 10 ∧ t.uds.resp = [0x7F#8, 0x27#8, 0x36#8]) ∧
          (t.obj Obj.SEC_ATTEMPTS < 3 → t.uds.resp = [0x7F#8, 0x27#8, 0x35#8]))) ∧
      s.OnlyParts [.objs, .col, .aon, .can, .uds] t)) ∧
  (∀ (func fd : Bool) (m : List Byte) (v : Nat) (s : State), s.udsTakes fd m = true → byteAt m 0 = 0x14 → m.length = 4 →
    v = beNat (slice m 1 3) → s.session ≠ 2 →
    ∃ t, exec (.clearDiagnosticInformation func fd m) s = .next t ∧
      (s.dtcGroup v = false → t.uds.dtcs = s.uds.dtcs ∧ (func = false → t.uds.resp = [0x7F#8, 0x14#8, 0x31#8])) ∧
      (s.dtcGroup v = true → (∀ e ∈ s.recs, e.2.active = false) →
        t.uds.dtcs = (s.uds.dtcs.filter fun d => !(v == 0xFFFFFF || d.code == v / 256)) ∧ t.obj Obj.DTC_STATE = 0 ∧
        (t.jrnl.inFlight = none → t.uds.resp = [0x54#8]) ∧ (t.jrnl.inFlight ≠ none → t.uds.waiting = some (1, [0x54#8]))) ∧
      s.OnlyParts [.objs, .jrnl, .can, .uds] t) ∧
  (∀ (func fd : Bool) (m : List Byte) (n : Nat) (c : Instr) (s : State), s.udsTakes fd m = true → byteAt m 0 = 0x19 → n = subFn m →
    supBit m = false → m.length = dtcLen n →
    (n, c) ∈ [(1, .reportNumberOfDtc func fd m), (2, .reportDtcByStatus func fd m), (4, .reportDtcSnapshot func fd m),
      (6, .reportDtcExtendedData func fd m), (0x0A, .reportSupportedDtc func fd m)] →
    ∃ t, exec c s = .next t ∧
      (n = 1 → t.uds.resp = [0x59#8, 1#8, 0x2F#8, 1#8] ++ beBytes 2 (s.dtcMatching (byteAt m 2)).length) ∧
      (n = 2 → t.uds.resp = [0x59#8, 2#8, 0x2F#8] ++ (s.dtcMatching (byteAt m 2)).flatMap fun d => dtcWithStatus d.code d.status) ∧
      (n = 0x0A → t.uds.resp = [0x59#8, 0x0A#8, 0x2F#8] ++ s.dtcCatalogue) ∧
      (n = 4 ∨ n = 6 → s.dtc? (beNat (slice m 2 3)) = none → func = false → t.uds.resp = [0x7F#8, 0x19#8, 0x31#8]) ∧
      (∀ d, n = 4 ∨ n = 6 → s.dtc? (beNat (slice m 2 3)) = some d → recordOk n (byteAt m 5) = true →
        t.uds.resp = [0x59#8] ++ leBytes 1 n ++ dtcWithStatus d.code d.status ++
          (if n = 4 then (if byteAt m 5 = 2 then [] else snapRecord 1 d.snap1) ++ (if byteAt m 5 = 1 then [] else snapRecord 2 d.snap2)
            else extRecords d (byteAt m 5))) ∧
      s.OnlyParts [.objs, .can, .uds] t ∧ s.SameObjs [Obj.CAN_STATS 4] t) ∧
  (∀ (func fd : Bool) (m : List Byte) (did : Nat) (s u : State), s.udsTakes fd m = true → byteAt m 0 = 0x22 → m.length = 3 →
    did = beNat (slice m 1 2) → u = s.udsHeard fd →
    ∃ t, exec (.readDataByIdentifier func fd m) s = .next t ∧
      (did = 0xF186 → t.uds.resp = [0x62#8] ++ slice m 1 2 ++ leBytes 1 s.session) ∧
      (did = 0xF18C → t.uds.resp = [0x62#8] ++ slice m 1 2 ++ leBytes 8 (s.obj Obj.UNIQUE_ID)) ∧
      (did / 4096 = 4 → s.keyType (s.didKey did) ≠ some .domain → u.readCode .T (s.didKey did) = 0 →
        (u.readBytes (s.didKey did)).length ≤ 4092 → t.uds.resp = [0x62#8] ++ slice m 1 2 ++ u.readBytes (s.didKey did)) ∧
      (did / 4096 = 4 → u.readCode .T (s.didKey did) ≠ 0 → func = false →
        t.uds.resp = [0x7F#8, 0x22#8] ++ leBytes 1 (nrcOf (u.readCode .T (s.didKey did)))) ∧
      s.OnlyParts [.objs, .col, .recs, .jrnl, .srv, .can, .uds] t) ∧
  (∀ (func fd : Bool) (m : List Byte) (did k : Nat) (s u : State), s.udsTakes fd m = true → byteAt m 0 = 0x2E → 5 ≤ m.length →
    did = beNat (slice m 1 2) → did / 4096 = 4 → k = did % 4096 * 256 + byteAt m 3 → s.keyType k ≠ some .domain → u = s.udsHeard fd →
    s.session ≠ 1 → (s.inOvercast = true → overcastWrite k = true) →
    (freeWrite k = false → s.unlocked 1 = false →
      ∃ t, exec (.writeDataByIdentifier func fd m) s = .next t ∧ t.uds.resp = [0x7F#8, 0x2E#8, 0x33#8] ∧ s.OnlyParts [.objs, .can, .uds] t) ∧
    (freeWrite k = true ∨ s.unlocked 1 = true →
      (u.writeCode .T k (m.drop 4) ≠ 0 → func = false → ∃ t, exec (.writeDataByIdentifier func fd m) s = .next t ∧
        t.uds.resp = [0x7F#8, 0x2E#8] ++ leBytes 1 (nrcOf (u.writeCode .T k (m.drop 4))) ∧ s.OnlyParts [.objs, .srv, .can, .uds] t) ∧
      (u.writeCode .T k (m.drop 4) = 0 →
        k ∈ [Obj.DIAG_DOMAIN_OFS, Obj.CHIPRST_HOLDOFF, Obj.OD_COMMIT_DELAY, Obj.REC_MAX_HOUR, Obj.CAN_NOTIFY_PERIOD] →
        ∃ t, exec (.writeDataByIdentifier func fd m) s = .next t ∧ t.obj k = leNat (m.drop 4) ∧ t.uds.resp = [0x6E#8] ++ slice m 1 2 ∧
          s.OnlyParts [.objs, .jrnl, .srv, .can, .uds] t)))

/-- Routines and downloads (R657, R663, R664, R667). -/
def Obligations.UdsRoutinesAndDownload : Prop :=
  (∀ (func fd : Bool) (m : List Byte) (rid : Nat) (s u : State), s.udsTakes fd m = true → byteAt m 0 = 0x31 → subFn m = 1 →
    supBit m = false → rid = beNat (slice m 2 2) → u = s.udsHeard fd → s.session ≠ 1 → s.modeNow ≠ 7 → m.length = 4 + optLen rid →
    s.unlocked (if rid = 0x0204 then 0x11 else 1) = true →
    (rid = 0x0201 → u.writeCode .T Obj.SELFCAL_CMD [1#8] = 0 → ∃ t, exec (.routineSelfCalibration func fd m) s = .next t ∧
      t.meas = { s.meas with cal := 1, calWas := s.obj Obj.CAL_STATE } ∧ bit t.uds.routines 0 = true ∧
      t.uds.resp = [0x71#8, 1#8, 2#8, 1#8] ∧ s.OnlyParts [.objs, .meas, .srv, .can, .uds] t) ∧
    (rid = 0x0201 → u.writeCode .T Obj.SELFCAL_CMD [1#8] ≠ 0 → func = false →
      ∃ t, exec (.routineSelfCalibration func fd m) s = .next t ∧ t.uds.routines = s.uds.routines ∧
        t.uds.resp = [0x7F#8, 0x31#8] ++ leBytes 1 (nrcOf (u.writeCode .T Obj.SELFCAL_CMD [1#8])) ∧ s.OnlyParts [.objs, .srv, .can, .uds] t) ∧
    (rid = 0x0202 → u.writeCode .T Obj.HZ_EPOCH_CMD [1#8] = 0 → ∃ t, exec (.routineHorizonEpoch func fd m) s = .next t ∧
      (s.hz.epoch = none → t.hz.epoch = some 3) ∧ (s.hz.epoch ≠ none → t.hz = s.hz) ∧ bit t.uds.routines 1 = true ∧
      t.uds.resp = [0x71#8, 1#8, 2#8, 2#8] ∧ s.OnlyParts [.objs, .hz, .srv, .can, .uds] t) ∧
    (rid = 0x0203 → s.variant = .A → byteAt m 4 ≤ 1 → s.burstsRun (if byteAt m 4 = 0 then .east else .west) = true →
      ∃ t, exec (.routineMoistureTest func fd m) s = .next t ∧
        (t.lp (if byteAt m 4 = 0 then .east else .west)).burst =
          (if (s.lp (if byteAt m 4 = 0 then .east else .west)).mated then 2 else 1) ∧
        t.uds.testPort = byteAt m 4 + 1 ∧ t.uds.testDone = false ∧ bit t.uds.routines 2 = true ∧
        t.uds.resp = [0x71#8, 1#8, 2#8, 3#8] ∧ s.OnlyParts [.objs, .link, .can, .uds] t) ∧
    (rid = 0x0204 → u.writeCode .T Obj.TABLE_SWITCH (slice m 4 4) = 0 → ∃ t, exec (.routineTableSwitch func fd m) s = .next t ∧
      t.obj Obj.TABLE_SWITCH = 2 ^ 24 + leNat (slice m 4 4) % 1024 ∧ t.tabs.switching = true ∧ bit t.uds.routines 3 = true ∧
      t.uds.resp = [0x71#8, 1#8, 2#8, 4#8] ∧ s.OnlyParts [.objs, .tabs, .srv, .can, .uds] t)) ∧
  (∀ (func fd : Bool) (m : List Byte) (rid : Nat) (s : State), s.udsTakes fd m = true → byteAt m 0 = 0x31 → subFn m = 3 →
    supBit m = false → rid = beNat (slice m 2 2) → s.session ≠ 1 → s.modeNow ≠ 7 → m.length = 4 → s.routineHere rid = true →
    s.routineLevel rid = true →
    ∃ t, exec (.requestRoutineResults func fd m) s = .next t ∧
      (bit s.uds.routines (rid - 0x0201) = false → t.uds.resp = [0x7F#8, 0x31#8, 0x24#8]) ∧
      (bit s.uds.routines (rid - 0x0201) = true →
        (rid = 0x0201 → t.uds.resp = [0x71#8, 3#8, 2#8, 1#8] ++ leBytes 1 (s.obj Obj.CAL_STATE)) ∧
        (rid = 0x0202 → t.uds.resp = [0x71#8, 3#8, 2#8, 2#8] ++ leBytes 1 (s.obj Obj.HZ_EPOCH_RESULT) ++
          leBytes 4 (s.obj Obj.HZ_EPOCH_COUNT)) ∧
        (rid = 0x0203 → t.uds.resp = [0x71#8, 3#8, 2#8, 3#8] ++ leBytes 1 (b2n s.uds.testDone) ++
          leBytes 2 (s.obj (Obj.LINK_LEAK s.uds.testPort)) ++ leBytes 2 (s.obj (Obj.LINK_SUSC s.uds.testPort)) ++
          leBytes 1 (s.obj (Obj.LINK_MOIST s.uds.testPort))) ∧
        (rid = 0x0204 → t.uds.resp = [0x71#8, 3#8, 2#8, 4#8] ++ leBytes 4 (s.obj Obj.TABLE_SWITCH))) ∧
      s.OnlyParts [.objs, .can, .uds] t ∧ s.SameObjs [Obj.CAN_STATS 4] t) ∧
  (∀ (func fd : Bool) (m : List Byte) (s : State), s.udsTakes fd m = true → byteAt m 0 = 0x34 → s.session = 2 → s.modeNow = 5 →
    s.tablesQuiet = true → s.unlocked 0x11 = true → m.length = 8 → byteAt m 1 = 0 → byteAt m 2 = 0x41 → byteAt m 3 = 0 →
    ∃ t, exec (.requestDownload func fd m) s = .next t ∧
      (64 ≤ beNat (slice m 4 4) → beNat (slice m 4 4) ≤ 524288 → t.uds.download = some { size := beNat (slice m 4 4) } ∧
        t.obj Obj.DOWNLOAD_STATE = 1 ∧ t.uds.resp = [0x74#8, 0x20#8, 0x0F#8, 0xFF#8]) ∧
      (beNat (slice m 4 4) < 64 ∨ 524288 < beNat (slice m 4 4) → t.uds.download = s.uds.download ∧
        (func = false → t.uds.resp = [0x7F#8, 0x34#8, 0x31#8])) ∧
      s.OnlyParts [.objs, .can, .uds] t ∧ s.SameObjs [Obj.CAN_STATS 4, Obj.DOWNLOAD_STATE] t) ∧
  (∀ (func fd : Bool) (m : List Byte) (d : Download) (s : State), s.udsTakes fd m = true → byteAt m 0 = 0x36 → s.session = 2 →
    s.unlocked 0x11 = true → 3 ≤ m.length → s.uds.download = some d →
    ∃ t, exec (.transferData func fd m) s = .next t ∧
      (d.data ≠ [] → (byteAt m 1 + 1) % 256 = d.next → t.uds.download = some d ∧ t.uds.resp = [0x76#8] ++ slice m 1 1) ∧
      (byteAt m 1 = d.next → d.data.length + (m.length - 2) ≤ d.size →
        t.uds.download = some { d with data := d.data ++ m.drop 2, next := (d.next + 1) % 256 } ∧ t.uds.resp = [0x76#8] ++ slice m 1 1) ∧
      (byteAt m 1 = d.next → d.size < d.data.length + (m.length - 2) → t.uds.download = some d ∧ t.uds.resp = [0x7F#8, 0x36#8, 0x71#8]) ∧
      (byteAt m 1 ≠ d.next → d.data = [] ∨ (byteAt m 1 + 1) % 256 ≠ d.next → t.uds.download = some d ∧
        t.uds.resp = [0x7F#8, 0x36#8, 0x73#8]) ∧
      s.OnlyParts [.objs, .can, .uds] t ∧ s.SameObjs [Obj.CAN_STATS 4] t) ∧
  (∀ (func fd : Bool) (m : List Byte) (d : Download) (s : State), s.udsTakes fd m = true → m = [0x37#8] → s.session = 2 →
    s.unlocked 0x11 = true → s.uds.download = some d →
    ∃ t, exec (.requestTransferExit func fd m) s = .next t ∧
      (d.data.length < d.size → t.uds.download = some d ∧ t.uds.resp = [0x7F#8, 0x37#8, 0x24#8]) ∧
      (d.size ≤ d.data.length → t.uds.download = none ∧
        (s.imageFails d.data (some (s.bank s.idleBank)) = none → t.bank s.idleBank = (s.bank s.idleBank).with (imgKind d.data) d.data ∧
          (s.flashOk = true → t.uds.waiting = some (2, [0x77#8]) ∧ t.obj Obj.DOWNLOAD_STATE = 2)) ∧
        (s.imageFails d.data (some (s.bank s.idleBank)) ≠ none → t.uds.resp = [0x7F#8, 0x37#8, 0x72#8] ∧ t.obj Obj.DOWNLOAD_STATE = 4 ∧
          (t.bank s.idleBank).image? (imgKind d.data) = none)) ∧
      t.tabs.active = s.tabs.active ∧ s.OnlyParts [.objs, .col, .tabs, .can, .uds] t)
end

