-- ==== Sys2Proof/Laws/Store.lean ====
section
/-!
SUPPORT. Store.lean: the laws of the sparse register file: what a write leaves to be read, and that each operation keeps the canonical form.
-/
namespace Sys2Proof.Machine.Store

theorem sorted_iff (r : Store) : r.sorted = true ↔ r.Pairwise fun x y => x.1 < y.1 := by
  induction r with
  | nil => simp [sorted]
  | cons a r ih =>
    cases r with
    | nil => simp [sorted]
    | cons b l =>
      obtain ⟨a, v⟩ := a
      obtain ⟨b, w⟩ := b
      simp only [sorted, Bool.and_eq_true, decide_eq_true_eq, ih, List.pairwise_cons, List.mem_cons]
      constructor
      · rintro ⟨h, h1, h2⟩
        refine ⟨?_, h1, h2⟩
        rintro e (rfl | he)
        · exact h
        · exact Nat.lt_trans h (h1 e he)
      · rintro ⟨h, h1, h2⟩
        exact ⟨h _ (Or.inl rfl), h1, h2⟩

theorem wf_iff (d : Nat → Nat) (r : Store) :
    r.wf d = true ↔ (r.Pairwise fun x y => x.1 < y.1) ∧ ∀ e ∈ r, e.2 ≠ d e.1 := by
  simp [wf, sorted_iff, noDefault]

/-- Taking entries out keeps the canonical form. -/
theorem wf_filter {d : Nat → Nat} {r : Store} (p : Nat × Nat → Bool) (h : r.wf d = true) : Store.wf d (r.filter p) = true := by
  rw [wf_iff] at *
  exact ⟨h.1.filter _, fun e he => h.2 e (List.mem_of_mem_filter he)⟩

theorem mem_insert {r : Store} {k v : Nat} {e : Nat × Nat} : e ∈ r.insert k v ↔ e = (k, v) ∨ e ∈ r := by
  induction r with
  | nil => simp [insert]
  | cons a r ih =>
    simp only [insert]
    split
    · simp
    · simp only [List.mem_cons, ih]
      tauto

theorem sorted_insert {r : Store} {k v : Nat} (h : r.Pairwise fun x y => x.1 < y.1) (hk : ∀ e ∈ r, e.1 ≠ k) :
    (r.insert k v).Pairwise fun x y => x.1 < y.1 := by
  induction r with
  | nil => simp [insert]
  | cons a r ih =>
    rw [List.pairwise_cons] at h
    have hr : ∀ e ∈ r, e.1 ≠ k := fun e he => hk e (List.mem_cons_of_mem _ he)
    have ha := hk a List.mem_cons_self
    simp only [insert]
    split
    · rename_i hlt
      refine List.pairwise_cons.2 ⟨?_, List.pairwise_cons.2 h⟩
      intro e he
      rcases List.mem_cons.1 he with rfl | he
      · exact hlt
      · exact Nat.lt_trans hlt (h.1 e he)
    · rename_i hlt
      refine List.pairwise_cons.2 ⟨?_, ih h.2 hr⟩
      intro e he
      rcases mem_insert.1 he with rfl | he
      · show a.1 < k
        omega
      · exact h.1 e he

/-- A write keeps the canonical form. -/
theorem wf_write {d : Nat → Nat} {r : Store} (k v : Nat) (h : r.wf d = true) : (r.write d k v).wf d = true := by
  unfold write
  split
  · exact wf_filter _ h
  · rename_i hv
    have h1 := wf_filter (fun e => !(e.1 == k)) h
    rw [wf_iff] at *
    refine ⟨sorted_insert h1.1 ?_, ?_⟩
    · intro e he
      have := List.of_mem_filter he
      simpa using this
    · intro e he
      rcases mem_insert.1 he with rfl | he
      · exact hv
      · exact h1.2 e he

theorem wf_clearWhere {d : Nat → Nat} {r : Store} (p : Nat → Bool) (h : r.wf d = true) : (r.clearWhere p).wf d = true :=
  wf_filter _ h

theorem wf_foldl_write {r : Store} (l : List (Nat × Nat)) (h : r.wf (fun _ => 0) = true) :
    Store.wf (fun _ => 0) (l.foldl (fun r e => r.write (fun _ => 0) e.1 e.2) r) = true := by
  induction l generalizing r with
  | nil => exact h
  | cons e l ih => exact ih (wf_write e.1 e.2 h)

/-- Entries over entries keep the canonical form. -/
theorem wf_mergeStore {old : Store} (new : Store) (h : old.wf (fun _ => 0) = true) : (mergeStore old new).wf (fun _ => 0) = true :=
  wf_foldl_write new h

/-! ### Reading -/

theorem read_filter (d : Nat → Nat) (r : Store) (p : Nat → Bool) (k : Nat) :
    Store.read d (r.filter fun e => p e.1) k = if p k = true then r.read d k else d k := by
  induction r with
  | nil => simp [read]
  | cons a r ih =>
    obtain ⟨a, v⟩ := a
    rw [List.filter_cons]
    by_cases hak : a = k
    · subst hak
      by_cases hp : p a = true <;> simp [read, hp, ih]
    · by_cases hp : p a = true <;> simp [read, hak, hp, ih]

theorem read_erase (d : Nat → Nat) (r : Store) (k j : Nat) : (r.erase k).read d j = if j = k then d j else r.read d j := by
  refine (read_filter d r (fun a => !(a == k)) j).trans ?_
  by_cases h : j = k <;> simp [h]

theorem read_insert (d : Nat → Nat) (r : Store) (k v j : Nat) (h : ∀ e ∈ r, e.1 ≠ k) :
    (r.insert k v).read d j = if j = k then v else r.read d j := by
  induction r with
  | nil =>
    by_cases hj : k = j
    · simp [insert, read, hj]
    · simp [insert, read, hj, Ne.symm hj]
  | cons a r ih =>
    obtain ⟨a, w⟩ := a
    have ha : a ≠ k := h _ List.mem_cons_self
    have hr := ih fun e he => h e (List.mem_cons_of_mem _ he)
    simp only [insert]
    split
    · by_cases hj : k = j
      · simp [read, hj]
      · simp [read, hj, Ne.symm hj]
    · simp only [read, hr]
      by_cases hj : j = k
      · subst hj
        simp [ha]
      · simp [hj]

/-- Reading after a write: the value at its key, what stood there elsewhere. -/
theorem read_write (d : Nat → Nat) (r : Store) (k v j : Nat) : (r.write d k v).read d j = if j = k then v else r.read d j := by
  unfold write
  split
  · rename_i hv
    rw [read_erase]
    by_cases hj : j = k
    · simp [hj, hv]
    · simp [hj]
  · rw [read_insert]
    · by_cases hj : j = k
      · simp [hj]
      · simp [hj, read_erase]
    · intro e he
      simpa using List.of_mem_filter he

@[simp] theorem read_write_same (d : Nat → Nat) (r : Store) (k v : Nat) : (r.write d k v).read d k = v := by simp [read_write]

theorem read_write_other (d : Nat → Nat) (r : Store) {k j : Nat} (v : Nat) (h : j ≠ k) : (r.write d k v).read d j = r.read d j := by
  simp [read_write, h]

theorem read_clearWhere (d : Nat → Nat) (r : Store) (p : Nat → Bool) (k : Nat) :
    (r.clearWhere p).read d k = if p k = true then d k else r.read d k := by
  refine (read_filter d r (fun a => !p a) k).trans ?_
  by_cases h : p k = true <;> simp [h]

end Sys2Proof.Machine.Store
end

