-- ==== Sys2Proof/Laws/Keeps.lean ====
section
/-!
SUPPORT. Keeps.lean: what every command keeps, whatever it does: the queue, the clock, the canonical form, the open values already drawn and
the blown fuses of the OTP. One relation, with the lemmas that build it.
-/
namespace Sys2Proof.Machine

/-- What every command keeps. -/
structure Keeps (s t : State) : Prop where
  pending : t.pending = s.pending
  now : t.now = s.now
  free : s.free ≤ t.free
  canon : s.canonical → t.canonical
  locks : ∀ i, s.blown i → t.blown i

namespace Keeps

theorem refl (s : State) : Keeps s s := ⟨rfl, rfl, Nat.le_refl _, id, fun _ => id⟩

theorem trans {s t u : State} (h : Keeps s t) (k : Keeps t u) : Keeps s u :=
  ⟨k.pending.trans h.pending, k.now.trans h.now, Nat.le_trans h.free k.free, k.canon ∘ h.canon, fun i => k.locks i ∘ h.locks i⟩

/-- An update of fields that the relation does not name. -/
theorem upd {s x t : State} (h : Keeps s x) (hp : t.pending = x.pending) (hn : t.now = x.now) (hf : t.free = x.free)
    (ho : t.objs = x.objs) (hw : t.core.words = x.core.words) (hb : t.jrnl.buf = x.jrnl.buf)
    (hi : t.jrnl.inFlight = x.jrnl.inFlight) (he : t.flash.entries = x.flash.entries) (ha : t.otp.areas = x.otp.areas) :
    Keeps s t := by
  refine h.trans ⟨hp, hn, hf ▸ Nat.le_refl _, ?_, ?_⟩
  · intro hc
    unfold State.canonical at *
    rw [ho, hw, hb, hi, he]
    exact hc
  · intro i hl
    unfold State.blown at *
    rw [ha]
    exact hl

/-- A fold of operations. -/
theorem foldl {α : Type} {s x : State} {f : State → α → State} (l : List α) (h : Keeps s x) (hf : ∀ y a, Keeps s y → Keeps s (f y a)) :
    Keeps s (l.foldl f x) := by
  induction l generalizing x with
  | nil => exact h
  | cons a l ih => exact ih (hf x a h)

/-- One component of a pair that a function answers. -/
theorem snd_of {α : Type} {s : State} {p : α × State} {a : α} {x : State} (h : Keeps s p.2) (e : p = (a, x)) : Keeps s x := by
  subst e
  exact h

theorem trd_of {α β : Type} {s : State} {p : α × β × State} {a : α} {b : β} {x : State} (h : Keeps s p.2.2) (e : p = (a, b, x)) :
    Keeps s x := by
  subst e
  exact h

end Keeps

/-- A structure update: what it does to the fields that the relation names. -/
theorem Keeps.mk_of {s x : State} {recTime : Nat} {core : Core} {grp : Four GroupSt} {ph : Vector Phase 16} {aon : AlwaysOn} {cell : Retention} {strat : Stratus} {mode : ModeSt} {src : SourceSt} {col : Collector} {recs : List (Nat × FaultRec)} {spd : SpeedSt} {jrnl : Journal} {otp : Otp} {meas : Meas} {ring : Recorder} {archive : List Capture} {thm : Thermal} {hz : Horizon} {hour : HourAcc} {parkAcc : ParkAcc} {log : List (List Byte)} {logRetry : List (List Byte)} {tabs : Tables} {env : Env} {chg : Charger} {link : Two LinkPort} {fab : Fabric} {seqs : Vector Seq 5} {flash : Flash} {wd : Watchdog} {srv : Server} {can : Pair Can} {note : Notify} {lin : Lin} {uds : Uds}
    (h : Keeps s x) (hw : x.core.words.wf (fun _ => 0) = true → core.words.wf (fun _ => 0) = true)
    (hb : x.jrnl.buf.wf (fun _ => 0) = true → jrnl.buf.wf (fun _ => 0) = true)
    (hi : (∀ e, x.jrnl.inFlight = some e → e.wf (fun _ => 0) = true) → ∀ e, jrnl.inFlight = some e → e.wf (fun _ => 0) = true)
    (he : x.flash.entries.wf (fun _ => 0) = true → flash.entries.wf (fun _ => 0) = true)
    (ha : ∀ i : Fuse, i.blownIn x.otp.areas → i.blownIn otp.areas) :
    Keeps s (State.mk x.pending x.now recTime x.free x.objs core grp ph aon cell strat mode src col recs spd jrnl otp meas ring archive thm hz hour parkAcc log logRetry tabs env chg link fab seqs flash wd srv can note lin uds) :=
  h.trans ⟨rfl, rfl, Nat.le_refl _, fun hc => ⟨hc.1, hw hc.2.1, hb hc.2.2.1, hi hc.2.2.2.1, he hc.2.2.2.2⟩, ha⟩

/-- A structure update that may bring fields of other states that the relation reaches. -/
theorem Keeps.mk_from {s x : State} {recTime : Nat} {core : Core} {grp : Four GroupSt} {ph : Vector Phase 16} {aon : AlwaysOn} {cell : Retention} {strat : Stratus} {mode : ModeSt} {src : SourceSt} {col : Collector} {recs : List (Nat × FaultRec)} {spd : SpeedSt} {jrnl : Journal} {otp : Otp} {meas : Meas} {ring : Recorder} {archive : List Capture} {thm : Thermal} {hz : Horizon} {hour : HourAcc} {parkAcc : ParkAcc} {log : List (List Byte)} {logRetry : List (List Byte)} {tabs : Tables} {env : Env} {chg : Charger} {link : Two LinkPort} {fab : Fabric} {seqs : Vector Seq 5} {flash : Flash} {wd : Watchdog} {srv : Server} {can : Pair Can} {note : Notify} {lin : Lin} {uds : Uds}
    (h : Keeps s x) (hw : s.canonical → core.words.wf (fun _ => 0) = true) (hb : s.canonical → jrnl.buf.wf (fun _ => 0) = true)
    (hi : s.canonical → ∀ e, jrnl.inFlight = some e → e.wf (fun _ => 0) = true)
    (he : s.canonical → flash.entries.wf (fun _ => 0) = true)
    (ha : ∀ i, s.blown i → i.blownIn otp.areas) :
    Keeps s (State.mk x.pending x.now recTime x.free x.objs core grp ph aon cell strat mode src col recs spd jrnl otp meas ring archive thm hz hour parkAcc log logRetry tabs env chg link fab seqs flash wd srv can note lin uds) :=
  ⟨h.pending, h.now, h.free, fun hc => ⟨(h.canon hc).1, hw hc, hb hc, hi hc, he hc⟩, ha⟩

theorem Keeps.words {s x : State} (h : Keeps s x) (hc : s.canonical) : x.core.words.wf (fun _ => 0) = true := (h.canon hc).2.1
theorem Keeps.buf {s x : State} (h : Keeps s x) (hc : s.canonical) : x.jrnl.buf.wf (fun _ => 0) = true := (h.canon hc).2.2.1
theorem Keeps.inFlight {s x : State} (h : Keeps s x) (hc : s.canonical) : ∀ e, x.jrnl.inFlight = some e → e.wf (fun _ => 0) = true :=
  (h.canon hc).2.2.2.1
theorem Keeps.flight_getD {s x : State} (h : Keeps s x) (hc : s.canonical) : Store.wf (fun _ => 0) (x.jrnl.inFlight.getD []) = true := by
  cases e : x.jrnl.inFlight with
  | none => rfl
  | some r => exact h.inFlight hc r e
theorem Keeps.entries {s x : State} (h : Keeps s x) (hc : s.canonical) : x.flash.entries.wf (fun _ => 0) = true :=
  (h.canon hc).2.2.2.2
theorem Keeps.areas {s x : State} (h : Keeps s x) (i : Fuse) (hl : s.blown i) : i.blownIn x.otp.areas :=
  h.locks i hl

/-- A choice of two operations, and of two with results. -/
theorem Keeps.ite {s a b : State} {c : Prop} [Decidable c] (ha : Keeps s a) (hb : Keeps s b) : Keeps s (if c then a else b) := by
  split <;> assumption
theorem Keeps.ite_snd {α : Type} {s : State} {a b : α × State} {c : Prop} [Decidable c] (ha : Keeps s a.2) (hb : Keeps s b.2) :
    Keeps s (if c then a else b).2 := by
  split <;> assumption
theorem Keeps.ite_trd {α β : Type} {s : State} {a b : α × β × State} {c : Prop} [Decidable c] (ha : Keeps s a.2.2)
    (hb : Keeps s b.2.2) : Keeps s (if c then a else b).2.2 := by
  split <;> assumption

/-- A state named on the way. -/
theorem Keeps.cut {G : Prop} (s y : State) (h1 : Keeps s y) (h2 : Keeps s y → G) : G := h2 h1

theorem State.set_keeps {s x : State} (k v : Nat) (h : Keeps s x) : Keeps s (x.set k v) :=
  h.trans ⟨rfl, rfl, Nat.le_refl _, fun hc => ⟨Store.wf_write k v hc.1, hc.2⟩, fun _ hl => hl⟩

theorem State.resetObjs_keeps {s x : State} (p : Nat → Bool) (h : Keeps s x) : Keeps s (x.resetObjs p) :=
  h.trans ⟨rfl, rfl, Nat.le_refl _, fun hc => ⟨Store.wf_clearWhere p hc.1, hc.2⟩, fun _ hl => hl⟩

theorem State.draw_keeps {s x : State} (w : Nat) (h : Keeps s x) : Keeps s (x.draw w).2 :=
  h.trans ⟨rfl, rfl, Nat.le_succ _, fun hc => hc, fun _ hl => hl⟩

end Sys2Proof.Machine
end

