-- ==== Sys2Proof/Laws/KeepsOps.lean ====
section
/-!
SUPPORT. KeepsOps.lean: every operation of Machine/Ops.lean keeps what Keeps names.
-/
set_option linter.unusedTactic false
set_option linter.unreachableTactic false
set_option linter.unusedVariables false
namespace Sys2Proof.Machine

theorem State.journal_keeps {s x : State} (a1 : Nat) (a2 : Nat) (h : Keeps s x) : Keeps s (x.journal a1 a2) := by
  unfold State.journal
  lift_lets
  intro y z
  refine Keeps.cut s z ?_ (fun hz => ?_)
  · exact h.trans ⟨rfl, rfl, Nat.le_refl _, fun hc => ⟨hc.1, hc.2.1, Store.wf_write a1 (a2 + 1) hc.2.2.1, hc.2.2.2⟩, fun _ hl => hl⟩
  · split
    · exact State.set_keeps _ _ hz
    · exact hz

theorem State.put_keeps {s x : State} (a1 : Nat) (a2 : Nat) (h : Keeps s x) : Keeps s (State.put x a1 a2) := by
  unfold State.put
  with_reducible
    repeat' first
      | assumption | apply State.journal_keeps | apply State.set_keeps

theorem State.count_keeps {s x : State} (a1 : Nat) (a2 : Nat) (h : Keeps s x) : Keeps s (State.count x a1 a2) := by
  unfold State.count
  with_reducible
    repeat' first
      | assumption | apply State.put_keeps

theorem State.tally_keeps {s x : State} (a1 : Nat) (a2 : Nat) (h : Keeps s x) : Keeps s (State.tally x a1 a2) := by
  unfold State.tally
  with_reducible
    repeat' first
      | assumption | apply State.set_keeps

theorem State.setI_keeps {s x : State} (a1 : Nat) (a2 : Nat) (a3 : Int) (h : Keeps s x) : Keeps s (State.setI x a1 a2 a3) := by
  unfold State.setI
  with_reducible
    repeat' first
      | assumption | apply State.set_keeps

theorem State.modG_keeps {s x : State} (a1 : Group) (a2 : GroupSt → GroupSt) (h : Keeps s x) : Keeps s (State.modG x a1 a2) := by
  unfold State.modG
  with_reducible
    repeat' first
      | assumption | exact Keeps.mk_of (by assumption) id id id id (fun _ => id)
      | refine Keeps.mk_of ?_ (by first | exact id | exact Store.wf_write _ _) id id id (fun _ => id)

theorem State.allG_keeps {s x : State} (a1 : GroupSt → GroupSt) (h : Keeps s x) : Keeps s (State.allG x a1) := by
  unfold State.allG
  with_reducible
    repeat' first
      | assumption | exact Keeps.mk_of (by assumption) id id id id (fun _ => id)
      | refine Keeps.mk_of ?_ (by first | exact id | exact Store.wf_write _ _) id id id (fun _ => id)

theorem State.modP_keeps {s x : State} (a1 : Nat) (a2 : Phase → Phase) (h : Keeps s x) : Keeps s (State.modP x a1 a2) := by
  unfold State.modP
  with_reducible
    repeat' first
      | assumption | exact Keeps.mk_of (by assumption) id id id id (fun _ => id)
      | refine Keeps.mk_of ?_ (by first | exact id | exact Store.wf_write _ _) id id id (fun _ => id)

theorem State.modPs_keeps {s x : State} (a1 : List Nat) (a2 : Phase → Phase) (h : Keeps s x) : Keeps s (State.modPs x a1 a2) := by
  unfold State.modPs
  with_reducible
    repeat' first
      | assumption | apply State.modP_keeps | refine Keeps.foldl _ ?_ (fun y a hy => ?_)

theorem State.stopG_keeps {s x : State} (a1 : Group) (a2 : Nat) (h : Keeps s x) : Keeps s (State.stopG x a1 a2) := by
  unfold State.stopG
  with_reducible
    repeat' first
      | assumption | apply State.modPs_keeps | apply State.modG_keeps

theorem State.freeG_keeps {s x : State} (a1 : Group) (a2 : Nat) (h : Keeps s x) : Keeps s (State.freeG x a1 a2) := by
  unfold State.freeG
  with_reducible
    repeat' first
      | assumption | apply State.modG_keeps | lift_lets
      | (intro y; refine Keeps.cut s y ?_ (fun hy => ?_); (on_goal 1 => subst y); (on_goal 2 => clear_value y)) | intro y

theorem State.send_keeps {s x : State} (a1 : Msg) (h : Keeps s x) : Keeps s (State.send x a1) := by
  unfold State.send
  with_reducible
    repeat' first
      | assumption | apply State.tally_keeps | refine Keeps.ite ?_ ?_ | lift_lets
      | (intro y; refine Keeps.cut s y ?_ (fun hy => ?_); (on_goal 1 => subst y); (on_goal 2 => clear_value y)) | intro y
      | exact Keeps.mk_of (by assumption) id id id id (fun _ => id)
      | refine Keeps.mk_of ?_ (by first | exact id | exact Store.wf_write _ _) id id id (fun _ => id)

theorem State.enqueue_keeps {s x : State} (a1 : Msg) (h : Keeps s x) : Keeps s (State.enqueue x a1) := by
  unfold State.enqueue
  with_reducible
    repeat' first
      | assumption | refine Keeps.ite ?_ ?_ | lift_lets
      | (intro y; refine Keeps.cut s y ?_ (fun hy => ?_); (on_goal 1 => subst y); (on_goal 2 => clear_value y)) | intro y
      | exact Keeps.mk_of (by assumption) id id id id (fun _ => id)
      | refine Keeps.mk_of ?_ (by first | exact id | exact Store.wf_write _ _) id id id (fun _ => id)

theorem State.raise_keeps {s x : State} (a1 : Nat) (a2 : Nat) (a3 : Nat) (h : Keeps s x) : Keeps s (State.raise x a1 a2 a3) := by
  unfold State.raise
  with_reducible
    repeat' first
      | assumption | apply State.send_keeps

theorem State.raiseC_keeps {s x : State} (a1 : Nat) (a2 : Nat) (a3 : Nat) (h : Keeps s x) : Keeps s (State.raiseC x a1 a2 a3) := by
  unfold State.raiseC
  with_reducible
    repeat' first
      | assumption | apply State.send_keeps | refine Keeps.ite ?_ ?_ | lift_lets
      | (intro y; refine Keeps.cut s y ?_ (fun hy => ?_); (on_goal 1 => subst y); (on_goal 2 => clear_value y)) | intro y
      | exact Keeps.mk_of (by assumption) id id id id (fun _ => id)
      | refine Keeps.mk_of ?_ (by first | exact id | exact Store.wf_write _ _) id id id (fun _ => id)

theorem State.raise1_keeps {s x : State} (a1 : Nat) (a2 : Nat) (a3 : Nat) (h : Keeps s x) : Keeps s (State.raise1 x a1 a2 a3) := by
  unfold State.raise1
  with_reducible
    repeat' first
      | assumption | apply State.raiseC_keeps | refine Keeps.ite ?_ ?_

theorem State.clearBy_keeps {s x : State} (a1 : Msg → Bool) (h : Keeps s x) : Keeps s (State.clearBy x a1) := by
  unfold State.clearBy
  with_reducible
    repeat' first
      | assumption | apply State.send_keeps | refine Keeps.foldl _ ?_ (fun y a hy => ?_) | lift_lets
      | (intro y; refine Keeps.cut s y ?_ (fun hy => ?_); (on_goal 1 => subst y); (on_goal 2 => clear_value y)) | intro y
      | exact Keeps.mk_of (by assumption) id id id id (fun _ => id)
      | refine Keeps.mk_of ?_ (by first | exact id | exact Store.wf_write _ _) id id id (fun _ => id)

theorem State.clearK_keeps {s x : State} (a1 : Nat) (a2 : Nat) (h : Keeps s x) : Keeps s (State.clearK x a1 a2) := by
  unfold State.clearK
  with_reducible
    repeat' first
      | assumption | apply State.clearBy_keeps

theorem State.clearI_keeps {s x : State} (a1 : Nat) (a2 : Nat) (a3 : Nat) (h : Keeps s x) : Keeps s (State.clearI x a1 a2 a3) := by
  unfold State.clearI
  with_reducible
    repeat' first
      | assumption | apply State.clearBy_keeps

theorem State.condition_keeps {s x : State} (a1 : Nat) (a2 : Nat) (a3 : Nat) (a4 : Bool) (h : Keeps s x) : Keeps s (State.condition x a1 a2 a3 a4) := by
  unfold State.condition
  with_reducible
    repeat' first
      | assumption | apply State.clearK_keeps | apply State.raise1_keeps | refine Keeps.ite ?_ ?_

theorem State.coreSend_keeps {s x : State} (a1 : Msg) (h : Keeps s x) : Keeps s (State.coreSend x a1) := by
  unfold State.coreSend
  with_reducible
    repeat' first
      | assumption | apply State.enqueue_keeps | apply State.send_keeps | refine Keeps.ite ?_ ?_

theorem State.coreRaise_keeps {s x : State} (a1 : Nat) (a2 : Nat) (a3 : Nat) (h : Keeps s x) : Keeps s (State.coreRaise x a1 a2 a3) := by
  unfold State.coreRaise
  with_reducible
    repeat' first
      | assumption | apply State.coreSend_keeps

theorem State.coreRaiseC_keeps {s x : State} (a1 : Nat) (a2 : Nat) (a3 : Nat) (h : Keeps s x) : Keeps s (State.coreRaiseC x a1 a2 a3) := by
  unfold State.coreRaiseC
  with_reducible
    repeat' first
      | assumption | apply State.coreSend_keeps | refine Keeps.ite ?_ ?_ | lift_lets
      | (intro y; refine Keeps.cut s y ?_ (fun hy => ?_); (on_goal 1 => subst y); (on_goal 2 => clear_value y)) | intro y
      | exact Keeps.mk_of (by assumption) id id id id (fun _ => id)
      | refine Keeps.mk_of ?_ (by first | exact id | exact Store.wf_write _ _) id id id (fun _ => id)

theorem State.coreClearBy_keeps {s x : State} (a1 : Msg → Bool) (h : Keeps s x) : Keeps s (State.coreClearBy x a1) := by
  unfold State.coreClearBy
  with_reducible
    repeat' first
      | assumption | apply State.coreSend_keeps | refine Keeps.foldl _ ?_ (fun y a hy => ?_)
      | lift_lets | (intro y; refine Keeps.cut s y ?_ (fun hy => ?_); (on_goal 1 => subst y); (on_goal 2 => clear_value y)) | intro y
      | exact Keeps.mk_of (by assumption) id id id id (fun _ => id)
      | refine Keeps.mk_of ?_ (by first | exact id | exact Store.wf_write _ _) id id id (fun _ => id)

theorem State.coreClearK_keeps {s x : State} (a1 : Nat) (a2 : Nat) (h : Keeps s x) : Keeps s (State.coreClearK x a1 a2) := by
  unfold State.coreClearK
  with_reducible
    repeat' first
      | assumption | apply State.coreClearBy_keeps

theorem State.coreClearI_keeps {s x : State} (a1 : Nat) (a2 : Nat) (a3 : Nat) (h : Keeps s x) : Keeps s (State.coreClearI x a1 a2 a3) := by
  unfold State.coreClearI
  with_reducible
    repeat' first
      | assumption | apply State.coreClearBy_keeps

theorem State.again_keeps {s x : State} (a1 : Nat) (a2 : Nat) (h : Keeps s x) : Keeps s (State.again x a1 a2) := by
  unfold State.again
  with_reducible
    repeat' first
      | assumption | refine Keeps.ite ?_ ?_ | lift_lets
      | (intro y; refine Keeps.cut s y ?_ (fun hy => ?_); (on_goal 1 => subst y); (on_goal 2 => clear_value y)) | intro y | split
      | exact Keeps.mk_of (by assumption) id id id id (fun _ => id)
      | refine Keeps.mk_of ?_ (by first | exact id | exact Store.wf_write _ _) id id id (fun _ => id)

end Sys2Proof.Machine
end

