-- ==== Sys2Proof/Laws/KeepsWords.lean ====
section
/-!
SUPPORT. KeepsWords.lean: every operation of Machine/Words.lean keeps what Keeps names.
-/
set_option linter.unusedTactic false
set_option linter.unreachableTactic false
set_option linter.unusedVariables false
namespace Sys2Proof.Machine

theorem State.setChanged_keeps {s x : State} (a1 : Group) (h : Keeps s x) : Keeps s (State.setChanged x a1) := by
  unfold State.setChanged
  with_reducible
    repeat' first
      | assumption | apply State.modG_keeps

theorem State.applyOrder_keeps {s x : State} (a1 : Group) (a2 : Nat) (h : Keeps s x) : Keeps s (State.applyOrder x a1 a2) := by
  unfold State.applyOrder
  with_reducible
    repeat' first
      | assumption | apply State.coreClearBy_keeps | apply State.modP_keeps | apply State.modG_keeps
      | refine Keeps.foldl _ ?_ (fun y a hy => ?_) | refine Keeps.ite ?_ ?_ | lift_lets
      | (intro y; refine Keeps.cut s y ?_ (fun hy => ?_); (on_goal 1 => subst y); (on_goal 2 => clear_value y)) | intro y
      | exact Keeps.mk_of (by assumption) id id id id (fun _ => id)
      | refine Keeps.mk_of ?_ (by first | exact id | exact Store.wf_write _ _) id id id (fun _ => id)

theorem State.applyFreq_keeps {s x : State} (a1 : Group) (a2 : Nat) (h : Keeps s x) : Keeps s (State.applyFreq x a1 a2) := by
  unfold State.applyFreq
  with_reducible
    repeat' first
      | assumption | apply State.modG_keeps | refine Keeps.ite ?_ ?_ | lift_lets
      | (intro y; refine Keeps.cut s y ?_ (fun hy => ?_); (on_goal 1 => subst y); (on_goal 2 => clear_value y)) | intro y

theorem State.applyTrim_keeps {s x : State} (a1 : Nat) (a2 : Nat) (h : Keeps s x) : Keeps s (State.applyTrim x a1 a2) := by
  unfold State.applyTrim
  with_reducible
    repeat' first
      | assumption | apply State.modP_keeps | refine Keeps.ite ?_ ?_

theorem State.applyWord_keeps {s x : State} (a1 : Group) (a2 : Nat) (a3 : Nat) (h : Keeps s x) : Keeps s (State.applyWord x a1 a2 a3) := by
  unfold State.applyWord
  with_reducible
    repeat' first
      | assumption | apply State.applyTrim_keeps | apply State.applyFreq_keeps
      | apply State.applyOrder_keeps | apply State.modG_keeps | refine Keeps.ite ?_ ?_

theorem State.keepWord_keeps {s x : State} (a1 : Nat) (a2 : Nat) (h : Keeps s x) : Keeps s (State.keepWord x a1 a2) := by
  unfold State.keepWord
  with_reducible
    repeat' first
      | assumption | lift_lets
      | (intro y; refine Keeps.cut s y ?_ (fun hy => ?_); (on_goal 1 => subst y); (on_goal 2 => clear_value y)) | intro y
      | exact Keeps.mk_of (by assumption) id id id id (fun _ => id)
      | refine Keeps.mk_of ?_ (by first | exact id | exact Store.wf_write _ _) id id id (fun _ => id)

theorem State.applyAll_keeps {s x : State} (a1 : Group) (h : Keeps s x) : Keeps s (State.applyAll x a1) := by
  unfold State.applyAll
  with_reducible
    repeat' first
      | assumption | apply State.keepWord_keeps | apply State.applyWord_keeps
      | refine Keeps.foldl _ ?_ (fun y a hy => ?_) | refine Keeps.ite ?_ ?_ | lift_lets
      | (intro y; refine Keeps.cut s y ?_ (fun hy => ?_); (on_goal 1 => subst y); (on_goal 2 => clear_value y)) | intro y
      | exact Keeps.mk_of (by assumption) id id id id (fun _ => id)
      | refine Keeps.mk_of ?_ (by first | exact id | exact Store.wf_write _ _) id id id (fun _ => id)

theorem State.applyIdle_keeps {s x : State} (a1 : List Group) (h : Keeps s x) : Keeps s (State.applyIdle x a1) := by
  unfold State.applyIdle
  with_reducible
    repeat' first
      | assumption | apply State.applyAll_keeps | refine Keeps.foldl _ ?_ (fun y a hy => ?_)

theorem State.accept_keeps {s x : State} (a1 : Nat) (a2 : Nat) (a3 : Bool) (h : Keeps s x) : Keeps s (State.accept x a1 a2 a3) := by
  unfold State.accept
  with_reducible
    repeat' first
      | assumption | apply State.applyIdle_keeps | apply State.freeG_keeps | refine Keeps.ite ?_ ?_
      | lift_lets | (intro y; refine Keeps.cut s y ?_ (fun hy => ?_); (on_goal 1 => subst y); (on_goal 2 => clear_value y)) | intro y
      | exact Keeps.mk_of (by assumption) id id id id (fun _ => id)
      | refine Keeps.mk_of ?_ (by first | exact id | exact Store.wf_write _ _) id id id (fun _ => id)

theorem State.refuse_keeps {s x : State} (a1 : Nat) (h : Keeps s x) : Keeps s (State.refuse x a1) := by
  unfold State.refuse
  with_reducible
    repeat' first
      | assumption | apply State.coreRaise_keeps | lift_lets
      | (intro y; refine Keeps.cut s y ?_ (fun hy => ?_); (on_goal 1 => subst y); (on_goal 2 => clear_value y)) | intro y
      | exact Keeps.mk_of (by assumption) id id id id (fun _ => id)
      | refine Keeps.mk_of ?_ (by first | exact id | exact Store.wf_write _ _) id id id (fun _ => id)

theorem State.commitWords_keeps {s x : State} (h : Keeps s x) : Keeps s (State.commitWords x) := by
  unfold State.commitWords
  with_reducible
    repeat' first
      | assumption | apply State.applyIdle_keeps | lift_lets
      | (intro y; refine Keeps.cut s y ?_ (fun hy => ?_); (on_goal 1 => subst y); (on_goal 2 => clear_value y)) | intro y
      | exact Keeps.mk_of (by assumption) id id id id (fun _ => id)
      | refine Keeps.mk_of ?_ (by first | exact id | exact Store.wf_write _ _) id id id (fun _ => id)

theorem State.portWord_keeps {s x : State} (a1 : Nat) (a2 : Nat) (a3 : Bool) (h : Keeps s x) : Keeps s (State.portWord x a1 a2 a3) := by
  unfold State.portWord
  with_reducible
    repeat' first
      | assumption | apply State.refuse_keeps | apply State.accept_keeps | refine Keeps.ite ?_ ?_

theorem State.portWrite_keeps {s x : State} (a1 : Nat) (a2 : Nat) (h : Keeps s x) : Keeps s (State.portWrite x a1 a2) := by
  unfold State.portWrite
  with_reducible
    repeat' first
      | assumption | apply State.portWord_keeps

theorem State.liftGroup_keeps {s x : State} (a1 : Group) (h : Keeps s x) : Keeps s (State.liftGroup x a1) := by
  unfold State.liftGroup
  with_reducible
    repeat' first
      | assumption | apply State.modG_keeps | refine Keeps.ite ?_ ?_ | lift_lets
      | (intro y; refine Keeps.cut s y ?_ (fun hy => ?_); (on_goal 1 => subst y); (on_goal 2 => clear_value y)) | intro y
      | exact Keeps.mk_of (by assumption) id id id id (fun _ => id)
      | refine Keeps.mk_of ?_ (by first | exact id | exact Store.wf_write _ _) id id id (fun _ => id)

theorem State.handoverWord_keeps {s x : State} (h : Keeps s x) : Keeps s (State.handoverWord x) := by
  unfold State.handoverWord
  with_reducible
    repeat' first
      | assumption | apply State.liftGroup_keeps | apply State.commitWords_keeps
      | apply State.allG_keeps | refine Keeps.foldl _ ?_ (fun y a hy => ?_) | lift_lets
      | (intro y; refine Keeps.cut s y ?_ (fun hy => ?_); (on_goal 1 => subst y); (on_goal 2 => clear_value y)) | intro y

theorem State.discOff_keeps {s x : State} (h : Keeps s x) : Keeps s (State.discOff x) := by
  unfold State.discOff
  with_reducible
    repeat' first
      | assumption | apply State.stopG_keeps | refine Keeps.foldl _ ?_ (fun y a hy => ?_)
      | refine Keeps.ite ?_ ?_ | refine Keeps.ite_snd ?_ ?_ | refine Keeps.ite_trd ?_ ?_ | refine fun y hy => ?_ | lift_lets
      | (intro y; refine Keeps.cut s y ?_ (fun hy => ?_); (on_goal 1 => subst y); (on_goal 2 => clear_value y)) | intro y | split
      | (refine Keeps.snd_of ?_ (by assumption)) | (refine Keeps.trd_of ?_ (by assumption))
      | exact Keeps.mk_of (by assumption) id id id id (fun _ => id)
      | refine Keeps.mk_of ?_ (by first | exact id | exact Store.wf_write _ _) id id id (fun _ => id)
      | refine Keeps.mk_from ?_ (fun hc => Keeps.words ?_ hc) (fun hc => Keeps.buf ?_ hc) (fun hc => Keeps.inFlight ?_ hc) (fun hc => Keeps.entries ?_ hc) (fun i hl => Keeps.areas ?_ i hl)

theorem State.discOn_keeps {s x : State} (a1 : Nat) (a2 : Nat) (h : Keeps s x) : Keeps s (State.discOn x a1 a2) := by
  unfold State.discOn
  with_reducible
    repeat' first
      | assumption | apply State.freeG_keeps | apply State.stopG_keeps
      | refine Keeps.foldl _ ?_ (fun y a hy => ?_) | refine Keeps.ite ?_ ?_ | refine Keeps.ite_snd ?_ ?_ | refine Keeps.ite_trd ?_ ?_
      | refine fun y hy => ?_ | lift_lets
      | (intro y; refine Keeps.cut s y ?_ (fun hy => ?_); (on_goal 1 => subst y); (on_goal 2 => clear_value y)) | intro y | split
      | (refine Keeps.snd_of ?_ (by assumption)) | (refine Keeps.trd_of ?_ (by assumption))
      | exact Keeps.mk_of (by assumption) id id id id (fun _ => id)
      | refine Keeps.mk_of ?_ (by first | exact id | exact Store.wf_write _ _) id id id (fun _ => id)
      | refine Keeps.mk_from ?_ (fun hc => Keeps.words ?_ hc) (fun hc => Keeps.buf ?_ hc) (fun hc => Keeps.inFlight ?_ hc) (fun hc => Keeps.entries ?_ hc) (fun i hl => Keeps.areas ?_ i hl)

theorem State.discDone_keeps {s x : State} (h : Keeps s x) : Keeps s (State.discDone x) := by
  unfold State.discDone
  with_reducible
    repeat' first
      | assumption | apply State.freeG_keeps | refine Keeps.ite ?_ ?_

theorem State.gateOpen_keeps {s x : State} (h : Keeps s x) : Keeps s (State.gateOpen x) := by
  unfold State.gateOpen
  with_reducible
    repeat' first
      | assumption | apply State.discOff_keeps | refine Keeps.foldl _ ?_ (fun y a hy => ?_)
      | refine Keeps.ite ?_ ?_ | refine Keeps.ite_snd ?_ ?_ | refine Keeps.ite_trd ?_ ?_ | refine fun y hy => ?_ | lift_lets
      | (intro y; refine Keeps.cut s y ?_ (fun hy => ?_); (on_goal 1 => subst y); (on_goal 2 => clear_value y)) | intro y | split
      | (refine Keeps.snd_of ?_ (by assumption)) | (refine Keeps.trd_of ?_ (by assumption))
      | exact Keeps.mk_of (by assumption) id id id id (fun _ => id)
      | refine Keeps.mk_of ?_ (by first | exact id | exact Store.wf_write _ _) id id id (fun _ => id)
      | refine Keeps.mk_from ?_ (fun hc => Keeps.words ?_ hc) (fun hc => Keeps.buf ?_ hc) (fun hc => Keeps.inFlight ?_ hc) (fun hc => Keeps.entries ?_ hc) (fun i hl => Keeps.areas ?_ i hl)

theorem State.gateBack_keeps {s x : State} (a1 : Nat) (a2 : Nat) (h : Keeps s x) : Keeps s (State.gateBack x a1 a2) := by
  unfold State.gateBack
  with_reducible
    repeat' first
      | assumption | apply State.discDone_keeps | apply State.discOn_keeps | refine Keeps.ite ?_ ?_

end Sys2Proof.Machine
end

