-- ==== Sys2Proof/Laws/KeepsRecorder.lean ====
section
/-!
SUPPORT. KeepsRecorder.lean: every operation of Machine/Recorder.lean keeps what Keeps names.
-/
set_option linter.unusedTactic false
set_option linter.unreachableTactic false
set_option linter.unusedVariables false
namespace Sys2Proof.Machine

theorem State.evLost_keeps {s x : State} (h : Keeps s x) : Keeps s (State.evLost x) := by
  unfold State.evLost
  with_reducible
    repeat' first
      | assumption | lift_lets
      | (intro y; refine Keeps.cut s y ?_ (fun hy => ?_); (on_goal 1 => subst y); (on_goal 2 => clear_value y)) | intro y | split
      | exact Keeps.mk_of (by assumption) id id id id (fun _ => id)
      | refine Keeps.mk_of ?_ (by first | exact id | exact Store.wf_write _ _) id id id (fun _ => id)

theorem State.ev_keeps {s x : State} (a1 : Nat) (a2 : Nat) (a3 : Nat) (h : Keeps s x) : Keeps s (State.ev x a1 a2 a3) := by
  unfold State.ev
  with_reducible
    repeat' first
      | assumption | apply State.evLost_keeps | refine Keeps.ite ?_ ?_ | lift_lets
      | (intro y; refine Keeps.cut s y ?_ (fun hy => ?_); (on_goal 1 => subst y); (on_goal 2 => clear_value y)) | intro y | split
      | exact Keeps.mk_of (by assumption) id id id id (fun _ => id)
      | refine Keeps.mk_of ?_ (by first | exact id | exact Store.wf_write _ _) id id id (fun _ => id)

theorem State.mark_keeps {s x : State} (a1 : Nat) (a2 : Stamp) (h : Keeps s x) : Keeps s (State.mark x a1 a2) := by
  unfold State.mark
  with_reducible
    repeat' first
      | assumption | lift_lets
      | (intro y; refine Keeps.cut s y ?_ (fun hy => ?_); (on_goal 1 => subst y); (on_goal 2 => clear_value y)) | intro y
      | exact Keeps.mk_of (by assumption) id id id id (fun _ => id)
      | refine Keeps.mk_of ?_ (by first | exact id | exact Store.wf_write _ _) id id id (fun _ => id)

theorem State.logDiff_keeps {s x : State} (a : State) (h : Keeps s x) : Keeps s (State.logDiff a x) := by
  unfold State.logDiff
  with_reducible
    repeat' first
      | assumption | apply State.mark_keeps | apply State.ev_keeps | refine Keeps.foldl _ ?_ (fun y a hy => ?_) | refine Keeps.ite ?_ ?_ | lift_lets
      | (intro y; refine Keeps.cut s y ?_ (fun hy => ?_); (on_goal 1 => subst y); (on_goal 2 => clear_value y)) | intro y

theorem State.logged_keeps {s x : State} (f : State → State) (hf : ∀ y, Keeps s y → Keeps s (f y)) (h : Keeps s x) : Keeps s (x.logged f) :=
  State.logDiff_keeps x (hf x h)

end Sys2Proof.Machine
end

