-- ==== Sys2Proof/Laws/KeepsGroups.lean ====
section
/-!
SUPPORT. KeepsGroups.lean: every operation of Machine/Groups.lean keeps what Keeps names.
-/
set_option linter.unusedTactic false
set_option linter.unreachableTactic false
set_option linter.unusedVariables false
namespace Sys2Proof.Machine

theorem State.dropHeld_keeps {s x : State} (h : Keeps s x) : Keeps s (State.dropHeld x) := by
  unfold State.dropHeld
  with_reducible
    repeat' first
      | assumption | lift_lets
      | (intro y; refine Keeps.cut s y ?_ (fun hy => ?_); (on_goal 1 => subst y); (on_goal 2 => clear_value y)) | intro y
      | exact Keeps.mk_of (by assumption) id id id id (fun _ => id)
      | refine Keeps.mk_of ?_ (by first | exact id | exact Store.wf_write _ _) id id id (fun _ => id)

theorem State.stratusEntry_keeps {s x : State} (a1 : Group) (h : Keeps s x) : Keeps s (State.stratusEntry x a1) := by
  unfold State.stratusEntry
  with_reducible
    repeat' first
      | assumption | apply State.dropHeld_keeps | apply State.modG_keeps | refine Keeps.ite ?_ ?_
      | lift_lets | (intro y; refine Keeps.cut s y ?_ (fun hy => ?_); (on_goal 1 => subst y); (on_goal 2 => clear_value y)) | intro y
      | exact Keeps.mk_of (by assumption) id id id id (fun _ => id)
      | refine Keeps.mk_of ?_ (by first | exact id | exact Store.wf_write _ _) id id id (fun _ => id)

theorem State.liftAt_keeps {s x : State} (a1 : Group) (h : Keeps s x) : Keeps s (State.liftAt x a1) := by
  unfold State.liftAt
  with_reducible
    repeat' first
      | assumption | apply State.liftGroup_keeps | refine Keeps.ite ?_ ?_

theorem State.foldUpdate_keeps {s x : State} (a1 : Group) (a2 : Nat) (h : Keeps s x) : Keeps s (State.foldUpdate x a1 a2) := by
  unfold State.foldUpdate
  with_reducible
    repeat' first
      | assumption | apply State.modG_keeps | refine Keeps.ite ?_ ?_ | lift_lets
      | (intro y; refine Keeps.cut s y ?_ (fun hy => ?_); (on_goal 1 => subst y); (on_goal 2 => clear_value y)) | intro y

theorem State.probeAbandon_keeps {s x : State} (h : Keeps s x) : Keeps s (State.probeAbandon x) := by
  unfold State.probeAbandon
  with_reducible
    repeat' first
      | assumption | apply State.set_keeps | refine Keeps.ite ?_ ?_ | lift_lets
      | (intro y; refine Keeps.cut s y ?_ (fun hy => ?_); (on_goal 1 => subst y); (on_goal 2 => clear_value y)) | intro y
      | exact Keeps.mk_of (by assumption) id id id id (fun _ => id)
      | refine Keeps.mk_of ?_ (by first | exact id | exact Store.wf_write _ _) id id id (fun _ => id)

theorem State.railDisturbed_keeps {s x : State} (h : Keeps s x) : Keeps s (State.railDisturbed x) := by
  unfold State.railDisturbed
  with_reducible
    repeat' first
      | assumption | apply State.probeAbandon_keeps | lift_lets
      | (intro y; refine Keeps.cut s y ?_ (fun hy => ?_); (on_goal 1 => subst y); (on_goal 2 => clear_value y)) | intro y
      | exact Keeps.mk_of (by assumption) id id id id (fun _ => id)
      | refine Keeps.mk_of ?_ (by first | exact id | exact Store.wf_write _ _) id id id (fun _ => id)

theorem State.slewRef_keeps {s x : State} (a1 : Group) (h : Keeps s x) : Keeps s (State.slewRef x a1) := by
  unfold State.slewRef
  with_reducible
    repeat' first
      | assumption | apply State.modG_keeps | refine Keeps.ite ?_ ?_ | lift_lets
      | (intro y; refine Keeps.cut s y ?_ (fun hy => ?_); (on_goal 1 => subst y); (on_goal 2 => clear_value y)) | intro y

theorem State.slowPower_keeps {s x : State} (a1 : Int) (h : Keeps s x) : Keeps s (State.slowPower x a1) := by
  unfold State.slowPower
  with_reducible
    repeat' first
      | assumption | lift_lets
      | (intro y; refine Keeps.cut s y ?_ (fun hy => ?_); (on_goal 1 => subst y); (on_goal 2 => clear_value y)) | intro y | split
      | exact Keeps.mk_of (by assumption) id id id id (fun _ => id)
      | refine Keeps.mk_of ?_ (by first | exact id | exact Store.wf_write _ _) id id id (fun _ => id)

theorem State.direction_keeps {s x : State} (a1 : Group) (a2 : Bool) (h : Keeps s x) : Keeps s (State.direction x a1 a2) := by
  unfold State.direction
  with_reducible
    repeat' first
      | assumption | apply State.modPs_keeps | apply State.modG_keeps | refine Keeps.ite ?_ ?_
      | lift_lets | (intro y; refine Keeps.cut s y ?_ (fun hy => ?_); (on_goal 1 => subst y); (on_goal 2 => clear_value y)) | intro y

theorem State.addedComplete_keeps {s x : State} (a1 : Group) (h : Keeps s x) : Keeps s (State.addedComplete x a1) := by
  unfold State.addedComplete
  with_reducible
    repeat' first
      | assumption | apply State.modPs_keeps

theorem State.loadStep_keeps {s x : State} (a1 : Group) (h : Keeps s x) : Keeps s (State.loadStep x a1) := by
  unfold State.loadStep
  with_reducible
    repeat' first
      | assumption | apply State.ev_keeps | apply State.modPs_keeps | apply State.modG_keeps
      | lift_lets | (intro y; refine Keeps.cut s y ?_ (fun hy => ?_); (on_goal 1 => subst y); (on_goal 2 => clear_value y)) | intro y

theorem State.rampStep_keeps {s x : State} (a1 : List Nat) (h : Keeps s x) : Keeps s (State.rampStep x a1) := by
  unfold State.rampStep
  with_reducible
    repeat' first
      | assumption | apply State.modPs_keeps | refine Keeps.ite ?_ ?_

theorem State.orderDemote_keeps {s x : State} (a1 : Group) (h : Keeps s x) : Keeps s (State.orderDemote x a1) := by
  unfold State.orderDemote
  with_reducible
    repeat' first
      | assumption | apply State.modPs_keeps | apply State.modG_keeps | refine Keeps.ite ?_ ?_
      | lift_lets | (intro y; refine Keeps.cut s y ?_ (fun hy => ?_); (on_goal 1 => subst y); (on_goal 2 => clear_value y)) | intro y

theorem State.addDecision_keeps {s x : State} (a1 : Group) (h : Keeps s x) : Keeps s (State.addDecision x a1) := by
  unfold State.addDecision
  with_reducible
    repeat' first
      | assumption | apply State.modPs_keeps | lift_lets
      | (intro y; refine Keeps.cut s y ?_ (fun hy => ?_); (on_goal 1 => subst y); (on_goal 2 => clear_value y)) | intro y

theorem State.shortfall_keeps {s x : State} (a1 : Group) (h : Keeps s x) : Keeps s (State.shortfall x a1) := by
  unfold State.shortfall
  with_reducible
    repeat' first
      | assumption | apply State.coreRaiseC_keeps | apply State.coreRaise_keeps
      | apply State.modG_keeps | refine Keeps.ite ?_ ?_ | lift_lets
      | (intro y; refine Keeps.cut s y ?_ (fun hy => ?_); (on_goal 1 => subst y); (on_goal 2 => clear_value y)) | intro y

theorem State.shedCountStep_keeps {s x : State} (a1 : Group) (h : Keeps s x) : Keeps s (State.shedCountStep x a1) := by
  unfold State.shedCountStep
  with_reducible
    repeat' first
      | assumption | apply State.modG_keeps | refine Keeps.ite ?_ ?_ | lift_lets
      | (intro y; refine Keeps.cut s y ?_ (fun hy => ?_); (on_goal 1 => subst y); (on_goal 2 => clear_value y)) | intro y

theorem State.trackStep_keeps {s x : State} (a1 : Group) (a2 : Nat) (a3 : Nat) (h : Keeps s x) : Keeps s (State.trackStep x a1 a2 a3) := by
  unfold State.trackStep
  with_reducible
    repeat' first
      | assumption | apply State.modG_keeps | refine Keeps.ite ?_ ?_ | lift_lets
      | (intro y; refine Keeps.cut s y ?_ (fun hy => ?_); (on_goal 1 => subst y); (on_goal 2 => clear_value y)) | intro y

theorem State.backStep_keeps {s x : State} (a1 : Group) (h : Keeps s x) : Keeps s (State.backStep x a1) := by
  unfold State.backStep
  with_reducible
    repeat' first
      | assumption | apply State.modG_keeps | refine Keeps.ite ?_ ?_ | lift_lets
      | (intro y; refine Keeps.cut s y ?_ (fun hy => ?_); (on_goal 1 => subst y); (on_goal 2 => clear_value y)) | intro y

theorem State.spreadStep_keeps {s x : State} (a1 : Group) (h : Keeps s x) : Keeps s (State.spreadStep x a1) := by
  unfold State.spreadStep
  with_reducible
    repeat' first
      | assumption | apply State.modG_keeps | refine Keeps.ite ?_ ?_ | lift_lets
      | (intro y; refine Keeps.cut s y ?_ (fun hy => ?_); (on_goal 1 => subst y); (on_goal 2 => clear_value y)) | intro y

theorem State.freqStep_keeps {s x : State} (a1 : Group) (a2 : Nat) (a3 : Nat) (h : Keeps s x) : Keeps s (State.freqStep x a1 a2 a3) := by
  unfold State.freqStep
  with_reducible
    repeat' first
      | assumption | apply State.spreadStep_keeps | apply State.backStep_keeps
      | apply State.trackStep_keeps | apply State.modG_keeps | refine Keeps.ite ?_ ?_ | lift_lets
      | (intro y; refine Keeps.cut s y ?_ (fun hy => ?_); (on_goal 1 => subst y); (on_goal 2 => clear_value y)) | intro y | split

theorem State.passHold_keeps {s x : State} (h : Keeps s x) : Keeps s (State.passHold x) := by
  unfold State.passHold
  with_reducible
    repeat' first
      | assumption | apply State.modPs_keeps | refine Keeps.ite ?_ ?_ | lift_lets
      | (intro y; refine Keeps.cut s y ?_ (fun hy => ?_); (on_goal 1 => subst y); (on_goal 2 => clear_value y)) | intro y

theorem State.passStep_keeps {s x : State} (a1 : Nat) (a2 : Nat) (h : Keeps s x) : Keeps s (State.passStep x a1 a2) := by
  unfold State.passStep
  with_reducible
    repeat' first
      | assumption | apply State.modG_keeps | refine Keeps.ite ?_ ?_ | lift_lets
      | (intro y; refine Keeps.cut s y ?_ (fun hy => ?_); (on_goal 1 => subst y); (on_goal 2 => clear_value y)) | intro y

theorem State.startStep_keeps {s x : State} (a1 : Group) (a2 : Nat) (a3 : Nat) (h : Keeps s x) : Keeps s (State.startStep x a1 a2 a3) := by
  unfold State.startStep
  with_reducible
    repeat' first
      | assumption | apply State.modG_keeps | refine Keeps.ite ?_ ?_ | lift_lets
      | (intro y; refine Keeps.cut s y ?_ (fun hy => ?_); (on_goal 1 => subst y); (on_goal 2 => clear_value y)) | intro y | split

theorem State.decisions_keeps {s x : State} (a1 : Group) (a2 : Int) (a3 : List Nat) (h : Keeps s x) : Keeps s (State.decisions x a1 a2 a3) := by
  unfold State.decisions
  with_reducible
    repeat' first
      | assumption | apply State.shedCountStep_keeps | apply State.shortfall_keeps
      | apply State.addDecision_keeps | apply State.orderDemote_keeps | apply State.rampStep_keeps | apply State.loadStep_keeps
      | apply State.railDisturbed_keeps | refine Keeps.ite ?_ ?_ | lift_lets
      | (intro y; refine Keeps.cut s y ?_ (fun hy => ?_); (on_goal 1 => subst y); (on_goal 2 => clear_value y)) | intro y

theorem State.headroomStep_keeps {s x : State} (a1 : Group) (a2 : Nat) (a3 : Nat) (h : Keeps s x) : Keeps s (State.headroomStep x a1 a2 a3) := by
  unfold State.headroomStep
  with_reducible
    repeat' first
      | assumption | apply State.gateBack_keeps | apply State.freeG_keeps | refine Keeps.ite ?_ ?_

theorem State.command_keeps {s x : State} (a1 : Group) (a2 : Int) (a3 : Nat) (h : Keeps s x) : Keeps s (State.command x a1 a2 a3) := by
  unfold State.command
  with_reducible
    repeat' first
      | assumption | apply State.slowPower_keeps | apply State.modG_keeps | lift_lets
      | (intro y; refine Keeps.cut s y ?_ (fun hy => ?_); (on_goal 1 => subst y); (on_goal 2 => clear_value y)) | intro y

theorem State.peakEnd_keeps {s x : State} (a1 : Group) (h : Keeps s x) : Keeps s (State.peakEnd x a1) := by
  unfold State.peakEnd
  with_reducible
    repeat' first
      | assumption | apply State.coreClearI_keeps | apply State.modPs_keeps
      | refine Keeps.foldl _ ?_ (fun y a hy => ?_) | lift_lets
      | (intro y; refine Keeps.cut s y ?_ (fun hy => ?_); (on_goal 1 => subst y); (on_goal 2 => clear_value y)) | intro y

theorem State.swapZ_keeps {s x : State} (a1 : Group) (h : Keeps s x) : Keeps s (State.swapZ x a1) := by
  unfold State.swapZ
  with_reducible
    repeat' first
      | assumption | apply State.stopG_keeps | refine Keeps.ite ?_ ?_ | split

theorem State.boundary_keeps {s x : State} (a1 : Group) (a2 : Sample) (h : Keeps s x) : Keeps s (State.boundary x a1 a2) := by
  unfold State.boundary
  with_reducible
    repeat' first
      | assumption | apply State.swapZ_keeps | apply State.peakEnd_keeps | apply State.command_keeps
      | apply State.headroomStep_keeps | apply State.decisions_keeps | apply State.startStep_keeps | apply State.passStep_keeps
      | apply State.passHold_keeps | apply State.freqStep_keeps | apply State.orderDemote_keeps | apply State.rampStep_keeps
      | apply State.addedComplete_keeps | apply State.direction_keeps | apply State.slewRef_keeps | apply State.railDisturbed_keeps
      | apply State.probeAbandon_keeps | apply State.foldUpdate_keeps | apply State.liftAt_keeps | apply State.stratusEntry_keeps
      | apply State.applyAll_keeps | apply State.setChanged_keeps | apply State.modG_keeps | refine Keeps.ite ?_ ?_ | lift_lets
      | (intro y; refine Keeps.cut s y ?_ (fun hy => ?_); (on_goal 1 => subst y); (on_goal 2 => clear_value y)) | intro y

theorem execSwitchingCycleBoundary_keeps {s t : State} (a0 : Group) (a1 : Sample) (h : execSwitchingCycleBoundary a0 a1 s = .next t) : Keeps s t := by
  unfold execSwitchingCycleBoundary at h
  cases h
  have h := Keeps.refl s
  with_reducible
    repeat' first
      | assumption | apply State.boundary_keeps | apply State.logged_keeps | refine fun y hy => ?_

theorem State.shed_keeps {s x : State} (a1 : Group) (h : Keeps s x) : Keeps s (State.shed x a1) := by
  unfold State.shed
  with_reducible
    repeat' first
      | assumption | apply State.modP_keeps | apply State.modG_keeps | split

theorem execShedDecision_keeps {s t : State} (a0 : Group) (h : execShedDecision a0 s = .next t) : Keeps s t := by
  unfold execShedDecision at h
  cases h
  have h := Keeps.refl s
  with_reducible
    repeat' first
      | assumption | apply State.shed_keeps | apply State.logged_keeps | refine Keeps.ite ?_ ?_
      | refine fun y hy => ?_

theorem execShedBlockEnd_keeps {s t : State} (a0 : Group) (h : execShedBlockEnd a0 s = .next t) : Keeps s t := by
  unfold execShedBlockEnd at h
  cases h
  have h := Keeps.refl s
  with_reducible
    repeat' first
      | assumption | apply State.modG_keeps | refine Keeps.ite ?_ ?_

theorem State.balance_keeps {s x : State} (a1 : Group) (a2 : List Int) (h : Keeps s x) : Keeps s (State.balance x a1 a2) := by
  unfold State.balance
  with_reducible
    repeat' first
      | assumption | apply State.modP_keeps | apply State.modG_keeps
      | refine Keeps.foldl _ ?_ (fun y a hy => ?_) | refine Keeps.ite ?_ ?_ | lift_lets
      | (intro y; refine Keeps.cut s y ?_ (fun hy => ?_); (on_goal 1 => subst y); (on_goal 2 => clear_value y)) | intro y

theorem execFoldback_keeps {s t : State} (a0 : Group) (h : execFoldback a0 s = .next t) : Keeps s t := by
  unfold execFoldback at h
  cases h
  have h := Keeps.refl s
  with_reducible
    repeat' first
      | assumption | apply State.coreRaise_keeps | refine Keeps.ite ?_ ?_

theorem State.foldStop_keeps {s x : State} (a1 : Group) (h : Keeps s x) : Keeps s (State.foldStop x a1) := by
  unfold State.foldStop
  with_reducible
    repeat' first
      | assumption | apply State.coreRaiseC_keeps | apply State.coreRaise_keeps
      | apply State.stopG_keeps | apply State.modG_keeps | refine Keeps.ite ?_ ?_ | lift_lets
      | (intro y; refine Keeps.cut s y ?_ (fun hy => ?_); (on_goal 1 => subst y); (on_goal 2 => clear_value y)) | intro y

theorem execFoldStop_keeps {s t : State} (a0 : Group) (h : execFoldStop a0 s = .next t) : Keeps s t := by
  unfold execFoldStop at h
  cases h
  have h := Keeps.refl s
  with_reducible
    repeat' first
      | assumption | apply State.foldStop_keeps | apply State.logged_keeps | refine Keeps.ite ?_ ?_
      | refine fun y hy => ?_

theorem State.foldRestart_keeps {s x : State} (a1 : Group) (h : Keeps s x) : Keeps s (State.foldRestart x a1) := by
  unfold State.foldRestart
  with_reducible
    repeat' first
      | assumption | apply State.freeG_keeps | apply State.modG_keeps

theorem execFoldRestart_keeps {s t : State} (a0 : Group) (h : execFoldRestart a0 s = .next t) : Keeps s t := by
  unfold execFoldRestart at h
  cases h
  have h := Keeps.refl s
  with_reducible
    repeat' first
      | assumption | apply State.foldRestart_keeps | apply State.logged_keeps | refine Keeps.ite ?_ ?_
      | refine fun y hy => ?_

theorem execSoftStartEnd_keeps {s t : State} (a0 : Group) (h : execSoftStartEnd a0 s = .next t) : Keeps s t := by
  unfold execSoftStartEnd at h
  cases h
  have h := Keeps.refl s
  with_reducible
    repeat' first
      | assumption | apply State.modG_keeps | refine Keeps.ite ?_ ?_

theorem execBalAtClamp_keeps {s t : State} (a0 : Fin 16) (h : execBalAtClamp a0 s = .next t) : Keeps s t := by
  unfold execBalAtClamp at h
  cases h
  have h := Keeps.refl s
  with_reducible
    repeat' first
      | assumption | apply State.coreRaise_keeps | refine Keeps.ite ?_ ?_ | lift_lets
      | (intro y; refine Keeps.cut s y ?_ (fun hy => ?_); (on_goal 1 => subst y); (on_goal 2 => clear_value y)) | intro y

theorem State.zeroMeasured_keeps {s x : State} (a1 : Nat) (a2 : Nat) (h : Keeps s x) : Keeps s (State.zeroMeasured x a1 a2) := by
  unfold State.zeroMeasured
  with_reducible
    repeat' first
      | assumption | apply State.setChanged_keeps | apply State.coreClearI_keeps
      | apply State.coreRaiseC_keeps | apply State.modP_keeps | refine Keeps.ite ?_ ?_ | lift_lets
      | (intro y; refine Keeps.cut s y ?_ (fun hy => ?_); (on_goal 1 => subst y); (on_goal 2 => clear_value y)) | intro y

theorem State.writeGroup_keeps {s x : State} (a1 : Group) (a2 : Bool) (h : Keeps s x) : Keeps s (State.writeGroup x a1 a2) := by
  unfold State.writeGroup
  with_reducible
    repeat' first
      | assumption | apply State.portWord_keeps | refine Keeps.foldl _ ?_ (fun y a hy => ?_)
      | lift_lets | (intro y; refine Keeps.cut s y ?_ (fun hy => ?_); (on_goal 1 => subst y); (on_goal 2 => clear_value y)) | intro y

theorem State.applyGroup_keeps {s x : State} (a1 : Group) (h : Keeps s x) : Keeps s (State.applyGroup x a1) := by
  unfold State.applyGroup
  with_reducible
    repeat' first
      | assumption | apply State.writeGroup_keeps | apply State.foldRestart_keeps
      | apply State.commitWords_keeps | apply State.coreClearK_keeps | apply State.modG_keeps | refine Keeps.ite ?_ ?_ | lift_lets
      | (intro y; refine Keeps.cut s y ?_ (fun hy => ?_); (on_goal 1 => subst y); (on_goal 2 => clear_value y)) | intro y
      | exact Keeps.mk_of (by assumption) id id id id (fun _ => id)
      | refine Keeps.mk_of ?_ (by first | exact id | exact Store.wf_write _ _) id id id (fun _ => id)

theorem State.groupApply_keeps {s x : State} (a1 : Nat) (h : Keeps s x) : Keeps s (State.groupApply x a1).2 := by
  unfold State.groupApply
  with_reducible
    repeat' first
      | assumption | apply State.applyGroup_keeps | refine Keeps.ite ?_ ?_ | refine Keeps.ite_snd ?_ ?_
      | refine Keeps.ite_trd ?_ ?_ | split | (refine Keeps.snd_of ?_ (by assumption)) | (refine Keeps.trd_of ?_ (by assumption))

theorem execSyncLocked_keeps {s t : State} (a0 : Group) (h : execSyncLocked a0 s = .next t) : Keeps s t := by
  unfold execSyncLocked at h
  cases h
  have h := Keeps.refl s
  with_reducible
    repeat' first
      | assumption | apply State.logged_keeps | apply State.modG_keeps | refine Keeps.ite ?_ ?_
      | refine fun y hy => ?_

theorem execSyncRange_keeps {s t : State} (a0 : Group) (h : execSyncRange a0 s = .next t) : Keeps s t := by
  unfold execSyncRange at h
  cases h
  have h := Keeps.refl s
  with_reducible
    repeat' first
      | assumption | apply State.coreRaise_keeps | refine Keeps.ite ?_ ?_

theorem State.syncLose_keeps {s x : State} (a1 : Group) (h : Keeps s x) : Keeps s (State.syncLose x a1) := by
  unfold State.syncLose
  with_reducible
    repeat' first
      | assumption | apply State.coreRaise_keeps | apply State.modG_keeps | refine Keeps.ite ?_ ?_

theorem execSyncLost_keeps {s t : State} (a0 : Group) (h : execSyncLost a0 s = .next t) : Keeps s t := by
  unfold execSyncLost at h
  cases h
  have h := Keeps.refl s
  with_reducible
    repeat' first
      | assumption | apply State.syncLose_keeps | apply State.logged_keeps | refine fun y hy => ?_

theorem State.planCheck_keeps {s x : State} (a1 : Group) (h : Keeps s x) : Keeps s (State.planCheck x a1) := by
  unfold State.planCheck
  with_reducible
    repeat' first
      | assumption | apply State.portWrite_keeps | apply State.raise_keeps | apply State.modG_keeps
      | refine Keeps.ite ?_ ?_ | lift_lets
      | (intro y; refine Keeps.cut s y ?_ (fun hy => ?_); (on_goal 1 => subst y); (on_goal 2 => clear_value y)) | intro y

theorem execFreqPlanCheck_keeps {s t : State} (h : execFreqPlanCheck s = .next t) : Keeps s t := by
  unfold execFreqPlanCheck at h
  cases h
  have h := Keeps.refl s
  with_reducible
    repeat' first
      | assumption | apply State.planCheck_keeps | apply State.logged_keeps
      | refine Keeps.foldl _ ?_ (fun y a hy => ?_) | refine Keeps.ite ?_ ?_ | refine fun y hy => ?_

end Sys2Proof.Machine
end

