-- ==== Sys2Proof/Laws/KeepsSourceOps.lean ====
section
/-!
SUPPORT. KeepsSourceOps.lean: every operation of Machine/SourceOps.lean keeps what Keeps names.
-/
set_option linter.unusedTactic false
set_option linter.unreachableTactic false
set_option linter.unusedVariables false
namespace Sys2Proof.Machine

theorem State.srcState_keeps {s x : State} (a1 : Nat) (h : Keeps s x) : Keeps s (State.srcState x a1) := by
  unfold State.srcState
  with_reducible
    repeat' first
      | assumption | apply State.probeAbandon_keeps | apply State.set_keeps | refine Keeps.ite ?_ ?_

theorem State.rowLatches_keeps {s x : State} (a1 : Nat) (a2 : Nat) (h : Keeps s x) : Keeps s (State.rowLatches x a1 a2) := by
  unfold State.rowLatches
  with_reducible
    repeat' first
      | assumption | apply State.portWord_keeps | lift_lets
      | (intro y; refine Keeps.cut s y ?_ (fun hy => ?_); (on_goal 1 => subst y); (on_goal 2 => clear_value y)) | intro y

theorem State.portIfNew_keeps {s x : State} (a1 : Nat) (a2 : Nat) (h : Keeps s x) : Keeps s (State.portIfNew x a1 a2) := by
  unfold State.portIfNew
  with_reducible
    repeat' first
      | assumption | apply State.portWrite_keeps | refine Keeps.ite ?_ ?_ | lift_lets
      | (intro y; refine Keeps.cut s y ?_ (fun hy => ?_); (on_goal 1 => subst y); (on_goal 2 => clear_value y)) | intro y

theorem State.writeLimits_keeps {s x : State} (h : Keeps s x) : Keeps s (State.writeLimits x) := by
  unfold State.writeLimits
  with_reducible
    repeat' first
      | assumption | apply State.portIfNew_keeps

end Sys2Proof.Machine
end

