-- ==== Sys2Proof/Laws/KeepsMeasureOps.lean ====
section
/-!
SUPPORT. KeepsMeasureOps.lean: every operation of Machine/MeasureOps.lean keeps what Keeps names.
-/
set_option linter.unusedTactic false
set_option linter.unreachableTactic false
set_option linter.unusedVariables false
namespace Sys2Proof.Machine

theorem State.noResults_keeps {s x : State} (h : Keeps s x) : Keeps s (State.noResults x) := by
  unfold State.noResults
  with_reducible
    repeat' first
      | assumption | apply State.set_keeps | refine Keeps.foldl _ ?_ (fun y a hy => ?_)

theorem State.measStop_keeps {s x : State} (h : Keeps s x) : Keeps s (State.measStop x) := by
  unfold State.measStop
  with_reducible
    repeat' first
      | assumption | apply State.noResults_keeps | apply State.set_keeps | lift_lets
      | (intro y; refine Keeps.cut s y ?_ (fun hy => ?_); (on_goal 1 => subst y); (on_goal 2 => clear_value y)) | intro y
      | exact Keeps.mk_of (by assumption) id id id id (fun _ => id)
      | refine Keeps.mk_of ?_ (by first | exact id | exact Store.wf_write _ _) id id id (fun _ => id)

end Sys2Proof.Machine
end

