-- ==== Sys2Proof/Laws/KeepsThermalOps.lean ====
section
/-!
SUPPORT. KeepsThermalOps.lean: every operation of Machine/ThermalOps.lean keeps what Keeps names.
-/
set_option linter.unusedTactic false
set_option linter.unreachableTactic false
set_option linter.unusedVariables false
namespace Sys2Proof.Machine

theorem State.tdStep_keeps {s x : State} (a1 : Nat) (h : Keeps s x) : Keeps s (State.tdStep x a1) := by
  unfold State.tdStep
  with_reducible
    repeat' first
      | assumption | apply State.clearI_keeps | apply State.raiseC_keeps | apply State.set_keeps
      | refine Keeps.ite ?_ ?_ | lift_lets
      | (intro y; refine Keeps.cut s y ?_ (fun hy => ?_); (on_goal 1 => subst y); (on_goal 2 => clear_value y)) | intro y | split
      | exact Keeps.mk_of (by assumption) id id id id (fun _ => id)
      | refine Keeps.mk_of ?_ (by first | exact id | exact Store.wf_write _ _) id id id (fun _ => id)

theorem State.tempMax_keeps {s x : State} (h : Keeps s x) : Keeps s (State.tempMax x) := by
  unfold State.tempMax
  with_reducible
    repeat' first
      | assumption | apply State.raise_keeps | apply State.set_keeps
      | refine Keeps.foldl _ ?_ (fun y a hy => ?_) | refine Keeps.ite ?_ ?_ | lift_lets
      | (intro y; refine Keeps.cut s y ?_ (fun hy => ?_); (on_goal 1 => subst y); (on_goal 2 => clear_value y)) | intro y | split
      | exact Keeps.mk_of (by assumption) id id id id (fun _ => id)
      | refine Keeps.mk_of ?_ (by first | exact id | exact Store.wf_write _ _) id id id (fun _ => id)

theorem State.bandIntervals_keeps {s x : State} (a1 : Nat) (h : Keeps s x) : Keeps s (State.bandIntervals x a1) := by
  unfold State.bandIntervals
  with_reducible
    repeat' first
      | assumption | lift_lets
      | (intro y; refine Keeps.cut s y ?_ (fun hy => ?_); (on_goal 1 => subst y); (on_goal 2 => clear_value y)) | intro y
      | exact Keeps.mk_of (by assumption) id id id id (fun _ => id)
      | refine Keeps.mk_of ?_ (by first | exact id | exact Store.wf_write _ _) id id id (fun _ => id)

theorem State.writeEdges_keeps {s x : State} (h : Keeps s x) : Keeps s (State.writeEdges x) := by
  unfold State.writeEdges
  with_reducible
    repeat' first
      | assumption | apply State.portIfNew_keeps | refine Keeps.foldl _ ?_ (fun y a hy => ?_)

theorem State.sntcStep_keeps {s x : State} (a1 : Nat) (h : Keeps s x) : Keeps s (State.sntcStep x a1) := by
  unfold State.sntcStep
  with_reducible
    repeat' first
      | assumption | apply State.raise_keeps | apply State.set_keeps | refine Keeps.ite ?_ ?_
      | lift_lets | (intro y; refine Keeps.cut s y ?_ (fun hy => ?_); (on_goal 1 => subst y); (on_goal 2 => clear_value y)) | intro y
      | exact Keeps.mk_of (by assumption) id id id id (fun _ => id)
      | refine Keeps.mk_of ?_ (by first | exact id | exact Store.wf_write _ _) id id id (fun _ => id)

theorem State.groupThermal_keeps {s x : State} (a1 : Group) (h : Keeps s x) : Keeps s (State.groupThermal x a1) := by
  unfold State.groupThermal
  with_reducible
    repeat' first
      | assumption | apply State.portIfNew_keeps | apply State.raise_keeps | apply State.set_keeps
      | refine Keeps.ite ?_ ?_ | lift_lets
      | (intro y; refine Keeps.cut s y ?_ (fun hy => ?_); (on_goal 1 => subst y); (on_goal 2 => clear_value y)) | intro y | split
      | exact Keeps.mk_of (by assumption) id id id id (fun _ => id)
      | refine Keeps.mk_of ?_ (by first | exact id | exact Store.wf_write _ _) id id id (fun _ => id)

theorem State.chargeThermal_keeps {s x : State} (h : Keeps s x) : Keeps s (State.chargeThermal x) := by
  unfold State.chargeThermal
  with_reducible
    repeat' first
      | assumption | lift_lets
      | (intro y; refine Keeps.cut s y ?_ (fun hy => ?_); (on_goal 1 => subst y); (on_goal 2 => clear_value y)) | intro y | split
      | exact Keeps.mk_of (by assumption) id id id id (fun _ => id)
      | refine Keeps.mk_of ?_ (by first | exact id | exact Store.wf_write _ _) id id id (fun _ => id)

theorem State.shellClock_keeps {s x : State} (h : Keeps s x) : Keeps s (State.shellClock x) := by
  unfold State.shellClock
  with_reducible
    repeat' first
      | assumption | apply State.raise_keeps | apply State.set_keeps | refine Keeps.ite ?_ ?_
      | lift_lets | (intro y; refine Keeps.cut s y ?_ (fun hy => ?_); (on_goal 1 => subst y); (on_goal 2 => clear_value y)) | intro y

theorem State.bandUpdate_keeps {s x : State} (h : Keeps s x) : Keeps s (State.bandUpdate x).2 := by
  unfold State.bandUpdate
  with_reducible
    repeat' first
      | assumption | apply State.writeEdges_keeps | apply State.bandIntervals_keeps
      | apply State.probeAbandon_keeps | apply State.set_keeps | refine Keeps.ite ?_ ?_ | refine Keeps.ite_snd ?_ ?_
      | refine Keeps.ite_trd ?_ ?_ | lift_lets
      | (intro y; refine Keeps.cut s y ?_ (fun hy => ?_); (on_goal 1 => subst y); (on_goal 2 => clear_value y)) | intro y | split
      | (refine Keeps.snd_of ?_ (by assumption)) | (refine Keeps.trd_of ?_ (by assumption))

theorem State.thermalEval_keeps {s x : State} (h : Keeps s x) : Keeps s (State.thermalEval x).2 := by
  unfold State.thermalEval
  with_reducible
    repeat' first
      | assumption | apply State.bandUpdate_keeps | apply State.shellClock_keeps
      | apply State.chargeThermal_keeps | apply State.groupThermal_keeps | apply State.sntcStep_keeps | apply State.tempMax_keeps
      | apply State.tdStep_keeps | apply State.writeLimits_keeps | refine Keeps.foldl _ ?_ (fun y a hy => ?_) | refine Keeps.ite ?_ ?_
      | refine Keeps.ite_snd ?_ ?_ | refine Keeps.ite_trd ?_ ?_ | lift_lets
      | (intro y; refine Keeps.cut s y ?_ (fun hy => ?_); (on_goal 1 => subst y); (on_goal 2 => clear_value y)) | intro y | split
      | (refine Keeps.snd_of ?_ (by assumption)) | (refine Keeps.trd_of ?_ (by assumption))
      | exact Keeps.mk_of (by assumption) id id id id (fun _ => id)
      | refine Keeps.mk_of ?_ (by first | exact id | exact Store.wf_write _ _) id id id (fun _ => id)

end Sys2Proof.Machine
end

