-- ==== Sys2Proof/Laws/KeepsHorizonOps.lean ====
section
/-!
SUPPORT. KeepsHorizonOps.lean: every operation of Machine/HorizonOps.lean keeps what Keeps names.
-/
set_option linter.unusedTactic false
set_option linter.unreachableTactic false
set_option linter.unusedVariables false
namespace Sys2Proof.Machine

theorem State.hzTake_keeps {s x : State} (a1 : Nat) (a2 : Nat) (h : Keeps s x) : Keeps s (State.hzTake x a1 a2) := by
  unfold State.hzTake
  with_reducible
    repeat' first
      | assumption | refine Keeps.ite ?_ ?_ | lift_lets
      | (intro y; refine Keeps.cut s y ?_ (fun hy => ?_); (on_goal 1 => subst y); (on_goal 2 => clear_value y)) | intro y
      | exact Keeps.mk_of (by assumption) id id id id (fun _ => id)
      | refine Keeps.mk_of ?_ (by first | exact id | exact Store.wf_write _ _) id id id (fun _ => id)

theorem State.hzClear_keeps {s x : State} (a1 : List Nat) (h : Keeps s x) : Keeps s (State.hzClear x a1) := by
  unfold State.hzClear
  with_reducible
    repeat' first
      | assumption | lift_lets
      | (intro y; refine Keeps.cut s y ?_ (fun hy => ?_); (on_goal 1 => subst y); (on_goal 2 => clear_value y)) | intro y
      | exact Keeps.mk_of (by assumption) id id id id (fun _ => id)
      | refine Keeps.mk_of ?_ (by first | exact id | exact Store.wf_write _ _) id id id (fun _ => id)

theorem State.hzTrim_keeps {s x : State} (a1 : Group) (h : Keeps s x) : Keeps s (State.hzTrim x a1) := by
  unfold State.hzTrim
  with_reducible
    repeat' first
      | assumption | refine Keeps.foldl _ ?_ (fun y a hy => ?_) | refine Keeps.ite ?_ ?_ | lift_lets
      | (intro y; refine Keeps.cut s y ?_ (fun hy => ?_); (on_goal 1 => subst y); (on_goal 2 => clear_value y)) | intro y
      | exact Keeps.mk_of (by assumption) id id id id (fun _ => id)
      | refine Keeps.mk_of ?_ (by first | exact id | exact Store.wf_write _ _) id id id (fun _ => id)

theorem State.hzPath_keeps {s x : State} (a1 : Nat) (a2 : Nat) (h : Keeps s x) : Keeps s (State.hzPath x a1 a2) := by
  unfold State.hzPath
  with_reducible
    repeat' first
      | assumption | refine Keeps.ite ?_ ?_ | lift_lets
      | (intro y; refine Keeps.cut s y ?_ (fun hy => ?_); (on_goal 1 => subst y); (on_goal 2 => clear_value y)) | intro y
      | exact Keeps.mk_of (by assumption) id id id id (fun _ => id)
      | refine Keeps.mk_of ?_ (by first | exact id | exact Store.wf_write _ _) id id id (fun _ => id)

theorem State.hzPackStep_keeps {s x : State} (a1 : Int) (a2 : Int) (a3 : Int) (a4 : Int) (h : Keeps s x) : Keeps s (State.hzPackStep x a1 a2 a3 a4) := by
  unfold State.hzPackStep
  with_reducible
    repeat' first
      | assumption | apply State.put_keeps | refine Keeps.ite ?_ ?_ | lift_lets
      | (intro y; refine Keeps.cut s y ?_ (fun hy => ?_); (on_goal 1 => subst y); (on_goal 2 => clear_value y)) | intro y | split
      | exact Keeps.mk_of (by assumption) id id id id (fun _ => id)
      | refine Keeps.mk_of ?_ (by first | exact id | exact Store.wf_write _ _) id id id (fun _ => id)

theorem State.hzHeat_keeps {s x : State} (a1 : Nat) (a2 : Int) (a3 : Int) (a4 : Int) (h : Keeps s x) : Keeps s (State.hzHeat x a1 a2 a3 a4) := by
  unfold State.hzHeat
  with_reducible
    repeat' first
      | assumption | refine Keeps.ite ?_ ?_ | lift_lets
      | (intro y; refine Keeps.cut s y ?_ (fun hy => ?_); (on_goal 1 => subst y); (on_goal 2 => clear_value y)) | intro y
      | exact Keeps.mk_of (by assumption) id id id id (fun _ => id)
      | refine Keeps.mk_of ?_ (by first | exact id | exact Store.wf_write _ _) id id id (fun _ => id)

theorem State.hzRef_keeps {s x : State} (h : Keeps s x) : Keeps s (State.hzRef x) := by
  unfold State.hzRef
  with_reducible
    repeat' first
      | assumption | refine Keeps.ite ?_ ?_ | lift_lets
      | (intro y; refine Keeps.cut s y ?_ (fun hy => ?_); (on_goal 1 => subst y); (on_goal 2 => clear_value y)) | intro y | split
      | exact Keeps.mk_of (by assumption) id id id id (fun _ => id)
      | refine Keeps.mk_of ?_ (by first | exact id | exact Store.wf_write _ _) id id id (fun _ => id)

theorem State.hzSpeed_keeps {s x : State} (a1 : Nat) (h : Keeps s x) : Keeps s (State.hzSpeed x a1) := by
  unfold State.hzSpeed
  with_reducible
    repeat' first
      | assumption | refine Keeps.ite ?_ ?_ | lift_lets
      | (intro y; refine Keeps.cut s y ?_ (fun hy => ?_); (on_goal 1 => subst y); (on_goal 2 => clear_value y)) | intro y | split
      | exact Keeps.mk_of (by assumption) id id id id (fun _ => id)
      | refine Keeps.mk_of ?_ (by first | exact id | exact Store.wf_write _ _) id id id (fun _ => id)

theorem State.hzLeak_keeps {s x : State} (a1 : Port) (a2 : Nat) (h : Keeps s x) : Keeps s (State.hzLeak x a1 a2) := by
  unfold State.hzLeak
  with_reducible
    repeat' first
      | assumption | refine Keeps.ite ?_ ?_ | lift_lets
      | (intro y; refine Keeps.cut s y ?_ (fun hy => ?_); (on_goal 1 => subst y); (on_goal 2 => clear_value y)) | intro y
      | exact Keeps.mk_of (by assumption) id id id id (fun _ => id)
      | refine Keeps.mk_of ?_ (by first | exact id | exact Store.wf_write _ _) id id id (fun _ => id)

theorem State.closeTrim_keeps {s x : State} (a1 : Nat) (h : Keeps s x) : Keeps s (State.closeTrim x a1) := by
  unfold State.closeTrim
  with_reducible
    repeat' first
      | assumption | apply State.hzTake_keeps | refine Keeps.ite ?_ ?_ | lift_lets
      | (intro y; refine Keeps.cut s y ?_ (fun hy => ?_); (on_goal 1 => subst y); (on_goal 2 => clear_value y)) | intro y

theorem State.closePath_keeps {s x : State} (a1 : Nat) (h : Keeps s x) : Keeps s (State.closePath x a1) := by
  unfold State.closePath
  with_reducible
    repeat' first
      | assumption | apply State.hzTake_keeps | refine Keeps.ite ?_ ?_ | lift_lets
      | (intro y; refine Keeps.cut s y ?_ (fun hy => ?_); (on_goal 1 => subst y); (on_goal 2 => clear_value y)) | intro y | split

theorem State.closeHeat_keeps {s x : State} (a1 : Nat) (h : Keeps s x) : Keeps s (State.closeHeat x a1) := by
  unfold State.closeHeat
  with_reducible
    repeat' first
      | assumption | apply State.hzTake_keeps | refine Keeps.foldl _ ?_ (fun y a hy => ?_)
      | refine Keeps.ite ?_ ?_ | lift_lets
      | (intro y; refine Keeps.cut s y ?_ (fun hy => ?_); (on_goal 1 => subst y); (on_goal 2 => clear_value y)) | intro y

theorem State.closeSpeed_keeps {s x : State} (h : Keeps s x) : Keeps s (State.closeSpeed x) := by
  unfold State.closeSpeed
  with_reducible
    repeat' first
      | assumption | apply State.hzTake_keeps | refine Keeps.ite ?_ ?_ | lift_lets
      | (intro y; refine Keeps.cut s y ?_ (fun hy => ?_); (on_goal 1 => subst y); (on_goal 2 => clear_value y)) | intro y
      | exact Keeps.mk_of (by assumption) id id id id (fun _ => id)
      | refine Keeps.mk_of ?_ (by first | exact id | exact Store.wf_write _ _) id id id (fun _ => id)

theorem State.closePack_keeps {s x : State} (h : Keeps s x) : Keeps s (State.closePack x) := by
  unfold State.closePack
  with_reducible
    repeat' first
      | assumption | apply State.hzTake_keeps | split

theorem State.closeRdc_keeps {s x : State} (h : Keeps s x) : Keeps s (State.closeRdc x) := by
  unfold State.closeRdc
  with_reducible
    repeat' first
      | assumption | apply State.hzTake_keeps | refine Keeps.ite ?_ ?_

theorem State.closeRef_keeps {s x : State} (h : Keeps s x) : Keeps s (State.closeRef x) := by
  unfold State.closeRef
  with_reducible
    repeat' first
      | assumption | apply State.hzTake_keeps | refine Keeps.ite ?_ ?_

theorem State.closeLeak_keeps {s x : State} (a1 : Port) (h : Keeps s x) : Keeps s (State.closeLeak x a1) := by
  unfold State.closeLeak
  with_reducible
    repeat' first
      | assumption | apply State.hzTake_keeps | refine Keeps.ite ?_ ?_ | split

theorem State.closeRound_keeps {s x : State} (h : Keeps s x) : Keeps s (State.closeRound x) := by
  unfold State.closeRound
  with_reducible
    repeat' first
      | assumption | apply State.closeLeak_keeps | apply State.closeRef_keeps
      | apply State.closeRdc_keeps | apply State.closePack_keeps | apply State.closeSpeed_keeps | apply State.closeHeat_keeps
      | apply State.closePath_keeps | apply State.closeTrim_keeps | refine Keeps.foldl _ ?_ (fun y a hy => ?_) | lift_lets
      | (intro y; refine Keeps.cut s y ?_ (fun hy => ?_); (on_goal 1 => subst y); (on_goal 2 => clear_value y)) | intro y
      | exact Keeps.mk_of (by assumption) id id id id (fun _ => id)
      | refine Keeps.mk_of ?_ (by first | exact id | exact Store.wf_write _ _) id id id (fun _ => id)

theorem State.flowWatch_keeps {s x : State} (h : Keeps s x) : Keeps s (State.flowWatch x) := by
  unfold State.flowWatch
  with_reducible
    repeat' first
      | assumption | refine Keeps.ite ?_ ?_ | lift_lets
      | (intro y; refine Keeps.cut s y ?_ (fun hy => ?_); (on_goal 1 => subst y); (on_goal 2 => clear_value y)) | intro y
      | exact Keeps.mk_of (by assumption) id id id id (fun _ => id)
      | refine Keeps.mk_of ?_ (by first | exact id | exact Store.wf_write _ _) id id id (fun _ => id)

theorem State.hzReport_keeps {s x : State} (a1 : Nat) (h : Keeps s x) : Keeps s (State.hzReport x a1) := by
  unfold State.hzReport
  with_reducible
    repeat' first
      | assumption | apply State.raise_keeps | refine Keeps.ite ?_ ?_ | lift_lets
      | (intro y; refine Keeps.cut s y ?_ (fun hy => ?_); (on_goal 1 => subst y); (on_goal 2 => clear_value y)) | intro y
      | exact Keeps.mk_of (by assumption) id id id id (fun _ => id)
      | refine Keeps.mk_of ?_ (by first | exact id | exact Store.wf_write _ _) id id id (fun _ => id)

theorem State.logWrite_keeps {s x : State} (a1 : Nat) (a2 : Nat) (a3 : List Byte) (h : Keeps s x) : Keeps s (State.logWrite x a1 a2 a3) := by
  unfold State.logWrite
  with_reducible
    repeat' first
      | assumption | apply State.raise_keeps | apply State.put_keeps | refine Keeps.ite ?_ ?_
      | lift_lets | (intro y; refine Keeps.cut s y ?_ (fun hy => ?_); (on_goal 1 => subst y); (on_goal 2 => clear_value y)) | intro y
      | exact Keeps.mk_of (by assumption) id id id id (fun _ => id)
      | refine Keeps.mk_of ?_ (by first | exact id | exact Store.wf_write _ _) id id id (fun _ => id)

theorem State.hourRecord_keeps {s x : State} (a1 : Bool) (h : Keeps s x) : Keeps s (State.hourRecord x a1) := by
  unfold State.hourRecord
  with_reducible
    repeat' first
      | assumption | apply State.logWrite_keeps | lift_lets
      | (intro y; refine Keeps.cut s y ?_ (fun hy => ?_); (on_goal 1 => subst y); (on_goal 2 => clear_value y)) | intro y
      | exact Keeps.mk_of (by assumption) id id id id (fun _ => id)
      | refine Keeps.mk_of ?_ (by first | exact id | exact Store.wf_write _ _) id id id (fun _ => id)

theorem State.epochRecord_keeps {s x : State} (a1 : Nat) (h : Keeps s x) : Keeps s (State.epochRecord x a1) := by
  unfold State.epochRecord
  with_reducible
    repeat' first
      | assumption | apply State.logWrite_keeps | lift_lets
      | (intro y; refine Keeps.cut s y ?_ (fun hy => ?_); (on_goal 1 => subst y); (on_goal 2 => clear_value y)) | intro y
      | exact Keeps.mk_of (by assumption) id id id id (fun _ => id)
      | refine Keeps.mk_of ?_ (by first | exact id | exact Store.wf_write _ _) id id id (fun _ => id)

theorem State.parkRecord_keeps {s x : State} (h : Keeps s x) : Keeps s (State.parkRecord x) := by
  unfold State.parkRecord
  with_reducible
    repeat' first
      | assumption | apply State.logWrite_keeps | lift_lets
      | (intro y; refine Keeps.cut s y ?_ (fun hy => ?_); (on_goal 1 => subst y); (on_goal 2 => clear_value y)) | intro y
      | exact Keeps.mk_of (by assumption) id id id id (fun _ => id)
      | refine Keeps.mk_of ?_ (by first | exact id | exact Store.wf_write _ _) id id id (fun _ => id)

theorem State.epochStart_keeps {s x : State} (a1 : Nat) (h : Keeps s x) : Keeps s (State.epochStart x a1) := by
  unfold State.epochStart
  with_reducible
    repeat' first
      | assumption | apply State.probeAbandon_keeps | apply State.set_keeps | refine Keeps.ite ?_ ?_
      | lift_lets | (intro y; refine Keeps.cut s y ?_ (fun hy => ?_); (on_goal 1 => subst y); (on_goal 2 => clear_value y)) | intro y
      | exact Keeps.mk_of (by assumption) id id id id (fun _ => id)
      | refine Keeps.mk_of ?_ (by first | exact id | exact Store.wf_write _ _) id id id (fun _ => id)

theorem State.epochDiscard_keeps {s x : State} (h : Keeps s x) : Keeps s (State.epochDiscard x) := by
  unfold State.epochDiscard
  with_reducible
    repeat' first
      | assumption | apply State.raise_keeps | apply State.set_keeps | lift_lets
      | (intro y; refine Keeps.cut s y ?_ (fun hy => ?_); (on_goal 1 => subst y); (on_goal 2 => clear_value y)) | intro y | split
      | exact Keeps.mk_of (by assumption) id id id id (fun _ => id)
      | refine Keeps.mk_of ?_ (by first | exact id | exact Store.wf_write _ _) id id id (fun _ => id)

theorem State.hzHistory_keeps {s x : State} (h : Keeps s x) : Keeps s (State.hzHistory x) := by
  unfold State.hzHistory
  with_reducible
    repeat' first
      | assumption | refine Keeps.foldl _ ?_ (fun y a hy => ?_) | lift_lets
      | (intro y; refine Keeps.cut s y ?_ (fun hy => ?_); (on_goal 1 => subst y); (on_goal 2 => clear_value y)) | intro y | split
      | exact Keeps.mk_of (by assumption) id id id id (fun _ => id)
      | refine Keeps.mk_of ?_ (by first | exact id | exact Store.wf_write _ _) id id id (fun _ => id)

theorem State.hzReportValues_keeps {s x : State} (h : Keeps s x) : Keeps s (State.hzReportValues x) := by
  unfold State.hzReportValues
  with_reducible
    repeat' first
      | assumption | apply State.put_keeps | refine Keeps.foldl _ ?_ (fun y a hy => ?_)
      | refine Keeps.ite ?_ ?_ | refine Keeps.ite_snd ?_ ?_ | refine Keeps.ite_trd ?_ ?_ | refine fun y hy => ?_ | lift_lets
      | (intro y; refine Keeps.cut s y ?_ (fun hy => ?_); (on_goal 1 => subst y); (on_goal 2 => clear_value y)) | intro y | split
      | (refine Keeps.snd_of ?_ (by assumption)) | (refine Keeps.trd_of ?_ (by assumption))
      | exact Keeps.mk_of (by assumption) id id id id (fun _ => id)
      | refine Keeps.mk_of ?_ (by first | exact id | exact Store.wf_write _ _) id id id (fun _ => id)
      | refine Keeps.mk_from ?_ (fun hc => Keeps.words ?_ hc) (fun hc => Keeps.buf ?_ hc) (fun hc => Keeps.inFlight ?_ hc) (fun hc => Keeps.entries ?_ hc) (fun i hl => Keeps.areas ?_ i hl)

theorem State.hzReportMargins_keeps {s x : State} (h : Keeps s x) : Keeps s (State.hzReportMargins x) := by
  unfold State.hzReportMargins
  with_reducible
    repeat' first
      | assumption | apply State.hzReport_keeps | apply State.put_keeps
      | refine Keeps.foldl _ ?_ (fun y a hy => ?_) | lift_lets
      | (intro y; refine Keeps.cut s y ?_ (fun hy => ?_); (on_goal 1 => subst y); (on_goal 2 => clear_value y)) | intro y

theorem State.hzFactors_keeps {s x : State} (h : Keeps s x) : Keeps s (State.hzFactors x) := by
  unfold State.hzFactors
  with_reducible
    repeat' first
      | assumption | apply State.put_keeps | refine Keeps.foldl _ ?_ (fun y a hy => ?_)
      | refine Keeps.ite ?_ ?_ | lift_lets
      | (intro y; refine Keeps.cut s y ?_ (fun hy => ?_); (on_goal 1 => subst y); (on_goal 2 => clear_value y)) | intro y
      | exact Keeps.mk_of (by assumption) id id id id (fun _ => id)
      | refine Keeps.mk_of ?_ (by first | exact id | exact Store.wf_write _ _) id id id (fun _ => id)

theorem State.ceilingBoot_keeps {s x : State} (h : Keeps s x) : Keeps s (State.ceilingBoot x) := by
  unfold State.ceilingBoot
  with_reducible
    repeat' first
      | assumption | lift_lets
      | (intro y; refine Keeps.cut s y ?_ (fun hy => ?_); (on_goal 1 => subst y); (on_goal 2 => clear_value y)) | intro y
      | exact Keeps.mk_of (by assumption) id id id id (fun _ => id)
      | refine Keeps.mk_of ?_ (by first | exact id | exact Store.wf_write _ _) id id id (fun _ => id)

theorem State.syncBar_keeps {s x : State} (a1 : Group) (h : Keeps s x) : Keeps s (State.syncBar x a1) := by
  unfold State.syncBar
  with_reducible
    repeat' first
      | assumption | apply State.raise_keeps | apply State.modG_keeps | refine Keeps.ite ?_ ?_

theorem State.ceilingStart_keeps {s x : State} (h : Keeps s x) : Keeps s (State.ceilingStart x) := by
  unfold State.ceilingStart
  with_reducible
    repeat' first
      | assumption | apply State.syncBar_keeps | apply State.raise_keeps
      | refine Keeps.foldl _ ?_ (fun y a hy => ?_) | refine Keeps.ite ?_ ?_ | lift_lets
      | (intro y; refine Keeps.cut s y ?_ (fun hy => ?_); (on_goal 1 => subst y); (on_goal 2 => clear_value y)) | intro y | split
      | exact Keeps.mk_of (by assumption) id id id id (fun _ => id)
      | refine Keeps.mk_of ?_ (by first | exact id | exact Store.wf_write _ _) id id id (fun _ => id)

theorem State.epochFinish_keeps {s x : State} (a1 : Nat) (h : Keeps s x) : Keeps s (State.epochFinish x a1) := by
  unfold State.epochFinish
  with_reducible
    repeat' first
      | assumption | apply State.ceilingStart_keeps | apply State.hzFactors_keeps
      | apply State.hzReportMargins_keeps | apply State.hzReportValues_keeps | apply State.hzHistory_keeps | apply State.epochRecord_keeps
      | apply State.closeRound_keeps | apply State.count_keeps | apply State.put_keeps | apply State.set_keeps | refine Keeps.ite ?_ ?_
      | lift_lets | (intro y; refine Keeps.cut s y ?_ (fun hy => ?_); (on_goal 1 => subst y); (on_goal 2 => clear_value y)) | intro y
      | split | exact Keeps.mk_of (by assumption) id id id id (fun _ => id)
      | refine Keeps.mk_of ?_ (by first | exact id | exact Store.wf_write _ _) id id id (fun _ => id)

end Sys2Proof.Machine
end

