-- ==== Sys2Proof/Laws/KeepsControlCore.lean ====
section
/-!
SUPPORT. KeepsControlCore.lean: every operation of Machine/ControlCore.lean keeps what Keeps names.
-/
set_option linter.unusedTactic false
set_option linter.unreachableTactic false
set_option linter.unusedVariables false
namespace Sys2Proof.Machine

theorem State.portRaw_keeps {s x : State} (a1 : Nat) (h : Keeps s x) : Keeps s (State.portRaw x a1) := by
  unfold State.portRaw
  with_reducible
    repeat' first
      | assumption | apply State.handoverWord_keeps | apply State.portWord_keeps
      | apply State.commitWords_keeps | refine Keeps.ite ?_ ?_ | lift_lets
      | (intro y; refine Keeps.cut s y ?_ (fun hy => ?_); (on_goal 1 => subst y); (on_goal 2 => clear_value y)) | intro y

theorem execCommit_keeps {s t : State} (h : execCommit s = .next t) : Keeps s t := by
  unfold execCommit at h
  cases h
  have h := Keeps.refl s
  with_reducible
    repeat' first
      | assumption | apply State.logged_keeps | apply State.commitWords_keeps | refine Keeps.ite ?_ ?_
      | refine fun y hy => ?_

theorem execHeartbeat_keeps {s t : State} (h : execHeartbeat s = .next t) : Keeps s t := by
  unfold execHeartbeat at h
  cases h
  have h := Keeps.refl s
  with_reducible
    repeat' first
      | assumption

theorem State.turnOn_keeps {s x : State} (a1 : Nat) (h : Keeps s x) : Keeps s (State.turnOn x a1) := by
  unfold State.turnOn
  with_reducible
    repeat' first
      | assumption | apply State.modP_keeps | refine Keeps.ite ?_ ?_ | lift_lets
      | (intro y; refine Keeps.cut s y ?_ (fun hy => ?_); (on_goal 1 => subst y); (on_goal 2 => clear_value y)) | intro y

theorem execPhaseCycleStart_keeps {s t : State} (a0 : Fin 16) (h : execPhaseCycleStart a0 s = .next t) : Keeps s t := by
  unfold execPhaseCycleStart at h
  cases h
  have h := Keeps.refl s
  with_reducible
    repeat' first
      | assumption | apply State.turnOn_keeps | apply State.coreClearI_keeps | apply State.modP_keeps
      | refine Keeps.ite ?_ ?_ | lift_lets
      | (intro y; refine Keeps.cut s y ?_ (fun hy => ?_); (on_goal 1 => subst y); (on_goal 2 => clear_value y)) | intro y

theorem State.terminate_keeps {s x : State} (a1 : Nat) (h : Keeps s x) : Keeps s (State.terminate x a1) := by
  unfold State.terminate
  with_reducible
    repeat' first
      | assumption | apply State.modP_keeps | refine Keeps.ite ?_ ?_ | lift_lets
      | (intro y; refine Keeps.cut s y ?_ (fun hy => ?_); (on_goal 1 => subst y); (on_goal 2 => clear_value y)) | intro y

theorem execCurrentTermination_keeps {s t : State} (a0 : Fin 16) (a1 : Int) (a2 : Nat) (h : execCurrentTermination a0 a1 a2 s = .next t) : Keeps s t := by
  unfold execCurrentTermination at h
  cases h
  have h := Keeps.refl s
  with_reducible
    repeat' first
      | assumption | apply State.terminate_keeps | apply State.modP_keeps | refine Keeps.ite ?_ ?_
      | lift_lets | (intro y; refine Keeps.cut s y ?_ (fun hy => ?_); (on_goal 1 => subst y); (on_goal 2 => clear_value y)) | intro y

theorem execMaxOnTimeEnd_keeps {s t : State} (a0 : Fin 16) (h : execMaxOnTimeEnd a0 s = .next t) : Keeps s t := by
  unfold execMaxOnTimeEnd at h
  cases h
  have h := Keeps.refl s
  with_reducible
    repeat' first
      | assumption | apply State.terminate_keeps | apply State.modP_keeps | refine Keeps.ite ?_ ?_

theorem State.phaseTick_keeps {s x : State} (a1 : Nat) (h : Keeps s x) : Keeps s (State.phaseTick x a1) := by
  unfold State.phaseTick
  with_reducible
    repeat' first
      | assumption | apply State.modP_keeps | refine Keeps.ite ?_ ?_ | lift_lets
      | (intro y; refine Keeps.cut s y ?_ (fun hy => ?_); (on_goal 1 => subst y); (on_goal 2 => clear_value y)) | intro y

theorem execIsnsZeroMeasurement_keeps {s t : State} (a0 : Fin 16) (a1 : Nat) (h : execIsnsZeroMeasurement a0 a1 s = .next t) : Keeps s t := by
  unfold execIsnsZeroMeasurement at h
  cases h
  have h := Keeps.refl s
  with_reducible
    repeat' first
      | assumption | apply State.zeroMeasured_keeps | apply State.logged_keeps | refine Keeps.ite ?_ ?_
      | refine fun y hy => ?_

theorem State.feedforward_keeps {s x : State} (a1 : Group) (a2 : Int) (h : Keeps s x) : Keeps s (State.feedforward x a1 a2) := by
  unfold State.feedforward
  with_reducible
    repeat' first
      | assumption | apply State.modG_keeps | refine Keeps.ite ?_ ?_ | lift_lets
      | (intro y; refine Keeps.cut s y ?_ (fun hy => ?_); (on_goal 1 => subst y); (on_goal 2 => clear_value y)) | intro y

theorem execFeedforwardUpdate_keeps {s t : State} (a0 : Group) (a1 : Int) (h : execFeedforwardUpdate a0 a1 s = .next t) : Keeps s t := by
  unfold execFeedforwardUpdate at h
  cases h
  have h := Keeps.refl s
  with_reducible
    repeat' first
      | assumption | apply State.feedforward_keeps | refine Keeps.ite ?_ ?_

theorem State.latchPhase_keeps {s x : State} (a1 : Nat) (h : Keeps s x) : Keeps s (State.latchPhase x a1) := by
  unfold State.latchPhase
  with_reducible
    repeat' first
      | assumption | apply State.setChanged_keeps | apply State.modP_keeps | refine Keeps.ite ?_ ?_
      | lift_lets | (intro y; refine Keeps.cut s y ?_ (fun hy => ?_); (on_goal 1 => subst y); (on_goal 2 => clear_value y)) | intro y

theorem State.reportPeak_keeps {s x : State} (a1 : Nat) (h : Keeps s x) : Keeps s (State.reportPeak x a1) := by
  unfold State.reportPeak
  with_reducible
    repeat' first
      | assumption | apply State.ev_keeps | apply State.again_keeps | apply State.coreRaiseC_keeps
      | apply State.coreSend_keeps | apply State.modP_keeps | refine Keeps.ite ?_ ?_ | lift_lets
      | (intro y; refine Keeps.cut s y ?_ (fun hy => ?_); (on_goal 1 => subst y); (on_goal 2 => clear_value y)) | intro y

theorem State.phasePeak_keeps {s x : State} (a1 : Nat) (h : Keeps s x) : Keeps s (State.phasePeak x a1) := by
  unfold State.phasePeak
  with_reducible
    repeat' first
      | assumption | apply State.reportPeak_keeps | apply State.latchPhase_keeps
      | apply State.coreRaiseC_keeps | apply State.modP_keeps | refine Keeps.ite ?_ ?_ | lift_lets
      | (intro y; refine Keeps.cut s y ?_ (fun hy => ?_); (on_goal 1 => subst y); (on_goal 2 => clear_value y)) | intro y

theorem execPhasePeak_keeps {s t : State} (a0 : Fin 16) (h : execPhasePeak a0 s = .next t) : Keeps s t := by
  unfold execPhasePeak at h
  cases h
  have h := Keeps.refl s
  with_reducible
    repeat' first
      | assumption | apply State.phasePeak_keeps | apply State.logged_keeps | refine Keeps.ite ?_ ?_
      | refine fun y hy => ?_

theorem execStageFault_keeps {s t : State} (a0 : Fin 16) (h : execStageFault a0 s = .next t) : Keeps s t := by
  unfold execStageFault at h
  cases h
  have h := Keeps.refl s
  with_reducible
    repeat' first
      | assumption | apply State.latchPhase_keeps | apply State.logged_keeps
      | apply State.coreRaiseC_keeps | refine Keeps.ite ?_ ?_ | refine fun y hy => ?_

theorem execRailOv_keeps {s t : State} (h : execRailOv s = .next t) : Keeps s t := by
  unfold execRailOv at h
  cases h
  have h := Keeps.refl s
  with_reducible
    repeat' first
      | assumption | apply State.logged_keeps | apply State.coreRaiseC_keeps | apply State.stopG_keeps
      | apply State.modPs_keeps | refine Keeps.foldl _ ?_ (fun y a hy => ?_) | refine Keeps.ite ?_ ?_ | refine Keeps.ite_snd ?_ ?_
      | refine Keeps.ite_trd ?_ ?_ | refine fun y hy => ?_ | lift_lets
      | (intro y; refine Keeps.cut s y ?_ (fun hy => ?_); (on_goal 1 => subst y); (on_goal 2 => clear_value y)) | intro y | split
      | (refine Keeps.snd_of ?_ (by assumption)) | (refine Keeps.trd_of ?_ (by assumption))
      | exact Keeps.mk_of (by assumption) id id id id (fun _ => id)
      | refine Keeps.mk_of ?_ (by first | exact id | exact Store.wf_write _ _) id id id (fun _ => id)
      | refine Keeps.mk_from ?_ (fun hc => Keeps.words ?_ hc) (fun hc => Keeps.buf ?_ hc) (fun hc => Keeps.inFlight ?_ hc) (fun hc => Keeps.entries ?_ hc) (fun i hl => Keeps.areas ?_ i hl)

theorem execRailOvPersist_keeps {s t : State} (h : execRailOvPersist s = .next t) : Keeps s t := by
  unfold execRailOvPersist at h
  cases h
  have h := Keeps.refl s
  with_reducible
    repeat' first
      | assumption | apply State.logged_keeps | apply State.gateOpen_keeps
      | apply State.coreRaiseC_keeps | refine Keeps.ite ?_ ?_ | refine fun y hy => ?_ | lift_lets
      | (intro y; refine Keeps.cut s y ?_ (fun hy => ?_); (on_goal 1 => subst y); (on_goal 2 => clear_value y)) | intro y
      | exact Keeps.mk_of (by assumption) id id id id (fun _ => id)
      | refine Keeps.mk_of ?_ (by first | exact id | exact Store.wf_write _ _) id id id (fun _ => id)

theorem State.railFree_keeps {s x : State} (h : Keeps s x) : Keeps s (State.railFree x) := by
  unfold State.railFree
  with_reducible
    repeat' first
      | assumption | apply State.modG_keeps | refine Keeps.foldl _ ?_ (fun y a hy => ?_)
      | refine Keeps.ite ?_ ?_

theorem execRailOvRelease_keeps {s t : State} (a0 : Bool) (a1 : Nat) (a2 : Nat) (h : execRailOvRelease a0 a1 a2 s = .next t) : Keeps s t := by
  unfold execRailOvRelease at h
  cases h
  have h := Keeps.refl s
  with_reducible
    repeat' first
      | assumption | apply State.railFree_keeps | apply State.logged_keeps | apply State.gateBack_keeps
      | apply State.coreClearK_keeps | apply State.freeG_keeps | refine Keeps.foldl _ ?_ (fun y a hy => ?_) | refine Keeps.ite ?_ ?_
      | refine Keeps.ite_snd ?_ ?_ | refine Keeps.ite_trd ?_ ?_ | refine fun y hy => ?_ | lift_lets
      | (intro y; refine Keeps.cut s y ?_ (fun hy => ?_); (on_goal 1 => subst y); (on_goal 2 => clear_value y)) | intro y | split
      | (refine Keeps.snd_of ?_ (by assumption)) | (refine Keeps.trd_of ?_ (by assumption))
      | exact Keeps.mk_of (by assumption) id id id id (fun _ => id)
      | refine Keeps.mk_of ?_ (by first | exact id | exact Store.wf_write _ _) id id id (fun _ => id)
      | refine Keeps.mk_from ?_ (fun hc => Keeps.words ?_ hc) (fun hc => Keeps.buf ?_ hc) (fun hc => Keeps.inFlight ?_ hc) (fun hc => Keeps.entries ?_ hc) (fun i hl => Keeps.areas ?_ i hl)

theorem execServoUnlock_keeps {s t : State} (a0 : Group) (h : execServoUnlock a0 s = .next t) : Keeps s t := by
  unfold execServoUnlock at h
  cases h
  have h := Keeps.refl s
  with_reducible
    repeat' first
      | assumption | apply State.coreRaiseC_keeps | apply State.modG_keeps | refine Keeps.ite ?_ ?_

theorem execServoRelock_keeps {s t : State} (a0 : Group) (h : execServoRelock a0 s = .next t) : Keeps s t := by
  unfold execServoRelock at h
  cases h
  have h := Keeps.refl s
  with_reducible
    repeat' first
      | assumption | apply State.coreClearI_keeps | apply State.modG_keeps | refine Keeps.ite ?_ ?_

theorem State.speedKind_keeps {s x : State} (a1 : Nat) (a2 : Nat) (a3 : Run) (h : Keeps s x) : Keeps s (State.speedKind x a1 a2 a3) := by
  unfold State.speedKind
  with_reducible
    repeat' first
      | assumption | apply State.clearK_keeps | apply State.raise1_keeps | refine Keeps.ite ?_ ?_

theorem State.speedUpdate_keeps {s x : State} (a1 : Nat) (h : Keeps s x) : Keeps s (State.speedUpdate x a1) := by
  unfold State.speedUpdate
  with_reducible
    repeat' first
      | assumption | apply State.speedKind_keeps | apply State.put_keeps | apply State.set_keeps
      | refine Keeps.ite ?_ ?_ | lift_lets
      | (intro y; refine Keeps.cut s y ?_ (fun hy => ?_); (on_goal 1 => subst y); (on_goal 2 => clear_value y)) | intro y
      | exact Keeps.mk_of (by assumption) id id id id (fun _ => id)
      | refine Keeps.mk_of ?_ (by first | exact id | exact Store.wf_write _ _) id id id (fun _ => id)

theorem execCoreSpeedUpdate_keeps {s t : State} (a0 : Nat) (h : execCoreSpeedUpdate a0 s = .next t) : Keeps s t := by
  unfold execCoreSpeedUpdate at h
  cases h
  have h := Keeps.refl s
  with_reducible
    repeat' first
      | assumption | apply State.speedUpdate_keeps | apply State.hzSpeed_keeps | refine Keeps.ite ?_ ?_

theorem execBalancingUpdate_keeps {s t : State} (a0 : Group) (a1 : List Int) (h : execBalancingUpdate a0 a1 s = .next t) : Keeps s t := by
  unfold execBalancingUpdate at h
  cases h
  have h := Keeps.refl s
  with_reducible
    repeat' first
      | assumption | apply State.hzTrim_keeps | apply State.balance_keeps | refine Keeps.ite ?_ ?_

end Sys2Proof.Machine
end

