-- ==== Sys2Proof/Laws/KeepsGrantOps.lean ====
section
/-!
SUPPORT. KeepsGrantOps.lean: every operation of Machine/GrantOps.lean keeps what Keeps names.
-/
set_option linter.unusedTactic false
set_option linter.unreachableTactic false
set_option linter.unusedVariables false
namespace Sys2Proof.Machine

theorem State.demandNow_keeps {s x : State} (h : Keeps s x) : Keeps s (State.demandNow x) := by
  unfold State.demandNow
  with_reducible
    repeat' first
      | assumption | apply State.put_keeps | apply State.set_keeps
      | refine Keeps.foldl _ ?_ (fun y a hy => ?_) | refine Keeps.ite ?_ ?_ | lift_lets
      | (intro y; refine Keeps.cut s y ?_ (fun hy => ?_); (on_goal 1 => subst y); (on_goal 2 => clear_value y)) | intro y

theorem State.raiseEntries_keeps {s x : State} (p f d n : Nat) (h : Keeps s x) : Keeps s (x.raiseEntries p f d n) := by
  induction n generalizing x with
  | zero => exact h
  | succ n ih => exact ih (Keeps.mk_of h id id id id (fun _ => id))

theorem State.clearPair_keeps {s x : State} (a1 : Nat) (h : Keeps s x) : Keeps s (State.clearPair x a1) := by
  unfold State.clearPair
  with_reducible
    repeat' first
      | assumption | lift_lets
      | (intro y; refine Keeps.cut s y ?_ (fun hy => ?_); (on_goal 1 => subst y); (on_goal 2 => clear_value y)) | intro y
      | exact Keeps.mk_of (by assumption) id id id id (fun _ => id)
      | refine Keeps.mk_of ?_ (by first | exact id | exact Store.wf_write _ _) id id id (fun _ => id)

theorem State.allocate_keeps {s x : State} (a1 : Nat) (h : Keeps s x) : Keeps s (State.allocate x a1) := by
  unfold State.allocate
  with_reducible
    repeat' first
      | assumption | apply State.feedforward_keeps | apply State.railDisturbed_keeps
      | refine Keeps.ite ?_ ?_ | lift_lets
      | (intro y; refine Keeps.cut s y ?_ (fun hy => ?_); (on_goal 1 => subst y); (on_goal 2 => clear_value y)) | intro y
      | exact Keeps.mk_of (by assumption) id id id id (fun _ => id)
      | refine Keeps.mk_of ?_ (by first | exact id | exact Store.wf_write _ _) id id id (fun _ => id)

theorem State.release_keeps {s x : State} (h : Keeps s x) : Keeps s (State.release x) := by
  unfold State.release
  with_reducible
    repeat' first
      | assumption | apply State.allocate_keeps | refine Keeps.ite ?_ ?_ | lift_lets
      | (intro y; refine Keeps.cut s y ?_ (fun hy => ?_); (on_goal 1 => subst y); (on_goal 2 => clear_value y)) | intro y
      | exact Keeps.mk_of (by assumption) id id id id (fun _ => id)
      | refine Keeps.mk_of ?_ (by first | exact id | exact Store.wf_write _ _) id id id (fun _ => id)

theorem State.releaseIfNew_keeps {s x : State} (h : Keeps s x) : Keeps s (State.releaseIfNew x) := by
  unfold State.releaseIfNew
  with_reducible
    repeat' first
      | assumption | apply State.allocate_keeps | refine Keeps.ite ?_ ?_ | lift_lets
      | (intro y; refine Keeps.cut s y ?_ (fun hy => ?_); (on_goal 1 => subst y); (on_goal 2 => clear_value y)) | intro y

theorem State.grantTerms_keeps {s x : State} (h : Keeps s x) : Keeps s (State.grantTerms x) := by
  unfold State.grantTerms
  with_reducible
    repeat' first
      | assumption | apply State.set_keeps | lift_lets
      | (intro y; refine Keeps.cut s y ?_ (fun hy => ?_); (on_goal 1 => subst y); (on_goal 2 => clear_value y)) | intro y

theorem State.tallyN_keeps {s x : State} (a1 : Nat) (a2 : Nat) (h : Keeps s x) : Keeps s (State.tallyN x a1 a2) := by
  unfold State.tallyN
  with_reducible
    repeat' first
      | assumption | apply State.set_keeps

theorem State.grantCompute_keeps {s x : State} (h : Keeps s x) : Keeps s (State.grantCompute x) := by
  unfold State.grantCompute
  with_reducible
    repeat' first
      | assumption | apply State.tallyN_keeps | apply State.grantTerms_keeps | apply State.set_keeps
      | lift_lets | (intro y; refine Keeps.cut s y ?_ (fun hy => ?_); (on_goal 1 => subst y); (on_goal 2 => clear_value y)) | intro y
      | exact Keeps.mk_of (by assumption) id id id id (fun _ => id)
      | refine Keeps.mk_of ?_ (by first | exact id | exact Store.wf_write _ _) id id id (fun _ => id)

theorem State.sourceLoss_keeps {s x : State} (a1 : Nat) (h : Keeps s x) : Keeps s (State.sourceLoss x a1) := by
  unfold State.sourceLoss
  with_reducible
    repeat' first
      | assumption | apply State.raise_keeps | apply State.count_keeps | refine Keeps.ite ?_ ?_
      | lift_lets | (intro y; refine Keeps.cut s y ?_ (fun hy => ?_); (on_goal 1 => subst y); (on_goal 2 => clear_value y)) | intro y
      | exact Keeps.mk_of (by assumption) id id id id (fun _ => id)
      | refine Keeps.mk_of ?_ (by first | exact id | exact Store.wf_write _ _) id id id (fun _ => id)

end Sys2Proof.Machine
end

