-- ==== Sys2Proof/Laws/KeepsChargeOps.lean ====
section
/-!
SUPPORT. KeepsChargeOps.lean: every operation of Machine/ChargeOps.lean keeps what Keeps names.
-/
set_option linter.unusedTactic false
set_option linter.unreachableTactic false
set_option linter.unusedVariables false
namespace Sys2Proof.Machine

theorem State.chgBit_keeps {s x : State} (a1 : Nat) (h : Keeps s x) : Keeps s (State.chgBit x a1) := by
  unfold State.chgBit
  with_reducible
    repeat' first
      | assumption | apply State.put_keeps | refine Keeps.ite ?_ ?_ | lift_lets
      | (intro y; refine Keeps.cut s y ?_ (fun hy => ?_); (on_goal 1 => subst y); (on_goal 2 => clear_value y)) | intro y
      | exact Keeps.mk_of (by assumption) id id id id (fun _ => id)
      | refine Keeps.mk_of ?_ (by first | exact id | exact Store.wf_write _ _) id id id (fun _ => id)

theorem State.chgEvent_keeps {s x : State} (a1 : Nat) (a2 : Nat) (a3 : Nat) (a4 : Nat) (h : Keeps s x) : Keeps s (State.chgEvent x a1 a2 a3 a4) := by
  unfold State.chgEvent
  with_reducible
    repeat' first
      | assumption | apply State.chgBit_keeps | apply State.raise_keeps

theorem State.chgCond_keeps {s x : State} (a1 : Nat) (a2 : Nat) (a3 : Nat) (a4 : Nat) (a5 : Bool) (h : Keeps s x) : Keeps s (State.chgCond x a1 a2 a3 a4 a5) := by
  unfold State.chgCond
  with_reducible
    repeat' first
      | assumption | apply State.chgBit_keeps | apply State.clearK_keeps | apply State.raise1_keeps
      | refine Keeps.ite ?_ ?_

theorem State.writeChg_keeps {s x : State} (a1 : Nat) (h : Keeps s x) : Keeps s (State.writeChg x a1) := by
  unfold State.writeChg
  with_reducible
    repeat' first
      | assumption | apply State.portIfNew_keeps | apply State.set_keeps

theorem State.zeroBoth_keeps {s x : State} (h : Keeps s x) : Keeps s (State.zeroBoth x) := by
  unfold State.zeroBoth
  with_reducible
    repeat' first
      | assumption | apply State.portWrite_keeps | apply State.set_keeps | refine Keeps.ite ?_ ?_
      | lift_lets | (intro y; refine Keeps.cut s y ?_ (fun hy => ?_); (on_goal 1 => subst y); (on_goal 2 => clear_value y)) | intro y

theorem State.ntcStep_keeps {s x : State} (a1 : Nat) (h : Keeps s x) : Keeps s (State.ntcStep x a1) := by
  unfold State.ntcStep
  with_reducible
    repeat' first
      | assumption | apply State.chgEvent_keeps | apply State.chgBit_keeps | apply State.set_keeps
      | refine Keeps.ite ?_ ?_ | lift_lets
      | (intro y; refine Keeps.cut s y ?_ (fun hy => ?_); (on_goal 1 => subst y); (on_goal 2 => clear_value y)) | intro y
      | exact Keeps.mk_of (by assumption) id id id id (fun _ => id)
      | refine Keeps.mk_of ?_ (by first | exact id | exact Store.wf_write _ _) id id id (fun _ => id)

theorem State.zoneUpdate_keeps {s x : State} (h : Keeps s x) : Keeps s (State.zoneUpdate x) := by
  unfold State.zoneUpdate
  with_reducible
    repeat' first
      | assumption | apply State.ntcStep_keeps | apply State.chgEvent_keeps | apply State.chgBit_keeps
      | apply State.set_keeps | refine Keeps.foldl _ ?_ (fun y a hy => ?_) | refine Keeps.ite ?_ ?_ | lift_lets
      | (intro y; refine Keeps.cut s y ?_ (fun hy => ?_); (on_goal 1 => subst y); (on_goal 2 => clear_value y)) | intro y | split
      | exact Keeps.mk_of (by assumption) id id id id (fun _ => id)
      | refine Keeps.mk_of ?_ (by first | exact id | exact Store.wf_write _ _) id id id (fun _ => id)

theorem State.setSoc_keeps {s x : State} (a1 : Nat) (a2 : Nat) (h : Keeps s x) : Keeps s (State.setSoc x a1 a2) := by
  unfold State.setSoc
  with_reducible
    repeat' first
      | assumption | apply State.put_keeps | apply State.set_keeps | lift_lets
      | (intro y; refine Keeps.cut s y ?_ (fun hy => ?_); (on_goal 1 => subst y); (on_goal 2 => clear_value y)) | intro y
      | exact Keeps.mk_of (by assumption) id id id id (fun _ => id)
      | refine Keeps.mk_of ?_ (by first | exact id | exact Store.wf_write _ _) id id id (fun _ => id)

theorem State.coulomb_keeps {s x : State} (a1 : Nat) (h : Keeps s x) : Keeps s (State.coulomb x a1) := by
  unfold State.coulomb
  with_reducible
    repeat' first
      | assumption | apply State.put_keeps | apply State.set_keeps | refine Keeps.ite ?_ ?_ | lift_lets
      | (intro y; refine Keeps.cut s y ?_ (fun hy => ?_); (on_goal 1 => subst y); (on_goal 2 => clear_value y)) | intro y
      | exact Keeps.mk_of (by assumption) id id id id (fun _ => id)
      | refine Keeps.mk_of ?_ (by first | exact id | exact Store.wf_write _ _) id id id (fun _ => id)

theorem State.anchor_keeps {s x : State} (a1 : Nat) (h : Keeps s x) : Keeps s (State.anchor x a1) := by
  unfold State.anchor
  with_reducible
    repeat' first
      | assumption | refine Keeps.ite ?_ ?_ | lift_lets
      | (intro y; refine Keeps.cut s y ?_ (fun hy => ?_); (on_goal 1 => subst y); (on_goal 2 => clear_value y)) | intro y | split
      | exact Keeps.mk_of (by assumption) id id id id (fun _ => id)
      | refine Keeps.mk_of ?_ (by first | exact id | exact Store.wf_write _ _) id id id (fun _ => id)

theorem State.cellReport_keeps {s x : State} (h : Keeps s x) : Keeps s (State.cellReport x) := by
  unfold State.cellReport
  with_reducible
    repeat' first
      | assumption | apply State.setI_keeps | apply State.set_keeps
      | refine Keeps.foldl _ ?_ (fun y a hy => ?_) | refine Keeps.ite ?_ ?_ | lift_lets
      | (intro y; refine Keeps.cut s y ?_ (fun hy => ?_); (on_goal 1 => subst y); (on_goal 2 => clear_value y)) | intro y

theorem State.cutoff_keeps {s x : State} (h : Keeps s x) : Keeps s (State.cutoff x) := by
  unfold State.cutoff
  with_reducible
    repeat' first
      | assumption | apply State.setSoc_keeps | apply State.chgCond_keeps | apply State.chgBit_keeps
      | apply State.portIfNew_keeps | apply State.set_keeps | refine Keeps.ite ?_ ?_

theorem State.cellScan_keeps {s x : State} (h : Keeps s x) : Keeps s (State.cellScan x) := by
  unfold State.cellScan
  with_reducible
    repeat' first
      | assumption | apply State.cutoff_keeps | apply State.cellReport_keeps | refine Keeps.ite ?_ ?_
      | lift_lets | (intro y; refine Keeps.cut s y ?_ (fun hy => ?_); (on_goal 1 => subst y); (on_goal 2 => clear_value y)) | intro y
      | exact Keeps.mk_of (by assumption) id id id id (fun _ => id)
      | refine Keeps.mk_of ?_ (by first | exact id | exact Store.wf_write _ _) id id id (fun _ => id)

theorem State.ocvCorrect_keeps {s x : State} (h : Keeps s x) : Keeps s (State.ocvCorrect x) := by
  unfold State.ocvCorrect
  with_reducible
    repeat' first
      | assumption | apply State.anchor_keeps | apply State.setSoc_keeps | refine Keeps.ite ?_ ?_
      | split

theorem State.chgEnter_keeps {s x : State} (a1 : Nat) (a2 : Nat) (h : Keeps s x) : Keeps s (State.chgEnter x a1 a2) := by
  unfold State.chgEnter
  with_reducible
    repeat' first
      | assumption | apply State.set_keeps | refine Keeps.ite ?_ ?_ | lift_lets
      | (intro y; refine Keeps.cut s y ?_ (fun hy => ?_); (on_goal 1 => subst y); (on_goal 2 => clear_value y)) | intro y
      | exact Keeps.mk_of (by assumption) id id id id (fun _ => id)
      | refine Keeps.mk_of ?_ (by first | exact id | exact Store.wf_write _ _) id id id (fun _ => id)

theorem State.newCycle_keeps {s x : State} (h : Keeps s x) : Keeps s (State.newCycle x) := by
  unfold State.newCycle
  with_reducible
    repeat' first
      | assumption | apply State.set_keeps | lift_lets
      | (intro y; refine Keeps.cut s y ?_ (fun hy => ?_); (on_goal 1 => subst y); (on_goal 2 => clear_value y)) | intro y
      | exact Keeps.mk_of (by assumption) id id id id (fun _ => id)
      | refine Keeps.mk_of ?_ (by first | exact id | exact Store.wf_write _ _) id id id (fun _ => id)

theorem State.select_keeps {s x : State} (h : Keeps s x) : Keeps s (State.select x) := by
  unfold State.select
  with_reducible
    repeat' first
      | assumption | apply State.newCycle_keeps | apply State.chgEnter_keeps | refine Keeps.ite ?_ ?_
      | lift_lets | (intro y; refine Keeps.cut s y ?_ (fun hy => ?_); (on_goal 1 => subst y); (on_goal 2 => clear_value y)) | intro y
      | split | exact Keeps.mk_of (by assumption) id id id id (fun _ => id)
      | refine Keeps.mk_of ?_ (by first | exact id | exact Store.wf_write _ _) id id id (fun _ => id)

theorem State.selectOrHold_keeps {s x : State} (h : Keeps s x) : Keeps s (State.selectOrHold x) := by
  unfold State.selectOrHold
  with_reducible
    repeat' first
      | assumption | apply State.select_keeps | apply State.chgEnter_keeps | refine Keeps.ite ?_ ?_

theorem State.chgStep_keeps {s x : State} (h : Keeps s x) : Keeps s (State.chgStep x) := by
  unfold State.chgStep
  with_reducible
    repeat' first
      | assumption | apply State.selectOrHold_keeps | apply State.select_keeps
      | apply State.chgEnter_keeps | refine Keeps.ite ?_ ?_ | lift_lets
      | (intro y; refine Keeps.cut s y ?_ (fun hy => ?_); (on_goal 1 => subst y); (on_goal 2 => clear_value y)) | intro y
      | exact Keeps.mk_of (by assumption) id id id id (fun _ => id)
      | refine Keeps.mk_of ?_ (by first | exact id | exact Store.wf_write _ _) id id id (fun _ => id)

theorem State.schedStep_keeps {s x : State} (h : Keeps s x) : Keeps s (State.schedStep x) := by
  unfold State.schedStep
  with_reducible
    repeat' first
      | assumption | refine Keeps.ite ?_ ?_ | lift_lets
      | (intro y; refine Keeps.cut s y ?_ (fun hy => ?_); (on_goal 1 => subst y); (on_goal 2 => clear_value y)) | intro y
      | exact Keeps.mk_of (by assumption) id id id id (fun _ => id)
      | refine Keeps.mk_of ?_ (by first | exact id | exact Store.wf_write _ _) id id id (fun _ => id)

theorem State.chgWrite_keeps {s x : State} (a1 : Bool) (h : Keeps s x) : Keeps s (State.chgWrite x a1) := by
  unfold State.chgWrite
  with_reducible
    repeat' first
      | assumption | apply State.writeChg_keeps | apply State.portIfNew_keeps | apply State.set_keeps
      | refine Keeps.ite ?_ ?_ | lift_lets
      | (intro y; refine Keeps.cut s y ?_ (fun hy => ?_); (on_goal 1 => subst y); (on_goal 2 => clear_value y)) | intro y

theorem State.chgFault_keeps {s x : State} (h : Keeps s x) : Keeps s (State.chgFault x) := by
  unfold State.chgFault
  with_reducible
    repeat' first
      | assumption | apply State.chgEnter_keeps | apply State.writeChg_keeps

theorem State.zoneHold_keeps {s x : State} (h : Keeps s x) : Keeps s (State.zoneHold x) := by
  unfold State.zoneHold
  with_reducible
    repeat' first
      | assumption | apply State.chgCond_keeps | apply State.chgBit_keeps | apply State.clearK_keeps
      | refine Keeps.ite ?_ ?_ | lift_lets
      | (intro y; refine Keeps.cut s y ?_ (fun hy => ?_); (on_goal 1 => subst y); (on_goal 2 => clear_value y)) | intro y

theorem State.overvolt_keeps {s x : State} (h : Keeps s x) : Keeps s (State.overvolt x) := by
  unfold State.overvolt
  with_reducible
    repeat' first
      | assumption | apply State.chgFault_keeps | apply State.chgEvent_keeps | refine Keeps.ite ?_ ?_
      | lift_lets | (intro y; refine Keeps.cut s y ?_ (fun hy => ?_); (on_goal 1 => subst y); (on_goal 2 => clear_value y)) | intro y

theorem State.chgEvaluate_keeps {s x : State} (h : Keeps s x) : Keeps s (State.chgEvaluate x) := by
  unfold State.chgEvaluate
  with_reducible
    repeat' first
      | assumption | apply State.overvolt_keeps | apply State.zoneHold_keeps
      | apply State.chgWrite_keeps | apply State.schedStep_keeps | apply State.chgStep_keeps | apply State.chgEnter_keeps
      | apply State.chgCond_keeps | apply State.set_keeps | refine Keeps.ite ?_ ?_ | lift_lets
      | (intro y; refine Keeps.cut s y ?_ (fun hy => ?_); (on_goal 1 => subst y); (on_goal 2 => clear_value y)) | intro y

theorem State.chgModeChange_keeps {s x : State} (h : Keeps s x) : Keeps s (State.chgModeChange x) := by
  unfold State.chgModeChange
  with_reducible
    repeat' first
      | assumption | apply State.chgEnter_keeps | apply State.writeChg_keeps | refine Keeps.ite ?_ ?_
      | lift_lets | (intro y; refine Keeps.cut s y ?_ (fun hy => ?_); (on_goal 1 => subst y); (on_goal 2 => clear_value y)) | intro y

theorem State.balOff_keeps {s x : State} (h : Keeps s x) : Keeps s (State.balOff x) := by
  unfold State.balOff
  with_reducible
    repeat' first
      | assumption | apply State.set_keeps | lift_lets
      | (intro y; refine Keeps.cut s y ?_ (fun hy => ?_); (on_goal 1 => subst y); (on_goal 2 => clear_value y)) | intro y
      | exact Keeps.mk_of (by assumption) id id id id (fun _ => id)
      | refine Keeps.mk_of ?_ (by first | exact id | exact Store.wf_write _ _) id id id (fun _ => id)

theorem State.balFrame_keeps {s x : State} (h : Keeps s x) : Keeps s (State.balFrame x) := by
  unfold State.balFrame
  with_reducible
    repeat' first
      | assumption | apply State.balOff_keeps | apply State.set_keeps | refine Keeps.ite ?_ ?_
      | lift_lets | (intro y; refine Keeps.cut s y ?_ (fun hy => ?_); (on_goal 1 => subst y); (on_goal 2 => clear_value y)) | intro y
      | exact Keeps.mk_of (by assumption) id id id id (fun _ => id)
      | refine Keeps.mk_of ?_ (by first | exact id | exact Store.wf_write _ _) id id id (fun _ => id)

theorem State.packGone_keeps {s x : State} (h : Keeps s x) : Keeps s (State.packGone x) := by
  unfold State.packGone
  with_reducible
    repeat' first
      | assumption | apply State.chgEnter_keeps | apply State.zeroBoth_keeps | apply State.clearK_keeps
      | apply State.set_keeps | refine Keeps.ite ?_ ?_ | lift_lets
      | (intro y; refine Keeps.cut s y ?_ (fun hy => ?_); (on_goal 1 => subst y); (on_goal 2 => clear_value y)) | intro y
      | exact Keeps.mk_of (by assumption) id id id id (fun _ => id)
      | refine Keeps.mk_of ?_ (by first | exact id | exact Store.wf_write _ _) id id id (fun _ => id)

theorem State.packInit_keeps {s x : State} (h : Keeps s x) : Keeps s (State.packInit x) := by
  unfold State.packInit
  with_reducible
    repeat' first
      | assumption | apply State.put_keeps | refine Keeps.ite ?_ ?_

theorem State.packFirst_keeps {s x : State} (h : Keeps s x) : Keeps s (State.packFirst x) := by
  unfold State.packFirst
  with_reducible
    repeat' first
      | assumption | apply State.packInit_keeps | refine Keeps.ite ?_ ?_

theorem State.newPack_keeps {s x : State} (h : Keeps s x) : Keeps s (State.newPack x) := by
  unfold State.newPack
  with_reducible
    repeat' first
      | assumption | apply State.packInit_keeps | apply State.newCycle_keeps
      | apply State.chgEnter_keeps | apply State.hzClear_keeps | refine Keeps.ite ?_ ?_ | lift_lets
      | (intro y; refine Keeps.cut s y ?_ (fun hy => ?_); (on_goal 1 => subst y); (on_goal 2 => clear_value y)) | intro y
      | exact Keeps.mk_of (by assumption) id id id id (fun _ => id)
      | refine Keeps.mk_of ?_ (by first | exact id | exact Store.wf_write _ _) id id id (fun _ => id)

end Sys2Proof.Machine
end

