-- ==== Sys2Proof/Laws/KeepsLinkOps.lean ====
section
/-!
SUPPORT. KeepsLinkOps.lean: every operation of Machine/LinkOps.lean keeps what Keeps names.
-/
set_option linter.unusedTactic false
set_option linter.unreachableTactic false
set_option linter.unusedVariables false
namespace Sys2Proof.Machine

theorem State.ordering_keeps {s x : State} (h : Keeps s x) : Keeps s (State.ordering x) := by
  unfold State.ordering
  with_reducible
    repeat' first
      | assumption | apply State.set_keeps | refine Keeps.ite ?_ ?_ | lift_lets
      | (intro y; refine Keeps.cut s y ?_ (fun hy => ?_); (on_goal 1 => subst y); (on_goal 2 => clear_value y)) | intro y

theorem State.modFab_keeps {s x : State} (a1 : Port) (a2 : FabPort → FabPort) (h : Keeps s x) : Keeps s (State.modFab x a1 a2) := by
  unfold State.modFab
  with_reducible
    repeat' first
      | assumption | lift_lets
      | (intro y; refine Keeps.cut s y ?_ (fun hy => ?_); (on_goal 1 => subst y); (on_goal 2 => clear_value y)) | intro y
      | exact Keeps.mk_of (by assumption) id id id id (fun _ => id)
      | refine Keeps.mk_of ?_ (by first | exact id | exact Store.wf_write _ _) id id id (fun _ => id)

theorem State.fabQueue_keeps {s x : State} (a1 : Port) (a2 : Nat) (a3 : Frame) (h : Keeps s x) : Keeps s (State.fabQueue x a1 a2 a3) := by
  unfold State.fabQueue
  with_reducible
    repeat' first
      | assumption | apply State.modFab_keeps | apply State.raise_keeps | apply State.tally_keeps
      | refine Keeps.ite ?_ ?_ | lift_lets
      | (intro y; refine Keeps.cut s y ?_ (fun hy => ?_); (on_goal 1 => subst y); (on_goal 2 => clear_value y)) | intro y

theorem State.fabSeq_keeps {s x : State} (a1 : Frame) (h : Keeps s x) : Keeps s (State.fabSeq x a1).2 := by
  unfold State.fabSeq
  with_reducible
    repeat' first
      | assumption | lift_lets
      | (intro y; refine Keeps.cut s y ?_ (fun hy => ?_); (on_goal 1 => subst y); (on_goal 2 => clear_value y)) | intro y | split
      | (refine Keeps.snd_of ?_ (by assumption)) | (refine Keeps.trd_of ?_ (by assumption))
      | exact Keeps.mk_of (by assumption) id id id id (fun _ => id)
      | refine Keeps.mk_of ?_ (by first | exact id | exact Store.wf_write _ _) id id id (fun _ => id)

theorem State.fabLocal_keeps {s x : State} (a1 : Port) (a2 : Nat) (a3 : Frame) (h : Keeps s x) : Keeps s (State.fabLocal x a1 a2 a3) := by
  unfold State.fabLocal
  with_reducible
    repeat' first
      | assumption | apply State.fabSeq_keeps | apply State.fabQueue_keeps | split
      | (refine Keeps.snd_of ?_ (by assumption)) | (refine Keeps.trd_of ?_ (by assumption))

theorem State.modL_keeps {s x : State} (a1 : Port) (a2 : LinkPort → LinkPort) (h : Keeps s x) : Keeps s (State.modL x a1 a2) := by
  unfold State.modL
  with_reducible
    repeat' first
      | assumption | exact Keeps.mk_of (by assumption) id id id id (fun _ => id)
      | refine Keeps.mk_of ?_ (by first | exact id | exact Store.wf_write _ _) id id id (fun _ => id)

theorem State.linkStat_keeps {s x : State} (a1 : Port) (a2 : Nat) (h : Keeps s x) : Keeps s (State.linkStat x a1 a2) := by
  unfold State.linkStat
  with_reducible
    repeat' first
      | assumption | apply State.count_keeps | split

theorem State.moistObj_keeps {s x : State} (a1 : Port) (h : Keeps s x) : Keeps s (State.moistObj x a1) := by
  unfold State.moistObj
  with_reducible
    repeat' first
      | assumption | apply State.set_keeps

theorem State.sendPay_keeps {s x : State} (a1 : Port) (a2 : List Byte) (h : Keeps s x) : Keeps s (State.sendPay x a1 a2) := by
  unfold State.sendPay
  with_reducible
    repeat' first
      | assumption | apply State.modL_keeps | apply State.fabLocal_keeps | refine Keeps.ite ?_ ?_
      | lift_lets | (intro y; refine Keeps.cut s y ?_ (fun hy => ?_); (on_goal 1 => subst y); (on_goal 2 => clear_value y)) | intro y

theorem State.sendMsg_keeps {s x : State} (a1 : Port) (a2 : Nat) (a3 : List Byte) (a4 : Bool) (h : Keeps s x) : Keeps s (State.sendMsg x a1 a2 a3 a4) := by
  unfold State.sendMsg
  with_reducible
    repeat' first
      | assumption | apply State.sendPay_keeps | apply State.modL_keeps | refine Keeps.ite ?_ ?_
      | lift_lets | (intro y; refine Keeps.cut s y ?_ (fun hy => ?_); (on_goal 1 => subst y); (on_goal 2 => clear_value y)) | intro y

theorem State.answer_keeps {s x : State} (a1 : Port) (a2 : Nat) (a3 : Nat) (a4 : List Byte) (a5 : Bool) (h : Keeps s x) : Keeps s (State.answer x a1 a2 a3 a4 a5) := by
  unfold State.answer
  with_reducible
    repeat' first
      | assumption | apply State.sendPay_keeps | apply State.modL_keeps | refine Keeps.ite ?_ ?_
      | lift_lets | (intro y; refine Keeps.cut s y ?_ (fun hy => ?_); (on_goal 1 => subst y); (on_goal 2 => clear_value y)) | intro y

theorem State.reject_keeps {s x : State} (a1 : Port) (a2 : Nat) (a3 : Nat) (h : Keeps s x) : Keeps s (State.reject x a1 a2 a3) := by
  unfold State.reject
  with_reducible
    repeat' first
      | assumption | apply State.answer_keeps

theorem State.answered_keeps {s x : State} (a1 : Port) (h : Keeps s x) : Keeps s (State.answered x a1) := by
  unfold State.answered
  with_reducible
    repeat' first
      | assumption | apply State.modL_keeps

theorem State.writeContract_keeps {s x : State} (a1 : Port) (a2 : Terms) (a3 : Nat) (h : Keeps s x) : Keeps s (State.writeContract x a1 a2 a3) := by
  unfold State.writeContract
  with_reducible
    repeat' first
      | assumption | apply State.portIfNew_keeps | refine Keeps.ite ?_ ?_

theorem State.setLink_keeps {s x : State} (a1 : Port) (a2 : Nat) (h : Keeps s x) : Keeps s (State.setLink x a1 a2) := by
  unfold State.setLink
  with_reducible
    repeat' first
      | assumption | apply State.set_keeps

theorem State.setRole_keeps {s x : State} (a1 : Port) (a2 : Terms) (h : Keeps s x) : Keeps s (State.setRole x a1 a2) := by
  unfold State.setRole
  with_reducible
    repeat' first
      | assumption | apply State.set_keeps | refine Keeps.ite ?_ ?_

theorem State.linkZ_keeps {s x : State} (a1 : Port) (h : Keeps s x) : Keeps s (State.linkZ x a1) := by
  unfold State.linkZ
  with_reducible
    repeat' first
      | assumption | apply State.stopG_keeps

theorem State.linkRun_keeps {s x : State} (a1 : Port) (h : Keeps s x) : Keeps s (State.linkRun x a1) := by
  unfold State.linkRun
  with_reducible
    repeat' first
      | assumption | apply State.freeG_keeps

theorem State.endLoss_keeps {s x : State} (a1 : Bool) (h : Keeps s x) : Keeps s (State.endLoss x a1) := by
  unfold State.endLoss
  with_reducible
    repeat' first
      | assumption | apply State.sourceLoss_keeps | refine Keeps.ite ?_ ?_

theorem State.voidContract_keeps {s x : State} (a1 : Port) (h : Keeps s x) : Keeps s (State.voidContract x a1) := by
  unfold State.voidContract
  with_reducible
    repeat' first
      | assumption | apply State.setRole_keeps | apply State.writeContract_keeps
      | apply State.modL_keeps | apply State.set_keeps | lift_lets
      | (intro y; refine Keeps.cut s y ?_ (fun hy => ?_); (on_goal 1 => subst y); (on_goal 2 => clear_value y)) | intro y

theorem State.toNeutral_keeps {s x : State} (a1 : Port) (h : Keeps s x) : Keeps s (State.toNeutral x a1) := by
  unfold State.toNeutral
  with_reducible
    repeat' first
      | assumption | apply State.voidContract_keeps | apply State.endLoss_keeps
      | apply State.linkZ_keeps | apply State.setLink_keeps | apply State.modL_keeps | apply State.ordering_keeps | refine Keeps.ite ?_ ?_
      | lift_lets | (intro y; refine Keeps.cut s y ?_ (fun hy => ?_); (on_goal 1 => subst y); (on_goal 2 => clear_value y)) | intro y

theorem State.toHardReset_keeps {s x : State} (a1 : Port) (h : Keeps s x) : Keeps s (State.toHardReset x a1) := by
  unfold State.toHardReset
  with_reducible
    repeat' first
      | assumption | apply State.voidContract_keeps | apply State.endLoss_keeps
      | apply State.linkRun_keeps | apply State.setLink_keeps | apply State.modL_keeps | apply State.ordering_keeps | lift_lets
      | (intro y; refine Keeps.cut s y ?_ (fun hy => ?_); (on_goal 1 => subst y); (on_goal 2 => clear_value y)) | intro y

theorem State.sendHard_keeps {s x : State} (a1 : Port) (a2 : Nat) (h : Keeps s x) : Keeps s (State.sendHard x a1 a2) := by
  unfold State.sendHard
  with_reducible
    repeat' first
      | assumption | apply State.toHardReset_keeps | apply State.sendMsg_keeps
      | apply State.linkStat_keeps | apply State.modL_keeps | apply State.raise_keeps | lift_lets
      | (intro y; refine Keeps.cut s y ?_ (fun hy => ?_); (on_goal 1 => subst y); (on_goal 2 => clear_value y)) | intro y

theorem State.onHardReset_keeps {s x : State} (a1 : Port) (a2 : Nat) (h : Keeps s x) : Keeps s (State.onHardReset x a1 a2) := by
  unfold State.onHardReset
  with_reducible
    repeat' first
      | assumption | apply State.toHardReset_keeps | apply State.linkStat_keeps
      | apply State.raise_keeps | refine Keeps.ite ?_ ?_ | lift_lets
      | (intro y; refine Keeps.cut s y ?_ (fun hy => ?_); (on_goal 1 => subst y); (on_goal 2 => clear_value y)) | intro y

theorem State.toRamp_keeps {s x : State} (a1 : Port) (h : Keeps s x) : Keeps s (State.toRamp x a1) := by
  unfold State.toRamp
  with_reducible
    repeat' first
      | assumption | apply State.endLoss_keeps | apply State.setLink_keeps | apply State.modL_keeps
      | apply State.set_keeps | lift_lets
      | (intro y; refine Keeps.cut s y ?_ (fun hy => ?_); (on_goal 1 => subst y); (on_goal 2 => clear_value y)) | intro y

theorem State.toDetached_keeps {s x : State} (a1 : Port) (h : Keeps s x) : Keeps s (State.toDetached x a1) := by
  unfold State.toDetached
  with_reducible
    repeat' first
      | assumption | apply State.voidContract_keeps | apply State.linkZ_keeps
      | apply State.setLink_keeps | apply State.moistObj_keeps | apply State.modL_keeps | apply State.ordering_keeps
      | apply State.set_keeps | refine Keeps.ite ?_ ?_ | lift_lets
      | (intro y; refine Keeps.cut s y ?_ (fun hy => ?_); (on_goal 1 => subst y); (on_goal 2 => clear_value y)) | intro y

theorem State.toOff_keeps {s x : State} (a1 : Port) (h : Keeps s x) : Keeps s (State.toOff x a1) := by
  unfold State.toOff
  with_reducible
    repeat' first
      | assumption | apply State.voidContract_keeps | apply State.endLoss_keeps
      | apply State.linkZ_keeps | apply State.setLink_keeps | apply State.modL_keeps | apply State.ordering_keeps | lift_lets
      | (intro y; refine Keeps.cut s y ?_ (fun hy => ?_); (on_goal 1 => subst y); (on_goal 2 => clear_value y)) | intro y

theorem State.sensedStep_keeps {s x : State} (a1 : Port) (h : Keeps s x) : Keeps s (State.sensedStep x a1) := by
  unfold State.sensedStep
  with_reducible
    repeat' first
      | assumption | apply State.toNeutral_keeps | refine Keeps.ite ?_ ?_ | lift_lets
      | (intro y; refine Keeps.cut s y ?_ (fun hy => ?_); (on_goal 1 => subst y); (on_goal 2 => clear_value y)) | intro y

theorem State.moistChange_keeps {s x : State} (a1 : Port) (a2 : Bool) (h : Keeps s x) : Keeps s (State.moistChange x a1 a2) := by
  unfold State.moistChange
  with_reducible
    repeat' first
      | assumption | apply State.sensedStep_keeps | apply State.sendHard_keeps
      | apply State.toNeutral_keeps | apply State.setLink_keeps | apply State.moistObj_keeps | refine Keeps.ite ?_ ?_ | lift_lets
      | (intro y; refine Keeps.cut s y ?_ (fun hy => ?_); (on_goal 1 => subst y); (on_goal 2 => clear_value y)) | intro y

theorem State.sendOffer_keeps {s x : State} (a1 : Port) (h : Keeps s x) : Keeps s (State.sendOffer x a1) := by
  unfold State.sendOffer
  with_reducible
    repeat' first
      | assumption | apply State.setLink_keeps | apply State.sendMsg_keeps | apply State.modL_keeps
      | refine Keeps.ite ?_ ?_ | lift_lets
      | (intro y; refine Keeps.cut s y ?_ (fun hy => ?_); (on_goal 1 => subst y); (on_goal 2 => clear_value y)) | intro y | split

theorem State.sendDetach_keeps {s x : State} (a1 : Port) (a2 : Nat) (h : Keeps s x) : Keeps s (State.sendDetach x a1 a2) := by
  unfold State.sendDetach
  with_reducible
    repeat' first
      | assumption | apply State.sendMsg_keeps | apply State.modL_keeps

theorem State.detachFree_keeps {s x : State} (a1 : Port) (a2 : Nat) (h : Keeps s x) : Keeps s (State.detachFree x a1 a2) := by
  unfold State.detachFree
  with_reducible
    repeat' first
      | assumption | apply State.sendDetach_keeps | refine Keeps.ite ?_ ?_

theorem State.policyContract_keeps {s x : State} (a1 : Port) (h : Keeps s x) : Keeps s (State.policyContract x a1) := by
  unfold State.policyContract
  with_reducible
    repeat' first
      | assumption | apply State.sendDetach_keeps | refine Keeps.ite ?_ ?_ | lift_lets
      | (intro y; refine Keeps.cut s y ?_ (fun hy => ?_); (on_goal 1 => subst y); (on_goal 2 => clear_value y)) | intro y

theorem State.linkPolicy_keeps {s x : State} (h : Keeps s x) : Keeps s (State.linkPolicy x) := by
  unfold State.linkPolicy
  with_reducible
    repeat' first
      | assumption | apply State.policyContract_keeps | refine Keeps.foldl _ ?_ (fun y a hy => ?_)
      | refine Keeps.ite ?_ ?_

theorem State.linkLeave_keeps {s x : State} (a1 : Port) (h : Keeps s x) : Keeps s (State.linkLeave x a1) := by
  unfold State.linkLeave
  with_reducible
    repeat' first
      | assumption | apply State.detachFree_keeps | apply State.toRamp_keeps
      | apply State.toNeutral_keeps | apply State.modL_keeps | refine Keeps.ite ?_ ?_ | lift_lets
      | (intro y; refine Keeps.cut s y ?_ (fun hy => ?_); (on_goal 1 => subst y); (on_goal 2 => clear_value y)) | intro y

theorem State.linkOvercast_keeps {s x : State} (a1 : Port) (h : Keeps s x) : Keeps s (State.linkOvercast x a1) := by
  unfold State.linkOvercast
  with_reducible
    repeat' first
      | assumption | apply State.toNeutral_keeps | apply State.linkZ_keeps | apply State.sendMsg_keeps
      | apply State.linkStat_keeps | apply State.modL_keeps | apply State.raise_keeps | refine Keeps.ite ?_ ?_ | lift_lets
      | (intro y; refine Keeps.cut s y ?_ (fun hy => ?_); (on_goal 1 => subst y); (on_goal 2 => clear_value y)) | intro y

end Sys2Proof.Machine
end

