-- ==== Sys2Proof/Laws/KeepsFlashOps.lean ====
section
/-!
SUPPORT. KeepsFlashOps.lean: every operation of Machine/FlashOps.lean keeps what Keeps names.
-/
set_option linter.unusedTactic false
set_option linter.unreachableTactic false
set_option linter.unusedVariables false
namespace Sys2Proof.Machine

theorem State.wearReport_keeps {s x : State} (h : Keeps s x) : Keeps s (State.wearReport x) := by
  unfold State.wearReport
  with_reducible
    repeat' first
      | assumption | apply State.raise_keeps | refine Keeps.ite ?_ ?_ | lift_lets
      | (intro y; refine Keeps.cut s y ?_ (fun hy => ?_); (on_goal 1 => subst y); (on_goal 2 => clear_value y)) | intro y
      | exact Keeps.mk_of (by assumption) id id id id (fun _ => id)
      | refine Keeps.mk_of ?_ (by first | exact id | exact Store.wf_write _ _) id id id (fun _ => id)

theorem State.wearObjs_keeps {s x : State} (h : Keeps s x) : Keeps s (State.wearObjs x) := by
  unfold State.wearObjs
  with_reducible
    repeat' first
      | assumption | apply State.wearReport_keeps | apply State.set_keeps
      | refine Keeps.foldl _ ?_ (fun y a hy => ?_) | refine Keeps.ite ?_ ?_ | lift_lets
      | (intro y; refine Keeps.cut s y ?_ (fun hy => ?_); (on_goal 1 => subst y); (on_goal 2 => clear_value y)) | intro y
      | exact Keeps.mk_of (by assumption) id id id id (fun _ => id)
      | refine Keeps.mk_of ?_ (by first | exact id | exact Store.wf_write _ _) id id id (fun _ => id)

theorem State.sectorFail_keeps {s x : State} (a1 : Nat) (a2 : Nat) (a3 : Nat) (h : Keeps s x) : Keeps s (State.sectorFail x a1 a2 a3) := by
  unfold State.sectorFail
  with_reducible
    repeat' first
      | assumption | apply State.wearObjs_keeps | apply State.raise_keeps | refine Keeps.ite ?_ ?_
      | lift_lets | (intro y; refine Keeps.cut s y ?_ (fun hy => ?_); (on_goal 1 => subst y); (on_goal 2 => clear_value y)) | intro y
      | exact Keeps.mk_of (by assumption) id id id id (fun _ => id)
      | refine Keeps.mk_of ?_ (by first | exact id | exact Store.wf_write _ _) id id id (fun _ => id)

theorem State.flashBusy_keeps {s x : State} (a1 : Bool) (h : Keeps s x) : Keeps s (State.flashBusy x a1) := by
  unfold State.flashBusy
  with_reducible
    repeat' first
      | assumption | apply State.set_keeps | refine Keeps.ite ?_ ?_

theorem State.commitStart_keeps {s x : State} (h : Keeps s x) : Keeps s (x.commitStart) := by
  unfold State.commitStart
  refine Keeps.ite (Keeps.ite h (State.set_keeps _ _ h)) (Keeps.ite ?_ (Keeps.ite h ?_))
  · exact Keeps.mk_of h id id id id (fun _ => id)
  · refine State.flashBusy_keeps _ (State.set_keeps _ _ ?_)
    exact Keeps.mk_from h h.words (fun _ => rfl) (fun hc e he => by cases he; exact h.buf hc) h.entries h.areas

theorem State.checkpoint_keeps {s x : State} (h : Keeps s x) : Keeps s (State.checkpoint x) := by
  unfold State.checkpoint
  with_reducible
    repeat' first
      | assumption | refine Keeps.foldl _ ?_ (fun y a hy => ?_) | lift_lets
      | (intro y; refine Keeps.cut s y ?_ (fun hy => ?_); (on_goal 1 => subst y); (on_goal 2 => clear_value y)) | intro y
      | exact Keeps.mk_of (by assumption) id id id id (fun _ => id)
      | refine Keeps.mk_of ?_ (by first | exact id | exact Store.wf_write _ _) id id id (fun _ => id)

theorem State.commitDone_keeps {s x : State} (ok : Bool) (sector : Nat) (h : Keeps s x) : Keeps s (x.commitDone ok sector) := by
  unfold State.commitDone
  split
  · exact h
  · rename_i e he
    have hE : s.canonical → e.wf (fun _ => 0) = true := fun hc => h.inFlight hc e he
    have hy := State.flashBusy_keeps false h
    generalize x.flashBusy false = y at hy
    refine Keeps.ite ?_ ?_
    · have hz (j : Journal) (t : Flash) (l : Store) (hj : j.buf = y.jrnl.buf) (hi : j.inFlight = none) (ht : t.entries = mergeStore y.flash.entries l) :
          Keeps s { y with jrnl := j, flash := t } :=
        Keeps.mk_from hy hy.words (fun hc => by rw [hj]; exact hy.buf hc) (fun _ e h => by rw [hi] at h; cases h)
          (fun hc => by rw [ht]; exact Store.wf_mergeStore _ (hy.entries hc)) hy.areas
      dsimp only
      refine State.wearObjs_keeps (Keeps.ite (State.checkpoint_keeps (State.set_keeps _ _ (State.set_keeps _ _ ?_)))
        (State.set_keeps _ _ (State.set_keeps _ _ ?_)))
      all_goals exact hz _ _ _ rfl rfl rfl
    · refine State.sectorFail_keeps _ _ _ (State.set_keeps _ _ ?_)
      exact Keeps.mk_from hy hy.words (fun hc => Store.wf_mergeStore _ (hE hc)) (fun _ e h => by cases h) hy.entries hy.areas

theorem State.commitTorn_keeps {s x : State} (h : Keeps s x) : Keeps s (State.commitTorn x) := by
  unfold State.commitTorn
  with_reducible
    repeat' first
      | assumption | refine Keeps.ite ?_ ?_ | lift_lets
      | (intro y; refine Keeps.cut s y ?_ (fun hy => ?_); (on_goal 1 => subst y); (on_goal 2 => clear_value y)) | intro y
      | exact Keeps.mk_of (by assumption) id id id id (fun _ => id)
      | refine Keeps.mk_of ?_ (by first | exact id | exact Store.wf_write _ _) id id id (fun _ => id)

theorem State.replayReport_keeps {s x : State} (h : Keeps s x) : Keeps s (State.replayReport x) := by
  unfold State.replayReport
  with_reducible
    repeat' first
      | assumption | apply State.raise_keeps | refine Keeps.ite ?_ ?_ | lift_lets
      | (intro y; refine Keeps.cut s y ?_ (fun hy => ?_); (on_goal 1 => subst y); (on_goal 2 => clear_value y)) | intro y
      | exact Keeps.mk_of (by assumption) id id id id (fun _ => id)
      | refine Keeps.mk_of ?_ (by first | exact id | exact Store.wf_write _ _) id id id (fun _ => id)

theorem State.commitAgain_keeps {s x : State} (a1 : Bool) (h : Keeps s x) : Keeps s (State.commitAgain x a1) := by
  unfold State.commitAgain
  with_reducible
    repeat' first
      | assumption | apply State.commitStart_keeps | refine Keeps.ite ?_ ?_

theorem State.commitNow_keeps {s x : State} (h : Keeps s x) : Keeps s (State.commitNow x) := by
  unfold State.commitNow
  with_reducible
    repeat' first
      | assumption | apply State.commitDone_keeps | apply State.commitStart_keeps

theorem State.setBank_keeps {s x : State} (a1 : Nat) (a2 : Bank) (h : Keeps s x) : Keeps s (State.setBank x a1 a2) := by
  unfold State.setBank
  with_reducible
    repeat' first
      | assumption | refine Keeps.ite ?_ ?_ | lift_lets
      | (intro y; refine Keeps.cut s y ?_ (fun hy => ?_); (on_goal 1 => subst y); (on_goal 2 => clear_value y)) | intro y
      | exact Keeps.mk_of (by assumption) id id id id (fun _ => id)
      | refine Keeps.mk_of ?_ (by first | exact id | exact Store.wf_write _ _) id id id (fun _ => id)

theorem State.bankGens_keeps {s x : State} (h : Keeps s x) : Keeps s (State.bankGens x) := by
  unfold State.bankGens
  with_reducible
    repeat' first
      | assumption | apply State.set_keeps

theorem State.writeBankF_keeps {s x : State} (a1 : Nat) (a2 : Nat) (h : Keeps s x) : Keeps s (State.writeBankF x a1 a2) := by
  unfold State.writeBankF
  with_reducible
    repeat' first
      | assumption | apply State.bankGens_keeps | apply State.wearObjs_keeps | refine Keeps.ite ?_ ?_
      | split | lift_lets | (intro y; refine Keeps.cut s y ?_ (fun hy => ?_); (on_goal 1 => subst y); (on_goal 2 => clear_value y))
      | intro y | exact Keeps.mk_of (by assumption) id id id id (fun _ => id)
      | refine Keeps.mk_of ?_ (by first | exact id | exact Store.wf_write _ _) id id id (fun _ => id)

theorem State.emptyKind_keeps {s x : State} (a1 : Nat) (a2 : Nat) (h : Keeps s x) : Keeps s (State.emptyKind x a1 a2) := by
  unfold State.emptyKind
  with_reducible
    repeat' first
      | assumption | apply State.setBank_keeps | apply State.set_keeps | refine Keeps.ite ?_ ?_
      | lift_lets | (intro y; refine Keeps.cut s y ?_ (fun hy => ?_); (on_goal 1 => subst y); (on_goal 2 => clear_value y)) | intro y
      | exact Keeps.mk_of (by assumption) id id id id (fun _ => id)
      | refine Keeps.mk_of ?_ (by first | exact id | exact Store.wf_write _ _) id id id (fun _ => id)

theorem State.bankWritten_keeps {s x : State} (h : Keeps s x) : Keeps s (State.bankWritten x) := by
  unfold State.bankWritten
  with_reducible
    repeat' first
      | assumption | apply State.flashBusy_keeps | apply State.wearObjs_keeps | refine Keeps.ite ?_ ?_
      | lift_lets | (intro y; refine Keeps.cut s y ?_ (fun hy => ?_); (on_goal 1 => subst y); (on_goal 2 => clear_value y)) | intro y
      | split | exact Keeps.mk_of (by assumption) id id id id (fun _ => id)
      | refine Keeps.mk_of ?_ (by first | exact id | exact Store.wf_write _ _) id id id (fun _ => id)

theorem State.otpObjects_keeps {s x : State} (h : Keeps s x) : Keeps s (State.otpObjects x) := by
  unfold State.otpObjects
  with_reducible
    repeat' first
      | assumption | apply State.set_keeps | refine Keeps.foldl _ ?_ (fun y a hy => ?_)
      | refine Keeps.ite ?_ ?_ | lift_lets
      | (intro y; refine Keeps.cut s y ?_ (fun hy => ?_); (on_goal 1 => subst y); (on_goal 2 => clear_value y)) | intro y

theorem State.otpSense_keeps {s x : State} (a1 : Nat) (h : Keeps s x) : Keeps s (State.otpSense x a1) := by
  unfold State.otpSense
  with_reducible
    repeat' first
      | assumption | apply State.otpObjects_keeps | apply State.clearK_keeps | apply State.raise_keeps
      | apply State.set_keeps | refine Keeps.foldl _ ?_ (fun y a hy => ?_) | refine Keeps.ite ?_ ?_ | lift_lets
      | (intro y; refine Keeps.cut s y ?_ (fun hy => ?_); (on_goal 1 => subst y); (on_goal 2 => clear_value y)) | intro y
      | exact Keeps.mk_of (by assumption) id id id id (fun _ => id)
      | refine Keeps.mk_of ?_ (by first | exact id | exact Store.wf_write _ _) id id id (fun _ => id)

/-- Programming clears no bit. -/
theorem programBits_keeps (r : Store) (off : Nat) (d : List Byte) (k n : Nat) (h : (r.read (fun _ => 0) k).testBit n = true) :
    ((programBits r off d).read (fun _ => 0) k).testBit n = true := by
  unfold programBits
  generalize List.range d.length = l
  induction l generalizing r with
  | nil => exact h
  | cons i l ih =>
    refine ih _ ?_
    rw [Store.read_write]
    split
    · rename_i e
      subst e
      simp [Nat.testBit_or, h]
    · exact h

theorem State.modArea_keeps {s x : State} (a : Nat) (f : OtpArea → OtpArea) (hl : ∀ o, o.locked = true → (f o).locked = true)
    (hb : ∀ o k n, (o.fuses.read (fun _ => 0) k).testBit n = true → ((f o).fuses.read (fun _ => 0) k).testBit n = true)
    (h : Keeps s x) : Keeps s (x.modArea a f) := by
  refine Keeps.mk_from h h.words h.buf h.inFlight h.entries (fun i hi => ?_)
  have key : ∀ i, (x.otp.areas.set a (f (x.otpArea a))).getD i {} = x.otp.areas.getD i {} ∨
      (x.otp.areas.set a (f (x.otpArea a))).getD i {} = f (x.otp.areas.getD i {}) := by
    intro i
    simp only [List.getD_eq_getElem?_getD, List.getElem?_set, State.otpArea]
    by_cases ha : a = i
    · subst ha
      by_cases hr : a < x.otp.areas.length <;> simp [hr]
    · simp [ha]
  have hj := h.areas i hi
  cases i with
  | lock i => obtain e | e := key i <;> simp only [Fuse.blownIn, e] at hj ⊢ <;> first | exact hj | exact hl _ hj
  | bit i k n => obtain e | e := key i <;> simp only [Fuse.blownIn, e] at hj ⊢ <;> first | exact hj | exact hb _ _ _ hj


theorem State.someBits_keeps {s x : State} (l : List Byte) (h : Keeps s x) : Keeps s (x.someBits l).2 := by
  induction l generalizing x with
  | nil => exact h
  | cons b l ih => exact ih (State.draw_keeps 8 h)

theorem State.otpBreak_keeps {s x : State} (h : Keeps s x) : Keeps s (x.otpBreak) := by
  unfold State.otpBreak
  split
  · exact h
  rename_i a off d _
  have h1 : Keeps s { x with otp := { x.otp with prog := none, due := none } } := Keeps.mk_of h id id id id (fun _ => id)
  refine Keeps.cut s _ h1 ?_
  generalize ({ x with otp := { x.otp with prog := none, due := none } } : State) = y
  intro hy
  refine Keeps.ite ?_ ?_
  · split
    rename_i e
    exact State.modArea_keeps _ _ (fun _ hl => by simp [hl]) (fun _ _ _ h => h) (Keeps.snd_of (State.draw_keeps 1 hy) e)
  · split
    rename_i e
    exact State.modArea_keeps _ _ (fun _ h => h) (fun _ _ _ => programBits_keeps _ _ _ _ _) (Keeps.snd_of (State.someBits_keeps d hy) e)

end Sys2Proof.Machine
end

