-- ==== Sys2Proof/Laws/KeepsModeOps.lean ====
section
/-!
SUPPORT. KeepsModeOps.lean: every operation of Machine/ModeOps.lean keeps what Keeps names.
-/
set_option linter.unusedTactic false
set_option linter.unreachableTactic false
set_option linter.unusedVariables false
namespace Sys2Proof.Machine

theorem State.orderMode_keeps {s x : State} (h : Keeps s x) : Keeps s (State.orderMode x) := by
  unfold State.orderMode
  with_reducible
    repeat' first
      | assumption | apply State.portIfNew_keeps | refine Keeps.ite ?_ ?_ | lift_lets
      | (intro y; refine Keeps.cut s y ?_ (fun hy => ?_); (on_goal 1 => subst y); (on_goal 2 => clear_value y)) | intro y

theorem State.hzMode_keeps {s x : State} (h : Keeps s x) : Keeps s (State.hzMode x) := by
  unfold State.hzMode
  with_reducible
    repeat' first
      | assumption | apply State.set_keeps | refine Keeps.ite ?_ ?_

theorem State.setMode_keeps {s x : State} (a1 : Nat) (a2 : Nat) (h : Keeps s x) : Keeps s (State.setMode x a1 a2) := by
  unfold State.setMode
  with_reducible
    repeat' first
      | assumption | apply State.hzMode_keeps | apply State.orderMode_keeps | apply State.balOff_keeps
      | apply State.chgModeChange_keeps | apply State.probeAbandon_keeps | apply State.set_keeps | refine Keeps.ite ?_ ?_ | lift_lets
      | (intro y; refine Keeps.cut s y ?_ (fun hy => ?_); (on_goal 1 => subst y); (on_goal 2 => clear_value y)) | intro y
      | exact Keeps.mk_of (by assumption) id id id id (fun _ => id)
      | refine Keeps.mk_of ?_ (by first | exact id | exact Store.wf_write _ _) id id id (fun _ => id)

theorem State.groupsOff_keeps {s x : State} (h : Keeps s x) : Keeps s (State.groupsOff x) := by
  unfold State.groupsOff
  with_reducible
    repeat' first
      | assumption | apply State.srcState_keeps | apply State.stopG_keeps
      | refine Keeps.foldl _ ?_ (fun y a hy => ?_) | refine Keeps.ite ?_ ?_ | refine Keeps.ite_snd ?_ ?_ | refine Keeps.ite_trd ?_ ?_
      | refine fun y hy => ?_ | lift_lets
      | (intro y; refine Keeps.cut s y ?_ (fun hy => ?_); (on_goal 1 => subst y); (on_goal 2 => clear_value y)) | intro y | split
      | (refine Keeps.snd_of ?_ (by assumption)) | (refine Keeps.trd_of ?_ (by assumption))
      | exact Keeps.mk_of (by assumption) id id id id (fun _ => id)
      | refine Keeps.mk_of ?_ (by first | exact id | exact Store.wf_write _ _) id id id (fun _ => id)
      | refine Keeps.mk_from ?_ (fun hc => Keeps.words ?_ hc) (fun hc => Keeps.buf ?_ hc) (fun hc => Keeps.inFlight ?_ hc) (fun hc => Keeps.entries ?_ hc) (fun i hl => Keeps.areas ?_ i hl)

theorem State.coreOff_keeps {s x : State} (h : Keeps s x) : Keeps s (State.coreOff x) := by
  unfold State.coreOff
  with_reducible
    repeat' first
      | assumption | apply State.allG_keeps | lift_lets
      | (intro y; refine Keeps.cut s y ?_ (fun hy => ?_); (on_goal 1 => subst y); (on_goal 2 => clear_value y)) | intro y
      | exact Keeps.mk_of (by assumption) id id id id (fun _ => id)
      | refine Keeps.mk_of ?_ (by first | exact id | exact Store.wf_write _ _) id id id (fun _ => id)

theorem State.dropRequests_keeps {s x : State} (h : Keeps s x) : Keeps s (State.dropRequests x) := by
  unfold State.dropRequests
  with_reducible
    repeat' first
      | assumption | apply State.set_keeps | lift_lets
      | (intro y; refine Keeps.cut s y ?_ (fun hy => ?_); (on_goal 1 => subst y); (on_goal 2 => clear_value y)) | intro y
      | exact Keeps.mk_of (by assumption) id id id id (fun _ => id)
      | refine Keeps.mk_of ?_ (by first | exact id | exact Store.wf_write _ _) id id id (fun _ => id)

theorem State.freeLocks_keeps {s x : State} (h : Keeps s x) : Keeps s (State.freeLocks x) := by
  unfold State.freeLocks
  with_reducible
    repeat' first
      | assumption | apply State.set_keeps | refine Keeps.foldl _ ?_ (fun y a hy => ?_)

theorem State.socMirror_keeps {s x : State} (h : Keeps s x) : Keeps s (State.socMirror x) := by
  unfold State.socMirror
  with_reducible
    repeat' first
      | assumption | lift_lets
      | (intro y; refine Keeps.cut s y ?_ (fun hy => ?_); (on_goal 1 => subst y); (on_goal 2 => clear_value y)) | intro y
      | exact Keeps.mk_of (by assumption) id id id id (fun _ => id)
      | refine Keeps.mk_of ?_ (by first | exact id | exact Store.wf_write _ _) id id id (fun _ => id)

theorem State.mirror_keeps {s x : State} (h : Keeps s x) : Keeps s (State.mirror x) := by
  unfold State.mirror
  with_reducible
    repeat' first
      | assumption | apply State.set_keeps

theorem State.modCan_keeps {s x : State} (a1 : CanBus) (a2 : Can → Can) (h : Keeps s x) : Keeps s (State.modCan x a1 a2) := by
  unfold State.modCan
  with_reducible
    repeat' first
      | assumption | exact Keeps.mk_of (by assumption) id id id id (fun _ => id)
      | refine Keeps.mk_of ?_ (by first | exact id | exact Store.wf_write _ _) id id id (fun _ => id)

theorem State.setCanState_keeps {s x : State} (a1 : CanBus) (a2 : Nat) (h : Keeps s x) : Keeps s (State.setCanState x a1 a2) := by
  unfold State.setCanState
  with_reducible
    repeat' first
      | assumption | apply State.set_keeps

theorem State.canOff_keeps {s x : State} (a1 : CanBus) (h : Keeps s x) : Keeps s (State.canOff x a1) := by
  unfold State.canOff
  with_reducible
    repeat' first
      | assumption | apply State.setCanState_keeps | apply State.modCan_keeps
      | apply State.clearBy_keeps | apply State.set_keeps | lift_lets
      | (intro y; refine Keeps.cut s y ?_ (fun hy => ?_); (on_goal 1 => subst y); (on_goal 2 => clear_value y)) | intro y

theorem State.fabOff_keeps {s x : State} (h : Keeps s x) : Keeps s (State.fabOff x) := by
  unfold State.fabOff
  with_reducible
    repeat' first
      | assumption | apply State.clearK_keeps | apply State.set_keeps
      | refine Keeps.foldl _ ?_ (fun y a hy => ?_) | lift_lets
      | (intro y; refine Keeps.cut s y ?_ (fun hy => ?_); (on_goal 1 => subst y); (on_goal 2 => clear_value y)) | intro y
      | exact Keeps.mk_of (by assumption) id id id id (fun _ => id)
      | refine Keeps.mk_of ?_ (by first | exact id | exact Store.wf_write _ _) id id id (fun _ => id)

theorem State.linksOff_keeps {s x : State} (h : Keeps s x) : Keeps s (State.linksOff x) := by
  unfold State.linksOff
  with_reducible
    repeat' first
      | assumption | apply State.toOff_keeps | refine Keeps.ite ?_ ?_

theorem State.shellOff_keeps {s x : State} (h : Keeps s x) : Keeps s (State.shellOff x) := by
  unfold State.shellOff
  with_reducible
    repeat' first
      | assumption | apply State.linksOff_keeps | apply State.fabOff_keeps | apply State.canOff_keeps
      | apply State.mirror_keeps | apply State.coreOff_keeps | apply State.measStop_keeps | apply State.set_keeps | lift_lets
      | (intro y; refine Keeps.cut s y ?_ (fun hy => ?_); (on_goal 1 => subst y); (on_goal 2 => clear_value y)) | intro y
      | exact Keeps.mk_of (by assumption) id id id id (fun _ => id)
      | refine Keeps.mk_of ?_ (by first | exact id | exact Store.wf_write _ _) id id id (fun _ => id)

theorem State.enterStorage_keeps {s x : State} (a1 : Nat) (h : Keeps s x) : Keeps s (State.enterStorage x a1) := by
  unfold State.enterStorage
  with_reducible
    repeat' first
      | assumption | apply State.shellOff_keeps | apply State.dropRequests_keeps
      | apply State.groupsOff_keeps | apply State.setMode_keeps | apply State.set_keeps | lift_lets
      | (intro y; refine Keeps.cut s y ?_ (fun hy => ?_); (on_goal 1 => subst y); (on_goal 2 => clear_value y)) | intro y

theorem State.exhausted_keeps {s x : State} (a1 : Int) (h : Keeps s x) : Keeps s (State.exhausted x a1) := by
  unfold State.exhausted
  with_reducible
    repeat' first
      | assumption | apply State.enterStorage_keeps | apply State.commitNow_keeps
      | apply State.raise_keeps | refine Keeps.ite ?_ ?_

theorem State.exhaustedNow_keeps {s x : State} (h : Keeps s x) : Keeps s (State.exhaustedNow x) := by
  unfold State.exhaustedNow
  with_reducible
    repeat' first
      | assumption | apply State.exhausted_keeps | split

theorem State.packRemoved_keeps {s x : State} (a1 : Nat) (h : Keeps s x) : Keeps s (State.packRemoved x a1) := by
  unfold State.packRemoved
  with_reducible
    repeat' first
      | assumption | apply State.exhaustedNow_keeps | apply State.packGone_keeps
      | apply State.chgEvent_keeps | apply State.sourceLoss_keeps | refine Keeps.ite ?_ ?_ | lift_lets
      | (intro y; refine Keeps.cut s y ?_ (fun hy => ?_); (on_goal 1 => subst y); (on_goal 2 => clear_value y)) | intro y

theorem State.packSeen_keeps {s x : State} (h : Keeps s x) : Keeps s (State.packSeen x) := by
  unfold State.packSeen
  with_reducible
    repeat' first
      | assumption | apply State.packRemoved_keeps | apply State.cutoff_keeps | apply State.set_keeps
      | refine Keeps.ite ?_ ?_ | lift_lets
      | (intro y; refine Keeps.cut s y ?_ (fun hy => ?_); (on_goal 1 => subst y); (on_goal 2 => clear_value y)) | intro y | split
      | exact Keeps.mk_of (by assumption) id id id id (fun _ => id)
      | refine Keeps.mk_of ?_ (by first | exact id | exact Store.wf_write _ _) id id id (fun _ => id)

theorem State.exhaustedStratus_keeps {s x : State} (a1 : Int) (h : Keeps s x) : Keeps s (State.exhaustedStratus x a1) := by
  unfold State.exhaustedStratus
  with_reducible
    repeat' first
      | assumption | apply State.enterStorage_keeps | refine Keeps.ite ?_ ?_

theorem State.exhaustedStratusNow_keeps {s x : State} (h : Keeps s x) : Keeps s (State.exhaustedStratusNow x) := by
  unfold State.exhaustedStratusNow
  with_reducible
    repeat' first
      | assumption | apply State.exhaustedStratus_keeps | split

theorem State.bringUp_keeps {s x : State} (a1 : Nat) (a2 : Nat) (a3 : Nat) (h : Keeps s x) : Keeps s (State.bringUp x a1 a2 a3) := by
  unfold State.bringUp
  with_reducible
    repeat' first
      | assumption | apply State.set_keeps | lift_lets
      | (intro y; refine Keeps.cut s y ?_ (fun hy => ?_); (on_goal 1 => subst y); (on_goal 2 => clear_value y)) | intro y
      | exact Keeps.mk_of (by assumption) id id id id (fun _ => id)
      | refine Keeps.mk_of ?_ (by first | exact id | exact Store.wf_write _ _) id id id (fun _ => id)

theorem State.wakeUp_keeps {s x : State} (a1 : Nat) (h : Keeps s x) : Keeps s (State.wakeUp x a1) := by
  unfold State.wakeUp
  with_reducible
    repeat' first
      | assumption | apply State.bringUp_keeps | lift_lets
      | (intro y; refine Keeps.cut s y ?_ (fun hy => ?_); (on_goal 1 => subst y); (on_goal 2 => clear_value y)) | intro y
      | exact Keeps.mk_of (by assumption) id id id id (fun _ => id)
      | refine Keeps.mk_of ?_ (by first | exact id | exact Store.wf_write _ _) id id id (fun _ => id)

theorem State.wakeEvent_keeps {s x : State} (a1 : Nat) (h : Keeps s x) : Keeps s (State.wakeEvent x a1) := by
  unfold State.wakeEvent
  with_reducible
    repeat' first
      | assumption | apply State.wakeUp_keeps | refine Keeps.ite ?_ ?_ | lift_lets
      | (intro y; refine Keeps.cut s y ?_ (fun hy => ?_); (on_goal 1 => subst y); (on_goal 2 => clear_value y)) | intro y
      | exact Keeps.mk_of (by assumption) id id id id (fun _ => id)
      | refine Keeps.mk_of ?_ (by first | exact id | exact Store.wf_write _ _) id id id (fun _ => id)

theorem State.classStart_keeps {s x : State} (h : Keeps s x) : Keeps s (State.classStart x) := by
  unfold State.classStart
  with_reducible
    repeat' first
      | assumption | apply State.srcState_keeps | apply State.stopG_keeps | refine Keeps.ite ?_ ?_
      | lift_lets | (intro y; refine Keeps.cut s y ?_ (fun hy => ?_); (on_goal 1 => subst y); (on_goal 2 => clear_value y)) | intro y
      | exact Keeps.mk_of (by assumption) id id id id (fun _ => id)
      | refine Keeps.mk_of ?_ (by first | exact id | exact Store.wf_write _ _) id id id (fun _ => id)

theorem State.stepNine_keeps {s x : State} (a1 : Nat) (h : Keeps s x) : Keeps s (State.stepNine x a1) := by
  unfold State.stepNine
  with_reducible
    repeat' first
      | assumption | apply State.classStart_keeps | apply State.freeG_keeps | apply State.set_keeps
      | refine Keeps.ite ?_ ?_ | lift_lets
      | (intro y; refine Keeps.cut s y ?_ (fun hy => ?_); (on_goal 1 => subst y); (on_goal 2 => clear_value y)) | intro y

theorem State.abandonImage_keeps {s x : State} (a1 : List Byte) (h : Keeps s x) : Keeps s (State.abandonImage x a1) := by
  unfold State.abandonImage
  with_reducible
    repeat' first
      | assumption | apply State.emptyKind_keeps | refine Keeps.ite ?_ ?_

theorem State.downloadFail_keeps {s x : State} (a1 : Bool) (h : Keeps s x) : Keeps s (State.downloadFail x a1) := by
  unfold State.downloadFail
  with_reducible
    repeat' first
      | assumption | apply State.abandonImage_keeps | apply State.raise_keeps | apply State.set_keeps
      | refine Keeps.ite ?_ ?_ | lift_lets
      | (intro y; refine Keeps.cut s y ?_ (fun hy => ?_); (on_goal 1 => subst y); (on_goal 2 => clear_value y)) | intro y | split
      | exact Keeps.mk_of (by assumption) id id id id (fun _ => id)
      | refine Keeps.mk_of ?_ (by first | exact id | exact Store.wf_write _ _) id id id (fun _ => id)

theorem State.dropTransfer_keeps {s x : State} (a1 : Transfer) (h : Keeps s x) : Keeps s (State.dropTransfer x a1) := by
  unfold State.dropTransfer
  with_reducible
    repeat' first
      | assumption | apply State.abandonImage_keeps | apply State.raise_keeps | apply State.set_keeps
      | refine Keeps.ite ?_ ?_ | lift_lets
      | (intro y; refine Keeps.cut s y ?_ (fun hy => ?_); (on_goal 1 => subst y); (on_goal 2 => clear_value y)) | intro y
      | exact Keeps.mk_of (by assumption) id id id id (fun _ => id)
      | refine Keeps.mk_of ?_ (by first | exact id | exact Store.wf_write _ _) id id id (fun _ => id)

theorem State.sessionChange_keeps {s x : State} (a1 : Nat) (h : Keeps s x) : Keeps s (State.sessionChange x a1) := by
  unfold State.sessionChange
  with_reducible
    repeat' first
      | assumption | apply State.dropTransfer_keeps | apply State.downloadFail_keeps
      | apply State.set_keeps | refine Keeps.foldl _ ?_ (fun y a hy => ?_) | lift_lets
      | (intro y; refine Keeps.cut s y ?_ (fun hy => ?_); (on_goal 1 => subst y); (on_goal 2 => clear_value y)) | intro y
      | exact Keeps.mk_of (by assumption) id id id id (fun _ => id)
      | refine Keeps.mk_of ?_ (by first | exact id | exact Store.wf_write _ _) id id id (fun _ => id)

theorem State.freeLocksT_keeps {s x : State} (h : Keeps s x) : Keeps s (State.freeLocksT x) := by
  unfold State.freeLocksT
  with_reducible
    repeat' first
      | assumption | apply State.set_keeps | refine Keeps.foldl _ ?_ (fun y a hy => ?_)
      | refine Keeps.ite ?_ ?_

theorem State.sessionDefault_keeps {s x : State} (h : Keeps s x) : Keeps s (State.sessionDefault x) := by
  unfold State.sessionDefault
  with_reducible
    repeat' first
      | assumption | apply State.freeLocksT_keeps | apply State.sessionChange_keeps
      | apply State.set_keeps | refine Keeps.ite ?_ ?_

theorem State.parkStart_keeps {s x : State} (a1 : Nat) (h : Keeps s x) : Keeps s (State.parkStart x a1) := by
  unfold State.parkStart
  with_reducible
    repeat' first
      | assumption | apply State.linkLeave_keeps | apply State.chgEnter_keeps
      | apply State.writeChg_keeps | apply State.probeAbandon_keeps | refine Keeps.ite ?_ ?_ | lift_lets
      | (intro y; refine Keeps.cut s y ?_ (fun hy => ?_); (on_goal 1 => subst y); (on_goal 2 => clear_value y)) | intro y
      | exact Keeps.mk_of (by assumption) id id id id (fun _ => id)
      | refine Keeps.mk_of ?_ (by first | exact id | exact Store.wf_write _ _) id id id (fun _ => id)

theorem State.parkAbort_keeps {s x : State} (h : Keeps s x) : Keeps s (State.parkAbort x) := by
  unfold State.parkAbort
  with_reducible
    repeat' first
      | assumption | apply State.epochDiscard_keeps | refine Keeps.ite ?_ ?_ | lift_lets
      | (intro y; refine Keeps.cut s y ?_ (fun hy => ?_); (on_goal 1 => subst y); (on_goal 2 => clear_value y)) | intro y
      | exact Keeps.mk_of (by assumption) id id id id (fun _ => id)
      | refine Keeps.mk_of ?_ (by first | exact id | exact Store.wf_write _ _) id id id (fun _ => id)

theorem State.toService_keeps {s x : State} (a1 : Nat) (h : Keeps s x) : Keeps s (State.toService x a1) := by
  unfold State.toService
  with_reducible
    repeat' first
      | assumption | apply State.setMode_keeps | apply State.linkLeave_keeps

theorem State.serviceExit_keeps {s x : State} (h : Keeps s x) : Keeps s (State.serviceExit x) := by
  unfold State.serviceExit
  with_reducible
    repeat' first
      | assumption | apply State.stepNine_keeps | apply State.bringUp_keeps | refine Keeps.ite ?_ ?_
      | lift_lets | (intro y; refine Keeps.cut s y ?_ (fun hy => ?_); (on_goal 1 => subst y); (on_goal 2 => clear_value y)) | intro y

theorem State.actIdle_keeps {s x : State} (a1 : Nat) (a2 : Nat) (h : Keeps s x) : Keeps s (State.actIdle x a1 a2) := by
  unfold State.actIdle
  with_reducible
    repeat' first
      | assumption | apply State.toService_keeps | apply State.parkAbort_keeps
      | apply State.parkStart_keeps | apply State.setMode_keeps | refine Keeps.ite ?_ ?_ | lift_lets
      | (intro y; refine Keeps.cut s y ?_ (fun hy => ?_); (on_goal 1 => subst y); (on_goal 2 => clear_value y)) | intro y

theorem State.act_keeps {s x : State} (h : Keeps s x) : Keeps s (State.act x) := by
  unfold State.act
  with_reducible
    repeat' first
      | assumption | apply State.actIdle_keeps | apply State.serviceExit_keeps
      | apply State.toService_keeps | apply State.parkStart_keeps | apply State.enterStorage_keeps | apply State.setMode_keeps
      | refine Keeps.ite ?_ ?_ | lift_lets
      | (intro y; refine Keeps.cut s y ?_ (fun hy => ?_); (on_goal 1 => subst y); (on_goal 2 => clear_value y)) | intro y
      | exact Keeps.mk_of (by assumption) id id id id (fun _ => id)
      | refine Keeps.mk_of ?_ (by first | exact id | exact Store.wf_write _ _) id id id (fun _ => id)

theorem State.resolve_keeps {s x : State} (h : Keeps s x) : Keeps s (State.resolve x) := by
  unfold State.resolve
  with_reducible
    repeat' first
      | assumption | apply State.act_keeps | apply State.set_keeps | refine Keeps.ite ?_ ?_ | lift_lets
      | (intro y; refine Keeps.cut s y ?_ (fun hy => ?_); (on_goal 1 => subst y); (on_goal 2 => clear_value y)) | intro y
      | exact Keeps.mk_of (by assumption) id id id id (fun _ => id)
      | refine Keeps.mk_of ?_ (by first | exact id | exact Store.wf_write _ _) id id id (fun _ => id)

theorem State.actStored_keeps {s x : State} (h : Keeps s x) : Keeps s (State.actStored x) := by
  unfold State.actStored
  with_reducible
    repeat' first
      | assumption | apply State.act_keeps | apply State.set_keeps | lift_lets
      | (intro y; refine Keeps.cut s y ?_ (fun hy => ?_); (on_goal 1 => subst y); (on_goal 2 => clear_value y)) | intro y
      | exact Keeps.mk_of (by assumption) id id id id (fun _ => id)
      | refine Keeps.mk_of ?_ (by first | exact id | exact Store.wf_write _ _) id id id (fun _ => id)

theorem State.skipRecords_keeps {s x : State} (h : Keeps s x) : Keeps s (State.skipRecords x) := by
  unfold State.skipRecords
  with_reducible
    repeat' first
      | assumption | lift_lets
      | (intro y; refine Keeps.cut s y ?_ (fun hy => ?_); (on_goal 1 => subst y); (on_goal 2 => clear_value y)) | intro y
      | exact Keeps.mk_of (by assumption) id id id id (fun _ => id)
      | refine Keeps.mk_of ?_ (by first | exact id | exact Store.wf_write _ _) id id id (fun _ => id)

theorem State.classAbandon_keeps {s x : State} (h : Keeps s x) : Keeps s (State.classAbandon x) := by
  unfold State.classAbandon
  with_reducible
    repeat' first
      | assumption | apply State.modG_keeps | refine Keeps.ite ?_ ?_ | lift_lets
      | (intro y; refine Keeps.cut s y ?_ (fun hy => ?_); (on_goal 1 => subst y); (on_goal 2 => clear_value y)) | intro y
      | exact Keeps.mk_of (by assumption) id id id id (fun _ => id)
      | refine Keeps.mk_of ?_ (by first | exact id | exact Store.wf_write _ _) id id id (fun _ => id)

theorem State.commitBack_keeps {s x : State} (h : Keeps s x) : Keeps s (x.commitBack) := by
  unfold State.commitBack
  refine Keeps.ite ?_ h
  exact Keeps.mk_from h h.words (fun hc => Store.wf_mergeStore _ (h.flight_getD hc)) (fun _ e h => by cases h) h.entries h.areas

theorem State.enginesDrop_keeps {s x : State} (h : Keeps s x) : Keeps s (State.enginesDrop x) := by
  unfold State.enginesDrop
  with_reducible
    repeat' first
      | assumption | apply State.allG_keeps | lift_lets
      | (intro y; refine Keeps.cut s y ?_ (fun hy => ?_); (on_goal 1 => subst y); (on_goal 2 => clear_value y)) | intro y
      | exact Keeps.mk_of (by assumption) id id id id (fun _ => id)
      | refine Keeps.mk_of ?_ (by first | exact id | exact Store.wf_write _ _) id id id (fun _ => id)

theorem State.absentMode_keeps {s x : State} (h : Keeps s x) : Keeps s (State.absentMode x) := by
  unfold State.absentMode
  with_reducible
    repeat' first
      | assumption | apply State.setMode_keeps | apply State.count_keeps | apply State.set_keeps
      | refine Keeps.ite ?_ ?_ | lift_lets
      | (intro y; refine Keeps.cut s y ?_ (fun hy => ?_); (on_goal 1 => subst y); (on_goal 2 => clear_value y)) | intro y
      | exact Keeps.mk_of (by assumption) id id id id (fun _ => id)
      | refine Keeps.mk_of ?_ (by first | exact id | exact Store.wf_write _ _) id id id (fun _ => id)

theorem State.shellAbsent_keeps {s x : State} (a1 : Bool) (h : Keeps s x) : Keeps s (State.shellAbsent x a1) := by
  unfold State.shellAbsent
  with_reducible
    repeat' first
      | assumption | apply State.absentMode_keeps | apply State.enginesDrop_keeps
      | apply State.commitBack_keeps | apply State.classAbandon_keeps | apply State.skipRecords_keeps | apply State.sessionDefault_keeps
      | apply State.mirror_keeps | apply State.freeLocks_keeps | apply State.epochDiscard_keeps | apply State.set_keeps
      | refine Keeps.foldl _ ?_ (fun y a hy => ?_) | refine Keeps.ite ?_ ?_ | refine Keeps.ite_snd ?_ ?_ | refine Keeps.ite_trd ?_ ?_
      | refine fun y hy => ?_ | lift_lets
      | (intro y; refine Keeps.cut s y ?_ (fun hy => ?_); (on_goal 1 => subst y); (on_goal 2 => clear_value y)) | intro y | split
      | (refine Keeps.snd_of ?_ (by assumption)) | (refine Keeps.trd_of ?_ (by assumption))
      | exact Keeps.mk_of (by assumption) id id id id (fun _ => id)
      | refine Keeps.mk_of ?_ (by first | exact id | exact Store.wf_write _ _) id id id (fun _ => id)
      | refine Keeps.mk_from ?_ (fun hc => Keeps.words ?_ hc) (fun hc => Keeps.buf ?_ hc) (fun hc => Keeps.inFlight ?_ hc) (fun hc => Keeps.entries ?_ hc) (fun i hl => Keeps.areas ?_ i hl)

theorem State.setOvercast_keeps {s x : State} (h : Keeps s x) : Keeps s (State.setOvercast x) := by
  unfold State.setOvercast
  with_reducible
    repeat' first
      | assumption | apply State.keepWord_keeps | apply State.stopG_keeps | refine Keeps.ite ?_ ?_
      | lift_lets | (intro y; refine Keeps.cut s y ?_ (fun hy => ?_); (on_goal 1 => subst y); (on_goal 2 => clear_value y)) | intro y
      | exact Keeps.mk_of (by assumption) id id id id (fun _ => id)
      | refine Keeps.mk_of ?_ (by first | exact id | exact Store.wf_write _ _) id id id (fun _ => id)

theorem State.overcastShell_keeps {s x : State} (h : Keeps s x) : Keeps s (State.overcastShell x) := by
  unfold State.overcastShell
  with_reducible
    repeat' first
      | assumption | apply State.sessionDefault_keeps | apply State.freeLocks_keeps
      | apply State.commitStart_keeps | apply State.linkOvercast_keeps | apply State.epochDiscard_keeps | apply State.set_keeps
      | refine Keeps.foldl _ ?_ (fun y a hy => ?_) | refine Keeps.ite ?_ ?_ | lift_lets
      | (intro y; refine Keeps.cut s y ?_ (fun hy => ?_); (on_goal 1 => subst y); (on_goal 2 => clear_value y)) | intro y
      | exact Keeps.mk_of (by assumption) id id id id (fun _ => id)
      | refine Keeps.mk_of ?_ (by first | exact id | exact Store.wf_write _ _) id id id (fun _ => id)

theorem State.failover_keeps {s x : State} (a1 : Nat) (h : Keeps s x) : Keeps s (State.failover x a1) := by
  unfold State.failover
  with_reducible
    repeat' first
      | assumption | lift_lets
      | (intro y; refine Keeps.cut s y ?_ (fun hy => ?_); (on_goal 1 => subst y); (on_goal 2 => clear_value y)) | intro y
      | exact Keeps.mk_of (by assumption) id id id id (fun _ => id)
      | refine Keeps.mk_of ?_ (by first | exact id | exact Store.wf_write _ _) id id id (fun _ => id)

theorem State.overcastStep_keeps {s x : State} (h : Keeps s x) : Keeps s (State.overcastStep x) := by
  unfold State.overcastStep
  with_reducible
    repeat' first
      | assumption | apply State.failover_keeps | apply State.overcastShell_keeps
      | apply State.setMode_keeps | apply State.stopG_keeps | apply State.set_keeps | refine Keeps.foldl _ ?_ (fun y a hy => ?_)
      | refine Keeps.ite ?_ ?_ | refine Keeps.ite_snd ?_ ?_ | refine Keeps.ite_trd ?_ ?_ | refine fun y hy => ?_ | lift_lets
      | (intro y; refine Keeps.cut s y ?_ (fun hy => ?_); (on_goal 1 => subst y); (on_goal 2 => clear_value y)) | intro y | split
      | (refine Keeps.snd_of ?_ (by assumption)) | (refine Keeps.trd_of ?_ (by assumption))
      | exact Keeps.mk_of (by assumption) id id id id (fun _ => id)
      | refine Keeps.mk_of ?_ (by first | exact id | exact Store.wf_write _ _) id id id (fun _ => id)
      | refine Keeps.mk_from ?_ (fun hc => Keeps.words ?_ hc) (fun hc => Keeps.buf ?_ hc) (fun hc => Keeps.inFlight ?_ hc) (fun hc => Keeps.entries ?_ hc) (fun i hl => Keeps.areas ?_ i hl)

end Sys2Proof.Machine
end

