-- ==== Sys2Proof/Laws/KeepsFaultOps.lean ====
section
/-!
SUPPORT. KeepsFaultOps.lean: every operation of Machine/FaultOps.lean keeps what Keeps names.
-/
set_option linter.unusedTactic false
set_option linter.unreachableTactic false
set_option linter.unusedVariables false
namespace Sys2Proof.Machine

theorem State.closeCapture_keeps {s x : State} (a1 : Bool) (h : Keeps s x) : Keeps s (State.closeCapture x a1) := by
  unfold State.closeCapture
  with_reducible
    repeat' first
      | assumption | apply State.wearObjs_keeps | apply State.raise_keeps | apply State.count_keeps
      | apply State.put_keeps | apply State.set_keeps | refine Keeps.ite ?_ ?_ | lift_lets
      | (intro y; refine Keeps.cut s y ?_ (fun hy => ?_); (on_goal 1 => subst y); (on_goal 2 => clear_value y)) | intro y | split
      | exact Keeps.mk_of (by assumption) id id id id (fun _ => id)
      | refine Keeps.mk_of ?_ (by first | exact id | exact Store.wf_write _ _) id id id (fun _ => id)

theorem State.closeWindow_keeps {s x : State} (a1 : Bool) (h : Keeps s x) : Keeps s (State.closeWindow x a1) := by
  unfold State.closeWindow
  with_reducible
    repeat' first
      | assumption | apply State.closeCapture_keeps | apply State.raise_keeps | apply State.set_keeps
      | refine Keeps.ite ?_ ?_ | lift_lets
      | (intro y; refine Keeps.cut s y ?_ (fun hy => ?_); (on_goal 1 => subst y); (on_goal 2 => clear_value y)) | intro y | split
      | exact Keeps.mk_of (by assumption) id id id id (fun _ => id)
      | refine Keeps.mk_of ?_ (by first | exact id | exact Store.wf_write _ _) id id id (fun _ => id)

theorem State.captureStart_keeps {s x : State} (a1 : Stamp) (a2 : Nat) (a3 : Bool) (h : Keeps s x) : Keeps s (State.captureStart x a1 a2 a3) := by
  unfold State.captureStart
  with_reducible
    repeat' first
      | assumption | apply State.put_keeps | apply State.set_keeps | refine Keeps.ite ?_ ?_ | lift_lets
      | (intro y; refine Keeps.cut s y ?_ (fun hy => ?_); (on_goal 1 => subst y); (on_goal 2 => clear_value y)) | intro y
      | exact Keeps.mk_of (by assumption) id id id id (fun _ => id)
      | refine Keeps.mk_of ?_ (by first | exact id | exact Store.wf_write _ _) id id id (fun _ => id)

theorem State.joinLate_keeps {s x : State} (a1 : Nat) (a2 : Nat) (h : Keeps s x) : Keeps s (State.joinLate x a1 a2) := by
  unfold State.joinLate
  with_reducible
    repeat' first
      | assumption | refine Keeps.ite ?_ ?_ | lift_lets
      | (intro y; refine Keeps.cut s y ?_ (fun hy => ?_); (on_goal 1 => subst y); (on_goal 2 => clear_value y)) | intro y
      | exact Keeps.mk_of (by assumption) id id id id (fun _ => id)
      | refine Keeps.mk_of ?_ (by first | exact id | exact Store.wf_write _ _) id id id (fun _ => id)

theorem State.capture_keeps {s x : State} (a1 : Msg) (a2 : Nat) (h : Keeps s x) : Keeps s (State.capture x a1 a2) := by
  unfold State.capture
  with_reducible
    repeat' first
      | assumption | apply State.joinLate_keeps | apply State.captureStart_keeps
      | apply State.closeWindow_keeps | apply State.raise_keeps | apply State.count_keeps | refine Keeps.ite ?_ ?_ | lift_lets
      | (intro y; refine Keeps.cut s y ?_ (fun hy => ?_); (on_goal 1 => subst y); (on_goal 2 => clear_value y)) | intro y | split
      | exact Keeps.mk_of (by assumption) id id id id (fun _ => id)
      | refine Keeps.mk_of ?_ (by first | exact id | exact Store.wf_write _ _) id id id (fun _ => id)

theorem State.setDtcs_keeps {s x : State} (a1 : List Dtc) (h : Keeps s x) : Keeps s (State.setDtcs x a1) := by
  unfold State.setDtcs
  with_reducible
    repeat' first
      | assumption | apply State.put_keeps | refine Keeps.ite ?_ ?_ | lift_lets
      | (intro y; refine Keeps.cut s y ?_ (fun hy => ?_); (on_goal 1 => subst y); (on_goal 2 => clear_value y)) | intro y
      | exact Keeps.mk_of (by assumption) id id id id (fun _ => id)
      | refine Keeps.mk_of ?_ (by first | exact id | exact Store.wf_write _ _) id id id (fun _ => id)

theorem State.dtcRaise_keeps {s x : State} (a1 : Msg) (a2 : Nat) (h : Keeps s x) : Keeps s (State.dtcRaise x a1 a2) := by
  unfold State.dtcRaise
  with_reducible
    repeat' first
      | assumption | apply State.setDtcs_keeps | apply State.set_keeps | refine Keeps.ite ?_ ?_
      | lift_lets | (intro y; refine Keeps.cut s y ?_ (fun hy => ?_); (on_goal 1 => subst y); (on_goal 2 => clear_value y)) | intro y
      | split

theorem State.dtcClear_keeps {s x : State} (a1 : Msg) (h : Keeps s x) : Keeps s (State.dtcClear x a1) := by
  unfold State.dtcClear
  with_reducible
    repeat' first
      | assumption | apply State.setDtcs_keeps | refine Keeps.ite ?_ ?_

theorem State.dtcCycle_keeps {s x : State} (h : Keeps s x) : Keeps s (State.dtcCycle x) := by
  unfold State.dtcCycle
  with_reducible
    repeat' first
      | assumption | apply State.setDtcs_keeps | refine Keeps.ite ?_ ?_ | lift_lets
      | (intro y; refine Keeps.cut s y ?_ (fun hy => ?_); (on_goal 1 => subst y); (on_goal 2 => clear_value y)) | intro y

theorem State.putRec_keeps {s x : State} (a1 : Nat) (a2 : FaultRec) (h : Keeps s x) : Keeps s (State.putRec x a1 a2) := by
  unfold State.putRec
  with_reducible
    repeat' first
      | assumption | exact Keeps.mk_of (by assumption) id id id id (fun _ => id)
      | refine Keeps.mk_of ?_ (by first | exact id | exact Store.wf_write _ _) id id id (fun _ => id)

theorem State.dropRec_keeps {s x : State} (a1 : Nat) (h : Keeps s x) : Keeps s (State.dropRec x a1) := by
  unfold State.dropRec
  with_reducible
    repeat' first
      | assumption | exact Keeps.mk_of (by assumption) id id id id (fun _ => id)
      | refine Keeps.mk_of ?_ (by first | exact id | exact Store.wf_write _ _) id id id (fun _ => id)

theorem State.haloUpdate_keeps {s x : State} (h : Keeps s x) : Keeps s (State.haloUpdate x) := by
  unfold State.haloUpdate
  with_reducible
    repeat' first
      | assumption | apply State.set_keeps | refine Keeps.ite ?_ ?_ | lift_lets
      | (intro y; refine Keeps.cut s y ?_ (fun hy => ?_); (on_goal 1 => subst y); (on_goal 2 => clear_value y)) | intro y
      | exact Keeps.mk_of (by assumption) id id id id (fun _ => id)
      | refine Keeps.mk_of ?_ (by first | exact id | exact Store.wf_write _ _) id id id (fun _ => id)

theorem State.faultCounts_keeps {s x : State} (a1 : Msg) (a2 : Nat) (h : Keeps s x) : Keeps s (State.faultCounts x a1 a2) := by
  unfold State.faultCounts
  with_reducible
    repeat' first
      | assumption | apply State.count_keeps | apply State.set_keeps

theorem State.hourFault_keeps {s x : State} (h : Keeps s x) : Keeps s (State.hourFault x) := by
  unfold State.hourFault
  with_reducible
    repeat' first
      | assumption | lift_lets
      | (intro y; refine Keeps.cut s y ?_ (fun hy => ?_); (on_goal 1 => subst y); (on_goal 2 => clear_value y)) | intro y
      | exact Keeps.mk_of (by assumption) id id id id (fun _ => id)
      | refine Keeps.mk_of ?_ (by first | exact id | exact Store.wf_write _ _) id id id (fun _ => id)

theorem State.clearRecord_keeps {s x : State} (a1 : Msg) (h : Keeps s x) : Keeps s (State.clearRecord x a1) := by
  unfold State.clearRecord
  with_reducible
    repeat' first
      | assumption | refine Keeps.ite ?_ ?_ | lift_lets
      | (intro y; refine Keeps.cut s y ?_ (fun hy => ?_); (on_goal 1 => subst y); (on_goal 2 => clear_value y)) | intro y
      | exact Keeps.mk_of (by assumption) id id id id (fun _ => id)
      | refine Keeps.mk_of ?_ (by first | exact id | exact Store.wf_write _ _) id id id (fun _ => id)

theorem State.closeHandling_keeps {s x : State} (a1 : Nat) (h : Keeps s x) : Keeps s (State.closeHandling x a1) := by
  unfold State.closeHandling
  with_reducible
    repeat' first
      | assumption | apply State.haloUpdate_keeps | apply State.putRec_keeps | lift_lets
      | (intro y; refine Keeps.cut s y ?_ (fun hy => ?_); (on_goal 1 => subst y); (on_goal 2 => clear_value y)) | intro y | split
      | exact Keeps.mk_of (by assumption) id id id id (fun _ => id)
      | refine Keeps.mk_of ?_ (by first | exact id | exact Store.wf_write _ _) id id id (fun _ => id)

theorem State.directEnter_keeps {s x : State} (a1 : Nat) (h : Keeps s x) : Keeps s (State.directEnter x a1) := by
  unfold State.directEnter
  with_reducible
    repeat' first
      | assumption | apply State.haloUpdate_keeps | apply State.draw_keeps | refine Keeps.ite ?_ ?_
      | refine Keeps.ite_snd ?_ ?_ | refine Keeps.ite_trd ?_ ?_ | lift_lets
      | (intro y; refine Keeps.cut s y ?_ (fun hy => ?_); (on_goal 1 => subst y); (on_goal 2 => clear_value y)) | intro y | split
      | (refine Keeps.snd_of ?_ (by assumption)) | (refine Keeps.trd_of ?_ (by assumption))
      | exact Keeps.mk_of (by assumption) id id id id (fun _ => id)
      | refine Keeps.mk_of ?_ (by first | exact id | exact Store.wf_write _ _) id id id (fun _ => id)

end Sys2Proof.Machine
end

