-- ==== Sys2Proof/Laws/KeepsTableOps.lean ====
section
/-!
SUPPORT. KeepsTableOps.lean: every operation of Machine/TableOps.lean keeps what Keeps names.
-/
set_option linter.unusedTactic false
set_option linter.unreachableTactic false
set_option linter.unusedVariables false
namespace Sys2Proof.Machine

theorem State.refuseImage_keeps {s x : State} (a1 : Nat) (a2 : Nat) (h : Keeps s x) : Keeps s (State.refuseImage x a1 a2) := by
  unfold State.refuseImage
  with_reducible
    repeat' first
      | assumption | apply State.raise_keeps | apply State.set_keeps | refine Keeps.ite ?_ ?_
      | lift_lets | (intro y; refine Keeps.cut s y ?_ (fun hy => ?_); (on_goal 1 => subst y); (on_goal 2 => clear_value y)) | intro y

theorem State.idleIds_keeps {s x : State} (h : Keeps s x) : Keeps s (State.idleIds x) := by
  unfold State.idleIds
  with_reducible
    repeat' first
      | assumption | apply State.set_keeps | refine Keeps.foldl _ ?_ (fun y a hy => ?_)
      | refine Keeps.ite ?_ ?_

theorem State.useImage_keeps {s x : State} (a1 : Nat) (a2 : Option (List Byte)) (h : Keeps s x) : Keeps s (State.useImage x a1 a2) := by
  unfold State.useImage
  with_reducible
    repeat' first
      | assumption | apply State.set_keeps | refine Keeps.ite ?_ ?_ | lift_lets
      | (intro y; refine Keeps.cut s y ?_ (fun hy => ?_); (on_goal 1 => subst y); (on_goal 2 => clear_value y)) | intro y | split
      | exact Keeps.mk_of (by assumption) id id id id (fun _ => id)
      | refine Keeps.mk_of ?_ (by first | exact id | exact Store.wf_write _ _) id id id (fun _ => id)

theorem State.activate_keeps {s x : State} (a1 : Nat) (h : Keeps s x) : Keeps s (State.activate x a1) := by
  unfold State.activate
  with_reducible
    repeat' first
      | assumption | apply State.useImage_keeps | apply State.idleIds_keeps | apply State.set_keeps
      | refine Keeps.foldl _ ?_ (fun y a hy => ?_) | refine Keeps.ite ?_ ?_ | lift_lets
      | (intro y; refine Keeps.cut s y ?_ (fun hy => ?_); (on_goal 1 => subst y); (on_goal 2 => clear_value y)) | intro y

theorem State.readBank_keeps {s x : State} (a1 : Nat) (h : Keeps s x) : Keeps s (State.readBank x a1) := by
  unfold State.readBank
  with_reducible
    repeat' first
      | assumption | apply State.refuseImage_keeps | apply State.setBank_keeps
      | refine Keeps.foldl _ ?_ (fun y a hy => ?_) | lift_lets
      | (intro y; refine Keeps.cut s y ?_ (fun hy => ?_); (on_goal 1 => subst y); (on_goal 2 => clear_value y)) | intro y | split

theorem State.loadBanks_keeps {s x : State} (a1 : Nat) (h : Keeps s x) : Keeps s (State.loadBanks x a1) := by
  unfold State.loadBanks
  with_reducible
    repeat' first
      | assumption | apply State.readBank_keeps | apply State.activate_keeps
      | apply State.bankGens_keeps | apply State.setBank_keeps | apply State.raiseC_keeps | refine Keeps.ite ?_ ?_ | lift_lets
      | (intro y; refine Keeps.cut s y ?_ (fun hy => ?_); (on_goal 1 => subst y); (on_goal 2 => clear_value y)) | intro y

theorem State.storeImage_keeps {s x : State} (a1 : Nat) (a2 : List Byte) (h : Keeps s x) : Keeps s (State.storeImage x a1 a2).2 := by
  unfold State.storeImage
  with_reducible
    repeat' first
      | assumption | apply State.idleIds_keeps | apply State.refuseImage_keeps
      | apply State.emptyKind_keeps | apply State.setBank_keeps | apply State.flashBusy_keeps | refine Keeps.ite ?_ ?_
      | refine Keeps.ite_snd ?_ ?_ | refine Keeps.ite_trd ?_ ?_ | lift_lets
      | (intro y; refine Keeps.cut s y ?_ (fun hy => ?_); (on_goal 1 => subst y); (on_goal 2 => clear_value y)) | intro y | split
      | (refine Keeps.snd_of ?_ (by assumption)) | (refine Keeps.trd_of ?_ (by assumption))
      | exact Keeps.mk_of (by assumption) id id id id (fun _ => id)
      | refine Keeps.mk_of ?_ (by first | exact id | exact Store.wf_write _ _) id id id (fun _ => id)

end Sys2Proof.Machine
end

