-- ==== Sys2Proof/Laws/KeepsFabricOps.lean ====
section
/-!
SUPPORT. KeepsFabricOps.lean: every operation of Machine/FabricOps.lean keeps what Keeps names.
-/
set_option linter.unusedTactic false
set_option linter.unreachableTactic false
set_option linter.unusedVariables false
namespace Sys2Proof.Machine

theorem State.fabTally_keeps {s x : State} (a1 : Nat) (h : Keeps s x) : Keeps s (State.fabTally x a1) := by
  unfold State.fabTally
  with_reducible
    repeat' first
      | assumption | apply State.tally_keeps

theorem State.fabOut_keeps {s x : State} (a1 : Port) (a2 : Frame) (h : Keeps s x) : Keeps s (State.fabOut x a1 a2) := by
  unfold State.fabOut
  with_reducible
    repeat' first
      | assumption | apply State.fabQueue_keeps | refine Keeps.ite ?_ ?_

theorem State.fabBroadcast_keeps {s x : State} (a1 : Frame) (h : Keeps s x) : Keeps s (State.fabBroadcast x a1) := by
  unfold State.fabBroadcast
  with_reducible
    repeat' first
      | assumption | apply State.fabOut_keeps | apply State.fabSeq_keeps | refine Keeps.ite ?_ ?_
      | refine Keeps.ite_snd ?_ ?_ | refine Keeps.ite_trd ?_ ?_ | split | (refine Keeps.snd_of ?_ (by assumption))
      | (refine Keeps.trd_of ?_ (by assumption))

theorem State.fabFlood_keeps {s x : State} (a1 : Frame) (h : Keeps s x) : Keeps s (State.fabFlood x a1) := by
  unfold State.fabFlood
  with_reducible
    repeat' first
      | assumption | apply State.fabOut_keeps | apply State.fabSeq_keeps | split
      | (refine Keeps.snd_of ?_ (by assumption)) | (refine Keeps.trd_of ?_ (by assumption))

theorem State.fabRoute_keeps {s x : State} (a1 : Frame) (h : Keeps s x) : Keeps s (State.fabRoute x a1) := by
  unfold State.fabRoute
  with_reducible
    repeat' first
      | assumption | apply State.fabOut_keeps | apply State.fabTally_keeps | apply State.raise_keeps
      | refine Keeps.ite ?_ ?_ | split

theorem State.fabSend_keeps {s x : State} (a1 : Frame) (h : Keeps s x) : Keeps s (State.fabSend x a1) := by
  unfold State.fabSend
  with_reducible
    repeat' first
      | assumption | apply State.fabRoute_keeps | apply State.fabSeq_keeps | split
      | (refine Keeps.snd_of ?_ (by assumption)) | (refine Keeps.trd_of ?_ (by assumption))

theorem State.fabTake_keeps {s x : State} (a1 : Port) (a2 : Nat) (h : Keeps s x) : Keeps s (State.fabTake x a1 a2).2 := by
  unfold State.fabTake
  with_reducible
    repeat' first
      | assumption | apply State.fabTally_keeps | apply State.sensedStep_keeps | apply State.modL_keeps
      | refine Keeps.ite ?_ ?_ | refine Keeps.ite_snd ?_ ?_ | refine Keeps.ite_trd ?_ ?_ | lift_lets
      | (intro y; refine Keeps.cut s y ?_ (fun hy => ?_); (on_goal 1 => subst y); (on_goal 2 => clear_value y)) | intro y | split
      | (refine Keeps.snd_of ?_ (by assumption)) | (refine Keeps.trd_of ?_ (by assumption))

theorem State.fabBad_keeps {s x : State} (a1 : Port) (h : Keeps s x) : Keeps s (State.fabBad x a1) := by
  unfold State.fabBad
  with_reducible
    repeat' first
      | assumption | apply State.fabTally_keeps | apply State.modFab_keeps | apply State.raise_keeps
      | refine Keeps.ite ?_ ?_ | lift_lets
      | (intro y; refine Keeps.cut s y ?_ (fun hy => ?_); (on_goal 1 => subst y); (on_goal 2 => clear_value y)) | intro y

theorem State.hopsOk_keeps {s x : State} (a : Frame) (f : Frame → State → State) (hf : ∀ n y, Keeps s y → Keeps s (f n y)) (h : Keeps s x) : Keeps s (x.hopsOk a f) := by
  unfold State.hopsOk
  exact Keeps.ite (State.raise_keeps _ _ _ (State.fabTally_keeps _ h)) (hf _ x h)

theorem State.fabOnward_keeps {s x : State} (a1 : Port) (a2 : Frame) (h : Keeps s x) : Keeps s (State.fabOnward x a1 a2) := by
  unfold State.fabOnward
  with_reducible
    repeat' first
      | assumption | apply State.hopsOk_keeps | apply State.fabOut_keeps | refine Keeps.ite ?_ ?_
      | refine fun y hy => ?_ | lift_lets
      | (intro y; refine Keeps.cut s y ?_ (fun hy => ?_); (on_goal 1 => subst y); (on_goal 2 => clear_value y)) | intro y

theorem State.unsettle_keeps {s x : State} (h : Keeps s x) : Keeps s (State.unsettle x) := by
  unfold State.unsettle
  with_reducible
    repeat' first
      | assumption | apply State.set_keeps | refine Keeps.ite ?_ ?_ | lift_lets
      | (intro y; refine Keeps.cut s y ?_ (fun hy => ?_); (on_goal 1 => subst y); (on_goal 2 => clear_value y)) | intro y
      | exact Keeps.mk_of (by assumption) id id id id (fun _ => id)
      | refine Keeps.mk_of ?_ (by first | exact id | exact Store.wf_write _ _) id id id (fun _ => id)

theorem State.topoSend_keeps {s x : State} (h : Keeps s x) : Keeps s (State.topoSend x) := by
  unfold State.topoSend
  with_reducible
    repeat' first
      | assumption | apply State.fabFlood_keeps | refine Keeps.ite ?_ ?_ | lift_lets
      | (intro y; refine Keeps.cut s y ?_ (fun hy => ?_); (on_goal 1 => subst y); (on_goal 2 => clear_value y)) | intro y
      | exact Keeps.mk_of (by assumption) id id id id (fun _ => id)
      | refine Keeps.mk_of ?_ (by first | exact id | exact Store.wf_write _ _) id id id (fun _ => id)

theorem State.zenithObjs_keeps {s x : State} (h : Keeps s x) : Keeps s (State.zenithObjs x) := by
  unfold State.zenithObjs
  with_reducible
    repeat' first
      | assumption | apply State.set_keeps | lift_lets
      | (intro y; refine Keeps.cut s y ?_ (fun hy => ?_); (on_goal 1 => subst y); (on_goal 2 => clear_value y)) | intro y | split

theorem State.clkFollow_keeps {s x : State} (h : Keeps s x) : Keeps s (State.clkFollow x) := by
  unfold State.clkFollow
  with_reducible
    repeat' first
      | assumption | apply State.set_keeps | refine Keeps.ite ?_ ?_ | lift_lets
      | (intro y; refine Keeps.cut s y ?_ (fun hy => ?_); (on_goal 1 => subst y); (on_goal 2 => clear_value y)) | intro y

theorem State.routesMove_keeps {s x : State} (h : Keeps s x) : Keeps s (State.routesMove x) := by
  unfold State.routesMove
  with_reducible
    repeat' first
      | assumption | apply State.clkFollow_keeps | apply State.zenithObjs_keeps
      | refine Keeps.ite ?_ ?_

theorem State.assignCut_keeps {s x : State} (h : Keeps s x) : Keeps s (State.assignCut x) := by
  unfold State.assignCut
  with_reducible
    repeat' first
      | assumption | lift_lets
      | (intro y; refine Keeps.cut s y ?_ (fun hy => ?_); (on_goal 1 => subst y); (on_goal 2 => clear_value y)) | intro y
      | exact Keeps.mk_of (by assumption) id id id id (fun _ => id)
      | refine Keeps.mk_of ?_ (by first | exact id | exact Store.wf_write _ _) id id id (fun _ => id)

theorem State.portChange_keeps {s x : State} (a1 : Port) (a2 : Nat) (a3 : Nat) (h : Keeps s x) : Keeps s (State.portChange x a1 a2 a3) := by
  unfold State.portChange
  with_reducible
    repeat' first
      | assumption | apply State.routesMove_keeps | apply State.topoSend_keeps
      | apply State.unsettle_keeps | apply State.set_keeps

theorem State.portDown_keeps {s x : State} (a1 : Port) (h : Keeps s x) : Keeps s (State.portDown x a1) := by
  unfold State.portDown
  with_reducible
    repeat' first
      | assumption | apply State.portChange_keeps | apply State.assignCut_keeps
      | apply State.fabTally_keeps | apply State.modFab_keeps | apply State.clearI_keeps | apply State.raise_keeps | apply State.set_keeps
      | refine Keeps.ite ?_ ?_ | lift_lets
      | (intro y; refine Keeps.cut s y ?_ (fun hy => ?_); (on_goal 1 => subst y); (on_goal 2 => clear_value y)) | intro y

theorem State.fabStart_keeps {s x : State} (h : Keeps s x) : Keeps s (State.fabStart x) := by
  unfold State.fabStart
  with_reducible
    repeat' first
      | assumption | apply State.set_keeps | refine Keeps.foldl _ ?_ (fun y a hy => ?_)
      | refine Keeps.ite ?_ ?_ | lift_lets
      | (intro y; refine Keeps.cut s y ?_ (fun hy => ?_); (on_goal 1 => subst y); (on_goal 2 => clear_value y)) | intro y

theorem State.assignSend_keeps {s x : State} (h : Keeps s x) : Keeps s (State.assignSend x) := by
  unfold State.assignSend
  with_reducible
    repeat' first
      | assumption | apply State.fabBroadcast_keeps | refine Keeps.foldl _ ?_ (fun y a hy => ?_)

theorem State.adopt_keeps {s x : State} (a1 : Nat) (a2 : Nat) (a3 : Nat) (h : Keeps s x) : Keeps s (State.adopt x a1 a2 a3) := by
  unfold State.adopt
  with_reducible
    repeat' first
      | assumption | apply State.topoSend_keeps | apply State.commitStart_keeps
      | apply State.raise_keeps | apply State.put_keeps | apply State.set_keeps | refine Keeps.ite ?_ ?_ | lift_lets
      | (intro y; refine Keeps.cut s y ?_ (fun hy => ?_); (on_goal 1 => subst y); (on_goal 2 => clear_value y)) | intro y
      | exact Keeps.mk_of (by assumption) id id id id (fun _ => id)
      | refine Keeps.mk_of ?_ (by first | exact id | exact Store.wf_write _ _) id id id (fun _ => id)

theorem State.assign_keeps {s x : State} (h : Keeps s x) : Keeps s (State.assign x) := by
  unfold State.assign
  with_reducible
    repeat' first
      | assumption | apply State.adopt_keeps | apply State.assignSend_keeps | lift_lets
      | (intro y; refine Keeps.cut s y ?_ (fun hy => ?_); (on_goal 1 => subst y); (on_goal 2 => clear_value y)) | intro y
      | exact Keeps.mk_of (by assumption) id id id id (fun _ => id)
      | refine Keeps.mk_of ?_ (by first | exact id | exact Store.wf_write _ _) id id id (fun _ => id)

theorem State.settle_keeps {s x : State}  (h : Keeps s x) : Keeps s (x.settle) := by
  unfold State.settle
  have h1 : Keeps s { x with fab := { x.fab with
      settled := true, zenith := x.elect, lastZenith := if x.elect.isSome then x.elect else x.fab.lastZenith } } :=
    Keeps.mk_of h id id id id (fun _ => id)
  refine Keeps.cut s _ h1 ?_
  clear h1
  generalize ({ x with fab := { x.fab with
      settled := true, zenith := x.elect, lastZenith := if x.elect.isSome then x.elect else x.fab.lastZenith } } : State) = y
  intro hy
  have h2 := State.zenithObjs_keeps (State.set_keeps Obj.FAB_STATE (if y.fab.adopted then 3 else 2) hy)
  refine Keeps.cut s _ h2 ?_
  clear h2
  generalize (y.set Obj.FAB_STATE (if y.fab.adopted then 3 else 2)).zenithObjs = z
  intro hz
  show Keeps s (match x.elect with | none => _ | some u => _)
  split
  with_reducible
    repeat' first
      | assumption | apply State.raise_keeps | apply State.set_keeps | apply State.assign_keeps | apply State.zenithObjs_keeps
      | refine Keeps.ite ?_ ?_ | lift_lets
      | (intro y; refine Keeps.cut s y ?_ (fun hy => ?_); (on_goal 1 => subst y); (on_goal 2 => clear_value y)) | intro y
      | exact Keeps.mk_of (by assumption) id id id id (fun _ => id)
      | refine Keeps.mk_of ?_ (by first | exact id | exact Store.wf_write _ _) id id id (fun _ => id)

theorem State.bootAsk_keeps {s x : State} (h : Keeps s x) : Keeps s (State.bootAsk x) := by
  unfold State.bootAsk
  with_reducible
    repeat' first
      | assumption | apply State.fabSend_keeps | lift_lets
      | (intro y; refine Keeps.cut s y ?_ (fun hy => ?_); (on_goal 1 => subst y); (on_goal 2 => clear_value y)) | intro y | split
      | exact Keeps.mk_of (by assumption) id id id id (fun _ => id)
      | refine Keeps.mk_of ?_ (by first | exact id | exact Store.wf_write _ _) id id id (fun _ => id)

theorem State.bootNext_keeps {s x : State} (a1 : Nat) (h : Keeps s x) : Keeps s (State.bootNext x a1) := by
  unfold State.bootNext
  with_reducible
    repeat' first
      | assumption | apply State.bootAsk_keeps | refine Keeps.ite ?_ ?_ | lift_lets
      | (intro y; refine Keeps.cut s y ?_ (fun hy => ?_); (on_goal 1 => subst y); (on_goal 2 => clear_value y)) | intro y
      | exact Keeps.mk_of (by assumption) id id id id (fun _ => id)
      | refine Keeps.mk_of ?_ (by first | exact id | exact Store.wf_write _ _) id id id (fun _ => id)

theorem State.bootKick_keeps {s x : State} (h : Keeps s x) : Keeps s (State.bootKick x) := by
  unfold State.bootKick
  with_reducible
    repeat' first
      | assumption | apply State.bootNext_keeps | apply State.bootAsk_keeps | apply State.setBank_keeps
      | refine Keeps.ite ?_ ?_

end Sys2Proof.Machine
end

