-- ==== Sys2Proof/Laws/KeepsWatchdogOps.lean ====
section
/-!
SUPPORT. KeepsWatchdogOps.lean: every operation of Machine/WatchdogOps.lean keeps what Keeps names.
-/
set_option linter.unusedTactic false
set_option linter.unreachableTactic false
set_option linter.unusedVariables false
namespace Sys2Proof.Machine

theorem State.wdPeriod_keeps {s x : State} (h : Keeps s x) : Keeps s (State.wdPeriod x) := by
  unfold State.wdPeriod
  with_reducible
    repeat' first
      | assumption | apply State.draw_keeps | apply State.set_keeps | lift_lets
      | (intro y; refine Keeps.cut s y ?_ (fun hy => ?_); (on_goal 1 => subst y); (on_goal 2 => clear_value y)) | intro y | split
      | (refine Keeps.snd_of ?_ (by assumption)) | (refine Keeps.trd_of ?_ (by assumption))
      | exact Keeps.mk_of (by assumption) id id id id (fun _ => id)
      | refine Keeps.mk_of ?_ (by first | exact id | exact Store.wf_write _ _) id id id (fun _ => id)

theorem State.wdStart_keeps {s x : State} (h : Keeps s x) : Keeps s (State.wdStart x) := by
  unfold State.wdStart
  with_reducible
    repeat' first
      | assumption | apply State.wdPeriod_keeps | apply State.set_keeps

theorem State.wdStop_keeps {s x : State} (h : Keeps s x) : Keeps s (State.wdStop x) := by
  unfold State.wdStop
  with_reducible
    repeat' first
      | assumption | apply State.set_keeps | lift_lets
      | (intro y; refine Keeps.cut s y ?_ (fun hy => ?_); (on_goal 1 => subst y); (on_goal 2 => clear_value y)) | intro y
      | exact Keeps.mk_of (by assumption) id id id id (fun _ => id)
      | refine Keeps.mk_of ?_ (by first | exact id | exact Store.wf_write _ _) id id id (fun _ => id)

theorem State.wdViolation_keeps {s x : State} (a1 : Nat) (a2 : Nat) (a3 : Nat) (h : Keeps s x) : Keeps s (State.wdViolation x a1 a2 a3) := by
  unfold State.wdViolation
  with_reducible
    repeat' first
      | assumption | apply State.wdPeriod_keeps | apply State.directEnter_keeps
      | apply State.failover_keeps | apply State.raise_keeps | apply State.count_keeps | apply State.set_keeps | refine Keeps.ite ?_ ?_
      | lift_lets | (intro y; refine Keeps.cut s y ?_ (fun hy => ?_); (on_goal 1 => subst y); (on_goal 2 => clear_value y)) | intro y
      | exact Keeps.mk_of (by assumption) id id id id (fun _ => id)
      | refine Keeps.mk_of ?_ (by first | exact id | exact Store.wf_write _ _) id id id (fun _ => id)

theorem State.wdCheckin_keeps {s x : State} (a1 : Nat) (a2 : Nat) (a3 : Nat) (h : Keeps s x) : Keeps s (State.wdCheckin x a1 a2 a3) := by
  unfold State.wdCheckin
  with_reducible
    repeat' first
      | assumption | apply State.wdViolation_keeps | apply State.set_keeps | refine Keeps.ite ?_ ?_

theorem State.wdAfresh_keeps {s x : State} (a1 : Nat) (h : Keeps s x) : Keeps s (State.wdAfresh x a1) := by
  unfold State.wdAfresh
  with_reducible
    repeat' first
      | assumption | refine Keeps.ite ?_ ?_ | lift_lets
      | (intro y; refine Keeps.cut s y ?_ (fun hy => ?_); (on_goal 1 => subst y); (on_goal 2 => clear_value y)) | intro y
      | exact Keeps.mk_of (by assumption) id id id id (fun _ => id)
      | refine Keeps.mk_of ?_ (by first | exact id | exact Store.wf_write _ _) id id id (fun _ => id)

end Sys2Proof.Machine
end

