-- ==== Sys2Proof/Laws/KeepsCanOps.lean ====
section
/-!
SUPPORT. KeepsCanOps.lean: every operation of Machine/CanOps.lean keeps what Keeps names.
-/
set_option linter.unusedTactic false
set_option linter.unreachableTactic false
set_option linter.unusedVariables false
namespace Sys2Proof.Machine

theorem State.canQueue_keeps {s x : State} (a1 : CanBus) (a2 : CanFrame) (h : Keeps s x) : Keeps s (State.canQueue x a1 a2) := by
  unfold State.canQueue
  with_reducible
    repeat' first
      | assumption | apply State.modCan_keeps | refine Keeps.ite ?_ ?_ | lift_lets
      | (intro y; refine Keeps.cut s y ?_ (fun hy => ?_); (on_goal 1 => subst y); (on_goal 2 => clear_value y)) | intro y | split

theorem State.canKeep_keeps {s x : State} (a1 : Nat) (a2 : Nat) (a3 : List CanFrame) (h : Keeps s x) : Keeps s (State.canKeep x a1 a2 a3) := by
  unfold State.canKeep
  with_reducible
    repeat' first
      | assumption | apply State.modCan_keeps

theorem State.canAbandon_keeps {s x : State} (a1 : CanBus) (h : Keeps s x) : Keeps s (State.canAbandon x a1) := by
  unfold State.canAbandon
  with_reducible
    repeat' first
      | assumption | apply State.dropTransfer_keeps | apply State.modCan_keeps
      | refine Keeps.foldl _ ?_ (fun y a hy => ?_) | refine Keeps.ite ?_ ?_ | lift_lets
      | (intro y; refine Keeps.cut s y ?_ (fun hy => ?_); (on_goal 1 => subst y); (on_goal 2 => clear_value y)) | intro y | split
      | exact Keeps.mk_of (by assumption) id id id id (fun _ => id)
      | refine Keeps.mk_of ?_ (by first | exact id | exact Store.wf_write _ _) id id id (fun _ => id)

theorem State.canInit_keeps {s x : State} (a1 : CanBus) (h : Keeps s x) : Keeps s (State.canInit x a1) := by
  unfold State.canInit
  with_reducible
    repeat' first
      | assumption | apply State.canAbandon_keeps | apply State.setCanState_keeps
      | apply State.modCan_keeps | apply State.clearBy_keeps | apply State.set_keeps | refine Keeps.ite ?_ ?_ | lift_lets
      | (intro y; refine Keeps.cut s y ?_ (fun hy => ?_); (on_goal 1 => subst y); (on_goal 2 => clear_value y)) | intro y | split
      | exact Keeps.mk_of (by assumption) id id id id (fun _ => id)
      | refine Keeps.mk_of ?_ (by first | exact id | exact Store.wf_write _ _) id id id (fun _ => id)

theorem State.canStat_keeps {s x : State} (a1 : CanBus) (a2 : Nat) (h : Keeps s x) : Keeps s (State.canStat x a1 a2) := by
  unfold State.canStat
  with_reducible
    repeat' first
      | assumption | apply State.tally_keeps

theorem State.canDrain_keeps {s x : State} (a1 : CanBus) (h : Keeps s x) : Keeps s (State.canDrain x a1) := by
  unfold State.canDrain
  with_reducible
    repeat' first
      | assumption | apply State.canStat_keeps | apply State.modCan_keeps | refine Keeps.ite ?_ ?_
      | split

theorem State.linShorted_keeps {s x : State} (h : Keeps s x) : Keeps s (State.linShorted x) := by
  unfold State.linShorted
  with_reducible
    repeat' first
      | assumption | apply State.raise1_keeps | refine Keeps.ite ?_ ?_

theorem State.canIntegrated_keeps {s x : State} (a1 : CanBus) (h : Keeps s x) : Keeps s (State.canIntegrated x a1) := by
  unfold State.canIntegrated
  with_reducible
    repeat' first
      | assumption | apply State.setCanState_keeps | refine Keeps.ite ?_ ?_

end Sys2Proof.Machine
end

