-- ==== Sys2Proof/Laws/KeepsWriteOps.lean ====
section
/-!
SUPPORT. KeepsWriteOps.lean: every operation of Machine/WriteOps.lean keeps what Keeps names.
-/
set_option linter.unusedTactic false
set_option linter.unreachableTactic false
set_option linter.unusedVariables false
namespace Sys2Proof.Machine

theorem State.classRequest_keeps {s x : State} (h : Keeps s x) : Keeps s (State.classRequest x) := by
  unfold State.classRequest
  with_reducible
    repeat' first
      | assumption | apply State.classStart_keeps | refine Keeps.ite ?_ ?_ | lift_lets
      | (intro y; refine Keeps.cut s y ?_ (fun hy => ?_); (on_goal 1 => subst y); (on_goal 2 => clear_value y)) | intro y
      | exact Keeps.mk_of (by assumption) id id id id (fun _ => id)
      | refine Keeps.mk_of ?_ (by first | exact id | exact Store.wf_write _ _) id id id (fun _ => id)

theorem State.linkCtrl_keeps {s x : State} (a1 : Port) (a2 : Nat) (h : Keeps s x) : Keeps s (State.linkCtrl x a1 a2) := by
  unfold State.linkCtrl
  with_reducible
    repeat' first
      | assumption | apply State.policyContract_keeps | apply State.sendDetach_keeps
      | apply State.sendOffer_keeps | apply State.sendHard_keeps | apply State.sendMsg_keeps | split

theorem State.linkEnable_keeps {s x : State} (a1 : Port) (a2 : Bool) (h : Keeps s x) : Keeps s (State.linkEnable x a1 a2) := by
  unfold State.linkEnable
  with_reducible
    repeat' first
      | assumption | apply State.toOff_keeps | apply State.toDetached_keeps | refine Keeps.ite ?_ ?_

theorem State.dtcErase_keeps {s x : State} (a1 : Option Nat) (h : Keeps s x) : Keeps s (State.dtcErase x a1) := by
  unfold State.dtcErase
  with_reducible
    repeat' first
      | assumption | apply State.setDtcs_keeps | apply State.commitStart_keeps | apply State.set_keeps
      | refine Keeps.foldl _ ?_ (fun y a hy => ?_) | refine Keeps.ite ?_ ?_ | lift_lets
      | (intro y; refine Keeps.cut s y ?_ (fun hy => ?_); (on_goal 1 => subst y); (on_goal 2 => clear_value y)) | intro y

theorem State.dtcClearBy_keeps {s x : State} (a1 : Nat) (h : Keeps s x) : Keeps s (State.dtcClearBy x a1) := by
  unfold State.dtcClearBy
  with_reducible
    repeat' first
      | assumption | apply State.dtcErase_keeps | refine Keeps.ite ?_ ?_

theorem State.restoreDefaults_keeps {s x : State} (h : Keeps s x) : Keeps s (State.restoreDefaults x) := by
  unfold State.restoreDefaults
  with_reducible
    repeat' first
      | assumption | apply State.commitStart_keeps | apply State.journal_keeps
      | refine Keeps.foldl _ ?_ (fun y a hy => ?_) | lift_lets
      | (intro y; refine Keeps.cut s y ?_ (fun hy => ?_); (on_goal 1 => subst y); (on_goal 2 => clear_value y)) | intro y

theorem State.linCopies_keeps {s x : State} (h : Keeps s x) : Keeps s (State.linCopies x) := by
  unfold State.linCopies
  with_reducible
    repeat' first
      | assumption | lift_lets
      | (intro y; refine Keeps.cut s y ?_ (fun hy => ?_); (on_goal 1 => subst y); (on_goal 2 => clear_value y)) | intro y
      | exact Keeps.mk_of (by assumption) id id id id (fun _ => id)
      | refine Keeps.mk_of ?_ (by first | exact id | exact Store.wf_write _ _) id id id (fun _ => id)

theorem State.linCopy_keeps {s x : State} (a1 : Nat) (a2 : Nat) (h : Keeps s x) : Keeps s (State.linCopy x a1 a2) := by
  unfold State.linCopy
  with_reducible
    repeat' first
      | assumption | refine Keeps.ite ?_ ?_ | lift_lets
      | (intro y; refine Keeps.cut s y ?_ (fun hy => ?_); (on_goal 1 => subst y); (on_goal 2 => clear_value y)) | intro y
      | exact Keeps.mk_of (by assumption) id id id id (fun _ => id)
      | refine Keeps.mk_of ?_ (by first | exact id | exact Store.wf_write _ _) id id id (fun _ => id)

theorem State.rampWords_keeps {s x : State} (h : Keeps s x) : Keeps s (State.rampWords x) := by
  unfold State.rampWords
  with_reducible
    repeat' first
      | assumption | apply State.portIfNew_keeps | refine Keeps.foldl _ ?_ (fun y a hy => ?_)
      | refine Keeps.ite ?_ ?_ | lift_lets
      | (intro y; refine Keeps.cut s y ?_ (fun hy => ?_); (on_goal 1 => subst y); (on_goal 2 => clear_value y)) | intro y

theorem State.cellsClear_keeps {s x : State} (a1 : Nat) (h : Keeps s x) : Keeps s (State.cellsClear x a1) := by
  unfold State.cellsClear
  with_reducible
    repeat' first
      | assumption | apply State.balOff_keeps | apply State.chgEnter_keeps
      | apply State.cellReport_keeps | apply State.zeroBoth_keeps | apply State.clearK_keeps | apply State.clearBy_keeps
      | apply State.set_keeps | refine Keeps.foldl _ ?_ (fun y a hy => ?_) | refine Keeps.ite ?_ ?_ | lift_lets
      | (intro y; refine Keeps.cut s y ?_ (fun hy => ?_); (on_goal 1 => subst y); (on_goal 2 => clear_value y)) | intro y
      | exact Keeps.mk_of (by assumption) id id id id (fun _ => id)
      | refine Keeps.mk_of ?_ (by first | exact id | exact Store.wf_write _ _) id id id (fun _ => id)

theorem State.cellsWrite_keeps {s x : State} (a1 : Nat) (h : Keeps s x) : Keeps s (State.cellsWrite x a1) := by
  unfold State.cellsWrite
  with_reducible
    repeat' first
      | assumption | apply State.cellsClear_keeps | apply State.ordering_keeps | apply State.put_keeps

theorem State.chgEnableWrite_keeps {s x : State} (a1 : Nat) (h : Keeps s x) : Keeps s (State.chgEnableWrite x a1) := by
  unfold State.chgEnableWrite
  with_reducible
    repeat' first
      | assumption | apply State.chgWrite_keeps | apply State.selectOrHold_keeps
      | apply State.newCycle_keeps | apply State.chgEnter_keeps | apply State.writeChg_keeps | apply State.put_keeps
      | refine Keeps.ite ?_ ?_ | lift_lets
      | (intro y; refine Keeps.cut s y ?_ (fun hy => ?_); (on_goal 1 => subst y); (on_goal 2 => clear_value y)) | intro y

theorem State.chgServiceWrite_keeps {s x : State} (a1 : Nat) (h : Keeps s x) : Keeps s (State.chgServiceWrite x a1) := by
  unfold State.chgServiceWrite
  with_reducible
    repeat' first
      | assumption | apply State.chgModeChange_keeps | apply State.set_keeps

theorem State.modeReqSlot_keeps {s x : State} (a1 : Nat) (a2 : Nat) (h : Keeps s x) : Keeps s (State.modeReqSlot x a1 a2) := by
  unfold State.modeReqSlot
  with_reducible
    repeat' first
      | assumption | apply State.set_keeps | refine Keeps.ite ?_ ?_ | lift_lets
      | (intro y; refine Keeps.cut s y ?_ (fun hy => ?_); (on_goal 1 => subst y); (on_goal 2 => clear_value y)) | intro y
      | exact Keeps.mk_of (by assumption) id id id id (fun _ => id)
      | refine Keeps.mk_of ?_ (by first | exact id | exact Store.wf_write _ _) id id id (fun _ => id)

theorem State.storageDirect_keeps {s x : State} (h : Keeps s x) : Keeps s (State.storageDirect x) := by
  unfold State.storageDirect
  with_reducible
    repeat' first
      | assumption | apply State.wakeUp_keeps | apply State.enterStorage_keeps | refine Keeps.ite ?_ ?_
      | lift_lets | (intro y; refine Keeps.cut s y ?_ (fun hy => ?_); (on_goal 1 => subst y); (on_goal 2 => clear_value y)) | intro y
      | split

theorem State.modeReqAct_keeps {s x : State} (a1 : Option Nat) (h : Keeps s x) : Keeps s (State.modeReqAct x a1) := by
  unfold State.modeReqAct
  with_reducible
    repeat' first
      | assumption | apply State.storageDirect_keeps | apply State.resolve_keeps
      | apply State.wakeEvent_keeps | apply State.set_keeps | refine Keeps.ite ?_ ?_ | lift_lets
      | (intro y; refine Keeps.cut s y ?_ (fun hy => ?_); (on_goal 1 => subst y); (on_goal 2 => clear_value y)) | intro y

theorem State.modeReqWrite_keeps {s x : State} (a1 : Nat) (a2 : Nat) (h : Keeps s x) : Keeps s (State.modeReqWrite x a1 a2) := by
  unfold State.modeReqWrite
  with_reducible
    repeat' first
      | assumption | apply State.modeReqAct_keeps | apply State.modeReqSlot_keeps
      | refine Keeps.ite ?_ ?_

theorem State.trapRelease_keeps {s x : State} (h : Keeps s x) : Keeps s (State.trapRelease x) := by
  unfold State.trapRelease
  with_reducible
    repeat' first
      | assumption | apply State.set_keeps | refine Keeps.foldl _ ?_ (fun y a hy => ?_)
      | refine Keeps.ite ?_ ?_ | lift_lets
      | (intro y; refine Keeps.cut s y ?_ (fun hy => ?_); (on_goal 1 => subst y); (on_goal 2 => clear_value y)) | intro y
      | exact Keeps.mk_of (by assumption) id id id id (fun _ => id)
      | refine Keeps.mk_of ?_ (by first | exact id | exact Store.wf_write _ _) id id id (fun _ => id)

theorem State.recRequest_keeps {s x : State} (a1 : Master) (h : Keeps s x) : Keeps s (State.recRequest x a1) := by
  unfold State.recRequest
  with_reducible
    repeat' first
      | assumption | apply State.capture_keeps | apply State.raise_keeps | refine Keeps.ite ?_ ?_
      | lift_lets | (intro y; refine Keeps.cut s y ?_ (fun hy => ?_); (on_goal 1 => subst y); (on_goal 2 => clear_value y)) | intro y

theorem State.recKeep_keeps {s x : State} (a1 : Nat) (h : Keeps s x) : Keeps s (State.recKeep x a1) := by
  unfold State.recKeep
  with_reducible
    repeat' first
      | assumption | exact Keeps.mk_of (by assumption) id id id id (fun _ => id)
      | refine Keeps.mk_of ?_ (by first | exact id | exact Store.wf_write _ _) id id id (fun _ => id)

theorem State.switchStart_keeps {s x : State} (a1 : Nat) (h : Keeps s x) : Keeps s (State.switchStart x a1) := by
  unfold State.switchStart
  with_reducible
    repeat' first
      | assumption | apply State.idleIds_keeps | apply State.setBank_keeps | apply State.ordering_keeps
      | apply State.set_keeps | refine Keeps.ite ?_ ?_ | lift_lets
      | (intro y; refine Keeps.cut s y ?_ (fun hy => ?_); (on_goal 1 => subst y); (on_goal 2 => clear_value y)) | intro y
      | exact Keeps.mk_of (by assumption) id id id id (fun _ => id)
      | refine Keeps.mk_of ?_ (by first | exact id | exact Store.wf_write _ _) id id id (fun _ => id)

theorem State.otpProgram_keeps {s x : State} (a1 : List Byte) (h : Keeps s x) : Keeps s (State.otpProgram x a1) := by
  unfold State.otpProgram
  with_reducible
    repeat' first
      | assumption | apply State.set_keeps | lift_lets
      | (intro y; refine Keeps.cut s y ?_ (fun hy => ?_); (on_goal 1 => subst y); (on_goal 2 => clear_value y)) | intro y
      | exact Keeps.mk_of (by assumption) id id id id (fun _ => id)
      | refine Keeps.mk_of ?_ (by first | exact id | exact Store.wf_write _ _) id id id (fun _ => id)

theorem State.otpLock_keeps {s x : State} (a1 : Nat) (h : Keeps s x) : Keeps s (State.otpLock x a1) := by
  unfold State.otpLock
  with_reducible
    repeat' first
      | assumption | apply State.set_keeps | lift_lets
      | (intro y; refine Keeps.cut s y ?_ (fun hy => ?_); (on_goal 1 => subst y); (on_goal 2 => clear_value y)) | intro y
      | exact Keeps.mk_of (by assumption) id id id id (fun _ => id)
      | refine Keeps.mk_of ?_ (by first | exact id | exact Store.wf_write _ _) id id id (fun _ => id)

theorem State.applyWrite_keeps {s x : State} (a1 : Master) (a2 : Nat) (a3 : Nat) (h : Keeps s x) : Keeps s (State.applyWrite x a1 a2 a3) := by
  unfold State.applyWrite
  with_reducible
    repeat' first
      | assumption | apply State.otpLock_keeps | apply State.switchStart_keeps
      | apply State.recKeep_keeps | apply State.recRequest_keeps | apply State.trapRelease_keeps | apply State.modeReqWrite_keeps
      | apply State.chgServiceWrite_keeps | apply State.chgEnableWrite_keeps | apply State.cellsWrite_keeps | apply State.rampWords_keeps
      | apply State.linCopy_keeps | apply State.restoreDefaults_keeps | apply State.dtcClearBy_keeps | apply State.linkEnable_keeps
      | apply State.linkCtrl_keeps | apply State.classRequest_keeps | apply State.canInit_keeps | apply State.wdCheckin_keeps
      | apply State.haloUpdate_keeps | apply State.commitStart_keeps | apply State.wearReport_keeps | apply State.ordering_keeps
      | apply State.epochStart_keeps | apply State.hzClear_keeps | apply State.portIfNew_keeps | apply State.groupApply_keeps
      | apply State.send_keeps | apply State.put_keeps | apply State.journal_keeps | apply State.set_keeps | refine Keeps.ite ?_ ?_
      | refine Keeps.ite_snd ?_ ?_ | refine Keeps.ite_trd ?_ ?_ | lift_lets
      | (intro y; refine Keeps.cut s y ?_ (fun hy => ?_); (on_goal 1 => subst y); (on_goal 2 => clear_value y)) | intro y | split
      | (refine Keeps.snd_of ?_ (by assumption)) | (refine Keeps.trd_of ?_ (by assumption))
      | exact Keeps.mk_of (by assumption) id id id id (fun _ => id)
      | refine Keeps.mk_of ?_ (by first | exact id | exact Store.wf_write _ _) id id id (fun _ => id)

end Sys2Proof.Machine
end

