-- ==== Sys2Proof/Laws/KeepsObjectServer.lean ====
section
/-!
SUPPORT. KeepsObjectServer.lean: every operation of Machine/ObjectServer.lean keeps what Keeps names.
-/
set_option linter.unusedTactic false
set_option linter.unreachableTactic false
set_option linter.unusedVariables false
namespace Sys2Proof.Machine

theorem State.answerWith_keeps {s x : State} (a1 : Master) (a2 : Nat) (a3 : Nat) (a4 : List Byte) (h : Keeps s x) : Keeps s (State.answerWith x a1 a2 a3 a4) := by
  unfold State.answerWith
  with_reducible
    repeat' first
      | assumption | apply State.tally_keeps | apply State.set_keeps | refine Keeps.ite ?_ ?_
      | lift_lets | (intro y; refine Keeps.cut s y ?_ (fun hy => ?_); (on_goal 1 => subst y); (on_goal 2 => clear_value y)) | intro y
      | exact Keeps.mk_of (by assumption) id id id id (fun _ => id)
      | refine Keeps.mk_of ?_ (by first | exact id | exact Store.wf_write _ _) id id id (fun _ => id)

theorem State.recRead_keeps {s x : State} (a1 : Nat) (h : Keeps s x) : Keeps s (State.recRead x a1) := by
  unfold State.recRead
  with_reducible
    repeat' first
      | assumption | apply State.haloUpdate_keeps | apply State.dropRec_keeps
      | apply State.putRec_keeps | refine Keeps.ite ?_ ?_ | split

theorem State.clearing_keeps {s x : State} (a1 : Master) (a2 : Nat) (h : Keeps s x) : Keeps s (State.clearing x a1 a2) := by
  unfold State.clearing
  with_reducible
    repeat' first
      | assumption | apply State.recRead_keeps | apply State.put_keeps | refine Keeps.ite ?_ ?_

theorem State.readKey_keeps {s x : State} (a1 : Master) (a2 : Nat) (h : Keeps s x) : Keeps s (State.readKey x a1 a2).2.2 := by
  unfold State.readKey
  with_reducible
    repeat' first
      | assumption | apply State.clearing_keeps | apply State.answerWith_keeps | refine Keeps.ite ?_ ?_
      | refine Keeps.ite_snd ?_ ?_ | refine Keeps.ite_trd ?_ ?_ | lift_lets
      | (intro y; refine Keeps.cut s y ?_ (fun hy => ?_); (on_goal 1 => subst y); (on_goal 2 => clear_value y)) | intro y | split
      | (refine Keeps.snd_of ?_ (by assumption)) | (refine Keeps.trd_of ?_ (by assumption))

theorem State.dropSnap_keeps {s x : State} (a1 : Master) (a2 : Nat) (h : Keeps s x) : Keeps s (State.dropSnap x a1 a2) := by
  unfold State.dropSnap
  with_reducible
    repeat' first
      | assumption | lift_lets
      | (intro y; refine Keeps.cut s y ?_ (fun hy => ?_); (on_goal 1 => subst y); (on_goal 2 => clear_value y)) | intro y
      | exact Keeps.mk_of (by assumption) id id id id (fun _ => id)
      | refine Keeps.mk_of ?_ (by first | exact id | exact Store.wf_write _ _) id id id (fun _ => id)

theorem State.readSegment_keeps {s x : State} (a1 : Master) (a2 : Nat) (a3 : Nat) (a4 : Nat) (h : Keeps s x) : Keeps s (State.readSegment x a1 a2 a3 a4).2.2.2 := by
  unfold State.readSegment
  with_reducible
    repeat' first
      | assumption | apply State.dropSnap_keeps | apply State.clearing_keeps
      | apply State.answerWith_keeps | refine Keeps.ite ?_ ?_ | refine Keeps.ite_snd ?_ ?_ | refine Keeps.ite_trd ?_ ?_ | lift_lets
      | (intro y; refine Keeps.cut s y ?_ (fun hy => ?_); (on_goal 1 => subst y); (on_goal 2 => clear_value y)) | intro y | split
      | (refine Keeps.snd_of ?_ (by assumption)) | (refine Keeps.trd_of ?_ (by assumption))
      | exact Keeps.mk_of (by assumption) id id id id (fun _ => id)
      | refine Keeps.mk_of ?_ (by first | exact id | exact Store.wf_write _ _) id id id (fun _ => id)

theorem State.refusedWrite_keeps {s x : State} (a1 : Nat) (a2 : Nat) (a3 : Nat) (h : Keeps s x) : Keeps s (State.refusedWrite x a1 a2 a3) := by
  unfold State.refusedWrite
  with_reducible
    repeat' first
      | assumption | apply State.set_keeps | refine Keeps.ite ?_ ?_

theorem State.writeKey_keeps {s x : State} (a1 : Master) (a2 : Nat) (a3 : List Byte) (h : Keeps s x) : Keeps s (State.writeKey x a1 a2 a3).2 := by
  unfold State.writeKey
  with_reducible
    repeat' first
      | assumption | apply State.refusedWrite_keeps | apply State.answerWith_keeps
      | apply State.applyWrite_keeps | refine Keeps.ite ?_ ?_ | refine Keeps.ite_snd ?_ ?_ | refine Keeps.ite_trd ?_ ?_ | lift_lets
      | (intro y; refine Keeps.cut s y ?_ (fun hy => ?_); (on_goal 1 => subst y); (on_goal 2 => clear_value y)) | intro y | split
      | (refine Keeps.snd_of ?_ (by assumption)) | (refine Keeps.trd_of ?_ (by assumption))

theorem State.tableLoad_keeps {s x : State} (a1 : List Byte) (h : Keeps s x) : Keeps s (State.tableLoad x a1).2 := by
  unfold State.tableLoad
  with_reducible
    repeat' first
      | assumption | apply State.storeImage_keeps | apply State.raise_keeps | apply State.set_keeps
      | refine Keeps.ite ?_ ?_ | refine Keeps.ite_snd ?_ ?_ | refine Keeps.ite_trd ?_ ?_ | split
      | (refine Keeps.snd_of ?_ (by assumption)) | (refine Keeps.trd_of ?_ (by assumption))

theorem State.domainDone_keeps {s x : State} (a1 : Nat) (a2 : List Byte) (h : Keeps s x) : Keeps s (State.domainDone x a1 a2).2 := by
  unfold State.domainDone
  with_reducible
    repeat' first
      | assumption | apply State.tableLoad_keeps | apply State.otpProgram_keeps
      | refine Keeps.ite ?_ ?_ | refine Keeps.ite_snd ?_ ?_ | refine Keeps.ite_trd ?_ ?_ | lift_lets
      | (intro y; refine Keeps.cut s y ?_ (fun hy => ?_); (on_goal 1 => subst y); (on_goal 2 => clear_value y)) | intro y | split
      | (refine Keeps.snd_of ?_ (by assumption)) | (refine Keeps.trd_of ?_ (by assumption))

theorem State.putTransfer_keeps {s x : State} (a1 : Transfer) (h : Keeps s x) : Keeps s (State.putTransfer x a1) := by
  unfold State.putTransfer
  with_reducible
    repeat' first
      | assumption | lift_lets
      | (intro y; refine Keeps.cut s y ?_ (fun hy => ?_); (on_goal 1 => subst y); (on_goal 2 => clear_value y)) | intro y
      | exact Keeps.mk_of (by assumption) id id id id (fun _ => id)
      | refine Keeps.mk_of ?_ (by first | exact id | exact Store.wf_write _ _) id id id (fun _ => id)

theorem State.transferEnd_keeps {s x : State} (a1 : Master) (a2 : Nat) (a3 : List Byte) (h : Keeps s x) : Keeps s (State.transferEnd x a1 a2 a3).2 := by
  unfold State.transferEnd
  with_reducible
    repeat' first
      | assumption | apply State.domainDone_keeps | apply State.answerWith_keeps
      | apply State.dropTransfer_keeps | refine Keeps.ite ?_ ?_ | refine Keeps.ite_snd ?_ ?_ | refine Keeps.ite_trd ?_ ?_ | lift_lets
      | (intro y; refine Keeps.cut s y ?_ (fun hy => ?_); (on_goal 1 => subst y); (on_goal 2 => clear_value y)) | intro y | split
      | (refine Keeps.snd_of ?_ (by assumption)) | (refine Keeps.trd_of ?_ (by assumption))
      | exact Keeps.mk_of (by assumption) id id id id (fun _ => id)
      | refine Keeps.mk_of ?_ (by first | exact id | exact Store.wf_write _ _) id id id (fun _ => id)

theorem State.writeSegment_keeps {s x : State} (a1 : Master) (a2 : Nat) (a3 : Nat) (a4 : Bool) (a5 : List Byte) (h : Keeps s x) : Keeps s (State.writeSegment x a1 a2 a3 a4 a5).2 := by
  unfold State.writeSegment
  with_reducible
    repeat' first
      | assumption | apply State.transferEnd_keeps | apply State.putTransfer_keeps
      | apply State.answerWith_keeps | apply State.dropTransfer_keeps | apply State.set_keeps | refine Keeps.ite ?_ ?_
      | refine Keeps.ite_snd ?_ ?_ | refine Keeps.ite_trd ?_ ?_ | lift_lets
      | (intro y; refine Keeps.cut s y ?_ (fun hy => ?_); (on_goal 1 => subst y); (on_goal 2 => clear_value y)) | intro y | split
      | (refine Keeps.snd_of ?_ (by assumption)) | (refine Keeps.trd_of ?_ (by assumption))

theorem State.writeQ_keeps {s x : State} (a1 : Nat) (a2 : Nat) (h : Keeps s x) : Keeps s (State.writeQ x a1 a2).2 := by
  unfold State.writeQ
  with_reducible
    repeat' first
      | assumption | apply State.writeKey_keeps | lift_lets
      | (intro y; refine Keeps.cut s y ?_ (fun hy => ?_); (on_goal 1 => subst y); (on_goal 2 => clear_value y)) | intro y | split
      | (refine Keeps.snd_of ?_ (by assumption)) | (refine Keeps.trd_of ?_ (by assumption))

end Sys2Proof.Machine
end

