-- ==== Sys2Proof/Laws/KeepsSeqOps.lean ====
section
/-!
SUPPORT. KeepsSeqOps.lean: every operation of Machine/SeqOps.lean keeps what Keeps names.
-/
set_option linter.unusedTactic false
set_option linter.unreachableTactic false
set_option linter.unusedVariables false
namespace Sys2Proof.Machine

theorem State.modSq_keeps {s x : State} (a1 : Nat) (a2 : Seq → Seq) (h : Keeps s x) : Keeps s (State.modSq x a1 a2) := by
  unfold State.modSq
  with_reducible
    repeat' first
      | assumption | exact Keeps.mk_of (by assumption) id id id id (fun _ => id)
      | refine Keeps.mk_of ?_ (by first | exact id | exact Store.wf_write _ _) id id id (fun _ => id)

theorem State.countRefusal_keeps {s x : State} (a1 : Nat) (h : Keeps s x) : Keeps s (State.countRefusal x a1) := by
  unfold State.countRefusal
  with_reducible
    repeat' first
      | assumption | apply State.modSq_keeps | refine Keeps.ite ?_ ?_ | lift_lets
      | (intro y; refine Keeps.cut s y ?_ (fun hy => ?_); (on_goal 1 => subst y); (on_goal 2 => clear_value y)) | intro y
      | exact Keeps.mk_of (by assumption) id id id id (fun _ => id)
      | refine Keeps.mk_of ?_ (by first | exact id | exact Store.wf_write _ _) id id id (fun _ => id)

theorem State.seqRefused_keeps {s x : State} (a1 : Nat) (h : Keeps s x) : Keeps s (State.seqRefused x a1) := by
  unfold State.seqRefused
  with_reducible
    repeat' first
      | assumption | apply State.countRefusal_keeps | apply State.modSq_keeps | apply State.raise_keeps
      | refine Keeps.ite ?_ ?_ | lift_lets
      | (intro y; refine Keeps.cut s y ?_ (fun hy => ?_); (on_goal 1 => subst y); (on_goal 2 => clear_value y)) | intro y

theorem State.seqRemote_keeps {s x : State} (a1 : Nat) (a2 : Nat) (a3 : Nat) (a4 : List Byte) (h : Keeps s x) : Keeps s (State.seqRemote x a1 a2 a3 a4) := by
  unfold State.seqRemote
  with_reducible
    repeat' first
      | assumption | apply State.fabSend_keeps | apply State.fabBroadcast_keeps
      | refine Keeps.ite ?_ ?_ | lift_lets
      | (intro y; refine Keeps.cut s y ?_ (fun hy => ?_); (on_goal 1 => subst y); (on_goal 2 => clear_value y)) | intro y
      | exact Keeps.mk_of (by assumption) id id id id (fun _ => id)
      | refine Keeps.mk_of ?_ (by first | exact id | exact Store.wf_write _ _) id id id (fun _ => id)

theorem State.seqAct_keeps {s x : State} (a1 : Nat) (a2 : List Byte) (h : Keeps s x) : Keeps s (State.seqAct x a1 a2) := by
  unfold State.seqAct
  with_reducible
    repeat' first
      | assumption | apply State.seqRemote_keeps | apply State.seqRefused_keeps
      | apply State.writeKey_keeps | refine Keeps.ite ?_ ?_ | refine Keeps.ite_snd ?_ ?_ | refine Keeps.ite_trd ?_ ?_ | lift_lets
      | (intro y; refine Keeps.cut s y ?_ (fun hy => ?_); (on_goal 1 => subst y); (on_goal 2 => clear_value y)) | intro y | split
      | (refine Keeps.snd_of ?_ (by assumption)) | (refine Keeps.trd_of ?_ (by assumption))

theorem State.seqEnter_keeps {s x : State} (a1 : Nat) (a2 : Nat) (h : Keeps s x) : Keeps s (State.seqEnter x a1 a2) := by
  unfold State.seqEnter
  with_reducible
    repeat' first
      | assumption | apply State.seqAct_keeps | apply State.modSq_keeps | apply State.set_keeps
      | refine Keeps.foldl _ ?_ (fun y a hy => ?_) | lift_lets
      | (intro y; refine Keeps.cut s y ?_ (fun hy => ?_); (on_goal 1 => subst y); (on_goal 2 => clear_value y)) | intro y

theorem State.seqLoop_keeps {s x : State} (a1 : Nat) (h : Keeps s x) : Keeps s (State.seqLoop x a1) := by
  unfold State.seqLoop
  with_reducible
    repeat' first
      | assumption | apply State.modSq_keeps | apply State.raise_keeps | refine Keeps.ite ?_ ?_
      | lift_lets | (intro y; refine Keeps.cut s y ?_ (fun hy => ?_); (on_goal 1 => subst y); (on_goal 2 => clear_value y)) | intro y

theorem State.seqRun_keeps {s x : State} (i n : Nat) (h : Keeps s x) : Keeps s (x.seqRun i n) := by
  induction n generalizing x with
  | zero => exact Keeps.ite (State.seqLoop_keeps i h) h
  | succ n ih =>
    unfold State.seqRun
    split
    · exact h
    · exact ih (State.seqEnter_keeps _ _ h)

theorem State.seqTrap1_keeps {s x : State} (a1 : Nat) (h : Keeps s x) : Keeps s (State.seqTrap1 x a1) := by
  unfold State.seqTrap1
  with_reducible
    repeat' first
      | assumption | apply State.seqEnter_keeps | apply State.modSq_keeps | apply State.set_keeps
      | refine Keeps.ite ?_ ?_ | lift_lets
      | (intro y; refine Keeps.cut s y ?_ (fun hy => ?_); (on_goal 1 => subst y); (on_goal 2 => clear_value y)) | intro y

theorem State.seqTrap_keeps {s x : State} (h : Keeps s x) : Keeps s (State.seqTrap x) := by
  unfold State.seqTrap
  with_reducible
    repeat' first
      | assumption | apply State.seqTrap1_keeps | refine Keeps.foldl _ ?_ (fun y a hy => ?_)

theorem State.seqStart1_keeps {s x : State} (a1 : Bool) (a2 : Nat) (h : Keeps s x) : Keeps s (State.seqStart1 x a1 a2) := by
  unfold State.seqStart1
  with_reducible
    repeat' first
      | assumption | apply State.seqEnter_keeps | apply State.modSq_keeps | apply State.set_keeps
      | refine Keeps.ite ?_ ?_ | lift_lets
      | (intro y; refine Keeps.cut s y ?_ (fun hy => ?_); (on_goal 1 => subst y); (on_goal 2 => clear_value y)) | intro y

theorem State.seqStart_keeps {s x : State} (a1 : Bool) (h : Keeps s x) : Keeps s (State.seqStart x a1) := by
  unfold State.seqStart
  with_reducible
    repeat' first
      | assumption | apply State.seqStart1_keeps | refine Keeps.foldl _ ?_ (fun y a hy => ?_)

theorem State.seqRestart_keeps {s x : State} (a1 : Nat) (h : Keeps s x) : Keeps s (State.seqRestart x a1) := by
  unfold State.seqRestart
  with_reducible
    repeat' first
      | assumption | apply State.seqStart1_keeps | refine Keeps.foldl _ ?_ (fun y a hy => ?_)
      | refine Keeps.ite ?_ ?_

theorem State.seqEvaluate_keeps {s x : State} (a1 : Nat) (a2 : Bool) (h : Keeps s x) : Keeps s (State.seqEvaluate x a1 a2) := by
  unfold State.seqEvaluate
  with_reducible
    repeat' first
      | assumption | apply State.seqTrap1_keeps | apply State.seqRun_keeps | apply State.modSq_keeps
      | apply State.raise_keeps | apply State.set_keeps | refine Keeps.ite ?_ ?_ | lift_lets
      | (intro y; refine Keeps.cut s y ?_ (fun hy => ?_); (on_goal 1 => subst y); (on_goal 2 => clear_value y)) | intro y

end Sys2Proof.Machine
end

