-- ==== Sys2Proof/Laws/KeepsUdsOps.lean ====
section
/-!
SUPPORT. KeepsUdsOps.lean: every operation of Machine/UdsOps.lean keeps what Keeps names.
-/
set_option linter.unusedTactic false
set_option linter.unreachableTactic false
set_option linter.unusedVariables false
namespace Sys2Proof.Machine

theorem State.modU_keeps {s x : State} (a1 : Uds → Uds) (h : Keeps s x) : Keeps s (State.modU x a1) := by
  unfold State.modU
  with_reducible
    repeat' first
      | assumption | exact Keeps.mk_of (by assumption) id id id id (fun _ => id)
      | refine Keeps.mk_of ?_ (by first | exact id | exact Store.wf_write _ _) id id id (fun _ => id)

theorem State.udsEmit_keeps {s x : State} (a1 : List Byte) (h : Keeps s x) : Keeps s (State.udsEmit x a1) := by
  unfold State.udsEmit
  with_reducible
    repeat' first
      | assumption | apply State.canQueue_keeps

theorem State.udsOut_keeps {s x : State} (a1 : List Byte) (h : Keeps s x) : Keeps s (State.udsOut x a1) := by
  unfold State.udsOut
  with_reducible
    repeat' first
      | assumption | apply State.udsEmit_keeps | apply State.modU_keeps | refine Keeps.ite ?_ ?_
      | lift_lets | (intro y; refine Keeps.cut s y ?_ (fun hy => ?_); (on_goal 1 => subst y); (on_goal 2 => clear_value y)) | intro y

theorem State.udsPump_keeps {s x : State} (h : Keeps s x) : Keeps s (State.udsPump x) := by
  unfold State.udsPump
  with_reducible
    repeat' first
      | assumption | apply State.udsEmit_keeps | apply State.modU_keeps | refine Keeps.ite ?_ ?_
      | split | lift_lets | (intro y; refine Keeps.cut s y ?_ (fun hy => ?_); (on_goal 1 => subst y); (on_goal 2 => clear_value y))
      | intro y

theorem State.udsSend_keeps {s x : State} (a1 : List Byte) (h : Keeps s x) : Keeps s (State.udsSend x a1) := by
  unfold State.udsSend
  with_reducible
    repeat' first
      | assumption | apply State.udsOut_keeps | apply State.modU_keeps

theorem State.udsNegative_keeps {s x : State} (a1 : Bool) (a2 : Nat) (a3 : Nat) (h : Keeps s x) : Keeps s (State.udsNegative x a1 a2 a3) := by
  unfold State.udsNegative
  with_reducible
    repeat' first
      | assumption | apply State.udsSend_keeps | refine Keeps.ite ?_ ?_

theorem State.udsPositive_keeps {s x : State} (a1 : Bool) (a2 : Nat) (a3 : List Byte) (h : Keeps s x) : Keeps s (State.udsPositive x a1 a2 a3) := by
  unfold State.udsPositive
  with_reducible
    repeat' first
      | assumption | apply State.udsSend_keeps | apply State.modU_keeps | refine Keeps.ite ?_ ?_

theorem State.linRelease_keeps {s x : State} (a1 : Nat) (a2 : Nat) (h : Keeps s x) : Keeps s (State.linRelease x a1 a2) := by
  unfold State.linRelease
  with_reducible
    repeat' first
      | assumption | refine Keeps.ite ?_ ?_ | lift_lets
      | (intro y; refine Keeps.cut s y ?_ (fun hy => ?_); (on_goal 1 => subst y); (on_goal 2 => clear_value y)) | intro y | split
      | exact Keeps.mk_of (by assumption) id id id id (fun _ => id)
      | refine Keeps.mk_of ?_ (by first | exact id | exact Store.wf_write _ _) id id id (fun _ => id)

theorem State.releaseHeld_keeps {s x : State} (a1 : Nat) (a2 : Nat) (h : Keeps s x) : Keeps s (State.releaseHeld x a1 a2) := by
  unfold State.releaseHeld
  with_reducible
    repeat' first
      | assumption | apply State.linRelease_keeps | apply State.udsNegative_keeps
      | apply State.udsSend_keeps | apply State.modU_keeps | apply State.canKeep_keeps | apply State.canQueue_keeps
      | apply State.modCan_keeps | refine Keeps.foldl _ ?_ (fun y a hy => ?_) | refine Keeps.ite ?_ ?_ | lift_lets
      | (intro y; refine Keeps.cut s y ?_ (fun hy => ?_); (on_goal 1 => subst y); (on_goal 2 => clear_value y)) | intro y | split

theorem State.secSeed_keeps {s x : State} (a1 : Nat) (h : Keeps s x) : Keeps s (State.secSeed x a1).2.2 := by
  unfold State.secSeed
  with_reducible
    repeat' first
      | assumption | apply State.modU_keeps | apply State.draw_keeps | refine Keeps.ite ?_ ?_
      | refine Keeps.ite_snd ?_ ?_ | refine Keeps.ite_trd ?_ ?_ | lift_lets
      | (intro y; refine Keeps.cut s y ?_ (fun hy => ?_); (on_goal 1 => subst y); (on_goal 2 => clear_value y)) | intro y | split
      | (refine Keeps.snd_of ?_ (by assumption)) | (refine Keeps.trd_of ?_ (by assumption))

theorem State.secWrong_keeps {s x : State} (h : Keeps s x) : Keeps s (State.secWrong x).2 := by
  unfold State.secWrong
  with_reducible
    repeat' first
      | assumption | apply State.raise_keeps | apply State.tally_keeps | apply State.set_keeps
      | refine Keeps.ite ?_ ?_ | refine Keeps.ite_snd ?_ ?_ | refine Keeps.ite_trd ?_ ?_ | lift_lets
      | (intro y; refine Keeps.cut s y ?_ (fun hy => ?_); (on_goal 1 => subst y); (on_goal 2 => clear_value y)) | intro y | split
      | (refine Keeps.snd_of ?_ (by assumption)) | (refine Keeps.trd_of ?_ (by assumption))
      | exact Keeps.mk_of (by assumption) id id id id (fun _ => id)
      | refine Keeps.mk_of ?_ (by first | exact id | exact Store.wf_write _ _) id id id (fun _ => id)

theorem State.secKey_keeps {s x : State} (a1 : Nat) (a2 : List Byte) (h : Keeps s x) : Keeps s (State.secKey x a1 a2).2 := by
  unfold State.secKey
  with_reducible
    repeat' first
      | assumption | apply State.secWrong_keeps | apply State.modU_keeps | apply State.set_keeps
      | refine Keeps.ite ?_ ?_ | refine Keeps.ite_snd ?_ ?_ | refine Keeps.ite_trd ?_ ?_ | lift_lets
      | (intro y; refine Keeps.cut s y ?_ (fun hy => ?_); (on_goal 1 => subst y); (on_goal 2 => clear_value y)) | intro y | split
      | (refine Keeps.snd_of ?_ (by assumption)) | (refine Keeps.trd_of ?_ (by assumption))

end Sys2Proof.Machine
end

