-- ==== Sys2Proof/Laws/KeepsDictCmds.lean ====
section
/-!
SUPPORT. KeepsDictCmds.lean: every operation of Machine/DictCmds.lean keeps what Keeps names.
-/
set_option linter.unusedTactic false
set_option linter.unreachableTactic false
set_option linter.unusedVariables false
namespace Sys2Proof.Machine

theorem State.writeWhole_keeps {s x : State} (a1 : Master) (a2 : Nat) (a3 : List Byte) (h : Keeps s x) : Keeps s (State.writeWhole x a1 a2 a3).2 := by
  unfold State.writeWhole
  with_reducible
    repeat' first
      | assumption | apply State.writeSegment_keeps | apply State.writeKey_keeps
      | refine Keeps.ite ?_ ?_ | refine Keeps.ite_snd ?_ ?_ | refine Keeps.ite_trd ?_ ?_ | split
      | (refine Keeps.snd_of ?_ (by assumption)) | (refine Keeps.trd_of ?_ (by assumption))

theorem State.asked_keeps {s x : State} (a1 : Master) (a2 : State → State) (hf : ∀ y, Keeps s y → Keeps s (a2 y)) (h : Keeps s x) : Keeps s (State.asked x a1 a2) := by
  unfold State.asked
  with_reducible
    repeat' first
      | assumption | apply hf | refine Keeps.ite ?_ ?_

theorem execObjectWrite_keeps {s t : State} (a0 : Master) (a1 : Nat) (a2 : List Byte) (h : execObjectWrite a0 a1 a2 s = .next t) : Keeps s t := by
  unfold execObjectWrite at h
  cases h
  have h := Keeps.refl s
  with_reducible
    repeat' first
      | assumption | apply State.asked_keeps | apply State.writeWhole_keeps | apply State.logged_keeps
      | refine fun y hy => ?_ | split | (refine Keeps.snd_of ?_ (by assumption)) | (refine Keeps.trd_of ?_ (by assumption))

theorem execDomainWriteSegment_keeps {s t : State} (a0 : Master) (a1 : Nat) (a2 : Nat) (a3 : Bool) (a4 : List Byte) (h : execDomainWriteSegment a0 a1 a2 a3 a4 s = .next t) : Keeps s t := by
  unfold execDomainWriteSegment at h
  cases h
  have h := Keeps.refl s
  with_reducible
    repeat' first
      | assumption | apply State.asked_keeps | apply State.writeSegment_keeps | refine fun y hy => ?_
      | split | (refine Keeps.snd_of ?_ (by assumption)) | (refine Keeps.trd_of ?_ (by assumption))

theorem execDomainReadSegment_keeps {s t : State} (a0 : Master) (a1 : Nat) (a2 : Nat) (a3 : Nat) (h : execDomainReadSegment a0 a1 a2 a3 s = .next t) : Keeps s t := by
  unfold execDomainReadSegment at h
  cases h
  have h := Keeps.refl s
  with_reducible
    repeat' first
      | assumption | apply State.asked_keeps | apply State.readSegment_keeps | refine fun y hy => ?_
      | split | (refine Keeps.snd_of ?_ (by assumption)) | (refine Keeps.trd_of ?_ (by assumption))

theorem execDomainSnapshotExpiry_keeps {s t : State} (a0 : Master) (a1 : Nat) (h : execDomainSnapshotExpiry a0 a1 s = .next t) : Keeps s t := by
  unfold execDomainSnapshotExpiry at h
  cases h
  have h := Keeps.refl s
  with_reducible
    repeat' first
      | assumption | apply State.dropSnap_keeps

theorem execWholeObjectRead_keeps {s t : State} (a0 : Master) (a1 : Nat) (h : execWholeObjectRead a0 a1 s = .next t) : Keeps s t := by
  unfold execWholeObjectRead at h
  cases h
  have h := Keeps.refl s
  with_reducible
    repeat' first
      | assumption | apply State.asked_keeps | apply State.readKey_keeps | refine fun y hy => ?_
      | split | (refine Keeps.snd_of ?_ (by assumption)) | (refine Keeps.trd_of ?_ (by assumption))

theorem execOdLockWrite_keeps {s t : State} (a0 : Master) (a1 : Nat) (a2 : Nat) (h : execOdLockWrite a0 a1 a2 s = .next t) : Keeps s t := by
  unfold execOdLockWrite at h
  cases h
  have h := Keeps.refl s
  with_reducible
    repeat' first
      | assumption | apply State.asked_keeps | apply State.writeKey_keeps | apply State.logged_keeps
      | refine fun y hy => ?_ | split | (refine Keeps.snd_of ?_ (by assumption)) | (refine Keeps.trd_of ?_ (by assumption))

theorem execOdLockLeaseExpiry_keeps {s t : State} (a0 : Nat) (h : execOdLockLeaseExpiry a0 s = .next t) : Keeps s t := by
  unfold execOdLockLeaseExpiry at h
  cases h
  have h := Keeps.refl s
  with_reducible
    repeat' first
      | assumption | apply State.set_keeps | refine Keeps.ite ?_ ?_

theorem execOdCommit_keeps {s t : State} (a0 : Master) (a1 : Nat) (h : execOdCommit a0 a1 s = .next t) : Keeps s t := by
  unfold execOdCommit at h
  cases h
  have h := Keeps.refl s
  with_reducible
    repeat' first
      | assumption | apply State.asked_keeps | apply State.writeKey_keeps | apply State.logged_keeps
      | refine fun y hy => ?_ | split | (refine Keeps.snd_of ?_ (by assumption)) | (refine Keeps.trd_of ?_ (by assumption))

theorem execJournalCommit_keeps {s t : State} (h : execJournalCommit s = .next t) : Keeps s t := by
  unfold execJournalCommit at h
  cases h
  have h := Keeps.refl s
  with_reducible
    repeat' first
      | assumption | apply State.commitStart_keeps | refine Keeps.ite ?_ ?_

theorem execJournalCommitDone_keeps {s t : State} (a0 : Bool) (a1 : Nat) (h : execJournalCommitDone a0 a1 s = .next t) : Keeps s t := by
  unfold execJournalCommitDone at h
  cases h
  have h := Keeps.refl s
  with_reducible
    repeat' first
      | assumption | apply State.releaseHeld_keeps | apply State.commitAgain_keeps
      | apply State.commitDone_keeps | refine Keeps.ite ?_ ?_ | lift_lets
      | (intro y; refine Keeps.cut s y ?_ (fun hy => ?_); (on_goal 1 => subst y); (on_goal 2 => clear_value y)) | intro y

theorem execOdRestore_keeps {s t : State} (a0 : Master) (a1 : Nat) (h : execOdRestore a0 a1 s = .next t) : Keeps s t := by
  unfold execOdRestore at h
  cases h
  have h := Keeps.refl s
  with_reducible
    repeat' first
      | assumption | apply State.asked_keeps | apply State.writeKey_keeps | apply State.logged_keeps
      | refine fun y hy => ?_ | split | (refine Keeps.snd_of ?_ (by assumption)) | (refine Keeps.trd_of ?_ (by assumption))

theorem State.portSend_keeps {s x : State} (a1 : Nat) (a2 : Option (Master × Nat)) (h : Keeps s x) : Keeps s (State.portSend x a1 a2) := by
  unfold State.portSend
  with_reducible
    repeat' first
      | assumption | apply State.answerWith_keeps | apply State.portRaw_keeps
      | apply State.refuse_keeps | refine Keeps.ite ?_ ?_ | lift_lets
      | (intro y; refine Keeps.cut s y ?_ (fun hy => ?_); (on_goal 1 => subst y); (on_goal 2 => clear_value y)) | intro y | split

theorem execPortLatchWrite_keeps {s t : State} (a0 : Nat) (a1 : Nat) (a2 : Option (Master × Nat)) (h : execPortLatchWrite a0 a1 a2 s = .next t) : Keeps s t := by
  unfold execPortLatchWrite at h
  cases h
  have h := Keeps.refl s
  with_reducible
    repeat' first
      | assumption | apply State.portSend_keeps | apply State.logged_keeps | apply State.refuse_keeps
      | refine Keeps.ite ?_ ?_ | refine fun y hy => ?_

end Sys2Proof.Machine
end

