-- ==== Sys2Proof/Laws/KeepsPowerPath.lean ====
section
/-!
SUPPORT. KeepsPowerPath.lean: every operation of Machine/PowerPath.lean keeps what Keeps names.
-/
set_option linter.unusedTactic false
set_option linter.unreachableTactic false
set_option linter.unusedVariables false
namespace Sys2Proof.Machine

theorem State.rideEnter_keeps {s x : State} (a1 : Nat) (h : Keeps s x) : Keeps s (State.rideEnter x a1) := by
  unfold State.rideEnter
  with_reducible
    repeat' first
      | assumption | apply State.setMode_keeps | refine Keeps.ite ?_ ?_ | lift_lets
      | (intro y; refine Keeps.cut s y ?_ (fun hy => ?_); (on_goal 1 => subst y); (on_goal 2 => clear_value y)) | intro y
      | exact Keeps.mk_of (by assumption) id id id id (fun _ => id)
      | refine Keeps.mk_of ?_ (by first | exact id | exact Store.wf_write _ _) id id id (fun _ => id)

theorem State.rideReturn_keeps {s x : State} (h : Keeps s x) : Keeps s (State.rideReturn x) := by
  unfold State.rideReturn
  with_reducible
    repeat' first
      | assumption | apply State.actStored_keeps | apply State.toService_keeps
      | apply State.parkStart_keeps | apply State.setMode_keeps | refine Keeps.ite ?_ ?_ | lift_lets
      | (intro y; refine Keeps.cut s y ?_ (fun hy => ?_); (on_goal 1 => subst y); (on_goal 2 => clear_value y)) | intro y
      | exact Keeps.mk_of (by assumption) id id id id (fun _ => id)
      | refine Keeps.mk_of ?_ (by first | exact id | exact Store.wf_write _ _) id id id (fun _ => id)

theorem State.discFrom_keeps {s x : State} (h : Keeps s x) : Keeps s (State.discFrom x) := by
  unfold State.discFrom
  with_reducible
    repeat' first
      | assumption | lift_lets
      | (intro y; refine Keeps.cut s y ?_ (fun hy => ?_); (on_goal 1 => subst y); (on_goal 2 => clear_value y)) | intro y
      | exact Keeps.mk_of (by assumption) id id id id (fun _ => id)
      | refine Keeps.mk_of ?_ (by first | exact id | exact Store.wf_write _ _) id id id (fun _ => id)

theorem State.exhaustedAny_keeps {s x : State} (a1 : Int) (h : Keeps s x) : Keeps s (State.exhaustedAny x a1) := by
  unfold State.exhaustedAny
  with_reducible
    repeat' first
      | assumption | apply State.exhaustedStratus_keeps | apply State.exhausted_keeps
      | refine Keeps.ite ?_ ?_

theorem State.lossShell_keeps {s x : State} (a1 : Nat) (a2 : Bool) (a3 : Int) (h : Keeps s x) : Keeps s (State.lossShell x a1 a2 a3) := by
  unfold State.lossShell
  with_reducible
    repeat' first
      | assumption | apply State.rideEnter_keeps | apply State.classAbandon_keeps
      | apply State.exhausted_keeps | apply State.sourceLoss_keeps | apply State.srcState_keeps | apply State.probeAbandon_keeps
      | apply State.raise_keeps | apply State.count_keeps | refine Keeps.ite ?_ ?_ | lift_lets
      | (intro y; refine Keeps.cut s y ?_ (fun hy => ?_); (on_goal 1 => subst y); (on_goal 2 => clear_value y)) | intro y
      | exact Keeps.mk_of (by assumption) id id id id (fun _ => id)
      | refine Keeps.mk_of ?_ (by first | exact id | exact Store.wf_write _ _) id id id (fun _ => id)

theorem State.classCut_keeps {s x : State} (a1 : Nat) (h : Keeps s x) : Keeps s (State.classCut x a1) := by
  unfold State.classCut
  with_reducible
    repeat' first
      | assumption | apply State.classAbandon_keeps | apply State.rowLatches_keeps
      | apply State.srcState_keeps | apply State.discOff_keeps | apply State.commitWords_keeps | refine Keeps.ite ?_ ?_ | lift_lets
      | (intro y; refine Keeps.cut s y ?_ (fun hy => ?_); (on_goal 1 => subst y); (on_goal 2 => clear_value y)) | intro y
      | exact Keeps.mk_of (by assumption) id id id id (fun _ => id)
      | refine Keeps.mk_of ?_ (by first | exact id | exact Store.wf_write _ _) id id id (fun _ => id)

theorem State.drop_keeps {s x : State} (a1 : Nat) (h : Keeps s x) : Keeps s (State.drop x a1) := by
  unfold State.drop
  with_reducible
    repeat' first
      | assumption | apply State.classCut_keeps | apply State.lossShell_keeps
      | apply State.exhaustedAny_keeps | apply State.discFrom_keeps | apply State.exhaustedStratus_keeps | apply State.discOff_keeps
      | refine Keeps.ite ?_ ?_ | lift_lets
      | (intro y; refine Keeps.cut s y ?_ (fun hy => ?_); (on_goal 1 => subst y); (on_goal 2 => clear_value y)) | intro y
      | exact Keeps.mk_of (by assumption) id id id id (fun _ => id)
      | refine Keeps.mk_of ?_ (by first | exact id | exact Store.wf_write _ _) id id id (fun _ => id)

theorem State.dump_keeps {s x : State} (a1 : Nat) (h : Keeps s x) : Keeps s (State.dump x a1) := by
  unfold State.dump
  with_reducible
    repeat' first
      | assumption | apply State.classCut_keeps | apply State.lossShell_keeps
      | apply State.discFrom_keeps | apply State.discOff_keeps | refine Keeps.ite ?_ ?_ | lift_lets
      | (intro y; refine Keeps.cut s y ?_ (fun hy => ?_); (on_goal 1 => subst y); (on_goal 2 => clear_value y)) | intro y
      | exact Keeps.mk_of (by assumption) id id id id (fun _ => id)
      | refine Keeps.mk_of ?_ (by first | exact id | exact Store.wf_write _ _) id id id (fun _ => id)

theorem execVbusDrop_keeps {s t : State} (a0 : Nat) (h : execVbusDrop a0 s = .next t) : Keeps s t := by
  unfold execVbusDrop at h
  cases h
  have h := Keeps.refl s
  with_reducible
    repeat' first
      | assumption | apply State.drop_keeps | apply State.logged_keeps | refine fun y hy => ?_

theorem execLoadDump_keeps {s t : State} (a0 : Nat) (h : execLoadDump a0 s = .next t) : Keeps s t := by
  unfold execLoadDump at h
  cases h
  have h := Keeps.refl s
  with_reducible
    repeat' first
      | assumption | apply State.dump_keeps | apply State.logged_keeps | refine fun y hy => ?_

theorem execReverseCurrent_keeps {s t : State} (a0 : Fin 16) (a1 : Bool) (a2 : Nat) (h : execReverseCurrent a0 a1 a2 s = .next t) : Keeps s t := by
  unfold execReverseCurrent at h
  cases h
  have h := Keeps.refl s
  with_reducible
    repeat' first
      | assumption | apply State.drop_keeps | apply State.logged_keeps | apply State.ev_keeps
      | apply State.coreRaise_keeps | refine Keeps.ite ?_ ?_ | refine fun y hy => ?_

theorem State.longestNow_keeps {s x : State} (h : Keeps s x) : Keeps s (State.longestNow x) := by
  unfold State.longestNow
  with_reducible
    repeat' first
      | assumption | apply State.put_keeps | refine Keeps.ite ?_ ?_ | lift_lets
      | (intro y; refine Keeps.cut s y ?_ (fun hy => ?_); (on_goal 1 => subst y); (on_goal 2 => clear_value y)) | intro y
      | exact Keeps.mk_of (by assumption) id id id id (fun _ => id)
      | refine Keeps.mk_of ?_ (by first | exact id | exact Store.wf_write _ _) id id id (fun _ => id)

theorem State.discTo_keeps {s x : State} (h : Keeps s x) : Keeps s (State.discTo x) := by
  unfold State.discTo
  with_reducible
    repeat' first
      | assumption | lift_lets
      | (intro y; refine Keeps.cut s y ?_ (fun hy => ?_); (on_goal 1 => subst y); (on_goal 2 => clear_value y)) | intro y | split
      | exact Keeps.mk_of (by assumption) id id id id (fun _ => id)
      | refine Keeps.mk_of ?_ (by first | exact id | exact Store.wf_write _ _) id id id (fun _ => id)

theorem State.srcConnect_keeps {s x : State} (a1 : Nat) (a2 : Nat) (h : Keeps s x) : Keeps s (State.srcConnect x a1 a2) := by
  unfold State.srcConnect
  with_reducible
    repeat' first
      | assumption | apply State.discTo_keeps | apply State.longestNow_keeps
      | apply State.rideReturn_keeps | apply State.srcState_keeps | apply State.discDone_keeps | apply State.discOn_keeps
      | apply State.freeG_keeps | refine Keeps.ite ?_ ?_ | lift_lets
      | (intro y; refine Keeps.cut s y ?_ (fun hy => ?_); (on_goal 1 => subst y); (on_goal 2 => clear_value y)) | intro y
      | exact Keeps.mk_of (by assumption) id id id id (fun _ => id)
      | refine Keeps.mk_of ?_ (by first | exact id | exact Store.wf_write _ _) id id id (fun _ => id)

theorem State.reconnect_keeps {s x : State} (a1 : Nat) (a2 : Nat) (h : Keeps s x) : Keeps s (State.reconnect x a1 a2) := by
  unfold State.reconnect
  with_reducible
    repeat' first
      | assumption | apply State.srcConnect_keeps | apply State.classStart_keeps
      | apply State.srcState_keeps | refine Keeps.ite ?_ ?_ | lift_lets
      | (intro y; refine Keeps.cut s y ?_ (fun hy => ?_); (on_goal 1 => subst y); (on_goal 2 => clear_value y)) | intro y
      | exact Keeps.mk_of (by assumption) id id id id (fun _ => id)
      | refine Keeps.mk_of ?_ (by first | exact id | exact Store.wf_write _ _) id id id (fun _ => id)

theorem execSourceReconnect_keeps {s t : State} (a0 : Nat) (a1 : Nat) (a2 : Nat) (h : execSourceReconnect a0 a1 a2 s = .next t) : Keeps s t := by
  unfold execSourceReconnect at h
  cases h
  have h := Keeps.refl s
  with_reducible
    repeat' first
      | assumption | apply State.reconnect_keeps | apply State.logged_keeps | refine Keeps.ite ?_ ?_
      | refine fun y hy => ?_

theorem State.overRailTrip_keeps {s x : State} (a1 : Nat) (h : Keeps s x) : Keeps s (State.overRailTrip x a1) := by
  unfold State.overRailTrip
  with_reducible
    repeat' first
      | assumption | apply State.classAbandon_keeps | apply State.srcState_keeps
      | apply State.discOff_keeps | apply State.raise_keeps | apply State.count_keeps | refine Keeps.ite ?_ ?_ | lift_lets
      | (intro y; refine Keeps.cut s y ?_ (fun hy => ?_); (on_goal 1 => subst y); (on_goal 2 => clear_value y)) | intro y
      | exact Keeps.mk_of (by assumption) id id id id (fun _ => id)
      | refine Keeps.mk_of ?_ (by first | exact id | exact Store.wf_write _ _) id id id (fun _ => id)

theorem execOverRail_keeps {s t : State} (a0 : Nat) (h : execOverRail a0 s = .next t) : Keeps s t := by
  unfold execOverRail at h
  cases h
  have h := Keeps.refl s
  with_reducible
    repeat' first
      | assumption | apply State.overRailTrip_keeps | apply State.logged_keeps | refine fun y hy => ?_

theorem State.overRailEnd_keeps {s x : State} (a1 : Nat) (a2 : Nat) (h : Keeps s x) : Keeps s (State.overRailEnd x a1 a2) := by
  unfold State.overRailEnd
  with_reducible
    repeat' first
      | assumption | apply State.srcConnect_keeps | apply State.drop_keeps
      | apply State.classStart_keeps | refine Keeps.ite ?_ ?_ | lift_lets
      | (intro y; refine Keeps.cut s y ?_ (fun hy => ?_); (on_goal 1 => subst y); (on_goal 2 => clear_value y)) | intro y
      | exact Keeps.mk_of (by assumption) id id id id (fun _ => id)
      | refine Keeps.mk_of ?_ (by first | exact id | exact Store.wf_write _ _) id id id (fun _ => id)

theorem execOverRailReconnect_keeps {s t : State} (a0 : Nat) (a1 : Nat) (h : execOverRailReconnect a0 a1 s = .next t) : Keeps s t := by
  unfold execOverRailReconnect at h
  cases h
  have h := Keeps.refl s
  with_reducible
    repeat' first
      | assumption | apply State.overRailEnd_keeps | apply State.logged_keeps | refine fun y hy => ?_

theorem State.detach_keeps {s x : State} (h : Keeps s x) : Keeps s (State.detach x) := by
  unfold State.detach
  with_reducible
    repeat' first
      | assumption | apply State.classAbandon_keeps | apply State.exhaustedStratus_keeps
      | apply State.exhausted_keeps | apply State.srcState_keeps | apply State.discOff_keeps | refine Keeps.ite ?_ ?_ | lift_lets
      | (intro y; refine Keeps.cut s y ?_ (fun hy => ?_); (on_goal 1 => subst y); (on_goal 2 => clear_value y)) | intro y
      | exact Keeps.mk_of (by assumption) id id id id (fun _ => id)
      | refine Keeps.mk_of ?_ (by first | exact id | exact Store.wf_write _ _) id id id (fun _ => id)

theorem execVbusDetach_keeps {s t : State} (h : execVbusDetach s = .next t) : Keeps s t := by
  unfold execVbusDetach at h
  cases h
  have h := Keeps.refl s
  with_reducible
    repeat' first
      | assumption | apply State.detach_keeps | apply State.logged_keeps | refine fun y hy => ?_

theorem execPrechargeComplete_keeps {s t : State} (h : execPrechargeComplete s = .next t) : Keeps s t := by
  unfold execPrechargeComplete at h
  cases h
  have h := Keeps.refl s
  with_reducible
    repeat' first
      | assumption | apply State.logged_keeps | apply State.discDone_keeps | refine Keeps.ite ?_ ?_
      | refine fun y hy => ?_ | lift_lets
      | (intro y; refine Keeps.cut s y ?_ (fun hy => ?_); (on_goal 1 => subst y); (on_goal 2 => clear_value y)) | intro y
      | exact Keeps.mk_of (by assumption) id id id id (fun _ => id)
      | refine Keeps.mk_of ?_ (by first | exact id | exact Store.wf_write _ _) id id id (fun _ => id)

theorem State.block_keeps {s x : State} (h : Keeps s x) : Keeps s (State.block x) := by
  unfold State.block
  with_reducible
    repeat' first
      | assumption | apply State.classAbandon_keeps | apply State.srcState_keeps
      | apply State.discOff_keeps | refine Keeps.ite ?_ ?_ | lift_lets
      | (intro y; refine Keeps.cut s y ?_ (fun hy => ?_); (on_goal 1 => subst y); (on_goal 2 => clear_value y)) | intro y
      | exact Keeps.mk_of (by assumption) id id id id (fun _ => id)
      | refine Keeps.mk_of ?_ (by first | exact id | exact Store.wf_write _ _) id id id (fun _ => id)

theorem execDiscOpen_keeps {s t : State} (h : execDiscOpen s = .next t) : Keeps s t := by
  unfold execDiscOpen at h
  cases h
  have h := Keeps.refl s
  with_reducible
    repeat' first
      | assumption | apply State.block_keeps | apply State.logged_keeps | apply State.coreRaise_keeps
      | refine Keeps.ite ?_ ?_ | refine fun y hy => ?_

theorem execDiscShort_keeps {s t : State} (a0 : Fin 16) (h : execDiscShort a0 s = .next t) : Keeps s t := by
  unfold execDiscShort at h
  cases h
  have h := Keeps.refl s
  with_reducible
    repeat' first
      | assumption | apply State.block_keeps | apply State.logged_keeps | apply State.coreRaise_keeps
      | refine Keeps.ite ?_ ?_ | refine fun y hy => ?_

theorem execSrcClassify_keeps {s t : State} (a0 : Master) (a1 : Nat) (h : execSrcClassify a0 a1 s = .next t) : Keeps s t := by
  unfold execSrcClassify at h
  cases h
  have h := Keeps.refl s
  with_reducible
    repeat' first
      | assumption | apply State.asked_keeps | apply State.writeKey_keeps | apply State.logged_keeps
      | refine fun y hy => ?_ | split | (refine Keeps.snd_of ?_ (by assumption)) | (refine Keeps.trd_of ?_ (by assumption))

theorem State.srcUnknown_keeps {s x : State} (a1 : Nat) (h : Keeps s x) : Keeps s (State.srcUnknown x a1) := by
  unfold State.srcUnknown
  with_reducible
    repeat' first
      | assumption | apply State.raise_keeps | apply State.set_keeps

theorem State.srcOver_keeps {s x : State} (a1 : Nat) (h : Keeps s x) : Keeps s (State.srcOver x a1) := by
  unfold State.srcOver
  with_reducible
    repeat' first
      | assumption | apply State.srcUnknown_keeps | apply State.block_keeps | apply State.raise_keeps
      | apply State.set_keeps | lift_lets
      | (intro y; refine Keeps.cut s y ?_ (fun hy => ?_); (on_goal 1 => subst y); (on_goal 2 => clear_value y)) | intro y
      | exact Keeps.mk_of (by assumption) id id id id (fun _ => id)
      | refine Keeps.mk_of ?_ (by first | exact id | exact Store.wf_write _ _) id id id (fun _ => id)

theorem State.classWindow_keeps {s x : State} (a1 : Nat) (a2 : Nat) (h : Keeps s x) : Keeps s (State.classWindow x a1 a2) := by
  unfold State.classWindow
  with_reducible
    repeat' first
      | assumption | apply State.srcOver_keeps | apply State.rowLatches_keeps
      | apply State.discOn_keeps | apply State.commitWords_keeps | apply State.set_keeps | refine Keeps.ite ?_ ?_ | lift_lets
      | (intro y; refine Keeps.cut s y ?_ (fun hy => ?_); (on_goal 1 => subst y); (on_goal 2 => clear_value y)) | intro y
      | exact Keeps.mk_of (by assumption) id id id id (fun _ => id)
      | refine Keeps.mk_of ?_ (by first | exact id | exact Store.wf_write _ _) id id id (fun _ => id)

theorem execClassificationWindowTest_keeps {s t : State} (a0 : Nat) (a1 : Nat) (h : execClassificationWindowTest a0 a1 s = .next t) : Keeps s t := by
  unfold execClassificationWindowTest at h
  cases h
  have h := Keeps.refl s
  with_reducible
    repeat' first
      | assumption | apply State.classWindow_keeps | apply State.logged_keeps | refine fun y hy => ?_

theorem execClassificationStepStart_keeps {s t : State} (a0 : Nat) (a1 : Int) (h : execClassificationStepStart a0 a1 s = .next t) : Keeps s t := by
  unfold execClassificationStepStart at h
  cases h
  have h := Keeps.refl s
  with_reducible
    repeat' first
      | assumption | apply State.freeG_keeps | apply State.modG_keeps | refine Keeps.ite ?_ ?_
      | lift_lets | (intro y; refine Keeps.cut s y ?_ (fun hy => ?_); (on_goal 1 => subst y); (on_goal 2 => clear_value y)) | intro y
      | exact Keeps.mk_of (by assumption) id id id id (fun _ => id)
      | refine Keeps.mk_of ?_ (by first | exact id | exact Store.wf_write _ _) id id id (fun _ => id)

theorem execClassificationStepEnd_keeps {s t : State} (a0 : Bool) (h : execClassificationStepEnd a0 s = .next t) : Keeps s t := by
  unfold execClassificationStepEnd at h
  cases h
  have h := Keeps.refl s
  with_reducible
    repeat' first
      | assumption | apply State.logged_keeps | apply State.stopG_keeps | apply State.modG_keeps
      | refine Keeps.ite ?_ ?_ | refine fun y hy => ?_ | lift_lets
      | (intro y; refine Keeps.cut s y ?_ (fun hy => ?_); (on_goal 1 => subst y); (on_goal 2 => clear_value y)) | intro y
      | exact Keeps.mk_of (by assumption) id id id id (fun _ => id)
      | refine Keeps.mk_of ?_ (by first | exact id | exact Store.wf_write _ _) id id id (fun _ => id)

theorem State.slowIndex_keeps {s x : State} (a1 : Nat) (a2 : Nat) (a3 : Nat) (h : Keeps s x) : Keeps s (State.slowIndex x a1 a2 a3).2 := by
  unfold State.slowIndex
  with_reducible
    repeat' first
      | assumption | apply State.draw_keeps | refine Keeps.ite ?_ ?_ | refine Keeps.ite_snd ?_ ?_
      | refine Keeps.ite_trd ?_ ?_ | lift_lets
      | (intro y; refine Keeps.cut s y ?_ (fun hy => ?_); (on_goal 1 => subst y); (on_goal 2 => clear_value y)) | intro y | split
      | (refine Keeps.snd_of ?_ (by assumption)) | (refine Keeps.trd_of ?_ (by assumption))

theorem State.rippleReport_keeps {s x : State} (a1 : Nat) (a2 : List Nat) (h : Keeps s x) : Keeps s (State.rippleReport x a1 a2) := by
  unfold State.rippleReport
  with_reducible
    repeat' first
      | assumption | apply State.set_keeps | refine Keeps.ite ?_ ?_

theorem State.classEnd_keeps {s x : State} (a1 : Nat) (a2 : Nat) (a3 : Nat) (h : Keeps s x) : Keeps s (State.classEnd x a1 a2 a3) := by
  unfold State.classEnd
  with_reducible
    repeat' first
      | assumption | apply State.block_keeps | apply State.srcConnect_keeps
      | apply State.srcState_keeps | apply State.discOff_keeps | refine Keeps.ite ?_ ?_ | lift_lets
      | (intro y; refine Keeps.cut s y ?_ (fun hy => ?_); (on_goal 1 => subst y); (on_goal 2 => clear_value y)) | intro y
      | exact Keeps.mk_of (by assumption) id id id id (fun _ => id)
      | refine Keeps.mk_of ?_ (by first | exact id | exact Store.wf_write _ _) id id id (fun _ => id)

theorem State.classResult_keeps {s x : State} (a1 : Int) (a2 : Nat) (a3 : Nat) (a4 : Nat) (a5 : List Nat) (a6 : Nat) (a7 : Int) (a8 : Nat) (h : Keeps s x) : Keeps s (State.classResult x a1 a2 a3 a4 a5 a6 a7 a8) := by
  unfold State.classResult
  with_reducible
    repeat' first
      | assumption | apply State.classEnd_keeps | apply State.rippleReport_keeps
      | apply State.slowIndex_keeps | apply State.rowLatches_keeps | apply State.commitWords_keeps | apply State.raise_keeps
      | apply State.set_keeps | refine Keeps.ite ?_ ?_ | refine Keeps.ite_snd ?_ ?_ | refine Keeps.ite_trd ?_ ?_ | lift_lets
      | (intro y; refine Keeps.cut s y ?_ (fun hy => ?_); (on_goal 1 => subst y); (on_goal 2 => clear_value y)) | intro y | split
      | (refine Keeps.snd_of ?_ (by assumption)) | (refine Keeps.trd_of ?_ (by assumption))
      | exact Keeps.mk_of (by assumption) id id id id (fun _ => id)
      | refine Keeps.mk_of ?_ (by first | exact id | exact Store.wf_write _ _) id id id (fun _ => id)

theorem execClassificationResult_keeps {s t : State} (a0 : Int) (a1 : Nat) (a2 : Nat) (a3 : Nat) (a4 : List Nat) (a5 : Nat) (a6 : Int) (a7 : Nat) (h : execClassificationResult a0 a1 a2 a3 a4 a5 a6 a7 s = .next t) : Keeps s t := by
  unfold execClassificationResult at h
  cases h
  have h := Keeps.refl s
  with_reducible
    repeat' first
      | assumption | apply State.classResult_keeps | apply State.logged_keeps | refine fun y hy => ?_

theorem execReclassification_keeps {s t : State} (h : execReclassification s = .next t) : Keeps s t := by
  unfold execReclassification at h
  cases h
  have h := Keeps.refl s
  with_reducible
    repeat' first
      | assumption | apply State.classStart_keeps | apply State.logged_keeps | refine Keeps.ite ?_ ?_
      | refine fun y hy => ?_ | lift_lets
      | (intro y; refine Keeps.cut s y ?_ (fun hy => ?_); (on_goal 1 => subst y); (on_goal 2 => clear_value y)) | intro y
      | exact Keeps.mk_of (by assumption) id id id id (fun _ => id)
      | refine Keeps.mk_of ?_ (by first | exact id | exact Store.wf_write _ _) id id id (fun _ => id)

theorem State.iinUpdate_keeps {s x : State} (a1 : Nat) (a2 : Int) (h : Keeps s x) : Keeps s (State.iinUpdate x a1 a2) := by
  unfold State.iinUpdate
  with_reducible
    repeat' first
      | assumption | apply State.portIfNew_keeps | apply State.set_keeps | refine Keeps.ite ?_ ?_
      | lift_lets | (intro y; refine Keeps.cut s y ?_ (fun hy => ?_); (on_goal 1 => subst y); (on_goal 2 => clear_value y)) | intro y
      | exact Keeps.mk_of (by assumption) id id id id (fun _ => id)
      | refine Keeps.mk_of ?_ (by first | exact id | exact Store.wf_write _ _) id id id (fun _ => id)

theorem execIinLimitUpdate_keeps {s t : State} (a0 : Nat) (a1 : Int) (a2 : Nat) (a3 : List Nat) (h : execIinLimitUpdate a0 a1 a2 a3 s = .next t) : Keeps s t := by
  unfold execIinLimitUpdate at h
  cases h
  have h := Keeps.refl s
  with_reducible
    repeat' first
      | assumption | apply State.iinUpdate_keeps | apply State.rippleReport_keeps
      | apply State.logged_keeps | refine Keeps.ite ?_ ?_ | refine fun y hy => ?_

theorem execHarnessHigh_keeps {s t : State} (h : execHarnessHigh s = .next t) : Keeps s t := by
  unfold execHarnessHigh at h
  cases h
  have h := Keeps.refl s
  with_reducible
    repeat' first
      | assumption | apply State.raise_keeps | refine Keeps.ite ?_ ?_ | lift_lets
      | (intro y; refine Keeps.cut s y ?_ (fun hy => ?_); (on_goal 1 => subst y); (on_goal 2 => clear_value y)) | intro y
      | exact Keeps.mk_of (by assumption) id id id id (fun _ => id)
      | refine Keeps.mk_of ?_ (by first | exact id | exact Store.wf_write _ _) id id id (fun _ => id)

theorem execHeadroom_keeps {s t : State} (a0 : Group) (h : execHeadroom a0 s = .next t) : Keeps s t := by
  unfold execHeadroom at h
  cases h
  have h := Keeps.refl s
  with_reducible
    repeat' first
      | assumption | apply State.sendHard_keeps | apply State.logged_keeps | apply State.gateOpen_keeps
      | apply State.coreRaise_keeps | apply State.stopG_keeps | refine Keeps.ite ?_ ?_ | refine fun y hy => ?_ | lift_lets
      | (intro y; refine Keeps.cut s y ?_ (fun hy => ?_); (on_goal 1 => subst y); (on_goal 2 => clear_value y)) | intro y | split

theorem execPassThroughEntry_keeps {s t : State} (h : execPassThroughEntry s = .next t) : Keeps s t := by
  unfold execPassThroughEntry at h
  cases h
  have h := Keeps.refl s
  with_reducible
    repeat' first
      | assumption | apply State.passHold_keeps | apply State.logged_keeps | apply State.modG_keeps
      | refine Keeps.ite ?_ ?_ | refine fun y hy => ?_

theorem execCoreStall_keeps {s t : State} (h : execCoreStall s = .next t) : Keeps s t := by
  unfold execCoreStall at h
  cases h
  have h := Keeps.refl s
  with_reducible
    repeat' first
      | assumption | apply State.setOvercast_keeps | apply State.logged_keeps
      | apply State.coreRaise_keeps | apply State.stopG_keeps | refine Keeps.foldl _ ?_ (fun y a hy => ?_) | refine Keeps.ite ?_ ?_
      | refine fun y hy => ?_ | lift_lets
      | (intro y; refine Keeps.cut s y ?_ (fun hy => ?_); (on_goal 1 => subst y); (on_goal 2 => clear_value y)) | intro y
      | exact Keeps.mk_of (by assumption) id id id id (fun _ => id)
      | refine Keeps.mk_of ?_ (by first | exact id | exact Store.wf_write _ _) id id id (fun _ => id)

theorem execGroupApply_keeps {s t : State} (a0 : Master) (a1 : Nat) (h : execGroupApply a0 a1 s = .next t) : Keeps s t := by
  unfold execGroupApply at h
  cases h
  have h := Keeps.refl s
  with_reducible
    repeat' first
      | assumption | apply State.asked_keeps | apply State.writeKey_keeps | apply State.logged_keeps
      | refine fun y hy => ?_ | split | (refine Keeps.snd_of ?_ (by assumption)) | (refine Keeps.trd_of ?_ (by assumption))

end Sys2Proof.Machine
end

