-- ==== Sys2Proof/Laws/KeepsEnvelope.lean ====
section
/-!
SUPPORT. KeepsEnvelope.lean: every operation of Machine/Envelope.lean keeps what Keeps names.
-/
set_option linter.unusedTactic false
set_option linter.unreachableTactic false
set_option linter.unusedVariables false
namespace Sys2Proof.Machine

theorem State.modE_keeps {s x : State} (a1 : Env → Env) (h : Keeps s x) : Keeps s (State.modE x a1) := by
  unfold State.modE
  with_reducible
    repeat' first
      | assumption | exact Keeps.mk_of (by assumption) id id id id (fun _ => id)
      | refine Keeps.mk_of ?_ (by first | exact id | exact Store.wf_write _ _) id id id (fun _ => id)

theorem State.envSearch_keeps {s x : State} (h : Keeps s x) : Keeps s (State.envSearch x) := by
  unfold State.envSearch
  with_reducible
    repeat' first
      | assumption | apply State.modE_keeps | apply State.set_keeps

theorem State.envOff_keeps {s x : State} (h : Keeps s x) : Keeps s (State.envOff x) := by
  unfold State.envOff
  with_reducible
    repeat' first
      | assumption | apply State.modE_keeps | apply State.allocate_keeps | apply State.set_keeps

theorem State.envEnable_keeps {s x : State} (h : Keeps s x) : Keeps s (State.envEnable x) := by
  unfold State.envEnable
  with_reducible
    repeat' first
      | assumption | apply State.envOff_keeps | apply State.envSearch_keeps | refine Keeps.ite ?_ ?_

theorem State.envTally_keeps {s x : State} (a1 : Nat) (h : Keeps s x) : Keeps s (State.envTally x a1) := by
  unfold State.envTally
  with_reducible
    repeat' first
      | assumption | apply State.tally_keeps

theorem State.frameBad_keeps {s x : State} (a1 : Nat) (h : Keeps s x) : Keeps s (State.frameBad x a1) := by
  unfold State.frameBad
  with_reducible
    repeat' first
      | assumption | apply State.modE_keeps | apply State.again_keeps | apply State.raise_keeps
      | refine Keeps.ite ?_ ?_

theorem State.seqGap_keeps {s x : State} (a1 : Nat) (h : Keeps s x) : Keeps s (State.seqGap x a1) := by
  unfold State.seqGap
  with_reducible
    repeat' first
      | assumption | apply State.modE_keeps | apply State.again_keeps | apply State.raise_keeps
      | refine Keeps.ite ?_ ?_

theorem State.rateError_keeps {s x : State} (a1 : Nat) (h : Keeps s x) : Keeps s (State.rateError x a1) := by
  unfold State.rateError
  with_reducible
    repeat' first
      | assumption | apply State.raise_keeps

theorem State.dropContent_keeps {s x : State} (h : Keeps s x) : Keeps s (State.dropContent x) := by
  unfold State.dropContent
  with_reducible
    repeat' first
      | assumption | apply State.modE_keeps | apply State.set_keeps

theorem State.badCount_keeps {s x : State} (a1 : Nat) (h : Keeps s x) : Keeps s (State.badCount x a1) := by
  unfold State.badCount
  with_reducible
    repeat' first
      | assumption | apply State.frameBad_keeps | apply State.envTally_keeps | apply State.modE_keeps

theorem State.badFrame_keeps {s x : State} (a1 : Nat) (h : Keeps s x) : Keeps s (State.badFrame x a1) := by
  unfold State.badFrame
  with_reducible
    repeat' first
      | assumption | apply State.badCount_keeps | apply State.dropContent_keeps

theorem State.useHeader_keeps {s x : State} (h : Keeps s x) : Keeps s (State.useHeader x) := by
  unfold State.useHeader
  with_reducible
    repeat' first
      | assumption | apply State.modE_keeps | split

theorem State.goodOne_keeps {s x : State} (h : Keeps s x) : Keeps s (State.goodOne x) := by
  unfold State.goodOne
  with_reducible
    repeat' first
      | assumption | apply State.useHeader_keeps | apply State.envTally_keeps | apply State.modE_keeps
      | apply State.set_keeps | refine Keeps.ite ?_ ?_ | lift_lets
      | (intro y; refine Keeps.cut s y ?_ (fun hy => ?_); (on_goal 1 => subst y); (on_goal 2 => clear_value y)) | intro y

theorem State.detect_keeps {s x : State} (a1 : Nat) (h : Keeps s x) : Keeps s (State.detect x a1) := by
  unfold State.detect
  with_reducible
    repeat' first
      | assumption | apply State.rateError_keeps | apply State.modE_keeps | refine Keeps.ite ?_ ?_
      | lift_lets | (intro y; refine Keeps.cut s y ?_ (fun hy => ?_); (on_goal 1 => subst y); (on_goal 2 => clear_value y)) | intro y
      | split

theorem State.judge_keeps {s x : State} (a1 : Nat) (a2 : Nat) (h : Keeps s x) : Keeps s (State.judge x a1 a2) := by
  unfold State.judge
  with_reducible
    repeat' first
      | assumption | apply State.detect_keeps | apply State.goodOne_keeps | apply State.badFrame_keeps
      | apply State.rateError_keeps | apply State.modE_keeps | refine Keeps.ite ?_ ?_ | lift_lets
      | (intro y; refine Keeps.cut s y ?_ (fun hy => ?_); (on_goal 1 => subst y); (on_goal 2 => clear_value y)) | intro y

theorem State.transmit_keeps {s x : State} (h : Keeps s x) : Keeps s (State.transmit x) := by
  unfold State.transmit
  with_reducible
    repeat' first
      | assumption | apply State.modE_keeps | refine Keeps.ite ?_ ?_ | lift_lets
      | (intro y; refine Keeps.cut s y ?_ (fun hy => ?_); (on_goal 1 => subst y); (on_goal 2 => clear_value y)) | intro y

theorem State.shiftFrame_keeps {s x : State} (h : Keeps s x) : Keeps s (State.shiftFrame x) := by
  unfold State.shiftFrame
  with_reducible
    repeat' first
      | assumption | apply State.modE_keeps | apply State.demandNow_keeps | lift_lets
      | (intro y; refine Keeps.cut s y ?_ (fun hy => ?_); (on_goal 1 => subst y); (on_goal 2 => clear_value y)) | intro y

theorem State.newFrame_keeps {s x : State} (h : Keeps s x) : Keeps s (State.newFrame x) := by
  unfold State.newFrame
  with_reducible
    repeat' first
      | assumption | apply State.shiftFrame_keeps | apply State.transmit_keeps
      | apply State.release_keeps

theorem State.playAuto_keeps {s x : State} (h : Keeps s x) : Keeps s (State.playAuto x) := by
  unfold State.playAuto
  with_reducible
    repeat' first
      | assumption | apply State.parkAbort_keeps | apply State.setMode_keeps | refine Keeps.ite ?_ ?_

theorem State.edgeState_keeps {s x : State} (h : Keeps s x) : Keeps s (State.edgeState x) := by
  unfold State.edgeState
  with_reducible
    repeat' first
      | assumption | apply State.envEnable_keeps | apply State.envSearch_keeps | apply State.modE_keeps
      | refine Keeps.ite ?_ ?_

theorem State.bclkSeen_keeps {s x : State} (h : Keeps s x) : Keeps s (State.bclkSeen x) := by
  unfold State.bclkSeen
  with_reducible
    repeat' first
      | assumption | apply State.modE_keeps | refine Keeps.ite ?_ ?_

theorem State.frameEnd_keeps {s x : State} (a1 : Nat) (a2 : Nat) (h : Keeps s x) : Keeps s (State.frameEnd x a1 a2) := by
  unfold State.frameEnd
  with_reducible
    repeat' first
      | assumption | apply State.judge_keeps | apply State.dropContent_keeps | refine Keeps.ite ?_ ?_

theorem State.fsEdge_keeps {s x : State} (a1 : Nat) (a2 : Nat) (h : Keeps s x) : Keeps s (State.fsEdge x a1 a2) := by
  unfold State.fsEdge
  with_reducible
    repeat' first
      | assumption | apply State.frameEnd_keeps | apply State.bclkSeen_keeps
      | apply State.edgeState_keeps | apply State.playAuto_keeps | apply State.newFrame_keeps | apply State.modE_keeps
      | refine Keeps.ite ?_ ?_ | lift_lets
      | (intro y; refine Keeps.cut s y ?_ (fun hy => ?_); (on_goal 1 => subst y); (on_goal 2 => clear_value y)) | intro y

theorem State.fsEdgeAbsent_keeps {s x : State} (a1 : Nat) (h : Keeps s x) : Keeps s (State.fsEdgeAbsent x a1) := by
  unfold State.fsEdgeAbsent
  with_reducible
    repeat' first
      | assumption | apply State.bclkSeen_keeps | apply State.modE_keeps | refine Keeps.ite ?_ ?_
      | lift_lets | (intro y; refine Keeps.cut s y ?_ (fun hy => ?_); (on_goal 1 => subst y); (on_goal 2 => clear_value y)) | intro y

theorem execFrameStart_keeps {s t : State} (a0 : Nat) (a1 : Nat) (h : execFrameStart a0 a1 s = .next t) : Keeps s t := by
  unfold execFrameStart at h
  cases h
  have h := Keeps.refl s
  with_reducible
    repeat' first
      | assumption | apply State.fsEdgeAbsent_keeps | apply State.fsEdge_keeps
      | apply State.logged_keeps | refine Keeps.ite ?_ ?_ | refine fun y hy => ?_

theorem execFrameTimer_keeps {s t : State} (a0 : Nat) (h : execFrameTimer a0 s = .next t) : Keeps s t := by
  unfold execFrameTimer at h
  cases h
  have h := Keeps.refl s
  with_reducible
    repeat' first
      | assumption | apply State.newFrame_keeps | apply State.useHeader_keeps
      | apply State.badCount_keeps | apply State.dropContent_keeps | apply State.modE_keeps | apply State.logged_keeps
      | refine Keeps.ite ?_ ?_ | refine fun y hy => ?_ | lift_lets
      | (intro y; refine Keeps.cut s y ?_ (fun hy => ?_); (on_goal 1 => subst y); (on_goal 2 => clear_value y)) | intro y

theorem State.capGrant_keeps {s x : State} (h : Keeps s x) : Keeps s (State.capGrant x) := by
  unfold State.capGrant
  with_reducible
    repeat' first
      | assumption | apply State.modE_keeps | apply State.set_keeps | refine Keeps.ite ?_ ?_
      | lift_lets | (intro y; refine Keeps.cut s y ?_ (fun hy => ?_); (on_goal 1 => subst y); (on_goal 2 => clear_value y)) | intro y

theorem State.feedLost_keeps {s x : State} (h : Keeps s x) : Keeps s (State.feedLost x) := by
  unfold State.feedLost
  with_reducible
    repeat' first
      | assumption | apply State.capGrant_keeps | apply State.modE_keeps | apply State.allocate_keeps
      | apply State.demandNow_keeps | apply State.raise_keeps | apply State.count_keeps | apply State.set_keeps | lift_lets
      | (intro y; refine Keeps.cut s y ?_ (fun hy => ?_); (on_goal 1 => subst y); (on_goal 2 => clear_value y)) | intro y

theorem execFeedLost_keeps {s t : State} (h : execFeedLost s = .next t) : Keeps s t := by
  unfold execFeedLost at h
  cases h
  have h := Keeps.refl s
  with_reducible
    repeat' first
      | assumption | apply State.feedLost_keeps | apply State.logged_keeps | refine Keeps.ite ?_ ?_
      | refine fun y hy => ?_

theorem execEnvDoutRelease_keeps {s t : State} (h : execEnvDoutRelease s = .next t) : Keeps s t := by
  unfold execEnvDoutRelease at h
  cases h
  have h := Keeps.refl s
  with_reducible
    repeat' first
      | assumption | apply State.modE_keeps

theorem State.header_keeps {s x : State} (a1 : Nat) (h : Keeps s x) : Keeps s (State.header x a1) := by
  unfold State.header
  with_reducible
    repeat' first
      | assumption | apply State.seqGap_keeps | apply State.envTally_keeps | apply State.modE_keeps
      | apply State.raise_keeps | apply State.set_keeps | refine Keeps.ite ?_ ?_ | lift_lets
      | (intro y; refine Keeps.cut s y ?_ (fun hy => ?_); (on_goal 1 => subst y); (on_goal 2 => clear_value y)) | intro y

theorem execDemandHeader_keeps {s t : State} (a0 : BitVec 32) (h : execDemandHeader a0 s = .next t) : Keeps s t := by
  unfold execDemandHeader at h
  cases h
  have h := Keeps.refl s
  with_reducible
    repeat' first
      | assumption | apply State.header_keeps | apply State.bclkSeen_keeps | apply State.modE_keeps
      | refine Keeps.ite ?_ ?_ | lift_lets
      | (intro y; refine Keeps.cut s y ?_ (fun hy => ?_); (on_goal 1 => subst y); (on_goal 2 => clear_value y)) | intro y

theorem State.slotDemand_keeps {s x : State} (a1 : Nat) (a2 : Nat) (a3 : Nat) (h : Keeps s x) : Keeps s (State.slotDemand x a1 a2 a3) := by
  unfold State.slotDemand
  with_reducible
    repeat' first
      | assumption | apply State.modE_keeps | apply State.clearPair_keeps
      | apply State.raiseEntries_keeps | refine Keeps.ite ?_ ?_ | lift_lets
      | (intro y; refine Keeps.cut s y ?_ (fun hy => ?_); (on_goal 1 => subst y); (on_goal 2 => clear_value y)) | intro y

theorem execDemandSlot_keeps {s t : State} (a0 : Fin 16) (a1 : BitVec 32) (h : execDemandSlot a0 a1 s = .next t) : Keeps s t := by
  unfold execDemandSlot at h
  cases h
  have h := Keeps.refl s
  with_reducible
    repeat' first
      | assumption | apply State.slotDemand_keeps | apply State.bclkSeen_keeps | apply State.modE_keeps
      | apply State.releaseIfNew_keeps | apply State.demandNow_keeps | apply State.logged_keeps | refine Keeps.ite ?_ ?_
      | refine fun y hy => ?_ | lift_lets
      | (intro y; refine Keeps.cut s y ?_ (fun hy => ?_); (on_goal 1 => subst y); (on_goal 2 => clear_value y)) | intro y | split

theorem State.overDemand_keeps {s x : State} (h : Keeps s x) : Keeps s (State.overDemand x) := by
  unfold State.overDemand
  with_reducible
    repeat' first
      | assumption | apply State.modE_keeps | apply State.raise_keeps | apply State.count_keeps
      | refine Keeps.ite ?_ ?_ | lift_lets
      | (intro y; refine Keeps.cut s y ?_ (fun hy => ?_); (on_goal 1 => subst y); (on_goal 2 => clear_value y)) | intro y | split

theorem execGrantComputation_keeps {s t : State} (h : execGrantComputation s = .next t) : Keeps s t := by
  unfold execGrantComputation at h
  cases h
  have h := Keeps.refl s
  with_reducible
    repeat' first
      | assumption | apply State.overDemand_keeps | apply State.grantCompute_keeps
      | refine Keeps.ite ?_ ?_

theorem State.grantLate_keeps {s x : State} (h : Keeps s x) : Keeps s (State.grantLate x) := by
  unfold State.grantLate
  with_reducible
    repeat' first
      | assumption | apply State.modE_keeps | apply State.raise_keeps | lift_lets
      | (intro y; refine Keeps.cut s y ?_ (fun hy => ?_); (on_goal 1 => subst y); (on_goal 2 => clear_value y)) | intro y | split

theorem execGrantLate_keeps {s t : State} (h : execGrantLate s = .next t) : Keeps s t := by
  unfold execGrantLate at h
  cases h
  have h := Keeps.refl s
  with_reducible
    repeat' first
      | assumption | apply State.grantLate_keeps | refine Keeps.ite ?_ ?_

theorem execEnvCfgWrite_keeps {s t : State} (a0 : Master) (a1 : Nat) (h : execEnvCfgWrite a0 a1 s = .next t) : Keeps s t := by
  unfold execEnvCfgWrite at h
  cases h
  have h := Keeps.refl s
  with_reducible
    repeat' first
      | assumption | apply State.asked_keeps | apply State.writeKey_keeps | apply State.logged_keeps
      | refine fun y hy => ?_ | split | (refine Keeps.snd_of ?_ (by assumption)) | (refine Keeps.trd_of ?_ (by assumption))

end Sys2Proof.Machine
end

