-- ==== Sys2Proof/Laws/KeepsMeasurement.lean ====
section
/-!
SUPPORT. KeepsMeasurement.lean: every operation of Machine/Measurement.lean keeps what Keeps names.
-/
set_option linter.unusedTactic false
set_option linter.unreachableTactic false
set_option linter.unusedVariables false
namespace Sys2Proof.Machine

theorem State.slotsStart_keeps {s x : State} (a1 : Nat) (h : Keeps s x) : Keeps s (State.slotsStart x a1) := by
  unfold State.slotsStart
  with_reducible
    repeat' first
      | assumption | refine Keeps.foldl _ ?_ (fun y a hy => ?_)
      | exact Keeps.mk_of (by assumption) id id id id (fun _ => id)
      | refine Keeps.mk_of ?_ (by first | exact id | exact Store.wf_write _ _) id id id (fun _ => id)

theorem State.takeMasks_keeps {s x : State} (h : Keeps s x) : Keeps s (State.takeMasks x) := by
  unfold State.takeMasks
  with_reducible
    repeat' first
      | assumption | apply State.slotsStart_keeps | apply State.set_keeps
      | refine Keeps.foldl _ ?_ (fun y a hy => ?_) | refine Keeps.ite ?_ ?_ | lift_lets
      | (intro y; refine Keeps.cut s y ?_ (fun hy => ?_); (on_goal 1 => subst y); (on_goal 2 => clear_value y)) | intro y
      | exact Keeps.mk_of (by assumption) id id id id (fun _ => id)
      | refine Keeps.mk_of ?_ (by first | exact id | exact Store.wf_write _ _) id id id (fun _ => id)

theorem State.measStart_keeps {s x : State} (h : Keeps s x) : Keeps s (State.measStart x) := by
  unfold State.measStart
  with_reducible
    repeat' first
      | assumption | apply State.takeMasks_keeps | apply State.noResults_keeps | apply State.set_keeps
      | refine Keeps.ite ?_ ?_ | lift_lets
      | (intro y; refine Keeps.cut s y ?_ (fun hy => ?_); (on_goal 1 => subst y); (on_goal 2 => clear_value y)) | intro y
      | exact Keeps.mk_of (by assumption) id id id id (fun _ => id)
      | refine Keeps.mk_of ?_ (by first | exact id | exact Store.wf_write _ _) id id id (fun _ => id)

theorem State.cellOv_keeps {s x : State} (a1 : Nat) (h : Keeps s x) : Keeps s (State.cellOv x a1) := by
  unfold State.cellOv
  with_reducible
    repeat' first
      | assumption | apply State.chgFault_keeps | apply State.chgEvent_keeps | refine Keeps.ite ?_ ?_
      | lift_lets | (intro y; refine Keeps.cut s y ?_ (fun hy => ?_); (on_goal 1 => subst y); (on_goal 2 => clear_value y)) | intro y
      | exact Keeps.mk_of (by assumption) id id id id (fun _ => id)
      | refine Keeps.mk_of ?_ (by first | exact id | exact Store.wf_write _ _) id id id (fun _ => id)

theorem State.onResult_keeps {s x : State} (a1 : Nat) (a2 : Nat) (h : Keeps s x) : Keeps s (State.onResult x a1 a2) := by
  unfold State.onResult
  with_reducible
    repeat' first
      | assumption | apply State.cellOv_keeps | apply State.cellScan_keeps | apply State.coulomb_keeps
      | refine Keeps.ite ?_ ?_ | lift_lets
      | (intro y; refine Keeps.cut s y ?_ (fun hy => ?_); (on_goal 1 => subst y); (on_goal 2 => clear_value y)) | intro y

theorem State.slotNext_keeps {s x : State} (a1 : Nat) (h : Keeps s x) : Keeps s (State.slotNext x a1) := by
  unfold State.slotNext
  with_reducible
    repeat' first
      | assumption | lift_lets
      | (intro y; refine Keeps.cut s y ?_ (fun hy => ?_); (on_goal 1 => subst y); (on_goal 2 => clear_value y)) | intro y
      | exact Keeps.mk_of (by assumption) id id id id (fun _ => id)
      | refine Keeps.mk_of ?_ (by first | exact id | exact Store.wf_write _ _) id id id (fun _ => id)

theorem execSlotComplete_keeps {s t : State} (a0 : Fin 64) (a1 : Int) (a2 : List Int) (a3 : Bool) (a4 : Bool) (a5 : Nat) (h : execSlotComplete a0 a1 a2 a3 a4 a5 s = .next t) : Keeps s t := by
  unfold execSlotComplete at h
  cases h
  have h := Keeps.refl s
  with_reducible
    repeat' first
      | assumption | apply State.slotNext_keeps | apply State.onResult_keeps | apply State.logged_keeps
      | apply State.set_keeps | refine Keeps.ite ?_ ?_ | refine fun y hy => ?_

theorem State.powerFlow_keeps {s x : State} (h : Keeps s x) : Keeps s (State.powerFlow x) := by
  unfold State.powerFlow
  with_reducible
    repeat' first
      | assumption | apply State.setI_keeps | refine Keeps.ite ?_ ?_ | lift_lets
      | (intro y; refine Keeps.cut s y ?_ (fun hy => ?_); (on_goal 1 => subst y); (on_goal 2 => clear_value y)) | intro y
      | exact Keeps.mk_of (by assumption) id id id id (fun _ => id)
      | refine Keeps.mk_of ?_ (by first | exact id | exact Store.wf_write _ _) id id id (fun _ => id)

theorem State.rhSet_keeps {s x : State} (a1 : Nat) (h : Keeps s x) : Keeps s (State.rhSet x a1) := by
  unfold State.rhSet
  with_reducible
    repeat' first
      | assumption | apply State.set_keeps | lift_lets
      | (intro y; refine Keeps.cut s y ?_ (fun hy => ?_); (on_goal 1 => subst y); (on_goal 2 => clear_value y)) | intro y
      | exact Keeps.mk_of (by assumption) id id id id (fun _ => id)
      | refine Keeps.mk_of ?_ (by first | exact id | exact Store.wf_write _ _) id id id (fun _ => id)

theorem State.refine_keeps {s x : State} (h : Keeps s x) : Keeps s (State.refine x) := by
  unfold State.refine
  with_reducible
    repeat' first
      | assumption | apply State.rhSet_keeps | refine Keeps.ite ?_ ?_ | lift_lets
      | (intro y; refine Keeps.cut s y ?_ (fun hy => ?_); (on_goal 1 => subst y); (on_goal 2 => clear_value y)) | intro y
      | exact Keeps.mk_of (by assumption) id id id id (fun _ => id)
      | refine Keeps.mk_of ?_ (by first | exact id | exact Store.wf_write _ _) id id id (fun _ => id)

theorem State.parkScanEnd_keeps {s x : State} (h : Keeps s x) : Keeps s (State.parkScanEnd x) := by
  unfold State.parkScanEnd
  with_reducible
    repeat' first
      | assumption | apply State.slotsStart_keeps | refine Keeps.ite ?_ ?_ | lift_lets
      | (intro y; refine Keeps.cut s y ?_ (fun hy => ?_); (on_goal 1 => subst y); (on_goal 2 => clear_value y)) | intro y
      | exact Keeps.mk_of (by assumption) id id id id (fun _ => id)
      | refine Keeps.mk_of ?_ (by first | exact id | exact Store.wf_write _ _) id id id (fun _ => id)

theorem execScanComplete_keeps {s t : State} (a0 : Fin 4) (a1 : Nat) (h : execScanComplete a0 a1 s = .next t) : Keeps s t := by
  unfold execScanComplete at h
  cases h
  have h := Keeps.refl s
  with_reducible
    repeat' first
      | assumption | apply State.parkScanEnd_keeps | apply State.refine_keeps
      | apply State.powerFlow_keeps | apply State.flowWatch_keeps | apply State.set_keeps | refine Keeps.ite ?_ ?_ | lift_lets
      | (intro y; refine Keeps.cut s y ?_ (fun hy => ?_); (on_goal 1 => subst y); (on_goal 2 => clear_value y)) | intro y
      | exact Keeps.mk_of (by assumption) id id id id (fun _ => id)
      | refine Keeps.mk_of ?_ (by first | exact id | exact Store.wf_write _ _) id id id (fun _ => id)

theorem execScanStall_keeps {s t : State} (a0 : Fin 4) (a1 : Nat) (h : execScanStall a0 a1 s = .next t) : Keeps s t := by
  unfold execScanStall at h
  cases h
  have h := Keeps.refl s
  with_reducible
    repeat' first
      | assumption | apply State.raise_keeps | apply State.set_keeps
      | refine Keeps.foldl _ ?_ (fun y a hy => ?_) | refine Keeps.ite ?_ ?_ | lift_lets
      | (intro y; refine Keeps.cut s y ?_ (fun hy => ?_); (on_goal 1 => subst y); (on_goal 2 => clear_value y)) | intro y
      | exact Keeps.mk_of (by assumption) id id id id (fun _ => id)
      | refine Keeps.mk_of ?_ (by first | exact id | exact Store.wf_write _ _) id id id (fun _ => id)

theorem State.refCheck_keeps {s x : State} (h : Keeps s x) : Keeps s (State.refCheck x) := by
  unfold State.refCheck
  with_reducible
    repeat' first
      | assumption | apply State.clearK_keeps | apply State.raise1_keeps | refine Keeps.ite ?_ ?_
      | lift_lets | (intro y; refine Keeps.cut s y ?_ (fun hy => ?_); (on_goal 1 => subst y); (on_goal 2 => clear_value y)) | intro y
      | exact Keeps.mk_of (by assumption) id id id id (fun _ => id)
      | refine Keeps.mk_of ?_ (by first | exact id | exact Store.wf_write _ _) id id id (fun _ => id)

theorem State.senseCheck_keeps {s x : State} (a1 : Port) (h : Keeps s x) : Keeps s (State.senseCheck x a1) := by
  unfold State.senseCheck
  with_reducible
    repeat' first
      | assumption | apply State.clearI_keeps | apply State.raiseC_keeps | refine Keeps.ite ?_ ?_
      | lift_lets | (intro y; refine Keeps.cut s y ?_ (fun hy => ?_); (on_goal 1 => subst y); (on_goal 2 => clear_value y)) | intro y
      | split | exact Keeps.mk_of (by assumption) id id id id (fun _ => id)
      | refine Keeps.mk_of ?_ (by first | exact id | exact Store.wf_write _ _) id id id (fun _ => id)

theorem State.rangeCheck_keeps {s x : State} (h : Keeps s x) : Keeps s (State.rangeCheck x) := by
  unfold State.rangeCheck
  with_reducible
    repeat' first
      | assumption | apply State.raise_keeps | refine Keeps.foldl _ ?_ (fun y a hy => ?_)
      | refine Keeps.ite ?_ ?_ | lift_lets
      | (intro y; refine Keeps.cut s y ?_ (fun hy => ?_); (on_goal 1 => subst y); (on_goal 2 => clear_value y)) | intro y
      | exact Keeps.mk_of (by assumption) id id id id (fun _ => id)
      | refine Keeps.mk_of ?_ (by first | exact id | exact Store.wf_write _ _) id id id (fun _ => id)

theorem State.calFactor_keeps {s x : State} (a1 : Nat) (a2 : Int) (a3 : Nat) (h : Keeps s x) : Keeps s (State.calFactor x a1 a2 a3) := by
  unfold State.calFactor
  with_reducible
    repeat' first
      | assumption | apply State.raise_keeps | apply State.put_keeps | refine Keeps.ite ?_ ?_

theorem State.calStart_keeps {s x : State} (h : Keeps s x) : Keeps s (State.calStart x) := by
  unfold State.calStart
  with_reducible
    repeat' first
      | assumption | apply State.balOff_keeps | apply State.writeChg_keeps | apply State.set_keeps
      | refine Keeps.ite ?_ ?_ | lift_lets
      | (intro y; refine Keeps.cut s y ?_ (fun hy => ?_); (on_goal 1 => subst y); (on_goal 2 => clear_value y)) | intro y
      | exact Keeps.mk_of (by assumption) id id id id (fun _ => id)
      | refine Keeps.mk_of ?_ (by first | exact id | exact Store.wf_write _ _) id id id (fun _ => id)

theorem State.calFactors_keeps {s x : State} (a1 : List (Int × Nat)) (h : Keeps s x) : Keeps s (State.calFactors x a1) := by
  unfold State.calFactors
  with_reducible
    repeat' first
      | assumption | apply State.calFactor_keeps | refine Keeps.foldl _ ?_ (fun y a hy => ?_)
      | lift_lets | (intro y; refine Keeps.cut s y ?_ (fun hy => ?_); (on_goal 1 => subst y); (on_goal 2 => clear_value y)) | intro y

theorem State.calEnd_keeps {s x : State} (a1 : List (Int × Nat)) (h : Keeps s x) : Keeps s (State.calEnd x a1) := by
  unfold State.calEnd
  with_reducible
    repeat' first
      | assumption | apply State.calFactors_keeps | apply State.takeMasks_keeps
      | apply State.commitStart_keeps | apply State.put_keeps | apply State.set_keeps | refine Keeps.ite ?_ ?_ | lift_lets
      | (intro y; refine Keeps.cut s y ?_ (fun hy => ?_); (on_goal 1 => subst y); (on_goal 2 => clear_value y)) | intro y
      | exact Keeps.mk_of (by assumption) id id id id (fun _ => id)
      | refine Keeps.mk_of ?_ (by first | exact id | exact Store.wf_write _ _) id id id (fun _ => id)

theorem execSelfcalComplete_keeps {s t : State} (a0 : List (Int × Nat)) (h : execSelfcalComplete a0 s = .next t) : Keeps s t := by
  unfold execSelfcalComplete at h
  cases h
  have h := Keeps.refl s
  with_reducible
    repeat' first
      | assumption | apply State.calEnd_keeps | refine Keeps.ite ?_ ?_

theorem execSelfcalCmd_keeps {s t : State} (a0 : Master) (a1 : Nat) (h : execSelfcalCmd a0 a1 s = .next t) : Keeps s t := by
  unfold execSelfcalCmd at h
  cases h
  have h := Keeps.refl s
  with_reducible
    repeat' first
      | assumption | apply State.asked_keeps | apply State.writeKey_keeps | apply State.logged_keeps
      | refine fun y hy => ?_ | split | (refine Keeps.snd_of ?_ (by assumption)) | (refine Keeps.trd_of ?_ (by assumption))

theorem execCalRefreshRound_keeps {s t : State} (h : execCalRefreshRound s = .next t) : Keeps s t := by
  unfold execCalRefreshRound at h
  cases h
  have h := Keeps.refl s
  with_reducible
    repeat' first
      | assumption | refine Keeps.ite ?_ ?_ | lift_lets
      | (intro y; refine Keeps.cut s y ?_ (fun hy => ?_); (on_goal 1 => subst y); (on_goal 2 => clear_value y)) | intro y
      | exact Keeps.mk_of (by assumption) id id id id (fun _ => id)
      | refine Keeps.mk_of ?_ (by first | exact id | exact Store.wf_write _ _) id id id (fun _ => id)

theorem execCalStale_keeps {s t : State} (h : execCalStale s = .next t) : Keeps s t := by
  unfold execCalStale at h
  cases h
  have h := Keeps.refl s
  with_reducible
    repeat' first
      | assumption | apply State.raise_keeps | refine Keeps.ite ?_ ?_ | lift_lets
      | (intro y; refine Keeps.cut s y ?_ (fun hy => ?_); (on_goal 1 => subst y); (on_goal 2 => clear_value y)) | intro y
      | exact Keeps.mk_of (by assumption) id id id id (fun _ => id)
      | refine Keeps.mk_of ?_ (by first | exact id | exact Store.wf_write _ _) id id id (fun _ => id)

theorem State.observe_keeps {s x : State} (a1 : Obs) (h : Keeps s x) : Keeps s (State.observe x a1) := by
  unfold State.observe
  with_reducible
    repeat' first
      | assumption | apply State.hzHeat_keeps | apply State.hzPackStep_keeps | apply State.hzPath_keeps
      | split

theorem State.refreshed_keeps {s x : State} (a1 : Obs) (h : Keeps s x) : Keeps s (State.refreshed x a1) := by
  unfold State.refreshed
  with_reducible
    repeat' first
      | assumption | apply State.calFactor_keeps | split

theorem State.refreshNext_keeps {s x : State} (h : Keeps s x) : Keeps s (State.refreshNext x) := by
  unfold State.refreshNext
  with_reducible
    repeat' first
      | assumption | refine Keeps.ite ?_ ?_ | lift_lets
      | (intro y; refine Keeps.cut s y ?_ (fun hy => ?_); (on_goal 1 => subst y); (on_goal 2 => clear_value y)) | intro y | split
      | exact Keeps.mk_of (by assumption) id id id id (fun _ => id)
      | refine Keeps.mk_of ?_ (by first | exact id | exact Store.wf_write _ _) id id id (fun _ => id)

theorem State.scanRecord_keeps {s x : State} (h : Keeps s x) : Keeps s (State.scanRecord x) := by
  unfold State.scanRecord
  with_reducible
    repeat' first
      | assumption | refine Keeps.ite ?_ ?_ | lift_lets
      | (intro y; refine Keeps.cut s y ?_ (fun hy => ?_); (on_goal 1 => subst y); (on_goal 2 => clear_value y)) | intro y
      | exact Keeps.mk_of (by assumption) id id id id (fun _ => id)
      | refine Keeps.mk_of ?_ (by first | exact id | exact Store.wf_write _ _) id id id (fun _ => id)

theorem State.hourScan_keeps {s x : State} (a1 : Nat) (h : Keeps s x) : Keeps s (State.hourScan x a1) := by
  unfold State.hourScan
  with_reducible
    repeat' first
      | assumption | refine Keeps.foldl _ ?_ (fun y a hy => ?_) | refine Keeps.ite ?_ ?_ | lift_lets
      | (intro y; refine Keeps.cut s y ?_ (fun hy => ?_); (on_goal 1 => subst y); (on_goal 2 => clear_value y)) | intro y
      | exact Keeps.mk_of (by assumption) id id id id (fun _ => id)
      | refine Keeps.mk_of ?_ (by first | exact id | exact Store.wf_write _ _) id id id (fun _ => id)

theorem State.sumCheck_keeps {s x : State} (h : Keeps s x) : Keeps s (State.sumCheck x) := by
  unfold State.sumCheck
  with_reducible
    repeat' first
      | assumption | apply State.chgCond_keeps | refine Keeps.ite ?_ ?_ | lift_lets
      | (intro y; refine Keeps.cut s y ?_ (fun hy => ?_); (on_goal 1 => subst y); (on_goal 2 => clear_value y)) | intro y
      | exact Keeps.mk_of (by assumption) id id id id (fun _ => id)
      | refine Keeps.mk_of ?_ (by first | exact id | exact Store.wf_write _ _) id id id (fun _ => id)

theorem State.chgResume_keeps {s x : State} (h : Keeps s x) : Keeps s (State.chgResume x) := by
  unfold State.chgResume
  with_reducible
    repeat' first
      | assumption | apply State.packSeen_keeps | refine Keeps.ite ?_ ?_

theorem State.chargeScan_keeps {s x : State} (h : Keeps s x) : Keeps s (State.chargeScan x) := by
  unfold State.chargeScan
  with_reducible
    repeat' first
      | assumption | apply State.chgEvaluate_keeps | apply State.writeChg_keeps
      | refine Keeps.ite ?_ ?_ | lift_lets
      | (intro y; refine Keeps.cut s y ?_ (fun hy => ?_); (on_goal 1 => subst y); (on_goal 2 => clear_value y)) | intro y
      | exact Keeps.mk_of (by assumption) id id id id (fun _ => id)
      | refine Keeps.mk_of ?_ (by first | exact id | exact Store.wf_write _ _) id id id (fun _ => id)

theorem State.maintEnd_keeps {s x : State} (h : Keeps s x) : Keeps s (State.maintEnd x) := by
  unfold State.maintEnd
  with_reducible
    repeat' first
      | assumption | apply State.parkStart_keeps | refine Keeps.ite ?_ ?_ | lift_lets
      | (intro y; refine Keeps.cut s y ?_ (fun hy => ?_); (on_goal 1 => subst y); (on_goal 2 => clear_value y)) | intro y
      | exact Keeps.mk_of (by assumption) id id id id (fun _ => id)
      | refine Keeps.mk_of ?_ (by first | exact id | exact Store.wf_write _ _) id id id (fun _ => id)

theorem State.scanExhausted_keeps {s x : State} (h : Keeps s x) : Keeps s (State.scanExhausted x) := by
  unfold State.scanExhausted
  with_reducible
    repeat' first
      | assumption | apply State.exhausted_keeps | refine Keeps.ite ?_ ?_

theorem State.consumers_keeps {s x : State} (a1 : List Obs) (a2 : Nat) (h : Keeps s x) : Keeps s (State.consumers x a1 a2) := by
  unfold State.consumers
  with_reducible
    repeat' first
      | assumption | apply State.scanExhausted_keeps | apply State.maintEnd_keeps
      | apply State.chargeScan_keeps | apply State.chgResume_keeps | apply State.sumCheck_keeps | apply State.hourScan_keeps
      | apply State.observe_keeps | apply State.rangeCheck_keeps | apply State.senseCheck_keeps | apply State.refCheck_keeps
      | apply State.zoneUpdate_keeps | apply State.hzRef_keeps | apply State.thermalEval_keeps
      | refine Keeps.foldl _ ?_ (fun y a hy => ?_) | refine Keeps.ite ?_ ?_ | refine Keeps.ite_snd ?_ ?_ | refine Keeps.ite_trd ?_ ?_
      | lift_lets | (intro y; refine Keeps.cut s y ?_ (fun hy => ?_); (on_goal 1 => subst y); (on_goal 2 => clear_value y)) | intro y
      | split | (refine Keeps.snd_of ?_ (by assumption)) | (refine Keeps.trd_of ?_ (by assumption))

theorem State.commonTrigger_keeps {s x : State} (a1 : Nat) (a2 : List Obs) (h : Keeps s x) : Keeps s (State.commonTrigger x a1 a2) := by
  unfold State.commonTrigger
  with_reducible
    repeat' first
      | assumption | apply State.consumers_keeps | apply State.scanRecord_keeps
      | apply State.refreshNext_keeps | apply State.refreshed_keeps | apply State.calStart_keeps | apply State.takeMasks_keeps
      | apply State.linkPolicy_keeps | apply State.balFrame_keeps | apply State.set_keeps | refine Keeps.foldl _ ?_ (fun y a hy => ?_)
      | refine Keeps.ite ?_ ?_ | lift_lets
      | (intro y; refine Keeps.cut s y ?_ (fun hy => ?_); (on_goal 1 => subst y); (on_goal 2 => clear_value y)) | intro y
      | exact Keeps.mk_of (by assumption) id id id id (fun _ => id)
      | refine Keeps.mk_of ?_ (by first | exact id | exact Store.wf_write _ _) id id id (fun _ => id)

theorem execCommonTrigger_keeps {s t : State} (a0 : Nat) (a1 : List Obs) (h : execCommonTrigger a0 a1 s = .next t) : Keeps s t := by
  unfold execCommonTrigger at h
  cases h
  have h := Keeps.refl s
  with_reducible
    repeat' first
      | assumption | apply State.commonTrigger_keeps | apply State.logged_keeps
      | refine Keeps.ite ?_ ?_ | refine fun y hy => ?_

theorem execRecTrigger_keeps {s t : State} (a0 : Master) (a1 : Nat) (h : execRecTrigger a0 a1 s = .next t) : Keeps s t := by
  unfold execRecTrigger at h
  cases h
  have h := Keeps.refl s
  with_reducible
    repeat' first
      | assumption | apply State.asked_keeps | apply State.writeKey_keeps | apply State.logged_keeps
      | refine fun y hy => ?_ | split | (refine Keeps.snd_of ?_ (by assumption)) | (refine Keeps.trd_of ?_ (by assumption))

theorem execCaptureWindowEnd_keeps {s t : State} (h : execCaptureWindowEnd s = .next t) : Keeps s t := by
  unfold execCaptureWindowEnd at h
  cases h
  have h := Keeps.refl s
  with_reducible
    repeat' first
      | assumption | apply State.closeWindow_keeps

theorem execCaptureClosed_keeps {s t : State} (a0 : Bool) (h : execCaptureClosed a0 s = .next t) : Keeps s t := by
  unfold execCaptureClosed at h
  cases h
  have h := Keeps.refl s
  with_reducible
    repeat' first
      | assumption | apply State.closeCapture_keeps | refine Keeps.ite ?_ ?_

theorem execRecKeepWrite_keeps {s t : State} (a0 : Master) (a1 : Nat) (h : execRecKeepWrite a0 a1 s = .next t) : Keeps s t := by
  unfold execRecKeepWrite at h
  cases h
  have h := Keeps.refl s
  with_reducible
    repeat' first
      | assumption | apply State.asked_keeps | apply State.writeKey_keeps | apply State.logged_keeps
      | refine fun y hy => ?_ | split | (refine Keeps.snd_of ?_ (by assumption)) | (refine Keeps.trd_of ?_ (by assumption))

end Sys2Proof.Machine
end

