-- ==== Sys2Proof/Laws/KeepsCharging.lean ====
section
/-!
SUPPORT. KeepsCharging.lean: every operation of Machine/Charging.lean keeps what Keeps names.
-/
set_option linter.unusedTactic false
set_option linter.unreachableTactic false
set_option linter.unusedVariables false
namespace Sys2Proof.Machine

theorem State.packFound_keeps {s x : State} (a1 : Nat) (h : Keeps s x) : Keeps s (State.packFound x a1) := by
  unfold State.packFound
  with_reducible
    repeat' first
      | assumption | apply State.newPack_keeps | apply State.chgWrite_keeps
      | apply State.selectOrHold_keeps | apply State.cutoff_keeps | apply State.set_keeps | refine Keeps.ite ?_ ?_ | lift_lets
      | (intro y; refine Keeps.cut s y ?_ (fun hy => ?_); (on_goal 1 => subst y); (on_goal 2 => clear_value y)) | intro y
      | exact Keeps.mk_of (by assumption) id id id id (fun _ => id)
      | refine Keeps.mk_of ?_ (by first | exact id | exact Store.wf_write _ _) id id id (fun _ => id)

theorem execPackPresent_keeps {s t : State} (a0 : Nat) (a1 : Nat) (h : execPackPresent a0 a1 s = .next t) : Keeps s t := by
  unfold execPackPresent at h
  cases h
  have h := Keeps.refl s
  with_reducible
    repeat' first
      | assumption | apply State.packFound_keeps | apply State.logged_keeps | refine Keeps.ite ?_ ?_
      | refine fun y hy => ?_

theorem execPackAbsent_keeps {s t : State} (a0 : Nat) (h : execPackAbsent a0 s = .next t) : Keeps s t := by
  unfold execPackAbsent at h
  cases h
  have h := Keeps.refl s
  with_reducible
    repeat' first
      | assumption | apply State.packRemoved_keeps | apply State.logged_keeps | refine Keeps.ite ?_ ?_
      | refine fun y hy => ?_

theorem State.packLostShell_keeps {s x : State} (h : Keeps s x) : Keeps s (State.packLostShell x) := by
  unfold State.packLostShell
  with_reducible
    repeat' first
      | assumption | apply State.exhaustedNow_keeps | apply State.packGone_keeps
      | apply State.newCycle_keeps | apply State.chgEnter_keeps | apply State.chgBit_keeps | apply State.sourceLoss_keeps | lift_lets
      | (intro y; refine Keeps.cut s y ?_ (fun hy => ?_); (on_goal 1 => subst y); (on_goal 2 => clear_value y)) | intro y
      | exact Keeps.mk_of (by assumption) id id id id (fun _ => id)
      | refine Keeps.mk_of ?_ (by first | exact id | exact Store.wf_write _ _) id id id (fun _ => id)

theorem execPackLost_keeps {s t : State} (a0 : Nat) (h : execPackLost a0 s = .next t) : Keeps s t := by
  unfold execPackLost at h
  cases h
  have h := Keeps.refl s
  with_reducible
    repeat' first
      | assumption | apply State.packLostShell_keeps | apply State.logged_keeps
      | apply State.coreRaise_keeps | apply State.stopG_keeps | refine Keeps.ite ?_ ?_ | refine fun y hy => ?_ | lift_lets
      | (intro y; refine Keeps.cut s y ?_ (fun hy => ?_); (on_goal 1 => subst y); (on_goal 2 => clear_value y)) | intro y

theorem State.openTapEnd_keeps {s x : State} (a1 : Nat) (h : Keeps s x) : Keeps s (State.openTapEnd x a1) := by
  unfold State.openTapEnd
  with_reducible
    repeat' first
      | assumption | apply State.balOff_keeps | apply State.chgEnter_keeps | apply State.writeChg_keeps
      | apply State.chgCond_keeps | refine Keeps.ite ?_ ?_ | lift_lets
      | (intro y; refine Keeps.cut s y ?_ (fun hy => ?_); (on_goal 1 => subst y); (on_goal 2 => clear_value y)) | intro y
      | exact Keeps.mk_of (by assumption) id id id id (fun _ => id)
      | refine Keeps.mk_of ?_ (by first | exact id | exact Store.wf_write _ _) id id id (fun _ => id)

theorem execOpenTapTest_keeps {s t : State} (a0 : List (Nat × Int)) (h : execOpenTapTest a0 s = .next t) : Keeps s t := by
  unfold execOpenTapTest at h
  cases h
  have h := Keeps.refl s
  with_reducible
    repeat' first
      | assumption | apply State.openTapEnd_keeps | apply State.logged_keeps | refine Keeps.ite ?_ ?_
      | refine fun y hy => ?_

theorem execCvTermination_keeps {s t : State} (h : execCvTermination s = .next t) : Keeps s t := by
  unfold execCvTermination at h
  cases h
  have h := Keeps.refl s
  with_reducible
    repeat' first
      | assumption | apply State.chgWrite_keeps | apply State.chgEnter_keeps | refine Keeps.ite ?_ ?_

theorem execTopoffEnd_keeps {s t : State} (h : execTopoffEnd s = .next t) : Keeps s t := by
  unfold execTopoffEnd at h
  cases h
  have h := Keeps.refl s
  with_reducible
    repeat' first
      | assumption | apply State.chgEnter_keeps | apply State.setSoc_keeps | apply State.writeChg_keeps
      | apply State.logged_keeps | refine Keeps.ite ?_ ?_ | refine fun y hy => ?_ | lift_lets
      | (intro y; refine Keeps.cut s y ?_ (fun hy => ?_); (on_goal 1 => subst y); (on_goal 2 => clear_value y)) | intro y

theorem State.safetyTick_keeps {s x : State} (a1 : Nat) (h : Keeps s x) : Keeps s (State.safetyTick x a1) := by
  unfold State.safetyTick
  with_reducible
    repeat' first
      | assumption | apply State.tally_keeps | apply State.set_keeps | refine Keeps.ite ?_ ?_
      | lift_lets | (intro y; refine Keeps.cut s y ?_ (fun hy => ?_); (on_goal 1 => subst y); (on_goal 2 => clear_value y)) | intro y
      | exact Keeps.mk_of (by assumption) id id id id (fun _ => id)
      | refine Keeps.mk_of ?_ (by first | exact id | exact Store.wf_write _ _) id id id (fun _ => id)

theorem execSafetyTimerTick_keeps {s t : State} (a0 : Nat) (h : execSafetyTimerTick a0 s = .next t) : Keeps s t := by
  unfold execSafetyTimerTick at h
  cases h
  have h := Keeps.refl s
  with_reducible
    repeat' first
      | assumption | apply State.safetyTick_keeps | refine Keeps.ite ?_ ?_ | lift_lets
      | (intro y; refine Keeps.cut s y ?_ (fun hy => ?_); (on_goal 1 => subst y); (on_goal 2 => clear_value y)) | intro y
      | exact Keeps.mk_of (by assumption) id id id id (fun _ => id)
      | refine Keeps.mk_of ?_ (by first | exact id | exact Store.wf_write _ _) id id id (fun _ => id)

theorem execTimerExpired_keeps {s t : State} (h : execTimerExpired s = .next t) : Keeps s t := by
  unfold execTimerExpired at h
  cases h
  have h := Keeps.refl s
  with_reducible
    repeat' first
      | assumption | apply State.chgFault_keeps | apply State.chgEvent_keeps | apply State.logged_keeps
      | refine Keeps.ite ?_ ?_ | refine fun y hy => ?_

theorem execPrecondTimeout_keeps {s t : State} (h : execPrecondTimeout s = .next t) : Keeps s t := by
  unfold execPrecondTimeout at h
  cases h
  have h := Keeps.refl s
  with_reducible
    repeat' first
      | assumption | apply State.chgFault_keeps | apply State.chgEvent_keeps | apply State.logged_keeps
      | refine Keeps.ite ?_ ?_ | refine fun y hy => ?_

theorem execCellImbalance_keeps {s t : State} (h : execCellImbalance s = .next t) : Keeps s t := by
  unfold execCellImbalance at h
  cases h
  have h := Keeps.refl s
  with_reducible
    repeat' first
      | assumption | apply State.chgEvent_keeps | refine Keeps.ite ?_ ?_

theorem execOcvCorrection_keeps {s t : State} (h : execOcvCorrection s = .next t) : Keeps s t := by
  unfold execOcvCorrection at h
  cases h
  have h := Keeps.refl s
  with_reducible
    repeat' first
      | assumption | apply State.ocvCorrect_keeps | refine Keeps.ite ?_ ?_

theorem execPackCellsWrite_keeps {s t : State} (a0 : Master) (a1 : Nat) (h : execPackCellsWrite a0 a1 s = .next t) : Keeps s t := by
  unfold execPackCellsWrite at h
  cases h
  have h := Keeps.refl s
  with_reducible
    repeat' first
      | assumption | apply State.asked_keeps | apply State.writeKey_keeps | apply State.logged_keeps
      | refine fun y hy => ?_ | split | (refine Keeps.snd_of ?_ (by assumption)) | (refine Keeps.trd_of ?_ (by assumption))

theorem execChgEnableWrite_keeps {s t : State} (a0 : Master) (a1 : Nat) (h : execChgEnableWrite a0 a1 s = .next t) : Keeps s t := by
  unfold execChgEnableWrite at h
  cases h
  have h := Keeps.refl s
  with_reducible
    repeat' first
      | assumption | apply State.asked_keeps | apply State.writeKey_keeps | apply State.logged_keeps
      | refine fun y hy => ?_ | split | (refine Keeps.snd_of ?_ (by assumption)) | (refine Keeps.trd_of ?_ (by assumption))

theorem execChgServiceWrite_keeps {s t : State} (a0 : Master) (a1 : Nat) (h : execChgServiceWrite a0 a1 s = .next t) : Keeps s t := by
  unfold execChgServiceWrite at h
  cases h
  have h := Keeps.refl s
  with_reducible
    repeat' first
      | assumption | apply State.asked_keeps | apply State.writeKey_keeps | apply State.logged_keeps
      | refine fun y hy => ?_ | split | (refine Keeps.snd_of ?_ (by assumption)) | (refine Keeps.trd_of ?_ (by assumption))

theorem execChgFaultsRead_keeps {s t : State} (a0 : Master) (h : execChgFaultsRead a0 s = .next t) : Keeps s t := by
  unfold execChgFaultsRead at h
  cases h
  have h := Keeps.refl s
  with_reducible
    repeat' first
      | assumption | apply State.asked_keeps | apply State.readKey_keeps | refine fun y hy => ?_
      | split | (refine Keeps.snd_of ?_ (by assumption)) | (refine Keeps.trd_of ?_ (by assumption))

end Sys2Proof.Machine
end

