-- ==== Sys2Proof/Laws/KeepsLink.lean ====
section
/-!
SUPPORT. KeepsLink.lean: every operation of Machine/Link.lean keeps what Keeps names.
-/
set_option linter.unusedTactic false
set_option linter.unreachableTactic false
set_option linter.unusedVariables false
namespace Sys2Proof.Machine

theorem State.peerBit_keeps {s x : State} (a1 : Port) (a2 : Bool) (h : Keeps s x) : Keeps s (State.peerBit x a1 a2) := by
  unfold State.peerBit
  with_reducible
    repeat' first
      | assumption | apply State.set_keeps

theorem execPortMated_keeps {s t : State} (a0 : Port) (h : execPortMated a0 s = .next t) : Keeps s t := by
  unfold execPortMated at h
  cases h
  have h := Keeps.refl s
  with_reducible
    repeat' first
      | assumption | apply State.linkZ_keeps | apply State.setLink_keeps | apply State.modL_keeps
      | apply State.logged_keeps | apply State.ev_keeps | refine Keeps.ite ?_ ?_ | refine fun y hy => ?_ | lift_lets
      | (intro y; refine Keeps.cut s y ?_ (fun hy => ?_); (on_goal 1 => subst y); (on_goal 2 => clear_value y)) | intro y

theorem State.pulled_keeps {s x : State} (a1 : Port) (h : Keeps s x) : Keeps s (State.pulled x a1) := by
  unfold State.pulled
  with_reducible
    repeat' first
      | assumption | apply State.exhaustedNow_keeps | apply State.toDetached_keeps
      | apply State.linkStat_keeps | apply State.sourceLoss_keeps | apply State.raise_keeps | refine Keeps.ite ?_ ?_ | lift_lets
      | (intro y; refine Keeps.cut s y ?_ (fun hy => ?_); (on_goal 1 => subst y); (on_goal 2 => clear_value y)) | intro y

theorem execPortOpen_keeps {s t : State} (a0 : Port) (h : execPortOpen a0 s = .next t) : Keeps s t := by
  unfold execPortOpen at h
  cases h
  have h := Keeps.refl s
  with_reducible
    repeat' first
      | assumption | apply State.pulled_keeps | apply State.linkZ_keeps | apply State.modL_keeps
      | apply State.logged_keeps | apply State.mark_keeps | apply State.ev_keeps | refine Keeps.ite ?_ ?_ | refine fun y hy => ?_
      | lift_lets | (intro y; refine Keeps.cut s y ?_ (fun hy => ?_); (on_goal 1 => subst y); (on_goal 2 => clear_value y)) | intro y

theorem execLinkSideDischarge_keeps {s t : State} (a0 : Port) (h : execLinkSideDischarge a0 s = .next t) : Keeps s t := by
  unfold execLinkSideDischarge at h
  cases h
  have h := Keeps.refl s
  with_reducible
    repeat' first
      | assumption | apply State.linkRun_keeps | apply State.modL_keeps | apply State.logged_keeps
      | refine Keeps.ite ?_ ?_ | refine fun y hy => ?_

theorem execFarPilotPresent_keeps {s t : State} (a0 : Port) (h : execFarPilotPresent a0 s = .next t) : Keeps s t := by
  unfold execFarPilotPresent at h
  cases h
  have h := Keeps.refl s
  with_reducible
    repeat' first
      | assumption | apply State.peerBit_keeps | apply State.sensedStep_keeps | apply State.modL_keeps
      | apply State.logged_keeps | refine Keeps.ite ?_ ?_ | refine fun y hy => ?_ | lift_lets
      | (intro y; refine Keeps.cut s y ?_ (fun hy => ?_); (on_goal 1 => subst y); (on_goal 2 => clear_value y)) | intro y

theorem execPeerSilent_keeps {s t : State} (a0 : Port) (h : execPeerSilent a0 s = .next t) : Keeps s t := by
  unfold execPeerSilent at h
  cases h
  have h := Keeps.refl s
  with_reducible
    repeat' first
      | assumption | apply State.peerBit_keeps | apply State.modL_keeps | apply State.coreRaise_keeps
      | refine Keeps.ite ?_ ?_

theorem execConnectorBurst_keeps {s t : State} (a0 : Port) (a1 : Bool) (h : execConnectorBurst a0 a1 s = .next t) : Keeps s t := by
  unfold execConnectorBurst at h
  cases h
  have h := Keeps.refl s
  with_reducible
    repeat' first
      | assumption | apply State.modL_keeps | refine Keeps.ite ?_ ?_

theorem State.senseNet_keeps {s x : State} (a1 : Port) (a2 : Nat) (h : Keeps s x) : Keeps s (State.senseNet x a1 a2) := by
  unfold State.senseNet
  with_reducible
    repeat' first
      | assumption | apply State.detachFree_keeps | apply State.toRamp_keeps
      | apply State.toNeutral_keeps | apply State.modL_keeps | apply State.clearK_keeps | apply State.raise1_keeps
      | refine Keeps.ite ?_ ?_ | lift_lets
      | (intro y; refine Keeps.cut s y ?_ (fun hy => ?_); (on_goal 1 => subst y); (on_goal 2 => clear_value y)) | intro y

theorem State.moistReport_keeps {s x : State} (a1 : Port) (a2 : Nat) (a3 : Nat) (h : Keeps s x) : Keeps s (State.moistReport x a1 a2 a3) := by
  unfold State.moistReport
  with_reducible
    repeat' first
      | assumption | apply State.linkStat_keeps | apply State.clearK_keeps | apply State.raise1_keeps
      | refine Keeps.ite ?_ ?_ | lift_lets
      | (intro y; refine Keeps.cut s y ?_ (fun hy => ?_); (on_goal 1 => subst y); (on_goal 2 => clear_value y)) | intro y

theorem State.burstDone_keeps {s x : State} (a1 : Port) (a2 : Nat) (a3 : Int) (h : Keeps s x) : Keeps s (State.burstDone x a1 a2 a3) := by
  unfold State.burstDone
  with_reducible
    repeat' first
      | assumption | apply State.moistReport_keeps | apply State.senseNet_keeps
      | apply State.moistChange_keeps | apply State.modL_keeps | apply State.hzLeak_keeps | apply State.put_keeps | apply State.set_keeps
      | refine Keeps.ite ?_ ?_ | lift_lets
      | (intro y; refine Keeps.cut s y ?_ (fun hy => ?_); (on_goal 1 => subst y); (on_goal 2 => clear_value y)) | intro y

theorem execConnectorBurstDone_keeps {s t : State} (a0 : Port) (a1 : Nat) (a2 : Int) (h : execConnectorBurstDone a0 a1 a2 s = .next t) : Keeps s t := by
  unfold execConnectorBurstDone at h
  cases h
  have h := Keeps.refl s
  with_reducible
    repeat' first
      | assumption | apply State.burstDone_keeps | apply State.logged_keeps | refine Keeps.ite ?_ ?_
      | refine fun y hy => ?_ | lift_lets
      | (intro y; refine Keeps.cut s y ?_ (fun hy => ?_); (on_goal 1 => subst y); (on_goal 2 => clear_value y)) | intro y
      | exact Keeps.mk_of (by assumption) id id id id (fun _ => id)
      | refine Keeps.mk_of ?_ (by first | exact id | exact Store.wf_write _ _) id id id (fun _ => id)

theorem State.peerSeen_keeps {s x : State} (a1 : Port) (a2 : Nat) (a3 : List Byte) (h : Keeps s x) : Keeps s (State.peerSeen x a1 a2 a3) := by
  unfold State.peerSeen
  with_reducible
    repeat' first
      | assumption | apply State.moistChange_keeps | apply State.modL_keeps | apply State.set_keeps
      | lift_lets | (intro y; refine Keeps.cut s y ?_ (fun hy => ?_); (on_goal 1 => subst y); (on_goal 2 => clear_value y)) | intro y

theorem State.turnDown_keeps {s x : State} (a1 : Port) (a2 : List Byte) (a3 : Nat) (h : Keeps s x) : Keeps s (State.turnDown x a1 a2 a3) := by
  unfold State.turnDown
  with_reducible
    repeat' first
      | assumption | apply State.reject_keeps | refine Keeps.ite ?_ ?_

theorem State.linkTake_keeps {s x : State} (a1 : Port) (a2 : Nat) (a3 : List Byte) (a4 : State → State) (hf : ∀ y, Keeps s y → Keeps s (a4 y)) (h : Keeps s x) : Keeps s (State.linkTake x a1 a2 a3 a4) := by
  unfold State.linkTake
  with_reducible
    repeat' first
      | assumption | apply State.turnDown_keeps | apply State.peerSeen_keeps | apply State.reject_keeps
      | apply State.sendPay_keeps | apply hf | refine Keeps.ite ?_ ?_ | lift_lets
      | (intro y; refine Keeps.cut s y ?_ (fun hy => ?_); (on_goal 1 => subst y); (on_goal 2 => clear_value y)) | intro y

theorem State.linkRx_keeps {s x : State} (a1 : Port) (a2 : Nat) (a3 : List Byte) (a4 : State → State) (hf : ∀ y, Keeps s y → Keeps s (a4 y)) (h : Keeps s x) : Keeps s (State.linkRx x a1 a2 a3 a4) := by
  unfold State.linkRx
  with_reducible
    repeat' first
      | assumption | apply State.linkTake_keeps | apply State.turnDown_keeps
      | apply State.fabTake_keeps | apply State.modL_keeps | apply hf | refine Keeps.ite ?_ ?_ | refine Keeps.ite_snd ?_ ?_
      | refine Keeps.ite_trd ?_ ?_ | refine fun y hy => ?_ | lift_lets
      | (intro y; refine Keeps.cut s y ?_ (fun hy => ?_); (on_goal 1 => subst y); (on_goal 2 => clear_value y)) | intro y | split
      | (refine Keeps.snd_of ?_ (by assumption)) | (refine Keeps.trd_of ?_ (by assumption))

theorem State.onOfferFree_keeps {s x : State} (a1 : Port) (a2 : List Byte) (h : Keeps s x) : Keeps s (State.onOfferFree x a1 a2) := by
  unfold State.onOfferFree
  with_reducible
    repeat' first
      | assumption | apply State.setLink_keeps | apply State.reject_keeps | apply State.answer_keeps
      | apply State.modL_keeps | refine Keeps.ite ?_ ?_ | lift_lets
      | (intro y; refine Keeps.cut s y ?_ (fun hy => ?_); (on_goal 1 => subst y); (on_goal 2 => clear_value y)) | intro y | split

theorem State.onOffer_keeps {s x : State} (a1 : Port) (a2 : List Byte) (h : Keeps s x) : Keeps s (State.onOffer x a1 a2) := by
  unfold State.onOffer
  with_reducible
    repeat' first
      | assumption | apply State.onOfferFree_keeps | apply State.toNeutral_keeps
      | apply State.reject_keeps | refine Keeps.ite ?_ ?_ | lift_lets
      | (intro y; refine Keeps.cut s y ?_ (fun hy => ?_); (on_goal 1 => subst y); (on_goal 2 => clear_value y)) | intro y

theorem execOffer_keeps {s t : State} (a0 : Port) (a1 : Nat) (a2 : List Byte) (h : execOffer a0 a1 a2 s = .next t) : Keeps s t := by
  unfold execOffer at h
  cases h
  have h := Keeps.refl s
  with_reducible
    repeat' first
      | assumption | apply State.onOffer_keeps | apply State.linkRx_keeps | apply State.logged_keeps
      | refine fun y hy => ?_

theorem State.acceptRequest_keeps {s x : State} (a1 : Port) (a2 : Nat) (a3 : Terms) (a4 : Nat) (a5 : Nat) (h : Keeps s x) : Keeps s (State.acceptRequest x a1 a2 a3 a4 a5) := by
  unfold State.acceptRequest
  with_reducible
    repeat' first
      | assumption | apply State.linkRun_keeps | apply State.setRole_keeps | apply State.setLink_keeps
      | apply State.writeContract_keeps | apply State.answered_keeps | apply State.answer_keeps | apply State.modL_keeps
      | apply State.ordering_keeps | apply State.modG_keeps | apply State.set_keeps | refine Keeps.ite ?_ ?_ | lift_lets
      | (intro y; refine Keeps.cut s y ?_ (fun hy => ?_); (on_goal 1 => subst y); (on_goal 2 => clear_value y)) | intro y

theorem State.onRequest_keeps {s x : State} (a1 : Port) (a2 : List Byte) (a3 : Nat) (h : Keeps s x) : Keeps s (State.onRequest x a1 a2 a3) := by
  unfold State.onRequest
  with_reducible
    repeat' first
      | assumption | apply State.acceptRequest_keeps | apply State.toNeutral_keeps
      | apply State.reject_keeps | refine Keeps.ite ?_ ?_ | lift_lets
      | (intro y; refine Keeps.cut s y ?_ (fun hy => ?_); (on_goal 1 => subst y); (on_goal 2 => clear_value y)) | intro y | split

theorem execRequest_keeps {s t : State} (a0 : Port) (a1 : Nat) (a2 : List Byte) (a3 : Nat) (h : execRequest a0 a1 a2 a3 s = .next t) : Keeps s t := by
  unfold execRequest at h
  cases h
  have h := Keeps.refl s
  with_reducible
    repeat' first
      | assumption | apply State.onRequest_keeps | apply State.linkRx_keeps | apply State.logged_keeps
      | refine fun y hy => ?_

theorem State.requestAccepted_keeps {s x : State} (a1 : Port) (a2 : List Byte) (h : Keeps s x) : Keeps s (State.requestAccepted x a1 a2) := by
  unfold State.requestAccepted
  with_reducible
    repeat' first
      | assumption | apply State.setRole_keeps | apply State.setLink_keeps
      | apply State.writeContract_keeps | apply State.answered_keeps | apply State.modL_keeps | apply State.ordering_keeps
      | apply State.set_keeps | refine Keeps.ite ?_ ?_ | lift_lets
      | (intro y; refine Keeps.cut s y ?_ (fun hy => ?_); (on_goal 1 => subst y); (on_goal 2 => clear_value y)) | intro y

theorem State.onAccept_keeps {s x : State} (a1 : Port) (a2 : List Byte) (h : Keeps s x) : Keeps s (State.onAccept x a1 a2) := by
  unfold State.onAccept
  with_reducible
    repeat' first
      | assumption | apply State.requestAccepted_keeps | apply State.toRamp_keeps
      | apply State.answered_keeps | apply State.modL_keeps | refine Keeps.ite ?_ ?_ | lift_lets
      | (intro y; refine Keeps.cut s y ?_ (fun hy => ?_); (on_goal 1 => subst y); (on_goal 2 => clear_value y)) | intro y

theorem execAccept_keeps {s t : State} (a0 : Port) (a1 : Nat) (a2 : List Byte) (h : execAccept a0 a1 a2 s = .next t) : Keeps s t := by
  unfold execAccept at h
  cases h
  have h := Keeps.refl s
  with_reducible
    repeat' first
      | assumption | apply State.onAccept_keeps | apply State.linkRx_keeps | apply State.logged_keeps
      | refine fun y hy => ?_

theorem execReject_keeps {s t : State} (a0 : Port) (a1 : Nat) (a2 : List Byte) (h : execReject a0 a1 a2 s = .next t) : Keeps s t := by
  unfold execReject at h
  cases h
  have h := Keeps.refl s
  with_reducible
    repeat' first
      | assumption | apply State.linkRx_keeps | apply State.toNeutral_keeps
      | apply State.answered_keeps | apply State.linkStat_keeps | apply State.modL_keeps | apply State.logged_keeps
      | refine Keeps.ite ?_ ?_ | refine fun y hy => ?_ | lift_lets
      | (intro y; refine Keeps.cut s y ?_ (fun hy => ?_); (on_goal 1 => subst y); (on_goal 2 => clear_value y)) | intro y

theorem State.contractIn_keeps {s x : State} (a1 : Port) (h : Keeps s x) : Keeps s (State.contractIn x a1) := by
  unfold State.contractIn
  with_reducible
    repeat' first
      | assumption | apply State.linkRun_keeps | apply State.setRole_keeps | apply State.setLink_keeps
      | apply State.writeContract_keeps | apply State.linkStat_keeps | apply State.modL_keeps | apply State.ordering_keeps
      | apply State.set_keeps | refine Keeps.ite ?_ ?_ | lift_lets
      | (intro y; refine Keeps.cut s y ?_ (fun hy => ?_); (on_goal 1 => subst y); (on_goal 2 => clear_value y)) | intro y | split

theorem State.onReady_keeps {s x : State} (a1 : Port) (a2 : List Byte) (h : Keeps s x) : Keeps s (State.onReady x a1 a2) := by
  unfold State.onReady
  with_reducible
    repeat' first
      | assumption | apply State.contractIn_keeps | refine Keeps.ite ?_ ?_ | lift_lets
      | (intro y; refine Keeps.cut s y ?_ (fun hy => ?_); (on_goal 1 => subst y); (on_goal 2 => clear_value y)) | intro y | split

theorem execReady_keeps {s t : State} (a0 : Port) (a1 : Nat) (a2 : List Byte) (h : execReady a0 a1 a2 s = .next t) : Keeps s t := by
  unfold execReady at h
  cases h
  have h := Keeps.refl s
  with_reducible
    repeat' first
      | assumption | apply State.onReady_keeps | apply State.linkRx_keeps | apply State.logged_keeps
      | refine fun y hy => ?_

theorem State.sendReady_keeps {s x : State} (a1 : Port) (a2 : Nat) (h : Keeps s x) : Keeps s (State.sendReady x a1 a2) := by
  unfold State.sendReady
  with_reducible
    repeat' first
      | assumption | apply State.contractIn_keeps | apply State.sendMsg_keeps | refine Keeps.ite ?_ ?_
      | lift_lets | (intro y; refine Keeps.cut s y ?_ (fun hy => ?_); (on_goal 1 => subst y); (on_goal 2 => clear_value y)) | intro y
      | split

theorem execSendReady_keeps {s t : State} (a0 : Port) (a1 : Nat) (h : execSendReady a0 a1 s = .next t) : Keeps s t := by
  unfold execSendReady at h
  cases h
  have h := Keeps.refl s
  with_reducible
    repeat' first
      | assumption | apply State.sendReady_keeps | apply State.logged_keeps | refine Keeps.ite ?_ ?_
      | refine fun y hy => ?_

theorem State.swapStart_keeps {s x : State} (a1 : Port) (a2 : Nat) (h : Keeps s x) : Keeps s (State.swapStart x a1 a2) := by
  unfold State.swapStart
  with_reducible
    repeat' first
      | assumption | apply State.setLink_keeps | apply State.modL_keeps | apply State.set_keeps
      | lift_lets | (intro y; refine Keeps.cut s y ?_ (fun hy => ?_); (on_goal 1 => subst y); (on_goal 2 => clear_value y)) | intro y

theorem State.onSwapReq_keeps {s x : State} (a1 : Port) (a2 : List Byte) (h : Keeps s x) : Keeps s (State.onSwapReq x a1 a2) := by
  unfold State.onSwapReq
  with_reducible
    repeat' first
      | assumption | apply State.swapStart_keeps | apply State.answered_keeps
      | apply State.reject_keeps | apply State.answer_keeps | refine Keeps.ite ?_ ?_ | lift_lets
      | (intro y; refine Keeps.cut s y ?_ (fun hy => ?_); (on_goal 1 => subst y); (on_goal 2 => clear_value y)) | intro y

theorem execSwapReq_keeps {s t : State} (a0 : Port) (a1 : Nat) (a2 : List Byte) (h : execSwapReq a0 a1 a2 s = .next t) : Keeps s t := by
  unfold execSwapReq at h
  cases h
  have h := Keeps.refl s
  with_reducible
    repeat' first
      | assumption | apply State.onSwapReq_keeps | apply State.linkRx_keeps | apply State.logged_keeps
      | refine fun y hy => ?_

theorem State.onSwapAck_keeps {s x : State} (a1 : Port) (a2 : List Byte) (h : Keeps s x) : Keeps s (State.onSwapAck x a1 a2) := by
  unfold State.onSwapAck
  with_reducible
    repeat' first
      | assumption | apply State.swapStart_keeps | apply State.answered_keeps | refine Keeps.ite ?_ ?_
      | lift_lets | (intro y; refine Keeps.cut s y ?_ (fun hy => ?_); (on_goal 1 => subst y); (on_goal 2 => clear_value y)) | intro y

theorem execSwapAck_keeps {s t : State} (a0 : Port) (a1 : Nat) (a2 : List Byte) (h : execSwapAck a0 a1 a2 s = .next t) : Keeps s t := by
  unfold execSwapAck at h
  cases h
  have h := Keeps.refl s
  with_reducible
    repeat' first
      | assumption | apply State.onSwapAck_keeps | apply State.linkRx_keeps | apply State.logged_keeps
      | refine fun y hy => ?_

theorem execSwapDwellEnd_keeps {s t : State} (a0 : Port) (h : execSwapDwellEnd a0 s = .next t) : Keeps s t := by
  unfold execSwapDwellEnd at h
  cases h
  have h := Keeps.refl s
  with_reducible
    repeat' first
      | assumption | apply State.linkRun_keeps | apply State.linkZ_keeps | apply State.setRole_keeps
      | apply State.writeContract_keeps | apply State.modL_keeps | apply State.logged_keeps | refine Keeps.ite ?_ ?_
      | refine fun y hy => ?_ | lift_lets
      | (intro y; refine Keeps.cut s y ?_ (fun hy => ?_); (on_goal 1 => subst y); (on_goal 2 => clear_value y)) | intro y | split

theorem execHardReset_keeps {s t : State} (a0 : Port) (a1 : Nat) (a2 : List Byte) (h : execHardReset a0 a1 a2 s = .next t) : Keeps s t := by
  unfold execHardReset at h
  cases h
  have h := Keeps.refl s
  with_reducible
    repeat' first
      | assumption | apply State.linkRx_keeps | apply State.onHardReset_keeps
      | apply State.logged_keeps | refine fun y hy => ?_

theorem State.onDetach_keeps {s x : State} (a1 : Port) (a2 : List Byte) (h : Keeps s x) : Keeps s (State.onDetach x a1 a2) := by
  unfold State.onDetach
  with_reducible
    repeat' first
      | assumption | apply State.toRamp_keeps | apply State.answered_keeps | apply State.reject_keeps
      | apply State.answer_keeps | refine Keeps.ite ?_ ?_ | lift_lets
      | (intro y; refine Keeps.cut s y ?_ (fun hy => ?_); (on_goal 1 => subst y); (on_goal 2 => clear_value y)) | intro y

theorem execDetach_keeps {s t : State} (a0 : Port) (a1 : Nat) (a2 : List Byte) (h : execDetach a0 a1 a2 s = .next t) : Keeps s t := by
  unfold execDetach at h
  cases h
  have h := Keeps.refl s
  with_reducible
    repeat' first
      | assumption | apply State.onDetach_keeps | apply State.linkRx_keeps | apply State.logged_keeps
      | refine fun y hy => ?_

theorem State.noResponse_keeps {s x : State} (a1 : Port) (h : Keeps s x) : Keeps s (State.noResponse x a1) := by
  unfold State.noResponse
  with_reducible
    repeat' first
      | assumption | apply State.sendHard_keeps | apply State.toNeutral_keeps
      | apply State.answered_keeps | apply State.sendPay_keeps | apply State.modL_keeps | apply State.raise_keeps | refine Keeps.ite ?_ ?_
      | lift_lets | (intro y; refine Keeps.cut s y ?_ (fun hy => ?_); (on_goal 1 => subst y); (on_goal 2 => clear_value y)) | intro y
      | split

theorem execNoResponse_keeps {s t : State} (a0 : Port) (h : execNoResponse a0 s = .next t) : Keeps s t := by
  unfold execNoResponse at h
  cases h
  have h := Keeps.refl s
  with_reducible
    repeat' first
      | assumption | apply State.noResponse_keeps | apply State.logged_keeps | refine Keeps.ite ?_ ?_
      | refine fun y hy => ?_

theorem execTransitionTimeout_keeps {s t : State} (a0 : Port) (h : execTransitionTimeout a0 s = .next t) : Keeps s t := by
  unfold execTransitionTimeout at h
  cases h
  have h := Keeps.refl s
  with_reducible
    repeat' first
      | assumption | apply State.sendHard_keeps | apply State.logged_keeps | apply State.raise_keeps
      | refine Keeps.ite ?_ ?_ | refine fun y hy => ?_

theorem execContractVoltage_keeps {s t : State} (a0 : Port) (a1 : Nat) (h : execContractVoltage a0 a1 s = .next t) : Keeps s t := by
  unfold execContractVoltage at h
  cases h
  have h := Keeps.refl s
  with_reducible
    repeat' first
      | assumption | apply State.sendHard_keeps | apply State.logged_keeps | apply State.raise_keeps
      | refine Keeps.ite ?_ ?_ | refine fun y hy => ?_

theorem execDataLost_keeps {s t : State} (a0 : Port) (h : execDataLost a0 s = .next t) : Keeps s t := by
  unfold execDataLost at h
  cases h
  have h := Keeps.refl s
  with_reducible
    repeat' first
      | assumption | apply State.toRamp_keeps | apply State.raise_keeps | refine Keeps.ite ?_ ?_

theorem execLinkDischargeDone_keeps {s t : State} (a0 : Port) (h : execLinkDischargeDone a0 s = .next t) : Keeps s t := by
  unfold execLinkDischargeDone at h
  cases h
  have h := Keeps.refl s
  with_reducible
    repeat' first
      | assumption | apply State.toNeutral_keeps | apply State.linkZ_keeps | apply State.modL_keeps
      | apply State.logged_keeps | refine Keeps.ite ?_ ?_ | refine fun y hy => ?_

theorem execDischargeFail_keeps {s t : State} (a0 : Port) (a1 : Nat) (h : execDischargeFail a0 a1 s = .next t) : Keeps s t := by
  unfold execDischargeFail at h
  cases h
  have h := Keeps.refl s
  with_reducible
    repeat' first
      | assumption | apply State.raise_keeps | refine Keeps.ite ?_ ?_

theorem execRampDownComplete_keeps {s t : State} (a0 : Port) (h : execRampDownComplete a0 s = .next t) : Keeps s t := by
  unfold execRampDownComplete at h
  cases h
  have h := Keeps.refl s
  with_reducible
    repeat' first
      | assumption | apply State.toNeutral_keeps | apply State.logged_keeps | refine Keeps.ite ?_ ?_
      | refine fun y hy => ?_

theorem execReoffer_keeps {s t : State} (a0 : Port) (h : execReoffer a0 s = .next t) : Keeps s t := by
  unfold execReoffer at h
  cases h
  have h := Keeps.refl s
  with_reducible
    repeat' first
      | assumption | apply State.policyContract_keeps | apply State.sendOffer_keeps
      | refine Keeps.ite ?_ ?_

theorem State.linkCtrlWrite_keeps {s x : State} (a1 : Master) (a2 : Port) (a3 : Nat) (h : Keeps s x) : Keeps s (State.linkCtrlWrite x a1 a2 a3) := by
  unfold State.linkCtrlWrite
  with_reducible
    repeat' first
      | assumption | apply State.asked_keeps | apply State.writeKey_keeps | refine fun y hy => ?_
      | split | (refine Keeps.snd_of ?_ (by assumption)) | (refine Keeps.trd_of ?_ (by assumption))

theorem execLinkCtrlDetach_keeps {s t : State} (a0 : Master) (a1 : Port) (h : execLinkCtrlDetach a0 a1 s = .next t) : Keeps s t := by
  unfold execLinkCtrlDetach at h
  cases h
  have h := Keeps.refl s
  with_reducible
    repeat' first
      | assumption | apply State.linkCtrlWrite_keeps | apply State.logged_keeps | refine fun y hy => ?_

theorem execLinkCtrlSwapReq_keeps {s t : State} (a0 : Master) (a1 : Port) (h : execLinkCtrlSwapReq a0 a1 s = .next t) : Keeps s t := by
  unfold execLinkCtrlSwapReq at h
  cases h
  have h := Keeps.refl s
  with_reducible
    repeat' first
      | assumption | apply State.linkCtrlWrite_keeps | apply State.logged_keeps | refine fun y hy => ?_

theorem execLinkCtrlHardReset_keeps {s t : State} (a0 : Master) (a1 : Port) (h : execLinkCtrlHardReset a0 a1 s = .next t) : Keeps s t := by
  unfold execLinkCtrlHardReset at h
  cases h
  have h := Keeps.refl s
  with_reducible
    repeat' first
      | assumption | apply State.linkCtrlWrite_keeps | apply State.logged_keeps | refine fun y hy => ?_

theorem execLinkCtrlApplyPolicy_keeps {s t : State} (a0 : Master) (a1 : Port) (h : execLinkCtrlApplyPolicy a0 a1 s = .next t) : Keeps s t := by
  unfold execLinkCtrlApplyPolicy at h
  cases h
  have h := Keeps.refl s
  with_reducible
    repeat' first
      | assumption | apply State.linkCtrlWrite_keeps | apply State.logged_keeps | refine fun y hy => ?_

end Sys2Proof.Machine
end

