-- ==== Sys2Proof/Laws/KeepsThermal.lean ====
section
/-!
SUPPORT. KeepsThermal.lean: every operation of Machine/Thermal.lean keeps what Keeps names.
-/
set_option linter.unusedTactic false
set_option linter.unreachableTactic false
set_option linter.unusedVariables false
namespace Sys2Proof.Machine

theorem State.tripShell_keeps {s x : State} (a1 : Bool) (h : Keeps s x) : Keeps s (State.tripShell x a1) := by
  unfold State.tripShell
  with_reducible
    repeat' first
      | assumption | apply State.classAbandon_keeps | apply State.detachFree_keeps
      | apply State.toRamp_keeps | apply State.writeChg_keeps | apply State.allocate_keeps | apply State.srcState_keeps
      | refine Keeps.foldl _ ?_ (fun y a hy => ?_) | refine Keeps.ite ?_ ?_ | lift_lets
      | (intro y; refine Keeps.cut s y ?_ (fun hy => ?_); (on_goal 1 => subst y); (on_goal 2 => clear_value y)) | intro y

theorem State.tripTimes_keeps {s x : State} (h : Keeps s x) : Keeps s (State.tripTimes x) := by
  unfold State.tripTimes
  with_reducible
    repeat' first
      | assumption | apply State.setOvercast_keeps | apply State.coreRaise_keeps
      | refine Keeps.ite ?_ ?_ | lift_lets
      | (intro y; refine Keeps.cut s y ?_ (fun hy => ?_); (on_goal 1 => subst y); (on_goal 2 => clear_value y)) | intro y
      | exact Keeps.mk_of (by assumption) id id id id (fun _ => id)
      | refine Keeps.mk_of ?_ (by first | exact id | exact Store.wf_write _ _) id id id (fun _ => id)

theorem State.tsdStop_keeps {s x : State} (h : Keeps s x) : Keeps s (State.tsdStop x) := by
  unfold State.tsdStop
  with_reducible
    repeat' first
      | assumption | apply State.discOff_keeps | apply State.stopG_keeps | refine Keeps.ite ?_ ?_
      | lift_lets | (intro y; refine Keeps.cut s y ?_ (fun hy => ?_); (on_goal 1 => subst y); (on_goal 2 => clear_value y)) | intro y
      | exact Keeps.mk_of (by assumption) id id id id (fun _ => id)
      | refine Keeps.mk_of ?_ (by first | exact id | exact Store.wf_write _ _) id id id (fun _ => id)

theorem State.tsdTrip_keeps {s x : State} (a1 : Nat) (h : Keeps s x) : Keeps s (State.tsdTrip x a1) := by
  unfold State.tsdTrip
  with_reducible
    repeat' first
      | assumption | apply State.tsdStop_keeps | apply State.tripTimes_keeps
      | apply State.tripShell_keeps | apply State.linkZ_keeps | apply State.ev_keeps | apply State.coreRaiseC_keeps
      | apply State.count_keeps | apply State.set_keeps | refine Keeps.ite ?_ ?_ | lift_lets
      | (intro y; refine Keeps.cut s y ?_ (fun hy => ?_); (on_goal 1 => subst y); (on_goal 2 => clear_value y)) | intro y
      | exact Keeps.mk_of (by assumption) id id id id (fun _ => id)
      | refine Keeps.mk_of ?_ (by first | exact id | exact Store.wf_write _ _) id id id (fun _ => id)

theorem execThermalShutdown_keeps {s t : State} (a0 : Fin 8) (h : execThermalShutdown a0 s = .next t) : Keeps s t := by
  unfold execThermalShutdown at h
  cases h
  have h := Keeps.refl s
  with_reducible
    repeat' first
      | assumption | apply State.tsdTrip_keeps | apply State.logged_keeps | refine Keeps.ite ?_ ?_
      | refine fun y hy => ?_

theorem State.tsdRelease_keeps {s x : State} (h : Keeps s x) : Keeps s (State.tsdRelease x) := by
  unfold State.tsdRelease
  with_reducible
    repeat' first
      | assumption | apply State.actStored_keeps | apply State.toNeutral_keeps | apply State.ev_keeps
      | apply State.coreClearK_keeps | apply State.freeG_keeps | apply State.set_keeps | refine Keeps.foldl _ ?_ (fun y a hy => ?_)
      | refine Keeps.ite ?_ ?_ | lift_lets
      | (intro y; refine Keeps.cut s y ?_ (fun hy => ?_); (on_goal 1 => subst y); (on_goal 2 => clear_value y)) | intro y

theorem execThermalShutdownRelease_keeps {s t : State} (h : execThermalShutdownRelease s = .next t) : Keeps s t := by
  unfold execThermalShutdownRelease at h
  cases h
  have h := Keeps.refl s
  with_reducible
    repeat' first
      | assumption | apply State.tsdRelease_keeps | apply State.logged_keeps | refine Keeps.ite ?_ ?_
      | refine fun y hy => ?_

end Sys2Proof.Machine
end

