-- ==== Sys2Proof/Laws/KeepsHorizon.lean ====
section
/-!
SUPPORT. KeepsHorizon.lean: every operation of Machine/Horizon.lean keeps what Keeps names.
-/
set_option linter.unusedTactic false
set_option linter.unreachableTactic false
set_option linter.unusedVariables false
namespace Sys2Proof.Machine

theorem execHzRoundClose_keeps {s t : State} (h : execHzRoundClose s = .next t) : Keeps s t := by
  unfold execHzRoundClose at h
  cases h
  have h := Keeps.refl s
  with_reducible
    repeat' first
      | assumption | apply State.closeRound_keeps | refine Keeps.ite ?_ ?_

theorem execHzProbeStart_keeps {s t : State} (h : execHzProbeStart s = .next t) : Keeps s t := by
  unfold execHzProbeStart at h
  cases h
  have h := Keeps.refl s
  with_reducible
    repeat' first
      | assumption | apply State.set_keeps | refine Keeps.ite ?_ ?_ | lift_lets
      | (intro y; refine Keeps.cut s y ?_ (fun hy => ?_); (on_goal 1 => subst y); (on_goal 2 => clear_value y)) | intro y
      | exact Keeps.mk_of (by assumption) id id id id (fun _ => id)
      | refine Keeps.mk_of ?_ (by first | exact id | exact Store.wf_write _ _) id id id (fun _ => id)

theorem State.measInvalid_keeps {s x : State} (a1 : Nat) (h : Keeps s x) : Keeps s (State.measInvalid x a1) := by
  unfold State.measInvalid
  with_reducible
    repeat' first
      | assumption | apply State.raise_keeps

theorem State.probeResult_keeps {s x : State} (a1 : Nat) (a2 : Nat) (h : Keeps s x) : Keeps s (State.probeResult x a1 a2) := by
  unfold State.probeResult
  with_reducible
    repeat' first
      | assumption | apply State.measInvalid_keeps | apply State.hzTake_keeps | apply State.set_keeps
      | refine Keeps.ite ?_ ?_ | lift_lets
      | (intro y; refine Keeps.cut s y ?_ (fun hy => ?_); (on_goal 1 => subst y); (on_goal 2 => clear_value y)) | intro y
      | exact Keeps.mk_of (by assumption) id id id id (fun _ => id)
      | refine Keeps.mk_of ?_ (by first | exact id | exact Store.wf_write _ _) id id id (fun _ => id)

theorem State.probeCap_keeps {s x : State} (a1 : List ProbeStep) (h : Keeps s x) : Keeps s (State.probeCap x a1).2 := by
  unfold State.probeCap
  with_reducible
    repeat' first
      | assumption | apply State.draw_keeps | refine Keeps.foldl _ ?_ (fun y a hy => ?_)
      | refine Keeps.ite ?_ ?_ | refine Keeps.ite_snd ?_ ?_ | refine Keeps.ite_trd ?_ ?_ | split
      | (refine Keeps.snd_of ?_ (by assumption)) | (refine Keeps.trd_of ?_ (by assumption))

theorem State.probeEsr_keeps {s x : State} (a1 : List (Int × Int)) (h : Keeps s x) : Keeps s (State.probeEsr x a1).2 := by
  unfold State.probeEsr
  with_reducible
    repeat' first
      | assumption | apply State.draw_keeps | refine Keeps.foldl _ ?_ (fun y a hy => ?_)
      | refine Keeps.ite ?_ ?_ | refine Keeps.ite_snd ?_ ?_ | refine Keeps.ite_trd ?_ ?_ | lift_lets
      | (intro y; refine Keeps.cut s y ?_ (fun hy => ?_); (on_goal 1 => subst y); (on_goal 2 => clear_value y)) | intro y | split
      | (refine Keeps.snd_of ?_ (by assumption)) | (refine Keeps.trd_of ?_ (by assumption))

theorem execHzProbeComplete_keeps {s t : State} (a0 : List ProbeStep) (a1 : List (Int × Int)) (h : execHzProbeComplete a0 a1 s = .next t) : Keeps s t := by
  unfold execHzProbeComplete at h
  cases h
  have h := Keeps.refl s
  with_reducible
    repeat' first
      | assumption | apply State.probeEsr_keeps | apply State.probeCap_keeps
      | apply State.probeResult_keeps | refine Keeps.ite ?_ ?_ | refine Keeps.ite_snd ?_ ?_ | refine Keeps.ite_trd ?_ ?_ | lift_lets
      | (intro y; refine Keeps.cut s y ?_ (fun hy => ?_); (on_goal 1 => subst y); (on_goal 2 => clear_value y)) | intro y | split
      | (refine Keeps.snd_of ?_ (by assumption)) | (refine Keeps.trd_of ?_ (by assumption))

theorem State.epochTimer_keeps {s x : State} (h : Keeps s x) : Keeps s (State.epochTimer x) := by
  unfold State.epochTimer
  with_reducible
    repeat' first
      | assumption | apply State.epochStart_keeps | apply State.put_keeps

theorem execHzEpochTimer_keeps {s t : State} (h : execHzEpochTimer s = .next t) : Keeps s t := by
  unfold execHzEpochTimer at h
  cases h
  have h := Keeps.refl s
  with_reducible
    repeat' first
      | assumption | apply State.epochTimer_keeps | refine Keeps.ite ?_ ?_

theorem execHzEpochCmd_keeps {s t : State} (a0 : Master) (a1 : Nat) (h : execHzEpochCmd a0 a1 s = .next t) : Keeps s t := by
  unfold execHzEpochCmd at h
  cases h
  have h := Keeps.refl s
  with_reducible
    repeat' first
      | assumption | apply State.asked_keeps | apply State.writeKey_keeps | apply State.logged_keeps
      | refine fun y hy => ?_ | split | (refine Keeps.snd_of ?_ (by assumption)) | (refine Keeps.trd_of ?_ (by assumption))

theorem State.epochEnd_keeps {s x : State} (a1 : Nat) (h : Keeps s x) : Keeps s (State.epochEnd x a1) := by
  unfold State.epochEnd
  with_reducible
    repeat' first
      | assumption | apply State.hzMode_keeps | apply State.commitStart_keeps
      | apply State.epochFinish_keeps | lift_lets
      | (intro y; refine Keeps.cut s y ?_ (fun hy => ?_); (on_goal 1 => subst y); (on_goal 2 => clear_value y)) | intro y
      | exact Keeps.mk_of (by assumption) id id id id (fun _ => id)
      | refine Keeps.mk_of ?_ (by first | exact id | exact Store.wf_write _ _) id id id (fun _ => id)

theorem execEpochComplete_keeps {s t : State} (h : execEpochComplete s = .next t) : Keeps s t := by
  unfold execEpochComplete at h
  cases h
  have h := Keeps.refl s
  with_reducible
    repeat' first
      | assumption | apply State.epochEnd_keeps | refine Keeps.ite ?_ ?_ | split

theorem State.trimContract_keeps {s x : State} (a1 : Port) (h : Keeps s x) : Keeps s (State.trimContract x a1) := by
  unfold State.trimContract
  with_reducible
    repeat' first
      | assumption | apply State.writeContract_keeps | refine Keeps.ite ?_ ?_ | lift_lets
      | (intro y; refine Keeps.cut s y ?_ (fun hy => ?_); (on_goal 1 => subst y); (on_goal 2 => clear_value y)) | intro y

theorem State.iinRetake_keeps {s x : State} (h : Keeps s x) : Keeps s (State.iinRetake x) := by
  unfold State.iinRetake
  with_reducible
    repeat' first
      | assumption | apply State.portIfNew_keeps | apply State.set_keeps | refine Keeps.ite ?_ ?_
      | lift_lets | (intro y; refine Keeps.cut s y ?_ (fun hy => ?_); (on_goal 1 => subst y); (on_goal 2 => clear_value y)) | intro y
      | exact Keeps.mk_of (by assumption) id id id id (fun _ => id)
      | refine Keeps.mk_of ?_ (by first | exact id | exact Store.wf_write _ _) id id id (fun _ => id)

theorem State.termRamp_keeps {s x : State} (h : Keeps s x) : Keeps s (State.termRamp x) := by
  unfold State.termRamp
  with_reducible
    repeat' first
      | assumption | apply State.iinRetake_keeps | apply State.trimContract_keeps
      | apply State.writeLimits_keeps | refine Keeps.ite ?_ ?_ | lift_lets
      | (intro y; refine Keeps.cut s y ?_ (fun hy => ?_); (on_goal 1 => subst y); (on_goal 2 => clear_value y)) | intro y
      | exact Keeps.mk_of (by assumption) id id id id (fun _ => id)
      | refine Keeps.mk_of ?_ (by first | exact id | exact Store.wf_write _ _) id id id (fun _ => id)

theorem execHzTermRamp_keeps {s t : State} (h : execHzTermRamp s = .next t) : Keeps s t := by
  unfold execHzTermRamp at h
  cases h
  have h := Keeps.refl s
  with_reducible
    repeat' first
      | assumption | apply State.termRamp_keeps | apply State.logged_keeps | refine Keeps.ite ?_ ?_
      | refine fun y hy => ?_

theorem State.ceilingStep_keeps {s x : State} (a1 : Group) (a2 : Nat) (h : Keeps s x) : Keeps s (State.ceilingStep x a1 a2) := by
  unfold State.ceilingStep
  with_reducible
    repeat' first
      | assumption | apply State.portIfNew_keeps | refine Keeps.ite ?_ ?_ | lift_lets
      | (intro y; refine Keeps.cut s y ?_ (fun hy => ?_); (on_goal 1 => subst y); (on_goal 2 => clear_value y)) | intro y

theorem execFreqCeilingStep_keeps {s t : State} (h : execFreqCeilingStep s = .next t) : Keeps s t := by
  unfold execFreqCeilingStep at h
  cases h
  have h := Keeps.refl s
  with_reducible
    repeat' first
      | assumption | apply State.ceilingStep_keeps | apply State.logged_keeps
      | refine Keeps.foldl _ ?_ (fun y a hy => ?_) | refine Keeps.ite ?_ ?_ | refine fun y hy => ?_

theorem execHzRebase_keeps {s t : State} (a0 : Master) (a1 : Nat) (h : execHzRebase a0 a1 s = .next t) : Keeps s t := by
  unfold execHzRebase at h
  cases h
  have h := Keeps.refl s
  with_reducible
    repeat' first
      | assumption | apply State.asked_keeps | apply State.writeKey_keeps | apply State.logged_keeps
      | refine fun y hy => ?_ | split | (refine Keeps.snd_of ?_ (by assumption)) | (refine Keeps.trd_of ?_ (by assumption))

theorem State.leakHour_keeps {s x : State} (a1 : Port) (a2 : Nat) (h : Keeps s x) : Keeps s (State.leakHour x a1 a2) := by
  unfold State.leakHour
  with_reducible
    repeat' first
      | assumption | apply State.put_keeps | refine Keeps.ite ?_ ?_ | lift_lets
      | (intro y; refine Keeps.cut s y ?_ (fun hy => ?_); (on_goal 1 => subst y); (on_goal 2 => clear_value y)) | intro y
      | exact Keeps.mk_of (by assumption) id id id id (fun _ => id)
      | refine Keeps.mk_of ?_ (by first | exact id | exact Store.wf_write _ _) id id id (fun _ => id)

theorem State.fullHour_keeps {s x : State} (h : Keeps s x) : Keeps s (State.fullHour x) := by
  unfold State.fullHour
  with_reducible
    repeat' first
      | assumption | apply State.leakHour_keeps | apply State.hourRecord_keeps | apply State.put_keeps
      | refine Keeps.ite ?_ ?_ | lift_lets
      | (intro y; refine Keeps.cut s y ?_ (fun hy => ?_); (on_goal 1 => subst y); (on_goal 2 => clear_value y)) | intro y
      | exact Keeps.mk_of (by assumption) id id id id (fun _ => id)
      | refine Keeps.mk_of ?_ (by first | exact id | exact Store.wf_write _ _) id id id (fun _ => id)

theorem execHourRecord_keeps {s t : State} (h : execHourRecord s = .next t) : Keeps s t := by
  unfold execHourRecord at h
  cases h
  have h := Keeps.refl s
  with_reducible
    repeat' first
      | assumption | apply State.fullHour_keeps | refine Keeps.ite ?_ ?_

end Sys2Proof.Machine
end

