-- ==== Sys2Proof/Laws/KeepsMemory.lean ====
section
/-!
SUPPORT. KeepsMemory.lean: every operation of Machine/Memory.lean keeps what Keeps names.
-/
set_option linter.unusedTactic false
set_option linter.unreachableTactic false
set_option linter.unusedVariables false
namespace Sys2Proof.Machine

theorem State.imageReload_keeps {s x : State} (a1 : Nat) (a2 : Nat) (h : Keeps s x) : Keeps s (State.imageReload x a1 a2) := by
  unfold State.imageReload
  with_reducible
    repeat' first
      | assumption | apply State.idleIds_keeps | apply State.refuseImage_keeps
      | apply State.setBank_keeps | refine Keeps.ite ?_ ?_ | lift_lets
      | (intro y; refine Keeps.cut s y ?_ (fun hy => ?_); (on_goal 1 => subst y); (on_goal 2 => clear_value y)) | intro y | split
      | exact Keeps.mk_of (by assumption) id id id id (fun _ => id)
      | refine Keeps.mk_of ?_ (by first | exact id | exact Store.wf_write _ _) id id id (fun _ => id)

theorem State.gapRecord_keeps {s x : State} (h : Keeps s x) : Keeps s (State.gapRecord x) := by
  unfold State.gapRecord
  with_reducible
    repeat' first
      | assumption | apply State.raise_keeps | lift_lets
      | (intro y; refine Keeps.cut s y ?_ (fun hy => ?_); (on_goal 1 => subst y); (on_goal 2 => clear_value y)) | intro y
      | exact Keeps.mk_of (by assumption) id id id id (fun _ => id)
      | refine Keeps.mk_of ?_ (by first | exact id | exact Store.wf_write _ _) id id id (fun _ => id)

theorem State.retainedInit_keeps {s x : State} (a : Nat) (h : Keeps s x) : Keeps s (x.retainedInit a) := by
  unfold State.retainedInit
  split
  case h_1 =>
    refine State.flashBusy_keeps _ (State.set_keeps _ _ ?_)
    exact Keeps.mk_from h h.words (fun _ => rfl) (fun _ e h => by cases h) h.entries h.areas
  all_goals
    repeat' first
      | with_reducible assumption
      | with_reducible apply State.set_keeps
      | with_reducible apply State.resetObjs_keeps
      | with_reducible apply State.dropRequests_keeps
      | with_reducible (refine Keeps.foldl _ ?_ (fun y a hy => ?_))
      | with_reducible refine Keeps.ite ?_ ?_
      | with_reducible refine Keeps.ite_snd ?_ ?_
      | with_reducible refine Keeps.ite_trd ?_ ?_
      | refine fun y hy => ?_
      | lift_lets
      | (intro y; refine Keeps.cut s y ?_ (fun hy => ?_); (on_goal 1 => subst y); (on_goal 2 => clear_value y))
      | intro y
      | split
      | with_reducible (refine Keeps.snd_of ?_ (by assumption))
      | with_reducible (refine Keeps.trd_of ?_ (by assumption))
      | with_reducible exact Keeps.mk_of (by with_reducible assumption) id id id id (fun _ => id)
      | with_reducible refine Keeps.mk_of ?_ (by first | exact id | exact Store.wf_write _ _) id id id (fun _ => id)
      | with_reducible refine Keeps.mk_from ?_ (fun hc => Keeps.words (by assumption) hc) (fun hc => Keeps.buf (by assumption) hc) (fun hc => Keeps.inFlight (by assumption) hc) (fun hc => Keeps.entries (by assumption) hc) (fun i hl => Keeps.areas (by assumption) i hl)
      | with_reducible refine Keeps.mk_from ?_ (fun hc => Keeps.words ?_ hc) (fun hc => Keeps.buf ?_ hc) (fun hc => Keeps.inFlight ?_ hc) (fun hc => Keeps.entries ?_ hc) (fun i hl => Keeps.areas ?_ i hl)

theorem State.wordLost_keeps {s x : State} (a1 : SramWord) (h : Keeps s x) : Keeps s (State.wordLost x a1) := by
  unfold State.wordLost
  with_reducible
    repeat' first
      | assumption | apply State.retainedInit_keeps | apply State.gapRecord_keeps
      | apply State.imageReload_keeps | apply State.modCan_keeps | apply State.modFab_keeps | apply State.set_keeps
      | refine Keeps.foldl _ ?_ (fun y a hy => ?_) | refine Keeps.ite ?_ ?_ | lift_lets
      | (intro y; refine Keeps.cut s y ?_ (fun hy => ?_); (on_goal 1 => subst y); (on_goal 2 => clear_value y)) | intro y | split
      | exact Keeps.mk_of (by assumption) id id id id (fun _ => id)
      | refine Keeps.mk_of ?_ (by first | exact id | exact Store.wf_write _ _) id id id (fun _ => id)

theorem State.wordReport_keeps {s x : State} (a1 : SramWord) (h : Keeps s x) : Keeps s (State.wordReport x a1) := by
  unfold State.wordReport
  with_reducible
    repeat' first
      | assumption | apply State.raise_keeps | apply State.tally_keeps | lift_lets
      | (intro y; refine Keeps.cut s y ?_ (fun hy => ?_); (on_goal 1 => subst y); (on_goal 2 => clear_value y)) | intro y | split

theorem execSramScrub_keeps {s t : State} (a0 : List Nat) (a1 : List SramWord) (h : execSramScrub a0 a1 s = .next t) : Keeps s t := by
  unfold execSramScrub at h
  cases h
  have h := Keeps.refl s
  with_reducible
    repeat' first
      | assumption | apply State.wordReport_keeps | apply State.wordLost_keeps
      | apply State.raise_keeps | apply State.tally_keeps | refine Keeps.foldl _ ?_ (fun y a hy => ?_) | refine Keeps.ite ?_ ?_
      | lift_lets | (intro y; refine Keeps.cut s y ?_ (fun hy => ?_); (on_goal 1 => subst y); (on_goal 2 => clear_value y)) | intro y
      | split | exact Keeps.mk_of (by assumption) id id id id (fun _ => id)
      | refine Keeps.mk_of ?_ (by first | exact id | exact Store.wf_write _ _) id id id (fun _ => id)

theorem State.scrubCorrected_keeps {s x : State} (a1 : List Nat) (a2 : Nat) (a3 : Nat) (h : Keeps s x) : Keeps s (State.scrubCorrected x a1 a2 a3) := by
  unfold State.scrubCorrected
  with_reducible
    repeat' first
      | assumption | apply State.raise_keeps | refine Keeps.ite ?_ ?_

theorem State.bankRewrite_keeps {s x : State} (a1 : Nat) (h : Keeps s x) : Keeps s (State.bankRewrite x a1) := by
  unfold State.bankRewrite
  with_reducible
    repeat' first
      | assumption | apply State.refuseImage_keeps | apply State.writeBankF_keeps
      | apply State.setBank_keeps | refine Keeps.foldl _ ?_ (fun y a hy => ?_) | lift_lets
      | (intro y; refine Keeps.cut s y ?_ (fun hy => ?_); (on_goal 1 => subst y); (on_goal 2 => clear_value y)) | intro y | split

theorem State.logLost_keeps {s x : State} (a1 : Nat) (h : Keeps s x) : Keeps s (State.logLost x a1) := by
  unfold State.logLost
  with_reducible
    repeat' first
      | assumption | apply State.draw_keeps | refine Keeps.ite ?_ ?_ | refine Keeps.ite_snd ?_ ?_
      | refine Keeps.ite_trd ?_ ?_ | lift_lets
      | (intro y; refine Keeps.cut s y ?_ (fun hy => ?_); (on_goal 1 => subst y); (on_goal 2 => clear_value y)) | intro y | split
      | (refine Keeps.snd_of ?_ (by assumption)) | (refine Keeps.trd_of ?_ (by assumption))
      | exact Keeps.mk_of (by assumption) id id id id (fun _ => id)
      | refine Keeps.mk_of ?_ (by first | exact id | exact Store.wf_write _ _) id id id (fun _ => id)

theorem State.pageFound_keeps {s x : State} (a1 : List Nat) (a2 : FlashPage) (h : Keeps s x) : Keeps s (State.pageFound x a1 a2) := by
  unfold State.pageFound
  with_reducible
    repeat' first
      | assumption | apply State.logLost_keeps | apply State.bankRewrite_keeps
      | apply State.scrubCorrected_keeps | apply State.checkpoint_keeps | apply State.raise_keeps | apply State.put_keeps
      | refine Keeps.ite ?_ ?_ | lift_lets
      | (intro y; refine Keeps.cut s y ?_ (fun hy => ?_); (on_goal 1 => subst y); (on_goal 2 => clear_value y)) | intro y | split
      | exact Keeps.mk_of (by assumption) id id id id (fun _ => id)
      | refine Keeps.mk_of ?_ (by first | exact id | exact Store.wf_write _ _) id id id (fun _ => id)

theorem execFlashScrub_keeps {s t : State} (a0 : List FlashPage) (h : execFlashScrub a0 s = .next t) : Keeps s t := by
  unfold execFlashScrub at h
  cases h
  have h := Keeps.refl s
  refine Keeps.ite (State.set_keeps _ _ ?_) h
  have key : ∀ (l : List FlashPage) (p : List Nat × State), Keeps s p.2 →
      Keeps s (l.foldl (fun (x : List Nat × State) p => (pageRegion p ++ x.1, x.2.pageFound x.1 p)) p).2 := by
    intro l
    induction l with
    | nil => exact fun p hp => hp
    | cons a l ih => exact fun p hp => ih _ (State.pageFound_keeps _ _ hp)
  exact key _ _ (Keeps.mk_of h id id id id (fun _ => id))

theorem State.logFailed_keeps {s x : State} (a1 : Nat) (h : Keeps s x) : Keeps s (State.logFailed x a1) := by
  unfold State.logFailed
  with_reducible
    repeat' first
      | assumption | apply State.sectorFail_keeps | apply State.raise_keeps | apply State.put_keeps
      | lift_lets | (intro y; refine Keeps.cut s y ?_ (fun hy => ?_); (on_goal 1 => subst y); (on_goal 2 => clear_value y)) | intro y
      | split | exact Keeps.mk_of (by assumption) id id id id (fun _ => id)
      | refine Keeps.mk_of ?_ (by first | exact id | exact Store.wf_write _ _) id id id (fun _ => id)

theorem execFlashWriteComplete_keeps {s t : State} (a0 : Bool) (a1 : Fin 6) (a2 : Nat) (h : execFlashWriteComplete a0 a1 a2 s = .next t) : Keeps s t := by
  unfold execFlashWriteComplete at h
  cases h
  have h := Keeps.refl s
  with_reducible
    repeat' first
      | assumption | apply State.logFailed_keeps | apply State.releaseHeld_keeps
      | apply State.bankWritten_keeps | apply State.sectorFail_keeps | apply State.set_keeps | refine Keeps.ite ?_ ?_

theorem State.reverify_keeps {s x : State} (a1 : Nat) (h : Keeps s x) : Keeps s (State.reverify x a1) := by
  unfold State.reverify
  with_reducible
    repeat' first
      | assumption | apply State.clearI_keeps | apply State.raiseC_keeps
      | refine Keeps.foldl _ ?_ (fun y a hy => ?_) | refine Keeps.ite ?_ ?_

theorem execOtpReverify_keeps {s t : State} (a0 : Nat) (h : execOtpReverify a0 s = .next t) : Keeps s t := by
  unfold execOtpReverify at h
  cases h
  have h := Keeps.refl s
  with_reducible
    repeat' first
      | assumption | apply State.reverify_keeps | refine Keeps.ite ?_ ?_ | lift_lets
      | (intro y; refine Keeps.cut s y ?_ (fun hy => ?_); (on_goal 1 => subst y); (on_goal 2 => clear_value y)) | intro y
      | exact Keeps.mk_of (by assumption) id id id id (fun _ => id)
      | refine Keeps.mk_of ?_ (by first | exact id | exact Store.wf_write _ _) id id id (fun _ => id)

theorem State.reverifyDue_keeps {s x : State} (h : Keeps s x) : Keeps s (State.reverifyDue x) := by
  unfold State.reverifyDue
  with_reducible
    repeat' first
      | assumption | apply State.reverify_keeps | lift_lets
      | (intro y; refine Keeps.cut s y ?_ (fun hy => ?_); (on_goal 1 => subst y); (on_goal 2 => clear_value y)) | intro y | split
      | exact Keeps.mk_of (by assumption) id id id id (fun _ => id)
      | refine Keeps.mk_of ?_ (by first | exact id | exact Store.wf_write _ _) id id id (fun _ => id)

theorem execOtpProg_keeps {s t : State} (a0 : Master) (a1 : List Byte) (h : execOtpProg a0 a1 s = .next t) : Keeps s t := by
  unfold execOtpProg at h
  cases h
  have h := Keeps.refl s
  with_reducible
    repeat' first
      | assumption | apply State.asked_keeps | apply State.writeSegment_keeps | refine fun y hy => ?_
      | split | (refine Keeps.snd_of ?_ (by assumption)) | (refine Keeps.trd_of ?_ (by assumption))

theorem execOtpLock_keeps {s t : State} (a0 : Master) (a1 : Nat) (h : execOtpLock a0 a1 s = .next t) : Keeps s t := by
  unfold execOtpLock at h
  cases h
  have h := Keeps.refl s
  with_reducible
    repeat' first
      | assumption | apply State.asked_keeps | apply State.writeKey_keeps | apply State.logged_keeps
      | refine fun y hy => ?_ | split | (refine Keeps.snd_of ?_ (by assumption)) | (refine Keeps.trd_of ?_ (by assumption))

theorem State.otpDone_keeps {s x : State} (a off : Nat) (d : List Byte) (ok : Bool) (h : Keeps s x) : Keeps s (x.otpDone a off d ok) := by
  unfold State.otpDone
  have h1 : Keeps s { x with otp := { x.otp with prog := none } } := Keeps.mk_of h id id id id (fun _ => id)
  refine Keeps.cut s _ h1 ?_
  generalize ({ x with otp := { x.otp with prog := none } } : State) = y
  intro hy
  refine Keeps.ite ?_ (Keeps.ite ?_ ?_)
  · exact State.releaseHeld_keeps _ _ (State.set_keeps _ _ (State.modArea_keeps _ _ (fun _ _ => rfl) (fun _ _ _ h => h) hy))
  · exact State.releaseHeld_keeps _ _ (State.set_keeps _ _ (State.modArea_keeps _ _ (fun _ h => h) (fun _ _ _ => programBits_keeps _ _ _ _ _) hy))
  · have hb := State.someBits_keeps d hy
    split
    rename_i e
    have hz := Keeps.snd_of hb e
    exact State.releaseHeld_keeps _ _ (State.raise_keeps _ _ _ (State.set_keeps _ _ (State.modArea_keeps _ _ (fun _ h => h) (fun _ _ _ => programBits_keeps _ _ _ _ _) hz)))

theorem execOtpProgrammingComplete_keeps {s t : State} (a0 : Bool) (h : execOtpProgrammingComplete a0 s = .next t) : Keeps s t := by
  unfold execOtpProgrammingComplete at h
  cases h
  have h := Keeps.refl s
  with_reducible
    repeat' first
      | assumption | apply State.otpDone_keeps | apply State.reverifyDue_keeps | refine Keeps.ite ?_ ?_
      | split

end Sys2Proof.Machine
end

