-- ==== Sys2Proof/Laws/KeepsSupply.lean ====
section
/-!
SUPPORT. KeepsSupply.lean: every operation of Machine/Supply.lean keeps what Keeps names.
-/
set_option linter.unusedTactic false
set_option linter.unreachableTactic false
set_option linter.unusedVariables false
namespace Sys2Proof.Machine

theorem State.referenceLost_keeps {s x : State} (h : Keeps s x) : Keeps s (State.referenceLost x) := by
  unfold State.referenceLost
  with_reducible
    repeat' first
      | assumption | apply State.raise1_keeps | apply State.set_keeps | lift_lets
      | (intro y; refine Keeps.cut s y ?_ (fun hy => ?_); (on_goal 1 => subst y); (on_goal 2 => clear_value y)) | intro y
      | exact Keeps.mk_of (by assumption) id id id id (fun _ => id)
      | refine Keeps.mk_of ?_ (by first | exact id | exact Store.wf_write _ _) id id id (fun _ => id)

theorem State.nextReference_keeps {s x : State} (h : Keeps s x) : Keeps s (State.nextReference x) := by
  unfold State.nextReference
  with_reducible
    repeat' first
      | assumption | apply State.referenceLost_keeps | apply State.raise_keeps | apply State.set_keeps
      | refine Keeps.ite ?_ ?_ | lift_lets
      | (intro y; refine Keeps.cut s y ?_ (fun hy => ?_); (on_goal 1 => subst y); (on_goal 2 => clear_value y)) | intro y

theorem State.clockStop_keeps {s x : State} (h : Keeps s x) : Keeps s (State.clockStop x) := by
  unfold State.clockStop
  with_reducible
    repeat' first
      | assumption | apply State.shellAbsent_keeps | apply State.set_keeps | refine Keeps.ite ?_ ?_
      | lift_lets | (intro y; refine Keeps.cut s y ?_ (fun hy => ?_); (on_goal 1 => subst y); (on_goal 2 => clear_value y)) | intro y
      | exact Keeps.mk_of (by assumption) id id id id (fun _ => id)
      | refine Keeps.mk_of ?_ (by first | exact id | exact Store.wf_write _ _) id id id (fun _ => id)

theorem execClockReferenceLost_keeps {s t : State} (a0 : Bool) (h : execClockReferenceLost a0 s = .next t) : Keeps s t := by
  unfold execClockReferenceLost at h
  cases h
  have h := Keeps.refl s
  with_reducible
    repeat' first
      | assumption | apply State.clockStop_keeps | apply State.nextReference_keeps
      | apply State.referenceLost_keeps | apply State.logged_keeps | refine Keeps.ite ?_ ?_ | refine fun y hy => ?_

theorem execRecoveredClkLost_keeps {s t : State} (h : execRecoveredClkLost s = .next t) : Keeps s t := by
  unfold execRecoveredClkLost at h
  cases h
  have h := Keeps.refl s
  with_reducible
    repeat' first
      | assumption | apply State.raise_keeps | apply State.set_keeps | refine Keeps.ite ?_ ?_

theorem execPllUnlock_keeps {s t : State} (h : execPllUnlock s = .next t) : Keeps s t := by
  unfold execPllUnlock at h
  cases h
  have h := Keeps.refl s
  with_reducible
    repeat' first
      | assumption | apply State.raise1_keeps | refine Keeps.ite ?_ ?_

theorem execPllLockHeld_keeps {s t : State} (h : execPllLockHeld s = .next t) : Keeps s t := by
  unfold execPllLockHeld at h
  cases h
  have h := Keeps.refl s
  with_reducible
    repeat' first
      | assumption | apply State.clearK_keeps

theorem execReferenceGood_keeps {s t : State} (h : execReferenceGood s = .next t) : Keeps s t := by
  unfold execReferenceGood at h
  cases h
  have h := Keeps.refl s
  with_reducible
    repeat' first
      | assumption | apply State.clearK_keeps

theorem execCoreBuckFault_keeps {s t : State} (h : execCoreBuckFault s = .next t) : Keeps s t := by
  unfold execCoreBuckFault at h
  cases h
  have h := Keeps.refl s
  with_reducible
    repeat' first
      | assumption | apply State.raise1_keeps | refine Keeps.ite ?_ ?_ | lift_lets
      | (intro y; refine Keeps.cut s y ?_ (fun hy => ?_); (on_goal 1 => subst y); (on_goal 2 => clear_value y)) | intro y
      | exact Keeps.mk_of (by assumption) id id id id (fun _ => id)
      | refine Keeps.mk_of ?_ (by first | exact id | exact Store.wf_write _ _) id id id (fun _ => id)

theorem execCoreBuckRestart_keeps {s t : State} (h : execCoreBuckRestart s = .next t) : Keeps s t := by
  unfold execCoreBuckRestart at h
  cases h
  have h := Keeps.refl s
  with_reducible
    repeat' first
      | assumption | lift_lets
      | (intro y; refine Keeps.cut s y ?_ (fun hy => ?_); (on_goal 1 => subst y); (on_goal 2 => clear_value y)) | intro y
      | exact Keeps.mk_of (by assumption) id id id id (fun _ => id)
      | refine Keeps.mk_of ?_ (by first | exact id | exact Store.wf_write _ _) id id id (fun _ => id)

theorem execCoreBuckNormal_keeps {s t : State} (h : execCoreBuckNormal s = .next t) : Keeps s t := by
  unfold execCoreBuckNormal at h
  cases h
  have h := Keeps.refl s
  with_reducible
    repeat' first
      | assumption | apply State.clearK_keeps | refine Keeps.ite ?_ ?_

theorem execVcoreRange_keeps {s t : State} (a0 : Nat) (h : execVcoreRange a0 s = .next t) : Keeps s t := by
  unfold execVcoreRange at h
  cases h
  have h := Keeps.refl s
  with_reducible
    repeat' first
      | assumption | apply State.raise1_keeps | refine Keeps.ite ?_ ?_

theorem execVcoreWithinRange_keeps {s t : State} (h : execVcoreWithinRange s = .next t) : Keeps s t := by
  unfold execVcoreWithinRange at h
  cases h
  have h := Keeps.refl s
  with_reducible
    repeat' first
      | assumption | apply State.clearK_keeps

theorem execVdd33Range_keeps {s t : State} (a0 : Nat) (h : execVdd33Range a0 s = .next t) : Keeps s t := by
  unfold execVdd33Range at h
  cases h
  have h := Keeps.refl s
  with_reducible
    repeat' first
      | assumption | apply State.raise1_keeps | refine Keeps.ite ?_ ?_

theorem execVdd33WithinRange_keeps {s t : State} (h : execVdd33WithinRange s = .next t) : Keeps s t := by
  unfold execVdd33WithinRange at h
  cases h
  have h := Keeps.refl s
  with_reducible
    repeat' first
      | assumption | apply State.clearK_keeps

theorem execTapReset_keeps {s t : State} (h : execTapReset s = .next t) : Keeps s t := by
  unfold execTapReset at h
  cases h
  have h := Keeps.refl s
  with_reducible
    repeat' first
      | assumption | lift_lets
      | (intro y; refine Keeps.cut s y ?_ (fun hy => ?_); (on_goal 1 => subst y); (on_goal 2 => clear_value y)) | intro y
      | exact Keeps.mk_of (by assumption) id id id id (fun _ => id)
      | refine Keeps.mk_of ?_ (by first | exact id | exact Store.wf_write _ _) id id id (fun _ => id)

theorem execBoundaryScanInstruction_keeps {s t : State} (h : execBoundaryScanInstruction s = .next t) : Keeps s t := by
  unfold execBoundaryScanInstruction at h
  cases h
  have h := Keeps.refl s
  with_reducible
    repeat' first
      | assumption | lift_lets
      | (intro y; refine Keeps.cut s y ?_ (fun hy => ?_); (on_goal 1 => subst y); (on_goal 2 => clear_value y)) | intro y
      | exact Keeps.mk_of (by assumption) id id id id (fun _ => id)
      | refine Keeps.mk_of ?_ (by first | exact id | exact Store.wf_write _ _) id id id (fun _ => id)

end Sys2Proof.Machine
end

