-- ==== Sys2Proof/Laws/KeepsGuard.lean ====
section
/-!
SUPPORT. KeepsGuard.lean: every operation of Machine/Guard.lean keeps what Keeps names.
-/
set_option linter.unusedTactic false
set_option linter.unreachableTactic false
set_option linter.unusedVariables false
namespace Sys2Proof.Machine

theorem State.wdAt_keeps {s x : State} (a1 : Nat) (h : Keeps s x) : Keeps s (State.wdAt x a1) := by
  unfold State.wdAt
  with_reducible
    repeat' first
      | assumption | lift_lets
      | (intro y; refine Keeps.cut s y ?_ (fun hy => ?_); (on_goal 1 => subst y); (on_goal 2 => clear_value y)) | intro y
      | exact Keeps.mk_of (by assumption) id id id id (fun _ => id)
      | refine Keeps.mk_of ?_ (by first | exact id | exact Store.wf_write _ _) id id id (fun _ => id)

theorem State.wdNext_keeps {s x : State} (h : Keeps s x) : Keeps s (State.wdNext x) := by
  unfold State.wdNext
  with_reducible
    repeat' first
      | assumption | apply State.wdViolation_keeps | apply State.wdPeriod_keeps | split

theorem execWdPeriodStart_keeps {s t : State} (h : execWdPeriodStart s = .next t) : Keeps s t := by
  unfold execWdPeriodStart at h
  cases h
  have h := Keeps.refl s
  with_reducible
    repeat' first
      | assumption | apply State.wdNext_keeps | refine Keeps.ite ?_ ?_

theorem State.wdHardware_keeps {s x : State} (a1 : Nat) (h : Keeps s x) : Keeps s (State.wdHardware x a1) := by
  unfold State.wdHardware
  with_reducible
    repeat' first
      | assumption | apply State.wdAt_keeps | apply State.wdAfresh_keeps | apply State.wdCheckin_keeps
      | refine Keeps.ite ?_ ?_ | lift_lets
      | (intro y; refine Keeps.cut s y ?_ (fun hy => ?_); (on_goal 1 => subst y); (on_goal 2 => clear_value y)) | intro y

theorem execWdHardwareCheckin_keeps {s t : State} (a0 : Fin 8) (h : execWdHardwareCheckin a0 s = .next t) : Keeps s t := by
  unfold execWdHardwareCheckin at h
  cases h
  have h := Keeps.refl s
  with_reducible
    repeat' first
      | assumption | apply State.wdHardware_keeps | refine Keeps.ite ?_ ?_

theorem execWdCheckin_keeps {s t : State} (a0 : Master) (a1 : Nat) (a2 : Nat) (h : execWdCheckin a0 a1 a2 s = .next t) : Keeps s t := by
  unfold execWdCheckin at h
  cases h
  have h := Keeps.refl s
  with_reducible
    repeat' first
      | assumption | apply State.wdAt_keeps | apply State.asked_keeps | apply State.writeKey_keeps
      | apply State.logged_keeps | refine fun y hy => ?_ | split | (refine Keeps.snd_of ?_ (by assumption))
      | (refine Keeps.trd_of ?_ (by assumption))

theorem execWdWindowClose_keeps {s t : State} (a0 : Fin 16) (h : execWdWindowClose a0 s = .next t) : Keeps s t := by
  unfold execWdWindowClose at h
  cases h
  have h := Keeps.refl s
  with_reducible
    repeat' first
      | assumption | apply State.wdAt_keeps | apply State.wdViolation_keeps | refine Keeps.ite ?_ ?_
      | lift_lets | (intro y; refine Keeps.cut s y ?_ (fun hy => ?_); (on_goal 1 => subst y); (on_goal 2 => clear_value y)) | intro y

theorem execWdConfigWrite_keeps {s t : State} (a0 : Master) (a1 : Nat) (a2 : Nat) (h : execWdConfigWrite a0 a1 a2 s = .next t) : Keeps s t := by
  unfold execWdConfigWrite at h
  cases h
  have h := Keeps.refl s
  with_reducible
    repeat' first
      | assumption | apply State.asked_keeps | apply State.writeKey_keeps | apply State.logged_keeps
      | refine Keeps.ite ?_ ?_ | refine Keeps.ite_snd ?_ ?_ | refine Keeps.ite_trd ?_ ?_ | refine fun y hy => ?_ | split
      | (refine Keeps.snd_of ?_ (by assumption)) | (refine Keeps.trd_of ?_ (by assumption))

end Sys2Proof.Machine
end

