-- ==== Sys2Proof/Laws/KeepsCanBus.lean ====
section
/-!
SUPPORT. KeepsCanBus.lean: every operation of Machine/CanBus.lean keeps what Keeps names.
-/
set_option linter.unusedTactic false
set_option linter.unreachableTactic false
set_option linter.unusedVariables false
namespace Sys2Proof.Machine

theorem State.canLater_keeps {s x : State} (h : Keeps s x) : Keeps s (State.canLater x) := by
  unfold State.canLater
  with_reducible
    repeat' first
      | assumption | apply State.canQueue_keeps | apply State.modCan_keeps | refine Keeps.ite ?_ ?_
      | split

theorem State.canAnswer_keeps {s x : State} (a1 : Bool) (a2 : Nat) (a3 : List CanFrame) (h : Keeps s x) : Keeps s (State.canAnswer x a1 a2 a3) := by
  unfold State.canAnswer
  with_reducible
    repeat' first
      | assumption | apply State.canLater_keeps | apply State.canKeep_keeps
      | apply State.canQueue_keeps | apply State.modCan_keeps | lift_lets
      | (intro y; refine Keeps.cut s y ?_ (fun hy => ?_); (on_goal 1 => subst y); (on_goal 2 => clear_value y)) | intro y | split

theorem State.canAnswerSlow_keeps {s x : State} (a1 : Bool) (a2 : Nat) (a3 : Nat) (a4 : CanFrame) (h : Keeps s x) : Keeps s (State.canAnswerSlow x a1 a2 a3 a4) := by
  unfold State.canAnswerSlow
  with_reducible
    repeat' first
      | assumption | apply State.canAnswer_keeps | apply State.modCan_keeps | refine Keeps.ite ?_ ?_

theorem State.canRead1_keeps {s x : State} (a1 : Bool) (a2 : List Byte) (a3 : Nat) (a4 : Nat) (h : Keeps s x) : Keeps s (State.canRead1 x a1 a2 a3 a4).2.2 := by
  unfold State.canRead1
  with_reducible
    repeat' first
      | assumption | apply State.readSegment_keeps | refine Keeps.ite ?_ ?_
      | refine Keeps.ite_snd ?_ ?_ | refine Keeps.ite_trd ?_ ?_ | lift_lets
      | (intro y; refine Keeps.cut s y ?_ (fun hy => ?_); (on_goal 1 => subst y); (on_goal 2 => clear_value y)) | intro y | split
      | (refine Keeps.snd_of ?_ (by assumption)) | (refine Keeps.trd_of ?_ (by assumption))

theorem State.canReadN_keeps {s x : State} (a1 : Bool) (a2 : List Byte) (ofs n : Nat) (h : Keeps s x) : Keeps s (x.canReadN a1 a2 ofs n).2 := by
  induction n generalizing x ofs with
  | zero => exact h
  | succ n ih =>
    unfold State.canReadN
    have h1 := State.canRead1_keeps a1 a2 0x83 ofs h
    split
    rename_i last f y e
    have hy : Keeps s y := Keeps.trd_of h1 e
    exact Keeps.ite_snd hy (ih _ hy)

theorem State.abandonOwn_keeps {s x : State} (a1 : Master) (a2 : Nat) (h : Keeps s x) : Keeps s (State.abandonOwn x a1 a2) := by
  unfold State.abandonOwn
  with_reducible
    repeat' first
      | assumption | apply State.dropTransfer_keeps | refine Keeps.ite ?_ ?_ | split

theorem State.canWrite1_keeps {s x : State} (a1 : Bool) (a2 : Bool) (a3 : List Byte) (h : Keeps s x) : Keeps s (State.canWrite1 x a1 a2 a3).2 := by
  unfold State.canWrite1
  with_reducible
    repeat' first
      | assumption | apply State.abandonOwn_keeps | apply State.writeWhole_keeps
      | apply State.writeSegment_keeps | refine Keeps.ite ?_ ?_ | refine Keeps.ite_snd ?_ ?_ | refine Keeps.ite_trd ?_ ?_ | lift_lets
      | (intro y; refine Keeps.cut s y ?_ (fun hy => ?_); (on_goal 1 => subst y); (on_goal 2 => clear_value y)) | intro y | split
      | (refine Keeps.snd_of ?_ (by assumption)) | (refine Keeps.trd_of ?_ (by assumption))

theorem State.canBad_keeps {s x : State} (a1 : Bool) (a2 : List Byte) (h : Keeps s x) : Keeps s (State.canBad x a1 a2) := by
  unfold State.canBad
  with_reducible
    repeat' first
      | assumption | apply State.canAnswer_keeps | lift_lets
      | (intro y; refine Keeps.cut s y ?_ (fun hy => ?_); (on_goal 1 => subst y); (on_goal 2 => clear_value y)) | intro y

theorem State.canReadOp_keeps {s x : State} (a1 : Bool) (a2 : List Byte) (h : Keeps s x) : Keeps s (State.canReadOp x a1 a2) := by
  unfold State.canReadOp
  with_reducible
    repeat' first
      | assumption | apply State.canRead1_keeps | apply State.canAnswer_keeps | lift_lets
      | (intro y; refine Keeps.cut s y ?_ (fun hy => ?_); (on_goal 1 => subst y); (on_goal 2 => clear_value y)) | intro y | split
      | (refine Keeps.snd_of ?_ (by assumption)) | (refine Keeps.trd_of ?_ (by assumption))

theorem State.canReadBlockOp_keeps {s x : State} (a1 : Bool) (a2 : List Byte) (h : Keeps s x) : Keeps s (State.canReadBlockOp x a1 a2) := by
  unfold State.canReadBlockOp
  with_reducible
    repeat' first
      | assumption | apply State.canBad_keeps | apply State.canReadN_keeps
      | apply State.canAnswer_keeps | refine Keeps.ite ?_ ?_ | refine Keeps.ite_snd ?_ ?_ | refine Keeps.ite_trd ?_ ?_ | lift_lets
      | (intro y; refine Keeps.cut s y ?_ (fun hy => ?_); (on_goal 1 => subst y); (on_goal 2 => clear_value y)) | intro y | split
      | (refine Keeps.snd_of ?_ (by assumption)) | (refine Keeps.trd_of ?_ (by assumption))

theorem State.canWriteOp_keeps {s x : State} (a1 : Bool) (a2 : List Byte) (h : Keeps s x) : Keeps s (State.canWriteOp x a1 a2) := by
  unfold State.canWriteOp
  with_reducible
    repeat' first
      | assumption | apply State.canWrite1_keeps | apply State.canAnswerSlow_keeps | lift_lets
      | (intro y; refine Keeps.cut s y ?_ (fun hy => ?_); (on_goal 1 => subst y); (on_goal 2 => clear_value y)) | intro y | split
      | (refine Keeps.snd_of ?_ (by assumption)) | (refine Keeps.trd_of ?_ (by assumption))

theorem State.canWriteBlockOp_keeps {s x : State} (a1 : Bool) (a2 : List Byte) (h : Keeps s x) : Keeps s (State.canWriteBlockOp x a1 a2) := by
  unfold State.canWriteBlockOp
  with_reducible
    repeat' first
      | assumption | apply State.canBad_keeps | apply State.canWrite1_keeps
      | apply State.canAnswerSlow_keeps | apply State.modCan_keeps | refine Keeps.ite ?_ ?_ | refine Keeps.ite_snd ?_ ?_
      | refine Keeps.ite_trd ?_ ?_ | lift_lets
      | (intro y; refine Keeps.cut s y ?_ (fun hy => ?_); (on_goal 1 => subst y); (on_goal 2 => clear_value y)) | intro y | split
      | (refine Keeps.snd_of ?_ (by assumption)) | (refine Keeps.trd_of ?_ (by assumption))

theorem State.canSeedOp_keeps {s x : State} (a1 : Bool) (a2 : List Byte) (h : Keeps s x) : Keeps s (State.canSeedOp x a1 a2) := by
  unfold State.canSeedOp
  with_reducible
    repeat' first
      | assumption | apply State.canAnswer_keeps | apply State.secSeed_keeps | refine Keeps.ite ?_ ?_
      | refine Keeps.ite_snd ?_ ?_ | refine Keeps.ite_trd ?_ ?_ | lift_lets
      | (intro y; refine Keeps.cut s y ?_ (fun hy => ?_); (on_goal 1 => subst y); (on_goal 2 => clear_value y)) | intro y | split
      | (refine Keeps.snd_of ?_ (by assumption)) | (refine Keeps.trd_of ?_ (by assumption))

theorem State.canKeyOp_keeps {s x : State} (a1 : Bool) (a2 : List Byte) (h : Keeps s x) : Keeps s (State.canKeyOp x a1 a2) := by
  unfold State.canKeyOp
  with_reducible
    repeat' first
      | assumption | apply State.canAnswer_keeps | apply State.secKey_keeps | refine Keeps.ite ?_ ?_
      | refine Keeps.ite_snd ?_ ?_ | refine Keeps.ite_trd ?_ ?_ | lift_lets
      | (intro y; refine Keeps.cut s y ?_ (fun hy => ?_); (on_goal 1 => subst y); (on_goal 2 => clear_value y)) | intro y | split
      | (refine Keeps.snd_of ?_ (by assumption)) | (refine Keeps.trd_of ?_ (by assumption))

theorem State.testerSeen_keeps {s x : State} (a1 : Bool) (h : Keeps s x) : Keeps s (State.testerSeen x a1) := by
  unfold State.testerSeen
  with_reducible
    repeat' first
      | assumption | apply State.sessionChange_keeps | refine Keeps.ite ?_ ?_

theorem State.canRequest_keeps {s x : State} (a1 : Bool) (a2 : Bool) (a3 : Nat) (a4 : List Byte) (a5 : State → State) (hf : ∀ y, Keeps s y → Keeps s (a5 y)) (h : Keeps s x) : Keeps s (State.canRequest x a1 a2 a3 a4 a5) := by
  unfold State.canRequest
  with_reducible
    repeat' first
      | assumption | apply State.testerSeen_keeps | apply State.canBad_keeps
      | apply State.canLater_keeps | apply State.canStat_keeps | apply State.canQueue_keeps | apply State.modCan_keeps | apply hf
      | refine Keeps.ite ?_ ?_ | lift_lets
      | (intro y; refine Keeps.cut s y ?_ (fun hy => ?_); (on_goal 1 => subst y); (on_goal 2 => clear_value y)) | intro y | split

theorem execCanRead_keeps {s t : State} (a0 : Bool) (a1 : Bool) (a2 : List Byte) (h : execCanRead a0 a1 a2 s = .next t) : Keeps s t := by
  unfold execCanRead at h
  cases h
  have h := Keeps.refl s
  with_reducible
    repeat' first
      | assumption | apply State.canRequest_keeps | apply State.canReadOp_keeps | refine fun y hy => ?_

theorem execCanWrite_keeps {s t : State} (a0 : Bool) (a1 : Bool) (a2 : List Byte) (h : execCanWrite a0 a1 a2 s = .next t) : Keeps s t := by
  unfold execCanWrite at h
  cases h
  have h := Keeps.refl s
  with_reducible
    repeat' first
      | assumption | apply State.canRequest_keeps | apply State.canWriteOp_keeps
      | apply State.logged_keeps | refine fun y hy => ?_

theorem execReadBlock_keeps {s t : State} (a0 : Bool) (a1 : Bool) (a2 : List Byte) (h : execReadBlock a0 a1 a2 s = .next t) : Keeps s t := by
  unfold execReadBlock at h
  cases h
  have h := Keeps.refl s
  with_reducible
    repeat' first
      | assumption | apply State.canRequest_keeps | apply State.canReadBlockOp_keeps
      | refine fun y hy => ?_

theorem execWriteBlock_keeps {s t : State} (a0 : Bool) (a1 : Bool) (a2 : List Byte) (h : execWriteBlock a0 a1 a2 s = .next t) : Keeps s t := by
  unfold execWriteBlock at h
  cases h
  have h := Keeps.refl s
  with_reducible
    repeat' first
      | assumption | apply State.canRequest_keeps | apply State.canWriteBlockOp_keeps
      | apply State.logged_keeps | refine fun y hy => ?_

theorem execSeed_keeps {s t : State} (a0 : Bool) (a1 : Bool) (a2 : List Byte) (h : execSeed a0 a1 a2 s = .next t) : Keeps s t := by
  unfold execSeed at h
  cases h
  have h := Keeps.refl s
  with_reducible
    repeat' first
      | assumption | apply State.canRequest_keeps | apply State.canSeedOp_keeps | refine fun y hy => ?_

theorem execKey_keeps {s t : State} (a0 : Bool) (a1 : Bool) (a2 : List Byte) (h : execKey a0 a1 a2 s = .next t) : Keeps s t := by
  unfold execKey at h
  cases h
  have h := Keeps.refl s
  with_reducible
    repeat' first
      | assumption | apply State.canRequest_keeps | apply State.canKeyOp_keeps | refine fun y hy => ?_

theorem execSegmentGapTimeout_keeps {s t : State} (a0 : Master) (a1 : Nat) (h : execSegmentGapTimeout a0 a1 s = .next t) : Keeps s t := by
  unfold execSegmentGapTimeout at h
  cases h
  have h := Keeps.refl s
  with_reducible
    repeat' first
      | assumption | apply State.abandonOwn_keeps | apply State.modCan_keeps | refine Keeps.ite ?_ ?_
      | lift_lets | (intro y; refine Keeps.cut s y ?_ (fun hy => ?_); (on_goal 1 => subst y); (on_goal 2 => clear_value y)) | intro y

theorem State.notify_keeps {s x : State} (h : Keeps s x) : Keeps s (State.notify x) := by
  unfold State.notify
  with_reducible
    repeat' first
      | assumption | apply State.canQueue_keeps | refine Keeps.ite ?_ ?_ | lift_lets
      | (intro y; refine Keeps.cut s y ?_ (fun hy => ?_); (on_goal 1 => subst y); (on_goal 2 => clear_value y)) | intro y
      | exact Keeps.mk_of (by assumption) id id id id (fun _ => id)
      | refine Keeps.mk_of ?_ (by first | exact id | exact Store.wf_write _ _) id id id (fun _ => id)

theorem execCanNotify_keeps {s t : State} (a0 : Bool) (h : execCanNotify a0 s = .next t) : Keeps s t := by
  unfold execCanNotify at h
  cases h
  have h := Keeps.refl s
  with_reducible
    repeat' first
      | assumption | apply State.notify_keeps | refine Keeps.ite ?_ ?_ | lift_lets
      | (intro y; refine Keeps.cut s y ?_ (fun hy => ?_); (on_goal 1 => subst y); (on_goal 2 => clear_value y)) | intro y
      | exact Keeps.mk_of (by assumption) id id id id (fun _ => id)
      | refine Keeps.mk_of ?_ (by first | exact id | exact Store.wf_write _ _) id id id (fun _ => id)

theorem execCanApply_keeps {s t : State} (a0 : Master) (a1 : Nat) (h : execCanApply a0 a1 s = .next t) : Keeps s t := by
  unfold execCanApply at h
  cases h
  have h := Keeps.refl s
  with_reducible
    repeat' first
      | assumption | apply State.asked_keeps | apply State.writeKey_keeps | apply State.logged_keeps
      | refine fun y hy => ?_ | split | (refine Keeps.snd_of ?_ (by assumption)) | (refine Keeps.trd_of ?_ (by assumption))

theorem execTxTimeout_keeps {s t : State} (a0 : CanBus) (h : execTxTimeout a0 s = .next t) : Keeps s t := by
  unfold execTxTimeout at h
  cases h
  have h := Keeps.refl s
  with_reducible
    repeat' first
      | assumption | apply State.modCan_keeps | apply State.raise_keeps | refine Keeps.ite ?_ ?_
      | split

theorem State.busOff_keeps {s x : State} (a1 : CanBus) (h : Keeps s x) : Keeps s (State.busOff x a1) := by
  unfold State.busOff
  with_reducible
    repeat' first
      | assumption | apply State.canStat_keeps | apply State.setCanState_keeps
      | apply State.modCan_keeps | apply State.raiseC_keeps | apply State.set_keeps | refine Keeps.ite ?_ ?_ | lift_lets
      | (intro y; refine Keeps.cut s y ?_ (fun hy => ?_); (on_goal 1 => subst y); (on_goal 2 => clear_value y)) | intro y

theorem execBusOff_keeps {s t : State} (a0 : CanBus) (h : execBusOff a0 s = .next t) : Keeps s t := by
  unfold execBusOff at h
  cases h
  have h := Keeps.refl s
  with_reducible
    repeat' first
      | assumption | apply State.busOff_keeps

theorem execBusOffRecovery_keeps {s t : State} (a0 : CanBus) (h : execBusOffRecovery a0 s = .next t) : Keeps s t := by
  unfold execBusOffRecovery at h
  cases h
  have h := Keeps.refl s
  with_reducible
    repeat' first
      | assumption | apply State.setCanState_keeps | apply State.clearK_keeps | apply State.set_keeps
      | refine Keeps.ite ?_ ?_

theorem execErrorPassive_keeps {s t : State} (a0 : CanBus) (a1 : Nat) (a2 : Nat) (h : execErrorPassive a0 a1 a2 s = .next t) : Keeps s t := by
  unfold execErrorPassive at h
  cases h
  have h := Keeps.refl s
  with_reducible
    repeat' first
      | assumption | apply State.busOff_keeps | apply State.setCanState_keeps
      | apply State.clearK_keeps | apply State.raise1_keeps | apply State.set_keeps | refine Keeps.ite ?_ ?_ | lift_lets
      | (intro y; refine Keeps.cut s y ?_ (fun hy => ?_); (on_goal 1 => subst y); (on_goal 2 => clear_value y)) | intro y

theorem execRxOverrun_keeps {s t : State} (a0 : CanBus) (a1 : Nat) (h : execRxOverrun a0 a1 s = .next t) : Keeps s t := by
  unfold execRxOverrun at h
  cases h
  have h := Keeps.refl s
  with_reducible
    repeat' first
      | assumption | apply State.modCan_keeps | apply State.raise_keeps | refine Keeps.ite ?_ ?_
      | lift_lets | (intro y; refine Keeps.cut s y ?_ (fun hy => ?_); (on_goal 1 => subst y); (on_goal 2 => clear_value y)) | intro y

theorem execTesterSessionTimeout_keeps {s t : State} (h : execTesterSessionTimeout s = .next t) : Keeps s t := by
  unfold execTesterSessionTimeout at h
  cases h
  have h := Keeps.refl s
  with_reducible
    repeat' first
      | assumption | apply State.resolve_keeps | apply State.sessionDefault_keeps
      | apply State.logged_keeps | refine Keeps.ite ?_ ?_ | refine fun y hy => ?_

end Sys2Proof.Machine
end

