-- ==== Sys2Proof/Laws/KeepsLinBus.lean ====
section
/-!
SUPPORT. KeepsLinBus.lean: every operation of Machine/LinBus.lean keeps what Keeps names.
-/
set_option linter.unusedTactic false
set_option linter.unreachableTactic false
set_option linter.unusedVariables false
namespace Sys2Proof.Machine

theorem State.linStat_keeps {s x : State} (a1 : Nat) (h : Keeps s x) : Keeps s (State.linStat x a1) := by
  unfold State.linStat
  with_reducible
    repeat' first
      | assumption | apply State.tally_keeps

theorem State.linActive_keeps {s x : State} (h : Keeps s x) : Keeps s (State.linActive x) := by
  unfold State.linActive
  with_reducible
    repeat' first
      | assumption | lift_lets
      | (intro y; refine Keeps.cut s y ?_ (fun hy => ?_); (on_goal 1 => subst y); (on_goal 2 => clear_value y)) | intro y
      | exact Keeps.mk_of (by assumption) id id id id (fun _ => id)
      | refine Keeps.mk_of ?_ (by first | exact id | exact Store.wf_write _ _) id id id (fun _ => id)

theorem State.linRaise_keeps {s x : State} (a1 : Nat) (a2 : Nat) (h : Keeps s x) : Keeps s (State.linRaise x a1 a2) := by
  unfold State.linRaise
  with_reducible
    repeat' first
      | assumption | apply State.raise_keeps | refine Keeps.ite ?_ ?_

theorem State.linHeader_keeps {s x : State} (a1 : Bool) (a2 : State → State) (hf : ∀ y, Keeps s y → Keeps s (a2 y)) (h : Keeps s x) : Keeps s (State.linHeader x a1 a2) := by
  unfold State.linHeader
  with_reducible
    repeat' first
      | assumption | apply State.linRaise_keeps | apply State.linActive_keeps
      | apply State.linStat_keeps | apply hf | refine Keeps.ite ?_ ?_ | lift_lets
      | (intro y; refine Keeps.cut s y ?_ (fun hy => ?_); (on_goal 1 => subst y); (on_goal 2 => clear_value y)) | intro y

theorem State.linRole_keeps {s x : State} (a1 : Bool) (a2 : Nat) (f : Nat → State → State) (hf : ∀ n y, Keeps s y → Keeps s (f n y)) (h : Keeps s x) : Keeps s (x.linRole a1 a2 f) := by
  unfold State.linRole
  refine State.linHeader_keeps _ _ (fun y hy => ?_) h
  refine Keeps.ite hy (hf _ y hy)

theorem State.linSum_keeps {s x : State} (a1 : Nat) (h : Keeps s x) : Keeps s (State.linSum x a1) := by
  unfold State.linSum
  with_reducible
    repeat' first
      | assumption | apply State.raise_keeps | refine Keeps.ite ?_ ?_ | lift_lets
      | (intro y; refine Keeps.cut s y ?_ (fun hy => ?_); (on_goal 1 => subst y); (on_goal 2 => clear_value y)) | intro y
      | exact Keeps.mk_of (by assumption) id id id id (fun _ => id)
      | refine Keeps.mk_of ?_ (by first | exact id | exact Store.wf_write _ _) id id id (fun _ => id)

theorem State.linFrame_keeps {s x : State} (a1 : Nat) (a2 : Bool) (a3 : State → State) (hf : ∀ y, Keeps s y → Keeps s (a3 y)) (h : Keeps s x) : Keeps s (State.linFrame x a1 a2 a3) := by
  unfold State.linFrame
  with_reducible
    repeat' first
      | assumption | apply State.linSum_keeps | apply State.linStat_keeps | apply hf
      | refine Keeps.ite ?_ ?_ | lift_lets
      | (intro y; refine Keeps.cut s y ?_ (fun hy => ?_); (on_goal 1 => subst y); (on_goal 2 => clear_value y)) | intro y
      | exact Keeps.mk_of (by assumption) id id id id (fun _ => id)
      | refine Keeps.mk_of ?_ (by first | exact id | exact Store.wf_write _ _) id id id (fun _ => id)

theorem State.linPublish_keeps {s x : State} (a1 : List Byte) (a2 : Bool) (h : Keeps s x) : Keeps s (State.linPublish x a1 a2) := by
  unfold State.linPublish
  with_reducible
    repeat' first
      | assumption | refine Keeps.ite ?_ ?_ | lift_lets
      | (intro y; refine Keeps.cut s y ?_ (fun hy => ?_); (on_goal 1 => subst y); (on_goal 2 => clear_value y)) | intro y
      | exact Keeps.mk_of (by assumption) id id id id (fun _ => id)
      | refine Keeps.mk_of ?_ (by first | exact id | exact Store.wf_write _ _) id id id (fun _ => id)

theorem State.linByte_keeps {s x : State} (a1 : Nat) (a2 : Nat) (h : Keeps s x) : Keeps s (State.linByte x a1 a2) := by
  unfold State.linByte
  with_reducible
    repeat' first
      | assumption | apply State.linStat_keeps | apply State.writeKey_keeps | refine Keeps.ite ?_ ?_
      | refine Keeps.ite_snd ?_ ?_ | refine Keeps.ite_trd ?_ ?_ | lift_lets
      | (intro y; refine Keeps.cut s y ?_ (fun hy => ?_); (on_goal 1 => subst y); (on_goal 2 => clear_value y)) | intro y | split
      | (refine Keeps.snd_of ?_ (by assumption)) | (refine Keeps.trd_of ?_ (by assumption))

theorem State.linCommand_keeps {s x : State} (a1 : List Byte) (h : Keeps s x) : Keeps s (State.linCommand x a1) := by
  unfold State.linCommand
  with_reducible
    repeat' first
      | assumption | apply State.linByte_keeps | refine Keeps.ite ?_ ?_ | lift_lets
      | (intro y; refine Keeps.cut s y ?_ (fun hy => ?_); (on_goal 1 => subst y); (on_goal 2 => clear_value y)) | intro y

theorem execLinCommand_keeps {s t : State} (a0 : List Byte) (a1 : Bool) (a2 : Bool) (h : execLinCommand a0 a1 a2 s = .next t) : Keeps s t := by
  unfold execLinCommand at h
  cases h
  have h := Keeps.refl s
  with_reducible
    repeat' first
      | assumption | apply State.linCommand_keeps | apply State.linFrame_keeps
      | apply State.linRole_keeps | apply State.logged_keeps | refine fun y hy => ?_

theorem execLinStatus_keeps {s t : State} (a0 : Bool) (a1 : Bool) (h : execLinStatus a0 a1 s = .next t) : Keeps s t := by
  unfold execLinStatus at h
  cases h
  have h := Keeps.refl s
  with_reducible
    repeat' first
      | assumption | apply State.linPublish_keeps | apply State.linRole_keeps | refine Keeps.ite ?_ ?_
      | refine fun y hy => ?_ | lift_lets
      | (intro y; refine Keeps.cut s y ?_ (fun hy => ?_); (on_goal 1 => subst y); (on_goal 2 => clear_value y)) | intro y
      | exact Keeps.mk_of (by assumption) id id id id (fun _ => id)
      | refine Keeps.mk_of ?_ (by first | exact id | exact Store.wf_write _ _) id id id (fun _ => id)

theorem State.linRead_keeps {s x : State} (a1 : List Byte) (h : Keeps s x) : Keeps s (State.linRead x a1) := by
  unfold State.linRead
  with_reducible
    repeat' first
      | assumption | apply State.readKey_keeps | apply State.answerWith_keeps | refine Keeps.ite ?_ ?_
      | refine Keeps.ite_snd ?_ ?_ | refine Keeps.ite_trd ?_ ?_ | lift_lets
      | (intro y; refine Keeps.cut s y ?_ (fun hy => ?_); (on_goal 1 => subst y); (on_goal 2 => clear_value y)) | intro y | split
      | (refine Keeps.snd_of ?_ (by assumption)) | (refine Keeps.trd_of ?_ (by assumption))
      | exact Keeps.mk_of (by assumption) id id id id (fun _ => id)
      | refine Keeps.mk_of ?_ (by first | exact id | exact Store.wf_write _ _) id id id (fun _ => id)

theorem State.linWrite_keeps {s x : State} (a1 : List Byte) (h : Keeps s x) : Keeps s (State.linWrite x a1) := by
  unfold State.linWrite
  with_reducible
    repeat' first
      | assumption | apply State.writeKey_keeps | apply State.answerWith_keeps | refine Keeps.ite ?_ ?_
      | refine Keeps.ite_snd ?_ ?_ | refine Keeps.ite_trd ?_ ?_ | lift_lets
      | (intro y; refine Keeps.cut s y ?_ (fun hy => ?_); (on_goal 1 => subst y); (on_goal 2 => clear_value y)) | intro y | split
      | (refine Keeps.snd_of ?_ (by assumption)) | (refine Keeps.trd_of ?_ (by assumption))
      | exact Keeps.mk_of (by assumption) id id id id (fun _ => id)
      | refine Keeps.mk_of ?_ (by first | exact id | exact Store.wf_write _ _) id id id (fun _ => id)

theorem State.linAccess_keeps {s x : State} (a1 : List Byte) (h : Keeps s x) : Keeps s (State.linAccess x a1) := by
  unfold State.linAccess
  with_reducible
    repeat' first
      | assumption | apply State.linWrite_keeps | apply State.linRead_keeps | refine Keeps.ite ?_ ?_
      | lift_lets | (intro y; refine Keeps.cut s y ?_ (fun hy => ?_); (on_goal 1 => subst y); (on_goal 2 => clear_value y)) | intro y
      | exact Keeps.mk_of (by assumption) id id id id (fun _ => id)
      | refine Keeps.mk_of ?_ (by first | exact id | exact Store.wf_write _ _) id id id (fun _ => id)

theorem execObjReq_keeps {s t : State} (a0 : List Byte) (a1 : Bool) (a2 : Bool) (h : execObjReq a0 a1 a2 s = .next t) : Keeps s t := by
  unfold execObjReq at h
  cases h
  have h := Keeps.refl s
  with_reducible
    repeat' first
      | assumption | apply State.linAccess_keeps | apply State.linFrame_keeps
      | apply State.linRole_keeps | apply State.logged_keeps | refine fun y hy => ?_

theorem State.linOrphan_keeps {s x : State} (a1 : List Byte) (h : Keeps s x) : Keeps s (State.linOrphan x a1) := by
  unfold State.linOrphan
  with_reducible
    repeat' first
      | assumption | apply State.linRead_keeps | refine Keeps.ite ?_ ?_ | lift_lets
      | (intro y; refine Keeps.cut s y ?_ (fun hy => ?_); (on_goal 1 => subst y); (on_goal 2 => clear_value y)) | intro y
      | exact Keeps.mk_of (by assumption) id id id id (fun _ => id)
      | refine Keeps.mk_of ?_ (by first | exact id | exact Store.wf_write _ _) id id id (fun _ => id)

theorem State.linUnheld_keeps {s x : State} (h : Keeps s x) : Keeps s (State.linUnheld x) := by
  unfold State.linUnheld
  with_reducible
    repeat' first
      | assumption | apply State.linOrphan_keeps | refine Keeps.ite ?_ ?_ | lift_lets
      | (intro y; refine Keeps.cut s y ?_ (fun hy => ?_); (on_goal 1 => subst y); (on_goal 2 => clear_value y)) | intro y | split
      | exact Keeps.mk_of (by assumption) id id id id (fun _ => id)
      | refine Keeps.mk_of ?_ (by first | exact id | exact Store.wf_write _ _) id id id (fun _ => id)

theorem execObjRsp_keeps {s t : State} (a0 a1 : Bool) (h : execObjRsp a0 a1 s = .next t) : Keeps s t := by
  unfold execObjRsp at h
  cases h
  refine State.linRole_keeps _ _ _ (fun _ y hy => ?_) (Keeps.refl s)
  have hu := State.linUnheld_keeps hy
  generalize y.linUnheld = z at hu
  show Keeps s (match z.lin.rsp with | none => z | some b => z.linPublish b a1)
  split
  · exact hu
  · exact State.linPublish_keeps _ _ hu

theorem State.linSet_keeps {s x : State} (a1 : Nat) (a2 : Nat) (a3 : Lin → Lin) (h : Keeps s x) : Keeps s (State.linSet x a1 a2 a3).2 := by
  unfold State.linSet
  with_reducible
    repeat' first
      | assumption | apply State.writeKey_keeps | refine Keeps.ite ?_ ?_ | refine Keeps.ite_snd ?_ ?_
      | refine Keeps.ite_trd ?_ ?_ | lift_lets
      | (intro y; refine Keeps.cut s y ?_ (fun hy => ?_); (on_goal 1 => subst y); (on_goal 2 => clear_value y)) | intro y | split
      | (refine Keeps.snd_of ?_ (by assumption)) | (refine Keeps.trd_of ?_ (by assumption))
      | exact Keeps.mk_of (by assumption) id id id id (fun _ => id)
      | refine Keeps.mk_of ?_ (by first | exact id | exact Store.wf_write _ _) id id id (fun _ => id)

theorem State.linReply_keeps {s x : State} (a1 : Nat) (a2 : List Byte) (h : Keeps s x) : Keeps s (State.linReply x a1 a2) := by
  unfold State.linReply
  with_reducible
    repeat' first
      | assumption | lift_lets
      | (intro y; refine Keeps.cut s y ?_ (fun hy => ?_); (on_goal 1 => subst y); (on_goal 2 => clear_value y)) | intro y
      | exact Keeps.mk_of (by assumption) id id id id (fun _ => id)
      | refine Keeps.mk_of ?_ (by first | exact id | exact Store.wf_write _ _) id id id (fun _ => id)

theorem State.assignNad_keeps {s x : State} (a1 : List Byte) (h : Keeps s x) : Keeps s (State.assignNad x a1) := by
  unfold State.assignNad
  with_reducible
    repeat' first
      | assumption | apply State.linReply_keeps | apply State.linSet_keeps | refine Keeps.ite ?_ ?_
      | refine Keeps.ite_snd ?_ ?_ | refine Keeps.ite_trd ?_ ?_ | lift_lets
      | (intro y; refine Keeps.cut s y ?_ (fun hy => ?_); (on_goal 1 => subst y); (on_goal 2 => clear_value y)) | intro y | split
      | (refine Keeps.snd_of ?_ (by assumption)) | (refine Keeps.trd_of ?_ (by assumption))

theorem State.linNegative_keeps {s x : State} (a1 : List Byte) (h : Keeps s x) : Keeps s (State.linNegative x a1) := by
  unfold State.linNegative
  with_reducible
    repeat' first
      | assumption | apply State.linReply_keeps

theorem State.linReadId_keeps {s x : State} (a1 : List Byte) (h : Keeps s x) : Keeps s (State.linReadId x a1) := by
  unfold State.linReadId
  with_reducible
    repeat' first
      | assumption | apply State.linNegative_keeps | apply State.linReply_keeps
      | refine Keeps.ite ?_ ?_ | split

theorem State.linSave_keeps {s x : State} (h : Keeps s x) : Keeps s (State.linSave x) := by
  unfold State.linSave
  with_reducible
    repeat' first
      | assumption | apply State.linReply_keeps | apply State.commitStart_keeps
      | refine Keeps.ite ?_ ?_

theorem State.assignPids_keeps {s x : State} (b : List Byte) (h : Keeps s x) : Keeps s (x.assignPids b) := by
  unfold State.assignPids
  refine Keeps.ite h ?_
  have key : ∀ (l : List (Nat × Nat)) (p : Nat × State), Keeps s p.2 →
      Keeps s (l.foldl (fun (a : Nat × State) x =>
        let w := a.2.linSet (Obj.LIN_PID (x.1 + 1)) (x.2 % 64) fun l => { l with pid := l.pid.set x.1 (x.2 % 64) }
        (max a.1 w.1, w.2)) p).2 := by
    intro l
    induction l with
    | nil => exact fun p hp => hp
    | cons a l ih => exact fun p hp => ih _ (State.linSet_keeps _ _ _ hp)
  have hr := key (pidChanges b) (0, x) h
  exact Keeps.ite (State.linReply_keeps _ _ hr) hr

theorem State.linConfig_keeps {s x : State} (a1 : Nat) (a2 : List Byte) (a3 : Bool) (a4 : Bool) (a5 : State → State) (hf : ∀ y, Keeps s y → Keeps s (a5 y)) (h : Keeps s x) : Keeps s (State.linConfig x a1 a2 a3 a4 a5) := by
  unfold State.linConfig
  with_reducible
    repeat' first
      | assumption | apply State.linNegative_keeps | apply State.linFrame_keeps
      | apply State.linHeader_keeps | apply hf | refine Keeps.ite ?_ ?_ | refine fun y hy => ?_

theorem execAssignNad_keeps {s t : State} (a0 : List Byte) (a1 : Bool) (a2 : Bool) (h : execAssignNad a0 a1 a2 s = .next t) : Keeps s t := by
  unfold execAssignNad at h
  cases h
  have h := Keeps.refl s
  with_reducible
    repeat' first
      | assumption | apply State.linConfig_keeps | apply State.assignNad_keeps
      | apply State.logged_keeps | refine fun y hy => ?_

theorem execReadByIdentifier_keeps {s t : State} (a0 : List Byte) (a1 : Bool) (a2 : Bool) (h : execReadByIdentifier a0 a1 a2 s = .next t) : Keeps s t := by
  unfold execReadByIdentifier at h
  cases h
  have h := Keeps.refl s
  with_reducible
    repeat' first
      | assumption | apply State.linConfig_keeps | apply State.linReadId_keeps | refine fun y hy => ?_

theorem execSaveConfiguration_keeps {s t : State} (a0 : List Byte) (a1 : Bool) (a2 : Bool) (h : execSaveConfiguration a0 a1 a2 s = .next t) : Keeps s t := by
  unfold execSaveConfiguration at h
  cases h
  have h := Keeps.refl s
  with_reducible
    repeat' first
      | assumption | apply State.linConfig_keeps | apply State.linSave_keeps | refine fun y hy => ?_

theorem execAssignFrameIdentifierRange_keeps {s t : State} (a0 : List Byte) (a1 : Bool) (a2 : Bool) (h : execAssignFrameIdentifierRange a0 a1 a2 s = .next t) : Keeps s t := by
  unfold execAssignFrameIdentifierRange at h
  cases h
  have h := Keeps.refl s
  with_reducible
    repeat' first
      | assumption | apply State.linConfig_keeps | apply State.assignPids_keeps
      | apply State.logged_keeps | refine fun y hy => ?_

theorem execSlaveResponse_keeps {s t : State} (a0 : Bool) (a1 : Bool) (h : execSlaveResponse a0 a1 s = .next t) : Keeps s t := by
  unfold execSlaveResponse at h
  cases h
  have h := Keeps.refl s
  with_reducible
    repeat' first
      | assumption | apply State.linPublish_keeps | apply State.linHeader_keeps
      | refine Keeps.ite ?_ ?_ | refine fun y hy => ?_ | lift_lets
      | (intro y; refine Keeps.cut s y ?_ (fun hy => ?_); (on_goal 1 => subst y); (on_goal 2 => clear_value y)) | intro y | split
      | exact Keeps.mk_of (by assumption) id id id id (fun _ => id)
      | refine Keeps.mk_of ?_ (by first | exact id | exact Store.wf_write _ _) id id id (fun _ => id)

theorem State.linSleep_keeps {s x : State} (h : Keeps s x) : Keeps s (State.linSleep x) := by
  unfold State.linSleep
  with_reducible
    repeat' first
      | assumption | lift_lets
      | (intro y; refine Keeps.cut s y ?_ (fun hy => ?_); (on_goal 1 => subst y); (on_goal 2 => clear_value y)) | intro y
      | exact Keeps.mk_of (by assumption) id id id id (fun _ => id)
      | refine Keeps.mk_of ?_ (by first | exact id | exact Store.wf_write _ _) id id id (fun _ => id)

theorem execGoToSleep_keeps {s t : State} (a0 : Bool) (a1 : Bool) (h : execGoToSleep a0 a1 s = .next t) : Keeps s t := by
  unfold execGoToSleep at h
  cases h
  have h := Keeps.refl s
  with_reducible
    repeat' first
      | assumption | apply State.linSleep_keeps | apply State.linFrame_keeps
      | apply State.linHeader_keeps | refine fun y hy => ?_

theorem execLinBusInactivity_keeps {s t : State} (h : execLinBusInactivity s = .next t) : Keeps s t := by
  unfold execLinBusInactivity at h
  cases h
  have h := Keeps.refl s
  with_reducible
    repeat' first
      | assumption | apply State.linSleep_keeps | refine Keeps.ite ?_ ?_

theorem execLinWake_keeps {s t : State} (a0 : Nat) (h : execLinWake a0 s = .next t) : Keeps s t := by
  unfold execLinWake at h
  cases h
  have h := Keeps.refl s
  with_reducible
    repeat' first
      | assumption | apply State.linActive_keeps | apply State.wakeEvent_keeps | refine Keeps.ite ?_ ?_
      | lift_lets | (intro y; refine Keeps.cut s y ?_ (fun hy => ?_); (on_goal 1 => subst y); (on_goal 2 => clear_value y)) | intro y

theorem execLinWakeTx_keeps {s t : State} (h : execLinWakeTx s = .next t) : Keeps s t := by
  unfold execLinWakeTx at h
  cases h
  have h := Keeps.refl s
  with_reducible
    repeat' first
      | assumption | refine Keeps.ite ?_ ?_ | lift_lets
      | (intro y; refine Keeps.cut s y ?_ (fun hy => ?_); (on_goal 1 => subst y); (on_goal 2 => clear_value y)) | intro y
      | exact Keeps.mk_of (by assumption) id id id id (fun _ => id)
      | refine Keeps.mk_of ?_ (by first | exact id | exact Store.wf_write _ _) id id id (fun _ => id)

theorem execLinBreak_keeps {s t : State} (a0 : Bool) (h : execLinBreak a0 s = .next t) : Keeps s t := by
  unfold execLinBreak at h
  cases h
  have h := Keeps.refl s
  with_reducible
    repeat' first
      | assumption | apply State.linHeader_keeps | refine fun y hy => ?_

theorem execLinBusShort_keeps {s t : State} (h : execLinBusShort s = .next t) : Keeps s t := by
  unfold execLinBusShort at h
  cases h
  have h := Keeps.refl s
  with_reducible
    repeat' first
      | assumption | apply State.linShorted_keeps | refine Keeps.ite ?_ ?_ | lift_lets
      | (intro y; refine Keeps.cut s y ?_ (fun hy => ?_); (on_goal 1 => subst y); (on_goal 2 => clear_value y)) | intro y
      | exact Keeps.mk_of (by assumption) id id id id (fun _ => id)
      | refine Keeps.mk_of ?_ (by first | exact id | exact Store.wf_write _ _) id id id (fun _ => id)

theorem execLinBusRecessive_keeps {s t : State} (h : execLinBusRecessive s = .next t) : Keeps s t := by
  unfold execLinBusRecessive at h
  cases h
  have h := Keeps.refl s
  with_reducible
    repeat' first
      | assumption | apply State.clearK_keeps | lift_lets
      | (intro y; refine Keeps.cut s y ?_ (fun hy => ?_); (on_goal 1 => subst y); (on_goal 2 => clear_value y)) | intro y
      | exact Keeps.mk_of (by assumption) id id id id (fun _ => id)
      | refine Keeps.mk_of ?_ (by first | exact id | exact Store.wf_write _ _) id id id (fun _ => id)

end Sys2Proof.Machine
end

