-- ==== Sys2Proof/Laws/KeepsUds.lean ====
section
/-!
SUPPORT. KeepsUds.lean: every operation of Machine/Uds.lean keeps what Keeps names.
-/
set_option linter.unusedTactic false
set_option linter.unreachableTactic false
set_option linter.unusedVariables false
namespace Sys2Proof.Machine

theorem State.udsDo_keeps {s x : State} (a1 : Bool) (a2 : List Byte) (a3 : List (Bool × Nat)) (a4 : State → State) (hf : ∀ y, Keeps s y → Keeps s (a4 y)) (h : Keeps s x) : Keeps s (State.udsDo x a1 a2 a3 a4) := by
  unfold State.udsDo
  with_reducible
    repeat' first
      | assumption | apply State.udsNegative_keeps | apply hf | refine Keeps.ite ?_ ?_ | lift_lets
      | (intro y; refine Keeps.cut s y ?_ (fun hy => ?_); (on_goal 1 => subst y); (on_goal 2 => clear_value y)) | intro y

theorem State.goSession_keeps {s x : State} (a1 : Nat) (h : Keeps s x) : Keeps s (State.goSession x a1) := by
  unfold State.goSession
  with_reducible
    repeat' first
      | assumption | apply State.resolve_keeps | apply State.sessionDefault_keeps
      | apply State.sessionChange_keeps | refine Keeps.ite ?_ ?_

theorem State.udsSession_keeps {s x : State} (a1 : Bool) (a2 : List Byte) (h : Keeps s x) : Keeps s (State.udsSession x a1 a2) := by
  unfold State.udsSession
  with_reducible
    repeat' first
      | assumption | apply State.goSession_keeps | apply State.udsDo_keeps
      | apply State.udsPositive_keeps | refine fun y hy => ?_ | lift_lets
      | (intro y; refine Keeps.cut s y ?_ (fun hy => ?_); (on_goal 1 => subst y); (on_goal 2 => clear_value y)) | intro y

theorem State.udsReset_keeps {s x : State} (a1 : Bool) (a2 : List Byte) (h : Keeps s x) : Keeps s (State.udsReset x a1 a2) := by
  unfold State.udsReset
  with_reducible
    repeat' first
      | assumption | apply State.udsDo_keeps | apply State.udsPositive_keeps | apply State.modU_keeps
      | refine Keeps.ite ?_ ?_ | refine fun y hy => ?_ | lift_lets
      | (intro y; refine Keeps.cut s y ?_ (fun hy => ?_); (on_goal 1 => subst y); (on_goal 2 => clear_value y)) | intro y

theorem State.udsTester_keeps {s x : State} (a1 : Bool) (a2 : List Byte) (h : Keeps s x) : Keeps s (State.udsTester x a1 a2) := by
  unfold State.udsTester
  with_reducible
    repeat' first
      | assumption | apply State.udsDo_keeps | apply State.udsPositive_keeps | refine fun y hy => ?_

theorem State.udsSetting_keeps {s x : State} (a1 : Bool) (a2 : List Byte) (h : Keeps s x) : Keeps s (State.udsSetting x a1 a2) := by
  unfold State.udsSetting
  with_reducible
    repeat' first
      | assumption | apply State.udsDo_keeps | apply State.udsPositive_keeps | apply State.set_keeps
      | refine fun y hy => ?_ | lift_lets
      | (intro y; refine Keeps.cut s y ?_ (fun hy => ?_); (on_goal 1 => subst y); (on_goal 2 => clear_value y)) | intro y

theorem State.udsClear_keeps {s x : State} (a1 : Bool) (a2 : List Byte) (h : Keeps s x) : Keeps s (State.udsClear x a1 a2) := by
  unfold State.udsClear
  with_reducible
    repeat' first
      | assumption | apply State.udsDo_keeps | apply State.udsPositive_keeps
      | apply State.dtcClearBy_keeps | refine fun y hy => ?_ | lift_lets
      | (intro y; refine Keeps.cut s y ?_ (fun hy => ?_); (on_goal 1 => subst y); (on_goal 2 => clear_value y)) | intro y

theorem State.udsDtc_keeps {s x : State} (a1 : Bool) (a2 : List Byte) (h : Keeps s x) : Keeps s (State.udsDtc x a1 a2) := by
  unfold State.udsDtc
  with_reducible
    repeat' first
      | assumption | apply State.udsDo_keeps | apply State.udsPositive_keeps | refine fun y hy => ?_
      | lift_lets | (intro y; refine Keeps.cut s y ?_ (fun hy => ?_); (on_goal 1 => subst y); (on_goal 2 => clear_value y)) | intro y

theorem State.didDomain_keeps {s x : State} (a1 : Nat) (h : Keeps s x) : Keeps s (State.didDomain x a1).2 := by
  unfold State.didDomain
  with_reducible
    repeat' first
      | assumption | apply State.readSegment_keeps | apply State.set_keeps | refine Keeps.ite ?_ ?_
      | refine Keeps.ite_snd ?_ ?_ | refine Keeps.ite_trd ?_ ?_ | lift_lets
      | (intro y; refine Keeps.cut s y ?_ (fun hy => ?_); (on_goal 1 => subst y); (on_goal 2 => clear_value y)) | intro y | split
      | (refine Keeps.snd_of ?_ (by assumption)) | (refine Keeps.trd_of ?_ (by assumption))

theorem State.didData_keeps {s x : State} (a1 : Nat) (h : Keeps s x) : Keeps s (State.didData x a1).2 := by
  unfold State.didData
  with_reducible
    repeat' first
      | assumption | apply State.didDomain_keeps | apply State.readKey_keeps | refine Keeps.ite ?_ ?_
      | refine Keeps.ite_snd ?_ ?_ | refine Keeps.ite_trd ?_ ?_ | lift_lets
      | (intro y; refine Keeps.cut s y ?_ (fun hy => ?_); (on_goal 1 => subst y); (on_goal 2 => clear_value y)) | intro y | split
      | (refine Keeps.snd_of ?_ (by assumption)) | (refine Keeps.trd_of ?_ (by assumption))

theorem State.didAll_keeps {s x : State} (l : List Nat) (h : Keeps s x) : Keeps s (x.didAll l).2 := by
  induction l generalizing x with
  | nil => exact h
  | cons a l ih => exact ih (State.didData_keeps a h)

theorem State.didRefuse_keeps {s x : State} (a1 : Nat) (h : Keeps s x) : Keeps s (State.didRefuse x a1) := by
  unfold State.didRefuse
  with_reducible
    repeat' first
      | assumption | apply State.answerWith_keeps | refine Keeps.ite ?_ ?_ | lift_lets
      | (intro y; refine Keeps.cut s y ?_ (fun hy => ?_); (on_goal 1 => subst y); (on_goal 2 => clear_value y)) | intro y

theorem State.udsRead_keeps {s x : State} (a1 : Bool) (a2 : List Byte) (h : Keeps s x) : Keeps s (State.udsRead x a1 a2) := by
  unfold State.udsRead
  with_reducible
    repeat' first
      | assumption | apply State.didRefuse_keeps | apply State.didAll_keeps
      | apply State.udsNegative_keeps | apply State.udsSend_keeps | refine Keeps.ite ?_ ?_ | refine Keeps.ite_snd ?_ ?_
      | refine Keeps.ite_trd ?_ ?_ | lift_lets
      | (intro y; refine Keeps.cut s y ?_ (fun hy => ?_); (on_goal 1 => subst y); (on_goal 2 => clear_value y)) | intro y | split
      | (refine Keeps.snd_of ?_ (by assumption)) | (refine Keeps.trd_of ?_ (by assumption))

theorem State.udsWrite_keeps {s x : State} (a1 : Bool) (a2 : List Byte) (h : Keeps s x) : Keeps s (State.udsWrite x a1 a2) := by
  unfold State.udsWrite
  with_reducible
    repeat' first
      | assumption | apply State.udsDo_keeps | apply State.writeWhole_keeps
      | apply State.udsPositive_keeps | apply State.udsNegative_keeps | refine Keeps.ite ?_ ?_ | refine Keeps.ite_snd ?_ ?_
      | refine Keeps.ite_trd ?_ ?_ | refine fun y hy => ?_ | lift_lets
      | (intro y; refine Keeps.cut s y ?_ (fun hy => ?_); (on_goal 1 => subst y); (on_goal 2 => clear_value y)) | intro y | split
      | (refine Keeps.snd_of ?_ (by assumption)) | (refine Keeps.trd_of ?_ (by assumption))

theorem State.udsSecurity_keeps {s x : State} (a1 : Bool) (a2 : List Byte) (h : Keeps s x) : Keeps s (State.udsSecurity x a1 a2) := by
  unfold State.udsSecurity
  with_reducible
    repeat' first
      | assumption | apply State.udsDo_keeps | apply State.secKey_keeps | apply State.secSeed_keeps
      | apply State.udsPositive_keeps | apply State.udsNegative_keeps | refine Keeps.ite ?_ ?_ | refine Keeps.ite_snd ?_ ?_
      | refine Keeps.ite_trd ?_ ?_ | refine fun y hy => ?_ | lift_lets
      | (intro y; refine Keeps.cut s y ?_ (fun hy => ?_); (on_goal 1 => subst y); (on_goal 2 => clear_value y)) | intro y | split
      | (refine Keeps.snd_of ?_ (by assumption)) | (refine Keeps.trd_of ?_ (by assumption))

theorem State.routineMark_keeps {s x : State} (a1 : Nat) (h : Keeps s x) : Keeps s (State.routineMark x a1) := by
  unfold State.routineMark
  with_reducible
    repeat' first
      | assumption | apply State.modU_keeps

theorem State.moistureStart_keeps {s x : State} (a1 : Bool) (a2 : List Byte) (h : Keeps s x) : Keeps s (State.moistureStart x a1 a2) := by
  unfold State.moistureStart
  with_reducible
    repeat' first
      | assumption | apply State.routineMark_keeps | apply State.udsDo_keeps
      | apply State.udsPositive_keeps | apply State.modU_keeps | apply State.modL_keeps | refine Keeps.ite ?_ ?_ | refine fun y hy => ?_
      | lift_lets | (intro y; refine Keeps.cut s y ?_ (fun hy => ?_); (on_goal 1 => subst y); (on_goal 2 => clear_value y)) | intro y

theorem State.routineStart_keeps {s x : State} (a1 : Bool) (a2 : Nat) (a3 : List Byte) (h : Keeps s x) : Keeps s (State.routineStart x a1 a2 a3) := by
  unfold State.routineStart
  with_reducible
    repeat' first
      | assumption | apply State.moistureStart_keeps | apply State.routineMark_keeps
      | apply State.udsPositive_keeps | apply State.udsNegative_keeps | apply State.writeKey_keeps | refine Keeps.ite ?_ ?_
      | refine Keeps.ite_snd ?_ ?_ | refine Keeps.ite_trd ?_ ?_ | lift_lets
      | (intro y; refine Keeps.cut s y ?_ (fun hy => ?_); (on_goal 1 => subst y); (on_goal 2 => clear_value y)) | intro y | split
      | (refine Keeps.snd_of ?_ (by assumption)) | (refine Keeps.trd_of ?_ (by assumption))

theorem State.udsRoutine_keeps {s x : State} (a1 : Bool) (a2 : List Byte) (h : Keeps s x) : Keeps s (State.udsRoutine x a1 a2) := by
  unfold State.udsRoutine
  with_reducible
    repeat' first
      | assumption | apply State.routineStart_keeps | apply State.udsDo_keeps
      | apply State.udsPositive_keeps | refine Keeps.ite ?_ ?_ | refine fun y hy => ?_ | lift_lets
      | (intro y; refine Keeps.cut s y ?_ (fun hy => ?_); (on_goal 1 => subst y); (on_goal 2 => clear_value y)) | intro y

theorem State.udsRequestDownload_keeps {s x : State} (a1 : Bool) (a2 : List Byte) (h : Keeps s x) : Keeps s (State.udsRequestDownload x a1 a2) := by
  unfold State.udsRequestDownload
  with_reducible
    repeat' first
      | assumption | apply State.udsDo_keeps | apply State.udsPositive_keeps | apply State.modU_keeps
      | apply State.set_keeps | refine fun y hy => ?_ | lift_lets
      | (intro y; refine Keeps.cut s y ?_ (fun hy => ?_); (on_goal 1 => subst y); (on_goal 2 => clear_value y)) | intro y

theorem State.udsTransfer_keeps {s x : State} (a1 : Bool) (a2 : List Byte) (h : Keeps s x) : Keeps s (State.udsTransfer x a1 a2) := by
  unfold State.udsTransfer
  with_reducible
    repeat' first
      | assumption | apply State.udsDo_keeps | apply State.udsPositive_keeps | apply State.modU_keeps
      | refine Keeps.ite ?_ ?_ | refine fun y hy => ?_ | lift_lets
      | (intro y; refine Keeps.cut s y ?_ (fun hy => ?_); (on_goal 1 => subst y); (on_goal 2 => clear_value y)) | intro y

theorem State.udsStore_keeps {s x : State} (a1 : Bool) (a2 : List Byte) (h : Keeps s x) : Keeps s (State.udsStore x a1 a2) := by
  unfold State.udsStore
  with_reducible
    repeat' first
      | assumption | apply State.udsPositive_keeps | apply State.udsNegative_keeps
      | apply State.modU_keeps | apply State.storeImage_keeps | apply State.raise_keeps | apply State.set_keeps | refine Keeps.ite ?_ ?_
      | refine Keeps.ite_snd ?_ ?_ | refine Keeps.ite_trd ?_ ?_ | lift_lets
      | (intro y; refine Keeps.cut s y ?_ (fun hy => ?_); (on_goal 1 => subst y); (on_goal 2 => clear_value y)) | intro y | split
      | (refine Keeps.snd_of ?_ (by assumption)) | (refine Keeps.trd_of ?_ (by assumption))

theorem State.udsExit_keeps {s x : State} (a1 : Bool) (a2 : List Byte) (h : Keeps s x) : Keeps s (State.udsExit x a1 a2) := by
  unfold State.udsExit
  with_reducible
    repeat' first
      | assumption | apply State.udsStore_keeps | apply State.udsDo_keeps | refine fun y hy => ?_
      | lift_lets | (intro y; refine Keeps.cut s y ?_ (fun hy => ?_); (on_goal 1 => subst y); (on_goal 2 => clear_value y)) | intro y

theorem State.udsServe_keeps {s x : State} (a1 : Bool) (a2 : List Byte) (h : Keeps s x) : Keeps s (State.udsServe x a1 a2) := by
  unfold State.udsServe
  with_reducible
    repeat' first
      | assumption | apply State.udsExit_keeps | apply State.udsTransfer_keeps
      | apply State.udsRequestDownload_keeps | apply State.udsRoutine_keeps | apply State.udsSecurity_keeps | apply State.udsWrite_keeps
      | apply State.udsRead_keeps | apply State.udsDtc_keeps | apply State.udsClear_keeps | apply State.udsSetting_keeps
      | apply State.udsTester_keeps | apply State.udsReset_keeps | apply State.udsSession_keeps | apply State.udsNegative_keeps | split

theorem State.udsRx_keeps {s x : State} (a1 : State → State) (hf : ∀ y, Keeps s y → Keeps s (a1 y)) (h : Keeps s x) : Keeps s (State.udsRx x a1) := by
  unfold State.udsRx
  with_reducible
    repeat' first
      | assumption | apply State.canStat_keeps | apply hf | refine Keeps.ite ?_ ?_ | lift_lets
      | (intro y; refine Keeps.cut s y ?_ (fun hy => ?_); (on_goal 1 => subst y); (on_goal 2 => clear_value y)) | intro y

theorem State.udsSingle_keeps {s x : State} (a1 : Bool) (a2 : Bool) (a3 : List Byte) (h : Keeps s x) : Keeps s (State.udsSingle x a1 a2 a3) := by
  unfold State.udsSingle
  with_reducible
    repeat' first
      | assumption | apply State.udsRx_keeps | apply State.udsServe_keeps | apply State.modU_keeps
      | refine Keeps.ite ?_ ?_ | refine fun y hy => ?_

theorem State.flowControl_keeps {s x : State} (h : Keeps s x) : Keeps s (State.flowControl x) := by
  unfold State.flowControl
  with_reducible
    repeat' first
      | assumption | apply State.udsEmit_keeps | lift_lets
      | (intro y; refine Keeps.cut s y ?_ (fun hy => ?_); (on_goal 1 => subst y); (on_goal 2 => clear_value y)) | intro y

theorem execFirstFrame_keeps {s t : State} (a0 : Bool) (a1 : Bool) (a2 : Nat) (a3 : Bool) (a4 : List Byte) (h : execFirstFrame a0 a1 a2 a3 a4 s = .next t) : Keeps s t := by
  unfold execFirstFrame at h
  cases h
  have h := Keeps.refl s
  with_reducible
    repeat' first
      | assumption | apply State.flowControl_keeps | apply State.udsRx_keeps
      | apply State.udsEmit_keeps | apply State.modU_keeps | refine Keeps.ite ?_ ?_ | refine fun y hy => ?_ | lift_lets
      | (intro y; refine Keeps.cut s y ?_ (fun hy => ?_); (on_goal 1 => subst y); (on_goal 2 => clear_value y)) | intro y

theorem State.consecutive_keeps {s x : State} (a1 : Nat) (a2 : List Byte) (h : Keeps s x) : Keeps s (State.consecutive x a1 a2) := by
  unfold State.consecutive
  with_reducible
    repeat' first
      | assumption | apply State.flowControl_keeps | apply State.udsServe_keeps
      | apply State.modU_keeps | refine Keeps.ite ?_ ?_ | split | lift_lets
      | (intro y; refine Keeps.cut s y ?_ (fun hy => ?_); (on_goal 1 => subst y); (on_goal 2 => clear_value y)) | intro y

theorem execConsecutiveFrame_keeps {s t : State} (a0 : Nat) (a1 : List Byte) (h : execConsecutiveFrame a0 a1 s = .next t) : Keeps s t := by
  unfold execConsecutiveFrame at h
  cases h
  have h := Keeps.refl s
  with_reducible
    repeat' first
      | assumption | apply State.consecutive_keeps | apply State.udsRx_keeps | apply State.logged_keeps
      | refine fun y hy => ?_

theorem State.flowIn_keeps {s x : State} (a1 : Nat) (a2 : Nat) (a3 : Nat) (h : Keeps s x) : Keeps s (State.flowIn x a1 a2 a3) := by
  unfold State.flowIn
  with_reducible
    repeat' first
      | assumption | apply State.modU_keeps | refine Keeps.ite ?_ ?_ | split

theorem execFlowControl_keeps {s t : State} (a0 : Nat) (a1 : Nat) (a2 : Nat) (h : execFlowControl a0 a1 a2 s = .next t) : Keeps s t := by
  unfold execFlowControl at h
  cases h
  have h := Keeps.refl s
  with_reducible
    repeat' first
      | assumption | apply State.flowIn_keeps | apply State.udsRx_keeps | refine fun y hy => ?_

theorem execNBsTimeout_keeps {s t : State} (h : execNBsTimeout s = .next t) : Keeps s t := by
  unfold execNBsTimeout at h
  cases h
  have h := Keeps.refl s
  with_reducible
    repeat' first
      | assumption | apply State.modU_keeps | apply State.raise_keeps | refine Keeps.ite ?_ ?_

theorem execNCrTimeout_keeps {s t : State} (h : execNCrTimeout s = .next t) : Keeps s t := by
  unfold execNCrTimeout at h
  cases h
  have h := Keeps.refl s
  with_reducible
    repeat' first
      | assumption | apply State.modU_keeps | apply State.raise_keeps | refine Keeps.ite ?_ ?_

theorem State.udsCommand_keeps {s x : State} (a1 : Nat) (a2 : Bool) (a3 : Bool) (a4 : List Byte) (h : Keeps s x) : Keeps s (State.udsCommand x a1 a2 a3 a4) := by
  unfold State.udsCommand
  with_reducible
    repeat' first
      | assumption | apply State.udsSingle_keeps | refine Keeps.ite ?_ ?_

theorem execDiagnosticSessionControl_keeps {s t : State} (a0 : Bool) (a1 : Bool) (a2 : List Byte) (h : execDiagnosticSessionControl a0 a1 a2 s = .next t) : Keeps s t := by
  unfold execDiagnosticSessionControl at h
  cases h
  have h := Keeps.refl s
  with_reducible
    repeat' first
      | assumption | apply State.udsCommand_keeps | apply State.logged_keeps | refine fun y hy => ?_

theorem execEcuResetHard_keeps {s t : State} (a0 : Bool) (a1 : Bool) (a2 : List Byte) (h : execEcuResetHard a0 a1 a2 s = .next t) : Keeps s t := by
  unfold execEcuResetHard at h
  cases h
  have h := Keeps.refl s
  with_reducible
    repeat' first
      | assumption | apply State.udsCommand_keeps | apply State.logged_keeps | refine fun y hy => ?_

theorem execEcuResetSoft_keeps {s t : State} (a0 : Bool) (a1 : Bool) (a2 : List Byte) (h : execEcuResetSoft a0 a1 a2 s = .next t) : Keeps s t := by
  unfold execEcuResetSoft at h
  cases h
  have h := Keeps.refl s
  with_reducible
    repeat' first
      | assumption | apply State.udsCommand_keeps | apply State.logged_keeps | refine fun y hy => ?_

theorem execClearDiagnosticInformation_keeps {s t : State} (a0 : Bool) (a1 : Bool) (a2 : List Byte) (h : execClearDiagnosticInformation a0 a1 a2 s = .next t) : Keeps s t := by
  unfold execClearDiagnosticInformation at h
  cases h
  have h := Keeps.refl s
  with_reducible
    repeat' first
      | assumption | apply State.udsCommand_keeps | apply State.logged_keeps | refine fun y hy => ?_

theorem execReportNumberOfDtc_keeps {s t : State} (a0 : Bool) (a1 : Bool) (a2 : List Byte) (h : execReportNumberOfDtc a0 a1 a2 s = .next t) : Keeps s t := by
  unfold execReportNumberOfDtc at h
  cases h
  have h := Keeps.refl s
  with_reducible
    repeat' first
      | assumption | apply State.udsCommand_keeps | apply State.logged_keeps | refine fun y hy => ?_

theorem execReportDtcByStatus_keeps {s t : State} (a0 : Bool) (a1 : Bool) (a2 : List Byte) (h : execReportDtcByStatus a0 a1 a2 s = .next t) : Keeps s t := by
  unfold execReportDtcByStatus at h
  cases h
  have h := Keeps.refl s
  with_reducible
    repeat' first
      | assumption | apply State.udsCommand_keeps | apply State.logged_keeps | refine fun y hy => ?_

theorem execReportDtcSnapshot_keeps {s t : State} (a0 : Bool) (a1 : Bool) (a2 : List Byte) (h : execReportDtcSnapshot a0 a1 a2 s = .next t) : Keeps s t := by
  unfold execReportDtcSnapshot at h
  cases h
  have h := Keeps.refl s
  with_reducible
    repeat' first
      | assumption | apply State.udsCommand_keeps | apply State.logged_keeps | refine fun y hy => ?_

theorem execReportDtcExtendedData_keeps {s t : State} (a0 : Bool) (a1 : Bool) (a2 : List Byte) (h : execReportDtcExtendedData a0 a1 a2 s = .next t) : Keeps s t := by
  unfold execReportDtcExtendedData at h
  cases h
  have h := Keeps.refl s
  with_reducible
    repeat' first
      | assumption | apply State.udsCommand_keeps | apply State.logged_keeps | refine fun y hy => ?_

theorem execReportSupportedDtc_keeps {s t : State} (a0 : Bool) (a1 : Bool) (a2 : List Byte) (h : execReportSupportedDtc a0 a1 a2 s = .next t) : Keeps s t := by
  unfold execReportSupportedDtc at h
  cases h
  have h := Keeps.refl s
  with_reducible
    repeat' first
      | assumption | apply State.udsCommand_keeps | apply State.logged_keeps | refine fun y hy => ?_

theorem execReadDataByIdentifier_keeps {s t : State} (a0 : Bool) (a1 : Bool) (a2 : List Byte) (h : execReadDataByIdentifier a0 a1 a2 s = .next t) : Keeps s t := by
  unfold execReadDataByIdentifier at h
  cases h
  have h := Keeps.refl s
  with_reducible
    repeat' first
      | assumption | apply State.udsCommand_keeps | apply State.logged_keeps | refine fun y hy => ?_

theorem execWriteDataByIdentifier_keeps {s t : State} (a0 : Bool) (a1 : Bool) (a2 : List Byte) (h : execWriteDataByIdentifier a0 a1 a2 s = .next t) : Keeps s t := by
  unfold execWriteDataByIdentifier at h
  cases h
  have h := Keeps.refl s
  with_reducible
    repeat' first
      | assumption | apply State.udsCommand_keeps | apply State.logged_keeps | refine fun y hy => ?_

theorem execSecurityAccessSeed_keeps {s t : State} (a0 : Bool) (a1 : Bool) (a2 : List Byte) (h : execSecurityAccessSeed a0 a1 a2 s = .next t) : Keeps s t := by
  unfold execSecurityAccessSeed at h
  cases h
  have h := Keeps.refl s
  with_reducible
    repeat' first
      | assumption | apply State.udsCommand_keeps | apply State.logged_keeps | refine fun y hy => ?_

theorem execSecurityAccessKey_keeps {s t : State} (a0 : Bool) (a1 : Bool) (a2 : List Byte) (h : execSecurityAccessKey a0 a1 a2 s = .next t) : Keeps s t := by
  unfold execSecurityAccessKey at h
  cases h
  have h := Keeps.refl s
  with_reducible
    repeat' first
      | assumption | apply State.udsCommand_keeps | apply State.logged_keeps | refine fun y hy => ?_

theorem execRoutineSelfCalibration_keeps {s t : State} (a0 : Bool) (a1 : Bool) (a2 : List Byte) (h : execRoutineSelfCalibration a0 a1 a2 s = .next t) : Keeps s t := by
  unfold execRoutineSelfCalibration at h
  cases h
  have h := Keeps.refl s
  with_reducible
    repeat' first
      | assumption | apply State.udsCommand_keeps | apply State.logged_keeps | refine fun y hy => ?_

theorem execRoutineHorizonEpoch_keeps {s t : State} (a0 : Bool) (a1 : Bool) (a2 : List Byte) (h : execRoutineHorizonEpoch a0 a1 a2 s = .next t) : Keeps s t := by
  unfold execRoutineHorizonEpoch at h
  cases h
  have h := Keeps.refl s
  with_reducible
    repeat' first
      | assumption | apply State.udsCommand_keeps | apply State.logged_keeps | refine fun y hy => ?_

theorem execRoutineMoistureTest_keeps {s t : State} (a0 : Bool) (a1 : Bool) (a2 : List Byte) (h : execRoutineMoistureTest a0 a1 a2 s = .next t) : Keeps s t := by
  unfold execRoutineMoistureTest at h
  cases h
  have h := Keeps.refl s
  with_reducible
    repeat' first
      | assumption | apply State.udsCommand_keeps | apply State.logged_keeps | refine fun y hy => ?_

theorem execRoutineTableSwitch_keeps {s t : State} (a0 : Bool) (a1 : Bool) (a2 : List Byte) (h : execRoutineTableSwitch a0 a1 a2 s = .next t) : Keeps s t := by
  unfold execRoutineTableSwitch at h
  cases h
  have h := Keeps.refl s
  with_reducible
    repeat' first
      | assumption | apply State.udsCommand_keeps | apply State.logged_keeps | refine fun y hy => ?_

theorem execRequestRoutineResults_keeps {s t : State} (a0 : Bool) (a1 : Bool) (a2 : List Byte) (h : execRequestRoutineResults a0 a1 a2 s = .next t) : Keeps s t := by
  unfold execRequestRoutineResults at h
  cases h
  have h := Keeps.refl s
  with_reducible
    repeat' first
      | assumption | apply State.udsCommand_keeps | apply State.logged_keeps | refine fun y hy => ?_

theorem execRequestDownload_keeps {s t : State} (a0 : Bool) (a1 : Bool) (a2 : List Byte) (h : execRequestDownload a0 a1 a2 s = .next t) : Keeps s t := by
  unfold execRequestDownload at h
  cases h
  have h := Keeps.refl s
  with_reducible
    repeat' first
      | assumption | apply State.udsCommand_keeps | apply State.logged_keeps | refine fun y hy => ?_

theorem execTransferData_keeps {s t : State} (a0 : Bool) (a1 : Bool) (a2 : List Byte) (h : execTransferData a0 a1 a2 s = .next t) : Keeps s t := by
  unfold execTransferData at h
  cases h
  have h := Keeps.refl s
  with_reducible
    repeat' first
      | assumption | apply State.udsCommand_keeps | apply State.logged_keeps | refine fun y hy => ?_

theorem execRequestTransferExit_keeps {s t : State} (a0 : Bool) (a1 : Bool) (a2 : List Byte) (h : execRequestTransferExit a0 a1 a2 s = .next t) : Keeps s t := by
  unfold execRequestTransferExit at h
  cases h
  have h := Keeps.refl s
  with_reducible
    repeat' first
      | assumption | apply State.udsCommand_keeps | apply State.logged_keeps | refine fun y hy => ?_

theorem execTesterPresent_keeps {s t : State} (a0 : Bool) (a1 : Bool) (a2 : List Byte) (h : execTesterPresent a0 a1 a2 s = .next t) : Keeps s t := by
  unfold execTesterPresent at h
  cases h
  have h := Keeps.refl s
  with_reducible
    repeat' first
      | assumption | apply State.udsCommand_keeps | apply State.logged_keeps | refine fun y hy => ?_

theorem execControlDtcSettingOn_keeps {s t : State} (a0 : Bool) (a1 : Bool) (a2 : List Byte) (h : execControlDtcSettingOn a0 a1 a2 s = .next t) : Keeps s t := by
  unfold execControlDtcSettingOn at h
  cases h
  have h := Keeps.refl s
  with_reducible
    repeat' first
      | assumption | apply State.udsCommand_keeps | apply State.logged_keeps | refine fun y hy => ?_

theorem execControlDtcSettingOff_keeps {s t : State} (a0 : Bool) (a1 : Bool) (a2 : List Byte) (h : execControlDtcSettingOff a0 a1 a2 s = .next t) : Keeps s t := by
  unfold execControlDtcSettingOff at h
  cases h
  have h := Keeps.refl s
  with_reducible
    repeat' first
      | assumption | apply State.udsCommand_keeps | apply State.logged_keeps | refine fun y hy => ?_

theorem execSecurityDelayEnd_keeps {s t : State} (h : execSecurityDelayEnd s = .next t) : Keeps s t := by
  unfold execSecurityDelayEnd at h
  cases h
  have h := Keeps.refl s
  with_reducible
    repeat' first
      | assumption | apply State.set_keeps | refine Keeps.ite ?_ ?_

theorem execResponsePending_keeps {s t : State} (h : execResponsePending s = .next t) : Keeps s t := by
  unfold execResponsePending at h
  cases h
  have h := Keeps.refl s
  with_reducible
    repeat' first
      | assumption | apply State.udsEmit_keeps | refine Keeps.ite ?_ ?_ | split

theorem execS3ServerTimeout_keeps {s t : State} (h : execS3ServerTimeout s = .next t) : Keeps s t := by
  unfold execS3ServerTimeout at h
  cases h
  have h := Keeps.refl s
  with_reducible
    repeat' first
      | assumption | apply State.resolve_keeps | apply State.sessionDefault_keeps
      | apply State.logged_keeps | apply State.raise_keeps | refine Keeps.ite ?_ ?_ | refine fun y hy => ?_

end Sys2Proof.Machine
end

