-- ==== Sys2Proof/Laws/KeepsFabric.lean ====
section
/-!
SUPPORT. KeepsFabric.lean: every operation of Machine/Fabric.lean keeps what Keeps names.
-/
set_option linter.unusedTactic false
set_option linter.unreachableTactic false
set_option linter.unusedVariables false
namespace Sys2Proof.Machine

theorem State.clkLock_keeps {s x : State} (a1 : Port) (h : Keeps s x) : Keeps s (State.clkLock x a1) := by
  unfold State.clkLock
  with_reducible
    repeat' first
      | assumption | apply State.set_keeps | refine Keeps.ite ?_ ?_ | lift_lets
      | (intro y; refine Keeps.cut s y ?_ (fun hy => ?_); (on_goal 1 => subst y); (on_goal 2 => clear_value y)) | intro y
      | exact Keeps.mk_of (by assumption) id id id id (fun _ => id)
      | refine Keeps.mk_of ?_ (by first | exact id | exact Store.wf_write _ _) id id id (fun _ => id)

theorem execReceiverLock_keeps {s t : State} (a0 : Port) (h : execReceiverLock a0 s = .next t) : Keeps s t := by
  unfold execReceiverLock at h
  cases h
  have h := Keeps.refl s
  with_reducible
    repeat' first
      | assumption | apply State.clkLock_keeps | apply State.modFab_keeps | apply State.set_keeps
      | refine Keeps.ite ?_ ?_ | lift_lets
      | (intro y; refine Keeps.cut s y ?_ (fun hy => ?_); (on_goal 1 => subst y); (on_goal 2 => clear_value y)) | intro y

theorem execReceiverLockLost_keeps {s t : State} (a0 : Port) (h : execReceiverLockLost a0 s = .next t) : Keeps s t := by
  unfold execReceiverLockLost at h
  cases h
  have h := Keeps.refl s
  with_reducible
    repeat' first
      | assumption | apply State.portDown_keeps | refine Keeps.ite ?_ ?_

theorem execHelloSend_keeps {s t : State} (a0 : Port) (a1 : Nat) (h : execHelloSend a0 a1 s = .next t) : Keeps s t := by
  unfold execHelloSend at h
  cases h
  have h := Keeps.refl s
  with_reducible
    repeat' first
      | assumption | apply State.fabLocal_keeps | refine Keeps.ite ?_ ?_

theorem State.hopDelay_keeps {s x : State} (a1 : Port) (a2 : List Byte) (a3 : Nat) (h : Keeps s x) : Keeps s (State.hopDelay x a1 a2 a3) := by
  unfold State.hopDelay
  with_reducible
    repeat' first
      | assumption | apply State.modFab_keeps | apply State.set_keeps | refine Keeps.ite ?_ ?_
      | lift_lets | (intro y; refine Keeps.cut s y ?_ (fun hy => ?_); (on_goal 1 => subst y); (on_goal 2 => clear_value y)) | intro y

theorem State.miswire_keeps {s x : State} (a1 : Port) (h : Keeps s x) : Keeps s (State.miswire x a1) := by
  unfold State.miswire
  with_reducible
    repeat' first
      | assumption | apply State.portChange_keeps | apply State.assignCut_keeps
      | apply State.modFab_keeps | apply State.raiseC_keeps | apply State.set_keeps | refine Keeps.ite ?_ ?_ | lift_lets
      | (intro y; refine Keeps.cut s y ?_ (fun hy => ?_); (on_goal 1 => subst y); (on_goal 2 => clear_value y)) | intro y

theorem State.helloState_keeps {s x : State} (a1 : Port) (a2 : List Byte) (h : Keeps s x) : Keeps s (State.helloState x a1 a2) := by
  unfold State.helloState
  with_reducible
    repeat' first
      | assumption | apply State.miswire_keeps | apply State.portChange_keeps | refine Keeps.ite ?_ ?_
      | lift_lets | (intro y; refine Keeps.cut s y ?_ (fun hy => ?_); (on_goal 1 => subst y); (on_goal 2 => clear_value y)) | intro y

theorem State.hello_keeps {s x : State} (a1 : Port) (a2 : List Byte) (a3 : Nat) (h : Keeps s x) : Keeps s (State.hello x a1 a2 a3) := by
  unfold State.hello
  with_reducible
    repeat' first
      | assumption | apply State.helloState_keeps | apply State.hopDelay_keeps
      | apply State.fabBad_keeps | apply State.fabTake_keeps | apply State.modFab_keeps | refine Keeps.ite ?_ ?_
      | refine Keeps.ite_snd ?_ ?_ | refine Keeps.ite_trd ?_ ?_ | lift_lets
      | (intro y; refine Keeps.cut s y ?_ (fun hy => ?_); (on_goal 1 => subst y); (on_goal 2 => clear_value y)) | intro y | split
      | (refine Keeps.snd_of ?_ (by assumption)) | (refine Keeps.trd_of ?_ (by assumption))

theorem execHello_keeps {s t : State} (a0 : Port) (a1 : List Byte) (a2 : Nat) (h : execHello a0 a1 a2 s = .next t) : Keeps s t := by
  unfold execHello at h
  cases h
  have h := Keeps.refl s
  with_reducible
    repeat' first
      | assumption | apply State.hello_keeps

theorem execHelloTimeout_keeps {s t : State} (a0 : Port) (h : execHelloTimeout a0 s = .next t) : Keeps s t := by
  unfold execHelloTimeout at h
  cases h
  have h := Keeps.refl s
  with_reducible
    repeat' first
      | assumption | apply State.portDown_keeps | refine Keeps.ite ?_ ?_

theorem State.topoHold_keeps {s x : State} (a1 : TopoRec) (h : Keeps s x) : Keeps s (State.topoHold x a1) := by
  unfold State.topoHold
  with_reducible
    repeat' first
      | assumption | apply State.assignCut_keeps | apply State.routesMove_keeps
      | apply State.unsettle_keeps | refine Keeps.ite ?_ ?_ | lift_lets
      | (intro y; refine Keeps.cut s y ?_ (fun hy => ?_); (on_goal 1 => subst y); (on_goal 2 => clear_value y)) | intro y
      | exact Keeps.mk_of (by assumption) id id id id (fun _ => id)
      | refine Keeps.mk_of ?_ (by first | exact id | exact Store.wf_write _ _) id id id (fun _ => id)

theorem State.topo_keeps {s x : State} (a1 : Port) (a2 : Frame) (h : Keeps s x) : Keeps s (State.topo x a1 a2) := by
  unfold State.topo
  with_reducible
    repeat' first
      | assumption | apply State.topoHold_keeps | apply State.hopsOk_keeps | apply State.fabBad_keeps
      | apply State.fabTake_keeps | apply State.fabOut_keeps | refine Keeps.ite ?_ ?_ | refine Keeps.ite_snd ?_ ?_
      | refine Keeps.ite_trd ?_ ?_ | refine fun y hy => ?_ | lift_lets
      | (intro y; refine Keeps.cut s y ?_ (fun hy => ?_); (on_goal 1 => subst y); (on_goal 2 => clear_value y)) | intro y | split
      | (refine Keeps.snd_of ?_ (by assumption)) | (refine Keeps.trd_of ?_ (by assumption))

theorem execTopo_keeps {s t : State} (a0 : Port) (a1 : Nat) (a2 : Nat) (a3 : Nat) (a4 : List Byte) (h : execTopo a0 a1 a2 a3 a4 s = .next t) : Keeps s t := by
  unfold execTopo at h
  cases h
  have h := Keeps.refl s
  with_reducible
    repeat' first
      | assumption | apply State.topo_keeps

theorem execTopoSend_keeps {s t : State} (h : execTopoSend s = .next t) : Keeps s t := by
  unfold execTopoSend at h
  cases h
  have h := Keeps.refl s
  with_reducible
    repeat' first
      | assumption | apply State.topoSend_keeps

theorem execTopoRecordExpiry_keeps {s t : State} (a0 : Nat) (h : execTopoRecordExpiry a0 s = .next t) : Keeps s t := by
  unfold execTopoRecordExpiry at h
  cases h
  have h := Keeps.refl s
  with_reducible
    repeat' first
      | assumption | apply State.routesMove_keeps | apply State.unsettle_keeps | refine Keeps.ite ?_ ?_
      | lift_lets | (intro y; refine Keeps.cut s y ?_ (fun hy => ?_); (on_goal 1 => subst y); (on_goal 2 => clear_value y)) | intro y
      | exact Keeps.mk_of (by assumption) id id id id (fun _ => id)
      | refine Keeps.mk_of ?_ (by first | exact id | exact Store.wf_write _ _) id id id (fun _ => id)

theorem execFabricSettled_keeps {s t : State} (h : execFabricSettled s = .next t) : Keeps s t := by
  unfold execFabricSettled at h
  cases h
  have h := Keeps.refl s
  with_reducible
    repeat' first
      | assumption | apply State.bootKick_keeps | apply State.settle_keeps
      | apply State.clkFollow_keeps | refine Keeps.ite ?_ ?_

theorem State.assignList_keeps {s x : State} (a1 : List Byte) (h : Keeps s x) : Keeps s (State.assignList x a1) := by
  unfold State.assignList
  with_reducible
    repeat' first
      | assumption | refine Keeps.ite ?_ ?_ | lift_lets
      | (intro y; refine Keeps.cut s y ?_ (fun hy => ?_); (on_goal 1 => subst y); (on_goal 2 => clear_value y)) | intro y
      | exact Keeps.mk_of (by assumption) id id id id (fun _ => id)
      | refine Keeps.mk_of ?_ (by first | exact id | exact Store.wf_write _ _) id id id (fun _ => id)

theorem State.assignTake_keeps {s x : State} (a1 : Nat) (a2 : List Byte) (h : Keeps s x) : Keeps s (State.assignTake x a1 a2) := by
  unfold State.assignTake
  with_reducible
    repeat' first
      | assumption | apply State.assignList_keeps | apply State.bootKick_keeps
      | apply State.adopt_keeps | apply State.zenithObjs_keeps | refine Keeps.ite ?_ ?_ | lift_lets
      | (intro y; refine Keeps.cut s y ?_ (fun hy => ?_); (on_goal 1 => subst y); (on_goal 2 => clear_value y)) | intro y | split

theorem State.assignRx_keeps {s x : State} (a1 : Port) (a2 : Frame) (h : Keeps s x) : Keeps s (State.assignRx x a1 a2) := by
  unfold State.assignRx
  with_reducible
    repeat' first
      | assumption | apply State.assignTake_keeps | apply State.fabOnward_keeps
      | apply State.fabBad_keeps | apply State.fabTake_keeps | refine Keeps.ite ?_ ?_ | refine Keeps.ite_snd ?_ ?_
      | refine Keeps.ite_trd ?_ ?_ | lift_lets
      | (intro y; refine Keeps.cut s y ?_ (fun hy => ?_); (on_goal 1 => subst y); (on_goal 2 => clear_value y)) | intro y | split
      | (refine Keeps.snd_of ?_ (by assumption)) | (refine Keeps.trd_of ?_ (by assumption))

theorem execAssign_keeps {s t : State} (a0 : Port) (a1 : Nat) (a2 : Nat) (a3 : Nat) (a4 : List Byte) (h : execAssign a0 a1 a2 a3 a4 s = .next t) : Keeps s t := by
  unfold execAssign at h
  cases h
  have h := Keeps.refl s
  with_reducible
    repeat' first
      | assumption | apply State.assignRx_keeps

theorem execAssignRepeat_keeps {s t : State} (h : execAssignRepeat s = .next t) : Keeps s t := by
  unfold execAssignRepeat at h
  cases h
  have h := Keeps.refl s
  with_reducible
    repeat' first
      | assumption | apply State.assignSend_keeps | refine Keeps.ite ?_ ?_

theorem execNodeIdSetWrite_keeps {s t : State} (a0 : Master) (a1 : Nat) (h : execNodeIdSetWrite a0 a1 s = .next t) : Keeps s t := by
  unfold execNodeIdSetWrite at h
  cases h
  have h := Keeps.refl s
  with_reducible
    repeat' first
      | assumption | apply State.asked_keeps | apply State.writeKey_keeps | apply State.logged_keeps
      | refine fun y hy => ?_ | split | (refine Keeps.snd_of ?_ (by assumption)) | (refine Keeps.trd_of ?_ (by assumption))

theorem State.forward_keeps {s x : State} (a1 : Port) (a2 : Frame) (h : Keeps s x) : Keeps s (State.forward x a1 a2) := by
  unfold State.forward
  with_reducible
    repeat' first
      | assumption | apply State.fabOnward_keeps | apply State.hopsOk_keeps | apply State.fabBad_keeps
      | apply State.fabTake_keeps | apply State.fabRoute_keeps | refine Keeps.ite ?_ ?_ | refine Keeps.ite_snd ?_ ?_
      | refine Keeps.ite_trd ?_ ?_ | refine fun y hy => ?_ | lift_lets
      | (intro y; refine Keeps.cut s y ?_ (fun hy => ?_); (on_goal 1 => subst y); (on_goal 2 => clear_value y)) | intro y | split
      | (refine Keeps.snd_of ?_ (by assumption)) | (refine Keeps.trd_of ?_ (by assumption))

theorem State.frameIn_keeps {s x : State} (a1 : Port) (a2 : List Byte) (a3 : Bool) (h : Keeps s x) : Keeps s (State.frameIn x a1 a2 a3) := by
  unfold State.frameIn
  with_reducible
    repeat' first
      | assumption | apply State.forward_keeps | apply State.fabBad_keeps | refine Keeps.ite ?_ ?_
      | split

theorem execFrameForward_keeps {s t : State} (a0 : Port) (a1 : List Byte) (a2 : Bool) (h : execFrameForward a0 a1 a2 s = .next t) : Keeps s t := by
  unfold execFrameForward at h
  cases h
  have h := Keeps.refl s
  with_reducible
    repeat' first
      | assumption | apply State.frameIn_keeps

theorem State.fabAnswer_keeps {s x : State} (a1 : Nat) (a2 : Nat) (a3 : Frame) (h : Keeps s x) : Keeps s (State.fabAnswer x a1 a2 a3) := by
  unfold State.fabAnswer
  with_reducible
    repeat' first
      | assumption | apply State.fabRoute_keeps | apply State.fabSeq_keeps | lift_lets
      | (intro y; refine Keeps.cut s y ?_ (fun hy => ?_); (on_goal 1 => subst y); (on_goal 2 => clear_value y)) | intro y | split
      | (refine Keeps.snd_of ?_ (by assumption)) | (refine Keeps.trd_of ?_ (by assumption))
      | exact Keeps.mk_of (by assumption) id id id id (fun _ => id)
      | refine Keeps.mk_of ?_ (by first | exact id | exact Store.wf_write _ _) id id id (fun _ => id)

theorem State.fabBusy_keeps {s x : State} (a1 : Nat) (a2 : Nat) (a3 : Nat) (a4 : List Byte) (h : Keeps s x) : Keeps s (State.fabBusy x a1 a2 a3 a4) := by
  unfold State.fabBusy
  with_reducible
    repeat' first
      | assumption | apply State.fabSend_keeps | refine Keeps.ite ?_ ?_

theorem State.fabRequest_keeps {s x : State} (a1 : Port) (a2 : Nat) (a3 : Nat) (a4 : Nat) (a5 : List Byte) (a6 : State → State) (hf : ∀ y, Keeps s y → Keeps s (a6 y)) (h : Keeps s x) : Keeps s (State.fabRequest x a1 a2 a3 a4 a5 a6) := by
  unfold State.fabRequest
  with_reducible
    repeat' first
      | assumption | apply State.fabBusy_keeps | apply State.fabTake_keeps | apply State.fabRoute_keeps
      | apply hf | refine Keeps.ite ?_ ?_ | refine Keeps.ite_snd ?_ ?_ | refine Keeps.ite_trd ?_ ?_ | lift_lets
      | (intro y; refine Keeps.cut s y ?_ (fun hy => ?_); (on_goal 1 => subst y); (on_goal 2 => clear_value y)) | intro y | split
      | (refine Keeps.snd_of ?_ (by assumption)) | (refine Keeps.trd_of ?_ (by assumption))

theorem State.readRsp_keeps {s x : State} (a1 : Nat) (a2 : Nat) (a3 : List Byte) (a4 : Nat) (a5 : Nat) (a6 : Nat) (a7 : List Byte) (h : Keeps s x) : Keeps s (State.readRsp x a1 a2 a3 a4 a5 a6 a7) := by
  unfold State.readRsp
  with_reducible
    repeat' first
      | assumption | apply State.fabAnswer_keeps

theorem State.fabRead_keeps {s x : State} (a1 : Nat) (a2 : Nat) (a3 : List Byte) (h : Keeps s x) : Keeps s (State.fabRead x a1 a2 a3) := by
  unfold State.fabRead
  with_reducible
    repeat' first
      | assumption | apply State.readRsp_keeps | apply State.readSegment_keeps | refine Keeps.ite ?_ ?_
      | refine Keeps.ite_snd ?_ ?_ | refine Keeps.ite_trd ?_ ?_ | lift_lets
      | (intro y; refine Keeps.cut s y ?_ (fun hy => ?_); (on_goal 1 => subst y); (on_goal 2 => clear_value y)) | intro y | split
      | (refine Keeps.snd_of ?_ (by assumption)) | (refine Keeps.trd_of ?_ (by assumption))

theorem execReadReq_keeps {s t : State} (a0 : Port) (a1 : Nat) (a2 : Nat) (a3 : List Byte) (h : execReadReq a0 a1 a2 a3 s = .next t) : Keeps s t := by
  unfold execReadReq at h
  cases h
  have h := Keeps.refl s
  with_reducible
    repeat' first
      | assumption | apply State.fabRead_keeps | apply State.fabRequest_keeps | refine fun y hy => ?_

theorem State.fabWrite_keeps {s x : State} (a1 : Nat) (a2 : List Byte) (h : Keeps s x) : Keeps s (State.fabWrite x a1 a2).2 := by
  unfold State.fabWrite
  with_reducible
    repeat' first
      | assumption | apply State.writeWhole_keeps | refine Keeps.ite ?_ ?_ | refine Keeps.ite_snd ?_ ?_
      | refine Keeps.ite_trd ?_ ?_ | split | (refine Keeps.snd_of ?_ (by assumption)) | (refine Keeps.trd_of ?_ (by assumption))

theorem State.writeRsp_keeps {s x : State} (a1 : Nat) (a2 : Nat) (a3 : List Byte) (a4 : Nat) (h : Keeps s x) : Keeps s (State.writeRsp x a1 a2 a3 a4) := by
  unfold State.writeRsp
  with_reducible
    repeat' first
      | assumption | apply State.fabAnswer_keeps

theorem State.writeAll_keeps {s x : State} (a1 : Port) (a2 : Frame) (h : Keeps s x) : Keeps s (State.writeAll x a1 a2) := by
  unfold State.writeAll
  with_reducible
    repeat' first
      | assumption | apply State.fabWrite_keeps | apply State.fabOnward_keeps
      | apply State.fabTake_keeps | refine Keeps.ite ?_ ?_ | refine Keeps.ite_snd ?_ ?_ | refine Keeps.ite_trd ?_ ?_ | lift_lets
      | (intro y; refine Keeps.cut s y ?_ (fun hy => ?_); (on_goal 1 => subst y); (on_goal 2 => clear_value y)) | intro y | split
      | (refine Keeps.snd_of ?_ (by assumption)) | (refine Keeps.trd_of ?_ (by assumption))

theorem execWriteReq_keeps {s t : State} (a0 : Port) (a1 : Nat) (a2 : Nat) (a3 : Nat) (a4 : Nat) (a5 : Bool) (a6 : List Byte) (h : execWriteReq a0 a1 a2 a3 a4 a5 a6 s = .next t) : Keeps s t := by
  unfold execWriteReq at h
  cases h
  have h := Keeps.refl s
  with_reducible
    repeat' first
      | assumption | apply State.writeAll_keeps | apply State.writeRsp_keeps
      | apply State.fabWrite_keeps | apply State.fabRequest_keeps | apply State.logged_keeps | refine Keeps.ite ?_ ?_
      | refine Keeps.ite_snd ?_ ?_ | refine Keeps.ite_trd ?_ ?_ | refine fun y hy => ?_ | lift_lets
      | (intro y; refine Keeps.cut s y ?_ (fun hy => ?_); (on_goal 1 => subst y); (on_goal 2 => clear_value y)) | intro y | split
      | (refine Keeps.snd_of ?_ (by assumption)) | (refine Keeps.trd_of ?_ (by assumption))

theorem State.fabReqDrop_keeps {s x : State} (a1 : Nat) (h : Keeps s x) : Keeps s (State.fabReqDrop x a1) := by
  unfold State.fabReqDrop
  with_reducible
    repeat' first
      | assumption | lift_lets
      | (intro y; refine Keeps.cut s y ?_ (fun hy => ?_); (on_goal 1 => subst y); (on_goal 2 => clear_value y)) | intro y
      | exact Keeps.mk_of (by assumption) id id id id (fun _ => id)
      | refine Keeps.mk_of ?_ (by first | exact id | exact Store.wf_write _ _) id id id (fun _ => id)

theorem State.fabReqEnd_keeps {s x : State} (a1 : FabReq) (a2 : Bool) (h : Keeps s x) : Keeps s (State.fabReqEnd x a1 a2) := by
  unfold State.fabReqEnd
  with_reducible
    repeat' first
      | assumption | apply State.fabReqDrop_keeps | apply State.seqRefused_keeps
      | refine Keeps.ite ?_ ?_ | lift_lets
      | (intro y; refine Keeps.cut s y ?_ (fun hy => ?_); (on_goal 1 => subst y); (on_goal 2 => clear_value y)) | intro y | split

theorem execFabricResponse_keeps {s t : State} (a0 : Port) (a1 : Nat) (a2 : Nat) (a3 : List Byte) (h : execFabricResponse a0 a1 a2 a3 s = .next t) : Keeps s t := by
  unfold execFabricResponse at h
  cases h
  have h := Keeps.refl s
  with_reducible
    repeat' first
      | assumption | apply State.fabReqEnd_keeps | apply State.fabTake_keeps | refine Keeps.ite ?_ ?_
      | refine Keeps.ite_snd ?_ ?_ | refine Keeps.ite_trd ?_ ?_ | lift_lets
      | (intro y; refine Keeps.cut s y ?_ (fun hy => ?_); (on_goal 1 => subst y); (on_goal 2 => clear_value y)) | intro y | split
      | (refine Keeps.snd_of ?_ (by assumption)) | (refine Keeps.trd_of ?_ (by assumption))

theorem execFabricRequestTimeout_keeps {s t : State} (a0 : Nat) (h : execFabricRequestTimeout a0 s = .next t) : Keeps s t := by
  unfold execFabricRequestTimeout at h
  cases h
  have h := Keeps.refl s
  with_reducible
    repeat' first
      | assumption | apply State.fabReqEnd_keeps | apply State.fabSend_keeps | refine Keeps.ite ?_ ?_
      | lift_lets | (intro y; refine Keeps.cut s y ?_ (fun hy => ?_); (on_goal 1 => subst y); (on_goal 2 => clear_value y)) | intro y
      | split | exact Keeps.mk_of (by assumption) id id id id (fun _ => id)
      | refine Keeps.mk_of ?_ (by first | exact id | exact Store.wf_write _ _) id id id (fun _ => id)

theorem execNotifySend_keeps {s t : State} (h : execNotifySend s = .next t) : Keeps s t := by
  unfold execNotifySend at h
  cases h
  have h := Keeps.refl s
  with_reducible
    repeat' first
      | assumption | apply State.fabBroadcast_keeps | refine Keeps.ite ?_ ?_ | lift_lets
      | (intro y; refine Keeps.cut s y ?_ (fun hy => ?_); (on_goal 1 => subst y); (on_goal 2 => clear_value y)) | intro y

theorem State.bootAnswer_keeps {s x : State} (a1 : Nat) (a2 : List Byte) (h : Keeps s x) : Keeps s (State.bootAnswer x a1 a2) := by
  unfold State.bootAnswer
  with_reducible
    repeat' first
      | assumption | apply State.fabSend_keeps | refine Keeps.ite ?_ ?_ | lift_lets
      | (intro y; refine Keeps.cut s y ?_ (fun hy => ?_); (on_goal 1 => subst y); (on_goal 2 => clear_value y)) | intro y

theorem execBootReq_keeps {s t : State} (a0 : Port) (a1 : Nat) (a2 : List Byte) (h : execBootReq a0 a1 a2 s = .next t) : Keeps s t := by
  unfold execBootReq at h
  cases h
  have h := Keeps.refl s
  with_reducible
    repeat' first
      | assumption | apply State.bootAnswer_keeps | apply State.fabTake_keeps | refine Keeps.ite ?_ ?_
      | refine Keeps.ite_snd ?_ ?_ | refine Keeps.ite_trd ?_ ?_ | lift_lets
      | (intro y; refine Keeps.cut s y ?_ (fun hy => ?_); (on_goal 1 => subst y); (on_goal 2 => clear_value y)) | intro y | split
      | (refine Keeps.snd_of ?_ (by assumption)) | (refine Keeps.trd_of ?_ (by assumption))

theorem State.bootImage_keeps {s x : State} (a1 : Nat) (h : Keeps s x) : Keeps s (State.bootImage x a1) := by
  unfold State.bootImage
  with_reducible
    repeat' first
      | assumption | apply State.bootNext_keeps | apply State.storeImage_keeps | split
      | (refine Keeps.snd_of ?_ (by assumption)) | (refine Keeps.trd_of ?_ (by assumption))

theorem State.bootTake_keeps {s x : State} (a1 : Nat) (a2 : List Byte) (h : Keeps s x) : Keeps s (State.bootTake x a1 a2) := by
  unfold State.bootTake
  with_reducible
    repeat' first
      | assumption | apply State.bootImage_keeps | apply State.bootNext_keeps
      | apply State.bootAsk_keeps | refine Keeps.ite ?_ ?_ | lift_lets
      | (intro y; refine Keeps.cut s y ?_ (fun hy => ?_); (on_goal 1 => subst y); (on_goal 2 => clear_value y)) | intro y | split
      | exact Keeps.mk_of (by assumption) id id id id (fun _ => id)
      | refine Keeps.mk_of ?_ (by first | exact id | exact Store.wf_write _ _) id id id (fun _ => id)

theorem execBootData_keeps {s t : State} (a0 : Port) (a1 : Nat) (a2 : List Byte) (h : execBootData a0 a1 a2 s = .next t) : Keeps s t := by
  unfold execBootData at h
  cases h
  have h := Keeps.refl s
  with_reducible
    repeat' first
      | assumption | apply State.bootTake_keeps | apply State.fabTake_keeps | refine Keeps.ite ?_ ?_
      | refine Keeps.ite_snd ?_ ?_ | refine Keeps.ite_trd ?_ ?_ | lift_lets
      | (intro y; refine Keeps.cut s y ?_ (fun hy => ?_); (on_goal 1 => subst y); (on_goal 2 => clear_value y)) | intro y | split
      | (refine Keeps.snd_of ?_ (by assumption)) | (refine Keeps.trd_of ?_ (by assumption))

theorem execFabricBootFail_keeps {s t : State} (h : execFabricBootFail s = .next t) : Keeps s t := by
  unfold execFabricBootFail at h
  cases h
  have h := Keeps.refl s
  with_reducible
    repeat' first
      | assumption | apply State.loadBanks_keeps | apply State.raise_keeps | refine Keeps.ite ?_ ?_
      | lift_lets | (intro y; refine Keeps.cut s y ?_ (fun hy => ?_); (on_goal 1 => subst y); (on_goal 2 => clear_value y)) | intro y
      | split | exact Keeps.mk_of (by assumption) id id id id (fun _ => id)
      | refine Keeps.mk_of ?_ (by first | exact id | exact Store.wf_write _ _) id id id (fun _ => id)

theorem execMarkerEmit_keeps {s t : State} (a0 : Nat) (a1 : Nat) (h : execMarkerEmit a0 a1 s = .next t) : Keeps s t := by
  unfold execMarkerEmit at h
  cases h
  have h := Keeps.refl s
  with_reducible
    repeat' first
      | assumption | apply State.modFab_keeps | refine Keeps.ite ?_ ?_ | lift_lets
      | (intro y; refine Keeps.cut s y ?_ (fun hy => ?_); (on_goal 1 => subst y); (on_goal 2 => clear_value y)) | intro y
      | exact Keeps.mk_of (by assumption) id id id id (fun _ => id)
      | refine Keeps.mk_of ?_ (by first | exact id | exact Store.wf_write _ _) id id id (fun _ => id)

theorem State.markerTake_keeps {s x : State} (a1 : Port) (a2 : Nat) (a3 : Nat) (a4 : Nat) (h : Keeps s x) : Keeps s (State.markerTake x a1 a2 a3 a4) := by
  unfold State.markerTake
  with_reducible
    repeat' first
      | assumption | apply State.setI_keeps | apply State.set_keeps | refine Keeps.ite ?_ ?_
      | lift_lets | (intro y; refine Keeps.cut s y ?_ (fun hy => ?_); (on_goal 1 => subst y); (on_goal 2 => clear_value y)) | intro y
      | split | exact Keeps.mk_of (by assumption) id id id id (fun _ => id)
      | refine Keeps.mk_of ?_ (by first | exact id | exact Store.wf_write _ _) id id id (fun _ => id)

theorem State.marker_keeps {s x : State} (a1 : Port) (a2 : Nat) (a3 : Nat) (a4 : Nat) (a5 : Nat) (h : Keeps s x) : Keeps s (State.marker x a1 a2 a3 a4 a5) := by
  unfold State.marker
  with_reducible
    repeat' first
      | assumption | apply State.markerTake_keeps | apply State.modFab_keeps | refine Keeps.ite ?_ ?_
      | lift_lets | (intro y; refine Keeps.cut s y ?_ (fun hy => ?_); (on_goal 1 => subst y); (on_goal 2 => clear_value y)) | intro y

theorem execMarker_keeps {s t : State} (a0 : Port) (a1 : Nat) (a2 : Nat) (a3 : Nat) (a4 : Nat) (h : execMarker a0 a1 a2 a3 a4 s = .next t) : Keeps s t := by
  unfold execMarker at h
  cases h
  have h := Keeps.refl s
  with_reducible
    repeat' first
      | assumption | apply State.marker_keeps

theorem execTimebaseLost_keeps {s t : State} (h : execTimebaseLost s = .next t) : Keeps s t := by
  unfold execTimebaseLost at h
  cases h
  have h := Keeps.refl s
  with_reducible
    repeat' first
      | assumption | apply State.syncLose_keeps | apply State.logged_keeps | apply State.raise_keeps
      | apply State.set_keeps | refine Keeps.foldl _ ?_ (fun y a hy => ?_) | refine Keeps.ite ?_ ?_ | refine fun y hy => ?_ | lift_lets
      | (intro y; refine Keeps.cut s y ?_ (fun hy => ?_); (on_goal 1 => subst y); (on_goal 2 => clear_value y)) | intro y

end Sys2Proof.Machine
end

