-- ==== Sys2Proof/Laws/KeepsTableCmds.lean ====
section
/-!
SUPPORT. KeepsTableCmds.lean: every operation of Machine/TableCmds.lean keeps what Keeps names.
-/
set_option linter.unusedTactic false
set_option linter.unreachableTactic false
set_option linter.unusedVariables false
namespace Sys2Proof.Machine

theorem execDtcClear_keeps {s t : State} (a0 : Master) (a1 : Nat) (h : execDtcClear a0 a1 s = .next t) : Keeps s t := by
  unfold execDtcClear at h
  cases h
  have h := Keeps.refl s
  with_reducible
    repeat' first
      | assumption | apply State.asked_keeps | apply State.writeKey_keeps | apply State.logged_keeps
      | refine fun y hy => ?_ | split | (refine Keeps.snd_of ?_ (by assumption)) | (refine Keeps.trd_of ?_ (by assumption))

theorem execTableSwitch_keeps {s t : State} (a0 : Master) (a1 : Nat) (h : execTableSwitch a0 a1 s = .next t) : Keeps s t := by
  unfold execTableSwitch at h
  cases h
  have h := Keeps.refl s
  with_reducible
    repeat' first
      | assumption | apply State.asked_keeps | apply State.writeKey_keeps | apply State.logged_keeps
      | refine fun y hy => ?_ | split | (refine Keeps.snd_of ?_ (by assumption)) | (refine Keeps.trd_of ?_ (by assumption))

theorem execTableLoad_keeps {s t : State} (a0 : Master) (a1 : List Byte) (h : execTableLoad a0 a1 s = .next t) : Keeps s t := by
  unfold execTableLoad at h
  cases h
  have h := Keeps.refl s
  with_reducible
    repeat' first
      | assumption | apply State.asked_keeps | apply State.writeSegment_keeps | refine fun y hy => ?_
      | split | (refine Keeps.snd_of ?_ (by assumption)) | (refine Keeps.trd_of ?_ (by assumption))

theorem execTrapRelease_keeps {s t : State} (a0 : Master) (a1 : Nat) (h : execTrapRelease a0 a1 s = .next t) : Keeps s t := by
  unfold execTrapRelease at h
  cases h
  have h := Keeps.refl s
  with_reducible
    repeat' first
      | assumption | apply State.asked_keeps | apply State.writeKey_keeps | apply State.logged_keeps
      | refine fun y hy => ?_ | split | (refine Keeps.snd_of ?_ (by assumption)) | (refine Keeps.trd_of ?_ (by assumption))

theorem State.rowAgain_keeps {s x : State} (h : Keeps s x) : Keeps s (State.rowAgain x) := by
  unfold State.rowAgain
  with_reducible
    repeat' first
      | assumption | apply State.rowLatches_keeps | apply State.commitWords_keeps
      | apply State.set_keeps | refine Keeps.ite ?_ ?_ | lift_lets
      | (intro y; refine Keeps.cut s y ?_ (fun hy => ?_); (on_goal 1 => subst y); (on_goal 2 => clear_value y)) | intro y
      | exact Keeps.mk_of (by assumption) id id id id (fun _ => id)
      | refine Keeps.mk_of ?_ (by first | exact id | exact Store.wf_write _ _) id id id (fun _ => id)

theorem State.selectAgain_keeps {s x : State} (h : Keeps s x) : Keeps s (State.selectAgain x) := by
  unfold State.selectAgain
  with_reducible
    repeat' first
      | assumption | apply State.select_keeps | apply State.chgEnter_keeps | refine Keeps.ite ?_ ?_

theorem State.chgAgain_keeps {s x : State} (h : Keeps s x) : Keeps s (State.chgAgain x) := by
  unfold State.chgAgain
  with_reducible
    repeat' first
      | assumption | apply State.selectAgain_keeps | apply State.ordering_keeps
      | apply State.packFirst_keeps | apply State.chgWrite_keeps | apply State.chgEnter_keeps | apply State.writeChg_keeps
      | refine Keeps.ite ?_ ?_ | lift_lets
      | (intro y; refine Keeps.cut s y ?_ (fun hy => ?_); (on_goal 1 => subst y); (on_goal 2 => clear_value y)) | intro y
      | exact Keeps.mk_of (by assumption) id id id id (fun _ => id)
      | refine Keeps.mk_of ?_ (by first | exact id | exact Store.wf_write _ _) id id id (fun _ => id)

theorem State.scanAgain_keeps {s x : State} (h : Keeps s x) : Keeps s (State.scanAgain x) := by
  unfold State.scanAgain
  with_reducible
    repeat' first
      | assumption | apply State.put_keeps | refine Keeps.foldl _ ?_ (fun y a hy => ?_)

theorem State.kindChanged_keeps {s x : State} (a1 : Nat) (h : Keeps s x) : Keeps s (State.kindChanged x a1) := by
  unfold State.kindChanged
  with_reducible
    repeat' first
      | assumption | apply State.scanAgain_keeps | apply State.chgAgain_keeps
      | apply State.rowAgain_keeps | apply State.seqRestart_keeps | apply State.ordering_keeps | apply State.bandUpdate_keeps
      | apply State.writeEdges_keeps | apply State.bandIntervals_keeps | lift_lets
      | (intro y; refine Keeps.cut s y ?_ (fun hy => ?_); (on_goal 1 => subst y); (on_goal 2 => clear_value y)) | intro y | split
      | (refine Keeps.snd_of ?_ (by assumption)) | (refine Keeps.trd_of ?_ (by assumption))
      | exact Keeps.mk_of (by assumption) id id id id (fun _ => id)
      | refine Keeps.mk_of ?_ (by first | exact id | exact Store.wf_write _ _) id id id (fun _ => id)

theorem State.switchDone_keeps {s x : State} (h : Keeps s x) : Keeps s (State.switchDone x) := by
  unfold State.switchDone
  with_reducible
    repeat' first
      | assumption | apply State.rowAgain_keeps | apply State.idleIds_keeps
      | apply State.writeBankF_keeps | apply State.setBank_keeps | apply State.ordering_keeps | apply State.writeLimits_keeps
      | apply State.clearK_keeps | apply State.set_keeps | refine Keeps.ite ?_ ?_ | lift_lets
      | (intro y; refine Keeps.cut s y ?_ (fun hy => ?_); (on_goal 1 => subst y); (on_goal 2 => clear_value y)) | intro y
      | exact Keeps.mk_of (by assumption) id id id id (fun _ => id)
      | refine Keeps.mk_of ?_ (by first | exact id | exact Store.wf_write _ _) id id id (fun _ => id)

theorem State.switchKind_keeps {s x : State} (a1 : Nat) (h : Keeps s x) : Keeps s (State.switchKind x a1) := by
  unfold State.switchKind
  with_reducible
    repeat' first
      | assumption | apply State.switchDone_keeps | apply State.kindChanged_keeps
      | apply State.useImage_keeps | apply State.set_keeps | refine Keeps.ite ?_ ?_ | lift_lets
      | (intro y; refine Keeps.cut s y ?_ (fun hy => ?_); (on_goal 1 => subst y); (on_goal 2 => clear_value y)) | intro y

theorem State.romKind_keeps {s x : State} (a1 : Nat) (h : Keeps s x) : Keeps s (State.romKind x a1) := by
  unfold State.romKind
  with_reducible
    repeat' first
      | assumption | apply State.kindChanged_keeps | apply State.useImage_keeps | lift_lets
      | (intro y; refine Keeps.cut s y ?_ (fun hy => ?_); (on_goal 1 => subst y); (on_goal 2 => clear_value y)) | intro y
      | exact Keeps.mk_of (by assumption) id id id id (fun _ => id)
      | refine Keeps.mk_of ?_ (by first | exact id | exact Store.wf_write _ _) id id id (fun _ => id)

theorem execSafePoint_keeps {s t : State} (a0 : Fin 10) (h : execSafePoint a0 s = .next t) : Keeps s t := by
  unfold execSafePoint at h
  cases h
  have h := Keeps.refl s
  with_reducible
    repeat' first
      | assumption | apply State.romKind_keeps | apply State.switchKind_keeps
      | apply State.logged_keeps | refine Keeps.ite ?_ ?_ | refine fun y hy => ?_

theorem execSwitchDeferred_keeps {s t : State} (a0 : Fin 10) (h : execSwitchDeferred a0 s = .next t) : Keeps s t := by
  unfold execSwitchDeferred at h
  cases h
  have h := Keeps.refl s
  with_reducible
    repeat' first
      | assumption | apply State.raise_keeps | refine Keeps.ite ?_ ?_ | lift_lets
      | (intro y; refine Keeps.cut s y ?_ (fun hy => ?_); (on_goal 1 => subst y); (on_goal 2 => clear_value y)) | intro y
      | exact Keeps.mk_of (by assumption) id id id id (fun _ => id)
      | refine Keeps.mk_of ?_ (by first | exact id | exact Store.wf_write _ _) id id id (fun _ => id)

theorem execSequencerEvaluation_keeps {s t : State} (a0 : Fin 5) (a1 : Bool) (h : execSequencerEvaluation a0 a1 s = .next t) : Keeps s t := by
  unfold execSequencerEvaluation at h
  cases h
  have h := Keeps.refl s
  with_reducible
    repeat' first
      | assumption | apply State.seqEvaluate_keeps | apply State.logged_keeps | refine fun y hy => ?_

end Sys2Proof.Machine
end

