-- ==== Sys2Proof/Laws/KeepsResetOps.lean ====
section
/-!
SUPPORT. KeepsResetOps.lean: every operation of Machine/ResetOps.lean keeps what Keeps names.
-/
set_option linter.unusedTactic false
set_option linter.unreachableTactic false
set_option linter.unusedVariables false
namespace Sys2Proof.Machine

theorem State.clearBlocks_keeps {s x : State} (a1 : Bool) (h : Keeps s x) : Keeps s (State.clearBlocks x a1) := by
  unfold State.clearBlocks
  with_reducible
    repeat' first
      | assumption | refine Keeps.ite ?_ ?_ | lift_lets
      | (intro y; refine Keeps.cut s y ?_ (fun hy => ?_); (on_goal 1 => subst y); (on_goal 2 => clear_value y)) | intro y
      | exact Keeps.mk_of (by assumption) id id id id (fun _ => id)
      | refine Keeps.mk_of ?_ (by first | exact id | exact Store.wf_write _ _) id id id (fun _ => id)

theorem State.flashFind_keeps {s x : State} (a : Nat) (h : Keeps s x) : Keeps s (x.flashFind a) := by
  unfold State.flashFind
  refine Keeps.ite (State.raise1_keeps _ _ _ (State.set_keeps _ _ h)) ?_
  have hy := State.set_keeps Obj.FLASH_SIZE a (State.set_keeps Obj.FLASH_STATE 1 (State.clearK_keeps 23 6 h))
  generalize ((x.clearK 23 6).set Obj.FLASH_STATE 1).set Obj.FLASH_SIZE a = y at hy
  refine Keeps.ite (State.wearObjs_keeps hy) (State.raise_keeps _ _ _ (State.wearObjs_keeps ?_))
  exact Keeps.mk_from hy hy.words hy.buf hy.inFlight (fun _ => rfl) hy.areas

theorem State.shellStart_keeps {s x : State} (a1 : Bool) (a2 : Nat) (h : Keeps s x) : Keeps s (State.shellStart x a1 a2) := by
  unfold State.shellStart
  with_reducible
    repeat' first
      | assumption | apply State.flashFind_keeps | apply State.clearBlocks_keeps
      | apply State.resetObjs_keeps | lift_lets
      | (intro y; refine Keeps.cut s y ?_ (fun hy => ?_); (on_goal 1 => subst y); (on_goal 2 => clear_value y)) | intro y
      | exact Keeps.mk_of (by assumption) id id id id (fun _ => id)
      | refine Keeps.mk_of ?_ (by first | exact id | exact Store.wf_write _ _) id id id (fun _ => id)

theorem State.retainedCheck_keeps {s x : State} (a1 : List Nat) (h : Keeps s x) : Keeps s (State.retainedCheck x a1) := by
  unfold State.retainedCheck
  with_reducible
    repeat' first
      | assumption | apply State.retainedInit_keeps | apply State.raise_keeps | apply State.tally_keeps
      | refine Keeps.foldl _ ?_ (fun y a hy => ?_)

theorem State.restoreValues_keeps {s x : State} (a1 : Bool) (h : Keeps s x) : Keeps s (State.restoreValues x a1) := by
  unfold State.restoreValues
  with_reducible
    repeat' first
      | assumption | apply State.set_keeps | refine Keeps.foldl _ ?_ (fun y a hy => ?_)
      | refine Keeps.ite ?_ ?_

theorem State.restoreCheck_keeps {s x : State} (h : Keeps s x) : Keeps s (State.restoreCheck x) := by
  unfold State.restoreCheck
  with_reducible
    repeat' first
      | assumption | apply State.tally_keeps | apply State.set_keeps
      | refine Keeps.foldl _ ?_ (fun y a hy => ?_) | refine Keeps.ite ?_ ?_ | lift_lets
      | (intro y; refine Keeps.cut s y ?_ (fun hy => ?_); (on_goal 1 => subst y); (on_goal 2 => clear_value y)) | intro y

theorem State.countResets_keeps {s x : State} (h : Keeps s x) : Keeps s (State.countResets x) := by
  unfold State.countResets
  with_reducible
    repeat' first
      | assumption | apply State.count_keeps | refine Keeps.foldl _ ?_ (fun y a hy => ?_) | lift_lets
      | (intro y; refine Keeps.cut s y ?_ (fun hy => ?_); (on_goal 1 => subst y); (on_goal 2 => clear_value y)) | intro y
      | exact Keeps.mk_of (by assumption) id id id id (fun _ => id)
      | refine Keeps.mk_of ?_ (by first | exact id | exact Store.wf_write _ _) id id id (fun _ => id)

theorem State.socRestored_keeps {s x : State} (h : Keeps s x) : Keeps s (State.socRestored x) := by
  unfold State.socRestored
  with_reducible
    repeat' first
      | assumption | apply State.set_keeps | refine Keeps.ite ?_ ?_

theorem State.nodeRestore_keeps {s x : State} (h : Keeps s x) : Keeps s (State.nodeRestore x) := by
  unfold State.nodeRestore
  with_reducible
    repeat' first
      | assumption | apply State.set_keeps | refine Keeps.ite ?_ ?_ | lift_lets
      | (intro y; refine Keeps.cut s y ?_ (fun hy => ?_); (on_goal 1 => subst y); (on_goal 2 => clear_value y)) | intro y
      | exact Keeps.mk_of (by assumption) id id id id (fun _ => id)
      | refine Keeps.mk_of ?_ (by first | exact id | exact Store.wf_write _ _) id id id (fun _ => id)

theorem State.nodeEarly_keeps {s x : State} (h : Keeps s x) : Keeps s (State.nodeEarly x) := by
  unfold State.nodeEarly
  with_reducible
    repeat' first
      | assumption | apply State.set_keeps | refine Keeps.ite ?_ ?_ | lift_lets
      | (intro y; refine Keeps.cut s y ?_ (fun hy => ?_); (on_goal 1 => subst y); (on_goal 2 => clear_value y)) | intro y
      | exact Keeps.mk_of (by assumption) id id id id (fun _ => id)
      | refine Keeps.mk_of ?_ (by first | exact id | exact Store.wf_write _ _) id id id (fun _ => id)

theorem State.calRestore_keeps {s x : State} (h : Keeps s x) : Keeps s (State.calRestore x) := by
  unfold State.calRestore
  with_reducible
    repeat' first
      | assumption | apply State.set_keeps | refine Keeps.ite ?_ ?_

theorem State.restoreBlocks_keeps {s x : State} (a1 : Bool) (h : Keeps s x) : Keeps s (State.restoreBlocks x a1) := by
  unfold State.restoreBlocks
  with_reducible
    repeat' first
      | assumption | apply State.socRestored_keeps | apply State.linCopies_keeps
      | apply State.ceilingBoot_keeps | refine Keeps.ite ?_ ?_ | lift_lets
      | (intro y; refine Keeps.cut s y ?_ (fun hy => ?_); (on_goal 1 => subst y); (on_goal 2 => clear_value y)) | intro y
      | exact Keeps.mk_of (by assumption) id id id id (fun _ => id)
      | refine Keeps.mk_of ?_ (by first | exact id | exact Store.wf_write _ _) id id id (fun _ => id)

theorem State.scanBoot_keeps {s x : State} (h : Keeps s x) : Keeps s (State.scanBoot x) := by
  unfold State.scanBoot
  with_reducible
    repeat' first
      | assumption | apply State.set_keeps | refine Keeps.foldl _ ?_ (fun y a hy => ?_)
      | refine Keeps.ite ?_ ?_ | lift_lets
      | (intro y; refine Keeps.cut s y ?_ (fun hy => ?_); (on_goal 1 => subst y); (on_goal 2 => clear_value y)) | intro y

theorem State.restore_keeps {s x : State} (a1 : Bool) (h : Keeps s x) : Keeps s (State.restore x a1) := by
  unfold State.restore
  with_reducible
    repeat' first
      | assumption | apply State.scanBoot_keeps | apply State.restoreBlocks_keeps
      | apply State.calRestore_keeps | apply State.nodeRestore_keeps | apply State.countResets_keeps | apply State.restoreCheck_keeps
      | apply State.restoreValues_keeps | apply State.commitNow_keeps | apply State.replayReport_keeps | apply State.ordering_keeps
      | apply State.packFirst_keeps | lift_lets
      | (intro y; refine Keeps.cut s y ?_ (fun hy => ?_); (on_goal 1 => subst y); (on_goal 2 => clear_value y)) | intro y

theorem State.powerOnReset_keeps {s x : State} (n : Nat) (h : Keeps s x) : Keeps s (x.powerOnReset n) := by
  have k := State.otpBreak_keeps (State.commitTorn_keeps h)
  refine ⟨k.pending, k.now, k.free, fun hc => ⟨?_, ?_, ?_, ?_, k.entries hc⟩, k.areas⟩
  · show State.reset.objs.wf Dict.default = true
    decide
  · rfl
  · rfl
  · intro e he
    cases he

theorem State.powerOnRelease_keeps {s x : State} (a1 : Nat) (h : Keeps s x) : Keeps s (State.powerOnRelease x a1) := by
  unfold State.powerOnRelease
  with_reducible
    repeat' first
      | assumption | apply State.draw_keeps | apply State.set_keeps | refine Keeps.ite ?_ ?_
      | refine Keeps.ite_snd ?_ ?_ | refine Keeps.ite_trd ?_ ?_ | lift_lets
      | (intro y; refine Keeps.cut s y ?_ (fun hy => ?_); (on_goal 1 => subst y); (on_goal 2 => clear_value y)) | intro y | split
      | (refine Keeps.snd_of ?_ (by assumption)) | (refine Keeps.trd_of ?_ (by assumption))
      | exact Keeps.mk_of (by assumption) id id id id (fun _ => id)
      | refine Keeps.mk_of ?_ (by first | exact id | exact Store.wf_write _ _) id id id (fun _ => id)

theorem State.coreReset_keeps {s x : State} (a1 : Bool) (h : Keeps s x) : Keeps s (State.coreReset x a1) := by
  unfold State.coreReset
  with_reducible
    repeat' first
      | assumption | apply State.haloUpdate_keeps | apply State.shellAbsent_keeps
      | apply State.otpBreak_keeps | apply State.commitTorn_keeps | apply State.set_keeps | refine Keeps.ite ?_ ?_ | lift_lets
      | (intro y; refine Keeps.cut s y ?_ (fun hy => ?_); (on_goal 1 => subst y); (on_goal 2 => clear_value y)) | intro y
      | exact Keeps.mk_of (by assumption) id id id id (fun _ => id)
      | refine Keeps.mk_of ?_ (by first | exact id | exact Store.wf_write _ _) id id id (fun _ => id)

theorem State.fabricSyncLost_keeps {s x : State} (h : Keeps s x) : Keeps s (State.fabricSyncLost x) := by
  unfold State.fabricSyncLost
  with_reducible
    repeat' first
      | assumption | apply State.syncLose_keeps | refine Keeps.foldl _ ?_ (fun y a hy => ?_)
      | refine Keeps.ite ?_ ?_

theorem State.escalate_keeps {s x : State} (h : Keeps s x) : Keeps s (State.escalate x) := by
  unfold State.escalate
  with_reducible
    repeat' first
      | assumption | apply State.fabricSyncLost_keeps | apply State.fabOff_keeps
      | apply State.canOff_keeps | apply State.balOff_keeps | apply State.measStop_keeps | apply State.set_keeps | lift_lets
      | (intro y; refine Keeps.cut s y ?_ (fun hy => ?_); (on_goal 1 => subst y); (on_goal 2 => clear_value y)) | intro y
      | exact Keeps.mk_of (by assumption) id id id id (fun _ => id)
      | refine Keeps.mk_of ?_ (by first | exact id | exact Store.wf_write _ _) id id id (fun _ => id)

theorem State.resetRelease_keeps {s x : State} (a1 : Nat) (h : Keeps s x) : Keeps s (State.resetRelease x a1) := by
  unfold State.resetRelease
  with_reducible
    repeat' first
      | assumption | apply State.set_keeps | refine Keeps.ite ?_ ?_ | lift_lets
      | (intro y; refine Keeps.cut s y ?_ (fun hy => ?_); (on_goal 1 => subst y); (on_goal 2 => clear_value y)) | intro y
      | exact Keeps.mk_of (by assumption) id id id id (fun _ => id)
      | refine Keeps.mk_of ?_ (by first | exact id | exact Store.wf_write _ _) id id id (fun _ => id)

end Sys2Proof.Machine
end

