-- ==== Sys2Proof/Laws/KeepsBringup.lean ====
section
/-!
SUPPORT. KeepsBringup.lean: every operation of Machine/Bringup.lean keeps what Keeps names.
-/
set_option linter.unusedTactic false
set_option linter.unreachableTactic false
set_option linter.unusedVariables false
namespace Sys2Proof.Machine

theorem State.sampleStraps_keeps {s x : State} (a1 : Nat) (h : Keeps s x) : Keeps s (State.sampleStraps x a1) := by
  unfold State.sampleStraps
  with_reducible
    repeat' first
      | assumption | apply State.set_keeps | refine Keeps.ite ?_ ?_ | lift_lets
      | (intro y; refine Keeps.cut s y ?_ (fun hy => ?_); (on_goal 1 => subst y); (on_goal 2 => clear_value y)) | intro y

theorem State.stepFive_keeps {s x : State} (a1 : Nat) (a2 : List Nat) (h : Keeps s x) : Keeps s (State.stepFive x a1 a2) := by
  unfold State.stepFive
  with_reducible
    repeat' first
      | assumption | apply State.nodeEarly_keeps | apply State.retainedCheck_keeps
      | apply State.shellStart_keeps | apply State.bootKick_keeps | apply State.fabStart_keeps | apply State.set_keeps
      | refine Keeps.ite ?_ ?_ | lift_lets
      | (intro y; refine Keeps.cut s y ?_ (fun hy => ?_); (on_goal 1 => subst y); (on_goal 2 => clear_value y)) | intro y
      | exact Keeps.mk_of (by assumption) id id id id (fun _ => id)
      | refine Keeps.mk_of ?_ (by first | exact id | exact Store.wf_write _ _) id id id (fun _ => id)

theorem State.bootBanks_keeps {s x : State} (h : Keeps s x) : Keeps s (State.bootBanks x) := by
  unfold State.bootBanks
  with_reducible
    repeat' first
      | assumption | apply State.readBank_keeps | apply State.activate_keeps
      | apply State.bankGens_keeps | apply State.raiseC_keeps | refine Keeps.ite ?_ ?_ | lift_lets
      | (intro y; refine Keeps.cut s y ?_ (fun hy => ?_); (on_goal 1 => subst y); (on_goal 2 => clear_value y)) | intro y
      | exact Keeps.mk_of (by assumption) id id id id (fun _ => id)
      | refine Keeps.mk_of ?_ (by first | exact id | exact Store.wf_write _ _) id id id (fun _ => id)

theorem State.stepSix_keeps {s x : State} (h : Keeps s x) : Keeps s (State.stepSix x) := by
  unfold State.stepSix
  with_reducible
    repeat' first
      | assumption | apply State.bootBanks_keeps | apply State.restore_keeps
      | apply State.loadBanks_keeps | apply State.set_keeps | refine Keeps.ite ?_ ?_ | lift_lets
      | (intro y; refine Keeps.cut s y ?_ (fun hy => ?_); (on_goal 1 => subst y); (on_goal 2 => clear_value y)) | intro y | split

theorem State.vauxCatchUp_keeps {s x : State} (h : Keeps s x) : Keeps s (State.vauxCatchUp x) := by
  unfold State.vauxCatchUp
  with_reducible
    repeat' first
      | assumption | apply State.clearK_keeps | apply State.raise1_keeps | apply State.count_keeps
      | refine Keeps.ite ?_ ?_ | lift_lets
      | (intro y; refine Keeps.cut s y ?_ (fun hy => ?_); (on_goal 1 => subst y); (on_goal 2 => clear_value y)) | intro y
      | exact Keeps.mk_of (by assumption) id id id id (fun _ => id)
      | refine Keeps.mk_of ?_ (by first | exact id | exact Store.wf_write _ _) id id id (fun _ => id)

theorem State.directEnd_keeps {s x : State} (h : Keeps s x) : Keeps s (State.directEnd x) := by
  unfold State.directEnd
  with_reducible
    repeat' first
      | assumption | apply State.raise_keeps | refine Keeps.ite ?_ ?_ | lift_lets
      | (intro y; refine Keeps.cut s y ?_ (fun hy => ?_); (on_goal 1 => subst y); (on_goal 2 => clear_value y)) | intro y
      | exact Keeps.mk_of (by assumption) id id id id (fun _ => id)
      | refine Keeps.mk_of ?_ (by first | exact id | exact Store.wf_write _ _) id id id (fun _ => id)

theorem State.countN_keeps {s x : State} (a1 : Nat) (a2 : Nat) (h : Keeps s x) : Keeps s (State.countN x a1 a2) := by
  unfold State.countN
  with_reducible
    repeat' first
      | assumption | apply State.count_keeps | refine Keeps.foldl _ ?_ (fun y a hy => ?_)

theorem State.countTrips_keeps {s x : State} (h : Keeps s x) : Keeps s (State.countTrips x) := by
  unfold State.countTrips
  with_reducible
    repeat' first
      | assumption | apply State.countN_keeps | lift_lets
      | (intro y; refine Keeps.cut s y ?_ (fun hy => ?_); (on_goal 1 => subst y); (on_goal 2 => clear_value y)) | intro y
      | exact Keeps.mk_of (by assumption) id id id id (fun _ => id)
      | refine Keeps.mk_of ?_ (by first | exact id | exact Store.wf_write _ _) id id id (fun _ => id)

theorem State.linObjects_keeps {s x : State} (h : Keeps s x) : Keeps s (State.linObjects x) := by
  unfold State.linObjects
  with_reducible
    repeat' first
      | assumption | apply State.put_keeps | refine Keeps.foldl _ ?_ (fun y a hy => ?_)
      | refine Keeps.ite ?_ ?_ | lift_lets
      | (intro y; refine Keeps.cut s y ?_ (fun hy => ?_); (on_goal 1 => subst y); (on_goal 2 => clear_value y)) | intro y
      | exact Keeps.mk_of (by assumption) id id id id (fun _ => id)
      | refine Keeps.mk_of ?_ (by first | exact id | exact Store.wf_write _ _) id id id (fun _ => id)

theorem State.overcastStop_keeps {s x : State} (h : Keeps s x) : Keeps s (State.overcastStop x) := by
  unfold State.overcastStop
  with_reducible
    repeat' first
      | assumption | apply State.linObjects_keeps | apply State.countTrips_keeps
      | apply State.directEnd_keeps | apply State.measStart_keeps | apply State.seqStart_keeps | apply State.wdStart_keeps
      | apply State.haloUpdate_keeps | apply State.setMode_keeps | apply State.hzMode_keeps | apply State.set_keeps
      | refine Keeps.ite ?_ ?_ | lift_lets
      | (intro y; refine Keeps.cut s y ?_ (fun hy => ?_); (on_goal 1 => subst y); (on_goal 2 => clear_value y)) | intro y
      | exact Keeps.mk_of (by assumption) id id id id (fun _ => id)
      | refine Keeps.mk_of ?_ (by first | exact id | exact Store.wf_write _ _) id id id (fun _ => id)

theorem State.linkPorts_keeps {s x : State} (h : Keeps s x) : Keeps s (State.linkPorts x) := by
  unfold State.linkPorts
  with_reducible
    repeat' first
      | assumption | apply State.linkEnable_keeps | refine Keeps.foldl _ ?_ (fun y a hy => ?_)
      | refine Keeps.ite ?_ ?_

theorem State.stepSeven_keeps {s x : State} (h : Keeps s x) : Keeps s (State.stepSeven x) := by
  unfold State.stepSeven
  with_reducible
    repeat' first
      | assumption | apply State.linkPorts_keeps | apply State.overcastStop_keeps
      | apply State.vauxCatchUp_keeps | apply State.envEnable_keeps | apply State.canInit_keeps | apply State.fabStart_keeps
      | apply State.set_keeps | refine Keeps.foldl _ ?_ (fun y a hy => ?_) | refine Keeps.ite ?_ ?_ | lift_lets
      | (intro y; refine Keeps.cut s y ?_ (fun hy => ?_); (on_goal 1 => subst y); (on_goal 2 => clear_value y)) | intro y
      | exact Keeps.mk_of (by assumption) id id id id (fun _ => id)
      | refine Keeps.mk_of ?_ (by first | exact id | exact Store.wf_write _ _) id id id (fun _ => id)

theorem State.holdIfNew_keeps {s x : State} (a1 : Nat) (a2 : Nat) (h : Keeps s x) : Keeps s (State.holdIfNew x a1 a2) := by
  unfold State.holdIfNew
  with_reducible
    repeat' first
      | assumption | apply State.portWord_keeps | refine Keeps.ite ?_ ?_

theorem State.handoverLatches_keeps {s x : State} (a1 : Bool) (h : Keeps s x) : Keeps s (State.handoverLatches x a1) := by
  unfold State.handoverLatches
  with_reducible
    repeat' first
      | assumption | apply State.holdIfNew_keeps | apply State.portWord_keeps
      | refine Keeps.foldl _ ?_ (fun y a hy => ?_) | refine Keeps.ite ?_ ?_

theorem State.handoverGroup_keeps {s x : State} (a1 : Bool) (a2 : Group) (h : Keeps s x) : Keeps s (State.handoverGroup x a1 a2) := by
  unfold State.handoverGroup
  with_reducible
    repeat' first
      | assumption | apply State.holdIfNew_keeps | apply State.writeGroup_keeps
      | apply State.portWord_keeps | apply State.coreRaiseC_keeps | refine Keeps.foldl _ ?_ (fun y a hy => ?_) | refine Keeps.ite ?_ ?_
      | lift_lets | (intro y; refine Keeps.cut s y ?_ (fun hy => ?_); (on_goal 1 => subst y); (on_goal 2 => clear_value y)) | intro y

theorem State.handoverWords_keeps {s x : State} (a1 : Bool) (h : Keeps s x) : Keeps s (State.handoverWords x a1) := by
  unfold State.handoverWords
  with_reducible
    repeat' first
      | assumption | apply State.handoverGroup_keeps | apply State.handoverLatches_keeps
      | apply State.handoverWord_keeps | refine Keeps.foldl _ ?_ (fun y a hy => ?_) | refine Keeps.ite ?_ ?_ | refine Keeps.ite_snd ?_ ?_
      | refine Keeps.ite_trd ?_ ?_ | refine fun y hy => ?_ | lift_lets
      | (intro y; refine Keeps.cut s y ?_ (fun hy => ?_); (on_goal 1 => subst y); (on_goal 2 => clear_value y)) | intro y | split
      | (refine Keeps.snd_of ?_ (by assumption)) | (refine Keeps.trd_of ?_ (by assumption))
      | exact Keeps.mk_of (by assumption) id id id id (fun _ => id)
      | refine Keeps.mk_of ?_ (by first | exact id | exact Store.wf_write _ _) id id id (fun _ => id)
      | refine Keeps.mk_from ?_ (fun hc => Keeps.words ?_ hc) (fun hc => Keeps.buf ?_ hc) (fun hc => Keeps.inFlight ?_ hc) (fun hc => Keeps.entries ?_ hc) (fun i hl => Keeps.areas ?_ i hl)

theorem State.takeBacklog_keeps {s x : State} (h : Keeps s x) : Keeps s (State.takeBacklog x) := by
  unfold State.takeBacklog
  with_reducible
    repeat' first
      | assumption | lift_lets
      | (intro y; refine Keeps.cut s y ?_ (fun hy => ?_); (on_goal 1 => subst y); (on_goal 2 => clear_value y)) | intro y
      | exact Keeps.mk_of (by assumption) id id id id (fun _ => id)
      | refine Keeps.mk_of ?_ (by first | exact id | exact Store.wf_write _ _) id id id (fun _ => id)

theorem State.stratusEnd_keeps {s x : State} (h : Keeps s x) : Keeps s (State.stratusEnd x) := by
  unfold State.stratusEnd
  with_reducible
    repeat' first
      | assumption | apply State.raise_keeps | apply State.count_keeps | apply State.put_keeps
      | apply State.set_keeps | refine Keeps.ite ?_ ?_ | lift_lets
      | (intro y; refine Keeps.cut s y ?_ (fun hy => ?_); (on_goal 1 => subst y); (on_goal 2 => clear_value y)) | intro y

theorem State.raiseMissed_keeps {s x : State} (a1 : Nat) (a2 : Nat) (a3 : Nat) (a4 : Nat) (a5 : Nat) (h : Keeps s x) : Keeps s (State.raiseMissed x a1 a2 a3 a4 a5) := by
  unfold State.raiseMissed
  with_reducible
    repeat' first
      | assumption | apply State.again_keeps | apply State.send_keeps
      | refine Keeps.foldl _ ?_ (fun y a hy => ?_) | refine Keeps.ite ?_ ?_

theorem State.raiseN_keeps {s x : State} (a1 : Nat) (a2 : Nat) (a3 : Nat) (a4 : Nat) (h : Keeps s x) : Keeps s (State.raiseN x a1 a2 a3 a4) := by
  unfold State.raiseN
  with_reducible
    repeat' first
      | assumption | apply State.again_keeps | apply State.raise_keeps
      | refine Keeps.foldl _ ?_ (fun y a hy => ?_) | refine Keeps.ite ?_ ?_

theorem State.lossN_keeps {s x : State} (a1 : Nat) (a2 : Nat) (h : Keeps s x) : Keeps s (State.lossN x a1 a2) := by
  unfold State.lossN
  with_reducible
    repeat' first
      | assumption | apply State.sourceLoss_keeps | refine Keeps.foldl _ ?_ (fun y a hy => ?_)

theorem State.missedSource_keeps {s x : State} (h : Keeps s x) : Keeps s (State.missedSource x) := by
  unfold State.missedSource
  with_reducible
    repeat' first
      | assumption | apply State.lossN_keeps | apply State.raiseN_keeps | apply State.raiseMissed_keeps
      | apply State.countN_keeps | apply State.longestNow_keeps | lift_lets
      | (intro y; refine Keeps.cut s y ?_ (fun hy => ?_); (on_goal 1 => subst y); (on_goal 2 => clear_value y)) | intro y
      | exact Keeps.mk_of (by assumption) id id id id (fun _ => id)
      | refine Keeps.mk_of ?_ (by first | exact id | exact Store.wf_write _ _) id id id (fun _ => id)

theorem State.sourceNow_keeps {s x : State} (h : Keeps s x) : Keeps s (State.sourceNow x) := by
  unfold State.sourceNow
  with_reducible
    repeat' first
      | assumption | apply State.detach_keeps | apply State.classStart_keeps
      | apply State.srcState_keeps | refine Keeps.ite ?_ ?_ | lift_lets
      | (intro y; refine Keeps.cut s y ?_ (fun hy => ?_); (on_goal 1 => subst y); (on_goal 2 => clear_value y)) | intro y
      | exact Keeps.mk_of (by assumption) id id id id (fun _ => id)
      | refine Keeps.mk_of ?_ (by first | exact id | exact Store.wf_write _ _) id id id (fun _ => id)

theorem State.linkTripped_keeps {s x : State} (a1 : Port) (h : Keeps s x) : Keeps s (State.linkTripped x a1) := by
  unfold State.linkTripped
  with_reducible
    repeat' first
      | assumption | apply State.detachFree_keeps | apply State.toRamp_keeps
      | apply State.toNeutral_keeps | refine Keeps.ite ?_ ?_

theorem State.linkReset_keeps {s x : State} (a1 : Port) (a2 : Option Nat) (h : Keeps s x) : Keeps s (State.linkReset x a1 a2) := by
  unfold State.linkReset
  with_reducible
    repeat' first
      | assumption | apply State.onHardReset_keeps | refine Keeps.ite ?_ ?_ | split

theorem State.linkMoved_keeps {s x : State} (a1 : Port) (h : Keeps s x) : Keeps s (State.linkMoved x a1) := by
  unfold State.linkMoved
  with_reducible
    repeat' first
      | assumption | apply State.pulled_keeps | apply State.peerBit_keeps
      | apply State.sensedStep_keeps | apply State.toNeutral_keeps | apply State.linkZ_keeps | apply State.setLink_keeps
      | apply State.modL_keeps | apply State.raise_keeps | refine Keeps.ite ?_ ?_ | lift_lets
      | (intro y; refine Keeps.cut s y ?_ (fun hy => ?_); (on_goal 1 => subst y); (on_goal 2 => clear_value y)) | intro y

theorem State.linkNow_keeps {s x : State} (a1 : Port) (a2 : Bool) (h : Keeps s x) : Keeps s (State.linkNow x a1 a2) := by
  unfold State.linkNow
  with_reducible
    repeat' first
      | assumption | apply State.linkMoved_keeps | apply State.linkReset_keeps
      | apply State.linkTripped_keeps | apply State.modL_keeps | refine Keeps.ite ?_ ?_ | lift_lets
      | (intro y; refine Keeps.cut s y ?_ (fun hy => ?_); (on_goal 1 => subst y); (on_goal 2 => clear_value y)) | intro y

theorem State.vauxHandover_keeps {s x : State} (h : Keeps s x) : Keeps s (State.vauxHandover x) := by
  unfold State.vauxHandover
  with_reducible
    repeat' first
      | assumption | apply State.vauxCatchUp_keeps | apply State.commitStart_keeps
      | apply State.hourRecord_keeps | refine Keeps.ite ?_ ?_

theorem State.packAgain_keeps {s x : State} (h : Keeps s x) : Keeps s (State.packAgain x) := by
  unfold State.packAgain
  with_reducible
    repeat' first
      | assumption | apply State.packSeen_keeps | apply State.cellReport_keeps
      | apply State.zoneUpdate_keeps | refine Keeps.ite ?_ ?_ | lift_lets
      | (intro y; refine Keeps.cut s y ?_ (fun hy => ?_); (on_goal 1 => subst y); (on_goal 2 => clear_value y)) | intro y
      | exact Keeps.mk_of (by assumption) id id id id (fun _ => id)
      | refine Keeps.mk_of ?_ (by first | exact id | exact Store.wf_write _ _) id id id (fun _ => id)

theorem State.recordsAgain_keeps {s x : State} (h : Keeps s x) : Keeps s (State.recordsAgain x) := by
  unfold State.recordsAgain
  with_reducible
    repeat' first
      | assumption | refine Keeps.ite ?_ ?_ | lift_lets
      | (intro y; refine Keeps.cut s y ?_ (fun hy => ?_); (on_goal 1 => subst y); (on_goal 2 => clear_value y)) | intro y
      | exact Keeps.mk_of (by assumption) id id id id (fun _ => id)
      | refine Keeps.mk_of ?_ (by first | exact id | exact Store.wf_write _ _) id id id (fun _ => id)

theorem State.catchUp_keeps {s x : State} (h : Keeps s x) : Keeps s (State.catchUp x) := by
  unfold State.catchUp
  with_reducible
    repeat' first
      | assumption | apply State.recordsAgain_keeps | apply State.packAgain_keeps
      | apply State.vauxHandover_keeps | apply State.linkNow_keeps | apply State.sourceNow_keeps | apply State.missedSource_keeps
      | apply State.stratusEnd_keeps | apply State.takeBacklog_keeps | apply State.linObjects_keeps | apply State.countTrips_keeps
      | apply State.packLostShell_keeps | apply State.linShorted_keeps | apply State.commitStart_keeps | refine Keeps.ite ?_ ?_
      | lift_lets | (intro y; refine Keeps.cut s y ?_ (fun hy => ?_); (on_goal 1 => subst y); (on_goal 2 => clear_value y)) | intro y
      | exact Keeps.mk_of (by assumption) id id id id (fun _ => id)
      | refine Keeps.mk_of ?_ (by first | exact id | exact Store.wf_write _ _) id id id (fun _ => id)

theorem State.blocksStart_keeps {s x : State} (h : Keeps s x) : Keeps s (State.blocksStart x) := by
  unfold State.blocksStart
  with_reducible
    repeat' first
      | assumption | apply State.measStart_keeps | apply State.seqStart_keeps
      | apply State.wdStart_keeps | refine Keeps.ite ?_ ?_ | lift_lets
      | (intro y; refine Keeps.cut s y ?_ (fun hy => ?_); (on_goal 1 => subst y); (on_goal 2 => clear_value y)) | intro y

theorem State.leasesStart_keeps {s x : State} (h : Keeps s x) : Keeps s (State.leasesStart x) := by
  unfold State.leasesStart
  with_reducible
    repeat' first
      | assumption | lift_lets
      | (intro y; refine Keeps.cut s y ?_ (fun hy => ?_); (on_goal 1 => subst y); (on_goal 2 => clear_value y)) | intro y
      | exact Keeps.mk_of (by assumption) id id id id (fun _ => id)
      | refine Keeps.mk_of ?_ (by first | exact id | exact Store.wf_write _ _) id id id (fun _ => id)

theorem State.serviceHold_keeps {s x : State} (h : Keeps s x) : Keeps s (State.serviceHold x) := by
  unfold State.serviceHold
  with_reducible
    repeat' first
      | assumption | apply State.toService_keeps | lift_lets
      | (intro y; refine Keeps.cut s y ?_ (fun hy => ?_); (on_goal 1 => subst y); (on_goal 2 => clear_value y)) | intro y
      | exact Keeps.mk_of (by assumption) id id id id (fun _ => id)
      | refine Keeps.mk_of ?_ (by first | exact id | exact Store.wf_write _ _) id id id (fun _ => id)

theorem State.groupsHold_keeps {s x : State} (h : Keeps s x) : Keeps s (State.groupsHold x) := by
  unfold State.groupsHold
  with_reducible
    repeat' first
      | assumption | apply State.stopG_keeps | refine Keeps.foldl _ ?_ (fun y a hy => ?_)

theorem State.holdStart_keeps {s x : State} (h : Keeps s x) : Keeps s (State.holdStart x) := by
  unfold State.holdStart
  with_reducible
    repeat' first
      | assumption | lift_lets
      | (intro y; refine Keeps.cut s y ?_ (fun hy => ?_); (on_goal 1 => subst y); (on_goal 2 => clear_value y)) | intro y
      | exact Keeps.mk_of (by assumption) id id id id (fun _ => id)
      | refine Keeps.mk_of ?_ (by first | exact id | exact Store.wf_write _ _) id id id (fun _ => id)

theorem State.orderBack_keeps {s x : State} (h : Keeps s x) : Keeps s (State.orderBack x) := by
  unfold State.orderBack
  with_reducible
    repeat' first
      | assumption | apply State.portIfNew_keeps | refine Keeps.ite ?_ ?_ | lift_lets
      | (intro y; refine Keeps.cut s y ?_ (fun hy => ?_); (on_goal 1 => subst y); (on_goal 2 => clear_value y)) | intro y
      | exact Keeps.mk_of (by assumption) id id id id (fun _ => id)
      | refine Keeps.mk_of ?_ (by first | exact id | exact Store.wf_write _ _) id id id (fun _ => id)

theorem State.groupsGo_keeps {s x : State} (h : Keeps s x) : Keeps s (State.groupsGo x) := by
  unfold State.groupsGo
  with_reducible
    repeat' first
      | assumption | apply State.freeG_keeps | refine Keeps.foldl _ ?_ (fun y a hy => ?_)

theorem State.handoverMode_keeps {s x : State} (h : Keeps s x) : Keeps s (State.handoverMode x) := by
  unfold State.handoverMode
  with_reducible
    repeat' first
      | assumption | apply State.groupsGo_keeps | apply State.orderBack_keeps
      | apply State.serviceHold_keeps | apply State.act_keeps | apply State.toService_keeps | apply State.setMode_keeps
      | apply State.set_keeps | refine Keeps.ite ?_ ?_ | lift_lets
      | (intro y; refine Keeps.cut s y ?_ (fun hy => ?_); (on_goal 1 => subst y); (on_goal 2 => clear_value y)) | intro y
      | exact Keeps.mk_of (by assumption) id id id id (fun _ => id)
      | refine Keeps.mk_of ?_ (by first | exact id | exact Store.wf_write _ _) id id id (fun _ => id)

theorem State.bringEnd_keeps {s x : State} (a1 : Nat) (a2 : Nat) (h : Keeps s x) : Keeps s (State.bringEnd x a1 a2) := by
  unfold State.bringEnd
  with_reducible
    repeat' first
      | assumption | apply State.groupsGo_keeps | apply State.orderBack_keeps
      | apply State.holdStart_keeps | apply State.linkPorts_keeps | apply State.linObjects_keeps | apply State.linShorted_keeps
      | apply State.haloUpdate_keeps | apply State.dtcCycle_keeps | apply State.act_keeps | apply State.setMode_keeps
      | apply State.parkRecord_keeps | apply State.set_keeps | refine Keeps.ite ?_ ?_ | lift_lets
      | (intro y; refine Keeps.cut s y ?_ (fun hy => ?_); (on_goal 1 => subst y); (on_goal 2 => clear_value y)) | intro y
      | exact Keeps.mk_of (by assumption) id id id id (fun _ => id)
      | refine Keeps.mk_of ?_ (by first | exact id | exact Store.wf_write _ _) id id id (fun _ => id)

theorem State.handoverEnd_keeps {s x : State} (a1 : Nat) (a2 : Bool) (h : Keeps s x) : Keeps s (State.handoverEnd x a1 a2) := by
  unfold State.handoverEnd
  with_reducible
    repeat' first
      | assumption | apply State.bringEnd_keeps | apply State.handoverMode_keeps
      | apply State.holdStart_keeps | apply State.groupsHold_keeps | apply State.leasesStart_keeps | apply State.blocksStart_keeps
      | apply State.haloUpdate_keeps | apply State.stepNine_keeps | refine Keeps.ite ?_ ?_ | lift_lets
      | (intro y; refine Keeps.cut s y ?_ (fun hy => ?_); (on_goal 1 => subst y); (on_goal 2 => clear_value y)) | intro y

theorem State.handoverTake_keeps {s x : State} (a1 : Nat) (a2 : Bool) (h : Keeps s x) : Keeps s (State.handoverTake x a1 a2) := by
  unfold State.handoverTake
  with_reducible
    repeat' first
      | assumption | apply State.catchUp_keeps | apply State.directEnd_keeps | apply State.set_keeps
      | refine Keeps.ite ?_ ?_ | lift_lets
      | (intro y; refine Keeps.cut s y ?_ (fun hy => ?_); (on_goal 1 => subst y); (on_goal 2 => clear_value y)) | intro y
      | exact Keeps.mk_of (by assumption) id id id id (fun _ => id)
      | refine Keeps.mk_of ?_ (by first | exact id | exact Store.wf_write _ _) id id id (fun _ => id)

theorem State.handoverHeld_keeps {s x : State} (a1 : Bool) (h : Keeps s x) : Keeps s (State.handoverHeld x a1) := by
  unfold State.handoverHeld
  with_reducible
    repeat' first
      | assumption | apply State.handoverWords_keeps | apply State.set_keeps | refine Keeps.ite ?_ ?_
      | lift_lets | (intro y; refine Keeps.cut s y ?_ (fun hy => ?_); (on_goal 1 => subst y); (on_goal 2 => clear_value y)) | intro y
      | exact Keeps.mk_of (by assumption) id id id id (fun _ => id)
      | refine Keeps.mk_of ?_ (by first | exact id | exact Store.wf_write _ _) id id id (fun _ => id)

theorem State.handover_keeps {s x : State} (a1 : Nat) (h : Keeps s x) : Keeps s (State.handover x a1) := by
  unfold State.handover
  with_reducible
    repeat' first
      | assumption | apply State.handoverHeld_keeps | apply State.handoverTake_keeps
      | apply State.handoverEnd_keeps | refine Keeps.foldl _ ?_ (fun y a hy => ?_) | refine Keeps.ite ?_ ?_ | refine Keeps.ite_snd ?_ ?_
      | refine Keeps.ite_trd ?_ ?_ | refine fun y hy => ?_ | lift_lets
      | (intro y; refine Keeps.cut s y ?_ (fun hy => ?_); (on_goal 1 => subst y); (on_goal 2 => clear_value y)) | intro y | split
      | (refine Keeps.snd_of ?_ (by assumption)) | (refine Keeps.trd_of ?_ (by assumption))
      | exact Keeps.mk_of (by assumption) id id id id (fun _ => id)
      | refine Keeps.mk_of ?_ (by first | exact id | exact Store.wf_write _ _) id id id (fun _ => id)
      | refine Keeps.mk_from ?_ (fun hc => Keeps.words ?_ hc) (fun hc => Keeps.buf ?_ hc) (fun hc => Keeps.inFlight ?_ hc) (fun hc => Keeps.entries ?_ hc) (fun i hl => Keeps.areas ?_ i hl)

theorem State.stepTen_keeps {s x : State} (h : Keeps s x) : Keeps s (State.stepTen x) := by
  unfold State.stepTen
  with_reducible
    repeat' first
      | assumption | apply State.enterStorage_keeps | apply State.commitNow_keeps
      | apply State.portIfNew_keeps | apply State.raise_keeps | apply State.freeG_keeps | apply State.set_keeps | refine Keeps.ite ?_ ?_
      | lift_lets | (intro y; refine Keeps.cut s y ?_ (fun hy => ?_); (on_goal 1 => subst y); (on_goal 2 => clear_value y)) | intro y
      | exact Keeps.mk_of (by assumption) id id id id (fun _ => id)
      | refine Keeps.mk_of ?_ (by first | exact id | exact Store.wf_write _ _) id id id (fun _ => id)

theorem State.clockLocked_keeps {s x t : State} (e : x.clockLocked = some t) (h : Keeps s x) : Keeps s t := by
  unfold State.clockLocked at e
  dsimp only at e
  split at e
  · split at e
    · cases e
    · cases e
      exact h
  · rw [Option.map_eq_some_iff] at e
    obtain ⟨n, _, e⟩ := e
    cases e
    exact State.set_keeps _ _ (Keeps.mk_of h id id id id (fun _ => id))

theorem State.bringStep_keeps {s x : State} (a b c : Nat) (d : List Nat) (h : Keeps s x) : Keeps s (x.bringStep a b c d) := by
  unfold State.bringStep
  split
  · exact State.set_keeps _ _ h
  · exact State.set_keeps _ _ (State.otpSense_keeps _ h)
  · exact State.set_keeps _ _ (Keeps.ite h (State.sampleStraps_keeps _ h))
  · split
    · rename_i e
      exact State.set_keeps _ _ (State.clockLocked_keeps e h)
    · exact h
  · exact State.stepFive_keeps _ _ h
  · exact State.stepSix_keeps h
  · exact State.stepSeven_keeps h
  · exact Keeps.ite (State.stepTen_keeps h) h
  · exact Keeps.ite h (State.set_keeps _ _ h)
  · exact Keeps.ite h (State.bringEnd_keeps _ _ h)
  · exact h

end Sys2Proof.Machine
end

