-- ==== Sys2Proof/Laws/KeepsReset.lean ====
section
/-!
SUPPORT. KeepsReset.lean: every operation of Machine/Reset.lean keeps what Keeps names.
-/
set_option linter.unusedTactic false
set_option linter.unreachableTactic false
set_option linter.unusedVariables false
namespace Sys2Proof.Machine

theorem execPowerOnReset_keeps {s t : State} (h : execPowerOnReset s = .next t) : Keeps s t := by
  unfold execPowerOnReset at h
  cases h
  have h := Keeps.refl s
  with_reducible
    repeat' first
      | assumption | apply State.powerOnReset_keeps

theorem execRailPor_keeps {s t : State} (h : execRailPor s = .next t) : Keeps s t := by
  unfold execRailPor at h
  cases h
  have h := Keeps.refl s
  with_reducible
    repeat' first
      | assumption | apply State.powerOnReset_keeps

theorem execPowerOnResetRelease_keeps {s t : State} (a0 : Nat) (h : execPowerOnResetRelease a0 s = .next t) : Keeps s t := by
  unfold execPowerOnResetRelease at h
  cases h
  have h := Keeps.refl s
  with_reducible
    repeat' first
      | assumption | apply State.powerOnRelease_keeps | refine Keeps.ite ?_ ?_

theorem State.vauxShell_keeps {s x : State} (a1 : Nat) (h : Keeps s x) : Keeps s (State.vauxShell x a1) := by
  unfold State.vauxShell
  with_reducible
    repeat' first
      | assumption | apply State.commitStart_keeps | apply State.hourRecord_keeps
      | apply State.raise1_keeps | apply State.count_keeps | refine Keeps.ite ?_ ?_ | lift_lets
      | (intro y; refine Keeps.cut s y ?_ (fun hy => ?_); (on_goal 1 => subst y); (on_goal 2 => clear_value y)) | intro y

theorem State.vauxWarn_keeps {s x : State} (a1 : Nat) (h : Keeps s x) : Keeps s (State.vauxWarn x a1) := by
  unfold State.vauxWarn
  with_reducible
    repeat' first
      | assumption | apply State.vauxShell_keeps | apply State.set_keeps | refine Keeps.ite ?_ ?_
      | lift_lets | (intro y; refine Keeps.cut s y ?_ (fun hy => ?_); (on_goal 1 => subst y); (on_goal 2 => clear_value y)) | intro y
      | exact Keeps.mk_of (by assumption) id id id id (fun _ => id)
      | refine Keeps.mk_of ?_ (by first | exact id | exact Store.wf_write _ _) id id id (fun _ => id)

theorem execVauxWarning_keeps {s t : State} (a0 : Nat) (h : execVauxWarning a0 s = .next t) : Keeps s t := by
  unfold execVauxWarning at h
  cases h
  have h := Keeps.refl s
  with_reducible
    repeat' first
      | assumption | apply State.vauxWarn_keeps | refine Keeps.ite ?_ ?_

theorem execVauxWarningClear_keeps {s t : State} (h : execVauxWarningClear s = .next t) : Keeps s t := by
  unfold execVauxWarningClear at h
  cases h
  have h := Keeps.refl s
  with_reducible
    repeat' first
      | assumption | apply State.clearK_keeps | apply State.set_keeps | refine Keeps.ite ?_ ?_

theorem execNrstCoreReset_keeps {s t : State} (a0 : Bool) (h : execNrstCoreReset a0 s = .next t) : Keeps s t := by
  unfold execNrstCoreReset at h
  cases h
  have h := Keeps.refl s
  with_reducible
    repeat' first
      | assumption | apply State.coreReset_keeps | apply State.logged_keeps | refine Keeps.ite ?_ ?_
      | refine fun y hy => ?_

theorem execNrstEscalation_keeps {s t : State} (h : execNrstEscalation s = .next t) : Keeps s t := by
  unfold execNrstEscalation at h
  cases h
  have h := Keeps.refl s
  with_reducible
    repeat' first
      | assumption | apply State.escalate_keeps | apply State.logged_keeps | refine Keeps.ite ?_ ?_
      | refine fun y hy => ?_

theorem execResetRelease_keeps {s t : State} (a0 : Nat) (h : execResetRelease a0 s = .next t) : Keeps s t := by
  unfold execResetRelease at h
  cases h
  have h := Keeps.refl s
  with_reducible
    repeat' first
      | assumption | apply State.resetRelease_keeps | refine Keeps.ite ?_ ?_

theorem execNrstDriveEnd_keeps {s t : State} (h : execNrstDriveEnd s = .next t) : Keeps s t := by
  unfold execNrstDriveEnd at h
  cases h
  have h := Keeps.refl s
  with_reducible
    repeat' first
      | assumption | lift_lets
      | (intro y; refine Keeps.cut s y ?_ (fun hy => ?_); (on_goal 1 => subst y); (on_goal 2 => clear_value y)) | intro y
      | exact Keeps.mk_of (by assumption) id id id id (fun _ => id)
      | refine Keeps.mk_of ?_ (by first | exact id | exact Store.wf_write _ _) id id id (fun _ => id)

theorem execBringupStepComplete_keeps {s t : State} (a0 : Nat) (a1 : Nat) (a2 : Nat) (a3 : List Nat) (h : execBringupStepComplete a0 a1 a2 a3 s = .next t) : Keeps s t := by
  unfold execBringupStepComplete at h
  cases h
  have h := Keeps.refl s
  with_reducible
    repeat' first
      | assumption | apply State.bringStep_keeps | apply State.logged_keeps | refine Keeps.ite ?_ ?_
      | refine fun y hy => ?_

theorem State.overcastReturn_keeps {s x : State} (h : Keeps s x) : Keeps s (State.overcastReturn x) := by
  unfold State.overcastReturn
  with_reducible
    repeat' first
      | assumption | apply State.vauxHandover_keeps | apply State.takeBacklog_keeps
      | apply State.haloUpdate_keeps | apply State.overcastShell_keeps | apply State.hzMode_keeps | lift_lets
      | (intro y; refine Keeps.cut s y ?_ (fun hy => ?_); (on_goal 1 => subst y); (on_goal 2 => clear_value y)) | intro y
      | exact Keeps.mk_of (by assumption) id id id id (fun _ => id)
      | refine Keeps.mk_of ?_ (by first | exact id | exact Store.wf_write _ _) id id id (fun _ => id)

theorem execCoreHandover_keeps {s t : State} (a0 : Nat) (h : execCoreHandover a0 s = .next t) : Keeps s t := by
  unfold execCoreHandover at h
  cases h
  have h := Keeps.refl s
  with_reducible
    repeat' first
      | assumption | apply State.overcastReturn_keeps | apply State.handover_keeps
      | apply State.logged_keeps | refine Keeps.ite ?_ ?_ | refine fun y hy => ?_

end Sys2Proof.Machine
end

