-- ==== Sys2Proof/Laws/KeepsModes.lean ====
section
/-!
SUPPORT. KeepsModes.lean: every operation of Machine/Modes.lean keeps what Keeps names.
-/
set_option linter.unusedTactic false
set_option linter.unreachableTactic false
set_option linter.unusedVariables false
namespace Sys2Proof.Machine

theorem execWakePin_keeps {s t : State} (h : execWakePin s = .next t) : Keeps s t := by
  unfold execWakePin at h
  cases h
  have h := Keeps.refl s
  with_reducible
    repeat' first
      | assumption | apply State.wakeEvent_keeps | refine Keeps.ite ?_ ?_

theorem State.attach_keeps {s x : State} (h : Keeps s x) : Keeps s (State.attach x) := by
  unfold State.attach
  with_reducible
    repeat' first
      | assumption | apply State.classStart_keeps | apply State.wakeEvent_keeps
      | refine Keeps.ite ?_ ?_ | lift_lets
      | (intro y; refine Keeps.cut s y ?_ (fun hy => ?_); (on_goal 1 => subst y); (on_goal 2 => clear_value y)) | intro y
      | exact Keeps.mk_of (by assumption) id id id id (fun _ => id)
      | refine Keeps.mk_of ?_ (by first | exact id | exact Store.wf_write _ _) id id id (fun _ => id)

theorem execVbusAttach_keeps {s t : State} (h : execVbusAttach s = .next t) : Keeps s t := by
  unfold execVbusAttach at h
  cases h
  have h := Keeps.refl s
  with_reducible
    repeat' first
      | assumption | apply State.attach_keeps | apply State.wakeEvent_keeps | apply State.logged_keeps
      | refine Keeps.ite ?_ ?_ | refine fun y hy => ?_

theorem State.parkScan_keeps {s x : State} (h : Keeps s x) : Keeps s (State.parkScan x) := by
  unfold State.parkScan
  with_reducible
    repeat' first
      | assumption | apply State.slotsStart_keeps | apply State.noResults_keeps | apply State.set_keeps
      | refine Keeps.foldl _ ?_ (fun y a hy => ?_) | lift_lets
      | (intro y; refine Keeps.cut s y ?_ (fun hy => ?_); (on_goal 1 => subst y); (on_goal 2 => clear_value y)) | intro y
      | exact Keeps.mk_of (by assumption) id id id id (fun _ => id)
      | refine Keeps.mk_of ?_ (by first | exact id | exact Store.wf_write _ _) id id id (fun _ => id)

theorem State.parkEvaluate_keeps {s x : State} (h : Keeps s x) : Keeps s (State.parkEvaluate x) := by
  unfold State.parkEvaluate
  with_reducible
    repeat' first
      | assumption | apply State.ocvCorrect_keeps | apply State.cutoff_keeps
      | apply State.cellReport_keeps | apply State.zoneUpdate_keeps | refine Keeps.ite ?_ ?_ | lift_lets
      | (intro y; refine Keeps.cut s y ?_ (fun hy => ?_); (on_goal 1 => subst y); (on_goal 2 => clear_value y)) | intro y
      | exact Keeps.mk_of (by assumption) id id id id (fun _ => id)
      | refine Keeps.mk_of ?_ (by first | exact id | exact Store.wf_write _ _) id id id (fun _ => id)

theorem State.parkNote_keeps {s x : State} (h : Keeps s x) : Keeps s (State.parkNote x) := by
  unfold State.parkNote
  with_reducible
    repeat' first
      | assumption | lift_lets
      | (intro y; refine Keeps.cut s y ?_ (fun hy => ?_); (on_goal 1 => subst y); (on_goal 2 => clear_value y)) | intro y | split
      | exact Keeps.mk_of (by assumption) id id id id (fun _ => id)
      | refine Keeps.mk_of ?_ (by first | exact id | exact Store.wf_write _ _) id id id (fun _ => id)

theorem State.parkDecide_keeps {s x : State} (h : Keeps s x) : Keeps s (State.parkDecide x) := by
  unfold State.parkDecide
  with_reducible
    repeat' first
      | assumption | apply State.parkNote_keeps | apply State.parkEvaluate_keeps
      | apply State.wakeUp_keeps | apply State.enterStorage_keeps | apply State.socMirror_keeps | apply State.set_keeps
      | refine Keeps.ite ?_ ?_ | lift_lets
      | (intro y; refine Keeps.cut s y ?_ (fun hy => ?_); (on_goal 1 => subst y); (on_goal 2 => clear_value y)) | intro y | split
      | exact Keeps.mk_of (by assumption) id id id id (fun _ => id)
      | refine Keeps.mk_of ?_ (by first | exact id | exact Store.wf_write _ _) id id id (fun _ => id)

theorem execParkCheck_keeps {s t : State} (a0 : Bool) (h : execParkCheck a0 s = .next t) : Keeps s t := by
  unfold execParkCheck at h
  cases h
  have h := Keeps.refl s
  with_reducible
    repeat' first
      | assumption | apply State.parkDecide_keeps | apply State.parkScan_keeps
      | apply State.logged_keeps | refine Keeps.ite ?_ ?_ | refine fun y hy => ?_

theorem State.slotWrite_keeps {s x : State} (a1 : Master) (a2 : Nat) (h : Keeps s x) : Keeps s (State.slotWrite x a1 a2).2 := by
  unfold State.slotWrite
  with_reducible
    repeat' first
      | assumption | apply State.answerWith_keeps | apply State.modeReqSlot_keeps
      | refine Keeps.ite ?_ ?_ | refine Keeps.ite_snd ?_ ?_ | refine Keeps.ite_trd ?_ ?_ | lift_lets
      | (intro y; refine Keeps.cut s y ?_ (fun hy => ?_); (on_goal 1 => subst y); (on_goal 2 => clear_value y)) | intro y | split
      | (refine Keeps.snd_of ?_ (by assumption)) | (refine Keeps.trd_of ?_ (by assumption))

theorem State.slotWrites_keeps {s x : State} (l : List (Master × Nat)) (h : Keeps s x) : Keeps s (x.slotWrites l).2 := by
  unfold State.slotWrites
  have key : ∀ (l : List (Master × Nat)) (p : Option Nat × State), Keeps s p.2 →
      Keeps s (l.foldl (fun (a : Option Nat × State) x =>
        let w := a.2.slotWrite x.1 x.2
        (if w.1 && x.1 == .S then some x.2 else a.1, w.2)) p).2 := by
    intro l
    induction l with
    | nil => exact fun p hp => hp
    | cons a l ih => exact fun p hp => ih _ (State.slotWrite_keeps _ _ hp)
  exact key l (none, x) h

theorem execModeReqWrite_keeps {s t : State} (a0 : Master) (a1 : Nat) (a2 : List (Master × Nat)) (h : execModeReqWrite a0 a1 a2 s = .next t) : Keeps s t := by
  unfold execModeReqWrite at h
  cases h
  have h := Keeps.refl s
  with_reducible
    repeat' first
      | assumption | apply State.slotWrites_keeps | apply State.modeReqAct_keeps
      | apply State.logged_keeps | refine fun y hy => ?_ | lift_lets
      | (intro y; refine Keeps.cut s y ?_ (fun hy => ?_); (on_goal 1 => subst y); (on_goal 2 => clear_value y)) | intro y | split
      | (refine Keeps.snd_of ?_ (by assumption)) | (refine Keeps.trd_of ?_ (by assumption))

theorem State.leaseEnd_keeps {s x : State} (a1 : Master) (h : Keeps s x) : Keeps s (State.leaseEnd x a1) := by
  unfold State.leaseEnd
  with_reducible
    repeat' first
      | assumption | apply State.resolve_keeps | apply State.set_keeps | refine Keeps.ite ?_ ?_
      | lift_lets | (intro y; refine Keeps.cut s y ?_ (fun hy => ?_); (on_goal 1 => subst y); (on_goal 2 => clear_value y)) | intro y
      | split | exact Keeps.mk_of (by assumption) id id id id (fun _ => id)
      | refine Keeps.mk_of ?_ (by first | exact id | exact Store.wf_write _ _) id id id (fun _ => id)

theorem execModeLeaseExpiry_keeps {s t : State} (a0 : Master) (h : execModeLeaseExpiry a0 s = .next t) : Keeps s t := by
  unfold execModeLeaseExpiry at h
  cases h
  have h := Keeps.refl s
  with_reducible
    repeat' first
      | assumption | apply State.leaseEnd_keeps | apply State.logged_keeps | refine Keeps.ite ?_ ?_
      | refine fun y hy => ?_

theorem execModeTargetReevaluation_keeps {s t : State} (h : execModeTargetReevaluation s = .next t) : Keeps s t := by
  unfold execModeTargetReevaluation at h
  cases h
  have h := Keeps.refl s
  with_reducible
    repeat' first
      | assumption | apply State.resolve_keeps | apply State.logged_keeps | refine Keeps.ite ?_ ?_
      | refine fun y hy => ?_

theorem execIdleParkDelayExpiry_keeps {s t : State} (h : execIdleParkDelayExpiry s = .next t) : Keeps s t := by
  unfold execIdleParkDelayExpiry at h
  cases h
  have h := Keeps.refl s
  with_reducible
    repeat' first
      | assumption | apply State.parkStart_keeps | apply State.logged_keeps | refine Keeps.ite ?_ ?_
      | refine fun y hy => ?_

theorem execWakeHoldExpiry_keeps {s t : State} (h : execWakeHoldExpiry s = .next t) : Keeps s t := by
  unfold execWakeHoldExpiry at h
  cases h
  have h := Keeps.refl s
  with_reducible
    repeat' first
      | assumption | apply State.act_keeps | apply State.logged_keeps | refine Keeps.ite ?_ ?_
      | refine fun y hy => ?_ | lift_lets
      | (intro y; refine Keeps.cut s y ?_ (fun hy => ?_); (on_goal 1 => subst y); (on_goal 2 => clear_value y)) | intro y
      | exact Keeps.mk_of (by assumption) id id id id (fun _ => id)
      | refine Keeps.mk_of ?_ (by first | exact id | exact Store.wf_write _ _) id id id (fun _ => id)

theorem State.rewriteBanks_keeps {s x : State} (h : Keeps s x) : Keeps s (State.rewriteBanks x) := by
  unfold State.rewriteBanks
  with_reducible
    repeat' first
      | assumption | apply State.writeBankF_keeps | refine Keeps.foldl _ ?_ (fun y a hy => ?_)
      | lift_lets | (intro y; refine Keeps.cut s y ?_ (fun hy => ?_); (on_goal 1 => subst y); (on_goal 2 => clear_value y)) | intro y
      | exact Keeps.mk_of (by assumption) id id id id (fun _ => id)
      | refine Keeps.mk_of ?_ (by first | exact id | exact Store.wf_write _ _) id id id (fun _ => id)

theorem State.seedTrims_keeps {s x : State} (h : Keeps s x) : Keeps s (State.seedTrims x) := by
  unfold State.seedTrims
  with_reducible
    repeat' first
      | assumption | apply State.put_keeps | refine Keeps.foldl _ ?_ (fun y a hy => ?_)
      | refine Keeps.ite ?_ ?_ | lift_lets
      | (intro y; refine Keeps.cut s y ?_ (fun hy => ?_); (on_goal 1 => subst y); (on_goal 2 => clear_value y)) | intro y

theorem State.parkCommit_keeps {s x : State} (h : Keeps s x) : Keeps s (State.parkCommit x) := by
  unfold State.parkCommit
  with_reducible
    repeat' first
      | assumption | apply State.seedTrims_keeps | apply State.rewriteBanks_keeps
      | apply State.closeWindow_keeps | apply State.closeCapture_keeps | apply State.commitNow_keeps | apply State.hourRecord_keeps
      | lift_lets | (intro y; refine Keeps.cut s y ?_ (fun hy => ?_); (on_goal 1 => subst y); (on_goal 2 => clear_value y)) | intro y

theorem State.parkOff_keeps {s x : State} (h : Keeps s x) : Keeps s (State.parkOff x) := by
  unfold State.parkOff
  with_reducible
    repeat' first
      | assumption | apply State.shellOff_keeps | apply State.freeLocks_keeps
      | apply State.dropRequests_keeps | apply State.setMode_keeps | lift_lets
      | (intro y; refine Keeps.cut s y ?_ (fun hy => ?_); (on_goal 1 => subst y); (on_goal 2 => clear_value y)) | intro y
      | exact Keeps.mk_of (by assumption) id id id id (fun _ => id)
      | refine Keeps.mk_of ?_ (by first | exact id | exact Store.wf_write _ _) id id id (fun _ => id)

theorem State.parkReach_keeps {s x : State} (h : Keeps s x) : Keeps s (State.parkReach x) := by
  unfold State.parkReach
  with_reducible
    repeat' first
      | assumption | apply State.parkOff_keeps | apply State.wakeUp_keeps
      | apply State.enterStorage_keeps | apply State.set_keeps | refine Keeps.foldl _ ?_ (fun y a hy => ?_) | refine Keeps.ite ?_ ?_
      | refine Keeps.ite_snd ?_ ?_ | refine Keeps.ite_trd ?_ ?_ | refine fun y hy => ?_ | split | lift_lets
      | (intro y; refine Keeps.cut s y ?_ (fun hy => ?_); (on_goal 1 => subst y); (on_goal 2 => clear_value y)) | intro y
      | (refine Keeps.snd_of ?_ (by assumption)) | (refine Keeps.trd_of ?_ (by assumption))
      | exact Keeps.mk_of (by assumption) id id id id (fun _ => id)
      | refine Keeps.mk_of ?_ (by first | exact id | exact Store.wf_write _ _) id id id (fun _ => id)
      | refine Keeps.mk_from ?_ (fun hc => Keeps.words ?_ hc) (fun hc => Keeps.buf ?_ hc) (fun hc => Keeps.inFlight ?_ hc) (fun hc => Keeps.entries ?_ hc) (fun i hl => Keeps.areas ?_ i hl)

theorem State.parkAdvance_keeps {s x : State} (h : Keeps s x) : Keeps s (State.parkAdvance x) := by
  unfold State.parkAdvance
  with_reducible
    repeat' first
      | assumption | apply State.parkReach_keeps | apply State.parkCommit_keeps
      | apply State.groupsOff_keeps | apply State.epochStart_keeps | refine Keeps.ite ?_ ?_ | lift_lets
      | (intro y; refine Keeps.cut s y ?_ (fun hy => ?_); (on_goal 1 => subst y); (on_goal 2 => clear_value y)) | intro y | split
      | exact Keeps.mk_of (by assumption) id id id id (fun _ => id)
      | refine Keeps.mk_of ?_ (by first | exact id | exact Store.wf_write _ _) id id id (fun _ => id)

theorem execParkEntryAdvance_keeps {s t : State} (h : execParkEntryAdvance s = .next t) : Keeps s t := by
  unfold execParkEntryAdvance at h
  cases h
  have h := Keeps.refl s
  with_reducible
    repeat' first
      | assumption | apply State.parkAdvance_keeps | apply State.logged_keeps | refine Keeps.ite ?_ ?_
      | refine fun y hy => ?_

theorem execHeartbeatLoss_keeps {s t : State} (h : execHeartbeatLoss s = .next t) : Keeps s t := by
  unfold execHeartbeatLoss at h
  cases h
  have h := Keeps.refl s
  with_reducible
    repeat' first
      | assumption | apply State.shellAbsent_keeps | apply State.logged_keeps | refine Keeps.ite ?_ ?_
      | refine fun y hy => ?_

theorem execStratusLinkHoldExpiry_keeps {s t : State} (h : execStratusLinkHoldExpiry s = .next t) : Keeps s t := by
  unfold execStratusLinkHoldExpiry at h
  cases h
  have h := Keeps.refl s
  with_reducible
    repeat' first
      | assumption | refine Keeps.ite ?_ ?_ | lift_lets
      | (intro y; refine Keeps.cut s y ?_ (fun hy => ?_); (on_goal 1 => subst y); (on_goal 2 => clear_value y)) | intro y
      | exact Keeps.mk_of (by assumption) id id id id (fun _ => id)
      | refine Keeps.mk_of ?_ (by first | exact id | exact Store.wf_write _ _) id id id (fun _ => id)

theorem State.stratusLinkEnd_keeps {s x : State} (h : Keeps s x) : Keeps s (State.stratusLinkEnd x) := by
  unfold State.stratusLinkEnd
  with_reducible
    repeat' first
      | assumption | apply State.exhaustedStratusNow_keeps | apply State.linkZ_keeps
      | refine Keeps.ite ?_ ?_ | lift_lets
      | (intro y; refine Keeps.cut s y ?_ (fun hy => ?_); (on_goal 1 => subst y); (on_goal 2 => clear_value y)) | intro y
      | exact Keeps.mk_of (by assumption) id id id id (fun _ => id)
      | refine Keeps.mk_of ?_ (by first | exact id | exact Store.wf_write _ _) id id id (fun _ => id)

theorem execStratusLinkRampEnd_keeps {s t : State} (h : execStratusLinkRampEnd s = .next t) : Keeps s t := by
  unfold execStratusLinkRampEnd at h
  cases h
  have h := Keeps.refl s
  with_reducible
    repeat' first
      | assumption | apply State.stratusLinkEnd_keeps | apply State.logged_keeps
      | refine Keeps.ite ?_ ?_ | refine fun y hy => ?_

theorem execNfailoverPulseEnd_keeps {s t : State} (h : execNfailoverPulseEnd s = .next t) : Keeps s t := by
  unfold execNfailoverPulseEnd at h
  cases h
  have h := Keeps.refl s
  with_reducible
    repeat' first
      | assumption | refine Keeps.ite ?_ ?_ | lift_lets
      | (intro y; refine Keeps.cut s y ?_ (fun hy => ?_); (on_goal 1 => subst y); (on_goal 2 => clear_value y)) | intro y
      | exact Keeps.mk_of (by assumption) id id id id (fun _ => id)
      | refine Keeps.mk_of ?_ (by first | exact id | exact Store.wf_write _ _) id id id (fun _ => id)

theorem State.overcastAdvance_keeps {s x : State} (h : Keeps s x) : Keeps s (State.overcastAdvance x) := by
  unfold State.overcastAdvance
  with_reducible
    repeat' first
      | assumption | apply State.overcastStop_keeps | apply State.overcastStep_keeps
      | refine Keeps.ite ?_ ?_ | lift_lets
      | (intro y; refine Keeps.cut s y ?_ (fun hy => ?_); (on_goal 1 => subst y); (on_goal 2 => clear_value y)) | intro y
      | exact Keeps.mk_of (by assumption) id id id id (fun _ => id)
      | refine Keeps.mk_of ?_ (by first | exact id | exact Store.wf_write _ _) id id id (fun _ => id)

theorem execOvercastShutdownAdvance_keeps {s t : State} (h : execOvercastShutdownAdvance s = .next t) : Keeps s t := by
  unfold execOvercastShutdownAdvance at h
  cases h
  have h := Keeps.refl s
  with_reducible
    repeat' first
      | assumption | apply State.overcastAdvance_keeps | apply State.logged_keeps
      | refine Keeps.ite ?_ ?_ | refine fun y hy => ?_

end Sys2Proof.Machine
end

