-- ==== Sys2Proof/Laws/KeepsFaults.lean ====
section
/-!
SUPPORT. KeepsFaults.lean: every operation of Machine/Faults.lean keeps what Keeps names.
-/
set_option linter.unusedTactic false
set_option linter.unreachableTactic false
set_option linter.unusedVariables false
namespace Sys2Proof.Machine

theorem State.scanReset_keeps {s x : State} (h : Keeps s x) : Keeps s (State.scanReset x) := by
  unfold State.scanReset
  with_reducible
    repeat' first
      | assumption | apply State.measStart_keeps | apply State.set_keeps | refine Keeps.ite ?_ ?_
      | lift_lets | (intro y; refine Keeps.cut s y ?_ (fun hy => ?_); (on_goal 1 => subst y); (on_goal 2 => clear_value y)) | intro y
      | exact Keeps.mk_of (by assumption) id id id id (fun _ => id)
      | refine Keeps.mk_of ?_ (by first | exact id | exact Store.wf_write _ _) id id id (fun _ => id)

theorem State.flashReset_keeps {s x : State} (h : Keeps s x) : Keeps s (x.flashReset) := by
  unfold State.flashReset
  split
  · rename_i e he
    have k := State.commitTorn_keeps h
    have h1 : Keeps s { x.commitTorn with
        jrnl := { x.commitTorn.jrnl with inFlight := none, buf := mergeStore e x.commitTorn.jrnl.buf } } :=
      Keeps.mk_from k k.words (fun hc => Store.wf_mergeStore _ (h.inFlight hc e he)) (fun _ e h => by cases h) k.entries k.areas
    exact State.commitStart_keeps (State.replayReport_keeps (State.flashBusy_keeps _ h1))
  · exact h

theorem State.hzReset_keeps {s x : State} (h : Keeps s x) : Keeps s (State.hzReset x) := by
  unfold State.hzReset
  with_reducible
    repeat' first
      | assumption | apply State.epochDiscard_keeps | apply State.probeAbandon_keeps | lift_lets
      | (intro y; refine Keeps.cut s y ?_ (fun hy => ?_); (on_goal 1 => subst y); (on_goal 2 => clear_value y)) | intro y
      | exact Keeps.mk_of (by assumption) id id id id (fun _ => id)
      | refine Keeps.mk_of ?_ (by first | exact id | exact Store.wf_write _ _) id id id (fun _ => id)

theorem State.linReset_keeps {s x : State} (h : Keeps s x) : Keeps s (State.linReset x) := by
  unfold State.linReset
  with_reducible
    repeat' first
      | assumption | apply State.linCopies_keeps | lift_lets
      | (intro y; refine Keeps.cut s y ?_ (fun hy => ?_); (on_goal 1 => subst y); (on_goal 2 => clear_value y)) | intro y
      | exact Keeps.mk_of (by assumption) id id id id (fun _ => id)
      | refine Keeps.mk_of ?_ (by first | exact id | exact Store.wf_write _ _) id id id (fun _ => id)

theorem State.blockStart_keeps {s x : State} (a1 : Nat) (a2 : Nat) (h : Keeps s x) : Keeps s (State.blockStart x a1 a2) := by
  unfold State.blockStart
  with_reducible
    repeat' first
      | assumption | apply State.linReset_keeps | apply State.hzReset_keeps
      | apply State.flashReset_keeps | apply State.scanReset_keeps | apply State.envEnable_keeps | apply State.seqStart1_keeps
      | apply State.canInit_keeps | apply State.portDown_keeps | apply State.resolve_keeps | apply State.sessionDefault_keeps
      | apply State.sendHard_keeps | apply State.groupApply_keeps | refine Keeps.foldl _ ?_ (fun y a hy => ?_) | refine Keeps.ite ?_ ?_
      | refine Keeps.ite_snd ?_ ?_ | refine Keeps.ite_trd ?_ ?_ | refine fun y hy => ?_ | lift_lets
      | (intro y; refine Keeps.cut s y ?_ (fun hy => ?_); (on_goal 1 => subst y); (on_goal 2 => clear_value y)) | intro y | split
      | (refine Keeps.snd_of ?_ (by assumption)) | (refine Keeps.trd_of ?_ (by assumption))
      | exact Keeps.mk_of (by assumption) id id id id (fun _ => id)
      | refine Keeps.mk_of ?_ (by first | exact id | exact Store.wf_write _ _) id id id (fun _ => id)
      | refine Keeps.mk_from ?_ (fun hc => Keeps.words ?_ hc) (fun hc => Keeps.buf ?_ hc) (fun hc => Keeps.inFlight ?_ hc) (fun hc => Keeps.entries ?_ hc) (fun i hl => Keeps.areas ?_ i hl)

theorem State.reactIrq_keeps {s x : State} (h : Keeps s x) : Keeps s (State.reactIrq x) := by
  unfold State.reactIrq
  with_reducible
    repeat' first
      | assumption | apply State.notify_keeps | lift_lets
      | (intro y; refine Keeps.cut s y ?_ (fun hy => ?_); (on_goal 1 => subst y); (on_goal 2 => clear_value y)) | intro y
      | exact Keeps.mk_of (by assumption) id id id id (fun _ => id)
      | refine Keeps.mk_of ?_ (by first | exact id | exact Store.wf_write _ _) id id id (fun _ => id)

theorem State.reactTrap_keeps {s x : State} (a1 : Msg) (h : Keeps s x) : Keeps s (State.reactTrap x a1) := by
  unfold State.reactTrap
  with_reducible
    repeat' first
      | assumption | apply State.seqTrap_keeps | apply State.raise_keeps

theorem State.reactBlock_keeps {s x : State} (a1 : Option Nat) (a2 : Msg) (h : Keeps s x) : Keeps s (State.reactBlock x a1 a2) := by
  unfold State.reactBlock
  with_reducible
    repeat' first
      | assumption | apply State.blockStart_keeps | refine Keeps.foldl _ ?_ (fun y a hy => ?_)
      | refine Keeps.ite ?_ ?_ | refine Keeps.ite_snd ?_ ?_ | refine Keeps.ite_trd ?_ ?_ | refine fun y hy => ?_ | lift_lets
      | (intro y; refine Keeps.cut s y ?_ (fun hy => ?_); (on_goal 1 => subst y); (on_goal 2 => clear_value y)) | intro y | split
      | (refine Keeps.snd_of ?_ (by assumption)) | (refine Keeps.trd_of ?_ (by assumption))
      | exact Keeps.mk_of (by assumption) id id id id (fun _ => id)
      | refine Keeps.mk_of ?_ (by first | exact id | exact Store.wf_write _ _) id id id (fun _ => id)
      | refine Keeps.mk_from ?_ (fun hc => Keeps.words ?_ hc) (fun hc => Keeps.buf ?_ hc) (fun hc => Keeps.inFlight ?_ hc) (fun hc => Keeps.entries ?_ hc) (fun i hl => Keeps.areas ?_ i hl)

theorem State.reactChip_keeps {s x : State} (a1 : Msg) (h : Keeps s x) : Keeps s (State.reactChip x a1) := by
  unfold State.reactChip
  with_reducible
    repeat' first
      | assumption | lift_lets
      | (intro y; refine Keeps.cut s y ?_ (fun hy => ?_); (on_goal 1 => subst y); (on_goal 2 => clear_value y)) | intro y
      | exact Keeps.mk_of (by assumption) id id id id (fun _ => id)
      | refine Keeps.mk_of ?_ (by first | exact id | exact Store.wf_write _ _) id id id (fun _ => id)

theorem State.noteReact_keeps {s x : State} (a1 : Option Nat) (a2 : Nat) (h : Keeps s x) : Keeps s (State.noteReact x a1 a2) := by
  unfold State.noteReact
  with_reducible
    repeat' first
      | assumption | apply State.putRec_keeps | split

theorem State.carryOut_keeps {s x : State} (a1 : Option Nat) (a2 : Msg) (a3 : Nat) (a4 : Nat) (a5 : Bool) (h : Keeps s x) : Keeps s (State.carryOut x a1 a2 a3 a4 a5) := by
  unfold State.carryOut
  with_reducible
    repeat' first
      | assumption | apply State.noteReact_keeps | apply State.reactChip_keeps
      | apply State.reactBlock_keeps | apply State.reactTrap_keeps | apply State.reactIrq_keeps | apply State.haloUpdate_keeps
      | apply State.setOvercast_keeps | apply State.raise_keeps | refine Keeps.ite ?_ ?_ | lift_lets
      | (intro y; refine Keeps.cut s y ?_ (fun hy => ?_); (on_goal 1 => subst y); (on_goal 2 => clear_value y)) | intro y

theorem State.windowEnd_keeps {s x : State} (h : Keeps s x) : Keeps s (State.windowEnd x) := by
  unfold State.windowEnd
  with_reducible
    repeat' first
      | assumption | apply State.closeHandling_keeps | refine Keeps.ite ?_ ?_ | split

theorem State.takeRefused_keeps {s x : State} (a1 : Msg) (h : Keeps s x) : Keeps s (State.takeRefused x a1) := by
  unfold State.takeRefused
  with_reducible
    repeat' first
      | assumption | refine Keeps.foldl _ ?_ (fun y a hy => ?_) | refine Keeps.ite ?_ ?_ | lift_lets
      | (intro y; refine Keeps.cut s y ?_ (fun hy => ?_); (on_goal 1 => subst y); (on_goal 2 => clear_value y)) | intro y
      | exact Keeps.mk_of (by assumption) id id id id (fun _ => id)
      | refine Keeps.mk_of ?_ (by first | exact id | exact Store.wf_write _ _) id id id (fun _ => id)

theorem State.makeRecord_keeps {s x : State} (m : Msg) (c : Nat) (q : Bool) (h : Keeps s x) : Keeps s (x.makeRecord m c q).1 := by
  unfold State.makeRecord
  lift_lets
  intro w
  split
  · exact State.putRec_keeps _ _ h
  · split
    · exact State.putRec_keeps _ _ h
    · exact Keeps.mk_of h id id id id (fun _ => id)

theorem State.mergeRecord_keeps {s x : State} (n : Nat) (r : FaultRec) (m : Msg) (c d : Nat) (h : Keeps s x) :
    Keeps s (x.mergeRecord n r m c d).1 :=
  State.putRec_keeps _ _ h

theorem State.record_keeps {s x : State} (m : Msg) (c d : Nat) (q : Bool) (h : Keeps s x) : Keeps s (x.record m c d q) := by
  unfold State.record
  split
  · rename_i n r _
    have hr := State.mergeRecord_keeps n r m (reactionBy x.col.table m.src m.kind).1 (reactionBy x.col.table m.src m.kind).2 h
    exact Keeps.ite (State.haloUpdate_keeps hr) (State.windowEnd_keeps (State.carryOut_keeps _ _ _ _ _ hr))
  · have hr := State.makeRecord_keeps m c q h
    exact Keeps.ite (State.carryOut_keeps _ _ _ _ _ hr) (State.haloUpdate_keeps (State.takeRefused_keeps _ hr))

theorem State.acceptRaise_keeps {s x : State} (a1 : Msg) (a2 : Bool) (h : Keeps s x) : Keeps s (State.acceptRaise x a1 a2) := by
  unfold State.acceptRaise
  with_reducible
    repeat' first
      | assumption | apply State.record_keeps | apply State.hourFault_keeps
      | apply State.faultCounts_keeps | apply State.dtcRaise_keeps | apply State.capture_keeps | refine Keeps.ite ?_ ?_ | lift_lets
      | (intro y; refine Keeps.cut s y ?_ (fun hy => ?_); (on_goal 1 => subst y); (on_goal 2 => clear_value y)) | intro y

theorem State.acceptClear_keeps {s x : State} (a1 : Msg) (h : Keeps s x) : Keeps s (State.acceptClear x a1) := by
  unfold State.acceptClear
  with_reducible
    repeat' first
      | assumption | apply State.clearRecord_keeps | apply State.haloUpdate_keeps
      | apply State.dtcClear_keeps

theorem State.nextMsg_keeps {s x t : State} {m : Msg} {b : Bool} (e : x.nextMsg = some (m, b, t)) (h : Keeps s x) : Keeps s t := by
  unfold State.nextMsg at e
  split at e
  · cases e
    exact Keeps.mk_of h id id id id (fun _ => id)
  · split at e
    · cases e
    · rw [Option.map_eq_some_iff] at e
      obtain ⟨a, _, e⟩ := e
      cases e
      exact Keeps.mk_of h id id id id (fun _ => id)

theorem execFaultRaise_keeps {s t : State} (h : execFaultRaise s = .next t) : Keeps s t := by
  unfold execFaultRaise at h
  cases h
  have h := Keeps.refl s
  refine Keeps.ite (State.logged_keeps _ (fun y hy => ?_) h) h
  split
  · rename_i e
    exact Keeps.ite hy (State.acceptRaise_keeps _ _ (State.nextMsg_keeps e hy))
  · exact hy

theorem execFaultClear_keeps {s t : State} (h : execFaultClear s = .next t) : Keeps s t := by
  unfold execFaultClear at h
  cases h
  have h := Keeps.refl s
  refine Keeps.ite (State.logged_keeps _ (fun y hy => ?_) h) h
  split
  · rename_i e
    exact Keeps.ite (State.acceptClear_keeps _ (State.nextMsg_keeps e hy)) hy
  · exact hy

theorem execFaultLost_keeps {s t : State} (a0 : Nat) (h : execFaultLost a0 s = .next t) : Keeps s t := by
  unfold execFaultLost at h
  cases h
  have h := Keeps.refl s
  with_reducible
    repeat' first
      | assumption | apply State.tally_keeps | refine Keeps.ite ?_ ?_ | lift_lets
      | (intro y; refine Keeps.cut s y ?_ (fun hy => ?_); (on_goal 1 => subst y); (on_goal 2 => clear_value y)) | intro y
      | exact Keeps.mk_of (by assumption) id id id id (fun _ => id)
      | refine Keeps.mk_of ?_ (by first | exact id | exact Store.wf_write _ _) id id id (fun _ => id)

theorem State.handle_keeps {s x : State} (a1 : Nat) (a2 : FaultRec) (h : Keeps s x) : Keeps s (State.handle x a1 a2) := by
  unfold State.handle
  with_reducible
    repeat' first
      | assumption | apply State.windowEnd_keeps | apply State.carryOut_keeps
      | apply State.putRec_keeps | lift_lets
      | (intro y; refine Keeps.cut s y ?_ (fun hy => ?_); (on_goal 1 => subst y); (on_goal 2 => clear_value y)) | intro y
      | exact Keeps.mk_of (by assumption) id id id id (fun _ => id)
      | refine Keeps.mk_of ?_ (by first | exact id | exact Store.wf_write _ _) id id id (fun _ => id)

theorem execRecordHandling_keeps {s t : State} (h : execRecordHandling s = .next t) : Keeps s t := by
  unfold execRecordHandling at h
  cases h
  have h := Keeps.refl s
  with_reducible
    repeat' first
      | assumption | apply State.handle_keeps | apply State.logged_keeps | refine Keeps.ite ?_ ?_
      | refine fun y hy => ?_ | split

theorem execBlockResetComplete_keeps {s t : State} (h : execBlockResetComplete s = .next t) : Keeps s t := by
  unfold execBlockResetComplete at h
  cases h
  have h := Keeps.refl s
  with_reducible
    repeat' first
      | assumption | apply State.closeHandling_keeps | split

theorem execFaultAck_keeps {s t : State} (a0 : Master) (a1 : Nat) (h : execFaultAck a0 a1 s = .next t) : Keeps s t := by
  unfold execFaultAck at h
  cases h
  have h := Keeps.refl s
  with_reducible
    repeat' first
      | assumption | apply State.asked_keeps | apply State.writeKey_keeps | apply State.logged_keeps
      | refine fun y hy => ?_ | split | (refine Keeps.snd_of ?_ (by assumption)) | (refine Keeps.trd_of ?_ (by assumption))

theorem execFaultRecordRead_keeps {s t : State} (a0 : Master) (a1 : Nat) (h : execFaultRecordRead a0 a1 s = .next t) : Keeps s t := by
  unfold execFaultRecordRead at h
  cases h
  have h := Keeps.refl s
  with_reducible
    repeat' first
      | assumption | apply State.asked_keeps | apply State.readKey_keeps | refine fun y hy => ?_
      | split | (refine Keeps.snd_of ?_ (by assumption)) | (refine Keeps.trd_of ?_ (by assumption))

theorem execFaultInject_keeps {s t : State} (a0 : Master) (a1 : Nat) (h : execFaultInject a0 a1 s = .next t) : Keeps s t := by
  unfold execFaultInject at h
  cases h
  have h := Keeps.refl s
  with_reducible
    repeat' first
      | assumption | apply State.asked_keeps | apply State.writeKey_keeps | apply State.logged_keeps
      | refine fun y hy => ?_ | split | (refine Keeps.snd_of ?_ (by assumption)) | (refine Keeps.trd_of ?_ (by assumption))

theorem State.selfLoop_keeps {s x : State} (a1 : Bool) (h : Keeps s x) : Keeps s (State.selfLoop x a1) := by
  unfold State.selfLoop
  with_reducible
    repeat' first
      | assumption | apply State.directEnter_keeps | refine Keeps.ite ?_ ?_ | lift_lets
      | (intro y; refine Keeps.cut s y ?_ (fun hy => ?_); (on_goal 1 => subst y); (on_goal 2 => clear_value y)) | intro y
      | exact Keeps.mk_of (by assumption) id id id id (fun _ => id)
      | refine Keeps.mk_of ?_ (by first | exact id | exact Store.wf_write _ _) id id id (fun _ => id)

theorem execCollectorSelfLoop_keeps {s t : State} (a0 : Bool) (h : execCollectorSelfLoop a0 s = .next t) : Keeps s t := by
  unfold execCollectorSelfLoop at h
  cases h
  have h := Keeps.refl s
  with_reducible
    repeat' first
      | assumption | apply State.selfLoop_keeps | refine Keeps.ite ?_ ?_

theorem execHaloToggle_keeps {s t : State} (h : execHaloToggle s = .next t) : Keeps s t := by
  unfold execHaloToggle at h
  cases h
  have h := Keeps.refl s
  with_reducible
    repeat' first
      | assumption | refine Keeps.ite ?_ ?_ | lift_lets
      | (intro y; refine Keeps.cut s y ?_ (fun hy => ?_); (on_goal 1 => subst y); (on_goal 2 => clear_value y)) | intro y
      | exact Keeps.mk_of (by assumption) id id id id (fun _ => id)
      | refine Keeps.mk_of ?_ (by first | exact id | exact Store.wf_write _ _) id id id (fun _ => id)

end Sys2Proof.Machine
end

