-- ==== Sys2Proof/Laws/KeepsIdle.lean ====
section
/-!
SUPPORT. KeepsIdle.lean: every operation of Machine/Idle.lean keeps what Keeps names.
-/
set_option linter.unusedTactic false
set_option linter.unreachableTactic false
set_option linter.unusedVariables false
namespace Sys2Proof.Machine

theorem State.countTick_keeps {s x : State} (h : Keeps s x) : Keeps s (State.countTick x) := by
  unfold State.countTick
  with_reducible
    repeat' first
      | assumption | lift_lets
      | (intro y; refine Keeps.cut s y ?_ (fun hy => ?_); (on_goal 1 => subst y); (on_goal 2 => clear_value y)) | intro y
      | exact Keeps.mk_of (by assumption) id id id id (fun _ => id)
      | refine Keeps.mk_of ?_ (by first | exact id | exact Store.wf_write _ _) id id id (fun _ => id)

theorem State.socTick_keeps {s x : State} (h : Keeps s x) : Keeps s (State.socTick x) := by
  unfold State.socTick
  with_reducible
    repeat' first
      | assumption | apply State.socMirror_keeps | refine Keeps.ite ?_ ?_

theorem State.opTick_keeps {s x : State}  (h : Keeps s x) : Keeps s (x.opTick) := by
  unfold State.opTick
  refine Keeps.ite (Keeps.ite (Keeps.mk_of h id id id id (fun _ => id)) ?_) h
  have hy := State.put_keeps Obj.HZ_OP_TIME (satInc 0xFFFFFFFF (x.obj Obj.HZ_OP_TIME)) h
  exact Keeps.mk_of hy id id id id (fun _ => id)

theorem State.pwmTick_keeps {s x : State} (h : Keeps s x) : Keeps s (State.pwmTick x) := by
  unfold State.pwmTick
  with_reducible
    repeat' first
      | assumption | apply State.phaseTick_keeps | refine Keeps.foldl _ ?_ (fun y a hy => ?_)

theorem State.queueServed_keeps {s x : State} (a1 : Port) (h : Keeps s x) : Keeps s (State.queueServed x a1) := by
  unfold State.queueServed
  with_reducible
    repeat' first
      | assumption | apply State.fabTally_keeps | lift_lets
      | (intro y; refine Keeps.cut s y ?_ (fun hy => ?_); (on_goal 1 => subst y); (on_goal 2 => clear_value y)) | intro y
      | exact Keeps.mk_of (by assumption) id id id id (fun _ => id)
      | refine Keeps.mk_of ?_ (by first | exact id | exact Store.wf_write _ _) id id id (fun _ => id)

theorem State.portTick_keeps {s x : State} (a1 : Port) (h : Keeps s x) : Keeps s (State.portTick x a1) := by
  unfold State.portTick
  with_reducible
    repeat' first
      | assumption | apply State.queueServed_keeps | apply State.modFab_keeps | refine Keeps.ite ?_ ?_
      | lift_lets | (intro y; refine Keeps.cut s y ?_ (fun hy => ?_); (on_goal 1 => subst y); (on_goal 2 => clear_value y)) | intro y
      | split

theorem State.ecuReset_keeps {s x : State} (h : Keeps s x) : Keeps s (State.ecuReset x) := by
  unfold State.ecuReset
  with_reducible
    repeat' first
      | assumption | refine Keeps.ite ?_ ?_ | lift_lets
      | (intro y; refine Keeps.cut s y ?_ (fun hy => ?_); (on_goal 1 => subst y); (on_goal 2 => clear_value y)) | intro y
      | exact Keeps.mk_of (by assumption) id id id id (fun _ => id)
      | refine Keeps.mk_of ?_ (by first | exact id | exact Store.wf_write _ _) id id id (fun _ => id)

theorem State.canTick_keeps {s x : State} (h : Keeps s x) : Keeps s (State.canTick x) := by
  unfold State.canTick
  with_reducible
    repeat' first
      | assumption | apply State.canLater_keeps | apply State.udsPump_keeps
      | apply State.canIntegrated_keeps | apply State.canDrain_keeps | lift_lets
      | (intro y; refine Keeps.cut s y ?_ (fun hy => ?_); (on_goal 1 => subst y); (on_goal 2 => clear_value y)) | intro y

end Sys2Proof.Machine
end

