-- ==== Sys2Proof/Laws/State.lean ====
section
/-!
SUPPORT. State.lean: what each shared update leaves of every field, and what an object reads after one.
-/
namespace Sys2Proof.Machine

/-! ### Objects after a write -/

@[simp] theorem State.obj_set_same (s : State) (k v : Nat) : (s.set k v).obj k = v := Store.read_write_same _ _ _ _
theorem State.obj_set_other (s : State) {k j : Nat} (v : Nat) (h : j ≠ k) : (s.set k v).obj j = s.obj j :=
  Store.read_write_other _ _ _ h
theorem State.obj_set (s : State) (k v j : Nat) : (s.set k v).obj j = if j = k then v else s.obj j := Store.read_write _ _ _ _ _
@[simp] theorem State.read_objs (s : State) (k : Nat) : s.objs.read Dict.default k = s.obj k := rfl
theorem State.obj_congr {s t : State} (h : t.objs = s.objs) (k : Nat) : t.obj k = s.obj k := by
  unfold State.obj
  rw [h]

/-- A journal entry marks the journal pending and changes no other object. -/
theorem State.obj_journal (s : State) (k v j : Nat) : (s.journal k v).obj j =
    if j = Obj.OD_JOURNAL ∧ s.obj Obj.OD_JOURNAL = 0 then (if s.obj Obj.FLASH_STATE = 0 then 3 else 1) else s.obj j := by
  unfold State.journal
  by_cases h : s.obj Obj.OD_JOURNAL = 0
  · have h' : ({ s with jrnl := { s.jrnl with buf := s.jrnl.buf.write (fun _ => 0) k (v + 1) } } : State).obj Obj.OD_JOURNAL = 0 := h
    simp only [h', if_true, State.obj_set, h, and_true]
    rfl
  · have h' : ¬ ({ s with jrnl := { s.jrnl with buf := s.jrnl.buf.write (fun _ => 0) k (v + 1) } } : State).obj Obj.OD_JOURNAL = 0 := h
    simp only [h', if_false, h, and_false]
    rfl

/-- Every object after a journalled write. -/
theorem State.obj_put (s : State) (k v j : Nat) : (s.put k v).obj j =
    if j = Obj.OD_JOURNAL ∧ (s.set k v).obj Obj.OD_JOURNAL = 0 then (if (s.set k v).obj Obj.FLASH_STATE = 0 then 3 else 1)
    else if j = k then v else s.obj j := by
  unfold State.put
  rw [State.obj_journal, State.obj_set s k v j]
theorem State.obj_put_same (s : State) {k : Nat} (v : Nat) (h : k ≠ Obj.OD_JOURNAL) : (s.put k v).obj k = v := by
  simp [State.obj_put, h]
theorem State.obj_put_other (s : State) {k j : Nat} (v : Nat) (h : j ≠ k) (hj : j ≠ Obj.OD_JOURNAL) : (s.put k v).obj j = s.obj j := by
  simp [State.obj_put, h, hj]
@[simp] theorem State.journal_buf (s : State) (k v : Nat) : (s.journal k v).jrnl = { s.jrnl with buf := s.jrnl.buf.write (fun _ => 0) k (v + 1) } := by
  unfold State.journal
  dsimp only
  split <;> rfl
@[simp] theorem State.put_buf (s : State) (k v : Nat) : (s.put k v).jrnl = { s.jrnl with buf := s.jrnl.buf.write (fun _ => 0) k (v + 1) } := by
  simp [State.put, State.set]

/-! ### Fields that an update leaves -/


@[simp] theorem State.set_pending (s : State) (k v : Nat) : (s.set k v).pending = s.pending := rfl
@[simp] theorem State.set_now (s : State) (k v : Nat) : (s.set k v).now = s.now := rfl
@[simp] theorem State.set_recTime (s : State) (k v : Nat) : (s.set k v).recTime = s.recTime := rfl
@[simp] theorem State.set_free (s : State) (k v : Nat) : (s.set k v).free = s.free := rfl
@[simp] theorem State.set_core (s : State) (k v : Nat) : (s.set k v).core = s.core := rfl
@[simp] theorem State.set_grp (s : State) (k v : Nat) : (s.set k v).grp = s.grp := rfl
@[simp] theorem State.set_ph (s : State) (k v : Nat) : (s.set k v).ph = s.ph := rfl
@[simp] theorem State.set_aon (s : State) (k v : Nat) : (s.set k v).aon = s.aon := rfl
@[simp] theorem State.set_cell (s : State) (k v : Nat) : (s.set k v).cell = s.cell := rfl
@[simp] theorem State.set_strat (s : State) (k v : Nat) : (s.set k v).strat = s.strat := rfl
@[simp] theorem State.set_mode (s : State) (k v : Nat) : (s.set k v).mode = s.mode := rfl
@[simp] theorem State.set_src (s : State) (k v : Nat) : (s.set k v).src = s.src := rfl
@[simp] theorem State.set_col (s : State) (k v : Nat) : (s.set k v).col = s.col := rfl
@[simp] theorem State.set_recs (s : State) (k v : Nat) : (s.set k v).recs = s.recs := rfl
@[simp] theorem State.set_spd (s : State) (k v : Nat) : (s.set k v).spd = s.spd := rfl
@[simp] theorem State.set_jrnl (s : State) (k v : Nat) : (s.set k v).jrnl = s.jrnl := rfl
@[simp] theorem State.set_otp (s : State) (k v : Nat) : (s.set k v).otp = s.otp := rfl
@[simp] theorem State.set_meas (s : State) (k v : Nat) : (s.set k v).meas = s.meas := rfl
@[simp] theorem State.set_ring (s : State) (k v : Nat) : (s.set k v).ring = s.ring := rfl
@[simp] theorem State.set_archive (s : State) (k v : Nat) : (s.set k v).archive = s.archive := rfl
@[simp] theorem State.set_thm (s : State) (k v : Nat) : (s.set k v).thm = s.thm := rfl
@[simp] theorem State.set_hz (s : State) (k v : Nat) : (s.set k v).hz = s.hz := rfl
@[simp] theorem State.set_hour (s : State) (k v : Nat) : (s.set k v).hour = s.hour := rfl
@[simp] theorem State.set_parkAcc (s : State) (k v : Nat) : (s.set k v).parkAcc = s.parkAcc := rfl
@[simp] theorem State.set_log (s : State) (k v : Nat) : (s.set k v).log = s.log := rfl
@[simp] theorem State.set_logRetry (s : State) (k v : Nat) : (s.set k v).logRetry = s.logRetry := rfl
@[simp] theorem State.set_tabs (s : State) (k v : Nat) : (s.set k v).tabs = s.tabs := rfl
@[simp] theorem State.set_env (s : State) (k v : Nat) : (s.set k v).env = s.env := rfl
@[simp] theorem State.set_chg (s : State) (k v : Nat) : (s.set k v).chg = s.chg := rfl
@[simp] theorem State.set_link (s : State) (k v : Nat) : (s.set k v).link = s.link := rfl
@[simp] theorem State.set_fab (s : State) (k v : Nat) : (s.set k v).fab = s.fab := rfl
@[simp] theorem State.set_seqs (s : State) (k v : Nat) : (s.set k v).seqs = s.seqs := rfl
@[simp] theorem State.set_flash (s : State) (k v : Nat) : (s.set k v).flash = s.flash := rfl
@[simp] theorem State.set_wd (s : State) (k v : Nat) : (s.set k v).wd = s.wd := rfl
@[simp] theorem State.set_srv (s : State) (k v : Nat) : (s.set k v).srv = s.srv := rfl
@[simp] theorem State.set_can (s : State) (k v : Nat) : (s.set k v).can = s.can := rfl
@[simp] theorem State.set_note (s : State) (k v : Nat) : (s.set k v).note = s.note := rfl
@[simp] theorem State.set_lin (s : State) (k v : Nat) : (s.set k v).lin = s.lin := rfl
@[simp] theorem State.set_uds (s : State) (k v : Nat) : (s.set k v).uds = s.uds := rfl

@[simp] theorem State.journal_pending (s : State) (k v : Nat) : (s.journal k v).pending = s.pending := by
  unfold State.journal
  dsimp only
  split <;> rfl
@[simp] theorem State.journal_now (s : State) (k v : Nat) : (s.journal k v).now = s.now := by
  unfold State.journal
  dsimp only
  split <;> rfl
@[simp] theorem State.journal_recTime (s : State) (k v : Nat) : (s.journal k v).recTime = s.recTime := by
  unfold State.journal
  dsimp only
  split <;> rfl
@[simp] theorem State.journal_free (s : State) (k v : Nat) : (s.journal k v).free = s.free := by
  unfold State.journal
  dsimp only
  split <;> rfl
@[simp] theorem State.journal_core (s : State) (k v : Nat) : (s.journal k v).core = s.core := by
  unfold State.journal
  dsimp only
  split <;> rfl
@[simp] theorem State.journal_grp (s : State) (k v : Nat) : (s.journal k v).grp = s.grp := by
  unfold State.journal
  dsimp only
  split <;> rfl
@[simp] theorem State.journal_ph (s : State) (k v : Nat) : (s.journal k v).ph = s.ph := by
  unfold State.journal
  dsimp only
  split <;> rfl
@[simp] theorem State.journal_aon (s : State) (k v : Nat) : (s.journal k v).aon = s.aon := by
  unfold State.journal
  dsimp only
  split <;> rfl
@[simp] theorem State.journal_cell (s : State) (k v : Nat) : (s.journal k v).cell = s.cell := by
  unfold State.journal
  dsimp only
  split <;> rfl
@[simp] theorem State.journal_strat (s : State) (k v : Nat) : (s.journal k v).strat = s.strat := by
  unfold State.journal
  dsimp only
  split <;> rfl
@[simp] theorem State.journal_mode (s : State) (k v : Nat) : (s.journal k v).mode = s.mode := by
  unfold State.journal
  dsimp only
  split <;> rfl
@[simp] theorem State.journal_src (s : State) (k v : Nat) : (s.journal k v).src = s.src := by
  unfold State.journal
  dsimp only
  split <;> rfl
@[simp] theorem State.journal_col (s : State) (k v : Nat) : (s.journal k v).col = s.col := by
  unfold State.journal
  dsimp only
  split <;> rfl
@[simp] theorem State.journal_recs (s : State) (k v : Nat) : (s.journal k v).recs = s.recs := by
  unfold State.journal
  dsimp only
  split <;> rfl
@[simp] theorem State.journal_spd (s : State) (k v : Nat) : (s.journal k v).spd = s.spd := by
  unfold State.journal
  dsimp only
  split <;> rfl
@[simp] theorem State.journal_otp (s : State) (k v : Nat) : (s.journal k v).otp = s.otp := by
  unfold State.journal
  dsimp only
  split <;> rfl
@[simp] theorem State.journal_meas (s : State) (k v : Nat) : (s.journal k v).meas = s.meas := by
  unfold State.journal
  dsimp only
  split <;> rfl
@[simp] theorem State.journal_ring (s : State) (k v : Nat) : (s.journal k v).ring = s.ring := by
  unfold State.journal
  dsimp only
  split <;> rfl
@[simp] theorem State.journal_archive (s : State) (k v : Nat) : (s.journal k v).archive = s.archive := by
  unfold State.journal
  dsimp only
  split <;> rfl
@[simp] theorem State.journal_thm (s : State) (k v : Nat) : (s.journal k v).thm = s.thm := by
  unfold State.journal
  dsimp only
  split <;> rfl
@[simp] theorem State.journal_hz (s : State) (k v : Nat) : (s.journal k v).hz = s.hz := by
  unfold State.journal
  dsimp only
  split <;> rfl
@[simp] theorem State.journal_hour (s : State) (k v : Nat) : (s.journal k v).hour = s.hour := by
  unfold State.journal
  dsimp only
  split <;> rfl
@[simp] theorem State.journal_parkAcc (s : State) (k v : Nat) : (s.journal k v).parkAcc = s.parkAcc := by
  unfold State.journal
  dsimp only
  split <;> rfl
@[simp] theorem State.journal_log (s : State) (k v : Nat) : (s.journal k v).log = s.log := by
  unfold State.journal
  dsimp only
  split <;> rfl
@[simp] theorem State.journal_logRetry (s : State) (k v : Nat) : (s.journal k v).logRetry = s.logRetry := by
  unfold State.journal
  dsimp only
  split <;> rfl
@[simp] theorem State.journal_tabs (s : State) (k v : Nat) : (s.journal k v).tabs = s.tabs := by
  unfold State.journal
  dsimp only
  split <;> rfl
@[simp] theorem State.journal_env (s : State) (k v : Nat) : (s.journal k v).env = s.env := by
  unfold State.journal
  dsimp only
  split <;> rfl
@[simp] theorem State.journal_chg (s : State) (k v : Nat) : (s.journal k v).chg = s.chg := by
  unfold State.journal
  dsimp only
  split <;> rfl
@[simp] theorem State.journal_link (s : State) (k v : Nat) : (s.journal k v).link = s.link := by
  unfold State.journal
  dsimp only
  split <;> rfl
@[simp] theorem State.journal_fab (s : State) (k v : Nat) : (s.journal k v).fab = s.fab := by
  unfold State.journal
  dsimp only
  split <;> rfl
@[simp] theorem State.journal_seqs (s : State) (k v : Nat) : (s.journal k v).seqs = s.seqs := by
  unfold State.journal
  dsimp only
  split <;> rfl
@[simp] theorem State.journal_flash (s : State) (k v : Nat) : (s.journal k v).flash = s.flash := by
  unfold State.journal
  dsimp only
  split <;> rfl
@[simp] theorem State.journal_wd (s : State) (k v : Nat) : (s.journal k v).wd = s.wd := by
  unfold State.journal
  dsimp only
  split <;> rfl
@[simp] theorem State.journal_srv (s : State) (k v : Nat) : (s.journal k v).srv = s.srv := by
  unfold State.journal
  dsimp only
  split <;> rfl
@[simp] theorem State.journal_can (s : State) (k v : Nat) : (s.journal k v).can = s.can := by
  unfold State.journal
  dsimp only
  split <;> rfl
@[simp] theorem State.journal_note (s : State) (k v : Nat) : (s.journal k v).note = s.note := by
  unfold State.journal
  dsimp only
  split <;> rfl
@[simp] theorem State.journal_lin (s : State) (k v : Nat) : (s.journal k v).lin = s.lin := by
  unfold State.journal
  dsimp only
  split <;> rfl
@[simp] theorem State.journal_uds (s : State) (k v : Nat) : (s.journal k v).uds = s.uds := by
  unfold State.journal
  dsimp only
  split <;> rfl

@[simp] theorem State.put_pending (s : State) (k v : Nat) : (s.put k v).pending = s.pending := by
  simp [State.put]
@[simp] theorem State.put_now (s : State) (k v : Nat) : (s.put k v).now = s.now := by
  simp [State.put]
@[simp] theorem State.put_recTime (s : State) (k v : Nat) : (s.put k v).recTime = s.recTime := by
  simp [State.put]
@[simp] theorem State.put_free (s : State) (k v : Nat) : (s.put k v).free = s.free := by
  simp [State.put]
@[simp] theorem State.put_core (s : State) (k v : Nat) : (s.put k v).core = s.core := by
  simp [State.put]
@[simp] theorem State.put_grp (s : State) (k v : Nat) : (s.put k v).grp = s.grp := by
  simp [State.put]
@[simp] theorem State.put_ph (s : State) (k v : Nat) : (s.put k v).ph = s.ph := by
  simp [State.put]
@[simp] theorem State.put_aon (s : State) (k v : Nat) : (s.put k v).aon = s.aon := by
  simp [State.put]
@[simp] theorem State.put_cell (s : State) (k v : Nat) : (s.put k v).cell = s.cell := by
  simp [State.put]
@[simp] theorem State.put_strat (s : State) (k v : Nat) : (s.put k v).strat = s.strat := by
  simp [State.put]
@[simp] theorem State.put_mode (s : State) (k v : Nat) : (s.put k v).mode = s.mode := by
  simp [State.put]
@[simp] theorem State.put_src (s : State) (k v : Nat) : (s.put k v).src = s.src := by
  simp [State.put]
@[simp] theorem State.put_col (s : State) (k v : Nat) : (s.put k v).col = s.col := by
  simp [State.put]
@[simp] theorem State.put_recs (s : State) (k v : Nat) : (s.put k v).recs = s.recs := by
  simp [State.put]
@[simp] theorem State.put_spd (s : State) (k v : Nat) : (s.put k v).spd = s.spd := by
  simp [State.put]
@[simp] theorem State.put_otp (s : State) (k v : Nat) : (s.put k v).otp = s.otp := by
  simp [State.put]
@[simp] theorem State.put_meas (s : State) (k v : Nat) : (s.put k v).meas = s.meas := by
  simp [State.put]
@[simp] theorem State.put_ring (s : State) (k v : Nat) : (s.put k v).ring = s.ring := by
  simp [State.put]
@[simp] theorem State.put_archive (s : State) (k v : Nat) : (s.put k v).archive = s.archive := by
  simp [State.put]
@[simp] theorem State.put_thm (s : State) (k v : Nat) : (s.put k v).thm = s.thm := by
  simp [State.put]
@[simp] theorem State.put_hz (s : State) (k v : Nat) : (s.put k v).hz = s.hz := by
  simp [State.put]
@[simp] theorem State.put_hour (s : State) (k v : Nat) : (s.put k v).hour = s.hour := by
  simp [State.put]
@[simp] theorem State.put_parkAcc (s : State) (k v : Nat) : (s.put k v).parkAcc = s.parkAcc := by
  simp [State.put]
@[simp] theorem State.put_log (s : State) (k v : Nat) : (s.put k v).log = s.log := by
  simp [State.put]
@[simp] theorem State.put_logRetry (s : State) (k v : Nat) : (s.put k v).logRetry = s.logRetry := by
  simp [State.put]
@[simp] theorem State.put_tabs (s : State) (k v : Nat) : (s.put k v).tabs = s.tabs := by
  simp [State.put]
@[simp] theorem State.put_env (s : State) (k v : Nat) : (s.put k v).env = s.env := by
  simp [State.put]
@[simp] theorem State.put_chg (s : State) (k v : Nat) : (s.put k v).chg = s.chg := by
  simp [State.put]
@[simp] theorem State.put_link (s : State) (k v : Nat) : (s.put k v).link = s.link := by
  simp [State.put]
@[simp] theorem State.put_fab (s : State) (k v : Nat) : (s.put k v).fab = s.fab := by
  simp [State.put]
@[simp] theorem State.put_seqs (s : State) (k v : Nat) : (s.put k v).seqs = s.seqs := by
  simp [State.put]
@[simp] theorem State.put_flash (s : State) (k v : Nat) : (s.put k v).flash = s.flash := by
  simp [State.put]
@[simp] theorem State.put_wd (s : State) (k v : Nat) : (s.put k v).wd = s.wd := by
  simp [State.put]
@[simp] theorem State.put_srv (s : State) (k v : Nat) : (s.put k v).srv = s.srv := by
  simp [State.put]
@[simp] theorem State.put_can (s : State) (k v : Nat) : (s.put k v).can = s.can := by
  simp [State.put]
@[simp] theorem State.put_note (s : State) (k v : Nat) : (s.put k v).note = s.note := by
  simp [State.put]
@[simp] theorem State.put_lin (s : State) (k v : Nat) : (s.put k v).lin = s.lin := by
  simp [State.put]
@[simp] theorem State.put_uds (s : State) (k v : Nat) : (s.put k v).uds = s.uds := by
  simp [State.put]

@[simp] theorem State.tally_pending (s : State) (k n : Nat) : (s.tally k n).pending = s.pending := rfl
@[simp] theorem State.tally_now (s : State) (k n : Nat) : (s.tally k n).now = s.now := rfl
@[simp] theorem State.tally_recTime (s : State) (k n : Nat) : (s.tally k n).recTime = s.recTime := rfl
@[simp] theorem State.tally_free (s : State) (k n : Nat) : (s.tally k n).free = s.free := rfl
@[simp] theorem State.tally_core (s : State) (k n : Nat) : (s.tally k n).core = s.core := rfl
@[simp] theorem State.tally_grp (s : State) (k n : Nat) : (s.tally k n).grp = s.grp := rfl
@[simp] theorem State.tally_ph (s : State) (k n : Nat) : (s.tally k n).ph = s.ph := rfl
@[simp] theorem State.tally_aon (s : State) (k n : Nat) : (s.tally k n).aon = s.aon := rfl
@[simp] theorem State.tally_cell (s : State) (k n : Nat) : (s.tally k n).cell = s.cell := rfl
@[simp] theorem State.tally_strat (s : State) (k n : Nat) : (s.tally k n).strat = s.strat := rfl
@[simp] theorem State.tally_mode (s : State) (k n : Nat) : (s.tally k n).mode = s.mode := rfl
@[simp] theorem State.tally_src (s : State) (k n : Nat) : (s.tally k n).src = s.src := rfl
@[simp] theorem State.tally_col (s : State) (k n : Nat) : (s.tally k n).col = s.col := rfl
@[simp] theorem State.tally_recs (s : State) (k n : Nat) : (s.tally k n).recs = s.recs := rfl
@[simp] theorem State.tally_spd (s : State) (k n : Nat) : (s.tally k n).spd = s.spd := rfl
@[simp] theorem State.tally_jrnl (s : State) (k n : Nat) : (s.tally k n).jrnl = s.jrnl := rfl
@[simp] theorem State.tally_otp (s : State) (k n : Nat) : (s.tally k n).otp = s.otp := rfl
@[simp] theorem State.tally_meas (s : State) (k n : Nat) : (s.tally k n).meas = s.meas := rfl
@[simp] theorem State.tally_ring (s : State) (k n : Nat) : (s.tally k n).ring = s.ring := rfl
@[simp] theorem State.tally_archive (s : State) (k n : Nat) : (s.tally k n).archive = s.archive := rfl
@[simp] theorem State.tally_thm (s : State) (k n : Nat) : (s.tally k n).thm = s.thm := rfl
@[simp] theorem State.tally_hz (s : State) (k n : Nat) : (s.tally k n).hz = s.hz := rfl
@[simp] theorem State.tally_hour (s : State) (k n : Nat) : (s.tally k n).hour = s.hour := rfl
@[simp] theorem State.tally_parkAcc (s : State) (k n : Nat) : (s.tally k n).parkAcc = s.parkAcc := rfl
@[simp] theorem State.tally_log (s : State) (k n : Nat) : (s.tally k n).log = s.log := rfl
@[simp] theorem State.tally_logRetry (s : State) (k n : Nat) : (s.tally k n).logRetry = s.logRetry := rfl
@[simp] theorem State.tally_tabs (s : State) (k n : Nat) : (s.tally k n).tabs = s.tabs := rfl
@[simp] theorem State.tally_env (s : State) (k n : Nat) : (s.tally k n).env = s.env := rfl
@[simp] theorem State.tally_chg (s : State) (k n : Nat) : (s.tally k n).chg = s.chg := rfl
@[simp] theorem State.tally_link (s : State) (k n : Nat) : (s.tally k n).link = s.link := rfl
@[simp] theorem State.tally_fab (s : State) (k n : Nat) : (s.tally k n).fab = s.fab := rfl
@[simp] theorem State.tally_seqs (s : State) (k n : Nat) : (s.tally k n).seqs = s.seqs := rfl
@[simp] theorem State.tally_flash (s : State) (k n : Nat) : (s.tally k n).flash = s.flash := rfl
@[simp] theorem State.tally_wd (s : State) (k n : Nat) : (s.tally k n).wd = s.wd := rfl
@[simp] theorem State.tally_srv (s : State) (k n : Nat) : (s.tally k n).srv = s.srv := rfl
@[simp] theorem State.tally_can (s : State) (k n : Nat) : (s.tally k n).can = s.can := rfl
@[simp] theorem State.tally_note (s : State) (k n : Nat) : (s.tally k n).note = s.note := rfl
@[simp] theorem State.tally_lin (s : State) (k n : Nat) : (s.tally k n).lin = s.lin := rfl
@[simp] theorem State.tally_uds (s : State) (k n : Nat) : (s.tally k n).uds = s.uds := rfl

@[simp] theorem State.count_pending (s : State) (k n : Nat) : (s.count k n).pending = s.pending := by
  simp [State.count]
@[simp] theorem State.count_now (s : State) (k n : Nat) : (s.count k n).now = s.now := by
  simp [State.count]
@[simp] theorem State.count_recTime (s : State) (k n : Nat) : (s.count k n).recTime = s.recTime := by
  simp [State.count]
@[simp] theorem State.count_free (s : State) (k n : Nat) : (s.count k n).free = s.free := by
  simp [State.count]
@[simp] theorem State.count_core (s : State) (k n : Nat) : (s.count k n).core = s.core := by
  simp [State.count]
@[simp] theorem State.count_grp (s : State) (k n : Nat) : (s.count k n).grp = s.grp := by
  simp [State.count]
@[simp] theorem State.count_ph (s : State) (k n : Nat) : (s.count k n).ph = s.ph := by
  simp [State.count]
@[simp] theorem State.count_aon (s : State) (k n : Nat) : (s.count k n).aon = s.aon := by
  simp [State.count]
@[simp] theorem State.count_cell (s : State) (k n : Nat) : (s.count k n).cell = s.cell := by
  simp [State.count]
@[simp] theorem State.count_strat (s : State) (k n : Nat) : (s.count k n).strat = s.strat := by
  simp [State.count]
@[simp] theorem State.count_mode (s : State) (k n : Nat) : (s.count k n).mode = s.mode := by
  simp [State.count]
@[simp] theorem State.count_src (s : State) (k n : Nat) : (s.count k n).src = s.src := by
  simp [State.count]
@[simp] theorem State.count_col (s : State) (k n : Nat) : (s.count k n).col = s.col := by
  simp [State.count]
@[simp] theorem State.count_recs (s : State) (k n : Nat) : (s.count k n).recs = s.recs := by
  simp [State.count]
@[simp] theorem State.count_spd (s : State) (k n : Nat) : (s.count k n).spd = s.spd := by
  simp [State.count]
@[simp] theorem State.count_otp (s : State) (k n : Nat) : (s.count k n).otp = s.otp := by
  simp [State.count]
@[simp] theorem State.count_meas (s : State) (k n : Nat) : (s.count k n).meas = s.meas := by
  simp [State.count]
@[simp] theorem State.count_ring (s : State) (k n : Nat) : (s.count k n).ring = s.ring := by
  simp [State.count]
@[simp] theorem State.count_archive (s : State) (k n : Nat) : (s.count k n).archive = s.archive := by
  simp [State.count]
@[simp] theorem State.count_thm (s : State) (k n : Nat) : (s.count k n).thm = s.thm := by
  simp [State.count]
@[simp] theorem State.count_hz (s : State) (k n : Nat) : (s.count k n).hz = s.hz := by
  simp [State.count]
@[simp] theorem State.count_hour (s : State) (k n : Nat) : (s.count k n).hour = s.hour := by
  simp [State.count]
@[simp] theorem State.count_parkAcc (s : State) (k n : Nat) : (s.count k n).parkAcc = s.parkAcc := by
  simp [State.count]
@[simp] theorem State.count_log (s : State) (k n : Nat) : (s.count k n).log = s.log := by
  simp [State.count]
@[simp] theorem State.count_logRetry (s : State) (k n : Nat) : (s.count k n).logRetry = s.logRetry := by
  simp [State.count]
@[simp] theorem State.count_tabs (s : State) (k n : Nat) : (s.count k n).tabs = s.tabs := by
  simp [State.count]
@[simp] theorem State.count_env (s : State) (k n : Nat) : (s.count k n).env = s.env := by
  simp [State.count]
@[simp] theorem State.count_chg (s : State) (k n : Nat) : (s.count k n).chg = s.chg := by
  simp [State.count]
@[simp] theorem State.count_link (s : State) (k n : Nat) : (s.count k n).link = s.link := by
  simp [State.count]
@[simp] theorem State.count_fab (s : State) (k n : Nat) : (s.count k n).fab = s.fab := by
  simp [State.count]
@[simp] theorem State.count_seqs (s : State) (k n : Nat) : (s.count k n).seqs = s.seqs := by
  simp [State.count]
@[simp] theorem State.count_flash (s : State) (k n : Nat) : (s.count k n).flash = s.flash := by
  simp [State.count]
@[simp] theorem State.count_wd (s : State) (k n : Nat) : (s.count k n).wd = s.wd := by
  simp [State.count]
@[simp] theorem State.count_srv (s : State) (k n : Nat) : (s.count k n).srv = s.srv := by
  simp [State.count]
@[simp] theorem State.count_can (s : State) (k n : Nat) : (s.count k n).can = s.can := by
  simp [State.count]
@[simp] theorem State.count_note (s : State) (k n : Nat) : (s.count k n).note = s.note := by
  simp [State.count]
@[simp] theorem State.count_lin (s : State) (k n : Nat) : (s.count k n).lin = s.lin := by
  simp [State.count]
@[simp] theorem State.count_uds (s : State) (k n : Nat) : (s.count k n).uds = s.uds := by
  simp [State.count]

@[simp] theorem State.send_pending (s : State) (m : Msg) : (s.send m).pending = s.pending := by
  unfold State.send
  split <;> rfl
@[simp] theorem State.send_now (s : State) (m : Msg) : (s.send m).now = s.now := by
  unfold State.send
  split <;> rfl
@[simp] theorem State.send_recTime (s : State) (m : Msg) : (s.send m).recTime = s.recTime := by
  unfold State.send
  split <;> rfl
@[simp] theorem State.send_free (s : State) (m : Msg) : (s.send m).free = s.free := by
  unfold State.send
  split <;> rfl
@[simp] theorem State.send_core (s : State) (m : Msg) : (s.send m).core = s.core := by
  unfold State.send
  split <;> rfl
@[simp] theorem State.send_grp (s : State) (m : Msg) : (s.send m).grp = s.grp := by
  unfold State.send
  split <;> rfl
@[simp] theorem State.send_ph (s : State) (m : Msg) : (s.send m).ph = s.ph := by
  unfold State.send
  split <;> rfl
@[simp] theorem State.send_aon (s : State) (m : Msg) : (s.send m).aon = s.aon := by
  unfold State.send
  split <;> rfl
@[simp] theorem State.send_cell (s : State) (m : Msg) : (s.send m).cell = s.cell := by
  unfold State.send
  split <;> rfl
@[simp] theorem State.send_strat (s : State) (m : Msg) : (s.send m).strat = s.strat := by
  unfold State.send
  split <;> rfl
@[simp] theorem State.send_mode (s : State) (m : Msg) : (s.send m).mode = s.mode := by
  unfold State.send
  split <;> rfl
@[simp] theorem State.send_src (s : State) (m : Msg) : (s.send m).src = s.src := by
  unfold State.send
  split <;> rfl
@[simp] theorem State.send_recs (s : State) (m : Msg) : (s.send m).recs = s.recs := by
  unfold State.send
  split <;> rfl
@[simp] theorem State.send_spd (s : State) (m : Msg) : (s.send m).spd = s.spd := by
  unfold State.send
  split <;> rfl
@[simp] theorem State.send_jrnl (s : State) (m : Msg) : (s.send m).jrnl = s.jrnl := by
  unfold State.send
  split <;> rfl
@[simp] theorem State.send_otp (s : State) (m : Msg) : (s.send m).otp = s.otp := by
  unfold State.send
  split <;> rfl
@[simp] theorem State.send_meas (s : State) (m : Msg) : (s.send m).meas = s.meas := by
  unfold State.send
  split <;> rfl
@[simp] theorem State.send_ring (s : State) (m : Msg) : (s.send m).ring = s.ring := by
  unfold State.send
  split <;> rfl
@[simp] theorem State.send_archive (s : State) (m : Msg) : (s.send m).archive = s.archive := by
  unfold State.send
  split <;> rfl
@[simp] theorem State.send_thm (s : State) (m : Msg) : (s.send m).thm = s.thm := by
  unfold State.send
  split <;> rfl
@[simp] theorem State.send_hz (s : State) (m : Msg) : (s.send m).hz = s.hz := by
  unfold State.send
  split <;> rfl
@[simp] theorem State.send_hour (s : State) (m : Msg) : (s.send m).hour = s.hour := by
  unfold State.send
  split <;> rfl
@[simp] theorem State.send_parkAcc (s : State) (m : Msg) : (s.send m).parkAcc = s.parkAcc := by
  unfold State.send
  split <;> rfl
@[simp] theorem State.send_log (s : State) (m : Msg) : (s.send m).log = s.log := by
  unfold State.send
  split <;> rfl
@[simp] theorem State.send_logRetry (s : State) (m : Msg) : (s.send m).logRetry = s.logRetry := by
  unfold State.send
  split <;> rfl
@[simp] theorem State.send_tabs (s : State) (m : Msg) : (s.send m).tabs = s.tabs := by
  unfold State.send
  split <;> rfl
@[simp] theorem State.send_env (s : State) (m : Msg) : (s.send m).env = s.env := by
  unfold State.send
  split <;> rfl
@[simp] theorem State.send_chg (s : State) (m : Msg) : (s.send m).chg = s.chg := by
  unfold State.send
  split <;> rfl
@[simp] theorem State.send_link (s : State) (m : Msg) : (s.send m).link = s.link := by
  unfold State.send
  split <;> rfl
@[simp] theorem State.send_fab (s : State) (m : Msg) : (s.send m).fab = s.fab := by
  unfold State.send
  split <;> rfl
@[simp] theorem State.send_seqs (s : State) (m : Msg) : (s.send m).seqs = s.seqs := by
  unfold State.send
  split <;> rfl
@[simp] theorem State.send_flash (s : State) (m : Msg) : (s.send m).flash = s.flash := by
  unfold State.send
  split <;> rfl
@[simp] theorem State.send_wd (s : State) (m : Msg) : (s.send m).wd = s.wd := by
  unfold State.send
  split <;> rfl
@[simp] theorem State.send_srv (s : State) (m : Msg) : (s.send m).srv = s.srv := by
  unfold State.send
  split <;> rfl
@[simp] theorem State.send_can (s : State) (m : Msg) : (s.send m).can = s.can := by
  unfold State.send
  split <;> rfl
@[simp] theorem State.send_note (s : State) (m : Msg) : (s.send m).note = s.note := by
  unfold State.send
  split <;> rfl
@[simp] theorem State.send_lin (s : State) (m : Msg) : (s.send m).lin = s.lin := by
  unfold State.send
  split <;> rfl
@[simp] theorem State.send_uds (s : State) (m : Msg) : (s.send m).uds = s.uds := by
  unfold State.send
  split <;> rfl

@[simp] theorem State.raise_pending (s : State) (a b c : Nat) : (s.raise a b c).pending = s.pending := by
  simp [State.raise]
@[simp] theorem State.raise_now (s : State) (a b c : Nat) : (s.raise a b c).now = s.now := by
  simp [State.raise]
@[simp] theorem State.raise_recTime (s : State) (a b c : Nat) : (s.raise a b c).recTime = s.recTime := by
  simp [State.raise]
@[simp] theorem State.raise_free (s : State) (a b c : Nat) : (s.raise a b c).free = s.free := by
  simp [State.raise]
@[simp] theorem State.raise_core (s : State) (a b c : Nat) : (s.raise a b c).core = s.core := by
  simp [State.raise]
@[simp] theorem State.raise_grp (s : State) (a b c : Nat) : (s.raise a b c).grp = s.grp := by
  simp [State.raise]
@[simp] theorem State.raise_ph (s : State) (a b c : Nat) : (s.raise a b c).ph = s.ph := by
  simp [State.raise]
@[simp] theorem State.raise_aon (s : State) (a b c : Nat) : (s.raise a b c).aon = s.aon := by
  simp [State.raise]
@[simp] theorem State.raise_cell (s : State) (a b c : Nat) : (s.raise a b c).cell = s.cell := by
  simp [State.raise]
@[simp] theorem State.raise_strat (s : State) (a b c : Nat) : (s.raise a b c).strat = s.strat := by
  simp [State.raise]
@[simp] theorem State.raise_mode (s : State) (a b c : Nat) : (s.raise a b c).mode = s.mode := by
  simp [State.raise]
@[simp] theorem State.raise_src (s : State) (a b c : Nat) : (s.raise a b c).src = s.src := by
  simp [State.raise]
@[simp] theorem State.raise_recs (s : State) (a b c : Nat) : (s.raise a b c).recs = s.recs := by
  simp [State.raise]
@[simp] theorem State.raise_spd (s : State) (a b c : Nat) : (s.raise a b c).spd = s.spd := by
  simp [State.raise]
@[simp] theorem State.raise_jrnl (s : State) (a b c : Nat) : (s.raise a b c).jrnl = s.jrnl := by
  simp [State.raise]
@[simp] theorem State.raise_otp (s : State) (a b c : Nat) : (s.raise a b c).otp = s.otp := by
  simp [State.raise]
@[simp] theorem State.raise_meas (s : State) (a b c : Nat) : (s.raise a b c).meas = s.meas := by
  simp [State.raise]
@[simp] theorem State.raise_ring (s : State) (a b c : Nat) : (s.raise a b c).ring = s.ring := by
  simp [State.raise]
@[simp] theorem State.raise_archive (s : State) (a b c : Nat) : (s.raise a b c).archive = s.archive := by
  simp [State.raise]
@[simp] theorem State.raise_thm (s : State) (a b c : Nat) : (s.raise a b c).thm = s.thm := by
  simp [State.raise]
@[simp] theorem State.raise_hz (s : State) (a b c : Nat) : (s.raise a b c).hz = s.hz := by
  simp [State.raise]
@[simp] theorem State.raise_hour (s : State) (a b c : Nat) : (s.raise a b c).hour = s.hour := by
  simp [State.raise]
@[simp] theorem State.raise_parkAcc (s : State) (a b c : Nat) : (s.raise a b c).parkAcc = s.parkAcc := by
  simp [State.raise]
@[simp] theorem State.raise_log (s : State) (a b c : Nat) : (s.raise a b c).log = s.log := by
  simp [State.raise]
@[simp] theorem State.raise_logRetry (s : State) (a b c : Nat) : (s.raise a b c).logRetry = s.logRetry := by
  simp [State.raise]
@[simp] theorem State.raise_tabs (s : State) (a b c : Nat) : (s.raise a b c).tabs = s.tabs := by
  simp [State.raise]
@[simp] theorem State.raise_env (s : State) (a b c : Nat) : (s.raise a b c).env = s.env := by
  simp [State.raise]
@[simp] theorem State.raise_chg (s : State) (a b c : Nat) : (s.raise a b c).chg = s.chg := by
  simp [State.raise]
@[simp] theorem State.raise_link (s : State) (a b c : Nat) : (s.raise a b c).link = s.link := by
  simp [State.raise]
@[simp] theorem State.raise_fab (s : State) (a b c : Nat) : (s.raise a b c).fab = s.fab := by
  simp [State.raise]
@[simp] theorem State.raise_seqs (s : State) (a b c : Nat) : (s.raise a b c).seqs = s.seqs := by
  simp [State.raise]
@[simp] theorem State.raise_flash (s : State) (a b c : Nat) : (s.raise a b c).flash = s.flash := by
  simp [State.raise]
@[simp] theorem State.raise_wd (s : State) (a b c : Nat) : (s.raise a b c).wd = s.wd := by
  simp [State.raise]
@[simp] theorem State.raise_srv (s : State) (a b c : Nat) : (s.raise a b c).srv = s.srv := by
  simp [State.raise]
@[simp] theorem State.raise_can (s : State) (a b c : Nat) : (s.raise a b c).can = s.can := by
  simp [State.raise]
@[simp] theorem State.raise_note (s : State) (a b c : Nat) : (s.raise a b c).note = s.note := by
  simp [State.raise]
@[simp] theorem State.raise_lin (s : State) (a b c : Nat) : (s.raise a b c).lin = s.lin := by
  simp [State.raise]
@[simp] theorem State.raise_uds (s : State) (a b c : Nat) : (s.raise a b c).uds = s.uds := by
  simp [State.raise]

@[simp] theorem State.raiseC_pending (s : State) (a b c : Nat) : (s.raiseC a b c).pending = s.pending := by
  unfold State.raiseC
  dsimp only
  split <;> simp
@[simp] theorem State.raiseC_now (s : State) (a b c : Nat) : (s.raiseC a b c).now = s.now := by
  unfold State.raiseC
  dsimp only
  split <;> simp
@[simp] theorem State.raiseC_recTime (s : State) (a b c : Nat) : (s.raiseC a b c).recTime = s.recTime := by
  unfold State.raiseC
  dsimp only
  split <;> simp
@[simp] theorem State.raiseC_free (s : State) (a b c : Nat) : (s.raiseC a b c).free = s.free := by
  unfold State.raiseC
  dsimp only
  split <;> simp
@[simp] theorem State.raiseC_core (s : State) (a b c : Nat) : (s.raiseC a b c).core = s.core := by
  unfold State.raiseC
  dsimp only
  split <;> simp
@[simp] theorem State.raiseC_grp (s : State) (a b c : Nat) : (s.raiseC a b c).grp = s.grp := by
  unfold State.raiseC
  dsimp only
  split <;> simp
@[simp] theorem State.raiseC_ph (s : State) (a b c : Nat) : (s.raiseC a b c).ph = s.ph := by
  unfold State.raiseC
  dsimp only
  split <;> simp
@[simp] theorem State.raiseC_aon (s : State) (a b c : Nat) : (s.raiseC a b c).aon = s.aon := by
  unfold State.raiseC
  dsimp only
  split <;> simp
@[simp] theorem State.raiseC_cell (s : State) (a b c : Nat) : (s.raiseC a b c).cell = s.cell := by
  unfold State.raiseC
  dsimp only
  split <;> simp
@[simp] theorem State.raiseC_strat (s : State) (a b c : Nat) : (s.raiseC a b c).strat = s.strat := by
  unfold State.raiseC
  dsimp only
  split <;> simp
@[simp] theorem State.raiseC_mode (s : State) (a b c : Nat) : (s.raiseC a b c).mode = s.mode := by
  unfold State.raiseC
  dsimp only
  split <;> simp
@[simp] theorem State.raiseC_src (s : State) (a b c : Nat) : (s.raiseC a b c).src = s.src := by
  unfold State.raiseC
  dsimp only
  split <;> simp
@[simp] theorem State.raiseC_recs (s : State) (a b c : Nat) : (s.raiseC a b c).recs = s.recs := by
  unfold State.raiseC
  dsimp only
  split <;> simp
@[simp] theorem State.raiseC_spd (s : State) (a b c : Nat) : (s.raiseC a b c).spd = s.spd := by
  unfold State.raiseC
  dsimp only
  split <;> simp
@[simp] theorem State.raiseC_jrnl (s : State) (a b c : Nat) : (s.raiseC a b c).jrnl = s.jrnl := by
  unfold State.raiseC
  dsimp only
  split <;> simp
@[simp] theorem State.raiseC_otp (s : State) (a b c : Nat) : (s.raiseC a b c).otp = s.otp := by
  unfold State.raiseC
  dsimp only
  split <;> simp
@[simp] theorem State.raiseC_meas (s : State) (a b c : Nat) : (s.raiseC a b c).meas = s.meas := by
  unfold State.raiseC
  dsimp only
  split <;> simp
@[simp] theorem State.raiseC_ring (s : State) (a b c : Nat) : (s.raiseC a b c).ring = s.ring := by
  unfold State.raiseC
  dsimp only
  split <;> simp
@[simp] theorem State.raiseC_archive (s : State) (a b c : Nat) : (s.raiseC a b c).archive = s.archive := by
  unfold State.raiseC
  dsimp only
  split <;> simp
@[simp] theorem State.raiseC_thm (s : State) (a b c : Nat) : (s.raiseC a b c).thm = s.thm := by
  unfold State.raiseC
  dsimp only
  split <;> simp
@[simp] theorem State.raiseC_hz (s : State) (a b c : Nat) : (s.raiseC a b c).hz = s.hz := by
  unfold State.raiseC
  dsimp only
  split <;> simp
@[simp] theorem State.raiseC_hour (s : State) (a b c : Nat) : (s.raiseC a b c).hour = s.hour := by
  unfold State.raiseC
  dsimp only
  split <;> simp
@[simp] theorem State.raiseC_parkAcc (s : State) (a b c : Nat) : (s.raiseC a b c).parkAcc = s.parkAcc := by
  unfold State.raiseC
  dsimp only
  split <;> simp
@[simp] theorem State.raiseC_log (s : State) (a b c : Nat) : (s.raiseC a b c).log = s.log := by
  unfold State.raiseC
  dsimp only
  split <;> simp
@[simp] theorem State.raiseC_logRetry (s : State) (a b c : Nat) : (s.raiseC a b c).logRetry = s.logRetry := by
  unfold State.raiseC
  dsimp only
  split <;> simp
@[simp] theorem State.raiseC_tabs (s : State) (a b c : Nat) : (s.raiseC a b c).tabs = s.tabs := by
  unfold State.raiseC
  dsimp only
  split <;> simp
@[simp] theorem State.raiseC_env (s : State) (a b c : Nat) : (s.raiseC a b c).env = s.env := by
  unfold State.raiseC
  dsimp only
  split <;> simp
@[simp] theorem State.raiseC_chg (s : State) (a b c : Nat) : (s.raiseC a b c).chg = s.chg := by
  unfold State.raiseC
  dsimp only
  split <;> simp
@[simp] theorem State.raiseC_link (s : State) (a b c : Nat) : (s.raiseC a b c).link = s.link := by
  unfold State.raiseC
  dsimp only
  split <;> simp
@[simp] theorem State.raiseC_fab (s : State) (a b c : Nat) : (s.raiseC a b c).fab = s.fab := by
  unfold State.raiseC
  dsimp only
  split <;> simp
@[simp] theorem State.raiseC_seqs (s : State) (a b c : Nat) : (s.raiseC a b c).seqs = s.seqs := by
  unfold State.raiseC
  dsimp only
  split <;> simp
@[simp] theorem State.raiseC_flash (s : State) (a b c : Nat) : (s.raiseC a b c).flash = s.flash := by
  unfold State.raiseC
  dsimp only
  split <;> simp
@[simp] theorem State.raiseC_wd (s : State) (a b c : Nat) : (s.raiseC a b c).wd = s.wd := by
  unfold State.raiseC
  dsimp only
  split <;> simp
@[simp] theorem State.raiseC_srv (s : State) (a b c : Nat) : (s.raiseC a b c).srv = s.srv := by
  unfold State.raiseC
  dsimp only
  split <;> simp
@[simp] theorem State.raiseC_can (s : State) (a b c : Nat) : (s.raiseC a b c).can = s.can := by
  unfold State.raiseC
  dsimp only
  split <;> simp
@[simp] theorem State.raiseC_note (s : State) (a b c : Nat) : (s.raiseC a b c).note = s.note := by
  unfold State.raiseC
  dsimp only
  split <;> simp
@[simp] theorem State.raiseC_lin (s : State) (a b c : Nat) : (s.raiseC a b c).lin = s.lin := by
  unfold State.raiseC
  dsimp only
  split <;> simp
@[simp] theorem State.raiseC_uds (s : State) (a b c : Nat) : (s.raiseC a b c).uds = s.uds := by
  unfold State.raiseC
  dsimp only
  split <;> simp

@[simp] theorem State.raise1_pending (s : State) (a b c : Nat) : (s.raise1 a b c).pending = s.pending := by
  unfold State.raise1
  split <;> simp
@[simp] theorem State.raise1_now (s : State) (a b c : Nat) : (s.raise1 a b c).now = s.now := by
  unfold State.raise1
  split <;> simp
@[simp] theorem State.raise1_recTime (s : State) (a b c : Nat) : (s.raise1 a b c).recTime = s.recTime := by
  unfold State.raise1
  split <;> simp
@[simp] theorem State.raise1_free (s : State) (a b c : Nat) : (s.raise1 a b c).free = s.free := by
  unfold State.raise1
  split <;> simp
@[simp] theorem State.raise1_core (s : State) (a b c : Nat) : (s.raise1 a b c).core = s.core := by
  unfold State.raise1
  split <;> simp
@[simp] theorem State.raise1_grp (s : State) (a b c : Nat) : (s.raise1 a b c).grp = s.grp := by
  unfold State.raise1
  split <;> simp
@[simp] theorem State.raise1_ph (s : State) (a b c : Nat) : (s.raise1 a b c).ph = s.ph := by
  unfold State.raise1
  split <;> simp
@[simp] theorem State.raise1_aon (s : State) (a b c : Nat) : (s.raise1 a b c).aon = s.aon := by
  unfold State.raise1
  split <;> simp
@[simp] theorem State.raise1_cell (s : State) (a b c : Nat) : (s.raise1 a b c).cell = s.cell := by
  unfold State.raise1
  split <;> simp
@[simp] theorem State.raise1_strat (s : State) (a b c : Nat) : (s.raise1 a b c).strat = s.strat := by
  unfold State.raise1
  split <;> simp
@[simp] theorem State.raise1_mode (s : State) (a b c : Nat) : (s.raise1 a b c).mode = s.mode := by
  unfold State.raise1
  split <;> simp
@[simp] theorem State.raise1_src (s : State) (a b c : Nat) : (s.raise1 a b c).src = s.src := by
  unfold State.raise1
  split <;> simp
@[simp] theorem State.raise1_recs (s : State) (a b c : Nat) : (s.raise1 a b c).recs = s.recs := by
  unfold State.raise1
  split <;> simp
@[simp] theorem State.raise1_spd (s : State) (a b c : Nat) : (s.raise1 a b c).spd = s.spd := by
  unfold State.raise1
  split <;> simp
@[simp] theorem State.raise1_jrnl (s : State) (a b c : Nat) : (s.raise1 a b c).jrnl = s.jrnl := by
  unfold State.raise1
  split <;> simp
@[simp] theorem State.raise1_otp (s : State) (a b c : Nat) : (s.raise1 a b c).otp = s.otp := by
  unfold State.raise1
  split <;> simp
@[simp] theorem State.raise1_meas (s : State) (a b c : Nat) : (s.raise1 a b c).meas = s.meas := by
  unfold State.raise1
  split <;> simp
@[simp] theorem State.raise1_ring (s : State) (a b c : Nat) : (s.raise1 a b c).ring = s.ring := by
  unfold State.raise1
  split <;> simp
@[simp] theorem State.raise1_archive (s : State) (a b c : Nat) : (s.raise1 a b c).archive = s.archive := by
  unfold State.raise1
  split <;> simp
@[simp] theorem State.raise1_thm (s : State) (a b c : Nat) : (s.raise1 a b c).thm = s.thm := by
  unfold State.raise1
  split <;> simp
@[simp] theorem State.raise1_hz (s : State) (a b c : Nat) : (s.raise1 a b c).hz = s.hz := by
  unfold State.raise1
  split <;> simp
@[simp] theorem State.raise1_hour (s : State) (a b c : Nat) : (s.raise1 a b c).hour = s.hour := by
  unfold State.raise1
  split <;> simp
@[simp] theorem State.raise1_parkAcc (s : State) (a b c : Nat) : (s.raise1 a b c).parkAcc = s.parkAcc := by
  unfold State.raise1
  split <;> simp
@[simp] theorem State.raise1_log (s : State) (a b c : Nat) : (s.raise1 a b c).log = s.log := by
  unfold State.raise1
  split <;> simp
@[simp] theorem State.raise1_logRetry (s : State) (a b c : Nat) : (s.raise1 a b c).logRetry = s.logRetry := by
  unfold State.raise1
  split <;> simp
@[simp] theorem State.raise1_tabs (s : State) (a b c : Nat) : (s.raise1 a b c).tabs = s.tabs := by
  unfold State.raise1
  split <;> simp
@[simp] theorem State.raise1_env (s : State) (a b c : Nat) : (s.raise1 a b c).env = s.env := by
  unfold State.raise1
  split <;> simp
@[simp] theorem State.raise1_chg (s : State) (a b c : Nat) : (s.raise1 a b c).chg = s.chg := by
  unfold State.raise1
  split <;> simp
@[simp] theorem State.raise1_link (s : State) (a b c : Nat) : (s.raise1 a b c).link = s.link := by
  unfold State.raise1
  split <;> simp
@[simp] theorem State.raise1_fab (s : State) (a b c : Nat) : (s.raise1 a b c).fab = s.fab := by
  unfold State.raise1
  split <;> simp
@[simp] theorem State.raise1_seqs (s : State) (a b c : Nat) : (s.raise1 a b c).seqs = s.seqs := by
  unfold State.raise1
  split <;> simp
@[simp] theorem State.raise1_flash (s : State) (a b c : Nat) : (s.raise1 a b c).flash = s.flash := by
  unfold State.raise1
  split <;> simp
@[simp] theorem State.raise1_wd (s : State) (a b c : Nat) : (s.raise1 a b c).wd = s.wd := by
  unfold State.raise1
  split <;> simp
@[simp] theorem State.raise1_srv (s : State) (a b c : Nat) : (s.raise1 a b c).srv = s.srv := by
  unfold State.raise1
  split <;> simp
@[simp] theorem State.raise1_can (s : State) (a b c : Nat) : (s.raise1 a b c).can = s.can := by
  unfold State.raise1
  split <;> simp
@[simp] theorem State.raise1_note (s : State) (a b c : Nat) : (s.raise1 a b c).note = s.note := by
  unfold State.raise1
  split <;> simp
@[simp] theorem State.raise1_lin (s : State) (a b c : Nat) : (s.raise1 a b c).lin = s.lin := by
  unfold State.raise1
  split <;> simp
@[simp] theorem State.raise1_uds (s : State) (a b c : Nat) : (s.raise1 a b c).uds = s.uds := by
  unfold State.raise1
  split <;> simp

@[simp] theorem State.modG_pending (s : State) (g : Group) (f : GroupSt → GroupSt) : (s.modG g f).pending = s.pending := rfl
@[simp] theorem State.modG_now (s : State) (g : Group) (f : GroupSt → GroupSt) : (s.modG g f).now = s.now := rfl
@[simp] theorem State.modG_recTime (s : State) (g : Group) (f : GroupSt → GroupSt) : (s.modG g f).recTime = s.recTime := rfl
@[simp] theorem State.modG_free (s : State) (g : Group) (f : GroupSt → GroupSt) : (s.modG g f).free = s.free := rfl
@[simp] theorem State.modG_objs (s : State) (g : Group) (f : GroupSt → GroupSt) : (s.modG g f).objs = s.objs := rfl
@[simp] theorem State.modG_core (s : State) (g : Group) (f : GroupSt → GroupSt) : (s.modG g f).core = s.core := rfl
@[simp] theorem State.modG_ph (s : State) (g : Group) (f : GroupSt → GroupSt) : (s.modG g f).ph = s.ph := rfl
@[simp] theorem State.modG_aon (s : State) (g : Group) (f : GroupSt → GroupSt) : (s.modG g f).aon = s.aon := rfl
@[simp] theorem State.modG_cell (s : State) (g : Group) (f : GroupSt → GroupSt) : (s.modG g f).cell = s.cell := rfl
@[simp] theorem State.modG_strat (s : State) (g : Group) (f : GroupSt → GroupSt) : (s.modG g f).strat = s.strat := rfl
@[simp] theorem State.modG_mode (s : State) (g : Group) (f : GroupSt → GroupSt) : (s.modG g f).mode = s.mode := rfl
@[simp] theorem State.modG_src (s : State) (g : Group) (f : GroupSt → GroupSt) : (s.modG g f).src = s.src := rfl
@[simp] theorem State.modG_col (s : State) (g : Group) (f : GroupSt → GroupSt) : (s.modG g f).col = s.col := rfl
@[simp] theorem State.modG_recs (s : State) (g : Group) (f : GroupSt → GroupSt) : (s.modG g f).recs = s.recs := rfl
@[simp] theorem State.modG_spd (s : State) (g : Group) (f : GroupSt → GroupSt) : (s.modG g f).spd = s.spd := rfl
@[simp] theorem State.modG_jrnl (s : State) (g : Group) (f : GroupSt → GroupSt) : (s.modG g f).jrnl = s.jrnl := rfl
@[simp] theorem State.modG_otp (s : State) (g : Group) (f : GroupSt → GroupSt) : (s.modG g f).otp = s.otp := rfl
@[simp] theorem State.modG_meas (s : State) (g : Group) (f : GroupSt → GroupSt) : (s.modG g f).meas = s.meas := rfl
@[simp] theorem State.modG_ring (s : State) (g : Group) (f : GroupSt → GroupSt) : (s.modG g f).ring = s.ring := rfl
@[simp] theorem State.modG_archive (s : State) (g : Group) (f : GroupSt → GroupSt) : (s.modG g f).archive = s.archive := rfl
@[simp] theorem State.modG_thm (s : State) (g : Group) (f : GroupSt → GroupSt) : (s.modG g f).thm = s.thm := rfl
@[simp] theorem State.modG_hz (s : State) (g : Group) (f : GroupSt → GroupSt) : (s.modG g f).hz = s.hz := rfl
@[simp] theorem State.modG_hour (s : State) (g : Group) (f : GroupSt → GroupSt) : (s.modG g f).hour = s.hour := rfl
@[simp] theorem State.modG_parkAcc (s : State) (g : Group) (f : GroupSt → GroupSt) : (s.modG g f).parkAcc = s.parkAcc := rfl
@[simp] theorem State.modG_log (s : State) (g : Group) (f : GroupSt → GroupSt) : (s.modG g f).log = s.log := rfl
@[simp] theorem State.modG_logRetry (s : State) (g : Group) (f : GroupSt → GroupSt) : (s.modG g f).logRetry = s.logRetry := rfl
@[simp] theorem State.modG_tabs (s : State) (g : Group) (f : GroupSt → GroupSt) : (s.modG g f).tabs = s.tabs := rfl
@[simp] theorem State.modG_env (s : State) (g : Group) (f : GroupSt → GroupSt) : (s.modG g f).env = s.env := rfl
@[simp] theorem State.modG_chg (s : State) (g : Group) (f : GroupSt → GroupSt) : (s.modG g f).chg = s.chg := rfl
@[simp] theorem State.modG_link (s : State) (g : Group) (f : GroupSt → GroupSt) : (s.modG g f).link = s.link := rfl
@[simp] theorem State.modG_fab (s : State) (g : Group) (f : GroupSt → GroupSt) : (s.modG g f).fab = s.fab := rfl
@[simp] theorem State.modG_seqs (s : State) (g : Group) (f : GroupSt → GroupSt) : (s.modG g f).seqs = s.seqs := rfl
@[simp] theorem State.modG_flash (s : State) (g : Group) (f : GroupSt → GroupSt) : (s.modG g f).flash = s.flash := rfl
@[simp] theorem State.modG_wd (s : State) (g : Group) (f : GroupSt → GroupSt) : (s.modG g f).wd = s.wd := rfl
@[simp] theorem State.modG_srv (s : State) (g : Group) (f : GroupSt → GroupSt) : (s.modG g f).srv = s.srv := rfl
@[simp] theorem State.modG_can (s : State) (g : Group) (f : GroupSt → GroupSt) : (s.modG g f).can = s.can := rfl
@[simp] theorem State.modG_note (s : State) (g : Group) (f : GroupSt → GroupSt) : (s.modG g f).note = s.note := rfl
@[simp] theorem State.modG_lin (s : State) (g : Group) (f : GroupSt → GroupSt) : (s.modG g f).lin = s.lin := rfl
@[simp] theorem State.modG_uds (s : State) (g : Group) (f : GroupSt → GroupSt) : (s.modG g f).uds = s.uds := rfl

@[simp] theorem State.modP_pending (s : State) (p : Nat) (f : Phase → Phase) : (s.modP p f).pending = s.pending := rfl
@[simp] theorem State.modP_now (s : State) (p : Nat) (f : Phase → Phase) : (s.modP p f).now = s.now := rfl
@[simp] theorem State.modP_recTime (s : State) (p : Nat) (f : Phase → Phase) : (s.modP p f).recTime = s.recTime := rfl
@[simp] theorem State.modP_free (s : State) (p : Nat) (f : Phase → Phase) : (s.modP p f).free = s.free := rfl
@[simp] theorem State.modP_objs (s : State) (p : Nat) (f : Phase → Phase) : (s.modP p f).objs = s.objs := rfl
@[simp] theorem State.modP_core (s : State) (p : Nat) (f : Phase → Phase) : (s.modP p f).core = s.core := rfl
@[simp] theorem State.modP_grp (s : State) (p : Nat) (f : Phase → Phase) : (s.modP p f).grp = s.grp := rfl
@[simp] theorem State.modP_aon (s : State) (p : Nat) (f : Phase → Phase) : (s.modP p f).aon = s.aon := rfl
@[simp] theorem State.modP_cell (s : State) (p : Nat) (f : Phase → Phase) : (s.modP p f).cell = s.cell := rfl
@[simp] theorem State.modP_strat (s : State) (p : Nat) (f : Phase → Phase) : (s.modP p f).strat = s.strat := rfl
@[simp] theorem State.modP_mode (s : State) (p : Nat) (f : Phase → Phase) : (s.modP p f).mode = s.mode := rfl
@[simp] theorem State.modP_src (s : State) (p : Nat) (f : Phase → Phase) : (s.modP p f).src = s.src := rfl
@[simp] theorem State.modP_col (s : State) (p : Nat) (f : Phase → Phase) : (s.modP p f).col = s.col := rfl
@[simp] theorem State.modP_recs (s : State) (p : Nat) (f : Phase → Phase) : (s.modP p f).recs = s.recs := rfl
@[simp] theorem State.modP_spd (s : State) (p : Nat) (f : Phase → Phase) : (s.modP p f).spd = s.spd := rfl
@[simp] theorem State.modP_jrnl (s : State) (p : Nat) (f : Phase → Phase) : (s.modP p f).jrnl = s.jrnl := rfl
@[simp] theorem State.modP_otp (s : State) (p : Nat) (f : Phase → Phase) : (s.modP p f).otp = s.otp := rfl
@[simp] theorem State.modP_meas (s : State) (p : Nat) (f : Phase → Phase) : (s.modP p f).meas = s.meas := rfl
@[simp] theorem State.modP_ring (s : State) (p : Nat) (f : Phase → Phase) : (s.modP p f).ring = s.ring := rfl
@[simp] theorem State.modP_archive (s : State) (p : Nat) (f : Phase → Phase) : (s.modP p f).archive = s.archive := rfl
@[simp] theorem State.modP_thm (s : State) (p : Nat) (f : Phase → Phase) : (s.modP p f).thm = s.thm := rfl
@[simp] theorem State.modP_hz (s : State) (p : Nat) (f : Phase → Phase) : (s.modP p f).hz = s.hz := rfl
@[simp] theorem State.modP_hour (s : State) (p : Nat) (f : Phase → Phase) : (s.modP p f).hour = s.hour := rfl
@[simp] theorem State.modP_parkAcc (s : State) (p : Nat) (f : Phase → Phase) : (s.modP p f).parkAcc = s.parkAcc := rfl
@[simp] theorem State.modP_log (s : State) (p : Nat) (f : Phase → Phase) : (s.modP p f).log = s.log := rfl
@[simp] theorem State.modP_logRetry (s : State) (p : Nat) (f : Phase → Phase) : (s.modP p f).logRetry = s.logRetry := rfl
@[simp] theorem State.modP_tabs (s : State) (p : Nat) (f : Phase → Phase) : (s.modP p f).tabs = s.tabs := rfl
@[simp] theorem State.modP_env (s : State) (p : Nat) (f : Phase → Phase) : (s.modP p f).env = s.env := rfl
@[simp] theorem State.modP_chg (s : State) (p : Nat) (f : Phase → Phase) : (s.modP p f).chg = s.chg := rfl
@[simp] theorem State.modP_link (s : State) (p : Nat) (f : Phase → Phase) : (s.modP p f).link = s.link := rfl
@[simp] theorem State.modP_fab (s : State) (p : Nat) (f : Phase → Phase) : (s.modP p f).fab = s.fab := rfl
@[simp] theorem State.modP_seqs (s : State) (p : Nat) (f : Phase → Phase) : (s.modP p f).seqs = s.seqs := rfl
@[simp] theorem State.modP_flash (s : State) (p : Nat) (f : Phase → Phase) : (s.modP p f).flash = s.flash := rfl
@[simp] theorem State.modP_wd (s : State) (p : Nat) (f : Phase → Phase) : (s.modP p f).wd = s.wd := rfl
@[simp] theorem State.modP_srv (s : State) (p : Nat) (f : Phase → Phase) : (s.modP p f).srv = s.srv := rfl
@[simp] theorem State.modP_can (s : State) (p : Nat) (f : Phase → Phase) : (s.modP p f).can = s.can := rfl
@[simp] theorem State.modP_note (s : State) (p : Nat) (f : Phase → Phase) : (s.modP p f).note = s.note := rfl
@[simp] theorem State.modP_lin (s : State) (p : Nat) (f : Phase → Phase) : (s.modP p f).lin = s.lin := rfl
@[simp] theorem State.modP_uds (s : State) (p : Nat) (f : Phase → Phase) : (s.modP p f).uds = s.uds := rfl

end Sys2Proof.Machine
end

