-- ==== Sys2Proof/Laws/Reports.lean ====
section
/-!
SUPPORT. Reports.lean: the operations that offer fault messages and take event records do nothing else.
-/
namespace Sys2Proof.Machine
namespace State

theorem Reports.refl (s : State) : s.Reports s := ⟨rfl, fun _ _ => rfl⟩

theorem Reports.trans {s t u : State} (h : s.Reports t) (k : t.Reports u) : s.Reports u := by
  obtain ⟨h1, h2⟩ := h
  obtain ⟨k1, k2⟩ := k
  refine ⟨?_, fun j hj => (k2 j hj).trans (h2 j hj)⟩
  rw [k1, h1]

theorem Reports.obj {s t : State} (h : s.Reports t) {k : Nat} (hk : k ≠ Obj.FAULT_LOST) : t.obj k = s.obj k := h.2 k (by simpa using hk)

theorem Reports.foldl {α : Type} {s x : State} {f : State → α → State} (l : List α) (h : s.Reports x)
    (hf : ∀ (y : State) (a : α), y.Reports (f y a)) : s.Reports (l.foldl f x) := by
  induction l generalizing x with
  | nil => exact h
  | cons a l ih => exact ih (h.trans (hf x a))

theorem Reports.ite {s a b : State} {c : Prop} [Decidable c] (ha : s.Reports a) (hb : s.Reports b) : s.Reports (if c then a else b) := by
  split <;> assumption

/-- Changes of the collector's logic and of the recorder's ring. -/
theorem reports_col (s : State) (c : Collector) : s.Reports { s with col := c } := ⟨rfl, fun _ _ => rfl⟩
theorem reports_ring (s : State) (r : Recorder) : s.Reports { s with ring := r } := ⟨rfl, fun _ _ => rfl⟩

theorem send_reports (s : State) (m : Msg) : s.Reports (s.send m) := by
  unfold State.send
  split
  · exact reports_col _ _
  · refine ⟨rfl, fun k hk => ?_⟩
    exact State.obj_set_other s _ (by simpa using hk)

theorem raise_reports (s : State) (a b c : Nat) : s.Reports (s.raise a b c) := send_reports _ _

theorem raiseC_reports (s : State) (a b c : Nat) : s.Reports (s.raiseC a b c) := by
  unfold State.raiseC
  exact Reports.ite (Reports.refl s) ((reports_col s _).trans (send_reports _ _))

theorem raise1_reports (s : State) (a b c : Nat) : s.Reports (s.raise1 a b c) := by
  unfold State.raise1
  exact Reports.ite (Reports.refl s) (raiseC_reports _ _ _ _)

theorem clearBy_reports (s : State) (p : Msg → Bool) : s.Reports (s.clearBy p) := by
  unfold State.clearBy
  exact Reports.foldl _ (reports_col s _) fun y _ => send_reports y _

theorem clearK_reports (s : State) (a b : Nat) : s.Reports (s.clearK a b) := clearBy_reports _ _
theorem clearI_reports (s : State) (a b c : Nat) : s.Reports (s.clearI a b c) := clearBy_reports _ _

theorem condition_reports (s : State) (a b c : Nat) (h : Bool) : s.Reports (s.condition a b c h) := by
  unfold State.condition
  exact Reports.ite (raise1_reports _ _ _ _) (clearK_reports _ _ _)

theorem ev_reports (s : State) (a b c : Nat) : s.Reports (s.ev a b c) := by
  unfold State.ev
  dsimp only
  split
  · exact Reports.refl s
  · split
    · exact reports_ring _ _
    · exact Reports.ite (reports_ring _ _) (Reports.ite (reports_ring _ _) (reports_ring _ _))

theorem ev_unless (s : State) (c : Prop) [Decidable c] (i j k : Nat) : s.Reports (if c then s else s.ev i j k) :=
  Reports.ite (Reports.refl s) (ev_reports s i j k)

theorem logDiff_reports (a b : State) : b.Reports (a.logDiff b) := by
  unfold State.logDiff
  refine Reports.ite (Reports.refl b) ?_
  refine Reports.trans ?_ (ev_unless _ _ _ _ _)
  refine Reports.trans ?_ (ev_unless _ _ _ _ _)
  refine Reports.foldl _ ?_ (fun y _ => Reports.ite (Reports.refl y)
    (Reports.trans (ev_reports y _ _ _) (Reports.ite (reports_ring _ _) (Reports.refl _))))
  refine Reports.foldl _ ?_ (fun y _ => Reports.ite (ev_reports y _ _ _) (Reports.refl y))
  refine Reports.trans ?_ (ev_unless _ _ _ _ _)
  refine Reports.foldl _ ?_ (fun y _ => ?_)
  · exact Reports.foldl _ (Reports.refl b) (fun y _ => ev_unless y _ _ _ _)
  · exact ((ev_unless y _ _ _ _).trans (ev_unless _ _ _ _ _)).trans (ev_unless _ _ _ _ _)

/-- A core action with its events: the action, and reports. -/
theorem logged_reports (s : State) (f : State → State) : (f s).Reports (s.logged f) := logDiff_reports _ _

/-! ### Objects and fields after a logged action -/

theorem logged_obj (s : State) (f : State → State) {k : Nat} (h : k ≠ Obj.FAULT_LOST) : (s.logged f).obj k = (f s).obj k := (logged_reports s f).obj h
@[simp] theorem logged_pending (s : State) (f : State → State) : (s.logged f).pending = (f s).pending := by rw [(logged_reports s f).1]
@[simp] theorem logged_now (s : State) (f : State → State) : (s.logged f).now = (f s).now := by rw [(logged_reports s f).1]
@[simp] theorem logged_recTime (s : State) (f : State → State) : (s.logged f).recTime = (f s).recTime := by rw [(logged_reports s f).1]
@[simp] theorem logged_free (s : State) (f : State → State) : (s.logged f).free = (f s).free := by rw [(logged_reports s f).1]
@[simp] theorem logged_core (s : State) (f : State → State) : (s.logged f).core = (f s).core := by rw [(logged_reports s f).1]
@[simp] theorem logged_grp (s : State) (f : State → State) : (s.logged f).grp = (f s).grp := by rw [(logged_reports s f).1]
@[simp] theorem logged_ph (s : State) (f : State → State) : (s.logged f).ph = (f s).ph := by rw [(logged_reports s f).1]
@[simp] theorem logged_aon (s : State) (f : State → State) : (s.logged f).aon = (f s).aon := by rw [(logged_reports s f).1]
@[simp] theorem logged_cell (s : State) (f : State → State) : (s.logged f).cell = (f s).cell := by rw [(logged_reports s f).1]
@[simp] theorem logged_strat (s : State) (f : State → State) : (s.logged f).strat = (f s).strat := by rw [(logged_reports s f).1]
@[simp] theorem logged_mode (s : State) (f : State → State) : (s.logged f).mode = (f s).mode := by rw [(logged_reports s f).1]
@[simp] theorem logged_src (s : State) (f : State → State) : (s.logged f).src = (f s).src := by rw [(logged_reports s f).1]
@[simp] theorem logged_recs (s : State) (f : State → State) : (s.logged f).recs = (f s).recs := by rw [(logged_reports s f).1]
@[simp] theorem logged_spd (s : State) (f : State → State) : (s.logged f).spd = (f s).spd := by rw [(logged_reports s f).1]
@[simp] theorem logged_jrnl (s : State) (f : State → State) : (s.logged f).jrnl = (f s).jrnl := by rw [(logged_reports s f).1]
@[simp] theorem logged_otp (s : State) (f : State → State) : (s.logged f).otp = (f s).otp := by rw [(logged_reports s f).1]
@[simp] theorem logged_meas (s : State) (f : State → State) : (s.logged f).meas = (f s).meas := by rw [(logged_reports s f).1]
@[simp] theorem logged_archive (s : State) (f : State → State) : (s.logged f).archive = (f s).archive := by rw [(logged_reports s f).1]
@[simp] theorem logged_thm (s : State) (f : State → State) : (s.logged f).thm = (f s).thm := by rw [(logged_reports s f).1]
@[simp] theorem logged_hz (s : State) (f : State → State) : (s.logged f).hz = (f s).hz := by rw [(logged_reports s f).1]
@[simp] theorem logged_hour (s : State) (f : State → State) : (s.logged f).hour = (f s).hour := by rw [(logged_reports s f).1]
@[simp] theorem logged_parkAcc (s : State) (f : State → State) : (s.logged f).parkAcc = (f s).parkAcc := by rw [(logged_reports s f).1]
@[simp] theorem logged_log (s : State) (f : State → State) : (s.logged f).log = (f s).log := by rw [(logged_reports s f).1]
@[simp] theorem logged_logRetry (s : State) (f : State → State) : (s.logged f).logRetry = (f s).logRetry := by rw [(logged_reports s f).1]
@[simp] theorem logged_tabs (s : State) (f : State → State) : (s.logged f).tabs = (f s).tabs := by rw [(logged_reports s f).1]
@[simp] theorem logged_env (s : State) (f : State → State) : (s.logged f).env = (f s).env := by rw [(logged_reports s f).1]
@[simp] theorem logged_chg (s : State) (f : State → State) : (s.logged f).chg = (f s).chg := by rw [(logged_reports s f).1]
@[simp] theorem logged_link (s : State) (f : State → State) : (s.logged f).link = (f s).link := by rw [(logged_reports s f).1]
@[simp] theorem logged_fab (s : State) (f : State → State) : (s.logged f).fab = (f s).fab := by rw [(logged_reports s f).1]
@[simp] theorem logged_seqs (s : State) (f : State → State) : (s.logged f).seqs = (f s).seqs := by rw [(logged_reports s f).1]
@[simp] theorem logged_flash (s : State) (f : State → State) : (s.logged f).flash = (f s).flash := by rw [(logged_reports s f).1]
@[simp] theorem logged_wd (s : State) (f : State → State) : (s.logged f).wd = (f s).wd := by rw [(logged_reports s f).1]
@[simp] theorem logged_srv (s : State) (f : State → State) : (s.logged f).srv = (f s).srv := by rw [(logged_reports s f).1]
@[simp] theorem logged_can (s : State) (f : State → State) : (s.logged f).can = (f s).can := by rw [(logged_reports s f).1]
@[simp] theorem logged_note (s : State) (f : State → State) : (s.logged f).note = (f s).note := by rw [(logged_reports s f).1]
@[simp] theorem logged_lin (s : State) (f : State → State) : (s.logged f).lin = (f s).lin := by rw [(logged_reports s f).1]
@[simp] theorem logged_uds (s : State) (f : State → State) : (s.logged f).uds = (f s).uds := by rw [(logged_reports s f).1]

/-! ### Objects written, with and without journal entries -/

theorem Reports.writes {s t : State} (ks : List Nat) (h : s.Reports t) : s.Writes ks t :=
  ⟨h.1, fun _ hk => h.obj fun e => hk (e ▸ .head _)⟩

theorem Writes.stores {s t : State} {ks : List Nat} (h : s.Writes ks t) : s.Stores ks t :=
  ⟨by rw [h.1], fun k hk => h.2 k fun hm => hk (by
    rcases List.mem_cons.mp hm with e | e
    · exact e ▸ .head _
    · exact .tail _ (.tail _ e))⟩

theorem Writes.trans {s t u : State} {ks : List Nat} (h : s.Writes ks t) (k : t.Writes ks u) : s.Writes ks u := by
  refine ⟨?_, fun j hj => (k.2 j hj).trans (h.2 j hj)⟩
  rw [k.1, h.1]

theorem Stores.trans {s t u : State} {ks : List Nat} (h : s.Stores ks t) (k : t.Stores ks u) : s.Stores ks u := by
  refine ⟨?_, fun j hj => (k.2 j hj).trans (h.2 j hj)⟩
  rw [k.1, h.1]

theorem set_writes (s : State) {ks : List Nat} {k : Nat} (v : Nat) (hk : k ∈ ks) : s.Writes ks (s.set k v) :=
  ⟨rfl, fun _ hj => State.obj_set_other s v fun e => hj (e ▸ .tail _ hk)⟩

theorem put_stores (s : State) {ks : List Nat} {k : Nat} (v : Nat) (hk : k ∈ ks) : s.Stores ks (s.put k v) := by
  refine ⟨?_, fun j hj => ?_⟩
  · unfold State.put State.journal
    dsimp only
    split <;> rfl
  · have h1 : j ≠ Obj.OD_JOURNAL := fun e => hj (e ▸ .tail _ (.head _))
    have h2 : j ≠ k := fun e => hj (e ▸ .tail _ (.tail _ hk))
    exact State.obj_put_other s v h2 h1

end State
end Sys2Proof.Machine
end

