-- ==== Sys2Proof/Laws/ModeObjects.lean ====
section
/-!
SUPPORT. ModeObjects.lean: the operations that leave every object of area 0x01 (modes and bring-up) as it was, over which
a statement about MODE_STATE, MODE_TARGET or BRINGUP_STEP passes.
-/
set_option linter.unusedTactic false
set_option linter.unreachableTactic false
set_option linter.unusedVariables false
namespace Sys2Proof.Machine

/-- The objects of area 0x01 read as before. -/
def Mk (s x : State) : Prop := ∀ k, k / 65536 = 1 → x.obj k = s.obj k

theorem Mk.refl (s : State) : Mk s s := fun _ _ => rfl
theorem Mk.obj {s x : State} (h : Mk s x) {k : Nat} (hk : k / 65536 = 1) : x.obj k = s.obj k := h k hk
theorem Mk.foldl {α : Type} {s x : State} {f : State → α → State} (l : List α) (h : Mk s x)
    (hf : ∀ y a, Mk s y → Mk s (f y a)) : Mk s (l.foldl f x) := by
  induction l generalizing x with
  | nil => exact h
  | cons a l ih => exact ih (hf x a h)
theorem Mk.snd_of {α : Type} {s : State} {q : α × State} {a : α} {x : State} (h : Mk s q.2) (e : q = (a, x)) : Mk s x := by
  subst e
  exact h
theorem Mk.trd_of {α β : Type} {s : State} {q : α × β × State} {a : α} {b : β} {x : State} (h : Mk s q.2.2)
    (e : q = (a, b, x)) : Mk s x := by
  subst e
  exact h
theorem Mk.ite {s a b : State} {c : Prop} [Decidable c] (ha : Mk s a) (hb : Mk s b) : Mk s (if c then a else b) := by
  split <;> assumption
theorem Mk.ite_snd {α : Type} {s : State} {a b : α × State} {c : Prop} [Decidable c] (ha : Mk s a.2) (hb : Mk s b.2) :
    Mk s (if c then a else b).2 := by
  split <;> assumption
theorem Mk.ite_trd {α β : Type} {s : State} {a b : α × β × State} {c : Prop} [Decidable c] (ha : Mk s a.2.2)
    (hb : Mk s b.2.2) : Mk s (if c then a else b).2.2 := by
  split <;> assumption
theorem Mk.foldl_mem {α : Type} {s x : State} {f : State → α → State} (l : List α) (h : Mk s x)
    (hf : ∀ y a, a ∈ l → Mk s y → Mk s (f y a)) : Mk s (l.foldl f x) := by
  induction l generalizing x with
  | nil => exact h
  | cons a l ih => exact ih (hf x a (.head _) h) fun y b hb => hf y b (.tail _ hb)
/-- A key of a higher area. -/
theorem Mk.key (base n : Nat) (h : 131072 ≤ base) : (base + n) / 65536 ≠ 1 := by omega
theorem Mk.cut {G : Prop} (s y : State) (h1 : Mk s y) (h2 : Mk s y → G) : G := h2 h1
theorem Mk.mk_of {s x : State} {pending : _} {now : _} {recTime : _} {free : _} {core : _} {grp : _} {ph : _} {aon : _} {cell : _} {strat : _} {mode : _} {src : _} {col : _} {recs : _} {spd : _} {jrnl : _} {otp : _} {meas : _} {ring : _} {archive : _} {thm : _} {hz : _} {hour : _} {parkAcc : _} {log : _} {logRetry : _} {tabs : _} {env : _} {chg : _} {link : _} {fab : _} {seqs : _} {flash : _} {wd : _} {srv : _} {can : _} {note : _} {lin : _} {uds : _} (h : Mk s x) :
    Mk s (State.mk pending now recTime free x.objs core grp ph aon cell strat mode src col recs spd jrnl otp meas ring archive thm hz hour parkAcc log logRetry tabs env chg link fab seqs flash wd srv can note lin uds) := h

theorem State.set_mk {s x : State} (k v : Nat) (hk : k / 65536 ≠ 1) (h : Mk s x) : Mk s (x.set k v) := fun j hj =>
  (State.obj_set_other x v fun e => hk (by rw [← e]; exact hj)).trans (h j hj)
theorem State.draw_mk {s x : State} (w : Nat) (h : Mk s x) : Mk s (x.draw w).2 := h

theorem State.journal_mk {s x : State} (a1 : Nat) (a2 : Nat) (hk : a1 / 65536 ≠ 1) (h : Mk s x) : Mk s (State.journal x a1 a2) := by
  unfold State.journal
  with_reducible
    repeat' first
      | assumption | apply State.set_mk | decide | exact Mk.key _ _ (by decide)
      | refine Mk.foldl _ ?_ (fun y a hy => ?_) | refine Mk.ite ?_ ?_ | lift_lets
      | (intro y; refine Mk.cut s y ?_ (fun hy => ?_); (on_goal 1 => subst y); (on_goal 2 => clear_value y)) | intro y | apply Mk.mk_of

theorem State.put_mk {s x : State} (a1 : Nat) (a2 : Nat) (hk : a1 / 65536 ≠ 1) (h : Mk s x) : Mk s (State.put x a1 a2) := by
  unfold State.put
  with_reducible
    repeat' first
      | assumption | apply State.journal_mk | apply State.set_mk | decide
      | exact Mk.key _ _ (by decide) | refine Mk.foldl _ ?_ (fun y a hy => ?_) | refine Mk.ite ?_ ?_ | lift_lets
      | (intro y; refine Mk.cut s y ?_ (fun hy => ?_); (on_goal 1 => subst y); (on_goal 2 => clear_value y)) | intro y | apply Mk.mk_of

theorem State.count_mk {s x : State} (a1 : Nat) (a2 : Nat) (hk : a1 / 65536 ≠ 1) (h : Mk s x) : Mk s (State.count x a1 a2) := by
  unfold State.count
  with_reducible
    repeat' first
      | assumption | apply State.put_mk | decide | exact Mk.key _ _ (by decide)
      | refine Mk.foldl _ ?_ (fun y a hy => ?_) | refine Mk.ite ?_ ?_ | lift_lets
      | (intro y; refine Mk.cut s y ?_ (fun hy => ?_); (on_goal 1 => subst y); (on_goal 2 => clear_value y)) | intro y | apply Mk.mk_of

theorem State.tally_mk {s x : State} (a1 : Nat) (a2 : Nat) (hk : a1 / 65536 ≠ 1) (h : Mk s x) : Mk s (State.tally x a1 a2) := by
  unfold State.tally
  with_reducible
    repeat' first
      | assumption | apply State.set_mk | decide | exact Mk.key _ _ (by decide)
      | refine Mk.foldl _ ?_ (fun y a hy => ?_) | refine Mk.ite ?_ ?_ | lift_lets
      | (intro y; refine Mk.cut s y ?_ (fun hy => ?_); (on_goal 1 => subst y); (on_goal 2 => clear_value y)) | intro y | apply Mk.mk_of

theorem State.setI_mk {s x : State} (a1 : Nat) (a2 : Nat) (a3 : Int) (hk : a1 / 65536 ≠ 1) (h : Mk s x) : Mk s (State.setI x a1 a2 a3) := by
  unfold State.setI
  with_reducible
    repeat' first
      | assumption | apply State.set_mk | decide | exact Mk.key _ _ (by decide)
      | refine Mk.foldl _ ?_ (fun y a hy => ?_) | refine Mk.ite ?_ ?_ | lift_lets
      | (intro y; refine Mk.cut s y ?_ (fun hy => ?_); (on_goal 1 => subst y); (on_goal 2 => clear_value y)) | intro y | apply Mk.mk_of

theorem State.modG_mk {s x : State} (a1 : Group) (a2 : GroupSt → GroupSt) (h : Mk s x) : Mk s (State.modG x a1 a2) := by
  unfold State.modG
  with_reducible
    repeat' first
      | assumption | decide | exact Mk.key _ _ (by decide) | refine Mk.foldl _ ?_ (fun y a hy => ?_)
      | refine Mk.ite ?_ ?_ | lift_lets
      | (intro y; refine Mk.cut s y ?_ (fun hy => ?_); (on_goal 1 => subst y); (on_goal 2 => clear_value y)) | intro y | apply Mk.mk_of

theorem State.allG_mk {s x : State} (a1 : GroupSt → GroupSt) (h : Mk s x) : Mk s (State.allG x a1) := by
  unfold State.allG
  with_reducible
    repeat' first
      | assumption | decide | exact Mk.key _ _ (by decide) | refine Mk.foldl _ ?_ (fun y a hy => ?_)
      | refine Mk.ite ?_ ?_ | lift_lets
      | (intro y; refine Mk.cut s y ?_ (fun hy => ?_); (on_goal 1 => subst y); (on_goal 2 => clear_value y)) | intro y | apply Mk.mk_of

theorem State.modP_mk {s x : State} (a1 : Nat) (a2 : Phase → Phase) (h : Mk s x) : Mk s (State.modP x a1 a2) := by
  unfold State.modP
  with_reducible
    repeat' first
      | assumption | decide | exact Mk.key _ _ (by decide) | refine Mk.foldl _ ?_ (fun y a hy => ?_)
      | refine Mk.ite ?_ ?_ | lift_lets
      | (intro y; refine Mk.cut s y ?_ (fun hy => ?_); (on_goal 1 => subst y); (on_goal 2 => clear_value y)) | intro y | apply Mk.mk_of

theorem State.modPs_mk {s x : State} (a1 : List Nat) (a2 : Phase → Phase) (h : Mk s x) : Mk s (State.modPs x a1 a2) := by
  unfold State.modPs
  with_reducible
    repeat' first
      | assumption | apply State.modP_mk | decide | exact Mk.key _ _ (by decide)
      | refine Mk.foldl _ ?_ (fun y a hy => ?_) | refine Mk.ite ?_ ?_ | lift_lets
      | (intro y; refine Mk.cut s y ?_ (fun hy => ?_); (on_goal 1 => subst y); (on_goal 2 => clear_value y)) | intro y | apply Mk.mk_of

theorem State.stopG_mk {s x : State} (a1 : Group) (a2 : Nat) (h : Mk s x) : Mk s (State.stopG x a1 a2) := by
  unfold State.stopG
  with_reducible
    repeat' first
      | assumption | apply State.modPs_mk | apply State.modG_mk | decide | exact Mk.key _ _ (by decide)
      | refine Mk.foldl _ ?_ (fun y a hy => ?_) | refine Mk.ite ?_ ?_ | lift_lets
      | (intro y; refine Mk.cut s y ?_ (fun hy => ?_); (on_goal 1 => subst y); (on_goal 2 => clear_value y)) | intro y | apply Mk.mk_of

theorem State.freeG_mk {s x : State} (a1 : Group) (a2 : Nat) (h : Mk s x) : Mk s (State.freeG x a1 a2) := by
  unfold State.freeG
  with_reducible
    repeat' first
      | assumption | apply State.modG_mk | decide | exact Mk.key _ _ (by decide)
      | refine Mk.foldl _ ?_ (fun y a hy => ?_) | refine Mk.ite ?_ ?_ | lift_lets
      | (intro y; refine Mk.cut s y ?_ (fun hy => ?_); (on_goal 1 => subst y); (on_goal 2 => clear_value y)) | intro y | apply Mk.mk_of

theorem State.send_mk {s x : State} (a1 : Msg) (h : Mk s x) : Mk s (State.send x a1) := by
  unfold State.send
  with_reducible
    repeat' first
      | assumption | apply State.tally_mk | decide | exact Mk.key _ _ (by decide)
      | refine Mk.foldl _ ?_ (fun y a hy => ?_) | refine Mk.ite ?_ ?_ | lift_lets
      | (intro y; refine Mk.cut s y ?_ (fun hy => ?_); (on_goal 1 => subst y); (on_goal 2 => clear_value y)) | intro y | apply Mk.mk_of

theorem State.enqueue_mk {s x : State} (a1 : Msg) (h : Mk s x) : Mk s (State.enqueue x a1) := by
  unfold State.enqueue
  with_reducible
    repeat' first
      | assumption | decide | exact Mk.key _ _ (by decide) | refine Mk.foldl _ ?_ (fun y a hy => ?_)
      | refine Mk.ite ?_ ?_ | lift_lets
      | (intro y; refine Mk.cut s y ?_ (fun hy => ?_); (on_goal 1 => subst y); (on_goal 2 => clear_value y)) | intro y | apply Mk.mk_of

theorem State.raise_mk {s x : State} (a1 : Nat) (a2 : Nat) (a3 : Nat) (h : Mk s x) : Mk s (State.raise x a1 a2 a3) := by
  unfold State.raise
  with_reducible
    repeat' first
      | assumption | apply State.send_mk | decide | exact Mk.key _ _ (by decide)
      | refine Mk.foldl _ ?_ (fun y a hy => ?_) | refine Mk.ite ?_ ?_ | lift_lets
      | (intro y; refine Mk.cut s y ?_ (fun hy => ?_); (on_goal 1 => subst y); (on_goal 2 => clear_value y)) | intro y | apply Mk.mk_of

theorem State.raiseC_mk {s x : State} (a1 : Nat) (a2 : Nat) (a3 : Nat) (h : Mk s x) : Mk s (State.raiseC x a1 a2 a3) := by
  unfold State.raiseC
  with_reducible
    repeat' first
      | assumption | apply State.send_mk | decide | exact Mk.key _ _ (by decide)
      | refine Mk.foldl _ ?_ (fun y a hy => ?_) | refine Mk.ite ?_ ?_ | lift_lets
      | (intro y; refine Mk.cut s y ?_ (fun hy => ?_); (on_goal 1 => subst y); (on_goal 2 => clear_value y)) | intro y | apply Mk.mk_of

theorem State.raise1_mk {s x : State} (a1 : Nat) (a2 : Nat) (a3 : Nat) (h : Mk s x) : Mk s (State.raise1 x a1 a2 a3) := by
  unfold State.raise1
  with_reducible
    repeat' first
      | assumption | apply State.raiseC_mk | decide | exact Mk.key _ _ (by decide)
      | refine Mk.foldl _ ?_ (fun y a hy => ?_) | refine Mk.ite ?_ ?_ | lift_lets
      | (intro y; refine Mk.cut s y ?_ (fun hy => ?_); (on_goal 1 => subst y); (on_goal 2 => clear_value y)) | intro y | apply Mk.mk_of

theorem State.clearBy_mk {s x : State} (a1 : Msg → Bool) (h : Mk s x) : Mk s (State.clearBy x a1) := by
  unfold State.clearBy
  with_reducible
    repeat' first
      | assumption | apply State.send_mk | decide | exact Mk.key _ _ (by decide)
      | refine Mk.foldl _ ?_ (fun y a hy => ?_) | refine Mk.ite ?_ ?_ | lift_lets
      | (intro y; refine Mk.cut s y ?_ (fun hy => ?_); (on_goal 1 => subst y); (on_goal 2 => clear_value y)) | intro y | apply Mk.mk_of

theorem State.clearK_mk {s x : State} (a1 : Nat) (a2 : Nat) (h : Mk s x) : Mk s (State.clearK x a1 a2) := by
  unfold State.clearK
  with_reducible
    repeat' first
      | assumption | apply State.clearBy_mk | decide | exact Mk.key _ _ (by decide)
      | refine Mk.foldl _ ?_ (fun y a hy => ?_) | refine Mk.ite ?_ ?_ | lift_lets
      | (intro y; refine Mk.cut s y ?_ (fun hy => ?_); (on_goal 1 => subst y); (on_goal 2 => clear_value y)) | intro y | apply Mk.mk_of

theorem State.coreSend_mk {s x : State} (a1 : Msg) (h : Mk s x) : Mk s (State.coreSend x a1) := by
  unfold State.coreSend
  with_reducible
    repeat' first
      | assumption | apply State.enqueue_mk | apply State.send_mk | decide
      | exact Mk.key _ _ (by decide) | refine Mk.foldl _ ?_ (fun y a hy => ?_) | refine Mk.ite ?_ ?_ | lift_lets
      | (intro y; refine Mk.cut s y ?_ (fun hy => ?_); (on_goal 1 => subst y); (on_goal 2 => clear_value y)) | intro y | apply Mk.mk_of

theorem State.coreRaise_mk {s x : State} (a1 : Nat) (a2 : Nat) (a3 : Nat) (h : Mk s x) : Mk s (State.coreRaise x a1 a2 a3) := by
  unfold State.coreRaise
  with_reducible
    repeat' first
      | assumption | apply State.coreSend_mk | decide | exact Mk.key _ _ (by decide)
      | refine Mk.foldl _ ?_ (fun y a hy => ?_) | refine Mk.ite ?_ ?_ | lift_lets
      | (intro y; refine Mk.cut s y ?_ (fun hy => ?_); (on_goal 1 => subst y); (on_goal 2 => clear_value y)) | intro y | apply Mk.mk_of

theorem State.coreRaiseC_mk {s x : State} (a1 : Nat) (a2 : Nat) (a3 : Nat) (h : Mk s x) : Mk s (State.coreRaiseC x a1 a2 a3) := by
  unfold State.coreRaiseC
  with_reducible
    repeat' first
      | assumption | apply State.coreSend_mk | decide | exact Mk.key _ _ (by decide)
      | refine Mk.foldl _ ?_ (fun y a hy => ?_) | refine Mk.ite ?_ ?_ | lift_lets
      | (intro y; refine Mk.cut s y ?_ (fun hy => ?_); (on_goal 1 => subst y); (on_goal 2 => clear_value y)) | intro y | apply Mk.mk_of

theorem State.coreClearBy_mk {s x : State} (a1 : Msg → Bool) (h : Mk s x) : Mk s (State.coreClearBy x a1) := by
  unfold State.coreClearBy
  with_reducible
    repeat' first
      | assumption | apply State.coreSend_mk | decide | exact Mk.key _ _ (by decide)
      | refine Mk.foldl _ ?_ (fun y a hy => ?_) | refine Mk.ite ?_ ?_ | lift_lets
      | (intro y; refine Mk.cut s y ?_ (fun hy => ?_); (on_goal 1 => subst y); (on_goal 2 => clear_value y)) | intro y | apply Mk.mk_of

theorem State.coreClearK_mk {s x : State} (a1 : Nat) (a2 : Nat) (h : Mk s x) : Mk s (State.coreClearK x a1 a2) := by
  unfold State.coreClearK
  with_reducible
    repeat' first
      | assumption | apply State.coreClearBy_mk | decide | exact Mk.key _ _ (by decide)
      | refine Mk.foldl _ ?_ (fun y a hy => ?_) | refine Mk.ite ?_ ?_ | lift_lets
      | (intro y; refine Mk.cut s y ?_ (fun hy => ?_); (on_goal 1 => subst y); (on_goal 2 => clear_value y)) | intro y | apply Mk.mk_of

theorem State.again_mk {s x : State} (a1 : Nat) (a2 : Nat) (h : Mk s x) : Mk s (State.again x a1 a2) := by
  unfold State.again
  with_reducible
    repeat' first
      | assumption | decide | exact Mk.key _ _ (by decide) | refine Mk.foldl _ ?_ (fun y a hy => ?_)
      | refine Mk.ite ?_ ?_ | lift_lets
      | (intro y; refine Mk.cut s y ?_ (fun hy => ?_); (on_goal 1 => subst y); (on_goal 2 => clear_value y)) | intro y | split
      | apply Mk.mk_of

theorem State.applyOrder_mk {s x : State} (a1 : Group) (a2 : Nat) (h : Mk s x) : Mk s (State.applyOrder x a1 a2) := by
  unfold State.applyOrder
  with_reducible
    repeat' first
      | assumption | apply State.coreClearBy_mk | apply State.modP_mk | apply State.modG_mk | decide
      | exact Mk.key _ _ (by decide) | refine Mk.foldl _ ?_ (fun y a hy => ?_) | refine Mk.ite ?_ ?_ | lift_lets
      | (intro y; refine Mk.cut s y ?_ (fun hy => ?_); (on_goal 1 => subst y); (on_goal 2 => clear_value y)) | intro y | apply Mk.mk_of

theorem State.applyFreq_mk {s x : State} (a1 : Group) (a2 : Nat) (h : Mk s x) : Mk s (State.applyFreq x a1 a2) := by
  unfold State.applyFreq
  with_reducible
    repeat' first
      | assumption | apply State.modG_mk | decide | exact Mk.key _ _ (by decide)
      | refine Mk.foldl _ ?_ (fun y a hy => ?_) | refine Mk.ite ?_ ?_ | lift_lets
      | (intro y; refine Mk.cut s y ?_ (fun hy => ?_); (on_goal 1 => subst y); (on_goal 2 => clear_value y)) | intro y | apply Mk.mk_of

theorem State.applyTrim_mk {s x : State} (a1 : Nat) (a2 : Nat) (h : Mk s x) : Mk s (State.applyTrim x a1 a2) := by
  unfold State.applyTrim
  with_reducible
    repeat' first
      | assumption | apply State.modP_mk | decide | exact Mk.key _ _ (by decide)
      | refine Mk.foldl _ ?_ (fun y a hy => ?_) | refine Mk.ite ?_ ?_ | lift_lets
      | (intro y; refine Mk.cut s y ?_ (fun hy => ?_); (on_goal 1 => subst y); (on_goal 2 => clear_value y)) | intro y | apply Mk.mk_of

theorem State.applyWord_mk {s x : State} (a1 : Group) (a2 : Nat) (a3 : Nat) (h : Mk s x) : Mk s (State.applyWord x a1 a2 a3) := by
  unfold State.applyWord
  with_reducible
    repeat' first
      | assumption | apply State.applyTrim_mk | apply State.applyFreq_mk | apply State.applyOrder_mk
      | apply State.modG_mk | decide | exact Mk.key _ _ (by decide) | refine Mk.foldl _ ?_ (fun y a hy => ?_) | refine Mk.ite ?_ ?_
      | lift_lets | (intro y; refine Mk.cut s y ?_ (fun hy => ?_); (on_goal 1 => subst y); (on_goal 2 => clear_value y)) | intro y
      | apply Mk.mk_of

theorem State.keepWord_mk {s x : State} (a1 : Nat) (a2 : Nat) (h : Mk s x) : Mk s (State.keepWord x a1 a2) := by
  unfold State.keepWord
  with_reducible
    repeat' first
      | assumption | decide | exact Mk.key _ _ (by decide) | refine Mk.foldl _ ?_ (fun y a hy => ?_)
      | refine Mk.ite ?_ ?_ | lift_lets
      | (intro y; refine Mk.cut s y ?_ (fun hy => ?_); (on_goal 1 => subst y); (on_goal 2 => clear_value y)) | intro y | apply Mk.mk_of

theorem State.applyAll_mk {s x : State} (a1 : Group) (h : Mk s x) : Mk s (State.applyAll x a1) := by
  unfold State.applyAll
  with_reducible
    repeat' first
      | assumption | apply State.keepWord_mk | apply State.applyWord_mk | decide
      | exact Mk.key _ _ (by decide) | refine Mk.foldl _ ?_ (fun y a hy => ?_) | refine Mk.ite ?_ ?_ | lift_lets
      | (intro y; refine Mk.cut s y ?_ (fun hy => ?_); (on_goal 1 => subst y); (on_goal 2 => clear_value y)) | intro y | apply Mk.mk_of

theorem State.applyIdle_mk {s x : State} (a1 : List Group) (h : Mk s x) : Mk s (State.applyIdle x a1) := by
  unfold State.applyIdle
  with_reducible
    repeat' first
      | assumption | apply State.applyAll_mk | decide | exact Mk.key _ _ (by decide)
      | refine Mk.foldl _ ?_ (fun y a hy => ?_) | refine Mk.ite ?_ ?_ | lift_lets
      | (intro y; refine Mk.cut s y ?_ (fun hy => ?_); (on_goal 1 => subst y); (on_goal 2 => clear_value y)) | intro y | apply Mk.mk_of

theorem State.accept_mk {s x : State} (a1 : Nat) (a2 : Nat) (a3 : Bool) (h : Mk s x) : Mk s (State.accept x a1 a2 a3) := by
  unfold State.accept
  with_reducible
    repeat' first
      | assumption | apply State.applyIdle_mk | apply State.freeG_mk | decide
      | exact Mk.key _ _ (by decide) | refine Mk.foldl _ ?_ (fun y a hy => ?_) | refine Mk.ite ?_ ?_ | lift_lets
      | (intro y; refine Mk.cut s y ?_ (fun hy => ?_); (on_goal 1 => subst y); (on_goal 2 => clear_value y)) | intro y | apply Mk.mk_of

theorem State.refuse_mk {s x : State} (a1 : Nat) (h : Mk s x) : Mk s (State.refuse x a1) := by
  unfold State.refuse
  with_reducible
    repeat' first
      | assumption | apply State.coreRaise_mk | decide | exact Mk.key _ _ (by decide)
      | refine Mk.foldl _ ?_ (fun y a hy => ?_) | refine Mk.ite ?_ ?_ | lift_lets
      | (intro y; refine Mk.cut s y ?_ (fun hy => ?_); (on_goal 1 => subst y); (on_goal 2 => clear_value y)) | intro y | apply Mk.mk_of

theorem State.commitWords_mk {s x : State} (h : Mk s x) : Mk s (State.commitWords x) := by
  unfold State.commitWords
  with_reducible
    repeat' first
      | assumption | apply State.applyIdle_mk | decide | exact Mk.key _ _ (by decide)
      | refine Mk.foldl _ ?_ (fun y a hy => ?_) | refine Mk.ite ?_ ?_ | lift_lets
      | (intro y; refine Mk.cut s y ?_ (fun hy => ?_); (on_goal 1 => subst y); (on_goal 2 => clear_value y)) | intro y | apply Mk.mk_of

theorem State.portWord_mk {s x : State} (a1 : Nat) (a2 : Nat) (a3 : Bool) (h : Mk s x) : Mk s (State.portWord x a1 a2 a3) := by
  unfold State.portWord
  with_reducible
    repeat' first
      | assumption | apply State.refuse_mk | apply State.accept_mk | decide
      | exact Mk.key _ _ (by decide) | refine Mk.foldl _ ?_ (fun y a hy => ?_) | refine Mk.ite ?_ ?_ | lift_lets
      | (intro y; refine Mk.cut s y ?_ (fun hy => ?_); (on_goal 1 => subst y); (on_goal 2 => clear_value y)) | intro y | apply Mk.mk_of

theorem State.portWrite_mk {s x : State} (a1 : Nat) (a2 : Nat) (h : Mk s x) : Mk s (State.portWrite x a1 a2) := by
  unfold State.portWrite
  with_reducible
    repeat' first
      | assumption | apply State.portWord_mk | decide | exact Mk.key _ _ (by decide)
      | refine Mk.foldl _ ?_ (fun y a hy => ?_) | refine Mk.ite ?_ ?_ | lift_lets
      | (intro y; refine Mk.cut s y ?_ (fun hy => ?_); (on_goal 1 => subst y); (on_goal 2 => clear_value y)) | intro y | apply Mk.mk_of

theorem State.liftGroup_mk {s x : State} (a1 : Group) (h : Mk s x) : Mk s (State.liftGroup x a1) := by
  unfold State.liftGroup
  with_reducible
    repeat' first
      | assumption | apply State.modG_mk | decide | exact Mk.key _ _ (by decide)
      | refine Mk.foldl _ ?_ (fun y a hy => ?_) | refine Mk.ite ?_ ?_ | lift_lets
      | (intro y; refine Mk.cut s y ?_ (fun hy => ?_); (on_goal 1 => subst y); (on_goal 2 => clear_value y)) | intro y | apply Mk.mk_of

theorem State.handoverWord_mk {s x : State} (h : Mk s x) : Mk s (State.handoverWord x) := by
  unfold State.handoverWord
  with_reducible
    repeat' first
      | assumption | apply State.liftGroup_mk | apply State.commitWords_mk | apply State.allG_mk
      | decide | exact Mk.key _ _ (by decide) | refine Mk.foldl _ ?_ (fun y a hy => ?_) | refine Mk.ite ?_ ?_ | lift_lets
      | (intro y; refine Mk.cut s y ?_ (fun hy => ?_); (on_goal 1 => subst y); (on_goal 2 => clear_value y)) | intro y | apply Mk.mk_of

theorem State.discOff_mk {s x : State} (h : Mk s x) : Mk s (State.discOff x) := by
  unfold State.discOff
  with_reducible
    repeat' first
      | assumption | apply State.stopG_mk | decide | exact Mk.key _ _ (by decide)
      | refine Mk.foldl _ ?_ (fun y a hy => ?_) | refine Mk.ite ?_ ?_ | lift_lets
      | (intro y; refine Mk.cut s y ?_ (fun hy => ?_); (on_goal 1 => subst y); (on_goal 2 => clear_value y)) | intro y | apply Mk.mk_of

theorem State.discOn_mk {s x : State} (a1 : Nat) (a2 : Nat) (h : Mk s x) : Mk s (State.discOn x a1 a2) := by
  unfold State.discOn
  with_reducible
    repeat' first
      | assumption | apply State.freeG_mk | apply State.stopG_mk | decide
      | exact Mk.key _ _ (by decide) | refine Mk.foldl _ ?_ (fun y a hy => ?_) | refine Mk.ite ?_ ?_ | lift_lets
      | (intro y; refine Mk.cut s y ?_ (fun hy => ?_); (on_goal 1 => subst y); (on_goal 2 => clear_value y)) | intro y | apply Mk.mk_of

theorem State.discDone_mk {s x : State} (h : Mk s x) : Mk s (State.discDone x) := by
  unfold State.discDone
  with_reducible
    repeat' first
      | assumption | apply State.freeG_mk | decide | exact Mk.key _ _ (by decide)
      | refine Mk.foldl _ ?_ (fun y a hy => ?_) | refine Mk.ite ?_ ?_ | lift_lets
      | (intro y; refine Mk.cut s y ?_ (fun hy => ?_); (on_goal 1 => subst y); (on_goal 2 => clear_value y)) | intro y | apply Mk.mk_of

theorem State.evLost_mk {s x : State} (h : Mk s x) : Mk s (State.evLost x) := by
  unfold State.evLost
  with_reducible
    repeat' first
      | assumption | decide | exact Mk.key _ _ (by decide) | refine Mk.foldl _ ?_ (fun y a hy => ?_)
      | refine Mk.ite ?_ ?_ | lift_lets
      | (intro y; refine Mk.cut s y ?_ (fun hy => ?_); (on_goal 1 => subst y); (on_goal 2 => clear_value y)) | intro y | split
      | apply Mk.mk_of

theorem State.ev_mk {s x : State} (a1 : Nat) (a2 : Nat) (a3 : Nat) (h : Mk s x) : Mk s (State.ev x a1 a2 a3) := by
  unfold State.ev
  with_reducible
    repeat' first
      | assumption | apply State.evLost_mk | decide | exact Mk.key _ _ (by decide)
      | refine Mk.foldl _ ?_ (fun y a hy => ?_) | refine Mk.ite ?_ ?_ | lift_lets
      | (intro y; refine Mk.cut s y ?_ (fun hy => ?_); (on_goal 1 => subst y); (on_goal 2 => clear_value y)) | intro y | split
      | apply Mk.mk_of

theorem State.mark_mk {s x : State} (a1 : Nat) (a2 : Stamp) (h : Mk s x) : Mk s (State.mark x a1 a2) := by
  unfold State.mark
  with_reducible
    repeat' first
      | assumption | decide | exact Mk.key _ _ (by decide) | refine Mk.foldl _ ?_ (fun y a hy => ?_)
      | refine Mk.ite ?_ ?_ | lift_lets
      | (intro y; refine Mk.cut s y ?_ (fun hy => ?_); (on_goal 1 => subst y); (on_goal 2 => clear_value y)) | intro y | apply Mk.mk_of

theorem State.logged_mk {s x : State} (f : State → State) (hf : ∀ y, Mk s y → Mk s (f y)) (h : Mk s x) : Mk s (x.logged f) := fun k hk =>
  (State.logged_obj x f (fun e => by rw [e] at hk; exact absurd hk (by decide))).trans (hf x h k hk)

theorem State.probeAbandon_mk {s x : State} (h : Mk s x) : Mk s (State.probeAbandon x) := by
  unfold State.probeAbandon
  with_reducible
    repeat' first
      | assumption | apply State.set_mk | decide | exact Mk.key _ _ (by decide)
      | refine Mk.foldl _ ?_ (fun y a hy => ?_) | refine Mk.ite ?_ ?_ | lift_lets
      | (intro y; refine Mk.cut s y ?_ (fun hy => ?_); (on_goal 1 => subst y); (on_goal 2 => clear_value y)) | intro y | apply Mk.mk_of

theorem State.railDisturbed_mk {s x : State} (h : Mk s x) : Mk s (State.railDisturbed x) := by
  unfold State.railDisturbed
  with_reducible
    repeat' first
      | assumption | apply State.probeAbandon_mk | decide | exact Mk.key _ _ (by decide)
      | refine Mk.foldl _ ?_ (fun y a hy => ?_) | refine Mk.ite ?_ ?_ | lift_lets
      | (intro y; refine Mk.cut s y ?_ (fun hy => ?_); (on_goal 1 => subst y); (on_goal 2 => clear_value y)) | intro y | apply Mk.mk_of

theorem State.foldRestart_mk {s x : State} (a1 : Group) (h : Mk s x) : Mk s (State.foldRestart x a1) := by
  unfold State.foldRestart
  with_reducible
    repeat' first
      | assumption | apply State.freeG_mk | apply State.modG_mk | decide | exact Mk.key _ _ (by decide)
      | refine Mk.foldl _ ?_ (fun y a hy => ?_) | refine Mk.ite ?_ ?_ | lift_lets
      | (intro y; refine Mk.cut s y ?_ (fun hy => ?_); (on_goal 1 => subst y); (on_goal 2 => clear_value y)) | intro y | apply Mk.mk_of

theorem State.writeGroup_mk {s x : State} (a1 : Group) (a2 : Bool) (h : Mk s x) : Mk s (State.writeGroup x a1 a2) := by
  unfold State.writeGroup
  with_reducible
    repeat' first
      | assumption | apply State.portWord_mk | decide | exact Mk.key _ _ (by decide)
      | refine Mk.foldl _ ?_ (fun y a hy => ?_) | refine Mk.ite ?_ ?_ | lift_lets
      | (intro y; refine Mk.cut s y ?_ (fun hy => ?_); (on_goal 1 => subst y); (on_goal 2 => clear_value y)) | intro y | apply Mk.mk_of

theorem State.applyGroup_mk {s x : State} (a1 : Group) (h : Mk s x) : Mk s (State.applyGroup x a1) := by
  unfold State.applyGroup
  with_reducible
    repeat' first
      | assumption | apply State.writeGroup_mk | apply State.foldRestart_mk
      | apply State.commitWords_mk | apply State.coreClearK_mk | apply State.modG_mk | decide | exact Mk.key _ _ (by decide)
      | refine Mk.foldl _ ?_ (fun y a hy => ?_) | refine Mk.ite ?_ ?_ | lift_lets
      | (intro y; refine Mk.cut s y ?_ (fun hy => ?_); (on_goal 1 => subst y); (on_goal 2 => clear_value y)) | intro y | apply Mk.mk_of

theorem State.groupApply_mk {s x : State} (a1 : Nat) (h : Mk s x) : Mk s (State.groupApply x a1).2 := by
  unfold State.groupApply
  with_reducible
    repeat' first
      | assumption | apply State.applyGroup_mk | decide | exact Mk.key _ _ (by decide)
      | refine Mk.foldl _ ?_ (fun y a hy => ?_) | refine Mk.ite ?_ ?_ | refine Mk.ite_snd ?_ ?_ | refine Mk.ite_trd ?_ ?_ | lift_lets
      | (intro y; refine Mk.cut s y ?_ (fun hy => ?_); (on_goal 1 => subst y); (on_goal 2 => clear_value y)) | intro y | split
      | (refine Mk.snd_of ?_ (by assumption)) | (refine Mk.trd_of ?_ (by assumption)) | apply Mk.mk_of

theorem State.srcState_mk {s x : State} (a1 : Nat) (h : Mk s x) : Mk s (State.srcState x a1) := by
  unfold State.srcState
  with_reducible
    repeat' first
      | assumption | apply State.probeAbandon_mk | apply State.set_mk | decide
      | exact Mk.key _ _ (by decide) | refine Mk.foldl _ ?_ (fun y a hy => ?_) | refine Mk.ite ?_ ?_ | lift_lets
      | (intro y; refine Mk.cut s y ?_ (fun hy => ?_); (on_goal 1 => subst y); (on_goal 2 => clear_value y)) | intro y | apply Mk.mk_of

theorem State.portIfNew_mk {s x : State} (a1 : Nat) (a2 : Nat) (h : Mk s x) : Mk s (State.portIfNew x a1 a2) := by
  unfold State.portIfNew
  with_reducible
    repeat' first
      | assumption | apply State.portWrite_mk | decide | exact Mk.key _ _ (by decide)
      | refine Mk.foldl _ ?_ (fun y a hy => ?_) | refine Mk.ite ?_ ?_ | lift_lets
      | (intro y; refine Mk.cut s y ?_ (fun hy => ?_); (on_goal 1 => subst y); (on_goal 2 => clear_value y)) | intro y | apply Mk.mk_of

theorem State.noResults_mk {s x : State} (h : Mk s x) : Mk s (State.noResults x) := by
  unfold State.noResults
  with_reducible
    repeat' first
      | assumption | apply State.set_mk | decide | exact Mk.key _ _ (by decide)
      | refine Mk.foldl _ ?_ (fun y a hy => ?_) | refine Mk.ite ?_ ?_ | lift_lets
      | (intro y; refine Mk.cut s y ?_ (fun hy => ?_); (on_goal 1 => subst y); (on_goal 2 => clear_value y)) | intro y | apply Mk.mk_of

theorem State.measStop_mk {s x : State} (h : Mk s x) : Mk s (State.measStop x) := by
  unfold State.measStop
  with_reducible
    repeat' first
      | assumption | apply State.noResults_mk | apply State.set_mk | decide
      | exact Mk.key _ _ (by decide) | refine Mk.foldl _ ?_ (fun y a hy => ?_) | refine Mk.ite ?_ ?_ | lift_lets
      | (intro y; refine Mk.cut s y ?_ (fun hy => ?_); (on_goal 1 => subst y); (on_goal 2 => clear_value y)) | intro y | apply Mk.mk_of

theorem State.hzClear_mk {s x : State} (a1 : List Nat) (h : Mk s x) : Mk s (State.hzClear x a1) := by
  unfold State.hzClear
  with_reducible
    repeat' first
      | assumption | decide | exact Mk.key _ _ (by decide) | refine Mk.foldl _ ?_ (fun y a hy => ?_)
      | refine Mk.ite ?_ ?_ | lift_lets
      | (intro y; refine Mk.cut s y ?_ (fun hy => ?_); (on_goal 1 => subst y); (on_goal 2 => clear_value y)) | intro y | apply Mk.mk_of

theorem State.logWrite_mk {s x : State} (a1 : Nat) (a2 : Nat) (a3 : List Byte) (h : Mk s x) : Mk s (State.logWrite x a1 a2 a3) := by
  unfold State.logWrite
  with_reducible
    repeat' first
      | assumption | apply State.raise_mk | apply State.put_mk | decide | exact Mk.key _ _ (by decide)
      | refine Mk.foldl _ ?_ (fun y a hy => ?_) | refine Mk.ite ?_ ?_ | lift_lets
      | (intro y; refine Mk.cut s y ?_ (fun hy => ?_); (on_goal 1 => subst y); (on_goal 2 => clear_value y)) | intro y | apply Mk.mk_of

theorem State.hourRecord_mk {s x : State} (a1 : Bool) (h : Mk s x) : Mk s (State.hourRecord x a1) := by
  unfold State.hourRecord
  with_reducible
    repeat' first
      | assumption | apply State.logWrite_mk | decide | exact Mk.key _ _ (by decide)
      | refine Mk.foldl _ ?_ (fun y a hy => ?_) | refine Mk.ite ?_ ?_ | lift_lets
      | (intro y; refine Mk.cut s y ?_ (fun hy => ?_); (on_goal 1 => subst y); (on_goal 2 => clear_value y)) | intro y | apply Mk.mk_of

theorem State.parkRecord_mk {s x : State} (h : Mk s x) : Mk s (State.parkRecord x) := by
  unfold State.parkRecord
  with_reducible
    repeat' first
      | assumption | apply State.logWrite_mk | decide | exact Mk.key _ _ (by decide)
      | refine Mk.foldl _ ?_ (fun y a hy => ?_) | refine Mk.ite ?_ ?_ | lift_lets
      | (intro y; refine Mk.cut s y ?_ (fun hy => ?_); (on_goal 1 => subst y); (on_goal 2 => clear_value y)) | intro y | apply Mk.mk_of

theorem State.epochStart_mk {s x : State} (a1 : Nat) (h : Mk s x) : Mk s (State.epochStart x a1) := by
  unfold State.epochStart
  with_reducible
    repeat' first
      | assumption | apply State.probeAbandon_mk | apply State.set_mk | decide
      | exact Mk.key _ _ (by decide) | refine Mk.foldl _ ?_ (fun y a hy => ?_) | refine Mk.ite ?_ ?_ | lift_lets
      | (intro y; refine Mk.cut s y ?_ (fun hy => ?_); (on_goal 1 => subst y); (on_goal 2 => clear_value y)) | intro y | apply Mk.mk_of

theorem State.epochDiscard_mk {s x : State} (h : Mk s x) : Mk s (State.epochDiscard x) := by
  unfold State.epochDiscard
  with_reducible
    repeat' first
      | assumption | apply State.raise_mk | apply State.set_mk | decide | exact Mk.key _ _ (by decide)
      | refine Mk.foldl _ ?_ (fun y a hy => ?_) | refine Mk.ite ?_ ?_ | lift_lets
      | (intro y; refine Mk.cut s y ?_ (fun hy => ?_); (on_goal 1 => subst y); (on_goal 2 => clear_value y)) | intro y | split
      | apply Mk.mk_of

theorem State.ceilingBoot_mk {s x : State} (h : Mk s x) : Mk s (State.ceilingBoot x) := by
  unfold State.ceilingBoot
  with_reducible
    repeat' first
      | assumption | decide | exact Mk.key _ _ (by decide) | refine Mk.foldl _ ?_ (fun y a hy => ?_)
      | refine Mk.ite ?_ ?_ | lift_lets
      | (intro y; refine Mk.cut s y ?_ (fun hy => ?_); (on_goal 1 => subst y); (on_goal 2 => clear_value y)) | intro y | apply Mk.mk_of

theorem State.feedforward_mk {s x : State} (a1 : Group) (a2 : Int) (h : Mk s x) : Mk s (State.feedforward x a1 a2) := by
  unfold State.feedforward
  with_reducible
    repeat' first
      | assumption | apply State.modG_mk | decide | exact Mk.key _ _ (by decide)
      | refine Mk.foldl _ ?_ (fun y a hy => ?_) | refine Mk.ite ?_ ?_ | lift_lets
      | (intro y; refine Mk.cut s y ?_ (fun hy => ?_); (on_goal 1 => subst y); (on_goal 2 => clear_value y)) | intro y | apply Mk.mk_of

theorem State.allocate_mk {s x : State} (a1 : Nat) (h : Mk s x) : Mk s (State.allocate x a1) := by
  unfold State.allocate
  with_reducible
    repeat' first
      | assumption | apply State.feedforward_mk | apply State.railDisturbed_mk | decide
      | exact Mk.key _ _ (by decide) | refine Mk.foldl _ ?_ (fun y a hy => ?_) | refine Mk.ite ?_ ?_ | lift_lets
      | (intro y; refine Mk.cut s y ?_ (fun hy => ?_); (on_goal 1 => subst y); (on_goal 2 => clear_value y)) | intro y | apply Mk.mk_of

theorem State.sourceLoss_mk {s x : State} (a1 : Nat) (h : Mk s x) : Mk s (State.sourceLoss x a1) := by
  unfold State.sourceLoss
  with_reducible
    repeat' first
      | assumption | apply State.raise_mk | apply State.count_mk | decide
      | exact Mk.key _ _ (by decide) | refine Mk.foldl _ ?_ (fun y a hy => ?_) | refine Mk.ite ?_ ?_ | lift_lets
      | (intro y; refine Mk.cut s y ?_ (fun hy => ?_); (on_goal 1 => subst y); (on_goal 2 => clear_value y)) | intro y | apply Mk.mk_of

theorem State.chgBit_mk {s x : State} (a1 : Nat) (h : Mk s x) : Mk s (State.chgBit x a1) := by
  unfold State.chgBit
  with_reducible
    repeat' first
      | assumption | apply State.put_mk | decide | exact Mk.key _ _ (by decide)
      | refine Mk.foldl _ ?_ (fun y a hy => ?_) | refine Mk.ite ?_ ?_ | lift_lets
      | (intro y; refine Mk.cut s y ?_ (fun hy => ?_); (on_goal 1 => subst y); (on_goal 2 => clear_value y)) | intro y | apply Mk.mk_of

theorem State.chgEvent_mk {s x : State} (a1 : Nat) (a2 : Nat) (a3 : Nat) (a4 : Nat) (h : Mk s x) : Mk s (State.chgEvent x a1 a2 a3 a4) := by
  unfold State.chgEvent
  with_reducible
    repeat' first
      | assumption | apply State.chgBit_mk | apply State.raise_mk | decide
      | exact Mk.key _ _ (by decide) | refine Mk.foldl _ ?_ (fun y a hy => ?_) | refine Mk.ite ?_ ?_ | lift_lets
      | (intro y; refine Mk.cut s y ?_ (fun hy => ?_); (on_goal 1 => subst y); (on_goal 2 => clear_value y)) | intro y | apply Mk.mk_of

theorem State.chgCond_mk {s x : State} (a1 : Nat) (a2 : Nat) (a3 : Nat) (a4 : Nat) (a5 : Bool) (h : Mk s x) : Mk s (State.chgCond x a1 a2 a3 a4 a5) := by
  unfold State.chgCond
  with_reducible
    repeat' first
      | assumption | apply State.chgBit_mk | apply State.clearK_mk | apply State.raise1_mk | decide
      | exact Mk.key _ _ (by decide) | refine Mk.foldl _ ?_ (fun y a hy => ?_) | refine Mk.ite ?_ ?_ | lift_lets
      | (intro y; refine Mk.cut s y ?_ (fun hy => ?_); (on_goal 1 => subst y); (on_goal 2 => clear_value y)) | intro y | apply Mk.mk_of

theorem State.writeChg_mk {s x : State} (a1 : Nat) (h : Mk s x) : Mk s (State.writeChg x a1) := by
  unfold State.writeChg
  with_reducible
    repeat' first
      | assumption | apply State.portIfNew_mk | apply State.set_mk | decide
      | exact Mk.key _ _ (by decide) | refine Mk.foldl _ ?_ (fun y a hy => ?_) | refine Mk.ite ?_ ?_ | lift_lets
      | (intro y; refine Mk.cut s y ?_ (fun hy => ?_); (on_goal 1 => subst y); (on_goal 2 => clear_value y)) | intro y | apply Mk.mk_of

theorem State.zeroBoth_mk {s x : State} (h : Mk s x) : Mk s (State.zeroBoth x) := by
  unfold State.zeroBoth
  with_reducible
    repeat' first
      | assumption | apply State.portWrite_mk | apply State.set_mk | decide
      | exact Mk.key _ _ (by decide) | refine Mk.foldl _ ?_ (fun y a hy => ?_) | refine Mk.ite ?_ ?_ | lift_lets
      | (intro y; refine Mk.cut s y ?_ (fun hy => ?_); (on_goal 1 => subst y); (on_goal 2 => clear_value y)) | intro y | apply Mk.mk_of

theorem State.ntcStep_mk {s x : State} (a1 : Nat) (h : Mk s x) : Mk s (State.ntcStep x a1) := by
  unfold State.ntcStep
  with_reducible
    repeat' first
      | assumption | apply State.chgEvent_mk | apply State.chgBit_mk | apply State.set_mk | decide
      | exact Mk.key _ _ (by decide) | refine Mk.foldl _ ?_ (fun y a hy => ?_) | refine Mk.ite ?_ ?_ | lift_lets
      | (intro y; refine Mk.cut s y ?_ (fun hy => ?_); (on_goal 1 => subst y); (on_goal 2 => clear_value y)) | intro y | apply Mk.mk_of

theorem State.zoneUpdate_mk {s x : State} (h : Mk s x) : Mk s (State.zoneUpdate x) := by
  unfold State.zoneUpdate
  with_reducible
    repeat' first
      | assumption | apply State.ntcStep_mk | apply State.chgEvent_mk | apply State.chgBit_mk
      | apply State.set_mk | decide | exact Mk.key _ _ (by decide) | refine Mk.foldl _ ?_ (fun y a hy => ?_) | refine Mk.ite ?_ ?_
      | lift_lets | (intro y; refine Mk.cut s y ?_ (fun hy => ?_); (on_goal 1 => subst y); (on_goal 2 => clear_value y)) | intro y | split
      | apply Mk.mk_of

theorem State.setSoc_mk {s x : State} (a1 : Nat) (a2 : Nat) (h : Mk s x) : Mk s (State.setSoc x a1 a2) := by
  unfold State.setSoc
  with_reducible
    repeat' first
      | assumption | apply State.put_mk | apply State.set_mk | decide | exact Mk.key _ _ (by decide)
      | refine Mk.foldl _ ?_ (fun y a hy => ?_) | refine Mk.ite ?_ ?_ | lift_lets
      | (intro y; refine Mk.cut s y ?_ (fun hy => ?_); (on_goal 1 => subst y); (on_goal 2 => clear_value y)) | intro y | apply Mk.mk_of

theorem State.cellReport_mk {s x : State} (h : Mk s x) : Mk s (State.cellReport x) := by
  unfold State.cellReport
  with_reducible
    repeat' first
      | assumption | apply State.setI_mk | apply State.set_mk | decide | exact Mk.key _ _ (by decide)
      | refine Mk.foldl _ ?_ (fun y a hy => ?_) | refine Mk.ite ?_ ?_ | lift_lets
      | (intro y; refine Mk.cut s y ?_ (fun hy => ?_); (on_goal 1 => subst y); (on_goal 2 => clear_value y)) | intro y | apply Mk.mk_of

theorem State.cutoff_mk {s x : State} (h : Mk s x) : Mk s (State.cutoff x) := by
  unfold State.cutoff
  with_reducible
    repeat' first
      | assumption | apply State.setSoc_mk | apply State.chgCond_mk | apply State.chgBit_mk
      | apply State.portIfNew_mk | apply State.set_mk | decide | exact Mk.key _ _ (by decide) | refine Mk.foldl _ ?_ (fun y a hy => ?_)
      | refine Mk.ite ?_ ?_ | lift_lets
      | (intro y; refine Mk.cut s y ?_ (fun hy => ?_); (on_goal 1 => subst y); (on_goal 2 => clear_value y)) | intro y | apply Mk.mk_of

theorem State.chgEnter_mk {s x : State} (a1 : Nat) (a2 : Nat) (h : Mk s x) : Mk s (State.chgEnter x a1 a2) := by
  unfold State.chgEnter
  with_reducible
    repeat' first
      | assumption | apply State.set_mk | decide | exact Mk.key _ _ (by decide)
      | refine Mk.foldl _ ?_ (fun y a hy => ?_) | refine Mk.ite ?_ ?_ | lift_lets
      | (intro y; refine Mk.cut s y ?_ (fun hy => ?_); (on_goal 1 => subst y); (on_goal 2 => clear_value y)) | intro y | apply Mk.mk_of

theorem State.newCycle_mk {s x : State} (h : Mk s x) : Mk s (State.newCycle x) := by
  unfold State.newCycle
  with_reducible
    repeat' first
      | assumption | apply State.set_mk | decide | exact Mk.key _ _ (by decide)
      | refine Mk.foldl _ ?_ (fun y a hy => ?_) | refine Mk.ite ?_ ?_ | lift_lets
      | (intro y; refine Mk.cut s y ?_ (fun hy => ?_); (on_goal 1 => subst y); (on_goal 2 => clear_value y)) | intro y | apply Mk.mk_of

theorem State.select_mk {s x : State} (h : Mk s x) : Mk s (State.select x) := by
  unfold State.select
  with_reducible
    repeat' first
      | assumption | apply State.newCycle_mk | apply State.chgEnter_mk | decide
      | exact Mk.key _ _ (by decide) | refine Mk.foldl _ ?_ (fun y a hy => ?_) | refine Mk.ite ?_ ?_ | lift_lets
      | (intro y; refine Mk.cut s y ?_ (fun hy => ?_); (on_goal 1 => subst y); (on_goal 2 => clear_value y)) | intro y | split
      | apply Mk.mk_of

theorem State.selectOrHold_mk {s x : State} (h : Mk s x) : Mk s (State.selectOrHold x) := by
  unfold State.selectOrHold
  with_reducible
    repeat' first
      | assumption | apply State.select_mk | apply State.chgEnter_mk | decide
      | exact Mk.key _ _ (by decide) | refine Mk.foldl _ ?_ (fun y a hy => ?_) | refine Mk.ite ?_ ?_ | lift_lets
      | (intro y; refine Mk.cut s y ?_ (fun hy => ?_); (on_goal 1 => subst y); (on_goal 2 => clear_value y)) | intro y | apply Mk.mk_of

theorem State.chgWrite_mk {s x : State} (a1 : Bool) (h : Mk s x) : Mk s (State.chgWrite x a1) := by
  unfold State.chgWrite
  with_reducible
    repeat' first
      | assumption | apply State.writeChg_mk | apply State.portIfNew_mk | apply State.set_mk | decide
      | exact Mk.key _ _ (by decide) | refine Mk.foldl _ ?_ (fun y a hy => ?_) | refine Mk.ite ?_ ?_ | lift_lets
      | (intro y; refine Mk.cut s y ?_ (fun hy => ?_); (on_goal 1 => subst y); (on_goal 2 => clear_value y)) | intro y | apply Mk.mk_of

theorem State.chgModeChange_mk {s x : State} (h : Mk s x) : Mk s (State.chgModeChange x) := by
  unfold State.chgModeChange
  with_reducible
    repeat' first
      | assumption | apply State.chgEnter_mk | apply State.writeChg_mk | decide
      | exact Mk.key _ _ (by decide) | refine Mk.foldl _ ?_ (fun y a hy => ?_) | refine Mk.ite ?_ ?_ | lift_lets
      | (intro y; refine Mk.cut s y ?_ (fun hy => ?_); (on_goal 1 => subst y); (on_goal 2 => clear_value y)) | intro y | apply Mk.mk_of

theorem State.balOff_mk {s x : State} (h : Mk s x) : Mk s (State.balOff x) := by
  unfold State.balOff
  with_reducible
    repeat' first
      | assumption | apply State.set_mk | decide | exact Mk.key _ _ (by decide)
      | refine Mk.foldl _ ?_ (fun y a hy => ?_) | refine Mk.ite ?_ ?_ | lift_lets
      | (intro y; refine Mk.cut s y ?_ (fun hy => ?_); (on_goal 1 => subst y); (on_goal 2 => clear_value y)) | intro y | apply Mk.mk_of

theorem State.packGone_mk {s x : State} (h : Mk s x) : Mk s (State.packGone x) := by
  unfold State.packGone
  with_reducible
    repeat' first
      | assumption | apply State.chgEnter_mk | apply State.zeroBoth_mk | apply State.clearK_mk
      | apply State.set_mk | decide | exact Mk.key _ _ (by decide) | refine Mk.foldl _ ?_ (fun y a hy => ?_) | refine Mk.ite ?_ ?_
      | lift_lets | (intro y; refine Mk.cut s y ?_ (fun hy => ?_); (on_goal 1 => subst y); (on_goal 2 => clear_value y)) | intro y
      | apply Mk.mk_of

theorem State.packInit_mk {s x : State} (h : Mk s x) : Mk s (State.packInit x) := by
  unfold State.packInit
  with_reducible
    repeat' first
      | assumption | apply State.put_mk | decide | exact Mk.key _ _ (by decide)
      | refine Mk.foldl _ ?_ (fun y a hy => ?_) | refine Mk.ite ?_ ?_ | lift_lets
      | (intro y; refine Mk.cut s y ?_ (fun hy => ?_); (on_goal 1 => subst y); (on_goal 2 => clear_value y)) | intro y | apply Mk.mk_of

theorem State.packFirst_mk {s x : State} (h : Mk s x) : Mk s (State.packFirst x) := by
  unfold State.packFirst
  with_reducible
    repeat' first
      | assumption | apply State.packInit_mk | decide | exact Mk.key _ _ (by decide)
      | refine Mk.foldl _ ?_ (fun y a hy => ?_) | refine Mk.ite ?_ ?_ | lift_lets
      | (intro y; refine Mk.cut s y ?_ (fun hy => ?_); (on_goal 1 => subst y); (on_goal 2 => clear_value y)) | intro y | apply Mk.mk_of

theorem State.ordering_mk {s x : State} (h : Mk s x) : Mk s (State.ordering x) := by
  unfold State.ordering
  with_reducible
    repeat' first
      | assumption | apply State.set_mk | decide | exact Mk.key _ _ (by decide)
      | refine Mk.foldl _ ?_ (fun y a hy => ?_) | refine Mk.ite ?_ ?_ | lift_lets
      | (intro y; refine Mk.cut s y ?_ (fun hy => ?_); (on_goal 1 => subst y); (on_goal 2 => clear_value y)) | intro y | apply Mk.mk_of

theorem State.modFab_mk {s x : State} (a1 : Port) (a2 : FabPort → FabPort) (h : Mk s x) : Mk s (State.modFab x a1 a2) := by
  unfold State.modFab
  with_reducible
    repeat' first
      | assumption | decide | exact Mk.key _ _ (by decide) | refine Mk.foldl _ ?_ (fun y a hy => ?_)
      | refine Mk.ite ?_ ?_ | lift_lets
      | (intro y; refine Mk.cut s y ?_ (fun hy => ?_); (on_goal 1 => subst y); (on_goal 2 => clear_value y)) | intro y | apply Mk.mk_of

theorem State.fabQueue_mk {s x : State} (a1 : Port) (a2 : Nat) (a3 : Frame) (h : Mk s x) : Mk s (State.fabQueue x a1 a2 a3) := by
  unfold State.fabQueue
  with_reducible
    repeat' first
      | assumption | apply State.modFab_mk | apply State.raise_mk | apply State.tally_mk | decide
      | exact Mk.key _ _ (by decide) | refine Mk.foldl _ ?_ (fun y a hy => ?_) | refine Mk.ite ?_ ?_ | lift_lets
      | (intro y; refine Mk.cut s y ?_ (fun hy => ?_); (on_goal 1 => subst y); (on_goal 2 => clear_value y)) | intro y | apply Mk.mk_of

theorem State.fabSeq_mk {s x : State} (a1 : Frame) (h : Mk s x) : Mk s (State.fabSeq x a1).2 := by
  unfold State.fabSeq
  with_reducible
    repeat' first
      | assumption | decide | exact Mk.key _ _ (by decide) | refine Mk.foldl _ ?_ (fun y a hy => ?_)
      | refine Mk.ite ?_ ?_ | refine Mk.ite_snd ?_ ?_ | refine Mk.ite_trd ?_ ?_ | lift_lets
      | (intro y; refine Mk.cut s y ?_ (fun hy => ?_); (on_goal 1 => subst y); (on_goal 2 => clear_value y)) | intro y | split
      | (refine Mk.snd_of ?_ (by assumption)) | (refine Mk.trd_of ?_ (by assumption)) | apply Mk.mk_of

theorem State.fabLocal_mk {s x : State} (a1 : Port) (a2 : Nat) (a3 : Frame) (h : Mk s x) : Mk s (State.fabLocal x a1 a2 a3) := by
  unfold State.fabLocal
  with_reducible
    repeat' first
      | assumption | apply State.fabSeq_mk | apply State.fabQueue_mk | decide
      | exact Mk.key _ _ (by decide) | refine Mk.foldl _ ?_ (fun y a hy => ?_) | refine Mk.ite ?_ ?_ | refine Mk.ite_snd ?_ ?_
      | refine Mk.ite_trd ?_ ?_ | lift_lets
      | (intro y; refine Mk.cut s y ?_ (fun hy => ?_); (on_goal 1 => subst y); (on_goal 2 => clear_value y)) | intro y | split
      | (refine Mk.snd_of ?_ (by assumption)) | (refine Mk.trd_of ?_ (by assumption)) | apply Mk.mk_of

theorem State.modL_mk {s x : State} (a1 : Port) (a2 : LinkPort → LinkPort) (h : Mk s x) : Mk s (State.modL x a1 a2) := by
  unfold State.modL
  with_reducible
    repeat' first
      | assumption | decide | exact Mk.key _ _ (by decide) | refine Mk.foldl _ ?_ (fun y a hy => ?_)
      | refine Mk.ite ?_ ?_ | lift_lets
      | (intro y; refine Mk.cut s y ?_ (fun hy => ?_); (on_goal 1 => subst y); (on_goal 2 => clear_value y)) | intro y | apply Mk.mk_of

theorem State.linkStat_mk {s x : State} (a1 : Port) (a2 : Nat) (h : Mk s x) : Mk s (State.linkStat x a1 a2) := by
  unfold State.linkStat
  with_reducible
    repeat' first
      | assumption | apply State.count_mk | decide | exact Mk.key _ _ (by decide)
      | refine Mk.foldl _ ?_ (fun y a hy => ?_) | refine Mk.ite ?_ ?_ | lift_lets
      | (intro y; refine Mk.cut s y ?_ (fun hy => ?_); (on_goal 1 => subst y); (on_goal 2 => clear_value y)) | intro y | split
      | apply Mk.mk_of

theorem State.moistObj_mk {s x : State} (a1 : Port) (h : Mk s x) : Mk s (State.moistObj x a1) := by
  unfold State.moistObj
  with_reducible
    repeat' first
      | assumption | apply State.set_mk | decide | exact Mk.key _ _ (by decide)
      | refine Mk.foldl _ ?_ (fun y a hy => ?_) | refine Mk.ite ?_ ?_ | lift_lets
      | (intro y; refine Mk.cut s y ?_ (fun hy => ?_); (on_goal 1 => subst y); (on_goal 2 => clear_value y)) | intro y | apply Mk.mk_of

theorem State.sendPay_mk {s x : State} (a1 : Port) (a2 : List Byte) (h : Mk s x) : Mk s (State.sendPay x a1 a2) := by
  unfold State.sendPay
  with_reducible
    repeat' first
      | assumption | apply State.modL_mk | apply State.fabLocal_mk | decide
      | exact Mk.key _ _ (by decide) | refine Mk.foldl _ ?_ (fun y a hy => ?_) | refine Mk.ite ?_ ?_ | lift_lets
      | (intro y; refine Mk.cut s y ?_ (fun hy => ?_); (on_goal 1 => subst y); (on_goal 2 => clear_value y)) | intro y | apply Mk.mk_of

theorem State.sendMsg_mk {s x : State} (a1 : Port) (a2 : Nat) (a3 : List Byte) (a4 : Bool) (h : Mk s x) : Mk s (State.sendMsg x a1 a2 a3 a4) := by
  unfold State.sendMsg
  with_reducible
    repeat' first
      | assumption | apply State.sendPay_mk | apply State.modL_mk | decide
      | exact Mk.key _ _ (by decide) | refine Mk.foldl _ ?_ (fun y a hy => ?_) | refine Mk.ite ?_ ?_ | lift_lets
      | (intro y; refine Mk.cut s y ?_ (fun hy => ?_); (on_goal 1 => subst y); (on_goal 2 => clear_value y)) | intro y | apply Mk.mk_of

theorem State.writeContract_mk {s x : State} (a1 : Port) (a2 : Terms) (a3 : Nat) (h : Mk s x) : Mk s (State.writeContract x a1 a2 a3) := by
  unfold State.writeContract
  with_reducible
    repeat' first
      | assumption | apply State.portIfNew_mk | decide | exact Mk.key _ _ (by decide)
      | refine Mk.foldl _ ?_ (fun y a hy => ?_) | refine Mk.ite ?_ ?_ | lift_lets
      | (intro y; refine Mk.cut s y ?_ (fun hy => ?_); (on_goal 1 => subst y); (on_goal 2 => clear_value y)) | intro y | apply Mk.mk_of

theorem State.setLink_mk {s x : State} (a1 : Port) (a2 : Nat) (h : Mk s x) : Mk s (State.setLink x a1 a2) := by
  unfold State.setLink
  with_reducible
    repeat' first
      | assumption | apply State.set_mk | decide | exact Mk.key _ _ (by decide)
      | refine Mk.foldl _ ?_ (fun y a hy => ?_) | refine Mk.ite ?_ ?_ | lift_lets
      | (intro y; refine Mk.cut s y ?_ (fun hy => ?_); (on_goal 1 => subst y); (on_goal 2 => clear_value y)) | intro y | apply Mk.mk_of

theorem State.setRole_mk {s x : State} (a1 : Port) (a2 : Terms) (h : Mk s x) : Mk s (State.setRole x a1 a2) := by
  unfold State.setRole
  with_reducible
    repeat' first
      | assumption | apply State.set_mk | decide | exact Mk.key _ _ (by decide)
      | refine Mk.foldl _ ?_ (fun y a hy => ?_) | refine Mk.ite ?_ ?_ | lift_lets
      | (intro y; refine Mk.cut s y ?_ (fun hy => ?_); (on_goal 1 => subst y); (on_goal 2 => clear_value y)) | intro y | apply Mk.mk_of

theorem State.linkZ_mk {s x : State} (a1 : Port) (h : Mk s x) : Mk s (State.linkZ x a1) := by
  unfold State.linkZ
  with_reducible
    repeat' first
      | assumption | apply State.stopG_mk | decide | exact Mk.key _ _ (by decide)
      | refine Mk.foldl _ ?_ (fun y a hy => ?_) | refine Mk.ite ?_ ?_ | lift_lets
      | (intro y; refine Mk.cut s y ?_ (fun hy => ?_); (on_goal 1 => subst y); (on_goal 2 => clear_value y)) | intro y | apply Mk.mk_of

theorem State.linkRun_mk {s x : State} (a1 : Port) (h : Mk s x) : Mk s (State.linkRun x a1) := by
  unfold State.linkRun
  with_reducible
    repeat' first
      | assumption | apply State.freeG_mk | decide | exact Mk.key _ _ (by decide)
      | refine Mk.foldl _ ?_ (fun y a hy => ?_) | refine Mk.ite ?_ ?_ | lift_lets
      | (intro y; refine Mk.cut s y ?_ (fun hy => ?_); (on_goal 1 => subst y); (on_goal 2 => clear_value y)) | intro y | apply Mk.mk_of

theorem State.endLoss_mk {s x : State} (a1 : Bool) (h : Mk s x) : Mk s (State.endLoss x a1) := by
  unfold State.endLoss
  with_reducible
    repeat' first
      | assumption | apply State.sourceLoss_mk | decide | exact Mk.key _ _ (by decide)
      | refine Mk.foldl _ ?_ (fun y a hy => ?_) | refine Mk.ite ?_ ?_ | lift_lets
      | (intro y; refine Mk.cut s y ?_ (fun hy => ?_); (on_goal 1 => subst y); (on_goal 2 => clear_value y)) | intro y | apply Mk.mk_of

theorem State.voidContract_mk {s x : State} (a1 : Port) (h : Mk s x) : Mk s (State.voidContract x a1) := by
  unfold State.voidContract
  with_reducible
    repeat' first
      | assumption | apply State.setRole_mk | apply State.writeContract_mk | apply State.modL_mk
      | apply State.set_mk | decide | exact Mk.key _ _ (by decide) | refine Mk.foldl _ ?_ (fun y a hy => ?_) | refine Mk.ite ?_ ?_
      | lift_lets | (intro y; refine Mk.cut s y ?_ (fun hy => ?_); (on_goal 1 => subst y); (on_goal 2 => clear_value y)) | intro y
      | apply Mk.mk_of

theorem State.toNeutral_mk {s x : State} (a1 : Port) (h : Mk s x) : Mk s (State.toNeutral x a1) := by
  unfold State.toNeutral
  with_reducible
    repeat' first
      | assumption | apply State.voidContract_mk | apply State.endLoss_mk | apply State.linkZ_mk
      | apply State.setLink_mk | apply State.modL_mk | apply State.ordering_mk | decide | exact Mk.key _ _ (by decide)
      | refine Mk.foldl _ ?_ (fun y a hy => ?_) | refine Mk.ite ?_ ?_ | lift_lets
      | (intro y; refine Mk.cut s y ?_ (fun hy => ?_); (on_goal 1 => subst y); (on_goal 2 => clear_value y)) | intro y | apply Mk.mk_of

theorem State.toHardReset_mk {s x : State} (a1 : Port) (h : Mk s x) : Mk s (State.toHardReset x a1) := by
  unfold State.toHardReset
  with_reducible
    repeat' first
      | assumption | apply State.voidContract_mk | apply State.endLoss_mk | apply State.linkRun_mk
      | apply State.setLink_mk | apply State.modL_mk | apply State.ordering_mk | decide | exact Mk.key _ _ (by decide)
      | refine Mk.foldl _ ?_ (fun y a hy => ?_) | refine Mk.ite ?_ ?_ | lift_lets
      | (intro y; refine Mk.cut s y ?_ (fun hy => ?_); (on_goal 1 => subst y); (on_goal 2 => clear_value y)) | intro y | apply Mk.mk_of

theorem State.sendHard_mk {s x : State} (a1 : Port) (a2 : Nat) (h : Mk s x) : Mk s (State.sendHard x a1 a2) := by
  unfold State.sendHard
  with_reducible
    repeat' first
      | assumption | apply State.toHardReset_mk | apply State.sendMsg_mk | apply State.linkStat_mk
      | apply State.modL_mk | apply State.raise_mk | decide | exact Mk.key _ _ (by decide) | refine Mk.foldl _ ?_ (fun y a hy => ?_)
      | refine Mk.ite ?_ ?_ | lift_lets
      | (intro y; refine Mk.cut s y ?_ (fun hy => ?_); (on_goal 1 => subst y); (on_goal 2 => clear_value y)) | intro y | apply Mk.mk_of

theorem State.onHardReset_mk {s x : State} (a1 : Port) (a2 : Nat) (h : Mk s x) : Mk s (State.onHardReset x a1 a2) := by
  unfold State.onHardReset
  with_reducible
    repeat' first
      | assumption | apply State.toHardReset_mk | apply State.linkStat_mk | apply State.raise_mk
      | decide | exact Mk.key _ _ (by decide) | refine Mk.foldl _ ?_ (fun y a hy => ?_) | refine Mk.ite ?_ ?_ | lift_lets
      | (intro y; refine Mk.cut s y ?_ (fun hy => ?_); (on_goal 1 => subst y); (on_goal 2 => clear_value y)) | intro y | apply Mk.mk_of

theorem State.toRamp_mk {s x : State} (a1 : Port) (h : Mk s x) : Mk s (State.toRamp x a1) := by
  unfold State.toRamp
  with_reducible
    repeat' first
      | assumption | apply State.endLoss_mk | apply State.setLink_mk | apply State.modL_mk
      | apply State.set_mk | decide | exact Mk.key _ _ (by decide) | refine Mk.foldl _ ?_ (fun y a hy => ?_) | refine Mk.ite ?_ ?_
      | lift_lets | (intro y; refine Mk.cut s y ?_ (fun hy => ?_); (on_goal 1 => subst y); (on_goal 2 => clear_value y)) | intro y
      | apply Mk.mk_of

theorem State.toDetached_mk {s x : State} (a1 : Port) (h : Mk s x) : Mk s (State.toDetached x a1) := by
  unfold State.toDetached
  with_reducible
    repeat' first
      | assumption | apply State.voidContract_mk | apply State.linkZ_mk | apply State.setLink_mk
      | apply State.moistObj_mk | apply State.modL_mk | apply State.ordering_mk | apply State.set_mk | decide
      | exact Mk.key _ _ (by decide) | refine Mk.foldl _ ?_ (fun y a hy => ?_) | refine Mk.ite ?_ ?_ | lift_lets
      | (intro y; refine Mk.cut s y ?_ (fun hy => ?_); (on_goal 1 => subst y); (on_goal 2 => clear_value y)) | intro y | apply Mk.mk_of

theorem State.toOff_mk {s x : State} (a1 : Port) (h : Mk s x) : Mk s (State.toOff x a1) := by
  unfold State.toOff
  with_reducible
    repeat' first
      | assumption | apply State.voidContract_mk | apply State.endLoss_mk | apply State.linkZ_mk
      | apply State.setLink_mk | apply State.modL_mk | apply State.ordering_mk | decide | exact Mk.key _ _ (by decide)
      | refine Mk.foldl _ ?_ (fun y a hy => ?_) | refine Mk.ite ?_ ?_ | lift_lets
      | (intro y; refine Mk.cut s y ?_ (fun hy => ?_); (on_goal 1 => subst y); (on_goal 2 => clear_value y)) | intro y | apply Mk.mk_of

theorem State.sensedStep_mk {s x : State} (a1 : Port) (h : Mk s x) : Mk s (State.sensedStep x a1) := by
  unfold State.sensedStep
  with_reducible
    repeat' first
      | assumption | apply State.toNeutral_mk | decide | exact Mk.key _ _ (by decide)
      | refine Mk.foldl _ ?_ (fun y a hy => ?_) | refine Mk.ite ?_ ?_ | lift_lets
      | (intro y; refine Mk.cut s y ?_ (fun hy => ?_); (on_goal 1 => subst y); (on_goal 2 => clear_value y)) | intro y | apply Mk.mk_of

theorem State.sendOffer_mk {s x : State} (a1 : Port) (h : Mk s x) : Mk s (State.sendOffer x a1) := by
  unfold State.sendOffer
  with_reducible
    repeat' first
      | assumption | apply State.setLink_mk | apply State.sendMsg_mk | apply State.modL_mk | decide
      | exact Mk.key _ _ (by decide) | refine Mk.foldl _ ?_ (fun y a hy => ?_) | refine Mk.ite ?_ ?_ | lift_lets
      | (intro y; refine Mk.cut s y ?_ (fun hy => ?_); (on_goal 1 => subst y); (on_goal 2 => clear_value y)) | intro y | split
      | apply Mk.mk_of

theorem State.sendDetach_mk {s x : State} (a1 : Port) (a2 : Nat) (h : Mk s x) : Mk s (State.sendDetach x a1 a2) := by
  unfold State.sendDetach
  with_reducible
    repeat' first
      | assumption | apply State.sendMsg_mk | apply State.modL_mk | decide
      | exact Mk.key _ _ (by decide) | refine Mk.foldl _ ?_ (fun y a hy => ?_) | refine Mk.ite ?_ ?_ | lift_lets
      | (intro y; refine Mk.cut s y ?_ (fun hy => ?_); (on_goal 1 => subst y); (on_goal 2 => clear_value y)) | intro y | apply Mk.mk_of

theorem State.detachFree_mk {s x : State} (a1 : Port) (a2 : Nat) (h : Mk s x) : Mk s (State.detachFree x a1 a2) := by
  unfold State.detachFree
  with_reducible
    repeat' first
      | assumption | apply State.sendDetach_mk | decide | exact Mk.key _ _ (by decide)
      | refine Mk.foldl _ ?_ (fun y a hy => ?_) | refine Mk.ite ?_ ?_ | lift_lets
      | (intro y; refine Mk.cut s y ?_ (fun hy => ?_); (on_goal 1 => subst y); (on_goal 2 => clear_value y)) | intro y | apply Mk.mk_of

theorem State.policyContract_mk {s x : State} (a1 : Port) (h : Mk s x) : Mk s (State.policyContract x a1) := by
  unfold State.policyContract
  with_reducible
    repeat' first
      | assumption | apply State.sendDetach_mk | decide | exact Mk.key _ _ (by decide)
      | refine Mk.foldl _ ?_ (fun y a hy => ?_) | refine Mk.ite ?_ ?_ | lift_lets
      | (intro y; refine Mk.cut s y ?_ (fun hy => ?_); (on_goal 1 => subst y); (on_goal 2 => clear_value y)) | intro y | apply Mk.mk_of

theorem State.linkLeave_mk {s x : State} (a1 : Port) (h : Mk s x) : Mk s (State.linkLeave x a1) := by
  unfold State.linkLeave
  with_reducible
    repeat' first
      | assumption | apply State.detachFree_mk | apply State.toRamp_mk | apply State.toNeutral_mk
      | apply State.modL_mk | decide | exact Mk.key _ _ (by decide) | refine Mk.foldl _ ?_ (fun y a hy => ?_) | refine Mk.ite ?_ ?_
      | lift_lets | (intro y; refine Mk.cut s y ?_ (fun hy => ?_); (on_goal 1 => subst y); (on_goal 2 => clear_value y)) | intro y
      | apply Mk.mk_of

theorem State.linkOvercast_mk {s x : State} (a1 : Port) (h : Mk s x) : Mk s (State.linkOvercast x a1) := by
  unfold State.linkOvercast
  with_reducible
    repeat' first
      | assumption | apply State.toNeutral_mk | apply State.linkZ_mk | apply State.sendMsg_mk
      | apply State.linkStat_mk | apply State.modL_mk | apply State.raise_mk | decide | exact Mk.key _ _ (by decide)
      | refine Mk.foldl _ ?_ (fun y a hy => ?_) | refine Mk.ite ?_ ?_ | lift_lets
      | (intro y; refine Mk.cut s y ?_ (fun hy => ?_); (on_goal 1 => subst y); (on_goal 2 => clear_value y)) | intro y | apply Mk.mk_of

theorem State.wearReport_mk {s x : State} (h : Mk s x) : Mk s (State.wearReport x) := by
  unfold State.wearReport
  with_reducible
    repeat' first
      | assumption | apply State.raise_mk | decide | exact Mk.key _ _ (by decide)
      | refine Mk.foldl _ ?_ (fun y a hy => ?_) | refine Mk.ite ?_ ?_ | lift_lets
      | (intro y; refine Mk.cut s y ?_ (fun hy => ?_); (on_goal 1 => subst y); (on_goal 2 => clear_value y)) | intro y | apply Mk.mk_of

theorem State.wearObjs_mk {s x : State} (h : Mk s x) : Mk s (State.wearObjs x) := by
  unfold State.wearObjs
  with_reducible
    repeat' first
      | assumption | apply State.wearReport_mk | apply State.set_mk | decide
      | exact Mk.key _ _ (by decide) | refine Mk.foldl _ ?_ (fun y a hy => ?_) | refine Mk.ite ?_ ?_ | lift_lets
      | (intro y; refine Mk.cut s y ?_ (fun hy => ?_); (on_goal 1 => subst y); (on_goal 2 => clear_value y)) | intro y | apply Mk.mk_of

theorem State.sectorFail_mk {s x : State} (a1 : Nat) (a2 : Nat) (a3 : Nat) (h : Mk s x) : Mk s (State.sectorFail x a1 a2 a3) := by
  unfold State.sectorFail
  with_reducible
    repeat' first
      | assumption | apply State.wearObjs_mk | apply State.raise_mk | decide
      | exact Mk.key _ _ (by decide) | refine Mk.foldl _ ?_ (fun y a hy => ?_) | refine Mk.ite ?_ ?_ | lift_lets
      | (intro y; refine Mk.cut s y ?_ (fun hy => ?_); (on_goal 1 => subst y); (on_goal 2 => clear_value y)) | intro y | apply Mk.mk_of

theorem State.flashBusy_mk {s x : State} (a1 : Bool) (h : Mk s x) : Mk s (State.flashBusy x a1) := by
  unfold State.flashBusy
  with_reducible
    repeat' first
      | assumption | apply State.set_mk | decide | exact Mk.key _ _ (by decide)
      | refine Mk.foldl _ ?_ (fun y a hy => ?_) | refine Mk.ite ?_ ?_ | lift_lets
      | (intro y; refine Mk.cut s y ?_ (fun hy => ?_); (on_goal 1 => subst y); (on_goal 2 => clear_value y)) | intro y | apply Mk.mk_of

theorem State.commitStart_mk {s x : State} (h : Mk s x) : Mk s (State.commitStart x) := by
  unfold State.commitStart
  with_reducible
    repeat' first
      | assumption | apply State.flashBusy_mk | apply State.set_mk | decide
      | exact Mk.key _ _ (by decide) | refine Mk.foldl _ ?_ (fun y a hy => ?_) | refine Mk.ite ?_ ?_ | lift_lets
      | (intro y; refine Mk.cut s y ?_ (fun hy => ?_); (on_goal 1 => subst y); (on_goal 2 => clear_value y)) | intro y | apply Mk.mk_of

theorem State.checkpoint_mk {s x : State} (h : Mk s x) : Mk s (State.checkpoint x) := by
  unfold State.checkpoint
  with_reducible
    repeat' first
      | assumption | decide | exact Mk.key _ _ (by decide) | refine Mk.foldl _ ?_ (fun y a hy => ?_)
      | refine Mk.ite ?_ ?_ | lift_lets
      | (intro y; refine Mk.cut s y ?_ (fun hy => ?_); (on_goal 1 => subst y); (on_goal 2 => clear_value y)) | intro y | apply Mk.mk_of

theorem State.commitDone_mk {s x : State} (a1 : Bool) (a2 : Nat) (h : Mk s x) : Mk s (State.commitDone x a1 a2) := by
  unfold State.commitDone
  with_reducible
    repeat' first
      | assumption | apply State.checkpoint_mk | apply State.flashBusy_mk | apply State.sectorFail_mk
      | apply State.wearObjs_mk | apply State.set_mk | decide | exact Mk.key _ _ (by decide) | refine Mk.foldl _ ?_ (fun y a hy => ?_)
      | refine Mk.ite ?_ ?_ | lift_lets
      | (intro y; refine Mk.cut s y ?_ (fun hy => ?_); (on_goal 1 => subst y); (on_goal 2 => clear_value y)) | intro y | split
      | apply Mk.mk_of

theorem State.commitTorn_mk {s x : State} (h : Mk s x) : Mk s (State.commitTorn x) := by
  unfold State.commitTorn
  with_reducible
    repeat' first
      | assumption | decide | exact Mk.key _ _ (by decide) | refine Mk.foldl _ ?_ (fun y a hy => ?_)
      | refine Mk.ite ?_ ?_ | lift_lets
      | (intro y; refine Mk.cut s y ?_ (fun hy => ?_); (on_goal 1 => subst y); (on_goal 2 => clear_value y)) | intro y | apply Mk.mk_of

theorem State.replayReport_mk {s x : State} (h : Mk s x) : Mk s (State.replayReport x) := by
  unfold State.replayReport
  with_reducible
    repeat' first
      | assumption | apply State.raise_mk | decide | exact Mk.key _ _ (by decide)
      | refine Mk.foldl _ ?_ (fun y a hy => ?_) | refine Mk.ite ?_ ?_ | lift_lets
      | (intro y; refine Mk.cut s y ?_ (fun hy => ?_); (on_goal 1 => subst y); (on_goal 2 => clear_value y)) | intro y | apply Mk.mk_of

theorem State.commitNow_mk {s x : State} (h : Mk s x) : Mk s (State.commitNow x) := by
  unfold State.commitNow
  with_reducible
    repeat' first
      | assumption | apply State.commitDone_mk | apply State.commitStart_mk | decide
      | exact Mk.key _ _ (by decide) | refine Mk.foldl _ ?_ (fun y a hy => ?_) | refine Mk.ite ?_ ?_ | lift_lets
      | (intro y; refine Mk.cut s y ?_ (fun hy => ?_); (on_goal 1 => subst y); (on_goal 2 => clear_value y)) | intro y | apply Mk.mk_of

theorem State.setBank_mk {s x : State} (a1 : Nat) (a2 : Bank) (h : Mk s x) : Mk s (State.setBank x a1 a2) := by
  unfold State.setBank
  with_reducible
    repeat' first
      | assumption | decide | exact Mk.key _ _ (by decide) | refine Mk.foldl _ ?_ (fun y a hy => ?_)
      | refine Mk.ite ?_ ?_ | lift_lets
      | (intro y; refine Mk.cut s y ?_ (fun hy => ?_); (on_goal 1 => subst y); (on_goal 2 => clear_value y)) | intro y | apply Mk.mk_of

theorem State.bankGens_mk {s x : State} (h : Mk s x) : Mk s (State.bankGens x) := by
  unfold State.bankGens
  with_reducible
    repeat' first
      | assumption | apply State.set_mk | decide | exact Mk.key _ _ (by decide)
      | refine Mk.foldl _ ?_ (fun y a hy => ?_) | refine Mk.ite ?_ ?_ | lift_lets
      | (intro y; refine Mk.cut s y ?_ (fun hy => ?_); (on_goal 1 => subst y); (on_goal 2 => clear_value y)) | intro y | apply Mk.mk_of

theorem State.writeBankF_mk {s x : State} (a1 : Nat) (a2 : Nat) (h : Mk s x) : Mk s (State.writeBankF x a1 a2) := by
  unfold State.writeBankF
  with_reducible
    repeat' first
      | assumption | apply State.bankGens_mk | apply State.wearObjs_mk | decide
      | exact Mk.key _ _ (by decide) | refine Mk.foldl _ ?_ (fun y a hy => ?_) | refine Mk.ite ?_ ?_ | split | lift_lets
      | (intro y; refine Mk.cut s y ?_ (fun hy => ?_); (on_goal 1 => subst y); (on_goal 2 => clear_value y)) | intro y | apply Mk.mk_of

theorem State.emptyKind_mk {s x : State} (a1 : Nat) (a2 : Nat) (h : Mk s x) : Mk s (State.emptyKind x a1 a2) := by
  unfold State.emptyKind
  with_reducible
    repeat' first
      | assumption | apply State.setBank_mk | apply State.set_mk | decide
      | exact Mk.key _ _ (by decide) | refine Mk.foldl _ ?_ (fun y a hy => ?_) | refine Mk.ite ?_ ?_ | lift_lets
      | (intro y; refine Mk.cut s y ?_ (fun hy => ?_); (on_goal 1 => subst y); (on_goal 2 => clear_value y)) | intro y | apply Mk.mk_of

theorem State.modArea_mk {s x : State} (a1 : Nat) (a2 : OtpArea → OtpArea) (h : Mk s x) : Mk s (State.modArea x a1 a2) := by
  unfold State.modArea
  with_reducible
    repeat' first
      | assumption | decide | exact Mk.key _ _ (by decide) | refine Mk.foldl _ ?_ (fun y a hy => ?_)
      | refine Mk.ite ?_ ?_ | lift_lets
      | (intro y; refine Mk.cut s y ?_ (fun hy => ?_); (on_goal 1 => subst y); (on_goal 2 => clear_value y)) | intro y | apply Mk.mk_of

theorem State.orderMode_mk {s x : State} (h : Mk s x) : Mk s (State.orderMode x) := by
  unfold State.orderMode
  with_reducible
    repeat' first
      | assumption | apply State.portIfNew_mk | decide | exact Mk.key _ _ (by decide)
      | refine Mk.foldl _ ?_ (fun y a hy => ?_) | refine Mk.ite ?_ ?_ | lift_lets
      | (intro y; refine Mk.cut s y ?_ (fun hy => ?_); (on_goal 1 => subst y); (on_goal 2 => clear_value y)) | intro y | apply Mk.mk_of

theorem State.hzMode_mk {s x : State} (h : Mk s x) : Mk s (State.hzMode x) := by
  unfold State.hzMode
  with_reducible
    repeat' first
      | assumption | apply State.set_mk | decide | exact Mk.key _ _ (by decide)
      | refine Mk.foldl _ ?_ (fun y a hy => ?_) | refine Mk.ite ?_ ?_ | lift_lets
      | (intro y; refine Mk.cut s y ?_ (fun hy => ?_); (on_goal 1 => subst y); (on_goal 2 => clear_value y)) | intro y | apply Mk.mk_of

theorem State.groupsOff_mk {s x : State} (h : Mk s x) : Mk s (State.groupsOff x) := by
  unfold State.groupsOff
  with_reducible
    repeat' first
      | assumption | apply State.srcState_mk | apply State.stopG_mk | decide
      | exact Mk.key _ _ (by decide) | refine Mk.foldl _ ?_ (fun y a hy => ?_) | refine Mk.ite ?_ ?_ | lift_lets
      | (intro y; refine Mk.cut s y ?_ (fun hy => ?_); (on_goal 1 => subst y); (on_goal 2 => clear_value y)) | intro y | apply Mk.mk_of

theorem State.coreOff_mk {s x : State} (h : Mk s x) : Mk s (State.coreOff x) := by
  unfold State.coreOff
  with_reducible
    repeat' first
      | assumption | apply State.allG_mk | decide | exact Mk.key _ _ (by decide)
      | refine Mk.foldl _ ?_ (fun y a hy => ?_) | refine Mk.ite ?_ ?_ | lift_lets
      | (intro y; refine Mk.cut s y ?_ (fun hy => ?_); (on_goal 1 => subst y); (on_goal 2 => clear_value y)) | intro y | apply Mk.mk_of

theorem State.freeLocks_mk {s x : State} (h : Mk s x) : Mk s (x.freeLocks) := by
  refine Mk.foldl_mem _ h fun y a ha hy => State.set_mk _ _ ?_ hy
  have := List.mem_range.mp ha
  show (8192 + (a + 1)) / 65536 ≠ 1
  omega

theorem State.mirror_mk {s x : State} (h : Mk s x) : Mk s (State.mirror x) := by
  unfold State.mirror
  with_reducible
    repeat' first
      | assumption | apply State.set_mk | decide | exact Mk.key _ _ (by decide)
      | refine Mk.foldl _ ?_ (fun y a hy => ?_) | refine Mk.ite ?_ ?_ | lift_lets
      | (intro y; refine Mk.cut s y ?_ (fun hy => ?_); (on_goal 1 => subst y); (on_goal 2 => clear_value y)) | intro y | apply Mk.mk_of

theorem State.modCan_mk {s x : State} (a1 : CanBus) (a2 : Can → Can) (h : Mk s x) : Mk s (State.modCan x a1 a2) := by
  unfold State.modCan
  with_reducible
    repeat' first
      | assumption | decide | exact Mk.key _ _ (by decide) | refine Mk.foldl _ ?_ (fun y a hy => ?_)
      | refine Mk.ite ?_ ?_ | lift_lets
      | (intro y; refine Mk.cut s y ?_ (fun hy => ?_); (on_goal 1 => subst y); (on_goal 2 => clear_value y)) | intro y | apply Mk.mk_of

theorem State.setCanState_mk {s x : State} (a1 : CanBus) (a2 : Nat) (h : Mk s x) : Mk s (State.setCanState x a1 a2) := by
  unfold State.setCanState
  with_reducible
    repeat' first
      | assumption | apply State.set_mk | decide | exact Mk.key _ _ (by decide)
      | refine Mk.foldl _ ?_ (fun y a hy => ?_) | refine Mk.ite ?_ ?_ | lift_lets
      | (intro y; refine Mk.cut s y ?_ (fun hy => ?_); (on_goal 1 => subst y); (on_goal 2 => clear_value y)) | intro y | apply Mk.mk_of

theorem State.canOff_mk {s x : State} (a1 : CanBus) (h : Mk s x) : Mk s (State.canOff x a1) := by
  unfold State.canOff
  with_reducible
    repeat' first
      | assumption | apply State.setCanState_mk | apply State.modCan_mk | apply State.clearBy_mk
      | apply State.set_mk | decide | exact Mk.key _ _ (by decide) | refine Mk.foldl _ ?_ (fun y a hy => ?_) | refine Mk.ite ?_ ?_
      | lift_lets | (intro y; refine Mk.cut s y ?_ (fun hy => ?_); (on_goal 1 => subst y); (on_goal 2 => clear_value y)) | intro y
      | apply Mk.mk_of

theorem State.fabOff_mk {s x : State} (h : Mk s x) : Mk s (State.fabOff x) := by
  unfold State.fabOff
  with_reducible
    repeat' first
      | assumption | apply State.clearK_mk | apply State.set_mk | decide | exact Mk.key _ _ (by decide)
      | refine Mk.foldl _ ?_ (fun y a hy => ?_) | refine Mk.ite ?_ ?_ | lift_lets
      | (intro y; refine Mk.cut s y ?_ (fun hy => ?_); (on_goal 1 => subst y); (on_goal 2 => clear_value y)) | intro y | apply Mk.mk_of

theorem State.linksOff_mk {s x : State} (h : Mk s x) : Mk s (State.linksOff x) := by
  unfold State.linksOff
  with_reducible
    repeat' first
      | assumption | apply State.toOff_mk | decide | exact Mk.key _ _ (by decide)
      | refine Mk.foldl _ ?_ (fun y a hy => ?_) | refine Mk.ite ?_ ?_ | lift_lets
      | (intro y; refine Mk.cut s y ?_ (fun hy => ?_); (on_goal 1 => subst y); (on_goal 2 => clear_value y)) | intro y | apply Mk.mk_of

theorem State.classStart_mk {s x : State} (h : Mk s x) : Mk s (State.classStart x) := by
  unfold State.classStart
  with_reducible
    repeat' first
      | assumption | apply State.srcState_mk | apply State.stopG_mk | decide
      | exact Mk.key _ _ (by decide) | refine Mk.foldl _ ?_ (fun y a hy => ?_) | refine Mk.ite ?_ ?_ | lift_lets
      | (intro y; refine Mk.cut s y ?_ (fun hy => ?_); (on_goal 1 => subst y); (on_goal 2 => clear_value y)) | intro y | apply Mk.mk_of

theorem State.abandonImage_mk {s x : State} (a1 : List Byte) (h : Mk s x) : Mk s (State.abandonImage x a1) := by
  unfold State.abandonImage
  with_reducible
    repeat' first
      | assumption | apply State.emptyKind_mk | decide | exact Mk.key _ _ (by decide)
      | refine Mk.foldl _ ?_ (fun y a hy => ?_) | refine Mk.ite ?_ ?_ | lift_lets
      | (intro y; refine Mk.cut s y ?_ (fun hy => ?_); (on_goal 1 => subst y); (on_goal 2 => clear_value y)) | intro y | apply Mk.mk_of

theorem State.downloadFail_mk {s x : State} (a1 : Bool) (h : Mk s x) : Mk s (State.downloadFail x a1) := by
  unfold State.downloadFail
  with_reducible
    repeat' first
      | assumption | apply State.abandonImage_mk | apply State.raise_mk | apply State.set_mk | decide
      | exact Mk.key _ _ (by decide) | refine Mk.foldl _ ?_ (fun y a hy => ?_) | refine Mk.ite ?_ ?_ | lift_lets
      | (intro y; refine Mk.cut s y ?_ (fun hy => ?_); (on_goal 1 => subst y); (on_goal 2 => clear_value y)) | intro y | split
      | apply Mk.mk_of

theorem State.dropTransfer_mk {s x : State} (a1 : Transfer) (h : Mk s x) : Mk s (State.dropTransfer x a1) := by
  unfold State.dropTransfer
  with_reducible
    repeat' first
      | assumption | apply State.abandonImage_mk | apply State.raise_mk | apply State.set_mk | decide
      | exact Mk.key _ _ (by decide) | refine Mk.foldl _ ?_ (fun y a hy => ?_) | refine Mk.ite ?_ ?_ | lift_lets
      | (intro y; refine Mk.cut s y ?_ (fun hy => ?_); (on_goal 1 => subst y); (on_goal 2 => clear_value y)) | intro y | apply Mk.mk_of

theorem State.sessionChange_mk {s x : State} (a1 : Nat) (h : Mk s x) : Mk s (State.sessionChange x a1) := by
  unfold State.sessionChange
  with_reducible
    repeat' first
      | assumption | apply State.dropTransfer_mk | apply State.downloadFail_mk | apply State.set_mk
      | decide | exact Mk.key _ _ (by decide) | refine Mk.foldl _ ?_ (fun y a hy => ?_) | refine Mk.ite ?_ ?_ | lift_lets
      | (intro y; refine Mk.cut s y ?_ (fun hy => ?_); (on_goal 1 => subst y); (on_goal 2 => clear_value y)) | intro y | apply Mk.mk_of

theorem State.freeLocksT_mk {s x : State} (h : Mk s x) : Mk s (x.freeLocksT) := by
  refine Mk.foldl_mem _ h fun y a ha hy => Mk.ite (State.set_mk _ _ ?_ hy) hy
  have := List.mem_range.mp ha
  show (8192 + (a + 1)) / 65536 ≠ 1
  omega

theorem State.parkStart_mk {s x : State} (a1 : Nat) (h : Mk s x) : Mk s (State.parkStart x a1) := by
  unfold State.parkStart
  with_reducible
    repeat' first
      | assumption | apply State.linkLeave_mk | apply State.chgEnter_mk | apply State.writeChg_mk
      | apply State.probeAbandon_mk | decide | exact Mk.key _ _ (by decide) | refine Mk.foldl _ ?_ (fun y a hy => ?_)
      | refine Mk.ite ?_ ?_ | lift_lets
      | (intro y; refine Mk.cut s y ?_ (fun hy => ?_); (on_goal 1 => subst y); (on_goal 2 => clear_value y)) | intro y | apply Mk.mk_of

theorem State.parkAbort_mk {s x : State} (h : Mk s x) : Mk s (State.parkAbort x) := by
  unfold State.parkAbort
  with_reducible
    repeat' first
      | assumption | apply State.epochDiscard_mk | decide | exact Mk.key _ _ (by decide)
      | refine Mk.foldl _ ?_ (fun y a hy => ?_) | refine Mk.ite ?_ ?_ | lift_lets
      | (intro y; refine Mk.cut s y ?_ (fun hy => ?_); (on_goal 1 => subst y); (on_goal 2 => clear_value y)) | intro y | apply Mk.mk_of

theorem State.skipRecords_mk {s x : State} (h : Mk s x) : Mk s (State.skipRecords x) := by
  unfold State.skipRecords
  with_reducible
    repeat' first
      | assumption | decide | exact Mk.key _ _ (by decide) | refine Mk.foldl _ ?_ (fun y a hy => ?_)
      | refine Mk.ite ?_ ?_ | lift_lets
      | (intro y; refine Mk.cut s y ?_ (fun hy => ?_); (on_goal 1 => subst y); (on_goal 2 => clear_value y)) | intro y | apply Mk.mk_of

theorem State.classAbandon_mk {s x : State} (h : Mk s x) : Mk s (State.classAbandon x) := by
  unfold State.classAbandon
  with_reducible
    repeat' first
      | assumption | apply State.modG_mk | decide | exact Mk.key _ _ (by decide)
      | refine Mk.foldl _ ?_ (fun y a hy => ?_) | refine Mk.ite ?_ ?_ | lift_lets
      | (intro y; refine Mk.cut s y ?_ (fun hy => ?_); (on_goal 1 => subst y); (on_goal 2 => clear_value y)) | intro y | apply Mk.mk_of

theorem State.commitBack_mk {s x : State} (h : Mk s x) : Mk s (State.commitBack x) := by
  unfold State.commitBack
  with_reducible
    repeat' first
      | assumption | decide | exact Mk.key _ _ (by decide) | refine Mk.foldl _ ?_ (fun y a hy => ?_)
      | refine Mk.ite ?_ ?_ | lift_lets
      | (intro y; refine Mk.cut s y ?_ (fun hy => ?_); (on_goal 1 => subst y); (on_goal 2 => clear_value y)) | intro y | apply Mk.mk_of

theorem State.enginesDrop_mk {s x : State} (h : Mk s x) : Mk s (State.enginesDrop x) := by
  unfold State.enginesDrop
  with_reducible
    repeat' first
      | assumption | apply State.allG_mk | decide | exact Mk.key _ _ (by decide)
      | refine Mk.foldl _ ?_ (fun y a hy => ?_) | refine Mk.ite ?_ ?_ | lift_lets
      | (intro y; refine Mk.cut s y ?_ (fun hy => ?_); (on_goal 1 => subst y); (on_goal 2 => clear_value y)) | intro y | apply Mk.mk_of

theorem State.failover_mk {s x : State} (a1 : Nat) (h : Mk s x) : Mk s (State.failover x a1) := by
  unfold State.failover
  with_reducible
    repeat' first
      | assumption | decide | exact Mk.key _ _ (by decide) | refine Mk.foldl _ ?_ (fun y a hy => ?_)
      | refine Mk.ite ?_ ?_ | lift_lets
      | (intro y; refine Mk.cut s y ?_ (fun hy => ?_); (on_goal 1 => subst y); (on_goal 2 => clear_value y)) | intro y | apply Mk.mk_of

theorem State.closeCapture_mk {s x : State} (a1 : Bool) (h : Mk s x) : Mk s (State.closeCapture x a1) := by
  unfold State.closeCapture
  with_reducible
    repeat' first
      | assumption | apply State.wearObjs_mk | apply State.raise_mk | apply State.count_mk
      | apply State.put_mk | apply State.set_mk | decide | exact Mk.key _ _ (by decide) | refine Mk.foldl _ ?_ (fun y a hy => ?_)
      | refine Mk.ite ?_ ?_ | lift_lets
      | (intro y; refine Mk.cut s y ?_ (fun hy => ?_); (on_goal 1 => subst y); (on_goal 2 => clear_value y)) | intro y | split
      | apply Mk.mk_of

theorem State.closeWindow_mk {s x : State} (a1 : Bool) (h : Mk s x) : Mk s (State.closeWindow x a1) := by
  unfold State.closeWindow
  with_reducible
    repeat' first
      | assumption | apply State.closeCapture_mk | apply State.raise_mk | apply State.set_mk | decide
      | exact Mk.key _ _ (by decide) | refine Mk.foldl _ ?_ (fun y a hy => ?_) | refine Mk.ite ?_ ?_ | lift_lets
      | (intro y; refine Mk.cut s y ?_ (fun hy => ?_); (on_goal 1 => subst y); (on_goal 2 => clear_value y)) | intro y | split
      | apply Mk.mk_of

theorem State.captureStart_mk {s x : State} (a1 : Stamp) (a2 : Nat) (a3 : Bool) (h : Mk s x) : Mk s (State.captureStart x a1 a2 a3) := by
  unfold State.captureStart
  with_reducible
    repeat' first
      | assumption | apply State.put_mk | apply State.set_mk | decide | exact Mk.key _ _ (by decide)
      | refine Mk.foldl _ ?_ (fun y a hy => ?_) | refine Mk.ite ?_ ?_ | lift_lets
      | (intro y; refine Mk.cut s y ?_ (fun hy => ?_); (on_goal 1 => subst y); (on_goal 2 => clear_value y)) | intro y | apply Mk.mk_of

theorem State.joinLate_mk {s x : State} (a1 : Nat) (a2 : Nat) (h : Mk s x) : Mk s (State.joinLate x a1 a2) := by
  unfold State.joinLate
  with_reducible
    repeat' first
      | assumption | decide | exact Mk.key _ _ (by decide) | refine Mk.foldl _ ?_ (fun y a hy => ?_)
      | refine Mk.ite ?_ ?_ | lift_lets
      | (intro y; refine Mk.cut s y ?_ (fun hy => ?_); (on_goal 1 => subst y); (on_goal 2 => clear_value y)) | intro y | apply Mk.mk_of

theorem State.capture_mk {s x : State} (a1 : Msg) (a2 : Nat) (h : Mk s x) : Mk s (State.capture x a1 a2) := by
  unfold State.capture
  with_reducible
    repeat' first
      | assumption | apply State.joinLate_mk | apply State.captureStart_mk | apply State.closeWindow_mk
      | apply State.raise_mk | apply State.count_mk | decide | exact Mk.key _ _ (by decide) | refine Mk.foldl _ ?_ (fun y a hy => ?_)
      | refine Mk.ite ?_ ?_ | lift_lets
      | (intro y; refine Mk.cut s y ?_ (fun hy => ?_); (on_goal 1 => subst y); (on_goal 2 => clear_value y)) | intro y | split
      | apply Mk.mk_of

theorem State.setDtcs_mk {s x : State} (a1 : List Dtc) (h : Mk s x) : Mk s (State.setDtcs x a1) := by
  unfold State.setDtcs
  with_reducible
    repeat' first
      | assumption | apply State.put_mk | decide | exact Mk.key _ _ (by decide)
      | refine Mk.foldl _ ?_ (fun y a hy => ?_) | refine Mk.ite ?_ ?_ | lift_lets
      | (intro y; refine Mk.cut s y ?_ (fun hy => ?_); (on_goal 1 => subst y); (on_goal 2 => clear_value y)) | intro y | apply Mk.mk_of

theorem State.dtcCycle_mk {s x : State} (h : Mk s x) : Mk s (State.dtcCycle x) := by
  unfold State.dtcCycle
  with_reducible
    repeat' first
      | assumption | apply State.setDtcs_mk | decide | exact Mk.key _ _ (by decide)
      | refine Mk.foldl _ ?_ (fun y a hy => ?_) | refine Mk.ite ?_ ?_ | lift_lets
      | (intro y; refine Mk.cut s y ?_ (fun hy => ?_); (on_goal 1 => subst y); (on_goal 2 => clear_value y)) | intro y | apply Mk.mk_of

theorem State.haloUpdate_mk {s x : State} (h : Mk s x) : Mk s (State.haloUpdate x) := by
  unfold State.haloUpdate
  with_reducible
    repeat' first
      | assumption | apply State.set_mk | decide | exact Mk.key _ _ (by decide)
      | refine Mk.foldl _ ?_ (fun y a hy => ?_) | refine Mk.ite ?_ ?_ | lift_lets
      | (intro y; refine Mk.cut s y ?_ (fun hy => ?_); (on_goal 1 => subst y); (on_goal 2 => clear_value y)) | intro y | apply Mk.mk_of

theorem State.directEnter_mk {s x : State} (a1 : Nat) (h : Mk s x) : Mk s (State.directEnter x a1) := by
  unfold State.directEnter
  with_reducible
    repeat' first
      | assumption | apply State.haloUpdate_mk | apply State.draw_mk | decide
      | exact Mk.key _ _ (by decide) | refine Mk.foldl _ ?_ (fun y a hy => ?_) | refine Mk.ite ?_ ?_ | refine Mk.ite_snd ?_ ?_
      | refine Mk.ite_trd ?_ ?_ | lift_lets
      | (intro y; refine Mk.cut s y ?_ (fun hy => ?_); (on_goal 1 => subst y); (on_goal 2 => clear_value y)) | intro y | split
      | (refine Mk.snd_of ?_ (by assumption)) | (refine Mk.trd_of ?_ (by assumption)) | apply Mk.mk_of

theorem State.refuseImage_mk {s x : State} (a1 : Nat) (a2 : Nat) (h : Mk s x) : Mk s (State.refuseImage x a1 a2) := by
  unfold State.refuseImage
  with_reducible
    repeat' first
      | assumption | apply State.raise_mk | apply State.set_mk | decide | exact Mk.key _ _ (by decide)
      | refine Mk.foldl _ ?_ (fun y a hy => ?_) | refine Mk.ite ?_ ?_ | lift_lets
      | (intro y; refine Mk.cut s y ?_ (fun hy => ?_); (on_goal 1 => subst y); (on_goal 2 => clear_value y)) | intro y | apply Mk.mk_of

theorem State.idleIds_mk {s x : State} (h : Mk s x) : Mk s (State.idleIds x) := by
  unfold State.idleIds
  with_reducible
    repeat' first
      | assumption | apply State.set_mk | decide | exact Mk.key _ _ (by decide)
      | refine Mk.foldl _ ?_ (fun y a hy => ?_) | refine Mk.ite ?_ ?_ | lift_lets
      | (intro y; refine Mk.cut s y ?_ (fun hy => ?_); (on_goal 1 => subst y); (on_goal 2 => clear_value y)) | intro y | apply Mk.mk_of

theorem State.useImage_mk {s x : State} (a1 : Nat) (a2 : Option (List Byte)) (h : Mk s x) : Mk s (State.useImage x a1 a2) := by
  unfold State.useImage
  with_reducible
    repeat' first
      | assumption | apply State.set_mk | decide | exact Mk.key _ _ (by decide)
      | refine Mk.foldl _ ?_ (fun y a hy => ?_) | refine Mk.ite ?_ ?_ | lift_lets
      | (intro y; refine Mk.cut s y ?_ (fun hy => ?_); (on_goal 1 => subst y); (on_goal 2 => clear_value y)) | intro y | split
      | apply Mk.mk_of

theorem State.activate_mk {s x : State} (a1 : Nat) (h : Mk s x) : Mk s (State.activate x a1) := by
  unfold State.activate
  with_reducible
    repeat' first
      | assumption | apply State.useImage_mk | apply State.idleIds_mk | apply State.set_mk | decide
      | exact Mk.key _ _ (by decide) | refine Mk.foldl _ ?_ (fun y a hy => ?_) | refine Mk.ite ?_ ?_ | lift_lets
      | (intro y; refine Mk.cut s y ?_ (fun hy => ?_); (on_goal 1 => subst y); (on_goal 2 => clear_value y)) | intro y | apply Mk.mk_of

theorem State.readBank_mk {s x : State} (a1 : Nat) (h : Mk s x) : Mk s (State.readBank x a1) := by
  unfold State.readBank
  with_reducible
    repeat' first
      | assumption | apply State.refuseImage_mk | apply State.setBank_mk | decide
      | exact Mk.key _ _ (by decide) | refine Mk.foldl _ ?_ (fun y a hy => ?_) | refine Mk.ite ?_ ?_ | lift_lets
      | (intro y; refine Mk.cut s y ?_ (fun hy => ?_); (on_goal 1 => subst y); (on_goal 2 => clear_value y)) | intro y | split
      | apply Mk.mk_of

theorem State.loadBanks_mk {s x : State} (a1 : Nat) (h : Mk s x) : Mk s (State.loadBanks x a1) := by
  unfold State.loadBanks
  with_reducible
    repeat' first
      | assumption | apply State.readBank_mk | apply State.activate_mk | apply State.bankGens_mk
      | apply State.setBank_mk | apply State.raiseC_mk | decide | exact Mk.key _ _ (by decide) | refine Mk.foldl _ ?_ (fun y a hy => ?_)
      | refine Mk.ite ?_ ?_ | lift_lets
      | (intro y; refine Mk.cut s y ?_ (fun hy => ?_); (on_goal 1 => subst y); (on_goal 2 => clear_value y)) | intro y | apply Mk.mk_of

theorem State.fabTally_mk {s x : State} (n : Nat) (h : Mk s x) : Mk s (x.fabTally n) := by
  refine State.tally_mk _ _ ?_ h
  unfold fabStat
  exact Mk.key _ _ (by decide)

theorem State.fabOut_mk {s x : State} (a1 : Port) (a2 : Frame) (h : Mk s x) : Mk s (State.fabOut x a1 a2) := by
  unfold State.fabOut
  with_reducible
    repeat' first
      | assumption | apply State.fabQueue_mk | decide | exact Mk.key _ _ (by decide)
      | refine Mk.foldl _ ?_ (fun y a hy => ?_) | refine Mk.ite ?_ ?_ | lift_lets
      | (intro y; refine Mk.cut s y ?_ (fun hy => ?_); (on_goal 1 => subst y); (on_goal 2 => clear_value y)) | intro y | apply Mk.mk_of

theorem State.fabBroadcast_mk {s x : State} (a1 : Frame) (h : Mk s x) : Mk s (State.fabBroadcast x a1) := by
  unfold State.fabBroadcast
  with_reducible
    repeat' first
      | assumption | apply State.fabOut_mk | apply State.fabSeq_mk | decide
      | exact Mk.key _ _ (by decide) | refine Mk.foldl _ ?_ (fun y a hy => ?_) | refine Mk.ite ?_ ?_ | refine Mk.ite_snd ?_ ?_
      | refine Mk.ite_trd ?_ ?_ | lift_lets
      | (intro y; refine Mk.cut s y ?_ (fun hy => ?_); (on_goal 1 => subst y); (on_goal 2 => clear_value y)) | intro y | split
      | (refine Mk.snd_of ?_ (by assumption)) | (refine Mk.trd_of ?_ (by assumption)) | apply Mk.mk_of

theorem State.fabRoute_mk {s x : State} (a1 : Frame) (h : Mk s x) : Mk s (State.fabRoute x a1) := by
  unfold State.fabRoute
  with_reducible
    repeat' first
      | assumption | apply State.fabOut_mk | apply State.fabTally_mk | apply State.raise_mk | decide
      | exact Mk.key _ _ (by decide) | refine Mk.foldl _ ?_ (fun y a hy => ?_) | refine Mk.ite ?_ ?_ | lift_lets
      | (intro y; refine Mk.cut s y ?_ (fun hy => ?_); (on_goal 1 => subst y); (on_goal 2 => clear_value y)) | intro y | split
      | apply Mk.mk_of

theorem State.fabSend_mk {s x : State} (a1 : Frame) (h : Mk s x) : Mk s (State.fabSend x a1) := by
  unfold State.fabSend
  with_reducible
    repeat' first
      | assumption | apply State.fabRoute_mk | apply State.fabSeq_mk | decide
      | exact Mk.key _ _ (by decide) | refine Mk.foldl _ ?_ (fun y a hy => ?_) | refine Mk.ite ?_ ?_ | refine Mk.ite_snd ?_ ?_
      | refine Mk.ite_trd ?_ ?_ | lift_lets
      | (intro y; refine Mk.cut s y ?_ (fun hy => ?_); (on_goal 1 => subst y); (on_goal 2 => clear_value y)) | intro y | split
      | (refine Mk.snd_of ?_ (by assumption)) | (refine Mk.trd_of ?_ (by assumption)) | apply Mk.mk_of

theorem State.fabStart_mk {s x : State} (h : Mk s x) : Mk s (State.fabStart x) := by
  unfold State.fabStart
  with_reducible
    repeat' first
      | assumption | apply State.set_mk | decide | exact Mk.key _ _ (by decide)
      | refine Mk.foldl _ ?_ (fun y a hy => ?_) | refine Mk.ite ?_ ?_ | lift_lets
      | (intro y; refine Mk.cut s y ?_ (fun hy => ?_); (on_goal 1 => subst y); (on_goal 2 => clear_value y)) | intro y | apply Mk.mk_of

theorem State.bootAsk_mk {s x : State} (h : Mk s x) : Mk s (State.bootAsk x) := by
  unfold State.bootAsk
  with_reducible
    repeat' first
      | assumption | apply State.fabSend_mk | decide | exact Mk.key _ _ (by decide)
      | refine Mk.foldl _ ?_ (fun y a hy => ?_) | refine Mk.ite ?_ ?_ | lift_lets
      | (intro y; refine Mk.cut s y ?_ (fun hy => ?_); (on_goal 1 => subst y); (on_goal 2 => clear_value y)) | intro y | split
      | apply Mk.mk_of

theorem State.bootNext_mk {s x : State} (a1 : Nat) (h : Mk s x) : Mk s (State.bootNext x a1) := by
  unfold State.bootNext
  with_reducible
    repeat' first
      | assumption | apply State.bootAsk_mk | decide | exact Mk.key _ _ (by decide)
      | refine Mk.foldl _ ?_ (fun y a hy => ?_) | refine Mk.ite ?_ ?_ | lift_lets
      | (intro y; refine Mk.cut s y ?_ (fun hy => ?_); (on_goal 1 => subst y); (on_goal 2 => clear_value y)) | intro y | apply Mk.mk_of

theorem State.bootKick_mk {s x : State} (h : Mk s x) : Mk s (State.bootKick x) := by
  unfold State.bootKick
  with_reducible
    repeat' first
      | assumption | apply State.bootNext_mk | apply State.bootAsk_mk | apply State.setBank_mk | decide
      | exact Mk.key _ _ (by decide) | refine Mk.foldl _ ?_ (fun y a hy => ?_) | refine Mk.ite ?_ ?_ | lift_lets
      | (intro y; refine Mk.cut s y ?_ (fun hy => ?_); (on_goal 1 => subst y); (on_goal 2 => clear_value y)) | intro y | apply Mk.mk_of

theorem State.wdPeriod_mk {s x : State} (h : Mk s x) : Mk s (State.wdPeriod x) := by
  unfold State.wdPeriod
  with_reducible
    repeat' first
      | assumption | apply State.draw_mk | apply State.set_mk | decide | exact Mk.key _ _ (by decide)
      | refine Mk.foldl _ ?_ (fun y a hy => ?_) | refine Mk.ite ?_ ?_ | refine Mk.ite_snd ?_ ?_ | refine Mk.ite_trd ?_ ?_ | lift_lets
      | (intro y; refine Mk.cut s y ?_ (fun hy => ?_); (on_goal 1 => subst y); (on_goal 2 => clear_value y)) | intro y | split
      | (refine Mk.snd_of ?_ (by assumption)) | (refine Mk.trd_of ?_ (by assumption)) | apply Mk.mk_of

theorem State.wdStart_mk {s x : State} (h : Mk s x) : Mk s (State.wdStart x) := by
  unfold State.wdStart
  with_reducible
    repeat' first
      | assumption | apply State.wdPeriod_mk | apply State.set_mk | decide
      | exact Mk.key _ _ (by decide) | refine Mk.foldl _ ?_ (fun y a hy => ?_) | refine Mk.ite ?_ ?_ | lift_lets
      | (intro y; refine Mk.cut s y ?_ (fun hy => ?_); (on_goal 1 => subst y); (on_goal 2 => clear_value y)) | intro y | apply Mk.mk_of

theorem State.wdViolation_mk {s x : State} (a1 : Nat) (a2 : Nat) (a3 : Nat) (h : Mk s x) : Mk s (State.wdViolation x a1 a2 a3) := by
  unfold State.wdViolation
  with_reducible
    repeat' first
      | assumption | apply State.wdPeriod_mk | apply State.directEnter_mk | apply State.failover_mk
      | apply State.raise_mk | apply State.count_mk | apply State.set_mk | decide | exact Mk.key _ _ (by decide)
      | refine Mk.foldl _ ?_ (fun y a hy => ?_) | refine Mk.ite ?_ ?_ | lift_lets
      | (intro y; refine Mk.cut s y ?_ (fun hy => ?_); (on_goal 1 => subst y); (on_goal 2 => clear_value y)) | intro y | apply Mk.mk_of

theorem State.wdCheckin_mk {s x : State} (a1 : Nat) (a2 : Nat) (a3 : Nat) (h : Mk s x) : Mk s (State.wdCheckin x a1 a2 a3) := by
  unfold State.wdCheckin
  with_reducible
    repeat' first
      | assumption | apply State.wdViolation_mk | apply State.set_mk | decide
      | exact Mk.key _ _ (by decide) | refine Mk.foldl _ ?_ (fun y a hy => ?_) | refine Mk.ite ?_ ?_ | lift_lets
      | (intro y; refine Mk.cut s y ?_ (fun hy => ?_); (on_goal 1 => subst y); (on_goal 2 => clear_value y)) | intro y | apply Mk.mk_of

theorem State.canAbandon_mk {s x : State} (a1 : CanBus) (h : Mk s x) : Mk s (State.canAbandon x a1) := by
  unfold State.canAbandon
  with_reducible
    repeat' first
      | assumption | apply State.dropTransfer_mk | apply State.modCan_mk | decide
      | exact Mk.key _ _ (by decide) | refine Mk.foldl _ ?_ (fun y a hy => ?_) | refine Mk.ite ?_ ?_ | lift_lets
      | (intro y; refine Mk.cut s y ?_ (fun hy => ?_); (on_goal 1 => subst y); (on_goal 2 => clear_value y)) | intro y | split
      | apply Mk.mk_of

theorem State.canInit_mk {s x : State} (a1 : CanBus) (h : Mk s x) : Mk s (State.canInit x a1) := by
  unfold State.canInit
  with_reducible
    repeat' first
      | assumption | apply State.canAbandon_mk | apply State.setCanState_mk | apply State.modCan_mk
      | apply State.clearBy_mk | apply State.set_mk | decide | exact Mk.key _ _ (by decide) | refine Mk.foldl _ ?_ (fun y a hy => ?_)
      | refine Mk.ite ?_ ?_ | lift_lets
      | (intro y; refine Mk.cut s y ?_ (fun hy => ?_); (on_goal 1 => subst y); (on_goal 2 => clear_value y)) | intro y | split
      | apply Mk.mk_of

theorem State.linShorted_mk {s x : State} (h : Mk s x) : Mk s (State.linShorted x) := by
  unfold State.linShorted
  with_reducible
    repeat' first
      | assumption | apply State.raise1_mk | decide | exact Mk.key _ _ (by decide)
      | refine Mk.foldl _ ?_ (fun y a hy => ?_) | refine Mk.ite ?_ ?_ | lift_lets
      | (intro y; refine Mk.cut s y ?_ (fun hy => ?_); (on_goal 1 => subst y); (on_goal 2 => clear_value y)) | intro y | apply Mk.mk_of

theorem State.classRequest_mk {s x : State} (h : Mk s x) : Mk s (State.classRequest x) := by
  unfold State.classRequest
  with_reducible
    repeat' first
      | assumption | apply State.classStart_mk | decide | exact Mk.key _ _ (by decide)
      | refine Mk.foldl _ ?_ (fun y a hy => ?_) | refine Mk.ite ?_ ?_ | lift_lets
      | (intro y; refine Mk.cut s y ?_ (fun hy => ?_); (on_goal 1 => subst y); (on_goal 2 => clear_value y)) | intro y | apply Mk.mk_of

theorem State.linkCtrl_mk {s x : State} (a1 : Port) (a2 : Nat) (h : Mk s x) : Mk s (State.linkCtrl x a1 a2) := by
  unfold State.linkCtrl
  with_reducible
    repeat' first
      | assumption | apply State.policyContract_mk | apply State.sendDetach_mk
      | apply State.sendOffer_mk | apply State.sendHard_mk | apply State.sendMsg_mk | decide | exact Mk.key _ _ (by decide)
      | refine Mk.foldl _ ?_ (fun y a hy => ?_) | refine Mk.ite ?_ ?_ | lift_lets
      | (intro y; refine Mk.cut s y ?_ (fun hy => ?_); (on_goal 1 => subst y); (on_goal 2 => clear_value y)) | intro y | split
      | apply Mk.mk_of

theorem State.linkEnable_mk {s x : State} (a1 : Port) (a2 : Bool) (h : Mk s x) : Mk s (State.linkEnable x a1 a2) := by
  unfold State.linkEnable
  with_reducible
    repeat' first
      | assumption | apply State.toOff_mk | apply State.toDetached_mk | decide
      | exact Mk.key _ _ (by decide) | refine Mk.foldl _ ?_ (fun y a hy => ?_) | refine Mk.ite ?_ ?_ | lift_lets
      | (intro y; refine Mk.cut s y ?_ (fun hy => ?_); (on_goal 1 => subst y); (on_goal 2 => clear_value y)) | intro y | apply Mk.mk_of

theorem State.dtcErase_mk {s x : State} (a1 : Option Nat) (h : Mk s x) : Mk s (State.dtcErase x a1) := by
  unfold State.dtcErase
  with_reducible
    repeat' first
      | assumption | apply State.setDtcs_mk | apply State.commitStart_mk | apply State.set_mk | decide
      | exact Mk.key _ _ (by decide) | refine Mk.foldl _ ?_ (fun y a hy => ?_) | refine Mk.ite ?_ ?_ | lift_lets
      | (intro y; refine Mk.cut s y ?_ (fun hy => ?_); (on_goal 1 => subst y); (on_goal 2 => clear_value y)) | intro y | apply Mk.mk_of

theorem State.dtcClearBy_mk {s x : State} (a1 : Nat) (h : Mk s x) : Mk s (State.dtcClearBy x a1) := by
  unfold State.dtcClearBy
  with_reducible
    repeat' first
      | assumption | apply State.dtcErase_mk | decide | exact Mk.key _ _ (by decide)
      | refine Mk.foldl _ ?_ (fun y a hy => ?_) | refine Mk.ite ?_ ?_ | lift_lets
      | (intro y; refine Mk.cut s y ?_ (fun hy => ?_); (on_goal 1 => subst y); (on_goal 2 => clear_value y)) | intro y | apply Mk.mk_of

theorem State.linCopies_mk {s x : State} (h : Mk s x) : Mk s (State.linCopies x) := by
  unfold State.linCopies
  with_reducible
    repeat' first
      | assumption | decide | exact Mk.key _ _ (by decide) | refine Mk.foldl _ ?_ (fun y a hy => ?_)
      | refine Mk.ite ?_ ?_ | lift_lets
      | (intro y; refine Mk.cut s y ?_ (fun hy => ?_); (on_goal 1 => subst y); (on_goal 2 => clear_value y)) | intro y | apply Mk.mk_of

theorem State.linCopy_mk {s x : State} (a1 : Nat) (a2 : Nat) (h : Mk s x) : Mk s (State.linCopy x a1 a2) := by
  unfold State.linCopy
  with_reducible
    repeat' first
      | assumption | decide | exact Mk.key _ _ (by decide) | refine Mk.foldl _ ?_ (fun y a hy => ?_)
      | refine Mk.ite ?_ ?_ | lift_lets
      | (intro y; refine Mk.cut s y ?_ (fun hy => ?_); (on_goal 1 => subst y); (on_goal 2 => clear_value y)) | intro y | apply Mk.mk_of

theorem State.rampWords_mk {s x : State} (h : Mk s x) : Mk s (State.rampWords x) := by
  unfold State.rampWords
  with_reducible
    repeat' first
      | assumption | apply State.portIfNew_mk | decide | exact Mk.key _ _ (by decide)
      | refine Mk.foldl _ ?_ (fun y a hy => ?_) | refine Mk.ite ?_ ?_ | lift_lets
      | (intro y; refine Mk.cut s y ?_ (fun hy => ?_); (on_goal 1 => subst y); (on_goal 2 => clear_value y)) | intro y | apply Mk.mk_of

theorem State.cellsClear_mk {s x : State} (a1 : Nat) (h : Mk s x) : Mk s (State.cellsClear x a1) := by
  unfold State.cellsClear
  with_reducible
    repeat' first
      | assumption | apply State.balOff_mk | apply State.chgEnter_mk | apply State.cellReport_mk
      | apply State.zeroBoth_mk | apply State.clearK_mk | apply State.clearBy_mk | apply State.set_mk | decide
      | exact Mk.key _ _ (by decide) | refine Mk.foldl _ ?_ (fun y a hy => ?_) | refine Mk.ite ?_ ?_ | lift_lets
      | (intro y; refine Mk.cut s y ?_ (fun hy => ?_); (on_goal 1 => subst y); (on_goal 2 => clear_value y)) | intro y | apply Mk.mk_of

theorem State.cellsWrite_mk {s x : State} (a1 : Nat) (h : Mk s x) : Mk s (State.cellsWrite x a1) := by
  unfold State.cellsWrite
  with_reducible
    repeat' first
      | assumption | apply State.cellsClear_mk | apply State.ordering_mk | apply State.put_mk | decide
      | exact Mk.key _ _ (by decide) | refine Mk.foldl _ ?_ (fun y a hy => ?_) | refine Mk.ite ?_ ?_ | lift_lets
      | (intro y; refine Mk.cut s y ?_ (fun hy => ?_); (on_goal 1 => subst y); (on_goal 2 => clear_value y)) | intro y | apply Mk.mk_of

theorem State.chgEnableWrite_mk {s x : State} (a1 : Nat) (h : Mk s x) : Mk s (State.chgEnableWrite x a1) := by
  unfold State.chgEnableWrite
  with_reducible
    repeat' first
      | assumption | apply State.chgWrite_mk | apply State.selectOrHold_mk | apply State.newCycle_mk
      | apply State.chgEnter_mk | apply State.writeChg_mk | apply State.put_mk | decide | exact Mk.key _ _ (by decide)
      | refine Mk.foldl _ ?_ (fun y a hy => ?_) | refine Mk.ite ?_ ?_ | lift_lets
      | (intro y; refine Mk.cut s y ?_ (fun hy => ?_); (on_goal 1 => subst y); (on_goal 2 => clear_value y)) | intro y | apply Mk.mk_of

theorem State.chgServiceWrite_mk {s x : State} (a1 : Nat) (h : Mk s x) : Mk s (State.chgServiceWrite x a1) := by
  unfold State.chgServiceWrite
  with_reducible
    repeat' first
      | assumption | apply State.chgModeChange_mk | apply State.set_mk | decide
      | exact Mk.key _ _ (by decide) | refine Mk.foldl _ ?_ (fun y a hy => ?_) | refine Mk.ite ?_ ?_ | lift_lets
      | (intro y; refine Mk.cut s y ?_ (fun hy => ?_); (on_goal 1 => subst y); (on_goal 2 => clear_value y)) | intro y | apply Mk.mk_of

theorem State.trapRelease_mk {s x : State} (h : Mk s x) : Mk s (State.trapRelease x) := by
  unfold State.trapRelease
  with_reducible
    repeat' first
      | assumption | apply State.set_mk | decide | exact Mk.key _ _ (by decide)
      | refine Mk.foldl _ ?_ (fun y a hy => ?_) | refine Mk.ite ?_ ?_ | lift_lets
      | (intro y; refine Mk.cut s y ?_ (fun hy => ?_); (on_goal 1 => subst y); (on_goal 2 => clear_value y)) | intro y | apply Mk.mk_of

theorem State.recRequest_mk {s x : State} (a1 : Master) (h : Mk s x) : Mk s (State.recRequest x a1) := by
  unfold State.recRequest
  with_reducible
    repeat' first
      | assumption | apply State.capture_mk | apply State.raise_mk | decide
      | exact Mk.key _ _ (by decide) | refine Mk.foldl _ ?_ (fun y a hy => ?_) | refine Mk.ite ?_ ?_ | lift_lets
      | (intro y; refine Mk.cut s y ?_ (fun hy => ?_); (on_goal 1 => subst y); (on_goal 2 => clear_value y)) | intro y | apply Mk.mk_of

theorem State.recKeep_mk {s x : State} (a1 : Nat) (h : Mk s x) : Mk s (State.recKeep x a1) := by
  unfold State.recKeep
  with_reducible
    repeat' first
      | assumption | decide | exact Mk.key _ _ (by decide) | refine Mk.foldl _ ?_ (fun y a hy => ?_)
      | refine Mk.ite ?_ ?_ | lift_lets
      | (intro y; refine Mk.cut s y ?_ (fun hy => ?_); (on_goal 1 => subst y); (on_goal 2 => clear_value y)) | intro y | apply Mk.mk_of

theorem State.switchStart_mk {s x : State} (a1 : Nat) (h : Mk s x) : Mk s (State.switchStart x a1) := by
  unfold State.switchStart
  with_reducible
    repeat' first
      | assumption | apply State.idleIds_mk | apply State.setBank_mk | apply State.ordering_mk
      | apply State.set_mk | decide | exact Mk.key _ _ (by decide) | refine Mk.foldl _ ?_ (fun y a hy => ?_) | refine Mk.ite ?_ ?_
      | lift_lets | (intro y; refine Mk.cut s y ?_ (fun hy => ?_); (on_goal 1 => subst y); (on_goal 2 => clear_value y)) | intro y
      | apply Mk.mk_of

theorem State.otpLock_mk {s x : State} (a1 : Nat) (h : Mk s x) : Mk s (State.otpLock x a1) := by
  unfold State.otpLock
  with_reducible
    repeat' first
      | assumption | apply State.set_mk | decide | exact Mk.key _ _ (by decide)
      | refine Mk.foldl _ ?_ (fun y a hy => ?_) | refine Mk.ite ?_ ?_ | lift_lets
      | (intro y; refine Mk.cut s y ?_ (fun hy => ?_); (on_goal 1 => subst y); (on_goal 2 => clear_value y)) | intro y | apply Mk.mk_of

theorem State.answerWith_mk {s x : State} (a1 : Master) (a2 : Nat) (a3 : Nat) (a4 : List Byte) (h : Mk s x) : Mk s (State.answerWith x a1 a2 a3 a4) := by
  unfold State.answerWith
  with_reducible
    repeat' first
      | assumption | apply State.tally_mk | apply State.set_mk | decide | exact Mk.key _ _ (by decide)
      | refine Mk.foldl _ ?_ (fun y a hy => ?_) | refine Mk.ite ?_ ?_ | lift_lets
      | (intro y; refine Mk.cut s y ?_ (fun hy => ?_); (on_goal 1 => subst y); (on_goal 2 => clear_value y)) | intro y | apply Mk.mk_of

theorem State.modSq_mk {s x : State} (a1 : Nat) (a2 : Seq → Seq) (h : Mk s x) : Mk s (State.modSq x a1 a2) := by
  unfold State.modSq
  with_reducible
    repeat' first
      | assumption | decide | exact Mk.key _ _ (by decide) | refine Mk.foldl _ ?_ (fun y a hy => ?_)
      | refine Mk.ite ?_ ?_ | lift_lets
      | (intro y; refine Mk.cut s y ?_ (fun hy => ?_); (on_goal 1 => subst y); (on_goal 2 => clear_value y)) | intro y | apply Mk.mk_of

theorem State.countRefusal_mk {s x : State} (a1 : Nat) (h : Mk s x) : Mk s (State.countRefusal x a1) := by
  unfold State.countRefusal
  with_reducible
    repeat' first
      | assumption | apply State.modSq_mk | decide | exact Mk.key _ _ (by decide)
      | refine Mk.foldl _ ?_ (fun y a hy => ?_) | refine Mk.ite ?_ ?_ | lift_lets
      | (intro y; refine Mk.cut s y ?_ (fun hy => ?_); (on_goal 1 => subst y); (on_goal 2 => clear_value y)) | intro y | apply Mk.mk_of

theorem State.seqRefused_mk {s x : State} (a1 : Nat) (h : Mk s x) : Mk s (State.seqRefused x a1) := by
  unfold State.seqRefused
  with_reducible
    repeat' first
      | assumption | apply State.countRefusal_mk | apply State.modSq_mk | apply State.raise_mk | decide
      | exact Mk.key _ _ (by decide) | refine Mk.foldl _ ?_ (fun y a hy => ?_) | refine Mk.ite ?_ ?_ | lift_lets
      | (intro y; refine Mk.cut s y ?_ (fun hy => ?_); (on_goal 1 => subst y); (on_goal 2 => clear_value y)) | intro y | apply Mk.mk_of

theorem State.seqRemote_mk {s x : State} (a1 : Nat) (a2 : Nat) (a3 : Nat) (a4 : List Byte) (h : Mk s x) : Mk s (State.seqRemote x a1 a2 a3 a4) := by
  unfold State.seqRemote
  with_reducible
    repeat' first
      | assumption | apply State.fabSend_mk | apply State.fabBroadcast_mk | decide
      | exact Mk.key _ _ (by decide) | refine Mk.foldl _ ?_ (fun y a hy => ?_) | refine Mk.ite ?_ ?_ | lift_lets
      | (intro y; refine Mk.cut s y ?_ (fun hy => ?_); (on_goal 1 => subst y); (on_goal 2 => clear_value y)) | intro y | apply Mk.mk_of

theorem State.longestNow_mk {s x : State} (h : Mk s x) : Mk s (State.longestNow x) := by
  unfold State.longestNow
  with_reducible
    repeat' first
      | assumption | apply State.put_mk | decide | exact Mk.key _ _ (by decide)
      | refine Mk.foldl _ ?_ (fun y a hy => ?_) | refine Mk.ite ?_ ?_ | lift_lets
      | (intro y; refine Mk.cut s y ?_ (fun hy => ?_); (on_goal 1 => subst y); (on_goal 2 => clear_value y)) | intro y | apply Mk.mk_of

theorem State.discTo_mk {s x : State} (h : Mk s x) : Mk s (State.discTo x) := by
  unfold State.discTo
  with_reducible
    repeat' first
      | assumption | decide | exact Mk.key _ _ (by decide) | refine Mk.foldl _ ?_ (fun y a hy => ?_)
      | refine Mk.ite ?_ ?_ | lift_lets
      | (intro y; refine Mk.cut s y ?_ (fun hy => ?_); (on_goal 1 => subst y); (on_goal 2 => clear_value y)) | intro y | split
      | apply Mk.mk_of

theorem State.modE_mk {s x : State} (a1 : Env → Env) (h : Mk s x) : Mk s (State.modE x a1) := by
  unfold State.modE
  with_reducible
    repeat' first
      | assumption | decide | exact Mk.key _ _ (by decide) | refine Mk.foldl _ ?_ (fun y a hy => ?_)
      | refine Mk.ite ?_ ?_ | lift_lets
      | (intro y; refine Mk.cut s y ?_ (fun hy => ?_); (on_goal 1 => subst y); (on_goal 2 => clear_value y)) | intro y | apply Mk.mk_of

theorem State.envSearch_mk {s x : State} (h : Mk s x) : Mk s (State.envSearch x) := by
  unfold State.envSearch
  with_reducible
    repeat' first
      | assumption | apply State.modE_mk | apply State.set_mk | decide | exact Mk.key _ _ (by decide)
      | refine Mk.foldl _ ?_ (fun y a hy => ?_) | refine Mk.ite ?_ ?_ | lift_lets
      | (intro y; refine Mk.cut s y ?_ (fun hy => ?_); (on_goal 1 => subst y); (on_goal 2 => clear_value y)) | intro y | apply Mk.mk_of

theorem State.envOff_mk {s x : State} (h : Mk s x) : Mk s (State.envOff x) := by
  unfold State.envOff
  with_reducible
    repeat' first
      | assumption | apply State.modE_mk | apply State.allocate_mk | apply State.set_mk | decide
      | exact Mk.key _ _ (by decide) | refine Mk.foldl _ ?_ (fun y a hy => ?_) | refine Mk.ite ?_ ?_ | lift_lets
      | (intro y; refine Mk.cut s y ?_ (fun hy => ?_); (on_goal 1 => subst y); (on_goal 2 => clear_value y)) | intro y | apply Mk.mk_of

theorem State.envEnable_mk {s x : State} (h : Mk s x) : Mk s (State.envEnable x) := by
  unfold State.envEnable
  with_reducible
    repeat' first
      | assumption | apply State.envOff_mk | apply State.envSearch_mk | decide
      | exact Mk.key _ _ (by decide) | refine Mk.foldl _ ?_ (fun y a hy => ?_) | refine Mk.ite ?_ ?_ | lift_lets
      | (intro y; refine Mk.cut s y ?_ (fun hy => ?_); (on_goal 1 => subst y); (on_goal 2 => clear_value y)) | intro y | apply Mk.mk_of

theorem State.slotsStart_mk {s x : State} (a1 : Nat) (h : Mk s x) : Mk s (State.slotsStart x a1) := by
  unfold State.slotsStart
  with_reducible
    repeat' first
      | assumption | decide | exact Mk.key _ _ (by decide) | refine Mk.foldl _ ?_ (fun y a hy => ?_)
      | refine Mk.ite ?_ ?_ | lift_lets
      | (intro y; refine Mk.cut s y ?_ (fun hy => ?_); (on_goal 1 => subst y); (on_goal 2 => clear_value y)) | intro y | apply Mk.mk_of

theorem State.takeMasks_mk {s x : State} (h : Mk s x) : Mk s (State.takeMasks x) := by
  unfold State.takeMasks
  with_reducible
    repeat' first
      | assumption | apply State.slotsStart_mk | apply State.set_mk | decide
      | exact Mk.key _ _ (by decide) | refine Mk.foldl _ ?_ (fun y a hy => ?_) | refine Mk.ite ?_ ?_ | lift_lets
      | (intro y; refine Mk.cut s y ?_ (fun hy => ?_); (on_goal 1 => subst y); (on_goal 2 => clear_value y)) | intro y | apply Mk.mk_of

theorem State.measStart_mk {s x : State} (h : Mk s x) : Mk s (State.measStart x) := by
  unfold State.measStart
  with_reducible
    repeat' first
      | assumption | apply State.takeMasks_mk | apply State.noResults_mk | apply State.set_mk | decide
      | exact Mk.key _ _ (by decide) | refine Mk.foldl _ ?_ (fun y a hy => ?_) | refine Mk.ite ?_ ?_ | lift_lets
      | (intro y; refine Mk.cut s y ?_ (fun hy => ?_); (on_goal 1 => subst y); (on_goal 2 => clear_value y)) | intro y | apply Mk.mk_of

theorem State.peerBit_mk {s x : State} (a1 : Port) (a2 : Bool) (h : Mk s x) : Mk s (State.peerBit x a1 a2) := by
  unfold State.peerBit
  with_reducible
    repeat' first
      | assumption | apply State.set_mk | decide | exact Mk.key _ _ (by decide)
      | refine Mk.foldl _ ?_ (fun y a hy => ?_) | refine Mk.ite ?_ ?_ | lift_lets
      | (intro y; refine Mk.cut s y ?_ (fun hy => ?_); (on_goal 1 => subst y); (on_goal 2 => clear_value y)) | intro y | apply Mk.mk_of

theorem State.clearBlocks_mk {s x : State} (a1 : Bool) (h : Mk s x) : Mk s (State.clearBlocks x a1) := by
  unfold State.clearBlocks
  with_reducible
    repeat' first
      | assumption | decide | exact Mk.key _ _ (by decide) | refine Mk.foldl _ ?_ (fun y a hy => ?_)
      | refine Mk.ite ?_ ?_ | lift_lets
      | (intro y; refine Mk.cut s y ?_ (fun hy => ?_); (on_goal 1 => subst y); (on_goal 2 => clear_value y)) | intro y | apply Mk.mk_of

theorem State.flashFind_mk {s x : State} (a1 : Nat) (h : Mk s x) : Mk s (State.flashFind x a1) := by
  unfold State.flashFind
  with_reducible
    repeat' first
      | assumption | apply State.wearObjs_mk | apply State.clearK_mk | apply State.raise1_mk
      | apply State.raise_mk | apply State.set_mk | decide | exact Mk.key _ _ (by decide) | refine Mk.foldl _ ?_ (fun y a hy => ?_)
      | refine Mk.ite ?_ ?_ | lift_lets
      | (intro y; refine Mk.cut s y ?_ (fun hy => ?_); (on_goal 1 => subst y); (on_goal 2 => clear_value y)) | intro y | apply Mk.mk_of

theorem State.socRestored_mk {s x : State} (h : Mk s x) : Mk s (State.socRestored x) := by
  unfold State.socRestored
  with_reducible
    repeat' first
      | assumption | apply State.set_mk | decide | exact Mk.key _ _ (by decide)
      | refine Mk.foldl _ ?_ (fun y a hy => ?_) | refine Mk.ite ?_ ?_ | lift_lets
      | (intro y; refine Mk.cut s y ?_ (fun hy => ?_); (on_goal 1 => subst y); (on_goal 2 => clear_value y)) | intro y | apply Mk.mk_of

theorem State.nodeRestore_mk {s x : State} (h : Mk s x) : Mk s (State.nodeRestore x) := by
  unfold State.nodeRestore
  with_reducible
    repeat' first
      | assumption | apply State.set_mk | decide | exact Mk.key _ _ (by decide)
      | refine Mk.foldl _ ?_ (fun y a hy => ?_) | refine Mk.ite ?_ ?_ | lift_lets
      | (intro y; refine Mk.cut s y ?_ (fun hy => ?_); (on_goal 1 => subst y); (on_goal 2 => clear_value y)) | intro y | apply Mk.mk_of

theorem State.nodeEarly_mk {s x : State} (h : Mk s x) : Mk s (State.nodeEarly x) := by
  unfold State.nodeEarly
  with_reducible
    repeat' first
      | assumption | apply State.set_mk | decide | exact Mk.key _ _ (by decide)
      | refine Mk.foldl _ ?_ (fun y a hy => ?_) | refine Mk.ite ?_ ?_ | lift_lets
      | (intro y; refine Mk.cut s y ?_ (fun hy => ?_); (on_goal 1 => subst y); (on_goal 2 => clear_value y)) | intro y | apply Mk.mk_of

theorem State.calRestore_mk {s x : State} (h : Mk s x) : Mk s (State.calRestore x) := by
  unfold State.calRestore
  with_reducible
    repeat' first
      | assumption | apply State.set_mk | decide | exact Mk.key _ _ (by decide)
      | refine Mk.foldl _ ?_ (fun y a hy => ?_) | refine Mk.ite ?_ ?_ | lift_lets
      | (intro y; refine Mk.cut s y ?_ (fun hy => ?_); (on_goal 1 => subst y); (on_goal 2 => clear_value y)) | intro y | apply Mk.mk_of

theorem State.restoreBlocks_mk {s x : State} (a1 : Bool) (h : Mk s x) : Mk s (State.restoreBlocks x a1) := by
  unfold State.restoreBlocks
  with_reducible
    repeat' first
      | assumption | apply State.socRestored_mk | apply State.linCopies_mk | apply State.ceilingBoot_mk
      | decide | exact Mk.key _ _ (by decide) | refine Mk.foldl _ ?_ (fun y a hy => ?_) | refine Mk.ite ?_ ?_ | lift_lets
      | (intro y; refine Mk.cut s y ?_ (fun hy => ?_); (on_goal 1 => subst y); (on_goal 2 => clear_value y)) | intro y | apply Mk.mk_of

theorem State.sampleStraps_mk {s x : State} (a1 : Nat) (h : Mk s x) : Mk s (State.sampleStraps x a1) := by
  unfold State.sampleStraps
  with_reducible
    repeat' first
      | assumption | apply State.set_mk | decide | exact Mk.key _ _ (by decide)
      | refine Mk.foldl _ ?_ (fun y a hy => ?_) | refine Mk.ite ?_ ?_ | lift_lets
      | (intro y; refine Mk.cut s y ?_ (fun hy => ?_); (on_goal 1 => subst y); (on_goal 2 => clear_value y)) | intro y | apply Mk.mk_of

theorem State.bootBanks_mk {s x : State} (h : Mk s x) : Mk s (State.bootBanks x) := by
  unfold State.bootBanks
  with_reducible
    repeat' first
      | assumption | apply State.readBank_mk | apply State.activate_mk | apply State.bankGens_mk
      | apply State.raiseC_mk | decide | exact Mk.key _ _ (by decide) | refine Mk.foldl _ ?_ (fun y a hy => ?_) | refine Mk.ite ?_ ?_
      | lift_lets | (intro y; refine Mk.cut s y ?_ (fun hy => ?_); (on_goal 1 => subst y); (on_goal 2 => clear_value y)) | intro y
      | apply Mk.mk_of

theorem State.vauxCatchUp_mk {s x : State} (h : Mk s x) : Mk s (State.vauxCatchUp x) := by
  unfold State.vauxCatchUp
  with_reducible
    repeat' first
      | assumption | apply State.clearK_mk | apply State.raise1_mk | apply State.count_mk | decide
      | exact Mk.key _ _ (by decide) | refine Mk.foldl _ ?_ (fun y a hy => ?_) | refine Mk.ite ?_ ?_ | lift_lets
      | (intro y; refine Mk.cut s y ?_ (fun hy => ?_); (on_goal 1 => subst y); (on_goal 2 => clear_value y)) | intro y | apply Mk.mk_of

theorem State.directEnd_mk {s x : State} (h : Mk s x) : Mk s (State.directEnd x) := by
  unfold State.directEnd
  with_reducible
    repeat' first
      | assumption | apply State.raise_mk | decide | exact Mk.key _ _ (by decide)
      | refine Mk.foldl _ ?_ (fun y a hy => ?_) | refine Mk.ite ?_ ?_ | lift_lets
      | (intro y; refine Mk.cut s y ?_ (fun hy => ?_); (on_goal 1 => subst y); (on_goal 2 => clear_value y)) | intro y | apply Mk.mk_of

theorem State.countN_mk {s x : State} (a1 : Nat) (a2 : Nat) (hk : a2 / 65536 ≠ 1) (h : Mk s x) : Mk s (State.countN x a1 a2) := by
  unfold State.countN
  with_reducible
    repeat' first
      | assumption | apply State.count_mk | decide | exact Mk.key _ _ (by decide)
      | refine Mk.foldl _ ?_ (fun y a hy => ?_) | refine Mk.ite ?_ ?_ | lift_lets
      | (intro y; refine Mk.cut s y ?_ (fun hy => ?_); (on_goal 1 => subst y); (on_goal 2 => clear_value y)) | intro y | apply Mk.mk_of

theorem State.countTrips_mk {s x : State} (h : Mk s x) : Mk s (State.countTrips x) := by
  unfold State.countTrips
  with_reducible
    repeat' first
      | assumption | apply State.countN_mk | decide | exact Mk.key _ _ (by decide)
      | refine Mk.foldl _ ?_ (fun y a hy => ?_) | refine Mk.ite ?_ ?_ | lift_lets
      | (intro y; refine Mk.cut s y ?_ (fun hy => ?_); (on_goal 1 => subst y); (on_goal 2 => clear_value y)) | intro y | apply Mk.mk_of

theorem State.linObjects_mk {s x : State} (h : Mk s x) : Mk s (State.linObjects x) := by
  unfold State.linObjects
  with_reducible
    repeat' first
      | assumption | apply State.put_mk | decide | exact Mk.key _ _ (by decide)
      | refine Mk.foldl _ ?_ (fun y a hy => ?_) | refine Mk.ite ?_ ?_ | lift_lets
      | (intro y; refine Mk.cut s y ?_ (fun hy => ?_); (on_goal 1 => subst y); (on_goal 2 => clear_value y)) | intro y | apply Mk.mk_of

theorem State.linkPorts_mk {s x : State} (h : Mk s x) : Mk s (State.linkPorts x) := by
  unfold State.linkPorts
  with_reducible
    repeat' first
      | assumption | apply State.linkEnable_mk | decide | exact Mk.key _ _ (by decide)
      | refine Mk.foldl _ ?_ (fun y a hy => ?_) | refine Mk.ite ?_ ?_ | lift_lets
      | (intro y; refine Mk.cut s y ?_ (fun hy => ?_); (on_goal 1 => subst y); (on_goal 2 => clear_value y)) | intro y | apply Mk.mk_of

theorem State.holdIfNew_mk {s x : State} (a1 : Nat) (a2 : Nat) (h : Mk s x) : Mk s (State.holdIfNew x a1 a2) := by
  unfold State.holdIfNew
  with_reducible
    repeat' first
      | assumption | apply State.portWord_mk | decide | exact Mk.key _ _ (by decide)
      | refine Mk.foldl _ ?_ (fun y a hy => ?_) | refine Mk.ite ?_ ?_ | lift_lets
      | (intro y; refine Mk.cut s y ?_ (fun hy => ?_); (on_goal 1 => subst y); (on_goal 2 => clear_value y)) | intro y | apply Mk.mk_of

theorem State.handoverLatches_mk {s x : State} (a1 : Bool) (h : Mk s x) : Mk s (State.handoverLatches x a1) := by
  unfold State.handoverLatches
  with_reducible
    repeat' first
      | assumption | apply State.holdIfNew_mk | apply State.portWord_mk | decide
      | exact Mk.key _ _ (by decide) | refine Mk.foldl _ ?_ (fun y a hy => ?_) | refine Mk.ite ?_ ?_ | lift_lets
      | (intro y; refine Mk.cut s y ?_ (fun hy => ?_); (on_goal 1 => subst y); (on_goal 2 => clear_value y)) | intro y | apply Mk.mk_of

theorem State.handoverGroup_mk {s x : State} (a1 : Bool) (a2 : Group) (h : Mk s x) : Mk s (State.handoverGroup x a1 a2) := by
  unfold State.handoverGroup
  with_reducible
    repeat' first
      | assumption | apply State.holdIfNew_mk | apply State.writeGroup_mk | apply State.portWord_mk
      | apply State.coreRaiseC_mk | decide | exact Mk.key _ _ (by decide) | refine Mk.foldl _ ?_ (fun y a hy => ?_) | refine Mk.ite ?_ ?_
      | lift_lets | (intro y; refine Mk.cut s y ?_ (fun hy => ?_); (on_goal 1 => subst y); (on_goal 2 => clear_value y)) | intro y
      | apply Mk.mk_of

theorem State.handoverWords_mk {s x : State} (a1 : Bool) (h : Mk s x) : Mk s (State.handoverWords x a1) := by
  unfold State.handoverWords
  with_reducible
    repeat' first
      | assumption | apply State.handoverGroup_mk | apply State.handoverLatches_mk
      | apply State.handoverWord_mk | decide | exact Mk.key _ _ (by decide) | refine Mk.foldl _ ?_ (fun y a hy => ?_)
      | refine Mk.ite ?_ ?_ | lift_lets
      | (intro y; refine Mk.cut s y ?_ (fun hy => ?_); (on_goal 1 => subst y); (on_goal 2 => clear_value y)) | intro y | apply Mk.mk_of

theorem State.takeBacklog_mk {s x : State} (h : Mk s x) : Mk s (State.takeBacklog x) := by
  unfold State.takeBacklog
  with_reducible
    repeat' first
      | assumption | decide | exact Mk.key _ _ (by decide) | refine Mk.foldl _ ?_ (fun y a hy => ?_)
      | refine Mk.ite ?_ ?_ | lift_lets
      | (intro y; refine Mk.cut s y ?_ (fun hy => ?_); (on_goal 1 => subst y); (on_goal 2 => clear_value y)) | intro y | apply Mk.mk_of

theorem State.stratusEnd_mk {s x : State} (h : Mk s x) : Mk s (State.stratusEnd x) := by
  unfold State.stratusEnd
  with_reducible
    repeat' first
      | assumption | apply State.raise_mk | apply State.count_mk | apply State.put_mk
      | apply State.set_mk | decide | exact Mk.key _ _ (by decide) | refine Mk.foldl _ ?_ (fun y a hy => ?_) | refine Mk.ite ?_ ?_
      | lift_lets | (intro y; refine Mk.cut s y ?_ (fun hy => ?_); (on_goal 1 => subst y); (on_goal 2 => clear_value y)) | intro y
      | apply Mk.mk_of

theorem State.raiseMissed_mk {s x : State} (a1 : Nat) (a2 : Nat) (a3 : Nat) (a4 : Nat) (a5 : Nat) (h : Mk s x) : Mk s (State.raiseMissed x a1 a2 a3 a4 a5) := by
  unfold State.raiseMissed
  with_reducible
    repeat' first
      | assumption | apply State.again_mk | apply State.send_mk | decide | exact Mk.key _ _ (by decide)
      | refine Mk.foldl _ ?_ (fun y a hy => ?_) | refine Mk.ite ?_ ?_ | lift_lets
      | (intro y; refine Mk.cut s y ?_ (fun hy => ?_); (on_goal 1 => subst y); (on_goal 2 => clear_value y)) | intro y | apply Mk.mk_of

theorem State.raiseN_mk {s x : State} (a1 : Nat) (a2 : Nat) (a3 : Nat) (a4 : Nat) (h : Mk s x) : Mk s (State.raiseN x a1 a2 a3 a4) := by
  unfold State.raiseN
  with_reducible
    repeat' first
      | assumption | apply State.again_mk | apply State.raise_mk | decide
      | exact Mk.key _ _ (by decide) | refine Mk.foldl _ ?_ (fun y a hy => ?_) | refine Mk.ite ?_ ?_ | lift_lets
      | (intro y; refine Mk.cut s y ?_ (fun hy => ?_); (on_goal 1 => subst y); (on_goal 2 => clear_value y)) | intro y | apply Mk.mk_of

theorem State.lossN_mk {s x : State} (a1 : Nat) (a2 : Nat) (h : Mk s x) : Mk s (State.lossN x a1 a2) := by
  unfold State.lossN
  with_reducible
    repeat' first
      | assumption | apply State.sourceLoss_mk | decide | exact Mk.key _ _ (by decide)
      | refine Mk.foldl _ ?_ (fun y a hy => ?_) | refine Mk.ite ?_ ?_ | lift_lets
      | (intro y; refine Mk.cut s y ?_ (fun hy => ?_); (on_goal 1 => subst y); (on_goal 2 => clear_value y)) | intro y | apply Mk.mk_of

theorem State.missedSource_mk {s x : State} (h : Mk s x) : Mk s (State.missedSource x) := by
  unfold State.missedSource
  with_reducible
    repeat' first
      | assumption | apply State.lossN_mk | apply State.raiseN_mk | apply State.raiseMissed_mk
      | apply State.countN_mk | apply State.longestNow_mk | decide | exact Mk.key _ _ (by decide)
      | refine Mk.foldl _ ?_ (fun y a hy => ?_) | refine Mk.ite ?_ ?_ | lift_lets
      | (intro y; refine Mk.cut s y ?_ (fun hy => ?_); (on_goal 1 => subst y); (on_goal 2 => clear_value y)) | intro y | apply Mk.mk_of

theorem State.linkTripped_mk {s x : State} (a1 : Port) (h : Mk s x) : Mk s (State.linkTripped x a1) := by
  unfold State.linkTripped
  with_reducible
    repeat' first
      | assumption | apply State.detachFree_mk | apply State.toRamp_mk | apply State.toNeutral_mk
      | decide | exact Mk.key _ _ (by decide) | refine Mk.foldl _ ?_ (fun y a hy => ?_) | refine Mk.ite ?_ ?_ | lift_lets
      | (intro y; refine Mk.cut s y ?_ (fun hy => ?_); (on_goal 1 => subst y); (on_goal 2 => clear_value y)) | intro y | apply Mk.mk_of

theorem State.linkReset_mk {s x : State} (a1 : Port) (a2 : Option Nat) (h : Mk s x) : Mk s (State.linkReset x a1 a2) := by
  unfold State.linkReset
  with_reducible
    repeat' first
      | assumption | apply State.onHardReset_mk | decide | exact Mk.key _ _ (by decide)
      | refine Mk.foldl _ ?_ (fun y a hy => ?_) | refine Mk.ite ?_ ?_ | lift_lets
      | (intro y; refine Mk.cut s y ?_ (fun hy => ?_); (on_goal 1 => subst y); (on_goal 2 => clear_value y)) | intro y | split
      | apply Mk.mk_of

theorem State.vauxHandover_mk {s x : State} (h : Mk s x) : Mk s (State.vauxHandover x) := by
  unfold State.vauxHandover
  with_reducible
    repeat' first
      | assumption | apply State.vauxCatchUp_mk | apply State.commitStart_mk
      | apply State.hourRecord_mk | decide | exact Mk.key _ _ (by decide) | refine Mk.foldl _ ?_ (fun y a hy => ?_) | refine Mk.ite ?_ ?_
      | lift_lets | (intro y; refine Mk.cut s y ?_ (fun hy => ?_); (on_goal 1 => subst y); (on_goal 2 => clear_value y)) | intro y
      | apply Mk.mk_of

theorem State.recordsAgain_mk {s x : State} (h : Mk s x) : Mk s (State.recordsAgain x) := by
  unfold State.recordsAgain
  with_reducible
    repeat' first
      | assumption | decide | exact Mk.key _ _ (by decide) | refine Mk.foldl _ ?_ (fun y a hy => ?_)
      | refine Mk.ite ?_ ?_ | lift_lets
      | (intro y; refine Mk.cut s y ?_ (fun hy => ?_); (on_goal 1 => subst y); (on_goal 2 => clear_value y)) | intro y | apply Mk.mk_of

theorem State.leasesStart_mk {s x : State} (h : Mk s x) : Mk s (State.leasesStart x) := by
  unfold State.leasesStart
  with_reducible
    repeat' first
      | assumption | decide | exact Mk.key _ _ (by decide) | refine Mk.foldl _ ?_ (fun y a hy => ?_)
      | refine Mk.ite ?_ ?_ | lift_lets
      | (intro y; refine Mk.cut s y ?_ (fun hy => ?_); (on_goal 1 => subst y); (on_goal 2 => clear_value y)) | intro y | apply Mk.mk_of

theorem State.groupsHold_mk {s x : State} (h : Mk s x) : Mk s (State.groupsHold x) := by
  unfold State.groupsHold
  with_reducible
    repeat' first
      | assumption | apply State.stopG_mk | decide | exact Mk.key _ _ (by decide)
      | refine Mk.foldl _ ?_ (fun y a hy => ?_) | refine Mk.ite ?_ ?_ | lift_lets
      | (intro y; refine Mk.cut s y ?_ (fun hy => ?_); (on_goal 1 => subst y); (on_goal 2 => clear_value y)) | intro y | apply Mk.mk_of

theorem State.holdStart_mk {s x : State} (h : Mk s x) : Mk s (State.holdStart x) := by
  unfold State.holdStart
  with_reducible
    repeat' first
      | assumption | decide | exact Mk.key _ _ (by decide) | refine Mk.foldl _ ?_ (fun y a hy => ?_)
      | refine Mk.ite ?_ ?_ | lift_lets
      | (intro y; refine Mk.cut s y ?_ (fun hy => ?_); (on_goal 1 => subst y); (on_goal 2 => clear_value y)) | intro y | apply Mk.mk_of

theorem State.orderBack_mk {s x : State} (h : Mk s x) : Mk s (State.orderBack x) := by
  unfold State.orderBack
  with_reducible
    repeat' first
      | assumption | apply State.portIfNew_mk | decide | exact Mk.key _ _ (by decide)
      | refine Mk.foldl _ ?_ (fun y a hy => ?_) | refine Mk.ite ?_ ?_ | lift_lets
      | (intro y; refine Mk.cut s y ?_ (fun hy => ?_); (on_goal 1 => subst y); (on_goal 2 => clear_value y)) | intro y | apply Mk.mk_of

theorem State.groupsGo_mk {s x : State} (h : Mk s x) : Mk s (State.groupsGo x) := by
  unfold State.groupsGo
  with_reducible
    repeat' first
      | assumption | apply State.freeG_mk | decide | exact Mk.key _ _ (by decide)
      | refine Mk.foldl _ ?_ (fun y a hy => ?_) | refine Mk.ite ?_ ?_ | lift_lets
      | (intro y; refine Mk.cut s y ?_ (fun hy => ?_); (on_goal 1 => subst y); (on_goal 2 => clear_value y)) | intro y | apply Mk.mk_of

theorem State.handoverHeld_mk {s x : State} (a1 : Bool) (h : Mk s x) : Mk s (State.handoverHeld x a1) := by
  unfold State.handoverHeld
  with_reducible
    repeat' first
      | assumption | apply State.handoverWords_mk | apply State.set_mk | decide
      | exact Mk.key _ _ (by decide) | refine Mk.foldl _ ?_ (fun y a hy => ?_) | refine Mk.ite ?_ ?_ | lift_lets
      | (intro y; refine Mk.cut s y ?_ (fun hy => ?_); (on_goal 1 => subst y); (on_goal 2 => clear_value y)) | intro y | apply Mk.mk_of

theorem State.rewriteBanks_mk {s x : State} (h : Mk s x) : Mk s (State.rewriteBanks x) := by
  unfold State.rewriteBanks
  with_reducible
    repeat' first
      | assumption | apply State.writeBankF_mk | decide | exact Mk.key _ _ (by decide)
      | refine Mk.foldl _ ?_ (fun y a hy => ?_) | refine Mk.ite ?_ ?_ | lift_lets
      | (intro y; refine Mk.cut s y ?_ (fun hy => ?_); (on_goal 1 => subst y); (on_goal 2 => clear_value y)) | intro y | apply Mk.mk_of

theorem State.seedTrims_mk {s x : State} (h : Mk s x) : Mk s (State.seedTrims x) := by
  unfold State.seedTrims
  with_reducible
    repeat' first
      | assumption | apply State.put_mk | decide | exact Mk.key _ _ (by decide)
      | refine Mk.foldl _ ?_ (fun y a hy => ?_) | refine Mk.ite ?_ ?_ | lift_lets
      | (intro y; refine Mk.cut s y ?_ (fun hy => ?_); (on_goal 1 => subst y); (on_goal 2 => clear_value y)) | intro y | apply Mk.mk_of

theorem State.parkCommit_mk {s x : State} (h : Mk s x) : Mk s (State.parkCommit x) := by
  unfold State.parkCommit
  with_reducible
    repeat' first
      | assumption | apply State.seedTrims_mk | apply State.rewriteBanks_mk
      | apply State.closeWindow_mk | apply State.closeCapture_mk | apply State.commitNow_mk | apply State.hourRecord_mk | decide
      | exact Mk.key _ _ (by decide) | refine Mk.foldl _ ?_ (fun y a hy => ?_) | refine Mk.ite ?_ ?_ | lift_lets
      | (intro y; refine Mk.cut s y ?_ (fun hy => ?_); (on_goal 1 => subst y); (on_goal 2 => clear_value y)) | intro y | apply Mk.mk_of

/-- What a change of mode writes in its area (R46, R51). -/
theorem State.setMode_obj (s : State) (next cause k : Nat) (hk : k / 65536 = 1) : (s.setMode next cause).obj k =
    if k = Obj.MODE_CAUSE then cause else if k = Obj.MODE_STATE then next else if k = Obj.MODE_PREV then s.modeNow else s.obj k := by
  have key : ∀ x : State, Mk (((s.set Obj.MODE_PREV s.modeNow).set Obj.MODE_STATE next).set Obj.MODE_CAUSE cause) x → x.obj k =
      if k = Obj.MODE_CAUSE then cause else if k = Obj.MODE_STATE then next else if k = Obj.MODE_PREV then s.modeNow else s.obj k := by
    intro x hx
    rw [hx k hk, State.obj_set, State.obj_set, State.obj_set]
  apply key
  unfold State.setMode
  dsimp only
  generalize ((s.set Obj.MODE_PREV s.modeNow).set Obj.MODE_STATE next).set Obj.MODE_CAUSE cause = y
  have h0 : Mk y { y with note := { y.note with reason := setBit y.note.reason 1 true } } := fun _ _ => rfl
  have h1 : Mk y (if next = 4 ∨ next = 5 then { y with note := { y.note with reason := setBit y.note.reason 1 true } }
      else ({ y with note := { y.note with reason := setBit y.note.reason 1 true } } : State).set Obj.CHG_SERVICE 0) :=
    Mk.ite h0 (State.set_mk _ _ (by decide) h0)
  revert h1
  generalize (if next = 4 ∨ next = 5 then { y with note := { y.note with reason := setBit y.note.reason 1 true } }
      else ({ y with note := { y.note with reason := setBit y.note.reason 1 true } } : State).set Obj.CHG_SERVICE 0) = z
  intro h1
  have h2 := State.orderMode_mk (State.chgModeChange_mk h1)
  have h3 := Mk.ite (c := [2, 3, 5].contains next = true) h2 (State.balOff_mk h2)
  exact Mk.ite (State.hzMode_mk (Mk.ite h3 (State.probeAbandon_mk h3))) (State.hzMode_mk (State.balOff_mk h1))

end Sys2Proof.Machine
end

