-- ==== Sys2Proof/Laws/Parts.lean ====
section
/-!
SUPPORT. Parts.lean: which components of the state an operation can change. A footprint is a number: bit i stands for the i-th field of
State. The files Parts<Module>.lean give the footprint of every operation and of every command.
-/
namespace Sys2Proof.Machine

/-- The state with the components of a footprint blanked. -/
def State.mask (p : Nat) (s : State) : State where
  pending := bif p.testBit 0 then [] else s.pending
  now := bif p.testBit 1 then 0 else s.now
  recTime := bif p.testBit 2 then 0 else s.recTime
  free := bif p.testBit 3 then 0 else s.free
  objs := bif p.testBit 4 then [] else s.objs
  core := bif p.testBit 5 then {} else s.core
  grp := bif p.testBit 6 then ⟨{}, {}, {}, {}⟩ else s.grp
  ph := bif p.testBit 7 then Vector.replicate 16 {} else s.ph
  aon := bif p.testBit 8 then {} else s.aon
  cell := bif p.testBit 9 then {} else s.cell
  strat := bif p.testBit 10 then {} else s.strat
  mode := bif p.testBit 11 then {} else s.mode
  src := bif p.testBit 12 then {} else s.src
  col := bif p.testBit 13 then {} else s.col
  recs := bif p.testBit 14 then [] else s.recs
  spd := bif p.testBit 15 then {} else s.spd
  jrnl := bif p.testBit 16 then {} else s.jrnl
  otp := bif p.testBit 17 then {} else s.otp
  meas := bif p.testBit 18 then {} else s.meas
  ring := bif p.testBit 19 then {} else s.ring
  archive := bif p.testBit 20 then [] else s.archive
  thm := bif p.testBit 21 then {} else s.thm
  hz := bif p.testBit 22 then {} else s.hz
  hour := bif p.testBit 23 then {} else s.hour
  parkAcc := bif p.testBit 24 then {} else s.parkAcc
  log := bif p.testBit 25 then [] else s.log
  logRetry := bif p.testBit 26 then [] else s.logRetry
  tabs := bif p.testBit 27 then {} else s.tabs
  env := bif p.testBit 28 then {} else s.env
  chg := bif p.testBit 29 then {} else s.chg
  link := bif p.testBit 30 then ⟨{}, {}⟩ else s.link
  fab := bif p.testBit 31 then {} else s.fab
  seqs := bif p.testBit 32 then Vector.replicate 5 {} else s.seqs
  flash := bif p.testBit 33 then {} else s.flash
  wd := bif p.testBit 34 then {} else s.wd
  srv := bif p.testBit 35 then {} else s.srv
  can := bif p.testBit 36 then ⟨{}, {}⟩ else s.can
  note := bif p.testBit 37 then {} else s.note
  lin := bif p.testBit 38 then {} else s.lin
  uds := bif p.testBit 39 then {} else s.uds

/-- `t` is `s` outside the footprint. -/
def Fr (p : Nat) (s t : State) : Prop := t.mask p = s.mask p

theorem Fr.refl (p : Nat) (s : State) : Fr p s s := rfl

theorem Fr.up {a b p : Nat} (h : a ||| b = b) (hp : b ||| p = p) : a ||| p = p := by
  rw [← hp, ← Nat.lor_assoc, h]

theorem Fr.bit {a p : Nat} (h : a ||| p = p) {i : Nat} (hi : p.testBit i = false) : a.testBit i = false := by
  have e : (a ||| p).testBit i = p.testBit i := by rw [h]
  rw [Nat.testBit_or, hi, Bool.or_false] at e
  exact e

theorem Fr.cond {α : Type} {a p : Nat} (h : a ||| p = p) (i : Nat) (d x : α) :
    (bif p.testBit i then d else (bif a.testBit i then d else x)) = bif p.testBit i then d else x := by
  cases e : p.testBit i with
  | true => rfl
  | false => rw [Fr.bit h e]; rfl

theorem State.mask_mask {a p : Nat} (h : a ||| p = p) (s : State) : (s.mask a).mask p = s.mask p := by
  unfold State.mask
  dsimp only
  simp only [Fr.cond h]

/-- A state that agrees outside a smaller footprint. -/
theorem Fr.upd {p a : Nat} {s x y : State} (h : Fr p s x) (e : y.mask a = x.mask a) (hp : a ||| p = p) : Fr p s y := by
  unfold Fr at *
  rw [← State.mask_mask hp y, e, State.mask_mask hp x, h]

theorem Fr.trans {p : Nat} {s x y : State} (h : Fr p s x) (k : Fr p x y) : Fr p s y := Eq.trans k h

theorem Fr.foldl {α : Type} {p : Nat} {s x : State} {f : State → α → State} (l : List α) (h : Fr p s x)
    (hf : ∀ y a, Fr p s y → Fr p s (f y a)) : Fr p s (l.foldl f x) := by
  induction l generalizing x with
  | nil => exact h
  | cons a l ih => exact ih (hf x a h)

theorem Fr.snd_of {α : Type} {p : Nat} {s : State} {q : α × State} {a : α} {x : State} (h : Fr p s q.2) (e : q = (a, x)) : Fr p s x := by
  subst e
  exact h

theorem Fr.trd_of {α β : Type} {p : Nat} {s : State} {q : α × β × State} {a : α} {b : β} {x : State} (h : Fr p s q.2.2)
    (e : q = (a, b, x)) : Fr p s x := by
  subst e
  exact h

theorem Fr.ite {p : Nat} {s a b : State} {c : Prop} [Decidable c] (ha : Fr p s a) (hb : Fr p s b) : Fr p s (if c then a else b) := by
  split <;> assumption
theorem Fr.ite_snd {α : Type} {p : Nat} {s : State} {a b : α × State} {c : Prop} [Decidable c] (ha : Fr p s a.2) (hb : Fr p s b.2) :
    Fr p s (if c then a else b).2 := by
  split <;> assumption
theorem Fr.ite_trd {α β : Type} {p : Nat} {s : State} {a b : α × β × State} {c : Prop} [Decidable c] (ha : Fr p s a.2.2)
    (hb : Fr p s b.2.2) : Fr p s (if c then a else b).2.2 := by
  split <;> assumption

/-- A state named on the way. -/
theorem Fr.cut {G : Prop} (p : Nat) (s y : State) (h1 : Fr p s y) (h2 : Fr p s y → G) : G := h2 h1

/-! ### From a footprint to a component -/

theorem Fr.pending {p : Nat} {s t : State} (h : Fr p s t) (hp : p.testBit 0 = false) : t.pending = s.pending := by
  have e := congrArg State.pending h
  simpa only [State.mask, hp, cond_false] using e
theorem Fr.now {p : Nat} {s t : State} (h : Fr p s t) (hp : p.testBit 1 = false) : t.now = s.now := by
  have e := congrArg State.now h
  simpa only [State.mask, hp, cond_false] using e
theorem Fr.recTime {p : Nat} {s t : State} (h : Fr p s t) (hp : p.testBit 2 = false) : t.recTime = s.recTime := by
  have e := congrArg State.recTime h
  simpa only [State.mask, hp, cond_false] using e
theorem Fr.free {p : Nat} {s t : State} (h : Fr p s t) (hp : p.testBit 3 = false) : t.free = s.free := by
  have e := congrArg State.free h
  simpa only [State.mask, hp, cond_false] using e
theorem Fr.objs {p : Nat} {s t : State} (h : Fr p s t) (hp : p.testBit 4 = false) : t.objs = s.objs := by
  have e := congrArg State.objs h
  simpa only [State.mask, hp, cond_false] using e
theorem Fr.core {p : Nat} {s t : State} (h : Fr p s t) (hp : p.testBit 5 = false) : t.core = s.core := by
  have e := congrArg State.core h
  simpa only [State.mask, hp, cond_false] using e
theorem Fr.grp {p : Nat} {s t : State} (h : Fr p s t) (hp : p.testBit 6 = false) : t.grp = s.grp := by
  have e := congrArg State.grp h
  simpa only [State.mask, hp, cond_false] using e
theorem Fr.ph {p : Nat} {s t : State} (h : Fr p s t) (hp : p.testBit 7 = false) : t.ph = s.ph := by
  have e := congrArg State.ph h
  simpa only [State.mask, hp, cond_false] using e
theorem Fr.aon {p : Nat} {s t : State} (h : Fr p s t) (hp : p.testBit 8 = false) : t.aon = s.aon := by
  have e := congrArg State.aon h
  simpa only [State.mask, hp, cond_false] using e
theorem Fr.cell {p : Nat} {s t : State} (h : Fr p s t) (hp : p.testBit 9 = false) : t.cell = s.cell := by
  have e := congrArg State.cell h
  simpa only [State.mask, hp, cond_false] using e
theorem Fr.strat {p : Nat} {s t : State} (h : Fr p s t) (hp : p.testBit 10 = false) : t.strat = s.strat := by
  have e := congrArg State.strat h
  simpa only [State.mask, hp, cond_false] using e
theorem Fr.mode {p : Nat} {s t : State} (h : Fr p s t) (hp : p.testBit 11 = false) : t.mode = s.mode := by
  have e := congrArg State.mode h
  simpa only [State.mask, hp, cond_false] using e
theorem Fr.src {p : Nat} {s t : State} (h : Fr p s t) (hp : p.testBit 12 = false) : t.src = s.src := by
  have e := congrArg State.src h
  simpa only [State.mask, hp, cond_false] using e
theorem Fr.col {p : Nat} {s t : State} (h : Fr p s t) (hp : p.testBit 13 = false) : t.col = s.col := by
  have e := congrArg State.col h
  simpa only [State.mask, hp, cond_false] using e
theorem Fr.recs {p : Nat} {s t : State} (h : Fr p s t) (hp : p.testBit 14 = false) : t.recs = s.recs := by
  have e := congrArg State.recs h
  simpa only [State.mask, hp, cond_false] using e
theorem Fr.spd {p : Nat} {s t : State} (h : Fr p s t) (hp : p.testBit 15 = false) : t.spd = s.spd := by
  have e := congrArg State.spd h
  simpa only [State.mask, hp, cond_false] using e
theorem Fr.jrnl {p : Nat} {s t : State} (h : Fr p s t) (hp : p.testBit 16 = false) : t.jrnl = s.jrnl := by
  have e := congrArg State.jrnl h
  simpa only [State.mask, hp, cond_false] using e
theorem Fr.otp {p : Nat} {s t : State} (h : Fr p s t) (hp : p.testBit 17 = false) : t.otp = s.otp := by
  have e := congrArg State.otp h
  simpa only [State.mask, hp, cond_false] using e
theorem Fr.meas {p : Nat} {s t : State} (h : Fr p s t) (hp : p.testBit 18 = false) : t.meas = s.meas := by
  have e := congrArg State.meas h
  simpa only [State.mask, hp, cond_false] using e
theorem Fr.ring {p : Nat} {s t : State} (h : Fr p s t) (hp : p.testBit 19 = false) : t.ring = s.ring := by
  have e := congrArg State.ring h
  simpa only [State.mask, hp, cond_false] using e
theorem Fr.archive {p : Nat} {s t : State} (h : Fr p s t) (hp : p.testBit 20 = false) : t.archive = s.archive := by
  have e := congrArg State.archive h
  simpa only [State.mask, hp, cond_false] using e
theorem Fr.thm {p : Nat} {s t : State} (h : Fr p s t) (hp : p.testBit 21 = false) : t.thm = s.thm := by
  have e := congrArg State.thm h
  simpa only [State.mask, hp, cond_false] using e
theorem Fr.hz {p : Nat} {s t : State} (h : Fr p s t) (hp : p.testBit 22 = false) : t.hz = s.hz := by
  have e := congrArg State.hz h
  simpa only [State.mask, hp, cond_false] using e
theorem Fr.hour {p : Nat} {s t : State} (h : Fr p s t) (hp : p.testBit 23 = false) : t.hour = s.hour := by
  have e := congrArg State.hour h
  simpa only [State.mask, hp, cond_false] using e
theorem Fr.parkAcc {p : Nat} {s t : State} (h : Fr p s t) (hp : p.testBit 24 = false) : t.parkAcc = s.parkAcc := by
  have e := congrArg State.parkAcc h
  simpa only [State.mask, hp, cond_false] using e
theorem Fr.log {p : Nat} {s t : State} (h : Fr p s t) (hp : p.testBit 25 = false) : t.log = s.log := by
  have e := congrArg State.log h
  simpa only [State.mask, hp, cond_false] using e
theorem Fr.logRetry {p : Nat} {s t : State} (h : Fr p s t) (hp : p.testBit 26 = false) : t.logRetry = s.logRetry := by
  have e := congrArg State.logRetry h
  simpa only [State.mask, hp, cond_false] using e
theorem Fr.tabs {p : Nat} {s t : State} (h : Fr p s t) (hp : p.testBit 27 = false) : t.tabs = s.tabs := by
  have e := congrArg State.tabs h
  simpa only [State.mask, hp, cond_false] using e
theorem Fr.env {p : Nat} {s t : State} (h : Fr p s t) (hp : p.testBit 28 = false) : t.env = s.env := by
  have e := congrArg State.env h
  simpa only [State.mask, hp, cond_false] using e
theorem Fr.chg {p : Nat} {s t : State} (h : Fr p s t) (hp : p.testBit 29 = false) : t.chg = s.chg := by
  have e := congrArg State.chg h
  simpa only [State.mask, hp, cond_false] using e
theorem Fr.link {p : Nat} {s t : State} (h : Fr p s t) (hp : p.testBit 30 = false) : t.link = s.link := by
  have e := congrArg State.link h
  simpa only [State.mask, hp, cond_false] using e
theorem Fr.fab {p : Nat} {s t : State} (h : Fr p s t) (hp : p.testBit 31 = false) : t.fab = s.fab := by
  have e := congrArg State.fab h
  simpa only [State.mask, hp, cond_false] using e
theorem Fr.seqs {p : Nat} {s t : State} (h : Fr p s t) (hp : p.testBit 32 = false) : t.seqs = s.seqs := by
  have e := congrArg State.seqs h
  simpa only [State.mask, hp, cond_false] using e
theorem Fr.flash {p : Nat} {s t : State} (h : Fr p s t) (hp : p.testBit 33 = false) : t.flash = s.flash := by
  have e := congrArg State.flash h
  simpa only [State.mask, hp, cond_false] using e
theorem Fr.wd {p : Nat} {s t : State} (h : Fr p s t) (hp : p.testBit 34 = false) : t.wd = s.wd := by
  have e := congrArg State.wd h
  simpa only [State.mask, hp, cond_false] using e
theorem Fr.srv {p : Nat} {s t : State} (h : Fr p s t) (hp : p.testBit 35 = false) : t.srv = s.srv := by
  have e := congrArg State.srv h
  simpa only [State.mask, hp, cond_false] using e
theorem Fr.can {p : Nat} {s t : State} (h : Fr p s t) (hp : p.testBit 36 = false) : t.can = s.can := by
  have e := congrArg State.can h
  simpa only [State.mask, hp, cond_false] using e
theorem Fr.note {p : Nat} {s t : State} (h : Fr p s t) (hp : p.testBit 37 = false) : t.note = s.note := by
  have e := congrArg State.note h
  simpa only [State.mask, hp, cond_false] using e
theorem Fr.lin {p : Nat} {s t : State} (h : Fr p s t) (hp : p.testBit 38 = false) : t.lin = s.lin := by
  have e := congrArg State.lin h
  simpa only [State.mask, hp, cond_false] using e
theorem Fr.uds {p : Nat} {s t : State} (h : Fr p s t) (hp : p.testBit 39 = false) : t.uds = s.uds := by
  have e := congrArg State.uds h
  simpa only [State.mask, hp, cond_false] using e

/-- The bit of a component in a footprint. -/
def Part.num : Part → Nat
  | .pending => 0
  | .now => 1
  | .recTime => 2
  | .free => 3
  | .objs => 4
  | .core => 5
  | .grp => 6
  | .ph => 7
  | .aon => 8
  | .cell => 9
  | .strat => 10
  | .mode => 11
  | .src => 12
  | .col => 13
  | .recs => 14
  | .spd => 15
  | .jrnl => 16
  | .otp => 17
  | .meas => 18
  | .ring => 19
  | .archive => 20
  | .thm => 21
  | .hz => 22
  | .hour => 23
  | .parkAcc => 24
  | .log => 25
  | .logRetry => 26
  | .tabs => 27
  | .env => 28
  | .chg => 29
  | .link => 30
  | .fab => 31
  | .seqs => 32
  | .flash => 33
  | .wd => 34
  | .srv => 35
  | .can => 36
  | .note => 37
  | .lin => 38
  | .uds => 39

theorem Fr.onlyParts {p : Nat} {s t : State} {l : List Part} (h : Fr p s t) (hl : ∀ q : Part, q ∉ l → p.testBit q.num = false) :
    s.OnlyParts l t := by
  intro q hq
  have e := hl q hq
  cases q
  case pending => exact h.pending e
  case now => exact h.now e
  case recTime => exact h.recTime e
  case free => exact h.free e
  case objs => exact h.objs e
  case core => exact h.core e
  case grp => exact h.grp e
  case ph => exact h.ph e
  case aon => exact h.aon e
  case cell => exact h.cell e
  case strat => exact h.strat e
  case mode => exact h.mode e
  case src => exact h.src e
  case col => exact h.col e
  case recs => exact h.recs e
  case spd => exact h.spd e
  case jrnl => exact h.jrnl e
  case otp => exact h.otp e
  case meas => exact h.meas e
  case ring => exact h.ring e
  case archive => exact h.archive e
  case thm => exact h.thm e
  case hz => exact h.hz e
  case hour => exact h.hour e
  case parkAcc => exact h.parkAcc e
  case log => exact h.log e
  case logRetry => exact h.logRetry e
  case tabs => exact h.tabs e
  case env => exact h.env e
  case chg => exact h.chg e
  case link => exact h.link e
  case fab => exact h.fab e
  case seqs => exact h.seqs e
  case flash => exact h.flash e
  case wd => exact h.wd e
  case srv => exact h.srv e
  case can => exact h.can e
  case note => exact h.note e
  case lin => exact h.lin e
  case uds => exact h.uds e

/-! ### Record updates -/

theorem Fr.hit {α : Type} {a p : Nat} (h : a ||| p = p) {i : Nat} (hi : a.testBit i = true) (d x y : α) :
    (bif p.testBit i then d else x) = bif p.testBit i then d else y := by
  have e : (a ||| p).testBit i = p.testBit i := by rw [h]
  rw [Nat.testBit_or, hi, Bool.true_or] at e
  rw [← e]
  rfl

theorem Fr.intro {p : Nat} {s t : State}
    (h0 : (bif p.testBit 0 then [] else t.pending) = bif p.testBit 0 then [] else s.pending)
    (h1 : (bif p.testBit 1 then 0 else t.now) = bif p.testBit 1 then 0 else s.now)
    (h2 : (bif p.testBit 2 then 0 else t.recTime) = bif p.testBit 2 then 0 else s.recTime)
    (h3 : (bif p.testBit 3 then 0 else t.free) = bif p.testBit 3 then 0 else s.free)
    (h4 : (bif p.testBit 4 then [] else t.objs) = bif p.testBit 4 then [] else s.objs)
    (h5 : (bif p.testBit 5 then {} else t.core) = bif p.testBit 5 then {} else s.core)
    (h6 : (bif p.testBit 6 then ⟨{}, {}, {}, {}⟩ else t.grp) = bif p.testBit 6 then ⟨{}, {}, {}, {}⟩ else s.grp)
    (h7 : (bif p.testBit 7 then Vector.replicate 16 {} else t.ph) = bif p.testBit 7 then Vector.replicate 16 {} else s.ph)
    (h8 : (bif p.testBit 8 then {} else t.aon) = bif p.testBit 8 then {} else s.aon)
    (h9 : (bif p.testBit 9 then {} else t.cell) = bif p.testBit 9 then {} else s.cell)
    (h10 : (bif p.testBit 10 then {} else t.strat) = bif p.testBit 10 then {} else s.strat)
    (h11 : (bif p.testBit 11 then {} else t.mode) = bif p.testBit 11 then {} else s.mode)
    (h12 : (bif p.testBit 12 then {} else t.src) = bif p.testBit 12 then {} else s.src)
    (h13 : (bif p.testBit 13 then {} else t.col) = bif p.testBit 13 then {} else s.col)
    (h14 : (bif p.testBit 14 then [] else t.recs) = bif p.testBit 14 then [] else s.recs)
    (h15 : (bif p.testBit 15 then {} else t.spd) = bif p.testBit 15 then {} else s.spd)
    (h16 : (bif p.testBit 16 then {} else t.jrnl) = bif p.testBit 16 then {} else s.jrnl)
    (h17 : (bif p.testBit 17 then {} else t.otp) = bif p.testBit 17 then {} else s.otp)
    (h18 : (bif p.testBit 18 then {} else t.meas) = bif p.testBit 18 then {} else s.meas)
    (h19 : (bif p.testBit 19 then {} else t.ring) = bif p.testBit 19 then {} else s.ring)
    (h20 : (bif p.testBit 20 then [] else t.archive) = bif p.testBit 20 then [] else s.archive)
    (h21 : (bif p.testBit 21 then {} else t.thm) = bif p.testBit 21 then {} else s.thm)
    (h22 : (bif p.testBit 22 then {} else t.hz) = bif p.testBit 22 then {} else s.hz)
    (h23 : (bif p.testBit 23 then {} else t.hour) = bif p.testBit 23 then {} else s.hour)
    (h24 : (bif p.testBit 24 then {} else t.parkAcc) = bif p.testBit 24 then {} else s.parkAcc)
    (h25 : (bif p.testBit 25 then [] else t.log) = bif p.testBit 25 then [] else s.log)
    (h26 : (bif p.testBit 26 then [] else t.logRetry) = bif p.testBit 26 then [] else s.logRetry)
    (h27 : (bif p.testBit 27 then {} else t.tabs) = bif p.testBit 27 then {} else s.tabs)
    (h28 : (bif p.testBit 28 then {} else t.env) = bif p.testBit 28 then {} else s.env)
    (h29 : (bif p.testBit 29 then {} else t.chg) = bif p.testBit 29 then {} else s.chg)
    (h30 : (bif p.testBit 30 then ⟨{}, {}⟩ else t.link) = bif p.testBit 30 then ⟨{}, {}⟩ else s.link)
    (h31 : (bif p.testBit 31 then {} else t.fab) = bif p.testBit 31 then {} else s.fab)
    (h32 : (bif p.testBit 32 then Vector.replicate 5 {} else t.seqs) = bif p.testBit 32 then Vector.replicate 5 {} else s.seqs)
    (h33 : (bif p.testBit 33 then {} else t.flash) = bif p.testBit 33 then {} else s.flash)
    (h34 : (bif p.testBit 34 then {} else t.wd) = bif p.testBit 34 then {} else s.wd)
    (h35 : (bif p.testBit 35 then {} else t.srv) = bif p.testBit 35 then {} else s.srv)
    (h36 : (bif p.testBit 36 then ⟨{}, {}⟩ else t.can) = bif p.testBit 36 then ⟨{}, {}⟩ else s.can)
    (h37 : (bif p.testBit 37 then {} else t.note) = bif p.testBit 37 then {} else s.note)
    (h38 : (bif p.testBit 38 then {} else t.lin) = bif p.testBit 38 then {} else s.lin)
    (h39 : (bif p.testBit 39 then {} else t.uds) = bif p.testBit 39 then {} else s.uds) : Fr p s t := by
  unfold Fr State.mask
  simp only [h0, h1, h2, h3, h4, h5, h6, h7, h8, h9, h10, h11, h12, h13, h14, h15, h16, h17, h18, h19, h20, h21, h22, h23, h24, h25, h26, h27, h28, h29, h30, h31, h32, h33, h34, h35, h36, h37, h38, h39]

theorem Fr.mk_free {p : Nat} {s x : State} {free : _} (h : Fr p s x) (hp : 0x8 ||| p = p) :
    Fr p s (State.mk x.pending x.now x.recTime free x.objs x.core x.grp x.ph x.aon x.cell x.strat x.mode x.src x.col x.recs x.spd x.jrnl x.otp x.meas x.ring x.archive x.thm x.hz x.hour x.parkAcc x.log x.logRetry x.tabs x.env x.chg x.link x.fab x.seqs x.flash x.wd x.srv x.can x.note x.lin x.uds) :=
  Fr.trans h (Fr.intro rfl rfl rfl (Fr.hit hp rfl _ _ _) rfl rfl rfl rfl rfl rfl rfl rfl rfl rfl rfl rfl rfl rfl rfl rfl rfl rfl rfl rfl rfl rfl rfl rfl rfl rfl rfl rfl rfl rfl rfl rfl rfl rfl rfl rfl)
theorem Fr.mk_objs {p : Nat} {s x : State} {objs : _} (h : Fr p s x) (hp : 0x10 ||| p = p) :
    Fr p s (State.mk x.pending x.now x.recTime x.free objs x.core x.grp x.ph x.aon x.cell x.strat x.mode x.src x.col x.recs x.spd x.jrnl x.otp x.meas x.ring x.archive x.thm x.hz x.hour x.parkAcc x.log x.logRetry x.tabs x.env x.chg x.link x.fab x.seqs x.flash x.wd x.srv x.can x.note x.lin x.uds) :=
  Fr.trans h (Fr.intro rfl rfl rfl rfl (Fr.hit hp rfl _ _ _) rfl rfl rfl rfl rfl rfl rfl rfl rfl rfl rfl rfl rfl rfl rfl rfl rfl rfl rfl rfl rfl rfl rfl rfl rfl rfl rfl rfl rfl rfl rfl rfl rfl rfl rfl)
theorem Fr.mk_core {p : Nat} {s x : State} {core : _} (h : Fr p s x) (hp : 0x20 ||| p = p) :
    Fr p s (State.mk x.pending x.now x.recTime x.free x.objs core x.grp x.ph x.aon x.cell x.strat x.mode x.src x.col x.recs x.spd x.jrnl x.otp x.meas x.ring x.archive x.thm x.hz x.hour x.parkAcc x.log x.logRetry x.tabs x.env x.chg x.link x.fab x.seqs x.flash x.wd x.srv x.can x.note x.lin x.uds) :=
  Fr.trans h (Fr.intro rfl rfl rfl rfl rfl (Fr.hit hp rfl _ _ _) rfl rfl rfl rfl rfl rfl rfl rfl rfl rfl rfl rfl rfl rfl rfl rfl rfl rfl rfl rfl rfl rfl rfl rfl rfl rfl rfl rfl rfl rfl rfl rfl rfl rfl)
theorem Fr.mk_grp {p : Nat} {s x : State} {grp : _} (h : Fr p s x) (hp : 0x40 ||| p = p) :
    Fr p s (State.mk x.pending x.now x.recTime x.free x.objs x.core grp x.ph x.aon x.cell x.strat x.mode x.src x.col x.recs x.spd x.jrnl x.otp x.meas x.ring x.archive x.thm x.hz x.hour x.parkAcc x.log x.logRetry x.tabs x.env x.chg x.link x.fab x.seqs x.flash x.wd x.srv x.can x.note x.lin x.uds) :=
  Fr.trans h (Fr.intro rfl rfl rfl rfl rfl rfl (Fr.hit hp rfl _ _ _) rfl rfl rfl rfl rfl rfl rfl rfl rfl rfl rfl rfl rfl rfl rfl rfl rfl rfl rfl rfl rfl rfl rfl rfl rfl rfl rfl rfl rfl rfl rfl rfl rfl)
theorem Fr.mk_ph {p : Nat} {s x : State} {ph : _} (h : Fr p s x) (hp : 0x80 ||| p = p) :
    Fr p s (State.mk x.pending x.now x.recTime x.free x.objs x.core x.grp ph x.aon x.cell x.strat x.mode x.src x.col x.recs x.spd x.jrnl x.otp x.meas x.ring x.archive x.thm x.hz x.hour x.parkAcc x.log x.logRetry x.tabs x.env x.chg x.link x.fab x.seqs x.flash x.wd x.srv x.can x.note x.lin x.uds) :=
  Fr.trans h (Fr.intro rfl rfl rfl rfl rfl rfl rfl (Fr.hit hp rfl _ _ _) rfl rfl rfl rfl rfl rfl rfl rfl rfl rfl rfl rfl rfl rfl rfl rfl rfl rfl rfl rfl rfl rfl rfl rfl rfl rfl rfl rfl rfl rfl rfl rfl)
theorem Fr.mk_aon {p : Nat} {s x : State} {aon : _} (h : Fr p s x) (hp : 0x100 ||| p = p) :
    Fr p s (State.mk x.pending x.now x.recTime x.free x.objs x.core x.grp x.ph aon x.cell x.strat x.mode x.src x.col x.recs x.spd x.jrnl x.otp x.meas x.ring x.archive x.thm x.hz x.hour x.parkAcc x.log x.logRetry x.tabs x.env x.chg x.link x.fab x.seqs x.flash x.wd x.srv x.can x.note x.lin x.uds) :=
  Fr.trans h (Fr.intro rfl rfl rfl rfl rfl rfl rfl rfl (Fr.hit hp rfl _ _ _) rfl rfl rfl rfl rfl rfl rfl rfl rfl rfl rfl rfl rfl rfl rfl rfl rfl rfl rfl rfl rfl rfl rfl rfl rfl rfl rfl rfl rfl rfl rfl)
theorem Fr.mk_cell {p : Nat} {s x : State} {cell : _} (h : Fr p s x) (hp : 0x200 ||| p = p) :
    Fr p s (State.mk x.pending x.now x.recTime x.free x.objs x.core x.grp x.ph x.aon cell x.strat x.mode x.src x.col x.recs x.spd x.jrnl x.otp x.meas x.ring x.archive x.thm x.hz x.hour x.parkAcc x.log x.logRetry x.tabs x.env x.chg x.link x.fab x.seqs x.flash x.wd x.srv x.can x.note x.lin x.uds) :=
  Fr.trans h (Fr.intro rfl rfl rfl rfl rfl rfl rfl rfl rfl (Fr.hit hp rfl _ _ _) rfl rfl rfl rfl rfl rfl rfl rfl rfl rfl rfl rfl rfl rfl rfl rfl rfl rfl rfl rfl rfl rfl rfl rfl rfl rfl rfl rfl rfl rfl)
theorem Fr.mk_strat {p : Nat} {s x : State} {strat : _} (h : Fr p s x) (hp : 0x400 ||| p = p) :
    Fr p s (State.mk x.pending x.now x.recTime x.free x.objs x.core x.grp x.ph x.aon x.cell strat x.mode x.src x.col x.recs x.spd x.jrnl x.otp x.meas x.ring x.archive x.thm x.hz x.hour x.parkAcc x.log x.logRetry x.tabs x.env x.chg x.link x.fab x.seqs x.flash x.wd x.srv x.can x.note x.lin x.uds) :=
  Fr.trans h (Fr.intro rfl rfl rfl rfl rfl rfl rfl rfl rfl rfl (Fr.hit hp rfl _ _ _) rfl rfl rfl rfl rfl rfl rfl rfl rfl rfl rfl rfl rfl rfl rfl rfl rfl rfl rfl rfl rfl rfl rfl rfl rfl rfl rfl rfl rfl)
theorem Fr.mk_mode {p : Nat} {s x : State} {mode : _} (h : Fr p s x) (hp : 0x800 ||| p = p) :
    Fr p s (State.mk x.pending x.now x.recTime x.free x.objs x.core x.grp x.ph x.aon x.cell x.strat mode x.src x.col x.recs x.spd x.jrnl x.otp x.meas x.ring x.archive x.thm x.hz x.hour x.parkAcc x.log x.logRetry x.tabs x.env x.chg x.link x.fab x.seqs x.flash x.wd x.srv x.can x.note x.lin x.uds) :=
  Fr.trans h (Fr.intro rfl rfl rfl rfl rfl rfl rfl rfl rfl rfl rfl (Fr.hit hp rfl _ _ _) rfl rfl rfl rfl rfl rfl rfl rfl rfl rfl rfl rfl rfl rfl rfl rfl rfl rfl rfl rfl rfl rfl rfl rfl rfl rfl rfl rfl)
theorem Fr.mk_src {p : Nat} {s x : State} {src : _} (h : Fr p s x) (hp : 0x1000 ||| p = p) :
    Fr p s (State.mk x.pending x.now x.recTime x.free x.objs x.core x.grp x.ph x.aon x.cell x.strat x.mode src x.col x.recs x.spd x.jrnl x.otp x.meas x.ring x.archive x.thm x.hz x.hour x.parkAcc x.log x.logRetry x.tabs x.env x.chg x.link x.fab x.seqs x.flash x.wd x.srv x.can x.note x.lin x.uds) :=
  Fr.trans h (Fr.intro rfl rfl rfl rfl rfl rfl rfl rfl rfl rfl rfl rfl (Fr.hit hp rfl _ _ _) rfl rfl rfl rfl rfl rfl rfl rfl rfl rfl rfl rfl rfl rfl rfl rfl rfl rfl rfl rfl rfl rfl rfl rfl rfl rfl rfl)
theorem Fr.mk_col {p : Nat} {s x : State} {col : _} (h : Fr p s x) (hp : 0x2000 ||| p = p) :
    Fr p s (State.mk x.pending x.now x.recTime x.free x.objs x.core x.grp x.ph x.aon x.cell x.strat x.mode x.src col x.recs x.spd x.jrnl x.otp x.meas x.ring x.archive x.thm x.hz x.hour x.parkAcc x.log x.logRetry x.tabs x.env x.chg x.link x.fab x.seqs x.flash x.wd x.srv x.can x.note x.lin x.uds) :=
  Fr.trans h (Fr.intro rfl rfl rfl rfl rfl rfl rfl rfl rfl rfl rfl rfl rfl (Fr.hit hp rfl _ _ _) rfl rfl rfl rfl rfl rfl rfl rfl rfl rfl rfl rfl rfl rfl rfl rfl rfl rfl rfl rfl rfl rfl rfl rfl rfl rfl)
theorem Fr.mk_recs {p : Nat} {s x : State} {recs : _} (h : Fr p s x) (hp : 0x4000 ||| p = p) :
    Fr p s (State.mk x.pending x.now x.recTime x.free x.objs x.core x.grp x.ph x.aon x.cell x.strat x.mode x.src x.col recs x.spd x.jrnl x.otp x.meas x.ring x.archive x.thm x.hz x.hour x.parkAcc x.log x.logRetry x.tabs x.env x.chg x.link x.fab x.seqs x.flash x.wd x.srv x.can x.note x.lin x.uds) :=
  Fr.trans h (Fr.intro rfl rfl rfl rfl rfl rfl rfl rfl rfl rfl rfl rfl rfl rfl (Fr.hit hp rfl _ _ _) rfl rfl rfl rfl rfl rfl rfl rfl rfl rfl rfl rfl rfl rfl rfl rfl rfl rfl rfl rfl rfl rfl rfl rfl rfl)
theorem Fr.mk_spd {p : Nat} {s x : State} {spd : _} (h : Fr p s x) (hp : 0x8000 ||| p = p) :
    Fr p s (State.mk x.pending x.now x.recTime x.free x.objs x.core x.grp x.ph x.aon x.cell x.strat x.mode x.src x.col x.recs spd x.jrnl x.otp x.meas x.ring x.archive x.thm x.hz x.hour x.parkAcc x.log x.logRetry x.tabs x.env x.chg x.link x.fab x.seqs x.flash x.wd x.srv x.can x.note x.lin x.uds) :=
  Fr.trans h (Fr.intro rfl rfl rfl rfl rfl rfl rfl rfl rfl rfl rfl rfl rfl rfl rfl (Fr.hit hp rfl _ _ _) rfl rfl rfl rfl rfl rfl rfl rfl rfl rfl rfl rfl rfl rfl rfl rfl rfl rfl rfl rfl rfl rfl rfl rfl)
theorem Fr.mk_jrnl {p : Nat} {s x : State} {jrnl : _} (h : Fr p s x) (hp : 0x10000 ||| p = p) :
    Fr p s (State.mk x.pending x.now x.recTime x.free x.objs x.core x.grp x.ph x.aon x.cell x.strat x.mode x.src x.col x.recs x.spd jrnl x.otp x.meas x.ring x.archive x.thm x.hz x.hour x.parkAcc x.log x.logRetry x.tabs x.env x.chg x.link x.fab x.seqs x.flash x.wd x.srv x.can x.note x.lin x.uds) :=
  Fr.trans h (Fr.intro rfl rfl rfl rfl rfl rfl rfl rfl rfl rfl rfl rfl rfl rfl rfl rfl (Fr.hit hp rfl _ _ _) rfl rfl rfl rfl rfl rfl rfl rfl rfl rfl rfl rfl rfl rfl rfl rfl rfl rfl rfl rfl rfl rfl rfl)
theorem Fr.mk_otp {p : Nat} {s x : State} {otp : _} (h : Fr p s x) (hp : 0x20000 ||| p = p) :
    Fr p s (State.mk x.pending x.now x.recTime x.free x.objs x.core x.grp x.ph x.aon x.cell x.strat x.mode x.src x.col x.recs x.spd x.jrnl otp x.meas x.ring x.archive x.thm x.hz x.hour x.parkAcc x.log x.logRetry x.tabs x.env x.chg x.link x.fab x.seqs x.flash x.wd x.srv x.can x.note x.lin x.uds) :=
  Fr.trans h (Fr.intro rfl rfl rfl rfl rfl rfl rfl rfl rfl rfl rfl rfl rfl rfl rfl rfl rfl (Fr.hit hp rfl _ _ _) rfl rfl rfl rfl rfl rfl rfl rfl rfl rfl rfl rfl rfl rfl rfl rfl rfl rfl rfl rfl rfl rfl)
theorem Fr.mk_meas {p : Nat} {s x : State} {meas : _} (h : Fr p s x) (hp : 0x40000 ||| p = p) :
    Fr p s (State.mk x.pending x.now x.recTime x.free x.objs x.core x.grp x.ph x.aon x.cell x.strat x.mode x.src x.col x.recs x.spd x.jrnl x.otp meas x.ring x.archive x.thm x.hz x.hour x.parkAcc x.log x.logRetry x.tabs x.env x.chg x.link x.fab x.seqs x.flash x.wd x.srv x.can x.note x.lin x.uds) :=
  Fr.trans h (Fr.intro rfl rfl rfl rfl rfl rfl rfl rfl rfl rfl rfl rfl rfl rfl rfl rfl rfl rfl (Fr.hit hp rfl _ _ _) rfl rfl rfl rfl rfl rfl rfl rfl rfl rfl rfl rfl rfl rfl rfl rfl rfl rfl rfl rfl rfl)
theorem Fr.mk_ring {p : Nat} {s x : State} {ring : _} (h : Fr p s x) (hp : 0x80000 ||| p = p) :
    Fr p s (State.mk x.pending x.now x.recTime x.free x.objs x.core x.grp x.ph x.aon x.cell x.strat x.mode x.src x.col x.recs x.spd x.jrnl x.otp x.meas ring x.archive x.thm x.hz x.hour x.parkAcc x.log x.logRetry x.tabs x.env x.chg x.link x.fab x.seqs x.flash x.wd x.srv x.can x.note x.lin x.uds) :=
  Fr.trans h (Fr.intro rfl rfl rfl rfl rfl rfl rfl rfl rfl rfl rfl rfl rfl rfl rfl rfl rfl rfl rfl (Fr.hit hp rfl _ _ _) rfl rfl rfl rfl rfl rfl rfl rfl rfl rfl rfl rfl rfl rfl rfl rfl rfl rfl rfl rfl)
theorem Fr.mk_archive {p : Nat} {s x : State} {archive : _} (h : Fr p s x) (hp : 0x100000 ||| p = p) :
    Fr p s (State.mk x.pending x.now x.recTime x.free x.objs x.core x.grp x.ph x.aon x.cell x.strat x.mode x.src x.col x.recs x.spd x.jrnl x.otp x.meas x.ring archive x.thm x.hz x.hour x.parkAcc x.log x.logRetry x.tabs x.env x.chg x.link x.fab x.seqs x.flash x.wd x.srv x.can x.note x.lin x.uds) :=
  Fr.trans h (Fr.intro rfl rfl rfl rfl rfl rfl rfl rfl rfl rfl rfl rfl rfl rfl rfl rfl rfl rfl rfl rfl (Fr.hit hp rfl _ _ _) rfl rfl rfl rfl rfl rfl rfl rfl rfl rfl rfl rfl rfl rfl rfl rfl rfl rfl rfl)
theorem Fr.mk_thm {p : Nat} {s x : State} {thm : _} (h : Fr p s x) (hp : 0x200000 ||| p = p) :
    Fr p s (State.mk x.pending x.now x.recTime x.free x.objs x.core x.grp x.ph x.aon x.cell x.strat x.mode x.src x.col x.recs x.spd x.jrnl x.otp x.meas x.ring x.archive thm x.hz x.hour x.parkAcc x.log x.logRetry x.tabs x.env x.chg x.link x.fab x.seqs x.flash x.wd x.srv x.can x.note x.lin x.uds) :=
  Fr.trans h (Fr.intro rfl rfl rfl rfl rfl rfl rfl rfl rfl rfl rfl rfl rfl rfl rfl rfl rfl rfl rfl rfl rfl (Fr.hit hp rfl _ _ _) rfl rfl rfl rfl rfl rfl rfl rfl rfl rfl rfl rfl rfl rfl rfl rfl rfl rfl)
theorem Fr.mk_hz {p : Nat} {s x : State} {hz : _} (h : Fr p s x) (hp : 0x400000 ||| p = p) :
    Fr p s (State.mk x.pending x.now x.recTime x.free x.objs x.core x.grp x.ph x.aon x.cell x.strat x.mode x.src x.col x.recs x.spd x.jrnl x.otp x.meas x.ring x.archive x.thm hz x.hour x.parkAcc x.log x.logRetry x.tabs x.env x.chg x.link x.fab x.seqs x.flash x.wd x.srv x.can x.note x.lin x.uds) :=
  Fr.trans h (Fr.intro rfl rfl rfl rfl rfl rfl rfl rfl rfl rfl rfl rfl rfl rfl rfl rfl rfl rfl rfl rfl rfl rfl (Fr.hit hp rfl _ _ _) rfl rfl rfl rfl rfl rfl rfl rfl rfl rfl rfl rfl rfl rfl rfl rfl rfl)
theorem Fr.mk_hour {p : Nat} {s x : State} {hour : _} (h : Fr p s x) (hp : 0x800000 ||| p = p) :
    Fr p s (State.mk x.pending x.now x.recTime x.free x.objs x.core x.grp x.ph x.aon x.cell x.strat x.mode x.src x.col x.recs x.spd x.jrnl x.otp x.meas x.ring x.archive x.thm x.hz hour x.parkAcc x.log x.logRetry x.tabs x.env x.chg x.link x.fab x.seqs x.flash x.wd x.srv x.can x.note x.lin x.uds) :=
  Fr.trans h (Fr.intro rfl rfl rfl rfl rfl rfl rfl rfl rfl rfl rfl rfl rfl rfl rfl rfl rfl rfl rfl rfl rfl rfl rfl (Fr.hit hp rfl _ _ _) rfl rfl rfl rfl rfl rfl rfl rfl rfl rfl rfl rfl rfl rfl rfl rfl)
theorem Fr.mk_parkAcc {p : Nat} {s x : State} {parkAcc : _} (h : Fr p s x) (hp : 0x1000000 ||| p = p) :
    Fr p s (State.mk x.pending x.now x.recTime x.free x.objs x.core x.grp x.ph x.aon x.cell x.strat x.mode x.src x.col x.recs x.spd x.jrnl x.otp x.meas x.ring x.archive x.thm x.hz x.hour parkAcc x.log x.logRetry x.tabs x.env x.chg x.link x.fab x.seqs x.flash x.wd x.srv x.can x.note x.lin x.uds) :=
  Fr.trans h (Fr.intro rfl rfl rfl rfl rfl rfl rfl rfl rfl rfl rfl rfl rfl rfl rfl rfl rfl rfl rfl rfl rfl rfl rfl rfl (Fr.hit hp rfl _ _ _) rfl rfl rfl rfl rfl rfl rfl rfl rfl rfl rfl rfl rfl rfl rfl)
theorem Fr.mk_log {p : Nat} {s x : State} {log : _} (h : Fr p s x) (hp : 0x2000000 ||| p = p) :
    Fr p s (State.mk x.pending x.now x.recTime x.free x.objs x.core x.grp x.ph x.aon x.cell x.strat x.mode x.src x.col x.recs x.spd x.jrnl x.otp x.meas x.ring x.archive x.thm x.hz x.hour x.parkAcc log x.logRetry x.tabs x.env x.chg x.link x.fab x.seqs x.flash x.wd x.srv x.can x.note x.lin x.uds) :=
  Fr.trans h (Fr.intro rfl rfl rfl rfl rfl rfl rfl rfl rfl rfl rfl rfl rfl rfl rfl rfl rfl rfl rfl rfl rfl rfl rfl rfl rfl (Fr.hit hp rfl _ _ _) rfl rfl rfl rfl rfl rfl rfl rfl rfl rfl rfl rfl rfl rfl)
theorem Fr.mk_logRetry {p : Nat} {s x : State} {logRetry : _} (h : Fr p s x) (hp : 0x4000000 ||| p = p) :
    Fr p s (State.mk x.pending x.now x.recTime x.free x.objs x.core x.grp x.ph x.aon x.cell x.strat x.mode x.src x.col x.recs x.spd x.jrnl x.otp x.meas x.ring x.archive x.thm x.hz x.hour x.parkAcc x.log logRetry x.tabs x.env x.chg x.link x.fab x.seqs x.flash x.wd x.srv x.can x.note x.lin x.uds) :=
  Fr.trans h (Fr.intro rfl rfl rfl rfl rfl rfl rfl rfl rfl rfl rfl rfl rfl rfl rfl rfl rfl rfl rfl rfl rfl rfl rfl rfl rfl rfl (Fr.hit hp rfl _ _ _) rfl rfl rfl rfl rfl rfl rfl rfl rfl rfl rfl rfl rfl)
theorem Fr.mk_tabs {p : Nat} {s x : State} {tabs : _} (h : Fr p s x) (hp : 0x8000000 ||| p = p) :
    Fr p s (State.mk x.pending x.now x.recTime x.free x.objs x.core x.grp x.ph x.aon x.cell x.strat x.mode x.src x.col x.recs x.spd x.jrnl x.otp x.meas x.ring x.archive x.thm x.hz x.hour x.parkAcc x.log x.logRetry tabs x.env x.chg x.link x.fab x.seqs x.flash x.wd x.srv x.can x.note x.lin x.uds) :=
  Fr.trans h (Fr.intro rfl rfl rfl rfl rfl rfl rfl rfl rfl rfl rfl rfl rfl rfl rfl rfl rfl rfl rfl rfl rfl rfl rfl rfl rfl rfl rfl (Fr.hit hp rfl _ _ _) rfl rfl rfl rfl rfl rfl rfl rfl rfl rfl rfl rfl)
theorem Fr.mk_env {p : Nat} {s x : State} {env : _} (h : Fr p s x) (hp : 0x10000000 ||| p = p) :
    Fr p s (State.mk x.pending x.now x.recTime x.free x.objs x.core x.grp x.ph x.aon x.cell x.strat x.mode x.src x.col x.recs x.spd x.jrnl x.otp x.meas x.ring x.archive x.thm x.hz x.hour x.parkAcc x.log x.logRetry x.tabs env x.chg x.link x.fab x.seqs x.flash x.wd x.srv x.can x.note x.lin x.uds) :=
  Fr.trans h (Fr.intro rfl rfl rfl rfl rfl rfl rfl rfl rfl rfl rfl rfl rfl rfl rfl rfl rfl rfl rfl rfl rfl rfl rfl rfl rfl rfl rfl rfl (Fr.hit hp rfl _ _ _) rfl rfl rfl rfl rfl rfl rfl rfl rfl rfl rfl)
theorem Fr.mk_chg {p : Nat} {s x : State} {chg : _} (h : Fr p s x) (hp : 0x20000000 ||| p = p) :
    Fr p s (State.mk x.pending x.now x.recTime x.free x.objs x.core x.grp x.ph x.aon x.cell x.strat x.mode x.src x.col x.recs x.spd x.jrnl x.otp x.meas x.ring x.archive x.thm x.hz x.hour x.parkAcc x.log x.logRetry x.tabs x.env chg x.link x.fab x.seqs x.flash x.wd x.srv x.can x.note x.lin x.uds) :=
  Fr.trans h (Fr.intro rfl rfl rfl rfl rfl rfl rfl rfl rfl rfl rfl rfl rfl rfl rfl rfl rfl rfl rfl rfl rfl rfl rfl rfl rfl rfl rfl rfl rfl (Fr.hit hp rfl _ _ _) rfl rfl rfl rfl rfl rfl rfl rfl rfl rfl)
theorem Fr.mk_link {p : Nat} {s x : State} {link : _} (h : Fr p s x) (hp : 0x40000000 ||| p = p) :
    Fr p s (State.mk x.pending x.now x.recTime x.free x.objs x.core x.grp x.ph x.aon x.cell x.strat x.mode x.src x.col x.recs x.spd x.jrnl x.otp x.meas x.ring x.archive x.thm x.hz x.hour x.parkAcc x.log x.logRetry x.tabs x.env x.chg link x.fab x.seqs x.flash x.wd x.srv x.can x.note x.lin x.uds) :=
  Fr.trans h (Fr.intro rfl rfl rfl rfl rfl rfl rfl rfl rfl rfl rfl rfl rfl rfl rfl rfl rfl rfl rfl rfl rfl rfl rfl rfl rfl rfl rfl rfl rfl rfl (Fr.hit hp rfl _ _ _) rfl rfl rfl rfl rfl rfl rfl rfl rfl)
theorem Fr.mk_fab {p : Nat} {s x : State} {fab : _} (h : Fr p s x) (hp : 0x80000000 ||| p = p) :
    Fr p s (State.mk x.pending x.now x.recTime x.free x.objs x.core x.grp x.ph x.aon x.cell x.strat x.mode x.src x.col x.recs x.spd x.jrnl x.otp x.meas x.ring x.archive x.thm x.hz x.hour x.parkAcc x.log x.logRetry x.tabs x.env x.chg x.link fab x.seqs x.flash x.wd x.srv x.can x.note x.lin x.uds) :=
  Fr.trans h (Fr.intro rfl rfl rfl rfl rfl rfl rfl rfl rfl rfl rfl rfl rfl rfl rfl rfl rfl rfl rfl rfl rfl rfl rfl rfl rfl rfl rfl rfl rfl rfl rfl (Fr.hit hp rfl _ _ _) rfl rfl rfl rfl rfl rfl rfl rfl)
theorem Fr.mk_seqs {p : Nat} {s x : State} {seqs : _} (h : Fr p s x) (hp : 0x100000000 ||| p = p) :
    Fr p s (State.mk x.pending x.now x.recTime x.free x.objs x.core x.grp x.ph x.aon x.cell x.strat x.mode x.src x.col x.recs x.spd x.jrnl x.otp x.meas x.ring x.archive x.thm x.hz x.hour x.parkAcc x.log x.logRetry x.tabs x.env x.chg x.link x.fab seqs x.flash x.wd x.srv x.can x.note x.lin x.uds) :=
  Fr.trans h (Fr.intro rfl rfl rfl rfl rfl rfl rfl rfl rfl rfl rfl rfl rfl rfl rfl rfl rfl rfl rfl rfl rfl rfl rfl rfl rfl rfl rfl rfl rfl rfl rfl rfl (Fr.hit hp rfl _ _ _) rfl rfl rfl rfl rfl rfl rfl)
theorem Fr.mk_flash {p : Nat} {s x : State} {flash : _} (h : Fr p s x) (hp : 0x200000000 ||| p = p) :
    Fr p s (State.mk x.pending x.now x.recTime x.free x.objs x.core x.grp x.ph x.aon x.cell x.strat x.mode x.src x.col x.recs x.spd x.jrnl x.otp x.meas x.ring x.archive x.thm x.hz x.hour x.parkAcc x.log x.logRetry x.tabs x.env x.chg x.link x.fab x.seqs flash x.wd x.srv x.can x.note x.lin x.uds) :=
  Fr.trans h (Fr.intro rfl rfl rfl rfl rfl rfl rfl rfl rfl rfl rfl rfl rfl rfl rfl rfl rfl rfl rfl rfl rfl rfl rfl rfl rfl rfl rfl rfl rfl rfl rfl rfl rfl (Fr.hit hp rfl _ _ _) rfl rfl rfl rfl rfl rfl)
theorem Fr.mk_wd {p : Nat} {s x : State} {wd : _} (h : Fr p s x) (hp : 0x400000000 ||| p = p) :
    Fr p s (State.mk x.pending x.now x.recTime x.free x.objs x.core x.grp x.ph x.aon x.cell x.strat x.mode x.src x.col x.recs x.spd x.jrnl x.otp x.meas x.ring x.archive x.thm x.hz x.hour x.parkAcc x.log x.logRetry x.tabs x.env x.chg x.link x.fab x.seqs x.flash wd x.srv x.can x.note x.lin x.uds) :=
  Fr.trans h (Fr.intro rfl rfl rfl rfl rfl rfl rfl rfl rfl rfl rfl rfl rfl rfl rfl rfl rfl rfl rfl rfl rfl rfl rfl rfl rfl rfl rfl rfl rfl rfl rfl rfl rfl rfl (Fr.hit hp rfl _ _ _) rfl rfl rfl rfl rfl)
theorem Fr.mk_srv {p : Nat} {s x : State} {srv : _} (h : Fr p s x) (hp : 0x800000000 ||| p = p) :
    Fr p s (State.mk x.pending x.now x.recTime x.free x.objs x.core x.grp x.ph x.aon x.cell x.strat x.mode x.src x.col x.recs x.spd x.jrnl x.otp x.meas x.ring x.archive x.thm x.hz x.hour x.parkAcc x.log x.logRetry x.tabs x.env x.chg x.link x.fab x.seqs x.flash x.wd srv x.can x.note x.lin x.uds) :=
  Fr.trans h (Fr.intro rfl rfl rfl rfl rfl rfl rfl rfl rfl rfl rfl rfl rfl rfl rfl rfl rfl rfl rfl rfl rfl rfl rfl rfl rfl rfl rfl rfl rfl rfl rfl rfl rfl rfl rfl (Fr.hit hp rfl _ _ _) rfl rfl rfl rfl)
theorem Fr.mk_can {p : Nat} {s x : State} {can : _} (h : Fr p s x) (hp : 0x1000000000 ||| p = p) :
    Fr p s (State.mk x.pending x.now x.recTime x.free x.objs x.core x.grp x.ph x.aon x.cell x.strat x.mode x.src x.col x.recs x.spd x.jrnl x.otp x.meas x.ring x.archive x.thm x.hz x.hour x.parkAcc x.log x.logRetry x.tabs x.env x.chg x.link x.fab x.seqs x.flash x.wd x.srv can x.note x.lin x.uds) :=
  Fr.trans h (Fr.intro rfl rfl rfl rfl rfl rfl rfl rfl rfl rfl rfl rfl rfl rfl rfl rfl rfl rfl rfl rfl rfl rfl rfl rfl rfl rfl rfl rfl rfl rfl rfl rfl rfl rfl rfl rfl (Fr.hit hp rfl _ _ _) rfl rfl rfl)
theorem Fr.mk_note {p : Nat} {s x : State} {note : _} (h : Fr p s x) (hp : 0x2000000000 ||| p = p) :
    Fr p s (State.mk x.pending x.now x.recTime x.free x.objs x.core x.grp x.ph x.aon x.cell x.strat x.mode x.src x.col x.recs x.spd x.jrnl x.otp x.meas x.ring x.archive x.thm x.hz x.hour x.parkAcc x.log x.logRetry x.tabs x.env x.chg x.link x.fab x.seqs x.flash x.wd x.srv x.can note x.lin x.uds) :=
  Fr.trans h (Fr.intro rfl rfl rfl rfl rfl rfl rfl rfl rfl rfl rfl rfl rfl rfl rfl rfl rfl rfl rfl rfl rfl rfl rfl rfl rfl rfl rfl rfl rfl rfl rfl rfl rfl rfl rfl rfl rfl (Fr.hit hp rfl _ _ _) rfl rfl)
theorem Fr.mk_lin {p : Nat} {s x : State} {lin : _} (h : Fr p s x) (hp : 0x4000000000 ||| p = p) :
    Fr p s (State.mk x.pending x.now x.recTime x.free x.objs x.core x.grp x.ph x.aon x.cell x.strat x.mode x.src x.col x.recs x.spd x.jrnl x.otp x.meas x.ring x.archive x.thm x.hz x.hour x.parkAcc x.log x.logRetry x.tabs x.env x.chg x.link x.fab x.seqs x.flash x.wd x.srv x.can x.note lin x.uds) :=
  Fr.trans h (Fr.intro rfl rfl rfl rfl rfl rfl rfl rfl rfl rfl rfl rfl rfl rfl rfl rfl rfl rfl rfl rfl rfl rfl rfl rfl rfl rfl rfl rfl rfl rfl rfl rfl rfl rfl rfl rfl rfl rfl (Fr.hit hp rfl _ _ _) rfl)
theorem Fr.mk_uds {p : Nat} {s x : State} {uds : _} (h : Fr p s x) (hp : 0x8000000000 ||| p = p) :
    Fr p s (State.mk x.pending x.now x.recTime x.free x.objs x.core x.grp x.ph x.aon x.cell x.strat x.mode x.src x.col x.recs x.spd x.jrnl x.otp x.meas x.ring x.archive x.thm x.hz x.hour x.parkAcc x.log x.logRetry x.tabs x.env x.chg x.link x.fab x.seqs x.flash x.wd x.srv x.can x.note x.lin uds) :=
  Fr.trans h (Fr.intro rfl rfl rfl rfl rfl rfl rfl rfl rfl rfl rfl rfl rfl rfl rfl rfl rfl rfl rfl rfl rfl rfl rfl rfl rfl rfl rfl rfl rfl rfl rfl rfl rfl rfl rfl rfl rfl rfl rfl (Fr.hit hp rfl _ _ _))
theorem Fr.mk_core_aon {p : Nat} {s x : State} {core : _} {aon : _} (h : Fr p s x) (hp : 0x120 ||| p = p) :
    Fr p s (State.mk x.pending x.now x.recTime x.free x.objs core x.grp x.ph aon x.cell x.strat x.mode x.src x.col x.recs x.spd x.jrnl x.otp x.meas x.ring x.archive x.thm x.hz x.hour x.parkAcc x.log x.logRetry x.tabs x.env x.chg x.link x.fab x.seqs x.flash x.wd x.srv x.can x.note x.lin x.uds) :=
  Fr.trans h (Fr.intro rfl rfl rfl rfl rfl (Fr.hit hp rfl _ _ _) rfl rfl (Fr.hit hp rfl _ _ _) rfl rfl rfl rfl rfl rfl rfl rfl rfl rfl rfl rfl rfl rfl rfl rfl rfl rfl rfl rfl rfl rfl rfl rfl rfl rfl rfl rfl rfl rfl rfl)
theorem Fr.mk_aon_cell {p : Nat} {s x : State} {aon : _} {cell : _} (h : Fr p s x) (hp : 0x300 ||| p = p) :
    Fr p s (State.mk x.pending x.now x.recTime x.free x.objs x.core x.grp x.ph aon cell x.strat x.mode x.src x.col x.recs x.spd x.jrnl x.otp x.meas x.ring x.archive x.thm x.hz x.hour x.parkAcc x.log x.logRetry x.tabs x.env x.chg x.link x.fab x.seqs x.flash x.wd x.srv x.can x.note x.lin x.uds) :=
  Fr.trans h (Fr.intro rfl rfl rfl rfl rfl rfl rfl rfl (Fr.hit hp rfl _ _ _) (Fr.hit hp rfl _ _ _) rfl rfl rfl rfl rfl rfl rfl rfl rfl rfl rfl rfl rfl rfl rfl rfl rfl rfl rfl rfl rfl rfl rfl rfl rfl rfl rfl rfl rfl rfl)
theorem Fr.mk_core_src {p : Nat} {s x : State} {core : _} {src : _} (h : Fr p s x) (hp : 0x1020 ||| p = p) :
    Fr p s (State.mk x.pending x.now x.recTime x.free x.objs core x.grp x.ph x.aon x.cell x.strat x.mode src x.col x.recs x.spd x.jrnl x.otp x.meas x.ring x.archive x.thm x.hz x.hour x.parkAcc x.log x.logRetry x.tabs x.env x.chg x.link x.fab x.seqs x.flash x.wd x.srv x.can x.note x.lin x.uds) :=
  Fr.trans h (Fr.intro rfl rfl rfl rfl rfl (Fr.hit hp rfl _ _ _) rfl rfl rfl rfl rfl rfl (Fr.hit hp rfl _ _ _) rfl rfl rfl rfl rfl rfl rfl rfl rfl rfl rfl rfl rfl rfl rfl rfl rfl rfl rfl rfl rfl rfl rfl rfl rfl rfl rfl)
theorem Fr.mk_col_recs {p : Nat} {s x : State} {col : _} {recs : _} (h : Fr p s x) (hp : 0x6000 ||| p = p) :
    Fr p s (State.mk x.pending x.now x.recTime x.free x.objs x.core x.grp x.ph x.aon x.cell x.strat x.mode x.src col recs x.spd x.jrnl x.otp x.meas x.ring x.archive x.thm x.hz x.hour x.parkAcc x.log x.logRetry x.tabs x.env x.chg x.link x.fab x.seqs x.flash x.wd x.srv x.can x.note x.lin x.uds) :=
  Fr.trans h (Fr.intro rfl rfl rfl rfl rfl rfl rfl rfl rfl rfl rfl rfl rfl (Fr.hit hp rfl _ _ _) (Fr.hit hp rfl _ _ _) rfl rfl rfl rfl rfl rfl rfl rfl rfl rfl rfl rfl rfl rfl rfl rfl rfl rfl rfl rfl rfl rfl rfl rfl rfl)
theorem Fr.mk_mode_meas {p : Nat} {s x : State} {mode : _} {meas : _} (h : Fr p s x) (hp : 0x40800 ||| p = p) :
    Fr p s (State.mk x.pending x.now x.recTime x.free x.objs x.core x.grp x.ph x.aon x.cell x.strat mode x.src x.col x.recs x.spd x.jrnl x.otp meas x.ring x.archive x.thm x.hz x.hour x.parkAcc x.log x.logRetry x.tabs x.env x.chg x.link x.fab x.seqs x.flash x.wd x.srv x.can x.note x.lin x.uds) :=
  Fr.trans h (Fr.intro rfl rfl rfl rfl rfl rfl rfl rfl rfl rfl rfl (Fr.hit hp rfl _ _ _) rfl rfl rfl rfl rfl rfl (Fr.hit hp rfl _ _ _) rfl rfl rfl rfl rfl rfl rfl rfl rfl rfl rfl rfl rfl rfl rfl rfl rfl rfl rfl rfl rfl)
theorem Fr.mk_ring_archive {p : Nat} {s x : State} {ring : _} {archive : _} (h : Fr p s x) (hp : 0x180000 ||| p = p) :
    Fr p s (State.mk x.pending x.now x.recTime x.free x.objs x.core x.grp x.ph x.aon x.cell x.strat x.mode x.src x.col x.recs x.spd x.jrnl x.otp x.meas ring archive x.thm x.hz x.hour x.parkAcc x.log x.logRetry x.tabs x.env x.chg x.link x.fab x.seqs x.flash x.wd x.srv x.can x.note x.lin x.uds) :=
  Fr.trans h (Fr.intro rfl rfl rfl rfl rfl rfl rfl rfl rfl rfl rfl rfl rfl rfl rfl rfl rfl rfl rfl (Fr.hit hp rfl _ _ _) (Fr.hit hp rfl _ _ _) rfl rfl rfl rfl rfl rfl rfl rfl rfl rfl rfl rfl rfl rfl rfl rfl rfl rfl rfl)
theorem Fr.mk_meas_thm {p : Nat} {s x : State} {meas : _} {thm : _} (h : Fr p s x) (hp : 0x240000 ||| p = p) :
    Fr p s (State.mk x.pending x.now x.recTime x.free x.objs x.core x.grp x.ph x.aon x.cell x.strat x.mode x.src x.col x.recs x.spd x.jrnl x.otp meas x.ring x.archive thm x.hz x.hour x.parkAcc x.log x.logRetry x.tabs x.env x.chg x.link x.fab x.seqs x.flash x.wd x.srv x.can x.note x.lin x.uds) :=
  Fr.trans h (Fr.intro rfl rfl rfl rfl rfl rfl rfl rfl rfl rfl rfl rfl rfl rfl rfl rfl rfl rfl (Fr.hit hp rfl _ _ _) rfl rfl (Fr.hit hp rfl _ _ _) rfl rfl rfl rfl rfl rfl rfl rfl rfl rfl rfl rfl rfl rfl rfl rfl rfl rfl)
theorem Fr.mk_thm_hz {p : Nat} {s x : State} {thm : _} {hz : _} (h : Fr p s x) (hp : 0x600000 ||| p = p) :
    Fr p s (State.mk x.pending x.now x.recTime x.free x.objs x.core x.grp x.ph x.aon x.cell x.strat x.mode x.src x.col x.recs x.spd x.jrnl x.otp x.meas x.ring x.archive thm hz x.hour x.parkAcc x.log x.logRetry x.tabs x.env x.chg x.link x.fab x.seqs x.flash x.wd x.srv x.can x.note x.lin x.uds) :=
  Fr.trans h (Fr.intro rfl rfl rfl rfl rfl rfl rfl rfl rfl rfl rfl rfl rfl rfl rfl rfl rfl rfl rfl rfl rfl (Fr.hit hp rfl _ _ _) (Fr.hit hp rfl _ _ _) rfl rfl rfl rfl rfl rfl rfl rfl rfl rfl rfl rfl rfl rfl rfl rfl rfl)
theorem Fr.mk_aon_hour {p : Nat} {s x : State} {aon : _} {hour : _} (h : Fr p s x) (hp : 0x800100 ||| p = p) :
    Fr p s (State.mk x.pending x.now x.recTime x.free x.objs x.core x.grp x.ph aon x.cell x.strat x.mode x.src x.col x.recs x.spd x.jrnl x.otp x.meas x.ring x.archive x.thm x.hz hour x.parkAcc x.log x.logRetry x.tabs x.env x.chg x.link x.fab x.seqs x.flash x.wd x.srv x.can x.note x.lin x.uds) :=
  Fr.trans h (Fr.intro rfl rfl rfl rfl rfl rfl rfl rfl (Fr.hit hp rfl _ _ _) rfl rfl rfl rfl rfl rfl rfl rfl rfl rfl rfl rfl rfl rfl (Fr.hit hp rfl _ _ _) rfl rfl rfl rfl rfl rfl rfl rfl rfl rfl rfl rfl rfl rfl rfl rfl)
theorem Fr.mk_src_hour {p : Nat} {s x : State} {src : _} {hour : _} (h : Fr p s x) (hp : 0x801000 ||| p = p) :
    Fr p s (State.mk x.pending x.now x.recTime x.free x.objs x.core x.grp x.ph x.aon x.cell x.strat x.mode src x.col x.recs x.spd x.jrnl x.otp x.meas x.ring x.archive x.thm x.hz hour x.parkAcc x.log x.logRetry x.tabs x.env x.chg x.link x.fab x.seqs x.flash x.wd x.srv x.can x.note x.lin x.uds) :=
  Fr.trans h (Fr.intro rfl rfl rfl rfl rfl rfl rfl rfl rfl rfl rfl rfl (Fr.hit hp rfl _ _ _) rfl rfl rfl rfl rfl rfl rfl rfl rfl rfl (Fr.hit hp rfl _ _ _) rfl rfl rfl rfl rfl rfl rfl rfl rfl rfl rfl rfl rfl rfl rfl rfl)
theorem Fr.mk_mode_parkAcc {p : Nat} {s x : State} {mode : _} {parkAcc : _} (h : Fr p s x) (hp : 0x1000800 ||| p = p) :
    Fr p s (State.mk x.pending x.now x.recTime x.free x.objs x.core x.grp x.ph x.aon x.cell x.strat mode x.src x.col x.recs x.spd x.jrnl x.otp x.meas x.ring x.archive x.thm x.hz x.hour parkAcc x.log x.logRetry x.tabs x.env x.chg x.link x.fab x.seqs x.flash x.wd x.srv x.can x.note x.lin x.uds) :=
  Fr.trans h (Fr.intro rfl rfl rfl rfl rfl rfl rfl rfl rfl rfl rfl (Fr.hit hp rfl _ _ _) rfl rfl rfl rfl rfl rfl rfl rfl rfl rfl rfl rfl (Fr.hit hp rfl _ _ _) rfl rfl rfl rfl rfl rfl rfl rfl rfl rfl rfl rfl rfl rfl rfl)
theorem Fr.mk_log_logRetry {p : Nat} {s x : State} {log : _} {logRetry : _} (h : Fr p s x) (hp : 0x6000000 ||| p = p) :
    Fr p s (State.mk x.pending x.now x.recTime x.free x.objs x.core x.grp x.ph x.aon x.cell x.strat x.mode x.src x.col x.recs x.spd x.jrnl x.otp x.meas x.ring x.archive x.thm x.hz x.hour x.parkAcc log logRetry x.tabs x.env x.chg x.link x.fab x.seqs x.flash x.wd x.srv x.can x.note x.lin x.uds) :=
  Fr.trans h (Fr.intro rfl rfl rfl rfl rfl rfl rfl rfl rfl rfl rfl rfl rfl rfl rfl rfl rfl rfl rfl rfl rfl rfl rfl rfl rfl (Fr.hit hp rfl _ _ _) (Fr.hit hp rfl _ _ _) rfl rfl rfl rfl rfl rfl rfl rfl rfl rfl rfl rfl rfl)
theorem Fr.mk_mode_tabs {p : Nat} {s x : State} {mode : _} {tabs : _} (h : Fr p s x) (hp : 0x8000800 ||| p = p) :
    Fr p s (State.mk x.pending x.now x.recTime x.free x.objs x.core x.grp x.ph x.aon x.cell x.strat mode x.src x.col x.recs x.spd x.jrnl x.otp x.meas x.ring x.archive x.thm x.hz x.hour x.parkAcc x.log x.logRetry tabs x.env x.chg x.link x.fab x.seqs x.flash x.wd x.srv x.can x.note x.lin x.uds) :=
  Fr.trans h (Fr.intro rfl rfl rfl rfl rfl rfl rfl rfl rfl rfl rfl (Fr.hit hp rfl _ _ _) rfl rfl rfl rfl rfl rfl rfl rfl rfl rfl rfl rfl rfl rfl rfl (Fr.hit hp rfl _ _ _) rfl rfl rfl rfl rfl rfl rfl rfl rfl rfl rfl rfl)
theorem Fr.mk_src_chg {p : Nat} {s x : State} {src : _} {chg : _} (h : Fr p s x) (hp : 0x20001000 ||| p = p) :
    Fr p s (State.mk x.pending x.now x.recTime x.free x.objs x.core x.grp x.ph x.aon x.cell x.strat x.mode src x.col x.recs x.spd x.jrnl x.otp x.meas x.ring x.archive x.thm x.hz x.hour x.parkAcc x.log x.logRetry x.tabs x.env chg x.link x.fab x.seqs x.flash x.wd x.srv x.can x.note x.lin x.uds) :=
  Fr.trans h (Fr.intro rfl rfl rfl rfl rfl rfl rfl rfl rfl rfl rfl rfl (Fr.hit hp rfl _ _ _) rfl rfl rfl rfl rfl rfl rfl rfl rfl rfl rfl rfl rfl rfl rfl rfl (Fr.hit hp rfl _ _ _) rfl rfl rfl rfl rfl rfl rfl rfl rfl rfl)
theorem Fr.mk_hz_chg {p : Nat} {s x : State} {hz : _} {chg : _} (h : Fr p s x) (hp : 0x20400000 ||| p = p) :
    Fr p s (State.mk x.pending x.now x.recTime x.free x.objs x.core x.grp x.ph x.aon x.cell x.strat x.mode x.src x.col x.recs x.spd x.jrnl x.otp x.meas x.ring x.archive x.thm hz x.hour x.parkAcc x.log x.logRetry x.tabs x.env chg x.link x.fab x.seqs x.flash x.wd x.srv x.can x.note x.lin x.uds) :=
  Fr.trans h (Fr.intro rfl rfl rfl rfl rfl rfl rfl rfl rfl rfl rfl rfl rfl rfl rfl rfl rfl rfl rfl rfl rfl rfl (Fr.hit hp rfl _ _ _) rfl rfl rfl rfl rfl rfl (Fr.hit hp rfl _ _ _) rfl rfl rfl rfl rfl rfl rfl rfl rfl rfl)
theorem Fr.mk_recs_seqs {p : Nat} {s x : State} {recs : _} {seqs : _} (h : Fr p s x) (hp : 0x100004000 ||| p = p) :
    Fr p s (State.mk x.pending x.now x.recTime x.free x.objs x.core x.grp x.ph x.aon x.cell x.strat x.mode x.src x.col recs x.spd x.jrnl x.otp x.meas x.ring x.archive x.thm x.hz x.hour x.parkAcc x.log x.logRetry x.tabs x.env x.chg x.link x.fab seqs x.flash x.wd x.srv x.can x.note x.lin x.uds) :=
  Fr.trans h (Fr.intro rfl rfl rfl rfl rfl rfl rfl rfl rfl rfl rfl rfl rfl rfl (Fr.hit hp rfl _ _ _) rfl rfl rfl rfl rfl rfl rfl rfl rfl rfl rfl rfl rfl rfl rfl rfl rfl (Fr.hit hp rfl _ _ _) rfl rfl rfl rfl rfl rfl rfl)
theorem Fr.mk_jrnl_flash {p : Nat} {s x : State} {jrnl : _} {flash : _} (h : Fr p s x) (hp : 0x200010000 ||| p = p) :
    Fr p s (State.mk x.pending x.now x.recTime x.free x.objs x.core x.grp x.ph x.aon x.cell x.strat x.mode x.src x.col x.recs x.spd jrnl x.otp x.meas x.ring x.archive x.thm x.hz x.hour x.parkAcc x.log x.logRetry x.tabs x.env x.chg x.link x.fab x.seqs flash x.wd x.srv x.can x.note x.lin x.uds) :=
  Fr.trans h (Fr.intro rfl rfl rfl rfl rfl rfl rfl rfl rfl rfl rfl rfl rfl rfl rfl rfl (Fr.hit hp rfl _ _ _) rfl rfl rfl rfl rfl rfl rfl rfl rfl rfl rfl rfl rfl rfl rfl rfl (Fr.hit hp rfl _ _ _) rfl rfl rfl rfl rfl rfl)
theorem Fr.mk_archive_flash {p : Nat} {s x : State} {archive : _} {flash : _} (h : Fr p s x) (hp : 0x200100000 ||| p = p) :
    Fr p s (State.mk x.pending x.now x.recTime x.free x.objs x.core x.grp x.ph x.aon x.cell x.strat x.mode x.src x.col x.recs x.spd x.jrnl x.otp x.meas x.ring archive x.thm x.hz x.hour x.parkAcc x.log x.logRetry x.tabs x.env x.chg x.link x.fab x.seqs flash x.wd x.srv x.can x.note x.lin x.uds) :=
  Fr.trans h (Fr.intro rfl rfl rfl rfl rfl rfl rfl rfl rfl rfl rfl rfl rfl rfl rfl rfl rfl rfl rfl rfl (Fr.hit hp rfl _ _ _) rfl rfl rfl rfl rfl rfl rfl rfl rfl rfl rfl rfl (Fr.hit hp rfl _ _ _) rfl rfl rfl rfl rfl rfl)
theorem Fr.mk_tabs_flash {p : Nat} {s x : State} {tabs : _} {flash : _} (h : Fr p s x) (hp : 0x208000000 ||| p = p) :
    Fr p s (State.mk x.pending x.now x.recTime x.free x.objs x.core x.grp x.ph x.aon x.cell x.strat x.mode x.src x.col x.recs x.spd x.jrnl x.otp x.meas x.ring x.archive x.thm x.hz x.hour x.parkAcc x.log x.logRetry tabs x.env x.chg x.link x.fab x.seqs flash x.wd x.srv x.can x.note x.lin x.uds) :=
  Fr.trans h (Fr.intro rfl rfl rfl rfl rfl rfl rfl rfl rfl rfl rfl rfl rfl rfl rfl rfl rfl rfl rfl rfl rfl rfl rfl rfl rfl rfl rfl (Fr.hit hp rfl _ _ _) rfl rfl rfl rfl rfl (Fr.hit hp rfl _ _ _) rfl rfl rfl rfl rfl rfl)
theorem Fr.mk_env_wd {p : Nat} {s x : State} {env : _} {wd : _} (h : Fr p s x) (hp : 0x410000000 ||| p = p) :
    Fr p s (State.mk x.pending x.now x.recTime x.free x.objs x.core x.grp x.ph x.aon x.cell x.strat x.mode x.src x.col x.recs x.spd x.jrnl x.otp x.meas x.ring x.archive x.thm x.hz x.hour x.parkAcc x.log x.logRetry x.tabs env x.chg x.link x.fab x.seqs x.flash wd x.srv x.can x.note x.lin x.uds) :=
  Fr.trans h (Fr.intro rfl rfl rfl rfl rfl rfl rfl rfl rfl rfl rfl rfl rfl rfl rfl rfl rfl rfl rfl rfl rfl rfl rfl rfl rfl rfl rfl rfl (Fr.hit hp rfl _ _ _) rfl rfl rfl rfl rfl (Fr.hit hp rfl _ _ _) rfl rfl rfl rfl rfl)
theorem Fr.mk_col_note {p : Nat} {s x : State} {col : _} {note : _} (h : Fr p s x) (hp : 0x2000002000 ||| p = p) :
    Fr p s (State.mk x.pending x.now x.recTime x.free x.objs x.core x.grp x.ph x.aon x.cell x.strat x.mode x.src col x.recs x.spd x.jrnl x.otp x.meas x.ring x.archive x.thm x.hz x.hour x.parkAcc x.log x.logRetry x.tabs x.env x.chg x.link x.fab x.seqs x.flash x.wd x.srv x.can note x.lin x.uds) :=
  Fr.trans h (Fr.intro rfl rfl rfl rfl rfl rfl rfl rfl rfl rfl rfl rfl rfl (Fr.hit hp rfl _ _ _) rfl rfl rfl rfl rfl rfl rfl rfl rfl rfl rfl rfl rfl rfl rfl rfl rfl rfl rfl rfl rfl rfl rfl (Fr.hit hp rfl _ _ _) rfl rfl)
theorem Fr.mk_mode_lin {p : Nat} {s x : State} {mode : _} {lin : _} (h : Fr p s x) (hp : 0x4000000800 ||| p = p) :
    Fr p s (State.mk x.pending x.now x.recTime x.free x.objs x.core x.grp x.ph x.aon x.cell x.strat mode x.src x.col x.recs x.spd x.jrnl x.otp x.meas x.ring x.archive x.thm x.hz x.hour x.parkAcc x.log x.logRetry x.tabs x.env x.chg x.link x.fab x.seqs x.flash x.wd x.srv x.can x.note lin x.uds) :=
  Fr.trans h (Fr.intro rfl rfl rfl rfl rfl rfl rfl rfl rfl rfl rfl (Fr.hit hp rfl _ _ _) rfl rfl rfl rfl rfl rfl rfl rfl rfl rfl rfl rfl rfl rfl rfl rfl rfl rfl rfl rfl rfl rfl rfl rfl rfl rfl (Fr.hit hp rfl _ _ _) rfl)
theorem Fr.mk_aon_uds {p : Nat} {s x : State} {aon : _} {uds : _} (h : Fr p s x) (hp : 0x8000000100 ||| p = p) :
    Fr p s (State.mk x.pending x.now x.recTime x.free x.objs x.core x.grp x.ph aon x.cell x.strat x.mode x.src x.col x.recs x.spd x.jrnl x.otp x.meas x.ring x.archive x.thm x.hz x.hour x.parkAcc x.log x.logRetry x.tabs x.env x.chg x.link x.fab x.seqs x.flash x.wd x.srv x.can x.note x.lin uds) :=
  Fr.trans h (Fr.intro rfl rfl rfl rfl rfl rfl rfl rfl (Fr.hit hp rfl _ _ _) rfl rfl rfl rfl rfl rfl rfl rfl rfl rfl rfl rfl rfl rfl rfl rfl rfl rfl rfl rfl rfl rfl rfl rfl rfl rfl rfl rfl rfl rfl (Fr.hit hp rfl _ _ _))
theorem Fr.mk_strat_mode_src {p : Nat} {s x : State} {strat : _} {mode : _} {src : _} (h : Fr p s x) (hp : 0x1c00 ||| p = p) :
    Fr p s (State.mk x.pending x.now x.recTime x.free x.objs x.core x.grp x.ph x.aon x.cell strat mode src x.col x.recs x.spd x.jrnl x.otp x.meas x.ring x.archive x.thm x.hz x.hour x.parkAcc x.log x.logRetry x.tabs x.env x.chg x.link x.fab x.seqs x.flash x.wd x.srv x.can x.note x.lin x.uds) :=
  Fr.trans h (Fr.intro rfl rfl rfl rfl rfl rfl rfl rfl rfl rfl (Fr.hit hp rfl _ _ _) (Fr.hit hp rfl _ _ _) (Fr.hit hp rfl _ _ _) rfl rfl rfl rfl rfl rfl rfl rfl rfl rfl rfl rfl rfl rfl rfl rfl rfl rfl rfl rfl rfl rfl rfl rfl rfl rfl rfl)
theorem Fr.mk_aon_strat_col {p : Nat} {s x : State} {aon : _} {strat : _} {col : _} (h : Fr p s x) (hp : 0x2500 ||| p = p) :
    Fr p s (State.mk x.pending x.now x.recTime x.free x.objs x.core x.grp x.ph aon x.cell strat x.mode x.src col x.recs x.spd x.jrnl x.otp x.meas x.ring x.archive x.thm x.hz x.hour x.parkAcc x.log x.logRetry x.tabs x.env x.chg x.link x.fab x.seqs x.flash x.wd x.srv x.can x.note x.lin x.uds) :=
  Fr.trans h (Fr.intro rfl rfl rfl rfl rfl rfl rfl rfl (Fr.hit hp rfl _ _ _) rfl (Fr.hit hp rfl _ _ _) rfl rfl (Fr.hit hp rfl _ _ _) rfl rfl rfl rfl rfl rfl rfl rfl rfl rfl rfl rfl rfl rfl rfl rfl rfl rfl rfl rfl rfl rfl rfl rfl rfl rfl)
theorem Fr.mk_aon_col_recs {p : Nat} {s x : State} {aon : _} {col : _} {recs : _} (h : Fr p s x) (hp : 0x6100 ||| p = p) :
    Fr p s (State.mk x.pending x.now x.recTime x.free x.objs x.core x.grp x.ph aon x.cell x.strat x.mode x.src col recs x.spd x.jrnl x.otp x.meas x.ring x.archive x.thm x.hz x.hour x.parkAcc x.log x.logRetry x.tabs x.env x.chg x.link x.fab x.seqs x.flash x.wd x.srv x.can x.note x.lin x.uds) :=
  Fr.trans h (Fr.intro rfl rfl rfl rfl rfl rfl rfl rfl (Fr.hit hp rfl _ _ _) rfl rfl rfl rfl (Fr.hit hp rfl _ _ _) (Fr.hit hp rfl _ _ _) rfl rfl rfl rfl rfl rfl rfl rfl rfl rfl rfl rfl rfl rfl rfl rfl rfl rfl rfl rfl rfl rfl rfl rfl rfl)
theorem Fr.mk_core_strat_spd {p : Nat} {s x : State} {core : _} {strat : _} {spd : _} (h : Fr p s x) (hp : 0x8420 ||| p = p) :
    Fr p s (State.mk x.pending x.now x.recTime x.free x.objs core x.grp x.ph x.aon x.cell strat x.mode x.src x.col x.recs spd x.jrnl x.otp x.meas x.ring x.archive x.thm x.hz x.hour x.parkAcc x.log x.logRetry x.tabs x.env x.chg x.link x.fab x.seqs x.flash x.wd x.srv x.can x.note x.lin x.uds) :=
  Fr.trans h (Fr.intro rfl rfl rfl rfl rfl (Fr.hit hp rfl _ _ _) rfl rfl rfl rfl (Fr.hit hp rfl _ _ _) rfl rfl rfl rfl (Fr.hit hp rfl _ _ _) rfl rfl rfl rfl rfl rfl rfl rfl rfl rfl rfl rfl rfl rfl rfl rfl rfl rfl rfl rfl rfl rfl rfl rfl)
theorem Fr.mk_hz_hour_parkAcc {p : Nat} {s x : State} {hz : _} {hour : _} {parkAcc : _} (h : Fr p s x) (hp : 0x1c00000 ||| p = p) :
    Fr p s (State.mk x.pending x.now x.recTime x.free x.objs x.core x.grp x.ph x.aon x.cell x.strat x.mode x.src x.col x.recs x.spd x.jrnl x.otp x.meas x.ring x.archive x.thm hz hour parkAcc x.log x.logRetry x.tabs x.env x.chg x.link x.fab x.seqs x.flash x.wd x.srv x.can x.note x.lin x.uds) :=
  Fr.trans h (Fr.intro rfl rfl rfl rfl rfl rfl rfl rfl rfl rfl rfl rfl rfl rfl rfl rfl rfl rfl rfl rfl rfl rfl (Fr.hit hp rfl _ _ _) (Fr.hit hp rfl _ _ _) (Fr.hit hp rfl _ _ _) rfl rfl rfl rfl rfl rfl rfl rfl rfl rfl rfl rfl rfl rfl rfl)
theorem Fr.mk_aon_col_chg {p : Nat} {s x : State} {aon : _} {col : _} {chg : _} (h : Fr p s x) (hp : 0x20002100 ||| p = p) :
    Fr p s (State.mk x.pending x.now x.recTime x.free x.objs x.core x.grp x.ph aon x.cell x.strat x.mode x.src col x.recs x.spd x.jrnl x.otp x.meas x.ring x.archive x.thm x.hz x.hour x.parkAcc x.log x.logRetry x.tabs x.env chg x.link x.fab x.seqs x.flash x.wd x.srv x.can x.note x.lin x.uds) :=
  Fr.trans h (Fr.intro rfl rfl rfl rfl rfl rfl rfl rfl (Fr.hit hp rfl _ _ _) rfl rfl rfl rfl (Fr.hit hp rfl _ _ _) rfl rfl rfl rfl rfl rfl rfl rfl rfl rfl rfl rfl rfl rfl rfl (Fr.hit hp rfl _ _ _) rfl rfl rfl rfl rfl rfl rfl rfl rfl rfl)
theorem Fr.mk_tabs_env_seqs {p : Nat} {s x : State} {tabs : _} {env : _} {seqs : _} (h : Fr p s x) (hp : 0x118000000 ||| p = p) :
    Fr p s (State.mk x.pending x.now x.recTime x.free x.objs x.core x.grp x.ph x.aon x.cell x.strat x.mode x.src x.col x.recs x.spd x.jrnl x.otp x.meas x.ring x.archive x.thm x.hz x.hour x.parkAcc x.log x.logRetry tabs env x.chg x.link x.fab seqs x.flash x.wd x.srv x.can x.note x.lin x.uds) :=
  Fr.trans h (Fr.intro rfl rfl rfl rfl rfl rfl rfl rfl rfl rfl rfl rfl rfl rfl rfl rfl rfl rfl rfl rfl rfl rfl rfl rfl rfl rfl rfl (Fr.hit hp rfl _ _ _) (Fr.hit hp rfl _ _ _) rfl rfl rfl (Fr.hit hp rfl _ _ _) rfl rfl rfl rfl rfl rfl rfl)
theorem Fr.mk_meas_thm_wd {p : Nat} {s x : State} {meas : _} {thm : _} {wd : _} (h : Fr p s x) (hp : 0x400240000 ||| p = p) :
    Fr p s (State.mk x.pending x.now x.recTime x.free x.objs x.core x.grp x.ph x.aon x.cell x.strat x.mode x.src x.col x.recs x.spd x.jrnl x.otp meas x.ring x.archive thm x.hz x.hour x.parkAcc x.log x.logRetry x.tabs x.env x.chg x.link x.fab x.seqs x.flash wd x.srv x.can x.note x.lin x.uds) :=
  Fr.trans h (Fr.intro rfl rfl rfl rfl rfl rfl rfl rfl rfl rfl rfl rfl rfl rfl rfl rfl rfl rfl (Fr.hit hp rfl _ _ _) rfl rfl (Fr.hit hp rfl _ _ _) rfl rfl rfl rfl rfl rfl rfl rfl rfl rfl rfl rfl (Fr.hit hp rfl _ _ _) rfl rfl rfl rfl rfl)
theorem Fr.mk_core_aon_col_ring {p : Nat} {s x : State} {core : _} {aon : _} {col : _} {ring : _} (h : Fr p s x) (hp : 0x82120 ||| p = p) :
    Fr p s (State.mk x.pending x.now x.recTime x.free x.objs core x.grp x.ph aon x.cell x.strat x.mode x.src col x.recs x.spd x.jrnl x.otp x.meas ring x.archive x.thm x.hz x.hour x.parkAcc x.log x.logRetry x.tabs x.env x.chg x.link x.fab x.seqs x.flash x.wd x.srv x.can x.note x.lin x.uds) :=
  Fr.trans h (Fr.intro rfl rfl rfl rfl rfl (Fr.hit hp rfl _ _ _) rfl rfl (Fr.hit hp rfl _ _ _) rfl rfl rfl rfl (Fr.hit hp rfl _ _ _) rfl rfl rfl rfl rfl (Fr.hit hp rfl _ _ _) rfl rfl rfl rfl rfl rfl rfl rfl rfl rfl rfl rfl rfl rfl rfl rfl rfl rfl rfl rfl)
theorem Fr.mk_aon_strat_col_env {p : Nat} {s x : State} {aon : _} {strat : _} {col : _} {env : _} (h : Fr p s x) (hp : 0x10002500 ||| p = p) :
    Fr p s (State.mk x.pending x.now x.recTime x.free x.objs x.core x.grp x.ph aon x.cell strat x.mode x.src col x.recs x.spd x.jrnl x.otp x.meas x.ring x.archive x.thm x.hz x.hour x.parkAcc x.log x.logRetry x.tabs env x.chg x.link x.fab x.seqs x.flash x.wd x.srv x.can x.note x.lin x.uds) :=
  Fr.trans h (Fr.intro rfl rfl rfl rfl rfl rfl rfl rfl (Fr.hit hp rfl _ _ _) rfl (Fr.hit hp rfl _ _ _) rfl rfl (Fr.hit hp rfl _ _ _) rfl rfl rfl rfl rfl rfl rfl rfl rfl rfl rfl rfl rfl rfl (Fr.hit hp rfl _ _ _) rfl rfl rfl rfl rfl rfl rfl rfl rfl rfl rfl)
theorem Fr.mk_archive_log_tabs_flash {p : Nat} {s x : State} {archive : _} {log : _} {tabs : _} {flash : _} (h : Fr p s x) (hp : 0x20a100000 ||| p = p) :
    Fr p s (State.mk x.pending x.now x.recTime x.free x.objs x.core x.grp x.ph x.aon x.cell x.strat x.mode x.src x.col x.recs x.spd x.jrnl x.otp x.meas x.ring archive x.thm x.hz x.hour x.parkAcc log x.logRetry tabs x.env x.chg x.link x.fab x.seqs flash x.wd x.srv x.can x.note x.lin x.uds) :=
  Fr.trans h (Fr.intro rfl rfl rfl rfl rfl rfl rfl rfl rfl rfl rfl rfl rfl rfl rfl rfl rfl rfl rfl rfl (Fr.hit hp rfl _ _ _) rfl rfl rfl rfl (Fr.hit hp rfl _ _ _) rfl (Fr.hit hp rfl _ _ _) rfl rfl rfl rfl rfl (Fr.hit hp rfl _ _ _) rfl rfl rfl rfl rfl rfl)
theorem Fr.mk_hz_hour_chg_uds {p : Nat} {s x : State} {hz : _} {hour : _} {chg : _} {uds : _} (h : Fr p s x) (hp : 0x8020c00000 ||| p = p) :
    Fr p s (State.mk x.pending x.now x.recTime x.free x.objs x.core x.grp x.ph x.aon x.cell x.strat x.mode x.src x.col x.recs x.spd x.jrnl x.otp x.meas x.ring x.archive x.thm hz hour x.parkAcc x.log x.logRetry x.tabs x.env chg x.link x.fab x.seqs x.flash x.wd x.srv x.can x.note x.lin uds) :=
  Fr.trans h (Fr.intro rfl rfl rfl rfl rfl rfl rfl rfl rfl rfl rfl rfl rfl rfl rfl rfl rfl rfl rfl rfl rfl rfl (Fr.hit hp rfl _ _ _) (Fr.hit hp rfl _ _ _) rfl rfl rfl rfl rfl (Fr.hit hp rfl _ _ _) rfl rfl rfl rfl rfl rfl rfl rfl rfl (Fr.hit hp rfl _ _ _))
theorem Fr.mk_aon_strat_otp_ring_hz {p : Nat} {s x : State} {aon : _} {strat : _} {otp : _} {ring : _} {hz : _} (h : Fr p s x) (hp : 0x4a0500 ||| p = p) :
    Fr p s (State.mk x.pending x.now x.recTime x.free x.objs x.core x.grp x.ph aon x.cell strat x.mode x.src x.col x.recs x.spd x.jrnl otp x.meas ring x.archive x.thm hz x.hour x.parkAcc x.log x.logRetry x.tabs x.env x.chg x.link x.fab x.seqs x.flash x.wd x.srv x.can x.note x.lin x.uds) :=
  Fr.trans h (Fr.intro rfl rfl rfl rfl rfl rfl rfl rfl (Fr.hit hp rfl _ _ _) rfl (Fr.hit hp rfl _ _ _) rfl rfl rfl rfl rfl rfl (Fr.hit hp rfl _ _ _) rfl (Fr.hit hp rfl _ _ _) rfl rfl (Fr.hit hp rfl _ _ _) rfl rfl rfl rfl rfl rfl rfl rfl rfl rfl rfl rfl rfl rfl rfl rfl rfl)
theorem Fr.mk_aon_otp_thm_hz_tabs {p : Nat} {s x : State} {aon : _} {otp : _} {thm : _} {hz : _} {tabs : _} (h : Fr p s x) (hp : 0x8620100 ||| p = p) :
    Fr p s (State.mk x.pending x.now x.recTime x.free x.objs x.core x.grp x.ph aon x.cell x.strat x.mode x.src x.col x.recs x.spd x.jrnl otp x.meas x.ring x.archive thm hz x.hour x.parkAcc x.log x.logRetry tabs x.env x.chg x.link x.fab x.seqs x.flash x.wd x.srv x.can x.note x.lin x.uds) :=
  Fr.trans h (Fr.intro rfl rfl rfl rfl rfl rfl rfl rfl (Fr.hit hp rfl _ _ _) rfl rfl rfl rfl rfl rfl rfl rfl (Fr.hit hp rfl _ _ _) rfl rfl rfl (Fr.hit hp rfl _ _ _) (Fr.hit hp rfl _ _ _) rfl rfl rfl rfl (Fr.hit hp rfl _ _ _) rfl rfl rfl rfl rfl rfl rfl rfl rfl rfl rfl rfl)
theorem Fr.mk_core_strat_mode_ring_hz_link {p : Nat} {s x : State} {core : _} {strat : _} {mode : _} {ring : _} {hz : _} {link : _} (h : Fr p s x) (hp : 0x40480c20 ||| p = p) :
    Fr p s (State.mk x.pending x.now x.recTime x.free x.objs core x.grp x.ph x.aon x.cell strat mode x.src x.col x.recs x.spd x.jrnl x.otp x.meas ring x.archive x.thm hz x.hour x.parkAcc x.log x.logRetry x.tabs x.env x.chg link x.fab x.seqs x.flash x.wd x.srv x.can x.note x.lin x.uds) :=
  Fr.trans h (Fr.intro rfl rfl rfl rfl rfl (Fr.hit hp rfl _ _ _) rfl rfl rfl rfl (Fr.hit hp rfl _ _ _) (Fr.hit hp rfl _ _ _) rfl rfl rfl rfl rfl rfl rfl (Fr.hit hp rfl _ _ _) rfl rfl (Fr.hit hp rfl _ _ _) rfl rfl rfl rfl rfl rfl rfl (Fr.hit hp rfl _ _ _) rfl rfl rfl rfl rfl rfl rfl rfl rfl)
theorem Fr.mk_aon_mode_hz_env_seqs_srv {p : Nat} {s x : State} {aon : _} {mode : _} {hz : _} {env : _} {seqs : _} {srv : _} (h : Fr p s x) (hp : 0x910400900 ||| p = p) :
    Fr p s (State.mk x.pending x.now x.recTime x.free x.objs x.core x.grp x.ph aon x.cell x.strat mode x.src x.col x.recs x.spd x.jrnl x.otp x.meas x.ring x.archive x.thm hz x.hour x.parkAcc x.log x.logRetry x.tabs env x.chg x.link x.fab seqs x.flash x.wd srv x.can x.note x.lin x.uds) :=
  Fr.trans h (Fr.intro rfl rfl rfl rfl rfl rfl rfl rfl (Fr.hit hp rfl _ _ _) rfl rfl (Fr.hit hp rfl _ _ _) rfl rfl rfl rfl rfl rfl rfl rfl rfl rfl (Fr.hit hp rfl _ _ _) rfl rfl rfl rfl rfl (Fr.hit hp rfl _ _ _) rfl rfl rfl (Fr.hit hp rfl _ _ _) rfl rfl (Fr.hit hp rfl _ _ _) rfl rfl rfl rfl)
theorem Fr.mk_mode_src_col_meas_ring_thm_hz_tabs_env_chg_fab_seqs_wd_srv_can_note_uds {p : Nat} {s x : State} {mode : _} {src : _} {col : _} {meas : _} {ring : _} {thm : _} {hz : _} {tabs : _} {env : _} {chg : _} {fab : _} {seqs : _} {wd : _} {srv : _} {can : _} {note : _} {uds : _} (h : Fr p s x) (hp : 0xbdb86c3800 ||| p = p) :
    Fr p s (State.mk x.pending x.now x.recTime x.free x.objs x.core x.grp x.ph x.aon x.cell x.strat mode src col x.recs x.spd x.jrnl x.otp meas ring x.archive thm hz x.hour x.parkAcc x.log x.logRetry tabs env chg x.link fab seqs x.flash wd srv can note x.lin uds) :=
  Fr.trans h (Fr.intro rfl rfl rfl rfl rfl rfl rfl rfl rfl rfl rfl (Fr.hit hp rfl _ _ _) (Fr.hit hp rfl _ _ _) (Fr.hit hp rfl _ _ _) rfl rfl rfl rfl (Fr.hit hp rfl _ _ _) (Fr.hit hp rfl _ _ _) rfl (Fr.hit hp rfl _ _ _) (Fr.hit hp rfl _ _ _) rfl rfl rfl rfl (Fr.hit hp rfl _ _ _) (Fr.hit hp rfl _ _ _) (Fr.hit hp rfl _ _ _) rfl (Fr.hit hp rfl _ _ _) (Fr.hit hp rfl _ _ _) rfl (Fr.hit hp rfl _ _ _) (Fr.hit hp rfl _ _ _) (Fr.hit hp rfl _ _ _) (Fr.hit hp rfl _ _ _) rfl (Fr.hit hp rfl _ _ _))

/-! ### The primitives -/

theorem State.set_parts {p : Nat} {s x : State} (k v : Nat) (hp : 16 ||| p = p) (h : Fr p s x) : Fr p s (x.set k v) := Fr.mk_objs h hp
theorem State.resetObjs_parts {p : Nat} {s x : State} (f : Nat → Bool) (hp : 16 ||| p = p) (h : Fr p s x) : Fr p s (x.resetObjs f) :=
  Fr.mk_objs h hp
theorem State.draw_parts {p : Nat} {s x : State} (w : Nat) (hp : 8 ||| p = p) (h : Fr p s x) : Fr p s (x.draw w).2 := Fr.mk_free h hp

end Sys2Proof.Machine
end

