-- ==== Sys2Proof/Laws/PartsOps.lean ====
section
/-!
SUPPORT. PartsOps.lean: the footprint of every operation of Machine/Ops.lean.
-/
set_option linter.unusedTactic false
set_option linter.unreachableTactic false
set_option linter.unusedVariables false
namespace Sys2Proof.Machine

theorem State.journal_parts {p : Nat} {s x : State} (a1 : Nat) (a2 : Nat) (hp : 0x10010 ||| p = p) (h : Fr p s x) : Fr p s (State.journal x a1 a2) := by
  unfold State.journal
  with_reducible
    repeat' first
      | assumption | exact Fr.up (by decide) hp | apply State.set_parts | refine Fr.ite ?_ ?_
      | lift_lets | (intro y; refine Fr.cut p s y ?_ (fun hy => ?_); (on_goal 1 => subst y); (on_goal 2 => clear_value y)) | intro y
      | apply Fr.mk_jrnl

theorem State.put_parts {p : Nat} {s x : State} (a1 : Nat) (a2 : Nat) (hp : 0x10010 ||| p = p) (h : Fr p s x) : Fr p s (State.put x a1 a2) := by
  unfold State.put
  with_reducible
    repeat' first
      | assumption | exact Fr.up (by decide) hp | apply State.journal_parts | apply State.set_parts

theorem State.count_parts {p : Nat} {s x : State} (a1 : Nat) (a2 : Nat) (hp : 0x10010 ||| p = p) (h : Fr p s x) : Fr p s (State.count x a1 a2) := by
  unfold State.count
  with_reducible
    repeat' first
      | assumption | exact Fr.up (by decide) hp | apply State.put_parts

theorem State.tally_parts {p : Nat} {s x : State} (a1 : Nat) (a2 : Nat) (hp : 0x10 ||| p = p) (h : Fr p s x) : Fr p s (State.tally x a1 a2) := by
  unfold State.tally
  with_reducible
    repeat' first
      | assumption | exact Fr.up (by decide) hp | apply State.set_parts

theorem State.setI_parts {p : Nat} {s x : State} (a1 : Nat) (a2 : Nat) (a3 : Int) (hp : 0x10 ||| p = p) (h : Fr p s x) : Fr p s (State.setI x a1 a2 a3) := by
  unfold State.setI
  with_reducible
    repeat' first
      | assumption | exact Fr.up (by decide) hp | apply State.set_parts

theorem State.modG_parts {p : Nat} {s x : State} (a1 : Group) (a2 : GroupSt → GroupSt) (hp : 0x40 ||| p = p) (h : Fr p s x) : Fr p s (State.modG x a1 a2) := by
  unfold State.modG
  with_reducible
    repeat' first
      | assumption | exact Fr.up (by decide) hp | apply Fr.mk_grp

theorem State.allG_parts {p : Nat} {s x : State} (a1 : GroupSt → GroupSt) (hp : 0x40 ||| p = p) (h : Fr p s x) : Fr p s (State.allG x a1) := by
  unfold State.allG
  with_reducible
    repeat' first
      | assumption | exact Fr.up (by decide) hp | apply Fr.mk_grp

theorem State.modP_parts {p : Nat} {s x : State} (a1 : Nat) (a2 : Phase → Phase) (hp : 0x80 ||| p = p) (h : Fr p s x) : Fr p s (State.modP x a1 a2) := by
  unfold State.modP
  with_reducible
    repeat' first
      | assumption | exact Fr.up (by decide) hp | apply Fr.mk_ph

theorem State.modPs_parts {p : Nat} {s x : State} (a1 : List Nat) (a2 : Phase → Phase) (hp : 0x80 ||| p = p) (h : Fr p s x) : Fr p s (State.modPs x a1 a2) := by
  unfold State.modPs
  with_reducible
    repeat' first
      | assumption | exact Fr.up (by decide) hp | apply State.modP_parts
      | refine Fr.foldl _ ?_ (fun y a hy => ?_)

theorem State.stopG_parts {p : Nat} {s x : State} (a1 : Group) (a2 : Nat) (hp : 0xc0 ||| p = p) (h : Fr p s x) : Fr p s (State.stopG x a1 a2) := by
  unfold State.stopG
  with_reducible
    repeat' first
      | assumption | exact Fr.up (by decide) hp | apply State.modPs_parts | apply State.modG_parts

theorem State.freeG_parts {p : Nat} {s x : State} (a1 : Group) (a2 : Nat) (hp : 0x40 ||| p = p) (h : Fr p s x) : Fr p s (State.freeG x a1 a2) := by
  unfold State.freeG
  with_reducible
    repeat' first
      | assumption | exact Fr.up (by decide) hp | apply State.modG_parts | lift_lets
      | (intro y; refine Fr.cut p s y ?_ (fun hy => ?_); (on_goal 1 => subst y); (on_goal 2 => clear_value y)) | intro y

theorem State.send_parts {p : Nat} {s x : State} (a1 : Msg) (hp : 0x2010 ||| p = p) (h : Fr p s x) : Fr p s (State.send x a1) := by
  unfold State.send
  with_reducible
    repeat' first
      | assumption | exact Fr.up (by decide) hp | apply State.tally_parts | refine Fr.ite ?_ ?_
      | lift_lets | (intro y; refine Fr.cut p s y ?_ (fun hy => ?_); (on_goal 1 => subst y); (on_goal 2 => clear_value y)) | intro y
      | apply Fr.mk_col

theorem State.enqueue_parts {p : Nat} {s x : State} (a1 : Msg) (hp : 0x20 ||| p = p) (h : Fr p s x) : Fr p s (State.enqueue x a1) := by
  unfold State.enqueue
  with_reducible
    repeat' first
      | assumption | exact Fr.up (by decide) hp | refine Fr.ite ?_ ?_ | lift_lets
      | (intro y; refine Fr.cut p s y ?_ (fun hy => ?_); (on_goal 1 => subst y); (on_goal 2 => clear_value y)) | intro y
      | apply Fr.mk_core

theorem State.raise_parts {p : Nat} {s x : State} (a1 : Nat) (a2 : Nat) (a3 : Nat) (hp : 0x2010 ||| p = p) (h : Fr p s x) : Fr p s (State.raise x a1 a2 a3) := by
  unfold State.raise
  with_reducible
    repeat' first
      | assumption | exact Fr.up (by decide) hp | apply State.send_parts

theorem State.raiseC_parts {p : Nat} {s x : State} (a1 : Nat) (a2 : Nat) (a3 : Nat) (hp : 0x2010 ||| p = p) (h : Fr p s x) : Fr p s (State.raiseC x a1 a2 a3) := by
  unfold State.raiseC
  with_reducible
    repeat' first
      | assumption | exact Fr.up (by decide) hp | apply State.send_parts | refine Fr.ite ?_ ?_
      | lift_lets | (intro y; refine Fr.cut p s y ?_ (fun hy => ?_); (on_goal 1 => subst y); (on_goal 2 => clear_value y)) | intro y
      | apply Fr.mk_col

theorem State.raise1_parts {p : Nat} {s x : State} (a1 : Nat) (a2 : Nat) (a3 : Nat) (hp : 0x2010 ||| p = p) (h : Fr p s x) : Fr p s (State.raise1 x a1 a2 a3) := by
  unfold State.raise1
  with_reducible
    repeat' first
      | assumption | exact Fr.up (by decide) hp | apply State.raiseC_parts | refine Fr.ite ?_ ?_

theorem State.clearBy_parts {p : Nat} {s x : State} (a1 : Msg → Bool) (hp : 0x2010 ||| p = p) (h : Fr p s x) : Fr p s (State.clearBy x a1) := by
  unfold State.clearBy
  with_reducible
    repeat' first
      | assumption | exact Fr.up (by decide) hp | apply State.send_parts
      | refine Fr.foldl _ ?_ (fun y a hy => ?_) | lift_lets
      | (intro y; refine Fr.cut p s y ?_ (fun hy => ?_); (on_goal 1 => subst y); (on_goal 2 => clear_value y)) | intro y | apply Fr.mk_col

theorem State.clearK_parts {p : Nat} {s x : State} (a1 : Nat) (a2 : Nat) (hp : 0x2010 ||| p = p) (h : Fr p s x) : Fr p s (State.clearK x a1 a2) := by
  unfold State.clearK
  with_reducible
    repeat' first
      | assumption | exact Fr.up (by decide) hp | apply State.clearBy_parts

theorem State.clearI_parts {p : Nat} {s x : State} (a1 : Nat) (a2 : Nat) (a3 : Nat) (hp : 0x2010 ||| p = p) (h : Fr p s x) : Fr p s (State.clearI x a1 a2 a3) := by
  unfold State.clearI
  with_reducible
    repeat' first
      | assumption | exact Fr.up (by decide) hp | apply State.clearBy_parts

theorem State.condition_parts {p : Nat} {s x : State} (a1 : Nat) (a2 : Nat) (a3 : Nat) (a4 : Bool) (hp : 0x2010 ||| p = p) (h : Fr p s x) : Fr p s (State.condition x a1 a2 a3 a4) := by
  unfold State.condition
  with_reducible
    repeat' first
      | assumption | exact Fr.up (by decide) hp | apply State.clearK_parts | apply State.raise1_parts
      | refine Fr.ite ?_ ?_

theorem State.coreSend_parts {p : Nat} {s x : State} (a1 : Msg) (hp : 0x2030 ||| p = p) (h : Fr p s x) : Fr p s (State.coreSend x a1) := by
  unfold State.coreSend
  with_reducible
    repeat' first
      | assumption | exact Fr.up (by decide) hp | apply State.enqueue_parts | apply State.send_parts
      | refine Fr.ite ?_ ?_

theorem State.coreRaise_parts {p : Nat} {s x : State} (a1 : Nat) (a2 : Nat) (a3 : Nat) (hp : 0x2030 ||| p = p) (h : Fr p s x) : Fr p s (State.coreRaise x a1 a2 a3) := by
  unfold State.coreRaise
  with_reducible
    repeat' first
      | assumption | exact Fr.up (by decide) hp | apply State.coreSend_parts

theorem State.coreRaiseC_parts {p : Nat} {s x : State} (a1 : Nat) (a2 : Nat) (a3 : Nat) (hp : 0x2030 ||| p = p) (h : Fr p s x) : Fr p s (State.coreRaiseC x a1 a2 a3) := by
  unfold State.coreRaiseC
  with_reducible
    repeat' first
      | assumption | exact Fr.up (by decide) hp | apply State.coreSend_parts | refine Fr.ite ?_ ?_
      | lift_lets | (intro y; refine Fr.cut p s y ?_ (fun hy => ?_); (on_goal 1 => subst y); (on_goal 2 => clear_value y)) | intro y
      | apply Fr.mk_core

theorem State.coreClearBy_parts {p : Nat} {s x : State} (a1 : Msg → Bool) (hp : 0x2030 ||| p = p) (h : Fr p s x) : Fr p s (State.coreClearBy x a1) := by
  unfold State.coreClearBy
  with_reducible
    repeat' first
      | assumption | exact Fr.up (by decide) hp | apply State.coreSend_parts
      | refine Fr.foldl _ ?_ (fun y a hy => ?_) | lift_lets
      | (intro y; refine Fr.cut p s y ?_ (fun hy => ?_); (on_goal 1 => subst y); (on_goal 2 => clear_value y)) | intro y
      | apply Fr.mk_core

theorem State.coreClearK_parts {p : Nat} {s x : State} (a1 : Nat) (a2 : Nat) (hp : 0x2030 ||| p = p) (h : Fr p s x) : Fr p s (State.coreClearK x a1 a2) := by
  unfold State.coreClearK
  with_reducible
    repeat' first
      | assumption | exact Fr.up (by decide) hp | apply State.coreClearBy_parts

theorem State.coreClearI_parts {p : Nat} {s x : State} (a1 : Nat) (a2 : Nat) (a3 : Nat) (hp : 0x2030 ||| p = p) (h : Fr p s x) : Fr p s (State.coreClearI x a1 a2 a3) := by
  unfold State.coreClearI
  with_reducible
    repeat' first
      | assumption | exact Fr.up (by decide) hp | apply State.coreClearBy_parts

theorem State.again_parts {p : Nat} {s x : State} (a1 : Nat) (a2 : Nat) (hp : 0x6020 ||| p = p) (h : Fr p s x) : Fr p s (State.again x a1 a2) := by
  unfold State.again
  with_reducible
    repeat' first
      | assumption | exact Fr.up (by decide) hp | refine Fr.ite ?_ ?_ | lift_lets
      | (intro y; refine Fr.cut p s y ?_ (fun hy => ?_); (on_goal 1 => subst y); (on_goal 2 => clear_value y)) | intro y | split
      | apply Fr.mk_core | apply Fr.mk_col | apply Fr.mk_recs

end Sys2Proof.Machine
end

