-- ==== Sys2Proof/Laws/PartsWords.lean ====
section
/-!
SUPPORT. PartsWords.lean: the footprint of every operation of Machine/Words.lean.
-/
set_option linter.unusedTactic false
set_option linter.unreachableTactic false
set_option linter.unusedVariables false
namespace Sys2Proof.Machine

theorem State.setChanged_parts {p : Nat} {s x : State} (a1 : Group) (hp : 0x40 ||| p = p) (h : Fr p s x) : Fr p s (State.setChanged x a1) := by
  unfold State.setChanged
  with_reducible
    repeat' first
      | assumption | exact Fr.up (by decide) hp | apply State.modG_parts

theorem State.applyOrder_parts {p : Nat} {s x : State} (a1 : Group) (a2 : Nat) (hp : 0x20f0 ||| p = p) (h : Fr p s x) : Fr p s (State.applyOrder x a1 a2) := by
  unfold State.applyOrder
  with_reducible
    repeat' first
      | assumption | exact Fr.up (by decide) hp | apply State.coreClearBy_parts
      | apply State.modP_parts | apply State.modG_parts | refine Fr.foldl _ ?_ (fun y a hy => ?_) | refine Fr.ite ?_ ?_ | lift_lets
      | (intro y; refine Fr.cut p s y ?_ (fun hy => ?_); (on_goal 1 => subst y); (on_goal 2 => clear_value y)) | intro y
      | apply Fr.mk_core

theorem State.applyFreq_parts {p : Nat} {s x : State} (a1 : Group) (a2 : Nat) (hp : 0x40 ||| p = p) (h : Fr p s x) : Fr p s (State.applyFreq x a1 a2) := by
  unfold State.applyFreq
  with_reducible
    repeat' first
      | assumption | exact Fr.up (by decide) hp | apply State.modG_parts | refine Fr.ite ?_ ?_
      | lift_lets | (intro y; refine Fr.cut p s y ?_ (fun hy => ?_); (on_goal 1 => subst y); (on_goal 2 => clear_value y)) | intro y

theorem State.applyTrim_parts {p : Nat} {s x : State} (a1 : Nat) (a2 : Nat) (hp : 0x80 ||| p = p) (h : Fr p s x) : Fr p s (State.applyTrim x a1 a2) := by
  unfold State.applyTrim
  with_reducible
    repeat' first
      | assumption | exact Fr.up (by decide) hp | apply State.modP_parts | refine Fr.ite ?_ ?_

theorem State.applyWord_parts {p : Nat} {s x : State} (a1 : Group) (a2 : Nat) (a3 : Nat) (hp : 0x20f0 ||| p = p) (h : Fr p s x) : Fr p s (State.applyWord x a1 a2 a3) := by
  unfold State.applyWord
  with_reducible
    repeat' first
      | assumption | exact Fr.up (by decide) hp | apply State.applyTrim_parts
      | apply State.applyFreq_parts | apply State.applyOrder_parts | apply State.modG_parts | refine Fr.ite ?_ ?_

theorem State.keepWord_parts {p : Nat} {s x : State} (a1 : Nat) (a2 : Nat) (hp : 0x20 ||| p = p) (h : Fr p s x) : Fr p s (State.keepWord x a1 a2) := by
  unfold State.keepWord
  with_reducible
    repeat' first
      | assumption | exact Fr.up (by decide) hp | lift_lets
      | (intro y; refine Fr.cut p s y ?_ (fun hy => ?_); (on_goal 1 => subst y); (on_goal 2 => clear_value y)) | intro y
      | apply Fr.mk_core

theorem State.applyAll_parts {p : Nat} {s x : State} (a1 : Group) (hp : 0x20f0 ||| p = p) (h : Fr p s x) : Fr p s (State.applyAll x a1) := by
  unfold State.applyAll
  with_reducible
    repeat' first
      | assumption | exact Fr.up (by decide) hp | apply State.keepWord_parts
      | apply State.applyWord_parts | refine Fr.foldl _ ?_ (fun y a hy => ?_) | refine Fr.ite ?_ ?_ | lift_lets
      | (intro y; refine Fr.cut p s y ?_ (fun hy => ?_); (on_goal 1 => subst y); (on_goal 2 => clear_value y)) | intro y
      | apply Fr.mk_core

theorem State.applyIdle_parts {p : Nat} {s x : State} (a1 : List Group) (hp : 0x20f0 ||| p = p) (h : Fr p s x) : Fr p s (State.applyIdle x a1) := by
  unfold State.applyIdle
  with_reducible
    repeat' first
      | assumption | exact Fr.up (by decide) hp | apply State.applyAll_parts
      | refine Fr.foldl _ ?_ (fun y a hy => ?_)

theorem State.accept_parts {p : Nat} {s x : State} (a1 : Nat) (a2 : Nat) (a3 : Bool) (hp : 0x20f0 ||| p = p) (h : Fr p s x) : Fr p s (State.accept x a1 a2 a3) := by
  unfold State.accept
  with_reducible
    repeat' first
      | assumption | exact Fr.up (by decide) hp | apply State.applyIdle_parts | apply State.freeG_parts
      | refine Fr.ite ?_ ?_ | lift_lets
      | (intro y; refine Fr.cut p s y ?_ (fun hy => ?_); (on_goal 1 => subst y); (on_goal 2 => clear_value y)) | intro y
      | apply Fr.mk_core

theorem State.refuse_parts {p : Nat} {s x : State} (a1 : Nat) (hp : 0x2030 ||| p = p) (h : Fr p s x) : Fr p s (State.refuse x a1) := by
  unfold State.refuse
  with_reducible
    repeat' first
      | assumption | exact Fr.up (by decide) hp | apply State.coreRaise_parts | lift_lets
      | (intro y; refine Fr.cut p s y ?_ (fun hy => ?_); (on_goal 1 => subst y); (on_goal 2 => clear_value y)) | intro y
      | apply Fr.mk_core

theorem State.commitWords_parts {p : Nat} {s x : State} (hp : 0x20f0 ||| p = p) (h : Fr p s x) : Fr p s (State.commitWords x) := by
  unfold State.commitWords
  with_reducible
    repeat' first
      | assumption | exact Fr.up (by decide) hp | apply State.applyIdle_parts | lift_lets
      | (intro y; refine Fr.cut p s y ?_ (fun hy => ?_); (on_goal 1 => subst y); (on_goal 2 => clear_value y)) | intro y
      | apply Fr.mk_core

theorem State.portWord_parts {p : Nat} {s x : State} (a1 : Nat) (a2 : Nat) (a3 : Bool) (hp : 0x20f0 ||| p = p) (h : Fr p s x) : Fr p s (State.portWord x a1 a2 a3) := by
  unfold State.portWord
  with_reducible
    repeat' first
      | assumption | exact Fr.up (by decide) hp | apply State.refuse_parts | apply State.accept_parts
      | refine Fr.ite ?_ ?_

theorem State.portWrite_parts {p : Nat} {s x : State} (a1 : Nat) (a2 : Nat) (hp : 0x20f0 ||| p = p) (h : Fr p s x) : Fr p s (State.portWrite x a1 a2) := by
  unfold State.portWrite
  with_reducible
    repeat' first
      | assumption | exact Fr.up (by decide) hp | apply State.portWord_parts

theorem State.liftGroup_parts {p : Nat} {s x : State} (a1 : Group) (hp : 0x440 ||| p = p) (h : Fr p s x) : Fr p s (State.liftGroup x a1) := by
  unfold State.liftGroup
  with_reducible
    repeat' first
      | assumption | exact Fr.up (by decide) hp | apply State.modG_parts | refine Fr.ite ?_ ?_
      | lift_lets | (intro y; refine Fr.cut p s y ?_ (fun hy => ?_); (on_goal 1 => subst y); (on_goal 2 => clear_value y)) | intro y
      | apply Fr.mk_strat

theorem State.handoverWord_parts {p : Nat} {s x : State} (hp : 0x24f0 ||| p = p) (h : Fr p s x) : Fr p s (State.handoverWord x) := by
  unfold State.handoverWord
  with_reducible
    repeat' first
      | assumption | exact Fr.up (by decide) hp | apply State.liftGroup_parts
      | apply State.commitWords_parts | apply State.allG_parts | refine Fr.foldl _ ?_ (fun y a hy => ?_) | lift_lets
      | (intro y; refine Fr.cut p s y ?_ (fun hy => ?_); (on_goal 1 => subst y); (on_goal 2 => clear_value y)) | intro y

theorem State.discOff_parts {p : Nat} {s x : State} (hp : 0xe0 ||| p = p) (h : Fr p s x) : Fr p s (State.discOff x) := by
  unfold State.discOff
  with_reducible
    repeat' first
      | assumption | exact Fr.up (by decide) hp | apply State.stopG_parts
      | refine Fr.foldl _ ?_ (fun y a hy => ?_) | refine Fr.ite ?_ ?_ | refine Fr.ite_snd ?_ ?_ | refine Fr.ite_trd ?_ ?_
      | refine fun y hy => ?_ | lift_lets
      | (intro y; refine Fr.cut p s y ?_ (fun hy => ?_); (on_goal 1 => subst y); (on_goal 2 => clear_value y)) | intro y | split
      | (refine Fr.snd_of ?_ (by assumption)) | (refine Fr.trd_of ?_ (by assumption)) | apply Fr.mk_core

theorem State.discOn_parts {p : Nat} {s x : State} (a1 : Nat) (a2 : Nat) (hp : 0xe0 ||| p = p) (h : Fr p s x) : Fr p s (State.discOn x a1 a2) := by
  unfold State.discOn
  with_reducible
    repeat' first
      | assumption | exact Fr.up (by decide) hp | apply State.freeG_parts | apply State.stopG_parts
      | refine Fr.foldl _ ?_ (fun y a hy => ?_) | refine Fr.ite ?_ ?_ | refine Fr.ite_snd ?_ ?_ | refine Fr.ite_trd ?_ ?_
      | refine fun y hy => ?_ | lift_lets
      | (intro y; refine Fr.cut p s y ?_ (fun hy => ?_); (on_goal 1 => subst y); (on_goal 2 => clear_value y)) | intro y | split
      | (refine Fr.snd_of ?_ (by assumption)) | (refine Fr.trd_of ?_ (by assumption)) | apply Fr.mk_core

theorem State.discDone_parts {p : Nat} {s x : State} (hp : 0x40 ||| p = p) (h : Fr p s x) : Fr p s (State.discDone x) := by
  unfold State.discDone
  with_reducible
    repeat' first
      | assumption | exact Fr.up (by decide) hp | apply State.freeG_parts | refine Fr.ite ?_ ?_

theorem State.gateOpen_parts {p : Nat} {s x : State} (hp : 0xe0 ||| p = p) (h : Fr p s x) : Fr p s (State.gateOpen x) := by
  unfold State.gateOpen
  with_reducible
    repeat' first
      | assumption | exact Fr.up (by decide) hp | apply State.discOff_parts | refine Fr.ite ?_ ?_
      | lift_lets | (intro y; refine Fr.cut p s y ?_ (fun hy => ?_); (on_goal 1 => subst y); (on_goal 2 => clear_value y)) | intro y
      | apply Fr.mk_core

theorem State.gateBack_parts {p : Nat} {s x : State} (a1 : Nat) (a2 : Nat) (hp : 0xe0 ||| p = p) (h : Fr p s x) : Fr p s (State.gateBack x a1 a2) := by
  unfold State.gateBack
  with_reducible
    repeat' first
      | assumption | exact Fr.up (by decide) hp | apply State.discDone_parts | apply State.discOn_parts
      | refine Fr.ite ?_ ?_

end Sys2Proof.Machine
end

