-- ==== Sys2Proof/Laws/PartsRecorder.lean ====
section
/-!
SUPPORT. PartsRecorder.lean: the footprint of every operation of Machine/Recorder.lean.
-/
set_option linter.unusedTactic false
set_option linter.unreachableTactic false
set_option linter.unusedVariables false
namespace Sys2Proof.Machine

theorem State.evLost_parts {p : Nat} {s x : State} (hp : 0x80000 ||| p = p) (h : Fr p s x) : Fr p s (State.evLost x) := by
  unfold State.evLost
  with_reducible
    repeat' first
      | assumption | exact Fr.up (by decide) hp | lift_lets
      | (intro y; refine Fr.cut p s y ?_ (fun hy => ?_); (on_goal 1 => subst y); (on_goal 2 => clear_value y)) | intro y | split
      | apply Fr.mk_ring

theorem State.ev_parts {p : Nat} {s x : State} (a1 : Nat) (a2 : Nat) (a3 : Nat) (hp : 0x80000 ||| p = p) (h : Fr p s x) : Fr p s (State.ev x a1 a2 a3) := by
  unfold State.ev
  with_reducible
    repeat' first
      | assumption | exact Fr.up (by decide) hp | apply State.evLost_parts | refine Fr.ite ?_ ?_
      | lift_lets | (intro y; refine Fr.cut p s y ?_ (fun hy => ?_); (on_goal 1 => subst y); (on_goal 2 => clear_value y)) | intro y
      | split | apply Fr.mk_ring

theorem State.mark_parts {p : Nat} {s x : State} (a1 : Nat) (a2 : Stamp) (hp : 0x80000 ||| p = p) (h : Fr p s x) : Fr p s (State.mark x a1 a2) := by
  unfold State.mark
  with_reducible
    repeat' first
      | assumption | exact Fr.up (by decide) hp | lift_lets
      | (intro y; refine Fr.cut p s y ?_ (fun hy => ?_); (on_goal 1 => subst y); (on_goal 2 => clear_value y)) | intro y
      | apply Fr.mk_ring

theorem State.logDiff_parts {p : Nat} {s x : State} (a : State) (hp : 0x80000 ||| p = p) (h : Fr p s x) : Fr p s (State.logDiff a x) := by
  unfold State.logDiff
  with_reducible
    repeat' first
    | assumption | exact Fr.up (by decide) hp | apply State.mark_parts | apply State.ev_parts | refine Fr.foldl _ ?_ (fun y a hy => ?_) | refine Fr.ite ?_ ?_ | lift_lets
    | (intro y; refine Fr.cut p s y ?_ (fun hy => ?_); (on_goal 1 => subst y); (on_goal 2 => clear_value y)) | intro y

theorem State.logged_parts {p : Nat} {s x : State} (f : State → State) (hf : ∀ y, Fr p s y → Fr p s (f y)) (hp : 0x80000 ||| p = p) (h : Fr p s x) :
    Fr p s (x.logged f) :=
  State.logDiff_parts x hp (hf x h)

end Sys2Proof.Machine
end

