-- ==== Sys2Proof/Laws/PartsGroups.lean ====
section
/-!
SUPPORT. PartsGroups.lean: the footprint of every operation of Machine/Groups.lean.
-/
set_option linter.unusedTactic false
set_option linter.unreachableTactic false
set_option linter.unusedVariables false
namespace Sys2Proof.Machine

theorem State.dropHeld_parts {p : Nat} {s x : State} (hp : 0x20 ||| p = p) (h : Fr p s x) : Fr p s (State.dropHeld x) := by
  unfold State.dropHeld
  with_reducible
    repeat' first
      | assumption | exact Fr.up (by decide) hp | lift_lets
      | (intro y; refine Fr.cut p s y ?_ (fun hy => ?_); (on_goal 1 => subst y); (on_goal 2 => clear_value y)) | intro y
      | apply Fr.mk_core

theorem State.stratusEntry_parts {p : Nat} {s x : State} (a1 : Group) (hp : 0x460 ||| p = p) (h : Fr p s x) : Fr p s (State.stratusEntry x a1) := by
  unfold State.stratusEntry
  with_reducible
    repeat' first
      | assumption | exact Fr.up (by decide) hp | apply State.dropHeld_parts | apply State.modG_parts
      | refine Fr.ite ?_ ?_ | lift_lets
      | (intro y; refine Fr.cut p s y ?_ (fun hy => ?_); (on_goal 1 => subst y); (on_goal 2 => clear_value y)) | intro y
      | apply Fr.mk_strat

theorem State.liftAt_parts {p : Nat} {s x : State} (a1 : Group) (hp : 0x440 ||| p = p) (h : Fr p s x) : Fr p s (State.liftAt x a1) := by
  unfold State.liftAt
  with_reducible
    repeat' first
      | assumption | exact Fr.up (by decide) hp | apply State.liftGroup_parts | refine Fr.ite ?_ ?_

theorem State.foldUpdate_parts {p : Nat} {s x : State} (a1 : Group) (a2 : Nat) (hp : 0x40 ||| p = p) (h : Fr p s x) : Fr p s (State.foldUpdate x a1 a2) := by
  unfold State.foldUpdate
  with_reducible
    repeat' first
      | assumption | exact Fr.up (by decide) hp | apply State.modG_parts | refine Fr.ite ?_ ?_
      | lift_lets | (intro y; refine Fr.cut p s y ?_ (fun hy => ?_); (on_goal 1 => subst y); (on_goal 2 => clear_value y)) | intro y

theorem State.probeAbandon_parts {p : Nat} {s x : State} (hp : 0x400010 ||| p = p) (h : Fr p s x) : Fr p s (State.probeAbandon x) := by
  unfold State.probeAbandon
  with_reducible
    repeat' first
      | assumption | exact Fr.up (by decide) hp | apply State.set_parts | refine Fr.ite ?_ ?_
      | lift_lets | (intro y; refine Fr.cut p s y ?_ (fun hy => ?_); (on_goal 1 => subst y); (on_goal 2 => clear_value y)) | intro y
      | apply Fr.mk_hz

theorem State.railDisturbed_parts {p : Nat} {s x : State} (hp : 0x400010 ||| p = p) (h : Fr p s x) : Fr p s (State.railDisturbed x) := by
  unfold State.railDisturbed
  with_reducible
    repeat' first
      | assumption | exact Fr.up (by decide) hp | apply State.probeAbandon_parts | lift_lets
      | (intro y; refine Fr.cut p s y ?_ (fun hy => ?_); (on_goal 1 => subst y); (on_goal 2 => clear_value y)) | intro y | apply Fr.mk_hz

theorem State.slewRef_parts {p : Nat} {s x : State} (a1 : Group) (hp : 0x40 ||| p = p) (h : Fr p s x) : Fr p s (State.slewRef x a1) := by
  unfold State.slewRef
  with_reducible
    repeat' first
      | assumption | exact Fr.up (by decide) hp | apply State.modG_parts | refine Fr.ite ?_ ?_
      | lift_lets | (intro y; refine Fr.cut p s y ?_ (fun hy => ?_); (on_goal 1 => subst y); (on_goal 2 => clear_value y)) | intro y

theorem State.slowPower_parts {p : Nat} {s x : State} (a1 : Int) (hp : 0x20 ||| p = p) (h : Fr p s x) : Fr p s (State.slowPower x a1) := by
  unfold State.slowPower
  with_reducible
    repeat' first
      | assumption | exact Fr.up (by decide) hp | lift_lets
      | (intro y; refine Fr.cut p s y ?_ (fun hy => ?_); (on_goal 1 => subst y); (on_goal 2 => clear_value y)) | intro y | split
      | apply Fr.mk_core

theorem State.direction_parts {p : Nat} {s x : State} (a1 : Group) (a2 : Bool) (hp : 0xc0 ||| p = p) (h : Fr p s x) : Fr p s (State.direction x a1 a2) := by
  unfold State.direction
  with_reducible
    repeat' first
      | assumption | exact Fr.up (by decide) hp | apply State.modPs_parts | apply State.modG_parts
      | refine Fr.ite ?_ ?_ | lift_lets
      | (intro y; refine Fr.cut p s y ?_ (fun hy => ?_); (on_goal 1 => subst y); (on_goal 2 => clear_value y)) | intro y

theorem State.addedComplete_parts {p : Nat} {s x : State} (a1 : Group) (hp : 0x80 ||| p = p) (h : Fr p s x) : Fr p s (State.addedComplete x a1) := by
  unfold State.addedComplete
  with_reducible
    repeat' first
      | assumption | exact Fr.up (by decide) hp | apply State.modPs_parts

theorem State.loadStep_parts {p : Nat} {s x : State} (a1 : Group) (hp : 0x800c0 ||| p = p) (h : Fr p s x) : Fr p s (State.loadStep x a1) := by
  unfold State.loadStep
  with_reducible
    repeat' first
      | assumption | exact Fr.up (by decide) hp | apply State.ev_parts | apply State.modPs_parts
      | apply State.modG_parts | lift_lets
      | (intro y; refine Fr.cut p s y ?_ (fun hy => ?_); (on_goal 1 => subst y); (on_goal 2 => clear_value y)) | intro y

theorem State.rampStep_parts {p : Nat} {s x : State} (a1 : List Nat) (hp : 0x80 ||| p = p) (h : Fr p s x) : Fr p s (State.rampStep x a1) := by
  unfold State.rampStep
  with_reducible
    repeat' first
      | assumption | exact Fr.up (by decide) hp | apply State.modPs_parts | refine Fr.ite ?_ ?_

theorem State.orderDemote_parts {p : Nat} {s x : State} (a1 : Group) (hp : 0xc0 ||| p = p) (h : Fr p s x) : Fr p s (State.orderDemote x a1) := by
  unfold State.orderDemote
  with_reducible
    repeat' first
      | assumption | exact Fr.up (by decide) hp | apply State.modPs_parts | apply State.modG_parts
      | refine Fr.ite ?_ ?_ | lift_lets
      | (intro y; refine Fr.cut p s y ?_ (fun hy => ?_); (on_goal 1 => subst y); (on_goal 2 => clear_value y)) | intro y

theorem State.addDecision_parts {p : Nat} {s x : State} (a1 : Group) (hp : 0x80 ||| p = p) (h : Fr p s x) : Fr p s (State.addDecision x a1) := by
  unfold State.addDecision
  with_reducible
    repeat' first
      | assumption | exact Fr.up (by decide) hp | apply State.modPs_parts | lift_lets
      | (intro y; refine Fr.cut p s y ?_ (fun hy => ?_); (on_goal 1 => subst y); (on_goal 2 => clear_value y)) | intro y

theorem State.shortfall_parts {p : Nat} {s x : State} (a1 : Group) (hp : 0x2070 ||| p = p) (h : Fr p s x) : Fr p s (State.shortfall x a1) := by
  unfold State.shortfall
  with_reducible
    repeat' first
      | assumption | exact Fr.up (by decide) hp | apply State.coreRaiseC_parts
      | apply State.coreRaise_parts | apply State.modG_parts | refine Fr.ite ?_ ?_ | lift_lets
      | (intro y; refine Fr.cut p s y ?_ (fun hy => ?_); (on_goal 1 => subst y); (on_goal 2 => clear_value y)) | intro y

theorem State.shedCountStep_parts {p : Nat} {s x : State} (a1 : Group) (hp : 0x40 ||| p = p) (h : Fr p s x) : Fr p s (State.shedCountStep x a1) := by
  unfold State.shedCountStep
  with_reducible
    repeat' first
      | assumption | exact Fr.up (by decide) hp | apply State.modG_parts | refine Fr.ite ?_ ?_
      | lift_lets | (intro y; refine Fr.cut p s y ?_ (fun hy => ?_); (on_goal 1 => subst y); (on_goal 2 => clear_value y)) | intro y

theorem State.trackStep_parts {p : Nat} {s x : State} (a1 : Group) (a2 : Nat) (a3 : Nat) (hp : 0x40 ||| p = p) (h : Fr p s x) : Fr p s (State.trackStep x a1 a2 a3) := by
  unfold State.trackStep
  with_reducible
    repeat' first
      | assumption | exact Fr.up (by decide) hp | apply State.modG_parts | refine Fr.ite ?_ ?_
      | lift_lets | (intro y; refine Fr.cut p s y ?_ (fun hy => ?_); (on_goal 1 => subst y); (on_goal 2 => clear_value y)) | intro y

theorem State.backStep_parts {p : Nat} {s x : State} (a1 : Group) (hp : 0x40 ||| p = p) (h : Fr p s x) : Fr p s (State.backStep x a1) := by
  unfold State.backStep
  with_reducible
    repeat' first
      | assumption | exact Fr.up (by decide) hp | apply State.modG_parts | refine Fr.ite ?_ ?_
      | lift_lets | (intro y; refine Fr.cut p s y ?_ (fun hy => ?_); (on_goal 1 => subst y); (on_goal 2 => clear_value y)) | intro y

theorem State.spreadStep_parts {p : Nat} {s x : State} (a1 : Group) (hp : 0x40 ||| p = p) (h : Fr p s x) : Fr p s (State.spreadStep x a1) := by
  unfold State.spreadStep
  with_reducible
    repeat' first
      | assumption | exact Fr.up (by decide) hp | apply State.modG_parts | refine Fr.ite ?_ ?_
      | lift_lets | (intro y; refine Fr.cut p s y ?_ (fun hy => ?_); (on_goal 1 => subst y); (on_goal 2 => clear_value y)) | intro y

theorem State.freqStep_parts {p : Nat} {s x : State} (a1 : Group) (a2 : Nat) (a3 : Nat) (hp : 0x40 ||| p = p) (h : Fr p s x) : Fr p s (State.freqStep x a1 a2 a3) := by
  unfold State.freqStep
  with_reducible
    repeat' first
      | assumption | exact Fr.up (by decide) hp | apply State.spreadStep_parts
      | apply State.backStep_parts | apply State.trackStep_parts | apply State.modG_parts | refine Fr.ite ?_ ?_ | lift_lets
      | (intro y; refine Fr.cut p s y ?_ (fun hy => ?_); (on_goal 1 => subst y); (on_goal 2 => clear_value y)) | intro y | split

theorem State.passHold_parts {p : Nat} {s x : State} (hp : 0x80 ||| p = p) (h : Fr p s x) : Fr p s (State.passHold x) := by
  unfold State.passHold
  with_reducible
    repeat' first
      | assumption | exact Fr.up (by decide) hp | apply State.modPs_parts | refine Fr.ite ?_ ?_
      | lift_lets | (intro y; refine Fr.cut p s y ?_ (fun hy => ?_); (on_goal 1 => subst y); (on_goal 2 => clear_value y)) | intro y

theorem State.passStep_parts {p : Nat} {s x : State} (a1 : Nat) (a2 : Nat) (hp : 0x40 ||| p = p) (h : Fr p s x) : Fr p s (State.passStep x a1 a2) := by
  unfold State.passStep
  with_reducible
    repeat' first
      | assumption | exact Fr.up (by decide) hp | apply State.modG_parts | refine Fr.ite ?_ ?_
      | lift_lets | (intro y; refine Fr.cut p s y ?_ (fun hy => ?_); (on_goal 1 => subst y); (on_goal 2 => clear_value y)) | intro y

theorem State.startStep_parts {p : Nat} {s x : State} (a1 : Group) (a2 : Nat) (a3 : Nat) (hp : 0x40 ||| p = p) (h : Fr p s x) : Fr p s (State.startStep x a1 a2 a3) := by
  unfold State.startStep
  with_reducible
    repeat' first
      | assumption | exact Fr.up (by decide) hp | apply State.modG_parts | refine Fr.ite ?_ ?_
      | lift_lets | (intro y; refine Fr.cut p s y ?_ (fun hy => ?_); (on_goal 1 => subst y); (on_goal 2 => clear_value y)) | intro y
      | split

theorem State.decisions_parts {p : Nat} {s x : State} (a1 : Group) (a2 : Int) (a3 : List Nat) (hp : 0x4820f0 ||| p = p) (h : Fr p s x) : Fr p s (State.decisions x a1 a2 a3) := by
  unfold State.decisions
  with_reducible
    repeat' first
      | assumption | exact Fr.up (by decide) hp | apply State.shedCountStep_parts
      | apply State.shortfall_parts | apply State.addDecision_parts | apply State.orderDemote_parts | apply State.rampStep_parts
      | apply State.loadStep_parts | apply State.railDisturbed_parts | refine Fr.ite ?_ ?_ | lift_lets
      | (intro y; refine Fr.cut p s y ?_ (fun hy => ?_); (on_goal 1 => subst y); (on_goal 2 => clear_value y)) | intro y

theorem State.headroomStep_parts {p : Nat} {s x : State} (a1 : Group) (a2 : Nat) (a3 : Nat) (hp : 0xe0 ||| p = p) (h : Fr p s x) : Fr p s (State.headroomStep x a1 a2 a3) := by
  unfold State.headroomStep
  with_reducible
    repeat' first
      | assumption | exact Fr.up (by decide) hp | apply State.gateBack_parts | apply State.freeG_parts
      | refine Fr.ite ?_ ?_

theorem State.command_parts {p : Nat} {s x : State} (a1 : Group) (a2 : Int) (a3 : Nat) (hp : 0x60 ||| p = p) (h : Fr p s x) : Fr p s (State.command x a1 a2 a3) := by
  unfold State.command
  with_reducible
    repeat' first
      | assumption | exact Fr.up (by decide) hp | apply State.slowPower_parts | apply State.modG_parts
      | lift_lets | (intro y; refine Fr.cut p s y ?_ (fun hy => ?_); (on_goal 1 => subst y); (on_goal 2 => clear_value y)) | intro y

theorem State.peakEnd_parts {p : Nat} {s x : State} (a1 : Group) (hp : 0x20b0 ||| p = p) (h : Fr p s x) : Fr p s (State.peakEnd x a1) := by
  unfold State.peakEnd
  with_reducible
    repeat' first
      | assumption | exact Fr.up (by decide) hp | apply State.coreClearI_parts
      | apply State.modPs_parts | refine Fr.foldl _ ?_ (fun y a hy => ?_) | lift_lets
      | (intro y; refine Fr.cut p s y ?_ (fun hy => ?_); (on_goal 1 => subst y); (on_goal 2 => clear_value y)) | intro y

theorem State.swapZ_parts {p : Nat} {s x : State} (a1 : Group) (hp : 0xc0 ||| p = p) (h : Fr p s x) : Fr p s (State.swapZ x a1) := by
  unfold State.swapZ
  with_reducible
    repeat' first
      | assumption | exact Fr.up (by decide) hp | apply State.stopG_parts | refine Fr.ite ?_ ?_ | split

theorem State.boundary_parts {p : Nat} {s x : State} (a1 : Group) (a2 : Sample) (hp : 0x4824f0 ||| p = p) (h : Fr p s x) : Fr p s (State.boundary x a1 a2) := by
  unfold State.boundary
  with_reducible
    repeat' first
      | assumption | exact Fr.up (by decide) hp | apply State.swapZ_parts | apply State.peakEnd_parts
      | apply State.command_parts | apply State.headroomStep_parts | apply State.decisions_parts | apply State.startStep_parts
      | apply State.passStep_parts | apply State.passHold_parts | apply State.freqStep_parts | apply State.orderDemote_parts
      | apply State.rampStep_parts | apply State.addedComplete_parts | apply State.direction_parts | apply State.slewRef_parts
      | apply State.railDisturbed_parts | apply State.probeAbandon_parts | apply State.foldUpdate_parts | apply State.liftAt_parts
      | apply State.stratusEntry_parts | apply State.applyAll_parts | apply State.setChanged_parts | apply State.modG_parts
      | refine Fr.ite ?_ ?_ | lift_lets
      | (intro y; refine Fr.cut p s y ?_ (fun hy => ?_); (on_goal 1 => subst y); (on_goal 2 => clear_value y)) | intro y

theorem execSwitchingCycleBoundary_parts {s t : State} (a0 : Group) (a1 : Sample) (h : execSwitchingCycleBoundary a0 a1 s = .next t) : Fr 0x4824f0 s t := by
  unfold execSwitchingCycleBoundary at h
  cases h
  have h := Fr.refl 0x4824f0 s
  have hp : 0x4824f0 ||| 0x4824f0 = 0x4824f0 := rfl
  with_reducible
    repeat' first
      | assumption | exact Fr.up (by decide) hp | apply State.boundary_parts | apply State.logged_parts
      | refine fun y hy => ?_

theorem State.shed_parts {p : Nat} {s x : State} (a1 : Group) (hp : 0xc0 ||| p = p) (h : Fr p s x) : Fr p s (State.shed x a1) := by
  unfold State.shed
  with_reducible
    repeat' first
      | assumption | exact Fr.up (by decide) hp | apply State.modP_parts | apply State.modG_parts
      | split

theorem execShedDecision_parts {s t : State} (a0 : Group) (h : execShedDecision a0 s = .next t) : Fr 0x800c0 s t := by
  unfold execShedDecision at h
  cases h
  have h := Fr.refl 0x800c0 s
  have hp : 0x800c0 ||| 0x800c0 = 0x800c0 := rfl
  with_reducible
    repeat' first
      | assumption | exact Fr.up (by decide) hp | apply State.shed_parts | apply State.logged_parts
      | refine Fr.ite ?_ ?_ | refine fun y hy => ?_

theorem execShedBlockEnd_parts {s t : State} (a0 : Group) (h : execShedBlockEnd a0 s = .next t) : Fr 0x40 s t := by
  unfold execShedBlockEnd at h
  cases h
  have h := Fr.refl 0x40 s
  have hp : 0x40 ||| 0x40 = 0x40 := rfl
  with_reducible
    repeat' first
      | assumption | exact Fr.up (by decide) hp | apply State.modG_parts | refine Fr.ite ?_ ?_

theorem State.balance_parts {p : Nat} {s x : State} (a1 : Group) (a2 : List Int) (hp : 0xc0 ||| p = p) (h : Fr p s x) : Fr p s (State.balance x a1 a2) := by
  unfold State.balance
  with_reducible
    repeat' first
      | assumption | exact Fr.up (by decide) hp | apply State.modP_parts | apply State.modG_parts
      | refine Fr.foldl _ ?_ (fun y a hy => ?_) | refine Fr.ite ?_ ?_ | lift_lets
      | (intro y; refine Fr.cut p s y ?_ (fun hy => ?_); (on_goal 1 => subst y); (on_goal 2 => clear_value y)) | intro y

theorem execFoldback_parts {s t : State} (a0 : Group) (h : execFoldback a0 s = .next t) : Fr 0x2030 s t := by
  unfold execFoldback at h
  cases h
  have h := Fr.refl 0x2030 s
  have hp : 0x2030 ||| 0x2030 = 0x2030 := rfl
  with_reducible
    repeat' first
      | assumption | exact Fr.up (by decide) hp | apply State.coreRaise_parts | refine Fr.ite ?_ ?_

theorem State.foldStop_parts {p : Nat} {s x : State} (a1 : Group) (hp : 0x20f0 ||| p = p) (h : Fr p s x) : Fr p s (State.foldStop x a1) := by
  unfold State.foldStop
  with_reducible
    repeat' first
      | assumption | exact Fr.up (by decide) hp | apply State.coreRaiseC_parts
      | apply State.coreRaise_parts | apply State.stopG_parts | apply State.modG_parts | refine Fr.ite ?_ ?_ | lift_lets
      | (intro y; refine Fr.cut p s y ?_ (fun hy => ?_); (on_goal 1 => subst y); (on_goal 2 => clear_value y)) | intro y

theorem execFoldStop_parts {s t : State} (a0 : Group) (h : execFoldStop a0 s = .next t) : Fr 0x820f0 s t := by
  unfold execFoldStop at h
  cases h
  have h := Fr.refl 0x820f0 s
  have hp : 0x820f0 ||| 0x820f0 = 0x820f0 := rfl
  with_reducible
    repeat' first
      | assumption | exact Fr.up (by decide) hp | apply State.foldStop_parts | apply State.logged_parts
      | refine Fr.ite ?_ ?_ | refine fun y hy => ?_

theorem State.foldRestart_parts {p : Nat} {s x : State} (a1 : Group) (hp : 0x40 ||| p = p) (h : Fr p s x) : Fr p s (State.foldRestart x a1) := by
  unfold State.foldRestart
  with_reducible
    repeat' first
      | assumption | exact Fr.up (by decide) hp | apply State.freeG_parts | apply State.modG_parts

theorem execFoldRestart_parts {s t : State} (a0 : Group) (h : execFoldRestart a0 s = .next t) : Fr 0x80040 s t := by
  unfold execFoldRestart at h
  cases h
  have h := Fr.refl 0x80040 s
  have hp : 0x80040 ||| 0x80040 = 0x80040 := rfl
  with_reducible
    repeat' first
      | assumption | exact Fr.up (by decide) hp | apply State.foldRestart_parts
      | apply State.logged_parts | refine Fr.ite ?_ ?_ | refine fun y hy => ?_

theorem execSoftStartEnd_parts {s t : State} (a0 : Group) (h : execSoftStartEnd a0 s = .next t) : Fr 0x40 s t := by
  unfold execSoftStartEnd at h
  cases h
  have h := Fr.refl 0x40 s
  have hp : 0x40 ||| 0x40 = 0x40 := rfl
  with_reducible
    repeat' first
      | assumption | exact Fr.up (by decide) hp | apply State.modG_parts | refine Fr.ite ?_ ?_

theorem execBalAtClamp_parts {s t : State} (a0 : Fin 16) (h : execBalAtClamp a0 s = .next t) : Fr 0x2030 s t := by
  unfold execBalAtClamp at h
  cases h
  have h := Fr.refl 0x2030 s
  have hp : 0x2030 ||| 0x2030 = 0x2030 := rfl
  with_reducible
    repeat' first
      | assumption | exact Fr.up (by decide) hp | apply State.coreRaise_parts | refine Fr.ite ?_ ?_
      | lift_lets | (intro y; refine Fr.cut _ s y ?_ (fun hy => ?_); (on_goal 1 => subst y); (on_goal 2 => clear_value y)) | intro y

theorem State.zeroMeasured_parts {p : Nat} {s x : State} (a1 : Nat) (a2 : Nat) (hp : 0x20f0 ||| p = p) (h : Fr p s x) : Fr p s (State.zeroMeasured x a1 a2) := by
  unfold State.zeroMeasured
  with_reducible
    repeat' first
      | assumption | exact Fr.up (by decide) hp | apply State.setChanged_parts
      | apply State.coreClearI_parts | apply State.coreRaiseC_parts | apply State.modP_parts | refine Fr.ite ?_ ?_ | lift_lets
      | (intro y; refine Fr.cut p s y ?_ (fun hy => ?_); (on_goal 1 => subst y); (on_goal 2 => clear_value y)) | intro y

theorem State.writeGroup_parts {p : Nat} {s x : State} (a1 : Group) (a2 : Bool) (hp : 0x20f0 ||| p = p) (h : Fr p s x) : Fr p s (State.writeGroup x a1 a2) := by
  unfold State.writeGroup
  with_reducible
    repeat' first
      | assumption | exact Fr.up (by decide) hp | apply State.portWord_parts
      | refine Fr.foldl _ ?_ (fun y a hy => ?_) | lift_lets
      | (intro y; refine Fr.cut p s y ?_ (fun hy => ?_); (on_goal 1 => subst y); (on_goal 2 => clear_value y)) | intro y

theorem State.applyGroup_parts {p : Nat} {s x : State} (a1 : Group) (hp : 0x4020f0 ||| p = p) (h : Fr p s x) : Fr p s (State.applyGroup x a1) := by
  unfold State.applyGroup
  with_reducible
    repeat' first
      | assumption | exact Fr.up (by decide) hp | apply State.writeGroup_parts
      | apply State.foldRestart_parts | apply State.commitWords_parts | apply State.coreClearK_parts | apply State.modG_parts
      | refine Fr.ite ?_ ?_ | lift_lets
      | (intro y; refine Fr.cut p s y ?_ (fun hy => ?_); (on_goal 1 => subst y); (on_goal 2 => clear_value y)) | intro y | apply Fr.mk_hz

theorem State.groupApply_parts {p : Nat} {s x : State} (a1 : Nat) (hp : 0x4020f0 ||| p = p) (h : Fr p s x) : Fr p s (State.groupApply x a1).2 := by
  unfold State.groupApply
  with_reducible
    repeat' first
      | assumption | exact Fr.up (by decide) hp | apply State.applyGroup_parts | refine Fr.ite ?_ ?_
      | refine Fr.ite_snd ?_ ?_ | refine Fr.ite_trd ?_ ?_ | split | (refine Fr.snd_of ?_ (by assumption))
      | (refine Fr.trd_of ?_ (by assumption))

theorem execSyncLocked_parts {s t : State} (a0 : Group) (h : execSyncLocked a0 s = .next t) : Fr 0x80040 s t := by
  unfold execSyncLocked at h
  cases h
  have h := Fr.refl 0x80040 s
  have hp : 0x80040 ||| 0x80040 = 0x80040 := rfl
  with_reducible
    repeat' first
      | assumption | exact Fr.up (by decide) hp | apply State.logged_parts | apply State.modG_parts
      | refine Fr.ite ?_ ?_ | refine fun y hy => ?_

theorem execSyncRange_parts {s t : State} (a0 : Group) (h : execSyncRange a0 s = .next t) : Fr 0x2030 s t := by
  unfold execSyncRange at h
  cases h
  have h := Fr.refl 0x2030 s
  have hp : 0x2030 ||| 0x2030 = 0x2030 := rfl
  with_reducible
    repeat' first
      | assumption | exact Fr.up (by decide) hp | apply State.coreRaise_parts | refine Fr.ite ?_ ?_

theorem State.syncLose_parts {p : Nat} {s x : State} (a1 : Group) (hp : 0x2070 ||| p = p) (h : Fr p s x) : Fr p s (State.syncLose x a1) := by
  unfold State.syncLose
  with_reducible
    repeat' first
      | assumption | exact Fr.up (by decide) hp | apply State.coreRaise_parts | apply State.modG_parts
      | refine Fr.ite ?_ ?_

theorem execSyncLost_parts {s t : State} (a0 : Group) (h : execSyncLost a0 s = .next t) : Fr 0x82070 s t := by
  unfold execSyncLost at h
  cases h
  have h := Fr.refl 0x82070 s
  have hp : 0x82070 ||| 0x82070 = 0x82070 := rfl
  with_reducible
    repeat' first
      | assumption | exact Fr.up (by decide) hp | apply State.syncLose_parts | apply State.logged_parts
      | refine fun y hy => ?_

theorem State.planCheck_parts {p : Nat} {s x : State} (a1 : Group) (hp : 0x20f0 ||| p = p) (h : Fr p s x) : Fr p s (State.planCheck x a1) := by
  unfold State.planCheck
  with_reducible
    repeat' first
      | assumption | exact Fr.up (by decide) hp | apply State.portWrite_parts | apply State.raise_parts
      | apply State.modG_parts | refine Fr.ite ?_ ?_ | lift_lets
      | (intro y; refine Fr.cut p s y ?_ (fun hy => ?_); (on_goal 1 => subst y); (on_goal 2 => clear_value y)) | intro y

theorem execFreqPlanCheck_parts {s t : State} (h : execFreqPlanCheck s = .next t) : Fr 0x820f0 s t := by
  unfold execFreqPlanCheck at h
  cases h
  have h := Fr.refl 0x820f0 s
  have hp : 0x820f0 ||| 0x820f0 = 0x820f0 := rfl
  with_reducible
    repeat' first
      | assumption | exact Fr.up (by decide) hp | apply State.planCheck_parts
      | apply State.logged_parts | refine Fr.foldl _ ?_ (fun y a hy => ?_) | refine Fr.ite ?_ ?_ | refine fun y hy => ?_

end Sys2Proof.Machine
end

