-- ==== Sys2Proof/Laws/PartsSourceOps.lean ====
section
/-!
SUPPORT. PartsSourceOps.lean: the footprint of every operation of Machine/SourceOps.lean.
-/
set_option linter.unusedTactic false
set_option linter.unreachableTactic false
set_option linter.unusedVariables false
namespace Sys2Proof.Machine

theorem State.srcState_parts {p : Nat} {s x : State} (a1 : Nat) (hp : 0x400010 ||| p = p) (h : Fr p s x) : Fr p s (State.srcState x a1) := by
  unfold State.srcState
  with_reducible
    repeat' first
      | assumption | exact Fr.up (by decide) hp | apply State.probeAbandon_parts
      | apply State.set_parts | refine Fr.ite ?_ ?_

theorem State.rowLatches_parts {p : Nat} {s x : State} (a1 : Nat) (a2 : Nat) (hp : 0x20f0 ||| p = p) (h : Fr p s x) : Fr p s (State.rowLatches x a1 a2) := by
  unfold State.rowLatches
  with_reducible
    repeat' first
      | assumption | exact Fr.up (by decide) hp | apply State.portWord_parts | lift_lets
      | (intro y; refine Fr.cut p s y ?_ (fun hy => ?_); (on_goal 1 => subst y); (on_goal 2 => clear_value y)) | intro y

theorem State.portIfNew_parts {p : Nat} {s x : State} (a1 : Nat) (a2 : Nat) (hp : 0x20f0 ||| p = p) (h : Fr p s x) : Fr p s (State.portIfNew x a1 a2) := by
  unfold State.portIfNew
  with_reducible
    repeat' first
      | assumption | exact Fr.up (by decide) hp | apply State.portWrite_parts | refine Fr.ite ?_ ?_
      | lift_lets | (intro y; refine Fr.cut p s y ?_ (fun hy => ?_); (on_goal 1 => subst y); (on_goal 2 => clear_value y)) | intro y

theorem State.writeLimits_parts {p : Nat} {s x : State} (hp : 0x20f0 ||| p = p) (h : Fr p s x) : Fr p s (State.writeLimits x) := by
  unfold State.writeLimits
  with_reducible
    repeat' first
      | assumption | exact Fr.up (by decide) hp | apply State.portIfNew_parts

end Sys2Proof.Machine
end

