-- ==== Sys2Proof/Laws/PartsMeasureOps.lean ====
section
/-!
SUPPORT. PartsMeasureOps.lean: the footprint of every operation of Machine/MeasureOps.lean.
-/
set_option linter.unusedTactic false
set_option linter.unreachableTactic false
set_option linter.unusedVariables false
namespace Sys2Proof.Machine

theorem State.noResults_parts {p : Nat} {s x : State} (hp : 0x10 ||| p = p) (h : Fr p s x) : Fr p s (State.noResults x) := by
  unfold State.noResults
  with_reducible
    repeat' first
      | assumption | exact Fr.up (by decide) hp | apply State.set_parts
      | refine Fr.foldl _ ?_ (fun y a hy => ?_)

theorem State.measStop_parts {p : Nat} {s x : State} (hp : 0x40010 ||| p = p) (h : Fr p s x) : Fr p s (State.measStop x) := by
  unfold State.measStop
  with_reducible
    repeat' first
      | assumption | exact Fr.up (by decide) hp | apply State.noResults_parts | apply State.set_parts
      | lift_lets | (intro y; refine Fr.cut p s y ?_ (fun hy => ?_); (on_goal 1 => subst y); (on_goal 2 => clear_value y)) | intro y
      | apply Fr.mk_meas

end Sys2Proof.Machine
end

