-- ==== Sys2Proof/Laws/PartsThermalOps.lean ====
section
/-!
SUPPORT. PartsThermalOps.lean: the footprint of every operation of Machine/ThermalOps.lean.
-/
set_option linter.unusedTactic false
set_option linter.unreachableTactic false
set_option linter.unusedVariables false
namespace Sys2Proof.Machine

theorem State.tdStep_parts {p : Nat} {s x : State} (a1 : Nat) (hp : 0x202010 ||| p = p) (h : Fr p s x) : Fr p s (State.tdStep x a1) := by
  unfold State.tdStep
  with_reducible
    repeat' first
      | assumption | exact Fr.up (by decide) hp | apply State.clearI_parts | apply State.raiseC_parts
      | apply State.set_parts | refine Fr.ite ?_ ?_ | lift_lets
      | (intro y; refine Fr.cut p s y ?_ (fun hy => ?_); (on_goal 1 => subst y); (on_goal 2 => clear_value y)) | intro y | split
      | apply Fr.mk_thm

theorem State.tempMax_parts {p : Nat} {s x : State} (hp : 0x202010 ||| p = p) (h : Fr p s x) : Fr p s (State.tempMax x) := by
  unfold State.tempMax
  with_reducible
    repeat' first
      | assumption | exact Fr.up (by decide) hp | apply State.raise_parts | apply State.set_parts
      | refine Fr.foldl _ ?_ (fun y a hy => ?_) | refine Fr.ite ?_ ?_ | lift_lets
      | (intro y; refine Fr.cut p s y ?_ (fun hy => ?_); (on_goal 1 => subst y); (on_goal 2 => clear_value y)) | intro y | split
      | apply Fr.mk_thm

theorem State.bandIntervals_parts {p : Nat} {s x : State} (a1 : Nat) (hp : 0x200000 ||| p = p) (h : Fr p s x) : Fr p s (State.bandIntervals x a1) := by
  unfold State.bandIntervals
  with_reducible
    repeat' first
      | assumption | exact Fr.up (by decide) hp | lift_lets
      | (intro y; refine Fr.cut p s y ?_ (fun hy => ?_); (on_goal 1 => subst y); (on_goal 2 => clear_value y)) | intro y | apply Fr.mk_thm

theorem State.writeEdges_parts {p : Nat} {s x : State} (hp : 0x20f0 ||| p = p) (h : Fr p s x) : Fr p s (State.writeEdges x) := by
  unfold State.writeEdges
  with_reducible
    repeat' first
      | assumption | exact Fr.up (by decide) hp | apply State.portIfNew_parts
      | refine Fr.foldl _ ?_ (fun y a hy => ?_)

theorem State.sntcStep_parts {p : Nat} {s x : State} (a1 : Nat) (hp : 0x202010 ||| p = p) (h : Fr p s x) : Fr p s (State.sntcStep x a1) := by
  unfold State.sntcStep
  with_reducible
    repeat' first
      | assumption | exact Fr.up (by decide) hp | apply State.raise_parts | apply State.set_parts
      | refine Fr.ite ?_ ?_ | lift_lets
      | (intro y; refine Fr.cut p s y ?_ (fun hy => ?_); (on_goal 1 => subst y); (on_goal 2 => clear_value y)) | intro y | apply Fr.mk_thm

theorem State.groupThermal_parts {p : Nat} {s x : State} (a1 : Group) (hp : 0x2020f0 ||| p = p) (h : Fr p s x) : Fr p s (State.groupThermal x a1) := by
  unfold State.groupThermal
  with_reducible
    repeat' first
      | assumption | exact Fr.up (by decide) hp | apply State.portIfNew_parts | apply State.raise_parts
      | apply State.set_parts | refine Fr.ite ?_ ?_ | lift_lets
      | (intro y; refine Fr.cut p s y ?_ (fun hy => ?_); (on_goal 1 => subst y); (on_goal 2 => clear_value y)) | intro y | split
      | apply Fr.mk_thm

theorem State.chargeThermal_parts {p : Nat} {s x : State} (hp : 0x200000 ||| p = p) (h : Fr p s x) : Fr p s (State.chargeThermal x) := by
  unfold State.chargeThermal
  with_reducible
    repeat' first
      | assumption | exact Fr.up (by decide) hp | lift_lets
      | (intro y; refine Fr.cut p s y ?_ (fun hy => ?_); (on_goal 1 => subst y); (on_goal 2 => clear_value y)) | intro y | split
      | apply Fr.mk_thm

theorem State.shellClock_parts {p : Nat} {s x : State} (hp : 0x2010 ||| p = p) (h : Fr p s x) : Fr p s (State.shellClock x) := by
  unfold State.shellClock
  with_reducible
    repeat' first
      | assumption | exact Fr.up (by decide) hp | apply State.raise_parts | apply State.set_parts
      | refine Fr.ite ?_ ?_ | lift_lets
      | (intro y; refine Fr.cut p s y ?_ (fun hy => ?_); (on_goal 1 => subst y); (on_goal 2 => clear_value y)) | intro y

theorem State.bandUpdate_parts {p : Nat} {s x : State} (hp : 0x6020f0 ||| p = p) (h : Fr p s x) : Fr p s (State.bandUpdate x).2 := by
  unfold State.bandUpdate
  with_reducible
    repeat' first
      | assumption | exact Fr.up (by decide) hp | apply State.writeEdges_parts
      | apply State.bandIntervals_parts | apply State.probeAbandon_parts | apply State.set_parts | refine Fr.ite ?_ ?_
      | refine Fr.ite_snd ?_ ?_ | refine Fr.ite_trd ?_ ?_ | lift_lets
      | (intro y; refine Fr.cut p s y ?_ (fun hy => ?_); (on_goal 1 => subst y); (on_goal 2 => clear_value y)) | intro y | split
      | (refine Fr.snd_of ?_ (by assumption)) | (refine Fr.trd_of ?_ (by assumption))

theorem State.thermalEval_parts {p : Nat} {s x : State} (hp : 0x6020f0 ||| p = p) (h : Fr p s x) : Fr p s (State.thermalEval x).2 := by
  unfold State.thermalEval
  with_reducible
    repeat' first
      | assumption | exact Fr.up (by decide) hp | apply State.bandUpdate_parts
      | apply State.shellClock_parts | apply State.chargeThermal_parts | apply State.groupThermal_parts | apply State.sntcStep_parts
      | apply State.tempMax_parts | apply State.tdStep_parts | apply State.writeLimits_parts | refine Fr.foldl _ ?_ (fun y a hy => ?_)
      | refine Fr.ite ?_ ?_ | refine Fr.ite_snd ?_ ?_ | refine Fr.ite_trd ?_ ?_ | lift_lets
      | (intro y; refine Fr.cut p s y ?_ (fun hy => ?_); (on_goal 1 => subst y); (on_goal 2 => clear_value y)) | intro y | split
      | (refine Fr.snd_of ?_ (by assumption)) | (refine Fr.trd_of ?_ (by assumption)) | apply Fr.mk_thm

end Sys2Proof.Machine
end

