-- ==== Sys2Proof/Laws/PartsHorizonOps.lean ====
section
/-!
SUPPORT. PartsHorizonOps.lean: the footprint of every operation of Machine/HorizonOps.lean.
-/
set_option linter.unusedTactic false
set_option linter.unreachableTactic false
set_option linter.unusedVariables false
namespace Sys2Proof.Machine

theorem State.hzTake_parts {p : Nat} {s x : State} (a1 : Nat) (a2 : Nat) (hp : 0x400000 ||| p = p) (h : Fr p s x) : Fr p s (State.hzTake x a1 a2) := by
  unfold State.hzTake
  with_reducible
    repeat' first
      | assumption | exact Fr.up (by decide) hp | refine Fr.ite ?_ ?_ | lift_lets
      | (intro y; refine Fr.cut p s y ?_ (fun hy => ?_); (on_goal 1 => subst y); (on_goal 2 => clear_value y)) | intro y | apply Fr.mk_hz

theorem State.hzClear_parts {p : Nat} {s x : State} (a1 : List Nat) (hp : 0x400000 ||| p = p) (h : Fr p s x) : Fr p s (State.hzClear x a1) := by
  unfold State.hzClear
  with_reducible
    repeat' first
      | assumption | exact Fr.up (by decide) hp | lift_lets
      | (intro y; refine Fr.cut p s y ?_ (fun hy => ?_); (on_goal 1 => subst y); (on_goal 2 => clear_value y)) | intro y | apply Fr.mk_hz

theorem State.hzTrim_parts {p : Nat} {s x : State} (a1 : Group) (hp : 0x400000 ||| p = p) (h : Fr p s x) : Fr p s (State.hzTrim x a1) := by
  unfold State.hzTrim
  with_reducible
    repeat' first
      | assumption | exact Fr.up (by decide) hp | refine Fr.foldl _ ?_ (fun y a hy => ?_)
      | refine Fr.ite ?_ ?_ | lift_lets
      | (intro y; refine Fr.cut p s y ?_ (fun hy => ?_); (on_goal 1 => subst y); (on_goal 2 => clear_value y)) | intro y | apply Fr.mk_hz

theorem State.hzPath_parts {p : Nat} {s x : State} (a1 : Nat) (a2 : Nat) (hp : 0x400000 ||| p = p) (h : Fr p s x) : Fr p s (State.hzPath x a1 a2) := by
  unfold State.hzPath
  with_reducible
    repeat' first
      | assumption | exact Fr.up (by decide) hp | refine Fr.ite ?_ ?_ | lift_lets
      | (intro y; refine Fr.cut p s y ?_ (fun hy => ?_); (on_goal 1 => subst y); (on_goal 2 => clear_value y)) | intro y | apply Fr.mk_hz

theorem State.hzPackStep_parts {p : Nat} {s x : State} (a1 : Int) (a2 : Int) (a3 : Int) (a4 : Int) (hp : 0x410010 ||| p = p) (h : Fr p s x) : Fr p s (State.hzPackStep x a1 a2 a3 a4) := by
  unfold State.hzPackStep
  with_reducible
    repeat' first
      | assumption | exact Fr.up (by decide) hp | apply State.put_parts | refine Fr.ite ?_ ?_
      | lift_lets | (intro y; refine Fr.cut p s y ?_ (fun hy => ?_); (on_goal 1 => subst y); (on_goal 2 => clear_value y)) | intro y
      | split | apply Fr.mk_hz

theorem State.hzHeat_parts {p : Nat} {s x : State} (a1 : Nat) (a2 : Int) (a3 : Int) (a4 : Int) (hp : 0x400000 ||| p = p) (h : Fr p s x) : Fr p s (State.hzHeat x a1 a2 a3 a4) := by
  unfold State.hzHeat
  with_reducible
    repeat' first
      | assumption | exact Fr.up (by decide) hp | refine Fr.ite ?_ ?_ | lift_lets
      | (intro y; refine Fr.cut p s y ?_ (fun hy => ?_); (on_goal 1 => subst y); (on_goal 2 => clear_value y)) | intro y | apply Fr.mk_hz

theorem State.hzRef_parts {p : Nat} {s x : State} (hp : 0x400000 ||| p = p) (h : Fr p s x) : Fr p s (State.hzRef x) := by
  unfold State.hzRef
  with_reducible
    repeat' first
      | assumption | exact Fr.up (by decide) hp | refine Fr.ite ?_ ?_ | lift_lets
      | (intro y; refine Fr.cut p s y ?_ (fun hy => ?_); (on_goal 1 => subst y); (on_goal 2 => clear_value y)) | intro y | split
      | apply Fr.mk_hz

theorem State.hzSpeed_parts {p : Nat} {s x : State} (a1 : Nat) (hp : 0x400000 ||| p = p) (h : Fr p s x) : Fr p s (State.hzSpeed x a1) := by
  unfold State.hzSpeed
  with_reducible
    repeat' first
      | assumption | exact Fr.up (by decide) hp | refine Fr.ite ?_ ?_ | lift_lets
      | (intro y; refine Fr.cut p s y ?_ (fun hy => ?_); (on_goal 1 => subst y); (on_goal 2 => clear_value y)) | intro y | split
      | apply Fr.mk_hz

theorem State.hzLeak_parts {p : Nat} {s x : State} (a1 : Port) (a2 : Nat) (hp : 0x400000 ||| p = p) (h : Fr p s x) : Fr p s (State.hzLeak x a1 a2) := by
  unfold State.hzLeak
  with_reducible
    repeat' first
      | assumption | exact Fr.up (by decide) hp | refine Fr.ite ?_ ?_ | lift_lets
      | (intro y; refine Fr.cut p s y ?_ (fun hy => ?_); (on_goal 1 => subst y); (on_goal 2 => clear_value y)) | intro y | apply Fr.mk_hz

theorem State.closeTrim_parts {p : Nat} {s x : State} (a1 : Nat) (hp : 0x400000 ||| p = p) (h : Fr p s x) : Fr p s (State.closeTrim x a1) := by
  unfold State.closeTrim
  with_reducible
    repeat' first
      | assumption | exact Fr.up (by decide) hp | apply State.hzTake_parts | refine Fr.ite ?_ ?_
      | lift_lets | (intro y; refine Fr.cut p s y ?_ (fun hy => ?_); (on_goal 1 => subst y); (on_goal 2 => clear_value y)) | intro y

theorem State.closePath_parts {p : Nat} {s x : State} (a1 : Nat) (hp : 0x400000 ||| p = p) (h : Fr p s x) : Fr p s (State.closePath x a1) := by
  unfold State.closePath
  with_reducible
    repeat' first
      | assumption | exact Fr.up (by decide) hp | apply State.hzTake_parts | refine Fr.ite ?_ ?_
      | lift_lets | (intro y; refine Fr.cut p s y ?_ (fun hy => ?_); (on_goal 1 => subst y); (on_goal 2 => clear_value y)) | intro y
      | split

theorem State.closeHeat_parts {p : Nat} {s x : State} (a1 : Nat) (hp : 0x400000 ||| p = p) (h : Fr p s x) : Fr p s (State.closeHeat x a1) := by
  unfold State.closeHeat
  with_reducible
    repeat' first
      | assumption | exact Fr.up (by decide) hp | apply State.hzTake_parts
      | refine Fr.foldl _ ?_ (fun y a hy => ?_) | refine Fr.ite ?_ ?_ | lift_lets
      | (intro y; refine Fr.cut p s y ?_ (fun hy => ?_); (on_goal 1 => subst y); (on_goal 2 => clear_value y)) | intro y

theorem State.closeSpeed_parts {p : Nat} {s x : State} (hp : 0x400000 ||| p = p) (h : Fr p s x) : Fr p s (State.closeSpeed x) := by
  unfold State.closeSpeed
  with_reducible
    repeat' first
      | assumption | exact Fr.up (by decide) hp | apply State.hzTake_parts | refine Fr.ite ?_ ?_
      | lift_lets | (intro y; refine Fr.cut p s y ?_ (fun hy => ?_); (on_goal 1 => subst y); (on_goal 2 => clear_value y)) | intro y
      | apply Fr.mk_hz

theorem State.closePack_parts {p : Nat} {s x : State} (hp : 0x400000 ||| p = p) (h : Fr p s x) : Fr p s (State.closePack x) := by
  unfold State.closePack
  with_reducible
    repeat' first
      | assumption | exact Fr.up (by decide) hp | apply State.hzTake_parts | split

theorem State.closeRdc_parts {p : Nat} {s x : State} (hp : 0x400000 ||| p = p) (h : Fr p s x) : Fr p s (State.closeRdc x) := by
  unfold State.closeRdc
  with_reducible
    repeat' first
      | assumption | exact Fr.up (by decide) hp | apply State.hzTake_parts | refine Fr.ite ?_ ?_

theorem State.closeRef_parts {p : Nat} {s x : State} (hp : 0x400000 ||| p = p) (h : Fr p s x) : Fr p s (State.closeRef x) := by
  unfold State.closeRef
  with_reducible
    repeat' first
      | assumption | exact Fr.up (by decide) hp | apply State.hzTake_parts | refine Fr.ite ?_ ?_

theorem State.closeLeak_parts {p : Nat} {s x : State} (a1 : Port) (hp : 0x400000 ||| p = p) (h : Fr p s x) : Fr p s (State.closeLeak x a1) := by
  unfold State.closeLeak
  with_reducible
    repeat' first
      | assumption | exact Fr.up (by decide) hp | apply State.hzTake_parts | refine Fr.ite ?_ ?_
      | split

theorem State.closeRound_parts {p : Nat} {s x : State} (hp : 0x600000 ||| p = p) (h : Fr p s x) : Fr p s (State.closeRound x) := by
  unfold State.closeRound
  with_reducible
    repeat' first
      | assumption | exact Fr.up (by decide) hp | apply State.closeLeak_parts
      | apply State.closeRef_parts | apply State.closeRdc_parts | apply State.closePack_parts | apply State.closeSpeed_parts
      | apply State.closeHeat_parts | apply State.closePath_parts | apply State.closeTrim_parts | refine Fr.foldl _ ?_ (fun y a hy => ?_)
      | lift_lets | (intro y; refine Fr.cut p s y ?_ (fun hy => ?_); (on_goal 1 => subst y); (on_goal 2 => clear_value y)) | intro y
      | apply Fr.mk_thm_hz

theorem State.flowWatch_parts {p : Nat} {s x : State} (hp : 0x400000 ||| p = p) (h : Fr p s x) : Fr p s (State.flowWatch x) := by
  unfold State.flowWatch
  with_reducible
    repeat' first
      | assumption | exact Fr.up (by decide) hp | refine Fr.ite ?_ ?_ | lift_lets
      | (intro y; refine Fr.cut p s y ?_ (fun hy => ?_); (on_goal 1 => subst y); (on_goal 2 => clear_value y)) | intro y | apply Fr.mk_hz

theorem State.hzReport_parts {p : Nat} {s x : State} (a1 : Nat) (hp : 0x402010 ||| p = p) (h : Fr p s x) : Fr p s (State.hzReport x a1) := by
  unfold State.hzReport
  with_reducible
    repeat' first
      | assumption | exact Fr.up (by decide) hp | apply State.raise_parts | refine Fr.ite ?_ ?_
      | lift_lets | (intro y; refine Fr.cut p s y ?_ (fun hy => ?_); (on_goal 1 => subst y); (on_goal 2 => clear_value y)) | intro y
      | apply Fr.mk_hz

theorem State.logWrite_parts {p : Nat} {s x : State} (a1 : Nat) (a2 : Nat) (a3 : List Byte) (hp : 0x6012010 ||| p = p) (h : Fr p s x) : Fr p s (State.logWrite x a1 a2 a3) := by
  unfold State.logWrite
  with_reducible
    repeat' first
      | assumption | exact Fr.up (by decide) hp | apply State.raise_parts | apply State.put_parts
      | refine Fr.ite ?_ ?_ | lift_lets
      | (intro y; refine Fr.cut p s y ?_ (fun hy => ?_); (on_goal 1 => subst y); (on_goal 2 => clear_value y)) | intro y
      | apply Fr.mk_logRetry | apply Fr.mk_log_logRetry

theorem State.hourRecord_parts {p : Nat} {s x : State} (a1 : Bool) (hp : 0x6812010 ||| p = p) (h : Fr p s x) : Fr p s (State.hourRecord x a1) := by
  unfold State.hourRecord
  with_reducible
    repeat' first
      | assumption | exact Fr.up (by decide) hp | apply State.logWrite_parts | lift_lets
      | (intro y; refine Fr.cut p s y ?_ (fun hy => ?_); (on_goal 1 => subst y); (on_goal 2 => clear_value y)) | intro y
      | apply Fr.mk_hour

theorem State.epochRecord_parts {p : Nat} {s x : State} (a1 : Nat) (hp : 0x6412010 ||| p = p) (h : Fr p s x) : Fr p s (State.epochRecord x a1) := by
  unfold State.epochRecord
  with_reducible
    repeat' first
      | assumption | exact Fr.up (by decide) hp | apply State.logWrite_parts | lift_lets
      | (intro y; refine Fr.cut p s y ?_ (fun hy => ?_); (on_goal 1 => subst y); (on_goal 2 => clear_value y)) | intro y | apply Fr.mk_hz

theorem State.parkRecord_parts {p : Nat} {s x : State} (hp : 0x7012010 ||| p = p) (h : Fr p s x) : Fr p s (State.parkRecord x) := by
  unfold State.parkRecord
  with_reducible
    repeat' first
      | assumption | exact Fr.up (by decide) hp | apply State.logWrite_parts | lift_lets
      | (intro y; refine Fr.cut p s y ?_ (fun hy => ?_); (on_goal 1 => subst y); (on_goal 2 => clear_value y)) | intro y
      | apply Fr.mk_parkAcc

theorem State.epochStart_parts {p : Nat} {s x : State} (a1 : Nat) (hp : 0x400010 ||| p = p) (h : Fr p s x) : Fr p s (State.epochStart x a1) := by
  unfold State.epochStart
  with_reducible
    repeat' first
      | assumption | exact Fr.up (by decide) hp | apply State.probeAbandon_parts
      | apply State.set_parts | refine Fr.ite ?_ ?_ | lift_lets
      | (intro y; refine Fr.cut p s y ?_ (fun hy => ?_); (on_goal 1 => subst y); (on_goal 2 => clear_value y)) | intro y | apply Fr.mk_hz

theorem State.epochDiscard_parts {p : Nat} {s x : State} (hp : 0x402010 ||| p = p) (h : Fr p s x) : Fr p s (State.epochDiscard x) := by
  unfold State.epochDiscard
  with_reducible
    repeat' first
      | assumption | exact Fr.up (by decide) hp | apply State.raise_parts | apply State.set_parts
      | lift_lets | (intro y; refine Fr.cut p s y ?_ (fun hy => ?_); (on_goal 1 => subst y); (on_goal 2 => clear_value y)) | intro y
      | split | apply Fr.mk_hz

theorem State.hzHistory_parts {p : Nat} {s x : State} (hp : 0x400000 ||| p = p) (h : Fr p s x) : Fr p s (State.hzHistory x) := by
  unfold State.hzHistory
  with_reducible
    repeat' first
      | assumption | exact Fr.up (by decide) hp | refine Fr.foldl _ ?_ (fun y a hy => ?_) | lift_lets
      | (intro y; refine Fr.cut p s y ?_ (fun hy => ?_); (on_goal 1 => subst y); (on_goal 2 => clear_value y)) | intro y | split
      | apply Fr.mk_hz

theorem State.hzReportValues_parts {p : Nat} {s x : State} (hp : 0x10010 ||| p = p) (h : Fr p s x) : Fr p s (State.hzReportValues x) := by
  unfold State.hzReportValues
  with_reducible
    repeat' first
      | assumption | exact Fr.up (by decide) hp | apply State.put_parts
      | refine Fr.foldl _ ?_ (fun y a hy => ?_) | refine Fr.ite ?_ ?_ | refine Fr.ite_snd ?_ ?_ | refine Fr.ite_trd ?_ ?_
      | refine fun y hy => ?_ | lift_lets
      | (intro y; refine Fr.cut p s y ?_ (fun hy => ?_); (on_goal 1 => subst y); (on_goal 2 => clear_value y)) | (intro y; subst y; beta_reduce) | intro y
      | split | (refine Fr.snd_of ?_ (by assumption)) | (refine Fr.trd_of ?_ (by assumption))

theorem State.hzReportMargins_parts {p : Nat} {s x : State} (hp : 0x412010 ||| p = p) (h : Fr p s x) : Fr p s (State.hzReportMargins x) := by
  unfold State.hzReportMargins
  with_reducible
    repeat' first
      | assumption | exact Fr.up (by decide) hp | apply State.hzReport_parts | apply State.put_parts
      | refine Fr.foldl _ ?_ (fun y a hy => ?_) | lift_lets
      | (intro y; refine Fr.cut p s y ?_ (fun hy => ?_); (on_goal 1 => subst y); (on_goal 2 => clear_value y)) | intro y

theorem State.hzFactors_parts {p : Nat} {s x : State} (hp : 0x410010 ||| p = p) (h : Fr p s x) : Fr p s (State.hzFactors x) := by
  unfold State.hzFactors
  with_reducible
    repeat' first
      | assumption | exact Fr.up (by decide) hp | apply State.put_parts
      | refine Fr.foldl _ ?_ (fun y a hy => ?_) | refine Fr.ite ?_ ?_ | lift_lets
      | (intro y; refine Fr.cut p s y ?_ (fun hy => ?_); (on_goal 1 => subst y); (on_goal 2 => clear_value y)) | intro y | apply Fr.mk_hz

theorem State.ceilingBoot_parts {p : Nat} {s x : State} (hp : 0x400000 ||| p = p) (h : Fr p s x) : Fr p s (State.ceilingBoot x) := by
  unfold State.ceilingBoot
  with_reducible
    repeat' first
      | assumption | exact Fr.up (by decide) hp | lift_lets
      | (intro y; refine Fr.cut p s y ?_ (fun hy => ?_); (on_goal 1 => subst y); (on_goal 2 => clear_value y)) | intro y | apply Fr.mk_hz

theorem State.syncBar_parts {p : Nat} {s x : State} (a1 : Group) (hp : 0x2050 ||| p = p) (h : Fr p s x) : Fr p s (State.syncBar x a1) := by
  unfold State.syncBar
  with_reducible
    repeat' first
      | assumption | exact Fr.up (by decide) hp | apply State.raise_parts | apply State.modG_parts
      | refine Fr.ite ?_ ?_

theorem State.ceilingStart_parts {p : Nat} {s x : State} (hp : 0x402050 ||| p = p) (h : Fr p s x) : Fr p s (State.ceilingStart x) := by
  unfold State.ceilingStart
  with_reducible
    repeat' first
      | assumption | exact Fr.up (by decide) hp | apply State.syncBar_parts | apply State.raise_parts
      | refine Fr.foldl _ ?_ (fun y a hy => ?_) | refine Fr.ite ?_ ?_ | lift_lets
      | (intro y; refine Fr.cut p s y ?_ (fun hy => ?_); (on_goal 1 => subst y); (on_goal 2 => clear_value y)) | intro y | split
      | apply Fr.mk_hz

theorem State.epochFinish_parts {p : Nat} {s x : State} (a1 : Nat) (hp : 0x6612050 ||| p = p) (h : Fr p s x) : Fr p s (State.epochFinish x a1) := by
  unfold State.epochFinish
  with_reducible
    repeat' first
      | assumption | exact Fr.up (by decide) hp | apply State.ceilingStart_parts
      | apply State.hzFactors_parts | apply State.hzReportMargins_parts | apply State.hzReportValues_parts | apply State.hzHistory_parts
      | apply State.epochRecord_parts | apply State.closeRound_parts | apply State.count_parts | apply State.put_parts
      | apply State.set_parts | refine Fr.ite ?_ ?_ | lift_lets
      | (intro y; refine Fr.cut p s y ?_ (fun hy => ?_); (on_goal 1 => subst y); (on_goal 2 => clear_value y)) | intro y | split
      | apply Fr.mk_hz

end Sys2Proof.Machine
end

