-- ==== Sys2Proof/Laws/PartsControlCore.lean ====
section
/-!
SUPPORT. PartsControlCore.lean: the footprint of every operation of Machine/ControlCore.lean.
-/
set_option linter.unusedTactic false
set_option linter.unreachableTactic false
set_option linter.unusedVariables false
namespace Sys2Proof.Machine

theorem State.portRaw_parts {p : Nat} {s x : State} (a1 : Nat) (hp : 0x24f0 ||| p = p) (h : Fr p s x) : Fr p s (State.portRaw x a1) := by
  unfold State.portRaw
  with_reducible
    repeat' first
      | assumption | exact Fr.up (by decide) hp | apply State.handoverWord_parts
      | apply State.portWord_parts | apply State.commitWords_parts | refine Fr.ite ?_ ?_ | lift_lets
      | (intro y; refine Fr.cut p s y ?_ (fun hy => ?_); (on_goal 1 => subst y); (on_goal 2 => clear_value y)) | intro y

theorem execCommit_parts {s t : State} (h : execCommit s = .next t) : Fr 0x820f0 s t := by
  unfold execCommit at h
  cases h
  have h := Fr.refl 0x820f0 s
  have hp : 0x820f0 ||| 0x820f0 = 0x820f0 := rfl
  with_reducible
    repeat' first
      | assumption | exact Fr.up (by decide) hp | apply State.logged_parts
      | apply State.commitWords_parts | refine Fr.ite ?_ ?_ | refine fun y hy => ?_

theorem execHeartbeat_parts {s t : State} (h : execHeartbeat s = .next t) : Fr 0x0 s t := by
  unfold execHeartbeat at h
  cases h
  have h := Fr.refl 0x0 s
  have hp : 0x0 ||| 0x0 = 0x0 := rfl
  with_reducible
    repeat' first
      | assumption | exact Fr.up (by decide) hp

theorem State.turnOn_parts {p : Nat} {s x : State} (a1 : Nat) (hp : 0x80 ||| p = p) (h : Fr p s x) : Fr p s (State.turnOn x a1) := by
  unfold State.turnOn
  with_reducible
    repeat' first
      | assumption | exact Fr.up (by decide) hp | apply State.modP_parts | refine Fr.ite ?_ ?_
      | lift_lets | (intro y; refine Fr.cut p s y ?_ (fun hy => ?_); (on_goal 1 => subst y); (on_goal 2 => clear_value y)) | intro y

theorem execPhaseCycleStart_parts {s t : State} (a0 : Fin 16) (h : execPhaseCycleStart a0 s = .next t) : Fr 0x20b0 s t := by
  unfold execPhaseCycleStart at h
  cases h
  have h := Fr.refl 0x20b0 s
  have hp : 0x20b0 ||| 0x20b0 = 0x20b0 := rfl
  with_reducible
    repeat' first
      | assumption | exact Fr.up (by decide) hp | apply State.turnOn_parts
      | apply State.coreClearI_parts | apply State.modP_parts | refine Fr.ite ?_ ?_ | lift_lets
      | (intro y; refine Fr.cut _ s y ?_ (fun hy => ?_); (on_goal 1 => subst y); (on_goal 2 => clear_value y)) | intro y

theorem State.terminate_parts {p : Nat} {s x : State} (a1 : Nat) (hp : 0x80 ||| p = p) (h : Fr p s x) : Fr p s (State.terminate x a1) := by
  unfold State.terminate
  with_reducible
    repeat' first
      | assumption | exact Fr.up (by decide) hp | apply State.modP_parts | refine Fr.ite ?_ ?_
      | lift_lets | (intro y; refine Fr.cut p s y ?_ (fun hy => ?_); (on_goal 1 => subst y); (on_goal 2 => clear_value y)) | intro y

theorem execCurrentTermination_parts {s t : State} (a0 : Fin 16) (a1 : Int) (a2 : Nat) (h : execCurrentTermination a0 a1 a2 s = .next t) : Fr 0x80 s t := by
  unfold execCurrentTermination at h
  cases h
  have h := Fr.refl 0x80 s
  have hp : 0x80 ||| 0x80 = 0x80 := rfl
  with_reducible
    repeat' first
      | assumption | exact Fr.up (by decide) hp | apply State.terminate_parts | apply State.modP_parts
      | refine Fr.ite ?_ ?_ | lift_lets
      | (intro y; refine Fr.cut _ s y ?_ (fun hy => ?_); (on_goal 1 => subst y); (on_goal 2 => clear_value y)) | intro y

theorem execMaxOnTimeEnd_parts {s t : State} (a0 : Fin 16) (h : execMaxOnTimeEnd a0 s = .next t) : Fr 0x80 s t := by
  unfold execMaxOnTimeEnd at h
  cases h
  have h := Fr.refl 0x80 s
  have hp : 0x80 ||| 0x80 = 0x80 := rfl
  with_reducible
    repeat' first
      | assumption | exact Fr.up (by decide) hp | apply State.terminate_parts | apply State.modP_parts
      | refine Fr.ite ?_ ?_

theorem State.phaseTick_parts {p : Nat} {s x : State} (a1 : Nat) (hp : 0x80 ||| p = p) (h : Fr p s x) : Fr p s (State.phaseTick x a1) := by
  unfold State.phaseTick
  with_reducible
    repeat' first
      | assumption | exact Fr.up (by decide) hp | apply State.modP_parts | refine Fr.ite ?_ ?_
      | lift_lets | (intro y; refine Fr.cut p s y ?_ (fun hy => ?_); (on_goal 1 => subst y); (on_goal 2 => clear_value y)) | intro y

theorem execIsnsZeroMeasurement_parts {s t : State} (a0 : Fin 16) (a1 : Nat) (h : execIsnsZeroMeasurement a0 a1 s = .next t) : Fr 0x820f0 s t := by
  unfold execIsnsZeroMeasurement at h
  cases h
  have h := Fr.refl 0x820f0 s
  have hp : 0x820f0 ||| 0x820f0 = 0x820f0 := rfl
  with_reducible
    repeat' first
      | assumption | exact Fr.up (by decide) hp | apply State.zeroMeasured_parts
      | apply State.logged_parts | refine Fr.ite ?_ ?_ | refine fun y hy => ?_

theorem State.feedforward_parts {p : Nat} {s x : State} (a1 : Group) (a2 : Int) (hp : 0x40 ||| p = p) (h : Fr p s x) : Fr p s (State.feedforward x a1 a2) := by
  unfold State.feedforward
  with_reducible
    repeat' first
      | assumption | exact Fr.up (by decide) hp | apply State.modG_parts | refine Fr.ite ?_ ?_
      | lift_lets | (intro y; refine Fr.cut p s y ?_ (fun hy => ?_); (on_goal 1 => subst y); (on_goal 2 => clear_value y)) | intro y

theorem execFeedforwardUpdate_parts {s t : State} (a0 : Group) (a1 : Int) (h : execFeedforwardUpdate a0 a1 s = .next t) : Fr 0x40 s t := by
  unfold execFeedforwardUpdate at h
  cases h
  have h := Fr.refl 0x40 s
  have hp : 0x40 ||| 0x40 = 0x40 := rfl
  with_reducible
    repeat' first
      | assumption | exact Fr.up (by decide) hp | apply State.feedforward_parts | refine Fr.ite ?_ ?_

theorem State.latchPhase_parts {p : Nat} {s x : State} (a1 : Nat) (hp : 0xc0 ||| p = p) (h : Fr p s x) : Fr p s (State.latchPhase x a1) := by
  unfold State.latchPhase
  with_reducible
    repeat' first
      | assumption | exact Fr.up (by decide) hp | apply State.setChanged_parts | apply State.modP_parts
      | refine Fr.ite ?_ ?_ | lift_lets
      | (intro y; refine Fr.cut p s y ?_ (fun hy => ?_); (on_goal 1 => subst y); (on_goal 2 => clear_value y)) | intro y

theorem State.reportPeak_parts {p : Nat} {s x : State} (a1 : Nat) (hp : 0x860b0 ||| p = p) (h : Fr p s x) : Fr p s (State.reportPeak x a1) := by
  unfold State.reportPeak
  with_reducible
    repeat' first
      | assumption | exact Fr.up (by decide) hp | apply State.ev_parts | apply State.again_parts
      | apply State.coreRaiseC_parts | apply State.coreSend_parts | apply State.modP_parts | refine Fr.ite ?_ ?_ | lift_lets
      | (intro y; refine Fr.cut p s y ?_ (fun hy => ?_); (on_goal 1 => subst y); (on_goal 2 => clear_value y)) | intro y

theorem State.phasePeak_parts {p : Nat} {s x : State} (a1 : Nat) (hp : 0x860f0 ||| p = p) (h : Fr p s x) : Fr p s (State.phasePeak x a1) := by
  unfold State.phasePeak
  with_reducible
    repeat' first
      | assumption | exact Fr.up (by decide) hp | apply State.reportPeak_parts
      | apply State.latchPhase_parts | apply State.coreRaiseC_parts | apply State.modP_parts | refine Fr.ite ?_ ?_ | lift_lets
      | (intro y; refine Fr.cut p s y ?_ (fun hy => ?_); (on_goal 1 => subst y); (on_goal 2 => clear_value y)) | intro y

theorem execPhasePeak_parts {s t : State} (a0 : Fin 16) (h : execPhasePeak a0 s = .next t) : Fr 0x860f0 s t := by
  unfold execPhasePeak at h
  cases h
  have h := Fr.refl 0x860f0 s
  have hp : 0x860f0 ||| 0x860f0 = 0x860f0 := rfl
  with_reducible
    repeat' first
      | assumption | exact Fr.up (by decide) hp | apply State.phasePeak_parts
      | apply State.logged_parts | refine Fr.ite ?_ ?_ | refine fun y hy => ?_

theorem execStageFault_parts {s t : State} (a0 : Fin 16) (h : execStageFault a0 s = .next t) : Fr 0x820f0 s t := by
  unfold execStageFault at h
  cases h
  have h := Fr.refl 0x820f0 s
  have hp : 0x820f0 ||| 0x820f0 = 0x820f0 := rfl
  with_reducible
    repeat' first
      | assumption | exact Fr.up (by decide) hp | apply State.latchPhase_parts
      | apply State.logged_parts | apply State.coreRaiseC_parts | refine Fr.ite ?_ ?_ | refine fun y hy => ?_

theorem execRailOv_parts {s t : State} (h : execRailOv s = .next t) : Fr 0x820f0 s t := by
  unfold execRailOv at h
  cases h
  have h := Fr.refl 0x820f0 s
  have hp : 0x820f0 ||| 0x820f0 = 0x820f0 := rfl
  with_reducible
    repeat' first
      | assumption | exact Fr.up (by decide) hp | apply State.logged_parts
      | apply State.coreRaiseC_parts | apply State.stopG_parts | apply State.modPs_parts | refine Fr.foldl _ ?_ (fun y a hy => ?_)
      | refine Fr.ite ?_ ?_ | refine Fr.ite_snd ?_ ?_ | refine Fr.ite_trd ?_ ?_ | refine fun y hy => ?_ | lift_lets
      | (intro y; refine Fr.cut _ s y ?_ (fun hy => ?_); (on_goal 1 => subst y); (on_goal 2 => clear_value y)) | intro y | split
      | (refine Fr.snd_of ?_ (by assumption)) | (refine Fr.trd_of ?_ (by assumption)) | apply Fr.mk_core

theorem execRailOvPersist_parts {s t : State} (h : execRailOvPersist s = .next t) : Fr 0x820f0 s t := by
  unfold execRailOvPersist at h
  cases h
  have h := Fr.refl 0x820f0 s
  have hp : 0x820f0 ||| 0x820f0 = 0x820f0 := rfl
  with_reducible
    repeat' first
      | assumption | exact Fr.up (by decide) hp | apply State.logged_parts | apply State.gateOpen_parts
      | apply State.coreRaiseC_parts | refine Fr.ite ?_ ?_ | refine fun y hy => ?_ | lift_lets
      | (intro y; refine Fr.cut _ s y ?_ (fun hy => ?_); (on_goal 1 => subst y); (on_goal 2 => clear_value y)) | intro y
      | apply Fr.mk_core

theorem State.railFree_parts {p : Nat} {s x : State} (hp : 0x40 ||| p = p) (h : Fr p s x) : Fr p s (State.railFree x) := by
  unfold State.railFree
  with_reducible
    repeat' first
      | assumption | exact Fr.up (by decide) hp | apply State.modG_parts
      | refine Fr.foldl _ ?_ (fun y a hy => ?_) | refine Fr.ite ?_ ?_

theorem execRailOvRelease_parts {s t : State} (a0 : Bool) (a1 : Nat) (a2 : Nat) (h : execRailOvRelease a0 a1 a2 s = .next t) : Fr 0x820f0 s t := by
  unfold execRailOvRelease at h
  cases h
  have h := Fr.refl 0x820f0 s
  have hp : 0x820f0 ||| 0x820f0 = 0x820f0 := rfl
  with_reducible
    repeat' first
      | assumption | exact Fr.up (by decide) hp | apply State.railFree_parts | apply State.logged_parts
      | apply State.gateBack_parts | apply State.coreClearK_parts | apply State.freeG_parts | refine Fr.foldl _ ?_ (fun y a hy => ?_)
      | refine Fr.ite ?_ ?_ | refine Fr.ite_snd ?_ ?_ | refine Fr.ite_trd ?_ ?_ | refine fun y hy => ?_ | lift_lets
      | (intro y; refine Fr.cut _ s y ?_ (fun hy => ?_); (on_goal 1 => subst y); (on_goal 2 => clear_value y)) | intro y | split
      | (refine Fr.snd_of ?_ (by assumption)) | (refine Fr.trd_of ?_ (by assumption)) | apply Fr.mk_core

theorem execServoUnlock_parts {s t : State} (a0 : Group) (h : execServoUnlock a0 s = .next t) : Fr 0x2070 s t := by
  unfold execServoUnlock at h
  cases h
  have h := Fr.refl 0x2070 s
  have hp : 0x2070 ||| 0x2070 = 0x2070 := rfl
  with_reducible
    repeat' first
      | assumption | exact Fr.up (by decide) hp | apply State.coreRaiseC_parts | apply State.modG_parts
      | refine Fr.ite ?_ ?_

theorem execServoRelock_parts {s t : State} (a0 : Group) (h : execServoRelock a0 s = .next t) : Fr 0x2070 s t := by
  unfold execServoRelock at h
  cases h
  have h := Fr.refl 0x2070 s
  have hp : 0x2070 ||| 0x2070 = 0x2070 := rfl
  with_reducible
    repeat' first
      | assumption | exact Fr.up (by decide) hp | apply State.coreClearI_parts | apply State.modG_parts
      | refine Fr.ite ?_ ?_

theorem State.speedKind_parts {p : Nat} {s x : State} (a1 : Nat) (a2 : Nat) (a3 : Run) (hp : 0x2010 ||| p = p) (h : Fr p s x) : Fr p s (State.speedKind x a1 a2 a3) := by
  unfold State.speedKind
  with_reducible
    repeat' first
      | assumption | exact Fr.up (by decide) hp | apply State.clearK_parts | apply State.raise1_parts
      | refine Fr.ite ?_ ?_

theorem State.speedUpdate_parts {p : Nat} {s x : State} (a1 : Nat) (hp : 0x1a010 ||| p = p) (h : Fr p s x) : Fr p s (State.speedUpdate x a1) := by
  unfold State.speedUpdate
  with_reducible
    repeat' first
      | assumption | exact Fr.up (by decide) hp | apply State.speedKind_parts | apply State.put_parts
      | apply State.set_parts | refine Fr.ite ?_ ?_ | lift_lets
      | (intro y; refine Fr.cut p s y ?_ (fun hy => ?_); (on_goal 1 => subst y); (on_goal 2 => clear_value y)) | intro y | apply Fr.mk_spd

theorem execCoreSpeedUpdate_parts {s t : State} (a0 : Nat) (h : execCoreSpeedUpdate a0 s = .next t) : Fr 0x41a010 s t := by
  unfold execCoreSpeedUpdate at h
  cases h
  have h := Fr.refl 0x41a010 s
  have hp : 0x41a010 ||| 0x41a010 = 0x41a010 := rfl
  with_reducible
    repeat' first
      | assumption | exact Fr.up (by decide) hp | apply State.speedUpdate_parts
      | apply State.hzSpeed_parts | refine Fr.ite ?_ ?_

theorem execBalancingUpdate_parts {s t : State} (a0 : Group) (a1 : List Int) (h : execBalancingUpdate a0 a1 s = .next t) : Fr 0x4000c0 s t := by
  unfold execBalancingUpdate at h
  cases h
  have h := Fr.refl 0x4000c0 s
  have hp : 0x4000c0 ||| 0x4000c0 = 0x4000c0 := rfl
  with_reducible
    repeat' first
      | assumption | exact Fr.up (by decide) hp | apply State.hzTrim_parts | apply State.balance_parts
      | refine Fr.ite ?_ ?_

end Sys2Proof.Machine
end

