-- ==== Sys2Proof/Laws/PartsGrantOps.lean ====
section
/-!
SUPPORT. PartsGrantOps.lean: the footprint of every operation of Machine/GrantOps.lean.
-/
set_option linter.unusedTactic false
set_option linter.unreachableTactic false
set_option linter.unusedVariables false
namespace Sys2Proof.Machine

theorem State.demandNow_parts {p : Nat} {s x : State} (hp : 0x10010 ||| p = p) (h : Fr p s x) : Fr p s (State.demandNow x) := by
  unfold State.demandNow
  with_reducible
    repeat' first
      | assumption | exact Fr.up (by decide) hp | apply State.put_parts | apply State.set_parts
      | refine Fr.foldl _ ?_ (fun y a hy => ?_) | refine Fr.ite ?_ ?_ | lift_lets
      | (intro y; refine Fr.cut p s y ?_ (fun hy => ?_); (on_goal 1 => subst y); (on_goal 2 => clear_value y)) | intro y

theorem State.raiseEntries_parts {p : Nat} {s x : State} (a f d n : Nat) (hp : 0x10000000 ||| p = p) (h : Fr p s x) : Fr p s (x.raiseEntries a f d n) := by
  induction n generalizing x with
  | zero => exact h
  | succ n ih => exact ih (Fr.mk_env h (Fr.up rfl hp))

theorem State.clearPair_parts {p : Nat} {s x : State} (a1 : Nat) (hp : 0x10000000 ||| p = p) (h : Fr p s x) : Fr p s (State.clearPair x a1) := by
  unfold State.clearPair
  with_reducible
    repeat' first
      | assumption | exact Fr.up (by decide) hp | lift_lets
      | (intro y; refine Fr.cut p s y ?_ (fun hy => ?_); (on_goal 1 => subst y); (on_goal 2 => clear_value y)) | intro y | apply Fr.mk_env

theorem State.allocate_parts {p : Nat} {s x : State} (a1 : Nat) (hp : 0x10400050 ||| p = p) (h : Fr p s x) : Fr p s (State.allocate x a1) := by
  unfold State.allocate
  with_reducible
    repeat' first
      | assumption | exact Fr.up (by decide) hp | apply State.feedforward_parts
      | apply State.railDisturbed_parts | refine Fr.ite ?_ ?_ | lift_lets
      | (intro y; refine Fr.cut p s y ?_ (fun hy => ?_); (on_goal 1 => subst y); (on_goal 2 => clear_value y)) | intro y | apply Fr.mk_env

theorem State.release_parts {p : Nat} {s x : State} (hp : 0x10400050 ||| p = p) (h : Fr p s x) : Fr p s (State.release x) := by
  unfold State.release
  with_reducible
    repeat' first
      | assumption | exact Fr.up (by decide) hp | apply State.allocate_parts | refine Fr.ite ?_ ?_
      | lift_lets | (intro y; refine Fr.cut p s y ?_ (fun hy => ?_); (on_goal 1 => subst y); (on_goal 2 => clear_value y)) | intro y
      | apply Fr.mk_env

theorem State.releaseIfNew_parts {p : Nat} {s x : State} (hp : 0x10400050 ||| p = p) (h : Fr p s x) : Fr p s (State.releaseIfNew x) := by
  unfold State.releaseIfNew
  with_reducible
    repeat' first
      | assumption | exact Fr.up (by decide) hp | apply State.allocate_parts | refine Fr.ite ?_ ?_
      | lift_lets | (intro y; refine Fr.cut p s y ?_ (fun hy => ?_); (on_goal 1 => subst y); (on_goal 2 => clear_value y)) | intro y

theorem State.grantTerms_parts {p : Nat} {s x : State} (hp : 0x10 ||| p = p) (h : Fr p s x) : Fr p s (State.grantTerms x) := by
  unfold State.grantTerms
  with_reducible
    repeat' first
      | assumption | exact Fr.up (by decide) hp | apply State.set_parts | lift_lets
      | (intro y; refine Fr.cut p s y ?_ (fun hy => ?_); (on_goal 1 => subst y); (on_goal 2 => clear_value y)) | intro y

theorem State.tallyN_parts {p : Nat} {s x : State} (a1 : Nat) (a2 : Nat) (hp : 0x10 ||| p = p) (h : Fr p s x) : Fr p s (State.tallyN x a1 a2) := by
  unfold State.tallyN
  with_reducible
    repeat' first
      | assumption | exact Fr.up (by decide) hp | apply State.set_parts

theorem State.grantCompute_parts {p : Nat} {s x : State} (hp : 0x10000010 ||| p = p) (h : Fr p s x) : Fr p s (State.grantCompute x) := by
  unfold State.grantCompute
  with_reducible
    repeat' first
      | assumption | exact Fr.up (by decide) hp | apply State.tallyN_parts
      | apply State.grantTerms_parts | apply State.set_parts | lift_lets
      | (intro y; refine Fr.cut p s y ?_ (fun hy => ?_); (on_goal 1 => subst y); (on_goal 2 => clear_value y)) | intro y | apply Fr.mk_env

theorem State.sourceLoss_parts {p : Nat} {s x : State} (a1 : Nat) (hp : 0x10012010 ||| p = p) (h : Fr p s x) : Fr p s (State.sourceLoss x a1) := by
  unfold State.sourceLoss
  with_reducible
    repeat' first
      | assumption | exact Fr.up (by decide) hp | apply State.raise_parts | apply State.count_parts
      | refine Fr.ite ?_ ?_ | lift_lets
      | (intro y; refine Fr.cut p s y ?_ (fun hy => ?_); (on_goal 1 => subst y); (on_goal 2 => clear_value y)) | intro y | apply Fr.mk_env

end Sys2Proof.Machine
end

