-- ==== Sys2Proof/Laws/PartsChargeOps.lean ====
section
/-!
SUPPORT. PartsChargeOps.lean: the footprint of every operation of Machine/ChargeOps.lean.
-/
set_option linter.unusedTactic false
set_option linter.unreachableTactic false
set_option linter.unusedVariables false
namespace Sys2Proof.Machine

theorem State.chgBit_parts {p : Nat} {s x : State} (a1 : Nat) (hp : 0x20010010 ||| p = p) (h : Fr p s x) : Fr p s (State.chgBit x a1) := by
  unfold State.chgBit
  with_reducible
    repeat' first
      | assumption | exact Fr.up (by decide) hp | apply State.put_parts | refine Fr.ite ?_ ?_
      | lift_lets | (intro y; refine Fr.cut p s y ?_ (fun hy => ?_); (on_goal 1 => subst y); (on_goal 2 => clear_value y)) | intro y
      | apply Fr.mk_chg

theorem State.chgEvent_parts {p : Nat} {s x : State} (a1 : Nat) (a2 : Nat) (a3 : Nat) (a4 : Nat) (hp : 0x20012010 ||| p = p) (h : Fr p s x) : Fr p s (State.chgEvent x a1 a2 a3 a4) := by
  unfold State.chgEvent
  with_reducible
    repeat' first
      | assumption | exact Fr.up (by decide) hp | apply State.chgBit_parts | apply State.raise_parts

theorem State.chgCond_parts {p : Nat} {s x : State} (a1 : Nat) (a2 : Nat) (a3 : Nat) (a4 : Nat) (a5 : Bool) (hp : 0x20012010 ||| p = p) (h : Fr p s x) : Fr p s (State.chgCond x a1 a2 a3 a4 a5) := by
  unfold State.chgCond
  with_reducible
    repeat' first
      | assumption | exact Fr.up (by decide) hp | apply State.chgBit_parts | apply State.clearK_parts
      | apply State.raise1_parts | refine Fr.ite ?_ ?_

theorem State.writeChg_parts {p : Nat} {s x : State} (a1 : Nat) (hp : 0x20f0 ||| p = p) (h : Fr p s x) : Fr p s (State.writeChg x a1) := by
  unfold State.writeChg
  with_reducible
    repeat' first
      | assumption | exact Fr.up (by decide) hp | apply State.portIfNew_parts | apply State.set_parts

theorem State.zeroBoth_parts {p : Nat} {s x : State} (hp : 0x20f0 ||| p = p) (h : Fr p s x) : Fr p s (State.zeroBoth x) := by
  unfold State.zeroBoth
  with_reducible
    repeat' first
      | assumption | exact Fr.up (by decide) hp | apply State.portWrite_parts | apply State.set_parts
      | refine Fr.ite ?_ ?_ | lift_lets
      | (intro y; refine Fr.cut p s y ?_ (fun hy => ?_); (on_goal 1 => subst y); (on_goal 2 => clear_value y)) | intro y

theorem State.ntcStep_parts {p : Nat} {s x : State} (a1 : Nat) (hp : 0x20012010 ||| p = p) (h : Fr p s x) : Fr p s (State.ntcStep x a1) := by
  unfold State.ntcStep
  with_reducible
    repeat' first
      | assumption | exact Fr.up (by decide) hp | apply State.chgEvent_parts | apply State.chgBit_parts
      | apply State.set_parts | refine Fr.ite ?_ ?_ | lift_lets
      | (intro y; refine Fr.cut p s y ?_ (fun hy => ?_); (on_goal 1 => subst y); (on_goal 2 => clear_value y)) | intro y | apply Fr.mk_chg

theorem State.zoneUpdate_parts {p : Nat} {s x : State} (hp : 0x20012010 ||| p = p) (h : Fr p s x) : Fr p s (State.zoneUpdate x) := by
  unfold State.zoneUpdate
  with_reducible
    repeat' first
      | assumption | exact Fr.up (by decide) hp | apply State.ntcStep_parts
      | apply State.chgEvent_parts | apply State.chgBit_parts | apply State.set_parts | refine Fr.foldl _ ?_ (fun y a hy => ?_)
      | refine Fr.ite ?_ ?_ | lift_lets
      | (intro y; refine Fr.cut p s y ?_ (fun hy => ?_); (on_goal 1 => subst y); (on_goal 2 => clear_value y)) | intro y | split
      | apply Fr.mk_chg

theorem State.setSoc_parts {p : Nat} {s x : State} (a1 : Nat) (a2 : Nat) (hp : 0x20010010 ||| p = p) (h : Fr p s x) : Fr p s (State.setSoc x a1 a2) := by
  unfold State.setSoc
  with_reducible
    repeat' first
      | assumption | exact Fr.up (by decide) hp | apply State.put_parts | apply State.set_parts
      | lift_lets | (intro y; refine Fr.cut p s y ?_ (fun hy => ?_); (on_goal 1 => subst y); (on_goal 2 => clear_value y)) | intro y
      | apply Fr.mk_chg

theorem State.coulomb_parts {p : Nat} {s x : State} (a1 : Nat) (hp : 0x20410010 ||| p = p) (h : Fr p s x) : Fr p s (State.coulomb x a1) := by
  unfold State.coulomb
  with_reducible
    repeat' first
      | assumption | exact Fr.up (by decide) hp | apply State.put_parts | apply State.set_parts
      | refine Fr.ite ?_ ?_ | lift_lets
      | (intro y; refine Fr.cut p s y ?_ (fun hy => ?_); (on_goal 1 => subst y); (on_goal 2 => clear_value y)) | intro y
      | apply Fr.mk_hz_chg

theorem State.anchor_parts {p : Nat} {s x : State} (a1 : Nat) (hp : 0x400000 ||| p = p) (h : Fr p s x) : Fr p s (State.anchor x a1) := by
  unfold State.anchor
  with_reducible
    repeat' first
      | assumption | exact Fr.up (by decide) hp | refine Fr.ite ?_ ?_ | lift_lets
      | (intro y; refine Fr.cut p s y ?_ (fun hy => ?_); (on_goal 1 => subst y); (on_goal 2 => clear_value y)) | intro y | split
      | apply Fr.mk_hz

theorem State.cellReport_parts {p : Nat} {s x : State} (hp : 0x10 ||| p = p) (h : Fr p s x) : Fr p s (State.cellReport x) := by
  unfold State.cellReport
  with_reducible
    repeat' first
      | assumption | exact Fr.up (by decide) hp | apply State.setI_parts | apply State.set_parts
      | refine Fr.foldl _ ?_ (fun y a hy => ?_) | refine Fr.ite ?_ ?_ | lift_lets
      | (intro y; refine Fr.cut p s y ?_ (fun hy => ?_); (on_goal 1 => subst y); (on_goal 2 => clear_value y)) | intro y

theorem State.cutoff_parts {p : Nat} {s x : State} (hp : 0x200120f0 ||| p = p) (h : Fr p s x) : Fr p s (State.cutoff x) := by
  unfold State.cutoff
  with_reducible
    repeat' first
      | assumption | exact Fr.up (by decide) hp | apply State.setSoc_parts | apply State.chgCond_parts
      | apply State.chgBit_parts | apply State.portIfNew_parts | apply State.set_parts | refine Fr.ite ?_ ?_

theorem State.cellScan_parts {p : Nat} {s x : State} (hp : 0x200120f0 ||| p = p) (h : Fr p s x) : Fr p s (State.cellScan x) := by
  unfold State.cellScan
  with_reducible
    repeat' first
      | assumption | exact Fr.up (by decide) hp | apply State.cutoff_parts
      | apply State.cellReport_parts | refine Fr.ite ?_ ?_ | lift_lets
      | (intro y; refine Fr.cut p s y ?_ (fun hy => ?_); (on_goal 1 => subst y); (on_goal 2 => clear_value y)) | intro y | apply Fr.mk_chg

theorem State.ocvCorrect_parts {p : Nat} {s x : State} (hp : 0x20410010 ||| p = p) (h : Fr p s x) : Fr p s (State.ocvCorrect x) := by
  unfold State.ocvCorrect
  with_reducible
    repeat' first
      | assumption | exact Fr.up (by decide) hp | apply State.anchor_parts | apply State.setSoc_parts
      | refine Fr.ite ?_ ?_ | split

theorem State.chgEnter_parts {p : Nat} {s x : State} (a1 : Nat) (a2 : Nat) (hp : 0x20000010 ||| p = p) (h : Fr p s x) : Fr p s (State.chgEnter x a1 a2) := by
  unfold State.chgEnter
  with_reducible
    repeat' first
      | assumption | exact Fr.up (by decide) hp | apply State.set_parts | refine Fr.ite ?_ ?_
      | lift_lets | (intro y; refine Fr.cut p s y ?_ (fun hy => ?_); (on_goal 1 => subst y); (on_goal 2 => clear_value y)) | intro y
      | apply Fr.mk_chg

theorem State.newCycle_parts {p : Nat} {s x : State} (hp : 0x20000010 ||| p = p) (h : Fr p s x) : Fr p s (State.newCycle x) := by
  unfold State.newCycle
  with_reducible
    repeat' first
      | assumption | exact Fr.up (by decide) hp | apply State.set_parts | lift_lets
      | (intro y; refine Fr.cut p s y ?_ (fun hy => ?_); (on_goal 1 => subst y); (on_goal 2 => clear_value y)) | intro y | apply Fr.mk_chg

theorem State.select_parts {p : Nat} {s x : State} (hp : 0x20000010 ||| p = p) (h : Fr p s x) : Fr p s (State.select x) := by
  unfold State.select
  with_reducible
    repeat' first
      | assumption | exact Fr.up (by decide) hp | apply State.newCycle_parts
      | apply State.chgEnter_parts | refine Fr.ite ?_ ?_ | lift_lets
      | (intro y; refine Fr.cut p s y ?_ (fun hy => ?_); (on_goal 1 => subst y); (on_goal 2 => clear_value y)) | intro y | split
      | apply Fr.mk_chg

theorem State.selectOrHold_parts {p : Nat} {s x : State} (hp : 0x20000010 ||| p = p) (h : Fr p s x) : Fr p s (State.selectOrHold x) := by
  unfold State.selectOrHold
  with_reducible
    repeat' first
      | assumption | exact Fr.up (by decide) hp | apply State.select_parts | apply State.chgEnter_parts
      | refine Fr.ite ?_ ?_

theorem State.chgStep_parts {p : Nat} {s x : State} (hp : 0x20000010 ||| p = p) (h : Fr p s x) : Fr p s (State.chgStep x) := by
  unfold State.chgStep
  with_reducible
    repeat' first
      | assumption | exact Fr.up (by decide) hp | apply State.selectOrHold_parts
      | apply State.select_parts | apply State.chgEnter_parts | refine Fr.ite ?_ ?_ | lift_lets
      | (intro y; refine Fr.cut p s y ?_ (fun hy => ?_); (on_goal 1 => subst y); (on_goal 2 => clear_value y)) | intro y | apply Fr.mk_chg

theorem State.schedStep_parts {p : Nat} {s x : State} (hp : 0x20000010 ||| p = p) (h : Fr p s x) : Fr p s (State.schedStep x) := by
  unfold State.schedStep
  with_reducible
    repeat' first
      | assumption | exact Fr.up (by decide) hp | refine Fr.ite ?_ ?_ | lift_lets
      | (intro y; refine Fr.cut p s y ?_ (fun hy => ?_); (on_goal 1 => subst y); (on_goal 2 => clear_value y)) | intro y | apply Fr.mk_chg

theorem State.chgWrite_parts {p : Nat} {s x : State} (a1 : Bool) (hp : 0x20f0 ||| p = p) (h : Fr p s x) : Fr p s (State.chgWrite x a1) := by
  unfold State.chgWrite
  with_reducible
    repeat' first
      | assumption | exact Fr.up (by decide) hp | apply State.writeChg_parts
      | apply State.portIfNew_parts | apply State.set_parts | refine Fr.ite ?_ ?_ | lift_lets
      | (intro y; refine Fr.cut p s y ?_ (fun hy => ?_); (on_goal 1 => subst y); (on_goal 2 => clear_value y)) | intro y

theorem State.chgFault_parts {p : Nat} {s x : State} (hp : 0x200020f0 ||| p = p) (h : Fr p s x) : Fr p s (State.chgFault x) := by
  unfold State.chgFault
  with_reducible
    repeat' first
      | assumption | exact Fr.up (by decide) hp | apply State.chgEnter_parts
      | apply State.writeChg_parts

theorem State.zoneHold_parts {p : Nat} {s x : State} (hp : 0x20012010 ||| p = p) (h : Fr p s x) : Fr p s (State.zoneHold x) := by
  unfold State.zoneHold
  with_reducible
    repeat' first
      | assumption | exact Fr.up (by decide) hp | apply State.chgCond_parts | apply State.chgBit_parts
      | apply State.clearK_parts | refine Fr.ite ?_ ?_ | lift_lets
      | (intro y; refine Fr.cut p s y ?_ (fun hy => ?_); (on_goal 1 => subst y); (on_goal 2 => clear_value y)) | intro y

theorem State.overvolt_parts {p : Nat} {s x : State} (hp : 0x200120f0 ||| p = p) (h : Fr p s x) : Fr p s (State.overvolt x) := by
  unfold State.overvolt
  with_reducible
    repeat' first
      | assumption | exact Fr.up (by decide) hp | apply State.chgFault_parts
      | apply State.chgEvent_parts | refine Fr.ite ?_ ?_ | lift_lets
      | (intro y; refine Fr.cut p s y ?_ (fun hy => ?_); (on_goal 1 => subst y); (on_goal 2 => clear_value y)) | intro y

theorem State.chgEvaluate_parts {p : Nat} {s x : State} (hp : 0x200120f0 ||| p = p) (h : Fr p s x) : Fr p s (State.chgEvaluate x) := by
  unfold State.chgEvaluate
  with_reducible
    repeat' first
      | assumption | exact Fr.up (by decide) hp | apply State.overvolt_parts
      | apply State.zoneHold_parts | apply State.chgWrite_parts | apply State.schedStep_parts | apply State.chgStep_parts
      | apply State.chgEnter_parts | apply State.chgCond_parts | apply State.set_parts | refine Fr.ite ?_ ?_ | lift_lets
      | (intro y; refine Fr.cut p s y ?_ (fun hy => ?_); (on_goal 1 => subst y); (on_goal 2 => clear_value y)) | intro y

theorem State.chgModeChange_parts {p : Nat} {s x : State} (hp : 0x200020f0 ||| p = p) (h : Fr p s x) : Fr p s (State.chgModeChange x) := by
  unfold State.chgModeChange
  with_reducible
    repeat' first
      | assumption | exact Fr.up (by decide) hp | apply State.chgEnter_parts
      | apply State.writeChg_parts | refine Fr.ite ?_ ?_ | lift_lets
      | (intro y; refine Fr.cut p s y ?_ (fun hy => ?_); (on_goal 1 => subst y); (on_goal 2 => clear_value y)) | intro y

theorem State.balOff_parts {p : Nat} {s x : State} (hp : 0x20000010 ||| p = p) (h : Fr p s x) : Fr p s (State.balOff x) := by
  unfold State.balOff
  with_reducible
    repeat' first
      | assumption | exact Fr.up (by decide) hp | apply State.set_parts | lift_lets
      | (intro y; refine Fr.cut p s y ?_ (fun hy => ?_); (on_goal 1 => subst y); (on_goal 2 => clear_value y)) | intro y | apply Fr.mk_chg

theorem State.balFrame_parts {p : Nat} {s x : State} (hp : 0x20000010 ||| p = p) (h : Fr p s x) : Fr p s (State.balFrame x) := by
  unfold State.balFrame
  with_reducible
    repeat' first
      | assumption | exact Fr.up (by decide) hp | apply State.balOff_parts | apply State.set_parts
      | refine Fr.ite ?_ ?_ | lift_lets
      | (intro y; refine Fr.cut p s y ?_ (fun hy => ?_); (on_goal 1 => subst y); (on_goal 2 => clear_value y)) | intro y | apply Fr.mk_chg

theorem State.packGone_parts {p : Nat} {s x : State} (hp : 0x204020f0 ||| p = p) (h : Fr p s x) : Fr p s (State.packGone x) := by
  unfold State.packGone
  with_reducible
    repeat' first
      | assumption | exact Fr.up (by decide) hp | apply State.chgEnter_parts
      | apply State.zeroBoth_parts | apply State.clearK_parts | apply State.set_parts | refine Fr.ite ?_ ?_ | lift_lets
      | (intro y; refine Fr.cut p s y ?_ (fun hy => ?_); (on_goal 1 => subst y); (on_goal 2 => clear_value y)) | intro y
      | apply Fr.mk_hz_chg

theorem State.packInit_parts {p : Nat} {s x : State} (hp : 0x10010 ||| p = p) (h : Fr p s x) : Fr p s (State.packInit x) := by
  unfold State.packInit
  with_reducible
    repeat' first
      | assumption | exact Fr.up (by decide) hp | apply State.put_parts | refine Fr.ite ?_ ?_

theorem State.packFirst_parts {p : Nat} {s x : State} (hp : 0x10010 ||| p = p) (h : Fr p s x) : Fr p s (State.packFirst x) := by
  unfold State.packFirst
  with_reducible
    repeat' first
      | assumption | exact Fr.up (by decide) hp | apply State.packInit_parts | refine Fr.ite ?_ ?_

theorem State.newPack_parts {p : Nat} {s x : State} (hp : 0x20410010 ||| p = p) (h : Fr p s x) : Fr p s (State.newPack x) := by
  unfold State.newPack
  with_reducible
    repeat' first
      | assumption | exact Fr.up (by decide) hp | apply State.packInit_parts
      | apply State.newCycle_parts | apply State.chgEnter_parts | apply State.hzClear_parts | refine Fr.ite ?_ ?_ | lift_lets
      | (intro y; refine Fr.cut p s y ?_ (fun hy => ?_); (on_goal 1 => subst y); (on_goal 2 => clear_value y)) | intro y | apply Fr.mk_chg

end Sys2Proof.Machine
end

