-- ==== Sys2Proof/Laws/PartsLinkOps.lean ====
section
/-!
SUPPORT. PartsLinkOps.lean: the footprint of every operation of Machine/LinkOps.lean.
-/
set_option linter.unusedTactic false
set_option linter.unreachableTactic false
set_option linter.unusedVariables false
namespace Sys2Proof.Machine

theorem State.ordering_parts {p : Nat} {s x : State} (hp : 0x10 ||| p = p) (h : Fr p s x) : Fr p s (State.ordering x) := by
  unfold State.ordering
  with_reducible
    repeat' first
      | assumption | exact Fr.up (by decide) hp | apply State.set_parts | refine Fr.ite ?_ ?_
      | lift_lets | (intro y; refine Fr.cut p s y ?_ (fun hy => ?_); (on_goal 1 => subst y); (on_goal 2 => clear_value y)) | intro y

theorem State.modFab_parts {p : Nat} {s x : State} (a1 : Port) (a2 : FabPort → FabPort) (hp : 0x80000000 ||| p = p) (h : Fr p s x) : Fr p s (State.modFab x a1 a2) := by
  unfold State.modFab
  with_reducible
    repeat' first
      | assumption | exact Fr.up (by decide) hp | lift_lets
      | (intro y; refine Fr.cut p s y ?_ (fun hy => ?_); (on_goal 1 => subst y); (on_goal 2 => clear_value y)) | intro y | apply Fr.mk_fab

theorem State.fabQueue_parts {p : Nat} {s x : State} (a1 : Port) (a2 : Nat) (a3 : Frame) (hp : 0x80002010 ||| p = p) (h : Fr p s x) : Fr p s (State.fabQueue x a1 a2 a3) := by
  unfold State.fabQueue
  with_reducible
    repeat' first
      | assumption | exact Fr.up (by decide) hp | apply State.modFab_parts | apply State.raise_parts
      | apply State.tally_parts | refine Fr.ite ?_ ?_ | lift_lets
      | (intro y; refine Fr.cut p s y ?_ (fun hy => ?_); (on_goal 1 => subst y); (on_goal 2 => clear_value y)) | intro y

theorem State.fabSeq_parts {p : Nat} {s x : State} (a1 : Frame) (hp : 0x80000000 ||| p = p) (h : Fr p s x) : Fr p s (State.fabSeq x a1).2 := by
  unfold State.fabSeq
  with_reducible
    repeat' first
      | assumption | exact Fr.up (by decide) hp | lift_lets
      | (intro y; refine Fr.cut p s y ?_ (fun hy => ?_); (on_goal 1 => subst y); (on_goal 2 => clear_value y)) | intro y | split
      | (refine Fr.snd_of ?_ (by assumption)) | (refine Fr.trd_of ?_ (by assumption)) | apply Fr.mk_fab

theorem State.fabLocal_parts {p : Nat} {s x : State} (a1 : Port) (a2 : Nat) (a3 : Frame) (hp : 0x80002010 ||| p = p) (h : Fr p s x) : Fr p s (State.fabLocal x a1 a2 a3) := by
  unfold State.fabLocal
  with_reducible
    repeat' first
      | assumption | exact Fr.up (by decide) hp | apply State.fabSeq_parts | apply State.fabQueue_parts
      | split | (refine Fr.snd_of ?_ (by assumption)) | (refine Fr.trd_of ?_ (by assumption))

theorem State.modL_parts {p : Nat} {s x : State} (a1 : Port) (a2 : LinkPort → LinkPort) (hp : 0x40000000 ||| p = p) (h : Fr p s x) : Fr p s (State.modL x a1 a2) := by
  unfold State.modL
  with_reducible
    repeat' first
      | assumption | exact Fr.up (by decide) hp | apply Fr.mk_link

theorem State.linkStat_parts {p : Nat} {s x : State} (a1 : Port) (a2 : Nat) (hp : 0x10010 ||| p = p) (h : Fr p s x) : Fr p s (State.linkStat x a1 a2) := by
  unfold State.linkStat
  with_reducible
    repeat' first
      | assumption | exact Fr.up (by decide) hp | apply State.count_parts | split

theorem State.moistObj_parts {p : Nat} {s x : State} (a1 : Port) (hp : 0x10 ||| p = p) (h : Fr p s x) : Fr p s (State.moistObj x a1) := by
  unfold State.moistObj
  with_reducible
    repeat' first
      | assumption | exact Fr.up (by decide) hp | apply State.set_parts

theorem State.sendPay_parts {p : Nat} {s x : State} (a1 : Port) (a2 : List Byte) (hp : 0xc0002010 ||| p = p) (h : Fr p s x) : Fr p s (State.sendPay x a1 a2) := by
  unfold State.sendPay
  with_reducible
    repeat' first
      | assumption | exact Fr.up (by decide) hp | apply State.modL_parts | apply State.fabLocal_parts
      | refine Fr.ite ?_ ?_ | lift_lets
      | (intro y; refine Fr.cut p s y ?_ (fun hy => ?_); (on_goal 1 => subst y); (on_goal 2 => clear_value y)) | intro y

theorem State.sendMsg_parts {p : Nat} {s x : State} (a1 : Port) (a2 : Nat) (a3 : List Byte) (a4 : Bool) (hp : 0xc0002010 ||| p = p) (h : Fr p s x) : Fr p s (State.sendMsg x a1 a2 a3 a4) := by
  unfold State.sendMsg
  with_reducible
    repeat' first
      | assumption | exact Fr.up (by decide) hp | apply State.sendPay_parts | apply State.modL_parts
      | refine Fr.ite ?_ ?_ | lift_lets
      | (intro y; refine Fr.cut p s y ?_ (fun hy => ?_); (on_goal 1 => subst y); (on_goal 2 => clear_value y)) | intro y

theorem State.answer_parts {p : Nat} {s x : State} (a1 : Port) (a2 : Nat) (a3 : Nat) (a4 : List Byte) (a5 : Bool) (hp : 0xc0002010 ||| p = p) (h : Fr p s x) : Fr p s (State.answer x a1 a2 a3 a4 a5) := by
  unfold State.answer
  with_reducible
    repeat' first
      | assumption | exact Fr.up (by decide) hp | apply State.sendPay_parts | apply State.modL_parts
      | refine Fr.ite ?_ ?_ | lift_lets
      | (intro y; refine Fr.cut p s y ?_ (fun hy => ?_); (on_goal 1 => subst y); (on_goal 2 => clear_value y)) | intro y

theorem State.reject_parts {p : Nat} {s x : State} (a1 : Port) (a2 : Nat) (a3 : Nat) (hp : 0xc0002010 ||| p = p) (h : Fr p s x) : Fr p s (State.reject x a1 a2 a3) := by
  unfold State.reject
  with_reducible
    repeat' first
      | assumption | exact Fr.up (by decide) hp | apply State.answer_parts

theorem State.answered_parts {p : Nat} {s x : State} (a1 : Port) (hp : 0x40000000 ||| p = p) (h : Fr p s x) : Fr p s (State.answered x a1) := by
  unfold State.answered
  with_reducible
    repeat' first
      | assumption | exact Fr.up (by decide) hp | apply State.modL_parts

theorem State.writeContract_parts {p : Nat} {s x : State} (a1 : Port) (a2 : Terms) (a3 : Nat) (hp : 0x20f0 ||| p = p) (h : Fr p s x) : Fr p s (State.writeContract x a1 a2 a3) := by
  unfold State.writeContract
  with_reducible
    repeat' first
      | assumption | exact Fr.up (by decide) hp | apply State.portIfNew_parts | refine Fr.ite ?_ ?_

theorem State.setLink_parts {p : Nat} {s x : State} (a1 : Port) (a2 : Nat) (hp : 0x10 ||| p = p) (h : Fr p s x) : Fr p s (State.setLink x a1 a2) := by
  unfold State.setLink
  with_reducible
    repeat' first
      | assumption | exact Fr.up (by decide) hp | apply State.set_parts

theorem State.setRole_parts {p : Nat} {s x : State} (a1 : Port) (a2 : Terms) (hp : 0x10 ||| p = p) (h : Fr p s x) : Fr p s (State.setRole x a1 a2) := by
  unfold State.setRole
  with_reducible
    repeat' first
      | assumption | exact Fr.up (by decide) hp | apply State.set_parts | refine Fr.ite ?_ ?_

theorem State.linkZ_parts {p : Nat} {s x : State} (a1 : Port) (hp : 0xc0 ||| p = p) (h : Fr p s x) : Fr p s (State.linkZ x a1) := by
  unfold State.linkZ
  with_reducible
    repeat' first
      | assumption | exact Fr.up (by decide) hp | apply State.stopG_parts

theorem State.linkRun_parts {p : Nat} {s x : State} (a1 : Port) (hp : 0x40 ||| p = p) (h : Fr p s x) : Fr p s (State.linkRun x a1) := by
  unfold State.linkRun
  with_reducible
    repeat' first
      | assumption | exact Fr.up (by decide) hp | apply State.freeG_parts

theorem State.endLoss_parts {p : Nat} {s x : State} (a1 : Bool) (hp : 0x10012010 ||| p = p) (h : Fr p s x) : Fr p s (State.endLoss x a1) := by
  unfold State.endLoss
  with_reducible
    repeat' first
      | assumption | exact Fr.up (by decide) hp | apply State.sourceLoss_parts | refine Fr.ite ?_ ?_

theorem State.voidContract_parts {p : Nat} {s x : State} (a1 : Port) (hp : 0x400020f0 ||| p = p) (h : Fr p s x) : Fr p s (State.voidContract x a1) := by
  unfold State.voidContract
  with_reducible
    repeat' first
      | assumption | exact Fr.up (by decide) hp | apply State.setRole_parts
      | apply State.writeContract_parts | apply State.modL_parts | apply State.set_parts | lift_lets
      | (intro y; refine Fr.cut p s y ?_ (fun hy => ?_); (on_goal 1 => subst y); (on_goal 2 => clear_value y)) | intro y

theorem State.toNeutral_parts {p : Nat} {s x : State} (a1 : Port) (hp : 0x500120f0 ||| p = p) (h : Fr p s x) : Fr p s (State.toNeutral x a1) := by
  unfold State.toNeutral
  with_reducible
    repeat' first
      | assumption | exact Fr.up (by decide) hp | apply State.voidContract_parts
      | apply State.endLoss_parts | apply State.linkZ_parts | apply State.setLink_parts | apply State.modL_parts
      | apply State.ordering_parts | refine Fr.ite ?_ ?_ | lift_lets
      | (intro y; refine Fr.cut p s y ?_ (fun hy => ?_); (on_goal 1 => subst y); (on_goal 2 => clear_value y)) | intro y

theorem State.toHardReset_parts {p : Nat} {s x : State} (a1 : Port) (hp : 0x500120f0 ||| p = p) (h : Fr p s x) : Fr p s (State.toHardReset x a1) := by
  unfold State.toHardReset
  with_reducible
    repeat' first
      | assumption | exact Fr.up (by decide) hp | apply State.voidContract_parts
      | apply State.endLoss_parts | apply State.linkRun_parts | apply State.setLink_parts | apply State.modL_parts
      | apply State.ordering_parts | lift_lets
      | (intro y; refine Fr.cut p s y ?_ (fun hy => ?_); (on_goal 1 => subst y); (on_goal 2 => clear_value y)) | intro y

theorem State.sendHard_parts {p : Nat} {s x : State} (a1 : Port) (a2 : Nat) (hp : 0xd00120f0 ||| p = p) (h : Fr p s x) : Fr p s (State.sendHard x a1 a2) := by
  unfold State.sendHard
  with_reducible
    repeat' first
      | assumption | exact Fr.up (by decide) hp | apply State.toHardReset_parts
      | apply State.sendMsg_parts | apply State.linkStat_parts | apply State.modL_parts | apply State.raise_parts | lift_lets
      | (intro y; refine Fr.cut p s y ?_ (fun hy => ?_); (on_goal 1 => subst y); (on_goal 2 => clear_value y)) | intro y

theorem State.onHardReset_parts {p : Nat} {s x : State} (a1 : Port) (a2 : Nat) (hp : 0x500120f0 ||| p = p) (h : Fr p s x) : Fr p s (State.onHardReset x a1 a2) := by
  unfold State.onHardReset
  with_reducible
    repeat' first
      | assumption | exact Fr.up (by decide) hp | apply State.toHardReset_parts
      | apply State.linkStat_parts | apply State.raise_parts | refine Fr.ite ?_ ?_ | lift_lets
      | (intro y; refine Fr.cut p s y ?_ (fun hy => ?_); (on_goal 1 => subst y); (on_goal 2 => clear_value y)) | intro y

theorem State.toRamp_parts {p : Nat} {s x : State} (a1 : Port) (hp : 0x50012010 ||| p = p) (h : Fr p s x) : Fr p s (State.toRamp x a1) := by
  unfold State.toRamp
  with_reducible
    repeat' first
      | assumption | exact Fr.up (by decide) hp | apply State.endLoss_parts | apply State.setLink_parts
      | apply State.modL_parts | apply State.set_parts | lift_lets
      | (intro y; refine Fr.cut p s y ?_ (fun hy => ?_); (on_goal 1 => subst y); (on_goal 2 => clear_value y)) | intro y

theorem State.toDetached_parts {p : Nat} {s x : State} (a1 : Port) (hp : 0x400020f0 ||| p = p) (h : Fr p s x) : Fr p s (State.toDetached x a1) := by
  unfold State.toDetached
  with_reducible
    repeat' first
      | assumption | exact Fr.up (by decide) hp | apply State.voidContract_parts
      | apply State.linkZ_parts | apply State.setLink_parts | apply State.moistObj_parts | apply State.modL_parts
      | apply State.ordering_parts | apply State.set_parts | refine Fr.ite ?_ ?_ | lift_lets
      | (intro y; refine Fr.cut p s y ?_ (fun hy => ?_); (on_goal 1 => subst y); (on_goal 2 => clear_value y)) | intro y

theorem State.toOff_parts {p : Nat} {s x : State} (a1 : Port) (hp : 0x500120f0 ||| p = p) (h : Fr p s x) : Fr p s (State.toOff x a1) := by
  unfold State.toOff
  with_reducible
    repeat' first
      | assumption | exact Fr.up (by decide) hp | apply State.voidContract_parts
      | apply State.endLoss_parts | apply State.linkZ_parts | apply State.setLink_parts | apply State.modL_parts
      | apply State.ordering_parts | lift_lets
      | (intro y; refine Fr.cut p s y ?_ (fun hy => ?_); (on_goal 1 => subst y); (on_goal 2 => clear_value y)) | intro y

theorem State.sensedStep_parts {p : Nat} {s x : State} (a1 : Port) (hp : 0x500120f0 ||| p = p) (h : Fr p s x) : Fr p s (State.sensedStep x a1) := by
  unfold State.sensedStep
  with_reducible
    repeat' first
      | assumption | exact Fr.up (by decide) hp | apply State.toNeutral_parts | refine Fr.ite ?_ ?_
      | lift_lets | (intro y; refine Fr.cut p s y ?_ (fun hy => ?_); (on_goal 1 => subst y); (on_goal 2 => clear_value y)) | intro y

theorem State.moistChange_parts {p : Nat} {s x : State} (a1 : Port) (a2 : Bool) (hp : 0xd00120f0 ||| p = p) (h : Fr p s x) : Fr p s (State.moistChange x a1 a2) := by
  unfold State.moistChange
  with_reducible
    repeat' first
      | assumption | exact Fr.up (by decide) hp | apply State.sensedStep_parts
      | apply State.sendHard_parts | apply State.toNeutral_parts | apply State.setLink_parts | apply State.moistObj_parts
      | refine Fr.ite ?_ ?_ | lift_lets
      | (intro y; refine Fr.cut p s y ?_ (fun hy => ?_); (on_goal 1 => subst y); (on_goal 2 => clear_value y)) | intro y

theorem State.sendOffer_parts {p : Nat} {s x : State} (a1 : Port) (hp : 0xc0002010 ||| p = p) (h : Fr p s x) : Fr p s (State.sendOffer x a1) := by
  unfold State.sendOffer
  with_reducible
    repeat' first
      | assumption | exact Fr.up (by decide) hp | apply State.setLink_parts | apply State.sendMsg_parts
      | apply State.modL_parts | refine Fr.ite ?_ ?_ | lift_lets
      | (intro y; refine Fr.cut p s y ?_ (fun hy => ?_); (on_goal 1 => subst y); (on_goal 2 => clear_value y)) | intro y | split

theorem State.sendDetach_parts {p : Nat} {s x : State} (a1 : Port) (a2 : Nat) (hp : 0xc0002010 ||| p = p) (h : Fr p s x) : Fr p s (State.sendDetach x a1 a2) := by
  unfold State.sendDetach
  with_reducible
    repeat' first
      | assumption | exact Fr.up (by decide) hp | apply State.sendMsg_parts | apply State.modL_parts

theorem State.detachFree_parts {p : Nat} {s x : State} (a1 : Port) (a2 : Nat) (hp : 0xc0002010 ||| p = p) (h : Fr p s x) : Fr p s (State.detachFree x a1 a2) := by
  unfold State.detachFree
  with_reducible
    repeat' first
      | assumption | exact Fr.up (by decide) hp | apply State.sendDetach_parts | refine Fr.ite ?_ ?_

theorem State.policyContract_parts {p : Nat} {s x : State} (a1 : Port) (hp : 0xc0002010 ||| p = p) (h : Fr p s x) : Fr p s (State.policyContract x a1) := by
  unfold State.policyContract
  with_reducible
    repeat' first
      | assumption | exact Fr.up (by decide) hp | apply State.sendDetach_parts | refine Fr.ite ?_ ?_
      | lift_lets | (intro y; refine Fr.cut p s y ?_ (fun hy => ?_); (on_goal 1 => subst y); (on_goal 2 => clear_value y)) | intro y

theorem State.linkPolicy_parts {p : Nat} {s x : State} (hp : 0xc0002010 ||| p = p) (h : Fr p s x) : Fr p s (State.linkPolicy x) := by
  unfold State.linkPolicy
  with_reducible
    repeat' first
      | assumption | exact Fr.up (by decide) hp | apply State.policyContract_parts
      | refine Fr.foldl _ ?_ (fun y a hy => ?_) | refine Fr.ite ?_ ?_

theorem State.linkLeave_parts {p : Nat} {s x : State} (a1 : Port) (hp : 0xd00120f0 ||| p = p) (h : Fr p s x) : Fr p s (State.linkLeave x a1) := by
  unfold State.linkLeave
  with_reducible
    repeat' first
      | assumption | exact Fr.up (by decide) hp | apply State.detachFree_parts
      | apply State.toRamp_parts | apply State.toNeutral_parts | apply State.modL_parts | refine Fr.ite ?_ ?_ | lift_lets
      | (intro y; refine Fr.cut p s y ?_ (fun hy => ?_); (on_goal 1 => subst y); (on_goal 2 => clear_value y)) | intro y

theorem State.linkOvercast_parts {p : Nat} {s x : State} (a1 : Port) (hp : 0xd00120f0 ||| p = p) (h : Fr p s x) : Fr p s (State.linkOvercast x a1) := by
  unfold State.linkOvercast
  with_reducible
    repeat' first
      | assumption | exact Fr.up (by decide) hp | apply State.toNeutral_parts | apply State.linkZ_parts
      | apply State.sendMsg_parts | apply State.linkStat_parts | apply State.modL_parts | apply State.raise_parts | refine Fr.ite ?_ ?_
      | lift_lets | (intro y; refine Fr.cut p s y ?_ (fun hy => ?_); (on_goal 1 => subst y); (on_goal 2 => clear_value y)) | intro y

end Sys2Proof.Machine
end

