-- ==== Sys2Proof/Laws/PartsFlashOps.lean ====
section
/-!
SUPPORT. PartsFlashOps.lean: the footprint of every operation of Machine/FlashOps.lean.
-/
set_option linter.unusedTactic false
set_option linter.unreachableTactic false
set_option linter.unusedVariables false
namespace Sys2Proof.Machine

theorem State.wearReport_parts {p : Nat} {s x : State} (hp : 0x200002010 ||| p = p) (h : Fr p s x) : Fr p s (State.wearReport x) := by
  unfold State.wearReport
  with_reducible
    repeat' first
      | assumption | exact Fr.up (by decide) hp | apply State.raise_parts | refine Fr.ite ?_ ?_
      | lift_lets | (intro y; refine Fr.cut p s y ?_ (fun hy => ?_); (on_goal 1 => subst y); (on_goal 2 => clear_value y)) | intro y
      | apply Fr.mk_flash

theorem State.wearObjs_parts {p : Nat} {s x : State} (hp : 0x200002010 ||| p = p) (h : Fr p s x) : Fr p s (State.wearObjs x) := by
  unfold State.wearObjs
  with_reducible
    repeat' first
      | assumption | exact Fr.up (by decide) hp | apply State.wearReport_parts | apply State.set_parts
      | refine Fr.foldl _ ?_ (fun y a hy => ?_) | refine Fr.ite ?_ ?_ | lift_lets
      | (intro y; refine Fr.cut p s y ?_ (fun hy => ?_); (on_goal 1 => subst y); (on_goal 2 => clear_value y)) | intro y
      | apply Fr.mk_flash

theorem State.sectorFail_parts {p : Nat} {s x : State} (a1 : Nat) (a2 : Nat) (a3 : Nat) (hp : 0x200002010 ||| p = p) (h : Fr p s x) : Fr p s (State.sectorFail x a1 a2 a3) := by
  unfold State.sectorFail
  with_reducible
    repeat' first
      | assumption | exact Fr.up (by decide) hp | apply State.wearObjs_parts | apply State.raise_parts
      | refine Fr.ite ?_ ?_ | lift_lets
      | (intro y; refine Fr.cut p s y ?_ (fun hy => ?_); (on_goal 1 => subst y); (on_goal 2 => clear_value y)) | intro y
      | apply Fr.mk_flash

theorem State.flashBusy_parts {p : Nat} {s x : State} (a1 : Bool) (hp : 0x10 ||| p = p) (h : Fr p s x) : Fr p s (State.flashBusy x a1) := by
  unfold State.flashBusy
  with_reducible
    repeat' first
      | assumption | exact Fr.up (by decide) hp | apply State.set_parts | refine Fr.ite ?_ ?_

theorem State.commitStart_parts {p : Nat} {s x : State} (hp : 0x10010 ||| p = p) (h : Fr p s x) : Fr p s (State.commitStart x) := by
  unfold State.commitStart
  with_reducible
    repeat' first
      | assumption | exact Fr.up (by decide) hp | apply State.flashBusy_parts | apply State.set_parts
      | refine Fr.ite ?_ ?_ | lift_lets
      | (intro y; refine Fr.cut p s y ?_ (fun hy => ?_); (on_goal 1 => subst y); (on_goal 2 => clear_value y)) | intro y
      | apply Fr.mk_jrnl

theorem State.checkpoint_parts {p : Nat} {s x : State} (hp : 0x200000000 ||| p = p) (h : Fr p s x) : Fr p s (State.checkpoint x) := by
  unfold State.checkpoint
  with_reducible
    repeat' first
      | assumption | exact Fr.up (by decide) hp | refine Fr.foldl _ ?_ (fun y a hy => ?_) | lift_lets
      | (intro y; refine Fr.cut p s y ?_ (fun hy => ?_); (on_goal 1 => subst y); (on_goal 2 => clear_value y)) | intro y
      | apply Fr.mk_flash

theorem State.commitDone_parts {p : Nat} {s x : State} (a1 : Bool) (a2 : Nat) (hp : 0x200012010 ||| p = p) (h : Fr p s x) : Fr p s (State.commitDone x a1 a2) := by
  unfold State.commitDone
  with_reducible
    repeat' first
      | assumption | exact Fr.up (by decide) hp | apply State.checkpoint_parts
      | apply State.flashBusy_parts | apply State.sectorFail_parts | apply State.wearObjs_parts | apply State.set_parts
      | refine Fr.foldl _ ?_ (fun y a hy => ?_) | refine Fr.ite ?_ ?_ | lift_lets
      | (intro y; refine Fr.cut p s y ?_ (fun hy => ?_); (on_goal 1 => subst y); (on_goal 2 => clear_value y)) | intro y | split
      | apply Fr.mk_jrnl | apply Fr.mk_jrnl_flash

theorem State.commitTorn_parts {p : Nat} {s x : State} (hp : 0x200000000 ||| p = p) (h : Fr p s x) : Fr p s (State.commitTorn x) := by
  unfold State.commitTorn
  with_reducible
    repeat' first
      | assumption | exact Fr.up (by decide) hp | refine Fr.ite ?_ ?_ | lift_lets
      | (intro y; refine Fr.cut p s y ?_ (fun hy => ?_); (on_goal 1 => subst y); (on_goal 2 => clear_value y)) | intro y
      | apply Fr.mk_flash

theorem State.replayReport_parts {p : Nat} {s x : State} (hp : 0x200002010 ||| p = p) (h : Fr p s x) : Fr p s (State.replayReport x) := by
  unfold State.replayReport
  with_reducible
    repeat' first
      | assumption | exact Fr.up (by decide) hp | apply State.raise_parts | refine Fr.ite ?_ ?_
      | lift_lets | (intro y; refine Fr.cut p s y ?_ (fun hy => ?_); (on_goal 1 => subst y); (on_goal 2 => clear_value y)) | intro y
      | apply Fr.mk_flash

theorem State.commitAgain_parts {p : Nat} {s x : State} (a1 : Bool) (hp : 0x10010 ||| p = p) (h : Fr p s x) : Fr p s (State.commitAgain x a1) := by
  unfold State.commitAgain
  with_reducible
    repeat' first
      | assumption | exact Fr.up (by decide) hp | apply State.commitStart_parts | refine Fr.ite ?_ ?_

theorem State.commitNow_parts {p : Nat} {s x : State} (hp : 0x200012010 ||| p = p) (h : Fr p s x) : Fr p s (State.commitNow x) := by
  unfold State.commitNow
  with_reducible
    repeat' first
      | assumption | exact Fr.up (by decide) hp | apply State.commitDone_parts
      | apply State.commitStart_parts

theorem State.setBank_parts {p : Nat} {s x : State} (a1 : Nat) (a2 : Bank) (hp : 0x8000000 ||| p = p) (h : Fr p s x) : Fr p s (State.setBank x a1 a2) := by
  unfold State.setBank
  with_reducible
    repeat' first
      | assumption | exact Fr.up (by decide) hp | refine Fr.ite ?_ ?_ | lift_lets
      | (intro y; refine Fr.cut p s y ?_ (fun hy => ?_); (on_goal 1 => subst y); (on_goal 2 => clear_value y)) | intro y
      | apply Fr.mk_tabs

theorem State.bankGens_parts {p : Nat} {s x : State} (hp : 0x10 ||| p = p) (h : Fr p s x) : Fr p s (State.bankGens x) := by
  unfold State.bankGens
  with_reducible
    repeat' first
      | assumption | exact Fr.up (by decide) hp | apply State.set_parts

theorem State.writeBankF_parts {p : Nat} {s x : State} (a1 : Nat) (a2 : Nat) (hp : 0x208002010 ||| p = p) (h : Fr p s x) : Fr p s (State.writeBankF x a1 a2) := by
  unfold State.writeBankF
  with_reducible
    repeat' first
      | assumption | exact Fr.up (by decide) hp | apply State.bankGens_parts
      | apply State.wearObjs_parts | refine Fr.ite ?_ ?_ | split | lift_lets
      | (intro y; refine Fr.cut p s y ?_ (fun hy => ?_); (on_goal 1 => subst y); (on_goal 2 => clear_value y)) | intro y
      | apply Fr.mk_tabs | apply Fr.mk_flash

theorem State.emptyKind_parts {p : Nat} {s x : State} (a1 : Nat) (a2 : Nat) (hp : 0x8000010 ||| p = p) (h : Fr p s x) : Fr p s (State.emptyKind x a1 a2) := by
  unfold State.emptyKind
  with_reducible
    repeat' first
      | assumption | exact Fr.up (by decide) hp | apply State.setBank_parts | apply State.set_parts
      | refine Fr.ite ?_ ?_ | lift_lets
      | (intro y; refine Fr.cut p s y ?_ (fun hy => ?_); (on_goal 1 => subst y); (on_goal 2 => clear_value y)) | intro y
      | apply Fr.mk_tabs

theorem State.bankWritten_parts {p : Nat} {s x : State} (hp : 0x208002010 ||| p = p) (h : Fr p s x) : Fr p s (State.bankWritten x) := by
  unfold State.bankWritten
  with_reducible
    repeat' first
      | assumption | exact Fr.up (by decide) hp | apply State.flashBusy_parts
      | apply State.wearObjs_parts | refine Fr.ite ?_ ?_ | lift_lets
      | (intro y; refine Fr.cut p s y ?_ (fun hy => ?_); (on_goal 1 => subst y); (on_goal 2 => clear_value y)) | intro y | split
      | apply Fr.mk_tabs_flash

theorem State.otpObjects_parts {p : Nat} {s x : State} (hp : 0x10 ||| p = p) (h : Fr p s x) : Fr p s (State.otpObjects x) := by
  unfold State.otpObjects
  with_reducible
    repeat' first
      | assumption | exact Fr.up (by decide) hp | apply State.set_parts
      | refine Fr.foldl _ ?_ (fun y a hy => ?_) | refine Fr.ite ?_ ?_ | lift_lets
      | (intro y; refine Fr.cut p s y ?_ (fun hy => ?_); (on_goal 1 => subst y); (on_goal 2 => clear_value y)) | intro y

theorem State.otpSense_parts {p : Nat} {s x : State} (a1 : Nat) (hp : 0x22010 ||| p = p) (h : Fr p s x) : Fr p s (State.otpSense x a1) := by
  unfold State.otpSense
  with_reducible
    repeat' first
      | assumption | exact Fr.up (by decide) hp | apply State.otpObjects_parts
      | apply State.clearK_parts | apply State.raise_parts | apply State.set_parts | refine Fr.foldl _ ?_ (fun y a hy => ?_)
      | refine Fr.ite ?_ ?_ | lift_lets
      | (intro y; refine Fr.cut p s y ?_ (fun hy => ?_); (on_goal 1 => subst y); (on_goal 2 => clear_value y)) | intro y | apply Fr.mk_otp

theorem State.modArea_parts {p : Nat} {s x : State} (a1 : Nat) (a2 : OtpArea → OtpArea) (hp : 0x20000 ||| p = p) (h : Fr p s x) : Fr p s (State.modArea x a1 a2) := by
  unfold State.modArea
  with_reducible
    repeat' first
      | assumption | exact Fr.up (by decide) hp | lift_lets
      | (intro y; refine Fr.cut p s y ?_ (fun hy => ?_); (on_goal 1 => subst y); (on_goal 2 => clear_value y)) | intro y | apply Fr.mk_otp

theorem State.someBits_parts {p : Nat} {s x : State} (l : List Byte) (hp : 0x8 ||| p = p) (h : Fr p s x) : Fr p s (x.someBits l).2 := by
  induction l generalizing x with
  | nil => exact h
  | cons b l ih => exact ih (State.draw_parts 8 (Fr.up rfl hp) h)

theorem State.otpBreak_parts {p : Nat} {s x : State} (hp : 0x20008 ||| p = p) (h : Fr p s x) : Fr p s (State.otpBreak x) := by
  unfold State.otpBreak
  with_reducible
    repeat' first
      | assumption | exact Fr.up (by decide) hp | apply State.someBits_parts
      | apply State.modArea_parts | apply State.draw_parts | refine Fr.ite ?_ ?_ | refine Fr.ite_snd ?_ ?_ | refine Fr.ite_trd ?_ ?_
      | lift_lets | (intro y; refine Fr.cut p s y ?_ (fun hy => ?_); (on_goal 1 => subst y); (on_goal 2 => clear_value y)) | intro y
      | split | (refine Fr.snd_of ?_ (by assumption)) | (refine Fr.trd_of ?_ (by assumption)) | apply Fr.mk_otp

end Sys2Proof.Machine
end

