-- ==== Sys2Proof/Laws/PartsModeOps.lean ====
section
/-!
SUPPORT. PartsModeOps.lean: the footprint of every operation of Machine/ModeOps.lean.
-/
set_option linter.unusedTactic false
set_option linter.unreachableTactic false
set_option linter.unusedVariables false
namespace Sys2Proof.Machine

theorem State.orderMode_parts {p : Nat} {s x : State} (hp : 0x20f0 ||| p = p) (h : Fr p s x) : Fr p s (State.orderMode x) := by
  unfold State.orderMode
  with_reducible
    repeat' first
      | assumption | exact Fr.up (by decide) hp | apply State.portIfNew_parts | refine Fr.ite ?_ ?_
      | lift_lets | (intro y; refine Fr.cut p s y ?_ (fun hy => ?_); (on_goal 1 => subst y); (on_goal 2 => clear_value y)) | intro y

theorem State.hzMode_parts {p : Nat} {s x : State} (hp : 0x10 ||| p = p) (h : Fr p s x) : Fr p s (State.hzMode x) := by
  unfold State.hzMode
  with_reducible
    repeat' first
      | assumption | exact Fr.up (by decide) hp | apply State.set_parts | refine Fr.ite ?_ ?_

theorem State.setMode_parts {p : Nat} {s x : State} (a1 : Nat) (a2 : Nat) (hp : 0x20204020f0 ||| p = p) (h : Fr p s x) : Fr p s (State.setMode x a1 a2) := by
  unfold State.setMode
  with_reducible
    repeat' first
      | assumption | exact Fr.up (by decide) hp | apply State.hzMode_parts
      | apply State.orderMode_parts | apply State.balOff_parts | apply State.chgModeChange_parts | apply State.probeAbandon_parts
      | apply State.set_parts | refine Fr.ite ?_ ?_ | lift_lets
      | (intro y; refine Fr.cut p s y ?_ (fun hy => ?_); (on_goal 1 => subst y); (on_goal 2 => clear_value y)) | intro y
      | apply Fr.mk_note

theorem State.groupsOff_parts {p : Nat} {s x : State} (hp : 0x4010f0 ||| p = p) (h : Fr p s x) : Fr p s (State.groupsOff x) := by
  unfold State.groupsOff
  with_reducible
    repeat' first
      | assumption | exact Fr.up (by decide) hp | apply State.srcState_parts | apply State.stopG_parts
      | refine Fr.foldl _ ?_ (fun y a hy => ?_) | lift_lets
      | (intro y; refine Fr.cut p s y ?_ (fun hy => ?_); (on_goal 1 => subst y); (on_goal 2 => clear_value y)) | intro y
      | apply Fr.mk_core_src

theorem State.coreOff_parts {p : Nat} {s x : State} (hp : 0x84e0 ||| p = p) (h : Fr p s x) : Fr p s (State.coreOff x) := by
  unfold State.coreOff
  with_reducible
    repeat' first
      | assumption | exact Fr.up (by decide) hp | apply State.allG_parts | lift_lets
      | (intro y; refine Fr.cut p s y ?_ (fun hy => ?_); (on_goal 1 => subst y); (on_goal 2 => clear_value y)) | intro y | apply Fr.mk_ph
      | apply Fr.mk_core_strat_spd

theorem State.dropRequests_parts {p : Nat} {s x : State} (hp : 0x810 ||| p = p) (h : Fr p s x) : Fr p s (State.dropRequests x) := by
  unfold State.dropRequests
  with_reducible
    repeat' first
      | assumption | exact Fr.up (by decide) hp | apply State.set_parts | lift_lets
      | (intro y; refine Fr.cut p s y ?_ (fun hy => ?_); (on_goal 1 => subst y); (on_goal 2 => clear_value y)) | intro y
      | apply Fr.mk_mode

theorem State.freeLocks_parts {p : Nat} {s x : State} (hp : 0x10 ||| p = p) (h : Fr p s x) : Fr p s (State.freeLocks x) := by
  unfold State.freeLocks
  with_reducible
    repeat' first
      | assumption | exact Fr.up (by decide) hp | apply State.set_parts
      | refine Fr.foldl _ ?_ (fun y a hy => ?_)

theorem State.socMirror_parts {p : Nat} {s x : State} (hp : 0x100 ||| p = p) (h : Fr p s x) : Fr p s (State.socMirror x) := by
  unfold State.socMirror
  with_reducible
    repeat' first
      | assumption | exact Fr.up (by decide) hp | lift_lets
      | (intro y; refine Fr.cut p s y ?_ (fun hy => ?_); (on_goal 1 => subst y); (on_goal 2 => clear_value y)) | intro y | apply Fr.mk_aon

theorem State.mirror_parts {p : Nat} {s x : State} (hp : 0x10 ||| p = p) (h : Fr p s x) : Fr p s (State.mirror x) := by
  unfold State.mirror
  with_reducible
    repeat' first
      | assumption | exact Fr.up (by decide) hp | apply State.set_parts

theorem State.modCan_parts {p : Nat} {s x : State} (a1 : CanBus) (a2 : Can → Can) (hp : 0x1000000000 ||| p = p) (h : Fr p s x) : Fr p s (State.modCan x a1 a2) := by
  unfold State.modCan
  with_reducible
    repeat' first
      | assumption | exact Fr.up (by decide) hp | apply Fr.mk_can

theorem State.setCanState_parts {p : Nat} {s x : State} (a1 : CanBus) (a2 : Nat) (hp : 0x10 ||| p = p) (h : Fr p s x) : Fr p s (State.setCanState x a1 a2) := by
  unfold State.setCanState
  with_reducible
    repeat' first
      | assumption | exact Fr.up (by decide) hp | apply State.set_parts

theorem State.canOff_parts {p : Nat} {s x : State} (a1 : CanBus) (hp : 0x1000002010 ||| p = p) (h : Fr p s x) : Fr p s (State.canOff x a1) := by
  unfold State.canOff
  with_reducible
    repeat' first
      | assumption | exact Fr.up (by decide) hp | apply State.setCanState_parts
      | apply State.modCan_parts | apply State.clearBy_parts | apply State.set_parts | lift_lets
      | (intro y; refine Fr.cut p s y ?_ (fun hy => ?_); (on_goal 1 => subst y); (on_goal 2 => clear_value y)) | intro y

theorem State.fabOff_parts {p : Nat} {s x : State} (hp : 0x80002010 ||| p = p) (h : Fr p s x) : Fr p s (State.fabOff x) := by
  unfold State.fabOff
  with_reducible
    repeat' first
      | assumption | exact Fr.up (by decide) hp | apply State.clearK_parts | apply State.set_parts
      | refine Fr.foldl _ ?_ (fun y a hy => ?_) | lift_lets
      | (intro y; refine Fr.cut p s y ?_ (fun hy => ?_); (on_goal 1 => subst y); (on_goal 2 => clear_value y)) | intro y | apply Fr.mk_fab

theorem State.linksOff_parts {p : Nat} {s x : State} (hp : 0x500120f0 ||| p = p) (h : Fr p s x) : Fr p s (State.linksOff x) := by
  unfold State.linksOff
  with_reducible
    repeat' first
      | assumption | exact Fr.up (by decide) hp | apply State.toOff_parts | refine Fr.ite ?_ ?_

theorem State.shellOff_parts {p : Nat} {s x : State} (hp : 0x19d04dadf0 ||| p = p) (h : Fr p s x) : Fr p s (State.shellOff x) := by
  unfold State.shellOff
  with_reducible
    repeat' first
      | assumption | exact Fr.up (by decide) hp | apply State.linksOff_parts | apply State.fabOff_parts
      | apply State.canOff_parts | apply State.mirror_parts | apply State.coreOff_parts | apply State.measStop_parts
      | apply State.set_parts | lift_lets
      | (intro y; refine Fr.cut p s y ?_ (fun hy => ?_); (on_goal 1 => subst y); (on_goal 2 => clear_value y)) | intro y
      | apply Fr.mk_ring | apply Fr.mk_aon_mode_hz_env_seqs_srv

theorem State.enterStorage_parts {p : Nat} {s x : State} (a1 : Nat) (hp : 0x39f04dbdf0 ||| p = p) (h : Fr p s x) : Fr p s (State.enterStorage x a1) := by
  unfold State.enterStorage
  with_reducible
    repeat' first
      | assumption | exact Fr.up (by decide) hp | apply State.shellOff_parts
      | apply State.dropRequests_parts | apply State.groupsOff_parts | apply State.setMode_parts | apply State.set_parts | lift_lets
      | (intro y; refine Fr.cut p s y ?_ (fun hy => ?_); (on_goal 1 => subst y); (on_goal 2 => clear_value y)) | intro y

theorem State.exhausted_parts {p : Nat} {s x : State} (a1 : Int) (hp : 0x3bf04dbdf0 ||| p = p) (h : Fr p s x) : Fr p s (State.exhausted x a1) := by
  unfold State.exhausted
  with_reducible
    repeat' first
      | assumption | exact Fr.up (by decide) hp | apply State.enterStorage_parts
      | apply State.commitNow_parts | apply State.raise_parts | refine Fr.ite ?_ ?_

theorem State.exhaustedNow_parts {p : Nat} {s x : State} (hp : 0x3bf04dbdf0 ||| p = p) (h : Fr p s x) : Fr p s (State.exhaustedNow x) := by
  unfold State.exhaustedNow
  with_reducible
    repeat' first
      | assumption | exact Fr.up (by decide) hp | apply State.exhausted_parts | split

theorem State.packRemoved_parts {p : Nat} {s x : State} (a1 : Nat) (hp : 0x3bf04dbdf0 ||| p = p) (h : Fr p s x) : Fr p s (State.packRemoved x a1) := by
  unfold State.packRemoved
  with_reducible
    repeat' first
      | assumption | exact Fr.up (by decide) hp | apply State.exhaustedNow_parts
      | apply State.packGone_parts | apply State.chgEvent_parts | apply State.sourceLoss_parts | refine Fr.ite ?_ ?_ | lift_lets
      | (intro y; refine Fr.cut p s y ?_ (fun hy => ?_); (on_goal 1 => subst y); (on_goal 2 => clear_value y)) | intro y

theorem State.packSeen_parts {p : Nat} {s x : State} (hp : 0x3bf04dbdf0 ||| p = p) (h : Fr p s x) : Fr p s (State.packSeen x) := by
  unfold State.packSeen
  with_reducible
    repeat' first
      | assumption | exact Fr.up (by decide) hp | apply State.packRemoved_parts
      | apply State.cutoff_parts | apply State.set_parts | refine Fr.ite ?_ ?_ | lift_lets
      | (intro y; refine Fr.cut p s y ?_ (fun hy => ?_); (on_goal 1 => subst y); (on_goal 2 => clear_value y)) | intro y | split
      | apply Fr.mk_chg

theorem State.exhaustedStratus_parts {p : Nat} {s x : State} (a1 : Int) (hp : 0x39f04dbdf0 ||| p = p) (h : Fr p s x) : Fr p s (State.exhaustedStratus x a1) := by
  unfold State.exhaustedStratus
  with_reducible
    repeat' first
      | assumption | exact Fr.up (by decide) hp | apply State.enterStorage_parts | refine Fr.ite ?_ ?_

theorem State.exhaustedStratusNow_parts {p : Nat} {s x : State} (hp : 0x39f04dbdf0 ||| p = p) (h : Fr p s x) : Fr p s (State.exhaustedStratusNow x) := by
  unfold State.exhaustedStratusNow
  with_reducible
    repeat' first
      | assumption | exact Fr.up (by decide) hp | apply State.exhaustedStratus_parts | split

theorem State.bringUp_parts {p : Nat} {s x : State} (a1 : Nat) (a2 : Nat) (a3 : Nat) (hp : 0x110 ||| p = p) (h : Fr p s x) : Fr p s (State.bringUp x a1 a2 a3) := by
  unfold State.bringUp
  with_reducible
    repeat' first
      | assumption | exact Fr.up (by decide) hp | apply State.set_parts | lift_lets
      | (intro y; refine Fr.cut p s y ?_ (fun hy => ?_); (on_goal 1 => subst y); (on_goal 2 => clear_value y)) | intro y | apply Fr.mk_aon

theorem State.wakeUp_parts {p : Nat} {s x : State} (a1 : Nat) (hp : 0x4000000910 ||| p = p) (h : Fr p s x) : Fr p s (State.wakeUp x a1) := by
  unfold State.wakeUp
  with_reducible
    repeat' first
      | assumption | exact Fr.up (by decide) hp | apply State.bringUp_parts | lift_lets
      | (intro y; refine Fr.cut p s y ?_ (fun hy => ?_); (on_goal 1 => subst y); (on_goal 2 => clear_value y)) | intro y
      | apply Fr.mk_mode_lin

theorem State.wakeEvent_parts {p : Nat} {s x : State} (a1 : Nat) (hp : 0x4000000910 ||| p = p) (h : Fr p s x) : Fr p s (State.wakeEvent x a1) := by
  unfold State.wakeEvent
  with_reducible
    repeat' first
      | assumption | exact Fr.up (by decide) hp | apply State.wakeUp_parts | refine Fr.ite ?_ ?_
      | lift_lets | (intro y; refine Fr.cut p s y ?_ (fun hy => ?_); (on_goal 1 => subst y); (on_goal 2 => clear_value y)) | intro y
      | apply Fr.mk_aon

theorem State.classStart_parts {p : Nat} {s x : State} (hp : 0x4010d0 ||| p = p) (h : Fr p s x) : Fr p s (State.classStart x) := by
  unfold State.classStart
  with_reducible
    repeat' first
      | assumption | exact Fr.up (by decide) hp | apply State.srcState_parts | apply State.stopG_parts
      | refine Fr.ite ?_ ?_ | lift_lets
      | (intro y; refine Fr.cut p s y ?_ (fun hy => ?_); (on_goal 1 => subst y); (on_goal 2 => clear_value y)) | intro y | apply Fr.mk_src

theorem State.stepNine_parts {p : Nat} {s x : State} (a1 : Nat) (hp : 0x4010d0 ||| p = p) (h : Fr p s x) : Fr p s (State.stepNine x a1) := by
  unfold State.stepNine
  with_reducible
    repeat' first
      | assumption | exact Fr.up (by decide) hp | apply State.classStart_parts
      | apply State.freeG_parts | apply State.set_parts | refine Fr.ite ?_ ?_ | lift_lets
      | (intro y; refine Fr.cut p s y ?_ (fun hy => ?_); (on_goal 1 => subst y); (on_goal 2 => clear_value y)) | intro y

theorem State.abandonImage_parts {p : Nat} {s x : State} (a1 : List Byte) (hp : 0x8000010 ||| p = p) (h : Fr p s x) : Fr p s (State.abandonImage x a1) := by
  unfold State.abandonImage
  with_reducible
    repeat' first
      | assumption | exact Fr.up (by decide) hp | apply State.emptyKind_parts | refine Fr.ite ?_ ?_

theorem State.downloadFail_parts {p : Nat} {s x : State} (a1 : Bool) (hp : 0x8008002010 ||| p = p) (h : Fr p s x) : Fr p s (State.downloadFail x a1) := by
  unfold State.downloadFail
  with_reducible
    repeat' first
      | assumption | exact Fr.up (by decide) hp | apply State.abandonImage_parts
      | apply State.raise_parts | apply State.set_parts | refine Fr.ite ?_ ?_ | lift_lets
      | (intro y; refine Fr.cut p s y ?_ (fun hy => ?_); (on_goal 1 => subst y); (on_goal 2 => clear_value y)) | intro y | split
      | apply Fr.mk_uds

theorem State.dropTransfer_parts {p : Nat} {s x : State} (a1 : Transfer) (hp : 0x808002010 ||| p = p) (h : Fr p s x) : Fr p s (State.dropTransfer x a1) := by
  unfold State.dropTransfer
  with_reducible
    repeat' first
      | assumption | exact Fr.up (by decide) hp | apply State.abandonImage_parts
      | apply State.raise_parts | apply State.set_parts | refine Fr.ite ?_ ?_ | lift_lets
      | (intro y; refine Fr.cut p s y ?_ (fun hy => ?_); (on_goal 1 => subst y); (on_goal 2 => clear_value y)) | intro y | apply Fr.mk_srv

theorem State.sessionChange_parts {p : Nat} {s x : State} (a1 : Nat) (hp : 0x8808002010 ||| p = p) (h : Fr p s x) : Fr p s (State.sessionChange x a1) := by
  unfold State.sessionChange
  with_reducible
    repeat' first
      | assumption | exact Fr.up (by decide) hp | apply State.dropTransfer_parts
      | apply State.downloadFail_parts | apply State.set_parts | refine Fr.foldl _ ?_ (fun y a hy => ?_) | lift_lets
      | (intro y; refine Fr.cut p s y ?_ (fun hy => ?_); (on_goal 1 => subst y); (on_goal 2 => clear_value y)) | intro y | apply Fr.mk_uds

theorem State.freeLocksT_parts {p : Nat} {s x : State} (hp : 0x10 ||| p = p) (h : Fr p s x) : Fr p s (State.freeLocksT x) := by
  unfold State.freeLocksT
  with_reducible
    repeat' first
      | assumption | exact Fr.up (by decide) hp | apply State.set_parts
      | refine Fr.foldl _ ?_ (fun y a hy => ?_) | refine Fr.ite ?_ ?_

theorem State.sessionDefault_parts {p : Nat} {s x : State} (hp : 0x8808002010 ||| p = p) (h : Fr p s x) : Fr p s (State.sessionDefault x) := by
  unfold State.sessionDefault
  with_reducible
    repeat' first
      | assumption | exact Fr.up (by decide) hp | apply State.freeLocksT_parts
      | apply State.sessionChange_parts | apply State.set_parts | refine Fr.ite ?_ ?_

theorem State.parkStart_parts {p : Nat} {s x : State} (a1 : Nat) (hp : 0xf04128f0 ||| p = p) (h : Fr p s x) : Fr p s (State.parkStart x a1) := by
  unfold State.parkStart
  with_reducible
    repeat' first
      | assumption | exact Fr.up (by decide) hp | apply State.linkLeave_parts
      | apply State.chgEnter_parts | apply State.writeChg_parts | apply State.probeAbandon_parts | refine Fr.ite ?_ ?_ | lift_lets
      | (intro y; refine Fr.cut p s y ?_ (fun hy => ?_); (on_goal 1 => subst y); (on_goal 2 => clear_value y)) | intro y
      | apply Fr.mk_mode

theorem State.parkAbort_parts {p : Nat} {s x : State} (hp : 0x402810 ||| p = p) (h : Fr p s x) : Fr p s (State.parkAbort x) := by
  unfold State.parkAbort
  with_reducible
    repeat' first
      | assumption | exact Fr.up (by decide) hp | apply State.epochDiscard_parts | refine Fr.ite ?_ ?_
      | lift_lets | (intro y; refine Fr.cut p s y ?_ (fun hy => ?_); (on_goal 1 => subst y); (on_goal 2 => clear_value y)) | intro y
      | apply Fr.mk_mode

theorem State.toService_parts {p : Nat} {s x : State} (a1 : Nat) (hp : 0x20f04120f0 ||| p = p) (h : Fr p s x) : Fr p s (State.toService x a1) := by
  unfold State.toService
  with_reducible
    repeat' first
      | assumption | exact Fr.up (by decide) hp | apply State.setMode_parts
      | apply State.linkLeave_parts

theorem State.serviceExit_parts {p : Nat} {s x : State} (hp : 0x4011d0 ||| p = p) (h : Fr p s x) : Fr p s (State.serviceExit x) := by
  unfold State.serviceExit
  with_reducible
    repeat' first
      | assumption | exact Fr.up (by decide) hp | apply State.stepNine_parts
      | apply State.bringUp_parts | refine Fr.ite ?_ ?_ | lift_lets
      | (intro y; refine Fr.cut p s y ?_ (fun hy => ?_); (on_goal 1 => subst y); (on_goal 2 => clear_value y)) | intro y

theorem State.actIdle_parts {p : Nat} {s x : State} (a1 : Nat) (a2 : Nat) (hp : 0x20f04128f0 ||| p = p) (h : Fr p s x) : Fr p s (State.actIdle x a1 a2) := by
  unfold State.actIdle
  with_reducible
    repeat' first
      | assumption | exact Fr.up (by decide) hp | apply State.toService_parts
      | apply State.parkAbort_parts | apply State.parkStart_parts | apply State.setMode_parts | refine Fr.ite ?_ ?_ | lift_lets
      | (intro y; refine Fr.cut p s y ?_ (fun hy => ?_); (on_goal 1 => subst y); (on_goal 2 => clear_value y)) | intro y

theorem State.act_parts {p : Nat} {s x : State} (hp : 0x39f04dbdf0 ||| p = p) (h : Fr p s x) : Fr p s (State.act x) := by
  unfold State.act
  with_reducible
    repeat' first
      | assumption | exact Fr.up (by decide) hp | apply State.actIdle_parts
      | apply State.serviceExit_parts | apply State.toService_parts | apply State.parkStart_parts | apply State.enterStorage_parts
      | apply State.setMode_parts | refine Fr.ite ?_ ?_ | lift_lets
      | (intro y; refine Fr.cut p s y ?_ (fun hy => ?_); (on_goal 1 => subst y); (on_goal 2 => clear_value y)) | intro y
      | apply Fr.mk_mode

theorem State.resolve_parts {p : Nat} {s x : State} (hp : 0x39f04dbdf0 ||| p = p) (h : Fr p s x) : Fr p s (State.resolve x) := by
  unfold State.resolve
  with_reducible
    repeat' first
      | assumption | exact Fr.up (by decide) hp | apply State.act_parts | apply State.set_parts
      | refine Fr.ite ?_ ?_ | lift_lets
      | (intro y; refine Fr.cut p s y ?_ (fun hy => ?_); (on_goal 1 => subst y); (on_goal 2 => clear_value y)) | intro y
      | apply Fr.mk_mode

theorem State.actStored_parts {p : Nat} {s x : State} (hp : 0x39f04dbdf0 ||| p = p) (h : Fr p s x) : Fr p s (State.actStored x) := by
  unfold State.actStored
  with_reducible
    repeat' first
      | assumption | exact Fr.up (by decide) hp | apply State.act_parts | apply State.set_parts
      | lift_lets | (intro y; refine Fr.cut p s y ?_ (fun hy => ?_); (on_goal 1 => subst y); (on_goal 2 => clear_value y)) | intro y
      | apply Fr.mk_mode

theorem State.skipRecords_parts {p : Nat} {s x : State} (hp : 0x6000 ||| p = p) (h : Fr p s x) : Fr p s (State.skipRecords x) := by
  unfold State.skipRecords
  with_reducible
    repeat' first
      | assumption | exact Fr.up (by decide) hp | lift_lets
      | (intro y; refine Fr.cut p s y ?_ (fun hy => ?_); (on_goal 1 => subst y); (on_goal 2 => clear_value y)) | intro y
      | apply Fr.mk_col_recs

theorem State.classAbandon_parts {p : Nat} {s x : State} (hp : 0x1040 ||| p = p) (h : Fr p s x) : Fr p s (State.classAbandon x) := by
  unfold State.classAbandon
  with_reducible
    repeat' first
      | assumption | exact Fr.up (by decide) hp | apply State.modG_parts | refine Fr.ite ?_ ?_
      | lift_lets | (intro y; refine Fr.cut p s y ?_ (fun hy => ?_); (on_goal 1 => subst y); (on_goal 2 => clear_value y)) | intro y
      | apply Fr.mk_src

theorem State.commitBack_parts {p : Nat} {s x : State} (hp : 0x10000 ||| p = p) (h : Fr p s x) : Fr p s (State.commitBack x) := by
  unfold State.commitBack
  with_reducible
    repeat' first
      | assumption | exact Fr.up (by decide) hp | refine Fr.ite ?_ ?_ | lift_lets
      | (intro y; refine Fr.cut p s y ?_ (fun hy => ?_); (on_goal 1 => subst y); (on_goal 2 => clear_value y)) | intro y
      | apply Fr.mk_jrnl

theorem State.enginesDrop_parts {p : Nat} {s x : State} (hp : 0x118000040 ||| p = p) (h : Fr p s x) : Fr p s (State.enginesDrop x) := by
  unfold State.enginesDrop
  with_reducible
    repeat' first
      | assumption | exact Fr.up (by decide) hp | apply State.allG_parts | lift_lets
      | (intro y; refine Fr.cut p s y ?_ (fun hy => ?_); (on_goal 1 => subst y); (on_goal 2 => clear_value y)) | intro y
      | apply Fr.mk_tabs_env_seqs

theorem State.absentMode_parts {p : Nat} {s x : State} (hp : 0x20204128f0 ||| p = p) (h : Fr p s x) : Fr p s (State.absentMode x) := by
  unfold State.absentMode
  with_reducible
    repeat' first
      | assumption | exact Fr.up (by decide) hp | apply State.setMode_parts | apply State.count_parts
      | apply State.set_parts | refine Fr.ite ?_ ?_ | lift_lets
      | (intro y; refine Fr.cut p s y ?_ (fun hy => ?_); (on_goal 1 => subst y); (on_goal 2 => clear_value y)) | intro y
      | apply Fr.mk_mode

theorem State.shellAbsent_parts {p : Nat} {s x : State} (a1 : Bool) (hp : 0xa978497cf0 ||| p = p) (h : Fr p s x) : Fr p s (State.shellAbsent x a1) := by
  unfold State.shellAbsent
  with_reducible
    repeat' first
      | assumption | exact Fr.up (by decide) hp | apply State.absentMode_parts
      | apply State.enginesDrop_parts | apply State.commitBack_parts | apply State.classAbandon_parts | apply State.skipRecords_parts
      | apply State.sessionDefault_parts | apply State.mirror_parts | apply State.freeLocks_parts | apply State.epochDiscard_parts
      | apply State.set_parts | refine Fr.ite ?_ ?_ | lift_lets
      | (intro y; refine Fr.cut p s y ?_ (fun hy => ?_); (on_goal 1 => subst y); (on_goal 2 => clear_value y)) | intro y
      | apply Fr.mk_strat | apply Fr.mk_core_strat_mode_ring_hz_link

theorem State.setOvercast_parts {p : Nat} {s x : State} (hp : 0x40008001e0 ||| p = p) (h : Fr p s x) : Fr p s (State.setOvercast x) := by
  unfold State.setOvercast
  with_reducible
    repeat' first
      | assumption | exact Fr.up (by decide) hp | apply State.keepWord_parts | apply State.stopG_parts
      | refine Fr.ite ?_ ?_ | lift_lets
      | (intro y; refine Fr.cut p s y ?_ (fun hy => ?_); (on_goal 1 => subst y); (on_goal 2 => clear_value y)) | intro y
      | apply Fr.mk_aon_hour | apply Fr.mk_lin

theorem State.overcastShell_parts {p : Nat} {s x : State} (hp : 0x89d84128f0 ||| p = p) (h : Fr p s x) : Fr p s (State.overcastShell x) := by
  unfold State.overcastShell
  with_reducible
    repeat' first
      | assumption | exact Fr.up (by decide) hp | apply State.sessionDefault_parts
      | apply State.freeLocks_parts | apply State.commitStart_parts | apply State.linkOvercast_parts | apply State.epochDiscard_parts
      | apply State.set_parts | refine Fr.foldl _ ?_ (fun y a hy => ?_) | refine Fr.ite ?_ ?_ | lift_lets
      | (intro y; refine Fr.cut p s y ?_ (fun hy => ?_); (on_goal 1 => subst y); (on_goal 2 => clear_value y)) | intro y
      | apply Fr.mk_mode | apply Fr.mk_tabs | apply Fr.mk_seqs

theorem State.failover_parts {p : Nat} {s x : State} (a1 : Nat) (hp : 0x400000000 ||| p = p) (h : Fr p s x) : Fr p s (State.failover x a1) := by
  unfold State.failover
  with_reducible
    repeat' first
      | assumption | exact Fr.up (by decide) hp | lift_lets
      | (intro y; refine Fr.cut p s y ?_ (fun hy => ?_); (on_goal 1 => subst y); (on_goal 2 => clear_value y)) | intro y | apply Fr.mk_wd

theorem State.overcastStep_parts {p : Nat} {s x : State} (hp : 0xadf84129f0 ||| p = p) (h : Fr p s x) : Fr p s (State.overcastStep x) := by
  unfold State.overcastStep
  with_reducible
    repeat' first
      | assumption | exact Fr.up (by decide) hp | apply State.failover_parts
      | apply State.overcastShell_parts | apply State.setMode_parts | apply State.stopG_parts | apply State.set_parts
      | refine Fr.foldl _ ?_ (fun y a hy => ?_) | refine Fr.ite ?_ ?_ | refine Fr.ite_snd ?_ ?_ | refine Fr.ite_trd ?_ ?_
      | refine fun y hy => ?_ | lift_lets
      | (intro y; refine Fr.cut p s y ?_ (fun hy => ?_); (on_goal 1 => subst y); (on_goal 2 => clear_value y)) | intro y | split
      | (refine Fr.snd_of ?_ (by assumption)) | (refine Fr.trd_of ?_ (by assumption)) | apply Fr.mk_aon | apply Fr.mk_core_aon
      | apply Fr.mk_aon_col_chg

end Sys2Proof.Machine
end

