-- ==== Sys2Proof/Laws/PartsFaultOps.lean ====
section
/-!
SUPPORT. PartsFaultOps.lean: the footprint of every operation of Machine/FaultOps.lean.
-/
set_option linter.unusedTactic false
set_option linter.unreachableTactic false
set_option linter.unusedVariables false
namespace Sys2Proof.Machine

theorem State.closeCapture_parts {p : Nat} {s x : State} (a1 : Bool) (hp : 0x200192010 ||| p = p) (h : Fr p s x) : Fr p s (State.closeCapture x a1) := by
  unfold State.closeCapture
  with_reducible
    repeat' first
      | assumption | exact Fr.up (by decide) hp | apply State.wearObjs_parts | apply State.raise_parts
      | apply State.count_parts | apply State.put_parts | apply State.set_parts | refine Fr.ite ?_ ?_ | lift_lets
      | (intro y; refine Fr.cut p s y ?_ (fun hy => ?_); (on_goal 1 => subst y); (on_goal 2 => clear_value y)) | intro y | split
      | apply Fr.mk_ring | apply Fr.mk_archive_flash

theorem State.closeWindow_parts {p : Nat} {s x : State} (a1 : Bool) (hp : 0x200192010 ||| p = p) (h : Fr p s x) : Fr p s (State.closeWindow x a1) := by
  unfold State.closeWindow
  with_reducible
    repeat' first
      | assumption | exact Fr.up (by decide) hp | apply State.closeCapture_parts
      | apply State.raise_parts | apply State.set_parts | refine Fr.ite ?_ ?_ | lift_lets
      | (intro y; refine Fr.cut p s y ?_ (fun hy => ?_); (on_goal 1 => subst y); (on_goal 2 => clear_value y)) | intro y | split
      | apply Fr.mk_ring

theorem State.captureStart_parts {p : Nat} {s x : State} (a1 : Stamp) (a2 : Nat) (a3 : Bool) (hp : 0x90010 ||| p = p) (h : Fr p s x) : Fr p s (State.captureStart x a1 a2 a3) := by
  unfold State.captureStart
  with_reducible
    repeat' first
      | assumption | exact Fr.up (by decide) hp | apply State.put_parts | apply State.set_parts
      | refine Fr.ite ?_ ?_ | lift_lets
      | (intro y; refine Fr.cut p s y ?_ (fun hy => ?_); (on_goal 1 => subst y); (on_goal 2 => clear_value y)) | intro y
      | apply Fr.mk_ring

theorem State.joinLate_parts {p : Nat} {s x : State} (a1 : Nat) (a2 : Nat) (hp : 0x180000 ||| p = p) (h : Fr p s x) : Fr p s (State.joinLate x a1 a2) := by
  unfold State.joinLate
  with_reducible
    repeat' first
      | assumption | exact Fr.up (by decide) hp | refine Fr.ite ?_ ?_ | lift_lets
      | (intro y; refine Fr.cut p s y ?_ (fun hy => ?_); (on_goal 1 => subst y); (on_goal 2 => clear_value y)) | intro y
      | apply Fr.mk_ring_archive

theorem State.capture_parts {p : Nat} {s x : State} (a1 : Msg) (a2 : Nat) (hp : 0x200192010 ||| p = p) (h : Fr p s x) : Fr p s (State.capture x a1 a2) := by
  unfold State.capture
  with_reducible
    repeat' first
      | assumption | exact Fr.up (by decide) hp | apply State.joinLate_parts
      | apply State.captureStart_parts | apply State.closeWindow_parts | apply State.raise_parts | apply State.count_parts
      | refine Fr.ite ?_ ?_ | lift_lets
      | (intro y; refine Fr.cut p s y ?_ (fun hy => ?_); (on_goal 1 => subst y); (on_goal 2 => clear_value y)) | intro y | split
      | apply Fr.mk_ring

theorem State.setDtcs_parts {p : Nat} {s x : State} (a1 : List Dtc) (hp : 0x8000010010 ||| p = p) (h : Fr p s x) : Fr p s (State.setDtcs x a1) := by
  unfold State.setDtcs
  with_reducible
    repeat' first
      | assumption | exact Fr.up (by decide) hp | apply State.put_parts | refine Fr.ite ?_ ?_
      | lift_lets | (intro y; refine Fr.cut p s y ?_ (fun hy => ?_); (on_goal 1 => subst y); (on_goal 2 => clear_value y)) | intro y
      | apply Fr.mk_uds

theorem State.dtcRaise_parts {p : Nat} {s x : State} (a1 : Msg) (a2 : Nat) (hp : 0x8000010010 ||| p = p) (h : Fr p s x) : Fr p s (State.dtcRaise x a1 a2) := by
  unfold State.dtcRaise
  with_reducible
    repeat' first
      | assumption | exact Fr.up (by decide) hp | apply State.setDtcs_parts | apply State.set_parts
      | refine Fr.ite ?_ ?_ | lift_lets
      | (intro y; refine Fr.cut p s y ?_ (fun hy => ?_); (on_goal 1 => subst y); (on_goal 2 => clear_value y)) | intro y | split

theorem State.dtcClear_parts {p : Nat} {s x : State} (a1 : Msg) (hp : 0x8000010010 ||| p = p) (h : Fr p s x) : Fr p s (State.dtcClear x a1) := by
  unfold State.dtcClear
  with_reducible
    repeat' first
      | assumption | exact Fr.up (by decide) hp | apply State.setDtcs_parts | refine Fr.ite ?_ ?_

theorem State.dtcCycle_parts {p : Nat} {s x : State} (hp : 0x8000010010 ||| p = p) (h : Fr p s x) : Fr p s (State.dtcCycle x) := by
  unfold State.dtcCycle
  with_reducible
    repeat' first
      | assumption | exact Fr.up (by decide) hp | apply State.setDtcs_parts | refine Fr.ite ?_ ?_
      | lift_lets | (intro y; refine Fr.cut p s y ?_ (fun hy => ?_); (on_goal 1 => subst y); (on_goal 2 => clear_value y)) | intro y

theorem State.putRec_parts {p : Nat} {s x : State} (a1 : Nat) (a2 : FaultRec) (hp : 0x4000 ||| p = p) (h : Fr p s x) : Fr p s (State.putRec x a1 a2) := by
  unfold State.putRec
  with_reducible
    repeat' first
      | assumption | exact Fr.up (by decide) hp | apply Fr.mk_recs

theorem State.dropRec_parts {p : Nat} {s x : State} (a1 : Nat) (hp : 0x4000 ||| p = p) (h : Fr p s x) : Fr p s (State.dropRec x a1) := by
  unfold State.dropRec
  with_reducible
    repeat' first
      | assumption | exact Fr.up (by decide) hp | apply Fr.mk_recs

theorem State.haloUpdate_parts {p : Nat} {s x : State} (hp : 0x2010 ||| p = p) (h : Fr p s x) : Fr p s (State.haloUpdate x) := by
  unfold State.haloUpdate
  with_reducible
    repeat' first
      | assumption | exact Fr.up (by decide) hp | apply State.set_parts | refine Fr.ite ?_ ?_
      | lift_lets | (intro y; refine Fr.cut p s y ?_ (fun hy => ?_); (on_goal 1 => subst y); (on_goal 2 => clear_value y)) | intro y
      | apply Fr.mk_col

theorem State.faultCounts_parts {p : Nat} {s x : State} (a1 : Msg) (a2 : Nat) (hp : 0x10010 ||| p = p) (h : Fr p s x) : Fr p s (State.faultCounts x a1 a2) := by
  unfold State.faultCounts
  with_reducible
    repeat' first
      | assumption | exact Fr.up (by decide) hp | apply State.count_parts | apply State.set_parts

theorem State.hourFault_parts {p : Nat} {s x : State} (hp : 0x800000 ||| p = p) (h : Fr p s x) : Fr p s (State.hourFault x) := by
  unfold State.hourFault
  with_reducible
    repeat' first
      | assumption | exact Fr.up (by decide) hp | lift_lets
      | (intro y; refine Fr.cut p s y ?_ (fun hy => ?_); (on_goal 1 => subst y); (on_goal 2 => clear_value y)) | intro y
      | apply Fr.mk_hour

theorem State.clearRecord_parts {p : Nat} {s x : State} (a1 : Msg) (hp : 0x4000 ||| p = p) (h : Fr p s x) : Fr p s (State.clearRecord x a1) := by
  unfold State.clearRecord
  with_reducible
    repeat' first
      | assumption | exact Fr.up (by decide) hp | refine Fr.ite ?_ ?_ | lift_lets
      | (intro y; refine Fr.cut p s y ?_ (fun hy => ?_); (on_goal 1 => subst y); (on_goal 2 => clear_value y)) | intro y
      | apply Fr.mk_recs

theorem State.closeHandling_parts {p : Nat} {s x : State} (a1 : Nat) (hp : 0x6010 ||| p = p) (h : Fr p s x) : Fr p s (State.closeHandling x a1) := by
  unfold State.closeHandling
  with_reducible
    repeat' first
      | assumption | exact Fr.up (by decide) hp | apply State.haloUpdate_parts
      | apply State.putRec_parts | lift_lets
      | (intro y; refine Fr.cut p s y ?_ (fun hy => ?_); (on_goal 1 => subst y); (on_goal 2 => clear_value y)) | intro y | split
      | apply Fr.mk_col

theorem State.directEnter_parts {p : Nat} {s x : State} (a1 : Nat) (hp : 0x6118 ||| p = p) (h : Fr p s x) : Fr p s (State.directEnter x a1) := by
  unfold State.directEnter
  with_reducible
    repeat' first
      | assumption | exact Fr.up (by decide) hp | apply State.haloUpdate_parts | apply State.draw_parts
      | refine Fr.ite ?_ ?_ | refine Fr.ite_snd ?_ ?_ | refine Fr.ite_trd ?_ ?_ | lift_lets
      | (intro y; refine Fr.cut p s y ?_ (fun hy => ?_); (on_goal 1 => subst y); (on_goal 2 => clear_value y)) | intro y | split
      | (refine Fr.snd_of ?_ (by assumption)) | (refine Fr.trd_of ?_ (by assumption)) | apply Fr.mk_aon_col_recs

end Sys2Proof.Machine
end

