-- ==== Sys2Proof/Laws/PartsTableOps.lean ====
section
/-!
SUPPORT. PartsTableOps.lean: the footprint of every operation of Machine/TableOps.lean.
-/
set_option linter.unusedTactic false
set_option linter.unreachableTactic false
set_option linter.unusedVariables false
namespace Sys2Proof.Machine

theorem State.refuseImage_parts {p : Nat} {s x : State} (a1 : Nat) (a2 : Nat) (hp : 0x2010 ||| p = p) (h : Fr p s x) : Fr p s (State.refuseImage x a1 a2) := by
  unfold State.refuseImage
  with_reducible
    repeat' first
      | assumption | exact Fr.up (by decide) hp | apply State.raise_parts | apply State.set_parts
      | refine Fr.ite ?_ ?_ | lift_lets
      | (intro y; refine Fr.cut p s y ?_ (fun hy => ?_); (on_goal 1 => subst y); (on_goal 2 => clear_value y)) | intro y

theorem State.idleIds_parts {p : Nat} {s x : State} (hp : 0x10 ||| p = p) (h : Fr p s x) : Fr p s (State.idleIds x) := by
  unfold State.idleIds
  with_reducible
    repeat' first
      | assumption | exact Fr.up (by decide) hp | apply State.set_parts
      | refine Fr.foldl _ ?_ (fun y a hy => ?_) | refine Fr.ite ?_ ?_

theorem State.useImage_parts {p : Nat} {s x : State} (a1 : Nat) (a2 : Option (List Byte)) (hp : 0x8000010 ||| p = p) (h : Fr p s x) : Fr p s (State.useImage x a1 a2) := by
  unfold State.useImage
  with_reducible
    repeat' first
      | assumption | exact Fr.up (by decide) hp | apply State.set_parts | refine Fr.ite ?_ ?_
      | lift_lets | (intro y; refine Fr.cut p s y ?_ (fun hy => ?_); (on_goal 1 => subst y); (on_goal 2 => clear_value y)) | intro y
      | split | apply Fr.mk_tabs

theorem State.activate_parts {p : Nat} {s x : State} (a1 : Nat) (hp : 0x8000010 ||| p = p) (h : Fr p s x) : Fr p s (State.activate x a1) := by
  unfold State.activate
  with_reducible
    repeat' first
      | assumption | exact Fr.up (by decide) hp | apply State.useImage_parts
      | apply State.idleIds_parts | apply State.set_parts | refine Fr.foldl _ ?_ (fun y a hy => ?_) | refine Fr.ite ?_ ?_ | lift_lets
      | (intro y; refine Fr.cut p s y ?_ (fun hy => ?_); (on_goal 1 => subst y); (on_goal 2 => clear_value y)) | intro y

theorem State.readBank_parts {p : Nat} {s x : State} (a1 : Nat) (hp : 0x8002010 ||| p = p) (h : Fr p s x) : Fr p s (State.readBank x a1) := by
  unfold State.readBank
  with_reducible
    repeat' first
      | assumption | exact Fr.up (by decide) hp | apply State.refuseImage_parts
      | apply State.setBank_parts | refine Fr.foldl _ ?_ (fun y a hy => ?_) | lift_lets
      | (intro y; refine Fr.cut p s y ?_ (fun hy => ?_); (on_goal 1 => subst y); (on_goal 2 => clear_value y)) | intro y | split

theorem State.loadBanks_parts {p : Nat} {s x : State} (a1 : Nat) (hp : 0x8002010 ||| p = p) (h : Fr p s x) : Fr p s (State.loadBanks x a1) := by
  unfold State.loadBanks
  with_reducible
    repeat' first
      | assumption | exact Fr.up (by decide) hp | apply State.readBank_parts
      | apply State.activate_parts | apply State.bankGens_parts | apply State.setBank_parts | apply State.raiseC_parts
      | refine Fr.ite ?_ ?_ | lift_lets
      | (intro y; refine Fr.cut p s y ?_ (fun hy => ?_); (on_goal 1 => subst y); (on_goal 2 => clear_value y)) | intro y

theorem State.storeImage_parts {p : Nat} {s x : State} (a1 : Nat) (a2 : List Byte) (hp : 0x8002010 ||| p = p) (h : Fr p s x) : Fr p s (State.storeImage x a1 a2).2 := by
  unfold State.storeImage
  with_reducible
    repeat' first
      | assumption | exact Fr.up (by decide) hp | apply State.idleIds_parts
      | apply State.refuseImage_parts | apply State.emptyKind_parts | apply State.setBank_parts | apply State.flashBusy_parts
      | refine Fr.ite ?_ ?_ | refine Fr.ite_snd ?_ ?_ | refine Fr.ite_trd ?_ ?_ | lift_lets
      | (intro y; refine Fr.cut p s y ?_ (fun hy => ?_); (on_goal 1 => subst y); (on_goal 2 => clear_value y)) | intro y | split
      | (refine Fr.snd_of ?_ (by assumption)) | (refine Fr.trd_of ?_ (by assumption)) | apply Fr.mk_tabs

end Sys2Proof.Machine
end

