-- ==== Sys2Proof/Laws/PartsFabricOps.lean ====
section
/-!
SUPPORT. PartsFabricOps.lean: the footprint of every operation of Machine/FabricOps.lean.
-/
set_option linter.unusedTactic false
set_option linter.unreachableTactic false
set_option linter.unusedVariables false
namespace Sys2Proof.Machine

theorem State.fabTally_parts {p : Nat} {s x : State} (a1 : Nat) (hp : 0x10 ||| p = p) (h : Fr p s x) : Fr p s (State.fabTally x a1) := by
  unfold State.fabTally
  with_reducible
    repeat' first
      | assumption | exact Fr.up (by decide) hp | apply State.tally_parts

theorem State.fabOut_parts {p : Nat} {s x : State} (a1 : Port) (a2 : Frame) (hp : 0x80002010 ||| p = p) (h : Fr p s x) : Fr p s (State.fabOut x a1 a2) := by
  unfold State.fabOut
  with_reducible
    repeat' first
      | assumption | exact Fr.up (by decide) hp | apply State.fabQueue_parts | refine Fr.ite ?_ ?_

theorem State.fabBroadcast_parts {p : Nat} {s x : State} (a1 : Frame) (hp : 0x80002010 ||| p = p) (h : Fr p s x) : Fr p s (State.fabBroadcast x a1) := by
  unfold State.fabBroadcast
  with_reducible
    repeat' first
      | assumption | exact Fr.up (by decide) hp | apply State.fabOut_parts | apply State.fabSeq_parts
      | refine Fr.ite ?_ ?_ | refine Fr.ite_snd ?_ ?_ | refine Fr.ite_trd ?_ ?_ | split | (refine Fr.snd_of ?_ (by assumption))
      | (refine Fr.trd_of ?_ (by assumption))

theorem State.fabFlood_parts {p : Nat} {s x : State} (a1 : Frame) (hp : 0x80002010 ||| p = p) (h : Fr p s x) : Fr p s (State.fabFlood x a1) := by
  unfold State.fabFlood
  with_reducible
    repeat' first
      | assumption | exact Fr.up (by decide) hp | apply State.fabOut_parts | apply State.fabSeq_parts
      | split | (refine Fr.snd_of ?_ (by assumption)) | (refine Fr.trd_of ?_ (by assumption))

theorem State.fabRoute_parts {p : Nat} {s x : State} (a1 : Frame) (hp : 0x80002010 ||| p = p) (h : Fr p s x) : Fr p s (State.fabRoute x a1) := by
  unfold State.fabRoute
  with_reducible
    repeat' first
      | assumption | exact Fr.up (by decide) hp | apply State.fabOut_parts | apply State.fabTally_parts
      | apply State.raise_parts | refine Fr.ite ?_ ?_ | split

theorem State.fabSend_parts {p : Nat} {s x : State} (a1 : Frame) (hp : 0x80002010 ||| p = p) (h : Fr p s x) : Fr p s (State.fabSend x a1) := by
  unfold State.fabSend
  with_reducible
    repeat' first
      | assumption | exact Fr.up (by decide) hp | apply State.fabRoute_parts | apply State.fabSeq_parts
      | split | (refine Fr.snd_of ?_ (by assumption)) | (refine Fr.trd_of ?_ (by assumption))

theorem State.fabTake_parts {p : Nat} {s x : State} (a1 : Port) (a2 : Nat) (hp : 0x500120f0 ||| p = p) (h : Fr p s x) : Fr p s (State.fabTake x a1 a2).2 := by
  unfold State.fabTake
  with_reducible
    repeat' first
      | assumption | exact Fr.up (by decide) hp | apply State.fabTally_parts
      | apply State.sensedStep_parts | apply State.modL_parts | refine Fr.ite ?_ ?_ | refine Fr.ite_snd ?_ ?_ | refine Fr.ite_trd ?_ ?_
      | lift_lets | (intro y; refine Fr.cut p s y ?_ (fun hy => ?_); (on_goal 1 => subst y); (on_goal 2 => clear_value y)) | intro y
      | split | (refine Fr.snd_of ?_ (by assumption)) | (refine Fr.trd_of ?_ (by assumption))

theorem State.fabBad_parts {p : Nat} {s x : State} (a1 : Port) (hp : 0x80002010 ||| p = p) (h : Fr p s x) : Fr p s (State.fabBad x a1) := by
  unfold State.fabBad
  with_reducible
    repeat' first
      | assumption | exact Fr.up (by decide) hp | apply State.fabTally_parts | apply State.modFab_parts
      | apply State.raise_parts | refine Fr.ite ?_ ?_ | lift_lets
      | (intro y; refine Fr.cut p s y ?_ (fun hy => ?_); (on_goal 1 => subst y); (on_goal 2 => clear_value y)) | intro y

theorem State.hopsOk_parts {p : Nat} {s x : State} (a : Frame) (f : Frame → State → State) (hf : ∀ n y, Fr p s y → Fr p s (f n y)) (hp : 0x2010 ||| p = p)
    (h : Fr p s x) : Fr p s (x.hopsOk a f) := by
  unfold State.hopsOk
  exact Fr.ite (State.raise_parts _ _ _ (Fr.up rfl hp) (State.fabTally_parts _ (Fr.up rfl hp) h)) (hf _ x h)

theorem State.fabOnward_parts {p : Nat} {s x : State} (a1 : Port) (a2 : Frame) (hp : 0x80002010 ||| p = p) (h : Fr p s x) : Fr p s (State.fabOnward x a1 a2) := by
  unfold State.fabOnward
  with_reducible
    repeat' first
      | assumption | exact Fr.up (by decide) hp | apply State.hopsOk_parts | apply State.fabOut_parts
      | refine Fr.ite ?_ ?_ | refine fun y hy => ?_ | lift_lets
      | (intro y; refine Fr.cut p s y ?_ (fun hy => ?_); (on_goal 1 => subst y); (on_goal 2 => clear_value y)) | intro y

theorem State.unsettle_parts {p : Nat} {s x : State} (hp : 0x80000010 ||| p = p) (h : Fr p s x) : Fr p s (State.unsettle x) := by
  unfold State.unsettle
  with_reducible
    repeat' first
      | assumption | exact Fr.up (by decide) hp | apply State.set_parts | refine Fr.ite ?_ ?_
      | lift_lets | (intro y; refine Fr.cut p s y ?_ (fun hy => ?_); (on_goal 1 => subst y); (on_goal 2 => clear_value y)) | intro y
      | apply Fr.mk_fab

theorem State.topoSend_parts {p : Nat} {s x : State} (hp : 0x80002010 ||| p = p) (h : Fr p s x) : Fr p s (State.topoSend x) := by
  unfold State.topoSend
  with_reducible
    repeat' first
      | assumption | exact Fr.up (by decide) hp | apply State.fabFlood_parts | refine Fr.ite ?_ ?_
      | lift_lets | (intro y; refine Fr.cut p s y ?_ (fun hy => ?_); (on_goal 1 => subst y); (on_goal 2 => clear_value y)) | intro y
      | apply Fr.mk_fab

theorem State.zenithObjs_parts {p : Nat} {s x : State} (hp : 0x10 ||| p = p) (h : Fr p s x) : Fr p s (State.zenithObjs x) := by
  unfold State.zenithObjs
  with_reducible
    repeat' first
      | assumption | exact Fr.up (by decide) hp | apply State.set_parts | lift_lets
      | (intro y; refine Fr.cut p s y ?_ (fun hy => ?_); (on_goal 1 => subst y); (on_goal 2 => clear_value y)) | intro y | split

theorem State.clkFollow_parts {p : Nat} {s x : State} (hp : 0x10 ||| p = p) (h : Fr p s x) : Fr p s (State.clkFollow x) := by
  unfold State.clkFollow
  with_reducible
    repeat' first
      | assumption | exact Fr.up (by decide) hp | apply State.set_parts | refine Fr.ite ?_ ?_
      | lift_lets | (intro y; refine Fr.cut p s y ?_ (fun hy => ?_); (on_goal 1 => subst y); (on_goal 2 => clear_value y)) | intro y

theorem State.routesMove_parts {p : Nat} {s x : State} (hp : 0x10 ||| p = p) (h : Fr p s x) : Fr p s (State.routesMove x) := by
  unfold State.routesMove
  with_reducible
    repeat' first
      | assumption | exact Fr.up (by decide) hp | apply State.clkFollow_parts
      | apply State.zenithObjs_parts | refine Fr.ite ?_ ?_

theorem State.assignCut_parts {p : Nat} {s x : State} (hp : 0x80000000 ||| p = p) (h : Fr p s x) : Fr p s (State.assignCut x) := by
  unfold State.assignCut
  with_reducible
    repeat' first
      | assumption | exact Fr.up (by decide) hp | lift_lets
      | (intro y; refine Fr.cut p s y ?_ (fun hy => ?_); (on_goal 1 => subst y); (on_goal 2 => clear_value y)) | intro y | apply Fr.mk_fab

theorem State.portChange_parts {p : Nat} {s x : State} (a1 : Port) (a2 : Nat) (a3 : Nat) (hp : 0x80002010 ||| p = p) (h : Fr p s x) : Fr p s (State.portChange x a1 a2 a3) := by
  unfold State.portChange
  with_reducible
    repeat' first
      | assumption | exact Fr.up (by decide) hp | apply State.routesMove_parts
      | apply State.topoSend_parts | apply State.unsettle_parts | apply State.set_parts

theorem State.portDown_parts {p : Nat} {s x : State} (a1 : Port) (hp : 0x80002010 ||| p = p) (h : Fr p s x) : Fr p s (State.portDown x a1) := by
  unfold State.portDown
  with_reducible
    repeat' first
      | assumption | exact Fr.up (by decide) hp | apply State.portChange_parts
      | apply State.assignCut_parts | apply State.fabTally_parts | apply State.modFab_parts | apply State.clearI_parts
      | apply State.raise_parts | apply State.set_parts | refine Fr.ite ?_ ?_ | lift_lets
      | (intro y; refine Fr.cut p s y ?_ (fun hy => ?_); (on_goal 1 => subst y); (on_goal 2 => clear_value y)) | intro y

theorem State.fabStart_parts {p : Nat} {s x : State} (hp : 0x10 ||| p = p) (h : Fr p s x) : Fr p s (State.fabStart x) := by
  unfold State.fabStart
  with_reducible
    repeat' first
      | assumption | exact Fr.up (by decide) hp | apply State.set_parts
      | refine Fr.foldl _ ?_ (fun y a hy => ?_) | refine Fr.ite ?_ ?_ | lift_lets
      | (intro y; refine Fr.cut p s y ?_ (fun hy => ?_); (on_goal 1 => subst y); (on_goal 2 => clear_value y)) | intro y

theorem State.assignSend_parts {p : Nat} {s x : State} (hp : 0x80002010 ||| p = p) (h : Fr p s x) : Fr p s (State.assignSend x) := by
  unfold State.assignSend
  with_reducible
    repeat' first
      | assumption | exact Fr.up (by decide) hp | apply State.fabBroadcast_parts
      | refine Fr.foldl _ ?_ (fun y a hy => ?_)

theorem State.adopt_parts {p : Nat} {s x : State} (a1 : Nat) (a2 : Nat) (a3 : Nat) (hp : 0x80012010 ||| p = p) (h : Fr p s x) : Fr p s (State.adopt x a1 a2 a3) := by
  unfold State.adopt
  with_reducible
    repeat' first
      | assumption | exact Fr.up (by decide) hp | apply State.topoSend_parts
      | apply State.commitStart_parts | apply State.raise_parts | apply State.put_parts | apply State.set_parts | refine Fr.ite ?_ ?_
      | lift_lets | (intro y; refine Fr.cut p s y ?_ (fun hy => ?_); (on_goal 1 => subst y); (on_goal 2 => clear_value y)) | intro y
      | apply Fr.mk_fab

theorem State.assign_parts {p : Nat} {s x : State} (hp : 0x80012010 ||| p = p) (h : Fr p s x) : Fr p s (State.assign x) := by
  unfold State.assign
  with_reducible
    repeat' first
      | assumption | exact Fr.up (by decide) hp | apply State.adopt_parts
      | apply State.assignSend_parts | lift_lets
      | (intro y; refine Fr.cut p s y ?_ (fun hy => ?_); (on_goal 1 => subst y); (on_goal 2 => clear_value y)) | intro y | apply Fr.mk_fab

theorem State.settle_parts {p : Nat} {s x : State}  (hp : 0x80012010 ||| p = p) (h : Fr p s x) : Fr p s (x.settle) := by
  unfold State.settle
  have h1 : Fr p s { x with fab := { x.fab with
      settled := true, zenith := x.elect, lastZenith := if x.elect.isSome then x.elect else x.fab.lastZenith } } :=
    Fr.mk_fab h (Fr.up rfl hp)
  refine Fr.cut p s _ h1 ?_
  clear h1
  generalize ({ x with fab := { x.fab with
      settled := true, zenith := x.elect, lastZenith := if x.elect.isSome then x.elect else x.fab.lastZenith } } : State) = y
  intro hy
  have h2 := State.zenithObjs_parts (Fr.up rfl hp) (State.set_parts Obj.FAB_STATE (if y.fab.adopted then 3 else 2) (Fr.up rfl hp) hy)
  refine Fr.cut p s _ h2 ?_
  clear h2
  generalize (y.set Obj.FAB_STATE (if y.fab.adopted then 3 else 2)).zenithObjs = z
  intro hz
  show Fr p s (match x.elect with | none => _ | some u => _)
  split
  with_reducible
    repeat' first
      | assumption | exact Fr.up (by decide) hp | apply State.raise_parts | apply State.set_parts | apply State.assign_parts | apply State.zenithObjs_parts
      | refine Fr.foldl _ ?_ (fun y a hy => ?_) | refine Fr.ite ?_ ?_ | apply Fr.mk_fab | lift_lets
      | (intro y; refine Fr.cut p s y ?_ (fun hy => ?_); (on_goal 1 => subst y); (on_goal 2 => clear_value y)) | intro y | split

theorem State.bootAsk_parts {p : Nat} {s x : State} (hp : 0x80002010 ||| p = p) (h : Fr p s x) : Fr p s (State.bootAsk x) := by
  unfold State.bootAsk
  with_reducible
    repeat' first
      | assumption | exact Fr.up (by decide) hp | apply State.fabSend_parts | lift_lets
      | (intro y; refine Fr.cut p s y ?_ (fun hy => ?_); (on_goal 1 => subst y); (on_goal 2 => clear_value y)) | intro y | split
      | apply Fr.mk_fab

theorem State.bootNext_parts {p : Nat} {s x : State} (a1 : Nat) (hp : 0x80002010 ||| p = p) (h : Fr p s x) : Fr p s (State.bootNext x a1) := by
  unfold State.bootNext
  with_reducible
    repeat' first
      | assumption | exact Fr.up (by decide) hp | apply State.bootAsk_parts | refine Fr.ite ?_ ?_
      | lift_lets | (intro y; refine Fr.cut p s y ?_ (fun hy => ?_); (on_goal 1 => subst y); (on_goal 2 => clear_value y)) | intro y
      | apply Fr.mk_fab

theorem State.bootKick_parts {p : Nat} {s x : State} (hp : 0x88002010 ||| p = p) (h : Fr p s x) : Fr p s (State.bootKick x) := by
  unfold State.bootKick
  with_reducible
    repeat' first
      | assumption | exact Fr.up (by decide) hp | apply State.bootNext_parts
      | apply State.bootAsk_parts | apply State.setBank_parts | refine Fr.ite ?_ ?_

end Sys2Proof.Machine
end

