-- ==== Sys2Proof/Laws/PartsWatchdogOps.lean ====
section
/-!
SUPPORT. PartsWatchdogOps.lean: the footprint of every operation of Machine/WatchdogOps.lean.
-/
set_option linter.unusedTactic false
set_option linter.unreachableTactic false
set_option linter.unusedVariables false
namespace Sys2Proof.Machine

theorem State.wdPeriod_parts {p : Nat} {s x : State} (hp : 0x400000018 ||| p = p) (h : Fr p s x) : Fr p s (State.wdPeriod x) := by
  unfold State.wdPeriod
  with_reducible
    repeat' first
      | assumption | exact Fr.up (by decide) hp | apply State.draw_parts | apply State.set_parts
      | lift_lets | (intro y; refine Fr.cut p s y ?_ (fun hy => ?_); (on_goal 1 => subst y); (on_goal 2 => clear_value y)) | intro y
      | split | (refine Fr.snd_of ?_ (by assumption)) | (refine Fr.trd_of ?_ (by assumption)) | apply Fr.mk_wd

theorem State.wdStart_parts {p : Nat} {s x : State} (hp : 0x400000018 ||| p = p) (h : Fr p s x) : Fr p s (State.wdStart x) := by
  unfold State.wdStart
  with_reducible
    repeat' first
      | assumption | exact Fr.up (by decide) hp | apply State.wdPeriod_parts | apply State.set_parts

theorem State.wdStop_parts {p : Nat} {s x : State} (hp : 0x400000010 ||| p = p) (h : Fr p s x) : Fr p s (State.wdStop x) := by
  unfold State.wdStop
  with_reducible
    repeat' first
      | assumption | exact Fr.up (by decide) hp | apply State.set_parts | lift_lets
      | (intro y; refine Fr.cut p s y ?_ (fun hy => ?_); (on_goal 1 => subst y); (on_goal 2 => clear_value y)) | intro y | apply Fr.mk_wd

theorem State.wdViolation_parts {p : Nat} {s x : State} (a1 : Nat) (a2 : Nat) (a3 : Nat) (hp : 0x400016118 ||| p = p) (h : Fr p s x) : Fr p s (State.wdViolation x a1 a2 a3) := by
  unfold State.wdViolation
  with_reducible
    repeat' first
      | assumption | exact Fr.up (by decide) hp | apply State.wdPeriod_parts
      | apply State.directEnter_parts | apply State.failover_parts | apply State.raise_parts | apply State.count_parts
      | apply State.set_parts | refine Fr.ite ?_ ?_ | lift_lets
      | (intro y; refine Fr.cut p s y ?_ (fun hy => ?_); (on_goal 1 => subst y); (on_goal 2 => clear_value y)) | intro y | apply Fr.mk_wd

theorem State.wdCheckin_parts {p : Nat} {s x : State} (a1 : Nat) (a2 : Nat) (a3 : Nat) (hp : 0x400016118 ||| p = p) (h : Fr p s x) : Fr p s (State.wdCheckin x a1 a2 a3) := by
  unfold State.wdCheckin
  with_reducible
    repeat' first
      | assumption | exact Fr.up (by decide) hp | apply State.wdViolation_parts | apply State.set_parts
      | refine Fr.ite ?_ ?_

theorem State.wdAfresh_parts {p : Nat} {s x : State} (a1 : Nat) (hp : 0x500000000 ||| p = p) (h : Fr p s x) : Fr p s (State.wdAfresh x a1) := by
  unfold State.wdAfresh
  with_reducible
    repeat' first
      | assumption | exact Fr.up (by decide) hp | refine Fr.ite ?_ ?_ | lift_lets
      | (intro y; refine Fr.cut p s y ?_ (fun hy => ?_); (on_goal 1 => subst y); (on_goal 2 => clear_value y)) | intro y
      | apply Fr.mk_seqs | apply Fr.mk_wd

end Sys2Proof.Machine
end

