-- ==== Sys2Proof/Laws/PartsCanOps.lean ====
section
/-!
SUPPORT. PartsCanOps.lean: the footprint of every operation of Machine/CanOps.lean.
-/
set_option linter.unusedTactic false
set_option linter.unreachableTactic false
set_option linter.unusedVariables false
namespace Sys2Proof.Machine

theorem State.canQueue_parts {p : Nat} {s x : State} (a1 : CanBus) (a2 : CanFrame) (hp : 0x1000000000 ||| p = p) (h : Fr p s x) : Fr p s (State.canQueue x a1 a2) := by
  unfold State.canQueue
  with_reducible
    repeat' first
      | assumption | exact Fr.up (by decide) hp | apply State.modCan_parts | refine Fr.ite ?_ ?_
      | lift_lets | (intro y; refine Fr.cut p s y ?_ (fun hy => ?_); (on_goal 1 => subst y); (on_goal 2 => clear_value y)) | intro y
      | split

theorem State.canKeep_parts {p : Nat} {s x : State} (a1 : Nat) (a2 : Nat) (a3 : List CanFrame) (hp : 0x1000000000 ||| p = p) (h : Fr p s x) : Fr p s (State.canKeep x a1 a2 a3) := by
  unfold State.canKeep
  with_reducible
    repeat' first
      | assumption | exact Fr.up (by decide) hp | apply State.modCan_parts

theorem State.canAbandon_parts {p : Nat} {s x : State} (a1 : CanBus) (hp : 0x9808002010 ||| p = p) (h : Fr p s x) : Fr p s (State.canAbandon x a1) := by
  unfold State.canAbandon
  with_reducible
    repeat' first
      | assumption | exact Fr.up (by decide) hp | apply State.dropTransfer_parts
      | apply State.modCan_parts | refine Fr.foldl _ ?_ (fun y a hy => ?_) | refine Fr.ite ?_ ?_ | lift_lets
      | (intro y; refine Fr.cut p s y ?_ (fun hy => ?_); (on_goal 1 => subst y); (on_goal 2 => clear_value y)) | intro y | split
      | apply Fr.mk_uds

theorem State.canInit_parts {p : Nat} {s x : State} (a1 : CanBus) (hp : 0x9808002010 ||| p = p) (h : Fr p s x) : Fr p s (State.canInit x a1) := by
  unfold State.canInit
  with_reducible
    repeat' first
      | assumption | exact Fr.up (by decide) hp | apply State.canAbandon_parts
      | apply State.setCanState_parts | apply State.modCan_parts | apply State.clearBy_parts | apply State.set_parts | refine Fr.ite ?_ ?_
      | lift_lets | (intro y; refine Fr.cut p s y ?_ (fun hy => ?_); (on_goal 1 => subst y); (on_goal 2 => clear_value y)) | intro y
      | split | apply Fr.mk_uds

theorem State.canStat_parts {p : Nat} {s x : State} (a1 : CanBus) (a2 : Nat) (hp : 0x10 ||| p = p) (h : Fr p s x) : Fr p s (State.canStat x a1 a2) := by
  unfold State.canStat
  with_reducible
    repeat' first
      | assumption | exact Fr.up (by decide) hp | apply State.tally_parts

theorem State.canDrain_parts {p : Nat} {s x : State} (a1 : CanBus) (hp : 0x1000000010 ||| p = p) (h : Fr p s x) : Fr p s (State.canDrain x a1) := by
  unfold State.canDrain
  with_reducible
    repeat' first
      | assumption | exact Fr.up (by decide) hp | apply State.canStat_parts | apply State.modCan_parts
      | refine Fr.ite ?_ ?_ | split

theorem State.linShorted_parts {p : Nat} {s x : State} (hp : 0x2010 ||| p = p) (h : Fr p s x) : Fr p s (State.linShorted x) := by
  unfold State.linShorted
  with_reducible
    repeat' first
      | assumption | exact Fr.up (by decide) hp | apply State.raise1_parts | refine Fr.ite ?_ ?_

theorem State.canIntegrated_parts {p : Nat} {s x : State} (a1 : CanBus) (hp : 0x10 ||| p = p) (h : Fr p s x) : Fr p s (State.canIntegrated x a1) := by
  unfold State.canIntegrated
  with_reducible
    repeat' first
      | assumption | exact Fr.up (by decide) hp | apply State.setCanState_parts | refine Fr.ite ?_ ?_

end Sys2Proof.Machine
end

