-- ==== Sys2Proof/Laws/PartsWriteOps.lean ====
section
/-!
SUPPORT. PartsWriteOps.lean: the footprint of every operation of Machine/WriteOps.lean.
-/
set_option linter.unusedTactic false
set_option linter.unreachableTactic false
set_option linter.unusedVariables false
namespace Sys2Proof.Machine

theorem State.classRequest_parts {p : Nat} {s x : State} (hp : 0x4010d0 ||| p = p) (h : Fr p s x) : Fr p s (State.classRequest x) := by
  unfold State.classRequest
  with_reducible
    repeat' first
      | assumption | exact Fr.up (by decide) hp | apply State.classStart_parts | refine Fr.ite ?_ ?_
      | lift_lets | (intro y; refine Fr.cut p s y ?_ (fun hy => ?_); (on_goal 1 => subst y); (on_goal 2 => clear_value y)) | intro y
      | apply Fr.mk_src

theorem State.linkCtrl_parts {p : Nat} {s x : State} (a1 : Port) (a2 : Nat) (hp : 0xd00120f0 ||| p = p) (h : Fr p s x) : Fr p s (State.linkCtrl x a1 a2) := by
  unfold State.linkCtrl
  with_reducible
    repeat' first
      | assumption | exact Fr.up (by decide) hp | apply State.policyContract_parts
      | apply State.sendDetach_parts | apply State.sendOffer_parts | apply State.sendHard_parts | apply State.sendMsg_parts | split

theorem State.linkEnable_parts {p : Nat} {s x : State} (a1 : Port) (a2 : Bool) (hp : 0x500120f0 ||| p = p) (h : Fr p s x) : Fr p s (State.linkEnable x a1 a2) := by
  unfold State.linkEnable
  with_reducible
    repeat' first
      | assumption | exact Fr.up (by decide) hp | apply State.toOff_parts
      | apply State.toDetached_parts | refine Fr.ite ?_ ?_

theorem State.dtcErase_parts {p : Nat} {s x : State} (a1 : Option Nat) (hp : 0x8000010010 ||| p = p) (h : Fr p s x) : Fr p s (State.dtcErase x a1) := by
  unfold State.dtcErase
  with_reducible
    repeat' first
      | assumption | exact Fr.up (by decide) hp | apply State.setDtcs_parts
      | apply State.commitStart_parts | apply State.set_parts | refine Fr.foldl _ ?_ (fun y a hy => ?_) | refine Fr.ite ?_ ?_ | lift_lets
      | (intro y; refine Fr.cut p s y ?_ (fun hy => ?_); (on_goal 1 => subst y); (on_goal 2 => clear_value y)) | intro y

theorem State.dtcClearBy_parts {p : Nat} {s x : State} (a1 : Nat) (hp : 0x8000010010 ||| p = p) (h : Fr p s x) : Fr p s (State.dtcClearBy x a1) := by
  unfold State.dtcClearBy
  with_reducible
    repeat' first
      | assumption | exact Fr.up (by decide) hp | apply State.dtcErase_parts | refine Fr.ite ?_ ?_

theorem State.restoreDefaults_parts {p : Nat} {s x : State} (hp : 0x10010 ||| p = p) (h : Fr p s x) : Fr p s (State.restoreDefaults x) := by
  unfold State.restoreDefaults
  with_reducible
    repeat' first
      | assumption | exact Fr.up (by decide) hp | apply State.commitStart_parts
      | apply State.journal_parts | refine Fr.foldl _ ?_ (fun y a hy => ?_) | lift_lets
      | (intro y; refine Fr.cut p s y ?_ (fun hy => ?_); (on_goal 1 => subst y); (on_goal 2 => clear_value y)) | intro y

theorem State.linCopies_parts {p : Nat} {s x : State} (hp : 0x4000000000 ||| p = p) (h : Fr p s x) : Fr p s (State.linCopies x) := by
  unfold State.linCopies
  with_reducible
    repeat' first
      | assumption | exact Fr.up (by decide) hp | lift_lets
      | (intro y; refine Fr.cut p s y ?_ (fun hy => ?_); (on_goal 1 => subst y); (on_goal 2 => clear_value y)) | intro y | apply Fr.mk_lin

theorem State.linCopy_parts {p : Nat} {s x : State} (a1 : Nat) (a2 : Nat) (hp : 0x4000000000 ||| p = p) (h : Fr p s x) : Fr p s (State.linCopy x a1 a2) := by
  unfold State.linCopy
  with_reducible
    repeat' first
      | assumption | exact Fr.up (by decide) hp | refine Fr.ite ?_ ?_ | lift_lets
      | (intro y; refine Fr.cut p s y ?_ (fun hy => ?_); (on_goal 1 => subst y); (on_goal 2 => clear_value y)) | intro y | apply Fr.mk_lin

theorem State.rampWords_parts {p : Nat} {s x : State} (hp : 0x20f0 ||| p = p) (h : Fr p s x) : Fr p s (State.rampWords x) := by
  unfold State.rampWords
  with_reducible
    repeat' first
      | assumption | exact Fr.up (by decide) hp | apply State.portIfNew_parts
      | refine Fr.foldl _ ?_ (fun y a hy => ?_) | refine Fr.ite ?_ ?_ | lift_lets
      | (intro y; refine Fr.cut p s y ?_ (fun hy => ?_); (on_goal 1 => subst y); (on_goal 2 => clear_value y)) | intro y

theorem State.cellsClear_parts {p : Nat} {s x : State} (a1 : Nat) (hp : 0x200020f0 ||| p = p) (h : Fr p s x) : Fr p s (State.cellsClear x a1) := by
  unfold State.cellsClear
  with_reducible
    repeat' first
      | assumption | exact Fr.up (by decide) hp | apply State.balOff_parts | apply State.chgEnter_parts
      | apply State.cellReport_parts | apply State.zeroBoth_parts | apply State.clearK_parts | apply State.clearBy_parts
      | apply State.set_parts | refine Fr.foldl _ ?_ (fun y a hy => ?_) | refine Fr.ite ?_ ?_ | lift_lets
      | (intro y; refine Fr.cut p s y ?_ (fun hy => ?_); (on_goal 1 => subst y); (on_goal 2 => clear_value y)) | intro y | apply Fr.mk_chg

theorem State.cellsWrite_parts {p : Nat} {s x : State} (a1 : Nat) (hp : 0x200120f0 ||| p = p) (h : Fr p s x) : Fr p s (State.cellsWrite x a1) := by
  unfold State.cellsWrite
  with_reducible
    repeat' first
      | assumption | exact Fr.up (by decide) hp | apply State.cellsClear_parts
      | apply State.ordering_parts | apply State.put_parts

theorem State.chgEnableWrite_parts {p : Nat} {s x : State} (a1 : Nat) (hp : 0x200120f0 ||| p = p) (h : Fr p s x) : Fr p s (State.chgEnableWrite x a1) := by
  unfold State.chgEnableWrite
  with_reducible
    repeat' first
      | assumption | exact Fr.up (by decide) hp | apply State.chgWrite_parts
      | apply State.selectOrHold_parts | apply State.newCycle_parts | apply State.chgEnter_parts | apply State.writeChg_parts
      | apply State.put_parts | refine Fr.ite ?_ ?_ | lift_lets
      | (intro y; refine Fr.cut p s y ?_ (fun hy => ?_); (on_goal 1 => subst y); (on_goal 2 => clear_value y)) | intro y

theorem State.chgServiceWrite_parts {p : Nat} {s x : State} (a1 : Nat) (hp : 0x200020f0 ||| p = p) (h : Fr p s x) : Fr p s (State.chgServiceWrite x a1) := by
  unfold State.chgServiceWrite
  with_reducible
    repeat' first
      | assumption | exact Fr.up (by decide) hp | apply State.chgModeChange_parts
      | apply State.set_parts

theorem State.modeReqSlot_parts {p : Nat} {s x : State} (a1 : Nat) (a2 : Nat) (hp : 0x810 ||| p = p) (h : Fr p s x) : Fr p s (State.modeReqSlot x a1 a2) := by
  unfold State.modeReqSlot
  with_reducible
    repeat' first
      | assumption | exact Fr.up (by decide) hp | apply State.set_parts | refine Fr.ite ?_ ?_
      | lift_lets | (intro y; refine Fr.cut p s y ?_ (fun hy => ?_); (on_goal 1 => subst y); (on_goal 2 => clear_value y)) | intro y
      | apply Fr.mk_mode

theorem State.storageDirect_parts {p : Nat} {s x : State} (hp : 0x79f04dbdf0 ||| p = p) (h : Fr p s x) : Fr p s (State.storageDirect x) := by
  unfold State.storageDirect
  with_reducible
    repeat' first
      | assumption | exact Fr.up (by decide) hp | apply State.wakeUp_parts
      | apply State.enterStorage_parts | refine Fr.ite ?_ ?_ | lift_lets
      | (intro y; refine Fr.cut p s y ?_ (fun hy => ?_); (on_goal 1 => subst y); (on_goal 2 => clear_value y)) | intro y | split

theorem State.modeReqAct_parts {p : Nat} {s x : State} (a1 : Option Nat) (hp : 0x79f04dbdf0 ||| p = p) (h : Fr p s x) : Fr p s (State.modeReqAct x a1) := by
  unfold State.modeReqAct
  with_reducible
    repeat' first
      | assumption | exact Fr.up (by decide) hp | apply State.storageDirect_parts
      | apply State.resolve_parts | apply State.wakeEvent_parts | apply State.set_parts | refine Fr.ite ?_ ?_ | lift_lets
      | (intro y; refine Fr.cut p s y ?_ (fun hy => ?_); (on_goal 1 => subst y); (on_goal 2 => clear_value y)) | intro y

theorem State.modeReqWrite_parts {p : Nat} {s x : State} (a1 : Nat) (a2 : Nat) (hp : 0x79f04dbdf0 ||| p = p) (h : Fr p s x) : Fr p s (State.modeReqWrite x a1 a2) := by
  unfold State.modeReqWrite
  with_reducible
    repeat' first
      | assumption | exact Fr.up (by decide) hp | apply State.modeReqAct_parts
      | apply State.modeReqSlot_parts | refine Fr.ite ?_ ?_

theorem State.trapRelease_parts {p : Nat} {s x : State} (hp : 0x100000010 ||| p = p) (h : Fr p s x) : Fr p s (State.trapRelease x) := by
  unfold State.trapRelease
  with_reducible
    repeat' first
      | assumption | exact Fr.up (by decide) hp | apply State.set_parts
      | refine Fr.foldl _ ?_ (fun y a hy => ?_) | refine Fr.ite ?_ ?_ | lift_lets
      | (intro y; refine Fr.cut p s y ?_ (fun hy => ?_); (on_goal 1 => subst y); (on_goal 2 => clear_value y)) | intro y
      | apply Fr.mk_seqs

theorem State.recRequest_parts {p : Nat} {s x : State} (a1 : Master) (hp : 0x200192010 ||| p = p) (h : Fr p s x) : Fr p s (State.recRequest x a1) := by
  unfold State.recRequest
  with_reducible
    repeat' first
      | assumption | exact Fr.up (by decide) hp | apply State.capture_parts | apply State.raise_parts
      | refine Fr.ite ?_ ?_ | lift_lets
      | (intro y; refine Fr.cut p s y ?_ (fun hy => ?_); (on_goal 1 => subst y); (on_goal 2 => clear_value y)) | intro y

theorem State.recKeep_parts {p : Nat} {s x : State} (a1 : Nat) (hp : 0x100000 ||| p = p) (h : Fr p s x) : Fr p s (State.recKeep x a1) := by
  unfold State.recKeep
  with_reducible
    repeat' first
      | assumption | exact Fr.up (by decide) hp | apply Fr.mk_archive

theorem State.switchStart_parts {p : Nat} {s x : State} (a1 : Nat) (hp : 0x8000010 ||| p = p) (h : Fr p s x) : Fr p s (State.switchStart x a1) := by
  unfold State.switchStart
  with_reducible
    repeat' first
      | assumption | exact Fr.up (by decide) hp | apply State.idleIds_parts | apply State.setBank_parts
      | apply State.ordering_parts | apply State.set_parts | refine Fr.ite ?_ ?_ | lift_lets
      | (intro y; refine Fr.cut p s y ?_ (fun hy => ?_); (on_goal 1 => subst y); (on_goal 2 => clear_value y)) | intro y
      | apply Fr.mk_tabs

theorem State.otpProgram_parts {p : Nat} {s x : State} (a1 : List Byte) (hp : 0x20010 ||| p = p) (h : Fr p s x) : Fr p s (State.otpProgram x a1) := by
  unfold State.otpProgram
  with_reducible
    repeat' first
      | assumption | exact Fr.up (by decide) hp | apply State.set_parts | lift_lets
      | (intro y; refine Fr.cut p s y ?_ (fun hy => ?_); (on_goal 1 => subst y); (on_goal 2 => clear_value y)) | intro y | apply Fr.mk_otp

theorem State.otpLock_parts {p : Nat} {s x : State} (a1 : Nat) (hp : 0x20010 ||| p = p) (h : Fr p s x) : Fr p s (State.otpLock x a1) := by
  unfold State.otpLock
  with_reducible
    repeat' first
      | assumption | exact Fr.up (by decide) hp | apply State.set_parts | lift_lets
      | (intro y; refine Fr.cut p s y ?_ (fun hy => ?_); (on_goal 1 => subst y); (on_goal 2 => clear_value y)) | intro y | apply Fr.mk_otp

theorem State.applyWrite_parts {p : Nat} {s x : State} (a1 : Master) (a2 : Nat) (a3 : Nat) (hp : 0xfff85ffdf8 ||| p = p) (h : Fr p s x) : Fr p s (State.applyWrite x a1 a2 a3) := by
  unfold State.applyWrite
  with_reducible
    repeat' first
      | assumption | exact Fr.up (by decide) hp | apply State.otpLock_parts
      | apply State.switchStart_parts | apply State.recKeep_parts | apply State.recRequest_parts | apply State.trapRelease_parts
      | apply State.modeReqWrite_parts | apply State.chgServiceWrite_parts | apply State.chgEnableWrite_parts
      | apply State.cellsWrite_parts | apply State.rampWords_parts | apply State.linCopy_parts | apply State.restoreDefaults_parts
      | apply State.dtcClearBy_parts | apply State.linkEnable_parts | apply State.linkCtrl_parts | apply State.classRequest_parts
      | apply State.canInit_parts | apply State.wdCheckin_parts | apply State.haloUpdate_parts | apply State.commitStart_parts
      | apply State.wearReport_parts | apply State.ordering_parts | apply State.epochStart_parts | apply State.hzClear_parts
      | apply State.portIfNew_parts | apply State.groupApply_parts | apply State.send_parts | apply State.put_parts
      | apply State.journal_parts | apply State.set_parts | refine Fr.ite ?_ ?_ | refine Fr.ite_snd ?_ ?_ | refine Fr.ite_trd ?_ ?_
      | lift_lets | (intro y; refine Fr.cut p s y ?_ (fun hy => ?_); (on_goal 1 => subst y); (on_goal 2 => clear_value y)) | intro y
      | split | (refine Fr.snd_of ?_ (by assumption)) | (refine Fr.trd_of ?_ (by assumption)) | apply Fr.mk_col | apply Fr.mk_meas
      | apply Fr.mk_env | apply Fr.mk_fab | apply Fr.mk_wd

end Sys2Proof.Machine
end

