-- ==== Sys2Proof/Laws/PartsObjectServer.lean ====
section
/-!
SUPPORT. PartsObjectServer.lean: the footprint of every operation of Machine/ObjectServer.lean.
-/
set_option linter.unusedTactic false
set_option linter.unreachableTactic false
set_option linter.unusedVariables false
namespace Sys2Proof.Machine

theorem State.answerWith_parts {p : Nat} {s x : State} (a1 : Master) (a2 : Nat) (a3 : Nat) (a4 : List Byte) (hp : 0x800000010 ||| p = p) (h : Fr p s x) : Fr p s (State.answerWith x a1 a2 a3 a4) := by
  unfold State.answerWith
  with_reducible
    repeat' first
      | assumption | exact Fr.up (by decide) hp | apply State.tally_parts | apply State.set_parts
      | refine Fr.ite ?_ ?_ | lift_lets
      | (intro y; refine Fr.cut p s y ?_ (fun hy => ?_); (on_goal 1 => subst y); (on_goal 2 => clear_value y)) | intro y | apply Fr.mk_srv

theorem State.recRead_parts {p : Nat} {s x : State} (a1 : Nat) (hp : 0x6010 ||| p = p) (h : Fr p s x) : Fr p s (State.recRead x a1) := by
  unfold State.recRead
  with_reducible
    repeat' first
      | assumption | exact Fr.up (by decide) hp | apply State.haloUpdate_parts
      | apply State.dropRec_parts | apply State.putRec_parts | refine Fr.ite ?_ ?_ | split

theorem State.clearing_parts {p : Nat} {s x : State} (a1 : Master) (a2 : Nat) (hp : 0x16010 ||| p = p) (h : Fr p s x) : Fr p s (State.clearing x a1 a2) := by
  unfold State.clearing
  with_reducible
    repeat' first
      | assumption | exact Fr.up (by decide) hp | apply State.recRead_parts | apply State.put_parts
      | refine Fr.ite ?_ ?_

theorem State.readKey_parts {p : Nat} {s x : State} (a1 : Master) (a2 : Nat) (hp : 0x800016010 ||| p = p) (h : Fr p s x) : Fr p s (State.readKey x a1 a2).2.2 := by
  unfold State.readKey
  with_reducible
    repeat' first
      | assumption | exact Fr.up (by decide) hp | apply State.clearing_parts
      | apply State.answerWith_parts | refine Fr.ite ?_ ?_ | refine Fr.ite_snd ?_ ?_ | refine Fr.ite_trd ?_ ?_ | lift_lets
      | (intro y; refine Fr.cut p s y ?_ (fun hy => ?_); (on_goal 1 => subst y); (on_goal 2 => clear_value y)) | intro y | split
      | (refine Fr.snd_of ?_ (by assumption)) | (refine Fr.trd_of ?_ (by assumption))

theorem State.dropSnap_parts {p : Nat} {s x : State} (a1 : Master) (a2 : Nat) (hp : 0x800000000 ||| p = p) (h : Fr p s x) : Fr p s (State.dropSnap x a1 a2) := by
  unfold State.dropSnap
  with_reducible
    repeat' first
      | assumption | exact Fr.up (by decide) hp | lift_lets
      | (intro y; refine Fr.cut p s y ?_ (fun hy => ?_); (on_goal 1 => subst y); (on_goal 2 => clear_value y)) | intro y | apply Fr.mk_srv

theorem State.readSegment_parts {p : Nat} {s x : State} (a1 : Master) (a2 : Nat) (a3 : Nat) (a4 : Nat) (hp : 0x800016010 ||| p = p) (h : Fr p s x) : Fr p s (State.readSegment x a1 a2 a3 a4).2.2.2 := by
  unfold State.readSegment
  with_reducible
    repeat' first
      | assumption | exact Fr.up (by decide) hp | apply State.dropSnap_parts
      | apply State.clearing_parts | apply State.answerWith_parts | refine Fr.ite ?_ ?_ | refine Fr.ite_snd ?_ ?_
      | refine Fr.ite_trd ?_ ?_ | lift_lets
      | (intro y; refine Fr.cut p s y ?_ (fun hy => ?_); (on_goal 1 => subst y); (on_goal 2 => clear_value y)) | intro y | split
      | (refine Fr.snd_of ?_ (by assumption)) | (refine Fr.trd_of ?_ (by assumption)) | apply Fr.mk_srv

theorem State.refusedWrite_parts {p : Nat} {s x : State} (a1 : Nat) (a2 : Nat) (a3 : Nat) (hp : 0x10 ||| p = p) (h : Fr p s x) : Fr p s (State.refusedWrite x a1 a2 a3) := by
  unfold State.refusedWrite
  with_reducible
    repeat' first
      | assumption | exact Fr.up (by decide) hp | apply State.set_parts | refine Fr.ite ?_ ?_

theorem State.writeKey_parts {p : Nat} {s x : State} (a1 : Master) (a2 : Nat) (a3 : List Byte) (hp : 0xfff85ffdf8 ||| p = p) (h : Fr p s x) : Fr p s (State.writeKey x a1 a2 a3).2 := by
  unfold State.writeKey
  with_reducible
    repeat' first
      | assumption | exact Fr.up (by decide) hp | apply State.refusedWrite_parts
      | apply State.answerWith_parts | apply State.applyWrite_parts | refine Fr.ite ?_ ?_ | refine Fr.ite_snd ?_ ?_
      | refine Fr.ite_trd ?_ ?_ | lift_lets
      | (intro y; refine Fr.cut p s y ?_ (fun hy => ?_); (on_goal 1 => subst y); (on_goal 2 => clear_value y)) | intro y | split
      | (refine Fr.snd_of ?_ (by assumption)) | (refine Fr.trd_of ?_ (by assumption))

theorem State.tableLoad_parts {p : Nat} {s x : State} (a1 : List Byte) (hp : 0x8002010 ||| p = p) (h : Fr p s x) : Fr p s (State.tableLoad x a1).2 := by
  unfold State.tableLoad
  with_reducible
    repeat' first
      | assumption | exact Fr.up (by decide) hp | apply State.storeImage_parts
      | apply State.raise_parts | apply State.set_parts | refine Fr.ite ?_ ?_ | refine Fr.ite_snd ?_ ?_ | refine Fr.ite_trd ?_ ?_ | split
      | (refine Fr.snd_of ?_ (by assumption)) | (refine Fr.trd_of ?_ (by assumption))

theorem State.domainDone_parts {p : Nat} {s x : State} (a1 : Nat) (a2 : List Byte) (hp : 0x8022010 ||| p = p) (h : Fr p s x) : Fr p s (State.domainDone x a1 a2).2 := by
  unfold State.domainDone
  with_reducible
    repeat' first
      | assumption | exact Fr.up (by decide) hp | apply State.tableLoad_parts
      | apply State.otpProgram_parts | refine Fr.ite ?_ ?_ | refine Fr.ite_snd ?_ ?_ | refine Fr.ite_trd ?_ ?_ | lift_lets
      | (intro y; refine Fr.cut p s y ?_ (fun hy => ?_); (on_goal 1 => subst y); (on_goal 2 => clear_value y)) | intro y | split
      | (refine Fr.snd_of ?_ (by assumption)) | (refine Fr.trd_of ?_ (by assumption))

theorem State.putTransfer_parts {p : Nat} {s x : State} (a1 : Transfer) (hp : 0x800000000 ||| p = p) (h : Fr p s x) : Fr p s (State.putTransfer x a1) := by
  unfold State.putTransfer
  with_reducible
    repeat' first
      | assumption | exact Fr.up (by decide) hp | lift_lets
      | (intro y; refine Fr.cut p s y ?_ (fun hy => ?_); (on_goal 1 => subst y); (on_goal 2 => clear_value y)) | intro y | apply Fr.mk_srv

theorem State.transferEnd_parts {p : Nat} {s x : State} (a1 : Master) (a2 : Nat) (a3 : List Byte) (hp : 0x808022010 ||| p = p) (h : Fr p s x) : Fr p s (State.transferEnd x a1 a2 a3).2 := by
  unfold State.transferEnd
  with_reducible
    repeat' first
      | assumption | exact Fr.up (by decide) hp | apply State.domainDone_parts
      | apply State.answerWith_parts | apply State.dropTransfer_parts | refine Fr.ite ?_ ?_ | refine Fr.ite_snd ?_ ?_
      | refine Fr.ite_trd ?_ ?_ | lift_lets
      | (intro y; refine Fr.cut p s y ?_ (fun hy => ?_); (on_goal 1 => subst y); (on_goal 2 => clear_value y)) | intro y | split
      | (refine Fr.snd_of ?_ (by assumption)) | (refine Fr.trd_of ?_ (by assumption)) | apply Fr.mk_srv

theorem State.writeSegment_parts {p : Nat} {s x : State} (a1 : Master) (a2 : Nat) (a3 : Nat) (a4 : Bool) (a5 : List Byte) (hp : 0x808022010 ||| p = p) (h : Fr p s x) : Fr p s (State.writeSegment x a1 a2 a3 a4 a5).2 := by
  unfold State.writeSegment
  with_reducible
    repeat' first
      | assumption | exact Fr.up (by decide) hp | apply State.transferEnd_parts
      | apply State.putTransfer_parts | apply State.answerWith_parts | apply State.dropTransfer_parts | apply State.set_parts
      | refine Fr.ite ?_ ?_ | refine Fr.ite_snd ?_ ?_ | refine Fr.ite_trd ?_ ?_ | lift_lets
      | (intro y; refine Fr.cut p s y ?_ (fun hy => ?_); (on_goal 1 => subst y); (on_goal 2 => clear_value y)) | intro y | split
      | (refine Fr.snd_of ?_ (by assumption)) | (refine Fr.trd_of ?_ (by assumption))

theorem State.writeQ_parts {p : Nat} {s x : State} (a1 : Nat) (a2 : Nat) (hp : 0xfff85ffdf8 ||| p = p) (h : Fr p s x) : Fr p s (State.writeQ x a1 a2).2 := by
  unfold State.writeQ
  with_reducible
    repeat' first
      | assumption | exact Fr.up (by decide) hp | apply State.writeKey_parts | lift_lets
      | (intro y; refine Fr.cut p s y ?_ (fun hy => ?_); (on_goal 1 => subst y); (on_goal 2 => clear_value y)) | intro y | split
      | (refine Fr.snd_of ?_ (by assumption)) | (refine Fr.trd_of ?_ (by assumption))

end Sys2Proof.Machine
end

