-- ==== Sys2Proof/Laws/PartsSeqOps.lean ====
section
/-!
SUPPORT. PartsSeqOps.lean: the footprint of every operation of Machine/SeqOps.lean.
-/
set_option linter.unusedTactic false
set_option linter.unreachableTactic false
set_option linter.unusedVariables false
namespace Sys2Proof.Machine

theorem State.modSq_parts {p : Nat} {s x : State} (a1 : Nat) (a2 : Seq → Seq) (hp : 0x100000000 ||| p = p) (h : Fr p s x) : Fr p s (State.modSq x a1 a2) := by
  unfold State.modSq
  with_reducible
    repeat' first
      | assumption | exact Fr.up (by decide) hp | apply Fr.mk_seqs

theorem State.countRefusal_parts {p : Nat} {s x : State} (a1 : Nat) (hp : 0x100004000 ||| p = p) (h : Fr p s x) : Fr p s (State.countRefusal x a1) := by
  unfold State.countRefusal
  with_reducible
    repeat' first
      | assumption | exact Fr.up (by decide) hp | apply State.modSq_parts | refine Fr.ite ?_ ?_
      | lift_lets | (intro y; refine Fr.cut p s y ?_ (fun hy => ?_); (on_goal 1 => subst y); (on_goal 2 => clear_value y)) | intro y
      | apply Fr.mk_recs

theorem State.seqRefused_parts {p : Nat} {s x : State} (a1 : Nat) (hp : 0x100006010 ||| p = p) (h : Fr p s x) : Fr p s (State.seqRefused x a1) := by
  unfold State.seqRefused
  with_reducible
    repeat' first
      | assumption | exact Fr.up (by decide) hp | apply State.countRefusal_parts
      | apply State.modSq_parts | apply State.raise_parts | refine Fr.ite ?_ ?_ | lift_lets
      | (intro y; refine Fr.cut p s y ?_ (fun hy => ?_); (on_goal 1 => subst y); (on_goal 2 => clear_value y)) | intro y

theorem State.seqRemote_parts {p : Nat} {s x : State} (a1 : Nat) (a2 : Nat) (a3 : Nat) (a4 : List Byte) (hp : 0x80002010 ||| p = p) (h : Fr p s x) : Fr p s (State.seqRemote x a1 a2 a3 a4) := by
  unfold State.seqRemote
  with_reducible
    repeat' first
      | assumption | exact Fr.up (by decide) hp | apply State.fabSend_parts
      | apply State.fabBroadcast_parts | refine Fr.ite ?_ ?_ | lift_lets
      | (intro y; refine Fr.cut p s y ?_ (fun hy => ?_); (on_goal 1 => subst y); (on_goal 2 => clear_value y)) | intro y | apply Fr.mk_fab

theorem State.seqAct_parts {p : Nat} {s x : State} (a1 : Nat) (a2 : List Byte) (hp : 0xfff85ffdf8 ||| p = p) (h : Fr p s x) : Fr p s (State.seqAct x a1 a2) := by
  unfold State.seqAct
  with_reducible
    repeat' first
      | assumption | exact Fr.up (by decide) hp | apply State.seqRemote_parts
      | apply State.seqRefused_parts | apply State.writeKey_parts | refine Fr.ite ?_ ?_ | refine Fr.ite_snd ?_ ?_
      | refine Fr.ite_trd ?_ ?_ | lift_lets
      | (intro y; refine Fr.cut p s y ?_ (fun hy => ?_); (on_goal 1 => subst y); (on_goal 2 => clear_value y)) | intro y | split
      | (refine Fr.snd_of ?_ (by assumption)) | (refine Fr.trd_of ?_ (by assumption))

theorem State.seqEnter_parts {p : Nat} {s x : State} (a1 : Nat) (a2 : Nat) (hp : 0xfff85ffdf8 ||| p = p) (h : Fr p s x) : Fr p s (State.seqEnter x a1 a2) := by
  unfold State.seqEnter
  with_reducible
    repeat' first
      | assumption | exact Fr.up (by decide) hp | apply State.seqAct_parts | apply State.modSq_parts
      | apply State.set_parts | refine Fr.foldl _ ?_ (fun y a hy => ?_) | lift_lets
      | (intro y; refine Fr.cut p s y ?_ (fun hy => ?_); (on_goal 1 => subst y); (on_goal 2 => clear_value y)) | intro y

theorem State.seqLoop_parts {p : Nat} {s x : State} (a1 : Nat) (hp : 0x100002010 ||| p = p) (h : Fr p s x) : Fr p s (State.seqLoop x a1) := by
  unfold State.seqLoop
  with_reducible
    repeat' first
      | assumption | exact Fr.up (by decide) hp | apply State.modSq_parts | apply State.raise_parts
      | refine Fr.ite ?_ ?_ | lift_lets
      | (intro y; refine Fr.cut p s y ?_ (fun hy => ?_); (on_goal 1 => subst y); (on_goal 2 => clear_value y)) | intro y

theorem State.seqRun_parts {p : Nat} {s x : State} (i n : Nat) (hp : 0xfff85ffdf8 ||| p = p) (h : Fr p s x) : Fr p s (x.seqRun i n) := by
  induction n generalizing x with
  | zero => exact Fr.ite (State.seqLoop_parts i (Fr.up rfl hp) h) h
  | succ n ih =>
    unfold State.seqRun
    split
    · exact h
    · exact ih (State.seqEnter_parts _ _ (Fr.up rfl hp) h)

theorem State.seqTrap1_parts {p : Nat} {s x : State} (a1 : Nat) (hp : 0xfff85ffdf8 ||| p = p) (h : Fr p s x) : Fr p s (State.seqTrap1 x a1) := by
  unfold State.seqTrap1
  with_reducible
    repeat' first
      | assumption | exact Fr.up (by decide) hp | apply State.seqEnter_parts | apply State.modSq_parts
      | apply State.set_parts | refine Fr.ite ?_ ?_ | lift_lets
      | (intro y; refine Fr.cut p s y ?_ (fun hy => ?_); (on_goal 1 => subst y); (on_goal 2 => clear_value y)) | intro y

theorem State.seqTrap_parts {p : Nat} {s x : State} (hp : 0xfff85ffdf8 ||| p = p) (h : Fr p s x) : Fr p s (State.seqTrap x) := by
  unfold State.seqTrap
  with_reducible
    repeat' first
      | assumption | exact Fr.up (by decide) hp | apply State.seqTrap1_parts
      | refine Fr.foldl _ ?_ (fun y a hy => ?_)

theorem State.seqStart1_parts {p : Nat} {s x : State} (a1 : Bool) (a2 : Nat) (hp : 0xfff85ffdf8 ||| p = p) (h : Fr p s x) : Fr p s (State.seqStart1 x a1 a2) := by
  unfold State.seqStart1
  with_reducible
    repeat' first
      | assumption | exact Fr.up (by decide) hp | apply State.seqEnter_parts | apply State.modSq_parts
      | apply State.set_parts | refine Fr.ite ?_ ?_ | lift_lets
      | (intro y; refine Fr.cut p s y ?_ (fun hy => ?_); (on_goal 1 => subst y); (on_goal 2 => clear_value y)) | intro y

theorem State.seqStart_parts {p : Nat} {s x : State} (a1 : Bool) (hp : 0xfff85ffdf8 ||| p = p) (h : Fr p s x) : Fr p s (State.seqStart x a1) := by
  unfold State.seqStart
  with_reducible
    repeat' first
      | assumption | exact Fr.up (by decide) hp | apply State.seqStart1_parts
      | refine Fr.foldl _ ?_ (fun y a hy => ?_)

theorem State.seqRestart_parts {p : Nat} {s x : State} (a1 : Nat) (hp : 0xfff85ffdf8 ||| p = p) (h : Fr p s x) : Fr p s (State.seqRestart x a1) := by
  unfold State.seqRestart
  with_reducible
    repeat' first
      | assumption | exact Fr.up (by decide) hp | apply State.seqStart1_parts
      | refine Fr.foldl _ ?_ (fun y a hy => ?_) | refine Fr.ite ?_ ?_

theorem State.seqEvaluate_parts {p : Nat} {s x : State} (a1 : Nat) (a2 : Bool) (hp : 0xfff85ffdf8 ||| p = p) (h : Fr p s x) : Fr p s (State.seqEvaluate x a1 a2) := by
  unfold State.seqEvaluate
  with_reducible
    repeat' first
      | assumption | exact Fr.up (by decide) hp | apply State.seqTrap1_parts | apply State.seqRun_parts
      | apply State.modSq_parts | apply State.raise_parts | apply State.set_parts | refine Fr.ite ?_ ?_ | lift_lets
      | (intro y; refine Fr.cut p s y ?_ (fun hy => ?_); (on_goal 1 => subst y); (on_goal 2 => clear_value y)) | intro y

end Sys2Proof.Machine
end

