-- ==== Sys2Proof/Laws/PartsUdsOps.lean ====
section
/-!
SUPPORT. PartsUdsOps.lean: the footprint of every operation of Machine/UdsOps.lean.
-/
set_option linter.unusedTactic false
set_option linter.unreachableTactic false
set_option linter.unusedVariables false
namespace Sys2Proof.Machine

theorem State.modU_parts {p : Nat} {s x : State} (a1 : Uds → Uds) (hp : 0x8000000000 ||| p = p) (h : Fr p s x) : Fr p s (State.modU x a1) := by
  unfold State.modU
  with_reducible
    repeat' first
      | assumption | exact Fr.up (by decide) hp | apply Fr.mk_uds

theorem State.udsEmit_parts {p : Nat} {s x : State} (a1 : List Byte) (hp : 0x1000000000 ||| p = p) (h : Fr p s x) : Fr p s (State.udsEmit x a1) := by
  unfold State.udsEmit
  with_reducible
    repeat' first
      | assumption | exact Fr.up (by decide) hp | apply State.canQueue_parts

theorem State.udsOut_parts {p : Nat} {s x : State} (a1 : List Byte) (hp : 0x9000000000 ||| p = p) (h : Fr p s x) : Fr p s (State.udsOut x a1) := by
  unfold State.udsOut
  with_reducible
    repeat' first
      | assumption | exact Fr.up (by decide) hp | apply State.udsEmit_parts | apply State.modU_parts
      | refine Fr.ite ?_ ?_ | lift_lets
      | (intro y; refine Fr.cut p s y ?_ (fun hy => ?_); (on_goal 1 => subst y); (on_goal 2 => clear_value y)) | intro y

theorem State.udsPump_parts {p : Nat} {s x : State} (hp : 0x9000000000 ||| p = p) (h : Fr p s x) : Fr p s (State.udsPump x) := by
  unfold State.udsPump
  with_reducible
    repeat' first
      | assumption | exact Fr.up (by decide) hp | apply State.udsEmit_parts | apply State.modU_parts
      | refine Fr.ite ?_ ?_ | split | lift_lets
      | (intro y; refine Fr.cut p s y ?_ (fun hy => ?_); (on_goal 1 => subst y); (on_goal 2 => clear_value y)) | intro y

theorem State.udsSend_parts {p : Nat} {s x : State} (a1 : List Byte) (hp : 0x9000000000 ||| p = p) (h : Fr p s x) : Fr p s (State.udsSend x a1) := by
  unfold State.udsSend
  with_reducible
    repeat' first
      | assumption | exact Fr.up (by decide) hp | apply State.udsOut_parts | apply State.modU_parts

theorem State.udsNegative_parts {p : Nat} {s x : State} (a1 : Bool) (a2 : Nat) (a3 : Nat) (hp : 0x9000000000 ||| p = p) (h : Fr p s x) : Fr p s (State.udsNegative x a1 a2 a3) := by
  unfold State.udsNegative
  with_reducible
    repeat' first
      | assumption | exact Fr.up (by decide) hp | apply State.udsSend_parts | refine Fr.ite ?_ ?_

theorem State.udsPositive_parts {p : Nat} {s x : State} (a1 : Bool) (a2 : Nat) (a3 : List Byte) (hp : 0x9000000000 ||| p = p) (h : Fr p s x) : Fr p s (State.udsPositive x a1 a2 a3) := by
  unfold State.udsPositive
  with_reducible
    repeat' first
      | assumption | exact Fr.up (by decide) hp | apply State.udsSend_parts | apply State.modU_parts
      | refine Fr.ite ?_ ?_

theorem State.linRelease_parts {p : Nat} {s x : State} (a1 : Nat) (a2 : Nat) (hp : 0x4000000000 ||| p = p) (h : Fr p s x) : Fr p s (State.linRelease x a1 a2) := by
  unfold State.linRelease
  with_reducible
    repeat' first
      | assumption | exact Fr.up (by decide) hp | refine Fr.ite ?_ ?_ | lift_lets
      | (intro y; refine Fr.cut p s y ?_ (fun hy => ?_); (on_goal 1 => subst y); (on_goal 2 => clear_value y)) | intro y | split
      | apply Fr.mk_lin

theorem State.releaseHeld_parts {p : Nat} {s x : State} (a1 : Nat) (a2 : Nat) (hp : 0xd000000000 ||| p = p) (h : Fr p s x) : Fr p s (State.releaseHeld x a1 a2) := by
  unfold State.releaseHeld
  with_reducible
    repeat' first
      | assumption | exact Fr.up (by decide) hp | apply State.linRelease_parts
      | apply State.udsNegative_parts | apply State.udsSend_parts | apply State.modU_parts | apply State.canKeep_parts
      | apply State.canQueue_parts | apply State.modCan_parts | refine Fr.foldl _ ?_ (fun y a hy => ?_) | refine Fr.ite ?_ ?_ | lift_lets
      | (intro y; refine Fr.cut p s y ?_ (fun hy => ?_); (on_goal 1 => subst y); (on_goal 2 => clear_value y)) | intro y | split

theorem State.secSeed_parts {p : Nat} {s x : State} (a1 : Nat) (hp : 0x8000000008 ||| p = p) (h : Fr p s x) : Fr p s (State.secSeed x a1).2.2 := by
  unfold State.secSeed
  with_reducible
    repeat' first
      | assumption | exact Fr.up (by decide) hp | apply State.modU_parts | apply State.draw_parts
      | refine Fr.ite ?_ ?_ | refine Fr.ite_snd ?_ ?_ | refine Fr.ite_trd ?_ ?_ | lift_lets
      | (intro y; refine Fr.cut p s y ?_ (fun hy => ?_); (on_goal 1 => subst y); (on_goal 2 => clear_value y)) | intro y | split
      | (refine Fr.snd_of ?_ (by assumption)) | (refine Fr.trd_of ?_ (by assumption))

theorem State.secWrong_parts {p : Nat} {s x : State} (hp : 0x2110 ||| p = p) (h : Fr p s x) : Fr p s (State.secWrong x).2 := by
  unfold State.secWrong
  with_reducible
    repeat' first
      | assumption | exact Fr.up (by decide) hp | apply State.raise_parts | apply State.tally_parts
      | apply State.set_parts | refine Fr.ite ?_ ?_ | refine Fr.ite_snd ?_ ?_ | refine Fr.ite_trd ?_ ?_ | lift_lets
      | (intro y; refine Fr.cut p s y ?_ (fun hy => ?_); (on_goal 1 => subst y); (on_goal 2 => clear_value y)) | intro y | split
      | (refine Fr.snd_of ?_ (by assumption)) | (refine Fr.trd_of ?_ (by assumption)) | apply Fr.mk_aon

theorem State.secKey_parts {p : Nat} {s x : State} (a1 : Nat) (a2 : List Byte) (hp : 0x8000002110 ||| p = p) (h : Fr p s x) : Fr p s (State.secKey x a1 a2).2 := by
  unfold State.secKey
  with_reducible
    repeat' first
      | assumption | exact Fr.up (by decide) hp | apply State.secWrong_parts | apply State.modU_parts
      | apply State.set_parts | refine Fr.ite ?_ ?_ | refine Fr.ite_snd ?_ ?_ | refine Fr.ite_trd ?_ ?_ | lift_lets
      | (intro y; refine Fr.cut p s y ?_ (fun hy => ?_); (on_goal 1 => subst y); (on_goal 2 => clear_value y)) | intro y | split
      | (refine Fr.snd_of ?_ (by assumption)) | (refine Fr.trd_of ?_ (by assumption))

end Sys2Proof.Machine
end

