-- ==== Sys2Proof/Laws/PartsDictCmds.lean ====
section
/-!
SUPPORT. PartsDictCmds.lean: the footprint of every operation of Machine/DictCmds.lean.
-/
set_option linter.unusedTactic false
set_option linter.unreachableTactic false
set_option linter.unusedVariables false
namespace Sys2Proof.Machine

theorem State.writeWhole_parts {p : Nat} {s x : State} (a1 : Master) (a2 : Nat) (a3 : List Byte) (hp : 0xfff85ffdf8 ||| p = p) (h : Fr p s x) : Fr p s (State.writeWhole x a1 a2 a3).2 := by
  unfold State.writeWhole
  with_reducible
    repeat' first
      | assumption | exact Fr.up (by decide) hp | apply State.writeSegment_parts
      | apply State.writeKey_parts | refine Fr.ite ?_ ?_ | refine Fr.ite_snd ?_ ?_ | refine Fr.ite_trd ?_ ?_ | split
      | (refine Fr.snd_of ?_ (by assumption)) | (refine Fr.trd_of ?_ (by assumption))

theorem State.asked_parts {p : Nat} {s x : State} (a1 : Master) (a2 : State → State) (hf : ∀ y, Fr p s y → Fr p s (a2 y)) (hp : 0x0 ||| p = p) (h : Fr p s x) : Fr p s (State.asked x a1 a2) := by
  unfold State.asked
  with_reducible
    repeat' first
      | assumption | exact Fr.up (by decide) hp | apply hf | refine Fr.ite ?_ ?_

theorem execObjectWrite_parts {s t : State} (a0 : Master) (a1 : Nat) (a2 : List Byte) (h : execObjectWrite a0 a1 a2 s = .next t) : Fr 0xfff85ffdf8 s t := by
  unfold execObjectWrite at h
  cases h
  have h := Fr.refl 0xfff85ffdf8 s
  have hp : 0xfff85ffdf8 ||| 0xfff85ffdf8 = 0xfff85ffdf8 := rfl
  with_reducible
    repeat' first
      | assumption | exact Fr.up (by decide) hp | apply State.asked_parts
      | apply State.writeWhole_parts | apply State.logged_parts | refine fun y hy => ?_ | split | (refine Fr.snd_of ?_ (by assumption))
      | (refine Fr.trd_of ?_ (by assumption))

theorem execDomainWriteSegment_parts {s t : State} (a0 : Master) (a1 : Nat) (a2 : Nat) (a3 : Bool) (a4 : List Byte) (h : execDomainWriteSegment a0 a1 a2 a3 a4 s = .next t) : Fr 0x808022010 s t := by
  unfold execDomainWriteSegment at h
  cases h
  have h := Fr.refl 0x808022010 s
  have hp : 0x808022010 ||| 0x808022010 = 0x808022010 := rfl
  with_reducible
    repeat' first
      | assumption | exact Fr.up (by decide) hp | apply State.asked_parts
      | apply State.writeSegment_parts | refine fun y hy => ?_ | split | (refine Fr.snd_of ?_ (by assumption))
      | (refine Fr.trd_of ?_ (by assumption))

theorem execDomainReadSegment_parts {s t : State} (a0 : Master) (a1 : Nat) (a2 : Nat) (a3 : Nat) (h : execDomainReadSegment a0 a1 a2 a3 s = .next t) : Fr 0x800016010 s t := by
  unfold execDomainReadSegment at h
  cases h
  have h := Fr.refl 0x800016010 s
  have hp : 0x800016010 ||| 0x800016010 = 0x800016010 := rfl
  with_reducible
    repeat' first
      | assumption | exact Fr.up (by decide) hp | apply State.asked_parts
      | apply State.readSegment_parts | refine fun y hy => ?_ | split | (refine Fr.snd_of ?_ (by assumption))
      | (refine Fr.trd_of ?_ (by assumption))

theorem execDomainSnapshotExpiry_parts {s t : State} (a0 : Master) (a1 : Nat) (h : execDomainSnapshotExpiry a0 a1 s = .next t) : Fr 0x800000000 s t := by
  unfold execDomainSnapshotExpiry at h
  cases h
  have h := Fr.refl 0x800000000 s
  have hp : 0x800000000 ||| 0x800000000 = 0x800000000 := rfl
  with_reducible
    repeat' first
      | assumption | exact Fr.up (by decide) hp | apply State.dropSnap_parts

theorem execWholeObjectRead_parts {s t : State} (a0 : Master) (a1 : Nat) (h : execWholeObjectRead a0 a1 s = .next t) : Fr 0x800016010 s t := by
  unfold execWholeObjectRead at h
  cases h
  have h := Fr.refl 0x800016010 s
  have hp : 0x800016010 ||| 0x800016010 = 0x800016010 := rfl
  with_reducible
    repeat' first
      | assumption | exact Fr.up (by decide) hp | apply State.asked_parts | apply State.readKey_parts
      | refine fun y hy => ?_ | split | (refine Fr.snd_of ?_ (by assumption)) | (refine Fr.trd_of ?_ (by assumption))

theorem execOdLockWrite_parts {s t : State} (a0 : Master) (a1 : Nat) (a2 : Nat) (h : execOdLockWrite a0 a1 a2 s = .next t) : Fr 0xfff85ffdf8 s t := by
  unfold execOdLockWrite at h
  cases h
  have h := Fr.refl 0xfff85ffdf8 s
  have hp : 0xfff85ffdf8 ||| 0xfff85ffdf8 = 0xfff85ffdf8 := rfl
  with_reducible
    repeat' first
      | assumption | exact Fr.up (by decide) hp | apply State.asked_parts | apply State.writeKey_parts
      | apply State.logged_parts | refine fun y hy => ?_ | split | (refine Fr.snd_of ?_ (by assumption))
      | (refine Fr.trd_of ?_ (by assumption))

theorem execOdLockLeaseExpiry_parts {s t : State} (a0 : Nat) (h : execOdLockLeaseExpiry a0 s = .next t) : Fr 0x10 s t := by
  unfold execOdLockLeaseExpiry at h
  cases h
  have h := Fr.refl 0x10 s
  have hp : 0x10 ||| 0x10 = 0x10 := rfl
  with_reducible
    repeat' first
      | assumption | exact Fr.up (by decide) hp | apply State.set_parts | refine Fr.ite ?_ ?_

theorem execOdCommit_parts {s t : State} (a0 : Master) (a1 : Nat) (h : execOdCommit a0 a1 s = .next t) : Fr 0xfff85ffdf8 s t := by
  unfold execOdCommit at h
  cases h
  have h := Fr.refl 0xfff85ffdf8 s
  have hp : 0xfff85ffdf8 ||| 0xfff85ffdf8 = 0xfff85ffdf8 := rfl
  with_reducible
    repeat' first
      | assumption | exact Fr.up (by decide) hp | apply State.asked_parts | apply State.writeKey_parts
      | apply State.logged_parts | refine fun y hy => ?_ | split | (refine Fr.snd_of ?_ (by assumption))
      | (refine Fr.trd_of ?_ (by assumption))

theorem execJournalCommit_parts {s t : State} (h : execJournalCommit s = .next t) : Fr 0x10010 s t := by
  unfold execJournalCommit at h
  cases h
  have h := Fr.refl 0x10010 s
  have hp : 0x10010 ||| 0x10010 = 0x10010 := rfl
  with_reducible
    repeat' first
      | assumption | exact Fr.up (by decide) hp | apply State.commitStart_parts | refine Fr.ite ?_ ?_

theorem execJournalCommitDone_parts {s t : State} (a0 : Bool) (a1 : Nat) (h : execJournalCommitDone a0 a1 s = .next t) : Fr 0xd200012010 s t := by
  unfold execJournalCommitDone at h
  cases h
  have h := Fr.refl 0xd200012010 s
  have hp : 0xd200012010 ||| 0xd200012010 = 0xd200012010 := rfl
  with_reducible
    repeat' first
      | assumption | exact Fr.up (by decide) hp | apply State.releaseHeld_parts
      | apply State.commitAgain_parts | apply State.commitDone_parts | refine Fr.ite ?_ ?_ | lift_lets
      | (intro y; refine Fr.cut _ s y ?_ (fun hy => ?_); (on_goal 1 => subst y); (on_goal 2 => clear_value y)) | intro y

theorem execOdRestore_parts {s t : State} (a0 : Master) (a1 : Nat) (h : execOdRestore a0 a1 s = .next t) : Fr 0xfff85ffdf8 s t := by
  unfold execOdRestore at h
  cases h
  have h := Fr.refl 0xfff85ffdf8 s
  have hp : 0xfff85ffdf8 ||| 0xfff85ffdf8 = 0xfff85ffdf8 := rfl
  with_reducible
    repeat' first
      | assumption | exact Fr.up (by decide) hp | apply State.asked_parts | apply State.writeKey_parts
      | apply State.logged_parts | refine fun y hy => ?_ | split | (refine Fr.snd_of ?_ (by assumption))
      | (refine Fr.trd_of ?_ (by assumption))

theorem State.portSend_parts {p : Nat} {s x : State} (a1 : Nat) (a2 : Option (Master × Nat)) (hp : 0x8000024f0 ||| p = p) (h : Fr p s x) : Fr p s (State.portSend x a1 a2) := by
  unfold State.portSend
  with_reducible
    repeat' first
      | assumption | exact Fr.up (by decide) hp | apply State.answerWith_parts
      | apply State.portRaw_parts | apply State.refuse_parts | refine Fr.ite ?_ ?_ | lift_lets
      | (intro y; refine Fr.cut p s y ?_ (fun hy => ?_); (on_goal 1 => subst y); (on_goal 2 => clear_value y)) | intro y | split

theorem execPortLatchWrite_parts {s t : State} (a0 : Nat) (a1 : Nat) (a2 : Option (Master × Nat)) (h : execPortLatchWrite a0 a1 a2 s = .next t) : Fr 0x8000824f0 s t := by
  unfold execPortLatchWrite at h
  cases h
  have h := Fr.refl 0x8000824f0 s
  have hp : 0x8000824f0 ||| 0x8000824f0 = 0x8000824f0 := rfl
  with_reducible
    repeat' first
      | assumption | exact Fr.up (by decide) hp | apply State.portSend_parts | apply State.logged_parts
      | apply State.refuse_parts | refine Fr.ite ?_ ?_ | refine fun y hy => ?_

end Sys2Proof.Machine
end

