-- ==== Sys2Proof/Laws/PartsPowerPath.lean ====
section
/-!
SUPPORT. PartsPowerPath.lean: the footprint of every operation of Machine/PowerPath.lean.
-/
set_option linter.unusedTactic false
set_option linter.unreachableTactic false
set_option linter.unusedVariables false
namespace Sys2Proof.Machine

theorem State.rideEnter_parts {p : Nat} {s x : State} (a1 : Nat) (hp : 0x20204028f0 ||| p = p) (h : Fr p s x) : Fr p s (State.rideEnter x a1) := by
  unfold State.rideEnter
  with_reducible
    repeat' first
      | assumption | exact Fr.up (by decide) hp | apply State.setMode_parts | refine Fr.ite ?_ ?_
      | lift_lets | (intro y; refine Fr.cut p s y ?_ (fun hy => ?_); (on_goal 1 => subst y); (on_goal 2 => clear_value y)) | intro y
      | apply Fr.mk_mode

theorem State.rideReturn_parts {p : Nat} {s x : State} (hp : 0x39f04dbdf0 ||| p = p) (h : Fr p s x) : Fr p s (State.rideReturn x) := by
  unfold State.rideReturn
  with_reducible
    repeat' first
      | assumption | exact Fr.up (by decide) hp | apply State.actStored_parts
      | apply State.toService_parts | apply State.parkStart_parts | apply State.setMode_parts | refine Fr.ite ?_ ?_ | lift_lets
      | (intro y; refine Fr.cut p s y ?_ (fun hy => ?_); (on_goal 1 => subst y); (on_goal 2 => clear_value y)) | intro y
      | apply Fr.mk_mode

theorem State.discFrom_parts {p : Nat} {s x : State} (hp : 0x1000 ||| p = p) (h : Fr p s x) : Fr p s (State.discFrom x) := by
  unfold State.discFrom
  with_reducible
    repeat' first
      | assumption | exact Fr.up (by decide) hp | lift_lets
      | (intro y; refine Fr.cut p s y ?_ (fun hy => ?_); (on_goal 1 => subst y); (on_goal 2 => clear_value y)) | intro y | apply Fr.mk_src

theorem State.exhaustedAny_parts {p : Nat} {s x : State} (a1 : Int) (hp : 0x3bf04dbdf0 ||| p = p) (h : Fr p s x) : Fr p s (State.exhaustedAny x a1) := by
  unfold State.exhaustedAny
  with_reducible
    repeat' first
      | assumption | exact Fr.up (by decide) hp | apply State.exhaustedStratus_parts
      | apply State.exhausted_parts | refine Fr.ite ?_ ?_

theorem State.lossShell_parts {p : Nat} {s x : State} (a1 : Nat) (a2 : Bool) (a3 : Int) (hp : 0x3bf0cdbdf0 ||| p = p) (h : Fr p s x) : Fr p s (State.lossShell x a1 a2 a3) := by
  unfold State.lossShell
  with_reducible
    repeat' first
      | assumption | exact Fr.up (by decide) hp | apply State.rideEnter_parts
      | apply State.classAbandon_parts | apply State.exhausted_parts | apply State.sourceLoss_parts | apply State.srcState_parts
      | apply State.probeAbandon_parts | apply State.raise_parts | apply State.count_parts | refine Fr.ite ?_ ?_ | lift_lets
      | (intro y; refine Fr.cut p s y ?_ (fun hy => ?_); (on_goal 1 => subst y); (on_goal 2 => clear_value y)) | intro y
      | apply Fr.mk_hour

theorem State.classCut_parts {p : Nat} {s x : State} (a1 : Nat) (hp : 0x4030f0 ||| p = p) (h : Fr p s x) : Fr p s (State.classCut x a1) := by
  unfold State.classCut
  with_reducible
    repeat' first
      | assumption | exact Fr.up (by decide) hp | apply State.classAbandon_parts
      | apply State.rowLatches_parts | apply State.srcState_parts | apply State.discOff_parts | apply State.commitWords_parts
      | refine Fr.ite ?_ ?_ | lift_lets
      | (intro y; refine Fr.cut p s y ?_ (fun hy => ?_); (on_goal 1 => subst y); (on_goal 2 => clear_value y)) | intro y
      | apply Fr.mk_core

theorem State.drop_parts {p : Nat} {s x : State} (a1 : Nat) (hp : 0x3bf0cdbdf0 ||| p = p) (h : Fr p s x) : Fr p s (State.drop x a1) := by
  unfold State.drop
  with_reducible
    repeat' first
      | assumption | exact Fr.up (by decide) hp | apply State.classCut_parts
      | apply State.lossShell_parts | apply State.exhaustedAny_parts | apply State.discFrom_parts | apply State.exhaustedStratus_parts
      | apply State.discOff_parts | refine Fr.ite ?_ ?_ | lift_lets
      | (intro y; refine Fr.cut p s y ?_ (fun hy => ?_); (on_goal 1 => subst y); (on_goal 2 => clear_value y)) | intro y
      | apply Fr.mk_core | apply Fr.mk_src

theorem State.dump_parts {p : Nat} {s x : State} (a1 : Nat) (hp : 0x3bf0cdbdf0 ||| p = p) (h : Fr p s x) : Fr p s (State.dump x a1) := by
  unfold State.dump
  with_reducible
    repeat' first
      | assumption | exact Fr.up (by decide) hp | apply State.classCut_parts
      | apply State.lossShell_parts | apply State.discFrom_parts | apply State.discOff_parts | refine Fr.ite ?_ ?_ | lift_lets
      | (intro y; refine Fr.cut p s y ?_ (fun hy => ?_); (on_goal 1 => subst y); (on_goal 2 => clear_value y)) | intro y
      | apply Fr.mk_core | apply Fr.mk_src

theorem execVbusDrop_parts {s t : State} (a0 : Nat) (h : execVbusDrop a0 s = .next t) : Fr 0x3bf0cdbdf0 s t := by
  unfold execVbusDrop at h
  cases h
  have h := Fr.refl 0x3bf0cdbdf0 s
  have hp : 0x3bf0cdbdf0 ||| 0x3bf0cdbdf0 = 0x3bf0cdbdf0 := rfl
  with_reducible
    repeat' first
      | assumption | exact Fr.up (by decide) hp | apply State.drop_parts | apply State.logged_parts
      | refine fun y hy => ?_

theorem execLoadDump_parts {s t : State} (a0 : Nat) (h : execLoadDump a0 s = .next t) : Fr 0x3bf0cdbdf0 s t := by
  unfold execLoadDump at h
  cases h
  have h := Fr.refl 0x3bf0cdbdf0 s
  have hp : 0x3bf0cdbdf0 ||| 0x3bf0cdbdf0 = 0x3bf0cdbdf0 := rfl
  with_reducible
    repeat' first
      | assumption | exact Fr.up (by decide) hp | apply State.dump_parts | apply State.logged_parts
      | refine fun y hy => ?_

theorem execReverseCurrent_parts {s t : State} (a0 : Fin 16) (a1 : Bool) (a2 : Nat) (h : execReverseCurrent a0 a1 a2 s = .next t) : Fr 0x3bf0cdbdf0 s t := by
  unfold execReverseCurrent at h
  cases h
  have h := Fr.refl 0x3bf0cdbdf0 s
  have hp : 0x3bf0cdbdf0 ||| 0x3bf0cdbdf0 = 0x3bf0cdbdf0 := rfl
  with_reducible
    repeat' first
      | assumption | exact Fr.up (by decide) hp | apply State.drop_parts | apply State.logged_parts
      | apply State.ev_parts | apply State.coreRaise_parts | refine Fr.ite ?_ ?_ | refine fun y hy => ?_

theorem State.longestNow_parts {p : Nat} {s x : State} (hp : 0x11010 ||| p = p) (h : Fr p s x) : Fr p s (State.longestNow x) := by
  unfold State.longestNow
  with_reducible
    repeat' first
      | assumption | exact Fr.up (by decide) hp | apply State.put_parts | refine Fr.ite ?_ ?_
      | lift_lets | (intro y; refine Fr.cut p s y ?_ (fun hy => ?_); (on_goal 1 => subst y); (on_goal 2 => clear_value y)) | intro y
      | apply Fr.mk_src

theorem State.discTo_parts {p : Nat} {s x : State} (hp : 0x1000 ||| p = p) (h : Fr p s x) : Fr p s (State.discTo x) := by
  unfold State.discTo
  with_reducible
    repeat' first
      | assumption | exact Fr.up (by decide) hp | lift_lets
      | (intro y; refine Fr.cut p s y ?_ (fun hy => ?_); (on_goal 1 => subst y); (on_goal 2 => clear_value y)) | intro y | split
      | apply Fr.mk_src

theorem State.srcConnect_parts {p : Nat} {s x : State} (a1 : Nat) (a2 : Nat) (hp : 0x39f04dbdf0 ||| p = p) (h : Fr p s x) : Fr p s (State.srcConnect x a1 a2) := by
  unfold State.srcConnect
  with_reducible
    repeat' first
      | assumption | exact Fr.up (by decide) hp | apply State.discTo_parts
      | apply State.longestNow_parts | apply State.rideReturn_parts | apply State.srcState_parts | apply State.discDone_parts
      | apply State.discOn_parts | apply State.freeG_parts | refine Fr.ite ?_ ?_ | lift_lets
      | (intro y; refine Fr.cut p s y ?_ (fun hy => ?_); (on_goal 1 => subst y); (on_goal 2 => clear_value y)) | intro y
      | apply Fr.mk_core_src

theorem State.reconnect_parts {p : Nat} {s x : State} (a1 : Nat) (a2 : Nat) (hp : 0x39f04dbdf0 ||| p = p) (h : Fr p s x) : Fr p s (State.reconnect x a1 a2) := by
  unfold State.reconnect
  with_reducible
    repeat' first
      | assumption | exact Fr.up (by decide) hp | apply State.srcConnect_parts
      | apply State.classStart_parts | apply State.srcState_parts | refine Fr.ite ?_ ?_ | lift_lets
      | (intro y; refine Fr.cut p s y ?_ (fun hy => ?_); (on_goal 1 => subst y); (on_goal 2 => clear_value y)) | intro y
      | apply Fr.mk_core

theorem execSourceReconnect_parts {s t : State} (a0 : Nat) (a1 : Nat) (a2 : Nat) (h : execSourceReconnect a0 a1 a2 s = .next t) : Fr 0x39f04dbdf0 s t := by
  unfold execSourceReconnect at h
  cases h
  have h := Fr.refl 0x39f04dbdf0 s
  have hp : 0x39f04dbdf0 ||| 0x39f04dbdf0 = 0x39f04dbdf0 := rfl
  with_reducible
    repeat' first
      | assumption | exact Fr.up (by decide) hp | apply State.reconnect_parts
      | apply State.logged_parts | refine Fr.ite ?_ ?_ | refine fun y hy => ?_

theorem State.overRailTrip_parts {p : Nat} {s x : State} (a1 : Nat) (hp : 0x4130f0 ||| p = p) (h : Fr p s x) : Fr p s (State.overRailTrip x a1) := by
  unfold State.overRailTrip
  with_reducible
    repeat' first
      | assumption | exact Fr.up (by decide) hp | apply State.classAbandon_parts
      | apply State.srcState_parts | apply State.discOff_parts | apply State.raise_parts | apply State.count_parts | refine Fr.ite ?_ ?_
      | lift_lets | (intro y; refine Fr.cut p s y ?_ (fun hy => ?_); (on_goal 1 => subst y); (on_goal 2 => clear_value y)) | intro y
      | apply Fr.mk_core | apply Fr.mk_src

theorem execOverRail_parts {s t : State} (a0 : Nat) (h : execOverRail a0 s = .next t) : Fr 0x4930f0 s t := by
  unfold execOverRail at h
  cases h
  have h := Fr.refl 0x4930f0 s
  have hp : 0x4930f0 ||| 0x4930f0 = 0x4930f0 := rfl
  with_reducible
    repeat' first
      | assumption | exact Fr.up (by decide) hp | apply State.overRailTrip_parts
      | apply State.logged_parts | refine fun y hy => ?_

theorem State.overRailEnd_parts {p : Nat} {s x : State} (a1 : Nat) (a2 : Nat) (hp : 0x3bf0cdbdf0 ||| p = p) (h : Fr p s x) : Fr p s (State.overRailEnd x a1 a2) := by
  unfold State.overRailEnd
  with_reducible
    repeat' first
      | assumption | exact Fr.up (by decide) hp | apply State.srcConnect_parts | apply State.drop_parts
      | apply State.classStart_parts | refine Fr.ite ?_ ?_ | lift_lets
      | (intro y; refine Fr.cut p s y ?_ (fun hy => ?_); (on_goal 1 => subst y); (on_goal 2 => clear_value y)) | intro y
      | apply Fr.mk_core

theorem execOverRailReconnect_parts {s t : State} (a0 : Nat) (a1 : Nat) (h : execOverRailReconnect a0 a1 s = .next t) : Fr 0x3bf0cdbdf0 s t := by
  unfold execOverRailReconnect at h
  cases h
  have h := Fr.refl 0x3bf0cdbdf0 s
  have hp : 0x3bf0cdbdf0 ||| 0x3bf0cdbdf0 = 0x3bf0cdbdf0 := rfl
  with_reducible
    repeat' first
      | assumption | exact Fr.up (by decide) hp | apply State.overRailEnd_parts
      | apply State.logged_parts | refine fun y hy => ?_

theorem State.detach_parts {p : Nat} {s x : State} (hp : 0x3bf04dbdf0 ||| p = p) (h : Fr p s x) : Fr p s (State.detach x) := by
  unfold State.detach
  with_reducible
    repeat' first
      | assumption | exact Fr.up (by decide) hp | apply State.classAbandon_parts
      | apply State.exhaustedStratus_parts | apply State.exhausted_parts | apply State.srcState_parts | apply State.discOff_parts
      | refine Fr.ite ?_ ?_ | lift_lets
      | (intro y; refine Fr.cut p s y ?_ (fun hy => ?_); (on_goal 1 => subst y); (on_goal 2 => clear_value y)) | intro y
      | apply Fr.mk_core | apply Fr.mk_src | apply Fr.mk_core_src

theorem execVbusDetach_parts {s t : State} (h : execVbusDetach s = .next t) : Fr 0x3bf04dbdf0 s t := by
  unfold execVbusDetach at h
  cases h
  have h := Fr.refl 0x3bf04dbdf0 s
  have hp : 0x3bf04dbdf0 ||| 0x3bf04dbdf0 = 0x3bf04dbdf0 := rfl
  with_reducible
    repeat' first
      | assumption | exact Fr.up (by decide) hp | apply State.detach_parts | apply State.logged_parts
      | refine fun y hy => ?_

theorem execPrechargeComplete_parts {s t : State} (h : execPrechargeComplete s = .next t) : Fr 0x80060 s t := by
  unfold execPrechargeComplete at h
  cases h
  have h := Fr.refl 0x80060 s
  have hp : 0x80060 ||| 0x80060 = 0x80060 := rfl
  with_reducible
    repeat' first
      | assumption | exact Fr.up (by decide) hp | apply State.logged_parts | apply State.discDone_parts
      | refine Fr.ite ?_ ?_ | refine fun y hy => ?_ | lift_lets
      | (intro y; refine Fr.cut _ s y ?_ (fun hy => ?_); (on_goal 1 => subst y); (on_goal 2 => clear_value y)) | intro y
      | apply Fr.mk_core

theorem State.block_parts {p : Nat} {s x : State} (hp : 0x4010f0 ||| p = p) (h : Fr p s x) : Fr p s (State.block x) := by
  unfold State.block
  with_reducible
    repeat' first
      | assumption | exact Fr.up (by decide) hp | apply State.classAbandon_parts
      | apply State.srcState_parts | apply State.discOff_parts | refine Fr.ite ?_ ?_ | lift_lets
      | (intro y; refine Fr.cut p s y ?_ (fun hy => ?_); (on_goal 1 => subst y); (on_goal 2 => clear_value y)) | intro y | apply Fr.mk_src
      | apply Fr.mk_core_src

theorem execDiscOpen_parts {s t : State} (h : execDiscOpen s = .next t) : Fr 0x4830f0 s t := by
  unfold execDiscOpen at h
  cases h
  have h := Fr.refl 0x4830f0 s
  have hp : 0x4830f0 ||| 0x4830f0 = 0x4830f0 := rfl
  with_reducible
    repeat' first
      | assumption | exact Fr.up (by decide) hp | apply State.block_parts | apply State.logged_parts
      | apply State.coreRaise_parts | refine Fr.ite ?_ ?_ | refine fun y hy => ?_

theorem execDiscShort_parts {s t : State} (a0 : Fin 16) (h : execDiscShort a0 s = .next t) : Fr 0x4830f0 s t := by
  unfold execDiscShort at h
  cases h
  have h := Fr.refl 0x4830f0 s
  have hp : 0x4830f0 ||| 0x4830f0 = 0x4830f0 := rfl
  with_reducible
    repeat' first
      | assumption | exact Fr.up (by decide) hp | apply State.block_parts | apply State.logged_parts
      | apply State.coreRaise_parts | refine Fr.ite ?_ ?_ | refine fun y hy => ?_

theorem execSrcClassify_parts {s t : State} (a0 : Master) (a1 : Nat) (h : execSrcClassify a0 a1 s = .next t) : Fr 0xfff85ffdf8 s t := by
  unfold execSrcClassify at h
  cases h
  have h := Fr.refl 0xfff85ffdf8 s
  have hp : 0xfff85ffdf8 ||| 0xfff85ffdf8 = 0xfff85ffdf8 := rfl
  with_reducible
    repeat' first
      | assumption | exact Fr.up (by decide) hp | apply State.asked_parts | apply State.writeKey_parts
      | apply State.logged_parts | refine fun y hy => ?_ | split | (refine Fr.snd_of ?_ (by assumption))
      | (refine Fr.trd_of ?_ (by assumption))

theorem State.srcUnknown_parts {p : Nat} {s x : State} (a1 : Nat) (hp : 0x2010 ||| p = p) (h : Fr p s x) : Fr p s (State.srcUnknown x a1) := by
  unfold State.srcUnknown
  with_reducible
    repeat' first
      | assumption | exact Fr.up (by decide) hp | apply State.raise_parts | apply State.set_parts

theorem State.srcOver_parts {p : Nat} {s x : State} (a1 : Nat) (hp : 0x4030f0 ||| p = p) (h : Fr p s x) : Fr p s (State.srcOver x a1) := by
  unfold State.srcOver
  with_reducible
    repeat' first
      | assumption | exact Fr.up (by decide) hp | apply State.srcUnknown_parts
      | apply State.block_parts | apply State.raise_parts | apply State.set_parts | lift_lets
      | (intro y; refine Fr.cut p s y ?_ (fun hy => ?_); (on_goal 1 => subst y); (on_goal 2 => clear_value y)) | intro y | apply Fr.mk_src

theorem State.classWindow_parts {p : Nat} {s x : State} (a1 : Nat) (a2 : Nat) (hp : 0x4030f0 ||| p = p) (h : Fr p s x) : Fr p s (State.classWindow x a1 a2) := by
  unfold State.classWindow
  with_reducible
    repeat' first
      | assumption | exact Fr.up (by decide) hp | apply State.srcOver_parts
      | apply State.rowLatches_parts | apply State.discOn_parts | apply State.commitWords_parts | apply State.set_parts
      | refine Fr.ite ?_ ?_ | lift_lets
      | (intro y; refine Fr.cut p s y ?_ (fun hy => ?_); (on_goal 1 => subst y); (on_goal 2 => clear_value y)) | intro y | apply Fr.mk_src
      | apply Fr.mk_core_src

theorem execClassificationWindowTest_parts {s t : State} (a0 : Nat) (a1 : Nat) (h : execClassificationWindowTest a0 a1 s = .next t) : Fr 0x4830f0 s t := by
  unfold execClassificationWindowTest at h
  cases h
  have h := Fr.refl 0x4830f0 s
  have hp : 0x4830f0 ||| 0x4830f0 = 0x4830f0 := rfl
  with_reducible
    repeat' first
      | assumption | exact Fr.up (by decide) hp | apply State.classWindow_parts
      | apply State.logged_parts | refine fun y hy => ?_

theorem execClassificationStepStart_parts {s t : State} (a0 : Nat) (a1 : Int) (h : execClassificationStepStart a0 a1 s = .next t) : Fr 0x1040 s t := by
  unfold execClassificationStepStart at h
  cases h
  have h := Fr.refl 0x1040 s
  have hp : 0x1040 ||| 0x1040 = 0x1040 := rfl
  with_reducible
    repeat' first
      | assumption | exact Fr.up (by decide) hp | apply State.freeG_parts | apply State.modG_parts
      | refine Fr.ite ?_ ?_ | lift_lets
      | (intro y; refine Fr.cut _ s y ?_ (fun hy => ?_); (on_goal 1 => subst y); (on_goal 2 => clear_value y)) | intro y | apply Fr.mk_src

theorem execClassificationStepEnd_parts {s t : State} (a0 : Bool) (h : execClassificationStepEnd a0 s = .next t) : Fr 0x810c0 s t := by
  unfold execClassificationStepEnd at h
  cases h
  have h := Fr.refl 0x810c0 s
  have hp : 0x810c0 ||| 0x810c0 = 0x810c0 := rfl
  with_reducible
    repeat' first
      | assumption | exact Fr.up (by decide) hp | apply State.logged_parts | apply State.stopG_parts
      | apply State.modG_parts | refine Fr.ite ?_ ?_ | refine fun y hy => ?_ | lift_lets
      | (intro y; refine Fr.cut _ s y ?_ (fun hy => ?_); (on_goal 1 => subst y); (on_goal 2 => clear_value y)) | intro y | apply Fr.mk_src

theorem State.slowIndex_parts {p : Nat} {s x : State} (a1 : Nat) (a2 : Nat) (a3 : Nat) (hp : 0x8 ||| p = p) (h : Fr p s x) : Fr p s (State.slowIndex x a1 a2 a3).2 := by
  unfold State.slowIndex
  with_reducible
    repeat' first
      | assumption | exact Fr.up (by decide) hp | apply State.draw_parts | refine Fr.ite ?_ ?_
      | refine Fr.ite_snd ?_ ?_ | refine Fr.ite_trd ?_ ?_ | lift_lets
      | (intro y; refine Fr.cut p s y ?_ (fun hy => ?_); (on_goal 1 => subst y); (on_goal 2 => clear_value y)) | intro y | split
      | (refine Fr.snd_of ?_ (by assumption)) | (refine Fr.trd_of ?_ (by assumption))

theorem State.rippleReport_parts {p : Nat} {s x : State} (a1 : Nat) (a2 : List Nat) (hp : 0x10 ||| p = p) (h : Fr p s x) : Fr p s (State.rippleReport x a1 a2) := by
  unfold State.rippleReport
  with_reducible
    repeat' first
      | assumption | exact Fr.up (by decide) hp | apply State.set_parts | refine Fr.ite ?_ ?_

theorem State.classEnd_parts {p : Nat} {s x : State} (a1 : Nat) (a2 : Nat) (a3 : Nat) (hp : 0x39f04dbdf0 ||| p = p) (h : Fr p s x) : Fr p s (State.classEnd x a1 a2 a3) := by
  unfold State.classEnd
  with_reducible
    repeat' first
      | assumption | exact Fr.up (by decide) hp | apply State.block_parts
      | apply State.srcConnect_parts | apply State.srcState_parts | apply State.discOff_parts | refine Fr.ite ?_ ?_ | lift_lets
      | (intro y; refine Fr.cut p s y ?_ (fun hy => ?_); (on_goal 1 => subst y); (on_goal 2 => clear_value y)) | intro y
      | apply Fr.mk_core

theorem State.classResult_parts {p : Nat} {s x : State} (a1 : Int) (a2 : Nat) (a3 : Nat) (a4 : Nat) (a5 : List Nat) (a6 : Nat) (a7 : Int) (a8 : Nat) (hp : 0x39f04dbdf8 ||| p = p) (h : Fr p s x) : Fr p s (State.classResult x a1 a2 a3 a4 a5 a6 a7 a8) := by
  unfold State.classResult
  with_reducible
    repeat' first
      | assumption | exact Fr.up (by decide) hp | apply State.classEnd_parts
      | apply State.rippleReport_parts | apply State.slowIndex_parts | apply State.rowLatches_parts | apply State.commitWords_parts
      | apply State.raise_parts | apply State.set_parts | refine Fr.ite ?_ ?_ | refine Fr.ite_snd ?_ ?_ | refine Fr.ite_trd ?_ ?_
      | lift_lets | (intro y; refine Fr.cut p s y ?_ (fun hy => ?_); (on_goal 1 => subst y); (on_goal 2 => clear_value y)) | intro y
      | split | (refine Fr.snd_of ?_ (by assumption)) | (refine Fr.trd_of ?_ (by assumption)) | apply Fr.mk_src

theorem execClassificationResult_parts {s t : State} (a0 : Int) (a1 : Nat) (a2 : Nat) (a3 : Nat) (a4 : List Nat) (a5 : Nat) (a6 : Int) (a7 : Nat) (h : execClassificationResult a0 a1 a2 a3 a4 a5 a6 a7 s = .next t) : Fr 0x39f04dbdf8 s t := by
  unfold execClassificationResult at h
  cases h
  have h := Fr.refl 0x39f04dbdf8 s
  have hp : 0x39f04dbdf8 ||| 0x39f04dbdf8 = 0x39f04dbdf8 := rfl
  with_reducible
    repeat' first
      | assumption | exact Fr.up (by decide) hp | apply State.classResult_parts
      | apply State.logged_parts | refine fun y hy => ?_

theorem execReclassification_parts {s t : State} (h : execReclassification s = .next t) : Fr 0x4810f0 s t := by
  unfold execReclassification at h
  cases h
  have h := Fr.refl 0x4810f0 s
  have hp : 0x4810f0 ||| 0x4810f0 = 0x4810f0 := rfl
  with_reducible
    repeat' first
      | assumption | exact Fr.up (by decide) hp | apply State.classStart_parts
      | apply State.logged_parts | refine Fr.ite ?_ ?_ | refine fun y hy => ?_ | lift_lets
      | (intro y; refine Fr.cut _ s y ?_ (fun hy => ?_); (on_goal 1 => subst y); (on_goal 2 => clear_value y)) | intro y
      | apply Fr.mk_core

theorem State.iinUpdate_parts {p : Nat} {s x : State} (a1 : Nat) (a2 : Int) (hp : 0x30f0 ||| p = p) (h : Fr p s x) : Fr p s (State.iinUpdate x a1 a2) := by
  unfold State.iinUpdate
  with_reducible
    repeat' first
      | assumption | exact Fr.up (by decide) hp | apply State.portIfNew_parts | apply State.set_parts
      | refine Fr.ite ?_ ?_ | lift_lets
      | (intro y; refine Fr.cut p s y ?_ (fun hy => ?_); (on_goal 1 => subst y); (on_goal 2 => clear_value y)) | intro y | apply Fr.mk_src

theorem execIinLimitUpdate_parts {s t : State} (a0 : Nat) (a1 : Int) (a2 : Nat) (a3 : List Nat) (h : execIinLimitUpdate a0 a1 a2 a3 s = .next t) : Fr 0x830f0 s t := by
  unfold execIinLimitUpdate at h
  cases h
  have h := Fr.refl 0x830f0 s
  have hp : 0x830f0 ||| 0x830f0 = 0x830f0 := rfl
  with_reducible
    repeat' first
      | assumption | exact Fr.up (by decide) hp | apply State.iinUpdate_parts
      | apply State.rippleReport_parts | apply State.logged_parts | refine Fr.ite ?_ ?_ | refine fun y hy => ?_

theorem execHarnessHigh_parts {s t : State} (h : execHarnessHigh s = .next t) : Fr 0x3010 s t := by
  unfold execHarnessHigh at h
  cases h
  have h := Fr.refl 0x3010 s
  have hp : 0x3010 ||| 0x3010 = 0x3010 := rfl
  with_reducible
    repeat' first
      | assumption | exact Fr.up (by decide) hp | apply State.raise_parts | refine Fr.ite ?_ ?_
      | lift_lets | (intro y; refine Fr.cut _ s y ?_ (fun hy => ?_); (on_goal 1 => subst y); (on_goal 2 => clear_value y)) | intro y
      | apply Fr.mk_src

theorem execHeadroom_parts {s t : State} (a0 : Group) (h : execHeadroom a0 s = .next t) : Fr 0xd00920f0 s t := by
  unfold execHeadroom at h
  cases h
  have h := Fr.refl 0xd00920f0 s
  have hp : 0xd00920f0 ||| 0xd00920f0 = 0xd00920f0 := rfl
  with_reducible
    repeat' first
      | assumption | exact Fr.up (by decide) hp | apply State.sendHard_parts | apply State.logged_parts
      | apply State.gateOpen_parts | apply State.coreRaise_parts | apply State.stopG_parts | refine Fr.ite ?_ ?_ | refine fun y hy => ?_
      | lift_lets | (intro y; refine Fr.cut _ s y ?_ (fun hy => ?_); (on_goal 1 => subst y); (on_goal 2 => clear_value y)) | intro y
      | split

theorem execPassThroughEntry_parts {s t : State} (h : execPassThroughEntry s = .next t) : Fr 0x800c0 s t := by
  unfold execPassThroughEntry at h
  cases h
  have h := Fr.refl 0x800c0 s
  have hp : 0x800c0 ||| 0x800c0 = 0x800c0 := rfl
  with_reducible
    repeat' first
      | assumption | exact Fr.up (by decide) hp | apply State.passHold_parts | apply State.logged_parts
      | apply State.modG_parts | refine Fr.ite ?_ ?_ | refine fun y hy => ?_

theorem execCoreStall_parts {s t : State} (h : execCoreStall s = .next t) : Fr 0x40008821f0 s t := by
  unfold execCoreStall at h
  cases h
  have h := Fr.refl 0x40008821f0 s
  have hp : 0x40008821f0 ||| 0x40008821f0 = 0x40008821f0 := rfl
  with_reducible
    repeat' first
      | assumption | exact Fr.up (by decide) hp | apply State.setOvercast_parts
      | apply State.logged_parts | apply State.coreRaise_parts | apply State.stopG_parts | refine Fr.foldl _ ?_ (fun y a hy => ?_)
      | refine Fr.ite ?_ ?_ | refine fun y hy => ?_ | lift_lets
      | (intro y; refine Fr.cut _ s y ?_ (fun hy => ?_); (on_goal 1 => subst y); (on_goal 2 => clear_value y)) | intro y
      | apply Fr.mk_core

theorem execGroupApply_parts {s t : State} (a0 : Master) (a1 : Nat) (h : execGroupApply a0 a1 s = .next t) : Fr 0xfff85ffdf8 s t := by
  unfold execGroupApply at h
  cases h
  have h := Fr.refl 0xfff85ffdf8 s
  have hp : 0xfff85ffdf8 ||| 0xfff85ffdf8 = 0xfff85ffdf8 := rfl
  with_reducible
    repeat' first
      | assumption | exact Fr.up (by decide) hp | apply State.asked_parts | apply State.writeKey_parts
      | apply State.logged_parts | refine fun y hy => ?_ | split | (refine Fr.snd_of ?_ (by assumption))
      | (refine Fr.trd_of ?_ (by assumption))

end Sys2Proof.Machine
end

