-- ==== Sys2Proof/Laws/PartsEnvelope.lean ====
section
/-!
SUPPORT. PartsEnvelope.lean: the footprint of every operation of Machine/Envelope.lean.
-/
set_option linter.unusedTactic false
set_option linter.unreachableTactic false
set_option linter.unusedVariables false
namespace Sys2Proof.Machine

theorem State.modE_parts {p : Nat} {s x : State} (a1 : Env → Env) (hp : 0x10000000 ||| p = p) (h : Fr p s x) : Fr p s (State.modE x a1) := by
  unfold State.modE
  with_reducible
    repeat' first
      | assumption | exact Fr.up (by decide) hp | apply Fr.mk_env

theorem State.envSearch_parts {p : Nat} {s x : State} (hp : 0x10000010 ||| p = p) (h : Fr p s x) : Fr p s (State.envSearch x) := by
  unfold State.envSearch
  with_reducible
    repeat' first
      | assumption | exact Fr.up (by decide) hp | apply State.modE_parts | apply State.set_parts

theorem State.envOff_parts {p : Nat} {s x : State} (hp : 0x10400050 ||| p = p) (h : Fr p s x) : Fr p s (State.envOff x) := by
  unfold State.envOff
  with_reducible
    repeat' first
      | assumption | exact Fr.up (by decide) hp | apply State.modE_parts | apply State.allocate_parts
      | apply State.set_parts

theorem State.envEnable_parts {p : Nat} {s x : State} (hp : 0x10400050 ||| p = p) (h : Fr p s x) : Fr p s (State.envEnable x) := by
  unfold State.envEnable
  with_reducible
    repeat' first
      | assumption | exact Fr.up (by decide) hp | apply State.envOff_parts
      | apply State.envSearch_parts | refine Fr.ite ?_ ?_

theorem State.envTally_parts {p : Nat} {s x : State} (a1 : Nat) (hp : 0x10 ||| p = p) (h : Fr p s x) : Fr p s (State.envTally x a1) := by
  unfold State.envTally
  with_reducible
    repeat' first
      | assumption | exact Fr.up (by decide) hp | apply State.tally_parts

theorem State.frameBad_parts {p : Nat} {s x : State} (a1 : Nat) (hp : 0x10006030 ||| p = p) (h : Fr p s x) : Fr p s (State.frameBad x a1) := by
  unfold State.frameBad
  with_reducible
    repeat' first
      | assumption | exact Fr.up (by decide) hp | apply State.modE_parts | apply State.again_parts
      | apply State.raise_parts | refine Fr.ite ?_ ?_

theorem State.seqGap_parts {p : Nat} {s x : State} (a1 : Nat) (hp : 0x10006030 ||| p = p) (h : Fr p s x) : Fr p s (State.seqGap x a1) := by
  unfold State.seqGap
  with_reducible
    repeat' first
      | assumption | exact Fr.up (by decide) hp | apply State.modE_parts | apply State.again_parts
      | apply State.raise_parts | refine Fr.ite ?_ ?_

theorem State.rateError_parts {p : Nat} {s x : State} (a1 : Nat) (hp : 0x2010 ||| p = p) (h : Fr p s x) : Fr p s (State.rateError x a1) := by
  unfold State.rateError
  with_reducible
    repeat' first
      | assumption | exact Fr.up (by decide) hp | apply State.raise_parts

theorem State.dropContent_parts {p : Nat} {s x : State} (hp : 0x10000010 ||| p = p) (h : Fr p s x) : Fr p s (State.dropContent x) := by
  unfold State.dropContent
  with_reducible
    repeat' first
      | assumption | exact Fr.up (by decide) hp | apply State.modE_parts | apply State.set_parts

theorem State.badCount_parts {p : Nat} {s x : State} (a1 : Nat) (hp : 0x10006030 ||| p = p) (h : Fr p s x) : Fr p s (State.badCount x a1) := by
  unfold State.badCount
  with_reducible
    repeat' first
      | assumption | exact Fr.up (by decide) hp | apply State.frameBad_parts
      | apply State.envTally_parts | apply State.modE_parts

theorem State.badFrame_parts {p : Nat} {s x : State} (a1 : Nat) (hp : 0x10006030 ||| p = p) (h : Fr p s x) : Fr p s (State.badFrame x a1) := by
  unfold State.badFrame
  with_reducible
    repeat' first
      | assumption | exact Fr.up (by decide) hp | apply State.badCount_parts
      | apply State.dropContent_parts

theorem State.useHeader_parts {p : Nat} {s x : State} (hp : 0x10000000 ||| p = p) (h : Fr p s x) : Fr p s (State.useHeader x) := by
  unfold State.useHeader
  with_reducible
    repeat' first
      | assumption | exact Fr.up (by decide) hp | apply State.modE_parts | split

theorem State.goodOne_parts {p : Nat} {s x : State} (hp : 0x10000010 ||| p = p) (h : Fr p s x) : Fr p s (State.goodOne x) := by
  unfold State.goodOne
  with_reducible
    repeat' first
      | assumption | exact Fr.up (by decide) hp | apply State.useHeader_parts
      | apply State.envTally_parts | apply State.modE_parts | apply State.set_parts | refine Fr.ite ?_ ?_ | lift_lets
      | (intro y; refine Fr.cut p s y ?_ (fun hy => ?_); (on_goal 1 => subst y); (on_goal 2 => clear_value y)) | intro y

theorem State.detect_parts {p : Nat} {s x : State} (a1 : Nat) (hp : 0x10002010 ||| p = p) (h : Fr p s x) : Fr p s (State.detect x a1) := by
  unfold State.detect
  with_reducible
    repeat' first
      | assumption | exact Fr.up (by decide) hp | apply State.rateError_parts | apply State.modE_parts
      | refine Fr.ite ?_ ?_ | lift_lets
      | (intro y; refine Fr.cut p s y ?_ (fun hy => ?_); (on_goal 1 => subst y); (on_goal 2 => clear_value y)) | intro y | split

theorem State.judge_parts {p : Nat} {s x : State} (a1 : Nat) (a2 : Nat) (hp : 0x10006030 ||| p = p) (h : Fr p s x) : Fr p s (State.judge x a1 a2) := by
  unfold State.judge
  with_reducible
    repeat' first
      | assumption | exact Fr.up (by decide) hp | apply State.detect_parts | apply State.goodOne_parts
      | apply State.badFrame_parts | apply State.rateError_parts | apply State.modE_parts | refine Fr.ite ?_ ?_ | lift_lets
      | (intro y; refine Fr.cut p s y ?_ (fun hy => ?_); (on_goal 1 => subst y); (on_goal 2 => clear_value y)) | intro y

theorem State.transmit_parts {p : Nat} {s x : State} (hp : 0x10000000 ||| p = p) (h : Fr p s x) : Fr p s (State.transmit x) := by
  unfold State.transmit
  with_reducible
    repeat' first
      | assumption | exact Fr.up (by decide) hp | apply State.modE_parts | refine Fr.ite ?_ ?_
      | lift_lets | (intro y; refine Fr.cut p s y ?_ (fun hy => ?_); (on_goal 1 => subst y); (on_goal 2 => clear_value y)) | intro y

theorem State.shiftFrame_parts {p : Nat} {s x : State} (hp : 0x10010010 ||| p = p) (h : Fr p s x) : Fr p s (State.shiftFrame x) := by
  unfold State.shiftFrame
  with_reducible
    repeat' first
      | assumption | exact Fr.up (by decide) hp | apply State.modE_parts | apply State.demandNow_parts
      | lift_lets | (intro y; refine Fr.cut p s y ?_ (fun hy => ?_); (on_goal 1 => subst y); (on_goal 2 => clear_value y)) | intro y

theorem State.newFrame_parts {p : Nat} {s x : State} (hp : 0x10410050 ||| p = p) (h : Fr p s x) : Fr p s (State.newFrame x) := by
  unfold State.newFrame
  with_reducible
    repeat' first
      | assumption | exact Fr.up (by decide) hp | apply State.shiftFrame_parts
      | apply State.transmit_parts | apply State.release_parts

theorem State.playAuto_parts {p : Nat} {s x : State} (hp : 0x20204028f0 ||| p = p) (h : Fr p s x) : Fr p s (State.playAuto x) := by
  unfold State.playAuto
  with_reducible
    repeat' first
      | assumption | exact Fr.up (by decide) hp | apply State.parkAbort_parts
      | apply State.setMode_parts | refine Fr.ite ?_ ?_

theorem State.edgeState_parts {p : Nat} {s x : State} (hp : 0x10400050 ||| p = p) (h : Fr p s x) : Fr p s (State.edgeState x) := by
  unfold State.edgeState
  with_reducible
    repeat' first
      | assumption | exact Fr.up (by decide) hp | apply State.envEnable_parts
      | apply State.envSearch_parts | apply State.modE_parts | refine Fr.ite ?_ ?_

theorem State.bclkSeen_parts {p : Nat} {s x : State} (hp : 0x10000000 ||| p = p) (h : Fr p s x) : Fr p s (State.bclkSeen x) := by
  unfold State.bclkSeen
  with_reducible
    repeat' first
      | assumption | exact Fr.up (by decide) hp | apply State.modE_parts | refine Fr.ite ?_ ?_

theorem State.frameEnd_parts {p : Nat} {s x : State} (a1 : Nat) (a2 : Nat) (hp : 0x10006030 ||| p = p) (h : Fr p s x) : Fr p s (State.frameEnd x a1 a2) := by
  unfold State.frameEnd
  with_reducible
    repeat' first
      | assumption | exact Fr.up (by decide) hp | apply State.judge_parts
      | apply State.dropContent_parts | refine Fr.ite ?_ ?_

theorem State.fsEdge_parts {p : Nat} {s x : State} (a1 : Nat) (a2 : Nat) (hp : 0x20304168f0 ||| p = p) (h : Fr p s x) : Fr p s (State.fsEdge x a1 a2) := by
  unfold State.fsEdge
  with_reducible
    repeat' first
      | assumption | exact Fr.up (by decide) hp | apply State.frameEnd_parts
      | apply State.bclkSeen_parts | apply State.edgeState_parts | apply State.playAuto_parts | apply State.newFrame_parts
      | apply State.modE_parts | refine Fr.ite ?_ ?_ | lift_lets
      | (intro y; refine Fr.cut p s y ?_ (fun hy => ?_); (on_goal 1 => subst y); (on_goal 2 => clear_value y)) | intro y

theorem State.fsEdgeAbsent_parts {p : Nat} {s x : State} (a1 : Nat) (hp : 0x10000000 ||| p = p) (h : Fr p s x) : Fr p s (State.fsEdgeAbsent x a1) := by
  unfold State.fsEdgeAbsent
  with_reducible
    repeat' first
      | assumption | exact Fr.up (by decide) hp | apply State.bclkSeen_parts | apply State.modE_parts
      | refine Fr.ite ?_ ?_ | lift_lets
      | (intro y; refine Fr.cut p s y ?_ (fun hy => ?_); (on_goal 1 => subst y); (on_goal 2 => clear_value y)) | intro y

theorem execFrameStart_parts {s t : State} (a0 : Nat) (a1 : Nat) (h : execFrameStart a0 a1 s = .next t) : Fr 0x20304968f0 s t := by
  unfold execFrameStart at h
  cases h
  have h := Fr.refl 0x20304968f0 s
  have hp : 0x20304968f0 ||| 0x20304968f0 = 0x20304968f0 := rfl
  with_reducible
    repeat' first
      | assumption | exact Fr.up (by decide) hp | apply State.fsEdgeAbsent_parts
      | apply State.fsEdge_parts | apply State.logged_parts | refine Fr.ite ?_ ?_ | refine fun y hy => ?_

theorem execFrameTimer_parts {s t : State} (a0 : Nat) (h : execFrameTimer a0 s = .next t) : Fr 0x10496070 s t := by
  unfold execFrameTimer at h
  cases h
  have h := Fr.refl 0x10496070 s
  have hp : 0x10496070 ||| 0x10496070 = 0x10496070 := rfl
  with_reducible
    repeat' first
      | assumption | exact Fr.up (by decide) hp | apply State.newFrame_parts
      | apply State.useHeader_parts | apply State.badCount_parts | apply State.dropContent_parts | apply State.modE_parts
      | apply State.logged_parts | refine Fr.ite ?_ ?_ | refine fun y hy => ?_ | lift_lets
      | (intro y; refine Fr.cut _ s y ?_ (fun hy => ?_); (on_goal 1 => subst y); (on_goal 2 => clear_value y)) | intro y

theorem State.capGrant_parts {p : Nat} {s x : State} (hp : 0x10000010 ||| p = p) (h : Fr p s x) : Fr p s (State.capGrant x) := by
  unfold State.capGrant
  with_reducible
    repeat' first
      | assumption | exact Fr.up (by decide) hp | apply State.modE_parts | apply State.set_parts
      | refine Fr.ite ?_ ?_ | lift_lets
      | (intro y; refine Fr.cut p s y ?_ (fun hy => ?_); (on_goal 1 => subst y); (on_goal 2 => clear_value y)) | intro y

theorem State.feedLost_parts {p : Nat} {s x : State} (hp : 0x10412050 ||| p = p) (h : Fr p s x) : Fr p s (State.feedLost x) := by
  unfold State.feedLost
  with_reducible
    repeat' first
      | assumption | exact Fr.up (by decide) hp | apply State.capGrant_parts | apply State.modE_parts
      | apply State.allocate_parts | apply State.demandNow_parts | apply State.raise_parts | apply State.count_parts
      | apply State.set_parts | lift_lets
      | (intro y; refine Fr.cut p s y ?_ (fun hy => ?_); (on_goal 1 => subst y); (on_goal 2 => clear_value y)) | intro y

theorem execFeedLost_parts {s t : State} (h : execFeedLost s = .next t) : Fr 0x10492050 s t := by
  unfold execFeedLost at h
  cases h
  have h := Fr.refl 0x10492050 s
  have hp : 0x10492050 ||| 0x10492050 = 0x10492050 := rfl
  with_reducible
    repeat' first
      | assumption | exact Fr.up (by decide) hp | apply State.feedLost_parts | apply State.logged_parts
      | refine Fr.ite ?_ ?_ | refine fun y hy => ?_

theorem execEnvDoutRelease_parts {s t : State} (h : execEnvDoutRelease s = .next t) : Fr 0x10000000 s t := by
  unfold execEnvDoutRelease at h
  cases h
  have h := Fr.refl 0x10000000 s
  have hp : 0x10000000 ||| 0x10000000 = 0x10000000 := rfl
  with_reducible
    repeat' first
      | assumption | exact Fr.up (by decide) hp | apply State.modE_parts

theorem State.header_parts {p : Nat} {s x : State} (a1 : Nat) (hp : 0x10006030 ||| p = p) (h : Fr p s x) : Fr p s (State.header x a1) := by
  unfold State.header
  with_reducible
    repeat' first
      | assumption | exact Fr.up (by decide) hp | apply State.seqGap_parts | apply State.envTally_parts
      | apply State.modE_parts | apply State.raise_parts | apply State.set_parts | refine Fr.ite ?_ ?_ | lift_lets
      | (intro y; refine Fr.cut p s y ?_ (fun hy => ?_); (on_goal 1 => subst y); (on_goal 2 => clear_value y)) | intro y

theorem execDemandHeader_parts {s t : State} (a0 : BitVec 32) (h : execDemandHeader a0 s = .next t) : Fr 0x10006030 s t := by
  unfold execDemandHeader at h
  cases h
  have h := Fr.refl 0x10006030 s
  have hp : 0x10006030 ||| 0x10006030 = 0x10006030 := rfl
  with_reducible
    repeat' first
      | assumption | exact Fr.up (by decide) hp | apply State.header_parts | apply State.bclkSeen_parts
      | apply State.modE_parts | refine Fr.ite ?_ ?_ | lift_lets
      | (intro y; refine Fr.cut _ s y ?_ (fun hy => ?_); (on_goal 1 => subst y); (on_goal 2 => clear_value y)) | intro y

theorem State.slotDemand_parts {p : Nat} {s x : State} (a1 : Nat) (a2 : Nat) (a3 : Nat) (hp : 0x10000000 ||| p = p) (h : Fr p s x) : Fr p s (State.slotDemand x a1 a2 a3) := by
  unfold State.slotDemand
  with_reducible
    repeat' first
      | assumption | exact Fr.up (by decide) hp | apply State.modE_parts | apply State.clearPair_parts
      | apply State.raiseEntries_parts | refine Fr.ite ?_ ?_ | lift_lets
      | (intro y; refine Fr.cut p s y ?_ (fun hy => ?_); (on_goal 1 => subst y); (on_goal 2 => clear_value y)) | intro y

theorem execDemandSlot_parts {s t : State} (a0 : Fin 16) (a1 : BitVec 32) (h : execDemandSlot a0 a1 s = .next t) : Fr 0x10490050 s t := by
  unfold execDemandSlot at h
  cases h
  have h := Fr.refl 0x10490050 s
  have hp : 0x10490050 ||| 0x10490050 = 0x10490050 := rfl
  with_reducible
    repeat' first
      | assumption | exact Fr.up (by decide) hp | apply State.slotDemand_parts
      | apply State.bclkSeen_parts | apply State.modE_parts | apply State.releaseIfNew_parts | apply State.demandNow_parts
      | apply State.logged_parts | refine Fr.ite ?_ ?_ | refine fun y hy => ?_ | lift_lets
      | (intro y; refine Fr.cut _ s y ?_ (fun hy => ?_); (on_goal 1 => subst y); (on_goal 2 => clear_value y)) | intro y | split

theorem State.overDemand_parts {p : Nat} {s x : State} (hp : 0x10012010 ||| p = p) (h : Fr p s x) : Fr p s (State.overDemand x) := by
  unfold State.overDemand
  with_reducible
    repeat' first
      | assumption | exact Fr.up (by decide) hp | apply State.modE_parts | apply State.raise_parts
      | apply State.count_parts | refine Fr.ite ?_ ?_ | lift_lets
      | (intro y; refine Fr.cut p s y ?_ (fun hy => ?_); (on_goal 1 => subst y); (on_goal 2 => clear_value y)) | intro y | split

theorem execGrantComputation_parts {s t : State} (h : execGrantComputation s = .next t) : Fr 0x10012010 s t := by
  unfold execGrantComputation at h
  cases h
  have h := Fr.refl 0x10012010 s
  have hp : 0x10012010 ||| 0x10012010 = 0x10012010 := rfl
  with_reducible
    repeat' first
      | assumption | exact Fr.up (by decide) hp | apply State.overDemand_parts
      | apply State.grantCompute_parts | refine Fr.ite ?_ ?_

theorem State.grantLate_parts {p : Nat} {s x : State} (hp : 0x10002010 ||| p = p) (h : Fr p s x) : Fr p s (State.grantLate x) := by
  unfold State.grantLate
  with_reducible
    repeat' first
      | assumption | exact Fr.up (by decide) hp | apply State.modE_parts | apply State.raise_parts
      | lift_lets | (intro y; refine Fr.cut p s y ?_ (fun hy => ?_); (on_goal 1 => subst y); (on_goal 2 => clear_value y)) | intro y
      | split

theorem execGrantLate_parts {s t : State} (h : execGrantLate s = .next t) : Fr 0x10002010 s t := by
  unfold execGrantLate at h
  cases h
  have h := Fr.refl 0x10002010 s
  have hp : 0x10002010 ||| 0x10002010 = 0x10002010 := rfl
  with_reducible
    repeat' first
      | assumption | exact Fr.up (by decide) hp | apply State.grantLate_parts | refine Fr.ite ?_ ?_

theorem execEnvCfgWrite_parts {s t : State} (a0 : Master) (a1 : Nat) (h : execEnvCfgWrite a0 a1 s = .next t) : Fr 0xfff85ffdf8 s t := by
  unfold execEnvCfgWrite at h
  cases h
  have h := Fr.refl 0xfff85ffdf8 s
  have hp : 0xfff85ffdf8 ||| 0xfff85ffdf8 = 0xfff85ffdf8 := rfl
  with_reducible
    repeat' first
      | assumption | exact Fr.up (by decide) hp | apply State.asked_parts | apply State.writeKey_parts
      | apply State.logged_parts | refine fun y hy => ?_ | split | (refine Fr.snd_of ?_ (by assumption))
      | (refine Fr.trd_of ?_ (by assumption))

end Sys2Proof.Machine
end

