-- ==== Sys2Proof/Laws/PartsMeasurement.lean ====
section
/-!
SUPPORT. PartsMeasurement.lean: the footprint of every operation of Machine/Measurement.lean.
-/
set_option linter.unusedTactic false
set_option linter.unreachableTactic false
set_option linter.unusedVariables false
namespace Sys2Proof.Machine

theorem State.slotsStart_parts {p : Nat} {s x : State} (a1 : Nat) (hp : 0x40000 ||| p = p) (h : Fr p s x) : Fr p s (State.slotsStart x a1) := by
  unfold State.slotsStart
  with_reducible
    repeat' first
      | assumption | exact Fr.up (by decide) hp | refine Fr.foldl _ ?_ (fun y a hy => ?_)
      | apply Fr.mk_meas

theorem State.takeMasks_parts {p : Nat} {s x : State} (hp : 0x40010 ||| p = p) (h : Fr p s x) : Fr p s (State.takeMasks x) := by
  unfold State.takeMasks
  with_reducible
    repeat' first
      | assumption | exact Fr.up (by decide) hp | apply State.slotsStart_parts | apply State.set_parts
      | refine Fr.foldl _ ?_ (fun y a hy => ?_) | refine Fr.ite ?_ ?_ | lift_lets
      | (intro y; refine Fr.cut p s y ?_ (fun hy => ?_); (on_goal 1 => subst y); (on_goal 2 => clear_value y)) | intro y
      | apply Fr.mk_meas

theorem State.measStart_parts {p : Nat} {s x : State} (hp : 0x40010 ||| p = p) (h : Fr p s x) : Fr p s (State.measStart x) := by
  unfold State.measStart
  with_reducible
    repeat' first
      | assumption | exact Fr.up (by decide) hp | apply State.takeMasks_parts
      | apply State.noResults_parts | apply State.set_parts | refine Fr.ite ?_ ?_ | lift_lets
      | (intro y; refine Fr.cut p s y ?_ (fun hy => ?_); (on_goal 1 => subst y); (on_goal 2 => clear_value y)) | intro y
      | apply Fr.mk_meas

theorem State.cellOv_parts {p : Nat} {s x : State} (a1 : Nat) (hp : 0x200120f0 ||| p = p) (h : Fr p s x) : Fr p s (State.cellOv x a1) := by
  unfold State.cellOv
  with_reducible
    repeat' first
      | assumption | exact Fr.up (by decide) hp | apply State.chgFault_parts
      | apply State.chgEvent_parts | refine Fr.ite ?_ ?_ | lift_lets
      | (intro y; refine Fr.cut p s y ?_ (fun hy => ?_); (on_goal 1 => subst y); (on_goal 2 => clear_value y)) | intro y | apply Fr.mk_chg

theorem State.onResult_parts {p : Nat} {s x : State} (a1 : Nat) (a2 : Nat) (hp : 0x204120f0 ||| p = p) (h : Fr p s x) : Fr p s (State.onResult x a1 a2) := by
  unfold State.onResult
  with_reducible
    repeat' first
      | assumption | exact Fr.up (by decide) hp | apply State.cellOv_parts | apply State.cellScan_parts
      | apply State.coulomb_parts | refine Fr.ite ?_ ?_ | lift_lets
      | (intro y; refine Fr.cut p s y ?_ (fun hy => ?_); (on_goal 1 => subst y); (on_goal 2 => clear_value y)) | intro y

theorem State.slotNext_parts {p : Nat} {s x : State} (a1 : Nat) (hp : 0x40000 ||| p = p) (h : Fr p s x) : Fr p s (State.slotNext x a1) := by
  unfold State.slotNext
  with_reducible
    repeat' first
      | assumption | exact Fr.up (by decide) hp | lift_lets
      | (intro y; refine Fr.cut p s y ?_ (fun hy => ?_); (on_goal 1 => subst y); (on_goal 2 => clear_value y)) | intro y
      | apply Fr.mk_meas

theorem execSlotComplete_parts {s t : State} (a0 : Fin 64) (a1 : Int) (a2 : List Int) (a3 : Bool) (a4 : Bool) (a5 : Nat) (h : execSlotComplete a0 a1 a2 a3 a4 a5 s = .next t) : Fr 0x204d20f0 s t := by
  unfold execSlotComplete at h
  cases h
  have h := Fr.refl 0x204d20f0 s
  have hp : 0x204d20f0 ||| 0x204d20f0 = 0x204d20f0 := rfl
  with_reducible
    repeat' first
      | assumption | exact Fr.up (by decide) hp | apply State.slotNext_parts
      | apply State.onResult_parts | apply State.logged_parts | apply State.set_parts | refine Fr.ite ?_ ?_ | refine fun y hy => ?_

theorem State.powerFlow_parts {p : Nat} {s x : State} (hp : 0x20000010 ||| p = p) (h : Fr p s x) : Fr p s (State.powerFlow x) := by
  unfold State.powerFlow
  with_reducible
    repeat' first
      | assumption | exact Fr.up (by decide) hp | apply State.setI_parts | refine Fr.ite ?_ ?_
      | lift_lets | (intro y; refine Fr.cut p s y ?_ (fun hy => ?_); (on_goal 1 => subst y); (on_goal 2 => clear_value y)) | intro y
      | apply Fr.mk_chg

theorem State.rhSet_parts {p : Nat} {s x : State} (a1 : Nat) (hp : 0x1010 ||| p = p) (h : Fr p s x) : Fr p s (State.rhSet x a1) := by
  unfold State.rhSet
  with_reducible
    repeat' first
      | assumption | exact Fr.up (by decide) hp | apply State.set_parts | lift_lets
      | (intro y; refine Fr.cut p s y ?_ (fun hy => ?_); (on_goal 1 => subst y); (on_goal 2 => clear_value y)) | intro y | apply Fr.mk_src

theorem State.refine_parts {p : Nat} {s x : State} (hp : 0x1010 ||| p = p) (h : Fr p s x) : Fr p s (State.refine x) := by
  unfold State.refine
  with_reducible
    repeat' first
      | assumption | exact Fr.up (by decide) hp | apply State.rhSet_parts | refine Fr.ite ?_ ?_
      | lift_lets | (intro y; refine Fr.cut p s y ?_ (fun hy => ?_); (on_goal 1 => subst y); (on_goal 2 => clear_value y)) | intro y
      | apply Fr.mk_src

theorem State.parkScanEnd_parts {p : Nat} {s x : State} (hp : 0x40000 ||| p = p) (h : Fr p s x) : Fr p s (State.parkScanEnd x) := by
  unfold State.parkScanEnd
  with_reducible
    repeat' first
      | assumption | exact Fr.up (by decide) hp | apply State.slotsStart_parts | refine Fr.ite ?_ ?_
      | lift_lets | (intro y; refine Fr.cut p s y ?_ (fun hy => ?_); (on_goal 1 => subst y); (on_goal 2 => clear_value y)) | intro y
      | apply Fr.mk_meas

theorem execScanComplete_parts {s t : State} (a0 : Fin 4) (a1 : Nat) (h : execScanComplete a0 a1 s = .next t) : Fr 0x20441010 s t := by
  unfold execScanComplete at h
  cases h
  have h := Fr.refl 0x20441010 s
  have hp : 0x20441010 ||| 0x20441010 = 0x20441010 := rfl
  with_reducible
    repeat' first
      | assumption | exact Fr.up (by decide) hp | apply State.parkScanEnd_parts
      | apply State.refine_parts | apply State.powerFlow_parts | apply State.flowWatch_parts | apply State.set_parts | refine Fr.ite ?_ ?_
      | lift_lets | (intro y; refine Fr.cut _ s y ?_ (fun hy => ?_); (on_goal 1 => subst y); (on_goal 2 => clear_value y)) | intro y
      | apply Fr.mk_meas

theorem execScanStall_parts {s t : State} (a0 : Fin 4) (a1 : Nat) (h : execScanStall a0 a1 s = .next t) : Fr 0x42010 s t := by
  unfold execScanStall at h
  cases h
  have h := Fr.refl 0x42010 s
  have hp : 0x42010 ||| 0x42010 = 0x42010 := rfl
  with_reducible
    repeat' first
      | assumption | exact Fr.up (by decide) hp | apply State.raise_parts | apply State.set_parts
      | refine Fr.foldl _ ?_ (fun y a hy => ?_) | refine Fr.ite ?_ ?_ | lift_lets
      | (intro y; refine Fr.cut _ s y ?_ (fun hy => ?_); (on_goal 1 => subst y); (on_goal 2 => clear_value y)) | intro y
      | apply Fr.mk_meas

theorem State.refCheck_parts {p : Nat} {s x : State} (hp : 0x42010 ||| p = p) (h : Fr p s x) : Fr p s (State.refCheck x) := by
  unfold State.refCheck
  with_reducible
    repeat' first
      | assumption | exact Fr.up (by decide) hp | apply State.clearK_parts | apply State.raise1_parts
      | refine Fr.ite ?_ ?_ | lift_lets
      | (intro y; refine Fr.cut p s y ?_ (fun hy => ?_); (on_goal 1 => subst y); (on_goal 2 => clear_value y)) | intro y
      | apply Fr.mk_meas

theorem State.senseCheck_parts {p : Nat} {s x : State} (a1 : Port) (hp : 0x42010 ||| p = p) (h : Fr p s x) : Fr p s (State.senseCheck x a1) := by
  unfold State.senseCheck
  with_reducible
    repeat' first
      | assumption | exact Fr.up (by decide) hp | apply State.clearI_parts | apply State.raiseC_parts
      | refine Fr.ite ?_ ?_ | lift_lets
      | (intro y; refine Fr.cut p s y ?_ (fun hy => ?_); (on_goal 1 => subst y); (on_goal 2 => clear_value y)) | intro y | split
      | apply Fr.mk_meas

theorem State.rangeCheck_parts {p : Nat} {s x : State} (hp : 0x42010 ||| p = p) (h : Fr p s x) : Fr p s (State.rangeCheck x) := by
  unfold State.rangeCheck
  with_reducible
    repeat' first
      | assumption | exact Fr.up (by decide) hp | apply State.raise_parts
      | refine Fr.foldl _ ?_ (fun y a hy => ?_) | refine Fr.ite ?_ ?_ | lift_lets
      | (intro y; refine Fr.cut p s y ?_ (fun hy => ?_); (on_goal 1 => subst y); (on_goal 2 => clear_value y)) | intro y
      | apply Fr.mk_meas

theorem State.calFactor_parts {p : Nat} {s x : State} (a1 : Nat) (a2 : Int) (a3 : Nat) (hp : 0x12010 ||| p = p) (h : Fr p s x) : Fr p s (State.calFactor x a1 a2 a3) := by
  unfold State.calFactor
  with_reducible
    repeat' first
      | assumption | exact Fr.up (by decide) hp | apply State.raise_parts | apply State.put_parts
      | refine Fr.ite ?_ ?_

theorem State.calStart_parts {p : Nat} {s x : State} (hp : 0x200420f0 ||| p = p) (h : Fr p s x) : Fr p s (State.calStart x) := by
  unfold State.calStart
  with_reducible
    repeat' first
      | assumption | exact Fr.up (by decide) hp | apply State.balOff_parts | apply State.writeChg_parts
      | apply State.set_parts | refine Fr.ite ?_ ?_ | lift_lets
      | (intro y; refine Fr.cut p s y ?_ (fun hy => ?_); (on_goal 1 => subst y); (on_goal 2 => clear_value y)) | intro y
      | apply Fr.mk_meas

theorem State.calFactors_parts {p : Nat} {s x : State} (a1 : List (Int × Nat)) (hp : 0x12010 ||| p = p) (h : Fr p s x) : Fr p s (State.calFactors x a1) := by
  unfold State.calFactors
  with_reducible
    repeat' first
      | assumption | exact Fr.up (by decide) hp | apply State.calFactor_parts
      | refine Fr.foldl _ ?_ (fun y a hy => ?_) | lift_lets
      | (intro y; refine Fr.cut p s y ?_ (fun hy => ?_); (on_goal 1 => subst y); (on_goal 2 => clear_value y)) | intro y

theorem State.calEnd_parts {p : Nat} {s x : State} (a1 : List (Int × Nat)) (hp : 0x252010 ||| p = p) (h : Fr p s x) : Fr p s (State.calEnd x a1) := by
  unfold State.calEnd
  with_reducible
    repeat' first
      | assumption | exact Fr.up (by decide) hp | apply State.calFactors_parts
      | apply State.takeMasks_parts | apply State.commitStart_parts | apply State.put_parts | apply State.set_parts | refine Fr.ite ?_ ?_
      | lift_lets | (intro y; refine Fr.cut p s y ?_ (fun hy => ?_); (on_goal 1 => subst y); (on_goal 2 => clear_value y)) | intro y
      | apply Fr.mk_meas | apply Fr.mk_thm

theorem execSelfcalComplete_parts {s t : State} (a0 : List (Int × Nat)) (h : execSelfcalComplete a0 s = .next t) : Fr 0x252010 s t := by
  unfold execSelfcalComplete at h
  cases h
  have h := Fr.refl 0x252010 s
  have hp : 0x252010 ||| 0x252010 = 0x252010 := rfl
  with_reducible
    repeat' first
      | assumption | exact Fr.up (by decide) hp | apply State.calEnd_parts | refine Fr.ite ?_ ?_

theorem execSelfcalCmd_parts {s t : State} (a0 : Master) (a1 : Nat) (h : execSelfcalCmd a0 a1 s = .next t) : Fr 0xfff85ffdf8 s t := by
  unfold execSelfcalCmd at h
  cases h
  have h := Fr.refl 0xfff85ffdf8 s
  have hp : 0xfff85ffdf8 ||| 0xfff85ffdf8 = 0xfff85ffdf8 := rfl
  with_reducible
    repeat' first
      | assumption | exact Fr.up (by decide) hp | apply State.asked_parts | apply State.writeKey_parts
      | apply State.logged_parts | refine fun y hy => ?_ | split | (refine Fr.snd_of ?_ (by assumption))
      | (refine Fr.trd_of ?_ (by assumption))

theorem execCalRefreshRound_parts {s t : State} (h : execCalRefreshRound s = .next t) : Fr 0x40000 s t := by
  unfold execCalRefreshRound at h
  cases h
  have h := Fr.refl 0x40000 s
  have hp : 0x40000 ||| 0x40000 = 0x40000 := rfl
  with_reducible
    repeat' first
      | assumption | exact Fr.up (by decide) hp | refine Fr.ite ?_ ?_ | lift_lets
      | (intro y; refine Fr.cut _ s y ?_ (fun hy => ?_); (on_goal 1 => subst y); (on_goal 2 => clear_value y)) | intro y
      | apply Fr.mk_meas

theorem execCalStale_parts {s t : State} (h : execCalStale s = .next t) : Fr 0x42010 s t := by
  unfold execCalStale at h
  cases h
  have h := Fr.refl 0x42010 s
  have hp : 0x42010 ||| 0x42010 = 0x42010 := rfl
  with_reducible
    repeat' first
      | assumption | exact Fr.up (by decide) hp | apply State.raise_parts | refine Fr.ite ?_ ?_
      | lift_lets | (intro y; refine Fr.cut _ s y ?_ (fun hy => ?_); (on_goal 1 => subst y); (on_goal 2 => clear_value y)) | intro y
      | apply Fr.mk_meas

theorem State.observe_parts {p : Nat} {s x : State} (a1 : Obs) (hp : 0x410010 ||| p = p) (h : Fr p s x) : Fr p s (State.observe x a1) := by
  unfold State.observe
  with_reducible
    repeat' first
      | assumption | exact Fr.up (by decide) hp | apply State.hzHeat_parts
      | apply State.hzPackStep_parts | apply State.hzPath_parts | split

theorem State.refreshed_parts {p : Nat} {s x : State} (a1 : Obs) (hp : 0x12010 ||| p = p) (h : Fr p s x) : Fr p s (State.refreshed x a1) := by
  unfold State.refreshed
  with_reducible
    repeat' first
      | assumption | exact Fr.up (by decide) hp | apply State.calFactor_parts | split

theorem State.refreshNext_parts {p : Nat} {s x : State} (hp : 0x240000 ||| p = p) (h : Fr p s x) : Fr p s (State.refreshNext x) := by
  unfold State.refreshNext
  with_reducible
    repeat' first
      | assumption | exact Fr.up (by decide) hp | refine Fr.ite ?_ ?_ | lift_lets
      | (intro y; refine Fr.cut p s y ?_ (fun hy => ?_); (on_goal 1 => subst y); (on_goal 2 => clear_value y)) | intro y | split
      | apply Fr.mk_meas | apply Fr.mk_meas_thm

theorem State.scanRecord_parts {p : Nat} {s x : State} (hp : 0x80000 ||| p = p) (h : Fr p s x) : Fr p s (State.scanRecord x) := by
  unfold State.scanRecord
  with_reducible
    repeat' first
      | assumption | exact Fr.up (by decide) hp | refine Fr.ite ?_ ?_ | lift_lets
      | (intro y; refine Fr.cut p s y ?_ (fun hy => ?_); (on_goal 1 => subst y); (on_goal 2 => clear_value y)) | intro y
      | apply Fr.mk_ring

theorem State.hourScan_parts {p : Nat} {s x : State} (a1 : Nat) (hp : 0x800000 ||| p = p) (h : Fr p s x) : Fr p s (State.hourScan x a1) := by
  unfold State.hourScan
  with_reducible
    repeat' first
      | assumption | exact Fr.up (by decide) hp | refine Fr.foldl _ ?_ (fun y a hy => ?_)
      | refine Fr.ite ?_ ?_ | lift_lets
      | (intro y; refine Fr.cut p s y ?_ (fun hy => ?_); (on_goal 1 => subst y); (on_goal 2 => clear_value y)) | intro y
      | apply Fr.mk_hour

theorem State.sumCheck_parts {p : Nat} {s x : State} (hp : 0x20012010 ||| p = p) (h : Fr p s x) : Fr p s (State.sumCheck x) := by
  unfold State.sumCheck
  with_reducible
    repeat' first
      | assumption | exact Fr.up (by decide) hp | apply State.chgCond_parts | refine Fr.ite ?_ ?_
      | lift_lets | (intro y; refine Fr.cut p s y ?_ (fun hy => ?_); (on_goal 1 => subst y); (on_goal 2 => clear_value y)) | intro y
      | apply Fr.mk_chg

theorem State.chgResume_parts {p : Nat} {s x : State} (hp : 0x3bf04dbdf0 ||| p = p) (h : Fr p s x) : Fr p s (State.chgResume x) := by
  unfold State.chgResume
  with_reducible
    repeat' first
      | assumption | exact Fr.up (by decide) hp | apply State.packSeen_parts | refine Fr.ite ?_ ?_

theorem State.chargeScan_parts {p : Nat} {s x : State} (hp : 0x200520f0 ||| p = p) (h : Fr p s x) : Fr p s (State.chargeScan x) := by
  unfold State.chargeScan
  with_reducible
    repeat' first
      | assumption | exact Fr.up (by decide) hp | apply State.chgEvaluate_parts
      | apply State.writeChg_parts | refine Fr.ite ?_ ?_ | lift_lets
      | (intro y; refine Fr.cut p s y ?_ (fun hy => ?_); (on_goal 1 => subst y); (on_goal 2 => clear_value y)) | intro y
      | apply Fr.mk_meas

theorem State.maintEnd_parts {p : Nat} {s x : State} (hp : 0xf04128f0 ||| p = p) (h : Fr p s x) : Fr p s (State.maintEnd x) := by
  unfold State.maintEnd
  with_reducible
    repeat' first
      | assumption | exact Fr.up (by decide) hp | apply State.parkStart_parts | refine Fr.ite ?_ ?_
      | lift_lets | (intro y; refine Fr.cut p s y ?_ (fun hy => ?_); (on_goal 1 => subst y); (on_goal 2 => clear_value y)) | intro y
      | apply Fr.mk_mode

theorem State.scanExhausted_parts {p : Nat} {s x : State} (hp : 0x3bf04dbdf0 ||| p = p) (h : Fr p s x) : Fr p s (State.scanExhausted x) := by
  unfold State.scanExhausted
  with_reducible
    repeat' first
      | assumption | exact Fr.up (by decide) hp | apply State.exhausted_parts | refine Fr.ite ?_ ?_

theorem State.consumers_parts {p : Nat} {s x : State} (a1 : List Obs) (a2 : Nat) (hp : 0x3bf0edbdf0 ||| p = p) (h : Fr p s x) : Fr p s (State.consumers x a1 a2) := by
  unfold State.consumers
  with_reducible
    repeat' first
      | assumption | exact Fr.up (by decide) hp | apply State.scanExhausted_parts
      | apply State.maintEnd_parts | apply State.chargeScan_parts | apply State.chgResume_parts | apply State.sumCheck_parts
      | apply State.hourScan_parts | apply State.observe_parts | apply State.rangeCheck_parts | apply State.senseCheck_parts
      | apply State.refCheck_parts | apply State.zoneUpdate_parts | apply State.hzRef_parts | apply State.thermalEval_parts
      | refine Fr.foldl _ ?_ (fun y a hy => ?_) | refine Fr.ite ?_ ?_ | refine Fr.ite_snd ?_ ?_ | refine Fr.ite_trd ?_ ?_ | lift_lets
      | (intro y; refine Fr.cut p s y ?_ (fun hy => ?_); (on_goal 1 => subst y); (on_goal 2 => clear_value y)) | intro y | split
      | (refine Fr.snd_of ?_ (by assumption)) | (refine Fr.trd_of ?_ (by assumption))

theorem State.commonTrigger_parts {p : Nat} {s x : State} (a1 : Nat) (a2 : List Obs) (hp : 0x3bf0edbdf0 ||| p = p) (h : Fr p s x) : Fr p s (State.commonTrigger x a1 a2) := by
  unfold State.commonTrigger
  with_reducible
    repeat' first
      | assumption | exact Fr.up (by decide) hp | apply State.consumers_parts
      | apply State.scanRecord_parts | apply State.refreshNext_parts | apply State.refreshed_parts | apply State.calStart_parts
      | apply State.takeMasks_parts | apply State.linkPolicy_parts | apply State.balFrame_parts | apply State.set_parts
      | refine Fr.foldl _ ?_ (fun y a hy => ?_) | refine Fr.ite ?_ ?_ | lift_lets
      | (intro y; refine Fr.cut p s y ?_ (fun hy => ?_); (on_goal 1 => subst y); (on_goal 2 => clear_value y)) | intro y
      | apply Fr.mk_meas

theorem execCommonTrigger_parts {s t : State} (a0 : Nat) (a1 : List Obs) (h : execCommonTrigger a0 a1 s = .next t) : Fr 0x3bf0edbdf0 s t := by
  unfold execCommonTrigger at h
  cases h
  have h := Fr.refl 0x3bf0edbdf0 s
  have hp : 0x3bf0edbdf0 ||| 0x3bf0edbdf0 = 0x3bf0edbdf0 := rfl
  with_reducible
    repeat' first
      | assumption | exact Fr.up (by decide) hp | apply State.commonTrigger_parts
      | apply State.logged_parts | refine Fr.ite ?_ ?_ | refine fun y hy => ?_

theorem execRecTrigger_parts {s t : State} (a0 : Master) (a1 : Nat) (h : execRecTrigger a0 a1 s = .next t) : Fr 0xfff85ffdf8 s t := by
  unfold execRecTrigger at h
  cases h
  have h := Fr.refl 0xfff85ffdf8 s
  have hp : 0xfff85ffdf8 ||| 0xfff85ffdf8 = 0xfff85ffdf8 := rfl
  with_reducible
    repeat' first
      | assumption | exact Fr.up (by decide) hp | apply State.asked_parts | apply State.writeKey_parts
      | apply State.logged_parts | refine fun y hy => ?_ | split | (refine Fr.snd_of ?_ (by assumption))
      | (refine Fr.trd_of ?_ (by assumption))

theorem execCaptureWindowEnd_parts {s t : State} (h : execCaptureWindowEnd s = .next t) : Fr 0x200192010 s t := by
  unfold execCaptureWindowEnd at h
  cases h
  have h := Fr.refl 0x200192010 s
  have hp : 0x200192010 ||| 0x200192010 = 0x200192010 := rfl
  with_reducible
    repeat' first
      | assumption | exact Fr.up (by decide) hp | apply State.closeWindow_parts

theorem execCaptureClosed_parts {s t : State} (a0 : Bool) (h : execCaptureClosed a0 s = .next t) : Fr 0x200192010 s t := by
  unfold execCaptureClosed at h
  cases h
  have h := Fr.refl 0x200192010 s
  have hp : 0x200192010 ||| 0x200192010 = 0x200192010 := rfl
  with_reducible
    repeat' first
      | assumption | exact Fr.up (by decide) hp | apply State.closeCapture_parts | refine Fr.ite ?_ ?_

theorem execRecKeepWrite_parts {s t : State} (a0 : Master) (a1 : Nat) (h : execRecKeepWrite a0 a1 s = .next t) : Fr 0xfff85ffdf8 s t := by
  unfold execRecKeepWrite at h
  cases h
  have h := Fr.refl 0xfff85ffdf8 s
  have hp : 0xfff85ffdf8 ||| 0xfff85ffdf8 = 0xfff85ffdf8 := rfl
  with_reducible
    repeat' first
      | assumption | exact Fr.up (by decide) hp | apply State.asked_parts | apply State.writeKey_parts
      | apply State.logged_parts | refine fun y hy => ?_ | split | (refine Fr.snd_of ?_ (by assumption))
      | (refine Fr.trd_of ?_ (by assumption))

end Sys2Proof.Machine
end

