-- ==== Sys2Proof/Laws/PartsCharging.lean ====
section
/-!
SUPPORT. PartsCharging.lean: the footprint of every operation of Machine/Charging.lean.
-/
set_option linter.unusedTactic false
set_option linter.unreachableTactic false
set_option linter.unusedVariables false
namespace Sys2Proof.Machine

theorem State.packFound_parts {p : Nat} {s x : State} (a1 : Nat) (hp : 0x204120f0 ||| p = p) (h : Fr p s x) : Fr p s (State.packFound x a1) := by
  unfold State.packFound
  with_reducible
    repeat' first
      | assumption | exact Fr.up (by decide) hp | apply State.newPack_parts
      | apply State.chgWrite_parts | apply State.selectOrHold_parts | apply State.cutoff_parts | apply State.set_parts
      | refine Fr.ite ?_ ?_ | lift_lets
      | (intro y; refine Fr.cut p s y ?_ (fun hy => ?_); (on_goal 1 => subst y); (on_goal 2 => clear_value y)) | intro y | apply Fr.mk_chg

theorem execPackPresent_parts {s t : State} (a0 : Nat) (a1 : Nat) (h : execPackPresent a0 a1 s = .next t) : Fr 0x204920f0 s t := by
  unfold execPackPresent at h
  cases h
  have h := Fr.refl 0x204920f0 s
  have hp : 0x204920f0 ||| 0x204920f0 = 0x204920f0 := rfl
  with_reducible
    repeat' first
      | assumption | exact Fr.up (by decide) hp | apply State.packFound_parts
      | apply State.logged_parts | refine Fr.ite ?_ ?_ | refine fun y hy => ?_

theorem execPackAbsent_parts {s t : State} (a0 : Nat) (h : execPackAbsent a0 s = .next t) : Fr 0x3bf04dbdf0 s t := by
  unfold execPackAbsent at h
  cases h
  have h := Fr.refl 0x3bf04dbdf0 s
  have hp : 0x3bf04dbdf0 ||| 0x3bf04dbdf0 = 0x3bf04dbdf0 := rfl
  with_reducible
    repeat' first
      | assumption | exact Fr.up (by decide) hp | apply State.packRemoved_parts
      | apply State.logged_parts | refine Fr.ite ?_ ?_ | refine fun y hy => ?_

theorem State.packLostShell_parts {p : Nat} {s x : State} (hp : 0x3bf04dbdf0 ||| p = p) (h : Fr p s x) : Fr p s (State.packLostShell x) := by
  unfold State.packLostShell
  with_reducible
    repeat' first
      | assumption | exact Fr.up (by decide) hp | apply State.exhaustedNow_parts
      | apply State.packGone_parts | apply State.newCycle_parts | apply State.chgEnter_parts | apply State.chgBit_parts
      | apply State.sourceLoss_parts | lift_lets
      | (intro y; refine Fr.cut p s y ?_ (fun hy => ?_); (on_goal 1 => subst y); (on_goal 2 => clear_value y)) | intro y | apply Fr.mk_chg

theorem execPackLost_parts {s t : State} (a0 : Nat) (h : execPackLost a0 s = .next t) : Fr 0x3bf04dbdf0 s t := by
  unfold execPackLost at h
  cases h
  have h := Fr.refl 0x3bf04dbdf0 s
  have hp : 0x3bf04dbdf0 ||| 0x3bf04dbdf0 = 0x3bf04dbdf0 := rfl
  with_reducible
    repeat' first
      | assumption | exact Fr.up (by decide) hp | apply State.packLostShell_parts
      | apply State.logged_parts | apply State.coreRaise_parts | apply State.stopG_parts | refine Fr.ite ?_ ?_ | refine fun y hy => ?_
      | lift_lets | (intro y; refine Fr.cut _ s y ?_ (fun hy => ?_); (on_goal 1 => subst y); (on_goal 2 => clear_value y)) | intro y

theorem State.openTapEnd_parts {p : Nat} {s x : State} (a1 : Nat) (hp : 0x200120f0 ||| p = p) (h : Fr p s x) : Fr p s (State.openTapEnd x a1) := by
  unfold State.openTapEnd
  with_reducible
    repeat' first
      | assumption | exact Fr.up (by decide) hp | apply State.balOff_parts | apply State.chgEnter_parts
      | apply State.writeChg_parts | apply State.chgCond_parts | refine Fr.ite ?_ ?_ | lift_lets
      | (intro y; refine Fr.cut p s y ?_ (fun hy => ?_); (on_goal 1 => subst y); (on_goal 2 => clear_value y)) | intro y | apply Fr.mk_chg

theorem execOpenTapTest_parts {s t : State} (a0 : List (Nat × Int)) (h : execOpenTapTest a0 s = .next t) : Fr 0x200920f0 s t := by
  unfold execOpenTapTest at h
  cases h
  have h := Fr.refl 0x200920f0 s
  have hp : 0x200920f0 ||| 0x200920f0 = 0x200920f0 := rfl
  with_reducible
    repeat' first
      | assumption | exact Fr.up (by decide) hp | apply State.openTapEnd_parts
      | apply State.logged_parts | refine Fr.ite ?_ ?_ | refine fun y hy => ?_

theorem execCvTermination_parts {s t : State} (h : execCvTermination s = .next t) : Fr 0x200020f0 s t := by
  unfold execCvTermination at h
  cases h
  have h := Fr.refl 0x200020f0 s
  have hp : 0x200020f0 ||| 0x200020f0 = 0x200020f0 := rfl
  with_reducible
    repeat' first
      | assumption | exact Fr.up (by decide) hp | apply State.chgWrite_parts
      | apply State.chgEnter_parts | refine Fr.ite ?_ ?_

theorem execTopoffEnd_parts {s t : State} (h : execTopoffEnd s = .next t) : Fr 0x200920f0 s t := by
  unfold execTopoffEnd at h
  cases h
  have h := Fr.refl 0x200920f0 s
  have hp : 0x200920f0 ||| 0x200920f0 = 0x200920f0 := rfl
  with_reducible
    repeat' first
      | assumption | exact Fr.up (by decide) hp | apply State.chgEnter_parts | apply State.setSoc_parts
      | apply State.writeChg_parts | apply State.logged_parts | refine Fr.ite ?_ ?_ | refine fun y hy => ?_ | lift_lets
      | (intro y; refine Fr.cut _ s y ?_ (fun hy => ?_); (on_goal 1 => subst y); (on_goal 2 => clear_value y)) | intro y

theorem State.safetyTick_parts {p : Nat} {s x : State} (a1 : Nat) (hp : 0x20000010 ||| p = p) (h : Fr p s x) : Fr p s (State.safetyTick x a1) := by
  unfold State.safetyTick
  with_reducible
    repeat' first
      | assumption | exact Fr.up (by decide) hp | apply State.tally_parts | apply State.set_parts
      | refine Fr.ite ?_ ?_ | lift_lets
      | (intro y; refine Fr.cut p s y ?_ (fun hy => ?_); (on_goal 1 => subst y); (on_goal 2 => clear_value y)) | intro y | apply Fr.mk_chg

theorem execSafetyTimerTick_parts {s t : State} (a0 : Nat) (h : execSafetyTimerTick a0 s = .next t) : Fr 0x20000010 s t := by
  unfold execSafetyTimerTick at h
  cases h
  have h := Fr.refl 0x20000010 s
  have hp : 0x20000010 ||| 0x20000010 = 0x20000010 := rfl
  with_reducible
    repeat' first
      | assumption | exact Fr.up (by decide) hp | apply State.safetyTick_parts | refine Fr.ite ?_ ?_
      | lift_lets | (intro y; refine Fr.cut _ s y ?_ (fun hy => ?_); (on_goal 1 => subst y); (on_goal 2 => clear_value y)) | intro y
      | apply Fr.mk_chg

theorem execTimerExpired_parts {s t : State} (h : execTimerExpired s = .next t) : Fr 0x200920f0 s t := by
  unfold execTimerExpired at h
  cases h
  have h := Fr.refl 0x200920f0 s
  have hp : 0x200920f0 ||| 0x200920f0 = 0x200920f0 := rfl
  with_reducible
    repeat' first
      | assumption | exact Fr.up (by decide) hp | apply State.chgFault_parts
      | apply State.chgEvent_parts | apply State.logged_parts | refine Fr.ite ?_ ?_ | refine fun y hy => ?_

theorem execPrecondTimeout_parts {s t : State} (h : execPrecondTimeout s = .next t) : Fr 0x200920f0 s t := by
  unfold execPrecondTimeout at h
  cases h
  have h := Fr.refl 0x200920f0 s
  have hp : 0x200920f0 ||| 0x200920f0 = 0x200920f0 := rfl
  with_reducible
    repeat' first
      | assumption | exact Fr.up (by decide) hp | apply State.chgFault_parts
      | apply State.chgEvent_parts | apply State.logged_parts | refine Fr.ite ?_ ?_ | refine fun y hy => ?_

theorem execCellImbalance_parts {s t : State} (h : execCellImbalance s = .next t) : Fr 0x20012010 s t := by
  unfold execCellImbalance at h
  cases h
  have h := Fr.refl 0x20012010 s
  have hp : 0x20012010 ||| 0x20012010 = 0x20012010 := rfl
  with_reducible
    repeat' first
      | assumption | exact Fr.up (by decide) hp | apply State.chgEvent_parts | refine Fr.ite ?_ ?_

theorem execOcvCorrection_parts {s t : State} (h : execOcvCorrection s = .next t) : Fr 0x20410010 s t := by
  unfold execOcvCorrection at h
  cases h
  have h := Fr.refl 0x20410010 s
  have hp : 0x20410010 ||| 0x20410010 = 0x20410010 := rfl
  with_reducible
    repeat' first
      | assumption | exact Fr.up (by decide) hp | apply State.ocvCorrect_parts | refine Fr.ite ?_ ?_

theorem execPackCellsWrite_parts {s t : State} (a0 : Master) (a1 : Nat) (h : execPackCellsWrite a0 a1 s = .next t) : Fr 0xfff85ffdf8 s t := by
  unfold execPackCellsWrite at h
  cases h
  have h := Fr.refl 0xfff85ffdf8 s
  have hp : 0xfff85ffdf8 ||| 0xfff85ffdf8 = 0xfff85ffdf8 := rfl
  with_reducible
    repeat' first
      | assumption | exact Fr.up (by decide) hp | apply State.asked_parts | apply State.writeKey_parts
      | apply State.logged_parts | refine fun y hy => ?_ | split | (refine Fr.snd_of ?_ (by assumption))
      | (refine Fr.trd_of ?_ (by assumption))

theorem execChgEnableWrite_parts {s t : State} (a0 : Master) (a1 : Nat) (h : execChgEnableWrite a0 a1 s = .next t) : Fr 0xfff85ffdf8 s t := by
  unfold execChgEnableWrite at h
  cases h
  have h := Fr.refl 0xfff85ffdf8 s
  have hp : 0xfff85ffdf8 ||| 0xfff85ffdf8 = 0xfff85ffdf8 := rfl
  with_reducible
    repeat' first
      | assumption | exact Fr.up (by decide) hp | apply State.asked_parts | apply State.writeKey_parts
      | apply State.logged_parts | refine fun y hy => ?_ | split | (refine Fr.snd_of ?_ (by assumption))
      | (refine Fr.trd_of ?_ (by assumption))

theorem execChgServiceWrite_parts {s t : State} (a0 : Master) (a1 : Nat) (h : execChgServiceWrite a0 a1 s = .next t) : Fr 0xfff85ffdf8 s t := by
  unfold execChgServiceWrite at h
  cases h
  have h := Fr.refl 0xfff85ffdf8 s
  have hp : 0xfff85ffdf8 ||| 0xfff85ffdf8 = 0xfff85ffdf8 := rfl
  with_reducible
    repeat' first
      | assumption | exact Fr.up (by decide) hp | apply State.asked_parts | apply State.writeKey_parts
      | apply State.logged_parts | refine fun y hy => ?_ | split | (refine Fr.snd_of ?_ (by assumption))
      | (refine Fr.trd_of ?_ (by assumption))

theorem execChgFaultsRead_parts {s t : State} (a0 : Master) (h : execChgFaultsRead a0 s = .next t) : Fr 0x800016010 s t := by
  unfold execChgFaultsRead at h
  cases h
  have h := Fr.refl 0x800016010 s
  have hp : 0x800016010 ||| 0x800016010 = 0x800016010 := rfl
  with_reducible
    repeat' first
      | assumption | exact Fr.up (by decide) hp | apply State.asked_parts | apply State.readKey_parts
      | refine fun y hy => ?_ | split | (refine Fr.snd_of ?_ (by assumption)) | (refine Fr.trd_of ?_ (by assumption))

end Sys2Proof.Machine
end

