-- ==== Sys2Proof/Laws/PartsLink.lean ====
section
/-!
SUPPORT. PartsLink.lean: the footprint of every operation of Machine/Link.lean.
-/
set_option linter.unusedTactic false
set_option linter.unreachableTactic false
set_option linter.unusedVariables false
namespace Sys2Proof.Machine

theorem State.peerBit_parts {p : Nat} {s x : State} (a1 : Port) (a2 : Bool) (hp : 0x10 ||| p = p) (h : Fr p s x) : Fr p s (State.peerBit x a1 a2) := by
  unfold State.peerBit
  with_reducible
    repeat' first
      | assumption | exact Fr.up (by decide) hp | apply State.set_parts

theorem execPortMated_parts {s t : State} (a0 : Port) (h : execPortMated a0 s = .next t) : Fr 0x400800d0 s t := by
  unfold execPortMated at h
  cases h
  have h := Fr.refl 0x400800d0 s
  have hp : 0x400800d0 ||| 0x400800d0 = 0x400800d0 := rfl
  with_reducible
    repeat' first
      | assumption | exact Fr.up (by decide) hp | apply State.linkZ_parts | apply State.setLink_parts
      | apply State.modL_parts | apply State.logged_parts | apply State.ev_parts | refine Fr.ite ?_ ?_ | refine fun y hy => ?_ | lift_lets
      | (intro y; refine Fr.cut _ s y ?_ (fun hy => ?_); (on_goal 1 => subst y); (on_goal 2 => clear_value y)) | intro y

theorem State.pulled_parts {p : Nat} {s x : State} (a1 : Port) (hp : 0x3bf04dbdf0 ||| p = p) (h : Fr p s x) : Fr p s (State.pulled x a1) := by
  unfold State.pulled
  with_reducible
    repeat' first
      | assumption | exact Fr.up (by decide) hp | apply State.exhaustedNow_parts
      | apply State.toDetached_parts | apply State.linkStat_parts | apply State.sourceLoss_parts | apply State.raise_parts
      | refine Fr.ite ?_ ?_ | lift_lets
      | (intro y; refine Fr.cut p s y ?_ (fun hy => ?_); (on_goal 1 => subst y); (on_goal 2 => clear_value y)) | intro y

theorem execPortOpen_parts {s t : State} (a0 : Port) (h : execPortOpen a0 s = .next t) : Fr 0x3bf04dbdf0 s t := by
  unfold execPortOpen at h
  cases h
  have h := Fr.refl 0x3bf04dbdf0 s
  have hp : 0x3bf04dbdf0 ||| 0x3bf04dbdf0 = 0x3bf04dbdf0 := rfl
  with_reducible
    repeat' first
      | assumption | exact Fr.up (by decide) hp | apply State.pulled_parts | apply State.linkZ_parts
      | apply State.modL_parts | apply State.logged_parts | apply State.mark_parts | apply State.ev_parts | refine Fr.ite ?_ ?_
      | refine fun y hy => ?_ | lift_lets
      | (intro y; refine Fr.cut _ s y ?_ (fun hy => ?_); (on_goal 1 => subst y); (on_goal 2 => clear_value y)) | intro y

theorem execLinkSideDischarge_parts {s t : State} (a0 : Port) (h : execLinkSideDischarge a0 s = .next t) : Fr 0x40080040 s t := by
  unfold execLinkSideDischarge at h
  cases h
  have h := Fr.refl 0x40080040 s
  have hp : 0x40080040 ||| 0x40080040 = 0x40080040 := rfl
  with_reducible
    repeat' first
      | assumption | exact Fr.up (by decide) hp | apply State.linkRun_parts | apply State.modL_parts
      | apply State.logged_parts | refine Fr.ite ?_ ?_ | refine fun y hy => ?_

theorem execFarPilotPresent_parts {s t : State} (a0 : Port) (h : execFarPilotPresent a0 s = .next t) : Fr 0x500920f0 s t := by
  unfold execFarPilotPresent at h
  cases h
  have h := Fr.refl 0x500920f0 s
  have hp : 0x500920f0 ||| 0x500920f0 = 0x500920f0 := rfl
  with_reducible
    repeat' first
      | assumption | exact Fr.up (by decide) hp | apply State.peerBit_parts
      | apply State.sensedStep_parts | apply State.modL_parts | apply State.logged_parts | refine Fr.ite ?_ ?_ | refine fun y hy => ?_
      | lift_lets | (intro y; refine Fr.cut _ s y ?_ (fun hy => ?_); (on_goal 1 => subst y); (on_goal 2 => clear_value y)) | intro y

theorem execPeerSilent_parts {s t : State} (a0 : Port) (h : execPeerSilent a0 s = .next t) : Fr 0x40002030 s t := by
  unfold execPeerSilent at h
  cases h
  have h := Fr.refl 0x40002030 s
  have hp : 0x40002030 ||| 0x40002030 = 0x40002030 := rfl
  with_reducible
    repeat' first
      | assumption | exact Fr.up (by decide) hp | apply State.peerBit_parts | apply State.modL_parts
      | apply State.coreRaise_parts | refine Fr.ite ?_ ?_

theorem execConnectorBurst_parts {s t : State} (a0 : Port) (a1 : Bool) (h : execConnectorBurst a0 a1 s = .next t) : Fr 0x40000000 s t := by
  unfold execConnectorBurst at h
  cases h
  have h := Fr.refl 0x40000000 s
  have hp : 0x40000000 ||| 0x40000000 = 0x40000000 := rfl
  with_reducible
    repeat' first
      | assumption | exact Fr.up (by decide) hp | apply State.modL_parts | refine Fr.ite ?_ ?_

theorem State.senseNet_parts {p : Nat} {s x : State} (a1 : Port) (a2 : Nat) (hp : 0xd00120f0 ||| p = p) (h : Fr p s x) : Fr p s (State.senseNet x a1 a2) := by
  unfold State.senseNet
  with_reducible
    repeat' first
      | assumption | exact Fr.up (by decide) hp | apply State.detachFree_parts
      | apply State.toRamp_parts | apply State.toNeutral_parts | apply State.modL_parts | apply State.clearK_parts
      | apply State.raise1_parts | refine Fr.ite ?_ ?_ | lift_lets
      | (intro y; refine Fr.cut p s y ?_ (fun hy => ?_); (on_goal 1 => subst y); (on_goal 2 => clear_value y)) | intro y

theorem State.moistReport_parts {p : Nat} {s x : State} (a1 : Port) (a2 : Nat) (a3 : Nat) (hp : 0x12010 ||| p = p) (h : Fr p s x) : Fr p s (State.moistReport x a1 a2 a3) := by
  unfold State.moistReport
  with_reducible
    repeat' first
      | assumption | exact Fr.up (by decide) hp | apply State.linkStat_parts | apply State.clearK_parts
      | apply State.raise1_parts | refine Fr.ite ?_ ?_ | lift_lets
      | (intro y; refine Fr.cut p s y ?_ (fun hy => ?_); (on_goal 1 => subst y); (on_goal 2 => clear_value y)) | intro y

theorem State.burstDone_parts {p : Nat} {s x : State} (a1 : Port) (a2 : Nat) (a3 : Int) (hp : 0xd04120f0 ||| p = p) (h : Fr p s x) : Fr p s (State.burstDone x a1 a2 a3) := by
  unfold State.burstDone
  with_reducible
    repeat' first
      | assumption | exact Fr.up (by decide) hp | apply State.moistReport_parts
      | apply State.senseNet_parts | apply State.moistChange_parts | apply State.modL_parts | apply State.hzLeak_parts
      | apply State.put_parts | apply State.set_parts | refine Fr.ite ?_ ?_ | lift_lets
      | (intro y; refine Fr.cut p s y ?_ (fun hy => ?_); (on_goal 1 => subst y); (on_goal 2 => clear_value y)) | intro y

theorem execConnectorBurstDone_parts {s t : State} (a0 : Port) (a1 : Nat) (a2 : Int) (h : execConnectorBurstDone a0 a1 a2 s = .next t) : Fr 0x80d04920f0 s t := by
  unfold execConnectorBurstDone at h
  cases h
  have h := Fr.refl 0x80d04920f0 s
  have hp : 0x80d04920f0 ||| 0x80d04920f0 = 0x80d04920f0 := rfl
  with_reducible
    repeat' first
      | assumption | exact Fr.up (by decide) hp | apply State.burstDone_parts
      | apply State.logged_parts | refine Fr.ite ?_ ?_ | refine fun y hy => ?_ | lift_lets
      | (intro y; refine Fr.cut _ s y ?_ (fun hy => ?_); (on_goal 1 => subst y); (on_goal 2 => clear_value y)) | intro y | apply Fr.mk_uds

theorem State.peerSeen_parts {p : Nat} {s x : State} (a1 : Port) (a2 : Nat) (a3 : List Byte) (hp : 0xd00120f0 ||| p = p) (h : Fr p s x) : Fr p s (State.peerSeen x a1 a2 a3) := by
  unfold State.peerSeen
  with_reducible
    repeat' first
      | assumption | exact Fr.up (by decide) hp | apply State.moistChange_parts
      | apply State.modL_parts | apply State.set_parts | lift_lets
      | (intro y; refine Fr.cut p s y ?_ (fun hy => ?_); (on_goal 1 => subst y); (on_goal 2 => clear_value y)) | intro y

theorem State.turnDown_parts {p : Nat} {s x : State} (a1 : Port) (a2 : List Byte) (a3 : Nat) (hp : 0xc0002010 ||| p = p) (h : Fr p s x) : Fr p s (State.turnDown x a1 a2 a3) := by
  unfold State.turnDown
  with_reducible
    repeat' first
      | assumption | exact Fr.up (by decide) hp | apply State.reject_parts | refine Fr.ite ?_ ?_

theorem State.linkTake_parts {p : Nat} {s x : State} (a1 : Port) (a2 : Nat) (a3 : List Byte) (a4 : State → State) (hf : ∀ y, Fr p s y → Fr p s (a4 y)) (hp : 0xd00120f0 ||| p = p) (h : Fr p s x) : Fr p s (State.linkTake x a1 a2 a3 a4) := by
  unfold State.linkTake
  with_reducible
    repeat' first
      | assumption | exact Fr.up (by decide) hp | apply State.turnDown_parts
      | apply State.peerSeen_parts | apply State.reject_parts | apply State.sendPay_parts | apply hf | refine Fr.ite ?_ ?_ | lift_lets
      | (intro y; refine Fr.cut p s y ?_ (fun hy => ?_); (on_goal 1 => subst y); (on_goal 2 => clear_value y)) | intro y

theorem State.linkRx_parts {p : Nat} {s x : State} (a1 : Port) (a2 : Nat) (a3 : List Byte) (a4 : State → State) (hf : ∀ y, Fr p s y → Fr p s (a4 y)) (hp : 0xd00120f0 ||| p = p) (h : Fr p s x) : Fr p s (State.linkRx x a1 a2 a3 a4) := by
  unfold State.linkRx
  with_reducible
    repeat' first
      | assumption | exact Fr.up (by decide) hp | apply State.linkTake_parts
      | apply State.turnDown_parts | apply State.fabTake_parts | apply State.modL_parts | apply hf | refine Fr.ite ?_ ?_
      | refine Fr.ite_snd ?_ ?_ | refine Fr.ite_trd ?_ ?_ | refine fun y hy => ?_ | lift_lets
      | (intro y; refine Fr.cut p s y ?_ (fun hy => ?_); (on_goal 1 => subst y); (on_goal 2 => clear_value y)) | intro y | split
      | (refine Fr.snd_of ?_ (by assumption)) | (refine Fr.trd_of ?_ (by assumption))

theorem State.onOfferFree_parts {p : Nat} {s x : State} (a1 : Port) (a2 : List Byte) (hp : 0xc0002010 ||| p = p) (h : Fr p s x) : Fr p s (State.onOfferFree x a1 a2) := by
  unfold State.onOfferFree
  with_reducible
    repeat' first
      | assumption | exact Fr.up (by decide) hp | apply State.setLink_parts | apply State.reject_parts
      | apply State.answer_parts | apply State.modL_parts | refine Fr.ite ?_ ?_ | lift_lets
      | (intro y; refine Fr.cut p s y ?_ (fun hy => ?_); (on_goal 1 => subst y); (on_goal 2 => clear_value y)) | intro y | split

theorem State.onOffer_parts {p : Nat} {s x : State} (a1 : Port) (a2 : List Byte) (hp : 0xd00120f0 ||| p = p) (h : Fr p s x) : Fr p s (State.onOffer x a1 a2) := by
  unfold State.onOffer
  with_reducible
    repeat' first
      | assumption | exact Fr.up (by decide) hp | apply State.onOfferFree_parts
      | apply State.toNeutral_parts | apply State.reject_parts | refine Fr.ite ?_ ?_ | lift_lets
      | (intro y; refine Fr.cut p s y ?_ (fun hy => ?_); (on_goal 1 => subst y); (on_goal 2 => clear_value y)) | intro y

theorem execOffer_parts {s t : State} (a0 : Port) (a1 : Nat) (a2 : List Byte) (h : execOffer a0 a1 a2 s = .next t) : Fr 0xd00920f0 s t := by
  unfold execOffer at h
  cases h
  have h := Fr.refl 0xd00920f0 s
  have hp : 0xd00920f0 ||| 0xd00920f0 = 0xd00920f0 := rfl
  with_reducible
    repeat' first
      | assumption | exact Fr.up (by decide) hp | apply State.onOffer_parts | apply State.linkRx_parts
      | apply State.logged_parts | refine fun y hy => ?_

theorem State.acceptRequest_parts {p : Nat} {s x : State} (a1 : Port) (a2 : Nat) (a3 : Terms) (a4 : Nat) (a5 : Nat) (hp : 0xc00020f0 ||| p = p) (h : Fr p s x) : Fr p s (State.acceptRequest x a1 a2 a3 a4 a5) := by
  unfold State.acceptRequest
  with_reducible
    repeat' first
      | assumption | exact Fr.up (by decide) hp | apply State.linkRun_parts | apply State.setRole_parts
      | apply State.setLink_parts | apply State.writeContract_parts | apply State.answered_parts | apply State.answer_parts
      | apply State.modL_parts | apply State.ordering_parts | apply State.modG_parts | apply State.set_parts | refine Fr.ite ?_ ?_
      | lift_lets | (intro y; refine Fr.cut p s y ?_ (fun hy => ?_); (on_goal 1 => subst y); (on_goal 2 => clear_value y)) | intro y

theorem State.onRequest_parts {p : Nat} {s x : State} (a1 : Port) (a2 : List Byte) (a3 : Nat) (hp : 0xd00120f0 ||| p = p) (h : Fr p s x) : Fr p s (State.onRequest x a1 a2 a3) := by
  unfold State.onRequest
  with_reducible
    repeat' first
      | assumption | exact Fr.up (by decide) hp | apply State.acceptRequest_parts
      | apply State.toNeutral_parts | apply State.reject_parts | refine Fr.ite ?_ ?_ | lift_lets
      | (intro y; refine Fr.cut p s y ?_ (fun hy => ?_); (on_goal 1 => subst y); (on_goal 2 => clear_value y)) | intro y | split

theorem execRequest_parts {s t : State} (a0 : Port) (a1 : Nat) (a2 : List Byte) (a3 : Nat) (h : execRequest a0 a1 a2 a3 s = .next t) : Fr 0xd00920f0 s t := by
  unfold execRequest at h
  cases h
  have h := Fr.refl 0xd00920f0 s
  have hp : 0xd00920f0 ||| 0xd00920f0 = 0xd00920f0 := rfl
  with_reducible
    repeat' first
      | assumption | exact Fr.up (by decide) hp | apply State.onRequest_parts
      | apply State.linkRx_parts | apply State.logged_parts | refine fun y hy => ?_

theorem State.requestAccepted_parts {p : Nat} {s x : State} (a1 : Port) (a2 : List Byte) (hp : 0x400020f0 ||| p = p) (h : Fr p s x) : Fr p s (State.requestAccepted x a1 a2) := by
  unfold State.requestAccepted
  with_reducible
    repeat' first
      | assumption | exact Fr.up (by decide) hp | apply State.setRole_parts | apply State.setLink_parts
      | apply State.writeContract_parts | apply State.answered_parts | apply State.modL_parts | apply State.ordering_parts
      | apply State.set_parts | refine Fr.ite ?_ ?_ | lift_lets
      | (intro y; refine Fr.cut p s y ?_ (fun hy => ?_); (on_goal 1 => subst y); (on_goal 2 => clear_value y)) | intro y

theorem State.onAccept_parts {p : Nat} {s x : State} (a1 : Port) (a2 : List Byte) (hp : 0x500120f0 ||| p = p) (h : Fr p s x) : Fr p s (State.onAccept x a1 a2) := by
  unfold State.onAccept
  with_reducible
    repeat' first
      | assumption | exact Fr.up (by decide) hp | apply State.requestAccepted_parts
      | apply State.toRamp_parts | apply State.answered_parts | apply State.modL_parts | refine Fr.ite ?_ ?_ | lift_lets
      | (intro y; refine Fr.cut p s y ?_ (fun hy => ?_); (on_goal 1 => subst y); (on_goal 2 => clear_value y)) | intro y

theorem execAccept_parts {s t : State} (a0 : Port) (a1 : Nat) (a2 : List Byte) (h : execAccept a0 a1 a2 s = .next t) : Fr 0xd00920f0 s t := by
  unfold execAccept at h
  cases h
  have h := Fr.refl 0xd00920f0 s
  have hp : 0xd00920f0 ||| 0xd00920f0 = 0xd00920f0 := rfl
  with_reducible
    repeat' first
      | assumption | exact Fr.up (by decide) hp | apply State.onAccept_parts | apply State.linkRx_parts
      | apply State.logged_parts | refine fun y hy => ?_

theorem execReject_parts {s t : State} (a0 : Port) (a1 : Nat) (a2 : List Byte) (h : execReject a0 a1 a2 s = .next t) : Fr 0xd00920f0 s t := by
  unfold execReject at h
  cases h
  have h := Fr.refl 0xd00920f0 s
  have hp : 0xd00920f0 ||| 0xd00920f0 = 0xd00920f0 := rfl
  with_reducible
    repeat' first
      | assumption | exact Fr.up (by decide) hp | apply State.linkRx_parts
      | apply State.toNeutral_parts | apply State.answered_parts | apply State.linkStat_parts | apply State.modL_parts
      | apply State.logged_parts | refine Fr.ite ?_ ?_ | refine fun y hy => ?_ | lift_lets
      | (intro y; refine Fr.cut _ s y ?_ (fun hy => ?_); (on_goal 1 => subst y); (on_goal 2 => clear_value y)) | intro y

theorem State.contractIn_parts {p : Nat} {s x : State} (a1 : Port) (hp : 0x400120f0 ||| p = p) (h : Fr p s x) : Fr p s (State.contractIn x a1) := by
  unfold State.contractIn
  with_reducible
    repeat' first
      | assumption | exact Fr.up (by decide) hp | apply State.linkRun_parts | apply State.setRole_parts
      | apply State.setLink_parts | apply State.writeContract_parts | apply State.linkStat_parts | apply State.modL_parts
      | apply State.ordering_parts | apply State.set_parts | refine Fr.ite ?_ ?_ | lift_lets
      | (intro y; refine Fr.cut p s y ?_ (fun hy => ?_); (on_goal 1 => subst y); (on_goal 2 => clear_value y)) | intro y | split

theorem State.onReady_parts {p : Nat} {s x : State} (a1 : Port) (a2 : List Byte) (hp : 0x400120f0 ||| p = p) (h : Fr p s x) : Fr p s (State.onReady x a1 a2) := by
  unfold State.onReady
  with_reducible
    repeat' first
      | assumption | exact Fr.up (by decide) hp | apply State.contractIn_parts | refine Fr.ite ?_ ?_
      | lift_lets | (intro y; refine Fr.cut p s y ?_ (fun hy => ?_); (on_goal 1 => subst y); (on_goal 2 => clear_value y)) | intro y
      | split

theorem execReady_parts {s t : State} (a0 : Port) (a1 : Nat) (a2 : List Byte) (h : execReady a0 a1 a2 s = .next t) : Fr 0xd00920f0 s t := by
  unfold execReady at h
  cases h
  have h := Fr.refl 0xd00920f0 s
  have hp : 0xd00920f0 ||| 0xd00920f0 = 0xd00920f0 := rfl
  with_reducible
    repeat' first
      | assumption | exact Fr.up (by decide) hp | apply State.onReady_parts | apply State.linkRx_parts
      | apply State.logged_parts | refine fun y hy => ?_

theorem State.sendReady_parts {p : Nat} {s x : State} (a1 : Port) (a2 : Nat) (hp : 0xc00120f0 ||| p = p) (h : Fr p s x) : Fr p s (State.sendReady x a1 a2) := by
  unfold State.sendReady
  with_reducible
    repeat' first
      | assumption | exact Fr.up (by decide) hp | apply State.contractIn_parts
      | apply State.sendMsg_parts | refine Fr.ite ?_ ?_ | lift_lets
      | (intro y; refine Fr.cut p s y ?_ (fun hy => ?_); (on_goal 1 => subst y); (on_goal 2 => clear_value y)) | intro y | split

theorem execSendReady_parts {s t : State} (a0 : Port) (a1 : Nat) (h : execSendReady a0 a1 s = .next t) : Fr 0xc00920f0 s t := by
  unfold execSendReady at h
  cases h
  have h := Fr.refl 0xc00920f0 s
  have hp : 0xc00920f0 ||| 0xc00920f0 = 0xc00920f0 := rfl
  with_reducible
    repeat' first
      | assumption | exact Fr.up (by decide) hp | apply State.sendReady_parts
      | apply State.logged_parts | refine Fr.ite ?_ ?_ | refine fun y hy => ?_

theorem State.swapStart_parts {p : Nat} {s x : State} (a1 : Port) (a2 : Nat) (hp : 0x40000010 ||| p = p) (h : Fr p s x) : Fr p s (State.swapStart x a1 a2) := by
  unfold State.swapStart
  with_reducible
    repeat' first
      | assumption | exact Fr.up (by decide) hp | apply State.setLink_parts | apply State.modL_parts
      | apply State.set_parts | lift_lets
      | (intro y; refine Fr.cut p s y ?_ (fun hy => ?_); (on_goal 1 => subst y); (on_goal 2 => clear_value y)) | intro y

theorem State.onSwapReq_parts {p : Nat} {s x : State} (a1 : Port) (a2 : List Byte) (hp : 0xc0002010 ||| p = p) (h : Fr p s x) : Fr p s (State.onSwapReq x a1 a2) := by
  unfold State.onSwapReq
  with_reducible
    repeat' first
      | assumption | exact Fr.up (by decide) hp | apply State.swapStart_parts
      | apply State.answered_parts | apply State.reject_parts | apply State.answer_parts | refine Fr.ite ?_ ?_ | lift_lets
      | (intro y; refine Fr.cut p s y ?_ (fun hy => ?_); (on_goal 1 => subst y); (on_goal 2 => clear_value y)) | intro y

theorem execSwapReq_parts {s t : State} (a0 : Port) (a1 : Nat) (a2 : List Byte) (h : execSwapReq a0 a1 a2 s = .next t) : Fr 0xd00920f0 s t := by
  unfold execSwapReq at h
  cases h
  have h := Fr.refl 0xd00920f0 s
  have hp : 0xd00920f0 ||| 0xd00920f0 = 0xd00920f0 := rfl
  with_reducible
    repeat' first
      | assumption | exact Fr.up (by decide) hp | apply State.onSwapReq_parts
      | apply State.linkRx_parts | apply State.logged_parts | refine fun y hy => ?_

theorem State.onSwapAck_parts {p : Nat} {s x : State} (a1 : Port) (a2 : List Byte) (hp : 0x40000010 ||| p = p) (h : Fr p s x) : Fr p s (State.onSwapAck x a1 a2) := by
  unfold State.onSwapAck
  with_reducible
    repeat' first
      | assumption | exact Fr.up (by decide) hp | apply State.swapStart_parts
      | apply State.answered_parts | refine Fr.ite ?_ ?_ | lift_lets
      | (intro y; refine Fr.cut p s y ?_ (fun hy => ?_); (on_goal 1 => subst y); (on_goal 2 => clear_value y)) | intro y

theorem execSwapAck_parts {s t : State} (a0 : Port) (a1 : Nat) (a2 : List Byte) (h : execSwapAck a0 a1 a2 s = .next t) : Fr 0xd00920f0 s t := by
  unfold execSwapAck at h
  cases h
  have h := Fr.refl 0xd00920f0 s
  have hp : 0xd00920f0 ||| 0xd00920f0 = 0xd00920f0 := rfl
  with_reducible
    repeat' first
      | assumption | exact Fr.up (by decide) hp | apply State.onSwapAck_parts
      | apply State.linkRx_parts | apply State.logged_parts | refine fun y hy => ?_

theorem execSwapDwellEnd_parts {s t : State} (a0 : Port) (h : execSwapDwellEnd a0 s = .next t) : Fr 0x400820f0 s t := by
  unfold execSwapDwellEnd at h
  cases h
  have h := Fr.refl 0x400820f0 s
  have hp : 0x400820f0 ||| 0x400820f0 = 0x400820f0 := rfl
  with_reducible
    repeat' first
      | assumption | exact Fr.up (by decide) hp | apply State.linkRun_parts | apply State.linkZ_parts
      | apply State.setRole_parts | apply State.writeContract_parts | apply State.modL_parts | apply State.logged_parts
      | refine Fr.ite ?_ ?_ | refine fun y hy => ?_ | lift_lets
      | (intro y; refine Fr.cut _ s y ?_ (fun hy => ?_); (on_goal 1 => subst y); (on_goal 2 => clear_value y)) | intro y | split

theorem execHardReset_parts {s t : State} (a0 : Port) (a1 : Nat) (a2 : List Byte) (h : execHardReset a0 a1 a2 s = .next t) : Fr 0xd00920f0 s t := by
  unfold execHardReset at h
  cases h
  have h := Fr.refl 0xd00920f0 s
  have hp : 0xd00920f0 ||| 0xd00920f0 = 0xd00920f0 := rfl
  with_reducible
    repeat' first
      | assumption | exact Fr.up (by decide) hp | apply State.linkRx_parts
      | apply State.onHardReset_parts | apply State.logged_parts | refine fun y hy => ?_

theorem State.onDetach_parts {p : Nat} {s x : State} (a1 : Port) (a2 : List Byte) (hp : 0xd0012010 ||| p = p) (h : Fr p s x) : Fr p s (State.onDetach x a1 a2) := by
  unfold State.onDetach
  with_reducible
    repeat' first
      | assumption | exact Fr.up (by decide) hp | apply State.toRamp_parts | apply State.answered_parts
      | apply State.reject_parts | apply State.answer_parts | refine Fr.ite ?_ ?_ | lift_lets
      | (intro y; refine Fr.cut p s y ?_ (fun hy => ?_); (on_goal 1 => subst y); (on_goal 2 => clear_value y)) | intro y

theorem execDetach_parts {s t : State} (a0 : Port) (a1 : Nat) (a2 : List Byte) (h : execDetach a0 a1 a2 s = .next t) : Fr 0xd00920f0 s t := by
  unfold execDetach at h
  cases h
  have h := Fr.refl 0xd00920f0 s
  have hp : 0xd00920f0 ||| 0xd00920f0 = 0xd00920f0 := rfl
  with_reducible
    repeat' first
      | assumption | exact Fr.up (by decide) hp | apply State.onDetach_parts | apply State.linkRx_parts
      | apply State.logged_parts | refine fun y hy => ?_

theorem State.noResponse_parts {p : Nat} {s x : State} (a1 : Port) (hp : 0xd00120f0 ||| p = p) (h : Fr p s x) : Fr p s (State.noResponse x a1) := by
  unfold State.noResponse
  with_reducible
    repeat' first
      | assumption | exact Fr.up (by decide) hp | apply State.sendHard_parts
      | apply State.toNeutral_parts | apply State.answered_parts | apply State.sendPay_parts | apply State.modL_parts
      | apply State.raise_parts | refine Fr.ite ?_ ?_ | lift_lets
      | (intro y; refine Fr.cut p s y ?_ (fun hy => ?_); (on_goal 1 => subst y); (on_goal 2 => clear_value y)) | intro y | split

theorem execNoResponse_parts {s t : State} (a0 : Port) (h : execNoResponse a0 s = .next t) : Fr 0xd00920f0 s t := by
  unfold execNoResponse at h
  cases h
  have h := Fr.refl 0xd00920f0 s
  have hp : 0xd00920f0 ||| 0xd00920f0 = 0xd00920f0 := rfl
  with_reducible
    repeat' first
      | assumption | exact Fr.up (by decide) hp | apply State.noResponse_parts
      | apply State.logged_parts | refine Fr.ite ?_ ?_ | refine fun y hy => ?_

theorem execTransitionTimeout_parts {s t : State} (a0 : Port) (h : execTransitionTimeout a0 s = .next t) : Fr 0xd00920f0 s t := by
  unfold execTransitionTimeout at h
  cases h
  have h := Fr.refl 0xd00920f0 s
  have hp : 0xd00920f0 ||| 0xd00920f0 = 0xd00920f0 := rfl
  with_reducible
    repeat' first
      | assumption | exact Fr.up (by decide) hp | apply State.sendHard_parts | apply State.logged_parts
      | apply State.raise_parts | refine Fr.ite ?_ ?_ | refine fun y hy => ?_

theorem execContractVoltage_parts {s t : State} (a0 : Port) (a1 : Nat) (h : execContractVoltage a0 a1 s = .next t) : Fr 0xd00920f0 s t := by
  unfold execContractVoltage at h
  cases h
  have h := Fr.refl 0xd00920f0 s
  have hp : 0xd00920f0 ||| 0xd00920f0 = 0xd00920f0 := rfl
  with_reducible
    repeat' first
      | assumption | exact Fr.up (by decide) hp | apply State.sendHard_parts | apply State.logged_parts
      | apply State.raise_parts | refine Fr.ite ?_ ?_ | refine fun y hy => ?_

theorem execDataLost_parts {s t : State} (a0 : Port) (h : execDataLost a0 s = .next t) : Fr 0x50012010 s t := by
  unfold execDataLost at h
  cases h
  have h := Fr.refl 0x50012010 s
  have hp : 0x50012010 ||| 0x50012010 = 0x50012010 := rfl
  with_reducible
    repeat' first
      | assumption | exact Fr.up (by decide) hp | apply State.toRamp_parts | apply State.raise_parts
      | refine Fr.ite ?_ ?_

theorem execLinkDischargeDone_parts {s t : State} (a0 : Port) (h : execLinkDischargeDone a0 s = .next t) : Fr 0x500920f0 s t := by
  unfold execLinkDischargeDone at h
  cases h
  have h := Fr.refl 0x500920f0 s
  have hp : 0x500920f0 ||| 0x500920f0 = 0x500920f0 := rfl
  with_reducible
    repeat' first
      | assumption | exact Fr.up (by decide) hp | apply State.toNeutral_parts | apply State.linkZ_parts
      | apply State.modL_parts | apply State.logged_parts | refine Fr.ite ?_ ?_ | refine fun y hy => ?_

theorem execDischargeFail_parts {s t : State} (a0 : Port) (a1 : Nat) (h : execDischargeFail a0 a1 s = .next t) : Fr 0x2010 s t := by
  unfold execDischargeFail at h
  cases h
  have h := Fr.refl 0x2010 s
  have hp : 0x2010 ||| 0x2010 = 0x2010 := rfl
  with_reducible
    repeat' first
      | assumption | exact Fr.up (by decide) hp | apply State.raise_parts | refine Fr.ite ?_ ?_

theorem execRampDownComplete_parts {s t : State} (a0 : Port) (h : execRampDownComplete a0 s = .next t) : Fr 0x500920f0 s t := by
  unfold execRampDownComplete at h
  cases h
  have h := Fr.refl 0x500920f0 s
  have hp : 0x500920f0 ||| 0x500920f0 = 0x500920f0 := rfl
  with_reducible
    repeat' first
      | assumption | exact Fr.up (by decide) hp | apply State.toNeutral_parts
      | apply State.logged_parts | refine Fr.ite ?_ ?_ | refine fun y hy => ?_

theorem execReoffer_parts {s t : State} (a0 : Port) (h : execReoffer a0 s = .next t) : Fr 0xc0002010 s t := by
  unfold execReoffer at h
  cases h
  have h := Fr.refl 0xc0002010 s
  have hp : 0xc0002010 ||| 0xc0002010 = 0xc0002010 := rfl
  with_reducible
    repeat' first
      | assumption | exact Fr.up (by decide) hp | apply State.policyContract_parts
      | apply State.sendOffer_parts | refine Fr.ite ?_ ?_

theorem State.linkCtrlWrite_parts {p : Nat} {s x : State} (a1 : Master) (a2 : Port) (a3 : Nat) (hp : 0xfff85ffdf8 ||| p = p) (h : Fr p s x) : Fr p s (State.linkCtrlWrite x a1 a2 a3) := by
  unfold State.linkCtrlWrite
  with_reducible
    repeat' first
      | assumption | exact Fr.up (by decide) hp | apply State.asked_parts | apply State.writeKey_parts
      | refine fun y hy => ?_ | split | (refine Fr.snd_of ?_ (by assumption)) | (refine Fr.trd_of ?_ (by assumption))

theorem execLinkCtrlDetach_parts {s t : State} (a0 : Master) (a1 : Port) (h : execLinkCtrlDetach a0 a1 s = .next t) : Fr 0xfff85ffdf8 s t := by
  unfold execLinkCtrlDetach at h
  cases h
  have h := Fr.refl 0xfff85ffdf8 s
  have hp : 0xfff85ffdf8 ||| 0xfff85ffdf8 = 0xfff85ffdf8 := rfl
  with_reducible
    repeat' first
      | assumption | exact Fr.up (by decide) hp | apply State.linkCtrlWrite_parts
      | apply State.logged_parts | refine fun y hy => ?_

theorem execLinkCtrlSwapReq_parts {s t : State} (a0 : Master) (a1 : Port) (h : execLinkCtrlSwapReq a0 a1 s = .next t) : Fr 0xfff85ffdf8 s t := by
  unfold execLinkCtrlSwapReq at h
  cases h
  have h := Fr.refl 0xfff85ffdf8 s
  have hp : 0xfff85ffdf8 ||| 0xfff85ffdf8 = 0xfff85ffdf8 := rfl
  with_reducible
    repeat' first
      | assumption | exact Fr.up (by decide) hp | apply State.linkCtrlWrite_parts
      | apply State.logged_parts | refine fun y hy => ?_

theorem execLinkCtrlHardReset_parts {s t : State} (a0 : Master) (a1 : Port) (h : execLinkCtrlHardReset a0 a1 s = .next t) : Fr 0xfff85ffdf8 s t := by
  unfold execLinkCtrlHardReset at h
  cases h
  have h := Fr.refl 0xfff85ffdf8 s
  have hp : 0xfff85ffdf8 ||| 0xfff85ffdf8 = 0xfff85ffdf8 := rfl
  with_reducible
    repeat' first
      | assumption | exact Fr.up (by decide) hp | apply State.linkCtrlWrite_parts
      | apply State.logged_parts | refine fun y hy => ?_

theorem execLinkCtrlApplyPolicy_parts {s t : State} (a0 : Master) (a1 : Port) (h : execLinkCtrlApplyPolicy a0 a1 s = .next t) : Fr 0xfff85ffdf8 s t := by
  unfold execLinkCtrlApplyPolicy at h
  cases h
  have h := Fr.refl 0xfff85ffdf8 s
  have hp : 0xfff85ffdf8 ||| 0xfff85ffdf8 = 0xfff85ffdf8 := rfl
  with_reducible
    repeat' first
      | assumption | exact Fr.up (by decide) hp | apply State.linkCtrlWrite_parts
      | apply State.logged_parts | refine fun y hy => ?_

end Sys2Proof.Machine
end

