-- ==== Sys2Proof/Laws/PartsThermal.lean ====
section
/-!
SUPPORT. PartsThermal.lean: the footprint of every operation of Machine/Thermal.lean.
-/
set_option linter.unusedTactic false
set_option linter.unreachableTactic false
set_option linter.unusedVariables false
namespace Sys2Proof.Machine

theorem State.tripShell_parts {p : Nat} {s x : State} (a1 : Bool) (hp : 0xd04130f0 ||| p = p) (h : Fr p s x) : Fr p s (State.tripShell x a1) := by
  unfold State.tripShell
  with_reducible
    repeat' first
      | assumption | exact Fr.up (by decide) hp | apply State.classAbandon_parts
      | apply State.detachFree_parts | apply State.toRamp_parts | apply State.writeChg_parts | apply State.allocate_parts
      | apply State.srcState_parts | refine Fr.foldl _ ?_ (fun y a hy => ?_) | refine Fr.ite ?_ ?_ | lift_lets
      | (intro y; refine Fr.cut p s y ?_ (fun hy => ?_); (on_goal 1 => subst y); (on_goal 2 => clear_value y)) | intro y

theorem State.tripTimes_parts {p : Nat} {s x : State} (hp : 0x40008023f0 ||| p = p) (h : Fr p s x) : Fr p s (State.tripTimes x) := by
  unfold State.tripTimes
  with_reducible
    repeat' first
      | assumption | exact Fr.up (by decide) hp | apply State.setOvercast_parts
      | apply State.coreRaise_parts | refine Fr.ite ?_ ?_ | lift_lets
      | (intro y; refine Fr.cut p s y ?_ (fun hy => ?_); (on_goal 1 => subst y); (on_goal 2 => clear_value y)) | intro y
      | apply Fr.mk_cell

theorem State.tsdStop_parts {p : Nat} {s x : State} (hp : 0xe0 ||| p = p) (h : Fr p s x) : Fr p s (State.tsdStop x) := by
  unfold State.tsdStop
  with_reducible
    repeat' first
      | assumption | exact Fr.up (by decide) hp | apply State.discOff_parts | apply State.stopG_parts
      | refine Fr.ite ?_ ?_ | lift_lets
      | (intro y; refine Fr.cut p s y ?_ (fun hy => ?_); (on_goal 1 => subst y); (on_goal 2 => clear_value y)) | intro y
      | apply Fr.mk_core

theorem State.tsdTrip_parts {p : Nat} {s x : State} (a1 : Nat) (hp : 0x40d0c933f0 ||| p = p) (h : Fr p s x) : Fr p s (State.tsdTrip x a1) := by
  unfold State.tsdTrip
  with_reducible
    repeat' first
      | assumption | exact Fr.up (by decide) hp | apply State.tsdStop_parts
      | apply State.tripTimes_parts | apply State.tripShell_parts | apply State.linkZ_parts | apply State.ev_parts
      | apply State.coreRaiseC_parts | apply State.count_parts | apply State.set_parts | refine Fr.ite ?_ ?_ | lift_lets
      | (intro y; refine Fr.cut p s y ?_ (fun hy => ?_); (on_goal 1 => subst y); (on_goal 2 => clear_value y)) | intro y | apply Fr.mk_aon

theorem execThermalShutdown_parts {s t : State} (a0 : Fin 8) (h : execThermalShutdown a0 s = .next t) : Fr 0x40d0c933f0 s t := by
  unfold execThermalShutdown at h
  cases h
  have h := Fr.refl 0x40d0c933f0 s
  have hp : 0x40d0c933f0 ||| 0x40d0c933f0 = 0x40d0c933f0 := rfl
  with_reducible
    repeat' first
      | assumption | exact Fr.up (by decide) hp | apply State.tsdTrip_parts | apply State.logged_parts
      | refine Fr.ite ?_ ?_ | refine fun y hy => ?_

theorem State.tsdRelease_parts {p : Nat} {s x : State} (hp : 0x39f04dbdf0 ||| p = p) (h : Fr p s x) : Fr p s (State.tsdRelease x) := by
  unfold State.tsdRelease
  with_reducible
    repeat' first
      | assumption | exact Fr.up (by decide) hp | apply State.actStored_parts
      | apply State.toNeutral_parts | apply State.ev_parts | apply State.coreClearK_parts | apply State.freeG_parts
      | apply State.set_parts | refine Fr.foldl _ ?_ (fun y a hy => ?_) | refine Fr.ite ?_ ?_ | lift_lets
      | (intro y; refine Fr.cut p s y ?_ (fun hy => ?_); (on_goal 1 => subst y); (on_goal 2 => clear_value y)) | intro y

theorem execThermalShutdownRelease_parts {s t : State} (h : execThermalShutdownRelease s = .next t) : Fr 0x39f04dbdf0 s t := by
  unfold execThermalShutdownRelease at h
  cases h
  have h := Fr.refl 0x39f04dbdf0 s
  have hp : 0x39f04dbdf0 ||| 0x39f04dbdf0 = 0x39f04dbdf0 := rfl
  with_reducible
    repeat' first
      | assumption | exact Fr.up (by decide) hp | apply State.tsdRelease_parts
      | apply State.logged_parts | refine Fr.ite ?_ ?_ | refine fun y hy => ?_

end Sys2Proof.Machine
end

