-- ==== Sys2Proof/Laws/PartsHorizon.lean ====
section
/-!
SUPPORT. PartsHorizon.lean: the footprint of every operation of Machine/Horizon.lean.
-/
set_option linter.unusedTactic false
set_option linter.unreachableTactic false
set_option linter.unusedVariables false
namespace Sys2Proof.Machine

theorem execHzRoundClose_parts {s t : State} (h : execHzRoundClose s = .next t) : Fr 0x600000 s t := by
  unfold execHzRoundClose at h
  cases h
  have h := Fr.refl 0x600000 s
  have hp : 0x600000 ||| 0x600000 = 0x600000 := rfl
  with_reducible
    repeat' first
      | assumption | exact Fr.up (by decide) hp | apply State.closeRound_parts | refine Fr.ite ?_ ?_

theorem execHzProbeStart_parts {s t : State} (h : execHzProbeStart s = .next t) : Fr 0x400010 s t := by
  unfold execHzProbeStart at h
  cases h
  have h := Fr.refl 0x400010 s
  have hp : 0x400010 ||| 0x400010 = 0x400010 := rfl
  with_reducible
    repeat' first
      | assumption | exact Fr.up (by decide) hp | apply State.set_parts | refine Fr.ite ?_ ?_
      | lift_lets | (intro y; refine Fr.cut _ s y ?_ (fun hy => ?_); (on_goal 1 => subst y); (on_goal 2 => clear_value y)) | intro y
      | apply Fr.mk_hz

theorem State.measInvalid_parts {p : Nat} {s x : State} (a1 : Nat) (hp : 0x2010 ||| p = p) (h : Fr p s x) : Fr p s (State.measInvalid x a1) := by
  unfold State.measInvalid
  with_reducible
    repeat' first
      | assumption | exact Fr.up (by decide) hp | apply State.raise_parts

theorem State.probeResult_parts {p : Nat} {s x : State} (a1 : Nat) (a2 : Nat) (hp : 0x402010 ||| p = p) (h : Fr p s x) : Fr p s (State.probeResult x a1 a2) := by
  unfold State.probeResult
  with_reducible
    repeat' first
      | assumption | exact Fr.up (by decide) hp | apply State.measInvalid_parts
      | apply State.hzTake_parts | apply State.set_parts | refine Fr.ite ?_ ?_ | lift_lets
      | (intro y; refine Fr.cut p s y ?_ (fun hy => ?_); (on_goal 1 => subst y); (on_goal 2 => clear_value y)) | intro y | apply Fr.mk_hz

theorem State.probeCap_parts {p : Nat} {s x : State} (a1 : List ProbeStep) (hp : 0x8 ||| p = p) (h : Fr p s x) : Fr p s (State.probeCap x a1).2 := by
  unfold State.probeCap
  with_reducible
    repeat' first
      | assumption | exact Fr.up (by decide) hp | apply State.draw_parts
      | refine Fr.foldl _ ?_ (fun y a hy => ?_) | refine Fr.ite ?_ ?_ | refine Fr.ite_snd ?_ ?_ | refine Fr.ite_trd ?_ ?_ | split
      | (refine Fr.snd_of ?_ (by assumption)) | (refine Fr.trd_of ?_ (by assumption))

theorem State.probeEsr_parts {p : Nat} {s x : State} (a1 : List (Int × Int)) (hp : 0x8 ||| p = p) (h : Fr p s x) : Fr p s (State.probeEsr x a1).2 := by
  unfold State.probeEsr
  with_reducible
    repeat' first
      | assumption | exact Fr.up (by decide) hp | apply State.draw_parts
      | refine Fr.foldl _ ?_ (fun y a hy => ?_) | refine Fr.ite ?_ ?_ | refine Fr.ite_snd ?_ ?_ | refine Fr.ite_trd ?_ ?_ | lift_lets
      | (intro y; refine Fr.cut p s y ?_ (fun hy => ?_); (on_goal 1 => subst y); (on_goal 2 => clear_value y)) | intro y | split
      | (refine Fr.snd_of ?_ (by assumption)) | (refine Fr.trd_of ?_ (by assumption))

theorem execHzProbeComplete_parts {s t : State} (a0 : List ProbeStep) (a1 : List (Int × Int)) (h : execHzProbeComplete a0 a1 s = .next t) : Fr 0x402018 s t := by
  unfold execHzProbeComplete at h
  cases h
  have h := Fr.refl 0x402018 s
  have hp : 0x402018 ||| 0x402018 = 0x402018 := rfl
  with_reducible
    repeat' first
      | assumption | exact Fr.up (by decide) hp | apply State.probeEsr_parts
      | apply State.probeCap_parts | apply State.probeResult_parts | refine Fr.ite ?_ ?_ | refine Fr.ite_snd ?_ ?_
      | refine Fr.ite_trd ?_ ?_ | lift_lets
      | (intro y; refine Fr.cut _ s y ?_ (fun hy => ?_); (on_goal 1 => subst y); (on_goal 2 => clear_value y)) | intro y | split
      | (refine Fr.snd_of ?_ (by assumption)) | (refine Fr.trd_of ?_ (by assumption))

theorem State.epochTimer_parts {p : Nat} {s x : State} (hp : 0x410010 ||| p = p) (h : Fr p s x) : Fr p s (State.epochTimer x) := by
  unfold State.epochTimer
  with_reducible
    repeat' first
      | assumption | exact Fr.up (by decide) hp | apply State.epochStart_parts | apply State.put_parts

theorem execHzEpochTimer_parts {s t : State} (h : execHzEpochTimer s = .next t) : Fr 0x410010 s t := by
  unfold execHzEpochTimer at h
  cases h
  have h := Fr.refl 0x410010 s
  have hp : 0x410010 ||| 0x410010 = 0x410010 := rfl
  with_reducible
    repeat' first
      | assumption | exact Fr.up (by decide) hp | apply State.epochTimer_parts | refine Fr.ite ?_ ?_

theorem execHzEpochCmd_parts {s t : State} (a0 : Master) (a1 : Nat) (h : execHzEpochCmd a0 a1 s = .next t) : Fr 0xfff85ffdf8 s t := by
  unfold execHzEpochCmd at h
  cases h
  have h := Fr.refl 0xfff85ffdf8 s
  have hp : 0xfff85ffdf8 ||| 0xfff85ffdf8 = 0xfff85ffdf8 := rfl
  with_reducible
    repeat' first
      | assumption | exact Fr.up (by decide) hp | apply State.asked_parts | apply State.writeKey_parts
      | apply State.logged_parts | refine fun y hy => ?_ | split | (refine Fr.snd_of ?_ (by assumption))
      | (refine Fr.trd_of ?_ (by assumption))

theorem State.epochEnd_parts {p : Nat} {s x : State} (a1 : Nat) (hp : 0xe612850 ||| p = p) (h : Fr p s x) : Fr p s (State.epochEnd x a1) := by
  unfold State.epochEnd
  with_reducible
    repeat' first
      | assumption | exact Fr.up (by decide) hp | apply State.hzMode_parts
      | apply State.commitStart_parts | apply State.epochFinish_parts | lift_lets
      | (intro y; refine Fr.cut p s y ?_ (fun hy => ?_); (on_goal 1 => subst y); (on_goal 2 => clear_value y)) | intro y
      | apply Fr.mk_tabs | apply Fr.mk_mode_tabs

theorem execEpochComplete_parts {s t : State} (h : execEpochComplete s = .next t) : Fr 0xe612850 s t := by
  unfold execEpochComplete at h
  cases h
  have h := Fr.refl 0xe612850 s
  have hp : 0xe612850 ||| 0xe612850 = 0xe612850 := rfl
  with_reducible
    repeat' first
      | assumption | exact Fr.up (by decide) hp | apply State.epochEnd_parts | refine Fr.ite ?_ ?_
      | split

theorem State.trimContract_parts {p : Nat} {s x : State} (a1 : Port) (hp : 0x20f0 ||| p = p) (h : Fr p s x) : Fr p s (State.trimContract x a1) := by
  unfold State.trimContract
  with_reducible
    repeat' first
      | assumption | exact Fr.up (by decide) hp | apply State.writeContract_parts | refine Fr.ite ?_ ?_
      | lift_lets | (intro y; refine Fr.cut p s y ?_ (fun hy => ?_); (on_goal 1 => subst y); (on_goal 2 => clear_value y)) | intro y

theorem State.iinRetake_parts {p : Nat} {s x : State} (hp : 0x30f0 ||| p = p) (h : Fr p s x) : Fr p s (State.iinRetake x) := by
  unfold State.iinRetake
  with_reducible
    repeat' first
      | assumption | exact Fr.up (by decide) hp | apply State.portIfNew_parts | apply State.set_parts
      | refine Fr.ite ?_ ?_ | lift_lets
      | (intro y; refine Fr.cut p s y ?_ (fun hy => ?_); (on_goal 1 => subst y); (on_goal 2 => clear_value y)) | intro y | apply Fr.mk_src

theorem State.termRamp_parts {p : Nat} {s x : State} (hp : 0x4030f0 ||| p = p) (h : Fr p s x) : Fr p s (State.termRamp x) := by
  unfold State.termRamp
  with_reducible
    repeat' first
      | assumption | exact Fr.up (by decide) hp | apply State.iinRetake_parts
      | apply State.trimContract_parts | apply State.writeLimits_parts | refine Fr.ite ?_ ?_ | lift_lets
      | (intro y; refine Fr.cut p s y ?_ (fun hy => ?_); (on_goal 1 => subst y); (on_goal 2 => clear_value y)) | intro y | apply Fr.mk_hz

theorem execHzTermRamp_parts {s t : State} (h : execHzTermRamp s = .next t) : Fr 0x4830f0 s t := by
  unfold execHzTermRamp at h
  cases h
  have h := Fr.refl 0x4830f0 s
  have hp : 0x4830f0 ||| 0x4830f0 = 0x4830f0 := rfl
  with_reducible
    repeat' first
      | assumption | exact Fr.up (by decide) hp | apply State.termRamp_parts | apply State.logged_parts
      | refine Fr.ite ?_ ?_ | refine fun y hy => ?_

theorem State.ceilingStep_parts {p : Nat} {s x : State} (a1 : Group) (a2 : Nat) (hp : 0x20f0 ||| p = p) (h : Fr p s x) : Fr p s (State.ceilingStep x a1 a2) := by
  unfold State.ceilingStep
  with_reducible
    repeat' first
      | assumption | exact Fr.up (by decide) hp | apply State.portIfNew_parts | refine Fr.ite ?_ ?_
      | lift_lets | (intro y; refine Fr.cut p s y ?_ (fun hy => ?_); (on_goal 1 => subst y); (on_goal 2 => clear_value y)) | intro y

theorem execFreqCeilingStep_parts {s t : State} (h : execFreqCeilingStep s = .next t) : Fr 0x820f0 s t := by
  unfold execFreqCeilingStep at h
  cases h
  have h := Fr.refl 0x820f0 s
  have hp : 0x820f0 ||| 0x820f0 = 0x820f0 := rfl
  with_reducible
    repeat' first
      | assumption | exact Fr.up (by decide) hp | apply State.ceilingStep_parts
      | apply State.logged_parts | refine Fr.foldl _ ?_ (fun y a hy => ?_) | refine Fr.ite ?_ ?_ | refine fun y hy => ?_

theorem execHzRebase_parts {s t : State} (a0 : Master) (a1 : Nat) (h : execHzRebase a0 a1 s = .next t) : Fr 0xfff85ffdf8 s t := by
  unfold execHzRebase at h
  cases h
  have h := Fr.refl 0xfff85ffdf8 s
  have hp : 0xfff85ffdf8 ||| 0xfff85ffdf8 = 0xfff85ffdf8 := rfl
  with_reducible
    repeat' first
      | assumption | exact Fr.up (by decide) hp | apply State.asked_parts | apply State.writeKey_parts
      | apply State.logged_parts | refine fun y hy => ?_ | split | (refine Fr.snd_of ?_ (by assumption))
      | (refine Fr.trd_of ?_ (by assumption))

theorem State.leakHour_parts {p : Nat} {s x : State} (a1 : Port) (a2 : Nat) (hp : 0x410010 ||| p = p) (h : Fr p s x) : Fr p s (State.leakHour x a1 a2) := by
  unfold State.leakHour
  with_reducible
    repeat' first
      | assumption | exact Fr.up (by decide) hp | apply State.put_parts | refine Fr.ite ?_ ?_
      | lift_lets | (intro y; refine Fr.cut p s y ?_ (fun hy => ?_); (on_goal 1 => subst y); (on_goal 2 => clear_value y)) | intro y
      | apply Fr.mk_hz

theorem State.fullHour_parts {p : Nat} {s x : State} (hp : 0x6c12010 ||| p = p) (h : Fr p s x) : Fr p s (State.fullHour x) := by
  unfold State.fullHour
  with_reducible
    repeat' first
      | assumption | exact Fr.up (by decide) hp | apply State.leakHour_parts
      | apply State.hourRecord_parts | apply State.put_parts | refine Fr.ite ?_ ?_ | lift_lets
      | (intro y; refine Fr.cut p s y ?_ (fun hy => ?_); (on_goal 1 => subst y); (on_goal 2 => clear_value y)) | intro y
      | apply Fr.mk_hour

theorem execHourRecord_parts {s t : State} (h : execHourRecord s = .next t) : Fr 0x6c12010 s t := by
  unfold execHourRecord at h
  cases h
  have h := Fr.refl 0x6c12010 s
  have hp : 0x6c12010 ||| 0x6c12010 = 0x6c12010 := rfl
  with_reducible
    repeat' first
      | assumption | exact Fr.up (by decide) hp | apply State.fullHour_parts | refine Fr.ite ?_ ?_

end Sys2Proof.Machine
end

