-- ==== Sys2Proof/Laws/PartsMemory.lean ====
section
/-!
SUPPORT. PartsMemory.lean: the footprint of every operation of Machine/Memory.lean.
-/
set_option linter.unusedTactic false
set_option linter.unreachableTactic false
set_option linter.unusedVariables false
namespace Sys2Proof.Machine

theorem State.imageReload_parts {p : Nat} {s x : State} (a1 : Nat) (a2 : Nat) (hp : 0x8002010 ||| p = p) (h : Fr p s x) : Fr p s (State.imageReload x a1 a2) := by
  unfold State.imageReload
  with_reducible
    repeat' first
      | assumption | exact Fr.up (by decide) hp | apply State.idleIds_parts
      | apply State.refuseImage_parts | apply State.setBank_parts | refine Fr.ite ?_ ?_ | lift_lets
      | (intro y; refine Fr.cut p s y ?_ (fun hy => ?_); (on_goal 1 => subst y); (on_goal 2 => clear_value y)) | intro y | split
      | apply Fr.mk_tabs

theorem State.gapRecord_parts {p : Nat} {s x : State} (hp : 0x82010 ||| p = p) (h : Fr p s x) : Fr p s (State.gapRecord x) := by
  unfold State.gapRecord
  with_reducible
    repeat' first
      | assumption | exact Fr.up (by decide) hp | apply State.raise_parts | lift_lets
      | (intro y; refine Fr.cut p s y ?_ (fun hy => ?_); (on_goal 1 => subst y); (on_goal 2 => clear_value y)) | intro y
      | apply Fr.mk_ring

theorem State.retainedInit_parts {p : Nat} {s x : State} (a1 : Nat) (hp : 0x21c97810 ||| p = p) (h : Fr p s x) : Fr p s (State.retainedInit x a1) := by
  unfold State.retainedInit
  with_reducible
    repeat' first
      | assumption | exact Fr.up (by decide) hp | apply State.dropRequests_parts
      | apply State.flashBusy_parts | apply State.resetObjs_parts | apply State.set_parts | lift_lets
      | (intro y; refine Fr.cut p s y ?_ (fun hy => ?_); (on_goal 1 => subst y); (on_goal 2 => clear_value y)) | intro y | split
      | apply Fr.mk_col_recs | apply Fr.mk_jrnl | apply Fr.mk_ring | apply Fr.mk_hz_hour_parkAcc | apply Fr.mk_src_chg

theorem State.wordLost_parts {p : Nat} {s x : State} (a1 : SramWord) (hp : 0x10a9c97810 ||| p = p) (h : Fr p s x) : Fr p s (State.wordLost x a1) := by
  unfold State.wordLost
  with_reducible
    repeat' first
      | assumption | exact Fr.up (by decide) hp | apply State.retainedInit_parts
      | apply State.gapRecord_parts | apply State.imageReload_parts | apply State.modCan_parts | apply State.modFab_parts
      | apply State.set_parts | refine Fr.foldl _ ?_ (fun y a hy => ?_) | refine Fr.ite ?_ ?_ | lift_lets
      | (intro y; refine Fr.cut p s y ?_ (fun hy => ?_); (on_goal 1 => subst y); (on_goal 2 => clear_value y)) | intro y | split
      | apply Fr.mk_ring

theorem State.wordReport_parts {p : Nat} {s x : State} (a1 : SramWord) (hp : 0x2010 ||| p = p) (h : Fr p s x) : Fr p s (State.wordReport x a1) := by
  unfold State.wordReport
  with_reducible
    repeat' first
      | assumption | exact Fr.up (by decide) hp | apply State.raise_parts | apply State.tally_parts
      | lift_lets | (intro y; refine Fr.cut p s y ?_ (fun hy => ?_); (on_goal 1 => subst y); (on_goal 2 => clear_value y)) | intro y
      | split

theorem execSramScrub_parts {s t : State} (a0 : List Nat) (a1 : List SramWord) (h : execSramScrub a0 a1 s = .next t) : Fr 0x10a9c97810 s t := by
  unfold execSramScrub at h
  cases h
  have h := Fr.refl 0x10a9c97810 s
  have hp : 0x10a9c97810 ||| 0x10a9c97810 = 0x10a9c97810 := rfl
  with_reducible
    repeat' first
      | assumption | exact Fr.up (by decide) hp | apply State.wordReport_parts
      | apply State.wordLost_parts | apply State.raise_parts | apply State.tally_parts | refine Fr.foldl _ ?_ (fun y a hy => ?_)
      | refine Fr.ite ?_ ?_ | lift_lets
      | (intro y; refine Fr.cut _ s y ?_ (fun hy => ?_); (on_goal 1 => subst y); (on_goal 2 => clear_value y)) | intro y | split
      | apply Fr.mk_col

theorem State.scrubCorrected_parts {p : Nat} {s x : State} (a1 : List Nat) (a2 : Nat) (a3 : Nat) (hp : 0x2010 ||| p = p) (h : Fr p s x) : Fr p s (State.scrubCorrected x a1 a2 a3) := by
  unfold State.scrubCorrected
  with_reducible
    repeat' first
      | assumption | exact Fr.up (by decide) hp | apply State.raise_parts | refine Fr.ite ?_ ?_

theorem State.bankRewrite_parts {p : Nat} {s x : State} (a1 : Nat) (hp : 0x208002010 ||| p = p) (h : Fr p s x) : Fr p s (State.bankRewrite x a1) := by
  unfold State.bankRewrite
  with_reducible
    repeat' first
      | assumption | exact Fr.up (by decide) hp | apply State.refuseImage_parts
      | apply State.writeBankF_parts | apply State.setBank_parts | refine Fr.foldl _ ?_ (fun y a hy => ?_) | lift_lets
      | (intro y; refine Fr.cut p s y ?_ (fun hy => ?_); (on_goal 1 => subst y); (on_goal 2 => clear_value y)) | intro y | split

theorem State.logLost_parts {p : Nat} {s x : State} (a1 : Nat) (hp : 0x2000008 ||| p = p) (h : Fr p s x) : Fr p s (State.logLost x a1) := by
  unfold State.logLost
  with_reducible
    repeat' first
      | assumption | exact Fr.up (by decide) hp | apply State.draw_parts | refine Fr.ite ?_ ?_
      | refine Fr.ite_snd ?_ ?_ | refine Fr.ite_trd ?_ ?_ | lift_lets
      | (intro y; refine Fr.cut p s y ?_ (fun hy => ?_); (on_goal 1 => subst y); (on_goal 2 => clear_value y)) | intro y | split
      | (refine Fr.snd_of ?_ (by assumption)) | (refine Fr.trd_of ?_ (by assumption)) | apply Fr.mk_log

theorem State.pageFound_parts {p : Nat} {s x : State} (a1 : List Nat) (a2 : FlashPage) (hp : 0x20a112018 ||| p = p) (h : Fr p s x) : Fr p s (State.pageFound x a1 a2) := by
  unfold State.pageFound
  with_reducible
    repeat' first
      | assumption | exact Fr.up (by decide) hp | apply State.logLost_parts
      | apply State.bankRewrite_parts | apply State.scrubCorrected_parts | apply State.checkpoint_parts | apply State.raise_parts
      | apply State.put_parts | refine Fr.ite ?_ ?_ | lift_lets
      | (intro y; refine Fr.cut p s y ?_ (fun hy => ?_); (on_goal 1 => subst y); (on_goal 2 => clear_value y)) | intro y | split
      | apply Fr.mk_archive | apply Fr.mk_flash

theorem execFlashScrub_parts {s t : State} (a0 : List FlashPage) (h : execFlashScrub a0 s = .next t) : Fr 0x20a312018 s t := by
  unfold execFlashScrub at h
  cases h
  have h := Fr.refl 0x20a312018 s
  refine Fr.ite (State.set_parts _ _ rfl ?_) h
  have key : ∀ (l : List FlashPage) (q : List Nat × State), Fr 0x20a312018 s q.2 →
      Fr 0x20a312018 s (l.foldl (fun (x : List Nat × State) p => (pageRegion p ++ x.1, x.2.pageFound x.1 p)) q).2 := by
    intro l
    induction l with
    | nil => exact fun p hp => hp
    | cons a l ih => exact fun p hp => ih _ (State.pageFound_parts _ _ rfl hp)
  exact key _ _ (Fr.mk_thm h rfl)

theorem State.logFailed_parts {p : Nat} {s x : State} (a1 : Nat) (hp : 0x206012010 ||| p = p) (h : Fr p s x) : Fr p s (State.logFailed x a1) := by
  unfold State.logFailed
  with_reducible
    repeat' first
      | assumption | exact Fr.up (by decide) hp | apply State.sectorFail_parts
      | apply State.raise_parts | apply State.put_parts | lift_lets
      | (intro y; refine Fr.cut p s y ?_ (fun hy => ?_); (on_goal 1 => subst y); (on_goal 2 => clear_value y)) | intro y | split
      | apply Fr.mk_log_logRetry

theorem execFlashWriteComplete_parts {s t : State} (a0 : Bool) (a1 : Fin 6) (a2 : Nat) (h : execFlashWriteComplete a0 a1 a2 s = .next t) : Fr 0xd20e012010 s t := by
  unfold execFlashWriteComplete at h
  cases h
  have h := Fr.refl 0xd20e012010 s
  have hp : 0xd20e012010 ||| 0xd20e012010 = 0xd20e012010 := rfl
  with_reducible
    repeat' first
      | assumption | exact Fr.up (by decide) hp | apply State.logFailed_parts
      | apply State.releaseHeld_parts | apply State.bankWritten_parts | apply State.sectorFail_parts | apply State.set_parts
      | refine Fr.ite ?_ ?_

theorem State.reverify_parts {p : Nat} {s x : State} (a1 : Nat) (hp : 0x2010 ||| p = p) (h : Fr p s x) : Fr p s (State.reverify x a1) := by
  unfold State.reverify
  with_reducible
    repeat' first
      | assumption | exact Fr.up (by decide) hp | apply State.clearI_parts | apply State.raiseC_parts
      | refine Fr.foldl _ ?_ (fun y a hy => ?_) | refine Fr.ite ?_ ?_

theorem execOtpReverify_parts {s t : State} (a0 : Nat) (h : execOtpReverify a0 s = .next t) : Fr 0x222010 s t := by
  unfold execOtpReverify at h
  cases h
  have h := Fr.refl 0x222010 s
  have hp : 0x222010 ||| 0x222010 = 0x222010 := rfl
  with_reducible
    repeat' first
      | assumption | exact Fr.up (by decide) hp | apply State.reverify_parts | refine Fr.ite ?_ ?_
      | lift_lets | (intro y; refine Fr.cut _ s y ?_ (fun hy => ?_); (on_goal 1 => subst y); (on_goal 2 => clear_value y)) | intro y
      | apply Fr.mk_otp | apply Fr.mk_thm

theorem State.reverifyDue_parts {p : Nat} {s x : State} (hp : 0x22010 ||| p = p) (h : Fr p s x) : Fr p s (State.reverifyDue x) := by
  unfold State.reverifyDue
  with_reducible
    repeat' first
      | assumption | exact Fr.up (by decide) hp | apply State.reverify_parts | lift_lets
      | (intro y; refine Fr.cut p s y ?_ (fun hy => ?_); (on_goal 1 => subst y); (on_goal 2 => clear_value y)) | intro y | split
      | apply Fr.mk_otp

theorem execOtpProg_parts {s t : State} (a0 : Master) (a1 : List Byte) (h : execOtpProg a0 a1 s = .next t) : Fr 0x808022010 s t := by
  unfold execOtpProg at h
  cases h
  have h := Fr.refl 0x808022010 s
  have hp : 0x808022010 ||| 0x808022010 = 0x808022010 := rfl
  with_reducible
    repeat' first
      | assumption | exact Fr.up (by decide) hp | apply State.asked_parts
      | apply State.writeSegment_parts | refine fun y hy => ?_ | split | (refine Fr.snd_of ?_ (by assumption))
      | (refine Fr.trd_of ?_ (by assumption))

theorem execOtpLock_parts {s t : State} (a0 : Master) (a1 : Nat) (h : execOtpLock a0 a1 s = .next t) : Fr 0xfff85ffdf8 s t := by
  unfold execOtpLock at h
  cases h
  have h := Fr.refl 0xfff85ffdf8 s
  have hp : 0xfff85ffdf8 ||| 0xfff85ffdf8 = 0xfff85ffdf8 := rfl
  with_reducible
    repeat' first
      | assumption | exact Fr.up (by decide) hp | apply State.asked_parts | apply State.writeKey_parts
      | apply State.logged_parts | refine fun y hy => ?_ | split | (refine Fr.snd_of ?_ (by assumption))
      | (refine Fr.trd_of ?_ (by assumption))

theorem State.otpDone_parts {p : Nat} {s x : State} (a off : Nat) (d : List Byte) (ok : Bool) (hp : 0xd000022018 ||| p = p) (h : Fr p s x) : Fr p s (x.otpDone a off d ok) := by
  unfold State.otpDone
  have h1 : Fr p s { x with otp := { x.otp with prog := none } } := Fr.mk_otp h (Fr.up rfl hp)
  refine Fr.cut p s _ h1 ?_
  generalize ({ x with otp := { x.otp with prog := none } } : State) = y
  intro hy
  refine Fr.ite ?_ (Fr.ite ?_ ?_)
  · exact State.releaseHeld_parts _ _ (Fr.up rfl hp) (State.set_parts _ _ (Fr.up rfl hp) (State.modArea_parts _ _ (Fr.up rfl hp) hy))
  · exact State.releaseHeld_parts _ _ (Fr.up rfl hp) (State.set_parts _ _ (Fr.up rfl hp) (State.modArea_parts _ _ (Fr.up rfl hp) hy))
  · have hb := State.someBits_parts d (Fr.up rfl hp) hy
    split
    rename_i e
    have hz := Fr.snd_of hb e
    exact State.releaseHeld_parts _ _ (Fr.up rfl hp) (State.raise_parts _ _ _ (Fr.up rfl hp) (State.set_parts _ _ (Fr.up rfl hp) (State.modArea_parts _ _ (Fr.up rfl hp) hz)))

theorem execOtpProgrammingComplete_parts {s t : State} (a0 : Bool) (h : execOtpProgrammingComplete a0 s = .next t) : Fr 0xd000022018 s t := by
  unfold execOtpProgrammingComplete at h
  cases h
  have h := Fr.refl 0xd000022018 s
  have hp : 0xd000022018 ||| 0xd000022018 = 0xd000022018 := rfl
  with_reducible
    repeat' first
      | assumption | exact Fr.up (by decide) hp | apply State.otpDone_parts
      | apply State.reverifyDue_parts | refine Fr.ite ?_ ?_ | split

end Sys2Proof.Machine
end

