-- ==== Sys2Proof/Laws/PartsSupply.lean ====
section
/-!
SUPPORT. PartsSupply.lean: the footprint of every operation of Machine/Supply.lean.
-/
set_option linter.unusedTactic false
set_option linter.unreachableTactic false
set_option linter.unusedVariables false
namespace Sys2Proof.Machine

theorem State.referenceLost_parts {p : Nat} {s x : State} (hp : 0x2110 ||| p = p) (h : Fr p s x) : Fr p s (State.referenceLost x) := by
  unfold State.referenceLost
  with_reducible
    repeat' first
      | assumption | exact Fr.up (by decide) hp | apply State.raise1_parts | apply State.set_parts
      | lift_lets | (intro y; refine Fr.cut p s y ?_ (fun hy => ?_); (on_goal 1 => subst y); (on_goal 2 => clear_value y)) | intro y
      | apply Fr.mk_aon

theorem State.nextReference_parts {p : Nat} {s x : State} (hp : 0x2110 ||| p = p) (h : Fr p s x) : Fr p s (State.nextReference x) := by
  unfold State.nextReference
  with_reducible
    repeat' first
      | assumption | exact Fr.up (by decide) hp | apply State.referenceLost_parts
      | apply State.raise_parts | apply State.set_parts | refine Fr.ite ?_ ?_ | lift_lets
      | (intro y; refine Fr.cut p s y ?_ (fun hy => ?_); (on_goal 1 => subst y); (on_goal 2 => clear_value y)) | intro y

theorem State.clockStop_parts {p : Nat} {s x : State} (hp : 0xa978497df0 ||| p = p) (h : Fr p s x) : Fr p s (State.clockStop x) := by
  unfold State.clockStop
  with_reducible
    repeat' first
      | assumption | exact Fr.up (by decide) hp | apply State.shellAbsent_parts | apply State.set_parts
      | refine Fr.ite ?_ ?_ | lift_lets
      | (intro y; refine Fr.cut p s y ?_ (fun hy => ?_); (on_goal 1 => subst y); (on_goal 2 => clear_value y)) | intro y | apply Fr.mk_aon

theorem execClockReferenceLost_parts {s t : State} (a0 : Bool) (h : execClockReferenceLost a0 s = .next t) : Fr 0xa978497df0 s t := by
  unfold execClockReferenceLost at h
  cases h
  have h := Fr.refl 0xa978497df0 s
  have hp : 0xa978497df0 ||| 0xa978497df0 = 0xa978497df0 := rfl
  with_reducible
    repeat' first
      | assumption | exact Fr.up (by decide) hp | apply State.clockStop_parts
      | apply State.nextReference_parts | apply State.referenceLost_parts | apply State.logged_parts | refine Fr.ite ?_ ?_
      | refine fun y hy => ?_

theorem execRecoveredClkLost_parts {s t : State} (h : execRecoveredClkLost s = .next t) : Fr 0x2010 s t := by
  unfold execRecoveredClkLost at h
  cases h
  have h := Fr.refl 0x2010 s
  have hp : 0x2010 ||| 0x2010 = 0x2010 := rfl
  with_reducible
    repeat' first
      | assumption | exact Fr.up (by decide) hp | apply State.raise_parts | apply State.set_parts
      | refine Fr.ite ?_ ?_

theorem execPllUnlock_parts {s t : State} (h : execPllUnlock s = .next t) : Fr 0x2010 s t := by
  unfold execPllUnlock at h
  cases h
  have h := Fr.refl 0x2010 s
  have hp : 0x2010 ||| 0x2010 = 0x2010 := rfl
  with_reducible
    repeat' first
      | assumption | exact Fr.up (by decide) hp | apply State.raise1_parts | refine Fr.ite ?_ ?_

theorem execPllLockHeld_parts {s t : State} (h : execPllLockHeld s = .next t) : Fr 0x2010 s t := by
  unfold execPllLockHeld at h
  cases h
  have h := Fr.refl 0x2010 s
  have hp : 0x2010 ||| 0x2010 = 0x2010 := rfl
  with_reducible
    repeat' first
      | assumption | exact Fr.up (by decide) hp | apply State.clearK_parts

theorem execReferenceGood_parts {s t : State} (h : execReferenceGood s = .next t) : Fr 0x2010 s t := by
  unfold execReferenceGood at h
  cases h
  have h := Fr.refl 0x2010 s
  have hp : 0x2010 ||| 0x2010 = 0x2010 := rfl
  with_reducible
    repeat' first
      | assumption | exact Fr.up (by decide) hp | apply State.clearK_parts

theorem execCoreBuckFault_parts {s t : State} (h : execCoreBuckFault s = .next t) : Fr 0x2110 s t := by
  unfold execCoreBuckFault at h
  cases h
  have h := Fr.refl 0x2110 s
  have hp : 0x2110 ||| 0x2110 = 0x2110 := rfl
  with_reducible
    repeat' first
      | assumption | exact Fr.up (by decide) hp | apply State.raise1_parts | refine Fr.ite ?_ ?_
      | lift_lets | (intro y; refine Fr.cut _ s y ?_ (fun hy => ?_); (on_goal 1 => subst y); (on_goal 2 => clear_value y)) | intro y
      | apply Fr.mk_aon

theorem execCoreBuckRestart_parts {s t : State} (h : execCoreBuckRestart s = .next t) : Fr 0x100 s t := by
  unfold execCoreBuckRestart at h
  cases h
  have h := Fr.refl 0x100 s
  have hp : 0x100 ||| 0x100 = 0x100 := rfl
  with_reducible
    repeat' first
      | assumption | exact Fr.up (by decide) hp | lift_lets
      | (intro y; refine Fr.cut _ s y ?_ (fun hy => ?_); (on_goal 1 => subst y); (on_goal 2 => clear_value y)) | intro y | apply Fr.mk_aon

theorem execCoreBuckNormal_parts {s t : State} (h : execCoreBuckNormal s = .next t) : Fr 0x2010 s t := by
  unfold execCoreBuckNormal at h
  cases h
  have h := Fr.refl 0x2010 s
  have hp : 0x2010 ||| 0x2010 = 0x2010 := rfl
  with_reducible
    repeat' first
      | assumption | exact Fr.up (by decide) hp | apply State.clearK_parts | refine Fr.ite ?_ ?_

theorem execVcoreRange_parts {s t : State} (a0 : Nat) (h : execVcoreRange a0 s = .next t) : Fr 0x2010 s t := by
  unfold execVcoreRange at h
  cases h
  have h := Fr.refl 0x2010 s
  have hp : 0x2010 ||| 0x2010 = 0x2010 := rfl
  with_reducible
    repeat' first
      | assumption | exact Fr.up (by decide) hp | apply State.raise1_parts | refine Fr.ite ?_ ?_

theorem execVcoreWithinRange_parts {s t : State} (h : execVcoreWithinRange s = .next t) : Fr 0x2010 s t := by
  unfold execVcoreWithinRange at h
  cases h
  have h := Fr.refl 0x2010 s
  have hp : 0x2010 ||| 0x2010 = 0x2010 := rfl
  with_reducible
    repeat' first
      | assumption | exact Fr.up (by decide) hp | apply State.clearK_parts

theorem execVdd33Range_parts {s t : State} (a0 : Nat) (h : execVdd33Range a0 s = .next t) : Fr 0x2010 s t := by
  unfold execVdd33Range at h
  cases h
  have h := Fr.refl 0x2010 s
  have hp : 0x2010 ||| 0x2010 = 0x2010 := rfl
  with_reducible
    repeat' first
      | assumption | exact Fr.up (by decide) hp | apply State.raise1_parts | refine Fr.ite ?_ ?_

theorem execVdd33WithinRange_parts {s t : State} (h : execVdd33WithinRange s = .next t) : Fr 0x2010 s t := by
  unfold execVdd33WithinRange at h
  cases h
  have h := Fr.refl 0x2010 s
  have hp : 0x2010 ||| 0x2010 = 0x2010 := rfl
  with_reducible
    repeat' first
      | assumption | exact Fr.up (by decide) hp | apply State.clearK_parts

theorem execTapReset_parts {s t : State} (h : execTapReset s = .next t) : Fr 0x100 s t := by
  unfold execTapReset at h
  cases h
  have h := Fr.refl 0x100 s
  have hp : 0x100 ||| 0x100 = 0x100 := rfl
  with_reducible
    repeat' first
      | assumption | exact Fr.up (by decide) hp | lift_lets
      | (intro y; refine Fr.cut _ s y ?_ (fun hy => ?_); (on_goal 1 => subst y); (on_goal 2 => clear_value y)) | intro y | apply Fr.mk_aon

theorem execBoundaryScanInstruction_parts {s t : State} (h : execBoundaryScanInstruction s = .next t) : Fr 0x100 s t := by
  unfold execBoundaryScanInstruction at h
  cases h
  have h := Fr.refl 0x100 s
  have hp : 0x100 ||| 0x100 = 0x100 := rfl
  with_reducible
    repeat' first
      | assumption | exact Fr.up (by decide) hp | lift_lets
      | (intro y; refine Fr.cut _ s y ?_ (fun hy => ?_); (on_goal 1 => subst y); (on_goal 2 => clear_value y)) | intro y | apply Fr.mk_aon

end Sys2Proof.Machine
end

