-- ==== Sys2Proof/Laws/PartsGuard.lean ====
section
/-!
SUPPORT. PartsGuard.lean: the footprint of every operation of Machine/Guard.lean.
-/
set_option linter.unusedTactic false
set_option linter.unreachableTactic false
set_option linter.unusedVariables false
namespace Sys2Proof.Machine

theorem State.wdAt_parts {p : Nat} {s x : State} (a1 : Nat) (hp : 0x400000000 ||| p = p) (h : Fr p s x) : Fr p s (State.wdAt x a1) := by
  unfold State.wdAt
  with_reducible
    repeat' first
      | assumption | exact Fr.up (by decide) hp | lift_lets
      | (intro y; refine Fr.cut p s y ?_ (fun hy => ?_); (on_goal 1 => subst y); (on_goal 2 => clear_value y)) | intro y | apply Fr.mk_wd

theorem State.wdNext_parts {p : Nat} {s x : State} (hp : 0x400016118 ||| p = p) (h : Fr p s x) : Fr p s (State.wdNext x) := by
  unfold State.wdNext
  with_reducible
    repeat' first
      | assumption | exact Fr.up (by decide) hp | apply State.wdViolation_parts
      | apply State.wdPeriod_parts | split

theorem execWdPeriodStart_parts {s t : State} (h : execWdPeriodStart s = .next t) : Fr 0x400016118 s t := by
  unfold execWdPeriodStart at h
  cases h
  have h := Fr.refl 0x400016118 s
  have hp : 0x400016118 ||| 0x400016118 = 0x400016118 := rfl
  with_reducible
    repeat' first
      | assumption | exact Fr.up (by decide) hp | apply State.wdNext_parts | refine Fr.ite ?_ ?_

theorem State.wdHardware_parts {p : Nat} {s x : State} (a1 : Nat) (hp : 0x500016118 ||| p = p) (h : Fr p s x) : Fr p s (State.wdHardware x a1) := by
  unfold State.wdHardware
  with_reducible
    repeat' first
      | assumption | exact Fr.up (by decide) hp | apply State.wdAt_parts | apply State.wdAfresh_parts
      | apply State.wdCheckin_parts | refine Fr.ite ?_ ?_ | lift_lets
      | (intro y; refine Fr.cut p s y ?_ (fun hy => ?_); (on_goal 1 => subst y); (on_goal 2 => clear_value y)) | intro y

theorem execWdHardwareCheckin_parts {s t : State} (a0 : Fin 8) (h : execWdHardwareCheckin a0 s = .next t) : Fr 0x500016118 s t := by
  unfold execWdHardwareCheckin at h
  cases h
  have h := Fr.refl 0x500016118 s
  have hp : 0x500016118 ||| 0x500016118 = 0x500016118 := rfl
  with_reducible
    repeat' first
      | assumption | exact Fr.up (by decide) hp | apply State.wdHardware_parts | refine Fr.ite ?_ ?_

theorem execWdCheckin_parts {s t : State} (a0 : Master) (a1 : Nat) (a2 : Nat) (h : execWdCheckin a0 a1 a2 s = .next t) : Fr 0xfff85ffdf8 s t := by
  unfold execWdCheckin at h
  cases h
  have h := Fr.refl 0xfff85ffdf8 s
  have hp : 0xfff85ffdf8 ||| 0xfff85ffdf8 = 0xfff85ffdf8 := rfl
  with_reducible
    repeat' first
      | assumption | exact Fr.up (by decide) hp | apply State.wdAt_parts | apply State.asked_parts
      | apply State.writeKey_parts | apply State.logged_parts | refine fun y hy => ?_ | split | (refine Fr.snd_of ?_ (by assumption))
      | (refine Fr.trd_of ?_ (by assumption))

theorem execWdWindowClose_parts {s t : State} (a0 : Fin 16) (h : execWdWindowClose a0 s = .next t) : Fr 0x400016118 s t := by
  unfold execWdWindowClose at h
  cases h
  have h := Fr.refl 0x400016118 s
  have hp : 0x400016118 ||| 0x400016118 = 0x400016118 := rfl
  with_reducible
    repeat' first
      | assumption | exact Fr.up (by decide) hp | apply State.wdAt_parts
      | apply State.wdViolation_parts | refine Fr.ite ?_ ?_ | lift_lets
      | (intro y; refine Fr.cut _ s y ?_ (fun hy => ?_); (on_goal 1 => subst y); (on_goal 2 => clear_value y)) | intro y

theorem execWdConfigWrite_parts {s t : State} (a0 : Master) (a1 : Nat) (a2 : Nat) (h : execWdConfigWrite a0 a1 a2 s = .next t) : Fr 0xfff85ffdf8 s t := by
  unfold execWdConfigWrite at h
  cases h
  have h := Fr.refl 0xfff85ffdf8 s
  have hp : 0xfff85ffdf8 ||| 0xfff85ffdf8 = 0xfff85ffdf8 := rfl
  with_reducible
    repeat' first
      | assumption | exact Fr.up (by decide) hp | apply State.asked_parts | apply State.writeKey_parts
      | apply State.logged_parts | refine Fr.ite ?_ ?_ | refine Fr.ite_snd ?_ ?_ | refine Fr.ite_trd ?_ ?_ | refine fun y hy => ?_ | split
      | (refine Fr.snd_of ?_ (by assumption)) | (refine Fr.trd_of ?_ (by assumption))

end Sys2Proof.Machine
end

