-- ==== Sys2Proof/Laws/PartsCanBus.lean ====
section
/-!
SUPPORT. PartsCanBus.lean: the footprint of every operation of Machine/CanBus.lean.
-/
set_option linter.unusedTactic false
set_option linter.unreachableTactic false
set_option linter.unusedVariables false
namespace Sys2Proof.Machine

theorem State.canLater_parts {p : Nat} {s x : State} (hp : 0x1000000000 ||| p = p) (h : Fr p s x) : Fr p s (State.canLater x) := by
  unfold State.canLater
  with_reducible
    repeat' first
      | assumption | exact Fr.up (by decide) hp | apply State.canQueue_parts | apply State.modCan_parts
      | refine Fr.ite ?_ ?_ | split

theorem State.canAnswer_parts {p : Nat} {s x : State} (a1 : Bool) (a2 : Nat) (a3 : List CanFrame) (hp : 0x1000000000 ||| p = p) (h : Fr p s x) : Fr p s (State.canAnswer x a1 a2 a3) := by
  unfold State.canAnswer
  with_reducible
    repeat' first
      | assumption | exact Fr.up (by decide) hp | apply State.canLater_parts
      | apply State.canKeep_parts | apply State.canQueue_parts | apply State.modCan_parts | lift_lets
      | (intro y; refine Fr.cut p s y ?_ (fun hy => ?_); (on_goal 1 => subst y); (on_goal 2 => clear_value y)) | intro y | split

theorem State.canAnswerSlow_parts {p : Nat} {s x : State} (a1 : Bool) (a2 : Nat) (a3 : Nat) (a4 : CanFrame) (hp : 0x1000000000 ||| p = p) (h : Fr p s x) : Fr p s (State.canAnswerSlow x a1 a2 a3 a4) := by
  unfold State.canAnswerSlow
  with_reducible
    repeat' first
      | assumption | exact Fr.up (by decide) hp | apply State.canAnswer_parts
      | apply State.modCan_parts | refine Fr.ite ?_ ?_

theorem State.canRead1_parts {p : Nat} {s x : State} (a1 : Bool) (a2 : List Byte) (a3 : Nat) (a4 : Nat) (hp : 0x800016010 ||| p = p) (h : Fr p s x) : Fr p s (State.canRead1 x a1 a2 a3 a4).2.2 := by
  unfold State.canRead1
  with_reducible
    repeat' first
      | assumption | exact Fr.up (by decide) hp | apply State.readSegment_parts | refine Fr.ite ?_ ?_
      | refine Fr.ite_snd ?_ ?_ | refine Fr.ite_trd ?_ ?_ | lift_lets
      | (intro y; refine Fr.cut p s y ?_ (fun hy => ?_); (on_goal 1 => subst y); (on_goal 2 => clear_value y)) | intro y | split
      | (refine Fr.snd_of ?_ (by assumption)) | (refine Fr.trd_of ?_ (by assumption))

theorem State.canReadN_parts {p : Nat} {s x : State} (a1 : Bool) (a2 : List Byte) (ofs n : Nat) (hp : 0x800016010 ||| p = p) (h : Fr p s x) :
    Fr p s (x.canReadN a1 a2 ofs n).2 := by
  induction n generalizing x ofs with
  | zero => exact h
  | succ n ih =>
    unfold State.canReadN
    have h1 := State.canRead1_parts a1 a2 0x83 ofs (Fr.up rfl hp) h
    split
    rename_i last f y e
    have hy : Fr p s y := Fr.trd_of h1 e
    exact Fr.ite_snd hy (ih _ hy)

theorem State.abandonOwn_parts {p : Nat} {s x : State} (a1 : Master) (a2 : Nat) (hp : 0x808002010 ||| p = p) (h : Fr p s x) : Fr p s (State.abandonOwn x a1 a2) := by
  unfold State.abandonOwn
  with_reducible
    repeat' first
      | assumption | exact Fr.up (by decide) hp | apply State.dropTransfer_parts | refine Fr.ite ?_ ?_
      | split

theorem State.canWrite1_parts {p : Nat} {s x : State} (a1 : Bool) (a2 : Bool) (a3 : List Byte) (hp : 0xfff85ffdf8 ||| p = p) (h : Fr p s x) : Fr p s (State.canWrite1 x a1 a2 a3).2 := by
  unfold State.canWrite1
  with_reducible
    repeat' first
      | assumption | exact Fr.up (by decide) hp | apply State.abandonOwn_parts
      | apply State.writeWhole_parts | apply State.writeSegment_parts | refine Fr.ite ?_ ?_ | refine Fr.ite_snd ?_ ?_
      | refine Fr.ite_trd ?_ ?_ | lift_lets
      | (intro y; refine Fr.cut p s y ?_ (fun hy => ?_); (on_goal 1 => subst y); (on_goal 2 => clear_value y)) | intro y | split
      | (refine Fr.snd_of ?_ (by assumption)) | (refine Fr.trd_of ?_ (by assumption))

theorem State.canBad_parts {p : Nat} {s x : State} (a1 : Bool) (a2 : List Byte) (hp : 0x1000000000 ||| p = p) (h : Fr p s x) : Fr p s (State.canBad x a1 a2) := by
  unfold State.canBad
  with_reducible
    repeat' first
      | assumption | exact Fr.up (by decide) hp | apply State.canAnswer_parts | lift_lets
      | (intro y; refine Fr.cut p s y ?_ (fun hy => ?_); (on_goal 1 => subst y); (on_goal 2 => clear_value y)) | intro y

theorem State.canReadOp_parts {p : Nat} {s x : State} (a1 : Bool) (a2 : List Byte) (hp : 0x1800016010 ||| p = p) (h : Fr p s x) : Fr p s (State.canReadOp x a1 a2) := by
  unfold State.canReadOp
  with_reducible
    repeat' first
      | assumption | exact Fr.up (by decide) hp | apply State.canRead1_parts
      | apply State.canAnswer_parts | lift_lets
      | (intro y; refine Fr.cut p s y ?_ (fun hy => ?_); (on_goal 1 => subst y); (on_goal 2 => clear_value y)) | intro y | split
      | (refine Fr.snd_of ?_ (by assumption)) | (refine Fr.trd_of ?_ (by assumption))

theorem State.canReadBlockOp_parts {p : Nat} {s x : State} (a1 : Bool) (a2 : List Byte) (hp : 0x1800016010 ||| p = p) (h : Fr p s x) : Fr p s (State.canReadBlockOp x a1 a2) := by
  unfold State.canReadBlockOp
  with_reducible
    repeat' first
      | assumption | exact Fr.up (by decide) hp | apply State.canBad_parts | apply State.canReadN_parts
      | apply State.canAnswer_parts | refine Fr.ite ?_ ?_ | refine Fr.ite_snd ?_ ?_ | refine Fr.ite_trd ?_ ?_ | lift_lets
      | (intro y; refine Fr.cut p s y ?_ (fun hy => ?_); (on_goal 1 => subst y); (on_goal 2 => clear_value y)) | intro y | split
      | (refine Fr.snd_of ?_ (by assumption)) | (refine Fr.trd_of ?_ (by assumption))

theorem State.canWriteOp_parts {p : Nat} {s x : State} (a1 : Bool) (a2 : List Byte) (hp : 0xfff85ffdf8 ||| p = p) (h : Fr p s x) : Fr p s (State.canWriteOp x a1 a2) := by
  unfold State.canWriteOp
  with_reducible
    repeat' first
      | assumption | exact Fr.up (by decide) hp | apply State.canWrite1_parts
      | apply State.canAnswerSlow_parts | lift_lets
      | (intro y; refine Fr.cut p s y ?_ (fun hy => ?_); (on_goal 1 => subst y); (on_goal 2 => clear_value y)) | intro y | split
      | (refine Fr.snd_of ?_ (by assumption)) | (refine Fr.trd_of ?_ (by assumption))

theorem State.canWriteBlockOp_parts {p : Nat} {s x : State} (a1 : Bool) (a2 : List Byte) (hp : 0xfff85ffdf8 ||| p = p) (h : Fr p s x) : Fr p s (State.canWriteBlockOp x a1 a2) := by
  unfold State.canWriteBlockOp
  with_reducible
    repeat' first
      | assumption | exact Fr.up (by decide) hp | apply State.canBad_parts
      | apply State.canWrite1_parts | apply State.canAnswerSlow_parts | apply State.modCan_parts | refine Fr.ite ?_ ?_
      | refine Fr.ite_snd ?_ ?_ | refine Fr.ite_trd ?_ ?_ | lift_lets
      | (intro y; refine Fr.cut p s y ?_ (fun hy => ?_); (on_goal 1 => subst y); (on_goal 2 => clear_value y)) | intro y | split
      | (refine Fr.snd_of ?_ (by assumption)) | (refine Fr.trd_of ?_ (by assumption))

theorem State.canSeedOp_parts {p : Nat} {s x : State} (a1 : Bool) (a2 : List Byte) (hp : 0x9000000008 ||| p = p) (h : Fr p s x) : Fr p s (State.canSeedOp x a1 a2) := by
  unfold State.canSeedOp
  with_reducible
    repeat' first
      | assumption | exact Fr.up (by decide) hp | apply State.canAnswer_parts
      | apply State.secSeed_parts | refine Fr.ite ?_ ?_ | refine Fr.ite_snd ?_ ?_ | refine Fr.ite_trd ?_ ?_ | lift_lets
      | (intro y; refine Fr.cut p s y ?_ (fun hy => ?_); (on_goal 1 => subst y); (on_goal 2 => clear_value y)) | intro y | split
      | (refine Fr.snd_of ?_ (by assumption)) | (refine Fr.trd_of ?_ (by assumption))

theorem State.canKeyOp_parts {p : Nat} {s x : State} (a1 : Bool) (a2 : List Byte) (hp : 0x9000002110 ||| p = p) (h : Fr p s x) : Fr p s (State.canKeyOp x a1 a2) := by
  unfold State.canKeyOp
  with_reducible
    repeat' first
      | assumption | exact Fr.up (by decide) hp | apply State.canAnswer_parts
      | apply State.secKey_parts | refine Fr.ite ?_ ?_ | refine Fr.ite_snd ?_ ?_ | refine Fr.ite_trd ?_ ?_ | lift_lets
      | (intro y; refine Fr.cut p s y ?_ (fun hy => ?_); (on_goal 1 => subst y); (on_goal 2 => clear_value y)) | intro y | split
      | (refine Fr.snd_of ?_ (by assumption)) | (refine Fr.trd_of ?_ (by assumption))

theorem State.testerSeen_parts {p : Nat} {s x : State} (a1 : Bool) (hp : 0x8808002010 ||| p = p) (h : Fr p s x) : Fr p s (State.testerSeen x a1) := by
  unfold State.testerSeen
  with_reducible
    repeat' first
      | assumption | exact Fr.up (by decide) hp | apply State.sessionChange_parts | refine Fr.ite ?_ ?_

theorem State.canRequest_parts {p : Nat} {s x : State} (a1 : Bool) (a2 : Bool) (a3 : Nat) (a4 : List Byte) (a5 : State → State) (hf : ∀ y, Fr p s y → Fr p s (a5 y)) (hp : 0x9808002010 ||| p = p) (h : Fr p s x) : Fr p s (State.canRequest x a1 a2 a3 a4 a5) := by
  unfold State.canRequest
  with_reducible
    repeat' first
      | assumption | exact Fr.up (by decide) hp | apply State.testerSeen_parts
      | apply State.canBad_parts | apply State.canLater_parts | apply State.canStat_parts | apply State.canQueue_parts
      | apply State.modCan_parts | apply hf | refine Fr.ite ?_ ?_ | lift_lets
      | (intro y; refine Fr.cut p s y ?_ (fun hy => ?_); (on_goal 1 => subst y); (on_goal 2 => clear_value y)) | intro y | split

theorem execCanRead_parts {s t : State} (a0 : Bool) (a1 : Bool) (a2 : List Byte) (h : execCanRead a0 a1 a2 s = .next t) : Fr 0x9808016010 s t := by
  unfold execCanRead at h
  cases h
  have h := Fr.refl 0x9808016010 s
  have hp : 0x9808016010 ||| 0x9808016010 = 0x9808016010 := rfl
  with_reducible
    repeat' first
      | assumption | exact Fr.up (by decide) hp | apply State.canRequest_parts
      | apply State.canReadOp_parts | refine fun y hy => ?_

theorem execCanWrite_parts {s t : State} (a0 : Bool) (a1 : Bool) (a2 : List Byte) (h : execCanWrite a0 a1 a2 s = .next t) : Fr 0xfff85ffdf8 s t := by
  unfold execCanWrite at h
  cases h
  have h := Fr.refl 0xfff85ffdf8 s
  have hp : 0xfff85ffdf8 ||| 0xfff85ffdf8 = 0xfff85ffdf8 := rfl
  with_reducible
    repeat' first
      | assumption | exact Fr.up (by decide) hp | apply State.canRequest_parts
      | apply State.canWriteOp_parts | apply State.logged_parts | refine fun y hy => ?_

theorem execReadBlock_parts {s t : State} (a0 : Bool) (a1 : Bool) (a2 : List Byte) (h : execReadBlock a0 a1 a2 s = .next t) : Fr 0x9808016010 s t := by
  unfold execReadBlock at h
  cases h
  have h := Fr.refl 0x9808016010 s
  have hp : 0x9808016010 ||| 0x9808016010 = 0x9808016010 := rfl
  with_reducible
    repeat' first
      | assumption | exact Fr.up (by decide) hp | apply State.canRequest_parts
      | apply State.canReadBlockOp_parts | refine fun y hy => ?_

theorem execWriteBlock_parts {s t : State} (a0 : Bool) (a1 : Bool) (a2 : List Byte) (h : execWriteBlock a0 a1 a2 s = .next t) : Fr 0xfff85ffdf8 s t := by
  unfold execWriteBlock at h
  cases h
  have h := Fr.refl 0xfff85ffdf8 s
  have hp : 0xfff85ffdf8 ||| 0xfff85ffdf8 = 0xfff85ffdf8 := rfl
  with_reducible
    repeat' first
      | assumption | exact Fr.up (by decide) hp | apply State.canRequest_parts
      | apply State.canWriteBlockOp_parts | apply State.logged_parts | refine fun y hy => ?_

theorem execSeed_parts {s t : State} (a0 : Bool) (a1 : Bool) (a2 : List Byte) (h : execSeed a0 a1 a2 s = .next t) : Fr 0x9808002018 s t := by
  unfold execSeed at h
  cases h
  have h := Fr.refl 0x9808002018 s
  have hp : 0x9808002018 ||| 0x9808002018 = 0x9808002018 := rfl
  with_reducible
    repeat' first
      | assumption | exact Fr.up (by decide) hp | apply State.canRequest_parts
      | apply State.canSeedOp_parts | refine fun y hy => ?_

theorem execKey_parts {s t : State} (a0 : Bool) (a1 : Bool) (a2 : List Byte) (h : execKey a0 a1 a2 s = .next t) : Fr 0x9808002110 s t := by
  unfold execKey at h
  cases h
  have h := Fr.refl 0x9808002110 s
  have hp : 0x9808002110 ||| 0x9808002110 = 0x9808002110 := rfl
  with_reducible
    repeat' first
      | assumption | exact Fr.up (by decide) hp | apply State.canRequest_parts
      | apply State.canKeyOp_parts | refine fun y hy => ?_

theorem execSegmentGapTimeout_parts {s t : State} (a0 : Master) (a1 : Nat) (h : execSegmentGapTimeout a0 a1 s = .next t) : Fr 0x1808002010 s t := by
  unfold execSegmentGapTimeout at h
  cases h
  have h := Fr.refl 0x1808002010 s
  have hp : 0x1808002010 ||| 0x1808002010 = 0x1808002010 := rfl
  with_reducible
    repeat' first
      | assumption | exact Fr.up (by decide) hp | apply State.abandonOwn_parts
      | apply State.modCan_parts | refine Fr.ite ?_ ?_ | lift_lets
      | (intro y; refine Fr.cut _ s y ?_ (fun hy => ?_); (on_goal 1 => subst y); (on_goal 2 => clear_value y)) | intro y

theorem State.notify_parts {p : Nat} {s x : State} (hp : 0x3000000000 ||| p = p) (h : Fr p s x) : Fr p s (State.notify x) := by
  unfold State.notify
  with_reducible
    repeat' first
      | assumption | exact Fr.up (by decide) hp | apply State.canQueue_parts | refine Fr.ite ?_ ?_
      | lift_lets | (intro y; refine Fr.cut p s y ?_ (fun hy => ?_); (on_goal 1 => subst y); (on_goal 2 => clear_value y)) | intro y
      | apply Fr.mk_note

theorem execCanNotify_parts {s t : State} (a0 : Bool) (h : execCanNotify a0 s = .next t) : Fr 0x3000000000 s t := by
  unfold execCanNotify at h
  cases h
  have h := Fr.refl 0x3000000000 s
  have hp : 0x3000000000 ||| 0x3000000000 = 0x3000000000 := rfl
  with_reducible
    repeat' first
      | assumption | exact Fr.up (by decide) hp | apply State.notify_parts | refine Fr.ite ?_ ?_
      | lift_lets | (intro y; refine Fr.cut _ s y ?_ (fun hy => ?_); (on_goal 1 => subst y); (on_goal 2 => clear_value y)) | intro y
      | apply Fr.mk_note

theorem execCanApply_parts {s t : State} (a0 : Master) (a1 : Nat) (h : execCanApply a0 a1 s = .next t) : Fr 0xfff85ffdf8 s t := by
  unfold execCanApply at h
  cases h
  have h := Fr.refl 0xfff85ffdf8 s
  have hp : 0xfff85ffdf8 ||| 0xfff85ffdf8 = 0xfff85ffdf8 := rfl
  with_reducible
    repeat' first
      | assumption | exact Fr.up (by decide) hp | apply State.asked_parts | apply State.writeKey_parts
      | apply State.logged_parts | refine fun y hy => ?_ | split | (refine Fr.snd_of ?_ (by assumption))
      | (refine Fr.trd_of ?_ (by assumption))

theorem execTxTimeout_parts {s t : State} (a0 : CanBus) (h : execTxTimeout a0 s = .next t) : Fr 0x1000002010 s t := by
  unfold execTxTimeout at h
  cases h
  have h := Fr.refl 0x1000002010 s
  have hp : 0x1000002010 ||| 0x1000002010 = 0x1000002010 := rfl
  with_reducible
    repeat' first
      | assumption | exact Fr.up (by decide) hp | apply State.modCan_parts | apply State.raise_parts
      | refine Fr.ite ?_ ?_ | split

theorem State.busOff_parts {p : Nat} {s x : State} (a1 : CanBus) (hp : 0x1000002010 ||| p = p) (h : Fr p s x) : Fr p s (State.busOff x a1) := by
  unfold State.busOff
  with_reducible
    repeat' first
      | assumption | exact Fr.up (by decide) hp | apply State.canStat_parts
      | apply State.setCanState_parts | apply State.modCan_parts | apply State.raiseC_parts | apply State.set_parts | refine Fr.ite ?_ ?_
      | lift_lets | (intro y; refine Fr.cut p s y ?_ (fun hy => ?_); (on_goal 1 => subst y); (on_goal 2 => clear_value y)) | intro y

theorem execBusOff_parts {s t : State} (a0 : CanBus) (h : execBusOff a0 s = .next t) : Fr 0x1000002010 s t := by
  unfold execBusOff at h
  cases h
  have h := Fr.refl 0x1000002010 s
  have hp : 0x1000002010 ||| 0x1000002010 = 0x1000002010 := rfl
  with_reducible
    repeat' first
      | assumption | exact Fr.up (by decide) hp | apply State.busOff_parts

theorem execBusOffRecovery_parts {s t : State} (a0 : CanBus) (h : execBusOffRecovery a0 s = .next t) : Fr 0x2010 s t := by
  unfold execBusOffRecovery at h
  cases h
  have h := Fr.refl 0x2010 s
  have hp : 0x2010 ||| 0x2010 = 0x2010 := rfl
  with_reducible
    repeat' first
      | assumption | exact Fr.up (by decide) hp | apply State.setCanState_parts
      | apply State.clearK_parts | apply State.set_parts | refine Fr.ite ?_ ?_

theorem execErrorPassive_parts {s t : State} (a0 : CanBus) (a1 : Nat) (a2 : Nat) (h : execErrorPassive a0 a1 a2 s = .next t) : Fr 0x1000002010 s t := by
  unfold execErrorPassive at h
  cases h
  have h := Fr.refl 0x1000002010 s
  have hp : 0x1000002010 ||| 0x1000002010 = 0x1000002010 := rfl
  with_reducible
    repeat' first
      | assumption | exact Fr.up (by decide) hp | apply State.busOff_parts
      | apply State.setCanState_parts | apply State.clearK_parts | apply State.raise1_parts | apply State.set_parts | refine Fr.ite ?_ ?_
      | lift_lets | (intro y; refine Fr.cut _ s y ?_ (fun hy => ?_); (on_goal 1 => subst y); (on_goal 2 => clear_value y)) | intro y

theorem execRxOverrun_parts {s t : State} (a0 : CanBus) (a1 : Nat) (h : execRxOverrun a0 a1 s = .next t) : Fr 0x1000002010 s t := by
  unfold execRxOverrun at h
  cases h
  have h := Fr.refl 0x1000002010 s
  have hp : 0x1000002010 ||| 0x1000002010 = 0x1000002010 := rfl
  with_reducible
    repeat' first
      | assumption | exact Fr.up (by decide) hp | apply State.modCan_parts | apply State.raise_parts
      | refine Fr.ite ?_ ?_ | lift_lets
      | (intro y; refine Fr.cut _ s y ?_ (fun hy => ?_); (on_goal 1 => subst y); (on_goal 2 => clear_value y)) | intro y

theorem execTesterSessionTimeout_parts {s t : State} (h : execTesterSessionTimeout s = .next t) : Fr 0xb9f84dbdf0 s t := by
  unfold execTesterSessionTimeout at h
  cases h
  have h := Fr.refl 0xb9f84dbdf0 s
  have hp : 0xb9f84dbdf0 ||| 0xb9f84dbdf0 = 0xb9f84dbdf0 := rfl
  with_reducible
    repeat' first
      | assumption | exact Fr.up (by decide) hp | apply State.resolve_parts
      | apply State.sessionDefault_parts | apply State.logged_parts | refine Fr.ite ?_ ?_ | refine fun y hy => ?_

end Sys2Proof.Machine
end

