-- ==== Sys2Proof/Laws/PartsLinBus.lean ====
section
/-!
SUPPORT. PartsLinBus.lean: the footprint of every operation of Machine/LinBus.lean.
-/
set_option linter.unusedTactic false
set_option linter.unreachableTactic false
set_option linter.unusedVariables false
namespace Sys2Proof.Machine

theorem State.linStat_parts {p : Nat} {s x : State} (a1 : Nat) (hp : 0x10 ||| p = p) (h : Fr p s x) : Fr p s (State.linStat x a1) := by
  unfold State.linStat
  with_reducible
    repeat' first
      | assumption | exact Fr.up (by decide) hp | apply State.tally_parts

theorem State.linActive_parts {p : Nat} {s x : State} (hp : 0x4000000000 ||| p = p) (h : Fr p s x) : Fr p s (State.linActive x) := by
  unfold State.linActive
  with_reducible
    repeat' first
      | assumption | exact Fr.up (by decide) hp | lift_lets
      | (intro y; refine Fr.cut p s y ?_ (fun hy => ?_); (on_goal 1 => subst y); (on_goal 2 => clear_value y)) | intro y | apply Fr.mk_lin

theorem State.linRaise_parts {p : Nat} {s x : State} (a1 : Nat) (a2 : Nat) (hp : 0x2010 ||| p = p) (h : Fr p s x) : Fr p s (State.linRaise x a1 a2) := by
  unfold State.linRaise
  with_reducible
    repeat' first
      | assumption | exact Fr.up (by decide) hp | apply State.raise_parts | refine Fr.ite ?_ ?_

theorem State.linHeader_parts {p : Nat} {s x : State} (a1 : Bool) (a2 : State → State) (hf : ∀ y, Fr p s y → Fr p s (a2 y)) (hp : 0x4000002010 ||| p = p) (h : Fr p s x) : Fr p s (State.linHeader x a1 a2) := by
  unfold State.linHeader
  with_reducible
    repeat' first
      | assumption | exact Fr.up (by decide) hp | apply State.linRaise_parts
      | apply State.linActive_parts | apply State.linStat_parts | apply hf | refine Fr.ite ?_ ?_ | lift_lets
      | (intro y; refine Fr.cut p s y ?_ (fun hy => ?_); (on_goal 1 => subst y); (on_goal 2 => clear_value y)) | intro y

theorem State.linRole_parts {p : Nat} {s x : State} (a1 : Bool) (a2 : Nat) (f : Nat → State → State) (hf : ∀ n y, Fr p s y → Fr p s (f n y)) (hp : 0x4000002010 ||| p = p)
    (h : Fr p s x) : Fr p s (x.linRole a1 a2 f) := by
  unfold State.linRole
  refine State.linHeader_parts _ _ (fun y hy => ?_) (Fr.up rfl hp) h
  exact Fr.ite hy (hf _ y hy)

theorem State.linSum_parts {p : Nat} {s x : State} (a1 : Nat) (hp : 0x4000002010 ||| p = p) (h : Fr p s x) : Fr p s (State.linSum x a1) := by
  unfold State.linSum
  with_reducible
    repeat' first
      | assumption | exact Fr.up (by decide) hp | apply State.raise_parts | refine Fr.ite ?_ ?_
      | lift_lets | (intro y; refine Fr.cut p s y ?_ (fun hy => ?_); (on_goal 1 => subst y); (on_goal 2 => clear_value y)) | intro y
      | apply Fr.mk_lin

theorem State.linFrame_parts {p : Nat} {s x : State} (a1 : Nat) (a2 : Bool) (a3 : State → State) (hf : ∀ y, Fr p s y → Fr p s (a3 y)) (hp : 0x4000002010 ||| p = p) (h : Fr p s x) : Fr p s (State.linFrame x a1 a2 a3) := by
  unfold State.linFrame
  with_reducible
    repeat' first
      | assumption | exact Fr.up (by decide) hp | apply State.linSum_parts | apply State.linStat_parts
      | apply hf | refine Fr.ite ?_ ?_ | lift_lets
      | (intro y; refine Fr.cut p s y ?_ (fun hy => ?_); (on_goal 1 => subst y); (on_goal 2 => clear_value y)) | intro y | apply Fr.mk_lin

theorem State.linPublish_parts {p : Nat} {s x : State} (a1 : List Byte) (a2 : Bool) (hp : 0x4000000000 ||| p = p) (h : Fr p s x) : Fr p s (State.linPublish x a1 a2) := by
  unfold State.linPublish
  with_reducible
    repeat' first
      | assumption | exact Fr.up (by decide) hp | refine Fr.ite ?_ ?_ | lift_lets
      | (intro y; refine Fr.cut p s y ?_ (fun hy => ?_); (on_goal 1 => subst y); (on_goal 2 => clear_value y)) | intro y | apply Fr.mk_lin

theorem State.linByte_parts {p : Nat} {s x : State} (a1 : Nat) (a2 : Nat) (hp : 0xfff85ffdf8 ||| p = p) (h : Fr p s x) : Fr p s (State.linByte x a1 a2) := by
  unfold State.linByte
  with_reducible
    repeat' first
      | assumption | exact Fr.up (by decide) hp | apply State.linStat_parts
      | apply State.writeKey_parts | refine Fr.ite ?_ ?_ | refine Fr.ite_snd ?_ ?_ | refine Fr.ite_trd ?_ ?_ | lift_lets
      | (intro y; refine Fr.cut p s y ?_ (fun hy => ?_); (on_goal 1 => subst y); (on_goal 2 => clear_value y)) | intro y | split
      | (refine Fr.snd_of ?_ (by assumption)) | (refine Fr.trd_of ?_ (by assumption))

theorem State.linCommand_parts {p : Nat} {s x : State} (a1 : List Byte) (hp : 0xfff85ffdf8 ||| p = p) (h : Fr p s x) : Fr p s (State.linCommand x a1) := by
  unfold State.linCommand
  with_reducible
    repeat' first
      | assumption | exact Fr.up (by decide) hp | apply State.linByte_parts | refine Fr.ite ?_ ?_
      | lift_lets | (intro y; refine Fr.cut p s y ?_ (fun hy => ?_); (on_goal 1 => subst y); (on_goal 2 => clear_value y)) | intro y

theorem execLinCommand_parts {s t : State} (a0 : List Byte) (a1 : Bool) (a2 : Bool) (h : execLinCommand a0 a1 a2 s = .next t) : Fr 0xfff85ffdf8 s t := by
  unfold execLinCommand at h
  cases h
  have h := Fr.refl 0xfff85ffdf8 s
  have hp : 0xfff85ffdf8 ||| 0xfff85ffdf8 = 0xfff85ffdf8 := rfl
  with_reducible
    repeat' first
      | assumption | exact Fr.up (by decide) hp | apply State.linCommand_parts
      | apply State.linFrame_parts | apply State.linRole_parts | apply State.logged_parts | refine fun y hy => ?_

theorem execLinStatus_parts {s t : State} (a0 : Bool) (a1 : Bool) (h : execLinStatus a0 a1 s = .next t) : Fr 0x4000002010 s t := by
  unfold execLinStatus at h
  cases h
  have h := Fr.refl 0x4000002010 s
  have hp : 0x4000002010 ||| 0x4000002010 = 0x4000002010 := rfl
  with_reducible
    repeat' first
      | assumption | exact Fr.up (by decide) hp | apply State.linPublish_parts
      | apply State.linRole_parts | refine Fr.ite ?_ ?_ | refine fun y hy => ?_ | lift_lets
      | (intro y; refine Fr.cut _ s y ?_ (fun hy => ?_); (on_goal 1 => subst y); (on_goal 2 => clear_value y)) | intro y | apply Fr.mk_lin

theorem State.linRead_parts {p : Nat} {s x : State} (a1 : List Byte) (hp : 0x4800016010 ||| p = p) (h : Fr p s x) : Fr p s (State.linRead x a1) := by
  unfold State.linRead
  with_reducible
    repeat' first
      | assumption | exact Fr.up (by decide) hp | apply State.readKey_parts
      | apply State.answerWith_parts | refine Fr.ite ?_ ?_ | refine Fr.ite_snd ?_ ?_ | refine Fr.ite_trd ?_ ?_ | lift_lets
      | (intro y; refine Fr.cut p s y ?_ (fun hy => ?_); (on_goal 1 => subst y); (on_goal 2 => clear_value y)) | intro y | split
      | (refine Fr.snd_of ?_ (by assumption)) | (refine Fr.trd_of ?_ (by assumption)) | apply Fr.mk_lin

theorem State.linWrite_parts {p : Nat} {s x : State} (a1 : List Byte) (hp : 0xfff85ffdf8 ||| p = p) (h : Fr p s x) : Fr p s (State.linWrite x a1) := by
  unfold State.linWrite
  with_reducible
    repeat' first
      | assumption | exact Fr.up (by decide) hp | apply State.writeKey_parts
      | apply State.answerWith_parts | refine Fr.ite ?_ ?_ | refine Fr.ite_snd ?_ ?_ | refine Fr.ite_trd ?_ ?_ | lift_lets
      | (intro y; refine Fr.cut p s y ?_ (fun hy => ?_); (on_goal 1 => subst y); (on_goal 2 => clear_value y)) | intro y | split
      | (refine Fr.snd_of ?_ (by assumption)) | (refine Fr.trd_of ?_ (by assumption)) | apply Fr.mk_lin

theorem State.linAccess_parts {p : Nat} {s x : State} (a1 : List Byte) (hp : 0xfff85ffdf8 ||| p = p) (h : Fr p s x) : Fr p s (State.linAccess x a1) := by
  unfold State.linAccess
  with_reducible
    repeat' first
      | assumption | exact Fr.up (by decide) hp | apply State.linWrite_parts
      | apply State.linRead_parts | refine Fr.ite ?_ ?_ | lift_lets
      | (intro y; refine Fr.cut p s y ?_ (fun hy => ?_); (on_goal 1 => subst y); (on_goal 2 => clear_value y)) | intro y | apply Fr.mk_lin

theorem execObjReq_parts {s t : State} (a0 : List Byte) (a1 : Bool) (a2 : Bool) (h : execObjReq a0 a1 a2 s = .next t) : Fr 0xfff85ffdf8 s t := by
  unfold execObjReq at h
  cases h
  have h := Fr.refl 0xfff85ffdf8 s
  have hp : 0xfff85ffdf8 ||| 0xfff85ffdf8 = 0xfff85ffdf8 := rfl
  with_reducible
    repeat' first
      | assumption | exact Fr.up (by decide) hp | apply State.linAccess_parts
      | apply State.linFrame_parts | apply State.linRole_parts | apply State.logged_parts | refine fun y hy => ?_

theorem State.linOrphan_parts {p : Nat} {s x : State} (a1 : List Byte) (hp : 0x4800016010 ||| p = p) (h : Fr p s x) : Fr p s (State.linOrphan x a1) := by
  unfold State.linOrphan
  with_reducible
    repeat' first
      | assumption | exact Fr.up (by decide) hp | apply State.linRead_parts | refine Fr.ite ?_ ?_
      | lift_lets | (intro y; refine Fr.cut p s y ?_ (fun hy => ?_); (on_goal 1 => subst y); (on_goal 2 => clear_value y)) | intro y
      | apply Fr.mk_lin

theorem State.linUnheld_parts {p : Nat} {s x : State} (hp : 0x4800016010 ||| p = p) (h : Fr p s x) : Fr p s (State.linUnheld x) := by
  unfold State.linUnheld
  with_reducible
    repeat' first
      | assumption | exact Fr.up (by decide) hp | apply State.linOrphan_parts | refine Fr.ite ?_ ?_
      | lift_lets | (intro y; refine Fr.cut p s y ?_ (fun hy => ?_); (on_goal 1 => subst y); (on_goal 2 => clear_value y)) | intro y
      | split | apply Fr.mk_lin

theorem execObjRsp_parts {s t : State} (a0 a1 : Bool) (h : execObjRsp a0 a1 s = .next t) : Fr 0x4800016010 s t := by
  unfold execObjRsp at h
  cases h
  refine State.linRole_parts _ _ _ (fun _ y hy => ?_) rfl (Fr.refl _ s)
  have hu := State.linUnheld_parts rfl hy
  generalize y.linUnheld = z at hu
  show Fr _ s (match z.lin.rsp with | none => z | some b => z.linPublish b a1)
  split
  · exact hu
  · exact State.linPublish_parts _ _ rfl hu

theorem State.linSet_parts {p : Nat} {s x : State} (a1 : Nat) (a2 : Nat) (a3 : Lin → Lin) (hp : 0xfff85ffdf8 ||| p = p) (h : Fr p s x) : Fr p s (State.linSet x a1 a2 a3).2 := by
  unfold State.linSet
  with_reducible
    repeat' first
      | assumption | exact Fr.up (by decide) hp | apply State.writeKey_parts | refine Fr.ite ?_ ?_
      | refine Fr.ite_snd ?_ ?_ | refine Fr.ite_trd ?_ ?_ | lift_lets
      | (intro y; refine Fr.cut p s y ?_ (fun hy => ?_); (on_goal 1 => subst y); (on_goal 2 => clear_value y)) | intro y | split
      | (refine Fr.snd_of ?_ (by assumption)) | (refine Fr.trd_of ?_ (by assumption)) | apply Fr.mk_lin

theorem State.linReply_parts {p : Nat} {s x : State} (a1 : Nat) (a2 : List Byte) (hp : 0x4000000000 ||| p = p) (h : Fr p s x) : Fr p s (State.linReply x a1 a2) := by
  unfold State.linReply
  with_reducible
    repeat' first
      | assumption | exact Fr.up (by decide) hp | lift_lets
      | (intro y; refine Fr.cut p s y ?_ (fun hy => ?_); (on_goal 1 => subst y); (on_goal 2 => clear_value y)) | intro y | apply Fr.mk_lin

theorem State.assignNad_parts {p : Nat} {s x : State} (a1 : List Byte) (hp : 0xfff85ffdf8 ||| p = p) (h : Fr p s x) : Fr p s (State.assignNad x a1) := by
  unfold State.assignNad
  with_reducible
    repeat' first
      | assumption | exact Fr.up (by decide) hp | apply State.linReply_parts | apply State.linSet_parts
      | refine Fr.ite ?_ ?_ | refine Fr.ite_snd ?_ ?_ | refine Fr.ite_trd ?_ ?_ | lift_lets
      | (intro y; refine Fr.cut p s y ?_ (fun hy => ?_); (on_goal 1 => subst y); (on_goal 2 => clear_value y)) | intro y | split
      | (refine Fr.snd_of ?_ (by assumption)) | (refine Fr.trd_of ?_ (by assumption))

theorem State.linNegative_parts {p : Nat} {s x : State} (a1 : List Byte) (hp : 0x4000000000 ||| p = p) (h : Fr p s x) : Fr p s (State.linNegative x a1) := by
  unfold State.linNegative
  with_reducible
    repeat' first
      | assumption | exact Fr.up (by decide) hp | apply State.linReply_parts

theorem State.linReadId_parts {p : Nat} {s x : State} (a1 : List Byte) (hp : 0x4000000000 ||| p = p) (h : Fr p s x) : Fr p s (State.linReadId x a1) := by
  unfold State.linReadId
  with_reducible
    repeat' first
      | assumption | exact Fr.up (by decide) hp | apply State.linNegative_parts
      | apply State.linReply_parts | refine Fr.ite ?_ ?_ | split

theorem State.linSave_parts {p : Nat} {s x : State} (hp : 0x4000010010 ||| p = p) (h : Fr p s x) : Fr p s (State.linSave x) := by
  unfold State.linSave
  with_reducible
    repeat' first
      | assumption | exact Fr.up (by decide) hp | apply State.linReply_parts
      | apply State.commitStart_parts | refine Fr.ite ?_ ?_

theorem State.assignPids_parts {p : Nat} {s x : State} (b : List Byte) (hp : 0xfff85ffdf8 ||| p = p) (h : Fr p s x) : Fr p s (x.assignPids b) := by
  unfold State.assignPids
  refine Fr.ite h ?_
  have key : ∀ (l : List (Nat × Nat)) (q : Nat × State), Fr p s q.2 →
      Fr p s (l.foldl (fun (a : Nat × State) x =>
        let w := a.2.linSet (Obj.LIN_PID (x.1 + 1)) (x.2 % 64) fun l => { l with pid := l.pid.set x.1 (x.2 % 64) }
        (max a.1 w.1, w.2)) q).2 := by
    intro l
    induction l with
    | nil => exact fun p hp => hp
    | cons a l ih => exact fun q hq => ih _ (State.linSet_parts _ _ _ (Fr.up rfl hp) hq)
  have hr := key (pidChanges b) (0, x) h
  exact Fr.ite (State.linReply_parts _ _ (Fr.up rfl hp) hr) hr

theorem State.linConfig_parts {p : Nat} {s x : State} (a1 : Nat) (a2 : List Byte) (a3 : Bool) (a4 : Bool) (a5 : State → State) (hf : ∀ y, Fr p s y → Fr p s (a5 y)) (hp : 0x4000002010 ||| p = p) (h : Fr p s x) : Fr p s (State.linConfig x a1 a2 a3 a4 a5) := by
  unfold State.linConfig
  with_reducible
    repeat' first
      | assumption | exact Fr.up (by decide) hp | apply State.linNegative_parts
      | apply State.linFrame_parts | apply State.linHeader_parts | apply hf | refine Fr.ite ?_ ?_ | refine fun y hy => ?_

theorem execAssignNad_parts {s t : State} (a0 : List Byte) (a1 : Bool) (a2 : Bool) (h : execAssignNad a0 a1 a2 s = .next t) : Fr 0xfff85ffdf8 s t := by
  unfold execAssignNad at h
  cases h
  have h := Fr.refl 0xfff85ffdf8 s
  have hp : 0xfff85ffdf8 ||| 0xfff85ffdf8 = 0xfff85ffdf8 := rfl
  with_reducible
    repeat' first
      | assumption | exact Fr.up (by decide) hp | apply State.linConfig_parts
      | apply State.assignNad_parts | apply State.logged_parts | refine fun y hy => ?_

theorem execReadByIdentifier_parts {s t : State} (a0 : List Byte) (a1 : Bool) (a2 : Bool) (h : execReadByIdentifier a0 a1 a2 s = .next t) : Fr 0x4000002010 s t := by
  unfold execReadByIdentifier at h
  cases h
  have h := Fr.refl 0x4000002010 s
  have hp : 0x4000002010 ||| 0x4000002010 = 0x4000002010 := rfl
  with_reducible
    repeat' first
      | assumption | exact Fr.up (by decide) hp | apply State.linConfig_parts
      | apply State.linReadId_parts | refine fun y hy => ?_

theorem execSaveConfiguration_parts {s t : State} (a0 : List Byte) (a1 : Bool) (a2 : Bool) (h : execSaveConfiguration a0 a1 a2 s = .next t) : Fr 0x4000012010 s t := by
  unfold execSaveConfiguration at h
  cases h
  have h := Fr.refl 0x4000012010 s
  have hp : 0x4000012010 ||| 0x4000012010 = 0x4000012010 := rfl
  with_reducible
    repeat' first
      | assumption | exact Fr.up (by decide) hp | apply State.linConfig_parts
      | apply State.linSave_parts | refine fun y hy => ?_

theorem execAssignFrameIdentifierRange_parts {s t : State} (a0 : List Byte) (a1 : Bool) (a2 : Bool) (h : execAssignFrameIdentifierRange a0 a1 a2 s = .next t) : Fr 0xfff85ffdf8 s t := by
  unfold execAssignFrameIdentifierRange at h
  cases h
  have h := Fr.refl 0xfff85ffdf8 s
  have hp : 0xfff85ffdf8 ||| 0xfff85ffdf8 = 0xfff85ffdf8 := rfl
  with_reducible
    repeat' first
      | assumption | exact Fr.up (by decide) hp | apply State.linConfig_parts
      | apply State.assignPids_parts | apply State.logged_parts | refine fun y hy => ?_

theorem execSlaveResponse_parts {s t : State} (a0 : Bool) (a1 : Bool) (h : execSlaveResponse a0 a1 s = .next t) : Fr 0x4000002010 s t := by
  unfold execSlaveResponse at h
  cases h
  have h := Fr.refl 0x4000002010 s
  have hp : 0x4000002010 ||| 0x4000002010 = 0x4000002010 := rfl
  with_reducible
    repeat' first
      | assumption | exact Fr.up (by decide) hp | apply State.linPublish_parts
      | apply State.linHeader_parts | refine Fr.ite ?_ ?_ | refine fun y hy => ?_ | lift_lets
      | (intro y; refine Fr.cut _ s y ?_ (fun hy => ?_); (on_goal 1 => subst y); (on_goal 2 => clear_value y)) | intro y | split
      | apply Fr.mk_lin

theorem State.linSleep_parts {p : Nat} {s x : State} (hp : 0x4000000000 ||| p = p) (h : Fr p s x) : Fr p s (State.linSleep x) := by
  unfold State.linSleep
  with_reducible
    repeat' first
      | assumption | exact Fr.up (by decide) hp | lift_lets
      | (intro y; refine Fr.cut p s y ?_ (fun hy => ?_); (on_goal 1 => subst y); (on_goal 2 => clear_value y)) | intro y | apply Fr.mk_lin

theorem execGoToSleep_parts {s t : State} (a0 : Bool) (a1 : Bool) (h : execGoToSleep a0 a1 s = .next t) : Fr 0x4000002010 s t := by
  unfold execGoToSleep at h
  cases h
  have h := Fr.refl 0x4000002010 s
  have hp : 0x4000002010 ||| 0x4000002010 = 0x4000002010 := rfl
  with_reducible
    repeat' first
      | assumption | exact Fr.up (by decide) hp | apply State.linSleep_parts
      | apply State.linFrame_parts | apply State.linHeader_parts | refine fun y hy => ?_

theorem execLinBusInactivity_parts {s t : State} (h : execLinBusInactivity s = .next t) : Fr 0x4000000000 s t := by
  unfold execLinBusInactivity at h
  cases h
  have h := Fr.refl 0x4000000000 s
  have hp : 0x4000000000 ||| 0x4000000000 = 0x4000000000 := rfl
  with_reducible
    repeat' first
      | assumption | exact Fr.up (by decide) hp | apply State.linSleep_parts | refine Fr.ite ?_ ?_

theorem execLinWake_parts {s t : State} (a0 : Nat) (h : execLinWake a0 s = .next t) : Fr 0x4000000910 s t := by
  unfold execLinWake at h
  cases h
  have h := Fr.refl 0x4000000910 s
  have hp : 0x4000000910 ||| 0x4000000910 = 0x4000000910 := rfl
  with_reducible
    repeat' first
      | assumption | exact Fr.up (by decide) hp | apply State.linActive_parts
      | apply State.wakeEvent_parts | refine Fr.ite ?_ ?_ | lift_lets
      | (intro y; refine Fr.cut _ s y ?_ (fun hy => ?_); (on_goal 1 => subst y); (on_goal 2 => clear_value y)) | intro y

theorem execLinWakeTx_parts {s t : State} (h : execLinWakeTx s = .next t) : Fr 0x4000000000 s t := by
  unfold execLinWakeTx at h
  cases h
  have h := Fr.refl 0x4000000000 s
  have hp : 0x4000000000 ||| 0x4000000000 = 0x4000000000 := rfl
  with_reducible
    repeat' first
      | assumption | exact Fr.up (by decide) hp | refine Fr.ite ?_ ?_ | lift_lets
      | (intro y; refine Fr.cut _ s y ?_ (fun hy => ?_); (on_goal 1 => subst y); (on_goal 2 => clear_value y)) | intro y | apply Fr.mk_lin

theorem execLinBreak_parts {s t : State} (a0 : Bool) (h : execLinBreak a0 s = .next t) : Fr 0x4000002010 s t := by
  unfold execLinBreak at h
  cases h
  have h := Fr.refl 0x4000002010 s
  have hp : 0x4000002010 ||| 0x4000002010 = 0x4000002010 := rfl
  with_reducible
    repeat' first
      | assumption | exact Fr.up (by decide) hp | apply State.linHeader_parts | refine fun y hy => ?_

theorem execLinBusShort_parts {s t : State} (h : execLinBusShort s = .next t) : Fr 0x4000002010 s t := by
  unfold execLinBusShort at h
  cases h
  have h := Fr.refl 0x4000002010 s
  have hp : 0x4000002010 ||| 0x4000002010 = 0x4000002010 := rfl
  with_reducible
    repeat' first
      | assumption | exact Fr.up (by decide) hp | apply State.linShorted_parts | refine Fr.ite ?_ ?_
      | lift_lets | (intro y; refine Fr.cut _ s y ?_ (fun hy => ?_); (on_goal 1 => subst y); (on_goal 2 => clear_value y)) | intro y
      | apply Fr.mk_lin

theorem execLinBusRecessive_parts {s t : State} (h : execLinBusRecessive s = .next t) : Fr 0x4000002010 s t := by
  unfold execLinBusRecessive at h
  cases h
  have h := Fr.refl 0x4000002010 s
  have hp : 0x4000002010 ||| 0x4000002010 = 0x4000002010 := rfl
  with_reducible
    repeat' first
      | assumption | exact Fr.up (by decide) hp | apply State.clearK_parts | lift_lets
      | (intro y; refine Fr.cut _ s y ?_ (fun hy => ?_); (on_goal 1 => subst y); (on_goal 2 => clear_value y)) | intro y | apply Fr.mk_lin

end Sys2Proof.Machine
end

