-- ==== Sys2Proof/Laws/PartsUds.lean ====
section
/-!
SUPPORT. PartsUds.lean: the footprint of every operation of Machine/Uds.lean.
-/
set_option linter.unusedTactic false
set_option linter.unreachableTactic false
set_option linter.unusedVariables false
namespace Sys2Proof.Machine

theorem State.udsDo_parts {p : Nat} {s x : State} (a1 : Bool) (a2 : List Byte) (a3 : List (Bool × Nat)) (a4 : State → State) (hf : ∀ y, Fr p s y → Fr p s (a4 y)) (hp : 0x9000000000 ||| p = p) (h : Fr p s x) : Fr p s (State.udsDo x a1 a2 a3 a4) := by
  unfold State.udsDo
  with_reducible
    repeat' first
      | assumption | exact Fr.up (by decide) hp | apply State.udsNegative_parts | apply hf
      | refine Fr.ite ?_ ?_ | lift_lets
      | (intro y; refine Fr.cut p s y ?_ (fun hy => ?_); (on_goal 1 => subst y); (on_goal 2 => clear_value y)) | intro y

theorem State.goSession_parts {p : Nat} {s x : State} (a1 : Nat) (hp : 0xb9f84dbdf0 ||| p = p) (h : Fr p s x) : Fr p s (State.goSession x a1) := by
  unfold State.goSession
  with_reducible
    repeat' first
      | assumption | exact Fr.up (by decide) hp | apply State.resolve_parts
      | apply State.sessionDefault_parts | apply State.sessionChange_parts | refine Fr.ite ?_ ?_

theorem State.udsSession_parts {p : Nat} {s x : State} (a1 : Bool) (a2 : List Byte) (hp : 0xb9f84dbdf0 ||| p = p) (h : Fr p s x) : Fr p s (State.udsSession x a1 a2) := by
  unfold State.udsSession
  with_reducible
    repeat' first
      | assumption | exact Fr.up (by decide) hp | apply State.goSession_parts | apply State.udsDo_parts
      | apply State.udsPositive_parts | refine fun y hy => ?_ | lift_lets
      | (intro y; refine Fr.cut p s y ?_ (fun hy => ?_); (on_goal 1 => subst y); (on_goal 2 => clear_value y)) | intro y

theorem State.udsReset_parts {p : Nat} {s x : State} (a1 : Bool) (a2 : List Byte) (hp : 0x9000000000 ||| p = p) (h : Fr p s x) : Fr p s (State.udsReset x a1 a2) := by
  unfold State.udsReset
  with_reducible
    repeat' first
      | assumption | exact Fr.up (by decide) hp | apply State.udsDo_parts
      | apply State.udsPositive_parts | apply State.modU_parts | refine Fr.ite ?_ ?_ | refine fun y hy => ?_ | lift_lets
      | (intro y; refine Fr.cut p s y ?_ (fun hy => ?_); (on_goal 1 => subst y); (on_goal 2 => clear_value y)) | intro y

theorem State.udsTester_parts {p : Nat} {s x : State} (a1 : Bool) (a2 : List Byte) (hp : 0x9000000000 ||| p = p) (h : Fr p s x) : Fr p s (State.udsTester x a1 a2) := by
  unfold State.udsTester
  with_reducible
    repeat' first
      | assumption | exact Fr.up (by decide) hp | apply State.udsDo_parts
      | apply State.udsPositive_parts | refine fun y hy => ?_

theorem State.udsSetting_parts {p : Nat} {s x : State} (a1 : Bool) (a2 : List Byte) (hp : 0x9000000010 ||| p = p) (h : Fr p s x) : Fr p s (State.udsSetting x a1 a2) := by
  unfold State.udsSetting
  with_reducible
    repeat' first
      | assumption | exact Fr.up (by decide) hp | apply State.udsDo_parts
      | apply State.udsPositive_parts | apply State.set_parts | refine fun y hy => ?_ | lift_lets
      | (intro y; refine Fr.cut p s y ?_ (fun hy => ?_); (on_goal 1 => subst y); (on_goal 2 => clear_value y)) | intro y

theorem State.udsClear_parts {p : Nat} {s x : State} (a1 : Bool) (a2 : List Byte) (hp : 0x9000010010 ||| p = p) (h : Fr p s x) : Fr p s (State.udsClear x a1 a2) := by
  unfold State.udsClear
  with_reducible
    repeat' first
      | assumption | exact Fr.up (by decide) hp | apply State.udsDo_parts
      | apply State.udsPositive_parts | apply State.dtcClearBy_parts | refine fun y hy => ?_ | lift_lets
      | (intro y; refine Fr.cut p s y ?_ (fun hy => ?_); (on_goal 1 => subst y); (on_goal 2 => clear_value y)) | intro y

theorem State.udsDtc_parts {p : Nat} {s x : State} (a1 : Bool) (a2 : List Byte) (hp : 0x9000000000 ||| p = p) (h : Fr p s x) : Fr p s (State.udsDtc x a1 a2) := by
  unfold State.udsDtc
  with_reducible
    repeat' first
      | assumption | exact Fr.up (by decide) hp | apply State.udsDo_parts
      | apply State.udsPositive_parts | refine fun y hy => ?_ | lift_lets
      | (intro y; refine Fr.cut p s y ?_ (fun hy => ?_); (on_goal 1 => subst y); (on_goal 2 => clear_value y)) | intro y

theorem State.didDomain_parts {p : Nat} {s x : State} (a1 : Nat) (hp : 0x800016010 ||| p = p) (h : Fr p s x) : Fr p s (State.didDomain x a1).2 := by
  unfold State.didDomain
  with_reducible
    repeat' first
      | assumption | exact Fr.up (by decide) hp | apply State.readSegment_parts | apply State.set_parts
      | refine Fr.ite ?_ ?_ | refine Fr.ite_snd ?_ ?_ | refine Fr.ite_trd ?_ ?_ | lift_lets
      | (intro y; refine Fr.cut p s y ?_ (fun hy => ?_); (on_goal 1 => subst y); (on_goal 2 => clear_value y)) | intro y | split
      | (refine Fr.snd_of ?_ (by assumption)) | (refine Fr.trd_of ?_ (by assumption))

theorem State.didData_parts {p : Nat} {s x : State} (a1 : Nat) (hp : 0x800016010 ||| p = p) (h : Fr p s x) : Fr p s (State.didData x a1).2 := by
  unfold State.didData
  with_reducible
    repeat' first
      | assumption | exact Fr.up (by decide) hp | apply State.didDomain_parts
      | apply State.readKey_parts | refine Fr.ite ?_ ?_ | refine Fr.ite_snd ?_ ?_ | refine Fr.ite_trd ?_ ?_ | lift_lets
      | (intro y; refine Fr.cut p s y ?_ (fun hy => ?_); (on_goal 1 => subst y); (on_goal 2 => clear_value y)) | intro y | split
      | (refine Fr.snd_of ?_ (by assumption)) | (refine Fr.trd_of ?_ (by assumption))

theorem State.didAll_parts {p : Nat} {s x : State} (l : List Nat) (hp : 0x800016010 ||| p = p) (h : Fr p s x) : Fr p s (x.didAll l).2 := by
  induction l generalizing x with
  | nil => exact h
  | cons a l ih => exact ih (State.didData_parts a (Fr.up rfl hp) h)

theorem State.didRefuse_parts {p : Nat} {s x : State} (a1 : Nat) (hp : 0x800000010 ||| p = p) (h : Fr p s x) : Fr p s (State.didRefuse x a1) := by
  unfold State.didRefuse
  with_reducible
    repeat' first
      | assumption | exact Fr.up (by decide) hp | apply State.answerWith_parts | refine Fr.ite ?_ ?_
      | lift_lets | (intro y; refine Fr.cut p s y ?_ (fun hy => ?_); (on_goal 1 => subst y); (on_goal 2 => clear_value y)) | intro y

theorem State.udsRead_parts {p : Nat} {s x : State} (a1 : Bool) (a2 : List Byte) (hp : 0x9800016010 ||| p = p) (h : Fr p s x) : Fr p s (State.udsRead x a1 a2) := by
  unfold State.udsRead
  with_reducible
    repeat' first
      | assumption | exact Fr.up (by decide) hp | apply State.didRefuse_parts
      | apply State.didAll_parts | apply State.udsNegative_parts | apply State.udsSend_parts | refine Fr.ite ?_ ?_
      | refine Fr.ite_snd ?_ ?_ | refine Fr.ite_trd ?_ ?_ | lift_lets
      | (intro y; refine Fr.cut p s y ?_ (fun hy => ?_); (on_goal 1 => subst y); (on_goal 2 => clear_value y)) | intro y | split
      | (refine Fr.snd_of ?_ (by assumption)) | (refine Fr.trd_of ?_ (by assumption))

theorem State.udsWrite_parts {p : Nat} {s x : State} (a1 : Bool) (a2 : List Byte) (hp : 0xfff85ffdf8 ||| p = p) (h : Fr p s x) : Fr p s (State.udsWrite x a1 a2) := by
  unfold State.udsWrite
  with_reducible
    repeat' first
      | assumption | exact Fr.up (by decide) hp | apply State.udsDo_parts
      | apply State.writeWhole_parts | apply State.udsPositive_parts | apply State.udsNegative_parts | refine Fr.ite ?_ ?_
      | refine Fr.ite_snd ?_ ?_ | refine Fr.ite_trd ?_ ?_ | refine fun y hy => ?_ | lift_lets
      | (intro y; refine Fr.cut p s y ?_ (fun hy => ?_); (on_goal 1 => subst y); (on_goal 2 => clear_value y)) | intro y | split
      | (refine Fr.snd_of ?_ (by assumption)) | (refine Fr.trd_of ?_ (by assumption))

theorem State.udsSecurity_parts {p : Nat} {s x : State} (a1 : Bool) (a2 : List Byte) (hp : 0x9000002118 ||| p = p) (h : Fr p s x) : Fr p s (State.udsSecurity x a1 a2) := by
  unfold State.udsSecurity
  with_reducible
    repeat' first
      | assumption | exact Fr.up (by decide) hp | apply State.udsDo_parts | apply State.secKey_parts
      | apply State.secSeed_parts | apply State.udsPositive_parts | apply State.udsNegative_parts | refine Fr.ite ?_ ?_
      | refine Fr.ite_snd ?_ ?_ | refine Fr.ite_trd ?_ ?_ | refine fun y hy => ?_ | lift_lets
      | (intro y; refine Fr.cut p s y ?_ (fun hy => ?_); (on_goal 1 => subst y); (on_goal 2 => clear_value y)) | intro y | split
      | (refine Fr.snd_of ?_ (by assumption)) | (refine Fr.trd_of ?_ (by assumption))

theorem State.routineMark_parts {p : Nat} {s x : State} (a1 : Nat) (hp : 0x8000000000 ||| p = p) (h : Fr p s x) : Fr p s (State.routineMark x a1) := by
  unfold State.routineMark
  with_reducible
    repeat' first
      | assumption | exact Fr.up (by decide) hp | apply State.modU_parts

theorem State.moistureStart_parts {p : Nat} {s x : State} (a1 : Bool) (a2 : List Byte) (hp : 0x9040000000 ||| p = p) (h : Fr p s x) : Fr p s (State.moistureStart x a1 a2) := by
  unfold State.moistureStart
  with_reducible
    repeat' first
      | assumption | exact Fr.up (by decide) hp | apply State.routineMark_parts
      | apply State.udsDo_parts | apply State.udsPositive_parts | apply State.modU_parts | apply State.modL_parts | refine Fr.ite ?_ ?_
      | refine fun y hy => ?_ | lift_lets
      | (intro y; refine Fr.cut p s y ?_ (fun hy => ?_); (on_goal 1 => subst y); (on_goal 2 => clear_value y)) | intro y

theorem State.routineStart_parts {p : Nat} {s x : State} (a1 : Bool) (a2 : Nat) (a3 : List Byte) (hp : 0xfff85ffdf8 ||| p = p) (h : Fr p s x) : Fr p s (State.routineStart x a1 a2 a3) := by
  unfold State.routineStart
  with_reducible
    repeat' first
      | assumption | exact Fr.up (by decide) hp | apply State.moistureStart_parts
      | apply State.routineMark_parts | apply State.udsPositive_parts | apply State.udsNegative_parts | apply State.writeKey_parts
      | refine Fr.ite ?_ ?_ | refine Fr.ite_snd ?_ ?_ | refine Fr.ite_trd ?_ ?_ | lift_lets
      | (intro y; refine Fr.cut p s y ?_ (fun hy => ?_); (on_goal 1 => subst y); (on_goal 2 => clear_value y)) | intro y | split
      | (refine Fr.snd_of ?_ (by assumption)) | (refine Fr.trd_of ?_ (by assumption))

theorem State.udsRoutine_parts {p : Nat} {s x : State} (a1 : Bool) (a2 : List Byte) (hp : 0xfff85ffdf8 ||| p = p) (h : Fr p s x) : Fr p s (State.udsRoutine x a1 a2) := by
  unfold State.udsRoutine
  with_reducible
    repeat' first
      | assumption | exact Fr.up (by decide) hp | apply State.routineStart_parts
      | apply State.udsDo_parts | apply State.udsPositive_parts | refine Fr.ite ?_ ?_ | refine fun y hy => ?_ | lift_lets
      | (intro y; refine Fr.cut p s y ?_ (fun hy => ?_); (on_goal 1 => subst y); (on_goal 2 => clear_value y)) | intro y

theorem State.udsRequestDownload_parts {p : Nat} {s x : State} (a1 : Bool) (a2 : List Byte) (hp : 0x9000000010 ||| p = p) (h : Fr p s x) : Fr p s (State.udsRequestDownload x a1 a2) := by
  unfold State.udsRequestDownload
  with_reducible
    repeat' first
      | assumption | exact Fr.up (by decide) hp | apply State.udsDo_parts
      | apply State.udsPositive_parts | apply State.modU_parts | apply State.set_parts | refine fun y hy => ?_ | lift_lets
      | (intro y; refine Fr.cut p s y ?_ (fun hy => ?_); (on_goal 1 => subst y); (on_goal 2 => clear_value y)) | intro y

theorem State.udsTransfer_parts {p : Nat} {s x : State} (a1 : Bool) (a2 : List Byte) (hp : 0x9000000000 ||| p = p) (h : Fr p s x) : Fr p s (State.udsTransfer x a1 a2) := by
  unfold State.udsTransfer
  with_reducible
    repeat' first
      | assumption | exact Fr.up (by decide) hp | apply State.udsDo_parts
      | apply State.udsPositive_parts | apply State.modU_parts | refine Fr.ite ?_ ?_ | refine fun y hy => ?_ | lift_lets
      | (intro y; refine Fr.cut p s y ?_ (fun hy => ?_); (on_goal 1 => subst y); (on_goal 2 => clear_value y)) | intro y

theorem State.udsStore_parts {p : Nat} {s x : State} (a1 : Bool) (a2 : List Byte) (hp : 0x9008002010 ||| p = p) (h : Fr p s x) : Fr p s (State.udsStore x a1 a2) := by
  unfold State.udsStore
  with_reducible
    repeat' first
      | assumption | exact Fr.up (by decide) hp | apply State.udsPositive_parts
      | apply State.udsNegative_parts | apply State.modU_parts | apply State.storeImage_parts | apply State.raise_parts
      | apply State.set_parts | refine Fr.ite ?_ ?_ | refine Fr.ite_snd ?_ ?_ | refine Fr.ite_trd ?_ ?_ | lift_lets
      | (intro y; refine Fr.cut p s y ?_ (fun hy => ?_); (on_goal 1 => subst y); (on_goal 2 => clear_value y)) | intro y | split
      | (refine Fr.snd_of ?_ (by assumption)) | (refine Fr.trd_of ?_ (by assumption))

theorem State.udsExit_parts {p : Nat} {s x : State} (a1 : Bool) (a2 : List Byte) (hp : 0x9008002010 ||| p = p) (h : Fr p s x) : Fr p s (State.udsExit x a1 a2) := by
  unfold State.udsExit
  with_reducible
    repeat' first
      | assumption | exact Fr.up (by decide) hp | apply State.udsStore_parts | apply State.udsDo_parts
      | refine fun y hy => ?_ | lift_lets
      | (intro y; refine Fr.cut p s y ?_ (fun hy => ?_); (on_goal 1 => subst y); (on_goal 2 => clear_value y)) | intro y

theorem State.udsServe_parts {p : Nat} {s x : State} (a1 : Bool) (a2 : List Byte) (hp : 0xfff85ffdf8 ||| p = p) (h : Fr p s x) : Fr p s (State.udsServe x a1 a2) := by
  unfold State.udsServe
  with_reducible
    repeat' first
      | assumption | exact Fr.up (by decide) hp | apply State.udsExit_parts
      | apply State.udsTransfer_parts | apply State.udsRequestDownload_parts | apply State.udsRoutine_parts
      | apply State.udsSecurity_parts | apply State.udsWrite_parts | apply State.udsRead_parts | apply State.udsDtc_parts
      | apply State.udsClear_parts | apply State.udsSetting_parts | apply State.udsTester_parts | apply State.udsReset_parts
      | apply State.udsSession_parts | apply State.udsNegative_parts | split

theorem State.udsRx_parts {p : Nat} {s x : State} (a1 : State → State) (hf : ∀ y, Fr p s y → Fr p s (a1 y)) (hp : 0x10 ||| p = p) (h : Fr p s x) : Fr p s (State.udsRx x a1) := by
  unfold State.udsRx
  with_reducible
    repeat' first
      | assumption | exact Fr.up (by decide) hp | apply State.canStat_parts | apply hf
      | refine Fr.ite ?_ ?_ | lift_lets
      | (intro y; refine Fr.cut p s y ?_ (fun hy => ?_); (on_goal 1 => subst y); (on_goal 2 => clear_value y)) | intro y

theorem State.udsSingle_parts {p : Nat} {s x : State} (a1 : Bool) (a2 : Bool) (a3 : List Byte) (hp : 0xfff85ffdf8 ||| p = p) (h : Fr p s x) : Fr p s (State.udsSingle x a1 a2 a3) := by
  unfold State.udsSingle
  with_reducible
    repeat' first
      | assumption | exact Fr.up (by decide) hp | apply State.udsRx_parts | apply State.udsServe_parts
      | apply State.modU_parts | refine Fr.ite ?_ ?_ | refine fun y hy => ?_

theorem State.flowControl_parts {p : Nat} {s x : State} (hp : 0x1000000000 ||| p = p) (h : Fr p s x) : Fr p s (State.flowControl x) := by
  unfold State.flowControl
  with_reducible
    repeat' first
      | assumption | exact Fr.up (by decide) hp | apply State.udsEmit_parts | lift_lets
      | (intro y; refine Fr.cut p s y ?_ (fun hy => ?_); (on_goal 1 => subst y); (on_goal 2 => clear_value y)) | intro y

theorem execFirstFrame_parts {s t : State} (a0 : Bool) (a1 : Bool) (a2 : Nat) (a3 : Bool) (a4 : List Byte) (h : execFirstFrame a0 a1 a2 a3 a4 s = .next t) : Fr 0x9000000010 s t := by
  unfold execFirstFrame at h
  cases h
  have h := Fr.refl 0x9000000010 s
  have hp : 0x9000000010 ||| 0x9000000010 = 0x9000000010 := rfl
  with_reducible
    repeat' first
      | assumption | exact Fr.up (by decide) hp | apply State.flowControl_parts
      | apply State.udsRx_parts | apply State.udsEmit_parts | apply State.modU_parts | refine Fr.ite ?_ ?_ | refine fun y hy => ?_
      | lift_lets | (intro y; refine Fr.cut _ s y ?_ (fun hy => ?_); (on_goal 1 => subst y); (on_goal 2 => clear_value y)) | intro y

theorem State.consecutive_parts {p : Nat} {s x : State} (a1 : Nat) (a2 : List Byte) (hp : 0xfff85ffdf8 ||| p = p) (h : Fr p s x) : Fr p s (State.consecutive x a1 a2) := by
  unfold State.consecutive
  with_reducible
    repeat' first
      | assumption | exact Fr.up (by decide) hp | apply State.flowControl_parts
      | apply State.udsServe_parts | apply State.modU_parts | refine Fr.ite ?_ ?_ | split | lift_lets
      | (intro y; refine Fr.cut p s y ?_ (fun hy => ?_); (on_goal 1 => subst y); (on_goal 2 => clear_value y)) | intro y

theorem execConsecutiveFrame_parts {s t : State} (a0 : Nat) (a1 : List Byte) (h : execConsecutiveFrame a0 a1 s = .next t) : Fr 0xfff85ffdf8 s t := by
  unfold execConsecutiveFrame at h
  cases h
  have h := Fr.refl 0xfff85ffdf8 s
  have hp : 0xfff85ffdf8 ||| 0xfff85ffdf8 = 0xfff85ffdf8 := rfl
  with_reducible
    repeat' first
      | assumption | exact Fr.up (by decide) hp | apply State.consecutive_parts
      | apply State.udsRx_parts | apply State.logged_parts | refine fun y hy => ?_

theorem State.flowIn_parts {p : Nat} {s x : State} (a1 : Nat) (a2 : Nat) (a3 : Nat) (hp : 0x8000000000 ||| p = p) (h : Fr p s x) : Fr p s (State.flowIn x a1 a2 a3) := by
  unfold State.flowIn
  with_reducible
    repeat' first
      | assumption | exact Fr.up (by decide) hp | apply State.modU_parts | refine Fr.ite ?_ ?_ | split

theorem execFlowControl_parts {s t : State} (a0 : Nat) (a1 : Nat) (a2 : Nat) (h : execFlowControl a0 a1 a2 s = .next t) : Fr 0x8000000010 s t := by
  unfold execFlowControl at h
  cases h
  have h := Fr.refl 0x8000000010 s
  have hp : 0x8000000010 ||| 0x8000000010 = 0x8000000010 := rfl
  with_reducible
    repeat' first
      | assumption | exact Fr.up (by decide) hp | apply State.flowIn_parts | apply State.udsRx_parts
      | refine fun y hy => ?_

theorem execNBsTimeout_parts {s t : State} (h : execNBsTimeout s = .next t) : Fr 0x8000002010 s t := by
  unfold execNBsTimeout at h
  cases h
  have h := Fr.refl 0x8000002010 s
  have hp : 0x8000002010 ||| 0x8000002010 = 0x8000002010 := rfl
  with_reducible
    repeat' first
      | assumption | exact Fr.up (by decide) hp | apply State.modU_parts | apply State.raise_parts
      | refine Fr.ite ?_ ?_

theorem execNCrTimeout_parts {s t : State} (h : execNCrTimeout s = .next t) : Fr 0x8000002010 s t := by
  unfold execNCrTimeout at h
  cases h
  have h := Fr.refl 0x8000002010 s
  have hp : 0x8000002010 ||| 0x8000002010 = 0x8000002010 := rfl
  with_reducible
    repeat' first
      | assumption | exact Fr.up (by decide) hp | apply State.modU_parts | apply State.raise_parts
      | refine Fr.ite ?_ ?_

theorem State.udsCommand_parts {p : Nat} {s x : State} (a1 : Nat) (a2 : Bool) (a3 : Bool) (a4 : List Byte) (hp : 0xfff85ffdf8 ||| p = p) (h : Fr p s x) : Fr p s (State.udsCommand x a1 a2 a3 a4) := by
  unfold State.udsCommand
  with_reducible
    repeat' first
      | assumption | exact Fr.up (by decide) hp | apply State.udsSingle_parts | refine Fr.ite ?_ ?_

theorem execDiagnosticSessionControl_parts {s t : State} (a0 : Bool) (a1 : Bool) (a2 : List Byte) (h : execDiagnosticSessionControl a0 a1 a2 s = .next t) : Fr 0xfff85ffdf8 s t := by
  unfold execDiagnosticSessionControl at h
  cases h
  have h := Fr.refl 0xfff85ffdf8 s
  have hp : 0xfff85ffdf8 ||| 0xfff85ffdf8 = 0xfff85ffdf8 := rfl
  with_reducible
    repeat' first
      | assumption | exact Fr.up (by decide) hp | apply State.udsCommand_parts
      | apply State.logged_parts | refine fun y hy => ?_

theorem execEcuResetHard_parts {s t : State} (a0 : Bool) (a1 : Bool) (a2 : List Byte) (h : execEcuResetHard a0 a1 a2 s = .next t) : Fr 0xfff85ffdf8 s t := by
  unfold execEcuResetHard at h
  cases h
  have h := Fr.refl 0xfff85ffdf8 s
  have hp : 0xfff85ffdf8 ||| 0xfff85ffdf8 = 0xfff85ffdf8 := rfl
  with_reducible
    repeat' first
      | assumption | exact Fr.up (by decide) hp | apply State.udsCommand_parts
      | apply State.logged_parts | refine fun y hy => ?_

theorem execEcuResetSoft_parts {s t : State} (a0 : Bool) (a1 : Bool) (a2 : List Byte) (h : execEcuResetSoft a0 a1 a2 s = .next t) : Fr 0xfff85ffdf8 s t := by
  unfold execEcuResetSoft at h
  cases h
  have h := Fr.refl 0xfff85ffdf8 s
  have hp : 0xfff85ffdf8 ||| 0xfff85ffdf8 = 0xfff85ffdf8 := rfl
  with_reducible
    repeat' first
      | assumption | exact Fr.up (by decide) hp | apply State.udsCommand_parts
      | apply State.logged_parts | refine fun y hy => ?_

theorem execClearDiagnosticInformation_parts {s t : State} (a0 : Bool) (a1 : Bool) (a2 : List Byte) (h : execClearDiagnosticInformation a0 a1 a2 s = .next t) : Fr 0xfff85ffdf8 s t := by
  unfold execClearDiagnosticInformation at h
  cases h
  have h := Fr.refl 0xfff85ffdf8 s
  have hp : 0xfff85ffdf8 ||| 0xfff85ffdf8 = 0xfff85ffdf8 := rfl
  with_reducible
    repeat' first
      | assumption | exact Fr.up (by decide) hp | apply State.udsCommand_parts
      | apply State.logged_parts | refine fun y hy => ?_

theorem execReportNumberOfDtc_parts {s t : State} (a0 : Bool) (a1 : Bool) (a2 : List Byte) (h : execReportNumberOfDtc a0 a1 a2 s = .next t) : Fr 0xfff85ffdf8 s t := by
  unfold execReportNumberOfDtc at h
  cases h
  have h := Fr.refl 0xfff85ffdf8 s
  have hp : 0xfff85ffdf8 ||| 0xfff85ffdf8 = 0xfff85ffdf8 := rfl
  with_reducible
    repeat' first
      | assumption | exact Fr.up (by decide) hp | apply State.udsCommand_parts
      | apply State.logged_parts | refine fun y hy => ?_

theorem execReportDtcByStatus_parts {s t : State} (a0 : Bool) (a1 : Bool) (a2 : List Byte) (h : execReportDtcByStatus a0 a1 a2 s = .next t) : Fr 0xfff85ffdf8 s t := by
  unfold execReportDtcByStatus at h
  cases h
  have h := Fr.refl 0xfff85ffdf8 s
  have hp : 0xfff85ffdf8 ||| 0xfff85ffdf8 = 0xfff85ffdf8 := rfl
  with_reducible
    repeat' first
      | assumption | exact Fr.up (by decide) hp | apply State.udsCommand_parts
      | apply State.logged_parts | refine fun y hy => ?_

theorem execReportDtcSnapshot_parts {s t : State} (a0 : Bool) (a1 : Bool) (a2 : List Byte) (h : execReportDtcSnapshot a0 a1 a2 s = .next t) : Fr 0xfff85ffdf8 s t := by
  unfold execReportDtcSnapshot at h
  cases h
  have h := Fr.refl 0xfff85ffdf8 s
  have hp : 0xfff85ffdf8 ||| 0xfff85ffdf8 = 0xfff85ffdf8 := rfl
  with_reducible
    repeat' first
      | assumption | exact Fr.up (by decide) hp | apply State.udsCommand_parts
      | apply State.logged_parts | refine fun y hy => ?_

theorem execReportDtcExtendedData_parts {s t : State} (a0 : Bool) (a1 : Bool) (a2 : List Byte) (h : execReportDtcExtendedData a0 a1 a2 s = .next t) : Fr 0xfff85ffdf8 s t := by
  unfold execReportDtcExtendedData at h
  cases h
  have h := Fr.refl 0xfff85ffdf8 s
  have hp : 0xfff85ffdf8 ||| 0xfff85ffdf8 = 0xfff85ffdf8 := rfl
  with_reducible
    repeat' first
      | assumption | exact Fr.up (by decide) hp | apply State.udsCommand_parts
      | apply State.logged_parts | refine fun y hy => ?_

theorem execReportSupportedDtc_parts {s t : State} (a0 : Bool) (a1 : Bool) (a2 : List Byte) (h : execReportSupportedDtc a0 a1 a2 s = .next t) : Fr 0xfff85ffdf8 s t := by
  unfold execReportSupportedDtc at h
  cases h
  have h := Fr.refl 0xfff85ffdf8 s
  have hp : 0xfff85ffdf8 ||| 0xfff85ffdf8 = 0xfff85ffdf8 := rfl
  with_reducible
    repeat' first
      | assumption | exact Fr.up (by decide) hp | apply State.udsCommand_parts
      | apply State.logged_parts | refine fun y hy => ?_

theorem execReadDataByIdentifier_parts {s t : State} (a0 : Bool) (a1 : Bool) (a2 : List Byte) (h : execReadDataByIdentifier a0 a1 a2 s = .next t) : Fr 0xfff85ffdf8 s t := by
  unfold execReadDataByIdentifier at h
  cases h
  have h := Fr.refl 0xfff85ffdf8 s
  have hp : 0xfff85ffdf8 ||| 0xfff85ffdf8 = 0xfff85ffdf8 := rfl
  with_reducible
    repeat' first
      | assumption | exact Fr.up (by decide) hp | apply State.udsCommand_parts
      | apply State.logged_parts | refine fun y hy => ?_

theorem execWriteDataByIdentifier_parts {s t : State} (a0 : Bool) (a1 : Bool) (a2 : List Byte) (h : execWriteDataByIdentifier a0 a1 a2 s = .next t) : Fr 0xfff85ffdf8 s t := by
  unfold execWriteDataByIdentifier at h
  cases h
  have h := Fr.refl 0xfff85ffdf8 s
  have hp : 0xfff85ffdf8 ||| 0xfff85ffdf8 = 0xfff85ffdf8 := rfl
  with_reducible
    repeat' first
      | assumption | exact Fr.up (by decide) hp | apply State.udsCommand_parts
      | apply State.logged_parts | refine fun y hy => ?_

theorem execSecurityAccessSeed_parts {s t : State} (a0 : Bool) (a1 : Bool) (a2 : List Byte) (h : execSecurityAccessSeed a0 a1 a2 s = .next t) : Fr 0xfff85ffdf8 s t := by
  unfold execSecurityAccessSeed at h
  cases h
  have h := Fr.refl 0xfff85ffdf8 s
  have hp : 0xfff85ffdf8 ||| 0xfff85ffdf8 = 0xfff85ffdf8 := rfl
  with_reducible
    repeat' first
      | assumption | exact Fr.up (by decide) hp | apply State.udsCommand_parts
      | apply State.logged_parts | refine fun y hy => ?_

theorem execSecurityAccessKey_parts {s t : State} (a0 : Bool) (a1 : Bool) (a2 : List Byte) (h : execSecurityAccessKey a0 a1 a2 s = .next t) : Fr 0xfff85ffdf8 s t := by
  unfold execSecurityAccessKey at h
  cases h
  have h := Fr.refl 0xfff85ffdf8 s
  have hp : 0xfff85ffdf8 ||| 0xfff85ffdf8 = 0xfff85ffdf8 := rfl
  with_reducible
    repeat' first
      | assumption | exact Fr.up (by decide) hp | apply State.udsCommand_parts
      | apply State.logged_parts | refine fun y hy => ?_

theorem execRoutineSelfCalibration_parts {s t : State} (a0 : Bool) (a1 : Bool) (a2 : List Byte) (h : execRoutineSelfCalibration a0 a1 a2 s = .next t) : Fr 0xfff85ffdf8 s t := by
  unfold execRoutineSelfCalibration at h
  cases h
  have h := Fr.refl 0xfff85ffdf8 s
  have hp : 0xfff85ffdf8 ||| 0xfff85ffdf8 = 0xfff85ffdf8 := rfl
  with_reducible
    repeat' first
      | assumption | exact Fr.up (by decide) hp | apply State.udsCommand_parts
      | apply State.logged_parts | refine fun y hy => ?_

theorem execRoutineHorizonEpoch_parts {s t : State} (a0 : Bool) (a1 : Bool) (a2 : List Byte) (h : execRoutineHorizonEpoch a0 a1 a2 s = .next t) : Fr 0xfff85ffdf8 s t := by
  unfold execRoutineHorizonEpoch at h
  cases h
  have h := Fr.refl 0xfff85ffdf8 s
  have hp : 0xfff85ffdf8 ||| 0xfff85ffdf8 = 0xfff85ffdf8 := rfl
  with_reducible
    repeat' first
      | assumption | exact Fr.up (by decide) hp | apply State.udsCommand_parts
      | apply State.logged_parts | refine fun y hy => ?_

theorem execRoutineMoistureTest_parts {s t : State} (a0 : Bool) (a1 : Bool) (a2 : List Byte) (h : execRoutineMoistureTest a0 a1 a2 s = .next t) : Fr 0xfff85ffdf8 s t := by
  unfold execRoutineMoistureTest at h
  cases h
  have h := Fr.refl 0xfff85ffdf8 s
  have hp : 0xfff85ffdf8 ||| 0xfff85ffdf8 = 0xfff85ffdf8 := rfl
  with_reducible
    repeat' first
      | assumption | exact Fr.up (by decide) hp | apply State.udsCommand_parts
      | apply State.logged_parts | refine fun y hy => ?_

theorem execRoutineTableSwitch_parts {s t : State} (a0 : Bool) (a1 : Bool) (a2 : List Byte) (h : execRoutineTableSwitch a0 a1 a2 s = .next t) : Fr 0xfff85ffdf8 s t := by
  unfold execRoutineTableSwitch at h
  cases h
  have h := Fr.refl 0xfff85ffdf8 s
  have hp : 0xfff85ffdf8 ||| 0xfff85ffdf8 = 0xfff85ffdf8 := rfl
  with_reducible
    repeat' first
      | assumption | exact Fr.up (by decide) hp | apply State.udsCommand_parts
      | apply State.logged_parts | refine fun y hy => ?_

theorem execRequestRoutineResults_parts {s t : State} (a0 : Bool) (a1 : Bool) (a2 : List Byte) (h : execRequestRoutineResults a0 a1 a2 s = .next t) : Fr 0xfff85ffdf8 s t := by
  unfold execRequestRoutineResults at h
  cases h
  have h := Fr.refl 0xfff85ffdf8 s
  have hp : 0xfff85ffdf8 ||| 0xfff85ffdf8 = 0xfff85ffdf8 := rfl
  with_reducible
    repeat' first
      | assumption | exact Fr.up (by decide) hp | apply State.udsCommand_parts
      | apply State.logged_parts | refine fun y hy => ?_

theorem execRequestDownload_parts {s t : State} (a0 : Bool) (a1 : Bool) (a2 : List Byte) (h : execRequestDownload a0 a1 a2 s = .next t) : Fr 0xfff85ffdf8 s t := by
  unfold execRequestDownload at h
  cases h
  have h := Fr.refl 0xfff85ffdf8 s
  have hp : 0xfff85ffdf8 ||| 0xfff85ffdf8 = 0xfff85ffdf8 := rfl
  with_reducible
    repeat' first
      | assumption | exact Fr.up (by decide) hp | apply State.udsCommand_parts
      | apply State.logged_parts | refine fun y hy => ?_

theorem execTransferData_parts {s t : State} (a0 : Bool) (a1 : Bool) (a2 : List Byte) (h : execTransferData a0 a1 a2 s = .next t) : Fr 0xfff85ffdf8 s t := by
  unfold execTransferData at h
  cases h
  have h := Fr.refl 0xfff85ffdf8 s
  have hp : 0xfff85ffdf8 ||| 0xfff85ffdf8 = 0xfff85ffdf8 := rfl
  with_reducible
    repeat' first
      | assumption | exact Fr.up (by decide) hp | apply State.udsCommand_parts
      | apply State.logged_parts | refine fun y hy => ?_

theorem execRequestTransferExit_parts {s t : State} (a0 : Bool) (a1 : Bool) (a2 : List Byte) (h : execRequestTransferExit a0 a1 a2 s = .next t) : Fr 0xfff85ffdf8 s t := by
  unfold execRequestTransferExit at h
  cases h
  have h := Fr.refl 0xfff85ffdf8 s
  have hp : 0xfff85ffdf8 ||| 0xfff85ffdf8 = 0xfff85ffdf8 := rfl
  with_reducible
    repeat' first
      | assumption | exact Fr.up (by decide) hp | apply State.udsCommand_parts
      | apply State.logged_parts | refine fun y hy => ?_

theorem execTesterPresent_parts {s t : State} (a0 : Bool) (a1 : Bool) (a2 : List Byte) (h : execTesterPresent a0 a1 a2 s = .next t) : Fr 0xfff85ffdf8 s t := by
  unfold execTesterPresent at h
  cases h
  have h := Fr.refl 0xfff85ffdf8 s
  have hp : 0xfff85ffdf8 ||| 0xfff85ffdf8 = 0xfff85ffdf8 := rfl
  with_reducible
    repeat' first
      | assumption | exact Fr.up (by decide) hp | apply State.udsCommand_parts
      | apply State.logged_parts | refine fun y hy => ?_

theorem execControlDtcSettingOn_parts {s t : State} (a0 : Bool) (a1 : Bool) (a2 : List Byte) (h : execControlDtcSettingOn a0 a1 a2 s = .next t) : Fr 0xfff85ffdf8 s t := by
  unfold execControlDtcSettingOn at h
  cases h
  have h := Fr.refl 0xfff85ffdf8 s
  have hp : 0xfff85ffdf8 ||| 0xfff85ffdf8 = 0xfff85ffdf8 := rfl
  with_reducible
    repeat' first
      | assumption | exact Fr.up (by decide) hp | apply State.udsCommand_parts
      | apply State.logged_parts | refine fun y hy => ?_

theorem execControlDtcSettingOff_parts {s t : State} (a0 : Bool) (a1 : Bool) (a2 : List Byte) (h : execControlDtcSettingOff a0 a1 a2 s = .next t) : Fr 0xfff85ffdf8 s t := by
  unfold execControlDtcSettingOff at h
  cases h
  have h := Fr.refl 0xfff85ffdf8 s
  have hp : 0xfff85ffdf8 ||| 0xfff85ffdf8 = 0xfff85ffdf8 := rfl
  with_reducible
    repeat' first
      | assumption | exact Fr.up (by decide) hp | apply State.udsCommand_parts
      | apply State.logged_parts | refine fun y hy => ?_

theorem execSecurityDelayEnd_parts {s t : State} (h : execSecurityDelayEnd s = .next t) : Fr 0x10 s t := by
  unfold execSecurityDelayEnd at h
  cases h
  have h := Fr.refl 0x10 s
  have hp : 0x10 ||| 0x10 = 0x10 := rfl
  with_reducible
    repeat' first
      | assumption | exact Fr.up (by decide) hp | apply State.set_parts | refine Fr.ite ?_ ?_

theorem execResponsePending_parts {s t : State} (h : execResponsePending s = .next t) : Fr 0x1000000000 s t := by
  unfold execResponsePending at h
  cases h
  have h := Fr.refl 0x1000000000 s
  have hp : 0x1000000000 ||| 0x1000000000 = 0x1000000000 := rfl
  with_reducible
    repeat' first
      | assumption | exact Fr.up (by decide) hp | apply State.udsEmit_parts | refine Fr.ite ?_ ?_
      | split

theorem execS3ServerTimeout_parts {s t : State} (h : execS3ServerTimeout s = .next t) : Fr 0xb9f84dbdf0 s t := by
  unfold execS3ServerTimeout at h
  cases h
  have h := Fr.refl 0xb9f84dbdf0 s
  have hp : 0xb9f84dbdf0 ||| 0xb9f84dbdf0 = 0xb9f84dbdf0 := rfl
  with_reducible
    repeat' first
      | assumption | exact Fr.up (by decide) hp | apply State.resolve_parts
      | apply State.sessionDefault_parts | apply State.logged_parts | apply State.raise_parts | refine Fr.ite ?_ ?_
      | refine fun y hy => ?_

end Sys2Proof.Machine
end

