-- ==== Sys2Proof/Laws/PartsFabric.lean ====
section
/-!
SUPPORT. PartsFabric.lean: the footprint of every operation of Machine/Fabric.lean.
-/
set_option linter.unusedTactic false
set_option linter.unreachableTactic false
set_option linter.unusedVariables false
namespace Sys2Proof.Machine

theorem State.clkLock_parts {p : Nat} {s x : State} (a1 : Port) (hp : 0x80000010 ||| p = p) (h : Fr p s x) : Fr p s (State.clkLock x a1) := by
  unfold State.clkLock
  with_reducible
    repeat' first
      | assumption | exact Fr.up (by decide) hp | apply State.set_parts | refine Fr.ite ?_ ?_
      | lift_lets | (intro y; refine Fr.cut p s y ?_ (fun hy => ?_); (on_goal 1 => subst y); (on_goal 2 => clear_value y)) | intro y
      | apply Fr.mk_fab

theorem execReceiverLock_parts {s t : State} (a0 : Port) (h : execReceiverLock a0 s = .next t) : Fr 0x80000010 s t := by
  unfold execReceiverLock at h
  cases h
  have h := Fr.refl 0x80000010 s
  have hp : 0x80000010 ||| 0x80000010 = 0x80000010 := rfl
  with_reducible
    repeat' first
      | assumption | exact Fr.up (by decide) hp | apply State.clkLock_parts | apply State.modFab_parts
      | apply State.set_parts | refine Fr.ite ?_ ?_ | lift_lets
      | (intro y; refine Fr.cut _ s y ?_ (fun hy => ?_); (on_goal 1 => subst y); (on_goal 2 => clear_value y)) | intro y

theorem execReceiverLockLost_parts {s t : State} (a0 : Port) (h : execReceiverLockLost a0 s = .next t) : Fr 0x80002010 s t := by
  unfold execReceiverLockLost at h
  cases h
  have h := Fr.refl 0x80002010 s
  have hp : 0x80002010 ||| 0x80002010 = 0x80002010 := rfl
  with_reducible
    repeat' first
      | assumption | exact Fr.up (by decide) hp | apply State.portDown_parts | refine Fr.ite ?_ ?_

theorem execHelloSend_parts {s t : State} (a0 : Port) (a1 : Nat) (h : execHelloSend a0 a1 s = .next t) : Fr 0x80002010 s t := by
  unfold execHelloSend at h
  cases h
  have h := Fr.refl 0x80002010 s
  have hp : 0x80002010 ||| 0x80002010 = 0x80002010 := rfl
  with_reducible
    repeat' first
      | assumption | exact Fr.up (by decide) hp | apply State.fabLocal_parts | refine Fr.ite ?_ ?_

theorem State.hopDelay_parts {p : Nat} {s x : State} (a1 : Port) (a2 : List Byte) (a3 : Nat) (hp : 0x80000010 ||| p = p) (h : Fr p s x) : Fr p s (State.hopDelay x a1 a2 a3) := by
  unfold State.hopDelay
  with_reducible
    repeat' first
      | assumption | exact Fr.up (by decide) hp | apply State.modFab_parts | apply State.set_parts
      | refine Fr.ite ?_ ?_ | lift_lets
      | (intro y; refine Fr.cut p s y ?_ (fun hy => ?_); (on_goal 1 => subst y); (on_goal 2 => clear_value y)) | intro y

theorem State.miswire_parts {p : Nat} {s x : State} (a1 : Port) (hp : 0x80002010 ||| p = p) (h : Fr p s x) : Fr p s (State.miswire x a1) := by
  unfold State.miswire
  with_reducible
    repeat' first
      | assumption | exact Fr.up (by decide) hp | apply State.portChange_parts
      | apply State.assignCut_parts | apply State.modFab_parts | apply State.raiseC_parts | apply State.set_parts | refine Fr.ite ?_ ?_
      | lift_lets | (intro y; refine Fr.cut p s y ?_ (fun hy => ?_); (on_goal 1 => subst y); (on_goal 2 => clear_value y)) | intro y

theorem State.helloState_parts {p : Nat} {s x : State} (a1 : Port) (a2 : List Byte) (hp : 0x80002010 ||| p = p) (h : Fr p s x) : Fr p s (State.helloState x a1 a2) := by
  unfold State.helloState
  with_reducible
    repeat' first
      | assumption | exact Fr.up (by decide) hp | apply State.miswire_parts
      | apply State.portChange_parts | refine Fr.ite ?_ ?_ | lift_lets
      | (intro y; refine Fr.cut p s y ?_ (fun hy => ?_); (on_goal 1 => subst y); (on_goal 2 => clear_value y)) | intro y

theorem State.hello_parts {p : Nat} {s x : State} (a1 : Port) (a2 : List Byte) (a3 : Nat) (hp : 0xd00120f0 ||| p = p) (h : Fr p s x) : Fr p s (State.hello x a1 a2 a3) := by
  unfold State.hello
  with_reducible
    repeat' first
      | assumption | exact Fr.up (by decide) hp | apply State.helloState_parts
      | apply State.hopDelay_parts | apply State.fabBad_parts | apply State.fabTake_parts | apply State.modFab_parts | refine Fr.ite ?_ ?_
      | refine Fr.ite_snd ?_ ?_ | refine Fr.ite_trd ?_ ?_ | lift_lets
      | (intro y; refine Fr.cut p s y ?_ (fun hy => ?_); (on_goal 1 => subst y); (on_goal 2 => clear_value y)) | intro y | split
      | (refine Fr.snd_of ?_ (by assumption)) | (refine Fr.trd_of ?_ (by assumption))

theorem execHello_parts {s t : State} (a0 : Port) (a1 : List Byte) (a2 : Nat) (h : execHello a0 a1 a2 s = .next t) : Fr 0xd00120f0 s t := by
  unfold execHello at h
  cases h
  have h := Fr.refl 0xd00120f0 s
  have hp : 0xd00120f0 ||| 0xd00120f0 = 0xd00120f0 := rfl
  with_reducible
    repeat' first
      | assumption | exact Fr.up (by decide) hp | apply State.hello_parts

theorem execHelloTimeout_parts {s t : State} (a0 : Port) (h : execHelloTimeout a0 s = .next t) : Fr 0x80002010 s t := by
  unfold execHelloTimeout at h
  cases h
  have h := Fr.refl 0x80002010 s
  have hp : 0x80002010 ||| 0x80002010 = 0x80002010 := rfl
  with_reducible
    repeat' first
      | assumption | exact Fr.up (by decide) hp | apply State.portDown_parts | refine Fr.ite ?_ ?_

theorem State.topoHold_parts {p : Nat} {s x : State} (a1 : TopoRec) (hp : 0x80000010 ||| p = p) (h : Fr p s x) : Fr p s (State.topoHold x a1) := by
  unfold State.topoHold
  with_reducible
    repeat' first
      | assumption | exact Fr.up (by decide) hp | apply State.assignCut_parts
      | apply State.routesMove_parts | apply State.unsettle_parts | refine Fr.ite ?_ ?_ | lift_lets
      | (intro y; refine Fr.cut p s y ?_ (fun hy => ?_); (on_goal 1 => subst y); (on_goal 2 => clear_value y)) | intro y | apply Fr.mk_fab

theorem State.topo_parts {p : Nat} {s x : State} (a1 : Port) (a2 : Frame) (hp : 0xd00120f0 ||| p = p) (h : Fr p s x) : Fr p s (State.topo x a1 a2) := by
  unfold State.topo
  with_reducible
    repeat' first
      | assumption | exact Fr.up (by decide) hp | apply State.topoHold_parts | apply State.hopsOk_parts
      | apply State.fabBad_parts | apply State.fabTake_parts | apply State.fabOut_parts | refine Fr.ite ?_ ?_ | refine Fr.ite_snd ?_ ?_
      | refine Fr.ite_trd ?_ ?_ | refine fun y hy => ?_ | lift_lets
      | (intro y; refine Fr.cut p s y ?_ (fun hy => ?_); (on_goal 1 => subst y); (on_goal 2 => clear_value y)) | intro y | split
      | (refine Fr.snd_of ?_ (by assumption)) | (refine Fr.trd_of ?_ (by assumption))

theorem execTopo_parts {s t : State} (a0 : Port) (a1 : Nat) (a2 : Nat) (a3 : Nat) (a4 : List Byte) (h : execTopo a0 a1 a2 a3 a4 s = .next t) : Fr 0xd00120f0 s t := by
  unfold execTopo at h
  cases h
  have h := Fr.refl 0xd00120f0 s
  have hp : 0xd00120f0 ||| 0xd00120f0 = 0xd00120f0 := rfl
  with_reducible
    repeat' first
      | assumption | exact Fr.up (by decide) hp | apply State.topo_parts

theorem execTopoSend_parts {s t : State} (h : execTopoSend s = .next t) : Fr 0x80002010 s t := by
  unfold execTopoSend at h
  cases h
  have h := Fr.refl 0x80002010 s
  have hp : 0x80002010 ||| 0x80002010 = 0x80002010 := rfl
  with_reducible
    repeat' first
      | assumption | exact Fr.up (by decide) hp | apply State.topoSend_parts

theorem execTopoRecordExpiry_parts {s t : State} (a0 : Nat) (h : execTopoRecordExpiry a0 s = .next t) : Fr 0x80000010 s t := by
  unfold execTopoRecordExpiry at h
  cases h
  have h := Fr.refl 0x80000010 s
  have hp : 0x80000010 ||| 0x80000010 = 0x80000010 := rfl
  with_reducible
    repeat' first
      | assumption | exact Fr.up (by decide) hp | apply State.routesMove_parts
      | apply State.unsettle_parts | refine Fr.ite ?_ ?_ | lift_lets
      | (intro y; refine Fr.cut _ s y ?_ (fun hy => ?_); (on_goal 1 => subst y); (on_goal 2 => clear_value y)) | intro y | apply Fr.mk_fab

theorem execFabricSettled_parts {s t : State} (h : execFabricSettled s = .next t) : Fr 0x88012010 s t := by
  unfold execFabricSettled at h
  cases h
  have h := Fr.refl 0x88012010 s
  have hp : 0x88012010 ||| 0x88012010 = 0x88012010 := rfl
  with_reducible
    repeat' first
      | assumption | exact Fr.up (by decide) hp | apply State.bootKick_parts | apply State.settle_parts
      | apply State.clkFollow_parts | refine Fr.ite ?_ ?_

theorem State.assignList_parts {p : Nat} {s x : State} (a1 : List Byte) (hp : 0x80000000 ||| p = p) (h : Fr p s x) : Fr p s (State.assignList x a1) := by
  unfold State.assignList
  with_reducible
    repeat' first
      | assumption | exact Fr.up (by decide) hp | refine Fr.ite ?_ ?_ | lift_lets
      | (intro y; refine Fr.cut p s y ?_ (fun hy => ?_); (on_goal 1 => subst y); (on_goal 2 => clear_value y)) | intro y | apply Fr.mk_fab

theorem State.assignTake_parts {p : Nat} {s x : State} (a1 : Nat) (a2 : List Byte) (hp : 0x88012010 ||| p = p) (h : Fr p s x) : Fr p s (State.assignTake x a1 a2) := by
  unfold State.assignTake
  with_reducible
    repeat' first
      | assumption | exact Fr.up (by decide) hp | apply State.assignList_parts
      | apply State.bootKick_parts | apply State.adopt_parts | apply State.zenithObjs_parts | refine Fr.ite ?_ ?_ | lift_lets
      | (intro y; refine Fr.cut p s y ?_ (fun hy => ?_); (on_goal 1 => subst y); (on_goal 2 => clear_value y)) | intro y | split

theorem State.assignRx_parts {p : Nat} {s x : State} (a1 : Port) (a2 : Frame) (hp : 0xd80120f0 ||| p = p) (h : Fr p s x) : Fr p s (State.assignRx x a1 a2) := by
  unfold State.assignRx
  with_reducible
    repeat' first
      | assumption | exact Fr.up (by decide) hp | apply State.assignTake_parts
      | apply State.fabOnward_parts | apply State.fabBad_parts | apply State.fabTake_parts | refine Fr.ite ?_ ?_ | refine Fr.ite_snd ?_ ?_
      | refine Fr.ite_trd ?_ ?_ | lift_lets
      | (intro y; refine Fr.cut p s y ?_ (fun hy => ?_); (on_goal 1 => subst y); (on_goal 2 => clear_value y)) | intro y | split
      | (refine Fr.snd_of ?_ (by assumption)) | (refine Fr.trd_of ?_ (by assumption))

theorem execAssign_parts {s t : State} (a0 : Port) (a1 : Nat) (a2 : Nat) (a3 : Nat) (a4 : List Byte) (h : execAssign a0 a1 a2 a3 a4 s = .next t) : Fr 0xd80120f0 s t := by
  unfold execAssign at h
  cases h
  have h := Fr.refl 0xd80120f0 s
  have hp : 0xd80120f0 ||| 0xd80120f0 = 0xd80120f0 := rfl
  with_reducible
    repeat' first
      | assumption | exact Fr.up (by decide) hp | apply State.assignRx_parts

theorem execAssignRepeat_parts {s t : State} (h : execAssignRepeat s = .next t) : Fr 0x80002010 s t := by
  unfold execAssignRepeat at h
  cases h
  have h := Fr.refl 0x80002010 s
  have hp : 0x80002010 ||| 0x80002010 = 0x80002010 := rfl
  with_reducible
    repeat' first
      | assumption | exact Fr.up (by decide) hp | apply State.assignSend_parts | refine Fr.ite ?_ ?_

theorem execNodeIdSetWrite_parts {s t : State} (a0 : Master) (a1 : Nat) (h : execNodeIdSetWrite a0 a1 s = .next t) : Fr 0xfff85ffdf8 s t := by
  unfold execNodeIdSetWrite at h
  cases h
  have h := Fr.refl 0xfff85ffdf8 s
  have hp : 0xfff85ffdf8 ||| 0xfff85ffdf8 = 0xfff85ffdf8 := rfl
  with_reducible
    repeat' first
      | assumption | exact Fr.up (by decide) hp | apply State.asked_parts | apply State.writeKey_parts
      | apply State.logged_parts | refine fun y hy => ?_ | split | (refine Fr.snd_of ?_ (by assumption))
      | (refine Fr.trd_of ?_ (by assumption))

theorem State.forward_parts {p : Nat} {s x : State} (a1 : Port) (a2 : Frame) (hp : 0xd00120f0 ||| p = p) (h : Fr p s x) : Fr p s (State.forward x a1 a2) := by
  unfold State.forward
  with_reducible
    repeat' first
      | assumption | exact Fr.up (by decide) hp | apply State.fabOnward_parts
      | apply State.hopsOk_parts | apply State.fabBad_parts | apply State.fabTake_parts | apply State.fabRoute_parts | refine Fr.ite ?_ ?_
      | refine Fr.ite_snd ?_ ?_ | refine Fr.ite_trd ?_ ?_ | refine fun y hy => ?_ | lift_lets
      | (intro y; refine Fr.cut p s y ?_ (fun hy => ?_); (on_goal 1 => subst y); (on_goal 2 => clear_value y)) | intro y | split
      | (refine Fr.snd_of ?_ (by assumption)) | (refine Fr.trd_of ?_ (by assumption))

theorem State.frameIn_parts {p : Nat} {s x : State} (a1 : Port) (a2 : List Byte) (a3 : Bool) (hp : 0xd00120f0 ||| p = p) (h : Fr p s x) : Fr p s (State.frameIn x a1 a2 a3) := by
  unfold State.frameIn
  with_reducible
    repeat' first
      | assumption | exact Fr.up (by decide) hp | apply State.forward_parts | apply State.fabBad_parts
      | refine Fr.ite ?_ ?_ | split

theorem execFrameForward_parts {s t : State} (a0 : Port) (a1 : List Byte) (a2 : Bool) (h : execFrameForward a0 a1 a2 s = .next t) : Fr 0xd00120f0 s t := by
  unfold execFrameForward at h
  cases h
  have h := Fr.refl 0xd00120f0 s
  have hp : 0xd00120f0 ||| 0xd00120f0 = 0xd00120f0 := rfl
  with_reducible
    repeat' first
      | assumption | exact Fr.up (by decide) hp | apply State.frameIn_parts

theorem State.fabAnswer_parts {p : Nat} {s x : State} (a1 : Nat) (a2 : Nat) (a3 : Frame) (hp : 0x80002010 ||| p = p) (h : Fr p s x) : Fr p s (State.fabAnswer x a1 a2 a3) := by
  unfold State.fabAnswer
  with_reducible
    repeat' first
      | assumption | exact Fr.up (by decide) hp | apply State.fabRoute_parts | apply State.fabSeq_parts
      | lift_lets | (intro y; refine Fr.cut p s y ?_ (fun hy => ?_); (on_goal 1 => subst y); (on_goal 2 => clear_value y)) | intro y
      | split | (refine Fr.snd_of ?_ (by assumption)) | (refine Fr.trd_of ?_ (by assumption)) | apply Fr.mk_fab

theorem State.fabBusy_parts {p : Nat} {s x : State} (a1 : Nat) (a2 : Nat) (a3 : Nat) (a4 : List Byte) (hp : 0x80002010 ||| p = p) (h : Fr p s x) : Fr p s (State.fabBusy x a1 a2 a3 a4) := by
  unfold State.fabBusy
  with_reducible
    repeat' first
      | assumption | exact Fr.up (by decide) hp | apply State.fabSend_parts | refine Fr.ite ?_ ?_

theorem State.fabRequest_parts {p : Nat} {s x : State} (a1 : Port) (a2 : Nat) (a3 : Nat) (a4 : Nat) (a5 : List Byte) (a6 : State → State) (hf : ∀ y, Fr p s y → Fr p s (a6 y)) (hp : 0xd00120f0 ||| p = p) (h : Fr p s x) : Fr p s (State.fabRequest x a1 a2 a3 a4 a5 a6) := by
  unfold State.fabRequest
  with_reducible
    repeat' first
      | assumption | exact Fr.up (by decide) hp | apply State.fabBusy_parts | apply State.fabTake_parts
      | apply State.fabRoute_parts | apply hf | refine Fr.ite ?_ ?_ | refine Fr.ite_snd ?_ ?_ | refine Fr.ite_trd ?_ ?_ | lift_lets
      | (intro y; refine Fr.cut p s y ?_ (fun hy => ?_); (on_goal 1 => subst y); (on_goal 2 => clear_value y)) | intro y | split
      | (refine Fr.snd_of ?_ (by assumption)) | (refine Fr.trd_of ?_ (by assumption))

theorem State.readRsp_parts {p : Nat} {s x : State} (a1 : Nat) (a2 : Nat) (a3 : List Byte) (a4 : Nat) (a5 : Nat) (a6 : Nat) (a7 : List Byte) (hp : 0x80002010 ||| p = p) (h : Fr p s x) : Fr p s (State.readRsp x a1 a2 a3 a4 a5 a6 a7) := by
  unfold State.readRsp
  with_reducible
    repeat' first
      | assumption | exact Fr.up (by decide) hp | apply State.fabAnswer_parts

theorem State.fabRead_parts {p : Nat} {s x : State} (a1 : Nat) (a2 : Nat) (a3 : List Byte) (hp : 0x880016010 ||| p = p) (h : Fr p s x) : Fr p s (State.fabRead x a1 a2 a3) := by
  unfold State.fabRead
  with_reducible
    repeat' first
      | assumption | exact Fr.up (by decide) hp | apply State.readRsp_parts
      | apply State.readSegment_parts | refine Fr.ite ?_ ?_ | refine Fr.ite_snd ?_ ?_ | refine Fr.ite_trd ?_ ?_ | lift_lets
      | (intro y; refine Fr.cut p s y ?_ (fun hy => ?_); (on_goal 1 => subst y); (on_goal 2 => clear_value y)) | intro y | split
      | (refine Fr.snd_of ?_ (by assumption)) | (refine Fr.trd_of ?_ (by assumption))

theorem execReadReq_parts {s t : State} (a0 : Port) (a1 : Nat) (a2 : Nat) (a3 : List Byte) (h : execReadReq a0 a1 a2 a3 s = .next t) : Fr 0x8d00160f0 s t := by
  unfold execReadReq at h
  cases h
  have h := Fr.refl 0x8d00160f0 s
  have hp : 0x8d00160f0 ||| 0x8d00160f0 = 0x8d00160f0 := rfl
  with_reducible
    repeat' first
      | assumption | exact Fr.up (by decide) hp | apply State.fabRead_parts
      | apply State.fabRequest_parts | refine fun y hy => ?_

theorem State.fabWrite_parts {p : Nat} {s x : State} (a1 : Nat) (a2 : List Byte) (hp : 0xfff85ffdf8 ||| p = p) (h : Fr p s x) : Fr p s (State.fabWrite x a1 a2).2 := by
  unfold State.fabWrite
  with_reducible
    repeat' first
      | assumption | exact Fr.up (by decide) hp | apply State.writeWhole_parts | refine Fr.ite ?_ ?_
      | refine Fr.ite_snd ?_ ?_ | refine Fr.ite_trd ?_ ?_ | split | (refine Fr.snd_of ?_ (by assumption))
      | (refine Fr.trd_of ?_ (by assumption))

theorem State.writeRsp_parts {p : Nat} {s x : State} (a1 : Nat) (a2 : Nat) (a3 : List Byte) (a4 : Nat) (hp : 0x80002010 ||| p = p) (h : Fr p s x) : Fr p s (State.writeRsp x a1 a2 a3 a4) := by
  unfold State.writeRsp
  with_reducible
    repeat' first
      | assumption | exact Fr.up (by decide) hp | apply State.fabAnswer_parts

theorem State.writeAll_parts {p : Nat} {s x : State} (a1 : Port) (a2 : Frame) (hp : 0xfff85ffdf8 ||| p = p) (h : Fr p s x) : Fr p s (State.writeAll x a1 a2) := by
  unfold State.writeAll
  with_reducible
    repeat' first
      | assumption | exact Fr.up (by decide) hp | apply State.fabWrite_parts
      | apply State.fabOnward_parts | apply State.fabTake_parts | refine Fr.ite ?_ ?_ | refine Fr.ite_snd ?_ ?_ | refine Fr.ite_trd ?_ ?_
      | lift_lets | (intro y; refine Fr.cut p s y ?_ (fun hy => ?_); (on_goal 1 => subst y); (on_goal 2 => clear_value y)) | intro y
      | split | (refine Fr.snd_of ?_ (by assumption)) | (refine Fr.trd_of ?_ (by assumption))

theorem execWriteReq_parts {s t : State} (a0 : Port) (a1 : Nat) (a2 : Nat) (a3 : Nat) (a4 : Nat) (a5 : Bool) (a6 : List Byte) (h : execWriteReq a0 a1 a2 a3 a4 a5 a6 s = .next t) : Fr 0xfff85ffdf8 s t := by
  unfold execWriteReq at h
  cases h
  have h := Fr.refl 0xfff85ffdf8 s
  have hp : 0xfff85ffdf8 ||| 0xfff85ffdf8 = 0xfff85ffdf8 := rfl
  with_reducible
    repeat' first
      | assumption | exact Fr.up (by decide) hp | apply State.writeAll_parts
      | apply State.writeRsp_parts | apply State.fabWrite_parts | apply State.fabRequest_parts | apply State.logged_parts
      | refine Fr.ite ?_ ?_ | refine Fr.ite_snd ?_ ?_ | refine Fr.ite_trd ?_ ?_ | refine fun y hy => ?_ | lift_lets
      | (intro y; refine Fr.cut _ s y ?_ (fun hy => ?_); (on_goal 1 => subst y); (on_goal 2 => clear_value y)) | intro y | split
      | (refine Fr.snd_of ?_ (by assumption)) | (refine Fr.trd_of ?_ (by assumption))

theorem State.fabReqDrop_parts {p : Nat} {s x : State} (a1 : Nat) (hp : 0x80000000 ||| p = p) (h : Fr p s x) : Fr p s (State.fabReqDrop x a1) := by
  unfold State.fabReqDrop
  with_reducible
    repeat' first
      | assumption | exact Fr.up (by decide) hp | lift_lets
      | (intro y; refine Fr.cut p s y ?_ (fun hy => ?_); (on_goal 1 => subst y); (on_goal 2 => clear_value y)) | intro y | apply Fr.mk_fab

theorem State.fabReqEnd_parts {p : Nat} {s x : State} (a1 : FabReq) (a2 : Bool) (hp : 0x180006010 ||| p = p) (h : Fr p s x) : Fr p s (State.fabReqEnd x a1 a2) := by
  unfold State.fabReqEnd
  with_reducible
    repeat' first
      | assumption | exact Fr.up (by decide) hp | apply State.fabReqDrop_parts
      | apply State.seqRefused_parts | refine Fr.ite ?_ ?_ | lift_lets
      | (intro y; refine Fr.cut p s y ?_ (fun hy => ?_); (on_goal 1 => subst y); (on_goal 2 => clear_value y)) | intro y | split

theorem execFabricResponse_parts {s t : State} (a0 : Port) (a1 : Nat) (a2 : Nat) (a3 : List Byte) (h : execFabricResponse a0 a1 a2 a3 s = .next t) : Fr 0x1d00160f0 s t := by
  unfold execFabricResponse at h
  cases h
  have h := Fr.refl 0x1d00160f0 s
  have hp : 0x1d00160f0 ||| 0x1d00160f0 = 0x1d00160f0 := rfl
  with_reducible
    repeat' first
      | assumption | exact Fr.up (by decide) hp | apply State.fabReqEnd_parts
      | apply State.fabTake_parts | refine Fr.ite ?_ ?_ | refine Fr.ite_snd ?_ ?_ | refine Fr.ite_trd ?_ ?_ | lift_lets
      | (intro y; refine Fr.cut _ s y ?_ (fun hy => ?_); (on_goal 1 => subst y); (on_goal 2 => clear_value y)) | intro y | split
      | (refine Fr.snd_of ?_ (by assumption)) | (refine Fr.trd_of ?_ (by assumption))

theorem execFabricRequestTimeout_parts {s t : State} (a0 : Nat) (h : execFabricRequestTimeout a0 s = .next t) : Fr 0x180006010 s t := by
  unfold execFabricRequestTimeout at h
  cases h
  have h := Fr.refl 0x180006010 s
  have hp : 0x180006010 ||| 0x180006010 = 0x180006010 := rfl
  with_reducible
    repeat' first
      | assumption | exact Fr.up (by decide) hp | apply State.fabReqEnd_parts
      | apply State.fabSend_parts | refine Fr.ite ?_ ?_ | lift_lets
      | (intro y; refine Fr.cut _ s y ?_ (fun hy => ?_); (on_goal 1 => subst y); (on_goal 2 => clear_value y)) | intro y | split
      | apply Fr.mk_fab

theorem execNotifySend_parts {s t : State} (h : execNotifySend s = .next t) : Fr 0x80002010 s t := by
  unfold execNotifySend at h
  cases h
  have h := Fr.refl 0x80002010 s
  have hp : 0x80002010 ||| 0x80002010 = 0x80002010 := rfl
  with_reducible
    repeat' first
      | assumption | exact Fr.up (by decide) hp | apply State.fabBroadcast_parts | refine Fr.ite ?_ ?_
      | lift_lets | (intro y; refine Fr.cut _ s y ?_ (fun hy => ?_); (on_goal 1 => subst y); (on_goal 2 => clear_value y)) | intro y

theorem State.bootAnswer_parts {p : Nat} {s x : State} (a1 : Nat) (a2 : List Byte) (hp : 0x80002010 ||| p = p) (h : Fr p s x) : Fr p s (State.bootAnswer x a1 a2) := by
  unfold State.bootAnswer
  with_reducible
    repeat' first
      | assumption | exact Fr.up (by decide) hp | apply State.fabSend_parts | refine Fr.ite ?_ ?_
      | lift_lets | (intro y; refine Fr.cut p s y ?_ (fun hy => ?_); (on_goal 1 => subst y); (on_goal 2 => clear_value y)) | intro y

theorem execBootReq_parts {s t : State} (a0 : Port) (a1 : Nat) (a2 : List Byte) (h : execBootReq a0 a1 a2 s = .next t) : Fr 0xd00120f0 s t := by
  unfold execBootReq at h
  cases h
  have h := Fr.refl 0xd00120f0 s
  have hp : 0xd00120f0 ||| 0xd00120f0 = 0xd00120f0 := rfl
  with_reducible
    repeat' first
      | assumption | exact Fr.up (by decide) hp | apply State.bootAnswer_parts
      | apply State.fabTake_parts | refine Fr.ite ?_ ?_ | refine Fr.ite_snd ?_ ?_ | refine Fr.ite_trd ?_ ?_ | lift_lets
      | (intro y; refine Fr.cut _ s y ?_ (fun hy => ?_); (on_goal 1 => subst y); (on_goal 2 => clear_value y)) | intro y | split
      | (refine Fr.snd_of ?_ (by assumption)) | (refine Fr.trd_of ?_ (by assumption))

theorem State.bootImage_parts {p : Nat} {s x : State} (a1 : Nat) (hp : 0x88002010 ||| p = p) (h : Fr p s x) : Fr p s (State.bootImage x a1) := by
  unfold State.bootImage
  with_reducible
    repeat' first
      | assumption | exact Fr.up (by decide) hp | apply State.bootNext_parts
      | apply State.storeImage_parts | split | (refine Fr.snd_of ?_ (by assumption)) | (refine Fr.trd_of ?_ (by assumption))

theorem State.bootTake_parts {p : Nat} {s x : State} (a1 : Nat) (a2 : List Byte) (hp : 0x88002010 ||| p = p) (h : Fr p s x) : Fr p s (State.bootTake x a1 a2) := by
  unfold State.bootTake
  with_reducible
    repeat' first
      | assumption | exact Fr.up (by decide) hp | apply State.bootImage_parts
      | apply State.bootNext_parts | apply State.bootAsk_parts | refine Fr.ite ?_ ?_ | lift_lets
      | (intro y; refine Fr.cut p s y ?_ (fun hy => ?_); (on_goal 1 => subst y); (on_goal 2 => clear_value y)) | intro y | split
      | apply Fr.mk_fab

theorem execBootData_parts {s t : State} (a0 : Port) (a1 : Nat) (a2 : List Byte) (h : execBootData a0 a1 a2 s = .next t) : Fr 0xd80120f0 s t := by
  unfold execBootData at h
  cases h
  have h := Fr.refl 0xd80120f0 s
  have hp : 0xd80120f0 ||| 0xd80120f0 = 0xd80120f0 := rfl
  with_reducible
    repeat' first
      | assumption | exact Fr.up (by decide) hp | apply State.bootTake_parts
      | apply State.fabTake_parts | refine Fr.ite ?_ ?_ | refine Fr.ite_snd ?_ ?_ | refine Fr.ite_trd ?_ ?_ | lift_lets
      | (intro y; refine Fr.cut _ s y ?_ (fun hy => ?_); (on_goal 1 => subst y); (on_goal 2 => clear_value y)) | intro y | split
      | (refine Fr.snd_of ?_ (by assumption)) | (refine Fr.trd_of ?_ (by assumption))

theorem execFabricBootFail_parts {s t : State} (h : execFabricBootFail s = .next t) : Fr 0x88002010 s t := by
  unfold execFabricBootFail at h
  cases h
  have h := Fr.refl 0x88002010 s
  have hp : 0x88002010 ||| 0x88002010 = 0x88002010 := rfl
  with_reducible
    repeat' first
      | assumption | exact Fr.up (by decide) hp | apply State.loadBanks_parts | apply State.raise_parts
      | refine Fr.ite ?_ ?_ | lift_lets
      | (intro y; refine Fr.cut _ s y ?_ (fun hy => ?_); (on_goal 1 => subst y); (on_goal 2 => clear_value y)) | intro y | split
      | apply Fr.mk_fab

theorem execMarkerEmit_parts {s t : State} (a0 : Nat) (a1 : Nat) (h : execMarkerEmit a0 a1 s = .next t) : Fr 0x80000000 s t := by
  unfold execMarkerEmit at h
  cases h
  have h := Fr.refl 0x80000000 s
  have hp : 0x80000000 ||| 0x80000000 = 0x80000000 := rfl
  with_reducible
    repeat' first
      | assumption | exact Fr.up (by decide) hp | apply State.modFab_parts | refine Fr.ite ?_ ?_
      | lift_lets | (intro y; refine Fr.cut _ s y ?_ (fun hy => ?_); (on_goal 1 => subst y); (on_goal 2 => clear_value y)) | intro y
      | apply Fr.mk_fab

theorem State.markerTake_parts {p : Nat} {s x : State} (a1 : Port) (a2 : Nat) (a3 : Nat) (a4 : Nat) (hp : 0x80000010 ||| p = p) (h : Fr p s x) : Fr p s (State.markerTake x a1 a2 a3 a4) := by
  unfold State.markerTake
  with_reducible
    repeat' first
      | assumption | exact Fr.up (by decide) hp | apply State.setI_parts | apply State.set_parts
      | refine Fr.ite ?_ ?_ | lift_lets
      | (intro y; refine Fr.cut p s y ?_ (fun hy => ?_); (on_goal 1 => subst y); (on_goal 2 => clear_value y)) | intro y | split
      | apply Fr.mk_fab

theorem State.marker_parts {p : Nat} {s x : State} (a1 : Port) (a2 : Nat) (a3 : Nat) (a4 : Nat) (a5 : Nat) (hp : 0x80000010 ||| p = p) (h : Fr p s x) : Fr p s (State.marker x a1 a2 a3 a4 a5) := by
  unfold State.marker
  with_reducible
    repeat' first
      | assumption | exact Fr.up (by decide) hp | apply State.markerTake_parts
      | apply State.modFab_parts | refine Fr.ite ?_ ?_ | lift_lets
      | (intro y; refine Fr.cut p s y ?_ (fun hy => ?_); (on_goal 1 => subst y); (on_goal 2 => clear_value y)) | intro y

theorem execMarker_parts {s t : State} (a0 : Port) (a1 : Nat) (a2 : Nat) (a3 : Nat) (a4 : Nat) (h : execMarker a0 a1 a2 a3 a4 s = .next t) : Fr 0x80000010 s t := by
  unfold execMarker at h
  cases h
  have h := Fr.refl 0x80000010 s
  have hp : 0x80000010 ||| 0x80000010 = 0x80000010 := rfl
  with_reducible
    repeat' first
      | assumption | exact Fr.up (by decide) hp | apply State.marker_parts

theorem execTimebaseLost_parts {s t : State} (h : execTimebaseLost s = .next t) : Fr 0x82070 s t := by
  unfold execTimebaseLost at h
  cases h
  have h := Fr.refl 0x82070 s
  have hp : 0x82070 ||| 0x82070 = 0x82070 := rfl
  with_reducible
    repeat' first
      | assumption | exact Fr.up (by decide) hp | apply State.syncLose_parts | apply State.logged_parts
      | apply State.raise_parts | apply State.set_parts | refine Fr.foldl _ ?_ (fun y a hy => ?_) | refine Fr.ite ?_ ?_
      | refine fun y hy => ?_ | lift_lets
      | (intro y; refine Fr.cut _ s y ?_ (fun hy => ?_); (on_goal 1 => subst y); (on_goal 2 => clear_value y)) | intro y

end Sys2Proof.Machine
end

