-- ==== Sys2Proof/Laws/PartsTableCmds.lean ====
section
/-!
SUPPORT. PartsTableCmds.lean: the footprint of every operation of Machine/TableCmds.lean.
-/
set_option linter.unusedTactic false
set_option linter.unreachableTactic false
set_option linter.unusedVariables false
namespace Sys2Proof.Machine

theorem execDtcClear_parts {s t : State} (a0 : Master) (a1 : Nat) (h : execDtcClear a0 a1 s = .next t) : Fr 0xfff85ffdf8 s t := by
  unfold execDtcClear at h
  cases h
  have h := Fr.refl 0xfff85ffdf8 s
  have hp : 0xfff85ffdf8 ||| 0xfff85ffdf8 = 0xfff85ffdf8 := rfl
  with_reducible
    repeat' first
      | assumption | exact Fr.up (by decide) hp | apply State.asked_parts | apply State.writeKey_parts
      | apply State.logged_parts | refine fun y hy => ?_ | split | (refine Fr.snd_of ?_ (by assumption))
      | (refine Fr.trd_of ?_ (by assumption))

theorem execTableSwitch_parts {s t : State} (a0 : Master) (a1 : Nat) (h : execTableSwitch a0 a1 s = .next t) : Fr 0xfff85ffdf8 s t := by
  unfold execTableSwitch at h
  cases h
  have h := Fr.refl 0xfff85ffdf8 s
  have hp : 0xfff85ffdf8 ||| 0xfff85ffdf8 = 0xfff85ffdf8 := rfl
  with_reducible
    repeat' first
      | assumption | exact Fr.up (by decide) hp | apply State.asked_parts | apply State.writeKey_parts
      | apply State.logged_parts | refine fun y hy => ?_ | split | (refine Fr.snd_of ?_ (by assumption))
      | (refine Fr.trd_of ?_ (by assumption))

theorem execTableLoad_parts {s t : State} (a0 : Master) (a1 : List Byte) (h : execTableLoad a0 a1 s = .next t) : Fr 0x808022010 s t := by
  unfold execTableLoad at h
  cases h
  have h := Fr.refl 0x808022010 s
  have hp : 0x808022010 ||| 0x808022010 = 0x808022010 := rfl
  with_reducible
    repeat' first
      | assumption | exact Fr.up (by decide) hp | apply State.asked_parts
      | apply State.writeSegment_parts | refine fun y hy => ?_ | split | (refine Fr.snd_of ?_ (by assumption))
      | (refine Fr.trd_of ?_ (by assumption))

theorem execTrapRelease_parts {s t : State} (a0 : Master) (a1 : Nat) (h : execTrapRelease a0 a1 s = .next t) : Fr 0xfff85ffdf8 s t := by
  unfold execTrapRelease at h
  cases h
  have h := Fr.refl 0xfff85ffdf8 s
  have hp : 0xfff85ffdf8 ||| 0xfff85ffdf8 = 0xfff85ffdf8 := rfl
  with_reducible
    repeat' first
      | assumption | exact Fr.up (by decide) hp | apply State.asked_parts | apply State.writeKey_parts
      | apply State.logged_parts | refine fun y hy => ?_ | split | (refine Fr.snd_of ?_ (by assumption))
      | (refine Fr.trd_of ?_ (by assumption))

theorem State.rowAgain_parts {p : Nat} {s x : State} (hp : 0x30f0 ||| p = p) (h : Fr p s x) : Fr p s (State.rowAgain x) := by
  unfold State.rowAgain
  with_reducible
    repeat' first
      | assumption | exact Fr.up (by decide) hp | apply State.rowLatches_parts
      | apply State.commitWords_parts | apply State.set_parts | refine Fr.ite ?_ ?_ | lift_lets
      | (intro y; refine Fr.cut p s y ?_ (fun hy => ?_); (on_goal 1 => subst y); (on_goal 2 => clear_value y)) | intro y | apply Fr.mk_src

theorem State.selectAgain_parts {p : Nat} {s x : State} (hp : 0x20000010 ||| p = p) (h : Fr p s x) : Fr p s (State.selectAgain x) := by
  unfold State.selectAgain
  with_reducible
    repeat' first
      | assumption | exact Fr.up (by decide) hp | apply State.select_parts | apply State.chgEnter_parts
      | refine Fr.ite ?_ ?_

theorem State.chgAgain_parts {p : Nat} {s x : State} (hp : 0x280120f0 ||| p = p) (h : Fr p s x) : Fr p s (State.chgAgain x) := by
  unfold State.chgAgain
  with_reducible
    repeat' first
      | assumption | exact Fr.up (by decide) hp | apply State.selectAgain_parts
      | apply State.ordering_parts | apply State.packFirst_parts | apply State.chgWrite_parts | apply State.chgEnter_parts
      | apply State.writeChg_parts | refine Fr.ite ?_ ?_ | lift_lets
      | (intro y; refine Fr.cut p s y ?_ (fun hy => ?_); (on_goal 1 => subst y); (on_goal 2 => clear_value y)) | intro y
      | apply Fr.mk_tabs

theorem State.scanAgain_parts {p : Nat} {s x : State} (hp : 0x10010 ||| p = p) (h : Fr p s x) : Fr p s (State.scanAgain x) := by
  unfold State.scanAgain
  with_reducible
    repeat' first
      | assumption | exact Fr.up (by decide) hp | apply State.put_parts
      | refine Fr.foldl _ ?_ (fun y a hy => ?_)

theorem State.kindChanged_parts {p : Nat} {s x : State} (a1 : Nat) (hp : 0xfff87ffdf8 ||| p = p) (h : Fr p s x) : Fr p s (State.kindChanged x a1) := by
  unfold State.kindChanged
  with_reducible
    repeat' first
      | assumption | exact Fr.up (by decide) hp | apply State.scanAgain_parts
      | apply State.chgAgain_parts | apply State.rowAgain_parts | apply State.seqRestart_parts | apply State.ordering_parts
      | apply State.bandUpdate_parts | apply State.writeEdges_parts | apply State.bandIntervals_parts | lift_lets
      | (intro y; refine Fr.cut p s y ?_ (fun hy => ?_); (on_goal 1 => subst y); (on_goal 2 => clear_value y)) | intro y | split
      | (refine Fr.snd_of ?_ (by assumption)) | (refine Fr.trd_of ?_ (by assumption)) | apply Fr.mk_tabs

theorem State.switchDone_parts {p : Nat} {s x : State} (hp : 0x2080038f0 ||| p = p) (h : Fr p s x) : Fr p s (State.switchDone x) := by
  unfold State.switchDone
  with_reducible
    repeat' first
      | assumption | exact Fr.up (by decide) hp | apply State.rowAgain_parts
      | apply State.idleIds_parts | apply State.writeBankF_parts | apply State.setBank_parts | apply State.ordering_parts
      | apply State.writeLimits_parts | apply State.clearK_parts | apply State.set_parts | refine Fr.ite ?_ ?_ | lift_lets
      | (intro y; refine Fr.cut p s y ?_ (fun hy => ?_); (on_goal 1 => subst y); (on_goal 2 => clear_value y)) | intro y
      | apply Fr.mk_mode | apply Fr.mk_tabs

theorem State.switchKind_parts {p : Nat} {s x : State} (a1 : Nat) (hp : 0xfff87ffdf8 ||| p = p) (h : Fr p s x) : Fr p s (State.switchKind x a1) := by
  unfold State.switchKind
  with_reducible
    repeat' first
      | assumption | exact Fr.up (by decide) hp | apply State.switchDone_parts
      | apply State.kindChanged_parts | apply State.useImage_parts | apply State.set_parts | refine Fr.ite ?_ ?_ | lift_lets
      | (intro y; refine Fr.cut p s y ?_ (fun hy => ?_); (on_goal 1 => subst y); (on_goal 2 => clear_value y)) | intro y

theorem State.romKind_parts {p : Nat} {s x : State} (a1 : Nat) (hp : 0xfff87ffdf8 ||| p = p) (h : Fr p s x) : Fr p s (State.romKind x a1) := by
  unfold State.romKind
  with_reducible
    repeat' first
      | assumption | exact Fr.up (by decide) hp | apply State.kindChanged_parts
      | apply State.useImage_parts | lift_lets
      | (intro y; refine Fr.cut p s y ?_ (fun hy => ?_); (on_goal 1 => subst y); (on_goal 2 => clear_value y)) | intro y
      | apply Fr.mk_tabs

theorem execSafePoint_parts {s t : State} (a0 : Fin 10) (h : execSafePoint a0 s = .next t) : Fr 0xfff87ffdf8 s t := by
  unfold execSafePoint at h
  cases h
  have h := Fr.refl 0xfff87ffdf8 s
  have hp : 0xfff87ffdf8 ||| 0xfff87ffdf8 = 0xfff87ffdf8 := rfl
  with_reducible
    repeat' first
      | assumption | exact Fr.up (by decide) hp | apply State.romKind_parts
      | apply State.switchKind_parts | apply State.logged_parts | refine Fr.ite ?_ ?_ | refine fun y hy => ?_

theorem execSwitchDeferred_parts {s t : State} (a0 : Fin 10) (h : execSwitchDeferred a0 s = .next t) : Fr 0x8002010 s t := by
  unfold execSwitchDeferred at h
  cases h
  have h := Fr.refl 0x8002010 s
  have hp : 0x8002010 ||| 0x8002010 = 0x8002010 := rfl
  with_reducible
    repeat' first
      | assumption | exact Fr.up (by decide) hp | apply State.raise_parts | refine Fr.ite ?_ ?_
      | lift_lets | (intro y; refine Fr.cut _ s y ?_ (fun hy => ?_); (on_goal 1 => subst y); (on_goal 2 => clear_value y)) | intro y
      | apply Fr.mk_tabs

theorem execSequencerEvaluation_parts {s t : State} (a0 : Fin 5) (a1 : Bool) (h : execSequencerEvaluation a0 a1 s = .next t) : Fr 0xfff85ffdf8 s t := by
  unfold execSequencerEvaluation at h
  cases h
  have h := Fr.refl 0xfff85ffdf8 s
  have hp : 0xfff85ffdf8 ||| 0xfff85ffdf8 = 0xfff85ffdf8 := rfl
  with_reducible
    repeat' first
      | assumption | exact Fr.up (by decide) hp | apply State.seqEvaluate_parts
      | apply State.logged_parts | refine fun y hy => ?_

end Sys2Proof.Machine
end

