-- ==== Sys2Proof/Laws/PartsResetOps.lean ====
section
/-!
SUPPORT. PartsResetOps.lean: the footprint of every operation of Machine/ResetOps.lean.
-/
set_option linter.unusedTactic false
set_option linter.unreachableTactic false
set_option linter.unusedVariables false
namespace Sys2Proof.Machine

theorem State.clearBlocks_parts {p : Nat} {s x : State} (a1 : Bool) (hp : 0xbdb86c3800 ||| p = p) (h : Fr p s x) : Fr p s (State.clearBlocks x a1) := by
  unfold State.clearBlocks
  with_reducible
    repeat' first
      | assumption | exact Fr.up (by decide) hp | refine Fr.ite ?_ ?_ | lift_lets
      | (intro y; refine Fr.cut p s y ?_ (fun hy => ?_); (on_goal 1 => subst y); (on_goal 2 => clear_value y)) | intro y
      | apply Fr.mk_mode_src_col_meas_ring_thm_hz_tabs_env_chg_fab_seqs_wd_srv_can_note_uds

theorem State.flashFind_parts {p : Nat} {s x : State} (a1 : Nat) (hp : 0x20a102010 ||| p = p) (h : Fr p s x) : Fr p s (State.flashFind x a1) := by
  unfold State.flashFind
  with_reducible
    repeat' first
      | assumption | exact Fr.up (by decide) hp | apply State.wearObjs_parts | apply State.clearK_parts
      | apply State.raise1_parts | apply State.raise_parts | apply State.set_parts | refine Fr.ite ?_ ?_ | lift_lets
      | (intro y; refine Fr.cut p s y ?_ (fun hy => ?_); (on_goal 1 => subst y); (on_goal 2 => clear_value y)) | intro y
      | apply Fr.mk_archive_log_tabs_flash

theorem State.shellStart_parts {p : Nat} {s x : State} (a1 : Bool) (a2 : Nat) (hp : 0xbfba7c3910 ||| p = p) (h : Fr p s x) : Fr p s (State.shellStart x a1 a2) := by
  unfold State.shellStart
  with_reducible
    repeat' first
      | assumption | exact Fr.up (by decide) hp | apply State.flashFind_parts
      | apply State.clearBlocks_parts | apply State.resetObjs_parts | lift_lets
      | (intro y; refine Fr.cut p s y ?_ (fun hy => ?_); (on_goal 1 => subst y); (on_goal 2 => clear_value y)) | intro y | apply Fr.mk_aon

theorem State.retainedCheck_parts {p : Nat} {s x : State} (a1 : List Nat) (hp : 0x21c97810 ||| p = p) (h : Fr p s x) : Fr p s (State.retainedCheck x a1) := by
  unfold State.retainedCheck
  with_reducible
    repeat' first
      | assumption | exact Fr.up (by decide) hp | apply State.retainedInit_parts
      | apply State.raise_parts | apply State.tally_parts | refine Fr.foldl _ ?_ (fun y a hy => ?_)

theorem State.restoreValues_parts {p : Nat} {s x : State} (a1 : Bool) (hp : 0x10 ||| p = p) (h : Fr p s x) : Fr p s (State.restoreValues x a1) := by
  unfold State.restoreValues
  with_reducible
    repeat' first
      | assumption | exact Fr.up (by decide) hp | apply State.set_parts
      | refine Fr.foldl _ ?_ (fun y a hy => ?_) | refine Fr.ite ?_ ?_

theorem State.restoreCheck_parts {p : Nat} {s x : State} (hp : 0x4020f0 ||| p = p) (h : Fr p s x) : Fr p s (State.restoreCheck x) := by
  unfold State.restoreCheck
  with_reducible
    repeat' first
      | assumption | exact Fr.up (by decide) hp | apply State.tally_parts | apply State.set_parts
      | refine Fr.foldl _ ?_ (fun y a hy => ?_) | refine Fr.ite ?_ ?_ | lift_lets
      | (intro y; refine Fr.cut p s y ?_ (fun hy => ?_); (on_goal 1 => subst y); (on_goal 2 => clear_value y)) | intro y

theorem State.countResets_parts {p : Nat} {s x : State} (hp : 0x10110 ||| p = p) (h : Fr p s x) : Fr p s (State.countResets x) := by
  unfold State.countResets
  with_reducible
    repeat' first
      | assumption | exact Fr.up (by decide) hp | apply State.count_parts
      | refine Fr.foldl _ ?_ (fun y a hy => ?_) | lift_lets
      | (intro y; refine Fr.cut p s y ?_ (fun hy => ?_); (on_goal 1 => subst y); (on_goal 2 => clear_value y)) | intro y | apply Fr.mk_aon

theorem State.socRestored_parts {p : Nat} {s x : State} (hp : 0x10 ||| p = p) (h : Fr p s x) : Fr p s (State.socRestored x) := by
  unfold State.socRestored
  with_reducible
    repeat' first
      | assumption | exact Fr.up (by decide) hp | apply State.set_parts | refine Fr.ite ?_ ?_

theorem State.nodeRestore_parts {p : Nat} {s x : State} (hp : 0x80000010 ||| p = p) (h : Fr p s x) : Fr p s (State.nodeRestore x) := by
  unfold State.nodeRestore
  with_reducible
    repeat' first
      | assumption | exact Fr.up (by decide) hp | apply State.set_parts | refine Fr.ite ?_ ?_
      | lift_lets | (intro y; refine Fr.cut p s y ?_ (fun hy => ?_); (on_goal 1 => subst y); (on_goal 2 => clear_value y)) | intro y
      | apply Fr.mk_fab

theorem State.nodeEarly_parts {p : Nat} {s x : State} (hp : 0x80000010 ||| p = p) (h : Fr p s x) : Fr p s (State.nodeEarly x) := by
  unfold State.nodeEarly
  with_reducible
    repeat' first
      | assumption | exact Fr.up (by decide) hp | apply State.set_parts | refine Fr.ite ?_ ?_
      | lift_lets | (intro y; refine Fr.cut p s y ?_ (fun hy => ?_); (on_goal 1 => subst y); (on_goal 2 => clear_value y)) | intro y
      | apply Fr.mk_fab

theorem State.calRestore_parts {p : Nat} {s x : State} (hp : 0x10 ||| p = p) (h : Fr p s x) : Fr p s (State.calRestore x) := by
  unfold State.calRestore
  with_reducible
    repeat' first
      | assumption | exact Fr.up (by decide) hp | apply State.set_parts | refine Fr.ite ?_ ?_

theorem State.restoreBlocks_parts {p : Nat} {s x : State} (a1 : Bool) (hp : 0xc430c00010 ||| p = p) (h : Fr p s x) : Fr p s (State.restoreBlocks x a1) := by
  unfold State.restoreBlocks
  with_reducible
    repeat' first
      | assumption | exact Fr.up (by decide) hp | apply State.socRestored_parts
      | apply State.linCopies_parts | apply State.ceilingBoot_parts | refine Fr.ite ?_ ?_ | lift_lets
      | (intro y; refine Fr.cut p s y ?_ (fun hy => ?_); (on_goal 1 => subst y); (on_goal 2 => clear_value y)) | intro y
      | apply Fr.mk_env_wd | apply Fr.mk_hz_hour_chg_uds

theorem State.scanBoot_parts {p : Nat} {s x : State} (hp : 0x10 ||| p = p) (h : Fr p s x) : Fr p s (State.scanBoot x) := by
  unfold State.scanBoot
  with_reducible
    repeat' first
      | assumption | exact Fr.up (by decide) hp | apply State.set_parts
      | refine Fr.foldl _ ?_ (fun y a hy => ?_) | refine Fr.ite ?_ ?_ | lift_lets
      | (intro y; refine Fr.cut p s y ?_ (fun hy => ?_); (on_goal 1 => subst y); (on_goal 2 => clear_value y)) | intro y

theorem State.restore_parts {p : Nat} {s x : State} (a1 : Bool) (hp : 0xc6b0c121f0 ||| p = p) (h : Fr p s x) : Fr p s (State.restore x a1) := by
  unfold State.restore
  with_reducible
    repeat' first
      | assumption | exact Fr.up (by decide) hp | apply State.scanBoot_parts
      | apply State.restoreBlocks_parts | apply State.calRestore_parts | apply State.nodeRestore_parts | apply State.countResets_parts
      | apply State.restoreCheck_parts | apply State.restoreValues_parts | apply State.commitNow_parts | apply State.replayReport_parts
      | apply State.ordering_parts | apply State.packFirst_parts | lift_lets
      | (intro y; refine Fr.cut p s y ?_ (fun hy => ?_); (on_goal 1 => subst y); (on_goal 2 => clear_value y)) | intro y

theorem State.powerOnRelease_parts {p : Nat} {s x : State} (a1 : Nat) (hp : 0x318 ||| p = p) (h : Fr p s x) : Fr p s (State.powerOnRelease x a1) := by
  unfold State.powerOnRelease
  with_reducible
    repeat' first
      | assumption | exact Fr.up (by decide) hp | apply State.draw_parts | apply State.set_parts
      | refine Fr.ite ?_ ?_ | refine Fr.ite_snd ?_ ?_ | refine Fr.ite_trd ?_ ?_ | lift_lets
      | (intro y; refine Fr.cut p s y ?_ (fun hy => ?_); (on_goal 1 => subst y); (on_goal 2 => clear_value y)) | intro y | split
      | (refine Fr.snd_of ?_ (by assumption)) | (refine Fr.trd_of ?_ (by assumption)) | apply Fr.mk_aon_cell

theorem State.coreReset_parts {p : Nat} {s x : State} (a1 : Bool) (hp : 0xab79cb7df8 ||| p = p) (h : Fr p s x) : Fr p s (State.coreReset x a1) := by
  unfold State.coreReset
  with_reducible
    repeat' first
      | assumption | exact Fr.up (by decide) hp | apply State.haloUpdate_parts
      | apply State.shellAbsent_parts | apply State.otpBreak_parts | apply State.commitTorn_parts | apply State.set_parts
      | refine Fr.ite ?_ ?_ | lift_lets
      | (intro y; refine Fr.cut p s y ?_ (fun hy => ?_); (on_goal 1 => subst y); (on_goal 2 => clear_value y)) | intro y
      | apply Fr.mk_hz_hour_parkAcc | apply Fr.mk_aon_strat_col_env

theorem State.fabricSyncLost_parts {p : Nat} {s x : State} (hp : 0x2070 ||| p = p) (h : Fr p s x) : Fr p s (State.fabricSyncLost x) := by
  unfold State.fabricSyncLost
  with_reducible
    repeat' first
      | assumption | exact Fr.up (by decide) hp | apply State.syncLose_parts
      | refine Fr.foldl _ ?_ (fun y a hy => ?_) | refine Fr.ite ?_ ?_

theorem State.escalate_parts {p : Nat} {s x : State} (hp : 0x10a04e2570 ||| p = p) (h : Fr p s x) : Fr p s (State.escalate x) := by
  unfold State.escalate
  with_reducible
    repeat' first
      | assumption | exact Fr.up (by decide) hp | apply State.fabricSyncLost_parts
      | apply State.fabOff_parts | apply State.canOff_parts | apply State.balOff_parts | apply State.measStop_parts
      | apply State.set_parts | lift_lets
      | (intro y; refine Fr.cut p s y ?_ (fun hy => ?_); (on_goal 1 => subst y); (on_goal 2 => clear_value y)) | intro y
      | apply Fr.mk_aon_strat_otp_ring_hz

theorem State.resetRelease_parts {p : Nat} {s x : State} (a1 : Nat) (hp : 0x110 ||| p = p) (h : Fr p s x) : Fr p s (State.resetRelease x a1) := by
  unfold State.resetRelease
  with_reducible
    repeat' first
      | assumption | exact Fr.up (by decide) hp | apply State.set_parts | refine Fr.ite ?_ ?_
      | lift_lets | (intro y; refine Fr.cut p s y ?_ (fun hy => ?_); (on_goal 1 => subst y); (on_goal 2 => clear_value y)) | intro y
      | apply Fr.mk_aon

end Sys2Proof.Machine
end

