-- ==== Sys2Proof/Laws/PartsBringup.lean ====
section
/-!
SUPPORT. PartsBringup.lean: the footprint of every operation of Machine/Bringup.lean.
-/
set_option linter.unusedTactic false
set_option linter.unreachableTactic false
set_option linter.unusedVariables false
namespace Sys2Proof.Machine

theorem State.sampleStraps_parts {p : Nat} {s x : State} (a1 : Nat) (hp : 0x10 ||| p = p) (h : Fr p s x) : Fr p s (State.sampleStraps x a1) := by
  unfold State.sampleStraps
  with_reducible
    repeat' first
      | assumption | exact Fr.up (by decide) hp | apply State.set_parts | refine Fr.ite ?_ ?_
      | lift_lets | (intro y; refine Fr.cut p s y ?_ (fun hy => ?_); (on_goal 1 => subst y); (on_goal 2 => clear_value y)) | intro y

theorem State.stepFive_parts {p : Nat} {s x : State} (a1 : Nat) (a2 : List Nat) (hp : 0xbfbbfd7910 ||| p = p) (h : Fr p s x) : Fr p s (State.stepFive x a1 a2) := by
  unfold State.stepFive
  with_reducible
    repeat' first
      | assumption | exact Fr.up (by decide) hp | apply State.nodeEarly_parts
      | apply State.retainedCheck_parts | apply State.shellStart_parts | apply State.bootKick_parts | apply State.fabStart_parts
      | apply State.set_parts | refine Fr.ite ?_ ?_ | lift_lets
      | (intro y; refine Fr.cut p s y ?_ (fun hy => ?_); (on_goal 1 => subst y); (on_goal 2 => clear_value y)) | intro y | apply Fr.mk_fab

theorem State.bootBanks_parts {p : Nat} {s x : State} (hp : 0x88002010 ||| p = p) (h : Fr p s x) : Fr p s (State.bootBanks x) := by
  unfold State.bootBanks
  with_reducible
    repeat' first
      | assumption | exact Fr.up (by decide) hp | apply State.readBank_parts
      | apply State.activate_parts | apply State.bankGens_parts | apply State.raiseC_parts | refine Fr.ite ?_ ?_ | lift_lets
      | (intro y; refine Fr.cut p s y ?_ (fun hy => ?_); (on_goal 1 => subst y); (on_goal 2 => clear_value y)) | intro y | apply Fr.mk_fab

theorem State.stepSix_parts {p : Nat} {s x : State} (hp : 0xc6b8c121f0 ||| p = p) (h : Fr p s x) : Fr p s (State.stepSix x) := by
  unfold State.stepSix
  with_reducible
    repeat' first
      | assumption | exact Fr.up (by decide) hp | apply State.bootBanks_parts
      | apply State.restore_parts | apply State.loadBanks_parts | apply State.set_parts | refine Fr.ite ?_ ?_ | lift_lets
      | (intro y; refine Fr.cut p s y ?_ (fun hy => ?_); (on_goal 1 => subst y); (on_goal 2 => clear_value y)) | intro y | split

theorem State.vauxCatchUp_parts {p : Nat} {s x : State} (hp : 0x12110 ||| p = p) (h : Fr p s x) : Fr p s (State.vauxCatchUp x) := by
  unfold State.vauxCatchUp
  with_reducible
    repeat' first
      | assumption | exact Fr.up (by decide) hp | apply State.clearK_parts | apply State.raise1_parts
      | apply State.count_parts | refine Fr.ite ?_ ?_ | lift_lets
      | (intro y; refine Fr.cut p s y ?_ (fun hy => ?_); (on_goal 1 => subst y); (on_goal 2 => clear_value y)) | intro y | apply Fr.mk_aon

theorem State.directEnd_parts {p : Nat} {s x : State} (hp : 0x2110 ||| p = p) (h : Fr p s x) : Fr p s (State.directEnd x) := by
  unfold State.directEnd
  with_reducible
    repeat' first
      | assumption | exact Fr.up (by decide) hp | apply State.raise_parts | refine Fr.ite ?_ ?_
      | lift_lets | (intro y; refine Fr.cut p s y ?_ (fun hy => ?_); (on_goal 1 => subst y); (on_goal 2 => clear_value y)) | intro y
      | apply Fr.mk_aon

theorem State.countN_parts {p : Nat} {s x : State} (a1 : Nat) (a2 : Nat) (hp : 0x10010 ||| p = p) (h : Fr p s x) : Fr p s (State.countN x a1 a2) := by
  unfold State.countN
  with_reducible
    repeat' first
      | assumption | exact Fr.up (by decide) hp | apply State.count_parts
      | refine Fr.foldl _ ?_ (fun y a hy => ?_)

theorem State.countTrips_parts {p : Nat} {s x : State} (hp : 0x10110 ||| p = p) (h : Fr p s x) : Fr p s (State.countTrips x) := by
  unfold State.countTrips
  with_reducible
    repeat' first
      | assumption | exact Fr.up (by decide) hp | apply State.countN_parts | lift_lets
      | (intro y; refine Fr.cut p s y ?_ (fun hy => ?_); (on_goal 1 => subst y); (on_goal 2 => clear_value y)) | intro y | apply Fr.mk_aon

theorem State.linObjects_parts {p : Nat} {s x : State} (hp : 0x4000010010 ||| p = p) (h : Fr p s x) : Fr p s (State.linObjects x) := by
  unfold State.linObjects
  with_reducible
    repeat' first
      | assumption | exact Fr.up (by decide) hp | apply State.put_parts
      | refine Fr.foldl _ ?_ (fun y a hy => ?_) | refine Fr.ite ?_ ?_ | lift_lets
      | (intro y; refine Fr.cut p s y ?_ (fun hy => ?_); (on_goal 1 => subst y); (on_goal 2 => clear_value y)) | intro y | apply Fr.mk_lin

theorem State.overcastStop_parts {p : Nat} {s x : State} (hp : 0xfff85ffdf8 ||| p = p) (h : Fr p s x) : Fr p s (State.overcastStop x) := by
  unfold State.overcastStop
  with_reducible
    repeat' first
      | assumption | exact Fr.up (by decide) hp | apply State.linObjects_parts
      | apply State.countTrips_parts | apply State.directEnd_parts | apply State.measStart_parts | apply State.seqStart_parts
      | apply State.wdStart_parts | apply State.haloUpdate_parts | apply State.setMode_parts | apply State.hzMode_parts
      | apply State.set_parts | refine Fr.ite ?_ ?_ | lift_lets
      | (intro y; refine Fr.cut p s y ?_ (fun hy => ?_); (on_goal 1 => subst y); (on_goal 2 => clear_value y)) | intro y
      | apply Fr.mk_aon_strat_col

theorem State.linkPorts_parts {p : Nat} {s x : State} (hp : 0x500120f0 ||| p = p) (h : Fr p s x) : Fr p s (State.linkPorts x) := by
  unfold State.linkPorts
  with_reducible
    repeat' first
      | assumption | exact Fr.up (by decide) hp | apply State.linkEnable_parts
      | refine Fr.foldl _ ?_ (fun y a hy => ?_) | refine Fr.ite ?_ ?_

theorem State.stepSeven_parts {p : Nat} {s x : State} (hp : 0xfff85ffdf8 ||| p = p) (h : Fr p s x) : Fr p s (State.stepSeven x) := by
  unfold State.stepSeven
  with_reducible
    repeat' first
      | assumption | exact Fr.up (by decide) hp | apply State.linkPorts_parts
      | apply State.overcastStop_parts | apply State.vauxCatchUp_parts | apply State.envEnable_parts | apply State.canInit_parts
      | apply State.fabStart_parts | apply State.set_parts | refine Fr.foldl _ ?_ (fun y a hy => ?_) | refine Fr.ite ?_ ?_ | lift_lets
      | (intro y; refine Fr.cut p s y ?_ (fun hy => ?_); (on_goal 1 => subst y); (on_goal 2 => clear_value y)) | intro y
      | apply Fr.mk_ring

theorem State.holdIfNew_parts {p : Nat} {s x : State} (a1 : Nat) (a2 : Nat) (hp : 0x20f0 ||| p = p) (h : Fr p s x) : Fr p s (State.holdIfNew x a1 a2) := by
  unfold State.holdIfNew
  with_reducible
    repeat' first
      | assumption | exact Fr.up (by decide) hp | apply State.portWord_parts | refine Fr.ite ?_ ?_

theorem State.handoverLatches_parts {p : Nat} {s x : State} (a1 : Bool) (hp : 0x20f0 ||| p = p) (h : Fr p s x) : Fr p s (State.handoverLatches x a1) := by
  unfold State.handoverLatches
  with_reducible
    repeat' first
      | assumption | exact Fr.up (by decide) hp | apply State.holdIfNew_parts
      | apply State.portWord_parts | refine Fr.foldl _ ?_ (fun y a hy => ?_) | refine Fr.ite ?_ ?_

theorem State.handoverGroup_parts {p : Nat} {s x : State} (a1 : Bool) (a2 : Group) (hp : 0x20f0 ||| p = p) (h : Fr p s x) : Fr p s (State.handoverGroup x a1 a2) := by
  unfold State.handoverGroup
  with_reducible
    repeat' first
      | assumption | exact Fr.up (by decide) hp | apply State.holdIfNew_parts
      | apply State.writeGroup_parts | apply State.portWord_parts | apply State.coreRaiseC_parts | refine Fr.foldl _ ?_ (fun y a hy => ?_)
      | refine Fr.ite ?_ ?_ | lift_lets
      | (intro y; refine Fr.cut p s y ?_ (fun hy => ?_); (on_goal 1 => subst y); (on_goal 2 => clear_value y)) | intro y

theorem State.handoverWords_parts {p : Nat} {s x : State} (a1 : Bool) (hp : 0x24f0 ||| p = p) (h : Fr p s x) : Fr p s (State.handoverWords x a1) := by
  unfold State.handoverWords
  with_reducible
    repeat' first
      | assumption | exact Fr.up (by decide) hp | apply State.handoverGroup_parts
      | apply State.handoverLatches_parts | apply State.handoverWord_parts | refine Fr.foldl _ ?_ (fun y a hy => ?_) | refine Fr.ite ?_ ?_
      | refine Fr.ite_snd ?_ ?_ | refine Fr.ite_trd ?_ ?_ | refine fun y hy => ?_ | lift_lets
      | (intro y; refine Fr.cut p s y ?_ (fun hy => ?_); (on_goal 1 => subst y); (on_goal 2 => clear_value y)) | intro y | split
      | (refine Fr.snd_of ?_ (by assumption)) | (refine Fr.trd_of ?_ (by assumption)) | apply Fr.mk_core

theorem State.takeBacklog_parts {p : Nat} {s x : State} (hp : 0x82120 ||| p = p) (h : Fr p s x) : Fr p s (State.takeBacklog x) := by
  unfold State.takeBacklog
  with_reducible
    repeat' first
      | assumption | exact Fr.up (by decide) hp | lift_lets
      | (intro y; refine Fr.cut p s y ?_ (fun hy => ?_); (on_goal 1 => subst y); (on_goal 2 => clear_value y)) | intro y
      | apply Fr.mk_core_aon_col_ring

theorem State.stratusEnd_parts {p : Nat} {s x : State} (hp : 0x12010 ||| p = p) (h : Fr p s x) : Fr p s (State.stratusEnd x) := by
  unfold State.stratusEnd
  with_reducible
    repeat' first
      | assumption | exact Fr.up (by decide) hp | apply State.raise_parts | apply State.count_parts
      | apply State.put_parts | apply State.set_parts | refine Fr.ite ?_ ?_ | lift_lets
      | (intro y; refine Fr.cut p s y ?_ (fun hy => ?_); (on_goal 1 => subst y); (on_goal 2 => clear_value y)) | intro y

theorem State.raiseMissed_parts {p : Nat} {s x : State} (a1 : Nat) (a2 : Nat) (a3 : Nat) (a4 : Nat) (a5 : Nat) (hp : 0x6030 ||| p = p) (h : Fr p s x) : Fr p s (State.raiseMissed x a1 a2 a3 a4 a5) := by
  unfold State.raiseMissed
  with_reducible
    repeat' first
      | assumption | exact Fr.up (by decide) hp | apply State.again_parts | apply State.send_parts
      | refine Fr.foldl _ ?_ (fun y a hy => ?_) | refine Fr.ite ?_ ?_

theorem State.raiseN_parts {p : Nat} {s x : State} (a1 : Nat) (a2 : Nat) (a3 : Nat) (a4 : Nat) (hp : 0x6030 ||| p = p) (h : Fr p s x) : Fr p s (State.raiseN x a1 a2 a3 a4) := by
  unfold State.raiseN
  with_reducible
    repeat' first
      | assumption | exact Fr.up (by decide) hp | apply State.again_parts | apply State.raise_parts
      | refine Fr.foldl _ ?_ (fun y a hy => ?_) | refine Fr.ite ?_ ?_

theorem State.lossN_parts {p : Nat} {s x : State} (a1 : Nat) (a2 : Nat) (hp : 0x10012010 ||| p = p) (h : Fr p s x) : Fr p s (State.lossN x a1 a2) := by
  unfold State.lossN
  with_reducible
    repeat' first
      | assumption | exact Fr.up (by decide) hp | apply State.sourceLoss_parts
      | refine Fr.foldl _ ?_ (fun y a hy => ?_)

theorem State.missedSource_parts {p : Nat} {s x : State} (hp : 0x10817030 ||| p = p) (h : Fr p s x) : Fr p s (State.missedSource x) := by
  unfold State.missedSource
  with_reducible
    repeat' first
      | assumption | exact Fr.up (by decide) hp | apply State.lossN_parts | apply State.raiseN_parts
      | apply State.raiseMissed_parts | apply State.countN_parts | apply State.longestNow_parts | lift_lets
      | (intro y; refine Fr.cut p s y ?_ (fun hy => ?_); (on_goal 1 => subst y); (on_goal 2 => clear_value y)) | intro y
      | apply Fr.mk_src_hour

theorem State.sourceNow_parts {p : Nat} {s x : State} (hp : 0x3bf04dbdf0 ||| p = p) (h : Fr p s x) : Fr p s (State.sourceNow x) := by
  unfold State.sourceNow
  with_reducible
    repeat' first
      | assumption | exact Fr.up (by decide) hp | apply State.detach_parts
      | apply State.classStart_parts | apply State.srcState_parts | refine Fr.ite ?_ ?_ | lift_lets
      | (intro y; refine Fr.cut p s y ?_ (fun hy => ?_); (on_goal 1 => subst y); (on_goal 2 => clear_value y)) | intro y | apply Fr.mk_src

theorem State.linkTripped_parts {p : Nat} {s x : State} (a1 : Port) (hp : 0xd00120f0 ||| p = p) (h : Fr p s x) : Fr p s (State.linkTripped x a1) := by
  unfold State.linkTripped
  with_reducible
    repeat' first
      | assumption | exact Fr.up (by decide) hp | apply State.detachFree_parts
      | apply State.toRamp_parts | apply State.toNeutral_parts | refine Fr.ite ?_ ?_

theorem State.linkReset_parts {p : Nat} {s x : State} (a1 : Port) (a2 : Option Nat) (hp : 0x500120f0 ||| p = p) (h : Fr p s x) : Fr p s (State.linkReset x a1 a2) := by
  unfold State.linkReset
  with_reducible
    repeat' first
      | assumption | exact Fr.up (by decide) hp | apply State.onHardReset_parts | refine Fr.ite ?_ ?_
      | split

theorem State.linkMoved_parts {p : Nat} {s x : State} (a1 : Port) (hp : 0x3bf04dbdf0 ||| p = p) (h : Fr p s x) : Fr p s (State.linkMoved x a1) := by
  unfold State.linkMoved
  with_reducible
    repeat' first
      | assumption | exact Fr.up (by decide) hp | apply State.pulled_parts | apply State.peerBit_parts
      | apply State.sensedStep_parts | apply State.toNeutral_parts | apply State.linkZ_parts | apply State.setLink_parts
      | apply State.modL_parts | apply State.raise_parts | refine Fr.ite ?_ ?_ | lift_lets
      | (intro y; refine Fr.cut p s y ?_ (fun hy => ?_); (on_goal 1 => subst y); (on_goal 2 => clear_value y)) | intro y

theorem State.linkNow_parts {p : Nat} {s x : State} (a1 : Port) (a2 : Bool) (hp : 0x3bf04dbdf0 ||| p = p) (h : Fr p s x) : Fr p s (State.linkNow x a1 a2) := by
  unfold State.linkNow
  with_reducible
    repeat' first
      | assumption | exact Fr.up (by decide) hp | apply State.linkMoved_parts
      | apply State.linkReset_parts | apply State.linkTripped_parts | apply State.modL_parts | refine Fr.ite ?_ ?_ | lift_lets
      | (intro y; refine Fr.cut p s y ?_ (fun hy => ?_); (on_goal 1 => subst y); (on_goal 2 => clear_value y)) | intro y

theorem State.vauxHandover_parts {p : Nat} {s x : State} (hp : 0x6812110 ||| p = p) (h : Fr p s x) : Fr p s (State.vauxHandover x) := by
  unfold State.vauxHandover
  with_reducible
    repeat' first
      | assumption | exact Fr.up (by decide) hp | apply State.vauxCatchUp_parts
      | apply State.commitStart_parts | apply State.hourRecord_parts | refine Fr.ite ?_ ?_

theorem State.packAgain_parts {p : Nat} {s x : State} (hp : 0x3bf04dbdf0 ||| p = p) (h : Fr p s x) : Fr p s (State.packAgain x) := by
  unfold State.packAgain
  with_reducible
    repeat' first
      | assumption | exact Fr.up (by decide) hp | apply State.packSeen_parts
      | apply State.cellReport_parts | apply State.zoneUpdate_parts | refine Fr.ite ?_ ?_ | lift_lets
      | (intro y; refine Fr.cut p s y ?_ (fun hy => ?_); (on_goal 1 => subst y); (on_goal 2 => clear_value y)) | intro y | apply Fr.mk_chg

theorem State.recordsAgain_parts {p : Nat} {s x : State} (hp : 0x4000 ||| p = p) (h : Fr p s x) : Fr p s (State.recordsAgain x) := by
  unfold State.recordsAgain
  with_reducible
    repeat' first
      | assumption | exact Fr.up (by decide) hp | refine Fr.ite ?_ ?_ | lift_lets
      | (intro y; refine Fr.cut p s y ?_ (fun hy => ?_); (on_goal 1 => subst y); (on_goal 2 => clear_value y)) | intro y
      | apply Fr.mk_recs

theorem State.catchUp_parts {p : Nat} {s x : State} (hp : 0x7bf6cdfdf0 ||| p = p) (h : Fr p s x) : Fr p s (State.catchUp x) := by
  unfold State.catchUp
  with_reducible
    repeat' first
      | assumption | exact Fr.up (by decide) hp | apply State.recordsAgain_parts
      | apply State.packAgain_parts | apply State.vauxHandover_parts | apply State.linkNow_parts | apply State.sourceNow_parts
      | apply State.missedSource_parts | apply State.stratusEnd_parts | apply State.takeBacklog_parts | apply State.linObjects_parts
      | apply State.countTrips_parts | apply State.packLostShell_parts | apply State.linShorted_parts | apply State.commitStart_parts
      | refine Fr.ite ?_ ?_ | lift_lets
      | (intro y; refine Fr.cut p s y ?_ (fun hy => ?_); (on_goal 1 => subst y); (on_goal 2 => clear_value y)) | intro y
      | apply Fr.mk_meas | apply Fr.mk_chg

theorem State.blocksStart_parts {p : Nat} {s x : State} (hp : 0xfff85ffdf8 ||| p = p) (h : Fr p s x) : Fr p s (State.blocksStart x) := by
  unfold State.blocksStart
  with_reducible
    repeat' first
      | assumption | exact Fr.up (by decide) hp | apply State.measStart_parts
      | apply State.seqStart_parts | apply State.wdStart_parts | refine Fr.ite ?_ ?_ | lift_lets
      | (intro y; refine Fr.cut p s y ?_ (fun hy => ?_); (on_goal 1 => subst y); (on_goal 2 => clear_value y)) | intro y

theorem State.leasesStart_parts {p : Nat} {s x : State} (hp : 0x800 ||| p = p) (h : Fr p s x) : Fr p s (State.leasesStart x) := by
  unfold State.leasesStart
  with_reducible
    repeat' first
      | assumption | exact Fr.up (by decide) hp | lift_lets
      | (intro y; refine Fr.cut p s y ?_ (fun hy => ?_); (on_goal 1 => subst y); (on_goal 2 => clear_value y)) | intro y
      | apply Fr.mk_mode

theorem State.serviceHold_parts {p : Nat} {s x : State} (hp : 0x20f04128f0 ||| p = p) (h : Fr p s x) : Fr p s (State.serviceHold x) := by
  unfold State.serviceHold
  with_reducible
    repeat' first
      | assumption | exact Fr.up (by decide) hp | apply State.toService_parts | lift_lets
      | (intro y; refine Fr.cut p s y ?_ (fun hy => ?_); (on_goal 1 => subst y); (on_goal 2 => clear_value y)) | intro y
      | apply Fr.mk_mode

theorem State.groupsHold_parts {p : Nat} {s x : State} (hp : 0xc0 ||| p = p) (h : Fr p s x) : Fr p s (State.groupsHold x) := by
  unfold State.groupsHold
  with_reducible
    repeat' first
      | assumption | exact Fr.up (by decide) hp | apply State.stopG_parts
      | refine Fr.foldl _ ?_ (fun y a hy => ?_)

theorem State.holdStart_parts {p : Nat} {s x : State} (hp : 0x800 ||| p = p) (h : Fr p s x) : Fr p s (State.holdStart x) := by
  unfold State.holdStart
  with_reducible
    repeat' first
      | assumption | exact Fr.up (by decide) hp | lift_lets
      | (intro y; refine Fr.cut p s y ?_ (fun hy => ?_); (on_goal 1 => subst y); (on_goal 2 => clear_value y)) | intro y
      | apply Fr.mk_mode

theorem State.orderBack_parts {p : Nat} {s x : State} (hp : 0x28f0 ||| p = p) (h : Fr p s x) : Fr p s (State.orderBack x) := by
  unfold State.orderBack
  with_reducible
    repeat' first
      | assumption | exact Fr.up (by decide) hp | apply State.portIfNew_parts | refine Fr.ite ?_ ?_
      | lift_lets | (intro y; refine Fr.cut p s y ?_ (fun hy => ?_); (on_goal 1 => subst y); (on_goal 2 => clear_value y)) | intro y
      | apply Fr.mk_mode

theorem State.groupsGo_parts {p : Nat} {s x : State} (hp : 0x40 ||| p = p) (h : Fr p s x) : Fr p s (State.groupsGo x) := by
  unfold State.groupsGo
  with_reducible
    repeat' first
      | assumption | exact Fr.up (by decide) hp | apply State.freeG_parts
      | refine Fr.foldl _ ?_ (fun y a hy => ?_)

theorem State.handoverMode_parts {p : Nat} {s x : State} (hp : 0x39f04dbdf0 ||| p = p) (h : Fr p s x) : Fr p s (State.handoverMode x) := by
  unfold State.handoverMode
  with_reducible
    repeat' first
      | assumption | exact Fr.up (by decide) hp | apply State.groupsGo_parts
      | apply State.orderBack_parts | apply State.serviceHold_parts | apply State.act_parts | apply State.toService_parts
      | apply State.setMode_parts | apply State.set_parts | refine Fr.ite ?_ ?_ | lift_lets
      | (intro y; refine Fr.cut p s y ?_ (fun hy => ?_); (on_goal 1 => subst y); (on_goal 2 => clear_value y)) | intro y
      | apply Fr.mk_mode

theorem State.bringEnd_parts {p : Nat} {s x : State} (a1 : Nat) (a2 : Nat) (hp : 0xf9f74dbdf0 ||| p = p) (h : Fr p s x) : Fr p s (State.bringEnd x a1 a2) := by
  unfold State.bringEnd
  with_reducible
    repeat' first
      | assumption | exact Fr.up (by decide) hp | apply State.groupsGo_parts
      | apply State.orderBack_parts | apply State.holdStart_parts | apply State.linkPorts_parts | apply State.linObjects_parts
      | apply State.linShorted_parts | apply State.haloUpdate_parts | apply State.dtcCycle_parts | apply State.act_parts
      | apply State.setMode_parts | apply State.parkRecord_parts | apply State.set_parts | refine Fr.ite ?_ ?_ | lift_lets
      | (intro y; refine Fr.cut p s y ?_ (fun hy => ?_); (on_goal 1 => subst y); (on_goal 2 => clear_value y)) | intro y
      | apply Fr.mk_mode

theorem State.handoverEnd_parts {p : Nat} {s x : State} (a1 : Nat) (a2 : Bool) (hp : 0xffff5ffdf8 ||| p = p) (h : Fr p s x) : Fr p s (State.handoverEnd x a1 a2) := by
  unfold State.handoverEnd
  with_reducible
    repeat' first
      | assumption | exact Fr.up (by decide) hp | apply State.bringEnd_parts
      | apply State.handoverMode_parts | apply State.holdStart_parts | apply State.groupsHold_parts | apply State.leasesStart_parts
      | apply State.blocksStart_parts | apply State.haloUpdate_parts | apply State.stepNine_parts | refine Fr.ite ?_ ?_ | lift_lets
      | (intro y; refine Fr.cut p s y ?_ (fun hy => ?_); (on_goal 1 => subst y); (on_goal 2 => clear_value y)) | intro y

theorem State.handoverTake_parts {p : Nat} {s x : State} (a1 : Nat) (a2 : Bool) (hp : 0x7bf6cdfdf0 ||| p = p) (h : Fr p s x) : Fr p s (State.handoverTake x a1 a2) := by
  unfold State.handoverTake
  with_reducible
    repeat' first
      | assumption | exact Fr.up (by decide) hp | apply State.catchUp_parts
      | apply State.directEnd_parts | apply State.set_parts | refine Fr.ite ?_ ?_ | lift_lets
      | (intro y; refine Fr.cut p s y ?_ (fun hy => ?_); (on_goal 1 => subst y); (on_goal 2 => clear_value y)) | intro y
      | apply Fr.mk_strat

theorem State.handoverHeld_parts {p : Nat} {s x : State} (a1 : Bool) (hp : 0x3cf0 ||| p = p) (h : Fr p s x) : Fr p s (State.handoverHeld x a1) := by
  unfold State.handoverHeld
  with_reducible
    repeat' first
      | assumption | exact Fr.up (by decide) hp | apply State.handoverWords_parts
      | apply State.set_parts | refine Fr.ite ?_ ?_ | lift_lets
      | (intro y; refine Fr.cut p s y ?_ (fun hy => ?_); (on_goal 1 => subst y); (on_goal 2 => clear_value y)) | intro y
      | apply Fr.mk_strat_mode_src

theorem State.handover_parts {p : Nat} {s x : State} (a1 : Nat) (hp : 0xffffdffdf8 ||| p = p) (h : Fr p s x) : Fr p s (State.handover x a1) := by
  unfold State.handover
  with_reducible
    repeat' first
      | assumption | exact Fr.up (by decide) hp | apply State.handoverHeld_parts
      | apply State.handoverTake_parts | apply State.handoverEnd_parts | lift_lets
      | (intro y; refine Fr.cut p s y ?_ (fun hy => ?_); (on_goal 1 => subst y); (on_goal 2 => clear_value y)) | intro y

theorem State.stepTen_parts {p : Nat} {s x : State} (hp : 0x3bf04dbdf0 ||| p = p) (h : Fr p s x) : Fr p s (State.stepTen x) := by
  unfold State.stepTen
  with_reducible
    repeat' first
      | assumption | exact Fr.up (by decide) hp | apply State.enterStorage_parts
      | apply State.commitNow_parts | apply State.portIfNew_parts | apply State.raise_parts | apply State.freeG_parts
      | apply State.set_parts | refine Fr.ite ?_ ?_ | lift_lets
      | (intro y; refine Fr.cut p s y ?_ (fun hy => ?_); (on_goal 1 => subst y); (on_goal 2 => clear_value y)) | intro y
      | apply Fr.mk_mode

theorem State.clockLocked_parts {p : Nat} {s x t : State} (e : x.clockLocked = some t) (hp : 0x110 ||| p = p) (h : Fr p s x) : Fr p s t := by
  unfold State.clockLocked at e
  dsimp only at e
  split at e
  · split at e
    · cases e
    · cases e
      exact h
  · rw [Option.map_eq_some_iff] at e
    obtain ⟨n, _, e⟩ := e
    cases e
    exact State.set_parts _ _ (Fr.up rfl hp) (Fr.mk_aon h (Fr.up rfl hp))

theorem State.bringStep_parts {p : Nat} {s x : State} (a b c : Nat) (d : List Nat) (hp : 0xfffffffdf8 ||| p = p) (h : Fr p s x) : Fr p s (x.bringStep a b c d) := by
  unfold State.bringStep
  have h16 : 16 ||| p = p := Fr.up rfl hp
  split
  · exact State.set_parts _ _ h16 h
  · exact State.set_parts _ _ h16 (State.otpSense_parts _ (Fr.up rfl hp) h)
  · exact State.set_parts _ _ h16 (Fr.ite h (State.sampleStraps_parts _ (Fr.up rfl hp) h))
  · split
    · rename_i e
      exact State.set_parts _ _ h16 (State.clockLocked_parts e (Fr.up rfl hp) h)
    · exact h
  · exact State.stepFive_parts _ _ (Fr.up rfl hp) h
  · exact State.stepSix_parts (Fr.up rfl hp) h
  · exact State.stepSeven_parts (Fr.up rfl hp) h
  · exact Fr.ite (State.stepTen_parts (Fr.up rfl hp) h) h
  · exact Fr.ite h (State.set_parts _ _ h16 h)
  · exact Fr.ite h (State.bringEnd_parts _ _ (Fr.up rfl hp) h)
  · exact h

end Sys2Proof.Machine
end

