-- ==== Sys2Proof/Laws/PartsReset.lean ====
section
/-!
SUPPORT. PartsReset.lean: the footprint of every operation of Machine/Reset.lean.
-/
set_option linter.unusedTactic false
set_option linter.unreachableTactic false
set_option linter.unusedVariables false
namespace Sys2Proof.Machine

theorem execPowerOnResetRelease_parts {s t : State} (a0 : Nat) (h : execPowerOnResetRelease a0 s = .next t) : Fr 0x318 s t := by
  unfold execPowerOnResetRelease at h
  cases h
  have h := Fr.refl 0x318 s
  have hp : 0x318 ||| 0x318 = 0x318 := rfl
  with_reducible
    repeat' first
      | assumption | exact Fr.up (by decide) hp | apply State.powerOnRelease_parts
      | refine Fr.ite ?_ ?_

theorem State.vauxShell_parts {p : Nat} {s x : State} (a1 : Nat) (hp : 0x6812010 ||| p = p) (h : Fr p s x) : Fr p s (State.vauxShell x a1) := by
  unfold State.vauxShell
  with_reducible
    repeat' first
      | assumption | exact Fr.up (by decide) hp | apply State.commitStart_parts
      | apply State.hourRecord_parts | apply State.raise1_parts | apply State.count_parts | refine Fr.ite ?_ ?_ | lift_lets
      | (intro y; refine Fr.cut p s y ?_ (fun hy => ?_); (on_goal 1 => subst y); (on_goal 2 => clear_value y)) | intro y

theorem State.vauxWarn_parts {p : Nat} {s x : State} (a1 : Nat) (hp : 0x6812110 ||| p = p) (h : Fr p s x) : Fr p s (State.vauxWarn x a1) := by
  unfold State.vauxWarn
  with_reducible
    repeat' first
      | assumption | exact Fr.up (by decide) hp | apply State.vauxShell_parts | apply State.set_parts
      | refine Fr.ite ?_ ?_ | lift_lets
      | (intro y; refine Fr.cut p s y ?_ (fun hy => ?_); (on_goal 1 => subst y); (on_goal 2 => clear_value y)) | intro y | apply Fr.mk_aon

theorem execVauxWarning_parts {s t : State} (a0 : Nat) (h : execVauxWarning a0 s = .next t) : Fr 0x6812110 s t := by
  unfold execVauxWarning at h
  cases h
  have h := Fr.refl 0x6812110 s
  have hp : 0x6812110 ||| 0x6812110 = 0x6812110 := rfl
  with_reducible
    repeat' first
      | assumption | exact Fr.up (by decide) hp | apply State.vauxWarn_parts | refine Fr.ite ?_ ?_

theorem execVauxWarningClear_parts {s t : State} (h : execVauxWarningClear s = .next t) : Fr 0x2010 s t := by
  unfold execVauxWarningClear at h
  cases h
  have h := Fr.refl 0x2010 s
  have hp : 0x2010 ||| 0x2010 = 0x2010 := rfl
  with_reducible
    repeat' first
      | assumption | exact Fr.up (by decide) hp | apply State.clearK_parts | apply State.set_parts
      | refine Fr.ite ?_ ?_

theorem execNrstCoreReset_parts {s t : State} (a0 : Bool) (h : execNrstCoreReset a0 s = .next t) : Fr 0xab79cb7df8 s t := by
  unfold execNrstCoreReset at h
  cases h
  have h := Fr.refl 0xab79cb7df8 s
  have hp : 0xab79cb7df8 ||| 0xab79cb7df8 = 0xab79cb7df8 := rfl
  with_reducible
    repeat' first
      | assumption | exact Fr.up (by decide) hp | apply State.coreReset_parts
      | apply State.logged_parts | refine Fr.ite ?_ ?_ | refine fun y hy => ?_

theorem execNrstEscalation_parts {s t : State} (h : execNrstEscalation s = .next t) : Fr 0x10a04e2570 s t := by
  unfold execNrstEscalation at h
  cases h
  have h := Fr.refl 0x10a04e2570 s
  have hp : 0x10a04e2570 ||| 0x10a04e2570 = 0x10a04e2570 := rfl
  with_reducible
    repeat' first
      | assumption | exact Fr.up (by decide) hp | apply State.escalate_parts | apply State.logged_parts
      | refine Fr.ite ?_ ?_ | refine fun y hy => ?_

theorem execResetRelease_parts {s t : State} (a0 : Nat) (h : execResetRelease a0 s = .next t) : Fr 0x110 s t := by
  unfold execResetRelease at h
  cases h
  have h := Fr.refl 0x110 s
  have hp : 0x110 ||| 0x110 = 0x110 := rfl
  with_reducible
    repeat' first
      | assumption | exact Fr.up (by decide) hp | apply State.resetRelease_parts | refine Fr.ite ?_ ?_

theorem execNrstDriveEnd_parts {s t : State} (h : execNrstDriveEnd s = .next t) : Fr 0x100 s t := by
  unfold execNrstDriveEnd at h
  cases h
  have h := Fr.refl 0x100 s
  have hp : 0x100 ||| 0x100 = 0x100 := rfl
  with_reducible
    repeat' first
      | assumption | exact Fr.up (by decide) hp | lift_lets
      | (intro y; refine Fr.cut _ s y ?_ (fun hy => ?_); (on_goal 1 => subst y); (on_goal 2 => clear_value y)) | intro y | apply Fr.mk_aon

theorem execBringupStepComplete_parts {s t : State} (a0 : Nat) (a1 : Nat) (a2 : Nat) (a3 : List Nat) (h : execBringupStepComplete a0 a1 a2 a3 s = .next t) : Fr 0xfffffffdf8 s t := by
  unfold execBringupStepComplete at h
  cases h
  have h := Fr.refl 0xfffffffdf8 s
  have hp : 0xfffffffdf8 ||| 0xfffffffdf8 = 0xfffffffdf8 := rfl
  with_reducible
    repeat' first
      | assumption | exact Fr.up (by decide) hp | apply State.bringStep_parts
      | apply State.logged_parts | refine Fr.ite ?_ ?_ | refine fun y hy => ?_

theorem State.overcastReturn_parts {p : Nat} {s x : State} (hp : 0x89dec92df0 ||| p = p) (h : Fr p s x) : Fr p s (State.overcastReturn x) := by
  unfold State.overcastReturn
  with_reducible
    repeat' first
      | assumption | exact Fr.up (by decide) hp | apply State.vauxHandover_parts
      | apply State.takeBacklog_parts | apply State.haloUpdate_parts | apply State.overcastShell_parts | apply State.hzMode_parts
      | lift_lets | (intro y; refine Fr.cut p s y ?_ (fun hy => ?_); (on_goal 1 => subst y); (on_goal 2 => clear_value y)) | intro y
      | apply Fr.mk_strat

theorem execCoreHandover_parts {s t : State} (a0 : Nat) (h : execCoreHandover a0 s = .next t) : Fr 0xffffdffdf8 s t := by
  unfold execCoreHandover at h
  cases h
  have h := Fr.refl 0xffffdffdf8 s
  have hp : 0xffffdffdf8 ||| 0xffffdffdf8 = 0xffffdffdf8 := rfl
  with_reducible
    repeat' first
      | assumption | exact Fr.up (by decide) hp | apply State.overcastReturn_parts
      | apply State.handover_parts | apply State.logged_parts | refine Fr.ite ?_ ?_ | refine fun y hy => ?_

end Sys2Proof.Machine
end

