-- ==== Sys2Proof/Laws/PartsModes.lean ====
section
/-!
SUPPORT. PartsModes.lean: the footprint of every operation of Machine/Modes.lean.
-/
set_option linter.unusedTactic false
set_option linter.unreachableTactic false
set_option linter.unusedVariables false
namespace Sys2Proof.Machine

theorem execWakePin_parts {s t : State} (h : execWakePin s = .next t) : Fr 0x4000000910 s t := by
  unfold execWakePin at h
  cases h
  have h := Fr.refl 0x4000000910 s
  have hp : 0x4000000910 ||| 0x4000000910 = 0x4000000910 := rfl
  with_reducible
    repeat' first
      | assumption | exact Fr.up (by decide) hp | apply State.wakeEvent_parts | refine Fr.ite ?_ ?_

theorem State.attach_parts {p : Nat} {s x : State} (hp : 0x40004019f0 ||| p = p) (h : Fr p s x) : Fr p s (State.attach x) := by
  unfold State.attach
  with_reducible
    repeat' first
      | assumption | exact Fr.up (by decide) hp | apply State.classStart_parts
      | apply State.wakeEvent_parts | refine Fr.ite ?_ ?_ | lift_lets
      | (intro y; refine Fr.cut p s y ?_ (fun hy => ?_); (on_goal 1 => subst y); (on_goal 2 => clear_value y)) | intro y
      | apply Fr.mk_core | apply Fr.mk_src

theorem execVbusAttach_parts {s t : State} (h : execVbusAttach s = .next t) : Fr 0x40004819f0 s t := by
  unfold execVbusAttach at h
  cases h
  have h := Fr.refl 0x40004819f0 s
  have hp : 0x40004819f0 ||| 0x40004819f0 = 0x40004819f0 := rfl
  with_reducible
    repeat' first
      | assumption | exact Fr.up (by decide) hp | apply State.attach_parts
      | apply State.wakeEvent_parts | apply State.logged_parts | refine Fr.ite ?_ ?_ | refine fun y hy => ?_

theorem State.parkScan_parts {p : Nat} {s x : State} (hp : 0x40810 ||| p = p) (h : Fr p s x) : Fr p s (State.parkScan x) := by
  unfold State.parkScan
  with_reducible
    repeat' first
      | assumption | exact Fr.up (by decide) hp | apply State.slotsStart_parts
      | apply State.noResults_parts | apply State.set_parts | refine Fr.foldl _ ?_ (fun y a hy => ?_) | lift_lets
      | (intro y; refine Fr.cut p s y ?_ (fun hy => ?_); (on_goal 1 => subst y); (on_goal 2 => clear_value y)) | intro y
      | apply Fr.mk_mode_meas

theorem State.parkEvaluate_parts {p : Nat} {s x : State} (hp : 0x204120f0 ||| p = p) (h : Fr p s x) : Fr p s (State.parkEvaluate x) := by
  unfold State.parkEvaluate
  with_reducible
    repeat' first
      | assumption | exact Fr.up (by decide) hp | apply State.ocvCorrect_parts
      | apply State.cutoff_parts | apply State.cellReport_parts | apply State.zoneUpdate_parts | refine Fr.foldl _ ?_ (fun y a hy => ?_)
      | refine Fr.ite ?_ ?_ | refine Fr.ite_snd ?_ ?_ | refine Fr.ite_trd ?_ ?_ | refine fun y hy => ?_ | lift_lets
      | (intro y; refine Fr.cut p s y ?_ (fun hy => ?_); (on_goal 1 => subst y); (on_goal 2 => clear_value y)) | intro y | split
      | (refine Fr.snd_of ?_ (by assumption)) | (refine Fr.trd_of ?_ (by assumption)) | apply Fr.mk_col

theorem State.parkNote_parts {p : Nat} {s x : State} (hp : 0x1000000 ||| p = p) (h : Fr p s x) : Fr p s (State.parkNote x) := by
  unfold State.parkNote
  with_reducible
    repeat' first
      | assumption | exact Fr.up (by decide) hp | lift_lets
      | (intro y; refine Fr.cut p s y ?_ (fun hy => ?_); (on_goal 1 => subst y); (on_goal 2 => clear_value y)) | intro y | split
      | apply Fr.mk_parkAcc

theorem State.parkDecide_parts {p : Nat} {s x : State} (hp : 0x79f14dbdf0 ||| p = p) (h : Fr p s x) : Fr p s (State.parkDecide x) := by
  unfold State.parkDecide
  with_reducible
    repeat' first
      | assumption | exact Fr.up (by decide) hp | apply State.parkNote_parts
      | apply State.parkEvaluate_parts | apply State.wakeUp_parts | apply State.enterStorage_parts | apply State.socMirror_parts
      | apply State.set_parts | refine Fr.ite ?_ ?_ | lift_lets
      | (intro y; refine Fr.cut p s y ?_ (fun hy => ?_); (on_goal 1 => subst y); (on_goal 2 => clear_value y)) | intro y | split
      | apply Fr.mk_mode | apply Fr.mk_parkAcc

theorem execParkCheck_parts {s t : State} (a0 : Bool) (h : execParkCheck a0 s = .next t) : Fr 0x79f14dbdf0 s t := by
  unfold execParkCheck at h
  cases h
  have h := Fr.refl 0x79f14dbdf0 s
  have hp : 0x79f14dbdf0 ||| 0x79f14dbdf0 = 0x79f14dbdf0 := rfl
  with_reducible
    repeat' first
      | assumption | exact Fr.up (by decide) hp | apply State.parkDecide_parts
      | apply State.parkScan_parts | apply State.logged_parts | refine Fr.ite ?_ ?_ | refine fun y hy => ?_

theorem State.slotWrite_parts {p : Nat} {s x : State} (a1 : Master) (a2 : Nat) (hp : 0x8004028f0 ||| p = p) (h : Fr p s x) : Fr p s (State.slotWrite x a1 a2).2 := by
  unfold State.slotWrite
  with_reducible
    repeat' first
      | assumption | exact Fr.up (by decide) hp | apply State.answerWith_parts
      | apply State.modeReqSlot_parts | refine Fr.ite ?_ ?_ | refine Fr.ite_snd ?_ ?_ | refine Fr.ite_trd ?_ ?_ | lift_lets
      | (intro y; refine Fr.cut p s y ?_ (fun hy => ?_); (on_goal 1 => subst y); (on_goal 2 => clear_value y)) | intro y | split
      | (refine Fr.snd_of ?_ (by assumption)) | (refine Fr.trd_of ?_ (by assumption))

theorem State.slotWrites_parts {p : Nat} {s x : State} (l : List (Master × Nat)) (hp : 0x8004028f0 ||| p = p) (h : Fr p s x) : Fr p s (x.slotWrites l).2 := by
  unfold State.slotWrites
  have key : ∀ (l : List (Master × Nat)) (q : Option Nat × State), Fr p s q.2 →
      Fr p s (l.foldl (fun (a : Option Nat × State) x =>
        let w := a.2.slotWrite x.1 x.2
        (if w.1 && x.1 == .S then some x.2 else a.1, w.2)) q).2 := by
    intro l
    induction l with
    | nil => exact fun q hq => hq
    | cons a l ih => exact fun q hq => ih _ (State.slotWrite_parts _ _ (Fr.up rfl hp) hq)
  exact key l (none, x) h

theorem execModeReqWrite_parts {s t : State} (a0 : Master) (a1 : Nat) (a2 : List (Master × Nat)) (h : execModeReqWrite a0 a1 a2 s = .next t) : Fr 0x79f04dbdf0 s t := by
  unfold execModeReqWrite at h
  cases h
  have h := Fr.refl 0x79f04dbdf0 s
  have hp : 0x79f04dbdf0 ||| 0x79f04dbdf0 = 0x79f04dbdf0 := rfl
  with_reducible
    repeat' first
      | assumption | exact Fr.up (by decide) hp | apply State.slotWrites_parts
      | apply State.modeReqAct_parts | apply State.logged_parts | refine fun y hy => ?_ | lift_lets
      | (intro y; refine Fr.cut _ s y ?_ (fun hy => ?_); (on_goal 1 => subst y); (on_goal 2 => clear_value y)) | intro y | split
      | (refine Fr.snd_of ?_ (by assumption)) | (refine Fr.trd_of ?_ (by assumption))

theorem State.leaseEnd_parts {p : Nat} {s x : State} (a1 : Master) (hp : 0x39f04dbdf0 ||| p = p) (h : Fr p s x) : Fr p s (State.leaseEnd x a1) := by
  unfold State.leaseEnd
  with_reducible
    repeat' first
      | assumption | exact Fr.up (by decide) hp | apply State.resolve_parts | apply State.set_parts
      | refine Fr.ite ?_ ?_ | lift_lets
      | (intro y; refine Fr.cut p s y ?_ (fun hy => ?_); (on_goal 1 => subst y); (on_goal 2 => clear_value y)) | intro y | split
      | apply Fr.mk_mode

theorem execModeLeaseExpiry_parts {s t : State} (a0 : Master) (h : execModeLeaseExpiry a0 s = .next t) : Fr 0x39f04dbdf0 s t := by
  unfold execModeLeaseExpiry at h
  cases h
  have h := Fr.refl 0x39f04dbdf0 s
  have hp : 0x39f04dbdf0 ||| 0x39f04dbdf0 = 0x39f04dbdf0 := rfl
  with_reducible
    repeat' first
      | assumption | exact Fr.up (by decide) hp | apply State.leaseEnd_parts | apply State.logged_parts
      | refine Fr.ite ?_ ?_ | refine fun y hy => ?_

theorem execModeTargetReevaluation_parts {s t : State} (h : execModeTargetReevaluation s = .next t) : Fr 0x39f04dbdf0 s t := by
  unfold execModeTargetReevaluation at h
  cases h
  have h := Fr.refl 0x39f04dbdf0 s
  have hp : 0x39f04dbdf0 ||| 0x39f04dbdf0 = 0x39f04dbdf0 := rfl
  with_reducible
    repeat' first
      | assumption | exact Fr.up (by decide) hp | apply State.resolve_parts | apply State.logged_parts
      | refine Fr.ite ?_ ?_ | refine fun y hy => ?_

theorem execIdleParkDelayExpiry_parts {s t : State} (h : execIdleParkDelayExpiry s = .next t) : Fr 0xf04928f0 s t := by
  unfold execIdleParkDelayExpiry at h
  cases h
  have h := Fr.refl 0xf04928f0 s
  have hp : 0xf04928f0 ||| 0xf04928f0 = 0xf04928f0 := rfl
  with_reducible
    repeat' first
      | assumption | exact Fr.up (by decide) hp | apply State.parkStart_parts
      | apply State.logged_parts | refine Fr.ite ?_ ?_ | refine fun y hy => ?_

theorem execWakeHoldExpiry_parts {s t : State} (h : execWakeHoldExpiry s = .next t) : Fr 0x39f04dbdf0 s t := by
  unfold execWakeHoldExpiry at h
  cases h
  have h := Fr.refl 0x39f04dbdf0 s
  have hp : 0x39f04dbdf0 ||| 0x39f04dbdf0 = 0x39f04dbdf0 := rfl
  with_reducible
    repeat' first
      | assumption | exact Fr.up (by decide) hp | apply State.act_parts | apply State.logged_parts
      | refine Fr.ite ?_ ?_ | refine fun y hy => ?_ | lift_lets
      | (intro y; refine Fr.cut _ s y ?_ (fun hy => ?_); (on_goal 1 => subst y); (on_goal 2 => clear_value y)) | intro y
      | apply Fr.mk_mode

theorem State.rewriteBanks_parts {p : Nat} {s x : State} (hp : 0x208002010 ||| p = p) (h : Fr p s x) : Fr p s (State.rewriteBanks x) := by
  unfold State.rewriteBanks
  with_reducible
    repeat' first
      | assumption | exact Fr.up (by decide) hp | apply State.writeBankF_parts
      | refine Fr.foldl _ ?_ (fun y a hy => ?_) | lift_lets
      | (intro y; refine Fr.cut p s y ?_ (fun hy => ?_); (on_goal 1 => subst y); (on_goal 2 => clear_value y)) | intro y
      | apply Fr.mk_flash

theorem State.seedTrims_parts {p : Nat} {s x : State} (hp : 0x10010 ||| p = p) (h : Fr p s x) : Fr p s (State.seedTrims x) := by
  unfold State.seedTrims
  with_reducible
    repeat' first
      | assumption | exact Fr.up (by decide) hp | apply State.put_parts
      | refine Fr.foldl _ ?_ (fun y a hy => ?_) | refine Fr.ite ?_ ?_ | lift_lets
      | (intro y; refine Fr.cut p s y ?_ (fun hy => ?_); (on_goal 1 => subst y); (on_goal 2 => clear_value y)) | intro y

theorem State.parkCommit_parts {p : Nat} {s x : State} (hp : 0x20e992010 ||| p = p) (h : Fr p s x) : Fr p s (State.parkCommit x) := by
  unfold State.parkCommit
  with_reducible
    repeat' first
      | assumption | exact Fr.up (by decide) hp | apply State.seedTrims_parts
      | apply State.rewriteBanks_parts | apply State.closeWindow_parts | apply State.closeCapture_parts | apply State.commitNow_parts
      | apply State.hourRecord_parts | lift_lets
      | (intro y; refine Fr.cut p s y ?_ (fun hy => ?_); (on_goal 1 => subst y); (on_goal 2 => clear_value y)) | intro y

theorem State.parkOff_parts {p : Nat} {s x : State} (hp : 0x39f14dadf0 ||| p = p) (h : Fr p s x) : Fr p s (State.parkOff x) := by
  unfold State.parkOff
  with_reducible
    repeat' first
      | assumption | exact Fr.up (by decide) hp | apply State.shellOff_parts
      | apply State.freeLocks_parts | apply State.dropRequests_parts | apply State.setMode_parts | lift_lets
      | (intro y; refine Fr.cut p s y ?_ (fun hy => ?_); (on_goal 1 => subst y); (on_goal 2 => clear_value y)) | intro y
      | apply Fr.mk_mode_parkAcc

theorem State.parkReach_parts {p : Nat} {s x : State} (hp : 0x79f14dbdf0 ||| p = p) (h : Fr p s x) : Fr p s (State.parkReach x) := by
  unfold State.parkReach
  with_reducible
    repeat' first
      | assumption | exact Fr.up (by decide) hp | apply State.parkOff_parts | apply State.wakeUp_parts
      | apply State.enterStorage_parts | apply State.set_parts | refine Fr.foldl _ ?_ (fun y a hy => ?_) | refine Fr.ite ?_ ?_
      | refine Fr.ite_snd ?_ ?_ | refine Fr.ite_trd ?_ ?_ | refine fun y hy => ?_ | split | lift_lets
      | (intro y; refine Fr.cut p s y ?_ (fun hy => ?_); (on_goal 1 => subst y); (on_goal 2 => clear_value y)) | intro y
      | (refine Fr.snd_of ?_ (by assumption)) | (refine Fr.trd_of ?_ (by assumption))

theorem State.parkAdvance_parts {p : Nat} {s x : State} (hp : 0x7bffddbdf0 ||| p = p) (h : Fr p s x) : Fr p s (State.parkAdvance x) := by
  unfold State.parkAdvance
  with_reducible
    repeat' first
      | assumption | exact Fr.up (by decide) hp | apply State.parkReach_parts
      | apply State.parkCommit_parts | apply State.groupsOff_parts | apply State.epochStart_parts | refine Fr.ite ?_ ?_ | lift_lets
      | (intro y; refine Fr.cut p s y ?_ (fun hy => ?_); (on_goal 1 => subst y); (on_goal 2 => clear_value y)) | intro y | split
      | apply Fr.mk_mode

theorem execParkEntryAdvance_parts {s t : State} (h : execParkEntryAdvance s = .next t) : Fr 0x7bffddbdf0 s t := by
  unfold execParkEntryAdvance at h
  cases h
  have h := Fr.refl 0x7bffddbdf0 s
  have hp : 0x7bffddbdf0 ||| 0x7bffddbdf0 = 0x7bffddbdf0 := rfl
  with_reducible
    repeat' first
      | assumption | exact Fr.up (by decide) hp | apply State.parkAdvance_parts
      | apply State.logged_parts | refine Fr.ite ?_ ?_ | refine fun y hy => ?_

theorem execHeartbeatLoss_parts {s t : State} (h : execHeartbeatLoss s = .next t) : Fr 0xa978497cf0 s t := by
  unfold execHeartbeatLoss at h
  cases h
  have h := Fr.refl 0xa978497cf0 s
  have hp : 0xa978497cf0 ||| 0xa978497cf0 = 0xa978497cf0 := rfl
  with_reducible
    repeat' first
      | assumption | exact Fr.up (by decide) hp | apply State.shellAbsent_parts
      | apply State.logged_parts | refine Fr.ite ?_ ?_ | refine fun y hy => ?_

theorem execStratusLinkHoldExpiry_parts {s t : State} (h : execStratusLinkHoldExpiry s = .next t) : Fr 0x400 s t := by
  unfold execStratusLinkHoldExpiry at h
  cases h
  have h := Fr.refl 0x400 s
  have hp : 0x400 ||| 0x400 = 0x400 := rfl
  with_reducible
    repeat' first
      | assumption | exact Fr.up (by decide) hp | refine Fr.ite ?_ ?_ | lift_lets
      | (intro y; refine Fr.cut _ s y ?_ (fun hy => ?_); (on_goal 1 => subst y); (on_goal 2 => clear_value y)) | intro y
      | apply Fr.mk_strat

theorem State.stratusLinkEnd_parts {p : Nat} {s x : State} (hp : 0x39f04dbdf0 ||| p = p) (h : Fr p s x) : Fr p s (State.stratusLinkEnd x) := by
  unfold State.stratusLinkEnd
  with_reducible
    repeat' first
      | assumption | exact Fr.up (by decide) hp | apply State.exhaustedStratusNow_parts
      | apply State.linkZ_parts | refine Fr.ite ?_ ?_ | lift_lets
      | (intro y; refine Fr.cut p s y ?_ (fun hy => ?_); (on_goal 1 => subst y); (on_goal 2 => clear_value y)) | intro y
      | apply Fr.mk_strat

theorem execStratusLinkRampEnd_parts {s t : State} (h : execStratusLinkRampEnd s = .next t) : Fr 0x39f04dbdf0 s t := by
  unfold execStratusLinkRampEnd at h
  cases h
  have h := Fr.refl 0x39f04dbdf0 s
  have hp : 0x39f04dbdf0 ||| 0x39f04dbdf0 = 0x39f04dbdf0 := rfl
  with_reducible
    repeat' first
      | assumption | exact Fr.up (by decide) hp | apply State.stratusLinkEnd_parts
      | apply State.logged_parts | refine Fr.ite ?_ ?_ | refine fun y hy => ?_

theorem execNfailoverPulseEnd_parts {s t : State} (h : execNfailoverPulseEnd s = .next t) : Fr 0x400000000 s t := by
  unfold execNfailoverPulseEnd at h
  cases h
  have h := Fr.refl 0x400000000 s
  have hp : 0x400000000 ||| 0x400000000 = 0x400000000 := rfl
  with_reducible
    repeat' first
      | assumption | exact Fr.up (by decide) hp | refine Fr.ite ?_ ?_ | lift_lets
      | (intro y; refine Fr.cut _ s y ?_ (fun hy => ?_); (on_goal 1 => subst y); (on_goal 2 => clear_value y)) | intro y | apply Fr.mk_wd

theorem State.overcastAdvance_parts {p : Nat} {s x : State} (hp : 0xfff85ffdf8 ||| p = p) (h : Fr p s x) : Fr p s (State.overcastAdvance x) := by
  unfold State.overcastAdvance
  with_reducible
    repeat' first
      | assumption | exact Fr.up (by decide) hp | apply State.overcastStop_parts
      | apply State.overcastStep_parts | refine Fr.ite ?_ ?_ | lift_lets
      | (intro y; refine Fr.cut p s y ?_ (fun hy => ?_); (on_goal 1 => subst y); (on_goal 2 => clear_value y)) | intro y | apply Fr.mk_aon

theorem execOvercastShutdownAdvance_parts {s t : State} (h : execOvercastShutdownAdvance s = .next t) : Fr 0xfff85ffdf8 s t := by
  unfold execOvercastShutdownAdvance at h
  cases h
  have h := Fr.refl 0xfff85ffdf8 s
  have hp : 0xfff85ffdf8 ||| 0xfff85ffdf8 = 0xfff85ffdf8 := rfl
  with_reducible
    repeat' first
      | assumption | exact Fr.up (by decide) hp | apply State.overcastAdvance_parts
      | apply State.logged_parts | refine Fr.ite ?_ ?_ | refine fun y hy => ?_

end Sys2Proof.Machine
end

