-- ==== Sys2Proof/Laws/PartsFaults.lean ====
section
/-!
SUPPORT. PartsFaults.lean: the footprint of every operation of Machine/Faults.lean.
-/
set_option linter.unusedTactic false
set_option linter.unreachableTactic false
set_option linter.unusedVariables false
namespace Sys2Proof.Machine

theorem State.scanReset_parts {p : Nat} {s x : State} (hp : 0x40010 ||| p = p) (h : Fr p s x) : Fr p s (State.scanReset x) := by
  unfold State.scanReset
  with_reducible
    repeat' first
      | assumption | exact Fr.up (by decide) hp | apply State.measStart_parts | apply State.set_parts
      | refine Fr.ite ?_ ?_ | lift_lets
      | (intro y; refine Fr.cut p s y ?_ (fun hy => ?_); (on_goal 1 => subst y); (on_goal 2 => clear_value y)) | intro y
      | apply Fr.mk_meas

theorem State.flashReset_parts {p : Nat} {s x : State} (hp : 0x200012010 ||| p = p) (h : Fr p s x) : Fr p s (State.flashReset x) := by
  unfold State.flashReset
  with_reducible
    repeat' first
      | assumption | exact Fr.up (by decide) hp | apply State.replayReport_parts
      | apply State.commitTorn_parts | apply State.commitStart_parts | apply State.flashBusy_parts | lift_lets
      | (intro y; refine Fr.cut p s y ?_ (fun hy => ?_); (on_goal 1 => subst y); (on_goal 2 => clear_value y)) | intro y | split
      | apply Fr.mk_jrnl

theorem State.hzReset_parts {p : Nat} {s x : State} (hp : 0x402010 ||| p = p) (h : Fr p s x) : Fr p s (State.hzReset x) := by
  unfold State.hzReset
  with_reducible
    repeat' first
      | assumption | exact Fr.up (by decide) hp | apply State.epochDiscard_parts
      | apply State.probeAbandon_parts | lift_lets
      | (intro y; refine Fr.cut p s y ?_ (fun hy => ?_); (on_goal 1 => subst y); (on_goal 2 => clear_value y)) | intro y | apply Fr.mk_hz

theorem State.linReset_parts {p : Nat} {s x : State} (hp : 0x4000000000 ||| p = p) (h : Fr p s x) : Fr p s (State.linReset x) := by
  unfold State.linReset
  with_reducible
    repeat' first
      | assumption | exact Fr.up (by decide) hp | apply State.linCopies_parts | lift_lets
      | (intro y; refine Fr.cut p s y ?_ (fun hy => ?_); (on_goal 1 => subst y); (on_goal 2 => clear_value y)) | intro y | apply Fr.mk_lin

theorem State.blockStart_parts {p : Nat} {s x : State} (a1 : Nat) (a2 : Nat) (hp : 0xfff85ffdf8 ||| p = p) (h : Fr p s x) : Fr p s (State.blockStart x a1 a2) := by
  unfold State.blockStart
  with_reducible
    repeat' first
      | assumption | exact Fr.up (by decide) hp | apply State.linReset_parts
      | apply State.hzReset_parts | apply State.flashReset_parts | apply State.scanReset_parts | apply State.envEnable_parts
      | apply State.seqStart1_parts | apply State.canInit_parts | apply State.portDown_parts | apply State.resolve_parts
      | apply State.sessionDefault_parts | apply State.sendHard_parts | apply State.groupApply_parts | refine Fr.ite ?_ ?_
      | refine Fr.ite_snd ?_ ?_ | refine Fr.ite_trd ?_ ?_ | split | (refine Fr.snd_of ?_ (by assumption))
      | (refine Fr.trd_of ?_ (by assumption))

theorem State.reactIrq_parts {p : Nat} {s x : State} (hp : 0x3000002000 ||| p = p) (h : Fr p s x) : Fr p s (State.reactIrq x) := by
  unfold State.reactIrq
  with_reducible
    repeat' first
      | assumption | exact Fr.up (by decide) hp | apply State.notify_parts | lift_lets
      | (intro y; refine Fr.cut p s y ?_ (fun hy => ?_); (on_goal 1 => subst y); (on_goal 2 => clear_value y)) | intro y
      | apply Fr.mk_col_note

theorem State.reactTrap_parts {p : Nat} {s x : State} (a1 : Msg) (hp : 0xfff85ffdf8 ||| p = p) (h : Fr p s x) : Fr p s (State.reactTrap x a1) := by
  unfold State.reactTrap
  with_reducible
    repeat' first
      | assumption | exact Fr.up (by decide) hp | apply State.seqTrap_parts | apply State.raise_parts

theorem State.reactBlock_parts {p : Nat} {s x : State} (a1 : Option Nat) (a2 : Msg) (hp : 0xfff85ffdf8 ||| p = p) (h : Fr p s x) : Fr p s (State.reactBlock x a1 a2) := by
  unfold State.reactBlock
  with_reducible
    repeat' first
      | assumption | exact Fr.up (by decide) hp | apply State.blockStart_parts | refine Fr.ite ?_ ?_
      | lift_lets | (intro y; refine Fr.cut p s y ?_ (fun hy => ?_); (on_goal 1 => subst y); (on_goal 2 => clear_value y)) | intro y
      | apply Fr.mk_col

theorem State.reactChip_parts {p : Nat} {s x : State} (a1 : Msg) (hp : 0x100 ||| p = p) (h : Fr p s x) : Fr p s (State.reactChip x a1) := by
  unfold State.reactChip
  with_reducible
    repeat' first
      | assumption | exact Fr.up (by decide) hp | lift_lets
      | (intro y; refine Fr.cut p s y ?_ (fun hy => ?_); (on_goal 1 => subst y); (on_goal 2 => clear_value y)) | intro y | apply Fr.mk_aon

theorem State.noteReact_parts {p : Nat} {s x : State} (a1 : Option Nat) (a2 : Nat) (hp : 0x4000 ||| p = p) (h : Fr p s x) : Fr p s (State.noteReact x a1 a2) := by
  unfold State.noteReact
  with_reducible
    repeat' first
      | assumption | exact Fr.up (by decide) hp | apply State.putRec_parts | split

theorem State.carryOut_parts {p : Nat} {s x : State} (a1 : Option Nat) (a2 : Msg) (a3 : Nat) (a4 : Nat) (a5 : Bool) (hp : 0xfff8dffdf8 ||| p = p) (h : Fr p s x) : Fr p s (State.carryOut x a1 a2 a3 a4 a5) := by
  unfold State.carryOut
  with_reducible
    repeat' first
      | assumption | exact Fr.up (by decide) hp | apply State.noteReact_parts
      | apply State.reactChip_parts | apply State.reactBlock_parts | apply State.reactTrap_parts | apply State.reactIrq_parts
      | apply State.haloUpdate_parts | apply State.setOvercast_parts | apply State.raise_parts | refine Fr.ite ?_ ?_ | lift_lets
      | (intro y; refine Fr.cut p s y ?_ (fun hy => ?_); (on_goal 1 => subst y); (on_goal 2 => clear_value y)) | intro y

theorem State.windowEnd_parts {p : Nat} {s x : State} (hp : 0x6010 ||| p = p) (h : Fr p s x) : Fr p s (State.windowEnd x) := by
  unfold State.windowEnd
  with_reducible
    repeat' first
      | assumption | exact Fr.up (by decide) hp | apply State.closeHandling_parts | refine Fr.ite ?_ ?_
      | split

theorem State.takeRefused_parts {p : Nat} {s x : State} (a1 : Msg) (hp : 0x100004000 ||| p = p) (h : Fr p s x) : Fr p s (State.takeRefused x a1) := by
  unfold State.takeRefused
  with_reducible
    repeat' first
      | assumption | exact Fr.up (by decide) hp | refine Fr.foldl _ ?_ (fun y a hy => ?_)
      | refine Fr.ite ?_ ?_ | lift_lets
      | (intro y; refine Fr.cut p s y ?_ (fun hy => ?_); (on_goal 1 => subst y); (on_goal 2 => clear_value y)) | intro y
      | apply Fr.mk_recs_seqs

theorem State.makeRecord_parts {p : Nat} {s x : State} (m : Msg) (c : Nat) (q : Bool) (hp : 0x6000 ||| p = p) (h : Fr p s x) : Fr p s (x.makeRecord m c q).1 := by
  unfold State.makeRecord
  lift_lets
  intro w
  split
  · exact State.putRec_parts _ _ (Fr.up rfl hp) h
  · split
    · exact State.putRec_parts _ _ (Fr.up rfl hp) h
    · exact Fr.mk_col h (Fr.up rfl hp)

theorem State.mergeRecord_parts {p : Nat} {s x : State} (n : Nat) (r : FaultRec) (m : Msg) (c d : Nat) (hp : 0x4000 ||| p = p) (h : Fr p s x) :
    Fr p s (x.mergeRecord n r m c d).1 :=
  State.putRec_parts _ _ (Fr.up rfl hp) h

theorem State.record_parts {p : Nat} {s x : State} (m : Msg) (c d : Nat) (q : Bool) (hp : 0xfff8dffdf8 ||| p = p) (h : Fr p s x) : Fr p s (x.record m c d q) := by
  unfold State.record
  split
  · rename_i n r _
    have hr := State.mergeRecord_parts n r m (reactionBy x.col.table m.src m.kind).1 (reactionBy x.col.table m.src m.kind).2 (Fr.up rfl hp) h
    exact Fr.ite (State.haloUpdate_parts (Fr.up rfl hp) hr) (State.windowEnd_parts (Fr.up rfl hp) (State.carryOut_parts _ _ _ _ _ (Fr.up rfl hp) hr))
  · have hr := State.makeRecord_parts m c q (Fr.up rfl hp) h
    exact Fr.ite (State.carryOut_parts _ _ _ _ _ (Fr.up rfl hp) hr) (State.haloUpdate_parts (Fr.up rfl hp) (State.takeRefused_parts _ (Fr.up rfl hp) hr))

theorem State.acceptRaise_parts {p : Nat} {s x : State} (a1 : Msg) (a2 : Bool) (hp : 0xfff8dffdf8 ||| p = p) (h : Fr p s x) : Fr p s (State.acceptRaise x a1 a2) := by
  unfold State.acceptRaise
  with_reducible
    repeat' first
      | assumption | exact Fr.up (by decide) hp | apply State.record_parts
      | apply State.hourFault_parts | apply State.faultCounts_parts | apply State.dtcRaise_parts | apply State.capture_parts
      | refine Fr.ite ?_ ?_ | lift_lets
      | (intro y; refine Fr.cut p s y ?_ (fun hy => ?_); (on_goal 1 => subst y); (on_goal 2 => clear_value y)) | intro y

theorem State.acceptClear_parts {p : Nat} {s x : State} (a1 : Msg) (hp : 0x8000016010 ||| p = p) (h : Fr p s x) : Fr p s (State.acceptClear x a1) := by
  unfold State.acceptClear
  with_reducible
    repeat' first
      | assumption | exact Fr.up (by decide) hp | apply State.clearRecord_parts
      | apply State.haloUpdate_parts | apply State.dtcClear_parts

theorem State.nextMsg_parts {p : Nat} {s x t : State} {m : Msg} {b : Bool} (e : x.nextMsg = some (m, b, t)) (hp : 0x2000 ||| p = p) (h : Fr p s x) : Fr p s t := by
  unfold State.nextMsg at e
  split at e
  · cases e
    exact Fr.mk_col h (Fr.up rfl hp)
  · split at e
    · cases e
    · rw [Option.map_eq_some_iff] at e
      obtain ⟨a, _, e⟩ := e
      cases e
      exact Fr.mk_col h (Fr.up rfl hp)

theorem execFaultRaise_parts {s t : State} (h : execFaultRaise s = .next t) : Fr 0xfff8dffdf8 s t := by
  unfold execFaultRaise at h
  cases h
  have h := Fr.refl 0xfff8dffdf8 s
  refine Fr.ite (State.logged_parts _ (fun y hy => ?_) rfl h) h
  split
  · rename_i e
    exact Fr.ite hy (State.acceptRaise_parts _ _ rfl (State.nextMsg_parts e rfl hy))
  · exact hy

theorem execFaultClear_parts {s t : State} (h : execFaultClear s = .next t) : Fr 0x8000096010 s t := by
  unfold execFaultClear at h
  cases h
  have h := Fr.refl 0x8000096010 s
  refine Fr.ite (State.logged_parts _ (fun y hy => ?_) rfl h) h
  split
  · rename_i e
    exact Fr.ite (State.acceptClear_parts _ rfl (State.nextMsg_parts e rfl hy)) hy
  · exact hy

theorem execFaultLost_parts {s t : State} (a0 : Nat) (h : execFaultLost a0 s = .next t) : Fr 0x2010 s t := by
  unfold execFaultLost at h
  cases h
  have h := Fr.refl 0x2010 s
  have hp : 0x2010 ||| 0x2010 = 0x2010 := rfl
  with_reducible
    repeat' first
      | assumption | exact Fr.up (by decide) hp | apply State.tally_parts | refine Fr.ite ?_ ?_
      | lift_lets | (intro y; refine Fr.cut _ s y ?_ (fun hy => ?_); (on_goal 1 => subst y); (on_goal 2 => clear_value y)) | intro y
      | apply Fr.mk_col

theorem State.handle_parts {p : Nat} {s x : State} (a1 : Nat) (a2 : FaultRec) (hp : 0xfff8dffdf8 ||| p = p) (h : Fr p s x) : Fr p s (State.handle x a1 a2) := by
  unfold State.handle
  with_reducible
    repeat' first
      | assumption | exact Fr.up (by decide) hp | apply State.windowEnd_parts
      | apply State.carryOut_parts | apply State.putRec_parts | lift_lets
      | (intro y; refine Fr.cut p s y ?_ (fun hy => ?_); (on_goal 1 => subst y); (on_goal 2 => clear_value y)) | intro y | apply Fr.mk_col

theorem execRecordHandling_parts {s t : State} (h : execRecordHandling s = .next t) : Fr 0xfff8dffdf8 s t := by
  unfold execRecordHandling at h
  cases h
  have h := Fr.refl 0xfff8dffdf8 s
  have hp : 0xfff8dffdf8 ||| 0xfff8dffdf8 = 0xfff8dffdf8 := rfl
  with_reducible
    repeat' first
      | assumption | exact Fr.up (by decide) hp | apply State.handle_parts | apply State.logged_parts
      | refine Fr.ite ?_ ?_ | refine fun y hy => ?_ | split

theorem execBlockResetComplete_parts {s t : State} (h : execBlockResetComplete s = .next t) : Fr 0x6010 s t := by
  unfold execBlockResetComplete at h
  cases h
  have h := Fr.refl 0x6010 s
  have hp : 0x6010 ||| 0x6010 = 0x6010 := rfl
  with_reducible
    repeat' first
      | assumption | exact Fr.up (by decide) hp | apply State.closeHandling_parts | split

theorem execFaultAck_parts {s t : State} (a0 : Master) (a1 : Nat) (h : execFaultAck a0 a1 s = .next t) : Fr 0xfff85ffdf8 s t := by
  unfold execFaultAck at h
  cases h
  have h := Fr.refl 0xfff85ffdf8 s
  have hp : 0xfff85ffdf8 ||| 0xfff85ffdf8 = 0xfff85ffdf8 := rfl
  with_reducible
    repeat' first
      | assumption | exact Fr.up (by decide) hp | apply State.asked_parts | apply State.writeKey_parts
      | apply State.logged_parts | refine fun y hy => ?_ | split | (refine Fr.snd_of ?_ (by assumption))
      | (refine Fr.trd_of ?_ (by assumption))

theorem execFaultRecordRead_parts {s t : State} (a0 : Master) (a1 : Nat) (h : execFaultRecordRead a0 a1 s = .next t) : Fr 0x800016010 s t := by
  unfold execFaultRecordRead at h
  cases h
  have h := Fr.refl 0x800016010 s
  have hp : 0x800016010 ||| 0x800016010 = 0x800016010 := rfl
  with_reducible
    repeat' first
      | assumption | exact Fr.up (by decide) hp | apply State.asked_parts | apply State.readKey_parts
      | refine fun y hy => ?_ | split | (refine Fr.snd_of ?_ (by assumption)) | (refine Fr.trd_of ?_ (by assumption))

theorem execFaultInject_parts {s t : State} (a0 : Master) (a1 : Nat) (h : execFaultInject a0 a1 s = .next t) : Fr 0xfff85ffdf8 s t := by
  unfold execFaultInject at h
  cases h
  have h := Fr.refl 0xfff85ffdf8 s
  have hp : 0xfff85ffdf8 ||| 0xfff85ffdf8 = 0xfff85ffdf8 := rfl
  with_reducible
    repeat' first
      | assumption | exact Fr.up (by decide) hp | apply State.asked_parts | apply State.writeKey_parts
      | apply State.logged_parts | refine fun y hy => ?_ | split | (refine Fr.snd_of ?_ (by assumption))
      | (refine Fr.trd_of ?_ (by assumption))

theorem State.selfLoop_parts {p : Nat} {s x : State} (a1 : Bool) (hp : 0x400006118 ||| p = p) (h : Fr p s x) : Fr p s (State.selfLoop x a1) := by
  unfold State.selfLoop
  with_reducible
    repeat' first
      | assumption | exact Fr.up (by decide) hp | apply State.directEnter_parts | refine Fr.ite ?_ ?_
      | lift_lets | (intro y; refine Fr.cut p s y ?_ (fun hy => ?_); (on_goal 1 => subst y); (on_goal 2 => clear_value y)) | intro y
      | apply Fr.mk_col | apply Fr.mk_wd

theorem execCollectorSelfLoop_parts {s t : State} (a0 : Bool) (h : execCollectorSelfLoop a0 s = .next t) : Fr 0x400006118 s t := by
  unfold execCollectorSelfLoop at h
  cases h
  have h := Fr.refl 0x400006118 s
  have hp : 0x400006118 ||| 0x400006118 = 0x400006118 := rfl
  with_reducible
    repeat' first
      | assumption | exact Fr.up (by decide) hp | apply State.selfLoop_parts | refine Fr.ite ?_ ?_

theorem execHaloToggle_parts {s t : State} (h : execHaloToggle s = .next t) : Fr 0x2000 s t := by
  unfold execHaloToggle at h
  cases h
  have h := Fr.refl 0x2000 s
  have hp : 0x2000 ||| 0x2000 = 0x2000 := rfl
  with_reducible
    repeat' first
      | assumption | exact Fr.up (by decide) hp | refine Fr.ite ?_ ?_ | lift_lets
      | (intro y; refine Fr.cut _ s y ?_ (fun hy => ?_); (on_goal 1 => subst y); (on_goal 2 => clear_value y)) | intro y | apply Fr.mk_col

end Sys2Proof.Machine
end

