-- ==== Sys2Proof/Laws/PartsIdle.lean ====
section
/-!
SUPPORT. PartsIdle.lean: the footprint of every operation of Machine/Idle.lean.
-/
set_option linter.unusedTactic false
set_option linter.unreachableTactic false
set_option linter.unusedVariables false
namespace Sys2Proof.Machine

theorem State.countTick_parts {p : Nat} {s x : State} (hp : 0x400240000 ||| p = p) (h : Fr p s x) : Fr p s (State.countTick x) := by
  unfold State.countTick
  with_reducible
    repeat' first
      | assumption | exact Fr.up (by decide) hp | lift_lets
      | (intro y; refine Fr.cut p s y ?_ (fun hy => ?_); (on_goal 1 => subst y); (on_goal 2 => clear_value y)) | intro y
      | apply Fr.mk_meas_thm_wd

theorem State.socTick_parts {p : Nat} {s x : State} (hp : 0x100 ||| p = p) (h : Fr p s x) : Fr p s (State.socTick x) := by
  unfold State.socTick
  with_reducible
    repeat' first
      | assumption | exact Fr.up (by decide) hp | apply State.socMirror_parts | refine Fr.ite ?_ ?_

theorem State.opTick_parts {p : Nat} {s x : State} (hp : 0x410010 ||| p = p) (h : Fr p s x) : Fr p s (State.opTick x) := by
  unfold State.opTick
  with_reducible
    repeat' first
      | assumption | exact Fr.up (by decide) hp | apply State.put_parts
      | refine Fr.foldl _ ?_ (fun y a hy => ?_) | refine Fr.ite ?_ ?_ | refine Fr.ite_snd ?_ ?_ | refine Fr.ite_trd ?_ ?_
      | refine fun y hy => ?_ | lift_lets
      | (intro y; refine Fr.cut p s y ?_ (fun hy => ?_); (on_goal 1 => subst y); (on_goal 2 => clear_value y)) | intro y | split
      | (refine Fr.snd_of ?_ (by assumption)) | (refine Fr.trd_of ?_ (by assumption)) | apply Fr.mk_hz

theorem State.pwmTick_parts {p : Nat} {s x : State} (hp : 0x80 ||| p = p) (h : Fr p s x) : Fr p s (State.pwmTick x) := by
  unfold State.pwmTick
  with_reducible
    repeat' first
      | assumption | exact Fr.up (by decide) hp | apply State.phaseTick_parts
      | refine Fr.foldl _ ?_ (fun y a hy => ?_)

theorem State.queueServed_parts {p : Nat} {s x : State} (a1 : Port) (hp : 0x400000010 ||| p = p) (h : Fr p s x) : Fr p s (State.queueServed x a1) := by
  unfold State.queueServed
  with_reducible
    repeat' first
      | assumption | exact Fr.up (by decide) hp | apply State.fabTally_parts | lift_lets
      | (intro y; refine Fr.cut p s y ?_ (fun hy => ?_); (on_goal 1 => subst y); (on_goal 2 => clear_value y)) | intro y | apply Fr.mk_wd

theorem State.portTick_parts {p : Nat} {s x : State} (a1 : Port) (hp : 0x480000010 ||| p = p) (h : Fr p s x) : Fr p s (State.portTick x a1) := by
  unfold State.portTick
  with_reducible
    repeat' first
      | assumption | exact Fr.up (by decide) hp | apply State.queueServed_parts
      | apply State.modFab_parts | refine Fr.ite ?_ ?_ | lift_lets
      | (intro y; refine Fr.cut p s y ?_ (fun hy => ?_); (on_goal 1 => subst y); (on_goal 2 => clear_value y)) | intro y | split

theorem State.ecuReset_parts {p : Nat} {s x : State} (hp : 0x8000000100 ||| p = p) (h : Fr p s x) : Fr p s (State.ecuReset x) := by
  unfold State.ecuReset
  with_reducible
    repeat' first
      | assumption | exact Fr.up (by decide) hp | refine Fr.ite ?_ ?_ | lift_lets
      | (intro y; refine Fr.cut p s y ?_ (fun hy => ?_); (on_goal 1 => subst y); (on_goal 2 => clear_value y)) | intro y
      | apply Fr.mk_aon_uds

theorem State.canTick_parts {p : Nat} {s x : State} (hp : 0x9000000010 ||| p = p) (h : Fr p s x) : Fr p s (State.canTick x) := by
  unfold State.canTick
  with_reducible
    repeat' first
      | assumption | exact Fr.up (by decide) hp | apply State.canLater_parts
      | apply State.udsPump_parts | apply State.canIntegrated_parts | apply State.canDrain_parts | lift_lets
      | (intro y; refine Fr.cut p s y ?_ (fun hy => ?_); (on_goal 1 => subst y); (on_goal 2 => clear_value y)) | intro y

end Sys2Proof.Machine
end

