-- ==== Sys2Proof/Tests/Slice0.lean ====
section
/-!
SUPPORT. Slice0.lean: the author's own tests. First an ill-formed command for each check of WellFormed; then, for every obligation with
hypotheses, a concrete state and operands that meet them, clause by clause; then small tests of one command each, with expected values
worked out by hand from the rules they name.
-/
namespace Sys2Proof.Tests
open Sys2Proof Sys2Proof.Machine
set_option Elab.async false

/-! ### Ill-formed commands are refused -/

theorem test_ill_client : (Instr.groupApply .Q 1).wellFormed = false := by decide
theorem test_ill_word : (Instr.srcClassify .H (2 ^ 32)).wellFormed = false := by decide
theorem test_ill_key : (Instr.objectWrite .H (4096 * 256) []).wellFormed = false := by decide
theorem test_ill_object_data : (Instr.objectWrite .H 0 [0, 0, 0, 0, 0]).wellFormed = false := by decide
theorem test_ill_segment : (Instr.domainReadSegment .T 0 (2 ^ 32) 0).wellFormed = false := by decide
theorem test_ill_index : (Instr.wholeObjectRead .H 4096).wellFormed = false := by decide
theorem test_ill_lease : (Instr.modeLeaseExpiry .S).wellFormed = false := by decide
theorem test_ill_port_word : (Instr.portLatchWrite (2 ^ 32) 0 none).wellFormed = false := by decide
theorem test_ill_link_code : (Instr.offer .east 1 (List.replicate 12 2)).wellFormed = false := by decide
theorem test_ill_link_length : (Instr.request .east 1 (List.replicate 11 2) 0).wellFormed = false := by decide
theorem test_ill_fabric_header : (Instr.topo .west 256 0 0 []).wellFormed = false := by decide
theorem test_ill_fabric_type : (Instr.fabricResponse .west 1 0x12 []).wellFormed = false := by decide
theorem test_ill_fabric_object : (Instr.readReq .west 1 4096 []).wellFormed = false := by decide
theorem test_ill_uid : (Instr.topoRecordExpiry (2 ^ 64)).wellFormed = false := by decide
theorem test_ill_txn : (Instr.fabricRequestTimeout 256).wellFormed = false := by decide
theorem test_ill_source : (Instr.faultLost 32).wellFormed = false := by decide
theorem test_ill_record_slot : (Instr.faultRecordRead .H 65).wellFormed = false := by decide
theorem test_ill_lock : (Instr.odLockWrite .H 256 1).wellFormed = false := by decide
theorem test_ill_checkin : (Instr.wdCheckin .H (2 ^ 16) 0).wellFormed = false := by decide
theorem test_ill_can_opcode : (Instr.canRead false true [2, 0, 0, 0]).wellFormed = false := by decide
theorem test_ill_can_length : (Instr.canRead false true [1, 0, 0, 0, 0, 0, 0, 0, 0]).wellFormed = false := by decide
theorem test_ill_lin_length : (Instr.linCommand [0] true true).wellFormed = false := by decide
theorem test_ill_lin_service : (Instr.assignNad [0, 6, 0xB2, 0, 0, 0, 0, 0] true true).wellFormed = false := by decide
theorem test_ill_first_frame : (Instr.firstFrame false true 4096 false []).wellFormed = false := by decide
theorem test_ill_consecutive : (Instr.consecutiveFrame 16 [0]).wellFormed = false := by decide
theorem test_ill_flow_control : (Instr.flowControl 3 256 0).wellFormed = false := by decide
theorem test_ill_uds_service : (Instr.testerPresent false true [0x10, 0]).wellFormed = false := by decide
theorem test_ill_uds_subfunction : (Instr.ecuResetHard false true [0x11, 3]).wellFormed = false := by decide
theorem test_ill_uds_length : (Instr.testerPresent false false (0x3E :: List.replicate 7 0)).wellFormed = false := by decide
theorem test_ill_routine : (Instr.routineTableSwitch false true [0x31, 1, 2, 3]).wellFormed = false := by decide
theorem test_ill_image : (Instr.tableLoad .Q []).wellFormed = false := by decide

/-! ### States for the tests -/

/-- A state with objects set. -/
def wr (s : State) (l : List (Nat × Nat)) : State := l.foldl (fun s e => s.set e.1 e.2) s

/-- An ML4860-A in Idle, with the shell up. -/
def on : State := wr { State.reset with aon := { por := false, shell := true } }
  [(Obj.BRINGUP_STEP, 0), (Obj.VARIANT, 1), (Obj.MODE_STATE, 2)]

/-- The same with the shell away. -/
def alone : State := { on with aon := { por := false }, strat := { absent := true } }

/-- A state meets hypotheses. -/
def meets (s : State) (p : State → Bool) : Bool := p s

/-! ### A witness for the hypotheses of every obligation -/
/-- A reachable canonical state with a command waiting; its step answers. -/
theorem witness_StepKeepsCanonicalForm :
    State.reset.canonical ∧ step { State.reset with pending := [.heartbeat] } = .next State.reset := by
  refine ⟨⟨by decide, by decide, by decide, ?_, by decide⟩, rfl⟩
  intro e h
  cases h

theorem witness_StepTakesTheFrontCommand : State.reset.pending = [] := rfl

theorem witness_StepKeepsFusesAndQueue :
    State.reset.blown (.lock 0) ∧ State.reset.blown (.bit 0 0 0) ∧ State.reset.queueWellFormed ∧
      step { State.reset with pending := [.heartbeat] } = .next State.reset := by
  refine ⟨by unfold State.blown Fuse.blownIn; decide, by unfold State.blown Fuse.blownIn; decide, ?_, rfl⟩
  intro c h
  cases h

/-- The heartbeat is none of the commands excepted. -/
theorem witness_WhatFewCommandsChange :
    exec .heartbeat State.reset = .next State.reset ∧ (∀ d, Instr.heartbeat ≠ .powerOnResetRelease d) ∧
      (∀ a b d e, Instr.heartbeat ≠ .bringupStepComplete a b d e) ∧ Instr.heartbeat ≠ .powerOnReset ∧ Instr.heartbeat ≠ .hourRecord := by
  refine ⟨rfl, ?_, ?_, ?_, ?_⟩ <;> intros <;> intro h <;> cases h

theorem witness_SetpointAndWakeWritesRefused :
    meets on (fun s => leNat [0, 1] < s.obj Obj.RAIL_FLOOR ∧ s.served .H = true ∧
      s.writeCodeA .H Obj.RAIL_SETPOINT (leNat [0, 1]) ([0, (1 : Byte)].length == 2) = 0) ∧
    meets on (fun s => leNat [4, 0] % 4 = 0 ∧ s.served .H = true ∧
      s.writeCodeA .H Obj.WAKE_CFG (leNat [4, 0]) ([4, (0 : Byte)].length == 2) = 0) := by
  decide +kernel

theorem witness_TokenOfEachPeriod :
    meets (wr on [(Obj.WD_STATE, 1)]) (fun s => s.shellUp = true ∧ s.obj Obj.WD_STATE = 1 ∧ s.wdQuiet = false ∧
      s.wdMissing 3 = true) := by decide +kernel

/-- Every group in step, all sixteen phases active, the source connected. -/
def running : State := { on with
  grp := ⟨{ freq := 10000 }, { freq := 10000 }, { freq := 10000 }, { freq := 10000 }⟩
  ph := Vector.replicate 16 { code := 1, weight := 4, pos := 1 }
  core := { disc := true } }

theorem witness_PowerOnResetAndVaux :
    meets on (fun s => s.aon.por = false ∧ s.obj Obj.VAUX_STATE ≠ 1 ∧ s.serving = true ∧ s.bringing = false ∧ s.inMode [0, 1] = false) ∧
    meets { on with aon := { por := false } } (fun s => s.aon.por = false ∧ s.obj Obj.VAUX_STATE ≠ 1 ∧ s.aon.shell = false) ∧
    meets (wr on [(Obj.VAUX_STATE, 1)]) (fun s => s.obj Obj.VAUX_STATE = 1) := by
  decide +kernel

theorem witness_ResetReleaseStartsBringUp :
    meets State.reset (fun s => s.aon.por = true) ∧
    meets { State.reset with aon := { overcast := true } } (fun s => s.aon.por = true ∧ s.aon.overcast = true) ∧
    meets { on with aon := { on.aon with resetLevel := 2 } } (fun s => s.aon.resetLevel ≠ 0 ∧ s.aon.nrstDrive = false) := by decide +kernel
theorem witness_PinResetsAndBringUpSteps :
    meets on (fun s => s.aon.por = false ∧ s.inMode [0, 1] = false ∧ s.aon.resetLevel = 0) ∧
    meets { on with aon := { on.aon with resetLevel := 1 } } (fun s => s.aon.resetLevel = 1) ∧
    meets (wr on [(Obj.BRINGUP_STEP, 1)]) (fun s => s.aon.por = false ∧ s.aon.resetLevel = 0 ∧ s.obj Obj.BRINGUP_STEP = 1) ∧
    meets (wr on [(Obj.BRINGUP_STEP, 2)]) (fun s => s.aon.por = false ∧ s.aon.resetLevel = 0 ∧ s.obj Obj.BRINGUP_STEP = 2) ∧
    meets (wr on [(Obj.BRINGUP_STEP, 3)]) (fun s => s.aon.por = false ∧ s.aon.resetLevel = 0 ∧ s.obj Obj.BRINGUP_STEP = 3 ∧
      s.coreLevel = false ∧ s.variant = .A) ∧
    meets { wr on [(Obj.BRINGUP_STEP, 3), (Obj.RESET_CAUSE, 1)] with aon := { on.aon with bringKind := 2 } } (fun s =>
      s.aon.por = false ∧ s.aon.resetLevel = 0 ∧ s.obj Obj.BRINGUP_STEP = 3 ∧ s.coreLevel = true) ∧
    meets (wr on [(Obj.BRINGUP_STEP, 4), (Obj.STRAPS, 0xC0)]) (fun s => s.aon.por = false ∧ s.aon.resetLevel = 0 ∧ s.obj Obj.BRINGUP_STEP = 4 ∧
      s.clkm = 3 ∧ s.coreLevel = false) ∧
    meets (wr on [(Obj.BRINGUP_STEP, 5)]) (fun s => s.aon.por = false ∧ s.aon.resetLevel = 0 ∧ s.obj Obj.BRINGUP_STEP = 5 ∧
      s.aon.clockStopped = false) ∧
    meets (wr on [(Obj.BRINGUP_STEP, 6)]) (fun s => s.aon.por = false ∧ s.aon.resetLevel = 0 ∧ s.obj Obj.BRINGUP_STEP = 6 ∧
      s.aon.clockStopped = false ∧ s.fab.boot = none) ∧
    meets (wr on [(Obj.BRINGUP_STEP, 10)]) (fun s => s.aon.por = false ∧ s.aon.resetLevel = 0 ∧ s.obj Obj.BRINGUP_STEP = 10 ∧
      s.aon.clockStopped = false ∧ s.aon.overcast = false ∧ s.strat.absent = false) := by
  decide +kernel

theorem witness_WakeEventsStartBringUp :
    meets (wr { on with aon := { por := false } } [(Obj.MODE_STATE, 1), (Obj.WAKE_CFG, 15)]) (fun s => (s.modeNow = 0 ∨ s.modeNow = 1) ∧
      s.bringing = false ∧ s.aon.por = false ∧ s.mode.parkCheck = false ∧ bit (s.obj Obj.WAKE_CFG) 0 = true ∧
      bit (s.obj Obj.WAKE_CFG) 1 = true ∧ s.aon.shell = false) ∧
    meets on (fun s => s.shellUp = true ∧ s.bringing = false ∧ s.aon.overcast = false ∧ s.mode.park ≠ 5 ∧ s.src.cls = 0) ∧
    meets (wr on [(Obj.MODE_STATE, 1)]) (fun s => s.modeNow = 1 ∧ s.bringing = false ∧ s.aon.por = false ∧ s.mode.parkCheck = false) ∧
    meets { wr on [(Obj.MODE_STATE, 1), (Obj.WAKE_CFG, 1)] with mode := { parkCheck := true }, aon := { on.aon with wake := some 3 } } (fun s =>
      s.modeNow = 1 ∧ s.bringing = false ∧ s.aon.por = false ∧ s.mode.parkCheck = true ∧ bit (s.obj Obj.WAKE_CFG) 0 = true ∧
      s.meas.left = 0 ∧ s.aon.wake = some 3) := by
  decide +kernel

theorem witness_ModeRequestsResolve :
    meets on (fun s => s.served .H = true ∧ s.shellUp = true ∧ s.bringing = false ∧ s.aon.overcast = false ∧ s.inMode [2, 3] = true ∧
      s.writeCode .H (0x0101 * 256 + Master.H.code) (leBytes 1 2) = 0) ∧
    meets on (fun s => s.served .H = true ∧ s.served .S = true ∧ s.shellUp = true ∧ s.bringing = false ∧ s.aon.overcast = false ∧
      s.inMode [2, 3] = true ∧ s.writeCode .H (0x0101 * 256 + Master.H.code) (leBytes 1 3) = 0 ∧
      s.writeCode .S (0x0101 * 256 + Master.S.code) (leBytes 1 1) = 0) ∧
    meets on (fun s => s.served .H = true ∧ s.shellUp = true ∧ s.bringing = false ∧ s.aon.overcast = false ∧ s.modeNow = 2 ∧
      s.mode.park ≠ 5 ∧ s.obj Obj.TSD_STATE = 0 ∧ s.obj Obj.MODE_TARGET ≠ 3 ∧ (s.set (0x0101 * 256 + Master.H.code) 3).resolved = 3 ∧
      s.writeCode .H (0x0101 * 256 + Master.H.code) (leBytes 1 3) = 0) ∧
    meets { wr on [(Obj.MODE_LEASE_H, 5)] with mode := { leaseH := true } } (fun s => s.shellUp = true ∧ s.bringing = false ∧
      s.aon.overcast = false ∧ s.inMode [2, 3] = true ∧ s.mode.leaseH = true ∧ s.obj Obj.MODE_LEASE_H ≠ 0) ∧
    meets { wr on [(Obj.MODE_LEASE_F, 5)] with mode := { leaseF := true } } (fun s => s.shellUp = true ∧ s.bringing = false ∧
      s.aon.overcast = false ∧ s.inMode [2, 3] = true ∧ s.mode.leaseF = true ∧ s.obj Obj.MODE_LEASE_F ≠ 0) := by decide +kernel

theorem witness_ParkEntryStages :
    meets (wr on [(Obj.MODE_TARGET, 0xFF), (Obj.IDLE_PARK_DELAY, 60)]) (fun s => s.shellUp = true ∧ s.bringing = false ∧ s.modeNow = 2 ∧
      s.mode.park = 0 ∧ s.obj Obj.MODE_TARGET = 0xFF ∧ s.obj Obj.IDLE_PARK_DELAY ≠ 0 ∧ s.mode.wakeHold = false ∧ s.mode.maint = false ∧ s.obj Obj.TSD_STATE = 0) ∧
    meets { running with mode := { park := 4 } } (fun s => s.shellUp = true ∧ s.modeNow = 2 ∧ s.obj Obj.TSD_STATE = 0 ∧ s.mode.park = 4) ∧
    meets { wr on [(Obj.MODE_TARGET, 1)] with mode := { park := 5, parkCause := 1 } } (fun s => s.shellUp = true ∧ s.modeNow = 2 ∧
      s.obj Obj.TSD_STATE = 0 ∧ s.mode.park = 5 ∧ s.obj Obj.MODE_TARGET ≠ 0 ∧ s.aon.wake = none) ∧
    meets { on with mode := { park := 5 }, aon := { on.aon with wake := some 2 } } (fun s => s.shellUp = true ∧ s.modeNow = 2 ∧
      s.obj Obj.TSD_STATE = 0 ∧ s.mode.park = 5 ∧ s.aon.wake = some 2) ∧
    meets { on with mode := { park := 2 } } (fun s => s.shellUp = true ∧ s.modeNow = 2 ∧ s.obj Obj.TSD_STATE = 0 ∧ s.mode.park = 2 ∧
      s.hz.epoch = none) ∧
    meets { wr on [(Obj.MODE_STATE, 3), (Obj.MODE_TARGET, 0xFF)] with mode := { wakeHold := true } } (fun s => s.mode.wakeHold = true ∧
      s.shellUp = true ∧ s.bringing = false ∧ s.aon.overcast = false ∧ s.modeNow = 3 ∧ s.obj Obj.MODE_TARGET = 0xFF ∧
      s.mode.serviceStay = false ∧ s.obj Obj.TSD_STATE = 0) := by decide +kernel

/-- In bring-up before the core handover, with the charge table and bank A or without. -/
def atStepEight (kind : Nat) (bank : Bool) : State := wr { on with
  aon := { on.aon with bringKind := kind }, tabs := { active := if bank then [(2, List.replicate 512 0)] else [] } }
  [(Obj.BRINGUP_STEP, 8), (Obj.TABLE_ACTIVE, b2n bank)]

theorem witness_StratusAndOvercast :
    meets on (fun s => s.shellUp = true ∧ s.bringing = false ∧ s.inMode [2, 3, 4, 5] = true ∧ s.aon.overcast = false) ∧
    meets (wr on [(Obj.BRINGUP_STEP, 9)]) (fun s => s.shellUp = true ∧ 9 ≤ s.obj Obj.BRINGUP_STEP) ∧
    meets { on with strat := { active := true, link := 0 } } (fun s => s.strat.active = true ∧ s.variant = .A ∧ s.strat.link = 0) ∧
    meets { on with strat := { active := true, link := 1 } } (fun s => s.strat.active = true ∧ s.variant = .A ∧ s.strat.link = 1 ∧
      s.strat.absent = false) ∧
    meets { wr alone [(Obj.MODE_STATE, 6)] with strat := { active := true, link := 1, absent := true } } (fun s => s.strat.active = true ∧
      s.variant = .A ∧ s.strat.link = 1 ∧ s.strat.absent = true ∧ s.modeNow = 6 ∧ s.packDead = true ∧ s.obj Obj.TSD_STATE = 0 ∧
      s.busNow = some 0 ∧ (s.linkZ .east).importing = false) ∧
    meets (atStepEight 0 true) (fun s => s.aon.overcast = false ∧ s.aon.shell = true ∧ s.aon.resetLevel = 0 ∧ s.aon.clockStopped = false ∧
      s.obj Obj.BRINGUP_STEP = 8 ∧ s.strat.absent = false ∧ s.aon.bringKind ≠ 2 ∧ s.noBank = false ∧ s.hasGroup .pack = true) ∧
    meets (atStepEight 0 false) (fun s => s.aon.overcast = false ∧ s.aon.shell = true ∧ s.aon.resetLevel = 0 ∧ s.aon.clockStopped = false ∧
      s.obj Obj.BRINGUP_STEP = 8 ∧ s.strat.absent = false ∧ s.aon.bringKind ≠ 2 ∧ s.noBank = true) ∧
    meets (atStepEight 2 false) (fun s => s.aon.overcast = false ∧ s.aon.shell = true ∧ s.aon.resetLevel = 0 ∧ s.aon.clockStopped = false ∧
      s.obj Obj.BRINGUP_STEP = 8 ∧ s.strat.absent = false ∧ s.aon.bringKind = 2 ∧ s.noBank = true ∧ s.core.rideFromOn = false) ∧
    meets { on with strat := { absent := true, heartbeat := true } } (fun s => s.aon.overcast = false ∧ s.aon.shell = true ∧
      s.aon.resetLevel = 0 ∧ s.aon.clockStopped = false ∧ s.strat.absent = true ∧ s.bringing = false) ∧
    meets { wr on [(Obj.MODE_STATE, 7)] with aon := { on.aon with overcast := true }, strat := { absent := true, heartbeat := true } } (fun s =>
      s.aon.overcast = true ∧ s.aon.shell = true ∧ s.aon.resetLevel = 0 ∧ s.strat.absent = true ∧ s.modeNow = 7 ∧ s.bringing = false) ∧
    meets { on with aon := { on.aon with overcast := true, overcastStage := 1 } } (fun s => s.aon.overcast = true ∧ s.aon.overcastStage = 1) ∧
    meets { on with aon := { on.aon with overcast := true, overcastStage := 2 } } (fun s => s.aon.overcast = true ∧ s.aon.overcastStage = 2) ∧
    meets { on with aon := { on.aon with overcast := true, overcastStage := 3 } } (fun s => s.aon.overcast = true ∧ s.aon.overcastStage = 3) ∧
    meets { on with aon := { on.aon with overcast := true, overcastStage := 4 } } (fun s => s.aon.overcast = true ∧ s.aon.overcastStage = 4) ∧
    meets on (fun s => s.wd.pulseEnd ≤ s.now) ∧ meets { on with wd := { on.wd with pulseEnd := 7 } } (fun s => s.now < s.wd.pulseEnd) := by
  decide +kernel

theorem witness_ClocksSuppliesAndDebugPort :
    meets (wr on [(Obj.CLK_STATE, 1)]) (fun s => s.aon.por = false ∧ s.aon.clockStopped = false ∧ s.acquiring = false ∧ s.obj Obj.CLK_STATE < 4) ∧
    meets (wr on [(Obj.BRINGUP_STEP, 4), (Obj.STRAPS, 128), (Obj.CLK_STATE, 6)]) (fun s => s.obj Obj.BRINGUP_STEP = 4 ∧ s.clkm = 2 ∧
      s.obj Obj.CLK_STATE = 6) ∧
    meets (wr on [(Obj.CLK_STATE, 1)]) (fun s => s.aon.por = false ∧ s.shellUp = true ∧ s.obj Obj.CLK_STATE ≠ 6 ∧ s.aon.buckOff = false) := by decide +kernel

theorem witness_WatchdogPeriodsAndCheckins :
    meets { wr on [(Obj.WD_STATE, 1), (Obj.WD_SEEN, 0xFF), (Obj.WD_TOKEN, 7)] with wd := { on.wd with close := [100], owner := [1] } }
      (fun s => s.shellUp && s.obj Obj.WD_STATE == 1 && !s.wdQuiet && (List.range 16).all fun k => !s.wdMissing k) ∧
    meets { wr on [(Obj.WD_STATE, 1)] with wd := { on.wd with open_ := List.replicate 16 0, close := List.replicate 16 100 } } (fun s =>
      s.shellUp = true ∧ s.obj Obj.WD_STATE = 1 ∧ s.wdQuiet = false ∧ s.wdMissing 6 = true ∧ s.wdLive 6 = true ∧ s.wd.open_.getD 6 0 < s.wd.close.getD 6 0 ∧
      s.wdMissing 12 = false) ∧
    meets { wr on [(Obj.WD_STATE, 1), (Obj.WD_TOKEN, 7)] with wd := { on.wd with enable := 0x1FF, open_ := List.replicate 16 0, close := List.replicate 16 100 } }
      (fun s => s.served .H = true ∧ s.wdQuiet = false ∧ (s.wdAt 5).writeCode .H Obj.WD_CHECKIN (leBytes 2 0x0708) = 0 ∧ field 0x0708 15 8 = s.obj Obj.WD_TOKEN ∧
        bit (s.obj Obj.WD_SEEN) (field 0x0708 3 0) = false ∧ s.wd.open_.getD 8 0 ≤ max s.wd.tick 5 ∧ max s.wd.tick 5 < s.wd.close.getD 8 0) ∧
    meets (wr on [(Obj.MODE_STATE, 5)]) (fun s => wdKey Obj.WD_PERIOD = true ∧ s.served .H = true ∧
      s.writeCode .H Obj.WD_PERIOD (leBytes (((s.keyType Obj.WD_PERIOD).bind ObjType.size).getD 4) (s.obj Obj.WD_PERIOD)) = 0) := by
  decide +kernel

theorem witness_ThermalShutdownAndRelease :
    meets on (fun s => s.tsdPowered = true ∧ s.obj Obj.TSD_STATE = 0) ∧
    meets (wr on [(Obj.TSD_STATE, 1)]) (fun s => s.obj Obj.TSD_STATE = 1 ∧ s.aon.overcast = false) := by decide +kernel

theorem witness_PortWordsAndCommit :
    meets on (fun s => s.portOpen = true ∧ evenParity 0x000003C0 = true ∧ s.wordDefined (field 0x000003C0 31 26) = true ∧
      wordInRange (field 0x000003C0 31 26) (field 0x000003C0 23 0) = true) ∧
    meets on (fun s => s.portOpen = true ∧ evenParity 1 = false ∧ evenParity 0x000003C0 = true) ∧
    meets on (fun s => s.portOpen = true ∧ evenParity 0x00000003 = true ∧ s.wordBad 0x00000003 = true) ∧
    meets running (fun s => s.portOpen = true ∧ evenParity 0xF9000000 = true ∧ field 0xF9000000 31 26 = 0x3E ∧ s.idleGroups = []) := by
  decide +kernel

/-- With the EDGE words at a blanking time of 100 ns and dead times of 20 ns. -/
def edged : State := { running with core := { disc := true, words := [(36, 0x145050), (37, 0x145050), (38, 0x145050), (39, 0x145050)] } }

theorem witness_PhaseCycleAndFeedforward :
    meets { edged with ph := edged.ph.set 3 { code := 1, weight := 4, skip := true } } (fun s => s.switching 3 = true ∧
      (s.phase 3).skip = true ∧ (s.phase 3).cut = false) ∧
    meets { running with core := { disc := true, railOv := 1 } } (fun s => s.switching 8 = true ∧ (s.phase 8).skip = false ∧
      s.heldOff .pack = (s.ctrl .pack == .L)) ∧
    meets edged (fun s => s.switching 8 = true ∧ (s.phase 8).skip = false ∧ s.heldOff .pack = false) ∧
    meets { edged with ph := edged.ph.set 8 { code := 1, weight := 4, level := .L } } (fun s => s.switching 8 = true ∧
      (s.phase 8).skip = false ∧ s.heldOff .pack = false ∧ (s.phase 8).level = s.compl .pack) ∧
    meets { edged with ph := Vector.replicate 16 { code := 1, weight := 4, cut := true } } (fun s => s.switching 3 = true ∧ (s.phase 3).cut = true) ∧
    meets { edged with ph := Vector.replicate 16 { code := 1, weight := 4, on := true } } (fun s => s.switching 3 = true ∧
      (s.phase 3).on = true ∧ 5 * field (s.word 36) 21 16 ≤ 100 ∧ s.threshold 3 100 ≤ s.sensed 3 50000) ∧
    meets { edged with ph := Vector.replicate 16 { code := 1, weight := 4, on := true } } (fun s => s.switching 3 = true ∧
      (s.phase 3).on = true ∧ 50 < 5 * field (s.word 36) 21 16) ∧
    meets { edged with grp := { edged.grp with pack := { freq := 10000, diode := true } } } (fun s => s.switching 8 = true ∧
      (s.phase 8).on = false ∧ (s.g .pack).diode = true ∧ s.sensed 8 0 ≤ 0) := by
  decide +kernel

theorem witness_ProtectionsAndServos :
    meets running (fun s => s.switching 0 = true ∧ (s.phase 0).cut = false ∧ (s.phase 0).peakRun < 2) ∧
    meets { running with ph := Vector.replicate 16 { code := 1, weight := 4, peakRun := 2 } } (fun s => s.switching 0 = true ∧
      (s.phase 0).cut = false ∧ 2 ≤ (s.phase 0).peakRun) ∧
    meets running (fun s => (s.phasesOf (groupOf 15)).contains 15 = true ∧ s.aon.por = false ∧ (s.phase 15).code ≠ 5) ∧
    meets running (fun s => s.core.railOv = 0 ∧ s.convOff = false) ∧
    meets { running with core := { railOv := 1 } } (fun s => s.core.railOv = 1 ∧ s.core.railOv ≠ 0) ∧
    meets { running with core := { railOv := 2 } } (fun s => s.core.railOv = 2 ∧ s.core.railOv ≠ 0) ∧
    meets { running with core := { railOv := 3 } } (fun s => s.core.railOv = 3 ∧ s.core.railOv ≠ 0 ∧ s.convOff = false) ∧
    meets running (fun s => s.hasGroup .west = true ∧ (s.g .west).servo = true ∧ s.aon.por = false ∧ s.shellUp = true) ∧
    meets { running with grp := { running.grp with pack := { servo := false } } } (fun s => (s.g .pack).servo = false) := by decide +kernel

theorem witness_GroupBoundaryAndBalancing :
    meets running (fun s => s.hasGroup .east = true ∧ (s.g .east).freq ≠ 0) ∧
    meets { running with core := { words := [(7, 2 ^ 22 + 96)] } } (fun s => s.hasGroup .east = true ∧ (s.g .east).freq ≠ 0 ∧
      Group.east.port? = some .east ∧ s.provider .east = true) ∧
    meets { running with strat := { absent := true } } (fun s => s.hasGroup .pack = true ∧ (s.g .pack).freq ≠ 0 ∧ s.strat.absent = true ∧
      (s.g .pack).stratus = false ∧ (s.g .pack).lift = false) ∧
    meets { running with grp := { running.grp with pack := { freq := 10000, shedCount := 128 } } } (fun s => s.mayShed .pack = true ∧
      ((s.byPos .pack).filter fun q => (s.phase q).weight == 4).getLast? = some 11) ∧
    meets { running with grp := { running.grp with pack := { blockLeft := 1 } } } (fun s => (s.g .pack).blockLeft = 1) ∧
    meets { running with grp := { running.grp with pack := { cycles16 := 16 } } } (fun s => s.hasGroup .pack = true ∧ (s.g .pack).cycles16 = 16) ∧
    meets { running with
      grp := { running.grp with pack := { cycles16 := 16, icmd := -60000 } }, ph := Vector.replicate 16 { code := 3, weight := 4, pos := 1 }
      core := { words := (List.range 16).map fun p => (16 + p, 2 ^ 22 + 2 ^ 13) } } (fun s => s.hasGroup .pack = true ∧
        (s.g .pack).cycles16 = 16 ∧ s.balFrozen .pack = false ∧ (s.phase 8).code = 3 ∧ bit (s.word (16 + 8)) 22 = true) ∧
    meets running (fun s => (s.phasesOf (groupOf 5)).contains 5 = true ∧ s.pwm 5 = .Z) := by decide +kernel

theorem witness_GroupStopsAndEvents :
    meets { running with grp := { running.grp with pack := { fold := 400000, q := 400000 } } } (fun s => (s.g .pack).fold < 1000000 ∧
      (s.g .pack).q < 500000 ∧ (s.g .pack).foldStopped = false) ∧
    meets { running with grp := { running.grp with pack := { foldStopped := true } } } (fun s => (s.g .pack).foldStopped = true ∧
      (s.g .pack).foldLocked = false) ∧
    meets { running with grp := { running.grp with pack := { soft := true, softCycles := 256, railV := 960, vref := 48000000 } } } (fun s =>
      (s.g .pack).soft = true ∧ 256 ≤ (s.g .pack).softCycles ∧ (s.g .pack).vref = s.vTarget .pack) ∧
    meets { running with grp := { running.grp with pack := { fold := 400000 } } } (fun s => (s.g .pack).fold < 1000000 ∧
      s.strat.absent = false ∧ (s.col.bus.filter fun m => m.src == sourceOf .pack).length < 4) ∧
    meets { alone with grp := { running.grp with west := { sync := 1 } } } (fun s => (s.g .west).sync = 1 ∧ s.strat.absent = true ∧
      s.core.queue.length < 16) := by decide +kernel

/-- The group West synchronised to a reference (GROUP_SYNC in its FREQ word). -/
def synced (n run : Nat) : State := { running with
  core := { disc := true, words := [(35, 2 ^ 16 + 1000)] }
  grp := { running.grp with west := { freq := 10000, period := 1000000, sync := n, lockRun := run } } }

theorem witness_Synchronisation :
    meets (synced 0 0) (fun s => s.hasGroup .west = true ∧ (s.g .west).freq ≠ 0 ∧ s.core.pend = [] ∧ s.syncSource .west ≠ 0 ∧
      (s.g .west).syncBarred = false ∧ s.refFreq .west 10000 ≠ 0 ∧ (s.g .west).sync = 0) ∧
    meets (synced 1 3) (fun s => s.hasGroup .west = true ∧ (s.g .west).freq ≠ 0 ∧ s.core.pend = [] ∧ s.syncSource .west ≠ 0 ∧
      (s.g .west).syncBarred = false ∧ s.refFreq .west 10000 ≠ 0 ∧ (s.g .west).sync = 1) ∧
    meets (synced 1 64) (fun s => (s.g .west).sync = 1 ∧ 64 ≤ (s.g .west).lockRun) ∧
    meets (synced 1 63) (fun s => (s.g .west).sync = 1 ∧ (s.g .west).lockRun < 64) ∧
    meets (synced 2 64) (fun s => (s.g .west).sync = 2) ∧
    meets running (fun s => s.shellUp = true ∧ s.idleGroups = []) := by decide +kernel

/-- With the bus's thresholds: 7.0 V to resume for 100 ms, a dump at 240 (12 V) held for 50 ms. -/
def thresholds : List (Nat × Nat) := [(10, 100 * 2 ^ 16 + 140), (11, 50 * 2 ^ 16 + 240), (12, 220)]

theorem witness_DropsAndDumps :
    meets running (fun s => s.connected = true ∧ s.shellUp = true ∧ s.core.disc = true ∧ s.inMode [2, 3, 5] = true ∧ s.bringing = false ∧
      s.mode.railOff = false ∧ s.aon.overcast = false ∧ s.mode.park ≠ 5 ∧ s.obj Obj.TSD_STATE = 0) ∧
    meets (wr { running with tabs := { active := [(2, List.replicate 512 0)] } } [(Obj.PACK_CELLS, 10), (Obj.PACK_STATE, 1)]) (fun s => s.connected = true ∧ s.shellUp = true ∧ s.packDead = false) ∧
    meets (wr running [(Obj.TSD_STATE, 1)]) (fun s => s.connected = true ∧ s.shellUp = true ∧ s.obj Obj.TSD_STATE = 1) ∧
    meets { running with aon := { por := false } } (fun s => s.connected = true ∧ s.shellUp = false ∧ s.strat.absent = false) ∧
    meets running (fun s => (s.phasesOf .input).contains 4 = true ∧ groupOf 4 = .input ∧ s.core.disc = true ∧ s.shellUp = true) ∧
    meets { running with aon := { por := false } } (fun s => (s.phasesOf .input).contains 4 = true ∧ groupOf 4 = .input ∧ s.core.disc = true ∧
      s.shellUp = false ∧ s.strat.absent = false) ∧
    meets { running with core := { disc := true, words := thresholds } } (fun s => s.connected = true ∧ s.dumpAt ≠ 0 ∧
      s.core.dumped = false ∧ s.shellUp = true) ∧
    meets { alone with core := { disc := true, words := thresholds } } (fun s => s.connected = true ∧ s.dumpAt ≠ 0 ∧ s.core.dumped = false ∧
      s.shellUp = false) ∧
    meets { running with core := { disc := true, words := thresholds } } (fun s => s.connected = true ∧ s.dumpAt ≠ 0 ∧ s.core.dumped = false ∧
      s.core.disc = true ∧ s.inMode [2, 3, 5] = true ∧ s.bringing = false ∧ s.mode.railOff = false ∧ s.aon.overcast = false ∧
      s.mode.park ≠ 5 ∧ s.obj Obj.TSD_STATE = 0) ∧
    meets running (fun s => s.dumpAt = 0) := by decide +kernel

theorem witness_ReconnectionAndDetach :
    meets { on with core := { dropped := true, words := thresholds } } (fun s => s.core.disc = false ∧ 1000 * s.qualify ≤ 100000 ∧
      s.resumes 10000 = true ∧ (s.core.dropped || s.core.dumped) = true ∧ s.src.cls = 0 ∧ s.aon.por = false ∧ s.obj Obj.TSD_STATE = 0 ∧
      s.core.overRail = false ∧ s.convOff = false ∧ s.src.waiting = false ∧ s.src.reclass = false ∧ s.modeNow ≠ 4 ∧ s.shellUp = true) ∧
    meets { wr on [(Obj.MODE_STATE, 4), (Obj.MODE_PREV, 3)] with core := { dropped := true, words := thresholds } } (fun s =>
      s.core.disc = false ∧ 1000 * s.qualify ≤ 100000 ∧ (s.core.dropped || s.core.dumped) = true ∧ s.src.cls = 0 ∧ s.aon.por = false ∧
      s.obj Obj.TSD_STATE = 0 ∧ s.core.overRail = false ∧ s.convOff = false ∧ s.src.waiting = false ∧ s.src.reclass = false ∧
      s.shellUp = true ∧ s.modeNow = 4 ∧ s.mode.parkRestart = false ∧ s.mode.stored = false ∧ s.resumes 10000 = true) ∧
    meets { alone with core := { dropped := true, words := thresholds } } (fun s => s.core.disc = false ∧ 1000 * s.qualify ≤ 100000 ∧
      s.resumes 10000 = true ∧ (s.core.dropped || s.core.dumped) = true ∧ s.src.cls = 0 ∧ s.aon.por = false ∧ s.obj Obj.TSD_STATE = 0 ∧
      s.core.overRail = false ∧ s.convOff = false ∧ s.shellUp = false) ∧
    meets { on with core := { overRail := true, words := [(0, 960)] } } (fun s => s.core.disc = false ∧ s.core.overRail = true ∧
      12000 < 50 * s.word 0 ∧ s.core.dropped = false ∧ s.core.dumped = false ∧ s.src.cls = 0) ∧
    meets { on with core := { dropped := true, words := thresholds } } (fun s => s.resumes 6500 = false ∧ 99999 < 1000 * s.qualify) ∧
    meets { on with core := { disc := true, words := [(0, 960)] } } (fun s => s.connected = true ∧ 50 * s.word 0 + 1000 < 50000) ∧
    meets { alone with core := { gateOff := true, words := [(0, 960)] } } (fun s => s.connected = true ∧ 50 * s.word 0 + 1000 < 50000 ∧
      s.shellUp = false) ∧
    meets (wr on [(Obj.SRC_STATE, 2)]) (fun s => s.shellUp = true ∧ s.obj Obj.SRC_STATE ≠ 0) ∧
    meets (wr on [(Obj.SRC_STATE, 2), (Obj.MODE_STATE, 1)]) (fun s => s.shellUp = true ∧ s.obj Obj.SRC_STATE ≠ 0 ∧ s.railMode = false) := by decide +kernel

theorem witness_DisconnectPathAndCoreStops :
    meets { on with core := { precharge := true } } (fun s => s.core.precharge = true) ∧
    meets { on with core := { disc := true, precharge := true }, grp := { on.grp with input := { stops := 256 } } } (fun s =>
      s.core.precharge = true ∧ s.src.cls = 0 ∧ s.core.disc = true) ∧
    meets on (fun s => s.aon.por = false ∧ s.shellUp = true ∧ s.core.disc = false ∧ groupOf 2 = .input ∧ (s.phasesOf .input).contains 2 = true) ∧
    meets { running with aon := { por := false }, core := { overRail := true } } (fun s => s.aon.por = false ∧ s.shellUp = false ∧
      s.core.disc = false ∧ (s.phasesOf .input).contains 2 = true) ∧
    meets running (fun s => s.hasGroup .east = true ∧ (s.phasesOf .east).any s.switching = true ∧ bit (s.g .east).stops 1 = false) ∧
    meets running (fun s => s.hasGroup .pack = true ∧ (s.phasesOf .pack).any s.switching = true ∧ bit (s.g .pack).stops 1 = false) ∧
    meets { running with grp := { running.grp with input := { passRun := 3 } } } (fun s => s.core.disc = true ∧ 3 ≤ (s.g .input).passRun ∧
      (s.g .input).pass = false ∧ s.aon.por = false ∧ s.core.stall = false ∧ s.convOff = false ∧ (s.g .input).stops = 0 ∧
      (s.phasesOf .input).contains 2 = true ∧ (s.phase 2).code ≠ 5 ∧ (s.phase 2).weight ≠ 0 ∧ (s.phase 2).level ≠ .H) ∧
    meets { running with grp := { running.grp with input := { passRun := 3 } }, ph := Vector.replicate 16 { code := 1, weight := 4, level := .H } }
      (fun s => s.core.disc = true ∧ 3 ≤ (s.g .input).passRun ∧ (s.g .input).pass = false ∧ (s.phase 2).level = .H) ∧
    meets on (fun s => s.aon.por = false ∧ s.aon.buckOff = false ∧ s.inMode [0, 1] = false) := by decide +kernel
theorem witness_Classification :
    meets (wr on [(Obj.SRC_STATE, 2)]) (fun s => s.served .H = true ∧ s.writeCode .H Obj.SRC_CLASSIFY (leBytes 1 1) = 0 ∧ s.obj Obj.SRC_STATE = 2) ∧
    meets (wr on [(Obj.SRC_STATE, 3)]) (fun s => s.served .H = true ∧ s.writeCode .H Obj.SRC_CLASSIFY (leBytes 1 1) = 0 ∧
      3 ≤ s.obj Obj.SRC_STATE ∧ s.obj Obj.SRC_STATE ≤ 5) ∧
    meets { on with src := { cls := 1 } } (fun s => s.src.cls = 1 ∧ s.shellUp = true ∧ s.src.fromConnected = false ∧ 60000 < 61000) ∧
    meets (wr on [(Obj.SRC_STATE, 6)]) (fun s => s.served .H = true ∧ s.writeCode .H Obj.SRC_CLASSIFY (leBytes 1 1) = 0 ∧ s.obj Obj.SRC_STATE = 6) ∧
    meets { on with src := { cls := 1, fromConnected := true } } (fun s => s.src.cls = 1 ∧ s.shellUp = true ∧ s.src.fromConnected = true) ∧
    meets { on with src := { cls := 2, window := true }, core := { disc := true } } (fun s => s.src.cls = 2 ∧ s.shellUp = true ∧
      s.core.disc = true ∧ s.core.precharge = false ∧ s.src.window = true ∧ s.src.fromConnected = false) ∧
    meets { on with src := { cls := 3 } } (fun s => s.src.cls = 3 ∧ s.src.fromConnected = false) ∧
    meets { wr on [(Obj.SRC_STATE, 1)] with src := { cls := 4 } } (fun s => 2 ≤ s.src.cls ∧ s.src.cls ≠ 3 ∧ s.shellUp = true ∧ s.modeNow ≠ 4 ∧
      s.obj Obj.SRC_STATE ≠ 0 ∧ s.src.stepOn = false) ∧
    meets (wr on [(Obj.SRC_TYPE, 5), (Obj.SRC_STATE, 2)]) (fun s => s.serving = true ∧ s.obj Obj.SRC_TYPE = 5 ∧ s.src.cls = 0 ∧
      [0, 1, 6].contains (s.obj Obj.SRC_STATE) = false ∧ s.src.lastWindow = false) := by decide +kernel

theorem witness_InputLimitAndGroupApply :
    meets (wr on [(Obj.SRC_TYPE, 2), (Obj.SRC_STATE, 2)]) (fun s => s.serving = true ∧ s.obj Obj.SRC_TYPE ≠ 0 ∧ s.obj Obj.SRC_STATE ≠ 0 ∧
      2 * s.obj Obj.SRC_MEAS_I_HARN < s.srcRow s.curRow 10 2 ∧ s.src.harnessLow = false ∧ (s.col.bus.filter fun m => m.src == 6).length < 4) ∧
    meets running (fun s => s.served .H = true ∧ s.writeCode .H Obj.GROUP_APPLY (leBytes 1 (Group.pack.num + 1)) = 0) := by decide +kernel

theorem witness_EnvelopeFramesAndTimer :
    meets (wr on [(Obj.ENV_STATE, 3)]) (fun s => s.shellUp = true ∧ s.env.cfgPend = false ∧ s.envState = 3 ∧ s.obj Obj.PLAY_AUTO ≠ 1) ∧
    meets { wr on [(Obj.ENV_STATE, 1)] with env := { on.env with seen := true, rate := 2 } } (fun s => s.shellUp = true ∧ s.env.cfgPend = false ∧
      s.envState = 1 ∧ s.env.seen = true ∧ s.obj Obj.PLAY_AUTO ≠ 1) ∧
    meets { wr on [(Obj.ENV_STATE, 1), (Obj.PLAY_AUTO, 1), (Obj.MODE_TARGET, 0xFF)] with env := { on.env with seen := true, rate := 2, present := 3 } }
      (fun s => s.shellUp = true ∧ s.env.cfgPend = false ∧ s.envState ≠ 0 ∧ s.obj Obj.PLAY_AUTO = 1 ∧ s.modeNow = 2 ∧ s.bringing = false ∧
        s.mode.park ≠ 5 ∧ s.env.seen = true ∧ 3 ≤ s.env.present ∧ [0, 1, 2].contains (s.obj Obj.MODE_TARGET) = false) ∧
    meets { wr on [(Obj.ENV_CFG, 0x80)] with env := { on.env with cfgPend := true } } (fun s => s.shellUp = true ∧ s.env.cfgPend = true ∧
      bit (s.obj Obj.ENV_CFG) 0 = false) ∧
    meets (wr { alone with env := { alone.env with silent := true } } [(Obj.MODE_STATE, 6)]) (fun s => s.shellUp = false ∧ s.modeNow = 6 ∧
      bit s.env.cfg 0 = true ∧ s.env.silent = true) ∧
    meets (wr on [(Obj.ENV_STATE, 2)]) (fun s => s.shellUp = true ∧ s.envState = 2 ∧ s.env.missing < 4) := by decide +kernel

/-- The envelope port in step, at 48 kHz. -/
def playing : State := { wr on [(Obj.ENV_STATE, 2)] with env := { on.env with rate := 2, seen := true, hdr := some 0x40000000 } }

theorem witness_DemandAndGrant :
    meets playing (fun s => s.envRun = true ∧ s.env.rate ≠ 0 ∧ s.env.seen = true) ∧
    meets playing (fun s => s.env.hdr = some 0x40000000 ∧ s.envRun = true ∧ s.env.rate ≠ 0 ∧ s.env.seen = true ∧ bit 0x40000000 2 = false) ∧
    meets { playing with env := { playing.env with hdr := some 0x40000101 } } (fun s => s.env.hdr = some 0x40000101 ∧ s.envRun = true ∧
      s.env.rate ≠ 0 ∧ bit 0x40000101 2 = false ∧ bit 0x40000101 0 = true) ∧
    meets { playing with env := { playing.env with sent := some 5 } } (fun s => s.envRun = true ∧ s.env.rate ≠ 0 ∧ s.env.sent = some 5) ∧
    meets on (fun s => s.served .H = true ∧ s.writeCode .H Obj.ENV_CFG (leBytes 2 0x81) = 0) := by decide +kernel

theorem witness_SlotsAndScans :
    meets (wr on [(Obj.SCAN_STATE, 1), (Obj.SCAN_EFFECTIVE 0, 2)]) (fun s => s.scanningNow = true ∧ s.nextCh 0 = some 1 ∧ s.cells ≤ 1) ∧
    meets (wr on [(Obj.SCAN_STATE, 1), (Obj.SCAN_EFFECTIVE 1, 3), (Obj.PACK_CELLS, 10), (Obj.PACK_Q, 500)]) (fun s => s.scanningNow = true ∧
      s.nextCh 1 = some 0 ∧ s.cells ≤ 16 ∧ s.obj Obj.PACK_Q ≠ 0) ∧
    meets { wr on [(Obj.SCAN_STATE, 1), (Obj.SCAN_EFFECTIVE 2, 3), (Obj.RESULTS 32, 0), (Obj.RESULTS 33, 0), (Obj.RESULTS 34, 0), (Obj.RESULTS 35, 0)]
      with meas := { next := [0, 0, 2, 0] } } (fun s => s.scanningNow = true ∧ bit s.meas.done 2 = false ∧ s.nextCh 2 = none ∧
      s.obj Obj.SCAN_STATE = 1 ∧ s.shellUp = true ∧ s.haveBoth 32 33 = true ∧ s.haveBoth 34 35 = true) ∧
    meets { wr alone [(Obj.SCAN_STATE, 3)] with meas := { left := 2, done := 13 } } (fun s => s.scanningNow = true ∧ bit s.meas.done 1 = false ∧
      s.nextCh 1 = none ∧ s.obj Obj.SCAN_STATE = 3 ∧ s.shellUp = false ∧ setBit s.meas.done 1 true = 15) ∧
    meets (wr on [(Obj.SCAN_STATE, 1), (Obj.SCAN_EFFECTIVE 2, 3)]) (fun s => s.scanningNow = true ∧ bit s.meas.done 2 = false ∧
      2 * s.scanTime 2 + 1000 < 10000000 ∧ s.aon.shell = true) := by decide +kernel

theorem witness_CalibrationAndCommonTrigger :
    meets { on with meas := { cal := 2 } } (fun s => s.meas.cal = 2) ∧
    meets on (fun s => s.served .H = true ∧ s.writeCode .H Obj.SELFCAL_CMD (leBytes 1 1) = 0) ∧
    meets { wr on [(Obj.CAL_STATE, 3), (Obj.SCAN_STATE, 1)] with now := sec 100000 } (fun s => 3 ≤ s.obj Obj.CAL_STATE ∧
      s.thm.cal.due s.now = true ∧ s.meas.cal = 0 ∧ s.meas.refresh = none ∧ s.obj Obj.SCAN_STATE = 1) ∧
    meets (wr on [(Obj.CAL_STATE, 2)]) (fun s => s.shellUp = true ∧ s.bringing = false ∧ s.calReached < 3 ∧ s.meas.staleSaid = false) ∧
    meets { wr on [(Obj.SCAN_STATE, 1)] with meas := { done := 15 } } (fun s => s.obj Obj.SCAN_STATE = 1 ∧ s.meas.done = 15 ∧ s.shellUp = true ∧
      s.meas.cal ≠ 1) ∧
    meets { wr on [(Obj.SCAN_STATE, 1)] with meas := { done := 15, cal := 1 } } (fun s => s.obj Obj.SCAN_STATE = 1 ∧ s.meas.done = 15 ∧
      s.shellUp = true ∧ s.meas.cal = 1) ∧
    meets { wr alone [(Obj.SCAN_STATE, 1)] with meas := { done := 15 } } (fun s => s.obj Obj.SCAN_STATE = 1 ∧ s.meas.done = 15 ∧
      s.shellUp = false) := by decide +kernel

theorem witness_SquallRecorder :
    meets on (fun s => s.served .H = true ∧ s.writeCode .H Obj.REC_TRIGGER (leBytes 1 1) = 0) ∧
    meets { wr on [(Obj.REC_CFG, 16)] with ring := { open_ := some { no := 1, t0 := 0 } } } (fun s => s.shellUp = true ∧
      s.ring.open_ = some { no := 1, t0 := 0 } ∧ s.ring.closing = none ∧ s.ring.lost = 0 ∧ bit (s.obj Obj.REC_CFG) 4 = true) ∧
    meets { on with ring := { open_ := some { no := 1, t0 := 0 }, lost := 3 } } (fun s => s.ring.open_ = some { no := 1, t0 := 0 } ∧
      s.ring.closing = none ∧ s.ring.lost ≠ 0) ∧
    meets (wr on [(Obj.VAUX_STATE, 1)]) (fun s => s.flashHeld = true) ∧
    meets { on with ring := { closing := some { no := 1, t0 := 0 } } } (fun s => s.shellUp = true ∧ s.flashHeld = false ∧
      s.ring.closing = some { no := 1, t0 := 0 }) ∧
    meets { wr on [(Obj.FLASH_STATE, 1)] with ring := { closing := some { no := 1, t0 := 0 } } } (fun s => s.shellUp = true ∧ s.flashOk = true ∧
      s.flashHeld = false ∧
      s.ring.closing = some { no := 1, t0 := 0 } ∧ s.archiveBudget ({ no := 1, t0 := 0 } : Capture).size = true) ∧
    meets { on with archive := [{ no := 1, t0 := 0 }] } (fun s => s.served .H = true ∧ s.writeCode .H Obj.REC_KEEP (leBytes 1 1) = 0) := by
  decide +kernel

theorem witness_PackAndChargerObjects :
    meets (wr on [(Obj.PACK_CELLS, 10), (Obj.PACK_VSUM, 37000)]) (fun s => s.shellUp = true ∧ s.obj Obj.PACK_STATE = 0 ∧ s.packThere 37000 = true) ∧
    meets { wr on [(Obj.PACK_CELLS, 10), (Obj.PACK_VSUM, 37000)] with chg := { known := true, lost := true } } (fun s => s.shellUp = true ∧
      s.obj Obj.PACK_STATE = 0 ∧ s.packThere 37000 = true ∧ s.chg.known = true) ∧
    meets (wr on [(Obj.PACK_CELLS, 10), (Obj.PACK_STATE, 1), (Obj.BRINGUP_STEP, 9)]) (fun s => s.shellUp = true ∧ s.cells ≠ 0 ∧ s.obj Obj.PACK_STATE ≠ 0 ∧
      100 < 500 * s.cells) ∧
    meets (wr on [(Obj.PACK_CELLS, 10), (Obj.PACK_STATE, 1), (Obj.MODE_STATE, 1)]) (fun s => s.shellUp = true ∧ s.cells ≠ 0 ∧ s.obj Obj.PACK_STATE ≠ 0 ∧
      100 < 500 * s.cells ∧ s.railMode = false ∧ s.charging = false) ∧
    meets { wr on [(Obj.BRINGUP_STEP, 9)] with core := { words := [(5, 100)] } } (fun s => (s.g .pack).deliver = false ∧ s.chargeLimit ≠ 0 ∧ (s.g .pack).stops = 0 ∧
      s.shellUp = true ∧ s.railMode = false) ∧
    meets { on with core := { words := [(5, 100)] }, aon := { por := false } } (fun s => (s.g .pack).deliver = false ∧ s.chargeLimit ≠ 0 ∧
      (s.g .pack).stops = 0 ∧ s.shellUp = false) ∧
    meets (wr on [(Obj.PACK_CELLS, 2), (Obj.PACK_STATE, 1)]) (fun s => s.shellUp = true ∧ s.bringing = false ∧ s.inMode [2, 3, 5] = true ∧
      s.obj Obj.PACK_STATE ≠ 0 ∧ s.meas.cal ≠ 2 ∧ ([(100, 500), (0, 3000)] : List (Nat × Int)).length = s.cells) ∧
    meets (wr on [(Obj.PACK_CELLS, 2), (Obj.PACK_STATE, 1), (Obj.CHG_STATE, 4)]) (fun s => s.shellUp = true ∧ s.bringing = false ∧
      s.inMode [2, 3, 5] = true ∧ s.obj Obj.PACK_STATE ≠ 0 ∧ s.meas.cal ≠ 2 ∧ ([(101, 3000), (0, 499)] : List (Nat × Int)).length = s.cells ∧
      3 ≤ s.obj Obj.CHG_STATE ∧ s.obj Obj.CHG_STATE ≤ 6) ∧
    meets on (fun s => s.served .H = true ∧ s.writeCode .H Obj.PACK_CELLS (leBytes 1 0) = 0 ∧ s.writeCode .H Obj.CHG_ENABLE (leBytes 1 1) = 0) ∧
    meets (wr on [(Obj.CHG_STATE, 8)]) (fun s => s.served .H = true ∧ s.writeCode .H Obj.CHG_ENABLE (leBytes 1 0) = 0 ∧ s.obj Obj.CHG_STATE = 8) ∧
    meets (wr on [(Obj.MODE_STATE, 5), (Obj.CHG_STATE, 4)]) (fun s => s.served .T = true ∧ s.writeCode .T Obj.CHG_SERVICE (leBytes 1 0) = 0 ∧
      3 ≤ s.obj Obj.CHG_STATE ∧ s.obj Obj.CHG_STATE ≤ 6) ∧
    meets (wr on [(Obj.CHG_FAULTS, 4)]) (fun s => s.served .T = true ∧ s.readCode .T Obj.CHG_FAULTS = 0) := by decide +kernel

/-- A charger with a table of zeros and a pack of ten cells. -/
def charging (st : Nat) : State :=
  { wr on [(Obj.CHG_STATE, st), (Obj.PACK_CELLS, 10), (Obj.PACK_STATE, 1), (Obj.RESULTS 16, resultWord 16 0 false false)] with
    tabs := { active := [(2, List.replicate 512 0)] }, chg := { on.chg with unseen := false } }

theorem witness_ChargeStagesAndTimers :
    meets (wr (charging 5) [(Obj.CHG_CAUSE, 64)]) (fun s => s.shellUp = true ∧ s.obj Obj.CHG_STATE = 5 ∧ bit (s.obj Obj.CHG_CAUSE) 6 = true ∧
      field (s.obj Obj.CHG_CAUSE) 5 1 = 0 ∧ s.chgHeld = false ∧ s.reading 16 400000 = some 0 ∧ -0 ≤ ((100 * s.zoneAt 38 2 : Nat) : Int)) ∧
    meets { charging 6 with tabs := { active := [(2, List.replicate 512 1)] } } (fun s => s.shellUp = true ∧
      s.obj Obj.CHG_STATE = 6 ∧ s.timerOut = false ∧ s.chgHeld = false) ∧
    meets (wr (charging 4) [(Obj.MODE_STATE, 4)]) (fun s => s.shellUp = true ∧ 3 ≤ s.obj Obj.CHG_STATE ∧ s.obj Obj.CHG_STATE ≤ 6 ∧
      s.chgHeld = true) ∧
    meets alone (fun s => s.shellUp = false) ∧
    meets (charging 4) (fun s => s.shellUp = true ∧ 3 ≤ s.obj Obj.CHG_STATE ∧ s.obj Obj.CHG_STATE ≤ 6 ∧ s.timerOut = true ∧ s.chgHeld = false) ∧
    meets (charging 3) (fun s => s.obj Obj.CHG_STATE = 3 ∧ 60 * s.chgAt 24 2 ≤ s.chg.precond) ∧
    meets (wr (charging 1) [(Obj.CELL_STATS_V_MAX, 3500), (Obj.CELL_STATS_V_MIN, 3000), (Obj.PACK_Q, 500)]) (fun s => s.shellUp = true ∧
      s.cells ≠ 0 ∧ s.chgValid = true ∧ s.resting = true ∧
      (s.chgAt 29 1 : Int) < s.vMax - s.vMin) := by decide +kernel

/-- An OCV table of 3.0 V to 4.0 V in steps of 0.1 V. -/
def ocvTable : List Byte := List.replicate 42 0 ++ (List.range 11).flatMap fun k => leBytes 2 (3000 + 100 * k)

theorem witness_ChargeStagesAndTimers_ocv :
    meets { wr (charging 0) [(Obj.PACK_VSUM, 35500), (Obj.PACK_Q, 500)] with tabs := { active := [(2, ocvTable)] } } (fun s =>
      s.shellUp = true ∧ s.cells ≠ 0 ∧ s.chgValid = true ∧ s.obj Obj.PACK_STATE ≠ 0 ∧ s.resting = true ∧ s.ocvSoc (s.obj Obj.PACK_VSUM / s.cells) = some 550) := by
  decide +kernel

theorem witness_LinkMating :
    meets (wr on [(Obj.LINK_STATE 1, 1)]) (fun s => s.variant = .A ∧ s.lState .east ≠ 0 ∧ (s.lp .east).mated = false ∧ s.shellUp = true ∧
      s.lState .east = 1) ∧
    meets (wr alone [(Obj.LINK_STATE 1, 1)]) (fun s => s.variant = .A ∧ s.lState .east ≠ 0 ∧ (s.lp .east).mated = false ∧ s.shellUp = false) ∧
    meets { wr on [(Obj.LINK_STATE 1, 6), (Obj.MODE_STATE, 1)] with link := ⟨{ mated := true }, {}⟩ } (fun s => s.variant = .A ∧
      (s.lp .east).mated = true ∧ s.shellUp = true ∧ 5 ≤ s.lState .east ∧ s.lState .east ≤ 9 ∧ s.railMode = false) ∧
    meets { wr alone [(Obj.LINK_STATE 1, 6)] with link := ⟨{ mated := true }, {}⟩ } (fun s => s.variant = .A ∧ (s.lp .east).mated = true ∧
      s.shellUp = false) ∧
    meets (wr on [(Obj.LINK_STATE 2, 1)]) (fun s => s.linkHere = true ∧ s.lState .west = 1 ∧ (s.lp .west).mated = false ∧ s.bringing = false ∧
      s.inMode [2, 3, 4, 5] = true) ∧
    meets { wr on [(Obj.LINK_STATE 1, 2)] with link := ⟨{ mated := true, burstOk := true, heard := true, moist := 0 }, {}⟩ } (fun s => s.variant = .A ∧
      s.lState .east = 2 ∧ (s.lp .east).mated = true ∧ s.shellUp = true ∧ (s.lp .east).net = false ∧ (s.lp .east).burstOk = true ∧
      (s.lp .east).heard = true ∧ s.moist .east ≠ 2) ∧
    meets { on with link := ⟨{ burst := 1 }, {}⟩ } (fun s => s.linkHere = true ∧ (s.lp .east).burst ≠ 0) := by decide +kernel

/-- A link table: both ports offer, provide, consume and swap, 40 to 108 half-volts, 20 A. -/
def linkTable : List Byte := (List.replicate 2 ([15, 50, 40, 108, 96, 40, 40, 50, 200, 10, 0, 0, 0, 0, 0, 0] : List Byte)).flatten ++ List.replicate 32 0

/-- A mated, served and dry east port in a state of the link, its pair up. -/
def linked (st : Nat) (l : LinkPort) : State :=
  { wr on [(Obj.LINK_STATE 1, st), (Obj.PORT_STATE 1, 3), (Obj.LINK_CEILING, 108), (Obj.LINK_SLEW, 60), (Obj.PACK_SOC, 300)] with
    link := ⟨{ l with mated := true, far := true, heard := true, moist := 0 }, {}⟩
    tabs := { active := [(7, linkTable)] } }

/-- A link message of a code, by a dry port of revision 1. -/
def linkMsg (code id ref : Nat) (body : List Byte) : List Byte := leBytes 1 code ++ leBytes 1 id ++ leBytes 1 ref ++ [1] ++ fitBytes 8 body
/-- A port's state that has sent a message and awaits its answer. -/
def asked (code : Nat) : LinkPort := { await_ := some (linkMsg code 9 0 [96, 40, 50]), now := { volt := 96, curr := 40, slew := 50 } }

theorem witness_LinkMessages :
    meets (linked 3 {}) (fun s => s.linkTakes .east (linkMsg 1 5 0 [40, 108, 40, 50]) = true ∧
      meets (s.linkHeard .east 2 (linkMsg 1 5 0 [40, 108, 40, 50])) (fun x => x.lState .east = 3 ∧ x.linkFree = true ∧ (x.lp .east).net = false ∧
        x.obj Obj.TSD_STATE = 0 ∧ x.consEn .east = true ∧ x.obj Obj.PACK_SOC < 5 * x.linkAt .east 8 ∧
        x.requestOf .east (slice (linkMsg 1 5 0 [40, 108, 40, 50]) 4 7) = some (96, 40, 50))) ∧
    meets (linked 4 (asked 1)) (fun s => s.linkTakes .east (linkMsg 2 5 9 [96, 40, 50]) = true ∧
      meets (s.linkHeard .east 2 (linkMsg 2 5 9 [96, 40, 50])) (fun x => x.lState .east = 4 ∧ x.awaiting .east = 1 ∧
        x.answers .east (linkMsg 2 5 9 [96, 40, 50]) = true ∧ x.linkFree = true ∧ (x.lp .east).net = false ∧ x.obj Obj.TSD_STATE = 0 ∧
        x.grantTermsOf .east 96 40 50 20000 = ({ volt := 96, curr := 40, slew := 50, prov := true }, 7, 0))) ∧
    meets (linked 4 (asked 2)) (fun s => s.linkTakes .east (linkMsg 3 5 9 [96, 40, 50]) = true ∧
      meets (s.linkHeard .east 2 (linkMsg 3 5 9 [96, 40, 50])) (fun x => x.answers .east (linkMsg 3 5 9 [96, 40, 50]) = true ∧
        x.awaiting .east = 2 ∧ x.acceptFits .east (linkMsg 3 5 9 [96, 40, 50]) = true ∧ [4, 5, 6].contains (x.lState .east) = true)) ∧
    meets (linked 4 (asked 2)) (fun s => s.linkTakes .east (linkMsg 3 5 9 [97, 40, 50]) = true ∧
      meets (s.linkHeard .east 2 (linkMsg 3 5 9 [97, 40, 50])) (fun x => x.answers .east (linkMsg 3 5 9 [97, 40, 50]) = true ∧
        x.awaiting .east = 2 ∧ x.acceptFits .east (linkMsg 3 5 9 [97, 40, 50]) = false ∧ [4, 5, 6].contains (x.lState .east) = true)) ∧
    meets (linked 6 (asked 9)) (fun s => s.linkTakes .east (linkMsg 3 5 9 [1]) = true ∧
      meets (s.linkHeard .east 2 (linkMsg 3 5 9 [1])) (fun x => x.answers .east (linkMsg 3 5 9 [1]) = true ∧ x.awaiting .east = 9)) ∧
    meets (linked 5 { next := some { volt := 96 } }) (fun s => s.linkTakes .east (linkMsg 5 5 0 [0, 0, 96]) = true ∧
      meets (s.linkHeard .east 2 (linkMsg 5 5 0 [0, 0, 96])) (fun x => (x.lp .east).next = some { volt := 96 } ∧
        byteAt (linkMsg 5 5 0 [0, 0, 96]) 6 = 96 ∧ x.lState .east = 5)) ∧
    meets (linked 6 { now := { volt := 96, curr := 40 } }) (fun s => s.linkTakes .east (linkMsg 6 5 0 []) = true ∧
      meets (s.linkHeard .east 2 (linkMsg 6 5 0 [])) (fun x => x.lState .east = 6 ∧ x.awaiting .east = 0 ∧ x.swapCurr .east ≠ 0)) ∧
    meets (linked 6 (asked 6)) (fun s => s.linkTakes .east (linkMsg 7 5 9 [20]) = true ∧
      meets (s.linkHeard .east 2 (linkMsg 7 5 9 [20])) (fun x => x.answers .east (linkMsg 7 5 9 [20]) = true ∧ x.awaiting .east = 6 ∧
        x.lState .east = 6 ∧ byteAt (linkMsg 7 5 9 [20]) 4 ≠ 0 ∧ x.currLimit .east (x.lp .east).now.curr ≠ 0 ∧
        x.moistOk .east (x.lp .east).now.volt = true)) ∧
    meets (linked 6 (asked 6)) (fun s => s.linkTakes .east (linkMsg 7 5 9 [0]) = true ∧
      meets (s.linkHeard .east 2 (linkMsg 7 5 9 [0])) (fun x => x.answers .east (linkMsg 7 5 9 [0]) = true ∧ x.awaiting .east = 6 ∧
        byteAt (linkMsg 7 5 9 [0]) 4 = 0)) ∧
    meets (linked 6 { now := { volt := 96, curr := 40 } }) (fun s => meets (s.linkHeard .east 2 (linkMsg 9 5 0 [1])) (fun x =>
      x.contractHeld .east = true)) ∧
    meets (linked 6 {}) (fun s => s.linkTakes .east (linkMsg 9 5 0 [1]) = true ∧
      meets (s.linkHeard .east 2 (linkMsg 9 5 0 [1])) (fun x => 3 ≤ x.lState .east ∧ x.lState .east ≠ 8 ∧ x.lState .east = 6)) := by
  decide +kernel

theorem witness_LinkTimersAndEnds :
    meets (linked 5 { next := some { volt := 96, prov := true } }) (fun s => s.linkHere = true ∧ (s.lp .east).next = some { volt := 96, prov := true } ∧
      inBand 96 48000 = true ∧ s.lState .east = 5) ∧
    meets (linked 7 { next := some { volt := 96 }, timer := true }) (fun s => s.linkHere = true ∧ s.lState .east = 7 ∧
      (s.lp .east).dwellDone = false ∧ (s.lp .east).next = some { volt := 96 } ∧ (s.lp .east).timer = true) ∧
    meets (linked 4 (asked 1)) (fun s => s.linkHere = true ∧ (s.lp .east).await_ = some (linkMsg 1 9 0 [96, 40, 50]) ∧
      (s.lp .east).again = false) ∧
    meets (linked 6 { asked 9 with again := true }) (fun s => s.linkHere = true ∧ (s.lp .east).again = true ∧ s.inContract .east = true) ∧
    meets (linked 4 { asked 1 with again := true }) (fun s => s.linkHere = true ∧ (s.lp .east).again = true ∧ s.lState .east = 4) ∧
    meets (linked 6 { now := { volt := 96 } }) (fun s => s.linkHere = true ∧ s.lState .east = 6 ∧ 40000 < 450 * (s.lp .east).now.volt ∧
      s.inContract .east = true) ∧
    meets (linked 8 {}) (fun s => s.linkHere = true ∧ s.lState .east = 8) ∧
    meets (linked 9 {}) (fun s => s.linkHere = true ∧ s.lState .east = 9) := by decide +kernel

theorem witness_LinkPolicyAndControl :
    meets (linked 3 {}) (fun s => s.linkHere = true ∧ s.builtIn .east = true ∧ s.lState .east = 3 ∧ s.linkFree = true ∧ (s.lp .east).net = false ∧
      s.served .H = true ∧ s.writeCode .H (Obj.LINK_CTRL 1) (leBytes 1 4) = 0 ∧ bit (s.linkAt .east 0) 3 = true ∧ s.provEn .east = true ∧ 5 * s.linkAt .east 7 ≤ s.obj Obj.PACK_SOC ∧
      s.offerOf .east = some (40, 108, 40, 50)) ∧
    meets (wr (linked 6 { now := { prov := true } }) [(Obj.PACK_SOC, 100)]) (fun s => s.linkHere = true ∧ s.builtIn .east = true ∧
      s.lState .east = 6 ∧ s.linkFree = true ∧ s.awaiting .east = 0 ∧ (s.lp .east).now.prov = true ∧
      s.obj Obj.PACK_SOC + 50 < 5 * s.linkAt .east 7) ∧
    meets (wr (linked 6 {}) [(Obj.PACK_SOC, 1000)]) (fun s => s.linkHere = true ∧ s.builtIn .east = true ∧ s.lState .east = 6 ∧
      s.linkFree = true ∧ s.awaiting .east = 0 ∧ (s.lp .east).now.prov = false ∧ 5 * s.linkAt .east 8 ≤ s.obj Obj.PACK_SOC) ∧
    meets { linked 3 {} with seqs := on.seqs.set 2 { block := [1] } } (fun s => s.builtIn .east = false) ∧
    meets (linked 6 {}) (fun s => s.served .H = true ∧ s.writeCode .H (Obj.LINK_CTRL 1) (leBytes 1 1) = 0 ∧
      s.writeCode .H (Obj.LINK_CTRL 1) (leBytes 1 2) = 0 ∧ s.writeCode .H (Obj.LINK_CTRL 1) (leBytes 1 3) = 0) ∧
    meets (linked 8 {}) (fun s => s.linkHere = true ∧ s.lState .east = 8 ∧ 5000 ≤ 6000) := by decide +kernel

/-- A device with its east pair up, node 5, UID 77. -/
def fab : State := wr on [(Obj.PORT_STATE 1, 3), (Obj.NODE_ID, 5), (Obj.UNIQUE_ID, 77)]

/-- A hello of a West neighbour, node 6, UID 78, and the port that has heard one before. -/
def helloBody : List Byte := leBytes 8 78 ++ [6, 1, 0, 1] ++ List.replicate 14 0
def greeted (st n : Nat) : State := { wr fab [(Obj.PORT_STATE 1, st)] with fab := { ports := ⟨{ hellos := n }, {}⟩ } }

theorem witness_FabricPorts :
    meets (wr on [(Obj.PORT_STATE 1, 1)]) (fun s => s.variant = .A ∧ s.aon.por = false ∧ s.obj (Obj.PORT_STATE 1) = 1) ∧
    meets fab (fun s => 2 ≤ s.obj (Obj.PORT_STATE 1) ∧ 3 ≤ s.obj (Obj.PORT_STATE 1) ∧ [2, 3, 4].contains (s.obj (Obj.PORT_STATE 1)) = true) ∧
    meets (greeted 2 0) (fun s => s.obj (Obj.PORT_STATE 1) = 2 ∧ helloBody.length = 26 ∧ byteAt helloBody 11 = 1 ∧
      (s.fab.ports.get .east).hellos = 0) ∧
    meets (greeted 2 1) (fun s => s.obj (Obj.PORT_STATE 1) = 2 ∧ (s.fab.ports.get .east).hellos ≠ 0 ∧ byteAt helloBody 9 % 2 ≠ Port.east.num) ∧
    meets (greeted 2 1) (fun s => s.obj (Obj.PORT_STATE 1) = 2 ∧ byteAt (overlay helloBody 9 [0]) 9 % 2 = Port.east.num) := by
  decide +kernel

/-- An assignment of generation 1 of node 9 to this device. -/
def assignBody : List Byte := [1, 0, 0, 0, 1, 0, 0, 0] ++ leBytes 8 77 ++ [9]

theorem witness_FabricTopologyAndAssignment :
    meets fab (fun s => [2, 3].contains (s.obj (Obj.PORT_STATE 1)) = true ∧ (List.replicate 32 (1 : Byte)).length = 32 ∧
      (topoOf (List.replicate 32 1)).uid ≠ s.uid ∧ s.fab.recs = [] ∧ s.fabOn = true ∧ s.fab.settled = false) ∧
    meets { fab with fab := { recs := [{ uid := 3 }] } } (fun s => (s.fab.recs.any fun r => r.uid == 3) = true) ∧
    meets fab (fun s => (assignEntries assignBody).find? (fun e => e.1 == s.uid) = some (s.uid, 9) ∧ byteAt assignBody 4 = 1 ∧
      assignBody.length = 17 ∧ s.sentBy { node := 0xFF, src := 2, type := 3, seq := 1, hops := 0, data := assignBody } s.ownRec = false ∧
      s.assignBetter (leAt assignBody 0 2) (s.assignFrom 2 assignBody) = true) ∧
    meets { fab with fab := { settled := true, zenith := some 77, assign := [[0]] } } (fun s => s.fabOn = true ∧ s.fab.settled = true ∧
      s.fab.zenith = some s.uid ∧ s.fab.assign ≠ []) ∧
    meets fab (fun s => s.served .T = true ∧ s.writeCode .T Obj.NODE_ID_SET (leBytes 1 9) = 0) := by decide +kernel

/-- Node 5 with node 7 as its West neighbour. -/
def routed : State := { wr fab [(Obj.PORT_STATE 2, 3), (Obj.PORT_NBR 2, 79)] with fab := { recs := [{ uid := 79, east := 77, node := 7 }] } }

/-- The bytes of a read of node 7 by node 2 after some hops. -/
def readFrame (hops : Byte) : List Byte := [7, 0, 0, 2, 0x10, 1, hops, 0, 0] ++ leBytes 4 (crc32 [7, 0, 0, 2, 0x10, 1, hops, 0, 0])

/-- A read of another node's object, by sequencer 1 and by the boot. -/
def askedFrame : FabReq := { txn := 4, frame := { node := 9, src := 5, type := 0x10 }, who := some 1 }

theorem witness_FabricFramesAndRequests :
    meets routed (fun s => [2, 3].contains (s.obj (Obj.PORT_STATE 1)) = true ∧
      (frameOf (readFrame 3)).map (fun f => (f.type, f.node, f.hops)) = some (0x10, 7, 3) ∧ frameType 0x10 = true ∧ 7 ≠ s.nodeId ∧
      s.routeTo 7 = some (.west, 1) ∧ s.portUp .west = true ∧
      ((s.fab.ports.get .west).queue.filter fun e => e.1 == framePrio 0x10).length < queueRoom (framePrio 0x10)) ∧
    meets routed (fun s => 2 ≤ s.obj (Obj.PORT_STATE 1) ∧ frameOf [1, 2, 3] = none ∧ (frameOf (readFrame 64)).map (·.hops) = some 64) ∧
    meets fab (fun s => s.served .F = true ∧ 9 ≠ s.nodeId ∧ [2, 3].contains (s.obj (Obj.PORT_STATE 1)) = true) ∧
    meets fab (fun s => meets (s.fabTake .east 0x10).2 (fun x => x.fabKept 9 3 = none ∧ x.fabServed 9 < 4) ∧
      leAt ([3, 0, 0, 0, 0, 0] : List Byte) 2 4 = 0) ∧
    meets { fab with fab := { ports := ⟨{ queue := List.replicate 4 (2, { node := 9, src := 5, type := 0x11 }) }, {}⟩ } } (fun s =>
      [2, 3].contains (s.obj (Obj.PORT_STATE 1)) = true ∧ s.served .F = true ∧
      meets (s.fabTake .east 0x10).2 (fun x => x.fabKept 9 3 = none ∧ 4 ≤ x.fabServed 9)) ∧
    meets fab (fun s => meets (s.fabTake .east 0x12).2 (fun x => x.fabKept 9 3 = none ∧ x.fabServed 9 < 4) ∧ 9 ≠ s.nodeId) ∧
    meets { fab with fab := { reqs := [askedFrame] } } (fun s => s.serving = true ∧ s.fabReq? 4 = some askedFrame ∧ askedFrame.frame.node = 9 ∧
      0x11 = askedFrame.frame.type + 1 ∧ askedFrame.tries < 3) ∧
    meets { fab with fab := { reqs := [{ askedFrame with tries := 3 }] } } (fun s => s.fabReq? 4 = some { askedFrame with tries := 3 }) ∧
    meets fab (fun s => s.served .F = true ∧ s.fabOn = true) := by decide +kernel

theorem witness_FabricBootAndTimebase :
    meets { wr fab [(Obj.FAB_BOOT_SRV, 1), (Obj.PORT_NBR 1, 78)] with fab := { recs := [{ uid := 78, west := 77, node := 9 }] } } (fun s =>
      s.served .F = true ∧ s.obj Obj.FAB_BOOT_SRV = 1 ∧ (s.routeTo 9).isSome = true ∧ s.portUp .east = true ∧
      ((s.fab.ports.get .east).queue.filter fun e => e.1 == 3).length < 32) ∧
    meets { fab with fab := { boot := some 2, reqs := [{ askedFrame with txn := 256, who := none }] } } (fun s => s.fab.boot = some 2 ∧
      s.fabReq? 256 = some { askedFrame with txn := 256, who := none } ∧ byteAt ([2, 0, 0, 0, 0, 0] : List Byte) 0 = 2 ∧
      leAt ([2, 0, 0, 0, 0, 0] : List Byte) 2 4 = s.fab.bootData.length) ∧
    meets { wr fab [(Obj.BRINGUP_STEP, 6)] with fab := { boot := some 2 } } (fun s => s.fab.boot = some 2 ∧ s.obj Obj.BRINGUP_STEP = 6) ∧
    meets { wr fab [(Obj.TIMEBASE_STATE, 4)] with fab := { zenith := some 77 } } (fun s => s.fabOn = true ∧ s.fab.zenith = some s.uid ∧
      s.obj Obj.TIMEBASE_STATE = 4) ∧
    meets { wr fab [(Obj.ZENITH_ROOT, Port.east.num), (Obj.TIMEBASE_STATE, 1)] with fab := { zenith := some 9, tLast := some 0 } } (fun s => s.fabOn = true ∧
      s.portUp .east = true ∧ s.fab.zenith.isSome = true ∧ s.obj Obj.ZENITH_ROOT = Port.east.num ∧ s.obj Obj.TIMEBASE_STATE ≠ 4 ∧
      s.obj Obj.TIMEBASE_STATE = 1 ∧ s.fab.tLast.isSome = true) := by decide +kernel

theorem witness_HorizonPlanner :
    meets { on with now := sec 10000000 } (fun s => s.hzSampling = true ∧ s.thm.age.due s.now = true ∧ s.serving = true) ∧
    meets { on with now := sec 2, hz := { probe := 1, probeBy := sec 9 }, tabs := { active := [(5, List.replicate 96 0 ++ [3])] } } (fun s => s.hz.probe = 1 ∧
      s.now ≤ s.hz.probeBy ∧ s.probeOk = true) ∧
    meets { on with now := sec 10000000, hz := { q := some 300 } } (fun s => s.hzSampling = true ∧ s.thm.age.due s.now = true ∧
      s.hz.q = some 300) ∧
    meets { on with now := sec 10000000, tabs := { active := [(5, List.replicate 96 0 ++ [3])] } } (fun s => s.hzSampling = true ∧ s.thm.age.due s.now = true ∧
      s.modeNow = 2 ∧ bit s.hzFlags 1 = true ∧ s.hz.probe = 0 ∧ s.hz.epoch = none) ∧
    meets { on with now := ms 180, hz := { probe := 2 } } (fun s => s.hz.probe = 2 ∧ s.hz.probeAt + ms 180 ≤ s.now ∧
      s.probeBad 32 (s.probeCap []).1 = false ∧ s.probeBad 33 ((s.probeCap []).2.probeEsr [(5, 7)]).1 = false) ∧
    meets { on with now := ms 180, hz := { probe := 2, base := [(32, 900)] } } (fun s => s.hz.probe = 2 ∧ s.hz.probeAt + ms 180 ≤ s.now ∧
      s.probeBad 32 (s.probeCap []).1 = true) ∧
    meets { running with core := { handedOver := true, words := [(33, 400)] }, hz := { ceiling := [(.pack, 300)] } } (fun s => s.serving = true ∧
      s.core.handedOver = true ∧ s.idleGroups = [] ∧ s.hasGroup .pack = true ∧ s.wordStanding (32 + Group.pack.num) = 400 ∧
      wordInRange (32 + Group.pack.num) 400 = true ∧ 300 < field 400 11 0 - field 400 11 0 / 100) ∧
    meets on (fun s => s.shellUp = true ∧ s.bringing = false ∧ s.inMode [2, 3] = true ∧ s.hz.epoch = none) ∧
    meets (wr on [(Obj.MODE_STATE, 5)]) (fun s => s.served .T = true ∧ s.writeCode .T Obj.HZ_EPOCH_CMD (leBytes 1 1) = 0) ∧
    meets { on with hz := { epoch := some 1 } } (fun s => s.hz.epoch = some 1 ∧ s.shellUp = true ∧ s.modeNow ≠ 4) ∧
    meets (wr on [(Obj.MODE_STATE, 5), (Obj.DIAG_SECURITY, 0x11)]) (fun s => s.served .T = true ∧ s.writeCode .T Obj.HZ_REBASE (leBytes 1 0xFF) = 0 ∧
      (rebaseOf 0xFF).isSome = true) := by decide +kernel
/-- A device with a message waiting on the fault bus. -/
def told (m : Msg) : State := { on with col := { bus := [m] } }

/-- A record of the pack group's fold-back kind. -/
def record : FaultRec := { first := 0x05050000, last := 0x05050000, cls := 2 }

theorem witness_MessageAcceptance :
    meets { told { src := 5, kind := 5, inst := 7 } with aon := { on.aon with direct := true } } (fun s => s.shellUp = true ∧
      s.nextMsg.isSome = true ∧ s.aon.direct = true) ∧
    meets (told { src := 5, kind := 5, inst := 7 }) (fun s => s.shellUp = true ∧ (s.nextMsg.map fun x => (x.1, x.2.1)) = some ({ src := 5, kind := 5, inst := 7 }, false) ∧
      s.aon.direct = false ∧ s.col.handling = none ∧ (s.recs.any fun e => e.2.src == 5 && e.2.kind == 5) = false ∧
      s.slotFor (s.reactionOf 5 5).1 = some 1) ∧
    meets { told { src := 5, kind := 5, inst := 7 } with recs := [(1, record)] } (fun s => s.nextMsg.isSome = true ∧
      (s.recs.find? fun e => e.2.src == 5 && e.2.kind == 5) = some (1, record)) ∧
    meets { told { src := 5, kind := 5, inst := 7 } with recs := [(1, { record with cls := 3 })], col := { bus := [{ src := 5, kind := 5, inst := 7 }], handling := some 1 } }
      (fun s => s.nextMsg.isSome = true ∧ s.col.handling = some 1 ∧ s.rec? 1 = some { record with cls := 3 } ∧ (s.reactionOf 5 5).1 ≤ 3) ∧
    meets (told { src := 5, kind := 5, inst := 7, clear := true }) (fun s => (s.nextMsg.map fun x => x.1.clear) = some true) ∧
    meets { on with col := { bus := List.replicate 4 { src := 5, kind := 5, inst := 0 } } } (fun s => 4 ≤ (s.col.bus.filter fun x => x.src == 5).length) := by
  decide +kernel

/-- A FAULT table: one reaction by class, one entry of source 5, kind 5. -/
def faultTable (cls react : Nat) : List Byte := leBytes 2 1 ++ [0, 1, 1, 3, 1, 0] ++ [5, 5] ++ leBytes 1 cls ++ leBytes 1 react ++ List.replicate 16 0

theorem witness_RecordHandling :
    meets { on with recs := [(1, record)] } (fun s => s.shellUp = true ∧ s.aon.direct = false ∧ s.col.handling = none ∧
      s.nextRecord = some (1, record) ∧ record.queued = false ∧ (s.reactionOf record.src record.kind).1 ≠ 4 ∧
      (s.reactionOf record.src record.kind).2 % 32 < 4 ∧ (s.sq 0).block = [] ∧ (s.sq 4).block = []) ∧
    meets { on with recs := [(1, record)], tabs := { active := [(9, faultTable 3 8)] } } (fun s => s.nextRecord = some (1, record) ∧
      (s.reactionOf record.src record.kind).1 ≠ 4 ∧ (s.reactionOf record.src record.kind).2 % 32 = 8 ∧ s.holdoff = false) ∧
    meets { on with recs := [(1, record)], tabs := { active := [(9, faultTable 4 1)] } } (fun s => s.nextRecord = some (1, record) ∧
      (s.reactionOf record.src record.kind).1 = 4 ∧ (s.reactionOf record.src record.kind).2 % 32 < 2 ∧ s.aon.por = false) ∧
    meets { on with col := { handling := some 1, blockReset := some 5 } } (fun s => s.col.handling = some 1 ∧ s.col.blockReset = some 5) := by
  decide +kernel

theorem witness_CollectorObjectsAndDirectMode :
    meets on (fun s => s.served .H = true ∧ s.writeCode .H Obj.FAULT_ACK (leBytes 1 1) = 0 ∧ s.readCode .H (Obj.FAULT_RECORD 64) = 0) ∧
    meets (wr on [(Obj.MODE_STATE, 5)]) (fun s => s.served .T = true ∧ s.writeCode .T Obj.FAULT_INJECT (leBytes 4 0x05050001) = 0 ∧
      (s.col.bus.filter fun x => x.src == 5).length < 4) ∧
    meets { on with col := { selfFails := 1, haloRun := true } } (fun s => s.shellUp = true ∧ s.col.selfFails = 1 ∧ s.aon.direct = false ∧
      s.col.haloRun = true ∧ s.aon.clockStopped = false) ∧
    meets on (fun s => s.col.selfFails = 0) := by decide +kernel

/-- A transfer of TABLE_LOAD by the host, four bytes long, in Service. -/
def loading : State := { wr on [(Obj.MODE_STATE, 5)] with srv := { transfers := [{ who := Master.H.code, key := Obj.TABLE_LOAD, data := [1, 2, 3, 4] }] } }

theorem witness_ObjectAccesses :
    meets on (fun s => s.served .H = true ∧ s.keyType Obj.OD_COMMIT_DELAY ≠ some .domain ∧ s.writeCode .H Obj.OD_COMMIT_DELAY [0xE8, 3] = 0 ∧
      s.writeCode .H Obj.MODE_STATE [0] ≠ 0) ∧
    meets (wr on [(Obj.MODE_STATE, 5), (Obj.DIAG_SECURITY, 0x11)]) (fun s => s.served .T = true ∧
      s.writeCodeA .T Obj.TABLE_LOAD 0 (s.keyType Obj.TABLE_LOAD == some .domain && [1, 2, (3 : Byte)].length ≤ 4194304) = 0 ∧
      s.transfer? Obj.TABLE_LOAD = none) ∧
    meets loading (fun s => s.served .H = true ∧ (s.transfer? Obj.TABLE_LOAD).isSome = true) ∧
    meets on (fun s => s.served .H = true ∧ s.readCode .H Obj.OTP_TRACE = 0 ∧ s.readCode .H (0x0100 * 256 + 0) = 0) ∧
    meets on (fun s => (s.wholeSubs 0x0302).isSome = true ∧ s.readCode .H (0x0302 * 256 + 0xFF) = 0 ∧ s.segmented (0x0302 * 256 + 0xFF) = true) := by
  decide +kernel

theorem witness_LocksAndJournal :
    meets on (fun s => s.served .H = true ∧ s.writeCode .H (Obj.OD_LOCK 16) (leBytes 1 Master.H.code) = 0) ∧
    meets (wr on [(Obj.OD_LOCK 16, 1)]) (fun s => s.serving = true ∧ s.obj (Obj.OD_LOCK 16) = 1 ∧ s.shellUp = true) ∧
    meets on (fun s => s.served .H = true ∧ s.writeCode .H Obj.OD_COMMIT (leBytes 1 1) = 0) ∧
    meets { wr on [(Obj.FLASH_STATE, 1)] with jrnl := { buf := [(65, 1)] } } (fun s => s.flashOk = true ∧ s.jrnl.inFlight = none ∧ s.jrnl.buf ≠ []) ∧
    meets { wr on [(Obj.FLASH_STATE, 2)] with jrnl := { inFlight := some [(65, 1)] } } (fun s => s.shellUp = true ∧
      s.jrnl.inFlight = some [(65, 1)] ∧ s.jrnl.again = false) ∧
    meets (wr on [(Obj.MODE_STATE, 5), (Obj.FLASH_STATE, 1)]) (fun s => s.served .T = true ∧ s.writeCode .T Obj.OD_RESTORE (leBytes 1 1) = 0 ∧
      s.flashOk = true ∧ s.jrnl.inFlight = none) := by decide +kernel

theorem witness_TableStore :
    meets on (fun s => s.served .T = true ∧ s.writeCode .T Obj.DTC_CLEAR (leBytes 4 0xFFFFFF) = 0 ∧ s.recs = []) ∧
    meets { on with recs := [(1, { record with active := true, conds := [{ src := 5, kind := 5, inst := 0 }] })] } (fun s => s.served .T = true ∧
      s.writeCode .T Obj.DTC_CLEAR (leBytes 4 0x050500) = 0 ∧ (s.recs.all fun e => e.2.active) = true) ∧
    meets (wr on [(Obj.MODE_STATE, 5), (Obj.DIAG_SECURITY, 0x11)]) (fun s => s.served .T = true ∧
      s.writeCodeA .T Obj.TABLE_LOAD 0 (decide ([1, 2, (3 : Byte)].length ≤ 4194304)) = 0 ∧ s.transfer? Obj.TABLE_LOAD = none) ∧
    meets (wr on [(Obj.MODE_STATE, 5), (Obj.DIAG_SECURITY, 0x11)]) (fun s => s.served .T = true ∧ s.writeCode .T Obj.TABLE_SWITCH (leBytes 4 0) = 9) ∧
    meets { wr on [(Obj.TABLE_SWITCH, 16)] with tabs := { switching := true, a := { images := [(5, List.replicate 64 0)] } } } (fun s => s.serving = true ∧
      s.safeHere 5 = true ∧ s.tabs.switching = true ∧ bit (s.obj Obj.TABLE_SWITCH) 4 = true ∧
      (s.bank s.idleBank).image? 5 = some (List.replicate 64 0) ∧ bit (imgFlags (List.replicate 64 0)) 1 = false ∧ s.tabs.deferred = false ∧
      (s.col.bus.filter fun x => x.src == 0x15).length < 4) ∧
    meets { wr on [(Obj.MODE_STATE, 5), (Obj.DIAG_SECURITY, 0x11), (Obj.TABLE_ACTIVE, 1)] with tabs := { b := { images := [(5, List.replicate 64 0)] } } }
      (fun s => s.served .T = true ∧ s.writeCode .T Obj.TABLE_SWITCH (leBytes 4 16) = 0) ∧
    meets { on with tabs := { romDue := 16 } } (fun s => s.serving = true ∧ s.safeHere 5 = true ∧ s.tabs.switching = false ∧
      bit s.tabs.romDue 4 = true) ∧
    meets on (fun s => s.served .T = true ∧ s.writeCode .T Obj.TRAP_RELEASE (leBytes 1 1) = 0) := by decide +kernel
/-- A block of two states for sequencer 0: state 0 goes to 1 at once; state 1 stays; the trap state is 1; no actions. -/
def twoStates : List Byte :=
  [0, 2, 0, 1, 1, 0, 0, 0, 0, 0, 10, 0] ++ [0, 0, 1, 0, 0, 0, 0, 0] ++ [1, 0, 0, 0, 0, 0, 0, 0] ++ [0xFF, 0xFF, 0xFF, 0xFF, 1, 0, 0, 0]

def sequenced (q : Seq) : State := { on with seqs := on.seqs.set 0 q }

theorem witness_SequencerEvaluation :
    meets on (fun s => s.serving = true ∧ (s.sq 0).block = []) ∧
    meets (sequenced { block := twoStates, stopped := false }) (fun s => s.serving = true ∧ (s.sq 0).block ≠ [] ∧ (s.sq 0).stopped = false ∧
      (s.sq 0).state < blkStates (s.sq 0).block ∧ (s.sq 0).trap = false ∧ s.seqNext 0 = some 1 ∧
      byteAt (blkState (s.sq 0).block 1) 5 = 0 ∧ (s.seqEnter 0 1).seqNext 0 = none) ∧
    meets (sequenced { block := twoStates, stopped := false, trap := true }) (fun s => (s.sq 0).trap = true) ∧
    meets (sequenced { block := twoStates, stopped := false, state := 9 }) (fun s => s.serving = true ∧ (s.sq 0).block ≠ [] ∧
      (s.sq 0).stopped = false ∧ blkStates (s.sq 0).block ≤ (s.sq 0).state ∧
      byteAt (blkState (s.sq 0).block (byteAt (s.sq 0).block 3)) 5 = 0) := by decide +kernel

/-- A device in Service, unlocked for programming, with VAUX at 12 V and 25 degrees. -/
def workshop : State := wr on [(Obj.MODE_STATE, 5), (Obj.DIAG_SECURITY, 0x11), (Obj.RESULTS 61, 1101005), (Obj.TEMP_MAX, 250)]

theorem witness_MemoryAndOtp :
    meets on (fun s => s.shellUp = true ∧ s.obj (Obj.ECC_COUNT 1) ≤ 0xFFFFFFFF ∧ s.col.eccAt = none ∧
      (s.col.bus.filter fun x => x.src == 0x16).length < 4) ∧
    meets { on with now := ms 10, col := { on.col with eccAt := some 0 } } (fun s => s.shellUp = true ∧ s.col.eccAt = some 0 ∧ s.now < 0 + sec 1) ∧
    meets { on with now := sec 10000000 } (fun s => s.serving = true ∧ s.thm.otp.due s.now = true ∧ s.otp.prog = none) ∧
    meets { on with now := sec 10000000, otp := { on.otp with prog := some (4, 8, [0xA5]) } } (fun s => s.serving = true ∧
      s.thm.otp.due s.now = true ∧ s.otp.prog ≠ none) ∧
    meets on (fun s => s.thm.otp.due s.now = false ∧ s.thm.scrub.due s.thm.up = false) ∧
    meets { wr on [(Obj.FLASH_STATE, 1)] with thm := { on.thm with up := sec 10000000 }, log := [[1]], archive := [{ no := 1, t0 := 0 }] } (fun s =>
      s.shellUp = true ∧ s.flashOk = true ∧ s.flashHeld = false ∧ s.thm.scrub.due s.thm.up = true ∧ 0 < s.archive.length ∧ 0 < s.log.length) ∧
    meets (wr on [(Obj.FLASH_STATE, 1), (Obj.VAUX_STATE, 1)]) (fun s => s.shellUp = true ∧ s.flashOk = true ∧ s.flashHeld = true) ∧
    meets { wr on [(Obj.FLASH_STATE, 1)] with tabs := { writing := some 2 } } (fun s => s.shellUp = true ∧ s.flashOk = true ∧
      s.flashHeld = false ∧ s.tabs.writing = some 2) ∧
    meets { wr on [(Obj.FLASH_STATE, 1)] with log := [[1]] } (fun s => s.shellUp = true ∧ s.flashOk = true ∧ s.flashHeld = false ∧ s.log = [[1]]) ∧
    meets workshop (fun s => s.served .T = true ∧ s.otpReady = true ∧ s.writeCodeA .T Obj.OTP_PROG 0 (decide ([4, 0, 8, 0, (0xA5 : Byte)].length ≤ 4194304)) = 0 ∧
      s.transfer? Obj.OTP_PROG = none ∧ s.otpProgCode [4, 0, 8, 0, 0xA5] = 0 ∧ s.writeCode .T Obj.OTP_LOCK (leBytes 1 0x84) = 0) ∧
    meets { on with otp := { on.otp with prog := some (4, 8, [0xA5]) } } (fun s => s.shellUp = true ∧ s.otp.prog = some (4, 8, [0xA5]) ∧
      4 < s.otp.areas.length) := by decide +kernel

/-- CANA up. -/
def canA : State := wr on [(Obj.CAN_STATE 1, 2)]

/-- A request of the object protocol on OD_COMMIT_DELAY, without data. -/
def canReq (op : Byte) : List Byte := [op, 9, 0x24, 0, 0, 0, 0, 0, 0, 0, 0, 0, 0, 0, 0, 0]

/-- A SEED or KEY frame for level 1; a KEY has 8 bytes. -/
def secReq (op : Byte) : List Byte := [op, 9, 0, 0, 0, 1, if op = 0x0B then 8 else 0, 0] ++ List.replicate 16 0

theorem witness_CanRequests :
    meets canA (fun s => s.canTakes false (canReq 1) = true ∧ hdrOk (canReq 1) = true ∧ byteAt (canReq 1) 0 = 1 ∧ hdrOfs (canReq 1) = 0) ∧
    meets canA (fun s => s.canTakes false ([2, 9, 0x24, 0, 0, 1, 2, 0, 0, 0, 0, 0, 0, 0, 0, 0, 0xE8, 3] ++ [0, 0]) = true ∧
      hdrOk ([2, 9, 0x24, 0, 0, 1, 2, 0, 0, 0, 0, 0, 0, 0, 0, 0, 0xE8, 3] ++ [0, 0]) = true ∧
      hdrKey ([2, 9, 0x24, 0, 0, 1, 2, 0, 0, 0, 0, 0, 0, 0, 0, 0, 0xE8, 3] ++ [0, 0]) = Obj.OD_COMMIT_DELAY ∧
      s.keyType Obj.OD_COMMIT_DELAY ≠ some .domain) ∧
    meets canA (fun s => s.canTakes false (canReq 3) = true ∧ hdrOk (canReq 3) = true ∧ byteAt (canReq 3) 7 = 0) ∧
    meets (wr canA [(Obj.MODE_STATE, 5), (Obj.DIAG_SECURITY, 0x11), (Obj.VARIANT, 3), (Obj.DIAG_SESSION, 3)]) (fun s =>
      meets s (fun s => s.canTakes true [4, 9, 2, 0x0C, 0, 2, 0, 2, 0, 0, 0, 0, 0, 0, 0, 0] = true ∧
        hdrOk [4, 9, 2, 0x0C, 0, 2, 0, 2, 0, 0, 0, 0, 0, 0, 0, 0] = true ∧ s.blockLeft true 9 = 0 ∧
        s.keyType (hdrKey [4, 9, 2, 0x0C, 0, 2, 0, 2, 0, 0, 0, 0, 0, 0, 0, 0]) = some .domain ∧
        (s.canHeard true).writeCodeA .T (hdrKey [4, 9, 2, 0x0C, 0, 2, 0, 2, 0, 0, 0, 0, 0, 0, 0, 0]) 0 true = 0)) ∧
    meets canA (fun s => s.canTakes false (secReq 0x0A) = true ∧ hdrOk (secReq 0x0A) = true ∧ s.canTakes false (secReq 0x0B) = true ∧
      hdrOk (secReq 0x0B) = true) ∧
    meets (wr canA [(Obj.VARIANT, 3), (Obj.DIAG_SESSION, 3), (Obj.SEC_DELAY, 0)]) (fun s => s.canTakes true (secReq 0x0A) = true ∧
      byteAt (secReq 0x0A) 5 = 1 ∧ s.obj (Obj.OTP_STATE 4) ≠ 3 ∧ s.obj Obj.SEC_DELAY = 0 ∧ (s.canHeard true).unlocked 1 = false) ∧
    meets { wr canA [(Obj.VARIANT, 3), (Obj.DIAG_SESSION, 3), (Obj.OTP_STATE 4, 2)] with uds := { seed := some (1, [7]) } } (fun s =>
      s.canTakes true (secReq 0x0B) = true ∧ hdrOk (secReq 0x0B) = true ∧
      (s.canHeard true).uds.seed = some (1, [7]) ∧ s.cmacKey.isSome = true) := by decide +kernel

theorem witness_CanRulesAndControllers :
    meets canA (fun s => s.canOn .a = true ∧ s.canState .a = 2) ∧
    meets { canA with can := { canA.can with a := { ids := [1, 2, 3, 4, 5], held := [(1, { id := 2, data := [0x82, 9] })] } } } (fun s =>
      s.canOn .a = true ∧ s.canState .a = 2 ∧ s.serving = true ∧ s.canWaits false 9 = true) ∧
    meets { canA with can := { canA.can with a := { ids := [1, 2, 3, 4, 5], held := (List.range 4).map fun i =>
        (1, { id := 2, data := [0x82, BitVec.ofNat 8 (10 + i)] }) } } } (fun s => s.canOn .a = true ∧ s.canState .a = 2 ∧ s.serving = true ∧
      s.canWaits false 9 = false ∧ s.canKept false 9 = none ∧ 4 ≤ (s.canServed false).length ∧ s.can.a.queue.length < 16) ∧
    meets { canA with can := { canA.can with a := { answered := [(0, 9, 0, [{ id := 0x6A8, data := [1] }])] } } } (fun s => s.canOn .a = true ∧
      s.canState .a = 2 ∧ s.serving = true ∧ (s.canKept false 9).isSome = true ∧ s.canWaits false 9 = false ∧ s.can.a.queue.length < 16) ∧
    meets loading (fun s => s.serving = true ∧ (s.transfer? Obj.TABLE_LOAD).isSome = true) ∧
    meets { canA with note := { reason := 1 } } (fun s => s.serving = true ∧ s.canOn .a = true ∧ s.can.a.queue.length < 16 ∧ s.note.reason ≠ 0 ∧
      s.note.lastAt = none) ∧
    meets (wr on [(Obj.VARIANT, 3), (Obj.DIAG_SESSION, 3), (Obj.MODE_TARGET, 0xFF)]) (fun s => s.serving = true ∧ s.variant = .C ∧
      s.obj Obj.DIAG_SESSION ≠ 1 ∧ s.sessionDefault.resolved = s.obj Obj.MODE_TARGET) ∧
    meets (wr on [(Obj.MODE_STATE, 5)]) (fun s => s.served .H = true ∧ s.writeCode .H Obj.CAN_APPLY (leBytes 1 1) = 0) ∧
    meets { canA with can := { canA.can with a := { queue := [{ id := 1, data := [] }] } } } (fun s => s.serving = true ∧
      (s.can.get .a).queue = [{ id := 1, data := [] }] ∧ s.canOn .a = true ∧ s.canState .a ≠ 4) ∧
    meets { canA with can := { canA.can with a := { overAt := some 0 } } } (fun s => s.canOn .a = true ∧ (s.can.get .a).overAt = some 0 ∧
      s.now < 0 + sec 1) ∧
    meets (wr on [(Obj.CAN_STATE 2, 4)]) (fun s => s.canState .b = 4) := by decide +kernel

theorem witness_LinFrames :
    meets on (fun s => s.linOn = true ∧ s.lin.pid.getD 0 0 ≠ 0 ∧ s.lin.pid.getD 1 0 ≠ 0 ∧ s.lin.pid.getD 2 0 ≠ 0 ∧ s.lin.pid.getD 3 0 ≠ 0 ∧
      s.lin.short = false ∧ s.lin.held = none) ∧
    meets { on with lin := { held := some (65536, [1]) } } (fun s => s.linOn = true ∧ s.lin.held ≠ none) ∧
    meets on (fun s => s.linOn = true ∧ s.lin.pid.getD 3 0 ≠ 0 ∧ s.lin.short = false ∧ s.lin.held = none ∧ s.lin.req = none) ∧
    meets { alone with lin := { req := some [0x10, 0, 0x24, 9] } } (fun s => s.linOn = true ∧ s.lin.pid.getD 3 0 ≠ 0 ∧ s.lin.short = false ∧
      s.lin.held = none ∧ s.lin.req = some [0x10, 0, 0x24, 9] ∧ s.serving = false ∧ alwaysOn (linKey [0x10, 0, 0x24, 9]) = false) := by decide +kernel

theorem witness_LinServicesAndSleep :
    meets on (fun s => s.linOn = true ∧ s.lin.nad = 0x4C ∧ productOk 0x504C 0x4860 = true ∧ productOk 1 1 = false ∧
      ((s.linActive.linStat 1).linStat 2).writeCode .S Obj.LIN_NAD (leBytes 1 0x22) = 0 ∧ s.lockedOut .S Obj.OD_COMMIT 1 = false) ∧
    meets (wr on [(Obj.MODE_STATE, 1)]) (fun s => s.linOn = true ∧ s.modeNow = 1) ∧
    meets on (fun s => pidsOk [0x4C, 6, 0xB7, 0, 0x24, 0xFF, 0xFF, 0xFF] = true ∧ s.lin.pid.length = 4 ∧
      pidsOk [0x4C, 6, 0xB7, 0, 0x3C, 0xFF, 0xFF, 0xFF] = false ∧
      ((s.linActive.linStat 1).linStat 2).writeCode .S (Obj.LIN_PID 1) (leBytes 1 0x3B) = 0) ∧
    meets alone (fun s => s.linOn = true ∧ s.serving = false ∧ s.modeNow ≠ 7 ∧ s.lin.pid.length = 4) ∧
    meets (wr alone [(Obj.MODE_STATE, 7)]) (fun s => s.linOn = true ∧ s.serving = false ∧ s.modeNow = 7) ∧
    meets { on with lin := { slave := some [1] } } (fun s => s.linOn = true ∧ s.lin.short = false ∧ s.lin.slave = some [1]) ∧
    meets { on with lin := { sleep := true, wakeDue := true } } (fun s => s.linOn = true ∧ s.lin.sleep = true ∧ s.lin.wakeDue = true ∧
      s.lin.short = false ∧ s.shellUp = true) := by decide +kernel

/-- CANB up, no request under way. -/
def canB : State := wr on [(Obj.CAN_STATE 2, 2), (Obj.DIAG_SESSION, 1)]

/-- The same in the programming session, unlocked, in Service. -/
def progB : State := wr canB [(Obj.DIAG_SESSION, 2), (Obj.DIAG_SECURITY, 0x11), (Obj.MODE_STATE, 5)]

theorem witness_UdsTransport :
    meets { canB with uds := { rx := some (20, [1, 2, 3, 4, 5, 6], 0) } } (fun s => s.udsBusy = true ∧ s.canOn .b = true ∧ s.canState .b = 2 ∧
      s.udsUp = true ∧ s.uds.rx = some (20, [1, 2, 3, 4, 5, 6], 0)) ∧
    meets canB (fun s => s.udsFree = true ∧ s.can.b.queue.length < 16 ∧ sfMax false < 20) ∧
    meets { canB with uds := { tx := some ([1, 2], 1, 0) } } (fun s => s.canOn .b = true ∧ s.udsUp = true ∧ s.uds.tx = some ([1, 2], 1, 0) ∧
      s.uds.allow = 0 ∧ (s.col.bus.filter fun x => x.src == 0x14).length < 4) ∧
    meets { canB with uds := { waiting := some (1, [0x31]) } } (fun s => s.udsUp = true ∧ s.canOn .b = true ∧ s.can.b.queue.length < 16 ∧
      s.uds.waiting = some (1, [0x31])) ∧
    meets on (fun s => s.aon.por = false) := by decide +kernel

theorem witness_UdsServices :
    meets canB (fun s => s.udsTakes false [0x10, 3] = true ∧ subFn [0x10, 3] = 3 ∧ s.uds.download = none) ∧
    meets canB (fun s => s.udsTakes false [0x11, 1] = true ∧ subFn [0x11, 1] = 1 ∧ supBit [0x11, 1] = false ∧ s.udsTakes false [0x3E, 0] = true) ∧
    meets progB (fun s => s.udsTakes false [0x85, 2] = true ∧ s.session ≠ 1 ∧ s.udsTakes false [0x27, 0x11] = true ∧ subFn [0x27, 0x11] = 0x11 ∧
      s.session = 2) ∧
    meets (wr canB [(Obj.DIAG_SESSION, 3)]) (fun s => s.udsTakes false [0x27, 1] = true ∧ s.session ≠ 1 ∧
      s.udsTakes false [0x14, 0xFF, 0xFF, 0xFF] = true ∧ s.session ≠ 2) ∧
    meets canB (fun s => s.udsTakes false [0x19, 2, 0xFF] = true ∧ ([0x19, 2, (0xFF : Byte)]).length = dtcLen 2) ∧
    meets canB (fun s => s.udsTakes false [0x22, 0xF1, 0x8C] = true ∧ beNat (slice [0x22, 0xF1, 0x8C] 1 2) = 0xF18C) ∧
    meets (wr canB [(Obj.DIAG_SESSION, 3)]) (fun s => s.udsTakes false [0x2E, 0x40, 0x24, 0, 0xE8, 3] = true ∧
      beNat (slice [0x2E, 0x40, 0x24, 0, 0xE8, 3] 1 2) / 4096 = 4 ∧ s.keyType Obj.OD_COMMIT_DELAY ≠ some .domain ∧ s.inOvercast = false ∧
      freeWrite Obj.OD_COMMIT_DELAY = false ∧ s.unlocked 1 = false) := by decide +kernel

theorem witness_UdsRoutinesAndDownload :
    meets progB (fun s => s.udsTakes false [0x31, 1, 2, 1] = true ∧ subFn [0x31, 1, 2, 1] = 1 ∧ supBit [0x31, 1, 2, 1] = false ∧ s.session ≠ 1 ∧
      s.modeNow ≠ 7 ∧ ([0x31, 1, 2, (1 : Byte)]).length = 4 + optLen 0x0201 ∧ s.unlocked 1 = true ∧
      (s.udsHeard false).writeCode .T Obj.SELFCAL_CMD [1#8] = 0) ∧
    meets progB (fun s => s.udsTakes false [0x31, 3, 2, 1] = true ∧ subFn [0x31, 3, 2, 1] = 3 ∧ s.routineHere 0x0201 = true ∧
      s.routineLevel 0x0201 = true) ∧
    meets progB (fun s => s.udsTakes true [0x34, 0, 0x41, 0, 0, 0, 1, 0] = true ∧ s.session = 2 ∧ s.modeNow = 5 ∧ s.tablesQuiet = true ∧
      s.unlocked 0x11 = true) ∧
    meets { progB with uds := { download := some { size := 1 } } } (fun s => s.udsTakes false [0x36, 1, 7] = true ∧ s.session = 2 ∧
      s.unlocked 0x11 = true ∧ s.uds.download = some { size := 1 } ∧ s.udsTakes false [0x37] = true) := by decide +kernel
/-! ### Tests of single commands; expected values from the spec's worked examples and tables -/

/-- A check of the state that a command leaves. -/
def after (s : State) (c : Instr) (p : State → Bool) : Bool :=
  match exec c s with
  | .next t => p t
  | _ => false

/-- The example of R26-R28: 8 cells at 3.650 V and an East contract at 48.0 V make RAIL_FLOOR 1040; at 44.0 V it is 960. -/
theorem test_rail_floor_example :
    meets { wr on [(Obj.LINK_STATE 1, 6)] with link := ⟨{ now := { volt := 96 } }, {}⟩ } (fun s => s.floorWith 8 none = 1040 ∧ s.floorWith 0 none = 1040) ∧
    meets { wr on [(Obj.LINK_STATE 1, 6)] with link := ⟨{ now := { volt := 88 } }, {}⟩ } (fun s => s.floorWith 8 none = 960) := by decide +kernel

/-- The same example: a write of 960 below a floor of 1040 fails with the out-of-range error and keeps the setpoint (R28). -/
theorem test_setpoint_below_floor :
    after (wr on [(Obj.RAIL_FLOOR, 1040), (Obj.RAIL_SETPOINT, 1100)]) (.objectWrite .H Obj.RAIL_SETPOINT [0xC0, 3])
      (fun t => t.srv.code = 9 ∧ t.obj Obj.RAIL_SETPOINT = 1100) = true := by decide +kernel

/-- R12: a BITS object ignores what is written to its reserved bits (WAKE_CFG has bits 3:0). -/
theorem test_reserved_bits_ignored : after on (.objectWrite .H Obj.WAKE_CFG [0xF1, 0xFF]) (fun t => t.srv.code = 0 ∧ t.obj Obj.WAKE_CFG = 1) = true := by
  decide +kernel

/-- R106, R107 and the example of R109: an index of 712 is a latency of 98.3 ns. A count of 2917 of 4096 makes 712. -/
theorem test_speed_index : after on (.coreSpeedUpdate 2917) (fun t => t.obj Obj.CORE_SPEED_INDEX = 712 ∧ t.obj Obj.CORE_SPEED_LATENCY = 983) = true := by
  decide +kernel

/-- The example of R148: P0, P3, P1, P4 at positions 1 to 4, ADD_I 10, HYST 3, N_MIN 1 make 0x538419. -/
theorem test_order_word_example :
    meets (wr on [(Obj.MODE_STATE, 3), (Obj.PHASE_POS 0, 1), (Obj.PHASE_POS 3, 2), (Obj.PHASE_POS 1, 3), (Obj.PHASE_POS 4, 4), (Obj.PHASE_POS 2, 0),
      (Obj.PHASE_POS 5, 0), (Obj.GROUP_ADD_I 1, 10), (Obj.GROUP_HYST 1, 3), (Obj.GROUP_NMIN 1, 1)]) (fun s => s.orderVal .input = 0x538419) := by
  decide +kernel

/-- The example of R169: q = 0.70 with F = 25 % gives 0.625; R170: the factor rises by 1/16 per boundary. -/
theorem test_fold_back_example :
    foldTarget 250000 700000 = 625000 ∧ foldTarget 250000 417000 = 250000 ∧
      meets { running with grp := { running.grp with pack := { freq := 4000, vref := 48000000, fold := 250000, deliver := true } } }
        (fun s => ((s.foldUpdate .pack 48000).g .pack).fold = 312500) := by decide +kernel

/-- The example of R174: 500 kHz with a spread of 8 touches the default band at 520 kHz, with 7 it does not. -/
theorem test_frequency_plan_example :
    planOk on.freqBands 500 8 1 = false ∧ planOk on.freqBands 500 7 1 = true := by decide +kernel

/-- The example of R399: cell 3 at 3.3005 V reads 0x0249EE63, with OVR set at 5.30 V. -/
theorem test_result_word_example : resultWord 2 4845155 false false = 0x0249EE63 ∧ bit (resultWord 2 7780434 true false) 31 = true := by decide +kernel

/-- The example of R671: 19 02 09 answers 59 02 2F and the two stored codes; 19 06 01 03 00 01 answers their count. -/
theorem test_dtc_answers :
    after { canB with uds := { dtcs := [{ code := 0x0103, status := 0x2F, count := 2 }, { code := 0x0301, status := 0x2F, count := 1 }] } }
      (.reportDtcByStatus false true [0x19, 2, 9]) (fun t => t.uds.resp = [0x59, 2, 0x2F, 1, 3, 0, 0x2F, 3, 1, 0, 0x2F]) = true ∧
    after { canB with uds := { dtcs := [{ code := 0x0103, status := 0x2F, count := 2 }] } }
      (.reportDtcExtendedData false true [0x19, 6, 1, 3, 0, 1]) (fun t => t.uds.resp = [0x59, 6, 1, 3, 0, 0x2F, 1, 2]) = true := by decide +kernel

/-- R542, R545: nRST low for 2 µs is a core reset; R543 counts it from the pin. -/
theorem test_pin_reset : after on (.nrstCoreReset true) (fun t => t.aon.resetLevel = 1 ∧ t.aon.shell = false ∧ t.obj Obj.BRINGUP_STEP = 1) = true := by
  decide +kernel

/-- R602: an area locked by the host refuses the tester, and the owner's write of 0 releases it. -/
theorem test_lock :
    after (wr on [(Obj.OD_LOCK 1, Master.H.code)]) (.objectWrite .T Obj.OD_COMMIT_DELAY [0xE8, 3]) (fun t => t.srv.code = 7) = true ∧
    after (wr on [(Obj.OD_LOCK 1, Master.H.code)]) (.odLockWrite .H 1 0) (fun t => t.srv.code = 0 ∧ t.obj (Obj.OD_LOCK 1) = 0) = true := by decide +kernel

/-- R605: a write of a persisted object is in force at once and leaves an entry in the journal. -/
theorem test_journal_entry : after (wr on [(Obj.FLASH_STATE, 1)]) (.objectWrite .H Obj.OD_COMMIT_DELAY [0xF4, 1])
    (fun t => t.obj Obj.OD_COMMIT_DELAY = 500 ∧ t.jrnl.buf = [(Obj.OD_COMMIT_DELAY, 501)] ∧ t.obj Obj.OD_JOURNAL = 1) = true := by decide +kernel

/-- R570: a check-in inside its window with the period's token counts; R572: one with another token is a violation, which pulses nFAILOVER. -/
theorem test_watchdog :
    meets (wr { on with wd := { on.wd with enable := 0x1FF, open_ := List.replicate 16 0, close := List.replicate 16 100 } } [(Obj.WD_STATE, 1), (Obj.WD_TOKEN, 7)])
      (fun s => after s (.wdCheckin .H 0x0708 5) (fun t => t.obj Obj.WD_SEEN = 256 ∧ t.wd.pulse = 0)) = true := by decide +kernel

/-- R122: the third current peak in a row latches the phase. -/
theorem test_third_peak :
    after { running with ph := Vector.replicate 16 { code := 1, weight := 4, peakRun := 2 } } (.phasePeak 0) (fun t => (t.phase 0).code = 5) = true := by
  decide +kernel

/-- R113, R116: a word with odd parity is refused and its identifier kept. -/
theorem test_port_parity : after on (.portLatchWrite 1 1 none) (fun t => t.core.refused.isSome ∧ t.core.pend = []) = true := by decide +kernel

/-- R728: programming ORs the data into the area and never clears a bit. -/
theorem test_otp_ors : after { on with otp := { on.otp with areas := [{}, {}, {}, {}, { fuses := [(8, 0x0F)] }], prog := some (4, 8, [0xA5]) } }
    (.otpProgrammingComplete true) (fun t => (t.otpArea 4).fuses = [(8, 0xAF)] ∧ t.obj Obj.OTP_PROG_STATE = 2) = true := by decide +kernel

/-- R635, R636: a LIN STATUS response has 8 bytes; nothing is sent while a short is latched. -/
theorem test_lin_status : after on (.linStatus true false) (fun t => t.lin.out.length = 8) = true ∧
    after { on with lin := { on.lin with short := true } } (.linStatus true false) (fun t => t.lin.out = []) = true := by decide +kernel

/-- R651: TesterPresent answers 7E 00, and nothing with the suppress bit. -/
theorem test_tester_present : after canB (.testerPresent false false [0x3E, 0]) (fun t => t.uds.resp = [0x7E, 0]) = true ∧
    after canB (.testerPresent false false [0x3E, 0x80]) (fun t => t.uds.resp = [] ∧ t.can.b.queue = []) = true := by decide +kernel

/-- R503: an accepted message is counted and takes the lowest free slot. -/
theorem test_fault_raise : after (told { src := 5, kind := 5, inst := 7 }) .faultRaise
    (fun t => t.obj Obj.FAULT_COUNT = 1 ∧ (t.rec? 1).any fun r => r.first == 0x05050007 && r.active) = true := by decide +kernel

/-- R334: an OFFER that suits the policy of a Consumer is answered by a REQUEST. -/
theorem test_offer_requests : after (linked 3 {}) (.offer .east 2 (linkMsg 1 5 0 [40, 108, 40, 50]))
    (fun t => t.lState .east = 4 ∧ t.awaiting .east = 2 ∧ (t.lp .east).rxId = some 5) = true := by decide +kernel

/-- R373: a frame for another node goes on with one hop more; one that has made 64 hops does not. -/
theorem test_forward :
    after routed (.frameForward .east (readFrame 3) false) (fun t =>
      (t.fab.ports.west.queue.map fun e => (e.2.node, e.2.hops)) = [(7, 4)]) = true ∧
    after routed (.frameForward .east (readFrame 64) false) (fun t => t.fab.ports.west.queue = [] ∧ t.obj (Obj.FAB_STATS 7) = 1) = true := by
  decide +kernel

/-- The queue: two commands are taken in order, and the idle block counts a tick. -/
theorem test_queue : step { State.reset with pending := [.heartbeat, .tapReset] } = .next { State.reset with pending := [.tapReset] } := rfl
end Sys2Proof.Tests
end

section
/-!
PROOFS. The recorder between two states that agree in the core, and the writes that the object server refuses (O7).
-/
namespace Sys2Proof.Machine

/-! ### From a footprint to the components it leaves -/

/-- Every component of a state. -/
def Part.all : List Part :=
  [.pending, .now, .recTime, .free, .objs, .core, .grp, .ph, .aon, .cell, .strat, .mode, .src, .col, .recs, .spd, .jrnl, .otp, .meas,
    .ring, .archive, .thm, .hz, .hour, .parkAcc, .log, .logRetry, .tabs, .env, .chg, .link, .fab, .seqs, .flash, .wd, .srv, .can, .note,
    .lin, .uds]

theorem Part.mem_all (q : Part) : q ∈ Part.all := by
  cases q <;> decide

/-- A footprint inside the listed components, checked bit by bit. -/
theorem Fr.only {p : Nat} {s t : State} {l : List Part} (h : Fr p s t)
    (hl : (Part.all.all fun q => l.contains q || !p.testBit q.num) = true) : s.OnlyParts l t :=
  h.onlyParts fun q hq => by
    have hbit := List.all_eq_true.mp hl q q.mem_all
    simpa [hq] using hbit

/-! ### The recorder between two states that agree in the core (R426) -/

/-- A fold whose every step leaves the start as it is. -/
theorem foldl_of_fixed {α β : Type} {f : β → α → β} {b : β} : ∀ l : List α, (∀ a ∈ l, f b a = b) → l.foldl f b = b
  | [], _ => rfl
  | a :: l, h => by
    rw [List.foldl_cons, h a (.head _)]
    exact foldl_of_fixed l fun x hx => h x (.tail _ hx)

/-- With the same core, groups, phases and Stratus state there is no change for the recorder to report. -/
theorem State.logDiff_of_same {a b : State} (hc : b.core = a.core) (hg : b.grp = a.grp) (hp : b.ph = a.ph) (hs : b.strat = a.strat) :
    a.logDiff b = b := by
  have hlev : b.levels = a.levels := by simp [State.levels, State.g, hc, hg]
  have htook : ∀ i, a.took b i = false := by simp [State.took, State.word, hc]
  unfold State.logDiff
  split
  · rfl
  · simp only [State.phase, State.g, hc, hg, hp, hs, hlev, htook, List.foldl_fixed, if_true, Bool.false_eq_true, if_false]
    exact foldl_of_fixed _ fun x hx => if_pos (List.contains_iff_mem.mpr hx)

@[simp] theorem State.logDiff_self (s : State) : s.logDiff s = s := State.logDiff_of_same rfl rfl rfl rfl

/-- A core action outside the core, the groups, the phases and the Stratus state leaves the recorder alone. -/
theorem State.logged_of_parts {p : Nat} {s : State} {f : State → State} (h : Fr p s (f s)) (hc : p.testBit 5 = false)
    (hg : p.testBit 6 = false) (hp : p.testBit 7 = false) (hs : p.testBit 10 = false) : s.logged f = f s :=
  State.logDiff_of_same (h.core hc) (h.grp hg) (h.ph hp) (h.strat hs)

/-! ### The answer of an access (R597, R616) -/

/-- The objects that the answer of a refused write counts and records itself in. -/
def answerObjs : List Nat := [Obj.OD_STATS_REQUESTS, Obj.OD_STATS_ERRORS, Obj.OD_STATS_LOCKED, Obj.OD_LAST_ERROR]

theorem State.answerWith_code (s : State) (m : Master) (k code : Nat) (d : List Byte) : (s.answerWith m k code d).srv.code = code := by
  unfold State.answerWith
  dsimp only
  split
  · rfl
  · split
    · rfl
    · split <;> rfl

/-- An answer counts and records itself, and changes no other object. -/
theorem State.answerWith_sameObjs (s : State) (m : Master) (k code : Nat) (d : List Byte) :
    s.SameObjs answerObjs (s.answerWith m k code d) := by
  intro j hj
  simp only [answerObjs, List.mem_cons, List.not_mem_nil, or_false, not_or] at hj
  obtain ⟨hreq, herr, hlock, hlast⟩ := hj
  unfold State.answerWith State.tally
  dsimp only
  split
  · rfl
  · split
    · rw [State.obj_set_other _ _ hreq]
      rfl
    · split <;> simp only [State.obj_set_other _ _ hlast, State.obj_set_other _ _ hlock, State.obj_set_other _ _ herr,
        State.obj_set_other _ _ hreq] <;> rfl

theorem State.asked_answer_parts (s : State) (m : Master) (k code : Nat) (d : List Byte) :
    Fr 0x800000010 s (s.asked m fun x => x.answerWith m k code d) :=
  Fr.ite (State.answerWith_parts _ _ _ _ rfl (Fr.refl _ _)) (Fr.refl _ _)

/-! ### A write out of range (R596) -/

/-- A value that the object's range does not hold is refused: by an earlier check of R596, or else as out of range. -/
theorem State.writeCode_of_not_valueOk {s : State} {m : Master} {k : Nat} {d : List Byte}
    (hv : s.valueOk m k (keptBits k (leNat d)) = false) :
    s.writeCode m k d ≠ 0 ∧ (s.writeCodeA m k (leNat d) (((s.keyType k).bind ObjType.size).elim true fun n => n == d.length) = 0 →
      s.writeCode m k d = 9) := by
  unfold State.writeCode
  simp only [hv, Bool.and_false, Bool.false_eq_true, if_false]
  split
  case isTrue hc => exact ⟨by simpa using hc, fun h0 => absurd hc (by simp [h0])⟩
  case isFalse => exact ⟨by decide, fun _ => rfl⟩

/-- A refused write of a key of fixed size, but for TABLE_SWITCH, does nothing except answer. -/
theorem State.writeWhole_of_refused {s : State} {m : Master} {k : Nat} {d : List Byte} (hk : s.keyType k ≠ some .domain)
    (hsw : k ≠ Obj.TABLE_SWITCH) (hc : s.writeCode m k d ≠ 0) :
    (s.writeWhole m k d).2 = s.answerWith m k (s.writeCode m k d) [] := by
  simp [State.writeWhole, hk, State.writeKey, hc, State.refusedWrite, hsw]

/-- The type of a key that every variant has. -/
theorem State.keyType_of_row {s : State} {k : Nat} {r : ObjRow} (hr : Dict.row? k = some r) (hon : r.on = .abc) :
    s.keyType k = some r.type := by
  have hrow : s.row? k = some r := by simp [State.row?, hr, hon, Presence.has]
  simp [State.keyType, hrow]

theorem State.keyType_railSetpoint (s : State) : s.keyType Obj.RAIL_SETPOINT = some .u16 :=
  State.keyType_of_row (r := ⟨0x0210, 0, 0, true, .u16, .rw, .r, .rw, .r, 960, 0, .P, 480, 1600, .abc⟩) (by decide +kernel) rfl

theorem State.keyType_wakeCfg (s : State) : s.keyType Obj.WAKE_CFG = some .bits16 :=
  State.keyType_of_row (r := ⟨0x010C, 0, 0, true, .bits16, .rw, .r, .rw, .r, 15, 0, .P, 0, 65535, .abc⟩) (by decide +kernel) rfl

/-- R28: RAIL_SETPOINT holds no value below RAIL_FLOOR. -/
theorem State.valueOk_railSetpoint (s : State) (m : Master) (v : Nat) :
    s.valueOk m Obj.RAIL_SETPOINT v = decide (s.obj Obj.RAIL_FLOOR ≤ v) := rfl

/-- R49: WAKE_CFG holds no value with both wakes clear. -/
theorem State.valueOk_wakeCfg (s : State) (m : Master) (v : Nat) : s.valueOk m Obj.WAKE_CFG v = (v % 4 != 0) := rfl

theorem exec_objectWrite (m : Master) (k : Nat) (d : List Byte) (s : State) :
    exec (.objectWrite m k d) s = .next (s.logged fun s => s.asked m fun s => (s.writeWhole m k d).2) := rfl

/-- A write out of range, whoever asks for it: the answer, where the master gets one, is all it leaves. -/
theorem execObjectWrite_of_refused {s : State} {m : Master} {k : Nat} {d : List Byte} (hk : s.keyType k ≠ some .domain)
    (hsw : k ≠ Obj.TABLE_SWITCH) (hc : s.writeCode m k d ≠ 0) :
    exec (.objectWrite m k d) s = .next (s.asked m fun x => x.answerWith m k (s.writeCode m k d) []) := by
  have heq : s.asked m (fun s => (s.writeWhole m k d).2) = s.asked m fun x => x.answerWith m k (s.writeCode m k d) [] := by
    simp only [State.asked, State.writeWhole_of_refused hk hsw hc]
  have hparts : Fr 0x800000010 s (s.asked m fun s => (s.writeWhole m k d).2) := by
    rw [heq]
    exact State.asked_answer_parts s m k _ []
  rw [exec_objectWrite, State.logged_of_parts (f := fun s => s.asked m fun s => (s.writeWhole m k d).2) hparts rfl rfl rfl rfl, heq]

/-- A write of a 16-bit object out of its range, whoever writes it. -/
theorem objectWrite_outOfRange {s : State} {m : Master} {k : Nat} {d : List Byte} {ty : ObjType} (hty : s.keyType k = some ty)
    (hsize : ty.size = some 2) (hsw : k ≠ Obj.TABLE_SWITCH) (hv : s.valueOk m k (keptBits k (leNat d)) = false) (hk : k ∉ answerObjs) :
    ∃ t, exec (.objectWrite m k d) s = .next t ∧ t.obj k = s.obj k ∧ s.OnlyParts [.objs, .col, .srv] t ∧
      s.SameObjs [Obj.OD_STATS_REQUESTS, Obj.OD_STATS_ERRORS, Obj.OD_STATS_LOCKED, Obj.OD_LAST_ERROR, Obj.FAULT_LOST] t ∧
      (s.served m = true → t.srv.code ≠ 0 ∧ (s.writeCodeA m k (leNat d) (d.length == 2) = 0 → t.srv.code = 9)) := by
  obtain ⟨hc, hrange⟩ := State.writeCode_of_not_valueOk hv
  have hdom : s.keyType k ≠ some .domain := by
    rintro h
    cases hty.symm.trans h
    cases hsize
  have hobjs : s.SameObjs answerObjs (s.asked m fun x => x.answerWith m k (s.writeCode m k d) []) := by
    unfold State.asked
    split
    · exact State.answerWith_sameObjs _ _ _ _ _
    · exact fun _ _ => rfl
  refine ⟨_, execObjectWrite_of_refused hdom hsw hc, hobjs k hk, (State.asked_answer_parts s m k _ []).only (by decide),
    fun j hj => hobjs j fun h => hj (List.mem_append_left [Obj.FAULT_LOST] h), fun hs => ?_⟩
  rw [State.asked, if_pos hs, State.answerWith_code]
  refine ⟨hc, fun h0 => hrange ?_⟩
  simpa [hty, hsize, Bool.beq_comm] using h0

/-- Settles O7: both values lie outside their object's range in every state, so no master's write gets past the last check of R596. -/
theorem setpointAndWakeWritesRefused : Obligations.SetpointAndWakeWritesRefused := by
  intro m k d s h
  rcases h with ⟨rfl, hlow⟩ | ⟨rfl, hclear⟩
  · refine objectWrite_outOfRange s.keyType_railSetpoint rfl (by decide) ?_ (by decide)
    rw [State.valueOk_railSetpoint]
    exact decide_eq_false (Nat.not_le.mpr hlow)
  · refine objectWrite_outOfRange s.keyType_wakeCfg rfl (by decide) ?_ (by decide)
    have hkept : keptBits Obj.WAKE_CFG (leNat d) = leNat d % 16 := rfl
    rw [State.valueOk_wakeCfg, hkept, Nat.mod_mod_of_dvd _ (by decide : 4 ∣ 16), hclear]
    rfl

end Sys2Proof.Machine
end

section
/-!
PROOFS. A source that is lost: what the operations on the way leave of DISC_GATE and of the pack's objects.
-/
namespace Sys2Proof.Machine

/-! ### Reports as footprints -/

theorem State.Reports.parts {p : Nat} {s t : State} (h : s.Reports t) (hp : 0x82010 ||| p = p) : Fr p s t := by
  rw [h.1]
  exact Fr.mk_objs (x := { s with col := t.col, ring := t.ring })
    (Fr.mk_col (x := { s with ring := t.ring }) (Fr.mk_ring (Fr.refl p s) (Fr.up (by decide) hp)) (Fr.up (by decide) hp))
    (Fr.up (by decide) hp)

theorem State.coreRaise_reports {s : State} (h : s.strat.absent = false) (a b c : Nat) : s.Reports (s.coreRaise a b c) := by
  rw [State.coreRaise, State.coreSend, h]
  exact State.send_reports _ _

/-! ### What the way to a lost source spares -/

/-- The objects that tell whether the pack can supply (R55) and whether a thermal shutdown holds. -/
def packObjs : List Nat := [Obj.PACK_STATE, Obj.PACK_CELLS, Obj.TSD_STATE]

/-- DISC_GATE stands as before, with its precharge, and so do the objects of `packObjs` and the doubt about an unseen pack. -/
structure Spares (s x : State) : Prop where
  disc : x.core.disc = s.core.disc
  precharge : x.core.precharge = s.core.precharge
  unseen : x.chg.unseen = s.chg.unseen
  objs : ∀ k ∈ packObjs, x.obj k = s.obj k

namespace Spares

theorem refl (s : State) : Spares s s := ⟨rfl, rfl, rfl, fun _ _ => rfl⟩

theorem trans {s t u : State} (h : Spares s t) (k : Spares t u) : Spares s u :=
  ⟨k.disc.trans h.disc, k.precharge.trans h.precharge, k.unseen.trans h.unseen, fun j hj => (k.objs j hj).trans (h.objs j hj)⟩

theorem ite {s a b : State} {c : Prop} [Decidable c] (ha : Spares s a) (hb : Spares s b) : Spares s (if c then a else b) := by
  split <;> assumption

theorem foldl {α : Type} {s x : State} {f : State → α → State} (l : List α) (h : Spares s x) (hf : ∀ y a, Spares y (f y a)) :
    Spares s (l.foldl f x) := by
  induction l generalizing x with
  | nil => exact h
  | cons a l ih => exact ih (h.trans (hf x a))

/-- A footprint without objects, core and charger. -/
theorem of_parts {p : Nat} {s x : State} (h : Fr p s x) (ho : p.testBit 4 = false) (hc : p.testBit 5 = false)
    (hg : p.testBit 29 = false) : Spares s x :=
  ⟨by rw [h.core hc], by rw [h.core hc], by rw [h.chg hg], fun k _ => State.obj_congr (h.objs ho) k⟩

theorem of_reports {s x : State} (h : s.Reports x) : Spares s x :=
  have hp := h.parts (p := 0x82010) rfl
  ⟨by rw [hp.core rfl], by rw [hp.core rfl], by rw [hp.chg rfl], fun k hk => h.obj fun e => absurd (e ▸ hk) (by decide)⟩

end Spares

theorem State.set_spares (s : State) {k : Nat} (v : Nat) (hk : k ∉ packObjs) : Spares s (s.set k v) :=
  ⟨rfl, rfl, rfl, fun _ hj => State.obj_set_other s v fun e => hk (e ▸ hj)⟩

theorem State.count_spares (s : State) {k : Nat} (top : Nat) (hk : k ∉ packObjs) : Spares s (s.count k top) :=
  ⟨by simp, by simp, by simp, fun _ hj => State.obj_put_other s _ (fun e => hk (e ▸ hj)) fun e => absurd (e ▸ hj) (by decide)⟩

/-! ### The port's words -/

theorem State.coreSend_spares (s : State) (m : Msg) : Spares s (s.coreSend m) := by
  unfold State.coreSend
  refine Spares.ite ?_ (Spares.of_reports (State.send_reports _ _))
  unfold State.enqueue
  split <;> exact ⟨rfl, rfl, rfl, fun _ _ => rfl⟩

theorem State.coreClearBy_spares (s : State) (p : Msg → Bool) : Spares s (s.coreClearBy p) :=
  Spares.foldl _ ⟨rfl, rfl, rfl, fun _ _ => rfl⟩ fun y _ => y.coreSend_spares _

theorem State.modG_spares (s : State) (g : Group) (f : GroupSt → GroupSt) : Spares s (s.modG g f) := ⟨rfl, rfl, rfl, fun _ _ => rfl⟩
theorem State.modP_spares (s : State) (p : Nat) (f : Phase → Phase) : Spares s (s.modP p f) := ⟨rfl, rfl, rfl, fun _ _ => rfl⟩

theorem State.applyOrder_spares (s : State) (g : Group) (v : Nat) : Spares s (s.applyOrder g v) := by
  unfold State.applyOrder
  refine Spares.trans ?_ (State.coreClearBy_spares _ _)
  refine Spares.trans ?_ (State.coreClearBy_spares _ _)
  refine Spares.trans ?_ (State.modG_spares _ _ _)
  exact Spares.foldl _ ⟨rfl, rfl, rfl, fun _ _ => rfl⟩ fun y _ => y.modP_spares _ _

theorem State.applyWord_spares (s : State) (g : Group) (id v : Nat) : Spares s (s.applyWord g id v) := by
  unfold State.applyWord
  refine Spares.ite (s.modG_spares _ _) (Spares.ite ?_ (Spares.ite ?_ (Spares.ite (s.applyOrder_spares _ _) (Spares.refl s))))
  · exact s.modP_spares _ _
  · exact Spares.of_parts (p := 0x40) (State.applyFreq_parts _ _ rfl (Fr.refl _ _)) rfl rfl rfl

theorem State.applyAll_spares (s : State) (g : Group) : Spares s (s.applyAll g) := by
  refine Spares.foldl _ (Spares.refl s) fun y w => Spares.ite ?_ (Spares.refl y)
  have hkeep : Spares y (if (w.wait.filter (· != g)).isEmpty then (y.applyWord g w.id w.value).keepWord w.id w.value
      else y.applyWord g w.id w.value) :=
    (y.applyWord_spares g w.id w.value).trans (Spares.ite ⟨rfl, rfl, rfl, fun _ _ => rfl⟩ (Spares.refl _))
  exact hkeep.trans ⟨rfl, rfl, rfl, fun _ _ => rfl⟩

theorem State.applyIdle_spares (s : State) (l : List Group) : Spares s (s.applyIdle l) :=
  Spares.foldl _ (Spares.refl s) fun y g => y.applyAll_spares g

theorem State.accept_spares (s : State) (id v : Nat) (hold : Bool) : Spares s (s.accept id v hold) := by
  unfold State.accept
  dsimp only
  generalize hx : ({ s with core := { s.core with pend := _, refused := none } } : State) = x
  have h0 : Spares s x := hx ▸ ⟨rfl, rfl, rfl, fun _ _ => rfl⟩
  have h1 : Spares s (if id = 5 ∨ id = 6 then x.freeG .pack 7 else x) := h0.trans (Spares.ite (x.modG_spares _ _) (Spares.refl x))
  exact Spares.ite h1 (h1.trans (State.applyIdle_spares _ _))

theorem State.portWord_spares (s : State) (id v : Nat) (hold : Bool) : Spares s (s.portWord id v hold) :=
  Spares.ite (s.accept_spares _ _ _)
    (Spares.trans (t := { s with core := { s.core with refused := some id } }) ⟨rfl, rfl, rfl, fun _ _ => rfl⟩ (State.coreSend_spares _ _))

theorem State.portIfNew_spares (s : State) (id v : Nat) : Spares s (s.portIfNew id v) :=
  Spares.ite (s.portWord_spares _ _ _) (Spares.refl s)

/-! ### The charger, the balancer and the planner at a change of mode -/

theorem State.writeChg_spares (s : State) (v : Nat) : Spares s (s.writeChg v) :=
  (s.set_spares v (by decide)).trans (State.portIfNew_spares _ _ _)

theorem State.chgEnter_spares (s : State) (st step : Nat) : Spares s (s.chgEnter st step) :=
  Spares.trans (t := { s with chg := { s.chg with endRun := 0, precond := if s.obj Obj.CHG_STATE = st then s.chg.precond else 0 } })
    ⟨rfl, rfl, rfl, fun _ _ => rfl⟩ ((State.set_spares _ _ (by decide)).trans (State.set_spares _ _ (by decide)))

theorem State.chgModeChange_spares (s : State) : Spares s s.chgModeChange :=
  Spares.ite (Spares.ite (s.writeChg_spares 0) (Spares.ite (Spares.refl s) ((s.chgEnter_spares 2 0).trans (State.writeChg_spares _ 0))))
    (Spares.refl s)

theorem State.orderMode_spares (s : State) : Spares s s.orderMode := Spares.ite (Spares.refl s) (s.portIfNew_spares _ _)

theorem State.balOff_spares (s : State) : Spares s s.balOff :=
  (s.set_spares (k := Obj.BAL_STATE) 0 (by decide)).trans ⟨rfl, rfl, rfl, fun _ _ => rfl⟩

theorem State.probeAbandon_spares (s : State) : Spares s s.probeAbandon :=
  Spares.ite (Spares.trans (t := { s with hz := { s.hz with probe := 0 } }) ⟨rfl, rfl, rfl, fun _ _ => rfl⟩
    (State.set_spares _ _ (by decide))) (Spares.refl s)

theorem State.hzMode_spares (s : State) : Spares s s.hzMode := s.set_spares _ (by decide)

theorem State.setMode_spares (s : State) (next cause : Nat) : Spares s (s.setMode next cause) := by
  have hmode : Spares s (((s.set Obj.MODE_PREV s.modeNow).set Obj.MODE_STATE next).set Obj.MODE_CAUSE cause) :=
    ((s.set_spares _ (by decide)).trans (State.set_spares _ _ (by decide))).trans (State.set_spares _ _ (by decide))
  unfold State.setMode
  dsimp only
  generalize ((s.set Obj.MODE_PREV s.modeNow).set Obj.MODE_STATE next).set Obj.MODE_CAUSE cause = y at hmode
  generalize hz : (if next = 4 ∨ next = 5 then ({ y with note := { y.note with reason := setBit y.note.reason 1 true } } : State)
    else State.set _ _ _) = z
  have hserv : Spares s z := by
    rw [← hz]
    have hnote : Spares s { y with note := { y.note with reason := setBit y.note.reason 1 true } } :=
      hmode.trans ⟨rfl, rfl, rfl, fun _ _ => rfl⟩
    exact Spares.ite hnote (hnote.trans (State.set_spares _ _ (by decide)))
  have hord := (hserv.trans (State.chgModeChange_spares z)).trans (State.orderMode_spares _)
  have hbal := Spares.ite (c := [2, 3, 5].contains next = true) hord (hord.trans (State.balOff_spares _))
  refine Spares.ite ((Spares.ite hbal (hbal.trans (State.probeAbandon_spares _))).trans (State.hzMode_spares _)) ?_
  exact (hserv.trans (State.balOff_spares z)).trans (State.hzMode_spares _)

theorem State.sourceLoss_spares (s : State) (cause : Nat) : Spares s (s.sourceLoss cause) := by
  have hbroken : Spares s { s with env := { s.env with broken := true } } := ⟨rfl, rfl, rfl, fun _ _ => rfl⟩
  exact Spares.ite ((hbroken.trans (State.count_spares _ _ (by decide))).trans (Spares.of_reports (State.raise_reports _ _ _ _))) hbroken

/-! ### The shell's part of a loss -/

/-- The hour's account with one more drop (3) or load dump (4). -/
def HourAcc.loss (h : HourAcc) (st : Nat) : HourAcc :=
  if st = 3 then { h with drops := h.drops + 1 } else { h with dumps := h.dumps + 1 }

/-- A loss counted: a classification is abandoned, the source is DROPPED (3) or DUMPED (4), and its counter advances. -/
def State.lossCount (s : State) (st : Nat) : State :=
  let s := s.classAbandon.srcState st
  if st = 3 then s.count Obj.SRC_COUNT_DROPS 0xFFFFFFFF else s.count Obj.SRC_COUNT_DUMPS 0xFFFFFFFF

/-- What the shell does at a loss before its mode follows: it counts it, also in the hour, and the promise given is void. -/
def State.lossHead (s : State) (st : Nat) : State :=
  let x := s.lossCount st
  let x : State := { x with hour := x.hour.loss st }
  (x.raise 6 (st + 1) (x.obj Obj.SRC_TYPE)).sourceLoss (st - 2)

/-- The same with Ride-through, where DISC_GATE was on, up to the test for exhausted sources. -/
def State.lossMid (s : State) (st : Nat) (on : Bool) : State :=
  (if on then (s.lossHead st).rideEnter (st + 3) else s.lossHead st).probeAbandon

theorem State.lossShell_eq (s : State) (st : Nat) (on : Bool) (vbus : Int) :
    s.lossShell st on vbus = (s.lossMid st on).exhausted vbus := by
  by_cases h : st = 3
  · simp only [State.lossShell, State.lossMid, State.lossHead, State.lossCount, HourAcc.loss, if_pos h]
  · simp only [State.lossShell, State.lossMid, State.lossHead, State.lossCount, HourAcc.loss, if_neg h]

theorem State.lossCount_parts (s : State) (st : Nat) : Fr 0x411050 s (s.lossCount st) := by
  have h := State.srcState_parts (p := 0x411050) st rfl (State.classAbandon_parts rfl (Fr.refl _ s))
  exact Fr.ite (State.count_parts _ _ rfl h) (State.count_parts _ _ rfl h)

theorem State.lossCount_mk (s : State) (st : Nat) : Mk s (s.lossCount st) := by
  have h := State.srcState_mk st (State.classAbandon_mk (Mk.refl s))
  exact Mk.ite (State.count_mk _ _ (by decide) h) (State.count_mk _ _ (by decide) h)

theorem State.lossCount_spares (s : State) (st : Nat) : Spares s (s.lossCount st) := by
  have habandon : Spares s s.classAbandon := Spares.of_parts (p := 0x1040) (State.classAbandon_parts rfl (Fr.refl _ _)) rfl rfl rfl
  have hstate : Spares s (s.classAbandon.srcState st) :=
    habandon.trans ((Spares.ite (Spares.refl _) (State.probeAbandon_spares _)).trans (State.set_spares _ _ (by decide)))
  exact Spares.ite (hstate.trans (State.count_spares _ _ (by decide))) (hstate.trans (State.count_spares _ _ (by decide)))

theorem State.lossCount_discAt (s : State) (st : Nat) : (s.lossCount st).src.discAt = s.src.discAt := by
  have habandon : s.classAbandon.src.discAt = s.src.discAt := by
    unfold State.classAbandon
    split <;> rfl
  have hstate := (State.srcState_parts (p := 0x400010) st rfl (Fr.refl _ s.classAbandon)).src rfl
  unfold State.lossCount
  split <;> rw [State.count_src, hstate, habandon]

theorem State.lossHead_parts (s : State) (st : Nat) : Fr 0x10c13050 s (s.lossHead st) :=
  State.sourceLoss_parts _ rfl (State.raise_parts _ _ _ rfl (Fr.mk_hour ((Fr.refl _ s).upd (s.lossCount_parts st) rfl) rfl))

theorem State.lossHead_mk (s : State) (st : Nat) : Mk s (s.lossHead st) :=
  State.sourceLoss_mk _ (State.raise_mk _ _ _ (Mk.mk_of (s.lossCount_mk st)))

theorem State.lossHead_spares (s : State) (st : Nat) : Spares s (s.lossHead st) := by
  refine Spares.trans ?_ (State.sourceLoss_spares _ _)
  refine Spares.trans ?_ (Spares.of_reports (State.raise_reports _ _ _ _))
  exact (s.lossCount_spares st).trans ⟨rfl, rfl, rfl, fun _ _ => rfl⟩

theorem State.lossHead_hour (s : State) (st : Nat) : (s.lossHead st).hour = s.hour.loss st := by
  have hloss := fun x : State => (State.sourceLoss_parts (p := 0x10012010) (st - 2) rfl (Fr.refl _ x)).hour rfl
  rw [State.lossHead, hloss, State.raise_hour, (s.lossCount_parts st).hour rfl]

theorem State.lossHead_discAt (s : State) (st : Nat) : (s.lossHead st).src.discAt = s.src.discAt := by
  have hloss := fun x : State => (State.sourceLoss_parts (p := 0x10012010) (st - 2) rfl (Fr.refl _ x)).src rfl
  rw [State.lossHead, hloss, State.raise_src, State.lossCount_discAt]

/-! ### Ride-through (R76-R78) -/

theorem State.rideEnter_spares (s : State) (cause : Nat) : Spares s (s.rideEnter cause) := by
  unfold State.rideEnter
  refine Spares.ite (Spares.refl s) (Spares.trans ?_ (State.setMode_spares _ 4 cause))
  exact Spares.ite (Spares.refl s) ⟨rfl, rfl, rfl, fun _ _ => rfl⟩

/-- In a thermal shutdown the mode stands (R460). -/
theorem State.rideEnter_of_shutdown {s : State} (cause : Nat) (h : s.obj Obj.TSD_STATE = 1) : s.rideEnter cause = s := by
  simp [State.rideEnter, h]

/-- A mode with the rail on from which a lost source leads to Ride-through. -/
structure RideReady (s : State) : Prop where
  up : s.shellUp = true
  mode : s.inMode [2, 3, 5] = true
  bring : s.bringing = false
  rail : s.mode.railOff = false
  overcast : s.aon.overcast = false
  park : s.mode.park ≠ 5
  tsd : s.obj Obj.TSD_STATE = 0

/-- What the entry of Ride-through writes in the area of modes. -/
theorem RideReady.rideEnter_obj {s : State} (h : RideReady s) (cause : Nat) {k : Nat} (hk : k / 65536 = 1) :
    (s.rideEnter cause).obj k =
      if k = Obj.MODE_CAUSE then cause else if k = Obj.MODE_STATE then 4 else if k = Obj.MODE_PREV then s.modeNow else s.obj k := by
  have henter : ∃ x : State, x.objs = s.objs ∧ s.rideEnter cause = x.setMode 4 cause := by
    refine ⟨if s.mode.park = 0 then s else { s with mode := { s.mode with park := 0, parkRestart := true } }, by split <;> rfl, ?_⟩
    simp [State.rideEnter, h.up, h.mode, h.bring, h.rail, h.overcast, h.park, h.tsd]
  obtain ⟨x, hobjs, heq⟩ := henter
  rw [heq, State.setMode_obj _ _ _ _ hk, State.modeNow, State.obj_congr hobjs, State.obj_congr hobjs, State.modeNow]

/-- The readiness rests on the objects of the area of modes, on TSD_STATE, and on three components. -/
theorem RideReady.of_parts {p : Nat} {s x : State} (h : RideReady s) (htsd : x.obj Obj.TSD_STATE = s.obj Obj.TSD_STATE) (hm : Mk s x)
    (hp : Fr p s x) (ha : p.testBit 8 = false) (hst : p.testBit 10 = false) (hmode : p.testBit 11 = false) : RideReady x where
  up := by rw [State.shellUp, hp.aon ha, hp.strat hst, ← State.shellUp, h.up]
  mode := by rw [State.inMode, State.modeNow, hm _ (by decide), ← State.modeNow, ← State.inMode, h.mode]
  bring := by rw [State.bringing, hm _ (by decide), ← State.bringing, h.bring]
  rail := by rw [hp.mode hmode, h.rail]
  overcast := by rw [hp.aon ha, h.overcast]
  park := by rw [hp.mode hmode]; exact h.park
  tsd := htsd.trans h.tsd

/-! ### Storage (R55) -/

theorem State.modL_spares (s : State) (p : Port) (f : LinkPort → LinkPort) : Spares s (s.modL p f) := ⟨rfl, rfl, rfl, fun _ _ => rfl⟩

theorem State.voidContract_spares (s : State) (p : Port) : Spares s (s.voidContract p) := by
  refine Spares.trans ?_ (State.set_spares _ _ (by cases p <;> decide))
  refine Spares.trans ?_ (State.set_spares _ _ (by cases p <;> decide))
  exact Spares.trans (s.modL_spares p _) (State.portIfNew_spares _ _ _)

theorem State.ordering_spares (s : State) : Spares s s.ordering := (s.set_spares _ (by decide)).trans (State.set_spares _ _ (by decide))

theorem State.toOff_spares (s : State) (p : Port) : Spares s (s.toOff p) := by
  have hloss : ∀ (x : State) (held : Bool), Spares x (x.endLoss held) := fun x _ => Spares.ite (x.sourceLoss_spares 4) (Spares.refl x)
  refine Spares.trans ?_ (hloss _ _)
  refine Spares.trans ?_ (State.ordering_spares _)
  refine Spares.trans ?_ (State.set_spares _ _ (by cases p <;> decide))
  refine Spares.trans ?_ (Spares.of_parts (p := 0xc0) (State.linkZ_parts p rfl (Fr.refl _ _)) rfl rfl rfl)
  exact Spares.trans (s.modL_spares p _) (State.voidContract_spares _ p)

theorem State.linksOff_spares (s : State) : Spares s s.linksOff :=
  Spares.ite ((s.toOff_spares .east).trans (State.toOff_spares _ .west)) (Spares.refl s)

/-- The first part of `State.shellOff`: the core is off, and so is what the shell keeps for itself. -/
def State.shellCut (s : State) : State :=
  { (s.mirror.coreOff) with
    aon := { s.aon with shell := false, resetLevel := 0, cause := 0, nrstLow := false, nrstDrive := false, wake := none }
    mode := { s.mode with park := 0, parkCheck := false, wakeHold := false, stored := false, maint := false, railOff := false }
    seqs := Vector.replicate 5 {}
    env := { s.env with dout := [], hiZ := true }
    srv := {}
    hz := { s.hz with probe := 0 } }

/-- Its second part: every bus is off, and no scan of the measurement runs. -/
def State.busesOff (s : State) : State := ((((s.linksOff).canOff .a).canOff .b).fabOff).measStop

/-- Its last part: the states that the shell reports for itself are 0. -/
def State.shellCleared (s : State) : State :=
  let s := { s with ring := { s.ring with open_ := none, closing := none } }
  let s := ((s.set Obj.ENV_STATE 0).set Obj.REC_STATE 0).set Obj.BAL_STATE 0
  (((s.set Obj.WD_STATE 0).set Obj.WD_TOKEN 0).set Obj.WD_SEEN 0).set Obj.BRINGUP_STEP 0

theorem State.shellOff_eq (s : State) : s.shellOff = s.shellCut.busesOff.shellCleared := by
  unfold State.shellOff State.shellCleared State.busesOff State.shellCut
  with_reducible rfl

theorem State.shellCut_disc (s : State) : s.shellCut.core.disc = false := rfl
theorem State.shellCut_precharge (s : State) : s.shellCut.core.precharge = false := rfl
theorem State.shellCut_mk (s : State) : Mk s s.shellCut := Mk.mk_of (State.coreOff_mk (State.mirror_mk (Mk.refl s)))
theorem State.shellCleared_core (s : State) : s.shellCleared.core = s.core := by
  unfold State.shellCleared
  iterate 7 rw [State.set_core]

theorem State.busesOff_core (s : State) : s.busesOff.core = s.linksOff.core :=
  (State.measStop_parts (p := 0x1080042010) rfl (State.fabOff_parts rfl (State.canOff_parts _ rfl (State.canOff_parts _ rfl
    (Fr.refl _ s.linksOff))))).core rfl

theorem State.busesOff_mk (s : State) : Mk s s.busesOff :=
  State.measStop_mk (State.fabOff_mk (State.canOff_mk _ (State.canOff_mk _ (State.linksOff_mk (Mk.refl s)))))

theorem State.shellCleared_obj (s : State) {k : Nat} (hk : k / 65536 = 1) (hb : k ≠ Obj.BRINGUP_STEP) : s.shellCleared.obj k = s.obj k := by
  have hring : Mk s { s with ring := { s.ring with open_ := none, closing := none } } := Mk.mk_of (Mk.refl s)
  unfold State.shellCleared
  rw [State.obj_set_other _ _ hb]
  exact State.set_mk _ _ (by decide) (State.set_mk _ _ (by decide) (State.set_mk _ _ (by decide) (State.set_mk _ _ (by decide)
    (State.set_mk _ _ (by decide) (State.set_mk _ _ (by decide) hring))))) k hk

/-- With the core buck off DISC_GATE is off. -/
theorem State.shellOff_gate (s : State) : s.shellOff.core.disc = false ∧ s.shellOff.core.precharge = false := by
  have hspare := s.shellCut.linksOff_spares
  rw [State.shellOff_eq, State.shellCleared_core, State.busesOff_core, hspare.disc, hspare.precharge]
  exact ⟨s.shellCut_disc, s.shellCut_precharge⟩

/-- The shell goes off without a word on the mode. -/
theorem State.shellOff_obj (s : State) {k : Nat} (hk : k / 65536 = 1) (hb : k ≠ Obj.BRINGUP_STEP) : s.shellOff.obj k = s.obj k := by
  rw [State.shellOff_eq, State.shellCleared_obj _ hk hb, s.shellCut.busesOff_mk k hk, s.shellCut_mk k hk]

theorem State.enterStorage_eq (s : State) (cause : Nat) : s.enterStorage cause =
    (s.groupsOff.setMode 0 cause).dropRequests.shellOff.set Obj.MODE_TARGET (s.groupsOff.setMode 0 cause).dropRequests.resolved := by
  unfold State.enterStorage
  with_reducible rfl

/-- Storage is entered with DISC_GATE off. -/
theorem State.enterStorage_gate (s : State) (cause : Nat) :
    (s.enterStorage cause).core.disc = false ∧ (s.enterStorage cause).core.precharge = false := by
  rw [State.enterStorage_eq, State.set_core]
  exact State.shellOff_gate _

theorem State.dropRequests_obj (s : State) {k : Nat} (hk : k ∉ [Obj.MODE_REQ_H, Obj.MODE_REQ_T, Obj.MODE_REQ_F]) :
    s.dropRequests.obj k = s.obj k := by
  simp only [List.mem_cons, List.not_mem_nil, or_false, not_or] at hk
  obtain ⟨hh, ht, hf⟩ := hk
  change (((s.set Obj.MODE_REQ_H 0xFF).set Obj.MODE_REQ_T 0xFF).set Obj.MODE_REQ_F 0xFF).obj k = s.obj k
  rw [State.obj_set_other _ _ hf, State.obj_set_other _ _ ht, State.obj_set_other _ _ hh]

theorem State.enterStorage_obj (s : State) (cause : Nat) {k : Nat} (hk : k / 65536 = 1)
    (hne : k ∉ [Obj.MODE_TARGET, Obj.BRINGUP_STEP, Obj.MODE_REQ_H, Obj.MODE_REQ_T, Obj.MODE_REQ_F]) :
    (s.enterStorage cause).obj k = (s.groupsOff.setMode 0 cause).obj k := by
  simp only [List.mem_cons, not_or] at hne
  obtain ⟨htarget, hstep, hreq⟩ := hne
  rw [State.enterStorage_eq, State.obj_set_other _ _ htarget, State.shellOff_obj _ hk hstep,
    State.dropRequests_obj _ (by simpa using hreq)]

theorem State.enterStorage_mode (s : State) (cause : Nat) :
    (s.enterStorage cause).modeNow = 0 ∧ (s.enterStorage cause).obj Obj.MODE_CAUSE = cause := by
  rw [State.modeNow, State.enterStorage_obj _ _ (by decide) (by decide), State.enterStorage_obj _ _ (by decide) (by decide),
    State.setMode_obj _ _ _ _ (by decide), State.setMode_obj _ _ _ _ (by decide)]
  exact ⟨rfl, rfl⟩

end Sys2Proof.Machine
end

section
/-!
PROOFS. The shell's part of a loss: Ride-through, Storage where every source is exhausted, and what stands in a thermal shutdown.
-/
namespace Sys2Proof.Machine

/-! ### The middle of a loss -/

theorem State.lossMid_parts (s : State) (st : Nat) (on : Bool) : Fr 0x2030c138f0 s (s.lossMid st on) := by
  have hhead : Fr 0x2030c138f0 s (s.lossHead st) := (Fr.refl _ s).upd (s.lossHead_parts st) rfl
  exact State.probeAbandon_parts rfl (Fr.ite (State.rideEnter_parts _ rfl hhead) hhead)

theorem State.lossMid_spares (s : State) (st : Nat) (on : Bool) : Spares s (s.lossMid st on) := by
  have hhead := s.lossHead_spares st
  exact (Spares.ite (hhead.trans (State.rideEnter_spares _ _)) hhead).trans (State.probeAbandon_spares _)

/-- Between the loss and the test for exhausted sources nothing counts in the hour and nothing touches the source's state. -/
theorem State.lossMid_after (s : State) (st : Nat) (on : Bool) : Fr 0x20204028f0 (s.lossHead st) (s.lossMid st on) :=
  State.probeAbandon_parts rfl (Fr.ite (State.rideEnter_parts _ rfl (Fr.refl _ _)) (Fr.refl _ _))

theorem State.lossMid_hour (s : State) (st : Nat) (on : Bool) : (s.lossMid st on).hour = s.hour.loss st := by
  rw [(s.lossMid_after st on).hour rfl, State.lossHead_hour]

theorem State.lossMid_discAt (s : State) (st : Nat) (on : Bool) : (s.lossMid st on).src.discAt = s.src.discAt := by
  rw [(s.lossMid_after st on).src rfl, State.lossHead_discAt]

theorem State.lossMid_of_shutdown {s : State} (st : Nat) (on : Bool) (h : s.obj Obj.TSD_STATE = 1) : Mk s (s.lossMid st on) := by
  have hhead := s.lossHead_mk st
  have hride := State.rideEnter_of_shutdown (st + 3) (((s.lossHead_spares st).objs _ (by decide)).trans h)
  rw [State.lossMid, hride, ite_self]
  exact State.probeAbandon_mk hhead

theorem RideReady.lossHead {s : State} (h : RideReady s) (st : Nat) : RideReady (s.lossHead st) :=
  h.of_parts ((s.lossHead_spares st).objs _ (by decide)) (s.lossHead_mk st) (s.lossHead_parts st) rfl rfl rfl

theorem RideReady.lossMid {s : State} (h : RideReady s) (st : Nat) :
    (s.lossMid st true).modeNow = 4 ∧ (s.lossMid st true).obj Obj.MODE_PREV = s.modeNow ∧
      (s.lossMid st true).obj Obj.MODE_CAUSE = st + 3 := by
  have hobj : ∀ k, k / 65536 = 1 → (s.lossMid st true).obj k =
      if k = Obj.MODE_CAUSE then st + 3 else if k = Obj.MODE_STATE then 4 else if k = Obj.MODE_PREV then s.modeNow else s.obj k := by
    intro k hk
    have hmid : Mk ((s.lossHead st).rideEnter (st + 3)) (s.lossMid st true) := State.probeAbandon_mk (Mk.refl _)
    rw [hmid k hk, (h.lossHead st).rideEnter_obj _ hk, State.modeNow, s.lossHead_mk st _ (by decide), s.lossHead_mk st k hk, State.modeNow]
  exact ⟨hobj _ (by decide), hobj _ (by decide), hobj _ (by decide)⟩

/-! ### Whether the pack can supply -/

theorem State.packDead_congr {s x : State} (hobj : ∀ k ∈ packObjs, x.obj k = s.obj k) (hu : x.chg.unseen = s.chg.unseen)
    (ht : x.tabs = s.tabs) : x.packDead = s.packDead := by
  simp only [State.packDead, State.packAlive, State.cells, State.chgValid, State.body, ht, hu, hobj Obj.PACK_STATE (by decide),
    hobj Obj.PACK_CELLS (by decide)]

/-- The test for exhausted sources leaves the state, or enters Storage, where the pack can supply nothing and no thermal shutdown holds. -/
theorem State.exhausted_cases (s : State) (vbus : Int) : s.exhausted vbus = s ∨
    (s.packDead = true ∧ s.obj Obj.TSD_STATE = 0 ∧ ∃ x : State, s.exhausted vbus = x.enterStorage 9) := by
  unfold State.exhausted
  split
  case isTrue h =>
    simp only [Bool.and_eq_true, beq_iff_eq] at h
    obtain ⟨⟨⟨-, hdead⟩, -⟩, htsd⟩ := h
    exact .inr ⟨hdead, htsd, (s.raise 6 3 0).commitNow, by with_reducible rfl⟩
  case isFalse => exact .inl rfl

/-! ### What the shell's part of a loss leaves -/

theorem State.lossShell_gate {s : State} (st : Nat) (on : Bool) (vbus : Int) (h : s.core.disc = false ∧ s.core.precharge = false) :
    (s.lossShell st on vbus).core.disc = false ∧ (s.lossShell st on vbus).core.precharge = false := by
  rw [State.lossShell_eq]
  rcases (s.lossMid st on).exhausted_cases vbus with heq | ⟨-, -, x, heq⟩
  · have hspare := s.lossMid_spares st on
    rw [heq, hspare.disc, hspare.precharge]
    exact h
  · rw [heq]
    exact x.enterStorage_gate 9

theorem State.lossShell_hour (s : State) (st : Nat) (on : Bool) (vbus : Int) : (s.lossShell st on vbus).hour = s.hour.loss st := by
  rw [State.lossShell_eq, (State.exhausted_parts (p := 0x3bf04dbdf0) vbus rfl (Fr.refl _ _)).hour rfl, State.lossMid_hour]

/-- The instant of the disconnection stands unless Storage is entered. -/
theorem State.lossShell_discAt {s : State} (st : Nat) (on : Bool) (vbus : Int) (h : (s.lossShell st on vbus).modeNow ≠ 0) :
    (s.lossShell st on vbus).src.discAt = s.src.discAt := by
  rw [State.lossShell_eq] at h ⊢
  rcases (s.lossMid st on).exhausted_cases vbus with heq | ⟨-, -, x, heq⟩
  · rw [heq, State.lossMid_discAt]
  · rw [heq] at h
    exact absurd (x.enterStorage_mode 9).1 h

theorem State.lossShell_of_shutdown {s : State} (st : Nat) (on : Bool) (vbus : Int) (h : s.obj Obj.TSD_STATE = 1) :
    (s.lossShell st on vbus).modeNow = s.modeNow := by
  rw [State.lossShell_eq]
  rcases (s.lossMid st on).exhausted_cases vbus with heq | ⟨-, htsd, -⟩
  · rw [heq]
    exact State.lossMid_of_shutdown st on h _ (by decide)
  · rw [(s.lossMid_spares st on).objs _ (by decide), h] at htsd
    exact absurd htsd (by decide)

theorem RideReady.lossShell {s : State} (h : RideReady s) (st : Nat) (vbus : Int) :
    (s.packDead = false → (s.lossShell st true vbus).modeNow = 4) ∧
      (((s.lossShell st true vbus).modeNow = 4 ∧ (s.lossShell st true vbus).obj Obj.MODE_PREV = s.modeNow ∧
          (s.lossShell st true vbus).obj Obj.MODE_CAUSE = st + 3) ∨
        ((s.lossShell st true vbus).modeNow = 0 ∧ (s.lossShell st true vbus).obj Obj.MODE_CAUSE = 9)) := by
  rw [State.lossShell_eq]
  rcases (s.lossMid st true).exhausted_cases vbus with heq | ⟨hdead, -, x, heq⟩
  · rw [heq]
    exact ⟨fun _ => (h.lossMid st).1, .inl (h.lossMid st)⟩
  · rw [heq]
    refine ⟨fun halive => ?_, .inr (x.enterStorage_mode 9)⟩
    have hspare := s.lossMid_spares st true
    rw [State.packDead_congr hspare.objs hspare.unseen ((s.lossMid_parts st true).tabs rfl), halive] at hdead
    cases hdead

end Sys2Proof.Machine
end

section
/-!
PROOFS. The core's part of a loss, and the statement about drops, reverse currents and load dumps (O25).
-/
namespace Sys2Proof.Machine

/-! ### DISC_GATE at a drop and at a dump -/

/-- The core's part of a drop (R205): DISC_GATE off, the input group at Z, the disconnection's instant, and whether DISC_GATE was on. -/
def State.dropGate (s : State) : State :=
  let x := ({ s with core := { s.core with busLow := true } } : State).discOff.discFrom
  { x with core := { x.core with dropped := true, rideFromOn := s.core.disc } }

/-- The core's part of a load dump (R209). -/
def State.dumpGate (s : State) : State :=
  let x := s.discOff.discFrom
  { x with core := { x.core with dumped := true, rideFromOn := x.core.rideFromOn || s.core.disc } }

/-- A source state in which the disconnection began now, unless one holds already (R219). -/
def State.srcCut (s : State) : SourceSt := { s.src with discAt := some (s.src.discAt.getD s.now) }

/-- A disconnection by the core: DISC_GATE is off, its instant is kept, and no object is written but FAULT_LOST by a report on the way. -/
structure CutOff (s y : State) : Prop where
  parts : Fr 0x830f0 s y
  objs : s.SameObjs [Obj.FAULT_LOST] y
  disc : y.core.disc = false
  precharge : y.core.precharge = false
  src : y.src = s.srcCut

theorem State.discOff_src (s : State) : s.discOff.src = s.src := (State.discOff_parts (p := 0xe0) rfl (Fr.refl _ s)).src rfl
theorem State.discOff_now (s : State) : s.discOff.now = s.now := (State.discOff_parts (p := 0xe0) rfl (Fr.refl _ s)).now rfl

theorem State.discOff_srcCut (s : State) : s.discOff.srcCut = s.srcCut := by
  rw [State.srcCut, State.discOff_src, State.discOff_now, State.srcCut]

theorem CutOff.of_core {s y : State} (hp : Fr 0x10e0 s y) (hd : y.core.disc = false) (hc : y.core.precharge = false)
    (hs : y.src = s.srcCut) : CutOff s y :=
  ⟨(Fr.refl _ s).upd hp rfl, fun k _ => State.obj_congr (hp.objs rfl) k, hd, hc, hs⟩

theorem State.dropGate_cutOff (s : State) : CutOff s s.dropGate :=
  .of_core (Fr.mk_core (State.discFrom_parts rfl (State.discOff_parts rfl (Fr.mk_core (Fr.refl _ s) rfl))) rfl) rfl rfl
    (State.discOff_srcCut _)

theorem State.dumpGate_cutOff (s : State) : CutOff s s.dumpGate :=
  .of_core (Fr.mk_core (State.discFrom_parts rfl (State.discOff_parts rfl (Fr.refl _ s))) rfl) rfl rfl (State.discOff_srcCut _)

/-- A report before the disconnection is no part of it. -/
theorem CutOff.of_reports {s a y : State} (ha : s.Reports a) (h : CutOff a y) : CutOff s y where
  parts := (ha.parts rfl).upd h.parts rfl
  objs k hk := (h.objs k hk).trans (ha.2 k hk)
  disc := h.disc
  precharge := h.precharge
  src := by rw [h.src, State.srcCut, (ha.parts (p := 0x82010) rfl).src rfl, (ha.parts (p := 0x82010) rfl).now rfl, State.srcCut]

theorem CutOff.shellUp {s y : State} (h : CutOff s y) : y.shellUp = s.shellUp := by
  rw [State.shellUp, h.parts.aon rfl, h.parts.strat rfl, State.shellUp]

theorem CutOff.obj {s y : State} (h : CutOff s y) {k : Nat} (hk : k ≠ Obj.FAULT_LOST) : y.obj k = s.obj k := h.objs k (by simpa using hk)

theorem CutOff.sameMode {s y : State} (h : CutOff s y) : Mk s y := fun k hk => h.obj fun e => by
  rw [e] at hk
  exact absurd hk (by decide)

theorem CutOff.rideReady {s y : State} (h : CutOff s y) (hs : RideReady s) : RideReady y :=
  hs.of_parts (h.obj (by decide)) h.sameMode h.parts rfl rfl rfl

theorem CutOff.packDead {s y : State} (h : CutOff s y) : y.packDead = s.packDead :=
  State.packDead_congr (fun k hk => h.obj fun e => absurd (e ▸ hk) (by decide)) (by rw [h.parts.chg rfl]) (h.parts.tabs rfl)

/-- A drop of a source that is connected, or that is off only for an input over the rail. -/
theorem State.drop_of_source {s : State} (vbus : Nat)
    (hc : (s.connected || (s.core.overRail && !s.core.dropped && !s.core.dumped)) = true) : s.drop vbus =
    if s.dropGate.shellUp then s.dropGate.lossShell 3 s.core.disc vbus
    else ({ s.dropGate with src := { s.dropGate.src with missedDrops := s.dropGate.src.missedDrops + 1 } } : State).exhaustedStratus vbus :=
  if_pos hc

theorem State.dump_of_connected {s : State} (vbus : Nat) (hc : s.connected = true) (hat : s.dumpAt ≠ 0) (hd : s.core.dumped = false) :
    s.dump vbus = if s.dumpGate.shellUp then s.dumpGate.lossShell 4 s.core.disc vbus
      else { s.dumpGate with src := { s.dumpGate.src with missedDumps := s.dumpGate.src.missedDumps + 1 } } := by
  unfold State.dump
  simp only [hat, hd, hc, decide_false, Bool.false_eq_true, Bool.or_self, if_false, Bool.true_or, if_true]
  rfl

theorem State.exhaustedStratus_of_present {s : State} (vbus : Int) (h : s.strat.absent = false) : s.exhaustedStratus vbus = s := by
  simp [State.exhaustedStratus, h]

/-! ### The two outcomes of a loss -/

/-- What a loss leaves with the shell up: the conclusions of the statement, for the hour and the cause of one kind of loss. -/
def State.LossServed (s : State) (hour : HourAcc) (cause : Nat) (t : State) : Prop :=
  t.core.disc = false ∧ t.core.precharge = false ∧ t.hour = hour ∧
  (t.modeNow ≠ 0 → t.src.discAt = some (s.src.discAt.getD s.now)) ∧
  (s.core.disc = true → s.inMode [2, 3, 5] = true → s.bringing = false → s.mode.railOff = false → s.aon.overcast = false →
    s.mode.park ≠ 5 → s.obj Obj.TSD_STATE = 0 → (s.packDead = false → t.modeNow = 4) ∧
      ((t.modeNow = 4 ∧ t.obj Obj.MODE_PREV = s.modeNow ∧ t.obj Obj.MODE_CAUSE = cause) ∨
        (t.modeNow = 0 ∧ t.obj Obj.MODE_CAUSE = 9))) ∧
  (s.obj Obj.TSD_STATE = 1 → t.modeNow = s.modeNow) ∧
  s.OnlyParts [.objs, .core, .grp, .ph, .aon, .strat, .mode, .src, .col, .spd, .jrnl, .meas, .ring, .hz, .hour, .env, .chg,
    .link, .fab, .seqs, .flash, .srv, .can, .note] t

/-- With the shell up the core's disconnection and the shell's part of the loss are the loss; a report after it is no part of it. -/
theorem CutOff.lossServed {s y t : State} (h : CutOff s y) (hup : s.shellUp = true) (st : Nat) (vbus : Int)
    (ht : (y.lossShell st s.core.disc vbus).Reports t) : s.LossServed (s.hour.loss st) (st + 3) t := by
  have hp := ht.parts (p := 0x3bf0cdbdf0) rfl
  have hreport := ht.parts (p := 0x82010) rfl
  have hmode : y.modeNow = s.modeNow := h.sameMode _ (by decide)
  have hmodet : t.modeNow = (y.lossShell st s.core.disc vbus).modeNow := ht.obj (by decide)
  unfold State.LossServed
  rw [hreport.core rfl, hreport.hour rfl, hreport.src rfl, hmodet, ht.obj (by decide), ht.obj (by decide)]
  obtain ⟨hdisc, hpre⟩ := State.lossShell_gate st s.core.disc vbus ⟨h.disc, h.precharge⟩
  refine ⟨hdisc, hpre, ?_, fun hne => ?_, fun hd hin hbr hrail hover hpark htsd => ?_, fun htsd => ?_, ?_⟩
  · rw [State.lossShell_hour, h.parts.hour rfl]
  · rw [State.lossShell_discAt st _ vbus hne, h.src]
    rfl
  · have hride := (h.rideReady ⟨hup, hin, hbr, hrail, hover, hpark, htsd⟩).lossShell st vbus
    rw [h.packDead, hmode] at hride
    rw [hd]
    exact hride
  · rw [State.lossShell_of_shutdown st _ vbus ((h.obj (by decide)).trans htsd), hmode]
  · exact ((State.lossShell_parts (p := 0x3bf0cdbdf0) st _ vbus rfl ((Fr.refl _ s).upd h.parts rfl)).upd hp rfl).only (by decide)

/-- With DISC_GATE off the input phases stand at Z. -/
theorem State.pwm_of_disconnected {s : State} (h : s.core.disc = false) {p : Nat} (hp : p < 6) : s.pwm p = .Z := by
  have hg : groupOf p = .input := if_pos hp
  unfold State.pwm
  simp only [hg, h, Bool.not_false, Bool.and_true, decide_true, if_true]
  split_ifs <;> rfl

/-- With the shell away the core acts alone: what its disconnection leaves, with a note for the shell in the source's state. -/
theorem CutOff.lossKept {s y t : State} (h : CutOff s y) (src : SourceSt) (ht : ({ y with src := src } : State).Reports t) :
    t.core = y.core ∧ t.src = src ∧ (∀ p, p < 6 → t.pwm p = .Z) ∧ s.OnlyParts [.objs, .core, .grp, .ph, .src, .col, .ring] t ∧
      s.SameObjs [Obj.FAULT_LOST] t := by
  have hp := ht.parts (p := 0x82010) rfl
  have hcore : t.core = y.core := hp.core rfl
  have hcut : Fr 0x830f0 s { y with src := src } := Fr.mk_src h.parts rfl
  exact ⟨hcore, hp.src rfl, fun p => State.pwm_of_disconnected (by rw [hcore, h.disc]), (hcut.upd hp rfl).only (by decide),
    fun k hk => (ht.2 k hk).trans (h.objs k hk)⟩

/-! ### Drops, reverse currents and load dumps -/

theorem State.dropsSource_of_reports {s a : State} (h : s.Reports a) (hc : s.connected = true) :
    (a.connected || (a.core.overRail && !a.core.dropped && !a.core.dumped)) = true := by
  have hcore : a.core = s.core := (h.parts (p := 0x82010) rfl).core rfl
  rw [State.connected, hcore, ← State.connected, hc, Bool.true_or]

section
variable {s a t : State} {vbus : Nat}

/-- A drop, with reports before and after it, while the shell is up. -/
theorem State.drop_served (ha : s.Reports a) (hc : s.connected = true) (hup : s.shellUp = true) (ht : (a.drop vbus).Reports t) :
    s.LossServed { s.hour with drops := s.hour.drops + 1 } 6 t := by
  have hcut := a.dropGate_cutOff.of_reports ha
  rw [State.drop_of_source vbus (State.dropsSource_of_reports ha hc), if_pos (hcut.shellUp.trans hup),
    (ha.parts (p := 0x82010) rfl).core rfl] at ht
  exact hcut.lossServed hup 3 vbus ht

/-- A drop, with reports before and after it, while the shell is away and the core is served. -/
theorem State.drop_kept (ha : s.Reports a) (hc : s.connected = true) (hup : s.shellUp = false) (habs : s.strat.absent = false)
    (ht : (a.drop vbus).Reports t) :
    t.core.disc = false ∧ t.core.precharge = false ∧ t.core.dropped = true ∧ t.core.rideFromOn = s.core.disc ∧
      (∀ p, p < 6 → t.pwm p = .Z) ∧
      t.src = { s.src with missedDrops := s.src.missedDrops + 1, discAt := some (s.src.discAt.getD s.now) } ∧
      s.OnlyParts [.objs, .core, .grp, .ph, .src, .col, .ring] t ∧ s.SameObjs [Obj.FAULT_LOST] t := by
  have hcut := a.dropGate_cutOff.of_reports ha
  have habsent : ∀ src, ({ a.dropGate with src := src } : State).strat.absent = false := fun _ => by rw [hcut.parts.strat rfl, habs]
  have haway : ¬ a.dropGate.shellUp = true := by simp [hcut.shellUp, hup]
  rw [State.drop_of_source vbus (State.dropsSource_of_reports ha hc), if_neg haway,
    State.exhaustedStratus_of_present _ (habsent _)] at ht
  obtain ⟨hcore, hsrc, hpwm, hparts, hobjs⟩ := hcut.lossKept _ ht
  refine ⟨by rw [hcore, hcut.disc], by rw [hcore, hcut.precharge], by rw [hcore]; rfl, ?_, hpwm, ?_, hparts, hobjs⟩
  · rw [hcore, ← (ha.parts (p := 0x82010) rfl).core rfl]
    rfl
  · rw [hsrc, hcut.src]
    rfl

theorem State.dump_served (hc : s.connected = true) (hat : s.dumpAt ≠ 0) (hd : s.core.dumped = false) (hup : s.shellUp = true)
    (ht : (s.dump vbus).Reports t) : s.LossServed { s.hour with dumps := s.hour.dumps + 1 } 7 t := by
  have hcut := s.dumpGate_cutOff
  rw [State.dump_of_connected vbus hc hat hd, if_pos (hcut.shellUp.trans hup)] at ht
  exact hcut.lossServed hup 4 vbus ht

theorem State.dump_kept (hc : s.connected = true) (hat : s.dumpAt ≠ 0) (hd : s.core.dumped = false) (hup : s.shellUp = false)
    (ht : (s.dump vbus).Reports t) :
    t.core.disc = false ∧ t.core.precharge = false ∧ t.core.dumped = true ∧
      t.core.rideFromOn = (s.core.rideFromOn || s.core.disc) ∧ (∀ p, p < 6 → t.pwm p = .Z) ∧
      t.src = { s.src with missedDumps := s.src.missedDumps + 1, discAt := some (s.src.discAt.getD s.now) } ∧
      s.OnlyParts [.objs, .core, .grp, .ph, .src, .col, .ring] t ∧ s.SameObjs [Obj.FAULT_LOST] t := by
  have hcut := s.dumpGate_cutOff
  have haway : ¬ s.dumpGate.shellUp = true := by simp [hcut.shellUp, hup]
  rw [State.dump_of_connected vbus hc hat hd, if_neg haway] at ht
  obtain ⟨hcore, hsrc, hpwm, hparts, hobjs⟩ := hcut.lossKept _ ht
  refine ⟨by rw [hcore, hcut.disc], by rw [hcore, hcut.precharge], by rw [hcore]; rfl, by rw [hcore]; rfl, hpwm, ?_, hparts, hobjs⟩
  rw [hsrc, hcut.src]
  rfl

end

/-- A threshold of 0 disables the trip (R209). -/
theorem State.dump_of_disabled {s : State} (vbus : Nat) (h : s.dumpAt = 0) : s.dump vbus = s := by
  simp [State.dump, h]

/-- What a reverse current reports before it acts as a drop (R206). -/
def State.reverseSeen (s : State) (p : Fin 16) (first : Bool) : State := if first then s.ev 6 3 1 else (s.ev 6 3 1).coreRaise 6 9 p

theorem State.reverseSeen_reports {s : State} (p : Fin 16) (first : Bool) (h : s.strat.absent = false) :
    s.Reports (s.reverseSeen p first) := by
  have hev := s.ev_reports 6 3 1
  have habsent : (s.ev 6 3 1).strat.absent = false := by rw [(hev.parts (p := 0x82010) rfl).strat rfl, h]
  exact State.Reports.ite hev (hev.trans (State.coreRaise_reports habsent _ _ _))

theorem exec_reverseCurrent {s : State} {p : Fin 16} (first : Bool) (vbus : Nat) (hp : (s.phasesOf .input).contains p.val = true)
    (hg : groupOf p.val = .input) (hd : s.core.disc = true) : exec (.reverseCurrent p first vbus) s =
      .next (s.logged fun s => ((s.reverseSeen p first).drop vbus).ev 6 3 0) := by
  have hexec : exec (.reverseCurrent p first vbus) s = execReverseCurrent p first vbus s := rfl
  rw [hexec, execReverseCurrent, hp, hg, hd]
  rfl

theorem State.reverse_reports (s : State) (p : Fin 16) (first : Bool) (vbus : Nat) :
    ((s.reverseSeen p first).drop vbus).Reports (s.logged fun s => ((s.reverseSeen p first).drop vbus).ev 6 3 0) :=
  (State.ev_reports _ 6 3 0).trans (s.logged_reports fun s => ((s.reverseSeen p first).drop vbus).ev 6 3 0)

theorem State.absent_of_shellUp {s : State} (h : s.shellUp = true) : s.strat.absent = false := by
  simp only [State.shellUp, Bool.and_eq_true, Bool.not_eq_true'] at h
  exact h.2

theorem State.connected_of_disc {s : State} (h : s.core.disc = true) : s.connected = true := by
  simp [State.connected, h]

/-- Settles O25: each command cuts the source in the core, and the shell, where it is up, adds its part of the loss; reports before and
after do not matter to it. -/
theorem dropsAndDumps : Obligations.DropsAndDumps := by
  refine ⟨fun vbus s hc hup => ?_, fun vbus s hc hup habs => ?_, fun p first vbus s hp hg hd hup => ?_,
    fun p first vbus s hp hg hd hup habs => ?_, fun vbus s hc hat hd hup => ?_, fun vbus s hc hat hd hup => ?_, fun vbus s hat => ?_⟩
  · exact ⟨_, rfl, State.drop_served (State.Reports.refl s) hc hup (s.logged_reports _)⟩
  · exact ⟨_, rfl, State.drop_kept (State.Reports.refl s) hc hup habs (s.logged_reports _)⟩
  · exact ⟨_, exec_reverseCurrent first vbus hp hg hd, State.drop_served (State.reverseSeen_reports p first (State.absent_of_shellUp hup))
      (State.connected_of_disc hd) hup (s.reverse_reports p first vbus)⟩
  · exact ⟨_, exec_reverseCurrent first vbus hp hg hd, State.drop_kept (State.reverseSeen_reports p first habs)
      (State.connected_of_disc hd) hup habs (s.reverse_reports p first vbus)⟩
  · exact ⟨_, rfl, State.dump_served hc hat hd hup (s.logged_reports _)⟩
  · exact ⟨_, rfl, State.dump_kept hc hat hd hup (s.logged_reports _)⟩
  · have hexec : exec (.loadDump vbus) s = .next (s.logged fun s => s.dump vbus) := rfl
    rw [hexec, State.logged, State.dump_of_disabled vbus hat, State.logDiff_self]

end Sys2Proof.Machine
end

section
/-!
PROOFS. The end of an input over the rail on a bus below its drop threshold: a counterexample to the statement about reconnection (O26).
-/
namespace Sys2Proof.Machine

/-- Below its drop threshold the bus drops when the input over the rail ends, and a drop keeps the source disconnected (R211): with the
shell away and the core served, DISC_GATE stays off. -/
theorem State.overRailEnd_of_busLow {s : State} {vbus : Nat} (vrail : Nat) (hover : s.core.overRail = true)
    (hlow : s.busLow vbus = true) (hdrop : s.core.dropped = false) (hdump : s.core.dumped = false) (hup : s.shellUp = false)
    (habs : s.strat.absent = false) : (s.overRailEnd vbus vrail).core.disc = false := by
  have hcut := s.dropGate_cutOff
  have haway : ¬ s.dropGate.shellUp = true := by simp [hcut.shellUp, hup]
  have habsent : ∀ src, ({ s.dropGate with src := src } : State).strat.absent = false := fun _ => by rw [hcut.parts.strat rfl, habs]
  unfold State.overRailEnd
  rw [hover, hlow, hdrop, hdump, State.drop_of_source vbus (by simp [hover, hdrop, hdump]), if_neg haway,
    State.exhaustedStratus_of_present _ (habsent _)]
  simp only [Bool.not_false, Bool.and_self, if_true]
  split
  · exact hcut.disc
  · exact hcut.disc

/-- A core without its shell, kept off for an input over the rail; the rail's setpoint is 48.0 V and the drop threshold 10.0 V. -/
def lowBus : State := { State.reset with core := { overRail := true, words := [(0, 960), (9, 200)] } }

/-- Refutes O26: its first part asks for DISC_GATE on at the end of an input over the rail, and does not exclude a bus below its drop
threshold. At 9.0 V, with a drop threshold of 10.0 V, the bus drops first, and the source stays disconnected. -/
theorem not_reconnectionAndDetach : ¬ Obligations.ReconnectionAndDetach := by
  rintro ⟨hconnect, -⟩
  have hup : lowBus.shellUp = false := by decide
  obtain ⟨t, ht, hcore, -⟩ := hconnect lowBus (.overRailReconnect 9000 0) 9000 0 (by decide) (by decide) rfl
    (.inr ⟨rfl, rfl, by decide, rfl, rfl, rfl⟩) (.inl hup)
  have hexec : exec (.overRailReconnect 9000 0) lowBus = .next (lowBus.logged fun s => s.overRailEnd 9000 0) := rfl
  rw [hexec] at ht
  cases ht
  have hon := congrArg Core.disc (hcore (.inl hup)).1
  have hoff := State.overRailEnd_of_busLow (s := lowBus) (vbus := 9000) 0 rfl (by decide) rfl rfl hup rfl
  rw [State.logged_core, hoff] at hon
  cases hon

end Sys2Proof.Machine
end

section
/-!
PROOFS. The state after reset (O1).
-/
namespace Sys2Proof.Machine

theorem State.reset_obj {k : Nat} (h : k ≠ Obj.BRINGUP_STEP) : State.reset.obj k = Dict.default k := if_neg (Ne.symm h)

/-- In power-on reset no master is served, the side-band included. -/
theorem State.reset_served (m : Master) : State.reset.served m = false := by
  cases m <;> decide

/-- Settles O1: one entry stands in the object store, and a write of an object finds no master served. -/
theorem resetState : Obligations.ResetState := by
  refine ⟨⟨by decide, rfl, rfl, nofun, rfl⟩, rfl, nofun, rfl, rfl, rfl, fun _ => State.reset_obj, fun m k d => ?_⟩
  rw [exec_objectWrite, State.logged, State.asked, State.reset_served, if_neg Bool.false_ne_true, State.logDiff_self]

end Sys2Proof.Machine
end

section
/-!
PROOFS. Wake events, attaches and Park checks (O12).
-/
namespace Sys2Proof.Machine

/-! ### A wake event by mode (R50, R53) -/

/-- Storage or Park, with nothing under way that a wake event would wait for. -/
structure Asleep (s : State) : Prop where
  mode : s.modeNow = 0 ∨ s.modeNow = 1
  bring : s.bringing = false
  por : s.aon.por = false
  check : s.mode.parkCheck = false

theorem State.inMode_asleep {s : State} (h : s.modeNow = 0 ∨ s.modeNow = 1) : s.inMode [0, 1] = true := by
  rcases h with h | h <;> simp [State.inMode, h]

theorem Asleep.wakeEvent {s : State} (h : Asleep s) (cause : Nat) : s.wakeEvent cause = s.wakeUp cause := by
  simp [State.wakeEvent, h.bring, h.por, h.check, State.inMode_asleep h.mode]

/-- During a Park check a wake event waits, and the first one keeps its cause. -/
theorem State.wakeEvent_of_parkCheck {s : State} (cause : Nat) (hm : s.modeNow = 1) (hb : s.bringing = false) (hp : s.aon.por = false)
    (hc : s.mode.parkCheck = true) :
    s.wakeEvent cause = { s with aon := { s.aon with wake := some (s.aon.wake.getD cause) } } := by
  simp [State.wakeEvent, hb, hp, hc, State.inMode_asleep (.inr hm)]

@[simp] theorem State.wakeUp_step (s : State) (cause : Nat) : (s.wakeUp cause).obj Obj.BRINGUP_STEP = 2 := State.obj_set_same _ _ _
@[simp] theorem State.wakeUp_cause (s : State) (cause : Nat) : (s.wakeUp cause).aon.bringCause = cause := rfl
@[simp] theorem State.wakeUp_kind (s : State) (cause : Nat) : (s.wakeUp cause).aon.bringKind = 1 := rfl
@[simp] theorem State.wakeUp_parkCheck (s : State) (cause : Nat) : (s.wakeUp cause).mode.parkCheck = false := rfl

theorem State.wakeUp_sameObjs (s : State) (cause : Nat) : s.SameObjs [Obj.BRINGUP_STEP] (s.wakeUp cause) := fun _ hk =>
  State.obj_set_other _ _ (by simpa using hk)

/-! ### An attach (R53, R186) -/

theorem exec_wakePin {s : State} (h : bit (s.obj Obj.WAKE_CFG) 0 = true) : exec .wakePin s = .next (s.wakeEvent 2) := by
  have hexec : exec .wakePin s = execWakePin s := rfl
  rw [hexec, execWakePin, if_pos h]

/-- What an attach does, before its events are logged. -/
def State.attachEvent (s : State) : State := if s.mode.park = 5 && bit (s.obj Obj.WAKE_CFG) 1 then s.wakeEvent 3 else s.attach

theorem exec_vbusAttach (s : State) : exec .vbusAttach s = .next (s.logged State.attachEvent) := rfl

/-- An attach makes a detach that was missed void. -/
def State.attachSeen (s : State) : State := { s with src := { s.src with missedDetach := false } }

theorem State.attach_eq (s : State) : s.attach =
    if s.attachSeen.shellUp && (!s.attachSeen.bringing || 9 ≤ s.attachSeen.obj Obj.BRINGUP_STEP) && !s.attachSeen.aon.overcast then
      if s.attachSeen.src.cls = 0 then
        ({ s.attachSeen with core := { s.attachSeen.core with dropped := false, dumped := false } } : State).classStart
      else s.attachSeen
    else if bit (s.attachSeen.obj Obj.WAKE_CFG) 1 then s.attachSeen.wakeEvent 3 else s.attachSeen := rfl

theorem Asleep.attachSeen {s : State} (h : Asleep s) : Asleep s.attachSeen := ⟨h.mode, h.bring, h.por, h.check⟩

theorem Asleep.attachEvent {s : State} (h : Asleep s) (hcfg : bit (s.obj Obj.WAKE_CFG) 1 = true) (hshell : s.aon.shell = false) :
    ∃ src, s.attachEvent = ({ s with src := src } : State).wakeUp 3 := by
  unfold State.attachEvent
  split
  · exact ⟨s.src, h.wakeEvent 3⟩
  · have hdown : s.attachSeen.shellUp = false := Bool.and_eq_false_iff.mpr (.inl hshell)
    have hwakes : bit (s.attachSeen.obj Obj.WAKE_CFG) 1 = true := hcfg
    refine ⟨s.attachSeen.src, ?_⟩
    rw [State.attach_eq, hdown, Bool.false_and, Bool.false_and, if_neg Bool.false_ne_true, if_pos hwakes, h.attachSeen.wakeEvent]
    rfl

theorem State.attachEvent_of_running {s : State} (hup : s.shellUp = true) (hb : s.bringing = false) (ho : s.aon.overcast = false)
    (hp : s.mode.park ≠ 5) (hc : s.src.cls = 0) : ∃ x : State, Fr 0x1020 s x ∧ s.attachEvent = x.classStart := by
  have hup' : s.attachSeen.shellUp = true := hup
  have hb' : s.attachSeen.bringing = false := hb
  have ho' : s.attachSeen.aon.overcast = false := ho
  have hc' : s.attachSeen.src.cls = 0 := hc
  exact ⟨{ s.attachSeen with core := { s.attachSeen.core with dropped := false, dumped := false } },
    Fr.mk_core (Fr.mk_src (Fr.refl _ s) rfl) rfl, by simp [State.attachEvent, State.attach_eq, hp, hup', hb', ho', hc']⟩

theorem State.classStart_src (s : State) : s.classStart.src.cls = 1 ∧ s.classStart.src.lastAt = s.now := by
  have hstop := fun x : State => (State.stopG_parts (p := 0xc0) .input 8 rfl (Fr.refl _ x)).src rfl
  have hnow := (State.srcState_parts (p := 0x400010) 1 rfl (Fr.refl _ s)).now rfl
  unfold State.classStart
  dsimp only
  split
  · exact ⟨rfl, hnow⟩
  · rw [hstop]
    exact ⟨rfl, hnow⟩

/-! ### Park checks (R73) -/

/-- Operations that each leave an object leave it together. -/
theorem State.obj_foldl {α : Type} {k : Nat} {f : State → α → State} {l : List α}
    (h : ∀ y, ∀ a ∈ l, (f y a).obj k = y.obj k) (s : State) : (l.foldl f s).obj k = s.obj k := by
  induction l generalizing s with
  | nil => rfl
  | cons a l ih => exact (ih (fun y b hb => h y b (.tail _ hb)) _).trans (h s a (.head _))

/-- The results are cleared and the channels of a Park check are chosen. -/
def State.parkMasks (s : State) : State := (List.range 4).foldl (fun s m => s.set (Obj.SCAN_EFFECTIVE m) (s.parkMask m)) s.noResults

theorem State.parkScan_eq (s : State) : s.parkScan =
    { (s.parkMasks.slotsStart (us 370)).set Obj.SCAN_STATE 3 with
      mode := { (s.parkMasks.slotsStart (us 370)).mode with parkCheck := true }
      meas := { (s.parkMasks.slotsStart (us 370)).meas with
        park := (s.parkMasks.slotsStart (us 370)).obj Obj.PARK_SCAN
        left := field ((s.parkMasks.slotsStart (us 370)).obj Obj.PARK_SCAN) 27 24
        gapEnd := (s.parkMasks.slotsStart (us 370)).now, done := (s.parkMasks.slotsStart (us 370)).emptyMasks } } := by
  unfold State.parkScan State.parkMasks
  with_reducible rfl

/-- PARK_SCAN lies among neither the results nor the masks. -/
theorem State.parkMasks_parkScan (s : State) : s.parkMasks.obj Obj.PARK_SCAN = s.obj Obj.PARK_SCAN := by
  have hresult : ∀ ch, Obj.PARK_SCAN ≠ Obj.RESULTS ch := fun ch => by
    unfold Obj.PARK_SCAN Obj.RESULTS
    omega
  have hmask : ∀ m ∈ List.range 4, Obj.PARK_SCAN ≠ Obj.SCAN_EFFECTIVE m := by decide
  have hresults : s.noResults.obj Obj.PARK_SCAN = s.obj Obj.PARK_SCAN :=
    State.obj_foldl (fun y ch _ => State.obj_set_other y _ (hresult ch)) s
  exact (State.obj_foldl (fun y m hm => State.obj_set_other y _ (hmask m hm)) s.noResults).trans hresults

theorem State.parkMasks_parts (s : State) : Fr 0x40010 s (s.parkMasks.slotsStart (us 370)) :=
  State.slotsStart_parts _ rfl (Fr.foldl _ (State.noResults_parts rfl (Fr.refl _ s)) fun _ _ hy => State.set_parts _ _ rfl hy)

/-- A Park check that falls due takes as many scans as PARK_SCAN asks for. -/
theorem State.parkScan_due (s : State) : s.parkScan.mode = { s.mode with parkCheck := true } ∧ s.parkScan.obj Obj.SCAN_STATE = 3 ∧
    s.parkScan.meas.left = field (s.obj Obj.PARK_SCAN) 27 24 := by
  have hscan : (s.parkMasks.slotsStart (us 370)).obj Obj.PARK_SCAN = s.parkMasks.obj Obj.PARK_SCAN :=
    State.obj_congr ((State.slotsStart_parts (p := 0x40000) _ rfl (Fr.refl _ s.parkMasks)).objs rfl) _
  have hmode := s.parkMasks_parts.mode rfl
  rw [State.parkScan_eq, ← s.parkMasks_parkScan, ← hscan, ← hmode]
  generalize s.parkMasks.slotsStart (us 370) = y
  exact ⟨rfl, y.obj_set_same Obj.SCAN_STATE 3, rfl⟩

/-- What a Park check does, before its events are logged. -/
def State.parkCheckEvent (done : Bool) (s : State) : State :=
  if s.modeNow = 1 && !s.bringing && !s.aon.por then
    if done then (if s.mode.parkCheck && s.meas.left == 0 then s.parkDecide else s) else if s.mode.parkCheck then s else s.parkScan
  else s

theorem exec_parkCheck (done : Bool) (s : State) : exec (.parkCheck done) s = .next (s.logged (State.parkCheckEvent done)) := rfl

theorem State.parkCheckEvent_due {s : State} (hm : s.modeNow = 1) (hb : s.bringing = false) (hp : s.aon.por = false)
    (hc : s.mode.parkCheck = false) : s.parkCheckEvent false = s.parkScan := by
  simp [State.parkCheckEvent, hm, hb, hp, hc]

theorem State.parkCheckEvent_done {s : State} (hm : s.modeNow = 1) (hb : s.bringing = false) (hp : s.aon.por = false)
    (hc : s.mode.parkCheck = true) (hl : s.meas.left = 0) : s.parkCheckEvent true = s.parkDecide := by
  simp [State.parkCheckEvent, hm, hb, hp, hc, hl]

/-- The end of a Park check, before the decision that follows. -/
def State.parkChecked (s : State) : State :=
  { s.parkEvaluate.parkNote.socMirror.set Obj.SCAN_STATE 0 with
    mode := { s.parkEvaluate.parkNote.socMirror.mode with parkCheck := false } }

theorem State.parkChecked_wake (s : State) : s.parkChecked.aon.wake = s.aon.wake := by
  have haon : s.parkEvaluate.parkNote.aon = s.aon :=
    (State.parkNote_parts (p := 0x214120f0) rfl (State.parkEvaluate_parts rfl (Fr.refl _ s))).aon rfl
  change s.parkEvaluate.parkNote.aon.wake = _
  rw [haon]

/-- A wake that waited for the check starts bring-up at its end. -/
theorem State.parkDecide_of_wake {s : State} {c : Nat} (h : s.aon.wake = some c) : s.parkDecide = s.parkChecked.wakeUp c := by
  have hwake : s.parkChecked.aon.wake = some c := s.parkChecked_wake.trans h
  unfold State.parkDecide
  dsimp only
  split
  next hc =>
    cases hc.symm.trans hwake
    rfl
  next hnone => cases hnone.symm.trans hwake

/-- Settles O12: asleep, a wake event is a wake-up with its cause; an attach that finds the shell running starts a classification; a Park
check is a scan that ends in a decision, where a waiting wake comes first. -/
theorem wakeEventsStartBringUp : Obligations.WakeEventsStartBringUp := by
  refine ⟨fun s hm hb hp hc => ⟨fun hpin => ?_, fun hcfg hshell => ?_⟩, fun s hm hb hp hc hpin => ?_, fun s hup hb ho hp hc => ?_,
    fun s hm hb hp hc => ?_, fun s c hm hb hp hc hl hw => ?_⟩
  · refine ⟨_, exec_wakePin hpin, ?_⟩
    rw [Asleep.wakeEvent ⟨hm, hb, hp, hc⟩]
    have hparts : Fr 0x4000000910 s (s.wakeUp 2) := State.wakeUp_parts 2 rfl (Fr.refl _ s)
    exact ⟨s.wakeUp_step 2, rfl, rfl, hparts.only (by decide), s.wakeUp_sameObjs 2⟩
  · obtain ⟨src, hwake⟩ := Asleep.attachEvent ⟨hm, hb, hp, hc⟩ hcfg hshell
    have hparts : Fr 0x4000001910 s s.attachEvent := hwake ▸ State.wakeUp_parts 3 rfl (Fr.mk_src (Fr.refl _ s) rfl)
    refine ⟨_, exec_vbusAttach s, ?_⟩
    rw [State.logged_of_parts hparts rfl rfl rfl rfl, hwake]
    exact ⟨State.wakeUp_step _ 3, rfl, rfl, hwake ▸ hparts.only (by decide),
      fun k hk => State.wakeUp_sameObjs _ 3 k fun h => hk (List.mem_append_left [Obj.FAULT_LOST] h)⟩
  · exact (exec_wakePin hpin).trans (congrArg _ (State.wakeEvent_of_parkCheck 2 hm hb hp hc))
  · obtain ⟨x, hx, hstart⟩ := State.attachEvent_of_running hup hb ho hp hc
    obtain ⟨hcls, hlast⟩ := x.classStart_src
    have hparts : Fr 0x4810f0 s (s.logged State.attachEvent) :=
      State.logDiff_parts s rfl (hstart ▸ State.classStart_parts rfl ((Fr.refl _ s).upd hx rfl))
    refine ⟨_, exec_vbusAttach s, ?_, ?_, hparts.only (by decide)⟩
    · rw [State.logged_src, hstart, hcls]
    · rw [State.logged_src, hstart, hlast, hx.now rfl]
  · have hparts : Fr 0x40810 s (s.parkCheckEvent false) := by
      rw [State.parkCheckEvent_due hm hb hp hc]
      exact State.parkScan_parts rfl (Fr.refl _ s)
    refine ⟨_, exec_parkCheck false s, ?_⟩
    rw [State.logged_of_parts (f := State.parkCheckEvent false) hparts rfl rfl rfl rfl]
    rw [State.parkCheckEvent_due hm hb hp hc] at hparts ⊢
    obtain ⟨hmode, hstate, hleft⟩ := s.parkScan_due
    exact ⟨hmode, hstate, hleft, hparts.only (by decide)⟩
  · refine ⟨_, exec_parkCheck true s, (execParkCheck_parts true (exec_parkCheck true s)).only (by decide), ?_⟩
    rw [State.logged_obj _ _ (by decide), State.logged_aon, State.logged_mode, State.parkCheckEvent_done hm hb hp hc hl,
      State.parkDecide_of_wake hw]
    exact ⟨State.wakeUp_step _ c, rfl, rfl⟩

end Sys2Proof.Machine
end

section
/-!
PROOFS. Requests of modes and their resolution (O13).
-/
namespace Sys2Proof.Machine

/-! ### Acting on the target in Idle and Play (R62, R63, R64) -/

/-- In Idle or Play, with the shell up and no bring-up under way. -/
structure TargetReady (s : State) : Prop where
  up : s.shellUp = true
  bring : s.bringing = false
  mode : s.modeNow = 2 ∨ s.modeNow = 3

theorem State.inMode_idlePlay {s : State} (h : s.inMode [2, 3] = true) : s.modeNow = 2 ∨ s.modeNow = 3 := by
  simpa [State.inMode] using h

/-- All that acting on the target can do in Idle and Play. -/
inductive TargetStep (s : State) : State → Prop
  | stay : TargetStep s s
  | store : TargetStep s { s with mode := { s.mode with stored := true } }
  | park : TargetStep s (s.parkStart 1)
  | abort : TargetStep s s.parkAbort
  | play : TargetStep s (s.parkAbort.setMode 3 1)
  | service {x : State} (h : x = s ∨ x = s.parkAbort) : TargetStep s (x.toService 1)
  | idle : TargetStep s (s.setMode 2 1)
  | idlePark : TargetStep s ((s.setMode 2 1).parkStart 1)

theorem State.actIdle_step (s : State) (t : Nat) : TargetStep s (s.actIdle t 1) := by
  unfold State.actIdle
  dsimp only
  split_ifs
  · exact .park
  · exact .stay
  · exact .play
  · exact .service (.inr rfl)
  · exact .abort

theorem TargetReady.act {s : State} (h : TargetReady s) : TargetStep s s.act := by
  unfold State.act
  dsimp only
  split
  · exact .store
  split
  · exact .stay
  split
  · exact .stay
  split
  · exact .stay
  rcases h.mode with hm | hm
  · rw [hm]
    exact s.actIdle_step _
  · rw [hm]
    simp only [Nat.reduceEqDiff, if_false, if_true]
    split_ifs
    · exact .stay
    · exact .service (.inl rfl)
    · exact .idlePark
    · exact .idle

/-- What acting on the target leaves in Idle and Play: the server's answer, the leases, and in area 0x01 all but the mode with its
predecessor and its cause. -/
structure TargetActed (s x : State) : Prop where
  srv : x.srv = s.srv
  leaseH : x.mode.leaseH = s.mode.leaseH
  leaseF : x.mode.leaseF = s.mode.leaseF
  objs : ∀ k, k / 65536 = 1 → k ∉ [Obj.MODE_STATE, Obj.MODE_PREV, Obj.MODE_CAUSE] → x.obj k = s.obj k

namespace TargetActed

theorem refl (s : State) : TargetActed s s := ⟨rfl, rfl, rfl, fun _ _ _ => rfl⟩

theorem trans {s x y : State} (h : TargetActed s x) (k : TargetActed x y) : TargetActed s y :=
  ⟨k.srv.trans h.srv, k.leaseH.trans h.leaseH, k.leaseF.trans h.leaseF, fun j hj hn => (k.objs j hj hn).trans (h.objs j hj hn)⟩

/-- An operation outside the server, the mode logic and the objects of the mode. -/
theorem of_parts {p : Nat} {s x : State} (h : Fr p s x) (hm : p.testBit 11 = false) (hs : p.testBit 35 = false)
    (ho : ∀ k, k / 65536 = 1 → k ∉ [Obj.MODE_STATE, Obj.MODE_PREV, Obj.MODE_CAUSE] → x.obj k = s.obj k) : TargetActed s x :=
  ⟨h.srv hs, by rw [h.mode hm], by rw [h.mode hm], ho⟩

theorem of_mk {p : Nat} {s x : State} (h : Fr p s x) (hm : p.testBit 11 = false) (hs : p.testBit 35 = false) (ho : Mk s x) :
    TargetActed s x := of_parts h hm hs fun k hk _ => ho k hk

theorem ite {s a b : State} {c : Prop} [Decidable c] (ha : TargetActed s a) (hb : TargetActed s b) :
    TargetActed s (if c then a else b) := by
  split <;> assumption

end TargetActed

theorem State.setMode_acted (s : State) (next cause : Nat) : TargetActed s (s.setMode next cause) :=
  .of_parts (p := 0x20204020f0) (State.setMode_parts _ _ rfl (Fr.refl _ s)) rfl rfl fun k hk hne => by
    simp only [List.mem_cons, List.not_mem_nil, or_false, not_or] at hne
    rw [State.setMode_obj _ _ _ _ hk, if_neg hne.2.2, if_neg hne.1, if_neg hne.2.1]

theorem State.linkLeave_acted (s : State) (p : Port) : TargetActed s (s.linkLeave p) :=
  .of_mk (p := 0xd00120f0) (State.linkLeave_parts p rfl (Fr.refl _ s)) rfl rfl (State.linkLeave_mk p (Mk.refl s))

theorem State.toService_acted (s : State) (cause : Nat) : TargetActed s (s.toService cause) :=
  ((s.setMode_acted 5 cause).trans (State.linkLeave_acted _ .east)).trans (State.linkLeave_acted _ .west)

theorem State.chgEnter_acted (s : State) (n step : Nat) : TargetActed s ((s.chgEnter n step).writeChg 0) :=
  .of_mk (p := 0x200020f0) (State.writeChg_parts 0 rfl (State.chgEnter_parts n step rfl (Fr.refl _ s))) rfl rfl
    (State.writeChg_mk 0 (State.chgEnter_mk n step (Mk.refl s)))

theorem State.probeAbandon_acted (s : State) : TargetActed s s.probeAbandon :=
  .of_mk (p := 0x400010) (State.probeAbandon_parts rfl (Fr.refl _ s)) rfl rfl (State.probeAbandon_mk (Mk.refl s))

theorem State.parkStart_acted (s : State) (cause : Nat) : TargetActed s (s.parkStart cause) := by
  have hstage : TargetActed s { s with mode := { s.mode with park := 1, parkCause := cause } } := ⟨rfl, rfl, rfl, fun _ _ _ => rfl⟩
  have hcharger := TargetActed.ite (c := 3 ≤ s.obj Obj.CHG_STATE && s.obj Obj.CHG_STATE ≤ 6)
    (hstage.trans (State.chgEnter_acted _ 2 0)) hstage
  exact ((hcharger.trans (State.linkLeave_acted _ .east)).trans (State.linkLeave_acted _ .west)).trans (State.probeAbandon_acted _)

theorem State.epochDiscard_acted (s : State) : TargetActed s s.epochDiscard :=
  .of_mk (p := 0x402010) (State.epochDiscard_parts rfl (Fr.refl _ s)) rfl rfl (State.epochDiscard_mk (Mk.refl s))

theorem State.parkAbort_acted (s : State) : TargetActed s s.parkAbort :=
  .ite (.refl s) (TargetActed.trans (x := { s with mode := { s.mode with park := 0, parkEpochDone := false, parkRestart := false } })
    ⟨rfl, rfl, rfl, fun _ _ _ => rfl⟩ (State.epochDiscard_acted _))

theorem TargetStep.acted {s x : State} (h : TargetStep s x) : TargetActed s x := by
  cases h with
  | stay => exact .refl s
  | store => exact ⟨rfl, rfl, rfl, fun _ _ _ => rfl⟩
  | park => exact s.parkStart_acted 1
  | abort => exact s.parkAbort_acted
  | play => exact s.parkAbort_acted.trans (State.setMode_acted _ 3 1)
  | service hx =>
    rcases hx with rfl | rfl
    · exact State.toService_acted _ 1
    · exact s.parkAbort_acted.trans (State.toService_acted _ 1)
  | idle => exact s.setMode_acted 2 1
  | idlePark => exact (s.setMode_acted 2 1).trans (State.parkStart_acted _ 1)

/-- The mode stands, or MODE_PREV keeps it, or Idle is entered. -/
def State.ModeFollows (s x : State) : Prop := x.modeNow = s.modeNow ∨ x.obj Obj.MODE_PREV = s.modeNow ∨ x.modeNow = 2

theorem State.setMode_prev (s : State) (next cause : Nat) : (s.setMode next cause).obj Obj.MODE_PREV = s.modeNow :=
  s.setMode_obj next cause _ (by decide)
theorem State.setMode_modeNow (s : State) (next cause : Nat) : (s.setMode next cause).modeNow = next :=
  s.setMode_obj next cause _ (by decide)

theorem State.toService_prev (s : State) (cause : Nat) : (s.toService cause).obj Obj.MODE_PREV = s.modeNow :=
  (State.linkLeave_mk .west (State.linkLeave_mk .east (Mk.refl _)) _ (by decide)).trans (s.setMode_prev 5 cause)

theorem Mk.modeNow {s x : State} (h : Mk s x) : x.modeNow = s.modeNow := h _ (by decide)

theorem TargetStep.modeFollows {s x : State} (h : TargetStep s x) : s.ModeFollows x := by
  have habort : s.parkAbort.modeNow = s.modeNow := (State.parkAbort_mk (Mk.refl s)).modeNow
  cases h with
  | stay => exact .inl rfl
  | store => exact .inl rfl
  | park => exact .inl (State.parkStart_mk 1 (Mk.refl s)).modeNow
  | abort => exact .inl habort
  | play => exact .inr (.inl ((State.setMode_prev _ 3 1).trans habort))
  | service hx =>
    rcases hx with rfl | rfl
    · exact .inr (.inl (State.toService_prev _ 1))
    · exact .inr (.inl ((State.toService_prev _ 1).trans habort))
  | idle => exact .inr (.inr (s.setMode_modeNow 2 1))
  | idlePark => exact .inr (.inr ((State.parkStart_mk 1 (Mk.refl _)).modeNow.trans (s.setMode_modeNow 2 1)))

/-! ### The resolution (R57, R87) -/

/-- The slots that a resolution compares. -/
def requestSlots : List Nat := [Obj.MODE_REQ_H, Obj.MODE_REQ_S, Obj.MODE_REQ_T, Obj.MODE_REQ_F]

theorem requestSlots_area : ∀ k ∈ requestSlots, k / 65536 = 1 := by decide

theorem State.resolved_congr {s x : State} (h : ∀ k ∈ requestSlots, x.obj k = s.obj k) : x.resolved = s.resolved := by
  unfold State.resolved
  rw [h Obj.MODE_REQ_H (by decide), h Obj.MODE_REQ_S (by decide), h Obj.MODE_REQ_T (by decide), h Obj.MODE_REQ_F (by decide)]

/-- MODE_TARGET is the slot of highest precedence, and what stands besides as after acting on it. -/
structure TargetResolved (s x : State) : Prop where
  target : x.obj Obj.MODE_TARGET = s.resolved
  srv : x.srv = s.srv
  leaseH : x.mode.leaseH = s.mode.leaseH
  leaseF : x.mode.leaseF = s.mode.leaseF
  objs : ∀ k, k / 65536 = 1 → k ∉ [Obj.MODE_TARGET, Obj.MODE_STATE, Obj.MODE_PREV, Obj.MODE_CAUSE] → x.obj k = s.obj k
  mode : s.ModeFollows x

theorem TargetResolved.slots {s x : State} (h : TargetResolved s x) : x.obj Obj.MODE_TARGET = x.resolved := by
  rw [h.target, State.resolved_congr fun k hk => h.objs k ?_ ?_]
  · revert k
    decide
  · revert k
    decide

theorem TargetResolved.of_reports {s x t : State} (h : TargetResolved s x) (ht : x.Reports t) : TargetResolved s t where
  target := (ht.obj (by decide)).trans h.target
  srv := ((ht.parts (p := 0x82010) rfl).srv rfl).trans h.srv
  leaseH := by rw [(ht.parts (p := 0x82010) rfl).mode rfl, h.leaseH]
  leaseF := by rw [(ht.parts (p := 0x82010) rfl).mode rfl, h.leaseF]
  objs k hk hne := (ht.obj fun e => by rw [e] at hk; exact absurd hk (by decide)).trans (h.objs k hk hne)
  mode := by
    have hmode : t.modeNow = x.modeNow := ht.obj (by decide)
    rw [State.ModeFollows, hmode, ht.obj (by decide)]
    exact h.mode

/-- The state in which a changed target is acted on (R57, R767). -/
def State.retargeted (s : State) : State :=
  { s with mode := { s.mode with serviceStay := false } }.set Obj.MODE_TARGET s.resolved

theorem State.resolve_of_changed {s : State} (h : s.resolved ≠ s.obj Obj.MODE_TARGET) : s.resolve = s.retargeted.act := if_neg h

theorem State.retargeted_obj (s : State) {k : Nat} (h : k ≠ Obj.MODE_TARGET) : s.retargeted.obj k = s.obj k := State.obj_set_other _ _ h

theorem TargetReady.retargeted {s : State} (h : TargetReady s) : TargetReady s.retargeted where
  up := h.up
  bring := by
    rw [State.bringing, s.retargeted_obj (by decide)]
    exact h.bring
  mode := by
    rw [State.modeNow, s.retargeted_obj (by decide)]
    exact h.mode

theorem TargetReady.resolve {s : State} (h : TargetReady s) : TargetResolved s s.resolve := by
  by_cases hsame : s.resolved = s.obj Obj.MODE_TARGET
  · have heq : s.resolve = s := if_pos hsame
    rw [heq]
    exact ⟨hsame.symm, rfl, rfl, rfl, fun _ _ _ => rfl, .inl rfl⟩
  · have hacted := h.retargeted.act.acted
    have hfollows := h.retargeted.act.modeFollows
    have hmode : s.retargeted.modeNow = s.modeNow := s.retargeted_obj (by decide)
    rw [State.resolve_of_changed hsame]
    refine ⟨(hacted.objs _ (by decide) (by decide)).trans (State.obj_set_same _ _ _), hacted.srv, hacted.leaseH, hacted.leaseF,
      fun k hk hne => ?_, ?_⟩
    · rw [List.mem_cons, not_or] at hne
      exact (hacted.objs k hk hne.2).trans (s.retargeted_obj hne.1)
    · rw [State.ModeFollows, hmode] at hfollows
      exact hfollows

/-- A side-band's wake that comes after the groups have stopped waits (R72); no other does anything. -/
theorem TargetReady.wakeEvent {s : State} (h : TargetReady s) (cause : Nat) :
    ∃ wake, s.wakeEvent cause = { s with aon := { s.aon with wake := wake } } := by
  have hawake : s.inMode [0, 1] = false := by
    rcases h.mode with hm | hm <;> simp [State.inMode, hm]
  unfold State.wakeEvent
  dsimp only
  rw [hawake, if_neg Bool.false_ne_true]
  split
  · exact ⟨s.aon.wake, rfl⟩
  · split
    · exact ⟨some (s.aon.wake.getD cause), rfl⟩
    · exact ⟨s.aon.wake, rfl⟩

/-- The resolution after writes of slots. -/
theorem TargetReady.modeReqAct_eq {s : State} (h : TargetReady s) (side : Option Nat) :
    ∃ wake, s.modeReqAct side = ({ s with aon := { s.aon with wake := wake } } : State).resolve := by
  unfold State.modeReqAct
  dsimp only
  rw [if_pos h.up]
  split
  · obtain ⟨wake, hwake⟩ := h.wakeEvent 1
    exact ⟨wake, by rw [hwake]⟩
  · exact ⟨s.aon.wake, rfl⟩

theorem TargetReady.modeReqAct {s : State} (h : TargetReady s) (side : Option Nat) : TargetResolved s (s.modeReqAct side) := by
  obtain ⟨wake, heq⟩ := h.modeReqAct_eq side
  have hready : TargetReady { s with aon := { s.aon with wake := wake } } := ⟨h.up, h.bring, h.mode⟩
  obtain ⟨htarget, hsrv, hleaseH, hleaseF, hobjs, hmode⟩ := hready.resolve
  rw [heq]
  exact ⟨htarget, hsrv, hleaseH, hleaseF, hobjs, hmode⟩

/-! ### A write of a slot (R56, R596) -/

/-- The key of a master's slot. -/
def slotKey (m : Master) : Nat := 0x0101 * 256 + m.code

theorem slotKey_area (m : Master) : slotKey m / 65536 = 1 := by cases m <;> rfl
theorem slotKey_inj {m n : Master} (h : slotKey m = slotKey n) : m = n := by
  cases m <;> cases n <;> simp [slotKey, Master.code] at h ⊢
theorem slotKey_ne_checkin (m : Master) : (slotKey m == Obj.WD_CHECKIN) = false := by cases m <;> rfl
theorem slotKey_fresh (m : Master) : slotKey m ∉ [Obj.MODE_TARGET, Obj.MODE_STATE, Obj.MODE_PREV, Obj.MODE_CAUSE] := by
  cases m <;> decide

/-- A slot's write, accepted and answered. -/
def State.slotTaken (s : State) (m : Master) (v : Nat) : State := (s.modeReqSlot m.code v).answerWith m (slotKey m) 0 []

theorem State.slotWrite_of_accepted {s : State} {m : Master} {v : Nat} (hs : s.served m = true)
    (hc : s.writeCode m (slotKey m) (leBytes 1 v) = 0) : s.slotWrite m v = (true, s.slotTaken m v) := by
  rw [slotKey] at hc
  simp [State.slotWrite, hs, hc, State.slotTaken, slotKey]

theorem State.slotTaken_code (s : State) (m : Master) (v : Nat) : (s.slotTaken m v).srv.code = 0 := State.answerWith_code _ _ _ _ _

/-- In the area of modes an accepted write changes its slot. -/
theorem State.slotTaken_obj (s : State) (m : Master) (v : Nat) {k : Nat} (hk : k / 65536 = 1) :
    (s.slotTaken m v).obj k = if k = slotKey m then v else s.obj k :=
  (State.answerWith_mk m _ 0 [] (Mk.refl _) k hk).trans (State.obj_set s (slotKey m) v k)

/-- Outside it an accepted write changes at most the counters of the answer. -/
theorem State.slotTaken_other (s : State) (m : Master) (v : Nat) {k : Nat} (hk : k / 65536 ≠ 1) (ha : k ∉ answerObjs) :
    (s.slotTaken m v).obj k = s.obj k :=
  (State.answerWith_sameObjs _ m _ 0 [] k ha).trans (State.obj_set_other s v fun e => hk (e ▸ slotKey_area m))

theorem State.slotTaken_parts (s : State) (m : Master) (v : Nat) : Fr 0x800000810 s (s.slotTaken m v) :=
  State.answerWith_parts _ _ _ _ rfl (State.modeReqSlot_parts _ _ rfl (Fr.refl _ s))

theorem State.slotTaken_park (s : State) (m : Master) (v : Nat) : (s.slotTaken m v).mode.park = s.mode.park := by
  rw [State.slotTaken, (State.answerWith_parts (p := 0x800000010) m _ 0 [] rfl (Fr.refl _ _)).mode rfl]
  rfl

theorem State.slotTaken_variant (s : State) (m : Master) (v : Nat) : (s.slotTaken m v).variant = s.variant := by
  rw [State.variant, s.slotTaken_other m v (by decide) (by decide), State.variant]

theorem State.slotTaken_mode (s : State) (m : Master) (v : Nat) : (s.slotTaken m v).modeNow = s.modeNow := by
  rw [State.modeNow, s.slotTaken_obj m v (by decide), if_neg (by cases m <;> decide), State.modeNow]

theorem State.slotTaken_bringing (s : State) (m : Master) (v : Nat) : (s.slotTaken m v).bringing = s.bringing := by
  rw [State.bringing, s.slotTaken_obj m v (by decide), if_neg (by cases m <;> decide), State.bringing]

theorem State.slotTaken_shellUp (s : State) (m : Master) (v : Nat) : (s.slotTaken m v).shellUp = s.shellUp := by
  rw [State.shellUp, (s.slotTaken_parts m v).aon rfl, (s.slotTaken_parts m v).strat rfl, State.shellUp]

theorem TargetReady.slotTaken {s : State} (h : TargetReady s) (m : Master) (v : Nat) : TargetReady (s.slotTaken m v) where
  up := (s.slotTaken_shellUp m v).trans h.up
  bring := (s.slotTaken_bringing m v).trans h.bring
  mode := by
    rw [s.slotTaken_mode m v]
    exact h.mode

theorem State.slotTaken_step (s : State) (m : Master) (v : Nat) : (s.slotTaken m v).obj Obj.BRINGUP_STEP = s.obj Obj.BRINGUP_STEP := by
  rw [s.slotTaken_obj m v (by decide), if_neg (by cases m <;> decide)]

theorem State.slotTaken_serving (s : State) (m : Master) (v : Nat) : (s.slotTaken m v).serving = s.serving := by
  rw [State.serving, (s.slotTaken_parts m v).aon rfl, (s.slotTaken_parts m v).strat rfl, s.slotTaken_bringing, s.slotTaken_step,
    State.serving]

theorem State.slotTaken_served (s : State) (m n : Master) (v : Nat) : (s.slotTaken m v).served n = s.served n := by
  have haon := (s.slotTaken_parts m v).aon rfl
  cases n <;> simp only [State.served, haon, s.slotTaken_serving, s.slotTaken_bringing, s.slotTaken_mode, s.slotTaken_variant]

/-! ### The checks of a slot's write -/

section
variable {s x : State}

theorem State.row?_congr (h : x.variant = s.variant) (k : Nat) : x.row? k = s.row? k := by
  rw [State.row?, h, State.row?]

theorem State.keyType_congr (h : x.variant = s.variant) (k : Nat) : x.keyType k = s.keyType k := by
  have hcount : x.isCount k = s.isCount k := by
    rw [State.isCount, State.row?_congr h, State.subs, h, State.isCount, State.subs]
  rw [State.keyType, State.row?_congr h, hcount, State.keyType]

theorem State.mayWrite_slot (h : x.variant = s.variant) (m : Master) (v : Nat) :
    x.mayWrite m (slotKey m) v = s.mayWrite m (slotKey m) v := by
  rw [State.mayWrite, State.row?_congr h, slotKey_ne_checkin]
  simp only [Bool.false_and, State.mayWrite, slotKey_ne_checkin]

/-- No state refuses a slot's write (R592, R765), and no lock keeps one out (R602). -/
theorem State.wrongState_slot (s : State) (m : Master) (v : Nat) : s.wrongState (slotKey m) v = false := by
  cases m <;> simp [State.wrongState, slotKey, Master.code, overcastWrite]

theorem State.lockedOut_slot (s : State) (m n : Master) (v : Nat) : s.lockedOut n (slotKey m) v = false := by
  cases m <;> simp [State.lockedOut, slotKey, Master.code]

theorem State.valueOk_slot (s : State) (m n : Master) (v : Nat) : s.valueOk n (slotKey m) v = s.modeAllowed n v := by
  cases m <;> simp [State.valueOk, slotKey, Master.code]

/-- The code of a slot's write rests on the variant and on who is served. -/
theorem State.writeCode_slot (hvar : x.variant = s.variant) (hserv : x.serving = s.serving) (m : Master) (v : Nat) :
    x.writeCode m (slotKey m) (leBytes 1 v) = s.writeCode m (slotKey m) (leBytes 1 v) := by
  have hlevel : needsLevel (slotKey m) = false := by cases m <;> rfl
  have hallowed : ∀ v, x.modeAllowed m v = s.modeAllowed m v := fun v => by rw [State.modeAllowed, hvar, State.modeAllowed]
  simp only [State.writeCode, State.writeCodeA, State.keyType_congr hvar, State.row?_congr hvar, State.mayWrite_slot hvar, hserv, hlevel,
    slotKey_ne_checkin,    State.wrongState_slot, State.lockedOut_slot, State.valueOk_slot, hallowed, Bool.false_and]

end

theorem State.slotTaken_writeCode (s : State) (m n : Master) (v w : Nat) :
    (s.slotTaken m v).writeCode n (slotKey n) (leBytes 1 w) = s.writeCode n (slotKey n) (leBytes 1 w) :=
  State.writeCode_slot (s.slotTaken_variant m v) (s.slotTaken_serving m v) n w

/-! ### The commands -/

/-- What a write of slots does, before its events are logged. -/
def State.modeReqEvent (m : Master) (v : Nat) (others : List (Master × Nat)) (s : State) : State :=
  (s.slotWrites (others ++ [(m, v)])).2.modeReqAct (s.slotWrites (others ++ [(m, v)])).1

theorem exec_modeReqWrite (m : Master) (v : Nat) (others : List (Master × Nat)) (s : State) :
    exec (.modeReqWrite m v others) s = .next (s.logged (State.modeReqEvent m v others)) := rfl

theorem State.modeReqEvent_parts (s : State) (m : Master) (v : Nat) (others : List (Master × Nat)) :
    Fr 0x79f04dbdf0 s (s.logged (State.modeReqEvent m v others)) :=
  execModeReqWrite_parts m v others (exec_modeReqWrite m v others s)

theorem State.slotWrites_one {s : State} {m : Master} {v : Nat} (hs : s.served m = true)
    (hc : s.writeCode m (slotKey m) (leBytes 1 v) = 0) : (s.slotWrites [(m, v)]).2 = s.slotTaken m v := by
  rw [State.slotWrites, List.foldl_cons, List.foldl_nil, State.slotWrite_of_accepted hs hc]

/-- The second write meets the checks that it met before the first one. -/
theorem State.slotWrites_two {s : State} {m n : Master} {v w : Nat} (hsm : s.served m = true) (hsn : s.served n = true)
    (hcm : s.writeCode m (slotKey m) (leBytes 1 v) = 0) (hcn : s.writeCode n (slotKey n) (leBytes 1 w) = 0) :
    (s.slotWrites [(n, w), (m, v)]).2 = (s.slotTaken n w).slotTaken m v := by
  have hs := (s.slotTaken_served n m w).trans hsm
  have hc := (s.slotTaken_writeCode n m w v).trans hcm
  rw [State.slotWrites, List.foldl_cons, List.foldl_cons, List.foldl_nil, State.slotWrite_of_accepted hsn hcn,
    State.slotWrite_of_accepted hs hc]

/-- Once the slots are written, one resolution follows (R87). -/
theorem TargetReady.modeReqEvent {s y : State} {m : Master} {v : Nat} {others : List (Master × Nat)}
    (hy : (s.slotWrites (others ++ [(m, v)])).2 = y) (h : TargetReady y) :
    TargetResolved y (s.logged (State.modeReqEvent m v others)) := by
  subst hy
  exact (h.modeReqAct _).of_reports (s.logged_reports (State.modeReqEvent m v others))

/-! ### Play out of Idle -/

/-- Idle, with nothing that holds the target off, and another target than Play until now. -/
structure PlayReady (s : State) : Prop where
  ready : TargetReady s
  idle : s.modeNow = 2
  overcast : s.aon.overcast = false
  tsd : s.obj Obj.TSD_STATE = 0
  park : s.mode.park ≠ 5
  resolved : s.resolved = 3
  target : s.obj Obj.MODE_TARGET ≠ 3

theorem PlayReady.resolve {s : State} (h : PlayReady s) : s.resolve = s.retargeted.parkAbort.setMode 3 1 := by
  have hmode : s.retargeted.modeNow = 2 := (s.retargeted_obj (by decide)).trans h.idle
  have htsd : s.retargeted.obj Obj.TSD_STATE = 0 := (s.retargeted_obj (by decide)).trans h.tsd
  have htarget : s.retargeted.obj Obj.MODE_TARGET = 3 := (State.obj_set_same _ _ _).trans h.resolved
  have hbring := h.ready.retargeted.bring
  have hover : s.retargeted.aon.overcast = false := h.overcast
  have hpark : s.retargeted.mode.park ≠ 5 := h.park
  rw [State.resolve_of_changed (by rw [h.resolved]; exact h.target.symm)]
  simp [State.act, State.actIdle, hmode, htsd, htarget, hbring, hover, hpark]

/-- Where no Park entry has stopped the groups, nothing comes before the resolution. -/
theorem PlayReady.modeReqAct {s : State} (h : PlayReady s) (side : Option Nat) : s.modeReqAct side = s.resolve := by
  simp [State.modeReqAct, h.ready.up, h.park]

theorem PlayReady.modeReqAct_obj {s : State} (h : PlayReady s) (side : Option Nat) : (s.modeReqAct side).obj Obj.MODE_STATE = 3 ∧
    (s.modeReqAct side).obj Obj.MODE_PREV = 2 ∧ (s.modeReqAct side).obj Obj.MODE_CAUSE = 1 := by
  have hmode : s.retargeted.parkAbort.modeNow = 2 :=
    (State.parkAbort_mk (Mk.refl _)).modeNow.trans ((s.retargeted_obj (by decide)).trans h.idle)
  rw [h.modeReqAct, h.resolve, State.setMode_prev, hmode]
  exact ⟨State.setMode_modeNow _ 3 1, rfl, State.setMode_obj _ 3 1 _ (by decide)⟩

/-- A write of Play that wins the resolution leaves the readiness. -/
theorem PlayReady.slotTaken {s : State} {m : Master} (h : TargetReady s) (hm : s.modeNow = 2) (ho : s.aon.overcast = false)
    (ht : s.obj Obj.TSD_STATE = 0) (hp : s.mode.park ≠ 5) (hr : (s.set (slotKey m) 3).resolved = 3)
    (htarget : s.obj Obj.MODE_TARGET ≠ 3) : PlayReady (s.slotTaken m 3) where
  ready := h.slotTaken m 3
  idle := (s.slotTaken_mode m 3).trans hm
  overcast := by rw [(s.slotTaken_parts m 3).aon rfl, ho]
  tsd := (s.slotTaken_other m 3 (by decide) (by decide)).trans ht
  park := by rwa [s.slotTaken_park]
  resolved := (State.resolved_congr fun k hk =>
    (s.slotTaken_obj m 3 (requestSlots_area k hk)).trans (s.obj_set (slotKey m) 3 k).symm).trans hr
  target := by rwa [s.slotTaken_obj m 3 (by decide), if_neg (by cases m <;> decide)]

/-! ### Leases (R58) and re-evaluations (R62) -/

/-- H's slot after its lease. -/
def State.lapsedH (s : State) : State := { (s.set Obj.MODE_REQ_H 0xFF) with mode := { s.mode with leaseH := false } }
/-- F's slot after its lease. -/
def State.lapsedF (s : State) : State := { (s.set Obj.MODE_REQ_F 0xFF) with mode := { s.mode with leaseF := false } }

theorem State.lapsedH_obj (s : State) (k : Nat) : s.lapsedH.obj k = if k = Obj.MODE_REQ_H then 0xFF else s.obj k :=
  (State.obj_congr (s := s.set Obj.MODE_REQ_H 0xFF) rfl k).trans (s.obj_set _ _ _)
theorem State.lapsedF_obj (s : State) (k : Nat) : s.lapsedF.obj k = if k = Obj.MODE_REQ_F then 0xFF else s.obj k :=
  (State.obj_congr (s := s.set Obj.MODE_REQ_F 0xFF) rfl k).trans (s.obj_set _ _ _)

theorem exec_modeLeaseExpiry {s : State} (m : Master) (h : s.shellUp = true) :
    exec (.modeLeaseExpiry m) s = .next (s.logged fun s => s.leaseEnd m) := by
  have hexec : exec (.modeLeaseExpiry m) s = execModeLeaseExpiry m s := rfl
  rw [hexec, execModeLeaseExpiry, if_pos h]

theorem exec_modeTargetReevaluation {s : State} (h : s.shellUp = true) :
    exec .modeTargetReevaluation s = .next (s.logged State.resolve) := by
  have hexec : exec .modeTargetReevaluation s = execModeTargetReevaluation s := rfl
  rw [hexec, execModeTargetReevaluation, if_pos h]

theorem State.leaseEnd_H {s : State} (h : s.mode.leaseH = true) (hn : s.obj Obj.MODE_LEASE_H ≠ 0) :
    s.leaseEnd .H = s.lapsedH.resolve := by
  simp [State.leaseEnd, State.lapsedH, h, hn]

theorem State.leaseEnd_F {s : State} (h : s.mode.leaseF = true) (hn : s.obj Obj.MODE_LEASE_F ≠ 0) :
    s.leaseEnd .F = s.lapsedF.resolve := by
  simp [State.leaseEnd, State.lapsedF, h, hn]

/-- A state that differs in objects and in the mode logic is as ready, where the mode and the step of bring-up stand. -/
theorem TargetReady.congr {s x : State} (h : TargetReady s) (ha : x.aon = s.aon) (hst : x.strat = s.strat)
    (hm : x.obj Obj.MODE_STATE = s.obj Obj.MODE_STATE) (hb : x.obj Obj.BRINGUP_STEP = s.obj Obj.BRINGUP_STEP) : TargetReady x where
  up := by rw [State.shellUp, ha, hst, ← State.shellUp, h.up]
  bring := by rw [State.bringing, hb, ← State.bringing, h.bring]
  mode := by
    rw [State.modeNow, hm]
    exact h.mode

/-- The end of a lease is the resolution that follows. -/
theorem TargetReady.modeLeaseExpiry {s y : State} {m : Master} (h : TargetReady y) (hup : s.shellUp = true)
    (heq : s.leaseEnd m = y.resolve) :
    ∃ t, exec (.modeLeaseExpiry m) s = .next t ∧ Fr 0x39f04dbdf0 s t ∧ TargetResolved y t :=
  ⟨_, exec_modeLeaseExpiry m hup, execModeLeaseExpiry_parts m (exec_modeLeaseExpiry m hup),
    h.resolve.of_reports (heq ▸ s.logged_reports fun s => s.leaseEnd m)⟩

/-- Settles O13: an accepted write changes its slot alone, before the resolution; the resolution sets MODE_TARGET, and acting on it leaves
the slots as they are. -/
theorem modeRequestsResolve : Obligations.ModeRequestsResolve := by
  refine ⟨fun m v s _ hs hup hb _ hm hc => ?_, fun m n v w s _ _ hne _ _ hsm hsn hup hb _ hm hcm hcn => ?_,
    fun m s hs hup hb ho hm hp ht htarget hr hc => ?_, fun s hup hb ho hm => ?_⟩
  · have hready : TargetReady s := ⟨hup, hb, State.inMode_idlePlay hm⟩
    have h := (hready.slotTaken m v).modeReqEvent (others := []) (State.slotWrites_one hs hc)
    refine ⟨_, exec_modeReqWrite m v [] s, (s.modeReqEvent_parts m v []).only (by decide), ?_, h.slots, ?_⟩
    · exact (h.objs _ (slotKey_area m) (slotKey_fresh m)).trans ((s.slotTaken_obj m v (slotKey_area m)).trans (if_pos rfl))
    · rw [h.srv, s.slotTaken_code]
  · have hready : TargetReady s := ⟨hup, hb, State.inMode_idlePlay hm⟩
    have h := ((hready.slotTaken n w).slotTaken m v).modeReqEvent (others := [(n, w)]) (State.slotWrites_two hsm hsn hcm hcn)
    refine ⟨_, exec_modeReqWrite m v _ s, (s.modeReqEvent_parts m v [(n, w)]).only (by decide), ?_, ?_, h.slots, ?_⟩
    · exact (h.objs _ (slotKey_area m) (slotKey_fresh m)).trans ((State.slotTaken_obj _ m v (slotKey_area m)).trans (if_pos rfl))
    · refine (h.objs _ (slotKey_area n) (slotKey_fresh n)).trans ((State.slotTaken_obj _ m v (slotKey_area n)).trans ?_)
      rw [if_neg fun e => hne (slotKey_inj e).symm, s.slotTaken_obj n w (slotKey_area n), if_pos rfl]
    · have hmode := h.mode
      rw [State.ModeFollows, State.slotTaken_mode, State.slotTaken_mode] at hmode
      exact hmode
  · have hplay := PlayReady.slotTaken ⟨hup, hb, .inl hm⟩ hm ho ht hp hr htarget
    have hevent : ∃ side, s.modeReqEvent m 3 [] = (s.slotTaken m 3).modeReqAct side :=
      ⟨_, by rw [State.modeReqEvent, List.nil_append, State.slotWrites_one hs hc]⟩
    obtain ⟨side, hside⟩ := hevent
    refine ⟨_, exec_modeReqWrite m 3 [] s, (s.modeReqEvent_parts m 3 []).only (by decide), ?_⟩
    rw [State.logged_obj _ _ (by decide), State.logged_obj _ _ (by decide), State.logged_obj _ _ (by decide), hside]
    exact hplay.modeReqAct_obj side
  · have hready : TargetReady s := ⟨hup, hb, State.inMode_idlePlay hm⟩
    refine ⟨fun hl hn => ?_, fun hl hn => ?_, ?_⟩
    · have hlapsed : TargetReady s.lapsedH := hready.congr rfl rfl (s.lapsedH_obj _) (s.lapsedH_obj _)
      obtain ⟨t, ht, hparts, h⟩ := hlapsed.modeLeaseExpiry hup (State.leaseEnd_H hl hn)
      exact ⟨t, ht, hparts.only (by decide), (h.objs _ (by decide) (by decide)).trans (s.lapsedH_obj _), h.slots, h.leaseH⟩
    · have hlapsed : TargetReady s.lapsedF := hready.congr rfl rfl (s.lapsedF_obj _) (s.lapsedF_obj _)
      obtain ⟨t, ht, hparts, h⟩ := hlapsed.modeLeaseExpiry hup (State.leaseEnd_F hl hn)
      exact ⟨t, ht, hparts.only (by decide), (h.objs _ (by decide) (by decide)).trans (s.lapsedF_obj _), h.slots, h.leaseF⟩
    · exact ⟨_, exec_modeTargetReevaluation hup, (execModeTargetReevaluation_parts (exec_modeTargetReevaluation hup)).only (by decide),
        (hready.resolve.of_reports (s.logged_reports State.resolve)).target⟩

end Sys2Proof.Machine
end

section
/-!
PROOFS. The boundaries stage of a Park entry while a rail probe runs: a counterexample to the statement about Park entry (O14).
-/
namespace Sys2Proof.Machine

/-- A change of SRC_STATE ends a rail probe that runs (R481). -/
theorem State.srcState_probe {s : State} {n : Nat} (hs : s.obj Obj.SRC_STATE ≠ n) (hp : s.hz.probe = 2) :
    (s.srcState n).hz.probe = 0 := by
  simp [State.srcState, State.probeAbandon, hs, hp]

/-- So does the stop of the groups, which leaves the source ABSENT. -/
theorem State.groupsOff_probe {s : State} (hs : s.obj Obj.SRC_STATE ≠ 0) (hp : s.hz.probe = 2) : s.groupsOff.hz.probe = 0 := by
  have hstops : Fr 0xc0 s (s.groups.foldl (fun s g => s.stopG g 4) s) :=
    Fr.foldl _ (Fr.refl _ s) fun _ _ hy => State.stopG_parts _ _ rfl hy
  have hconn : (s.groups.foldl (fun s g => s.stopG g 4) s).obj Obj.SRC_STATE ≠ 0 := by
    rw [State.obj_congr (hstops.objs rfl)]
    exact hs
  exact State.srcState_probe hconn (by rw [hstops.hz rfl, hp])

theorem exec_parkEntryAdvance {s : State} (hup : s.shellUp = true) (hm : s.modeNow = 2) (ht : s.obj Obj.TSD_STATE = 0) :
    exec .parkEntryAdvance s = .next (s.logged State.parkAdvance) := by
  have hexec : exec .parkEntryAdvance s = execParkEntryAdvance s := rfl
  rw [hexec, execParkEntryAdvance, if_pos (by simp [hup, hm, ht])]

/-- Stage 4 of a Park entry stops the groups. -/
theorem State.parkAdvance_of_boundaries {s : State} (h : s.mode.park = 4) :
    s.parkAdvance = { s.groupsOff with mode := { s.groupsOff.mode with park := 5 } } := by
  unfold State.parkAdvance
  rw [h]
  rfl

/-- Idle with the source connected, in stage 4 of a Park entry, while a rail probe runs. -/
def probedParkEntry : State :=
  { State.reset with
    objs := [(Obj.MODE_STATE, 2), (Obj.SRC_STATE, 2)], aon := { shell := true, por := false }, mode := { park := 4 }, hz := { probe := 2 } }

/-- Refutes O14: its list of what stage 4 changes leaves out the Horizon block, and a rail probe that runs ends there with the source. -/
theorem not_parkEntryStages : ¬ Obligations.ParkEntryStages := by
  rintro ⟨-, hstages, -⟩
  obtain ⟨-, hboundaries, -⟩ := hstages probedParkEntry (by decide) (by decide) (by decide)
  obtain ⟨t, ht, -, -, -, -, -, honly⟩ := hboundaries rfl
  rw [exec_parkEntryAdvance (by decide) (by decide) (by decide)] at ht
  obtain rfl := Host.Outcome.next.inj ht
  have hhz : (probedParkEntry.logged State.parkAdvance).hz = probedParkEntry.hz := honly .hz (by decide)
  have hends := State.groupsOff_probe (s := probedParkEntry) (by decide) rfl
  rw [State.logged_hz, State.parkAdvance_of_boundaries rfl] at hhz
  exact absurd (hends.symm.trans (congrArg Horizon.probe hhz)) (by decide)

end Sys2Proof.Machine
end

section
/-!
PROOFS. The end of the Overcast shutdown at step 8 of bring-up: a counterexample to the statement about Stratus and Overcast (O15).
-/
namespace Sys2Proof.Machine

/-- A sequencer that is to stand takes no action, and so writes no object but its own. -/
theorem State.seqStart1_stopped_mk {s x : State} {i : Nat} (hi : i < 5) (h : Mk s x) : Mk s (x.seqStart1 true i) := by
  unfold State.seqStart1
  exact State.set_mk _ _ (by unfold Obj.SEQ_MODE; omega) (State.set_mk _ _ (by unfold Obj.SEQ_STATE_TIME; omega)
    (State.set_mk _ _ (by unfold Obj.SEQ_STATE; omega) (State.modSq_mk _ _ h)))

theorem State.seqStart_stopped_mk {s x : State} (h : Mk s x) : Mk s (x.seqStart true) :=
  Mk.foldl_mem _ h fun _ _ hi hy => State.seqStart1_stopped_mk (List.mem_range.mp hi) hy

/-- A bring-up that stops for Overcast, up to the change of mode. -/
def State.overcastServed (s : State) : State :=
  let s := { s with
    strat := { s.strat with absent := false, heartbeat := false }
    col := { s.col with deliver := s.chipResetMsg }
    aon := { s.aon with chipWhy := none } }
  let s := s.directEnd.countTrips.linObjects
  (if s.obj Obj.SCAN_STATE = 0 then s.measStart else s).wdStart.seqStart true

theorem State.overcastStop_eq (s : State) : s.overcastStop =
    (((if s.overcastServed.modeNow = 7 then s.overcastServed else s.overcastServed.setMode 7 0x0C).set
      Obj.BRINGUP_STEP 0).hzMode).haloUpdate := by
  unfold State.overcastStop State.overcastServed
  with_reducible rfl

theorem State.overcastServed_mk (s : State) : Mk s s.overcastServed := by
  have hobjs : ∀ x : State, Mk s x → Mk s x.directEnd.countTrips.linObjects := fun _ h =>
    State.linObjects_mk (State.countTrips_mk (State.directEnd_mk h))
  unfold State.overcastServed
  exact State.seqStart_stopped_mk (State.wdStart_mk (Mk.ite (State.measStart_mk (hobjs _ (Mk.mk_of (Mk.refl s))))
    (hobjs _ (Mk.mk_of (Mk.refl s)))))

/-- In mode 7 the stop of a bring-up enters no mode: of the objects of area 0x01 only the step changes. -/
theorem State.overcastStop_obj_of_overcast {s : State} (h : s.modeNow = 7) {k : Nat} (hk : k / 65536 = 1) (hstep : k ≠ Obj.BRINGUP_STEP) :
    s.overcastStop.obj k = s.obj k := by
  have hmode : s.overcastServed.modeNow = 7 := (s.overcastServed_mk _ (by decide)).trans h
  rw [State.overcastStop_eq, if_pos hmode, State.haloUpdate_mk (State.hzMode_mk (Mk.refl _)) k hk, State.obj_set_other _ _ hstep,
    s.overcastServed_mk k hk]

/-- At step 8 the last stage of the shutdown stops the bring-up instead of entering mode 7 (R86). -/
theorem State.overcastAdvance_of_stepEight {s : State} (h4 : s.aon.overcastStage = 4) (h8 : s.obj Obj.BRINGUP_STEP = 8) :
    s.overcastAdvance = ({ s with aon := { s.aon with overcastStage := 5 } } : State).overcastStop := by
  simp [State.overcastAdvance, h4, h8]

theorem exec_overcastShutdownAdvance {s : State} (h : s.aon.overcast = true) :
    exec .overcastShutdownAdvance s = .next (s.logged State.overcastAdvance) := by
  have hexec : exec .overcastShutdownAdvance s = execOvercastShutdownAdvance s := rfl
  rw [hexec, execOvercastShutdownAdvance, if_pos h]

/-- The last stage of the shutdown is due at step 8, in mode 7, with no cause kept. -/
def overcastAtStepEight : State :=
  { State.reset with objs := [(Obj.MODE_STATE, 7), (Obj.BRINGUP_STEP, 8)], aon := { overcast := true, overcastStage := 4 } }

/-- Refutes O15: its stage 4 asks for MODE_CAUSE 0x0C in every state, but at step 8 a device that is in mode 7 already enters no mode, and
keeps the cause it has. -/
theorem not_stratusAndOvercast : ¬ Obligations.StratusAndOvercast := by
  rintro ⟨-, -, -, -, -, -, -, -, hstages, -⟩
  obtain ⟨-, -, -, hlast⟩ := hstages overcastAtStepEight rfl
  obtain ⟨t, ht, -, -, -, hcause⟩ := hlast rfl
  rw [exec_overcastShutdownAdvance rfl] at ht
  obtain rfl := Host.Outcome.next.inj ht
  rw [State.logged_obj _ _ (by decide), State.overcastAdvance_of_stepEight rfl rfl,
    State.overcastStop_obj_of_overcast (by decide) (by decide) (by decide)] at hcause
  revert hcause
  decide

end Sys2Proof.Machine
end

section
/-!
PROOFS. Groups and phases: what the shared updates of the control core do to each, and what its messages leave.
-/
namespace Sys2Proof.Machine

/-! ### Groups after an update -/

theorem Four.get_put {α : Type} (f : Four α) (g h : Group) (x : α) : (f.put g x).get h = if h = g then x else f.get h := by
  cases g <;> cases h <;> rfl

@[simp] theorem State.g_modG_same (s : State) (g : Group) (f : GroupSt → GroupSt) : (s.modG g f).g g = f (s.g g) :=
  (Four.get_put _ _ _ _).trans (if_pos rfl)

theorem State.g_modG_other (s : State) {g h : Group} (f : GroupSt → GroupSt) (hne : h ≠ g) : (s.modG g f).g h = s.g h :=
  (Four.get_put _ _ _ _).trans (if_neg hne)

/-- A field that an update of one group keeps stands as before in every group. -/
theorem State.g_modG_field {α : Type} (F : GroupSt → α) (s : State) (g h : Group) {f : GroupSt → GroupSt}
    (hf : ∀ x, F (f x) = F x) : F ((s.modG g f).g h) = F (s.g h) := by
  by_cases hh : h = g
  · subst hh
    rw [State.g_modG_same, hf]
  · rw [State.g_modG_other _ _ hh]

@[simp] theorem State.phase_modG (s : State) (g : Group) (f : GroupSt → GroupSt) (q : Nat) : (s.modG g f).phase q = s.phase q := rfl
@[simp] theorem State.word_modG (s : State) (g : Group) (f : GroupSt → GroupSt) (id : Nat) : (s.modG g f).word id = s.word id := rfl
@[simp] theorem State.obj_modG (s : State) (g : Group) (f : GroupSt → GroupSt) (k : Nat) : (s.modG g f).obj k = s.obj k := rfl

theorem State.g_congr {s t : State} (h : t.grp = s.grp) (g : Group) : t.g g = s.g g := congrArg (Four.get · g) h
theorem State.phase_congr {s t : State} (h : t.ph = s.ph) (p : Nat) : t.phase p = s.phase p := by
  unfold State.phase
  rw [h]

/-! ### Phases after an update -/

theorem State.phase_modP (s : State) {p : Nat} (f : Phase → Phase) (hp : p < 16) (q : Nat) :
    (s.modP p f).phase q = if q = p then f (s.phase p) else s.phase q := by
  unfold State.modP State.phase
  by_cases hq : q < 16
  · by_cases h : p = q
    · subst h
      simp [Vector.getD, hq]
    · simp [Vector.getD, hq, h, Ne.symm h]
  · have h : q ≠ p := fun h => hq (h ▸ hp)
    simp [Vector.getD, hq, h]

theorem State.phase_modP_same (s : State) {p : Nat} (f : Phase → Phase) (hp : p < 16) : (s.modP p f).phase p = f (s.phase p) :=
  (s.phase_modP f hp p).trans (if_pos rfl)

theorem State.phase_modP_other (s : State) {p q : Nat} (f : Phase → Phase) (hq : q ≠ p) : (s.modP p f).phase q = s.phase q := by
  unfold State.modP State.phase
  by_cases h : q < 16 <;> simp [Vector.getD, h, Ne.symm hq]

@[simp] theorem State.g_modP (s : State) (p : Nat) (f : Phase → Phase) (g : Group) : (s.modP p f).g g = s.g g := rfl
@[simp] theorem State.word_modP (s : State) (p : Nat) (f : Phase → Phase) (id : Nat) : (s.modP p f).word id = s.word id := rfl
@[simp] theorem State.obj_modP (s : State) (p : Nat) (f : Phase → Phase) (k : Nat) : (s.modP p f).obj k = s.obj k := rfl

/-- A field that an update of one phase keeps stands as before in every phase. -/
theorem State.phase_modP_field {α : Type} (F : Phase → α) (s : State) (p q : Nat) {f : Phase → Phase}
    (hf : ∀ x, F (f x) = F x) : F ((s.modP p f).phase q) = F (s.phase q) := by
  by_cases hq : q = p
  · subst hq
    by_cases hp : q < 16
    · rw [State.phase_modP_same _ _ hp, hf]
    · simp [State.modP, State.phase, Vector.getD, hp]
  · rw [State.phase_modP_other _ _ hq]

/-- The phases that a fold of updates does not name are left alone. -/
theorem State.phase_foldl_other {f : Nat → State → Phase → Phase} {l : List Nat} {q : Nat} (s : State) (hq : q ∉ l) :
    (l.foldl (fun s p => s.modP p (f p s)) s).phase q = s.phase q := by
  induction l generalizing s with
  | nil => rfl
  | cons p l ih =>
    obtain ⟨hne, hl⟩ := not_or.mp (fun h => hq (List.mem_cons.mpr h))
    exact (ih _ hl).trans (s.phase_modP_other _ hne)

/-- A fold of updates of phases touches the phases alone. -/
theorem State.foldl_modP_parts (f : Nat → State → Phase → Phase) (s : State) (l : List Nat) :
    Fr 0x80 s (l.foldl (fun s p => s.modP p (f p s)) s) :=
  Fr.foldl l (Fr.refl _ s) fun _ p hy => State.modP_parts p _ rfl hy

/-- What every update of a fold establishes, from a state that differs in the phases alone, holds of each phase that the fold names. -/
theorem State.phase_foldl_holds {P : Nat → Phase → Prop} {f : Nat → State → Phase → Phase} {l : List Nat} {q : Nat} (s : State)
    (hf : ∀ y x, Fr 0x80 s y → P q (f q y x)) (hq : q ∈ l) (hb : q < 16) :
    P q ((l.foldl (fun s p => s.modP p (f p s)) s).phase q) := by
  induction l generalizing s with
  | nil => cases hq
  | cons p l ih =>
    by_cases hl : q ∈ l
    · exact ih _ (fun y x hy => hf y x ((State.modP_parts p _ rfl (Fr.refl 0x80 s)).trans hy)) hl
    · obtain rfl : q = p := (List.mem_cons.mp hq).resolve_right hl
      rw [List.foldl_cons, State.phase_foldl_other _ hl, State.phase_modP_same _ _ hb]
      exact hf _ _ (Fr.refl _ s)

/-- A field that every update of a fold keeps stands as before. -/
theorem State.phase_foldl_field {α : Type} (F : Phase → α) {f : Nat → State → Phase → Phase} (hf : ∀ p y x, F (f p y x) = F x)
    (s : State) (l : List Nat) (q : Nat) : F ((l.foldl (fun s p => s.modP p (f p s)) s).phase q) = F (s.phase q) := by
  induction l generalizing s with
  | nil => rfl
  | cons p l ih => exact (ih _).trans (s.phase_modP_field F p q (hf p s))

theorem State.phase_modPs_other (s : State) {l : List Nat} {q : Nat} (f : Phase → Phase) (hq : q ∉ l) : (s.modPs l f).phase q = s.phase q :=
  State.phase_foldl_other (f := fun _ _ => f) s hq

theorem State.phase_modPs_field {α : Type} (F : Phase → α) (s : State) (l : List Nat) (q : Nat) {f : Phase → Phase}
    (hf : ∀ x, F (f x) = F x) : F ((s.modPs l f).phase q) = F (s.phase q) :=
  State.phase_foldl_field F (f := fun _ _ => f) (fun _ _ => hf) s l q

theorem State.phase_modPs_holds {P : Phase → Prop} (s : State) {l : List Nat} {q : Nat} {f : Phase → Phase} (hf : ∀ x, P (f x))
    (hq : q ∈ l) (hb : q < 16) : P ((s.modPs l f).phase q) :=
  State.phase_foldl_holds (P := fun _ => P) (f := fun _ _ => f) s (fun _ x _ => hf x) hq hb

@[simp] theorem State.modPs_grp (s : State) (l : List Nat) (f : Phase → Phase) : (s.modPs l f).grp = s.grp :=
  (State.modPs_parts (p := 0x80) l f rfl (Fr.refl _ s)).grp rfl
@[simp] theorem State.modPs_core (s : State) (l : List Nat) (f : Phase → Phase) : (s.modPs l f).core = s.core :=
  (State.modPs_parts (p := 0x80) l f rfl (Fr.refl _ s)).core rfl
@[simp] theorem State.modPs_objs (s : State) (l : List Nat) (f : Phase → Phase) : (s.modPs l f).objs = s.objs :=
  (State.modPs_parts (p := 0x80) l f rfl (Fr.refl _ s)).objs rfl
@[simp] theorem State.g_modPs (s : State) (l : List Nat) (f : Phase → Phase) (g : Group) : (s.modPs l f).g g = s.g g :=
  State.g_congr (s.modPs_grp l f) g

/-! ### Phases and their groups -/

theorem State.mem_phasesOf {s : State} {g : Group} {p : Nat} (h : p ∈ s.phasesOf g) : p < 16 ∧ groupOf p = g := by
  have hall : ∀ l : List Nat, (l.all fun q => decide (q < 16 ∧ groupOf q = g)) = true → p ∈ l → p < 16 ∧ groupOf p = g :=
    fun l hl hp => of_decide_eq_true (List.all_eq_true.mp hl p hp)
  cases g <;> (simp only [State.phasesOf] at h; split at h <;> exact hall _ (by decide) h)

theorem State.variant_congr {s t : State} (h : t.obj Obj.VARIANT = s.obj Obj.VARIANT) : t.variant = s.variant := by
  unfold State.variant
  rw [h]

theorem State.phasesOf_congr {s t : State} (h : t.variant = s.variant) (g : Group) : t.phasesOf g = s.phasesOf g := by
  cases g <;> simp only [State.phasesOf, h]

theorem State.hasGroup_congr {s t : State} (h : t.variant = s.variant) (g : Group) : t.hasGroup g = s.hasGroup g := by
  cases g <;> simp only [State.hasGroup, h]

theorem State.groups_congr {s t : State} (h : t.variant = s.variant) : t.groups = s.groups := by
  unfold State.groups
  exact congrArg (List.filter · _) (funext (State.hasGroup_congr h))

theorem groupNum_lt (g : Group) : g.num < 4 := by
  cases g <;> decide

/-! ### The bits of a stop -/

/-- A power of two added where its bit is clear carries into no other bit. -/
theorem testBit_add_two_pow {n m : Nat} (hm : m ≠ n) {v : Nat} (hv : v.testBit n = false) : (v + 2 ^ n).testBit m = v.testBit m := by
  induction n generalizing v m with
  | zero =>
    obtain ⟨m, rfl⟩ := Nat.exists_eq_succ_of_ne_zero hm
    have hdiv : (v + 2 ^ 0) / 2 = v / 2 := by
      have : v % 2 ≠ 1 := by simpa using hv
      omega
    rw [Nat.testBit_succ, hdiv, Nat.testBit_succ]
  | succ n ih =>
    have hdiv : (v + 2 ^ (n + 1)) / 2 = v / 2 + 2 ^ n := by omega
    cases m with
    | zero => simp [Nat.testBit_zero, Nat.pow_succ]
    | succ m => rw [Nat.testBit_succ, hdiv, ih (by omega) (Nat.testBit_succ v n ▸ hv), Nat.testBit_succ]

/-- A bit that stands, taken out: the rest with the bit clear. -/
theorem testBit_sub_two_pow_self {v n : Nat} (hv : v.testBit n = true) : (v - 2 ^ n).testBit n = false := by
  have h := Nat.testBit_two_pow_add_eq (v - 2 ^ n) n
  rw [Nat.add_sub_cancel' (Nat.ge_two_pow_of_testBit hv), hv] at h
  simpa using h.symm

theorem bit_setBit_same (v n : Nat) (b : Bool) : bit (setBit v n b) n = b := by
  unfold bit setBit
  split
  case isTrue h => exact h
  case isFalse h =>
    cases b
    · exact testBit_sub_two_pow_self (by simpa using h)
    · have hv : v.testBit n = false := by simpa using h
      simp [Nat.add_comm v, Nat.testBit_two_pow_add_eq, hv]

theorem bit_setBit_other (v : Nat) {n m : Nat} (b : Bool) (h : m ≠ n) : bit (setBit v n b) m = bit v m := by
  unfold bit setBit
  split
  case isTrue => rfl
  case isFalse hv =>
    cases b
    · have hv : v.testBit n = true := by simpa using hv
      have hadd := testBit_add_two_pow h (testBit_sub_two_pow_self hv)
      rw [Nat.sub_add_cancel (Nat.ge_two_pow_of_testBit hv)] at hadd
      exact hadd.symm
    · exact testBit_add_two_pow h (by simpa using hv)

theorem ne_zero_of_bit {v n : Nat} (h : bit v n = true) : v ≠ 0 := by
  rintro rfl
  exact Bool.false_ne_true ((Nat.zero_testBit n).symm.trans h)

end Sys2Proof.Machine
end

section
/-!
PROOFS. What the core's messages leave: a report of the core touches no word, no group and no phase.
-/
namespace Sys2Proof.Machine

/-- `t` is `s` but for reports: messages queued in the core or offered to the collector, the conditions that stand, occurrences counted
in fault records, event records. -/
structure Told (s t : State) : Prop where
  eq : t = { s with
    objs := t.objs, col := t.col, recs := t.recs, ring := t.ring
    core := { s.core with
      queue := t.core.queue, queueOvf := t.core.queueOvf, stratusRaised := t.core.stratusRaised, conds := t.core.conds } }
  objs : s.SameObjs [Obj.FAULT_LOST] t

namespace Told

theorem refl (s : State) : Told s s := ⟨rfl, fun _ _ => rfl⟩

theorem trans {s t u : State} (h : Told s t) (k : Told t u) : Told s u := by
  refine ⟨?_, fun j hj => (k.objs j hj).trans (h.objs j hj)⟩
  rw [k.eq, h.eq]

theorem ite {s a b : State} {c : Prop} [Decidable c] (ha : Told s a) (hb : Told s b) : Told s (if c then a else b) := by
  split <;> assumption

theorem foldl {α : Type} {s x : State} {f : State → α → State} (l : List α) (h : Told s x) (hf : ∀ y a, Told y (f y a)) :
    Told s (l.foldl f x) := by
  induction l generalizing x with
  | nil => exact h
  | cons a l ih => exact ih (h.trans (hf x a))

theorem of_reports {s t : State} (h : s.Reports t) : Told s t := by
  have hp := h.parts (p := 0x82010) rfl
  refine ⟨?_, h.2⟩
  rw [hp.recs rfl, hp.core rfl]
  exact h.1

section
variable {s t : State} (h : Told s t)
include h

theorem grp : t.grp = s.grp := by rw [h.eq]
theorem ph : t.ph = s.ph := by rw [h.eq]
theorem strat : t.strat = s.strat := by rw [h.eq]
theorem now : t.now = s.now := by rw [h.eq]
theorem aon : t.aon = s.aon := by rw [h.eq]
theorem words : t.core.words = s.core.words := by rw [h.eq]
theorem pend : t.core.pend = s.core.pend := by rw [h.eq]
theorem refused : t.core.refused = s.core.refused := by rw [h.eq]
theorem railOv : t.core.railOv = s.core.railOv := by rw [h.eq]
theorem disc : t.core.disc = s.core.disc := by rw [h.eq]

theorem obj {k : Nat} (hk : k ≠ Obj.FAULT_LOST) : t.obj k = s.obj k := h.objs k (by simpa using hk)
theorem g (g : Group) : t.g g = s.g g := State.g_congr h.grp g
theorem phase (p : Nat) : t.phase p = s.phase p := State.phase_congr h.ph p
theorem word (id : Nat) : t.word id = s.word id := congrArg (Store.read (fun _ => 0) · id) h.words
theorem variant : t.variant = s.variant := State.variant_congr (h.obj (by decide))
theorem phasesOf (g : Group) : t.phasesOf g = s.phasesOf g := State.phasesOf_congr h.variant g
theorem groups : t.groups = s.groups := State.groups_congr h.variant

end

end Told

/-! ### The core's operations that report -/

theorem State.enqueue_told (s : State) (m : Msg) : Told s (s.enqueue m) := by
  unfold State.enqueue
  split <;> exact ⟨rfl, fun _ _ => rfl⟩

theorem State.coreSend_told (s : State) (m : Msg) : Told s (s.coreSend m) :=
  Told.ite (s.enqueue_told m) (Told.of_reports (s.send_reports m))

@[simp] theorem State.coreSend_conds (s : State) (m : Msg) : (s.coreSend m).core.conds = s.core.conds := by
  unfold State.coreSend
  split
  · unfold State.enqueue
    split <;> rfl
  · rw [State.send_core]

theorem State.coreRaise_told (s : State) (src kind inst : Nat) : Told s (s.coreRaise src kind inst) := s.coreSend_told _

theorem State.coreRaiseC_told (s : State) (src kind inst : Nat) : Told s (s.coreRaiseC src kind inst) := by
  refine Told.ite (Told.refl s) (Told.trans ?_ (State.coreSend_told _ _))
  exact ⟨rfl, fun _ _ => rfl⟩

/-- A condition that the core raises stands. -/
theorem State.coreRaiseC_contains (s : State) {src kind inst : Nat} (hi : inst < 65536) :
    (s.coreRaiseC src kind inst).core.conds.contains { src, kind, inst } = true := by
  unfold State.coreRaiseC
  rw [Nat.mod_eq_of_lt hi]
  dsimp only
  split
  next hc => exact hc
  next => simp

theorem State.coreClearBy_told (s : State) (p : Msg → Bool) : Told s (s.coreClearBy p) :=
  Told.foldl _ ⟨rfl, fun _ _ => rfl⟩ fun y _ => y.coreSend_told _

theorem State.coreClearK_told (s : State) (src kind : Nat) : Told s (s.coreClearK src kind) := s.coreClearBy_told _
theorem State.coreClearI_told (s : State) (src kind inst : Nat) : Told s (s.coreClearI src kind inst) := s.coreClearBy_told _

/-- The conditions that the core clears stand no more, and the others still do. -/
theorem State.coreClearBy_conds (s : State) (p : Msg → Bool) : (s.coreClearBy p).core.conds = s.core.conds.filter fun m => !p m := by
  have hsent : ∀ (l : List Msg) (y : State),
      (l.foldl (fun s m => s.coreSend { m with clear := true }) y).core.conds = y.core.conds := by
    intro l
    induction l with
    | nil => exact fun _ => rfl
    | cons m l ih => exact fun y => (ih _).trans (y.coreSend_conds _)
  exact hsent _ _

theorem State.coreClearK_cleared (s : State) (src kind : Nat) : ∀ m ∈ (s.coreClearK src kind).core.conds, ¬(m.src = src ∧ m.kind = kind) := by
  rintro m hm ⟨hs, hk⟩
  rw [State.coreClearK, State.coreClearBy_conds] at hm
  simpa [hs, hk] using List.of_mem_filter hm

theorem State.coreClearI_cleared (s : State) (src kind : Nat) {inst : Nat} (hi : inst < 65536) :
    ∀ m ∈ (s.coreClearI src kind inst).core.conds, ¬(m.src = src ∧ m.kind = kind ∧ m.inst = inst) := by
  rintro m hm ⟨hs, hk, hinst⟩
  rw [State.coreClearI, State.coreClearBy_conds, Nat.mod_eq_of_lt hi] at hm
  simpa [hs, hk, hinst] using List.of_mem_filter hm

theorem State.again_told (s : State) (src kind : Nat) : Told s (s.again src kind) := by
  unfold State.again
  dsimp only
  split_ifs
  · exact ⟨rfl, fun _ _ => rfl⟩
  · exact ⟨rfl, fun _ _ => rfl⟩
  · exact ⟨rfl, fun _ _ => rfl⟩
  all_goals
    split
    · exact ⟨rfl, fun _ _ => rfl⟩
    · exact Told.refl s

theorem State.logDiff_told (a b : State) : Told b (a.logDiff b) := Told.of_reports (State.logDiff_reports a b)
theorem State.logged_told (s : State) (f : State → State) : Told (f s) (s.logged f) := s.logDiff_told (f s)

theorem State.logDiff_core (a b : State) : (a.logDiff b).core = b.core := (State.logDiff_parts (p := 0x80000) a rfl (Fr.refl _ b)).core rfl

end Sys2Proof.Machine
end

section
/-!
PROOFS. The handshake port (O19).
-/
namespace Sys2Proof.Machine

/-! ### Words and their identifiers (R110, R111) -/

theorem State.wordGroups_congr {s t : State} (h : t.variant = s.variant) (id : Nat) : t.wordGroups id = s.wordGroups id := by
  unfold State.wordGroups
  rw [State.groups_congr h]

theorem State.wordDefined_congr {s t : State} (h : t.variant = s.variant) (id : Nat) : t.wordDefined id = s.wordDefined id := by
  unfold State.wordDefined
  rw [State.phasesOf_congr h, State.wordGroups_congr h, funext (State.hasGroup_congr h)]

theorem State.wordBad_congr {s t : State} (h : t.variant = s.variant) (w : Nat) : t.wordBad w = s.wordBad w := by
  simp only [State.wordBad, State.wordDefined_congr h]

theorem State.idleGroups_congr {s t : State} (h : t.variant = s.variant) (hg : t.grp = s.grp) : t.idleGroups = s.idleGroups := by
  simp only [State.idleGroups, State.groups_congr h, State.g, hg]

/-- No latch and no timing word has an identifier of 48 or above (R111). -/
theorem State.id_lt_of_wordDefined {s : State} {id : Nat} (h : s.wordDefined id = true) : id < 48 := by
  by_contra hid
  have hgroups : s.wordGroups id = [] := by
    unfold State.wordGroups
    split_ifs <;> first | omega | rfl
  rw [State.wordDefined, if_neg (by omega), hgroups] at h
  exact Bool.false_ne_true h

theorem field_value_lt (w : Nat) : field w 23 0 < 2 ^ 24 := Nat.mod_lt _ (by decide)

/-! ### The recorder and words that wait (R426) -/

/-- Among words that only wait, none is taken: there is nothing for the recorder to report. -/
theorem State.logDiff_of_pend {s : State} {l : List PendWord} (h : l.map (·.id) = s.core.pend.map (·.id)) :
    s.logDiff { s with core := { s.core with pend := l } } = { s with core := { s.core with pend := l } } := by
  have hany : ∀ i, l.any (·.id == i) = s.core.pend.any (·.id == i) := fun i => by
    have hmap := congrArg (List.any · (· == i)) h
    simpa only [List.any_map, Function.comp_def] using hmap
  have htook : ∀ i, s.took { s with core := { s.core with pend := l } } i = false := by
    simp [State.took, State.word, hany]
  have hlevels : State.levels { s with core := { s.core with pend := l } } = s.levels := rfl
  unfold State.logDiff
  split
  · rfl
  · simp only [htook, hlevels, State.phase, State.g, List.foldl_fixed, if_true, Bool.false_eq_true, if_false]
    exact foldl_of_fixed _ fun x hx => if_pos (List.contains_iff_mem.mpr hx)

/-! ### Applying what waits -/

theorem State.applyOrder_pend (s : State) (g : Group) (v : Nat) : (s.applyOrder g v).core.pend = s.core.pend := by
  unfold State.applyOrder
  dsimp only
  rw [(State.coreClearBy_told _ _).pend, (State.coreClearBy_told _ _).pend, State.modG_core]
  generalize State.phasesOf _ _ = l
  generalize hx : ({ s with core := { s.core with words := _ } } : State) = x
  have hpend : x.core.pend = s.core.pend := hx ▸ rfl
  exact (congrArg Core.pend ((Fr.foldl l (Fr.refl 0x80 x) fun y p hy => State.modP_parts p _ rfl hy).core rfl)).trans hpend

theorem State.applyWord_pend (s : State) (g : Group) (id v : Nat) : (s.applyWord g id v).core.pend = s.core.pend := by
  unfold State.applyWord
  split_ifs
  · rfl
  · rfl
  · rfl
  · exact s.applyOrder_pend g v
  · rfl

/-- With no word held, none is held after a group has applied what waits for it. -/
theorem State.applyAll_unheld (g : Group) {s : State} (h : ∀ x ∈ s.core.pend, x.held = false) :
    ∀ x ∈ (s.applyAll g).core.pend, x.held = false := by
  unfold State.applyAll
  generalize s.core.pend = l
  induction l generalizing s with
  | nil => exact h
  | cons w l ih =>
    refine ih ?_
    dsimp only
    split
    · intro x hx
      obtain ⟨y, hy, hxy⟩ := List.mem_flatMap.mp hx
      have hpend : ∀ c : Prop, [Decidable c] → (if c then (s.applyWord g w.id w.value).keepWord w.id w.value
          else s.applyWord g w.id w.value).core.pend = s.core.pend := by
        intro c _
        split <;> exact s.applyWord_pend g w.id w.value
      rw [hpend] at hy
      split at hxy
      · split at hxy
        · cases hxy
        · exact List.mem_singleton.mp hxy ▸ h y hy
      · exact List.mem_singleton.mp hxy ▸ h y hy
    · exact h

theorem State.applyIdle_unheld (l : List Group) {s : State} (h : ∀ x ∈ s.core.pend, x.held = false) :
    ∀ x ∈ (s.applyIdle l).core.pend, x.held = false := by
  unfold State.applyIdle
  induction l generalizing s with
  | nil => exact h
  | cons g l ih => exact ih (State.applyAll_unheld g h)

/-- COMMIT lets go of every held word (R113). -/
theorem State.commitWords_unheld (s : State) : ∀ x ∈ s.commitWords.core.pend, x.held = false := by
  refine State.applyIdle_unheld _ fun x hx => ?_
  obtain ⟨w, -, rfl⟩ := List.mem_map.mp hx
  rfl

/-- Where every group has an oscillator, COMMIT only lets go of the held words (R113). -/
theorem State.commitWords_of_running {s : State} (h : s.idleGroups = []) : s.commitWords =
    { s with core := { s.core with pend := s.core.pend.map fun (w : PendWord) => { w with held := false } } } := by
  unfold State.commitWords
  rw [h]
  rfl

theorem exec_commit {s : State} (h : s.portOpen = true) : exec .commit s = .next (s.logged State.commitWords) := by
  have hexec : exec .commit s = execCommit s := rfl
  rw [hexec, execCommit, State.logged, if_pos h]
  rfl

/-! ### One word on the port (R110, R111, R130) -/

/-- A word in its range that the variant has is accepted. -/
theorem State.portSend_of_good {s : State} {w : Nat} (src : Option (Master × Nat)) (hpar : evenParity w = true)
    (hdef : s.wordDefined (field w 31 26) = true) (hrange : wordInRange (field w 31 26) (field w 23 0) = true) :
    s.portSend w src = s.accept (field w 31 26) (field w 23 0) (bit w 25) := by
  have hid := State.id_lt_of_wordDefined hdef
  have hbad : s.wordBad w = false := by simp [State.wordBad, hdef, hrange]
  have hraw : s.portRaw w = s.accept (field w 31 26) (field w 23 0) (bit w 25) := by
    unfold State.portRaw State.portWord
    dsimp only
    rw [if_neg (by omega), if_neg (by omega), if_neg (by omega), if_pos (by rw [hdef, hrange, decide_eq_true (field_value_lt w)]; rfl)]
  unfold State.portSend
  rw [hpar, hraw, hbad]
  cases src <;> rfl

/-- A word that fails parity or its range is refused; a refusal of its range goes back to the master of the write (R111). -/
theorem State.portSend_of_bad {s : State} {w : Nat} (src : Option (Master × Nat)) (h : evenParity w = false ∨ s.wordBad w = true) :
    Fr 0x800000010 (s.refuse (field w 31 26)) (s.portSend w src) ∧
      (evenParity w = true → src ≠ none → (s.portSend w src).srv.code = 9) := by
  cases hpar : evenParity w with
  | false =>
    have hsend : s.portSend w src = s.refuse (field w 31 26) := by
      unfold State.portSend
      rw [hpar]
      rfl
    exact ⟨hsend ▸ Fr.refl _ _, nofun⟩
  | true =>
    have hbad : s.wordBad w = true := h.resolve_left (by simp [hpar])
    obtain ⟨hid, hgood⟩ : field w 31 26 < 0x3D ∧ (s.wordDefined (field w 31 26) && wordInRange (field w 31 26) (field w 23 0)) = false := by
      simpa only [State.wordBad, Bool.and_eq_true, decide_eq_true_eq, Bool.not_eq_true'] using hbad
    have hraw : s.portRaw w = s.refuse (field w 31 26) := by
      unfold State.portRaw State.portWord
      dsimp only
      rw [if_neg (by omega), if_neg (by omega), if_neg (by omega), hgood, Bool.false_and, if_neg Bool.false_ne_true]
    rcases src with _ | ⟨m, k⟩
    · have hsend : s.portSend w none = s.refuse (field w 31 26) := by
        unfold State.portSend
        rw [hpar, hraw]
        rfl
      exact ⟨hsend ▸ Fr.refl _ _, fun _ h => absurd rfl h⟩
    · have hsend : s.portSend w (some (m, k)) = (s.refuse (field w 31 26)).answerWith m k 9 [] := by
        unfold State.portSend
        rw [hpar, hraw, Bool.not_true, if_neg Bool.false_ne_true]
        exact if_pos hbad
      rw [hsend]
      exact ⟨State.answerWith_parts _ _ _ _ rfl (Fr.refl _ _), fun _ _ => State.answerWith_code _ _ _ _ _⟩

/-- HANDOVER, with every group running: what is held is let go, and every group is to lift its Stratus limits (R130). -/
theorem State.portSend_handover {s : State} {w : Nat} (src : Option (Master × Nat)) (hpar : evenParity w = true)
    (hid : field w 31 26 = 0x3E) (hidle : s.idleGroups = []) :
    s.portSend w src = s.commitWords.allG fun x => { x with lift := true } := by
  have hbad : s.wordBad w = false := by simp [State.wordBad, hid]
  have hraw : s.portRaw w = s.commitWords.allG fun x => { x with lift := true } := by
    unfold State.portRaw State.handoverWord
    dsimp only
    rw [hid, hidle]
    rfl
  unfold State.portSend
  rw [hpar, hraw, hbad]
  cases src <;> rfl

/-- The word that counts: the one written, or its retry where the parity failed. The port takes it in a state that has at most refused the
first one. -/
theorem exec_portLatchWrite {s : State} {u v w : Nat} (src : Option (Master × Nat))
    (hw : (evenParity u = true ∧ w = u) ∨ (evenParity u = false ∧ w = v)) (ho : s.portOpen = true) :
    ∃ r x, Told { s with core := { s.core with refused := r } } x ∧ Fr 0x2030 s x ∧
      exec (.portLatchWrite u v src) s = .next (s.logDiff (x.portSend w src)) := by
  have hexec : exec (.portLatchWrite u v src) s = execPortLatchWrite u v src s := rfl
  rw [hexec, execPortLatchWrite, State.logged, ho]
  rcases hw with ⟨hpar, rfl⟩ | ⟨hpar, rfl⟩
  · exact ⟨_, s, Told.refl s, Fr.refl _ s, by rw [hpar]; rfl⟩
  · exact ⟨_, s.refuse (field u 31 26), State.coreRaise_told _ _ _ _, State.refuse_parts _ rfl (Fr.refl _ s), by rw [hpar]; rfl⟩

/-- A word whose identifier does not wait stands pending; it is not applied where it is held, or where every group is running (R113). -/
theorem State.accept_of_fresh {s : State} {id v : Nat} {hold : Bool} (hwait : hold = true ∨ s.idleGroups = [])
    (hfresh : s.core.pend.all (fun x => x.id != id) = true) :
    (s.accept id v hold).core = { s.core with
      pend := s.core.pend ++ [{ id := id, value := v, held := hold, wait := (s.wordGroups id).filter s.hasGroup }]
      refused := none } ∧
    (s.accept id v hold).ph = s.ph ∧ (id ≠ 5 → id ≠ 6 → (s.accept id v hold).grp = s.grp) := by
  have hfind : s.core.pend.find? (fun x => x.id == id) = none := by
    rw [List.find?_eq_none]
    intro x hx
    simpa using List.all_eq_true.mp hfresh x hx
  have hfilter : s.core.pend.filter (fun x => x.id != id) = s.core.pend := List.filter_eq_self.mpr (List.all_eq_true.mp hfresh)
  have hpack : ∀ x : State, (if id = 5 ∨ id = 6 then x.freeG .pack 7 else x).core = x.core ∧
      (if id = 5 ∨ id = 6 then x.freeG .pack 7 else x).ph = x.ph ∧
      (id ≠ 5 → id ≠ 6 → (if id = 5 ∨ id = 6 then x.freeG .pack 7 else x).grp = x.grp) := by
    intro x
    split
    next h => exact ⟨rfl, rfl, fun h5 h6 => absurd h (not_or.mpr ⟨h5, h6⟩)⟩
    next => exact ⟨rfl, rfl, fun _ _ => rfl⟩
  unfold State.accept
  dsimp only
  rw [hfind, hfilter, Option.elim_none, Bool.or_false]
  rcases hwait with rfl | hidle
  · rw [if_pos rfl]
    exact hpack _
  · rw [hidle, State.applyIdle, List.foldl_nil, ite_self]
    exact hpack _

/-- Settles O19: the port takes one word, in a state that has at most refused the word before; its parity, its identifier and its range say
what becomes of it. -/
theorem portWordsAndCommit : Obligations.PortWordsAndCommit := by
  refine ⟨fun u v w src s hw ho hpar hdef hrange => ?_, fun u v w src s hw ho hbad => ?_, fun w v src s ho hpar hid hidle => ?_,
    fun s ho => ?_, fun s => rfl⟩
  · obtain ⟨r, x, htold, hx, hexec⟩ := exec_portLatchWrite (v := v) src hw ho
    have hvar : x.variant = s.variant := htold.variant
    have hsend := State.portSend_of_good src hpar ((State.wordDefined_congr hvar _).trans hdef) hrange
    have hlog := s.logDiff_told (x.portSend w src)
    refine ⟨_, hexec, fun hwait hfresh => ?_, ?_⟩
    · rw [hlog.pend, hlog.refused, hlog.words, hlog.ph, hlog.grp, hsend]
      have hgrp : x.grp = s.grp := htold.grp
      have hpend : x.core.pend = s.core.pend := htold.pend
      have hwords : x.core.words = s.core.words := htold.words
      have hph : x.ph = s.ph := htold.ph
      have hacc := State.accept_of_fresh (s := x) (id := field w 31 26) (v := field w 23 0) (hold := bit w 25)
        (hwait.imp_right (State.idleGroups_congr hvar hgrp).trans) (by rwa [hpend])
      rw [State.wordGroups_congr hvar, funext (State.hasGroup_congr hvar), hgrp, hpend, hph] at hacc
      obtain ⟨hc, hp, hg⟩ := hacc
      rw [hc, hp]
      exact ⟨rfl, rfl, hwords, rfl, hg⟩
    · rw [hsend]
      have hparts : Fr 0x820f0 s (s.logDiff (x.accept (field w 31 26) (field w 23 0) (bit w 25))) :=
        State.logDiff_parts s rfl (State.accept_parts _ _ _ rfl ((Fr.refl _ s).upd hx rfl))
      exact hparts.only (by decide)
  · obtain ⟨r, x, htold, hx, hexec⟩ := exec_portLatchWrite (v := v) src hw ho
    have hvar : x.variant = s.variant := htold.variant
    obtain ⟨hsend, hcode⟩ := State.portSend_of_bad (s := x) src (hbad.imp_right (State.wordBad_congr hvar w).trans)
    have hlog := s.logDiff_told (x.portSend w src)
    have href : Told { x with core := { x.core with refused := some (field w 31 26) } } (x.refuse (field w 31 26)) :=
      State.coreRaise_told _ _ _ _
    refine ⟨_, hexec, ?_, ?_, ?_, fun hpar hsrc => ?_, ?_⟩
    · rw [hlog.refused, hsend.core rfl, href.refused]
    · rw [hlog.words, hsend.core rfl, href.words]
      exact htold.words
    · rw [hlog.pend, hsend.core rfl, href.pend]
      exact htold.pend
    · rw [(State.logDiff_parts (p := 0x82010) s rfl (Fr.refl _ _)).srv rfl]
      exact hcode hpar hsrc
    · have hrefuse : Fr 0x8000820b0 s (x.refuse (field w 31 26)) := State.refuse_parts _ rfl ((Fr.refl _ s).upd hx rfl)
      have hparts : Fr 0x8000820b0 s (s.logDiff (x.portSend w src)) := State.logDiff_parts s rfl (hrefuse.upd hsend rfl)
      exact hparts.only (by decide)
  · obtain ⟨r, x, htold, hx, hexec⟩ := exec_portLatchWrite (v := v) src (.inl ⟨hpar, rfl⟩) ho
    have hidle' : x.idleGroups = [] := (State.idleGroups_congr htold.variant htold.grp).trans hidle
    have hsend := State.portSend_handover src hpar hid hidle'
    have hlog := s.logDiff_told (x.portSend w src)
    refine ⟨_, hexec, fun g => ?_, ?_, ?_⟩
    · rw [hlog.g, hsend]
      cases g <;> rfl
    · rw [hlog.pend, hsend]
      exact x.commitWords_unheld
    · rw [hsend]
      have hparts : Fr 0x824f0 s (s.logDiff (x.commitWords.allG fun y => { y with lift := true })) :=
        State.logDiff_parts s rfl (State.allG_parts _ rfl (State.commitWords_parts rfl ((Fr.refl _ s).upd hx rfl)))
      exact hparts.only (by decide)
  · refine ⟨_, exec_commit ho, ?_, fun hidle => ?_, (execCommit_parts (exec_commit ho)).only (by decide)⟩
    · rw [(s.logged_told _).pend]
      exact s.commitWords_unheld
    · rw [State.logged, State.commitWords_of_running hidle]
      exact State.logDiff_of_pend (by simp [Function.comp_def])

end Sys2Proof.Machine
end

section
/-!
PROOFS. A phase's cycle and the envelope feedforward (O20).
-/
namespace Sys2Proof.Machine

/-! ### Switches and dead times (R88, R90) -/

theorem State.compl_ne_Z (s : State) (g : Group) : s.compl g ≠ .Z := by
  unfold State.compl
  split_ifs <;> decide

theorem State.ctrl_of_deliver {s t : State} {g : Group} (h : (t.g g).deliver = (s.g g).deliver) : t.ctrl g = s.ctrl g := by
  unfold State.ctrl
  rw [h]

theorem State.ctrl_congr {s t : State} (h : t.grp = s.grp) (g : Group) : t.ctrl g = s.ctrl g :=
  State.ctrl_of_deliver (congrArg GroupSt.deliver (State.g_congr h g))

theorem State.compl_congr {s t : State} (h : t.grp = s.grp) (g : Group) : t.compl g = s.compl g := by
  unfold State.compl
  rw [State.g_congr h]

theorem State.heldOff_congr {s t : State} (hg : t.grp = s.grp) (hr : t.core.railOv = s.core.railOv) (g : Group) :
    t.heldOff g = s.heldOff g := by
  simp only [State.heldOff, State.ctrl_congr hg, hr]

theorem State.deadTime_congr {s t : State} (hv : t.variant = s.variant) (hg : t.grp = s.grp) (hw : t.core.words = s.core.words)
    (g : Group) (l : Level) : t.deadTime g l = s.deadTime g l := by
  have hword : ∀ id, t.word id = s.word id := fun id => congrArg (Store.read (fun _ => 0) · id) hw
  have hlock : t.servoLock = s.servoLock := by
    unfold State.servoLock
    rw [State.groups_congr hv, funext (State.g_congr hg)]
  unfold State.deadTime State.edgeDead
  rw [hlock, hword, State.groups_congr hv, funext hword]

/-- A dead time is never below 10 ns (R90). -/
theorem State.deadTime_ge (s : State) (g : Group) (l : Level) : 40 ≤ s.deadTime g l := by
  have hmax : ∀ (f : Group → Nat) (gs : List Group) (n : Nat), n ≤ gs.foldl (fun n x => max n (f x)) n := by
    intro f gs
    induction gs with
    | nil => exact fun n => le_rfl
    | cons x gs ih => exact fun n => (le_max_left _ _).trans (ih _)
  unfold State.deadTime
  split
  · exact le_max_left _ _
  · exact hmax (fun x => max (field (s.word (36 + x.num)) 7 0) (field (s.word (36 + x.num)) 15 8)) _ 40

@[simp] theorem Phase.toZ_level (x : Phase) (n : Nat) : (x.toZ n).level = .Z := rfl
@[simp] theorem Phase.toZ_on (x : Phase) (n : Nat) : (x.toZ n).on = false := rfl

/-! ### The controlled switch turns on (R89) -/

/-- The phase at the moment of its turn-on: the complementary switch, where it still conducts, ends now. -/
def State.freed (s : State) (p : Nat) : State :=
  if (s.phase p).level = s.compl (groupOf p) then s.modP p fun x => x.toZ s.now else s

theorem State.turnOn_eq (s : State) (p : Nat) : s.turnOn p = (s.freed p).modP p fun x => { x with
    on := true, dead := (s.freed p).deadLeft p
    due := if (s.freed p).deadLeft p = 0 then .Z else (s.freed p).ctrl (groupOf p)
    level := if (s.freed p).deadLeft p = 0 then (s.freed p).ctrl (groupOf p) else .Z } := rfl

theorem State.freed_parts (s : State) (p : Nat) : Fr 0x80 s (s.freed p) :=
  Fr.ite (State.modP_parts _ _ rfl (Fr.refl _ s)) (Fr.refl _ s)

/-- Where the complementary switch conducts, the whole of its dead time is still to stand. -/
theorem State.freed_deadLeft {s : State} {p : Nat} (hp : p < 16) (h : (s.phase p).level = s.compl (groupOf p)) :
    (s.freed p).deadLeft p = s.deadTime (groupOf p) (s.compl (groupOf p)) := by
  have hfreed : s.freed p = s.modP p fun x => x.toZ s.now := if_pos h
  have hoff : ((s.freed p).phase p).offAt = some s.now := by
    rw [hfreed, State.phase_modP_same _ _ hp, Phase.toZ, h]
    exact if_neg (s.compl_ne_Z _)
  have hf := s.freed_parts p
  unfold State.deadLeft
  rw [hoff, State.compl_congr (hf.grp rfl), State.deadTime_congr (State.variant_congr (State.obj_congr (hf.objs rfl) _)) (hf.grp rfl)
    (by rw [hf.core rfl]), hf.now rfl]
  simp

/-- What the turn-on leaves of a phase's field that neither the turn-on nor an end of its switches touches. -/
theorem State.turnOn_field {α : Type} (F : Phase → α) (hz : ∀ x n, F (Phase.toZ x n) = F x)
    (hf : ∀ (x : Phase) a b c, F { x with on := true, dead := a, due := b, level := c } = F x) (s : State) {p : Nat} (hp : p < 16) :
    F ((s.turnOn p).phase p) = F (s.phase p) := by
  rw [State.turnOn_eq, State.phase_modP_same _ _ hp, hf]
  unfold State.freed
  split
  · rw [State.phase_modP_same _ _ hp, hz]
  · rfl

theorem State.turnOn_other (s : State) {p q : Nat} (hq : q ≠ p) : (s.turnOn p).phase q = s.phase q := by
  rw [State.turnOn_eq, State.phase_modP_other _ _ hq]
  unfold State.freed
  split
  · exact s.phase_modP_other _ hq
  · rfl

/-- The controlled switch turns on at once or, for the dead time that is left, through Z. -/
theorem State.turnOn_level (s : State) {p : Nat} (hp : p < 16) :
    ((s.turnOn p).phase p).on = true ∧
    ((((s.turnOn p).phase p).level = s.ctrl (groupOf p) ∧ ((s.turnOn p).phase p).dead = 0) ∨
      (((s.turnOn p).phase p).level = .Z ∧ 0 < ((s.turnOn p).phase p).dead ∧ ((s.turnOn p).phase p).due = s.ctrl (groupOf p))) ∧
    ((s.phase p).level = s.compl (groupOf p) → ((s.turnOn p).phase p).level = .Z ∧
      ((s.turnOn p).phase p).dead = s.deadTime (groupOf p) (s.compl (groupOf p))) := by
  rw [State.turnOn_eq, State.phase_modP_same _ _ hp, State.ctrl_congr ((s.freed_parts p).grp rfl)]
  refine ⟨rfl, ?_, fun h => ?_⟩
  · by_cases hn : (s.freed p).deadLeft p = 0
    · exact .inl ⟨if_pos hn, hn⟩
    · exact .inr ⟨if_neg hn, Nat.pos_of_ne_zero hn, if_neg hn⟩
  · have hn := State.freed_deadLeft hp h
    have hpos := s.deadTime_ge (groupOf p) (s.compl (groupOf p))
    exact ⟨if_neg (by omega), hn⟩

/-! ### A start instant (R91, R122, R454) -/

/-- The cycle before is over: the phase's 60 A run and its condition end where it had none in that cycle. -/
def State.cycleBegun (s : State) (p : Nat) : State :=
  let y := s.modP p fun x => { x with
    cut := false, peakRun := if !(s.phase p).cut then 0 else x.peakRun, left := s.cycleTime (groupOf p) }
  if !(s.phase p).cut then y.coreClearI 1 1 p else y

/-- The new cycle: skipped, held off, or with the controlled switch on. -/
def State.cycleStarted (s : State) (p : Nat) : State :=
  if (s.phase p).skip then s.modP p fun x => { x with skip := false, blankHits := 0 }.toZ s.now
  else if s.heldOff (groupOf p) then s.modP p fun x => x.toZ s.now
  else s.turnOn p

theorem exec_phaseCycleStart {s : State} {p : Fin 16} (h : s.switching p.val = true) :
    exec (.phaseCycleStart p) s = .next ((s.cycleBegun p).cycleStarted p) := by
  have hexec : exec (.phaseCycleStart p) s = execPhaseCycleStart p s := rfl
  rw [hexec, execPhaseCycleStart, if_pos h]
  rfl

theorem State.cycleBegun_told (s : State) (p : Nat) : Told (s.modP p fun x => { x with
    cut := false, peakRun := if !(s.phase p).cut then 0 else x.peakRun, left := s.cycleTime (groupOf p) }) (s.cycleBegun p) :=
  Told.ite (State.coreClearI_told _ _ _ _) (Told.refl _)

theorem State.cycleBegun_phase (s : State) {p : Nat} (hp : p < 16) : (s.cycleBegun p).phase p = { s.phase p with
    cut := false, peakRun := if !(s.phase p).cut then 0 else (s.phase p).peakRun, left := s.cycleTime (groupOf p) } := by
  rw [(s.cycleBegun_told p).phase, State.phase_modP_same _ _ hp]

/-- What a start leaves of the cycle just begun, whichever way it starts. -/
theorem State.cycleStarted_keeps (s : State) {p : Nat} (hp : p < 16) : ((s.cycleStarted p).phase p).cut = (s.phase p).cut ∧
    ((s.cycleStarted p).phase p).left = (s.phase p).left ∧ ((s.cycleStarted p).phase p).peakRun = (s.phase p).peakRun ∧
    (s.cycleStarted p).core = s.core ∧ ∀ q, q ≠ p → (s.cycleStarted p).phase q = s.phase q := by
  unfold State.cycleStarted
  split_ifs
  · rw [State.phase_modP_same _ _ hp]
    exact ⟨rfl, rfl, rfl, rfl, fun q hq => s.phase_modP_other _ hq⟩
  · rw [State.phase_modP_same _ _ hp]
    exact ⟨rfl, rfl, rfl, rfl, fun q hq => s.phase_modP_other _ hq⟩
  · exact ⟨s.turnOn_field Phase.cut (fun _ _ => rfl) (fun _ _ _ _ => rfl) hp, s.turnOn_field Phase.left (fun _ _ => rfl) (fun _ _ _ _ => rfl) hp,
      s.turnOn_field Phase.peakRun (fun _ _ => rfl) (fun _ _ _ _ => rfl) hp, (State.turnOn_parts (p := 0x80) p rfl (Fr.refl _ s)).core rfl,
      fun q hq => s.turnOn_other hq⟩

/-- A skipped start, or one held off, leaves the phase at Z for the cycle. -/
theorem State.cycleStarted_off {s : State} {p : Nat} (hp : p < 16) (h : (s.phase p).skip = true ∨ s.heldOff (groupOf p) = true) :
    ((s.cycleStarted p).phase p).on = false ∧ ((s.cycleStarted p).phase p).level = .Z ∧ ((s.cycleStarted p).phase p).skip = false := by
  unfold State.cycleStarted
  by_cases hskip : (s.phase p).skip = true
  · rw [if_pos hskip, State.phase_modP_same _ _ hp]
    exact ⟨rfl, rfl, rfl⟩
  · rw [if_neg hskip, if_pos (h.resolve_left hskip), State.phase_modP_same _ _ hp]
    exact ⟨rfl, rfl, eq_false_of_ne_true hskip⟩

theorem State.cycleStarted_on {s : State} {p : Nat} (hskip : (s.phase p).skip = false) (hheld : s.heldOff (groupOf p) = false) :
    s.cycleStarted p = s.turnOn p := by
  rw [State.cycleStarted, hskip, hheld, if_neg Bool.false_ne_true, if_neg Bool.false_ne_true]

/-! ### The end of the controlled switch (R89, R103, R167, R454) -/

theorem State.terminate_phase (s : State) {p : Nat} (hp : p < 16) : (s.terminate p).phase p =
    if (s.phase p).cut then (s.phase p).toZ s.now
    else { (s.phase p).toZ s.now with dead := s.deadTime (groupOf p) (s.ctrl (groupOf p)), due := s.compl (groupOf p) } := by
  unfold State.terminate
  rw [State.phase_modP_same _ _ hp, State.phase_modP_same _ _ hp]
  rfl

theorem State.terminate_other (s : State) {p q : Nat} (hq : q ≠ p) : (s.terminate p).phase q = s.phase q := by
  unfold State.terminate
  rw [State.phase_modP_other _ _ hq, State.phase_modP_other _ _ hq]

/-- The switch off for the rest of the cycle, with the complementary one due after the dead time; `f` is what the end notes of blanking. -/
theorem State.terminate_noted (s : State) {p : Nat} (hp : p < 16) {f : Phase → Phase}
    (hf : ∀ x, (f x).on = x.on ∧ (f x).level = x.level ∧ (f x).due = x.due ∧ (f x).dead = x.dead) :
    (((s.terminate p).modP p f).phase p).on = false ∧ (((s.terminate p).modP p f).phase p).level = .Z ∧
    ((s.phase p).cut = false → (((s.terminate p).modP p f).phase p).due = s.compl (groupOf p) ∧
      (((s.terminate p).modP p f).phase p).dead = s.deadTime (groupOf p) (s.ctrl (groupOf p))) ∧
    (∀ q, q ≠ p → ((s.terminate p).modP p f).phase q = s.phase q) := by
  rw [State.phase_modP_same _ _ hp]
  obtain ⟨hon, hlevel, hdue, hdead⟩ := hf ((s.terminate p).phase p)
  rw [hon, hlevel, hdue, hdead, s.terminate_phase hp]
  refine ⟨?_, ?_, fun hcut => ?_, fun q hq => (State.phase_modP_other _ _ hq).trans (s.terminate_other hq)⟩
  · split <;> rfl
  · split <;> rfl
  · rw [hcut, if_neg Bool.false_ne_true]
    exact ⟨rfl, rfl⟩

/-- What the end of a controlled switch notes of blanking: whether the condition still held at its end, and a second time in a row (R454). -/
def Phase.blankNoted (x : Phase) (atEnd : Bool) : Phase :=
  if atEnd then { x with blankHits := if x.blankHits = 0 then 1 else 0, skip := x.skip || x.blankHits != 0 } else { x with blankHits := 0 }

@[simp] theorem Phase.blankNoted_on (x : Phase) (b : Bool) : (x.blankNoted b).on = x.on := by cases b <;> rfl
@[simp] theorem Phase.blankNoted_level (x : Phase) (b : Bool) : (x.blankNoted b).level = x.level := by cases b <;> rfl
@[simp] theorem Phase.blankNoted_due (x : Phase) (b : Bool) : (x.blankNoted b).due = x.due := by cases b <;> rfl
@[simp] theorem Phase.blankNoted_dead (x : Phase) (b : Bool) : (x.blankNoted b).dead = x.dead := by cases b <;> rfl

theorem Phase.blankNoted_hits (x : Phase) (b : Bool) : (x.blankNoted b).blankHits = if b = true ∧ x.blankHits = 0 then 1 else 0 := by
  cases b <;> simp [Phase.blankNoted]
theorem Phase.blankNoted_skip (x : Phase) (b : Bool) : (x.blankNoted b).skip = (x.skip || (b && x.blankHits != 0)) := by
  cases b <;> simp [Phase.blankNoted]

/-- The blanking time of a group, ns (R103). -/
def State.blankTime (s : State) (g : Group) : Nat := 5 * field (s.word (36 + g.num)) 21 16

/-- A comparator event while the controlled switch conducts: inside blanking, and below the peak command, nothing is acted on. -/
theorem exec_currentTermination_on {s : State} {p : Fin 16} (isns : Int) (ns : Nat) (h : s.switching p.val = true)
    (hon : (s.phase p.val).on = true) : exec (.currentTermination p isns ns) s = .next (
      if ns < s.blankTime (groupOf p.val) || s.sensed p.val isns < s.threshold p.val ns then s
      else (s.terminate p.val).modP p.val (Phase.blankNoted · (ns == s.blankTime (groupOf p.val)))) := by
  have hexec : exec (.currentTermination p isns ns) s = execCurrentTermination p isns ns s := rfl
  rw [hexec, execCurrentTermination]
  dsimp only
  rw [h, Bool.not_true, if_neg Bool.false_ne_true, if_pos hon, ← State.blankTime]
  by_cases hns : ns = s.blankTime (groupOf p.val)
  · rw [if_pos hns, beq_iff_eq.mpr hns]
    rfl
  · rw [if_neg hns, beq_eq_false_iff_ne.mpr hns]
    rfl

/-- With the controlled switch off, a zero crossing ends the complementary one in soft-start (R167). -/
theorem exec_currentTermination_zero {s : State} {p : Fin 16} {isns : Int} {ns : Nat} (h : s.switching p.val = true)
    (hon : (s.phase p.val).on = false) (hdiode : (s.g (groupOf p.val)).diode = true) (hzero : s.sensed p.val isns ≤ 0) :
    exec (.currentTermination p isns ns) s = .next (s.modP p.val fun x => x.toZ s.now) := by
  have hexec : exec (.currentTermination p isns ns) s = execCurrentTermination p isns ns s := rfl
  rw [hexec, execCurrentTermination]
  dsimp only
  rw [h, hon, hdiode, if_neg (by simp), if_neg Bool.false_ne_true, if_pos (by simpa using hzero)]

theorem exec_maxOnTimeEnd {s : State} {p : Fin 16} (h : s.switching p.val = true) (hon : (s.phase p.val).on = true) :
    exec (.maxOnTimeEnd p) s = .next ((s.terminate p.val).modP p.val (Phase.blankNoted · false)) := by
  have hexec : exec (.maxOnTimeEnd p) s = execMaxOnTimeEnd p s := rfl
  rw [hexec, execMaxOnTimeEnd, h, hon, Bool.and_self, if_pos rfl]
  rfl

/-- Settles O20: a start instant closes the cycle before and opens the next, at once, through Z or not at all; an end of the controlled
switch puts the phase at Z with the complementary one due; feedforward is one update of its group. -/
theorem phaseCycleAndFeedforward : Obligations.PhaseCycleAndFeedforward := by
  refine ⟨fun p s hsw => ?_, fun p isns ns s hsw => ⟨fun hon hblank hpeak => ?_, fun hon hact => ?_,
    fun hon hdiode hzero => ?_⟩, fun p s hsw hon => ?_, fun g iff s => ?_⟩
  · have hp := p.isLt
    have hexec := exec_phaseCycleStart hsw
    have htold := s.cycleBegun_told p.val
    have hbegun := s.cycleBegun_phase hp
    obtain ⟨hcut, hleft, hrun, hcore, hother⟩ := (s.cycleBegun p.val).cycleStarted_keeps hp
    have hgrp : (s.cycleBegun p.val).grp = s.grp := htold.grp
    have hheld : (s.cycleBegun p.val).heldOff = s.heldOff := funext (State.heldOff_congr hgrp htold.railOv)
    refine ⟨_, hexec, by rw [hcut, hbegun], by rw [hleft, hbegun], fun hoff => ?_, fun hskip hfree => ?_, fun hc => ⟨?_, ?_⟩,
      fun hc => ⟨?_, ?_⟩, fun q hq => ?_, (execPhaseCycleStart_parts p hexec).only (by decide)⟩
    · exact State.cycleStarted_off hp (by rwa [hbegun, hheld])
    · rw [State.cycleStarted_on (by rwa [hbegun]) (by rwa [hheld])]
      have hon := (s.cycleBegun p.val).turnOn_level hp
      rw [State.ctrl_congr hgrp, State.compl_congr hgrp, State.deadTime_congr htold.variant hgrp htold.words, hbegun] at hon
      exact hon
    · rw [hrun, hbegun, hc]
      rfl
    · rw [hcore, State.cycleBegun, hc]
      exact State.coreClearI_cleared _ 1 1 (by omega)
    · rw [hrun, hbegun, hc]
      rfl
    · rw [hcore, State.cycleBegun, hc]
      rfl
    · rw [hother q hq, htold.phase, State.phase_modP_other _ _ hq]
  · have hexec := exec_currentTermination_on isns ns hsw hon
    rw [if_neg (by simpa using ⟨hblank, hpeak⟩)] at hexec
    obtain ⟨hoff, hlevel, hdue, hother⟩ := s.terminate_noted p.isLt
      (f := (Phase.blankNoted · (ns == s.blankTime (groupOf p.val)))) fun x => ⟨by simp, by simp, by simp, by simp⟩
    have hblankHits : ((s.terminate p.val).phase p.val).blankHits = (s.phase p.val).blankHits := by
      rw [s.terminate_phase p.isLt]
      split <;> rfl
    have hskip : ((s.terminate p.val).phase p.val).skip = (s.phase p.val).skip := by
      rw [s.terminate_phase p.isLt]
      split <;> rfl
    refine ⟨_, hexec, hoff, hlevel, hdue, ?_, ?_, hother, (execCurrentTermination_parts p isns ns hexec).only (by decide)⟩
    · rw [State.phase_modP_same _ _ p.isLt, Phase.blankNoted_hits, hblankHits]
      simp only [beq_iff_eq]
      rfl
    · rw [State.phase_modP_same _ _ p.isLt, Phase.blankNoted_skip, hblankHits, hskip]
      rfl
  · have hact : ns < s.blankTime (groupOf p.val) ∨ s.sensed p.val isns < s.threshold p.val ns := hact
    rw [exec_currentTermination_on isns ns hsw hon, if_pos (by simpa using hact)]
  · have hexec := exec_currentTermination_zero (ns := ns) hsw hon hdiode hzero
    refine ⟨_, hexec, ?_, ?_, fun q hq => s.phase_modP_other _ hq, (execCurrentTermination_parts p isns ns hexec).only (by decide)⟩
    · rw [State.phase_modP_same _ _ p.isLt, Phase.toZ_level]
    · rw [State.phase_modP_same _ _ p.isLt, Phase.toZ_on]
  · have hexec := exec_maxOnTimeEnd hsw hon
    obtain ⟨hoff, hlevel, hdue, hother⟩ := s.terminate_noted p.isLt (f := (Phase.blankNoted · false)) fun x => ⟨rfl, rfl, rfl, rfl⟩
    refine ⟨_, hexec, hoff, ?_, hlevel, hdue, hother, (execMaxOnTimeEnd_parts p hexec).only (by decide)⟩
    rw [State.phase_modP_same _ _ p.isLt]
    rfl
  · have hexec : exec (.feedforwardUpdate g iff) s = .next (s.feedforward g (if s.ffMode then iff else 0)) := rfl
    refine ⟨_, hexec, ?_, ?_, fun h hne => s.g_modG_other _ hne, (execFeedforwardUpdate_parts g iff hexec).only (by decide)⟩
    · rw [State.feedforward, State.g_modG_same]
      cases s.ffMode <;> simp
    · rw [State.feedforward, State.g_modG_same]

end Sys2Proof.Machine
end

section
/-!
PROOFS. Hardwired protections, servos and the speed monitor (O21).
-/
namespace Sys2Proof.Machine

/-! ### Outputs at Z (R119) -/

theorem State.pwm_of_level {s : State} {p : Nat} (h : (s.phase p).level = .Z) : s.pwm p = .Z := by
  unfold State.pwm
  dsimp only
  split_ifs <;> first | rfl | exact h

theorem State.pwm_of_latched {s : State} {p : Nat} (h : (s.phase p).code = 5) : s.pwm p = .Z := by
  unfold State.pwm
  simp only [h, decide_true, Bool.true_or, if_true, ite_self]

theorem State.pwm_of_stopped {s : State} {p : Nat} (h : (s.g (groupOf p)).stops ≠ 0) : s.pwm p = .Z := by
  unfold State.pwm
  simp only [bne_iff_ne.mpr h, Bool.or_true, if_true, ite_self]

/-! ### Latched phases (R122, R123) -/

theorem Told.modP {s t : State} (h : Told s t) (p : Nat) (f : Phase → Phase) : Told (s.modP p f) (t.modP p f) := by
  refine ⟨?_, h.objs⟩
  unfold State.modP
  rw [h.phase, h.ph]
  conv_lhs => rw [h.eq]

/-- The phase latched at Z. -/
def Phase.shut (x : Phase) (now : Nat) : Phase := { x with code := 5, weight := 0, latched := true }.toZ now

/-- The group of a phase that leaves its set, where the phase had a weight. -/
def State.leaving (s : State) (p : Nat) : State := if (s.phase p).weight = 0 then s else s.setChanged (groupOf p)

theorem State.leaving_phase (s : State) (p q : Nat) : (s.leaving p).phase q = s.phase q := by
  unfold State.leaving
  split <;> rfl

theorem State.leaving_now (s : State) (p : Nat) : (s.leaving p).now = s.now := by
  unfold State.leaving
  split <;> rfl

theorem State.latchPhase_eq (s : State) (p : Nat) : s.latchPhase p = (s.leaving p).modP p (Phase.shut · (s.leaving p).now) := rfl

theorem State.latchPhase_phase (s : State) {p : Nat} (hp : p < 16) : (s.latchPhase p).phase p = (s.phase p).shut s.now := by
  rw [State.latchPhase_eq, State.phase_modP_same _ _ hp, State.leaving_phase, State.leaving_now]

theorem State.latchPhase_other (s : State) {p q : Nat} (hq : q ≠ p) : (s.latchPhase p).phase q = s.phase q := by
  rw [State.latchPhase_eq, State.phase_modP_other _ _ hq, State.leaving_phase]

theorem State.latchPhase_frozen {s : State} {p : Nat} (h : (s.phase p).weight ≠ 0) : ((s.latchPhase p).g (groupOf p)).frozenLeft = 16 := by
  rw [State.latchPhase_eq, State.g_modP, State.leaving, if_neg h, State.setChanged, State.g_modG_same]

/-! ### A current peak (R122, R124) -/

/-- A report of a peak notes its time and its count in the phase. -/
theorem State.reportPeak_noted (s : State) (p : Nat) : ∃ f : Phase → Phase, (∀ x, ∃ a n, f x = { x with peakAt := a, peaks := n }) ∧
    Told (s.modP p f) (s.reportPeak p) := by
  unfold State.reportPeak
  split
  · exact ⟨fun x => { x with peakAt := some s.now, peaks := 0 }, fun x => ⟨_, _, rfl⟩,
      ((Told.of_reports (s.ev_reports _ _ _)).modP p _).trans (Told.ite (State.coreSend_told _ _) (State.coreRaiseC_told _ _ _ _))⟩
  · exact ⟨fun x => { x with peaks := satInc 65535 x.peaks }, fun x => ⟨_, _, rfl⟩, State.again_told _ _ _⟩

/-- The phase after a current peak: at Z for the cycle, and latched after the third in a row. -/
def Phase.peaked (x : Phase) (now : Nat) (at_ : Option Nat) (n : Nat) : Phase :=
  let y := { x with peakRun := x.peakRun + 1, cut := true, peakAt := at_, peaks := n }.toZ now
  if 2 ≤ x.peakRun then y.shut now else y

section
variable (x : Phase) (now : Nat) (at_ : Option Nat) (n : Nat)

theorem Phase.peaked_on : (x.peaked now at_ n).on = false := by
  unfold Phase.peaked
  split <;> rfl
theorem Phase.peaked_level : (x.peaked now at_ n).level = .Z := by
  unfold Phase.peaked
  split <;> rfl
theorem Phase.peaked_cut : (x.peaked now at_ n).cut = true := by
  unfold Phase.peaked
  split <;> rfl
theorem Phase.peaked_run : (x.peaked now at_ n).peakRun = x.peakRun + 1 := by
  unfold Phase.peaked
  split <;> rfl

end

theorem State.phasePeak_phase (s : State) {p : Nat} (hp : p < 16) :
    (∃ a n, (s.phasePeak p).phase p = (s.phase p).peaked s.now a n) ∧ (∀ q, q ≠ p → (s.phasePeak p).phase q = s.phase q) ∧
      ((s.phase p).peakRun < 2 → (s.phasePeak p).grp = s.grp) := by
  let y := s.modP p fun x => { x with peakRun := (s.phase p).peakRun + 1, cut := true }.toZ s.now
  obtain ⟨f, hf, htold⟩ := y.reportPeak_noted p
  obtain ⟨a, n, hnote⟩ := hf (y.phase p)
  have hy : y.phase p = { s.phase p with peakRun := (s.phase p).peakRun + 1, cut := true }.toZ s.now := s.phase_modP_same _ hp
  have hmid : (y.reportPeak p).phase p = { s.phase p with peakRun := (s.phase p).peakRun + 1, cut := true, peakAt := a, peaks := n }.toZ s.now := by
    rw [htold.phase, State.phase_modP_same _ _ hp, hnote, hy]
    rfl
  have hother : ∀ q, q ≠ p → (y.reportPeak p).phase q = s.phase q := fun q hq => by
    rw [htold.phase, State.phase_modP_other _ _ hq, State.phase_modP_other _ _ hq]
  have heq : s.phasePeak p = if 3 ≤ (s.phase p).peakRun + 1 then ((y.reportPeak p).latchPhase p).coreRaiseC 1 2 p else y.reportPeak p := rfl
  rw [heq]
  unfold Phase.peaked
  by_cases h3 : 2 ≤ (s.phase p).peakRun
  · rw [if_pos (Nat.succ_le_succ h3)]
    have hraise := State.coreRaiseC_told ((y.reportPeak p).latchPhase p) 1 2 p
    refine ⟨⟨a, n, ?_⟩, fun q hq => ?_, fun h => absurd h3 (by omega)⟩
    · rw [hraise.phase, State.latchPhase_phase _ hp, hmid, htold.now, if_pos h3]
      rfl
    · rw [hraise.phase, State.latchPhase_other _ hq, hother q hq]
  · rw [if_neg fun h => h3 (Nat.le_of_succ_le_succ h)]
    exact ⟨⟨a, n, by rw [hmid, if_neg h3]⟩, hother, fun _ => htold.grp⟩

theorem exec_phasePeak {s : State} {p : Fin 16} (hsw : s.switching p.val = true) (hcut : (s.phase p.val).cut = false) :
    exec (.phasePeak p) s = .next (s.logged (State.phasePeak · p.val)) := by
  have hexec : exec (.phasePeak p) s = execPhasePeak p s := rfl
  rw [hexec, execPhasePeak, State.logged, hsw, hcut, Bool.not_false, Bool.and_self, if_pos rfl]
  rfl

theorem exec_stageFault {s : State} {p : Fin 16} (hph : (s.phasesOf (groupOf p.val)).contains p.val = true) (hpor : s.aon.por = false)
    (hcode : (s.phase p.val).code ≠ 5) : exec (.stageFault p) s = .next (s.logged fun s => (s.latchPhase p.val).coreRaiseC 1 3 p.val) := by
  have hexec : exec (.stageFault p) s = execStageFault p s := rfl
  rw [hexec, execStageFault, State.logged, hph, hpor, bne_iff_ne.mpr hcode, Bool.not_false, Bool.and_self, Bool.and_self, if_pos rfl]
  rfl

/-! ### Stops of a group -/

@[simp] theorem State.g_stopG_same (s : State) (g : Group) (n : Nat) :
    (s.stopG g n).g g = { s.g g with stops := setBit (s.g g).stops n true } := by
  unfold State.stopG
  rw [State.g_modPs, State.g_modG_same]

theorem State.g_stopG_other (s : State) {g h : Group} (n : Nat) (hne : h ≠ g) : (s.stopG g n).g h = s.g h := by
  unfold State.stopG
  rw [State.g_modPs, State.g_modG_other _ _ hne]

@[simp] theorem State.stops_freeG_same (s : State) (g : Group) (n : Nat) : ((s.freeG g n).g g).stops = setBit (s.g g).stops n false := by
  unfold State.freeG
  rw [State.g_modG_same]

/-! ### DISC_GATE (R31, R122, R204) -/

theorem State.gateOpen_disc (s : State) : s.gateOpen.core.disc = false := by
  unfold State.gateOpen
  split
  · rfl
  · simpa using ‹¬ s.core.disc = true›

theorem State.discOn_cases (s : State) (vbus vrail : Nat) : s.discOn vbus vrail = s ∨
    ∃ y : State, y.grp = (s.stopG .input 8).grp ∧ y.core.railOv = s.core.railOv ∧ s.discOn vbus vrail = y.freeG .input 0 := by
  unfold State.discOn
  split
  · exact .inl rfl
  · refine .inr ⟨_, ?_, ?_, rfl⟩
    · rfl
    · rfl

theorem State.discDone_stops (s : State) {n : Nat} (hn : n ≠ 8) : bit (s.discDone.g .input).stops n = bit (s.g .input).stops n := by
  unfold State.discDone
  split
  · rw [State.stops_freeG_same, bit_setBit_other _ _ hn]
  · rfl

/-- A turn-on of DISC_GATE touches the stops of a drop and of a precharge alone, and no over-voltage. -/
theorem State.gateBack_stops (s : State) (vbus vrail : Nat) {n : Nat} (h0 : n ≠ 0) (h8 : n ≠ 8) :
    bit ((s.gateBack vbus vrail).g .input).stops n = bit (s.g .input).stops n ∧ (s.gateBack vbus vrail).core.railOv = s.core.railOv := by
  unfold State.gateBack
  split
  case isFalse => exact ⟨rfl, rfl⟩
  case isTrue =>
    have hdone : (s.discOn vbus vrail).discDone.core = (s.discOn vbus vrail).core :=
      (State.discDone_parts (p := 0x40) rfl (Fr.refl _ _)).core rfl
    rw [State.discDone_stops _ h8, hdone]
    rcases s.discOn_cases vbus vrail with h | ⟨y, hgrp, hov, h⟩
    · rw [h]
      exact ⟨rfl, rfl⟩
    · rw [h, State.stops_freeG_same, bit_setBit_other _ _ h0, State.g_congr hgrp, State.g_stopG_same]
      exact ⟨bit_setBit_other _ _ h8, hov⟩

/-! ### A rail over-voltage (R122) -/

/-- The boost direction of a group held off: the controlled switches that conduct end. -/
def State.cutBoost (s : State) (g : Group) : State :=
  if s.heldOff g then s.modPs ((s.phasesOf g).filter fun p => (s.phase p).on) fun x => x.toZ s.now else s

theorem State.cutBoost_parts (s : State) (g : Group) : Fr 0x80 s (s.cutBoost g) :=
  Fr.ite (State.modPs_parts _ _ rfl (Fr.refl _ s)) (Fr.refl _ s)

theorem State.cutBoost_keepsOff {s : State} (g : Group) {p : Nat} (h : (s.phase p).on = false) : ((s.cutBoost g).phase p).on = false := by
  unfold State.cutBoost
  split
  · rw [State.phase_modPs_other _ _ (by simp [h])]
    exact h
  · exact h

theorem State.cutBoost_off {s : State} {g : Group} {p : Nat} (hg : s.heldOff g = true) (hp : p ∈ s.phasesOf g) :
    ((s.cutBoost g).phase p).on = false := by
  by_cases hon : (s.phase p).on = true
  · rw [State.cutBoost, if_pos hg]
    exact State.phase_modPs_holds s (P := fun x => x.on = false) (fun x => rfl) (List.mem_filter.mpr ⟨hp, hon⟩) (State.mem_phasesOf hp).1
  · exact State.cutBoost_keepsOff g (eq_false_of_ne_true hon)

/-- Every boost direction of the listed groups is off, and stays off. -/
theorem State.foldl_cutBoost_off {g : Group} {p : Nat} (gs : List Group) {s : State} (h : (s.phase p).on = false ∨
    (g ∈ gs ∧ s.heldOff g = true ∧ p ∈ s.phasesOf g)) : ((gs.foldl State.cutBoost s).phase p).on = false := by
  induction gs generalizing s with
  | nil => exact h.resolve_right fun h => List.not_mem_nil h.1
  | cons x gs ih =>
    refine ih ?_
    have hx := s.cutBoost_parts x
    rcases h with hoff | ⟨hmem, hheld, hp⟩
    · exact .inl (State.cutBoost_keepsOff x hoff)
    · rcases List.mem_cons.mp hmem with rfl | hmem
      · exact .inl (State.cutBoost_off hheld hp)
      · refine .inr ⟨hmem, ?_, ?_⟩
        · rw [State.heldOff_congr (hx.grp rfl) (by rw [hx.core rfl])]
          exact hheld
        · rw [State.phasesOf_congr (State.variant_congr (State.obj_congr (hx.objs rfl) _))]
          exact hp

/-- The input group stopped for a rail over-voltage, at its stage `n`. -/
def State.railStop (s : State) (n : Nat) : State := { (s.stopG .input 5) with core := { s.core with railOv := n } }

/-- A rail over-voltage at its stage `n`: the input group stopped, the boost directions off. -/
def State.railRise (s : State) (n : Nat) : State := (s.railStop n).groups.foldl State.cutBoost (s.railStop n)

theorem State.railStop_objs (s : State) (n : Nat) : (s.railStop n).objs = s.objs :=
  (State.stopG_parts (p := 0xc0) .input 5 rfl (Fr.refl _ s)).objs rfl

theorem State.railStop_variant (s : State) (n : Nat) : (s.railStop n).variant = s.variant :=
  State.variant_congr (State.obj_congr (s.railStop_objs n) _)

theorem State.railStop_deliver (s : State) (n : Nat) (g : Group) : ((s.railStop n).g g).deliver = (s.g g).deliver := by
  change ((s.stopG .input 5).g g).deliver = _
  unfold State.stopG
  rw [State.g_modPs]
  exact s.g_modG_field GroupSt.deliver .input g fun _ => rfl

theorem State.railStop_stops (s : State) (n : Nat) : ((s.railStop n).g .input).stops = setBit (s.g .input).stops 5 true :=
  congrArg GroupSt.stops (s.g_stopG_same .input 5)

theorem State.railRise_parts (s : State) (n : Nat) : Fr 0x80 (s.railStop n) (s.railRise n) :=
  Fr.foldl _ (Fr.refl _ _) fun y g hy => hy.trans (y.cutBoost_parts g)

theorem State.railRise_off {s : State} {n : Nat} (hn : n = 1 ∨ n = 2) {g : Group} (hg : g ∈ s.groups) (hctrl : s.ctrl g = .L) {p : Nat}
    (hp : p ∈ s.phasesOf g) : ((s.railRise n).phase p).on = false := by
  refine State.foldl_cutBoost_off (g := g) _ (.inr ⟨?_, ?_, ?_⟩)
  · rwa [State.groups_congr (s.railStop_variant n)]
  · have hov : (s.railStop n).core.railOv = n := rfl
    rw [State.heldOff, hov, State.ctrl_of_deliver (s.railStop_deliver n g), hctrl]
    rcases hn with rfl | rfl <;> rfl
  · rwa [State.phasesOf_congr (s.railStop_variant n)]

theorem exec_railOv {s : State} (h : s.core.railOv = 0 ∨ s.core.railOv = 3) (hconv : s.convOff = false) :
    exec .railOv s = .next (s.logDiff ((s.railRise (if s.core.railOv = 3 then 2 else 1)).coreRaiseC 1 4 0)) := by
  have hexec : exec .railOv s = execRailOv s := rfl
  rw [hexec, execRailOv, State.logged, if_pos ⟨h, by rw [hconv]; rfl⟩]
  rfl

theorem exec_railOvPersist {s : State} (h : s.core.railOv = 1) : exec .railOvPersist s =
    .next (s.logged fun s => ({ s.gateOpen with core := { s.gateOpen.core with railOv := 2 } } : State).coreRaiseC 1 5 0) := by
  have hexec : exec .railOvPersist s = execRailOvPersist s := rfl
  rw [hexec, execRailOvPersist, State.logged, if_pos h]
  rfl

/-! ### Its release -/

theorem State.railFree_stops (s : State) (g : Group) : (s.railFree.g g).stops = (s.g g).stops := by
  unfold State.railFree
  generalize s.groups = gs
  induction gs generalizing s with
  | nil => rfl
  | cons x gs ih =>
    refine (ih _).trans ?_
    dsimp only
    split
    · exact s.g_modG_field GroupSt.stops x g fun _ => rfl
    · rfl

theorem State.railFree_core (s : State) : s.railFree.core = s.core := (State.railFree_parts (p := 0x40) rfl (Fr.refl _ s)).core rfl

/-- The input group released from a rail over-voltage that is over. -/
def State.railFreed (s : State) : State := { (s.freeG .input 5) with core := { s.core with railOv := 0 } }

theorem State.railFreed_stops (s : State) : bit (s.railFreed.g .input).stops 5 = false :=
  (congrArg (bit · 5) (s.stops_freeG_same .input 5)).trans (bit_setBit_same _ _ _)

/-- The release of an over-voltage at its first stage. -/
def State.railFall (s : State) : State := s.railFreed.railFree.coreClearK 1 4

/-- What the release of a persisting over-voltage does first: at its second stage the boost directions are free again. -/
def State.boostFree (s : State) : State := if s.core.railOv = 2 then s.railFree.coreClearK 1 4 else s

theorem exec_railOvRelease_first {s : State} (held : Bool) (vbus vrail : Nat) (h : s.core.railOv = 1) :
    exec (.railOvRelease held vbus vrail) s = .next (s.logged State.railFall) := by
  have hexec : exec (.railOvRelease held vbus vrail) s = execRailOvRelease held vbus vrail s := rfl
  rw [hexec, execRailOvRelease, State.logged, h]
  rfl

theorem exec_railOvRelease_persisting {s : State} (held : Bool) (vbus vrail : Nat) (h0 : s.core.railOv ≠ 0) (h1 : s.core.railOv ≠ 1) :
    exec (.railOvRelease held vbus vrail) s = .next (s.logDiff (
      if held then (s.boostFree.railFreed.gateBack vbus vrail).coreClearK 1 5
      else { s.boostFree with core := { s.boostFree.core with railOv := 3 } })) := by
  have hexec : exec (.railOvRelease held vbus vrail) s = execRailOvRelease held vbus vrail s := rfl
  rw [hexec, execRailOvRelease, State.logged]
  split
  next h => exact absurd h h0
  next h => exact absurd h h1
  next => rfl

/-! ### The speed monitor (R106-R109) -/

/-- The speed index of a ring count (R106). -/
def State.speedIndex (s : State) (count : Nat) : Nat := min 65535 (if s.otpTypCount = 0 then 0 else count * 1000 / s.otpTypCount)

/-- The index, its latency estimate and its two minima (R106, R107, R109). -/
def State.speedKept (s : State) (index : Nat) : State :=
  let x := (s.set Obj.CORE_SPEED_INDEX index).set Obj.CORE_SPEED_LATENCY (if index = 0 then 65535 else min 65535 (700 * 1000 / index))
  let y := if index < x.obj Obj.CORE_SPEED_MIN then x.set Obj.CORE_SPEED_MIN index else x
  if index < y.obj Obj.CORE_SPEED_LIFE_MIN then y.put Obj.CORE_SPEED_LIFE_MIN index else y

/-- The two runs of R108 after one more update. -/
def State.speedRuns (s : State) (index : Nat) : SpeedSt :=
  ⟨runStep s.spd.slow (index < s.obj Obj.CORE_SLOW_LIMIT), runStep s.spd.very (index < 450)⟩

/-- An optional write of the lower of two values. -/
theorem State.obj_setMin (s : State) (k v j : Nat) : (if v < s.obj k then s.set k v else s).obj j = if j = k then min (s.obj k) v else s.obj j := by
  split
  next h =>
    rw [State.obj_set]
    split
    · exact (Nat.min_eq_right h.le).symm
    · rfl
  next h =>
    split
    next hj => rw [hj, Nat.min_eq_left (Nat.le_of_not_lt h)]
    next => rfl

theorem State.obj_putMin (s : State) {k j : Nat} (v : Nat) (hk : k ≠ Obj.OD_JOURNAL) (hj : j ≠ Obj.OD_JOURNAL) :
    (if v < s.obj k then s.put k v else s).obj j = if j = k then min (s.obj k) v else s.obj j := by
  rw [← State.obj_setMin]
  split
  · by_cases h : j = k
    · rw [h, State.obj_put_same _ _ hk, State.obj_set_same]
    · rw [State.obj_put_other _ _ h hj, State.obj_set_other _ _ h]
  · rfl

theorem State.obj_speedKept (s : State) (index : Nat) {j : Nat} (hj : j ≠ Obj.OD_JOURNAL) : (s.speedKept index).obj j =
    if j = Obj.CORE_SPEED_LIFE_MIN then min (s.obj Obj.CORE_SPEED_LIFE_MIN) index
    else if j = Obj.CORE_SPEED_MIN then min (s.obj Obj.CORE_SPEED_MIN) index
    else if j = Obj.CORE_SPEED_LATENCY then (if index = 0 then 65535 else min 65535 (700 * 1000 / index))
    else if j = Obj.CORE_SPEED_INDEX then index else s.obj j := by
  unfold State.speedKept
  dsimp only
  rw [State.obj_putMin _ _ (by decide) hj, State.obj_setMin, State.obj_setMin]
  simp only [State.obj_set]
  rfl

theorem State.speedKept_spd (s : State) (index : Nat) : (s.speedKept index).spd = s.spd := by
  unfold State.speedKept
  dsimp only
  split_ifs <;> simp

theorem State.speedUpdate_eq (s : State) (count : Nat) : s.speedUpdate count =
    (({ s.speedKept (s.speedIndex count) with spd := (s.speedKept (s.speedIndex count)).speedRuns (s.speedIndex count) } : State).speedKind 6
      (s.speedIndex count) ((s.speedKept (s.speedIndex count)).speedRuns (s.speedIndex count)).slow).speedKind 7 (s.speedIndex count)
      ((s.speedKept (s.speedIndex count)).speedRuns (s.speedIndex count)).very := by
  unfold State.speedUpdate State.speedKept State.speedRuns State.speedIndex
  with_reducible rfl

theorem State.speedRuns_speedKept (s : State) (index v : Nat) : (s.speedKept index).speedRuns v = s.speedRuns v := by
  unfold State.speedRuns
  rw [State.speedKept_spd, State.obj_speedKept _ _ (by decide)]
  rfl

theorem State.speedKind_reports (s : State) (kind index : Nat) (r : Run) : s.Reports (s.speedKind kind index r) :=
  State.Reports.ite (s.raise1_reports _ _ _) (State.Reports.ite (s.clearK_reports _ _) (State.Reports.refl s))

/-- Whether the speed is too low is only reported. -/
theorem State.speedUpdate_obj (s : State) (count : Nat) {k : Nat} (hk : k ≠ Obj.FAULT_LOST) :
    (s.speedUpdate count).obj k = (s.speedKept (s.speedIndex count)).obj k := by
  rw [State.speedUpdate_eq]
  generalize s.speedKept (s.speedIndex count) = y
  exact ((State.speedKind_reports _ 7 _ _).obj hk).trans ((State.speedKind_reports _ 6 _ _).obj hk)

theorem State.speedUpdate_spd (s : State) (count : Nat) : (s.speedUpdate count).spd = s.speedRuns (s.speedIndex count) := by
  rw [State.speedUpdate_eq, State.speedRuns_speedKept]
  generalize s.speedKept (s.speedIndex count) = y
  exact (((State.speedKind_reports _ 7 _ _).parts (p := 0x82010) rfl).spd rfl).trans
    (((State.speedKind_reports _ 6 _ _).parts (p := 0x82010) rfl).spd rfl)

theorem exec_coreSpeedUpdate {s : State} (count : Nat) (h : s.shellUp = true) :
    exec (.coreSpeedUpdate count) s = .next ((s.speedUpdate count).hzSpeed ((s.speedUpdate count).obj Obj.CORE_SPEED_INDEX)) := by
  have hexec : exec (.coreSpeedUpdate count) s = execCoreSpeedUpdate count s := rfl
  rw [hexec, execCoreSpeedUpdate, if_pos h]

/-- Settles O21: a peak and a stage fault are changes of one phase, a rail over-voltage one of the input group's stops and of the boost
directions, each with its report; the speed monitor writes its four objects and its two runs. -/
theorem protectionsAndServos : Obligations.ProtectionsAndServos := by
  refine ⟨fun p s hsw hcut => ?_, fun p s hph hpor hcode => ?_, fun s hov hconv => ?_, fun s hov => ?_,
    fun held vbus vrail s hov => ?_, fun vbus vrail s hov => ?_, fun g s hg hservo hpor => ?_, fun g s hservo => ?_, fun count s hup => ?_⟩
  · have hexec := exec_phasePeak hsw hcut
    obtain ⟨⟨a, n, hphase⟩, hother, hgrp⟩ := s.phasePeak_phase p.isLt
    have hlog := s.logged_told (State.phasePeak · p.val)
    have hx := (hlog.phase p.val).trans hphase
    have hlevel := (congrArg Phase.level hx).trans (Phase.peaked_level _ _ _ _)
    refine ⟨_, hexec, by rw [hx, Phase.peaked_on], hlevel, by rw [hx, Phase.peaked_cut], by rw [hx, Phase.peaked_run],
      State.pwm_of_level hlevel, fun h2 => ?_, fun h2 => ⟨?_, ?_⟩, fun q hq => ?_, (execPhasePeak_parts p hexec).only (by decide)⟩
    · rw [hx, Phase.peaked, if_pos h2]
      exact ⟨rfl, rfl⟩
    · rw [hx, Phase.peaked, if_neg (by omega)]
      rfl
    · rw [hlog.grp, hgrp h2]
    · rw [hlog.phase, hother q hq]
  · have hexec := exec_stageFault hph hpor hcode
    have htold := (State.coreRaiseC_told _ _ _ _).trans (s.logged_told fun s => (s.latchPhase p.val).coreRaiseC 1 3 p.val)
    have hx := (htold.phase p.val).trans (s.latchPhase_phase p.isLt)
    refine ⟨_, hexec, by rw [hx]; rfl, by rw [hx]; rfl, by rw [hx]; rfl, State.pwm_of_latched (by rw [hx]; rfl), ?_, fun hw => ?_,
      fun q hq => ?_, (execStageFault_parts p hexec).only (by decide)⟩
    · rw [State.logged_core]
      exact State.coreRaiseC_contains _ (by omega)
    · rw [htold.g, State.latchPhase_frozen hw]
    · rw [htold.phase, State.latchPhase_other _ hq]
  · have hexec := exec_railOv hov hconv
    have hparts := execRailOv_parts hexec
    have hn : (if s.core.railOv = 3 then 2 else 1) = 1 ∨ (if s.core.railOv = 3 then 2 else 1) = 2 := by split <;> simp
    generalize (if s.core.railOv = 3 then 2 else 1) = n at hexec hparts hn ⊢
    have htold := (State.coreRaiseC_told (s.railRise n) 1 4 0).trans (s.logDiff_told _)
    have hrise := s.railRise_parts n
    have hstops := congrArg GroupSt.stops ((htold.g .input).trans (State.g_congr (hrise.grp rfl) .input))
    rw [s.railStop_stops] at hstops
    have hbit := bit_setBit_same (s.g .input).stops 5 true
    rw [← hstops] at hbit
    have hcore : (s.railRise n).core = { s.core with railOv := n } := hrise.core rfl
    refine ⟨_, hexec, ?_, ?_, hbit, fun p hp => State.pwm_of_stopped ?_, ?_, fun g hg hctrl p hp => ?_,
      hparts.only (by decide)⟩
    · rw [htold.railOv, hcore]
    · rw [htold.disc, hcore]
    · rw [(State.mem_phasesOf hp).2]
      exact ne_zero_of_bit hbit
    · rw [State.logDiff_core]
      exact State.coreRaiseC_contains _ (by decide)
    · rw [htold.phase]
      exact State.railRise_off hn hg hctrl hp
  · have hexec := exec_railOvPersist hov
    have htold := (State.coreRaiseC_told _ _ _ _).trans
      (s.logged_told fun s => ({ s.gateOpen with core := { s.gateOpen.core with railOv := 2 } } : State).coreRaiseC 1 5 0)
    have hdisc := htold.disc.trans s.gateOpen_disc
    refine ⟨_, hexec, htold.railOv, hdisc, fun p => State.pwm_of_disconnected hdisc, (execRailOvPersist_parts hexec).only (by decide),
      fun k hk => (htold.objs k hk).trans (State.obj_congr ((State.gateOpen_parts (p := 0xe0) rfl (Fr.refl _ s)).objs rfl) k)⟩
  · by_cases h1 : s.core.railOv = 1
    · have hexec := exec_railOvRelease_first held vbus vrail h1
      have htold := (s.railFreed.railFree.coreClearK_told 1 4).trans (s.logged_told State.railFall)
      refine ⟨_, hexec, ?_, ?_, ?_, (execRailOvRelease_parts held vbus vrail hexec).only (by decide)⟩
      · rw [htold.railOv, State.railFree_core]
        rfl
      · rw [htold.g, State.railFree_stops]
        exact s.railFreed_stops
      · rw [State.logged_core, if_pos h1]
        exact State.coreClearK_cleared _ 1 4
    · obtain ⟨h0, rfl⟩ := hov.resolve_left h1
      have hexec := exec_railOvRelease_persisting true vbus vrail h0 h1
      rw [if_pos rfl] at hexec
      have htold := ((s.boostFree.railFreed.gateBack vbus vrail).coreClearK_told 1 5).trans (s.logDiff_told _)
      obtain ⟨hstops, hov⟩ := s.boostFree.railFreed.gateBack_stops vbus vrail (n := 5) (by decide) (by decide)
      refine ⟨_, hexec, ?_, ?_, ?_, (execRailOvRelease_parts true vbus vrail hexec).only (by decide)⟩
      · rw [htold.railOv, hov]
        rfl
      · rw [htold.g, hstops]
        exact s.boostFree.railFreed_stops
      · rw [State.logDiff_core, if_neg h1]
        exact State.coreClearK_cleared _ 1 5
  · have hexec := exec_railOvRelease_persisting false vbus vrail (by omega : s.core.railOv ≠ 0) (by omega)
    rw [if_neg Bool.false_ne_true, State.boostFree, if_pos hov] at hexec
    have hfree := s.railFree.coreClearK_told 1 4
    have htold := s.logDiff_told { s.railFree.coreClearK 1 4 with core := { (s.railFree.coreClearK 1 4).core with railOv := 3 } }
    have hparts : Fr 0x82070 s (s.logDiff { s.railFree.coreClearK 1 4 with core := { (s.railFree.coreClearK 1 4).core with railOv := 3 } }) :=
      State.logDiff_parts s rfl (Fr.mk_core (State.coreClearK_parts 1 4 rfl (State.railFree_parts rfl (Fr.refl _ s))) rfl)
    refine ⟨_, hexec, htold.railOv, ?_, fun g => ?_, ?_, hparts.only (by decide), fun k hk => ?_⟩
    · rw [htold.disc]
      exact hfree.disc.trans (congrArg Core.disc s.railFree_core)
    · rw [htold.g]
      exact (congrArg GroupSt.stops (hfree.g g)).trans (s.railFree_stops g)
    · rw [State.logDiff_core]
      exact State.coreClearK_cleared _ 1 4
    · exact (htold.objs k hk).trans ((hfree.objs k hk).trans (State.obj_congr ((State.railFree_parts (p := 0x40) rfl (Fr.refl _ s)).objs rfl) k))
  · have hexec : exec (.servoUnlock g) s = .next ((s.modG g fun x => { x with servo := false }).coreRaiseC 1 9 g.num) := by
      have hexec : exec (.servoUnlock g) s = execServoUnlock g s := rfl
      rw [hexec, execServoUnlock, hg, hservo, hpor, Bool.and_self, Bool.not_false, Bool.and_self, if_pos rfl]
    have htold := State.coreRaiseC_told (s.modG g fun x => { x with servo := false }) 1 9 g.num
    refine ⟨_, hexec, ?_, fun h hne => ?_, State.coreRaiseC_contains _ ((groupNum_lt g).trans (by decide)),
      (execServoUnlock_parts g hexec).only (by decide), htold.objs⟩
    · rw [htold.g, State.g_modG_same]
    · rw [htold.g, State.g_modG_other _ _ hne]
  · have hexec : exec (.servoRelock g) s = .next ((s.modG g fun x => { x with servo := true }).coreClearI 1 9 g.num) := by
      have hexec : exec (.servoRelock g) s = execServoRelock g s := rfl
      rw [hexec, execServoRelock, hservo, Bool.not_false, if_pos rfl]
    have htold := (s.modG g fun x => { x with servo := true }).coreClearI_told 1 9 g.num
    refine ⟨_, hexec, ?_, fun h hne => ?_, State.coreClearI_cleared _ 1 9 ((groupNum_lt g).trans (by decide)),
      (execServoRelock_parts g hexec).only (by decide), htold.objs⟩
    · rw [htold.g, State.g_modG_same]
    · rw [htold.g, State.g_modG_other _ _ hne]
  · have hexec := exec_coreSpeedUpdate count hup
    have hspeed : Fr 0x400000 (s.speedUpdate count) ((s.speedUpdate count).hzSpeed ((s.speedUpdate count).obj Obj.CORE_SPEED_INDEX)) :=
      State.hzSpeed_parts _ rfl (Fr.refl _ _)
    have hobj : ∀ k, k ≠ Obj.FAULT_LOST → ((s.speedUpdate count).hzSpeed ((s.speedUpdate count).obj Obj.CORE_SPEED_INDEX)).obj k =
        (s.speedKept (s.speedIndex count)).obj k := fun k hk => (State.obj_congr (hspeed.objs rfl) k).trans (s.speedUpdate_obj count hk)
    have hindex : _ = s.speedIndex count := (hobj Obj.CORE_SPEED_INDEX (by decide)).trans (State.obj_speedKept _ _ (by decide))
    refine ⟨_, hexec, hindex, ?_, ?_, ?_, ?_, (execCoreSpeedUpdate_parts count hexec).only (by decide), fun k hk => ?_⟩
    · rw [hindex, hobj _ (by decide), State.obj_speedKept _ _ (by decide)]
      rfl
    · rw [hindex, hobj _ (by decide), State.obj_speedKept _ _ (by decide)]
      rfl
    · rw [hindex, hobj _ (by decide), State.obj_speedKept _ _ (by decide)]
      rfl
    · rw [hindex, hspeed.spd rfl, s.speedUpdate_spd]
      rfl
    · simp only [List.mem_cons, List.not_mem_nil, or_false, not_or] at hk
      obtain ⟨hi, hlat, hmin, hlife, hj, hlost⟩ := hk
      rw [hobj k hlost, State.obj_speedKept _ _ hj, if_neg hlife, if_neg hmin, if_neg hlat, if_neg hi]

end Sys2Proof.Machine
end

section
/-!
PROOFS. Shedding, balancing and zero levels (for O22).
-/
namespace Sys2Proof.Machine

/-! ### Shedding (R152) -/

theorem State.mem_byPos {s : State} {g : Group} {p : Nat} (h : p ∈ s.byPos g) : p ∈ s.phasesOf g := by
  obtain ⟨n, -, hp⟩ := List.mem_flatMap.mp h
  exact (List.mem_filter.mp hp).1

theorem State.shed_of_last {s : State} {g : Group} {p : Nat} (h : ((s.byPos g).filter fun q => (s.phase q).weight == 4).getLast? = some p) :
    s.shed g = (s.modP p fun x => { x with code := 4, weight := 3 }).modG g fun x => { x with shedCount := 0 } := by
  unfold State.shed
  rw [h]

theorem exec_shedDecision {s : State} {g : Group} (h : s.mayShed g = true) : exec (.shedDecision g) s = .next (s.logDiff (s.shed g)) := by
  have hexec : exec (.shedDecision g) s = execShedDecision g s := rfl
  rw [hexec, execShedDecision, State.logged, if_pos h]

theorem exec_shedBlockEnd {s : State} {g : Group} (h : (s.g g).blockLeft = 1) :
    exec (.shedBlockEnd g) s = .next (s.modG g fun x => { x with blockLeft := 0 }) := by
  have hexec : exec (.shedBlockEnd g) s = execShedBlockEnd g s := rfl
  rw [hexec, execShedBlockEnd, if_pos h]

/-! ### Balancing (R158-R160) -/

/-- The phases that balancing is about. -/
def State.activeOf (s : State) (g : Group) : List Nat := (s.phasesOf g).filter fun p => (s.phase p).code == 3

theorem State.mem_activeOf {s : State} {g : Group} {p : Nat} : p ∈ s.activeOf g ↔ p ∈ s.phasesOf g ∧ (s.phase p).code = 3 := by
  simp [State.activeOf]

/-- A phase with its average of the interval, positive toward the rail. -/
def Phase.average (g : Group) (avg : List Int) (p : Nat) (s : State) (x : Phase) : Phase :=
  { x with avg := if (s.g g).deliver then avg.getD (p - baseOf g) 0 else - avg.getD (p - baseOf g) 0 }

/-- A phase with its trim moved by `d`. -/
def Phase.retrim (d : Nat → State → Int → Int) (p : Nat) (s : State) (x : Phase) : Phase := { x with trim := d p s x.trim }

/-- The interval's averages taken over, and a new interval begun. -/
def State.averaged (s : State) (g : Group) (avg : List Int) : State :=
  (s.activeOf g).foldl (fun y p => y.modP p (Phase.average g avg p y)) (s.modG g fun x => { x with cycles16 := 0 })

/-- Every trim moved by `d`. -/
def State.trimmed (s : State) (l : List Nat) (d : Nat → State → Int → Int) : State := l.foldl (fun y p => y.modP p (Phase.retrim d p y)) s

/-- One step of R159 toward the mean of `n` phases, whose averages `i` add up to `sum`: none inside the dead band, none for a phase that does
not balance itself. -/
def movedTrim (i : Nat → Int) (n : Nat) (sum : Int) (p : Nat) (s : State) (trim : Int) : Int :=
  let e := i p * n - sum
  let d := if e.natAbs ≤ 25 * n then 0 else - roundDiv ((2 ^ field (s.word (16 + p)) 21 19 : Nat) * e) (100 * n)
  if bit (s.word (16 + p)) 22 then trim + clampI (-64) 64 d else 0

/-- What the clamp of R159 makes of a trim less the group's mean `tm`: 0 for a phase that does not balance itself. -/
def clampedTrim (tm : Int) (p : Nat) (s : State) (trim : Int) : Int :=
  if bit (s.word (16 + p)) 22 then
    clampI (-((64 * field (s.word (16 + p)) 18 13 : Nat) : Int)) ((64 * field (s.word (16 + p)) 18 13 : Nat) : Int) (trim - tm)
  else 0

/-- An update takes the averages over, and then, unless balancing stands still, moves the trims and clamps them. -/
theorem State.balance_eq (s : State) (g : Group) (avg : List Int) : ∃ i n sum tm, s.balance g avg =
    if (s.averaged g avg).balFrozen g || (s.activeOf g).isEmpty then s.averaged g avg
    else ((s.averaged g avg).trimmed (s.activeOf g) (movedTrim i n sum)).trimmed (s.activeOf g) (clampedTrim tm) :=
  ⟨fun p => avg.getD (p - baseOf g) 0, _, _, _, rfl⟩

theorem State.trimmed_parts (s : State) (l : List Nat) (d : Nat → State → Int → Int) : Fr 0x80 s (s.trimmed l d) :=
  State.foldl_modP_parts (Phase.retrim d) s l

theorem State.trimmed_field {α : Type} (F : Phase → α) (hF : ∀ (x : Phase) t, F { x with trim := t } = F x) (s : State) (l : List Nat)
    (d : Nat → State → Int → Int) (q : Nat) : F ((s.trimmed l d).phase q) = F (s.phase q) :=
  State.phase_foldl_field F (f := Phase.retrim d) (fun _ _ _ => hF _ _) s l q

theorem State.trimmed_other (s : State) {l : List Nat} (d : Nat → State → Int → Int) {q : Nat} (hq : q ∉ l) :
    (s.trimmed l d).phase q = s.phase q := State.phase_foldl_other (f := Phase.retrim d) s hq

theorem State.averaged_parts (s : State) (g : Group) (avg : List Int) : Fr 0x80 (s.modG g fun x => { x with cycles16 := 0 }) (s.averaged g avg) :=
  State.foldl_modP_parts (Phase.average g avg) _ _

theorem State.averaged_field {α : Type} (F : Phase → α) (hF : ∀ (x : Phase) i, F { x with avg := i } = F x) (s : State) (g : Group)
    (avg : List Int) (q : Nat) : F ((s.averaged g avg).phase q) = F (s.phase q) :=
  State.phase_foldl_field F (f := Phase.average g avg) (fun _ _ _ => hF _ _) _ _ q

theorem State.averaged_other (s : State) (g : Group) (avg : List Int) {q : Nat} (hq : q ∉ s.activeOf g) :
    (s.averaged g avg).phase q = s.phase q := State.phase_foldl_other (f := Phase.average g avg) _ hq

theorem State.averaged_avg {s : State} {g : Group} (avg : List Int) {q : Nat} (hq : q ∈ s.activeOf g) :
    ((s.averaged g avg).phase q).avg = if (s.g g).deliver then avg.getD (q - baseOf g) 0 else - avg.getD (q - baseOf g) 0 := by
  refine State.phase_foldl_holds (f := Phase.average g avg)
    (P := fun p x => x.avg = if (s.g g).deliver then avg.getD (p - baseOf g) 0 else - avg.getD (p - baseOf g) 0) _ (fun y x hy => ?_) hq
    (State.mem_phasesOf (State.mem_activeOf.mp hq).1).1
  have hdeliver : (y.g g).deliver = (s.g g).deliver := by rw [State.g_congr (hy.grp rfl), State.g_modG_same]
  rw [Phase.average, hdeliver]

theorem State.averaged_g (s : State) (g : Group) (avg : List Int) (h : Group) :
    (s.averaged g avg).g h = (s.modG g fun x => { x with cycles16 := 0 }).g h := State.g_congr ((s.averaged_parts g avg).grp rfl) h

/-- The averages of an interval say nothing of whether balancing stands still (R160). -/
theorem State.averaged_frozen (s : State) (g : Group) (avg : List Int) : (s.averaged g avg).balFrozen g = s.balFrozen g := by
  have hobjs : (s.averaged g avg).objs = s.objs := (s.averaged_parts g avg).objs rfl
  have hphases := State.phasesOf_congr (State.variant_congr (State.obj_congr hobjs _)) g
  have hweight : ∀ p, ((s.averaged g avg).phase p).weight = (s.phase p).weight := s.averaged_field Phase.weight (fun _ _ => rfl) g avg
  unfold State.balFrozen State.nAct
  simp only [State.averaged_g, State.g_modG_same, hphases, hweight]

theorem clampI_natAbs_le (c : Nat) (i : Int) : (clampI (-(c : Int)) c i).natAbs ≤ c := by
  unfold clampI
  split_ifs <;> omega

/-- After the clamp a trim stands within it, and at 0 where the phase does not balance itself (R158, R159). -/
theorem State.trimmed_clamped {s : State} (tm : Int) {l : List Nat} {q : Nat} (hq : q ∈ l) (hb : q < 16) :
    (bit (s.word (16 + q)) 22 = true → ((s.trimmed l (clampedTrim tm)).phase q).trim.natAbs ≤ 64 * field (s.word (16 + q)) 18 13) ∧
    (bit (s.word (16 + q)) 22 = false → ((s.trimmed l (clampedTrim tm)).phase q).trim = 0) := by
  refine State.phase_foldl_holds (f := Phase.retrim (clampedTrim tm))
    (P := fun p x => (bit (s.word (16 + p)) 22 = true → x.trim.natAbs ≤ 64 * field (s.word (16 + p)) 18 13) ∧
      (bit (s.word (16 + p)) 22 = false → x.trim = 0)) s (fun y x hy => ?_) hq hb
  have hword : y.word (16 + q) = s.word (16 + q) := by rw [State.word, hy.core rfl, State.word]
  simp only [Phase.retrim, clampedTrim, hword]
  refine ⟨fun hbit => ?_, fun hbit => ?_⟩
  · rw [if_pos hbit]
    exact clampI_natAbs_le _ _
  · rw [hbit, if_neg Bool.false_ne_true]

/-- Whatever an update does to the trims, it takes the averages over and leaves the rest. -/
theorem State.balance_field {α : Type} (F : Phase → α) (hF : ∀ (x : Phase) t, F { x with trim := t } = F x) (s : State) (g : Group)
    (avg : List Int) (q : Nat) : F ((s.balance g avg).phase q) = F ((s.averaged g avg).phase q) := by
  obtain ⟨i, n, sum, tm, heq⟩ := s.balance_eq g avg
  rw [heq]
  split
  · rfl
  · rw [State.trimmed_field F hF, State.trimmed_field F hF]

theorem State.balance_other (s : State) (g : Group) (avg : List Int) {q : Nat} (hq : q ∉ s.activeOf g) :
    (s.balance g avg).phase q = s.phase q := by
  obtain ⟨i, n, sum, tm, heq⟩ := s.balance_eq g avg
  rw [heq, ← s.averaged_other g avg hq]
  split
  · rfl
  · rw [State.trimmed_other _ _ hq, State.trimmed_other _ _ hq]

theorem State.balance_g (s : State) (g : Group) (avg : List Int) (h : Group) :
    (s.balance g avg).g h = (s.modG g fun x => { x with cycles16 := 0 }).g h := by
  obtain ⟨i, n, sum, tm, heq⟩ := s.balance_eq g avg
  rw [heq, ← s.averaged_g g avg h]
  split
  · rfl
  · exact State.g_congr (((State.trimmed_parts _ _ _).trans (State.trimmed_parts _ _ _)).grp rfl) h

/-- While balancing stands still no trim moves (R160). -/
theorem State.balance_still {s : State} {g : Group} (avg : List Int) (h : s.balFrozen g = true) (q : Nat) :
    ((s.balance g avg).phase q).trim = (s.phase q).trim := by
  obtain ⟨i, n, sum, tm, heq⟩ := s.balance_eq g avg
  rw [heq, s.averaged_frozen, h, Bool.true_or, if_pos rfl]
  exact s.averaged_field Phase.trim (fun _ _ => rfl) g avg q

theorem State.balance_clamped {s : State} {g : Group} (avg : List Int) (h : s.balFrozen g = false) {q : Nat} (hq : q ∈ s.activeOf g) :
    (bit (s.word (16 + q)) 22 = true → ((s.balance g avg).phase q).trim.natAbs ≤ 64 * field (s.word (16 + q)) 18 13) ∧
    (bit (s.word (16 + q)) 22 = false → ((s.balance g avg).phase q).trim = 0) := by
  obtain ⟨i, n, sum, tm, heq⟩ := s.balance_eq g avg
  have hsome : (s.activeOf g).isEmpty = false := by
    simpa using List.ne_nil_of_mem hq
  have hword : ((s.averaged g avg).trimmed (s.activeOf g) (movedTrim i n sum)).word (16 + q) = s.word (16 + q) := by
    have hcore := ((s.averaged_parts g avg).trans (State.trimmed_parts _ (s.activeOf g) (movedTrim i n sum))).core rfl
    rw [State.word, hcore]
    rfl
  rw [heq, s.averaged_frozen, h, hsome, Bool.or_self, if_neg Bool.false_ne_true, ← hword]
  exact State.trimmed_clamped tm hq (State.mem_phasesOf (State.mem_activeOf.mp hq).1).1

/-- The end of an interval: balancing, and what Horizon learns of trims that moved. -/
def State.rebalanced (s : State) (g : Group) (avg : List Int) : State :=
  if s.balFrozen g then s.balance g avg else (s.balance g avg).hzTrim g

/-- Beside balancing, Horizon alone is touched. -/
theorem State.rebalanced_parts (s : State) (g : Group) (avg : List Int) : Fr 0x400000 (s.balance g avg) (s.rebalanced g avg) :=
  Fr.ite (Fr.refl _ _) (State.hzTrim_parts g rfl (Fr.refl _ _))

theorem State.rebalanced_g (s : State) (g : Group) (avg : List Int) (h : Group) :
    (s.rebalanced g avg).g h = (s.modG g fun x => { x with cycles16 := 0 }).g h :=
  (State.g_congr ((s.rebalanced_parts g avg).grp rfl) h).trans (s.balance_g g avg h)

theorem State.rebalanced_phase (s : State) (g : Group) (avg : List Int) (q : Nat) :
    (s.rebalanced g avg).phase q = (s.balance g avg).phase q := State.phase_congr ((s.rebalanced_parts g avg).ph rfl) q

theorem State.rebalanced_still {s : State} {g : Group} (avg : List Int) (h : s.balFrozen g = true) : (s.rebalanced g avg).hz = s.hz := by
  rw [State.rebalanced, if_pos h]
  exact (State.balance_parts (p := 0xc0) g avg rfl (Fr.refl _ s)).hz rfl

theorem exec_balancingUpdate {s : State} {g : Group} (avg : List Int) (hg : s.hasGroup g = true) (h : (s.g g).cycles16 = 16) :
    exec (.balancingUpdate g avg) s = .next (s.rebalanced g avg) := by
  have hexec : exec (.balancingUpdate g avg) s = execBalancingUpdate g avg s := rfl
  rw [hexec, execBalancingUpdate, hg, h]
  rfl

/-! ### Zero levels (R141) -/

theorem exec_isnsZeroMeasurement {s : State} {p : Fin 16} (mv : Nat) (hp : (s.phasesOf (groupOf p.val)).contains p.val = true)
    (hz : s.pwm p.val = .Z) : exec (.isnsZeroMeasurement p mv) s = .next (s.logDiff (s.zeroMeasured p.val mv)) := by
  have hexec : exec (.isnsZeroMeasurement p mv) s = execIsnsZeroMeasurement p mv s := rfl
  rw [hexec, execIsnsZeroMeasurement, State.logged, hp, hz]
  rfl

/-- A phase whose zero level is good: only the exclusion for a bad one ends with it. -/
def Phase.zeroGood (x : Phase) (mv : Nat) : Phase :=
  if x.zeroBad && !x.latched then { x with zero := mv, zeroBad := false, code := if x.pos = 0 then 0 else 1 }
  else { x with zero := mv, zeroBad := false }

/-- A phase excluded for its zero level. -/
def Phase.zeroOut (x : Phase) (mv now : Nat) : Phase := { x with zero := mv, zeroBad := true, code := 5, weight := 0 }.toZ now

theorem State.zeroMeasured_good {s : State} {p mv : Nat} (h : 800 ≤ mv ∧ mv ≤ 1700) :
    s.zeroMeasured p mv = (s.modP p (Phase.zeroGood · mv)).coreClearI (sourceOf (groupOf p)) 3 p := by
  unfold State.zeroMeasured
  rw [if_pos h]
  rfl

theorem State.zeroMeasured_out {s : State} {p mv : Nat} (h : mv < 800 ∨ 1700 < mv) :
    s.zeroMeasured p mv = ((s.leaving p).modP p (Phase.zeroOut · mv (s.leaving p).now)).coreRaiseC (sourceOf (groupOf p)) 3 p := by
  unfold State.zeroMeasured
  rw [if_neg (by omega)]
  rfl

theorem Phase.zeroGood_of_latched {x : Phase} (mv : Nat) (h : x.latched = true) : (x.zeroGood mv).code = x.code := by
  rw [Phase.zeroGood, h, Bool.not_true, Bool.and_false, if_neg Bool.false_ne_true]

theorem Phase.zeroGood_zero (x : Phase) (mv : Nat) : (x.zeroGood mv).zero = mv ∧ (x.zeroGood mv).zeroBad = false := by
  unfold Phase.zeroGood
  split <;> exact ⟨rfl, rfl⟩

theorem Phase.zeroOut_zero (x : Phase) (mv now : Nat) : (x.zeroOut mv now).zero = mv ∧ (x.zeroOut mv now).zeroBad = true ∧
    (x.zeroOut mv now).code = 5 ∧ (x.zeroOut mv now).weight = 0 := ⟨rfl, rfl, rfl, rfl⟩

theorem State.zeroMeasured_phase (s : State) {p : Nat} (mv : Nat) (hp : p < 16) : (s.zeroMeasured p mv).phase p =
    if 800 ≤ mv ∧ mv ≤ 1700 then (s.phase p).zeroGood mv else (s.phase p).zeroOut mv s.now := by
  split
  case isTrue h => rw [State.zeroMeasured_good h, (State.coreClearI_told _ _ _ _).phase, State.phase_modP_same _ _ hp]
  case isFalse h =>
    rw [State.zeroMeasured_out (by omega), (State.coreRaiseC_told _ _ _ _).phase, State.phase_modP_same _ _ hp, State.leaving_phase,
      State.leaving_now]

theorem State.zeroMeasured_other (s : State) {p q : Nat} (mv : Nat) (hq : q ≠ p) : (s.zeroMeasured p mv).phase q = s.phase q := by
  by_cases h : 800 ≤ mv ∧ mv ≤ 1700
  · rw [State.zeroMeasured_good h, (State.coreClearI_told _ _ _ _).phase, State.phase_modP_other _ _ hq]
  · rw [State.zeroMeasured_out (by omega), (State.coreRaiseC_told _ _ _ _).phase, State.phase_modP_other _ _ hq, State.leaving_phase]

theorem State.zeroMeasured_objs (s : State) (p mv : Nat) : s.SameObjs [Obj.FAULT_LOST] (s.zeroMeasured p mv) := by
  by_cases h : 800 ≤ mv ∧ mv ≤ 1700
  · rw [State.zeroMeasured_good h]
    exact (State.coreClearI_told _ _ _ _).objs
  · rw [State.zeroMeasured_out (by omega)]
    have hleave : (s.leaving p).objs = s.objs := by
      unfold State.leaving
      split <;> rfl
    exact fun k hk => ((State.coreRaiseC_told _ _ _ _).objs k hk).trans (State.obj_congr hleave k)

end Sys2Proof.Machine
end

section
/-!
PROOFS. What the steps of a boundary leave (for O22): a step after the command moves no measured value, no command and no word.
-/
namespace Sys2Proof.Machine

/-! ### Three relations between the states of a boundary -/

/-- No step of a boundary of group `g` writes an object but for its reports and a probe's end, or changes the weight or the code of a phase of
another group. -/
structure Bounded (g : Group) (s t : State) : Prop where
  objs : s.SameObjs [Obj.FAULT_LOST, Obj.HZ_STATE] t
  outside : ∀ p, p ∉ s.phasesOf g → (t.phase p).weight = (s.phase p).weight ∧ (t.phase p).code = (s.phase p).code

/-- The other groups are left alone unless a headroom stop of `g` ends, which brings DISC_GATE back. -/
def Apart (g : Group) (s t : State) : Prop :=
  bit (s.g g).stops 1 = false → bit (t.g g).stops 1 = false ∧ ∀ h, h ≠ g → t.g h = s.g h

/-- What a group has settled once its command is computed: the samples, the command and its parts, fold-back, the Stratus limits. -/
def GroupSt.settled (x : GroupSt) : GroupSt :=
  { vrail := x.vrail, vlow := x.vlow, iv := x.iv, iff := x.iff, icmd := x.icmd, step := x.step, fold := x.fold, stratus := x.stratus }

/-- A group out of soft-start and dwell delivers into the rail. -/
def GroupSt.inward (x : GroupSt) : Prop := x.soft = false → x.dwell = false → x.deliver = true

/-- A step that keeps what is settled, and the Stratus state. -/
structure Steady (g : Group) (s t : State) : Prop extends Bounded g s t where
  settled : (t.g g).settled = (s.g g).settled
  strat : t.strat = s.strat

/-- A step that applies words: what is settled stays, and the other groups are left alone. -/
structure Applied (g : Group) (s t : State) : Prop extends Steady g s t where
  apart : Apart g s t

/-- A step after the command: the words stay too, and the direction of the input group. -/
structure Calm (g : Group) (s t : State) : Prop extends Steady g s t where
  words : t.core.words = s.core.words
  rise : (s.g g).ffRise = 0 → (t.g g).ffRise = 0
  inward : g = .input → (s.g g).inward → (t.g g).inward

/-- A step after the command, with the other groups left alone. -/
structure Settled (g : Group) (s t : State) : Prop extends Calm g s t where
  apart : Apart g s t

theorem Bounded.variant {g : Group} {s t : State} (h : Bounded g s t) : t.variant = s.variant :=
  State.variant_congr (h.objs _ (by decide))

theorem Bounded.phasesOf {g : Group} {s t : State} (h : Bounded g s t) (x : Group) : t.phasesOf x = s.phasesOf x :=
  State.phasesOf_congr h.variant x

theorem Bounded.refl (g : Group) (s : State) : Bounded g s s := ⟨fun _ _ => rfl, fun _ _ => ⟨rfl, rfl⟩⟩

theorem Bounded.trans {g : Group} {s t u : State} (h : Bounded g s t) (k : Bounded g t u) : Bounded g s u where
  objs := fun j hj => (k.objs j hj).trans (h.objs j hj)
  outside := fun p hp => by
    obtain ⟨hw, hc⟩ := h.outside p hp
    obtain ⟨kw, kc⟩ := k.outside p (by rwa [h.phasesOf])
    exact ⟨kw.trans hw, kc.trans hc⟩

theorem Apart.refl (g : Group) (s : State) : Apart g s s := fun h => ⟨h, fun _ _ => rfl⟩

theorem Apart.trans {g : Group} {s t u : State} (h : Apart g s t) (k : Apart g t u) : Apart g s u := fun h0 => by
  obtain ⟨h1, hs⟩ := h h0
  obtain ⟨h2, ks⟩ := k h1
  exact ⟨h2, fun x hx => (ks x hx).trans (hs x hx)⟩

theorem Steady.refl (g : Group) (s : State) : Steady g s s := ⟨Bounded.refl g s, rfl, rfl⟩

theorem Steady.trans {g : Group} {s t u : State} (h : Steady g s t) (k : Steady g t u) : Steady g s u :=
  ⟨h.toBounded.trans k.toBounded, k.settled.trans h.settled, k.strat.trans h.strat⟩

theorem Applied.refl (g : Group) (s : State) : Applied g s s := ⟨Steady.refl g s, Apart.refl g s⟩

theorem Applied.trans {g : Group} {s t u : State} (h : Applied g s t) (k : Applied g t u) : Applied g s u :=
  ⟨h.toSteady.trans k.toSteady, h.apart.trans k.apart⟩

theorem Applied.ite {g : Group} {s a b : State} {c : Prop} [Decidable c] (ha : Applied g s a) (hb : Applied g s b) :
    Applied g s (if c then a else b) := by
  split <;> assumption

theorem Calm.refl (g : Group) (s : State) : Calm g s s := ⟨Steady.refl g s, rfl, id, fun _ => id⟩

theorem Calm.trans {g : Group} {s t u : State} (h : Calm g s t) (k : Calm g t u) : Calm g s u where
  toSteady := h.toSteady.trans k.toSteady
  words := k.words.trans h.words
  rise := k.rise ∘ h.rise
  inward := fun hg => k.inward hg ∘ h.inward hg

theorem Settled.refl (g : Group) (s : State) : Settled g s s := ⟨Calm.refl g s, Apart.refl g s⟩

theorem Settled.trans {g : Group} {s t u : State} (h : Settled g s t) (k : Settled g t u) : Settled g s u :=
  ⟨h.toCalm.trans k.toCalm, h.apart.trans k.apart⟩

theorem Settled.applied {g : Group} {s t : State} (h : Settled g s t) : Applied g s t := ⟨h.toSteady, h.apart⟩

theorem Settled.ite {g : Group} {s a b : State} {c : Prop} [Decidable c] (ha : Settled g s a) (hb : Settled g s b) :
    Settled g s (if c then a else b) := by
  split <;> assumption

/-! ### The updates that the steps are made of -/

theorem Apart.of_grp {g : Group} {s t : State} (h : t.grp = s.grp) : Apart g s t := fun h0 =>
  ⟨by rwa [State.g_congr h], fun x _ => State.g_congr h x⟩

/-- A change of the group itself. -/
theorem Apart.modG {g : Group} {s : State} {f : GroupSt → GroupSt} (hf : (f (s.g g)).stops = (s.g g).stops) : Apart g s (s.modG g f) :=
  fun h0 => ⟨by rwa [State.g_modG_same, hf], fun _ hx => s.g_modG_other f hx⟩

theorem Bounded.modG (g h : Group) (s : State) (f : GroupSt → GroupSt) : Bounded g s (s.modG h f) :=
  ⟨fun _ _ => rfl, fun _ _ => ⟨rfl, rfl⟩⟩

theorem Settled.modG {g : Group} {s : State} {f : GroupSt → GroupSt} (hf : (f (s.g g)).settled = (s.g g).settled)
    (hs : (f (s.g g)).stops = (s.g g).stops) (hr : (s.g g).ffRise = 0 → (f (s.g g)).ffRise = 0)
    (hi : g = .input → (s.g g).inward → (f (s.g g)).inward) : Settled g s (s.modG g f) where
  toBounded := Bounded.modG g g s f
  settled := by rwa [State.g_modG_same]
  strat := rfl
  words := rfl
  rise := by rwa [State.g_modG_same]
  inward := by rwa [State.g_modG_same]
  apart := Apart.modG hs

/-- A change of the reasons to stop or to start, in whichever group. -/
theorem Calm.modStops (g h : Group) (s : State) {f : GroupSt → GroupSt} (hf : ∀ x, ∃ a b, f x = { x with stops := a, start := b }) :
    Calm g s (s.modG h f) where
  toBounded := Bounded.modG g h s f
  settled := s.g_modG_field GroupSt.settled h g fun x => by
    obtain ⟨a, b, hx⟩ := hf x
    rw [hx]
    rfl
  strat := rfl
  words := rfl
  rise := by
    rw [s.g_modG_field GroupSt.ffRise h g fun x => by
      obtain ⟨a, b, hx⟩ := hf x
      rw [hx]]
    exact id
  inward := fun _ => by
    rw [s.g_modG_field GroupSt.inward h g fun x => by
      obtain ⟨a, b, hx⟩ := hf x
      rw [hx]
      rfl]
    exact id

/-- A change outside the groups, of which it keeps the words and the Stratus state. -/
theorem Calm.of_grp {g : Group} {s t : State} (h : Bounded g s t) (hg : t.grp = s.grp) (hs : t.strat = s.strat)
    (hw : t.core.words = s.core.words) : Calm g s t where
  toBounded := h
  settled := by rw [State.g_congr hg]
  strat := hs
  words := hw
  rise := by
    rw [State.g_congr hg]
    exact id
  inward := fun _ => by
    rw [State.g_congr hg]
    exact id

theorem Settled.of_grp {g : Group} {s t : State} (h : Bounded g s t) (hg : t.grp = s.grp) (hs : t.strat = s.strat)
    (hw : t.core.words = s.core.words) : Settled g s t := ⟨Calm.of_grp h hg hs hw, Apart.of_grp hg⟩

theorem Bounded.of_phases {g : Group} {s t : State} (h : Fr 0x80 s t)
    (hout : ∀ p, p ∉ s.phasesOf g → (t.phase p).weight = (s.phase p).weight ∧ (t.phase p).code = (s.phase p).code) : Bounded g s t :=
  ⟨fun k _ => State.obj_congr (h.objs rfl) k, hout⟩

theorem Settled.of_phases {g : Group} {s t : State} (h : Fr 0x80 s t)
    (hout : ∀ p, p ∉ s.phasesOf g → (t.phase p).weight = (s.phase p).weight ∧ (t.phase p).code = (s.phase p).code) : Settled g s t :=
  Settled.of_grp (Bounded.of_phases h hout) (h.grp rfl) (h.strat rfl) (by rw [h.core rfl])

/-- A change of phases of the group. -/
theorem Settled.modPs {g : Group} {s : State} {l : List Nat} (hl : ∀ p ∈ l, p ∈ s.phasesOf g) (f : Phase → Phase) :
    Settled g s (s.modPs l f) :=
  Settled.of_phases (State.modPs_parts l f rfl (Fr.refl _ s)) fun p hp => by
    rw [s.phase_modPs_other f fun h => hp (hl p h)]
    exact ⟨rfl, rfl⟩

/-- A change of phases that keeps weights and codes. -/
theorem Settled.modPs_level (g : Group) (s : State) (l : List Nat) {f : Phase → Phase}
    (hf : ∀ x, (f x).weight = x.weight ∧ (f x).code = x.code) : Settled g s (s.modPs l f) :=
  Settled.of_phases (State.modPs_parts l f rfl (Fr.refl _ s)) fun p _ =>
    ⟨s.phase_modPs_field Phase.weight l p fun x => (hf x).1, s.phase_modPs_field Phase.code l p fun x => (hf x).2⟩

theorem Settled.of_told {s t : State} (g : Group) (h : Told s t) : Settled g s t :=
  Settled.of_grp ⟨fun _ hk => h.obj fun e => hk (e ▸ .head _), fun p _ => by
    rw [h.phase]
    exact ⟨rfl, rfl⟩⟩ h.grp h.strat h.words

theorem Calm.stopG (g h : Group) (s : State) (n : Nat) : Calm g s (s.stopG h n) := by
  have hstop : Calm g s (s.modG h fun x => { x with stops := setBit x.stops n true }) := Calm.modStops g h s fun x => ⟨_, x.start, rfl⟩
  exact hstop.trans (Settled.modPs_level g _ (s.phasesOf h) (f := fun p => p.toZ s.now) fun _ => ⟨rfl, rfl⟩).toCalm

theorem Calm.freeG (g h : Group) (s : State) (n : Nat) : Calm g s (s.freeG h n) := Calm.modStops g h s fun _ => ⟨_, _, rfl⟩

theorem Settled.stopG {g : Group} {s : State} {n : Nat} (hn : n ≠ 1) : Settled g s (s.stopG g n) :=
  ⟨Calm.stopG g g s n, fun h0 => by
    rw [State.g_stopG_same]
    exact ⟨(bit_setBit_other _ _ hn.symm).trans h0, fun h hne => s.g_stopG_other n hne⟩⟩

end Sys2Proof.Machine
end

section
/-!
PROOFS. The steps of a boundary that follow its command (for O22).
-/
namespace Sys2Proof.Machine

/-! ### Changes of the group itself -/

/-- What most steps after the command leave of their group: what is settled, the stops, the direction. -/
def GroupSt.kept (x : GroupSt) : GroupSt :=
  { x.settled with stops := x.stops, ffRise := x.ffRise, deliver := x.deliver, dwell := x.dwell, soft := x.soft }

theorem Settled.modG_kept {g : Group} {s : State} {f : GroupSt → GroupSt} (hf : ∀ x, (f x).kept = x.kept) : Settled g s (s.modG g f) := by
  have hk := hf (s.g g)
  have hset : (f (s.g g)).kept.settled = (s.g g).kept.settled := by rw [hk]
  have hstops : (f (s.g g)).kept.stops = (s.g g).kept.stops := by rw [hk]
  have hrise : (f (s.g g)).kept.ffRise = (s.g g).kept.ffRise := by rw [hk]
  have hin : (f (s.g g)).kept.inward = (s.g g).kept.inward := by rw [hk]
  exact Settled.modG hset hstops hrise.trans fun _ => hin.mpr

/-! ### Direction, shedding and adding -/

theorem State.wantDeliver_input (s : State) : s.wantDeliver .input = true := rfl

/-- The direction test changes the group's direction and dwell, and in a dwell puts its phases at Z. -/
theorem State.direction_eq (s : State) (g : Group) (nz : Bool) : ∃ f l, s.direction g nz = (s.modG g f).modPs l (fun x => x.toZ s.now) ∧
    (∀ p ∈ l, p ∈ s.phasesOf g) ∧ (f (s.g g)).settled = (s.g g).settled ∧ (f (s.g g)).stops = (s.g g).stops ∧
    (f (s.g g)).ffRise = (s.g g).ffRise ∧ (g = .input → (f (s.g g)).inward) := by
  unfold State.direction
  dsimp only
  split_ifs with hsame hzero
  · refine ⟨fun x => { x with dwell := false }, [], rfl, nofun, rfl, rfl, rfl, ?_⟩
    rintro rfl hsoft -
    have hsame' : ((s.g .input).soft || s.wantDeliver .input == (s.g .input).deliver) = true := hsame
    change (s.g .input).soft = false at hsoft
    rw [hsoft, s.wantDeliver_input, Bool.false_or] at hsame'
    exact (eq_of_beq hsame').symm
  · refine ⟨fun x => { x with dwell := false, deliver := s.wantDeliver g }, [], rfl, nofun, rfl, rfl, rfl, ?_⟩
    rintro rfl - -
    exact s.wantDeliver_input
  · exact ⟨_, _, rfl, fun _ => id, by rfl, by rfl, by rfl, fun _ _ h => absurd h Bool.noConfusion⟩

theorem Settled.direction (g : Group) (s : State) (nz : Bool) : Settled g s (s.direction g nz) := by
  obtain ⟨f, l, heq, hl, hset, hstops, hrise, hin⟩ := s.direction_eq g nz
  rw [heq]
  exact (Settled.modG hset hstops hrise.trans fun hg _ => hin hg).trans (Settled.modPs (s := s.modG g f) hl _)

/-- After the direction test the input group delivers, unless it is in a dwell or in soft-start (R24). -/
theorem State.direction_inward (s : State) (nz : Bool) : ((s.direction .input nz).g .input).inward := by
  obtain ⟨f, l, heq, -, -, -, -, hin⟩ := s.direction_eq .input nz
  rw [heq, State.g_modPs, State.g_modG_same]
  exact hin rfl

theorem Settled.rampStep {g : Group} {s : State} {l : List Nat} (hl : ∀ p ∈ l, p ∈ s.phasesOf g) : Settled g s (s.rampStep l) :=
  Settled.modPs (fun p hp => hl p (List.mem_filter.mp hp).1) _

theorem Settled.orderDemote (g : Group) (s : State) : Settled g s (s.orderDemote g) := by
  unfold State.orderDemote
  exact Settled.ite ((Settled.modPs (fun _ hp => (List.mem_filter.mp hp).1) _).trans (Settled.modG_kept fun _ => rfl)) (Settled.refl g s)

theorem Settled.ev (g : Group) (s : State) (type src data : Nat) : Settled g s (s.ev type src data) := by
  have hp := State.ev_parts (p := 0x80000) type src data rfl (Fr.refl _ s)
  refine Settled.of_grp ⟨fun k _ => State.obj_congr (hp.objs rfl) k, fun p _ => ?_⟩ (hp.grp rfl) (hp.strat rfl) (by rw [hp.core rfl])
  rw [State.phase_congr (hp.ph rfl)]
  exact ⟨rfl, rfl⟩

theorem Settled.loadStep (g : Group) (s : State) : Settled g s (s.loadStep g) := by
  unfold State.loadStep
  exact (Settled.ev g s _ _ _).trans ((Settled.modPs (fun _ hp => (List.mem_filter.mp hp).1) _).trans (Settled.modG_kept fun _ => rfl))

theorem Settled.probeAbandon (g : Group) (s : State) : Settled g s s.probeAbandon :=
  Settled.ite (Settled.of_grp ⟨fun _ hk => State.obj_set_other _ _ fun e => hk (e ▸ .tail _ (.head _)), fun _ _ => ⟨rfl, rfl⟩⟩ rfl rfl rfl)
    (Settled.refl g s)

theorem Settled.railDisturbed (g : Group) (s : State) : Settled g s s.railDisturbed :=
  (Settled.of_grp ⟨fun _ _ => rfl, fun _ _ => ⟨rfl, rfl⟩⟩ rfl rfl rfl : Settled g s { s with hz := { s.hz with calm := s.now } }).trans
    (Settled.probeAbandon g _)

theorem Settled.addDecision (g : Group) (s : State) : Settled g s (s.addDecision g) :=
  Settled.modPs (fun _ hp => State.mem_byPos (List.mem_filter.mp (List.mem_of_mem_take hp)).1) _

theorem Settled.shortfall (g : Group) (s : State) : Settled g s (s.shortfall g) := by
  unfold State.shortfall
  exact (Settled.of_told g (Told.ite (s.coreRaise_told _ _ _) (Told.refl s))).trans
    ((Settled.of_told g (Told.ite (State.coreRaiseC_told _ _ _ _) (Told.refl _))).trans (Settled.modG_kept fun _ => rfl))

theorem Settled.shedCountStep (g : Group) (s : State) : Settled g s (s.shedCountStep g) := by
  unfold State.shedCountStep
  exact Settled.modG_kept fun _ => rfl

theorem Settled.decisions {g : Group} {s : State} (before : Int) {l : List Nat} (hl : ∀ p ∈ l, p ∈ s.phasesOf g) :
    Settled g s (s.decisions g before l) := by
  have hd := Settled.orderDemote g s
  have hr : Settled g (s.orderDemote g) ((s.orderDemote g).rampStep l) := Settled.rampStep fun p hp => (hd.phasesOf g).symm ▸ hl p hp
  unfold State.decisions
  dsimp only
  refine Settled.trans (hd.trans (Settled.ite ?_ hr)) ((Settled.addDecision g _).trans ((Settled.shortfall g _).trans (Settled.shedCountStep g _)))
  exact (Settled.loadStep g _).trans (Settled.railDisturbed g _)

/-! ### Reference, oscillator and starts -/

theorem Settled.passStep (s : State) (vbus vrail : Nat) : Settled .input s (s.passStep vbus vrail) := by
  unfold State.passStep
  exact Settled.modG_kept fun _ => rfl

theorem Settled.slewRef (g : Group) (s : State) : Settled g s (s.slewRef g) := by
  unfold State.slewRef
  exact Settled.modG_kept fun _ => rfl

theorem Settled.trackStep (g : Group) (s : State) (fr edge : Nat) : Settled g s (s.trackStep g fr edge) := by
  unfold State.trackStep
  exact Settled.modG_kept fun _ => rfl

theorem Settled.backStep (g : Group) (s : State) : Settled g s (s.backStep g) := by
  unfold State.backStep
  exact Settled.modG_kept fun _ => rfl

theorem Settled.spreadStep (g : Group) (s : State) : Settled g s (s.spreadStep g) := by
  unfold State.spreadStep
  exact Settled.modG_kept fun x => by
    dsimp only
    split <;> rfl

theorem Settled.freqStep (g : Group) (s : State) (fsync edge : Nat) : Settled g s (s.freqStep g fsync edge) := by
  have hacquire : Settled g s (s.modG g fun x => { x with sync := 1, lockRun := 0 }) := Settled.modG_kept fun _ => rfl
  unfold State.freqStep
  dsimp only
  split
  · exact Settled.ite hacquire (Settled.spreadStep g s)
  · exact Settled.ite (Settled.trackStep g s _ _) (Settled.modG_kept fun _ => rfl)
  · exact Settled.ite (Settled.trackStep g s _ _) (Settled.refl g s)
  · exact Settled.ite hacquire (Settled.backStep g s)

theorem Calm.discOn (g : Group) (s : State) (vbus vrail : Nat) : Calm g s (s.discOn vbus vrail) := by
  unfold State.discOn
  split
  · exact Calm.refl g s
  · have hcore : ∀ (y : State) (c : Core), c.words = y.core.words → Calm g y { y with core := c } := fun y c hw =>
      Calm.of_grp ⟨fun _ _ => rfl, fun _ _ => ⟨rfl, rfl⟩⟩ rfl rfl hw
    have hstop : (s.stopG .input 8).core = s.core := State.modPs_core _ _ _
    refine ((Calm.stopG g .input s 8).trans (hcore _ _ ?_)).trans (Calm.freeG g .input _ 0)
    rw [hstop]

theorem Calm.discDone (g : Group) (s : State) : Calm g s s.discDone := by
  unfold State.discDone
  split
  · exact Calm.freeG g .input s 8
  · exact Calm.refl g s

theorem Settled.headroomStep (g : Group) (s : State) (vrail vlow : Nat) : Settled g s (s.headroomStep g vrail vlow) := by
  unfold State.headroomStep State.gateBack
  split
  case isFalse => exact Settled.refl g s
  case isTrue hbit =>
    refine ⟨(Calm.freeG g g s 1).trans ?_, fun h0 => ?_⟩
    · split
      · exact (Calm.discOn g _ _ _).trans (Calm.discDone g _)
      · exact Calm.refl g _
    · rw [h0] at hbit
      exact absurd hbit Bool.false_ne_true

theorem Settled.startStep (g : Group) (s : State) (vrail vlow : Nat) : Settled g s (s.startStep g vrail vlow) := by
  unfold State.startStep
  exact Settled.ite (Settled.modG rfl rfl id fun _ _ h => absurd h Bool.noConfusion) (Settled.refl g s)

/-! ### The end of the boundary -/

theorem Settled.passHold (g : Group) (s : State) : Settled g s s.passHold := by
  unfold State.passHold
  exact Settled.ite (Settled.modPs_level g s _ fun _ => ⟨rfl, rfl⟩) (Settled.refl g s)

theorem Settled.peakEnd (g : Group) (s : State) : Settled g s (s.peakEnd g) := by
  unfold State.peakEnd
  exact (Settled.modPs_level g s _ (f := fun x => { x with cut := false, peakRun := 0 }) fun _ => ⟨rfl, rfl⟩).trans
    (Settled.of_told g (Told.foldl _ (Told.refl _) fun y p => y.coreClearI_told 1 1 p))

theorem Settled.swapZ (g : Group) (s : State) : Settled g s (s.swapZ g) := by
  unfold State.swapZ
  split
  · split
    · exact Settled.ite (Settled.stopG (by decide)) (Settled.refl g s)
    · exact Settled.refl g s
  · exact Settled.refl g s

theorem Settled.setChanged (g : Group) (s : State) : Settled g s (s.setChanged g) := by
  unfold State.setChanged
  exact Settled.modG_kept fun _ => rfl

end Sys2Proof.Machine
end

section
/-!
PROOFS. The steps of a boundary up to its command, and the command (for O22).
-/
namespace Sys2Proof.Machine

/-! ### What is settled, by its fields -/

section
variable {g : Group} {s t : State} (h : Steady g s t)
include h

theorem Steady.vrail : (t.g g).vrail = (s.g g).vrail := by
  change (t.g g).settled.vrail = _
  rw [h.settled, GroupSt.settled]

theorem Steady.vlow : (t.g g).vlow = (s.g g).vlow := by
  change (t.g g).settled.vlow = _
  rw [h.settled, GroupSt.settled]

theorem Steady.iv : (t.g g).iv = (s.g g).iv := by
  change (t.g g).settled.iv = _
  rw [h.settled, GroupSt.settled]

theorem Steady.iff : (t.g g).iff = (s.g g).iff := by
  change (t.g g).settled.iff = _
  rw [h.settled, GroupSt.settled]

theorem Steady.icmd : (t.g g).icmd = (s.g g).icmd := by
  change (t.g g).settled.icmd = _
  rw [h.settled, GroupSt.settled]

theorem Steady.step : (t.g g).step = (s.g g).step := by
  change (t.g g).settled.step = _
  rw [h.settled, GroupSt.settled]

theorem Steady.fold : (t.g g).fold = (s.g g).fold := by
  change (t.g g).settled.fold = _
  rw [h.settled, GroupSt.settled]

theorem Steady.stratus : (t.g g).stratus = (s.g g).stratus := by
  change (t.g g).settled.stratus = _
  rw [h.settled, GroupSt.settled]

end

/-! ### Words applied (R34, R155, R172) -/

theorem Applied.foldl {α : Type} {g : Group} {s : State} {f : State → α → State} (l : List α) (hf : ∀ y a, Applied g y (f y a)) :
    Applied g s (l.foldl f s) := by
  induction l generalizing s with
  | nil => exact Applied.refl g s
  | cons a l ih => exact (hf s a).trans ih

/-- A change of the core apart from groups and phases. -/
theorem Applied.core (g : Group) {s t : State} (h : t = { s with core := t.core }) : Applied g s t := by
  rw [h]
  exact ⟨⟨⟨fun _ _ => rfl, fun _ _ => ⟨rfl, rfl⟩⟩, rfl, rfl⟩, Apart.of_grp rfl⟩

theorem Applied.modG_kept {g : Group} {s : State} {f : GroupSt → GroupSt} (hf : ∀ x, (f x).kept = x.kept) : Applied g s (s.modG g f) :=
  (Settled.modG_kept hf).applied

theorem Applied.applyTrim (g : Group) (s : State) (p v : Nat) : Applied g s (s.applyTrim p v) :=
  (Settled.modPs_level g s [p] (f := fun x => { x with
    trim := if !bit v 22 then 0 else if bit v 23 then ofCode 13 (field v 12 0) else x.trim }) fun _ => ⟨rfl, rfl⟩).applied

theorem Applied.applyFreq (g : Group) (s : State) (v : Nat) : Applied g s (s.applyFreq g v) := by
  unfold State.applyFreq
  refine Applied.modG_kept fun x => ?_
  split_ifs <;> rfl

theorem Applied.applyOrder (g : Group) (s : State) (v : Nat) : Applied g s (s.applyOrder g v) := by
  unfold State.applyOrder
  extract_lets order posOf core s1 s2 s3
  have hphases : Applied g s1 s2 := by
    refine (Settled.of_phases (State.foldl_modP_parts _ _ _) fun p hp => ?_).applied
    have hout : p ∉ s.phasesOf g := hp
    rw [State.phase_foldl_other _ hout]
    exact ⟨rfl, rfl⟩
  have hdue : Applied g s2 s3 := Applied.modG_kept fun _ => rfl
  have hcleared := Settled.of_told g ((s3.coreClearBy_told fun m => m.src == 1 && (m.kind == 2 || m.kind == 3) &&
    (s.phasesOf g).contains m.inst).trans (State.coreClearBy_told _ fun m => m.src == sourceOf g && m.kind == 3))
  exact (Applied.core g rfl : Applied g s s1).trans (hphases.trans (hdue.trans hcleared.applied))

theorem Applied.applyWord (g : Group) (s : State) (id v : Nat) : Applied g s (s.applyWord g id v) := by
  unfold State.applyWord
  refine Applied.ite (Applied.modG_kept fun _ => rfl) ?_
  refine Applied.ite (Applied.applyTrim g s _ v) ?_
  exact Applied.ite (Applied.applyFreq g s v) (Applied.ite (Applied.applyOrder g s v) (Applied.refl g s))

theorem Applied.applyAll (g : Group) (s : State) : Applied g s (s.applyAll g) := by
  unfold State.applyAll
  refine Applied.foldl _ fun y w => Applied.ite ?_ (Applied.refl g y)
  extract_lets y1 wait y2
  have hkept : Applied g y1 y2 := Applied.ite (Applied.core g rfl) (Applied.refl g y1)
  exact (Applied.applyWord g y w.id w.value).trans (hkept.trans (Applied.core g rfl))

theorem Applied.addedComplete (g : Group) (s : State) : Applied g s (s.addedComplete g) :=
  (Settled.modPs (fun _ hp => (List.mem_filter.mp hp).1) _).applied

/-! ### Stratus, fold-back, the command -/

/-- A step of the boundary, whatever it does to its own group. -/
structure Near (g : Group) (s t : State) : Prop extends Bounded g s t where
  apart : Apart g s t

theorem Near.refl (g : Group) (s : State) : Near g s s := ⟨Bounded.refl g s, Apart.refl g s⟩

theorem Near.trans {g : Group} {s t u : State} (h : Near g s t) (k : Near g t u) : Near g s u :=
  ⟨h.toBounded.trans k.toBounded, h.apart.trans k.apart⟩

theorem Near.modG {g : Group} {s : State} {f : GroupSt → GroupSt} (hf : (f (s.g g)).stops = (s.g g).stops) : Near g s (s.modG g f) :=
  ⟨Bounded.modG g g s f, Apart.modG hf⟩

theorem Near.strat (g : Group) {s t : State} (h : t = { s with strat := t.strat }) : Near g s t := by
  rw [h]
  exact ⟨⟨fun _ _ => rfl, fun _ _ => ⟨rfl, rfl⟩⟩, Apart.of_grp rfl⟩

theorem Near.ite {g : Group} {s a b : State} {c : Prop} [Decidable c] (ha : Near g s a) (hb : Near g s b) :
    Near g s (if c then a else b) := by
  split <;> assumption

theorem Applied.near {g : Group} {s t : State} (h : Applied g s t) : Near g s t := ⟨h.toBounded, h.apart⟩

theorem Settled.near {g : Group} {s t : State} (h : Settled g s t) : Near g s t := ⟨h.toBounded, h.apart⟩

/-- The group is still to take the Stratus values (R126). -/
def State.entering (s : State) (g : Group) : Bool := s.strat.absent && !(s.g g).stratus

theorem Near.stratusEntry (g : Group) (s : State) : Near g s (s.stratusEntry g) := by
  unfold State.stratusEntry
  refine Near.ite ?_ (Near.refl g s)
  extract_lets y
  have hentry : Near g s y := (Applied.core g rfl : Applied g s s.dropHeld).near.trans (Near.modG rfl)
  exact Near.ite hentry (hentry.trans (Near.strat g rfl))

theorem State.stratusEntry_g (s : State) (g : Group) :
    (s.stratusEntry g).g g = if s.entering g then { s.g g with stratus := true, iff := 0 } else s.g g := by
  unfold State.stratusEntry State.entering
  split
  case isTrue =>
    extract_lets y
    have hy : y.g g = { s.g g with stratus := true, iff := 0 } := s.dropHeld.g_modG_same g _
    split
    · exact hy
    · exact hy
  case isFalse => rfl

theorem State.stratusEntry_active {s : State} {g : Group} (h : s.entering g = true) : (s.stratusEntry g).strat.active = true := by
  unfold State.entering at h
  unfold State.stratusEntry
  rw [if_pos h]
  dsimp only
  split
  · assumption
  · rfl

theorem Near.liftAt (g : Group) (s : State) : Near g s (s.liftAt g) := by
  unfold State.liftAt State.liftGroup
  refine Near.ite ?_ (Near.refl g s)
  extract_lets y
  have hlift : Near g s y := Near.modG rfl
  exact Near.ite hlift (hlift.trans (Near.strat g rfl))

/-- A lift ends the Stratus limits of the group, and changes no more of it (R130). -/
theorem State.liftAt_g (s : State) (g : Group) :
    (s.liftAt g).g g = if (s.g g).lift then { s.g g with stratus := false, lift := false } else s.g g := by
  unfold State.liftAt State.liftGroup
  split
  case isTrue =>
    extract_lets y
    have hy : y.g g = { s.g g with stratus := false, lift := false } := s.g_modG_same g _
    split
    · exact hy
    · exact hy
  case isFalse => rfl

/-- VRAIL_S is sampled, and the factor rises by at most 1/16 (R169). -/
theorem State.foldUpdate_g (s : State) (g : Group) (v : Nat) :
    ∃ q k, (s.foldUpdate g v).g g = { s.g g with vrail := v, q := q, fold := k } ∧ k ≤ (s.g g).fold + 62500 := by
  have hle : ∀ t k : Nat, (if t < k then t else min t (k + 62500)) ≤ k + 62500 := fun t k => by
    split <;> omega
  unfold State.foldUpdate
  rw [State.g_modG_same]
  exact ⟨_, _, rfl, hle _ _⟩

theorem Near.foldUpdate (g : Group) (s : State) (v : Nat) : Near g s (s.foldUpdate g v) := by
  unfold State.foldUpdate
  exact Near.modG rfl

theorem Near.command (g : Group) (s : State) (pv : Int) (iexp : Nat) : Near g s (s.command g pv iexp) := by
  have hslow : Near g s (s.slowPower pv) := (Applied.core g rfl).near
  unfold State.command
  exact hslow.trans (Near.modG rfl)

theorem State.command_g (s : State) (g : Group) (pv : Int) (iexp : Nat) : (s.command g pv iexp).g g = { s.g g with
    iv := (s.slowPower pv).shareOf g pv iexp, icmd := (s.slowPower pv).shareOf g pv iexp + (s.g g).iff - (s.g g).step } :=
  State.g_modG_same (s.slowPower pv) g _

/-! ### The shares of P_v (R41, R142, R214) -/

theorem shareSlow_nonneg (avail : Group → Nat) (l : List Group) (ps : Nat) : ∀ e ∈ shareSlow avail l ps, 0 ≤ e.2.1 ∧ 0 ≤ e.2.2 := by
  induction l generalizing ps with
  | nil => exact nofun
  | cons g l ih =>
    intro e he
    rcases List.mem_cons.mp he with rfl | he
    · exact ⟨Int.natCast_nonneg _, Int.natCast_nonneg _⟩
    · exact ih _ e he

theorem widest_mem {l : List (Group × Int × Int)} {e : Group × Int × Int} (h : widest l = some e) : e ∈ l := by
  unfold widest at h
  refine List.foldlRecOn (motive := fun b => ∀ x, b = some x → x ∈ l) l _ (b := none) ?_ ?_ e h
  · exact nofun
  · intro b hb a ha x hx
    split at hx
    · cases hx
      exact ha
    · split at hx
      · cases hx
        exact ha
      · exact hb x hx

/-- No group is given less than nothing: a negative fast part takes from the shares, down to none. -/
theorem shareFast_nonneg {n : Nat} {pf : Int} {l : List (Group × Int × Int)} (h : ∀ e ∈ l, 0 ≤ e.2.1 ∧ 0 ≤ e.2.2) :
    ∀ e ∈ shareFast n pf l, 0 ≤ e.2 := by
  induction n generalizing pf l with
  | zero =>
    intro e he
    obtain ⟨x, hx, rfl⟩ := List.mem_map.mp he
    exact (h x hx).1
  | succ n ih =>
    intro e he
    unfold shareFast at he
    split at he
    case h_1 => cases he
    case h_2 x hx =>
      rcases List.mem_cons.mp he with rfl | he
      · obtain ⟨hshare, htop⟩ := h x (widest_mem hx)
        unfold clampI
        dsimp only
        split_ifs <;> omega
      · exact ih (fun y hy => h y (List.mem_filter.mp hy).1) e he

theorem State.shares_nonneg (s : State) (pv : Int) : ∀ e ∈ s.shares pv, 0 ≤ e.2 := shareFast_nonneg (shareSlow_nonneg _ _ _)

/-- The input group's share only ever delivers into the rail (R24). -/
theorem State.shareOf_input (s : State) (pv : Int) (iexp : Nat) : s.shareOf .input pv iexp ≤ 0 := by
  have hpart : 0 ≤ (((s.shares pv).find? fun e => e.1 == Group.input).map (·.2)).getD 0 := by
    cases h : (s.shares pv).find? fun e => e.1 == Group.input with
    | none => exact le_rfl
    | some e => exact s.shares_nonneg pv e (List.mem_of_find?_eq_some h)
  change (if (s.g .input).vlow = 0 then (0 : Int) else -(_ / ((s.g .input).vlow : Int))) ≤ 0
  split
  · exact le_rfl
  · exact neg_nonpos.mpr (Int.ediv_nonneg hpart (Int.natCast_nonneg _))

/-- A Provider's share is what its own loop asks for, within its limit (R142, R320). -/
theorem State.shareOf_provider {s : State} {g : Group} {p : Port} (hp : g.port? = some p) (h : s.provider p = true) (pv : Int) (iexp : Nat) :
    s.shareOf g pv iexp = (min iexp (s.sinkLimit g) : Nat) := by
  unfold State.shareOf
  rw [hp]
  exact if_pos h

theorem State.provider_congr {s t : State} {p : Port} (hw : t.core.words = s.core.words) (hs : t.strat = s.strat)
    (ho : t.obj Obj.STRATUS_LIM_LINK = s.obj Obj.STRATUS_LIM_LINK) (hg : (t.g p.group).stratus = (s.g p.group).stratus) :
    t.provider p = s.provider p := by
  unfold State.provider State.contract State.word
  rw [hw, hs, ho, hg]

theorem Group.group_of_port {g : Group} {p : Port} (h : g.port? = some p) : p.group = g := by
  cases g <;> cases h <;> rfl

end Sys2Proof.Machine
end

section
/-!
PROOFS. One boundary: what it takes over before its command, and what its command leaves (for O22).
-/
namespace Sys2Proof.Machine

/-- The group at its boundary: the low side sampled, the counts of boundaries moved. -/
def State.sampled (s : State) (g : Group) (x : Sample) : State :=
  s.modG g fun y => { y with
    vlow := x.vlow, frozenLeft := y.frozenLeft - 1, cycles16 := min 16 (y.cycles16 + 1)
    blockLeft := if 1 < y.blockLeft then y.blockLeft - 1 else y.blockLeft }

/-- Stratus entered and left. -/
def State.entered (s : State) (g : Group) (x : Sample) : State := ((s.sampled g x).stratusEntry g).liftAt g

/-- The group with its words applied and the fold-back factor updated. -/
def State.updated (s : State) (g : Group) (x : Sample) : State := (((s.entered g x).applyAll g).addedComplete g).foldUpdate g x.vrail

/-- The state in which the command is computed. -/
def State.opened (s : State) (g : Group) (x : Sample) : State :=
  if (s.updated g x).railOff g x.vrail then (s.updated g x).railDisturbed
  else if ((s.updated g x).g g).fold != 1000000 then (s.updated g x).probeAbandon
  else s.updated g x

/-- The state with its command. -/
def State.commanded (s : State) (g : Group) (x : Sample) : State := (s.opened g x).command g (1000 * x.pv) x.iexp

/-! ### Up to the command -/

theorem Near.sampled (g : Group) (s : State) (x : Sample) : Near g s (s.sampled g x) := by
  unfold State.sampled
  exact Near.modG rfl

theorem Near.entered (g : Group) (s : State) (x : Sample) : Near g s (s.entered g x) :=
  (Near.sampled g s x).trans ((Near.stratusEntry g _).trans (Near.liftAt g _))

theorem State.sampled_g (s : State) (g : Group) (x : Sample) : (s.sampled g x).g g = { s.g g with
    vlow := x.vlow, frozenLeft := (s.g g).frozenLeft - 1, cycles16 := min 16 ((s.g g).cycles16 + 1)
    blockLeft := if 1 < (s.g g).blockLeft then (s.g g).blockLeft - 1 else (s.g g).blockLeft } := s.g_modG_same g _

theorem State.sampled_entering (s : State) (g : Group) (x : Sample) : (s.sampled g x).entering g = s.entering g := by
  unfold State.entering
  rw [State.sampled_g]
  rfl

/-- What Stratus leaves of a group is its samples, its step and its fold-back; feedforward ends with the entry (R126). -/
theorem State.entered_g (s : State) (g : Group) (x : Sample) : ((s.entered g x).g g).vlow = x.vlow ∧
    ((s.entered g x).g g).iff = (if s.entering g then 0 else (s.g g).iff) ∧ ((s.entered g x).g g).step = (s.g g).step ∧
    ((s.entered g x).g g).fold = (s.g g).fold := by
  unfold State.entered
  rw [State.liftAt_g, State.stratusEntry_g, State.sampled_entering, State.sampled_g]
  split_ifs <;> exact ⟨rfl, rfl, rfl, rfl⟩

/-- A group that is not to leave Stratus stands in it after its entry. -/
theorem State.entered_stratus {s : State} {g : Group} (x : Sample) (h : s.entering g = true) (hl : (s.g g).lift = false) :
    (s.entered g x).strat.active = true ∧ ((s.entered g x).g g).stratus = true := by
  have hin : (s.sampled g x).entering g = true := (s.sampled_entering g x).trans h
  have hg : ((s.sampled g x).stratusEntry g).g g = { (s.sampled g x).g g with stratus := true, iff := 0 } :=
    ((s.sampled g x).stratusEntry_g g).trans (if_pos hin)
  have hstay : (s.entered g x) = (s.sampled g x).stratusEntry g := by
    refine if_neg ?_
    rw [hg, State.sampled_g]
    change ¬ (s.g g).lift = true
    rw [hl]
    exact Bool.false_ne_true
  rw [hstay, hg]
  exact ⟨State.stratusEntry_active hin, rfl⟩

/-- From Stratus to the update of fold-back. -/
theorem Applied.words (g : Group) (s : State) : Applied g s ((s.applyAll g).addedComplete g) :=
  (Applied.applyAll g s).trans (Applied.addedComplete g _)

theorem Near.updated (g : Group) (s : State) (x : Sample) : Near g s (s.updated g x) :=
  (Near.entered g s x).trans ((Applied.words g _).near.trans (Near.foldUpdate g _ _))

theorem Settled.opened (g : Group) (s : State) (x : Sample) : Settled g (s.updated g x) (s.opened g x) :=
  Settled.ite (Settled.railDisturbed g _) (Settled.ite (Settled.probeAbandon g _) (Settled.refl g _))

theorem Near.commanded (g : Group) (s : State) (x : Sample) : Near g s (s.commanded g x) :=
  (Near.updated g s x).trans ((Settled.opened g s x).near.trans (Near.command g _ _ _))

/-- What the command is computed from: the samples, feedforward, the step, the fold-back factor. -/
theorem State.opened_g (s : State) (g : Group) (x : Sample) : ((s.opened g x).g g).vrail = x.vrail ∧ ((s.opened g x).g g).vlow = x.vlow ∧
    ((s.opened g x).g g).iff = (if s.entering g then 0 else (s.g g).iff) ∧ ((s.opened g x).g g).step = (s.g g).step ∧
    ((s.opened g x).g g).fold ≤ (s.g g).fold + 62500 := by
  have hsettled := (Settled.opened g s x).toSteady
  have hwords := (Applied.words g (s.entered g x)).toSteady
  obtain ⟨q, k, hfold, hk⟩ := (((s.entered g x).applyAll g).addedComplete g).foldUpdate_g g x.vrail
  have hupdated : (s.updated g x).g g = _ := hfold
  obtain ⟨hvlow, hiff, hstep, hk0⟩ := s.entered_g g x
  rw [hsettled.vrail, hsettled.vlow, hsettled.iff, hsettled.step, hsettled.fold, hupdated]
  rw [hwords.fold, hk0] at hk
  exact ⟨rfl, hwords.vlow.trans hvlow, hwords.iff.trans hiff, hwords.step.trans hstep, hk⟩

theorem State.opened_stratus {s : State} {g : Group} (x : Sample) (h : s.entering g = true) (hl : (s.g g).lift = false) :
    (s.opened g x).strat.active = true ∧ ((s.opened g x).g g).stratus = true := by
  obtain ⟨hactive, hstratus⟩ := State.entered_stratus x h hl
  have hsettled := (Settled.opened g s x).toSteady
  have hwords := (Applied.words g (s.entered g x)).toSteady
  obtain ⟨q, k, hfold, -⟩ := (((s.entered g x).applyAll g).addedComplete g).foldUpdate_g g x.vrail
  have hupdated : (s.updated g x).g g = _ := hfold
  rw [hsettled.strat, hsettled.stratus, hupdated]
  exact ⟨(congrArg Stratus.active hwords.strat).trans hactive, hwords.stratus.trans hstratus⟩

/-! ### From the command on -/

/-- What follows the direction test keeps what is settled, and clears the rise by feedforward. -/
theorem State.boundary_settled {s : State} {g : Group} (x : Sample) (hg : s.hasGroup g = true) (hf : (s.g g).freq ≠ 0) :
    Settled g ((s.commanded g x).direction g x.nearZero) (s.boundary g x) ∧ ((s.boundary g x).g g).ffRise = 0 := by
  unfold State.boundary
  rw [if_neg (by simp [hg, hf])]
  extract_lets before ramping nz s1 s2 s3 s4 s5 s6 s7 s8 s9 s10
  have hdir : Settled g (s.commanded g x) s5 := Settled.direction g _ _
  have hramping : ∀ p ∈ ramping, p ∈ s5.phasesOf g := fun p hp => by
    rw [hdir.phasesOf, (Near.commanded g s x).phasesOf]
    exact (List.mem_filter.mp hp).1
  have h6 : Settled g s5 s6 := Settled.ite ((Settled.rampStep hramping).trans (Settled.orderDemote g _)) (Settled.decisions _ hramping)
  have h7 : Settled g s6 s7 := Settled.modG (by rfl) (by rfl) (fun _ => rfl) fun _ => id
  have hrise : (s7.g g).ffRise = 0 := congrArg GroupSt.ffRise (s6.g_modG_same g _)
  have h8 : Settled g s7 s8 := by
    by_cases hin : g = .input
    · subst hin
      exact Settled.passStep s7 _ _
    · exact (if_neg hin : s8 = s7) ▸ Settled.refl g s7
  have h9 : Settled g s8 s9 :=
    (Settled.slewRef g _).trans ((Settled.freqStep g _ _ _).trans ((Settled.headroomStep g _ _ _).trans (Settled.startStep g _ _ _)))
  have h10 : Settled g s9 s10 := (Settled.ite (Settled.passHold g s9) (Settled.refl g s9)).trans ((Settled.peakEnd g _).trans (Settled.swapZ g _))
  have hend : Settled g s7 (if s10.running g = nz then s10 else s10.setChanged g) :=
    (h8.trans (h9.trans h10)).trans (Settled.ite (Settled.refl g s10) (Settled.setChanged g s10))
  exact ⟨(h6.trans h7).trans hend, hend.rise hrise⟩

/-- From the command to the end of the boundary. -/
theorem Settled.commanded {s : State} {g : Group} (x : Sample) (hg : s.hasGroup g = true) (hf : (s.g g).freq ≠ 0) :
    Settled g (s.commanded g x) (s.boundary g x) := (Settled.direction g _ x.nearZero).trans (State.boundary_settled x hg hf).1

theorem Near.boundary {s : State} {g : Group} (x : Sample) (hg : s.hasGroup g = true) (hf : (s.g g).freq ≠ 0) : Near g s (s.boundary g x) :=
  (Near.commanded g s x).trans (Settled.commanded x hg hf).near

/-- The share of the voltage loop that the group is given at a boundary, mA. -/
def State.given (s : State) (g : Group) (x : Sample) : Int :=
  ((s.opened g x).slowPower (1000 * x.pv)).shareOf g (1000 * x.pv) x.iexp

/-- The command is the share, feedforward and the step (R92, R142). -/
theorem State.boundary_command {s : State} {g : Group} (x : Sample) (hg : s.hasGroup g = true) (hf : (s.g g).freq ≠ 0) :
    ((s.boundary g x).g g).iv = s.given g x ∧
    ((s.boundary g x).g g).icmd = s.given g x + (if s.entering g then 0 else (s.g g).iff) - (s.g g).step ∧
    ((s.boundary g x).g g).iff = (if s.entering g then 0 else (s.g g).iff) := by
  have hb := (Settled.commanded x hg hf).toSteady
  have hc : (s.commanded g x).g g = { (s.opened g x).g g with
      iv := s.given g x, icmd := s.given g x + ((s.opened g x).g g).iff - ((s.opened g x).g g).step } :=
    State.command_g _ _ _ _
  obtain ⟨-, -, hiff, hstep, -⟩ := s.opened_g g x
  rw [hb.iv, hb.icmd, hb.iff, hc, hiff, hstep]
  exact ⟨rfl, rfl, rfl⟩

/-- The samples and the fold-back factor at the end of a boundary. -/
theorem State.boundary_samples {s : State} {g : Group} (x : Sample) (hg : s.hasGroup g = true) (hf : (s.g g).freq ≠ 0) :
    ((s.boundary g x).g g).vrail = x.vrail ∧ ((s.boundary g x).g g).vlow = x.vlow ∧
    ((s.boundary g x).g g).fold ≤ (s.g g).fold + 62500 := by
  have hb := (Settled.commanded x hg hf).toSteady
  obtain ⟨hvrail, hvlow, -, -, hfold⟩ := s.opened_g g x
  rw [hb.vrail, hb.vlow, hb.fold, State.commanded, State.command_g]
  exact ⟨hvrail, hvlow, hfold⟩

theorem State.boundary_stratus {s : State} {g : Group} (x : Sample) (hg : s.hasGroup g = true) (hf : (s.g g).freq ≠ 0)
    (h : s.entering g = true) (hl : (s.g g).lift = false) :
    (s.boundary g x).strat.active = true ∧ ((s.boundary g x).g g).stratus = true := by
  have hb := (Settled.commanded x hg hf).toSteady
  obtain ⟨hactive, hstratus⟩ := State.opened_stratus x h hl
  rw [hb.strat, hb.stratus, State.commanded, State.command_g]
  exact ⟨hactive, hstratus⟩

/-- The input group ends a boundary delivering, unless it is in a dwell or in soft-start (R24). -/
theorem State.boundary_inward {s : State} (x : Sample) (hg : s.hasGroup .input = true) (hf : (s.g .input).freq ≠ 0) :
    ((s.boundary .input x).g .input).inward :=
  (State.boundary_settled x hg hf).1.inward rfl (State.direction_inward _ _)

/-- A port is a Provider's after a boundary if it was when the command was computed. -/
theorem State.boundary_provider {s : State} {g : Group} {p : Port} (x : Sample) (hg : s.hasGroup g = true) (hf : (s.g g).freq ≠ 0)
    (hp : g.port? = some p) : (s.boundary g x).provider p = ((s.opened g x).slowPower (1000 * x.pv)).provider p := by
  have hb := Settled.commanded x hg hf
  refine State.provider_congr hb.words hb.strat (hb.objs _ (by decide)) ?_
  rw [Group.group_of_port hp, hb.stratus, State.commanded, State.command_g]
  rfl

/-- A Provider's share lies within what its own loop asks for (R142). -/
theorem State.given_provider {s : State} {g : Group} {p : Port} (x : Sample) (hp : g.port? = some p)
    (h : ((s.opened g x).slowPower (1000 * x.pv)).provider p = true) : 0 ≤ s.given g x ∧ s.given g x ≤ x.iexp := by
  rw [State.given, State.shareOf_provider hp h]
  exact ⟨Int.natCast_nonneg _, Int.ofNat_le.mpr (Nat.min_le_left _ _)⟩

theorem exec_switchingCycleBoundary (g : Group) (x : Sample) (s : State) :
    exec (.switchingCycleBoundary g x) s = .next (s.logDiff (s.boundary g x)) := rfl

/-- Settles O22: the boundary by its steps, each of which keeps what the command has settled; the shedding; balancing by the averages taken
over and the clamp of every trim; the zero level by the two outcomes of its measurement. -/
theorem groupBoundaryAndBalancing : Obligations.GroupBoundaryAndBalancing := by
  unfold Obligations.GroupBoundaryAndBalancing
  refine ⟨fun g x s hg hf => ?_, fun g p s hshed hp => ?_, fun g s h => exec_shedBlockEnd h, fun g avg s hg h16 => ?_, fun p mv s hp hz => ?_⟩
  · have hnear := Near.boundary x hg hf
    have htold := s.logDiff_told (s.boundary g x)
    obtain ⟨hiv, hicmd, hiff⟩ := State.boundary_command x hg hf
    obtain ⟨hvrail, hvlow, hfold⟩ := State.boundary_samples x hg hf
    have hentering : s.entering g = true ↔ s.strat.absent = true ∧ (s.g g).stratus = false := by simp [State.entering]
    have hparts := execSwitchingCycleBoundary_parts g x (exec_switchingCycleBoundary g x s)
    refine ⟨_, exec_switchingCycleBoundary g x s, ?_⟩
    simp only [htold.g, htold.strat, htold.phase, hiv, hicmd, hiff, hvrail, hvlow, hentering]
    refine ⟨trivial, trivial, (State.boundary_settled x hg hf).2, trivial, ?_, fun p hport hprov => ?_, hfold, fun ha hs hl => ?_,
      hnear.outside, fun h1 => (hnear.apart h1).2, hparts.only (by decide), ?_⟩
    · rintro rfl
      exact ⟨State.shareOf_input _ _ _, State.boundary_inward x hg hf⟩
    · rw [State.provider_congr htold.words htold.strat (htold.obj (by decide)) (by rw [htold.g]), State.boundary_provider x hg hf hport] at hprov
      exact State.given_provider x hport hprov
    · obtain ⟨hactive, hstratus⟩ := State.boundary_stratus x hg hf (hentering.mpr ⟨ha, hs⟩) hl
      exact ⟨hactive, hstratus, if_pos ⟨ha, hs⟩⟩
    · exact fun k hk => (htold.obj fun e => hk (e ▸ .head _)).trans (hnear.objs k hk)
  · have hb : p < 16 := (State.mem_phasesOf (State.mem_byPos (List.mem_filter.mp (List.mem_of_getLast? hp)).1)).1
    have hexec := exec_shedDecision hshed
    have hparts := execShedDecision_parts g hexec
    have htold := s.logDiff_told (s.shed g)
    refine ⟨_, hexec, ?_⟩
    rw [State.shed_of_last hp] at hparts htold ⊢
    simp only [htold.phase, htold.g, State.phase_modG]
    exact ⟨State.phase_modP_same _ _ hb, fun q hq => State.phase_modP_other _ _ hq, State.g_modG_same _ _ _,
      fun h hne => State.g_modG_other _ _ hne, hparts.only (by decide), htold.objs⟩
  · have hexec := exec_balancingUpdate avg hg h16
    refine ⟨_, hexec, ?_⟩
    simp only [State.rebalanced_g, State.rebalanced_phase]
    refine ⟨State.g_modG_same _ _ _, fun h hne => State.g_modG_other _ _ hne, fun h => State.balance_still avg h,
      fun h q hq hc => State.balance_clamped avg h (State.mem_activeOf.mpr ⟨hq, hc⟩),
      fun q hq => State.balance_other _ _ _ ?_, fun q hq hc => ?_, State.rebalanced_still avg,
      (execBalancingUpdate_parts g avg hexec).only (by decide)⟩
    · rw [State.mem_activeOf]
      tauto
    · rw [s.balance_field Phase.avg (fun _ _ => rfl), State.averaged_avg avg (State.mem_activeOf.mpr ⟨hq, hc⟩)]
  · have hexec := exec_isnsZeroMeasurement mv hp hz
    have htold := s.logDiff_told (s.zeroMeasured p.val mv)
    have hcore := s.logDiff_core (s.zeroMeasured p.val mv)
    have hphase := s.zeroMeasured_phase mv p.isLt
    have hinst : p.val < 65536 := p.isLt.trans (by decide)
    refine ⟨_, hexec, ?_⟩
    rw [htold.phase, hcore]
    refine ⟨?_, fun hgood => ⟨?_, ?_⟩, fun hout => ?_, fun hlatched => ?_, fun q hq => (htold.phase q).trans (s.zeroMeasured_other mv hq),
      (execIsnsZeroMeasurement_parts p mv hexec).only (by decide),
      fun k hk => (htold.objs k hk).trans (s.zeroMeasured_objs p.val mv k hk)⟩
    · rw [hphase]
      split
      · exact (Phase.zeroGood_zero _ _).1
      · exact (Phase.zeroOut_zero _ _ _).1
    · rw [hphase, if_pos hgood]
      exact (Phase.zeroGood_zero _ _).2
    · rw [State.zeroMeasured_good hgood]
      exact State.coreClearI_cleared _ _ _ hinst
    · rw [if_neg (by omega)] at hphase
      obtain ⟨-, hbad, hcode, hweight⟩ := Phase.zeroOut_zero (s.phase p.val) mv s.now
      have hcode5 : ((s.logDiff (s.zeroMeasured p.val mv)).phase p.val).code = 5 := by rw [htold.phase, hphase, hcode]
      refine ⟨hphase ▸ hcode, hphase ▸ hweight, hphase ▸ hbad, State.pwm_of_latched hcode5, ?_⟩
      rw [State.zeroMeasured_out hout]
      exact State.coreRaiseC_contains _ hinst
    · rw [hphase]
      split
      · exact .inl (Phase.zeroGood_of_latched mv hlatched)
      · exact .inr (Phase.zeroOut_zero _ _ _).2.2.1

end Sys2Proof.Machine
end

section
/-!
PROOFS. Fold-back stops, soft-start and the events of the groups (O23).
-/
namespace Sys2Proof.Machine

/-! ### A fold-back stop (R171) -/

/-- The group's fold-back stops of the last 10 s. -/
def State.recentFolds (s : State) (g : Group) : List Nat := (s.g g).foldStops.filter fun x => s.now < x + sec 10

/-- The group held at Z by a fold-back stop, before its reports: the third within 10 s locks it out. -/
def State.foldHalted (s : State) (g : Group) : State :=
  (s.stopG g 2).modG g fun x => { x with
    foldStops := s.now :: s.recentFolds g, foldStopped := true
    foldLocked := x.foldLocked || decide (3 ≤ (s.recentFolds g).length + 1) }

theorem State.foldStop_told (s : State) (g : Group) : Told (s.foldHalted g) (s.foldStop g) :=
  (State.coreRaise_told (s.foldHalted g) _ _ _).trans (Told.ite (State.coreRaiseC_told _ _ _ _) (Told.refl _))

theorem State.foldHalted_g (s : State) (g : Group) : (s.foldHalted g).g g = { s.g g with
    stops := setBit (s.g g).stops 2 true, foldStops := s.now :: s.recentFolds g, foldStopped := true
    foldLocked := (s.g g).foldLocked || decide (3 ≤ (s.recentFolds g).length + 1) } := by
  rw [State.foldHalted, State.g_modG_same, State.g_stopG_same]

theorem State.foldHalted_other (s : State) {g h : Group} (hne : h ≠ g) : (s.foldHalted g).g h = s.g h :=
  ((s.stopG g 2).g_modG_other _ hne).trans (s.g_stopG_other 2 hne)

theorem State.foldHalted_objs (s : State) (g : Group) : (s.foldHalted g).objs = s.objs :=
  (State.stopG_parts (p := 0xc0) g 2 rfl (Fr.refl _ s)).objs rfl

theorem exec_foldStop {s : State} {g : Group} (hfold : (s.g g).fold < 1000000) (hq : (s.g g).q < 500000)
    (hfree : (s.g g).foldStopped = false) : exec (.foldStop g) s = .next (s.logDiff (s.foldStop g)) := by
  have hexec : exec (.foldStop g) s = execFoldStop g s := rfl
  rw [hexec, execFoldStop, State.logged, if_pos (by simp [hfold, hq, hfree])]

/-! ### The restart after it -/

/-- A restart frees the group with a factor of 1, as the model chooses for a stopped group (log entry 127). -/
theorem State.foldRestart_g (s : State) (g : Group) :
    bit ((s.foldRestart g).g g).stops 2 = false ∧ ((s.foldRestart g).g g).foldStopped = false ∧ ((s.foldRestart g).g g).fold = 1000000 := by
  rw [State.foldRestart, State.g_modG_same]
  refine ⟨?_, rfl, rfl⟩
  change bit ((s.freeG g 2).g g).stops 2 = false
  rw [State.stops_freeG_same, bit_setBit_same]

theorem State.foldRestart_other (s : State) {g h : Group} (hne : h ≠ g) : (s.foldRestart g).g h = s.g h :=
  ((s.freeG g 2).g_modG_other _ hne).trans (s.g_modG_other _ hne)

theorem exec_foldRestart {s : State} {g : Group} (hstop : (s.g g).foldStopped = true) (hlock : (s.g g).foldLocked = false) :
    exec (.foldRestart g) s = .next (s.logDiff (s.foldRestart g)) := by
  have hexec : exec (.foldRestart g) s = execFoldRestart g s := rfl
  rw [hexec, execFoldRestart, State.logged, if_pos (by simp [hstop, hlock])]

/-! ### The end of soft-start (R167) -/

theorem exec_softStartEnd {s : State} {g : Group} (hsoft : (s.g g).soft = true) (hcycles : 256 ≤ (s.g g).softCycles)
    (href : (s.g g).vref = s.vTarget g) : exec (.softStartEnd g) s = .next (s.modG g fun x => { x with soft := false }) := by
  have hexec : exec (.softStartEnd g) s = execSoftStartEnd g s := rfl
  rw [hexec, execSoftStartEnd, if_pos (by simp [hsoft, hcycles, href])]

/-! ### Events (R161, R171, R177, R501) -/

/-- An event of the core, with the shell there and room for it on the fault bus. -/
theorem State.coreRaise_sent {s : State} {src kind inst : Nat} (ha : s.strat.absent = false)
    (hroom : (s.col.bus.filter fun m => m.src == src).length < 4) (hi : inst < 65536) : s.coreRaise src kind inst =
      { s with col := { s.col with bus := s.col.bus ++ [{ src := src, kind := kind, inst := inst }] } } := by
  rw [State.coreRaise, State.coreSend, ha, if_neg Bool.false_ne_true, State.send, if_pos hroom, Nat.mod_eq_of_lt hi]

/-- An event of the core while the shell is absent, with room for it in the core's queue. -/
theorem State.coreRaise_queued {s : State} {src kind inst : Nat} (ha : s.strat.absent = true) (hroom : s.core.queue.length < 16)
    (hi : inst < 65536) : s.coreRaise src kind inst = { s with
      core := { s.core with queue := s.core.queue ++ [{ src := src, kind := kind, inst := inst, stamp := some s.stamp }] } } := by
  rw [State.coreRaise, State.coreSend, if_pos ha, State.enqueue, if_pos hroom, Nat.mod_eq_of_lt hi]

/-- A message holds 16 bits of its number. -/
theorem State.coreRaise_mod (s : State) (src kind inst : Nat) : s.coreRaise src kind (inst % 65536) = s.coreRaise src kind inst := by
  rw [State.coreRaise, State.coreRaise, Nat.mod_mod]

theorem exec_foldback {s : State} {g : Group} (h : (s.g g).fold < 1000000) :
    exec (.foldback g) s = .next (s.coreRaise (sourceOf g) 5 ((s.g g).fold / 1000)) := by
  have hexec : exec (.foldback g) s = execFoldback g s := rfl
  rw [hexec, execFoldback, if_pos h, State.foldNow]

theorem exec_syncRange {s : State} {g : Group} (h : (s.g g).sync = 1) :
    exec (.syncRange g) s = .next (s.coreRaise (sourceOf g) 9 ((s.g g).freq / 10 % 65536)) := by
  have hexec : exec (.syncRange g) s = execSyncRange g s := rfl
  rw [hexec, execSyncRange, if_pos h, State.coreRaise_mod]

theorem exec_balAtClamp {s : State} {p : Fin 16} (hen : bit (s.word (16 + p.val)) 22 = true) (hclamp : field (s.word (16 + p.val)) 18 13 ≠ 0)
    (htrim : (s.phase p.val).trim.natAbs = 64 * field (s.word (16 + p.val)) 18 13) :
    exec (.balAtClamp p) s = .next (s.coreRaise (sourceOf (groupOf p.val)) 4 p.val) := by
  have hexec : exec (.balAtClamp p) s = execBalAtClamp p s := rfl
  rw [hexec, execBalAtClamp, if_pos (by simp [hen, hclamp, htrim])]

/-- Settles O23: a stop and a restart each change one group before their reports, soft-start's end one field of it; every event is one event
of the core, which goes to the fault bus or to the core's queue. -/
theorem groupStopsAndEvents : Obligations.GroupStopsAndEvents := by
  unfold Obligations.GroupStopsAndEvents
  refine ⟨fun g s hfold hq hfree => ?_, fun g s hstop hlock => ?_, fun g s => exec_softStartEnd, fun s c src kind inst hc => ?_⟩
  · have hexec := exec_foldStop hfold hq hfree
    have htold := (s.foldStop_told g).trans (s.logDiff_told (s.foldStop g))
    have hbit : bit (setBit (s.g g).stops 2 true) 2 = true := bit_setBit_same _ _ _
    refine ⟨_, hexec, ?_⟩
    simp only [htold.g, s.foldHalted_g]
    refine ⟨hbit, trivial, rfl, rfl, fun p hp => State.pwm_of_stopped ?_, fun h hne => s.foldHalted_other hne,
      (execFoldStop_parts g hexec).only (by decide), fun k hk => (htold.objs k hk).trans (State.obj_congr (s.foldHalted_objs g) k)⟩
    rw [(State.mem_phasesOf hp).2, htold.g, s.foldHalted_g]
    exact ne_zero_of_bit hbit
  · have hexec := exec_foldRestart hstop hlock
    have htold := s.logDiff_told (s.foldRestart g)
    refine ⟨_, hexec, ?_⟩
    simp only [htold.g]
    obtain ⟨hstops, hstopped, hfold⟩ := s.foldRestart_g g
    exact ⟨hstops, hstopped, hfold, fun h hne => s.foldRestart_other hne, (execFoldRestart_parts g hexec).only (by decide), htold.objs⟩
  · obtain ⟨hexec, hinst⟩ : exec c s = .next (s.coreRaise src kind inst) ∧ inst < 65536 := by
      rcases hc with ⟨g, rfl, hfold, rfl, rfl, rfl⟩ | ⟨g, rfl, hsync, rfl, rfl, rfl⟩ | ⟨p, rfl, hen, hclamp, htrim, rfl, rfl, rfl⟩
      · exact ⟨exec_foldback hfold, by omega⟩
      · exact ⟨exec_syncRange hsync, Nat.mod_lt _ (by decide)⟩
      · exact ⟨exec_balAtClamp hen hclamp htrim, p.isLt.trans (by decide)⟩
    rw [hexec]
    exact ⟨fun ha hroom => congrArg _ (State.coreRaise_sent ha hroom hinst), fun ha hroom => congrArg _ (State.coreRaise_queued ha hroom hinst),
      _, rfl, (State.coreRaise_parts src kind inst rfl (Fr.refl 0x2030 s)).only (by decide), (s.coreRaise_told src kind inst).objs⟩

end Sys2Proof.Machine
end

section
/-!
PROOFS. The oscillator at a boundary (for O24): one step of the boundary moves the period, and no other step touches the oscillator.
-/
namespace Sys2Proof.Machine

/-! ### The oscillator's state -/

/-- What a group holds of its oscillator and of the reference that it follows. -/
def GroupSt.oscillator (x : GroupSt) : GroupSt :=
  { period := x.period, sync := x.sync, lockRun := x.lockRun, syncBarred := x.syncBarred }

/-- A step that leaves the oscillator of group `g` and the words in force. -/
structure Tuned (g : Group) (s t : State) : Prop where
  oscillator : (t.g g).oscillator = (s.g g).oscillator
  words : t.core.words = s.core.words

section
variable {g : Group} {s t : State} (h : Tuned g s t)
include h

theorem Tuned.period : (t.g g).period = (s.g g).period := by
  change (t.g g).oscillator.period = _
  rw [h.oscillator, GroupSt.oscillator]

theorem Tuned.sync : (t.g g).sync = (s.g g).sync := by
  change (t.g g).oscillator.sync = _
  rw [h.oscillator, GroupSt.oscillator]

theorem Tuned.lockRun : (t.g g).lockRun = (s.g g).lockRun := by
  change (t.g g).oscillator.lockRun = _
  rw [h.oscillator, GroupSt.oscillator]

theorem Tuned.syncBarred : (t.g g).syncBarred = (s.g g).syncBarred := by
  change (t.g g).oscillator.syncBarred = _
  rw [h.oscillator, GroupSt.oscillator]

theorem Tuned.syncSource : t.syncSource g = s.syncSource g := by
  rw [State.syncSource, State.word, h.words, State.syncSource, State.word]

theorem Tuned.refFreq (fsync : Nat) : t.refFreq g fsync = s.refFreq g fsync := by
  have hset : t.fSet g = s.fSet g := by rw [State.fSet, State.word, h.words, State.fSet, State.word]
  rw [State.refFreq, hset, h.syncSource, State.refFreq]

end

/-! ### Steps that leave it -/

theorem Tuned.refl (g : Group) (s : State) : Tuned g s s := ⟨rfl, rfl⟩

theorem Tuned.trans {g : Group} {s t u : State} (h : Tuned g s t) (k : Tuned g t u) : Tuned g s u :=
  ⟨k.oscillator.trans h.oscillator, k.words.trans h.words⟩

theorem Tuned.ite {g : Group} {s a b : State} {c : Prop} [Decidable c] (ha : Tuned g s a) (hb : Tuned g s b) :
    Tuned g s (if c then a else b) := by
  split <;> assumption

/-- A change of whichever group that leaves its oscillator. -/
theorem Tuned.modG (g h : Group) (s : State) {f : GroupSt → GroupSt} (hf : ∀ x, (f x).oscillator = x.oscillator) :
    Tuned g s (s.modG h f) := ⟨s.g_modG_field GroupSt.oscillator h g hf, rfl⟩

/-- A change outside the groups that leaves the words. -/
theorem Tuned.of_grp {g : Group} {s t : State} (hg : t.grp = s.grp) (hw : t.core.words = s.core.words) : Tuned g s t :=
  ⟨by rw [State.g_congr hg], hw⟩

theorem Tuned.of_parts {p : Nat} {s t : State} (g : Group) (h : Fr p s t) (hc : p.testBit 5 = false) (hg : p.testBit 6 = false) :
    Tuned g s t := Tuned.of_grp (h.grp hg) (by rw [h.core hc])

theorem Tuned.of_told {s t : State} (g : Group) (h : Told s t) : Tuned g s t := Tuned.of_grp h.grp h.words

theorem Tuned.modPs (g : Group) (s : State) (l : List Nat) (f : Phase → Phase) : Tuned g s (s.modPs l f) :=
  Tuned.of_parts g (State.modPs_parts (p := 0x80) l f rfl (Fr.refl _ s)) rfl rfl

theorem Tuned.stopG (g h : Group) (s : State) (n : Nat) : Tuned g s (s.stopG h n) := by
  have hstop : Tuned g s (s.modG h fun x => { x with stops := setBit x.stops n true }) := Tuned.modG g h s fun _ => rfl
  exact hstop.trans (Tuned.modPs g _ _ _)

theorem Tuned.freeG (g h : Group) (s : State) (n : Nat) : Tuned g s (s.freeG h n) := Tuned.modG g h s fun _ => rfl

/-! ### Up to the command -/

theorem Tuned.stratusEntry (g : Group) (s : State) : Tuned g s (s.stratusEntry g) := by
  unfold State.stratusEntry
  have hentry : Tuned g s (s.dropHeld.modG g fun x => { x with stratus := true, iff := 0 }) :=
    (Tuned.of_grp rfl rfl : Tuned g s s.dropHeld).trans (Tuned.modG g g _ fun _ => rfl)
  exact Tuned.ite (Tuned.ite hentry (hentry.trans (Tuned.of_grp rfl rfl))) (Tuned.refl g s)

theorem Tuned.liftAt (g : Group) (s : State) : Tuned g s (s.liftAt g) := by
  unfold State.liftAt State.liftGroup
  have hlift : Tuned g s (s.modG g fun x => { x with stratus := false, lift := false }) := Tuned.modG g g s fun _ => rfl
  exact Tuned.ite (Tuned.ite hlift (hlift.trans (Tuned.of_grp rfl rfl))) (Tuned.refl g s)

theorem Tuned.entered (g : Group) (s : State) (x : Sample) : Tuned g s (s.entered g x) :=
  (Tuned.modG g g s fun _ => rfl : Tuned g s (s.sampled g x)).trans ((Tuned.stratusEntry g _).trans (Tuned.liftAt g _))

/-- Stratus makes no word wait. -/
theorem State.entered_pend {s : State} (g : Group) (x : Sample) (h : s.core.pend = []) : (s.entered g x).core.pend = [] := by
  have hlift : (s.entered g x).core = ((s.sampled g x).stratusEntry g).core := (State.liftAt_parts (p := 0x440) g rfl (Fr.refl _ _)).core rfl
  have hdrop : (s.sampled g x).dropHeld.core.pend = [] := by
    change s.core.pend.filter _ = []
    rw [h, List.filter_nil]
  rw [hlift, State.stratusEntry]
  split
  · dsimp only
    split <;> exact hdrop
  · exact h

theorem State.applyAll_of_none {s : State} (g : Group) (h : s.core.pend = []) : s.applyAll g = s := by
  rw [State.applyAll, h, List.foldl_nil]

theorem Tuned.opened {s : State} (g : Group) (x : Sample) (h : s.core.pend = []) : Tuned g s (s.opened g x) := by
  have hadded : Tuned g (s.entered g x) ((s.entered g x).addedComplete g) :=
    Tuned.of_parts g (State.addedComplete_parts (p := 0x80) g rfl (Fr.refl _ _)) rfl rfl
  have hupdated : Tuned g s (s.updated g x) := by
    rw [State.updated, State.applyAll_of_none g (State.entered_pend g x h), State.foldUpdate]
    exact (Tuned.entered g s x).trans (hadded.trans (Tuned.modG g g _ fun _ => rfl))
  refine hupdated.trans (Tuned.ite ?_ (Tuned.ite ?_ (Tuned.refl g _)))
  · exact Tuned.of_parts g (State.railDisturbed_parts (p := 0x400010) rfl (Fr.refl _ _)) rfl rfl
  · exact Tuned.of_parts g (State.probeAbandon_parts (p := 0x400010) rfl (Fr.refl _ _)) rfl rfl

theorem Tuned.command (g : Group) (s : State) (pv : Int) (iexp : Nat) : Tuned g s (s.command g pv iexp) := by
  have hslow : Tuned g s (s.slowPower pv) := Tuned.of_grp rfl rfl
  unfold State.command
  exact hslow.trans (Tuned.modG g g _ fun _ => rfl)

/-! ### From the command to the reference -/

theorem Tuned.direction (g : Group) (s : State) (nz : Bool) : Tuned g s (s.direction g nz) := by
  unfold State.direction
  dsimp only
  split_ifs
  · exact Tuned.modG g g s fun _ => rfl
  · exact Tuned.modG g g s fun _ => rfl
  · refine Tuned.trans ?_ (Tuned.modPs g _ _ _)
    exact Tuned.modG g g s fun _ => rfl

theorem Tuned.rampStep (g : Group) (s : State) (l : List Nat) : Tuned g s (s.rampStep l) := Tuned.modPs g s _ _

theorem Tuned.orderDemote (g : Group) (s : State) : Tuned g s (s.orderDemote g) := by
  unfold State.orderDemote
  exact Tuned.ite ((Tuned.modPs g s _ _).trans (Tuned.modG g g _ fun _ => rfl)) (Tuned.refl g s)

theorem Tuned.loadStep (g : Group) (s : State) : Tuned g s (s.loadStep g) := by
  unfold State.loadStep
  exact (Tuned.of_told g (Told.of_reports (s.ev_reports _ _ _))).trans ((Tuned.modPs g _ _ _).trans (Tuned.modG g g _ fun _ => rfl))

theorem Tuned.shortfall (g : Group) (s : State) : Tuned g s (s.shortfall g) := by
  unfold State.shortfall
  exact (Tuned.of_told g ((Told.ite (s.coreRaise_told _ _ _) (Told.refl s)).trans
    (Told.ite (State.coreRaiseC_told _ _ _ _) (Told.refl _)))).trans (Tuned.modG g g _ fun _ => rfl)

theorem Tuned.shedCountStep (g : Group) (s : State) : Tuned g s (s.shedCountStep g) := by
  unfold State.shedCountStep
  exact Tuned.modG g g s fun _ => rfl

theorem Tuned.decisions (g : Group) (s : State) (before : Int) (l : List Nat) : Tuned g s (s.decisions g before l) := by
  unfold State.decisions
  dsimp only
  have hstep : ∀ y, Tuned g y ((y.loadStep g).railDisturbed) := fun y =>
    (Tuned.loadStep g y).trans (Tuned.of_parts g (State.railDisturbed_parts (p := 0x400010) rfl (Fr.refl _ _)) rfl rfl)
  have hadd : ∀ y, Tuned g y (((y.addDecision g).shortfall g).shedCountStep g) := fun y =>
    (Tuned.modPs g y _ _).trans ((Tuned.shortfall g _).trans (Tuned.shedCountStep g _))
  exact (Tuned.orderDemote g s).trans ((Tuned.ite (hstep _) (Tuned.rampStep g _ l)).trans (hadd _))

theorem Tuned.passStep (g : Group) (s : State) (vbus vrail : Nat) : Tuned g s (s.passStep vbus vrail) := by
  unfold State.passStep
  exact Tuned.modG g .input s fun _ => rfl

theorem Tuned.slewRef (g : Group) (s : State) : Tuned g s (s.slewRef g) := by
  unfold State.slewRef
  exact Tuned.modG g g s fun _ => rfl

/-! ### After the period has moved -/

theorem Tuned.gateBack (g : Group) (s : State) (vbus vrail : Nat) : Tuned g s (s.gateBack vbus vrail) := by
  have hon : Tuned g s (s.discOn vbus vrail) := by
    unfold State.discOn
    split
    · exact Tuned.refl g s
    · have hstop : (s.stopG .input 8).core = s.core := State.modPs_core _ _ _
      refine ((Tuned.stopG g .input s 8).trans ?_).trans (Tuned.freeG g .input _ 0)
      exact Tuned.of_grp rfl (by rw [hstop])
  exact Tuned.ite (hon.trans (Tuned.ite (Tuned.freeG g .input _ 8) (Tuned.refl g _))) (Tuned.refl g s)

theorem Tuned.headroomStep (g : Group) (s : State) (vrail vlow : Nat) : Tuned g s (s.headroomStep g vrail vlow) :=
  Tuned.ite ((Tuned.freeG g g s 1).trans (Tuned.gateBack g _ _ _)) (Tuned.refl g s)

theorem Tuned.startStep (g : Group) (s : State) (vrail vlow : Nat) : Tuned g s (s.startStep g vrail vlow) :=
  Tuned.ite (Tuned.modG g g s fun _ => rfl) (Tuned.refl g s)

theorem Tuned.passHold (g : Group) (s : State) : Tuned g s s.passHold :=
  Tuned.of_parts g (State.passHold_parts (p := 0x80) rfl (Fr.refl _ s)) rfl rfl

theorem Tuned.peakEnd (g : Group) (s : State) : Tuned g s (s.peakEnd g) :=
  (Tuned.modPs g s _ _).trans (Tuned.of_told g (Told.foldl _ (Told.refl _) fun y p => y.coreClearI_told 1 1 p))

theorem Tuned.swapZ (g : Group) (s : State) : Tuned g s (s.swapZ g) := by
  unfold State.swapZ
  split
  · split
    · exact Tuned.ite (Tuned.stopG g g s 6) (Tuned.refl g s)
    · exact Tuned.refl g s
  · exact Tuned.refl g s

theorem Tuned.setChanged (g : Group) (s : State) : Tuned g s (s.setChanged g) := by
  unfold State.setChanged
  exact Tuned.modG g g s fun _ => rfl

/-! ### The step that moves the period (R176-R180) -/

/-- A boundary without words moves the period once, in a state with the oscillator and the words as they were. -/
theorem State.boundary_tuned {s : State} {g : Group} (x : Sample) (hg : s.hasGroup g = true) (hf : (s.g g).freq ≠ 0)
    (hpend : s.core.pend = []) : ∃ a, Tuned g s a ∧ Tuned g (a.freqStep g x.fsync x.edge) (s.boundary g x) := by
  unfold State.boundary
  rw [if_neg (by simp [hg, hf])]
  extract_lets before ramping nz s1 s2 s3 s4 s5 s6 s7 s8 s9 s10
  have h5 : Tuned g s s5 := (Tuned.opened g x hpend).trans ((Tuned.command g _ _ _).trans (Tuned.direction g _ _))
  have h6 : Tuned g s5 s6 := Tuned.ite ((Tuned.rampStep g _ _).trans (Tuned.orderDemote g _)) (Tuned.decisions g _ _ _)
  have h7 : Tuned g s6 s7 := Tuned.modG g g _ fun _ => rfl
  have h8 : Tuned g s7 s8 := Tuned.ite (Tuned.passStep g s7 _ _) (Tuned.refl g s7)
  have href : Tuned g s8 (s8.slewRef g) := Tuned.slewRef g s8
  refine ⟨s8.slewRef g, ((h5.trans h6).trans (h7.trans h8)).trans href, ?_⟩
  have h9 : Tuned g ((s8.slewRef g).freqStep g x.fsync x.edge) s9 := (Tuned.headroomStep g _ _ _).trans (Tuned.startStep g _ _ _)
  have h10 : Tuned g s9 s10 := (Tuned.ite (Tuned.passHold g s9) (Tuned.refl g s9)).trans ((Tuned.peakEnd g _).trans (Tuned.swapZ g _))
  exact (h9.trans h10).trans (Tuned.ite (Tuned.refl g s10) (Tuned.setChanged g s10))

theorem slewPeriod_near (p target : Nat) : slewPeriod p target ≤ p + p / 100 ∧ p ≤ slewPeriod p target + p / 100 := by
  unfold slewPeriod
  split <;> omega

section
variable {s : State} {g : Group} {fsync : Nat} (edge : Nat) (hsrc : s.syncSource g ≠ 0) (hfree : (s.g g).syncBarred = false)
  (href : s.refFreq g fsync ≠ 0)
include hsrc hfree href

/-- A group that follows its reference nowhere yet starts to acquire it, from its present period (R180). -/
theorem State.freqStep_acquires (h : (s.g g).sync = 0 ∨ 3 ≤ (s.g g).sync) :
    s.freqStep g fsync edge = s.modG g fun x => { x with sync := 1, lockRun := 0 } := by
  unfold State.freqStep
  simp only [hsrc, hfree, decide_false, Bool.or_self, Bool.false_eq_true, if_false, bne_iff_ne.mpr href, if_true]
  split
  case h_1 => rfl
  case h_2 h1 => omega
  case h_3 h2 => omega
  case h_4 => rfl

/-- A group that acquires its reference, or has locked, tracks it. -/
theorem State.freqStep_tracks (h : (s.g g).sync = 1 ∨ (s.g g).sync = 2) :
    s.freqStep g fsync edge = s.trackStep g (s.refFreq g fsync) edge := by
  unfold State.freqStep
  simp only [hsrc, hfree, decide_false, Bool.or_self, Bool.false_eq_true, if_false, bne_iff_ne.mpr href, if_true]
  split
  case h_1 h0 => omega
  case h_2 => rfl
  case h_3 => rfl
  case h_4 h1 h2 => exact absurd h (not_or.mpr ⟨h1, h2⟩)

end

/-- One cycle of tracking moves the period by at most 1 %, and counts toward the lock or begins anew (R176, R177). -/
theorem State.trackStep_near (s : State) (g : Group) (fr edge : Nat) : ((s.trackStep g fr edge).g g).sync = (s.g g).sync ∧
    ((s.trackStep g fr edge).g g).period ≤ (s.g g).period + (s.g g).period / 100 ∧
    (s.g g).period ≤ ((s.trackStep g fr edge).g g).period + (s.g g).period / 100 ∧
    (((s.trackStep g fr edge).g g).lockRun = 0 ∨ ((s.trackStep g fr edge).g g).lockRun = (s.g g).lockRun + 1) := by
  rw [State.trackStep, State.g_modG_same]
  obtain ⟨hup, hdown⟩ := slewPeriod_near (s.g g).period
    ((periodOf fr : Int) - clampI (-(periodOf fr / 100 : Nat)) (periodOf fr / 100 : Nat)
      (syncError edge (field (s.word (32 + g.num)) 23 20) (s.g g).period)).toNat
  refine ⟨rfl, hup, hdown, ?_⟩
  dsimp only
  split
  · exact .inr rfl
  · exact .inl rfl

end Sys2Proof.Machine
end

section
/-!
PROOFS. Lock, loss of lock and the frequency-plan check (O24).
-/
namespace Sys2Proof.Machine

/-! ### Lock and its loss (R176, R177, R179) -/

theorem exec_syncLocked {s : State} {g : Group} (hsync : (s.g g).sync = 1) (hrun : 64 ≤ (s.g g).lockRun) :
    exec (.syncLocked g) s = .next (s.logDiff (s.modG g fun x => { x with sync := 2 })) := by
  have hexec : exec (.syncLocked g) s = execSyncLocked g s := rfl
  rw [hexec, execSyncLocked, State.logged, if_pos (by simp [hsync, hrun])]

theorem exec_syncLocked_early {s : State} {g : Group} (hrun : (s.g g).lockRun < 64) : exec (.syncLocked g) s = .next s := by
  have hexec : exec (.syncLocked g) s = execSyncLocked g s := rfl
  rw [hexec, execSyncLocked, State.logged, if_neg (by simp [hrun]), State.logDiff_self]

/-- The group that has lost its reference, before the report. -/
def State.syncAdrift (s : State) (g : Group) : State := s.modG g fun x => { x with sync := 3, freqLoss := x.freq, slewed := 0 }

theorem State.syncLose_told {s : State} {g : Group} (h : (s.g g).sync = 2) : Told (s.syncAdrift g) (s.syncLose g) := by
  rw [State.syncLose, if_pos h]
  exact State.coreRaise_told (s.syncAdrift g) _ _ _

theorem exec_syncLost (g : Group) (s : State) : exec (.syncLost g) s = .next (s.logDiff (s.syncLose g)) := rfl

/-! ### The frequency-plan check of one group (R178) -/

/-- The group is locked to a frequency that the plan excludes. -/
def State.unlocks (s : State) (g : Group) : Bool := (s.g g).sync == 2 && s.bandHit g

/-- The group unlocked: its FREQ word without a reference on the port, the group barred from its reference, the report. -/
def State.freqUnlocked (s : State) (g : Group) : State :=
  ((s.portWrite (32 + g.num) (s.word (32 + g.num) - field (s.word (32 + g.num)) 17 16 * 2 ^ 16)).modG g
    fun x => { x with syncBarred := true }).raise (sourceOf g) 9 ((s.g g).freq / 10)

theorem State.planCheck_eq (s : State) (g : Group) : s.planCheck g = if s.unlocks g then s.freqUnlocked g else s := rfl

/-- With every group running, a word on the port waits or is refused. -/
theorem State.portWrite_told {s : State} {id : Nat} (v : Nat) (h5 : id ≠ 5) (h6 : id ≠ 6) (hidle : s.idleGroups = []) :
    ∃ l r, Told { s with core := { s.core with pend := l, refused := r } } (s.portWrite id v) := by
  unfold State.portWrite State.portWord
  split
  · unfold State.accept
    dsimp only
    rw [hidle, if_neg (not_or.mpr ⟨h5, h6⟩), State.applyIdle, List.foldl_nil, ite_self]
    exact ⟨_, _, Told.refl _⟩
  · exact ⟨s.core.pend, _, State.coreRaise_told _ _ _ _⟩

/-- `t` is `s` to the frequency plan: of the groups only their bars from a reference differ. -/
structure Replanned (s t : State) : Prop where
  objs : s.SameObjs [Obj.FAULT_LOST] t
  words : t.core.words = s.core.words
  tabs : t.tabs = s.tabs
  barred : ∀ h, ∃ b, t.g h = { s.g h with syncBarred := b }

section
variable {s t : State} (h : Replanned s t)
include h

theorem Replanned.groups : t.groups = s.groups := State.groups_congr (State.variant_congr (h.objs _ (by decide)))

theorem Replanned.freq (g : Group) : (t.g g).freq = (s.g g).freq := by
  obtain ⟨b, hb⟩ := h.barred g
  rw [hb]

theorem Replanned.sync (g : Group) : (t.g g).sync = (s.g g).sync := by
  obtain ⟨b, hb⟩ := h.barred g
  rw [hb]

theorem Replanned.idleGroups : t.idleGroups = s.idleGroups := by
  simp only [State.idleGroups, h.groups, h.freq]

theorem Replanned.unlocks (g : Group) : t.unlocks g = s.unlocks g := by
  have hbands : t.freqBands = s.freqBands := by rw [State.freqBands, State.body, h.tabs, State.freqBands, State.body]
  have hen : t.nEn g = s.nEn g := by rw [State.nEn, orderWord, State.word, h.words, State.nEn, orderWord, State.word]
  simp only [State.unlocks, State.bandHit, hbands, hen, h.freq, h.sync]

end

theorem State.freqUnlocked_told {s : State} (g : Group) (hidle : s.idleGroups = []) : ∃ l r,
    Told (State.modG { s with core := { s.core with pend := l, refused := r } } g fun x => { x with syncBarred := true }) (s.freqUnlocked g) := by
  obtain ⟨l, r, htold⟩ := s.portWrite_told (id := 32 + g.num) _ (by omega) (by omega) hidle
  refine ⟨l, r, Told.trans ?_ (Told.of_reports (State.raise_reports _ _ _ _))⟩
  refine ⟨?_, htold.objs⟩
  unfold State.modG
  rw [htold.grp]
  conv_lhs => rw [htold.eq]

/-- The check bars the group alone, where it is locked to an excluded frequency. -/
theorem State.planCheck_g {s : State} (g h : Group) (hidle : s.idleGroups = []) :
    (s.planCheck g).g h = { s.g h with syncBarred := (s.g h).syncBarred || (h == g && s.unlocks h) } := by
  rw [State.planCheck_eq]
  by_cases hh : h = g
  · subst hh
    cases hu : s.unlocks h with
    | true =>
      obtain ⟨l, r, htold⟩ := s.freqUnlocked_told h hidle
      rw [if_pos rfl, htold.g, State.g_modG_same, beq_self_eq_true, Bool.and_self, Bool.or_true]
      rfl
    | false => rw [if_neg Bool.false_ne_true, Bool.and_false, Bool.or_false]
  · rw [beq_eq_false_iff_ne.mpr hh, Bool.false_and, Bool.or_false]
    split
    · obtain ⟨l, r, htold⟩ := s.freqUnlocked_told g hidle
      rw [htold.g, State.g_modG_other _ _ hh]
      rfl
    · rfl

theorem Replanned.planCheck {s : State} (g : Group) (hidle : s.idleGroups = []) : Replanned s (s.planCheck g) := by
  obtain ⟨hobjs, hwords⟩ : s.SameObjs [Obj.FAULT_LOST] (s.planCheck g) ∧ (s.planCheck g).core.words = s.core.words := by
    rw [State.planCheck_eq]
    split
    · obtain ⟨l, r, htold⟩ := s.freqUnlocked_told g hidle
      exact ⟨htold.objs, htold.words⟩
    · exact ⟨fun _ _ => rfl, rfl⟩
  exact ⟨hobjs, hwords, (State.planCheck_parts (p := 0x20f0) g rfl (Fr.refl _ s)).tabs rfl, fun h => ⟨_, State.planCheck_g g h hidle⟩⟩

/-! ### The check of all groups -/

/-- The checks of several groups bar those that are locked to an excluded frequency: no check changes what another sees. -/
theorem State.foldl_planCheck_g (l : List Group) {s : State} (h : Group) (hidle : s.idleGroups = []) :
    (l.foldl State.planCheck s).g h = { s.g h with syncBarred := (s.g h).syncBarred || (l.contains h && s.unlocks h) } := by
  induction l generalizing s with
  | nil => rw [List.contains_nil, Bool.false_and, Bool.or_false, List.foldl_nil]
  | cons g l ih =>
    have hstep := Replanned.planCheck g hidle
    rw [List.foldl_cons, ih (hstep.idleGroups.trans hidle), hstep.unlocks, State.planCheck_g g h hidle, List.contains_cons,
      Bool.or_assoc, Bool.and_or_distrib_right]

theorem State.contains_groups (s : State) (g : Group) : s.groups.contains g = s.hasGroup g := by
  have hall : g ∈ Group.all := by cases g <;> decide
  rw [Bool.eq_iff_iff, List.contains_iff_mem, State.groups, List.mem_filter]
  exact and_iff_right hall

theorem exec_freqPlanCheck {s : State} (h : s.shellUp = true) :
    exec .freqPlanCheck s = .next (s.logDiff (s.groups.foldl State.planCheck s)) := by
  have hexec : exec .freqPlanCheck s = execFreqPlanCheck s := rfl
  rw [hexec, execFreqPlanCheck, State.logged, if_pos h]

/-- Settles O24: at a boundary one step alone moves the period, by the state of the synchronisation; a lock and its loss are changes of one
group; the plan's checks of the groups are independent of one another. -/
theorem synchronisation : Obligations.Synchronisation := by
  unfold Obligations.Synchronisation
  refine ⟨fun g x s hg hf hpend hsrc hfree href => ?_, fun g s hsync => ⟨fun hrun => ?_, exec_syncLocked_early⟩, fun g s hsync => ?_,
    fun s hup hidle => ?_⟩
  · obtain ⟨a, ha, hend⟩ := State.boundary_tuned x hg hf hpend
    have hexec := exec_switchingCycleBoundary g x s
    rw [← ha.syncSource] at hsrc
    rw [← ha.syncBarred] at hfree
    rw [← ha.refFreq] at href
    refine ⟨_, hexec, (execSwitchingCycleBoundary_parts g x hexec).only (by decide), ?_⟩
    simp only [(s.logDiff_told (s.boundary g x)).g, hend.sync, hend.lockRun, hend.period, ← ha.sync, ← ha.lockRun, ← ha.period]
    refine ⟨fun h => ?_, fun h => ?_⟩
    · rw [State.freqStep_acquires x.edge hsrc hfree href h, State.g_modG_same]
      exact ⟨rfl, rfl, rfl⟩
    · rw [State.freqStep_tracks x.edge hsrc hfree href h]
      exact a.trackStep_near g _ _
  · have hexec := exec_syncLocked hsync hrun
    have htold := s.logDiff_told (s.modG g fun x => { x with sync := 2 })
    refine ⟨_, hexec, ?_⟩
    simp only [htold.g]
    exact ⟨s.g_modG_same g _, fun h hne => s.g_modG_other _ hne, (execSyncLocked_parts g hexec).only (by decide), htold.objs⟩
  · have hexec := exec_syncLost g s
    have htold := (State.syncLose_told hsync).trans (s.logDiff_told (s.syncLose g))
    refine ⟨_, hexec, ?_⟩
    simp only [htold.g]
    exact ⟨s.g_modG_same g _, fun h hne => s.g_modG_other _ hne, (execSyncLost_parts g hexec).only (by decide), htold.objs⟩
  · have hexec := exec_freqPlanCheck hup
    refine ⟨_, hexec, fun g => ?_, fun hnone => ?_, (execFreqPlanCheck_parts hexec).only (by decide)⟩
    · rw [(s.logDiff_told _).g, State.foldl_planCheck_g _ g hidle, State.contains_groups, State.unlocks, Bool.and_assoc]
    · have hsame : s.groups.foldl State.planCheck s = s := foldl_of_fixed _ fun g hg => by
        have hhas : s.hasGroup g = true := s.contains_groups g ▸ List.contains_iff_mem.mpr hg
        have hkeep : s.unlocks g = false := by simpa [State.unlocks] using hnone g hhas
        rw [State.planCheck_eq, hkeep, if_neg Bool.false_ne_true]
      rw [hsame, State.logDiff_self]

end Sys2Proof.Machine
end

section
/-!
PROOFS. Pass-through entered in a neutral dwell: a counterexample to the statement about the disconnect path and the stops of the core (O27).
-/
namespace Sys2Proof.Machine

/-- In a neutral dwell every phase of the group stands at Z, whatever its own level (R93, R119). -/
theorem State.pwm_of_dwell {s : State} {p : Nat} (h : (s.g (groupOf p)).dwell = true) : s.pwm p = .Z := by
  unfold State.pwm
  simp only [h, if_true, ite_self]

/-- Play with DISC_GATE on: the input group dwells with its phases at level H, and pass-through is due. -/
def dwellingInput : State :=
  { State.reset with
    objs := [(Obj.MODE_STATE, 3)], aon := { shell := true, por := false }, core := { disc := true }
    grp := { State.reset.grp with input := { freq := 4000, passRun := 3, dwell := true } }
    ph := Vector.replicate 16 { code := 3, weight := 4, pos := 1, level := .H } }

/-- Refutes O27: its part on pass-through asks for level H at the outputs of phases that hold H. Its conditions name the rows of R119 above
the level but for the neutral dwell, and that row puts every output of the group at Z: the entry, which changes no field of the input group
but `pass` by the statement itself, leaves the dwell as it is. -/
theorem not_disconnectPathAndCoreStops : ¬ Obligations.DisconnectPathAndCoreStops := by
  rintro ⟨-, -, -, hentry, -⟩
  obtain ⟨t, -, hinput, hlevels, -⟩ := hentry dwellingInput rfl (by decide) rfl
  have hhigh : t.pwm 2 = .H :=
    (hlevels 2 (by decide) rfl rfl (by decide) rfl (by decide) (by decide)).1 (by decide)
  have hdwell : (t.g (groupOf 2)).dwell = true := congrArg GroupSt.dwell hinput
  have hoff : t.pwm 2 = .Z := State.pwm_of_dwell hdwell
  exact absurd (hhigh.symm.trans hoff) (by decide)

end Sys2Proof.Machine
end

section
/-!
PROOFS. An UNKNOWN source in Stratus: a counterexample to the statement about classification (O28).
-/
namespace Sys2Proof.Machine

/-- No reclassification starts in Stratus (R186). -/
theorem exec_reclassification_of_stratus {s : State} (h : s.modeNow = 6) : exec .reclassification s = .next s := by
  have hexec : exec .reclassification s = execReclassification s := rfl
  rw [hexec, execReclassification, if_neg (by simp [h])]

/-- Stratus with an UNKNOWN source connected; the shell has come back as far as step 8, and the core still treats it as absent. -/
def unknownInStratus : State :=
  { State.reset with
    objs := [(Obj.MODE_STATE, 6), (Obj.BRINGUP_STEP, 8), (Obj.SRC_TYPE, 5), (Obj.SRC_STATE, 2)]
    aon := { shell := true, por := false }, strat := { active := true, absent := true }, core := { disc := true } }

/-- Refutes O28: its last part asks for a classification wherever the object server answers. It answers from step 7 of a bring-up on, in
Stratus too, where the power path never classifies (R186). -/
theorem not_classification : ¬ Obligations.Classification := by
  rintro ⟨-, -, -, -, -, hunknown⟩
  obtain ⟨t, ht, hstarted, -⟩ := hunknown unknownInStratus (by decide) (by decide) rfl (by decide) (.inl rfl)
  rw [exec_reclassification_of_stratus (by decide)] at ht
  obtain rfl := Host.Outcome.next.inj ht
  exact absurd hstarted (by decide)

end Sys2Proof.Machine
end

section
/-!
PROOFS. PLAY_AUTO in a thermal shutdown: a counterexample to the statement about envelope frames (O30).
-/
namespace Sys2Proof.Machine

theorem exec_frameStart (edges period : Nat) (s : State) : exec (.frameStart edges period) s =
    .next (s.logged fun s => if s.shellUp then s.fsEdge edges period else s.fsEdgeAbsent edges) := rfl

/-- Idle in a thermal shutdown, with PLAY_AUTO on and no target; the feed is ACTIVE at 48 kHz and four frames have come. -/
def framesInShutdown : State :=
  { State.reset with
    objs := [(Obj.MODE_STATE, 2), (Obj.PLAY_AUTO, 1), (Obj.ENV_STATE, 2), (Obj.TSD_STATE, 1)]
    aon := { shell := true, por := false }, env := { rate := 1, seen := true, good := 4, present := 4 } }

/-- Refutes O30: the part on PLAY_AUTO asks for Play after a frame start in Idle, and its conditions do not name TSD_STATE. In a thermal
shutdown the mode does not change (R460): one more good frame leaves Idle as it is. -/
theorem not_envelopeFramesAndTimer : ¬ Obligations.EnvelopeFramesAndTimer := by
  rintro ⟨hframe, -⟩
  obtain ⟨-, hauto⟩ := hframe 512 20833 framesInShutdown rfl rfl (by decide)
  obtain ⟨t, ht, -, hplay, -⟩ := hauto (by decide) (by decide) (by decide) (by decide) rfl (by decide) (by decide) (by decide)
  rw [exec_frameStart] at ht
  obtain rfl := Host.Outcome.next.inj ht
  have hidle : (framesInShutdown.logged fun s =>
      if s.shellUp then s.fsEdge 512 20833 else s.fsEdgeAbsent 512).modeNow = 2 := by decide
  exact absurd (hidle.symm.trans hplay) (by decide)

end Sys2Proof.Machine
end

section
/-!
PROOFS. A SEQ gap whose message waits in the core's queue: a counterexample to the statement about demand and grant (O31).
-/
namespace Sys2Proof.Machine

/-- A message of a kind that can still take an occurrence. -/
def Msg.counts (src kind : Nat) (m : Msg) : Bool := m.src == src && m.kind == kind && !m.clear

/-- An occurrence that sends no message is counted in the core's queue, where its kind waits there and not on the bus (R259). -/
theorem State.again_core_of_queued {s : State} {src kind : Nat} (hbus : s.col.bus.any (Msg.counts src kind) = false)
    (hqueue : s.core.queue.any (Msg.counts src kind) = true) :
    (s.again src kind).core = { s.core with queue := moreOn (Msg.counts src kind) s.core.queue } := by
  have hcounts : (fun m : Msg => m.src == src && m.kind == kind && !m.clear) = Msg.counts src kind := rfl
  simp only [State.again, hcounts, hbus, hqueue, Bool.false_eq_true, if_false, if_true]

/-- A gap less than a second after the last one that was reported sends no message of its own (R259). -/
theorem State.seqGap_of_recent {s : State} {t : Nat} (seq : Nat) (hat : s.env.gapAt = some t) (hsoon : s.now < t + sec 1) :
    s.seqGap seq = s.again 0x19 2 := by
  have hlate : decide (t + sec 1 ≤ s.now) = false := decide_eq_false (Nat.not_le.mpr hsoon)
  rw [State.seqGap, hat, Option.elim_some, hlate, if_neg Bool.false_ne_true]

/-- A header outside the sequence is counted as a gap; nothing else of the header reaches the core. -/
theorem State.header_core_of_gap {s : State} {h : Nat} (hgap : s.seqFollows h = false) :
    (s.header h).core = ((s.envTally 2).seqGap (field h 31 16)).core := by
  have hraise : ∀ x : State, (x.raise 0x19 8 (field h 31 16)).core = x.core := fun x => by
    rw [(State.raise_reports x _ _ _).1]
  simp only [State.header, hgap, Bool.false_eq_true, if_false, State.set_core, State.modE]
  split
  · exact hraise _
  · rfl

theorem exec_demandHeader {w : BitVec 32} {s : State}
    (h : (s.bclkSeen.envRun && s.bclkSeen.env.rate != 0 && s.bclkSeen.env.seen) = true) : exec (.demandHeader w) s =
      .next ((s.bclkSeen.modE fun e => { e with slot := some 0 }).header w.toNat) :=
  congrArg Host.Outcome.next (if_pos h)

/-- The feed in step at 48 kHz with SEQ 7 last, a gap reported just now, and a SEQ_GAP that waits in the core's queue. -/
def gapInCoreQueue : State :=
  { State.reset with
    objs := [(Obj.ENV_STATE, 2)], core := { queue := [{ src := 0x19, kind := 2, inst := 7 }] }
    aon := { shell := true, por := false }, env := { rate := 1, seen := true, seq := some 7, gapAt := some 0 } }

/-- Refutes O31: the part on the header leaves the core out of the components that may change, in every state. A second gap within a second
is counted on the message of its kind that waits, and the core's queue is one of the places where it can wait (R259). The envelope port
itself sends to the bus only, so it is the statement's range over all states that admits this one. -/
theorem not_demandAndGrant : ¬ Obligations.DemandAndGrant := by
  rintro ⟨hheader, -⟩
  obtain ⟨t, ht, -, -, -, -, hparts, -⟩ := hheader 0x00090000#32 gapInCoreQueue (by decide) (by decide) rfl
  rw [exec_demandHeader (by decide)] at ht
  obtain rfl := Host.Outcome.next.inj ht
  have hsame := hparts .core (by decide)
  rw [Part.same, State.header_core_of_gap (by decide), State.seqGap_of_recent (t := 0) _ rfl (by decide),
    State.again_core_of_queued (by decide) (by decide)] at hsame
  exact absurd (congrArg (fun c => c.queue.map Msg.more) hsame) (by decide)

end Sys2Proof.Machine
end

section
/-!
PROOFS. What the words of the core's port leave to the shell: its objects and the conditions that its blocks hold.
-/
namespace Sys2Proof.Machine

/-! ### Frames on objects -/

namespace State.SameObjs

theorem refl (ks : List Nat) (s : State) : s.SameObjs ks s := fun _ _ => rfl

theorem trans {ks : List Nat} {s t u : State} (h : s.SameObjs ks t) (k : t.SameObjs ks u) : s.SameObjs ks u :=
  fun j hj => (k j hj).trans (h j hj)

theorem mono {ks ls : List Nat} {s t : State} (h : s.SameObjs ks t) (hl : ∀ k ∈ ks, k ∈ ls) : s.SameObjs ls t :=
  fun j hj => h j fun hk => hj (hl j hk)

theorem ite {ks : List Nat} {s a b : State} {c : Prop} [Decidable c] (ha : s.SameObjs ks a) (hb : s.SameObjs ks b) :
    s.SameObjs ks (if c then a else b) := by
  split <;> assumption

end State.SameObjs

theorem State.set_sameObjs (s : State) {ks : List Nat} {k : Nat} (v : Nat) (hk : k ∈ ks) : s.SameObjs ks (s.set k v) :=
  fun _ hj => State.obj_set_other s v fun e => hj (e ▸ hk)

theorem State.put_sameObjs (s : State) {ks : List Nat} {k : Nat} (v : Nat) (hk : k ∈ ks) (hj : Obj.OD_JOURNAL ∈ ks) :
    s.SameObjs ks (s.put k v) :=
  fun _ h => State.obj_put_other s v (fun e => h (e ▸ hk)) fun e => h (e ▸ hj)

/-- The charger's own state is none of the objects. -/
theorem State.withChg_objs (s : State) (c : Charger) (ks : List Nat) : s.SameObjs ks { s with chg := c } := .refl _ s

/-! ### Conditions of the shell's blocks (R501) -/

@[simp] theorem State.send_conds (s : State) (m : Msg) : (s.send m).col.conds = s.col.conds := by
  unfold State.send
  split <;> rfl

theorem State.clearBy_conds (s : State) (p : Msg → Bool) : (s.clearBy p).col.conds = s.col.conds.filter fun m => !p m := by
  have hsent : ∀ (l : List Msg) (y : State), (l.foldl (fun s m => s.send { m with clear := true }) y).col.conds = y.col.conds := by
    intro l
    induction l with
    | nil => exact fun _ => rfl
    | cons m l ih => exact fun y => (ih _).trans (y.send_conds _)
  exact hsent _ _

theorem State.stands_clearK (s : State) (src kind : Nat) : (s.clearK src kind).stands src kind = false := by
  rw [State.stands, State.clearK, State.clearBy_conds]
  exact List.any_eq_false.mpr fun m hm => by
    simpa only [Bool.not_eq_true', Bool.not_eq_true] using List.of_mem_filter hm

theorem State.stands_raise1 (s : State) (src kind inst : Nat) : (s.raise1 src kind inst).stands src kind = true := by
  unfold State.raise1
  split
  next h => exact h
  next h =>
    unfold State.raiseC
    dsimp only
    split
    next hc => exact absurd (List.any_eq_true.mpr ⟨_, List.contains_iff_mem.mp hc, by simp⟩) h
    next => simp [State.stands]

/-! ### Silence -/

/-- No object differs but FAULT_LOST, and the shell's blocks hold the same conditions. -/
structure Silent (s t : State) : Prop where
  objs : s.SameObjs [Obj.FAULT_LOST] t
  conds : t.col.conds = s.col.conds

namespace Silent

theorem refl (s : State) : Silent s s := ⟨.refl _ s, rfl⟩

theorem trans {s t u : State} (h : Silent s t) (k : Silent t u) : Silent s u := ⟨h.objs.trans k.objs, k.conds.trans h.conds⟩

theorem ite {s a b : State} {c : Prop} [Decidable c] (ha : Silent s a) (hb : Silent s b) : Silent s (if c then a else b) := by
  split <;> assumption

theorem foldl {α : Type} {s x : State} {f : State → α → State} (l : List α) (h : Silent s x) (hf : ∀ y a, Silent y (f y a)) :
    Silent s (l.foldl f x) := by
  induction l generalizing x with
  | nil => exact h
  | cons a l ih => exact ih (h.trans (hf x a))

/-- An operation on neither the objects nor the collector. -/
theorem of_parts {p : Nat} {s t : State} (h : Fr p s t) (ho : p.testBit 4 = false) (hc : p.testBit 13 = false) : Silent s t :=
  ⟨fun k _ => State.obj_congr (h.objs ho) k, by rw [h.col hc]⟩

theorem obj {s t : State} (h : Silent s t) {k : Nat} (hk : k ≠ Obj.FAULT_LOST) : t.obj k = s.obj k := h.objs k (by simpa using hk)

theorem stands {s t : State} (h : Silent s t) (src kind : Nat) : t.stands src kind = s.stands src kind := by
  rw [State.stands, h.conds, State.stands]

end Silent

theorem State.coreSend_silent (s : State) (m : Msg) : Silent s (s.coreSend m) :=
  Silent.ite (.of_parts (State.enqueue_parts (p := 0x20) m rfl (Fr.refl _ s)) rfl rfl)
    ⟨(State.send_reports s m).2, s.send_conds m⟩

theorem State.coreClearBy_silent (s : State) (p : Msg → Bool) : Silent s (s.coreClearBy p) :=
  Silent.foldl _ ⟨.refl _ s, rfl⟩ fun y _ => y.coreSend_silent _

theorem State.applyOrder_silent (s : State) (g : Group) (v : Nat) : Silent s (s.applyOrder g v) := by
  unfold State.applyOrder
  refine Silent.trans (Silent.trans ?_ (State.coreClearBy_silent _ _)) (State.coreClearBy_silent _ _)
  refine Silent.trans ?_ (.of_parts (State.modG_parts (p := 0x40) _ _ rfl (Fr.refl _ _)) rfl rfl)
  exact Silent.foldl _ ⟨.refl _ s, rfl⟩ fun y _ => .of_parts (State.modP_parts (p := 0x80) _ _ rfl (Fr.refl _ y)) rfl rfl

theorem State.applyWord_silent (s : State) (g : Group) (id v : Nat) : Silent s (s.applyWord g id v) := by
  have hrail : Silent s (s.modG g fun x => { x with railV := v }) :=
    .of_parts (State.modG_parts (p := 0x40) _ _ rfl (Fr.refl _ s)) rfl rfl
  have htrim : Silent s (s.applyTrim (id - 16) v) := .of_parts (State.applyTrim_parts (p := 0x80) _ _ rfl (Fr.refl _ s)) rfl rfl
  have hfreq : Silent s (s.applyFreq g v) := .of_parts (State.applyFreq_parts (p := 0x40) _ _ rfl (Fr.refl _ s)) rfl rfl
  exact hrail.ite (htrim.ite (hfreq.ite ((s.applyOrder_silent g v).ite (Silent.refl s))))

theorem State.applyAll_silent (s : State) (g : Group) : Silent s (s.applyAll g) := by
  refine Silent.foldl _ (Silent.refl s) fun y w => Silent.ite ?_ (Silent.refl y)
  have hkept : Silent y (if (w.wait.filter (· != g)).isEmpty then (y.applyWord g w.id w.value).keepWord w.id w.value
      else y.applyWord g w.id w.value) :=
    (y.applyWord_silent g w.id w.value).trans (Silent.ite ⟨.refl _ _, rfl⟩ (Silent.refl _))
  exact hkept.trans ⟨.refl _ _, rfl⟩

theorem State.applyIdle_silent (s : State) (l : List Group) : Silent s (s.applyIdle l) :=
  Silent.foldl _ (Silent.refl s) fun y g => y.applyAll_silent g

theorem State.accept_silent (s : State) (id v : Nat) (hold : Bool) : Silent s (s.accept id v hold) := by
  unfold State.accept
  dsimp only
  generalize hx : ({ s with core := { s.core with pend := _, refused := none } } : State) = x
  have hpend : Silent s x := hx ▸ ⟨.refl _ s, rfl⟩
  have hfree : Silent x (x.freeG .pack 7) := .of_parts (State.freeG_parts (p := 0x40) _ _ rfl (Fr.refl _ x)) rfl rfl
  have hready : Silent s (if id = 5 ∨ id = 6 then x.freeG .pack 7 else x) := hpend.trans (hfree.ite (Silent.refl x))
  exact hready.ite (hready.trans (State.applyIdle_silent _ _))

theorem State.refuse_silent (s : State) (id : Nat) : Silent s (s.refuse id) :=
  Silent.trans (t := { s with core := { s.core with refused := some id } }) ⟨.refl _ s, rfl⟩ (State.coreSend_silent _ _)

theorem State.portWord_silent (s : State) (id v : Nat) (hold : Bool) : Silent s (s.portWord id v hold) :=
  (s.accept_silent id v hold).ite (s.refuse_silent id)

theorem State.portIfNew_silent (s : State) (id v : Nat) : Silent s (s.portIfNew id v) :=
  (s.portWord_silent _ _ _).ite (Silent.refl s)

end Sys2Proof.Machine
end

section
/-!
PROOFS. What the charger's operations write: their objects, and what they leave of the charger's own state.
-/
namespace Sys2Proof.Machine

/-! ### Commands to the core (R276, R285) -/

theorem State.writeChg_silent (s : State) (v : Nat) : Silent (s.set Obj.CHG_I_CMD v) (s.writeChg v) := State.portIfNew_silent _ _ _

theorem State.writeChg_cmd (s : State) (v : Nat) : (s.writeChg v).obj Obj.CHG_I_CMD = v :=
  ((s.writeChg_silent v).obj (by decide)).trans (State.obj_set_same _ _ _)

theorem State.writeChg_objs (s : State) (v : Nat) : s.SameObjs [Obj.CHG_I_CMD, Obj.FAULT_LOST] (s.writeChg v) :=
  (s.set_sameObjs v (by decide)).trans ((s.writeChg_silent v).objs.mono (by decide))

theorem State.writeChg_chg (s : State) (v : Nat) : (s.writeChg v).chg = s.chg :=
  (State.writeChg_parts (p := 0x20f0) v rfl (Fr.refl _ s)).chg rfl

theorem State.zeroBoth_silent (s : State) : Silent (s.set Obj.CHG_I_CMD 0) s.zeroBoth :=
  Silent.ite ((State.portWord_silent _ 5 0 false).trans (State.portWord_silent _ 6 0 false)) (Silent.refl _)

theorem State.zeroBoth_cmd (s : State) : s.zeroBoth.obj Obj.CHG_I_CMD = 0 :=
  (s.zeroBoth_silent.obj (by decide)).trans (State.obj_set_same _ _ _)

theorem State.zeroBoth_objs (s : State) : s.SameObjs [Obj.CHG_I_CMD, Obj.FAULT_LOST] s.zeroBoth :=
  (s.set_sameObjs 0 (by decide)).trans (s.zeroBoth_silent.objs.mono (by decide))

theorem State.chgWrite_objs (s : State) (changed : Bool) :
    s.SameObjs [Obj.CHG_I_CMD, Obj.CHG_CAUSE, Obj.FAULT_LOST] (s.chgWrite changed) := by
  have hcause : ∀ x : State, s.SameObjs [Obj.CHG_I_CMD, Obj.CHG_CAUSE, Obj.FAULT_LOST] x →
      s.SameObjs [Obj.CHG_I_CMD, Obj.CHG_CAUSE, Obj.FAULT_LOST] ((x.set Obj.CHG_CAUSE x.chgCause).portIfNew 6 x.disLimit) := fun x hx =>
    (hx.trans (x.set_sameObjs _ (by decide))).trans ((State.portIfNew_silent _ _ _).objs.mono (by decide))
  exact hcause _ (.ite ((s.writeChg_objs _).mono (by decide)) (.refl _ s))

/-! ### States, cycles and the stage selection (R275-R277, R289) -/

theorem State.chgEnter_state (s : State) (st step : Nat) : (s.chgEnter st step).obj Obj.CHG_STATE = st :=
  (State.obj_set_other _ _ (by decide)).trans (State.obj_set_same _ _ _)

theorem State.chgEnter_objs (s : State) (st step : Nat) : s.SameObjs [Obj.CHG_STATE, Obj.CHG_STEP] (s.chgEnter st step) :=
  (s.withChg_objs _ _).trans ((State.set_sameObjs _ _ (by decide)).trans (State.set_sameObjs _ _ (by decide)))

theorem State.newCycle_objs (s : State) : s.SameObjs [Obj.SAFETY_PROGRESS, Obj.SAFETY_WALL] s.newCycle :=
  (s.set_sameObjs (k := Obj.SAFETY_PROGRESS) 0 (by decide)).trans (State.set_sameObjs _ (k := Obj.SAFETY_WALL) 0 (by decide))

/-- The objects of the charger's stage and of its safety timer. -/
def stageObjs : List Nat := [Obj.CHG_STATE, Obj.CHG_STEP, Obj.SAFETY_PROGRESS, Obj.SAFETY_WALL]

/-- A stage is selected in a new cycle or in the one that runs; besides, the CV loop may start afresh. -/
theorem State.select_eq (s : State) : ∃ x cv st step, (x = s.newCycle ∨ x = s) ∧
    s.select = ({ x with chg := { x.chg with cv := cv } } : State).chgEnter st step := by
  unfold State.select
  dsimp only
  have hcycle := ite_eq_or_eq ([0, 1, 7, 8].contains (s.obj Obj.CHG_STATE) = true) s.newCycle s
  generalize (if [0, 1, 7, 8].contains (s.obj Obj.CHG_STATE) = true then s.newCycle else s) = x at hcycle ⊢
  split
  · exact ⟨x, _, _, _, hcycle, rfl⟩
  · exact ⟨x, x.chg.cv, _, _, hcycle, rfl⟩

theorem State.select_objs (s : State) : s.SameObjs stageObjs s.select := by
  obtain ⟨x, cv, st, step, hx, heq⟩ := s.select_eq
  have hcycle : s.SameObjs stageObjs x := by
    rcases hx with hx | hx <;> rw [hx]
    · exact s.newCycle_objs.mono (by decide)
    · exact .refl _ s
  rw [heq]
  exact (hcycle.trans (x.withChg_objs _ _)).trans ((State.chgEnter_objs _ _ _).mono (by decide))

theorem State.selectOrHold_objs (s : State) : s.SameObjs stageObjs s.selectOrHold :=
  .ite s.select_objs ((s.chgEnter_objs 2 0).mono (by decide))

/-! ### Fault bits, events and conditions (R301) -/

/-- The objects that a fault of the charger writes. -/
def chgFaultObjs : List Nat := [Obj.CHG_FAULTS, Obj.OD_JOURNAL, Obj.FAULT_LOST]

theorem State.chgBit_objs (s : State) (n : Nat) : s.SameObjs chgFaultObjs (s.chgBit n) :=
  .ite (s.withChg_objs _ _) ((s.withChg_objs _ _).trans (State.put_sameObjs _ _ (by decide) (by decide)))

theorem State.chgBit_faults (s : State) (n : Nat) : (s.chgBit n).obj Obj.CHG_FAULTS = setBit (s.obj Obj.CHG_FAULTS) n true := by
  unfold State.chgBit
  dsimp only
  split
  next h => exact h
  next => exact State.obj_put_same _ _ (by decide)

theorem State.chgBit_chg (s : State) (n : Nat) : (s.chgBit n).chg = { s.chg with waived := setBit s.chg.waived n false } := by
  unfold State.chgBit
  dsimp only
  split
  · rfl
  · rw [State.put_chg]

theorem State.chgEvent_objs (s : State) (src kind inst n : Nat) : s.SameObjs chgFaultObjs (s.chgEvent src kind inst n) :=
  (s.chgBit_objs n).trans (.mono (State.raise_reports _ _ _ _).2 (by decide))

theorem State.chgEvent_faults (s : State) (src kind inst n : Nat) :
    (s.chgEvent src kind inst n).obj Obj.CHG_FAULTS = setBit (s.obj Obj.CHG_FAULTS) n true :=
  ((State.raise_reports _ _ _ _).obj (by decide)).trans (s.chgBit_faults n)

theorem State.chgCond_objs (s : State) (src kind inst n : Nat) (b : Bool) : s.SameObjs chgFaultObjs (s.chgCond src kind inst n b) :=
  .ite ((s.chgBit_objs n).trans (.mono (State.raise1_reports _ _ _ _).2 (by decide))) (.mono (s.clearK_reports src kind).2 (by decide))

theorem State.chgCond_faults (s : State) (src kind inst n : Nat) :
    (s.chgCond src kind inst n true).obj Obj.CHG_FAULTS = setBit (s.obj Obj.CHG_FAULTS) n true :=
  ((State.raise1_reports _ _ _ _).obj (by decide)).trans (s.chgBit_faults n)

theorem State.chgCond_chg (s : State) (src kind inst n : Nat) :
    (s.chgCond src kind inst n true).chg = { s.chg with waived := setBit s.chg.waived n false } :=
  ((State.raise1_parts (p := 0x2010) src kind inst rfl (Fr.refl _ (s.chgBit n))).chg rfl).trans (s.chgBit_chg n)

theorem State.stands_chgCond (s : State) (src kind inst n : Nat) (b : Bool) : (s.chgCond src kind inst n b).stands src kind = b := by
  cases b
  · exact s.stands_clearK src kind
  · exact (s.chgBit n).stands_raise1 src kind inst

/-! ### The cutoff (R284) -/

theorem State.setSoc_objs (s : State) (v conf : Nat) : s.SameObjs [Obj.PACK_SOC, Obj.SOC_CONF, Obj.OD_JOURNAL] (s.setSoc v conf) :=
  (s.put_sameObjs v (by decide) (by decide)).trans (State.set_sameObjs _ conf (by decide))

/-- A cutoff that sets in or ends moves PACK_STATE between 1 and 2. -/
theorem State.cutoff_packState {s : State} (h : 1 ≤ s.obj Obj.PACK_STATE ∧ s.obj Obj.PACK_STATE ≤ 2) :
    1 ≤ s.cutoff.obj Obj.PACK_STATE ∧ s.cutoff.obj Obj.PACK_STATE ≤ 2 := by
  unfold State.cutoff
  split_ifs
  · exact h
  · rw [(State.portIfNew_silent _ _ _).obj (by decide), State.setSoc_objs _ _ _ _ (by decide), State.chgCond_objs _ _ _ _ _ _ _ (by decide),
      State.obj_set_same]
    decide
  · rw [State.chgCond_objs _ _ _ _ _ _ _ (by decide), State.obj_set_same]
    decide
  · rw [State.chgBit_objs _ _ _ (by decide)]
    exact h
  · exact h

/-! ### What the charger remembers of its pack (R288, R292) -/

/-- The charger remembers the same of its pack: whether its presence is known, and whether it was lost under charge. -/
structure Recalls (s t : State) : Prop where
  known : t.chg.known = s.chg.known
  lost : t.chg.lost = s.chg.lost

namespace Recalls

theorem refl (s : State) : Recalls s s := ⟨rfl, rfl⟩

theorem trans {s t u : State} (h : Recalls s t) (k : Recalls t u) : Recalls s u := ⟨k.known.trans h.known, k.lost.trans h.lost⟩

theorem ite {s a b : State} {c : Prop} [Decidable c] (ha : Recalls s a) (hb : Recalls s b) : Recalls s (if c then a else b) := by
  split <;> assumption

theorem of_parts {p : Nat} {s t : State} (h : Fr p s t) (hg : p.testBit 29 = false) : Recalls s t := by
  have hchg := h.chg hg
  exact ⟨congrArg Charger.known hchg, congrArg Charger.lost hchg⟩

end Recalls

theorem State.chgBit_recalls (s : State) (n : Nat) : Recalls s (s.chgBit n) := by
  constructor <;> rw [State.chgBit_chg]

theorem State.chgCond_recalls (s : State) (src kind inst n : Nat) (b : Bool) : Recalls s (s.chgCond src kind inst n b) :=
  .ite ((s.chgBit_recalls n).trans (.of_parts (State.raise1_parts (p := 0x2010) _ _ _ rfl (Fr.refl _ _)) rfl))
    (.of_parts (State.clearK_parts (p := 0x2010) _ _ rfl (Fr.refl _ _)) rfl)

theorem State.setSoc_recalls (s : State) (v conf : Nat) : Recalls s (s.setSoc v conf) := by
  constructor <;> simp [State.setSoc]

theorem State.cutoff_recalls (s : State) : Recalls s s.cutoff := by
  have hset : ∀ v, Recalls s (s.set Obj.PACK_STATE v) := fun _ => ⟨rfl, rfl⟩
  refine .ite (.refl s) (.ite ?_ (.ite ?_ (.ite (s.chgBit_recalls 9) (.refl s))))
  · exact (((hset 2).trans (State.chgCond_recalls _ _ _ _ _ _)).trans (State.setSoc_recalls _ _ _)).trans
      (.of_parts (State.portIfNew_parts (p := 0x20f0) 6 0 rfl (Fr.refl _ _)) rfl)
  · exact (hset 1).trans (State.chgCond_recalls _ _ _ _ _ _)

theorem State.select_recalls (s : State) : Recalls s s.select := by
  obtain ⟨x, cv, st, step, hx, heq⟩ := s.select_eq
  rw [heq]
  rcases hx with rfl | rfl <;> exact ⟨rfl, rfl⟩

theorem State.selectOrHold_recalls (s : State) : Recalls s s.selectOrHold := s.select_recalls.ite ⟨rfl, rfl⟩

theorem State.writeChg_recalls (s : State) (v : Nat) : Recalls s (s.writeChg v) := by
  constructor <;> rw [State.writeChg_chg]

theorem State.chgModeChange_recalls (s : State) : Recalls s s.chgModeChange :=
  .ite (.ite (s.writeChg_recalls 0) (.ite (.refl s) (.trans (t := s.chgEnter 2 0) ⟨rfl, rfl⟩ (State.writeChg_recalls _ 0)))) (.refl s)

end Sys2Proof.Machine
end

section
/-!
PROOFS. The pack is gone: what the charger writes, the promise that falls, and Storage where no source is left.
-/
namespace Sys2Proof.Machine

/-! ### The stage without a pack (R292, R293) -/

theorem State.chgOff_congr {s t : State} (htabs : t.tabs = s.tabs) (hcells : t.obj Obj.PACK_CELLS = s.obj Obj.PACK_CELLS)
    (henable : t.obj Obj.CHG_ENABLE = s.obj Obj.CHG_ENABLE) : t.chgOff = s.chgOff := by
  have hbody : t.body 2 = s.body 2 := by rw [State.body, htabs, State.body]
  unfold State.chgOff State.chgValid State.chgAt State.cells
  rw [hbody, hcells, henable]

/-- The stage that the charger falls to without a pack: FAULT stands, else OFF or NO_PACK. -/
def State.stageGone (s : State) : Nat := if s.obj Obj.CHG_STATE = 8 then 8 else if s.chgOff then 0 else 1

/-- The first part of `State.packGone`: both latches at 0, and the stage that follows. -/
def State.packStopped (s : State) : State :=
  let s := (s.set Obj.PACK_STATE 0).zeroBoth
  if s.obj Obj.CHG_STATE = 8 then s else if s.chgOff then s.chgEnter 0 0 else s.chgEnter 1 0

/-- The rest of it ends the pack's conditions and writes no object. -/
theorem State.packGone_objs_packStopped (s : State) : s.packStopped.SameObjs [Obj.FAULT_LOST] s.packGone := by
  unfold State.packGone
  refine .trans (.trans (.refl _ s.packStopped) ?_) (State.clearK_reports _ 8 5).2
  exact (State.clearK_reports _ 8 2).2

/-- The objects that the loss of a pack writes. -/
def packGoneObjs : List Nat := [Obj.PACK_STATE, Obj.CHG_I_CMD, Obj.CHG_STATE, Obj.CHG_STEP, Obj.FAULT_LOST]

theorem State.packZeroed_objs (s : State) :
    s.SameObjs [Obj.PACK_STATE, Obj.CHG_I_CMD, Obj.FAULT_LOST] (s.set Obj.PACK_STATE 0).zeroBoth :=
  (s.set_sameObjs 0 (by decide)).trans ((State.zeroBoth_objs _).mono (by decide))

theorem State.packStopped_objs (s : State) :
    (s.set Obj.PACK_STATE 0).zeroBoth.SameObjs [Obj.CHG_STATE, Obj.CHG_STEP] s.packStopped :=
  .ite (.refl _ _) (.ite (State.chgEnter_objs _ _ _) (State.chgEnter_objs _ _ _))

theorem State.packGone_objs (s : State) : s.SameObjs packGoneObjs s.packGone :=
  ((s.packZeroed_objs.mono (by decide)).trans (s.packStopped_objs.mono (by decide))).trans (s.packGone_objs_packStopped.mono (by decide))

theorem State.packGone_packState (s : State) : s.packGone.obj Obj.PACK_STATE = 0 := by
  rw [s.packGone_objs_packStopped _ (by decide), s.packStopped_objs _ (by decide), State.zeroBoth_objs _ _ (by decide), State.obj_set_same]

theorem State.packGone_cmd (s : State) : s.packGone.obj Obj.CHG_I_CMD = 0 := by
  rw [s.packGone_objs_packStopped _ (by decide), s.packStopped_objs _ (by decide), State.zeroBoth_cmd]

theorem State.packGone_state (s : State) : s.packGone.obj Obj.CHG_STATE = s.stageGone := by
  have hzero := s.packZeroed_objs
  have hstate := hzero Obj.CHG_STATE (by decide)
  have hoff : (s.set Obj.PACK_STATE 0).zeroBoth.chgOff = s.chgOff :=
    State.chgOff_congr ((State.zeroBoth_parts (p := 0x20f0) rfl (State.set_parts _ _ rfl (Fr.refl _ s))).tabs rfl)
      (hzero _ (by decide)) (hzero _ (by decide))
  rw [s.packGone_objs_packStopped _ (by decide), State.packStopped, State.stageGone, hstate, hoff]
  split_ifs with h8
  · rw [hstate, h8]
  · rw [State.chgEnter_state]
  · rw [State.chgEnter_state]

/-! ### The promise that falls (R248, R249) -/

theorem State.sourceLoss_broken (s : State) (cause : Nat) : (s.sourceLoss cause).env.broken = true := by
  unfold State.sourceLoss
  split
  · rw [State.raise_env, State.count_env]
  · rfl

theorem State.sourceLoss_objs (s : State) (cause : Nat) :
    s.SameObjs [Obj.ENV_STATS_BROKEN, Obj.OD_JOURNAL, Obj.FAULT_LOST] (s.sourceLoss cause) := by
  have hbroken : s.SameObjs [Obj.ENV_STATS_BROKEN, Obj.OD_JOURNAL, Obj.FAULT_LOST] { s with env := { s.env with broken := true } } :=
    .refl _ s
  exact .ite ((hbroken.trans (State.put_sameObjs _ _ (by decide) (by decide))).trans (.mono (State.raise_reports _ _ _ _).2 (by decide))) hbroken

theorem State.sourceLoss_count {s : State} (cause : Nat) (h : s.shellUp = true) :
    (s.sourceLoss cause).obj Obj.ENV_STATS_BROKEN = satInc 0xFFFFFFFF (s.obj Obj.ENV_STATS_BROKEN) := by
  rw [State.sourceLoss, if_pos h, (State.raise_reports _ _ _ _).obj (by decide)]
  exact State.obj_put_same _ _ (by decide)

/-! ### Storage (R55) -/

theorem State.setMode_recalls (s : State) (next cause : Nat) : Recalls s (s.setMode next cause) := by
  have hoff : ∀ x : State, Recalls x x.balOff := fun _ => ⟨rfl, rfl⟩
  have hset : ∀ (x : State) k v, Recalls x (x.set k v) := fun _ _ _ => ⟨rfl, rfl⟩
  have horder : ∀ x : State, Recalls x x.orderMode := fun x => .of_parts (State.orderMode_parts (p := 0x20f0) rfl (Fr.refl _ x)) rfl
  have hprobe : ∀ x : State, Recalls x x.probeAbandon := fun x => .of_parts (State.probeAbandon_parts (p := 0x400010) rfl (Fr.refl _ x)) rfl
  have hhz : ∀ x : State, Recalls x x.hzMode := fun x => hset x _ _
  have hmode : Recalls s (((s.set Obj.MODE_PREV s.modeNow).set Obj.MODE_STATE next).set Obj.MODE_CAUSE cause) := ⟨rfl, rfl⟩
  unfold State.setMode
  dsimp only
  generalize ((s.set Obj.MODE_PREV s.modeNow).set Obj.MODE_STATE next).set Obj.MODE_CAUSE cause = y at hmode
  generalize hz : (if next = 4 ∨ next = 5 then ({ y with note := { y.note with reason := setBit y.note.reason 1 true } } : State)
    else State.set _ _ _) = z
  have hserv : Recalls s z := by
    rw [← hz]
    exact .ite (hmode.trans ⟨rfl, rfl⟩) (hmode.trans ⟨rfl, rfl⟩)
  have hchg := (hserv.trans z.chgModeChange_recalls).trans (horder _)
  have hbal := Recalls.ite (c := [2, 3, 5].contains next = true) hchg (hchg.trans (hoff _))
  exact .ite ((Recalls.ite hbal (hbal.trans (hprobe _))).trans (hhz _)) ((hserv.trans (hoff z)).trans (hhz _))

theorem State.toOff_broken {s : State} (p : Port) (h : s.env.broken = true) : (s.toOff p).env.broken = true := by
  unfold State.toOff State.endLoss
  dsimp only
  split
  · exact State.sourceLoss_broken _ _
  · refine (congrArg Env.broken (Fr.env (p := 0x400020f0) ?_ rfl)).trans h
    exact State.ordering_parts rfl (State.setLink_parts _ _ rfl (State.linkZ_parts _ rfl (State.voidContract_parts _ rfl
      (State.modL_parts _ _ rfl (Fr.refl _ s)))))

theorem State.linksOff_broken {s : State} (h : s.env.broken = true) : s.linksOff.env.broken = true := by
  unfold State.linksOff
  split
  · exact State.toOff_broken _ (State.toOff_broken _ h)
  · exact h

theorem State.shellCut_env (s : State) : s.shellCut.env = { s.env with dout := [], hiZ := true } := rfl

theorem State.shellCleared_env (s : State) : s.shellCleared.env = s.env := by
  unfold State.shellCleared
  iterate 7 rw [State.set_env]

theorem State.busesOff_env (s : State) : s.busesOff.env = s.linksOff.env :=
  (State.measStop_parts (p := 0x1080042010) rfl (State.fabOff_parts rfl (State.canOff_parts _ rfl (State.canOff_parts _ rfl
    (Fr.refl _ s.linksOff))))).env rfl

theorem State.shellOff_broken {s : State} (h : s.env.broken = true) : s.shellOff.env.broken = true := by
  rw [State.shellOff_eq, State.shellCleared_env, State.busesOff_env]
  exact State.linksOff_broken (by rw [State.shellCut_env, h])

/-- Storage mends no promise, and the charger still knows of a lost pack. -/
theorem State.enterStorage_loss {s : State} (cause : Nat) (h : s.env.broken = true) :
    (s.enterStorage cause).env.broken = true ∧ (s.enterStorage cause).chg.lost = s.chg.lost := by
  have hoff := State.groupsOff_parts (p := 0x4010f0) rfl (Fr.refl _ s)
  have hmode := State.setMode_parts (p := 0x20204020f0) 0 cause rfl (Fr.refl _ s.groupsOff)
  have hdrop := State.dropRequests_parts (p := 0x810) rfl (Fr.refl _ (s.groupsOff.setMode 0 cause))
  have hshell := State.shellOff_parts (p := 0x19d04dadf0) rfl (Fr.refl _ (s.groupsOff.setMode 0 cause).dropRequests)
  rw [State.enterStorage_eq, State.set_env, State.set_chg]
  constructor
  · exact State.shellOff_broken (by rw [hdrop.env rfl, hmode.env rfl, hoff.env rfl, h])
  · rw [hshell.chg rfl, hdrop.chg rfl, (State.setMode_recalls _ 0 cause).lost, hoff.chg rfl]

theorem State.exhaustedNow_loss {s : State} (h : s.env.broken = true) :
    s.exhaustedNow.env.broken = true ∧ s.exhaustedNow.chg.lost = s.chg.lost := by
  have hcommit := State.commitNow_parts (p := 0x200012010) rfl (State.raise_parts 6 3 0 rfl (Fr.refl _ s))
  unfold State.exhaustedNow State.exhausted
  split
  · split
    · have hstorage := State.enterStorage_loss (s := (s.raise 6 3 0).commitNow) 9 (by rw [hcommit.env rfl, h])
      rw [hcommit.chg rfl] at hstorage
      exact hstorage
    · exact ⟨h, rfl⟩
  · exact ⟨h, rfl⟩

/-- Outside the modes with the rail on no source is found exhausted. -/
theorem State.exhaustedNow_of_railOff {s : State} (h : s.railMode = false) : s.exhaustedNow = s := by
  unfold State.exhaustedNow State.exhausted
  split
  · rw [h, Bool.false_and, Bool.false_and, Bool.false_and, Bool.false_and, Bool.false_and, if_neg Bool.false_ne_true]
  · rfl

theorem State.railMode_congr {s t : State} (hmk : Mk s t) (haon : t.aon = s.aon) : t.railMode = s.railMode := by
  simp only [State.railMode, State.inMode, State.modeNow, State.bringing, haon, hmk.obj (k := Obj.MODE_STATE) rfl,
    hmk.obj (k := Obj.BRINGUP_STEP) rfl]

end Sys2Proof.Machine
end

section
/-!
PROOFS. The commands of the pack: found, gone, lost under charge, and the open-tap test.
-/
namespace Sys2Proof.Machine

/-! ### From an action to the command's next state -/

/-- The recorder's part of a command touches the recorder alone. -/
theorem State.logDiff_frame (a b : State) : Fr 0x80000 b (a.logDiff b) := State.logDiff_parts a rfl (Fr.refl _ b)

theorem State.logDiff_obj (a b : State) (k : Nat) : (a.logDiff b).obj k = b.obj k := State.obj_congr ((a.logDiff_frame b).objs rfl) k

theorem State.shellUp_of_parts {p : Nat} {s t : State} (h : Fr p s t) (ha : p.testBit 8 = false) (hs : p.testBit 10 = false) :
    t.shellUp = s.shellUp := by
  rw [State.shellUp, h.aon ha, h.strat hs, State.shellUp]

/-! ### The pack is found (R265, R292) -/

/-- A pack declared present, before its cutoff is judged. -/
def State.packNoted (s : State) (absentMs : Nat) : State :=
  let t := s.set Obj.PACK_STATE 1
  let t := if s.chg.known && 1000 ≤ absentMs then t.newPack else t
  { t with chg := { t.chg with known := true, unseen := false } }

theorem State.packFound_eq (s : State) (absentMs : Nat) : s.packFound absentMs =
    if (s.packNoted absentMs).cutoff.obj Obj.CHG_STATE = 1 ∧ !(s.packNoted absentMs).cutoff.chg.lost then
      (s.packNoted absentMs).cutoff.selectOrHold.chgWrite true
    else (s.packNoted absentMs).cutoff := rfl

theorem State.packInit_objs (s : State) : s.SameObjs [Obj.PACK_Q, Obj.PACK_RDC, Obj.OD_JOURNAL] s.packInit :=
  .ite ((s.put_sameObjs _ (by decide) (by decide)).trans (State.put_sameObjs _ _ (by decide) (by decide))) (.refl _ s)

theorem State.newPack_packState (s : State) : s.newPack.obj Obj.PACK_STATE = s.obj Obj.PACK_STATE := by
  have hcycle : (s.packInit.hzClear [34, 35]).newCycle.obj Obj.PACK_STATE = s.obj Obj.PACK_STATE :=
    (State.newCycle_objs _ _ (by decide)).trans (s.packInit_objs _ (by decide))
  unfold State.newPack
  dsimp only
  split
  · exact (State.chgEnter_objs _ _ _ _ (by decide)).trans hcycle
  · exact hcycle

theorem State.newPack_lost (s : State) : s.newPack.chg.lost = false := by
  unfold State.newPack
  dsimp only
  split <;> rfl

theorem State.packNoted_packState (s : State) (absentMs : Nat) : (s.packNoted absentMs).obj Obj.PACK_STATE = 1 := by
  change State.obj (if s.chg.known && 1000 ≤ absentMs then (s.set Obj.PACK_STATE 1).newPack else s.set Obj.PACK_STATE 1) _ = 1
  split
  · rw [State.newPack_packState, State.obj_set_same]
  · rw [State.obj_set_same]

/-- A pack that comes back after a second is a new one, and no pack is lost any more. -/
theorem State.packNoted_lost {s : State} {absentMs : Nat} (hknown : s.chg.known = true) (hlong : 1000 ≤ absentMs) :
    (s.packNoted absentMs).chg.lost = false := by
  change (if s.chg.known && 1000 ≤ absentMs then (s.set Obj.PACK_STATE 1).newPack else s.set Obj.PACK_STATE 1).chg.lost = false
  rw [if_pos (by simp [hknown, hlong]), State.newPack_lost]

theorem State.packFound_recalls (s : State) (absentMs : Nat) : Recalls (s.packNoted absentMs) (s.packFound absentMs) := by
  rw [State.packFound_eq]
  have hcut := (s.packNoted absentMs).cutoff_recalls
  exact .ite ((hcut.trans (State.selectOrHold_recalls _)).trans (.of_parts (State.chgWrite_parts (p := 0x20f0) true rfl (Fr.refl _ _)) rfl)) hcut

theorem State.packFound_packState (s : State) (absentMs : Nat) :
    1 ≤ (s.packFound absentMs).obj Obj.PACK_STATE ∧ (s.packFound absentMs).obj Obj.PACK_STATE ≤ 2 := by
  have hnoted := s.packNoted_packState absentMs
  have hcut := State.cutoff_packState (s := s.packNoted absentMs) ⟨hnoted.ge, hnoted.trans_le (by decide)⟩
  rw [State.packFound_eq]
  split
  · rw [State.chgWrite_objs _ _ _ (by decide), State.selectOrHold_objs _ _ (by decide)]
    exact hcut
  · exact hcut

theorem exec_packPresent {s : State} {vpack : Nat} (absentMs : Nat) (hup : s.shellUp = true) (hgone : s.obj Obj.PACK_STATE = 0)
    (hthere : s.packThere vpack = true) : exec (.packPresent vpack absentMs) s = .next (s.logDiff (s.packFound absentMs)) :=
  congrArg (fun t => Host.Outcome.next (s.logDiff t)) (if_pos (by simp [hup, hgone, hthere]))

/-! ### The pack is gone (R249, R293) -/

/-- A pack that is taken away, up to the test for exhausted sources. -/
def State.removalNoted (s : State) (vpack : Nat) : State :=
  (if s.charging then s.packGone else s.packGone.chgEvent 8 8 (decivolts vpack) 15).sourceLoss 5

theorem State.packRemoved_eq (s : State) (vpack : Nat) : s.packRemoved vpack = (s.removalNoted vpack).exhaustedNow := rfl

theorem State.removalNoted_objs (s : State) (vpack : Nat) :
    s.packGone.SameObjs (Obj.ENV_STATS_BROKEN :: chgFaultObjs) (s.removalNoted vpack) :=
  .trans (.ite (.refl _ _) ((State.chgEvent_objs _ _ _ _ _).mono (by decide))) ((State.sourceLoss_objs _ _).mono (by decide))

theorem State.removalNoted_faults {s : State} (vpack : Nat) (h : s.charging = false) :
    bit ((s.removalNoted vpack).obj Obj.CHG_FAULTS) 15 = true := by
  rw [State.removalNoted, State.sourceLoss_objs _ _ _ (by decide), h, if_neg Bool.false_ne_true, State.chgEvent_faults, bit_setBit_same]

theorem State.removalNoted_count {s : State} (vpack : Nat) (h : s.shellUp = true) :
    (s.removalNoted vpack).obj Obj.ENV_STATS_BROKEN = satInc 0xFFFFFFFF (s.obj Obj.ENV_STATS_BROKEN) := by
  have hgone := State.packGone_parts (p := 0x204120f0) rfl (Fr.refl _ s)
  have hparts := Fr.ite (c := s.charging = true) hgone (State.chgEvent_parts 8 8 (decivolts vpack) 15 rfl hgone)
  have hobjs : s.packGone.SameObjs chgFaultObjs (if s.charging then s.packGone else s.packGone.chgEvent 8 8 (decivolts vpack) 15) :=
    .ite (.refl _ _) (State.chgEvent_objs _ _ _ _ _)
  rw [State.removalNoted, State.sourceLoss_count _ ((State.shellUp_of_parts hparts rfl rfl).trans h), hobjs _ (by decide),
    s.packGone_objs _ (by decide)]

theorem State.removalNoted_railMode (s : State) (vpack : Nat) : (s.removalNoted vpack).railMode = s.railMode := by
  have hgone := State.packGone_parts (p := 0x304120f0) rfl (Fr.refl _ s)
  have hparts := State.sourceLoss_parts 5 rfl (Fr.ite (c := s.charging = true) hgone (State.chgEvent_parts 8 8 (decivolts vpack) 15 rfl hgone))
  have hmk := State.packGone_mk (Mk.refl s)
  exact State.railMode_congr (State.sourceLoss_mk _ (.ite hmk (State.chgEvent_mk _ _ _ _ hmk))) (hparts.aon rfl)

theorem exec_packAbsent {s : State} {vpack : Nat} (hup : s.shellUp = true) (hcells : s.cells ≠ 0) (hpack : s.obj Obj.PACK_STATE ≠ 0)
    (hlow : vpack < 500 * s.cells) : exec (.packAbsent vpack) s = .next (s.logDiff (s.packRemoved vpack)) :=
  congrArg (fun t => Host.Outcome.next (s.logDiff t)) (if_pos (by simp [hup, hcells, hpack, hlow]))

/-! ### The pack is lost under charge (R292) -/

/-- What the core does at the trip of the removal detector. -/
def State.packTripped (s : State) (vpack : Nat) : State := (s.stopG .pack 7).coreRaise 7 2 (decivolts vpack)

/-- What the shell does first: both latches at 0, and NO_PACK in a new cycle. -/
def State.lossStopped (s : State) : State := ((s.chgBit 1).packGone.chgEnter 1 0).newCycle

/-- What it does up to the test for exhausted sources. -/
def State.lossNoted (s : State) : State :=
  ({ s.lossStopped with chg := { s.lossStopped.chg with lost := true } } : State).sourceLoss 5

theorem State.packLostShell_eq (s : State) : s.packLostShell = s.lossNoted.exhaustedNow := rfl

theorem State.packTripped_told (s : State) (vpack : Nat) : Told (s.stopG .pack 7) (s.packTripped vpack) := State.coreRaise_told _ _ _ _

theorem State.packTripped_parts (s : State) (vpack : Nat) : Fr 0x20f0 s (s.packTripped vpack) :=
  State.coreRaise_parts _ _ _ rfl (State.stopG_parts _ _ rfl (Fr.refl _ s))

theorem State.packTripped_mk (s : State) (vpack : Nat) : Mk s (s.packTripped vpack) :=
  State.coreRaise_mk _ _ _ (State.stopG_mk _ _ (Mk.refl s))

theorem State.lossStopped_objs (s : State) : (s.chgBit 1).packGone.SameObjs stageObjs s.lossStopped :=
  ((State.chgEnter_objs _ _ _).mono (by decide)).trans ((State.newCycle_objs _).mono (by decide))

theorem State.lossNoted_objs (s : State) :
    s.lossStopped.SameObjs [Obj.ENV_STATS_BROKEN, Obj.OD_JOURNAL, Obj.FAULT_LOST] s.lossNoted :=
  (State.withChg_objs _ _ _).trans (State.sourceLoss_objs _ 5)

theorem State.lossNoted_packState (s : State) : s.lossNoted.obj Obj.PACK_STATE = 0 := by
  rw [s.lossNoted_objs _ (by decide), s.lossStopped_objs _ (by decide), State.packGone_packState]

theorem State.lossNoted_state (s : State) : s.lossNoted.obj Obj.CHG_STATE = 1 := by
  rw [s.lossNoted_objs _ (by decide), State.lossStopped, State.newCycle_objs _ _ (by decide), State.chgEnter_state]

theorem State.lossNoted_faults (s : State) : bit (s.lossNoted.obj Obj.CHG_FAULTS) 1 = true := by
  rw [s.lossNoted_objs _ (by decide), s.lossStopped_objs _ (by decide), State.packGone_objs _ _ (by decide), State.chgBit_faults,
    bit_setBit_same]

theorem State.lossNoted_lost (s : State) : s.lossNoted.chg.lost = true := by
  rw [State.lossNoted, (State.sourceLoss_parts (p := 0x10012010) 5 rfl (Fr.refl _ _)).chg rfl]

theorem State.lossNoted_railMode (s : State) : s.lossNoted.railMode = s.railMode := by
  have hstopped : Fr 0x304120f0 s s.lossStopped := State.newCycle_parts rfl (State.chgEnter_parts 1 0 rfl (State.packGone_parts rfl
    (State.chgBit_parts 1 rfl (Fr.refl _ s))))
  have hmk : Mk s s.lossStopped := State.newCycle_mk (State.chgEnter_mk 1 0 (State.packGone_mk (State.chgBit_mk 1 (Mk.refl s))))
  exact State.railMode_congr (State.sourceLoss_mk _ (Mk.mk_of hmk)) ((State.sourceLoss_parts 5 rfl (Fr.mk_chg hstopped rfl)).aon rfl)

theorem exec_packLost {s : State} {vpack : Nat} (hcharge : (s.g .pack).deliver = false) (hlimit : s.chargeLimit ≠ 0)
    (hruns : (s.g .pack).stops = 0) : exec (.packLost vpack) s = .next (s.logDiff
      (if (s.packTripped vpack).shellUp then (s.packTripped vpack).packLostShell else s.packTripped vpack)) :=
  congrArg (fun t => Host.Outcome.next (s.logDiff t)) (if_pos (by simp [hcharge, hlimit, hruns]))

/-- The trip stops the pack group and touches no other group. -/
theorem State.packTripped_stops (s : State) (vpack : Nat) : bit ((s.packTripped vpack).g .pack).stops 7 = true ∧
    ∀ h, h ≠ Group.pack → (s.packTripped vpack).g h = s.g h := by
  have htold := s.packTripped_told vpack
  refine ⟨?_, fun h hne => ?_⟩
  · rw [htold.g, State.g_stopG_same]
    exact bit_setBit_same _ _ _
  · rw [htold.g, State.g_stopG_other _ _ hne]

/-! ### The open-tap test (R267) -/

theorem badTap_eq_zero {taps : List (Nat × Int)} : badTap taps = 0 ↔ ∀ x ∈ taps, x.1 ≤ 100 ∧ 500 ≤ x.2 := by
  unfold badTap
  cases h : taps.findIdx? fun x => 100 < x.1 || decide (x.2 < 500) with
  | none => simpa using h
  | some i =>
    obtain ⟨hi, hbad, -⟩ := List.findIdx?_eq_some_iff_getElem.mp h
    refine iff_of_false (Nat.succ_ne_zero i) fun hall => ?_
    have hgood := hall taps[i] (List.getElem_mem hi)
    simp only [Bool.or_eq_true, decide_eq_true_eq] at hbad
    omega

theorem State.openTapEnd_pass (s : State) : s.openTapEnd 0 =
    { (s.balOff.chgCond 8 4 0 11 false) with chg := { s.balOff.chg with openTap := false } } := rfl

/-- A failed tap is reported and bars charging, before the stage follows. -/
def State.tapReported (s : State) (tap : Nat) : State :=
  let t := s.balOff.chgCond 8 4 tap 11 true
  { t with chg := { t.chg with openTap := true } }

theorem State.openTapEnd_fail (s : State) {tap : Nat} (h : tap ≠ 0) : s.openTapEnd tap =
    if 3 ≤ (s.tapReported tap).obj Obj.CHG_STATE ∧ (s.tapReported tap).obj Obj.CHG_STATE ≤ 6 then
      ((s.tapReported tap).chgEnter 2 0).writeChg 0
    else s.tapReported tap := if_neg h

end Sys2Proof.Machine
end

section
/-!
PROOFS. The charger's objects as a master writes and reads them: PACK_CELLS, CHG_ENABLE, CHG_SERVICE, CHG_FAULTS.
-/
namespace Sys2Proof.Machine

/-! ### An accepted access (R596, R597) -/

theorem leNat_leBytes_one (v : Nat) : leNat (leBytes 1 v) = v % 256 := by
  simp [leBytes, leNat]

theorem State.answerWith_data (s : State) (m : Master) (k code : Nat) (d : List Byte) : (s.answerWith m k code d).srv.data = d := by
  unfold State.answerWith
  dsimp only
  split
  · rfl
  · split
    · rfl
    · split <;> rfl

/-- An access that succeeds counts itself, and changes no other object. -/
theorem State.answerWith_good_objs (s : State) (m : Master) (k : Nat) (d : List Byte) :
    s.SameObjs [Obj.OD_STATS_REQUESTS] (s.answerWith m k 0 d) := by
  refine .ite (.refl _ s) ?_
  exact .trans (t := { s with srv := { s.srv with code := 0, data := d } }) (.refl _ s) (State.set_sameObjs _ _ (by decide))

/-- A byte written and accepted, before the recorder's part. -/
def State.wrote (s : State) (m : Master) (k v : Nat) : State := (s.applyWrite m k (keptBits k (v % 256))).answerWith m k 0 []

theorem State.logged_write {s : State} {m : Master} {k v : Nat} (hs : s.served m = true) (hc : s.writeCode m k (leBytes 1 v) = 0) :
    (s.logged fun s => s.asked m fun s => (s.writeKey m k (leBytes 1 v)).2) = s.logDiff (s.wrote m k v) := by
  rw [State.logged, State.asked, if_pos hs, State.writeKey, hc, leNat_leBytes_one, if_pos rfl, State.wrote]

theorem State.wrote_code (s : State) (m : Master) (k v : Nat) : (s.logDiff (s.wrote m k v)).srv.code = 0 := by
  rw [(s.logDiff_frame _).srv rfl]
  exact State.answerWith_code _ _ _ _ _

theorem State.wrote_obj (s : State) (m : Master) (k v : Nat) {j : Nat} (hj : j ≠ Obj.OD_STATS_REQUESTS) :
    (s.logDiff (s.wrote m k v)).obj j = (s.applyWrite m k (keptBits k (v % 256))).obj j := by
  rw [State.logDiff_obj]
  exact State.answerWith_good_objs _ _ _ _ _ (by simpa using hj)

/-- An accepted write adds the answer and the events to the footprint of its effect. -/
theorem State.wrote_parts {p : Nat} {s : State} {m : Master} {k v : Nat} (h : Fr p s (s.applyWrite m k (keptBits k (v % 256))))
    (hp : 0x800080010 ||| p = p) : Fr p s (s.logDiff (s.wrote m k v)) :=
  State.logDiff_parts _ (Fr.up (by decide) hp) (State.answerWith_parts _ _ _ _ (Fr.up (by decide) hp) h)

/-- A write that is accepted is not one that the state refuses (R592). -/
theorem State.wrongState_of_accepted {s : State} {m : Master} {k : Nat} {d : List Byte} (hc : s.writeCode m k d = 0) :
    s.wrongState k (leNat d) = false := by
  by_contra hwrong
  rw [Bool.not_eq_false] at hwrong
  have hcode : ∀ fits, s.writeCodeA m k (leNat d) fits ≠ 0 := fun fits => by
    unfold State.writeCodeA
    simp only [hwrong, Bool.true_or, if_true]
    split_ifs <;> decide
  rw [State.writeCode, if_pos (bne_iff_ne.mpr (hcode _))] at hc
  exact hcode _ hc

theorem exec_packCellsWrite {s : State} {m : Master} {v : Nat} (hs : s.served m = true)
    (hc : s.writeCode m Obj.PACK_CELLS (leBytes 1 v) = 0) :
    exec (.packCellsWrite m v) s = .next (s.logDiff (s.wrote m Obj.PACK_CELLS v)) := congrArg Host.Outcome.next (State.logged_write hs hc)

theorem exec_chgEnableWrite {s : State} {m : Master} {v : Nat} (hs : s.served m = true)
    (hc : s.writeCode m Obj.CHG_ENABLE (leBytes 1 v) = 0) :
    exec (.chgEnableWrite m v) s = .next (s.logDiff (s.wrote m Obj.CHG_ENABLE v)) := congrArg Host.Outcome.next (State.logged_write hs hc)

theorem exec_chgServiceWrite {s : State} {m : Master} {v : Nat} (hs : s.served m = true)
    (hc : s.writeCode m Obj.CHG_SERVICE (leBytes 1 v) = 0) :
    exec (.chgServiceWrite m v) s = .next (s.logDiff (s.wrote m Obj.CHG_SERVICE v)) := congrArg Host.Outcome.next (State.logged_write hs hc)

theorem State.wrote_packCells (s : State) (m : Master) (v : Nat) {j : Nat} (hj : j ≠ Obj.OD_STATS_REQUESTS) :
    (s.logDiff (s.wrote m Obj.PACK_CELLS v)).obj j = (s.cellsWrite (v % 256)).obj j := s.wrote_obj m Obj.PACK_CELLS v hj

theorem State.wrote_chgEnable (s : State) (m : Master) (v : Nat) {j : Nat} (hj : j ≠ Obj.OD_STATS_REQUESTS) :
    (s.logDiff (s.wrote m Obj.CHG_ENABLE v)).obj j = (s.chgEnableWrite (v % 256)).obj j := s.wrote_obj m Obj.CHG_ENABLE v hj

theorem State.wrote_chgService (s : State) (m : Master) (v : Nat) {j : Nat} (hj : j ≠ Obj.OD_STATS_REQUESTS) :
    (s.logDiff (s.wrote m Obj.CHG_SERVICE v)).obj j = (s.chgServiceWrite (v % 256)).obj j := s.wrote_obj m Obj.CHG_SERVICE v hj

/-! ### PACK_CELLS (R263) -/

/-- The objects of the cells' report. -/
def cellObjs : List Nat := (List.range 16).map (fun i => Obj.CELL_V (i + 1)) ++
  [Obj.CELL_STATS_K_MAX, Obj.CELL_STATS_K_MIN, Obj.CELL_STATS_V_MAX, Obj.CELL_STATS_V_MIN, Obj.PACK_VSUM]

/-- Writes of CELL_V, cell by cell, write objects of the report. -/
theorem State.foldl_cells_objs {f : State → Nat → State} (s : State)
    (hf : ∀ (y : State) i, i < 16 → y.SameObjs [Obj.CELL_V (i + 1)] (f y i)) : s.SameObjs cellObjs ((List.range 16).foldl f s) := fun k hk =>
  State.obj_foldl (fun y i hi => hf y i (List.mem_range.mp hi) k fun hm => hk
    (List.mem_append_left _ (List.mem_map.mpr ⟨i, hi, (List.mem_singleton.mp hm).symm⟩))) s

theorem State.cellReport_objs (s : State) : s.SameObjs cellObjs s.cellReport := by
  unfold State.cellReport State.setI
  dsimp only
  refine .trans (.trans (.trans (.trans (.trans ?_ (State.set_sameObjs _ _ (by decide))) (State.set_sameObjs _ _ (by decide)))
    (State.set_sameObjs _ _ (by decide))) (State.set_sameObjs _ _ (by decide))) (State.set_sameObjs _ _ (by decide))
  exact State.foldl_cells_objs s fun y i _ => y.set_sameObjs _ (List.mem_singleton.mpr rfl)

/-- The cells above the last one read 0. -/
def State.cellsCut (s : State) (n : Nat) : State :=
  (List.range 16).foldl (fun s i => if i < n then s else s.set (Obj.CELL_V (i + 1)) 0) s

theorem State.cellsCut_objs (s : State) (n : Nat) : s.SameObjs cellObjs (s.cellsCut n) :=
  State.foldl_cells_objs s fun y _ _ => .ite (.refl _ y) (y.set_sameObjs _ (List.mem_singleton.mpr rfl))

/-- With no cell nothing of the pack stands: balancing, presence, the report, the stage, both latches. -/
def State.packCleared (s : State) : State := ((s.balOff.set Obj.PACK_STATE 0).cellReport.chgEnter 0 0).zeroBoth

theorem State.packCleared_objs (s : State) :
    (s.balOff.set Obj.PACK_STATE 0).SameObjs (Obj.CHG_STATE :: Obj.CHG_STEP :: Obj.CHG_I_CMD :: Obj.FAULT_LOST :: cellObjs)
      s.packCleared :=
  (((State.cellReport_objs _).mono (by decide)).trans ((State.chgEnter_objs _ _ _).mono (by decide))).trans
    ((State.zeroBoth_objs _).mono (by decide))

theorem State.balOff_objs (s : State) : s.SameObjs [Obj.BAL_STATE] s.balOff :=
  s.set_sameObjs (k := Obj.BAL_STATE) 0 (by decide)

/-- Then the pack's faults end with what the charger has noted of them. -/
theorem State.cellsClear_zero (s : State) : ∃ c, s.cellsClear 0 =
    (({ (s.cellsCut 0).packCleared with chg := c } : State).clearK 7 4).clearBy fun m => m.src == 8 := ⟨_, rfl⟩

theorem State.cellsClear_none (s : State) : (s.cellsCut 0).packCleared.SameObjs [Obj.FAULT_LOST] (s.cellsClear 0) := by
  obtain ⟨c, hc⟩ := s.cellsClear_zero
  rw [hc]
  exact ((State.withChg_objs _ c _).trans (State.clearK_reports _ 7 4).2).trans (State.clearBy_reports _ _).2

theorem State.cellsClear_some (s : State) {n : Nat} (h : n ≠ 0) : s.cellsClear n = s.cellsCut n := if_neg h

theorem State.cellsClear_cells (s : State) (n : Nat) : (s.cellsClear n).obj Obj.PACK_CELLS = s.obj Obj.PACK_CELLS := by
  by_cases h : n = 0
  · rw [h, s.cellsClear_none _ (by decide), State.packCleared_objs _ _ (by decide), State.obj_set_other _ _ (by decide),
      State.balOff_objs _ _ (by decide), State.cellsCut_objs _ _ _ (by decide)]
  · rw [s.cellsClear_some h, State.cellsCut_objs _ _ _ (by decide)]

theorem State.cellsClear_stage (s : State) : (s.cellsClear 0).obj Obj.CHG_STATE = 0 ∧ (s.cellsClear 0).obj Obj.CHG_I_CMD = 0 ∧
    (s.cellsClear 0).obj Obj.PACK_STATE = 0 := by
  refine ⟨?_, ?_, ?_⟩
  · rw [s.cellsClear_none _ (by decide), State.packCleared, State.zeroBoth_objs _ _ (by decide), State.chgEnter_state]
  · rw [s.cellsClear_none _ (by decide), State.packCleared, State.zeroBoth_cmd]
  · rw [s.cellsClear_none _ (by decide), State.packCleared_objs _ _ (by decide), State.obj_set_same]

theorem State.ordering_objs (s : State) : s.SameObjs [Obj.RAIL_FLOOR, Obj.LINK_CEILING] s.ordering :=
  (s.set_sameObjs _ (by decide)).trans (State.set_sameObjs _ _ (by decide))

theorem State.cellsWrite_cells (s : State) (n : Nat) : (s.cellsWrite n).obj Obj.PACK_CELLS = n := by
  rw [State.cellsWrite, State.ordering_objs _ _ (by decide), State.cellsClear_cells, State.obj_put_same _ _ (by decide)]

theorem State.cellsWrite_stage (s : State) : (s.cellsWrite 0).obj Obj.CHG_STATE = 0 ∧ (s.cellsWrite 0).obj Obj.CHG_I_CMD = 0 ∧
    (s.cellsWrite 0).obj Obj.PACK_STATE = 0 := by
  have hfloor := (s.put Obj.PACK_CELLS 0).cellsClear 0 |>.ordering_objs
  rw [State.cellsWrite, hfloor _ (by decide), hfloor _ (by decide), hfloor _ (by decide)]
  exact State.cellsClear_stage _

/-! ### CHG_ENABLE (R291) and CHG_SERVICE (R286) -/

theorem State.chgEnableWrite_objs (s : State) (v : Nat) :
    (s.put Obj.CHG_ENABLE v).SameObjs (Obj.CHG_I_CMD :: Obj.CHG_CAUSE :: Obj.FAULT_LOST :: stageObjs) (s.chgEnableWrite v) := by
  have hoff : ∀ x : State, x.SameObjs (Obj.CHG_I_CMD :: Obj.CHG_CAUSE :: Obj.FAULT_LOST :: stageObjs) ((x.chgEnter 0 0).writeChg 0) := fun x =>
    ((x.chgEnter_objs 0 0).mono (by decide)).trans ((State.writeChg_objs _ _).mono (by decide))
  have hon : ∀ x : State, x.SameObjs (Obj.CHG_I_CMD :: Obj.CHG_CAUSE :: Obj.FAULT_LOST :: stageObjs)
      (x.newCycle.selectOrHold.chgWrite true) := fun x =>
    ((x.newCycle_objs.mono (by decide)).trans ((State.selectOrHold_objs _).mono (by decide))).trans ((State.chgWrite_objs _ _).mono (by decide))
  exact .ite (.ite (.refl _ _) (hoff _)) (.ite (hon _) (.refl _ _))

theorem State.chgEnableWrite_enable (s : State) (v : Nat) : (s.chgEnableWrite v).obj Obj.CHG_ENABLE = v := by
  rw [s.chgEnableWrite_objs v _ (by decide), State.obj_put_same _ _ (by decide)]

/-- CHG_ENABLE = 0 stops charging in every state but FAULT. -/
theorem State.chgEnableWrite_off {s : State} (h : s.obj Obj.CHG_STATE ≠ 8) :
    (s.chgEnableWrite 0).obj Obj.CHG_STATE = 0 ∧ (s.chgEnableWrite 0).obj Obj.CHG_I_CMD = 0 := by
  rw [State.chgEnableWrite, if_pos rfl, State.obj_put_other _ _ (by decide) (by decide), if_neg h, State.writeChg_cmd,
    State.writeChg_objs _ _ _ (by decide), State.chgEnter_state]
  exact ⟨rfl, rfl⟩

theorem State.chgEnableWrite_fault {s : State} (h : s.obj Obj.CHG_STATE = 8) : (s.chgEnableWrite 0).obj Obj.CHG_STATE = 8 := by
  rw [State.chgEnableWrite, if_pos rfl, State.obj_put_other _ _ (by decide) (by decide), if_pos h,
    State.obj_put_other _ _ (by decide) (by decide), h]

theorem State.chgModeChange_objs (s : State) :
    s.SameObjs [Obj.CHG_STATE, Obj.CHG_STEP, Obj.CHG_I_CMD, Obj.FAULT_LOST] s.chgModeChange :=
  .ite (.ite ((s.writeChg_objs 0).mono (by decide)) (.ite (.refl _ s)
    (((s.chgEnter_objs 2 0).mono (by decide)).trans ((State.writeChg_objs _ _).mono (by decide))))) (.refl _ s)

/-- A stage that is held or no longer allowed commands no current. -/
theorem State.chgModeChange_cmd {s : State} (hlo : 3 ≤ s.obj Obj.CHG_STATE) (hhi : s.obj Obj.CHG_STATE ≤ 6) (hbar : s.chgAllowed = false) :
    s.chgModeChange.obj Obj.CHG_I_CMD = 0 := by
  rw [State.chgModeChange, if_pos (by simp [hlo, hhi]), hbar]
  split
  · exact State.writeChg_cmd _ _
  · exact State.writeChg_cmd _ _

/-- In Service only a service charge allows charging (R285, R286). -/
theorem State.chgAllowed_of_noService {s : State} (hmode : s.modeNow = 5) (hserv : s.obj Obj.CHG_SERVICE = 0) : s.chgAllowed = false := by
  simp [State.chgAllowed, State.chgMode, State.inMode, hmode, hserv]

theorem State.modeNow_of_serviceWrite {s : State} {m : Master} {d : List Byte} (hc : s.writeCode m Obj.CHG_SERVICE d = 0) : s.modeNow = 5 := by
  have hright := State.wrongState_of_accepted hc
  rw [State.wrongState, if_pos (.inl rfl)] at hright
  simpa using (Bool.or_eq_false_iff.mp hright).2

theorem State.chgServiceWrite_service (s : State) (v : Nat) : (s.chgServiceWrite v).obj Obj.CHG_SERVICE = v := by
  rw [State.chgServiceWrite, State.chgModeChange_objs _ _ (by decide), State.obj_set_same]

/-- The end of a service charge, which only Service can write, stops the stage that charges. -/
theorem State.chgServiceWrite_cmd {s : State} (hmode : s.modeNow = 5) (hlo : 3 ≤ s.obj Obj.CHG_STATE) (hhi : s.obj Obj.CHG_STATE ≤ 6) :
    (s.chgServiceWrite 0).obj Obj.CHG_I_CMD = 0 := by
  have hset : (s.set Obj.CHG_SERVICE 0).obj Obj.CHG_STATE = s.obj Obj.CHG_STATE := State.obj_set_other _ _ (by decide)
  have hbar : (s.set Obj.CHG_SERVICE 0).chgAllowed = false :=
    State.chgAllowed_of_noService ((State.obj_set_other _ _ (by decide)).trans hmode) (State.obj_set_same _ _ _)
  exact State.chgModeChange_cmd (hset ▸ hlo) (hset ▸ hhi) hbar

/-! ### CHG_FAULTS (R301, R594) -/

/-- The row of CHG_FAULTS: H and T clear what they read. -/
theorem State.row?_chgFaults (s : State) : s.row? Obj.CHG_FAULTS =
    some ⟨0x0440, 0, 0, true, .bits32, .rc, .r, .rc, .r, 0, 0, .P, 0, 4294967295, .abc⟩ := by
  have hrow : Dict.row? Obj.CHG_FAULTS = some ⟨0x0440, 0, 0, true, .bits32, .rc, .r, .rc, .r, 0, 0, .P, 0, 4294967295, .abc⟩ := by
    decide +kernel
  simp [State.row?, hrow, Presence.has]

theorem State.view_chgFaults (s : State) : s.view Obj.CHG_FAULTS = s.obj Obj.CHG_FAULTS := by
  have hcount : s.isCount Obj.CHG_FAULTS = false := by simp [State.isCount, State.row?_chgFaults]
  simp only [State.view, hcount, Bool.false_eq_true, if_false]
  rfl

theorem State.readBytes_chgFaults (s : State) : s.readBytes Obj.CHG_FAULTS = leBytes 4 (s.obj Obj.CHG_FAULTS) := by
  have htype : (s.keyType Obj.CHG_FAULTS).bind ObjType.size = some 4 := by
    rw [State.keyType, State.row?_chgFaults]
    rfl
  rw [State.readBytes, if_neg (by decide), State.keyBytes, htype, State.view_chgFaults]

theorem State.readKey_good {s : State} {m : Master} {k : Nat} (hc : s.readCode m k = 0) :
    (s.readKey m k).2.2 = (s.clearing m k).answerWith m k 0 (s.readBytes k) := by
  rw [State.readKey, if_pos hc]

theorem State.clearing_chgFaults_rc {s : State} {m : Master} (h : m = .H ∨ m = .T) :
    (s.clearing m Obj.CHG_FAULTS).obj Obj.CHG_FAULTS = 0 := by
  have hclear : s.clearing m Obj.CHG_FAULTS = if s.obj Obj.CHG_FAULTS = 0 then s else s.put Obj.CHG_FAULTS 0 := by
    rw [State.clearing, State.row?_chgFaults]
    rcases h with rfl | rfl <;> rfl
  rw [hclear]
  split
  next hzero => exact hzero
  next => exact State.obj_put_same _ _ (by decide)

theorem State.clearing_chgFaults_r {s : State} {m : Master} (h : m = .S ∨ m = .F) : s.clearing m Obj.CHG_FAULTS = s := by
  rw [State.clearing, State.row?_chgFaults]
  rcases h with rfl | rfl <;> rfl

/-- A clearing read of CHG_FAULTS writes the object and its journal entry, or nothing. -/
theorem State.clearing_chgFaults_cases (s : State) (m : Master) :
    s.clearing m Obj.CHG_FAULTS = s ∨ s.clearing m Obj.CHG_FAULTS = s.put Obj.CHG_FAULTS 0 := by
  unfold State.clearing
  split_ifs with hcode hkey hzero
  · exact .inl rfl
  · exact .inl rfl
  · exact .inr rfl
  · exact absurd rfl hkey

theorem State.clearing_chgFaults_parts (s : State) (m : Master) : Fr 0x10010 s (s.clearing m Obj.CHG_FAULTS) := by
  rcases s.clearing_chgFaults_cases m with h | h <;> rw [h]
  · exact Fr.refl _ s
  · exact State.put_parts _ _ rfl (Fr.refl _ s)

theorem State.clearing_chgFaults_objs (s : State) (m : Master) :
    s.SameObjs [Obj.CHG_FAULTS, Obj.OD_JOURNAL] (s.clearing m Obj.CHG_FAULTS) := by
  rcases s.clearing_chgFaults_cases m with h | h <;> rw [h]
  · exact .refl _ s
  · exact s.put_sameObjs _ (by decide) (by decide)

theorem exec_chgFaultsRead {s : State} {m : Master} (hs : s.served m = true) (hc : s.readCode m Obj.CHG_FAULTS = 0) :
    exec (.chgFaultsRead m) s = .next ((s.clearing m Obj.CHG_FAULTS).answerWith m Obj.CHG_FAULTS 0 (leBytes 4 (s.obj Obj.CHG_FAULTS))) := by
  rw [← State.readBytes_chgFaults, ← State.readKey_good hc]
  exact congrArg Host.Outcome.next (if_pos hs)

end Sys2Proof.Machine
end

section
/-!
PROOFS. The pack's presence and the objects of the charger (O35).
-/
namespace Sys2Proof.Machine

/-! ### The open-tap test's end (R267) -/

/-- What a failed tap leaves for the charger and its masters to see. -/
structure TapBad (s : State) : Prop where
  openTap : s.chg.openTap = true
  sel : s.chg.sel = 0
  scan : s.chg.scan = 3
  fault : bit (s.obj Obj.CHG_FAULTS) 11 = true
  stands : s.stands 8 4 = true

theorem State.tapReported_bad (s : State) (tap : Nat) : TapBad (s.tapReported tap) := by
  have hchg : (s.tapReported tap).chg = { (s.balOff.chgCond 8 4 tap 11 true).chg with openTap := true } := rfl
  have hfaults : (s.tapReported tap).obj Obj.CHG_FAULTS = setBit (s.balOff.obj Obj.CHG_FAULTS) 11 true := State.chgCond_faults _ _ _ _ _
  rw [State.chgCond_chg] at hchg
  exact ⟨by rw [hchg], by rw [hchg]; rfl, by rw [hchg]; rfl, by rw [hfaults, bit_setBit_same], State.stands_chgCond _ _ _ _ _ _⟩

theorem State.tapReported_objs (s : State) (tap : Nat) : s.balOff.SameObjs chgFaultObjs (s.tapReported tap) :=
  .trans (State.chgCond_objs s.balOff 8 4 tap 11 true) (State.withChg_objs _ _ _)

/-- HOLD with no current leaves what a failed tap has left. -/
theorem TapBad.hold {s : State} (h : TapBad s) : TapBad ((s.chgEnter 2 0).writeChg 0) where
  openTap := by rw [State.writeChg_chg]; exact h.openTap
  sel := by rw [State.writeChg_chg]; exact h.sel
  scan := by rw [State.writeChg_chg]; exact h.scan
  fault := by rw [State.writeChg_objs _ _ _ (by decide), State.chgEnter_objs _ _ _ _ (by decide), h.fault]
  stands := by
    rw [(State.writeChg_silent _ _).stands]
    exact h.stands

theorem State.openTapEnd_bad (s : State) {tap : Nat} (h : tap ≠ 0) : TapBad (s.openTapEnd tap) := by
  rw [s.openTapEnd_fail h]
  split
  · exact (s.tapReported_bad tap).hold
  · exact s.tapReported_bad tap

/-- A failed tap takes a stage that charges to HOLD. -/
theorem State.openTapEnd_holds {s : State} {tap : Nat} (h : tap ≠ 0) (hlo : 3 ≤ s.obj Obj.CHG_STATE) (hhi : s.obj Obj.CHG_STATE ≤ 6) :
    (s.openTapEnd tap).obj Obj.CHG_STATE = 2 ∧ (s.openTapEnd tap).obj Obj.CHG_I_CMD = 0 := by
  have hstate : (s.tapReported tap).obj Obj.CHG_STATE = s.obj Obj.CHG_STATE :=
    (s.tapReported_objs tap _ (by decide)).trans (s.balOff_objs _ (by decide))
  rw [s.openTapEnd_fail h, hstate, if_pos ⟨hlo, hhi⟩, State.writeChg_cmd, State.writeChg_objs _ _ _ (by decide), State.chgEnter_state]
  exact ⟨rfl, rfl⟩

theorem State.openTapEnd_balState (s : State) (tap : Nat) : (s.openTapEnd tap).obj Obj.BAL_STATE = 0 := by
  have hoff : s.balOff.obj Obj.BAL_STATE = 0 := by
    change (s.set Obj.BAL_STATE 0).obj Obj.BAL_STATE = 0
    exact State.obj_set_same _ _ _
  by_cases h : tap = 0
  · rw [h, State.openTapEnd_pass]
    exact (State.chgCond_objs s.balOff 8 4 0 11 false _ (by decide)).trans hoff
  · rw [s.openTapEnd_fail h]
    split
    · rw [State.writeChg_objs _ _ _ (by decide), State.chgEnter_objs _ _ _ _ (by decide), s.tapReported_objs _ _ (by decide), hoff]
    · rw [s.tapReported_objs _ _ (by decide), hoff]

theorem exec_openTapTest {s : State} {taps : List (Nat × Int)} (hup : s.shellUp = true) (hbring : s.bringing = false)
    (hmode : s.inMode [2, 3, 5] = true) (hpack : s.obj Obj.PACK_STATE ≠ 0) (hcal : s.meas.cal ≠ 2) (hlen : taps.length = s.cells) :
    exec (.openTapTest taps) s = .next (s.logDiff (s.openTapEnd (badTap taps))) :=
  congrArg (fun t => Host.Outcome.next (s.logDiff t)) (if_pos (by simp [hup, hbring, hmode, hpack, hcal, hlen]))

/-! ### After the test for exhausted sources (R55, R249) -/

/-- Either way the promise is broken; with the rail off the charger's part is all that happens. -/
theorem State.packRemoved_of_railOff {s : State} (vpack : Nat) (h : s.railMode = false) : s.packRemoved vpack = s.removalNoted vpack := by
  rw [State.packRemoved_eq, State.exhaustedNow_of_railOff ((s.removalNoted_railMode vpack).trans h)]

theorem State.packRemoved_broken (s : State) (vpack : Nat) : (s.packRemoved vpack).env.broken = true := by
  rw [State.packRemoved_eq]
  exact (State.exhaustedNow_loss (State.sourceLoss_broken _ _)).1

theorem State.packLostShell_loss (s : State) : s.packLostShell.env.broken = true ∧ s.packLostShell.chg.lost = true := by
  rw [State.packLostShell_eq]
  obtain ⟨hbroken, hlost⟩ := State.exhaustedNow_loss (s := s.lossNoted) (State.sourceLoss_broken _ _)
  exact ⟨hbroken, hlost.trans s.lossNoted_lost⟩

theorem State.packLostShell_of_railOff {s : State} (h : s.railMode = false) : s.packLostShell = s.lossNoted := by
  rw [State.packLostShell_eq, State.exhaustedNow_of_railOff (s.lossNoted_railMode.trans h)]

/-- Settles O35: each command is one action before its events are recorded. Presence is judged by the cutoff; a pack that is gone or lost
leaves both latches at 0 and the promise broken, whether or not Storage follows; an accepted write is its effect, then its answer. -/
theorem packAndChargerObjects : Obligations.PackAndChargerObjects := by
  refine ⟨?found, ?gone, ?lost, ?tap, ?cells, ?enable, ?service, ?faults⟩
  case found =>
    intro vpack ms s hup hgone hthere
    have hexec := exec_packPresent ms hup hgone hthere
    have hrec := s.packFound_recalls ms
    refine ⟨_, hexec, ?_, ?_, ?_, fun hknown hlong => ?_, (execPackPresent_parts vpack ms hexec).only (by decide)⟩
    · rw [(s.logDiff_frame _).chg rfl, hrec.known]
      rfl
    · rw [State.logDiff_obj]
      exact (s.packFound_packState ms).1
    · rw [State.logDiff_obj]
      exact (s.packFound_packState ms).2
    · rw [(s.logDiff_frame _).chg rfl, hrec.lost, State.packNoted_lost hknown hlong]
  case gone =>
    intro vpack s hup hcells hpack hlow
    have hexec := exec_packAbsent hup hcells hpack hlow
    refine ⟨_, hexec, (execPackAbsent_parts vpack hexec).only (by decide), ?_, fun hrail => ?_⟩
    · rw [(s.logDiff_frame _).env rfl, State.packRemoved_broken]
    · have hnoted := s.removalNoted_objs vpack
      simp only [State.logDiff_obj, State.packRemoved_of_railOff vpack hrail]
      exact ⟨(hnoted _ (by decide)).trans s.packGone_packState, (hnoted _ (by decide)).trans s.packGone_cmd,
        (hnoted _ (by decide)).trans s.packGone_state, State.removalNoted_faults vpack, State.removalNoted_count vpack hup⟩
  case lost =>
    intro vpack s hcharge hlimit hruns
    have hexec := exec_packLost (vpack := vpack) hcharge hlimit hruns
    have hshell : (s.packTripped vpack).shellUp = s.shellUp := State.shellUp_of_parts (s.packTripped_parts vpack) rfl rfl
    refine ⟨_, hexec, (execPackLost_parts vpack hexec).only (by decide), fun hdown => ?_, fun hup => ?_⟩
    · obtain ⟨hbit, hother⟩ := s.packTripped_stops vpack
      rw [hshell, hdown, if_neg Bool.false_ne_true]
      have htold := s.logDiff_told (s.packTripped vpack)
      refine ⟨by rw [htold.g, hbit], fun p hp => State.pwm_of_stopped ?_, fun h hne => (htold.g h).trans (hother h hne)⟩
      rw [htold.g, (State.mem_phasesOf hp).2]
      exact ne_zero_of_bit hbit
    · obtain ⟨hbroken, hlost⟩ := (s.packTripped vpack).packLostShell_loss
      rw [hshell, hup, if_pos rfl, (s.logDiff_frame _).chg rfl, (s.logDiff_frame _).env rfl]
      refine ⟨hlost, hbroken, fun hrail => ?_⟩
      have hoff : (s.packTripped vpack).railMode = false :=
        (State.railMode_congr (s.packTripped_mk vpack) ((s.packTripped_parts vpack).aon rfl)).trans hrail
      simp only [State.logDiff_obj, State.packLostShell_of_railOff hoff]
      exact ⟨State.lossNoted_packState _, State.lossNoted_state _, State.lossNoted_faults _⟩
  case tap =>
    intro taps s hup hbring hmode hpack hcal hlen
    have hexec := exec_openTapTest hup hbring hmode hpack hcal hlen
    have hframe := s.logDiff_frame (s.openTapEnd (badTap taps))
    simp only [State.stands]
    refine ⟨_, hexec, ?_, fun hgood => ?_, fun hfails => ?_, (execOpenTapTest_parts taps hexec).only (by decide)⟩
    · rw [State.logDiff_obj, State.openTapEnd_balState]
    · rw [hframe.chg rfl, hframe.col rfl, badTap_eq_zero.mpr hgood, State.openTapEnd_pass]
      exact ⟨rfl, State.stands_chgCond s.balOff 8 4 0 11 false⟩
    · have hne : badTap taps ≠ 0 := fun h0 => by
        obtain ⟨x, hx, hout⟩ := hfails
        have hin := badTap_eq_zero.mp h0 x hx
        omega
      have hbad := s.openTapEnd_bad hne
      simp only [State.logDiff_obj, hframe.chg rfl, hframe.col rfl]
      exact ⟨hbad.openTap, hbad.sel, hbad.scan, hbad.fault, hbad.stands, State.openTapEnd_holds hne⟩
  case cells =>
    intro m v s hs hc
    have hobj := fun j hj => s.wrote_packCells m v (j := j) hj
    refine ⟨_, exec_packCellsWrite hs hc, s.wrote_code _ _ _, ?_, fun hnone => ?_, ?_⟩
    · rw [hobj _ (by decide), State.cellsWrite_cells]
    · rw [hobj _ (by decide), hobj _ (by decide), hobj _ (by decide), hnone]
      exact s.cellsWrite_stage
    · exact (s.wrote_parts (p := 0x8200920f0) (State.cellsWrite_parts (v % 256) rfl (Fr.refl _ s)) rfl).only (by decide)
  case enable =>
    intro m v s hs hc
    have hobj := fun j hj => s.wrote_chgEnable m v (j := j) hj
    refine ⟨_, exec_chgEnableWrite hs hc, s.wrote_code _ _ _, ?_, fun hoff hne => ?_, fun hoff heq => ?_, ?_⟩
    · rw [hobj _ (by decide), State.chgEnableWrite_enable]
    · rw [hobj _ (by decide), hobj _ (by decide), hoff]
      exact State.chgEnableWrite_off hne
    · rw [hobj _ (by decide), hoff, State.chgEnableWrite_fault heq]
    · exact (s.wrote_parts (p := 0x8200920f0) (State.chgEnableWrite_parts (v % 256) rfl (Fr.refl _ s)) rfl).only (by decide)
  case service =>
    intro m v s hs hc
    have hobj := fun j hj => s.wrote_chgService m v (j := j) hj
    refine ⟨_, exec_chgServiceWrite hs hc, s.wrote_code _ _ _, ?_, fun hlo hhi hnone => ?_, ?_⟩
    · rw [hobj _ (by decide), State.chgServiceWrite_service]
    · rw [hobj _ (by decide), hnone, State.chgServiceWrite_cmd (State.modeNow_of_serviceWrite hc) hlo hhi]
    · exact (s.wrote_parts (p := 0x8200820f0) (State.chgServiceWrite_parts (v % 256) rfl (Fr.refl _ s)) rfl).only (by decide)
  case faults =>
    intro m s hs hc
    have hanswer := (s.clearing m Obj.CHG_FAULTS).answerWith_good_objs m Obj.CHG_FAULTS (leBytes 4 (s.obj Obj.CHG_FAULTS))
    refine ⟨_, exec_chgFaultsRead hs hc, State.answerWith_code _ _ _ _ _, State.answerWith_data _ _ _ _ _, fun hrc => ?_, fun hr => ?_, ?_, ?_⟩
    · rw [hanswer _ (by decide), State.clearing_chgFaults_rc hrc]
    · rw [hanswer _ (by decide), State.clearing_chgFaults_r hr]
    · exact (State.answerWith_parts (p := 0x800010010) _ _ _ _ rfl ((Fr.refl _ s).upd (s.clearing_chgFaults_parts m) rfl)).only (by decide)
    · exact ((s.clearing_chgFaults_objs m).mono (by decide)).trans (hanswer.mono (by decide))

end Sys2Proof.Machine
end

section
/-!
PROOFS. A rest correction without the shell: a counterexample to the statement about the charger's stages and timers (O36).
-/
namespace Sys2Proof.Machine

/-- Without the shell the command of the rest correction does nothing. -/
theorem exec_ocvCorrection_of_shellDown {s : State} (h : s.shellUp = false) : exec .ocvCorrection s = .next s := by
  have hexec : exec .ocvCorrection s = execOcvCorrection s := rfl
  rw [hexec, execOcvCorrection, if_neg (by simp [h])]

/-- A charge table whose OCV curve rises from 3.0 V to 4.0 V in steps of 0.1 V. -/
def ocvCurve : List Byte := List.replicate 42 0 ++ (List.range 11).flatMap fun k => leBytes 2 (3000 + 100 * k)

/-- A Park check that runs in Park, with the shell off; ten cells of 3.55 V rest, and the state of charge reads 0. -/
def restedInPark : State :=
  { State.reset with
    objs := [(Obj.MODE_STATE, 1), (Obj.PACK_CELLS, 10), (Obj.PACK_STATE, 1), (Obj.PACK_Q, 500), (Obj.PACK_VSUM, 35500),
      (Obj.RESULTS 16, 0x10000000)]
    aon := { shell := false, por := false }, mode := { parkCheck := true }, tabs := { active := [(2, ocvCurve)] } }

/-- Refutes O36: its part on the rest correction takes in a Park check that runs with the shell off. The correction there is made by the
end of the check (R287), and the command itself acts only with the shell running, so it leaves PACK_SOC as it stands. -/
theorem not_chargeStagesAndTimers : ¬ Obligations.ChargeStagesAndTimers := by
  rintro ⟨-, -, -, -, -, hrest⟩
  obtain ⟨t, ht, hsoc, -⟩ := hrest 550 restedInPark (.inr rfl) (by decide) (by decide) (by decide) (by decide) (by decide)
  rw [exec_ocvCorrection_of_shellDown rfl] at ht
  obtain rfl := Host.Outcome.next.inj ht
  exact absurd hsoc (by decide)

end Sys2Proof.Machine
end

section
/-!
PROOFS. The energy-share link: what its operations leave of a port's record and of its objects.
-/
namespace Sys2Proof.Machine

/-! ### A port's record -/

theorem Two.get_put_same {α : Type} (f : Two α) (p : Port) (x : α) : (f.put p x).get p = x := by
  cases p <;> rfl

theorem Two.get_put_other {α : Type} (f : Two α) {p q : Port} (x : α) (h : q ≠ p) : (f.put p x).get q = f.get q := by
  cases p <;> cases q <;> simp_all [Two.get, Two.put]

@[simp] theorem State.lp_modL (s : State) (p : Port) (f : LinkPort → LinkPort) : (s.modL p f).lp p = f (s.lp p) := Two.get_put_same _ _ _

theorem State.lp_modL_other (s : State) {p q : Port} (f : LinkPort → LinkPort) (h : q ≠ p) : (s.modL p f).lp q = s.lp q :=
  Two.get_put_other _ _ h

theorem State.lp_congr {s t : State} (h : t.link = s.link) (p : Port) : t.lp p = s.lp p := congrArg (Two.get · p) h

@[simp] theorem State.obj_modL (s : State) (p : Port) (f : LinkPort → LinkPort) (k : Nat) : (s.modL p f).obj k = s.obj k := rfl
@[simp] theorem State.lState_modL (s : State) (p q : Port) (f : LinkPort → LinkPort) : (s.modL p f).lState q = s.lState q := rfl

/-! ### What is beside the link -/

/-- Objects that a link operation writes on its way: reports, the journal, the ordering constraint, counters. -/
def asideObjs : List Nat :=
  [Obj.FAULT_LOST, Obj.OD_JOURNAL, Obj.RAIL_FLOOR, Obj.LINK_CEILING, Obj.ENV_STATS_BROKEN] ++ (List.range 8).map (fun n => Obj.FAB_STATS n) ++
    (List.range 8).map (fun n => Obj.LINK_STATS_E n) ++ (List.range 8).map fun n => Obj.LINK_STATS_W n

/-- The records of both ports stand as before, and so do the objects but for those of `asideObjs`. -/
structure Aside (s t : State) : Prop where
  link : t.link = s.link
  objs : s.SameObjs asideObjs t

namespace Aside

theorem refl (s : State) : Aside s s := ⟨rfl, .refl _ s⟩

theorem trans {s t u : State} (h : Aside s t) (k : Aside t u) : Aside s u := ⟨k.link.trans h.link, h.objs.trans k.objs⟩

theorem ite {s a b : State} {c : Prop} [Decidable c] (ha : Aside s a) (hb : Aside s b) : Aside s (if c then a else b) := by
  split <;> assumption

/-- A footprint without objects and link. -/
theorem of_parts {p : Nat} {s t : State} (h : Fr p s t) (ho : p.testBit 4 = false) (hl : p.testBit 30 = false) : Aside s t :=
  ⟨h.link hl, fun k _ => State.obj_congr (h.objs ho) k⟩

theorem of_reports {s t : State} (h : s.Reports t) : Aside s t :=
  ⟨(h.parts (p := 0x82010) rfl).link rfl, h.2.mono (by decide)⟩

theorem lp {s t : State} (h : Aside s t) (p : Port) : t.lp p = s.lp p := State.lp_congr h.link p

theorem lState {s t : State} (h : Aside s t) (p : Port) : t.lState p = s.lState p := h.objs _ (by cases p <;> decide)

end Aside

theorem State.set_aside (s : State) {k : Nat} (v : Nat) (hk : k ∈ asideObjs) : Aside s (s.set k v) := ⟨rfl, s.set_sameObjs v hk⟩

theorem State.raise_aside (s : State) (src kind inst : Nat) : Aside s (s.raise src kind inst) := .of_reports (s.raise_reports _ _ _)

theorem State.logDiff_aside (a b : State) : Aside b (a.logDiff b) := .of_reports (State.logDiff_reports a b)

theorem State.linkZ_aside (s : State) (p : Port) : Aside s (s.linkZ p) := .of_parts (State.linkZ_parts (p := 0xc0) p rfl (Fr.refl _ s)) rfl rfl

theorem State.linkRun_aside (s : State) (p : Port) : Aside s (s.linkRun p) := ⟨rfl, .refl _ s⟩

theorem State.modG_aside (s : State) (g : Group) (f : GroupSt → GroupSt) : Aside s (s.modG g f) := ⟨rfl, .refl _ s⟩

theorem State.ordering_aside (s : State) : Aside s s.ordering := ⟨rfl, s.ordering_objs.mono (by decide)⟩

theorem State.writeContract_aside (s : State) (p : Port) (t : Terms) (curr : Nat) : Aside s (s.writeContract p t curr) :=
  ⟨(State.writeContract_parts (p := 0x20f0) p t curr rfl (Fr.refl _ s)).link rfl, (State.portIfNew_silent _ _ _).objs.mono (by decide)⟩

theorem State.sourceLoss_aside (s : State) (cause : Nat) : Aside s (s.sourceLoss cause) :=
  ⟨(State.sourceLoss_parts (p := 0x10012010) cause rfl (Fr.refl _ s)).link rfl, (s.sourceLoss_objs cause).mono (by decide)⟩

theorem State.endLoss_aside (s : State) (held : Bool) : Aside s (s.endLoss held) := .ite (s.sourceLoss_aside 4) (.refl s)

theorem State.linkStat_aside (s : State) (p : Port) {n : Nat} (hn : n < 8) : Aside s (s.linkStat p n) := by
  refine ⟨(State.linkStat_parts (p := 0x10010) p n rfl (Fr.refl _ s)).link rfl, ?_⟩
  cases p
  · exact s.put_sameObjs _ (by interval_cases n <;> decide) (by decide)
  · exact s.put_sameObjs _ (by interval_cases n <;> decide) (by decide)

/-- A frame of the node's own touches neither a port's record nor an object, but for the count of frames dropped. -/
theorem State.fabLocal_aside (s : State) (p : Port) (prio : Nat) (f : Frame) : Aside s (s.fabLocal p prio f) := by
  have hseq : Aside s (s.fabSeq f).2 := ⟨rfl, .refl _ s⟩
  have hdrop : Aside (s.fabSeq f).2 (((s.fabSeq f).2.tally (Obj.FAB_STATS 6) 0xFFFFFFFF).raise 0x0E 0x0B p.num) :=
    (State.set_aside _ _ (by decide)).trans (State.raise_aside _ _ _ _)
  exact hseq.trans (.ite ⟨rfl, .refl _ _⟩ hdrop)

/-! ### Records and states after an operation -/

@[simp] theorem State.lp_set (s : State) (k v : Nat) (p : Port) : (s.set k v).lp p = s.lp p := rfl
@[simp] theorem State.lp_setLink (s : State) (p q : Port) (n : Nat) : (s.setLink p n).lp q = s.lp q := rfl
@[simp] theorem State.lp_setRole (s : State) (p q : Port) (t : Terms) : (s.setRole p t).lp q = s.lp q := rfl
@[simp] theorem State.lp_modG (s : State) (g : Group) (f : GroupSt → GroupSt) (q : Port) : (s.modG g f).lp q = s.lp q := rfl
@[simp] theorem State.lp_linkRun (s : State) (p q : Port) : (s.linkRun p).lp q = s.lp q := rfl
@[simp] theorem State.lp_ordering (s : State) (q : Port) : s.ordering.lp q = s.lp q := rfl
@[simp] theorem State.lp_linkZ (s : State) (p q : Port) : (s.linkZ p).lp q = s.lp q := (s.linkZ_aside p).lp q
@[simp] theorem State.lp_raise (s : State) (a b c : Nat) (q : Port) : (s.raise a b c).lp q = s.lp q := (s.raise_aside a b c).lp q
@[simp] theorem State.lp_logDiff (a b : State) (q : Port) : (a.logDiff b).lp q = b.lp q := (a.logDiff_aside b).lp q
@[simp] theorem State.lp_endLoss (s : State) (held : Bool) (q : Port) : (s.endLoss held).lp q = s.lp q := (s.endLoss_aside held).lp q
@[simp] theorem State.lp_writeContract (s : State) (p q : Port) (t : Terms) (curr : Nat) : (s.writeContract p t curr).lp q = s.lp q :=
  (s.writeContract_aside p t curr).lp q
@[simp] theorem State.lp_linkStat (s : State) (p q : Port) (n : Nat) : (s.linkStat p n).lp q = s.lp q :=
  State.lp_congr ((State.linkStat_parts (p := 0x10010) p n rfl (Fr.refl _ s)).link rfl) q

@[simp] theorem State.lState_setLink (s : State) (p : Port) (n : Nat) : (s.setLink p n).lState p = n := State.obj_set_same _ _ _
@[simp] theorem State.lState_setRole (s : State) (p q : Port) (t : Terms) : (s.setRole p t).lState q = s.lState q :=
  State.obj_set_other _ _ (by cases p <;> cases q <;> decide)
@[simp] theorem State.lState_target (s : State) (p q : Port) (v : Nat) : (s.set (Obj.LINK_TARGET (p.num + 1)) v).lState q = s.lState q :=
  State.obj_set_other _ _ (by cases p <;> cases q <;> decide)
@[simp] theorem State.lState_modG (s : State) (g : Group) (f : GroupSt → GroupSt) (q : Port) : (s.modG g f).lState q = s.lState q := rfl
@[simp] theorem State.lState_linkRun (s : State) (p q : Port) : (s.linkRun p).lState q = s.lState q := rfl
@[simp] theorem State.lState_ordering (s : State) (q : Port) : s.ordering.lState q = s.lState q := s.ordering_aside.lState q
@[simp] theorem State.lState_linkZ (s : State) (p q : Port) : (s.linkZ p).lState q = s.lState q := (s.linkZ_aside p).lState q
@[simp] theorem State.lState_raise (s : State) (a b c : Nat) (q : Port) : (s.raise a b c).lState q = s.lState q := (s.raise_aside a b c).lState q
@[simp] theorem State.lState_logDiff (a b : State) (q : Port) : (a.logDiff b).lState q = b.lState q := (a.logDiff_aside b).lState q
@[simp] theorem State.lState_endLoss (s : State) (held : Bool) (q : Port) : (s.endLoss held).lState q = s.lState q :=
  (s.endLoss_aside held).lState q
@[simp] theorem State.lState_writeContract (s : State) (p q : Port) (t : Terms) (curr : Nat) :
    (s.writeContract p t curr).lState q = s.lState q := (s.writeContract_aside p t curr).lState q

/-! ### What a port's record and state decide -/

/-- The contract is void (R338). -/
def LinkPort.void (l : LinkPort) : LinkPort :=
  { l with
    now := {}, next := none, offer := none, timer := false, leaving := false, dwellDone := false, ramp := none, hardSent := false
    await_ := none, again := false, forMode := false }

theorem State.moist_congr {s t : State} {p : Port} (hown : (t.lp p).moist = (s.lp p).moist) (hpeer : (t.lp p).peerMoist = (s.lp p).peerMoist) :
    t.moist p = s.moist p := by
  simp only [State.moist, hown, hpeer]

theorem State.contractHeld_congr {s t : State} {p : Port} (hst : t.lState p = s.lState p) (hnow : (t.lp p).now = (s.lp p).now) :
    t.contractHeld p = s.contractHeld p := by
  simp only [State.contractHeld, State.inContract, hst, hnow]

theorem State.awaiting_of_some {s : State} {p : Port} {m : List Byte} (h : (s.lp p).await_ = some m) : s.awaiting p = byteAt m 0 := by
  rw [State.awaiting, h]

/-! ### Ends of contracts (R330, R331, R338, R248) -/

@[simp] theorem State.lp_voidContract (s : State) (p : Port) : (s.voidContract p).lp p = (s.lp p).void := by
  simp [State.voidContract, LinkPort.void]

@[simp] theorem State.lState_voidContract (s : State) (p q : Port) : (s.voidContract p).lState q = s.lState q := by
  simp [State.voidContract]

@[simp] theorem State.lp_toNeutral (s : State) (p : Port) : (s.toNeutral p).lp p = { (s.lp p).void with discharge := 0 } := by
  simp [State.toNeutral]

@[simp] theorem State.lState_toNeutral (s : State) (p : Port) : (s.toNeutral p).lState p = if s.moist p = 2 then 10 else 3 := by
  have hmoist : ((s.voidContract p).modL p fun l => { l with discharge := 0 }).moist p = s.moist p :=
    State.moist_congr (by simp [LinkPort.void]) (by simp [LinkPort.void])
  simp [State.toNeutral, hmoist]

@[simp] theorem State.lp_toHardReset (s : State) (p : Port) : (s.toHardReset p).lp p = { (s.lp p).void with discharge := 2 } := by
  simp [State.toHardReset]

@[simp] theorem State.lState_toHardReset (s : State) (p : Port) : (s.toHardReset p).lState p = 8 := by
  simp [State.toHardReset]

@[simp] theorem State.lp_toRamp (s : State) (p : Port) :
    (s.toRamp p).lp p = { s.lp p with next := none, timer := false, ramp := some (s.now, ms 20) } := by
  simp [State.toRamp]

@[simp] theorem State.lState_toRamp (s : State) (p : Port) : (s.toRamp p).lState p = 9 := by
  simp [State.toRamp]

theorem State.endLoss_broken (s : State) : (s.endLoss true).env.broken = true := s.sourceLoss_broken 4

/-- A contract in force that ends here breaks the promise. -/
theorem State.toHardReset_broken {s : State} {p : Port} (h : s.contractHeld p = true) : (s.toHardReset p).env.broken = true := by
  rw [State.toHardReset, h]
  exact State.endLoss_broken _

theorem State.toRamp_broken {s : State} {p : Port} (h : s.contractHeld p = true) : (s.toRamp p).env.broken = true := by
  rw [State.toRamp, h]
  exact State.endLoss_broken _

/-! ### The group's stop for the link (R309, R330) -/

theorem State.linkZ_stopped (s : State) (p : Port) : bit ((s.linkZ p).g p.group).stops 6 = true := by
  rw [State.linkZ, State.g_stopG_same]
  exact bit_setBit_same _ _ _

theorem State.linkRun_free (s : State) (p : Port) : bit ((s.linkRun p).g p.group).stops 6 = false := by
  rw [State.linkRun, State.stops_freeG_same, bit_setBit_same]

@[simp] theorem State.g_ordering (s : State) (g : Group) : s.ordering.g g = s.g g := rfl

/-- NEUTRAL and BLOCKED hold the group at Z. -/
theorem State.toNeutral_stopped (s : State) (p : Port) : bit ((s.toNeutral p).g p.group).stops 6 = true := by
  unfold State.toNeutral
  dsimp only
  rw [State.g_congr ((State.endLoss_parts (p := 0x10012010) _ rfl (State.ordering_parts rfl (State.setLink_parts p _ rfl (Fr.refl _ _)))).grp rfl)]
  exact State.linkZ_stopped _ _

/-! ### Messages sent (R324-R327) -/

@[simp] theorem State.lp_sendPay (s : State) (p : Port) (pay : List Byte) : (s.sendPay p pay).lp p = { s.lp p with out := pay } := by
  unfold State.sendPay
  dsimp only
  split
  · rw [(State.fabLocal_aside _ _ _ _).lp, State.lp_modL]
  · rw [State.lp_modL]

theorem State.sendPay_objs (s : State) (p : Port) (pay : List Byte) : s.SameObjs asideObjs (s.sendPay p pay) :=
  .ite (State.fabLocal_aside (s.modL p _) _ _ _).objs (.refl _ s)

theorem State.sendMsg_objs (s : State) (p : Port) (msg : Nat) (body : List Byte) (expects : Bool) :
    s.SameObjs asideObjs (s.sendMsg p msg body expects) := State.sendPay_objs _ _ _

@[simp] theorem State.lState_sendPay (s : State) (p q : Port) (pay : List Byte) : (s.sendPay p pay).lState q = s.lState q :=
  s.sendPay_objs p pay _ (by cases q <;> decide)

@[simp] theorem State.lState_sendMsg (s : State) (p q : Port) (msg : Nat) (body : List Byte) (expects : Bool) :
    (s.sendMsg p msg body expects).lState q = s.lState q := State.lState_sendPay _ _ _ _

@[simp] theorem State.lState_answer (s : State) (p q : Port) (msg ref : Nat) (body : List Byte) (expects : Bool) :
    (s.answer p msg ref body expects).lState q = s.lState q := State.lState_sendPay _ _ _ _

@[simp] theorem State.lState_answered (s : State) (p q : Port) : (s.answered p).lState q = s.lState q := rfl

@[simp] theorem State.lp_answered (s : State) (p : Port) : (s.answered p).lp p = { s.lp p with await_ := none, again := false } :=
  State.lp_modL _ _ _

/-- A new message goes out; one that expects an answer is awaited from now on. -/
def LinkPort.sends (l : LinkPort) (id : Nat) (pay : List Byte) (expects : Bool) : LinkPort :=
  { l with
    msgId := id, await_ := if expects then some pay else l.await_, again := if expects then false else l.again, out := pay }

@[simp] theorem State.lp_sendMsg (s : State) (p : Port) (msg : Nat) (body : List Byte) (expects : Bool) :
    (s.sendMsg p msg body expects).lp p =
      (s.lp p).sends (nextId (s.lp p).msgId) (s.payload p msg (nextId (s.lp p).msgId) 0 body) expects := by
  simp [State.sendMsg, LinkPort.sends]

@[simp] theorem State.lp_answer (s : State) (p : Port) (msg ref : Nat) (body : List Byte) (expects : Bool) :
    (s.answer p msg ref body expects).lp p =
      { (s.lp p).sends (nextId (s.lp p).msgId) (s.payload p msg (nextId (s.lp p).msgId) ref body) expects with
        rxId := some ref, answer := s.payload p msg (nextId (s.lp p).msgId) ref body } := by
  simp [State.answer, LinkPort.sends]

theorem byteAt_payload_code (s : State) (p : Port) (msg id ref : Nat) (body : List Byte) : byteAt (s.payload p msg id ref body) 0 = msg % 256 := by
  simp [State.payload, byteAt, leBytes]

theorem byteAt_payload_arg (s : State) (p : Port) (msg id ref v : Nat) : byteAt (s.payload p msg id ref (leBytes 1 v)) 4 = v % 256 := by
  simp [State.payload, byteAt, leBytes, fitBytes]

/-- A message that expects an answer is the one awaited, by its code. -/
theorem State.awaiting_sendMsg (s : State) (p : Port) (msg : Nat) (body : List Byte) : (s.sendMsg p msg body true).awaiting p = msg % 256 := by
  rw [State.awaiting_of_some (m := s.payload p msg (nextId (s.lp p).msgId) 0 body) (by simp [LinkPort.sends]), byteAt_payload_code]

theorem State.awaiting_answer (s : State) (p : Port) (msg ref : Nat) (body : List Byte) : (s.answer p msg ref body true).awaiting p = msg % 256 := by
  rw [State.awaiting_of_some (m := s.payload p msg (nextId (s.lp p).msgId) ref body) (by simp [LinkPort.sends]), byteAt_payload_code]

theorem State.awaiting_congr {s t : State} {p : Port} (h : (t.lp p).await_ = (s.lp p).await_) : t.awaiting p = s.awaiting p := by
  simp only [State.awaiting, h]

@[simp] theorem State.now_answered (s : State) (p : Port) : (s.answered p).now = s.now := rfl

@[simp] theorem State.now_answer (s : State) (p : Port) (msg ref : Nat) (body : List Byte) (expects : Bool) :
    (s.answer p msg ref body expects).now = s.now :=
  (State.answer_parts (p := 0xc0002010) p msg ref body expects rfl (Fr.refl _ s)).now rfl

/-! ### HARD_RESET sent (R338) -/

@[simp] theorem State.lp_sendHard (s : State) (p : Port) (reason : Nat) : (s.sendHard p reason).lp p =
    { ((s.lp p).sends (nextId (s.lp p).msgId) (s.payload p 8 (nextId (s.lp p).msgId) 0 (leBytes 1 reason)) false).void with
      discharge := 2, hardSent := true } := by
  simp [State.sendHard]

@[simp] theorem State.lState_linkStat (s : State) (p q : Port) {n : Nat} (hn : n < 8) : (s.linkStat p n).lState q = s.lState q :=
  (s.linkStat_aside p hn).lState q

@[simp] theorem State.lState_sendHard (s : State) (p : Port) (reason : Nat) : (s.sendHard p reason).lState p = 8 := by
  simp [State.sendHard]

end Sys2Proof.Machine
end

section
/-!
PROOFS. A link message heard: the state in which it is judged, and the ends of contracts.
-/
namespace Sys2Proof.Machine

/-! ### Objects that the link writes -/

/-- The objects of a port's state and contract, and those beside the link. -/
def linkObjs : List Nat :=
  [Obj.LINK_STATE 1, Obj.LINK_STATE 2, Obj.LINK_ROLE 1, Obj.LINK_ROLE 2, Obj.LINK_TARGET 1, Obj.LINK_TARGET 2, Obj.LINK_PEER 1,
    Obj.LINK_PEER 2, Obj.LINK_MOIST 1, Obj.LINK_MOIST 2] ++ asideObjs

theorem mem_linkObjs_of_aside {k : Nat} (h : k ∈ asideObjs) : k ∈ linkObjs := List.mem_append_right _ h

theorem Aside.linkObjs {s t : State} (h : Aside s t) : s.SameObjs linkObjs t := h.objs.mono fun _ => mem_linkObjs_of_aside

theorem State.setLink_objs (s : State) (p : Port) (n : Nat) : s.SameObjs linkObjs (s.setLink p n) :=
  s.set_sameObjs _ (by cases p <;> decide)

theorem State.target_objs (s : State) (p : Port) (n : Nat) : s.SameObjs linkObjs (s.set (Obj.LINK_TARGET (p.num + 1)) n) :=
  s.set_sameObjs _ (by cases p <;> decide)

theorem State.voidContract_objs (s : State) (p : Port) : s.SameObjs linkObjs (s.voidContract p) := by
  have hword : s.SameObjs linkObjs ((s.modL p LinkPort.void).writeContract p {} 0) :=
    .trans (t := s.modL p LinkPort.void) (.refl _ s) (State.writeContract_aside _ _ _ _).linkObjs
  exact (hword.trans (State.set_sameObjs _ _ (by cases p <;> decide))).trans (State.target_objs _ _ _)

/-- The last steps of an end: the port's new state, the ordering constraint, the promise. -/
theorem State.endState_objs (s : State) (p : Port) (n : Nat) (held : Bool) :
    s.SameObjs linkObjs (((s.setLink p n).ordering).endLoss held) :=
  ((s.setLink_objs p n).trans (State.ordering_aside _).linkObjs).trans (State.endLoss_aside _ _).linkObjs

theorem State.toNeutral_objs (s : State) (p : Port) : s.SameObjs linkObjs (s.toNeutral p) :=
  ((s.voidContract_objs p).trans (State.linkZ_aside ((s.voidContract p).modL p _) p).linkObjs).trans (State.endState_objs _ _ _ _)

theorem State.toHardReset_objs (s : State) (p : Port) : s.SameObjs linkObjs (s.toHardReset p) :=
  ((s.voidContract_objs p).trans (State.linkRun_aside ((s.voidContract p).modL p _) p).linkObjs).trans (State.endState_objs _ _ _ _)

theorem State.toRamp_objs (s : State) (p : Port) : s.SameObjs linkObjs (s.toRamp p) :=
  ((State.setLink_objs (s.modL p _) p 9).trans (State.target_objs _ _ _)).trans (State.endLoss_aside _ _).linkObjs

theorem State.sendMsg_linkObjs (s : State) (p : Port) (msg : Nat) (body : List Byte) (expects : Bool) :
    s.SameObjs linkObjs (s.sendMsg p msg body expects) := (s.sendMsg_objs p msg body expects).mono fun _ => mem_linkObjs_of_aside

theorem State.sendHard_objs (s : State) (p : Port) (reason : Nat) : s.SameObjs linkObjs (s.sendHard p reason) :=
  (((s.sendMsg_linkObjs p _ _ _).trans (State.linkStat_aside _ p (by decide)).linkObjs).trans
    (State.raise_aside _ _ _ _).linkObjs).trans (State.toHardReset_objs _ p)

theorem State.moistObj_objs (s : State) (p : Port) : s.SameObjs linkObjs (s.moistObj p) := s.set_sameObjs _ (by cases p <;> decide)

/-! ### A message heard (R317, R324, R330) -/

/-- A port that attends to its peer: no object beyond the link's is written, the message last answered stands, and no HARD_RESET of
its own comes up. -/
structure Attends (p : Port) (s t : State) : Prop where
  objs : s.SameObjs linkObjs t
  rxId : (t.lp p).rxId = (s.lp p).rxId
  hardSent : (s.lp p).hardSent = false → (t.lp p).hardSent = false

namespace Attends

theorem refl (p : Port) (s : State) : Attends p s s := ⟨.refl _ s, rfl, id⟩

theorem trans {p : Port} {s t u : State} (h : Attends p s t) (k : Attends p t u) : Attends p s u :=
  ⟨h.objs.trans k.objs, k.rxId.trans h.rxId, fun hs => k.hardSent (h.hardSent hs)⟩

theorem ite {p : Port} {s a b : State} {c : Prop} [Decidable c] (ha : Attends p s a) (hb : Attends p s b) :
    Attends p s (if c then a else b) := by
  split <;> assumption

/-- An operation that writes the link's objects alone. -/
theorem of_lp {p : Port} {s t : State} (h : s.SameObjs linkObjs t) (hl : t.lp p = s.lp p) : Attends p s t :=
  ⟨h, by rw [hl], fun hs => by rw [hl, hs]⟩

end Attends

theorem State.toNeutral_attends (s : State) (p : Port) : Attends p s (s.toNeutral p) :=
  ⟨s.toNeutral_objs p, by simp [LinkPort.void], fun _ => by simp [LinkPort.void]⟩

theorem State.sensedStep_attends (s : State) (p : Port) : Attends p s (s.sensedStep p) := .ite (s.toNeutral_attends p) (.refl p s)

theorem State.setLink_attends (s : State) (p : Port) (n : Nat) : Attends p s (s.setLink p n) := .of_lp (s.setLink_objs p n) rfl

/-- What the peer tells of the cable never makes this end send. -/
theorem State.moistChange_attends (s : State) (p : Port) : Attends p s (s.moistChange p false) :=
  (Attends.of_lp (s.moistObj_objs p) rfl).trans (.ite (State.setLink_attends _ _ _) (.ite (State.toNeutral_attends _ _)
    (.ite (State.setLink_attends _ _ _) (State.sensedStep_attends _ _))))

theorem State.peerSeen_attends (s : State) (p : Port) (src : Nat) (pay : List Byte) : Attends p s (s.peerSeen p src pay) := by
  refine .trans ?_ (State.moistChange_attends _ p)
  exact ⟨State.set_sameObjs (s.modL p _) _ (by cases p <;> decide), by simp, fun hs => by simpa using hs⟩

/-- A good frame on a pair in service is taken. -/
theorem State.fabTake_of_inService {s : State} {p : Port} (type : Nat)
    (h : s.obj (Obj.PORT_STATE (p.num + 1)) = 2 ∨ s.obj (Obj.PORT_STATE (p.num + 1)) = 3) :
    (s.fabTake p type).1 = true ∧ Attends p s (s.fabTake p type).2 := by
  have hheard : Attends p s ((s.fabTally 1).modL p fun l => { l with heard := l.heard || l.mated }) :=
    ⟨.mono (s.set_sameObjs (ks := [fabStat 1]) _ (.head _)) (by decide), by simp [State.fabTally, State.tally],
      fun hs => by simpa [State.fabTally, State.tally] using hs⟩
  unfold State.fabTake
  dsimp only
  rw [if_neg (by rcases h with h | h <;> simp [h]), if_pos (by rcases h with h | h <;> simp [h])]
  exact ⟨rfl, hheard.trans (.ite (State.sensedStep_attends _ p) (.refl p _))⟩

/-- Hearing a message touches neither the clock nor what tells whether the port is served. -/
theorem State.linkHeard_parts (s : State) (p : Port) (src : Nat) (pay : List Byte) : Fr 0xd00120f0 s (s.linkHeard p src pay) :=
  State.peerSeen_parts p src pay rfl (State.fabTake_parts p 0x4C rfl (Fr.refl _ s))

theorem State.linkHeard_now (s : State) (p : Port) (src : Nat) (pay : List Byte) : (s.linkHeard p src pay).now = s.now :=
  (s.linkHeard_parts p src pay).now rfl

theorem State.linkHere_congr {p : Nat} {s t : State} (h : Fr p s t) (ha : p.testBit 8 = false) (hs : p.testBit 10 = false)
    (hv : t.obj Obj.VARIANT = s.obj Obj.VARIANT) : t.linkHere = s.linkHere := by
  rw [State.linkHere, State.shellUp_of_parts h ha hs, State.variant_congr hv, State.linkHere]

/-- A message that reaches its meaning is judged in the state after it was heard. -/
theorem State.linkRx_of_takes {s : State} {p : Port} (src : Nat) {pay : List Byte} (k : State → State) (h : s.linkTakes p pay = true) :
    s.linkRx p src pay k = k (s.linkHeard p src pay) := by
  simp only [State.linkTakes, Bool.and_eq_true, Bool.or_eq_true, beq_iff_eq, bne_iff_ne, Bool.not_eq_true'] at h
  obtain ⟨⟨⟨⟨⟨hhere, hport⟩, hver⟩, hnew⟩, hmode⟩, hquiet⟩ := h
  obtain ⟨htook, htake⟩ := State.fabTake_of_inService 0x4C hport
  have hseen := htake.trans (State.peerSeen_attends _ p src pay)
  have hserved : (s.fabTake p 0x4C).2.linkHere = true := by
    rw [State.linkHere_congr (State.fabTake_parts (p := 0x500120f0) p 0x4C rfl (Fr.refl _ s)) rfl rfl (htake.objs _ (by decide)), hhere]
  rw [State.linkRx, if_neg (by simp [hhere])]
  dsimp only
  rw [htook, if_neg (by decide), if_pos hserved, State.linkTake]
  have hstill : (s.linkHeard p src pay).modeNow = s.modeNow := hseen.objs Obj.MODE_STATE (by decide)
  simp only [hver, beq_self_eq_true, if_true, Bool.not_true, Bool.false_eq_true, if_false]
  change (if ((s.linkHeard p src pay).lp p).rxId = some (byteAt pay 1) then _ else if (s.linkHeard p src pay).modeNow = 7 then _ else
    if ((s.linkHeard p src pay).lp p).hardSent = true then _ else _) = _
  rw [if_neg (hseen.rxId ▸ hnew), if_neg (hstill ▸ hmode), if_neg (by rw [State.linkHeard, hseen.hardSent hquiet]; decide)]
  rfl

end Sys2Proof.Machine
end

section
/-!
PROOFS. The link messages that form, turn and end a contract (O38).
-/
namespace Sys2Proof.Machine

/-! ### A contract that is written (R333, R337) -/

/-- The objects of a role, and those beside the link. -/
def roleObjs : List Nat := [Obj.LINK_ROLE 1, Obj.LINK_ROLE 2] ++ asideObjs

theorem Aside.roleObjs {s t : State} (h : Aside s t) : s.SameObjs roleObjs t := h.objs.mono fun _ => List.mem_append_right _

theorem State.setRole_objs (s : State) (p : Port) (t : Terms) : s.SameObjs roleObjs (s.setRole p t) :=
  s.set_sameObjs _ (by cases p <;> decide)

/-- A target that only roles and what is beside the link follow stands. -/
theorem State.target_of_after (s : State) {t : State} {p : Port} {v : Nat} (h : (s.set (Obj.LINK_TARGET (p.num + 1)) v).SameObjs roleObjs t) :
    t.obj (Obj.LINK_TARGET (p.num + 1)) = v :=
  (h _ (by cases p <;> decide)).trans (State.obj_set_same _ _ _)

/-- CONTRACT with the target in force, before the count of new contracts. -/
def State.contractSet (s : State) (p : Port) (t : Terms) : State :=
  let s := s.modL p fun l => { l with now := t, next := none, timer := false, dwellDone := false }
  let s := ((s.setLink p 6).set (Obj.LINK_TARGET (p.num + 1)) 0).setRole p t
  ((s.writeContract p t t.curr).linkRun p).ordering

theorem State.contractIn_eq {s : State} {p : Port} {t : Terms} (h : (s.lp p).next = some t) : s.contractIn p =
    if ((s.lp p).now.volt == 0) = true then (s.contractSet p t).linkStat p 1 else s.contractSet p t := by
  rw [State.contractIn, h]
  rfl

theorem State.contractIn_aside {s : State} {p : Port} {t : Terms} (h : (s.lp p).next = some t) :
    Aside (s.contractSet p t) (s.contractIn p) := by
  rw [State.contractIn_eq h]
  exact .ite (State.linkStat_aside _ p (by decide)) (.refl _)

theorem State.lp_contractIn {s : State} {p : Port} {t : Terms} (h : (s.lp p).next = some t) :
    (s.contractIn p).lp p = { s.lp p with now := t, next := none, timer := false, dwellDone := false } := by
  rw [(State.contractIn_aside h).lp]
  simp [State.contractSet]

theorem State.lState_contractIn {s : State} {p : Port} {t : Terms} (h : (s.lp p).next = some t) : (s.contractIn p).lState p = 6 := by
  rw [(State.contractIn_aside h).lState]
  simp [State.contractSet]

theorem State.contractIn_target {s : State} {p : Port} {t : Terms} (h : (s.lp p).next = some t) :
    (s.contractIn p).obj (Obj.LINK_TARGET (p.num + 1)) = 0 := by
  refine State.target_of_after ((s.modL p fun l => { l with now := t, next := none, timer := false, dwellDone := false }).setLink p 6)
    (.trans (t := s.contractSet p t) ?_ (State.contractIn_aside h).roleObjs)
  exact (((State.setRole_objs _ p t).trans (State.writeContract_aside _ _ _ _).roleObjs).trans (State.linkRun_aside _ _).roleObjs).trans
    (State.ordering_aside _).roleObjs

/-- In CONTRACT the group runs. -/
theorem State.contractIn_free {s : State} {p : Port} {t : Terms} (h : (s.lp p).next = some t) :
    bit ((s.contractIn p).g p.group).stops 6 = false := by
  have hstat : (s.contractIn p).grp = (s.contractSet p t).grp := by
    rw [State.contractIn_eq h]
    split
    · exact (State.linkStat_parts (p := 0x10010) p 1 rfl (Fr.refl _ _)).grp rfl
    · rfl
  rw [State.g_congr hstat, State.contractSet, State.g_ordering, State.linkRun_free]

/-! ### OFFER and REQUEST (R333, R335) -/

theorem State.onOffer_requests {x : State} {p : Port} {pay : List Byte} {v i sl : Nat} (hst : x.lState p = 3) (hfree : x.linkFree = true)
    (hnet : (x.lp p).net = false) (htsd : x.obj Obj.TSD_STATE = 0) (hen : x.consEn p = true)
    (hsoc : x.obj Obj.PACK_SOC < 5 * x.linkAt p 8) (hreq : x.requestOf p (slice pay 4 7) = some (v, i, sl)) :
    x.onOffer p pay = ((x.answer p 2 (byteAt pay 1) (leBytes 1 v ++ leBytes 1 i ++ leBytes 1 sl) true).modL p fun l =>
      { l with offer := some (slice pay 4 7) }).setLink p 4 := by
  rw [State.onOffer, if_pos hst, State.onOfferFree]
  simp [hfree, hnet, htsd, hen, Nat.not_le.mpr hsoc, hreq]

theorem State.onRequest_accepts {x : State} {p : Port} {pay : List Byte} {vlink ttr : Nat} {tm : Terms} (hst : x.lState p = 4)
    (hawait : x.awaiting p = 1) (hans : x.answers p pay = true) (hfree : x.linkFree = true) (hnet : (x.lp p).net = false)
    (htsd : x.obj Obj.TSD_STATE = 0)
    (hterms : x.grantTermsOf p (byteAt pay 4) (byteAt pay 5) (byteAt pay 6) vlink = (tm, ttr, 0)) :
    x.onRequest p pay vlink = x.acceptRequest p (byteAt pay 1) tm ttr vlink := by
  rw [State.onRequest, hterms]
  simp [hst, hawait, hans, hfree, hnet, htsd]

/-- The answer to a REQUEST is given: the port is in TRANSITION. -/
def State.granted (s : State) (p : Port) (id : Nat) (t : Terms) (ttr : Nat) : State :=
  let s := (s.answered p).answer p 3 id (leBytes 1 t.volt ++ leBytes 1 t.curr ++ leBytes 1 t.slew ++ leBytes 1 ttr) false
  (s.modL p fun l => { l with next := some t }).setLink p 5

/-- Its target is set, before the contract is written. -/
def State.transitionSet (s : State) (p : Port) (id : Nat) (t : Terms) (ttr : Nat) : State :=
  (s.granted p id t ttr).set (Obj.LINK_TARGET (p.num + 1)) t.volt

theorem State.acceptRequest_eq {s : State} {p : Port} (id : Nat) (t : Terms) (ttr vlink : Nat) (h : s.awaiting p = 1) :
    s.acceptRequest p id t ttr vlink = ((((s.transitionSet p id t ttr).ordering.modG p.group fun x =>
      { x with vref := 1000 * vlink }).writeContract p t (s.currAccepted p t.curr)).setRole p t).linkRun p := by
  rw [State.acceptRequest, if_pos h]
  rfl

/-- What REQUEST, once accepted, leaves of the port. -/
structure InTransition (p : Port) (id : Nat) (t : Terms) (s : State) : Prop where
  state : s.lState p = 5
  next : (s.lp p).next = some t
  await_ : (s.lp p).await_ = none
  rxId : (s.lp p).rxId = some id
  target : s.obj (Obj.LINK_TARGET (p.num + 1)) = t.volt
  free : bit (s.g p.group).stops 6 = false

theorem State.acceptRequest_inTransition {s : State} {p : Port} (id : Nat) (t : Terms) (ttr vlink : Nat) (h : s.awaiting p = 1) :
    InTransition p id t (s.acceptRequest p id t ttr vlink) := by
  rw [State.acceptRequest_eq id t ttr vlink h]
  constructor
  case state => simp [State.transitionSet, State.granted]
  case next => simp [State.transitionSet, State.granted]
  case await_ => simp [State.transitionSet, State.granted, LinkPort.sends]
  case rxId => simp [State.transitionSet, State.granted]
  case target =>
    refine State.target_of_after (s.granted p id t ttr) ?_
    exact ((((State.ordering_aside _).roleObjs.trans (State.modG_aside _ _ _).roleObjs).trans
      (State.writeContract_aside _ _ _ _).roleObjs).trans (State.setRole_objs _ _ _)).trans (State.linkRun_aside _ _).roleObjs
  case free => exact State.linkRun_free _ _

/-! ### ACCEPT and REJECT (R333, R338) -/

theorem State.onAccept_unfit {x : State} {p : Port} {pay : List Byte} (hans : x.answers p pay = true) (hawait : x.awaiting p = 2)
    (hst : [4, 5, 6].contains (x.lState p) = true) (hfit : x.acceptFits p pay = false) : x.onAccept p pay = x := by
  simp only [State.onAccept, hans, hawait, hst, hfit, Bool.not_true, Bool.false_eq_true, if_false, if_true]

theorem State.onAccept_fit {x : State} {p : Port} {pay : List Byte} (hans : x.answers p pay = true) (hawait : x.awaiting p = 2)
    (hst : [4, 5, 6].contains (x.lState p) = true) (hfit : x.acceptFits p pay = true) : x.onAccept p pay = x.requestAccepted p pay := by
  simp only [State.onAccept, hans, hawait, hst, hfit, Bool.not_true, Bool.false_eq_true, if_false, if_true]

/-- The terms of an ACCEPT, for the Consumer. -/
def acceptedTerms (pay : List Byte) : Terms := { volt := byteAt pay 4, curr := byteAt pay 5, slew := byteAt pay 6, prov := false }

/-- The Consumer's part of an ACCEPT, before a contract in force takes the lower CURR. -/
def State.acceptSet (s : State) (p : Port) (pay : List Byte) : State :=
  let s := (s.answered p).modL p fun l => { l with next := some (acceptedTerms pay), timer := true }
  (((s.setLink p 5).set (Obj.LINK_TARGET (p.num + 1)) (byteAt pay 4)).ordering).setRole p (acceptedTerms pay)

theorem State.requestAccepted_aside (s : State) (p : Port) (pay : List Byte) : Aside (s.acceptSet p pay) (s.requestAccepted p pay) :=
  .ite (.refl _) (State.writeContract_aside _ _ _ _)

theorem State.lp_requestAccepted (s : State) (p : Port) (pay : List Byte) : (s.requestAccepted p pay).lp p =
    { s.lp p with await_ := none, again := false, next := some (acceptedTerms pay), timer := true } := by
  rw [(s.requestAccepted_aside p pay).lp]
  simp [State.acceptSet]

theorem State.lState_requestAccepted (s : State) (p : Port) (pay : List Byte) : (s.requestAccepted p pay).lState p = 5 := by
  rw [(s.requestAccepted_aside p pay).lState]
  simp [State.acceptSet]

theorem State.requestAccepted_target (s : State) (p : Port) (pay : List Byte) :
    (s.requestAccepted p pay).obj (Obj.LINK_TARGET (p.num + 1)) = byteAt pay 4 :=
  State.target_of_after _ (((State.ordering_aside _).roleObjs.trans (State.setRole_objs _ _ _)).trans (s.requestAccepted_aside p pay).roleObjs)

/-- The own message has its answer, and no DETACH of its own is under way any more. -/
def State.settled (s : State) (p : Port) : State := (s.answered p).modL p fun l => { l with leaving := false }

theorem State.lp_settled (s : State) (p : Port) : (s.settled p).lp p = { s.lp p with await_ := none, again := false, leaving := false } := by
  simp [State.settled]

theorem State.lState_settled (s : State) (p : Port) : (s.settled p).lState p = s.lState p := rfl

theorem State.onAccept_leaves {x : State} {p : Port} {pay : List Byte} (hans : x.answers p pay = true) (hawait : x.awaiting p = 9) :
    x.onAccept p pay = if x.lState p = 6 then (x.settled p).toRamp p else x.settled p := by
  rw [State.onAccept]
  simp only [hans, hawait, Bool.not_true, Bool.false_eq_true, if_false, if_true]
  rfl

/-- A REJECT, carried out. -/
def State.onReject (s : State) (p : Port) : State :=
  let t := (s.settled p).linkStat p 5
  if t.lState p = 4 then t.toNeutral p else t

theorem State.lp_onReject (s : State) (p : Port) : ((s.onReject p).lp p).await_ = none ∧ ((s.onReject p).lp p).leaving = false := by
  unfold State.onReject
  dsimp only
  split
  · simp [LinkPort.void]
  · simp [State.lp_settled]

theorem State.lState_onReject (s : State) (p : Port) :
    (s.onReject p).lState p = if s.lState p = 4 then (if s.moist p = 2 then 10 else 3) else s.lState p := by
  have hmoist : ((s.settled p).linkStat p 5).moist p = s.moist p := State.moist_congr (by simp [State.lp_settled]) (by simp [State.lp_settled])
  have hstate : ((s.settled p).linkStat p 5).lState p = s.lState p := State.lState_linkStat _ _ _ (by decide)
  unfold State.onReject
  dsimp only
  rw [hstate]
  split
  · rw [State.lState_toNeutral, hmoist]
  · exact hstate

/-! ### READY (R335) -/

theorem State.onReady_enters {x : State} {p : Port} {pay : List Byte} {tm : Terms} (hnext : (x.lp p).next = some tm) (hcons : tm.prov = false)
    (hvolt : byteAt pay 6 = tm.volt) (hst : x.lState p = 5) : x.onReady p pay = x.contractIn p := by
  simp [State.onReady, hnext, hcons, hvolt, hst]

/-! ### SWAP (R340, R341) -/

@[simp] theorem State.lp_swapStart (s : State) (p : Port) (curr : Nat) : (s.swapStart p curr).lp p = { s.lp p with
    next := some { (s.lp p).now with curr := min (s.lp p).now.curr curr, prov := !(s.lp p).now.prov }
    dwellDone := false, timer := false, ramp := some (s.now, ms 1) } := by
  simp [State.swapStart]

@[simp] theorem State.lState_swapStart (s : State) (p : Port) (curr : Nat) : (s.swapStart p curr).lState p = 7 := by
  simp [State.swapStart]

theorem State.swapCurr_answered (s : State) (p : Port) : (s.answered p).swapCurr p = s.swapCurr p := by
  cases p <;> rfl

theorem State.onSwapReq_swaps {x : State} {p : Port} {pay : List Byte} (hst : x.lState p = 6) (hawait : x.awaiting p = 0)
    (hcurr : x.swapCurr p ≠ 0) : x.onSwapReq p pay =
      ((x.answered p).answer p 7 (byteAt pay 1) (leBytes 1 (x.swapCurr p)) false).swapStart p (x.swapCurr p) := by
  simp [State.onSwapReq, hst, hawait, State.swapCurr_answered, hcurr]

theorem State.onSwapAck_swaps {x : State} {p : Port} {pay : List Byte} (hans : x.answers p pay = true) (hawait : x.awaiting p = 6)
    (hst : x.lState p = 6) (hbyte : byteAt pay 4 ≠ 0) (hlimit : x.currLimit p (x.lp p).now.curr ≠ 0)
    (hmoist : x.moistOk p (x.lp p).now.volt = true) : x.onSwapAck p pay =
      (x.answered p).swapStart p (min (byteAt pay 4) (x.currLimit p (x.lp p).now.curr)) := by
  have hleft : min (byteAt pay 4) (x.currLimit p (x.lp p).now.curr) ≠ 0 := by omega
  simp [State.onSwapAck, hans, hawait, hst, hbyte, hleft, hmoist]

theorem State.onSwapAck_refused {x : State} {p : Port} {pay : List Byte} (hans : x.answers p pay = true) (hawait : x.awaiting p = 6)
    (hbyte : byteAt pay 4 = 0) : x.onSwapAck p pay = x.answered p := by
  simp [State.onSwapAck, hans, hawait, hbyte]

/-! ### HARD_RESET and DETACH received (R338, R339) -/

/-- A HARD_RESET as counted and reported. -/
def State.hardHeard (s : State) (p : Port) (reason : Nat) : State := (s.linkStat p 3).raise (linkSrc p) 6 reason

theorem State.onHardReset_resets {x : State} {p : Port} {reason : Nat} (h3 : 3 ≤ x.lState p) (h8 : x.lState p ≠ 8) :
    x.onHardReset p reason = (x.hardHeard p reason).toHardReset p := by
  rw [State.onHardReset, if_neg (by omega)]
  rfl

theorem State.hardHeard_held (s : State) (p : Port) (reason : Nat) : (s.hardHeard p reason).contractHeld p = s.contractHeld p :=
  State.contractHeld_congr (by simp [State.hardHeard]) (by simp [State.hardHeard])

/-- A void contract leaves no role. -/
theorem State.toHardReset_role (s : State) (p : Port) : (s.toHardReset p).obj (Obj.LINK_ROLE (p.num + 1)) = 0 := by
  have haside : Obj.LINK_ROLE (p.num + 1) ∉ asideObjs := by cases p <;> decide
  have hstate : Obj.LINK_ROLE (p.num + 1) ≠ Obj.LINK_STATE (p.num + 1) := by cases p <;> decide
  have htarget : Obj.LINK_ROLE (p.num + 1) ≠ Obj.LINK_TARGET (p.num + 1) := by cases p <;> decide
  have hvoid : (s.voidContract p).obj (Obj.LINK_ROLE (p.num + 1)) = 0 :=
    (State.obj_set_other _ _ htarget).trans (State.obj_set_same _ _ _)
  unfold State.toHardReset State.setLink
  dsimp only
  rw [(State.endLoss_aside _ _).objs _ haside, (State.ordering_aside _).objs _ haside, State.obj_set_other _ _ hstate,
    (State.linkRun_aside _ _).objs _ haside, State.obj_modL, hvoid]

theorem State.onDetach_ramps {x : State} {p : Port} {pay : List Byte} (hst : x.lState p = 6) : ∃ body, x.onDetach p pay =
    ((x.answer p 3 (byteAt pay 1) body false).answered p).toRamp p :=
  ⟨_, if_pos hst⟩

/-! ### The commands -/

/-- A message that reaches its meaning, as a command: its meaning in the state after it was heard, then its events. -/
theorem State.logged_linkRx {s : State} {p : Port} (src : Nat) {pay : List Byte} (k : State → State) (h : s.linkTakes p pay = true) :
    (Host.Outcome.next (s.logged fun s => s.linkRx p src pay k) : Host.Outcome State Fault Refusal) =
      .next (s.logDiff (k (s.linkHeard p src pay))) := by
  rw [State.logged, State.linkRx_of_takes src k h]

section
variable {s : State} {p : Port} {pay : List Byte} (src : Nat)

theorem exec_offer (h : s.linkTakes p pay = true) :
    exec (.offer p src pay) s = .next (s.logDiff ((s.linkHeard p src pay).onOffer p pay)) := State.logged_linkRx src (·.onOffer p pay) h

theorem exec_accept (h : s.linkTakes p pay = true) :
    exec (.accept p src pay) s = .next (s.logDiff ((s.linkHeard p src pay).onAccept p pay)) := State.logged_linkRx src (·.onAccept p pay) h

theorem exec_ready (h : s.linkTakes p pay = true) :
    exec (.ready p src pay) s = .next (s.logDiff ((s.linkHeard p src pay).onReady p pay)) := State.logged_linkRx src (·.onReady p pay) h

theorem exec_swapReq (h : s.linkTakes p pay = true) :
    exec (.swapReq p src pay) s = .next (s.logDiff ((s.linkHeard p src pay).onSwapReq p pay)) := State.logged_linkRx src (·.onSwapReq p pay) h

theorem exec_swapAck (h : s.linkTakes p pay = true) :
    exec (.swapAck p src pay) s = .next (s.logDiff ((s.linkHeard p src pay).onSwapAck p pay)) := State.logged_linkRx src (·.onSwapAck p pay) h

theorem exec_hardReset (h : s.linkTakes p pay = true) :
    exec (.hardReset p src pay) s = .next (s.logDiff ((s.linkHeard p src pay).onHardReset p (byteAt pay 4))) :=
  State.logged_linkRx src (·.onHardReset p (byteAt pay 4)) h

theorem exec_detach (h : s.linkTakes p pay = true) :
    exec (.detach p src pay) s = .next (s.logDiff ((s.linkHeard p src pay).onDetach p pay)) := State.logged_linkRx src (·.onDetach p pay) h

theorem exec_request (vlink : Nat) (h : s.linkTakes p pay = true) :
    exec (.request p src pay vlink) s = .next (s.logDiff ((s.linkHeard p src pay).onRequest p pay vlink)) :=
  State.logged_linkRx src (·.onRequest p pay vlink) h

theorem exec_reject (h : s.linkTakes p pay = true) (hans : (s.linkHeard p src pay).answers p pay = true) :
    exec (.reject p src pay) s = .next (s.logDiff ((s.linkHeard p src pay).onReject p)) := by
  have hexec : exec (.reject p src pay) s = _ := State.logged_linkRx src (fun s => if s.answers p pay then s.onReject p else s) h
  rw [hexec, if_pos hans]

end

/-- Settles O38: every message is heard, and then judged in the state that leaves. -/
theorem linkMessages : Obligations.LinkMessages := by
  refine ⟨?offer, ?request, ?answers, ?ready, ?others⟩
  case offer =>
    rintro p src pay v i sl s x htakes rfl hst hfree hnet htsd hen hsoc hreq
    have hexec := exec_offer src htakes
    rw [State.onOffer_requests hst hfree hnet htsd hen hsoc hreq] at hexec
    refine ⟨_, hexec, by simp, ?_, by simp, by simp, (execOffer_parts p src pay hexec).only (by decide)⟩
    exact (State.awaiting_congr (by simp)).trans (State.awaiting_answer (s.linkHeard p src pay) p 2 (byteAt pay 1)
      (leBytes 1 v ++ leBytes 1 i ++ leBytes 1 sl))
  case request =>
    rintro p src pay vlink tm ttr s x htakes rfl hst hawait hans hfree hnet htsd hterms
    have hexec := exec_request src vlink htakes
    rw [State.onRequest_accepts hst hawait hans hfree hnet htsd hterms] at hexec
    have hin := State.acceptRequest_inTransition (byteAt pay 1) tm ttr vlink hawait
    refine ⟨_, hexec, ?_, ?_, ?_, ?_, ?_, ?_, (execRequest_parts p src pay vlink hexec).only (by decide)⟩
    · rw [State.lState_logDiff, hin.state]
    · rw [State.lp_logDiff, hin.next]
    · rw [State.lp_logDiff, hin.await_]
    · rw [State.logDiff_obj, hin.target]
    · rw [State.lp_logDiff, hin.rxId]
    · rw [(s.logDiff_told _).g, hin.free]
  case answers =>
    rintro p src pay s x htakes rfl hans
    have hexec := exec_accept src htakes
    have honly := (execAccept_parts p src pay hexec).only (l := [.objs, .core, .grp, .ph, .col, .jrnl, .ring, .env, .link, .fab]) (by decide)
    refine ⟨fun hawait hfit hst => ?_, fun hawait hfit hst => ?_, fun hawait => ?_, ?_⟩
    · rw [State.onAccept_unfit hans hawait hst hfit] at hexec honly
      exact ⟨_, hexec, honly, (s.logDiff_aside _).link, by simp⟩
    · rw [State.onAccept_fit hans hawait hst hfit] at hexec honly
      refine ⟨_, hexec, ?_, ?_, ?_, ?_, ?_, honly⟩
      · rw [State.lState_logDiff, State.lState_requestAccepted]
      · rw [State.lp_logDiff, State.lp_requestAccepted]
      · rw [State.lp_logDiff, State.lp_requestAccepted]
      · rw [State.lp_logDiff, State.lp_requestAccepted, acceptedTerms]
      · rw [State.logDiff_obj, State.requestAccepted_target]
    · rw [State.onAccept_leaves hans hawait] at hexec honly
      refine ⟨_, hexec, honly, ?_⟩
      rw [State.lp_logDiff, State.lState_logDiff]
      split
      · simp [State.lp_settled]
      · simp [State.lp_settled, State.lState_settled]
    · have hreject := exec_reject src htakes hans
      obtain ⟨hnone, hstays⟩ := State.lp_onReject (s.linkHeard p src pay) p
      refine ⟨_, hreject, ?_, ?_, ?_, (execReject_parts p src pay hreject).only (by decide)⟩
      · rw [State.lp_logDiff, hnone]
      · rw [State.lp_logDiff, hstays]
      · rw [State.lState_logDiff, State.lState_onReject]
  case ready =>
    rintro p src pay tm s x htakes rfl hnext hcons hvolt hst
    have hexec := exec_ready src htakes
    rw [State.onReady_enters hnext hcons hvolt hst] at hexec
    have hlp := State.lp_contractIn hnext
    refine ⟨_, hexec, ?_, ?_, ?_, ?_, ?_, ?_, (execReady_parts p src pay hexec).only (by decide)⟩
    · rw [State.lState_logDiff, State.lState_contractIn hnext]
    · rw [State.lp_logDiff, hlp]
    · rw [State.lp_logDiff, hlp]
    · rw [State.lp_logDiff, hlp]
    · rw [State.logDiff_obj, State.contractIn_target hnext]
    · rw [(s.logDiff_told _).g, State.contractIn_free hnext]
  case others =>
    rintro p src pay s x htakes rfl
    have hnow := s.linkHeard_now p src pay
    refine ⟨fun hst hawait hcurr => ?_, fun hans hawait hst hbyte hlimit hmoist => ?_, fun hans hawait hbyte => ?_, fun h3 h8 => ?_,
      fun hst => ?_⟩
    · have hexec := exec_swapReq src htakes
      rw [State.onSwapReq_swaps hst hawait hcurr] at hexec
      exact ⟨_, hexec, by simp, by simp, by simp [LinkPort.sends], by simp [hnow], by simp,
        (execSwapReq_parts p src pay hexec).only (by decide)⟩
    · have hexec := exec_swapAck src htakes
      rw [State.onSwapAck_swaps hans hawait hst hbyte hlimit hmoist] at hexec
      exact ⟨_, hexec, by simp, by simp, by simp, by simp [hnow], (execSwapAck_parts p src pay hexec).only (by decide)⟩
    · have hexec := exec_swapAck src htakes
      rw [State.onSwapAck_refused hans hawait hbyte] at hexec
      exact ⟨_, hexec, (execSwapAck_parts p src pay hexec).only (by decide), by simp, by simp, by simp⟩
    · have hexec := exec_hardReset src htakes
      rw [State.onHardReset_resets h3 h8] at hexec
      refine ⟨_, hexec, by simp, by simp [LinkPort.void], by simp [LinkPort.void], by simp, ?_, fun hheld => ?_,
        (execHardReset_parts p src pay hexec).only (by decide)⟩
      · rw [State.logDiff_obj, State.toHardReset_role]
      · rw [(s.logDiff_frame _).env rfl, State.toHardReset_broken ((State.hardHeard_held _ _ _).trans hheld)]
    · have hexec := exec_detach src htakes
      obtain ⟨body, hramps⟩ := State.onDetach_ramps (pay := pay) hst
      rw [hramps] at hexec
      refine ⟨_, hexec, by simp, by simp, by simp, by simp [hnow], fun hheld => ?_, (execDetach_parts p src pay hexec).only (by decide)⟩
      have hstands : (((s.linkHeard p src pay).answer p 3 (byteAt pay 1) body false).answered p).contractHeld p = true :=
        (State.contractHeld_congr (by simp) (by simp [LinkPort.sends])).trans hheld
      rw [(s.logDiff_frame _).env rfl, State.toRamp_broken hstands]

end Sys2Proof.Machine
end

section
/-!
PROOFS. The link's timers and the ends of contracts (O39).
-/
namespace Sys2Proof.Machine

/-! ### READY sent, and the dwell of a swap (R335, R341) -/

theorem State.sendReady_enters {s : State} {p : Port} {vlink : Nat} {tm : Terms} (hnext : (s.lp p).next = some tm) (hprov : tm.prov = true)
    (hband : inBand tm.volt vlink = true) (hst : s.lState p = 5) :
    s.sendReady p vlink = (s.sendMsg p 5 (leBytes 2 (vlink / 10) ++ leBytes 1 tm.volt) false).contractIn p := by
  simp [State.sendReady, hnext, hprov, hband, hst]

theorem exec_sendReady {s : State} {p : Port} (vlink : Nat) (hhere : s.linkHere = true) :
    exec (.sendReady p vlink) s = .next (s.logDiff (s.sendReady p vlink)) :=
  congrArg (fun t => Host.Outcome.next (s.logDiff t)) (if_pos hhere)

/-- The dwell is over: the group stands at Z, and no ramp runs. -/
def State.dwelt (s : State) (p : Port) (tm : Terms) : State :=
  (s.linkZ p).modL p fun l => { l with dwellDone := true, timer := !tm.prov, ramp := none }

/-- The new Provider's group runs on its contract; the new Consumer is neutral until READY. -/
def State.dwellEnd (s : State) (p : Port) (tm : Terms) : State :=
  if tm.prov then (((s.dwelt p tm).writeContract p tm tm.curr).setRole p tm).linkRun p
  else ((s.dwelt p tm).writeContract p {} 0).setRole p tm

theorem exec_swapDwellEnd {s : State} {p : Port} {tm : Terms} (hhere : s.linkHere = true) (hst : s.lState p = 7)
    (hdwell : (s.lp p).dwellDone = false) (hnext : (s.lp p).next = some tm) :
    exec (.swapDwellEnd p) s = .next (s.logDiff (s.dwellEnd p tm)) := by
  refine congrArg (fun t => Host.Outcome.next (s.logDiff t)) ?_
  dsimp only
  rw [if_pos (by simp [hhere, hst, hdwell]), hnext]
  rfl

theorem State.lp_dwellEnd (s : State) (p : Port) (tm : Terms) :
    (s.dwellEnd p tm).lp p = { s.lp p with dwellDone := true, timer := !tm.prov, ramp := none } := by
  unfold State.dwellEnd
  split <;> simp [State.dwelt]

theorem State.lState_dwellEnd (s : State) (p : Port) (tm : Terms) : (s.dwellEnd p tm).lState p = s.lState p := by
  unfold State.dwellEnd
  split <;> simp [State.dwelt]

theorem State.dwellEnd_free (s : State) (p : Port) {tm : Terms} (h : tm.prov = true) :
    bit ((s.dwellEnd p tm).g p.group).stops 6 = false := by
  rw [State.dwellEnd, if_pos h]
  exact State.linkRun_free _ _

/-! ### An answer that does not come (R326) -/

/-- A message given up: reported, and awaited no more. -/
def State.givenUp (s : State) (p : Port) (m : List Byte) : State :=
  ((s.answered p).raise (linkSrc p) 2 (byteAt m 0)).modL p fun l => { l with leaving := false }

theorem State.lp_givenUp (s : State) (p : Port) (m : List Byte) :
    (s.givenUp p m).lp p = { s.lp p with await_ := none, again := false, leaving := false } := by
  simp [State.givenUp]

theorem State.lState_givenUp (s : State) (p : Port) (m : List Byte) : (s.givenUp p m).lState p = s.lState p := by
  simp [State.givenUp]

theorem State.noResponse_repeats {s : State} {p : Port} {m : List Byte} (hawait : (s.lp p).await_ = some m) (hagain : (s.lp p).again = false) :
    s.noResponse p = (s.modL p fun l => { l with again := true }).sendPay p m := by
  simp [State.noResponse, hawait, hagain]

theorem State.noResponse_givesUp {s : State} {p : Port} {m : List Byte} (hawait : (s.lp p).await_ = some m) (hagain : (s.lp p).again = true) :
    s.noResponse p = if s.inContract p then (s.givenUp p m).sendHard p 6
      else if s.lState p = 4 ∨ s.lState p = 9 then (s.givenUp p m).toNeutral p else s.givenUp p m := by
  have hin : (s.givenUp p m).inContract p = s.inContract p := by rw [State.inContract, State.lState_givenUp, State.inContract]
  rw [← hin, ← s.lState_givenUp p m, State.noResponse, hawait]
  dsimp only
  rw [hagain]
  rfl

theorem exec_noResponse {s : State} {p : Port} (hhere : s.linkHere = true) : exec (.noResponse p) s = .next (s.logDiff (s.noResponse p)) :=
  congrArg (fun t => Host.Outcome.next (s.logDiff t)) (if_pos hhere)

theorem State.noResponse_settles {s : State} {p : Port} {m : List Byte} (hawait : (s.lp p).await_ = some m) (hagain : (s.lp p).again = true) :
    ((s.noResponse p).lp p).await_ = none ∧ ((s.noResponse p).lp p).leaving = false := by
  rw [State.noResponse_givesUp hawait hagain]
  split_ifs
  · simp [LinkPort.void]
  · simp [LinkPort.void]
  · simp [State.lp_givenUp]

/-- A contract ends with a HARD_RESET, an offer or a ramp in NEUTRAL or BLOCKED. -/
theorem State.noResponse_lState {s : State} {p : Port} {m : List Byte} (hawait : (s.lp p).await_ = some m) (hagain : (s.lp p).again = true) :
    (s.inContract p = true → (s.noResponse p).lState p = 8) ∧
      (s.lState p = 4 ∨ s.lState p = 9 → (s.noResponse p).lState p = if s.moist p = 2 then 10 else 3) := by
  rw [State.noResponse_givesUp hawait hagain]
  constructor
  · intro hin
    rw [if_pos hin, State.lState_sendHard]
  · intro hst
    have hout : ¬ s.inContract p = true := by rcases hst with hst | hst <;> simp [State.inContract, hst]
    have hmoist : (s.givenUp p m).moist p = s.moist p := State.moist_congr (by rw [State.lp_givenUp]) (by rw [State.lp_givenUp])
    rw [if_neg hout, if_pos hst, State.lState_toNeutral, hmoist]

/-! ### HARD_RESET on a fault of the link (R323, R335) -/

/-- A transition that takes too long, or a voltage off its contract: reported, then HARD_RESET. -/
theorem exec_linkFault {s : State} {p : Port} {c : Instr} (hhere : s.linkHere = true)
    (hc : (c = .transitionTimeout p ∧ (s.lp p).timer = true ∧ (s.lState p = 5 ∨ s.lState p = 7)) ∨
      (∃ v, c = .contractVoltage p v ∧ s.lState p = 6 ∧ (v < 450 * (s.lp p).now.volt ∨ 550 * (s.lp p).now.volt < v))) :
    ∃ kind inst reason, exec c s = .next (s.logDiff ((s.raise (linkSrc p) kind inst).sendHard p reason)) := by
  rcases hc with ⟨rfl, htimer, hst⟩ | ⟨v, rfl, hst, hband⟩
  · exact ⟨3, _, 7, congrArg (fun t => Host.Outcome.next (s.logDiff t)) (if_pos (by simp [hhere, htimer, hst]))⟩
  · exact ⟨4, _, 8, congrArg (fun t => Host.Outcome.next (s.logDiff t)) (if_pos (by simp [hhere, hst, hband]))⟩

theorem State.linkFault_parts (s : State) (p : Port) (kind inst reason : Nat) :
    Fr 0xd00920f0 s (s.logDiff ((s.raise (linkSrc p) kind inst).sendHard p reason)) :=
  State.logDiff_parts _ rfl (State.sendHard_parts _ _ rfl (State.raise_parts _ _ _ rfl (Fr.refl _ s)))

/-! ### Ends of contracts (R312, R330, R338) -/

theorem exec_dataLost {s : State} {p : Port} (hhere : s.linkHere = true) (hin : s.inContract p = true) :
    exec (.dataLost p) s = .next ((s.raise (linkSrc p) 0x0C (s.lState p)).toRamp p) :=
  congrArg Host.Outcome.next (if_pos (by simp [hhere, hin]))

theorem exec_linkEnd {s : State} {p : Port} {c : Instr} (hhere : s.linkHere = true)
    (hc : (c = .linkDischargeDone p ∧ s.lState p = 8) ∨ (c = .rampDownComplete p ∧ s.lState p = 9)) :
    exec c s = .next (s.logDiff (s.toNeutral p)) := by
  rcases hc with ⟨rfl, hst⟩ | ⟨rfl, hst⟩
  · exact congrArg (fun t => Host.Outcome.next (s.logDiff t)) (if_pos (by simp [hhere, hst]))
  · exact congrArg (fun t => Host.Outcome.next (s.logDiff t)) (if_pos (by simp [hhere, hst]))

theorem exec_dischargeFail {s : State} {p : Port} {v : Nat} (hhere : s.linkHere = true) (hst : s.lState p = 8) (hv : 5000 ≤ v) :
    exec (.dischargeFail p v) s = .next (s.raise (linkSrc p) 7 (decivolts v)) :=
  congrArg Host.Outcome.next (if_pos (by simp [hhere, hst, hv]))

/-- A message with room in its source's queue joins the bus. -/
theorem State.raise_sent {s : State} {src : Nat} (kind : Nat) {inst : Nat} (hi : inst < 65536)
    (hroom : (s.col.bus.filter fun m => m.src == src).length < 4) :
    (s.raise src kind inst).col.bus = s.col.bus ++ [{ src := src, kind := kind, inst := inst }] := by
  rw [State.raise, State.send, if_pos hroom, Nat.mod_eq_of_lt hi]

theorem decivolts_lt (v : Nat) : decivolts v < 65536 := by
  rw [decivolts]
  omega

/-- Settles O39: each command is one action of the port before its events are recorded. -/
theorem linkTimersAndEnds : Obligations.LinkTimersAndEnds := by
  refine ⟨?ready, ?dwell, ?silent, ?fault, ?dataLost, ?ended, ?discharge⟩
  case ready =>
    intro p vlink tm s hhere hnext hprov hband hst
    have hexec := exec_sendReady (p := p) vlink hhere
    rw [State.sendReady_enters hnext hprov hband hst] at hexec
    have hsent : ((s.sendMsg p 5 (leBytes 2 (vlink / 10) ++ leBytes 1 tm.volt) false).lp p).next = some tm := by
      simp [LinkPort.sends, hnext]
    refine ⟨_, hexec, ?_, ?_, ?_, ?_, (execSendReady_parts p vlink hexec).only (by decide)⟩
    · rw [State.lState_logDiff, State.lState_contractIn hsent]
    · rw [State.lp_logDiff, State.lp_contractIn hsent]
    · rw [State.lp_logDiff, State.lp_contractIn hsent]
    · rw [(s.logDiff_told _).g, State.contractIn_free hsent]
  case dwell =>
    intro p tm s hhere hst hdwell hnext
    have hexec := exec_swapDwellEnd hhere hst hdwell hnext
    refine ⟨_, hexec, ?_, ?_, ?_, fun hprov => ?_, (execSwapDwellEnd_parts p hexec).only (by decide)⟩
    · rw [State.lp_logDiff, State.lp_dwellEnd]
    · rw [State.lp_logDiff, State.lp_dwellEnd]
    · rw [State.lState_logDiff, State.lState_dwellEnd, hst]
    · rw [(s.logDiff_told _).g, State.dwellEnd_free _ _ hprov]
  case silent =>
    intro p m s hhere hawait
    have hexec := exec_noResponse (p := p) hhere
    have honly := (execNoResponse_parts p hexec).only (l := [.objs, .core, .grp, .ph, .col, .jrnl, .ring, .env, .link, .fab]) (by decide)
    refine ⟨fun hagain => ⟨_, hexec, honly, ?_⟩, fun hagain => ⟨_, hexec, honly, ?_⟩⟩
    · rw [State.lp_logDiff, State.noResponse_repeats hawait hagain, State.lp_sendPay, State.lp_modL]
    · rw [State.lp_logDiff, State.lState_logDiff]
      obtain ⟨hnone, hstays⟩ := State.noResponse_settles hawait hagain
      exact ⟨hnone, hstays, State.noResponse_lState hawait hagain⟩
  case fault =>
    intro p s c hhere hc
    obtain ⟨kind, inst, reason, hexec⟩ := exec_linkFault hhere hc
    exact ⟨_, hexec, by simp, by simp [LinkPort.void], by simp [LinkPort.void], by simp [LinkPort.void], by simp,
      (s.linkFault_parts p kind inst reason).only (by decide)⟩
  case dataLost =>
    intro p s hhere hin
    have hexec := exec_dataLost hhere hin
    exact ⟨_, hexec, by simp, by simp, fun hheld => State.toRamp_broken ((State.contractHeld_congr (by simp) (by simp)).trans hheld),
      (execDataLost_parts p hexec).only (by decide)⟩
  case ended =>
    intro p s c hhere hc
    refine ⟨_, exec_linkEnd hhere hc, by simp, by simp, by simp [LinkPort.void], ?_, ?_⟩
    · rw [(s.logDiff_told _).g, State.toNeutral_stopped]
    · exact (State.logDiff_parts (p := 0x500920f0) s rfl (State.toNeutral_parts p rfl (Fr.refl _ s))).only (by decide)
  case discharge =>
    intro p v s hhere hst hv
    exact ⟨_, exec_dischargeFail hhere hst hv, State.raise_sent 7 (decivolts_lt v),
      (State.raise_parts (p := 0x2010) _ _ _ rfl (Fr.refl _ s)).only (by decide), (s.raise_reports _ _ _).2⟩

end Sys2Proof.Machine
end

section
/-!
PROOFS. The link's policy and LINK_CTRL (O40).
-/
namespace Sys2Proof.Machine

/-! ### OFFER (R343, R344) -/

/-- The body of an OFFER. -/
def State.offerBody (s : State) (p : Port) (o : Nat × Nat × Nat × Nat) : List Byte :=
  leBytes 1 o.1 ++ leBytes 1 o.2.1 ++ leBytes 1 o.2.2.1 ++ leBytes 1 o.2.2.2 ++ leBytes 2 (o.2.1 * o.2.2.1 / 8) ++ leBytes 1 (b2n (s.swapEn p))

/-- An OFFER out of NEUTRAL. -/
def State.offered (s : State) (p : Port) (o : Nat × Nat × Nat × Nat) : State :=
  ((s.sendMsg p 1 (s.offerBody p o) true).modL p fun l => { l with offer := some (s.offerBody p o) }).setLink p 4

theorem State.sendOffer_offers {s : State} {p : Port} {o : Nat × Nat × Nat × Nat} (hst : s.lState p = 3) (hfree : s.linkFree = true)
    (hnet : (s.lp p).net = false) (hrole : bit (s.linkAt p 0) 3 = true) (hen : s.provEn p = true)
    (hsoc : 5 * s.linkAt p 7 ≤ s.obj Obj.PACK_SOC) (hoffer : s.offerOf p = some o) : s.sendOffer p = s.offered p o := by
  rw [State.sendOffer, if_pos (by simp [hst, hfree, hnet, hrole, hen, hsoc]), hoffer]
  rfl

theorem State.sendOffer_of_state {s : State} {p : Port} (h : s.lState p ≠ 3) : s.sendOffer p = s := if_neg (by simp [h])

theorem State.policyContract_of_state {s : State} {p : Port} (h : s.lState p ≠ 6) : s.policyContract p = s := if_neg (by simp [h])

theorem State.lState_offered (s : State) (p : Port) (o : Nat × Nat × Nat × Nat) : (s.offered p o).lState p = 4 := by
  simp [State.offered]

theorem State.awaiting_offered (s : State) (p : Port) (o : Nat × Nat × Nat × Nat) : (s.offered p o).awaiting p = 1 :=
  (State.awaiting_congr (by simp [State.offered])).trans (State.awaiting_sendMsg s p 1 (s.offerBody p o))

/-- In NEUTRAL the policy offers, and has no contract to judge. -/
theorem State.policy_offers {s : State} {p : Port} {o : Nat × Nat × Nat × Nat} (hst : s.lState p = 3) (hfree : s.linkFree = true)
    (hnet : (s.lp p).net = false) (hrole : bit (s.linkAt p 0) 3 = true) (hen : s.provEn p = true)
    (hsoc : 5 * s.linkAt p 7 ≤ s.obj Obj.PACK_SOC) (hoffer : s.offerOf p = some o) : (s.sendOffer p).policyContract p = s.offered p o := by
  rw [State.sendOffer_offers hst hfree hnet hrole hen hsoc hoffer, State.policyContract_of_state (by simp [State.lState_offered])]

/-! ### DETACH (R339, R344) -/

/-- A DETACH of the port's own awaits its answer. -/
structure Leaves (p : Port) (reason : Nat) (s : State) : Prop where
  awaiting : s.awaiting p = 9
  leaving : (s.lp p).leaving = true
  reason : byteAt ((s.lp p).await_.getD []) 4 = reason

theorem State.sendDetach_leaves (s : State) (p : Port) {reason : Nat} (h : reason < 256) : Leaves p reason (s.sendDetach p reason) where
  awaiting := (State.awaiting_congr (by simp [State.sendDetach])).trans (State.awaiting_sendMsg s p 9 (leBytes 1 reason))
  leaving := by simp [State.sendDetach]
  reason := by simp [State.sendDetach, LinkPort.sends, byteAt_payload_arg, Nat.mod_eq_of_lt h]

theorem Leaves.of_lp {p : Port} {reason : Nat} {s t : State} (h : Leaves p reason s) (hl : t.lp p = s.lp p) : Leaves p reason t :=
  ⟨(State.awaiting_congr (by rw [hl])).trans h.awaiting, by rw [hl, h.leaving], by rw [hl, h.reason]⟩

theorem State.lState_sendDetach (s : State) (p q : Port) (reason : Nat) : (s.sendDetach p reason).lState q = s.lState q := by
  simp [State.sendDetach]

/-- In CONTRACT the policy offers nothing. -/
theorem State.policy_of_contract {s : State} {p : Port} (hst : s.lState p = 6) : (s.sendOffer p).policyContract p = s.policyContract p := by
  rw [State.sendOffer_of_state (by simp [hst])]

theorem State.policyContract_provider {s : State} {p : Port} (hst : s.lState p = 6) (hfree : s.linkFree = true) (hawait : s.awaiting p = 0)
    (hprov : (s.lp p).now.prov = true) (hsoc : s.obj Obj.PACK_SOC + 50 < 5 * s.linkAt p 7) : s.policyContract p = s.sendDetach p 0x0C := by
  rw [State.policyContract, if_pos (by simp [hst, hfree, hawait]), hprov, if_pos rfl, if_pos hsoc]

theorem State.policyContract_consumer {s : State} {p : Port} (hst : s.lState p = 6) (hfree : s.linkFree = true) (hawait : s.awaiting p = 0)
    (hcons : (s.lp p).now.prov = false) (hsoc : 5 * s.linkAt p 8 ≤ s.obj Obj.PACK_SOC) : s.policyContract p = s.sendDetach p 1 := by
  rw [State.policyContract, if_pos (by simp [hst, hfree, hawait]), hcons, if_neg Bool.false_ne_true, if_pos hsoc]

theorem exec_reoffer {s : State} {p : Port} (hhere : s.linkHere = true) (hbuilt : s.builtIn p = true) :
    exec (.reoffer p) s = .next ((s.sendOffer p).policyContract p) :=
  congrArg Host.Outcome.next (if_pos (by simp [hhere, hbuilt]))

theorem exec_reoffer_of_table {s : State} {p : Port} (h : s.builtIn p = false) : exec (.reoffer p) s = .next s :=
  congrArg Host.Outcome.next (if_neg (by simp [h]))

/-! ### LINK_CTRL (R345) -/

theorem State.applyWrite_linkCtrl (s : State) (m : Master) (p : Port) (v : Nat) :
    s.applyWrite m (Obj.LINK_CTRL (p.num + 1)) (keptBits (Obj.LINK_CTRL (p.num + 1)) v) = s.linkCtrl p v := by
  cases p <;> rfl

/-- An accepted write of LINK_CTRL: what it does, then its answer. -/
def State.controlled (s : State) (m : Master) (p : Port) (v : Nat) : State :=
  (s.linkCtrl p v).answerWith m (Obj.LINK_CTRL (p.num + 1)) 0 []

theorem State.logged_linkCtrlWrite {s : State} {m : Master} {p : Port} {v : Nat} (hs : s.served m = true) (hv : v < 256)
    (hc : s.writeCode m (Obj.LINK_CTRL (p.num + 1)) (leBytes 1 v) = 0) :
    (s.logged fun s => s.linkCtrlWrite m p v) = s.logDiff (s.controlled m p v) := by
  refine (State.logged_write hs hc).trans ?_
  rw [State.wrote, Nat.mod_eq_of_lt hv, State.applyWrite_linkCtrl, State.controlled]

theorem State.controlled_code (s : State) (m : Master) (p : Port) (v : Nat) : (s.controlled m p v).srv.code = 0 := State.answerWith_code _ _ _ _ _

theorem State.lp_controlled (s : State) (m : Master) (p : Port) (v : Nat) (q : Port) : (s.controlled m p v).lp q = (s.linkCtrl p v).lp q :=
  State.lp_congr ((State.answerWith_parts (p := 0x800000010) _ _ _ _ rfl (Fr.refl _ _)).link rfl) q

theorem State.lState_controlled (s : State) (m : Master) (p : Port) (v : Nat) (q : Port) :
    (s.controlled m p v).lState q = (s.linkCtrl p v).lState q :=
  State.answerWith_good_objs _ _ _ _ _ (by cases q <;> decide)

theorem State.controlled_parts {a : Nat} {s : State} {p : Port} {v : Nat} (m : Master) (h : Fr a s (s.linkCtrl p v))
    (ha : 0x800000010 ||| a = a) : Fr a s (s.controlled m p v) := State.answerWith_parts _ _ _ _ ha h

/-- A message sent at the host's word leaves the core alone, and the recorder with it. -/
theorem State.logDiff_controlled {s : State} {p : Port} {v : Nat} (m : Master) (h : Fr 0x8c0002010 s (s.linkCtrl p v)) :
    s.logDiff (s.controlled m p v) = s.controlled m p v := by
  have hparts := State.controlled_parts m h rfl
  exact State.logDiff_of_same (hparts.core rfl) (hparts.grp rfl) (hparts.ph rfl) (hparts.strat rfl)

section
variable {s : State} {m : Master} {p : Port}

theorem exec_linkCtrlApplyPolicy (hs : s.served m = true) (hc : s.writeCode m (Obj.LINK_CTRL (p.num + 1)) (leBytes 1 4) = 0) :
    exec (.linkCtrlApplyPolicy m p) s = .next (s.controlled m p 4) := by
  have hparts : Fr 0x8c0002010 s (s.linkCtrl p 4) := State.policyContract_parts p rfl (State.sendOffer_parts p rfl (Fr.refl _ s))
  rw [← State.logDiff_controlled m hparts]
  exact congrArg Host.Outcome.next (State.logged_linkCtrlWrite hs (by decide) hc)

theorem exec_linkCtrlDetach (hs : s.served m = true) (hc : s.writeCode m (Obj.LINK_CTRL (p.num + 1)) (leBytes 1 1) = 0) :
    exec (.linkCtrlDetach m p) s = .next (s.controlled m p 1) := by
  rw [← State.logDiff_controlled m (State.sendDetach_parts p 0x0B rfl (Fr.refl _ s))]
  exact congrArg Host.Outcome.next (State.logged_linkCtrlWrite hs (by decide) hc)

theorem exec_linkCtrlSwapReq (hs : s.served m = true) (hc : s.writeCode m (Obj.LINK_CTRL (p.num + 1)) (leBytes 1 2) = 0) :
    exec (.linkCtrlSwapReq m p) s = .next (s.controlled m p 2) := by
  rw [← State.logDiff_controlled m (State.sendMsg_parts p 6 [] true rfl (Fr.refl _ s))]
  exact congrArg Host.Outcome.next (State.logged_linkCtrlWrite hs (by decide) hc)

theorem exec_linkCtrlHardReset (hs : s.served m = true) (hc : s.writeCode m (Obj.LINK_CTRL (p.num + 1)) (leBytes 1 3) = 0) :
    exec (.linkCtrlHardReset m p) s = .next (s.logDiff (s.controlled m p 3)) :=
  congrArg Host.Outcome.next (State.logged_linkCtrlWrite hs (by decide) hc)

end

/-- Settles O40: the policy is an OFFER out of NEUTRAL or a DETACH in CONTRACT; a write of LINK_CTRL is its message, then its answer. -/
theorem linkPolicyAndControl : Obligations.LinkPolicyAndControl := by
  refine ⟨?offer, ?provider, ?consumer, fun p s h => exec_reoffer_of_table h, ?control⟩
  case offer =>
    intro p o s hhere hbuilt hst hfree hnet hrole hen hsoc hoffer
    have hoffers := State.policy_offers hst hfree hnet hrole hen hsoc hoffer
    refine ⟨?_, fun m hs hc => ?_⟩
    · have hexec := exec_reoffer hhere hbuilt
      have honly := (execReoffer_parts p hexec).only (l := [.objs, .col, .link, .fab]) (by decide)
      rw [hoffers] at hexec honly
      exact ⟨_, hexec, s.lState_offered p o, s.awaiting_offered p o, by simp [State.offered], honly⟩
    · have hctrl : s.linkCtrl p 4 = s.offered p o := hoffers
      have hparts : Fr 0x8c0002010 s (s.linkCtrl p 4) := State.policyContract_parts p rfl (State.sendOffer_parts p rfl (Fr.refl _ s))
      refine ⟨_, exec_linkCtrlApplyPolicy hs hc, s.controlled_code m p 4, ?_, ?_, (State.controlled_parts m hparts rfl).only (by decide)⟩
      · rw [State.lState_controlled, hctrl, State.lState_offered]
      · exact (State.awaiting_congr (by rw [State.lp_controlled, hctrl])).trans (s.awaiting_offered p o)
  case provider =>
    intro p s hhere hbuilt hst hfree hawait hprov hsoc
    have hexec := exec_reoffer hhere hbuilt
    rw [State.policy_of_contract hst, State.policyContract_provider hst hfree hawait hprov hsoc] at hexec
    obtain ⟨hnine, hleaves, hreason⟩ := s.sendDetach_leaves p (reason := 0x0C) (by decide)
    exact ⟨_, hexec, hnine, hleaves, hreason, (execReoffer_parts p hexec).only (by decide)⟩
  case consumer =>
    intro p s hhere hbuilt hst hfree hawait hcons hsoc
    have hexec := exec_reoffer hhere hbuilt
    rw [State.policy_of_contract hst, State.policyContract_consumer hst hfree hawait hcons hsoc] at hexec
    obtain ⟨hnine, hleaves, hreason⟩ := s.sendDetach_leaves p (reason := 1) (by decide)
    exact ⟨_, hexec, hnine, hleaves, hreason, (execReoffer_parts p hexec).only (by decide)⟩
  case control =>
    intro m p s hs
    refine ⟨fun hc => ?_, fun hc => ?_, fun hc => ?_⟩
    · obtain ⟨hnine, hleaves, hreason⟩ := (s.sendDetach_leaves p (reason := 0x0B) (by decide)).of_lp (s.lp_controlled m p 1 p)
      refine ⟨_, exec_linkCtrlDetach hs hc, s.controlled_code m p 1, hnine, hleaves, hreason, ?_,
        (State.controlled_parts (a := 0x8c0002010) m (State.sendDetach_parts p 0x0B rfl (Fr.refl _ s)) rfl).only (by decide)⟩
      exact (s.lState_controlled m p 1 p).trans (s.lState_sendDetach p p 0x0B)
    · have hctrl : s.linkCtrl p 2 = s.sendMsg p 6 [] true := rfl
      refine ⟨_, exec_linkCtrlSwapReq hs hc, s.controlled_code m p 2, ?_, ?_,
        (State.controlled_parts (a := 0x8c0002010) m (State.sendMsg_parts p 6 [] true rfl (Fr.refl _ s)) rfl).only (by decide)⟩
      · exact (State.awaiting_congr (by rw [State.lp_controlled, hctrl])).trans (s.awaiting_sendMsg p 6 [])
      · exact (s.lState_controlled m p 2 p).trans (s.lState_sendMsg p p 6 [] true)
    · have hctrl : s.linkCtrl p 3 = s.sendHard p 0x0B := rfl
      refine ⟨_, exec_linkCtrlHardReset hs hc, ?_, ?_, ?_, ?_, ?_⟩
      · exact (State.logDiff_parts (p := 0x8d00920f0) s rfl (State.controlled_parts m (State.sendHard_parts p 0x0B rfl (Fr.refl _ s))
          rfl)).only (by decide)
      · rw [(s.logDiff_frame _).srv rfl, State.controlled_code]
      · rw [State.lState_logDiff, State.lState_controlled, hctrl, State.lState_sendHard]
      · rw [State.lp_logDiff, State.lp_controlled, hctrl, State.lp_sendHard, LinkPort.void]
      · rw [State.lp_logDiff, State.lp_controlled, hctrl, State.lp_sendHard]

end Sys2Proof.Machine
end

section
/-!
PROOFS. Mating and connector health of the link (O37).
-/
namespace Sys2Proof.Machine

/-! ### Mating (R308, R309, R312) -/

/-- A port that is not OFF has its pilot. -/
theorem State.pilot_isSome {s : State} {p : Port} (hv : s.variant = .A) (hst : s.lState p ≠ 0) : (s.pilot p).isSome = true := by
  simp [State.pilot, hv, hst]

/-- The core's part of a mating. -/
def State.matedNoted (s : State) (p : Port) : State :=
  (s.modL p fun l => { l with mated := true, heard := false, burstOk := false }).ev 6 (10 + p.num) 0

/-- The shell's part: the port is sensed at Z. -/
def State.matedSensed (s : State) (p : Port) : State := if s.shellUp && s.lState p == 1 then (s.linkZ p).setLink p 2 else s

theorem State.matedNoted_parts (s : State) (p : Port) : Fr 0x40080000 s (s.matedNoted p) :=
  State.ev_parts _ _ _ rfl (State.modL_parts p _ rfl (Fr.refl _ s))

theorem State.lp_matedNoted (s : State) (p : Port) :
    (s.matedNoted p).lp p = { s.lp p with mated := true, heard := false, burstOk := false } := by
  rw [State.matedNoted, State.lp_congr ((State.ev_parts (p := 0x80000) _ _ _ rfl (Fr.refl _ _)).link rfl), State.lp_modL]

theorem State.lState_matedNoted (s : State) (p : Port) : (s.matedNoted p).lState p = s.lState p :=
  State.obj_congr ((s.matedNoted_parts p).objs rfl) _

theorem State.shellUp_matedNoted (s : State) (p : Port) : (s.matedNoted p).shellUp = s.shellUp :=
  State.shellUp_of_parts (s.matedNoted_parts p) rfl rfl

theorem State.g_setLink (s : State) (p : Port) (n : Nat) (x : Group) : (s.setLink p n).g x = s.g x := rfl

theorem State.lp_matedSensed (s : State) (p : Port) : (s.matedSensed p).lp p = s.lp p := by
  unfold State.matedSensed
  split
  · rw [State.lp_setLink, State.lp_linkZ]
  · rfl

theorem State.matedSensed_up {s : State} {p : Port} (hup : s.shellUp = true) (hst : s.lState p = 1) :
    s.matedSensed p = (s.linkZ p).setLink p 2 := if_pos (by simp [hup, hst])

theorem State.matedSensed_down {s : State} {p : Port} (h : s.shellUp = false ∨ s.lState p ≠ 1) : s.matedSensed p = s :=
  if_neg (by rcases h with h | h <;> simp [h])

theorem exec_portMated {s : State} {p : Port} (hv : s.variant = .A) (hst : s.lState p ≠ 0) (hopen : (s.lp p).mated = false) :
    exec (.portMated p) s = .next (s.logDiff ((s.matedNoted p).matedSensed p)) :=
  congrArg (fun t => Host.Outcome.next (s.logDiff t)) (if_pos (by simp [State.pilot_isSome hv hst, hopen]))

theorem exec_linkSideDischarge {s : State} {p : Port} (hhere : s.linkHere = true) (hst : s.lState p = 1) (hopen : (s.lp p).mated = false) :
    exec (.linkSideDischarge p) s = .next (s.logDiff ((s.modL p fun l => { l with discharge := 1 }).linkRun p)) :=
  congrArg (fun t => Host.Outcome.next (s.logDiff t)) (if_pos (by simp [hhere, hst, hopen]))

/-! ### The far pilot (R311) -/

theorem State.peerBit_told (s : State) (p : Port) (on : Bool) : bit ((s.peerBit p on).obj (Obj.LINK_PEER (p.num + 1))) 7 = on := by
  rw [State.peerBit, State.obj_set_same, bit_setBit_same]

theorem State.lState_peerBit (s : State) (p q : Port) (on : Bool) : (s.peerBit p on).lState q = s.lState q :=
  State.obj_set_other _ _ (by cases p <;> cases q <;> decide)

theorem State.lp_peerBit (s : State) (p q : Port) (on : Bool) : (s.peerBit p on).lp q = s.lp q := rfl

/-- The far pilot is there. -/
def State.farNoted (s : State) (p : Port) : State := (s.modL p fun l => { l with far := true }).peerBit p true

theorem State.lp_farNoted (s : State) (p : Port) : (s.farNoted p).lp p = { s.lp p with far := true } := by
  rw [State.farNoted, State.lp_peerBit, State.lp_modL]

theorem State.lState_farNoted (s : State) (p : Port) : (s.farNoted p).lState p = s.lState p := by
  rw [State.farNoted, State.lState_peerBit, State.lState_modL]

theorem State.farNoted_peer (s : State) (p : Port) : bit ((s.farNoted p).obj (Obj.LINK_PEER (p.num + 1))) 7 = true :=
  State.peerBit_told _ p true

theorem State.voidContract_peer (s : State) (p : Port) :
    (s.voidContract p).obj (Obj.LINK_PEER (p.num + 1)) = s.obj (Obj.LINK_PEER (p.num + 1)) := by
  have hword := (State.writeContract_aside (s.modL p LinkPort.void) p {} 0).objs (Obj.LINK_PEER (p.num + 1)) (by cases p <;> decide)
  exact ((State.obj_set_other _ _ (by cases p <;> decide)).trans (State.obj_set_other _ _ (by cases p <;> decide))).trans hword

/-- What SENSED turns into leaves LINK_PEER. -/
theorem State.toNeutral_peer (s : State) (p : Port) : (s.toNeutral p).obj (Obj.LINK_PEER (p.num + 1)) = s.obj (Obj.LINK_PEER (p.num + 1)) := by
  have haside : Obj.LINK_PEER (p.num + 1) ∉ asideObjs := by cases p <;> decide
  unfold State.toNeutral
  dsimp only
  rw [(State.endLoss_aside _ _).objs _ haside, (State.ordering_aside _).objs _ haside, State.setLink,
    State.obj_set_other _ _ (by cases p <;> decide), (State.linkZ_aside _ p).objs _ haside, State.obj_modL, s.voidContract_peer]

/-- A port with all that SENSED waits for turns NEUTRAL. -/
theorem State.lState_sensedStep {s : State} {p : Port} (hst : s.lState p = 2) (hfar : (s.lp p).far = true) (hnet : (s.lp p).net = false)
    (hburst : (s.lp p).burstOk = true) (hheard : (s.lp p).heard = true) (hmoist : s.moist p ≠ 2) : (s.sensedStep p).lState p = 3 := by
  rw [State.sensedStep, if_pos (by simp [hst, hfar, hnet, hburst, hheard, hmoist]), State.lState_toNeutral, if_neg hmoist]

/-- What the shell makes of it. -/
def State.farSensed (s : State) (p : Port) : State := if s.shellUp then s.sensedStep p else s

/-- The far pilot seen, and told in LINK_PEER, whatever SENSED turns into. -/
theorem State.farSensed_far {s : State} {p : Port} (hfar : (s.lp p).far = true) (hpeer : bit (s.obj (Obj.LINK_PEER (p.num + 1))) 7 = true) :
    ((s.farSensed p).lp p).far = true ∧ bit ((s.farSensed p).obj (Obj.LINK_PEER (p.num + 1))) 7 = true := by
  unfold State.farSensed State.sensedStep
  dsimp only
  split_ifs
  · exact ⟨by rw [State.lp_toNeutral, LinkPort.void, hfar], by rw [s.toNeutral_peer, hpeer]⟩
  · exact ⟨hfar, hpeer⟩
  · exact ⟨hfar, hpeer⟩

theorem exec_farPilotPresent {s : State} {p : Port} (hv : s.variant = .A) (hst : s.lState p ≠ 0) (hmated : (s.lp p).mated = true) :
    exec (.farPilotPresent p) s = .next (s.logDiff ((s.farNoted p).farSensed p)) :=
  congrArg (fun t => Host.Outcome.next (s.logDiff t)) (if_pos (by simp [State.pilot_isSome hv hst, hmated]))

/-- The core raises an event on the fault bus or, the shell absent, into its own queue. -/
theorem State.coreRaise_objs (s : State) (src kind inst : Nat) : s.SameObjs [Obj.FAULT_LOST] (s.coreRaise src kind inst) :=
  .ite (fun k _ => State.obj_congr ((State.enqueue_parts (p := 0x20) _ rfl (Fr.refl _ s)).objs rfl) k) (send_reports s _).2

theorem State.lp_coreRaise (s : State) (src kind inst : Nat) (q : Port) : (s.coreRaise src kind inst).lp q = s.lp q :=
  State.lp_congr ((State.coreRaise_parts (p := 0x2030) src kind inst rfl (Fr.refl _ s)).link rfl) q

/-- The far pilot is gone. -/
def State.farLost (s : State) (p : Port) : State := (s.modL p fun l => { l with far := false }).peerBit p false

theorem State.lp_farLost (s : State) (p : Port) : (s.farLost p).lp p = { s.lp p with far := false } := by
  rw [State.farLost, State.lp_peerBit, State.lp_modL]

theorem State.farLost_objs (s : State) (p : Port) : s.SameObjs [Obj.LINK_PEER (p.num + 1)] (s.farLost p) :=
  State.set_sameObjs (s.modL p _) _ (.head _)

theorem State.farLost_peer (s : State) (p : Port) :
    (s.farLost p).obj (Obj.LINK_PEER (p.num + 1)) = setBit (s.obj (Obj.LINK_PEER (p.num + 1))) 7 false := State.obj_set_same _ _ _

theorem exec_peerSilent {s : State} {p : Port} (hv : s.variant = .A) (hst : s.lState p ≠ 0) (hmated : (s.lp p).mated = true) :
    exec (.peerSilent p) s = .next ((s.farLost p).coreRaise (linkSrc p) 0x0B 0) :=
  congrArg Host.Outcome.next (if_pos (by simp [State.pilot_isSome hv hst, hmated]))

/-! ### The port opens (R309, R331) -/

/-- Nothing is mated, no far pilot is there. -/
def Unmated (p : Port) (s : State) : Prop := (s.lp p).mated = false ∧ (s.lp p).far = false

theorem Unmated.of_link {p : Port} {s t : State} (h : Unmated p s) (hl : t.link = s.link) : Unmated p t := by
  rwa [Unmated, State.lp_congr hl]

theorem State.lp_voidContract_other (s : State) {p q : Port} (h : q ≠ p) : (s.voidContract p).lp q = s.lp q := by
  simp [State.voidContract, State.lp_modL_other _ _ h]

theorem Unmated.toOff {p : Port} {s : State} (h : Unmated p s) (q : Port) : Unmated p (s.toOff q) := by
  by_cases hq : p = q
  · subst hq
    simp [Unmated, State.toOff, LinkPort.void]
  · simpa [Unmated, State.toOff, State.lp_voidContract_other _ hq, State.lp_modL_other _ _ hq] using h

theorem Unmated.linksOff {p : Port} {s : State} (h : Unmated p s) : Unmated p s.linksOff := by
  unfold State.linksOff
  split
  · exact (h.toOff .east).toOff .west
  · exact h

theorem State.shellCut_link (s : State) : s.shellCut.link = s.link := by
  have hcut : s.shellCut.link = s.mirror.coreOff.link := rfl
  rw [hcut, (State.coreOff_parts (p := 0x84f0) rfl (State.mirror_parts rfl (Fr.refl _ s))).link rfl]

theorem State.shellCleared_link (s : State) : s.shellCleared.link = s.link := by
  unfold State.shellCleared
  iterate 7 rw [State.set_link]

theorem State.busesOff_link (s : State) : s.busesOff.link = s.linksOff.link :=
  (State.measStop_parts (p := 0x1080042010) rfl (State.fabOff_parts rfl (State.canOff_parts _ rfl (State.canOff_parts _ rfl
    (Fr.refl _ s.linksOff))))).link rfl

theorem Unmated.shellOff {p : Port} {s : State} (h : Unmated p s) : Unmated p s.shellOff := by
  rw [State.shellOff_eq]
  exact ((h.of_link s.shellCut_link).linksOff.of_link (State.busesOff_link _)).of_link (State.shellCleared_link _)

theorem Unmated.enterStorage {p : Port} {s : State} (h : Unmated p s) (cause : Nat) : Unmated p (s.enterStorage cause) := by
  have hready : Fr 0x20204038f0 s (s.groupsOff.setMode 0 cause).dropRequests :=
    State.dropRequests_parts rfl (State.setMode_parts 0 cause rfl (State.groupsOff_parts rfl (Fr.refl _ s)))
  rw [State.enterStorage_eq]
  exact (h.of_link (hready.link rfl)).shellOff.of_link (State.set_link _ _ _)

/-- Not even Storage mates a port. -/
theorem Unmated.exhaustedNow {p : Port} {s : State} (h : Unmated p s) : Unmated p s.exhaustedNow := by
  have hcommit := State.commitNow_parts (p := 0x200092010) rfl (State.raise_parts 6 3 0 rfl (Fr.refl _ s))
  unfold State.exhaustedNow State.exhausted
  split
  · split
    · exact (h.of_link (hcommit.link rfl)).enterStorage 9
    · exact h
  · exact h

theorem State.toDetached_unmated (s : State) (p : Port) : Unmated p (s.toDetached p) := by
  simp [Unmated, State.toDetached, State.moistObj, LinkPort.void]

theorem State.lState_toDetached (s : State) (p : Port) : (s.toDetached p).lState p = 1 := by
  unfold State.toDetached
  dsimp only
  rw [State.lState, State.obj_set_other _ _ (by cases p <;> decide), State.moistObj, State.obj_set_other _ _ (by cases p <;> decide)]
  exact (State.lState_ordering _ p).trans (State.lState_setLink _ p 1)

/-- What the shell reports of a pulled cable. -/
def State.pullNoted (s : State) (p : Port) : State :=
  if 5 ≤ s.lState p && s.lState p ≤ 8 then (s.linkStat p 4).raise (linkSrc p) 1 (s.lState p) else s.linkStat p 4

theorem State.pullNoted_mk (s : State) (p : Port) : Mk s (s.pullNoted p) :=
  .ite (State.raise_mk _ _ _ (State.linkStat_mk p 4 (Mk.refl s))) (State.linkStat_mk p 4 (Mk.refl s))

theorem State.pulled_eq {s : State} {p : Port} (h : 2 ≤ s.lState p) : s.pulled p =
    if 5 ≤ s.lState p && s.lState p ≤ 9 then (((s.pullNoted p).toDetached p).sourceLoss 3).exhaustedNow
    else (s.pullNoted p).toDetached p := if_neg (by omega)

theorem Unmated.pulled {p : Port} {s : State} (h : Unmated p s) : Unmated p (s.pulled p) := by
  by_cases hst : 2 ≤ s.lState p
  · rw [State.pulled_eq hst]
    have hopen := (s.pullNoted p).toDetached_unmated p
    split
    · exact (hopen.of_link (State.sourceLoss_aside _ 3).link).exhaustedNow
    · exact hopen
  · rwa [State.pulled, if_pos (by omega)]

/-- A port pulled with the rail off is DETACHED, and a contract it held a broken promise. -/
theorem State.pulled_railOff {s : State} {p : Port} (hst : 2 ≤ s.lState p) (hrail : s.railMode = false) :
    (s.pulled p).lState p = 1 ∧ (5 ≤ s.lState p → s.lState p ≤ 9 → (s.pulled p).env.broken = true) := by
  have hmk : Mk s (((s.pullNoted p).toDetached p).sourceLoss 3) := State.sourceLoss_mk _ (State.toDetached_mk p (s.pullNoted_mk p))
  have hparts : Fr 0x500920f0 s (((s.pullNoted p).toDetached p).sourceLoss 3) :=
    State.sourceLoss_parts 3 rfl (State.toDetached_parts p rfl
      (.ite (State.raise_parts _ _ _ rfl (State.linkStat_parts p 4 rfl (Fr.refl _ s))) (State.linkStat_parts p 4 rfl (Fr.refl _ s))))
  rw [State.pulled_eq hst, State.exhaustedNow_of_railOff ((State.railMode_congr hmk (hparts.aon rfl)).trans hrail)]
  split
  · exact ⟨((State.sourceLoss_aside _ 3).lState p).trans (State.lState_toDetached _ p), fun _ _ => State.sourceLoss_broken _ 3⟩
  · next hout => exact ⟨State.lState_toDetached _ p, fun hlo hhi => absurd (by simp [hlo, hhi]) hout⟩

/-- The core's part of an open port. -/
def State.openNoted (s : State) (p : Port) : State :=
  let t := ((s.modL p fun l => { l with mated := false, far := false, discharge := 0 }).linkZ p).ev 6 (10 + p.num) 1
  if s.recording then t.mark (10 + p.num) s.stamp else t

/-- The report and the mark touch the recorder alone. -/
theorem State.openNoted_frame (s : State) (p : Port) :
    Fr 0x80000 ((s.modL p fun l => { l with mated := false, far := false, discharge := 0 }).linkZ p) (s.openNoted p) :=
  .ite (State.mark_parts _ _ rfl (State.ev_parts _ _ _ rfl (Fr.refl _ _))) (State.ev_parts _ _ _ rfl (Fr.refl _ _))

theorem State.openNoted_parts (s : State) (p : Port) : Fr 0x400800c0 s (s.openNoted p) :=
  .ite (State.mark_parts _ _ rfl (State.ev_parts _ _ _ rfl (State.linkZ_parts p rfl (State.modL_parts p _ rfl (Fr.refl _ s)))))
    (State.ev_parts _ _ _ rfl (State.linkZ_parts p rfl (State.modL_parts p _ rfl (Fr.refl _ s))))

theorem State.openNoted_objs (s : State) (p : Port) : (s.openNoted p).objs = s.objs := (s.openNoted_parts p).objs rfl

theorem State.lState_openNoted (s : State) (p : Port) : (s.openNoted p).lState p = s.lState p := State.obj_congr (s.openNoted_objs p) _

theorem State.railMode_openNoted (s : State) (p : Port) : (s.openNoted p).railMode = s.railMode :=
  State.railMode_congr (fun k _ => State.obj_congr (s.openNoted_objs p) k) ((s.openNoted_parts p).aon rfl)

theorem State.openNoted_unmated (s : State) (p : Port) : Unmated p (s.openNoted p) :=
  Unmated.of_link (s := (s.modL p fun l => { l with mated := false, far := false, discharge := 0 }).linkZ p) (by simp [Unmated])
    ((s.openNoted_frame p).link rfl)

theorem State.openNoted_stopped (s : State) (p : Port) : bit ((s.openNoted p).g p.group).stops 6 = true := by
  rw [State.g_congr ((s.openNoted_frame p).grp rfl), State.linkZ_stopped]

theorem Unmated.opened {p : Port} {s : State} (h : Unmated p s) : Unmated p (s.modL p fun l => { l with opened := true }) := by
  rwa [Unmated, State.lp_modL]

theorem exec_portOpen {s : State} {p : Port} (hv : s.variant = .A) (hmated : (s.lp p).mated = true) :
    exec (.portOpen p) s = .next (s.logDiff (if (s.openNoted p).shellUp then (s.openNoted p).pulled p
      else (s.openNoted p).modL p fun l => { l with opened := true })) :=
  congrArg (fun t => Host.Outcome.next (s.logDiff t)) (if_pos (by simp [hv, hmated]))

/-! ### A burst (R313-R317) -/

/-- The link goes on: no object but the link's own is written, and no burst starts or ends at the port. -/
structure SparesBurst (p : Port) (s t : State) : Prop where
  objs : s.SameObjs linkObjs t
  burst : (t.lp p).burst = (s.lp p).burst

namespace SparesBurst

theorem refl (p : Port) (s : State) : SparesBurst p s s := ⟨.refl _ s, rfl⟩

theorem trans {p : Port} {s t u : State} (h : SparesBurst p s t) (k : SparesBurst p t u) : SparesBurst p s u :=
  ⟨h.objs.trans k.objs, k.burst.trans h.burst⟩

theorem ite {p : Port} {s a b : State} {c : Prop} [Decidable c] (ha : SparesBurst p s a) (hb : SparesBurst p s b) :
    SparesBurst p s (if c then a else b) := by
  split <;> assumption

theorem of_aside {p : Port} {s t : State} (h : Aside s t) : SparesBurst p s t := ⟨h.linkObjs, by rw [h.lp]⟩

end SparesBurst

theorem State.toNeutral_sparesBurst (s : State) (p : Port) : SparesBurst p s (s.toNeutral p) :=
  ⟨s.toNeutral_objs p, by simp [LinkPort.void]⟩

theorem State.setLink_sparesBurst (s : State) (p : Port) (n : Nat) : SparesBurst p s (s.setLink p n) := ⟨s.setLink_objs p n, rfl⟩

theorem State.sendHard_sparesBurst (s : State) (p : Port) (reason : Nat) : SparesBurst p s (s.sendHard p reason) :=
  ⟨s.sendHard_objs p reason, by simp [LinkPort.void, LinkPort.sends]⟩

theorem State.detachFree_sparesBurst (s : State) (p : Port) (reason : Nat) : SparesBurst p s (s.detachFree p reason) :=
  .ite (.refl p s) ⟨s.sendMsg_linkObjs p _ _ _, by simp [State.sendDetach, LinkPort.sends]⟩

theorem State.toRamp_sparesBurst (s : State) (p : Port) : SparesBurst p s (s.toRamp p) := ⟨s.toRamp_objs p, by simp⟩

theorem State.moistChange_sparesBurst (s : State) (p : Port) (detected : Bool) : SparesBurst p s (s.moistChange p detected) :=
  .trans (t := s.moistObj p) ⟨s.moistObj_objs p, rfl⟩ (.ite (State.sendHard_sparesBurst _ _ _) (.ite (State.setLink_sparesBurst _ _ _)
    (.ite (State.toNeutral_sparesBurst _ _) (.ite (State.setLink_sparesBurst _ _ _) (.ite (State.toNeutral_sparesBurst _ _) (.refl p _))))))

theorem State.moistReport_sparesBurst (s : State) (p : Port) (was g : Nat) : SparesBurst p s (s.moistReport p was g) :=
  have hclear (t : State) (kind : Nat) : SparesBurst p t (t.clearK (linkSrc p) kind) := .of_aside (.of_reports (clearK_reports t _ _))
  have hraise (t : State) (kind inst : Nat) : SparesBurst p t (t.raise1 (linkSrc p) kind inst) :=
    .of_aside (.of_reports (raise1_reports t _ _ _))
  .ite (.refl p s) ((SparesBurst.ite ((hraise s _ _).trans (.of_aside (State.linkStat_aside _ p (by decide)))) (hclear s _)).trans
    (.ite (hraise _ _ _) (hclear _ _)))

theorem State.senseNet_sparesBurst (s : State) (p : Port) (b : Nat) : SparesBurst p s (s.senseNet p b) := by
  have hnet (f : LinkPort → LinkPort) (h : (f (s.lp p)).burst = (s.lp p).burst) : SparesBurst p s (s.modL p f) :=
    ⟨.refl _ s, by rw [State.lp_modL, h]⟩
  unfold State.senseNet
  refine .ite ((hnet _ rfl).trans (.of_aside (.of_reports (clearK_reports _ _ _)))) (.trans (hnet _ rfl) (.ite ?_ (.refl p _)))
  refine .trans (.of_aside (.of_reports (raise1_reports _ _ _ _))) (.ite ?_ (.ite (State.toNeutral_sparesBurst _ _) (.refl p _)))
  exact (State.detachFree_sparesBurst _ p 1).trans (State.toRamp_sparesBurst _ p)

/-- The objects of a burst's result. -/
def State.leakNoted (s : State) (p : Port) (b leak : Nat) : State :=
  let s := (s.set (Obj.LINK_LEAK (p.num + 1)) (min 65535 leak)).set (Obj.LINK_SUSC (p.num + 1)) (min 65535 b)
  let k := Obj.LINK_LEAK_MAX (p.num + 1)
  if s.obj k < min 65535 leak then s.put k (min 65535 leak) else s

theorem State.leakNoted_told (s : State) (p : Port) (b leak : Nat) : (s.leakNoted p b leak).obj (Obj.LINK_SUSC (p.num + 1)) = min 65535 b ∧
    (s.leakNoted p b leak).obj (Obj.LINK_LEAK (p.num + 1)) = min 65535 leak := by
  have hmax (t : State) : t.SameObjs [Obj.LINK_LEAK_MAX (p.num + 1), Obj.OD_JOURNAL] (if t.obj (Obj.LINK_LEAK_MAX (p.num + 1)) < min 65535 leak
      then t.put (Obj.LINK_LEAK_MAX (p.num + 1)) (min 65535 leak) else t) := .ite (t.put_sameObjs _ (by simp) (by simp)) (.refl _ t)
  constructor
  · exact (hmax _ _ (by cases p <;> decide)).trans (State.obj_set_same _ _ _)
  · exact (hmax _ _ (by cases p <;> decide)).trans ((State.obj_set_other _ _ (by cases p <;> decide)).trans (State.obj_set_same _ _ _))

/-- The burst's result in the port's record and in Horizon. -/
def State.burstNoted (s : State) (p : Port) (b leak : Nat) : State :=
  let t := if (s.lp p).burst = 2 && (s.lp p).mated then (s.leakNoted p b leak).hzLeak p leak else s.leakNoted p b leak
  t.modL p fun l => { (l.moisten leak) with burstOk := l.burstOk || (l.burst == 2 && l.mated), burst := 0 }

theorem State.burstNoted_obj (s : State) (p : Port) (b leak k : Nat) : (s.burstNoted p b leak).obj k = (s.leakNoted p b leak).obj k := by
  unfold State.burstNoted
  dsimp only
  rw [State.obj_modL]
  split
  · exact State.obj_congr ((State.hzLeak_parts (p := 0x400000) p leak rfl (Fr.refl _ _)).objs rfl) k
  · rfl

theorem State.burst_burstNoted (s : State) (p : Port) (b leak : Nat) : ((s.burstNoted p b leak).lp p).burst = 0 := by
  rw [State.burstNoted, State.lp_modL]

/-- What a burst leads to once its result is noted. -/
theorem State.burstDone_spares (s : State) (p : Port) (b : Nat) (g : Int) :
    SparesBurst p (s.burstNoted p b (g - 40 * (if (s.lp p).mated then 2 else 1)).toNat) (s.burstDone p b g) :=
  ((State.moistReport_sparesBurst _ p (s.lp p).moist _).trans (State.senseNet_sparesBurst _ p b)).trans (State.moistChange_sparesBurst _ p true)

/-- A connector test of the port is done. -/
def State.tested (s : State) (p : Port) : State :=
  { s with uds := { s.uds with testDone := s.uds.testDone || s.uds.testPort == p.num + 1 } }

theorem State.obj_tested (s : State) (p : Port) (k : Nat) : (s.tested p).obj k = s.obj k := rfl
theorem State.lp_tested (s : State) (p q : Port) : (s.tested p).lp q = s.lp q := rfl

theorem exec_connectorBurst {s : State} {p : Port} (hhere : s.linkHere = true) (hst : s.lState p ≠ 0) (hbring : s.bringing = false)
    (hmode : s.inMode [2, 3, 4, 5] = true) :
    exec (.connectorBurst p false) s = .next (s.modL p fun l => { l with burst := if l.mated then 2 else 1 }) :=
  congrArg Host.Outcome.next (if_pos (by simp [hhere, hst, hbring, hmode]))

theorem exec_connectorBurstDone {s : State} {p : Port} {b : Nat} {g : Int} (hhere : s.linkHere = true) (hburst : (s.lp p).burst ≠ 0) :
    exec (.connectorBurstDone p b g) s = .next (s.logDiff ((s.burstDone p b g).tested p)) :=
  congrArg (fun t => Host.Outcome.next (s.logDiff t)) (if_pos (by simp [hhere, hburst]))

theorem State.burstDone_uds (s : State) (p : Port) (b : Nat) (g : Int) : (s.burstDone p b g).uds = s.uds :=
  (State.burstDone_parts (p := 0xd04120f0) p b g rfl (Fr.refl _ s)).uds rfl

/-- Settles O37: each command is the core's note of what it senses, then what the port's state makes of it. -/
theorem linkMating : Obligations.LinkMating := by
  refine ⟨?mated, ?opened, ?side, ?far, ?silent, ?burst, ?done⟩
  case mated =>
    intro p s hv hst hopen
    have hexec := exec_portMated hv hst hopen
    have hlp : ((s.logDiff ((s.matedNoted p).matedSensed p)).lp p) = { s.lp p with mated := true, heard := false, burstOk := false } := by
      rw [State.lp_logDiff, State.lp_matedSensed, State.lp_matedNoted]
    refine ⟨_, hexec, by rw [hlp], by rw [hlp], by rw [hlp], fun hup hone => ?_, fun h => ?_, (execPortMated_parts p hexec).only (by decide)⟩
    · rw [State.matedSensed_up (by rw [State.shellUp_matedNoted, hup]) (by rw [State.lState_matedNoted, hone])]
      refine ⟨by rw [State.lState_logDiff, State.lState_setLink], ?_⟩
      rw [(s.logDiff_told _).g, State.g_setLink, State.linkZ_stopped]
    · rw [State.matedSensed_down (by rwa [State.shellUp_matedNoted, State.lState_matedNoted])]
      exact (State.logDiff_parts s rfl (s.matedNoted_parts p)).only (by decide)
  case opened =>
    intro p s hv hmated
    have hexec := exec_portOpen hv hmated
    have hshell : (s.openNoted p).shellUp = s.shellUp := State.shellUp_of_parts (s.openNoted_parts p) rfl rfl
    have hopen := s.openNoted_unmated p
    refine ⟨_, hexec, (execPortOpen_parts p hexec).only (by decide), ?_⟩
    rw [← and_assoc]
    refine ⟨Unmated.of_link (s := _) ?_ (State.logDiff_aside _ _).link, fun hdown => ?_, fun hup hst hrail => ?_⟩
    · split
      · exact hopen.pulled
      · exact hopen.opened
    · rw [if_neg (by simp [hshell, hdown])]
      have htold := s.logDiff_told ((s.openNoted p).modL p fun l => { l with opened := true })
      have hstop : bit (((s.openNoted p).modL p fun l => { l with opened := true }).g p.group).stops 6 = true := s.openNoted_stopped p
      refine ⟨by simp, by rw [htold.g, hstop], fun n hn => State.pwm_of_stopped ?_⟩
      rw [htold.g, (State.mem_phasesOf hn).2]
      exact ne_zero_of_bit hstop
    · rw [if_pos (hshell.trans hup), State.lState_logDiff, (s.logDiff_frame _).env rfl]
      have hpulled := State.pulled_railOff (s := s.openNoted p) (p := p) (by rwa [s.lState_openNoted]) (by rwa [s.railMode_openNoted])
      rwa [s.lState_openNoted] at hpulled
  case side =>
    intro p s hhere hst hopen
    have hexec := exec_linkSideDischarge hhere hst hopen
    refine ⟨_, hexec, by simp, ?_, ?_, ?_⟩
    · rw [(s.logDiff_told _).g, State.linkRun_free]
    · exact (execLinkSideDischarge_parts p hexec).only (by decide)
    · exact fun k _ => (State.logDiff_obj _ _ k).trans rfl
  case far =>
    intro p s hv hst hmated
    have hexec := exec_farPilotPresent hv hst hmated
    have hshell : (s.farNoted p).shellUp = s.shellUp :=
      State.shellUp_of_parts (p := 0x40000010) (State.set_parts _ _ rfl (State.modL_parts p _ rfl (Fr.refl _ s))) rfl rfl
    have hlp := s.lp_farNoted p
    have hfar : ((s.farNoted p).lp p).far = true := by rw [hlp]
    obtain ⟨hseen, hpeer⟩ := State.farSensed_far hfar (s.farNoted_peer p)
    refine ⟨_, hexec, by rw [State.lp_logDiff, hseen], by rw [State.logDiff_obj, hpeer], fun hup htwo hnet hburst hheard hmoist => ?_,
      (execFarPilotPresent_parts p hexec).only (by decide)⟩
    rw [State.lState_logDiff, State.farSensed, if_pos (hshell.trans hup)]
    refine State.lState_sensedStep ((s.lState_farNoted p).trans htwo) hfar ?_ ?_ ?_ ?_
    · rw [hlp, hnet]
    · rw [hlp, hburst]
    · rw [hlp, hheard]
    · exact fun h => hmoist ((State.moist_congr (by rw [hlp]) (by rw [hlp])).symm.trans h)
  case silent =>
    intro p s hv hst hmated
    have hexec := exec_peerSilent hv hst hmated
    have hraise := (s.farLost p).coreRaise_objs (linkSrc p) 0x0B 0
    have hobjs : s.SameObjs [Obj.LINK_PEER (p.num + 1), Obj.FAULT_LOST] ((s.farLost p).coreRaise (linkSrc p) 0x0B 0) :=
      ((s.farLost_objs p).mono (by simp)).trans (hraise.mono (by simp))
    refine ⟨_, hexec, (State.lp_coreRaise _ _ _ _ p).trans (s.lp_farLost p), hobjs _ (by cases p <;> decide), ?_,
      (execPeerSilent_parts p hexec).only (by decide), hobjs⟩
    rw [hraise _ (by cases p <;> decide), s.farLost_peer]
  case burst => exact fun p s => exec_connectorBurst
  case done =>
    intro p b g s hhere hburst
    have hexec := exec_connectorBurstDone (b := b) (g := g) hhere hburst
    obtain ⟨hobjs, hzero⟩ := s.burstDone_spares p b g
    obtain ⟨hsusc, hleak⟩ := s.leakNoted_told p b (g - 40 * (if (s.lp p).mated then 2 else 1)).toNat
    refine ⟨_, hexec, ?_, ?_, ?_, ?_, (execConnectorBurstDone_parts p b g hexec).only (by decide)⟩
    · rw [State.lp_logDiff, State.lp_tested, hzero, State.burst_burstNoted]
    · rw [State.logDiff_obj, State.obj_tested, hobjs _ (by cases p <;> decide), State.burstNoted_obj, hsusc]
    · rw [State.logDiff_obj, State.obj_tested, hobjs _ (by cases p <;> decide), State.burstNoted_obj, hleak]
    · rw [(s.logDiff_frame _).uds rfl, State.tested, s.burstDone_uds]

end Sys2Proof.Machine
end

section
/-!
PROOFS. Frames that leave a fabric port: what sending leaves of the node and of its objects.
-/
namespace Sys2Proof.Machine

/-! ### Objects beside a frame -/

/-- Listed objects that are none of those that may change. -/
theorem State.SameObjs.spares {ks ls : List Nat} {s t : State} (h : s.SameObjs ks t) (hl : ∀ k ∈ ls, k ∉ ks) {k : Nat} (hk : k ∈ ls) :
    t.obj k = s.obj k := h k (hl k hk)

/-! ### A port's record -/

theorem State.ports_modFab (s : State) (p : Port) (f : FabPort → FabPort) : (s.modFab p f).fab.ports.get p = f (s.fab.ports.get p) :=
  Two.get_put_same _ _ _

theorem State.ports_modFab_other (s : State) {p q : Port} (f : FabPort → FabPort) (h : q ≠ p) :
    (s.modFab p f).fab.ports.get q = s.fab.ports.get q := Two.get_put_other _ _ h

/-- A field that an update of a port leaves stands on both ports. -/
theorem State.ports_modFab_field {α : Type} (F : FabPort → α) (s : State) (p q : Port) {f : FabPort → FabPort} (hf : ∀ x, F (f x) = F x) :
    F ((s.modFab p f).fab.ports.get q) = F (s.fab.ports.get q) := by
  by_cases h : q = p
  · rw [h, State.ports_modFab, hf]
  · rw [State.ports_modFab_other _ _ h]

/-! ### Frames queued (R360, R361, R373) -/

/-- The objects of a frame that finds no room in a port's queue. -/
def queueObjs : List Nat := [Obj.FAB_STATS 6, Obj.FAULT_LOST]

/-- Those of a routed frame, which may find no way. -/
def routeObjs : List Nat := Obj.FAB_STATS 5 :: queueObjs

/-- Those of a forwarded frame, whose hops may be over. -/
def hopObjs : List Nat := Obj.FAB_STATS 7 :: routeObjs

/-- `t` is `s` but for frames queued on the ports and the listed objects; in the fabric node nothing else moves. -/
structure Queues (ks : List Nat) (s t : State) : Prop where
  objs : s.SameObjs ks t
  fab : t.fab = { s.fab with ports := t.fab.ports }
  port : ∀ p, t.fab.ports.get p = { s.fab.ports.get p with queue := (t.fab.ports.get p).queue }

namespace Queues

theorem refl (ks : List Nat) (s : State) : Queues ks s s := ⟨.refl _ s, rfl, fun _ => rfl⟩

theorem trans {ks : List Nat} {s t u : State} (h : Queues ks s t) (k : Queues ks t u) : Queues ks s u := by
  refine ⟨h.objs.trans k.objs, ?_, fun p => ?_⟩
  · rw [k.fab, h.fab]
  · rw [k.port, h.port]

theorem mono {ks ls : List Nat} {s t : State} (h : Queues ks s t) (hl : ∀ k ∈ ks, k ∈ ls) : Queues ls s t := ⟨h.objs.mono hl, h.fab, h.port⟩

theorem ite {ks : List Nat} {s a b : State} {c : Prop} [Decidable c] (ha : Queues ks s a) (hb : Queues ks s b) :
    Queues ks s (if c then a else b) := by
  split <;> assumption

theorem of_fab {ks : List Nat} {s t : State} (h : s.SameObjs ks t) (hf : t.fab = s.fab) : Queues ks s t :=
  ⟨h, by rw [hf], fun p => by rw [hf]⟩

theorem of_reports {ks : List Nat} {s t : State} (h : s.Reports t) (hk : Obj.FAULT_LOST ∈ ks) : Queues ks s t :=
  .of_fab (h.2.mono (by simpa using hk)) ((h.parts (p := 0x82010) rfl).fab rfl)

end Queues

/-- A frame dropped: its counter and its report. -/
theorem State.dropped_queues (s : State) {ks : List Nat} {k : Nat} (src kind inst : Nat) (hk : k ∈ ks) (hl : Obj.FAULT_LOST ∈ ks) :
    Queues ks s ((s.tally k 0xFFFFFFFF).raise src kind inst) :=
  .trans (t := s.tally k 0xFFFFFFFF) (.of_fab (s.set_sameObjs _ hk) rfl) (.of_reports (State.raise_reports _ _ _ _) hl)

/-- A frame that a port's queue has room for. -/
theorem State.fabQueue_of_room {s : State} {p : Port} {prio : Nat} (f : Frame)
    (h : ((s.fab.ports.get p).queue.filter fun e => e.1 == prio).length < queueRoom prio) :
    s.fabQueue p prio f = s.modFab p fun x => { x with queue := x.queue ++ [(prio, f)] } := if_pos h

theorem State.fabQueue_queues (s : State) (p : Port) (prio : Nat) (f : Frame) : Queues queueObjs s (s.fabQueue p prio f) := by
  refine .ite ⟨.refl _ s, rfl, fun q => ?_⟩ (s.dropped_queues _ _ _ (by decide) (by decide))
  by_cases hq : q = p
  · rw [hq, State.ports_modFab]
  · rw [State.ports_modFab_other _ _ hq]

theorem State.fabOut_queues (s : State) (p : Port) (f : Frame) : Queues queueObjs s (s.fabOut p f) :=
  .ite (s.fabQueue_queues _ _ _) (.refl _ s)

theorem State.ports_fabQueue_other (s : State) {p q : Port} (prio : Nat) (f : Frame) (h : q ≠ p) :
    (s.fabQueue p prio f).fab.ports.get q = s.fab.ports.get q := by
  unfold State.fabQueue
  dsimp only
  split
  · exact State.ports_modFab_other _ _ h
  · rw [(State.raise_parts (p := 0x2010) _ _ _ rfl (Fr.refl _ (s.tally _ _))).fab rfl]
    rfl

/-- No frame joins the queue of a port that is not UP. -/
theorem State.ports_fabOut_of_down {s : State} {q : Port} (p : Port) (f : Frame) (h : s.portUp q = false) :
    (s.fabOut p f).fab.ports.get q = s.fab.ports.get q := by
  unfold State.fabOut
  split
  · next hup => exact s.ports_fabQueue_other _ _ fun e => by simp [e, hup] at h
  · rfl

theorem State.portUp_congr {s t : State} {p : Port} (h : t.obj (Obj.PORT_STATE (p.num + 1)) = s.obj (Obj.PORT_STATE (p.num + 1))) :
    t.portUp p = s.portUp p := by
  rw [State.portUp, State.portUp, h]

theorem Queues.portUp {s t : State} (h : Queues queueObjs s t) (p : Port) : t.portUp p = s.portUp p :=
  State.portUp_congr (h.objs _ (by cases p <;> decide))

theorem State.fabRoute_queues (s : State) (f : Frame) : Queues routeObjs s (s.fabRoute f) := by
  have hlost := s.dropped_queues (ks := routeObjs) (k := fabStat 5) 0x0E 0x0A f.node (by decide) (by decide)
  unfold State.fabRoute
  split
  · exact .ite ((s.fabOut_queues _ _).mono (by decide)) hlost
  · exact hlost

/-- A routed frame with a way and room on it. -/
theorem State.fabRoute_of_room {s : State} {f : Frame} {q : Port} {n : Nat} (hway : s.routeTo f.node = some (q, n)) (hup : s.portUp q = true)
    (hroom : ((s.fab.ports.get q).queue.filter fun e => e.1 == framePrio f.type).length < queueRoom (framePrio f.type)) :
    s.fabRoute f = s.modFab q fun x => { x with queue := x.queue ++ [(framePrio f.type, f)] } := by
  simp only [State.fabRoute, hway, State.fabOut, hup, if_true, State.fabQueue_of_room f hroom]

theorem State.hopsOk_queues {f : Frame} {k : Frame → State → State} (s : State) (hk : ∀ g, Queues hopObjs s (k g s)) :
    Queues hopObjs s (s.hopsOk f k) :=
  .ite (s.dropped_queues _ _ _ (by decide) (by decide)) (hk _)

theorem State.fabOnward_queues (s : State) (p : Port) (f : Frame) : Queues hopObjs s (s.fabOnward p f) :=
  .ite (.refl _ s) (.ite (.refl _ s) (.ite (.refl _ s) (s.hopsOk_queues fun _ => (s.fabOut_queues _ _).mono (by decide))))

/-! ### Frames of the node's own (R357) -/

/-- The next sequence number of the frame's destination. -/
theorem State.seqs_fabSeq (s : State) (f : Frame) :
    (s.fabSeq f).2.fab.seqs.read (fun _ => 0) f.node = (s.fab.seqs.read (fun _ => 0) f.node + 1) % 256 := Store.read_write_same _ _ _ _

theorem State.fabSend_queues (s : State) (f : Frame) : Queues routeObjs (s.fabSeq f).2 (s.fabSend f) := State.fabRoute_queues _ _

/-- A frame out of both ports, as far as they are UP. -/
theorem State.fabBoth_queues (s : State) (f : Frame) : Queues queueObjs s ((s.fabOut .east f).fabOut .west f) :=
  (s.fabOut_queues _ _).trans (State.fabOut_queues _ _ _)

theorem State.fabFlood_queues (s : State) (f : Frame) : Queues queueObjs (s.fabSeq f).2 (s.fabFlood f) := State.fabBoth_queues _ _

theorem State.fabBroadcast_queues {s : State} (f : Frame) (h : s.fabOn = true) : Queues queueObjs (s.fabSeq f).2 (s.fabBroadcast f) := by
  rw [State.fabBroadcast, if_neg (by simp [h])]
  exact .ite (State.fabOut_queues _ _ _) (State.fabBoth_queues _ _)

theorem State.ports_fabFlood_of_down {s : State} {q : Port} (f : Frame) (h : s.portUp q = false) :
    (s.fabFlood f).fab.ports.get q = s.fab.ports.get q := by
  have hup := ((s.fabSeq f).2.fabOut_queues .east (s.fabSeq f).1).portUp q
  exact (State.ports_fabOut_of_down .west _ (hup.trans h)).trans (State.ports_fabOut_of_down (s := (s.fabSeq f).2) .east _ h)

theorem State.fabOn_congr {s t : State} (hv : t.obj Obj.VARIANT = s.obj Obj.VARIANT)
    (hp : ∀ p : Port, t.obj (Obj.PORT_STATE (p.num + 1)) = s.obj (Obj.PORT_STATE (p.num + 1))) : t.fabOn = s.fabOn := by
  have heast : t.obj (Obj.PORT_STATE 1) = s.obj (Obj.PORT_STATE 1) := hp .east
  have hwest : t.obj (Obj.PORT_STATE 2) = s.obj (Obj.PORT_STATE 2) := hp .west
  rw [State.fabOn, State.fabOn, State.variant_congr hv, heast, hwest]

theorem Queues.fabOn {s t : State} (h : Queues queueObjs s t) : t.fabOn = s.fabOn :=
  State.fabOn_congr (h.objs _ (by decide)) fun p => h.objs _ (by cases p <;> decide)

/-- A frame of the node's own that no queue has room for is all that sending may leave in the objects. -/
theorem State.fabLocal_queues (s : State) (p : Port) (prio : Nat) (f : Frame) : Queues queueObjs (s.fabSeq f).2 (s.fabLocal p prio f) :=
  State.fabQueue_queues _ _ _ _

theorem State.fabLocal_queue_of_room {s : State} {p : Port} {prio : Nat} (f : Frame)
    (h : ((s.fab.ports.get p).queue.filter fun e => e.1 == prio).length < queueRoom prio) :
    ((s.fabLocal p prio f).fab.ports.get p).queue = (s.fab.ports.get p).queue ++ [(prio, (s.fabSeq f).1)] := by
  have hjoin : s.fabLocal p prio f = (s.fabSeq f).2.modFab p fun x => { x with queue := x.queue ++ [(prio, (s.fabSeq f).1)] } :=
    State.fabQueue_of_room (s := (s.fabSeq f).2) _ h
  rw [hjoin, State.ports_modFab]
  rfl

/-! ### The node's own TOPO record (R366) -/

/-- The next TOPO_SEQ and the sequence number of the frame that carries it. -/
def State.topoNumbered (s : State) : State :=
  if s.fabOn then
    (({ s with fab := { s.fab with topoSeq := (s.fab.topoSeq + 1) % 65536 } } : State).fabSeq
      { node := 0xFF, src := s.nodeId, type := 2, data := { s.ownRec with seq := (s.fab.topoSeq + 1) % 65536 }.bytes }).2
  else s

theorem State.topoSend_queues (s : State) : Queues queueObjs s.topoNumbered s.topoSend := by
  unfold State.topoSend State.topoNumbered
  cases s.fabOn
  · exact .refl _ s
  · exact State.fabFlood_queues _ _

theorem State.topoNumbered_objs (s : State) : s.topoNumbered.objs = s.objs := by
  unfold State.topoNumbered
  split <;> rfl

/-- The ports and the records stay. -/
theorem State.topoNumbered_fab (s : State) :
    s.topoNumbered.fab = { s.fab with topoSeq := s.topoNumbered.fab.topoSeq, seqs := s.topoNumbered.fab.seqs } := by
  unfold State.topoNumbered
  split <;> rfl

theorem State.topoSend_objs (s : State) : s.SameObjs queueObjs s.topoSend :=
  .trans (t := s.topoNumbered) (fun k _ => State.obj_congr s.topoNumbered_objs k) s.topoSend_queues.objs

theorem State.topoSend_fab (s : State) : s.topoSend.fab =
    { s.fab with ports := s.topoSend.fab.ports, topoSeq := s.topoSend.fab.topoSeq, seqs := s.topoSend.fab.seqs } := by
  rw [s.topoSend_queues.fab, s.topoNumbered_fab]

theorem State.topoSend_port (s : State) (p : Port) :
    s.topoSend.fab.ports.get p = { s.fab.ports.get p with queue := (s.topoSend.fab.ports.get p).queue } := by
  rw [s.topoSend_queues.port, s.topoNumbered_fab]

theorem State.ports_topoSend_of_down {s : State} {q : Port} (h : s.portUp q = false) :
    s.topoSend.fab.ports.get q = s.fab.ports.get q := by
  unfold State.topoSend
  split
  · rfl
  · exact State.ports_fabFlood_of_down _ h

end Sys2Proof.Machine
end

section
/-!
PROOFS. A frame heard on a fabric port, the map that routes are read from, and a port that changes its state.
-/
namespace Sys2Proof.Machine

/-! ### SENSED turns into NEUTRAL (R330) -/

/-- The objects of a port that turns NEUTRAL. -/
def neutralObjs : List Nat :=
  [Obj.LINK_STATE 1, Obj.LINK_STATE 2, Obj.LINK_ROLE 1, Obj.LINK_ROLE 2, Obj.LINK_TARGET 1, Obj.LINK_TARGET 2, Obj.RAIL_FLOOR,
    Obj.LINK_CEILING, Obj.ENV_STATS_BROKEN, Obj.OD_JOURNAL, Obj.FAULT_LOST]

theorem State.voidContract_neutral (s : State) (p : Port) : s.SameObjs neutralObjs (s.voidContract p) := by
  have hword : s.SameObjs neutralObjs ((s.modL p LinkPort.void).writeContract p {} 0) :=
    .trans (t := s.modL p LinkPort.void) (.refl _ s) ((State.portIfNew_silent _ _ _).objs.mono (by decide))
  exact (hword.trans (State.set_sameObjs _ _ (by cases p <;> decide))).trans (State.set_sameObjs _ _ (by cases p <;> decide))

theorem State.linkZ_objs (s : State) (p : Port) : (s.linkZ p).objs = s.objs :=
  (State.linkZ_parts (p := 0xc0) p rfl (Fr.refl _ s)).objs rfl

theorem State.toNeutral_neutral (s : State) (p : Port) : s.SameObjs neutralObjs (s.toNeutral p) := by
  have hfree (t : State) : t.SameObjs neutralObjs (t.linkZ p) := fun k _ => State.obj_congr (t.linkZ_objs p) k
  have hstate (t : State) (n : Nat) : t.SameObjs neutralObjs (t.setLink p n) := t.set_sameObjs _ (by cases p <;> decide)
  have horder (t : State) : t.SameObjs neutralObjs t.ordering := t.ordering_objs.mono (by decide)
  have hend (t : State) (held : Bool) : t.SameObjs neutralObjs (t.endLoss held) :=
    .ite ((t.sourceLoss_objs 4).mono (by decide)) (.refl _ t)
  exact ((((s.voidContract_neutral p).trans (hfree ((s.voidContract p).modL p _))).trans (hstate _ _)).trans (horder _)).trans (hend _ _)

/-! ### A good frame (R330, R358, R365) -/

/-- A good frame counted; a mated port has heard its peer. -/
def State.counted (s : State) (p : Port) : State := (s.fabTally 1).modL p fun l => { l with heard := l.heard || l.mated }

/-- A good frame taken: it may be what the port waits for in SENSED. -/
def State.taken (s : State) (p : Port) : State := if s.shellUp then (s.counted p).sensedStep p else s.counted p

/-- A port that is LOCKED or UP takes every frame, and a MISWIRED one a HELLO. -/
theorem State.fabTake_open {s : State} {p : Port} {type : Nat}
    (h : [2, 3].contains (s.obj (Obj.PORT_STATE (p.num + 1))) = true ∨ s.obj (Obj.PORT_STATE (p.num + 1)) = 4 ∧ type = 1) :
    s.fabTake p type = (true, s.taken p) := by
  have hstate : s.obj (Obj.PORT_STATE (p.num + 1)) = 2 ∨ s.obj (Obj.PORT_STATE (p.num + 1)) = 3 ∨
      s.obj (Obj.PORT_STATE (p.num + 1)) = 4 ∧ type = 1 := by
    simpa [or_assoc] using h
  unfold State.fabTake
  dsimp only
  rw [if_neg, if_pos]
  · rfl
  · rcases hstate with h | h | ⟨h, -⟩ <;> simp [h]
  · rcases hstate with h | h | ⟨h, ht⟩ <;> simp [*]

theorem State.counted_objs (s : State) (p : Port) : s.SameObjs [Obj.FAB_STATS 1] (s.counted p) :=
  s.set_sameObjs (k := fabStat 1) _ (.head _)

theorem State.counted_parts {a : Nat} {s x : State} (p : Port) (ha : 0x40000010 ||| a = a) (h : Fr a s x) : Fr a s (x.counted p) :=
  State.modL_parts p _ (Fr.up (by decide) ha) (State.fabTally_parts 1 (Fr.up (by decide) ha) h)

theorem State.taken_parts {a : Nat} {s x : State} (p : Port) (ha : 0x500120f0 ||| a = a) (h : Fr a s x) : Fr a s (x.taken p) :=
  have hcount : Fr a s (x.counted p) := State.counted_parts p (Fr.up (by decide) ha) h
  .ite (State.sensedStep_parts p (Fr.up (by decide) ha) hcount) hcount

theorem State.taken_objs (s : State) (p : Port) : s.SameObjs (Obj.FAB_STATS 1 :: neutralObjs) (s.taken p) := by
  have hcount := (s.counted_objs p).mono (ls := Obj.FAB_STATS 1 :: neutralObjs) (by decide)
  refine .ite (hcount.trans (.ite ?_ (.refl _ _))) hcount
  exact (State.toNeutral_neutral _ p).mono fun _ => List.mem_cons_of_mem _

/-- Hearing a frame touches the core, the link and the journal alone. -/
theorem State.taken_frame (s : State) (p : Port) : Fr 0x500120f0 s (s.taken p) := State.taken_parts p rfl (Fr.refl _ s)

@[simp] theorem State.taken_fab (s : State) (p : Port) : (s.taken p).fab = s.fab := (s.taken_frame p).fab rfl
@[simp] theorem State.taken_now (s : State) (p : Port) : (s.taken p).now = s.now := (s.taken_frame p).now rfl

/-- Outside SENSED a frame taken is one counted. -/
theorem State.taken_of_quiet {s : State} {p : Port} (h : s.lState p ≠ 2) : s.taken p = s.counted p := by
  have hstate : (s.counted p).lState p = s.lState p := s.counted_objs p _ (by cases p <;> decide)
  have hstep : (s.counted p).sensedStep p = s.counted p := if_neg (by simp [hstate, h])
  rw [State.taken, hstep, ite_self]

theorem State.taken_objs_of_quiet {s : State} {p : Port} (h : s.lState p ≠ 2) : s.SameObjs [Obj.FAB_STATS 1] (s.taken p) := by
  rw [State.taken_of_quiet h]
  exact s.counted_objs p

/-- Outside SENSED, what follows a frame heard adds the count and the port's record to its footprint. -/
theorem State.after_quiet {a : Nat} {s : State} {p : Port} (f : State → State) (h : s.lState p ≠ 2) (ha : 0x40000010 ||| a = a)
    (hf : ∀ x, Fr a s x → Fr a s (f x)) : Fr a s (f (s.taken p)) := by
  rw [State.taken_of_quiet h]
  exact hf _ (State.counted_parts p ha (Fr.refl _ s))

/-! ### A bad frame (R358, R393) -/

theorem State.fabBad_objs (s : State) (p : Port) : s.SameObjs [Obj.FAB_STATS (3 + p.num), Obj.FAULT_LOST] (s.fabBad p) := by
  have hcount : s.SameObjs [Obj.FAB_STATS (3 + p.num), Obj.FAULT_LOST] (s.fabTally (3 + p.num)) :=
    s.set_sameObjs (k := fabStat (3 + p.num)) _ (.head _)
  exact .ite (hcount.trans (.mono (State.raise_reports _ _ _ _).2 (by simp))) hcount

theorem State.fabBad_counted (s : State) (p : Port) :
    (s.fabBad p).obj (Obj.FAB_STATS (3 + p.num)) = satInc 0xFFFFFFFF (s.obj (Obj.FAB_STATS (3 + p.num))) := by
  unfold State.fabBad
  dsimp only
  split
  · rw [(State.raise_reports _ _ _ _).obj (by cases p <;> decide)]
    exact State.obj_set_same _ _ _
  · exact State.obj_set_same _ _ _

/-- A bad frame is noted with its time, which is all that moves on a port. -/
theorem State.fabBad_port {α : Type} (F : FabPort → α) (s : State) (p q : Port)
    (hF : ∀ (x : FabPort) (l : List Nat) (a : Option Nat), F { x with bad := l, badAt := a } = F x) :
    F ((s.fabBad p).fab.ports.get q) = F (s.fab.ports.get q) := by
  have hnote (f : FabPort → FabPort) (hf : ∀ x, F (f x) = F x) : F (((s.fabTally (3 + p.num)).modFab p f).fab.ports.get q) =
      F (s.fab.ports.get q) := State.ports_modFab_field F (s.fabTally (3 + p.num)) p q hf
  unfold State.fabBad
  dsimp only
  split
  · rw [(State.raise_parts (p := 0x2010) _ _ _ rfl (Fr.refl _ _)).fab rfl, hnote _ fun x => hF x _ _]
  · rw [hnote _ fun x => hF x _ _]

/-! ### The map that routes are read from (R366, R367, R373) -/

/-- The objects of the node's own TOPO record. -/
def recordObjs : List Nat :=
  [Obj.UNIQUE_ID, Obj.PORT_NBR 1, Obj.PORT_NBR 2, Obj.NODE_ID, Obj.ZENITH_EN, Obj.STRAPS, Obj.FAB_BOOT_SRV, Obj.ASSIGN_GEN]

/-- Both states hold the same records, the node's own included. -/
structure SameMap (s t : State) : Prop where
  recs : t.fab.recs = s.fab.recs
  own : t.ownRec = s.ownRec

namespace SameMap

variable {s t : State}

theorem of_objs (h : ∀ k ∈ recordObjs, t.obj k = s.obj k) (hr : t.fab.recs = s.fab.recs) (hs : t.fab.stored = s.fab.stored)
    (hq : t.fab.topoSeq = s.fab.topoSeq) : SameMap s t := by
  simp only [recordObjs, List.forall_mem_cons] at h
  obtain ⟨huid, heast, hwest, hnode, hen, hstraps, hsrv, hgen, -⟩ := h
  refine ⟨hr, ?_⟩
  simp only [State.ownRec, State.uid, State.nodeId, State.fabFlags, State.eligible, State.clkm, hs, hq, huid, heast, hwest, hnode, hen,
    hstraps, hsrv, hgen]

theorem of_fab (h : ∀ k ∈ recordObjs, t.obj k = s.obj k) (hf : t.fab = s.fab) : SameMap s t :=
  .of_objs h (by rw [hf]) (by rw [hf]) (by rw [hf])

theorem uid (h : SameMap s t) : t.uid = s.uid := congrArg TopoRec.uid h.own

theorem beside (h : SameMap s t) (east : Bool) (r : TopoRec) : t.beside east r = s.beside east r := by
  simp only [State.beside, State.topoRec, h.uid, h.recs, h.own]

theorem walk (h : SameMap s t) (east : Bool) (n : Nat) (r : TopoRec) : t.walk east n r = s.walk east n r := by
  induction n generalizing r with
  | zero => rfl
  | succ n ih => simp only [State.walk, h.beside, h.uid, ih]

theorem routeTo (h : SameMap s t) (node : Nat) : t.routeTo node = s.routeTo node := by
  simp only [State.routeTo, State.pathTo, State.side, h.walk, h.recs, h.own]

end SameMap

theorem State.taken_map (s : State) (p : Port) : SameMap s (s.taken p) :=
  .of_fab (fun _ => (s.taken_objs p).spares (by decide)) (s.taken_fab p)

/-! ### The records change (R366, R367) -/

/-- The objects about the zenith, and the clock that follows the root port. -/
def zenithKeys : List Nat := [Obj.ZENITH_ID, Obj.ZENITH_UID, Obj.ZENITH_HOPS, Obj.ZENITH_ROOT]

theorem State.zenithObjs_objs (s : State) : s.SameObjs zenithKeys s.zenithObjs := by
  have hset (t : State) (k v : Nat) (hk : k ∈ zenithKeys) : t.SameObjs zenithKeys (t.set k v) := t.set_sameObjs v hk
  unfold State.zenithObjs
  split
  · exact (((hset _ _ _ (by decide)).trans (hset _ _ _ (by decide))).trans (hset _ _ _ (by decide))).trans (hset _ _ _ (by decide))
  · exact (((hset _ _ _ (by decide)).trans (hset _ _ _ (by decide))).trans (hset _ _ _ (by decide))).trans (hset _ _ _ (by decide))

/-- ZENITH_UID is the zenith's, 0 without one. -/
theorem State.zenithObjs_uid (s : State) : s.zenithObjs.obj Obj.ZENITH_UID = s.fab.zenith.getD 0 := by
  unfold State.zenithObjs
  split
  · next h =>
    rw [h, State.obj_set_other _ _ (by decide), State.obj_set_other _ _ (by decide), State.obj_set_same]
    rfl
  · next h =>
    rw [h, State.obj_set_other _ _ (by decide), State.obj_set_other _ _ (by decide), State.obj_set_same]
    rfl

@[simp] theorem State.zenithObjs_fab (s : State) : s.zenithObjs.fab = s.fab := (State.zenithObjs_parts (p := 0x10) rfl (Fr.refl _ s)).fab rfl

theorem State.clkFollow_objs (s : State) : s.SameObjs [Obj.CLK_STATE] s.clkFollow := .ite (s.set_sameObjs _ (.head _)) (.refl _ s)

@[simp] theorem State.clkFollow_fab (s : State) : s.clkFollow.fab = s.fab := (State.clkFollow_parts (p := 0x10) rfl (Fr.refl _ s)).fab rfl

theorem State.routesMove_objs (s : State) : s.SameObjs (Obj.CLK_STATE :: zenithKeys) s.routesMove :=
  .ite ((s.zenithObjs_objs.mono (by decide)).trans (s.zenithObjs.clkFollow_objs.mono (by decide))) (.refl _ s)

@[simp] theorem State.routesMove_fab (s : State) : s.routesMove.fab = s.fab := (State.routesMove_parts (p := 0x10) rfl (Fr.refl _ s)).fab rfl

theorem State.unsettle_objs (s : State) : s.SameObjs [Obj.FAB_STATE] s.unsettle :=
  State.set_sameObjs { s with fab := { s.fab with settled := false } } _ (.head _)

theorem State.unsettle_fab (s : State) : s.unsettle.fab = { s.fab with settled := false } := rfl

theorem State.unsettle_state (s : State) : s.unsettle.obj Obj.FAB_STATE = if s.fabOn then 1 else 0 := State.obj_set_same _ _ _

/-! ### A port in and out of UP (R362, R366, R375) -/

/-- The objects that follow a port's change, but for its own. -/
def changeObjs : List Nat := Obj.FAB_STATE :: Obj.CLK_STATE :: zenithKeys ++ queueObjs

/-- The port's new state and neighbour, and what follows from the records, before the new record is flooded. -/
def State.portMoved (s : State) (p : Port) (st nbr : Nat) : State :=
  ((s.set (Obj.PORT_STATE (p.num + 1)) st).set (Obj.PORT_NBR (p.num + 1)) nbr).unsettle.routesMove

theorem State.portMoved_objs (s : State) (p : Port) (st nbr : Nat) :
    ((s.set (Obj.PORT_STATE (p.num + 1)) st).set (Obj.PORT_NBR (p.num + 1)) nbr).SameObjs changeObjs (s.portMoved p st nbr) :=
  ((State.unsettle_objs _).mono (by decide)).trans ((State.routesMove_objs _).mono (by decide))

theorem State.portMoved_fab (s : State) (p : Port) (st nbr : Nat) : (s.portMoved p st nbr).fab = { s.fab with settled := false } := by
  rw [State.portMoved, State.routesMove_fab]
  rfl

theorem State.portChange_objs (s : State) (p : Port) (st nbr : Nat) :
    ((s.set (Obj.PORT_STATE (p.num + 1)) st).set (Obj.PORT_NBR (p.num + 1)) nbr).SameObjs changeObjs (s.portChange p st nbr) :=
  (s.portMoved_objs p st nbr).trans ((State.topoSend_objs _).mono (by decide))

theorem State.portChange_state (s : State) (p : Port) (st nbr : Nat) :
    (s.portChange p st nbr).obj (Obj.PORT_STATE (p.num + 1)) = st := by
  rw [s.portChange_objs p st nbr _ (by cases p <;> decide), State.obj_set_other _ _ (by cases p <;> decide), State.obj_set_same]

theorem State.portChange_nbr (s : State) (p : Port) (st nbr : Nat) :
    (s.portChange p st nbr).obj (Obj.PORT_NBR (p.num + 1)) = nbr := by
  rw [s.portChange_objs p st nbr _ (by cases p <;> decide), State.obj_set_same]

theorem State.portChange_settled (s : State) (p : Port) (st nbr : Nat) : (s.portChange p st nbr).fab.settled = false := by
  rw [State.portChange, State.topoSend_fab]
  exact congrArg Fabric.settled (s.portMoved_fab p st nbr)

theorem State.portChange_port (s : State) (p : Port) (st nbr : Nat) (q : Port) :
    (s.portChange p st nbr).fab.ports.get q =
      { s.fab.ports.get q with queue := ((s.portChange p st nbr).fab.ports.get q).queue } := by
  have hports : (s.portMoved p st nbr).fab.ports = s.fab.ports := by rw [s.portMoved_fab]
  rw [← hports]
  exact State.topoSend_port _ q

/-- A port that leaves UP queues nothing more. -/
theorem State.portChange_port_of_down (s : State) (p : Port) {st : Nat} (nbr : Nat) (h : st ≠ 3) :
    (s.portChange p st nbr).fab.ports.get p = s.fab.ports.get p := by
  have hstate : (s.portMoved p st nbr).obj (Obj.PORT_STATE (p.num + 1)) = st := by
    rw [s.portMoved_objs p st nbr _ (by cases p <;> decide), State.obj_set_other _ _ (by cases p <;> decide), State.obj_set_same]
  refine (State.ports_topoSend_of_down (s := s.portMoved p st nbr) ?_).trans ?_
  · simp [State.portUp, hstate, h]
  · rw [State.portMoved_fab]

/-! ### A port DOWN (R362) -/

/-- The port's own record and delay cleared, its condition ended. -/
def State.portCleared (s : State) (p : Port) : State :=
  ((s.modFab p fun x => { x with hellos := 0, delays := [], queue := [], busy := 0, txTime := 0, rxTime := 0 }).set
    (Obj.PORT_DELAY (p.num + 1)) 0).clearI 0x0E 2 p.num

theorem State.portDown_eq (s : State) (p : Port) : s.portDown p =
    if s.obj (Obj.PORT_STATE (p.num + 1)) = 3 then (((s.portCleared p).assignCut.portChange p 1 0).fabTally 8).raise 0x0E 1 p.num
    else (s.portCleared p).set (Obj.PORT_STATE (p.num + 1)) 1 := rfl

theorem State.portCleared_port (s : State) (p : Port) : (s.portCleared p).fab.ports.get p =
    { s.fab.ports.get p with hellos := 0, delays := [], queue := [], busy := 0, txTime := 0, rxTime := 0 } := by
  rw [State.portCleared, (State.clearI_parts (p := 0x2010) _ _ _ rfl (Fr.refl _ _)).fab rfl, State.set_fab, State.ports_modFab]

theorem State.portCleared_delay (s : State) (p : Port) : (s.portCleared p).obj (Obj.PORT_DELAY (p.num + 1)) = 0 := by
  rw [State.portCleared, (State.clearI_reports _ _ _ _).obj (by cases p <;> decide), State.obj_set_same]

/-- The last steps of a port that leaves UP are its counter and its report. -/
theorem State.portLost_objs (s : State) (p : Port) :
    s.SameObjs [Obj.FAB_STATS 8, Obj.FAULT_LOST] ((s.fabTally 8).raise 0x0E 1 p.num) :=
  .trans (s.set_sameObjs (k := fabStat 8) _ (.head _)) (.mono (State.raise_reports _ _ _ _).2 (by decide))

theorem State.portLost_fab (s : State) (p : Port) : ((s.fabTally 8).raise 0x0E 1 p.num).fab = s.fab :=
  (State.raise_parts (p := 0x2010) _ _ _ rfl (State.fabTally_parts 8 rfl (Fr.refl _ s))).fab rfl

theorem State.portDown_state (s : State) (p : Port) : (s.portDown p).obj (Obj.PORT_STATE (p.num + 1)) = 1 := by
  rw [State.portDown_eq]
  split
  · rw [State.portLost_objs _ p _ (by cases p <;> decide), State.portChange_state]
  · exact State.obj_set_same _ _ _

theorem State.portDown_delay (s : State) (p : Port) : (s.portDown p).obj (Obj.PORT_DELAY (p.num + 1)) = 0 := by
  rw [State.portDown_eq]
  split
  · rw [State.portLost_objs _ p _ (by cases p <;> decide), State.portChange_objs _ p 1 0 _ (by cases p <;> decide),
      State.obj_set_other _ _ (by cases p <;> decide), State.obj_set_other _ _ (by cases p <;> decide)]
    exact s.portCleared_delay p
  · rw [State.obj_set_other _ _ (by cases p <;> decide), s.portCleared_delay p]

theorem State.portDown_port (s : State) (p : Port) : (s.portDown p).fab.ports.get p =
    { s.fab.ports.get p with hellos := 0, delays := [], queue := [], busy := 0, txTime := 0, rxTime := 0 } := by
  rw [State.portDown_eq]
  split
  · rw [State.portLost_fab, State.portChange_port_of_down _ p 0 (by decide)]
    exact s.portCleared_port p
  · rw [State.set_fab, s.portCleared_port p]

/-- A port that leaves UP loses its neighbour, and the fabric is no longer settled. -/
theorem State.portDown_of_up {s : State} {p : Port} (h : s.obj (Obj.PORT_STATE (p.num + 1)) = 3) :
    (s.portDown p).obj (Obj.PORT_NBR (p.num + 1)) = 0 ∧ (s.portDown p).fab.settled = false := by
  rw [State.portDown_eq, if_pos h, State.portLost_objs _ p _ (by cases p <;> decide), State.portLost_fab]
  exact ⟨State.portChange_nbr _ p 1 0, State.portChange_settled _ p 1 0⟩

end Sys2Proof.Machine
end

section
/-!
PROOFS. The fabric ports: lock and its loss, hellos sent and received (O41).
-/
namespace Sys2Proof.Machine

/-! ### A receiver locks (R362, R386) -/

theorem State.clkLock_objs (s : State) (p : Port) : s.SameObjs [Obj.CLK_STATE] (s.clkLock p) :=
  .ite (State.set_sameObjs { s with fab := { s.fab with clkAt := some s.now } } _ (.head _)) (.ite (s.set_sameObjs _ (.head _)) (.refl _ s))

theorem State.clkLock_ports (s : State) (p : Port) : (s.clkLock p).fab.ports = s.fab.ports := by
  unfold State.clkLock
  dsimp only
  split
  · rfl
  · split <;> rfl

/-- A DOWN port whose receiver locks, the clock seen to. -/
def State.lockedPort (s : State) (p : Port) : State :=
  ((s.clkLock p).modFab p fun x => { x with hellos := 0, delays := [], txTime := 0, rxTime := 0 }).set (Obj.PORT_STATE (p.num + 1)) 2

theorem exec_receiverLock {s : State} {p : Port} (hv : s.variant = .A) (hpor : s.aon.por = false)
    (hdown : s.obj (Obj.PORT_STATE (p.num + 1)) = 1) : exec (.receiverLock p) s = .next (s.lockedPort p) := by
  have hexec : exec (.receiverLock p) s = execReceiverLock p s := rfl
  rw [hexec, execReceiverLock, if_neg (by simp [hv, hpor])]
  dsimp only
  rw [if_pos ((s.clkLock_objs p _ (by cases p <;> decide)).trans hdown), State.lockedPort]

theorem exec_portDown {s : State} {p : Port} {c : Instr} (h : (c = .receiverLockLost p ∧ 2 ≤ s.obj (Obj.PORT_STATE (p.num + 1))) ∨
    (c = .helloTimeout p ∧ 3 ≤ s.obj (Obj.PORT_STATE (p.num + 1)))) : exec c s = .next (s.portDown p) := by
  rcases h with ⟨rfl, hst⟩ | ⟨rfl, hst⟩
  · exact congrArg Host.Outcome.next (if_pos hst)
  · exact congrArg Host.Outcome.next (if_pos hst)

/-! ### A hello sent (R363) -/

/-- The node's HELLO out of a port. -/
def State.helloFrame (s : State) (p : Port) (n : Nat) : Frame := { node := 0xFF, src := s.nodeId, type := 1, data := s.helloBytes p n }

theorem exec_helloSend {s : State} {p : Port} (n : Nat) (h : 2 ≤ s.obj (Obj.PORT_STATE (p.num + 1))) :
    exec (.helloSend p n) s = .next (s.fabLocal p 1 (s.helloFrame p n)) := congrArg Host.Outcome.next (if_pos h)

/-! ### A hello received (R363-R365) -/

theorem State.hopDelay_objs (s : State) (p : Port) (b : List Byte) (t : Nat) :
    s.SameObjs [Obj.PORT_DELAY (p.num + 1)] (s.hopDelay p b t) := .ite (.refl _ s) (State.set_sameObjs (s.modFab p _) _ (.head _))

/-- The hop delays are all that a new one changes in the port's record. -/
theorem State.hopDelay_port (s : State) (p : Port) (b : List Byte) (t : Nat) : (s.hopDelay p b t).fab.ports.get p =
    { s.fab.ports.get p with delays := ((s.hopDelay p b t).fab.ports.get p).delays } := by
  unfold State.hopDelay
  dsimp only
  split
  · rfl
  · rw [State.set_fab, State.ports_modFab]

/-- A good hello noted in the port's record. -/
def State.helloNoted (s : State) (p : Port) (b : List Byte) (t : Nat) : State :=
  (s.hopDelay p b t).modFab p fun x => { x with
    hellos := x.hellos + 1, txTime := leAt b 12 4, rxTime := t, nbrNode := byteAt b 8, nbrFlags := byteAt b 10 }

theorem State.helloNoted_objs (s : State) (p : Port) (b : List Byte) (t : Nat) :
    s.SameObjs [Obj.PORT_DELAY (p.num + 1)] (s.helloNoted p b t) := s.hopDelay_objs p b t

theorem State.helloNoted_parts {a : Nat} {s x : State} (p : Port) (b : List Byte) (t : Nat) (ha : 0x80000010 ||| a = a) (h : Fr a s x) :
    Fr a s (x.helloNoted p b t) := State.modFab_parts p _ (Fr.up (by decide) ha) (State.hopDelay_parts p b t ha h)

theorem State.helloNoted_port (s : State) (p : Port) (b : List Byte) (t : Nat) : (s.helloNoted p b t).fab.ports.get p =
    { s.fab.ports.get p with
      hellos := (s.fab.ports.get p).hellos + 1, txTime := leAt b 12 4, rxTime := t, nbrNode := byteAt b 8, nbrFlags := byteAt b 10
      delays := ((s.hopDelay p b t).fab.ports.get p).delays } := by
  rw [State.helloNoted, State.ports_modFab, s.hopDelay_port]

/-- Whatever becomes of the port, of its record only the queue moves. -/
theorem State.miswire_port (s : State) (p : Port) :
    (s.miswire p).fab.ports.get p = { s.fab.ports.get p with queue := ((s.miswire p).fab.ports.get p).queue } := by
  have hreport (x : State) : (x.raiseC 0x0E 2 p.num).fab = x.fab := (State.raiseC_parts (p := 0x2010) _ _ _ rfl (Fr.refl _ x)).fab rfl
  unfold State.miswire
  dsimp only
  rw [hreport]
  split
  · rw [State.portChange_port, State.assignCut, State.ports_modFab]
  · rw [State.set_fab, State.ports_modFab]

theorem State.helloState_port (s : State) (p : Port) (b : List Byte) :
    (s.helloState p b).fab.ports.get p = { s.fab.ports.get p with queue := ((s.helloState p b).fab.ports.get p).queue } := by
  unfold State.helloState
  dsimp only
  split_ifs
  · rfl
  · exact s.miswire_port p
  · exact s.portChange_port p _ _ p
  · exact s.miswire_port p
  · rfl
  · exact s.portChange_port p _ _ p
  · rfl

theorem State.miswire_state (s : State) (p : Port) : (s.miswire p).obj (Obj.PORT_STATE (p.num + 1)) = 4 := by
  unfold State.miswire
  dsimp only
  rw [(State.raiseC_reports _ _ _ _).obj (by cases p <;> decide)]
  split
  · exact State.portChange_state _ p 4 0
  · exact State.obj_set_same _ _ _

/-- The first hello after the lock leaves the port LOCKED. -/
theorem State.helloState_first {s : State} {p : Port} (b : List Byte) (hst : s.obj (Obj.PORT_STATE (p.num + 1)) = 2)
    (hone : (s.fab.ports.get p).hellos < 2) : s.helloState p b = s := by
  simp [State.helloState, hst, hone]

/-- The second one decides by the sender's port. -/
theorem State.helloState_second {s : State} {p : Port} (b : List Byte) (hst : s.obj (Obj.PORT_STATE (p.num + 1)) = 2)
    (htwo : 2 ≤ (s.fab.ports.get p).hellos) :
    s.helloState p b = if byteAt b 9 % 2 = p.num then s.miswire p else s.portChange p 3 (leAt b 0 8) := by
  simp [State.helloState, hst, Nat.not_lt.mpr htwo]

/-- The state after a good hello. -/
def State.greeted (s : State) (p : Port) (b : List Byte) (n : Nat) : State := ((s.taken p).helloNoted p b n).helloState p b

/-- LOCKED, UP or MISWIRED: the port takes a HELLO. -/
theorem State.fabTake_hello {s : State} {p : Port} (h : [2, 3, 4].contains (s.obj (Obj.PORT_STATE (p.num + 1))) = true) :
    s.fabTake p 1 = (true, s.taken p) := State.fabTake_open (by
  have hstate : s.obj (Obj.PORT_STATE (p.num + 1)) = 2 ∨ s.obj (Obj.PORT_STATE (p.num + 1)) = 3 ∨ s.obj (Obj.PORT_STATE (p.num + 1)) = 4 := by
    simpa using h
  simpa [or_assoc] using hstate)

theorem exec_hello_good {s : State} {p : Port} {b : List Byte} (n : Nat) (h : [2, 3, 4].contains (s.obj (Obj.PORT_STATE (p.num + 1))) = true)
    (hlen : b.length = 26) (hver : byteAt b 11 = 1) : exec (.hello p b n) s = .next (s.greeted p b n) := by
  have hexec : exec (.hello p b n) s = .next (s.hello p b n) := rfl
  rw [hexec, State.hello, State.fabTake_hello h]
  dsimp only
  rw [if_neg (by decide), if_neg (by simp [hlen, hver])]
  rfl

/-- A hello of another length or version counts as a bad frame, and the count of good ones starts again. -/
def State.helloBad (s : State) (p : Port) : State := (s.modFab p fun x => { x with hellos := 0 }).fabBad p

theorem exec_hello_bad {s : State} {p : Port} {b : List Byte} (n : Nat) (h : [2, 3, 4].contains (s.obj (Obj.PORT_STATE (p.num + 1))) = true)
    (hbad : b.length ≠ 26 ∨ byteAt b 11 ≠ 1) : exec (.hello p b n) s = .next (s.helloBad p) := by
  have hexec : exec (.hello p b n) s = .next (s.hello p b n) := rfl
  rw [hexec, State.hello, State.fabTake_hello h]
  dsimp only
  rw [if_neg (by decide), if_pos (by simpa using hbad)]
  rfl

theorem State.greeted_port (s : State) (p : Port) (b : List Byte) (n : Nat) : ((s.greeted p b n).fab.ports.get p) =
    { s.fab.ports.get p with
      hellos := (s.fab.ports.get p).hellos + 1, txTime := leAt b 12 4, rxTime := n, nbrNode := byteAt b 8, nbrFlags := byteAt b 10
      delays := (((s.taken p).hopDelay p b n).fab.ports.get p).delays
      queue := ((s.greeted p b n).fab.ports.get p).queue } := by
  rw [State.greeted, State.helloState_port, State.helloNoted_port, State.taken_fab]

section
variable {s : State} {p : Port}

/-- What decides on the port's state, once the hello is noted: a LOCKED port with the hellos heard so far, and this one. -/
theorem State.helloNoted_locked (b : List Byte) (n : Nat) (hst : s.obj (Obj.PORT_STATE (p.num + 1)) = 2) :
    ((s.taken p).helloNoted p b n).obj (Obj.PORT_STATE (p.num + 1)) = 2 ∧
      (((s.taken p).helloNoted p b n).fab.ports.get p).hellos = (s.fab.ports.get p).hellos + 1 := by
  rw [State.helloNoted_objs _ p b n _ (by cases p <;> decide), s.taken_objs p _ (by cases p <;> decide), State.helloNoted_port,
    State.taken_fab]
  exact ⟨hst, rfl⟩

theorem State.greeted_first (b : List Byte) (n : Nat) (hst : s.obj (Obj.PORT_STATE (p.num + 1)) = 2)
    (hnone : (s.fab.ports.get p).hellos = 0) : (s.greeted p b n).obj (Obj.PORT_STATE (p.num + 1)) = 2 := by
  obtain ⟨hstate, hcount⟩ := State.helloNoted_locked b n hst
  rw [State.greeted, State.helloState_first b hstate (by omega), hstate]

theorem State.greeted_second (b : List Byte) (n : Nat) (hst : s.obj (Obj.PORT_STATE (p.num + 1)) = 2)
    (hsome : (s.fab.ports.get p).hellos ≠ 0) : s.greeted p b n =
      if byteAt b 9 % 2 = p.num then ((s.taken p).helloNoted p b n).miswire p
      else ((s.taken p).helloNoted p b n).portChange p 3 (leAt b 0 8) := by
  obtain ⟨hstate, hcount⟩ := State.helloNoted_locked b n hst
  exact State.helloState_second b hstate (by omega)

end

/-- Settles O41: a lock is the clock's move and the port's; a loss and a timeout are the port DOWN; a good hello is noted and then decides on
the port's state, a bad one is counted. -/
theorem fabricPorts : Obligations.FabricPorts := by
  refine ⟨?lock, ?down, ?send, ?good, ?bad⟩
  case lock =>
    intro p s hv hpor hdown
    have hexec := exec_receiverLock hv hpor hdown
    have hports := s.clkLock_ports p
    refine ⟨_, hexec, State.obj_set_same _ _ _, ?_, ?_, (execReceiverLock_parts p hexec).only (by decide), ?_⟩
    · rw [State.lockedPort, State.set_fab, State.ports_modFab, hports]
    · rw [State.lockedPort, State.set_fab, State.ports_modFab_other _ _ (by cases p <;> decide), hports]
    · exact .trans (t := (s.clkLock p).modFab p _) ((s.clkLock_objs p).mono (by simp)) (State.set_sameObjs _ _ (.head _))
  case down =>
    intro p s c h
    have hport := s.portDown_port p
    exact ⟨_, exec_portDown h, s.portDown_state p, s.portDown_delay p, by rw [hport], by rw [hport], State.portDown_of_up,
      (State.portDown_parts (p := 0x80002010) p rfl (Fr.refl _ s)).only (by decide)⟩
  case send =>
    intro p n s hst
    have hexec := exec_helloSend n hst
    have hqueues := s.fabLocal_queues p 1 (s.helloFrame p n)
    refine ⟨_, hexec, ?_, fun hroom => ?_, (execHelloSend_parts p n hexec).only (by decide), hqueues.objs⟩
    · rw [hqueues.fab]
      exact s.seqs_fabSeq (s.helloFrame p n)
    · exact State.fabLocal_queue_of_room (s.helloFrame p n) hroom
  case good =>
    intro p b n s hst hlen hver
    have hexec := exec_hello_good n hst hlen hver
    have hport := s.greeted_port p b n
    refine ⟨_, hexec, by rw [hport], by rw [hport], by rw [hport], by rw [hport], State.greeted_first b n, fun htwo hsome hother => ?_,
      fun htwo hsome hsame => ?_, fun hquiet => ?_, (execHello_parts p b n hexec).only (by decide)⟩
    · rw [State.greeted_second b n htwo hsome, if_neg hother]
      exact ⟨State.portChange_state _ p 3 _, State.portChange_nbr _ p 3 _, State.portChange_settled _ p 3 _⟩
    · rw [State.greeted_second b n htwo hsome, if_pos hsame]
      exact State.miswire_state _ p
    · have hparts : Fr 0xc0002010 s (s.greeted p b n) := State.after_quiet (fun x => (x.helloNoted p b n).helloState p b) hquiet rfl
        fun _ hx => State.helloState_parts p b rfl (State.helloNoted_parts p b n rfl hx)
      exact hparts.only (by decide)
  case bad =>
    intro p b n s hst hbad
    have hexec := exec_hello_bad n hst hbad
    refine ⟨_, hexec, (execHello_parts p b n hexec).only (by decide), ?_, State.fabBad_counted (s.modFab p _) p⟩
    rw [State.helloBad, State.fabBad_port FabPort.hellos _ p p fun _ _ _ => rfl, State.ports_modFab]

end Sys2Proof.Machine
end

section
/-!
PROOFS. Topology, election and assignment of the fabric (O42).
-/
namespace Sys2Proof.Machine

/-! ### Records held and expired (R366, R367) -/

/-- A record takes the place of the one of its UID. -/
theorem State.topoHold_recs (s : State) (r : TopoRec) : (s.topoHold r).fab.recs = (s.fab.recs.filter fun x => x.uid != r.uid) ++ [r] := by
  have hmove (x : State) : x.unsettle.routesMove.fab.recs = x.fab.recs := by rw [State.routesMove_fab, State.unsettle_fab]
  have hcut (x : State) (c : Bool) : (if c = true then x.assignCut else x).fab.recs = x.fab.recs := by split <;> rfl
  unfold State.topoHold
  dsimp only
  split
  · rw [hcut]
  · rw [hmove, hcut]

/-- A newer record of another node, held and forwarded out of the other port. -/
def State.topoHeld (s : State) (p : Port) (f : Frame) : State :=
  let t := s.topoHold (topoOf f.data)
  if t.portUp p.other then t.hopsOk f fun f s => s.fabOut p.other f else t

theorem State.topoHeld_recs (s : State) (p : Port) (f : Frame) :
    (s.topoHeld p f).fab.recs = (s.fab.recs.filter fun x => x.uid != (topoOf f.data).uid) ++ [topoOf f.data] := by
  have hqueue (t : State) : (t.hopsOk f fun f s => s.fabOut p.other f).fab.recs = t.fab.recs := by
    rw [(t.hopsOk_queues (k := fun f s => s.fabOut p.other f) fun _ => (t.fabOut_queues _ _).mono (by decide)).fab]
  unfold State.topoHeld
  dsimp only
  split
  · rw [hqueue, State.topoHold_recs]
  · rw [State.topoHold_recs]

theorem exec_topo {s : State} {p : Port} {src seq hops : Nat} {b : List Byte}
    (hst : [2, 3].contains (s.obj (Obj.PORT_STATE (p.num + 1))) = true) (hlen : b.length = 32) (huid : (topoOf b).uid ≠ s.uid)
    (hnew : ∀ x ∈ s.fab.recs, x.uid = (topoOf b).uid → seqNewer (topoOf b).seq x.seq = true) :
    exec (.topo p src seq hops b) s =
      .next ((s.taken p).topoHeld p { node := 0xFF, src := src, type := 2, seq := seq, hops := hops, data := b }) := by
  have hexec : exec (.topo p src seq hops b) s =
      .next (s.topo p { node := 0xFF, src := src, type := 2, seq := seq, hops := hops, data := b }) := rfl
  have holder : ((s.fab.recs.find? fun x => x.uid == (topoOf b).uid).elim false fun x => !seqNewer (topoOf b).seq x.seq) = false := by
    cases hfind : s.fab.recs.find? fun x => x.uid == (topoOf b).uid with
    | none => rfl
    | some x => simp [hnew x (List.mem_of_find?_eq_some hfind) (by simpa using List.find?_some hfind)]
  rw [hexec, State.topo, State.fabTake_open (.inl hst)]
  dsimp only
  rw [if_neg (by decide), if_neg (by simp [hlen]), if_neg (by simp [huid, holder])]
  rfl

theorem State.topoHeld_parts {a : Nat} {s x : State} (p : Port) (f : Frame) (ha : 0x80002010 ||| a = a) (h : Fr a s x) :
    Fr a s (x.topoHeld p f) := by
  have hheld : Fr a s (x.topoHold (topoOf f.data)) := State.topoHold_parts _ (Fr.up (by decide) ha) h
  exact .ite (State.hopsOk_parts _ _ (fun _ _ hy => State.fabOut_parts _ _ ha hy) (Fr.up (by decide) ha) hheld) hheld

theorem exec_topoRecordExpiry {s : State} {uid : Nat} (h : (s.fab.recs.any fun r => r.uid == uid) = true) :
    exec (.topoRecordExpiry uid) s =
      .next ({ s with fab := { s.fab with recs := s.fab.recs.filter fun r => r.uid != uid } } : State).unsettle.routesMove :=
  congrArg Host.Outcome.next (if_pos h)

/-! ### Fabric boot asks for its next image (R387) -/

theorem State.bootAsk_fab (s : State) :
    s.bootAsk.fab = { s.fab with reqs := s.bootAsk.fab.reqs, ports := s.bootAsk.fab.ports, seqs := s.bootAsk.fab.seqs } := by
  unfold State.bootAsk
  split
  · rw [(State.fabSend_queues _ _).fab]
    rfl
  · rfl

theorem State.bootAsk_objs (s : State) : s.SameObjs routeObjs s.bootAsk := by
  unfold State.bootAsk
  split
  · exact (State.fabSend_queues _ _).objs
  · exact .refl _ s

/-- The next kind's bytes start empty. -/
theorem State.bootNext_fab (s : State) (k : Nat) : (s.bootNext k).fab = { s.fab with
    boot := some (k + 1), bootData := [], reqs := (s.bootNext k).fab.reqs, ports := (s.bootNext k).fab.ports
    seqs := (s.bootNext k).fab.seqs } := by
  unfold State.bootNext
  dsimp only
  split
  · rw [State.bootAsk_fab]
  · rfl

theorem State.bootNext_objs (s : State) (k : Nat) : s.SameObjs routeObjs (s.bootNext k) := by
  have hfetch (f : Fabric) : s.SameObjs routeObjs { s with fab := f } := .refl _ s
  exact .ite ((hfetch _).trans (State.bootAsk_objs _)) (hfetch _)

theorem State.setBank_objs (s : State) (n : Nat) (x : Bank) : (s.setBank n x).objs = s.objs := by
  unfold State.setBank
  split <;> rfl

theorem State.setBank_fab (s : State) (n : Nat) (x : Bank) : (s.setBank n x).fab = s.fab := by
  unfold State.setBank
  split <;> rfl

theorem State.bootKick_objs (s : State) : s.SameObjs routeObjs s.bootKick := by
  have hbank (n : Nat) (x : Bank) : s.SameObjs routeObjs (s.setBank n x) := fun k _ => State.obj_congr (s.setBank_objs n x) k
  exact .ite ((hbank _ _).trans (State.bootNext_objs _ _)) (.ite s.bootAsk_objs (.refl _ s))

/-- The boot moves on, and nothing else of the node. -/
theorem State.bootKick_fab (s : State) : s.bootKick.fab = { s.fab with
    boot := s.bootKick.fab.boot, bootData := s.bootKick.fab.bootData, reqs := s.bootKick.fab.reqs, ports := s.bootKick.fab.ports
    seqs := s.bootKick.fab.seqs } := by
  unfold State.bootKick
  split
  · rw [State.bootNext_fab, State.setBank_fab]
  · split
    · rw [State.bootAsk_fab]
    · rfl

/-! ### An ID adopted (R371) -/

theorem State.commitStart_objs (s : State) : s.SameObjs [Obj.OD_JOURNAL, Obj.FLASH_STATE] s.commitStart := by
  have hbusy (x : State) : x.SameObjs [Obj.OD_JOURNAL, Obj.FLASH_STATE] (x.flashBusy true) := .ite (x.set_sameObjs _ (by decide)) (.refl _ x)
  have hjrnl (j : Journal) : s.SameObjs [Obj.OD_JOURNAL, Obj.FLASH_STATE] { s with jrnl := j } := .refl _ s
  exact .ite (.ite (.refl _ s) (s.set_sameObjs _ (by decide))) (.ite (hjrnl _) (.ite (.refl _ s)
    (((hjrnl _).trans (State.set_sameObjs _ _ (by decide))).trans (hbusy _))))

@[simp] theorem State.commitStart_fab (s : State) : s.commitStart.fab = s.fab :=
  (State.commitStart_parts (p := 0x10010) rfl (Fr.refl _ s)).fab rfl

/-- The ID, its generation and its sender, before they are told. -/
def State.idTaken (s : State) (id gen from_ : Nat) : State :=
  ((({ s with fab := { s.fab with stored := id, adopted := true, used := id, from_ := from_ } } : State).put Obj.NODE_ID id).put
    Obj.ASSIGN_GEN gen).set Obj.FAB_STATE 3

theorem State.idTaken_objs (s : State) (id gen from_ : Nat) :
    s.SameObjs [Obj.NODE_ID, Obj.ASSIGN_GEN, Obj.FAB_STATE, Obj.OD_JOURNAL] (s.idTaken id gen from_) := by
  have hput (x : State) (k v : Nat) (hk : k ∈ [Obj.NODE_ID, Obj.ASSIGN_GEN, Obj.FAB_STATE, Obj.OD_JOURNAL]) :
      x.SameObjs [Obj.NODE_ID, Obj.ASSIGN_GEN, Obj.FAB_STATE, Obj.OD_JOURNAL] (x.put k v) := x.put_sameObjs v hk (by decide)
  exact ((hput { s with fab := { s.fab with stored := id, adopted := true, used := id, from_ := from_ } } _ _ (by decide)).trans
    (hput _ _ _ (by decide))).trans (State.set_sameObjs _ _ (by decide))

theorem State.idTaken_told (s : State) (id gen from_ : Nat) : (s.idTaken id gen from_).obj Obj.NODE_ID = id ∧
    (s.idTaken id gen from_).obj Obj.ASSIGN_GEN = gen ∧ (s.idTaken id gen from_).obj Obj.FAB_STATE = 3 := by
  refine ⟨?_, ?_, State.obj_set_same _ _ _⟩
  · rw [State.idTaken, State.obj_set_other _ _ (by decide), State.obj_put_other _ _ (by decide) (by decide),
      State.obj_put_same _ _ (by decide)]
  · rw [State.idTaken, State.obj_set_other _ _ (by decide), State.obj_put_same _ _ (by decide)]

theorem State.idTaken_fab (s : State) (id gen from_ : Nat) :
    (s.idTaken id gen from_).fab = { s.fab with stored := id, adopted := true, used := id, from_ := from_ } := by
  simp [State.idTaken]

/-- The objects of what is told of an ID: the flooded record and the journal's commit. -/
def tellObjs : List Nat := Obj.OD_JOURNAL :: Obj.FLASH_STATE :: queueObjs

/-- What an adoption adds once the ID is taken. -/
structure Tells (s t : State) : Prop where
  objs : s.SameObjs tellObjs t
  fab : t.fab = { s.fab with ports := t.fab.ports, topoSeq := t.fab.topoSeq, seqs := t.fab.seqs }

theorem Tells.report {s t : State} (h : Tells s t) (c : Prop) [Decidable c] (src kind inst : Nat) :
    Tells s (if c then t.raise src kind inst else t) := by
  split
  · have hfab : (t.raise src kind inst).fab = t.fab := (State.raise_parts (p := 0x2010) _ _ _ rfl (Fr.refl _ t)).fab rfl
    exact ⟨h.objs.trans (.mono (State.raise_reports _ _ _ _).2 (by decide)), by rw [hfab, h.fab]⟩
  · exact h

theorem State.adopt_tells (s : State) (id gen from_ : Nat) : Tells (s.idTaken id gen from_) (s.adopt id gen from_) := by
  have hsend : Tells (s.idTaken id gen from_) (s.idTaken id gen from_).topoSend.commitStart := by
    refine ⟨.trans (.mono (State.topoSend_objs _) (by decide)) (.mono (State.commitStart_objs _) (by decide)), ?_⟩
    rw [State.commitStart_fab, State.topoSend_fab]
  exact (hsend.report _ 0x0E 4 s.fab.stored).report _ 0x0E 5 _

/-! ### An assignment received (R370, R371) -/

theorem State.assignRx_eq {s : State} {p : Port} {f : Frame} (hst : [2, 3].contains (s.obj (Obj.PORT_STATE (p.num + 1))) = true)
    (hone : 1 ≤ byteAt f.data 4) (hmax : byteAt f.data 4 ≤ 25) (hlen : f.data.length = 8 + 9 * byteAt f.data 4)
    (hown : s.sentBy f s.ownRec = false) : s.assignRx p f = ((s.taken p).fabOnward p f).assignTake f.src f.data := by
  rw [State.assignRx, State.fabTake_open (.inl hst)]
  dsimp only
  rw [if_neg (by decide), if_neg (by simp [hlen]; omega), if_neg (by simp [hown])]

/-- What decides whether an assignment is taken stands in the node's records and in three objects. -/
structure SameJudge (s t : State) : Prop where
  uid : t.uid = s.uid
  gen : t.obj Obj.ASSIGN_GEN = s.obj Obj.ASSIGN_GEN
  recs : t.fab.recs = s.fab.recs
  zenith : t.fab.zenith = s.fab.zenith
  adopted : t.fab.adopted = s.fab.adopted
  sender : t.fab.from_ = s.fab.from_

namespace SameJudge

variable {s t : State}

theorem assignFrom (h : SameJudge s t) (src : Nat) (b : List Byte) : t.assignFrom src b = s.assignFrom src b := by
  simp only [State.assignFrom, h.recs, h.zenith]

theorem assignBetter (h : SameJudge s t) (gen from_ : Nat) : t.assignBetter gen from_ = s.assignBetter gen from_ := by
  simp only [State.assignBetter, h.adopted, h.gen, h.sender]

/-- The UIDs that the assignment lists are no part of the judgement. -/
theorem listed (h : SameJudge s t) (b : List Byte) (c : Prop) [Decidable c] : SameJudge s (if c then t.assignList b else t) := by
  split
  · exact ⟨h.uid, h.gen, h.recs, h.zenith, h.adopted, h.sender⟩
  · exact h

end SameJudge

theorem State.fabOnward_judge (s : State) (p : Port) (f : Frame) : SameJudge s ((s.taken p).fabOnward p f) := by
  have hqueues := (s.taken p).fabOnward_queues p f
  have hobj {k : Nat} (hk : k ∈ [Obj.UNIQUE_ID, Obj.ASSIGN_GEN]) : ((s.taken p).fabOnward p f).obj k = s.obj k :=
    (hqueues.objs.spares (by decide) hk).trans ((s.taken_objs p).spares (by decide) hk)
  have hfab := hqueues.fab
  rw [State.taken_fab] at hfab
  exact ⟨hobj (by decide), hobj (by decide), by rw [hfab], by rw [hfab], by rw [hfab], by rw [hfab]⟩

/-- A better assignment that names the node: the ID is adopted, and then the routes and the boot follow. -/
theorem State.assignTake_of_better {s : State} {src id : Nat} {b : List Byte}
    (hentry : (assignEntries b).find? (fun e => e.1 == s.uid) = some (s.uid, id))
    (hbetter : s.assignBetter (leAt b 0 2) (s.assignFrom src b) = true) :
    ∃ x : State, s.assignTake src b = (x.adopt id (leAt b 0 2) (s.assignFrom src b)).zenithObjs.bootKick := by
  have hjudge := (⟨rfl, rfl, rfl, rfl, rfl, rfl⟩ : SameJudge s s).listed b (s.obj Obj.ASSIGN_GEN ≤ leAt b 0 2 ∨ s.fab.adopted = false)
  refine ⟨if s.obj Obj.ASSIGN_GEN ≤ leAt b 0 2 ∨ s.fab.adopted = false then s.assignList b else s, ?_⟩
  have hentry' := hjudge.uid ▸ hentry
  have hbetter' := (hjudge.assignBetter (leAt b 0 2) (s.assignFrom src b)).trans hbetter
  unfold State.assignTake
  dsimp only
  simp only [Bool.or_eq_true, decide_eq_true_eq, Bool.not_eq_true']
  rw [hentry']
  dsimp only
  rw [if_pos hbetter']

/-- What stands once an adopted ID's routes and boot have followed. -/
theorem State.adoptFollowed (s : State) (id gen from_ : Nat) : ∀ t : State, t = (s.adopt id gen from_).zenithObjs.bootKick →
    t.obj Obj.NODE_ID = id ∧ t.obj Obj.ASSIGN_GEN = gen ∧ t.fab.stored = id ∧ t.fab.adopted = true ∧ t.fab.from_ = from_ ∧
      t.obj Obj.FAB_STATE = 3 := by
  rintro _ rfl
  have htells := s.adopt_tells id gen from_
  obtain ⟨hid, hgen, hstate⟩ := s.idTaken_told id gen from_
  have hobj {k : Nat} (hk : k ∈ [Obj.NODE_ID, Obj.ASSIGN_GEN, Obj.FAB_STATE]) :
      (s.adopt id gen from_).zenithObjs.bootKick.obj k = (s.idTaken id gen from_).obj k := by
    rw [(State.bootKick_objs _).spares (by decide) hk, (State.zenithObjs_objs _).spares (by decide) hk, htells.objs.spares (by decide) hk]
  rw [hobj (by decide), hobj (by decide), hobj (by decide), State.bootKick_fab, State.zenithObjs_fab, htells.fab, State.idTaken_fab]
  exact ⟨hid, hgen, rfl, rfl, rfl, hstate⟩

/-! ### The zenith's assignment (R369, R370) -/

theorem State.fabBroadcast_fab (s : State) (f : Frame) :
    (s.fabBroadcast f).fab = { s.fab with ports := (s.fabBroadcast f).fab.ports, seqs := (s.fabBroadcast f).fab.seqs } := by
  by_cases h : s.fabOn = true
  · rw [(State.fabBroadcast_queues f h).fab]
    rfl
  · rw [State.fabBroadcast, if_pos (by simpa using h)]

theorem State.fabBroadcast_objs (s : State) (f : Frame) : s.SameObjs queueObjs (s.fabBroadcast f) := by
  by_cases h : s.fabOn = true
  · exact (State.fabBroadcast_queues f h).objs
  · rw [State.fabBroadcast, if_pos (by simpa using h)]
    exact .refl _ s

/-- One frame of the zenith's assignment. -/
def State.assignPart (s : State) (b : List Byte) : State := s.fabBroadcast { node := 0xFF, src := s.nodeId, type := 3, data := b }

theorem State.assignParts_fab (l : List (List Byte)) (s : State) : (l.foldl State.assignPart s).fab =
    { s.fab with ports := (l.foldl State.assignPart s).fab.ports, seqs := (l.foldl State.assignPart s).fab.seqs } := by
  induction l generalizing s with
  | nil => rfl
  | cons b l ih => rw [List.foldl_cons, ih, State.assignPart, State.fabBroadcast_fab]

theorem State.assignSend_fab (s : State) :
    s.assignSend.fab = { s.fab with ports := s.assignSend.fab.ports, seqs := s.assignSend.fab.seqs } := State.assignParts_fab s.fab.assign s

theorem State.assignParts_objs (l : List (List Byte)) (s : State) : s.SameObjs queueObjs (l.foldl State.assignPart s) := by
  induction l generalizing s with
  | nil => exact .refl _ s
  | cons b l ih => exact (s.fabBroadcast_objs _).trans (ih _)

theorem State.assignSend_objs (s : State) : s.SameObjs queueObjs s.assignSend := State.assignParts_objs _ s

/-- Every frame of the assignment takes a sequence number. -/
theorem State.assignParts_seqs (l : List (List Byte)) {s : State} (b : List Byte) (h : s.fabOn = true) :
    ((b :: l).foldl State.assignPart s).fab.seqs.read (fun _ => 0) 0xFF =
      (s.fab.seqs.read (fun _ => 0) 0xFF + (b :: l).length) % 256 := by
  have hone (s : State) (b : List Byte) (h : s.fabOn = true) :
      (s.assignPart b).fab.seqs.read (fun _ => 0) 0xFF = (s.fab.seqs.read (fun _ => 0) 0xFF + 1) % 256 := by
    rw [State.assignPart, (State.fabBroadcast_queues _ h).fab]
    exact s.seqs_fabSeq { node := 0xFF, src := s.nodeId, type := 3, data := b }
  induction l generalizing s b with
  | nil => exact hone s b h
  | cons c l ih =>
    have hon : (s.assignPart b).fabOn = true :=
      (State.fabBroadcast_queues { node := 0xFF, src := s.nodeId, type := 3, data := b } h).fabOn.trans h
    rw [List.foldl_cons, ih c hon, hone s b h]
    simp only [List.length_cons]
    omega

/-! ### The fabric has settled (R367-R369) -/

/-- The objects that the zenith's own assignment writes. -/
def assignObjs : List Nat := [Obj.NODE_ID, Obj.ASSIGN_GEN, Obj.FAB_STATE, Obj.OD_JOURNAL, Obj.FLASH_STATE] ++ queueObjs

theorem State.assign_objs (s : State) : s.SameObjs assignObjs s.assign := by
  have hlist (f : Fabric) : s.SameObjs assignObjs { s with fab := f } := .refl _ s
  unfold State.assign
  dsimp only
  refine .trans ?_ ((State.adopt_tells _ _ _ _).objs.mono (by decide))
  refine .trans ?_ ((State.idTaken_objs _ _ _ _).mono (by decide))
  exact (hlist _).trans ((State.assignSend_objs _).mono (by decide))

/-- Who is zenith, and that the fabric has settled, stands through an assignment. -/
theorem State.assign_fab (s : State) : s.assign.fab.settled = s.fab.settled ∧ s.assign.fab.zenith = s.fab.zenith := by
  unfold State.assign
  dsimp only
  rw [(State.adopt_tells _ _ _ _).fab, State.idTaken_fab, State.assignSend_fab]
  exact ⟨rfl, rfl⟩

/-- The zenith elected. -/
def State.elected (s : State) : State :=
  let t : State := { s with fab := { s.fab with
    settled := true, zenith := s.elect, lastZenith := if s.elect.isSome then s.elect else s.fab.lastZenith } }
  (t.set Obj.FAB_STATE (if t.fab.adopted then 3 else 2)).zenithObjs

/-- A new zenith is reported. -/
def State.heralded (s : State) (z last : Option Nat) (u : Nat) : State :=
  if z != last then s.raise 0x0E 3 (((s.topoRec u).map (·.node)).getD 0) else s

/-- The timebase's state under the zenith: source, or waiting for the markers of a new one. -/
def State.timed (s : State) (z last : Option Nat) (u : Nat) : State :=
  if u = s.uid then s.set Obj.TIMEBASE_STATE 4
  else if z != last || s.obj Obj.TIMEBASE_STATE = 4 then { s with fab := { s.fab with tLast := none } }.set Obj.TIMEBASE_STATE 1 else s

/-- No assignment is on its way, and under another zenith none is the node's own. -/
def State.assignReset (s : State) (u : Nat) : State :=
  let s := if u = s.uid then s else { s with fab := { s.fab with assign := [] } }
  { s with fab := { s.fab with cut := false } }

/-- The assignment of a node that is zenith, where one is due. -/
def State.assignDue (s : State) (z last : Option Nat) (u : Nat) : State :=
  let again := ((s.ownRec :: s.others).any fun r => !s.fab.listed.contains r.uid) || s.fab.cut
  if u = (s.assignReset u).uid && (z != last || again) then (s.assignReset u).assign.zenithObjs else s.assignReset u

theorem State.settle_eq (s : State) : s.settle = match s.elect with
    | none => (s.elected.set Obj.TIMEBASE_STATE 0).raise 0x0E 6
        ({ s with fab := { s.fab with
          settled := true, zenith := s.elect, lastZenith := if s.elect.isSome then s.elect else s.fab.lastZenith } }.set Obj.FAB_STATE
            (if s.fab.adopted then 3 else 2)).zenithObjs.nodeCount
    | some u => ((s.elected.heralded s.elect s.fab.lastZenith u).timed s.elect s.fab.lastZenith u).assignDue s.elect s.fab.lastZenith u := rfl

/-- The fabric has settled on a zenith, or on none. -/
structure Ruled (z : Option Nat) (t : State) : Prop where
  settled : t.fab.settled = true
  zenith : t.fab.zenith = z
  uid : t.obj Obj.ZENITH_UID = z.getD 0

namespace Ruled

variable {z : Option Nat} {s t : State}

theorem ite {c : Prop} [Decidable c] (hs : Ruled z s) (ht : Ruled z t) : Ruled z (if c then s else t) := by
  split <;> assumption

/-- What leaves the election's result leaves the rule. -/
theorem of_same (h : Ruled z s) (hs : t.fab.settled = s.fab.settled) (hz : t.fab.zenith = s.fab.zenith)
    (hu : t.obj Obj.ZENITH_UID = s.obj Obj.ZENITH_UID) : Ruled z t := ⟨hs.trans h.settled, hz.trans h.zenith, hu.trans h.uid⟩

theorem raise (h : Ruled z s) (src kind inst : Nat) : Ruled z (s.raise src kind inst) := by
  have hfab : (s.raise src kind inst).fab = s.fab := (State.raise_parts (p := 0x2010) _ _ _ rfl (Fr.refl _ s)).fab rfl
  exact h.of_same (by rw [hfab]) (by rw [hfab]) ((State.raise_reports _ _ _ _).obj (by decide))

theorem timebase (h : Ruled z s) (v : Nat) : Ruled z (s.set Obj.TIMEBASE_STATE v) := h.of_same rfl rfl (State.obj_set_other _ _ (by decide))

theorem assigned (h : Ruled z s) : Ruled z s.assign.zenithObjs := by
  obtain ⟨hsettled, hzenith⟩ := s.assign_fab
  refine ⟨?_, ?_, ?_⟩
  · rw [State.zenithObjs_fab, hsettled, h.settled]
  · rw [State.zenithObjs_fab, hzenith, h.zenith]
  · rw [State.zenithObjs_uid, hzenith, h.zenith]

theorem heralded (h : Ruled z s) (last : Option Nat) (u : Nat) : Ruled z (s.heralded z last u) := .ite (h.raise _ _ _) h

theorem timed (h : Ruled z s) (last : Option Nat) (u : Nat) : Ruled z (s.timed z last u) :=
  .ite (h.timebase 4) (.ite (.timebase (s := { s with fab := { s.fab with tLast := none } }) (h.of_same rfl rfl rfl) 1) h)

theorem assignReset (h : Ruled z s) (u : Nat) : Ruled z (s.assignReset u) := by
  have hown : Ruled z (if u = s.uid then s else { s with fab := { s.fab with assign := [] } }) := .ite h (h.of_same rfl rfl rfl)
  exact hown.of_same rfl rfl rfl

theorem assignDue (h : Ruled z s) (last : Option Nat) (u : Nat) : Ruled z (s.assignDue z last u) :=
  .ite (h.assignReset u).assigned (h.assignReset u)

/-- The clock and the boot follow the election. -/
theorem followed (h : Ruled z s) : Ruled z s.clkFollow.bootKick := by
  refine h.of_same ?_ ?_ ?_
  · rw [State.bootKick_fab, State.clkFollow_fab]
  · rw [State.bootKick_fab, State.clkFollow_fab]
  · rw [State.bootKick_objs _ _ (by decide), State.clkFollow_objs _ _ (by decide)]

end Ruled

theorem State.elected_ruled (s : State) : Ruled s.elect s.elected := by
  refine ⟨?_, ?_, ?_⟩
  · rw [State.elected, State.zenithObjs_fab]
    rfl
  · rw [State.elected, State.zenithObjs_fab]
    rfl
  · rw [State.elected, State.zenithObjs_uid]
    rfl

theorem State.settle_ruled (s : State) : Ruled s.elect s.settle := by
  rw [State.settle_eq]
  split
  · exact (s.elected_ruled.timebase 0).raise _ _ _
  · next u hu => exact (hu ▸ ((s.elected_ruled.heralded _ u).timed _ u).assignDue _ u)

theorem State.assignReset_objs (s : State) (u : Nat) : (s.assignReset u).objs = s.objs := by
  unfold State.assignReset
  dsimp only
  split <;> rfl

theorem State.assignDue_timebase (s : State) (z last : Option Nat) (u : Nat) :
    (s.assignDue z last u).obj Obj.TIMEBASE_STATE = s.obj Obj.TIMEBASE_STATE := by
  have hreset : (s.assignReset u).obj Obj.TIMEBASE_STATE = s.obj Obj.TIMEBASE_STATE := State.obj_congr (s.assignReset_objs u) _
  have hassign (x : State) : x.assign.zenithObjs.obj Obj.TIMEBASE_STATE = x.obj Obj.TIMEBASE_STATE := by
    rw [State.zenithObjs_objs _ _ (by decide), State.assign_objs _ _ (by decide)]
  unfold State.assignDue
  dsimp only
  split
  · rw [hassign, hreset]
  · exact hreset

/-- Without a zenith there is no timebase. -/
theorem State.settle_timebase_none {s : State} (h : s.elect = none) : s.settle.obj Obj.TIMEBASE_STATE = 0 := by
  rw [State.settle_eq]
  split
  · rw [(State.raise_reports _ _ _ _).obj (by decide), State.obj_set_same]
  · next hu => rw [h] at hu; cases hu

theorem State.elected_uid (s : State) : s.elected.uid = s.uid := by
  rw [State.uid, State.elected, State.zenithObjs_objs _ _ (by decide)]
  exact State.obj_set_other _ _ (by decide)

/-- The zenith is the timebase's source. -/
theorem State.settle_timebase_own {s : State} (h : s.elect = some s.uid) : s.settle.obj Obj.TIMEBASE_STATE = 4 := by
  rw [State.settle_eq]
  split
  · next hu => rw [h] at hu; cases hu
  · next u hu =>
    obtain rfl : u = s.uid := Option.some.inj (hu.symm.trans h)
    have huid : (s.elected.heralded s.elect s.fab.lastZenith s.uid).uid = s.uid := by
      unfold State.heralded
      split
      · exact ((State.raise_reports _ _ _ _).obj (by decide)).trans s.elected_uid
      · exact s.elected_uid
    rw [State.assignDue_timebase, State.timed, if_pos huid.symm, State.obj_set_same]

theorem exec_fabricSettled {s : State} (hon : s.fabOn = true) (hopen : s.fab.settled = false) :
    exec .fabricSettled s = .next s.settle.clkFollow.bootKick := congrArg Host.Outcome.next (if_pos (by simp [hon, hopen]))

/-! ### NODE_ID_SET (R372) -/

/-- A written ID is stored and journalled. -/
theorem State.applyWrite_nodeIdSet (s : State) (m : Master) (v : Nat) : s.applyWrite m Obj.NODE_ID_SET (keptBits Obj.NODE_ID_SET v) =
    ({ s with fab := { s.fab with stored := v } } : State).journal Obj.NODE_ID v := rfl

theorem State.journal_sameObjs (s : State) (k v : Nat) : s.SameObjs [Obj.OD_JOURNAL] (s.journal k v) := fun j hj =>
  (s.obj_journal k v j).trans (if_neg fun h => hj (by simp [h.1]))

theorem State.journal_read (s : State) (k v : Nat) : (s.journal k v).jrnl.buf.read (fun _ => 0) k = v + 1 := by
  rw [State.journal_buf]
  dsimp only
  exact Store.read_write_same _ _ _ _

/-- The write leaves the core alone, and the recorder with it. -/
theorem State.wrote_nodeIdSet_parts (s : State) (m : Master) (v : Nat) : Fr 0x880010010 s (s.wrote m Obj.NODE_ID_SET v) := by
  rw [State.wrote, State.applyWrite_nodeIdSet]
  exact State.answerWith_parts _ _ _ _ rfl (State.journal_parts _ _ rfl (Fr.mk_fab (Fr.refl _ s) rfl))

theorem exec_nodeIdSetWrite {s : State} {m : Master} {v : Nat} (hs : s.served m = true)
    (hc : s.writeCode m Obj.NODE_ID_SET (leBytes 1 v) = 0) : exec (.nodeIdSetWrite m v) s = .next (s.wrote m Obj.NODE_ID_SET v) := by
  have hparts := s.wrote_nodeIdSet_parts m v
  rw [← State.logDiff_of_same (hparts.core rfl) (hparts.grp rfl) (hparts.ph rfl) (hparts.strat rfl)]
  exact congrArg Host.Outcome.next (State.logged_write hs hc)

/-- Settles O42: a newer record replaces its node's; the zenith elected rules what follows; a better assignment is an ID adopted; every frame
of the node's own takes a sequence number; a written ID is stored. -/
theorem fabricTopologyAndAssignment : Obligations.FabricTopologyAndAssignment := by
  refine ⟨?held, ?own, ?expired, ?settled, ?assign, ?again, ?written⟩
  case held =>
    intro p src seq hops b s hst hlen huid hnew
    have hexec := exec_topo (src := src) (seq := seq) (hops := hops) hst hlen huid hnew
    refine ⟨_, hexec, by rw [State.topoHeld_recs, State.taken_fab], fun hquiet => ?_, (execTopo_parts p src seq hops b hexec).only (by decide)⟩
    have hparts := State.after_quiet (a := 0xc0002010) (fun x =>
      x.topoHeld p { node := 0xFF, src := src, type := 2, seq := seq, hops := hops, data := b }) hquiet rfl
      fun _ hx => State.topoHeld_parts p _ rfl hx
    exact hparts.only (by decide)
  case own =>
    intro s hon
    have hfab := s.topoSend_queues.fab
    refine ⟨_, rfl, ?_, ?_, (State.topoSend_parts (p := 0x80002010) rfl (Fr.refl _ s)).only (by decide), s.topoSend_objs⟩
    · rw [hfab, State.topoNumbered, if_pos hon]
      rfl
    · rw [hfab, State.topoNumbered, if_pos hon]
      exact State.seqs_fabSeq _ _
  case expired =>
    intro uid s h
    have hexec := exec_topoRecordExpiry h
    refine ⟨_, hexec, by rw [State.routesMove_fab, State.unsettle_fab], by rw [State.routesMove_fab, State.unsettle_fab], ?_,
      (execTopoRecordExpiry_parts uid hexec).only (by decide)⟩
    rw [State.routesMove_objs _ _ (by decide), State.unsettle_state]
    rfl
  case settled =>
    intro s hon hopen
    have hexec := exec_fabricSettled hon hopen
    obtain ⟨hsettled, hzenith, huid⟩ := s.settle_ruled.followed
    have htime : s.settle.clkFollow.bootKick.obj Obj.TIMEBASE_STATE = s.settle.obj Obj.TIMEBASE_STATE := by
      rw [State.bootKick_objs _ _ (by decide), State.clkFollow_objs _ _ (by decide)]
    exact ⟨_, hexec, hsettled, hzenith, huid, fun h => htime.trans (State.settle_timebase_none h),
      fun h => htime.trans (State.settle_timebase_own h), (execFabricSettled_parts hexec).only (by decide)⟩
  case assign =>
    intro p src seq hops id b s hst hone hmax hlen hown hentry hbetter
    have heq := State.assignRx_eq (f := { node := 0xFF, src := src, type := 3, seq := seq, hops := hops, data := b }) hst hone hmax hlen hown
    have hexec : exec (.assign p src seq hops b) s = .next (s.assignRx p _) := rfl
    have hjudge := s.fabOnward_judge p { node := 0xFF, src := src, type := 3, seq := seq, hops := hops, data := b }
    rw [← hjudge.uid] at hentry
    rw [← hjudge.assignFrom, ← hjudge.assignBetter] at hbetter
    obtain ⟨x, hx⟩ := State.assignTake_of_better hentry hbetter
    obtain ⟨hid, hgen, hstored, hadopted, hfrom, hstate⟩ := x.adoptFollowed _ _ _ _ (heq.trans hx)
    refine ⟨_, hexec, hid, hgen, hstored, hadopted, hfrom.trans (hjudge.assignFrom _ _), hstate, fun hquiet => ?_,
      (execAssign_parts p src seq hops b hexec).only (by decide)⟩
    have hparts := State.after_quiet (a := 0xc8012010) (fun x =>
      (x.fabOnward p { node := 0xFF, src := src, type := 3, seq := seq, hops := hops, data := b }).assignTake src b) hquiet rfl
      fun _ hx => State.assignTake_parts src b rfl (State.fabOnward_parts p _ rfl hx)
    rw [heq]
    exact hparts.only (by decide)
  case again =>
    intro s hon hzenith hsome
    have hexec : exec .assignRepeat s = .next s.assignSend := congrArg Host.Outcome.next (if_pos (by simp [hon, hzenith]))
    refine ⟨_, hexec, ?_, ?_, (State.assignSend_parts (p := 0x80002010) rfl (Fr.refl _ s)).only (by decide), s.assignSend_objs⟩
    · rw [s.assignSend_fab]
    · obtain ⟨b, l, hl⟩ := List.exists_cons_of_ne_nil hsome
      have hseqs := State.assignParts_seqs l b hon
      rw [← hl] at hseqs
      exact hseqs
  case written =>
    intro m v s hs hc
    have hanswer : Fr 0x800000010 (s.applyWrite m Obj.NODE_ID_SET (keptBits Obj.NODE_ID_SET (v % 256))) (s.wrote m Obj.NODE_ID_SET v) :=
      State.answerWith_parts _ _ _ _ rfl (Fr.refl _ _)
    refine ⟨_, exec_nodeIdSetWrite hs hc, State.answerWith_code _ _ _ _ _, ?_, ?_, (s.wrote_nodeIdSet_parts m v).only (by decide), ?_⟩
    · rw [hanswer.fab rfl, State.applyWrite_nodeIdSet, State.journal_fab]
    · rw [hanswer.jrnl rfl, State.applyWrite_nodeIdSet, State.journal_read]
    · exact .trans (t := s.applyWrite m Obj.NODE_ID_SET (keptBits Obj.NODE_ID_SET (v % 256)))
        (.mono (State.journal_sameObjs { s with fab := { s.fab with stored := v % 256 } } _ _) (by decide))
        ((State.answerWith_good_objs _ _ _ _).mono (by decide))

end Sys2Proof.Machine
end

section
/-!
PROOFS. Frames forwarded and object requests over the fabric (O43).
-/
namespace Sys2Proof.Machine

/-! ### Forwarding (R358, R361, R373) -/

/-- A LOCKED or UP port takes its frames. -/
theorem portState_of_open {n : Nat} (h : [2, 3].contains n = true) : 2 ≤ n ∧ n ≠ 4 := by
  have hcases : n = 2 ∨ n = 3 := by simpa using h
  omega

/-- A routed frame for another node is heard, and goes on as far as its hops allow. -/
theorem exec_frameForward_routed {s : State} {p : Port} {b : List Byte} {f : Frame}
    (hst : [2, 3].contains (s.obj (Obj.PORT_STATE (p.num + 1))) = true) (hf : frameOf b = some f) (htype : frameType f.type = true)
    (hhello : f.type ≠ 1) (hlink : f.type ≠ 0x4C) (hbcast : f.node ≠ 0xFF) (hown : f.node ≠ s.nodeId) :
    exec (.frameForward p b false) s = .next ((s.taken p).hopsOk f fun f s => s.fabRoute f) := by
  have hexec : exec (.frameForward p b false) s = .next (s.frameIn p b false) := rfl
  have hlock := (portState_of_open hst).1
  rw [hexec, State.frameIn, if_neg (by omega), hf]
  dsimp only
  rw [if_neg (by decide), State.forward, State.fabTake_open (.inl hst)]
  dsimp only
  rw [if_neg (by decide), if_neg (by simp [htype]), if_neg (by simp [hhello, hlink]), if_neg hbcast, if_neg (by simp [hown])]

/-- A frame that has made its hops is dropped and reported. -/
def State.hopLimit (s : State) (f : Frame) : State := (s.fabTally 7).raise 0x0E 9 f.src

theorem State.hopsOk_over {s : State} {f : Frame} (k : Frame → State → State) (h : 64 ≤ f.hops) : s.hopsOk f k = s.hopLimit f := if_pos h

theorem State.hopsOk_under {s : State} {f : Frame} (k : Frame → State → State) (h : f.hops < 64) :
    s.hopsOk f k = k { f with hops := f.hops + 1 } s := if_neg (by omega)

theorem State.hopLimit_fab (s : State) (f : Frame) : (s.hopLimit f).fab = s.fab :=
  (State.raise_parts (p := 0x2010) _ _ _ rfl (State.fabTally_parts 7 rfl (Fr.refl _ s))).fab rfl

theorem State.hopLimit_counted (s : State) (f : Frame) :
    (s.hopLimit f).obj (Obj.FAB_STATS 7) = satInc 0xFFFFFFFF (s.obj (Obj.FAB_STATS 7)) :=
  ((State.raise_reports _ _ _ _).obj (by decide)).trans (State.obj_set_same _ _ _)

theorem State.taken_portUp (s : State) (p q : Port) : (s.taken p).portUp q = s.portUp q :=
  State.portUp_congr (s.taken_objs p _ (by cases q <;> decide))

/-- A frame of another's that has a way and room on it joins the queue there. -/
theorem State.fabRoute_taken {s : State} (p : Port) {f : Frame} {q : Port} {n : Nat} (hway : s.routeTo f.node = some (q, n))
    (hup : s.portUp q = true)
    (hroom : ((s.fab.ports.get q).queue.filter fun e => e.1 == framePrio f.type).length < queueRoom (framePrio f.type)) :
    (s.taken p).fabRoute f = (s.taken p).modFab q fun x => { x with queue := x.queue ++ [(framePrio f.type, f)] } :=
  State.fabRoute_of_room (((s.taken_map p).routeTo _).trans hway) ((s.taken_portUp p q).trans hup) (by rwa [State.taken_fab])

/-- A frame that fails its checks. -/
theorem exec_frameForward_bad {s : State} {p : Port} {b : List Byte} {code : Bool} (hst : 2 ≤ s.obj (Obj.PORT_STATE (p.num + 1)))
    (hbad : frameOf b = none ∨ code = true) : exec (.frameForward p b code) s = .next (s.fabBad p) := by
  have hexec : exec (.frameForward p b code) s = .next (s.frameIn p b code) := rfl
  rw [hexec, State.frameIn, if_neg (by omega)]
  cases hf : frameOf b with
  | none => rfl
  | some f =>
    obtain rfl : code = true := hbad.resolve_left (by simp [hf])
    rfl

/-! ### Requests served (R376-R378) -/

/-- A new request of a node in the fabric, on a port that takes it. -/
theorem State.fabRequest_new {s : State} {p : Port} {src obj type : Nat} {b : List Byte} {f : State → State}
    (hst : [2, 3].contains (s.obj (Obj.PORT_STATE (p.num + 1))) = true) (hsrc : src ≠ 0) (hserved : s.served .F = true)
    (hnew : (s.taken p).fabKept src (byteAt b 0) = none) : s.fabRequest p src obj type b f =
      if 4 ≤ (s.taken p).fabServed src then (s.taken p).fabBusy src obj type b else f (s.taken p) := by
  rw [State.fabRequest, State.fabTake_open (.inl hst)]
  dsimp only
  rw [if_neg (by decide), if_neg (by simp [hsrc, hserved]), hnew]

/-- The response is kept at the head of those answered, and then sent. -/
theorem State.fabAnswer_kept (s : State) (src txn : Nat) (f : Frame) :
    (s.fabAnswer src txn f).fab.answered.head? = some (src, txn, s.now, (s.fabSeq f).1) := by
  have hroute (x : State) (g : Frame) : (x.fabRoute g).fab.answered = x.fab.answered := by rw [(x.fabRoute_queues g).fab]
  unfold State.fabAnswer
  dsimp only
  rw [hroute]
  rfl

theorem State.readRsp_kept (s : State) (src obj : Nat) (b : List Byte) (status ofs total : Nat) (d : List Byte) :
    ∃ f : Frame, (s.readRsp src obj b status ofs total d).fab.answered.head? = some (src, byteAt b 0, s.now, f) ∧ f.node = src ∧
      f.type = 0x11 ∧ f.data = leBytes 1 (byteAt b 0) ++ leBytes 1 (byteAt b 1) ++ leBytes 1 status ++ leBytes 1 0 ++ leBytes 4 ofs ++
        leBytes 4 total ++ d := ⟨_, s.fabAnswer_kept _ _ _, rfl, rfl, rfl⟩

theorem State.writeRsp_kept (s : State) (src obj : Nat) (b : List Byte) (status : Nat) :
    ∃ f : Frame, (s.writeRsp src obj b status).fab.answered.head? = some (src, byteAt b 0, s.now, f) ∧ f.node = src ∧ f.type = 0x13 ∧
      f.data = leBytes 1 (byteAt b 0) ++ leBytes 1 (byteAt b 1) ++ leBytes 1 status ++ leBytes 1 0 :=
  ⟨_, s.fabAnswer_kept _ _ _, rfl, rfl, rfl⟩

/-- A read from the start: one segment, and its response. -/
theorem State.fabRead_start {s : State} {src obj : Nat} {b : List Byte} (hlen : b.length = 6) (hofs : leAt b 2 4 = 0) :
    s.fabRead src obj b = (s.readSegment .F (obj * 256 + byteAt b 1) 0 244).2.2.2.readRsp src obj b
      (s.readSegment .F (obj * 256 + byteAt b 1) 0 244).1 0 (s.readSegment .F (obj * 256 + byteAt b 1) 0 244).2.1
      (s.readSegment .F (obj * 256 + byteAt b 1) 0 244).2.2.1 := by
  rw [State.fabRead, hofs]
  exact if_neg (by simp [hlen])

theorem State.readSegment_now (s : State) (k : Nat) : (s.readSegment .F k 0 244).2.2.2.now = s.now :=
  (State.readSegment_parts (p := 0x880016010) .F k 0 244 rfl (Fr.refl _ s)).now rfl

theorem State.fabWrite_now (s : State) (obj : Nat) (b : List Byte) : (s.fabWrite obj b).2.now = s.now :=
  (State.fabWrite_parts (p := 0xfff85ffdf8) obj b rfl (Fr.refl _ s)).now rfl

/-- A write carried out, with its response. -/
def State.written (s : State) (src obj : Nat) (b : List Byte) : State := (s.fabWrite obj b).2.writeRsp src obj b (s.fabWrite obj b).1

theorem exec_writeReq_one {s : State} {p : Port} {src seq hops obj : Nat} {b : List Byte}
    (hst : [2, 3].contains (s.obj (Obj.PORT_STATE (p.num + 1))) = true) (hsrc : src ≠ 0) (hserved : s.served .F = true)
    (hnew : (s.taken p).fabKept src (byteAt b 0) = none) (hroom : (s.taken p).fabServed src < 4) :
    exec (.writeReq p src seq hops obj false b) s = .next (s.logDiff ((s.taken p).written src (obj % 4096) b)) := by
  have hrequest := State.fabRequest_new (obj := obj % 4096) (type := 0x12) (f := fun s => s.written src (obj % 4096) b) hst hsrc hserved hnew
  rw [if_neg (by omega)] at hrequest
  exact congrArg (fun t => Host.Outcome.next (s.logDiff t)) hrequest

/-- What tells whether the fabric is served stands while a frame is heard and forwarded. -/
theorem State.fabOnward_served (s : State) (p : Port) (f : Frame) :
    ((s.taken p).fabOnward p f).served .F = s.served .F ∧ ((s.taken p).fabOnward p f).nodeId = s.nodeId := by
  have hparts : Fr 0xd00120f0 s ((s.taken p).fabOnward p f) := State.fabOnward_parts p f rfl (State.taken_parts p rfl (Fr.refl _ s))
  have hobj {k : Nat} (hk : k ∈ [Obj.BRINGUP_STEP, Obj.VARIANT, Obj.NODE_ID]) : ((s.taken p).fabOnward p f).obj k = s.obj k :=
    ((State.fabOnward_queues _ p f).objs.spares (by decide) hk).trans ((s.taken_objs p).spares (by decide) hk)
  have hstep : ((s.taken p).fabOnward p f).obj Obj.BRINGUP_STEP = s.obj Obj.BRINGUP_STEP := hobj (by decide)
  have hbring : ((s.taken p).fabOnward p f).bringing = s.bringing := congrArg (· != 0) hstep
  have hvar : ((s.taken p).fabOnward p f).variant = s.variant := State.variant_congr (hobj (by decide))
  refine ⟨?_, hobj (by decide)⟩
  simp only [State.served, State.serving, hbring, hparts.aon rfl, hparts.strat rfl, hvar, hstep]

theorem exec_writeReq_all {s : State} {p : Port} {src seq hops obj : Nat} {b : List Byte}
    (hst : [2, 3].contains (s.obj (Obj.PORT_STATE (p.num + 1))) = true) (hsrc : src ≠ 0) (hserved : s.served .F = true)
    (hother : src ≠ s.nodeId) : exec (.writeReq p src seq hops obj true b) s = .next (s.logDiff (((s.taken p).fabOnward p {
      node := 0xFF, obj := obj % 4096, src := src, type := 0x12, seq := seq, hops := hops, data := b }).fabWrite (obj % 4096) b).2) := by
  have hall : s.writeAll p { node := 0xFF, obj := obj % 4096, src := src, type := 0x12, seq := seq, hops := hops, data := b } =
      (((s.taken p).fabOnward p {
        node := 0xFF, obj := obj % 4096, src := src, type := 0x12, seq := seq, hops := hops, data := b }).fabWrite (obj % 4096) b).2 := by
    obtain ⟨hserves, hnode⟩ := s.fabOnward_served p
      { node := 0xFF, obj := obj % 4096, src := src, type := 0x12, seq := seq, hops := hops, data := b }
    rw [State.writeAll, State.fabTake_open (.inl hst)]
    dsimp only
    rw [if_neg (by decide), if_neg (by simp [hsrc, hserves, hserved, hnode, hother])]
  exact congrArg (fun t => Host.Outcome.next (s.logDiff t)) hall

/-! ### The node's own requests (R379, R380) -/

theorem State.fabReq?_taken (s : State) (p : Port) (txn : Nat) : (s.taken p).fabReq? txn = s.fabReq? txn := by
  rw [State.fabReq?, State.taken_fab, State.fabReq?]

theorem exec_fabricResponse {s : State} {p : Port} {src type : Nat} {b : List Byte} {r : FabReq}
    (hst : [2, 3].contains (s.obj (Obj.PORT_STATE (p.num + 1))) = true) (hserving : s.serving = true)
    (hreq : s.fabReq? (byteAt b 0) = some r) (hnode : r.frame.node = src) (htype : type = r.frame.type + 1) :
    exec (.fabricResponse p src type b) s = .next ((s.taken p).fabReqEnd r (byteAt b 2 = 0)) := by
  have hexec : exec (.fabricResponse p src type b) s = execFabricResponse p src type b s := rfl
  rw [hexec, execFabricResponse, State.fabTake_open (.inl hst)]
  dsimp only
  rw [if_neg (by simp [hserving]), State.fabReq?_taken, hreq]
  dsimp only
  rw [if_pos (by simp [hnode, htype])]

/-- A request that is over is none of the node's. -/
theorem State.fabReqEnd_gone (s : State) (r : FabReq) (good : Bool) : ((s.fabReqEnd r good).fab.reqs.any fun x => x.txn == r.txn) = false := by
  have hdrop : ((s.fabReqDrop r.txn).fab.reqs.any fun x => x.txn == r.txn) = false := by simp [State.fabReqDrop]
  have hrefused (x : State) (i : Nat) : (x.seqRefused i).fab = x.fab := (State.seqRefused_parts (p := 0x100006010) i rfl (Fr.refl _ x)).fab rfl
  unfold State.fabReqEnd
  dsimp only
  split
  · split
    · exact hdrop
    · rw [hrefused, hdrop]
  · exact hdrop

/-- A request that ends without a refusal to count is dropped, and that is all. -/
theorem State.fabReqEnd_quiet {s : State} {r : FabReq} {good : Bool} (h : r.who = none ∨ good = true) :
    s.fabReqEnd r good = s.fabReqDrop r.txn := by
  unfold State.fabReqEnd
  dsimp only
  split
  · next i hi => rw [if_pos (h.resolve_left (by simp [hi]))]
  · rfl

/-- One more try of a request. -/
def State.retried (s : State) (txn : Nat) : State :=
  { s with fab := { s.fab with reqs := s.fab.reqs.map fun (x : FabReq) => if x.txn = txn then { x with tries := x.tries + 1 } else x } }

theorem exec_fabricRequestTimeout {s : State} {txn : Nat} {r : FabReq} (hreq : s.fabReq? txn = some r) :
    exec (.fabricRequestTimeout txn) s = .next (if r.tries < 3 then (s.retried txn).fabSend r.frame else s.fabReqEnd r false) := by
  have hexec : exec (.fabricRequestTimeout txn) s = execFabricRequestTimeout txn s := rfl
  rw [hexec, execFabricRequestTimeout, hreq]
  rfl

theorem State.fabReq?_txn {s : State} {txn : Nat} {r : FabReq} (h : s.fabReq? txn = some r) : r.txn = txn := by
  simpa using List.find?_some h

/-! ### NOTIFY (R381) -/

/-- The NOTIFY frame. -/
def State.fabNotify (s : State) : Frame := {
  node := 0xFF, src := s.nodeId, type := 0x18
  data := leBytes 1 s.modeNow ++ leBytes 1 (if s.faultSummary % 16 = 15 then 0xFF else s.faultSummary % 16) ++
    leBytes 2 (s.obj Obj.GRANT_NOW_TOTAL) ++ leBytes 2 (s.obj Obj.PACK_SOC) ++ leBytes 1 (s.lState .east) ++ leBytes 1 (s.lState .west) }

theorem exec_notifySend {s : State} (hserved : s.served .F = true) (hon : s.fabOn = true) :
    exec .notifySend s = .next (s.fabBroadcast s.fabNotify) := congrArg Host.Outcome.next (if_pos (by simp [hserved, hon]))

/-- Settles O43: a frame is heard before anything else; then it goes on, is answered or ends a request, each in the state that leaves. -/
theorem fabricFramesAndRequests : Obligations.FabricFramesAndRequests := by
  refine ⟨?routed, ?bad, ?read, ?write, ?response, ?timeout, ?notify⟩
  case routed =>
    intro p q b f n s hst hf htype hhello hlink hbcast hown
    have hexec := exec_frameForward_routed hst hf htype hhello hlink hbcast hown
    have hparts := (execFrameForward_parts p b false hexec).only (l := [.objs, .core, .grp, .ph, .col, .jrnl, .env, .link, .fab]) (by decide)
    refine ⟨fun hover => ?_, fun hunder hway hup hroom => ?_⟩
    · rw [State.hopsOk_over _ hover] at hexec hparts
      refine ⟨_, hexec, hparts, ?_, by rw [State.hopLimit_fab, State.taken_fab]⟩
      rw [State.hopLimit_counted, s.taken_objs p _ (by decide)]
    · have hroute := State.fabRoute_taken (f := { f with hops := f.hops + 1 }) p hway hup hroom
      rw [State.hopsOk_under _ hunder, hroute] at hexec hparts
      refine ⟨_, hexec, ?_, fun hquiet => ?_, hparts⟩
      · rw [State.ports_modFab, State.taken_fab]
      · have hqueue := State.after_quiet (a := 0xc0000010) (fun x => x.modFab q fun y =>
          { y with queue := y.queue ++ [(framePrio f.type, { f with hops := f.hops + 1 })] }) hquiet rfl
          fun _ hx => State.modFab_parts q _ rfl hx
        exact ⟨hqueue.only (by decide), State.taken_objs_of_quiet hquiet⟩
  case bad =>
    intro p b code s hst hbad
    exact ⟨_, exec_frameForward_bad hst hbad, s.fabBad_counted p, fun q => s.fabBad_port FabPort.queue p q fun _ _ _ => rfl,
      (State.fabBad_parts (p := 0x80002010) p rfl (Fr.refl _ s)).only (by decide), s.fabBad_objs p⟩
  case read =>
    intro p src obj b s x hst hsrc hserved hx hnew
    obtain rfl : x = s.taken p := hx.trans (by rw [State.fabTake_open (.inl hst)])
    have hrequest := State.fabRequest_new (obj := obj % 4096) (type := 0x10) (f := fun s => s.fabRead src (obj % 4096) b) hst hsrc hserved hnew
    have hexec : exec (.readReq p src obj b) s = .next (s.fabRequest p src (obj % 4096) 0x10 b fun s => s.fabRead src (obj % 4096) b) := rfl
    rw [hrequest] at hexec
    have hparts := (execReadReq_parts p src obj b hexec).only (l := [.objs, .core, .grp, .ph, .col, .recs, .jrnl, .env, .link, .fab, .srv])
      (by decide)
    refine ⟨fun hbusy => ?_, fun hroom hlen hofs => ?_⟩
    · refine ⟨_, hexec, hparts, ?_⟩
      rw [if_pos hbusy, State.fabBusy, if_pos rfl]
      simp only [List.append_assoc]
    · rw [if_neg (by omega)] at hexec hparts
      have hread := State.fabRead_start (s := s.taken p) (src := src) (obj := obj % 4096) hlen hofs
      obtain ⟨f, hkept, hnode, htype, hdata⟩ := State.readRsp_kept _ src (obj % 4096) b _ 0 _ _
      rw [← hread, State.readSegment_now, State.taken_now] at hkept
      refine ⟨_, f, hexec, hkept, hnode, htype, hdata, fun hquiet => ?_, hparts⟩
      have hserve := State.after_quiet (a := 0x8c0016010) (fun x => x.fabRead src (obj % 4096) b) hquiet rfl
        fun _ hx => State.fabRead_parts src _ b rfl hx
      exact hserve.only (by decide)
  case write =>
    intro p src seq hops obj b s x hst hsrc hserved hx
    obtain rfl : x = s.taken p := hx.trans (by rw [State.fabTake_open (.inl hst)])
    refine ⟨fun hnew hroom => ?_, fun hother u hu => ?_⟩
    · have hexec := exec_writeReq_one (seq := seq) (hops := hops) (obj := obj) hst hsrc hserved hnew hroom
      obtain ⟨f, hkept, hfrom⟩ := State.writeRsp_kept ((s.taken p).fabWrite (obj % 4096) b).2 src (obj % 4096) b _
      rw [State.fabWrite_now, State.taken_now] at hkept
      refine ⟨_, f, hexec, (execWriteReq_parts p src seq hops obj false b hexec).only (by decide), ?_, hfrom⟩
      rw [(s.logDiff_frame _).fab rfl]
      exact hkept
    · subst hu
      have hreports := State.logDiff_reports s (((s.taken p).fabOnward p {
        node := 0xFF, obj := obj % 4096, src := src, type := 0x12, seq := seq, hops := hops, data := b }).fabWrite (obj % 4096) b).2
      exact ⟨_, exec_writeReq_all hst hsrc hserved hother, (hreports.parts (p := 0x82010) rfl).only (by decide), hreports.2⟩
  case response =>
    intro p src type b r s hst hserving hreq hnode htype
    have hexec := exec_fabricResponse hst hserving hreq hnode htype
    refine ⟨_, hexec, State.fabReqEnd_gone _ _ _, fun hgood => ?_, (execFabricResponse_parts p src type b hexec).only (by decide)⟩
    rw [State.fabReqEnd_quiet (by simpa using hgood)]
    refine ⟨(s.taken_frame p).seqs rfl, fun hquiet => ?_⟩
    have hdrop := State.after_quiet (a := 0xc0000010) (fun x => x.fabReqDrop r.txn) hquiet rfl fun _ hx => State.fabReqDrop_parts _ rfl hx
    exact ⟨hdrop.only (by decide), State.taken_objs_of_quiet hquiet⟩
  case timeout =>
    intro txn r s hreq
    have hexec := exec_fabricRequestTimeout hreq
    refine ⟨fun hagain => ?_, fun hover => ?_⟩
    · rw [if_pos hagain] at hexec
      refine ⟨_, hexec, ?_, (State.fabSend_parts (p := 0x80002010) _ rfl (Fr.mk_fab (Fr.refl _ s) rfl)).only (by decide)⟩
      rw [(State.fabSend_queues _ _).fab]
      rfl
    · rw [if_neg (by omega)] at hexec
      refine ⟨_, hexec, ?_, (State.fabReqEnd_parts (p := 0x180006010) r false rfl (Fr.refl _ s)).only (by decide)⟩
      rw [← State.fabReq?_txn hreq]
      exact s.fabReqEnd_gone r false
  case notify =>
    intro s hserved hon
    have hexec := exec_notifySend hserved hon
    refine ⟨_, hexec, ?_, (execNotifySend_parts hexec).only (by decide), s.fabBroadcast_objs _⟩
    rw [(State.fabBroadcast_queues _ hon).fab]
    exact s.seqs_fabSeq s.fabNotify

end Sys2Proof.Machine
end

section
/-!
PROOFS. Fabric boot and the timebase (O44).
-/
namespace Sys2Proof.Machine

/-! ### The boot server's answer (R387, R388) -/

/-- The image asked for, where the active bank holds it. -/
def State.bootImg (s : State) (b : List Byte) : Option (List Byte) :=
  if s.activeBank = 0 then none else (s.bank s.activeBank).image? (byteAt b 0)

theorem State.bootImg_taken (s : State) (p : Port) (b : List Byte) : (s.taken p).bootImg b = s.bootImg b := by
  have hactive : (s.taken p).activeBank = s.activeBank := s.taken_objs p _ (by decide)
  have htabs : (s.taken p).tabs = s.tabs := (s.taken_frame p).tabs rfl
  simp only [State.bootImg, hactive, State.bank, htabs]

/-- BOOT_DATA for a request: kind, status, offset, length and bytes. -/
def State.bootFrame (s : State) (src : Nat) (b : List Byte) : Frame := {
  node := src, src := s.nodeId, type := 0x21
  data := leBytes 1 (byteAt b 0) ++ leBytes 1 (b2n (s.bootImg b).isNone) ++ leBytes 4 (leAt b 2 4) ++
    leBytes 4 ((s.bootImg b).elim 0 List.length) ++ (s.bootImg b).elim [] fun i => slice i (leAt b 2 4) (min 240 (leAt b 6 2)) }

theorem exec_bootReq {s : State} {p : Port} {src : Nat} {b : List Byte} (hst : [2, 3].contains (s.obj (Obj.PORT_STATE (p.num + 1))) = true)
    (hserved : s.served .F = true) (hsrc : src ≠ 0) (hsrv : s.obj Obj.FAB_BOOT_SRV = 1) (hlen : b.length = 8) :
    exec (.bootReq p src b) s = .next ((s.taken p).fabSend ((s.taken p).bootFrame src b)) := by
  have hexec : exec (.bootReq p src b) s = execBootReq p src b s := rfl
  rw [hexec, execBootReq, State.fabTake_open (.inl hst)]
  dsimp only
  rw [if_pos (by simp [hserved, hsrc, hsrv, hlen])]
  rfl

/-- A frame of the node's own with a way and room on it, once a frame was heard. -/
theorem State.fabSend_taken {s : State} (p : Port) {f : Frame} {q : Port} {n : Nat} (hway : s.routeTo f.node = some (q, n))
    (hup : s.portUp q = true)
    (hroom : ((s.fab.ports.get q).queue.filter fun e => e.1 == framePrio f.type).length < queueRoom (framePrio f.type)) :
    (s.taken p).fabSend f = ((s.taken p).fabSeq f).2.modFab q fun x =>
      { x with queue := x.queue ++ [(framePrio f.type, ((s.taken p).fabSeq f).1)] } := by
  have hmap : SameMap s ((s.taken p).fabSeq f).2 := ⟨(s.taken_map p).recs, (s.taken_map p).own⟩
  have hports : (s.taken p).fab.ports = s.fab.ports := by rw [s.taken_fab]
  rw [← hports] at hroom
  exact State.fabRoute_of_room (s := ((s.taken p).fabSeq f).2) (f := ((s.taken p).fabSeq f).1) ((hmap.routeTo _).trans hway)
    ((s.taken_portUp p q).trans hup) hroom

/-! ### The node's own boot (R387, R388) -/

theorem exec_bootData {s : State} {p : Port} {src n : Nat} {b : List Byte} {r : FabReq}
    (hst : [2, 3].contains (s.obj (Obj.PORT_STATE (p.num + 1))) = true) (hboot : s.fab.boot = some n) (hreq : s.fabReq? 256 = some r)
    (hnode : r.frame.node = src) (hkind : byteAt b 0 = n) (hofs : leAt b 2 4 = s.fab.bootData.length) :
    exec (.bootData p src b) s = .next ((s.taken p).bootTake n b) := by
  have hexec : exec (.bootData p src b) s = execBootData p src b s := rfl
  rw [hexec, execBootData, State.fabTake_open (.inl hst)]
  dsimp only
  rw [if_neg (by decide), State.fabReq?_taken, hreq, hboot]
  dsimp only
  rw [if_pos (by simp [hnode, hkind, hofs])]

/-- Bytes of an image received. -/
def State.bootJoin (s : State) (b : List Byte) : State := { s with fab := { s.fab with bootData := s.fab.bootData ++ b.drop 10 } }

theorem State.bootTake_data {s : State} {n : Nat} {b : List Byte} (h : byteAt b 1 = 0) : s.bootTake n b =
    if leAt b 6 4 ≤ (s.fab.bootData ++ b.drop 10).length then (s.bootJoin b).bootImage n else (s.bootJoin b).bootAsk := by
  rw [State.bootTake, h]
  rfl

/-- A kind that the server does not hold is passed over. -/
theorem State.bootTake_none {s : State} {n : Nat} {b : List Byte} (h : byteAt b 1 = 1) : s.bootTake n b = s.bootNext n := by
  rw [State.bootTake, h]
  rfl

/-- The fetch given up (R389). -/
def State.bootOver (s : State) : State :=
  { s with fab := { s.fab with boot := none, bootData := [], reqs := s.fab.reqs.filter fun (r : FabReq) => r.who.isSome } }

theorem exec_fabricBootFail {s : State} {n : Nat} (hboot : s.fab.boot = some n) (hstep : s.obj Obj.BRINGUP_STEP = 6) (hn : n ≤ 10) :
    exec .fabricBootFail s = .next ((s.bootOver.raise 0x0E 0x0C (if n = 0 then 0xFF else n)).loadBanks 2) := by
  have hexec : exec .fabricBootFail s = execFabricBootFail s := rfl
  rw [hexec, execFabricBootFail, hboot]
  dsimp only
  rw [if_pos ⟨hstep, hn⟩]
  rfl

/-! ### The zenith's marker (R382, R383) -/

/-- A port that is UP takes the marker of a count. -/
def State.markerOut (s : State) (n : Nat) (p : Port) (ofs : Nat) : State :=
  if s.portUp p then s.modFab p fun x => { x with marker := some (n, ofs % 65536) } else s

theorem State.markerOut_same {s : State} {p : Port} (n ofs : Nat) (h : s.portUp p = true) :
    ((s.markerOut n p ofs).fab.ports.get p).marker = some (n, ofs % 65536) := by
  rw [State.markerOut, if_pos h, State.ports_modFab]

theorem State.markerOut_other (s : State) {p q : Port} (n ofs : Nat) (h : q ≠ p) :
    (s.markerOut n p ofs).fab.ports.get q = s.fab.ports.get q := by
  unfold State.markerOut
  split
  · exact State.ports_modFab_other _ _ h
  · rfl

theorem State.markerOut_portUp (s : State) (p q : Port) (n ofs : Nat) : (s.markerOut n p ofs).portUp q = s.portUp q := by
  unfold State.markerOut
  split <;> rfl

/-- The markers out of both ports. -/
def State.markersOut (s : State) (e w : Nat) : State := (s.markerOut s.fab.count .east e).markerOut s.fab.count .west w

theorem exec_markerEmit {s : State} (e w : Nat) (hon : s.fabOn = true) (hz : s.fab.zenith = some s.uid) (hsrc : s.obj Obj.TIMEBASE_STATE = 4) :
    exec (.markerEmit e w) s =
      .next { s.markersOut e w with fab := { (s.markersOut e w).fab with count := (s.fab.count + 1) % 256 } } :=
  congrArg Host.Outcome.next (if_pos (by simp [hon, hz, hsrc]))

/-! ### A marker received (R383-R385) -/

/-- The objects of the timebase. -/
def timebaseObjs : List Nat := [Obj.TIMEBASE_COUNT, Obj.TIMEBASE_OFS, Obj.TIMEBASE_ERR, Obj.TIMEBASE_STATE]

/-- The local instant of a marker. -/
def State.markerInstant (s : State) (p : Port) (ofs t : Nat) : Int := (t : Int) - ofs - s.obj (Obj.PORT_DELAY (p.num + 1))

/-- COUNT and OFS of a marker. -/
def State.markerNoted (s : State) (count ofs : Nat) : State := (s.set Obj.TIMEBASE_COUNT count).set Obj.TIMEBASE_OFS ofs

/-- The first instant starts the timebase. -/
def State.markerFirst (s : State) (count ofs : Nat) (inst : Int) : State :=
  { s.markerNoted count ofs with fab := { s.fab with tLast := some inst } }.set Obj.TIMEBASE_STATE 1

/-- A later one gives the period, and the error against what the last period foretold. -/
def State.markerNext (s : State) (count ofs : Nat) (inst last : Int) : State :=
  let n := periodsIn (inst - last) s.fab.tPeriod
  let x : State := { s.markerNoted count ofs with fab := { s.fab with tLast := some inst, tPeriod := (inst - last) / n } }
  (x.setI Obj.TIMEBASE_ERR 16 (clampI (-32768) 32767 (inst - (last + n * s.fab.tPeriod)))).set Obj.TIMEBASE_STATE
    (if (s.markerNoted count ofs).obj Obj.TIMEBASE_STATE = 3 then 1 else 2)

theorem State.markerTake_eq (s : State) (p : Port) (count ofs t : Nat) : s.markerTake p count ofs t = match s.fab.tLast with
    | none => s.markerFirst count ofs (s.markerInstant p ofs t)
    | some last => s.markerNext count ofs (s.markerInstant p ofs t) last := rfl

theorem State.markerNoted_objs (s : State) (count ofs : Nat) :
    s.SameObjs [Obj.TIMEBASE_COUNT, Obj.TIMEBASE_OFS] (s.markerNoted count ofs) :=
  (s.set_sameObjs _ (by decide)).trans (State.set_sameObjs _ _ (by decide))

theorem State.markerNoted_told (s : State) (count ofs : Nat) :
    (s.markerNoted count ofs).obj Obj.TIMEBASE_COUNT = count ∧ (s.markerNoted count ofs).obj Obj.TIMEBASE_OFS = ofs :=
  ⟨(State.obj_set_other _ _ (by decide)).trans (State.obj_set_same _ _ _), State.obj_set_same _ _ _⟩

/-- After COUNT and OFS a marker writes the error and the state. -/
theorem State.markerTake_objs (s : State) (p : Port) (count ofs t : Nat) :
    (s.markerNoted count ofs).SameObjs [Obj.TIMEBASE_ERR, Obj.TIMEBASE_STATE] (s.markerTake p count ofs t) := by
  have hset (x : State) (k v : Nat) (hk : k ∈ [Obj.TIMEBASE_ERR, Obj.TIMEBASE_STATE]) :
      x.SameObjs [Obj.TIMEBASE_ERR, Obj.TIMEBASE_STATE] (x.set k v) := x.set_sameObjs v hk
  rw [State.markerTake_eq]
  split
  · exact hset { s.markerNoted count ofs with fab := _ } _ _ (by decide)
  · exact (hset { s.markerNoted count ofs with fab := _ } _ _ (by decide)).trans (hset _ _ _ (by decide))

theorem State.markerTake_last (s : State) (p : Port) (count ofs t : Nat) :
    (s.markerTake p count ofs t).fab.tLast = some (s.markerInstant p ofs t) := by
  rw [State.markerTake_eq]
  split <;> rfl

/-- ACQUIRING at the first instant and after a loss, else LOCKED (R384, R385). -/
theorem State.markerTake_state (s : State) (p : Port) (count ofs t : Nat) : (s.markerTake p count ofs t).obj Obj.TIMEBASE_STATE =
    if s.fab.tLast = none ∨ s.obj Obj.TIMEBASE_STATE = 3 then 1 else 2 := by
  rw [State.markerTake_eq]
  split
  · next h => rw [if_pos (.inl h), State.markerFirst, State.obj_set_same]
  · next h =>
    rw [State.markerNext, State.obj_set_same, s.markerNoted_objs count ofs _ (by decide)]
    simp [h]

/-- The period and the error against the last instant. -/
theorem State.markerTake_next {s : State} (p : Port) (count ofs t : Nat) {l d k : Int} (hl : s.fab.tLast = some l)
    (hd : d = s.markerInstant p ofs t - l) (hk : k = periodsIn d s.fab.tPeriod) :
    (s.markerTake p count ofs t).fab.tPeriod = d / k ∧ (s.markerTake p count ofs t).obj Obj.TIMEBASE_ERR =
      toCode 16 (clampI (-32768) 32767 (d - k * s.fab.tPeriod)) := by
  subst hk hd
  rw [State.markerTake_eq, hl]
  refine ⟨rfl, ?_⟩
  dsimp only
  rw [State.markerNext, State.obj_set_other _ _ (by decide), State.setI, State.obj_set_same, Int.sub_sub]

/-- The marker goes on out of the other port, where that is UP (R383). -/
def State.markerPassed (s : State) (p : Port) (count : Nat) (wait : Int) : State :=
  if s.portUp p.other then s.modFab p.other fun x => { x with marker := some (count, wait.toNat % 65536) } else s

theorem State.markerPassed_objs (s : State) (p : Port) (count : Nat) (wait : Int) : (s.markerPassed p count wait).objs = s.objs := by
  unfold State.markerPassed
  split <;> rfl

theorem State.markerPassed_fab (s : State) (p : Port) (count : Nat) (wait : Int) :
    (s.markerPassed p count wait).fab = { s.fab with ports := (s.markerPassed p count wait).fab.ports } := by
  unfold State.markerPassed
  split <;> rfl

theorem exec_marker {s : State} {p : Port} (count ofs n out : Nat) (hon : s.fabOn = true) (hup : s.portUp p = true)
    (hz : s.fab.zenith.isSome = true) (hroot : s.obj Obj.ZENITH_ROOT = p.num) (hstate : s.obj Obj.TIMEBASE_STATE ≠ 4) :
    exec (.marker p count ofs n out) s =
      .next ((s.markerTake p count ofs n).markerPassed p count ((out : Int) - s.markerInstant p ofs n)) :=
  congrArg Host.Outcome.next (if_pos (by simp [hon, hup, hz, hroot, hstate]))

/-! ### Markers missing (R385) -/

/-- A group that follows the timebase loses its lock. -/
def State.timebaseDrop (s : State) (g : Group) : State := if s.syncSource g = 2 then s.syncLose g else s

theorem State.syncLose_of_unlocked {s : State} {g : Group} (h : (s.g g).sync ≠ 2) : s.syncLose g = s := if_neg h

theorem State.timebaseDrop_objs (s : State) (g : Group) : s.SameObjs [Obj.FAULT_LOST] (s.timebaseDrop g) :=
  .ite (.ite (.trans (t := s.syncAdrift g) (.refl _ s) (State.coreRaise_objs _ _ _ _)) (.refl _ s)) (.refl _ s)

theorem State.timebaseDrop_source (s : State) (g h : Group) : (s.timebaseDrop h).syncSource g = s.syncSource g := by
  by_cases hs : (s.g h).sync = 2
  · unfold State.timebaseDrop
    split
    · exact congrArg (field · 17 16) ((State.syncLose_told hs).word _)
    · rfl
  · rw [State.timebaseDrop, State.syncLose_of_unlocked hs, ite_self]

/-- Only a group that is locked moves, and it loses its lock. -/
theorem State.timebaseDrop_sync (s : State) (g h : Group) :
    ((s.timebaseDrop h).g g).sync = if h = g ∧ s.syncSource g = 2 ∧ (s.g g).sync = 2 then 3 else (s.g g).sync := by
  by_cases hmove : h = g ∧ s.syncSource g = 2 ∧ (s.g g).sync = 2
  · obtain ⟨rfl, hsrc, hsync⟩ := hmove
    rw [if_pos ⟨rfl, hsrc, hsync⟩, State.timebaseDrop, if_pos hsrc, (State.syncLose_told hsync).g, State.syncAdrift, State.g_modG_same]
  · rw [if_neg hmove]
    unfold State.timebaseDrop
    split
    · next hsrc =>
      by_cases hs : (s.g h).sync = 2
      · have hne : g ≠ h := by
          rintro rfl
          exact hmove ⟨rfl, hsrc, hs⟩
        rw [(State.syncLose_told hs).g, State.syncAdrift, State.g_modG_other _ _ hne]
      · rw [State.syncLose_of_unlocked hs]
    · rfl

theorem State.timebaseDrops_objs (l : List Group) (s : State) : s.SameObjs [Obj.FAULT_LOST] (l.foldl State.timebaseDrop s) := by
  induction l generalizing s with
  | nil => exact .refl _ s
  | cons h l ih => exact (s.timebaseDrop_objs h).trans (ih _)

/-- A group that has lost its lock stays so. -/
theorem State.timebaseDrops_lost (l : List Group) {s : State} {g : Group} (h : (s.g g).sync = 3) :
    ((l.foldl State.timebaseDrop s).g g).sync = 3 := by
  induction l generalizing s with
  | nil => exact h
  | cons x l ih => exact ih (by simp [State.timebaseDrop_sync, h])

/-- Every group that follows the timebase and is locked loses its lock. -/
theorem State.timebaseDrops_sync {l : List Group} {s : State} {g : Group} (hg : g ∈ l) (hsrc : s.syncSource g = 2) (hsync : (s.g g).sync = 2) :
    ((l.foldl State.timebaseDrop s).g g).sync = 3 := by
  induction l generalizing s with
  | nil => cases hg
  | cons x l ih =>
    by_cases hx : x = g
    · exact State.timebaseDrops_lost l (by simp [State.timebaseDrop_sync, hx, hsrc, hsync])
    · exact ih ((List.mem_cons.mp hg).resolve_left (Ne.symm hx)) ((s.timebaseDrop_source g x).trans hsrc)
        (by rw [State.timebaseDrop_sync, if_neg fun hc => hx hc.1, hsync])

/-- The timebase on its own, and the report. -/
def State.timebaseAlone (s : State) : State :=
  (s.set Obj.TIMEBASE_STATE 3).raise 0x0E 7 ((s.set Obj.TIMEBASE_STATE 3).obj Obj.TIMEBASE_COUNT)

theorem exec_timebaseLost {s : State} (hon : s.fabOn = true) (hstate : s.obj Obj.TIMEBASE_STATE = 1 ∨ s.obj Obj.TIMEBASE_STATE = 2)
    (hlast : s.fab.tLast.isSome = true) :
    exec .timebaseLost s = .next (s.logDiff ((s.set Obj.TIMEBASE_STATE 3).groups.foldl State.timebaseDrop s.timebaseAlone)) :=
  congrArg (fun t => Host.Outcome.next (s.logDiff t)) (if_pos (by simp [hon, hstate, hlast]))

theorem State.timebaseAlone_told (s : State) : Told (s.set Obj.TIMEBASE_STATE 3) s.timebaseAlone := .of_reports (State.raise_reports _ _ _ _)

theorem State.timebaseAlone_source (s : State) (g : Group) : s.timebaseAlone.syncSource g = s.syncSource g :=
  congrArg (field · 17 16) (s.timebaseAlone_told.word _)

/-- Settles O44: an answer and a fetched piece follow a frame heard; the zenith's marker goes out of each port that is UP; a marker received
gives the instant and the period; markers missing take the lock from every group that follows them. -/
theorem fabricBootAndTimebase : Obligations.FabricBootAndTimebase := by
  refine ⟨?request, ?data, ?fail, ?emit, ?marker, ?lost⟩
  case request =>
    intro p q src n b s hst hserved hsrc hsrv hlen hway hup hroom
    have hexec := exec_bootReq hst hserved hsrc hsrv hlen
    have hparts := (execBootReq_parts p src b hexec).only (l := [.objs, .core, .grp, .ph, .col, .jrnl, .env, .link, .fab]) (by decide)
    rw [State.fabSend_taken (f := (s.taken p).bootFrame src b) p hway hup hroom] at hexec hparts
    refine ⟨_, ((s.taken p).fabSeq ((s.taken p).bootFrame src b)).1, hexec, ?_, rfl, rfl, ?_, fun hquiet => ?_, hparts⟩
    · have hports : ((s.taken p).fabSeq ((s.taken p).bootFrame src b)).2.fab.ports = (s.taken p).fab.ports := rfl
      rw [State.ports_modFab, hports, State.taken_fab]
      rfl
    · change leBytes 1 (byteAt b 0) ++ leBytes 1 (b2n ((s.taken p).bootImg b).isNone) = _
      rw [State.bootImg_taken, State.bootImg]
    · have hqueue := State.after_quiet (a := 0xc0000010) (fun x =>
        (x.fabSeq ((s.taken p).bootFrame src b)).2.modFab q fun y => { y with queue := y.queue ++
          [(framePrio ((s.taken p).bootFrame src b).type, ((s.taken p).fabSeq ((s.taken p).bootFrame src b)).1)] }) hquiet rfl
        fun _ hx => State.modFab_parts q _ rfl (State.fabSeq_parts _ rfl hx)
      exact ⟨hqueue.only (by decide), State.taken_objs_of_quiet hquiet⟩
  case data =>
    intro p src n b r s hst hboot hreq hnode hkind hofs
    have hexec := exec_bootData hst hboot hreq hnode hkind hofs
    have hdata : (s.taken p).fab.bootData = s.fab.bootData := by rw [State.taken_fab]
    have hkept : (s.taken p).fab.boot = some n := by rw [State.taken_fab, hboot]
    refine ⟨_, hexec, fun hzero hmore => ?_, fun hzero hall => ?_, fun hone => ?_, fun hquiet => ?_,
      (execBootData_parts p src b hexec).only (by decide)⟩
    · rw [State.bootTake_data hzero, hdata, if_neg (by omega), State.bootAsk_fab, State.bootJoin, hdata, hkept]
      exact ⟨rfl, rfl⟩
    · rw [State.bootTake_data hzero, hdata, if_pos hall, State.bootImage, State.bootNext_fab]
      exact ⟨rfl, rfl⟩
    · rw [State.bootTake_none hone]
      refine ⟨by rw [State.bootNext_fab], by rw [State.bootNext_fab], ?_⟩
      exact (State.bootNext_parts (p := 0x80002010) n rfl (Fr.refl _ _)).tabs rfl |>.trans ((s.taken_frame p).tabs rfl)
    · have htake := State.after_quiet (a := 0xc8002010) (fun x => x.bootTake n b) hquiet rfl fun _ hx => State.bootTake_parts n b rfl hx
      exact htake.only (by decide)
  case fail =>
    intro n s hboot hstep hn
    have hexec := exec_fabricBootFail hboot hstep hn
    have hfab : ((s.bootOver.raise 0x0E 0x0C (if n = 0 then 0xFF else n)).loadBanks 2).fab = s.bootOver.fab :=
      (State.loadBanks_parts (p := 0x8002010) 2 rfl (State.raise_parts _ _ _ rfl (Fr.refl _ s.bootOver))).fab rfl
    refine ⟨_, hexec, ?_, ?_, (execFabricBootFail_parts hexec).only (by decide)⟩
    · rw [hfab, State.bootOver]
    · rw [hfab, State.bootOver]
  case emit =>
    intro e w s hon hz hsrc
    have hexec := exec_markerEmit e w hon hz hsrc
    refine ⟨_, hexec, rfl, fun heast => ?_, fun hwest => ?_, (execMarkerEmit_parts e w hexec).only (by decide)⟩
    · exact congrArg FabPort.marker (State.markerOut_other _ _ _ (by decide)) |>.trans (State.markerOut_same _ _ heast)
    · exact State.markerOut_same _ _ ((s.markerOut_portUp _ _ _ _).trans hwest)
  case marker =>
    intro p count ofs n out s hon hup hz hroot hstate
    have hexec := exec_marker count ofs n out hon hup hz hroot hstate
    have hobj (k : Nat) : ((s.markerTake p count ofs n).markerPassed p count ((out : Int) - s.markerInstant p ofs n)).obj k =
        (s.markerTake p count ofs n).obj k := State.obj_congr (State.markerPassed_objs _ _ _ _) k
    have htake := s.markerTake_objs p count ofs n
    obtain ⟨hcount, hofs⟩ := s.markerNoted_told count ofs
    refine ⟨_, hexec, ?_, ?_, ?_, ?_, fun l d k hl hd hk => ?_, (execMarker_parts p count ofs n out hexec).only (by decide), ?_⟩
    · rw [hobj, htake _ (by decide), hcount]
    · rw [hobj, htake _ (by decide), hofs]
    · rw [State.markerPassed_fab, State.markerTake_last]
      rfl
    · rw [hobj, State.markerTake_state]
    · rw [hobj, State.markerPassed_fab]
      exact State.markerTake_next p count ofs n hl hd hk
    · exact fun k hk => (hobj k).trans ((((s.markerNoted_objs count ofs).mono (ls := timebaseObjs) (by decide)).trans
        (htake.mono (by decide))) k hk)
  case lost =>
    intro s hon hstate hlast
    have hexec := exec_timebaseLost hon hstate hlast
    have hdrops := State.timebaseDrops_objs (s.set Obj.TIMEBASE_STATE 3).groups s.timebaseAlone
    have halone := s.timebaseAlone_told
    refine ⟨_, hexec, ?_, fun g hg hsrc hsync => ?_, (execTimebaseLost_parts hexec).only (by decide), ?_⟩
    · rw [State.logDiff_obj, hdrops _ (by decide), halone.obj (by decide), State.obj_set_same]
    · have hmem : g ∈ (s.set Obj.TIMEBASE_STATE 3).groups := by
        rw [State.groups_congr (State.variant_congr (State.obj_set_other _ _ (by decide)))]
        exact List.contains_iff_mem.mp (by rw [State.contains_groups, hg])
      rw [(s.logDiff_told _).g]
      exact State.timebaseDrops_sync hmem ((s.timebaseAlone_source g).trans hsrc) ((congrArg GroupSt.sync (halone.g g)).trans hsync)
    · exact .trans (t := s.set Obj.TIMEBASE_STATE 3) (s.set_sameObjs _ (.head _)) (.trans (halone.objs.mono (by decide))
        (.trans (hdrops.mono (by decide)) ((s.logDiff_told _).objs.mono (by decide))))

end Sys2Proof.Machine
end

section
/-!
PROOFS. Slots, the end of a converter's scan, and a stalled converter (O32).
-/
namespace Sys2Proof.Machine

/-! ### A slot's result (R398-R402) -/

/-- The slot's word is written and the converter's next channel settles, before any block takes the result. -/
def State.slotWritten (s : State) (ch : Nat) (raw : Int) (isns : List Int) (o u : Bool) : State :=
  (s.set (Obj.RESULTS ch) (resultWord ch (s.corrected ch (s.rawCode ch raw isns)) o u)).slotNext ch

theorem exec_slotComplete {s : State} {ch : Fin 64} (raw : Int) (isns : List Int) (o u : Bool) (dt : Nat) (hscan : s.scanningNow = true)
    (hnext : s.nextCh (ch.val / 16) = some (ch.val % 16)) :
    exec (.slotComplete ch raw isns o u dt) s = .next (s.logDiff ((s.slotWritten ch.val raw isns o u).onResult ch.val dt)) :=
  congrArg (fun t => Host.Outcome.next (s.logDiff t)) (if_pos (by simp [hscan, hnext]))

theorem State.slotWritten_parts (s : State) (ch : Nat) (raw : Int) (isns : List Int) (o u : Bool) :
    Fr 0x40010 s (s.slotWritten ch raw isns o u) :=
  State.slotNext_parts ch rfl (State.set_parts _ _ rfl (Fr.refl _ s))

theorem State.slotNext_objs (s : State) (ch k : Nat) : (s.slotNext ch).obj k = s.obj k :=
  State.obj_congr ((State.slotNext_parts (p := 0x40000) ch rfl (Fr.refl _ s)).objs rfl) k

theorem State.slotWritten_objs (s : State) (ch : Nat) (raw : Int) (isns : List Int) (o u : Bool) :
    s.SameObjs [Obj.RESULTS ch] (s.slotWritten ch raw isns o u) := fun k hk =>
  (State.slotNext_objs _ ch k).trans (s.set_sameObjs _ (.head _) k hk)

theorem State.slotWritten_word (s : State) (ch : Nat) (raw : Int) (isns : List Int) (o u : Bool) :
    (s.slotWritten ch raw isns o u).obj (Obj.RESULTS ch) = resultWord ch (s.corrected ch (s.rawCode ch raw isns)) o u :=
  (State.slotNext_objs _ ch _).trans (s.obj_set_same _ _)

theorem State.slotNext_next (s : State) (ch : Nat) : (s.slotNext ch).meas.next = s.meas.next.set (ch / 16) (ch % 16 + 1) := rfl

theorem State.slotWritten_next (s : State) (ch : Nat) (raw : Int) (isns : List Int) (o u : Bool) :
    (s.slotWritten ch raw isns o u).meas.next.getD (ch / 16) 0 = if s.meas.next.length ≤ ch / 16 then 0 else ch % 16 + 1 := by
  rw [State.slotWritten, State.slotNext_next, State.set_meas, List.getD_eq_getElem?_getD, List.getElem?_set, if_pos rfl]
  split_ifs with hin hout hout
  · exact absurd hin (Nat.not_lt.mpr hout)
  · rfl
  · rfl
  · exact absurd (Nat.not_le.mp hout) hin

theorem State.cells_slotWritten (s : State) (ch : Nat) (raw : Int) (isns : List Int) (o u : Bool) :
    (s.slotWritten ch raw isns o u).cells = s.cells :=
  s.slotWritten_objs ch raw isns o u _ (by simp only [List.mem_singleton, Obj.PACK_CELLS, Obj.RESULTS]; omega)

/-- Only the cells' channels and the pack's current have a block that acts at once. -/
theorem State.onResult_of_none {s : State} {ch : Nat} (dt : Nat) (hne : ch ≠ 16) (h : s.cells ≤ ch ∨ s.shellUp = false) :
    s.onResult ch dt = s := by
  have hcell : ¬(s.shellUp && decide (ch < s.cells)) = true := by
    rcases h with h | h <;> simp [h]
  rw [State.onResult, if_neg hcell, if_neg hne]

theorem State.onResult_of_current {s : State} (dt : Nat) (h : s.shellUp = false ∨ s.cells ≤ 16) : s.onResult 16 dt = s.coulomb dt := by
  have hcell : ¬(s.shellUp && decide (16 < s.cells)) = true := by
    rcases h with h | h <;> simp [h]
  rw [State.onResult, if_neg hcell, if_pos rfl]

/-! ### The coulomb count (R294) -/

/-- The charge that `dt` µs and the gap before them have moved, before PACK_SOC shows it. -/
def State.chargeCounted (s : State) (dt : Nat) : State :=
  let q := s.obj Obj.PACK_Q
  let s := if s.chg.gap = 0 then s else s.set Obj.SOC_CONF 1
  let d : Int := s.ipack * (dt + s.chg.gap : Nat) * 1000 / (q * 360 : Nat)
  let n := clampN 0 1000000000000 (((s.chg.soc : Int) - d).toNat)
  { s with chg := { s.chg with soc := n, gap := 0 }, hz := { s.hz with anchorQ := s.hz.anchorQ + s.ipack * dt } }

theorem State.chargeCounted_gap (s : State) (dt : Nat) : (s.chargeCounted dt).chg.gap = 0 := rfl

theorem State.coulomb_eq (s : State) (dt : Nat) : s.coulomb dt = if s.obj Obj.PACK_Q = 0 then s else
    if (s.chargeCounted dt).obj Obj.PACK_SOC = (s.chargeCounted dt).chg.soc / 1000000000 then s.chargeCounted dt
    else (s.chargeCounted dt).put Obj.PACK_SOC ((s.chargeCounted dt).chg.soc / 1000000000) := by
  unfold State.coulomb State.chargeCounted
  with_reducible rfl

theorem State.coulomb_objs (s : State) (dt : Nat) : s.SameObjs [Obj.SOC_CONF, Obj.PACK_SOC, Obj.OD_JOURNAL] (s.coulomb dt) := by
  have hconf : s.SameObjs [Obj.SOC_CONF, Obj.PACK_SOC, Obj.OD_JOURNAL] (s.chargeCounted dt) :=
    .ite (.refl _ s) (s.set_sameObjs _ (by decide))
  rw [State.coulomb_eq]
  exact .ite (.refl _ s) (.ite hconf (hconf.trans (State.put_sameObjs _ _ (by decide) (by decide))))

/-- With a capacity known the count closes every gap, and PACK_SOC shows it. -/
theorem State.coulomb_soc {s : State} (dt : Nat) (h : s.obj Obj.PACK_Q ≠ 0) :
    (s.coulomb dt).chg.gap = 0 ∧ (s.coulomb dt).obj Obj.PACK_SOC = (s.coulomb dt).chg.soc / 1000000000 := by
  rw [State.coulomb_eq, if_neg h]
  split
  next hsame => exact ⟨s.chargeCounted_gap dt, hsame⟩
  next =>
    rw [State.put_chg]
    exact ⟨s.chargeCounted_gap dt, State.obj_put_same _ _ (by decide)⟩

/-! ### The power flow (R21) -/

/-- What the measured voltages and currents are computed from. -/
structure Measured (s t : State) : Prop where
  results : ∀ ch, t.result ch = s.result ch
  shunt : t.obj Obj.RAIL_SHUNT = s.obj Obj.RAIL_SHUNT

namespace Measured

theorem read0 {s t : State} (h : Measured s t) (ch fs : Nat) : t.read0 ch fs = s.read0 ch fs := by
  rw [State.read0, State.reading, h.results, State.read0, State.reading]

theorem haveBoth {s t : State} (h : Measured s t) (a b : Nat) : t.haveBoth a b = s.haveBoth a b := by
  rw [State.haveBoth, h.results, h.results, State.haveBoth]

theorem busWatts {s t : State} (h : Measured s t) : watts t.vbus t.ibus = watts s.vbus s.ibus := by
  rw [State.vbus, State.ibus, h.read0, h.read0, State.vbus, State.ibus]

theorem railWatts {s t : State} (h : Measured s t) : watts t.vrail t.irail = watts s.vrail s.irail := by
  simp only [State.vrail, State.irail, h.read0, h.shunt]

end Measured

/-- The objects of POWER_FLOW. -/
def flowObjs : List Nat :=
  [Obj.POWER_FLOW_BUS, Obj.POWER_FLOW_PACK, Obj.POWER_FLOW_LINK_E, Obj.POWER_FLOW_LINK_W, Obj.POWER_FLOW_RAIL, Obj.POWER_FLOW_LOSS]

theorem State.setI_sameObjs (s : State) {ks : List Nat} {k : Nat} (w : Nat) (i : Int) (hk : k ∈ ks) : s.SameObjs ks (s.setI k w i) :=
  s.set_sameObjs _ hk

/-- POWER_FLOW with its six values. -/
def State.flowWritten (s : State) (bus pack east west rail : Int) : State :=
  (((((s.setI Obj.POWER_FLOW_BUS 32 bus).setI Obj.POWER_FLOW_PACK 32 pack).setI Obj.POWER_FLOW_LINK_E 32 east).setI
    Obj.POWER_FLOW_LINK_W 32 west).setI Obj.POWER_FLOW_RAIL 32 rail).setI Obj.POWER_FLOW_LOSS 32 (bus + pack + east + west - rail)

theorem State.flowWritten_objs (s : State) (bus pack east west rail : Int) :
    s.SameObjs flowObjs (s.flowWritten bus pack east west rail) :=
  .trans (.trans (.trans (.trans (.trans (s.setI_sameObjs _ _ (by decide)) (State.setI_sameObjs _ _ _ (by decide)))
    (State.setI_sameObjs _ _ _ (by decide))) (State.setI_sameObjs _ _ _ (by decide))) (State.setI_sameObjs _ _ _ (by decide)))
    (State.setI_sameObjs _ _ _ (by decide))

theorem State.flowWritten_bus (s : State) (bus pack east west rail : Int) :
    (s.flowWritten bus pack east west rail).obj Obj.POWER_FLOW_BUS = toCode 32 bus := by
  simp only [State.flowWritten, State.setI]
  rw [State.obj_set_other _ _ (by decide), State.obj_set_other _ _ (by decide), State.obj_set_other _ _ (by decide),
    State.obj_set_other _ _ (by decide), State.obj_set_other _ _ (by decide), State.obj_set_same]

theorem State.flowWritten_rail (s : State) (bus pack east west rail : Int) :
    (s.flowWritten bus pack east west rail).obj Obj.POWER_FLOW_RAIL = toCode 32 rail := by
  simp only [State.flowWritten, State.setI]
  rw [State.obj_set_other _ _ (by decide), State.obj_set_same]

/-- A flow with an absent channel keeps its value. -/
def State.flowOf (s : State) (k a b : Nat) (v i : Int) : Int := if s.haveBoth a b then watts v i else ofCode 32 (s.obj k)

theorem State.powerFlow_eq (s : State) : ∃ pack east west c, s.powerFlow =
    { s.flowWritten (s.flowOf Obj.POWER_FLOW_BUS 32 33 s.vbus s.ibus) pack east west
        (s.flowOf Obj.POWER_FLOW_RAIL 34 35 s.vrail s.irail) with chg := c } := by
  refine ⟨s.flowOf Obj.POWER_FLOW_PACK 17 16 s.vpack s.ipack,
    if s.variant == .A then s.flowOf Obj.POWER_FLOW_LINK_E 36 37 (s.vlink .east) (s.ilink .east) else 0,
    if s.variant == .A then s.flowOf Obj.POWER_FLOW_LINK_W 38 39 (s.vlink .west) (s.ilink .west) else 0, s.powerFlow.chg, ?_⟩
  unfold State.powerFlow State.flowWritten State.flowOf
  with_reducible rfl

theorem State.powerFlow_objs (s : State) : s.SameObjs flowObjs s.powerFlow := by
  obtain ⟨pack, east, west, c, hflow⟩ := s.powerFlow_eq
  rw [hflow]
  exact (s.flowWritten_objs _ _ _ _ _).trans (State.withChg_objs _ c _)

theorem State.powerFlow_bus {s : State} (h : s.haveBoth 32 33 = true) :
    s.powerFlow.obj Obj.POWER_FLOW_BUS = toCode 32 (watts s.vbus s.ibus) := by
  obtain ⟨pack, east, west, c, hflow⟩ := s.powerFlow_eq
  rw [hflow, State.withChg_objs _ c [] _ List.not_mem_nil, State.flowWritten_bus, State.flowOf, if_pos h]

theorem State.powerFlow_rail {s : State} (h : s.haveBoth 34 35 = true) :
    s.powerFlow.obj Obj.POWER_FLOW_RAIL = toCode 32 (watts s.vrail s.irail) := by
  obtain ⟨pack, east, west, c, hflow⟩ := s.powerFlow_eq
  rw [hflow, State.withChg_objs _ c [] _ List.not_mem_nil, State.flowWritten_rail, State.flowOf, if_pos h]

theorem State.rhSet_objs (s : State) (r : Nat) : s.SameObjs [Obj.SRC_MEAS_R_HARN] (s.rhSet r) := State.set_sameObjs _ _ (.head _)

theorem State.refine_objs (s : State) : s.SameObjs [Obj.SRC_MEAS_R_HARN] s.refine := by
  have hnoted (x : SourceSt) : s.SameObjs [Obj.SRC_MEAS_R_HARN] { s with src := x } := .refl _ s
  have hkept (x : SourceSt) (r : Nat) : s.SameObjs [Obj.SRC_MEAS_R_HARN] (({ s with src := x } : State).rhSet r) :=
    (hnoted x).trans (State.rhSet_objs _ r)
  exact .ite (.ite (.ite (hkept _ _) (hnoted _)) (.ite (hkept _ _) (hnoted _))) (hnoted _)

theorem State.flowWatch_objs (s : State) (k : Nat) : s.flowWatch.obj k = s.obj k :=
  State.obj_congr ((State.flowWatch_parts (p := 0x400000) rfl (Fr.refl _ s)).objs rfl) k

/-- After MC2 the shell takes the power flow, the probe's watch on it and the harness resistance. -/
def State.flowTaken (s : State) : State := s.powerFlow.flowWatch.refine

theorem State.flowTaken_parts (s : State) : Fr 0x20401010 s s.flowTaken :=
  State.refine_parts rfl (State.flowWatch_parts rfl (State.powerFlow_parts rfl (Fr.refl _ s)))

theorem State.flowTaken_flow (s : State) {k : Nat} (hk : k ≠ Obj.SRC_MEAS_R_HARN) : s.flowTaken.obj k = s.powerFlow.obj k := by
  rw [State.flowTaken, State.refine_objs _ _ (by simpa using hk), State.flowWatch_objs]

/-! ### The end of a converter's scan (R404, R413) -/

/-- The converter counts as finished, and its time is told. -/
def State.convEnded (s : State) (mc time : Nat) : State :=
  ({ s with meas := { s.meas with done := setBit s.meas.done mc true } } : State).set (Obj.SCAN_TIME mc) time

theorem State.convEnded_objs (s : State) (mc time : Nat) : s.SameObjs [Obj.SCAN_TIME mc] (s.convEnded mc time) :=
  State.set_sameObjs _ _ (.head _)

theorem State.convEnded_time (s : State) (mc time : Nat) : (s.convEnded mc time).obj (Obj.SCAN_TIME mc) = time := State.obj_set_same _ _ _

theorem State.convEnded_parts (s : State) (mc time : Nat) : Fr 0x40010 s (s.convEnded mc time) :=
  State.set_parts _ _ rfl (Fr.mk_meas (Fr.refl _ s) rfl)

/-- SCAN_TIME lies among neither the results nor the shunt. -/
theorem State.convEnded_measured (s : State) {mc : Nat} (time : Nat) (hmc : mc < 4) : Measured s (s.convEnded mc time) :=
  ⟨fun ch => s.convEnded_objs mc time _ (by simp only [List.mem_singleton, Obj.SCAN_TIME, Obj.RESULTS]; omega),
    s.convEnded_objs mc time _ (by simp only [List.mem_singleton, Obj.SCAN_TIME, Obj.RAIL_SHUNT]; omega)⟩

theorem State.convEnded_scanState (s : State) {mc : Nat} (time : Nat) (hmc : mc < 4) :
    (s.convEnded mc time).obj Obj.SCAN_STATE = s.obj Obj.SCAN_STATE :=
  s.convEnded_objs mc time _ (by simp only [List.mem_singleton, Obj.SCAN_TIME, Obj.SCAN_STATE]; omega)

theorem State.convEnded_shellUp (s : State) (mc time : Nat) : (s.convEnded mc time).shellUp = s.shellUp :=
  State.shellUp_of_parts (s.convEnded_parts mc time) rfl rfl

theorem exec_scanComplete {s : State} {mc : Fin 4} (time : Nat) (hscan : s.scanningNow = true) (hopen : bit s.meas.done mc.val = false)
    (hlast : s.nextCh mc.val = none) : exec (.scanComplete mc time) s =
      .next (if mc.val = 2 ∧ s.shellUp = true then (s.convEnded mc.val time).flowTaken else (s.convEnded mc.val time).parkScanEnd) := by
  rw [← s.convEnded_shellUp mc.val time]
  exact congrArg Host.Outcome.next (if_pos (by simp [hscan, hopen, hlast]))

/-- In Run a converter that has finished waits for the others. -/
theorem State.parkScanEnd_of_run {s : State} (h : s.obj Obj.SCAN_STATE = 1) : s.parkScanEnd = s := by
  rw [State.parkScanEnd, if_neg (by simp [h])]

theorem State.parkScanEnd_objs (s : State) (k : Nat) : s.parkScanEnd.obj k = s.obj k :=
  State.obj_congr ((State.parkScanEnd_parts (p := 0x40000) rfl (Fr.refl _ s)).objs rfl) k

/-- A Park check's last converter ends one of the check's scans and starts the gap. -/
theorem State.parkScanEnd_of_park {s : State} (hstate : s.obj Obj.SCAN_STATE = 3) (hdone : s.meas.done = 15) :
    s.parkScanEnd.meas.left = s.meas.left - 1 ∧ s.parkScanEnd.meas.gapEnd = s.now + ms (field s.meas.park 23 16) := by
  rw [State.parkScanEnd, if_pos ⟨hstate, hdone⟩]
  exact ⟨rfl, rfl⟩

/-! ### A stalled converter (R439) -/

/-- The converter's channels hold no result. -/
def State.resultsLost (s : State) (mc : Nat) : State :=
  (List.range 16).foldl (fun s i => s.set (Obj.RESULTS (16 * mc + i)) (noResult (16 * mc + i))) s

/-- Of writes that agree where their keys do, each one stands. -/
theorem State.obj_foldl_set {α : Type} {key val : α → Nat} {a : α} : ∀ (l : List α) (s : State), a ∈ l →
    (∀ b ∈ l, key b = key a → val b = val a) → (l.foldl (fun s b => s.set (key b) (val b)) s).obj (key a) = val a := by
  intro l
  induction l using List.reverseRecOn with
  | nil => exact fun s ha => absurd ha List.not_mem_nil
  | append_singleton l b ih =>
    intro s ha hsame
    rw [List.foldl_append, List.foldl_cons, List.foldl_nil, State.obj_set]
    split
    next hkey => exact hsame b (by simp) hkey.symm
    next hkey =>
      have hmem : a ∈ l := by
        rcases List.mem_append.mp ha with h | h
        · exact h
        · exact absurd (congrArg key (List.mem_singleton.mp h)) hkey
      exact ih s hmem fun c hc => hsame c (List.mem_append_left _ hc)

theorem State.resultsLost_word (s : State) (mc : Nat) {i : Nat} (hi : i < 16) :
    (s.resultsLost mc).obj (Obj.RESULTS (16 * mc + i)) = noResult (16 * mc + i) :=
  State.obj_foldl_set (key := fun i => Obj.RESULTS (16 * mc + i)) (val := fun i => noResult (16 * mc + i)) (List.range 16) s
    (List.mem_range.mpr hi) fun _ _ hkey => congrArg noResult (Nat.add_left_cancel hkey)

theorem State.resultsLost_parts (s : State) (mc : Nat) : Fr 0x10 s (s.resultsLost mc) :=
  Fr.foldl _ (Fr.refl _ s) fun _ _ hy => State.set_parts _ _ rfl hy

/-- The converter has no results, and its slots start afresh. -/
def State.convRestarted (s : State) (mc : Nat) : State :=
  { s.resultsLost mc with meas := (s.resultsLost mc).meas.restart mc (s.resultsLost mc).now (us 370) }

theorem State.convRestarted_parts (s : State) (mc : Nat) : Fr 0x40010 s (s.convRestarted mc) :=
  Fr.mk_meas ((Fr.refl _ s).upd (s.resultsLost_parts mc) rfl) rfl

theorem State.convRestarted_meas (s : State) (mc : Nat) : (s.convRestarted mc).meas = s.meas.restart mc s.now (us 370) := by
  rw [State.convRestarted, (s.resultsLost_parts mc).meas rfl, (s.resultsLost_parts mc).now rfl]

theorem State.convRestarted_word (s : State) (mc : Nat) {i : Nat} (hi : i < 16) :
    (s.convRestarted mc).obj (Obj.RESULTS (16 * mc + i)) = noResult (16 * mc + i) := by
  have hobjs : (s.convRestarted mc).objs = (s.resultsLost mc).objs := by rw [State.convRestarted]
  rw [State.obj_congr hobjs, s.resultsLost_word mc hi]

theorem exec_scanStall {s : State} {mc : Fin 4} {elapsed : Nat} (hscan : s.scanningNow = true) (hopen : bit s.meas.done mc.val = false)
    (hlate : 2 * s.scanTime mc.val + 1000 < elapsed) : exec (.scanStall mc elapsed) s =
      .next (if s.aon.shell = true then (s.convRestarted mc.val).raise 9 3 mc.val else s.convRestarted mc.val) := by
  rw [← (s.convRestarted_parts mc.val).aon rfl]
  exact congrArg Host.Outcome.next (if_pos (by simp [hscan, hopen, hlate]))

/-- Settles O32: a slot is its word and the next channel before a block takes the result; a converter's end is the shell's power flow after
MC2, and the Park check's gap or nothing after any other; a stall clears and restarts one converter before it is reported. -/
theorem slotsAndScans : Obligations.SlotsAndScans := by
  refine ⟨?slot, ?scan, ?stall⟩
  case slot =>
    intro ch raw isns o u dt s hscan hnext
    have hexec := exec_slotComplete raw isns o u dt hscan hnext
    have hwritten := s.slotWritten_parts ch.val raw isns o u
    have hup : (s.slotWritten ch.val raw isns o u).shellUp = s.shellUp := State.shellUp_of_parts hwritten rfl rfl
    have hcells := s.cells_slotWritten ch.val raw isns o u
    refine ⟨_, hexec, fun hne hquiet => ?_, fun hcurrent hquiet => ?_, ?_, (execSlotComplete_parts ch raw isns o u dt hexec).only (by decide)⟩
    · rw [State.onResult_of_none dt hne (by rwa [hcells, hup])]
      exact State.logDiff_of_same (hwritten.core rfl) (hwritten.grp rfl) (hwritten.ph rfl) (hwritten.strat rfl)
    · rw [hcurrent] at hcells hup ⊢
      rw [State.onResult_of_current dt (by rwa [hcells, hup]), State.logDiff_obj, State.coulomb_objs _ _ _ (by decide),
        State.slotWritten_word, State.logDiff_obj, (s.logDiff_frame _).chg rfl]
      refine ⟨rfl, fun hq => State.coulomb_soc dt ?_⟩
      rwa [State.slotWritten_objs _ _ _ _ _ _ _ (by decide)]
    · have hblock := State.onResult_parts (p := 0x204120f0) ch.val dt rfl (Fr.refl _ (s.slotWritten ch.val raw isns o u))
      rw [(s.logDiff_frame _).meas rfl, hblock.meas rfl, State.slotWritten_next]
  case scan =>
    intro mc time s hscan hopen hlast
    have hexec := exec_scanComplete time hscan hopen hlast
    have hended := s.convEnded_parts mc.val time
    have hstate := s.convEnded_scanState time mc.isLt
    have hmeas := s.convEnded_measured time mc.isLt
    refine ⟨_, hexec, ?_, fun hrun => ⟨?_, fun hbeside => ?_⟩, fun hpark hdown hall => ?_, fun hmc hup => ⟨fun hbus => ?_, fun hrail => ?_⟩,
      (execScanComplete_parts mc time hexec).only (by decide)⟩
    · split
      next hflow =>
        rw [hflow.1, State.flowTaken_flow _ (by decide), State.powerFlow_objs _ _ (by decide), State.convEnded_time]
      next => rw [State.parkScanEnd_objs, State.convEnded_time]
    · split
      next => exact (State.flowTaken_parts _).meas rfl
      next =>
        rw [State.parkScanEnd_of_run (hstate.trans hrun)]
        rfl
    · rw [if_neg (by rintro ⟨htwo, hup⟩; simp [htwo, hup] at hbeside), State.parkScanEnd_of_run (hstate.trans hrun)]
      exact ⟨hended.only (by decide), s.convEnded_objs mc.val time⟩
    · rw [if_neg (by simp [hdown])]
      exact State.parkScanEnd_of_park (s := s.convEnded mc.val time) (hstate.trans hpark) hall
    · rw [if_pos ⟨hmc, hup⟩, State.flowTaken_flow _ (by decide), State.powerFlow_bus ((hmeas.haveBoth 32 33).trans hbus), hmeas.busWatts]
    · rw [if_pos ⟨hmc, hup⟩, State.flowTaken_flow _ (by decide), State.powerFlow_rail ((hmeas.haveBoth 34 35).trans hrail), hmeas.railWatts]
  case stall =>
    intro mc elapsed s hscan hopen hlate
    have hexec := exec_scanStall hscan hopen hlate
    have hrestart := s.convRestarted_parts mc.val
    have hsaid := State.raise_reports (s.convRestarted mc.val) 9 3 mc.val
    refine ⟨_, hexec, fun i hi => ?_, ?_, fun hon hroom => ?_, fun hoff => ?_, (execScanStall_parts mc elapsed hexec).only (by decide)⟩
    · have hword : (s.convRestarted mc.val).obj (Obj.RESULTS (16 * mc.val + i)) = noResult (16 * mc.val + i) := s.convRestarted_word mc.val hi
      split
      next => exact (hsaid.obj (by simp only [Obj.RESULTS, Obj.FAULT_LOST]; omega)).trans hword
      next => exact hword
    · split
      next => rw [State.raise_meas, State.convRestarted_meas]
      next => rw [State.convRestarted_meas]
    · rw [if_pos hon]
      have hcol := hrestart.col rfl
      rw [State.raise_sent 3 (by omega) (by rwa [hcol]), hcol]
    · rw [if_neg (by simp [hoff]), hrestart.col rfl]

end Sys2Proof.Machine
end

section
/-!
PROOFS. A refresh round that ends without the shell: a counterexample to the statement about self-calibration and the common trigger (O33).
-/
namespace Sys2Proof.Machine

/-- The scan that ended, counted, timed and recorded. -/
def State.scanCounted (s : State) (period : Nat) : State :=
  ((s.set Obj.SCAN_PERIOD period).set Obj.SCAN_COUNT ((s.obj Obj.SCAN_COUNT + 1) % 2 ^ 32)).scanRecord

/-- What starts at a common trigger: nothing, a calibration that was pending, or the next common scan. -/
def State.scanStarts (s : State) : State :=
  let s := { s with meas := { s.meas with first := false } }
  if s.obj Obj.SCAN_STATE = 0 then s else if s.meas.cal = 1 then s.calStart else
    let s := s.takeMasks
    let s := s.set Obj.SCAN_STATE (if s.meas.done = 15 then 4 else 1)
    if s.shellUp then s.balFrame.linkPolicy else s

theorem State.scanCounted_parts (s : State) (period : Nat) : Fr 0x80010 s (s.scanCounted period) :=
  State.scanRecord_parts rfl (State.set_parts _ _ rfl (State.set_parts _ _ rfl (Fr.refl _ s)))

theorem State.scanStarts_parts (s : State) : Fr 0xe00420f0 s s.scanStarts := by
  have hfirst : Fr 0xe00420f0 s { s with meas := { s.meas with first := false } } := Fr.mk_meas (Fr.refl _ s) rfl
  have hmasks := State.set_parts Obj.SCAN_STATE
    (if ({ s with meas := { s.meas with first := false } } : State).takeMasks.meas.done = 15 then 4 else 1) rfl
    (State.takeMasks_parts rfl hfirst)
  exact .ite hfirst (.ite (State.calStart_parts rfl hfirst) (.ite (State.linkPolicy_parts rfl (State.balFrame_parts rfl hmasks)) hmasks))

/-- Without a running shell no consumer comes between the count and the refresh round's step. -/
theorem State.commonTrigger_of_shellDown {s : State} (period : Nat) (hup : s.shellUp = false) :
    s.commonTrigger period [] = (s.scanCounted period).refreshNext.scanStarts := by
  have hdown : (s.scanCounted period).shellUp = false := (State.shellUp_of_parts (s.scanCounted_parts period) rfl rfl).trans hup
  have hcounted : s.commonTrigger period [] =
      (if (s.scanCounted period).shellUp then (s.scanCounted period).consumers [] period else s.scanCounted period).refreshNext.scanStarts := rfl
  rw [hcounted, hdown, if_neg Bool.false_ne_true]

/-- The last scan of a round sets the instant from which the next interval counts (R440). -/
theorem State.refreshNext_thm_of_last {s : State} (h : s.meas.refresh = some 15) :
    s.refreshNext.thm = { s.thm with cal := s.thm.cal.ran s.now } := by
  simp [State.refreshNext, h]

theorem State.commonTrigger_thm_of_last {s : State} (period : Nat) (hup : s.shellUp = false) (hlast : s.meas.refresh = some 15) :
    (s.commonTrigger period []).thm = { s.thm with cal := s.thm.cal.ran s.now } := by
  have hcounted := s.scanCounted_parts period
  have hround : (s.scanCounted period).meas.refresh = some 15 := by rw [hcounted.meas rfl, hlast]
  rw [State.commonTrigger_of_shellDown period hup, (State.scanStarts_parts _).thm rfl, State.refreshNext_thm_of_last hround,
    hcounted.thm rfl, hcounted.now rfl]

theorem exec_commonTrigger {s : State} (period : Nat) (obs : List Obs) (hscan : s.obj Obj.SCAN_STATE = 1) (hdone : s.meas.done = 15) :
    exec (.commonTrigger period obs) s = .next (s.logDiff (s.commonTrigger period obs)) :=
  congrArg (fun t => Host.Outcome.next (s.logDiff t)) (if_pos ⟨hscan, hdone⟩)

/-- An hour after power-on, with the shell away: every converter has finished its scan, the sixteenth of a refresh round. -/
def roundEndsAlone : State :=
  { State.reset with now := sec 3600, objs := [(Obj.SCAN_STATE, 1)], meas := { done := 15, refresh := some 15 } }

/-- Refutes O33: its part on a common trigger without the shell lists what the scheduler may touch and leaves out the thermal block, which
holds the interval of the calibration refresh. A round runs on while the shell is away, and where it ends there the interval counts anew. -/
theorem not_calibrationAndCommonTrigger : ¬ Obligations.CalibrationAndCommonTrigger := by
  rintro ⟨-, -, -, -, htrigger, -⟩
  obtain ⟨t, ht, -, -, -, -, -, hparts⟩ := htrigger 1000 [] roundEndsAlone (by decide) rfl rfl
  rw [exec_commonTrigger 1000 [] (by decide) rfl] at ht
  obtain rfl := Host.Outcome.next.inj ht
  have hsame := hparts .thm (by decide)
  rw [Part.same, (State.logDiff_frame _ _).thm rfl, State.commonTrigger_thm_of_last 1000 rfl rfl] at hsame
  exact absurd (congrArg (fun x => x.cal.last) hsame) (by decide)

end Sys2Proof.Machine
end

section
/-!
PROOFS. The squall recorder: triggers by request, windows that end, captures that go to the archive, and KEEP (O34).
-/
namespace Sys2Proof.Machine

/-! ### A write that leaves the core alone -/

/-- An accepted write whose effect leaves the core alone records no events: the next state is its effect and the answer. -/
theorem State.logDiff_wrote {p : Nat} {s : State} {m : Master} {k v : Nat} (h : Fr p s (s.wrote m k v)) (hc : p.testBit 5 = false)
    (hg : p.testBit 6 = false) (hp : p.testBit 7 = false) (hs : p.testBit 10 = false) : s.logDiff (s.wrote m k v) = s.wrote m k v :=
  State.logDiff_of_same (h.core hc) (h.grp hg) (h.ph hp) (h.strat hs)

/-- The answer of an access touches objects and the server's own state. -/
theorem State.wrote_frame (s : State) (m : Master) (k v : Nat) :
    Fr 0x800000010 (s.applyWrite m k (keptBits k (v % 256))) (s.wrote m k v) :=
  State.answerWith_parts _ _ _ _ rfl (Fr.refl _ _)

/-! ### A requested trigger (R428, R430) -/

/-- The trigger of a master's request. -/
def requestMsg (m : Master) : Msg := { src := 9, kind := 11, inst := m.code }

theorem masterCode_lt (m : Master) : m.code < 65536 := by
  cases m <;> decide

/-- While a window is open a trigger joins its list. -/
theorem State.capture_of_open {s : State} {c : Capture} (h : s.ring.open_ = some c) (m : Msg) (cls : Nat) :
    s.capture m cls = { s with ring := { s.ring with open_ := some (c.join (msgWord m)) } } := by
  rw [State.capture, h]

/-- A trigger that did not wait through a Stratus reaches neither the archive nor the flash. -/
theorem State.capture_parts_of_prompt {s : State} {m : Msg} (cls : Nat) (hm : m.stamp = none) : Fr 0x92010 s (s.capture m cls) := by
  cases h : s.ring.open_ with
  | some c =>
    rw [State.capture_of_open h]
    exact Fr.mk_ring (Fr.refl _ s) rfl
  | none =>
    have hcount (k top : Nat) : Fr 0x92010 s (s.count k top) := State.count_parts _ _ rfl (Fr.refl _ s)
    simp only [State.capture, h, hm, Option.isSome_none, Bool.false_eq_true, if_false, Bool.false_and]
    exact .ite (Fr.refl _ s) (.ite (.ite (State.raise_parts _ _ _ rfl (Fr.mk_ring (Fr.mk_ring (hcount _ _) rfl) rfl))
      (Fr.mk_ring (hcount _ _) rfl)) (State.captureStart_parts _ _ _ rfl (Fr.refl _ s)))

theorem State.recRequest_of_enabled {s : State} (m : Master) (h : bit (s.obj Obj.REC_CFG) 4 = true) :
    s.recRequest m = (s.capture (requestMsg m) 0).raise 9 11 m.code := by
  rw [State.recRequest, if_pos h, requestMsg]

/-- With REQUEST disabled a request is reported and starts nothing. -/
theorem State.recRequest_of_disabled {s : State} (m : Master) (h : bit (s.obj Obj.REC_CFG) 4 = false) :
    s.recRequest m = s.raise 9 11 m.code := by
  rw [State.recRequest, if_neg (by simp [h])]

theorem State.recRequest_frame (s : State) (m : Master) : Fr 0x92010 s (s.recRequest m) := by
  cases h : bit (s.obj Obj.REC_CFG) 4 with
  | true =>
    rw [State.recRequest_of_enabled m h]
    exact State.raise_parts _ _ _ rfl (State.capture_parts_of_prompt 0 rfl)
  | false =>
    rw [State.recRequest_of_disabled m h]
    exact State.raise_parts _ _ _ rfl (Fr.refl _ s)

theorem State.wrote_recTrigger_frame (s : State) (m : Master) (v : Nat) : Fr 0x800000010 (s.recRequest m) (s.wrote m Obj.REC_TRIGGER v) :=
  s.wrote_frame m Obj.REC_TRIGGER v

theorem State.wrote_recTrigger_parts (s : State) (m : Master) (v : Nat) : Fr 0x800092010 s (s.wrote m Obj.REC_TRIGGER v) :=
  ((Fr.refl _ s).upd (s.recRequest_frame m) rfl).upd (s.wrote_recTrigger_frame m v) rfl

theorem exec_recTrigger {s : State} {m : Master} {v : Nat} (hs : s.served m = true)
    (hc : s.writeCode m Obj.REC_TRIGGER (leBytes 1 v) = 0) : exec (.recTrigger m v) s = .next (s.wrote m Obj.REC_TRIGGER v) := by
  rw [← State.logDiff_wrote (s.wrote_recTrigger_parts m v) rfl rfl rfl rfl]
  exact congrArg Host.Outcome.next (State.logged_write hs hc)

/-! ### Wear of the flash (R720) -/

/-- The objects of the flash's wear. -/
def wearKeys : List Nat := (List.range 5).map (fun i => Obj.FLASH_WEAR (i + 1)) ++ [Obj.FLASH_RETIRED, Obj.FLASH_STATE, Obj.FAULT_LOST]

/-- The wear as the rings have it, before a limit is reported. -/
def State.wearWritten (s : State) : State :=
  let w := [s.flash.wear.getD 0 0, s.flash.wear.getD 1 0, s.ringWear 3, s.ringWear 4, s.ringWear 5]
  let s := { s with flash := { s.flash with wear := w } }
  let s := (List.range 5).foldl (fun s i => s.set (Obj.FLASH_WEAR (i + 1)) (w.getD i 0)) s
  let s := s.set Obj.FLASH_RETIRED
    (min 65535 (s.flash.retired.length + s.wornSectors 3 + s.wornSectors 4 + s.wornSectors 5))
  if s.inService 3 < 128 && s.obj Obj.FLASH_STATE != 0 then s.set Obj.FLASH_STATE 3 else s

theorem State.wearObjs_eq (s : State) : s.wearObjs = s.wearWritten.wearReport := rfl

/-- A limit that is passed is noted with the flash and reported. -/
theorem State.wearReport_eq (s : State) : ∃ n, s.wearReport = if s.flash.limit < n then
    ({ s with flash := { s.flash with limit := n } } : State).raise 0x17 5 (maxOr 0 s.flash.wear / 100) else s := ⟨_, rfl⟩

theorem State.wearReport_objs (s : State) : s.SameObjs [Obj.FAULT_LOST] s.wearReport := by
  obtain ⟨n, h⟩ := s.wearReport_eq
  rw [h]
  exact .ite (State.raise_reports _ _ _ _).2 (.refl _ s)

theorem State.wearReport_archived (s : State) : s.wearReport.flash.archived = s.flash.archived := by
  obtain ⟨n, h⟩ := s.wearReport_eq
  rw [h]
  split
  · rw [State.raise_flash]
  · rfl

theorem State.wearWritten_objs (s : State) : s.SameObjs wearKeys s.wearWritten := by
  have hflash (f : Flash) : s.SameObjs wearKeys { s with flash := f } := .refl _ s
  have hwear (w : List Nat) (x : State) :
      x.SameObjs wearKeys ((List.range 5).foldl (fun s i => s.set (Obj.FLASH_WEAR (i + 1)) (w.getD i 0)) x) := fun k hk =>
    State.obj_foldl (fun y i hi => y.set_sameObjs (ks := wearKeys) _
      (List.mem_append_left _ (List.mem_map.mpr ⟨i, hi, rfl⟩)) k hk) x
  unfold State.wearWritten
  dsimp only
  exact .ite ((((hflash _).trans (hwear _ _)).trans (State.set_sameObjs _ _ (by decide))).trans (State.set_sameObjs _ _ (by decide)))
    (((hflash _).trans (hwear _ _)).trans (State.set_sameObjs _ _ (by decide)))

theorem State.wearWritten_archived (s : State) : s.wearWritten.flash.archived = s.flash.archived := by
  have hwear (w : List Nat) (x : State) :
      Fr 0x10 x ((List.range 5).foldl (fun s i => s.set (Obj.FLASH_WEAR (i + 1)) (w.getD i 0)) x) :=
    Fr.foldl _ (Fr.refl _ x) fun _ _ hy => State.set_parts _ _ rfl hy
  have hset (k v : Nat) (x : State) : Fr 0x10 x (x.set k v) := State.set_parts _ _ rfl (Fr.refl _ x)
  unfold State.wearWritten
  dsimp only
  generalize hx : ({ s with flash := _ } : State) = x
  have harch : x.flash.archived = s.flash.archived := by rw [← hx]
  rw [(Fr.ite (((hwear _ x).trans (hset _ _ _)).trans (hset _ _ _)) ((hwear _ x).trans (hset _ _ _))).flash rfl, harch]

theorem State.wearObjs_objs (s : State) : s.SameObjs wearKeys s.wearObjs := by
  rw [State.wearObjs_eq]
  exact s.wearWritten_objs.trans ((State.wearReport_objs _).mono (by decide))

theorem State.wearObjs_archived (s : State) : s.wearObjs.flash.archived = s.flash.archived := by
  rw [State.wearObjs_eq, State.wearReport_archived, State.wearWritten_archived]

/-! ### The capture that goes to the archive (R432, R433) -/

/-- The closing capture has left the recorder, and the recorder waits for the next trigger or goes on with the open window. -/
def State.captureOut (s : State) : State :=
  { s with ring := { s.ring with closing := none } }.set Obj.REC_STATE (if s.ring.open_.isSome then 2 else 1)

/-- The archive holds the listed captures, as far as it has room for them, and the newest one's bytes are counted. -/
def State.archivedAs (s : State) (size : Nat) (l : List Capture) : State :=
  ({ s with archive := l.take 256, flash := { s.flash with archived := s.flash.archived + size } }.put Obj.REC_COUNT
    (min 256 l.length)).wearObjs

/-- A capture is reported as lost, counted as suppressed, or archived. -/
theorem State.closeCapture_eq {s : State} {c : Capture} (h : s.ring.closing = some c) (ok : Bool) : s.closeCapture ok =
    if !s.captureOut.flashOk || !ok then s.captureOut.raise 9 8 c.no
    else if !s.captureOut.archiveBudget c.size then s.captureOut.count Obj.REC_SUPPRESSED_CNT 0xFFFFFFFF
    else s.captureOut.archivedAs c.size (c :: makeRoom s.captureOut.archiveBytes 257 s.captureOut.archive c.size) := by
  unfold State.closeCapture State.captureOut State.archivedAs
  rw [h]

theorem State.captureOut_objs (s : State) : s.SameObjs [Obj.REC_STATE] s.captureOut := State.set_sameObjs _ _ (.head _)

theorem State.captureOut_parts (s : State) : Fr 0x80010 s s.captureOut :=
  State.set_parts _ _ rfl (Fr.mk_ring (Fr.refl _ s) rfl)

theorem State.captureOut_ring (s : State) : s.captureOut.ring = { s.ring with closing := none } := rfl

theorem State.captureOut_recState (s : State) : s.captureOut.obj Obj.REC_STATE = if s.ring.open_.isSome then 2 else 1 :=
  State.obj_set_same _ _ _

theorem State.captureOut_flashOk (s : State) : s.captureOut.flashOk = s.flashOk := by
  rw [State.flashOk, s.captureOut_objs _ (by decide), State.flashOk]

theorem State.captureOut_budget (s : State) (n : Nat) : s.captureOut.archiveBudget n = s.archiveBudget n := by
  have hring (r : Nat) : s.captureOut.ringBytes r = s.ringBytes r := by
    rw [State.ringBytes, s.captureOut_parts.flash rfl, s.captureOut_objs _ (by decide), State.ringBytes]
  have hsound (r : Nat) : s.captureOut.soundSectors r = s.soundSectors r := by
    rw [State.soundSectors, s.captureOut_parts.flash rfl, State.soundSectors]
  have hbytes : s.captureOut.archiveBytes = s.archiveBytes := by
    simp only [State.archiveBytes, State.inService, State.wornSectors, hring, hsound, s.captureOut_objs Obj.FLASH_ENDURANCE (by decide)]
  rw [State.archiveBudget, hbytes, s.captureOut_parts.flash rfl, s.captureOut_objs _ (by decide), s.captureOut_objs _ (by decide),
    State.archiveBudget]

theorem State.archivedAs_parts (s : State) (size : Nat) (l : List Capture) : Fr 0x200112010 s (s.archivedAs size l) :=
  State.wearObjs_parts rfl (State.put_parts _ _ rfl (Fr.mk_archive_flash (Fr.refl _ s) rfl))

theorem State.archivedAs_objs (s : State) (size : Nat) (l : List Capture) :
    s.SameObjs (Obj.REC_COUNT :: Obj.OD_JOURNAL :: wearKeys) (s.archivedAs size l) := by
  have hput (a : List Capture) (f : Flash) (v : Nat) : s.SameObjs (Obj.REC_COUNT :: Obj.OD_JOURNAL :: wearKeys)
      (({ s with archive := a, flash := f } : State).put Obj.REC_COUNT v) := State.put_sameObjs _ _ (by decide) (by decide)
  exact (hput _ _ _).trans ((State.wearObjs_objs _).mono (by decide))

theorem State.archivedAs_archive (s : State) (size : Nat) (l : List Capture) : (s.archivedAs size l).archive = l.take 256 := by
  rw [State.archivedAs, (State.wearObjs_parts (p := 0x200002010) rfl (Fr.refl _ _)).archive rfl, State.put_archive]

theorem State.archivedAs_flash (s : State) (size : Nat) (l : List Capture) :
    (s.archivedAs size l).flash.archived = s.flash.archived + size := by
  rw [State.archivedAs, State.wearObjs_archived, State.put_flash]

/-- What a capture that leaves the recorder never touches. -/
theorem State.closeCapture_frame {s : State} {c : Capture} (h : s.ring.closing = some c) (ok : Bool) :
    Fr 0x200112010 s.captureOut (s.closeCapture ok) := by
  rw [State.closeCapture_eq h]
  exact .ite (State.raise_parts _ _ _ rfl (Fr.refl _ _)) (.ite (State.count_parts _ _ rfl (Fr.refl _ _)) (State.archivedAs_parts _ _ _))

theorem State.closeCapture_ring {s : State} {c : Capture} (h : s.ring.closing = some c) (ok : Bool) :
    (s.closeCapture ok).ring = { s.ring with closing := none } :=
  ((State.closeCapture_frame h ok).ring rfl).trans s.captureOut_ring

theorem State.closeCapture_recState {s : State} {c : Capture} (h : s.ring.closing = some c) (ok : Bool) :
    (s.closeCapture ok).obj Obj.REC_STATE = if s.ring.open_.isSome then 2 else 1 := by
  rw [← State.captureOut_recState, State.closeCapture_eq h]
  split_ifs
  · exact (State.raise_reports _ _ _ _).2 _ (by decide)
  · exact State.put_sameObjs (ks := [Obj.REC_SUPPRESSED_CNT, Obj.OD_JOURNAL]) _ _ (by decide) (by decide) _ (by decide)
  · exact State.archivedAs_objs _ _ _ _ (by decide)

/-- A write that fails leaves the archive as it was. -/
theorem State.closeCapture_failed {s : State} {c : Capture} (h : s.ring.closing = some c) {ok : Bool} (hbad : ok = false ∨ s.flashOk = false) :
    (s.closeCapture ok).archive = s.archive := by
  rw [State.closeCapture_eq h, State.captureOut_flashOk, if_pos (by rcases hbad with hbad | hbad <;> simp [hbad]), State.raise_archive,
    s.captureOut_parts.archive rfl]

theorem State.closeCapture_archived {s : State} {c : Capture} (h : s.ring.closing = some c) (hflash : s.flashOk = true)
    (hroom : s.archiveBudget c.size = true) : ∃ l, s.closeCapture true = s.captureOut.archivedAs c.size (c :: l) := by
  refine ⟨makeRoom s.captureOut.archiveBytes 257 s.captureOut.archive c.size, ?_⟩
  rw [State.closeCapture_eq h, State.captureOut_flashOk, State.captureOut_budget, if_neg (by simp [hflash]), if_neg (by simp [hroom])]

theorem exec_captureClosed_of_held {s : State} (ok : Bool) (h : s.flashHeld = true) : exec (.captureClosed ok) s = .next s :=
  congrArg Host.Outcome.next (if_neg (by simp [h]))

theorem exec_captureClosed {s : State} (ok : Bool) (hup : s.shellUp = true) (h : s.flashHeld = false) :
    exec (.captureClosed ok) s = .next (s.closeCapture ok) := congrArg Host.Outcome.next (if_pos (by simp [hup, h]))

/-! ### The end of a window (R429) -/

/-- A capture that is still closing makes way for the next. -/
def State.closingFreed (s : State) : State := if s.ring.closing.isSome then s.closeCapture true else s

/-- The open capture with the records of its window. -/
def State.windowRecord (s : State) (c : Capture) (trunc : Bool) : Capture :=
  let from_ := c.t0 - ms 500
  { c with
    flags := setBit c.flags 0 (bit c.flags 0 || trunc)
    post := usBetween c.t0 (min s.recTime (c.t0 + ms 1500))
    scans := (s.ring.scans.filter fun r => from_ ≤ r.time && r.time < c.t0 + ms 1500).reverse
    events := (s.ring.events.filter fun e => from_ ≤ e.1 && e.1 < c.t0 + ms 1500).reverse }

/-- The window is shut, and its capture closes. -/
def State.windowShut (s : State) (c : Capture) : State :=
  { s with ring := { s.ring with open_ := none, closing := some c, lost := 0 } }.set Obj.REC_STATE 3

theorem State.closeWindow_eq {s : State} {c : Capture} (h : s.ring.open_ = some c) (trunc : Bool) : s.closeWindow trunc =
    if s.closingFreed.ring.lost = 0 then s.closingFreed.windowShut (s.closingFreed.windowRecord c trunc)
    else (s.closingFreed.windowShut (s.closingFreed.windowRecord c trunc)).raise 9 0x0A s.closingFreed.ring.lost := by
  unfold State.closeWindow
  rw [h]
  rfl

theorem State.closingFreed_ring (s : State) : s.closingFreed.ring = { s.ring with closing := none } := by
  unfold State.closingFreed
  cases h : s.ring.closing with
  | none =>
    simp only [Option.isSome_none, Bool.false_eq_true, if_false]
    rw [← h]
  | some c =>
    simp only [Option.isSome_some, if_true]
    rw [State.closeCapture_ring h]

theorem State.closingFreed_of_none {s : State} (h : s.ring.closing = none) : s.closingFreed = s := by
  rw [State.closingFreed, if_neg (by simp [h])]

theorem State.windowShut_parts (s : State) (c : Capture) : Fr 0x80010 s (s.windowShut c) :=
  State.set_parts _ _ rfl (Fr.mk_ring (Fr.refl _ s) rfl)

theorem State.windowShut_objs (s : State) (c : Capture) : s.SameObjs [Obj.REC_STATE] (s.windowShut c) := State.set_sameObjs _ _ (.head _)

theorem State.windowShut_recState (s : State) (c : Capture) : (s.windowShut c).obj Obj.REC_STATE = 3 := State.obj_set_same _ _ _

/-- The ring after a window's end, whether or not lost events are reported. -/
theorem State.closeWindow_ring {s : State} {c : Capture} (h : s.ring.open_ = some c) (trunc : Bool) : (s.closeWindow trunc).ring =
    { s.ring with open_ := none, closing := some (s.closingFreed.windowRecord c trunc), lost := 0 } := by
  have hshut : (s.closingFreed.windowShut (s.closingFreed.windowRecord c trunc)).ring =
      { s.closingFreed.ring with open_ := none, closing := some (s.closingFreed.windowRecord c trunc), lost := 0 } := rfl
  rw [State.closingFreed_ring] at hshut
  rw [State.closeWindow_eq h]
  split
  · exact hshut
  · rw [State.raise_ring, hshut]

theorem State.closeWindow_recState {s : State} {c : Capture} (h : s.ring.open_ = some c) (trunc : Bool) :
    (s.closeWindow trunc).obj Obj.REC_STATE = 3 := by
  rw [State.closeWindow_eq h]
  split
  · exact State.windowShut_recState _ _
  · exact ((State.raise_reports _ _ _ _).2 _ (by decide)).trans (State.windowShut_recState _ _)

/-- The scans of a window's record are those of the ring from 500 ms before T0 to 1.5 s after it. -/
theorem State.windowRecord_scans {s : State} {c : Capture} {trunc : Bool} {r : ScanRec} (h : r ∈ (s.windowRecord c trunc).scans) :
    r ∈ s.ring.scans ∧ c.t0 - ms 500 ≤ r.time ∧ r.time < c.t0 + ms 1500 := by
  simpa [State.windowRecord] using h

theorem exec_captureWindowEnd (s : State) : exec .captureWindowEnd s = .next (s.closeWindow false) := rfl

/-! ### KEEP (R433) -/

theorem State.wrote_recKeep_frame (s : State) (m : Master) (v : Nat) :
    Fr 0x800000010 (s.recKeep (v % 256)) (s.wrote m Obj.REC_KEEP v) := s.wrote_frame m Obj.REC_KEEP v

theorem State.wrote_recKeep_parts (s : State) (m : Master) (v : Nat) : Fr 0x800100010 s (s.wrote m Obj.REC_KEEP v) :=
  ((Fr.refl _ s).upd (State.recKeep_parts (p := 0x100000) (v % 256) rfl (Fr.refl _ s)) rfl).upd (s.wrote_recKeep_frame m v) rfl

theorem State.wrote_recKeep_objs (s : State) (m : Master) (v : Nat) : s.SameObjs [Obj.OD_STATS_REQUESTS] (s.wrote m Obj.REC_KEEP v) :=
  .trans (t := s.recKeep (v % 256)) (.refl _ s) (State.answerWith_good_objs _ m Obj.REC_KEEP [])

theorem exec_recKeepWrite {s : State} {m : Master} {v : Nat} (hs : s.served m = true)
    (hc : s.writeCode m Obj.REC_KEEP (leBytes 1 v) = 0) : exec (.recKeepWrite m v) s = .next (s.wrote m Obj.REC_KEEP v) := by
  rw [← State.logDiff_wrote (s.wrote_recKeep_parts m v) rfl rfl rfl rfl]
  exact congrArg Host.Outcome.next (State.logged_write hs hc)

/-- Settles O34: a request is a trigger in the recorder, where REC_CFG lets it, and a report; a window ends once the capture before it has
made way; a closing capture is lost, suppressed or archived; KEEP is one flag of one capture in the archive. -/
theorem squallRecorder : Obligations.SquallRecorder := by
  refine ⟨?request, ?window, fun ok s hheld => exec_captureClosed_of_held ok hheld, ?closed, ?keep⟩
  case request =>
    intro m v s hs hc
    have hanswer := s.wrote_recTrigger_frame m v
    refine ⟨_, exec_recTrigger hs hc, State.answerWith_code _ _ _ _ _, fun c hopen hon => ?_, fun hoff => ⟨?_, fun hroom => ?_⟩,
      (s.wrote_recTrigger_parts m v).only (by decide)⟩
    · rw [hanswer.ring rfl, State.recRequest_of_enabled m hon, State.raise_ring, State.capture_of_open hopen]
      rfl
    · rw [hanswer.ring rfl, State.recRequest_of_disabled m hoff, State.raise_ring]
    · rw [hanswer.col rfl, State.recRequest_of_disabled m hoff, State.raise_sent 11 (masterCode_lt m) hroom]
  case window =>
    intro c s hopen
    have hexec := exec_captureWindowEnd s
    have hring := State.closeWindow_ring hopen false
    have hlost : s.closingFreed.ring.lost = s.ring.lost := by rw [State.closingFreed_ring]
    have hend := State.closeWindow_eq hopen false
    rw [hlost] at hend
    refine ⟨_, hexec, by rw [hring], State.closeWindow_recState hopen false, by rw [hring], ⟨s.closingFreed.windowRecord c false, by rw [hring],
      rfl, rfl, rfl, fun r hr => ?_⟩, fun hfree hnone => ?_, fun hfree hsome hroom => ?_, (execCaptureWindowEnd_parts hexec).only (by decide)⟩
    · have hscans := State.windowRecord_scans hr
      rwa [State.closingFreed_ring] at hscans
    · rw [hend, if_pos hnone, State.closingFreed_of_none hfree]
      exact ⟨(s.windowShut_parts _).only (by decide), s.windowShut_objs _⟩
    · have hcol := (s.windowShut_parts (s.windowRecord c false)).col rfl
      rw [hend, if_neg hsome, State.closingFreed_of_none hfree, State.raise, State.send, if_pos (by rwa [hcol]), hcol]
  case closed =>
    intro ok c s hup hfree hclosing
    have hexec := exec_captureClosed ok hup hfree
    refine ⟨_, hexec, State.closeCapture_ring hclosing ok, State.closeCapture_recState hclosing ok, State.closeCapture_failed hclosing,
      fun hok hflash hroom => ?_, (execCaptureClosed_parts ok hexec).only (by decide)⟩
    obtain ⟨l, hkept⟩ := State.closeCapture_archived hclosing hflash hroom
    rw [hok, hkept, State.archivedAs_archive, State.archivedAs_flash, s.captureOut_parts.flash rfl]
    exact ⟨rfl, List.length_take_le _ _, rfl⟩
  case keep =>
    intro m v s hs hc
    refine ⟨_, exec_recKeepWrite hs hc, State.answerWith_code _ _ _ _ _, ?_, (s.wrote_recKeep_parts m v).only (by decide),
      s.wrote_recKeep_objs m v⟩
    rw [(s.wrote_recKeep_frame m v).archive rfl]
    rfl

end Sys2Proof.Machine
end

section
/-!
PROOFS. What only a few commands change (O6): the components that each command can reach.
-/
namespace Sys2Proof.Machine

/-! ### The reach of a command -/

/-- The components that are left open here: all but the queue, the clock and the six that `rareParts` tells about. -/
def commonParts : List Part :=
  [.free, .objs, .core, .grp, .ph, .aon, .strat, .mode, .src, .col, .recs, .spd, .jrnl, .otp, .meas, .ring, .archive, .hz, .logRetry, .tabs,
    .env, .chg, .link, .fab, .seqs, .flash, .wd, .srv, .can, .note, .lin, .uds]

/-- Which of the retention cell, the time of the records, Park's charge account, the thermal chain, the hour's account and the operating log
a command reaches. -/
def rareParts : Instr → List Part
  | .powerOnReset | .railPor => [.recTime, .parkAcc, .thm, .hour]
  | .powerOnResetRelease _ => [.cell]
  | .thermalShutdown _ => [.cell, .hour]
  | .parkCheck _ => [.parkAcc]
  | .nrstCoreReset _ | .sramScrub _ _ => [.parkAcc, .hour]
  | .parkEntryAdvance | .coreHandover _ => [.parkAcc, .hour, .log]
  | .bringupStepComplete _ _ _ _ => [.parkAcc, .thm, .hour, .log]
  | .commonTrigger _ _ => [.thm, .hour]
  | .safePoint _ | .selfcalComplete _ | .hzRoundClose | .otpReverify _ => [.thm]
  | .epochComplete | .flashScrub _ => [.thm, .log]
  | .faultRaise | .recordHandling | .coreStall | .vbusDrop _ | .loadDump _ | .overRailReconnect _ _ | .reverseCurrent _ _ _ => [.hour]
  | .hourRecord | .vauxWarning _ => [.hour, .log]
  | .flashWriteComplete _ _ _ => [.log]
  | _ => []

/-- Power-on reset keeps the retention cell and the operating log, and neither the commit nor the OTP programming that it cuts short touches
them (R545, R558, R730). -/
theorem State.powerOnReset_only (s : State) (n : Nat) : s.OnlyParts (commonParts ++ [.recTime, .parkAcc, .thm, .hour]) (s.powerOnReset n) := by
  have hcut : Fr 0x200020008 s s.commitTorn.otpBreak := State.otpBreak_parts rfl (State.commitTorn_parts rfl (Fr.refl _ s))
  intro q hq
  cases q
  case pending => exact hcut.pending rfl
  case now => exact hcut.now rfl
  case cell => exact hcut.cell rfl
  case log => exact hcut.log rfl
  all_goals exact absurd hq (by decide)

/-- A footprint inside the common parts. -/
theorem Fr.common {p : Nat} {s t : State} (h : Fr p s t) (hp : p ||| 0xfffc5ffdf8 = 0xfffc5ffdf8) (l : List Part) :
    s.OnlyParts (commonParts ++ l) t := fun q hq =>
  ((Fr.refl 0xfffc5ffdf8 s).upd h hp).only (l := commonParts) rfl q fun hmem => hq (List.mem_append_left l hmem)

/-- A command changes nothing besides its rare parts and the common ones. -/
theorem exec_only {c : Instr} {s t : State} (h : exec c s = .next t) : s.OnlyParts (commonParts ++ rareParts c) t := by
  cases c with
  | powerOnReset | railPor =>
    cases h
    exact s.powerOnReset_only _
  | powerOnResetRelease => exact (execPowerOnResetRelease_parts _ h).only rfl
  | vauxWarning => exact (execVauxWarning_parts _ h).only rfl
  | vauxWarningClear => exact (execVauxWarningClear_parts h).common rfl _
  | nrstCoreReset => exact (execNrstCoreReset_parts _ h).only rfl
  | nrstEscalation => exact (execNrstEscalation_parts h).common rfl _
  | resetRelease => exact (execResetRelease_parts _ h).common rfl _
  | nrstDriveEnd => exact (execNrstDriveEnd_parts h).common rfl _
  | bringupStepComplete => exact (execBringupStepComplete_parts _ _ _ _ h).only rfl
  | coreHandover => exact (execCoreHandover_parts _ h).only rfl
  | wakePin => exact (execWakePin_parts h).common rfl _
  | vbusAttach => exact (execVbusAttach_parts h).common rfl _
  | parkCheck => exact (execParkCheck_parts _ h).only rfl
  | modeReqWrite => exact (execModeReqWrite_parts _ _ _ h).common rfl _
  | modeLeaseExpiry => exact (execModeLeaseExpiry_parts _ h).common rfl _
  | modeTargetReevaluation => exact (execModeTargetReevaluation_parts h).common rfl _
  | idleParkDelayExpiry => exact (execIdleParkDelayExpiry_parts h).common rfl _
  | wakeHoldExpiry => exact (execWakeHoldExpiry_parts h).common rfl _
  | parkEntryAdvance => exact (execParkEntryAdvance_parts h).only rfl
  | heartbeatLoss => exact (execHeartbeatLoss_parts h).common rfl _
  | stratusLinkHoldExpiry => exact (execStratusLinkHoldExpiry_parts h).common rfl _
  | stratusLinkRampEnd => exact (execStratusLinkRampEnd_parts h).common rfl _
  | nfailoverPulseEnd => exact (execNfailoverPulseEnd_parts h).common rfl _
  | portLatchWrite => exact (execPortLatchWrite_parts _ _ _ h).common rfl _
  | commit => exact (execCommit_parts h).common rfl _
  | heartbeat => exact (execHeartbeat_parts h).common rfl _
  | switchingCycleBoundary => exact (execSwitchingCycleBoundary_parts _ _ h).common rfl _
  | shedDecision => exact (execShedDecision_parts _ h).common rfl _
  | shedBlockEnd => exact (execShedBlockEnd_parts _ h).common rfl _
  | balancingUpdate => exact (execBalancingUpdate_parts _ _ h).common rfl _
  | foldback => exact (execFoldback_parts _ h).common rfl _
  | foldStop => exact (execFoldStop_parts _ h).common rfl _
  | foldRestart => exact (execFoldRestart_parts _ h).common rfl _
  | softStartEnd => exact (execSoftStartEnd_parts _ h).common rfl _
  | passThroughEntry => exact (execPassThroughEntry_parts h).common rfl _
  | phaseCycleStart => exact (execPhaseCycleStart_parts _ h).common rfl _
  | currentTermination => exact (execCurrentTermination_parts _ _ _ h).common rfl _
  | maxOnTimeEnd => exact (execMaxOnTimeEnd_parts _ h).common rfl _
  | feedforwardUpdate => exact (execFeedforwardUpdate_parts _ _ h).common rfl _
  | phasePeak => exact (execPhasePeak_parts _ h).common rfl _
  | stageFault => exact (execStageFault_parts _ h).common rfl _
  | railOv => exact (execRailOv_parts h).common rfl _
  | railOvPersist => exact (execRailOvPersist_parts h).common rfl _
  | railOvRelease => exact (execRailOvRelease_parts _ _ _ h).common rfl _
  | servoUnlock => exact (execServoUnlock_parts _ h).common rfl _
  | servoRelock => exact (execServoRelock_parts _ h).common rfl _
  | coreStall => exact (execCoreStall_parts h).only rfl
  | coreSpeedUpdate => exact (execCoreSpeedUpdate_parts _ h).common rfl _
  | isnsZeroMeasurement => exact (execIsnsZeroMeasurement_parts _ _ h).common rfl _
  | balAtClamp => exact (execBalAtClamp_parts _ h).common rfl _
  | headroom => exact (execHeadroom_parts _ h).common rfl _
  | groupApply => exact (execGroupApply_parts _ _ h).common rfl _
  | syncLocked => exact (execSyncLocked_parts _ h).common rfl _
  | syncRange => exact (execSyncRange_parts _ h).common rfl _
  | syncLost => exact (execSyncLost_parts _ h).common rfl _
  | freqPlanCheck => exact (execFreqPlanCheck_parts h).common rfl _
  | vbusDrop => exact (execVbusDrop_parts _ h).only rfl
  | loadDump => exact (execLoadDump_parts _ h).only rfl
  | sourceReconnect => exact (execSourceReconnect_parts _ _ _ h).common rfl _
  | overRail => exact (execOverRail_parts _ h).common rfl _
  | overRailReconnect => exact (execOverRailReconnect_parts _ _ h).only rfl
  | reverseCurrent => exact (execReverseCurrent_parts _ _ _ h).only rfl
  | vbusDetach => exact (execVbusDetach_parts h).common rfl _
  | prechargeComplete => exact (execPrechargeComplete_parts h).common rfl _
  | discOpen => exact (execDiscOpen_parts h).common rfl _
  | discShort => exact (execDiscShort_parts _ h).common rfl _
  | srcClassify => exact (execSrcClassify_parts _ _ h).common rfl _
  | classificationWindowTest => exact (execClassificationWindowTest_parts _ _ h).common rfl _
  | classificationStepStart => exact (execClassificationStepStart_parts _ _ h).common rfl _
  | classificationStepEnd => exact (execClassificationStepEnd_parts _ h).common rfl _
  | classificationResult => exact (execClassificationResult_parts _ _ _ _ _ _ _ _ h).common rfl _
  | reclassification => exact (execReclassification_parts h).common rfl _
  | iinLimitUpdate => exact (execIinLimitUpdate_parts _ _ _ _ h).common rfl _
  | harnessHigh => exact (execHarnessHigh_parts h).common rfl _
  | frameStart => exact (execFrameStart_parts _ _ h).common rfl _
  | frameTimer => exact (execFrameTimer_parts _ h).common rfl _
  | feedLost => exact (execFeedLost_parts h).common rfl _
  | envDoutRelease => exact (execEnvDoutRelease_parts h).common rfl _
  | demandHeader => exact (execDemandHeader_parts _ h).common rfl _
  | demandSlot => exact (execDemandSlot_parts _ _ h).common rfl _
  | grantComputation => exact (execGrantComputation_parts h).common rfl _
  | grantLate => exact (execGrantLate_parts h).common rfl _
  | envCfgWrite => exact (execEnvCfgWrite_parts _ _ h).common rfl _
  | commonTrigger => exact (execCommonTrigger_parts _ _ h).only rfl
  | slotComplete => exact (execSlotComplete_parts _ _ _ _ _ _ h).common rfl _
  | scanComplete => exact (execScanComplete_parts _ _ h).common rfl _
  | scanStall => exact (execScanStall_parts _ _ h).common rfl _
  | packPresent => exact (execPackPresent_parts _ _ h).common rfl _
  | packAbsent => exact (execPackAbsent_parts _ h).common rfl _
  | packLost => exact (execPackLost_parts _ h).common rfl _
  | openTapTest => exact (execOpenTapTest_parts _ h).common rfl _
  | cvTermination => exact (execCvTermination_parts h).common rfl _
  | topoffEnd => exact (execTopoffEnd_parts h).common rfl _
  | safetyTimerTick => exact (execSafetyTimerTick_parts _ h).common rfl _
  | timerExpired => exact (execTimerExpired_parts h).common rfl _
  | precondTimeout => exact (execPrecondTimeout_parts h).common rfl _
  | cellImbalance => exact (execCellImbalance_parts h).common rfl _
  | ocvCorrection => exact (execOcvCorrection_parts h).common rfl _
  | packCellsWrite => exact (execPackCellsWrite_parts _ _ h).common rfl _
  | chgEnableWrite => exact (execChgEnableWrite_parts _ _ h).common rfl _
  | chgServiceWrite => exact (execChgServiceWrite_parts _ _ h).common rfl _
  | chgFaultsRead => exact (execChgFaultsRead_parts _ h).common rfl _
  | portMated => exact (execPortMated_parts _ h).common rfl _
  | portOpen => exact (execPortOpen_parts _ h).common rfl _
  | linkSideDischarge => exact (execLinkSideDischarge_parts _ h).common rfl _
  | peerSilent => exact (execPeerSilent_parts _ h).common rfl _
  | connectorBurst => exact (execConnectorBurst_parts _ _ h).common rfl _
  | connectorBurstDone => exact (execConnectorBurstDone_parts _ _ _ h).common rfl _
  | offer => exact (execOffer_parts _ _ _ h).common rfl _
  | request => exact (execRequest_parts _ _ _ _ h).common rfl _
  | accept => exact (execAccept_parts _ _ _ h).common rfl _
  | reject => exact (execReject_parts _ _ _ h).common rfl _
  | ready => exact (execReady_parts _ _ _ h).common rfl _
  | swapReq => exact (execSwapReq_parts _ _ _ h).common rfl _
  | swapAck => exact (execSwapAck_parts _ _ _ h).common rfl _
  | hardReset => exact (execHardReset_parts _ _ _ h).common rfl _
  | detach => exact (execDetach_parts _ _ _ h).common rfl _
  | sendReady => exact (execSendReady_parts _ _ h).common rfl _
  | noResponse => exact (execNoResponse_parts _ h).common rfl _
  | transitionTimeout => exact (execTransitionTimeout_parts _ h).common rfl _
  | contractVoltage => exact (execContractVoltage_parts _ _ h).common rfl _
  | dataLost => exact (execDataLost_parts _ h).common rfl _
  | swapDwellEnd => exact (execSwapDwellEnd_parts _ h).common rfl _
  | linkDischargeDone => exact (execLinkDischargeDone_parts _ h).common rfl _
  | dischargeFail => exact (execDischargeFail_parts _ _ h).common rfl _
  | rampDownComplete => exact (execRampDownComplete_parts _ h).common rfl _
  | reoffer => exact (execReoffer_parts _ h).common rfl _
  | linkCtrlDetach => exact (execLinkCtrlDetach_parts _ _ h).common rfl _
  | linkCtrlSwapReq => exact (execLinkCtrlSwapReq_parts _ _ h).common rfl _
  | linkCtrlHardReset => exact (execLinkCtrlHardReset_parts _ _ h).common rfl _
  | linkCtrlApplyPolicy => exact (execLinkCtrlApplyPolicy_parts _ _ h).common rfl _
  | receiverLock => exact (execReceiverLock_parts _ h).common rfl _
  | receiverLockLost => exact (execReceiverLockLost_parts _ h).common rfl _
  | helloSend => exact (execHelloSend_parts _ _ h).common rfl _
  | hello => exact (execHello_parts _ _ _ h).common rfl _
  | helloTimeout => exact (execHelloTimeout_parts _ h).common rfl _
  | topo => exact (execTopo_parts _ _ _ _ _ h).common rfl _
  | topoSend => exact (execTopoSend_parts h).common rfl _
  | topoRecordExpiry => exact (execTopoRecordExpiry_parts _ h).common rfl _
  | fabricSettled => exact (execFabricSettled_parts h).common rfl _
  | assign => exact (execAssign_parts _ _ _ _ _ h).common rfl _
  | assignRepeat => exact (execAssignRepeat_parts h).common rfl _
  | frameForward => exact (execFrameForward_parts _ _ _ h).common rfl _
  | readReq => exact (execReadReq_parts _ _ _ _ h).common rfl _
  | writeReq => exact (execWriteReq_parts _ _ _ _ _ _ _ h).common rfl _
  | fabricResponse => exact (execFabricResponse_parts _ _ _ _ h).common rfl _
  | fabricRequestTimeout => exact (execFabricRequestTimeout_parts _ h).common rfl _
  | notifySend => exact (execNotifySend_parts h).common rfl _
  | bootReq => exact (execBootReq_parts _ _ _ h).common rfl _
  | bootData => exact (execBootData_parts _ _ _ h).common rfl _
  | fabricBootFail => exact (execFabricBootFail_parts h).common rfl _
  | markerEmit => exact (execMarkerEmit_parts _ _ h).common rfl _
  | marker => exact (execMarker_parts _ _ _ _ _ h).common rfl _
  | timebaseLost => exact (execTimebaseLost_parts h).common rfl _
  | nodeIdSetWrite => exact (execNodeIdSetWrite_parts _ _ h).common rfl _
  | selfcalCmd => exact (execSelfcalCmd_parts _ _ h).common rfl _
  | selfcalComplete => exact (execSelfcalComplete_parts _ h).only rfl
  | calRefreshRound => exact (execCalRefreshRound_parts h).common rfl _
  | calStale => exact (execCalStale_parts h).common rfl _
  | recTrigger => exact (execRecTrigger_parts _ _ h).common rfl _
  | captureWindowEnd => exact (execCaptureWindowEnd_parts h).common rfl _
  | captureClosed => exact (execCaptureClosed_parts _ h).common rfl _
  | recKeepWrite => exact (execRecKeepWrite_parts _ _ h).common rfl _
  | thermalShutdown => exact (execThermalShutdown_parts _ h).only rfl
  | thermalShutdownRelease => exact (execThermalShutdownRelease_parts h).common rfl _
  | hzRoundClose => exact (execHzRoundClose_parts h).only rfl
  | hzProbeStart => exact (execHzProbeStart_parts h).common rfl _
  | hzProbeComplete => exact (execHzProbeComplete_parts _ _ h).common rfl _
  | hzEpochTimer => exact (execHzEpochTimer_parts h).common rfl _
  | hzEpochCmd => exact (execHzEpochCmd_parts _ _ h).common rfl _
  | epochComplete => exact (execEpochComplete_parts h).only rfl
  | hzTermRamp => exact (execHzTermRamp_parts h).common rfl _
  | freqCeilingStep => exact (execFreqCeilingStep_parts h).common rfl _
  | hzRebase => exact (execHzRebase_parts _ _ h).common rfl _
  | hourRecord => exact (execHourRecord_parts h).only rfl
  | faultRaise => exact (execFaultRaise_parts h).only rfl
  | faultClear => exact (execFaultClear_parts h).common rfl _
  | faultLost => exact (execFaultLost_parts _ h).common rfl _
  | recordHandling => exact (execRecordHandling_parts h).only rfl
  | blockResetComplete => exact (execBlockResetComplete_parts h).common rfl _
  | faultAck => exact (execFaultAck_parts _ _ h).common rfl _
  | faultRecordRead => exact (execFaultRecordRead_parts _ _ h).common rfl _
  | faultInject => exact (execFaultInject_parts _ _ h).common rfl _
  | collectorSelfLoop => exact (execCollectorSelfLoop_parts _ h).common rfl _
  | haloToggle => exact (execHaloToggle_parts h).common rfl _
  | wdPeriodStart => exact (execWdPeriodStart_parts h).common rfl _
  | wdHardwareCheckin => exact (execWdHardwareCheckin_parts _ h).common rfl _
  | wdCheckin => exact (execWdCheckin_parts _ _ _ h).common rfl _
  | wdWindowClose => exact (execWdWindowClose_parts _ h).common rfl _
  | wdConfigWrite => exact (execWdConfigWrite_parts _ _ _ h).common rfl _
  | objectWrite => exact (execObjectWrite_parts _ _ _ h).common rfl _
  | domainWriteSegment => exact (execDomainWriteSegment_parts _ _ _ _ _ h).common rfl _
  | domainReadSegment => exact (execDomainReadSegment_parts _ _ _ _ h).common rfl _
  | domainSnapshotExpiry => exact (execDomainSnapshotExpiry_parts _ _ h).common rfl _
  | wholeObjectRead => exact (execWholeObjectRead_parts _ _ h).common rfl _
  | odLockWrite => exact (execOdLockWrite_parts _ _ _ h).common rfl _
  | odLockLeaseExpiry => exact (execOdLockLeaseExpiry_parts _ h).common rfl _
  | odCommit => exact (execOdCommit_parts _ _ h).common rfl _
  | journalCommit => exact (execJournalCommit_parts h).common rfl _
  | journalCommitDone => exact (execJournalCommitDone_parts _ _ h).common rfl _
  | odRestore => exact (execOdRestore_parts _ _ h).common rfl _
  | canRead => exact (execCanRead_parts _ _ _ h).common rfl _
  | canWrite => exact (execCanWrite_parts _ _ _ h).common rfl _
  | readBlock => exact (execReadBlock_parts _ _ _ h).common rfl _
  | writeBlock => exact (execWriteBlock_parts _ _ _ h).common rfl _
  | seed => exact (execSeed_parts _ _ _ h).common rfl _
  | key => exact (execKey_parts _ _ _ h).common rfl _
  | segmentGapTimeout => exact (execSegmentGapTimeout_parts _ _ h).common rfl _
  | canNotify => exact (execCanNotify_parts _ h).common rfl _
  | txTimeout => exact (execTxTimeout_parts _ h).common rfl _
  | canApply => exact (execCanApply_parts _ _ h).common rfl _
  | busOff => exact (execBusOff_parts _ h).common rfl _
  | errorPassive => exact (execErrorPassive_parts _ _ _ h).common rfl _
  | rxOverrun => exact (execRxOverrun_parts _ _ h).common rfl _
  | testerSessionTimeout => exact (execTesterSessionTimeout_parts h).common rfl _
  | linCommand => exact (execLinCommand_parts _ _ _ h).common rfl _
  | linStatus => exact (execLinStatus_parts _ _ h).common rfl _
  | objReq => exact (execObjReq_parts _ _ _ h).common rfl _
  | objRsp => exact (execObjRsp_parts _ _ h).common rfl _
  | assignNad => exact (execAssignNad_parts _ _ _ h).common rfl _
  | readByIdentifier => exact (execReadByIdentifier_parts _ _ _ h).common rfl _
  | saveConfiguration => exact (execSaveConfiguration_parts _ _ _ h).common rfl _
  | assignFrameIdentifierRange => exact (execAssignFrameIdentifierRange_parts _ _ _ h).common rfl _
  | goToSleep => exact (execGoToSleep_parts _ _ h).common rfl _
  | linBusInactivity => exact (execLinBusInactivity_parts h).common rfl _
  | linWake => exact (execLinWake_parts _ h).common rfl _
  | linWakeTx => exact (execLinWakeTx_parts h).common rfl _
  | linBusShort => exact (execLinBusShort_parts h).common rfl _
  | firstFrame => exact (execFirstFrame_parts _ _ _ _ _ h).common rfl _
  | consecutiveFrame => exact (execConsecutiveFrame_parts _ _ h).common rfl _
  | flowControl => exact (execFlowControl_parts _ _ _ h).common rfl _
  | nBsTimeout => exact (execNBsTimeout_parts h).common rfl _
  | nCrTimeout => exact (execNCrTimeout_parts h).common rfl _
  | diagnosticSessionControl => exact (execDiagnosticSessionControl_parts _ _ _ h).common rfl _
  | ecuResetHard => exact (execEcuResetHard_parts _ _ _ h).common rfl _
  | ecuResetSoft => exact (execEcuResetSoft_parts _ _ _ h).common rfl _
  | clearDiagnosticInformation => exact (execClearDiagnosticInformation_parts _ _ _ h).common rfl _
  | reportNumberOfDtc => exact (execReportNumberOfDtc_parts _ _ _ h).common rfl _
  | reportDtcByStatus => exact (execReportDtcByStatus_parts _ _ _ h).common rfl _
  | reportDtcSnapshot => exact (execReportDtcSnapshot_parts _ _ _ h).common rfl _
  | reportDtcExtendedData => exact (execReportDtcExtendedData_parts _ _ _ h).common rfl _
  | reportSupportedDtc => exact (execReportSupportedDtc_parts _ _ _ h).common rfl _
  | readDataByIdentifier => exact (execReadDataByIdentifier_parts _ _ _ h).common rfl _
  | writeDataByIdentifier => exact (execWriteDataByIdentifier_parts _ _ _ h).common rfl _
  | securityAccessSeed => exact (execSecurityAccessSeed_parts _ _ _ h).common rfl _
  | securityAccessKey => exact (execSecurityAccessKey_parts _ _ _ h).common rfl _
  | securityDelayEnd => exact (execSecurityDelayEnd_parts h).common rfl _
  | routineSelfCalibration => exact (execRoutineSelfCalibration_parts _ _ _ h).common rfl _
  | routineHorizonEpoch => exact (execRoutineHorizonEpoch_parts _ _ _ h).common rfl _
  | routineMoistureTest => exact (execRoutineMoistureTest_parts _ _ _ h).common rfl _
  | routineTableSwitch => exact (execRoutineTableSwitch_parts _ _ _ h).common rfl _
  | requestRoutineResults => exact (execRequestRoutineResults_parts _ _ _ h).common rfl _
  | requestDownload => exact (execRequestDownload_parts _ _ _ h).common rfl _
  | transferData => exact (execTransferData_parts _ _ _ h).common rfl _
  | requestTransferExit => exact (execRequestTransferExit_parts _ _ _ h).common rfl _
  | testerPresent => exact (execTesterPresent_parts _ _ _ h).common rfl _
  | controlDtcSettingOn => exact (execControlDtcSettingOn_parts _ _ _ h).common rfl _
  | controlDtcSettingOff => exact (execControlDtcSettingOff_parts _ _ _ h).common rfl _
  | responsePending => exact (execResponsePending_parts h).common rfl _
  | s3ServerTimeout => exact (execS3ServerTimeout_parts h).common rfl _
  | dtcClear => exact (execDtcClear_parts _ _ h).common rfl _
  | tableSwitch => exact (execTableSwitch_parts _ _ h).common rfl _
  | safePoint => exact (execSafePoint_parts _ h).only rfl
  | switchDeferred => exact (execSwitchDeferred_parts _ h).common rfl _
  | tableLoad => exact (execTableLoad_parts _ _ h).common rfl _
  | sequencerEvaluation => exact (execSequencerEvaluation_parts _ _ h).common rfl _
  | trapRelease => exact (execTrapRelease_parts _ _ h).common rfl _
  | sramScrub => exact (execSramScrub_parts _ _ h).only rfl
  | flashScrub => exact (execFlashScrub_parts _ h).only rfl
  | otpReverify => exact (execOtpReverify_parts _ h).only rfl
  | otpProg => exact (execOtpProg_parts _ _ h).common rfl _
  | otpLock => exact (execOtpLock_parts _ _ h).common rfl _
  | clockReferenceLost => exact (execClockReferenceLost_parts _ h).common rfl _
  | recoveredClkLost => exact (execRecoveredClkLost_parts h).common rfl _
  | pllUnlock => exact (execPllUnlock_parts h).common rfl _
  | coreBuckFault => exact (execCoreBuckFault_parts h).common rfl _
  | vcoreRange => exact (execVcoreRange_parts _ h).common rfl _
  | vdd33Range => exact (execVdd33Range_parts _ h).common rfl _
  | overcastShutdownAdvance => exact (execOvercastShutdownAdvance_parts h).common rfl _
  | farPilotPresent => exact (execFarPilotPresent_parts _ h).common rfl _
  | linBreak => exact (execLinBreak_parts _ h).common rfl _
  | slaveResponse => exact (execSlaveResponse_parts _ _ h).common rfl _
  | linBusRecessive => exact (execLinBusRecessive_parts h).common rfl _
  | busOffRecovery => exact (execBusOffRecovery_parts _ h).common rfl _
  | pllLockHeld => exact (execPllLockHeld_parts h).common rfl _
  | referenceGood => exact (execReferenceGood_parts h).common rfl _
  | vcoreWithinRange => exact (execVcoreWithinRange_parts h).common rfl _
  | vdd33WithinRange => exact (execVdd33WithinRange_parts h).common rfl _
  | coreBuckRestart => exact (execCoreBuckRestart_parts h).common rfl _
  | coreBuckNormal => exact (execCoreBuckNormal_parts h).common rfl _
  | tapReset => exact (execTapReset_parts h).common rfl _
  | boundaryScanInstruction => exact (execBoundaryScanInstruction_parts h).common rfl _
  | flashWriteComplete => exact (execFlashWriteComplete_parts _ _ _ h).only rfl
  | otpProgrammingComplete => exact (execOtpProgrammingComplete_parts _ h).common rfl _

theorem exec_same {c : Instr} {s t : State} (h : exec c s = .next t) {q : Part} (hc : q ∉ rareParts c) (hq : q ∉ commonParts := by decide) :
    q.same s t := exec_only h q (List.not_mem_append hq hc)

/-- Settles O6: a part that a command changes is one that it reaches, and those that reach a part are the commands excepted for it. -/
theorem whatFewCommandsChange : Obligations.WhatFewCommandsChange := by
  intro c s t h
  refine ⟨fun _ _ => exec_same (q := .cell) h ?_, fun _ _ => ⟨exec_same (q := .recTime) h ?_, fun _ _ _ _ _ _ => exec_same (q := .parkAcc) h ?_,
    fun _ _ _ _ _ _ _ _ => exec_same (q := .thm) h ?_, fun _ _ _ _ _ _ _ _ _ _ _ _ _ _ _ _ => exec_same (q := .hour) h ?_⟩,
    fun _ _ _ _ _ _ _ _ => exec_same (q := .log) h ?_⟩
  all_goals fun_cases rareParts c <;> grind

end Sys2Proof.Machine
end

section
/-!
PROOFS. A reason to stop in the groups, and what keeps it: words that the port takes, link ports that turn NEUTRAL, the Overcast latch.
-/
namespace Sys2Proof.Machine

/-- Reason `n` to stop stands in the same groups. -/
def SameStop (n : Nat) (s t : State) : Prop := ∀ g, bit (t.g g).stops n = bit (s.g g).stops n

namespace SameStop

theorem refl (n : Nat) (s : State) : SameStop n s s := fun _ => rfl

theorem trans {n : Nat} {s t u : State} (h : SameStop n s t) (k : SameStop n t u) : SameStop n s u := fun g => (k g).trans (h g)

theorem ite {n : Nat} {s a b : State} {c : Prop} [Decidable c] (ha : SameStop n s a) (hb : SameStop n s b) :
    SameStop n s (if c then a else b) := by
  split <;> assumption

theorem foldl {α : Type} {n : Nat} {s x : State} {f : State → α → State} (l : List α) (h : SameStop n s x)
    (hf : ∀ y a, SameStop n y (f y a)) : SameStop n s (l.foldl f x) := by
  induction l generalizing x with
  | nil => exact h
  | cons a l ih => exact ih (h.trans (hf x a))

theorem of_grp {n : Nat} {s t : State} (h : t.grp = s.grp) : SameStop n s t := fun g => by rw [State.g_congr h]

/-- A footprint without groups. -/
theorem of_parts {n p : Nat} {s t : State} (h : Fr p s t) (hg : p.testBit 6 = false) : SameStop n s t := of_grp (h.grp hg)

theorem modG {n : Nat} (s : State) (g : Group) {f : GroupSt → GroupSt} (hf : ∀ x, (f x).stops = x.stops) : SameStop n s (s.modG g f) :=
  fun h => congrArg (bit · n) (s.g_modG_field GroupSt.stops g h hf)

end SameStop

theorem State.stopG_sameStop {n m : Nat} (h : n ≠ m) (s : State) (g : Group) : SameStop n s (s.stopG g m) := fun x => by
  by_cases hx : x = g
  · rw [hx, State.g_stopG_same]
    exact bit_setBit_other _ _ h
  · rw [State.g_stopG_other _ _ hx]

theorem State.g_freeG_other (s : State) {g h : Group} (n : Nat) (hne : h ≠ g) : (s.freeG g n).g h = s.g h := State.g_modG_other s _ hne

theorem State.freeG_sameStop {n m : Nat} (h : n ≠ m) (s : State) (g : Group) : SameStop n s (s.freeG g m) := fun x => by
  by_cases hx : x = g
  · rw [hx, State.stops_freeG_same, bit_setBit_other _ _ h]
  · rw [State.g_freeG_other _ _ hx]

/-! ### The port's words (R34, R113) -/

theorem State.applyFreq_sameStop (n : Nat) (s : State) (g : Group) (v : Nat) : SameStop n s (s.applyFreq g v) :=
  .modG s g fun x => by split_ifs <;> rfl

theorem State.applyOrder_sameStop (n : Nat) (s : State) (g : Group) (v : Nat) : SameStop n s (s.applyOrder g v) := by
  unfold State.applyOrder
  extract_lets order posOf core s1 s2 s3
  have hphases : SameStop n s1 s2 := .of_parts (p := 0x80) (State.foldl_modP_parts _ _ _) rfl
  have hdue : SameStop n s2 s3 := .modG s2 g fun _ => rfl
  have hcleared := ((s3.coreClearBy_told fun m => m.src == 1 && (m.kind == 2 || m.kind == 3) && (s.phasesOf g).contains m.inst).trans
    (State.coreClearBy_told _ fun m => m.src == sourceOf g && m.kind == 3)).grp
  exact (SameStop.of_grp (t := s1) rfl).trans (hphases.trans (hdue.trans (.of_grp hcleared)))

theorem State.applyWord_sameStop (n : Nat) (s : State) (g : Group) (id v : Nat) : SameStop n s (s.applyWord g id v) :=
  .ite (.modG s g fun _ => rfl) (.ite (.of_grp rfl) (.ite (s.applyFreq_sameStop n g v) (.ite (s.applyOrder_sameStop n g v) (.refl n s))))

theorem State.applyAll_sameStop (n : Nat) (s : State) (g : Group) : SameStop n s (s.applyAll g) := by
  unfold State.applyAll
  refine .foldl _ (.refl n s) fun y w => .ite ?_ (.refl n y)
  extract_lets y1 wait y2
  have hkept : SameStop n y1 y2 := .ite (.of_grp rfl) (.refl n y1)
  exact (y.applyWord_sameStop n g w.id w.value).trans (hkept.trans (.of_grp rfl))

/-- A word that the shell writes ends a pack removal's stop (7) at the most (R292). -/
theorem State.accept_sameStop {n : Nat} (hn : n ≠ 7) (s : State) (id v : Nat) (hold : Bool) : SameStop n s (s.accept id v hold) := by
  unfold State.accept
  dsimp only
  generalize hx : ({ s with core := { s.core with pend := _, refused := none } } : State) = x
  have hready : SameStop n s (if id = 5 ∨ id = 6 then x.freeG .pack 7 else x) :=
    .trans (t := x) (hx ▸ .of_grp rfl) (.ite (x.freeG_sameStop hn .pack) (.refl n x))
  exact .ite hready (hready.trans (.foldl _ (.refl n _) fun y g => y.applyAll_sameStop n g))

theorem State.portIfNew_sameStop {n : Nat} (hn : n ≠ 7) (s : State) (id v : Nat) : SameStop n s (s.portIfNew id v) :=
  .ite (.ite (s.accept_sameStop hn _ _ _) (.of_parts (State.refuse_parts (p := 0x2030) _ rfl (Fr.refl _ s)) rfl)) (.refl n s)

/-! ### A port that turns NEUTRAL, the Overcast latch (R330, R532) -/

theorem State.voidContract_sameStop {n : Nat} (hn : n ≠ 7) (s : State) (p : Port) : SameStop n s (s.voidContract p) :=
  .trans (t := s.modL p LinkPort.void) (.of_grp rfl) (.trans (State.portIfNew_sameStop hn _ _ _) (.of_grp rfl))

theorem State.linkZ_sameStop {n : Nat} (hn : n ≠ 6) (s : State) (p : Port) : SameStop n s (s.linkZ p) := s.stopG_sameStop hn _

theorem State.toNeutral_sameStop {n : Nat} (h6 : n ≠ 6) (h7 : n ≠ 7) (s : State) (p : Port) : SameStop n s (s.toNeutral p) := by
  have hvoid : SameStop n s ((s.voidContract p).modL p fun l => { l with discharge := 0 }) :=
    (s.voidContract_sameStop h7 p).trans (.of_grp rfl)
  have hend : ∀ (x : State) (m : Nat) (held : Bool), SameStop n x (((x.setLink p m).ordering).endLoss held) := fun x m held =>
    .of_parts (State.endLoss_parts (p := 0x10012010) held rfl (State.ordering_parts rfl (State.setLink_parts p m rfl (Fr.refl _ x)))) rfl
  exact (hvoid.trans (State.linkZ_sameStop h6 _ p)).trans (hend _ _ _)

theorem State.setOvercast_sameStop {n : Nat} (hn : n ≠ 4) (s : State) : SameStop n s s.setOvercast := by
  refine .ite (.refl n s) (.trans (t := { s with
    aon := { s.aon with overcast := true, overcastStage := 1 }, hour := { s.hour with overcast := true } }) (.of_grp rfl) ?_)
  exact .trans (.ite ((State.stopG_sameStop hn _ .east).trans (State.stopG_sameStop hn _ .west)) (.refl n _)) (.of_grp rfl)

end Sys2Proof.Machine
end

section
/-!
PROOFS. TSD_STATE while a stored target is acted on: no change of the mode touches it (R460, R461).
-/
namespace Sys2Proof.Machine

/-- TSD_STATE reads as before. -/
def SameTsd (s t : State) : Prop := t.obj Obj.TSD_STATE = s.obj Obj.TSD_STATE

namespace SameTsd

theorem refl (s : State) : SameTsd s s := rfl

theorem trans {s t u : State} (h : SameTsd s t) (k : SameTsd t u) : SameTsd s u := Eq.trans k h

theorem ite {s a b : State} {c : Prop} [Decidable c] (ha : SameTsd s a) (hb : SameTsd s b) : SameTsd s (if c then a else b) := by
  split <;> assumption

theorem of_spares {s t : State} (h : Spares s t) : SameTsd s t := h.objs _ (by decide)

theorem of_objs {ks : List Nat} {s t : State} (h : s.SameObjs ks t) (hk : Obj.TSD_STATE ∉ ks) : SameTsd s t := h _ hk

/-- The same objects. -/
theorem of_objs_eq (s : State) {t : State} (h : t.objs = s.objs) : SameTsd s t := State.obj_congr h _

/-- A footprint without objects. -/
theorem of_parts {p : Nat} {s t : State} (h : Fr p s t) (ho : p.testBit 4 = false) : SameTsd s t := State.obj_congr (h.objs ho) _

theorem set (s : State) {k : Nat} (v : Nat) (hk : Obj.TSD_STATE ≠ k) : SameTsd s (s.set k v) := State.obj_set_other s v hk

end SameTsd

/-! ### The shell off (R545) -/

theorem State.canOff_tsd (s : State) (cb : CanBus) : SameTsd s (s.canOff cb) :=
  .trans (.trans (t := (s.modCan cb fun c => { c with queue := [], later := [], answered := [], held := [], block := none }).clearBy
      fun m => m.src == canSrc cb && (m.kind == 1 || m.kind == 2))
    ((clearBy_reports (s.modCan cb _) _).obj (by decide)) (.set _ _ (by cases cb <;> decide))) (.set _ _ (by cases cb <;> decide))

theorem State.portOff_tsd (s : State) (p : Port) : SameTsd s
    (((s.set (Obj.PORT_STATE (p.num + 1)) 0).set (Obj.PORT_NBR (p.num + 1)) 0).set (Obj.PORT_DELAY (p.num + 1)) 0) :=
  ((SameTsd.set s _ (by cases p <;> decide)).trans (.set _ _ (by cases p <;> decide))).trans (.set _ _ (by cases p <;> decide))

theorem State.fabOff_tsd (s : State) : SameTsd s s.fabOff := by
  unfold State.fabOff
  extract_lets x y f
  have hports : SameTsd s x := (s.portOff_tsd .east).trans (State.portOff_tsd _ .west)
  have hclear : SameTsd x y := (clearK_reports x 0x0E 2).obj (by decide)
  exact (hports.trans hclear).trans (.trans (.set { y with fab := _ } _ (by decide)) (.set _ _ (by decide)))

theorem State.measStop_tsd (s : State) : SameTsd s s.measStop := by
  have hresult : ∀ ch ∈ List.range 64, Obj.TSD_STATE ≠ Obj.RESULTS ch := by decide
  have hresults : SameTsd s s.noResults := State.obj_foldl (fun y ch hch => State.obj_set_other y _ (hresult ch hch)) s
  have hstop : s.measStop.objs = (s.noResults.set Obj.SCAN_STATE 0).objs := by
    unfold State.measStop
    generalize s.noResults = x
    rfl
  exact (hresults.trans (.set _ 0 (by decide))).trans (.of_objs_eq _ hstop)

theorem State.busesOff_tsd (s : State) : SameTsd s s.busesOff :=
  ((((SameTsd.of_spares s.linksOff_spares).trans (State.canOff_tsd _ .a)).trans (State.canOff_tsd _ .b)).trans
    (State.fabOff_tsd _)).trans (State.measStop_tsd _)

theorem State.shellCut_tsd (s : State) : SameTsd s s.shellCut :=
  (SameTsd.set s s.faultSummary (by decide)).trans (.of_objs_eq s.mirror (by
    unfold State.shellCut
    exact (State.coreOff_parts (p := 0x84e0) rfl (Fr.refl _ s.mirror)).objs rfl))

theorem State.shellCleared_tsd (s : State) : SameTsd s s.shellCleared := by
  unfold State.shellCleared
  iterate 7 refine .trans ?_ (.set _ _ (by decide))
  exact .refl s

theorem State.shellOff_tsd (s : State) : SameTsd s s.shellOff := by
  rw [State.shellOff_eq]
  exact (s.shellCut_tsd.trans (State.busesOff_tsd _)).trans (State.shellCleared_tsd _)

/-! ### Changes of the mode (R55, R62-R71) -/

theorem State.srcState_tsd (s : State) (v : Nat) : SameTsd s (s.srcState v) :=
  (SameTsd.ite (.refl s) (.of_spares s.probeAbandon_spares)).trans (.set _ _ (by decide))

theorem State.groupsOff_tsd (s : State) : SameTsd s s.groupsOff :=
  .trans (t := s.groups.foldl (fun s g => s.stopG g 4) s)
    (.of_parts (p := 0xc0) (Fr.foldl _ (Fr.refl _ s) fun _ _ hy => State.stopG_parts _ _ rfl hy) rfl) (State.srcState_tsd _ 0)

theorem State.enterStorage_tsd (s : State) (cause : Nat) : SameTsd s (s.enterStorage cause) := by
  rw [State.enterStorage_eq]
  exact (((s.groupsOff_tsd.trans (.of_spares (State.setMode_spares _ 0 cause))).trans (State.dropRequests_obj _ (by decide))).trans
    (State.shellOff_tsd _)).trans (.set _ _ (by decide))

theorem State.linkLeave_tsd (s : State) (p : Port) : SameTsd s (s.linkLeave p) :=
  .ite ((SameTsd.of_objs (s.detachFree_sparesBurst p 0x0A).objs (by decide)).trans (.of_objs (State.toRamp_objs _ p) (by decide)))
    (.ite (.of_objs (s.toNeutral_objs p) (by decide)) (.refl s))

theorem State.toService_tsd (s : State) (cause : Nat) : SameTsd s (s.toService cause) :=
  ((SameTsd.of_spares (s.setMode_spares 5 cause)).trans (State.linkLeave_tsd _ .east)).trans (State.linkLeave_tsd _ .west)

theorem State.parkStart_tsd (s : State) (cause : Nat) : SameTsd s (s.parkStart cause) := by
  have hcharger : ∀ x : State, SameTsd x ((x.chgEnter 2 0).writeChg 0) := fun x =>
    .of_spares ((x.chgEnter_spares 2 0).trans (State.writeChg_spares _ 0))
  refine .trans (.trans (.trans ?_ (State.linkLeave_tsd _ .east)) (State.linkLeave_tsd _ .west)) (.of_spares (State.probeAbandon_spares _))
  exact .ite (hcharger { s with mode := { s.mode with park := 1, parkCause := cause } }) (.refl s)

theorem State.epochDiscard_tsd (s : State) : SameTsd s s.epochDiscard := by
  unfold State.epochDiscard
  split
  · exact .refl s
  · refine .trans ?_ ((raise_reports _ _ _ _).obj (by decide))
    exact .trans (.set { s with hz := _ } _ (by decide)) (.set _ _ (by decide))

theorem State.parkAbort_tsd (s : State) : SameTsd s s.parkAbort :=
  .ite (.refl s) (State.epochDiscard_tsd { s with mode := { s.mode with park := 0, parkEpochDone := false, parkRestart := false } })

theorem State.actIdle_tsd (s : State) (t cause : Nat) : SameTsd s (s.actIdle t cause) := by
  refine .ite (.ite (s.parkStart_tsd cause) (.refl s)) (s.parkAbort_tsd.trans ?_)
  exact .ite (.of_spares (State.setMode_spares _ 3 cause)) (.ite (State.toService_tsd _ cause) (.refl _))

theorem State.classStart_tsd (s : State) : SameTsd s s.classStart := by
  refine .ite (s.srcState_tsd 1) (.trans (s.srcState_tsd 1) ?_)
  exact .of_parts (p := 0x10c0) (State.stopG_parts .input 8 rfl (Fr.mk_src (Fr.refl _ _) rfl)) rfl

theorem State.stepNine_tsd (s : State) (vbus : Nat) : SameTsd s (s.stepNine vbus) := by
  have hfree : ∀ x : State, SameTsd x (x.freeG .input 4) := fun x => .of_objs_eq x rfl
  exact (SameTsd.set s 9 (by decide)).trans (.ite ((hfree _).trans (State.classStart_tsd _)) (.refl _))

theorem State.serviceExit_tsd (s : State) : SameTsd s s.serviceExit := by
  have hstart : SameTsd s (s.bringUp 4 1 9) := .set { s with aon := _ } _ (by decide)
  exact .ite (hstart.trans (State.stepNine_tsd _ _)) hstart

theorem State.act_tsd (s : State) : SameTsd s s.act := by
  have hidle : SameTsd s (s.setMode 2 1) := .of_spares (s.setMode_spares 2 1)
  refine .ite (.refl s) (.ite (.refl s) (.ite (.refl s) (.ite (.refl s) ?_)))
  refine .ite (.ite (s.enterStorage_tsd 1) (.refl s)) (.ite (s.actIdle_tsd _ 1) (.ite ?play (.ite ?service (.refl s))))
  case play => exact .ite (.refl s) (.ite (s.toService_tsd 1) (.ite (hidle.trans (State.parkStart_tsd _ 1)) hidle))
  case service => exact .ite (.refl s) (.ite s.serviceExit_tsd (hidle.trans (State.actIdle_tsd _ _ 1)))

theorem State.actStored_tsd (s : State) : SameTsd s s.actStored :=
  (SameTsd.set { s with mode := { s.mode with stored := false } } _ (by decide)).trans (State.act_tsd _)

end Sys2Proof.Machine
end

section
/-!
PROOFS. The thermal shutdown and its release (O18).
-/
namespace Sys2Proof.Machine

/-! ### Every group at Z (R459) -/

/-- The groups stopped in the order of R459, with DISC_GATE off. -/
def State.tsdGroups (s : State) : State :=
  (((if s.hasGroup .east then (s.stopG .east 3).stopG .west 3 else s).stopG .input 3).discOff).stopG .pack 3

theorem State.tsdStop_eq (s : State) : s.tsdStop =
    { s.tsdGroups with core := { s.tsdGroups.core with dropped := s.tsdGroups.core.dropped || s.connected } } := by
  unfold State.tsdStop State.tsdGroups
  with_reducible rfl

theorem State.tsdStop_g (s : State) (g : Group) : s.tsdStop.g g = s.tsdGroups.g g := by
  rw [State.tsdStop_eq]
  generalize s.tsdGroups = x
  rfl

theorem State.discOff_disc (s : State) : s.discOff.core.disc = false := rfl

theorem State.tsdStop_disc (s : State) : s.tsdStop.core.disc = false := by
  have hdisc : s.tsdGroups.core.disc = false := by
    rw [State.tsdGroups, (State.stopG_parts (p := 0xc0) .pack 3 rfl (Fr.refl _ _)).core rfl, State.discOff_disc]
  rw [State.tsdStop_eq]
  generalize s.tsdGroups = x at hdisc
  exact hdisc

theorem State.discOff_sameStop {n : Nat} (hn : n ≠ 0) (s : State) : SameStop n s s.discOff :=
  (s.stopG_sameStop hn .input).trans (.of_grp rfl)

/-- The input group and the pack group, which every variant has, are stopped for the trip. -/
theorem State.tsdStop_stopped (s : State) {g : Group} (h : g = .input ∨ g = .pack) : bit (s.tsdStop.g g).stops 3 = true := by
  rw [State.tsdStop_g, State.tsdGroups]
  rcases h with rfl | rfl
  · rw [State.g_stopG_other _ _ (by decide), State.discOff_sameStop (by decide), State.g_stopG_same]
    exact bit_setBit_same _ _ _
  · rw [State.g_stopG_same]
    exact bit_setBit_same _ _ _

/-! ### What a trip does before its times are kept (R459, R460) -/

/-- The core's part of a trip: the groups stopped, TSD_STATE, its event and its fault. -/
def State.tripSeen (s : State) (site : Nat) : State := ((s.tsdStop.set Obj.TSD_STATE 1).ev 6 12 1).coreRaiseC 0x0A 6 site

/-- The shell's answer to a trip; while the shell is absent the count stays due. -/
def State.tripServed (s : State) (was : Bool) : State :=
  if s.shellUp then (s.count Obj.TSD_COUNT 0xFFFFFFFF).tripShell was
  else { s with aon := { s.aon with tsdDue := s.aon.tsdDue + 1 } }

/-- Without the shell the link groups stay at Z after the release (R461). -/
def State.linksLeft (s : State) : State :=
  if s.shellUp then s else if s.variant == .A then (s.linkZ .east).linkZ .west else s

theorem State.tsdTrip_eq (s : State) (site : Nat) :
    s.tsdTrip site = ((s.tripSeen site).tripServed s.connected).linksLeft.tripTimes := by
  unfold State.tsdTrip State.linksLeft State.tripServed State.tripSeen
  with_reducible rfl

/-- The trip once TSD_STATE is set: an event and a fault. -/
theorem State.tripSeen_told (s : State) (site : Nat) : Told (s.tsdStop.set Obj.TSD_STATE 1) (s.tripSeen site) :=
  (Told.of_reports (ev_reports _ _ _ _)).trans (State.coreRaiseC_told _ _ _ _)

theorem State.tripSeen_parts (s : State) (site : Nat) : Fr 0x820f0 s (s.tripSeen site) :=
  State.coreRaiseC_parts _ _ _ rfl (State.ev_parts _ _ _ rfl (State.set_parts _ _ rfl (State.tsdStop_parts rfl (Fr.refl _ s))))

theorem State.tripSeen_shellUp (s : State) (site : Nat) : (s.tripSeen site).shellUp = s.shellUp :=
  State.shellUp_of_parts (s.tripSeen_parts site) rfl rfl

theorem State.tripServed_parts (s : State) (was : Bool) : Fr 0xd04131f0 s (s.tripServed was) :=
  .ite (State.tripShell_parts was rfl (State.count_parts _ _ rfl (Fr.refl _ s))) (Fr.mk_aon (Fr.refl _ s) rfl)

theorem State.tripServed_of_absent {s : State} (h : s.shellUp = false) (was : Bool) : Fr 0x100 s (s.tripServed was) := by
  rw [State.tripServed, h, if_neg Bool.false_ne_true]
  exact Fr.mk_aon (Fr.refl _ s) rfl

theorem State.linksLeft_parts (s : State) : Fr 0xc0 s s.linksLeft :=
  .ite (Fr.refl _ s) (.ite (State.linkZ_parts .west rfl (State.linkZ_parts .east rfl (Fr.refl _ s))) (Fr.refl _ s))

theorem State.linksLeft_sameStop (s : State) : SameStop 3 s s.linksLeft :=
  .ite (.refl 3 s) (.ite ((s.linkZ_sameStop (by decide) .east).trans (State.linkZ_sameStop (by decide) _ .west)) (.refl 3 s))

/-! ### The shell's part (R459, R460) -/

theorem State.feedforward_objs (s : State) (g : Group) (iff : Int) : (s.feedforward g iff).objs = s.objs := rfl

theorem State.railDisturbed_objs (s : State) : s.SameObjs [Obj.HZ_STATE] s.railDisturbed :=
  .ite (State.set_sameObjs { s with hz := _ } _ (.head _)) (.refl _ s)

theorem State.allocate_objs (s : State) (pff : Nat) : s.SameObjs [Obj.HZ_STATE] (s.allocate pff) := by
  unfold State.allocate
  extract_lets uw inp r1 e w pk s1 s2 s3 s4
  have hfeed : s4.objs = s.objs := by
    simp only [s4, s3, s2, s1, State.feedforward_objs]
  clear_value s4
  have hsame : s.SameObjs [Obj.HZ_STATE] { s4 with env := { s4.env with pff := pff } } := fun k _ => State.obj_congr hfeed k
  exact .ite (hsame.trans (State.railDisturbed_objs _)) hsame

/-- The objects that the shell's part of a trip writes, besides its count. -/
def tripObjs : List Nat := [Obj.HZ_STATE, Obj.CHG_I_CMD, Obj.SRC_STATE] ++ linkObjs

theorem State.srcState_objs (s : State) (v : Nat) : s.SameObjs [Obj.HZ_STATE, Obj.SRC_STATE] (s.srcState v) := by
  have hprobe : s.SameObjs [Obj.HZ_STATE, Obj.SRC_STATE] s.probeAbandon :=
    .ite (State.set_sameObjs { s with hz := { s.hz with probe := 0 } } _ (.head _)) (.refl _ s)
  exact (SameObjs.ite (.refl _ s) hprobe).trans (State.set_sameObjs _ _ (by decide))

theorem State.tripShell_objs (s : State) (was : Bool) : s.SameObjs tripObjs (s.tripShell was) := by
  have hlink : ∀ {x y : State}, x.SameObjs linkObjs y → x.SameObjs tripObjs y := fun h => h.mono fun _ => List.mem_append_right _
  have hfeed (x : State) : x.SameObjs tripObjs (x.allocate 0) := (x.allocate_objs 0).mono (by decide)
  have hcharge (x : State) : x.SameObjs tripObjs (x.writeChg 0) := (x.writeChg_objs 0).mono (by decide)
  have habandon (x : State) : x.SameObjs tripObjs x.classAbandon := fun k _ =>
    State.obj_congr ((State.classAbandon_parts (p := 0x1040) rfl (Fr.refl _ x)).objs rfl) k
  have hsource (x : State) : x.SameObjs tripObjs (x.classAbandon.srcState 3) :=
    (habandon x).trans ((State.srcState_objs _ 3).mono (by decide))
  have hport (x : State) (p : Port) : x.SameObjs tripObjs (if x.inContract p then (x.detachFree p 1).toRamp p else x) :=
    .ite ((hlink (x.detachFree_sparesBurst p 1).objs).trans (hlink (State.toRamp_objs _ p))) (.refl _ x)
  have hcharged := (hfeed s).trans (SameObjs.ite (c := (s.allocate 0).obj Obj.CHG_I_CMD = 0) (.refl _ _) (hcharge _))
  have hleft := hcharged.trans (SameObjs.ite (c := was = true) (hsource _) (.refl _ _))
  exact .ite ((hleft.trans (hport _ .east)).trans (hport _ .west)) hleft

/-! ### The times of the trips (R462) -/

/-- The time of a trip in the retention cell, which holds two. -/
def State.tripKept (s : State) : State := { s with cell := { s.cell with trips := (s.now :: s.cell.trips).take 2 } }

/-- The trips that THERMAL_REPEAT counts. -/
def State.tripsNear (s : State) : List Nat := s.cell.trips.filter fun t => s.now ≤ t + sec 600

theorem State.tripTimes_eq (s : State) : s.tripTimes =
    if 2 ≤ s.tripsNear.length then (s.tripKept.coreRaise 0x0A 7 (s.tripsNear.length + 1)).setOvercast else s.tripKept := by
  unfold State.tripTimes State.tripsNear State.tripKept
  with_reducible rfl

theorem State.setOvercast_disc (s : State) : s.setOvercast.core.disc = s.core.disc := by
  unfold State.setOvercast
  split
  · rfl
  · extract_lets aon hour x y z
    have hlinks : y.core = x.core := Fr.core (p := 0xc0) (.ite (State.stopG_parts .west 4 rfl (State.stopG_parts .east 4 rfl (Fr.refl _ x)))
      (Fr.refl _ x)) rfl
    exact (congrArg Core.disc hlinks :)

theorem State.tripTimes_trips (s : State) : s.tripTimes.cell.trips = (s.now :: s.cell.trips).take 2 := by
  have hrepeat := State.setOvercast_parts (p := 0x40008021f0) rfl
    (State.coreRaise_parts 0x0A 7 (s.tripsNear.length + 1) rfl (Fr.refl _ s.tripKept))
  rw [State.tripTimes_eq]
  split
  · rw [hrepeat.cell rfl]
    rfl
  · rfl

theorem State.tripTimes_objs (s : State) : s.SameObjs [Obj.FAULT_LOST] s.tripTimes := by
  have hrepeat : s.tripKept.SameObjs [Obj.FAULT_LOST] (s.tripKept.coreRaise 0x0A 7 (s.tripsNear.length + 1)).setOvercast :=
    (s.tripKept.coreRaise_objs _ _ _).trans fun k _ =>
      State.obj_congr ((State.setOvercast_parts (p := 0x40008001e0) rfl (Fr.refl _ _)).objs rfl) k
  rw [State.tripTimes_eq]
  exact .trans (t := s.tripKept) (.refl _ s) (.ite hrepeat (.refl _ _))

theorem State.tripTimes_disc (s : State) : s.tripTimes.core.disc = s.core.disc := by
  rw [State.tripTimes_eq]
  split
  · rw [State.setOvercast_disc, (State.coreRaise_told _ _ _ _).disc]
    rfl
  · rfl

theorem State.tripTimes_sameStop (s : State) : SameStop 3 s s.tripTimes := by
  rw [State.tripTimes_eq]
  exact .trans (t := s.tripKept) (.of_grp rfl)
    (.ite ((SameStop.of_grp (State.coreRaise_told _ _ _ _).grp).trans (State.setOvercast_sameStop (by decide) _)) (.refl 3 _))

/-! ### The release (R461) -/

/-- The release before the link ports: TSD_STATE clear, and the reason to stop gone from every group. -/
def State.tripCleared (s : State) : State := ((s.set Obj.TSD_STATE 0).ev 6 12 0).coreClearK 0x0A 6

/-- The same with the groups let go. -/
def State.tripFreed (s : State) : State := s.tripCleared.groups.foldl (fun s g => s.freeG g 3) s.tripCleared

/-- The same with the link ports back in NEUTRAL. -/
def State.portsFreed (s : State) : State :=
  if s.shellUp && s.variant == .A then
    [Port.east, Port.west].foldl (fun s p => if s.inContract p || s.lState p == 9 then s.toNeutral p else s) s
  else s

theorem State.tsdRelease_eq (s : State) : s.tsdRelease =
    if s.tripFreed.portsFreed.mode.stored && s.tripFreed.portsFreed.shellUp && !s.tripFreed.portsFreed.bringing
    then s.tripFreed.portsFreed.actStored else s.tripFreed.portsFreed := by
  unfold State.tsdRelease State.portsFreed State.tripFreed State.tripCleared
  with_reducible rfl

theorem State.tripCleared_told (s : State) : Told (s.set Obj.TSD_STATE 0) s.tripCleared :=
  (Told.of_reports (ev_reports _ _ _ _)).trans (State.coreClearK_told _ _ _)

theorem State.tripFreed_parts (s : State) : Fr 0x82070 s s.tripFreed :=
  Fr.foldl _ (State.coreClearK_parts _ _ rfl (State.ev_parts _ _ _ rfl (State.set_parts _ _ rfl (Fr.refl _ s))))
    fun _ _ hy => State.freeG_parts _ _ rfl hy

theorem State.foldl_freeG_objs (l : List Group) (n : Nat) (s : State) : (l.foldl (fun s g => s.freeG g n) s).objs = s.objs :=
  (Fr.foldl (p := 0x40) l (Fr.refl _ s) fun _ _ hy => State.freeG_parts _ n rfl hy).objs rfl

theorem State.tripFreed_tsd (s : State) : s.tripFreed.obj Obj.TSD_STATE = 0 :=
  (State.obj_congr (State.foldl_freeG_objs _ _ _) _).trans ((s.tripCleared_told.obj (by decide)).trans (State.obj_set_same _ _ _))

theorem State.tripFreed_objs (s : State) : s.SameObjs [Obj.TSD_STATE, Obj.FAULT_LOST] s.tripFreed :=
  ((s.set_sameObjs 0 (.head _)).trans (s.tripCleared_told.objs.mono (by decide))).trans fun k _ =>
    State.obj_congr (State.foldl_freeG_objs _ _ _) k

/-- A reason to stop that is taken from a list of groups stands in none of them. -/
theorem State.foldl_freeG_free {g : Group} {n : Nat} (l : List Group) {s : State} (h : g ∈ l ∨ bit (s.g g).stops n = false) :
    bit ((l.foldl (fun s g => s.freeG g n) s).g g).stops n = false := by
  induction l generalizing s with
  | nil => exact h.resolve_left List.not_mem_nil
  | cons x l ih =>
    refine ih (or_iff_not_imp_left.mpr fun hl => ?_)
    by_cases hx : g = x
    · rw [hx, State.stops_freeG_same, bit_setBit_same]
    · rw [State.g_freeG_other _ _ hx]
      exact h.resolve_left fun hmem => (List.mem_cons.mp hmem).elim hx hl

theorem State.mem_groups {s : State} {g : Group} (h : s.hasGroup g = true) : g ∈ s.groups :=
  List.mem_filter.mpr ⟨by cases g <;> decide, h⟩

theorem State.tripFreed_free {s : State} {g : Group} (h : s.hasGroup g = true) : bit (s.tripFreed.g g).stops 3 = false := by
  have hvariant : s.tripCleared.variant = s.variant := s.tripCleared_told.variant.trans
    (State.variant_congr (State.obj_set_other _ _ (by decide)))
  refine State.foldl_freeG_free _ (.inl (State.mem_groups ?_))
  rw [State.hasGroup_congr hvariant, h]

theorem State.portsFreed_parts (s : State) : Fr 0x500120f0 s s.portsFreed :=
  .ite (.foldl _ (Fr.refl _ s) fun _ p hy => .ite (State.toNeutral_parts p rfl hy) hy) (Fr.refl _ s)

theorem State.portsFreed_sameStop (s : State) : SameStop 3 s s.portsFreed :=
  .ite (.foldl _ (.refl 3 s) fun y p => .ite (y.toNeutral_sameStop (by decide) (by decide) p) (.refl 3 y)) (.refl 3 s)

theorem State.portsFreed_objs (s : State) : s.SameObjs linkObjs s.portsFreed := by
  have hport (x : State) (p : Port) : x.SameObjs linkObjs (if x.inContract p || x.lState p == 9 then x.toNeutral p else x) :=
    .ite (x.toNeutral_objs p) (.refl _ x)
  exact .ite ((hport s .east).trans (hport _ .west)) (.refl _ s)

/-! ### The commands -/

theorem exec_thermalShutdown {s : State} (site : Fin 8) (hpower : s.tsdPowered = true) (htsd : s.obj Obj.TSD_STATE = 0) :
    exec (.thermalShutdown site) s = .next (s.logged (State.tsdTrip · site.val)) := by
  have hexec : exec (.thermalShutdown site) s = execThermalShutdown site s := rfl
  rw [hexec, execThermalShutdown, State.logged, if_pos (by simp [hpower, htsd])]
  rfl

theorem exec_thermalShutdownRelease {s : State} (htsd : s.obj Obj.TSD_STATE = 1) (hover : s.aon.overcast = false) :
    exec .thermalShutdownRelease s = .next (s.logged State.tsdRelease) := by
  have hexec : exec .thermalShutdownRelease s = execThermalShutdownRelease s := rfl
  rw [hexec, execThermalShutdownRelease, State.logged, if_pos ⟨htsd, by rw [hover]; rfl⟩]
  rfl

/-- A trip keeps its time beside that of the last one (R462). -/
theorem State.tsdTrip_trips (s : State) (site : Nat) : (s.tsdTrip site).cell.trips = (s.now :: s.cell.trips).take 2 := by
  have hseen := s.tripSeen_parts site
  have hserved := State.tripServed_parts (s.tripSeen site) s.connected
  have hlinks := State.linksLeft_parts ((s.tripSeen site).tripServed s.connected)
  rw [State.tsdTrip_eq, State.tripTimes_trips, hlinks.now rfl, hserved.now rfl, hseen.now rfl, hlinks.cell rfl, hserved.cell rfl, hseen.cell rfl]

/-- With the shell absent the core does it all: TSD_STATE, DISC_GATE off, the groups stopped (R459). -/
theorem State.tsdTrip_of_absent {s : State} (h : s.shellUp = false) (site : Nat) :
    (s.tsdTrip site).obj Obj.TSD_STATE = 1 ∧ (s.tsdTrip site).core.disc = false ∧
      ∀ g, g = .input ∨ g = .pack → bit ((s.tsdTrip site).g g).stops 3 = true := by
  have hseen := s.tripSeen_told site
  have hserved := State.tripServed_of_absent ((s.tripSeen_shellUp site).trans h) s.connected
  have hlinks := State.linksLeft_parts ((s.tripSeen site).tripServed s.connected)
  rw [State.tsdTrip_eq]
  refine ⟨?_, ?_, fun g hg => ?_⟩
  · rw [State.tripTimes_objs _ _ (by decide), State.obj_congr (hlinks.objs rfl), State.obj_congr (hserved.objs rfl), hseen.obj (by decide),
      State.obj_set_same]
  · rw [State.tripTimes_disc, hlinks.core rfl, hserved.core rfl, hseen.disc, State.set_core, State.tsdStop_disc]
  · rw [State.tripTimes_sameStop, State.linksLeft_sameStop, SameStop.of_grp (hserved.grp rfl), SameStop.of_grp hseen.grp,
      SameStop.of_grp (State.set_grp _ _ _), State.tsdStop_stopped s hg]

/-- With the shell up the trip is counted (R463). -/
theorem State.tsdTrip_count {s : State} (h : s.shellUp = true) (site : Nat) :
    (s.tsdTrip site).obj Obj.TSD_COUNT = satInc 0xFFFFFFFF (s.obj Obj.TSD_COUNT) := by
  have hseen : (s.tripSeen site).obj Obj.TSD_COUNT = s.obj Obj.TSD_COUNT := by
    rw [(s.tripSeen_told site).obj (by decide), State.obj_set_other _ _ (by decide),
      State.obj_congr ((State.tsdStop_parts (p := 0xe0) rfl (Fr.refl _ s)).objs rfl)]
  have hlinks := State.linksLeft_parts ((s.tripSeen site).tripServed s.connected)
  rw [State.tsdTrip_eq, State.tripTimes_objs _ _ (by decide), State.obj_congr (hlinks.objs rfl), State.tripServed, State.tripSeen_shellUp, h,
    if_pos rfl, State.tripShell_objs _ _ _ (by decide), State.count, State.obj_put_same _ _ (by decide), hseen]

theorem State.portsFreed_of_absent {s : State} (h : s.shellUp = false) : s.portsFreed = s := by
  rw [State.portsFreed, h]
  rfl

/-- The stored target waits on as long as the shell is not up or a bring-up runs (R63). -/
theorem State.tsdRelease_of_waiting {s : State} (h : s.mode.stored = false ∨ s.shellUp = false ∨ s.bringing = true) :
    s.tsdRelease = s.tripFreed.portsFreed := by
  have hfreed := s.tripFreed_parts
  have hports := s.tripFreed.portsFreed_parts
  have hstored : s.tripFreed.portsFreed.mode.stored = s.mode.stored := by rw [hports.mode rfl, hfreed.mode rfl]
  have hup : s.tripFreed.portsFreed.shellUp = s.shellUp :=
    (State.shellUp_of_parts hports rfl rfl).trans (State.shellUp_of_parts hfreed rfl rfl)
  have hbring : s.tripFreed.portsFreed.bringing = s.bringing := by
    rw [State.bringing, State.portsFreed_objs _ _ (by decide), s.tripFreed_objs _ (by decide), State.bringing]
  rw [State.tsdRelease_eq, hstored, hup, hbring]
  refine if_neg fun hdue => ?_
  simp only [Bool.and_eq_true, Bool.not_eq_true'] at hdue
  obtain ⟨⟨hs, hu⟩, hb⟩ := hdue
  simp [hs, hu, hb] at h

theorem State.tsdRelease_tsd (s : State) : s.tsdRelease.obj Obj.TSD_STATE = 0 := by
  have hports : s.tripFreed.portsFreed.obj Obj.TSD_STATE = 0 := (State.portsFreed_objs _ _ (by decide)).trans s.tripFreed_tsd
  rw [State.tsdRelease_eq]
  split
  · exact Eq.trans (State.actStored_tsd _) hports
  · exact hports

/-- Settles O18: a trip stops the groups and is then answered by the shell or left to be counted, before its time is kept; the release frees
every group, and neither the link ports nor a stored target put the reason back. -/
theorem thermalShutdownAndRelease : Obligations.ThermalShutdownAndRelease := by
  refine ⟨fun site s hpower htsd => ?trip, fun s htsd hover => ?release⟩
  case trip =>
    have hexec := exec_thermalShutdown site hpower htsd
    have hlog := s.logged_told (State.tsdTrip · site.val)
    refine ⟨_, hexec, ?_, fun habsent => ?_, fun hup => ?_, (execThermalShutdown_parts site hexec).only rfl⟩
    · rw [State.logged_cell, State.tsdTrip_trips]
    · obtain ⟨hstate, hdisc, hstops⟩ := State.tsdTrip_of_absent habsent site.val
      rw [hlog.obj (by decide), hlog.disc, hlog.g, hlog.g]
      exact ⟨hstate, hdisc, hstops _ (.inl rfl), hstops _ (.inr rfl)⟩
    · rw [hlog.obj (by decide), State.tsdTrip_count hup]
  case release =>
    have hlog := s.logged_told State.tsdRelease
    refine ⟨_, exec_thermalShutdownRelease htsd hover, ?_, fun hwait g hg => ?_, fun habsent => ?_⟩
    · rw [hlog.obj (by decide), State.tsdRelease_tsd]
    · rw [hlog.g, State.tsdRelease_of_waiting hwait, State.portsFreed_sameStop, State.tripFreed_free hg]
    · have hfreed : s.tsdRelease = s.tripFreed :=
        (State.tsdRelease_of_waiting (.inr (.inl habsent))).trans
          (State.portsFreed_of_absent ((State.shellUp_of_parts s.tripFreed_parts rfl rfl).trans habsent))
      have hparts : Fr 0x82070 s (s.logged State.tsdRelease) :=
        State.logDiff_parts s rfl (hfreed ▸ s.tripFreed_parts)
      exact ⟨hparts.only rfl, (hfreed ▸ s.tripFreed_objs : s.SameObjs _ s.tsdRelease).trans (hlog.objs.mono (by decide))⟩

end Sys2Proof.Machine
end
